-- ==== Sys2Proof/Word.lean ====
section
/-! DEFINITION. The plainest arithmetic of the model. Quantities of the spec are counts of bytes, blocks, nanoseconds
and units, so they are natural numbers, cut to a field's width where a register holds them. -/

namespace Sys2Proof

/-- A value cut to `w` bits. -/
def cut (w v : Nat) : Nat := v % 2 ^ w

/-- A count that stops at the largest value of `w` bits. -/
def sat (w v : Nat) : Nat := min v (2 ^ w - 1)

/-- Bit `b` of `v`. -/
def bit (v b : Nat) : Bool := v.testBit b

/-- The bits `lo` to `lo + w - 1` of `v`. -/
def bits (v lo w : Nat) : Nat := (v / 2 ^ lo) % 2 ^ w

/-- A quotient rounded up. -/
def ceilDiv (a b : Nat) : Nat := (a + b - 1) / b

/-- A Bool as a bit. -/
def b2n (b : Bool) : Nat := if b then 1 else 0

/-- A signed value as `w` bits of two's complement. -/
def ofSigned (w : Nat) (x : Int) : Nat := (x % (2 ^ w : Int)).toNat

/-- The signed value of `w` bits of two's complement. -/
def toSigned (w v : Nat) : Int := if v < 2 ^ (w - 1) then (v : Int) else (v : Int) - 2 ^ w

end Sys2Proof
end

