-- ==== Sys2Proof/Machine/Operands.lean ====
section
/-! DEFINITION. The operand forms of the commands: who sends one, and the operands that have fields of their own. -/

namespace Sys2Proof.Machine

/-- Who sent a command: a PCIe function's admin queue, a fabric association's admin queue, NVMe-MI, or an I/O queue by
its device queue index. -/
inductive Org
  | fn (n : Nat)
  | fab (a : Nat)
  | mi
  | io (q : Nat)
deriving DecidableEq, Repr

/-- An IFT header (05 R116), with `rsv` whether a reserved field is not 0. -/
structure IftHdr where
  ver : Nat
  ty : Nat
  first : Bool
  last : Bool
  srcts : Bool
  restart : Bool
  rsv : Bool
  sid : Nat
  frame : Nat
  flen : Nat
  off : Nat
  head : Nat
  src : Nat
deriving DecidableEq, Repr

/-- A translation entry as a Bind writes it: window base and size, permissions, whether a range of device DRAM. -/
structure XltWant where
  base : Nat
  size : Nat
  rd : Bool
  wr : Bool
  cxl : Bool
deriving DecidableEq, Repr

/-- An error that a memory of R433's table showed: its memory ID, word address, whether it is uncorrectable, and what the word held, three
numbers that `State.memErr` reads by memory. -/
structure MemErr where
  mem : Nat
  addr : Nat
  ue : Bool
  a : Nat
  b : Nat
  c : Nat
deriving DecidableEq, Repr

end Sys2Proof.Machine
end

