-- ==== Sys2Proof/Syntax.lean ====
section
/-! DEFINITION. The commands: one constructor for each row of the opcode table, with its operands. -/

namespace Sys2Proof

open Machine (Org XltWant MemErr)

/-- A command of the block. -/
inductive Instr
  /-- Slice Management action 0x01 takes the descriptor's resources from the pools atomically and moves a FREE slice to ACTIVE
  (R41). -/
  | sliceCreate (o : Org) (cid act n : Nat) (desc : List Nat)
  /-- Slice Management action 0x02 changes an ACTIVE slice's limits, deleting nothing when a limit falls below use (R50). -/
  | sliceResize (o : Org) (cid n : Nat) (desc : List Nat)
  /-- Slice Management action 0x03 moves the slice to DELETING, crypto-erases and resets its namespaces and returns its
  resources (R61). -/
  | sliceDelete (o : Org) (cid n : Nat)
  /-- Slice Management action 0x04 stops fetch, advances generations, drops uncommitted work, empties the queues and returns
  the slice to ACTIVE or FENCED (R55). -/
  | sliceReset (o : Org) (cid n : Nat)
  /-- Slice Management action 0x05 fences an ACTIVE slice and completes its unfinished commands with 0xC0 (R59). -/
  | sliceFence (o : Org) (cid n : Nat)
  /-- Slice Management action 0x06 performs reset steps 2 to 5 on one queue named by its device queue index (R56). -/
  | queueReset (o : Org) (cid n i rsv : Nat)
  /-- Slice Management action 0x07 adds a function-and-PASID or NQN binding to a slice after checking the binding rules (R43).
  -/
  | sliceBind (o : Org) (cid n idx kind func : Nat) (pasid : Option Nat) (host sub : Nat) (ents : List XltWant)
  /-- Slice Management action 0x08 removes a binding, stopping new Connects and queue creations under it (R44). -/
  | sliceUnbind (o : Org) (cid n idx kind : Nat)
  /-- Capture Stream Management action 0x01 checks a 512-byte descriptor and moves a FREE stream to IDLE (R112). -/
  | captureStreamCreate (o : Org) (cid act k : Nat) (desc : List Nat)
  /-- Capture Stream Management action 0x02 changes the stall timeout, partial policy, lane program or lane mask (R111). -/
  | captureStreamModify (o : Org) (cid k : Nat) (desc : List Nat)
  /-- Capture Stream Management action 0x03 moves an IDLE stream to RUNNING at its saved log position (R113). -/
  | captureStreamStart (o : Org) (cid k : Nat)
  /-- Capture Stream Management action 0x04 closes frames in assembly under the partial policy and closes the held zones
  (R114). -/
  | captureStreamStop (o : Org) (cid k : Nat)
  /-- Capture Stream Management action 0x05 finishes the zones the stream holds and returns the stream to FREE (R114). -/
  | captureStreamDelete (o : Org) (cid k : Nat)
  /-- Layout Management action 0x01 builds a shadow layout for a group from a supplement and starts moving zones to it (R180).
  -/
  | beginReshape (o : Org) (cid act g sup : Nat)
  /-- Layout Management action 0x02 reverses the roles of the two layouts and copies switched zones back (R181). -/
  | abortReshape (o : Org) (cid : Nat)
  /-- Layout Management action 0x03 quiesces a cartridge position, downs its hop without break handling and sets REMOVE_OK
  (R204). -/
  | prepareRemoval (o : Org) (cid l b : Nat)
  /-- Firmware Download writes a range into the 16 MiB update buffer in DRAM (R388). -/
  | firmwareDownload (o : Org) (cid off len : Nat) (data : List Nat)
  /-- Firmware Commit action 000 writes the buffer to a slot and verifies it, leaving the directory unchanged (R390). -/
  | firmwareCommitCa000 (o : Org) (cid fs nor : Nat) (spd : Bool)
  /-- Firmware Commit action 001 writes and verifies the slot and sets it as the trial slot for one start (R389). -/
  | firmwareCommitCa001 (o : Org) (cid fs nor : Nat) (spd : Bool)
  /-- Firmware Commit action 010 verifies the image already in a slot and sets it as the trial slot (R389). -/
  | firmwareCommitCa010 (o : Org) (cid fs : Nat) (spd : Bool)
  /-- Firmware Commit action 011 writes the slot, exchanges Puppeteer firmware, activates the live sections and writes the
  directory (R391). -/
  | firmwareCommitCa011 (o : Org) (cid fs nor : Nat) (spd : Bool)
  /-- Create I/O Submission Queue binds a new queue to a binding, class and completion queue after the base checks (R501). -/
  | createIoSubmissionQueue (o : Org) (cid qid qsize cqid bind lc : Nat) (ff : Bool) (base : Nat)
  /-- Create I/O Completion Queue creates a completion queue with its own unshared MSI-X vector (R81). -/
  | createIoCompletionQueue (o : Org) (cid cqid qsize vec : Nat)
  /-- Delete I/O Completion Queue removes a completion queue unless it still serves a submission queue (R501). -/
  | deleteIoCompletionQueue (o : Org) (cid cqid : Nat)
  /-- Delete I/O Submission Queue removes a submission queue as the NVMe base specification defines (R501). -/
  | deleteIoSubmissionQueue (o : Org) (cid qid : Nat)
  /-- A fabric Connect binds an association to the slice of its NQN pair or is refused (R42). -/
  | connect (qp cid qid size host sub kato a : Nat) (auth : Bool)
  /-- Set Features 0xC2 changes an I/O queue's latency class and fail-fast default (R67). -/
  | setFeaturesQueueClass (o : Org) (cid qid lc : Nat) (ff : Bool)
  /-- Get Features 0xC2 returns a queue's class and fail-fast default (R67). -/
  | getFeaturesQueueClass (o : Org) (cid qid : Nat)
  /-- Set Features Timestamp from PF0 or NVMe-MI steps TIME_NS to the host time and sets SRC to SET (R422). -/
  | setFeaturesTimestamp (o : Org) (cid ms waited : Nat)
  /-- Get Features Timestamp returns TIME_NS with its origin and synch flags (R417). -/
  | getFeaturesTimestamp (o : Org) (cid : Nat)
  /-- Set Features Power Management from PF0 sets the host step or the deepest allowed idle state (R398). -/
  | setFeaturesPowerManagement (o : Org) (cid ps : Nat)
  /-- Set Features Autonomous Power State Transition from PF0 configures autonomous idle states (R398). -/
  | setFeaturesApst (o : Org) (cid : Nat) (en : Bool) (ents : List (Nat × Nat))
  /-- Set Features 08h sets interrupt coalescing for a function (R82). -/
  | setFeaturesInterruptCoalescing (o : Org) (cid time thr : Nat)
  /-- Set Features 09h sets coalescing disable for one vector (R82). -/
  | setFeaturesIntVectorConfig (o : Org) (cid vec : Nat) (cd : Bool)
  /-- Set Features 04h sets a temperature threshold for the composite or a remote sensor (R413). -/
  | setFeaturesTempThreshold (o : Org) (cid sensor : Nat) (under : Bool) (kelvin : Nat)
  /-- Get Log Page 0xD0 returns the reader's view of the event queue and, with Retain clear, removes the returned entries and
  unmasks the class (R443). -/
  | getLogPageEventQueue (o : Org) (cid off len : Nat) (rae : Bool)
  /-- Get Log Page 0xBF returns and clears the reading controller's Changed Zone List (R444). -/
  | getLogPageChangedZoneList (o : Org) (cid nsid : Nat)
  /-- Get Log Page 0xD1 returns the record of the latest calibration sweep (R366). -/
  | getLogPageCalibrationSweep (o : Org) (cid off len : Nat)
  /-- Get Log Page 0xD2 returns the record of the latest temperature sweep (R366). -/
  | getLogPageTemperatureSweep (o : Org) (cid off len : Nat)
  /-- Get Log Page 0xD3 returns the live event recorder buffer without clearing it (R430). -/
  | getLogPageRecorderLive (o : Org) (cid off len : Nat)
  /-- Get Log Page 0xD4 returns one NAND recorder copy selected by LSP (R430). -/
  | getLogPageRecorderNand (o : Org) (cid lsp off len : Nat)
  /-- Get Log Page 0xD5 returns one flush from the NOR ring selected by LSP (R430). -/
  | getLogPageRecorderNor (o : Org) (cid lsp off len : Nat)
  /-- Get Log Page 02h returns critical warning, spare, percentage used, unsafe shutdowns and integrity errors (R444). -/
  | getLogPageSmartHealth (o : Org) (cid : Nat)
  /-- Get Log Page 01h returns the Error Information log entries (R445). -/
  | getLogPageErrorInformation (o : Org) (cid n : Nat)
  /-- Identify returns controller and namespace data, including the ZNS options and TNVMCAP (R86). -/
  | identify (o : Org) (cid cns nsid : Nat)
  /-- Namespace create assigns the lowest free NSID and zone handles after capacity and format checks (R502). -/
  | namespaceCreate (o : Org) (cid : Nat) (zoned : Bool) (nsze ncap lbaf dg cipher : Nat)
  /-- Namespace delete advances or retires the key generation and releases the namespace and its maps (R289). -/
  | namespaceDelete (o : Org) (cid nsid : Nat)
  /-- A namespace attachment command attaches or detaches an existing namespace to controllers (R502). -/
  | namespaceAttachment (o : Org) (cid nsid : Nat) (detach : Bool) (ctls : List Nat)
  /-- Format NVM discards the namespace's data and advances its key generation (R289). -/
  | formatNvm (o : Org) (cid nsid lbaf : Nat)
  /-- Sanitize with Crypto Erase advances the key generation of every namespace (R289). -/
  | sanitizeCryptoErase (o : Org) (cid : Nat)
  /-- An Asynchronous Event Request is held until an event the controller is entitled to completes it (R442). -/
  | asyncEventRequest (o : Org) (cid : Nat)
  /-- A Keep Alive command restarts the association's keep-alive timer (R304). -/
  | keepAlive (o : Org) (cid : Nat)
  /-- Expiry of KATO ends the association and resets its queues (R304). -/
  | keepAliveExpiry (a : Nat)
  /-- A Read is admitted, looked up in the zone table or map, sensed, decoded and returned, or returns zeros (R97). -/
  | read (q cid nsid lba len : Nat) (lr : Bool) (addr : Nat) (es : List MemErr)
  /-- A Write to a zoned namespace is tested in order and then reserves staging, enters the zone hold, or fails (R504). -/
  | write (q cid nsid lba len : Nat) (lr fua : Bool)
  /-- A Zone Append naming the zone start reserves staging and is assigned its LBA at its commit point (R96). -/
  | zoneAppend (q cid nsid zslba len : Nat) (lr : Bool)
  /-- Write Zeroes is admitted at execution start and journals a deallocation-style change (R505). -/
  | writeZeroes (q cid nsid lba len : Nat) (lr : Bool)
  /-- Deallocate unmaps conventional blocks and returns their capacity units at completion (R49). -/
  | deallocate (q cid nsid : Nat) (ranges : List (Nat × Nat))
  /-- A Flush to a conventional namespace forces partial page-rows to flash with parity in the partial parity log (R171). -/
  | flush (q cid nsid : Nat)
  /-- Frame Read reads an index record and its extent, decrypts, decompresses, checks and returns the raw frame (R139). -/
  | frameRead (q cid nsid lba slot blen : Nat) (lr : Bool) (addr : Nat)
  /-- Zone Management Send Open explicitly opens a zone, honouring a placement hint when it makes the zone active (R90). -/
  | zoneOpen (q cid nsid zslba : Nat) (sel lr : Bool) (hint : Nat)
  /-- Zone Management Send Close moves an open zone to Closed or Empty (R90). -/
  | zoneClose (q cid nsid zslba : Nat) (sel lr : Bool)
  /-- Zone Management Send Finish moves a zone to Full, padding its current stripe row (R90). -/
  | zoneFinish (q cid nsid zslba : Nat) (sel lr : Bool)
  /-- Zone Management Send Reset returns a zone to Empty and hands its stripe rows to reclamation (R90). -/
  | zoneReset (q cid nsid zslba : Nat) (sel lr : Bool)
  /-- Zone Management Send Offline moves a Read Only zone to Offline and returns its rows to reclamation (R93). -/
  | zoneOffline (q cid nsid zslba : Nat) (sel lr : Bool)
  /-- Zone Management Receive Report Zones returns zone descriptors with the requested options (R86). -/
  | reportZones (q cid nsid slba opt : Nat) (part : Bool) (max addr : Nat)
  /-- Zone Management Receive Extended Report Zones fails with Invalid Field in Command (R86). -/
  | extendedReportZones (q cid nsid slba : Nat)
  /-- A write whose whole staging reservation completes is admitted and its data is fetched or received (R144). -/
  | writeAdmit (q cid addr : Nat) (data : List Nat)
  /-- When all of a write's data is in staging it commits, advances the write pointer and generates its completion (R53). -/
  | writeCommit (q cid : Nat) (es : List MemErr)
  /-- A held Write that is not fail-fast fails with Zone Invalid Write after HOLD_TMO (R95). -/
  | zoneHoldTimeout (q cid : Nat)
  /-- A fail-fast command whose deadline passes before it finishes completes with 0xC5 (R72). -/
  | deadlineMiss (q cid : Nat)
  /-- A zone activation that waited under the reclamation throttle is tried again from the start (R103). -/
  | placementRetry (q cid : Nat)
  /-- At each 1 ms boundary charges are normalised and carried, pending changes applied, buckets refilled and background
  counters cleared (R78). -/
  | ledgerEpoch
  /-- A doorbell write makes commands visible, stamps their arrival and deadline, or raises Invalid Doorbell Register (R68).
  -/
  | doorbellWrite (f qid : Nat) (cq : Bool) (v : Nat)
  /-- The port, slice and queue arbiters grant a command-engine slot and one command is fetched or processed (R73). -/
  | commandFetch (cid : Nat) (perr : Bool)
  /-- When a die is free or an operation arrives during an erase, the scheduler chooses and issues the next operation,
  possibly suspending the erase (R215). -/
  | dieOperationIssue (d : Nat)
  /-- READ DATA of a sensed codeword arrives and the codeword is queued for decoding (R213). -/
  | dieReadDone (d : Nat) (temp : Int) (busy : Nat) (es : List MemErr)
  /-- A STATUS record reports a program or pass done and the next pass or verify read follows (R209). -/
  | programDone (d : Nat) (temp : Int) (busy : Nat)
  /-- A STATUS record reports an erase done and the block becomes erased at its chosen tier (R214). -/
  | eraseDone (d : Nat) (temp : Int) (busy : Nat)
  /-- A STATUS record reports an erase suspended and the winning operation runs inside it (R216). -/
  | eraseSuspended (d : Nat) (temp : Int) (prog : Nat)
  /-- A failed program marks the block grown bad and copies its verified wordlines to a replacement (R221). -/
  | programFail (d planes : Nat) (temp : Int) (busy : Nat)
  /-- A failed erase marks the block grown bad and the waiting operation takes the next erased block (R222). -/
  | eraseFail (d planes : Nat) (temp : Int) (busy : Nat)
  /-- An operation past its maximum plus 1 ms is ended by a die reset and handled by kind (R210). -/
  | dieOpTimeout (d : Nat)
  /-- A fine pass pending 50 ms after its coarse pass is raised to urgency 3 (R209). -/
  | finePassUrgent (d : Nat)
  /-- A decode ends and the codeword is returned or climbs the next ladder step (R242). -/
  | decodeDone (id : Nat) (ok : Bool) (bits mean unsat : Nat) (probe : List (Nat × Nat × Nat))
  /-- A decoder holding a codeword over 20 µs is fenced and its codewords re-issued from the raw sense buffer (R241). -/
  | decoderWatchdog (d rsn : Nat)
  /-- An eligible window wordline is folded on-die into its QLC target (R153). -/
  | foldIssue (conv : Bool) (h r : Nat)
  /-- Patrol reads a block's codewords, updates its bit level and schedules refresh or reconstruction (R246). -/
  | patrolRead
  /-- Every PERIOD hours and after start-up a sweep measures each reachable die and replaces its corrections (R248). -/
  | calibrationSweep (d : Option Nat) (res : Option (List (Nat × Nat × List Int)))
  /-- A die whose temperature moved by DT is measured for its current read-temperature bin (R249). -/
  | temperatureSweep (d : Nat) (res : Option (List (Nat × Nat × List Int)))
  /-- Once per hour the wear index of each die and Percentage Used are computed (R225). -/
  | wearForecast
  /-- Once per hour the read-channel corrections are written to the system area (R239). -/
  | correctionSave
  /-- Background reclamation erases blocks holding no valid data and collects conventional rows while free space is low
  (R273). -/
  | reclamation (d : Nat)
  /-- A relocation copies, verifies, journals, switches the map, waits for readers and erases the old location (R270). -/
  | relocation (id : Nat) (ok : Bool)
  /-- Rebuild reconstructs stripes of a substituted member into its new block and journals completion (R176). -/
  | rebuildStripe (conv : Bool) (h r m : Nat)
  /-- A member unreachable for DELAY counts as lost and is substituted by a block on another link (R175). -/
  | substitutionDelayExpiry (d : Nat)
  /-- A read waiting for an unreachable member past UNREACH_WAIT fails with 0xC8 (R173). -/
  | unreachWaitExpiry (q cid : Nat)
  /-- Incomplete page-rows older than FILL_TMO or forced by low free space move to the staging overflow (R147). -/
  | stagingOverflowMove (conv : Bool) (h r w p : Nat)
  /-- A full journal page, or one COMMIT_US after its oldest entry, is programmed on two dies (R264). -/
  | journalPageCommit (bad : Option Nat)
  /-- When both copies of a journal page are verified its entries become persistent and waiting actions proceed (R265). -/
  | journalPagePersist (i : Nat)
  /-- At persistence of a generation advance the namespace's slots are revoked and unfinished cipher work is refused with 0xC7
  (R292). -/
  | keyGenerationAdvance (slice nsid : Nat)
  /-- A checkpoint begins on journal volume, interval, shutdown notification or Jack entry and writes snapshots (R267). -/
  | checkpointStart
  /-- Once snapshots and old dirty lines are written CKPT_END is written and ring space before S is freed (R267). -/
  | checkpointEnd
  /-- A dirty map cache line is written back on eviction, checkpoint or in the background above WB_PCT (R260). -/
  | mapWriteback (nsid page : Nat)
  /-- A map page fill arrives, is checked and serves the waiting lookups, or is dropped if poisoned (R259). -/
  | mapFillArrival (nsid page : Nat) (ok : Bool)
  /-- A hop completes ALIGN, chooses its width and enters ACTIVE (R186). -/
  | hopTrainingDone (l h lanes : Nat) (extra : Bool)
  /-- A hop that fails EQ or ALIGN three times goes to DOWN (R186). -/
  | hopTrainingFail (l h : Nat)
  /-- Every RETRAIN interval the upstream end restarts a DOWN hop from RESET (R200). -/
  | hopRetrain (l h : Nat)
  /-- A direction idle for QUIET_ENTRY with all flits acknowledged sends a quiet notice and enters QUIET (R188). -/
  | quietEntry (l h : Nat) (up : Bool)
  /-- A sender with a flit to send leaves QUIET with a 96 UI preamble burst (R189). -/
  | burstStart (l h : Nat) (up ok : Bool)
  /-- Every KEEPALIVE interval in QUIET the sender sends one IDLE flit burst (R190). -/
  | keepalive (l h : Nat) (up seen : Bool)
  /-- A received flit is FEC-corrected and CRC-checked, then delivered in order or rejected with a NAK (R192). -/
  | flitReceive (l h : Nat) (up : Bool) (sym : List (List Int))
  /-- A NAK makes the sender replay from the named sequence number (R196). -/
  | nakReceived (l h : Nat) (up : Bool) (seq : Nat)
  /-- No ACK advance for 1 µs with unacknowledged flits makes the sender replay from the oldest (R196). -/
  | replayTimeout (l h : Nat) (up : Bool)
  /-- Loss of flit lock moves the hop to RECOVER and, if that fails, to DOWN (R197). -/
  | flitLockLoss (l h : Nat) (up : Bool)
  /-- A hop with no forward progress for 50 µs is declared down (R197). -/
  | noProgress (l h : Nat) (up : Bool)
  /-- The first BREAK NOTICE for a hop marks the dies beyond unreachable and frees or repeats their work (R199). -/
  | breakNotice (l h : Nat)
  /-- A link drains its sequenced flits, sends a width-change flit and switches width at a flit boundary (R191). -/
  | widthChange (l : Nat)
  /-- KZnn_SB low for 100 ms from absent marks a cartridge inserted and hop 0 leaves DETECT (R202). -/
  | sidebandInsert (l : Nat)
  /-- A 1–20 µs high pulse on KZnn_SB makes the controller read every bridge's alert status (R202). -/
  | sidebandAlert (l : Nat) (low : List Nat)
  /-- KZnn_SB high for over 50 µs is a break of hop 0 with cause 3 (R202). -/
  | sidebandAbsent (l : Nat)
  /-- Each position of a chain is identified, matched to descriptors, numbered and resolved against the journal (R203). -/
  | chainEnumeration (l p : Nat) (found : List (Nat × Nat × Nat × List Nat × Nat × Bool))
  /-- A link engine failing self-check or stalled 20 µs is fenced and its partner serves both links (R205). -/
  | linkEngineWatchdog (e rsn : Nat)
  /-- Once per second the bridges' error counts are collected and added to the KZL counters (R206). -/
  | bridgeCounterCollect (l corr replay stray lock : Nat)
  /-- Every 100 µs the minimum pace is read and VDD_CORE is raised or lowered toward the target (R19). -/
  | voltageLoopTick (paces : List Nat)
  /-- Every 1 ms the Puppeteer reads the regulator's voltage, current and status (R362). -/
  | regulatorPoll (ok : Bool) (mv iout status : Nat)
  /-- Every 10 ms a failed regulator is retried until ten good transactions clear FAIL (R363). -/
  | regulatorRetry (ok : Bool) (mv iout status : Nat)
  /-- Every 250 µs each on-die sensor converts and is cross-checked, and the thermal step is recomputed (R409). -/
  | sensorConversion (raw : List Int)
  /-- A remote input converts in its slot, forcing its step, raising alerts or marking itself Failed (R410). -/
  | remoteConversion (n : Nat) (t : Int)
  /-- Every UP_MS the current step may move one step toward 0 when its causes have cleared (R407). -/
  | thermalStepFallback
  /-- The PACE_LOW step falls back by one after 10 s without PACE_LOW (R406). -/
  | paceLowFallback
  /-- Core power above the step's limit for 10 ms raises the step by one until 10 s within the limit (R406). -/
  | overrunStep
  /-- An idle controller enters Doze or Nap as the host's tolerance and power state allow (R397). -/
  | idleEntry
  /-- Work or a wake source leaves Doze or Nap, restoring voltage, DRAM and hops (R399). -/
  | dozeNapExit (code idx rsn : Nat)
  /-- Jack entry closes admission, checkpoints, flushes, downs the links and turns VDD_CORE off (R401). -/
  | jackEntry (fall : Bool)
  /-- A wake source is recorded with its code and WAKE_N falls to restore the switched rails (R404). -/
  | wakeEvent (code idx ns : Nat)
  /-- A frame with EtherType 0x88B5 and matching magic and wake ID wakes the controller in Doze or Nap (R308). -/
  | wakeFrame (p u dst : Nat) (b : List Nat)
  /-- Release of the core after Jack starts start-up and restores the Jack image and wake record (R403). -/
  | jackExit (fuse root nor rdA rdB spd : Bool) (fusedRows : Nat) (soft bad : List (Nat × Nat)) (noCal : List Nat)
  /-- A TIME_PPS rising edge is captured and slews, steps, or is counted outside or as a glitch (R419). -/
  | ppsEdge
  /-- HOLD_MS after the last accepted edge the time base enters holdover (R420). -/
  | holdoverEnter
  /-- A Puppeteer timer reaches its compare value and latches a mailbox entry (R355). -/
  | timerExpiry (n : Nat)
  /-- A write of TIM_SET.GO sets TIME_NS to SEC seconds at once or at the next locked edge (R422). -/
  | timSetGo (sec : Nat)
  /-- A raised event enters the event queue, the recorder, the class vector and pending asynchronous event requests (R442). -/
  | eventRaise (code slice arg : Nat)
  /-- A write of EVR_CTL.CLEAR empties the recorder buffer and resumes recording (R423). -/
  | evrClear
  /-- A write of EVR_CTL.FLUSH triggers a fault flush of the recorder (R427). -/
  | evrFlush
  /-- A firmware read of the local pop register delivers the earliest pending entry into service (R357). -/
  | mailboxPop
  /-- A firmware write of a sequence number to the acknowledge register frees the entry (R357). -/
  | mailboxAcknowledge (seq : Nat)
  /-- A firmware write to the local watchdog register restarts its period (R358). -/
  | watchdogWrite
  /-- Watchdog expiry fails the active pair over or rolls back an exchange (R358). -/
  | watchdogExpiry (pass : Bool)
  /-- A lockstep compare mismatch halts the active pair and fails over to the spare (R349). -/
  | compareMismatch (pass : Bool)
  /-- A firmware self-check request through the local alias that fails leads to failover (R348). -/
  | selfCheckRequest (good pass : Bool)
  /-- Every 10 s the spare pair runs built-in self-test (R348). -/
  | spareSelfTest (pass : Bool)
  /-- An ITCM fetch parity error traps to the repair handler, which rewrites the word or fails over (R352). -/
  | itcmFetchParity (off : Nat) (good pass : Bool)
  /-- A DTCM parity error raises a load access fault on both cores and is logged (R353). -/
  | dtcmParityError (addr : Nat) (dram : Bool)
  /-- A Puppeteer DMA channel reading a parity error or poison halts and interrupts the cores (R354). -/
  | dmaHalt (c done addr : Nat)
  /-- The DMA copy of new firmware into the alternate bank completes its CRC check and SWAP reads LOADED (R359). -/
  | alternateBankLoaded (c : Nat) (good : Bool)
  /-- A firmware write of GO switches to the alternate bank or is refused with an ERR code (R359). -/
  | swapGo (dur dma : Nat)
  /-- A firmware write of COMMIT frees the old bank as the alternate (R361). -/
  | swapCommit
  /-- No COMMIT within COMMIT_MS rolls back to the old bank and redelivers unacknowledged entries (R361). -/
  | swapRollback
  /-- NVMe-MI Read NVMe-MI Data Structure returns the requested structure (R364). -/
  | miReadDataStructure (vdm mic : Bool) (ty : Nat)
  /-- NVMe-MI NVM Subsystem Health Status Poll returns subsystem health (R364). -/
  | miSubsystemHealthPoll (vdm mic : Bool)
  /-- NVMe-MI Controller Health Status Poll returns controller health (R364). -/
  | miControllerHealthPoll (vdm mic : Bool) (n : Nat)
  /-- NVMe-MI Configuration Get returns a configuration value (R364). -/
  | miConfigurationGet (vdm mic : Bool) (id : Nat)
  /-- NVMe-MI Configuration Set changes a configuration value (R364). -/
  | miConfigurationSet (vdm mic : Bool) (id v : Nat)
  /-- NVMe-MI VPD Read returns vital product data (R364). -/
  | miVpdRead (vdm mic : Bool) (off len : Nat)
  /-- NVMe-MI VPD Write writes vital product data (R364). -/
  | miVpdWrite (vdm mic : Bool) (off : Nat) (data : List Nat)
  /-- NVMe-MI Reset fails with Invalid Parameter (R364). -/
  | miReset (vdm mic : Bool)
  /-- A tunnelled admin command is executed as a slice 0 admin command (R364). -/
  | miTunnelledAdmin (vdm mic : Bool) (c : Instr)
  /-- An SMBus Basic Management Command read at address 0x6A returns basic status (R364). -/
  | smbusBasicManagementRead
  /-- NVMe-MI vendor command 0xC0 reads 4-byte words of the management space in ascending order (R365). -/
  | registerRead (vdm mic : Bool) (a len : Nat)
  /-- NVMe-MI vendor command 0xC1 writes 4-byte words of the management space in ascending order (R365). -/
  | registerWrite (vdm mic : Bool) (a len : Nat) (ws : List Nat)
  /-- A write to a management register with no row of its own takes effect by its access code or is ignored and logged (R5).
  -/
  | managementRegisterWrite (a len : Nat) (full : Bool) (v : Nat)
  /-- A read of a register holding an RC field returns it and clears it, latching a high dword where R492 applies (R6). -/
  | rcFieldRead (a len : Nat) (full : Bool)
  /-- A keyed write of GEN_CTL.CTRL_RESET starts a controller reset or is refused and sets WR_IGN (R499). -/
  | genCtrlReset (p key : Nat)
  /-- A write of MCACHE_CTL.EN = 0 redirects lookups to the bypass buffer, drains fills, writes back and marks the cache STALE
  (R262). -/
  | mcacheDisable
  /-- A write of MCACHE_CTL.EN = 1 with STALE clear writes back the bypass buffer and serves lookups from the cache (R262). -/
  | mcacheEnable
  /-- A write of MCACHE_CTL.INV_ALL invalidates every line and clears STALE (R262). -/
  | mcacheInvAll
  /-- A write of MCACHE_INV_CNT.GO invalidates a page range of one namespace (R263). -/
  | mcacheInvGo (count : Nat)
  /-- A write of MED_DIE_RETIRE.GO retires the named die (R226). -/
  | medDieRetireGo (p die : Nat)
  /-- A write of RAS_UNIT_CTL.FENCE fences the named unit and re-issues its work (R439). -/
  | rasUnitFence (k i : Nat)
  /-- A write of RAS_UNIT_CTL.RELEASE starts a fenced unit's return cycle (R439). -/
  | rasUnitRelease (k i : Nat)
  /-- A class target write is accepted for the next epoch or ignored with LC_ERR if it breaks the order (R66). -/
  | lgrLcTgtWrite (p k us : Nat)
  /-- A management event vector write is accepted or ignored with VEC_ERR if a completion queue uses it (R83). -/
  | lgrEvtVecWrite (p k vec : Nat) (en : Bool)
  /-- A watermark write is accepted or ignored with CFG_ERR if it breaks CRIT < LOW ≤ GC_START (R273). -/
  | ftlGcCfgWrite (p low crit start ahead : Nat)
  /-- Every 10 s a fenced unit runs self-test and returns to service after RET_PASS passes (R439). -/
  | unitSelfTest (k i : Nat) (pass : Bool)
  /-- Once per second the DRAM corrections are summed and DRAM_CE_RATE raised above the hourly limit (R434). -/
  | ceRateCheck
  /-- An IFT datagram is matched to a stream, checked, reordered and passed to the lanes or discarded and counted (R117). -/
  | iftDatagram (p u dst ip vlan udp src ulen : Nat) (b : List Nat) (es : List MemErr)
  /-- A frame with no datagram for the stall timeout closes under the partial policy and the stream may become STALLED (R125).
  -/
  | stallTimeout (k : Nat)
  /-- A frame whose stored bytes and index record are in staging commits and advances the log's committed prefix (R126). -/
  | frameCommit (k : Nat)
  /-- An index block is written when full or its write interval passes since its first record (R138). -/
  | indexBlockWrite (k : Nat)
  /-- A lane failing self-check or holding a block 20 µs is fenced and its blocks re-issued (R142). -/
  | laneWatchdog (l rsn n : Nat)
  /-- Every 1 ms each idle cipher unit runs a known-answer test and is fenced with its lane on failure (R281). -/
  | cipherKnownAnswerTest (u : Nat) (pass : Bool)
  /-- An entropy health test failure sets RNG_FAIL and refuses or unmasks cipher work (R280). -/
  | rngFail
  /-- A key derivation ends and its slot becomes VALID, REVOKED or FREE and waiting requests proceed (R290). -/
  | keyDerivationDone (i : Nat) (equal : Bool)
  /-- An ARP request or Neighbor Solicitation for a valid address entry is answered in hardware (R301). -/
  | arpRequest (p u dst ip vlan from1 : Nat)
  /-- An ICMP Echo Request is answered up to 1,000 per second per sub-port (R301). -/
  | echoRequest (p u dst ip vlan from1 : Nat)
  /-- A transmission whose next hop stays unresolved for 1 s counts a transport timeout on its QP (R301). -/
  | addressResolutionTimeout (p ip qp : Nat)
  /-- A received PFC frame pauses transmission of the named priorities for its quanta (R297). -/
  | pfcFrame (p u mask quanta : Nat) (glob : Bool)
  /-- Every REFRESH µs above XON the sub-port repeats XOFF, and sends quanta 0 at XON (R297). -/
  | pfcRefresh (p u fill lost : Nat)
  /-- A RoCEv2 packet is processed on its RC QP, and a CE mark sends a rate-limited CNP (R302). -/
  | rocePacket (p u dst ip vlan qp : Nat) (ce ack : Bool)
  /-- A received CNP cuts the QP's current rate and raises alpha (R299). -/
  | cnpReceived (qp : Nat)
  /-- Every t_alpha or t_inc the QP decays alpha or recovers its rate (R299). -/
  | ccRateTimer (qp : Nat) (inc : Bool) (bytes : Nat)
  /-- An RDMA CM REQ is answered with REP or REJ to establish an RC QP (R302). -/
  | cmReq (p u dst ip vlan peer svc pmtu : Nat)
  /-- An RDMA CM DREQ moves the QP to Error and resets its NVMe queue (R303). -/
  | cmDreq (qp : Nat)
  /-- An RDMA Write with Immediate to a stream buffer delivers one whole frame (R118). -/
  | rdmaWriteWithImmediate (qp addr : Nat) (imm : Option Nat) (more : Bool) (d : List Nat)
  /-- An RDMA Send carrying a command capsule is received and its command arrives (R304). -/
  | commandCapsule (qp cid sgls : Nat) (sglOk inl : Bool)
  /-- Write data fetched by RDMA Read arrives into the reserved staging (R144). -/
  | rdmaReadResponse (q cid : Nat) (data : List Nat)
  /-- A local ACK timeout retries the transfer or, with retries exhausted, moves the QP to Error (R302). -/
  | ackTimeout (qp : Nat)
  /-- An RNR NAK from a host is retried up to RNR_RETRY times (R302). -/
  | rnrNak (qp : Nat)
  /-- An inbound RDMA Read or Atomic is answered with a remote access error and the QP enters Error (R302). -/
  | inboundRdmaRead (qp : Nat)
  /-- A fault persisting 10 µs or excess uncorrectable FEC takes a sub-port DOWN, or to HELD after FLAP_MAX (R306). -/
  | subportFault (p u corr uncorr : Nat)
  /-- A sub-port completing training and FEC alignment enters UP_WAIT (R306). -/
  | subportTrainingDone (p u : Nat)
  /-- After UP_HOLD in UP_WAIT the sub-port enters UP (R306). -/
  | upHoldExpiry (p u : Nat)
  /-- After FLAP_HOLD in HELD the sub-port returns to TRAINING (R306). -/
  | flapHoldExpiry (p u : Nat)
  /-- Every tREFI an island issues same-bank or all-bank refresh to each rank (R335). -/
  | dramRefresh (ch rk : Nat) (busy : Bool)
  /-- Every POLL ms each device's temperature is read and refresh doubled or restored (R336). -/
  | mr4Poll (ch : Nat) (reps : List (Nat × Bool × Bool))
  /-- An ACT updates the bank's activation table and triggers RFM at ACT_TH (R337). -/
  | dramActivate (dpa : Nat) (due : Bool)
  /-- At each refresh window every activation table is cleared (R337). -/
  | activationTableClear (ch rk : Nat)
  /-- The scrub reads bursts in DPA order and corrects or handles errors (R341). -/
  | dramScrubRead (room outcome sym region a b : Nat)
  /-- A CXL.mem read is decoded, resolved through the translation unit and served or poisoned (R322). -/
  | cxlMemRead (hpa room err sym : Nat)
  /-- A CXL.mem write is resolved and stored, held back by DIRTY_MAX or dropped (R323). -/
  | cxlMemWrite (hpa data mask room err sym : Nat)
  /-- A dirty 64 KiB persistent granule is written back to its system-area image (R160). -/
  | cxlGranuleWriteback (g : Nat) (done : Bool)
  /-- GPF Phase 1 is answered at once (R324). -/
  | gpfPhase1
  /-- GPF Phase 2 writes back every dirty persistent granule and answers when the last is persistent (R324). -/
  | gpfPhase2
  /-- A PCIe configuration request receives Request Retry Status until step 6 or completes normally (R326). -/
  | configurationRequest (n reg val : Nat)
  /-- PERST_N assertion or DL_Down warm-resets the link's PCX state and resets its functions' queues (R325). -/
  | perstNAssert (l : Nat) (pin : Bool)
  /-- PERST_N deassertion trains the link to L0 within 20 ms (R326). -/
  | perstNDeassert (l speed width : Nat) (flit cxl : Bool) (ns : Nat)
  /-- An FLR of PF0 or PF1 resets the PF and its VFs with the link kept up (R325). -/
  | flrPf (pf : Nat)
  /-- An FLR of a VF resets its queues and configuration space (R325). -/
  | flrVf (n : Nat)
  /-- Setting CC.EN makes CSTS.RDY become 1 subject to binding and admin-ready (R314). -/
  | ccEnSet (n : Nat)
  /-- Clearing CC.EN resets the function's queues (R325). -/
  | ccEnClear (n : Nat)
  /-- A host shutdown notification starts a shutdown checkpoint (R267). -/
  | shutdownNotification (n : Nat)
  /-- Setting VF Enable grants each VF its vector table size or refuses with VEC_SHORT (R317). -/
  | vfEnableSet (pf n : Nat)
  /-- Clearing VF Enable resets all VFs and returns their vectors to the pool (R325). -/
  | vfEnableClear (pf : Nat)
  /-- Clearing Bus Master Enable stops DMA, MSI-X and fetch for the function (R325). -/
  | busMasterEnableClear (n : Nat)
  /-- Setting Bus Master Enable resumes fetch, DMA and postponed completions (R325). -/
  | busMasterEnableSet (n : Nat)
  /-- Clearing PASID Enable resets every queue created under a PASID binding of the function (R315). -/
  | pasidEnableClear (n : Nat)
  /-- Recognised PFAIL_N sets the stop instant, enters the hold-up step and flushes staging and tables to a flush bank (R159).
  -/
  | pfailNFall (bad : List Nat)
  /-- When the flush record is programmed PHASE becomes DONE and the controller quiesces (R159). -/
  | flushDone (fails : List (Nat × Nat)) (links : List Nat)
  /-- PFAIL_N high for 10 ms after DONE without POR_N supersedes the image and reopens admission (R163). -/
  | pfailNRise
  /-- POR_N assertion returns every field to reset and stops the controller (R7). -/
  | porNFall (heads good : Nat)
  /-- POR_N rising starts the start-up sequence from fuse loading, image selection and verification (R371). -/
  | porNRise (test hot fuse root nor rdA rdB spd : Bool) (fusedRows : Nat) (soft bad : List (Nat × Nat)) (noCal : List Nat)
  /-- DRAM channel training completes and the zero-fill starts, or a failed channel stops start-up in recovery (R342). -/
  | dramTrainingDone (good : Nat)
  /-- The DRAM zero-fill completes and the ports are served (R342). -/
  | dramFillDone
  /-- The flush image is restored and snapshots loaded, and admin commands and NVMe-MI are answered (R384). -/
  | adminReady (snap : Bool)
  /-- Journal replay ends, recovery completes and the layout is checked against the journal (R268). -/
  | journalReplayDone (ok : Bool) (ms : Nat) (rd spd : Bool)
  /-- A flush bank finishes erasing and the controller becomes armed (R158). -/
  | flushBankErased (b : Nat)
  /-- With PFAIL_N high for 10 ms admission opens and the phase becomes service (R463). -/
  | admissionOpen
  /-- In ROM recovery a received image block is checked and answered 0x06 or 0x15 (R383). -/
  | uartLoaderBlock (off : Nat) (data : List Nat) (crc : Nat)
  /-- A block at offset 0xFFFFFFFF ends the transfer, writes and verifies slot A and restarts (R383). -/
  | uartLoaderEnd (good fuse root nor rdA rdB spd : Bool)
  /-- Loss of REFCLK in service fails every island and holds FAULT_N low until POR_N (R465). -/
  | refclkLoss
  /-- A DOWN sub-port that detects signal begins auto-negotiation, link training and FEC alignment in TRAINING (R306). -/
  | subportSignalDetect (p u : Nat)
  /-- A receiver holding part of a flit with no symbols for four flit times discards it and sends a NAK (R196). -/
  | partialFlitTimeout (l h : Nat) (up : Bool)
  /-- An ARP or ND reply to the controller's own request enters the peer MAC table and releases waiting transmissions (R301).
  -/
  | arpReply (p ip mac : Nat)
  /-- A learned peer MAC entry reaches its 60 s lifetime and leaves the table (R301). -/
  | peerMacLifetimeExpiry (p ip : Nat)
  /-- A received frame that is a fragment, has a bad UDP checksum, carries another protocol or port, or is not for the
  controller is dropped and counted (R301). -/
  | droppedFrame (p u cause : Nat)
  /-- The pause time that a received PFC frame's quanta gave runs out and transmission of those priorities resumes (R297). -/
  | pfcPauseExpiry (p u : Nat)
  /-- The interrupt coalescing aggregation time of a vector runs out and its pending completions are signalled (R82). -/
  | aggregationTimeExpiry (func vec : Nat)
  /-- The host commits the HDM decoder, which maps host addresses to the CXL window and sets PCX_CXL_STS.HDM (R323). -/
  | hdmDecoderCommit (base size : Nat)
  /-- After 1,024 consecutive passing health tests RNG_FAIL clears and cipher masking or service resumes (R280). -/
  | rngFailClear (n : Nat)
  /-- A queued read whose urgency rises with elapsed time is evaluated again for read-around (R218). -/
  | readUrgencyRise (d id : Nat)
  /-- Firmware writes a timer's compare value, period and mode through the local alias and the timer starts running (R355). -/
  | timerArm (n cmp period : Nat) (periodic : Bool)
  /-- A parity error on a Puppeteer cache line invalidates the line in both cores of the pair, which refetch it, and is
  counted (R353). -/
  | pupCacheParityError (core : Nat) (data : Bool) (line : Nat)
  /-- A read of MED_HLTH_BLK, MED_HLTH_DIE or MED_HLTH_ERS returns the counts in start-up, test or recovery, and in service
  returns 0 and sets DENIED (R223). -/
  | healthWindowRead (p w : Nat)
  /-- A read of TIM_NOW latches the TIME_NS fraction into the reading path's TIM_NOW_FRAC (R432). -/
  | timNowRead (p : Nat)
deriving DecidableEq, Repr

end Sys2Proof
end

