-- ==== Sys2Proof/Decode.lean ====
section
/-! DEFINITION. The command that a table word spells. The opcode table gives no row any bits: the block takes commands from its ports, not from
words of its own. -/

namespace Sys2Proof

/-- The command that a word spells: none, since the table gives no row bits. -/
def decodeTableWord (_nbits _w : Nat) : Option Instr := none

end Sys2Proof
end

