-- ==== Sys2Proof/Machine/Gf.lean ====
section
/-! DEFINITION. The parity arithmetic of stripes: GF(2^8) with generator polynomial 0x11D and g = 2, P and Q, and the five reconstructions
(07 R166, R167). A value is a string of bytes, little-endian; the arithmetic is that of each byte. -/

namespace Sys2Proof.Machine

/-- The lowest bit of every byte of a value. -/
def gfOnes (v : Nat) : Nat := (256 ^ (v.log2 / 8 + 1) - 1) / 255

/-- Multiplies every byte by g = 2. -/
def gfX (v : Nat) : Nat :=
  let hi := Nat.land (v / 128) (gfOnes v)
  Nat.xor ((v - hi * 128) * 2) (hi * 0x1D)

/-- Multiplies every byte of a value by a byte, bit by bit of the factor. -/
def gfMul (a v : Nat) : Nat :=
  ((List.range 8).foldl (fun (p : Nat × Nat) j => (if a.testBit j then Nat.xor p.1 p.2 else p.1, gfX p.2)) (0, v)).1

/-- The coefficient of data member `i` in Q: g to the power `i` (R166). -/
def gfPow : Nat → Nat
  | 0 => 1
  | n + 1 => gfX (gfPow n)

/-- The inverse of a byte other than 0. -/
def gfInv (a : Nat) : Nat := ((List.range 256).find? (fun b => gfMul a b = 1)).getD 0

/-- P over the data members' values, in order (R166). -/
def parP (ds : List Nat) : Nat := ds.foldl Nat.xor 0

/-- Q over the data members' values, in order (R166). -/
def parQ (ds : List Nat) : Nat := (ds.mapIdx (fun i d => gfMul (gfPow i) d)).foldl Nat.xor 0

/-- Data member `x` of a stripe of width `k`, from what is known of its members by number: data 0 to k - 1, then P and Q. The rows of R167's
table: another data member missing, P missing, or neither. -/
def gfData (k : Nat) (got : Nat → Option Nat) (x : Nat) : Nat :=
  match got x with
  | some d => d
  | none =>
    let ds := (List.range k).map (fun i => (got i).getD 0)
    match (List.range k).find? (fun i => i != x && (got i).isNone), got k, got (k + 1) with
    | some y, some p, some q =>
      let a := Nat.xor p (parP ds)
      let b := Nat.xor q (parQ ds)
      gfMul (gfInv (Nat.xor (gfPow x) (gfPow y))) (Nat.xor b (gfMul (gfPow y) a))
    | none, some p, _ => Nat.xor p (parP ds)
    | none, none, some q => gfMul (gfPow (255 - x)) (Nat.xor q (parQ ds))
    | _, _, _ => 0

/-- Any member of a stripe from at most two missing: a data member, or P and Q recomputed from the data (R167). -/
def gfMember (k : Nat) (got : Nat → Option Nat) (m : Nat) : Nat :=
  match got m with
  | some v => v
  | none =>
    if m < k then gfData k got m
    else if m = k then parP ((List.range k).map (gfData k got))
    else parQ ((List.range k).map (gfData k got))

/-- P and Q after members change: old and new values by member (07 R171 step 3). -/
def parUpdate (p q : Nat) (ch : List (Nat × Nat × Nat)) : Nat × Nat :=
  ch.foldl (fun (a : Nat × Nat) e =>
    let d := Nat.xor e.2.1 e.2.2
    (Nat.xor a.1 d, Nat.xor a.2 (gfMul (gfPow e.1) d))) (p, q)

end Sys2Proof.Machine
end

