-- ==== Sys2Proof/Machine/Flags.lean ====
section
/-! DEFINITION. The status codes that completions carry: status code type and status code. -/

namespace Sys2Proof.Machine

/-- Successful completion. -/
def stOk : Nat × Nat := (0, 0)
/-- Invalid Command Opcode. -/
def stOpcode : Nat × Nat := (0, 0x01)
/-- Invalid Field in Command. -/
def stField : Nat × Nat := (0, 0x02)
/-- Data Transfer Error. -/
def stXfer : Nat × Nat := (0, 0x04)
/-- Internal Error. -/
def stInternal : Nat × Nat := (0, 0x06)
/-- Invalid Log Page. -/
def stLogPage : Nat × Nat := (0, 0x09)
/-- Invalid Namespace or Format. -/
def stNs : Nat × Nat := (0, 0x0B)
/-- Command Sequence Error. -/
def stSeq : Nat × Nat := (0, 0x0C)
/-- LBA Out of Range. -/
def stRange : Nat × Nat := (0, 0x80)
/-- Namespace Not Ready. -/
def stNotReady : Nat × Nat := (0, 0x82)
/-- Slice fenced. -/
def stFenced : Nat × Nat := (7, 0xC0)
/-- Over-quota. -/
def stQuota : Nat × Nat := (7, 0xC2)
/-- Stripe lost. -/
def stLost : Nat × Nat := (7, 0xC4)
/-- Deadline missed. -/
def stLate : Nat × Nat := (7, 0xC5)
/-- Frame truncated. -/
def stTrunc : Nat × Nat := (7, 0xC6)
/-- Key unavailable. -/
def stKey : Nat × Nat := (7, 0xC7)
/-- Media unreachable. -/
def stUnreach : Nat × Nat := (7, 0xC8)
/-- Unit retry exhausted. -/
def stRetry : Nat × Nat := (7, 0xC9)

end Sys2Proof.Machine
end

