-- ==== Sys2Proof/Config.lean ====
section
/-! DEFINITION. What the device fixes and what the spec leaves open: constants without a body, so that no proof can see
what they are. -/

namespace Sys2Proof.Config

/-- The fused reset value of a field (23 R498: GEN_REV.ROM, GEN_SERIAL; 13 R310: ETH_MAC): field, entry, sub-entry (log 83). -/
opaque fused : Nat → Nat → Nat → Nat

/-- Do Not Retry of a status the spec gives none for: status code type, status code (log 4). -/
opaque dnr : Nat → Nat → Bool

/-- A value the spec leaves open, drawn afresh: which value, and the count of values drawn before (log 3). -/
opaque free : Nat → Nat → Nat

/-- Bytes the spec leaves open, how many among them: what they are for, and the count of values drawn before (log 19). -/
opaque freeBytes : Nat → Nat → List Nat

/-- The bytes of the fused root key, 32 of them (12 R287), which no path reads (log 8). -/
opaque rootKey : Nat → Nat

/-- The 802.1Q priority of what the controller sends on an Ethernet port beside CNPs: of a QP's packets by its number, of other frames at 0, to
be cut to three bits (13 R297 gives none; log 99). -/
opaque txPrio : Nat → Nat

/-- SHA-384 of bytes, 48 bytes (17 R380, log 8). -/
opaque sha384 : List Nat → List Nat

/-- Whether ECDSA P-384 verifies a signature: public key, hash, r, s, each as bytes (17 R380, log 8). -/
opaque ecdsa : List Nat → List Nat → List Nat → List Nat → Bool

/-- The root-key hash in fuse slot `n`, 48 bytes (17 R380, log 8). -/
opaque rootHash : Nat → List Nat

/-- A value of image section 0x0A, whose byte layout the spec does not give (17 R378): the section's bytes, which table (0 retry
shift vectors, 1 growth table), and the index in it (log 50). -/
opaque tables : List Nat → Nat → Nat → Nat

/-- The link at which a system-area stripe set begins (07 R170, log 94). -/
opaque sysSet : Nat → Nat

/-- The die of its link that a member of a system-area stripe set takes: set, member (07 R170, log 94). -/
opaque sysPos : Nat → Nat → Nat

end Sys2Proof.Config
end

