-- ==== Sys2Proof/Machine/Regs.lean ====
section
/-! DEFINITION. The management registers of the spec, field by field: every register table of the chapters
as data (23 R489-R498; the chapter and rule of each field stand in its docstring), and the register file that holds
their values. -/

namespace Sys2Proof.Machine

/-- The access codes of 00 R5. -/
inductive Acc
  | ro | rw | rw1c | wo | rc | rws | rwl
deriving DecidableEq, Repr

/-- One field of a register: a number of its own, the index of its block (23 R497), its lowest bit and width, its
access code, its reset value, the reset values of its single entries where the spec gives each one, and whether the
reset value is fused into the device. -/
structure Fld where
  id : Nat
  blk : Nat
  lo : Nat
  w : Nat
  acc : Acc
  rst : Nat
  per : List Nat
  fused : Bool
deriving DecidableEq, Repr

/-- The value the spec gives the field of entry `i`, `j` at reset; a fused one is a constant of the device. -/
def Fld.reset (f : Fld) (i j : Nat) : Nat :=
  if f.fused then Config.fused f.id i j % 2 ^ f.w else f.per.getD i f.rst

/-- The home of one field of one entry: the field's number, the two indices and the access path of a register that has
one copy for each path (23 R489: 0 BAR0, 1 NVMe-MI). -/
structure RKey where
  f : Nat
  i : Nat
  j : Nat
  p : Nat
deriving DecidableEq, Repr

/-- The order in which the register file is listed. -/
def RKey.lt (a b : RKey) : Bool :=
  a.f < b.f || (a.f == b.f && (a.i < b.i || (a.i == b.i && (a.j < b.j || (a.j == b.j && a.p < b.p)))))

/-- The register file: the fields whose value is not their reset value, each with its value exclusive-or its reset
value, in rising order of their keys. -/
abbrev Regs := List (RKey × Nat)

/-- What is held against a key; an unlisted field is at its reset value. -/
def Regs.get (k : RKey) : Regs → Nat
  | [] => 0
  | (k', v) :: t => if k' = k then v else Regs.get k t

/-- Holds `v` against a key. -/
def Regs.set (k : RKey) (v : Nat) (l : Regs) : Regs :=
  l.filter (fun e => e.1.lt k) ++ (if v = 0 then [] else [(k, v)]) ++ l.filter (fun e => k.lt e.1)

/-- The canonical form: keys strictly rising, and nothing listed at its reset value. -/
def Regs.wf : Regs → Bool
  | [] => true
  | [(_, v)] => v != 0
  | (k, v) :: (k', v') :: t => v != 0 && k.lt k' && Regs.wf ((k', v') :: t)

/-- One register: the management address of its first entry, two strides and counts of its entries, its width in bits,
whether it has one copy for each access path, and its fields. -/
structure Reg where
  base : Nat
  s1 : Nat
  n1 : Nat
  s2 : Nat
  n2 : Nat
  width : Nat
  perPath : Bool
  flds : List Fld
deriving DecidableEq, Repr

namespace F

/-- SLI_STS.STATE [2:0] RO (02 R64). -/
def SLI_STS_STATE : Fld := ⟨0, 19, 0, 3, .ro, 0, [1], false⟩
/-- SLI_STS.OVERQ [3] RO (02 R64). -/
def SLI_STS_OVERQ : Fld := ⟨1, 19, 3, 1, .ro, 0, [], false⟩
/-- SLI_STS.AZOVER [4] RO (02 R64). -/
def SLI_STS_AZOVER : Fld := ⟨2, 19, 4, 1, .ro, 0, [], false⟩
/-- SLI_STS.FENCE_RSN [11:8] RO (02 R64). -/
def SLI_STS_FENCE_RSN : Fld := ⟨3, 19, 8, 4, .ro, 0, [], false⟩
/-- SLI_GEN.GEN [15:0] RO (02 R64). -/
def SLI_GEN_GEN : Fld := ⟨4, 19, 0, 16, .ro, 0, [], false⟩
/-- SLI_STALE_CNT.CNT [31:0] RC (02 R64). -/
def SLI_STALE_CNT_CNT : Fld := ⟨5, 19, 0, 32, .rc, 0, [], false⟩
/-- SLI_CAP_QUOTA.UNITS [39:0] RO (02 R64). -/
def SLI_CAP_QUOTA_UNITS : Fld := ⟨6, 19, 0, 40, .ro, 0, [], false⟩
/-- SLI_CAP_USED.UNITS [39:0] RO (02 R64). -/
def SLI_CAP_USED_UNITS : Fld := ⟨7, 19, 0, 40, .ro, 0, [], false⟩
/-- SLI_BW.INGRESS [15:0] RO (02 R64). -/
def SLI_BW_INGRESS : Fld := ⟨8, 19, 0, 16, .ro, 0, [], false⟩
/-- SLI_BW.EGRESS [31:16] RO (02 R64). -/
def SLI_BW_EGRESS : Fld := ⟨9, 19, 16, 16, .ro, 0, [], false⟩
/-- SLI_WEIGHT.WEIGHT [15:0] RO (02 R64). -/
def SLI_WEIGHT_WEIGHT : Fld := ⟨10, 19, 0, 16, .ro, 0, [], false⟩
/-- SLI_WEIGHT.LCMASK [23:16] RO (02 R64). -/
def SLI_WEIGHT_LCMASK : Fld := ⟨11, 19, 16, 8, .ro, 0, [], false⟩
/-- SLI_AZ.LIMIT [14:0] RO (02 R64). -/
def SLI_AZ_LIMIT : Fld := ⟨12, 19, 0, 15, .ro, 0, [], false⟩
/-- SLI_AZ.SRAM_RSV [26:16] RO (02 R64). -/
def SLI_AZ_SRAM_RSV : Fld := ⟨13, 19, 16, 11, .ro, 0, [], false⟩
/-- SLI_AZ_COUNT.COUNT [14:0] RO (02 R64). -/
def SLI_AZ_COUNT_COUNT : Fld := ⟨14, 19, 0, 15, .ro, 0, [], false⟩
/-- SLI_AZ_COUNT.SRAM_USE [26:16] RO (02 R64). -/
def SLI_AZ_COUNT_SRAM_USE : Fld := ⟨15, 19, 16, 11, .ro, 0, [], false⟩
/-- SLI_RES.QP [15:0] RO (02 R64). -/
def SLI_RES_QP : Fld := ⟨16, 19, 0, 16, .ro, 0, [], false⟩
/-- SLI_RES.RCQP [30:16] RO (02 R64). -/
def SLI_RES_RCQP : Fld := ⟨17, 19, 16, 15, .ro, 0, [], false⟩
/-- SLI_RES_USE.QP [15:0] RO (02 R64). -/
def SLI_RES_USE_QP : Fld := ⟨18, 19, 0, 16, .ro, 0, [], false⟩
/-- SLI_RES_USE.RCQP [30:16] RO (02 R64). -/
def SLI_RES_USE_RCQP : Fld := ⟨19, 19, 16, 15, .ro, 0, [], false⟩
/-- SLI_NS.ALLOC [12:0] RO (02 R64). -/
def SLI_NS_ALLOC : Fld := ⟨20, 19, 0, 13, .ro, 0, [], false⟩
/-- SLI_NS.USE [28:16] RO (02 R64). -/
def SLI_NS_USE : Fld := ⟨21, 19, 16, 13, .ro, 0, [], false⟩
/-- SLI_DGMAP.MAP [63:0] RO (02 R64). -/
def SLI_DGMAP_MAP : Fld := ⟨22, 19, 0, 64, .ro, 0, [], false⟩
/-- SLI_XLT_FLT_INFO.VALID [0] RW1C (02 R64). -/
def SLI_XLT_FLT_INFO_VALID : Fld := ⟨23, 19, 0, 1, .rw1c, 0, [], false⟩
/-- SLI_XLT_FLT_INFO.KIND [2:1] RO (02 R64). -/
def SLI_XLT_FLT_INFO_KIND : Fld := ⟨24, 19, 1, 2, .ro, 0, [], false⟩
/-- SLI_XLT_FLT_INFO.PERM [3] RO (02 R64). -/
def SLI_XLT_FLT_INFO_PERM : Fld := ⟨25, 19, 3, 1, .ro, 0, [], false⟩
/-- SLI_XLT_FLT_INFO.FUNC [15:8] RO (02 R64). -/
def SLI_XLT_FLT_INFO_FUNC : Fld := ⟨26, 19, 8, 8, .ro, 0, [], false⟩
/-- SLI_XLT_FLT_INFO.PASID [35:16] RO (02 R64). -/
def SLI_XLT_FLT_INFO_PASID : Fld := ⟨27, 19, 16, 20, .ro, 0, [], false⟩
/-- SLI_XLT_FLT_INFO.WR [36] RO (02 R64). -/
def SLI_XLT_FLT_INFO_WR : Fld := ⟨28, 19, 36, 1, .ro, 0, [], false⟩
/-- SLI_XLT_FLT_ADDR.PAGE [63:12] RO (02 R64). -/
def SLI_XLT_FLT_ADDR_PAGE : Fld := ⟨29, 19, 12, 52, .ro, 0, [], false⟩
/-- SLI_XLT_FLT_CNT.CNT [31:0] RC (02 R64). -/
def SLI_XLT_FLT_CNT_CNT : Fld := ⟨30, 19, 0, 32, .rc, 0, [], false⟩
/-- LGR_CFG.BG_CAP [9:0] RW (03 R85). -/
def LGR_CFG_BG_CAP : Fld := ⟨31, 18, 0, 10, .rw, 80, [], false⟩
/-- LGR_CFG.PATROL_CAP [19:10] RW (03 R85). -/
def LGR_CFG_PATROL_CAP : Fld := ⟨32, 18, 10, 10, .rw, 30, [], false⟩
/-- LGR_CFG.CARRY [23:20] RW (03 R85). -/
def LGR_CFG_CARRY : Fld := ⟨33, 18, 20, 4, .rw, 2, [], false⟩
/-- LGR_CFG.CMD_CHG [31:24] RW (03 R85). -/
def LGR_CFG_CMD_CHG : Fld := ⟨34, 18, 24, 8, .rw, 4, [], false⟩
/-- LGR_STS.BG_CRIT [0] RO (03 R85). -/
def LGR_STS_BG_CRIT : Fld := ⟨35, 18, 0, 1, .ro, 0, [], false⟩
/-- LGR_STS.VEC_ERR [1] RW1C (03 R85). -/
def LGR_STS_VEC_ERR : Fld := ⟨36, 18, 1, 1, .rw1c, 0, [], false⟩
/-- LGR_STS.LC_ERR [2] RW1C (03 R85). -/
def LGR_STS_LC_ERR : Fld := ⟨37, 18, 2, 1, .rw1c, 0, [], false⟩
/-- LGR_EPOCH.COUNT [31:0] RO (03 R85). -/
def LGR_EPOCH_COUNT : Fld := ⟨38, 18, 0, 32, .ro, 0, [], false⟩
/-- LGR_DEV_CAP.MEDIA_US [22:0] RO (03 R85). -/
def LGR_DEV_CAP_MEDIA_US : Fld := ⟨39, 18, 0, 23, .ro, 0, [], false⟩
/-- LGR_DEV_ADMIT.LIMIT [39:0] RO (03 R85). -/
def LGR_DEV_ADMIT_LIMIT : Fld := ⟨40, 18, 0, 40, .ro, 1600000000, [], false⟩
/-- LGR_LC_TGT.TARGET [23:0] RW (03 R85). -/
def LGR_LC_TGT_TARGET : Fld := ⟨41, 18, 0, 24, .rw, 0, [100, 200, 500, 1000, 2000, 5000, 20000, 1000000], false⟩
/-- LGR_BG_USE.CHG [47:0] RO (03 R85). -/
def LGR_BG_USE_CHG : Fld := ⟨42, 18, 0, 48, .ro, 0, [], false⟩
/-- LGR_EVT_VEC.VECTOR [10:0] RW (03 R85). -/
def LGR_EVT_VEC_VECTOR : Fld := ⟨43, 18, 0, 11, .rw, 0, [], false⟩
/-- LGR_EVT_VEC.EN [15] RW (03 R85). -/
def LGR_EVT_VEC_EN : Fld := ⟨44, 18, 15, 1, .rw, 0, [], false⟩
/-- LGR_QSEL.QIDX [14:0] RW (03 R85). -/
def LGR_QSEL_QIDX : Fld := ⟨45, 18, 0, 15, .rw, 0, [], false⟩
/-- LGR_QINFO.SLICE [9:0] RO (03 R85). -/
def LGR_QINFO_SLICE : Fld := ⟨46, 18, 0, 10, .ro, 0, [], false⟩
/-- LGR_QINFO.FABRIC [10] RO (03 R85). -/
def LGR_QINFO_FABRIC : Fld := ⟨47, 18, 10, 1, .ro, 0, [], false⟩
/-- LGR_QINFO.BIND [18:11] RO (03 R85). -/
def LGR_QINFO_BIND : Fld := ⟨48, 18, 11, 8, .ro, 0, [], false⟩
/-- LGR_QINFO.LC [21:19] RO (03 R85). -/
def LGR_QINFO_LC : Fld := ⟨49, 18, 19, 3, .ro, 0, [], false⟩
/-- LGR_QINFO.FF [22] RO (03 R85). -/
def LGR_QINFO_FF : Fld := ⟨50, 18, 22, 1, .ro, 0, [], false⟩
/-- LGR_QINFO.CD [23] RO (03 R85). -/
def LGR_QINFO_CD : Fld := ⟨51, 18, 23, 1, .ro, 0, [], false⟩
/-- LGR_QINFO.GEN [39:24] RO (03 R85). -/
def LGR_QINFO_GEN : Fld := ⟨52, 18, 24, 16, .ro, 0, [], false⟩
/-- LGR_QINFO.NVME_QID [55:40] RO (03 R85). -/
def LGR_QINFO_NVME_QID : Fld := ⟨53, 18, 40, 16, .ro, 0, [], false⟩
/-- LGR_QINFO2.VECTOR [10:0] RO (03 R85). -/
def LGR_QINFO2_VECTOR : Fld := ⟨54, 18, 0, 11, .ro, 0, [], false⟩
/-- LGR_QINFO2.OUTST [26:11] RO (03 R85). -/
def LGR_QINFO2_OUTST : Fld := ⟨55, 18, 11, 16, .ro, 0, [], false⟩
/-- LGR_SL_CHG.CHG [47:0] RO (03 R85). -/
def LGR_SL_CHG_CHG : Fld := ⟨56, 18, 0, 48, .ro, 0, [], false⟩
/-- LGR_SL_LAST.CHG [47:0] RO (03 R85). -/
def LGR_SL_LAST_CHG : Fld := ⟨57, 18, 0, 48, .ro, 0, [], false⟩
/-- LGR_SL_NORM.N [63:0] RO (03 R85). -/
def LGR_SL_NORM_N : Fld := ⟨58, 18, 0, 64, .ro, 0, [], false⟩
/-- LGR_SL_BYTES.IN_KIB [31:0] RO (03 R85). -/
def LGR_SL_BYTES_IN_KIB : Fld := ⟨59, 18, 0, 32, .ro, 0, [], false⟩
/-- LGR_SL_BYTES.EG_KIB [63:32] RO (03 R85). -/
def LGR_SL_BYTES_EG_KIB : Fld := ⟨60, 18, 32, 32, .ro, 0, [], false⟩
/-- LGR_SL_DLMISS.CNT [31:0] RC (03 R85). -/
def LGR_SL_DLMISS_CNT : Fld := ⟨61, 18, 0, 32, .rc, 0, [], false⟩
/-- ZON_CAP.HANDLES [19:0] RO (04 R108). -/
def ZON_CAP_HANDLES : Fld := ⟨62, 20, 0, 20, .ro, 0, [], false⟩
/-- ZON_ACTIVE.COUNT [14:0] RO (04 R108). -/
def ZON_ACTIVE_COUNT : Fld := ⟨63, 20, 0, 15, .ro, 0, [], false⟩
/-- ZON_ACTIVE.SRAM [26:16] RO (04 R108). -/
def ZON_ACTIVE_SRAM : Fld := ⟨64, 20, 16, 11, .ro, 0, [], false⟩
/-- ZON_DIRECT.ACTIVE [5:0] RO (04 R108). -/
def ZON_DIRECT_ACTIVE : Fld := ⟨65, 20, 0, 6, .ro, 0, [], false⟩
/-- ZON_DIRECT.MAX [13:8] RW (04 R108). -/
def ZON_DIRECT_MAX : Fld := ⟨66, 20, 8, 6, .rw, 32, [], false⟩
/-- ZON_CFG.HOLD_DEPTH [15:8] RW (04 R108). -/
def ZON_CFG_HOLD_DEPTH : Fld := ⟨67, 20, 8, 8, .rw, 64, [], false⟩
/-- ZON_CFG.HOLD_TMO [31:16] RW (04 R108). -/
def ZON_CFG_HOLD_TMO : Fld := ⟨68, 20, 16, 16, .rw, 100, [], false⟩
/-- ZON_NSSEL.NSID [31:0] RW (04 R108). -/
def ZON_NSSEL_NSID : Fld := ⟨69, 20, 0, 32, .rw, 0, [], false⟩
/-- ZON_NSINFO.BASE [19:0] RO (04 R108). -/
def ZON_NSINFO_BASE : Fld := ⟨70, 20, 0, 20, .ro, 0, [], false⟩
/-- ZON_NSINFO.COUNT [39:20] RO (04 R108). -/
def ZON_NSINFO_COUNT : Fld := ⟨71, 20, 20, 20, .ro, 0, [], false⟩
/-- ZON_NSINFO.DGROUP [45:40] RO (04 R108). -/
def ZON_NSINFO_DGROUP : Fld := ⟨72, 20, 40, 6, .ro, 0, [], false⟩
/-- ZON_NSINFO.LBAF [47:46] RO (04 R108). -/
def ZON_NSINFO_LBAF : Fld := ⟨73, 20, 46, 2, .ro, 0, [], false⟩
/-- ZON_NSINFO.VALID [48] RO (04 R108). -/
def ZON_NSINFO_VALID : Fld := ⟨74, 20, 48, 1, .ro, 0, [], false⟩
/-- ZON_HOLD_FAIL.CNT [31:0] RC (04 R108). -/
def ZON_HOLD_FAIL_CNT : Fld := ⟨75, 20, 0, 32, .rc, 0, [], false⟩
/-- ZON_DEV_XN.FINISH [15:0] RC (04 R108). -/
def ZON_DEV_XN_FINISH : Fld := ⟨76, 20, 0, 16, .rc, 0, [], false⟩
/-- ZON_DEV_XN.RONLY [31:16] RC (04 R108). -/
def ZON_DEV_XN_RONLY : Fld := ⟨77, 20, 16, 16, .rc, 0, [], false⟩
/-- ZON_ENT0.STATE [3:0] RO (04 R108). -/
def ZON_ENT0_STATE : Fld := ⟨78, 20, 0, 4, .ro, 0, [], false⟩
/-- ZON_ENT0.ROUTE [5:4] RO (04 R108). -/
def ZON_ENT0_ROUTE : Fld := ⟨79, 20, 4, 2, .ro, 0, [], false⟩
/-- ZON_ENT0.PSLOT [7:6] RO (04 R108). -/
def ZON_ENT0_PSLOT : Fld := ⟨80, 20, 6, 2, .ro, 0, [], false⟩
/-- ZON_ENT0.SLICE [17:8] RO (04 R108). -/
def ZON_ENT0_SLICE : Fld := ⟨81, 20, 8, 10, .ro, 0, [], false⟩
/-- ZON_ENT0.DGROUP [23:18] RO (04 R108). -/
def ZON_ENT0_DGROUP : Fld := ⟨82, 20, 18, 6, .ro, 0, [], false⟩
/-- ZON_ENT0.ZFC [24] RO (04 R108). -/
def ZON_ENT0_ZFC : Fld := ⟨83, 20, 24, 1, .ro, 0, [], false⟩
/-- ZON_ENT0.NSID [63:32] RO (04 R108). -/
def ZON_ENT0_NSID : Fld := ⟨84, 20, 32, 32, .ro, 0, [], false⟩
/-- ZON_ENT1.ZSLBA [63:0] RO (04 R108). -/
def ZON_ENT1_ZSLBA : Fld := ⟨85, 20, 0, 64, .ro, 0, [], false⟩
/-- ZON_ENT2.WP_OFF [19:0] RO (04 R108). -/
def ZON_ENT2_WP_OFF : Fld := ⟨86, 20, 0, 20, .ro, 0, [], false⟩
/-- ZON_ENT2.HOLD [27:20] RO (04 R108). -/
def ZON_ENT2_HOLD : Fld := ⟨87, 20, 20, 8, .ro, 0, [], false⟩
/-- ZON_ENT2.WINROW [34:32] RO (04 R108). -/
def ZON_ENT2_WINROW : Fld := ⟨88, 20, 32, 3, .ro, 0, [], false⟩
/-- ZON_ENT3.SSET0 [23:0] RO (04 R108). -/
def ZON_ENT3_SSET0 : Fld := ⟨89, 20, 0, 24, .ro, 0, [], false⟩
/-- ZON_ENT3.K [28:24] RO (04 R108). -/
def ZON_ENT3_K : Fld := ⟨90, 20, 24, 5, .ro, 0, [], false⟩
/-- ZON_ENT4.SSET1 [23:0] RO (04 R108). -/
def ZON_ENT4_SSET1 : Fld := ⟨91, 20, 0, 24, .ro, 0, [], false⟩
/-- ZON_ENT4.SSET2 [47:24] RO (04 R108). -/
def ZON_ENT4_SSET2 : Fld := ⟨92, 20, 24, 24, .ro, 0, [], false⟩
/-- ZON_ENT5.SSET3 [23:0] RO (04 R108). -/
def ZON_ENT5_SSET3 : Fld := ⟨93, 20, 0, 24, .ro, 0, [], false⟩
/-- ZON_ENT6.ACT_NS [63:0] RO (04 R108). -/
def ZON_ENT6_ACT_NS : Fld := ⟨94, 20, 0, 64, .ro, 0, [], false⟩
/-- ZON_ENT7.SEQ [31:0] RO (04 R108). -/
def ZON_ENT7_SEQ : Fld := ⟨95, 20, 0, 32, .ro, 0, [], false⟩
/-- ZON_ENT7.RESETS [63:32] RO (04 R108). -/
def ZON_ENT7_RESETS : Fld := ⟨96, 20, 32, 32, .ro, 0, [], false⟩
/-- FRL_LSTS.STATE [1:0] RO (05 R143). -/
def FRL_LSTS_STATE : Fld := ⟨97, 15, 0, 2, .ro, 0, [], false⟩
/-- FRL_LSTS.BANK [2] RO (05 R143). -/
def FRL_LSTS_BANK : Fld := ⟨98, 15, 2, 1, .ro, 0, [], false⟩
/-- FRL_LSTS.OLD_BUSY [3] RO (05 R143). -/
def FRL_LSTS_OLD_BUSY : Fld := ⟨99, 15, 3, 1, .ro, 0, [], false⟩
/-- FRL_LSTS.FENCE_RSN [7:4] RO (05 R143). -/
def FRL_LSTS_FENCE_RSN : Fld := ⟨100, 15, 4, 4, .ro, 0, [], false⟩
/-- FRL_LSTS.EPOCH [31:16] RO (05 R143). -/
def FRL_LSTS_EPOCH : Fld := ⟨101, 15, 16, 16, .ro, 0, [], false⟩
/-- FRL_LBYTES_IN.BYTES [63:0] RO (05 R143). -/
def FRL_LBYTES_IN_BYTES : Fld := ⟨102, 15, 0, 64, .ro, 0, [], false⟩
/-- FRL_LBYTES_OUT.BYTES [63:0] RO (05 R143). -/
def FRL_LBYTES_OUT_BYTES : Fld := ⟨103, 15, 0, 64, .ro, 0, [], false⟩
/-- FRL_LREISSUE.CNT [31:0] RC (05 R143). -/
def FRL_LREISSUE_CNT : Fld := ⟨104, 15, 0, 32, .rc, 0, [], false⟩
/-- FRL_SSEL.STREAM [7:0] RW (05 R143). -/
def FRL_SSEL_STREAM : Fld := ⟨105, 15, 0, 8, .rw, 0, [], false⟩
/-- FRL_SINFO.STATE [2:0] RO (05 R143). -/
def FRL_SINFO_STATE : Fld := ⟨106, 15, 0, 3, .ro, 0, [], false⟩
/-- FRL_SINFO.BLK_RSN [5:3] RO (05 R143). -/
def FRL_SINFO_BLK_RSN : Fld := ⟨107, 15, 3, 3, .ro, 0, [], false⟩
/-- FRL_SINFO.SLICE [15:6] RO (05 R143). -/
def FRL_SINFO_SLICE : Fld := ⟨108, 15, 6, 10, .ro, 0, [], false⟩
/-- FRL_SINFO.PROG [19:16] RO (05 R143). -/
def FRL_SINFO_PROG : Fld := ⟨109, 15, 16, 4, .ro, 0, [], false⟩
/-- FRL_SINFO.W [25:20] RO (05 R143). -/
def FRL_SINFO_W : Fld := ⟨110, 15, 20, 6, .ro, 0, [], false⟩
/-- FRL_SINFO.SRC [26] RO (05 R143). -/
def FRL_SINFO_SRC : Fld := ⟨111, 15, 26, 1, .ro, 0, [], false⟩
/-- FRL_SINFO.SET [63:32] RO (05 R143). -/
def FRL_SINFO_SET : Fld := ⟨112, 15, 32, 32, .ro, 0, [], false⟩
/-- FRL_SPOS.LOG [39:0] RO (05 R143). -/
def FRL_SPOS_LOG : Fld := ⟨113, 15, 0, 40, .ro, 0, [], false⟩
/-- FRL_SPOS.VOIDS [48:40] RO (05 R143). -/
def FRL_SPOS_VOIDS : Fld := ⟨114, 15, 40, 9, .ro, 0, [], false⟩
/-- FRL_SFRAME.F [63:0] RO (05 R143). -/
def FRL_SFRAME_F : Fld := ⟨115, 15, 0, 64, .ro, 0, [], false⟩
/-- FRL_SCNT.CNT [31:0] RO (05 R143). -/
def FRL_SCNT_CNT : Fld := ⟨116, 15, 0, 32, .ro, 0, [], false⟩
/-- FRL_UNMATCHED.CNT [31:0] RC (05 R143). -/
def FRL_UNMATCHED_CNT : Fld := ⟨117, 15, 0, 32, .rc, 0, [], false⟩
/-- FRL_REORDER_USE.KIB [13:0] RO (05 R143). -/
def FRL_REORDER_USE_KIB : Fld := ⟨118, 15, 0, 14, .ro, 0, [], false⟩
/-- FRL_REORDER_USE.RSV [29:16] RO (05 R143). -/
def FRL_REORDER_USE_RSV : Fld := ⟨119, 15, 16, 14, .ro, 0, [], false⟩
/-- FRL_LANE_AVAIL.MASK [63:0] RO (05 R143). -/
def FRL_LANE_AVAIL_MASK : Fld := ⟨120, 15, 0, 64, .ro, 18446744073709551615, [], false⟩
/-- MED_STG_CFG.FILL_TMO [7:0] RW (06 R165). -/
def MED_STG_CFG_FILL_TMO : Fld := ⟨121, 11, 0, 8, .rw, 20, [], false⟩
/-- MED_STG_CFG.LOW_FREE [15:8] RW (06 R165). -/
def MED_STG_CFG_LOW_FREE : Fld := ⟨122, 11, 8, 8, .rw, 16, [], false⟩
/-- MED_STG_STS.SRAM_USED [8:0] RO (06 R165). -/
def MED_STG_STS_SRAM_USED : Fld := ⟨123, 11, 0, 9, .ro, 0, [], false⟩
/-- MED_STG_STS.DIRECT_RSV [17:9] RO (06 R165). -/
def MED_STG_STS_DIRECT_RSV : Fld := ⟨124, 11, 9, 9, .ro, 0, [], false⟩
/-- MED_STG_STS.OVF_MIB [48:32] RO (06 R165). -/
def MED_STG_STS_OVF_MIB : Fld := ⟨125, 11, 32, 17, .ro, 0, [], false⟩
/-- MED_PSLOT_STS.SRAM_USE [10:0] RO (06 R165). -/
def MED_PSLOT_STS_SRAM_USE : Fld := ⟨126, 11, 0, 11, .ro, 0, [], false⟩
/-- MED_PSLOT_STS.SPILLED [24:11] RO (06 R165). -/
def MED_PSLOT_STS_SPILLED : Fld := ⟨127, 11, 11, 14, .ro, 0, [], false⟩
/-- MED_SPILL_CFG.MAX [9:0] RW (06 R165). -/
def MED_SPILL_CFG_MAX : Fld := ⟨128, 11, 0, 10, .rw, 64, [], false⟩
/-- MED_SPILL_CFG.DEMOTE_TMO [23:16] RW (06 R165). -/
def MED_SPILL_CFG_DEMOTE_TMO : Fld := ⟨129, 11, 16, 8, .rw, 10, [], false⟩
/-- MED_WIN_CFG.PCT [4:0] RW (06 R165). -/
def MED_WIN_CFG_PCT : Fld := ⟨130, 11, 0, 5, .rw, 12, [], false⟩
/-- MED_WIN_CFG.FOLD_START [14:8] RW (06 R165). -/
def MED_WIN_CFG_FOLD_START : Fld := ⟨131, 11, 8, 7, .rw, 50, [], false⟩
/-- MED_WIN_STS.BLOCKS [23:0] RO (06 R165). -/
def MED_WIN_STS_BLOCKS : Fld := ⟨132, 11, 0, 24, .ro, 0, [], false⟩
/-- MED_WIN_STS.EFF_PCT [31:24] RO (06 R165). -/
def MED_WIN_STS_EFF_PCT : Fld := ⟨133, 11, 24, 8, .ro, 0, [], false⟩
/-- MED_WIN_STS.FILL [38:32] RO (06 R165). -/
def MED_WIN_STS_FILL : Fld := ⟨134, 11, 32, 7, .ro, 0, [], false⟩
/-- MED_PF_CFG.DIRTY_MAX [5:0] RWL (06 R165). -/
def MED_PF_CFG_DIRTY_MAX : Fld := ⟨135, 11, 0, 6, .rwl, 16, [], false⟩
/-- MED_PF_STS.PHASE [2:0] RO (06 R165). -/
def MED_PF_STS_PHASE : Fld := ⟨136, 11, 0, 3, .ro, 4, [], false⟩
/-- MED_PF_STS.BANK [3] RO (06 R165). -/
def MED_PF_STS_BANK : Fld := ⟨137, 11, 3, 1, .ro, 0, [], false⟩
/-- MED_PF_STS.LAST [5:4] RO (06 R165). -/
def MED_PF_STS_LAST : Fld := ⟨138, 11, 4, 2, .ro, 0, [], false⟩
/-- MED_PF_STS.RESUMED [6] RW1C (06 R165). -/
def MED_PF_STS_RESUMED : Fld := ⟨139, 11, 6, 1, .rw1c, 0, [], false⟩
/-- MED_PF_STS.OVERRUN [7] RO (06 R165). -/
def MED_PF_STS_OVERRUN : Fld := ⟨140, 11, 7, 1, .ro, 0, [], false⟩
/-- MED_PF_STS.DUR [31:16] RO (06 R165). -/
def MED_PF_STS_DUR : Fld := ⟨141, 11, 16, 16, .ro, 0, [], false⟩
/-- MED_PF_CNT.FLUSHES [15:0] RO (06 R165). -/
def MED_PF_CNT_FLUSHES : Fld := ⟨142, 11, 0, 16, .ro, 0, [], false⟩
/-- MED_PF_CNT.UNSAFE [31:16] RO (06 R165). -/
def MED_PF_CNT_UNSAFE : Fld := ⟨143, 11, 16, 16, .ro, 0, [], false⟩
/-- RDN_CFG.UNREACH_WAIT [9:0] RW (07 R183). -/
def RDN_CFG_UNREACH_WAIT : Fld := ⟨144, 13, 0, 10, .rw, 100, [], false⟩
/-- RDN_CFG.RA_MAXINFL [28:16] RW (07 R183). -/
def RDN_CFG_RA_MAXINFL : Fld := ⟨145, 13, 16, 13, .rw, 4096, [], false⟩
/-- RDN_STS.RBLD [0] RO (07 R183). -/
def RDN_STS_RBLD : Fld := ⟨146, 13, 0, 1, .ro, 0, [], false⟩
/-- RDN_STS.CRIT [1] RO (07 R183). -/
def RDN_STS_CRIT : Fld := ⟨147, 13, 1, 1, .ro, 0, [], false⟩
/-- RDN_STS.LOST_FULL [2] RO (07 R183). -/
def RDN_STS_LOST_FULL : Fld := ⟨148, 13, 2, 1, .ro, 0, [], false⟩
/-- RDN_STS.SUBST_FULL [3] RO (07 R183). -/
def RDN_STS_SUBST_FULL : Fld := ⟨149, 13, 3, 1, .ro, 0, [], false⟩
/-- RDN_STS.RSHP [5:4] RO (07 R183). -/
def RDN_STS_RSHP : Fld := ⟨150, 13, 4, 2, .ro, 0, [], false⟩
/-- RDN_STS.RSHP_GRP [11:6] RO (07 R183). -/
def RDN_STS_RSHP_GRP : Fld := ⟨151, 13, 6, 6, .ro, 0, [], false⟩
/-- RDN_RBLD_CFG.SHARE [9:0] RW (07 R183). -/
def RDN_RBLD_CFG_SHARE : Fld := ⟨152, 13, 0, 10, .rw, 100, [], false⟩
/-- RDN_RBLD_CFG.CRIT_SHARE [19:10] RW (07 R183). -/
def RDN_RBLD_CFG_CRIT_SHARE : Fld := ⟨153, 13, 10, 10, .rw, 300, [], false⟩
/-- RDN_RBLD_CFG.DELAY [31:20] RW (07 R183). -/
def RDN_RBLD_CFG_DELAY : Fld := ⟨154, 13, 20, 12, .rw, 600, [], false⟩
/-- RDN_RBLD_STS.PEND1 [23:0] RO (07 R183). -/
def RDN_RBLD_STS_PEND1 : Fld := ⟨155, 13, 0, 24, .ro, 0, [], false⟩
/-- RDN_RBLD_STS.PEND2 [47:24] RO (07 R183). -/
def RDN_RBLD_STS_PEND2 : Fld := ⟨156, 13, 24, 24, .ro, 0, [], false⟩
/-- RDN_RBLD_BYTES.BYTES [63:0] RO (07 R183). -/
def RDN_RBLD_BYTES_BYTES : Fld := ⟨157, 13, 0, 64, .ro, 0, [], false⟩
/-- RDN_SUBST.USED [20:0] RO (07 R183). -/
def RDN_SUBST_USED : Fld := ⟨158, 13, 0, 21, .ro, 0, [], false⟩
/-- RDN_LOST_CNT.USED [16:0] RO (07 R183). -/
def RDN_LOST_CNT_USED : Fld := ⟨159, 13, 0, 17, .ro, 0, [], false⟩
/-- RDN_LOST_CNT.OVF [31:17] RO (07 R183). -/
def RDN_LOST_CNT_OVF : Fld := ⟨160, 13, 17, 15, .ro, 0, [], false⟩
/-- RDN_LOST_SEL.INDEX [15:0] RW (07 R183). -/
def RDN_LOST_SEL_INDEX : Fld := ⟨161, 13, 0, 16, .rw, 0, [], false⟩
/-- RDN_LOST_ENT.ROW [31:0] RO (07 R183). -/
def RDN_LOST_ENT_ROW : Fld := ⟨162, 13, 0, 32, .ro, 0, [], false⟩
/-- RDN_LOST_ENT.FIRST [42:32] RO (07 R183). -/
def RDN_LOST_ENT_FIRST : Fld := ⟨163, 13, 32, 11, .ro, 0, [], false⟩
/-- RDN_LOST_ENT.LAST [53:43] RO (07 R183). -/
def RDN_LOST_ENT_LAST : Fld := ⟨164, 13, 43, 11, .ro, 0, [], false⟩
/-- RDN_LOST_ENT.VALID [54] RO (07 R183). -/
def RDN_LOST_ENT_VALID : Fld := ⟨165, 13, 54, 1, .ro, 0, [], false⟩
/-- RDN_LOST_TIME.TIME [63:0] RO (07 R183). -/
def RDN_LOST_TIME_TIME : Fld := ⟨166, 13, 0, 64, .ro, 0, [], false⟩
/-- RDN_GRP_SEL.GROUP [5:0] RW (07 R183). -/
def RDN_GRP_SEL_GROUP : Fld := ⟨167, 13, 0, 6, .rw, 0, [], false⟩
/-- RDN_GRP_INFO.N [6:0] RO (07 R183). -/
def RDN_GRP_INFO_N : Fld := ⟨168, 13, 0, 7, .ro, 0, [], false⟩
/-- RDN_GRP_INFO.D [13:7] RO (07 R183). -/
def RDN_GRP_INFO_D : Fld := ⟨169, 13, 7, 7, .ro, 0, [], false⟩
/-- RDN_GRP_INFO.K [18:14] RO (07 R183). -/
def RDN_GRP_INFO_K : Fld := ⟨170, 13, 14, 5, .ro, 0, [], false⟩
/-- RDN_GRP_INFO.ROWS [27:19] RO (07 R183). -/
def RDN_GRP_INFO_ROWS : Fld := ⟨171, 13, 19, 9, .ro, 0, [], false⟩
/-- RDN_GRP_INFO.SPARE [37:28] RO (07 R183). -/
def RDN_GRP_INFO_SPARE : Fld := ⟨172, 13, 28, 10, .ro, 0, [], false⟩
/-- RDN_GRP_INFO.DEDICATED [38] RO (07 R183). -/
def RDN_GRP_INFO_DEDICATED : Fld := ⟨173, 13, 38, 1, .ro, 0, [], false⟩
/-- RDN_GRP_INFO.SHADOW [39] RO (07 R183). -/
def RDN_GRP_INFO_SHADOW : Fld := ⟨174, 13, 39, 1, .ro, 0, [], false⟩
/-- RDN_RSHP_STS.DONE [19:0] RO (07 R183). -/
def RDN_RSHP_STS_DONE : Fld := ⟨175, 13, 0, 20, .ro, 0, [], false⟩
/-- RDN_RSHP_STS.TOTAL [39:20] RO (07 R183). -/
def RDN_RSHP_STS_TOTAL : Fld := ⟨176, 13, 20, 20, .ro, 0, [], false⟩
/-- RDN_RSHP_STS.WAIT_ACTIVE [53:40] RO (07 R183). -/
def RDN_RSHP_STS_WAIT_ACTIVE : Fld := ⟨177, 13, 40, 14, .ro, 0, [], false⟩
/-- RDN_RA_CNT.CNT [31:0] RC (07 R183). -/
def RDN_RA_CNT_CNT : Fld := ⟨178, 13, 0, 32, .rc, 0, [], false⟩
/-- RDN_DEG_CNT.CNT [31:0] RC (07 R183). -/
def RDN_DEG_CNT_CNT : Fld := ⟨179, 13, 0, 32, .rc, 0, [], false⟩
/-- RDN_UNREACH_CNT.CNT [31:0] RC (07 R183). -/
def RDN_UNREACH_CNT_CNT : Fld := ⟨180, 13, 0, 32, .rc, 0, [], false⟩
/-- KZL_CTL.EN [0] RW (08 R206). -/
def KZL_CTL_EN : Fld := ⟨181, 10, 0, 1, .rw, 1, [], false⟩
/-- KZL_CTL.WIDTH_CAP [2:1] RW (08 R206). -/
def KZL_CTL_WIDTH_CAP : Fld := ⟨182, 10, 1, 2, .rw, 0, [], false⟩
/-- KZL_CTL.QUIET_EN [3] RW (08 R206). -/
def KZL_CTL_QUIET_EN : Fld := ⟨183, 10, 3, 1, .rw, 1, [], false⟩
/-- KZL_CTL.QUIET_ENTRY [11:4] RW (08 R206). -/
def KZL_CTL_QUIET_ENTRY : Fld := ⟨184, 10, 4, 8, .rw, 16, [], false⟩
/-- KZL_CTL.KEEPALIVE [19:12] RW (08 R206). -/
def KZL_CTL_KEEPALIVE : Fld := ⟨185, 10, 12, 8, .rw, 100, [], false⟩
/-- KZL_CTL.RETRAIN [31:20] RW (08 R206). -/
def KZL_CTL_RETRAIN : Fld := ⟨186, 10, 20, 12, .rw, 10, [], false⟩
/-- KZL_STS.HOP0 [3:0] RO (08 R206). -/
def KZL_STS_HOP0 : Fld := ⟨187, 10, 0, 4, .ro, 0, [], false⟩
/-- KZL_STS.WIDTH [5:4] RO (08 R206). -/
def KZL_STS_WIDTH : Fld := ⟨188, 10, 4, 2, .ro, 3, [], false⟩
/-- KZL_STS.LANES_OK [9:6] RO (08 R206). -/
def KZL_STS_LANES_OK : Fld := ⟨189, 10, 6, 4, .ro, 0, [], false⟩
/-- KZL_STS.ENGINE [11:10] RO (08 R206). -/
def KZL_STS_ENGINE : Fld := ⟨190, 10, 10, 2, .ro, 0, [], false⟩
/-- KZL_STS.BRIDGES [14:12] RO (08 R206). -/
def KZL_STS_BRIDGES : Fld := ⟨191, 10, 12, 3, .ro, 0, [], false⟩
/-- KZL_STS.BREAK [15] RO (08 R206). -/
def KZL_STS_BREAK : Fld := ⟨192, 10, 15, 1, .ro, 0, [], false⟩
/-- KZL_STS.BREAK_HOP [17:16] RO (08 R206). -/
def KZL_STS_BREAK_HOP : Fld := ⟨193, 10, 16, 2, .ro, 0, [], false⟩
/-- KZL_STS.SB [19:18] RO (08 R206). -/
def KZL_STS_SB : Fld := ⟨194, 10, 18, 2, .ro, 0, [], false⟩
/-- KZL_STS.EXTRA [20] RO (08 R206). -/
def KZL_STS_EXTRA : Fld := ⟨195, 10, 20, 1, .ro, 0, [], false⟩
/-- KZL_STS.REMOVE_OK [21] RO (08 R206). -/
def KZL_STS_REMOVE_OK : Fld := ⟨196, 10, 21, 1, .ro, 0, [], false⟩
/-- KZL_STS.REMOVE_POS [23:22] RO (08 R206). -/
def KZL_STS_REMOVE_POS : Fld := ⟨197, 10, 22, 2, .ro, 0, [], false⟩
/-- KZL_UNREACH.MASK [63:0] RO (08 R206). -/
def KZL_UNREACH_MASK : Fld := ⟨198, 10, 0, 64, .ro, 18446744073709551615, [], false⟩
/-- KZL_BRK_TIME.TIME [63:0] RO (08 R206). -/
def KZL_BRK_TIME_TIME : Fld := ⟨199, 10, 0, 64, .ro, 0, [], false⟩
/-- KZL_BID.PRESENT [0] RO (08 R206). -/
def KZL_BID_PRESENT : Fld := ⟨200, 10, 0, 1, .ro, 0, [], false⟩
/-- KZL_BID.HOP [4:1] RO (08 R206). -/
def KZL_BID_HOP : Fld := ⟨201, 10, 1, 4, .ro, 0, [], false⟩
/-- KZL_BID.DIES [20:5] RO (08 R206). -/
def KZL_BID_DIES : Fld := ⟨202, 10, 5, 16, .ro, 0, [], false⟩
/-- KZL_BID.MDESC [28:21] RO (08 R206). -/
def KZL_BID_MDESC : Fld := ⟨203, 10, 21, 8, .ro, 0, [], false⟩
/-- KZL_BID.BTYPE [47:32] RO (08 R206). -/
def KZL_BID_BTYPE : Fld := ⟨204, 10, 32, 16, .ro, 0, [], false⟩
/-- KZL_BID.DSB [48] RO (08 R206). -/
def KZL_BID_DSB : Fld := ⟨205, 10, 48, 1, .ro, 0, [], false⟩
/-- KZL_BSER.SERIAL [63:0] RO (08 R206). -/
def KZL_BSER_SERIAL : Fld := ⟨206, 10, 0, 64, .ro, 0, [], false⟩
/-- KZL_FEC_CNT.CORR [31:0] RC (08 R206). -/
def KZL_FEC_CNT_CORR : Fld := ⟨207, 10, 0, 32, .rc, 0, [], false⟩
/-- KZL_REPLAY_CNT.REPLAY [23:0] RC (08 R206). -/
def KZL_REPLAY_CNT_REPLAY : Fld := ⟨208, 10, 0, 24, .rc, 0, [], false⟩
/-- KZL_REPLAY_CNT.STRAY [31:24] RC (08 R206). -/
def KZL_REPLAY_CNT_STRAY : Fld := ⟨209, 10, 24, 8, .rc, 0, [], false⟩
/-- KZL_LOCK_CNT.LOCKLOSS [15:0] RC (08 R206). -/
def KZL_LOCK_CNT_LOCKLOSS : Fld := ⟨210, 10, 0, 16, .rc, 0, [], false⟩
/-- KZL_LOCK_CNT.BREAKS [31:16] RC (08 R206). -/
def KZL_LOCK_CNT_BREAKS : Fld := ⟨211, 10, 16, 16, .rc, 0, [], false⟩
/-- KZL_LANE.EYE_H [7:0] RO (08 R206). -/
def KZL_LANE_EYE_H : Fld := ⟨212, 10, 0, 8, .ro, 0, [], false⟩
/-- KZL_LANE.EYE_W [15:8] RO (08 R206). -/
def KZL_LANE_EYE_W : Fld := ⟨213, 10, 8, 8, .ro, 0, [], false⟩
/-- KZL_LANE.SYMERR [31:16] RC (08 R206). -/
def KZL_LANE_SYMERR : Fld := ⟨214, 10, 16, 16, .rc, 0, [], false⟩
/-- MED_SCHED_CFG.RA_THRESH [15:0] RW (09 R229). -/
def MED_SCHED_CFG_RA_THRESH : Fld := ⟨215, 11, 0, 16, .rw, 250, [], false⟩
/-- MED_SCHED_CFG.MIN_RUN [23:16] RW (09 R229). -/
def MED_SCHED_CFG_MIN_RUN : Fld := ⟨216, 11, 16, 8, .rw, 20, [], false⟩
/-- MED_SCHED_CFG.SUS_MAX [27:24] RW (09 R229). -/
def MED_SCHED_CFG_SUS_MAX : Fld := ⟨217, 11, 24, 4, .rw, 12, [], false⟩
/-- MED_SCHED_CFG.PLANE_MERGE [28] RW (09 R229). -/
def MED_SCHED_CFG_PLANE_MERGE : Fld := ⟨218, 11, 28, 1, .rw, 1, [], false⟩
/-- MED_VFY_CFG.ONEBIT_PCT [6:0] RW (09 R229). -/
def MED_VFY_CFG_ONEBIT_PCT : Fld := ⟨219, 11, 0, 7, .rw, 10, [], false⟩
/-- MED_VFY_CFG.MAX_FRAC [14:8] RW (09 R229). -/
def MED_VFY_CFG_MAX_FRAC : Fld := ⟨220, 11, 8, 7, .rw, 50, [], false⟩
/-- MED_RET_CFG.GBB_MAX [10:0] RW (09 R229). -/
def MED_RET_CFG_GBB_MAX : Fld := ⟨221, 11, 0, 11, .rw, 96, [], false⟩
/-- MED_RET_CFG.RESETS [14:12] RW (09 R229). -/
def MED_RET_CFG_RESETS : Fld := ⟨222, 11, 12, 3, .rw, 3, [], false⟩
/-- MED_RET_CFG.RET_WEAR [23:16] RW (09 R229). -/
def MED_RET_CFG_RET_WEAR : Fld := ⟨223, 11, 16, 8, .rw, 0, [], false⟩
/-- MED_DESC.COUNT [5:0] RO (09 R229). -/
def MED_DESC_COUNT : Fld := ⟨224, 11, 0, 6, .ro, 0, [], false⟩
/-- MED_DESC.RETIRED [24:12] RO (09 R229). -/
def MED_DESC_RETIRED : Fld := ⟨225, 11, 12, 13, .ro, 0, [], false⟩
/-- MED_WEAR.PCT_USED [7:0] RO (09 R229). -/
def MED_WEAR_PCT_USED : Fld := ⟨226, 11, 0, 8, .ro, 0, [], false⟩
/-- MED_WEAR.DAYS [31:16] RO (09 R229). -/
def MED_WEAR_DAYS : Fld := ⟨227, 11, 16, 16, .ro, 65535, [], false⟩
/-- MED_WEAR.IDX_MEAN [47:32] RO (09 R229). -/
def MED_WEAR_IDX_MEAN : Fld := ⟨228, 11, 32, 16, .ro, 0, [], false⟩
/-- MED_DIE_RETIRE.DIE [11:0] WO (09 R229). -/
def MED_DIE_RETIRE_DIE : Fld := ⟨229, 11, 0, 12, .wo, 0, [], false⟩
/-- MED_DIE_RETIRE.GO [31] WO (09 R229). -/
def MED_DIE_RETIRE_GO : Fld := ⟨230, 11, 31, 1, .wo, 0, [], false⟩
/-- MED_RA_DENY.CNT [31:0] RC (09 R229). -/
def MED_RA_DENY_CNT : Fld := ⟨231, 11, 0, 32, .rc, 0, [], false⟩
/-- MED_TMO_CNT.CNT [31:0] RC (09 R229). -/
def MED_TMO_CNT_CNT : Fld := ⟨232, 11, 0, 32, .rc, 0, [], false⟩
/-- MED_VFY_FAIL.VFY [15:0] RC (09 R229). -/
def MED_VFY_FAIL_VFY : Fld := ⟨233, 11, 0, 16, .rc, 0, [], false⟩
/-- MED_VFY_FAIL.PFAIL [31:16] RC (09 R229). -/
def MED_VFY_FAIL_PFAIL : Fld := ⟨234, 11, 16, 16, .rc, 0, [], false⟩
/-- MED_DIE_STS.STATE [1:0] RO (09 R229). -/
def MED_DIE_STS_STATE : Fld := ⟨235, 11, 0, 2, .ro, 0, [], false⟩
/-- MED_DIE_STS.OP [4:2] RO (09 R229). -/
def MED_DIE_STS_OP : Fld := ⟨236, 11, 2, 3, .ro, 0, [], false⟩
/-- MED_DIE_STS.SUSP [5] RO (09 R229). -/
def MED_DIE_STS_SUSP : Fld := ⟨237, 11, 5, 1, .ro, 0, [], false⟩
/-- MED_DIE_STS.OPEN [6] RO (09 R229). -/
def MED_DIE_STS_OPEN : Fld := ⟨238, 11, 6, 1, .ro, 0, [], false⟩
/-- MED_DIE_STS.SUSP_N [11:8] RO (09 R229). -/
def MED_DIE_STS_SUSP_N : Fld := ⟨239, 11, 8, 4, .ro, 0, [], false⟩
/-- MED_DIE_STS.QDEPTH [19:12] RO (09 R229). -/
def MED_DIE_STS_QDEPTH : Fld := ⟨240, 11, 12, 8, .ro, 0, [], false⟩
/-- MED_DIE_STS.PRED_US [35:20] RO (09 R229). -/
def MED_DIE_STS_PRED_US : Fld := ⟨241, 11, 20, 16, .ro, 0, [], false⟩
/-- MED_DIE_STS.TEMP [43:36] RO (09 R229). -/
def MED_DIE_STS_TEMP : Fld := ⟨242, 11, 36, 8, .ro, 0, [], false⟩
/-- MED_HLTH_SEL.DIE [11:0] RW (09 R229). -/
def MED_HLTH_SEL_DIE : Fld := ⟨243, 11, 0, 12, .rw, 0, [], false⟩
/-- MED_HLTH_SEL.BLOCK [26:16] RW (09 R229). -/
def MED_HLTH_SEL_BLOCK : Fld := ⟨244, 11, 16, 11, .rw, 0, [], false⟩
/-- MED_HLTH_BLK.ERASES [23:0] RO (09 R229). -/
def MED_HLTH_BLK_ERASES : Fld := ⟨245, 11, 0, 24, .ro, 0, [], false⟩
/-- MED_HLTH_BLK.BAD [24] RO (09 R229). -/
def MED_HLTH_BLK_BAD : Fld := ⟨246, 11, 24, 1, .ro, 0, [], false⟩
/-- MED_HLTH_BLK.ONEBIT [25] RO (09 R229). -/
def MED_HLTH_BLK_ONEBIT : Fld := ⟨247, 11, 25, 1, .ro, 0, [], false⟩
/-- MED_HLTH_BLK.TIER [27:26] RO (09 R229). -/
def MED_HLTH_BLK_TIER : Fld := ⟨248, 11, 26, 2, .ro, 0, [], false⟩
/-- MED_HLTH_DIE.GBB [10:0] RO (09 R229). -/
def MED_HLTH_DIE_GBB : Fld := ⟨249, 11, 0, 11, .ro, 0, [], false⟩
/-- MED_HLTH_DIE.PFAIL [31:16] RO (09 R229). -/
def MED_HLTH_DIE_PFAIL : Fld := ⟨250, 11, 16, 16, .ro, 0, [], false⟩
/-- MED_HLTH_DIE.EFAIL [47:32] RO (09 R229). -/
def MED_HLTH_DIE_EFAIL : Fld := ⟨251, 11, 32, 16, .ro, 0, [], false⟩
/-- MED_HLTH_DIE.IDX [63:48] RO (09 R229). -/
def MED_HLTH_DIE_IDX : Fld := ⟨252, 11, 48, 16, .ro, 0, [], false⟩
/-- MED_HLTH_ERS.MEAN [23:0] RO (09 R229). -/
def MED_HLTH_ERS_MEAN : Fld := ⟨253, 11, 0, 24, .ro, 0, [], false⟩
/-- MED_HLTH_ERS.MAX [47:24] RO (09 R229). -/
def MED_HLTH_ERS_MAX : Fld := ⟨254, 11, 24, 24, .ro, 0, [], false⟩
/-- MED_HLTH_STS.AVAIL [0] RO (09 R229). -/
def MED_HLTH_STS_AVAIL : Fld := ⟨255, 11, 0, 1, .ro, 0, [], false⟩
/-- MED_HLTH_STS.DENIED [1] RW1C (09 R229). -/
def MED_HLTH_STS_DENIED : Fld := ⟨256, 11, 1, 1, .rw1c, 0, [], false⟩
/-- RCH_CFG.JUMP_EN [0] RW (10 R251). -/
def RCH_CFG_JUMP_EN : Fld := ⟨257, 12, 0, 1, .rw, 1, [], false⟩
/-- RCH_CFG.SOFT_MAX [13:8] RW (10 R251). -/
def RCH_CFG_SOFT_MAX : Fld := ⟨258, 12, 8, 6, .rw, 16, [], false⟩
/-- RCH_CFG.REFRESH_STEP [19:16] RW (10 R251). -/
def RCH_CFG_REFRESH_STEP : Fld := ⟨259, 12, 16, 4, .rw, 3, [], false⟩
/-- RCH_CFG.DELTA [23:20] RW (10 R251). -/
def RCH_CFG_DELTA : Fld := ⟨260, 12, 20, 4, .rw, 4, [], false⟩
/-- RCH_PATROL_CFG.PERIOD [7:0] RW (10 R251). -/
def RCH_PATROL_CFG_PERIOD : Fld := ⟨261, 12, 0, 8, .rw, 72, [], false⟩
/-- RCH_PATROL_CFG.REFRESH_PCT [14:8] RW (10 R251). -/
def RCH_PATROL_CFG_REFRESH_PCT : Fld := ⟨262, 12, 8, 7, .rw, 70, [], false⟩
/-- RCH_PATROL_CFG.EN [15] RW (10 R251). -/
def RCH_PATROL_CFG_EN : Fld := ⟨263, 12, 15, 1, .rw, 1, [], false⟩
/-- RCH_PATROL_CFG.PROBE [23:16] RW (10 R251). -/
def RCH_PATROL_CFG_PROBE : Fld := ⟨264, 12, 16, 8, .rw, 64, [], false⟩
/-- RCH_PATROL_STS.PASS_PCT [6:0] RO (10 R251). -/
def RCH_PATROL_STS_PASS_PCT : Fld := ⟨265, 12, 0, 7, .ro, 0, [], false⟩
/-- RCH_PATROL_STS.LAST_H [23:8] RO (10 R251). -/
def RCH_PATROL_STS_LAST_H : Fld := ⟨266, 12, 8, 16, .ro, 0, [], false⟩
/-- RCH_PATROL_CNT.REFRESH [15:0] RC (10 R251). -/
def RCH_PATROL_CNT_REFRESH : Fld := ⟨267, 12, 0, 16, .rc, 0, [], false⟩
/-- RCH_PATROL_CNT.RECON [31:16] RC (10 R251). -/
def RCH_PATROL_CNT_RECON : Fld := ⟨268, 12, 16, 16, .rc, 0, [], false⟩
/-- RCH_TIER_CFG.HORIZON [15:0] RW (10 R251). -/
def RCH_TIER_CFG_HORIZON : Fld := ⟨269, 12, 0, 16, .rw, 180, [], false⟩
/-- RCH_TIER_CFG.MARGIN [22:16] RW (10 R251). -/
def RCH_TIER_CFG_MARGIN : Fld := ⟨270, 12, 16, 7, .rw, 60, [], false⟩
/-- RCH_TIER_CNT.BLOCKS [22:0] RO (10 R251). -/
def RCH_TIER_CNT_BLOCKS : Fld := ⟨271, 12, 0, 23, .ro, 0, [], false⟩
/-- RCH_TAIL_CFG.BLOCKS [6:0] RWL (10 R251). -/
def RCH_TAIL_CFG_BLOCKS : Fld := ⟨272, 12, 0, 7, .rwl, 32, [], false⟩
/-- RCH_TAIL_STS.WORST_PCT [6:0] RO (10 R251). -/
def RCH_TAIL_STS_WORST_PCT : Fld := ⟨273, 12, 0, 7, .ro, 0, [], false⟩
/-- RCH_TAIL_STS.STARVED [27:8] RC (10 R251). -/
def RCH_TAIL_STS_STARVED : Fld := ⟨274, 12, 8, 20, .rc, 0, [], false⟩
/-- RCH_LADDER_CNT.CNT [31:0] RC (10 R251). -/
def RCH_LADDER_CNT_CNT : Fld := ⟨275, 12, 0, 32, .rc, 0, [], false⟩
/-- RCH_JUMP_CNT.CNT [31:0] RC (10 R251). -/
def RCH_JUMP_CNT_CNT : Fld := ⟨276, 12, 0, 32, .rc, 0, [], false⟩
/-- RCH_DEC_AVAIL.MASK [63:0] RO (10 R251). -/
def RCH_DEC_AVAIL_MASK : Fld := ⟨277, 12, 0, 64, .ro, 18446744073709551615, [], false⟩
/-- RCH_DEC_STS.WORKING [7:0] RO (10 R251). -/
def RCH_DEC_STS_WORKING : Fld := ⟨278, 12, 0, 8, .ro, 128, [], false⟩
/-- RCH_DEC_STS.SOFT [15:8] RO (10 R251). -/
def RCH_DEC_STS_SOFT : Fld := ⟨279, 12, 8, 8, .ro, 0, [], false⟩
/-- RCH_DEC_STS.REISSUE [31:16] RC (10 R251). -/
def RCH_DEC_STS_REISSUE : Fld := ⟨280, 12, 16, 16, .rc, 0, [], false⟩
/-- RCH_SWEEP_CFG.PERIOD [7:0] RW (10 R251). -/
def RCH_SWEEP_CFG_PERIOD : Fld := ⟨281, 12, 0, 8, .rw, 24, [], false⟩
/-- RCH_SWEEP_CFG.DT [15:8] RW (10 R251). -/
def RCH_SWEEP_CFG_DT : Fld := ⟨282, 12, 8, 8, .rw, 15, [], false⟩
/-- RCH_CORR_SEL.DIE [11:0] RW (10 R251). -/
def RCH_CORR_SEL_DIE : Fld := ⟨283, 12, 0, 12, .rw, 0, [], false⟩
/-- RCH_CORR_SEL.TIER [13:12] RW (10 R251). -/
def RCH_CORR_SEL_TIER : Fld := ⟨284, 12, 12, 2, .rw, 0, [], false⟩
/-- RCH_CORR_SEL.RET [17:14] RW (10 R251). -/
def RCH_CORR_SEL_RET : Fld := ⟨285, 12, 14, 4, .rw, 0, [], false⟩
/-- RCH_CORR_SEL.RT [20:18] RW (10 R251). -/
def RCH_CORR_SEL_RT : Fld := ⟨286, 12, 18, 3, .rw, 0, [], false⟩
/-- RCH_CORR.OFFS [63:0] RO (10 R251). -/
def RCH_CORR_OFFS : Fld := ⟨287, 12, 0, 64, .ro, 0, [], false⟩
/-- RCH_CORR_TIME.TIME [63:0] RO (10 R251). -/
def RCH_CORR_TIME_TIME : Fld := ⟨288, 12, 0, 64, .ro, 0, [], false⟩
/-- MCACHE_CTL.EN [0] RW (11 R277). -/
def MCACHE_CTL_EN : Fld := ⟨289, 14, 0, 1, .rw, 0, [], false⟩
/-- MCACHE_CTL.INV_ALL [1] WO (11 R277). -/
def MCACHE_CTL_INV_ALL : Fld := ⟨290, 14, 1, 1, .wo, 0, [], false⟩
/-- MCACHE_CFG.SIZE_LOG2 [2:0] RWL (11 R277). -/
def MCACHE_CFG_SIZE_LOG2 : Fld := ⟨291, 14, 0, 3, .rwl, 6, [], false⟩
/-- MCACHE_CFG.WB_PCT [14:8] RW (11 R277). -/
def MCACHE_CFG_WB_PCT : Fld := ⟨292, 14, 8, 7, .rw, 25, [], false⟩
/-- MCACHE_STS.STATE [1:0] RO (11 R277). -/
def MCACHE_STS_STATE : Fld := ⟨293, 14, 0, 2, .ro, 0, [], false⟩
/-- MCACHE_STS.STALE [2] RO (11 R277). -/
def MCACHE_STS_STALE : Fld := ⟨294, 14, 2, 1, .ro, 0, [], false⟩
/-- MCACHE_STS.INV_BUSY [3] RO (11 R277). -/
def MCACHE_STS_INV_BUSY : Fld := ⟨295, 14, 3, 1, .ro, 0, [], false⟩
/-- MCACHE_STS.ERR [4] RW1C (11 R277). -/
def MCACHE_STS_ERR : Fld := ⟨296, 14, 4, 1, .rw1c, 0, [], false⟩
/-- MCACHE_DIRTY.LINES [23:0] RO (11 R277). -/
def MCACHE_DIRTY_LINES : Fld := ⟨297, 14, 0, 24, .ro, 0, [], false⟩
/-- MCACHE_INV_NS.VALUE [31:0] RW (11 R277). -/
def MCACHE_INV_NS_VALUE : Fld := ⟨298, 14, 0, 32, .rw, 0, [], false⟩
/-- MCACHE_INV_PG.VALUE [31:0] RW (11 R277). -/
def MCACHE_INV_PG_VALUE : Fld := ⟨299, 14, 0, 32, .rw, 0, [], false⟩
/-- MCACHE_INV_CNT.COUNT [22:0] RW (11 R277). -/
def MCACHE_INV_CNT_COUNT : Fld := ⟨300, 14, 0, 23, .rw, 0, [], false⟩
/-- MCACHE_INV_CNT.GO [31] WO (11 R277). -/
def MCACHE_INV_CNT_GO : Fld := ⟨301, 14, 31, 1, .wo, 0, [], false⟩
/-- MCACHE_HIT.CNT [31:0] RC (11 R277). -/
def MCACHE_HIT_CNT : Fld := ⟨302, 14, 0, 32, .rc, 0, [], false⟩
/-- MCACHE_MISS.CNT [31:0] RC (11 R277). -/
def MCACHE_MISS_CNT : Fld := ⟨303, 14, 0, 32, .rc, 0, [], false⟩
/-- MCACHE_POISON.CNT [31:0] RC (11 R277). -/
def MCACHE_POISON_CNT : Fld := ⟨304, 14, 0, 32, .rc, 0, [], false⟩
/-- MCACHE_ERR.TAGPAR [7:0] RC (11 R277). -/
def MCACHE_ERR_TAGPAR : Fld := ⟨305, 14, 0, 8, .rc, 0, [], false⟩
/-- MCACHE_ERR.DATA_UE [15:8] RC (11 R277). -/
def MCACHE_ERR_DATA_UE : Fld := ⟨306, 14, 8, 8, .rc, 0, [], false⟩
/-- MCACHE_ERR.DATA_CE [31:16] RC (11 R277). -/
def MCACHE_ERR_DATA_CE : Fld := ⟨307, 14, 16, 16, .rc, 0, [], false⟩
/-- FTL_JNL_CFG.COMMIT_US [11:0] RW (11 R277). -/
def FTL_JNL_CFG_COMMIT_US : Fld := ⟨308, 14, 0, 12, .rw, 100, [], false⟩
/-- FTL_JNL_CFG.CKPT_MIB [23:12] RW (11 R277). -/
def FTL_JNL_CFG_CKPT_MIB : Fld := ⟨309, 14, 12, 12, .rw, 1024, [], false⟩
/-- FTL_JNL_CFG.CKPT_S [31:24] RW (11 R277). -/
def FTL_JNL_CFG_CKPT_S : Fld := ⟨310, 14, 24, 8, .rw, 60, [], false⟩
/-- FTL_JNL_SEQ.SEQ [63:0] RO (11 R277). -/
def FTL_JNL_SEQ_SEQ : Fld := ⟨311, 14, 0, 64, .ro, 0, [], false⟩
/-- FTL_JNL_STS.TAIL_KIB [13:0] RO (11 R277). -/
def FTL_JNL_STS_TAIL_KIB : Fld := ⟨312, 14, 0, 14, .ro, 0, [], false⟩
/-- FTL_JNL_STS.SINCE_MIB [31:16] RO (11 R277). -/
def FTL_JNL_STS_SINCE_MIB : Fld := ⟨313, 14, 16, 16, .ro, 0, [], false⟩
/-- FTL_JNL_STS.MAX_US [47:32] RC (11 R277). -/
def FTL_JNL_STS_MAX_US : Fld := ⟨314, 14, 32, 16, .rc, 0, [], false⟩
/-- FTL_GC_CFG.LOW [7:0] RW (11 R277). -/
def FTL_GC_CFG_LOW : Fld := ⟨315, 14, 0, 8, .rw, 30, [], false⟩
/-- FTL_GC_CFG.CRIT [15:8] RW (11 R277). -/
def FTL_GC_CFG_CRIT : Fld := ⟨316, 14, 8, 8, .rw, 10, [], false⟩
/-- FTL_GC_CFG.GC_START [23:16] RW (11 R277). -/
def FTL_GC_CFG_GC_START : Fld := ⟨317, 14, 16, 8, .rw, 100, [], false⟩
/-- FTL_GC_CFG.ERASE_AHEAD [27:24] RW (11 R277). -/
def FTL_GC_CFG_ERASE_AHEAD : Fld := ⟨318, 14, 24, 4, .rw, 4, [], false⟩
/-- FTL_STS.CFG_ERR [0] RW1C (11 R277). -/
def FTL_STS_CFG_ERR : Fld := ⟨319, 14, 0, 1, .rw1c, 0, [], false⟩
/-- FTL_STS.CRIT_ANY [1] RO (11 R277). -/
def FTL_STS_CRIT_ANY : Fld := ⟨320, 14, 1, 1, .ro, 0, [], false⟩
/-- FTL_GRP_FREE.FREE [9:0] RO (11 R277). -/
def FTL_GRP_FREE_FREE : Fld := ⟨321, 14, 0, 10, .ro, 0, [], false⟩
/-- FTL_GRP_FREE.ADMIT [16:10] RO (11 R277). -/
def FTL_GRP_FREE_ADMIT : Fld := ⟨322, 14, 10, 7, .ro, 100, [], false⟩
/-- FTL_GRP_FREE.LOW [17] RO (11 R277). -/
def FTL_GRP_FREE_LOW : Fld := ⟨323, 14, 17, 1, .ro, 0, [], false⟩
/-- FTL_GRP_FREE.CRIT [18] RO (11 R277). -/
def FTL_GRP_FREE_CRIT : Fld := ⟨324, 14, 18, 1, .ro, 0, [], false⟩
/-- FTL_GRP_FREE.ERASED [47:24] RO (11 R277). -/
def FTL_GRP_FREE_ERASED : Fld := ⟨325, 14, 24, 24, .ro, 0, [], false⟩
/-- FTL_RELOC_CNT.CNT [31:0] RC (11 R277). -/
def FTL_RELOC_CNT_CNT : Fld := ⟨326, 14, 0, 32, .rc, 0, [], false⟩
/-- FTL_CONV.ROWS [17:0] RO (11 R277). -/
def FTL_CONV_ROWS : Fld := ⟨327, 14, 0, 18, .ro, 0, [], false⟩
/-- FTL_CONV.UNITS [63:24] RO (11 R277). -/
def FTL_CONV_UNITS : Fld := ⟨328, 14, 24, 40, .ro, 0, [], false⟩
/-- CIP_CFG.RNG_STRICT [0] RWL (12 R294). -/
def CIP_CFG_RNG_STRICT : Fld := ⟨329, 16, 0, 1, .rwl, 1, [], false⟩
/-- CIP_STS.ROOT_OK [0] RO (12 R294). -/
def CIP_STS_ROOT_OK : Fld := ⟨330, 16, 0, 1, .ro, 0, [], false⟩
/-- CIP_STS.RNG_FAIL [1] RO (12 R294). -/
def CIP_STS_RNG_FAIL : Fld := ⟨331, 16, 1, 1, .ro, 0, [], false⟩
/-- CIP_STS.SLOTS_USED [14:2] RO (12 R294). -/
def CIP_STS_SLOTS_USED : Fld := ⟨332, 16, 2, 13, .ro, 0, [], false⟩
/-- CIP_UNIT_AVAIL.MASK [63:0] RO (12 R294). -/
def CIP_UNIT_AVAIL_MASK : Fld := ⟨333, 16, 0, 64, .ro, 18446744073709551615, [], false⟩
/-- CIP_FLT_INFO.VALID [0] RW1C (12 R294). -/
def CIP_FLT_INFO_VALID : Fld := ⟨334, 16, 0, 1, .rw1c, 0, [], false⟩
/-- CIP_FLT_INFO.KIND [1] RO (12 R294). -/
def CIP_FLT_INFO_KIND : Fld := ⟨335, 16, 1, 1, .ro, 0, [], false⟩
/-- CIP_FLT_INFO.SLOT_A [13:2] RO (12 R294). -/
def CIP_FLT_INFO_SLOT_A : Fld := ⟨336, 16, 2, 12, .ro, 0, [], false⟩
/-- CIP_FLT_INFO.SLOT_B [25:14] RO (12 R294). -/
def CIP_FLT_INFO_SLOT_B : Fld := ⟨337, 16, 14, 12, .ro, 0, [], false⟩
/-- CIP_FLT_CNT.CNT [31:0] RC (12 R294). -/
def CIP_FLT_CNT_CNT : Fld := ⟨338, 16, 0, 32, .rc, 0, [], false⟩
/-- CIP_DENY_CNT.CNT [31:0] RC (12 R294). -/
def CIP_DENY_CNT_CNT : Fld := ⟨339, 16, 0, 32, .rc, 0, [], false⟩
/-- CIP_SLOT_SEL.SLOT [11:0] RW (12 R294). -/
def CIP_SLOT_SEL_SLOT : Fld := ⟨340, 16, 0, 12, .rw, 0, [], false⟩
/-- CIP_SLOT_INFO.STATE [1:0] RO (12 R294). -/
def CIP_SLOT_INFO_STATE : Fld := ⟨341, 16, 0, 2, .ro, 0, [], false⟩
/-- CIP_SLOT_INFO.PURPOSE [9:2] RO (12 R294). -/
def CIP_SLOT_INFO_PURPOSE : Fld := ⟨342, 16, 2, 8, .ro, 0, [], false⟩
/-- CIP_SLOT_INFO.SLICE [19:10] RO (12 R294). -/
def CIP_SLOT_INFO_SLICE : Fld := ⟨343, 16, 10, 10, .ro, 0, [], false⟩
/-- CIP_SLOT_INFO.NSID [63:32] RO (12 R294). -/
def CIP_SLOT_INFO_NSID : Fld := ⟨344, 16, 32, 32, .ro, 0, [], false⟩
/-- CIP_SLOT_GEN.GEN [31:0] RO (12 R294). -/
def CIP_SLOT_GEN_GEN : Fld := ⟨345, 16, 0, 32, .ro, 0, [], false⟩
/-- CIP_SLOT_GEN.HOLD [47:32] RO (12 R294). -/
def CIP_SLOT_GEN_HOLD : Fld := ⟨346, 16, 32, 16, .ro, 0, [], false⟩
/-- ETH_PORT_CFG.MODE [1:0] RWL (13 R310). -/
def ETH_PORT_CFG_MODE : Fld := ⟨347, 8, 0, 2, .rwl, 0, [], false⟩
/-- ETH_PORT_CFG.PMD [2] RWL (13 R310). -/
def ETH_PORT_CFG_PMD : Fld := ⟨348, 8, 2, 1, .rwl, 0, [], false⟩
/-- ETH_LINK_CFG.UP_HOLD [9:0] RW (13 R310). -/
def ETH_LINK_CFG_UP_HOLD : Fld := ⟨349, 8, 0, 10, .rw, 100, [], false⟩
/-- ETH_LINK_CFG.FLAP_MAX [15:10] RW (13 R310). -/
def ETH_LINK_CFG_FLAP_MAX : Fld := ⟨350, 8, 10, 6, .rw, 6, [], false⟩
/-- ETH_LINK_CFG.FLAP_HOLD [27:16] RW (13 R310). -/
def ETH_LINK_CFG_FLAP_HOLD : Fld := ⟨351, 8, 16, 12, .rw, 5, [], false⟩
/-- ETH_PFC_CFG.EN [7:0] RW (13 R310). -/
def ETH_PFC_CFG_EN : Fld := ⟨352, 8, 0, 8, .rw, 8, [], false⟩
/-- ETH_PFC_CFG.REFRESH [15:8] RW (13 R310). -/
def ETH_PFC_CFG_REFRESH : Fld := ⟨353, 8, 8, 8, .rw, 10, [], false⟩
/-- ETH_DSCP_MAP.PRIO [63:0] RW (13 R310). -/
def ETH_DSCP_MAP_PRIO : Fld := ⟨354, 8, 0, 64, .rw, 0, [], false⟩
/-- ETH_CC_CFG.CNP_GAP [7:0] RW (13 R310). -/
def ETH_CC_CFG_CNP_GAP : Fld := ⟨355, 8, 0, 8, .rw, 50, [], false⟩
/-- ETH_CC_CFG.CNP_PRIO [10:8] RW (13 R310). -/
def ETH_CC_CFG_CNP_PRIO : Fld := ⟨356, 8, 8, 3, .rw, 6, [], false⟩
/-- ETH_CC_CFG.T_ALPHA [23:16] RW (13 R310). -/
def ETH_CC_CFG_T_ALPHA : Fld := ⟨357, 8, 16, 8, .rw, 55, [], false⟩
/-- ETH_CC_CFG.T_INC [31:24] RW (13 R310). -/
def ETH_CC_CFG_T_INC : Fld := ⟨358, 8, 24, 8, .rw, 100, [], false⟩
/-- ETH_CC_CFG.B_INC [39:32] RW (13 R310). -/
def ETH_CC_CFG_B_INC : Fld := ⟨359, 8, 32, 8, .rw, 10, [], false⟩
/-- ETH_CC_CFG.R_AI [47:40] RW (13 R310). -/
def ETH_CC_CFG_R_AI : Fld := ⟨360, 8, 40, 8, .rw, 5, [], false⟩
/-- ETH_CC_CFG.MIN_RATE [55:48] RW (13 R310). -/
def ETH_CC_CFG_MIN_RATE : Fld := ⟨361, 8, 48, 8, .rw, 1, [], false⟩
/-- ETH_QP_CFG.ACK_TMO [4:0] RW (13 R310). -/
def ETH_QP_CFG_ACK_TMO : Fld := ⟨362, 8, 0, 5, .rw, 12, [], false⟩
/-- ETH_QP_CFG.RETRY [7:5] RW (13 R310). -/
def ETH_QP_CFG_RETRY : Fld := ⟨363, 8, 5, 3, .rw, 7, [], false⟩
/-- ETH_QP_CFG.RNR_RETRY [10:8] RW (13 R310). -/
def ETH_QP_CFG_RNR_RETRY : Fld := ⟨364, 8, 8, 3, .rw, 7, [], false⟩
/-- ETH_WAKE_CFG.MODE [1:0] RW (13 R310). -/
def ETH_WAKE_CFG_MODE : Fld := ⟨365, 8, 0, 2, .rw, 1, [], false⟩
/-- ETH_WAKE_ID.ID [63:0] RW (13 R310). -/
def ETH_WAKE_ID_ID : Fld := ⟨366, 8, 0, 64, .rw, 0, [], false⟩
/-- ETH_IP_CTL.VALID [0] RW (13 R310). -/
def ETH_IP_CTL_VALID : Fld := ⟨367, 8, 0, 1, .rw, 0, [], false⟩
/-- ETH_IP_CTL.V6 [1] RW (13 R310). -/
def ETH_IP_CTL_V6 : Fld := ⟨368, 8, 1, 1, .rw, 0, [], false⟩
/-- ETH_IP_CTL.SUB [4:2] RW (13 R310). -/
def ETH_IP_CTL_SUB : Fld := ⟨369, 8, 2, 3, .rw, 0, [], false⟩
/-- ETH_IP_CTL.PREFIX [15:8] RW (13 R310). -/
def ETH_IP_CTL_PREFIX : Fld := ⟨370, 8, 8, 8, .rw, 0, [], false⟩
/-- ETH_IP_CTL.VLAN [27:16] RW (13 R310). -/
def ETH_IP_CTL_VLAN : Fld := ⟨371, 8, 16, 12, .rw, 0, [], false⟩
/-- ETH_IP_ADDR_LO.ADDR [63:0] RW (13 R310). -/
def ETH_IP_ADDR_LO_ADDR : Fld := ⟨372, 8, 0, 64, .rw, 0, [], false⟩
/-- ETH_IP_ADDR_HI.ADDR [63:0] RW (13 R310). -/
def ETH_IP_ADDR_HI_ADDR : Fld := ⟨373, 8, 0, 64, .rw, 0, [], false⟩
/-- ETH_SUB_STS.LINK [2:0] RO (13 R310). -/
def ETH_SUB_STS_LINK : Fld := ⟨374, 8, 0, 3, .ro, 0, [], false⟩
/-- ETH_SUB_STS.FEC_LOCK [3] RO (13 R310). -/
def ETH_SUB_STS_FEC_LOCK : Fld := ⟨375, 8, 3, 1, .ro, 0, [], false⟩
/-- ETH_SUB_STS.XOFF [4] RO (13 R310). -/
def ETH_SUB_STS_XOFF : Fld := ⟨376, 8, 4, 1, .ro, 0, [], false⟩
/-- ETH_MAC.ADDR [47:0] RO (13 R310). -/
def ETH_MAC_ADDR : Fld := ⟨377, 8, 0, 48, .ro, 0, [], true⟩
/-- ETH_RX_OVF.CNT [31:0] RC (13 R310). -/
def ETH_RX_OVF_CNT : Fld := ⟨378, 8, 0, 32, .rc, 0, [], false⟩
/-- ETH_FEC_CORR.CNT [31:0] RC (13 R310). -/
def ETH_FEC_CORR_CNT : Fld := ⟨379, 8, 0, 32, .rc, 0, [], false⟩
/-- ETH_FEC_UNCORR.CNT [31:0] RC (13 R310). -/
def ETH_FEC_UNCORR_CNT : Fld := ⟨380, 8, 0, 32, .rc, 0, [], false⟩
/-- ETH_FLAP_CNT.CNT [31:0] RC (13 R310). -/
def ETH_FLAP_CNT_CNT : Fld := ⟨381, 8, 0, 32, .rc, 0, [], false⟩
/-- ETH_CNP_TX.CNT [31:0] RC (13 R310). -/
def ETH_CNP_TX_CNT : Fld := ⟨382, 8, 0, 32, .rc, 0, [], false⟩
/-- ETH_CNP_RX.CNT [31:0] RC (13 R310). -/
def ETH_CNP_RX_CNT : Fld := ⟨383, 8, 0, 32, .rc, 0, [], false⟩
/-- ETH_RX_DROP_RATE.CNT [31:0] RC (13 R310). -/
def ETH_RX_DROP_RATE_CNT : Fld := ⟨384, 8, 0, 32, .rc, 0, [], false⟩
/-- ETH_RX_DROP_FRAG.CNT [31:0] RC (13 R310). -/
def ETH_RX_DROP_FRAG_CNT : Fld := ⟨385, 8, 0, 32, .rc, 0, [], false⟩
/-- ETH_RX_DROP_CSUM.CNT [31:0] RC (13 R310). -/
def ETH_RX_DROP_CSUM_CNT : Fld := ⟨386, 8, 0, 32, .rc, 0, [], false⟩
/-- ETH_RX_DROP_OTHER.CNT [31:0] RC (13 R310). -/
def ETH_RX_DROP_OTHER_CNT : Fld := ⟨387, 8, 0, 32, .rc, 0, [], false⟩
/-- ETH_RX_DROP_ADDR.CNT [31:0] RC (13 R310). -/
def ETH_RX_DROP_ADDR_CNT : Fld := ⟨388, 8, 0, 32, .rc, 0, [], false⟩
/-- ETH_RX_DROP_HELD.CNT [31:0] RC (13 R310). -/
def ETH_RX_DROP_HELD_CNT : Fld := ⟨389, 8, 0, 32, .rc, 0, [], false⟩
/-- PCX_CFG.BIFUR [0] RWL (14 R328). -/
def PCX_CFG_BIFUR : Fld := ⟨390, 9, 0, 1, .rwl, 0, [], false⟩
/-- PCX_CFG.CXL_EN [1] RWL (14 R328). -/
def PCX_CFG_CXL_EN : Fld := ⟨391, 9, 1, 1, .rwl, 0, [], false⟩
/-- PCX_CFG.VF_SPLIT [15:8] RWL (14 R328). -/
def PCX_CFG_VF_SPLIT : Fld := ⟨392, 9, 8, 8, .rwl, 127, [], false⟩
/-- PCX_LINK_STS.UP [0] RO (14 R328). -/
def PCX_LINK_STS_UP : Fld := ⟨393, 9, 0, 1, .ro, 0, [], false⟩
/-- PCX_LINK_STS.SPEED [3:1] RO (14 R328). -/
def PCX_LINK_STS_SPEED : Fld := ⟨394, 9, 1, 3, .ro, 0, [], false⟩
/-- PCX_LINK_STS.WIDTH [8:4] RO (14 R328). -/
def PCX_LINK_STS_WIDTH : Fld := ⟨395, 9, 4, 5, .ro, 0, [], false⟩
/-- PCX_LINK_STS.FLIT [9] RO (14 R328). -/
def PCX_LINK_STS_FLIT : Fld := ⟨396, 9, 9, 1, .ro, 0, [], false⟩
/-- PCX_LINK_STS.L0P_W [14:10] RO (14 R328). -/
def PCX_LINK_STS_L0P_W : Fld := ⟨397, 9, 10, 5, .ro, 0, [], false⟩
/-- PCX_LINK_STS.DOWN_CNT [31:16] RC (14 R328). -/
def PCX_LINK_STS_DOWN_CNT : Fld := ⟨398, 9, 16, 16, .rc, 0, [], false⟩
/-- PCX_SRIOV_CFG.VF_VEC [11:0] RW (14 R328). -/
def PCX_SRIOV_CFG_VF_VEC : Fld := ⟨399, 9, 0, 12, .rw, 2048, [], false⟩
/-- PCX_SRIOV_STS.VF_S [11:0] RO (14 R328). -/
def PCX_SRIOV_STS_VF_S : Fld := ⟨400, 9, 0, 12, .ro, 0, [], false⟩
/-- PCX_SRIOV_STS.VEC_SHORT [12] RW1C (14 R328). -/
def PCX_SRIOV_STS_VEC_SHORT : Fld := ⟨401, 9, 12, 1, .rw1c, 0, [], false⟩
/-- PCX_SRIOV_STS.NUMVFS [23:16] RO (14 R328). -/
def PCX_SRIOV_STS_NUMVFS : Fld := ⟨402, 9, 16, 8, .ro, 0, [], false⟩
/-- PCX_VEC_USE.USED [15:0] RO (14 R328). -/
def PCX_VEC_USE_USED : Fld := ⟨403, 9, 0, 16, .ro, 2048, [], false⟩
/-- PCX_CXL_CFG.SIZE [7:0] RWL (14 R328). -/
def PCX_CXL_CFG_SIZE : Fld := ⟨404, 9, 0, 8, .rwl, 0, [], false⟩
/-- PCX_CXL_CFG.PERSIST [11:8] RWL (14 R328). -/
def PCX_CXL_CFG_PERSIST : Fld := ⟨405, 9, 8, 4, .rwl, 0, [], false⟩
/-- PCX_CXL_STS.ACTIVE [0] RO (14 R328). -/
def PCX_CXL_STS_ACTIVE : Fld := ⟨406, 9, 0, 1, .ro, 0, [], false⟩
/-- PCX_CXL_STS.HDM [1] RO (14 R328). -/
def PCX_CXL_STS_HDM : Fld := ⟨407, 9, 1, 1, .ro, 0, [], false⟩
/-- PCX_CXL_STS.GPF [2] RO (14 R328). -/
def PCX_CXL_STS_GPF : Fld := ⟨408, 9, 2, 1, .ro, 0, [], false⟩
/-- PCX_CXL_STS.DIRTY_MIB [31:16] RO (14 R328). -/
def PCX_CXL_STS_DIRTY_MIB : Fld := ⟨409, 9, 16, 16, .ro, 0, [], false⟩
/-- PCX_RST_CNT.PERST [7:0] RWS (14 R328). -/
def PCX_RST_CNT_PERST : Fld := ⟨410, 9, 0, 8, .rws, 0, [], false⟩
/-- PCX_RST_CNT.FLR [31:8] RWS (14 R328). -/
def PCX_RST_CNT_FLR : Fld := ⟨411, 9, 8, 24, .rws, 0, [], false⟩
/-- PCX_AER_CNT.COR [15:0] RC (14 R328). -/
def PCX_AER_CNT_COR : Fld := ⟨412, 9, 0, 16, .rc, 0, [], false⟩
/-- PCX_AER_CNT.UNCOR [23:16] RC (14 R328). -/
def PCX_AER_CNT_UNCOR : Fld := ⟨413, 9, 16, 8, .rc, 0, [], false⟩
/-- PCX_AER_CNT.POISON_RX [31:24] RC (14 R328). -/
def PCX_AER_CNT_POISON_RX : Fld := ⟨414, 9, 24, 8, .rc, 0, [], false⟩
/-- PCX_FN_SEL.FN [7:0] RW (14 R328). -/
def PCX_FN_SEL_FN : Fld := ⟨415, 9, 0, 8, .rw, 0, [], false⟩
/-- PCX_FN_INFO.PRESENT [0] RO (14 R328). -/
def PCX_FN_INFO_PRESENT : Fld := ⟨416, 9, 0, 1, .ro, 0, [], false⟩
/-- PCX_FN_INFO.BME [1] RO (14 R328). -/
def PCX_FN_INFO_BME : Fld := ⟨417, 9, 1, 1, .ro, 0, [], false⟩
/-- PCX_FN_INFO.PASID_EN [2] RO (14 R328). -/
def PCX_FN_INFO_PASID_EN : Fld := ⟨418, 9, 2, 1, .ro, 0, [], false⟩
/-- PCX_FN_INFO.RDY [3] RO (14 R328). -/
def PCX_FN_INFO_RDY : Fld := ⟨419, 9, 3, 1, .ro, 0, [], false⟩
/-- PCX_FN_INFO.FLR [4] RO (14 R328). -/
def PCX_FN_INFO_FLR : Fld := ⟨420, 9, 4, 1, .ro, 0, [], false⟩
/-- PCX_FN_INFO.VEC [19:8] RO (14 R328). -/
def PCX_FN_INFO_VEC : Fld := ⟨421, 9, 8, 12, .ro, 0, [], false⟩
/-- PCX_FN_INFO.QUEUES [31:20] RO (14 R328). -/
def PCX_FN_INFO_QUEUES : Fld := ⟨422, 9, 20, 12, .ro, 0, [], false⟩
/-- PCX_FN_INFO.BINDS [39:32] RO (14 R328). -/
def PCX_FN_INFO_BINDS : Fld := ⟨423, 9, 32, 8, .ro, 0, [], false⟩
/-- DRC_CFG.MTS [13:0] RO (15 R346). -/
def DRC_CFG_MTS : Fld := ⟨424, 17, 0, 14, .ro, 0, [], false⟩
/-- DRC_CFG.RDIMM [14] RO (15 R346). -/
def DRC_CFG_RDIMM : Fld := ⟨425, 17, 14, 1, .ro, 0, [], false⟩
/-- DRC_CFG.X8 [15] RO (15 R346). -/
def DRC_CFG_X8 : Fld := ⟨426, 17, 15, 1, .ro, 0, [], false⟩
/-- DRC_CFG.DUAL [16] RO (15 R346). -/
def DRC_CFG_DUAL : Fld := ⟨427, 17, 16, 1, .ro, 0, [], false⟩
/-- DRC_CFG.D32G [17] RO (15 R346). -/
def DRC_CFG_D32G : Fld := ⟨428, 17, 17, 1, .ro, 0, [], false⟩
/-- DRC_CFG.CAP_GIB [27:18] RO (15 R346). -/
def DRC_CFG_CAP_GIB : Fld := ⟨429, 17, 18, 10, .ro, 0, [], false⟩
/-- DRC_CH_STS.STATE [1:0] RO (15 R346). -/
def DRC_CH_STS_STATE : Fld := ⟨430, 17, 0, 2, .ro, 0, [], false⟩
/-- DRC_CH_STS.SREF [2] RO (15 R346). -/
def DRC_CH_STS_SREF : Fld := ⟨431, 17, 2, 1, .ro, 0, [], false⟩
/-- DRC_CH_STS.DOUBLE [3] RO (15 R346). -/
def DRC_CH_STS_DOUBLE : Fld := ⟨432, 17, 3, 1, .ro, 0, [], false⟩
/-- DRC_CH_STS.MR4_MAX [6:4] RO (15 R346). -/
def DRC_CH_STS_MR4_MAX : Fld := ⟨433, 17, 4, 3, .ro, 0, [], false⟩
/-- DRC_BANK_HASH.MASK [39:0] RWL (15 R346). -/
def DRC_BANK_HASH_MASK : Fld := ⟨434, 17, 0, 40, .rwl, 0, [8388672, 1090519168, 2181038336, 4362076672, 8724153344, 17448306688, 34896613376, 68727873536, 137455747072, 35651584], false⟩
/-- DRC_PORT_TGT.TGT_NS [23:0] RW (15 R346). -/
def DRC_PORT_TGT_TGT_NS : Fld := ⟨435, 17, 0, 24, .rw, 0, [1000, 4000, 250, 2000, 1000000], false⟩
/-- DRC_SCHED_CFG.WR_HI [7:0] RW (15 R346). -/
def DRC_SCHED_CFG_WR_HI : Fld := ⟨436, 17, 0, 8, .rw, 96, [], false⟩
/-- DRC_SCHED_CFG.WR_LO [15:8] RW (15 R346). -/
def DRC_SCHED_CFG_WR_LO : Fld := ⟨437, 17, 8, 8, .rw, 32, [], false⟩
/-- DRC_SCHED_CFG.STREAK [20:16] RW (15 R346). -/
def DRC_SCHED_CFG_STREAK : Fld := ⟨438, 17, 16, 5, .rw, 16, [], false⟩
/-- DRC_REF_CFG.MODE [0] RW (15 R346). -/
def DRC_REF_CFG_MODE : Fld := ⟨439, 17, 0, 1, .rw, 0, [], false⟩
/-- DRC_REF_CFG.ACT_TH [11:1] RW (15 R346). -/
def DRC_REF_CFG_ACT_TH : Fld := ⟨440, 17, 1, 11, .rw, 1024, [], false⟩
/-- DRC_REF_CFG.POLL [19:12] RW (15 R346). -/
def DRC_REF_CFG_POLL : Fld := ⟨441, 17, 12, 8, .rw, 16, [], false⟩
/-- DRC_SCRUB_CFG.EN [0] RW (15 R346). -/
def DRC_SCRUB_CFG_EN : Fld := ⟨442, 17, 0, 1, .rw, 1, [], false⟩
/-- DRC_SCRUB_CFG.PERIOD [15:8] RW (15 R346). -/
def DRC_SCRUB_CFG_PERIOD : Fld := ⟨443, 17, 8, 8, .rw, 24, [], false⟩
/-- DRC_SCRUB_CFG.PASS_PCT [22:16] RO (15 R346). -/
def DRC_SCRUB_CFG_PASS_PCT : Fld := ⟨444, 17, 16, 7, .ro, 0, [], false⟩
/-- DRC_ECC_CNT.CE [23:0] RC (15 R346). -/
def DRC_ECC_CNT_CE : Fld := ⟨445, 17, 0, 24, .rc, 0, [], false⟩
/-- DRC_ECC_CNT.UE [31:24] RC (15 R346). -/
def DRC_ECC_CNT_UE : Fld := ⟨446, 17, 24, 8, .rc, 0, [], false⟩
/-- DRC_ECC_LOG.VALID [0] RW1C (15 R346). -/
def DRC_ECC_LOG_VALID : Fld := ⟨447, 17, 0, 1, .rw1c, 0, [], false⟩
/-- DRC_ECC_LOG.UE [1] RO (15 R346). -/
def DRC_ECC_LOG_UE : Fld := ⟨448, 17, 1, 1, .ro, 0, [], false⟩
/-- DRC_ECC_LOG.DEV [2] RO (15 R346). -/
def DRC_ECC_LOG_DEV : Fld := ⟨449, 17, 2, 1, .ro, 0, [], false⟩
/-- DRC_ECC_LOG.POISON [3] RO (15 R346). -/
def DRC_ECC_LOG_POISON : Fld := ⟨450, 17, 3, 1, .ro, 0, [], false⟩
/-- DRC_ECC_LOG.SYM [11:4] RO (15 R346). -/
def DRC_ECC_LOG_SYM : Fld := ⟨451, 17, 4, 8, .ro, 0, [], false⟩
/-- DRC_ECC_ADDR.BURST [38:6] RO (15 R346). -/
def DRC_ECC_ADDR_BURST : Fld := ⟨452, 17, 6, 33, .ro, 0, [], false⟩
/-- DRC_RFM_CNT.TABLE [15:0] RC (15 R346). -/
def DRC_RFM_CNT_TABLE : Fld := ⟨453, 17, 0, 16, .rc, 0, [], false⟩
/-- DRC_RFM_CNT.RAA [31:16] RC (15 R346). -/
def DRC_RFM_CNT_RAA : Fld := ⟨454, 17, 16, 16, .rc, 0, [], false⟩
/-- DRC_FILL.PCT [6:0] RO (15 R346). -/
def DRC_FILL_PCT : Fld := ⟨455, 17, 0, 7, .ro, 0, [], false⟩
/-- DRC_FILL.DONE [7] RO (15 R346). -/
def DRC_FILL_DONE : Fld := ⟨456, 17, 7, 1, .ro, 0, [], false⟩
/-- PUP_STS.ACTIVE [0] RO (16 R369). -/
def PUP_STS_ACTIVE : Fld := ⟨457, 7, 0, 1, .ro, 0, [], false⟩
/-- PUP_STS.SPARE [2:1] RO (16 R369). -/
def PUP_STS_SPARE : Fld := ⟨458, 7, 1, 2, .ro, 0, [], false⟩
/-- PUP_STS.BANK [3] RO (16 R369). -/
def PUP_STS_BANK : Fld := ⟨459, 7, 3, 1, .ro, 0, [], false⟩
/-- PUP_STS.SWAP [6:4] RO (16 R369). -/
def PUP_STS_SWAP : Fld := ⟨460, 7, 4, 3, .ro, 0, [], false⟩
/-- PUP_STS.MASKED [7] RO (16 R369). -/
def PUP_STS_MASKED : Fld := ⟨461, 7, 7, 1, .ro, 0, [], false⟩
/-- PUP_FAIL.COUNT [15:0] RO (16 R369). -/
def PUP_FAIL_COUNT : Fld := ⟨462, 7, 0, 16, .ro, 0, [], false⟩
/-- PUP_FAIL.RSN [19:16] RO (16 R369). -/
def PUP_FAIL_RSN : Fld := ⟨463, 7, 16, 4, .ro, 0, [], false⟩
/-- PUP_FAIL_TIME.TIME [63:0] RO (16 R369). -/
def PUP_FAIL_TIME_TIME : Fld := ⟨464, 7, 0, 64, .ro, 0, [], false⟩
/-- PUP_SWAP.ERR [2:0] RW1C (16 R369). -/
def PUP_SWAP_ERR : Fld := ⟨465, 7, 0, 3, .rw1c, 0, [], false⟩
/-- PUP_SWAP.DUR [47:32] RO (16 R369). -/
def PUP_SWAP_DUR : Fld := ⟨466, 7, 32, 16, .ro, 0, [], false⟩
/-- PUP_WDT.PERIOD [7:0] RWL (16 R369). -/
def PUP_WDT_PERIOD : Fld := ⟨467, 7, 0, 8, .rwl, 10, [], false⟩
/-- PUP_WDT.COMMIT_MS [23:8] RWL (16 R369). -/
def PUP_WDT_COMMIT_MS : Fld := ⟨468, 7, 8, 16, .rwl, 100, [], false⟩
/-- PUP_TMR_CMP.CMP [63:0] RO (16 R369). -/
def PUP_TMR_CMP_CMP : Fld := ⟨469, 7, 0, 64, .ro, 0, [], false⟩
/-- PUP_TMR_CTL.EN [0] RO (16 R369). -/
def PUP_TMR_CTL_EN : Fld := ⟨470, 7, 0, 1, .ro, 0, [], false⟩
/-- PUP_TMR_CTL.PERIODIC [1] RO (16 R369). -/
def PUP_TMR_CTL_PERIODIC : Fld := ⟨471, 7, 1, 1, .ro, 0, [], false⟩
/-- PUP_TMR_CTL.PERIOD [63:32] RO (16 R369). -/
def PUP_TMR_CTL_PERIOD : Fld := ⟨472, 7, 32, 32, .ro, 0, [], false⟩
/-- PUP_MBX_STS.PENDING [8:0] RO (16 R369). -/
def PUP_MBX_STS_PENDING : Fld := ⟨473, 7, 0, 9, .ro, 0, [], false⟩
/-- PUP_MBX_STS.INSVC [17:9] RO (16 R369). -/
def PUP_MBX_STS_INSVC : Fld := ⟨474, 7, 9, 9, .ro, 0, [], false⟩
/-- PUP_MBX_STS.SEQ [63:32] RO (16 R369). -/
def PUP_MBX_STS_SEQ : Fld := ⟨475, 7, 32, 32, .ro, 0, [], false⟩
/-- PUP_EDGE_EN.EN [63:0] RO (16 R369). -/
def PUP_EDGE_EN_EN : Fld := ⟨476, 7, 0, 64, .ro, 0, [], false⟩
/-- PUP_PAR_CNT.ITCM [15:0] RC (16 R369). -/
def PUP_PAR_CNT_ITCM : Fld := ⟨477, 7, 0, 16, .rc, 0, [], false⟩
/-- PUP_PAR_CNT.DTCM [23:16] RC (16 R369). -/
def PUP_PAR_CNT_DTCM : Fld := ⟨478, 7, 16, 8, .rc, 0, [], false⟩
/-- PUP_PAR_CNT.DMA [31:24] RC (16 R369). -/
def PUP_PAR_CNT_DMA : Fld := ⟨479, 7, 24, 8, .rc, 0, [], false⟩
/-- PUP_PAR_LOG.VALID [0] RW1C (16 R369). -/
def PUP_PAR_LOG_VALID : Fld := ⟨480, 7, 0, 1, .rw1c, 0, [], false⟩
/-- PUP_PAR_LOG.MEM [3:1] RO (16 R369). -/
def PUP_PAR_LOG_MEM : Fld := ⟨481, 7, 1, 3, .ro, 0, [], false⟩
/-- PUP_PAR_LOG.ADDR [24:4] RO (16 R369). -/
def PUP_PAR_LOG_ADDR : Fld := ⟨482, 7, 4, 21, .ro, 0, [], false⟩
/-- PUP_DMA_STS.STATE [1:0] RO (16 R369). -/
def PUP_DMA_STS_STATE : Fld := ⟨483, 7, 0, 2, .ro, 0, [], false⟩
/-- PUP_DMA_STS.DONE [31:8] RO (16 R369). -/
def PUP_DMA_STS_DONE : Fld := ⟨484, 7, 8, 24, .ro, 0, [], false⟩
/-- PUP_VREG.TARGET_MV [9:0] RO (16 R369). -/
def PUP_VREG_TARGET_MV : Fld := ⟨485, 7, 0, 10, .ro, 0, [], false⟩
/-- PUP_VREG.READ_MV [25:16] RO (16 R369). -/
def PUP_VREG_READ_MV : Fld := ⟨486, 7, 16, 10, .ro, 0, [], false⟩
/-- PUP_VREG.FAIL [26] RO (16 R369). -/
def PUP_VREG_FAIL : Fld := ⟨487, 7, 26, 1, .ro, 0, [], false⟩
/-- PUP_MI_CFG.SMB_ADDR [6:0] RWL (16 R369). -/
def PUP_MI_CFG_SMB_ADDR : Fld := ⟨488, 7, 0, 7, .rwl, 29, [], false⟩
/-- PUP_MI_CFG.SMB_EN [7] RWL (16 R369). -/
def PUP_MI_CFG_SMB_EN : Fld := ⟨489, 7, 7, 1, .rwl, 1, [], false⟩
/-- PUP_MI_CFG.VDM_EN [8] RWL (16 R369). -/
def PUP_MI_CFG_VDM_EN : Fld := ⟨490, 7, 8, 1, .rwl, 1, [], false⟩
/-- PUP_SWEEP_STS.STATE [1:0] RO (16 R369). -/
def PUP_SWEEP_STS_STATE : Fld := ⟨491, 7, 0, 2, .ro, 0, [], false⟩
/-- PUP_SWEEP_STS.DONE [14:2] RO (16 R369). -/
def PUP_SWEEP_STS_DONE : Fld := ⟨492, 7, 2, 13, .ro, 0, [], false⟩
/-- PUP_SWEEP_STS.UNREACHED [27:15] RO (16 R369). -/
def PUP_SWEEP_STS_UNREACHED : Fld := ⟨493, 7, 15, 13, .ro, 0, [], false⟩
/-- PUP_SWEEP_STS.ID [63:32] RO (16 R369). -/
def PUP_SWEEP_STS_ID : Fld := ⟨494, 7, 32, 32, .ro, 0, [], false⟩
/-- PUP_SWEEP_TIME.START [63:0] RO (16 R369). -/
def PUP_SWEEP_TIME_START : Fld := ⟨495, 7, 0, 64, .ro, 0, [], false⟩
/-- IMG_STS.PHASE [2:0] RO (17 R394). -/
def IMG_STS_PHASE : Fld := ⟨496, 1, 0, 3, .ro, 0, [], false⟩
/-- IMG_STS.STEP [6:3] RO (17 R394). -/
def IMG_STS_STEP : Fld := ⟨497, 1, 3, 4, .ro, 0, [], false⟩
/-- IMG_STS.SLOT [7] RO (17 R394). -/
def IMG_STS_SLOT : Fld := ⟨498, 1, 7, 1, .ro, 0, [], false⟩
/-- IMG_STS.TRIAL [8] RO (17 R394). -/
def IMG_STS_TRIAL : Fld := ⟨499, 1, 8, 1, .ro, 0, [], false⟩
/-- IMG_STS.FALLBACK [9] RO (17 R394). -/
def IMG_STS_FALLBACK : Fld := ⟨500, 1, 9, 1, .ro, 0, [], false⟩
/-- IMG_STS.ERR [19:16] RO (17 R394). -/
def IMG_STS_ERR : Fld := ⟨501, 1, 16, 4, .ro, 0, [], false⟩
/-- IMG_SLOT_STS.RESULT [3:0] RO (17 R394). -/
def IMG_SLOT_STS_RESULT : Fld := ⟨502, 1, 0, 4, .ro, 0, [], false⟩
/-- IMG_SLOT_STS.SVN [10:4] RO (17 R394). -/
def IMG_SLOT_STS_SVN : Fld := ⟨503, 1, 4, 7, .ro, 0, [], false⟩
/-- IMG_SLOT_STS.LEN [39:16] RO (17 R394). -/
def IMG_SLOT_STS_LEN : Fld := ⟨504, 1, 16, 24, .ro, 0, [], false⟩
/-- IMG_RUN_ID.BUILD [63:0] RO (17 R394). -/
def IMG_RUN_ID_BUILD : Fld := ⟨505, 1, 0, 64, .ro, 0, [], false⟩
/-- IMG_DIR.ACTIVE [0] RO (17 R394). -/
def IMG_DIR_ACTIVE : Fld := ⟨506, 1, 0, 1, .ro, 0, [], false⟩
/-- IMG_DIR.TRIAL [2:1] RO (17 R394). -/
def IMG_DIR_TRIAL : Fld := ⟨507, 1, 1, 2, .ro, 3, [], false⟩
/-- IMG_DIR.TRIES [3] RO (17 R394). -/
def IMG_DIR_TRIES : Fld := ⟨508, 1, 3, 1, .ro, 0, [], false⟩
/-- IMG_DIR.SEQ [63:32] RO (17 R394). -/
def IMG_DIR_SEQ : Fld := ⟨509, 1, 32, 32, .ro, 0, [], false⟩
/-- IMG_SVN.FUSE [6:0] RO (17 R394). -/
def IMG_SVN_FUSE : Fld := ⟨510, 1, 0, 7, .ro, 0, [], false⟩
/-- IMG_SVN.PENDING [7] RO (17 R394). -/
def IMG_SVN_PENDING : Fld := ⟨511, 1, 7, 1, .ro, 0, [], false⟩
/-- IMG_SVN.REVOKED [11:8] RO (17 R394). -/
def IMG_SVN_REVOKED : Fld := ⟨512, 1, 8, 4, .ro, 0, [], false⟩
/-- IMG_CTL.ARB_EN [0] RWL (17 R394). -/
def IMG_CTL_ARB_EN : Fld := ⟨513, 1, 0, 1, .rwl, 1, [], false⟩
/-- IMG_CTL.NEXT_PHASE [2:1] RWS (17 R394). -/
def IMG_CTL_NEXT_PHASE : Fld := ⟨514, 1, 1, 2, .rws, 0, [], false⟩
/-- IMG_UPD_STS.STATE [2:0] RO (17 R394). -/
def IMG_UPD_STS_STATE : Fld := ⟨515, 1, 0, 3, .ro, 0, [], false⟩
/-- IMG_UPD_STS.ERR [6:3] RO (17 R394). -/
def IMG_UPD_STS_ERR : Fld := ⟨516, 1, 3, 4, .ro, 0, [], false⟩
/-- IMG_UPD_STS.BYTES [55:32] RO (17 R394). -/
def IMG_UPD_STS_BYTES : Fld := ⟨517, 1, 32, 24, .ro, 0, [], false⟩
/-- IMG_TIME.ADMIN_MS [15:0] RO (17 R394). -/
def IMG_TIME_ADMIN_MS : Fld := ⟨518, 1, 0, 16, .ro, 0, [], false⟩
/-- IMG_TIME.READY_MS [31:16] RO (17 R394). -/
def IMG_TIME_READY_MS : Fld := ⟨519, 1, 16, 16, .ro, 0, [], false⟩
/-- IMG_TIME.REPLAY_MS [47:32] RO (17 R394). -/
def IMG_TIME_REPLAY_MS : Fld := ⟨520, 1, 32, 16, .ro, 0, [], false⟩
/-- PWR_CFG.JACK_EN [0] RW (18 R415). -/
def PWR_CFG_JACK_EN : Fld := ⟨521, 2, 0, 1, .rw, 0, [], false⟩
/-- PWR_CFG.LTR_EN [1] RW (18 R415). -/
def PWR_CFG_LTR_EN : Fld := ⟨522, 2, 1, 1, .rw, 1, [], false⟩
/-- PWR_CFG.BG_HOLD [2] RW (18 R415). -/
def PWR_CFG_BG_HOLD : Fld := ⟨523, 2, 2, 1, .rw, 1, [], false⟩
/-- PWR_CFG.IDLE_MS [15:8] RW (18 R415). -/
def PWR_CFG_IDLE_MS : Fld := ⟨524, 2, 8, 8, .rw, 10, [], false⟩
/-- PWR_CFG.FAB_TOL_US [31:16] RW (18 R415). -/
def PWR_CFG_FAB_TOL_US : Fld := ⟨525, 2, 16, 16, .rw, 0, [], false⟩
/-- PWR_STS.STATE [2:0] RO (18 R415). -/
def PWR_STS_STATE : Fld := ⟨526, 2, 0, 3, .ro, 0, [], false⟩
/-- PWR_STS.JACK_WAKE [3] RO (18 R415). -/
def PWR_STS_JACK_WAKE : Fld := ⟨527, 2, 3, 1, .ro, 0, [], false⟩
/-- PWR_STS.TRIP_LAST [4] RO (18 R415). -/
def PWR_STS_TRIP_LAST : Fld := ⟨528, 2, 4, 1, .ro, 0, [], false⟩
/-- PWR_STS.NVME_PS [7:5] RO (18 R415). -/
def PWR_STS_NVME_PS : Fld := ⟨529, 2, 5, 3, .ro, 0, [], false⟩
/-- PWR_STEP.STEP [3:0] RO (18 R415). -/
def PWR_STEP_STEP : Fld := ⟨530, 2, 0, 4, .ro, 0, [], false⟩
/-- PWR_STEP.THERM [7:4] RO (18 R415). -/
def PWR_STEP_THERM : Fld := ⟨531, 2, 4, 4, .ro, 0, [], false⟩
/-- PWR_STEP.RSN [11:8] RO (18 R415). -/
def PWR_STEP_RSN : Fld := ⟨532, 2, 8, 4, .ro, 0, [], false⟩
/-- PWR_STEP.FLOOR [26:16] RO (18 R415). -/
def PWR_STEP_FLOOR : Fld := ⟨533, 2, 16, 11, .ro, 1100, [], false⟩
/-- PWR_HOST_STEP.STEP [3:0] RW (18 R415). -/
def PWR_HOST_STEP_STEP : Fld := ⟨534, 2, 0, 4, .rw, 0, [], false⟩
/-- PWR_WAKE_EN.PCIE [0] RW (18 R415). -/
def PWR_WAKE_EN_PCIE : Fld := ⟨535, 2, 0, 1, .rw, 1, [], false⟩
/-- PWR_WAKE_EN.SMB [1] RW (18 R415). -/
def PWR_WAKE_EN_SMB : Fld := ⟨536, 2, 1, 1, .rw, 1, [], false⟩
/-- PWR_WAKE_EN.TS [9:2] RW (18 R415). -/
def PWR_WAKE_EN_TS : Fld := ⟨537, 2, 2, 8, .rw, 0, [], false⟩
/-- PWR_WAKE_SRC.CODE [3:0] RO (18 R415). -/
def PWR_WAKE_SRC_CODE : Fld := ⟨538, 2, 0, 4, .ro, 0, [], false⟩
/-- PWR_WAKE_SRC.INDEX [6:4] RO (18 R415). -/
def PWR_WAKE_SRC_INDEX : Fld := ⟨539, 2, 4, 3, .ro, 0, [], false⟩
/-- PWR_WAKE_SRC.FROM [10:8] RO (18 R415). -/
def PWR_WAKE_SRC_FROM : Fld := ⟨540, 2, 8, 3, .ro, 0, [], false⟩
/-- PWR_WAKE_SRC.REASON [31:16] RO (18 R415). -/
def PWR_WAKE_SRC_REASON : Fld := ⟨541, 2, 16, 16, .ro, 0, [], false⟩
/-- PWR_WAKE_TIME.TIME [63:0] RO (18 R415). -/
def PWR_WAKE_TIME_TIME : Fld := ⟨542, 2, 0, 64, .ro, 0, [], false⟩
/-- PWR_LTR.TOL_NS [31:0] RO (18 R415). -/
def PWR_LTR_TOL_NS : Fld := ⟨543, 2, 0, 32, .ro, 4294967295, [], false⟩
/-- PWR_ENTRY_CNT.CNT [31:0] RC (18 R415). -/
def PWR_ENTRY_CNT_CNT : Fld := ⟨544, 2, 0, 32, .rc, 0, [], false⟩
/-- PWR_STEP_TBL.LIMIT_W [9:0] RO (18 R415). -/
def PWR_STEP_TBL_LIMIT_W : Fld := ⟨545, 2, 0, 10, .ro, 0, [], false⟩
/-- PWR_STEP_TBL.F [19:10] RO (18 R415). -/
def PWR_STEP_TBL_F : Fld := ⟨546, 2, 10, 10, .ro, 0, [], false⟩
/-- PWR_STEP_TBL.WIDTH [21:20] RO (18 R415). -/
def PWR_STEP_TBL_WIDTH : Fld := ⟨547, 2, 20, 2, .ro, 0, [], false⟩
/-- PWR_STEP_TBL.LANES [28:22] RO (18 R415). -/
def PWR_STEP_TBL_LANES : Fld := ⟨548, 2, 22, 7, .ro, 0, [], false⟩
/-- PWR_PACE.PACE [15:0] RO (18 R415). -/
def PWR_PACE_PACE : Fld := ⟨549, 2, 0, 16, .ro, 0, [], false⟩
/-- PWR_PACE.MIN [31:16] RC (18 R415). -/
def PWR_PACE_MIN : Fld := ⟨550, 2, 16, 16, .rc, 65535, [], false⟩
/-- PWR_PACE_MIN.MIN [15:0] RO (18 R415). -/
def PWR_PACE_MIN_MIN : Fld := ⟨551, 2, 0, 16, .ro, 0, [], false⟩
/-- PWR_PACE_MIN.WHICH [20:16] RO (18 R415). -/
def PWR_PACE_MIN_WHICH : Fld := ⟨552, 2, 16, 5, .ro, 0, [], false⟩
/-- PWR_PACE_MIN.LOW [21] RO (18 R415). -/
def PWR_PACE_MIN_LOW : Fld := ⟨553, 2, 21, 1, .ro, 0, [], false⟩
/-- THM_CFG.HYST [3:0] RW (18 R415). -/
def THM_CFG_HYST : Fld := ⟨554, 3, 0, 4, .rw, 3, [], false⟩
/-- THM_CFG.DRAM_STEP [7:4] RW (18 R415). -/
def THM_CFG_DRAM_STEP : Fld := ⟨555, 3, 4, 4, .rw, 8, [], false⟩
/-- THM_CFG.UP_MS [15:8] RW (18 R415). -/
def THM_CFG_UP_MS : Fld := ⟨556, 3, 8, 8, .rw, 10, [], false⟩
/-- THM_CFG.FAILED_STEP [19:16] RW (18 R415). -/
def THM_CFG_FAILED_STEP : Fld := ⟨557, 3, 16, 4, .rw, 8, [], false⟩
/-- THM_STS.TJ_MAX [7:0] RO (18 R415). -/
def THM_STS_TJ_MAX : Fld := ⟨558, 3, 0, 8, .ro, 0, [], false⟩
/-- THM_STS.HOT_IDX [13:8] RO (18 R415). -/
def THM_STS_HOT_IDX : Fld := ⟨559, 3, 8, 6, .ro, 0, [], false⟩
/-- THM_STS.FAILED [20:14] RO (18 R415). -/
def THM_STS_FAILED : Fld := ⟨560, 3, 14, 7, .ro, 0, [], false⟩
/-- THM_CURVE.T_ENTER [7:0] RO (18 R415). -/
def THM_CURVE_T_ENTER : Fld := ⟨561, 3, 0, 8, .ro, 0, [], false⟩
/-- THM_SENS.TEMP [11:0] RO (18 R415). -/
def THM_SENS_TEMP : Fld := ⟨562, 3, 0, 12, .ro, 0, [], false⟩
/-- THM_SENS.STATE [13:12] RO (18 R415). -/
def THM_SENS_STATE : Fld := ⟨563, 3, 12, 2, .ro, 0, [], false⟩
/-- THM_SENS.SUSP_N [15:14] RO (18 R415). -/
def THM_SENS_SUSP_N : Fld := ⟨564, 3, 14, 2, .ro, 0, [], false⟩
/-- THM_SENS.RAW [27:16] RO (18 R415). -/
def THM_SENS_RAW : Fld := ⟨565, 3, 16, 12, .ro, 0, [], false⟩
/-- THM_TS_CFG.KIND [1:0] RW (18 R415). -/
def THM_TS_CFG_KIND : Fld := ⟨566, 3, 0, 2, .rw, 0, [], false⟩
/-- THM_TS_CFG.LIMIT [9:2] RW (18 R415). -/
def THM_TS_CFG_LIMIT : Fld := ⟨567, 3, 2, 8, .rw, 100, [], false⟩
/-- THM_TS_CFG.STEP [13:10] RW (18 R415). -/
def THM_TS_CFG_STEP : Fld := ⟨568, 3, 10, 4, .rw, 8, [], false⟩
/-- THM_TS_CFG.ALERT [21:14] RW (18 R415). -/
def THM_TS_CFG_ALERT : Fld := ⟨569, 3, 14, 8, .rw, 90, [], false⟩
/-- THM_TS_CFG.FAIL_VAL [29:22] RW (18 R415). -/
def THM_TS_CFG_FAIL_VAL : Fld := ⟨570, 3, 22, 8, .rw, 85, [], false⟩
/-- THM_TS_STS.TEMP [11:0] RO (18 R415). -/
def THM_TS_STS_TEMP : Fld := ⟨571, 3, 0, 12, .ro, 0, [], false⟩
/-- THM_TS_STS.STATE [13:12] RO (18 R415). -/
def THM_TS_STS_STATE : Fld := ⟨572, 3, 12, 2, .ro, 0, [], false⟩
/-- THM_TS_STS.ALERT [14] RO (18 R415). -/
def THM_TS_STS_ALERT : Fld := ⟨573, 3, 14, 1, .ro, 0, [], false⟩
/-- THM_TRIP.COUNT [15:0] RO (18 R415). -/
def THM_TRIP_COUNT : Fld := ⟨574, 3, 0, 16, .ro, 0, [], false⟩
/-- THM_TRIP.SENS [21:16] RO (18 R415). -/
def THM_TRIP_SENS : Fld := ⟨575, 3, 16, 6, .ro, 0, [], false⟩
/-- TIM_NOW.NS [63:0] RO (19 R432). -/
def TIM_NOW_NS : Fld := ⟨576, 4, 0, 64, .ro, 0, [], false⟩
/-- TIM_NOW_FRAC.FRAC [15:0] RO (19 R432). -/
def TIM_NOW_FRAC_FRAC : Fld := ⟨577, 4, 0, 16, .ro, 0, [], false⟩
/-- TIM_CFG.PPS_EN [0] RW (19 R432). -/
def TIM_CFG_PPS_EN : Fld := ⟨578, 4, 0, 1, .rw, 1, [], false⟩
/-- TIM_CFG.SLEW_PPM [7:1] RW (19 R432). -/
def TIM_CFG_SLEW_PPM : Fld := ⟨579, 4, 1, 7, .rw, 20, [], false⟩
/-- TIM_CFG.HOLD_MS [19:8] RW (19 R432). -/
def TIM_CFG_HOLD_MS : Fld := ⟨580, 4, 8, 12, .rw, 1500, [], false⟩
/-- TIM_CFG.OUT_N [23:20] RW (19 R432). -/
def TIM_CFG_OUT_N : Fld := ⟨581, 4, 20, 4, .rw, 3, [], false⟩
/-- TIM_PPS_OFS.OFS [31:0] RW (19 R432). -/
def TIM_PPS_OFS_OFS : Fld := ⟨582, 4, 0, 32, .rw, 0, [], false⟩
/-- TIM_STS.PPS [1:0] RO (19 R432). -/
def TIM_STS_PPS : Fld := ⟨583, 4, 0, 2, .ro, 0, [], false⟩
/-- TIM_STS.SRC [3:2] RO (19 R432). -/
def TIM_STS_SRC : Fld := ⟨584, 4, 2, 2, .ro, 0, [], false⟩
/-- TIM_STS.SLEWING [4] RO (19 R432). -/
def TIM_STS_SLEWING : Fld := ⟨585, 4, 4, 1, .ro, 0, [], false⟩
/-- TIM_STS.SET_PEND [5] RO (19 R432). -/
def TIM_STS_SET_PEND : Fld := ⟨586, 4, 5, 1, .ro, 0, [], false⟩
/-- TIM_SET.SEC [33:0] RW (19 R432). -/
def TIM_SET_SEC : Fld := ⟨587, 4, 0, 34, .rw, 0, [], false⟩
/-- TIM_SET.GO [63] WO (19 R432). -/
def TIM_SET_GO : Fld := ⟨588, 4, 63, 1, .wo, 0, [], false⟩
/-- TIM_PPS_LAST.NS [63:0] RO (19 R432). -/
def TIM_PPS_LAST_NS : Fld := ⟨589, 4, 0, 64, .ro, 0, [], false⟩
/-- TIM_PPS_ERR.VALUE [31:0] RO (19 R432). -/
def TIM_PPS_ERR_VALUE : Fld := ⟨590, 4, 0, 32, .ro, 0, [], false⟩
/-- TIM_FREQ.VALUE [31:0] RO (19 R432). -/
def TIM_FREQ_VALUE : Fld := ⟨591, 4, 0, 32, .ro, 0, [], false⟩
/-- TIM_PPS_CNT.ACCEPT [15:0] RC (19 R432). -/
def TIM_PPS_CNT_ACCEPT : Fld := ⟨592, 4, 0, 16, .rc, 0, [], false⟩
/-- TIM_PPS_CNT.OUTSIDE [23:16] RC (19 R432). -/
def TIM_PPS_CNT_OUTSIDE : Fld := ⟨593, 4, 16, 8, .rc, 0, [], false⟩
/-- TIM_PPS_CNT.STEPS [31:24] RC (19 R432). -/
def TIM_PPS_CNT_STEPS : Fld := ⟨594, 4, 24, 8, .rc, 0, [], false⟩
/-- EVR_CTL.EN [0] RW (19 R432). -/
def EVR_CTL_EN : Fld := ⟨595, 5, 0, 1, .rw, 1, [], false⟩
/-- EVR_CTL.CLEAR [1] WO (19 R432). -/
def EVR_CTL_CLEAR : Fld := ⟨596, 5, 1, 1, .wo, 0, [], false⟩
/-- EVR_CTL.FLUSH [2] WO (19 R432). -/
def EVR_CTL_FLUSH : Fld := ⟨597, 5, 2, 1, .wo, 0, [], false⟩
/-- EVR_STS.FULL [0] RO (19 R432). -/
def EVR_STS_FULL : Fld := ⟨598, 5, 0, 1, .ro, 0, [], false⟩
/-- EVR_STS.NAND_BUSY [1] RO (19 R432). -/
def EVR_STS_NAND_BUSY : Fld := ⟨599, 5, 1, 1, .ro, 0, [], false⟩
/-- EVR_STS.NOR_BUSY [2] RO (19 R432). -/
def EVR_STS_NOR_BUSY : Fld := ⟨600, 5, 2, 1, .ro, 0, [], false⟩
/-- EVR_STS.NOR_PEND [3] RO (19 R432). -/
def EVR_STS_NOR_PEND : Fld := ⟨601, 5, 3, 1, .ro, 0, [], false⟩
/-- EVR_STS.USED_KIB [28:16] RO (19 R432). -/
def EVR_STS_USED_KIB : Fld := ⟨602, 5, 16, 13, .ro, 0, [], false⟩
/-- EVR_COUNT.CNT [31:0] RO (19 R432). -/
def EVR_COUNT_CNT : Fld := ⟨603, 5, 0, 32, .ro, 0, [], false⟩
/-- EVR_LOST.CNT [31:0] RC (19 R432). -/
def EVR_LOST_CNT : Fld := ⟨604, 5, 0, 32, .rc, 0, [], false⟩
/-- EVR_FIRST.NS [63:0] RO (19 R432). -/
def EVR_FIRST_NS : Fld := ⟨605, 5, 0, 64, .ro, 0, [], false⟩
/-- EVR_NOR.SEQ [31:0] RO (19 R432). -/
def EVR_NOR_SEQ : Fld := ⟨606, 5, 0, 32, .ro, 0, [], false⟩
/-- EVR_NOR.NEXT [45:32] RO (19 R432). -/
def EVR_NOR_NEXT : Fld := ⟨607, 5, 32, 14, .ro, 0, [], false⟩
/-- EVR_NOR.ERASED [47:46] RO (19 R432). -/
def EVR_NOR_ERASED : Fld := ⟨608, 5, 46, 2, .ro, 0, [], false⟩
/-- EVR_FLUSH_CNT.FAULT [15:0] RC (19 R432). -/
def EVR_FLUSH_CNT_FAULT : Fld := ⟨609, 5, 0, 16, .rc, 0, [], false⟩
/-- EVR_FLUSH_CNT.SUMMARY [31:16] RC (19 R432). -/
def EVR_FLUSH_CNT_SUMMARY : Fld := ⟨610, 5, 16, 16, .rc, 0, [], false⟩
/-- RAS_CFG.RET_PASS [3:0] RW (20 R448). -/
def RAS_CFG_RET_PASS : Fld := ⟨611, 6, 0, 4, .rw, 3, [], false⟩
/-- RAS_CFG.FENCE_MAX [7:4] RW (20 R448). -/
def RAS_CFG_FENCE_MAX : Fld := ⟨612, 6, 4, 4, .rw, 3, [], false⟩
/-- RAS_CFG.CE_HARD [15:8] RW (20 R448). -/
def RAS_CFG_CE_HARD : Fld := ⟨613, 6, 8, 8, .rw, 16, [], false⟩
/-- RAS_CFG.CE_RATE [31:16] RW (20 R448). -/
def RAS_CFG_CE_RATE : Fld := ⟨614, 6, 16, 16, .rw, 1000, [], false⟩
/-- RAS_STS.DEV_FAULT [0] RW1C (20 R448). -/
def RAS_STS_DEV_FAULT : Fld := ⟨615, 6, 0, 1, .rw1c, 0, [], false⟩
/-- RAS_STS.CE_FULL [1] RO (20 R448). -/
def RAS_STS_CE_FULL : Fld := ⟨616, 6, 1, 1, .ro, 0, [], false⟩
/-- RAS_STS.IMG_DAMAGED [2] RO (20 R448). -/
def RAS_STS_IMG_DAMAGED : Fld := ⟨617, 6, 2, 1, .ro, 0, [], false⟩
/-- RAS_STS.CRIT_WARN [15:8] RO (20 R448). -/
def RAS_STS_CRIT_WARN : Fld := ⟨618, 6, 8, 8, .ro, 0, [], false⟩
/-- RAS_CE_SEL.INDEX [5:0] RW (20 R448). -/
def RAS_CE_SEL_INDEX : Fld := ⟨619, 6, 0, 6, .rw, 0, [], false⟩
/-- RAS_CE_ENT.VALID [0] RW1C (20 R448). -/
def RAS_CE_ENT_VALID : Fld := ⟨620, 6, 0, 1, .rw1c, 0, [], false⟩
/-- RAS_CE_ENT.MEM [5:1] RO (20 R448). -/
def RAS_CE_ENT_MEM : Fld := ⟨621, 6, 1, 5, .ro, 0, [], false⟩
/-- RAS_CE_ENT.ADDR [47:8] RO (20 R448). -/
def RAS_CE_ENT_ADDR : Fld := ⟨622, 6, 8, 40, .ro, 0, [], false⟩
/-- RAS_CE_ENT.COUNT [63:48] RO (20 R448). -/
def RAS_CE_ENT_COUNT : Fld := ⟨623, 6, 48, 16, .ro, 0, [], false⟩
/-- RAS_CE_FIRST.TIME [63:0] RO (20 R448). -/
def RAS_CE_FIRST_TIME : Fld := ⟨624, 6, 0, 64, .ro, 0, [], false⟩
/-- RAS_CE_LAST.TIME [63:0] RO (20 R448). -/
def RAS_CE_LAST_TIME : Fld := ⟨625, 6, 0, 64, .ro, 0, [], false⟩
/-- RAS_CE_LOST.CNT [31:0] RC (20 R448). -/
def RAS_CE_LOST_CNT : Fld := ⟨626, 6, 0, 32, .rc, 0, [], false⟩
/-- RAS_MEM_CNT.CE [23:0] RC (20 R448). -/
def RAS_MEM_CNT_CE : Fld := ⟨627, 6, 0, 24, .rc, 0, [], false⟩
/-- RAS_MEM_CNT.UE [31:24] RC (20 R448). -/
def RAS_MEM_CNT_UE : Fld := ⟨628, 6, 24, 8, .rc, 0, [], false⟩
/-- RAS_REPAIR.FUSED [15:0] RO (20 R448). -/
def RAS_REPAIR_FUSED : Fld := ⟨629, 6, 0, 16, .ro, 0, [], false⟩
/-- RAS_REPAIR.SOFT [31:16] RO (20 R448). -/
def RAS_REPAIR_SOFT : Fld := ⟨630, 6, 16, 16, .ro, 0, [], false⟩
/-- RAS_UNIT_SEL.KIND [1:0] RW (20 R448). -/
def RAS_UNIT_SEL_KIND : Fld := ⟨631, 6, 0, 2, .rw, 0, [], false⟩
/-- RAS_UNIT_SEL.INDEX [8:2] RW (20 R448). -/
def RAS_UNIT_SEL_INDEX : Fld := ⟨632, 6, 2, 7, .rw, 0, [], false⟩
/-- RAS_UNIT_INFO.STATE [1:0] RO (20 R448). -/
def RAS_UNIT_INFO_STATE : Fld := ⟨633, 6, 0, 2, .ro, 0, [], false⟩
/-- RAS_UNIT_INFO.PASSES [5:2] RO (20 R448). -/
def RAS_UNIT_INFO_PASSES : Fld := ⟨634, 6, 2, 4, .ro, 0, [], false⟩
/-- RAS_UNIT_INFO.FENCES [9:6] RO (20 R448). -/
def RAS_UNIT_INFO_FENCES : Fld := ⟨635, 6, 6, 4, .ro, 0, [], false⟩
/-- RAS_UNIT_INFO.RSN [12:10] RO (20 R448). -/
def RAS_UNIT_INFO_RSN : Fld := ⟨636, 6, 10, 3, .ro, 0, [], false⟩
/-- RAS_UNIT_INFO.THIRD [31:16] RC (20 R448). -/
def RAS_UNIT_INFO_THIRD : Fld := ⟨637, 6, 16, 16, .rc, 0, [], false⟩
/-- RAS_UNIT_TIME.TIME [63:0] RO (20 R448). -/
def RAS_UNIT_TIME_TIME : Fld := ⟨638, 6, 0, 64, .ro, 0, [], false⟩
/-- RAS_UNIT_CTL.KIND [1:0] WO (20 R448). -/
def RAS_UNIT_CTL_KIND : Fld := ⟨639, 6, 0, 2, .wo, 0, [], false⟩
/-- RAS_UNIT_CTL.INDEX [8:2] WO (20 R448). -/
def RAS_UNIT_CTL_INDEX : Fld := ⟨640, 6, 2, 7, .wo, 0, [], false⟩
/-- RAS_UNIT_CTL.FENCE [9] WO (20 R448). -/
def RAS_UNIT_CTL_FENCE : Fld := ⟨641, 6, 9, 1, .wo, 0, [], false⟩
/-- RAS_UNIT_CTL.RELEASE [10] WO (20 R448). -/
def RAS_UNIT_CTL_RELEASE : Fld := ⟨642, 6, 10, 1, .wo, 0, [], false⟩
/-- RAS_CAP.INGEST_GBS [10:0] RO (20 R448). -/
def RAS_CAP_INGEST_GBS : Fld := ⟨643, 6, 0, 11, .ro, 1600, [], false⟩
/-- RAS_CAP.LINK_EIGHTHS [20:11] RO (20 R448). -/
def RAS_CAP_LINK_EIGHTHS : Fld := ⟨644, 6, 11, 10, .ro, 512, [], false⟩
/-- RAS_CAP.DIES [33:21] RO (20 R448). -/
def RAS_CAP_DIES : Fld := ⟨645, 6, 21, 13, .ro, 0, [], false⟩
/-- RAS_CAP.LANES [40:34] RO (20 R448). -/
def RAS_CAP_LANES : Fld := ⟨646, 6, 34, 7, .ro, 64, [], false⟩
/-- RAS_CAP.DECODERS [48:41] RO (20 R448). -/
def RAS_CAP_DECODERS : Fld := ⟨647, 6, 41, 8, .ro, 128, [], false⟩
/-- RAS_EVQ.PENDING [10:0] RO (20 R448). -/
def RAS_EVQ_PENDING : Fld := ⟨648, 6, 0, 11, .ro, 0, [], false⟩
/-- RAS_EVQ.MASKED [23:16] RO (20 R448). -/
def RAS_EVQ_MASKED : Fld := ⟨649, 6, 16, 8, .ro, 0, [], false⟩
/-- RAS_EVQ_LOST.CNT [31:0] RC (20 R448). -/
def RAS_EVQ_LOST_CNT : Fld := ⟨650, 6, 0, 32, .rc, 0, [], false⟩
/-- RAS_ERRLOG.COUNT [63:0] RO (20 R448). -/
def RAS_ERRLOG_COUNT : Fld := ⟨651, 6, 0, 64, .ro, 0, [], false⟩
/-- GEN_ID.DEVICE [15:0] RO (23 R498). -/
def GEN_ID_DEVICE : Fld := ⟨652, 0, 0, 16, .ro, 37952, [], false⟩
/-- GEN_ID.VENDOR [31:16] RO (23 R498). -/
def GEN_ID_VENDOR : Fld := ⟨653, 0, 16, 16, .ro, 18522, [], false⟩
/-- GEN_REV.STEP_MAJ [3:0] RO (23 R498). -/
def GEN_REV_STEP_MAJ : Fld := ⟨654, 0, 0, 4, .ro, 1, [], false⟩
/-- GEN_REV.STEP_MIN [7:4] RO (23 R498). -/
def GEN_REV_STEP_MIN : Fld := ⟨655, 0, 4, 4, .ro, 1, [], false⟩
/-- GEN_REV.ROM [15:8] RO (23 R498). -/
def GEN_REV_ROM : Fld := ⟨656, 0, 8, 8, .ro, 0, [], true⟩
/-- GEN_REV.FAMILY [23:16] RO (23 R498). -/
def GEN_REV_FAMILY : Fld := ⟨657, 0, 16, 8, .ro, 3, [], false⟩
/-- GEN_SERIAL.SERIAL [63:0] RO (23 R498). -/
def GEN_SERIAL_SERIAL : Fld := ⟨658, 0, 0, 64, .ro, 0, [], true⟩
/-- GEN_FW.FR [63:0] RO (23 R498). -/
def GEN_FW_FR : Fld := ⟨659, 0, 0, 64, .ro, 0, [], false⟩
/-- GEN_CAP0.PORTS [3:0] RO (23 R498). -/
def GEN_CAP0_PORTS : Fld := ⟨660, 0, 0, 4, .ro, 8, [], false⟩
/-- GEN_CAP0.LINKS [11:4] RO (23 R498). -/
def GEN_CAP0_LINKS : Fld := ⟨661, 0, 4, 8, .ro, 64, [], false⟩
/-- GEN_CAP0.LANES [19:12] RO (23 R498). -/
def GEN_CAP0_LANES : Fld := ⟨662, 0, 12, 8, .ro, 64, [], false⟩
/-- GEN_CAP0.DECODERS [27:20] RO (23 R498). -/
def GEN_CAP0_DECODERS : Fld := ⟨663, 0, 20, 8, .ro, 128, [], false⟩
/-- GEN_CAP0.SLICES [38:28] RO (23 R498). -/
def GEN_CAP0_SLICES : Fld := ⟨664, 0, 28, 11, .ro, 1024, [], false⟩
/-- GEN_CAP0.CXL [39] RO (23 R498). -/
def GEN_CAP0_CXL : Fld := ⟨665, 0, 39, 1, .ro, 1, [], false⟩
/-- GEN_CAP0.BIFUR [40] RO (23 R498). -/
def GEN_CAP0_BIFUR : Fld := ⟨666, 0, 40, 1, .ro, 1, [], false⟩
/-- GEN_CAP1.QPAIRS [15:0] RO (23 R498). -/
def GEN_CAP1_QPAIRS : Fld := ⟨667, 0, 0, 16, .ro, 32768, [], false⟩
/-- GEN_CAP1.RCQP [30:16] RO (23 R498). -/
def GEN_CAP1_RCQP : Fld := ⟨668, 0, 16, 15, .ro, 16384, [], false⟩
/-- GEN_CAP1.NAMESPACES [43:31] RO (23 R498). -/
def GEN_CAP1_NAMESPACES : Fld := ⟨669, 0, 31, 13, .ro, 4096, [], false⟩
/-- GEN_CAP1.ACTIVE_ZONES [58:44] RO (23 R498). -/
def GEN_CAP1_ACTIVE_ZONES : Fld := ⟨670, 0, 44, 15, .ro, 16384, [], false⟩
/-- GEN_CAP2.DIES [12:0] RO (23 R498). -/
def GEN_CAP2_DIES : Fld := ⟨671, 0, 0, 13, .ro, 4096, [], false⟩
/-- GEN_CAP2.STREAMS [21:13] RO (23 R498). -/
def GEN_CAP2_STREAMS : Fld := ⟨672, 0, 13, 9, .ro, 256, [], false⟩
/-- GEN_CAP2.KEY_SLOTS [34:22] RO (23 R498). -/
def GEN_CAP2_KEY_SLOTS : Fld := ⟨673, 0, 22, 13, .ro, 4096, [], false⟩
/-- GEN_CAP2.DIE_GROUPS [41:35] RO (23 R498). -/
def GEN_CAP2_DIE_GROUPS : Fld := ⟨674, 0, 35, 7, .ro, 64, [], false⟩
/-- GEN_CTL.CTRL_RESET [0] WO (23 R498). -/
def GEN_CTL_CTRL_RESET : Fld := ⟨675, 0, 0, 1, .wo, 0, [], false⟩
/-- GEN_CTL.KEY [31:16] WO (23 R498). -/
def GEN_CTL_KEY : Fld := ⟨676, 0, 16, 16, .wo, 0, [], false⟩
/-- GEN_STS.RST_PEND [0] RO (23 R499). -/
def GEN_STS_RST_PEND : Fld := ⟨677, 0, 0, 1, .ro, 0, [], false⟩
/-- GEN_STS.WR_IGN [1] RW1C (23 R499). -/
def GEN_STS_WR_IGN : Fld := ⟨678, 0, 1, 1, .rw1c, 0, [], false⟩
/-- GEN_STS.MI_AVAIL [2] RO (23 R499). -/
def GEN_STS_MI_AVAIL : Fld := ⟨679, 0, 2, 1, .ro, 0, [], false⟩
/-- GEN_STS.CAUSE [5:3] RO (23 R499). -/
def GEN_STS_CAUSE : Fld := ⟨680, 0, 3, 3, .ro, 0, [], false⟩
/-- GEN_RST_CNT.CTRL [15:0] RWS (23 R499). -/
def GEN_RST_CNT_CTRL : Fld := ⟨681, 0, 0, 16, .rws, 0, [], false⟩
/-- GEN_SCRATCH.DATA [63:0] RWS (23 R499). -/
def GEN_SCRATCH_DATA : Fld := ⟨682, 0, 0, 64, .rws, 0, [], false⟩
/-- GEN_ACC_ERR.BAR0 [15:0] RC (23 R499). -/
def GEN_ACC_ERR_BAR0 : Fld := ⟨683, 0, 0, 16, .rc, 0, [], false⟩
/-- GEN_ACC_ERR.MI [31:16] RC (23 R499). -/
def GEN_ACC_ERR_MI : Fld := ⟨684, 0, 16, 16, .rc, 0, [], false⟩
/-- GEN_ACC_LOG.VALID [0] RW1C (23 R499). -/
def GEN_ACC_LOG_VALID : Fld := ⟨685, 0, 0, 1, .rw1c, 0, [], false⟩
/-- GEN_ACC_LOG.PATH [1] RO (23 R499). -/
def GEN_ACC_LOG_PATH : Fld := ⟨686, 0, 1, 1, .ro, 0, [], false⟩
/-- GEN_ACC_LOG.KIND [4:2] RO (23 R499). -/
def GEN_ACC_LOG_KIND : Fld := ⟨687, 0, 2, 3, .ro, 0, [], false⟩
/-- GEN_ACC_LOG.WR [5] RO (23 R499). -/
def GEN_ACC_LOG_WR : Fld := ⟨688, 0, 5, 1, .ro, 0, [], false⟩
/-- GEN_ACC_LOG.ADDR [57:32] RO (23 R499). -/
def GEN_ACC_LOG_ADDR : Fld := ⟨689, 0, 32, 26, .ro, 0, [], false⟩
/-- GEN_BLK.BASE [9:0] RO (23 R499). -/
def GEN_BLK_BASE : Fld := ⟨690, 0, 0, 10, .ro, 0, [0, 1, 2, 3, 4, 5, 6, 7, 16, 32, 48, 64, 72, 80, 88, 96, 112, 120, 128, 256, 512], false⟩
/-- GEN_BLK.STRIDE_LOG2 [14:10] RO (23 R499). -/
def GEN_BLK_STRIDE_LOG2 : Fld := ⟨691, 0, 10, 5, .ro, 0, [0, 0, 0, 0, 0, 0, 0, 0, 16, 0, 14, 0, 0, 0, 0, 14, 0, 0, 0, 12, 0], false⟩
/-- GEN_BLK.COUNT [35:16] RO (23 R499). -/
def GEN_BLK_COUNT : Fld := ⟨692, 0, 16, 20, .ro, 0, [1, 1, 1, 1, 1, 1, 1, 1, 8, 1, 64, 1, 1, 1, 1, 64, 1, 1, 1, 1024, 1], false⟩
/-- GEN_BLK.VERSION [43:36] RO (23 R499). -/
def GEN_BLK_VERSION : Fld := ⟨693, 0, 36, 8, .ro, 1, [], false⟩
/-- GEN_BLK.INDEX [48:44] RO (23 R499). -/
def GEN_BLK_INDEX : Fld := ⟨694, 0, 44, 5, .ro, 0, [0, 1, 2, 3, 4, 5, 6, 7, 8, 9, 10, 11, 12, 13, 14, 15, 16, 17, 18, 19, 20], false⟩

end F

namespace R

/-- SLI_STS. -/
def SLI_STS : Reg := ⟨16777216, 4096, 1024, 0, 1, 32, false, [F.SLI_STS_STATE, F.SLI_STS_OVERQ, F.SLI_STS_AZOVER, F.SLI_STS_FENCE_RSN]⟩
/-- SLI_GEN. -/
def SLI_GEN : Reg := ⟨16777220, 4096, 1024, 0, 1, 32, false, [F.SLI_GEN_GEN]⟩
/-- SLI_STALE_CNT. -/
def SLI_STALE_CNT : Reg := ⟨16777224, 4096, 1024, 0, 1, 32, false, [F.SLI_STALE_CNT_CNT]⟩
/-- SLI_CAP_QUOTA. -/
def SLI_CAP_QUOTA : Reg := ⟨16777232, 4096, 1024, 0, 1, 64, false, [F.SLI_CAP_QUOTA_UNITS]⟩
/-- SLI_CAP_USED. -/
def SLI_CAP_USED : Reg := ⟨16777240, 4096, 1024, 0, 1, 64, false, [F.SLI_CAP_USED_UNITS]⟩
/-- SLI_BW. -/
def SLI_BW : Reg := ⟨16777248, 4096, 1024, 0, 1, 32, false, [F.SLI_BW_INGRESS, F.SLI_BW_EGRESS]⟩
/-- SLI_WEIGHT. -/
def SLI_WEIGHT : Reg := ⟨16777252, 4096, 1024, 0, 1, 32, false, [F.SLI_WEIGHT_WEIGHT, F.SLI_WEIGHT_LCMASK]⟩
/-- SLI_AZ. -/
def SLI_AZ : Reg := ⟨16777256, 4096, 1024, 0, 1, 32, false, [F.SLI_AZ_LIMIT, F.SLI_AZ_SRAM_RSV]⟩
/-- SLI_AZ_COUNT. -/
def SLI_AZ_COUNT : Reg := ⟨16777260, 4096, 1024, 0, 1, 32, false, [F.SLI_AZ_COUNT_COUNT, F.SLI_AZ_COUNT_SRAM_USE]⟩
/-- SLI_RES. -/
def SLI_RES : Reg := ⟨16777264, 4096, 1024, 0, 1, 32, false, [F.SLI_RES_QP, F.SLI_RES_RCQP]⟩
/-- SLI_RES_USE. -/
def SLI_RES_USE : Reg := ⟨16777268, 4096, 1024, 0, 1, 32, false, [F.SLI_RES_USE_QP, F.SLI_RES_USE_RCQP]⟩
/-- SLI_NS. -/
def SLI_NS : Reg := ⟨16777272, 4096, 1024, 0, 1, 32, false, [F.SLI_NS_ALLOC, F.SLI_NS_USE]⟩
/-- SLI_DGMAP. -/
def SLI_DGMAP : Reg := ⟨16777280, 4096, 1024, 0, 1, 64, false, [F.SLI_DGMAP_MAP]⟩
/-- SLI_XLT_FLT_INFO. -/
def SLI_XLT_FLT_INFO : Reg := ⟨16777296, 4096, 1024, 0, 1, 64, false, [F.SLI_XLT_FLT_INFO_VALID, F.SLI_XLT_FLT_INFO_KIND, F.SLI_XLT_FLT_INFO_PERM, F.SLI_XLT_FLT_INFO_FUNC, F.SLI_XLT_FLT_INFO_PASID, F.SLI_XLT_FLT_INFO_WR]⟩
/-- SLI_XLT_FLT_ADDR. -/
def SLI_XLT_FLT_ADDR : Reg := ⟨16777304, 4096, 1024, 0, 1, 64, false, [F.SLI_XLT_FLT_ADDR_PAGE]⟩
/-- SLI_XLT_FLT_CNT. -/
def SLI_XLT_FLT_CNT : Reg := ⟨16777312, 4096, 1024, 0, 1, 32, false, [F.SLI_XLT_FLT_CNT_CNT]⟩
/-- LGR_CFG. -/
def LGR_CFG : Reg := ⟨8388608, 0, 1, 0, 1, 32, false, [F.LGR_CFG_BG_CAP, F.LGR_CFG_PATROL_CAP, F.LGR_CFG_CARRY, F.LGR_CFG_CMD_CHG]⟩
/-- LGR_STS. -/
def LGR_STS : Reg := ⟨8388612, 0, 1, 0, 1, 32, false, [F.LGR_STS_BG_CRIT, F.LGR_STS_VEC_ERR, F.LGR_STS_LC_ERR]⟩
/-- LGR_EPOCH. -/
def LGR_EPOCH : Reg := ⟨8388616, 0, 1, 0, 1, 32, false, [F.LGR_EPOCH_COUNT]⟩
/-- LGR_DEV_CAP. -/
def LGR_DEV_CAP : Reg := ⟨8388624, 0, 1, 0, 1, 32, false, [F.LGR_DEV_CAP_MEDIA_US]⟩
/-- LGR_DEV_ADMIT. -/
def LGR_DEV_ADMIT : Reg := ⟨8388632, 0, 1, 0, 1, 64, false, [F.LGR_DEV_ADMIT_LIMIT]⟩
/-- LGR_LC_TGT. -/
def LGR_LC_TGT : Reg := ⟨8388640, 4, 8, 0, 1, 32, false, [F.LGR_LC_TGT_TARGET]⟩
/-- LGR_BG_USE. -/
def LGR_BG_USE : Reg := ⟨8388672, 8, 6, 0, 1, 64, false, [F.LGR_BG_USE_CHG]⟩
/-- LGR_EVT_VEC. -/
def LGR_EVT_VEC : Reg := ⟨8388736, 4, 8, 0, 1, 32, false, [F.LGR_EVT_VEC_VECTOR, F.LGR_EVT_VEC_EN]⟩
/-- LGR_QSEL. -/
def LGR_QSEL : Reg := ⟨8388800, 0, 1, 0, 1, 32, true, [F.LGR_QSEL_QIDX]⟩
/-- LGR_QINFO. -/
def LGR_QINFO : Reg := ⟨8388808, 0, 1, 0, 1, 64, false, [F.LGR_QINFO_SLICE, F.LGR_QINFO_FABRIC, F.LGR_QINFO_BIND, F.LGR_QINFO_LC, F.LGR_QINFO_FF, F.LGR_QINFO_CD, F.LGR_QINFO_GEN, F.LGR_QINFO_NVME_QID]⟩
/-- LGR_QINFO2. -/
def LGR_QINFO2 : Reg := ⟨8388816, 0, 1, 0, 1, 32, false, [F.LGR_QINFO2_VECTOR, F.LGR_QINFO2_OUTST]⟩
/-- LGR_SL_CHG. -/
def LGR_SL_CHG : Reg := ⟨8454144, 64, 1024, 0, 1, 64, false, [F.LGR_SL_CHG_CHG]⟩
/-- LGR_SL_LAST. -/
def LGR_SL_LAST : Reg := ⟨8454152, 64, 1024, 0, 1, 64, false, [F.LGR_SL_LAST_CHG]⟩
/-- LGR_SL_NORM. -/
def LGR_SL_NORM : Reg := ⟨8454160, 64, 1024, 0, 1, 64, false, [F.LGR_SL_NORM_N]⟩
/-- LGR_SL_BYTES. -/
def LGR_SL_BYTES : Reg := ⟨8454168, 64, 1024, 0, 1, 64, false, [F.LGR_SL_BYTES_IN_KIB, F.LGR_SL_BYTES_EG_KIB]⟩
/-- LGR_SL_DLMISS. -/
def LGR_SL_DLMISS : Reg := ⟨8454176, 64, 1024, 0, 1, 32, false, [F.LGR_SL_DLMISS_CNT]⟩
/-- ZON_CAP. -/
def ZON_CAP : Reg := ⟨33554432, 0, 1, 0, 1, 32, false, [F.ZON_CAP_HANDLES]⟩
/-- ZON_ACTIVE. -/
def ZON_ACTIVE : Reg := ⟨33554436, 0, 1, 0, 1, 32, false, [F.ZON_ACTIVE_COUNT, F.ZON_ACTIVE_SRAM]⟩
/-- ZON_DIRECT. -/
def ZON_DIRECT : Reg := ⟨33554440, 0, 1, 0, 1, 32, false, [F.ZON_DIRECT_ACTIVE, F.ZON_DIRECT_MAX]⟩
/-- ZON_CFG. -/
def ZON_CFG : Reg := ⟨33554444, 0, 1, 0, 1, 32, false, [F.ZON_CFG_HOLD_DEPTH, F.ZON_CFG_HOLD_TMO]⟩
/-- ZON_NSSEL. -/
def ZON_NSSEL : Reg := ⟨33554448, 0, 1, 0, 1, 32, true, [F.ZON_NSSEL_NSID]⟩
/-- ZON_NSINFO. -/
def ZON_NSINFO : Reg := ⟨33554456, 0, 1, 0, 1, 64, false, [F.ZON_NSINFO_BASE, F.ZON_NSINFO_COUNT, F.ZON_NSINFO_DGROUP, F.ZON_NSINFO_LBAF, F.ZON_NSINFO_VALID]⟩
/-- ZON_HOLD_FAIL. -/
def ZON_HOLD_FAIL : Reg := ⟨33554464, 0, 1, 0, 1, 32, false, [F.ZON_HOLD_FAIL_CNT]⟩
/-- ZON_DEV_XN. -/
def ZON_DEV_XN : Reg := ⟨33554468, 0, 1, 0, 1, 32, false, [F.ZON_DEV_XN_FINISH, F.ZON_DEV_XN_RONLY]⟩
/-- ZON_ENT0. -/
def ZON_ENT0 : Reg := ⟨33558528, 64, 524224, 0, 1, 64, false, [F.ZON_ENT0_STATE, F.ZON_ENT0_ROUTE, F.ZON_ENT0_PSLOT, F.ZON_ENT0_SLICE, F.ZON_ENT0_DGROUP, F.ZON_ENT0_ZFC, F.ZON_ENT0_NSID]⟩
/-- ZON_ENT1. -/
def ZON_ENT1 : Reg := ⟨33558536, 64, 524224, 0, 1, 64, false, [F.ZON_ENT1_ZSLBA]⟩
/-- ZON_ENT2. -/
def ZON_ENT2 : Reg := ⟨33558544, 64, 524224, 0, 1, 64, false, [F.ZON_ENT2_WP_OFF, F.ZON_ENT2_HOLD, F.ZON_ENT2_WINROW]⟩
/-- ZON_ENT3. -/
def ZON_ENT3 : Reg := ⟨33558552, 64, 524224, 0, 1, 64, false, [F.ZON_ENT3_SSET0, F.ZON_ENT3_K]⟩
/-- ZON_ENT4. -/
def ZON_ENT4 : Reg := ⟨33558560, 64, 524224, 0, 1, 64, false, [F.ZON_ENT4_SSET1, F.ZON_ENT4_SSET2]⟩
/-- ZON_ENT5. -/
def ZON_ENT5 : Reg := ⟨33558568, 64, 524224, 0, 1, 64, false, [F.ZON_ENT5_SSET3]⟩
/-- ZON_ENT6. -/
def ZON_ENT6 : Reg := ⟨33558576, 64, 524224, 0, 1, 64, false, [F.ZON_ENT6_ACT_NS]⟩
/-- ZON_ENT7. -/
def ZON_ENT7 : Reg := ⟨33558584, 64, 524224, 0, 1, 64, false, [F.ZON_ENT7_SEQ, F.ZON_ENT7_RESETS]⟩
/-- FRL_LSTS. -/
def FRL_LSTS : Reg := ⟨6291456, 16384, 64, 0, 1, 32, false, [F.FRL_LSTS_STATE, F.FRL_LSTS_BANK, F.FRL_LSTS_OLD_BUSY, F.FRL_LSTS_FENCE_RSN, F.FRL_LSTS_EPOCH]⟩
/-- FRL_LBYTES_IN. -/
def FRL_LBYTES_IN : Reg := ⟨6291464, 16384, 64, 0, 1, 64, false, [F.FRL_LBYTES_IN_BYTES]⟩
/-- FRL_LBYTES_OUT. -/
def FRL_LBYTES_OUT : Reg := ⟨6291472, 16384, 64, 0, 1, 64, false, [F.FRL_LBYTES_OUT_BYTES]⟩
/-- FRL_LREISSUE. -/
def FRL_LREISSUE : Reg := ⟨6291480, 16384, 64, 0, 1, 32, false, [F.FRL_LREISSUE_CNT]⟩
/-- FRL_SSEL. -/
def FRL_SSEL : Reg := ⟨6299648, 0, 1, 0, 1, 32, true, [F.FRL_SSEL_STREAM]⟩
/-- FRL_SINFO. -/
def FRL_SINFO : Reg := ⟨6299656, 0, 1, 0, 1, 64, false, [F.FRL_SINFO_STATE, F.FRL_SINFO_BLK_RSN, F.FRL_SINFO_SLICE, F.FRL_SINFO_PROG, F.FRL_SINFO_W, F.FRL_SINFO_SRC, F.FRL_SINFO_SET]⟩
/-- FRL_SPOS. -/
def FRL_SPOS : Reg := ⟨6299664, 0, 1, 0, 1, 64, false, [F.FRL_SPOS_LOG, F.FRL_SPOS_VOIDS]⟩
/-- FRL_SFRAME. -/
def FRL_SFRAME : Reg := ⟨6299672, 0, 1, 0, 1, 64, false, [F.FRL_SFRAME_F]⟩
/-- FRL_SCNT. -/
def FRL_SCNT : Reg := ⟨6299680, 4, 12, 0, 1, 32, false, [F.FRL_SCNT_CNT]⟩
/-- FRL_UNMATCHED. -/
def FRL_UNMATCHED : Reg := ⟨6299776, 0, 1, 0, 1, 32, false, [F.FRL_UNMATCHED_CNT]⟩
/-- FRL_REORDER_USE. -/
def FRL_REORDER_USE : Reg := ⟨6299784, 0, 1, 0, 1, 32, false, [F.FRL_REORDER_USE_KIB, F.FRL_REORDER_USE_RSV]⟩
/-- FRL_LANE_AVAIL. -/
def FRL_LANE_AVAIL : Reg := ⟨6299792, 0, 1, 0, 1, 64, false, [F.FRL_LANE_AVAIL_MASK]⟩
/-- MED_STG_CFG. -/
def MED_STG_CFG : Reg := ⟨4390912, 0, 1, 0, 1, 32, false, [F.MED_STG_CFG_FILL_TMO, F.MED_STG_CFG_LOW_FREE]⟩
/-- MED_STG_STS. -/
def MED_STG_STS : Reg := ⟨4390920, 0, 1, 0, 1, 64, false, [F.MED_STG_STS_SRAM_USED, F.MED_STG_STS_DIRECT_RSV, F.MED_STG_STS_OVF_MIB]⟩
/-- MED_PSLOT_STS. -/
def MED_PSLOT_STS : Reg := ⟨4390928, 0, 1, 0, 1, 32, false, [F.MED_PSLOT_STS_SRAM_USE, F.MED_PSLOT_STS_SPILLED]⟩
/-- MED_SPILL_CFG. -/
def MED_SPILL_CFG : Reg := ⟨4390932, 0, 1, 0, 1, 32, false, [F.MED_SPILL_CFG_MAX, F.MED_SPILL_CFG_DEMOTE_TMO]⟩
/-- MED_WIN_CFG. -/
def MED_WIN_CFG : Reg := ⟨4390936, 0, 1, 0, 1, 32, false, [F.MED_WIN_CFG_PCT, F.MED_WIN_CFG_FOLD_START]⟩
/-- MED_WIN_STS. -/
def MED_WIN_STS : Reg := ⟨4390944, 0, 1, 0, 1, 64, false, [F.MED_WIN_STS_BLOCKS, F.MED_WIN_STS_EFF_PCT, F.MED_WIN_STS_FILL]⟩
/-- MED_PF_CFG. -/
def MED_PF_CFG : Reg := ⟨4390952, 0, 1, 0, 1, 32, false, [F.MED_PF_CFG_DIRTY_MAX]⟩
/-- MED_PF_STS. -/
def MED_PF_STS : Reg := ⟨4390960, 0, 1, 0, 1, 32, false, [F.MED_PF_STS_PHASE, F.MED_PF_STS_BANK, F.MED_PF_STS_LAST, F.MED_PF_STS_RESUMED, F.MED_PF_STS_OVERRUN, F.MED_PF_STS_DUR]⟩
/-- MED_PF_CNT. -/
def MED_PF_CNT : Reg := ⟨4390968, 0, 1, 0, 1, 32, false, [F.MED_PF_CNT_FLUSHES, F.MED_PF_CNT_UNSAFE]⟩
/-- RDN_CFG. -/
def RDN_CFG : Reg := ⟨5242880, 0, 1, 0, 1, 32, false, [F.RDN_CFG_UNREACH_WAIT, F.RDN_CFG_RA_MAXINFL]⟩
/-- RDN_STS. -/
def RDN_STS : Reg := ⟨5242884, 0, 1, 0, 1, 32, false, [F.RDN_STS_RBLD, F.RDN_STS_CRIT, F.RDN_STS_LOST_FULL, F.RDN_STS_SUBST_FULL, F.RDN_STS_RSHP, F.RDN_STS_RSHP_GRP]⟩
/-- RDN_RBLD_CFG. -/
def RDN_RBLD_CFG : Reg := ⟨5242888, 0, 1, 0, 1, 32, false, [F.RDN_RBLD_CFG_SHARE, F.RDN_RBLD_CFG_CRIT_SHARE, F.RDN_RBLD_CFG_DELAY]⟩
/-- RDN_RBLD_STS. -/
def RDN_RBLD_STS : Reg := ⟨5242896, 0, 1, 0, 1, 64, false, [F.RDN_RBLD_STS_PEND1, F.RDN_RBLD_STS_PEND2]⟩
/-- RDN_RBLD_BYTES. -/
def RDN_RBLD_BYTES : Reg := ⟨5242904, 0, 1, 0, 1, 64, false, [F.RDN_RBLD_BYTES_BYTES]⟩
/-- RDN_SUBST. -/
def RDN_SUBST : Reg := ⟨5242912, 0, 1, 0, 1, 32, false, [F.RDN_SUBST_USED]⟩
/-- RDN_LOST_CNT. -/
def RDN_LOST_CNT : Reg := ⟨5242916, 0, 1, 0, 1, 32, false, [F.RDN_LOST_CNT_USED, F.RDN_LOST_CNT_OVF]⟩
/-- RDN_LOST_SEL. -/
def RDN_LOST_SEL : Reg := ⟨5242920, 0, 1, 0, 1, 32, true, [F.RDN_LOST_SEL_INDEX]⟩
/-- RDN_LOST_ENT. -/
def RDN_LOST_ENT : Reg := ⟨5242928, 0, 1, 0, 1, 64, false, [F.RDN_LOST_ENT_ROW, F.RDN_LOST_ENT_FIRST, F.RDN_LOST_ENT_LAST, F.RDN_LOST_ENT_VALID]⟩
/-- RDN_LOST_TIME. -/
def RDN_LOST_TIME : Reg := ⟨5242936, 0, 1, 0, 1, 64, false, [F.RDN_LOST_TIME_TIME]⟩
/-- RDN_GRP_SEL. -/
def RDN_GRP_SEL : Reg := ⟨5242944, 0, 1, 0, 1, 32, true, [F.RDN_GRP_SEL_GROUP]⟩
/-- RDN_GRP_INFO. -/
def RDN_GRP_INFO : Reg := ⟨5242952, 0, 1, 0, 1, 64, false, [F.RDN_GRP_INFO_N, F.RDN_GRP_INFO_D, F.RDN_GRP_INFO_K, F.RDN_GRP_INFO_ROWS, F.RDN_GRP_INFO_SPARE, F.RDN_GRP_INFO_DEDICATED, F.RDN_GRP_INFO_SHADOW]⟩
/-- RDN_RSHP_STS. -/
def RDN_RSHP_STS : Reg := ⟨5242968, 0, 1, 0, 1, 64, false, [F.RDN_RSHP_STS_DONE, F.RDN_RSHP_STS_TOTAL, F.RDN_RSHP_STS_WAIT_ACTIVE]⟩
/-- RDN_RA_CNT. -/
def RDN_RA_CNT : Reg := ⟨5242976, 0, 1, 0, 1, 32, false, [F.RDN_RA_CNT_CNT]⟩
/-- RDN_DEG_CNT. -/
def RDN_DEG_CNT : Reg := ⟨5242980, 0, 1, 0, 1, 32, false, [F.RDN_DEG_CNT_CNT]⟩
/-- RDN_UNREACH_CNT. -/
def RDN_UNREACH_CNT : Reg := ⟨5242984, 0, 1, 0, 1, 32, false, [F.RDN_UNREACH_CNT_CNT]⟩
/-- KZL_CTL. -/
def KZL_CTL : Reg := ⟨3145728, 16384, 64, 0, 1, 32, false, [F.KZL_CTL_EN, F.KZL_CTL_WIDTH_CAP, F.KZL_CTL_QUIET_EN, F.KZL_CTL_QUIET_ENTRY, F.KZL_CTL_KEEPALIVE, F.KZL_CTL_RETRAIN]⟩
/-- KZL_STS. -/
def KZL_STS : Reg := ⟨3145736, 16384, 64, 0, 1, 32, false, [F.KZL_STS_HOP0, F.KZL_STS_WIDTH, F.KZL_STS_LANES_OK, F.KZL_STS_ENGINE, F.KZL_STS_BRIDGES, F.KZL_STS_BREAK, F.KZL_STS_BREAK_HOP, F.KZL_STS_SB, F.KZL_STS_EXTRA, F.KZL_STS_REMOVE_OK, F.KZL_STS_REMOVE_POS]⟩
/-- KZL_UNREACH. -/
def KZL_UNREACH : Reg := ⟨3145744, 16384, 64, 0, 1, 64, false, [F.KZL_UNREACH_MASK]⟩
/-- KZL_BRK_TIME. -/
def KZL_BRK_TIME : Reg := ⟨3145752, 16384, 64, 0, 1, 64, false, [F.KZL_BRK_TIME_TIME]⟩
/-- KZL_BID. -/
def KZL_BID : Reg := ⟨3145760, 16384, 64, 16, 4, 64, false, [F.KZL_BID_PRESENT, F.KZL_BID_HOP, F.KZL_BID_DIES, F.KZL_BID_MDESC, F.KZL_BID_BTYPE, F.KZL_BID_DSB]⟩
/-- KZL_BSER. -/
def KZL_BSER : Reg := ⟨3145768, 16384, 64, 16, 4, 64, false, [F.KZL_BSER_SERIAL]⟩
/-- KZL_FEC_CNT. -/
def KZL_FEC_CNT : Reg := ⟨3145824, 16384, 64, 0, 1, 32, false, [F.KZL_FEC_CNT_CORR]⟩
/-- KZL_REPLAY_CNT. -/
def KZL_REPLAY_CNT : Reg := ⟨3145828, 16384, 64, 0, 1, 32, false, [F.KZL_REPLAY_CNT_REPLAY, F.KZL_REPLAY_CNT_STRAY]⟩
/-- KZL_LOCK_CNT. -/
def KZL_LOCK_CNT : Reg := ⟨3145832, 16384, 64, 0, 1, 32, false, [F.KZL_LOCK_CNT_LOCKLOSS, F.KZL_LOCK_CNT_BREAKS]⟩
/-- KZL_LANE. -/
def KZL_LANE : Reg := ⟨3145856, 16384, 64, 4, 4, 32, false, [F.KZL_LANE_EYE_H, F.KZL_LANE_EYE_W, F.KZL_LANE_SYMERR]⟩
/-- MED_SCHED_CFG. -/
def MED_SCHED_CFG : Reg := ⟨4194304, 0, 1, 0, 1, 32, false, [F.MED_SCHED_CFG_RA_THRESH, F.MED_SCHED_CFG_MIN_RUN, F.MED_SCHED_CFG_SUS_MAX, F.MED_SCHED_CFG_PLANE_MERGE]⟩
/-- MED_VFY_CFG. -/
def MED_VFY_CFG : Reg := ⟨4194308, 0, 1, 0, 1, 32, false, [F.MED_VFY_CFG_ONEBIT_PCT, F.MED_VFY_CFG_MAX_FRAC]⟩
/-- MED_RET_CFG. -/
def MED_RET_CFG : Reg := ⟨4194312, 0, 1, 0, 1, 32, false, [F.MED_RET_CFG_GBB_MAX, F.MED_RET_CFG_RESETS, F.MED_RET_CFG_RET_WEAR]⟩
/-- MED_DESC. -/
def MED_DESC : Reg := ⟨4194316, 0, 1, 0, 1, 32, false, [F.MED_DESC_COUNT, F.MED_DESC_RETIRED]⟩
/-- MED_WEAR. -/
def MED_WEAR : Reg := ⟨4194320, 0, 1, 0, 1, 64, false, [F.MED_WEAR_PCT_USED, F.MED_WEAR_DAYS, F.MED_WEAR_IDX_MEAN]⟩
/-- MED_DIE_RETIRE. -/
def MED_DIE_RETIRE : Reg := ⟨4194328, 0, 1, 0, 1, 32, false, [F.MED_DIE_RETIRE_DIE, F.MED_DIE_RETIRE_GO]⟩
/-- MED_RA_DENY. -/
def MED_RA_DENY : Reg := ⟨4194336, 0, 1, 0, 1, 32, false, [F.MED_RA_DENY_CNT]⟩
/-- MED_TMO_CNT. -/
def MED_TMO_CNT : Reg := ⟨4194340, 0, 1, 0, 1, 32, false, [F.MED_TMO_CNT_CNT]⟩
/-- MED_VFY_FAIL. -/
def MED_VFY_FAIL : Reg := ⟨4194344, 0, 1, 0, 1, 32, false, [F.MED_VFY_FAIL_VFY, F.MED_VFY_FAIL_PFAIL]⟩
/-- MED_DIE_STS. -/
def MED_DIE_STS : Reg := ⟨4259840, 16, 4096, 0, 1, 64, false, [F.MED_DIE_STS_STATE, F.MED_DIE_STS_OP, F.MED_DIE_STS_SUSP, F.MED_DIE_STS_OPEN, F.MED_DIE_STS_SUSP_N, F.MED_DIE_STS_QDEPTH, F.MED_DIE_STS_PRED_US, F.MED_DIE_STS_TEMP]⟩
/-- MED_HLTH_SEL. -/
def MED_HLTH_SEL : Reg := ⟨4325376, 0, 1, 0, 1, 32, true, [F.MED_HLTH_SEL_DIE, F.MED_HLTH_SEL_BLOCK]⟩
/-- MED_HLTH_BLK. -/
def MED_HLTH_BLK : Reg := ⟨4325384, 0, 1, 0, 1, 64, false, [F.MED_HLTH_BLK_ERASES, F.MED_HLTH_BLK_BAD, F.MED_HLTH_BLK_ONEBIT, F.MED_HLTH_BLK_TIER]⟩
/-- MED_HLTH_DIE. -/
def MED_HLTH_DIE : Reg := ⟨4325392, 0, 1, 0, 1, 64, false, [F.MED_HLTH_DIE_GBB, F.MED_HLTH_DIE_PFAIL, F.MED_HLTH_DIE_EFAIL, F.MED_HLTH_DIE_IDX]⟩
/-- MED_HLTH_ERS. -/
def MED_HLTH_ERS : Reg := ⟨4325400, 0, 1, 0, 1, 64, false, [F.MED_HLTH_ERS_MEAN, F.MED_HLTH_ERS_MAX]⟩
/-- MED_HLTH_STS. -/
def MED_HLTH_STS : Reg := ⟨4325408, 0, 1, 0, 1, 32, false, [F.MED_HLTH_STS_AVAIL, F.MED_HLTH_STS_DENIED]⟩
/-- RCH_CFG. -/
def RCH_CFG : Reg := ⟨4718592, 0, 1, 0, 1, 32, false, [F.RCH_CFG_JUMP_EN, F.RCH_CFG_SOFT_MAX, F.RCH_CFG_REFRESH_STEP, F.RCH_CFG_DELTA]⟩
/-- RCH_PATROL_CFG. -/
def RCH_PATROL_CFG : Reg := ⟨4718596, 0, 1, 0, 1, 32, false, [F.RCH_PATROL_CFG_PERIOD, F.RCH_PATROL_CFG_REFRESH_PCT, F.RCH_PATROL_CFG_EN, F.RCH_PATROL_CFG_PROBE]⟩
/-- RCH_PATROL_STS. -/
def RCH_PATROL_STS : Reg := ⟨4718600, 0, 1, 0, 1, 32, false, [F.RCH_PATROL_STS_PASS_PCT, F.RCH_PATROL_STS_LAST_H]⟩
/-- RCH_PATROL_CNT. -/
def RCH_PATROL_CNT : Reg := ⟨4718604, 0, 1, 0, 1, 32, false, [F.RCH_PATROL_CNT_REFRESH, F.RCH_PATROL_CNT_RECON]⟩
/-- RCH_TIER_CFG. -/
def RCH_TIER_CFG : Reg := ⟨4718608, 0, 1, 0, 1, 32, false, [F.RCH_TIER_CFG_HORIZON, F.RCH_TIER_CFG_MARGIN]⟩
/-- RCH_TIER_CNT. -/
def RCH_TIER_CNT : Reg := ⟨4718616, 4, 4, 0, 1, 32, false, [F.RCH_TIER_CNT_BLOCKS]⟩
/-- RCH_TAIL_CFG. -/
def RCH_TAIL_CFG : Reg := ⟨4718640, 0, 1, 0, 1, 32, false, [F.RCH_TAIL_CFG_BLOCKS]⟩
/-- RCH_TAIL_STS. -/
def RCH_TAIL_STS : Reg := ⟨4718644, 0, 1, 0, 1, 32, false, [F.RCH_TAIL_STS_WORST_PCT, F.RCH_TAIL_STS_STARVED]⟩
/-- RCH_LADDER_CNT. -/
def RCH_LADDER_CNT : Reg := ⟨4718656, 4, 8, 0, 1, 32, false, [F.RCH_LADDER_CNT_CNT]⟩
/-- RCH_JUMP_CNT. -/
def RCH_JUMP_CNT : Reg := ⟨4718688, 0, 1, 0, 1, 32, false, [F.RCH_JUMP_CNT_CNT]⟩
/-- RCH_DEC_AVAIL. -/
def RCH_DEC_AVAIL : Reg := ⟨4718704, 8, 2, 0, 1, 64, false, [F.RCH_DEC_AVAIL_MASK]⟩
/-- RCH_DEC_STS. -/
def RCH_DEC_STS : Reg := ⟨4718720, 0, 1, 0, 1, 32, false, [F.RCH_DEC_STS_WORKING, F.RCH_DEC_STS_SOFT, F.RCH_DEC_STS_REISSUE]⟩
/-- RCH_SWEEP_CFG. -/
def RCH_SWEEP_CFG : Reg := ⟨4718728, 0, 1, 0, 1, 32, false, [F.RCH_SWEEP_CFG_PERIOD, F.RCH_SWEEP_CFG_DT]⟩
/-- RCH_CORR_SEL. -/
def RCH_CORR_SEL : Reg := ⟨4718736, 0, 1, 0, 1, 32, true, [F.RCH_CORR_SEL_DIE, F.RCH_CORR_SEL_TIER, F.RCH_CORR_SEL_RET, F.RCH_CORR_SEL_RT]⟩
/-- RCH_CORR. -/
def RCH_CORR : Reg := ⟨4718744, 8, 2, 0, 1, 64, false, [F.RCH_CORR_OFFS]⟩
/-- RCH_CORR_TIME. -/
def RCH_CORR_TIME : Reg := ⟨4718760, 0, 1, 0, 1, 64, false, [F.RCH_CORR_TIME_TIME]⟩
/-- MCACHE_CTL. -/
def MCACHE_CTL : Reg := ⟨5767168, 0, 1, 0, 1, 32, false, [F.MCACHE_CTL_EN, F.MCACHE_CTL_INV_ALL]⟩
/-- MCACHE_CFG. -/
def MCACHE_CFG : Reg := ⟨5767172, 0, 1, 0, 1, 32, false, [F.MCACHE_CFG_SIZE_LOG2, F.MCACHE_CFG_WB_PCT]⟩
/-- MCACHE_STS. -/
def MCACHE_STS : Reg := ⟨5767176, 0, 1, 0, 1, 32, false, [F.MCACHE_STS_STATE, F.MCACHE_STS_STALE, F.MCACHE_STS_INV_BUSY, F.MCACHE_STS_ERR]⟩
/-- MCACHE_DIRTY. -/
def MCACHE_DIRTY : Reg := ⟨5767180, 0, 1, 0, 1, 32, false, [F.MCACHE_DIRTY_LINES]⟩
/-- MCACHE_INV_NS. -/
def MCACHE_INV_NS : Reg := ⟨5767184, 0, 1, 0, 1, 32, false, [F.MCACHE_INV_NS_VALUE]⟩
/-- MCACHE_INV_PG. -/
def MCACHE_INV_PG : Reg := ⟨5767188, 0, 1, 0, 1, 32, false, [F.MCACHE_INV_PG_VALUE]⟩
/-- MCACHE_INV_CNT. -/
def MCACHE_INV_CNT : Reg := ⟨5767192, 0, 1, 0, 1, 32, false, [F.MCACHE_INV_CNT_COUNT, F.MCACHE_INV_CNT_GO]⟩
/-- MCACHE_HIT. -/
def MCACHE_HIT : Reg := ⟨5767200, 0, 1, 0, 1, 32, false, [F.MCACHE_HIT_CNT]⟩
/-- MCACHE_MISS. -/
def MCACHE_MISS : Reg := ⟨5767204, 0, 1, 0, 1, 32, false, [F.MCACHE_MISS_CNT]⟩
/-- MCACHE_POISON. -/
def MCACHE_POISON : Reg := ⟨5767208, 0, 1, 0, 1, 32, false, [F.MCACHE_POISON_CNT]⟩
/-- MCACHE_ERR. -/
def MCACHE_ERR : Reg := ⟨5767212, 0, 1, 0, 1, 32, false, [F.MCACHE_ERR_TAGPAR, F.MCACHE_ERR_DATA_UE, F.MCACHE_ERR_DATA_CE]⟩
/-- FTL_JNL_CFG. -/
def FTL_JNL_CFG : Reg := ⟨5767424, 0, 1, 0, 1, 32, false, [F.FTL_JNL_CFG_COMMIT_US, F.FTL_JNL_CFG_CKPT_MIB, F.FTL_JNL_CFG_CKPT_S]⟩
/-- FTL_JNL_SEQ. -/
def FTL_JNL_SEQ : Reg := ⟨5767432, 0, 1, 0, 1, 64, false, [F.FTL_JNL_SEQ_SEQ]⟩
/-- FTL_JNL_STS. -/
def FTL_JNL_STS : Reg := ⟨5767440, 0, 1, 0, 1, 64, false, [F.FTL_JNL_STS_TAIL_KIB, F.FTL_JNL_STS_SINCE_MIB, F.FTL_JNL_STS_MAX_US]⟩
/-- FTL_GC_CFG. -/
def FTL_GC_CFG : Reg := ⟨5767680, 0, 1, 0, 1, 32, false, [F.FTL_GC_CFG_LOW, F.FTL_GC_CFG_CRIT, F.FTL_GC_CFG_GC_START, F.FTL_GC_CFG_ERASE_AHEAD]⟩
/-- FTL_STS. -/
def FTL_STS : Reg := ⟨5767684, 0, 1, 0, 1, 32, false, [F.FTL_STS_CFG_ERR, F.FTL_STS_CRIT_ANY]⟩
/-- FTL_GRP_FREE. -/
def FTL_GRP_FREE : Reg := ⟨5767936, 8, 64, 0, 1, 64, false, [F.FTL_GRP_FREE_FREE, F.FTL_GRP_FREE_ADMIT, F.FTL_GRP_FREE_LOW, F.FTL_GRP_FREE_CRIT, F.FTL_GRP_FREE_ERASED]⟩
/-- FTL_RELOC_CNT. -/
def FTL_RELOC_CNT : Reg := ⟨5768448, 4, 6, 0, 1, 32, false, [F.FTL_RELOC_CNT_CNT]⟩
/-- FTL_CONV. -/
def FTL_CONV : Reg := ⟨5768480, 0, 1, 0, 1, 64, false, [F.FTL_CONV_ROWS, F.FTL_CONV_UNITS]⟩
/-- CIP_CFG. -/
def CIP_CFG : Reg := ⟨7340032, 0, 1, 0, 1, 32, false, [F.CIP_CFG_RNG_STRICT]⟩
/-- CIP_STS. -/
def CIP_STS : Reg := ⟨7340036, 0, 1, 0, 1, 32, false, [F.CIP_STS_ROOT_OK, F.CIP_STS_RNG_FAIL, F.CIP_STS_SLOTS_USED]⟩
/-- CIP_UNIT_AVAIL. -/
def CIP_UNIT_AVAIL : Reg := ⟨7340040, 0, 1, 0, 1, 64, false, [F.CIP_UNIT_AVAIL_MASK]⟩
/-- CIP_FLT_INFO. -/
def CIP_FLT_INFO : Reg := ⟨7340048, 0, 1, 0, 1, 32, false, [F.CIP_FLT_INFO_VALID, F.CIP_FLT_INFO_KIND, F.CIP_FLT_INFO_SLOT_A, F.CIP_FLT_INFO_SLOT_B]⟩
/-- CIP_FLT_CNT. -/
def CIP_FLT_CNT : Reg := ⟨7340056, 0, 1, 0, 1, 32, false, [F.CIP_FLT_CNT_CNT]⟩
/-- CIP_DENY_CNT. -/
def CIP_DENY_CNT : Reg := ⟨7340060, 0, 1, 0, 1, 32, false, [F.CIP_DENY_CNT_CNT]⟩
/-- CIP_SLOT_SEL. -/
def CIP_SLOT_SEL : Reg := ⟨7340064, 0, 1, 0, 1, 32, true, [F.CIP_SLOT_SEL_SLOT]⟩
/-- CIP_SLOT_INFO. -/
def CIP_SLOT_INFO : Reg := ⟨7340072, 0, 1, 0, 1, 64, false, [F.CIP_SLOT_INFO_STATE, F.CIP_SLOT_INFO_PURPOSE, F.CIP_SLOT_INFO_SLICE, F.CIP_SLOT_INFO_NSID]⟩
/-- CIP_SLOT_GEN. -/
def CIP_SLOT_GEN : Reg := ⟨7340080, 0, 1, 0, 1, 64, false, [F.CIP_SLOT_GEN_GEN, F.CIP_SLOT_GEN_HOLD]⟩
/-- ETH_PORT_CFG. -/
def ETH_PORT_CFG : Reg := ⟨1048576, 65536, 8, 0, 1, 32, false, [F.ETH_PORT_CFG_MODE, F.ETH_PORT_CFG_PMD]⟩
/-- ETH_LINK_CFG. -/
def ETH_LINK_CFG : Reg := ⟨1048580, 65536, 8, 0, 1, 32, false, [F.ETH_LINK_CFG_UP_HOLD, F.ETH_LINK_CFG_FLAP_MAX, F.ETH_LINK_CFG_FLAP_HOLD]⟩
/-- ETH_PFC_CFG. -/
def ETH_PFC_CFG : Reg := ⟨1048584, 65536, 8, 0, 1, 32, false, [F.ETH_PFC_CFG_EN, F.ETH_PFC_CFG_REFRESH]⟩
/-- ETH_DSCP_MAP. -/
def ETH_DSCP_MAP : Reg := ⟨1048592, 65536, 8, 8, 3, 64, false, [F.ETH_DSCP_MAP_PRIO]⟩
/-- ETH_CC_CFG. -/
def ETH_CC_CFG : Reg := ⟨1048624, 65536, 8, 0, 1, 64, false, [F.ETH_CC_CFG_CNP_GAP, F.ETH_CC_CFG_CNP_PRIO, F.ETH_CC_CFG_T_ALPHA, F.ETH_CC_CFG_T_INC, F.ETH_CC_CFG_B_INC, F.ETH_CC_CFG_R_AI, F.ETH_CC_CFG_MIN_RATE]⟩
/-- ETH_QP_CFG. -/
def ETH_QP_CFG : Reg := ⟨1048632, 65536, 8, 0, 1, 32, false, [F.ETH_QP_CFG_ACK_TMO, F.ETH_QP_CFG_RETRY, F.ETH_QP_CFG_RNR_RETRY]⟩
/-- ETH_WAKE_CFG. -/
def ETH_WAKE_CFG : Reg := ⟨1048640, 65536, 8, 0, 1, 32, false, [F.ETH_WAKE_CFG_MODE]⟩
/-- ETH_WAKE_ID. -/
def ETH_WAKE_ID : Reg := ⟨1048648, 65536, 8, 0, 1, 64, false, [F.ETH_WAKE_ID_ID]⟩
/-- ETH_IP_CTL. -/
def ETH_IP_CTL : Reg := ⟨1049088, 65536, 8, 32, 32, 64, false, [F.ETH_IP_CTL_VALID, F.ETH_IP_CTL_V6, F.ETH_IP_CTL_SUB, F.ETH_IP_CTL_PREFIX, F.ETH_IP_CTL_VLAN]⟩
/-- ETH_IP_ADDR_LO. -/
def ETH_IP_ADDR_LO : Reg := ⟨1049096, 65536, 8, 32, 32, 64, false, [F.ETH_IP_ADDR_LO_ADDR]⟩
/-- ETH_IP_ADDR_HI. -/
def ETH_IP_ADDR_HI : Reg := ⟨1049104, 65536, 8, 32, 32, 64, false, [F.ETH_IP_ADDR_HI_ADDR]⟩
/-- ETH_SUB_STS. -/
def ETH_SUB_STS : Reg := ⟨1052672, 65536, 8, 256, 8, 32, false, [F.ETH_SUB_STS_LINK, F.ETH_SUB_STS_FEC_LOCK, F.ETH_SUB_STS_XOFF]⟩
/-- ETH_MAC. -/
def ETH_MAC : Reg := ⟨1052680, 65536, 8, 256, 8, 64, false, [F.ETH_MAC_ADDR]⟩
/-- ETH_RX_OVF. -/
def ETH_RX_OVF : Reg := ⟨1052688, 65536, 8, 256, 8, 32, false, [F.ETH_RX_OVF_CNT]⟩
/-- ETH_FEC_CORR. -/
def ETH_FEC_CORR : Reg := ⟨1052692, 65536, 8, 256, 8, 32, false, [F.ETH_FEC_CORR_CNT]⟩
/-- ETH_FEC_UNCORR. -/
def ETH_FEC_UNCORR : Reg := ⟨1052696, 65536, 8, 256, 8, 32, false, [F.ETH_FEC_UNCORR_CNT]⟩
/-- ETH_FLAP_CNT. -/
def ETH_FLAP_CNT : Reg := ⟨1052700, 65536, 8, 256, 8, 32, false, [F.ETH_FLAP_CNT_CNT]⟩
/-- ETH_CNP_TX. -/
def ETH_CNP_TX : Reg := ⟨1052704, 65536, 8, 256, 8, 32, false, [F.ETH_CNP_TX_CNT]⟩
/-- ETH_CNP_RX. -/
def ETH_CNP_RX : Reg := ⟨1052708, 65536, 8, 256, 8, 32, false, [F.ETH_CNP_RX_CNT]⟩
/-- ETH_RX_DROP_RATE. -/
def ETH_RX_DROP_RATE : Reg := ⟨1052720, 65536, 8, 256, 8, 32, false, [F.ETH_RX_DROP_RATE_CNT]⟩
/-- ETH_RX_DROP_FRAG. -/
def ETH_RX_DROP_FRAG : Reg := ⟨1052724, 65536, 8, 256, 8, 32, false, [F.ETH_RX_DROP_FRAG_CNT]⟩
/-- ETH_RX_DROP_CSUM. -/
def ETH_RX_DROP_CSUM : Reg := ⟨1052728, 65536, 8, 256, 8, 32, false, [F.ETH_RX_DROP_CSUM_CNT]⟩
/-- ETH_RX_DROP_OTHER. -/
def ETH_RX_DROP_OTHER : Reg := ⟨1052732, 65536, 8, 256, 8, 32, false, [F.ETH_RX_DROP_OTHER_CNT]⟩
/-- ETH_RX_DROP_ADDR. -/
def ETH_RX_DROP_ADDR : Reg := ⟨1052736, 65536, 8, 256, 8, 32, false, [F.ETH_RX_DROP_ADDR_CNT]⟩
/-- ETH_RX_DROP_HELD. -/
def ETH_RX_DROP_HELD : Reg := ⟨1052740, 65536, 8, 256, 8, 32, false, [F.ETH_RX_DROP_HELD_CNT]⟩
/-- PCX_CFG. -/
def PCX_CFG : Reg := ⟨2097152, 0, 1, 0, 1, 32, false, [F.PCX_CFG_BIFUR, F.PCX_CFG_CXL_EN, F.PCX_CFG_VF_SPLIT]⟩
/-- PCX_LINK_STS. -/
def PCX_LINK_STS : Reg := ⟨2097160, 4, 2, 0, 1, 32, false, [F.PCX_LINK_STS_UP, F.PCX_LINK_STS_SPEED, F.PCX_LINK_STS_WIDTH, F.PCX_LINK_STS_FLIT, F.PCX_LINK_STS_L0P_W, F.PCX_LINK_STS_DOWN_CNT]⟩
/-- PCX_SRIOV_CFG. -/
def PCX_SRIOV_CFG : Reg := ⟨2097168, 4, 2, 0, 1, 32, false, [F.PCX_SRIOV_CFG_VF_VEC]⟩
/-- PCX_SRIOV_STS. -/
def PCX_SRIOV_STS : Reg := ⟨2097176, 4, 2, 0, 1, 32, false, [F.PCX_SRIOV_STS_VF_S, F.PCX_SRIOV_STS_VEC_SHORT, F.PCX_SRIOV_STS_NUMVFS]⟩
/-- PCX_VEC_USE. -/
def PCX_VEC_USE : Reg := ⟨2097184, 0, 1, 0, 1, 32, false, [F.PCX_VEC_USE_USED]⟩
/-- PCX_CXL_CFG. -/
def PCX_CXL_CFG : Reg := ⟨2097192, 0, 1, 0, 1, 32, false, [F.PCX_CXL_CFG_SIZE, F.PCX_CXL_CFG_PERSIST]⟩
/-- PCX_CXL_STS. -/
def PCX_CXL_STS : Reg := ⟨2097196, 0, 1, 0, 1, 32, false, [F.PCX_CXL_STS_ACTIVE, F.PCX_CXL_STS_HDM, F.PCX_CXL_STS_GPF, F.PCX_CXL_STS_DIRTY_MIB]⟩
/-- PCX_RST_CNT. -/
def PCX_RST_CNT : Reg := ⟨2097200, 0, 1, 0, 1, 32, false, [F.PCX_RST_CNT_PERST, F.PCX_RST_CNT_FLR]⟩
/-- PCX_AER_CNT. -/
def PCX_AER_CNT : Reg := ⟨2097208, 0, 1, 0, 1, 32, false, [F.PCX_AER_CNT_COR, F.PCX_AER_CNT_UNCOR, F.PCX_AER_CNT_POISON_RX]⟩
/-- PCX_FN_SEL. -/
def PCX_FN_SEL : Reg := ⟨2097216, 0, 1, 0, 1, 32, true, [F.PCX_FN_SEL_FN]⟩
/-- PCX_FN_INFO. -/
def PCX_FN_INFO : Reg := ⟨2097224, 0, 1, 0, 1, 64, false, [F.PCX_FN_INFO_PRESENT, F.PCX_FN_INFO_BME, F.PCX_FN_INFO_PASID_EN, F.PCX_FN_INFO_RDY, F.PCX_FN_INFO_FLR, F.PCX_FN_INFO_VEC, F.PCX_FN_INFO_QUEUES, F.PCX_FN_INFO_BINDS]⟩
/-- DRC_CFG. -/
def DRC_CFG : Reg := ⟨7864320, 0, 1, 0, 1, 32, false, [F.DRC_CFG_MTS, F.DRC_CFG_RDIMM, F.DRC_CFG_X8, F.DRC_CFG_DUAL, F.DRC_CFG_D32G, F.DRC_CFG_CAP_GIB]⟩
/-- DRC_CH_STS. -/
def DRC_CH_STS : Reg := ⟨7864328, 4, 8, 0, 1, 32, false, [F.DRC_CH_STS_STATE, F.DRC_CH_STS_SREF, F.DRC_CH_STS_DOUBLE, F.DRC_CH_STS_MR4_MAX]⟩
/-- DRC_BANK_HASH. -/
def DRC_BANK_HASH : Reg := ⟨7864384, 8, 10, 0, 1, 64, false, [F.DRC_BANK_HASH_MASK]⟩
/-- DRC_PORT_TGT. -/
def DRC_PORT_TGT : Reg := ⟨7864480, 4, 5, 0, 1, 32, false, [F.DRC_PORT_TGT_TGT_NS]⟩
/-- DRC_SCHED_CFG. -/
def DRC_SCHED_CFG : Reg := ⟨7864512, 0, 1, 0, 1, 32, false, [F.DRC_SCHED_CFG_WR_HI, F.DRC_SCHED_CFG_WR_LO, F.DRC_SCHED_CFG_STREAK]⟩
/-- DRC_REF_CFG. -/
def DRC_REF_CFG : Reg := ⟨7864516, 0, 1, 0, 1, 32, false, [F.DRC_REF_CFG_MODE, F.DRC_REF_CFG_ACT_TH, F.DRC_REF_CFG_POLL]⟩
/-- DRC_SCRUB_CFG. -/
def DRC_SCRUB_CFG : Reg := ⟨7864520, 0, 1, 0, 1, 32, false, [F.DRC_SCRUB_CFG_EN, F.DRC_SCRUB_CFG_PERIOD, F.DRC_SCRUB_CFG_PASS_PCT]⟩
/-- DRC_ECC_CNT. -/
def DRC_ECC_CNT : Reg := ⟨7864576, 4, 8, 0, 1, 32, false, [F.DRC_ECC_CNT_CE, F.DRC_ECC_CNT_UE]⟩
/-- DRC_ECC_LOG. -/
def DRC_ECC_LOG : Reg := ⟨7864704, 0, 1, 0, 1, 32, false, [F.DRC_ECC_LOG_VALID, F.DRC_ECC_LOG_UE, F.DRC_ECC_LOG_DEV, F.DRC_ECC_LOG_POISON, F.DRC_ECC_LOG_SYM]⟩
/-- DRC_ECC_ADDR. -/
def DRC_ECC_ADDR : Reg := ⟨7864712, 0, 1, 0, 1, 64, false, [F.DRC_ECC_ADDR_BURST]⟩
/-- DRC_RFM_CNT. -/
def DRC_RFM_CNT : Reg := ⟨7864720, 4, 8, 0, 1, 32, false, [F.DRC_RFM_CNT_TABLE, F.DRC_RFM_CNT_RAA]⟩
/-- DRC_FILL. -/
def DRC_FILL : Reg := ⟨7864768, 0, 1, 0, 1, 32, false, [F.DRC_FILL_PCT, F.DRC_FILL_DONE]⟩
/-- PUP_STS. -/
def PUP_STS : Reg := ⟨458752, 0, 1, 0, 1, 32, false, [F.PUP_STS_ACTIVE, F.PUP_STS_SPARE, F.PUP_STS_BANK, F.PUP_STS_SWAP, F.PUP_STS_MASKED]⟩
/-- PUP_FAIL. -/
def PUP_FAIL : Reg := ⟨458760, 0, 1, 0, 1, 32, false, [F.PUP_FAIL_COUNT, F.PUP_FAIL_RSN]⟩
/-- PUP_FAIL_TIME. -/
def PUP_FAIL_TIME : Reg := ⟨458768, 0, 1, 0, 1, 64, false, [F.PUP_FAIL_TIME_TIME]⟩
/-- PUP_SWAP. -/
def PUP_SWAP : Reg := ⟨458776, 0, 1, 0, 1, 64, false, [F.PUP_SWAP_ERR, F.PUP_SWAP_DUR]⟩
/-- PUP_WDT. -/
def PUP_WDT : Reg := ⟨458784, 0, 1, 0, 1, 32, false, [F.PUP_WDT_PERIOD, F.PUP_WDT_COMMIT_MS]⟩
/-- PUP_TMR_CMP. -/
def PUP_TMR_CMP : Reg := ⟨459008, 16, 16, 0, 1, 64, false, [F.PUP_TMR_CMP_CMP]⟩
/-- PUP_TMR_CTL. -/
def PUP_TMR_CTL : Reg := ⟨459016, 16, 16, 0, 1, 64, false, [F.PUP_TMR_CTL_EN, F.PUP_TMR_CTL_PERIODIC, F.PUP_TMR_CTL_PERIOD]⟩
/-- PUP_MBX_STS. -/
def PUP_MBX_STS : Reg := ⟨459264, 0, 1, 0, 1, 64, false, [F.PUP_MBX_STS_PENDING, F.PUP_MBX_STS_INSVC, F.PUP_MBX_STS_SEQ]⟩
/-- PUP_EDGE_EN. -/
def PUP_EDGE_EN : Reg := ⟨459272, 8, 2, 0, 1, 64, false, [F.PUP_EDGE_EN_EN]⟩
/-- PUP_PAR_CNT. -/
def PUP_PAR_CNT : Reg := ⟨459296, 0, 1, 0, 1, 32, false, [F.PUP_PAR_CNT_ITCM, F.PUP_PAR_CNT_DTCM, F.PUP_PAR_CNT_DMA]⟩
/-- PUP_PAR_LOG. -/
def PUP_PAR_LOG : Reg := ⟨459304, 0, 1, 0, 1, 32, false, [F.PUP_PAR_LOG_VALID, F.PUP_PAR_LOG_MEM, F.PUP_PAR_LOG_ADDR]⟩
/-- PUP_DMA_STS. -/
def PUP_DMA_STS : Reg := ⟨459328, 4, 8, 0, 1, 32, false, [F.PUP_DMA_STS_STATE, F.PUP_DMA_STS_DONE]⟩
/-- PUP_VREG. -/
def PUP_VREG : Reg := ⟨459392, 0, 1, 0, 1, 32, false, [F.PUP_VREG_TARGET_MV, F.PUP_VREG_READ_MV, F.PUP_VREG_FAIL]⟩
/-- PUP_MI_CFG. -/
def PUP_MI_CFG : Reg := ⟨459400, 0, 1, 0, 1, 32, false, [F.PUP_MI_CFG_SMB_ADDR, F.PUP_MI_CFG_SMB_EN, F.PUP_MI_CFG_VDM_EN]⟩
/-- PUP_SWEEP_STS. -/
def PUP_SWEEP_STS : Reg := ⟨459520, 8, 2, 0, 1, 64, false, [F.PUP_SWEEP_STS_STATE, F.PUP_SWEEP_STS_DONE, F.PUP_SWEEP_STS_UNREACHED, F.PUP_SWEEP_STS_ID]⟩
/-- PUP_SWEEP_TIME. -/
def PUP_SWEEP_TIME : Reg := ⟨459536, 8, 2, 0, 1, 64, false, [F.PUP_SWEEP_TIME_START]⟩
/-- IMG_STS. -/
def IMG_STS : Reg := ⟨65536, 0, 1, 0, 1, 32, false, [F.IMG_STS_PHASE, F.IMG_STS_STEP, F.IMG_STS_SLOT, F.IMG_STS_TRIAL, F.IMG_STS_FALLBACK, F.IMG_STS_ERR]⟩
/-- IMG_SLOT_STS. -/
def IMG_SLOT_STS : Reg := ⟨65544, 8, 2, 0, 1, 64, false, [F.IMG_SLOT_STS_RESULT, F.IMG_SLOT_STS_SVN, F.IMG_SLOT_STS_LEN]⟩
/-- IMG_RUN_ID. -/
def IMG_RUN_ID : Reg := ⟨65560, 0, 1, 0, 1, 64, false, [F.IMG_RUN_ID_BUILD]⟩
/-- IMG_DIR. -/
def IMG_DIR : Reg := ⟨65568, 0, 1, 0, 1, 64, false, [F.IMG_DIR_ACTIVE, F.IMG_DIR_TRIAL, F.IMG_DIR_TRIES, F.IMG_DIR_SEQ]⟩
/-- IMG_SVN. -/
def IMG_SVN : Reg := ⟨65576, 0, 1, 0, 1, 32, false, [F.IMG_SVN_FUSE, F.IMG_SVN_PENDING, F.IMG_SVN_REVOKED]⟩
/-- IMG_CTL. -/
def IMG_CTL : Reg := ⟨65584, 0, 1, 0, 1, 32, false, [F.IMG_CTL_ARB_EN, F.IMG_CTL_NEXT_PHASE]⟩
/-- IMG_UPD_STS. -/
def IMG_UPD_STS : Reg := ⟨65592, 0, 1, 0, 1, 64, false, [F.IMG_UPD_STS_STATE, F.IMG_UPD_STS_ERR, F.IMG_UPD_STS_BYTES]⟩
/-- IMG_TIME. -/
def IMG_TIME : Reg := ⟨65600, 0, 1, 0, 1, 64, false, [F.IMG_TIME_ADMIN_MS, F.IMG_TIME_READY_MS, F.IMG_TIME_REPLAY_MS]⟩
/-- PWR_CFG. -/
def PWR_CFG : Reg := ⟨131072, 0, 1, 0, 1, 32, false, [F.PWR_CFG_JACK_EN, F.PWR_CFG_LTR_EN, F.PWR_CFG_BG_HOLD, F.PWR_CFG_IDLE_MS, F.PWR_CFG_FAB_TOL_US]⟩
/-- PWR_STS. -/
def PWR_STS : Reg := ⟨131076, 0, 1, 0, 1, 32, false, [F.PWR_STS_STATE, F.PWR_STS_JACK_WAKE, F.PWR_STS_TRIP_LAST, F.PWR_STS_NVME_PS]⟩
/-- PWR_STEP. -/
def PWR_STEP : Reg := ⟨131080, 0, 1, 0, 1, 32, false, [F.PWR_STEP_STEP, F.PWR_STEP_THERM, F.PWR_STEP_RSN, F.PWR_STEP_FLOOR]⟩
/-- PWR_HOST_STEP. -/
def PWR_HOST_STEP : Reg := ⟨131084, 0, 1, 0, 1, 32, false, [F.PWR_HOST_STEP_STEP]⟩
/-- PWR_WAKE_EN. -/
def PWR_WAKE_EN : Reg := ⟨131088, 0, 1, 0, 1, 32, false, [F.PWR_WAKE_EN_PCIE, F.PWR_WAKE_EN_SMB, F.PWR_WAKE_EN_TS]⟩
/-- PWR_WAKE_SRC. -/
def PWR_WAKE_SRC : Reg := ⟨131096, 0, 1, 0, 1, 32, false, [F.PWR_WAKE_SRC_CODE, F.PWR_WAKE_SRC_INDEX, F.PWR_WAKE_SRC_FROM, F.PWR_WAKE_SRC_REASON]⟩
/-- PWR_WAKE_TIME. -/
def PWR_WAKE_TIME : Reg := ⟨131104, 0, 1, 0, 1, 64, false, [F.PWR_WAKE_TIME_TIME]⟩
/-- PWR_LTR. -/
def PWR_LTR : Reg := ⟨131112, 0, 1, 0, 1, 32, false, [F.PWR_LTR_TOL_NS]⟩
/-- PWR_ENTRY_CNT. -/
def PWR_ENTRY_CNT : Reg := ⟨131120, 4, 4, 0, 1, 32, false, [F.PWR_ENTRY_CNT_CNT]⟩
/-- PWR_STEP_TBL. -/
def PWR_STEP_TBL : Reg := ⟨131136, 8, 16, 0, 1, 64, false, [F.PWR_STEP_TBL_LIMIT_W, F.PWR_STEP_TBL_F, F.PWR_STEP_TBL_WIDTH, F.PWR_STEP_TBL_LANES]⟩
/-- PWR_PACE. -/
def PWR_PACE : Reg := ⟨131328, 4, 32, 0, 1, 32, false, [F.PWR_PACE_PACE, F.PWR_PACE_MIN]⟩
/-- PWR_PACE_MIN. -/
def PWR_PACE_MIN : Reg := ⟨131456, 0, 1, 0, 1, 32, false, [F.PWR_PACE_MIN_MIN, F.PWR_PACE_MIN_WHICH, F.PWR_PACE_MIN_LOW]⟩
/-- THM_CFG. -/
def THM_CFG : Reg := ⟨196608, 0, 1, 0, 1, 32, false, [F.THM_CFG_HYST, F.THM_CFG_DRAM_STEP, F.THM_CFG_UP_MS, F.THM_CFG_FAILED_STEP]⟩
/-- THM_STS. -/
def THM_STS : Reg := ⟨196612, 0, 1, 0, 1, 32, false, [F.THM_STS_TJ_MAX, F.THM_STS_HOT_IDX, F.THM_STS_FAILED]⟩
/-- THM_CURVE. -/
def THM_CURVE : Reg := ⟨196672, 4, 16, 0, 1, 32, false, [F.THM_CURVE_T_ENTER]⟩
/-- THM_SENS. -/
def THM_SENS : Reg := ⟨196864, 4, 64, 0, 1, 32, false, [F.THM_SENS_TEMP, F.THM_SENS_STATE, F.THM_SENS_SUSP_N, F.THM_SENS_RAW]⟩
/-- THM_TS_CFG. -/
def THM_TS_CFG : Reg := ⟨197120, 16, 8, 0, 1, 32, false, [F.THM_TS_CFG_KIND, F.THM_TS_CFG_LIMIT, F.THM_TS_CFG_STEP, F.THM_TS_CFG_ALERT, F.THM_TS_CFG_FAIL_VAL]⟩
/-- THM_TS_STS. -/
def THM_TS_STS : Reg := ⟨197128, 16, 8, 0, 1, 32, false, [F.THM_TS_STS_TEMP, F.THM_TS_STS_STATE, F.THM_TS_STS_ALERT]⟩
/-- THM_TRIP. -/
def THM_TRIP : Reg := ⟨197376, 0, 1, 0, 1, 32, false, [F.THM_TRIP_COUNT, F.THM_TRIP_SENS]⟩
/-- TIM_NOW. -/
def TIM_NOW : Reg := ⟨262144, 0, 1, 0, 1, 64, false, [F.TIM_NOW_NS]⟩
/-- TIM_NOW_FRAC. -/
def TIM_NOW_FRAC : Reg := ⟨262152, 0, 1, 0, 1, 32, true, [F.TIM_NOW_FRAC_FRAC]⟩
/-- TIM_CFG. -/
def TIM_CFG : Reg := ⟨262160, 0, 1, 0, 1, 32, false, [F.TIM_CFG_PPS_EN, F.TIM_CFG_SLEW_PPM, F.TIM_CFG_HOLD_MS, F.TIM_CFG_OUT_N]⟩
/-- TIM_PPS_OFS. -/
def TIM_PPS_OFS : Reg := ⟨262164, 0, 1, 0, 1, 32, false, [F.TIM_PPS_OFS_OFS]⟩
/-- TIM_STS. -/
def TIM_STS : Reg := ⟨262168, 0, 1, 0, 1, 32, false, [F.TIM_STS_PPS, F.TIM_STS_SRC, F.TIM_STS_SLEWING, F.TIM_STS_SET_PEND]⟩
/-- TIM_SET. -/
def TIM_SET : Reg := ⟨262176, 0, 1, 0, 1, 64, false, [F.TIM_SET_SEC, F.TIM_SET_GO]⟩
/-- TIM_PPS_LAST. -/
def TIM_PPS_LAST : Reg := ⟨262184, 0, 1, 0, 1, 64, false, [F.TIM_PPS_LAST_NS]⟩
/-- TIM_PPS_ERR. -/
def TIM_PPS_ERR : Reg := ⟨262192, 0, 1, 0, 1, 32, false, [F.TIM_PPS_ERR_VALUE]⟩
/-- TIM_FREQ. -/
def TIM_FREQ : Reg := ⟨262196, 0, 1, 0, 1, 32, false, [F.TIM_FREQ_VALUE]⟩
/-- TIM_PPS_CNT. -/
def TIM_PPS_CNT : Reg := ⟨262200, 0, 1, 0, 1, 32, false, [F.TIM_PPS_CNT_ACCEPT, F.TIM_PPS_CNT_OUTSIDE, F.TIM_PPS_CNT_STEPS]⟩
/-- EVR_CTL. -/
def EVR_CTL : Reg := ⟨327680, 0, 1, 0, 1, 32, false, [F.EVR_CTL_EN, F.EVR_CTL_CLEAR, F.EVR_CTL_FLUSH]⟩
/-- EVR_STS. -/
def EVR_STS : Reg := ⟨327684, 0, 1, 0, 1, 32, false, [F.EVR_STS_FULL, F.EVR_STS_NAND_BUSY, F.EVR_STS_NOR_BUSY, F.EVR_STS_NOR_PEND, F.EVR_STS_USED_KIB]⟩
/-- EVR_COUNT. -/
def EVR_COUNT : Reg := ⟨327688, 0, 1, 0, 1, 32, false, [F.EVR_COUNT_CNT]⟩
/-- EVR_LOST. -/
def EVR_LOST : Reg := ⟨327692, 0, 1, 0, 1, 32, false, [F.EVR_LOST_CNT]⟩
/-- EVR_FIRST. -/
def EVR_FIRST : Reg := ⟨327696, 0, 1, 0, 1, 64, false, [F.EVR_FIRST_NS]⟩
/-- EVR_NOR. -/
def EVR_NOR : Reg := ⟨327704, 0, 1, 0, 1, 64, false, [F.EVR_NOR_SEQ, F.EVR_NOR_NEXT, F.EVR_NOR_ERASED]⟩
/-- EVR_FLUSH_CNT. -/
def EVR_FLUSH_CNT : Reg := ⟨327712, 0, 1, 0, 1, 32, false, [F.EVR_FLUSH_CNT_FAULT, F.EVR_FLUSH_CNT_SUMMARY]⟩
/-- RAS_CFG. -/
def RAS_CFG : Reg := ⟨393216, 0, 1, 0, 1, 32, false, [F.RAS_CFG_RET_PASS, F.RAS_CFG_FENCE_MAX, F.RAS_CFG_CE_HARD, F.RAS_CFG_CE_RATE]⟩
/-- RAS_STS. -/
def RAS_STS : Reg := ⟨393220, 0, 1, 0, 1, 32, false, [F.RAS_STS_DEV_FAULT, F.RAS_STS_CE_FULL, F.RAS_STS_IMG_DAMAGED, F.RAS_STS_CRIT_WARN]⟩
/-- RAS_CE_SEL. -/
def RAS_CE_SEL : Reg := ⟨393224, 0, 1, 0, 1, 32, true, [F.RAS_CE_SEL_INDEX]⟩
/-- RAS_CE_ENT. -/
def RAS_CE_ENT : Reg := ⟨393232, 0, 1, 0, 1, 64, false, [F.RAS_CE_ENT_VALID, F.RAS_CE_ENT_MEM, F.RAS_CE_ENT_ADDR, F.RAS_CE_ENT_COUNT]⟩
/-- RAS_CE_FIRST. -/
def RAS_CE_FIRST : Reg := ⟨393240, 0, 1, 0, 1, 64, false, [F.RAS_CE_FIRST_TIME]⟩
/-- RAS_CE_LAST. -/
def RAS_CE_LAST : Reg := ⟨393248, 0, 1, 0, 1, 64, false, [F.RAS_CE_LAST_TIME]⟩
/-- RAS_CE_LOST. -/
def RAS_CE_LOST : Reg := ⟨393256, 0, 1, 0, 1, 32, false, [F.RAS_CE_LOST_CNT]⟩
/-- RAS_MEM_CNT. -/
def RAS_MEM_CNT : Reg := ⟨393280, 4, 14, 0, 1, 32, false, [F.RAS_MEM_CNT_CE, F.RAS_MEM_CNT_UE]⟩
/-- RAS_REPAIR. -/
def RAS_REPAIR : Reg := ⟨393344, 0, 1, 0, 1, 32, false, [F.RAS_REPAIR_FUSED, F.RAS_REPAIR_SOFT]⟩
/-- RAS_UNIT_SEL. -/
def RAS_UNIT_SEL : Reg := ⟨393352, 0, 1, 0, 1, 32, true, [F.RAS_UNIT_SEL_KIND, F.RAS_UNIT_SEL_INDEX]⟩
/-- RAS_UNIT_INFO. -/
def RAS_UNIT_INFO : Reg := ⟨393360, 0, 1, 0, 1, 32, false, [F.RAS_UNIT_INFO_STATE, F.RAS_UNIT_INFO_PASSES, F.RAS_UNIT_INFO_FENCES, F.RAS_UNIT_INFO_RSN, F.RAS_UNIT_INFO_THIRD]⟩
/-- RAS_UNIT_TIME. -/
def RAS_UNIT_TIME : Reg := ⟨393368, 0, 1, 0, 1, 64, false, [F.RAS_UNIT_TIME_TIME]⟩
/-- RAS_UNIT_CTL. -/
def RAS_UNIT_CTL : Reg := ⟨393376, 0, 1, 0, 1, 32, false, [F.RAS_UNIT_CTL_KIND, F.RAS_UNIT_CTL_INDEX, F.RAS_UNIT_CTL_FENCE, F.RAS_UNIT_CTL_RELEASE]⟩
/-- RAS_CAP. -/
def RAS_CAP : Reg := ⟨393392, 0, 1, 0, 1, 64, false, [F.RAS_CAP_INGEST_GBS, F.RAS_CAP_LINK_EIGHTHS, F.RAS_CAP_DIES, F.RAS_CAP_LANES, F.RAS_CAP_DECODERS]⟩
/-- RAS_EVQ. -/
def RAS_EVQ : Reg := ⟨393408, 0, 1, 0, 1, 32, false, [F.RAS_EVQ_PENDING, F.RAS_EVQ_MASKED]⟩
/-- RAS_EVQ_LOST. -/
def RAS_EVQ_LOST : Reg := ⟨393412, 0, 1, 0, 1, 32, false, [F.RAS_EVQ_LOST_CNT]⟩
/-- RAS_ERRLOG. -/
def RAS_ERRLOG : Reg := ⟨393416, 0, 1, 0, 1, 64, false, [F.RAS_ERRLOG_COUNT]⟩
/-- GEN_ID. -/
def GEN_ID : Reg := ⟨0, 0, 1, 0, 1, 32, false, [F.GEN_ID_DEVICE, F.GEN_ID_VENDOR]⟩
/-- GEN_REV. -/
def GEN_REV : Reg := ⟨4, 0, 1, 0, 1, 32, false, [F.GEN_REV_STEP_MAJ, F.GEN_REV_STEP_MIN, F.GEN_REV_ROM, F.GEN_REV_FAMILY]⟩
/-- GEN_SERIAL. -/
def GEN_SERIAL : Reg := ⟨8, 0, 1, 0, 1, 64, false, [F.GEN_SERIAL_SERIAL]⟩
/-- GEN_FW. -/
def GEN_FW : Reg := ⟨16, 0, 1, 0, 1, 64, false, [F.GEN_FW_FR]⟩
/-- GEN_CAP0. -/
def GEN_CAP0 : Reg := ⟨24, 0, 1, 0, 1, 64, false, [F.GEN_CAP0_PORTS, F.GEN_CAP0_LINKS, F.GEN_CAP0_LANES, F.GEN_CAP0_DECODERS, F.GEN_CAP0_SLICES, F.GEN_CAP0_CXL, F.GEN_CAP0_BIFUR]⟩
/-- GEN_CAP1. -/
def GEN_CAP1 : Reg := ⟨32, 0, 1, 0, 1, 64, false, [F.GEN_CAP1_QPAIRS, F.GEN_CAP1_RCQP, F.GEN_CAP1_NAMESPACES, F.GEN_CAP1_ACTIVE_ZONES]⟩
/-- GEN_CAP2. -/
def GEN_CAP2 : Reg := ⟨40, 0, 1, 0, 1, 64, false, [F.GEN_CAP2_DIES, F.GEN_CAP2_STREAMS, F.GEN_CAP2_KEY_SLOTS, F.GEN_CAP2_DIE_GROUPS]⟩
/-- GEN_CTL. -/
def GEN_CTL : Reg := ⟨64, 0, 1, 0, 1, 32, false, [F.GEN_CTL_CTRL_RESET, F.GEN_CTL_KEY]⟩
/-- GEN_STS. -/
def GEN_STS : Reg := ⟨68, 0, 1, 0, 1, 32, false, [F.GEN_STS_RST_PEND, F.GEN_STS_WR_IGN, F.GEN_STS_MI_AVAIL, F.GEN_STS_CAUSE]⟩
/-- GEN_RST_CNT. -/
def GEN_RST_CNT : Reg := ⟨72, 0, 1, 0, 1, 32, false, [F.GEN_RST_CNT_CTRL]⟩
/-- GEN_SCRATCH. -/
def GEN_SCRATCH : Reg := ⟨80, 8, 4, 0, 1, 64, false, [F.GEN_SCRATCH_DATA]⟩
/-- GEN_ACC_ERR. -/
def GEN_ACC_ERR : Reg := ⟨112, 0, 1, 0, 1, 32, false, [F.GEN_ACC_ERR_BAR0, F.GEN_ACC_ERR_MI]⟩
/-- GEN_ACC_LOG. -/
def GEN_ACC_LOG : Reg := ⟨120, 0, 1, 0, 1, 64, false, [F.GEN_ACC_LOG_VALID, F.GEN_ACC_LOG_PATH, F.GEN_ACC_LOG_KIND, F.GEN_ACC_LOG_WR, F.GEN_ACC_LOG_ADDR]⟩
/-- GEN_BLK. -/
def GEN_BLK : Reg := ⟨256, 8, 21, 0, 1, 64, false, [F.GEN_BLK_BASE, F.GEN_BLK_STRIDE_LOG2, F.GEN_BLK_COUNT, F.GEN_BLK_VERSION, F.GEN_BLK_INDEX]⟩

end R

/-- A part of the register table. -/
def regTable0 : List Reg := [R.SLI_STS, R.SLI_GEN, R.SLI_STALE_CNT, R.SLI_CAP_QUOTA, R.SLI_CAP_USED, R.SLI_BW, R.SLI_WEIGHT, R.SLI_AZ, R.SLI_AZ_COUNT, R.SLI_RES, R.SLI_RES_USE, R.SLI_NS, R.SLI_DGMAP, R.SLI_XLT_FLT_INFO, R.SLI_XLT_FLT_ADDR, R.SLI_XLT_FLT_CNT, R.LGR_CFG, R.LGR_STS, R.LGR_EPOCH, R.LGR_DEV_CAP, R.LGR_DEV_ADMIT, R.LGR_LC_TGT, R.LGR_BG_USE, R.LGR_EVT_VEC, R.LGR_QSEL, R.LGR_QINFO, R.LGR_QINFO2, R.LGR_SL_CHG, R.LGR_SL_LAST, R.LGR_SL_NORM]
/-- A part of the register table. -/
def regTable1 : List Reg := [R.LGR_SL_BYTES, R.LGR_SL_DLMISS, R.ZON_CAP, R.ZON_ACTIVE, R.ZON_DIRECT, R.ZON_CFG, R.ZON_NSSEL, R.ZON_NSINFO, R.ZON_HOLD_FAIL, R.ZON_DEV_XN, R.ZON_ENT0, R.ZON_ENT1, R.ZON_ENT2, R.ZON_ENT3, R.ZON_ENT4, R.ZON_ENT5, R.ZON_ENT6, R.ZON_ENT7, R.FRL_LSTS, R.FRL_LBYTES_IN, R.FRL_LBYTES_OUT, R.FRL_LREISSUE, R.FRL_SSEL, R.FRL_SINFO, R.FRL_SPOS, R.FRL_SFRAME, R.FRL_SCNT, R.FRL_UNMATCHED, R.FRL_REORDER_USE, R.FRL_LANE_AVAIL]
/-- A part of the register table. -/
def regTable2 : List Reg := [R.MED_STG_CFG, R.MED_STG_STS, R.MED_PSLOT_STS, R.MED_SPILL_CFG, R.MED_WIN_CFG, R.MED_WIN_STS, R.MED_PF_CFG, R.MED_PF_STS, R.MED_PF_CNT, R.RDN_CFG, R.RDN_STS, R.RDN_RBLD_CFG, R.RDN_RBLD_STS, R.RDN_RBLD_BYTES, R.RDN_SUBST, R.RDN_LOST_CNT, R.RDN_LOST_SEL, R.RDN_LOST_ENT, R.RDN_LOST_TIME, R.RDN_GRP_SEL, R.RDN_GRP_INFO, R.RDN_RSHP_STS, R.RDN_RA_CNT, R.RDN_DEG_CNT, R.RDN_UNREACH_CNT, R.KZL_CTL, R.KZL_STS, R.KZL_UNREACH, R.KZL_BRK_TIME, R.KZL_BID]
/-- A part of the register table. -/
def regTable3 : List Reg := [R.KZL_BSER, R.KZL_FEC_CNT, R.KZL_REPLAY_CNT, R.KZL_LOCK_CNT, R.KZL_LANE, R.MED_SCHED_CFG, R.MED_VFY_CFG, R.MED_RET_CFG, R.MED_DESC, R.MED_WEAR, R.MED_DIE_RETIRE, R.MED_RA_DENY, R.MED_TMO_CNT, R.MED_VFY_FAIL, R.MED_DIE_STS, R.MED_HLTH_SEL, R.MED_HLTH_BLK, R.MED_HLTH_DIE, R.MED_HLTH_ERS, R.MED_HLTH_STS, R.RCH_CFG, R.RCH_PATROL_CFG, R.RCH_PATROL_STS, R.RCH_PATROL_CNT, R.RCH_TIER_CFG, R.RCH_TIER_CNT, R.RCH_TAIL_CFG, R.RCH_TAIL_STS, R.RCH_LADDER_CNT, R.RCH_JUMP_CNT]
/-- A part of the register table. -/
def regTable4 : List Reg := [R.RCH_DEC_AVAIL, R.RCH_DEC_STS, R.RCH_SWEEP_CFG, R.RCH_CORR_SEL, R.RCH_CORR, R.RCH_CORR_TIME, R.MCACHE_CTL, R.MCACHE_CFG, R.MCACHE_STS, R.MCACHE_DIRTY, R.MCACHE_INV_NS, R.MCACHE_INV_PG, R.MCACHE_INV_CNT, R.MCACHE_HIT, R.MCACHE_MISS, R.MCACHE_POISON, R.MCACHE_ERR, R.FTL_JNL_CFG, R.FTL_JNL_SEQ, R.FTL_JNL_STS, R.FTL_GC_CFG, R.FTL_STS, R.FTL_GRP_FREE, R.FTL_RELOC_CNT, R.FTL_CONV, R.CIP_CFG, R.CIP_STS, R.CIP_UNIT_AVAIL, R.CIP_FLT_INFO, R.CIP_FLT_CNT]
/-- A part of the register table. -/
def regTable5 : List Reg := [R.CIP_DENY_CNT, R.CIP_SLOT_SEL, R.CIP_SLOT_INFO, R.CIP_SLOT_GEN, R.ETH_PORT_CFG, R.ETH_LINK_CFG, R.ETH_PFC_CFG, R.ETH_DSCP_MAP, R.ETH_CC_CFG, R.ETH_QP_CFG, R.ETH_WAKE_CFG, R.ETH_WAKE_ID, R.ETH_IP_CTL, R.ETH_IP_ADDR_LO, R.ETH_IP_ADDR_HI, R.ETH_SUB_STS, R.ETH_MAC, R.ETH_RX_OVF, R.ETH_FEC_CORR, R.ETH_FEC_UNCORR, R.ETH_FLAP_CNT, R.ETH_CNP_TX, R.ETH_CNP_RX, R.ETH_RX_DROP_RATE, R.ETH_RX_DROP_FRAG, R.ETH_RX_DROP_CSUM, R.ETH_RX_DROP_OTHER, R.ETH_RX_DROP_ADDR, R.ETH_RX_DROP_HELD, R.PCX_CFG]
/-- A part of the register table. -/
def regTable6 : List Reg := [R.PCX_LINK_STS, R.PCX_SRIOV_CFG, R.PCX_SRIOV_STS, R.PCX_VEC_USE, R.PCX_CXL_CFG, R.PCX_CXL_STS, R.PCX_RST_CNT, R.PCX_AER_CNT, R.PCX_FN_SEL, R.PCX_FN_INFO, R.DRC_CFG, R.DRC_CH_STS, R.DRC_BANK_HASH, R.DRC_PORT_TGT, R.DRC_SCHED_CFG, R.DRC_REF_CFG, R.DRC_SCRUB_CFG, R.DRC_ECC_CNT, R.DRC_ECC_LOG, R.DRC_ECC_ADDR, R.DRC_RFM_CNT, R.DRC_FILL, R.PUP_STS, R.PUP_FAIL, R.PUP_FAIL_TIME, R.PUP_SWAP, R.PUP_WDT, R.PUP_TMR_CMP, R.PUP_TMR_CTL, R.PUP_MBX_STS]
/-- A part of the register table. -/
def regTable7 : List Reg := [R.PUP_EDGE_EN, R.PUP_PAR_CNT, R.PUP_PAR_LOG, R.PUP_DMA_STS, R.PUP_VREG, R.PUP_MI_CFG, R.PUP_SWEEP_STS, R.PUP_SWEEP_TIME, R.IMG_STS, R.IMG_SLOT_STS, R.IMG_RUN_ID, R.IMG_DIR, R.IMG_SVN, R.IMG_CTL, R.IMG_UPD_STS, R.IMG_TIME, R.PWR_CFG, R.PWR_STS, R.PWR_STEP, R.PWR_HOST_STEP, R.PWR_WAKE_EN, R.PWR_WAKE_SRC, R.PWR_WAKE_TIME, R.PWR_LTR, R.PWR_ENTRY_CNT, R.PWR_STEP_TBL, R.PWR_PACE, R.PWR_PACE_MIN, R.THM_CFG, R.THM_STS]
/-- A part of the register table. -/
def regTable8 : List Reg := [R.THM_CURVE, R.THM_SENS, R.THM_TS_CFG, R.THM_TS_STS, R.THM_TRIP, R.TIM_NOW, R.TIM_NOW_FRAC, R.TIM_CFG, R.TIM_PPS_OFS, R.TIM_STS, R.TIM_SET, R.TIM_PPS_LAST, R.TIM_PPS_ERR, R.TIM_FREQ, R.TIM_PPS_CNT, R.EVR_CTL, R.EVR_STS, R.EVR_COUNT, R.EVR_LOST, R.EVR_FIRST, R.EVR_NOR, R.EVR_FLUSH_CNT, R.RAS_CFG, R.RAS_STS, R.RAS_CE_SEL, R.RAS_CE_ENT, R.RAS_CE_FIRST, R.RAS_CE_LAST, R.RAS_CE_LOST, R.RAS_MEM_CNT]
/-- A part of the register table. -/
def regTable9 : List Reg := [R.RAS_REPAIR, R.RAS_UNIT_SEL, R.RAS_UNIT_INFO, R.RAS_UNIT_TIME, R.RAS_UNIT_CTL, R.RAS_CAP, R.RAS_EVQ, R.RAS_EVQ_LOST, R.RAS_ERRLOG, R.GEN_ID, R.GEN_REV, R.GEN_SERIAL, R.GEN_FW, R.GEN_CAP0, R.GEN_CAP1, R.GEN_CAP2, R.GEN_CTL, R.GEN_STS, R.GEN_RST_CNT, R.GEN_SCRATCH, R.GEN_ACC_ERR, R.GEN_ACC_LOG, R.GEN_BLK]

/-- Every register of the management space. -/
def regTable : List Reg :=
  regTable0 ++ regTable1 ++ regTable2 ++ regTable3 ++ regTable4 ++ regTable5 ++ regTable6 ++ regTable7 ++ regTable8 ++ regTable9

end Sys2Proof.Machine
end

