-- ==== Sys2Proof/Machine/StateA.lean ====
section
/-! DEFINITION. The state of the time base, the event recorder, the event queue and the error logs (19, 20), and the
records that commands and their completions are made of. -/

namespace Sys2Proof.Machine

/-- Whose view of events and changed zones (20 R442, R444): the manager's, which PF0 and NVMe-MI share, a PCIe
function's, or that of a fabric association's controller. -/
inductive Ctl
  | mgr
  | fn (n : Nat)
  | fab (a : Nat)
deriving DecidableEq, Repr

/-- A completion: who gets it, the command's identifier, status code type, status code, Do Not Retry, its first dwords
and the data that came with it. -/
structure Cpl where
  org : Org
  cid : Nat
  sct : Nat
  sc : Nat
  dnr : Bool
  dw0 : Nat
  data : List Nat
deriving DecidableEq, Repr

/-- What the block sends to its outside, in order. -/
inductive Out
  /-- A completion entry with its data. -/
  | cpl (c : Cpl)
  /-- An MSI-X message of a function's vector (03 R81). -/
  | msix (func vec : Nat)
  /-- A frame sent on a sub-port: port, sub-port, what it is (a name), and its fields (13). -/
  | net (port sub : Nat) (what : String) (args : List Nat)
  /-- A PMBus command to the core regulator (16 R362): command code and data. -/
  | pmbus (cmd data : Nat)
  /-- A transfer on a Kazron link: link, what it is, and its fields (08). -/
  | kz (link : Nat) (what : String) (args : List Nat)
  /-- A response on the PCIe or CXL link: what it is and its fields (14). -/
  | pcie (what : String) (args : List Nat)
  /-- A response of the NVMe-MI path (16 R364): status and words. -/
  | mi (status : Nat) (words : List Nat)
  /-- The result of a register read on BAR0 (23 R491): the data. -/
  | rd (addr val : Nat)
  /-- A BAR0 read that completes with Completer Abort (23 R491). -/
  | ca (addr : Nat)
  /-- A byte answered by the ROM's loader (17 R383). -/
  | uart (byte : Nat)
  /-- A DRAM command: channel, what it is, and its fields (15). -/
  | dram (ch : Nat) (what : String) (args : List Nat)
  /-- A pin driven (21): its name and level. -/
  | pin (name : String) (level : Nat)
deriving DecidableEq, Repr

/-- An entry of the event queue (20 R443). -/
structure EvEnt where
  ns : Nat
  code : Nat
  slice : Nat
  seq : Nat
  arg : Nat
deriving DecidableEq, Repr

/-- One controller's view of the event queue (20 R442): its classes now masked, its lost count, and the entries it has
removed for itself. -/
structure EvView where
  ctl : Ctl
  masked : List Nat
  lost : Nat
  removed : List Nat
deriving DecidableEq, Repr

/-- A recorder record (19 R424). -/
structure Rec where
  ns : Nat
  frac : Nat
  code : Nat
  trig : Nat
  flags : Nat
  arg : Nat
  snaps : List (Nat × Nat)
deriving DecidableEq, Repr

/-- A trigger entry of image section 0x0D (19 R425). -/
structure Trig where
  code : Nat
  mask : Nat
  act : Nat
  addrs : List Nat
deriving DecidableEq, Repr

/-- A sector of the NOR ring (19 R428): its place, sequence, kind, part, parts, trigger time, records and CRC-32C. -/
structure NorSect where
  pos : Nat
  seq : Nat
  kind : Nat
  part : Nat
  parts : Nat
  ns : Nat
  recs : List Rec
  crc : Nat
deriving DecidableEq, Repr

/-- A recorder copy in the system area (19 R427). -/
structure RecCopy where
  ns : Nat
  kind : Nat
  recs : List Rec
deriving DecidableEq, Repr

/-- An entry of the Error Information log (20 R445); `die` is the global die where the fault concerns one. -/
structure ErrEnt where
  num : Nat
  org : Org
  cid : Nat
  sct : Nat
  sc : Nat
  die : Option Nat
deriving DecidableEq, Repr

/-- An entry of the correctable-error table (20 R434). -/
structure CeEnt where
  idx : Nat
  mem : Nat
  addr : Nat
  count : Nat
  first : Nat
  last : Nat
deriving DecidableEq, Repr

/-- A replicated unit that is or has been fenced (20 R437-R439); kind 0 frame lane, 1 decoder, 2 link engine; state as
RAS_UNIT_INFO.STATE. -/
structure UnitSt where
  kind : Nat
  idx : Nat
  state : Nat
  passes : Nat
  fences : List Nat
  rsn : Nat
  third : Nat
  time : Nat
  testAt : Nat
deriving DecidableEq, Repr

/-- The time base (19). Times kept to measure an interval are kept as elapsed time, so a step of TIME_NS moves every one
of them with it (R421). -/
structure TimeSt where
  /-- Elapsed time since TIME_NS began, in 2^-32 ns, never stepped. Width 96. 19 R416. Reset 0. -/
  elFx : Nat
  /-- TIME_NS less elapsed time: its start value and every step since, in ns. Width 65, signed. 19 R417, R421. Reset 0. -/
  ofs : Int
  /-- Slew still to be removed, in 2^-32 ns, signed. Width 48. 19 R419. Reset 0. -/
  slew : Int
  /-- Elapsed time of the last accepted edge; none before the first. Width 64. 19 R418. Reset none. -/
  lastAcc : Option Nat
  /-- Errors of the consecutive edges outside the capture window that agree. 15 entries of 32. 19 R419. Reset empty. -/
  outside : List Int
  /-- TIME_NS at the last stop of the counter by Jack entry. Width 64. 19 R417. Reset DESIGN CHOICE 0 (log 20). -/
  jackNs : Nat
  /-- The newest TIME_NS the system area holds; none before the first. Width 64. 19 R417. Reset none (log 20). -/
  saved : Option Nat
deriving DecidableEq, Repr

/-- The event recorder (19). -/
structure EvrSt where
  /-- The buffer's records, oldest first. 4 MiB. 19 R423. Reset empty. -/
  recs : List Rec
  /-- Records' bytes in the buffer. Width 23. 19 R423. Reset 0. -/
  used : Nat
  /-- The trigger table, at most 256 entries; none while section 0x0D is absent. 256 entries of 576. 19 R425. Reset none. -/
  trig : Option (List Trig)
  /-- Recorder copies in the system area, newest first, at most four. 19 R427. Reset empty (log 20). -/
  nand : List RecCopy
  /-- The written sectors of the NOR ring, oldest first. 16,384 sectors of 4 KiB. 19 R428. Reset empty (log 20). -/
  nor : List NorSect
deriving DecidableEq, Repr

/-- The event queue, its views, asynchronous event reporting, the error log and the tables of protection (20). -/
structure RasSt where
  /-- The event queue, oldest first. 1,024 entries of 256. 20 R442. Reset empty. -/
  evq : List EvEnt
  /-- Sequence number of the next event queue entry. Width 32. 20 R443. Reset 0. -/
  evSeq : Nat
  /-- The controllers' views that differ from a fresh one. 20 R442. Reset empty. -/
  views : List EvView
  /-- Outstanding Asynchronous Event Requests: controller, who sent it, command identifier. 20 R442. Reset empty. -/
  aers : List (Ctl × Org × Nat)
  /-- Notices that wait for an Asynchronous Event Request: controller, type, information, log page. 20 R442, R444.
  Reset empty. -/
  notices : List (Ctl × Nat × Nat × Nat)
  /-- Changed Zone Lists: controller, namespace, zone start. 20 R444, 04 R92. Reset empty. -/
  czl : List (Ctl × Nat × Nat)
  /-- The Error Information log, newest first, 256 entries. 20 R445. Reset empty (log 20). -/
  errs : List ErrEnt
  /-- The correctable-error table, 64 entries. 20 R434. Reset empty. -/
  ce : List CeEnt
  /-- DRAM corrections of the last hour: elapsed second and count. 20 R434. Reset empty. -/
  ceHour : List (Nat × Nat)
  /-- DRC_ECC_CNT corrections counted since the last one-second check. Width 32. 20 R434. Reset 0. -/
  ceSec : Nat
  /-- Replicated units not fresh from reset. 256 units. 20 R437. Reset empty (all in service). -/
  units : List UnitSt
  /-- Unsafe Shutdowns of the SMART log. Width 32. 20 R444, 06 R164. Reset DESIGN CHOICE 0 (log 20). -/
  unsafeCnt : Nat
  /-- Media and Data Integrity Errors of the SMART log. Width 64. 20 R444. Reset DESIGN CHOICE 0 (log 20). -/
  integrity : Nat
  /-- Image store sections marked damaged. 20 R433. Reset empty. -/
  damaged : List Nat
  /-- Soft spare rows used at step 2, by memory. 20 R436. Reset empty. -/
  softRows : List (Nat × Nat)
deriving DecidableEq, Repr

end Sys2Proof.Machine
end

