-- ==== Sys2Proof/Machine/StateB.lean ====
section
/-! DEFINITION. The state of slices, bindings, translation entries, queues and the ledger (02, 03). What a register of
the SLI and LGR blocks holds is in the register file and stands there only. -/

namespace Sys2Proof.Machine

/-- A table of records by number, in rising order of their numbers. -/
abbrev Tab (α : Type) := List (Nat × α)

/-- The record of a number. -/
def Tab.find {α : Type} (k : Nat) : Tab α → Option α
  | [] => none
  | (k', v) :: t => if k' = k then some v else Tab.find k t

/-- Puts a record under a number. -/
def Tab.put {α : Type} (k : Nat) (v : α) (t : Tab α) : Tab α :=
  t.filter (fun e => e.1 < k) ++ [(k, v)] ++ t.filter (fun e => k < e.1)

/-- Takes the record of a number away. -/
def Tab.del {α : Type} (k : Nat) (t : Tab α) : Tab α := t.filter (fun e => e.1 != k)

/-- What a slice holds beside its SLI and LGR registers. -/
structure SliceX where
  /-- Key slots allowed. Width 13. 02 R37, R41. Reset 0. -/
  keySlots : Nat
  /-- Translation entries allowed. Width 17. 02 R37, R41. Reset 0. -/
  xltLim : Nat
  /-- Weight that a Resize requested for the next epoch. Width 16. 02 R41. Reset none. -/
  pendWeight : Option Nat
  /-- Ingest budget requested for the next epoch. Width 16. 02 R41. Reset none. -/
  pendIn : Option Nat
  /-- Egress budget requested for the next epoch. Width 16. 02 R41. Reset none. -/
  pendEg : Option Nat
  /-- Queues are to be moved to permitted classes at the next epoch. Width 1. 02 R50. Reset 0. -/
  pendLc : Bool
  /-- Ingest bucket, in bytes, negative after an excess. Width 40, signed. 03 R79. Reset 0. -/
  bIn : Int
  /-- Egress bucket, in bytes. Width 40, signed. 03 R79. Reset 0. -/
  bEg : Int
  /-- Bytes received this epoch. Width 40. 03 R79, R85. Reset 0. -/
  inBytes : Nat
  /-- Bytes sent this epoch. Width 40. 03 R79, R85. Reset 0. -/
  egBytes : Nat
  /-- The slice had work pending in this epoch. Width 1. 03 R78. Reset 0. -/
  hadWork : Bool
  /-- First fencing cause that arose while RESETTING. Width 2. 02 R59. Reset none. -/
  pendFence : Option Nat
  /-- Whether the slice was ever created: a slice created again takes its last generation plus one. Width 1. 02 R61.
  Reset 0. -/
  used : Bool
  /-- The normalised charge that the slice brought into this epoch. Width 48. 03 R75, R78. Reset 0. -/
  nBase : Nat
deriving DecidableEq, Repr

/-- The record of a slice nothing was kept of. -/
def SliceX.fresh : SliceX := ⟨0, 0, none, none, none, false, 0, 0, 0, 0, false, none, false, 0⟩

/-- A function-and-PASID binding (02 R43). -/
structure FBind where
  func : Nat
  pasid : Option Nat
  idx : Nat
  slice : Nat
deriving DecidableEq, Repr

/-- An NQN binding (02 R43): host NQN and subsystem NQN, as numbers. -/
structure NBind where
  host : Nat
  sub : Nat
  idx : Nat
  slice : Nat
deriving DecidableEq, Repr

/-- A translation entry (02, "The translation unit"): slice tag, function, PASID, window, permissions, and whether the
window is a range of device DRAM for the CXL window; and the binding index and kind it was written with. -/
structure XltEnt where
  slice : Nat
  func : Nat
  pasid : Option Nat
  base : Nat
  size : Nat
  rd : Bool
  wr : Bool
  cxl : Bool
  bind : Nat
  kind : Nat
deriving DecidableEq, Repr

/-- A command that has arrived (03 R67, R68): its arrival and its deadline as elapsed time, the class and the fail-fast default its queue had
then, and the identifier of a fabric command, whose capsule came with it, whether its SGL descriptors are refused, and whether
its data is in the capsule (13 R304). -/
structure Arr where
  arr : Nat
  dl : Nat
  lc : Nat
  ff : Bool
  cid : Option Nat
  bad : Bool
  inl : Bool
deriving DecidableEq, Repr

/-- The stamps of a result (02 R52): slice and queue with their generations. -/
structure Stamp where
  slice : Nat
  q : Nat
  genS : Nat
  genQ : Nat
deriving DecidableEq, Repr

/-- A queue's context (03 R65) with its rings and its own ledger pair (R75). `pend` lists the entries that are visible
and not fetched, oldest first; `base` is the host address of a PCIe queue's ring; `adm` lists the entries of an admin queue that are fetched
and whose commands have not begun. -/
structure Queue where
  slice : Nat
  bind : Nat
  func : Nat
  pasid : Option Nat
  fabric : Bool
  assoc : Nat
  qp : Nat
  qid : Nat
  lc : Nat
  ff : Bool
  gen : Nat
  cqid : Nat
  size : Nat
  head : Nat
  tail : Nat
  outst : Nat
  c : Nat
  n : Nat
  hadWork : Bool
  pend : List Arr
  base : Nat
  adm : List Arr
deriving DecidableEq, Repr

/-- A completion queue (03 R81, R501): its function, identifier, vector, size, head and tail. -/
structure CQ where
  func : Nat
  cqid : Nat
  vec : Nat
  size : Nat
  head : Nat
  tail : Nat
deriving DecidableEq, Repr

/-- Interrupt coalescing of a function (03 R82; Feature 08h): aggregation time in 100 µs and threshold. -/
structure Coal where
  time : Nat
  thr : Nat
deriving DecidableEq, Repr

/-- A vector with coalescing disabled or completions that wait to be signalled, by their stamps (03 R82; 02 R52; Feature 09h). -/
structure VecSt where
  func : Nat
  vec : Nat
  cd : Bool
  waiting : List Stamp
  since : Nat
deriving DecidableEq, Repr

/-- Slices, bindings, translation entries and queues (02, 03). -/
structure SliceSt where
  /-- What each slice holds beside its registers. 1,024 slices. 02 R37. Reset empty (every slice fresh). -/
  ext : Tab SliceX
  /-- Function-and-PASID bindings, PF0's fixed one left out. 16,384 entries. 02 R37, R43. Reset empty. -/
  fbind : List FBind
  /-- NQN bindings. 8,192 entries. 02 R37, R43. Reset empty. -/
  nbind : List NBind
  /-- Translation entries. 262,144 entries. 02 R37, R45. Reset empty. -/
  xlt : List XltEnt
  /-- Submission queues and fabric queues by device queue index. 32,768 contexts. 03 R65. Reset empty. -/
  qs : Tab Queue
  /-- Completion queues of the PCIe functions. 03 R81. Reset empty. -/
  cqs : List CQ
  /-- Interrupt coalescing by function. 256 functions. 03 R82. Reset empty (no aggregation). -/
  coal : Tab Coal
  /-- Vectors with coalescing disabled or completions waiting. 03 R82. Reset empty. -/
  vecs : List VecSt
  /-- Controller-wide targets in effect, in µs, LC0 to LC7. 8 entries of 24. 03 R66. Reset 100, 200, 500, 1,000, 2,000,
  5,000, 20,000, 1,000,000. -/
  tgt : List Nat
  /-- LGR_CFG in effect: background cap, patrol cap, carry limit, command charge. 4 fields. 03 R78, R85. Reset 80, 30, 2,
  4. -/
  cfg : List Nat
  /-- Device ingest bucket, in bytes. Width 40, signed. 03 R79. Reset 1,600,000,000. -/
  devBucket : Int
  /-- Charges of slice 0's background work this epoch, in 1/16 µs, in the order of LGR_BG_USE. 6 entries of 48. 03 R80.
  Reset 0 each. -/
  bg : List Nat
  /-- Elapsed time of the last epoch boundary. Width 64. 03 R78. Reset 0. -/
  epochAt : Nat
  /-- Last generation of each slice index that a queue was given, kept so that a new queue of the index differs.
  32,768 entries of 16. 03 R65, 02 R52. Reset empty (log 22). -/
  qgen : Tab Nat
  /-- Resets that wait under R57: whether of a slice, its number or the queue's, and the command to complete. 02 R57. Reset
  empty. -/
  waits : List (Bool × Nat × Option (Org × Nat))
  /-- Creates that wait under R57: slice, sender, command identifier, descriptor. 02 R57. Reset empty. -/
  creates : List (Nat × Org × Nat × List Nat)
  /-- Deletes that wait for the key generation advances of their namespaces: slice, sender, command identifier. 02 R61, 12 R292.
  Reset empty. -/
  dels : List (Nat × Org × Nat)
deriving DecidableEq, Repr

end Sys2Proof.Machine
end

