-- ==== Sys2Proof/Machine/StateC.lean ====
section
/-! DEFINITION. The state of commands in flight, namespaces and zones (04), staging (06), layout and redundancy (07),
dies and blocks (09), the read channel (10) and the translation layer (11). -/

namespace Sys2Proof.Machine

/-- A block of a die. -/
structure Blk where
  die : Nat
  blk : Nat
deriving DecidableEq, Repr

/-- A stripe row: row `r` of a zone handle, or a conventional row handle (11 R253). -/
structure RowId where
  conv : Bool
  h : Nat
  r : Nat
deriving DecidableEq, Repr

/-- Where one block of a read comes from: zeros, staging, a unit of a row, or a lost map entry. -/
inductive Src
  | zero
  | staged
  | unit (r : RowId) (u : Nat)
  | lost
deriving DecidableEq, Repr

/-- The kinds of I/O command that live past their execution. -/
inductive CmdKind
  | read | write | append | writeZeroes | dealloc | flush | frameRead | zoneOpen | zoneMgmt | admin | other
deriving DecidableEq, Repr

/-- Where a command stands. `fetched`: its entry is in a command-engine slot. `held`: in the zone hold (04 R95).
`place`: it waits for an activation (04 R103). `staging`: it waits for its staging reservation (06 R144). `admitted`: its
data is on its way to staging. `media`: it waits for codewords. `unreach`: a codeword waits for a link (07 R173).
`key`: it waits for a key (12 R290). `map`: it waits for a map page (11 R259). -/
inductive CmdSt
  | fetched | held | place | staging | admitted | media | unreach | key | map
deriving DecidableEq, Repr

/-- A command in flight: its queue and identifier, its slice and the generations stamped on it (02 R52), its arrival and
deadline as elapsed time (03 R68), whether it is fail-fast (R71), its class, kind and blocks, where it stands, the units
of staging it reserved in each pool, the data that reached it, the codewords it still waits for, what an Open asked
for (04 R102), where an admitted read's blocks lie (04 R97), whether a write is FUA or a Frame Read's record enciphered (`fua`), the active-zone limit it was admitted under (02 R51) as one more, 0 before, and
whether its data came in its capsule (13 R304). -/
structure Cmd where
  q : Nat
  cid : Nat
  slice : Nat
  genS : Nat
  genQ : Nat
  arr : Nat
  dl : Nat
  ff : Bool
  lc : Nat
  kind : CmdKind
  nsid : Nat
  lba : Nat
  len : Nat
  zone : Nat
  st : CmdSt
  since : Nat
  resWin : Nat
  resDir : Nat
  data : List Nat
  need : List Nat
  sent : Bool
  fua : Bool
  hint : Nat
  srcs : List Src
  azLim : Nat
  inl : Bool
deriving DecidableEq, Repr

/-- A namespace (04 R86-R88, R102, R106, R502). `cipher` is the setting of 12 R282. -/
structure Ns where
  slice : Nat
  zoned : Bool
  size : Nat
  lbaf : Nat
  dg : Nat
  base : Nat
  zones : Nat
  cipher : Nat
  ctls : List Ctl
deriving DecidableEq, Repr

/-- A stripe row as the zone table or the row table holds it (11 R252, R253): stripe set, layout copy, the QLC block of
each member, the one-bit blocks of each window stripe row in use, how many pages of each are programmed, the wordlines
of each member programmed and verified, the fold cursor, how many folded wordlines are persistent (06 R154), the wordlines eligible to fold
with the instant and the class of R153, and whether the row is written on the direct route. -/
structure SRow where
  sset : Nat
  shadow : Bool
  mem : List Blk
  win : List (List Blk)
  pages : List (List Nat)
  wl : List Nat
  fold : Nat
  foldDone : Nat
  elig : List (Nat × Nat × Nat)
  direct : Bool
deriving DecidableEq, Repr

/-- What the zone table holds beside the ZON window (11 R252): stripe rows, last time data arrived (06 R149), whether the
SRAM slot is reserved, the current wordline of a direct row, whether its current row is being padded (06 R506), the void extents
of its zone set (05 R127), the capture stream that holds it (05 R124), and the end of its committed data once it is Full. -/
structure ZoneX where
  rows : List SRow
  lastData : Nat
  slotRsv : Bool
  dirRow : Nat
  dirWl : Nat
  padTo : Nat
  voids : List (Nat × Nat)
  stream : Option Nat
  fin : Nat
deriving DecidableEq, Repr

/-- A conventional row (11 R253): die group, data or map, its stripe row, units filled, valid units. -/
structure CRow where
  dg : Nat
  map : Bool
  row : SRow
  fill : Nat
  valid : Nat
deriving DecidableEq, Repr

/-- A 4 KiB unit in staging: its stripe row and unit in that row, when it came, where it lies: 0 window pool, 1 direct
reservation, 2 overflow (06 R146, R147), the arrival, deadline, class and queue of the write it came with (09 R214, 03 R75), and its unit in the
overflow log where it lies there (06 R147). -/
structure StU where
  row : RowId
  off : Nat
  since : Nat
  pool : Nat
  arr : Nat
  dl : Nat
  lc : Nat
  q : Nat
  loc : Nat
deriving DecidableEq, Repr

/-- The parity of a window page-row that is filling (06 R148): its row and page-row, and its running P and Q, 24 blocks each. -/
structure ParSlot where
  row : RowId
  page : Nat
  p : List Nat
  q : List Nat
deriving DecidableEq, Repr

/-- A segment of a flush image (06 R159): its type, its length in bytes and its CRC-32C, as its header gives them. -/
structure FlushSeg where
  ty : Nat
  len : Nat
  crc : Nat
deriving DecidableEq, Repr

/-- A flush image (06 R159, R162, R164): its bank, whether its flush record is programmed, the stop instant, its segments in order, its sequence
number, the two dies of the record, the failed pages by stripe and member, the stripes written again at the end of the bank, the links whose
pages lie on other links' dies, and the segments with a header and with a matching CRC that a loss of power left, as masks, and the
staged units flushed with a poison mark (20 R447). -/
structure FlushImg where
  bank : Nat
  whole : Bool
  stop : Nat
  segs : List FlushSeg
  seq : Nat
  recDies : Option (Nat × Nat)
  fails : List (Nat × Nat)
  again : List Nat
  moved : List Nat
  heads : Nat
  good : Nat
  poison : List (RowId × Nat)
deriving DecidableEq, Repr

/-- A die group's layout (07 R168, R169): stripe width, links, dies of each link, permutation rows, die offsets, spare
share in 0.1 %, and whether it is dedicated. -/
structure Grp where
  k : Nat
  links : List Nat
  dies : List (List Nat)
  perm : List (List Nat)
  doff : List (List Nat)
  share : Nat
  ded : Bool
deriving DecidableEq, Repr

/-- A substitution entry (07 R175): the row's member and its new block, whether rebuilt, and the stripes rebuilt. -/
structure Subst where
  row : RowId
  member : Nat
  blk : Blk
  done : Bool
  upto : Nat
deriving DecidableEq, Repr

/-- An entry of the lost-stripe table (07 R177). -/
structure Lost where
  row : RowId
  first : Nat
  last : Nat
  ns : Nat
deriving DecidableEq, Repr

/-- A logged P and Q of a partial page-row (07 R171): row, page-row, members programmed, P and Q of 24 blocks each, and whether the entry is
persistent. -/
structure PLog where
  row : RowId
  page : Nat
  members : List Nat
  p : List Nat
  q : List Nat
  kept : Bool
deriving DecidableEq, Repr

/-- A reshape in progress (07 R179-R181): group, target layout, zones done and in all, reversing. -/
structure Reshape where
  grp : Nat
  target : Grp
  done : Nat
  total : Nat
  rev : Bool
deriving DecidableEq, Repr

/-- A media descriptor (09 R207): times in µs, rates in MB/s. -/
structure Desc where
  id : Nat
  planes : Nat
  pp : Nat
  bpc : Nat
  wl : Nat
  blocks : Nat
  mibQ : Nat
  mib1 : Nat
  tR : Nat
  tRmax : Nat
  t1 : Nat
  t1max : Nat
  tC : Nat
  tCmax : Nat
  tF : Nat
  tFmax : Nat
  tE : Nat
  tEmax : Nat
  tSus : Nat
  tSusMax : Nat
  tRes : Nat
  tRst : Nat
  rate1 : Nat
  rateQ : Nat
  susLim : Nat
  ipr : Nat
  rated : Nat
  eol : Nat
deriving DecidableEq, Repr

/-- The kinds of die operation (09 R211). -/
inductive OpKind
  | read | prog1 | coarse | fine | foldC | foldF | erase
deriving DecidableEq, Repr

/-- What an operation is for: a host command's codeword, a verify, a fold, a program of written data, a padding program,
patrol, a reconstruction's member read for a command's codeword, a copy under R221, relocation, rebuild, a tail, a sweep,
an erase for reclamation, an erase of a flush bank, or the journal. -/
inductive Purp
  | host | verify | fold | data | pad | patrol | recon | copy | reloc | rebuild | tail | sweep | gcErase | bankErase
  | journal | map
deriving DecidableEq, Repr

/-- Where a codeword stands on the retry ladder (10 R242): which read of step 2 it is, the offsets of its read, the best offsets
so far and the unsatisfied checks of their decode, and whether the ladder has jumped (R244). -/
structure Lad where
  sub : Nat
  offs : List Int
  best : List Int
  unsat : Nat
  jumped : Bool
deriving DecidableEq, Repr

/-- The foot of the ladder. -/
def Lad.foot : Lad := ⟨0, [], [], 2 ^ 32, false⟩

/-- A die operation (09 R211-R216): its number, kind, block, page or wordline, plane mask, purpose, stripe row and
member, slice and queue charged, command and codeword it serves, stamps (02 R52), arrival and deadline as elapsed time,
whether at slice 0's idle priority, which background account it is counted in (03 R80), times suspended, time run, tier,
ladder step, pages it senses (2 for a codeword that straddles two, 10 R233), the latency class of the data it programs (06 R153),
the 4 KiB block of its member that it reads, the kind of program that it reads back to verify, its place on the ladder, its die, whether two
probe senses are made with it (10 R247), and the 4 KiB units of its data that are read back from the overflow (06 R147). -/
structure DOp where
  id : Nat
  kind : OpKind
  blk : Nat
  page : Nat
  planes : Nat
  senses : Nat
  purp : Purp
  row : RowId
  member : Nat
  slice : Nat
  q : Nat
  cid : Nat
  cw : Nat
  genS : Nat
  genQ : Nat
  arr : Nat
  dl : Nat
  idle : Bool
  bg : Option Nat
  sus : Nat
  ran : Nat
  tier : Nat
  step : Nat
  pages : Nat
  lc : Nat
  mblk : Nat
  vfy : Option OpKind
  lad : Lad
  die : Nat
  probe : Bool
  back : Nat
deriving DecidableEq, Repr

/-- A die (09, 07, 08): presence, descriptor, reachability and retirement, its queue, what it runs since when, the reads merged
with it, its suspended erase, the wordline between passes, scales in 1/65536 by kind, last temperature, rotation cursor, failure counts,
LFSR, temperature at its last sweep, times of its resets and of its all-plane failures, when it became unreachable, and
its wear index in 0.01 %, its erases by hour, newest first, and its last 2^20 verified codewords, newest first, as numbers of codewords and
the corrected bits of each number (R225). -/
structure DieSt where
  present : Bool
  desc : Nat
  reach : Bool
  retired : Bool
  queue : List DOp
  cur : Option DOp
  curAt : Nat
  merged : List DOp
  susp : Option DOp
  between : Option (Nat × Nat × Nat)
  scale : List Nat
  temp : Int
  cursor : Nat
  gbb : Nat
  pfail : Nat
  efail : Nat
  lfsr : Nat
  swTemp : Int
  resets : List Nat
  allFails : List Nat
  goneAt : Option Nat
  wear : Nat
  erases24 : List Nat
  recent : List (Nat × Nat)
deriving DecidableEq, Repr

/-- What a block is: erased, holding data, holding nothing but not erased, or grown bad. -/
inductive BlkUse
  | erased | data | stale | bad
deriving DecidableEq, Repr

/-- A block that differs from a fresh one: its use, mode, tier, erase count, bit level, write stamp (10 R236, R237) and
the last patrol pass that visited it, and the corrected bits and codewords of its verify or patrol pass so far. The write stamp is
TIME_NS of the first program, the sum of the die temperatures of its programs and their number (10 R237). -/
structure BlkSt where
  use : BlkUse
  onebit : Bool
  tier : Nat
  erases : Nat
  level : Option Nat
  wns : Nat
  wsum : Int
  wcnt : Nat
  refresh : Bool
  seen : Nat
  psum : Nat
  pcnt : Nat
deriving DecidableEq, Repr

/-- A record of a tail block (10 R234, R235): its die and block, its place in the block, the tier of the block's records, the QLC block and quarter
it is reserved for, whether programs of it were begun since the block was erased, and its pages that are programmed and verified. -/
structure Tail where
  die : Nat
  blk : Nat
  slot : Nat
  tier : Nat
  own : Option (Nat × Nat)
  begun : Bool
  pages : Nat
deriving DecidableEq, Repr

/-- A codeword in the raw sense buffer (10 R240-R245): its number, its die, the read that sensed it, its decoder, since when that
decoder holds it, and how many decoders it faulted on. -/
structure CwJob where
  id : Nat
  die : Nat
  op : DOp
  dec : Option Nat
  since : Nat
  faults : Nat
deriving DecidableEq, Repr

/-- A reconstruction in progress (07 R173, R174): the codeword served, whether it is a read-around, the members that
have decoded and those still out. -/
structure Recon where
  id : Nat
  around : Bool
  slice : Nat
  q : Nat
  cid : Nat
  cw : Nat
  row : RowId
  target : Nat
  got : List Nat
  out : List Nat
  k : Nat
  die : Nat
  blk : Nat
  pageNo : Nat
  tier : Nat
  jumped : Option Nat
  genS : Nat
  genQ : Nat
  arr : Nat
  dl : Nat
  waitTill : Option Nat
deriving DecidableEq, Repr

/-- An entry of the fine map (11 R254): 1 mapped, 2 lost; row and unit. -/
structure MEnt where
  st : Nat
  row : Nat
  unit : Nat
deriving DecidableEq, Repr

/-- A line of the map cache (11 R258). `wb`: a write-back of it is in flight and no update has come since its snapshot. -/
structure MLine where
  set : Nat
  way : Nat
  nsid : Nat
  page : Nat
  valid : Bool
  dirty : Bool
  pending : Bool
  poison : Bool
  seq : Nat
  wb : Bool
  waiters : List (Nat × Nat)
deriving DecidableEq, Repr

/-- What proceeds when a journal entry is persistent (11 R265, 06 R154, 12 R292, 11 R270). -/
inductive JAct
  | none
  /-- These blocks hold no valid data any more. -/
  | stale (bs : List Blk)
  /-- A folded wordline's map change stands (06 R154). -/
  | foldDone (r : RowId) (wl : Nat)
  /-- A key generation advance of a namespace stands (12 R292). -/
  | keyGen (slice nsid gen : Nat)
  /-- A relocation's switch (11 R270): job number. -/
  | reloc (id : Nat)
  /-- A substitution's rebuild is complete (07 R176). -/
  | rebuilt (r : RowId) (m : Nat)
  /-- A map page's write-back stands (11 R256, R260). -/
  | dirPage (nsid page : Nat)
  /-- A checkpoint's end stands (11 R267). -/
  | ckptEnd (s : Nat)
deriving DecidableEq, Repr

/-- A journal entry (11 R266): sequence, type, fields, what waits for it, and when it was made. -/
structure JEnt where
  seq : Nat
  ty : Nat
  f : List Nat
  act : JAct
  made : Nat
deriving DecidableEq, Repr

/-- A journal page in flight (11 R264): its entries and its programmed and verified copies. -/
structure JPage where
  ents : List JEnt
  copies : Nat
deriving DecidableEq, Repr

/-- A relocation (11 R269-R271): its number, kind (0 GC, 1 refresh, 2 grown-bad copy, 3 tail, 4 reshape), row and member,
old and new block, units moved (GC: LBA
key, old unit, new row, new unit), step (0 copying, 1 the failed program is made again, 2 journalled), and the failed program of R221. -/
structure Reloc where
  id : Nat
  kind : Nat
  row : RowId
  member : Nat
  old : Blk
  new : Blk
  moves : List (Nat × Nat × Nat × Nat)
  step : Nat
  op : Option DOp
deriving DecidableEq, Repr

/-- What a zone was before journal entries that are not yet persistent (01 R14; 06 R164; 11 R268): the sequence of the first of them, its handle, the
fields of its entry, its record, the data that a Reset took with the first block that was only in staging, its substitutions and lost
stripes. -/
structure ZUndo where
  seq : Nat
  h : Nat
  ent : List Nat
  zx : ZoneX
  ud : List (Nat × Nat)
  cut : Nat
  subst : List Subst
  lost : List Lost
deriving DecidableEq, Repr

/-- Namespaces, zones and user data (04). -/
structure ZoneSt where
  /-- Namespaces by NSID. 4,096 namespaces. 04 R502. Reset empty (log 21). -/
  ns : Tab Ns
  /-- What the zone table holds beside the ZON window, by handle. 524,224 entries. 11 R252. Reset empty (log 21). -/
  zx : Tab ZoneX
  /-- The placement cursor of each die group, and of its shadow layout at group + 64. 128 entries of 24. 04 R103.
  Reset empty (0 each). -/
  cursor : Tab Nat
  /-- User data that is not zero, by unit: 4 KiB block `off` of zone `h` at h × 524,288 + off, unit `u` of conventional
  row `r` at 2^40 + r × 1,048,576 + u; a value is the block's bytes with its metadata, little-endian. 04 R97, R100.
  Reset empty: every block reads as zeros (log 21). -/
  ud : List (Nat × Nat)
  /-- Commands in flight. 03 R65, R68. Reset empty. -/
  cmds : List Cmd
  /-- Writes that a reset dropped while their data was on its way into staging: queue, command identifier, slice. 02 R52, R53. Reset
  empty. -/
  ghosts : List (Nat × Nat × Nat)
  /-- Stripe rows of zones that a Reset emptied while reads admitted before it still use them, by a number of the model's own past every
  zone handle. 04 R97. Reset empty. -/
  doomed : Tab SRow
  /-- Formatted user capacity, in 4 KiB units; 0 before the first start. Width 40. 07 R503. Reset DESIGN CHOICE 0
  (log 21). -/
  cap : Nat
deriving DecidableEq, Repr

/-- Staging, the window and the flush banks (06). -/
structure StgSt where
  /-- Units in staging SRAM and in the overflow. 65,536 and 16,777,216 units. 06 R146, R147. Reset empty (log 21). -/
  units : List StU
  /-- Bytes admitted to spilled zones in this epoch. Width 40. 06 R150. Reset 0. -/
  spillBytes : Nat
  /-- Flush bank 0 and 1 erased. 2 bits. 06 R158. Reset DESIGN CHOICE false, false (log 21). -/
  erased : List Bool
  /-- The newest unconsumed flush image. 06 R159, R162, R164. Reset none (log 21). -/
  image : Option FlushImg
  /-- Sequence number of the last flush image. Width 64. 06 R159. Reset DESIGN CHOICE 0 (log 21). -/
  imgSeq : Nat
  /-- The flush now running writes an image, not the recorder alone. Width 1. 06 R163. Reset 0. -/
  full : Bool
  /-- Elapsed time PFAIL_N was recognised in the flush now running. Width 64. 06 R159. Reset 0. -/
  fellAt : Nat
  /-- Power step before the flush. Width 4. 06 R163. Reset 0. -/
  priorStep : Nat
  /-- Uncommitted writes and frames may commit: cleared at the stop instant. Width 1. 06 R159. Reset 0. -/
  commits : Bool
  /-- Logged P and Q of partial page-rows. 4 GiB. 07 R171. Reset empty (log 21). -/
  plog : List PLog
  /-- Dirty 64 KiB granules of the persistent CXL window. 32,768 granules. 06 R160. Reset empty. -/
  dirty : List Nat
  /-- Running P and Q of the page-rows that fill: the parity slots of active zones, and those of conventional rows. 06 R148. Reset empty. -/
  par : List ParSlot
  /-- Next unit of the overflow log. Width 24. 06 R147. Reset DESIGN CHOICE 0 (log 21). -/
  ovfAt : Nat
  /-- Bytes that folds have freed for admission while the window is full. Width 40, signed. 06 R153. Reset 0. -/
  foldCred : Int
deriving DecidableEq, Repr

/-- Layout and redundancy (07). -/
structure RdnSt where
  /-- Die groups' layouts. 64 groups. 07 R168. Reset empty (log 21). -/
  groups : Tab Grp
  /-- Layout supplements of the active image: identifier, group, layout. 256 entries. 07 R179. Reset empty. -/
  supp : Tab (Nat × Grp)
  /-- The reshape in progress. 07 R180. Reset none. -/
  reshape : Option Reshape
  /-- Layouts a completed reshape left in the system area. 64 groups. 07 R180. Reset empty (log 21). -/
  kept : Tab Grp
  /-- The substitution table. 1,048,576 entries. 07 R175. Reset empty (log 21). -/
  subst : List Subst
  /-- The lost-stripe table. 65,536 entries. 07 R177. Reset empty (log 21). -/
  lost : List Lost
  /-- Read-arounds and reconstructions in flight. 07 R174. Reset empty. -/
  recon : List Recon
  /-- Rebuild and relocation bytes charged to each group this epoch, in 1/16 µs. 64 entries of 48. 07 R176. Reset empty. -/
  rbld : Tab Nat
deriving DecidableEq, Repr

/-- Dies, blocks and the read channel (09, 10). -/
structure DieUnit where
  /-- Media descriptors of the image. 32 of 2,048 bits. 09 R207. Reset empty. -/
  descs : List Desc
  /-- Dies by global die number. 4,096 dies. 09 R213. Reset empty (none present). -/
  dies : Tab DieSt
  /-- Blocks that differ from a fresh one, by die × 2,048 + block. 09 R221, R224, 10 R236. Reset empty (log 21). -/
  blks : Tab BlkSt
  /-- The number of the next operation, codeword or job. Width 64. The model's own numbering. Reset DESIGN CHOICE 0
  (log 5). -/
  nextId : Nat
  /-- Codewords in the raw sense buffer. 16 MiB. 10 R241. Reset empty. -/
  cws : List CwJob
  /-- Corrections that differ from zero, by ((die × 4 + tier) × 12 + retention bin) × 6 + temperature bin: 16 offsets.
  1,179,648 entries of 128. 10 R239. Reset empty. -/
  corr : Tab (List Int)
  /-- TIME_NS at which a correction was last replaced, by the same number. 1,179,648 entries of 64. 10 R248. Reset empty. -/
  corrAt : Tab Nat
  /-- Corrections as last written to the system area. 10 R239. Reset empty (log 21). -/
  corrSaved : Tab (List Int)
  /-- Table memories of the image: threshold table rows of descriptor × 65,536 + index: 16 offsets. 10 R238. Reset
  empty. -/
  thr : Tab (List Int)
  /-- Retry shift vector of the image by tier: 16 offsets. 4 entries of 128. 10 R242. Reset empty. -/
  shift : List (List Int)
  /-- Tier growth table G, 8 × 12 entries, in 1/16. 10 R236. Reset empty. -/
  growth : List Nat
  /-- PCT_USED levels already reported: 80, 90, 100. 3 bits. 09 R225. Reset 0. -/
  wearSeen : Nat
  /-- The records of the tail areas: blocks of at most 1,023 records on each of 4,096 dies. 10 R234, R235. Reset empty. -/
  tails : List Tail
  /-- Number of the patrol pass in progress. Width 32. 10 R246. Reset DESIGN CHOICE 1: the model's own count (log 5). -/
  pass : Nat
  /-- Patrol cursor: next die, block and page. 3 numbers. 10 R246. Reset 0, 0, 0. -/
  patrol : Nat × Nat × Nat
  /-- Elapsed time at which the patrol pass began. Width 64. 10 R246. Reset 0. -/
  patrolAt : Nat
deriving DecidableEq, Repr

/-- The translation layer (11). -/
structure FtlSt where
  /-- Conventional rows by handle. 262,144 rows. 11 R253. Reset empty (log 21). -/
  crows : Tab CRow
  /-- The fine map's entries that are not unmapped, by NSID × 2^40 + LBA. 11 R254. Reset empty (log 21). -/
  fmap : Tab MEnt
  /-- The map directory's valid entries, by NSID × 2^40 + page: map row and unit. 11 R256. Reset empty (log 21). -/
  dir : Tab (Nat × Nat)
  /-- Journal sequence of the last update of each map page, by NSID × 2^40 + page. 64 bits each. 11 R255. Reset empty (log 21). -/
  pseq : Tab Nat
  /-- Lines of the map cache in use. 11 R258. Reset empty. -/
  lines : List MLine
  /-- Tree-PLRU bits by set, not zero. 15 bits a set. 11 R258. Reset empty. -/
  plru : Tab Nat
  /-- The bypass buffer, least recently used first: NSID, page, dirty. 256 pages. 11 R262. Reset empty. -/
  bypass : List (Nat × Nat × Bool)
  /-- Map entries as they stood before journal entries that are not yet persistent: sequence, NSID, LBA, entry. 262,144
  entries. 01 R14, 06 R164. Reset empty. -/
  undo : List (Nat × Nat × Nat × MEnt)
  /-- Zones as they stood before journal entries that are not yet persistent. 262,144 entries. 01 R14, 06 R164. Reset empty. -/
  zundo : List ZUndo
  /-- Sequence of the next journal entry. Width 64. 11 R264. Reset DESIGN CHOICE 1 (log 21). -/
  jnext : Nat
  /-- Entries in the journal tail, oldest first. 262,144 entries of 256. 11 R264. Reset empty. -/
  jtail : List JEnt
  /-- Journal pages in flight, oldest first. 64 pages. 11 R264. Reset empty. -/
  jpages : List JPage
  /-- Journal bytes written since the last CKPT_END. Width 34. 11 R267. Reset 0. -/
  jsince : Nat
  /-- Ring space in use, in bytes. Width 34. 11 R264. Reset DESIGN CHOICE 0 (log 21). -/
  jring : Nat
  /-- The checkpoint in progress: its start sequence S, and the ring bytes in use when it began. 2 × 64. 11 R267. Reset none. -/
  ckpt : Option (Nat × Nat)
  /-- Start sequence of the newest persistent CKPT_END. Width 64. 11 R267. Reset DESIGN CHOICE 0 (log 21). -/
  ckptS : Nat
  /-- Elapsed time of the last CKPT_END. Width 64. 11 R267. Reset 0. -/
  ckptAt : Nat
  /-- A device fault of the journal tail: admission is closed and erases wait until a checkpoint that begins at this sequence or after it is
  persistent. Width 64. 20 R435. Reset none. -/
  faulted : Option Nat
  /-- Relocations in progress. 11 R269. Reset empty. -/
  relocs : List Reloc
  /-- User capacity erased in each group this epoch and in the last, in bytes. 64 entries of 2 × 40. 11 R275. Reset
  empty. -/
  erasedCap : Tab (Nat × Nat)
  /-- Bytes a group's throttle still admits this epoch; no entry while it does not throttle. 64 entries of 40, signed.
  11 R274, R275. Reset empty. -/
  thrott : Tab Int
deriving DecidableEq, Repr

end Sys2Proof.Machine
end

