-- ==== Sys2Proof/Machine/StateD.lean ====
section
/-! DEFINITION. The state of the host ports: PCIe functions and links (14), fabric associations and queue pairs (13). -/

namespace Sys2Proof.Machine

/-- A completion that is postponed, with its stamps (14 R325; 02 R52). -/
structure Held where
  c : Cpl
  st : Stamp
deriving DecidableEq, Repr

/-- A PCIe function (14 R312-R319, R325): present, Bus Master Enable, Memory Space Enable, PASID Enable, CC.EN, CSTS.RDY,
CC.SHN seen, vector table size, VF Enable and NumVFs of a PF, the link it is on, and completions postponed while Bus
Master Enable is clear. -/
structure FnSt where
  present : Bool
  bme : Bool
  mse : Bool
  pasidEn : Bool
  ccEn : Bool
  rdy : Bool
  shst : Nat
  vecs : Nat
  vfEn : Bool
  numVfs : Nat
  link : Nat
  held : List Held
deriving DecidableEq, Repr

/-- A fabric association (13 R304): host NQN, subsystem NQN, slice, keep-alive timeout in ms (0 none) and when it was last
restarted, port and sub-port, device queue index of its admin queue. -/
structure Assoc where
  host : Nat
  sub : Nat
  slice : Nat
  kato : Nat
  last : Nat
  port : Nat
  subp : Nat
  aq : Nat
deriving DecidableEq, Repr

end Sys2Proof.Machine
end

