-- ==== Sys2Proof/Machine/StateE.lean ====
section
/-! DEFINITION. The state of the cipher units and key slots (12). -/

namespace Sys2Proof.Machine

/-- A key slot that is not FREE (12 R290): 1 DERIVING, 2 VALID, 3 REVOKED; its tag, the operations that hold it, when it was
last used, and whether its revocation waits for its derivation to end (R293). -/
structure KeySlot where
  st : Nat
  slice : Nat
  nsid : Nat
  gen : Nat
  purpose : Nat
  lru : Nat
  dying : Bool
deriving DecidableEq, Repr

/-- What a command does once the advances it caused are persistent (12 R292 step 4): delete the namespaces, or empty them, with a new LBA
format if it is a format. -/
inductive EraseKind
  | delete
  | format (lbaf : Nat)
  | sanitize
deriving DecidableEq, Repr

/-- A command that waits for advances: its sender and identifier, what it does, and the pairs of slice and NSID it names. -/
structure Erase where
  o : Org
  cid : Nat
  kind : EraseKind
  pairs : List (Nat × Nat)
deriving DecidableEq, Repr

/-- Key slots and generations (12). -/
structure CipSt where
  /-- Key slots that are not FREE, by number. 4,096 slots. 12 R290. Reset empty. -/
  slots : Tab KeySlot
  /-- Key generations of slice and NSID pairs that were used; others are at 1. 32 bits each. 12 R289. Reset empty (log 21). -/
  gens : List (Nat × Nat × Nat)
  /-- Retired pairs of slice and NSID. 12 R289. Reset empty (log 21). -/
  retired : List (Nat × Nat)
  /-- Consecutive health tests passed since RNG_FAIL. Width 11. 12 R280. Reset 0. -/
  passes : Nat
  /-- Use counter that orders slots by last use. Width 64. 12 R290. The model's own. Reset DESIGN CHOICE 0 (log 5). -/
  clock : Nat
  /-- Cipher units in a known-answer test's fence are fenced with their lanes; units failing now. 64 bits. 12 R281.
  Reset 0. -/
  failing : Nat
  /-- Namespace deletes, formats and sanitizes that wait for key generation advances to be persistent. 12 R292. Reset empty. -/
  erases : List Erase
deriving DecidableEq, Repr

end Sys2Proof.Machine
end

