-- ==== Sys2Proof/Machine/StateF.lean ====
section
/-! DEFINITION. The state of capture streams, frames in assembly, lane programs and the blocks that lanes hold (05). -/

namespace Sys2Proof.Machine

/-- An entry of the parser table (05 R132): operation, field width, offset, mask, value, next states and destination. -/
structure PEnt where
  op : Nat
  width : Nat
  off : Nat
  mask : Nat
  value : Nat
  next : Nat
  miss : Nat
  dest : Nat
deriving DecidableEq, Repr

/-- A compressor profile (05 R133): bit depth, packing, pattern, predictor, line length, adaptation window, bypass
threshold. -/
structure Prof where
  depth : Nat
  pack : Nat
  pattern : Nat
  pred : Nat
  line : Nat
  win : Nat
  thr : Nat
deriving DecidableEq, Repr

/-- A lane program (05 R130-R135): ID, epoch, section types present, sequence of operations and arguments, parser table,
profiles, cipher mode, index block interval in ms, parser slots copied. -/
structure LaneProg where
  id : Nat
  epoch : Nat
  secs : List Nat
  seq : List (Nat × Nat)
  parser : List PEnt
  profs : List Prof
  cmode : Nat
  idxMs : Nat
  slots : Nat
deriving DecidableEq, Repr

/-- How a frame closed (05 R125). -/
inductive FClose
  | complete
  | truncated
deriving DecidableEq, Repr

/-- A frame that is in assembly, or closed and not yet committed (05 R120-R127): number, length, head ID, source time,
whether numbering was restarted and whether it caused a resynchronisation, whether the time base was in holdover, arrival
TIME_NS and fraction, arrival as elapsed time, the pieces received by offset, the latest arrival, how it closed, whether
early, the program it runs under, the blocks passed to lanes, whether its bound was placed, how often the stream had resynchronised when it
came (R128), the staging units that its blocks reserved (06 R144), and the lane of each block. -/
structure Frame where
  num : Nat
  flen : Nat
  head : Nat
  src : Option Nat
  restart : Bool
  resync : Bool
  hold : Bool
  ns : Nat
  frac : Nat
  arr : Nat
  got : List (Nat × List Nat)
  last : Nat
  close : Option FClose
  early : Bool
  prog : LaneProg
  disp : Nat
  placed : Bool
  era : Nat
  res : Nat
  lanes : List Nat
deriving DecidableEq, Repr

/-- A capture stream (05 R109-R114). `state`, `blk`: as FRL_SINFO has them. `set`: its zone set, once it holds one;
`log`: committed log prefix in bytes; `iz`: its index zone in the index range; `recs`: index records not yet written, when each was made and
its bytes; `f`, `closed`, `high`: R128; `era`: resynchronisations so far; `frames` by number; `cnt`: FRL_SCNT; `cur`: its current lane
program; `desc`: its descriptor's bytes; `stop`: the Stop that waits for its frames (R114); `rx`, `rxAt`: the bytes of an RDMA message in
progress, and TIME_NS, its fraction and elapsed time of its first packet and elapsed time of its latest (R118-R120). -/
structure Stream where
  state : Nat
  blk : Nat
  slice : Nat
  rdma : Bool
  drop : Bool
  direct : Bool
  notices : Bool
  nsid : Nat
  dFirst : Nat
  dCount : Nat
  iFirst : Nat
  iCount : Nat
  w : Nat
  dg : Nat
  lc : Nat
  cur : LaneProg
  stall : Nat
  maxKib : Nat
  reorder : Nat
  mask : Nat
  ports : Nat
  udp : Nat
  sid : Nat
  qp : Nat
  filter : Nat
  set : Option Nat
  setNo : Nat
  log : Nat
  voids : List (Nat × Nat)
  iz : Option Nat
  izNo : Nat
  recs : List (Nat × List Nat)
  f : Nat
  closed : List Nat
  high : Nat
  frames : List Frame
  last : Nat
  cnt : List Nat
  desc : List Nat
  era : Nat
  stop : Option (Org × Nat)
  rx : List Nat
  rxAt : Option (Nat × Nat × Nat × Nat)
deriving DecidableEq, Repr

/-- A block a lane holds (05 R142): lane, stream, frame, block, since when, and lanes it faulted on. -/
structure LaneBlk where
  lane : Nat
  stream : Nat
  frame : Nat
  blk : Nat
  since : Nat
  faults : Nat
deriving DecidableEq, Repr

/-- When something reached a port: TIME_NS, its fraction, and elapsed time (05 R120; 01 R26). -/
structure RxStamp where
  ns : Nat
  frac : Nat
  el : Nat
deriving DecidableEq, Repr

/-- What a receive buffer keeps while an ingest budget is used up (01 R23, R30; 03 R79), with its stamp: a datagram on a sub-port, for an
address, VLAN and UDP port, from an address, its UDP length and payload; or a message of an RC QP, its address, its immediate, whether more of it
follows, and its bytes. -/
inductive RxItem
  | dgram (p u ip vlan udp src ulen : Nat) (b : List Nat) (t : RxStamp)
  | msg (qp addr : Nat) (imm : Option Nat) (more : Bool) (d : List Nat) (t : RxStamp)
deriving DecidableEq, Repr

/-- What a committed frame's stored bytes decode to: namespace, set's first LBA, RESETS of its first zone, log offset, stored
bytes, raw bytes. -/
structure FrameRec where
  nsid : Nat
  zslba : Nat
  resets : Nat
  log : Nat
  stored : List Nat
  raw : List Nat
deriving DecidableEq, Repr

/-- Capture (05). -/
structure CapSt where
  /-- Streams that are not FREE, by number. 256 streams. 05 R109. Reset empty. -/
  streams : Tab Stream
  /-- Lane programs of the active image, by ID. 16 of at most 128 KiB. 05 R130. Reset empty. -/
  progs : Tab LaneProg
  /-- Blocks in lane input buffers. 64 lanes. 05 R142. Reset empty. -/
  blks : List LaneBlk
  /-- What committed frames decode to: the model's own record of the lossless coding of 05 R133 and the cipher of 12 R284.
  Reset empty. -/
  store : List FrameRec
  /-- Datagrams and messages that wait in the receive buffers, oldest first. 8 × 512 KiB. 01 R23, R30; 03 R79. Reset empty. -/
  rx : List RxItem
deriving DecidableEq, Repr

end Sys2Proof.Machine
end

