-- ==== Sys2Proof/Machine/StateG.lean ====
section
/-! DEFINITION. The state of the Ethernet sub-ports, RC queue pairs and address tables (13). -/

namespace Sys2Proof.Machine

/-- An RC QP (13 R299, R302, R303): its sub-port, peer address, slice and queue once it has them, the association it carries,
whether it is in Error, path MTU, its timeout exponent and retry counts as the port held them when it was established,
retries and RNR retries made, current and target rate in Gb/s, α and stage of congestion control, and elapsed times of the
last CNP received, of the last decay, of the last increase and of the last CNP sent. -/
structure Qp where
  port : Nat
  sub : Nat
  peer : Nat
  svc : Nat
  slice : Option Nat
  queue : Option Nat
  assoc : Option Nat
  stream : Option Nat
  err : Bool
  mtu : Nat
  ackTmo : Nat
  retry : Nat
  rnrRetry : Nat
  tries : Nat
  rnrs : Nat
  rc : Rat
  rt : Rat
  alpha : Rat
  stage : Nat
  cnpAt : Nat
  decayAt : Nat
  incAt : Nat
  cnpTx : Option Nat
  reads : List (Nat × Nat)
deriving DecidableEq, Repr

/-- A sub-port (13 R297, R306): since when it waits to enter UP, when it entered HELD, its last entries to DOWN, the priorities
paused and until when, the bytes in its receive buffer, and the second and count of its echo replies. -/
structure SubX where
  waitAt : Nat
  heldAt : Nat
  downs : List Nat
  paused : List (Nat × Nat)
  fill : Nat
  echoAt : Nat
  echoes : Nat
deriving DecidableEq, Repr

/-- Ethernet ports and the fabric transport (13). -/
structure NetSt where
  /-- RC QPs by number. 16,384 QPs. 13 R302. Reset empty. -/
  qps : Tab Qp
  /-- Sub-ports by port × 8 + sub-port. 64 sub-ports. 13 R306. Reset empty. -/
  subs : Tab SubX
  /-- Peer MAC tables: port, IP address, MAC address, when learned. 8 × 4,096 entries. 13 R301. Reset empty. -/
  peers : List (Nat × Nat × Nat × Nat)
  /-- Transmissions that wait for a next hop: port, IP address, QP, since when. 13 R301. Reset empty. -/
  asks : List (Nat × Nat × Nat × Nat)
  /-- Transmissions that wait: port, sub-port, priority, QP if one sends, and what is sent. 13 R297, R301. Reset empty. -/
  txq : List (Nat × Nat × Nat × Option Nat × Out)
deriving DecidableEq, Repr

end Sys2Proof.Machine
end

