-- ==== Sys2Proof/Machine/StateH.lean ====
section
/-! DEFINITION. The state of the Puppeteer subsystem (16), of power, wake and thermal control (18, 01), of start-up and the
image (17), and of the register unit (23). What a register of these blocks holds is in the register file and stands there
only. -/

namespace Sys2Proof.Machine

/-- A mailbox entry (16 R356): source, TIME_NS of its first occurrence, sequence, COUNT, DATA, REDELIVER and COUNT_SAT. -/
structure MbxEnt where
  src : Nat
  ns : Nat
  seq : Nat
  count : Nat
  data : Nat
  redel : Bool
  full : Bool
deriving DecidableEq, Repr

/-- A die's entry of a sweep record (16 R366): TIME_NS at which its measurement completed, state (0 PENDING, 1 DONE, 2 UNREACHED,
3 SKIPPED), tiers measured, and whether it is being measured now. -/
structure SwEnt where
  ns : Nat
  st : Nat
  tiers : Nat
  busy : Bool
deriving DecidableEq, Repr

/-- A sweep record (16 R366): sweep ID, start TIME_NS, entries by global die. -/
structure Sweep where
  id : Nat
  start : Nat
  ents : Tab SwEnt
deriving DecidableEq, Repr

/-- The Puppeteer (16). -/
structure PupSt where
  /-- Pending mailbox entries. 256 entries with those in service. 16 R356. Reset empty. -/
  pend : List MbxEnt
  /-- Mailbox entries in service. At most 128. 16 R357. Reset empty. -/
  insvc : List MbxEnt
  /-- The two ITCM banks' contents, byte by byte. 2 × 512 KiB. 16 R351. Reset empty (zeros). -/
  itcm : List (List Nat)
  /-- DTCM bytes that are not zero, by address. 1 MiB. 16 R351. Reset empty (zeros). -/
  dtcm : List (Nat × Nat)
  /-- Valid L1 lines: core, data cache, line address. 4 × 2 × 512 lines. 16 R351, R353. Reset empty. -/
  l1 : List (Nat × Bool × Nat)
  /-- Elapsed time of the last watchdog write. Width 64. 16 R358. Reset 0. -/
  wdtAt : Nat
  /-- Elapsed time of the last accepted GO. Width 64. 16 R361. Reset 0. -/
  goAt : Nat
  /-- What the exchange now awaiting COMMIT is for: the slot of a CA 011 Commit with its sender and command identifier.
  16 R361, 17 R391. Reset none. -/
  exch : Option (Nat × Org × Nat)
  /-- Preloaded VOUT_COMMAND of the failover raise, in mV. Width 10. 16 R362. Reset 0. -/
  preRaise : Nat
  /-- Preloaded VOUT_COMMAND of the hold-up step, in mV. Width 10. 16 R362. Reset 0. -/
  preHold : Nat
  /-- Consecutive failed regulator transactions. Width 2. 16 R363. Reset 0. -/
  vFails : Nat
  /-- Consecutive good transactions while FAIL is set. Width 4. 16 R363. Reset 0. -/
  vGood : Nat
  /-- Elapsed time of the last transaction attempt while FAIL is set. Width 64. 16 R363. Reset 0. -/
  vRetryAt : Nat
  /-- Last READ_IOUT, in mA, and STATUS_WORD. 2 × 32. 16 R362. Reset 0, 0. -/
  vIout : Nat × Nat
  /-- Elapsed time since which the minimum pace has been at or above 1.04 × target. Width 64. 01 R19. Reset none. -/
  paceOkAt : Option Nat
  /-- Elapsed time of the last raise of VDD_CORE. Width 64. 01 R19. Reset 0. -/
  raisedAt : Nat
  /-- The last VDD_CORE held in Run, in mV. Width 10. 18 R399. Reset 0. -/
  runMv : Nat
  /-- The VDD_CORE that a wake restores, in mV, until the regulator reports it; the loop waits. Width 10. 18 R399. Reset 0 (none). -/
  waitMv : Nat
  /-- The latest calibration and the latest temperature sweep record. 2 records of 65,600 bytes. 16 R366. Reset none. -/
  sweeps : List (Option Sweep)
  /-- Elapsed times of the spare pair's last self-test. Width 64. 16 R348. Reset 0. -/
  testAt : Nat
  /-- NVMe-MI configuration values by identifier. 16 R364. Reset empty (each 0). -/
  miCfg : Tab Nat
  /-- VPD bytes that are not zero, by address. 256 bytes. 16 R364. Reset DESIGN CHOICE empty (log 46). -/
  vpd : Tab Nat
  /-- The step in force when the Puppeteer stopped, which is kept. Width 4. 16 R350. Reset none. -/
  kept : Option Nat
  /-- NVMe-MI requests held until the Puppeteer serves them, oldest first. 2 command slots. 16 R364, 17 R384. Reset empty. -/
  miHeld : List Instr
deriving DecidableEq, Repr

/-- Power states, wake and thermal control (18), and the pace loop's inputs (01). -/
structure PwrSt where
  /-- Elapsed time at which the controller was last not idle. Width 64. 18 R396. Reset 0. -/
  busyAt : Nat
  /-- LTR's no-snoop latency as the link partner allows, in ns; none while the link gives none. Width 32. 18 R397. Reset
  none. -/
  ltr : Option Nat
  /-- Host step of the last operational NVMe power state. Width 4. 18 R398. Reset 0. -/
  hostStep : Nat
  /-- Autonomous Power State Transition enabled. Width 1. 18 R398. Reset 0. -/
  apstEn : Bool
  /-- APST entries by power state: target state and idle time in ms. 32 entries of 64. 18 R398. Reset empty. -/
  apst : Tab (Nat × Nat)
  /-- The PACE_LOW step. Width 4. 18 R406. Reset 0. -/
  paceStep : Nat
  /-- Elapsed time of the last PACE_LOW. Width 64. 18 R406. Reset 0. -/
  paceAt : Nat
  /-- The overrun step, 0 none. Width 4. 18 R406. Reset 0. -/
  overStep : Nat
  /-- Elapsed time since which core power has exceeded the step's limit. Width 64. 18 R406. Reset none. -/
  overAt : Option Nat
  /-- Elapsed time since which core power has been within the limit. Width 64. 18 R406. Reset none. -/
  underAt : Option Nat
  /-- Elapsed time of the last move toward step 0. Width 64. 18 R407. Reset 0. -/
  moveAt : Nat
  /-- Sensors whose last reading was at or above 125 °C. 64 bits. 18 R412. Reset 0. -/
  hot : Nat
  /-- The fixed shutdown has tripped. Width 1. 18 R412. Reset 0. -/
  tripped : Bool
  /-- The sensor that tripped. Width 6. 18 R412. Reset 0. -/
  tripBy : Nat
  /-- Consecutive in-range conversions of each Failed remote input. 8 × 4. 18 R411. Reset empty (each 0). -/
  tsGood : Tab Nat
  /-- NTC parameters of TS0–TS7: resistance at 25 °C and B constant. 8 × 48. 18 R410, 17 R379. Reset empty. -/
  ntc : List (Nat × Nat)
  /-- Voltage target margin m, in 0.1 %. Width 8. 01 R17, 17 R379. Reset 0. -/
  margin : Nat
  /-- Temperature thresholds set by Feature 04h: sensor, under (true) or over, and degrees Celsius, signed. 18 entries of
  16. 18 R413. Reset empty (WCTEMP 105 for the composite over-temperature, log 47). -/
  tthr : List (Nat × Bool × Int)
  /-- ETH_WAKE_CFG.MODE of each port as the last low-power entry found it. 8 × 2. 13 R307. Reset empty (each 0). -/
  modes : List Nat
  /-- The wake record the wake island holds: code, index, reason and TIME_NS. 18 R403, R404. Reset none. -/
  wake : Option (Nat × Nat × Nat × Nat)
  /-- The device is in Jack. Width 1. 18 R401. Reset 0. -/
  jack : Bool
  /-- Level of WAKE_N: low while the controller needs its switched rails. Width 1. 18 R402. Reset 0 (low). -/
  wakeN : Bool
  /-- The step whose frame lanes and ingest bucket are in force. Width 4. 01 R34. Reset 0. -/
  admStep : Nat
  /-- The step whose Kazron width is in force. Width 4. 01 R34. Reset 0. -/
  widStep : Nat
deriving DecidableEq, Repr

/-- What a valid slot directory copy says (17 R374). -/
structure Dir where
  seq : Nat
  active : Nat
  trial : Option Nat
  tries : Nat
deriving DecidableEq, Repr

/-- Start-up, the image, the boot NOR and the fuses (17), the pins that start and stop the controller (21). -/
structure ImgSt where
  /-- POR_N is high. Width 1. 17 R371, 21. Reset 0. -/
  por : Bool
  /-- PFAIL_N is high. Width 1. 06 R159, 21. Reset DESIGN CHOICE 1 (log 48). -/
  pfailN : Bool
  /-- Level of FAULT_N: high in service and test, and in Jack. Width 1. 17 R370, 21 R460. Reset 0 (low). -/
  faultN : Bool
  /-- Islands that failed calibration at step 7 of this start: 0-7 IE0-IE7, 8-11 IK0-IK3, 12-13 ID0-ID1, 14 IP. 15 islands. 21 R467. Reset empty. -/
  noCal : List Nat
  /-- REFCLK was lost in service. Width 1. 21 R465. Reset 0. -/
  refLost : Bool
  /-- Register fields that the journal and the system area hold while the controller is without power, until start-up restores them:
  field, entry, sub-entry, path and value as the register file keeps them. 17 R384, R496, 02 R64. Reset empty (log 21). -/
  sys : Regs
  /-- The image's layout table, from start-up step 6 until step 10 puts it into force. 64 groups. 17 R382. Reset empty. -/
  layout : Tab Grp
  /-- The controller is in ROM recovery. Width 1. 17 R370, R383. Reset 0. -/
  rom : Bool
  /-- Admin-ready was reached in this start. Width 1. 17 R384. Reset 0. -/
  admReady : Bool
  /-- The other slot has been tried in this start. Width 1. 17 R381. Reset 0. -/
  second : Bool
  /-- Raise IMG_FALLBACK at admin-ready. Width 1. 17 R381. Reset 0. -/
  fellBack : Bool
  /-- The last stop was clean: a shutdown notification that completed its checkpoint. Width 1. 17 R385, 06 R164. Reset 0. -/
  clean : Bool
  /-- Start-up step 10 has completed. Width 1. 17 R371. Reset 0. -/
  replayed : Bool
  /-- The restart at step 3 keeps DRAM contents. Width 1. 17 R381. Reset 0. -/
  keepDram : Bool
  /-- This start-up was entered by a controller reset. Width 1. 17 R386. Reset 0. -/
  warm : Bool
  /-- The phase that the reset in progress ends in. Width 2. 17 R387. Reset 0. -/
  target : Nat
  /-- The start follows a Jack exit. Width 1. 18 R403. Reset 0. -/
  fromJack : Bool
  /-- Elapsed time at which POR_N rose or the Jack wake came. Width 64. 17 R394 (IMG_TIME). Reset 0. -/
  startAt : Nat
  /-- A start since format has taken place. Width 1. 19 R417. Reset DESIGN CHOICE 0 (log 20). -/
  started : Bool
  /-- Boot NOR devices fitted. Width 2. 17 R372. Reset DESIGN CHOICE 2 (log 48). -/
  nors : Nat
  /-- The two directory copies, byte by byte. 2 × 64 bytes. 17 R374. Reset DESIGN CHOICE empty, which is no valid copy (log 48). -/
  dirs : List (List Nat)
  /-- The bytes of slots A and B. 2 × 16 MiB. 17 R373. Reset DESIGN CHOICE empty (log 48). -/
  slots : List (List Nat)
  /-- The image store's image. 15 MiB. 17 R376. Reset empty. -/
  store : List Nat
  /-- The firmware mirrors of the two ITCM banks. 2 × 512 KiB. 17 R376. Reset empty. -/
  mirror : List (List Nat)
  /-- Fuse counter of burned SVN bits. Width 7. 17 R380. Reset PRESUMED 0 (log 48). -/
  svn : Nat
  /-- Revoke bits. Width 4. 17 R380. Reset DESIGN CHOICE 0 (log 48). -/
  revoked : Nat
  /-- VPP_FUSE is in regulation. Width 1. 17 R392. Reset DESIGN CHOICE 0 (log 48). -/
  vpp : Bool
  /-- Update buffer: ranges downloaded since the last Commit with their bytes, by offset. 16 MiB. 17 R388. Reset empty. -/
  upd : List (Nat × List Nat)
  /-- ROM loader blocks by offset. 17 R383. Reset empty. -/
  load : List (Nat × List Nat)
  /-- Program assignment of section 0x0E: the block-I/O lane program. Width 16. 17 R378, 12 R283. Reset none. -/
  blockProg : Option Nat
  /-- Register presets of section 0x07. 17 R495. Reset empty. -/
  presets : List (Nat × Nat)
  /-- PMBus address, VOUT format, exponent, VID base and step, power-up VOUT of section 0x08. 17 R379. Reset empty. -/
  vreg : List Nat
  /-- Bytes of the DRAM configuration of section 0x04. 128 bytes. 17 R379. Reset empty. -/
  dramCfg : List Nat
  /-- The structural sections in force, by type. 17 R378, R391. Reset empty. -/
  struct : Tab (List (List Nat))
  /-- Production test: TEST_MODE was high at the rise of POR_N. Width 1. 21 R459. Reset 0. -/
  prod : Bool
deriving DecidableEq, Repr

/-- The register unit (23). -/
structure GenSt where
  /-- High dwords latched: path, address of the register's low dword, value. 2 × 64. 23 R492. Reset empty. -/
  latch : List (Nat × Nat × Nat)
  /-- A start-up reset of the controller runs from the GEN_CTL write. Width 1. 23 R490. Reset 0. -/
  inReset : Bool
deriving DecidableEq, Repr

end Sys2Proof.Machine
end

