-- ==== Sys2Proof/Machine/StateI.lean ====
section
/-! DEFINITION. The state of the Kazron links (08), of the PCIe links and the CXL window (14), and of the DRAM controller
(15). What a register of these blocks holds is in the register file and stands there only. -/

namespace Sys2Proof.Machine

/-- A sequenced flit a sender keeps until it is acknowledged (08 R193, R196): sequence, type, bridge, LAST, tag, and what its payload
holds; a WRITE DATA flit's bytes are those of its transfer. -/
structure Flit where
  seq : Nat
  ty : Nat
  bridge : Nat
  last : Bool
  tag : Nat
  pay : List Nat
deriving DecidableEq, Repr

/-- Flits that wait for one direction of a hop (03 R73; 08 R195, R196): the operation whose transfer they are, where there is one,
type, bridge, LAST of the final one, tag, how many are left, and what a payload holds. -/
structure Xfer where
  op : Option DOp
  ty : Nat
  bridge : Nat
  last : Bool
  tag : Nat
  left : Nat
  pay : List Nat
deriving DecidableEq, Repr

/-- One direction of a hop (08 R188-R197): QUIET, since when its sender has had nothing to send, when it last sent a keepalive,
its sender's next sequence number and unacknowledged flits, when ACK last advanced; its receiver's next sequence number, whether
it has flit lock, consecutive flits accepted at one boundary, whether it holds part of a flit and since when, when it last saw a
burst or a flit, whether a NAK is out, and when a sequenced flit was last accepted; flits that wait at its sender; its receiver's
scrambler register of each lane (R185), and the symbols of a flit that has not come whole, by active lane (R196). -/
structure LDir where
  quiet : Bool
  idleAt : Nat
  keepAt : Nat
  next : Nat
  replay : List Flit
  ackAt : Nat
  rx : Nat
  lock : Bool
  good : Nat
  part : Option Nat
  seenAt : Nat
  nak : Bool
  progAt : Nat
  out : List Xfer
  scr : List Nat
  sym : List (List Int)
deriving DecidableEq, Repr

/-- The scrambler registers of the four lanes at the start of a burst: 0x7FFFFFFF less the lane's number (08 R185). -/
def scrSeeds : List Nat := [0x7FFFFFFF, 0x7FFFFFFE, 0x7FFFFFFD, 0x7FFFFFFC]

/-- A direction of a hop that has just trained, at an elapsed time. -/
def LDir.fresh (t : Nat) : LDir := ⟨false, t, t, 0, [], t, 0, true, 4, none, t, false, t, [], scrSeeds, []⟩

/-- A hop (08 R186): failures in a row, ALIGN width (4, 2 or 1; 0 none), lanes that passed ALIGN, since when it is in its
state, and its two directions. -/
structure Hop where
  fails : Nat
  width : Nat
  lanes : Nat
  since : Nat
  dn : LDir
  up : LDir
deriving DecidableEq, Repr

/-- A hop nothing is known of. -/
def Hop.fresh : Hop := ⟨0, 0, 0, 0, LDir.fresh 0, LDir.fresh 0⟩

/-- A link (08): hops, tags in use with the operation each one serves, write-buffer credits of B0–B3 and upstream forwarding
credits by position, in flits (R195), a width change that drains the link (R191), the sideband's level (true high) and
since when, hops whose break is recorded, positions enumerated with the serial the journal records, the die each position's
maximum width, and whether alerts are being read. -/
structure Link where
  hops : List Hop
  tags : Tab Nat
  cred : List Nat
  upCred : List Nat
  chg : Option Nat
  sb : Bool
  sbAt : Nat
  broken : List Nat
  serials : List (Option Nat)
  maxW : List Nat
  alerts : List Nat
deriving DecidableEq, Repr

/-- A link before anything happens on it. -/
def Link.fresh : Link :=
  ⟨[Hop.fresh, Hop.fresh, Hop.fresh, Hop.fresh], [], [2048, 2048, 2048, 2048], [64, 64, 64, 64], none, true, 0, [],
    [none, none, none, none], [4, 4, 4, 4], []⟩

/-- The Kazron links (08). -/
structure KzSt where
  /-- Links that differ from a fresh one. 64 links. 08 R186. Reset empty. -/
  links : Tab Link
deriving DecidableEq, Repr

/-- PCIe links and the CXL window (14). -/
structure PcxSt where
  /-- PERST_N of each link is high. 2 bits. 14 R312, R326. Reset DESIGN CHOICE false, false (log 48). -/
  perst : List Bool
  /-- The committed HDM decoder: host base address and size in bytes. 2 × 64. 14 R322, R323. Reset none. -/
  hdm : Option (Nat × Nat)
  /-- The host accepted CXL on link 0 when it trained. Width 1. 14 R319. Reset 0. -/
  cxlOk : Bool
  /-- Bursts of the CXL window that are not zero, by DPA / 64: 512 bits. 128 GiB. 14 R321, 15 R342. Reset empty. -/
  win : List (Nat × Nat)
  /-- The persistent range as the system area holds it, by DPA / 64. 8 GiB. 06 R160. Reset DESIGN CHOICE empty (log 21). -/
  img : List (Nat × Nat)
  /-- Persistent granules whose write-back is in flight. 06 R160. Reset empty. -/
  wb : List Nat
  /-- GPF Phase 2 waits for these granules. 14 R324. Reset none. -/
  gpf : Option (List Nat)
  /-- CXL writes held back by DIRTY_MAX: DPA, data of 512 bits, byte mask of 64, and what a partial write's check bits say. 06 R160. Reset
  empty. -/
  heldWr : List (Nat × Nat × Nat × Nat × Nat)
  /-- Functions whose NVMe asynchronous error Invalid Doorbell Register is set. 14 R316. Reset empty. -/
  badDb : List Nat
deriving DecidableEq, Repr

/-- A rank (15 R335, R336): refreshes owed, doubled refresh, consecutive MR4 reads at or below 85 °C, the bank position REFsb
takes next, and when its activation tables were last cleared. -/
structure Rank where
  owed : Nat
  dbl : Bool
  cool : Nat
  pos : Nat
  clrAt : Nat
  dblAt : Nat
deriving DecidableEq, Repr

/-- What a DRAM request does when it is served (15 R333): a CXL.mem read at a host address, with what the burst's check bits say, outcome and
symbol; a CXL.mem write with data, byte mask and the same; a scrub read with the same, the region of the burst and two numbers that name its
owner's entry (15 R340). -/
inductive DAct
  | read (hpa err sym : Nat)
  | write (hpa data mask err sym : Nat)
  | scrub (err sym region a b : Nat)
deriving DecidableEq, Repr

/-- A DRAM request (15 R333): port, device physical address, arrival and deadline as elapsed time, and what it does. -/
structure DReq where
  port : Nat
  dpa : Nat
  arr : Nat
  dl : Nat
  act : DAct
deriving DecidableEq, Repr

/-- Whether a request is a write. -/
def DReq.isWr (r : DReq) : Bool := match r.act with
  | .write _ _ _ _ _ => true
  | _ => false

/-- The DRAM controller (15). -/
structure DrcSt where
  /-- Ranks that differ from a fresh one, by channel × 2 + rank. 16 ranks. 15 R335. Reset empty. -/
  ranks : Tab Rank
  /-- Activation tables, by bank: rows and counts. 32 entries of each bank. 15 R337. Reset empty. -/
  act : Tab (List (Nat × Nat))
  /-- Rolling accumulated ACT counts, by bank. 15 R338. Reset empty (each 0). -/
  raa : Tab Nat
  /-- Bursts marked with the poison check pattern, by DPA / 64. 15 R339. Reset empty. -/
  poison : List Nat
  /-- Next burst of the scrub pass. Width 33. 15 R341. Reset 0. -/
  scrub : Nat
  /-- Channels that report DRAM_HOT. 8 bits. 15 R336. Reset 0. -/
  hot : Nat
  /-- The ranks are in self-refresh for Doze or Nap. Width 1. 15 R344. Reset 0. -/
  sref : Bool
  /-- Requests that wait, by channel, in order of arrival. 128 reads and 128 writes of each of 8 channels stand in its queues. 15 R334. Reset
  empty. -/
  queue : Tab (List DReq)
  /-- Open rows and the hits served in a row, by bank. 1,024 banks. 15 R334. Reset empty. -/
  rows : Tab (Nat × Nat)
  /-- Channels whose writes win until WR_LO. 8 bits. 15 R334. Reset 0. -/
  drain : Nat
deriving DecidableEq, Repr

end Sys2Proof.Machine
end

