-- ==== Sys2Proof/Machine/State.lean ====
section
/-! DEFINITION. The whole state of the block, its faults and refusals, and the state right after reset. -/

namespace Sys2Proof.Machine

/-- The block's state. Every register field of the spec lives in `regs`; the other parts hold what no register does. -/
structure State where
  regs : Regs
  tim : TimeSt
  evr : EvrSt
  ras : RasSt
  sl : SliceSt
  zn : ZoneSt
  stg : StgSt
  rdn : RdnSt
  die : DieUnit
  ftl : FtlSt
  fns : Tab FnSt
  assocs : Tab Assoc
  cip : CipSt
  cap : CapSt
  net : NetSt
  pup : PupSt
  pwr : PwrSt
  img : ImgSt
  gen : GenSt
  kz : KzSt
  pcx : PcxSt
  drc : DrcSt
  /-- What the block has sent to its outside, in order. The model's own record. Reset empty. -/
  outs : List Out
  /-- Number of free values drawn: a counter of the model. Reset DESIGN CHOICE 0 (log 3). -/
  free : Nat
  /-- Commands that wait, first in, first out. The model's queue. Reset empty. -/
  pending : List Instr
deriving DecidableEq, Repr

/-- Raised by no command: the spec gives every command of the table an effect. Safe: no run can stop with it. -/
inductive Fault
  | noEffect
deriving DecidableEq, Repr

/-- `notModelled`: the answer for a command without a meaning, by its mnemonic; no arm gives it. Safe: a run that met it
would stop. -/
inductive Refusal
  | notModelled (mnemonic : String)
deriving DecidableEq, Repr

/-- The answer of a command's meaning. -/
abbrev Res := Host.Outcome State Fault Refusal

/-- The state right after reset: every register at its reset value, nothing held, POR_N low. What the spec gives no value for stands
in the log (logs 3, 5, 20, 21, 22, 46, 48). -/
def State.reset : State where
  regs := []
  tim := ⟨0, 0, 0, none, [], 0, none⟩
  evr := ⟨[], 0, none, [], []⟩
  ras := ⟨[], 0, [], [], [], [], [], [], [], 0, [], 0, 0, [], []⟩
  sl := ⟨[], [], [], [], [], [], [], [], [100, 200, 500, 1000, 2000, 5000, 20000, 1000000], [80, 30, 2, 4], 1600000000,
    [0, 0, 0, 0, 0, 0], 0, [], [], [], []⟩
  zn := ⟨[], [], [], [], [], [], [], 0⟩
  stg := ⟨[], 0, [false, false], none, 0, false, 0, 0, false, [], [], [], 0, 0⟩
  rdn := ⟨[], [], none, [], [], [], [], []⟩
  die := ⟨[], [], [], 0, [], [], [], [], [], [], [], 0, [], 1, (0, 0, 0), 0⟩
  ftl := ⟨[], [], [], [], [], [], [], [], [], 1, [], [], 0, 0, none, 0, 0, none, [], [], []⟩
  fns := []
  assocs := []
  cip := ⟨[], [], [], 0, 0, 0, []⟩
  cap := ⟨[], [], [], [], []⟩
  net := ⟨[], [], [], [], []⟩
  pup := ⟨[], [], [[], []], [], [], 0, 0, none, 0, 0, 0, 0, 0, (0, 0), none, 0, 0, 0, [none, none], 0, [], [], none, []⟩
  pwr := ⟨0, none, 0, false, [], 0, 0, 0, none, none, 0, 0, false, 0, [], [], 0, [], [], none, false, false, 0, 0⟩
  img := ⟨false, true, false, [], false, [], [], false, false, false, false, false, false, false, false, 0, false, 0, false, 2, [[], []], [[], []], [], [[], []],
    0, 0, false, [], [], none, [], [], [], [], false⟩
  gen := ⟨[], false⟩
  kz := ⟨[]⟩
  pcx := ⟨[false, false], none, false, [], [], [], none, [], []⟩
  drc := ⟨[], [], [], [], 0, 0, false, [], [], 0⟩
  outs := []
  free := 0
  pending := []

end Sys2Proof.Machine
end

