-- ==== Sys2Proof/Machine/Ops.lean ====
section
/-! DEFINITION. The named operations over the state: registers, time, tables, completions, the journal, and the checks
that many commands share. -/

namespace Sys2Proof.Machine

/-! ### Bytes -/

/-- The value of bytes, least significant first. -/
def leVal : List Nat → Nat
  | [] => 0
  | b :: bs => cut 8 b + 256 * leVal bs

/-- The value of bytes, most significant first. -/
def beVal (l : List Nat) : Nat := leVal l.reverse

/-- `n` bytes of a value, least significant first. -/
def toLe : Nat → Nat → List Nat
  | 0, _ => []
  | n + 1, v => v % 256 :: toLe n (v / 256)

/-- A field of a little-endian structure: `n` bytes at `off`; bytes past the end are 0. -/
def leAt (l : List Nat) (off n : Nat) : Nat := leVal ((l.drop off).take n)

/-- One bit step of CRC-32C, reflected. -/
def crcBit (c : Nat) : Nat := if c % 2 = 1 then Nat.xor (c / 2) 0x82F63B78 else c / 2

/-- One byte step of CRC-32C. -/
def crcByte (c b : Nat) : Nat := (List.range 8).foldl (fun c _ => crcBit c) (Nat.xor c (cut 8 b))

/-- CRC-32C: Castagnoli, reflected, initial value and final XOR 0xFFFF_FFFF (05, "The frame lane pipeline"). -/
def crc32c (l : List Nat) : Nat := Nat.xor (l.foldl crcByte 0xFFFFFFFF) 0xFFFFFFFF

/-! ### Registers -/

/-- The value of a field of entry `i`, `j`, on path `p`. -/
def State.rd (s : State) (f : Fld) (i : Nat := 0) (j : Nat := 0) (p : Nat := 0) : Nat :=
  Regs.get ⟨f.id, i, j, p⟩ s.regs ^^^ f.reset i j

/-- Sets a field, cut to its width. -/
def State.wr (s : State) (f : Fld) (v : Nat) (i : Nat := 0) (j : Nat := 0) (p : Nat := 0) : State :=
  { s with regs := Regs.set ⟨f.id, i, j, p⟩ (cut f.w v ^^^ f.reset i j) s.regs }

/-- Adds to a count that saturates at the largest value its field holds. -/
def State.inc (s : State) (f : Fld) (i : Nat := 0) (j : Nat := 0) (n : Nat := 1) : State :=
  s.wr f (sat f.w (s.rd f i j + n)) i j

/-- Adds to a field that wraps. -/
def State.addw (s : State) (f : Fld) (n : Nat) (i : Nat := 0) (j : Nat := 0) : State :=
  s.wr f (s.rd f i j + n) i j

/-- Takes from a field, stopping at zero. -/
def State.dec (s : State) (f : Fld) (i : Nat := 0) (j : Nat := 0) (n : Nat := 1) : State :=
  s.wr f (s.rd f i j - n) i j

/-- Returns a field of one entry to its reset value. -/
def State.clr (s : State) (f : Fld) (i : Nat := 0) (j : Nat := 0) (p : Nat := 0) : State :=
  s.wr f (f.reset i j) i j p

/-! ### Time -/

/-- Elapsed time, in ns: the axis on which every wait, deadline and timeout is kept (19 R421). -/
def State.el (s : State) : Nat := s.tim.elFx / 2 ^ 32

/-- TIME_NS (19 R416). -/
def State.tns (s : State) : Nat := ((s.el : Int) + s.tim.ofs).toNat % 2 ^ 64

/-- The reported fraction of TIME_NS, in 2^-16 ns (19 R416). -/
def State.frac (s : State) : Nat := s.tim.elFx / 2 ^ 16 % 2 ^ 16

/-- The TIME_NS that an elapsed time stands at now. -/
def State.atNs (s : State) (e : Nat) : Nat := ((e : Int) + s.tim.ofs).toNat % 2 ^ 64

/-- An elapsed time as a 48-bit tick of 1.024 µs (03 R68). -/
def State.tick (s : State) (e : Nat) : Nat := s.atNs e / 2 ^ 10 % 2 ^ 48

/-- Urgency from elapsed and whole ticks (03 R69). Where deadline and arrival fall in one tick the fraction has no value: urgency 3 (log 85). -/
def urgencyOf (e d : Nat) : Nat :=
  if e * 100 < d * 50 then 0 else if e * 100 < d * 75 then 1 else if e * 100 < d * 90 then 2 else 3

/-- The urgency now of an arrival and a deadline (03 R69). -/
def State.urg (s : State) (arr dl : Nat) : Nat :=
  let a := s.tick arr
  urgencyOf ((s.tick s.el + 2 ^ 48 - a) % 2 ^ 48) ((s.tick dl + 2 ^ 48 - a) % 2 ^ 48)

/-! ### Sending, drawing, counting -/

/-- Sends something to the outside. -/
def State.send (s : State) (o : Out) : State := { s with outs := s.outs ++ [o] }

/-- Whether a transmission at a priority waits: the priority is paused, the QP waits for its next hop, or an earlier one of the priority or the QP
still waits (13 R297, R301). -/
def State.txWaits (s : State) (p u pr : Nat) (qp : Option Nat) : Bool :=
  ((Tab.find (p * 8 + u) s.net.subs).map (fun x => x.paused.any (fun e => e.1 = pr && s.el < e.2))).getD false
    || s.net.asks.any (fun e => e.1 = p && some e.2.2.1 = qp)
    || s.net.txq.any (fun e => e.1 = p && e.2.1 = u && (e.2.2.1 = pr || (e.2.2.2.1 = qp && qp.isSome)))

/-- Sends on a sub-port at a priority, for a QP where one sends, or has it wait (13 R297, R301). -/
def State.sendOn (s : State) (p u pr : Nat) (qp : Option Nat) (o : Out) : State :=
  if s.txWaits p u pr qp then { s with net := { s.net with txq := s.net.txq ++ [(p, u, pr, qp, o)] } } else s.send o

/-- Sends for a QP on its sub-port, at the priority of its packets. -/
def State.sendQp (s : State) (n : Nat) (o : Out) : State :=
  match Tab.find n s.net.qps with
  | some x => s.sendOn x.port x.sub (cut 3 (Config.txPrio n)) (some n) o
  | none => s.send o

/-- Sends a frame that is no QP's on a sub-port (13 R301). -/
def State.sendNet (s : State) (p u : Nat) (what : String) (args : List Nat) : State :=
  s.sendOn p u (cut 3 (Config.txPrio 0)) none (.net p u what args)

/-- A free value: the `k`-th kind, at the count now. -/
def State.drawn (s : State) (k : Nat) : Nat := Config.free k s.free

/-- Sorts by an order, keeping the order of equals. -/
def insSort {α : Type} (le : α → α → Bool) : List α → List α
  | [] => []
  | x :: xs => ins x (insSort le xs)
where
  ins (x : α) : List α → List α
    | [] => [x]
    | y :: ys => if le x y then x :: y :: ys else y :: ins x ys

/-- Advances the count of free values drawn. -/
def State.draw (s : State) : State := { s with free := s.free + 1 }

/-- A number no operation, codeword or job has. -/
def State.fresh (s : State) : Nat := s.die.nextId

/-- Takes the next number. -/
def State.bump (s : State) : State := { s with die := { s.die with nextId := s.die.nextId + 1 } }

/-- Applies a change for every element of a list, first to last. -/
def forEach {α : Type} (l : List α) (f : State → α → State) (s : State) : State := l.foldl f s

/-! ### Senders and slices -/

/-- The record a slice keeps beside its registers. -/
def State.sx (s : State) (n : Nat) : SliceX := (Tab.find n s.sl.ext).getD SliceX.fresh

/-- Puts a slice's record. -/
def State.putSx (s : State) (n : Nat) (x : SliceX) : State := { s with sl := { s.sl with ext := Tab.put n x s.sl.ext } }

/-- The states of 02 R47, as SLI_STS.STATE holds them. -/
def slFree : Nat := 0
/-- ACTIVE. -/
def slActive : Nat := 1
/-- RESETTING. -/
def slResetting : Nat := 2
/-- FENCED. -/
def slFenced : Nat := 3
/-- DELETING. -/
def slDeleting : Nat := 4

/-- A slice's state (02 R47). -/
def State.slState (s : State) (n : Nat) : Nat := s.rd F.SLI_STS_STATE n

/-- The binding of a function with the lowest binding index; PF0's fixed one is slice 0 without PASID (02 R43, 03 R65). -/
def State.lowBind (s : State) (func : Nat) : Option FBind :=
  if func = 0 then some ⟨0, none, 0, 0⟩
  else (s.sl.fbind.filter (fun b => b.func = func)).foldl
    (fun acc b => match acc with
      | none => some b
      | some a => if b.idx < a.idx then some b else some a) none

/-- The slice of a sender (02 R39, R42, 03 R65): PF0's admin queue and NVMe-MI are slice 0; a function's admin queue keeps the
slice it was made under. -/
def State.sliceOf (s : State) (o : Org) : Option Nat :=
  match o with
  | .mi => some 0
  | .fn 0 => some 0
  | .fn n =>
    match s.sl.qs.find? (fun e => !e.2.fabric && e.2.func = n && e.2.qid = 0) with
    | some e => some e.2.slice
    | none => (s.lowBind n).map (·.slice)
  | .fab a => (Tab.find a s.assocs).map (·.slice)
  | .io q => (Tab.find q s.sl.qs).map (·.slice)

/-- Whether a sender is slice 0, the manager (02 R39). -/
def isMgr (o : Org) : Bool :=
  match o with
  | .mi => true
  | .fn n => n = 0
  | _ => false

/-- Whose view a sender reads (20 R442). -/
def ctlOf (o : Org) : Ctl :=
  match o with
  | .mi => .mgr
  | .fn 0 => .mgr
  | .fn n => .fn n
  | .fab a => .fab a
  | .io _ => .mgr

/-- The controllers of a slice other than the manager's (20 R442, R444): enabled functions with a binding to it, and
fabric associations bound to it. -/
def State.ctlsOf (s : State) (n : Nat) : List Ctl :=
  (s.fns.filter (fun e => e.1 != 0 && e.2.ccEn && s.sl.fbind.any (fun b => b.func = e.1 && b.slice = n))).map (fun e => Ctl.fn e.1)
    ++ (s.assocs.filter (fun e => e.2.slice = n)).map (fun e => Ctl.fab e.1)

/-! ### Completions -/

/-- Do Not Retry of a status (20 R445, 17 R384). -/
def dnrOf (sct sc : Nat) : Bool :=
  if sct = 7 then [0xC0, 0xC4, 0xC6, 0xC7].contains sc
  else if sct = 0 && (sc = 0 || sc = 0x82) then false
  else Config.dnr sct sc

/-- Whether a completion makes an entry in the Error Information log (20 R445). -/
def errLogged (sct sc : Nat) : Bool :=
  !(sct = 0 && sc = 0) && !(sct = 7 && (sc = 0xC5 || sc = 0xC6)) && !(sct = 0 && sc = 0x82)

/-- Logs a non-zero completion (20 R445) and counts an integrity error (R444). -/
def State.logErr (s : State) (o : Org) (cid sct sc : Nat) (die : Option Nat) : State :=
  let s := if errLogged sct sc then
      { s with ras := { s.ras with errs := ((⟨s.rd F.RAS_ERRLOG_COUNT + 1, o, cid, sct, sc, die⟩ : ErrEnt) :: s.ras.errs).take 256 } }.addw
        F.RAS_ERRLOG_COUNT 1
    else s
  if (sct = 7 && sc = 0xC4) || (sct = 2 && sc = 0x81) then
    { s with ras := { s.ras with integrity := s.ras.integrity + 1 } }
  else s

/-- Whether a function may send now (14 R325). -/
def State.canSend (s : State) (func : Nat) : Bool :=
  match Tab.find func s.fns with
  | some f => f.bme
  | none => true

/-- Postpones a completion of a function whose Bus Master Enable is clear (14 R325). -/
def State.hold (s : State) (func : Nat) (c : Cpl) (t : Stamp) : State :=
  match Tab.find func s.fns with
  | some f => { s with fns := Tab.put func { f with held := f.held ++ [⟨c, t⟩] } s.fns }
  | none => s

/-- The admin queue of a sender (03 R65); NVMe-MI has none. -/
def State.admQ (s : State) (o : Org) : Option (Nat × Queue) :=
  match o with
  | .fn n => s.sl.qs.find? (fun e => !e.2.fabric && e.2.func = n && e.2.qid = 0)
  | .fab a => s.sl.qs.find? (fun e => e.2.fabric && e.2.assoc = a && e.2.qid = 0)
  | _ => none

/-- Changes the context of a queue in its place. -/
def State.mapQ (s : State) (i : Nat) (f : Queue → Queue) : State :=
  { s with sl := { s.sl with qs := s.sl.qs.map (fun (e : Nat × Queue) => if e.1 = i then (e.1, f e.2) else e) } }

/-- The completion queue of a submission queue. -/
def State.cqOf (s : State) (q : Queue) : Option CQ := s.sl.cqs.find? (fun c => c.func = q.func && c.cqid = q.cqid)

/-- Moves a completion queue's tail past a new entry. -/
def State.pushCq (s : State) (func cqid : Nat) : State :=
  { s with sl := { s.sl with cqs := s.sl.cqs.map (fun c =>
      if c.func = func && c.cqid = cqid then { c with tail := (c.tail + 1) % max c.size 1 } else c) } }

/-- Posts an entry on the admin completion queue of a function and signals its vector, which no coalescing delays (03 R82; 14 R317; log
87). -/
def State.postAdm (s : State) (n : Nat) (c : Cpl) : State :=
  let s := (s.send (.cpl c)).pushCq n 0
  match s.sl.cqs.find? (fun c => c.func = n && c.cqid = 0) with
  | some cq => s.send (.msix n cq.vec)
  | none => s

/-- A command of a sender's admin queue is outstanding no more (03 R65). -/
def State.admLess (s : State) (o : Org) : State :=
  match s.admQ o with
  | some (i, _) => s.mapQ i (fun q => { q with outst := q.outst - 1 })
  | none => s

/-- The stamps of a sender's admin queue (02 R52). -/
def State.admStamp (s : State) (o : Org) : Stamp :=
  match s.admQ o with
  | some (i, q) => ⟨q.slice, i, s.rd F.SLI_GEN_GEN q.slice, q.gen⟩
  | none => ⟨0, 0, 0, 0⟩

/-- Gives an admin completion to its sender: posted and signalled, postponed while its function may not send, or sent on its QP. -/
def State.admPost (s : State) (o : Org) (c : Cpl) (t : Stamp) : State :=
  match o with
  | .fn n => if s.canSend n then s.postAdm n c else s.hold n c t
  | .fab _ =>
    match s.admQ o with
    | some (_, q) => s.sendQp q.qp (.cpl c)
    | none => s.send (.cpl c)
  | _ => s.send (.cpl c)

/-- Completes an admin command: it is logged where it failed, outstanding no more (03 R65), and its entry is given. -/
def State.adm (s : State) (o : Org) (cid : Nat) (st : Nat × Nat) (dw0 : Nat := 0) (data : List Nat := []) : State :=
  ((s.logErr o cid st.1 st.2 none).admLess o).admPost o ⟨o, cid, st.1, st.2, dnrOf st.1 st.2, dw0, data⟩ (s.admStamp o)

/-- The sender's next admin command begins: the oldest that COMMAND_FETCH has fetched, else one that is fetched now (03 R65; log 7). -/
def State.admBegin (s : State) (o : Org) : State :=
  match s.admQ o with
  | some (i, q) => s.mapQ i (fun q' => if q.adm.isEmpty then { q' with outst := q'.outst + 1 } else { q' with adm := q'.adm.drop 1 })
  | none => s

/-- Whether a queue's reset waits (02 R57): its doorbells are ignored and nothing is fetched from it. -/
def State.resetting (s : State) (i : Nat) : Bool := s.sl.waits.any (fun w => !w.1 && w.2.1 = i)

/-- No firmware runs: the Puppeteer has stopped (16 R350), or a flush is DONE and the cores are stopped (06 R159 step 9). -/
def State.stopped (s : State) : Bool := s.rd F.PUP_STS_SPARE = 3 || s.rd F.MED_PF_STS_PHASE = 3

/-- Whether an exchange of the firmware runs or awaits COMMIT (16 R361). -/
def State.swapping (s : State) : Bool := s.rd F.PUP_STS_SWAP = 2 || s.rd F.PUP_STS_SWAP = 3

/-- Whether a sender is a function whose Bus Master Enable is clear, so that its commands are not fetched (14 R325). -/
def State.muted (s : State) (o : Org) : Bool :=
  match o with
  | .fn n => !s.canSend n
  | _ => false

/-- An admin command of a sender (02 R47, R59; 14 R325; 17 R384; 16 R350, R364): none is fetched before admin-ready, nor from a function that may
not read memory, and none of NVMe-MI is answered while the Puppeteer is stopped or its firmware is exchanged; it is not fetched while the slice is RESETTING or FREE, completes with 0xC0 where it
is FENCED or DELETING, and is executed otherwise. A queue whose reset waits gives none (R56, R57). -/
def State.admin (s : State) (o : Org) (cid : Nat) (f : State → State) : State :=
  if !s.img.admReady || s.muted o || (o = .mi && (s.stopped || s.swapping)) || ((s.admQ o).map (fun e => s.resetting e.1)).getD false then s else
  match s.sliceOf o with
  | none => s
  | some n =>
    let st := s.slState n
    if st = slActive then f (s.admBegin o)
    else if st = slFenced || st = slDeleting then (s.admBegin o).adm o cid (7, 0xC0)
    else s

/-! ### Queues and commands in flight -/

/-- The I/O command in flight of a queue and identifier. -/
def State.cmdOf (s : State) (q cid : Nat) : Option Cmd := s.zn.cmds.find? (fun c => c.q = q && c.cid = cid)

/-- Replaces a command in flight, keeping its place. -/
def State.putCmd (s : State) (c : Cmd) : State :=
  { s with zn := { s.zn with cmds := s.zn.cmds.map (fun d => if d.q = c.q && d.cid = c.cid then c else d) } }

/-- Adds a command in flight. -/
def State.addCmd (s : State) (c : Cmd) : State := { s with zn := { s.zn with cmds := s.zn.cmds ++ [c] } }

/-- Takes a command out of flight. -/
def State.dropCmd (s : State) (q cid : Nat) : State :=
  { s with zn := { s.zn with cmds := s.zn.cmds.filter (fun c => !(c.q = q && c.cid = cid)) } }

/-- Puts a queue's context. -/
def State.putQ (s : State) (i : Nat) (q : Queue) : State := { s with sl := { s.sl with qs := Tab.put i q s.sl.qs } }

/-- Whether a command's stamps are still those of its slice and queue (02 R52). -/
def State.live (s : State) (slice q genS genQ : Nat) : Bool :=
  s.rd F.SLI_GEN_GEN slice = genS &&
    (match Tab.find q s.sl.qs with
     | some c => c.gen = genQ
     | none => false)

/-- Discards a result whose stamp is stale (02 R52). -/
def State.stale (s : State) (slice : Nat) : State := s.inc F.SLI_STALE_CNT_CNT slice

/-- A vector's coalescing state. -/
def State.vecOf (s : State) (func vec : Nat) : VecSt :=
  (s.sl.vecs.find? (fun v => v.func = func && v.vec = vec)).getD ⟨func, vec, false, [], 0⟩

/-- Puts a vector's coalescing state. -/
def State.putVec (s : State) (v : VecSt) : State :=
  { s with sl := { s.sl with vecs := v :: s.sl.vecs.filter (fun w => !(w.func = v.func && w.vec = v.vec)) } }

/-- Signals a completion on its vector (03 R82): at once when the command is at urgency 2 or higher, when the vector has
coalescing disabled, when the function aggregates nothing, or when the threshold is reached; otherwise it waits. The
threshold field counts from 0, as the base specification has it. -/
def State.signal (s : State) (func vec urg : Nat) (t : Stamp) : State :=
  let v := s.vecOf func vec
  match Tab.find func s.sl.coal with
  | none => s.send (.msix func vec)
  | some co =>
    if urg ≥ 2 || v.cd || co.time = 0 || v.waiting.length ≥ co.thr then
      (s.putVec { v with waiting := [] }).send (.msix func vec)
    else s.putVec { v with waiting := v.waiting ++ [t], since := if v.waiting.isEmpty then s.el else v.since }

/-- Completes an I/O command that is in flight: it leaves flight; a stale stamp discards the completion (02 R52); otherwise the
entry is posted, counted and signalled. -/
def State.fin (s : State) (c : Cmd) (st : Nat × Nat) (dw0 : Nat := 0) (data : List Nat := []) (die : Option Nat := none) :
    State :=
  if (s.cmdOf c.q c.cid).isNone then s else
  let s := s.dropCmd c.q c.cid
  if !s.live c.slice c.q c.genS c.genQ then s.stale c.slice
  else
    let s := s.logErr (.io c.q) c.cid st.1 st.2 die
    let s := if st = stLate then s.inc F.LGR_SL_DLMISS_CNT c.slice else s
    let e : Cpl := ⟨.io c.q, c.cid, st.1, st.2, dnrOf st.1 st.2, dw0, data⟩
    match Tab.find c.q s.sl.qs with
    | none => s
    | some q =>
      let s := s.putQ c.q { q with outst := q.outst - 1 }
      if q.fabric then s.sendQp q.qp (.cpl e)
      else if !s.canSend q.func then s.hold q.func e ⟨c.slice, c.q, c.genS, c.genQ⟩
      else
        let s := (s.send (.cpl e)).pushCq q.func q.cqid
        match s.cqOf q with
        | some cq => s.signal q.func cq.vec (s.urg c.arr c.dl) ⟨c.slice, c.q, c.genS, c.genQ⟩
        | none => s

/-! ### The ledger's charges -/

/-- Charges `c` sixteenths of a µs to a slice and, when there is one, to a queue (03 R75): N is what the slice brought into the epoch and C ×
65,536 / w of the epoch, cut to a whole number. A slice that is FREE pays through slice 0. -/
def State.charge (s : State) (slice : Nat) (q : Option Nat) (c : Nat) : State :=
  let sl := if s.slState slice = slFree then 0 else slice
  let w := s.rd F.SLI_WEIGHT_WEIGHT sl
  let s := s.addw F.LGR_SL_CHG_CHG c sl
  let s := s.wr F.LGR_SL_NORM_N ((s.sx sl).nBase + s.rd F.LGR_SL_CHG_CHG sl * 65536 / (16 * max w 1)) sl
  let s := s.putSx sl { s.sx sl with hadWork := true }
  match q with
  | none => s
  | some i =>
    match Tab.find i s.sl.qs with
    | none => s
    | some x => s.putQ i { x with c := x.c + c, n := x.n + c * 65536 / 16, hadWork := true }

/-- Charges slice 0's background work in its account (03 R80): 0 reclamation, 1 patrol, 2 sweeps, 3 rebuild, 4 scrub,
5 system-area flushes. -/
def State.chargeBg (s : State) (k c : Nat) : State :=
  let s := s.charge 0 none c
  { s with sl := { s.sl with bg := s.sl.bg.mapIdx (fun i x => if i = k then x + c else x) } }

/-- Working dies: present, reachable and not retired (01 R31, 03 R80). -/
def State.workDies (s : State) : Nat := (s.die.dies.filter (fun e => e.2.present && e.2.reach && !e.2.retired)).length

/-! ### The journal -/

/-- Appends a journal entry (11 R264, R266). -/
def State.jn (s : State) (ty : Nat) (f : List Nat) (act : JAct := .none) : State :=
  { s with ftl := { s.ftl with jnext := s.ftl.jnext + 1, jtail := s.ftl.jtail ++ [JEnt.mk s.ftl.jnext ty f act s.el] } }

/-- Journals the blocks of a row's members, up to eight pairs of member and block in an entry (11 R266, type 0x06). -/
def State.jnBlks (s : State) (l : List Blk) : State :=
  let ps := l.mapIdx (fun m b => [m, b.die, b.blk])
  (List.range (ceilDiv l.length 8)).foldl (fun (s : State) i => s.jn 0x06 ((ps.drop (8 * i)).take 8).flatten) s

/-- Entries in the journal tail that are not persistent yet (11 R264). -/
def State.tailUse (s : State) : Nat := s.ftl.jtail.length + (s.ftl.jpages.map (fun p => p.ents.length)).sum

/-- Bytes the journal tail holds: 8 MiB of 32-byte entries (11 R264). -/
def tailEntries : Nat := 262144

/-- Whether the journal tail is full, so that a write waits at admission, and so does every operation that needs an entry (11
R265). -/
def State.tailFull (s : State) : Bool := s.tailUse ≥ tailEntries

/-! ### Zones -/

/-- Zone states, as ZON entries hold them (04 R108). -/
def znNone : Nat := 0
/-- Empty. -/
def znEmpty : Nat := 1
/-- Implicitly Opened. -/
def znImp : Nat := 2
/-- Explicitly Opened. -/
def znExp : Nat := 3
/-- Closed. -/
def znClosed : Nat := 4
/-- Read Only. -/
def znRo : Nat := 0xD
/-- Full. -/
def znFull : Nat := 0xE
/-- Offline. -/
def znOff : Nat := 0xF

/-- Blocks of a zone: its size and capacity (04 R86). -/
def zoneBlocks : Nat := 524288

/-- A zone's state. -/
def State.zst (s : State) (h : Nat) : Nat := s.rd F.ZON_ENT0_STATE h

/-- A zone's write pointer, less its start. -/
def State.wp (s : State) (h : Nat) : Nat := s.rd F.ZON_ENT2_WP_OFF h

/-- The end of a zone's committed data: its write pointer, or where it stood when the zone became Full (04 R107). -/
def State.cend (s : State) (h : Nat) : Nat := if s.zst h = znFull then ((Tab.find h s.zn.zx).map (·.fin)).getD 0 else s.wp h

/-- Whether a zone holds an active resource (04 R88). -/
def isActive (z : Nat) : Bool := z = znImp || z = znExp || z = znClosed

/-- The zone table's record of a zone. -/
def State.zxOf (s : State) (h : Nat) : ZoneX := (Tab.find h s.zn.zx).getD ⟨[], 0, false, 0, 0, 0, [], none, 0⟩

/-- Puts the zone table's record of a zone. -/
def State.putZx (s : State) (h : Nat) (z : ZoneX) : State := { s with zn := { s.zn with zx := Tab.put h z s.zn.zx } }

/-- Counts a change of a zone's entry (04 R108, SEQ). -/
def State.zseq (s : State) (h : Nat) : State := s.addw F.ZON_ENT7_SEQ 1 h

/-- Journals a zone's state and write pointer (11 R266, type 0x04). -/
def State.jnZone (s : State) (h : Nat) : State := s.jn 0x04 [h, s.zst h, s.wp h]

/-! ### User data -/

/-- The block held under a unit's number; zero where none is. -/
def Ud.get (k : Nat) : List (Nat × Nat) → Nat
  | [] => 0
  | (k', v) :: t => if k' = k then v else Ud.get k t

/-- Holds a block under a unit's number. -/
def Ud.put (k v : Nat) (l : List (Nat × Nat)) : List (Nat × Nat) :=
  l.filter (fun e => e.1 < k) ++ (if v = 0 then [] else [(k, v)]) ++ l.filter (fun e => k < e.1)

/-- The canonical form: unit numbers strictly rising and no zero block listed. -/
def Ud.wf : List (Nat × Nat) → Bool
  | [] => true
  | [(_, v)] => v != 0
  | (k, v) :: (k', v') :: t => v != 0 && k < k' && Ud.wf ((k', v') :: t)

/-- The number of block `off` of zone `h`. -/
def udZone (h off : Nat) : Nat := h * zoneBlocks + off

/-- The number of unit `u` of conventional row `r`. -/
def udRow (r u : Nat) : Nat := 2 ^ 40 + r * 2 ^ 20 + u

/-- Writes a block. -/
def State.setUd (s : State) (k v : Nat) : State := { s with zn := { s.zn with ud := Ud.put k v s.zn.ud } }

/-- Reads a block. -/
def State.getUd (s : State) (k : Nat) : Nat := Ud.get k s.zn.ud

/-- Forgets every block of a zone. -/
def State.wipeZone (s : State) (h : Nat) : State :=
  { s with zn := { s.zn with ud := s.zn.ud.filter (fun e => !(udZone h 0 ≤ e.1 && e.1 < udZone h zoneBlocks)) } }

end Sys2Proof.Machine
end

