-- ==== Sys2Proof/Machine/KzWire.lean ====
section
/-! DEFINITION. The Kazron wire: symbols, scrambling, the burst preamble, and the flit with its CRC and FEC (08 R184, R185, R189, R192, R193,
R195). Where the spec leaves a convention of the scrambler or of the code open, log 95 names the model's choice. -/

namespace Sys2Proof.Machine

/-! ### Symbols and lanes (08 R184, R187) -/

/-- The level of a pair of bits, the first the more significant: Gray code (R184). -/
def pamLevel (p : Nat) : Int := match p with
  | 0 => -3
  | 1 => -1
  | 3 => 1
  | _ => 3

/-- The pair that a level carries; a level between two is read as the nearer one, and midway as the higher. -/
def pamPair (v : Int) : Nat := if v < -2 then 0 else if v < 0 then 1 else if v < 2 then 3 else 2

/-- The pairs of a byte, the most significant first. -/
def bytePairs (b : Nat) : List Nat := [b / 64 % 4, b / 16 % 4, b / 4 % 4, b % 4]

/-- Bytes from pairs. -/
def pairBytes : List Nat → List Nat
  | a :: b :: c :: d :: ps => (64 * a + 16 * b + 4 * c + d) :: pairBytes ps
  | _ => []

/-- The widest set of working lanes: all four, lanes 0 and 1, lanes 2 and 3, else the lowest single one (R187). -/
def alignLanes (mask : Nat) : List Nat :=
  if cut 4 mask = 15 then [0, 1, 2, 3]
  else if bit mask 0 && bit mask 1 then [0, 1]
  else if bit mask 2 && bit mask 3 then [2, 3]
  else (([0, 1, 2, 3] : List Nat).filter (bit mask)).take 1

/-- Symbols of a flit on each lane at a width: 256 at width 4 (R184). -/
def flitUi (w : Nat) : Nat := 1024 / w

/-! ### Scrambling (08 R185) -/

/-- The next bit of PRBS-31 (x^31 + x^28 + 1) and the register after it. -/
def prbs (r : Nat) : Nat × Nat :=
  let b := (r / 2 ^ 30 + r / 2 ^ 27) % 2
  (b, (2 * r + b) % 2 ^ 31)

/-- Scrambles, or descrambles, pairs of bits, and gives the register after them. -/
def scramble : Nat → List Nat → List Nat × Nat
  | r, [] => ([], r)
  | r, p :: ps =>
    let a := prbs r
    let b := prbs a.2
    let t := scramble b.2 ps
    (Nat.xor p (2 * a.1 + b.1) :: t.1, t.2)

/-! ### Bursts (08 R189) -/

/-- The start marker, UI 80 to 95. -/
def startMarker : List Int := [3, 3, 3, -3, -3, -3, 1, -1, 3, -3, 1, 1, -1, -1, 3, -3]

/-- The preamble of a burst on every active lane: 96 UI, not scrambled. -/
def preamble : List Int :=
  (List.range 24).flatMap (fun _ => [3, -3]) ++ (List.range 8).flatMap (fun _ => [-3, -1, 1, 3]) ++ startMarker

/-! ### Flits (08 R192, R193, R195) -/

/-- One bit step of the flit's CRC-32, reflected. -/
def flitCrcBit (c : Nat) : Nat := if c % 2 = 1 then Nat.xor (c / 2) 0xEDB88320 else c / 2

/-- CRC-32 with polynomial 0x04C11DB7, reflected, initial value and final XOR of ones. -/
def flitCrc (l : List Nat) : Nat :=
  Nat.xor (l.foldl (fun c b => (List.range 8).foldl (fun c _ => flitCrcBit c) (Nat.xor c (cut 8 b))) 0xFFFFFFFF) 0xFFFFFFFF

/-- The byte of a flit at place `p` of FEC interleave `t`: 124 data bytes, byte i in interleave (i / 4) mod 2, then the four parity bytes. -/
def fecPlace (t p : Nat) : Nat := if p < 124 then 8 * (p / 4) + 4 * t + p % 4 else 248 + 4 * t + (p - 124)

/-- The bytes of an interleave. -/
def fecWord (l : List Nat) (t : Nat) : List Nat := (List.range 128).map (fun p => l.getD (fecPlace t p) 0)

/-- Syndrome `j` of RS(128, 124): the word at the root α to the power `j`. -/
def rsSynd (w : List Nat) (j : Nat) : Nat := w.foldl (fun s b => Nat.xor (gfMul (gfPow j) s) b) 0

/-- One step of the division by the generator x^4 + 15 x^3 + 54 x^2 + 120 x + 64, whose roots are α^0 to α^3. -/
def rsStep (r : Nat × Nat × Nat × Nat) (b : Nat) : Nat × Nat × Nat × Nat :=
  let f := Nat.xor r.1 b
  (Nat.xor r.2.1 (gfMul 15 f), Nat.xor r.2.2.1 (gfMul 54 f), Nat.xor r.2.2.2 (gfMul 120 f), gfMul 64 f)

/-- The four parity bytes of an interleave's data. -/
def rsParity (d : List Nat) : List Nat :=
  let r := d.foldl rsStep (0, 0, 0, 0)
  [r.1, r.2.1, r.2.2.1, r.2.2.2]

/-- The locator of place `p`. -/
def rsLoc (p : Nat) : Nat := gfPow (127 - p)

/-- The corrections of a word, places and values: none for a word without error, up to two bytes else; nothing where it cannot be corrected. -/
def rsFix (w : List Nat) : Option (List (Nat × Nat)) :=
  let s0 := rsSynd w 0
  let s1 := rsSynd w 1
  let s2 := rsSynd w 2
  let s3 := rsSynd w 3
  if s0 = 0 && s1 = 0 && s2 = 0 && s3 = 0 then some []
  else
    let d := Nat.xor (gfMul s1 s1) (gfMul s0 s2)
    if d = 0 then
      let x := gfMul (gfInv s0) s1
      if s0 = 0 || gfMul x s1 != s2 || gfMul x s2 != s3 then none
      else ((List.range 128).find? (fun p => rsLoc p = x)).map (fun p => [(p, s0)])
    else
      let a := gfMul (gfInv d) (Nat.xor (gfMul s0 s3) (gfMul s1 s2))
      let b := gfMul (gfInv d) (Nat.xor (gfMul s1 s3) (gfMul s2 s2))
      match (List.range 128).filter (fun p => Nat.xor (Nat.xor (gfMul (rsLoc p) (rsLoc p)) (gfMul a (rsLoc p))) b = 0) with
      | [p, q] =>
        let e := gfMul (gfInv (Nat.xor (rsLoc p) (rsLoc q))) (Nat.xor s1 (gfMul s0 (rsLoc q)))
        some [(p, e), (q, Nat.xor s0 e)]
      | _ => none

/-- What a receiver makes of 256 bytes: the corrected flit, the bytes corrected, whether the FEC could correct it and its CRC holds. -/
structure FlitRx where
  data : List Nat
  errs : List Nat
  ok : Bool
deriving DecidableEq, Repr

/-- Corrects a flit first, then checks its CRC (R192). -/
def flitDecode (l : List Nat) : FlitRx :=
  match rsFix (fecWord l 0), rsFix (fecWord l 1) with
  | some a, some b =>
    let e := a.map (fun x => (fecPlace 0 x.1, x.2)) ++ b.map (fun x => (fecPlace 1 x.1, x.2))
    let d := e.foldl (fun (d : List Nat) x => d.set x.1 (Nat.xor (d.getD x.1 0) x.2)) l
    ⟨d, e.map (·.1), leAt d 244 4 = flitCrc (d.take 244)⟩
  | _, _ => ⟨l, [], false⟩

/-- The header word: type, bridge, LAST, tag, sequence number, ACK (R193). -/
def flitHdr (ty br : Nat) (last : Bool) (tag seq ack : Nat) : Nat :=
  2 ^ 28 * ty + 2 ^ 26 * br + 2 ^ 25 * b2n last + 2 ^ 16 * tag + 2 ^ 8 * seq + ack

/-- A flit's 256 bytes from its header word and what its payload holds (R192). -/
def flitBytes (hdr : Nat) (pay : List Nat) : List Nat :=
  let b := toLe 4 hdr ++ (pay ++ List.replicate 240 0).take 240
  let d := b ++ toLe 4 (flitCrc b)
  d ++ rsParity ((fecWord d 0).take 124) ++ rsParity ((fecWord d 1).take 124)

/-- A LINK CONTROL payload: NAK, the quiet notice, a width request, and the first sequence number to replay (R195). -/
def lcPay (nak quiet : Bool) (width seq : Nat) : List Nat := [b2n nak + 2 * b2n quiet + 4 * width, seq] ++ List.replicate 16 0

/-- A flit type's name (R193). -/
def flitName (ty : Nat) : String := match ty with
  | 0 => "IDLE"
  | 1 => "COMMAND"
  | 2 => "WRITE DATA"
  | 3 => "READ DATA"
  | 4 => "STATUS"
  | 5 => "LINK CONTROL"
  | 6 => "MANAGEMENT"
  | _ => "BREAK NOTICE"

/-- Whether a type is sequenced (R193). -/
def sequenced (ty : Nat) : Bool := ty != 0 && ty != 5

/-! ### From symbols to bytes and back (08 R184, R185) -/

/-- The bytes that go on lane `j` of `w`, in order: byte i on lane i mod w. -/
def laneBytes (l : List Nat) (w j : Nat) : List Nat := (List.range (256 / w)).map (fun i => l.getD (w * i + j) 0)

/-- A flit's symbols by active lane, under the lanes' scrambler registers, and the registers after it. -/
def flitSyms (lanes scr : List Nat) (l : List Nat) : List (List Int × Nat) :=
  lanes.mapIdx (fun j n =>
    let t := scramble (scr.getD n 0) ((laneBytes l lanes.length j).flatMap bytePairs)
    (t.1.map pamLevel, t.2))

/-- A flit's bytes from the symbols of its active lanes, and the lanes' registers after it. -/
def symFlit (lanes scr : List Nat) (sym : List (List Int)) : List Nat × List Nat :=
  let w := lanes.length
  let ls := lanes.mapIdx (fun j n => scramble (scr.getD n 0) ((sym.getD j []).map pamPair))
  let bs := ls.map (fun x => pairBytes x.1)
  ((List.range 256).map (fun i => (bs.getD (i % w) []).getD (i / w) 0),
    (List.range 4).map (fun n => match (lanes.idxOf? n).bind (fun j => ls[j]?) with
      | some x => x.2
      | none => scr.getD n 0))

end Sys2Proof.Machine
end

