-- ==== Sys2Proof/Machine/Aes.lean ====
section
/-! DEFINITION. The ciphers of the frame lanes: AES-256 (12 R278), XTS for logical blocks (R283), GCM for frames (R284, R285), and the
derivation of keys from the root key (R288). The standards that the rules name give the algorithms (log 8). -/

namespace Sys2Proof.Machine

/-! ### AES-256 (FIPS 197): bytes as numbers below 256, a state as 16 of them, column by column -/

/-- Twice a byte in AES's field. -/
def aesX (a : Nat) : Nat := if a < 128 then 2 * a else Nat.xor (2 * a) 0x11B

/-- The product of two bytes in AES's field. -/
def aesMul (a b : Nat) : Nat :=
  ((List.range 8).foldl (fun (p : Nat × Nat) j => (if a.testBit j then Nat.xor p.1 p.2 else p.1, aesX p.2)) (0, b)).1

/-- A byte rotated left by `n`. -/
def rotByte (n a : Nat) : Nat := a * 2 ^ n % 256 + a / 2 ^ (8 - n)

/-- The S-box: the inverse, 0 for 0, and its affine image. -/
def aesSub (a : Nat) : Nat :=
  let v := ((List.range 256).find? (fun b => aesMul a b = 1)).getD 0
  [1, 2, 3, 4].foldl (fun acc n => Nat.xor acc (rotByte n v)) (Nat.xor v 0x63)

/-- The S-box as a table. -/
def sbox : List Nat := (List.range 256).map aesSub

/-- The inverse S-box as a table. -/
def sboxInv : List Nat := (List.range 256).map (fun b => sbox.idxOf b)

/-- The exclusive or of two strings of bytes. -/
def xorBytes (a b : List Nat) : List Nat := List.zipWith Nat.xor a b

/-- Word `i` of the key schedule from the words before it, newest first. -/
def keyWord (i : Nat) (ws : List (List Nat)) : List Nat :=
  let t := ws.headD []
  let sub := fun (w : List Nat) => w.map (fun b => sbox.getD b 0)
  let t :=
    if i % 8 = 0 then xorBytes (sub (t.drop 1 ++ t.take 1)) [2 ^ (i / 8 - 1), 0, 0, 0]
    else if i % 8 = 4 then sub t else t
  xorBytes (ws.getD 7 []) t

/-- The 15 round keys of a 32-byte key. -/
def roundKeys (key : List Nat) : List (List Nat) :=
  let ws := ((List.range 52).foldl (fun (ws : List (List Nat)) i => keyWord (i + 8) ws :: ws)
    ((List.range 8).map (fun i => (key.drop (4 * i)).take 4)).reverse).reverse
  (List.range 15).map (fun r => ((ws.drop (4 * r)).take 4).flatten)

/-- Rows shifted left, or right again. -/
def shiftRows (back : Bool) (st : List Nat) : List Nat :=
  (List.range 16).map (fun i => st.getD ((i + (if back then 12 else 4) * (i % 4)) % 16) 0)

/-- Every column times a circulant of the coefficients `m`. -/
def mixCols (m : List Nat) (st : List Nat) : List Nat :=
  (List.range 16).map (fun i => (List.range 4).foldl (fun acc j =>
    Nat.xor acc (aesMul (m.getD ((j + 4 - i % 4) % 4) 0) (st.getD (i / 4 * 4 + j) 0))) 0)

/-- AES-256 of a block under round keys (12 R278). -/
def aesEnc (ks : List (List Nat)) (b : List Nat) : List Nat :=
  let round := fun (st : List Nat) => shiftRows false (st.map (fun x => sbox.getD x 0))
  let st := (List.range 13).foldl (fun st r => xorBytes (mixCols [2, 3, 1, 1] (round st)) (ks.getD (r + 1) [])) (xorBytes b (ks.headD []))
  xorBytes (round st) (ks.getD 14 [])

/-- The block that AES-256 takes to `b`. -/
def aesDec (ks : List (List Nat)) (b : List Nat) : List Nat :=
  let round := fun (st : List Nat) => (shiftRows true st).map (fun x => sboxInv.getD x 0)
  let st := (List.range 13).foldl (fun st r => mixCols [14, 11, 13, 9] (xorBytes (round st) (ks.getD (13 - r) []))) (xorBytes b (ks.getD 14 []))
  xorBytes (round st) (ks.headD [])

/-- The bytes of a number, most significant first. -/
def toBe (n v : Nat) : List Nat := (toLe n v).reverse

/-- A string of bytes in pieces of 16. -/
def chunks16 (l : List Nat) : List (List Nat) := (List.range (ceilDiv l.length 16)).map (fun i => (l.drop (16 * i)).take 16)

/-- A piece filled with zeros to 16 bytes. -/
def pad16 (l : List Nat) : List Nat := l ++ List.replicate (16 - l.length) 0

/-! ### Keys (12 R288) -/

/-- A CMAC subkey (SP 800-38B): a block doubled. -/
def cmacX (v : Nat) : Nat := if v < 2 ^ 127 then 2 * v else Nat.xor (2 * v - 2 ^ 128) 0x87

/-- AES-CMAC of a message that is not empty. -/
def cmac (key msg : List Nat) : List Nat :=
  let ks := roundKeys key
  let k1 := cmacX (beVal (aesEnc ks (List.replicate 16 0)))
  let bs := chunks16 msg
  let last := bs.getLastD []
  let last := if last.length = 16 then xorBytes last (toBe 16 k1) else xorBytes (pad16 (last ++ [0x80])) (toBe 16 (cmacX k1))
  (bs.dropLast ++ [last]).foldl (fun c b => aesEnc ks (xorBytes c b)) (List.replicate 16 0)

/-- What the derivation of block `i` of a key of `l` bits takes as its message (R288). -/
def kdfInput (i slice nsid gen purpose l : Nat) : List Nat :=
  toBe 4 i ++ toBe 4 0x485A4B44 ++ [0] ++ toBe 2 slice ++ toBe 4 nsid ++ toBe 4 gen ++ [purpose] ++ toBe 4 l

/-- A key from a root key: 64 bytes for XTS, 32 for GCM (R288). -/
def deriveKey (root : List Nat) (slice nsid gen purpose : Nat) : List Nat :=
  let l := if purpose = 1 then 512 else 256
  (List.range (l / 128)).flatMap (fun i => cmac root (kdfInput (i + 1) slice nsid gen purpose l))

/-- The key of a tag, under the fused root key (R287, R288). -/
def keyOf (slice nsid gen purpose : Nat) : List Nat :=
  deriveKey ((List.range 32).map (fun i => cut 8 (Config.rootKey i))) slice nsid gen purpose

/-! ### XTS-AES-256 (IEEE 1619; 12 R283) -/

/-- A tweak times the primitive element of its field, the tweak's bytes little-endian. -/
def xtsX (t : Nat) : Nat := if t < 2 ^ 127 then 2 * t else Nat.xor (2 * t - 2 ^ 128) 0x87

/-- XTS of a data unit of whole pieces: one direction of AES on each piece between two additions of its tweak. -/
def xts (aes : List (List Nat) → List Nat → List Nat) (key : List Nat) (lba : Nat) (unit : List Nat) : List Nat :=
  let k1 := roundKeys (key.take 32)
  let t0 := leVal (aesEnc (roundKeys (key.drop 32)) (toLe 16 lba))
  ((chunks16 unit).foldl (fun (a : Nat × List (List Nat)) b =>
    let t := toLe 16 a.1
    (xtsX a.1, xorBytes (aes k1 (xorBytes b t)) t :: a.2)) (t0, [])).2.reverse.flatten

/-- A logical block, its metadata above its 4,096 bytes, with the bytes enciphered or deciphered and the metadata in clear (12 R283). -/
def xtsBlock (aes : List (List Nat) → List Nat → List Nat) (key : List Nat) (lba v : Nat) : Nat :=
  v / 256 ^ 4096 * 256 ^ 4096 + leVal (xts aes key lba (toLe 4096 v))

/-! ### GCM (SP 800-38D; 12 R284, R285) -/

/-- The product of two blocks in GHASH's field, bit 0 the most significant. -/
def ghMul (x y : Nat) : Nat :=
  ((List.range 128).foldl (fun (p : Nat × Nat) i =>
    (if x.testBit (127 - i) then Nat.xor p.1 p.2 else p.1, if p.2 % 2 = 0 then p.2 / 2 else Nat.xor (p.2 / 2) (0xE1 * 2 ^ 120))) (0, y)).1

/-- GHASH of a string whose parts are filled with zeros to whole blocks. -/
def ghash (h : Nat) (parts : List (List Nat)) : Nat :=
  ((parts.flatMap chunks16).map (fun b => beVal (pad16 b))).foldl (fun y b => ghMul (Nat.xor y b) h) 0

/-- A GCM message enciphered or deciphered: the byte at offset m is added to counter block inc32(J0) advanced by m / 16 (12 R284). -/
def gcmCtr (key : List Nat) (iv : Nat) (msg : List Nat) : List Nat :=
  let ks := roundKeys key
  ((chunks16 msg).mapIdx (fun i b => xorBytes b (aesEnc ks (toBe 12 iv ++ toBe 4 (i + 2))))).flatten

/-- The tag of a ciphertext and its additional data (12 R284, R285). -/
def gcmTag (key : List Nat) (iv : Nat) (aad ct : List Nat) : List Nat :=
  let ks := roundKeys key
  let h := beVal (aesEnc ks (List.replicate 16 0))
  let s := ghash h [aad, ct, toBe 8 (8 * aad.length) ++ toBe 8 (8 * ct.length)]
  xorBytes (toBe 16 s) (aesEnc ks (toBe 12 iv ++ toBe 4 1))

end Sys2Proof.Machine
end

