-- ==== Sys2Proof/Machine/Media.lean ====
section
/-! DEFINITION. Dies, blocks and stripe rows as the other parts use them: where a block of a zone lies, taking blocks,
queueing operations, what is missing from a stripe (04 R99-R103, 06 R152, 07 R169-R175, 09, 10 R232). -/

namespace Sys2Proof.Machine

/-! ### Geometry -/

/-- Blocks of 4 KiB in a member's QLC block: 128 MiB (04 R100). -/
def memBlocks : Nat := 32768

/-- Where a row's unit lies: data member, and 4 KiB block within the member's QLC block (04 R100). -/
def placeIn (k u : Nat) : Nat × Nat := (u / 16 % k, u / 16 / k * 16 + u % 16)

/-- The row's unit at a member's block: the converse of `placeIn`. -/
def unitAt (k m b : Nat) : Nat := (b / 16 * k + m) * 16 + b % 16

/-- The stripe row of a zone's block and its unit there (04 R100). -/
def rowOf (k off : Nat) : Nat × Nat := (off / (k * memBlocks), off % (k * memBlocks))

/-- Units of a row's first `n` that lie on data member `m`. -/
def onMember (k m n : Nat) : Nat :=
  let u := n / 16
  16 * (u / k + (if m < u % k then 1 else 0)) + (if u % k = m then n % 16 else 0)

/-- Blocks of user data in a one-bit page: 96 KiB (09 R207). -/
def pageBlocks : Nat := 24

/-- Blocks of a window stripe row on one member: 32 MiB (04 R100). -/
def winBlocks : Nat := 8192

/-- Pages of a window row: a last short one covers the rest of the 8,192 blocks. -/
def winPages : Nat := 342

/-- Blocks of a QLC wordline on one member: 384 KiB (04 R105). -/
def wlBlocks : Nat := 96

/-- Wordlines of a QLC block that carry user data. -/
def wlCount : Nat := 342

/-- Stripe of a member's block: 96 KiB (07 R166). -/
def stripeOf (b : Nat) : Nat := b / 24

/-- The codeword sizes of the tiers (10 R230). -/
def cwBytes (t : Nat) : Nat := [4448, 4608, 4800, 4992].getD t 4992

/-- The hard limits of the tiers (10 R230). -/
def hardLimit (t : Nat) : Nat := [120, 170, 230, 290].getD t 290

/-! ### Dies and blocks -/

/-- A die that was never enumerated: absent (08 R203). -/
def DieSt.absent : DieSt :=
  ⟨false, 0, false, false, [], none, 0, [], none, none, [65536, 65536, 65536, 65536, 65536, 65536, 65536], 25, 0, 0, 0, 0, 1, 25, [], [], none, 0, [0],
    []⟩

/-- A die's record. -/
def State.dieOf (s : State) (d : Nat) : DieSt := (Tab.find d s.die.dies).getD DieSt.absent

/-- Puts a die's record. -/
def State.putDie (s : State) (d : Nat) (x : DieSt) : State := { s with die := { s.die with dies := Tab.put d x s.die.dies } }

/-- The reference die of 09 R207. -/
def Desc.ref : Desc :=
  ⟨1, 6, 18592, 4, 342, 1910, 128, 32, 40, 60, 150, 250, 1175, 1800, 2400, 3500, 10000, 15000, 15, 25, 35, 500, 650, 110, 12, 6,
    3000, 140⟩

/-- The descriptor of a die. -/
def State.descOf (s : State) (d : Nat) : Desc := (s.die.descs.find? (fun x => x.id = (s.dieOf d).desc)).getD Desc.ref

/-- A block nothing was recorded of: erased at tier T0, never erased before (log 21). -/
def BlkSt.fresh : BlkSt := ⟨.erased, false, 0, 0, none, 0, 0, 0, false, 0, 0, 0⟩

/-- A block's record. -/
def State.blkOf (s : State) (b : Blk) : BlkSt := (Tab.find (b.die * 2048 + b.blk) s.die.blks).getD BlkSt.fresh

/-- Puts a block's record. -/
def State.putBlk (s : State) (b : Blk) (x : BlkSt) : State :=
  { s with die := { s.die with blks := Tab.put (b.die * 2048 + b.blk) x s.die.blks } }

/-- Whether a die takes operations: present, reachable, not retired. -/
def State.works (s : State) (d : Nat) : Bool := (s.dieOf d).present && (s.dieOf d).reach && !(s.dieOf d).retired

/-- Blocks of a die whose use is recorded as other than erased. -/
def State.usedBlks (s : State) (d : Nat) : Nat :=
  (s.die.blks.filter (fun e => e.1 / 2048 = d && e.2.use != .erased)).length

/-- Erased blocks of a die. -/
def State.erasedOn (s : State) (d : Nat) : Nat := (s.descOf d).blocks - s.usedBlks d

/-- The group a die belongs to. -/
def State.grpOfDie (s : State) (d : Nat) : Option (Nat × Grp) := s.rdn.groups.find? (fun e => e.2.dies.any (fun l => l.contains d))

/-- Spare blocks that a layout reserves on a die: its share of the die's blocks, rounded up (07 R170). -/
def State.shareOn (s : State) (g : Grp) (d : Nat) : Nat := ceilDiv ((s.descOf d).blocks * g.share) 1000

/-- Spare blocks a die reserves (07 R170); a die that only the target of a reshape holds reserves that layout's. -/
def State.spareOn (s : State) (d : Nat) : Nat :=
  match s.grpOfDie d, s.rdn.reshape with
  | some (_, g), _ => s.shareOn g d
  | none, some r => if r.target.dies.any (fun l => l.contains d) then s.shareOn r.target d else 0
  | none, none => 0

/-- Spare blocks of a die that no rebuild has taken (07 R170, R175). -/
def State.spareLeft (s : State) (d : Nat) : Nat := s.spareOn d - (s.rdn.subst.filter (fun e => e.blk.die = d)).length

/-- The first erased block of a die at or after its rotation cursor (06 R152). -/
def State.nextErased (s : State) (d : Nat) : Option Nat :=
  let n := (s.descOf d).blocks
  let c := (s.dieOf d).cursor
  ((List.range n).map (fun i => (c + i) % n)).find? (fun b => (s.blkOf ⟨d, b⟩).use = .erased)

/-- Releases the tail records that are reserved for a QLC block (10 R235). -/
def State.freeTails (s : State) (b : Blk) : State :=
  { s with die := { s.die with tails := s.die.tails.map (fun (e : Tail) =>
      if e.die = b.die && e.own.map (·.1) = some b.blk then { e with own := none } else e) } }

/-- Whether a block, by its number, is a tail block (10 R234). -/
def State.isTail (s : State) (k : Nat) : Bool := s.die.tails.any (fun e => e.die * 2048 + e.blk = k)

/-- The pass that a block first written now counts as visited in: this one where the patrol's cursor is past it (10 R246). -/
def State.seenNow (s : State) (b : Blk) : Nat :=
  if b.die * 2048 + b.blk < s.die.patrol.1 * 2048 + s.die.patrol.2.1 then s.die.pass else s.die.pass - 1

/-- Takes an erased block of a die for data and moves the cursor past it (06 R152). The spare that is left serves only as `rebuild` target (07
R170). -/
def State.takeBlk (s : State) (d : Nat) (onebit : Bool) (rebuild : Bool := false) : Option (State × Blk) :=
  match if rebuild || s.spareLeft d < s.erasedOn d then s.nextErased d else none with
  | none => none
  | some b =>
    let x := s.blkOf ⟨d, b⟩
    let s := s.putBlk ⟨d, b⟩ { x with
      use := .data, onebit := onebit, wns := 0, wsum := 0, wcnt := 0, refresh := false, seen := s.seenNow ⟨d, b⟩, psum := 0, pcnt := 0 }
    let s := if onebit then s.freeTails ⟨d, b⟩ else s
    let y := s.dieOf d
    some (s.putDie d { y with cursor := (b + 1) % max (s.descOf d).blocks 1 }, ⟨d, b⟩)

/-- Stamps a program on its block: the instant of its first program and the die temperature of each (10 R237; 01 R36). -/
def State.stampBlk (s : State) (b : Blk) (temp : Int) : State :=
  let x := s.blkOf b
  s.putBlk b { x with wns := if x.wcnt = 0 then s.tns else x.wns, wsum := x.wsum + temp, wcnt := x.wcnt + 1 }

/-- Stamps a program that a copy or a rebuild makes on a block, at the die's temperature (10 R237). -/
def State.stampNow (s : State) (b : Blk) : State := s.stampBlk b (s.dieOf b.die).temp

/-- Marks a block as holding no valid data, so that it waits for erase; a grown bad block stays so. -/
def State.staleBlk (s : State) (b : Blk) : State :=
  let x := s.blkOf b
  if x.use = .bad then s else s.putBlk b { x with use := .stale }

/-- Marks a block grown bad and counts it on its die (09 R221, R224). -/
def State.badBlk (s : State) (b : Blk) : State :=
  let x := s.blkOf b
  let d := s.dieOf b.die
  ((s.putBlk b { x with use := .bad }).putDie b.die { d with gbb := d.gbb + 1 }).jn 0x13 [b.die, b.blk]

/-! ### Operations -/

/-- Every operation of a die. -/
def DieSt.ops (x : DieSt) : List DOp := x.cur.toList ++ x.merged ++ x.susp.toList ++ x.queue

/-- Index of a kind of operation in a die's scales. -/
def opIdx : OpKind → Nat
  | .read => 0 | .prog1 => 1 | .coarse => 2 | .fine => 3 | .foldC => 4 | .foldF => 5 | .erase => 6

/-- Typical time of an operation, in µs (09 R207). -/
def tTyp (d : Desc) (k : OpKind) (senses : Nat) : Nat :=
  match k with
  | .read => d.tR * max senses 1
  | .prog1 => d.t1
  | .coarse => d.tC
  | .foldC => d.tC
  | .fine => d.tF
  | .foldF => d.tF
  | .erase => d.tE

/-- Maximum time of an operation, in µs (09 R207). -/
def tMax (d : Desc) (k : OpKind) (senses : Nat) : Nat :=
  match k with
  | .read => d.tRmax * max senses 1
  | .prog1 => d.t1max
  | .coarse => d.tCmax
  | .foldC => d.tCmax
  | .fine => d.tFmax
  | .foldF => d.tFmax
  | .erase => d.tEmax

/-- Queues an operation at a die, under a fresh number (09 R213). -/
def State.enq (s : State) (d : Nat) (o : DOp) : State :=
  let x := s.dieOf d
  (s.putDie d { x with queue := x.queue ++ [{ o with id := s.fresh, die := d }] }).bump

/-- Takes queued operations that fail a test away from a die, uncharged. -/
def State.dequeue (s : State) (d : Nat) (keep : DOp → Bool) : State :=
  let x := s.dieOf d
  s.putDie d { x with queue := x.queue.filter keep }

/-- Keeps only the operations of all dies that pass a test, in their queues. -/
def State.filterOps (s : State) (keep : DOp → Bool) : State :=
  { s with die := { s.die with dies := s.die.dies.map (fun e => (e.1, { e.2 with queue := e.2.queue.filter keep })) } }

/-- The queue number of work that no queue sent: one past the last (03 R65). -/
def noQueue : Nat := 32768

/-- The queue number that marks background copies, whose programs are counted as reclamation (03 R80). -/
def bgQueue : Nat := 32769

/-- A program of background copies is charged to reclamation, not to a queue. -/
def DOp.account (o : DOp) : DOp := if o.q = bgQueue then { o with q := noQueue, bg := some 0 } else o

/-- A one-bit page's program for written data, with the earliest deadline its data has (09 R214). -/
def pageOp (row : RowId) (m blk page slice q cid arr dl tier : Nat) (genS genQ : Nat) (purp : Purp) : DOp :=
  ⟨0, .prog1, blk, page, 0x3F, 0, purp, row, m, slice, q, cid, 0, genS, genQ, arr, dl, false, none, 0, 0, tier, 0, 1, 0, 0, none, Lad.foot, 0, false, 0⟩

/-! ### Stripe sets -/

/-- A die group, or its shadow layout while a reshape runs (07 R169, R180). -/
def State.grp (s : State) (g : Nat) (shadow : Bool) : Option Grp :=
  if shadow then
    match s.rdn.reshape with
    | some r => if r.grp = g then some r.target else Tab.find g s.rdn.groups
    | none => Tab.find g s.rdn.groups
  else Tab.find g s.rdn.groups

/-- Stripe sets of a group: rows × n × d (07 R169). -/
def Grp.sets (g : Grp) : Nat := g.perm.length * g.links.length * (g.dies.headD []).length

/-- The die of member `j` of stripe set `t` (07 R169). -/
def Grp.member (g : Grp) (set j : Nat) : Nat :=
  let rows := max g.perm.length 1
  let n := max g.links.length 1
  let d := max (g.dies.headD []).length 1
  let row := set % rows
  let t := set / rows
  let lpos := (g.perm.getD row []).getD ((t + j) % n) 0
  (g.dies.getD lpos []).getD ((t / n + (g.doff.getD row []).getD j 0) % d) 0

/-- The dies of a stripe set, members 0 to k + 1. -/
def Grp.members (g : Grp) (set : Nat) : List Nat := (List.range (g.k + 2)).map (g.member set)

/-! ### Stripe rows -/

/-- Numbers of rows that a Reset emptied begin past every zone handle. -/
def doomBase : Nat := 2 ^ 20

/-- A stripe row of a zone, a conventional row, or a row that reads admitted before a Reset still use (04 R97). -/
def State.srow (s : State) (r : RowId) : Option SRow :=
  if r.conv then (Tab.find r.h s.ftl.crows).map (·.row)
  else if doomBase ≤ r.h then Tab.find r.h s.zn.doomed
  else (s.zxOf r.h).rows[r.r]?

/-- Puts a stripe row back. -/
def State.putRow (s : State) (r : RowId) (x : SRow) : State :=
  if r.conv then
    match Tab.find r.h s.ftl.crows with
    | some c => { s with ftl := { s.ftl with crows := Tab.put r.h { c with row := x } s.ftl.crows } }
    | none => s
  else if doomBase ≤ r.h then { s with zn := { s.zn with doomed := s.zn.doomed.map (fun (e : Nat × SRow) => if e.1 = r.h then (e.1, x) else e) } }
  else
    let z := s.zxOf r.h
    s.putZx r.h { z with rows := z.rows.set r.r x }

/-- The stripe width of a row. -/
def SRow.k (x : SRow) : Nat := x.mem.length - 2

/-- The block a member is reached through: its substitute where one is complete or the row is active (07 R175, R176). -/
def State.memBlk (s : State) (r : RowId) (x : SRow) (m : Nat) : Blk :=
  match s.rdn.subst.find? (fun e => e.row = r && e.member = m && e.done) with
  | some e => e.blk
  | none => x.mem.getD m ⟨0, 0⟩

/-- A member pending substitution: lost, and its rebuild not complete (07 R175, R176). -/
def State.memPend (s : State) (r : RowId) (m : Nat) : Bool :=
  s.rdn.subst.any (fun e => e.row = r && e.member = m && !e.done)

/-- Whether a member is missing because its die is only unreachable (07 R172, R173). -/
def State.memUnreach (s : State) (r : RowId) (x : SRow) (m : Nat) : Bool :=
  let d := s.dieOf (s.memBlk r x m).die
  !s.memPend r m && !d.retired && !(d.present && d.reach)

/-- Whether a member is missing: unreachable, retired, or awaiting its substitute (07, "Reads with members missing"). -/
def State.memMissing (s : State) (r : RowId) (x : SRow) (m : Nat) : Bool :=
  s.memPend r m || !s.works (s.memBlk r x m).die

/-- The members of a row that are missing. -/
def State.missing (s : State) (r : RowId) (x : SRow) : List Nat := (List.range x.mem.length).filter (s.memMissing r x)

/-- Whether a stripe of a row is in the lost-stripe table (07 R177). -/
def State.isLost (s : State) (r : RowId) (stripe : Nat) : Bool :=
  s.rdn.lost.any (fun e => e.row = r && e.first ≤ stripe && stripe ≤ e.last)

/-- The blocks of a row. -/
def State.rowBlks (s : State) (r : RowId) (x : SRow) : List Blk :=
  (List.range x.mem.length).map (s.memBlk r x) ++ x.win.flatten

/-- Gives a row's blocks to reclamation, and drops its substitution and lost-stripe entries and rebuilds (04 R93, 07 R175, R177, R182). The
blocks hold no valid data from the moment the journal entry that drops the row is persistent. -/
def State.freeRow (s : State) (r : RowId) (x : SRow) : State :=
  let bs := s.rowBlks r x ++ (s.rdn.subst.filter (fun e => e.row = r)).map (·.blk)
  let s := { s with rdn := { s.rdn with
    subst := s.rdn.subst.filter (fun e => e.row != r)
    lost := s.rdn.lost.filter (fun e => e.row != r) } }
  let s := s.filterOps (fun o => o.row != r)
  (if r.conv then s.jn 0x04 [2 ^ 20 + r.h, 0, 0] (.stale bs) else s.jn 0x04 [r.h, s.zst r.h, s.wp r.h] (.stale bs))

/-! ### Rows that admitted reads still use (04 R97) -/

/-- Whether a read in flight was admitted with blocks in a row. -/
def State.rowRead (s : State) (r : RowId) : Bool :=
  s.zn.cmds.any (fun c => c.srcs.any (fun x => match x with
    | .unit q _ => q = r
    | _ => false))

/-- Gives a row another identity wherever it is named: operations, codewords, reconstructions, reads in flight, substitutions and lost
stripes. -/
def State.renameRow (s : State) (a b : RowId) : State :=
  let f := fun (o : DOp) => if o.row = a then { o with row := b } else o
  let g := fun (x : Src) => match x with
    | .unit q u => if q = a then Src.unit b u else .unit q u
    | y => y
  let dies := s.die.dies.map (fun (e : Nat × DieSt) => (e.1, { e.2 with
    queue := e.2.queue.map f, cur := e.2.cur.map f, merged := e.2.merged.map f, susp := e.2.susp.map f }))
  { s with
    die := { s.die with dies := dies, cws := s.die.cws.map (fun (w : CwJob) => { w with op := f w.op }) }
    zn := { s.zn with cmds := s.zn.cmds.map (fun (c : Cmd) => { c with srcs := c.srcs.map g }) }
    rdn := { s.rdn with
      recon := s.rdn.recon.map (fun (r : Recon) => if r.row = a then { r with row := b } else r)
      subst := s.rdn.subst.map (fun (e : Subst) => if e.row = a then { e with row := b } else e)
      lost := s.rdn.lost.map (fun (e : Lost) => if e.row = a then { e with row := b } else e) } }

/-- Takes the operations of a row that are not reads of admitted commands away; a wordline of it between passes is abandoned (04 R98). -/
def State.abandonRow (s : State) (r : RowId) (x : SRow) : State :=
  let s := s.filterOps (fun o => o.row != r || ((o.purp = .host || o.purp = .recon) && o.kind = .read))
  { s with die := { s.die with dies := s.die.dies.map (fun (e : Nat × DieSt) =>
      match e.2.between with
      | some (b, _, _) => if x.mem.contains ⟨e.1, b⟩ then (e.1, { e.2 with between := none }) else e
      | none => e) } }

/-- Parts a zone from a row: it goes to reclamation at once, or once the reads admitted before have completed (04 R97). -/
def State.partRow (s : State) (r : RowId) (x : SRow) : State :=
  let s := s.abandonRow r x
  if s.rowRead r then
    let n := doomBase + s.fresh
    let s := s.bump.renameRow r ⟨false, n, 0⟩
    { s with zn := { s.zn with doomed := Tab.put n x s.zn.doomed } }
  else s.freeRow r x

/-- Gives the rows whose reads have completed to reclamation (04 R97). -/
def State.freeDoomed (s : State) : State :=
  s.zn.doomed.foldl (fun (s : State) e =>
    if s.rowRead ⟨false, e.1, 0⟩ then s
    else
      let s := s.freeRow ⟨false, e.1, 0⟩ e.2
      { s with zn := { s.zn with doomed := Tab.del e.1 s.zn.doomed } }) s

/-! ### System-area stripe sets (01 R33; 07 R170) -/

/-- The die of member `j` of system-area stripe set `t`, a fixed 16+2 set: its members lie on links that follow one another, so that no two
share one. Which sets there are the spec does not give: where a set begins and which die of a link it takes have no body (log 94). -/
def sysDie (t j : Nat) : Nat := (Config.sysSet t + j) % 64 * 64 + Config.sysPos t j % 64

/-- Where a unit of the overflow log lies: stripe set, data member, and block of the member's one-bit page (06 R147). -/
def ovfPlace (u : Nat) : Nat × Nat × Nat := (u / 384, u / 24 % 16, u % 24)

/-- The die of member `j` of stripe set `t` of a flush bank: 56 sets of 16+2 on 1,008 dies (06 R158). -/
def bankDie (b t j : Nat) : Nat := sysDie (2 ^ 20 + 56 * b + t) j

/-! ### Charges of media work (03 R76) -/

/-- The charge of a sense shared by nothing else, in 1/16 µs. -/
def chgSense (d : Desc) (n : Nat) : Nat := n * d.tR * 16

/-- The charge of a transfer of bytes over a link: bytes / 29,500 µs, in 1/16 µs, rounded up (log 6). -/
def chgLink (bytes : Nat) : Nat := ceilDiv (bytes * 16) 29500

/-- The charge of a program of user bytes at a rate in MB/s, in 1/16 µs, rounded up (log 6). -/
def chgProg (bytes rate : Nat) : Nat := ceilDiv (bytes * 16) (max rate 1)

/-- The charge of `n` codewords of whole pages: tR × cw / P and the transfer of each. -/
def chgWhole (y : Desc) (t n : Nat) : Nat := ceilDiv (n * y.tR * 16 * cwBytes t) (y.planes * y.pp) + chgLink (n * cwBytes t)

/-- The charge of a write of `n` blocks to 16+2 stripes of the system area, as a window write: transfer, program and the sampled verify, with the
parity members' share (03 R76; 06 R147; 07 R172). -/
def State.chgSys (s : State) (y : Desc) (n : Nat) : Nat :=
  ceilDiv (18 * (chgLink (n * 4096) + chgProg (n * 4096) y.rate1 + ceilDiv (s.rd F.MED_VFY_CFG_ONEBIT_PCT * chgWhole y 0 n) 100)) 16

/-- The charge of a one-bit write of the system area or of a table: its link transfer and its program at the descriptor's rate. -/
def chgWrite (y : Desc) (bytes : Nat) : Nat := chgLink bytes + chgProg bytes y.rate1

end Sys2Proof.Machine
end

