-- ==== Sys2Proof/Machine/Look.lean ====
section
/-! DEFINITION. What the state's records show: values that several units compute from them and that registers show. -/

namespace Sys2Proof.Machine

/-- Units of staging SRAM: 256 MiB in 4 KiB units. -/
def stgUnits : Nat := 65536

/-- Units in the window pool: SRAM less 6 MiB for every active direct row (06 R146). -/
def State.winPool (s : State) : Nat := stgUnits - 1536 * s.rd F.ZON_DIRECT_ACTIVE

/-- Units of the window pool in use or reserved. -/
def State.winUsed (s : State) : Nat :=
  (s.stg.units.filter (fun u => u.pool = 0)).length + (s.zn.cmds.map (·.resWin)).sum
    + ((s.cap.streams.flatMap (fun e => e.2.frames)).map (fun f => f.res)).sum

/-- Free units of the window pool. -/
def State.winFree (s : State) : Nat := s.winPool - s.winUsed

/-- Operations that hold a key slot: commands of the namespace that the key serves, and frames with blocks on the cipher units (12 R290, R293). -/
def State.slotHolds (s : State) (k : KeySlot) : Nat :=
  let cs := s.zn.cmds.filter (fun c => c.slice = k.slice && c.nsid = k.nsid)
  if k.purpose = 1 then
    (cs.filter (fun c => (c.kind = .read && (c.st = .media || c.st = .unreach))
      || ((c.kind = .write || c.kind = .append || c.kind = .writeZeroes) && (c.st = .admitted || c.st = .place)))).length
  else
    (cs.filter (fun c => c.kind = .frameRead && c.fua && (c.st = .media || c.st = .unreach))).length
      + ((s.cap.streams.filter (fun e => e.2.slice = k.slice && e.2.nsid = k.nsid)).flatMap (fun e =>
          e.2.frames.filter (fun f => f.disp > 0 && f.prog.cmode = 1))).length

/-- The dies of a group. -/
def Grp.allDies (g : Grp) : List Nat := g.dies.flatten

/-- Free space of a group, in 0.1 % of its non-spare blocks (11 R272). -/
def State.freeOf (s : State) (g : Grp) : Nat :=
  let ds := g.allDies
  let total := (ds.map (fun d => (s.descOf d).blocks - s.spareOn d)).sum
  let busy := (s.die.blks.filter (fun e => ds.contains (e.1 / 2048) && (e.2.use = .data || e.2.use = .bad))).length
  let spare := (ds.map (fun d => s.spareOn d - s.spareLeft d)).sum
  (total - (busy - spare)) * 1000 / max total 1

/-- Whether free space of a group is critical (11 R275). -/
def State.critical (s : State) (g : Grp) : Bool := s.freeOf g ≤ s.rd F.FTL_GC_CFG_CRIT

/-- A contender: whether it contends only where no other waits (09 R216), its urgency, its slice's and its queue's
normalised charge, its deadline and its slice. -/
structure Key where
  idle : Bool
  urg : Nat
  ns : Nat
  nq : Nat
  dl : Nat
  slice : Nat
deriving DecidableEq, Repr

/-- Whether `a` wins over `b` (03 R74): higher urgency, lower slice charge, lower queue charge, earlier deadline, lower
slice number; a contender at idle priority loses to every other. -/
def Key.beats (a b : Key) : Bool :=
  if a.idle != b.idle then b.idle
  else if a.urg != b.urg then a.urg > b.urg
  else if a.ns != b.ns then a.ns < b.ns
  else if a.nq != b.nq then a.nq < b.nq
  else if a.dl != b.dl then a.dl < b.dl
  else a.slice < b.slice

/-- The normalised charge of a queue. -/
def State.nOfQ (s : State) (q : Nat) : Nat := ((Tab.find q s.sl.qs).map (·.n)).getD 0

/-- The media capacity of an epoch, in 1/16 µs (03 R80). -/
def State.mediaCap (s : State) : Nat := s.workDies * 1000 * 16

/-- Whether slice 0's background account `k` has reached its cap on die `d` (03 R80): reclamation is exempt while free space of the die's
group is critical (11 R275), and rebuild runs at its own share. -/
def State.capped (s : State) (k d : Nat) : Bool :=
  let tot := (s.sl.bg.mapIdx (fun i x => if i = 3 then 0 else x)).sum
  let bgFull := tot * 1000 ≥ s.mediaCap * s.sl.cfg.getD 0 80
  let patFull := s.sl.bg.getD 1 0 * 1000 ≥ s.mediaCap * s.sl.cfg.getD 1 30
  if k = 3 then false
  else if k = 0 && ((s.grpOfDie d).map (fun e => s.critical e.2)).getD false then false
  else bgFull || (k = 1 && patFull)

/-- Blocks of the dies in service. -/
def State.allBlocks (s : State) : Nat := (s.die.dies.map (fun e => if s.works e.1 then (s.descOf e.1).blocks else 0)).sum

/-- Window blocks that hold data. -/
def State.winBlksNow (s : State) : Nat := (s.die.blks.filter (fun e => e.2.onebit && e.2.use = .data && !s.isTail e.1)).length

/-- The window's effective size in hundredths of a block: PCT percent, or 4 percent and the blocks that hold no QLC data (06 R151). -/
def State.winEff100 (s : State) : Nat :=
  let t := s.allBlocks
  let busy := (s.die.blks.filter (fun e => s.works (e.1 / 2048) && (e.2.use = .data && !e.2.onebit || e.2.use = .bad))).length
  min (t * s.rd F.MED_WIN_CFG_PCT) (t * 4 + (t - busy) * 100)

/-- The target of a class in effect, in ns (03 R66). -/
def State.target (s : State) (lc : Nat) : Nat := s.sl.tgt.getD lc 1000000 * 1000

/-- When a fold whose wordline became eligible at `since` contends, by the window's fill now: at idle priority, with a deadline of its own past
FOLD_START, at urgency 3 when the window is full (06 R153). -/
def State.foldTimes (s : State) (since lc : Nat) : Bool × Nat :=
  let used := s.winBlksNow * 10000
  let dl := since + s.target lc
  if s.winEff100 ≤ used && s.allBlocks > 0 then (false, min s.el dl)
  else (decide (used ≤ s.winEff100 * s.rd F.MED_WIN_CFG_FOLD_START), dl)

/-- The earliest deadline of a command that waits for a block of a die's group to be erased, where one waits (09 R214; 04 R103). -/
def State.blockWanted (s : State) (d : Nat) : Option Nat :=
  match s.grpOfDie d with
  | none => none
  | some (g, _) =>
    ((s.zn.cmds.filter (fun c => c.st = .place && ((Tab.find c.nsid s.zn.ns).map (·.dg)) = some g)).map (·.dl)).min?

/-- Whether a queued operation is at idle priority, and its deadline: of a fold, by the window's fill now; of an erase, a waiting command's where
one waits (09 R214). -/
def State.opTimes (s : State) (o : DOp) : Bool × Nat :=
  if o.purp = .fold && o.idle then s.foldTimes o.arr o.lc
  else if o.kind = .erase then (o.idle, (s.blockWanted o.die).getD o.dl)
  else (o.idle, o.dl)

/-- Whether an operation contends only where no other candidate waits: at idle priority, or background work whose cap is
reached (03 R80, 09 R216); a fine pass raised to urgency 3 contends as any other (09 R209). -/
def State.idleOp (s : State) (o : DOp) : Bool :=
  (s.opTimes o).1 || (match o.bg with
    | some k => s.capped k o.die
    | none => false)

/-- A deadline in ticks of 1.024 µs (03 R68). No wait outlasts the 48 bits, so the comparison of whole ticks is that of the count. -/
def State.dlTick (s : State) (dl : Nat) : Nat := s.atNs dl / 2 ^ 10

/-- The key of an operation. -/
def State.opKey (s : State) (o : DOp) : Key :=
  ⟨s.idleOp o, s.urg o.arr (s.opTimes o).2, s.rd F.LGR_SL_NORM_N o.slice, s.nOfQ o.q, s.dlTick (s.opTimes o).2, o.slice⟩

/-- How long the current erase of a die has run since it started or last resumed, in µs. -/
def State.ranUs (s : State) (x : DieSt) : Nat := (s.el - x.curAt) / 1000

/-- Suspensions an erase may take (09 R216). -/
def State.susMax (s : State) (d : Nat) : Nat := min (s.rd F.MED_SCHED_CFG_SUS_MAX) (s.descOf d).susLim

/-- Whether the running erase of a die may be suspended for a non-idle operation with a key (09 R216). -/
def State.maySuspend (s : State) (d : Nat) (k : Key) : Bool :=
  let x := s.dieOf d
  match x.cur with
  | some e => e.kind = .erase && !k.idle && k.beats (s.opKey e) && e.sus < s.susMax d
      && s.ranUs x ≥ s.rd F.MED_SCHED_CFG_MIN_RUN * 10 && (x.queue.take 128).all (fun o => !(s.opKey o).beats k)
  | none => false

/-- A scaled typical time, in ns. -/
def State.scaled (s : State) (d : Nat) (k : OpKind) (senses : Nat) : Nat :=
  (s.dieOf d).scale.getD (opIdx k) 65536 * tTyp (s.descOf d) k senses * 1000 / 65536

/-- What remains of an operation, in ns. -/
def State.remaining (s : State) (d : Nat) (o : DOp) : Nat :=
  s.scaled d o.kind o.senses - (o.ran * 1000 + (s.el - (s.dieOf d).curAt))

/-- Operations that a die's queue holds; those beyond wait in the scheduler's common pool (09 R213). -/
def dieQueue : Nat := 128

/-- The operations in a die's queue. -/
def DieSt.inQueue (x : DieSt) : List DOp := x.queue.take dieQueue

/-- Whether a read may share the winner's sense with the `n` reads already taken, on the planes `used` (09 R213): the same number of senses; the
same page on other planes, or, with PLANE_MERGE on a die that allows it, up to its limit, any page on other planes. A read of a whole
page shares the sense of that page. -/
def State.joins (s : State) (d : Nat) (w : DOp) (used n : Nat) (o : DOp) : Bool :=
  let lim := (s.descOf d).ipr
  o.kind = .read && w.kind = .read && o.senses = w.senses && o.id != w.id
    && (let same := o.blk = w.blk && o.page = w.page && o.tier = w.tier
        (same && (o.planes = 0x3F || w.planes = 0x3F) && o.pages = w.pages)
          || (o.pages = 1 && w.pages = 1 && Nat.land o.planes used = 0
            && (same || (s.rd F.MED_SCHED_CFG_PLANE_MERGE = 1 && 2 ≤ lim && n < lim))))

/-- The times of operations that run one after another, in ns; a read that shares the sense of one before it adds none (09 R217). -/
def State.runTimes (s : State) (d : Nat) (l : List DOp) : Nat :=
  (l.foldl (fun (a : List (DOp × Nat × Nat) × Nat) o =>
    match a.1.findIdx? (fun g => s.joins d g.1 g.2.1 g.2.2 o) with
    | some i => (a.1.modify i (fun g => (g.1, Nat.lor g.2.1 o.planes, g.2.2 + 1)), a.2)
    | none => (a.1 ++ [(o, o.planes, 1)], a.2 + s.scaled d o.kind o.senses)) (([], 0) : List (DOp × Nat × Nat) × Nat)).2

/-- The predicted wait of a read with a key at a die, in µs (09 R217). -/
def State.predict (s : State) (d : Nat) (k : Key) : Nat :=
  let x := s.dieOf d
  let y := s.descOf d
  let run := s.ranUs x
  let minRun := s.rd F.MED_SCHED_CFG_MIN_RUN * 10
  let w0 := match x.cur with
    | none => 0
    | some o =>
      if s.maySuspend d k then y.tSus * 1000
      else if o.kind = .erase && o.sus < s.susMax d && run < minRun then (minRun - run + y.tSus) * 1000
      else s.remaining d o
  (w0 + s.runTimes d (x.inQueue.filter (fun o => (s.opKey o).beats k))) / 1000

/-- Codewords of a pack unit that fit in its pages. -/
def nFit (d : Desc) (t : Nat) : Nat := min winBlocks (d.wl * (d.planes * d.pp) / cwBytes t)

/-- Tail codewords of a pack unit at a tier (10 R234). -/
def tailCws (y : Desc) (t : Nat) : Nat := winBlocks - nFit y t

/-- Tail records that a tail block holds at a tier; 0 where a record would not fit (10 R234). -/
def tailRecs (y : Desc) (t : Nat) : Nat := y.wl / max 1 (ceilDiv (tailCws y t * cwBytes t) (y.planes * y.pp))

/-- Pages of a tail record at a tier (10 R234). -/
def tailPages (y : Desc) (t : Nat) : Nat := ceilDiv (tailCws y t * cwBytes t) (y.planes * y.pp)

/-- Decoders in service. -/
def State.decUp (s : State) (d : Nat) : Bool := bit (s.rd F.RCH_DEC_AVAIL_MASK (d / 64)) (d % 64)

/-- The tail record of a quarter of a QLC block (10 R234). -/
def State.tailOf (s : State) (b : Blk) (q : Nat) : Option Tail := s.die.tails.find? (fun e => e.die = b.die && e.own = some (b.blk, q))

/-- Whether a tail record is programmed and verified as a whole. -/
def State.tailDone (s : State) (e : Tail) : Bool := tailPages (s.descOf e.die) e.tier ≤ e.pages

/-- Tail-area use of a die, in %: its live records, each as its share of a tail block, of RCH_TAIL_CFG.BLOCKS. -/
def State.tailPct (s : State) (d : Nat) : Nat :=
  let live := s.die.tails.filter (fun e => e.die = d && e.own.isSome)
  min 100 ((live.map (fun e => 1000000 / max 1 (tailRecs (s.descOf d) e.tier))).sum / (10000 * max 1 (s.rd F.RCH_TAIL_CFG_BLOCKS)))

/-- Whether the window is full, so that window-route admission falls to the fold rate (06 R153). -/
def State.winFull (s : State) : Bool := s.winEff100 ≤ s.winBlksNow * 10000 && s.allBlocks > 0

/-- Whether a write on the window route may be admitted now: while the window is full only what folds have freed (06 R153). -/
def State.foldOpen (s : State) : Bool := !s.winFull || s.stg.foldCred > 0

/-- Takes admitted bytes from what folds have freed (06 R153). -/
def State.foldTake (s : State) (bytes : Nat) : State :=
  if s.winFull then { s with stg := { s.stg with foldCred := s.stg.foldCred - bytes } } else s

/-- A folded wordline frees room for as many bytes of admission while the window is full (06 R153). -/
def State.foldFreed (s : State) (bytes : Nat) : State :=
  { s with stg := { s.stg with foldCred := if s.winFull then s.stg.foldCred + bytes else 0 } }

/-- Spare blocks of a group: all, and those no substitution uses (07 R170). -/
def State.spareOf (s : State) (g : Grp) : Nat × Nat :=
  let ds := g.dies.flatten
  let tot := (ds.map s.spareOn).sum
  let free := (ds.map (fun d => if (s.dieOf d).retired then 0
    else s.spareLeft d)).sum
  (tot, free)

/-- Available Spare: the lowest, over the die groups, of the unused spare blocks in percent. -/
def State.availSpare (s : State) : Nat :=
  (s.rdn.groups.map (fun e => let p := s.spareOf e.2; if p.1 = 0 then 100 else p.2 * 100 / p.1)).foldl min 100

/-- Every stripe row in use. -/
def State.allRows (s : State) : List (RowId × SRow) :=
  s.zn.zx.flatMap (fun e => e.2.rows.mapIdx (fun i x => (RowId.mk false e.1 i, x)))
    ++ s.ftl.crows.map (fun e => (RowId.mk true e.1 0, e.2.row))

/-- Whether some stripe set of data has two missing members. -/
def State.twoMissing (s : State) : Bool := s.allRows.any (fun e => (s.missing e.1 e.2).length ≥ 2)

/-- A temperature sensor in °C: 0 the composite, 1 to 8 TS0 to TS7; a Failed or off input reports none (18 R413). -/
def State.tempOf (s : State) (k : Nat) : Option Int :=
  if k = 0 then some (toSigned 8 (s.rd F.THM_STS_TJ_MAX))
  else if s.rd F.THM_TS_STS_STATE (k - 1) = 1 then some (toSigned 12 (s.rd F.THM_TS_STS_TEMP (k - 1)) / 8)
  else none

/-- The over-temperature threshold of a sensor: as set, else WCTEMP for the composite (18 R413). -/
def State.overThr (s : State) (k : Nat) : Option Int :=
  match s.pwr.tthr.find? (fun t => t.1 = k && !t.2.1) with
  | some t => some t.2.2
  | none => if k = 0 then some 105 else none

/-- The under-temperature threshold of a sensor, where one is set. -/
def State.underThr (s : State) (k : Nat) : Option Int :=
  (s.pwr.tthr.find? (fun t => t.1 = k && t.2.1)).map (·.2.2)

/-- Whether a sensor's temperature crosses one of its thresholds. -/
def State.tempCrossed (s : State) (k : Nat) : Bool :=
  match s.tempOf k with
  | none => false
  | some t => ((s.overThr k).map (fun x => decide (x ≤ t))).getD false || ((s.underThr k).map (fun x => decide (t ≤ x))).getD false

/-- Whether the last flush, or the one that runs, passed 20 ms (06 R162, R165). -/
def State.overran (s : State) : Bool :=
  s.rd F.MED_PF_STS_OVERRUN = 1 || (s.rd F.MED_PF_STS_PHASE = 2 && s.stg.fellAt + 20000000 < s.el)

/-- The Critical Warning byte now (20 R444); bit 3 is always 0. -/
def State.critNow (s : State) : Nat :=
  b2n (s.availSpare < 10)
    + 2 * b2n ((List.range 9).any s.tempCrossed)
    + 4 * b2n (!s.rdn.lost.isEmpty || s.twoMissing || s.rd F.PUP_STS_SPARE = 3)
    + 16 * b2n ((s.rd F.IMG_STS_PHASE = 1 && s.rd F.MED_PF_STS_PHASE = 4) || s.overran)

/-- Dirty lines. -/
def State.dirtyLines (s : State) : List MLine := s.ftl.lines.filter (fun l => l.dirty && l.valid)

/-- The layout that zones move to while a reshape runs: the shadow, or the old one while it reverses. -/
def Reshape.shadow (r : Reshape) : Bool := !r.rev

/-- Zones of the group under reshape that have rows on the layout they are to leave. -/
def State.leaving (s : State) (r : Reshape) : List Nat :=
  (s.zn.zx.filter (fun e => s.rd F.ZON_ENT0_DGROUP e.1 = r.grp && e.2.rows.any (fun x => x.shadow != r.shadow))).map (·.1)

/-- Conventional rows that have to leave. -/
def State.leavingRows (s : State) (r : Reshape) : List Nat :=
  (s.ftl.crows.filter (fun e => e.2.dg = r.grp && e.2.row.shadow != r.shadow)).map (·.1)

/-- Rebuilds pending in a group. -/
def State.rbldPending (s : State) (g : Nat) : Bool :=
  s.rdn.subst.any (fun e => !e.done && (match s.grpOfDie e.blk.die with
    | some (k, _) => k = g
    | none => false))

/-- Whether the copies of a reshape pause: free space below LOW, or rebuild pending (07 R180, R182). -/
def State.rshpPaused (s : State) (r : Reshape) : Bool :=
  s.rbldPending r.grp || (match s.grp r.grp true with
    | some g => s.freeOf g < s.rd F.FTL_GC_CFG_LOW
    | none => true)

/-- Bytes received. -/
def Frame.have (f : Frame) : Nat := (f.got.map (fun e => e.2.length)).sum

/-- The contiguous bytes from a frame's start: pieces lie in rising order of offset. -/
def contig : Nat → List (Nat × List Nat) → Nat
  | n, [] => n
  | n, e :: t => if e.1 = n then contig (n + e.2.length) t else n

/-- What tells a frame from the others of its stream: the resynchronisations before it and its number (05 R128). -/
def Frame.key (f : Frame) : Nat := f.era * 2 ^ 64 + f.num

/-- The oldest frame of a stream that is not committed: of the earliest resynchronisation, the lowest number (05 R122, R128). -/
def Stream.owner (x : Stream) : Option Frame :=
  x.frames.foldl (fun acc f => match acc with
    | none => some f
    | some g => if f.key < g.key then some f else some g) none

/-- The owner of the log position: the oldest frame not yet closed. -/
def Stream.open1 (x : Stream) : Option Frame :=
  (({ x with frames := x.frames.filter (fun f => f.close.isNone) } : Stream)).owner

/-- Block size of the lanes (05, "The frame lane pipeline"). -/
def laneBlock : Nat := 65536

/-- Bytes of a frame that wait in the reorder space: all of one that is not placed, and of a placed one what lies beyond its contiguous point
or has not passed to a lane for want of staging (05 R122; 06 R144). -/
def Frame.waits (f : Frame) : Nat :=
  let c := contig 0 f.got
  if !f.placed then f.have
  else if f.close.isSome then f.have - f.disp * laneBlock
  else f.have - (if c < (f.disp + 1) * laneBlock then c else f.disp * laneBlock)

/-- Reorder space in use, in bytes (05 R122). -/
def Stream.waiting (x : Stream) : Nat := (x.frames.map Frame.waits).sum

/-- Whether a lane still holds an older program's bank in use: a frame that arrived before a switch of its stream's program has not closed (05
R140). -/
def State.laneOld (s : State) (l : Nat) : Bool :=
  s.cap.streams.any (fun e => bit e.2.mask l && e.2.frames.any (fun f => f.close.isNone && f.prog != e.2.cur))

/-- The blocks that a lane holds: a working lane has put a block's output into staging within 20 µs (05 R142). -/
def State.laneHolds (s : State) (l : Nat) : List LaneBlk := s.cap.blks.filter (fun b => b.lane = l && s.el < b.since + 20000)

/-- The reorder limit of a stream, in KiB (05 R111). -/
def Stream.limit (x : Stream) : Nat := if x.reorder = 0 then 1024 else x.reorder

/-- The record of a unit. -/
def State.unitOf (s : State) (k i : Nat) : UnitSt :=
  (s.ras.units.find? (fun u => u.kind = k && u.idx = i)).getD ⟨k, i, 0, 0, [], 0, 0, 0, 0⟩

/-- A controller's view (20 R442); a fresh one masks nothing, has lost nothing and removed nothing. -/
def State.viewOf (s : State) (c : Ctl) : EvView := (s.ras.views.find? (fun v => v.ctl = c)).getD ⟨c, [], 0, []⟩

/-- The tolerance in force, in ns; none where nothing limits it (18 R397). -/
def State.tol (s : State) : Option Nat :=
  let up := s.rd F.PCX_LINK_STS_UP 0 = 1 || s.rd F.PCX_LINK_STS_UP 1 = 1
  let a := if s.rd F.PWR_CFG_LTR_EN = 1 && up then s.pwr.ltr else none
  if s.assocs.isEmpty then a
  else
    let f := s.rd F.PWR_CFG_FAB_TOL_US * 1000
    some (match a with
      | some x => min x f
      | none => f)

/-- What a die group's throttle admits in the coming epoch (11 R274, R275); none above LOW. -/
def State.throttle (s : State) (g : Nat) (x : Grp) : Option Nat :=
  let f := s.freeOf x
  let low := s.rd F.FTL_GC_CFG_LOW
  let crit := s.rd F.FTL_GC_CFG_CRIT
  if f ≤ crit then some ((Tab.find g s.ftl.erasedCap).getD (0, 0)).1
  else if f < low then some ((f - crit) * (1600000000 * (x.allDies.filter s.works).length / max s.workDies 1) / max (low - crit) 1)
  else none

end Sys2Proof.Machine
end

