-- ==== Sys2Proof/Machine/RegView.lean ====
section
/-! DEFINITION. What a read of a register field returns: the register file's value, or what the field shows of the
block's other state; and the place of an address (23 R489-R497). -/

namespace Sys2Proof.Machine

/-! ### What selected and derived fields show -/

/-- A queue's view (03 R85); a free index reads as 0. -/
def State.viewLgr (s : State) (f : Fld) (p : Nat) : Option Nat :=
  if f.id < F.LGR_QINFO_SLICE.id || F.LGR_QINFO2_OUTST.id < f.id then none
  else
    match Tab.find (s.rd F.LGR_QSEL_QIDX 0 0 p) s.sl.qs with
    | none => some 0
    | some q =>
      let vec := if q.fabric then 0 else ((s.sl.cqs.find? (fun c => c.func = q.func && c.cqid = q.cqid)).map (fun c => c.vec)).getD 0
      if f = F.LGR_QINFO_SLICE then some q.slice
      else if f = F.LGR_QINFO_FABRIC then some (b2n q.fabric)
      else if f = F.LGR_QINFO_BIND then some q.bind
      else if f = F.LGR_QINFO_LC then some q.lc
      else if f = F.LGR_QINFO_FF then some (b2n q.ff)
      else if f = F.LGR_QINFO_CD then some (b2n (!q.fabric && s.sl.vecs.any (fun v => v.func = q.func && v.vec = vec && v.cd)))
      else if f = F.LGR_QINFO_GEN then some q.gen
      else if f = F.LGR_QINFO_NVME_QID then some q.qid
      else if f = F.LGR_QINFO2_VECTOR then some vec
      else if f = F.LGR_QINFO2_OUTST then some q.outst
      else none

/-- Window stripe rows in use by the stripe row of a zone that its write pointer is in; of a Full zone, by its last (04 R108; log 84). -/
def State.winRows (s : State) (h : Nat) : Nat :=
  let z := s.zxOf h
  match z.rows[min (rowOf (s.rd F.ZON_ENT3_K h) (s.wp h)).1 (z.rows.length - 1)]? with
  | some r => (r.win.filter (fun l => !l.isEmpty)).length
  | none => 0

/-- Zone `i`'s window stripe rows, and the selected namespace (04 R108). -/
def State.viewZon (s : State) (f : Fld) (i p : Nat) : Option Nat :=
  if f = F.ZON_ENT2_WINROW then some (s.winRows i)
  else if f.id < F.ZON_NSINFO_BASE.id || F.ZON_NSINFO_VALID.id < f.id then none
  else
    match (Tab.find (s.rd F.ZON_NSSEL_NSID 0 0 p) s.zn.ns).filter (fun (n : Ns) => n.zoned) with
    | none => some 0
    | some n =>
      if f = F.ZON_NSINFO_BASE then some n.base
      else if f = F.ZON_NSINFO_COUNT then some n.zones
      else if f = F.ZON_NSINFO_DGROUP then some n.dg
      else if f = F.ZON_NSINFO_LBAF then some n.lbaf
      else if f = F.ZON_NSINFO_VALID then some 1
      else none

/-- Lanes and the selected stream (05 R143). -/
def State.viewFrl (s : State) (f : Fld) (i p : Nat) : Option Nat :=
  if f = F.FRL_LSTS_STATE then
    some (if !bit (s.rd F.FRL_LANE_AVAIL_MASK) i then 2 else if (s.laneHolds i).isEmpty then 0 else 1)
  else if f = F.FRL_LSTS_OLD_BUSY then some (b2n (s.laneOld i))
  else if f = F.FRL_REORDER_USE_KIB then some (ceilDiv ((s.cap.streams.map (fun e => e.2.waiting)).sum) 1024)
  else if f = F.FRL_REORDER_USE_RSV then some ((s.cap.streams.map (fun e => e.2.limit)).sum)
  else if f.id < F.FRL_SINFO_STATE.id || F.FRL_SCNT_CNT.id < f.id then none
  else
    match Tab.find (s.rd F.FRL_SSEL_STREAM 0 0 p) s.cap.streams with
    | none => some 0
    | some x =>
      if f = F.FRL_SINFO_STATE then some x.state
      else if f = F.FRL_SINFO_BLK_RSN then some x.blk
      else if f = F.FRL_SINFO_SLICE then some x.slice
      else if f = F.FRL_SINFO_PROG then some x.cur.id
      else if f = F.FRL_SINFO_W then some (x.w - 1)
      else if f = F.FRL_SINFO_SRC then some (b2n x.rdma)
      else if f = F.FRL_SINFO_SET then some (x.set.getD 0)
      else if f = F.FRL_SPOS_LOG then some x.log
      else if f = F.FRL_SPOS_VOIDS then some x.voids.length
      else if f = F.FRL_SFRAME_F then some x.f
      else if f = F.FRL_SCNT_CNT then some (x.cnt.getD i 0)
      else none

/-- MED_DIE_STS.OP's code of an operation (09 R227). -/
def opShow : OpKind → Nat
  | .read => 1
  | .prog1 => 2
  | .coarse => 3
  | .foldC => 3
  | .fine => 4
  | .foldF => 4
  | .erase => 5

/-- A die's status (09 R227): PRED_US is the wait of a read that arrives now without a deadline that presses, for slice 0. -/
def State.viewDie (s : State) (f : Fld) (i : Nat) : Option Nat :=
  let x := s.dieOf i
  if f = F.MED_DIE_STS_STATE then some (if !x.present then 0 else if x.retired then 3 else if x.reach then 1 else 2)
  else if f = F.MED_DIE_STS_OP then some ((x.cur.map (fun o => opShow o.kind)).getD 0)
  else if f = F.MED_DIE_STS_SUSP then some (b2n x.susp.isSome)
  else if f = F.MED_DIE_STS_OPEN then some (b2n x.between.isSome)
  else if f = F.MED_DIE_STS_SUSP_N then
    some ((match x.susp, x.cur with
      | some e, _ => e.sus
      | none, some o => if o.kind = .erase then o.sus else 0
      | none, none => 0))
  else if f = F.MED_DIE_STS_QDEPTH then some x.inQueue.length
  else if f = F.MED_DIE_STS_PRED_US then some (sat 16 (s.predict i ⟨false, 0, s.rd F.LGR_SL_NORM_N 0, 0, s.el + 1000000000, 0⟩))
  else if f = F.MED_DIE_STS_TEMP then some (ofSigned 8 x.temp)
  else none

/-- Whether the health window is readable (09 R223): in start-up from enumeration, in test and in recovery. -/
def State.healthOpen (s : State) : Bool :=
  let ph := s.rd F.IMG_STS_PHASE
  (ph = 0 && s.rd F.IMG_STS_STEP ≥ 8) || ph = 2 || ph = 3

/-- The health window (09 R223, R227); 0 in service. -/
def State.viewHealth (s : State) (f : Fld) (p : Nat) : Option Nat :=
  let d := s.rd F.MED_HLTH_SEL_DIE 0 0 p
  let b := s.blkOf ⟨d, s.rd F.MED_HLTH_SEL_BLOCK 0 0 p⟩
  let x := s.dieOf d
  let es := (s.die.blks.filter (fun e => e.1 / 2048 = d)).map (fun e => e.2.erases)
  if f = F.MED_HLTH_STS_AVAIL then some (b2n s.healthOpen)
  else if f.id < F.MED_HLTH_BLK_ERASES.id || F.MED_HLTH_ERS_MAX.id < f.id then none
  else if !s.healthOpen then some 0
  else if f = F.MED_HLTH_BLK_ERASES then some b.erases
  else if f = F.MED_HLTH_BLK_BAD then some (b2n (b.use = BlkUse.bad))
  else if f = F.MED_HLTH_BLK_ONEBIT then some (b2n b.onebit)
  else if f = F.MED_HLTH_BLK_TIER then some b.tier
  else if f = F.MED_HLTH_DIE_GBB then some x.gbb
  else if f = F.MED_HLTH_DIE_PFAIL then some (sat 16 x.pfail)
  else if f = F.MED_HLTH_DIE_EFAIL then some (sat 16 x.efail)
  else if f = F.MED_HLTH_DIE_IDX then some (sat 16 x.wear)
  else if f = F.MED_HLTH_ERS_MEAN then some (es.sum / max 1 (s.descOf d).blocks)
  else if f = F.MED_HLTH_ERS_MAX then some (es.foldl max 0)
  else none

/-- Staging, window and die totals (06 R165, R151; 09 R227). PHASE reads STOPPING until the first flush page, 150 µs after PFAIL_N fell (06
R159). -/
def State.viewMed (s : State) (f : Fld) (i p : Nat) : Option Nat :=
  if f = F.MED_STG_STS_SRAM_USED then
    some (ceilDiv ((s.stg.units.filter (fun u => u.pool != 2)).length + (s.zn.cmds.map (fun c => c.resWin + c.resDir)).sum) 256)
  else if f = F.MED_STG_STS_DIRECT_RSV then some (6 * s.rd F.ZON_DIRECT_ACTIVE)
  else if f = F.MED_STG_STS_OVF_MIB then some (ceilDiv (s.stg.units.filter (fun u => u.pool = 2)).length 256)
  else if f = F.MED_PSLOT_STS_SRAM_USE then some (s.rd F.ZON_ACTIVE_SRAM)
  else if f = F.MED_PSLOT_STS_SPILLED then some (s.zn.zx.filter (fun e => s.rd F.ZON_ENT0_PSLOT e.1 = 2)).length
  else if f = F.MED_PF_STS_PHASE then some (if s.rd f = 2 && s.el < s.stg.fellAt + 150000 then 1 else s.rd f)
  else if f = F.MED_PF_STS_OVERRUN then some (b2n s.overran)
  else if f = F.MED_WIN_STS_BLOCKS then some s.winBlksNow
  else if f = F.MED_WIN_STS_EFF_PCT then some (s.winEff100 / max 1 s.allBlocks)
  else if f = F.MED_WIN_STS_FILL then some (s.winBlksNow * 10000 / max 1 s.winEff100)
  else if f = F.MED_DESC_COUNT then some s.die.descs.length
  else
    match s.viewDie f i with
    | some v => some v
    | none => s.viewHealth f p

/-- A stripe row's identifier, as RDN_LOST_ENT shows it (log 5). -/
def RowId.num (r : RowId) : Nat := b2n r.conv * 2 ^ 31 + r.h * 4 + r.r

/-- Members that wait for their substitute, by how many members their row misses (07 R183). -/
def State.rbldPend (s : State) (two : Bool) : Nat :=
  (s.rdn.subst.filter (fun e => !e.done && (match s.srow e.row with
    | some x => decide ((s.missing e.row x).length ≥ 2) == two
    | none => false))).length

/-- Redundancy, lost stripes, groups and the reshape (07 R183). -/
def State.viewRdn (s : State) (f : Fld) (p : Nat) : Option Nat :=
  let l := s.rdn.lost[s.rd F.RDN_LOST_SEL_INDEX 0 0 p]?
  let g := s.rd F.RDN_GRP_SEL_GROUP 0 0 p
  let y := Tab.find g s.rdn.groups
  if f = F.RDN_STS_RBLD then some (b2n (s.rdn.subst.any (fun e => !e.done)))
  else if f = F.RDN_STS_CRIT then some (b2n s.twoMissing)
  else if f = F.RDN_STS_RSHP then
    some (match s.rdn.reshape with
      | none => 0
      | some r => if s.rshpPaused r then 3 else if r.rev then 2 else 1)
  else if f = F.RDN_STS_RSHP_GRP then some ((s.rdn.reshape.map (fun r => r.grp)).getD 0)
  else if f = F.RDN_RBLD_STS_PEND1 then some (s.rbldPend false)
  else if f = F.RDN_RBLD_STS_PEND2 then some (s.rbldPend true)
  else if f = F.RDN_SUBST_USED then some s.rdn.subst.length
  else if f = F.RDN_LOST_CNT_USED then some s.rdn.lost.length
  else if f = F.RDN_LOST_ENT_ROW then some ((l.map (fun x => x.row.num)).getD 0)
  else if f = F.RDN_LOST_ENT_FIRST then some ((l.map (fun x => x.first)).getD 0)
  else if f = F.RDN_LOST_ENT_LAST then some ((l.map (fun x => x.last)).getD 0)
  else if f = F.RDN_LOST_ENT_VALID then some (b2n l.isSome)
  else if f = F.RDN_LOST_TIME_TIME then some ((l.map (fun x => x.ns)).getD 0)
  else if f = F.RDN_GRP_INFO_N then some ((y.map (fun x => x.links.length)).getD 0)
  else if f = F.RDN_GRP_INFO_D then some ((y.map (fun x => (x.dies.headD []).length)).getD 0)
  else if f = F.RDN_GRP_INFO_K then some ((y.map (fun x => x.k)).getD 0)
  else if f = F.RDN_GRP_INFO_ROWS then some ((y.map (fun x => x.perm.length)).getD 0)
  else if f = F.RDN_GRP_INFO_SPARE then some ((y.map (fun x => x.share)).getD 0)
  else if f = F.RDN_GRP_INFO_DEDICATED then some ((y.map (fun x => b2n x.ded)).getD 0)
  else if f = F.RDN_GRP_INFO_SHADOW then some (b2n (s.rdn.reshape.any (fun r => r.grp = g)))
  else if f = F.RDN_RSHP_STS_DONE then some ((s.rdn.reshape.map (fun r => r.done)).getD 0)
  else if f = F.RDN_RSHP_STS_TOTAL then some ((s.rdn.reshape.map (fun r => r.total)).getD 0)
  else if f = F.RDN_RSHP_STS_WAIT_ACTIVE then
    some ((s.rdn.reshape.map (fun r => ((s.leaving r).filter (fun h => isActive (s.zst h))).length)).getD 0)
  else none

/-- Number of the correction that RCH_CORR_SEL names (10 R239). -/
def State.corrSel (s : State) (p : Nat) : Nat :=
  ((s.rd F.RCH_CORR_SEL_DIE 0 0 p * 4 + s.rd F.RCH_CORR_SEL_TIER 0 0 p) * 12 + s.rd F.RCH_CORR_SEL_RET 0 0 p) * 6 + s.rd F.RCH_CORR_SEL_RT 0 0 p

/-- The read channel (10 R250): tiers of blocks, the fullest tail area, the selected correction: byte `n` of it is offset `n`. -/
def State.viewRch (s : State) (f : Fld) (i p : Nat) : Option Nat :=
  if f = F.RCH_TIER_CNT_BLOCKS then
    let n := (s.die.blks.filter (fun e => e.2.tier = i && s.works (e.1 / 2048) && e.2.use != BlkUse.bad)).length
    let other := (s.die.blks.filter (fun e => s.works (e.1 / 2048))).length
    some (if i = 0 then n + (s.allBlocks - other) else n)
  else if f = F.RCH_TAIL_STS_WORST_PCT then
    some ((s.die.dies.map (fun e => s.tailPct e.1)).foldl max 0)
  else if f = F.RCH_CORR_OFFS then
    let l := (Tab.find (s.corrSel p) s.die.corr).getD []
    some ((List.range 8).map (fun k => ofSigned 8 (l.getD (8 * i + k) 0) * 2 ^ (8 * k))).sum
  else if f = F.RCH_CORR_TIME_TIME then some ((Tab.find (s.corrSel p) s.die.corrAt).getD 0)
  else none

/-- The translation layer (11 R277, R272-R274). -/
def State.viewFtl (s : State) (f : Fld) (i : Nat) : Option Nat :=
  let g := Tab.find i s.rdn.groups
  if f = F.MCACHE_DIRTY_LINES then some s.dirtyLines.length
  else if f = F.FTL_JNL_STS_TAIL_KIB then some (ceilDiv (s.tailUse * 32) 1024)
  else if f = F.FTL_JNL_STS_SINCE_MIB then some (s.ftl.jsince / 2 ^ 20)
  else if f = F.FTL_GRP_FREE_FREE then some ((g.map s.freeOf).getD 0)
  else if f = F.FTL_GRP_FREE_ADMIT then
    let low := s.rd F.FTL_GC_CFG_LOW
    let crit := s.rd F.FTL_GC_CFG_CRIT
    some ((g.map (fun x => let v := s.freeOf x; if v ≥ low then 100 else if v ≤ crit then 0 else (v - crit) * 100 / max 1 (low - crit))).getD 0)
  else if f = F.FTL_GRP_FREE_LOW then some ((g.map (fun x => b2n (s.freeOf x < s.rd F.FTL_GC_CFG_LOW))).getD 0)
  else if f = F.FTL_GRP_FREE_CRIT then some ((g.map (fun x => b2n (s.critical x))).getD 0)
  else if f = F.FTL_GRP_FREE_ERASED then some ((g.map (fun x => (x.allDies.map s.erasedOn).sum)).getD 0)
  else if f = F.FTL_CONV_ROWS then some s.ftl.crows.length
  else if f = F.FTL_CONV_UNITS then some (s.ftl.fmap.filter (fun e => e.2.st = 1)).length
  else none

/-- Key slots (12 R294). -/
def State.viewCip (s : State) (f : Fld) (p : Nat) : Option Nat :=
  if f = F.CIP_STS_SLOTS_USED then some s.cip.slots.length
  else if f.id < F.CIP_SLOT_INFO_STATE.id || F.CIP_SLOT_GEN_HOLD.id < f.id then none
  else
    match Tab.find (s.rd F.CIP_SLOT_SEL_SLOT 0 0 p) s.cip.slots with
    | none => some 0
    | some k =>
      if f = F.CIP_SLOT_INFO_STATE then some k.st
      else if f = F.CIP_SLOT_INFO_PURPOSE then some k.purpose
      else if f = F.CIP_SLOT_INFO_SLICE then some k.slice
      else if f = F.CIP_SLOT_INFO_NSID then some k.nsid
      else if f = F.CIP_SLOT_GEN_GEN then some k.gen
      else if f = F.CIP_SLOT_GEN_HOLD then some (sat 16 (s.slotHolds k))
      else none

/-- Vectors that functions hold (14 R317): 2,048 of each PF, and those of enabled VFs. -/
def State.vecsUsed (s : State) : Nat := (s.fns.map (fun e => e.2.vecs)).sum

/-- The host port (14 R328). An FLR is complete when its command is. -/
def State.viewPcx (s : State) (f : Fld) (p : Nat) : Option Nat :=
  if f = F.PCX_VEC_USE_USED then some (if s.fns.isEmpty then F.PCX_VEC_USE_USED.rst else s.vecsUsed)
  else if f = F.PCX_CXL_STS_HDM then some (b2n s.pcx.hdm.isSome)
  else if f = F.PCX_CXL_STS_GPF then some (b2n s.pcx.gpf.isSome)
  else if f = F.PCX_CXL_STS_DIRTY_MIB then some (ceilDiv s.stg.dirty.length 16)
  else if f.id < F.PCX_FN_INFO_PRESENT.id || F.PCX_FN_INFO_BINDS.id < f.id then none
  else
    let n := s.rd F.PCX_FN_SEL_FN 0 0 p
    match (Tab.find n s.fns).filter (fun (x : FnSt) => x.present) with
    | none => some 0
    | some x =>
      if f = F.PCX_FN_INFO_PRESENT then some 1
      else if f = F.PCX_FN_INFO_BME then some (b2n x.bme)
      else if f = F.PCX_FN_INFO_PASID_EN then some (b2n x.pasidEn)
      else if f = F.PCX_FN_INFO_RDY then some (b2n x.rdy)
      else if f = F.PCX_FN_INFO_VEC then some x.vecs
      else if f = F.PCX_FN_INFO_QUEUES then some (s.sl.qs.filter (fun e => !e.2.fabric && e.2.func = n && e.2.qid != 0)).length
      else if f = F.PCX_FN_INFO_BINDS then some ((s.sl.fbind.filter (fun b => b.func = n)).length + b2n (n = 0))
      else none

/-- The Puppeteer, power, time and recorder (16 R369; 18 R415; 19 R432). -/
def State.viewPup (s : State) (f : Fld) (i : Nat) : Option Nat :=
  let w := s.pup.sweeps.getD i none
  if f = F.PUP_MBX_STS_PENDING then some s.pup.pend.length
  else if f = F.PUP_MBX_STS_INSVC then some s.pup.insvc.length
  else if f = F.PUP_SWEEP_STS_ID then some ((w.map (fun x => x.id)).getD 0)
  else if f = F.PUP_SWEEP_TIME_START then some ((w.map (fun x => x.start)).getD 0)
  else if f = F.PWR_LTR_TOL_NS then some (s.tol.getD 0xFFFFFFFF)
  else if f = F.DRC_CH_STS_SREF then some (b2n s.drc.sref)
  else if f = F.TIM_NOW_NS then some s.tns
  else if f = F.EVR_STS_USED_KIB then some (ceilDiv s.evr.used 1024)
  else if f = F.EVR_COUNT_CNT then some s.evr.recs.length
  else if f = F.EVR_FIRST_NS then some ((s.evr.recs.head?.map (fun r => r.ns)).getD 0)
  else none

/-- Errors, units and events (20 R446). -/
def State.viewRas (s : State) (f : Fld) (p : Nat) : Option Nat :=
  let c := s.ras.ce.find? (fun e => e.idx = s.rd F.RAS_CE_SEL_INDEX 0 0 p)
  let u := s.unitOf (s.rd F.RAS_UNIT_SEL_KIND 0 0 p) (s.rd F.RAS_UNIT_SEL_INDEX 0 0 p)
  if f = F.RAS_STS_CE_FULL then some (b2n (s.ras.ce.length ≥ 64))
  else if f = F.RAS_STS_IMG_DAMAGED then some (b2n (!s.ras.damaged.isEmpty))
  else if f = F.RAS_STS_CRIT_WARN then some s.critNow
  else if f = F.RAS_CE_ENT_VALID then some (b2n c.isSome)
  else if f = F.RAS_CE_ENT_MEM then some ((c.map (fun e => e.mem)).getD 0)
  else if f = F.RAS_CE_ENT_ADDR then some ((c.map (fun e => cut 40 e.addr)).getD 0)
  else if f = F.RAS_CE_ENT_COUNT then some ((c.map (fun e => sat 16 e.count)).getD 0)
  else if f = F.RAS_CE_FIRST_TIME then some ((c.map (fun e => e.first)).getD 0)
  else if f = F.RAS_CE_LAST_TIME then some ((c.map (fun e => e.last)).getD 0)
  else if f = F.RAS_UNIT_INFO_STATE then some u.state
  else if f = F.RAS_UNIT_INFO_PASSES then some (sat 4 u.passes)
  else if f = F.RAS_UNIT_INFO_FENCES then some (sat 4 (u.fences.filter (fun t => s.el < t + 86400000000000)).length)
  else if f = F.RAS_UNIT_INFO_RSN then some u.rsn
  else if f = F.RAS_UNIT_INFO_THIRD then some (sat 16 u.third)
  else if f = F.RAS_UNIT_TIME_TIME then some u.time
  else if f = F.RAS_EVQ_PENDING then some s.ras.evq.length
  else if f = F.RAS_EVQ_MASKED then some (((s.viewOf .mgr).masked.map (fun c => 2 ^ c)).sum)
  else none

/-- What a field of entry `i`, `j` shows on path `p`, `q` being the copy that it is kept in: the register file's value, or what the field shows of the
block's other state. -/
def State.view (s : State) (f : Fld) (i j p q : Nat) : Nat :=
  let d : Option Nat := match f.blk with
    | 2 => s.viewPup f i
    | 4 => s.viewPup f i
    | 5 => s.viewPup f i
    | 6 => s.viewRas f p
    | 7 => s.viewPup f i
    | 9 => s.viewPcx f p
    | 10 => if f = F.KZL_BID_HOP && j = 0 then some (s.rd F.KZL_STS_HOP0 i) else none
    | 11 => s.viewMed f i p
    | 12 => s.viewRch f i p
    | 13 => s.viewRdn f p
    | 14 => s.viewFtl f i
    | 15 => s.viewFrl f i p
    | 16 => s.viewCip f p
    | 17 => s.viewPup f i
    | 18 => s.viewLgr f p
    | 20 => s.viewZon f i p
    | _ => none
  cut f.w (d.getD (s.rd f i j q))

/-! ### Addresses -/

/-- The register, entry and offset that a management address falls on. -/
def locate (a : Nat) : List Reg → Option (Reg × Nat × Nat × Nat)
  | [] => none
  | r :: t =>
    let d := a - r.base
    let i := if r.s1 = 0 then 0 else d / r.s1
    let d1 := if r.s1 = 0 then d else d % r.s1
    let j := if r.s2 = 0 then 0 else d1 / r.s2
    let off := if r.s2 = 0 then d1 else d1 % r.s2
    if r.base ≤ a && i < r.n1 && j < r.n2 && off < r.width / 8 then some (r, i, j, off) else locate a t

/-- The value of a register's entry on a path; reserved bits read as 0 (00 R8). -/
def State.regVal (s : State) (r : Reg) (i j p : Nat) : Nat :=
  (r.flds.map (fun f => if f.acc = .wo then 0 else s.view f i j p (if r.perPath then p else 0) * 2 ^ f.lo)).sum

/-- The dword at an address, read without side effect; reserved addresses read as 0 (00 R8). -/
def State.peek (s : State) (p a : Nat) : Nat :=
  match locate a regTable with
  | some (r, i, j, off) => s.regVal r i j p / 2 ^ (32 * (off / 4)) % 2 ^ 32
  | none => 0

/-- The 8 bytes at an address, read without side effect (19 R426). -/
def State.peek64 (s : State) (p a : Nat) : Nat := s.peek p a + s.peek p (a + 4) * 2 ^ 32

end Sys2Proof.Machine
end

