-- ==== Sys2Proof/Machine/Events.lean ====
section
/-! DEFINITION. Raising an event: the event queue and its views, the recorder and its flushes, the class vectors and
asynchronous event reporting (19 R423-R431, 20 R434-R444, 03 R83). -/

namespace Sys2Proof.Machine

/-! ### The recorder -/

/-- The length of a record: 24 + 12 n bytes rounded up to a multiple of 8 (19 R424). -/
def recLen (n : Nat) : Nat := (24 + 12 * n + 7) / 8 * 8

/-- Bytes of the recorder's buffer (19 R423). -/
def recBytes : Nat := 4 * 2 ^ 20

/-- The first entry of the trigger table that matches a code, with its index (19 R425). -/
def trigOf (code : Nat) : Nat → List Trig → Option (Nat × Trig)
  | _, [] => none
  | k, t :: ts => if Nat.land code t.mask = Nat.land t.code t.mask then some (k, t) else trigOf code (k + 1) ts

/-- Splits records into sectors' contents: at most 4,064 bytes each, no record crossing (19 R428). -/
def intoSectors : List Rec → List Rec → Nat → List (List Rec)
  | [], [], _ => []
  | [], acc, _ => [acc]
  | r :: rs, acc, used =>
    if used + recLen r.snaps.length ≤ 4064 then intoSectors rs (acc ++ [r]) (used + recLen r.snaps.length)
    else acc :: intoSectors rs [r] (recLen r.snaps.length)

/-- The bytes of records. -/
def recsLen (rs : List Rec) : Nat := (rs.map (fun r => recLen r.snaps.length)).sum

/-- Ring sectors: the log region of CS0, and with two devices that of CS1 (17 R373; 19 R428). -/
def State.norSectors (s : State) : Nat := if s.img.nors = 1 then 7680 else 16384

/-- The bytes of a recorder record (19 R424). -/
def Rec.bytes (r : Rec) : List Nat :=
  let b := toLe 8 r.ns ++ toLe 2 r.frac ++ toLe 2 r.code ++ toLe 2 r.trig ++ toLe 1 r.snaps.length ++ toLe 1 r.flags ++ toLe 8 r.arg
    ++ r.snaps.flatMap (fun p => toLe 4 p.1 ++ toLe 8 p.2)
  b ++ List.replicate (recLen r.snaps.length - b.length) 0

/-- The 4 KiB of a sector (19 R428): header, records from byte 32, and 0xFF, NOR's erased value, after them (PRESUMED, log 100). The check field is given. -/
def NorSect.image (x : NorSect) (crc : Nat) : List Nat :=
  let b := toLe 4 0x4556524C ++ toLe 4 x.seq ++ toLe 1 x.kind ++ [0] ++ toLe 2 x.part ++ toLe 2 x.parts ++ toLe 2 (recsLen x.recs) ++ toLe 8 x.ns
    ++ toLe 4 0 ++ toLe 4 crc ++ x.recs.flatMap Rec.bytes
  b ++ List.replicate (4096 - b.length) 0xFF

/-- The CRC-32C of a sector, with its field taken as 0. -/
def NorSect.sum (x : NorSect) : Nat := crc32c (x.image 0)

/-- Programs the next ring sector (19 R428); two sectors are kept erased ahead. -/
def State.norWrite (s : State) (kind part parts ns : Nat) (recs : List Rec) : State :=
  let pos := s.rd F.EVR_NOR_NEXT
  let seq := cut 32 (s.rd F.EVR_NOR_SEQ + 1)
  let x := NorSect.mk pos seq kind part parts ns recs 0
  let s := { s with evr := { s.evr with
    nor := s.evr.nor.filter (fun (y : NorSect) => y.pos != pos) ++ [{ x with crc := x.sum }] } }
  ((s.wr F.EVR_NOR_SEQ seq).wr F.EVR_NOR_NEXT ((pos + 1) % s.norSectors)).wr F.EVR_NOR_ERASED 2

/-- Copies records to the NOR ring, sector by sector. -/
def State.norCopy (s : State) (kind ns : Nat) (recs : List Rec) : State :=
  let parts := intoSectors recs [] 0
  (parts.mapIdx (fun i r => (i, r))).foldl (fun s e => s.norWrite kind e.1 parts.length ns e.2) s

/-- A fault flush (19 R427): the used part of the buffer as it stands goes to a recorder copy, the four newest being
kept, and then to the NOR ring. Its media time is charged to slice 0 as a system-area flush, as one-bit programs of its
bytes. -/
def State.faultFlush (s : State) : State :=
  let s := { s with evr := { s.evr with nand := (RecCopy.mk s.tns 1 s.evr.recs :: s.evr.nand).take 4 } }
  let s := s.chargeBg 5 (chgWrite Desc.ref (recsLen s.evr.recs))
  let s := { s with tim := { s.tim with saved := some s.tns } }
  (s.norCopy 1 s.tns s.evr.recs).inc F.EVR_FLUSH_CNT_FAULT

/-- Whether the time base is in holdover, or has had no edge although edges are enabled (19 R420, R424). -/
def State.holdover (s : State) : Bool := s.rd F.TIM_STS_PPS = 2 || (s.rd F.TIM_STS_PPS = 0 && s.rd F.TIM_CFG_PPS_EN = 1)

/-- Flags of a record (19 R424). -/
def State.recFlags (s : State) (flush : Bool) : Nat :=
  b2n s.holdover
    + 2 * b2n (s.rd F.TIM_STS_SRC != 3) + 4 * b2n flush

/-- Appends a record for an event that trigger entry `trig` decides, or stops the recording (19 R423, R426). Snapshots are
read through the BAR0 instance and clear nothing. -/
def State.recAppend (s : State) (code arg trig : Nat) (addrs : List Nat) (flush : Bool) : State :=
  let n := recLen addrs.length
  if s.rd F.EVR_STS_FULL = 1 then s.inc F.EVR_LOST_CNT
  else if s.evr.used + n > recBytes then (s.wr F.EVR_STS_FULL 1).inc F.EVR_LOST_CNT
  else
    let r : Rec := ⟨s.tns, s.frac, code, trig, s.recFlags flush, arg, addrs.map (fun a => (a, s.peek64 0 a))⟩
    { s with evr := { s.evr with recs := s.evr.recs ++ [r], used := s.evr.used + n } }

/-- The recorder's part of an event (19 R423, R425, R427). -/
def State.record (s : State) (code arg : Nat) : State :=
  if s.rd F.EVR_CTL_EN = 0 then s
  else
    match (match s.evr.trig with
      | none => none
      | some t => trigOf code 0 t) with
    | none => s.recAppend code arg 0xFFFF [] false
    | some (k, t) =>
      if t.act = 0 then s
      else if t.act = 2 then (s.recAppend code arg k t.addrs true).faultFlush
      else s.recAppend code arg k t.addrs false

/-! ### Views of the event queue -/

/-- Puts a controller's view. -/
def State.putView (s : State) (v : EvView) : State :=
  { s with ras := { s.ras with views := s.ras.views.filter (fun w => w.ctl != v.ctl) ++ [v] } }

/-- Forgets what is kept for a controller that ends. -/
def State.dropCtl (s : State) (c : Ctl) : State :=
  { s with ras := { s.ras with
      views := s.ras.views.filter (fun v => v.ctl != c)
      aers := s.ras.aers.filter (fun a => a.1 != c)
      notices := s.ras.notices.filter (fun a => a.1 != c)
      czl := s.ras.czl.filter (fun a => a.1 != c) } }

/-- Whether an event is one that the controllers of its slice are entitled to: OVER_QUOTA and the stream events
(20 R442). -/
def sliceEvent (code : Nat) : Bool := code = 0x2002 || code = 0xC001 || code = 0xC002 || code = 0xC003

/-- The controllers entitled to an event: the manager to every one, and those of its slice (20 R442). -/
def State.entitled (s : State) (code slice : Nat) : List Ctl :=
  Ctl.mgr :: (if sliceEvent code && slice != 0xFFFF then s.ctlsOf slice else [])

/-- Completes an outstanding Asynchronous Event Request of a controller with a notice, or keeps the notice for the next
one. The completion carries type, information and log page in dword 0 as the base specification lays them out. -/
def State.notify (s : State) (c : Ctl) (ty info page : Nat) : State :=
  match s.ras.aers.find? (fun a => a.1 = c) with
  | some (_, o, cid) =>
    let s := { s with ras := { s.ras with aers := s.ras.aers.filter (fun a => !(a.1 = c && a.2.1 = o && a.2.2 = cid)) } }
    s.adm o cid stOk (ty + info * 2 ^ 8 + page * 2 ^ 16)
  | none =>
    if s.ras.notices.contains (c, ty, info, page) then s
    else { s with ras := { s.ras with notices := s.ras.notices ++ [(c, ty, info, page)] } }

/-- Reports an event of a class to one controller unless it has the class masked, and masks it (20 R442). -/
def State.reportTo (s : State) (cls : Nat) (c : Ctl) : State :=
  let v := s.viewOf c
  if v.masked.contains cls then s
  else (s.putView { v with masked := v.masked ++ [cls] }).notify c 7 cls 0xD0

/-- Counts an event lost for one controller's view (20 R443). -/
def State.loseFor (s : State) (c : Ctl) : State :=
  let v := s.viewOf c
  s.putView { v with lost := v.lost + 1 }

/-- Entries the event queue holds (20 R442). -/
def evqDepth : Nat := 1024

/-- Raises an event (20 R442): the queue or its lost counts, the recorder, the class vector of 03 R83, and every
controller entitled to it. `slice` is 0xFFFF where the event has none. -/
def State.raise (s : State) (code slice arg : Nat) : State :=
  let cls := code / 2 ^ 13 % 8
  let who := s.entitled code slice
  let s :=
    if s.ras.evq.length < evqDepth then
      { s with ras := { s.ras with
          evq := s.ras.evq ++ [EvEnt.mk s.tns code slice s.ras.evSeq arg]
          evSeq := cut 32 (s.ras.evSeq + 1) } }
    else who.foldl (fun s c => s.loseFor c) (s.inc F.RAS_EVQ_LOST_CNT)
  let s := s.record code arg
  let s := if s.rd F.LGR_EVT_VEC_EN cls = 1 then s.send (.msix 0 (s.rd F.LGR_EVT_VEC_VECTOR cls)) else s
  who.foldl (fun s c => s.reportTo cls c) s

/-- Event codes of 20 R441 and 19 R423. -/
def evSliceFenced : Nat := 0x0001
/-- XLT_MISS. -/
def evXltMiss : Nat := 0x0002
/-- CEILING. -/
def evCeiling : Nat := 0x2001
/-- OVER_QUOTA. -/
def evOverQuota : Nat := 0x2002
/-- ETH_LINK. -/
def evEthLink : Nat := 0x2003
/-- UNIT_FENCED. -/
def evUnitFenced : Nat := 0x2004
/-- UNIT_RESTORED. -/
def evUnitRestored : Nat := 0x2005
/-- FREE_CRIT. -/
def evFreeCrit : Nat := 0x2006
/-- DRAM_UE. -/
def evDramUe : Nat := 0x4001
/-- DRAM_CE_RATE. -/
def evDramCeRate : Nat := 0x4002
/-- SRAM_UE. -/
def evSramUe : Nat := 0x4003
/-- CE_HARD. -/
def evCeHard : Nat := 0x4004
/-- STRIPE_LOST. -/
def evStripeLost : Nat := 0x4005
/-- DIE_RETIRED. -/
def evDieRetired : Nat := 0x4006
/-- WEAR. -/
def evWear : Nat := 0x4007
/-- MAP_PAGE_LOST. -/
def evMapPageLost : Nat := 0x4008
/-- SUBST_FULL. -/
def evSubstFull : Nat := 0x4009
/-- KZ_BREAK. -/
def evKzBreak : Nat := 0x6001
/-- KZ_HEAL. -/
def evKzHeal : Nat := 0x6002
/-- KZ_WIDTH. -/
def evKzWidth : Nat := 0x6003
/-- DIE_UNMATCHED. -/
def evDieUnmatched : Nat := 0x6004
/-- CART_CHANGE. -/
def evCartChange : Nat := 0x6005
/-- PACE_LOW. -/
def evPaceLow : Nat := 0x8001
/-- THM_STEP. -/
def evThmStep : Nat := 0x8002
/-- THM_SENS_FAIL. -/
def evThmSensFail : Nat := 0x8003
/-- THM_TS_FAIL. -/
def evThmTsFail : Nat := 0x8004
/-- DRAM_HOT. -/
def evDramHot : Nat := 0x8005
/-- VREG_FAIL. -/
def evVregFail : Nat := 0x8006
/-- THM_TRIP. -/
def evThmTrip : Nat := 0x8007
/-- TIM_STEP. -/
def evTimStep : Nat := 0xA001
/-- PPS_OUTSIDE. -/
def evPpsOutside : Nat := 0xA002
/-- HOLDOVER_ENTER. -/
def evHoldEnter : Nat := 0xA003
/-- HOLDOVER_EXIT. -/
def evHoldExit : Nat := 0xA004
/-- TIME_SET. -/
def evTimeSet : Nat := 0xA005
/-- PPS_GLITCH. -/
def evPpsGlitch : Nat := 0xA006
/-- STREAM_STALLED. -/
def evStalled : Nat := 0xC001
/-- STREAM_BLOCKED. -/
def evBlocked : Nat := 0xC002
/-- STREAM_RUNNING. -/
def evRunning : Nat := 0xC003
/-- IMG_FALLBACK. -/
def evFallback : Nat := 0xE001
/-- PUP_FAILOVER. -/
def evFailover : Nat := 0xE002
/-- PUP_STOPPED. -/
def evPupStopped : Nat := 0xE003
/-- SWAP_ROLLBACK. -/
def evRollback : Nat := 0xE004
/-- RNG_FAIL. -/
def evRngFail : Nat := 0xE005
/-- KEY_SLOT_FAULT. -/
def evKeyFault : Nat := 0xE006
/-- UNSAFE_SHUTDOWN. -/
def evUnsafe : Nat := 0xE007
/-- DEVICE_FAULT. -/
def evDeviceFault : Nat := 0xE008
/-- IMAGE_DAMAGED. -/
def evImgDamaged : Nat := 0xE009

/-! ### Notices of the base specification -/

/-- Adds a zone to the Changed Zone List of the manager and of each controller of the owning slice that the namespace is
attached to, and raises the notice on each (20 R444, 04 R92). -/
def State.zoneChanged (s : State) (nsid zslba slice : Nat) : State :=
  let att := match Tab.find nsid s.zn.ns with
    | some n => n.ctls
    | none => []
  let who := Ctl.mgr :: (s.ctlsOf slice).filter (fun c => att.contains c)
  who.foldl (fun s c =>
    let s := if s.ras.czl.contains (c, nsid, zslba) then s
      else { s with ras := { s.ras with czl := s.ras.czl ++ [(c, nsid, zslba)] } }
    s.notify c 2 0xEF 0xBF) s

/-! ### The mailbox (16 R356) -/

/-- Latches an occurrence into the mailbox (16 R356): a pending entry of the source counts it, else a new entry is made. -/
def State.latch (s : State) (src data : Nat) : State :=
  if s.pup.pend.any (fun e => e.src = src) then
    { s with pup := { s.pup with pend := s.pup.pend.map (fun (e : MbxEnt) =>
        if e.src = src then { e with count := min 255 (e.count + 1), full := e.full || e.count ≥ 255, data := data } else e) } }
  else
    let q := s.rd F.PUP_MBX_STS_SEQ
    { s with pup := { s.pup with pend := s.pup.pend ++ [MbxEnt.mk src s.tns q 1 data false false] } }.wr F.PUP_MBX_STS_SEQ (q + 1)

/-- Latches an edge of a source that is enabled (16 R356). -/
def State.edge (s : State) (src data : Nat) : State :=
  if bit (s.rd F.PUP_EDGE_EN_EN (src / 64)) (src % 64) then s.latch src data else s

/-! ### FAULT_N (17 R370; 21 R460) -/

/-- FAULT_N is driven low. -/
def State.faultLow (s : State) : State := { s with img := { s.img with faultN := false } }.send (.pin "FAULT_N" 0)

/-- FAULT_N is released. -/
def State.faultFree (s : State) : State := { s with img := { s.img with faultN := true } }.send (.pin "FAULT_N" 1)

/-- FAULT_N is released unless the Puppeteer is stopped, a trip holds or REFCLK was lost: it is low while any of its causes holds. -/
def State.faultHigh (s : State) : State := if s.rd F.PUP_STS_SPARE = 3 || s.pwr.tripped || s.img.refLost then s else s.faultFree

/-! ### Corrected and uncorrectable memory errors -/

/-- A correctable error of a memory (20 R433, R434). -/
def State.correctable (s : State) (mem addr : Nat) : State :=
  let s := s.inc F.RAS_MEM_CNT_CE mem
  match s.ras.ce.find? (fun e => e.mem = mem && e.addr = addr) with
  | some e =>
    let n := sat 16 (e.count + 1)
    let s := { s with ras := { s.ras with ce := s.ras.ce.map (fun x =>
      if x.idx = e.idx then { x with count := n, last := s.tns } else x) } }
    if n = s.rd F.RAS_CFG_CE_HARD then s.raise evCeHard 0xFFFF (mem * 2 ^ 48 + addr) else s
  | none =>
    match (List.range 64).find? (fun i => !s.ras.ce.any (fun e => e.idx = i)) with
    | none => s.inc F.RAS_CE_LOST_CNT
    | some i =>
      let s := { s with ras := { s.ras with ce := s.ras.ce ++ [CeEnt.mk i mem addr 1 s.tns s.tns] } }
      if s.rd F.RAS_CFG_CE_HARD = 1 then s.raise evCeHard 0xFFFF (mem * 2 ^ 48 + addr) else s

/-- An uncorrectable error of an on-die memory: counted, and SRAM_UE raised for the large ones (20 R433). -/
def State.sramUe (s : State) (mem addr : Nat) : State :=
  let s := s.inc F.RAS_MEM_CNT_UE mem
  if mem ≤ 8 then s.raise evSramUe 0xFFFF (mem * 2 ^ 48 + addr) else s

end Sys2Proof.Machine
end

