-- ==== Sys2Proof/Machine/ZoneOps.lean ====
section
/-! DEFINITION. The operations on zones that commands share: capacity use, active resources, parity slots, placement,
activation and release, the zone hold, programs for written data and padding (04, 06 R144-R155, R506). -/

namespace Sys2Proof.Machine

/-! ### Capacity use and limits (02 R49, R50) -/

/-- Sets the over-quota and over-zone-limit conditions of a slice, which only an ACTIVE slice has (02 R47), and raises
OVER_QUOTA on entry (03 R83, 20 R441). -/
def State.limits (s : State) (n : Nat) : State :=
  if s.slState n = slActive then
    let ovr := s.rd F.SLI_CAP_USED_UNITS n > s.rd F.SLI_CAP_QUOTA_UNITS n
    let was := s.rd F.SLI_STS_OVERQ n = 1
    let s := s.wr F.SLI_STS_OVERQ (b2n ovr) n
    let s := s.wr F.SLI_STS_AZOVER (b2n (s.rd F.SLI_AZ_COUNT_COUNT n ≥ s.rd F.SLI_AZ_LIMIT n)) n
    if ovr && !was then s.raise evOverQuota n n else s
  else (s.wr F.SLI_STS_OVERQ 0 n).wr F.SLI_STS_AZOVER 0 n

/-- Adds capacity units to a slice's use (02 R49). -/
def State.addUse (s : State) (n units : Nat) : State := (s.addw F.SLI_CAP_USED_UNITS units n).limits n

/-- Returns capacity units of a slice (02 R49). -/
def State.subUse (s : State) (n units : Nat) : State := (s.dec F.SLI_CAP_USED_UNITS n 0 units).limits n

/-- Whether a slice is over its quota (02 R50). -/
def State.overQ (s : State) (n : Nat) : Bool := s.rd F.SLI_CAP_USED_UNITS n > s.rd F.SLI_CAP_QUOTA_UNITS n

/-- Active resources of the device (02 R37; 04 R88). -/
def activeMax : Nat := 16384

/-- Whether a slice has an active resource left, and the device one (04 R88); a command admitted before the limit was cut has that of the old
limit, `adm` less one (02 R51). -/
def State.azFree (s : State) (n adm : Nat) : Bool :=
  s.rd F.SLI_AZ_COUNT_COUNT n < max (s.rd F.SLI_AZ_LIMIT n) (adm - 1) && s.rd F.ZON_ACTIVE_COUNT < activeMax

/-- The slice that owns a zone. -/
def State.zSlice (s : State) (h : Nat) : Nat := s.rd F.ZON_ENT0_SLICE h

/-- Whether a zone counts its capacity: neither Empty nor Offline (02 R49). -/
def counts (z : Nat) : Bool := z != znNone && z != znEmpty && z != znOff

/-- Notes what a zone is before a change that is journalled, unless that is noted since the last entry (01 R14; 06 R164). -/
def State.zmark (s : State) (h : Nat) : State :=
  if s.ftl.zundo.any (fun u => u.h = h && u.seq = s.ftl.jnext) then s
  else
    let ent := [s.zst h, s.wp h, s.rd F.ZON_ENT0_ROUTE h, s.rd F.ZON_ENT0_ZFC h, s.rd F.ZON_ENT0_DGROUP h, s.rd F.ZON_ENT3_SSET0 h,
      s.rd F.ZON_ENT3_K h, s.rd F.ZON_ENT4_SSET1 h, s.rd F.ZON_ENT4_SSET2 h, s.rd F.ZON_ENT5_SSET3 h, s.rd F.ZON_ENT6_ACT_NS h,
      s.rd F.ZON_ENT7_RESETS h]
    let k := s.rd F.ZON_ENT3_K h
    let first := (s.stg.units.filter (fun u => !u.row.conv && u.row.h = h)).foldl (fun a u => min a (u.row.r * (k * memBlocks) + u.off)) (s.cend h)
    let u : ZUndo := ⟨s.ftl.jnext, h, ent, s.zxOf h, s.zn.ud.filter (fun e => udZone h 0 ≤ e.1 && e.1 < udZone h zoneBlocks), first,
      s.rdn.subst.filter (fun e => !e.row.conv && e.row.h = h), s.rdn.lost.filter (fun e => !e.row.conv && e.row.h = h)⟩
    { s with ftl := { s.ftl with zundo := s.ftl.zundo ++ [u] } }

/-- Sets a zone's state, with its active resource, its capacity use, its sequence and its journal entry (04 R88-R91). -/
def State.setZst (s : State) (h z : Nat) : State :=
  let s := s.zmark h
  let old := s.zst h
  let n := s.zSlice h
  let s := (s.wr F.ZON_ENT0_STATE z h).zseq h
  let s :=
    if isActive z && !isActive old then (s.addw F.SLI_AZ_COUNT_COUNT 1 n).addw F.ZON_ACTIVE_COUNT 1
    else if isActive old && !isActive z then (s.dec F.SLI_AZ_COUNT_COUNT n).dec F.ZON_ACTIVE_COUNT
    else s
  let s :=
    if counts z && !counts old then s.addw F.SLI_CAP_USED_UNITS zoneBlocks n
    else if counts old && !counts z then s.dec F.SLI_CAP_USED_UNITS n 0 zoneBlocks
    else s
  (s.limits n).jnZone h

/-! ### Parity slots (06 R148, R149) -/

/-- SRAM parity slots of the device (06 R149). -/
def sramSlots : Nat := 1024

/-- Reserved SRAM slots that a slice's zones hold. -/
def State.rsvHeld (s : State) (n : Nat) : Nat :=
  (s.zn.zx.filter (fun e => s.rd F.ZON_ENT0_PSLOT e.1 = 1 && e.2.slotRsv && s.rd F.ZON_ENT0_SLICE e.1 = n)).length

/-- The sum over the slices of SRAM slots that are reserved or still held as reserved after a cut (02 R50). -/
def State.rsvSum (s : State) : Nat := ((List.range 1024).map (fun n => max (s.rd F.SLI_AZ_SRAM_RSV n) (s.rsvHeld n))).sum

/-- Zones that hold an unreserved SRAM slot, by handle. -/
def State.unrsv (s : State) : List (Nat × ZoneX) := s.zn.zx.filter (fun e => s.rd F.ZON_ENT0_PSLOT e.1 = 1 && !e.2.slotRsv)

/-- Gives a zone an SRAM slot, reserved or not. -/
def State.giveSram (s : State) (h : Nat) (rsv : Bool) : State :=
  let s := s.wr F.ZON_ENT0_PSLOT 1 h
  let s := s.putZx h { s.zxOf h with slotRsv := rsv }
  ((s.addw F.SLI_AZ_COUNT_SRAM_USE 1 (s.zSlice h)).addw F.ZON_ACTIVE_SRAM 1).zseq h

/-- Takes the SRAM slot of a zone away. -/
def State.dropSram (s : State) (h p : Nat) : State :=
  let s := s.wr F.ZON_ENT0_PSLOT p h
  ((s.dec F.SLI_AZ_COUNT_SRAM_USE (s.zSlice h)).dec F.ZON_ACTIVE_SRAM).zseq h

/-- The unreserved slot's zone that has been idle longest, beyond DEMOTE_TMO (06 R149 step 3). -/
def State.idlest (s : State) : Option (Nat × ZoneX) :=
  (s.unrsv.filter (fun e => e.2.lastData + s.rd F.MED_SPILL_CFG_DEMOTE_TMO * 1000000 ≤ s.el)).foldl
    (fun acc e => match acc with
      | none => some e
      | some a => if e.2.lastData < a.2.lastData then some e else some a) none

/-- Which SRAM slot a slice's zone is entitled to now: `some true` a reserved one, `some false` an unreserved one (06 R149
steps 1 and 2). A slice whose zones hold more reserved slots than its reservation was cut to is entitled to none (02 R50; log 86). -/
def State.slotFor (s : State) (n : Nat) : Option Bool :=
  if s.rd F.ZON_ACTIVE_SRAM ≥ sramSlots then none
  else if s.rd F.SLI_AZ_COUNT_SRAM_USE n < s.rd F.SLI_AZ_SRAM_RSV n then some true
  else if s.rsvHeld n > s.rd F.SLI_AZ_SRAM_RSV n then none
  else if s.unrsv.length < sramSlots - s.rsvSum then some false
  else none

/-- Takes a parity slot for a zone that becomes active (06 R149). -/
def State.takeSlot (s : State) (h : Nat) : State :=
  match s.slotFor (s.zSlice h) with
  | some r => s.giveSram h r
  | none =>
    match (if s.rsvHeld (s.zSlice h) > s.rd F.SLI_AZ_SRAM_RSV (s.zSlice h) then none else s.idlest) with
    | some (d, _) => (s.dropSram d 2).giveSram h false
    | none => (s.wr F.ZON_ENT0_PSLOT 2 h).zseq h

/-- Whether a zone's current page-row has received some of its data and not all of it (06 R148, R149). -/
def State.midPage (s : State) (h : Nat) : Bool :=
  let k := s.rd F.ZON_ENT3_K h
  let off := s.wp h
  let r := rowOf k off
  let inPage : Bool := (List.range k).any (fun m => onMember k m r.2 % winBlocks % pageBlocks != 0)
  let ahead : Bool := (List.range k).any (fun m => onMember k m r.2 != onMember k 0 r.2)
  inPage || ahead
/-- Moves spilled zones that are between page-rows to SRAM slots they are entitled to (06 R149), lowest handle first. -/
def State.promote (s : State) : State :=
  (s.zn.zx.map (·.1)).foldl (fun s h =>
    if s.rd F.ZON_ENT0_PSLOT h = 2 && !s.midPage h then
      match s.slotFor (s.zSlice h) with
      | some r => s.giveSram h r
      | none => s
    else s) s

/-- Releases a zone's parity slot (04 R91). -/
def State.dropSlot (s : State) (h : Nat) : State :=
  let p := s.rd F.ZON_ENT0_PSLOT h
  if p = 1 then (s.dropSram h 0).promote else if p = 2 then (s.wr F.ZON_ENT0_PSLOT 0 h).zseq h else s

/-! ### Staging (06 R144-R147) -/

/-- Whether a direct request is granted (04 R104, 06 R146). -/
def State.directOk (s : State) : Bool :=
  s.rd F.ZON_DIRECT_ACTIVE < s.rd F.ZON_DIRECT_MAX && s.winFree ≥ 1536 + s.rd F.MED_STG_CFG_LOW_FREE * 256

/-! ### Free space and placement (04 R103, 11 R272-R275) -/

/-- Whether a zone has spilled parity and the ingest of such zones has reached its limit in this epoch, which a data rate below 8,800 MT/s
lowers in proportion (06 R150; 15 R330). -/
def State.spillOver (s : State) (h : Nat) : Bool :=
  s.rd F.ZON_ENT0_PSLOT h = 2 && s.stg.spillBytes * 8800 ≥
    s.rd F.MED_SPILL_CFG_MAX * 1000000 * (if s.rd F.DRC_CFG_MTS = 0 then 8800 else min 8800 (s.rd F.DRC_CFG_MTS))

/-- Active zones with a member on a die. -/
def State.zonesOn (s : State) (d : Nat) : Nat :=
  (s.zn.zx.filter (fun e => isActive (s.zst e.1) && e.2.rows.any (fun r => r.mem.any (fun b => b.die = d)))).length

/-- Whether every member of a set can supply its blocks, less those that sets already chosen take (04 R103 step 2); while a break lasts
no die of its link can (08 R199). -/
def State.setOk (s : State) (g : Grp) (chosen : List Nat) (win : Bool) (set : Nat) : Bool :=
  (g.members set).all (fun d =>
    let taken := (chosen.filter (fun c => (g.members c).contains d)).length * (if win then 2 else 1)
    s.works d && s.rd F.KZL_STS_BREAK (d / 64) = 0 && s.erasedOn d ≥ s.spareLeft d + taken + (if win then 2 else 1))

/-- Active zones on the most loaded member of a set (04 R103 step 3). -/
def State.setLoad (s : State) (g : Grp) (set : Nat) : Nat := ((g.members set).map s.zonesOn).foldl max 0

/-- The next sets in permutation order, leaving out those chosen (04 R103 step 1). -/
def nextSets (sets cur : Nat) (chosen : List Nat) (n : Nat) : List Nat :=
  (((List.range sets).map (fun i => (cur + i) % max sets 1)).filter (fun x => !chosen.contains x)).drop n |>.take 8

/-- The set whose most loaded member has the fewest active zones, the first on a tie (04 R103 step 3). -/
def State.bestSet (s : State) (g : Grp) : List Nat → Option Nat
  | [] => none
  | x :: xs =>
    match s.bestSet g xs with
    | none => some x
    | some y => if s.setLoad g y < s.setLoad g x then some y else some x

/-- Chooses one set from the cursor, eight at a time, through the whole permutation (04 R103). -/
def State.chooseSet (s : State) (g : Grp) (chosen : List Nat) (win : Bool) (cur : Nat) : Nat → Nat → Option Nat
  | 0, _ => none
  | fuel + 1, skip =>
    match s.bestSet g ((nextSets g.sets cur chosen skip).filter (s.setOk g chosen win)) with
    | some x => some x
    | none => s.chooseSet g chosen win cur fuel (skip + 8)

/-- Chooses `n` sets one after another; the cursor moves past each (04 R103). -/
def State.chooseSets (s : State) (g : Grp) (win : Bool) : Nat → List Nat → Nat → Option (List Nat × Nat)
  | 0, chosen, cur => some (chosen, cur)
  | n + 1, chosen, cur =>
    match s.chooseSet g chosen win cur (g.sets / 8 + 1) 0 with
    | none => none
    | some x => s.chooseSets g win n (chosen ++ [x]) ((x + 1) % max g.sets 1)

/-- Takes an erased block on each of a list of dies. -/
def State.takeAll (s : State) (onebit : Bool) : List Nat → State × List Blk
  | [] => (s, [])
  | d :: ds =>
    match s.takeBlk d onebit with
    | some (s, b) =>
      let r := s.takeAll onebit ds
      (r.1, b :: r.2)
    | none =>
      let r := s.takeAll onebit ds
      (r.1, ⟨d, 0⟩ :: r.2)

/-- A new stripe row on a set: a QLC block on each member and, on the window route, the one-bit blocks of its first window
stripe row (04 R103, R104). -/
def State.newRow (s : State) (g : Grp) (shadow win : Bool) (set : Nat) : State × SRow :=
  let a := s.takeAll false (g.members set)
  if win then
    let b := a.1.takeAll true (g.members set)
    (b.1, ⟨set, shadow, a.2, [b.2], [List.replicate (g.k + 2) 0], List.replicate (g.k + 2) 0, 0, 0, [], false⟩)
  else (a.1, ⟨set, shadow, a.2, [], [], List.replicate (g.k + 2) 0, 0, 0, [], true⟩)

/-- Makes the rows of a zone's sets. -/
def State.newRows (s : State) (g : Grp) (shadow win : Bool) : List Nat → State × List SRow
  | [] => (s, [])
  | x :: xs =>
    let a := s.newRow g shadow win x
    let b := a.1.newRows g shadow win xs
    (b.1, a.2 :: b.2)

/-- Whether a group's activations go to its shadow layout now (07 R180, R181). -/
def State.onShadow (s : State) (g : Nat) : Bool :=
  match s.rdn.reshape with
  | some r => r.grp = g && !r.rev
  | none => false

/-- Binds stripe sets, route and parity slot to a zone that becomes active (04 R91, R103, R104, 06 R149); none where the
activation waits under the reclamation throttle (04 R103, 11 R275). -/
def State.activate (s : State) (h dg : Nat) (direct : Bool) : Option State :=
  let sh := s.onShadow dg
  match s.grp dg sh with
  | none => none
  | some g =>
    let dir := direct && s.directOk
    let cid := if sh then dg + 64 else dg
    let cur := (Tab.find cid s.zn.cursor).getD 0
    if s.critical g then none
    else
      match s.chooseSets g (!dir) (16 / max g.k 1) [] cur with
      | none => none
      | some (sets, cur') =>
        let a := (s.zmark h).newRows g sh (!dir) sets
        let s := a.1
        let s := { s with zn := { s.zn with cursor := Tab.put cid cur' s.zn.cursor } }
        let s := s.putZx h { s.zxOf h with rows := a.2, lastData := s.el, dirRow := 0, dirWl := 0, padTo := 0 }
        let s := s.wr F.ZON_ENT0_ROUTE (if dir then 2 else 1) h
        let s := s.wr F.ZON_ENT0_DGROUP dg h
        let s := s.wr F.ZON_ENT3_SSET0 (sets.getD 0 0) h
        let s := s.wr F.ZON_ENT3_K g.k h
        let s := s.wr F.ZON_ENT4_SSET1 (sets.getD 1 0) h
        let s := s.wr F.ZON_ENT4_SSET2 (sets.getD 2 0) h
        let s := s.wr F.ZON_ENT5_SSET3 (sets.getD 3 0) h
        let s := s.wr F.ZON_ENT6_ACT_NS s.tns h
        let s := if dir then s.addw F.ZON_DIRECT_ACTIVE 1 else s
        let s := s.takeSlot h
        let s := (sets.mapIdx (fun i x => (i, x))).foldl (fun s e =>
          s.jn 0x05 [h, e.1, e.2, s.rd F.ZON_ENT0_ROUTE h, s.rd F.ZON_ENT0_PSLOT h, b2n sh]) s
        some (a.2.foldl (fun (s : State) r => (s.jnBlks r.mem).jnBlks (r.win.headD [])) s)

/-- Releases a zone's direct reservation (04 R104, 06 R146). -/
def State.dropDirect (s : State) (h : Nat) : State :=
  if s.rd F.ZON_ENT0_ROUTE h = 2 && (s.zxOf h).dirWl != wlCount then
    let z := s.zxOf h
    (s.dec F.ZON_DIRECT_ACTIVE).putZx h { z with dirWl := wlCount }
  else s

/-- Unbinds a zone that becomes Empty or Offline (04 R91, R93, R97): staged data is discarded, its rows go to reclamation, slot
and direct reservation are released. Its entry keeps the die group and the instant of its last activation (04 R108 gives them no value then;
log 85). -/
def State.unbind (s : State) (h : Nat) : State :=
  let s := s.zmark h
  let z := s.zxOf h
  let s := s.dropDirect h
  let s := s.dropSlot h
  let s := { s with stg := { s.stg with
    units := s.stg.units.filter (fun u => u.row.conv || u.row.h != h)
    par := s.stg.par.filter (fun e => e.row.conv || e.row.h != h) } }
  let s := (z.rows.mapIdx (fun i r => (i, r))).foldl (fun s e => s.partRow ⟨false, h, e.1⟩ e.2) s
  let s := { s with rdn := { s.rdn with lost := s.rdn.lost.filter (fun l => l.row.conv || l.row.h != h) } }
  let s := { s with ftl := { s.ftl with relocs := s.ftl.relocs.filter (fun r => r.row.conv || r.row.h != h) } }
  let s := s.putZx h { z with rows := [], padTo := 0, voids := [], fin := 0 }
  let s := s.wr F.ZON_ENT0_ROUTE 0 h
  let s := s.wr F.ZON_ENT3_SSET0 0 h
  let s := s.wr F.ZON_ENT3_K 0 h
  let s := s.wr F.ZON_ENT4_SSET1 0 h
  let s := s.wr F.ZON_ENT4_SSET2 0 h
  s.wr F.ZON_ENT5_SSET3 0 h

/-! ### The zone hold (04 R95) -/

/-- The Writes held for a zone, in LBA order, then in order of arrival, which is held in ticks, then of queue index (04 R89, R95; 03 R68). -/
def State.held (s : State) (h : Nat) : List Cmd :=
  let age := fun (c : Cmd) => (s.tick s.el + 2 ^ 48 - s.tick c.arr) % 2 ^ 48
  insSort (fun a b => a.lba < b.lba || (a.lba = b.lba && (age b < age a || (age a = age b && a.q ≤ b.q)))) (s.zn.cmds.filter (fun c => c.st = .held && c.zone = h))

/-- Fails one held Write and counts it (04 R95). -/
def State.failHeld (s : State) (c : Cmd) (st : Nat × Nat) : State :=
  (((s.inc F.ZON_HOLD_FAIL_CNT).dec F.ZON_ENT2_HOLD c.zone).zseq c.zone).fin c st

/-- Fails every Write held for a zone (04 R95). -/
def State.failHolds (s : State) (h : Nat) (st : Nat × Nat) : State := (s.held h).foldl (fun s c => s.failHeld c st) s

/-- Zone Invalid Write, Zone Is Full, Read Only, Offline, Boundary Error, Too Many Active, Invalid Transition. -/
def stZInvalid : Nat × Nat := (1, 0xBC)
/-- Zone Is Full. -/
def stZFull : Nat × Nat := (1, 0xB9)
/-- Zone Is Read Only. -/
def stZRo : Nat × Nat := (1, 0xBA)
/-- Zone Is Offline. -/
def stZOff : Nat × Nat := (1, 0xBB)
/-- Zone Boundary Error. -/
def stZBound : Nat × Nat := (1, 0xB8)
/-- Too Many Active Zones. -/
def stZActive : Nat × Nat := (1, 0xBD)
/-- Invalid Zone State Transition. -/
def stZTrans : Nat × Nat := (1, 0xBF)

/-- The status a write gets from a zone's state, if that refuses it (04 R90, R504 test 4). -/
def zoneRefuses (z : Nat) : Option (Nat × Nat) :=
  if z = znFull then some stZFull else if z = znRo then some stZRo else if z = znOff then some stZOff else none

/-- The outcome of the tests of 04 R504. -/
inductive WTest
  | ok
  | hold
  | bad (st : Nat × Nat)
deriving DecidableEq, Repr

/-- Tests 4 to 8 of 04 R504, for a write or append of `len` blocks at `off` in zone `h`; `quota` says whether test 6 is
made, `adm` the active-zone limit the command was admitted under, as one more (02 R51). -/
def State.wTest (s : State) (h off len : Nat) (append quota : Bool) (adm : Nat := 0) : WTest :=
  let z := s.zst h
  let n := s.zSlice h
  let start := if append then s.wp h else off
  match zoneRefuses z with
  | some st => .bad st
  | none =>
    if start + len > zoneBlocks then .bad stZBound
    else if quota && s.overQ n then .bad stQuota
    else if !append && off < s.wp h then .bad stZInvalid
    else if !append && off > s.wp h then .hold
    else if z = znEmpty && start + len < zoneBlocks && !s.azFree n adm then .bad stZActive
    else .ok

/-- After a Write that started at the write pointer has failed outside the hold: the gap will not be filled (04 R95, R72). -/
def State.gap (s : State) (h : Nat) : State := s.failHolds h stZInvalid

/-- After the write pointer moved: held Writes it passed fail, and those it reached are tested again and go on to their
staging reservation (04 R95, R504). -/
def State.serveHold (s : State) (h : Nat) : State :=
  (s.held h).foldl (fun s c =>
    let off := c.lba - s.rd F.ZON_ENT1_ZSLBA h
    if off < s.wp h then s.failHeld c stZInvalid
    else if off = s.wp h then
      match s.wTest h off c.len false true with
      | .ok => (((s.dec F.ZON_ENT2_HOLD h).zseq h).putCmd { c with st := .staging, since := s.el })
      | .hold => s
      | .bad st => ((((s.dec F.ZON_ENT2_HOLD h).zseq h).fin c st).gap h)
    else s) s

/-! ### Programs of written data -/

/-- The unit whose write has the earliest deadline (09 R214). -/
def earliestU : List StU → Option StU
  | [] => none
  | u :: us => match earliestU us with
    | none => some u
    | some v => if v.dl < u.dl then some v else some u

/-- The arrival, deadline and queue of a program that carries units: those of the write with the earliest deadline (09 R214; 03 R75). A
padding program that carries none takes now, now and 20 ms, and no queue (log 85). -/
def unitDl (us : List StU) (el : Nat) : Nat × Nat × Nat :=
  match earliestU us with
  | some u => (u.arr, u.dl, u.q)
  | none => (el, el + 20000000, noQueue)

/-- The class of the unit that came last (06 R153); 5 where a padding program carries none (log 85). -/
def lastLc (us : List StU) : Nat := (us.foldl (fun (a : Nat × Nat) u => if a.1 ≤ u.since then (u.since, u.lc) else a) (0, 5)).2

/-- Units of a row that lie on member `m` in blocks `b0` to `b1 - 1`, in staging. -/
def State.unitsOn (s : State) (r : RowId) (k m b0 b1 : Nat) : List StU :=
  s.stg.units.filter (fun u => u.row = r && (placeIn k u.off).1 = m && b0 ≤ (placeIn k u.off).2 && (placeIn k u.off).2 < b1)

/-- Whether a block of a member moves to a replacement after a failed program: its other programs follow the move (09 R221). -/
def State.moving (s : State) (r : RowId) (m : Nat) : Bool := s.ftl.relocs.any (fun (j : Reloc) => j.kind = 2 && j.row = r && j.member = m)

/-- Whether a page of a member has a program queued or running, or to be queued once its block has moved. -/
def State.pageQueued (s : State) (r : RowId) (m blk page : Nat) (d : Nat) : Bool :=
  let x := s.dieOf d
  s.moving r m || x.queue.any (fun o => o.row = r && o.member = m && o.blk = blk && o.page = page && o.kind = .prog1)
    || (match x.cur with
        | some o => o.row = r && o.member = m && o.blk = blk && o.page = page && o.kind = .prog1
        | none => false)

/-- Blocks of page `p` of window row `w` on a member: its first and one past its last, in member blocks. -/
def pageSpan (w p : Nat) : Nat × Nat := (w * winBlocks + p * pageBlocks, min (w * winBlocks + (p + 1) * pageBlocks) ((w + 1) * winBlocks))

/-- The window page and row that hold a member's block. -/
def winOf (b : Nat) : Nat × Nat := (b / winBlocks, b % winBlocks / pageBlocks)

/-- Folds a block that enters staging into the running P and Q of its window page-row (06 R148; 07 R166). -/
def State.foldPar (s : State) (r : RowId) (u v : Nat) : State :=
  match s.srow r with
  | none => s
  | some x =>
    if x.direct then s
    else
      let mb := placeIn x.k u
      let w := winOf mb.2
      let pg := w.1 * winPages + w.2
      let i := mb.2 % winBlocks % pageBlocks
      let e := (s.stg.par.find? (fun e => e.row = r && e.page = pg)).getD ⟨r, pg, List.replicate pageBlocks 0, List.replicate pageBlocks 0⟩
      let e := { e with p := e.p.modify i (Nat.xor v), q := e.q.modify i (Nat.xor (gfMul (gfPow mb.1) v)) }
      { s with stg := { s.stg with par := s.stg.par.filter (fun f => !(f.row = r && f.page = pg)) ++ [e] } }

/-- Puts a committed block into staging, into user data and into its page-row's parity. -/
def State.stageAt (s : State) (u : StU) (key v : Nat) : State :=
  (({ s with stg := { s.stg with units := s.stg.units ++ [u] } }).setUd key v).foldPar u.row u.off v

/-- Committed blocks of a row: of a zone's row up to the end of its data, of a conventional row those appended. -/
def State.rowUnits (s : State) (r : RowId) (k : Nat) : Nat :=
  if r.conv then ((Tab.find r.h s.ftl.crows).map (·.fill)).getD 0 else s.cend r.h - r.r * (k * memBlocks)

/-- Whether every block of a window page-row has reached staging (06 R146, R147). -/
def State.pageRowFull (s : State) (r : RowId) (k w p : Nat) : Bool :=
  let n := min (s.rowUnits r k) (k * memBlocks)
  (List.range k).all (fun m => (pageSpan w p).2 ≤ onMember k m n)

/-- Programmed pages of a window row by member. -/
def SRow.pg (x : SRow) (w m : Nat) : Nat := (x.pages.getD w []).getD m 0

/-- The charge of reading the old data of a member page that a small write fills further: one sense and its transfer, of `k` members where the
member is unreachable (07 R171, R172, R182). -/
def State.chgOld (s : State) (x : SRow) (d : Nat) : Nat :=
  (if s.works d then 1 else x.k) * (chgSense (s.descOf d) 1 + chgLink (pageBlocks * cwBytes 0))

/-- Queues the program of a member's window page for slice `n` (06 R146); what lies in the overflow is read back first, once its page-row is
complete (R147) or is forced. A page whose window row has no blocks yet waits for them. -/
def State.progPage (s : State) (r : RowId) (k w p m n : Nat) (purp : Purp) (force : Bool := false) : State :=
  match s.srow r with
  | none => s
  | some x =>
    let b := (x.win.getD w []).getD m ⟨0, 0⟩
    let sp := pageSpan w p
    let dl := unitDl (s.unitsOn r k m sp.1 sp.2) s.el
    let o := { pageOp r m b.blk p n dl.2.2 0 dl.1 dl.2.1 (s.blkOf (x.mem.getD m ⟨0, 0⟩)).tier (s.rd F.SLI_GEN_GEN n) 0 purp with cw := w, lc := lastLc (s.unitsOn r k m sp.1 sp.2) }
    let back := (s.unitsOn r k m sp.1 sp.2).filter (fun (u : StU) => u.pool = 2)
    if x.win.length ≤ w || (!back.isEmpty && !force && !s.pageRowFull r k w p) then s
    else
      let s := if back.isEmpty then s else
        { s with stg := { s.stg with units := s.stg.units.map (fun (u : StU) => if back.contains u then { u with pool := 0 } else u) } }
      if s.pageQueued r m b.blk p b.die then s
      else (if p < x.pg w m then s.charge n none (s.chgOld x b.die) else s).enq b.die { o with back := back.length }.account

/-- Queues the passes of a direct wordline on every member: the coarse pass first (06 R155, 09 R209). -/
def State.progWl (s : State) (r : RowId) (w n : Nat) (purp : Purp) : State :=
  match s.srow r with
  | none => s
  | some x =>
    (List.range x.mem.length).foldl (fun s m =>
      let b := s.memBlk r x m
      let dl := unitDl (s.unitsOn r x.k m (w * wlBlocks) ((w + 1) * wlBlocks)) s.el
      let o : DOp := { pageOp r m b.blk w n dl.2.2 0 dl.1 dl.2.1 (s.blkOf b).tier (s.rd F.SLI_GEN_GEN n) 0 purp with kind := .coarse, lc := lastLc (s.unitsOn r x.k m (w * wlBlocks) ((w + 1) * wlBlocks)) }
      s.enq b.die o.account) s

/-- Opens the next window stripe row of a row: one-bit blocks on its members (04 R104, ZON entry WINROW). While a member's die has none to give
beside its spare, the row's data waits in staging. -/
def State.openWin (s : State) (r : RowId) : State :=
  match s.srow r with
  | none => s
  | some x =>
    if x.mem.any (fun b => s.erasedOn b.die ≤ s.spareLeft b.die) then s else
    let a := s.takeAll true (x.mem.map (·.die))
    let s := (a.1.jnBlks a.2).putRow r { x with win := x.win ++ [a.2], pages := x.pages ++ [List.replicate x.mem.length 0] }
    if r.conv then s else s.zseq r.h

/-- Member pages of the page-rows that a row's units from `fr` to `upto` lie in which the overflow holds in part: window row, page and
member (06 R147). -/
def State.heldBack (s : State) (r : RowId) (k fr upto : Nat) : List (Nat × Nat × Nat) :=
  let ws := ((List.range k).flatMap (fun m => (List.range ((onMember k m upto - 1) / pageBlocks + 2 - onMember k m fr / pageBlocks)).map (fun i =>
    winOf (min (onMember k m fr + i * pageBlocks) (onMember k m upto - 1))))).dedup
  (ws.flatMap (fun w => (List.range k).map (fun m => (w.1, w.2, m)))).filter (fun e =>
    let sp := pageSpan e.1 e.2.1
    s.stg.units.any (fun u => u.pool = 2 && u.row = r && (placeIn k u.off).1 = e.2.2 && sp.1 ≤ (placeIn k u.off).2 && (placeIn k u.off).2 < sp.2)
      && s.pageRowFull r k e.1 e.2.1)

/-- After units of a row reached staging: queues the program of each member page of the window that is now complete, up to
unit `upto` of the row (06 R146), or of the direct wordline (R155). -/
def State.progReady (s : State) (r : RowId) (k n fr upto : Nat) (direct : Bool) : State :=
  if direct then
    let w0 := fr / (k * wlBlocks)
    let w1 := if upto = k * memBlocks then wlCount else upto / (k * wlBlocks)
    (List.range (w1 - w0)).foldl (fun s i => s.progWl r (w0 + i) n .data) s
  else
    let s := (List.range k).foldl (fun s m =>
      let c0 := onMember k m fr
      let c1 := onMember k m upto
      let first := c0 / winBlocks * winPages + c0 % winBlocks / pageBlocks
      let last := if c1 % winBlocks = 0 then c1 / winBlocks * winPages else c1 / winBlocks * winPages + c1 % winBlocks / pageBlocks
      (List.range (last - first)).foldl (fun s i =>
        let p := first + i
        let s := match s.srow r with
          | some x => if p / winPages < x.win.length then s else s.openWin r
          | none => s
        s.progPage r k (p / winPages) (p % winPages) m n .data) s) s
    (s.heldBack r k fr upto).foldl (fun (s : State) e => s.progPage r k e.1 e.2.1 e.2.2 n .data) s

/-- Whether a row still has data in staging, or a program or a verify read of it queued, running or in the sense buffer. -/
def State.rowBusy (s : State) (r : RowId) : Bool :=
  let w := fun (o : DOp) => o.row = r && (o.kind != .read || o.vfy.isSome) && o.kind != .foldC && o.kind != .foldF
  s.stg.units.any (fun u => u.row = r) || s.die.dies.any (fun e => e.2.ops.any w) || s.die.cws.any (fun v => w v.op)

/-- The programs that complete a zone's current row are done: route, slot and reservation are released (04 R91, R104; 06 R506). -/
def State.padDone (s : State) (r : RowId) : State :=
  if r.conv || doomBase ≤ r.h || (s.zxOf r.h).padTo = 0 || s.rowBusy r then s
  else
    let s := ((s.putZx r.h { s.zxOf r.h with padTo := 0 }).dropDirect r.h).dropSlot r.h
    (s.wr F.ZON_ENT0_ROUTE 0 r.h).zseq r.h

/-- Completes the partly filled units of a row with zero bytes when its zone becomes Full or Read Only (06 R506): every
member page of the partly filled page-row, or the partly filled direct wordline. The zone releases its route, its slot and its
reservation when the last program of the row is done and verified. -/
def State.padRow (s : State) (h : Nat) : State :=
  let k := s.rd F.ZON_ENT3_K h
  let wp := s.cend h
  if k = 0 then s
  else
    let r := rowOf k wp
    let rid : RowId := ⟨false, h, r.1⟩
    let n := s.zSlice h
    let last : RowId := if r.2 = 0 then ⟨false, h, r.1 - 1⟩ else rid
    let s := s.putZx h { s.zxOf h with padTo := 1 }
    let s :=
      if r.2 = 0 then s
      else if s.rd F.ZON_ENT0_ROUTE h = 2 then (if r.2 % (k * wlBlocks) = 0 then s else s.progWl rid (r.2 / (k * wlBlocks)) n .pad)
      else
        let top := (List.range k).foldl (fun a m => max a (onMember k m r.2)) 0
        let low := (List.range k).foldl (fun a m => min a (onMember k m r.2)) memBlocks
        let p0 := low / winBlocks * winPages + low % winBlocks / pageBlocks
        let p1 := (top - 1) / winBlocks * winPages + (top - 1) % winBlocks / pageBlocks
        (List.range (p1 + 1 - p0)).foldl (fun s i =>
          let p := p0 + i
          let s := match s.srow rid with
            | some x => if p / winPages < x.win.length then s else s.openWin rid
            | none => s
          (List.range k).foldl (fun s m =>
            match s.srow rid with
            | some x =>
              if ((x.pages.getD (p / winPages) []).getD m 0) ≤ p % winPages then s.progPage rid k (p / winPages) (p % winPages) m n .pad else s
            | none => s) s) s
    s.padDone last

/-! ### Changes of state the controller and commands share (04 R90-R95) -/

/-- Uncommitted Writes and Appends of a zone, outside the hold, fail with a status (04 R92, R93, R98). -/
def State.failUncommitted (s : State) (h : Nat) (st : Nat × Nat) : State :=
  (s.zn.cmds.filter (fun c => c.zone = h && (c.kind = .write || c.kind = .append || c.kind = .writeZeroes) && (c.st = .staging || c.st = .admitted || c.st = .place))).foldl
    (fun s c => s.fin c st) s

/-- A zone becomes Full (04 R90-R92): held and uncommitted writes fail, its current row is padded, its active resource is
released. A zone that was Empty binds nothing. -/
def State.becomeFull (s : State) (h : Nat) : State :=
  let old := s.zst h
  let s := (s.zmark h).putZx h { s.zxOf h with fin := s.wp h }
  let s := (s.wr F.ZON_ENT2_WP_OFF zoneBlocks h).setZst h znFull
  let s := (s.failHolds h stZFull).failUncommitted h stZFull
  if isActive old then s.padRow h else s

/-- A zone becomes Read Only (04 R93); its write pointer is the last committed end (R107). -/
def State.becomeRo (s : State) (h : Nat) : State :=
  let old := s.zst h
  if old = znEmpty || old = znOff || old = znNone || old = znRo then s
  else
    let s := s.zmark h
    let s := (s.wr F.ZON_ENT2_WP_OFF (s.cend h) h).setZst h znRo
    let s := (s.inc F.ZON_DEV_XN_RONLY).zoneChanged (s.rd F.ZON_ENT0_NSID h) (s.rd F.ZON_ENT1_ZSLBA h) (s.zSlice h)
    let s := (s.failHolds h stZRo).failUncommitted h stZRo
    if isActive old then s.padRow h else s

/-- The controller finishes an active zone (04 R92). -/
def State.ctlFinish (s : State) (h : Nat) : State :=
  if isActive (s.zst h) then
    let s := (s.becomeFull h).wr F.ZON_ENT0_ZFC 1 h
    (s.inc F.ZON_DEV_XN_FINISH).zoneChanged (s.rd F.ZON_ENT0_NSID h) (s.rd F.ZON_ENT1_ZSLBA h) (s.zSlice h)
  else s

/-- A zone becomes Empty by a Reset (04 R90, R98, R108): its data is gone for reads admitted from now on. The
Reset of an Empty zone changes its entry only where it holds Writes. -/
def State.zoneReset (s : State) (h : Nat) : State :=
  let old := s.zst h
  let s := s.failHolds h stZInvalid
  if old = znEmpty then s
  else
    let s := s.unbind h
    let s := s.wipeZone h
    let s := s.wr F.ZON_ENT2_WP_OFF 0 h
    let s := s.wr F.ZON_ENT0_ZFC 0 h
    (s.inc F.ZON_ENT7_RESETS h).setZst h znEmpty

/-- A stripe enters the lost-stripe table (07 R177); its zone becomes Read Only (04 R93). -/
def State.loseStripe (s : State) (r : RowId) (stripe : Nat) : State :=
  let s :=
    if s.isLost r stripe then s
    else
      let s :=
        if s.rdn.lost.any (fun e => e.row = r && (e.last + 1 = stripe || stripe + 1 = e.first)) then
          { s with rdn := { s.rdn with lost := s.rdn.lost.map (fun e =>
            if e.row = r && e.last + 1 = stripe then { e with last := stripe }
            else if e.row = r && stripe + 1 = e.first then { e with first := stripe }
            else e) } }
        else if s.rdn.lost.length ≥ 65536 then
          (s.wr F.RDN_STS_LOST_FULL 1).inc F.RDN_LOST_CNT_OVF
        else { s with rdn := { s.rdn with lost := s.rdn.lost ++ [Lost.mk r stripe stripe s.tns] } }
      (s.jn 0x11 [b2n r.conv, r.h, r.r, stripe]).raise evStripeLost 0xFFFF (r.h * 4 + r.r)
  if r.conv || doomBase ≤ r.h then s else s.becomeRo r.h

/-- A 4 KiB unit of staging is uncorrectable (20 R433): it is rebuilt from its parity slot and the rest of its stripe. A stripe beyond two missing, and a
direct wordline that is not yet whole in staging, so that its P and Q are not computed (06 R148), is lost. -/
def State.stgUe (s : State) (r : RowId) (u : Nat) : State :=
  match s.stg.units.find? (fun x => x.row = r && x.off = u), s.srow r with
  | some x, some w =>
    let b := (placeIn w.k u).2
    let early : Bool := x.pool = 1 && s.cend r.h < r.r * (w.k * memBlocks) + (b / wlBlocks + 1) * (w.k * wlBlocks)
    if early || (s.missing r w).length ≥ 2 then s.loseStripe r (stripeOf b) else s
  | _, _ => s

end Sys2Proof.Machine
end

