-- ==== Sys2Proof/Machine/CipherOps.lean ====
section
/-! DEFINITION. Keys: requests, generations, revocation (12 R287-R293). -/

namespace Sys2Proof.Machine

/-- The key generation of a pair of slice and NSID: 1 when first used (12 R289). -/
def State.keyGen (s : State) (slice nsid : Nat) : Nat :=
  match s.cip.gens.find? (fun g => g.1 = slice && g.2.1 = nsid) with
  | some g => g.2.2
  | none => 1

/-- Sets the key generation of a pair. -/
def State.putGen (s : State) (slice nsid gen : Nat) : State :=
  { s with cip := { s.cip with
      gens := s.cip.gens.filter (fun (g : Nat × Nat × Nat) => !(g.1 = slice && g.2.1 = nsid)) ++ [(slice, nsid, gen)] } }

/-- Key slots of the device (12 R290). -/
def keySlots : Nat := 4096

/-- Puts a key slot. -/
def State.putSlot (s : State) (i : Nat) (k : KeySlot) : State := { s with cip := { s.cip with slots := Tab.put i k s.cip.slots } }

/-- Frees a key slot. -/
def State.freeSlot (s : State) (i : Nat) : State := { s with cip := { s.cip with slots := Tab.del i s.cip.slots } }

/-- Whether a slot carries a tag. -/
def KeySlot.tagged (k : KeySlot) (slice nsid gen purpose : Nat) : Bool :=
  k.slice = slice && k.nsid = nsid && k.gen = gen && k.purpose = purpose

/-- The answer to a request for a key. -/
inductive KeyAns
  | ready
  | wait
  | no
deriving DecidableEq, Repr

/-- Counts a refused request. -/
def State.denyKey (s : State) : State := s.inc F.CIP_DENY_CNT_CNT

/-- Frees the slots that are REVOKED, or VALID beside a lower one of their tag, and that no operation holds any more (12 R290, R291). -/
def State.sweepSlots (s : State) : State :=
  { s with cip := { s.cip with slots := s.cip.slots.filter (fun e => !((e.2.st = 3 || (e.2.st = 2 && e.2.dying)) && s.slotHolds e.2 = 0)) } }

/-- The VALID slot of a slice used longest ago that no operation holds (12 R290). -/
def State.evictable (s : State) (slice : Nat) : Option Nat :=
  ((s.cip.slots.filter (fun e => e.2.st = 2 && e.2.slice = slice && s.slotHolds e.2 = 0)).foldl
    (fun acc e => match acc with
      | none => some e
      | some a => if e.2.lru < a.2.lru then some e else some a) none).map (·.1)

/-- The lowest FREE slot. -/
def State.freeKeySlot (s : State) : Option Nat :=
  (List.range keySlots).find? (fun i => (Tab.find i s.cip.slots).isNone)

/-- Starts a derivation in a slot (12 R290). -/
def State.derive (s : State) (i slice nsid gen purpose : Nat) : State :=
  s.putSlot i ⟨1, slice, nsid, gen, purpose, s.cip.clock, false⟩

/-- Records a fault of the key slots (12 R288, R291). -/
def State.keyFault (s : State) (a b kind : Nat) : State :=
  let s := if s.rd F.CIP_FLT_INFO_VALID = 1 then s
    else (((s.wr F.CIP_FLT_INFO_VALID 1).wr F.CIP_FLT_INFO_KIND kind).wr F.CIP_FLT_INFO_SLOT_A a).wr F.CIP_FLT_INFO_SLOT_B b
  s.inc F.CIP_FLT_CNT_CNT

/-- A request for the key of a tag (12 R287-R291, R280). -/
def State.keyReq (s : State) (slice nsid gen purpose : Nat) : State × KeyAns :=
  let s := s.sweepSlots
  let m := s.cip.slots.filter (fun e => e.2.tagged slice nsid gen purpose)
  if s.rd F.CIP_STS_ROOT_OK = 0 then (s.denyKey, .no)
  else if s.rd F.CIP_STS_RNG_FAIL = 1 && s.rd F.CIP_CFG_RNG_STRICT = 1 then (s.denyKey, .no)
  else if s.cip.retired.contains (slice, nsid) then (s.denyKey, .no)
  else if gen != s.keyGen slice nsid then (s.denyKey, .no)
  else if m.any (fun e => e.2.st = 3 || (e.2.st = 1 && e.2.dying)) then (s.denyKey, .no)
  else
    match m.filter (fun e => e.2.st = 2 && !e.2.dying) with
    | (i, k) :: rest =>
      let s := { s with cip := { s.cip with clock := s.cip.clock + 1 } }
      let s := s.putSlot i { k with lru := s.cip.clock }
      match rest with
      | [] => (s, .ready)
      | (j, _) :: _ =>
        let s := (s.keyFault i j 0).raise evKeyFault 0xFFFF (i * 2 ^ 16 + j)
        ((rest.foldl (fun (s : State) e => s.putSlot e.1 { e.2 with dying := true }) s).sweepSlots, .ready)
    | [] =>
      if m.any (fun e => e.2.st = 1) then (s, .wait)
      else if (s.cip.slots.filter (fun e => e.2.slice = slice)).length < (s.sx slice).keySlots then
        match s.freeKeySlot with
        | some i => (s.derive i slice nsid gen purpose, .wait)
        | none => (s, .wait)
      else
        match s.evictable slice with
        | some i => (s.derive i slice nsid gen purpose, .wait)
        | none => (s, .wait)

/-- The key a block read or write of a namespace needs: purpose 0x01 where its setting is 1 (12 R282, R283). -/
def State.blockKey (s : State) (nsid : Nat) : State × KeyAns :=
  match Tab.find nsid s.zn.ns with
  | none => (s, .ready)
  | some n => if n.cipher = 1 then s.keyReq n.slice nsid (s.keyGen n.slice nsid) 1 else (s, .ready)

/-- Whether the journal holds an advance of a slice's keys, or of one pair's, that is not persistent yet (12 R292). -/
def State.advPend (s : State) (slice : Nat) (nsid : Option Nat) : List Nat :=
  (s.ftl.jtail ++ s.ftl.jpages.flatMap (fun p => p.ents)).filterMap (fun (e : JEnt) => match e.act with
    | .keyGen a b g => if a = slice && (nsid.isNone || nsid = some b) then some g else none
    | _ => none)

/-- The generation that an advance of a pair leads to, those that wait for the journal counted (12 R289, R292). -/
def State.nextKey (s : State) (slice nsid : Nat) : Nat := ((s.advPend slice (some nsid)).foldl max (s.keyGen slice nsid)) + 1

/-- Whether the next advance of a pair would pass the last generation (12 R289). -/
def State.genFull (s : State) (slice nsid : Nat) : Bool := s.nextKey slice nsid ≥ 2 ^ 32

/-- Journals an advance of a pair's key generation; it takes effect when the entry is persistent (12 R292 step 1). One past the largest retires
the pair: it is journalled as a generation no key can have (R289). -/
def State.advance (s : State) (slice nsid : Nat) : State :=
  let g := min (s.nextKey slice nsid) (2 ^ 32)
  s.jn 0x20 [slice, nsid, g] (.keyGen slice nsid g)

/-- The key that enciphers a namespace's logical blocks (12 R283, R288). -/
def State.xtsKey (s : State) (n : Ns) (nsid : Nat) : List Nat := keyOf n.slice nsid (s.keyGen n.slice nsid) 1

/-- A logical block as it is stored: under XTS in a namespace with setting 1, else in clear (12 R282, R283). -/
def State.seal (s : State) (nsid lba v : Nat) : Nat :=
  match Tab.find nsid s.zn.ns with
  | none => v
  | some n => if n.cipher = 1 then xtsBlock aesEnc (s.xtsKey n nsid) lba v else v

/-- A logical block from what is stored of it (12 R283). -/
def State.unseal (s : State) (nsid lba v : Nat) : Nat :=
  match Tab.find nsid s.zn.ns with
  | none => v
  | some n => if n.cipher = 1 then xtsBlock aesDec (s.xtsKey n nsid) lba v else v

/-- Blocks of a command from an LBA on, as they are stored. -/
def State.sealAll (s : State) (nsid lba : Nat) (vs : List Nat) : List Nat := vs.mapIdx (fun i v => s.seal nsid (lba + i) v)

/-- Revokes the slots of a pair with an older generation: the key is erased at once, and a slot still deriving is revoked
when its derivation ends (12 R292 step 2, R293). Those that nothing holds are freed. -/
def State.revoke (s : State) (slice nsid gen : Nat) : State :=
  { s with cip := { s.cip with slots := s.cip.slots.map (fun (e : Nat × KeySlot) =>
      if e.2.slice = slice && e.2.nsid = nsid && e.2.gen < gen then
        (e.1, if e.2.st = 1 then { e.2 with dying := true } else { e.2 with st := 3 })
      else e) } }.sweepSlots

end Sys2Proof.Machine
end

