-- ==== Sys2Proof/Machine/CapBase.lean ====
section
/-! DEFINITION. Streams as other parts see them: their record, their states and events, fencing (05 R113, R141). -/

namespace Sys2Proof.Machine

/-- The record of a stream that is not FREE. -/
def State.stream (s : State) (n : Nat) : Option Stream := Tab.find n s.cap.streams

/-- Puts a stream's record. -/
def State.putStream (s : State) (n : Nat) (x : Stream) : State := { s with cap := { s.cap with streams := Tab.put n x s.cap.streams } }

/-- IDLE, RUNNING, STALLED and BLOCKED, as FRL_SINFO.STATE holds them. -/
def stIdle : Nat := 1
/-- RUNNING. -/
def stRun : Nat := 2
/-- STALLED. -/
def stStall : Nat := 3
/-- BLOCKED. -/
def stBlock : Nat := 4

/-- Reasons of FRL_SINFO.BLK_RSN. -/
def bkZones : Nat := 1
/-- QUOTA. -/
def bkQuota : Nat := 2
/-- INDEX. -/
def bkIndex : Nat := 3
/-- KEY. -/
def bkKey : Nat := 4
/-- FENCE. -/
def bkFence : Nat := 5

/-- Counts an event of a stream (FRL_SCNT). -/
def Stream.count (x : Stream) (i : Nat) (n : Nat := 1) : Stream :=
  { x with cnt := x.cnt.mapIdx (fun j v => if j = i then cut 32 (v + n) else v) }

/-- Moves a stream to STALLED, BLOCKED or RUNNING and raises its event (05 R113). -/
def State.setStream (s : State) (n st rsn : Nat) : State :=
  match s.stream n with
  | none => s
  | some x =>
    if x.state = st && x.blk = rsn then s
    else
      let s := s.putStream n { x with state := st, blk := rsn }
      if st = stStall then s.raise evStalled x.slice n
      else if st = stBlock then (if x.state = stBlock then s else s.raise evBlocked x.slice (n * 256 + rsn))
      else if st = stRun && x.state != stIdle then s.raise evRunning x.slice n
      else s

/-- The streams of a slice become BLOCKED when it is fenced (05 R141). -/
def State.capFence (s : State) (slice : Nat) : State :=
  (s.cap.streams.filter (fun e => e.2.slice = slice && (e.2.state = stRun || e.2.state = stStall))).foldl
    (fun s e => s.setStream e.1 stBlock bkFence) s

end Sys2Proof.Machine
end

