-- ==== Sys2Proof/Machine/SliceOps.lean ====
section
/-! DEFINITION. The translation unit, fencing, and what a DMA of a command does (02 R45, R46, R52, R59, R60). -/

namespace Sys2Proof.Machine

/-- Completes every command of a slice that has not finished with a status, the Asynchronous Event Requests of its admin queues too (02 R59,
R61); held Writes leave the hold. -/
def State.endCmds (s : State) (n : Nat) (st : Nat × Nat) : State :=
  let s := (s.zn.cmds.filter (fun c => c.slice = n)).foldl (fun s c => if c.st = .held then s.failHeld c st else s.fin c st) s
  let mine := s.ras.aers.filter (fun e => ((s.admQ e.2.1).map (fun x => decide (x.2.slice = n))).getD false)
  mine.foldl (fun s e => { s with ras := { s.ras with aers := s.ras.aers.filter (fun x => x != e) } }.adm e.2.1 e.2.2 st) s

/-- Fences a slice for a reason (02 R48, R59): an ACTIVE one becomes FENCED, its unfinished commands complete with 0xC0
and SLICE_FENCED is raised on slice 0; a RESETTING one holds the first cause as pending; any other changes nothing. -/
def State.fence (s : State) (n rsn : Nat) : State :=
  let st := s.slState n
  if st = slActive then
    let s := ((s.wr F.SLI_STS_STATE slFenced n).wr F.SLI_STS_FENCE_RSN rsn n).limits n
    ((s.endCmds n stFenced).capFence n).raise evSliceFenced 0 (n * 256 + rsn)
  else if st = slResetting then
    let x := s.sx n
    if x.pendFence.isNone then s.putSx n { x with pendFence := some rsn } else s
  else s

/-- Whether a translation entry covers an access (02 R45). -/
def XltEnt.covers (e : XltEnt) (func : Nat) (pasid : Option Nat) (addr : Nat) (cxl : Bool) : Bool :=
  e.func = func && e.pasid = pasid && e.cxl = cxl && e.base ≤ addr && addr < e.base + e.size

/-- Whether it grants it. -/
def XltEnt.grants (e : XltEnt) (wr : Bool) : Bool := if wr then e.wr else e.rd

/-- Logs a translation fault in the issuing slice's registers (02 R45, R64). An access without PASID shows 0 there (log 85). -/
def State.logFlt (s : State) (n kind : Nat) (perm : Bool) (func : Nat) (pasid : Option Nat) (addr : Nat) (wr : Bool) : State :=
  let s := s.inc F.SLI_XLT_FLT_CNT_CNT n
  if s.rd F.SLI_XLT_FLT_INFO_VALID n = 1 then s
  else
    let s := s.wr F.SLI_XLT_FLT_INFO_VALID 1 n
    let s := s.wr F.SLI_XLT_FLT_INFO_KIND kind n
    let s := s.wr F.SLI_XLT_FLT_INFO_PERM (b2n perm) n
    let s := s.wr F.SLI_XLT_FLT_INFO_FUNC func n
    let s := s.wr F.SLI_XLT_FLT_INFO_PASID (pasid.getD 0) n
    let s := s.wr F.SLI_XLT_FLT_INFO_WR (b2n wr) n
    s.wr F.SLI_XLT_FLT_ADDR_PAGE (addr / 4096) n

/-- The outcome of an access at the translation unit (02 R45, R60). -/
inductive Xl
  | ok
  | miss
  | tag
deriving DecidableEq, Repr

/-- Resolves an access of slice `n` to one address (02 R45, R60). A tag mismatch is logged here, and the slice is fenced once what the access
was for has ended (`dmaEnd`). -/
def State.xlate (s : State) (n func : Nat) (pasid : Option Nat) (addr : Nat) (wr cxl : Bool) : State × Xl :=
  let m := s.sl.xlt.filter (fun e => e.covers func pasid addr cxl)
  let own := m.filter (fun e => e.slice = n)
  if s.slState n = slFenced then (s.inc F.SLI_XLT_FLT_CNT_CNT n, .miss)
  else if own.any (fun e => e.grants wr) then (s, .ok)
  else if m.isEmpty || !own.isEmpty then
    ((s.logFlt n (if cxl then 3 else 1) (!own.isEmpty) func pasid addr wr).raise evXltMiss 0
      (n * 2 ^ 32 + func * 2 ^ 20 + pasid.getD 0), .miss)
  else (s.logFlt n 2 false func pasid addr wr, .tag)

/-- What ends with a refused access ends first, by `f`; then a tag mismatch fences the issuing slice (02 R45, R59). -/
def State.dmaEnd (s : State) (n : Nat) (x : Xl) (f : State → State) : State := if x = .tag then (f s).fence n 2 else f s

/-- Resolves an access page by page; the first page that is refused ends it. -/
def State.xlatePages (s : State) (n func : Nat) (pasid : Option Nat) (wr : Bool) : List Nat → State × Xl
  | [] => (s, .ok)
  | p :: ps =>
    let a := s.xlate n func pasid (p * 4096) wr false
    if a.2 = .ok then a.1.xlatePages n func pasid wr ps else a

/-- Resolves the DMA of `len` bytes of a command of a queue; a fabric queue moves data by RDMA and needs none. PF0 without PASID has the fixed
binding, under which no Bind writes entries, and its accesses are not resolved (log 88). -/
def State.dma (s : State) (q : Queue) (addr len : Nat) (wr : Bool) : State × Xl :=
  if q.fabric || (q.func = 0 && q.pasid.isNone) then (s, .ok)
  else s.xlatePages q.slice q.func q.pasid wr ((List.range ((addr % 4096 + max len 1 + 4095) / 4096)).map (fun i => addr / 4096 + i))

end Sys2Proof.Machine
end

