-- ==== Sys2Proof/Machine/MapOps.lean ====
section
/-! DEFINITION. The fine map, the map cache and the bypass buffer (11 R253-R263). -/

namespace Sys2Proof.Machine

/-- Entries of a map page (11 R254). -/
def pageEntries : Nat := 3264

/-- The fine map's key of a namespace's LBA, or of its page in the directory. -/
def mapKey (nsid x : Nat) : Nat := nsid * 2 ^ 40 + x

/-- A map entry; unmapped where none is listed (11 R254). -/
def State.ment (s : State) (nsid lba : Nat) : MEnt := (Tab.find (mapKey nsid lba) s.ftl.fmap).getD ⟨0, 0, 0⟩

/-- Sets a map entry; an unmapped one is not listed. -/
def State.putMent (s : State) (nsid lba : Nat) (e : MEnt) : State :=
  { s with ftl := { s.ftl with fmap := if e.st = 0 then Tab.del (mapKey nsid lba) s.ftl.fmap else Tab.put (mapKey nsid lba) e s.ftl.fmap } }

/-- Sets of the map cache: its size over 256 KiB (11 R258). -/
def State.mcSets (s : State) : Nat := 2 ^ s.rd F.MCACHE_CFG_SIZE_LOG2 * 4096

/-- The set of a page (11 R258). -/
def State.mcSet (s : State) (nsid page : Nat) : Nat := Nat.land (Nat.xor page (nsid * 128)) (s.mcSets - 1)

/-- The lines of a set. -/
def State.mcLines (s : State) (set : Nat) : List MLine := s.ftl.lines.filter (fun l => l.set = set)

/-- The line that holds a page, PENDING or valid, not poisoned. -/
def State.mcFind (s : State) (nsid page : Nat) : Option MLine :=
  s.ftl.lines.find? (fun l => l.nsid = nsid && l.page = page && (l.valid || l.pending) && !l.poison)

/-- Puts a line in its way. -/
def State.putLine (s : State) (l : MLine) : State :=
  { s with ftl := { s.ftl with lines := s.ftl.lines.filter (fun m => !(m.set = l.set && m.way = l.way)) ++ [l] } }

/-- Takes a line away: its way becomes invalid. -/
def State.dropLine (s : State) (l : MLine) : State :=
  { s with ftl := { s.ftl with lines := s.ftl.lines.filter (fun m => !(m.set = l.set && m.way = l.way)) } }

/-- The tree-PLRU bits after way `w` is used: the four nodes on its path point away from it (11 R258). Node 0 is the
root, node `n`'s children are `2 n + 1` and `2 n + 2`. -/
def plruUse (b w : Nat) : Nat :=
  let n1 := 1 + w / 8
  let n2 := 3 + w / 4
  let n3 := 7 + w / 2
  let set := fun (b n v : Nat) => if v = 1 then Nat.lor b (2 ^ n) else b - (if b.testBit n then 2 ^ n else 0)
  set (set (set (set b 0 (1 - w / 8 % 2)) n1 (1 - w / 4 % 2)) n2 (1 - w / 2 % 2)) n3 (1 - w % 2)

/-- The way that the bits point to, passing by ways that may not be taken: at each node the side the bit names if it has a
way to take, else the other (11 R259). -/
def plruVictim (b : Nat) (ok : Nat → Bool) : Option Nat :=
  let has := fun (lo n : Nat) => (List.range n).any (fun i => ok (lo + i))
  let pick := fun (node lo half : Nat) =>
    let right := b.testBit node
    if right then (if has (lo + half) half then lo + half else lo) else (if has lo half then lo else lo + half)
  let a := pick 0 0 8
  let c := pick (1 + a / 8) a 4
  let d := pick (3 + c / 4) c 2
  let e := pick (7 + d / 2) d 1
  if ok e then some e else none

/-- Marks a way used. -/
def State.touch (s : State) (set way : Nat) : State :=
  let b := plruUse ((Tab.find set s.ftl.plru).getD 0) way
  { s with ftl := { s.ftl with plru := Tab.put set b s.ftl.plru } }

/-- The victim way of a set: the lowest-numbered invalid way, else the tree-PLRU victim among ways not PENDING (11 R259). -/
def State.victim (s : State) (set : Nat) : Option Nat :=
  let ls := s.mcLines set
  match (List.range 16).find? (fun w => !ls.any (fun l => l.way = w)) with
  | some w => some w
  | none => plruVictim ((Tab.find set s.ftl.plru).getD 0) (fun w => !ls.any (fun l => l.way = w && l.pending))

/-- The slice of a namespace, for charging. -/
def State.nsSlice (s : State) (nsid : Nat) : Nat := ((Tab.find nsid s.zn.ns).map (·.slice)).getD 0

/-- Takes the next free conventional row of a group for data or map pages (11 R253): the stripe set at the group's cursor
by the rule of 04 R103. -/
def State.newCRow (s : State) (dg : Nat) (map : Bool) : Option (State × Nat) :=
  let sh := s.onShadow dg
  match s.grp dg sh with
  | none => none
  | some g =>
    if s.critical g && !map then none
    else
      let cid := if sh then dg + 64 else dg
      match s.chooseSets g true 1 [] ((Tab.find cid s.zn.cursor).getD 0),
        (List.range 262144).find? (fun h => (Tab.find h s.ftl.crows).isNone) with
      | some (sets, cur), some h =>
        let a := s.newRow g sh true (sets.headD 0)
        let s := { a.1 with zn := { a.1.zn with cursor := Tab.put cid cur a.1.zn.cursor } }
        let s := { s with ftl := { s.ftl with crows := Tab.put h ⟨dg, map, a.2, 0, 0⟩ s.ftl.crows } }
        some (((s.jn 0x05 [2 ^ 20 + h, 0, sets.headD 0, 1, 0, b2n sh]).jnBlks a.2.mem).jnBlks (a.2.win.headD []), h)
      | _, _ => none

/-- A map entry as its 40 bits hold it (11 R254). -/
def MEnt.bits (e : MEnt) : Nat := if e.st = 0 then 0 else e.st + e.unit * 2 ^ 2 + e.row * 2 ^ 22

/-- The bytes of a map page (11 R255). -/
def State.mapPage (s : State) (nsid page : Nat) : List Nat :=
  let seq := (Tab.find (mapKey nsid page) s.ftl.pseq).getD 0
  let es := (List.range pageEntries).map (fun i => s.ment nsid (page * pageEntries + i))
  let hd := toLe 4 0x4D504731 ++ toLe 4 nsid ++ toLe 8 page ++ toLe 8 seq ++ toLe 4 (es.filter (fun e => e.st != 0)).length
    ++ toLe 8 0 ++ toLe 8 0 ++ toLe 8 0 ++ toLe 8 0
  let tl := es.flatMap (fun e => toLe 5 e.bits)
  hd ++ toLe 4 (crc32c (hd ++ toLe 4 0 ++ tl)) ++ tl

/-- The map row of a group that has room for a page, or a new one. -/
def State.openMapRow (s : State) (dg : Nat) : Option (State × Nat) :=
  match s.ftl.crows.find? (fun e => e.2.dg = dg && e.2.map && e.2.fill + 4 ≤ e.2.row.k * memBlocks) with
  | some e => some (s, e.1)
  | none => s.newCRow dg true

/-- A valid directory entry: bit 0, the unit of a page's first block, and its map row (11 R256). -/
def dirEntry (row unit : Nat) : Nat := 1 + unit * 2 ^ 1 + row * 2 ^ 21

/-- Starts the write-back of a page: a 16 KiB conventional-row write charged to the namespace's slice, or to reclamation where `bg`, whose
directory change is journalled (01 R35; 11 R256, R260). Its programs are charged as they are issued (03 R77). While the group has no row to
give, the page is kept as it is. -/
def State.writeBack (s : State) (nsid page : Nat) (bg : Bool := false) : State :=
  let n := if bg then 0 else s.nsSlice nsid
  match s.openMapRow (((Tab.find nsid s.zn.ns).map (·.dg)).getD 0) with
  | none => s
  | some (s, row) =>
    match Tab.find row s.ftl.crows with
    | none => s
    | some cr =>
      let u := cr.fill
      let bs := s.mapPage nsid page
      let s := { s with ftl := { s.ftl with crows := Tab.put row { cr with fill := u + 4, valid := cr.valid + 4 } s.ftl.crows } }
      let s := (List.range 4).foldl (fun (s : State) i =>
        s.stageAt ⟨⟨true, row, 0⟩, u + i, s.el, 0, s.el, s.el + 1000000, 6, if bg then bgQueue else noQueue, 0⟩ (udRow row (u + i))
          (leVal ((bs.drop (4096 * i)).take 4096))) s
      let s := s.progReady ⟨true, row, 0⟩ cr.row.k n u (u + 4) false
      s.jn 0x09 [nsid, page, dirEntry row u] (.dirPage nsid page)

/-- Whether the cache serves lookups: enabled (11 R262). -/
def State.mcOn (s : State) : Bool := s.rd F.MCACHE_STS_STATE = 1

/-- Pages the bypass buffer holds (11 R262). -/
def bypassPages : Nat := 256

/-- Looks a page up in the bypass buffer, least recently used first out (11 R262). A page not held is taken in; when the
buffer is full its oldest page leaves, written back if dirty. -/
def State.bypassUse (s : State) (nsid page : Nat) (dirty : Bool) : State :=
  let old := s.ftl.bypass.find? (fun e => e.1 = nsid && e.2.1 = page)
  let rest := s.ftl.bypass.filter (fun e => !(e.1 = nsid && e.2.1 = page))
  let d := dirty || (match old with
    | some e => e.2.2
    | none => false)
  match old, rest with
  | none, (n0, p0, d0) :: tl =>
    if rest.length ≥ bypassPages then
      let s := if d0 then s.writeBack n0 p0 else s
      { s with ftl := { s.ftl with bypass := tl ++ [(nsid, page, d)] } }
    else { s with ftl := { s.ftl with bypass := rest ++ [(nsid, page, d)] } }
  | _, _ => { s with ftl := { s.ftl with bypass := rest ++ [(nsid, page, d)] } }

/-- Whether a page was ever written to flash: its directory entry is valid (11 R256). -/
def State.dirValid (s : State) (nsid page : Nat) : Bool := (Tab.find (mapKey nsid page) s.ftl.dir).isSome

/-- Charges the fill of a page: one sense and the transfer of its four codewords (11 R259). -/
def State.chargeFill (s : State) (n : Nat) : State := s.charge n none (chgSense Desc.ref 1 + chgLink (4 * 4448))

/-- A lookup of a map page for command `(q, cid)` of slice `n`: whether the entry is at hand now (11 R259, R262). A miss
marks a way PENDING and the command waits for its fill; a page never written needs no fill. -/
def State.lookup (s : State) (nsid page n q cid : Nat) : State × Bool :=
  if s.rd F.MCACHE_STS_INV_BUSY = 1 then (s, false)
  else if !s.mcOn then (s.bypassUse nsid page false, true)
  else
    match s.mcFind nsid page with
    | some l =>
      if l.pending then (s.putLine { l with waiters := l.waiters ++ [(q, cid)] }, false)
      else ((s.inc F.MCACHE_HIT_CNT).touch l.set l.way, true)
    | none =>
      let s := s.inc F.MCACHE_MISS_CNT
      let set := s.mcSet nsid page
      match s.victim set with
      | none => (s, false)
      | some w =>
        let s := match (s.mcLines set).find? (fun l => l.way = w) with
          | some l => (if l.dirty then s.writeBack l.nsid l.page else s).dropLine l
          | none => s
        if s.dirValid nsid page then
          ((s.chargeFill n).putLine ⟨set, w, nsid, page, false, false, true, false, 0, false, [(q, cid)]⟩, false)
        else ((s.putLine ⟨set, w, nsid, page, true, false, false, false, 0, false, []⟩).touch set w, true)

/-- Applies a map change to the cached page: the line becomes DIRTY and keeps the sequence of its oldest update; a page
not cached is filled first (11 R260). -/
def State.dirtyPage (s : State) (nsid page seq : Nat) : State :=
  let s := { s with ftl := { s.ftl with pseq := Tab.put (mapKey nsid page) seq s.ftl.pseq } }
  if !s.mcOn then s.bypassUse nsid page true
  else
    match s.mcFind nsid page with
    | some l => s.putLine { l with dirty := true, seq := if l.dirty then l.seq else seq, wb := false }
    | none =>
      let set := s.mcSet nsid page
      match s.victim set with
      | none => s
      | some w =>
        let s := match (s.mcLines set).find? (fun l => l.way = w) with
          | some l => (if l.dirty then s.writeBack l.nsid l.page else s).dropLine l
          | none => s
        let s := if s.dirValid nsid page then s.chargeFill (s.nsSlice nsid) else s
        (s.putLine ⟨set, w, nsid, page, true, true, false, false, seq, false, []⟩).touch set w

/-- A unit of a conventional row no longer holds valid data (11 R253). -/
def State.invalidate (s : State) (row : Nat) : State :=
  match Tab.find row s.ftl.crows with
  | some c => { s with ftl := { s.ftl with crows := Tab.put row { c with valid := c.valid - 1 } s.ftl.crows } }
  | none => s

/-- Changes one LBA's map entry, with the valid counts, the slice's capacity use (02 R49) and the cached page (11 R260). -/
def State.mapSet (s : State) (nsid lba : Nat) (e : MEnt) (seq : Nat) : State :=
  let old := s.ment nsid lba
  let n := s.nsSlice nsid
  let s := if old.st = 1 then s.invalidate old.row else s
  let s := if e.st = 1 && old.st != 1 then s.addw F.SLI_CAP_USED_UNITS 1 n
    else if e.st != 1 && old.st = 1 then s.dec F.SLI_CAP_USED_UNITS n else s
  let s := { s with ftl := { s.ftl with undo := s.ftl.undo ++ [(seq, nsid, lba, old)] } }
  (s.putMent nsid lba e).dirtyPage nsid (lba / pageEntries) seq

/-- Invalidates a page range of a namespace by address (11 R263). A dirty line is written back, or discarded where the
controller discards the map; a PENDING line is POISONED. Lookups that waited on it are issued again when its fill
arrives. -/
def State.invRange (s : State) (nsid first count : Nat) (discard : Bool) : State :=
  (s.ftl.lines.filter (fun l => l.nsid = nsid && first ≤ l.page && l.page < first + count)).foldl (fun s l =>
    if l.pending then s.putLine { l with poison := true }
    else if l.dirty && !discard then (s.writeBack l.nsid l.page).dropLine l
    else s.dropLine l) s

/-- The conventional row of a group that is being filled, or a new one. -/
def State.openCRow (s : State) (dg : Nat) : Option (State × Nat) :=
  match s.ftl.crows.find? (fun e => e.2.dg = dg && !e.2.map && e.2.fill < e.2.row.k * memBlocks) with
  | some e => some (s, e.1)
  | none => s.newCRow dg false

end Sys2Proof.Machine
end

