-- ==== Sys2Proof/Machine/Sched.lean ====
section
/-! DEFINITION. The arbiters' key, the die scheduler's rules, predicted wait, read-around and degraded reads (03 R73, R74;
07 R173, R174; 09 R213-R218; 10 R232, R233). -/

namespace Sys2Proof.Machine

/-! ### The key of 03 R74 -/

/-- The winner among operations (03 R74); the first queued on a full tie. -/
def State.bestOp (s : State) : List DOp → Option DOp
  | [] => none
  | o :: os =>
    match s.bestOp os with
    | none => some o
    | some p => if (s.opKey p).beats (s.opKey o) then some p else some o

/-! ### The nesting-doll rule (09 R215, R216) -/

/-- Whether an operation may start on a die that is free (09 R215): an erase waits while one is suspended or a wordline is
between passes. A fine pass follows its own coarse pass, and a coarse pass waits for the fine pass of the wordline
between passes on its block (09 R209). -/
def DieSt.mayStart (x : DieSt) (o : DOp) : Bool :=
  match o.kind with
  | .erase => x.susp.isNone && x.between.isNone
  | .coarse => (match x.between with
      | some (b, _, _) => b != o.blk
      | none => true)
  | .foldC => (match x.between with
      | some (b, _, _) => b != o.blk
      | none => true)
  | .fine => (match x.between with
      | some (b, w, _) => b = o.blk && w = o.page
      | none => false)
  | .foldF => (match x.between with
      | some (b, w, _) => b = o.blk && w = o.page
      | none => false)
  | _ => true

/-! ### Where a codeword lies (10 R232, R233) -/

/-- A codeword's place in its pack unit: page, plane mask, pages it touches; of a tail codeword within its tail record, which is packed in
the same way (10 R234). -/
def cwPlace (d : Desc) (t j : Nat) : Nat × Nat × Nat :=
  let p := d.planes * d.pp
  let raw := (if j < nFit d t then j else j - nFit d t) * cwBytes t
  let page := raw / p
  let pl := raw % p / d.pp
  let last := raw % p + cwBytes t - 1
  if last ≥ p then (page, 2 ^ pl, 2)
  else (page, if last / d.pp = pl then 2 ^ pl else 2 ^ pl + 2 ^ (pl + 1), 1)

/-- Whether what ends in QLC wordline `n` of a row is read from the QLC block: the direct route, or folded with the map change persistent
(01 R14, 06 R154). -/
def SRow.inQlc (x : SRow) (direct : Bool) (n : Nat) : Bool := direct || n < x.foldDone

/-- A read of member `m`'s block `b` of a row: die and operation, for a purpose (10 R232). -/
def State.readOp (s : State) (r : RowId) (x : SRow) (direct : Bool) (m b : Nat) (purp : Purp) (c : Cmd) (cw : Nat) : Nat × DOp :=
  let q := s.memBlk r x m
  let t := (s.blkOf q).tier
  let dsc := s.descOf q.die
  let pl := cwPlace dsc t (b % winBlocks)
  let inQ := x.inQlc (direct || q != x.mem.getD m q) ((dsc.wl * (b / winBlocks) + pl.1 + pl.2.2 - 1) / 4)
  let tl := if b % winBlocks < nFit dsc t then none else s.tailOf q (b / winBlocks)
  let blk := match tl with
    | some e => e.blk
    | none => if inQ then q.blk else ((x.win.getD (b / winBlocks) []).getD m ⟨q.die, 0⟩).blk
  let page := match tl with
    | some e => e.slot * tailPages dsc t + pl.1
    | none => if inQ then dsc.wl * (b / winBlocks) + pl.1 else pl.1
  (q.die, { pageOp r m blk page c.slice c.q c.cid c.arr c.dl t c.genS c.genQ purp with
    kind := .read, planes := pl.2.1, senses := 1, pages := pl.2.2, cw := cw, mblk := b,
    bg := if c.q = noQueue then some 1 else none })

/-- Whether a row is written on the direct route. -/
def State.isDirect (s : State) (r : RowId) : Bool := ((s.srow r).map (·.direct)).getD false

/-! ### Reconstruction and read-around (07 R173, R174) -/

/-- The other members of a row that can be read. -/
def State.others (s : State) (r : RowId) (x : SRow) (m : Nat) : List Nat :=
  (List.range x.mem.length).filter (fun i => i != m && !s.memMissing r x i)

/-- Read-arounds in flight. -/
def State.raInfl (s : State) : Nat := (s.rdn.recon.filter (fun r => r.around)).length

/-- Whether read-around of a member takes place: enough other members below the threshold and a free place (07 R174). -/
def State.raOk (s : State) (r : RowId) (x : SRow) (m : Nat) (k : Key) : Bool :=
  ((s.others r x m).filter (fun i => s.predict (s.memBlk r x i).die k < s.rd F.MED_SCHED_CFG_RA_THRESH)).length ≥ x.k
    && s.raInfl < s.rd F.RDN_CFG_RA_MAXINFL

/-- Starts a reconstruction of a codeword of member `m`: reads of every other member that can be read (07 R173, R174). -/
def State.startRecon (s : State) (r : RowId) (x : SRow) (m b : Nat) (around : Bool) (c : Cmd) (cw : Nat) (jumped : Option Nat) : State :=
  let os := s.others r x m
  let dir := s.isDirect r
  let id := s.fresh
  let q := s.memBlk r x m
  let s := s.bump
  let rec0 : Recon := ⟨id, around, c.slice, c.q, c.cid, cw, r, m, [], os, x.k, q.die, q.blk, b, (s.blkOf q).tier, jumped, c.genS, c.genQ,
    c.arr, c.dl, none⟩
  let s := { s with rdn := { s.rdn with recon := s.rdn.recon ++ [rec0] } }
  os.foldl (fun s i =>
    let e := s.readOp r x dir i b .recon c id
    s.enq e.1 e.2) s

/-- The outcome of reading one block of a row for a command. -/
inductive Fetch
  | queued
  | fail (st : Nat × Nat)
  | wait
deriving DecidableEq, Repr

/-- A degraded read of a codeword (07 R173): reconstruction with at most two members missing; a lost stripe; or a wait for
an unreachable member. -/
def State.degraded (s : State) (r : RowId) (x : SRow) (m b : Nat) (c : Cmd) (cw : Nat) : State × Fetch :=
  let s := s.inc F.RDN_DEG_CNT_CNT
  let miss := s.missing r x
  if s.isLost r (stripeOf b) then (s.inc F.RCH_LADDER_CNT_CNT 7, .fail stLost)
  else if miss.length ≤ 2 then (s.startRecon r x m b false c cw none, .queued)
  else if miss.any (s.memUnreach r x) then (s, .wait)
  else ((s.inc F.RCH_LADDER_CNT_CNT 7).loseStripe r (stripeOf b), .fail stLost)

/-- Considers a read for read-around when it enters a die queue or its urgency rises (01 R32, 09 R218). The operation `o`
is queued at die `d` for member `m`'s block `b`. A read that becomes a read-around is withdrawn uncharged. -/
def State.considerRa (s : State) (d : Nat) (o : DOp) (r : RowId) (x : SRow) (m b : Nat) (c : Cmd) : State :=
  let k := s.opKey o
  if s.predict d k > s.rd F.MED_SCHED_CFG_RA_THRESH then
    if s.raOk r x m k then
      ((s.dequeue d (fun p => p.id != o.id)).startRecon r x m b true c o.cw none).inc F.RDN_RA_CNT_CNT
    else s.inc F.MED_RA_DENY_CNT
  else s

/-- Where a metadata codeword of a member's block lies: somewhere in the same block (04 R87), the spec does not say where: a free value (log
90). -/
def State.mdPlace (s : State) (o : DOp) (d : Nat) : DOp := { o with page := s.drawn 41 % max (s.descOf d).wl 1, planes := 1, pages := 1 }

/-- Issues the read of unit `u` of a row for codeword `cw` of a command. The codewords past those of its blocks hold their metadata. -/
def State.fetchUnit (s : State) (r : RowId) (u cw : Nat) (c : Cmd) : State × Fetch :=
  match s.srow r with
  | none => (s, .fail stLost)
  | some x =>
    let mb := placeIn x.k u
    if s.memMissing r x mb.1 then s.degraded r x mb.1 mb.2 c cw
    else if s.isLost r (stripeOf mb.2) then (s, .fail stLost)
    else
      let e := s.readOp r x (s.isDirect r) mb.1 mb.2 .host c cw
      let md : Bool := !c.srcs.isEmpty && c.srcs.length ≤ cw
      let e := if md then (e.1, s.mdPlace e.2 e.1) else e
      let s := if md then s.draw else s
      let id := s.fresh
      let s := s.enq e.1 e.2
      (s.considerRa e.1 { e.2 with id := id } r x mb.1 mb.2 c, .queued)

end Sys2Proof.Machine
end

