-- ==== Sys2Proof/Machine/IoOps.lean ====
section
/-! DEFINITION. What I/O commands share: their start and first tests, reads, the commit of writes (02 R49-R53, 03 R505, 04
R94-R107, R502, R504, 06 R144-R150, 07 R171). -/

namespace Sys2Proof.Machine

/-- Whether the controller is ready for I/O: in service (17 R384). -/
def State.ready (s : State) : Bool := s.rd F.IMG_STS_PHASE = 1

/-- Whether fabric service and capture run: from ready, and through a controller reset that ends in service (23 R496). -/
def State.fabricOn (s : State) : Bool := s.ready || (s.rd F.IMG_STS_PHASE = 0 && s.img.warm && s.img.target = 0)

/-- How an I/O command starts: it stopped with a state, or goes on. -/
inductive Beg
  | stop (s : State)
  | go (s : State) (c : Cmd) (q : Queue) (n : Ns)

/-- Stamps an entry of a queue that reaches the controller now (03 R67, R68): arrival, deadline, and the class and fail-fast default it keeps.
A capsule brings its identifier, whether its SGL descriptors are refused and whether it brings data. -/
def State.stamp (s : State) (q : Queue) (cid : Option Nat := none) (bad inl : Bool := false) : Arr :=
  ⟨s.el, s.el + s.target q.lc, q.lc, q.ff, cid, bad, inl⟩

/-- A command in flight for an entry of queue `i`, before its kind is known. -/
def newCmd (i cid : Nat) (q : Queue) (genS : Nat) (a : Arr) : Cmd :=
  ⟨i, cid, q.slice, genS, q.gen, a.arr, a.dl, a.ff && a.lc != 7, a.lc, .other, 0, 0, 0, 0, .fetched, 0, 0, 0, [], [], false, false, 0, [], 0, a.inl⟩

/-- Whether Limited Retry makes a command of a kind fail-fast: Read, Write, Zone Append and Frame Read only (03 R71). -/
def lrCounts (k : CmdKind) : Bool := k = .read || k = .write || k = .append || k = .frameRead

/-- Puts a fetched or received command in flight: its stamps (02 R52), its count (03 R65) and its charge (03 R76). -/
def State.takeIn (s : State) (i cid : Nat) (q : Queue) (a : Arr) : State × Cmd :=
  let c := newCmd i cid q (s.rd F.SLI_GEN_GEN q.slice) a
  let s := (s.putQ i { q with outst := q.outst + 1 }).addCmd c
  (s.charge q.slice (some i) (s.sl.cfg.getD 3 4), c)

/-- Fails a command as its execution begins; a Write to a zone that starts at its write pointer leaves a gap, whatever the reason (04 R95). -/
def State.refuse (s : State) (c : Cmd) (st : Nat × Nat) : State :=
  match Tab.find c.nsid s.zn.ns with
  | none => s.fin c st
  | some n =>
    let h := n.base + c.lba / zoneBlocks
    let at0 : Bool := n.zoned && (c.kind = .write || c.kind = .writeZeroes) && n.slice = c.slice && c.lba < n.size && c.lba % zoneBlocks = s.wp h
    let s := s.fin c st
    if at0 then s.gap h else s

/-- The entry of queue `i` that a command's row executes: the one that was fetched; a capsule that waits for its slot and gets it now; or one
that arrives and is fetched now (log 7). None is fetched of a function that may not read memory (14 R325). -/
def State.entry (s : State) (i cid : Nat) (q : Queue) : Option (State × Cmd) :=
  match s.cmdOf i cid with
  | some c => if c.st = CmdSt.fetched then some (s, c) else none
  | none =>
    match q.pend.find? (fun a => a.cid = some cid) with
    | some a => some (s.takeIn i cid { q with pend := q.pend.filter (fun b => b != a) } a)
    | none => if !q.fabric && !s.canSend q.func then none else some (s.takeIn i cid q (s.stamp q))

/-- Whether an I/O command of a kind, no write, needs a journal entry as it is executed (11 R266). -/
def needsEntry (k : CmdKind) : Bool := k = .writeZeroes || k = .dealloc || k = .zoneOpen || k = .zoneMgmt

/-- The start of an I/O command of queue `i`. A RESETTING slice's queue is not fetched from (02 R47), nor one whose reset waits (R57),
and what needs a journal entry waits while the tail is full (11 R265). Then
readiness (17 R384), the slice's state (02 R59), a deadline that passed before the fetch (03 R72), the namespace and its blocks (04 R502). -/
def State.begin (s : State) (i cid : Nat) (k : CmdKind) (nsid lba len : Nat) (lr fua : Bool) (hint : Nat) : Beg :=
  match Tab.find i s.sl.qs with
  | none => .stop s
  | some q =>
    let st := s.slState q.slice
    if st = slResetting || st = slFree || s.resetting i || (needsEntry k && s.tailFull) then .stop s
    else
      match s.entry i cid q with
      | none => .stop s
      | some (s, c0) =>
        let c := { c0 with kind := k, nsid := nsid, lba := lba, len := len, fua := fua, hint := hint, since := s.el,
                           ff := c0.lc != 7 && (lr && lrCounts k || c0.ff) }
        let s := s.putCmd c
        if !(s.ready || (((Tab.find c.q s.sl.qs).map (fun (q : Queue) => q.fabric)).getD false && s.fabricOn)) then .stop (s.refuse c stNotReady)
        else if st = slFenced || st = slDeleting then .stop (s.refuse c stFenced)
        else if c.ff && c.dl < s.el then .stop (s.refuse c stLate)
        else
          match Tab.find nsid s.zn.ns with
          | none => .stop (s.refuse c stNs)
          | some n =>
            if n.slice != q.slice then .stop (s.refuse c stNs)
            else if lba + len > n.size then .stop (s.refuse c stRange)
            else .go s c q n

/-- Whether a slice's egress bucket lets its reads contend (03 R79). -/
def State.egOpen (s : State) (n : Nat) : Bool := s.rd F.SLI_BW_EGRESS n = 0 || (s.sx n).bEg > 0

/-- With fewer than 118 decoders at work reads wait at admission (10 R241): while every one of them holds a codeword (log 97). -/
def State.decFull (s : State) : Bool :=
  let up := (List.range 128).filter s.decUp
  up.length < 118 && up.all (fun i => s.die.cws.any (fun w => w.dec = some i))

/-- Whether the slice of a queue may take a read now: while its egress bucket is empty its reads wait (03 R79), and so do reads that the decoders
cannot take (10 R241). -/
def State.egWait (s : State) (i : Nat) : Bool := s.decFull || ((Tab.find i s.sl.qs).map (fun (q : Queue) => s.slState q.slice = slActive && !s.egOpen q.slice)).getD false

/-! ### Reads (04 R97) -/

/-- Whether a unit of a row is in staging. -/
def State.staged (s : State) (r : RowId) (u : Nat) : Bool := s.stg.units.any (fun x => x.row = r && x.off = u)

/-- The zone handle of a namespace's LBA. -/
def zoneOf (n : Ns) (lba : Nat) : Nat := n.base + lba / zoneBlocks

/-- The source of a block, and its bytes as they stand (04 R97). -/
def State.srcOf (s : State) (n : Ns) (nsid lba : Nat) : Src × Nat :=
  if n.zoned then
    let h := zoneOf n lba
    let off := lba % zoneBlocks
    if off < s.cend h then
      let r := rowOf (s.rd F.ZON_ENT3_K h) off
      let rid : RowId := ⟨false, h, r.1⟩
      (if s.staged rid r.2 then .staged else .unit rid r.2, s.unseal nsid lba (s.getUd (udZone h off)))
    else (.zero, 0)
  else
    let e := s.ment nsid lba
    if e.st = 1 then
      let rid : RowId := ⟨true, e.row, 0⟩
      (if s.staged rid e.unit then .staged else .unit rid e.unit, s.unseal nsid lba (s.getUd (udRow e.row e.unit)))
    else if e.st = 2 then (.lost, 0)
    else (.zero, 0)

/-- Sends a finished read's data and completes it; the bytes count as egress (03 R79). A Frame Read ends with the status its
checks gave (05 R139), and dword 0 holds the raw length. -/
def State.finRead (s : State) (c : Cmd) : State :=
  let x := s.sx c.slice
  if c.kind = .frameRead then
    (s.putSx c.slice { x with egBytes := x.egBytes + c.data.length, bEg := x.bEg - c.data.length }).fin c (c.hint / 256, c.hint % 256) c.len c.data
  else
    (s.putSx c.slice { x with egBytes := x.egBytes + c.len * 4096, bEg := x.bEg - c.len * 4096 }).fin c stOk 0 c.data

/-- Looks up every map page a conventional read needs; whether all are at hand. -/
def State.lookups (s : State) (c : Cmd) : State × Bool :=
  ((List.range c.len).map (fun i => (c.lba + i) / pageEntries)).dedup.foldl (fun a p =>
    let b := a.1.lookup c.nsid p c.slice c.q c.cid
    (b.1, a.2 && b.2)) (s, true)

/-- Issues the reads of the blocks of a command that lie on media. -/
def State.fetchAll (s : State) (c : Cmd) : List (Nat × Src) → State × List Nat × Option (Nat × Nat) × Bool
  | [] => (s, [], none, false)
  | (i, src) :: t =>
    match src with
    | .unit r u =>
      let a := s.fetchUnit r u i c
      let b := a.1.fetchAll c t
      (match a.2 with
       | .queued => (b.1, i :: b.2.1, b.2.2.1, b.2.2.2)
       | .fail st => (b.1, b.2.1, some st, b.2.2.2)
       | .wait => (b.1, i :: b.2.1, b.2.2.1, true))
    | .lost => (s, [], some stLost, false)
    | _ => s.fetchAll c t

/-- The metadata codewords that an admitted read needs beside its blocks: a codeword holds the metadata of 4,096 bytes of it, and lies in the
member block of its blocks (04 R87). -/
def State.mdSrcs (s : State) (c : Cmd) : List (Nat × Src) :=
  let f := ((Tab.find c.nsid s.zn.ns).map (·.lbaf)).getD 0
  let per := if f = 1 then 512 else 64
  let us := if f = 0 then [] else c.srcs.filterMap (fun x => match x with
    | .unit r u => (s.srow r).map (fun y => (r, unitAt y.k (placeIn y.k u).1 ((placeIn y.k u).2 / per * per)))
    | _ => none)
  us.dedup.mapIdx (fun i e => (c.srcs.length + i, Src.unit e.1 e.2))

/-- Issues the reads of an admitted read's codewords: those it still needs, or every one. Data at hand returns at once, the rest waits for its
codewords. -/
def State.issueRead (s : State) (c : Cmd) : State :=
  let f := s.fetchAll c ((c.srcs.mapIdx (fun i x => (i, x)) ++ s.mdSrcs c).filter (fun e => c.need.isEmpty || c.need.contains e.1))
  match f.2.2.1 with
  | some st => f.1.fin c st
  | none =>
    if f.2.1.isEmpty then (f.1.putCmd c).finRead c
    else f.1.putCmd { c with need := f.2.1, st := if f.2.2.2 then .unreach else .media, since := f.1.el }

/-- Goes on with an admitted read once its key is at hand (12 R290). -/
def State.keyedRead (s : State) (c : Cmd) : State :=
  let k := if c.srcs.all (fun x => x = .zero) then (s, KeyAns.ready) else s.blockKey c.nsid
  match k.2 with
  | .no => k.1.fin c stKey
  | .wait => k.1.putCmd { c with st := .key }
  | .ready => k.1.issueRead { c with st := .media }

/-- Executes an admitted read: lookup, sources, key. Where the blocks lie and what they hold is fixed here (03 R505; 04 R97); a conventional
read's map pages may have to be filled first (11 R259). -/
def State.runRead (s : State) (c : Cmd) (n : Ns) : State :=
  if n.zoned && (List.range (c.len / zoneBlocks + 2)).any (fun i =>
      c.lba / zoneBlocks + i ≤ (c.lba + c.len - 1) / zoneBlocks && s.zst (n.base + c.lba / zoneBlocks + i) = znOff) then s.fin c stZOff
  else
    let a := if n.zoned then (s, true) else s.lookups c
    if !a.2 then a.1.putCmd { c with st := .map }
    else
      let s := a.1
      let srcs := (List.range c.len).map (fun i => s.srcOf n c.nsid (c.lba + i))
      if srcs.any (fun x => x.1 = .lost) then s.fin c stLost
      else s.keyedRead { c with data := srcs.map (·.2), srcs := srcs.map (·.1) }

/-- Runs waiting reads again: those of command `(q, cid)`. One whose sources are fixed keeps them (04 R97). -/
def State.rerun (s : State) (q cid : Nat) : State :=
  match s.cmdOf q cid with
  | some c =>
    match Tab.find c.nsid s.zn.ns with
    | some n =>
      if c.st = .unreach then s.issueRead { c with st := .media }
      else if c.kind != .read then s
      else if c.st = .map then s.runRead c n
      else if c.st = .key then s.keyedRead c
      else s
    | none => s
  | none => s

/-! ### Admission of writes (06 R144-R150, 11 R274, R275) -/

/-- Whether a unit of a direct zone lies within the wordline its reservation holds. -/
def State.inHeld (s : State) (h off : Nat) : Bool :=
  let z := s.zxOf h
  let k := s.rd F.ZON_ENT3_K h
  let r := rowOf k off
  s.rd F.ZON_ENT0_ROUTE h = 2 && r.1 = z.dirRow && r.2 / (k * wlBlocks) = z.dirWl

/-- Whether an active zone waits for a member of its rows to be rebuilt (07 R176). -/
def State.rebuilding (s : State) (h : Nat) : Bool := s.rdn.subst.any (fun e => !e.row.conv && e.row.h = h && !e.done)

/-- The die group a command's data goes to. -/
def State.dgOf (s : State) (c : Cmd) (n : Ns) : Nat :=
  if n.zoned && isActive (s.zst c.zone) then s.rd F.ZON_ENT0_DGROUP c.zone else n.dg

/-- Whether admission of `bytes` of slice `n`'s writes is open now: armed and not past a stop instant (06 R158, R159), no
device fault of the journal (20 R435), the buckets of 03 R79 and the group's throttle (11 R274) above zero. -/
def State.admitOpen (s : State) (n dg : Nat) : Bool :=
  let x := s.sx n
  s.rd F.MED_PF_STS_PHASE = 0 && s.stg.commits && s.ftl.faulted.isNone && s.sl.devBucket > 0
    && (s.rd F.SLI_BW_INGRESS n = 0 || x.bIn > 0)
    && (match Tab.find dg s.ftl.thrott with
        | some b => b > 0
        | none => true)

/-- Deducts admitted bytes from the buckets (03 R79, 11 R274). -/
def State.deduct (s : State) (n dg bytes : Nat) : State :=
  let x := s.sx n
  let s := s.putSx n { x with inBytes := x.inBytes + bytes, bIn := x.bIn - bytes, hadWork := true }
  let s := { s with sl := { s.sl with devBucket := s.sl.devBucket - bytes } }
  match Tab.find dg s.ftl.thrott with
  | some b => { s with ftl := { s.ftl with thrott := Tab.put dg (b - bytes) s.ftl.thrott } }
  | none => s

/-- Units a command would reserve: in the direct reservation and in the window pool (06 R146). -/
def State.splitRes (s : State) (c : Cmd) (n : Ns) : Nat × Nat :=
  if n.zoned then
    let off := if c.kind = .append then s.wp c.zone else c.lba % zoneBlocks
    let d := ((List.range c.len).filter (fun i => s.inHeld c.zone (off + i))).length
    (d, c.len - d)
  else (0, c.len)

/-- Whether a write to a direct zone starts beyond the wordline that is held (06 R146, R155). -/
def State.beyond (s : State) (c : Cmd) (n : Ns) : Bool :=
  n.zoned && s.rd F.ZON_ENT0_ROUTE c.zone = 2 && (s.zxOf c.zone).dirWl < wlCount
    && !s.inHeld c.zone (if c.kind = .append then s.wp c.zone else c.lba % zoneBlocks)

/-- Whether a write's zone has spilled parity and is over the limit of 06 R150 in this epoch. -/
def State.spillFull (s : State) (c : Cmd) (n : Ns) : Bool :=
  n.zoned && s.spillOver c.zone

/-- Counts an admitted write to a zone with spilled parity (06 R150). -/
def State.spillNote (s : State) (c : Cmd) (n : Ns) : State :=
  if n.zoned && s.rd F.ZON_ENT0_PSLOT c.zone = 2 then { s with stg := { s.stg with spillBytes := s.stg.spillBytes + c.len * 4096 } } else s

/-- Units that the staging overflow holds: 64 GiB (06 R147). -/
def ovfUnits : Nat := 16777216

/-- Whether the overflow is full, so that writes to incomplete page-rows wait (06 R147). -/
def State.ovfFull (s : State) : Bool := (s.stg.units.filter (fun u => u.pool = 2)).length ≥ ovfUnits

/-- Fails a write outside the hold; one that starts at the write pointer leaves a gap (04 R95). -/
def State.failWrite (s : State) (c : Cmd) (n : Ns) (st : Nat × Nat) : State :=
  let at0 := n.zoned && (c.kind = .write || c.kind = .writeZeroes) && c.lba % zoneBlocks = s.wp c.zone
  let s := s.fin c st
  if at0 then s.gap c.zone else s

/-! ### Commit (02 R53, 04 R89-R91, R504, 06 R145) -/

/-- Puts a committed block of a command into staging. -/
def State.stage (s : State) (r : RowId) (u key v pool : Nat) (c : Cmd) : State :=
  s.stageAt ⟨r, u, s.el, pool, c.arr, c.dl, c.lc, c.q, 0⟩ key v

/-- Stages the blocks of a write to a zone from `off` on. -/
def State.stageZone (s : State) (h k : Nat) (c : Cmd) : Nat → List Nat → State
  | _, [] => s
  | off, v :: vs =>
    let r := rowOf k off
    (s.stage ⟨false, h, r.1⟩ r.2 (udZone h off) v (if s.inHeld h off then 1 else 0) c).stageZone h k c (off + 1) vs

/-- Queues the programs that a committed run of a zone completes, row by row. -/
def State.progZone (s : State) (h k fr upto : Nat) : State :=
  (List.range (16 / max k 1)).foldl (fun s row =>
    let lo := row * k * memBlocks
    let a := max fr lo - lo
    let b := min upto (lo + k * memBlocks) - lo
    if fr < lo + k * memBlocks && lo < upto then
      s.progReady ⟨false, h, row⟩ k (s.zSlice h) a b (s.rd F.ZON_ENT0_ROUTE h = 2)
    else s) s

/-- The commit of a write or append to a zone that is active; its blocks are enciphered as the namespace's setting says (12 R283). -/
def State.commitZone (s : State) (c : Cmd) : State :=
  let h := c.zone
  let k := s.rd F.ZON_ENT3_K h
  let off := s.wp h
  let lba := s.rd F.ZON_ENT1_ZSLBA h + off
  let s := s.stageZone h k c off (s.sealAll c.nsid lba c.data)
  let s := s.wr F.ZON_ENT2_WP_OFF (off + c.len) h
  let s := s.putZx h { s.zxOf h with lastData := s.el }
  let s := s.progZone h k off (off + c.len)
  let s := if s.rd F.ZON_ENT0_PSLOT h = 2 && !s.midPage h then s.promote else s
  let s := if s.zst h = znExp then (s.zseq h).jnZone h else s.setZst h znImp
  let s := if off + c.len = zoneBlocks then ((s.dropCmd c.q c.cid).becomeFull h).addCmd c else s
  let s := if c.kind = .append then s.fin c stOk (cut 32 lba) [lba] else s.fin c stOk
  s.serveHold h

/-- Commits the blocks of a conventional write, row by row, each run of a row under one journal entry, of which `run` blocks are left (04 R106, 11
R253, R266); none where no row can be taken. -/
def State.commitConv (s : State) (c : Cmd) (n : Ns) (lba run seq : Nat) : List Nat → Option State
  | [] => some s
  | v :: vs =>
    match s.openCRow n.dg with
    | none => none
    | some (s, row) =>
      match Tab.find row s.ftl.crows with
      | none => none
      | some cr =>
        let u := cr.fill
        let s := { s with ftl := { s.ftl with crows := Tab.put row { cr with fill := u + 1, valid := cr.valid + 1 } s.ftl.crows } }
        let s := s.stage ⟨true, row, 0⟩ u (udRow row u) (s.seal c.nsid lba v) 0 c
        let len := if run = 0 then min 65535 (min (vs.length + 1) (cr.row.k * memBlocks - u)) else run
        let seq := if run = 0 then s.ftl.jnext else seq
        let s := if run = 0 then s.jn 0x01 [c.nsid, lba, len, row, u] else s
        let s := s.mapSet c.nsid lba ⟨1, row, u⟩ seq
        let s := s.progReady ⟨true, row, 0⟩ cr.row.k c.slice u (u + 1) false
        s.commitConv c n (lba + 1) (len - 1) seq vs

/-- Units of a namespace's conventional rows in staging. -/
def State.convStaged (s : State) (dg : Nat) : List StU :=
  s.stg.units.filter (fun u => u.row.conv && (match Tab.find u.row.h s.ftl.crows with
    | some c => c.dg = dg && !c.map
    | none => false))

/-- Entries of the partial parity log: 4 GiB of P and Q of 96 KiB each (07 R171). -/
def plogMax : Nat := 21845

/-- Units in staging on page-row `pg` of a row. -/
def State.onPageRow (s : State) (r : RowId) (k pg : Nat) : List StU :=
  s.stg.units.filter (fun u => u.row = r && (let w := winOf (placeIn k u.off).2; w.1 * winPages + w.2 = pg))

/-- P and Q of a page-row after a small write fills the members `ms`: from the logged ones, or zeros, and the old and the new data of each; what is
not on flash counts as zero in the old (07 R171 steps 1 to 3). -/
def State.smallPar (s : State) (r : RowId) (k pg : Nat) (ms : List Nat) : List (Nat × Nat) :=
  let lg := s.stg.plog.reverse.find? (fun e => e.row = r && e.page = pg)
  let sp := pageSpan (pg / winPages) (pg % winPages)
  (List.range pageBlocks).map (fun i =>
    let old := (lg.map (fun e => (e.p.getD i 0, e.q.getD i 0))).getD (0, 0)
    parUpdate old.1 old.2 (ms.map (fun m =>
      let u := unitAt k m (sp.1 + i)
      let v := s.getUd (udRow r.h u)
      (m, if s.staged r u then 0 else v, v))))

/-- The charge of a small write beside its programs (07 R172): the sense and the transfer of a page of each of two logged parities, where there are
any, and the program of the new ones as a window write. -/
def State.chgLog (s : State) (r : RowId) (pg : Nat) : Nat :=
  let y := s.descOf (sysDie pg 0)
  (if s.stg.plog.any (fun e => e.row = r && e.page = pg) then 2 * (chgSense y 1 + chgLink (pageBlocks * cwBytes 0)) else 0) + s.chgSys y (2 * pageBlocks)

/-- Forces one partial page-row to flash (07 R171): its members in staging are programmed, their P and Q go to a new entry of the log, which must have
room. One that is being forced, or whose page-row is complete, needs nothing more. -/
def State.forcePage (s : State) (n : Nat) (e : RowId × Nat × Nat) : State :=
  let r := e.1
  let k := e.2.1
  let pg := e.2.2
  if s.stg.plog.any (fun l => l.row = r && l.page = pg && !l.kept) || s.stg.plog.length ≥ plogMax || s.pageRowFull r k (pg / winPages) (pg % winPages) then s
  else
    let ms := ((s.onPageRow r k pg).map (fun u => (placeIn k u.off).1)).dedup
    let v := s.smallPar r k pg ms
    let was := ((s.stg.plog.reverse.find? (fun l => l.row = r && l.page = pg)).map (·.members)).getD []
    let s := s.charge n none (s.chgLog r pg)
    let s := ms.foldl (fun (s : State) m => s.progPage r k (pg / winPages) (pg % winPages) m n .data true) s
    { s with stg := { s.stg with plog := s.stg.plog ++ [⟨r, pg, (was ++ ms).dedup, v.map (·.1), v.map (·.2), false⟩] } }

/-- A forced flush of a group's conventional data (07 R171). -/
def State.forceFlush (s : State) (dg n : Nat) : State :=
  (((s.convStaged dg).filterMap (fun u => (Tab.find u.row.h s.ftl.crows).map (fun cr =>
    let w := winOf (placeIn cr.row.k u.off).2
    (u.row, cr.row.k, w.1 * winPages + w.2)))).dedup).foldl (fun (s : State) e => s.forcePage n e) s

/-- Log entries whose page-row has nothing left in staging are persistent; the entries that they succeed are freed then (07 R171). -/
def State.keepLog (s : State) : State :=
  let now := s.stg.plog.filter (fun e => !e.kept && ((s.srow e.row).map (fun x => (s.onPageRow e.row x.k e.page).isEmpty)).getD true)
  let l := s.stg.plog.filter (fun e => (s.srow e.row).isSome && !(e.kept && now.any (fun f => f.row = e.row && f.page = e.page)))
  { s with stg := { s.stg with plog := l.map (fun (e : PLog) => if now.contains e then { e with kept := true } else e) } }

/-- Completes the flushes and FUA writes whose data is all on flash; one that waited for the log goes on (07 R171). -/
def State.finFlush (s : State) : State :=
  (s.zn.cmds.filter (fun c => c.st = .media && (c.kind = .flush || (c.kind = .write && c.fua)))).foldl (fun s c =>
    match Tab.find c.nsid s.zn.ns with
    | some n => if (s.convStaged n.dg).isEmpty then s.fin c stOk else s.forceFlush n.dg c.slice
    | none => s.fin c stOk) s.keepLog

end Sys2Proof.Machine
end

