-- ==== Sys2Proof/Machine/CapOps.lean ====
section
/-! DEFINITION. What capture streams do: bytes and checksums, the parser, stored blocks, zone sets, frames, commits, index
blocks (05 R116-R141; 12 R284-R286). -/

namespace Sys2Proof.Machine

/-- Bytes cut into 4 KiB blocks, the last filled with zeros, as block values. -/
def toBlocks (l : List Nat) : List Nat :=
  (List.range (ceilDiv l.length 4096)).map (fun i => leVal ((l.drop (i * 4096)).take 4096))

/-! ### Lane programs (05 R131-R135) -/

/-- The operation sequence without END. -/
def seqBody (p : LaneProg) : List (Nat × Nat) := p.seq.filter (fun e => e.1 != 0xFF)

/-- Whether a list of operation codes rises strictly, so that each comes once and in order. -/
def rising : List Nat → Bool
  | [] => true
  | [_] => true
  | a :: b :: t => a < b && rising (b :: t)

/-- Whether a profile's values are within the limits of 05 R133. -/
def Prof.ok (p : Prof) : Bool :=
  8 ≤ p.depth && p.depth ≤ 16 && p.pack ≤ 1 && p.pattern ≤ 4 && p.pred ≤ 2 && 16 ≤ p.line && p.line ≤ 65536 && 4 ≤ p.win && p.win ≤ 64
    && 5000 ≤ p.thr && p.thr ≤ 10000

/-- Whether a parser entry's values are within the limits of 05 R132. -/
def PEnt.ok (p : PEnt) : Bool :=
  let field : Bool := p.op ≤ 1 || ((p.op = 2 || p.op = 4) && p.dest = 1)
  p.op ≤ 6 && (!field || [1, 2, 4, 8].contains p.width) && (p.op != 1 || p.dest ≤ 3)

/-- Whether a container is accepted (05 R130-R135). -/
def LaneProg.ok (p : LaneProg) : Bool :=
  let ops := (seqBody p).map (·.1)
  p.id ≤ 15 && 4 ≤ p.secs.length && p.secs.length ≤ 8
    && p.seq.length ≤ 8 && p.seq.getLast? = some (0xFF, 0) && (seqBody p).length + 1 = p.seq.length
    && rising ops && ops.all (fun o => 1 ≤ o && o ≤ 5) && [1, 2, 5].all (fun o => ops.contains o)
    && (seqBody p).all (fun e => if e.1 = 3 then e.2 < min p.profs.length 4 else e.2 = 0)
    && (ops.contains 4 == (p.cmode != 0)) && p.cmode ≤ 2
    && p.secs.contains 1 && p.secs.contains 2 && p.secs.contains 4 && p.secs.contains 5
    && (!ops.contains 3 || p.secs.contains 3) && (!p.secs.contains 3 || 1 ≤ p.profs.length)
    && p.parser.length ≤ 256 && p.parser.all PEnt.ok && p.profs.length ≤ 4 && p.profs.all Prof.ok
    && 1 ≤ p.idxMs && p.idxMs ≤ 100 && p.slots ≤ 4

/-- Whether a program compresses. -/
def LaneProg.compresses (p : LaneProg) : Bool := p.seq.any (fun e => e.1 = 3)

/-- The default profile of a program. -/
def LaneProg.defProf (p : LaneProg) : Nat := ((p.seq.find? (fun e => e.1 = 3)).map (·.2)).getD 0

/-- What the parser leaves: profile, header skip, fields, and whether it accepted. -/
structure Parsed where
  prof : Nat
  skip : Nat
  flds : List Nat
  ok : Bool
deriving DecidableEq, Repr

/-- The parser (05 R132): at most 1,024 steps; bytes past the frame's end read as 0 (log 31). -/
def parseRun (tab : List PEnt) (d : List Nat) : Nat → Nat → Nat → Parsed → Option Parsed
  | 0, _, _, _ => none
  | fuel + 1, st, cur, r =>
    match tab[st]? with
    | none => none
    | some e =>
      let fld := Nat.land (cut 32 (beVal (((d.drop (cur + e.off)).take e.width) ++
        List.replicate (e.width - ((d.drop (cur + e.off)).take e.width).length) 0))) e.mask
      let pick := if e.dest = 1 then fld else e.value
      match e.op with
      | 0 => parseRun tab d fuel (if fld = e.value then e.next else e.miss) cur r
      | 1 => parseRun tab d fuel e.next cur { r with flds := r.flds.set e.dest fld }
      | 2 => if cur + pick < 65536 then parseRun tab d fuel e.next (cur + pick) r else none
      | 3 => parseRun tab d fuel e.next cur { r with prof := e.value % 4 }
      | 4 => parseRun tab d fuel e.next cur { r with skip := pick }
      | 5 => some { r with ok := true }
      | _ => none

/-- The parser over the first 64 KiB of a frame; the frame's defaults where it did not accept. -/
def LaneProg.parse (p : LaneProg) (d : List Nat) : Parsed :=
  let dflt : Parsed := ⟨p.defProf, 0, [0, 0, 0, 0], false⟩
  (parseRun p.parser (d.take 65536) 1024 0 0 dflt).getD dflt

/-- The stored form of one raw block (05 R134): `skip` leading bytes are stored as they are, `cl` is the coded length. The
coder's bits are no rule of the spec: a free value (log 32). -/
def storeBlock (p : Option Prof) (raw : List Nat) (skip cl code : Nat) : List Nat :=
  let byp := [0, 0, 0, 0] ++ toLe 3 0 ++ [0] ++ toLe 3 raw.length ++ toLe 3 raw.length ++ toLe 2 0 ++ raw
  match p with
  | none => byp
  | some q =>
    if skip ≥ raw.length || cl * 10000 > q.thr * raw.length then byp
    else
      [1, q.depth, q.pattern + q.pack * 8 + q.pred * 16, q.win] ++ toLe 3 q.line ++ [0] ++ toLe 3 raw.length ++ toLe 3 cl ++ toLe 2 skip
        ++ raw.take skip ++ toLe (cl - skip) code

/-- The stored bytes of a frame's blocks from number `i` on, with the count of free values drawn. -/
def storeBlocks (p : LaneProg) (pr : Parsed) (free i : Nat) : List (List Nat) → List Nat
  | [] => []
  | raw :: t =>
    let skip := min (pr.skip - i * laneBlock) raw.length
    let cl := skip + Config.free 32 (free + 2 * i)
    storeBlock (if p.compresses then p.profs[pr.prof]? else none) raw skip cl (Config.free 33 (free + 2 * i + 1))
      ++ storeBlocks p pr free (i + 1) t

/-- A frame's bytes cut into blocks of 64 KiB. -/
def laneBlocks (raw : List Nat) : List (List Nat) :=
  (List.range (ceilDiv raw.length laneBlock)).map (fun i => (raw.drop (i * laneBlock)).take laneBlock)

/-! ### Frames in assembly -/

/-- A frame's bytes, with zeros where none was received. -/
def Frame.raw (f : Frame) : List Nat :=
  f.got.foldl (fun acc e => acc.take e.1 ++ e.2 ++ acc.drop (e.1 + e.2.length)) (List.replicate f.flen 0)

/-- Puts a piece in order of offset. -/
def Frame.add (f : Frame) (off : Nat) (d : List Nat) : Frame :=
  { f with got := f.got.filter (fun e => e.1 < off) ++ [(off, d)] ++ f.got.filter (fun e => off < e.1) }

/-- The frame of a key. -/
def Stream.frame (x : Stream) (n : Nat) : Option Frame := x.frames.find? (fun f => f.key = n)

/-- The key of a frame number now. -/
def Stream.keyOf (x : Stream) (num : Nat) : Nat := x.era * 2 ^ 64 + num

/-- Replaces a frame. -/
def Stream.putFrame (x : Stream) (f : Frame) : Stream :=
  { x with frames := x.frames.map (fun g => if g.key = f.key then f else g) }

/-- Takes a frame away. -/
def Stream.dropFrame (x : Stream) (n : Nat) : Stream := { x with frames := x.frames.filter (fun g => g.key != n) }

/-- The stall timeout, in ns. -/
def Stream.stallNs (x : Stream) : Nat := (if x.stall = 0 then 20 else x.stall) * 1000000

/-- Marks a frame closed and moves F past the closed ones; one from before a resynchronisation leaves the map as it is (05 R128). -/
def Stream.close (x : Stream) (key : Nat) : Stream :=
  let n := key % 2 ^ 64
  if key / 2 ^ 64 != x.era then { x with high := max x.high n }
  else
  let cl := n :: x.closed
  let f := (List.range 1025).foldl (fun f _ => if cl.contains f then f + 1 else f) x.f
  { x with closed := cl.filter (fun m => f ≤ m), f := f, high := max x.high n }

/-! ### Lanes -/

/-- Whether a lane is in service. -/
def State.laneUp (s : State) (l : Nat) : Bool := bit (s.rd F.FRL_LANE_AVAIL_MASK) l

/-- Blocks a lane holds. -/
def State.laneLoad (s : State) (l : Nat) : Nat := (s.laneHolds l).length

/-- Whether a working lane is among those the current power-limit step admits: the lowest-numbered ones up to the step's count
(18 R405). -/
def State.laneAdm (s : State) (l : Nat) : Bool :=
  ((List.range l).filter s.laneUp).length < s.rd F.PWR_STEP_TBL_LANES s.pwr.admStep

/-- The least-loaded working lane of a mask, else the lowest-numbered working lane outside it (05, "The frame lane
pipeline", R142), among those the power step admits. -/
def State.pickLane (s : State) (mask : Nat) : Option Nat :=
  let ls := (List.range 64).filter (fun l => bit mask l && s.laneUp l && s.laneAdm l)
  match ls.foldl (fun acc l => match acc with
    | none => some l
    | some m => if s.laneLoad l < s.laneLoad m then some l else some m) none with
  | some l => some l
  | none => (List.range 64).find? (fun l => s.laneUp l && s.laneAdm l)

/-- The handle of zone `z` of a stream's namespace. -/
def State.sZone (s : State) (x : Stream) (z : Nat) : Nat := ((Tab.find x.nsid s.zn.ns).map (·.base)).getD 0 + z

/-- The zone that a stream's log goes on in, `d` blocks of a lane past its prefix (05 R121). -/
def State.logZone (s : State) (x : Stream) (d : Nat) : Option Nat :=
  x.set.map (fun k => s.sZone x (x.dFirst + k * x.w + (x.log + d * laneBlock) / 2097152 % max x.w 1))

/-- Staging units that a block of `bytes` reserves as it passes to a lane: its bytes and its header, in whole units (06 R144; 05 R134). -/
def blkRes (bytes : Nat) : Nat := ceilDiv (bytes + 16) 4096

/-- Whether a block of a stream may pass to a lane: staging has room for it, and a zone with spilled parity is below its limit (06 R144,
R150). -/
def State.mayPass (s : State) (x : Stream) (f : Frame) (bytes : Nat) : Bool :=
  s.winFree ≥ blkRes bytes && s.foldOpen && !((s.logZone x f.disp).map s.spillOver).getD false

/-- Passes the next block of a frame to a lane: it reserves its staging, and counts as ingest of a spilled zone (06 R144, R150). -/
def State.toLane (s : State) (n : Nat) (x : Stream) (f : Frame) : State :=
  let bytes := min laneBlock (f.flen - f.disp * laneBlock)
  if !s.mayPass x f bytes then s
  else
    match s.pickLane x.mask with
    | none => s
    | some l =>
      let g := { f with disp := f.disp + 1, res := f.res + blkRes bytes, lanes := f.lanes ++ [l] }
      let s := s.putStream n (x.putFrame g)
      let s := { s with cap := { s.cap with blks := s.cap.blks.filter (fun (b : LaneBlk) => decide (s.el < b.since + 20000)) ++ [LaneBlk.mk l n f.key f.disp s.el 0] } }
      let s := match s.logZone x f.disp with
        | some h => if s.rd F.ZON_ENT0_PSLOT h = 2 then { s with stg := { s.stg with spillBytes := s.stg.spillBytes + bytes } } else s
        | none => s
      (s.foldTake bytes).addw F.FRL_LBYTES_IN_BYTES bytes l

/-- Passes blocks of the oldest frame to lanes, up to block `upto`, while they may pass. -/
def State.feedTo (s : State) (n upto : Nat) : Nat → State
  | 0 => s
  | fuel + 1 =>
    match s.stream n with
    | none => s
    | some x =>
      match x.owner with
      | none => s
      | some f => if f.disp < upto then (s.toLane n x f).feedTo n upto fuel else s

/-- Passes the whole blocks of the oldest frame that are contiguous to the lanes (05 R122), and every block left of one that has closed,
missing bytes as zeros (R125). -/
def State.feed (s : State) (n : Nat) : State :=
  match s.stream n with
  | none => s
  | some x =>
    match x.owner with
    | none => s
    | some f =>
      if !f.placed then s
      else
        let c := if f.close.isSome then f.flen else contig 0 f.got
        let upto := if c ≥ f.flen then ceilDiv f.flen laneBlock else c / laneBlock
        s.feedTo n upto (upto - f.disp)

/-! ### Zone sets -/

/-- The handles of a zone set. -/
def State.setZones (s : State) (x : Stream) (k : Nat) : List Nat :=
  (List.range x.w).map (fun i => s.sZone x (x.dFirst + k * x.w + i))

/-- Marks a zone as held by a stream, or not. -/
def State.holdBy (s : State) (h : Nat) (n : Option Nat) : State := s.putZx h { s.zxOf h with stream := n }

/-- Opens zones for a stream all at once (05 R123): BLK_RSN where they cannot be opened. -/
def State.openAll (s : State) (n : Nat) (x : Stream) (direct : Bool) (hs : List Nat) : State × Nat :=
  if s.overQ x.slice || s.rd F.SLI_AZ_COUNT_COUNT x.slice + hs.length > s.rd F.SLI_AZ_LIMIT x.slice then (s, bkQuota)
  else
    match hs.foldl (fun a h => match a with
      | none => none
      | some (s : State) => (s.activate h x.dg direct).map (fun s => (s.setZst h znImp).holdBy h (some n))) (some s) with
    | some s => (s, 0)
    | none => (s, bkZones)

/-- Whether a set can be opened: every zone Empty (05 R123). -/
def State.setEmpty (s : State) (x : Stream) (k : Nat) : Bool := (s.setZones x k).all (fun h => s.zst h = znEmpty)

/-- Finishes the zones of the current set and lets go of them (05 R123, R114). -/
def State.leaveSet (s : State) (n : Nat) (x : Stream) : State :=
  match x.set with
  | none => s
  | some k =>
    let s := (s.setZones x k).foldl (fun s h =>
      let s := if isActive (s.zst h) then s.becomeFull h else s
      s.holdBy h none) s
    s.putStream n { x with set := none, log := 0, voids := [] }

/-- Opens the next set of the range that has only Empty zones (05 R123); a GCM stream opens none whose first zone's RESETS
is at its largest (12 R286). -/
def State.openSet (s : State) (n : Nat) : State :=
  match s.stream n with
  | none => s
  | some x =>
    let m := x.dCount / max x.w 1
    match ((List.range m).map (fun i => (x.setNo + i) % max m 1)).find? (s.setEmpty x) with
    | none => s.setStream n stBlock bkZones
    | some k =>
      if x.cur.cmode = 1 && s.rd F.ZON_ENT7_RESETS ((s.setZones x k).headD 0) = 2 ^ 32 - 1 then s.setStream n stBlock bkZones
      else
        let a := s.openAll n x x.direct (s.setZones x k)
        if a.2 != 0 then s.setStream n stBlock a.2
        else a.1.putStream n { x with set := some k, setNo := (k + 1) % max m 1, log := 0, voids := [] }

/-- Opens the next Empty zone of the index range (05 R138). -/
def State.openIdx (s : State) (n : Nat) : State :=
  match s.stream n with
  | none => s
  | some x =>
    match ((List.range x.iCount).map (fun i => (x.izNo + i) % max x.iCount 1)).find?
        (fun z => s.zst (s.sZone x (x.iFirst + z)) = znEmpty) with
    | none => s.setStream n stBlock bkIndex
    | some z =>
      let a := s.openAll n x false [s.sZone x (x.iFirst + z)]
      if a.2 != 0 then s.setStream n stBlock (if a.2 = bkQuota then bkQuota else bkIndex)
      else a.1.putStream n { x with iz := some z, izNo := (z + 1) % max x.iCount 1 }

/-- The bound of a frame (05 R123). -/
def frameBound (flen : Nat) : Nat := (flen + 16 * ceilDiv flen laneBlock + 4095) / 4096 * 4096

/-- Whether the stream's set is open: held and every zone active. -/
def State.setUp (s : State) (x : Stream) : Bool :=
  match x.set with
  | none => false
  | some k => (s.setZones x k).all (fun h => isActive (s.zst h))

/-- Places the oldest frame that is not placed once nothing before it is uncommitted: finishes a set that its bound does not
fit and opens the next (05 R123); then its bytes pass to the lanes. -/
def State.place (s : State) (n : Nat) : State :=
  match s.stream n with
  | none => s
  | some x =>
    if x.state != stRun && x.state != stStall then s
    else
      match x.owner with
      | none => s
      | some f =>
        if f.placed then s.feed n
        else
          let fits := s.setUp x && x.log + frameBound f.flen ≤ x.w * 2 ^ 31
          let s := if fits then s else ((s.leaveSet n x).openSet n)
          match s.stream n with
          | some y =>
            if s.setUp y && y.state != stBlock then (s.putStream n (y.putFrame { f with placed := true })).feed n else s
          | none => s

/-! ### Commit -/

/-- The byte extent of log offset `x` (05 R121): the zone's place in the set and the byte offset there. -/
def logPlace (w x : Nat) : Nat × Nat := (x / 2097152 % max w 1, x / 2097152 / max w 1 * 2097152 + x % 2097152)

/-- The part of a log prefix that falls in slot `i` of a set, in bytes (05 R124). -/
def logIn (w p i : Nat) : Nat :=
  let c := p / 2097152
  c / max w 1 * 2097152 + (if i < c % max w 1 then 2097152 else if i = c % max w 1 then p % 2097152 else 0)

/-- What a program of capture data carries in place of a command's stamps. -/
def capCmd (slice arr dl lc : Nat) : Cmd :=
  ⟨noQueue, 0, slice, 0, 0, arr, dl, false, lc, .other, 0, 0, 0, 0, .admitted, 0, 0, 0, [], [], false, false, 0, [], 0, false⟩

/-- Stages one block of a zone that a stream holds. -/
def State.stageBlk (s : State) (h off v : Nat) (c : Cmd) : State :=
  let r := rowOf (s.rd F.ZON_ENT3_K h) off
  s.stage ⟨false, h, r.1⟩ r.2 (udZone h off) v (if s.inHeld h off then 1 else 0) c

/-- Stages blocks from log offset `x` on. -/
def State.stageLog (s : State) (hs : List Nat) (w : Nat) (c : Cmd) : Nat → List Nat → State
  | _, [] => s
  | x, v :: vs =>
    let p := logPlace w x
    (s.stageBlk (hs.getD p.1 0) (p.2 / 4096) v c).stageLog hs w c (x + 4096) vs

/-- Advances the committed prefix of a stream's log to `p`: write pointers, programs and journal (05 R124, R126). -/
def State.advanceLog (s : State) (n : Nat) (x : Stream) (p : Nat) : State :=
  match x.set with
  | none => s
  | some k =>
    let hs := s.setZones x k
    let s := s.putStream n { x with log := p }
    (hs.mapIdx (fun i h => (i, h))).foldl (fun s e =>
      let old := s.wp e.2
      let new := ceilDiv (logIn x.w p e.1) 4096
      if new ≤ old then s
      else
        let s := s.wr F.ZON_ENT2_WP_OFF new e.2
        let s := s.putZx e.2 { s.zxOf e.2 with lastData := s.el }
        ((s.progZone e.2 (s.rd F.ZON_ENT3_K e.2) old new).zseq e.2).jnZone e.2) s

/-- Sends a commit notice: a Send of 16 bytes on the stream's QP, with the frame number, the status and zeros (05 R119). -/
def State.notice (s : State) (x : Stream) (num st : Nat) : State :=
  if x.rdma && x.notices then
    match Tab.find x.qp s.net.qps with
    | some q => if q.err then s else s.sendQp x.qp (.net q.port q.sub "send" (x.qp :: (toLe 8 num ++ st :: List.replicate 7 0)))
    | none => s
  else s

/-- A frame that is dropped (05 R127): it closes, and what of it reached the lanes becomes a void extent of the log, whose
length is exact where the program stores blocks as they are and otherwise a free value up to the bound (log 32). The
256th void extent ends the set. -/
def State.dropFrame (s : State) (n key : Nat) : State :=
  match s.stream n with
  | none => s
  | some x =>
    match x.frame key with
    | none => s
    | some f =>
      let y := ((x.dropFrame key).close key).count 2
      let s := { s with cap := { s.cap with blks := s.cap.blks.filter (fun b => !(b.stream = n && b.frame = key)) } }
      let s := s.notice x f.num 0xFF
      if f.disp = 0 || !f.placed then s.putStream n y
      else
        let full := ceilDiv (min f.flen (f.disp * laneBlock) + 16 * f.disp) 4096
        let len := if f.prog.compresses then (s.drawn 34 % (full + 1)) * 4096 else full * 4096
        let s := if f.prog.compresses then s.draw else s
        if len = 0 then s.putStream n y
        else
          let z := { y with voids := y.voids ++ [(y.log, len)] }
          let s := (s.putStream n z).advanceLog n z (z.log + len)
          let s := s.jn 0x0A [z.set.getD 0, z.log, len]
          match s.stream n with
          | some v => if v.voids.length ≥ 256 then (s.leaveSet n v).openSet n else s
          | none => s

/-- Closes a frame (05 R125): one whose bytes have all come completes; another is truncated or dropped by the partial policy. -/
def State.closePart (s : State) (n key : Nat) (early : Bool) : State :=
  match s.stream n with
  | none => s
  | some x =>
    match x.frame key with
    | none => s
    | some f =>
      if f.close.isSome then s
      else if f.have ≥ f.flen then s.putStream n ((x.putFrame { f with close := some .complete }).close key)
      else
        let x := if early then x.count 11 else x
        if x.drop then (s.putStream n x).dropFrame n key
        else s.putStream n ((x.putFrame { f with close := some .truncated, early := early }).close key)

/-- A message that stops before its end never commits: it is dropped and leaves no visible byte (05 R119). -/
def State.dropMsg (s : State) (n : Nat) : State :=
  match s.stream n with
  | none => s
  | some x => if x.rxAt.isNone then s else s.putStream n ({ x with rx := [], rxAt := none }.count 2)

/-- Closes every frame in assembly under the partial policy (05 R114, R128). -/
def State.closeAll (s : State) (n : Nat) : State :=
  match s.stream n with
  | none => s
  | some x => (x.frames.filter (fun f => f.close.isNone)).foldl (fun s f => s.closePart n f.key false) s

/-- The index record of a frame, without its tag and CRC (05 R138). -/
def recHead (zslba log : Nat) (f : Frame) (slen : Nat) (pr : Parsed) : List Nat :=
  let trunc : Bool := f.close = some .truncated
  let flags := 1 + 2 * b2n f.prog.compresses + 4 * b2n (f.prog.cmode = 1) + 8 * b2n f.src.isSome + 16 * b2n f.resync + 32 * b2n f.hold
    + 64 * b2n f.early + 128 * b2n f.restart + 256 * b2n (!pr.ok)
  toLe 8 f.num ++ toLe 8 f.ns ++ toLe 2 f.frac ++ toLe 2 flags ++ [if trunc then 0xC6 else 0] ++ [f.prog.id] ++ toLe 2 f.prog.epoch
    ++ toLe 8 (f.src.getD 0) ++ toLe 8 zslba ++ toLe 8 log ++ toLe 4 slen ++ toLe 4 f.flen ++ toLe 4 (if trunc then f.flen - f.have else 0)
    ++ toLe 4 (crc32c f.raw)

/-- The whole index record of 128 bytes (05 R138). -/
def recWhole (hd tag : List Nat) (x : Stream) (n gen : Nat) (f : Frame) (pr : Parsed) : List Nat :=
  let b := hd ++ tag ++ toLe 2 f.head ++ [x.w] ++ [n] ++ toLe 4 gen
    ++ (pr.flds.mapIdx (fun i v => if i < f.prog.slots then toLe 4 v else toLe 4 0)).flatten ++ List.replicate 20 0
  b ++ toLe 4 (crc32c b)

/-- The GCM IV of a frame (12 R284), as a number of 96 bits, most significant byte first. -/
def gcmIv (resets zslba log : Nat) : Nat := resets * 2 ^ 64 + zslba / zoneBlocks * 2 ^ 32 + log / 4096

/-- Counts the bytes that a frame's blocks leave their lanes with (05 R143). -/
def State.countOut (s : State) (f : Frame) (lens : List Nat) : State :=
  (lens.mapIdx (fun i b => (f.lanes.getD i 0, b))).foldl (fun (s : State) e => s.addw F.FRL_LBYTES_OUT_BYTES e.2 e.1) s

/-- The length of each stored block of a frame. -/
def storeLens (p : LaneProg) (pr : Parsed) (free i : Nat) : List (List Nat) → List Nat
  | [] => []
  | raw :: t => (storeBlocks p pr free i [raw]).length :: storeLens p pr free (i + 1) t

/-- Whether a frame's bytes have all passed through the lanes, or it is closed and its zeros have (05 R125). -/
def Frame.through (f : Frame) : Bool := (f.close.isSome || f.have ≥ f.flen) && f.disp * laneBlock ≥ f.flen

/-- Commits the oldest frame of a stream once it is through the lanes and its key is at hand (05 R125, R126, R136): it closes, its blocks are in
staging, its record joins the index block, the committed prefix advances. -/
def State.commitFrame (s : State) (n : Nat) : State :=
  match s.stream n with
  | none => s
  | some x =>
    match x.owner with
    | none => s
    | some f =>
      match x.set with
      | some k =>
        let cl := f.close.getD FClose.complete
        if !f.through || !f.placed || !s.stg.commits || s.rd F.MED_PF_STS_PHASE != 0 then s
        else
          let gcm : Bool := f.prog.cmode = 1
          let gen := s.keyGen x.slice x.nsid
          let a := if gcm then s.keyReq x.slice x.nsid gen 2 else (s, KeyAns.ready)
          match a.2 with
          | .wait => a.1
          | .no => (a.1.dropFrame n f.key).setStream n stBlock bkKey
          | .ready =>
            let s := a.1
            let hs := s.setZones x k
            let h0 := hs.headD 0
            let zslba := s.rd F.ZON_ENT1_ZSLBA h0
            let raw := f.raw
            let pr := f.prog.parse raw
            let blks := laneBlocks raw
            let plain := storeBlocks f.prog pr s.free 0 blks
            let lens := storeLens f.prog pr s.free 0 blks
            let s := { s with free := s.free + 2 * blks.length }
            let hd := recHead zslba x.log f plain.length pr
            let iv := gcmIv (s.rd F.ZON_ENT7_RESETS h0) zslba x.log
            let key := keyOf x.slice x.nsid gen 2
            let stored := if gcm then gcmCtr key iv plain else plain
            let tag := if gcm then gcmTag key iv hd stored else List.replicate 16 0
            let rec0 := recWhole hd tag x n (if gcm then gen else 0) f pr
            let c := capCmd x.slice f.arr (f.arr + s.target x.lc) x.lc
            let bs := toBlocks stored
            let s := { s with cap := { s.cap with
              blks := s.cap.blks.filter (fun b => !(b.stream = n && b.frame = f.key))
              store := (FrameRec.mk x.nsid zslba (s.rd F.ZON_ENT7_RESETS h0) x.log stored raw) ::
                s.cap.store.filter (fun r => !(r.nsid = x.nsid && r.zslba = zslba && r.log = x.log)) } }
            let s := (s.countOut f lens).stageLog hs x.w c x.log bs
            let y := ((if f.close.isSome then x else x.close f.key).dropFrame f.key).count (if cl = FClose.complete then 0 else 1)
            let y := { y with recs := y.recs ++ [(s.el, rec0)] }
            let s := (s.putStream n y).advanceLog n y (x.log + bs.length * 4096)
            (s.notice x f.num (if cl = FClose.complete then 0 else 0xC6)).place n
      | none => s

/-- Commits frames of a stream while its oldest one can commit. -/
def State.commitAll (s : State) (n : Nat) : Nat → State
  | 0 => s
  | fuel + 1 => (s.commitFrame n).commitAll n fuel

/-- Writes the index records gathered into one block of the index zone (05 R138); a full zone makes way for the next Empty
one of the range. -/
def State.writeIdx (s : State) (n : Nat) : State :=
  match s.stream n with
  | none => s
  | some x =>
    match x.iz with
    | none => s
    | some z =>
      if x.recs.isEmpty then s
      else
        let h := s.sZone x (x.iFirst + z)
        let off := s.wp h
        let bytes := ((x.recs.take 32).map (·.2)).flatten
        let at0 := ((x.recs.head?).map (·.1)).getD s.el
        let c := capCmd x.slice at0 (at0 + s.target x.lc) x.lc
        let s := s.stageBlk h off (leVal bytes) c
        let s := s.wr F.ZON_ENT2_WP_OFF (off + 1) h
        let s := ((s.progZone h (s.rd F.ZON_ENT3_K h) off (off + 1)).zseq h).jnZone h
        let y := { x with recs := x.recs.drop 32 }
        let s := s.putStream n y
        if off + 1 = zoneBlocks then
          ((s.becomeFull h).holdBy h none).putStream n { y with iz := none } |>.openIdx n
        else s

/-- Writes every index record that is gathered (05 R114, R126, R138). -/
def State.writeAllIdx (s : State) (n : Nat) : State :=
  (List.range ((((s.stream n).map (fun x => x.recs.length)).getD 0 + 31) / 32)).foldl (fun (s : State) _ => s.writeIdx n) s

/-! ### Stop (05 R114) -/

/-- Ends a Stop whose frames have committed or been dropped: the held zones become Closed, the stream IDLE, the command completes. -/
def State.stopEnd (s : State) (k : Nat) : State :=
  match s.stream k with
  | none => s
  | some x =>
    match x.stop with
    | none => s
    | some (o, cid) =>
      if !x.frames.isEmpty then s
      else
        let hs := ((x.set.map (s.setZones x)).getD []) ++ ((x.iz.map (fun z => [s.sZone x (x.iFirst + z)])).getD [])
        let s := hs.foldl (fun (s : State) h => if isActive (s.zst h) then s.setZst h znClosed else s) s
        (s.putStream k { x with state := stIdle, blk := 0, stop := none }).adm o cid stOk

/-- Goes on with a stream: commits what can commit, passes what can pass; the frames of a BLOCKED stream that stops, which no event commits, are
dropped (R127). -/
def State.goOn (s : State) (k : Nat) : State :=
  let s := (s.place k).commitAll k (((s.stream k).map (fun x => x.frames.length)).getD 0)
  let s := match s.stream k with
    | some x => if x.stop.isSome && x.state = stBlock then x.frames.foldl (fun (s : State) (f : Frame) => s.dropFrame k f.key) s else s
    | none => s
  s.stopEnd k

/-! ### What other events do to streams -/

/-- A slice reset or a power failure drops a slice's frames that have not committed (05 R141). -/
def State.capDrop (s : State) (ok : Stream → Bool) : State :=
  (s.cap.streams.filter (fun e => ok e.2)).foldl (fun s e =>
    e.2.frames.foldl (fun s f => s.dropFrame e.1 f.key) (s.dropMsg e.1)) s

/-- Forgets the Stops that wait, with nobody left to answer: after a power failure or a reset of the controller. -/
def State.stopsGone (s : State) : State :=
  { s with cap := { s.cap with rx := [], streams := s.cap.streams.map (fun (e : Nat × Stream) => (e.1, { e.2 with stop := none })) } }

/-- Puts the index records of every stream into staging, where they are power-safe (05 R126, R138; log 92). -/
def State.keepRecs (s : State) : State := (s.cap.streams.map (·.1)).foldl (fun (s : State) k => s.writeAllIdx k) s

/-- Checks a BLOCKED stream's cause (05 R113): it returns to RUNNING when it has cleared. -/
def State.unblock (s : State) (n : Nat) : State :=
  match s.stream n with
  | none => s
  | some x =>
    if x.state != stBlock then s
    else
      let back := fun (s : State) =>
        match s.stream n with
        | some y => if y.state = stBlock && y.blk = x.blk then s.setStream n stRun 0 else s
        | none => s
      let ready : Bool :=
        if x.blk = bkFence then s.slState x.slice = slActive
        else if x.blk = bkKey then
          s.rd F.CIP_STS_ROOT_OK = 1 && !(s.rd F.CIP_STS_RNG_FAIL = 1 && s.rd F.CIP_CFG_RNG_STRICT = 1)
            && !s.cip.retired.contains (x.slice, x.nsid)
        else true
      if !ready then s
      else
        let s1 := if s.setUp x then s else s.openSet n
        match s1.stream n with
        | none => s
        | some y =>
          let s2 := if y.iz.isNone then s1.openIdx n else s1
          match s2.stream n with
          | none => s
          | some z => if s2.setUp z && z.iz.isSome then (back (s2.putStream n { z with state := stBlock, blk := x.blk })).place n else s

end Sys2Proof.Machine
end

