-- ==== Sys2Proof/Machine/QueueOps.lean ====
section
/-! DEFINITION. Queue resets and slice resets, generations, and what they drop (02 R52-R57, R61; 03 R65). -/

namespace Sys2Proof.Machine

/-- Device queue indices (03 R65). -/
def queueMax : Nat := 32768

/-- The lowest free device queue index (03 R65). -/
def State.freeIdx (s : State) : Option Nat := (List.range queueMax).find? (fun i => (Tab.find i s.sl.qs).isNone)

/-- Counts a queue pair of a slice. -/
def State.useQp (s : State) (n : Nat) : State := s.addw F.SLI_RES_USE_QP 1 n

/-- Whether a slice has a queue pair left (02 R50). -/
def State.qpFree (s : State) (n : Nat) : Bool := s.rd F.SLI_RES_USE_QP n < s.rd F.SLI_RES_QP n

/-- Removes a queue: its context, its commands and its place in the slice's use. -/
def State.removeQueue (s : State) (i : Nat) : State :=
  match Tab.find i s.sl.qs with
  | none => s
  | some q =>
    let s := (s.zn.cmds.filter (fun c => c.q = i && c.st = .held)).foldl (fun s c => (s.dec F.ZON_ENT2_HOLD c.zone).zseq c.zone) s
    let s := { s with zn := { s.zn with cmds := s.zn.cmds.filter (fun c => c.q != i) } }
    let s := s.filterOps (fun o => !(o.q = i && o.cid != 0 && o.purp = .host))
    let s := { s with sl := { s.sl with qs := Tab.del i s.sl.qs, qgen := Tab.put i q.gen s.sl.qgen } }
    s.dec F.SLI_RES_USE_QP q.slice

/-- Takes away the completion queues of removed submission queues that serve no other: a queue pair is both (03 R65; 02 R61). -/
def State.dropCqs (s : State) (qs : List Queue) : State :=
  let of := fun (c : CQ) (q : Queue) => !q.fabric && q.func = c.func && q.cqid = c.cqid
  { s with sl := { s.sl with cqs := s.sl.cqs.filter (fun c => !(qs.any (of c)) || s.sl.qs.any (fun e => of c e.2)) } }

/-- Whether an operation in flight carries a slice's, or a queue's, generation `g` (02 R57). -/
def State.stamped (s : State) (slice : Bool) (n g : Nat) : Bool :=
  let op := fun (o : DOp) => if slice then o.slice = n && o.genS = g else o.q = n && o.genQ = g && (o.purp = .host || o.purp = .recon)
  s.die.dies.any (fun e => (e.2.cur.map op).getD false || e.2.merged.any op || (e.2.susp.map op).getD false)
    || s.die.cws.any (fun w => op w.op)

/-- The first generation of a new queue: past the last its index had and past any stamp in flight, so that no older result
matches (log 22). -/
def State.nextGen (s : State) (i : Nat) : Nat :=
  match Tab.find i s.sl.qgen with
  | some g => if s.stamped false i (cut 16 (g + 1)) then cut 16 (g + 2) else cut 16 (g + 1)
  | none => 0

/-- Drops the commands of queues that pass a test, the operations queued for them, their reservations, and the Asynchronous Event Requests of
those that are admin queues (02 R53, R55 steps 3 and 4). A held Write leaves the hold without failing (04 R98). Of a write whose data is on its
way, what comes back later is stale (02 R52). -/
def State.dropCmds (s : State) (ok : Nat → Bool) : State :=
  let s := (s.zn.cmds.filter (fun c => ok c.q && c.st = .held)).foldl (fun s c => (s.dec F.ZON_ENT2_HOLD c.zone).zseq c.zone) s
  let s := s.filterOps (fun o => !(ok o.q && (o.purp = .host || o.purp = .recon) && s.zn.cmds.any (fun c => c.q = o.q && c.cid = o.cid)))
  let s := { s with rdn := { s.rdn with recon := s.rdn.recon.filter (fun r => !(ok r.q && s.zn.cmds.any (fun c => c.q = r.q && c.cid = r.cid))) } }
  let gone := (s.zn.cmds.filter (fun c => ok c.q && c.st = .admitted)).map (fun c => (c.q, c.cid, c.slice))
  { s with
    zn := { s.zn with cmds := s.zn.cmds.filter (fun c => !ok c.q), ghosts := s.zn.ghosts ++ gone }
    ras := { s.ras with aers := s.ras.aers.filter (fun e => !((s.admQ e.2.1).map (fun x => ok x.1)).getD false) } }

/-- Returns a queue to the empty state with its next generation (02 R55 steps 2 and 5), its completion queue too. -/
def State.emptyQueue (s : State) (i : Nat) : State :=
  match Tab.find i s.sl.qs with
  | none => s
  | some q =>
    let s := s.putQ i { q with gen := cut 16 (q.gen + 1), head := 0, tail := 0, outst := 0, pend := [], adm := [] }
    { s with sl := { s.sl with cqs := s.sl.cqs.map (fun (c : CQ) =>
        if !q.fabric && c.func = q.func && c.cqid = q.cqid then { c with head := 0, tail := 0 } else c) } }

/-- A queue reset (02 R56, R57): false where it has to wait. -/
def State.queueReset (s : State) (i : Nat) : State × Bool :=
  match Tab.find i s.sl.qs with
  | none => (s, true)
  | some q =>
    let s := s.dropCmds (fun j => j = i)
    if s.resetting i then (s, false)
    else if s.stamped false i (cut 16 (q.gen + 1)) then
      ({ s with sl := { s.sl with waits := s.sl.waits ++ [(false, i, none)] } }, false)
    else (s.emptyQueue i, true)

/-- Resets queues one by one. -/
def State.queueResets (s : State) (is : List Nat) : State := is.foldl (fun s i => (s.queueReset i).1) s

/-- The queues of a slice. -/
def State.queuesOf (s : State) (n : Nat) : List Nat := (s.sl.qs.filter (fun e => e.2.slice = n)).map (·.1)

/-- Whether a slice reset has to wait (02 R57). -/
def State.resetWaits (s : State) (n : Nat) : Bool :=
  s.stamped true n (cut 16 (s.rd F.SLI_GEN_GEN n + 1))
    || (s.queuesOf n).any (fun i => match Tab.find i s.sl.qs with
        | some q => s.stamped false i (cut 16 (q.gen + 1))
        | none => false)

/-- A function's record, where it is present. -/
def State.fn (s : State) (n : Nat) : Option FnSt := (Tab.find n s.fns).filter (·.present)

/-- Puts a function's record. -/
def State.putFn (s : State) (n : Nat) (f : FnSt) : State := { s with fns := Tab.put n f s.fns }

/-- An admin queue of a function: identifier 0, at most 4,096 entries, urgent class LC 2 by default (log 34). -/
def State.adminQueue (s : State) (n i : Nat) (b : FBind) : State :=
  let s := { s with sl := { s.sl with cqs := s.sl.cqs ++ [CQ.mk n 0 0 4096 0 0] } }
  (s.putQ i ⟨b.slice, b.idx, n, b.pasid, false, 0, 0, 0, 2, false, s.nextGen i, 0, 4096, 0, 0, 0, 0, 0, false, [], 0, []⟩).useQp b.slice

/-- CSTS.RDY becomes 1 (14 R314; 17 R384): of PF0 from admin-ready, of another function from ready and with a binding; its admin queue
is made where it has none. -/
def State.tryReady (s : State) (n : Nat) : State :=
  match s.fn n with
  | none => s
  | some f =>
    if !f.ccEn || f.rdy || !(if n = 0 then s.img.admReady else s.ready) then s
    else
      match s.lowBind n with
      | none => s
      | some b =>
        let s := s.putFn n { f with rdy := true }
        if s.sl.qs.any (fun e => !e.2.fabric && e.2.func = n && e.2.qid = 0) then s
        else
          match s.freeIdx with
          | some i => s.adminQueue n i b
          | none => s

end Sys2Proof.Machine
end

