-- ==== Sys2Proof/Machine/NetOps.lean ====
section
/-! DEFINITION. RC QPs, associations, sub-ports and frames for the controller (13 R295-R306). -/

namespace Sys2Proof.Machine

/-! ### Queue pairs and associations -/

/-- A QP's record. -/
def State.qp (s : State) (n : Nat) : Option Qp := Tab.find n s.net.qps

/-- Puts a QP's record. -/
def State.putQp (s : State) (n : Nat) (x : Qp) : State := { s with net := { s.net with qps := Tab.put n x s.net.qps } }

/-- A QP enters Error (13 R303): what it had to send is dropped, its NVMe queue is reset, and a message of its capture stream that stopped is dropped (05
R119). -/
def State.qpError (s : State) (n : Nat) : State :=
  match s.qp n with
  | none => s
  | some x =>
    if x.err then s
    else
      let s := s.putQp n { x with err := true }
      let s := { s with net := { s.net with txq := s.net.txq.filter (fun e => e.2.2.2.1 != some n), asks := s.net.asks.filter (fun e => e.2.2.1 != n) } }
      let s := match x.queue with
        | some i => (s.queueReset i).1
        | none => s
      match x.stream with
      | some k => s.dropMsg k
      | none => s

/-- The QPs of a slice. -/
def State.qpsOf (s : State) (n : Nat) : List Nat := (s.net.qps.filter (fun e => e.2.slice = some n)).map (·.1)

/-- Takes a QP away and returns it to its slice. -/
def State.dropQp (s : State) (n : Nat) : State :=
  match s.qp n with
  | none => s
  | some x =>
    let s := { s with net := { s.net with qps := Tab.del n s.net.qps } }
    match x.slice with
    | some k => s.dec F.SLI_RES_USE_RCQP k
    | none => s

/-- Ends an association (13 R304): its QPs enter Error, its queues are reset and removed, what is kept for its controller is
forgotten. -/
def State.endAssoc (s : State) (a : Nat) : State :=
  let ns := (s.net.qps.filter (fun e => e.2.assoc = some a)).map (·.1)
  let qs := (s.sl.qs.filter (fun e => e.2.fabric && e.2.assoc = a)).map (·.1)
  let s := ns.foldl State.qpError s
  let s := qs.foldl (fun s i => ((s.queueReset i).1).removeQueue i) s
  let s := s.dropCtl (.fab a)
  { s with assocs := Tab.del a s.assocs }

/-- Moves a slice's QPs to Error (02 R55 step 1). -/
def State.qpErrSlice (s : State) (n : Nat) : State := (s.qpsOf n).foldl State.qpError s

/-- Counts a transport timeout or a retry on a QP; past its retries it enters Error (13 R302). -/
def State.qpTimeout (s : State) (n : Nat) : State :=
  match s.qp n with
  | none => s
  | some x =>
    if x.err then s
    else if x.tries ≥ x.retry then s.qpError n
    else (s.putQp n { x with tries := x.tries + 1 }).sendQp n (.net x.port x.sub "retry" [n, x.tries + 1])

/-! ### Sub-ports -/

/-- DOWN to WAKE, as ETH_SUB_STS.LINK holds them (13 R306, R310). -/
def lkDown : Nat := 0
/-- TRAINING. -/
def lkTrain : Nat := 1
/-- UP_WAIT. -/
def lkWait : Nat := 2
/-- UP. -/
def lkUp : Nat := 3
/-- HELD. -/
def lkHeld : Nat := 4
/-- WAKE. -/
def lkWake : Nat := 5

/-- The record of a sub-port. -/
def State.sub (s : State) (p u : Nat) : SubX := (Tab.find (p * 8 + u) s.net.subs).getD ⟨0, 0, [], [], 0, 0, 0⟩

/-- Puts a sub-port's record. -/
def State.putSub (s : State) (p u : Nat) (x : SubX) : State := { s with net := { s.net with subs := Tab.put (p * 8 + u) x s.net.subs } }

/-- A sub-port's link state. -/
def State.link (s : State) (p u : Nat) : Nat := s.rd F.ETH_SUB_STS_LINK p u

/-- Sub-ports of a port's mode (13 R295). -/
def State.subCount (s : State) (p : Nat) : Nat := 2 ^ s.rd F.ETH_PORT_CFG_MODE p

/-- A sub-port's rate in Gb/s (13 R295). -/
def State.lineRate (s : State) (p : Nat) : Nat := 1600 / s.subCount p

/-- The mask of a port's sub-ports that are UP. -/
def State.upMask (s : State) (p : Nat) : Nat := ((List.range 8).map (fun u => if s.link p u = lkUp then 2 ^ u else 0)).sum

/-- Sets a sub-port's link state; a change to or from UP raises ETH_LINK and is an edge of the mailbox (13 R306; 16 R356). -/
def State.setLink (s : State) (p u v : Nat) : State :=
  let old := s.link p u
  let s := s.wr F.ETH_SUB_STS_LINK v p u
  let s := if v = lkUp || v = lkWait || v = lkWake then s.wr F.ETH_SUB_STS_FEC_LOCK 1 p u else s.wr F.ETH_SUB_STS_FEC_LOCK 0 p u
  if (old = lkUp) != (v = lkUp) then (s.raise evEthLink 0xFFFF (p * 256 + s.upMask p)).edge (96 + p) (s.upMask p) else s

/-- XOFF and XON points of a sub-port's buffer, and its share, in bytes (13 R295). -/
def State.xoffAt (s : State) (p : Nat) : Nat := 262144 / s.subCount p

/-- Whether a stream's frames come through a port: an IFT stream's by its port mask, an RDMA stream's by its QP (05 R111; 13 R303). -/
def State.streamOn (s : State) (x : Stream) (p : Nat) : Bool :=
  if x.rdma then ((s.qp x.qp).map (fun (q : Qp) => decide (q.port = p))).getD false else bit x.ports p

/-- Whether a sub-port has to pause its peers whatever its buffer holds: a stream bound to the port has used its ingest budget,
or the device its own (03 R79, 01 R30), or the power fails (13 R298). -/
def State.mustPause (s : State) (p : Nat) : Bool :=
  s.rd F.MED_PF_STS_PHASE != 0
    || s.cap.streams.any (fun e => e.2.state != stBlock && s.streamOn e.2 p &&
        (s.sl.devBucket ≤ 0 || (s.rd F.SLI_BW_INGRESS e.2.slice != 0 && (s.sx e.2.slice).bIn ≤ 0)))

/-- The priorities XOFF goes to: every enabled one, and every one at power failure (13 R297, R298). -/
def State.xoffMask (s : State) (p : Nat) : Nat := if s.rd F.MED_PF_STS_PHASE != 0 then 0xFF else s.rd F.ETH_PFC_CFG_EN p

/-- Sends XOFF, with quanta 0xFFFF, or XON, with quanta 0 (13 R297): an 802.3x pause where no priority is enabled for PFC (13 R296). -/
def State.sendPfc (s : State) (p u quanta : Nat) : State :=
  let m := s.xoffMask p
  (s.wr F.ETH_SUB_STS_XOFF (b2n (quanta != 0)) p u).send (if m = 0 then .net p u "pause" [quanta] else .net p u "pfc" [m, quanta])

/-! ### Frames for the controller -/

/-- Sends what waited on a sub-port and waits no more, in order (13 R297, R301). -/
def State.flushTx (s : State) (p u : Nat) : State :=
  let l := s.net.txq.filter (fun e => e.1 = p && e.2.1 = u)
  l.foldl (fun (s : State) e => s.sendOn p u e.2.2.1 e.2.2.2.1 e.2.2.2.2)
    { s with net := { s.net with txq := s.net.txq.filter (fun e => !(e.1 = p && e.2.1 = u)) } }

/-- The broadcast address. -/
def macAll : Nat := 2 ^ 48 - 1

/-- Whether a frame's destination MAC is the controller's on a sub-port: the sub-port's address, for ARP the broadcast address, and for Neighbor
Discovery the solicited-node group of the IPv6 address (13 R301). Addresses below 2³² are IPv4. -/
def State.macOk (s : State) (p u dst ip : Nat) (arp : Bool) : Bool :=
  dst = s.rd F.ETH_MAC_ADDR p u || (arp && (if ip < 2 ^ 32 then dst = macAll else dst = 0x3333FF000000 + ip % 2 ^ 24))

/-- Whether an address entry of a port matches a frame's IP address and VLAN on a sub-port (13 R301). -/
def State.addrOk (s : State) (p u ip vlan : Nat) : Bool :=
  (List.range 32).any (fun i =>
    s.rd F.ETH_IP_CTL_VALID p i = 1 && s.rd F.ETH_IP_CTL_SUB p i = u && s.rd F.ETH_IP_CTL_VLAN p i = vlan &&
      (if s.rd F.ETH_IP_CTL_V6 p i = 1 then s.rd F.ETH_IP_ADDR_LO_ADDR p i + s.rd F.ETH_IP_ADDR_HI_ADDR p i * 2 ^ 64 = ip
       else cut 32 (s.rd F.ETH_IP_ADDR_LO_ADDR p i) = ip))

/-- Causes of ETH_RX_DROP. -/
def drRate : Nat := 0
/-- FRAG. -/
def drFrag : Nat := 1
/-- CSUM. -/
def drCsum : Nat := 2
/-- OTHER. -/
def drOther : Nat := 3
/-- ADDR. -/
def drAddr : Nat := 4
/-- HELD. -/
def drHeld : Nat := 5

/-- Counts a dropped frame. ETH_RX_DROP has an instance for each sub-port and cause (13 R310). -/
def State.dropRx (s : State) (p u cause : Nat) : State :=
  match cause with
  | 0 => s.inc F.ETH_RX_DROP_RATE_CNT p u
  | 1 => s.inc F.ETH_RX_DROP_FRAG_CNT p u
  | 2 => s.inc F.ETH_RX_DROP_CSUM_CNT p u
  | 3 => s.inc F.ETH_RX_DROP_OTHER_CNT p u
  | 4 => s.inc F.ETH_RX_DROP_ADDR_CNT p u
  | _ => s.inc F.ETH_RX_DROP_HELD_CNT p u

/-- Bytes of what a receive buffer keeps. -/
def RxItem.bytes : RxItem → Nat
  | .dgram _ _ _ _ _ _ ulen _ _ => ulen
  | .msg _ _ _ _ d _ => d.length

/-- Whether a receive buffer keeps an item for a sub-port. -/
def State.rxOn (s : State) (p u : Nat) : RxItem → Bool
  | .dgram a b _ _ _ _ _ _ _ => a = p && b = u
  | .msg q _ _ _ _ _ => ((s.qp q).map (fun (x : Qp) => decide (x.port = p ∧ x.sub = u))).getD false

/-- Bytes in a sub-port's receive buffer: what the island holds and what waits for ingest (01 R23; 13 R295). -/
def State.rxFill (s : State) (p u : Nat) : Nat := (s.sub p u).fill + ((s.cap.rx.filter (s.rxOn p u)).map RxItem.bytes).sum

/-- Whether a packet finds no room in its sub-port's share of the buffer, so that the whole of it is dropped (01 R23). -/
def State.rxFull (s : State) (p u bytes : Nat) : Bool := s.rxFill p u + bytes > 2 * s.xoffAt p

/-- Whether a frame on a sub-port passes: false with the state after where it does not. HELD and WAKE drop frames (13 R306,
R307), a sub-port that is not UP receives none, one that finds the buffer full is lost (01 R23), and the destination MAC, IP address
and VLAN must match (R301). -/
def State.rxOk (s : State) (p u dst ip vlan : Nat) (bytes : Nat := 1) (arp : Bool := false) : State × Bool :=
  let l := s.link p u
  if l = lkHeld then (s.dropRx p u drHeld, false)
  else if l = lkWake then (s.dropRx p u drAddr, false)
  else if l != lkUp then (s, false)
  else if s.rxFull p u bytes then (s.inc F.ETH_RX_OVF_CNT p u, false)
  else if s.macOk p u dst ip arp && s.addrOk p u ip vlan then (s, true)
  else (s.dropRx p u drAddr, false)

/-- What a packet on a QP does, where its sub-port passes it: a HELD one drops it, and one that is not UP receives none (13 R303, R306). -/
def State.onQp (s : State) (n : Nat) (f : Qp → State → State) : State :=
  match s.qp n with
  | none => s
  | some x =>
    let l := s.link x.port x.sub
    if l = lkHeld then s.dropRx x.port x.sub drHeld else if l != lkUp then s else f x s

end Sys2Proof.Machine
end

