-- ==== Sys2Proof/Machine/NsOps.lean ====
section
/-! DEFINITION. Emptying and releasing a namespace: its zones, its map, its place in the tables (02 R61; 04 R108, R502; 11
R263). -/

namespace Sys2Proof.Machine

/-- Returns every field of a zone's entry to 0 (04 R108: a handle of no namespace reads as 0). -/
def State.clrZone (s : State) (h : Nat) : State :=
  let s := [F.ZON_ENT0_STATE, F.ZON_ENT0_ROUTE, F.ZON_ENT0_PSLOT, F.ZON_ENT0_SLICE, F.ZON_ENT0_DGROUP, F.ZON_ENT0_ZFC, F.ZON_ENT0_NSID,
    F.ZON_ENT1_ZSLBA, F.ZON_ENT2_WP_OFF, F.ZON_ENT2_HOLD, F.ZON_ENT2_WINROW, F.ZON_ENT3_SSET0, F.ZON_ENT3_K, F.ZON_ENT4_SSET1,
    F.ZON_ENT4_SSET2, F.ZON_ENT5_SSET3, F.ZON_ENT6_ACT_NS, F.ZON_ENT7_SEQ, F.ZON_ENT7_RESETS].foldl (fun s f => s.wr f 0 h) s
  { s with zn := { s.zn with zx := Tab.del h s.zn.zx } }

/-- Ends every command of a namespace that is in flight with a status. -/
def State.endNsCmds (s : State) (nsid : Nat) (st : Nat × Nat) : State :=
  (s.zn.cmds.filter (fun c => c.nsid = nsid && c.st != .fetched)).foldl (fun s c => if c.st = .held then s.failHeld c st else s.fin c st) s

/-- Unmaps every block of a conventional namespace and drops its map without writing it back (11 R263). -/
def State.unmapAll (s : State) (nsid : Nat) (n : Ns) : State :=
  let mine := s.ftl.fmap.filter (fun e => e.1 / 2 ^ 40 = nsid)
  let s := s.jn 0x03 [nsid, 0, n.size]
  let s := mine.foldl (fun s e => if e.2.st = 1 then (s.invalidate e.2.row).dec F.SLI_CAP_USED_UNITS n.slice else s) s
  let s := { s with ftl := { s.ftl with
    fmap := s.ftl.fmap.filter (fun e => e.1 / 2 ^ 40 != nsid)
    dir := s.ftl.dir.filter (fun e => e.1 / 2 ^ 40 != nsid)
    pseq := s.ftl.pseq.filter (fun e => e.1 / 2 ^ 40 != nsid)
    bypass := s.ftl.bypass.filter (fun e => e.1 != nsid) } }
  (s.invRange nsid 0 (ceilDiv n.size pageEntries) true).limits n.slice

/-- Discards all data of a namespace: every zone becomes Empty with RESETS at 0, or every block unmapped (12 R289, 04 R108). -/
def State.emptyNs (s : State) (nsid : Nat) : State :=
  match Tab.find nsid s.zn.ns with
  | none => s
  | some n =>
    if n.zoned then
      (List.range n.zones).foldl (fun s i =>
        let h := n.base + i
        ((s.zoneReset h).wr F.ZON_ENT7_RESETS 0 h).holdBy h none) s
    else s.unmapAll nsid n

/-- One more than the highest handle any zoned namespace has (04 R108). -/
def State.handles (s : State) : Nat := (s.zn.ns.map (fun e => if e.2.zoned then e.2.base + e.2.zones else 0)).foldl max 0

/-- Releases a namespace: its data, its zone handles, its map, its place in the slice's use. -/
def State.releaseNs (s : State) (nsid : Nat) : State :=
  match Tab.find nsid s.zn.ns with
  | none => s
  | some n =>
    let s := s.endNsCmds nsid stNs
    let s := s.emptyNs nsid
    let s := if n.zoned then (List.range n.zones).foldl (fun s i => s.clrZone (n.base + i)) s else s
    let s := { s with zn := { s.zn with ns := Tab.del nsid s.zn.ns } }
    let s := { s with ras := { s.ras with czl := s.ras.czl.filter (fun e => e.2.1 != nsid) } }
    let s := { s with cap := { s.cap with store := s.cap.store.filter (fun r => r.nsid != nsid) } }
    (s.dec F.SLI_NS_USE n.slice).wr F.ZON_CAP_HANDLES s.handles

end Sys2Proof.Machine
end

