-- ==== Sys2Proof/Machine/Slices.lean ====
section
/-! DEFINITION. The meanings of the Slice Management actions (02 R37-R44, R55-R63). -/

namespace Sys2Proof.Machine

/-! ### The slice descriptor (02 R41) -/

/-- A slice descriptor's field: its offset, its size in bytes. -/
structure DField where
  off : Nat
  size : Nat
deriving DecidableEq, Repr

/-- The fields of the slice descriptor in order: quota, ingest, egress, weight, classes, zones, SRAM slots, queue pairs, RC
QPs, namespaces, key slots, translation entries, die groups (02 R41). -/
def sliceFields : List DField :=
  [⟨0, 8⟩, ⟨8, 2⟩, ⟨10, 2⟩, ⟨12, 2⟩, ⟨14, 1⟩, ⟨16, 2⟩, ⟨18, 2⟩, ⟨20, 2⟩, ⟨22, 2⟩, ⟨24, 2⟩, ⟨26, 2⟩, ⟨28, 4⟩, ⟨32, 8⟩]

/-- The first reserved byte of a descriptor of `n` bytes that is not 0, given its fields. -/
def badByte (fs : List DField) (desc : List Nat) : Option Nat :=
  (List.range desc.length).find? (fun i => cut 8 (desc.getD i 0) != 0 && !fs.any (fun f => f.off ≤ i && i < f.off + f.size))

/-- The weight a slice has, or will have from the next epoch on. -/
def State.weightOf (s : State) (n : Nat) : Nat := (s.sx n).pendWeight.getD (s.rd F.SLI_WEIGHT_WEIGHT n)

/-- The ingest budget a slice has, or will have. -/
def State.inOf (s : State) (n : Nat) : Nat := (s.sx n).pendIn.getD (s.rd F.SLI_BW_INGRESS n)

/-- The egress budget a slice has, or will have. -/
def State.egOf (s : State) (n : Nat) : Nat := (s.sx n).pendEg.getD (s.rd F.SLI_BW_EGRESS n)

/-- The value of descriptor field `i` that a slice has now. -/
def State.limitOf (s : State) (n i : Nat) : Nat :=
  match i with
  | 0 => s.rd F.SLI_CAP_QUOTA_UNITS n
  | 1 => s.inOf n
  | 2 => s.egOf n
  | 3 => s.weightOf n
  | 4 => s.rd F.SLI_WEIGHT_LCMASK n
  | 5 => s.rd F.SLI_AZ_LIMIT n
  | 6 => s.rd F.SLI_AZ_SRAM_RSV n
  | 7 => s.rd F.SLI_RES_QP n
  | 8 => s.rd F.SLI_RES_RCQP n
  | 9 => s.rd F.SLI_NS_ALLOC n
  | 10 => (s.sx n).keySlots
  | 11 => (s.sx n).xltLim
  | _ => s.rd F.SLI_DGMAP_MAP n

/-- The device pool behind descriptor field `i` (02 R37); none where the field takes from no summed pool. -/
def State.poolOf (s : State) (i : Nat) : Option Nat :=
  match i with
  | 0 => some s.zn.cap
  | 1 => some 16000
  | 2 => some 16000
  | 5 => some 16384
  | 6 => some 1024
  | 7 => some 32768
  | 8 => some 16384
  | 9 => some 4096
  | 10 => some 4096
  | 11 => some 262144
  | _ => none

/-- Slices that are not FREE. -/
def State.taken (s : State) : List Nat := (List.range 1024).filter (fun n => s.slState n != slFree)

/-- What the other slices take of descriptor field `i`: a budget that a Resize lowers stays taken until the epoch it changes in (02 R38). -/
def State.othersTake (s : State) (n i : Nat) : Nat :=
  ((s.taken.filter (fun m => m != n)).map (fun m =>
    if i = 1 then max (s.limitOf m 1) (s.rd F.SLI_BW_INGRESS m)
    else if i = 2 then max (s.limitOf m 2) (s.rd F.SLI_BW_EGRESS m)
    else s.limitOf m i)).sum

/-- Whether a slice has a zone that is not Empty in die group `g`. -/
def State.usesGroup (s : State) (n g : Nat) : Bool :=
  s.zn.zx.any (fun e => s.zSlice e.1 = n && counts (s.zst e.1) && s.rd F.ZON_ENT0_DGROUP e.1 = g)

/-- Whether a die-group map may be given to a slice: groups that exist, a dedicated one in no other slice's map (04 R101), and
none taken away that still holds a zone that is not Empty (02 R50). -/
def State.mapOk (s : State) (n m : Nat) : Bool :=
  (List.range 64).all (fun g =>
    if bit m g then
      (match Tab.find g s.rdn.groups with
       | none => false
       | some x => !x.ded || s.taken.all (fun k => k = n || !bit (s.rd F.SLI_DGMAP_MAP k) g))
    else !(bit (s.rd F.SLI_DGMAP_MAP n) g && s.usesGroup n g))

/-- Whether descriptor field `i` can be met for a slice, the wanted values being `v` (02 R37, R38, R40, R41, R50, R63). A Create's weight
counts at once, beside the weights in effect. -/
def State.fieldOk (s : State) (n : Nat) (v : List Nat) (i : Nat) : Bool :=
  let x := v.getD i 0
  let pool := match s.poolOf i with
    | some p => s.othersTake n i + x ≤ p
    | none => true
  let own := match i with
    | 3 => 1 ≤ x && x ≤ 65535 &&
        (let sum := s.othersTake n 3 + x
         let w0 := if n = 0 then x else s.weightOf 0
         let now := ((s.taken.filter (fun m => m != n)).map (fun m => s.rd F.SLI_WEIGHT_WEIGHT m)).sum + x
         sum ≤ 12 * w0 && (s.slState n != slFree || now ≤ 12 * s.rd F.SLI_WEIGHT_WEIGHT 0))
    | 6 => x ≤ 1024 && x ≤ v.getD 5 0
    | 9 => s.rd F.SLI_NS_USE n ≤ x
    | 10 => (s.cip.slots.filter (fun e => e.2.slice = n)).length ≤ x
    | 11 => x ≤ 65536 && (s.sl.xlt.filter (fun e => e.slice = n)).length ≤ x
    | 12 => s.mapOk n x
    | _ => true
  pool && own

/-- The wanted value of each field: the descriptor's, or in a Resize what stands where the field is all ones (02 R41). -/
def State.wanted (s : State) (n : Nat) (resize : Bool) (desc : List Nat) : List Nat :=
  sliceFields.mapIdx (fun i f =>
    let v := ((List.range f.size).map (fun k => cut 8 (desc.getD (f.off + k) 0) * 256 ^ k)).sum
    if resize && v = 256 ^ f.size - 1 then s.limitOf n i else v)

/-- The offset of the first byte or field of a descriptor that cannot be met (02 R40, R41). -/
def State.descFault (s : State) (n : Nat) (resize : Bool) (desc : List Nat) : Option Nat :=
  match badByte sliceFields (desc.take 4096) with
  | some b => some b
  | none =>
    let v := s.wanted n resize desc
    (((List.range 13).find? (fun i => !s.fieldOk n v i)).map (fun i => (sliceFields.getD i ⟨0, 0⟩).off))

/-- Gives a slice the fields that apply at once: all but weight and budgets (02 R41). -/
def State.setLimits (s : State) (n : Nat) (v : List Nat) : State :=
  let s := s.wr F.SLI_CAP_QUOTA_UNITS (v.getD 0 0) n
  let s := s.wr F.SLI_WEIGHT_LCMASK (v.getD 4 0) n
  let s := s.wr F.SLI_AZ_LIMIT (v.getD 5 0) n
  let s := s.wr F.SLI_AZ_SRAM_RSV (v.getD 6 0) n
  let s := s.wr F.SLI_RES_QP (v.getD 7 0) n
  let s := s.wr F.SLI_RES_RCQP (v.getD 8 0) n
  let s := s.wr F.SLI_NS_ALLOC (v.getD 9 0) n
  let s := s.wr F.SLI_DGMAP_MAP (v.getD 12 0) n
  let s := s.putSx n { s.sx n with keySlots := v.getD 10 0, xltLim := v.getD 11 0 }
  s.limits n

/-- Gives a slice its weight and budgets now. -/
def State.setRates (s : State) (n w i e : Nat) : State :=
  ((s.wr F.SLI_WEIGHT_WEIGHT w n).wr F.SLI_BW_INGRESS i n).wr F.SLI_BW_EGRESS e n

/-! ### Checks every action shares -/

/-- The checks of 02 R39, R40, R62 in order; none where the action may go on. -/
def State.sliceChk (s : State) (o : Org) (n : Nat) (allowed : List Nat) (zero : Bool) : Option (Nat × Nat) :=
  if !isMgr o then some stOpcode
  else if n ≥ 1024 then some stField
  else if n = 0 && !zero then some stField
  else if !allowed.contains (s.slState n) then some stSeq
  else none

/-! ### Meanings -/

/-- A Create that passed the checks of R39 and R40 (02 R41, R61): it waits while an operation in flight carries the generation that the slice
would take (R57). -/
def State.create (s : State) (o : Org) (cid n : Nat) (desc : List Nat) : State :=
  match s.descFault n false desc with
  | some b => s.adm o cid stField b
  | none =>
    let v := s.wanted n false desc
    let used := (s.sx n).used
    if used && s.stamped true n (cut 16 (s.rd F.SLI_GEN_GEN n + 1)) then
      { s with sl := { s.sl with creates := s.sl.creates ++ [(n, o, cid, desc)] } }
    else
      let s := if used then s.addw F.SLI_GEN_GEN 1 n else s
      let s := s.putSx n { SliceX.fresh with used := true, bIn := v.getD 1 0 * 100000, bEg := v.getD 2 0 * 100000 }
      let s := (((s.wr F.SLI_STS_STATE slActive n).wr F.SLI_STS_FENCE_RSN 0 n).setRates n (v.getD 3 0) (v.getD 1 0) (v.getD 2 0)).setLimits n v
      let s := (s.wr F.LGR_SL_CHG_CHG 0 n).wr F.LGR_SL_NORM_N 0 n
      s.adm o cid stOk

/-- A Create's checks of R39 and R40, and the Create (02 R37-R41). -/
def State.tryCreate (s : State) (o : Org) (cid n : Nat) (desc : List Nat) : State :=
  match s.sliceChk o n [slFree] false with
  | some st => s.adm o cid st
  | none => s.create o cid n desc

/-- SLICE_CREATE (02 R37-R41, R61, R63): `act` is CDW10[7:0], which is 0x01; a code that the table of R39 does not list fails, and one that
it lists belongs to another row (log 89). -/
def execSliceCreate (o : Org) (cid act n : Nat) (desc : List Nat) (s : State) : Res :=
  .next (if 2 ≤ act && act ≤ 8 then s else s.admin o cid (fun s =>
    if s.stopped then s
    else if act != 1 then s.adm o cid (if isMgr o then stField else stOpcode)
    else s.tryCreate o cid n desc))

/-- SLICE_RESIZE (02 R40, R41, R50, R63). Weight and budgets change at the next epoch boundary; queues whose class is removed
move there (R50). -/
def execSliceResize (o : Org) (cid n : Nat) (desc : List Nat) (s : State) : Res :=
  .next (s.admin o cid (fun s =>
    if s.stopped then s else
    match s.sliceChk o n [slActive] true with
      | some st => s.adm o cid st
      | none =>
        match s.descFault n true desc with
        | some b => s.adm o cid stField b
        | none =>
          let v := s.wanted n true desc
          let x := s.sx n
          let s := s.putSx n { x with pendWeight := some (v.getD 3 0), pendIn := some (v.getD 1 0), pendEg := some (v.getD 2 0), pendLc := true }
          ((s.setLimits n v).promote).adm o cid stOk))

/-! ### Resets and deletes that wait -/

/-- Whether a slice has a key generation advance that is not persistent yet (12 R292). -/
def State.advancing (s : State) (n : Nat) : Bool := !(s.advPend n none).isEmpty

/-- Steps 3 and 4 of a Delete (02 R61): zones reset, maps released, every resource back in its pool; the slice is FREE and its generation
kept. -/
def State.endDelete (s : State) (n : Nat) : State :=
  let s := ((s.zn.ns.filter (fun e => e.2.slice = n)).map (·.1)).foldl State.releaseNs s
  let s := { s with sl := { s.sl with
    fbind := s.sl.fbind.filter (fun b => b.slice != n)
    nbind := s.sl.nbind.filter (fun b => b.slice != n)
    xlt := s.sl.xlt.filter (fun e => e.slice != n) } }
  let s := (s.setRates n 0 0 0).setLimits n []
  let s := s.wr F.SLI_CAP_USED_UNITS 0 n
  let s := s.putSx n { SliceX.fresh with used := true }
  (s.wr F.SLI_STS_STATE slFree n).wr F.SLI_STS_FENCE_RSN 0 n

/-- Whether a queue's binding is gone, so that the queue ends with the slice's reset (02 R44). -/
def State.unbound (s : State) (q : Queue) : Bool :=
  if q.fabric then
    match Tab.find q.assoc s.assocs with
    | some a => !s.sl.nbind.any (fun b => b.slice = q.slice && b.host = a.host && b.sub = a.sub)
    | none => true
  else !(q.func = 0 && q.pasid.isNone) && !s.sl.fbind.any (fun b => b.slice = q.slice && b.func = q.func && b.pasid = q.pasid)

/-- Removes the queues and associations of a slice whose binding is gone (02 R44). -/
def State.dropUnbound (s : State) (n : Nat) : State :=
  let l := s.sl.qs.filter (fun e => e.2.slice = n && s.unbound e.2)
  let s := (((l.filter (fun e => e.2.fabric)).map (fun e => e.2.assoc)).dedup).foldl State.endAssoc s
  ((l.map (·.1)).foldl State.removeQueue s).dropCqs (l.map (·.2))

/-- The end of a slice reset (02 R44, R55 steps 2, 5 and 6, R59; 05 R141: streams lose their frames at the change of generation). -/
def State.endReset (s : State) (n : Nat) : State :=
  let s := s.wr F.SLI_GEN_GEN (s.rd F.SLI_GEN_GEN n + 1) n
  let s := s.capDrop (fun x => x.slice = n)
  let s := ((s.cap.streams.filter (fun e => e.2.slice = n)).map (·.1)).foldl State.stopEnd s
  let s := ((s.queuesOf n).foldl State.emptyQueue s).dropUnbound n
  let x := s.sx n
  let s := s.putSx n { x with pendFence := none }
  match x.pendFence with
  | none => ((s.wr F.SLI_STS_STATE slActive n).wr F.SLI_STS_FENCE_RSN 0 n).limits n
  | some r => ((s.wr F.SLI_STS_STATE slActive n).wr F.SLI_STS_FENCE_RSN 0 n).fence n r

/-- Goes on with resets that waited (02 R57), once the operations they waited for have ended. -/
def State.resumeResets (s : State) : State :=
  s.sl.waits.foldl (fun s w =>
    let go := if w.1 then !s.resetWaits w.2.1 else
      (match Tab.find w.2.1 s.sl.qs with
       | some q => !s.stamped false w.2.1 (cut 16 (q.gen + 1))
       | none => true)
    if go then
      let s := { s with sl := { s.sl with waits := s.sl.waits.filter (fun v => v != w) } }
      let s := if w.1 then s.endReset w.2.1 else s.emptyQueue w.2.1
      match w.2.2 with
      | some (o, cid) => s.adm o cid stOk
      | none => s
    else s) s

/-- Tries the Creates that waited again (02 R57). -/
def State.resumeCreates (s : State) : State :=
  let l := s.sl.creates
  l.foldl (fun (s : State) e => s.tryCreate e.2.1 e.2.2.1 e.1 e.2.2.2) { s with sl := { s.sl with creates := [] } }

/-- The end of a namespace delete, a format or a sanitize, once its advances are persistent (04 R502; 12 R289, R292 step 4). -/
def State.endErase (s : State) (e : Erase) : State :=
  let ids := e.pairs.map (·.2)
  let s := match e.kind with
    | .delete => ids.foldl State.releaseNs s
    | .format lbaf =>
      let s := ids.foldl State.emptyNs s
      { s with zn := { s.zn with ns := s.zn.ns.map (fun (x : Nat × Ns) => if ids.contains x.1 then (x.1, { x.2 with lbaf := lbaf }) else x) } }
    | .sanitize => ids.foldl State.emptyNs s
  s.adm e.o e.cid stOk

/-- Goes on with the namespace commands whose advances are persistent. -/
def State.resumeErases (s : State) : State :=
  s.cip.erases.foldl (fun (s : State) e =>
    if e.pairs.any (fun p => !(s.advPend p.1 (some p.2)).isEmpty) then s
    else ({ s with cip := { s.cip with erases := s.cip.erases.filter (fun x => x != e) } }).endErase e) s

/-- Journals the advances of a namespace command and has it wait for them (12 R292). -/
def State.beginErase (s : State) (e : Erase) : State :=
  let s := e.pairs.foldl (fun (s : State) p => s.advance p.1 p.2) s
  { s with cip := { s.cip with erases := s.cip.erases ++ [e] } }.resumeErases

/-- Ends the Deletes and the namespace commands whose key generation advances are persistent (02 R61; 12 R292). -/
def State.resumeDels (s : State) : State :=
  s.resumeErases.sl.dels.foldl (fun (s : State) e =>
    if s.advancing e.1 then s
    else
      let s := { s with sl := { s.sl with dels := s.sl.dels.filter (fun x => x != e) } }
      (s.endDelete e.1).adm e.2.1 e.2.2 stOk) s.resumeErases

/-- Runs the reads that waited for a key or for a slot again: an operation that held one may have ended (12 R290). -/
def State.resumeKeys (s : State) : State := (s.zn.cmds.filter (fun c => c.st = .key)).foldl (fun (s : State) c => s.rerun c.q c.cid) s

/-- Goes on with all that waited for operations in flight or for the journal (02 R57, R61; 04 R97; 12 R290). -/
def State.resumeAll (s : State) : State := s.freeDoomed.resumeResets.resumeCreates.resumeDels.resumeKeys

/-- SLICE_DELETE (02 R61, R75; 12 R289, R292): steps 1 and 2; the rest follows when the key generation advances are persistent. What a stream
of the slice was ends with it (log 33). -/
def execSliceDelete (o : Org) (cid n : Nat) (s : State) : Res :=
  .next (if s.tailFull then s else s.admin o cid (fun s =>
    if s.stopped then s else
    match s.sliceChk o n [slActive, slFenced] false with
      | some st => s.adm o cid st
      | none =>
        let s := (s.wr F.SLI_STS_STATE slDeleting n).limits n
        let s := s.endCmds n stFenced
        let s := (s.cap.streams.filter (fun e => e.2.slice = n)).foldl (fun s e =>
          let s := match e.2.stop with
            | some (o, c) => s.adm o c stOk
            | none => s
          { s with cap := { s.cap with streams := Tab.del e.1 s.cap.streams, blks := s.cap.blks.filter (fun b => b.stream != e.1) } }) s
        let s := ((s.assocs.filter (fun e => e.2.slice = n)).map (·.1)).foldl State.endAssoc s
        let s := (s.qpsOf n).foldl State.dropQp s
        let qs := s.sl.qs.filter (fun e => e.2.slice = n && !e.2.fabric)
        let s := ((s.queuesOf n).foldl State.removeQueue s).dropCqs (qs.map (·.2))
        let s := s.filterOps (fun p => !(p.slice = n && p.purp = .host))
        let nss := (s.zn.ns.filter (fun e => e.2.slice = n)).map (·.1)
        let s := nss.foldl (fun s i => s.advance n i) s
        { s with sl := { s.sl with dels := s.sl.dels ++ [(n, o, cid)] } }.resumeDels))

/-- SLICE_RESET (02 R55, R57, R59; 05 R141). -/
def execSliceReset (o : Org) (cid n : Nat) (s : State) : Res :=
  .next (s.admin o cid (fun s =>
    if s.stopped then s else
    match s.sliceChk o n [slActive, slFenced] false with
      | some st => s.adm o cid st
      | none =>
        let s := (s.wr F.SLI_STS_STATE slResetting n).limits n
        let s := s.qpErrSlice n
        let qs := s.queuesOf n
        let s := s.dropCmds (fun i => qs.contains i)
        if s.resetWaits n then { s with sl := { s.sl with waits := s.sl.waits ++ [(true, n, some (o, cid))] } }
        else (s.endReset n).adm o cid stOk))

/-- SLICE_FENCE (02 R59). -/
def execSliceFence (o : Org) (cid n : Nat) (s : State) : Res :=
  .next (s.admin o cid (fun s =>
    if s.stopped then s else
    match s.sliceChk o n [slActive] false with
      | some st => s.adm o cid st
      | none => (s.fence n 1).adm o cid stOk))

/-- QUEUE_RESET (02 R56, R57): `rsv` is CDW11[31:15]. PF0's admin queue has index 0 (log 34). -/
def execQueueReset (o : Org) (cid n i rsv : Nat) (s : State) : Res :=
  .next (s.admin o cid (fun s =>
    if s.stopped then s else
    match s.sliceChk o n [slActive] true with
      | some st => s.adm o cid st
      | none =>
        if rsv != 0 then s.adm o cid stField
        else
          match Tab.find i s.sl.qs with
          | none => s.adm o cid stField
          | some q =>
            if q.slice != n || (q.qid = 0 && !q.fabric && q.func = 0) then s.adm o cid stField
            else
              let a := s.queueReset i
              if a.2 then a.1.adm o cid stOk
              else { a.1 with sl := { a.1.sl with waits := a.1.sl.waits.map (fun w =>
                if w = (false, i, none) then (false, i, some (o, cid)) else w) } }))

/-- Whether a window is 4 KiB to 1 TiB and aligned to its size, which is taken to be a power of two (02, "The translation unit"; log 85). -/
def XltWant.ok (w : XltWant) : Bool := (List.range 29).any (fun i => w.size = 2 ^ (12 + i)) && w.base % max w.size 1 = 0

/-- Whether a function-and-PASID binding may be added (02 R37, R43). -/
def State.fbindOk (s : State) (n idx func : Nat) (pasid : Option Nat) : Bool :=
  idx < 256 && func < 256 && s.sl.fbind.length + 1 < 16384
    && !s.sl.fbind.any (fun b => b.slice = n && b.idx = idx)
    && !(n = 0 && idx = 0)
    && !s.sl.fbind.any (fun b => b.func = func && (b.idx = idx || b.pasid = pasid))
    && !(func = 0 && (pasid.isNone || idx = 0))

/-- Whether an NQN binding may be added (02 R37, R43). -/
def State.nbindOk (s : State) (n idx host sub : Nat) : Bool :=
  idx < 256 && s.sl.nbind.length < 8192 && !s.sl.nbind.any (fun b => b.slice = n && b.idx = idx)
    && !s.sl.nbind.any (fun b => b.host = host && b.sub = sub)

/-- SLICE_BIND (02 R39, R43, R45; 14 R314, R315): `kind` is CDW11[8]; the data buffer holds the function and PASID, or the NQN pair, and the
translation entries. One of an NQN pair that carries entries, which serve DMA only, fails (log 85). -/
def execSliceBind (o : Org) (cid n idx kind func : Nat) (pasid : Option Nat) (host sub : Nat) (ents : List XltWant) (s : State) : Res :=
  .next (s.admin o cid (fun s =>
    if s.stopped then s else
    match s.sliceChk o n [slActive] true with
      | some st => s.adm o cid st
      | none =>
        let old := s.sl.xlt.filter (fun e => !(e.slice = n && e.bind = idx && e.kind = kind))
        let fits : Bool := ents.all XltWant.ok && (old.filter (fun e => e.slice = n)).length + ents.length ≤ (s.sx n).xltLim
        let new := ents.map (fun w => XltEnt.mk n func pasid w.base w.size w.rd w.wr w.cxl idx kind)
        if kind = 0 then
          let off : Bool := pasid.isSome && (match s.fn func with
            | some f => !f.pasidEn
            | none => false)
          if s.fbindOk n idx func pasid && fits && !off then
            let s := { s with sl := { s.sl with fbind := s.sl.fbind ++ [FBind.mk func pasid idx n], xlt := old ++ new } }
            (s.tryReady func).adm o cid stOk
          else s.adm o cid stField
        else
          if s.nbindOk n idx host sub && ents.isEmpty then
            { s with sl := { s.sl with nbind := s.sl.nbind ++ [NBind.mk host sub idx n] } }.adm o cid stOk
          else s.adm o cid stField))

/-- SLICE_UNBIND (02 R43, R44): queues, associations and translation entries stay (log 9). An index that the slice does not hold fails with
Invalid Field in Command, which the spec does not say (log 85). -/
def execSliceUnbind (o : Org) (cid n idx kind : Nat) (s : State) : Res :=
  .next (s.admin o cid (fun s =>
    if s.stopped then s else
    match s.sliceChk o n [slActive, slFenced] true with
      | some st => s.adm o cid st
      | none =>
        if kind = 0 then
          if s.sl.fbind.any (fun b => b.slice = n && b.idx = idx) then
            { s with sl := { s.sl with fbind := s.sl.fbind.filter (fun b => !(b.slice = n && b.idx = idx)) } }.adm o cid stOk
          else s.adm o cid stField
        else
          if s.sl.nbind.any (fun b => b.slice = n && b.idx = idx) then
            { s with sl := { s.sl with nbind := s.sl.nbind.filter (fun b => !(b.slice = n && b.idx = idx)) } }.adm o cid stOk
          else s.adm o cid stField))

end Sys2Proof.Machine
end

