-- ==== Sys2Proof/Machine/ZoneIo.lean ====
section
/-! DEFINITION. The meanings of the I/O commands: reads, writes, appends, zone management, conventional commands, their
admission, commit and timeouts (04; 02 R50-R53; 03 R72, R505; 06 R144; 07 R171-R173). -/

namespace Sys2Proof.Machine

/-! ### Shared pieces -/

/-- A zone management or append command's start: as `begin`, on a zoned namespace only (04 R106). The range test comes before that of the
namespace's kind, which the spec does not order (log 85). -/
def State.beginZone (s : State) (q cid : Nat) (k : CmdKind) (nsid lba len : Nat) (lr : Bool) (hint : Nat) : Beg :=
  match s.begin q cid k nsid lba len lr false hint with
  | .stop s => .stop s
  | .go s c qx n => if n.zoned then .go s { c with zone := zoneOf n lba } qx n else .stop (s.fin c stOpcode)

/-- A write's place after the tests of 04 R504: it fails, enters the hold (R95), or goes on to its reservation. -/
def State.placeWrite (s : State) (c : Cmd) (n : Ns) : State :=
  let h := c.zone
  let off := c.lba % zoneBlocks
  if (s.zxOf h).stream.isSome then s.fin c stZInvalid
  else
    match s.wTest h off c.len false true with
    | .bad st => s.failWrite c n st
    | .hold =>
      if s.rd F.ZON_ENT2_HOLD h ≥ s.rd F.ZON_CFG_HOLD_DEPTH || off > s.wp h + 16384 then (s.inc F.ZON_HOLD_FAIL_CNT).fin c stZInvalid
      else ((s.putCmd { c with st := .held }).addw F.ZON_ENT2_HOLD 1 h).zseq h
    | .ok => s.putCmd { c with st := .staging }

/-- Bits of a logical block with its metadata (04 R86). -/
def blkBits (lbaf : Nat) : Nat := 32768 + [0, 64, 512].getD lbaf 0

/-- The blocks a host sent, each cut to its format, at most `len` of them. -/
def hostData (n : Ns) (len : Nat) (data : List Nat) : List Nat := (data.take len).map (cut (blkBits n.lbaf))

/-- The commit of a write all of whose data is in staging (02 R53, 04 R504), or its wait for an activation (04 R103). -/
def State.commit (s : State) (c : Cmd) (n : Ns) : State :=
  if n.zoned then
    let h := c.zone
    let app : Bool := c.kind = .append
    if (s.zxOf h).stream.isSome then s.fin c stZInvalid
    else
      match s.wTest h (c.lba % zoneBlocks) c.len app false c.azLim with
      | .bad st => s.failWrite c n st
      | .hold => s.fin c stZInvalid
      | .ok =>
        if s.zst h = znEmpty then
          match s.activate h n.dg false with
          | none => s.putCmd { c with st := .place }
          | some s => s.commitZone c
        else s.commitZone c
  else
    match s.commitConv c n c.lba 0 0 c.data with
    | none => s.putCmd { c with st := .place }
    | some s =>
      let s := s.limits c.slice
      if c.fua then ((s.putCmd { c with st := .media, resWin := 0, resDir := 0 }).forceFlush n.dg c.slice).finFlush
      else s.fin c stOk

/-- RDMA Reads outstanding on a QP (13 R302). -/
def readMax : Nat := 16

/-- Gives a QP the writes whose data it has still to fetch, in order; those that come among the first 16 have their RDMA Read sent (13 R302). -/
def State.putReads (s : State) (n : Nat) (x : Qp) (l : List (Nat × Nat)) : State :=
  ((l.take readMax).filter (fun e => !(x.reads.take readMax).contains e)).foldl (fun (s : State) e =>
    s.sendQp n (.net x.port x.sub "rdma_read" [n, e.1, e.2])) { s with net := { s.net with qps := Tab.put n { x with reads := l } s.net.qps } }

/-- Whether a write is admitted and lacks data. -/
def State.lacks (s : State) (e : Nat × Nat) : Bool :=
  ((s.cmdOf e.1 e.2).map (fun c => decide (c.st = .admitted) && decide (c.data.length < c.len))).getD false

/-- Fetches the data of a fabric write by RDMA Read (06 R144; 13 R302, R304), and lets go of the writes of its QP that no longer need theirs. -/
def State.wantRead (s : State) (n : Nat) (new : List (Nat × Nat)) : State :=
  match Tab.find n s.net.qps with
  | none => s
  | some x => s.putReads n x (x.reads.filter (fun e => s.lacks e && !new.contains e) ++ new)

/-- Admits a write whose whole reservation can be made now (06 R144, 03 R505), the quota test of 04 R504 made at that instant; `data` is what the
host's memory holds for it, which a fabric write has still to be sent unless its
capsule brought it. -/
def State.admitCmd (s : State) (c : Cmd) (q : Queue) (n : Ns) (addr : Nat) (data : List Nat) : State :=
  let dg := s.dgOf c n
  let r := s.splitRes c n
  if !s.admitOpen c.slice dg || s.tailFull || s.spillFull c n || s.beyond c n || s.ovfFull || (n.zoned && s.rebuilding c.zone)
    || !(s.foldOpen || (n.zoned && s.rd F.ZON_ENT0_ROUTE c.zone = 2)) || r.2 > s.winFree || !(q.fabric || s.canSend q.func) then s
  else if s.overQ c.slice then s.failWrite c n stQuota
  else
    let k := s.blockKey c.nsid
    match k.2 with
    | .no => k.1.failWrite c n stKey
    | .wait => k.1
    | .ready =>
      let d := k.1.dma q addr (c.len * 4096) false
      if d.2 != .ok then d.1.dmaEnd c.slice d.2 (fun s => s.failWrite c n stXfer)
      else
        let later : Bool := q.fabric && !c.inl
        let s := (((d.1.deduct c.slice dg (c.len * 4096)).spillNote c n).foldTake (if n.zoned && s.rd F.ZON_ENT0_ROUTE c.zone = 2 then 0 else c.len * 4096)).putCmd
          { c with st := .admitted, resDir := r.1, resWin := r.2, data := if later then [] else hostData n c.len data,
                   azLim := s.rd F.SLI_AZ_LIMIT c.slice + 1 }
        if later then s.wantRead q.qp [(c.q, c.cid)] else s

/-- Admits a Write Zeroes of a zoned namespace: it moves no data, so it reserves no staging and its zeros are at hand (03 R505, log 30). It
waits as a write does for a full journal tail (11 R265), for a wordline (06 R155), for a rebuild and for the namespace's key. -/
def State.admitZeroes (s : State) (c : Cmd) (n : Ns) : State :=
  if s.rd F.MED_PF_STS_PHASE != 0 || !s.stg.commits || s.ftl.faulted.isSome || s.tailFull || s.beyond c n || s.rebuilding c.zone then s
  else
    let k := s.blockKey c.nsid
    match k.2 with
    | .no => k.1.failWrite c n stKey
    | .wait => k.1
    | .ready => k.1.putCmd { c with st := .admitted, data := List.replicate c.len 0, azLim := s.rd F.SLI_AZ_LIMIT c.slice + 1 }

/-- The zone of a zone management command's slice that an action may take: not held by a capture stream (05 R124). -/
def State.freeZone (s : State) (h : Nat) : Bool := (s.zxOf h).stream.isNone

/-- The zones of a namespace that a Select All action acts on: those in given states, free of a stream (04 R90, 05 R124). -/
def State.selected (s : State) (n : Ns) (zs : List Nat) : List Nat :=
  ((List.range n.zones).map (fun i => n.base + i)).filter (fun h => zs.contains (s.zst h) && s.freeZone h)

/-- Whether a placement hint may be used by a slice: its group is in the slice's map and has k of 4, 8 or 16 (04 R102). -/
def State.hintOk (s : State) (slice dg : Nat) : Bool :=
  bit (s.rd F.SLI_DGMAP_MAP slice) dg && (match Tab.find dg s.rdn.groups with
    | some g => g.k = 4 || g.k = 8 || g.k = 16
    | none => false)

/-- An Open of one zone (04 R90, R102-R104; 02 R50). It is admitted as its execution begins, so that an activation that waited is tried under
the limits of that instant (02 R51). -/
def State.openZone (s : State) (c : Cmd) (n : Ns) : State :=
  let h := c.zone
  let z := s.zst h
  let valid := bit c.hint 15
  let dg := if valid then bits c.hint 0 6 else n.dg
  if z = znEmpty then
    if valid && !s.hintOk c.slice dg then s.fin c stField
    else if c.st != .place && s.overQ c.slice then s.fin c stQuota
    else if !s.azFree c.slice c.azLim then s.fin c stZActive
    else
      match s.activate h dg (valid && bit c.hint 14) with
      | none => s.putCmd { c with st := .place, azLim := if c.azLim = 0 then s.rd F.SLI_AZ_LIMIT c.slice + 1 else c.azLim }
      | some s => (s.setZst h znExp).fin c stOk
  else if isActive z then (if z = znExp then s else s.setZst h znExp).fin c stOk
  else s.fin c stZTrans

/-- A Close of one open zone: Closed, or Empty where nothing was written (04 R90). -/
def State.closeZone (s : State) (h : Nat) : State :=
  if s.wp h > 0 then s.setZst h znClosed else (s.unbind h).setZst h znEmpty

/-- A Finish of one zone that allows it (04 R90); a Full one stays as it is. -/
def State.finishZone (s : State) (h : Nat) : State := if s.zst h = znFull then s else s.becomeFull h

/-- A zone becomes Offline (04 R93): its rows go to reclamation. -/
def State.offlineZone (s : State) (h : Nat) : State :=
  if s.zst h = znOff then s
  else (((s.failHolds h stZOff).unbind h).wipeZone h).setZst h znOff

/-- A zone management send whose action is `f`, allowed on a single zone in the states `one` and on the states `all` with
Select All (04 R90). -/
def State.zoneSend (s : State) (q cid nsid zslba : Nat) (sel lr : Bool) (one all : List Nat) (chk : State → Cmd → Option (Nat × Nat))
    (f : State → Nat → State) : State :=
  match s.beginZone q cid .zoneMgmt nsid (if sel then 0 else zslba) 1 lr 0 with
  | .stop s => s
  | .go s c _ n =>
    if sel then ((s.selected n all).foldl f s).fin c stOk
    else if zslba % zoneBlocks != 0 then s.fin c stField
    else if !s.freeZone c.zone then s.fin c stZTrans
    else if !one.contains (s.zst c.zone) then s.fin c stZTrans
    else
      match chk s c with
      | some st => s.fin c st
      | none => (f s c.zone).fin c stOk

/-- No further check. -/
def noChk (_ : State) (_ : Cmd) : Option (Nat × Nat) := none

/-! ### Meanings -/

/-- A Read begins (04 R97, R502; 02 R45): `len` blocks at `lba`, to host address `addr`; `lr` is Limited Retry (03 R71). -/
def State.readCmd (s : State) (q cid nsid lba len : Nat) (lr : Bool) (addr : Nat) : State :=
  (if s.egWait q then s else match s.begin q cid .read nsid lba len lr false 0 with
    | .stop s => s
    | .go s c qx n =>
      let d := s.dma qx addr (len * 4096) true
      if d.2 = .ok then d.1.runRead c n else d.1.dmaEnd c.slice d.2 (fun s => s.fin c stXfer))

/-- WRITE (04 R504, R94, R95). A conventional write goes on to its reservation. -/
def execWrite (q cid nsid lba len : Nat) (lr fua : Bool) (s : State) : Res :=
  .next (match s.begin q cid .write nsid lba len lr fua 0 with
    | .stop s => s
    | .go s c _ n =>
      if n.zoned then s.placeWrite { c with zone := zoneOf n lba } n else s.putCmd { c with st := .staging })

/-- ZONE_APPEND (04 R96, R504). -/
def execZoneAppend (q cid nsid zslba len : Nat) (lr : Bool) (s : State) : Res :=
  .next (match s.beginZone q cid .append nsid zslba len lr 0 with
    | .stop s => s
    | .go s c _ _ =>
      if zslba % zoneBlocks != 0 || len > 512 then s.fin c stField
      else if !s.freeZone c.zone then s.fin c stZInvalid
      else
        match s.wTest c.zone 0 len true true with
        | .bad st => s.fin c st
        | _ => s.putCmd { c with st := .staging })

/-- WRITE_ZEROES (03 R505, 02 R50, 11 R266): a conventional namespace's blocks become unmapped. In a zoned namespace it writes zeros at the
write pointer: it is tested as a Write (04 R504) and is never held (log 30). -/
def execWriteZeroes (q cid nsid lba len : Nat) (lr : Bool) (s : State) : Res :=
  .next (match s.begin q cid .writeZeroes nsid lba len lr false 0 with
    | .stop s => s
    | .go s c _ n =>
      if n.zoned then
        let c := { c with zone := zoneOf n lba }
        if !s.freeZone c.zone then s.fin c stZInvalid
        else
          match s.wTest c.zone (lba % zoneBlocks) len false true with
          | .bad st => s.failWrite c n st
          | .hold => s.fin c stZInvalid
          | .ok => let c := { c with st := .staging }; (s.putCmd c).admitZeroes c n
      else if s.overQ c.slice then s.fin c stQuota
      else
        let seq := s.ftl.jnext
        let s := s.jn 0x03 [nsid, lba, len]
        (((List.range len).foldl (fun s i => s.mapSet nsid (lba + i) ⟨0, 0, 0⟩ seq) s).limits c.slice).fin c stOk)

/-- DEALLOCATE (02 R49, 11 R266): ranges of a conventional namespace; a zoned one keeps its data (log 30). -/
def execDeallocate (q cid nsid : Nat) (ranges : List (Nat × Nat)) (s : State) : Res :=
  .next (match s.begin q cid .dealloc nsid 0 0 false false 0 with
    | .stop s => s
    | .go s c _ n =>
      if ranges.any (fun r => r.1 + r.2 > n.size) then s.fin c stRange
      else if n.zoned then s.fin c stOk
      else
        ((ranges.foldl (fun s r =>
          let seq := s.ftl.jnext
          let s := s.jn 0x03 [nsid, r.1, r.2]
          (List.range r.2).foldl (fun s i => s.mapSet nsid (r.1 + i) ⟨0, 0, 0⟩ seq) s) s).limits c.slice).fin c stOk)

/-- FLUSH (07 R171): to a conventional namespace a forced flush that completes when its data is on flash; a zoned
namespace's data is power-safe in staging (06 R145), so it completes at once. A full partial parity log makes it wait. -/
def execFlush (q cid nsid : Nat) (s : State) : Res :=
  .next (match s.begin q cid .flush nsid 0 0 false false 0 with
    | .stop s => s
    | .go s c _ n =>
      if n.zoned then s.fin c stOk
      else ((s.putCmd { c with st := .media }).forceFlush n.dg c.slice).finFlush)

/-- ZONE_OPEN (04 R90, R102-R104); Open with Select All opens Closed zones. -/
def execZoneOpen (q cid nsid zslba : Nat) (sel lr : Bool) (hint : Nat) (s : State) : Res :=
  .next (match s.beginZone q cid .zoneOpen nsid (if sel then 0 else zslba) 1 lr hint with
    | .stop s => s
    | .go s c _ n =>
      if sel then ((s.selected n [znClosed]).foldl (fun s h => s.setZst h znExp) s).fin c stOk
      else if zslba % zoneBlocks != 0 then s.fin c stField
      else if !s.freeZone c.zone then s.fin c stZTrans
      else s.openZone c n)

/-- ZONE_CLOSE (04 R90). -/
def execZoneClose (q cid nsid zslba : Nat) (sel lr : Bool) (s : State) : Res :=
  .next (s.zoneSend q cid nsid zslba sel lr [znImp, znExp, znClosed] [znImp, znExp] noChk
    (fun s h => if s.zst h = znClosed then s else s.closeZone h))

/-- ZONE_FINISH (04 R90, 02 R50, 06 R506). -/
def execZoneFinish (q cid nsid zslba : Nat) (sel lr : Bool) (s : State) : Res :=
  .next (s.zoneSend q cid nsid zslba sel lr [znEmpty, znImp, znExp, znClosed, znFull] [znImp, znExp, znClosed]
    (fun s c => if s.zst c.zone = znEmpty && s.overQ c.slice then some stQuota else none) State.finishZone)

/-- ZONE_RESET (04 R90, R98). -/
def execZoneReset (q cid nsid zslba : Nat) (sel lr : Bool) (s : State) : Res :=
  .next (s.zoneSend q cid nsid zslba sel lr [znEmpty, znImp, znExp, znClosed, znFull] [znImp, znExp, znClosed, znFull] noChk
    State.zoneReset)

/-- ZONE_OFFLINE (04 R90, R93). -/
def execZoneOffline (q cid nsid zslba : Nat) (sel lr : Bool) (s : State) : Res :=
  .next (s.zoneSend q cid nsid zslba sel lr [znRo, znOff] [znRo] noChk State.offlineZone)

/-- The zone states a reporting option selects, as the ZNS command set numbers them; none for a reserved one. -/
def reportSel (opt z : Nat) : Option Bool :=
  match opt with
  | 0 => some true
  | 1 => some (z = znEmpty)
  | 2 => some (z = znImp)
  | 3 => some (z = znExp)
  | 4 => some (z = znClosed)
  | 5 => some (z = znFull)
  | 6 => some (z = znRo)
  | 7 => some (z = znOff)
  | _ => none

/-- A zone descriptor: type 2, state, attributes (Zone Finished by Controller), capacity, start and write pointer (04 R86,
R107). -/
def State.zoneDesc (s : State) (h : Nat) : List Nat :=
  [2, s.zst h, s.rd F.ZON_ENT0_ZFC h, zoneBlocks, s.rd F.ZON_ENT1_ZSLBA h, s.rd F.ZON_ENT1_ZSLBA h + s.wp h]

/-- REPORT_ZONES (04 R86, R107): zones from the one that holds `slba`, of a reporting option, at most `max` descriptors; the
count is of those returned with Partial Report, else of all that match. -/
def execReportZones (q cid nsid slba opt : Nat) (part : Bool) (max addr : Nat) (s : State) : Res :=
  .next (match s.beginZone q cid .other nsid slba 1 false 0 with
    | .stop s => s
    | .go s c qx n =>
      if (reportSel opt 0).isNone then s.fin c stField
      else
        let d := s.dma qx addr (64 * max + 64) true
        if d.2 != .ok then d.1.dmaEnd c.slice d.2 (fun s => s.fin c stXfer)
        else
          let zs := ((List.range n.zones).map (fun i => n.base + i)).filter (fun h =>
            c.zone ≤ h && (reportSel opt (s.zst h)).getD false)
          let out := zs.take max
          d.1.fin c stOk 0 ((if part then out.length else zs.length) :: out.flatMap s.zoneDesc))

/-- EXTENDED_REPORT_ZONES (04 R86): fails with Invalid Field in Command. -/
def execExtendedReportZones (q cid nsid slba : Nat) (s : State) : Res :=
  .next (match s.beginZone q cid .other nsid slba 1 false 0 with
    | .stop s => s
    | .go s c _ _ => s.fin c stField)

/-- Acts on a command in flight of a queue and of a namespace that exists, where a test holds. -/
def State.withCmd (s : State) (q cid : Nat) (ok : Cmd → Bool) (f : Cmd → Queue → Ns → State) : State :=
  match s.cmdOf q cid with
  | none => s
  | some c =>
    match Tab.find q s.sl.qs, Tab.find c.nsid s.zn.ns with
    | some qx, some n => if ok c then f c qx n else s
    | _, _ => s

/-- A result of a write that a reset dropped: it is discarded and counted (02 R52). -/
def State.ghost (s : State) (q cid : Nat) (last : Bool) : State :=
  match s.cmdOf q cid, s.zn.ghosts.find? (fun g => g.1 = q && g.2.1 = cid) with
  | none, some g =>
    let s := if last then { s with zn := { s.zn with ghosts := s.zn.ghosts.filter (fun x => x != g) } } else s
    s.stale g.2.2
  | _, _ => s

/-- WRITE_ADMIT (06 R144, 03 R505): the reservation of a write that waits for it, if it can be made now. -/
def execWriteAdmit (q cid addr : Nat) (data : List Nat) (s : State) : Res :=
  .next (s.withCmd q cid (fun c => c.st = .staging) (fun c qx n =>
    if c.kind = .writeZeroes then s.admitZeroes c n else s.admitCmd c qx n addr data))

/-- RDMA_READ_RESPONSE (06 R144): data of a fabric write arrives into its reservation. -/
def execRdmaReadResponse (q cid : Nat) (data : List Nat) (s : State) : Res :=
  .next ((s.ghost q cid false).withCmd q cid (fun c => c.st = .admitted) (fun c qx n =>
    if qx.fabric then (s.putCmd { c with data := hostData n c.len (c.data ++ data) }).wantRead qx.qp [] else s))

/-- A write all of whose data is in staging commits, unless the stop instant has passed (02 R53, 04 R504, 06 R145, R159). One whose data is `bad` in
staging fails before its commit point with Internal Error (20 R433). -/
def State.commitCmd (s : State) (q cid : Nat) (bad : Bool) : State :=
  (s.ghost q cid true).withCmd q cid (fun c => c.st = .admitted && c.data.length = c.len && s.stg.commits)
    (fun c _ n => if bad then s.failWrite c n (0, 0x06) else s.commit c n)

/-- ZONE_HOLD_TIMEOUT (04 R95): a held Write that is not fail-fast and was held for HOLD_TMO fails. -/
def execZoneHoldTimeout (q cid : Nat) (s : State) : Res :=
  .next (s.withCmd q cid (fun c => c.st = .held && !c.ff && c.since + s.rd F.ZON_CFG_HOLD_TMO * 1000000 ≤ s.el)
    (fun c _ _ => s.failHeld c stZInvalid))

/-- Whether a command still counts as unfinished at its deadline (03 R72): a read of which no byte was sent, a write that
has not reached its commit point, any zone management or Deallocate. One that is fetched and not begun fails as it begins. -/
def unfinished (c : Cmd) : Bool := !c.sent && c.st != .fetched && !(c.kind = .write && c.st = .media)

/-- DEADLINE_MISS (03 R72, 04 R95): a fail-fast command past its deadline completes with 0xC5. -/
def execDeadlineMiss (q cid : Nat) (s : State) : Res :=
  .next (match s.cmdOf q cid with
    | none => s
    | some c =>
      if !(c.ff && c.dl < s.el && unfinished c) then s
      else if c.st = .held then s.failHeld c stLate
      else
        match Tab.find c.nsid s.zn.ns with
        | some n => s.failWrite c n stLate
        | none => s.fin c stLate)

/-- PLACEMENT_RETRY (04 R103): an activation that waited is tried again from the start. -/
def execPlacementRetry (q cid : Nat) (s : State) : Res :=
  .next (s.withCmd q cid (fun c => c.st = .place) (fun c _ n =>
    if c.kind = .zoneOpen then s.openZone c n else if s.stg.commits then s.commit c n else s))

/-- UNREACH_WAIT_EXPIRY (07 R173): a read that waited UNREACH_WAIT for an unreachable member fails with 0xC8. -/
def execUnreachWaitExpiry (q cid : Nat) (s : State) : Res :=
  .next (match s.cmdOf q cid with
    | some c =>
      if c.st = .unreach && c.since + s.rd F.RDN_CFG_UNREACH_WAIT * 1000000 ≤ s.el then
        (s.inc F.RDN_UNREACH_CNT_CNT).fin c stUnreach
      else s
    | none => s)

end Sys2Proof.Machine
end

