-- ==== Sys2Proof/Machine/Queues.lean ====
section
/-! DEFINITION. The meanings of the queue commands and queue features, interrupts' coalescing and asynchronous event requests
(03 R65, R67, R81-R83, R501; 02 R42, R43, R50; 20 R442). -/

namespace Sys2Proof.Machine

/-- Invalid Queue Identifier. -/
def stQid : Nat × Nat := (1, 0x01)
/-- Invalid Queue Size. -/
def stQsize : Nat × Nat := (1, 0x02)
/-- Completion Queue Invalid. -/
def stCqInvalid : Nat × Nat := (1, 0x00)
/-- Invalid Interrupt Vector. -/
def stVec : Nat × Nat := (1, 0x08)
/-- Invalid Queue Deletion. -/
def stQdel : Nat × Nat := (1, 0x0C)

/-- The function whose queues a sender's queue commands name; a fabric controller has none. -/
def funcOf (o : Org) : Option Nat :=
  match o with
  | .fn n => some n
  | .mi => some 0
  | _ => none

/-- I/O queue pairs a function supports (14 R318). -/
def ioQueues : Nat := 2047

/-- CAP.MQES (14 R318). -/
def mqes : Nat := 4095

/-- Size of a function's MSI-X table (14 R317). -/
def State.vecTable (s : State) (func : Nat) : Nat := ((Tab.find func s.fns).map (·.vecs)).getD 0

/-- Whether a vector of a function is taken: by a completion queue, or on PF0 by an enabled management event vector (03 R81). -/
def State.vecTaken (s : State) (func vec : Nat) : Bool :=
  s.sl.cqs.any (fun c => c.func = func && c.vec = vec)
    || (func = 0 && (List.range 8).any (fun i => s.rd F.LGR_EVT_VEC_EN i = 1 && s.rd F.LGR_EVT_VEC_VECTOR i = vec))

/-- CREATE_IO_COMPLETION_QUEUE (03 R81, R501): `qsize` counts from 0. -/
def execCreateIoCompletionQueue (o : Org) (cid cqid qsize vec : Nat) (s : State) : Res :=
  .next (s.admin o cid (fun s =>
    match funcOf o with
    | none => s.adm o cid stOpcode
    | some f =>
      if cqid = 0 || cqid > ioQueues || s.sl.cqs.any (fun c => c.func = f && c.cqid = cqid) then s.adm o cid stQid
      else if qsize = 0 || qsize > mqes then s.adm o cid stQsize
      else if s.vecTaken f vec || vec ≥ s.vecTable f then s.adm o cid stVec
      else { s with sl := { s.sl with cqs := s.sl.cqs ++ [CQ.mk f cqid vec (qsize + 1) 0 0] } }.adm o cid stOk))

/-- The bindings of a function, PF0's fixed one among them (02 R43). -/
def State.bindsOf (s : State) (f : Nat) : List FBind :=
  (if f = 0 then [FBind.mk 0 none 0 0] else []) ++ s.sl.fbind.filter (fun b => b.func = f)

/-- CREATE_IO_SUBMISSION_QUEUE (02 R42, R43, R50; 03 R65, R67, R501): `bind`, `lc` and `ff` are CDW13[7:0], [10:8] and [11]; `base` is the host
address of its ring. -/
def execCreateIoSubmissionQueue (o : Org) (cid qid qsize cqid bind lc : Nat) (ff : Bool) (base : Nat) (s : State) : Res :=
  .next (s.admin o cid (fun s =>
    match funcOf o with
    | none => s.adm o cid stOpcode
    | some f =>
      if qid = 0 || qid > ioQueues || s.sl.qs.any (fun e => !e.2.fabric && e.2.func = f && e.2.qid = qid) then s.adm o cid stQid
      else if qsize = 0 || qsize > mqes then s.adm o cid stQsize
      else if cqid = 0 || !s.sl.cqs.any (fun c => c.func = f && c.cqid = cqid) then s.adm o cid stCqInvalid
      else
        let bs := s.bindsOf f
        match (if bs.length = 1 then bs.head? else bs.find? (fun b => b.idx = bind)) with
        | none => s.adm o cid (if bs.isEmpty then stQid else stField)
        | some b =>
          if !bit (s.rd F.SLI_WEIGHT_LCMASK b.slice) lc then s.adm o cid stField
          else if !s.qpFree b.slice then s.adm o cid stQid
          else
            match s.freeIdx with
            | none => s.adm o cid stQid
            | some i =>
              let q : Queue := ⟨b.slice, b.idx, f, b.pasid, false, 0, 0, qid, lc, ff, s.nextGen i, cqid, qsize + 1, 0, 0, 0, 0, 0, false, [], base, []⟩
              ((s.putQ i q).useQp b.slice).adm o cid stOk))

/-- DELETE_IO_COMPLETION_QUEUE (03 R501). -/
def execDeleteIoCompletionQueue (o : Org) (cid cqid : Nat) (s : State) : Res :=
  .next (s.admin o cid (fun s =>
    match funcOf o with
    | none => s.adm o cid stOpcode
    | some f =>
      if cqid = 0 || !s.sl.cqs.any (fun c => c.func = f && c.cqid = cqid) then s.adm o cid stQid
      else if s.sl.qs.any (fun e => !e.2.fabric && e.2.func = f && e.2.cqid = cqid) then s.adm o cid stQdel
      else { s with sl := { s.sl with cqs := s.sl.cqs.filter (fun c => !(c.func = f && c.cqid = cqid)) } }.adm o cid stOk))

/-- DELETE_IO_SUBMISSION_QUEUE (03 R501): its commands end as the base specification has them, Aborted due to SQ Deletion. -/
def execDeleteIoSubmissionQueue (o : Org) (cid qid : Nat) (s : State) : Res :=
  .next (s.admin o cid (fun s =>
    match funcOf o with
    | none => s.adm o cid stOpcode
    | some f =>
      match s.sl.qs.find? (fun e => !e.2.fabric && e.2.func = f && e.2.qid = qid && qid != 0) with
      | none => s.adm o cid stQid
      | some e =>
        let s := (s.zn.cmds.filter (fun c => c.q = e.1)).foldl (fun (s : State) c =>
          if c.st = .held then s.failHeld c (0, 0x08) else s.fin c (0, 0x08)) s
        (s.removeQueue e.1).adm o cid stOk))

/-- The device queue index a sender's queue ID names (03 R67). -/
def State.queueOf (s : State) (o : Org) (qid : Nat) : Option (Nat × Queue) :=
  s.sl.qs.find? (fun e => e.2.qid = qid && (match o with
    | .fab a => e.2.fabric && e.2.assoc = a
    | .fn f => !e.2.fabric && e.2.func = f
    | .mi => !e.2.fabric && e.2.func = 0
    | .io _ => false))

/-- SET_FEATURES_QUEUE_CLASS (03 R67): CDW11. -/
def execSetFeaturesQueueClass (o : Org) (cid qid lc : Nat) (ff : Bool) (s : State) : Res :=
  .next (s.admin o cid (fun s =>
    match s.queueOf o qid with
    | none => s.adm o cid stField
    | some (i, q) =>
      if qid = 0 || lc > 7 || !bit (s.rd F.SLI_WEIGHT_LCMASK q.slice) lc then s.adm o cid stField
      else (s.putQ i { q with lc := lc, ff := ff }).adm o cid stOk))

/-- GET_FEATURES_QUEUE_CLASS (03 R67). -/
def execGetFeaturesQueueClass (o : Org) (cid qid : Nat) (s : State) : Res :=
  .next (s.admin o cid (fun s =>
    match s.queueOf o qid with
    | none => s.adm o cid stField
    | some (_, q) => if qid = 0 then s.adm o cid stField else s.adm o cid stOk (qid + q.lc * 2 ^ 16 + b2n q.ff * 2 ^ 19)))

/-- SET_FEATURES_INTERRUPT_COALESCING (03 R82): aggregation time in 100 µs and threshold of the function. -/
def execSetFeaturesInterruptCoalescing (o : Org) (cid time thr : Nat) (s : State) : Res :=
  .next (s.admin o cid (fun s =>
    match funcOf o with
    | none => s.adm o cid stField
    | some f => { s with sl := { s.sl with coal := Tab.put f ⟨cut 8 time, cut 8 thr⟩ s.sl.coal } }.adm o cid stOk))

/-- SET_FEATURES_INT_VECTOR_CONFIG (03 R82): coalescing disable of a vector of the function; one past its table fails with
Invalid Field in Command, as the base specification has it. -/
def execSetFeaturesIntVectorConfig (o : Org) (cid vec : Nat) (cd : Bool) (s : State) : Res :=
  .next (s.admin o cid (fun s =>
    match funcOf o with
    | none => s.adm o cid stField
    | some f =>
      if vec ≥ s.vecTable f then s.adm o cid stField
      else (s.putVec { s.vecOf f vec with cd := cd }).adm o cid stOk))

/-- AGGREGATION_TIME_EXPIRY (03 R82; 02 R52): what waits on a vector is signalled once the aggregation time has passed; what a reset has made
stale meanwhile is discarded. -/
def execAggregationTimeExpiry (func vec : Nat) (s : State) : Res :=
  .next (
    let v := s.vecOf func vec
    let t := ((Tab.find func s.sl.coal).map (·.time)).getD 0
    if v.waiting.isEmpty || s.el < v.since + t * 100000 then s
    else
      let old := v.waiting.filter (fun m => !s.live m.slice m.q m.genS m.genQ)
      let s := old.foldl (fun (s : State) m => s.stale m.slice) (s.putVec { v with waiting := [] })
      if old.length = v.waiting.length then s else s.send (.msix func vec))

/-- ASYNC_EVENT_REQUEST (20 R442): held until a notice for its controller; one that waits completes it at once. -/
def execAsyncEventRequest (o : Org) (cid : Nat) (s : State) : Res :=
  .next (s.admin o cid (fun s =>
    let c := ctlOf o
    match s.ras.notices.find? (fun n => n.1 = c) with
    | some n =>
      { s with ras := { s.ras with notices := s.ras.notices.filter (fun m => m != n) } }.adm o cid stOk
        (n.2.1 + n.2.2.1 * 2 ^ 8 + n.2.2.2 * 2 ^ 16)
    | none => { s with ras := { s.ras with aers := s.ras.aers ++ [(c, o, cid)] } }))

end Sys2Proof.Machine
end

