-- ==== Sys2Proof/Machine/RasOps.lean ====
section
/-! DEFINITION. The ingest ceiling, the SMART log's critical warning, and byte helpers of the log pages (01 R31; 20 R438, R444;
18 R413). -/

namespace Sys2Proof.Machine

/-! ### The ingest ceiling (01 R31) -/

/-- A link's record. -/
def State.link8 (s : State) (l : Nat) : Link := (Tab.find l s.kz.links).getD Link.fresh

/-- Puts a link's record. -/
def State.putLink8 (s : State) (l : Nat) (x : Link) : State := { s with kz := { s.kz with links := Tab.put l x s.kz.links } }

/-- State of hop `h` of link `l`, with the codes of KZL_STS.HOP0 (08 R186, R206). -/
def State.hopSt (s : State) (l h : Nat) : Nat := if h = 0 then s.rd F.KZL_STS_HOP0 l else s.rd F.KZL_BID_HOP l h

/-- DETECT, RESET, ACQUIRE, EQ, ALIGN, ACTIVE, QUIET, RECOVER and DOWN (08 R206). -/
def hDetect : Nat := 0
/-- RESET. -/
def hReset : Nat := 1
/-- ALIGN. -/
def hAlign : Nat := 4
/-- ACTIVE. -/
def hActive : Nat := 5
/-- QUIET, the substate of ACTIVE. -/
def hQuiet : Nat := 6
/-- RECOVER. -/
def hRecover : Nat := 7
/-- DOWN. -/
def hDown : Nat := 8

/-- A link's share in eighths: twice the narrowest ALIGN width of its hops, halved while one engine serves its pair (08 R205), 0 while
hop 0 is DOWN or no hop has a width (01 R31). -/
def State.linkShare (s : State) (l : Nat) : Nat :=
  let ws := ((s.link8 l).hops.map (·.width)).filter (fun w => w != 0)
  if s.hopSt l 0 = hDown || s.rd F.KZL_CTL_EN l = 0 || s.rd F.KZL_STS_ENGINE l = 2 then 0
  else
    let w := ws.foldl min 4
    if ws.isEmpty then 0 else if s.rd F.KZL_STS_ENGINE l = 1 || s.rd F.KZL_STS_ENGINE (Nat.xor l 1) = 1 then w else 2 * w

/-- Working links, in eighths of a link. -/
def State.linkEighths (s : State) : Nat := ((List.range 64).map s.linkShare).sum

/-- Frame lanes in service. -/
def State.laneCount (s : State) : Nat := ((List.range 64).filter s.laneUp).length

/-- The number of decoders in service. -/
def State.decCount (s : State) : Nat := ((List.range 128).filter s.decUp).length

/-- The ingest ceiling in bytes per ms (01 R31). -/
def State.ceilBytes (s : State) : Nat :=
  min (min 1600000000 (s.linkEighths * 29500000 * 16 / (8 * 18)))
    (min (s.workDies * 650000 * 16 / 18) (s.laneCount * 52000000 / 2))

/-- Recomputes RAS_CAP and reports the ceiling in CEILING: always after a fence or a return (20 R438, R439), else where it
changed (01 R31). -/
def State.ceiling (s : State) (always : Bool) : State :=
  let g := s.ceilBytes / 1000000
  let old := s.rd F.RAS_CAP_INGEST_GBS
  let s := ((((s.wr F.RAS_CAP_INGEST_GBS g).wr F.RAS_CAP_LINK_EIGHTHS s.linkEighths).wr F.RAS_CAP_DIES s.workDies).wr
    F.RAS_CAP_LANES s.laneCount).wr F.RAS_CAP_DECODERS s.decCount
  if always || g != old then s.raise evCeiling 0xFFFF g else s

/-! ### The SMART log (20 R444) -/

/-- Every controller: the manager's, the enabled functions and the fabric associations. -/
def State.allCtls (s : State) : List Ctl :=
  Ctl.mgr :: (s.fns.filter (fun e => e.1 != 0 && e.2.ccEn)).map (fun e => Ctl.fn e.1) ++ s.assocs.map (fun e => Ctl.fab e.1)

/-- Raises the SMART/Health notice for each Critical Warning bit that becomes set, and keeps the byte (20 R444). The notice's
information is the base specification's: 0 reliability, 1 temperature, 2 spare. -/
def State.critCheck (s : State) : State :=
  let old := s.rd F.RAS_STS_CRIT_WARN
  let new := s.critNow
  let s := s.wr F.RAS_STS_CRIT_WARN new
  let fresh := (List.range 8).filter (fun b => bit new b && !bit old b)
  fresh.foldl (fun (s : State) b =>
    s.allCtls.foldl (fun (s : State) c => s.notify c 1 (if b = 0 then 2 else if b = 1 then 1 else 0) 0x02) s) s

/-! ### Bytes of log pages -/

/-- The part of a page that a Get Log Page names by offset and length in bytes. -/
def pagePart (page : List Nat) (off len : Nat) : List Nat := (page.drop off).take len

/-- The bytes of an event queue entry (20 R443). -/
def EvEnt.bytes (e : EvEnt) : List Nat := toLe 8 e.ns ++ toLe 2 e.code ++ toLe 2 e.slice ++ toLe 4 e.seq ++ toLe 8 e.arg ++ toLe 8 0

end Sys2Proof.Machine
end

