-- ==== Sys2Proof/Machine/Logs.lean ====
section
/-! DEFINITION. The meanings of Get Log Page (16 R366; 19 R430; 20 R442-R445; 04 R92). -/

namespace Sys2Proof.Machine

/-- The entries of the event queue that a view shows: every one to the manager; to a controller of a slice the entries it is
entitled to and has not removed (20 R442). -/
def State.evShown (s : State) (c : Ctl) : List EvEnt :=
  match c with
  | .mgr => s.ras.evq
  | _ => s.ras.evq.filter (fun e =>
      sliceEvent e.code && e.slice != 0xFFFF && (s.ctlsOf e.slice).contains c && !(s.viewOf c).removed.contains e.seq)

/-- Removes entries that the manager read from the queue; each one that an entitled controller had not removed counts as lost
for it (20 R442). -/
def State.evTake (s : State) (es : List EvEnt) : State :=
  let s := es.foldl (fun (s : State) e =>
    if sliceEvent e.code && e.slice != 0xFFFF then
      (s.ctlsOf e.slice).foldl (fun (s : State) c => if (s.viewOf c).removed.contains e.seq then s else s.loseFor c) s
    else s) s
  let gone := es.map (·.seq)
  { s with ras := { s.ras with
      evq := s.ras.evq.filter (fun (e : EvEnt) => !gone.contains e.seq)
      views := s.ras.views.map (fun (v : EvView) => { v with removed := v.removed.filter (fun q => !gone.contains q) }) } }

/-- GET_LOG_PAGE_EVENT_QUEUE (20 R442, R443): page 0xD0 as the reader's view shows it, from `off` for `len` bytes. With Retain
Asynchronous Event clear, the entries wholly returned are removed, the reading controller's classes unmasked (log 17) and its lost count restarts. -/
def execGetLogPageEventQueue (o : Org) (cid off len : Nat) (rae : Bool) (s : State) : Res :=
  .next (s.admin o cid (fun s =>
    let c := ctlOf o
    let es := s.evShown c
    let v := s.viewOf c
    let page := toLe 4 (64 + 32 * es.length) ++ toLe 4 es.length ++ toLe 4 v.lost ++ List.replicate 52 0 ++ es.flatMap EvEnt.bytes
    let got := (es.mapIdx (fun i e => (i, e))).filter (fun p => off ≤ 64 + 32 * p.1 && 64 + 32 * p.1 + 32 ≤ off + len)
    let s1 := if rae then s else
      let s := s.putView { v with masked := if o = .mi then v.masked else [], lost := 0 }
      if c = .mgr then s.evTake (got.map (·.2))
      else
        let w := s.viewOf c
        s.putView { w with removed := w.removed ++ got.map (·.2.seq) }
    s1.adm o cid stOk 0 (pagePart page off len)))

/-- GET_LOG_PAGE_CHANGED_ZONE_LIST (20 R444, 04 R92): the reader's list for a namespace, in the layout of the zoned command set:
the count, or 0xFFFF and no zone where there are more than 511; the read clears that list. -/
def execGetLogPageChangedZoneList (o : Org) (cid nsid : Nat) (s : State) : Res :=
  .next (s.admin o cid (fun s =>
    let c := ctlOf o
    let zs := (s.ras.czl.filter (fun e => e.1 = c && e.2.1 = nsid)).map (·.2.2)
    let page := if zs.length > 511 then toLe 8 0xFFFF else toLe 8 zs.length ++ zs.flatMap (toLe 8)
    { s with ras := { s.ras with czl := s.ras.czl.filter (fun (e : Ctl × Nat × Nat) => !(e.1 = c && e.2.1 = nsid)) } }.adm o cid stOk 0
      (page ++ List.replicate (4096 - page.length) 0)))

/-- The bytes of a sweep record (16 R366): the header gives ID, kind and start, and one entry stands for each global die. -/
def State.sweepPage (s : State) (k : Nat) : List Nat :=
  match s.pup.sweeps.getD k none with
  | none => List.replicate (64 + 16 * 4096) 0
  | some w =>
    toLe 4 w.id ++ toLe 4 k ++ toLe 8 w.start ++ List.replicate 48 0
      ++ (List.range 4096).flatMap (fun d =>
        match Tab.find d w.ents with
        | some e => toLe 8 e.ns ++ [e.st, e.tiers] ++ List.replicate 6 0
        | none => toLe 8 0 ++ [3, 0] ++ List.replicate 6 0)

/-- GET_LOG_PAGE_CALIBRATION_SWEEP (16 R366): page 0xD1. -/
def execGetLogPageCalibrationSweep (o : Org) (cid off len : Nat) (s : State) : Res :=
  .next (s.admin o cid (fun s => s.adm o cid stOk 0 (pagePart (s.sweepPage 0) off len)))

/-- GET_LOG_PAGE_TEMPERATURE_SWEEP (16 R366): page 0xD2. -/
def execGetLogPageTemperatureSweep (o : Org) (cid off len : Nat) (s : State) : Res :=
  .next (s.admin o cid (fun s => s.adm o cid stOk 0 (pagePart (s.sweepPage 1) off len)))

/-- A recorder page (19 R430): the header gives length, record count, TIME_NS of the flush, kind and sectors skipped. -/
def recPage (ns kind : Nat) (rs : List Rec) : List Nat :=
  toLe 4 (64 + recsLen rs) ++ toLe 4 rs.length ++ toLe 8 ns ++ toLe 1 kind ++ toLe 2 0 ++ List.replicate 45 0 ++ rs.flatMap Rec.bytes

/-- Answers a recorder page: from slice 0 only (19 R430). -/
def State.recLog (s : State) (o : Org) (cid off len : Nat) (page : State → List Nat) : State :=
  s.admin o cid (fun s => if isMgr o then s.adm o cid stOk 0 (pagePart (page s) off len) else s.adm o cid stLogPage)

/-- GET_LOG_PAGE_RECORDER_LIVE (19 R430): page 0xD3; reading does not clear the buffer. -/
def execGetLogPageRecorderLive (o : Org) (cid off len : Nat) (s : State) : Res :=
  .next (s.recLog o cid off len (fun s => recPage 0 0 s.evr.recs))

/-- GET_LOG_PAGE_RECORDER_NAND (19 R430): page 0xD4, copy `lsp`, newest first; one that is not held gives an empty page. -/
def execGetLogPageRecorderNand (o : Org) (cid lsp off len : Nat) (s : State) : Res :=
  .next (s.recLog o cid off len (fun s =>
    match s.evr.nand[cut 4 lsp]? with
    | some c => recPage c.ns c.kind c.recs
    | none => recPage 0 0 []))

/-- The flushes the NOR ring holds, newest first, each with its sectors in sequence order: a sector of part 0 starts one
(19 R428). -/
def norFlushes : List NorSect → List (List NorSect) → List (List NorSect)
  | [], acc => acc
  | x :: xs, acc =>
    if x.part = 0 then norFlushes xs ([x] :: acc)
    else
      match acc with
      | g :: gs => norFlushes xs ((g ++ [x]) :: gs)
      | [] => norFlushes xs [[x]]

/-- GET_LOG_PAGE_RECORDER_NOR (19 R430): page 0xD5, flush `lsp` of the ring. -/
def execGetLogPageRecorderNor (o : Org) (cid lsp off len : Nat) (s : State) : Res :=
  .next (s.recLog o cid off len (fun s =>
    match (norFlushes s.evr.nor [])[cut 4 lsp]? with
    | some (x :: xs) => recPage x.ns x.kind ((x :: xs).flatMap (·.recs))
    | _ => recPage 0 0 []))

/-- A temperature as the SMART log reports it, in kelvins; a sensor that reports none reads 0. -/
def State.kelvin (s : State) (k : Nat) : Nat := ((s.tempOf k).map (fun t => (t + 273).toNat)).getD 0

/-- GET_LOG_PAGE_SMART_HEALTH (20 R444, 18 R413): the fields the rules give, in this order: Critical Warning, Composite
Temperature, Available Spare, its threshold, Percentage Used, Unsafe Shutdowns, Media and Data Integrity Errors, Error
Information entries, Temperature Sensors 1 to 8. -/
def execGetLogPageSmartHealth (o : Org) (cid : Nat) (s : State) : Res :=
  .next (s.admin o cid (fun s => s.adm o cid stOk 0
    ([s.critNow, s.kelvin 0, s.availSpare, 10, s.rd F.MED_WEAR_PCT_USED, s.ras.unsafeCnt, s.ras.integrity, s.rd F.RAS_ERRLOG_COUNT]
      ++ (List.range 8).map (fun i => s.kelvin (i + 1)))))

/-- A sender as a number: its kind and its index. -/
def Org.num : Org → Nat
  | .fn n => n
  | .fab a => 2 ^ 32 + a
  | .mi => 2 ^ 33
  | .io q => 2 ^ 34 + q

/-- GET_LOG_PAGE_ERROR_INFORMATION (20 R445): the first `n` entries, newest first; of each its number, sender, command
identifier, status code type, status code, and the global die, or 2³² − 1, in its vendor-specific field. -/
def execGetLogPageErrorInformation (o : Org) (cid n : Nat) (s : State) : Res :=
  .next (s.admin o cid (fun s => s.adm o cid stOk 0
    ((s.ras.errs.take n).flatMap (fun e => [e.num, e.org.num, e.cid, e.sct, e.sc, e.die.getD (2 ^ 32 - 1)]))))

end Sys2Proof.Machine
end

