-- ==== Sys2Proof/Machine/PupOps.lean ====
section
/-! DEFINITION. The Puppeteer's mailbox, timers and sweeps as the other parts use them (16 R355-R357, R366, R367; 08 R201), and the
steps of TIME_NS (19 R421). -/

namespace Sys2Proof.Machine

/-- Returns entries in service to pending with REDELIVER (16 R349, R361). -/
def State.redeliver (s : State) : State :=
  { s with pup := { s.pup with
      pend := s.pup.insvc.map (fun (e : MbxEnt) => { e with redel := true }) ++ s.pup.pend
      insvc := [] } }

/-- The pending entry with the earliest time stamp, ties going to the lower source (16 R357). -/
def earliest : List MbxEnt → Option MbxEnt
  | [] => none
  | e :: es =>
    match earliest es with
    | none => some e
    | some m => if e.ns < m.ns || (e.ns = m.ns && e.src ≤ m.src) then some e else some m

/-- A step of TIME_NS by `d` ns (19 R421): elapsed time, on which arrivals, deadlines, timeouts and the epoch boundary are
kept, does not move, so only the timers' compare values take the difference; it is logged and counted. -/
def State.timeStep (s : State) (d : Int) : State :=
  let s := { s with tim := { s.tim with ofs := s.tim.ofs + d } }
  let s := (List.range 16).foldl (fun (s : State) i =>
    s.wr F.PUP_TMR_CMP_CMP (ofSigned 64 ((s.rd F.PUP_TMR_CMP_CMP i : Int) + d)) i) s
  (s.inc F.TIM_PPS_CNT_STEPS).raise evTimStep 0xFFFF (ofSigned 64 d)

/-- Sets TIME_NS as a step (19 R422): a request that waited for an edge is replaced. -/
def State.setTime (s : State) (t : Nat) : State :=
  let s := s.timeStep ((t : Int) - s.tns)
  ((s.wr F.TIM_STS_SRC 3).wr F.TIM_STS_SET_PEND 0).raise evTimeSet 0xFFFF (cut 64 t)

/-! ### Sweep records -/

/-- Puts the record of sweep kind `k`. -/
def State.putSweep (s : State) (k : Nat) (w : Sweep) : State :=
  let l := (List.range 2).map (fun i => if i = k then some w else s.pup.sweeps.getD i none)
  { s with pup := { s.pup with sweeps := l } }

/-- Entries of a record in a state. -/
def Sweep.count (w : Sweep) (st : Nat) : Nat := (w.ents.filter (fun e => e.2.st = st)).length

/-- PUP_SWEEP_STS of a record (16 R369): running while a die is PENDING, else waiting while a die is UNREACHED. -/
def State.sweepSts (s : State) (k : Nat) : State :=
  match s.pup.sweeps.getD k none with
  | none => s
  | some w =>
    let st := if w.count 0 > 0 then 1 else if w.count 2 > 0 then 2 else 0
    (((s.wr F.PUP_SWEEP_STS_STATE st k).wr F.PUP_SWEEP_STS_DONE (w.count 1) k).wr F.PUP_SWEEP_STS_UNREACHED (w.count 2) k).wr
      F.PUP_SWEEP_STS_ID w.id k

/-- Changes the entries of both records that concern dies that pass a test. -/
def State.sweepMap (s : State) (ok : Nat → Bool) (f : SwEnt → SwEnt) : State :=
  (List.range 2).foldl (fun (s : State) k =>
    match s.pup.sweeps.getD k none with
    | none => s
    | some w =>
      (s.putSweep k { w with ents := w.ents.map (fun (e : Nat × SwEnt) => if ok e.1 then (e.1, f e.2) else e) }).sweepSts k) s

/-- A chain break under a sweep (08 R201): dies beyond it that are not measured become UNREACHED. -/
def State.sweepBreak (s : State) (ok : Nat → Bool) : State :=
  s.sweepMap ok (fun e => if e.st = 0 then { e with st := 2, busy := false } else e)

/-- A hop heals (08 R201): UNREACHED dies are to be measured again. -/
def State.sweepHeal (s : State) (ok : Nat → Bool) : State := s.sweepMap ok (fun e => if e.st = 2 then { e with st := 0 } else e)

/-- A die is retired (16 R368): its measurement is discarded and it becomes SKIPPED. -/
def State.sweepSkip (s : State) (d : Nat) : State :=
  s.sweepMap (fun x => x = d) (fun e => if e.st = 0 || e.st = 2 then { e with st := 3, busy := false } else e)

/-- Measurements in progress are discarded and their dies stay PENDING (16 R367). -/
def State.sweepDrop (s : State) : State := s.sweepMap (fun _ => true) (fun e => { e with busy := false })

end Sys2Proof.Machine
end

