-- ==== Sys2Proof/Machine/Time.lean ====
section
/-! DEFINITION. The meanings of the time base's and the recorder's commands, and what the block does on an empty queue: one REFCLK
cycle (19 R416-R431). -/

namespace Sys2Proof.Machine

/-- Whether TIME_NS runs (19 R416): the controller has power and REFCLK, and is not in Jack. -/
def State.counting (s : State) : Bool := s.img.por && !s.pwr.jack && !s.img.refLost

/-- The increment of a REFCLK cycle without correction: 6.4 ns in 2^-32 ns, cut to whole units (log 49). -/
def cycleFx : Nat := 27487790694

/-- What a cycle adds (19 R416, R419): 6.4 ns, the correction in ppb, and the part of the slew that SLEW_PPM allows. -/
def State.tickFx (s : State) : Int × Int :=
  let f := toSigned 32 (s.rd F.TIM_FREQ_VALUE)
  let lim : Int := (cycleFx : Int) * s.rd F.TIM_CFG_SLEW_PPM / 1000000
  let sl := if s.tim.slew ≥ 0 then min s.tim.slew lim else max s.tim.slew (-lim)
  ((cycleFx : Int) + (cycleFx : Int) * f / 1000000000 + sl, sl)

/-- Nothing that holds Run: no command outstanding but Asynchronous Event Requests, which wait for events and not for work (log 85), no stream that
runs, and no background work that BG_HOLD lets hold Run (18 R396). -/
def State.idleNow (s : State) : Bool :=
  s.zn.cmds.isEmpty
    && s.sl.qs.all (fun e => e.2.pend.isEmpty && e.2.outst ≤ (s.ras.aers.filter (fun a => (s.admQ a.2.1).map (·.1) = some e.1)).length)
    && s.cap.streams.all (fun e => e.2.state = stIdle)
    && (s.rd F.PWR_CFG_BG_HOLD = 0 ||
      (s.ftl.relocs.isEmpty && s.rdn.reshape.isNone && !s.rdn.subst.any (fun e => !e.done)
        && !s.allRows.any (fun e => !e.2.elig.isEmpty)))

/-- One REFCLK cycle (19 R416): TIME_NS advances; the controller notes when it was last not idle (18 R396). -/
def State.cycle (s : State) : State :=
  if !s.counting then s else
  let p := s.tickFx
  let left := s.tim.slew - p.2
  let s := { s with tim := { s.tim with elFx := s.tim.elFx + p.1.toNat, slew := left } }
  let s := s.wr F.TIM_STS_SLEWING (b2n (left != 0))
  if s.idleNow then s else { s with pwr := { s.pwr with busyAt := s.el } }

/-- SET_FEATURES_TIMESTAMP (19 R422): from PF0 and NVMe-MI; the time becomes the value in ms plus the time since the command
arrived. -/
def execSetFeaturesTimestamp (o : Org) (cid ms waited : Nat) (s : State) : Res :=
  .next (s.admin o cid (fun s =>
    if isMgr o then (s.setTime (cut 48 ms * 1000000 + waited)).adm o cid stOk else s.adm o cid (1, 0x0E)))

/-- GET_FEATURES_TIMESTAMP (19 R417): the time in ms; Origin 01b while SRC is SET; Synch while it is RESTORED or ESTIMATED, in the
base specification's layout. -/
def execGetFeaturesTimestamp (o : Org) (cid : Nat) (s : State) : Res :=
  .next (s.admin o cid (fun s =>
    let src := s.rd F.TIM_STS_SRC
    s.adm o cid stOk 0 (toLe 6 (s.tns / 1000000) ++ [b2n (src = 1 || src = 2) + 2 * b2n (src = 3), 0])))

/-- The phase error of an edge now (19 R418). -/
def State.ppsErr (s : State) : Int :=
  let c := (s.tns : Int) - toSigned 32 (s.rd F.TIM_PPS_OFS_OFS)
  c - ((c + 500000000) / 1000000000) * 1000000000

/-- A value held in `w` bits of two's complement, saturating. -/
def satSigned (w : Nat) (x : Int) : Nat := ofSigned w (max (-(2 ^ (w - 1) : Int)) (min x (2 ^ (w - 1) - 1)))

/-- An edge is accepted (19 R418-R420, R422): it is stamped and counted, holdover ends, a TIM_SET that waits takes effect, and
otherwise the counter slews or steps by the error. -/
def State.ppsAccept (s : State) (e : Int) : State :=
  let was := s.rd F.TIM_STS_PPS
  let at0 := s.tns
  let s := { s with tim := { s.tim with lastAcc := some s.el, outside := [] } }
  let s := ((s.wr F.TIM_PPS_LAST_NS at0).inc F.TIM_PPS_CNT_ACCEPT).wr F.TIM_STS_PPS 1
  let s := if was = 2 then s.raise evHoldExit 0xFFFF (ofSigned 64 e) else s
  if s.rd F.TIM_STS_SET_PEND = 1 then
    s.setTime (((s.rd F.TIM_SET_SEC * 1000000000 : Nat) : Int) + toSigned 32 (s.rd F.TIM_PPS_OFS_OFS)).toNat
  else if e.natAbs ≤ 10000 then
    let f := toSigned 32 (s.rd F.TIM_FREQ_VALUE) - Int.tdiv e 8
    let s := { s with tim := { s.tim with slew := -e * 2 ^ 32 } }
    (s.wr F.TIM_FREQ_VALUE (ofSigned 32 (max (-200000) (min f 200000)))).wr F.TIM_STS_SLEWING (b2n (e != 0))
  else s.timeStep (-e)

/-- Whether errors all agree within 10 µs. -/
def agree (l : List Int) : Bool := l.all (fun a => l.all (fun b => (a - b).natAbs ≤ 10000))

/-- PPS_EDGE (19 R418, R419; 16 R356): a rising edge of TIME_PPS now. -/
def execPpsEdge (s : State) : Res :=
  .next (
    if !s.counting then s
    else
      let s := s.edge 16 0
      if s.rd F.TIM_CFG_PPS_EN = 0 then s
      else
        let gap := match s.tim.lastAcc with
          | some t => s.el - t
          | none => 500000000
        if gap < 500000000 then s.raise evPpsGlitch 0xFFFF gap
        else
          let e := s.ppsErr
          let s := s.wr F.TIM_PPS_ERR_VALUE (satSigned 32 e)
          if e.natAbs ≤ 1000000 then s.ppsAccept e
          else
            let l := (e :: s.tim.outside).take 15
            let n := s.rd F.TIM_CFG_OUT_N
            if n ≤ l.length && agree (l.take n) then s.ppsAccept e
            else ({ s with tim := { s.tim with outside := l } }.inc F.TIM_PPS_CNT_OUTSIDE).raise evPpsOutside 0xFFFF (ofSigned 64 e))

/-- HOLDOVER_ENTER (19 R420): HOLD_MS after the last accepted edge; a slew in progress stops. -/
def execHoldoverEnter (s : State) : Res :=
  .next (
    match s.tim.lastAcc with
    | some t =>
      if s.rd F.TIM_STS_PPS = 1 && t + s.rd F.TIM_CFG_HOLD_MS * 1000000 ≤ s.el then
        let s := { s with tim := { s.tim with slew := 0 } }
        ((s.wr F.TIM_STS_PPS 2).wr F.TIM_STS_SLEWING 0).raise evHoldEnter 0xFFFF (s.rd F.TIM_PPS_LAST_NS)
      else s
    | none => s)

/-- What a write of GO does (19 R422): while LOCKED it waits for the next accepted edge. -/
def State.timSetGo (s : State) : State :=
  if s.rd F.TIM_STS_PPS = 1 then s.wr F.TIM_STS_SET_PEND 1 else s.setTime (s.rd F.TIM_SET_SEC * 1000000000)

/-- TIM_SET_GO (19 R422): a write of SEC with GO set. -/
def execTimSetGo (sec : Nat) (s : State) : Res := .next ((s.wr F.TIM_SET_SEC sec).timSetGo)

/-- EVENT_RAISE (20 R441, R442; 19 R423): an event of any block or of Puppeteer firmware; `slice` is 0xFFFF where it has none. -/
def execEventRaise (code slice arg : Nat) (s : State) : Res := .next (s.raise (cut 16 code) (cut 16 slice) (cut 64 arg))

/-- Empties the recorder's buffer and resumes recording (19 R423). -/
def State.evrClear (s : State) : State :=
  ({ s with evr := { s.evr with recs := [], used := 0 } }.wr F.EVR_STS_FULL 0).wr F.EVR_LOST_CNT 0

/-- EVR_CLEAR (19 R423). -/
def execEvrClear (s : State) : Res := .next s.evrClear

/-- EVR_FLUSH (19 R427). -/
def execEvrFlush (s : State) : Res := .next s.faultFlush

end Sys2Proof.Machine
end

