-- ==== Sys2Proof/Machine/DrcOps.lean ====
section
/-! DEFINITION. The DRAM controller's addresses, ECC, queues and order of service, and the CXL window they serve (15 R331-R334, R339, R340; 14
R321-R324; 06 R160). -/

namespace Sys2Proof.Machine

/-! ### Addresses (15 R331, R332) -/

/-- Bursts of installed DRAM. -/
def State.bursts (s : State) : Nat := s.rd F.DRC_CFG_CAP_GIB * 2 ^ 24

/-- The width of the column field: 7 for x4 devices, 6 for x8. -/
def State.colBits (s : State) : Nat := if s.rd F.DRC_CFG_X8 = 1 then 6 else 7

/-- The parity of a number's bits. -/
def parity (v : Nat) : Nat := ((List.range 40).filter (fun i => bit v i)).length % 2

/-- Selector output `k` of a DPA: 0 SC, 1–3 CH, 4–6 BG, 7–8 BA, 9 RK. -/
def State.sel (s : State) (dpa k : Nat) : Nat := parity (Nat.land dpa (s.rd F.DRC_BANK_HASH_MASK k))

/-- Channel of a DPA. -/
def State.chOf (s : State) (dpa : Nat) : Nat := s.sel dpa 1 + 2 * s.sel dpa 2 + 4 * s.sel dpa 3

/-- Rank of a DPA; 0 where there is one. -/
def State.rankOf (s : State) (dpa : Nat) : Nat := if s.rd F.DRC_CFG_DUAL = 1 then s.sel dpa 9 else 0

/-- Bank of a DPA within the device: channel, subchannel, rank, bank group and bank. -/
def State.bankOf (s : State) (dpa : Nat) : Nat :=
  ((((s.chOf dpa * 2 + s.rankOf dpa) * 2 + s.sel dpa 0) * 8 + (s.sel dpa 4 + 2 * s.sel dpa 5 + 4 * s.sel dpa 6)) * 4)
    + (s.sel dpa 7 + 2 * s.sel dpa 8)

/-- Row of a DPA: every bit above the rank's, or above the column where there is one rank. -/
def State.rowOfDpa (s : State) (dpa : Nat) : Nat := dpa / 2 ^ (15 + s.colBits + s.rd F.DRC_CFG_DUAL)

/-- Logs a parity error or poison of the Puppeteer; while an error is logged, later ones only count (16 R353, R369). -/
def State.parLog (s : State) (mem addr : Nat) : State :=
  if s.rd F.PUP_PAR_LOG_VALID = 1 then s
  else ((s.wr F.PUP_PAR_LOG_VALID 1).wr F.PUP_PAR_LOG_MEM mem).wr F.PUP_PAR_LOG_ADDR addr

/-! ### ECC (15 R339, R340) -/

/-- Logs an error unless one is logged already. -/
def State.eccLog (s : State) (dpa : Nat) (ue dev poison : Bool) (sym : Nat) : State :=
  if s.rd F.DRC_ECC_LOG_VALID = 1 then s
  else
    let s := ((s.wr F.DRC_ECC_LOG_VALID 1).wr F.DRC_ECC_LOG_UE (b2n ue)).wr F.DRC_ECC_LOG_DEV (b2n dev)
    ((s.wr F.DRC_ECC_LOG_POISON (b2n poison)).wr F.DRC_ECC_LOG_SYM sym).wr F.DRC_ECC_ADDR_BURST (dpa / 64)

/-- A corrected burst (R340): counted by channel, for the rate check of 20 R434, and in the tables of correctable errors. -/
def State.dramCe (s : State) (dpa sym : Nat) : State :=
  let s := (s.inc F.DRC_ECC_CNT_CE (s.chOf dpa)).eccLog dpa false false false sym
  let s := { s with ras := { s.ras with ceSec := s.ras.ceSec + 1 } }
  s.correctable 13 (dpa / 64 * 64)

/-- An uncorrectable burst (R340): counted, logged, and DRAM_UE raised with its DPA. -/
def State.dramUe (s : State) (dpa : Nat) (dev : Bool) : State :=
  let s := s.inc F.DRC_ECC_CNT_UE (s.chOf dpa)
  let s := s.inc F.RAS_MEM_CNT_UE 13
  let s := s.eccLog dpa true dev (s.drc.poison.contains (dpa / 64)) 0
  s.raise evDramUe 0xFFFF (dpa / 64 * 64)

/-- Marks a burst with the poison check pattern. -/
def State.setPoison (s : State) (b : Nat) : State :=
  { s with drc := { s.drc with poison := if s.drc.poison.contains b then s.drc.poison else s.drc.poison ++ [b] } }

/-- Clears the poison of a burst: a full write. -/
def State.clrPoison (s : State) (b : Nat) : State :=
  { s with drc := { s.drc with poison := s.drc.poison.filter (fun x => x != b) } }

/-- The line of the map cache that an uncorrectable error hit (11 R261): lookups to its page wait while it is filled again, or,
if dirty, rebuilt. -/
def State.lineUe (s : State) (nsid page : Nat) : State :=
  let s := s.inc F.MCACHE_ERR_DATA_UE
  match s.mcFind nsid page with
  | some l => if l.pending then s else (if l.dirty then s else s.chargeFill (s.nsSlice nsid)).putLine { l with pending := true }
  | none => s

/-- What the owner of an uncorrectable burst does (R340, R341). Region 0 is a map cache line (`a` its NSID, `b` its page), 1 a
resident table, 2 read-channel corrections (`a` their number), 3 a spilled parity slot, 4 the CXL window, 5 Puppeteer data,
others no owner's. Tables and parity are rebuilt in place from what the model holds of them. -/
def State.regionUe (s : State) (dpa region a b : Nat) : State :=
  match region with
  | 0 => s.lineUe a b
  | 1 => s
  | 2 => { s with die := { s.die with corr := Tab.del a s.die.corr } }
  | 3 => s
  | 4 => s.setPoison (dpa / 64)
  | 5 => (s.setPoison (dpa / 64)).parLog 4 dpa
  | _ => s.clrPoison (dpa / 64)

/-! ### The CXL window (14 R321-R324; 06 R160; 15 R339) -/

/-- The bytes of the window. -/
def State.winSize (s : State) : Nat := s.rd F.PCX_CXL_CFG_SIZE * 2 ^ 30

/-- Whether a DPA lies in the persistent range. -/
def State.persistent (s : State) (dpa : Nat) : Bool :=
  (s.rd F.PCX_CXL_CFG_SIZE - s.rd F.PCX_CXL_CFG_PERSIST) * 2 ^ 30 ≤ dpa && dpa < s.winSize

/-- A burst of the window; zeros where none is listed. -/
def State.burst64 (s : State) (b : Nat) : Nat := (Tab.find b s.pcx.win).getD 0

/-- Holds a burst of the window; zeros are not listed. -/
def State.putBurst (s : State) (b v : Nat) : State :=
  { s with pcx := { s.pcx with win := if v = 0 then Tab.del b s.pcx.win else Tab.put b v s.pcx.win } }

/-- A burst with some of its bytes written: those whose bit of the mask is set. -/
def mergeBytes (old new mask : Nat) : Nat :=
  ((List.range 64).map (fun i => bits (if bit mask i then new else old) (8 * i) 8 * 2 ^ (8 * i))).sum

/-- Every byte of a burst. -/
def allBytes : Nat := 2 ^ 64 - 1

/-- The limit of dirty granules: DIRTY_MAX in 64 MiB (06 R160). -/
def State.dirtyMax (s : State) : Nat := s.rd F.MED_PF_CFG_DIRTY_MAX * 1024

/-- A write reaches the window: a full burst clears poison; a partial one reads the burst first, and one found uncorrectable is stored poisoned
(15 R339; `err` and `sym` are what its check bits say, 1 corrected, 2 uncorrectable, 3 a whole device's error); a persistent granule
becomes dirty, and stays so if it is being written back (14 R327). -/
def State.winWrite (s : State) (dpa data mask err sym : Nat) : State :=
  let b := dpa / 64
  let full : Bool := cut 64 mask = allBytes
  let s := if full then s.clrPoison b
    else if 2 ≤ err || s.drc.poison.contains b then (s.dramUe dpa (err = 3)).setPoison b
    else if err = 1 then s.dramCe dpa sym
    else s
  let s := s.putBurst b (mergeBytes (s.burst64 b) data mask)
  if !s.persistent dpa then s
  else
    let g := dpa / 65536
    let s := { s with pcx := { s.pcx with wb := s.pcx.wb.filter (fun x => x != g) } }
    if s.stg.dirty.contains g then s else { s with stg := { s.stg with dirty := s.stg.dirty ++ [g] } }

/-- Writes held back by DIRTY_MAX go on while the dirty amount is below it (06 R160). -/
def State.freeHeld : Nat → State → State
  | 0, s => s
  | n + 1, s =>
    match s.pcx.heldWr with
    | [] => s
    | w :: ws =>
      if s.stg.dirty.length < s.dirtyMax then
        freeHeld n ((({ s with pcx := { s.pcx with heldWr := ws } }).winWrite w.1 w.2.1 w.2.2.1 w.2.2.2.1 w.2.2.2.2).send (.pcie "CXL write done" [w.1]))
      else s

/-! ### Requests and their order (15 R333, R334) -/

/-- Requests of a channel, in order of arrival. -/
def State.dreqs (s : State) (ch : Nat) : List DReq := (Tab.find ch s.drc.queue).getD []

/-- Requests a channel's read queue holds, and its write queue (R334). -/
def drcQueue : Nat := 128

/-- The requests of a channel that stand in its queues; the others wait at their ports for room. -/
def State.drcCand (s : State) (ch : Nat) : List DReq :=
  ((s.dreqs ch).filter (fun r => !r.isWr)).take drcQueue ++ ((s.dreqs ch).filter DReq.isWr).take drcQueue

/-- A request's urgency: of the command it is issued for, or of its port's target (R333; 03 R69). -/
def State.drcUrg (s : State) (r : DReq) : Nat := s.urg r.arr r.dl

/-- The open row of a bank and the hits served in a row (R334). -/
def State.openRow (s : State) (b : Nat) : Option (Nat × Nat) := Tab.find b s.drc.rows

/-- Whether a request goes to the row open in its bank. -/
def State.rowHit (s : State) (r : DReq) : Bool := (s.openRow (s.bankOf r.dpa)).map (·.1) = some (s.rowOfDpa r.dpa)

/-- Whether the test for an open row counts for a request: its bank has not served STREAK hits while a request of equal urgency waits for another
of its rows (R334). -/
def State.hitWins (s : State) (c : List DReq) (r : DReq) : Bool :=
  s.rowHit r && !(s.rd F.DRC_SCHED_CFG_STREAK ≤ ((s.openRow (s.bankOf r.dpa)).map (·.2)).getD 0
    && c.any (fun x => s.bankOf x.dpa = s.bankOf r.dpa && !s.rowHit x && s.drcUrg x = s.drcUrg r))

/-- Whether request `a` goes before `b`, by the first of the four tests that separates them (R334); `drain` says that writes win. -/
def State.drcFirst (s : State) (c : List DReq) (drain : Bool) (a b : DReq) : Bool :=
  if s.drcUrg a != s.drcUrg b then s.drcUrg b < s.drcUrg a
  else if s.hitWins c a != s.hitWins c b then s.hitWins c a
  else if a.isWr != b.isWr then a.isWr = drain
  else a.arr ≤ b.arr

/-- The request a channel serves next. -/
def State.drcPick (s : State) (ch : Nat) : Option DReq :=
  let c := s.drcCand ch
  let drain : Bool := bit s.drc.drain ch
  c.foldl (fun (a : Option DReq) r => match a with
    | none => some r
    | some b => if s.drcFirst c drain b r then some b else some r) none

/-- Whether a channel's writes win now: from WR_HI in its write queue until WR_LO (R334). -/
def State.setDrain (s : State) (ch : Nat) : State :=
  let n := ((s.drcCand ch).filter DReq.isWr).length
  let on : Bool := if s.rd F.DRC_SCHED_CFG_WR_HI ≤ n then true else if n ≤ s.rd F.DRC_SCHED_CFG_WR_LO then false else bit s.drc.drain ch
  { s with drc := { s.drc with drain := s.drc.drain - 2 ^ ch * b2n (bit s.drc.drain ch) + 2 ^ ch * b2n on } }

/-- Puts a channel's requests. -/
def State.putDreqs (s : State) (ch : Nat) (l : List DReq) : State :=
  ({ s with drc := { s.drc with queue := if l.isEmpty then Tab.del ch s.drc.queue else Tab.put ch l s.drc.queue } }).setDrain ch

/-- A bank after a request to a row of it: the row is open, with a hit more in a row or none yet; no queued request left that hits it closes it
(R334). -/
def State.rowUsed (s : State) (r : DReq) : State :=
  let b := s.bankOf r.dpa
  let row := s.rowOfDpa r.dpa
  let n := match s.openRow b with
    | some (w, n) => if w = row then n + 1 else 0
    | none => 0
  let more := (s.drcCand (s.chOf r.dpa)).any (fun x => s.bankOf x.dpa = b && s.rowOfDpa x.dpa = row)
  { s with drc := { s.drc with rows := if more then Tab.put b (row, n) s.drc.rows else Tab.del b s.drc.rows } }

/-- What a burst's check bits say when it is read (R339, R340): `err` is 0 clean, 1 corrected at symbol `sym`, 2 uncorrectable, 3 uncorrectable
and seen as a whole device's error; a poisoned burst is uncorrectable whatever it says. The answer is whether it is uncorrectable. -/
def State.readCheck (s : State) (dpa err sym : Nat) : State × Bool :=
  if 2 ≤ err || s.drc.poison.contains (dpa / 64) then (s.dramUe dpa (err = 3), true)
  else if err = 1 then (s.dramCe dpa sym, false)
  else (s, false)

/-- What a request does when it is served. -/
def State.drcAct (s : State) (r : DReq) : State :=
  match r.act with
  | .read hpa err sym =>
    let a := s.readCheck r.dpa err sym
    if a.2 then (a.1.setPoison (r.dpa / 64)).send (.pcie "CXL poison" [hpa])
    else a.1.send (.pcie "CXL data" [hpa, s.burst64 (r.dpa / 64)])
  | .write hpa data mask err sym =>
    if s.persistent r.dpa && (s.stg.dirty.length ≥ s.dirtyMax || !s.pcx.heldWr.isEmpty) then
      { s with pcx := { s.pcx with heldWr := s.pcx.heldWr ++ [(r.dpa, data, mask, err, sym)] } }
    else (s.winWrite r.dpa data mask err sym).send (.pcie "CXL write done" [hpa])
  | .scrub err sym region a b =>
    let c := s.readCheck r.dpa err sym
    if c.2 then c.1.regionUe r.dpa region a b else c.1

/-- A channel's island takes the next request, if there is one (R334). -/
def State.drcServe (s : State) (ch : Nat) : State :=
  match s.drcPick ch with
  | none => s
  | some r => (((s.putDreqs ch ((s.dreqs ch).erase r)).rowUsed r).drcAct r)

/-- A channel's island takes up to `n` requests. -/
def State.drcServeN (ch : Nat) : Nat → State → State
  | 0, s => s
  | n + 1, s => if (s.dreqs ch).isEmpty then s else State.drcServeN ch n (s.drcServe ch)

/-- Every request of every channel is served (R344). -/
def State.drcDrain (s : State) : State := (List.range 8).foldl (fun (s : State) ch => State.drcServeN ch (s.dreqs ch).length s) s

/-- A request of no command enters on a port: its arrival is now, its deadline the port's target later (R333); then the island takes up to `room`
requests of its channel. -/
def State.drcRequest (s : State) (port dpa : Nat) (act : DAct) (room : Nat) : State :=
  let ch := s.chOf dpa
  let r : DReq := ⟨port, dpa, s.el, s.el + s.rd F.DRC_PORT_TGT_TGT_NS port, act⟩
  State.drcServeN ch room (s.putDreqs ch (s.dreqs ch ++ [r]))

/-- Whether a request of urgency 3 waits for a rank (R335). -/
def State.rankUrgent (s : State) (ch rk : Nat) : Bool := (s.dreqs ch).any (fun r => s.rankOf r.dpa = rk && s.drcUrg r = 3)

end Sys2Proof.Machine
end

