-- ==== Sys2Proof/Machine/PfOps.lean ====
section
/-! DEFINITION. The power-fail sequence and its end (06 R157-R163; 19 R429; 18 R412), and changes of VDD_CORE (16 R362). -/

namespace Sys2Proof.Machine

/-! ### VDD_CORE (01 R19, 16 R362) -/

/-- A voltage as the regulator's VOUT_COMMAND carries it (17 R379): LINEAR16 with a signed exponent, or VID. -/
def State.vcode (s : State) (mv : Nat) : Nat :=
  let g := fun (i : Nat) => s.img.vreg.getD i 0
  if g 1 = 0 then
    let e := toSigned 8 (g 2)
    cut 16 (if e < 0 then mv * 2 ^ e.natAbs / 1000 else mv / (1000 * 2 ^ e.natAbs))
  else cut 16 ((mv - g 3) / max (g 4) 1 + 1)

/-- Requests a voltage, never outside 0.60 to 0.85 V, and keeps the preloaded failover raise current (01 R19; 16 R362). -/
def State.setMv (s : State) (mv : Nat) : State :=
  let v := max 600 (min mv 850)
  let s := (s.wr F.PUP_VREG_TARGET_MV v).send (.pmbus 0x21 (s.vcode v))
  { s with pup := { s.pup with preRaise := min 850 (v + 15), preHold := 700 } }

/-- Raises VDD_CORE by 15 mV before an interval without the voltage loop (01 R21). -/
def State.raiseMv (s : State) : State := s.setMv (s.rd F.PUP_VREG_TARGET_MV + 15)

/-! ### The sequence (06 R159) -/

/-- MED_PF_STS.PHASE: ARMED, STOPPING, FLUSHING, DONE and NOT_ARMED (06 R165). -/
def pfArmed : Nat := 0
/-- FLUSHING. -/
def pfFlushing : Nat := 2
/-- DONE. -/
def pfDone : Nat := 3
/-- NOT_ARMED. -/
def pfNotArmed : Nat := 4

/-- ARMED while a bank is erased (06 R158). -/
def State.armed (s : State) : State :=
  let i := if s.stg.erased.getD 0 false then 0 else 1
  if s.stg.erased.getD 0 false || s.stg.erased.getD 1 false then (s.wr F.MED_PF_STS_PHASE pfArmed).wr F.MED_PF_STS_BANK i
  else s.wr F.MED_PF_STS_PHASE pfNotArmed

/-- The newest records that fit in `n` bytes, oldest first. -/
def newestFit : List Rec → Nat → List Rec
  | [], _ => []
  | r :: rs, n => if recsLen (r :: rs) ≤ n then r :: rs else newestFit rs n

/-- The summary sector of a power failure (19 R429): a PFAIL_N record, whose code the rules do not give, and the newest records
that fit in 4,064 bytes with it. -/
def State.norSummary (s : State) : State :=
  let r : Rec := ⟨s.tns, s.frac, cut 16 (s.drawn 11), 0xFFFF, s.recFlags false, 0, []⟩
  ((s.norWrite 2 0 1 s.tns (r :: newestFit s.evr.recs (4064 - recLen 0))).inc F.EVR_FLUSH_CNT_SUMMARY).draw

/-- The contents that a flush writes: type and bytes of each segment that has any (06 R159): the used units of staging SRAM, the SRAM parity slots in
use, the journal tail, the recorder, the dirty granules. -/
def State.contents (s : State) : List (Nat × Nat) :=
  [(0, (s.stg.units.filter (fun u => u.pool != 2)).length * 4096), (1, s.rd F.ZON_ACTIVE_SRAM * 196608), (2, s.tailUse * 32),
    (3, recsLen s.evr.recs), (4, s.stg.dirty.length * 65536)].filter (fun e => e.2 != 0)

/-- The segments of a flush with their headers (06 R159). How a segment lays out its content the spec does not give, so its CRC-32C is a free value
(log 93). -/
def State.segments (s : State) : List FlushSeg := s.contents.mapIdx (fun i e => ⟨e.1, e.2, cut 32 (Config.free 42 (s.free + i))⟩)

/-- What happens to a die at the stop instant (06 R159 step 4): its queue is withdrawn, its read abandoned, its erase reset;
a program runs to completion. -/
def DieSt.stop (x : DieSt) : DieSt :=
  { x with queue := [], susp := none, cur := (match x.cur with
      | some o => if o.kind = .read || o.kind = .erase then none else some o
      | none => none) }

/-- A sub-port's PHY goes off. -/
def State.phyOff (s : State) (p u : Nat) : State := if s.link p u = lkDown then s else s.setLink p u lkDown

/-- The PHYs of the Ethernet ports and of the PCIe links go off (06 R159 step 6). -/
def State.physOff (s : State) : State :=
  let s := (List.range 8).foldl (fun (s : State) p => (List.range (s.subCount p)).foldl (fun (s : State) u => s.phyOff p u) s) s
  (List.range 2).foldl (fun (s : State) l => s.wr F.PCX_LINK_STS_UP 0 l) s

/-- What the stop instant ends (06 R159 steps 2, 4 and 5): host work, capture work and media work that is not a running program. DRAM requests in
flight complete (15 R344). -/
def State.stopWork (s : State) : State :=
  let s := s.drcDrain
  let s := (((s.dropCmds (fun _ => true)).capDrop (fun _ => true)).stopsGone).keepRecs
  let ds := s.die.dies.map (fun (e : Nat × DieSt) => (e.1, e.2.stop))
  let s := { s with die := { s.die with cws := [], dies := ds } }
  let s := { s with rdn := { s.rdn with recon := [] } }
  { s with pcx := { s.pcx with gpf := none, heldWr := [] } }

/-- The ports that are up pause every priority (06 R159 step 3). -/
def State.pauseAll (s : State) : State :=
  (List.range 8).foldl (fun (s : State) p =>
    (List.range (s.subCount p)).foldl (fun (s : State) u => if s.link p u = lkUp then s.sendPfc p u 0xFFFF else s) s) s

/-- The bank that was erased takes the image (06 R158, R159): the next in sequence; its record is not programmed yet. -/
def State.startImage (s : State) : State :=
  let b := s.rd F.MED_PF_STS_BANK
  let er := (List.range 2).map (fun i => if i = b then false else s.stg.erased.getD i false)
  let n := s.stg.imgSeq + 1
  { s with
    free := s.free + s.contents.length
    stg := { s.stg with image := some ⟨b, false, s.tns, s.segments, n, none, [], [], [], 0, 0, []⟩, erased := er, imgSeq := n } }

/-- Every content page is programmed, and the flush record on two dies of different links (06 R159 step 8). `fails` are the failed pages by stripe and
member: a stripe with a third failure is written again at the end of the bank; the pages of `links`, which lost flit lock, lie on other
links' dies (R162). -/
def FlushImg.finish (i : FlushImg) (fails : List (Nat × Nat)) (links : List Nat) : FlushImg :=
  { i with
    whole := true
    recDies := some (bankDie i.bank 0 0, bankDie i.bank 0 1)
    fails := fails
    again := ((fails.map (·.1)).dedup).filter (fun t => 3 ≤ (fails.filter (fun e => e.1 = t)).length)
    moved := links }

/-- The recorder's and the time base's part of a stop: the summary sector, a recorder copy, TIME_NS (19 R427-R429, R417). -/
def State.stopRecord (s : State) : State :=
  let s := s.norSummary
  let s := { s with evr := { s.evr with nand := (RecCopy.mk s.tns 2 s.evr.recs :: s.evr.nand).take 4 } }
  { s with tim := { s.tim with saved := some s.tns } }

/-- Notes when and from which power step and VDD_CORE the stop came, and closes admission (06 R159, R163). -/
def State.stopMark (s : State) : State :=
  let s := if s.rd F.PWR_STS_STATE ≤ 1 then { s with pup := { s.pup with runMv := s.rd F.PUP_VREG_TARGET_MV } } else s
  { s with stg := { s.stg with fellAt := s.el, full := s.stg.commits, commits := false, priorStep := s.rd F.PWR_STEP_STEP } }

/-- Sets the stop instant and starts the flush (06 R159, R163): before ready only the event recorder is flushed, and an earlier
image stays. A flush that runs serves a later cause too (18 R414). -/
def State.stopFlush (s : State) : State :=
  let ph := s.rd F.MED_PF_STS_PHASE
  if ph = 1 || ph = pfFlushing || ph = pfDone then s
  else
    let s := (s.stopRecord.wr F.MED_PF_STS_PHASE pfFlushing).stopMark
    if s.stg.full then (s.pauseAll.stopWork.startImage.setMv 700).physOff else s

/-- After a thermal trip the controller drives FAULT_N low, turns its PHYs off and sets VDD_CORE to 0.60 V (18 R412). -/
def State.tripEnd (s : State) : State := (s.faultLow.physOff).setMv 600

/-- Every content page and the flush record are programmed: DONE (06 R159 steps 8 and 9, R161, R162), and what follows a
thermal trip. -/
def State.flushDone (s : State) (fails : List (Nat × Nat)) (links : List Nat) : State :=
  if s.rd F.MED_PF_STS_PHASE != pfFlushing then s
  else
    let d := s.el - s.stg.fellAt
    let s := ((s.wr F.MED_PF_STS_PHASE pfDone).wr F.MED_PF_STS_DUR (sat 16 (d / 1000))).wr F.MED_PF_STS_OVERRUN (b2n (d > 20000000))
    let s := s.inc F.MED_PF_CNT_FLUSHES
    let s := if s.stg.full then { s with stg := { s.stg with image := s.stg.image.map (fun (i : FlushImg) => i.finish fails links) } } else s
    if s.pwr.tripped then s.tripEnd else s

/-- PFAIL_N has stayed high for 10 ms after DONE without POR_N (06 R163): the image is superseded, the power step returns to what
it was, the links start to train again and admission reopens. -/
def State.resume (s : State) : State :=
  if s.rd F.MED_PF_STS_PHASE != pfDone || s.pwr.tripped || !s.img.por then s
  else
    let full := s.stg.full
    let s := if full then { s with stg := { s.stg with image := none, commits := true } } else s
    let s := (s.armed).wr F.MED_PF_STS_RESUMED (b2n full)
    let s := s.wr F.PWR_STEP_STEP s.stg.priorStep
    let s := s.setMv s.pup.runMv
    (List.range 2).foldl (fun (s : State) l => s.wr F.PCX_LINK_STS_UP (b2n (s.pcx.perst.getD l false && s.rd F.PCX_LINK_STS_SPEED l != 0)) l) s

end Sys2Proof.Machine
end

