-- ==== Sys2Proof/Machine/DieOps.lean ====
section
/-! DEFINITION. What the die commands share: threshold bins and read offsets (10 R237-R239, R242), charges at issue (03 R76, R77),
issuing and ending operations (09 R210-R216), the decoder pool (10 R240), and the retry ladder with its reconstructions (10
R242-R245; 07 R173, R174). -/

namespace Sys2Proof.Machine

/-! ### Bins and offsets -/

/-- An hour, in ns. -/
def hourNs : Nat := 3600000000000

/-- The retention bin of an age in ns (10 R238). -/
def retBin (ns : Nat) : Nat := ([1, 4, 12, 24, 48, 96, 192, 384, 768, 2160, 8760].filter (fun h => h * hourNs ≤ ns)).length

/-- The temperature bin of a temperature in °C (10 R238). -/
def tempBin (t : Int) : Nat := ([15, 35, 55, 75, 95].filter (fun (b : Int) => decide (b ≤ t))).length

/-- The P/E bin of a block (10 R238). -/
def State.peBin (s : State) (b : Blk) : Nat :=
  ([5, 15, 30, 50, 70, 90, 110].filter (fun p => p * (s.descOf b.die).rated ≤ (s.blkOf b).erases * 100)).length

/-- A block's mean write temperature, rounded to the nearest °C (10 R237); the die's own where nothing is programmed. -/
def State.writeTemp (s : State) (b : Blk) : Int :=
  let x := s.blkOf b
  if x.wcnt = 0 then (s.dieOf b.die).temp else (2 * x.wsum + x.wcnt) / (2 * x.wcnt)

/-- The retention bin, write-temperature bin and read-temperature bin of a read of a block now (10 R237). -/
def State.binsOf (s : State) (b : Blk) : Nat × Nat × Nat :=
  (retBin (s.tns - (s.blkOf b).wns), tempBin (s.writeTemp b), tempBin (s.dieOf b.die).temp)

/-- The number of a correction (10 R239). -/
def corrIdx (die tier ret rt : Nat) : Nat := ((die * 4 + tier) * 12 + ret) * 6 + rt

/-- Sixteen offsets of zero. -/
def noOffs : List Int := List.replicate 16 0

/-- An offset saturated to ±127. -/
def satOff (x : Int) : Int := max (-127) (min 127 x)

/-- Base plus correction at given bins (10 R238, R239). -/
def State.offsAt (s : State) (b : Blk) (tier : Nat) (p : Nat × Nat × Nat) : List Int :=
  let i := (((tier * 12 + p.1) * 6 + p.2.1) * 6 + p.2.2) * 8 + s.peBin b
  let base := (Tab.find ((s.dieOf b.die).desc * 65536 + i) s.die.thr).getD noOffs
  let c := (Tab.find (corrIdx b.die tier p.1 p.2.2) s.die.corr).getD noOffs
  (List.range 16).map (fun l => satOff (base.getD l 0 + c.getD l 0))

/-- The neighbouring bins of step 2 (10 R242): retention up and down, read temperature one bin from the write bin toward the
die's reading, write temperature up; those that do not exist are left out. -/
def neighbours (p : Nat × Nat × Nat) : List (Nat × Nat × Nat) :=
  (if p.1 < 11 then [(p.1 + 1, p.2.1, p.2.2)] else [])
    ++ (if 0 < p.1 then [(p.1 - 1, p.2.1, p.2.2)] else [])
    ++ (if p.2.1 < p.2.2 then [(p.1, p.2.1, p.2.1 + 1)] else if p.2.2 < p.2.1 then [(p.1, p.2.1, p.2.1 - 1)] else [])
    ++ (if p.2.1 < 5 then [(p.1, p.2.1 + 1, p.2.2)] else [])

/-- The offsets of a read as its ladder step issues now (10 R239, R242). -/
def State.readOffs (s : State) (d : Nat) (o : DOp) : List Int :=
  let b : Blk := ⟨d, o.blk⟩
  let p := s.binsOf b
  if o.step = 0 then s.offsAt b o.tier p
  else if o.step = 1 then
    let v := s.die.shift.getD o.tier noOffs
    (s.offsAt b o.tier p).mapIdx (fun i x => satOff (x + v.getD i 0))
  else if o.step = 2 then s.offsAt b o.tier ((neighbours p).getD o.lad.sub p)
  else o.lad.best

/-- Blocks of user data in window page `p`. -/
def pageUser (p : Nat) : Nat := min pageBlocks (winBlocks - p * pageBlocks)

/-! ### Charges at issue (03 R76, R77) -/

/-- Charges media work: to the background account of the operation, else to its slice and to the queue whose command it serves, where there is
one (03 R75). -/
def State.payOp (s : State) (o : DOp) (c : Nat) : State :=
  match o.bg with
  | some k => s.chargeBg k c
  | none => s.charge o.slice (if o.q = noQueue then none else some o.q) c

/-- The charge of an operation issued with others (`all`, itself included). The verify of a program is in the program's charge,
and a fold is charged when it is issued as a whole. -/
def State.opChg (s : State) (d : Nat) (all : List DOp) (o : DOp) : Nat :=
  let y := s.descOf d
  let cw := cwBytes o.tier
  match o.kind with
  | .read =>
    if o.vfy.isSome || o.purp = .fold then 0
    else if o.planes = 0x3F then chgWhole y o.tier (pageBlocks * o.pages) + (if o.probe then 2 * chgSense y 1 else 0)
    else if all.any (fun p => p.planes = 0x3F) then chgWhole y o.tier 1
    else if all.length ≤ 1 then o.senses * o.pages * y.tR * 16 + chgLink (cw * o.senses)
    else ceilDiv (o.senses * y.tR * 16 * cw) (all.map (fun p => cwBytes p.tier)).sum + chgLink (cw * o.senses)
  | .prog1 =>
    let n := pageUser o.page
    if o.purp = .tail then
      let n := ceilDiv (tailCws y o.tier) (max 1 (tailPages y o.tier))
      chgWrite y (n * 4096) + chgWhole y o.tier n
    else
    o.back * (chgSense y 1 + chgLink (cwBytes 0)) + chgWrite y (n * 4096) + ceilDiv (s.rd F.MED_VFY_CFG_ONEBIT_PCT * chgWhole y o.tier n) 100
  | .coarse => chgLink (wlBlocks * 4096) + chgProg (wlBlocks * 4096) y.rateQ + chgWhole y o.tier wlBlocks
  | .erase => if (s.blkOf ⟨d, o.blk⟩).onebit then 0 else y.tE * 16
  | _ => 0

/-! ### Issuing (09 R211, R213-R216) -/

/-- The opcode of an operation (09 R211). -/
def opcodeOf : OpKind → Nat
  | .read => 0x01 | .prog1 => 0x10 | .coarse => 0x11 | .fine => 0x12 | .foldC => 0x13 | .foldF => 0x14 | .erase => 0x20

/-- A hop's record. -/
def State.hop (s : State) (l h : Nat) : Hop := (s.link8 l).hops.getD h Hop.fresh

/-- Puts a hop's record. -/
def State.putHop (s : State) (l h : Nat) (p : Hop) : State :=
  let x := s.link8 l
  s.putLink8 l { x with hops := x.hops.set h p }

/-- One direction of a hop: `up` names the one toward the controller. -/
def Hop.dir (p : Hop) (up : Bool) : LDir := if up then p.up else p.dn

/-- Puts one direction of a hop. -/
def Hop.putDir (p : Hop) (up : Bool) (x : LDir) : Hop := if up then { p with up := x } else { p with dn := x }

/-- A hop is ACTIVE, in QUIET or not. -/
def State.hopUp (s : State) (l h : Nat) : Bool := s.hopSt l h = hActive || s.hopSt l h = hQuiet

/-- Flits a sender keeps (08 R196). -/
def replayMax : Nat := 64

/-- The ACK a sender's header carries: the last number accepted in the opposite direction (08 R193). -/
def Hop.ack (p : Hop) (up : Bool) : Nat := ((p.dir (!up)).rx + 255) % 256

/-- Puts one flit on a direction: link, hop and direction, header word, and what the payload holds (08 R192, R193). -/
def State.sendFlit (s : State) (l h : Nat) (up : Bool) (f : Flit) : State :=
  s.send (.kz l (flitName f.ty) ([h, b2n up, flitHdr f.ty f.bridge f.last f.tag f.seq ((s.hop l h).ack up)] ++ f.pay))

/-- Sends a LINK CONTROL flit, which is unsequenced and carries the next number to be used (08 R193, R195). -/
def State.linkCtl (s : State) (l h : Nat) (up : Bool) (pay : List Nat) : State :=
  s.sendFlit l h up ⟨((s.hop l h).dir up).next, 5, 0, false, 0, pay⟩

/-- Whether waiting flits may go: WRITE DATA only with a credit of its bridge and after its COMMAND, a bridge's upstream flit only with a
credit of the bridge above (08 R195), and no new transfer while a width change drains the link (08 R191). -/
def State.mayXfer (s : State) (l h : Nat) (up : Bool) (q : List Xfer) (x : Xfer) : Bool :=
  let k := s.link8 l
  if up then h = 0 || 0 < k.upCred.getD (h - 1) 0
  else if h = 0 && x.ty = 2 then 0 < k.cred.getD x.bridge 0 && !q.any (fun y => y.ty = 1 && y.tag = x.tag)
  else !(h = 0 && x.ty = 1 && k.chg.isSome)

/-- Whether waiting flits `b` go before `a`, which came first: a BREAK NOTICE before all others (08 R198), and of two operations'
transfers the one whose key wins (03 R73, R74). -/
def State.xferFirst (s : State) (a b : Xfer) : Bool :=
  if b.ty = 7 then a.ty != 7
  else match a.op, b.op with
    | some o, some p => a.ty != 7 && (s.opKey p).beats (s.opKey o)
    | _, _ => false

/-- The link arbiter's choice among the flits that may go (03 R73); the first queued on a full tie. -/
def State.bestXfer (s : State) : List Xfer → Option Xfer
  | [] => none
  | x :: xs =>
    match s.bestXfer xs with
    | none => some x
    | some y => if s.xferFirst x y then some y else some x

/-- Sends one flit of those that wait, and keeps it until it is acknowledged (08 R193, R195, R196). -/
def State.sendXfer (s : State) (l h : Nat) (up : Bool) (x : Xfer) : State :=
  let p := s.hop l h
  let d := p.dir up
  let f : Flit := ⟨d.next, x.ty, x.bridge, x.last && x.left ≤ 1, x.tag, x.pay⟩
  let rest := d.out.erase x
  let d := { d with
    next := (d.next + 1) % 256
    replay := d.replay ++ [f]
    ackAt := if d.replay.isEmpty then s.el else d.ackAt
    progAt := if d.replay.isEmpty then s.el else d.progAt
    out := if x.left ≤ 1 then rest else { x with left := x.left - 1 } :: rest }
  let s := (s.sendFlit l h up f).putHop l h (p.putDir up d)
  let k := s.link8 l
  if up && 0 < h then s.putLink8 l { k with upCred := k.upCred.modify (h - 1) (fun c => c - 1) }
  else if !up && h = 0 && x.ty = 2 then s.putLink8 l { k with cred := k.cred.modify x.bridge (fun c => c - 1) }
  else s

/-- Sends what waits at a direction of a hop that is up and not in QUIET, until its replay buffer is full or nothing may go (08 R196). -/
def State.pump (l h : Nat) (up : Bool) : Nat → State → State
  | 0, s => s
  | n + 1, s =>
    let d := (s.hop l h).dir up
    if !s.hopUp l h || d.quiet || replayMax ≤ d.replay.length then s
    else match s.bestXfer (d.out.filter (s.mayXfer l h up d.out)) with
      | none => s
      | some x => State.pump l h up n (s.sendXfer l h up x)

/-- Flits join those that wait for a direction of a hop, and what may go is sent. -/
def State.pushFlits (s : State) (l h : Nat) (up : Bool) (xs : List Xfer) : State :=
  let p := s.hop l h
  let d := p.dir up
  State.pump l h up replayMax (s.putHop l h (p.putDir up { d with out := d.out ++ xs }))

/-- Flits of WRITE DATA that an operation's user data takes, less than its parity (08 R192). -/
def dataFlits (o : DOp) : Nat :=
  match o.kind with
  | .prog1 => ceilDiv (pageUser o.page * 4096) 240
  | .coarse => ceilDiv (wlBlocks * 4096) 240
  | .fine => ceilDiv (wlBlocks * 4096) 240
  | _ => 0

/-- What a read returns of each plane page, first byte and length in 16-byte units (09 R211): a codeword that lies in one plane page, else
whole plane pages (log 95). -/
def State.readSpan (s : State) (d : Nat) (o : DOp) : Nat × Nat :=
  let y := s.descOf d
  let cw := cwBytes o.tier
  let j := o.mblk % winBlocks
  let off := if j < nFit y o.tier then j * cw % y.pp else (j - nFit y o.tier) * cw % (y.planes * y.pp) % y.pp
  if o.planes = 0x3F || o.pages > 1 || off + cw > y.pp then (0, y.pp / 16) else (off / 16, cw / 16)

/-- The source pages of a fold pass, block in [10:0] and page in [20:11] (09 R211). -/
def State.foldSrcs (s : State) (o : DOp) : List Nat :=
  match s.srow o.row with
  | none => [0, 0, 0, 0]
  | some x => (List.range 4).map (fun i =>
      let n := 4 * o.page + i
      (((x.win.getD (n / winPages) []).getD o.member ⟨0, 0⟩).blk) + 2 ^ 11 * (n % winPages))

/-- Whether an operation is a read, or a fold pass. -/
def DOp.folds (o : DOp) : Bool := o.kind = .foldC || o.kind = .foldF

/-- The 48-byte COMMAND envelope of an operation with an opcode on a die (08 R194; 09 R211); `join` says that the next read envelope shares
its sense. -/
def State.envBytes (s : State) (d code : Nat) (o : DOp) (tag : Nat) (join : Bool) : List Nat :=
  let one := (s.blkOf ⟨d, o.blk⟩).onebit
  let rd : Bool := code = 1
  let sp := if rd then s.readSpan d o else (0, 0)
  let ctl : Bool := code = 0x21 || code = 0x22 || code = 0x3F
  let wl := if ctl || code = 0x20 then 0 else if rd && !one then o.page / 4 + 2 ^ 10 * (o.page % 4) else o.page
  [d % 16, code] ++ toLe 2 tag ++ toLe 2 (if ctl then 0 else o.blk) ++ toLe 2 (if ctl then 0 else wl + 2 ^ 15 * b2n one)
    ++ [if ctl then 0 else o.planes, if ctl then 0 else o.tier] ++ toLe 2 sp.1 ++ toLe 2 sp.2
    ++ [if rd then o.senses else 0, b2n (rd && join)]
    ++ (List.range 15).map (fun i =>
      if !rd then 0 else if one then (if i = 0 then ofSigned 8 (o.lad.offs.getD 15 0) else 0) else ofSigned 8 (o.lad.offs.getD i 0)) ++ [0]
    ++ (if o.folds && !ctl then (s.foldSrcs o).flatMap (toLe 4) else List.replicate 16 0)

/-- The tag of an operation (08 R193). -/
def State.tagOf (s : State) (l id : Nat) : Nat := (((s.link8 l).tags.find? (fun e => e.2 = id)).map (·.1)).getD 0

/-- Queues the COMMAND envelope of an operation for its link, and the WRITE DATA of a program with it (08 R194, R195). -/
def State.envelope (s : State) (d : Nat) (code : Nat) (o : DOp) (join : Bool) : State :=
  let l := d / 64
  let br := d % 64 / 16
  let tag := s.tagOf l o.id
  let n := if code = opcodeOf o.kind then dataFlits o else 0
  s.pushFlits l 0 false ([⟨some o, 1, br, n = 0, tag, 1, s.envBytes d code o tag join⟩] ++ (if n = 0 then [] else [⟨some o, 2, br, true, tag, n, []⟩]))

/-- The reads merged with a winner: the best of those that may share its sense, one after another (09 R213). -/
def State.mergeSet (s : State) (d : Nat) (w : DOp) : List DOp :=
  ((List.range (s.dieOf d).inQueue.length).foldl (fun (a : List DOp × Nat) _ =>
    match s.bestOp ((s.dieOf d).inQueue.filter (fun o => s.joins d w a.2 (a.1.length + 1) o && !a.1.any (fun p => p.id = o.id))) with
    | some o => (a.1 ++ [o], Nat.lor a.2 o.planes)
    | none => a) (([], w.planes) : List DOp × Nat)).1

/-- A die's operations once some have left its queue: the pool's come up in the order of the key (09 R213). -/
def State.fillQueue (s : State) (x : DieSt) (gone : List DOp) : List DOp :=
  x.inQueue.filter (fun p => !gone.any (fun r => r.id = p.id))
    ++ insSort (fun a b => !(s.opKey b).beats (s.opKey a)) (x.queue.drop dieQueue)

/-- Gives the operation a tag of its link, the lowest free one (08 R193, R194). -/
def State.takeTag (s : State) (l id : Nat) : State :=
  let x := s.link8 l
  match (List.range 512).find? (fun t => (Tab.find t x.tags).isNone) with
  | some t => s.putLink8 l { x with tags := Tab.put t id x.tags }
  | none => s

/-- Frees the tag of an operation whose record has arrived, or whose transfers end (08 R194, R199); nothing of it waits any more. -/
def State.freeTag (s : State) (l id : Nat) : State :=
  let x := s.link8 l
  let left := fun (d : LDir) => { d with out := d.out.filter (fun f => f.op.map (·.id) != some id) }
  s.putLink8 l { x with
    tags := x.tags.filter (fun e => e.2 != id)
    hops := x.hops.map (fun (p : Hop) => { p with dn := left p.dn }) }

/-- Issues a queued operation with those merged into it: their offsets are computed, their charges made. -/
def State.issueOp (s : State) (d : Nat) (o : DOp) : State :=
  let all := (o :: s.mergeSet d o).map (fun (p : DOp) => if p.kind = .read then { p with lad := { p.lad with offs := s.readOffs d p } } else p)
  let x := s.dieOf d
  let s := s.putDie d { x with cur := all.head?, merged := all.tail, curAt := s.el, queue := s.fillQueue x all }
  let s := all.foldl (fun (s : State) p => s.payOp p (s.opChg d all p)) s
  let z := (all.getLast?.map (·.id)).getD 0
  all.foldl (fun (s : State) p => (s.takeTag (d / 64) p.id).envelope d (opcodeOf p.kind) p (p.id != z)) s

/-- Whether an erase has to wait for the checkpoint of a device fault (20 R435), or for room in the journal tail (11 R265). -/
def State.noErase (s : State) (o : DOp) : Bool := (s.ftl.faulted.isSome || s.tailFull) && o.kind = .erase

/-- Whether a queued operation may start: the rules of 09 R209 and R215, and pages of a one-bit block in order. -/
def DieSt.startOk (x : DieSt) (o : DOp) : Bool :=
  x.mayStart o && (o.kind != .prog1 || !x.queue.any (fun p => p.kind = .prog1 && p.blk = o.blk && p.page < o.page))

/-- Resumes the suspended erase. -/
def State.resumeErase (s : State) (d : Nat) (e : DOp) : State :=
  let x := s.dieOf d
  (s.putDie d { x with cur := some { e with step := 0 }, curAt := s.el, susp := none }).envelope d 0x22 e false

/-- The die scheduler's choice (09 R213-R216): on a free die, among the operations that may start and the suspended erase; on a
running erase, whether to suspend it. The suspend overhead is charged to the operation that caused it. -/
def State.dieIssue (s : State) (d : Nat) : State :=
  let x := s.dieOf d
  if !s.works d then s
  else
    match x.cur with
    | none =>
      let er := if x.between.isNone then x.susp.toList else []
      match s.bestOp (er ++ x.inQueue.filter (fun o => x.startOk o && !s.noErase o)) with
      | none => s
      | some o => if x.susp = some o then s.resumeErase d o else s.issueOp d o
    | some e =>
      if e.kind != .erase || e.step != 0 then s
      else
        match s.bestOp (x.inQueue.filter (fun o => o.kind != .erase && x.startOk o)) with
        | none => s
        | some o =>
          if s.maySuspend d (s.opKey o) then
            let y := s.descOf d
            ((s.putDie d { x with cur := some { e with step := 1 } }).payOp o ((y.tSus + y.tRes) * 16)).envelope d 0x21 e false
          else s

/-- Ends what a die runs, with its STATUS record (09 R212, R217): the scale moves an eighth toward the busy time, in 1/65536, cut
to a whole number, between 1/2 and 2 (log 85). -/
def State.dieDone (s : State) (d : Nat) (o : DOp) (temp : Int) (busy : Nat) : State :=
  let x := s.dieOf d
  let i := opIdx o.kind
  let v := (x.scale.getD i 65536 * 7 + busy * 65536 / max (tTyp (s.descOf d) o.kind o.senses) 1) / 8
  let s := (o :: x.merged).foldl (fun (s : State) p => s.freeTag (d / 64) p.id) s
  s.putDie d { x with cur := none, merged := [], temp := temp, scale := x.scale.set i (max 32768 (min v 131072)) }

/-! ### The decoder pool (10 R240, R241) -/

/-- Codewords a decoder holds. -/
def State.decLoad (s : State) (i : Nat) : Nat := (s.die.cws.filter (fun w => w.dec = some i)).length

/-- The least-loaded working decoder, the lowest on a tie. -/
def State.pickDec (s : State) : Option Nat :=
  ((List.range 128).filter s.decUp).foldl (fun (a : Option Nat) i => match a with
    | none => some i
    | some j => if s.decLoad i < s.decLoad j then some i else some j) none

/-- Whether a codeword's step is a soft one. -/
def CwJob.soft (w : CwJob) : Bool := w.op.step ≥ 3

/-- Decoders in soft mode now. -/
def State.softNow (s : State) : Nat := (s.die.cws.filter (fun w => w.soft && w.dec.isSome)).length

/-- Replaces a codeword. -/
def State.putCw (s : State) (w : CwJob) : State :=
  { s with die := { s.die with cws := s.die.cws.map (fun (v : CwJob) => if v.id = w.id then w else v) } }

/-- Takes a codeword out of the buffer. -/
def State.dropCw (s : State) (id : Nat) : State :=
  { s with die := { s.die with cws := s.die.cws.filter (fun (v : CwJob) => v.id != id) } }

/-- Gives each codeword that waits a decoder, in the order of 03 R74; soft ones while fewer than SOFT_MAX run. -/
def State.assign (s : State) : State :=
  let ws := insSort (fun a b => !(s.opKey b.op).beats (s.opKey a.op)) (s.die.cws.filter (fun w => w.dec.isNone))
  let s := ws.foldl (fun (s : State) w =>
    if w.soft && s.softNow ≥ s.rd F.RCH_CFG_SOFT_MAX then s
    else
      match s.pickDec with
      | some i => s.putCw { w with dec := some i, since := s.el }
      | none => s) s
  s.wr F.RCH_DEC_STS_SOFT s.softNow

/-- Puts a sensed codeword into the raw sense buffer. -/
def State.toBuffer (s : State) (d : Nat) (o : DOp) : State :=
  { s.bump with die := { s.bump.die with cws := s.die.cws ++ [CwJob.mk s.fresh d o none s.el 0] } }.assign

/-! ### Delivering codewords -/

/-- Marks a block for refresh (10 R243, R246). -/
def State.wantRefresh (s : State) (b : Blk) : State :=
  let x := s.blkOf b
  if x.use = .data then s.putBlk b { x with refresh := true } else s

/-- The command an operation serves, if it is still in flight. -/
def State.cmdFor (s : State) (q cid arr : Nat) : Option Cmd :=
  match s.cmdOf q cid with
  | some c => if c.arr = arr then some c else none
  | none => none

/-- A codeword of a command is at hand: the read completes when it was the last (04 R97). -/
def State.cwDone (s : State) (c : Cmd) (cw : Nat) : State :=
  let c := { c with need := c.need.filter (fun i => i != cw) }
  let s := s.putCmd c
  if c.need.isEmpty && c.st = .media then s.finRead c else s

/-- Fails a command's read and withdraws the operations still queued for it. -/
def State.failRead (s : State) (c : Cmd) (st : Nat × Nat) (die : Nat) : State :=
  let s := s.filterOps (fun o => !(o.q = c.q && o.cid = c.cid && o.arr = c.arr && o.purp = .host))
  s.fin c st 0 [] (some die)

/-- Queues the next step of a codeword's ladder at its die. -/
def State.nextStep (s : State) (d : Nat) (o : DOp) (step sub : Nat) : State :=
  let n := if step = 3 then 3 else if step = 4 then 7 else 1
  s.enq d { o with step := step, senses := n, lad := { o.lad with sub := sub } }

/-- The end of a read whose stripe cannot be reconstructed (10 R245, 07 R173): a wait for a member that is only unreachable, else
step 7 and the lost-stripe table. -/
def State.unrecovered (s : State) (r : RowId) (x : SRow) (b : Nat) (c : Option Cmd) (die : Nat) : State :=
  if (s.missing r x).any (s.memUnreach r x) then
    match c with
    | some c => s.putCmd { c with st := .unreach, since := s.el }
    | none => s
  else
    let s := (s.inc F.RCH_LADDER_CNT_CNT 7).loseStripe r (stripeOf b)
    match c with
    | some c => s.failRead c stLost die
    | none => s

/-- A command for work that no queue sent: patrol's reconstructions. -/
def bgCmd (s : State) : Cmd :=
  { newCmd noQueue 0 ⟨0, 0, 0, none, false, 0, 0, 0, 6, false, 0, 0, 0, 0, 0, 0, 0, 0, false, [], 0, []⟩ (s.rd F.SLI_GEN_GEN 0) ⟨s.el, s.el + s.target 6, 6, false, none, false, false⟩ with
      slice := 0 }

/-- Step 6 of a codeword's ladder (10 R242, R245): reconstruction where at most two members are missing, its own included.
`skipped` is the step a jump passed over. -/
def State.stepSix (s : State) (d : Nat) (o : DOp) (c : Option Cmd) (skipped : Option Nat) : State :=
  match s.srow o.row with
  | none => s
  | some x =>
    let miss := (s.missing o.row x).filter (fun m => m != o.member)
    if miss.length + 1 ≤ 2 then s.startRecon o.row x o.member o.mblk false (c.getD (bgCmd s)) o.cw skipped
    else
      match skipped with
      | some n => s.nextStep d { o with dl := min o.dl s.el, lad := { o.lad with jumped := true } } n 0
      | none => s.unrecovered o.row x o.mblk c d

/-- The predicted wait for a key, in ns. -/
def State.waitNs (s : State) (d : Nat) (k : Key) : Nat := s.predict d k * 1000

/-- t_6 of 10 R244 in ns: the k-th smallest wait among the other members, 43 µs and 2 µs; none where fewer than k can be
reached. -/
def State.tSix (s : State) (r : RowId) (x : SRow) (m : Nat) (k : Key) : Option Nat :=
  let ws := insSort (fun (a b : Nat) => decide (a ≤ b)) ((s.others r x m).map (fun i => s.waitNs (s.memBlk r x i).die k))
  (ws[x.k - 1]?).map (fun w => w + 45000)

/-- t_s of 10 R244 in ns; `n` is the number of reads step 2 would make. -/
def stepNs (step n w : Nat) : Nat :=
  match step with
  | 1 => 43000 + w
  | 2 => n * (43000 + w)
  | 3 => 131000 + w
  | 4 => 302000 + w
  | _ => 18000

/-- Whether the ladder jumps to step 6 in place of step `step` (10 R244). -/
def State.jumps (s : State) (d : Nat) (o : DOp) (step : Nat) : Bool :=
  if o.purp != .host || o.lad.jumped || s.rd F.RCH_CFG_JUMP_EN = 0 then false
  else
    match s.srow o.row with
    | none => false
    | some x =>
      let k := s.opKey o
      match s.tSix o.row x o.member k with
      | none => false
      | some t6 => decide (o.dl < s.el + stepNs step (neighbours (s.binsOf ⟨d, o.blk⟩)).length (s.waitNs d k) + t6)

/-- Puts a reconstruction. -/
def State.putRecon (s : State) (r : Recon) : State :=
  { s with rdn := { s.rdn with recon := s.rdn.recon.map (fun (t : Recon) => if t.id = r.id then r else t) } }

/-- Ends a reconstruction. -/
def State.dropRecon (s : State) (id : Nat) : State :=
  { s with rdn := { s.rdn with recon := s.rdn.recon.filter (fun (t : Recon) => t.id != id) } }

/-- A member's value at a block of a row (07 R166): a data member's user data, P or Q over all of them. -/
def State.memVal (s : State) (r : RowId) (k m b : Nat) : Nat :=
  let key := fun (u : Nat) => if r.conv then udRow r.h u else udZone r.h (r.r * (k * memBlocks) + u)
  let ds := (List.range k).map (fun i => s.getUd (key (unitAt k i b)))
  if m < k then ds.getD m 0 else if m = k then parP ds else parQ ds

/-- The value that a reconstruction gives its member from those that decoded (07 R167). -/
def State.rebuilt4k (s : State) (r : Recon) : Nat :=
  gfMember r.k (fun i => if r.got.contains i then some (s.memVal r.row r.k i r.pageNo) else none) r.target

/-- Puts a reconstructed block into a read's data; a row that a Reset emptied keeps what the read was admitted with (04 R97). -/
def State.patchRead (s : State) (r : Recon) (c : Cmd) : Cmd :=
  if c.kind = .read && r.cw < c.srcs.length && (r.row.conv || r.row.h < doomBase) then { c with data := c.data.set r.cw (s.unseal c.nsid (c.lba + r.cw) (s.rebuilt4k r)) } else c

/-- A member of a reconstruction has decoded: with `k` of them the codeword is reconstructed (07 R174). A degraded read and step 6
count at step 6; a read-around ends no ladder. -/
def State.reconGot (s : State) (id m : Nat) : State :=
  match s.rdn.recon.find? (fun r => r.id = id) with
  | none => s
  | some r =>
    let r := { r with got := r.got ++ [m], out := r.out.filter (fun i => i != m) }
    if r.got.length < r.k then s.putRecon r
    else
      let s := s.dropRecon id
      if r.q = noQueue then s.inc F.RCH_LADDER_CNT_CNT 6
      else
        match s.cmdFor r.q r.cid r.arr with
        | none => s
        | some c =>
          let s := if r.around then s else s.inc F.RCH_LADDER_CNT_CNT 6
          let s := if !r.around && s.rd F.RCH_CFG_REFRESH_STEP ≤ 6 then s.wantRefresh ⟨r.die, r.blk⟩ else s
          s.cwDone (s.patchRead r c) r.cw

/-- A reconstruction that can no longer reach `k` members (07 R174, 10 R245): a read-around returns to its target die, a jump
resumes at the step it passed over, and any other ends. -/
def State.reconFail (s : State) (r : Recon) : State :=
  let s := s.dropRecon r.id
  match s.srow r.row with
  | none => s
  | some x =>
    let c := s.cmdFor r.q r.cid r.arr
    if r.q = noQueue then s.unrecovered r.row x r.pageNo none r.die
    else
      match c with
      | none => s
      | some c =>
        let e := s.readOp r.row x (s.isDirect r.row) r.target r.pageNo .host c r.cw
        if r.around then
          if s.memMissing r.row x r.target then
            let a := s.degraded r.row x r.target r.pageNo c r.cw
            match a.2 with
            | .queued => a.1
            | .wait => a.1.putCmd { c with st := .unreach, since := s.el }
            | .fail st => a.1.failRead c st r.die
          else s.enq e.1 e.2
        else
          match r.jumped with
          | some n => s.nextStep e.1 { e.2 with dl := min e.2.dl s.el, lad := { e.2.lad with jumped := true } } n 0
          | none => s.unrecovered r.row x r.pageNo (some c) r.die

/-- A member of a reconstruction will not decode, or cannot be reached any more. -/
def State.reconOut (s : State) (id m : Nat) : State :=
  match s.rdn.recon.find? (fun r => r.id = id) with
  | none => s
  | some r =>
    let r := { r with out := r.out.filter (fun i => i != m) }
    if r.got.length + r.out.length < r.k then s.reconFail r else s.putRecon r

/-- A codeword climbs from a step that failed (10 R242-R245). -/
def State.climb (s : State) (d : Nat) (o : DOp) (unsat : Nat) : State :=
  let lad := if o.step ≤ 2 && unsat < o.lad.unsat then { o.lad with best := o.lad.offs, unsat := unsat } else o.lad
  let o := { o with lad := lad }
  let n := (neighbours (s.binsOf ⟨d, o.blk⟩)).length
  let nx : Nat × Nat :=
    if o.step = 0 then (1, 0)
    else if o.step = 1 then (if n = 0 then (3, 0) else (2, 0))
    else if o.step = 2 then (if o.lad.sub + 1 < n then (2, o.lad.sub + 1) else (3, 0))
    else (o.step + 1, 0)
  let c := if o.purp = .host then s.cmdFor o.q o.cid o.arr else none
  if o.purp = .host && c.isNone then s
  else if nx.1 ≤ 5 then
    if nx.2 = 0 && s.jumps d o nx.1 then (s.inc F.RCH_JUMP_CNT_CNT).stepSix d o c (some nx.1)
    else if nx.1 = 5 then s.toBuffer d { o with step := 5, senses := 0 }
    else s.nextStep d o nx.1 nx.2
  else
    match o.purp with
    | .recon => s.reconOut o.cw o.member
    | .patrol => ((s.inc F.RCH_PATROL_CNT_RECON).wantRefresh ⟨d, o.blk⟩).stepSix d o none none
    | .host =>
      if o.lad.jumped then
        match s.srow o.row with
        | some x => s.unrecovered o.row x o.mblk c d
        | none => s
      else s.stepSix d o c none
    | _ => s

end Sys2Proof.Machine
end

