-- ==== Sys2Proof/Machine/RowOps.lean ====
section
/-! DEFINITION. What programs, erases and losses do to stripe rows and dies: programmed and verified pages and wordlines (06 R146-R155,
R506; 09 R219-R221), tiers at erase (10 R234-R236), substitution (07 R175), retirement (09 R226, R227) and operations lost with a
die (08 R199). -/

namespace Sys2Proof.Machine

/-! ### Substitution (07 R175) -/

/-- Pending rebuild targets of a die. -/
def State.targetsOn (s : State) (d : Nat) : Nat := (s.rdn.subst.filter (fun e => !e.done && e.blk.die = d)).length

/-- The die with the fewest pending rebuild targets, the lowest number on a tie. -/
def State.bestTarget (s : State) : List Nat → Option Nat
  | [] => none
  | d :: ds =>
    match s.bestTarget ds with
    | none => some d
    | some e => if s.targetsOn e < s.targetsOn d || (s.targetsOn e = s.targetsOn d && e < d) then some e else some d

/-- Dies that can take a row's substitute: of the member's group, working, with an erased block, on a link that the stripe set does
not use, and not a target of the row already. -/
def State.substDies (s : State) (r : RowId) (x : SRow) (m : Nat) : List Nat :=
  match s.grpOfDie (s.memBlk r x m).die with
  | none => []
  | some (_, g) =>
    g.allDies.filter (fun d => s.works d && s.erasedOn d > 0 && !x.mem.any (fun b => b.die / 64 = d / 64)
      && !s.rdn.subst.any (fun e => e.row = r && e.member != m && e.blk.die / 64 = d / 64))

/-- No spare block can take a lost member's place: the controller finishes the zone, where the row is an active one's (04 R92). -/
def State.noSpare (s : State) (r : RowId) : State := if r.conv || doomBase ≤ r.h then s else s.ctlFinish r.h

/-- Substitutes a lost member of a row; where the table is full or no die qualifies, an active zone is finished (04 R92). -/
def State.substitute (s : State) (r : RowId) (m : Nat) : State :=
  match s.srow r with
  | none => s
  | some x =>
    if s.memPend r m then s
    else if s.rdn.subst.length ≥ 1048576 then
      (if s.rd F.RDN_STS_SUBST_FULL = 1 then s else (s.wr F.RDN_STS_SUBST_FULL 1).raise evSubstFull 0xFFFF 0).noSpare r
    else
      match s.bestTarget (s.substDies r x m) with
      | none => s.noSpare r
      | some d =>
        match s.takeBlk d false true with
        | none => s.noSpare r
        | some (s, b) =>
          let l := s.rdn.subst.filter (fun e => !(e.row = r && e.member = m)) ++ [Subst.mk r m b false 0]
          ({ s with rdn := { s.rdn with subst := l } }).jn 0x10 [b2n r.conv, r.h, r.r, m, b.die, b.blk]

/-- Whether a row belongs to an active zone. -/
def State.activeRow (s : State) (r : RowId) : Bool := !r.conv && r.h < doomBase && isActive (s.zst r.h)

/-- Substitutes the members that rows keep on a die, of the rows that pass a test. -/
def State.substDie (s : State) (d : Nat) (ok : RowId → Bool) : State :=
  s.allRows.foldl (fun (s : State) e =>
    (List.range e.2.mem.length).foldl (fun (s : State) m =>
      if ok e.1 && (s.memBlk e.1 e.2 m).die = d then s.substitute e.1 m else s) s) s

/-! ### Operations lost with a die (08 R199, 09 R227) -/

/-- What becomes of a read that will not return: a host read is served degraded, a member of a reconstruction drops out. Sources of
programs stay authoritative, and blocks that wait for erase stay so. -/
def State.lostOp (s : State) (d : Nat) (o : DOp) : State :=
  if o.kind != .read then s
  else if o.purp = Purp.host then
    match s.cmdFor o.q o.cid o.arr, s.srow o.row with
    | some c, some x =>
      let a := s.degraded o.row x o.member o.mblk c o.cw
      match a.2 with
      | .queued => a.1
      | .wait => a.1.putCmd { c with st := .unreach, since := s.el }
      | .fail st => a.1.failRead c st d
    | _, _ => s
  else if o.purp = Purp.recon then s.reconOut o.cw o.member
  else s

/-- Ends every operation of a die that takes none any more. -/
def State.loseOps (s : State) (d : Nat) : State :=
  let x := s.dieOf d
  let l := x.cur.toList ++ x.merged ++ x.susp.toList ++ x.queue
  let s := s.putDie d { x with cur := none, merged := [], susp := none, queue := [], between := none }
  l.foldl (fun (s : State) o => s.lostOp d o) s

/-! ### Retirement (09 R226, R227) -/

/-- Retires a die that is present and not retired. -/
def State.retireDie (s : State) (d : Nat) : State :=
  let x := s.dieOf d
  if !x.present || x.retired then s
  else
    let s := ((s.putDie d { x with retired := true }).addw F.MED_DESC_RETIRED 1).jn 0x12 [d]
    let s := (s.loseOps d).substDie d (fun _ => true)
    ((s.sweepSkip d).raise evDieRetired 0xFFFF d).ceiling false

/-- Ten seconds, in ns. -/
def tenSec : Nat := 10000000000

/-- Retires a die whose failures or wear call for it. -/
def State.retireCheck (s : State) (d : Nat) : State :=
  let x := s.dieOf d
  let late := fun (l : List Nat) => (l.filter (fun t => s.el ≤ t + tenSec)).length
  let w := s.rd F.MED_RET_CFG_RET_WEAR
  if x.gbb > s.rd F.MED_RET_CFG_GBB_MAX || late x.allFails ≥ 2 || late x.resets ≥ max 1 (s.rd F.MED_RET_CFG_RESETS)
      || (w != 0 && x.wear ≥ w * 100) then s.retireDie d
  else s

/-! ### Tiers at erase (10 R234-R236) -/

/-- The mean bit level of a die's measured blocks. -/
def State.dieLevel (s : State) (d : Nat) : Nat :=
  let l := s.die.blks.filterMap (fun e => if e.1 / 2048 = d then e.2.level else none)
  l.sum / max 1 l.length

/-- The tier of a block at erase, where one qualifies (10 R236). -/
def State.pickTier (s : State) (b : Blk) : Option Nat :=
  let y := s.descOf b.die
  let l := ((s.blkOf b).level).getD (s.dieLevel b.die)
  let h := retBin (s.rd F.RCH_TIER_CFG_HORIZON * 24 * hourNs)
  let g := s.die.growth.getD (s.peBin b * 12 + h) 16
  let fits := fun t => l * g * 100 ≤ 16 * s.rd F.RCH_TIER_CFG_MARGIN * hardLimit t && (tailCws y t = 0 || tailRecs y t > 0)
  (List.range 4).find? fits

/-! ### Tail areas (10 R234, R235, R250) -/

/-- The tail blocks of a die. -/
def State.tailBlks (s : State) (d : Nat) : List Nat := ((s.die.tails.filter (fun e => e.die = d)).map (·.blk)).dedup

/-- Opens a tail block on a die: an erased block in one-bit mode, its records free. -/
def State.openTail (s : State) (d t : Nat) : Option State :=
  if s.rd F.RCH_TAIL_CFG_BLOCKS ≤ (s.tailBlks d).length then none
  else (s.takeBlk d true).map (fun e =>
    { e.1 with die := { e.1.die with tails := e.1.die.tails ++ (List.range (tailRecs (s.descOf d) t)).map (fun i =>
        Tail.mk d e.2.blk i t none false 0) } })

/-- A record that may be reserved on a die at a tier: free, and not programmed since its block was erased. -/
def State.freeTail (s : State) (d t but : Nat) : Option Tail :=
  s.die.tails.find? (fun e => e.die = d && e.tier = t && e.own.isNone && !e.begun && e.blk != but)

/-- Replaces a tail record. -/
def State.putTail (s : State) (e : Tail) : State :=
  { s with die := { s.die with tails := s.die.tails.map (fun (f : Tail) => if f.die = e.die && f.blk = e.blk && f.slot = e.slot then e else f) } }

/-- Reserves a record for a quarter of a QLC block, in a new tail block where no record is free. -/
def State.takeTail (s : State) (b : Blk) (t q : Nat) : Option State :=
  let s := if (s.freeTail b.die t 2048).isSome then some s else s.openTail b.die t
  s.bind (fun s => (s.freeTail b.die t 2048).map (fun e => s.putTail { e with own := some (b.blk, q) }))

/-- Reserves the four tail records of a QLC block at a tier that has tails; none where its die cannot (10 R235). -/
def State.reserveTails (s : State) (b : Blk) (t : Nat) : Option State :=
  if tailCws (s.descOf b.die) t = 0 then some s
  else (List.range 4).foldl (fun (a : Option State) q => a.bind (fun s => s.takeTail b t q)) (some s)

/-- Gives a block a tier it is written at, with the records its tails take (09 R221; 10 R235). -/
def State.asTier (s : State) (b : Blk) (t : Nat) : State :=
  let x := s.blkOf b
  if x.tier = t then s
  else
    let s := (s.freeTails b).putBlk b { x with tier := t }
    if x.onebit then s else (s.reserveTails b t).getD s

/-- The records of a block that was written as a whole by copies: programmed and verified. -/
def State.tailsWhole (s : State) (b : Blk) : State :=
  s.die.tails.foldl (fun (s : State) e =>
    if e.die = b.die && e.own.map (·.1) = some b.blk then (s.putTail { e with begun := true, pages := tailPages (s.descOf e.die) e.tier }).stampNow ⟨e.die, e.blk⟩
    else s) s

/-- The tails of a block that moves: on its own die they stay where they are and go over to the new block, on another they are written anew (10
R234). -/
def State.moveTails (s : State) (old new : Blk) : State :=
  if old.die = new.die then
    let s := s.freeTails new
    { s with die := { s.die with tails := s.die.tails.map (fun (e : Tail) =>
        if e.die = old.die && e.own.map (·.1) = some old.blk then { e with own := e.own.map (fun p => (new.blk, p.2)) } else e) } }
  else (s.tailsWhole new).freeTails old

/-- The charge of copying pages of tail records of a die, in 1/16 µs: reads, programs and verifies. -/
def chgTail (y : Desc) (t pages : Nat) : Nat :=
  let n := pages * ceilDiv (tailCws y t) (max 1 (tailPages y t))
  2 * chgWhole y t n + chgWrite y (n * 4096)

/-- Starts the relocation of the live records of a tail block more than half of whose records are free again, where others can take them (10
R235); 11 R270 counts it under kind 3. -/
def State.tailMove (s : State) (d b : Nat) : State :=
  let es := s.die.tails.filter (fun e => e.die = d && e.blk = b)
  let live := es.filter (fun e => e.own.isSome)
  let t := (es.head?.map (·.tier)).getD 0
  if s.ftl.relocs.any (fun (j : Reloc) => j.kind = 3 && j.old = ⟨d, b⟩) || live.any (fun e => e.begun && !s.tailDone e) then s
  else
    let a := live.foldl (fun (a : Option (State × List (Nat × Nat × Nat × Nat))) e => a.bind (fun p =>
      let s := if (p.1.freeTail d t b).isSome then some p.1 else p.1.openTail d t
      s.bind (fun s => (s.freeTail d t b).map (fun f => (s.putTail { f with begun := true }, p.2 ++ [(e.slot, f.blk, f.slot, 0)]))))) (some (s, []))
    match a with
    | none => s
    | some (s, ms) =>
      let s := s.chargeBg 0 (chgTail (s.descOf d) t (live.map (·.pages)).sum)
      { s.bump with ftl := { s.bump.ftl with relocs := s.ftl.relocs ++ [Reloc.mk s.fresh 3 ⟨true, 2 ^ 20, 0⟩ 0 ⟨d, b⟩ ⟨d, b⟩ ms 0 none] } }

/-- Looks at the tail blocks of a die after records were released: one without a live record waits for erase, one more than half of whose records
were released is relocated (10 R235). -/
def State.tailSweep (s : State) (d : Nat) : State :=
  (s.tailBlks d).foldl (fun (s : State) b =>
    let es := s.die.tails.filter (fun e => e.die = d && e.blk = b)
    let dead := (es.filter (fun e => e.begun && e.own.isNone)).length
    if s.ftl.relocs.any (fun (j : Reloc) => j.kind = 3 && j.moves.any (fun m => m.2.1 = b)) then s
    else if dead > 0 && es.all (fun e => e.own.isNone) then
      { s with die := { s.die with tails := s.die.tails.filter (fun e => !(e.die = d && e.blk = b)) } }.staleBlk ⟨d, b⟩
    else if dead * 2 > es.length then s.tailMove d b
    else s) s

/-- A tail relocation's journal entry is persistent: the records are where they were copied to, and the old block waits for erase. -/
def State.tailMoved (s : State) (j : Reloc) : State :=
  let s := j.moves.foldl (fun (s : State) m =>
    match s.die.tails.find? (fun e => e.die = j.old.die && e.blk = j.old.blk && e.slot = m.1),
          s.die.tails.find? (fun e => e.die = j.old.die && e.blk = m.2.1 && e.slot = m.2.2.1) with
    | some e, some f => ((s.putTail { e with own := none }).putTail { f with own := e.own, pages := e.pages, begun := e.begun }).jn 0x16
        [f.die, f.blk, f.slot, (e.own.map (·.1)).getD 0, (e.own.map (·.2)).getD 0]
    | _, _ => s) s
  s.tailSweep j.old.die

/-- Queues the programs of the tail of quarter `q` of member `m`'s block, once, where its tier has one (10 R234). -/
def State.tailProg (s : State) (o : DOp) (m q : Nat) : State :=
  match s.srow o.row with
  | none => s
  | some x =>
    let b := x.mem.getD m ⟨0, 0⟩
    match s.tailOf b q with
    | none => s
    | some e =>
      if e.begun then s
      else
        let n := tailPages (s.descOf b.die) e.tier
        (List.range n).foldl (fun (s : State) i =>
          s.enq b.die { o with
            kind := .prog1, purp := .tail, blk := e.blk, page := e.slot * n + i, member := m, cw := q, tier := e.tier
            lad := Lad.foot, sus := 0, ran := 0, back := 0 }) (s.putTail { e with begun := true })

/-- Whether a unit of a row lies in a tail that is not programmed and verified yet (10 R234). -/
def State.tailOpen (s : State) (x : SRow) (u : Nat) : Bool :=
  let p := placeIn x.k u
  let b := x.mem.getD p.1 ⟨0, 0⟩
  nFit (s.descOf b.die) (s.blkOf b).tier ≤ p.2 % winBlocks
    && ((s.tailOf b (p.2 / winBlocks)).map (fun e => !s.tailDone e)).getD false

/-- Counts the user capacity that an erase on a die gives its group this epoch: 128 MiB × k / (k + 2) (11 R275). -/
def State.noteErased (s : State) (d : Nat) : State :=
  match s.grpOfDie d with
  | none => s
  | some (g, x) =>
    let e := (Tab.find g s.ftl.erasedCap).getD (0, 0)
    { s with ftl := { s.ftl with erasedCap := Tab.put g (e.1 + 2 ^ 27 * x.k / (x.k + 2), e.2) s.ftl.erasedCap } }

/-- Rows whose data waits in staging for the blocks of a window row try again, and their complete pages are programmed (06 R146). -/
def State.openWaiting (s : State) : State :=
  ((s.stg.units.filter (fun u => u.pool != 1)).map (·.row)).dedup.foldl (fun (s : State) r =>
    match s.srow r with
    | none => s
    | some x =>
      let us := s.stg.units.filter (fun u => u.row = r && x.win.length ≤ (winOf (placeIn x.k u.off).2).1)
      if x.direct || us.isEmpty then s
      else
        let s := s.openWin r
        let n := if r.conv then 0 else s.zSlice r.h
        ((us.map (fun u => let w := winOf (placeIn x.k u.off).2; (w.1, w.2, (placeIn x.k u.off).1))).dedup).foldl (fun (s : State) e =>
          if (s.unitsOn r x.k e.2.2 (pageSpan e.1 e.2.1).1 (pageSpan e.1 e.2.1).2).length + (pageSpan e.1 e.2.1).1 = (pageSpan e.1 e.2.1).2 then
            s.progPage r x.k e.1 e.2.1 e.2.2 n .data
          else s) s) s

/-- A block's erase has ended well: it becomes erased at its tier, or grown bad (10 R235, R236; 09 R224). -/
def State.erased (s : State) (b : Blk) : State :=
  let x := s.blkOf b
  let d := s.dieOf b.die
  let s := ((s.putDie b.die { d with erases24 := d.erases24.modifyHead (· + 1) }).noteErased b.die).jn 0x14 [b.die, b.blk, x.erases + 1]
  let y := { BlkSt.fresh with erases := x.erases + 1, level := x.level, tier := x.tier }
  let s := (s.putBlk b { y with use := .stale }).freeTails b
  let s := s.tailSweep b.die
  match s.pickTier b with
  | some t =>
    (match s.reserveTails b t with
     | some s => ((s.putBlk b { y with tier := t }).jn 0x15 [b.die, b.blk, t]).openWaiting
     | none => ((s.badBlk b).inc F.RCH_TAIL_STS_STARVED).retireCheck b.die)
  | none => (s.badBlk b).retireCheck b.die

/-! ### Pages and wordlines of a row -/

/-- Whether page `p` of window row `w` is programmed on every member of a list that is not pending substitution. -/
def State.pageOn (s : State) (r : RowId) (x : SRow) (w p : Nat) (ms : List Nat) : Bool :=
  ms.all (fun m => s.memPend r m || p < x.pg w m)

/-- Units of staging on a member's page leave: the page holds them (01 R14). Flushes that waited for them go on (07 R171). -/
def State.releasePage (s : State) (r : RowId) (k m b0 b1 : Nat) : State :=
  let keep := s.stg.units.filter (fun u => !(u.row = r && (placeIn k u.off).1 = m && b0 ≤ (placeIn k u.off).2 && (placeIn k u.off).2 < b1))
  ({ s with stg := { s.stg with units := keep } }).finFlush

/-- A member's page is programmed, and verified where it was drawn: its units leave staging, except those whose codewords lie in a
tail that is not written yet (10 R234). The last page of a unit with a tail queues the tail's program. -/
def State.pageGood (s : State) (o : DOp) : State :=
  match s.srow o.row with
  | none => s
  | some x =>
    let sp := pageSpan o.cw o.page
    let b := x.mem.getD o.member ⟨0, 0⟩
    let fit := if (s.tailOf b o.cw).isSome then nFit (s.descOf b.die) (s.blkOf b).tier else winBlocks
    let s := s.releasePage o.row x.k o.member sp.1 (min sp.2 (o.cw * winBlocks + fit))
    let s := if o.page + 1 = winPages then s.tailProg o o.member o.cw else s
    s.padDone o.row

/-- The wordline that window page `p` of row `w` is a source of becomes eligible once all its source pages are programmed on every
member (06 R153). -/
def State.eligible (s : State) (r : RowId) (w p lc : Nat) : State :=
  match s.srow r with
  | none => s
  | some x =>
    let n := (w * winPages + p) / 4
    let ok := (List.range 4).all (fun i => s.pageOn r x ((4 * n + i) / winPages) ((4 * n + i) % winPages) (List.range x.mem.length))
    if ok && x.fold ≤ n && !x.elig.any (fun e => e.1 = n) then s.putRow r { x with elig := x.elig ++ [(n, s.el, lc)] } else s

/-- A member's page has been programmed (06 R146, R148): P and Q follow when every data member has it, and the wordline may become
eligible when every member has. A logged P and Q of the page-row is freed then (07 R171). -/
def State.pageProgrammed (s : State) (o : DOp) : State :=
  match s.srow o.row with
  | none => s
  | some x0 =>
    let x := { x0 with pages := x0.pages.modify o.cw (fun l => l.set o.member (max (l.getD o.member 0) (o.page + 1))) }
    let s := s.putRow o.row x
    let k := x.k
    let pq := [k, k + 1].filter (fun m => !s.memPend o.row m && x.pg o.cw m ≤ o.page)
    let logged := s.stg.plog.any (fun e => e.row = o.row && e.page = o.cw * winPages + o.page)
    let s := if o.member < k && s.pageOn o.row x o.cw o.page (List.range k) then
        pq.foldl (fun (s : State) m =>
          let b := (x.win.getD o.cw []).getD m ⟨0, 0⟩
          if s.pageQueued o.row m b.blk o.page b.die then s
          else (if logged then s.charge o.slice none (chgSense (s.descOf b.die) 1 + chgLink (pageBlocks * cwBytes 0)) else s).enq b.die
            { o with member := m, blk := b.blk, lad := Lad.foot, sus := 0, ran := 0 }) s
      else s
    if s.pageOn o.row x o.cw o.page (List.range x.mem.length) then
      let pg := o.cw * winPages + o.page
      let s := { s with stg := { s.stg with
        plog := s.stg.plog.filter (fun e => !(e.row = o.row && e.page = pg))
        par := s.stg.par.filter (fun e => !(e.row = o.row && e.page = pg)) } }
      s.eligible o.row o.cw o.page o.lc
    else s

/-- Units of a zone that now lie in the held wordline move from the window pool to its reservation (06 R146). -/
def State.takeOver (s : State) (h : Nat) : State :=
  let k := s.rd F.ZON_ENT3_K h
  let us := s.stg.units.map (fun (u : StU) =>
    if !u.row.conv && u.row.h = h && u.pool = 0 && s.inHeld h (u.row.r * (k * memBlocks) + u.off) then { u with pool := 1 } else u)
  { s with stg := { s.stg with units := us } }

/-- A direct wordline is verified on every member (06 R146, R155, R506; 04 R104): its units leave staging, and the reservation moves
to the next wordline, to the next row, or is released. -/
def State.directDone (s : State) (r : RowId) (k n : Nat) : State :=
  let hold := fun (u : Nat) => ((s.srow r).map (fun x => s.tailOpen x u)).getD false
  let s := { s with stg := { s.stg with units := s.stg.units.filter (fun (u : StU) => !(u.row = r && u.off / (k * wlBlocks) = n) || hold u.off) } }
  let z := s.zxOf r.h
  if doomBase ≤ r.h || z.dirWl = wlCount then s
  else if z.padTo = 1 then s.padDone r
  else if n + 1 < wlCount then (s.putZx r.h { z with dirWl := n + 1 }).takeOver r.h
  else if r.r + 1 < z.rows.length then (s.putZx r.h { z with dirRow := r.r + 1, dirWl := 0 }).takeOver r.h
  else s.dropDirect r.h

/-- A QLC wordline is verified on member `m`; when it is on every one, staging is released on the direct route, and a fold is
journalled (06 R154, R155). -/
def State.wlGood (s : State) (r : RowId) (m n : Nat) : State :=
  match s.srow r with
  | none => s
  | some x0 =>
    let x := { x0 with wl := x0.wl.set m (max (x0.wl.getD m 0) (n + 1)) }
    let s := s.putRow r x
    let q := (n * wlBlocks + wlBlocks) / winBlocks
    let s := if s.isDirect r && n * wlBlocks < q * winBlocks then
        s.tailProg (pageOp r m 0 0 (s.zSlice r.h) noQueue 0 s.el (s.el + s.target 5) 0 (s.rd F.SLI_GEN_GEN (s.zSlice r.h)) 0 .tail) m (q - 1)
      else s
    if (List.range x.mem.length).all (fun i => s.memPend r i || n < x.wl.getD i 0) then
      if s.isDirect r then s.directDone r x.k n else (s.foldFreed (x.k * wlBlocks * 4096)).jn 0x07 [b2n r.conv, r.h, r.r, n] (.foldDone r n)
    else s

/-! ### Failed programs and verifies (09 R221) -/

/-- The program that a failed operation's data is written with again: its first pass. -/
def heldOp (o : DOp) : DOp :=
  { o with
    kind := (match o.kind with
      | .fine => .coarse
      | .foldF => .foldC
      | k => k)
    lad := Lad.foot, sus := 0, ran := 0, step := 0 }

/-- The 4 KiB blocks of a member's verified pages or wordlines in one of its blocks (09 R221 step 3). -/
def State.verifiedIn (s : State) (r : RowId) (m : Nat) (b : Blk) : Nat :=
  match s.srow r with
  | none => 0
  | some x =>
    match (List.range x.win.length).find? (fun w => (x.win.getD w []).contains b) with
    | some w => ((List.range (x.pg w m)).map pageUser).sum
    | none => x.wl.getD m 0 * wlBlocks

/-- Takes a replacement block on the same die, in the same mode and tier, for a relocation of kind 2, whose copy of the verified wordlines is
charged to slice 0 as relocation; the member is substituted where the die has none. -/
def State.replaceBlk (s : State) (r : RowId) (m : Nat) (old : Blk) (onebit : Bool) (tier : Nat) (o : DOp) : State :=
  match s.takeBlk old.die onebit with
  | some (s, b) =>
    let s := s.asTier b tier
    let y := s.descOf b.die
    let n := s.verifiedIn r m old
    let s := s.chargeBg 0 (chgWhole y tier n + chgLink (n * 4096) + chgProg (n * 4096) (if onebit then y.rate1 else y.rateQ)
      + (if onebit then 0 else chgWhole y tier n))
    { s.bump with ftl := { s.bump.ftl with relocs := s.ftl.relocs ++ [Reloc.mk s.fresh 2 r m old b [] 0 (some o)] } }
  | none => s.substitute r m

/-- A tail block is grown bad (10 R250): its records go to another block of the die, the verified ones copied as relocation, with the programs that
are queued for them. -/
def State.tailBad (s : State) (d b : Nat) : State × Option Blk :=
  let s := s.badBlk ⟨d, b⟩
  match s.takeBlk d true with
  | none => (s, none)
  | some (s, n) =>
    let es := s.die.tails.filter (fun e => e.die = d && e.blk = b)
    let s := s.chargeBg 0 (chgTail (s.descOf d) ((es.head?.map (·.tier)).getD 0) (es.map (·.pages)).sum)
    let x := s.dieOf d
    let s := s.putDie d { x with queue := x.queue.map (fun (p : DOp) => if p.blk = b && p.kind = .prog1 then { p with blk := n.blk } else p) }
    ({ s with die := { s.die with tails := s.die.tails.map (fun (e : Tail) => if e.die = d && e.blk = b then { e with blk := n.blk } else e) } }, some n)

/-- A program of a tail record has failed, or was not verified (10 R250; 09 R221): it is made again in the block that takes the bad one's place; where
the die has none its member is substituted. -/
def State.tailFailed (s : State) (d : Nat) (o : DOp) : State :=
  match s.tailBad d o.blk with
  | (s, some b) => s.enq d { heldOp o with blk := b.blk }
  | (s, none) => s.substitute o.row o.member

/-- A page of a tail record stands: with its last the staged blocks of the tail leave staging (10 R234). -/
def State.tailStands (s : State) (o : DOp) : State :=
  match s.die.tails.find? (fun e => e.die = o.die && e.blk = o.blk && e.slot = o.page / max 1 (tailPages (s.descOf o.die) e.tier)) with
  | none => s
  | some e =>
    let s := s.putTail { e with pages := e.pages + 1 }
    if s.tailDone { e with pages := e.pages + 1 } then
      let s := s.jn 0x16 [e.die, e.blk, e.slot, (e.own.map (·.1)).getD 0, o.cw]
      match s.srow o.row with
      | some x => s.releasePage o.row x.k o.member (o.cw * winBlocks + nFit (s.descOf e.die) e.tier) ((o.cw + 1) * winBlocks)
      | none => s
    else s

/-- A program has failed, was aborted, or was not verified: the block is grown bad and replaced. A failure on the replacement replaces
it in turn. A tail's record is written again in another block. -/
def State.progFailed (s : State) (d : Nat) (o : DOp) : State :=
  let x := s.dieOf d
  let s := s.putDie d { x with pfail := x.pfail + 1 }
  if o.purp = Purp.tail then (s.tailFailed d o).retireCheck d
  else
    let b : Blk := ⟨d, o.blk⟩
    let s := (s.badBlk b).dequeue d (fun p => p.blk != o.blk || p.kind = OpKind.read)
    let h := heldOp o
    let s :=
      match s.srow o.row with
      | none => s
      | some _ =>
        match s.ftl.relocs.find? (fun (j : Reloc) => o.purp = Purp.copy && j.id + 1 = o.cid) with
        | some j =>
          let s := { s with ftl := { s.ftl with relocs := s.ftl.relocs.filter (fun (i : Reloc) => i.id != j.id) } }
          s.replaceBlk j.row j.member j.old (h.kind = OpKind.prog1) o.tier (j.op.getD h)
        | none => s.replaceBlk o.row o.member b (h.kind = OpKind.prog1) o.tier h
    s.retireCheck d

/-- The failed program of R221 stands on the replacement: the member's new block is journalled (R221 step 5). -/
def State.copyStands (s : State) (cid : Nat) : State :=
  match s.ftl.relocs.find? (fun (j : Reloc) => j.id + 1 = cid) with
  | none => s
  | some j =>
    let s := { s with ftl := { s.ftl with relocs := s.ftl.relocs.map (fun (i : Reloc) => if i.id = j.id then { i with step := 2 } else i) } }
    s.jn 0x08 [b2n j.row.conv, j.row.h, j.row.r, j.member, j.old.die, j.old.blk, j.new.die, j.new.blk] (.reloc j.id)

/-- What a program that stands does to its row: for a replacement, the journal first. -/
def State.stands (s : State) (o : DOp) : State :=
  if o.purp = Purp.copy then s.copyStands o.cid
  else if o.purp = Purp.tail then s.tailStands o
  else if o.kind = .prog1 then s.pageGood o
  else s.wlGood o.row o.member o.page

/-- The verify read of a program: every codeword of its page, or of the four pages of its wordline, at hard-read offsets (09 R214,
R219, R220). -/
def verifyOp (o : DOp) : DOp :=
  { o with kind := .read, vfy := some o.kind, planes := 0x3F, senses := 1, pages := if o.kind = .prog1 then 1 else 4, step := 0,
           lad := Lad.foot, sus := 0, ran := 0 }

/-- The program that a verify read checks. -/
def verified (o : DOp) : DOp := { o with kind := o.vfy.getD .prog1, vfy := none, pages := 1, senses := 0 }

end Sys2Proof.Machine
end

