-- ==== Sys2Proof/Machine/Dies.lean ====
section
/-! DEFINITION. The meanings of the die commands: issue, STATUS records, failures and timeouts (09 R209-R222). -/

namespace Sys2Proof.Machine

/-- DIE_OPERATION_ISSUE (09 R213-R216): the scheduler of die `d` chooses now. -/
def execDieOperationIssue (d : Nat) (s : State) : Res := .next (s.dieIssue d)

/-- A read that came back: its codeword enters the raw sense buffer, or is discarded where its stamp is stale (02 R52). -/
def State.sensed (s : State) (d : Nat) (o : DOp) : State :=
  if (o.purp = .host || o.purp = .recon) && o.q != noQueue then
    if !s.live o.slice o.q o.genS o.genQ then s.stale o.slice
    else if o.purp = .host && (s.cmdFor o.q o.cid o.arr).isNone then s
    else s.toBuffer d o
  else s.toBuffer d o

/-- READ DATA and the STATUS record of the sense that die `d` ran (10 R240, R241; 09 R212). The codewords that `bad` numbers were uncorrectable in the raw sense
buffer: they are sensed again at the same ladder step (20 R433). -/
def State.readBack (s : State) (d : Nat) (temp : Int) (busy : Nat) (bad : List Nat) : State :=
  let x := s.dieOf d
  match x.cur with
  | some o =>
    if o.kind != .read then s
    else
      let s := s.dieDone d o temp busy
      (((o :: x.merged).mapIdx (fun i p => (i, p))).foldl (fun (s : State) (e : Nat × DOp) =>
        if bad.contains e.1 then s.enq d e.2 else s.sensed d e.2) s).resumeAll
  | none => s

/-- A one-bit page is programmed (09 R220): a draw of the die's LFSR decides whether it is verified. The LFSR's next value is not
given: a free value (log 3). -/
def State.prog1Done (s : State) (d : Nat) (o : DOp) : State :=
  let v := cut 16 (s.drawn 20)
  let s := s.draw
  let x := s.dieOf d
  let s := s.putDie d { x with lfsr := v }
  let s := if o.purp = .copy || o.purp = .tail then s else s.pageProgrammed o
  if o.purp = .tail || v * 100 < s.rd F.MED_VFY_CFG_ONEBIT_PCT * 65536 then s.enq d (verifyOp o)
  else s.stands o

/-- PROGRAM_DONE (09 R209, R212, R219, R220): the STATUS record of the program or pass that die `d` ran. A fine pass follows a coarse
one with its deadline, a verify read follows a fine one. -/
def execProgramDone (d : Nat) (temp : Int) (busy : Nat) (s : State) : Res :=
  .next (
    let x := s.dieOf d
    match x.cur with
    | none => s
    | some o =>
      if o.kind = .read || o.kind = .erase then s
      else
        let s := (s.dieDone d o temp busy).stampBlk ⟨d, o.blk⟩ temp
        let y := s.dieOf d
        let s :=
          if o.kind = .prog1 then s.prog1Done d o
          else if o.kind = .coarse then (s.putDie d { y with between := some (o.blk, o.page, s.el) }).enq d { o with kind := .fine }
          else if (o.kind = .foldC || o.kind = .foldF) && !((s.srow o.row).map (fun x => x.mem.contains ⟨d, o.blk⟩ || s.memBlk o.row x o.member = ⟨d, o.blk⟩)).getD false then
            s.putDie d { y with between := none }
          else if o.kind = .foldC then (s.putDie d { y with between := some (o.blk, o.page, s.el) }).enq d { o with kind := .foldF }
          else (s.putDie d { y with between := none }).enq d (verifyOp o)
        s.resumeAll)

/-- PROGRAM_FAIL (09 R221, R226): the STATUS record reports a failure; `planes` is the mask of the planes that failed. -/
def execProgramFail (d planes : Nat) (temp : Int) (busy : Nat) (s : State) : Res :=
  .next (
    let x := s.dieOf d
    match x.cur with
    | none => s
    | some o =>
      if o.kind = .read || o.kind = .erase then s
      else
        let s := (s.dieDone d o temp busy).inc F.MED_VFY_FAIL_PFAIL
        let y := s.dieOf d
        let all := planes + 1 = 2 ^ (s.descOf d).planes
        let s := s.putDie d { y with
          between := if o.kind = .prog1 then y.between else none
          allFails := if all then s.el :: y.allFails else y.allFails }
        (s.progFailed d o).resumeAll)

/-- ERASE_DONE (09 R224, 10 R236): the running erase of die `d` has ended well. -/
def execEraseDone (d : Nat) (temp : Int) (busy : Nat) (s : State) : Res :=
  .next (
    match (s.dieOf d).cur with
    | none => s
    | some o =>
      if o.kind != .erase then s
      else ((s.dieDone d o temp busy).erased ⟨d, o.blk⟩).resumeAll)

/-- ERASE_SUSPENDED (09 R212, R215, R216): STATUS result 4, with the progress so far in µs; the winning operation runs inside. -/
def execEraseSuspended (d : Nat) (temp : Int) (prog : Nat) (s : State) : Res :=
  .next (
    let x := s.dieOf d
    match x.cur with
    | none => s
    | some o =>
      if o.kind != .erase || o.step != 1 then s
      else
        let s := s.putDie d { x with cur := none, susp := some { o with step := 0, sus := o.sus + 1, ran := prog }, temp := temp }
        s.dieIssue d)

/-- ERASE_FAIL (09 R222, R224, R226): the block is grown bad. -/
def execEraseFail (d planes : Nat) (temp : Int) (busy : Nat) (s : State) : Res :=
  .next (
    match (s.dieOf d).cur with
    | none => s
    | some o =>
      if o.kind != .erase then s
      else
        let s := s.dieDone d o temp busy
        let y := s.dieOf d
        let all := planes + 1 = 2 ^ (s.descOf d).planes
        let s := s.putDie d { y with efail := y.efail + 1, allFails := if all then s.el :: y.allFails else y.allFails }
        ((s.badBlk ⟨d, o.blk⟩).retireCheck d).resumeAll)

/-- An erase repeated from the start, its suspend count at 0 (09 R210, R228). -/
def again (o : DOp) : DOp := { o with sus := 0, ran := 0, step := 0 }

/-- DIE_OP_TIMEOUT (09 R210, R226, R228): an operation past its maximum plus 1 ms is ended by a die reset; reads and erases are issued
again, a program has failed, and a suspended erase is repeated from the start. -/
def execDieOpTimeout (d : Nat) (s : State) : Res :=
  .next (
    let x := s.dieOf d
    match x.cur with
    | none => s
    | some o =>
      if s.el < x.curAt + (tMax (s.descOf d) o.kind o.senses + 1000) * 1000 then s
      else
        let er := x.susp.toList.map again
        let s := (s.inc F.MED_TMO_CNT_CNT).envelope d 0x3F o false
        let prog := o.kind != .read && o.kind != .erase && o.kind != .prog1
        let s := s.putDie d { x with
          cur := none, merged := [], susp := none, resets := s.el :: x.resets
          between := if prog then none else x.between
          queue := er ++ x.queue }
        let s :=
          if o.kind = .read then (o :: x.merged).foldl (fun (s : State) p => s.enq d p) s
          else if o.kind = .erase then s.enq d (again o)
          else (s.inc F.MED_VFY_FAIL_PFAIL).progFailed d o
        (s.retireCheck d).resumeAll)

/-- FINE_PASS_URGENT (09 R209): 50 ms after the coarse pass the fine pass contends at urgency 3 as an ordinary operation. -/
def execFinePassUrgent (d : Nat) (s : State) : Res :=
  .next (
    let x := s.dieOf d
    match x.between with
    | none => s
    | some (b, w, t) =>
      if s.el < t + 50000000 then s
      else
        s.putDie d { x with queue := x.queue.map (fun (o : DOp) =>
          if (o.kind = .fine || o.kind = .foldF) && o.blk = b && o.page = w then { o with idle := false, bg := none, dl := min o.dl s.el } else o) })

end Sys2Proof.Machine
end

