-- ==== Sys2Proof/Machine/ReadChannel.lean ====
section
/-! DEFINITION. The meanings of the read channel's commands: decodes, folds, patrol, sweeps, the wear forecaster (06 R153, R154; 09
R218, R219, R225; 10 R240-R250; 16 R366). -/

namespace Sys2Proof.Machine

/-! ### Decodes (10 R242-R247) -/

/-- Notes corrected bits of a verify or patrol pass on a block: the bit level is their mean (10 R236). -/
def State.noteBits (s : State) (b : Blk) (mean : Nat) : State :=
  let x := s.blkOf b
  let y := { x with psum := x.psum + mean, pcnt := x.pcnt + 1 }
  s.putBlk b { y with level := some (cut 8 (min 255 (y.psum / y.pcnt))) }

/-- The first of batches of codewords, `n` codewords in all (09 R225). -/
def keepCws : Nat → List (Nat × Nat) → List (Nat × Nat)
  | _, [] => []
  | n, e :: t => if n = 0 then [] else if n < e.1 then [(n, e.2)] else e :: keepCws (n - e.1) t

/-- Notes verified codewords of a die and their mean corrected bits (09 R225). -/
def State.noteVerified (s : State) (d n mean : Nat) : State :=
  let x := s.dieOf d
  s.putDie d { x with recent := keepCws (2 ^ 20) ((n, mean) :: x.recent) }

/-- Codewords that a verify read decodes: those of a wordline, or of a page. -/
def vfyCws (o : DOp) : Nat := if o.pages = 4 then wlBlocks else pageUser o.page

/-- Moves one level's correction a step toward a side with at least 10 % fewer errors (10 R247). -/
def probeMove (e : Nat × Nat × Nat) : Int :=
  if e.1 * 10 ≤ e.2.1 * 9 && e.1 < e.2.1 && e.1 ≤ e.2.2 then -1 else if e.2.2 * 10 ≤ e.2.1 * 9 && e.2.2 < e.2.1 then 1 else 0

/-- Replaces a correction, with its time (10 R239, R251). -/
def State.putCorr (s : State) (i : Nat) (v : List Int) : State :=
  { s with die := { s.die with corr := if v = noOffs then Tab.del i s.die.corr else Tab.put i v s.die.corr, corrAt := Tab.put i s.tns s.die.corrAt } }

/-- What patrol does with a probed wordline: errors one step down, at the offset and one step up, by level (10 R247). -/
def State.probed (s : State) (b : Blk) (tier : Nat) (probe : List (Nat × Nat × Nat)) : State :=
  if probe.isEmpty then s
  else
    let p := s.binsOf b
    let i := corrIdx b.die tier p.1 p.2.2
    let c := (Tab.find i s.die.corr).getD noOffs
    let v := c.mapIdx (fun l x => satOff (x + probeMove (probe.getD l (0, 0, 0))))
    if v = c then s else s.putCorr i v

/-- A decode has succeeded at its step: the codeword is delivered by what it is for. `bits` is the largest number of corrected bits of
its codewords, `mean` their mean. -/
def State.decodedAs (s : State) (d : Nat) (o : DOp) (bits mean : Nat) (probe : List (Nat × Nat × Nat)) : State :=
  let b : Blk := ⟨d, o.blk⟩
  if o.vfy.isSome then
    let s := ((s.inc F.RCH_LADDER_CNT_CNT o.step).noteBits b mean).noteVerified d (vfyCws o) mean
    if o.step = 0 && bits * 100 ≤ s.rd F.MED_VFY_CFG_MAX_FRAC * hardLimit o.tier then s.stands (verified o)
    else (s.inc F.MED_VFY_FAIL_VFY).progFailed d (verified o)
  else
    match o.purp with
    | .recon => s.reconGot o.cw o.member
    | .fold =>
      let s := s.inc F.RCH_LADDER_CNT_CNT o.step
      let s := if bits = 0 then s else (s.payOp o (chgLink (wlBlocks * 4096))).send (.kz (d / 64) "WORDLINE" [d % 64, o.blk, o.cw])
      match s.srow o.row with
      | some x => s.enq d { o with kind := .foldC, blk := (x.mem.getD o.member b).blk, page := o.cw, step := 0, pages := 1, lad := Lad.foot }
      | none => s
    | .patrol =>
      let s := ((s.inc F.RCH_LADDER_CNT_CNT o.step).noteBits b mean).probed b o.tier probe
      if o.step ≥ 3 || bits * 100 > s.rd F.RCH_PATROL_CFG_REFRESH_PCT * hardLimit o.tier then
        (if (s.blkOf b).refresh then s else s.inc F.RCH_PATROL_CNT_REFRESH).wantRefresh b
      else s
    | _ =>
      match s.cmdFor o.q o.cid o.arr with
      | none => s
      | some c =>
        let s := s.inc F.RCH_LADDER_CNT_CNT o.step
        let s := if o.step ≥ s.rd F.RCH_CFG_REFRESH_STEP then s.wantRefresh b else s
        s.cwDone c o.cw

/-- A fold's source that fails every step is reconstructed, or its stripe is lost and folded as zeros (11 R270, 07 R177). -/
def State.foldSource (s : State) (d : Nat) (o : DOp) : State :=
  match s.srow o.row with
  | none => s
  | some x =>
    let miss := (s.missing o.row x).filter (fun m => m != o.member)
    let s := if miss.length ≤ 1 then s else s.unrecovered o.row x (o.cw * wlBlocks) none d
    s.decodedAs d o 1 1 []

/-- A decode has failed at its step: a verify read has not passed (09 R219), any other climbs (10 R242). -/
def State.decodeFailed (s : State) (d : Nat) (o : DOp) (unsat : Nat) : State :=
  if o.vfy.isSome then (s.inc F.MED_VFY_FAIL_VFY).progFailed d (verified o)
  else if o.purp = .fold && o.step = 5 then s.foldSource d o
  else s.climb d o unsat

/-- DECODE_DONE (10 R240-R247): the decode of codeword `id` ends: whether its syndrome is zero, the largest and the mean number of
corrected bits, the unsatisfied checks of a failure, and a patrol probe's errors by level. The result of a command whose stamp is
stale is discarded (02 R52). -/
def execDecodeDone (id : Nat) (ok : Bool) (bits mean unsat : Nat) (probe : List (Nat × Nat × Nat)) (s : State) : Res :=
  .next (
    match s.die.cws.find? (fun w => w.id = id && w.dec.isSome) with
    | none => s
    | some w =>
      let o := w.op
      let s := (s.dropCw id).assign
      let s :=
        if (o.purp = .host || o.purp = .recon) && o.q != noQueue && !s.live o.slice o.q o.genS o.genQ then s.stale o.slice
        else if ok then s.decodedAs w.die o bits mean probe
        else s.decodeFailed w.die o unsat
      s.resumeAll)

/-- READ_URGENCY_RISE (09 R218): queued read `id` of die `d` is evaluated again for read-around. -/
def execReadUrgencyRise (d id : Nat) (s : State) : Res :=
  .next (
    match (s.dieOf d).queue.find? (fun o => o.id = id && o.purp = .host && o.step = 0 && o.vfy.isNone) with
    | none => s
    | some o =>
      match s.cmdFor o.q o.cid o.arr, s.srow o.row with
      | some c, some x => s.considerRa d o o.row x o.member o.mblk c
      | _, _ => s)

/-! ### Folds (06 R151, R153, R154; 03 R76) -/

/-- The slice whose write is folded: the zone's, or that of the first block of a conventional row. -/
def State.foldSlice (s : State) (r : RowId) : Nat :=
  if !r.conv then s.zSlice r.h
  else
    match s.ftl.fmap.find? (fun e => e.2.st = 1 && e.2.row = r.h) with
    | some e => s.nsSlice (e.1 / 2 ^ 40)
    | none => 0

/-- The charge of one member's fold of a wordline: check read, program, verify, and its share of the window block's erase. -/
def chgFold (y : Desc) (t : Nat) : Nat :=
  2 * chgWhole y t wlBlocks + chgProg (wlBlocks * 4096) y.rateQ + ceilDiv (y.tE * 16 * wlBlocks) winBlocks

/-- FOLD_ISSUE (01 R28, R35; 06 R153; 03 R77): the next wordline of a row folds, when it is eligible and the one before it is folded on every
member: a check read of its sources on
every member, and the passes after it. The whole fold is charged now. -/
def execFoldIssue (conv : Bool) (h r : Nat) (s : State) : Res :=
  .next (
    let id : RowId := ⟨conv, h, r⟩
    match s.srow id with
    | none => s
    | some x =>
      match if !s.tailFull && (List.range x.mem.length).all (fun m => s.memPend id m || x.fold ≤ x.wl.getD m 0) then x.elig.find? (fun e => e.1 = x.fold) else none with
      | none => s
      | some (n, since, lc) =>
        let sl := s.foldSlice id
        let s := s.putRow id { x with fold := n + 1, elig := x.elig.filter (fun e => e.1 != n) }
        (List.range x.mem.length).foldl (fun (s : State) m =>
          if s.memPend id m then s
          else
            let b := x.mem.getD m ⟨0, 0⟩
            let src := (x.win.getD (4 * n / winPages) []).getD m b
            let tier := (s.blkOf b).tier
            let o : DOp := { pageOp id m src.blk (4 * n % winPages) sl noQueue 0 since (since + s.target lc) tier (s.rd F.SLI_GEN_GEN sl) 0 .fold with
              kind := .read, senses := 1, pages := 4, cw := n, idle := true, lc := lc }
            (s.charge sl none (chgFold (s.descOf b.die) tier)).enq b.die o) s)

/-! ### Patrol (10 R246, R247) -/

/-- The row and member that a block serves, and whether it is a window block, with its window row. -/
def State.ownerOf (s : State) (b : Blk) : Option (RowId × SRow × Nat × Option Nat) :=
  s.allRows.findSome? (fun e =>
    match (List.range e.2.mem.length).find? (fun m => s.memBlk e.1 e.2 m = b) with
    | some m => some (e.1, e.2, m, none)
    | none =>
      (List.range e.2.win.length).findSome? (fun w =>
        ((List.range e.2.mem.length).find? (fun m => (e.2.win.getD w []).getD m ⟨4096, 0⟩ = b)).map (fun m => (e.1, e.2, m, some w))))

/-- Pages of a block that are written: of its window row, or wordlines. -/
def SRow.written (x : SRow) (m : Nat) (w : Option Nat) : Nat :=
  match w with
  | some w => x.pg w m
  | none => x.wl.getD m 0

/-- The written block that the patrol visits next in this pass: the first from its cursor on, else the first that its pass has left out, such as one
whose die has returned (10 R246). -/
def State.patrolNext (s : State) (k : Nat) : Option Nat :=
  let l := (s.die.blks.filter (fun e => e.2.use = .data && e.2.seen < s.die.pass && s.works (e.1 / 2048))).map (·.1)
  match l.find? (fun e => decide (k ≤ e)) with
  | some e => some e
  | none => l.head?

/-- Written blocks, and those that this pass has visited (10 R246). -/
def State.patrolCount (s : State) : Nat × Nat :=
  let l := s.die.blks.filter (fun e => e.2.use = .data)
  (l.length, (l.filter (fun e => e.2.seen = s.die.pass)).length)

/-- The patrol's cursor goes on: to page `p` of block `k`, or past it where `p` is 0. -/
def State.patrolOn (s : State) (k p : Nat) : State :=
  let b : Blk := ⟨k / 2048, k % 2048⟩
  let s := if p = 0 then s.putBlk b { s.blkOf b with seen := s.die.pass } else s
  let c := if p = 0 then k + 1 else k
  let n := s.patrolCount
  ({ s with die := { s.die with patrol := (c / 2048, c % 2048, p) } }).wr F.RCH_PATROL_STS_PASS_PCT (n.2 * 100 / max 1 n.1)

/-- What page `p` of a written block holds for the patrol: the row and member, the member's block, one for a page and four for a wordline, and
whether more pages follow; the codewords of a tail record serve the quarter it belongs to. -/
def State.patrolPage (s : State) (b : Blk) (p : Nat) : Option (RowId × Nat × Nat × Nat) × Bool :=
  match s.ownerOf b with
  | some (r, x, m, w) =>
    (if x.written m w ≤ p then none
     else some (r, m, (match w with
       | some i => i * winBlocks + p * pageBlocks
       | none => p * wlBlocks), if w.isSome then 1 else 4), p + 1 < x.written m w)
  | none =>
    match s.die.tails.find? (fun e => e.die = b.die && e.blk = b.blk && e.slot = p / max 1 (tailPages (s.descOf e.die) e.tier)) with
    | none => (none, false)
    | some e =>
      let y := s.descOf e.die
      let n := max 1 (tailPages y e.tier)
      (match (if p % n < e.pages then e.own else none).bind (fun o => (s.ownerOf ⟨b.die, o.1⟩).map (fun t => (o, t))) with
       | some (o, (r, _, m, _)) => some (r, m, o.2 * winBlocks + min (winBlocks - 1) (nFit y e.tier + p % n * (y.planes * y.pp / cwBytes e.tier)), 1)
       | none => none, true)

/-- PATROL_READ (10 R246): the patrol reads the next page, or wordline, of the next written block in its order; after the last block
a new pass begins. Its deadline is the time by which the block must be visited. -/
def execPatrolRead (s : State) : Res :=
  .next (
    if s.rd F.RCH_PATROL_CFG_EN = 0 then s
    else
      let cur := s.die.patrol.1 * 2048 + s.die.patrol.2.1
      match s.patrolNext cur with
      | none =>
        let s := (s.wr F.RCH_PATROL_STS_LAST_H (sat 16 ((s.el - s.die.patrolAt) / hourNs))).wr F.RCH_PATROL_STS_PASS_PCT 0
        { s with die := { s.die with pass := s.die.pass + 1, patrol := (0, 0, 0), patrolAt := s.el } }
      | some k =>
        let b : Blk := ⟨k / 2048, k % 2048⟩
        let pg := if k = cur then s.die.patrol.2.2 else 0
        let y := s.blkOf b
        let s := if pg = 0 then s.putBlk b { y with psum := 0, pcnt := 0 } else s
        let a := s.patrolPage b pg
        let s := match a.1 with
          | none => s
          | some (r, m, mb, n) =>
            let c := s.patrolCount
            let dl := s.die.patrolAt + s.rd F.RCH_PATROL_CFG_PERIOD * hourNs * (c.2 + 1) / max 1 c.1
            s.enq b.die { pageOp r m b.blk pg 0 noQueue 0 s.el (max dl s.el) y.tier (s.rd F.SLI_GEN_GEN 0) 0 .patrol with
              kind := .read, senses := 1, pages := n, mblk := mb, bg := some 1,
              probe := s.rd F.RCH_PATROL_CFG_PROBE != 0 && pg % s.rd F.RCH_PATROL_CFG_PROBE = 0 }
        s.patrolOn k (if a.2 then pg + 1 else 0))

/-! ### Sweeps (10 R248, R249; 16 R366, R367) -/

/-- Tiers that a die holds in use. -/
def State.tiersOn (s : State) (d : Nat) : List Nat :=
  (List.range 4).filter (fun t => s.die.blks.any (fun e => e.1 / 2048 = d && e.2.use = .data && !e.2.onebit && e.2.tier = t))

/-- A sweep's entry for a die as it starts. -/
def State.sweepFirst (s : State) (d : Nat) : SwEnt :=
  let x := s.dieOf d
  ⟨0, if !x.present || x.retired then 3 else if !x.reach then 2 else 0, 0, false⟩

/-- The die's measurement begins: up to 64 senses for each tier in use, charged to slice 0. -/
def State.sweepBegin (s : State) (k d : Nat) (w : Sweep) : State :=
  let e := (Tab.find d w.ents).getD (s.sweepFirst d)
  let s := s.chargeBg 2 ((s.tiersOn d).length * chgSense (s.descOf d) 64)
  (s.putSweep k { w with ents := Tab.put d { e with busy := true } w.ents }).sweepSts k

/-- The die's measurement completes: each result replaces the correction of its tier and bins; the temperature now is the one it was
last swept at. -/
def State.sweepEnd (s : State) (k d : Nat) (w : Sweep) (res : List (Nat × Nat × List Int)) : State :=
  let rt := tempBin (s.dieOf d).temp
  let s := res.foldl (fun (s : State) e => s.putCorr (corrIdx d e.1 e.2.1 rt) (e.2.2.map satOff)) s
  let x := s.dieOf d
  let s := s.putDie d { x with swTemp := x.temp }
  let t := (res.map (fun e => e.1)).dedup
  (s.putSweep k { w with ents := Tab.put d ⟨s.tns, 1, (t.map (fun i => 2 ^ i)).sum, false⟩ w.ents }).sweepSts k

/-- CALIBRATION_SWEEP (10 R248, 16 R366): a sweep starts (no die); or die `d`, PENDING, begins to be measured, one per link at a
time; or its measurement ends with the offsets found by tier and retention bin. -/
def execCalibrationSweep (d : Option Nat) (res : Option (List (Nat × Nat × List Int))) (s : State) : Res :=
  .next (
    if s.stopped then s
    else
      match d with
      | none =>
        let id := match s.pup.sweeps.getD 0 none with
          | some w => cut 32 (w.id + 1)
          | none => 1
        (s.putSweep 0 ⟨id, s.tns, s.die.dies.map (fun e => (e.1, s.sweepFirst e.1))⟩).sweepSts 0
      | some d =>
        match s.pup.sweeps.getD 0 none with
        | none => s
        | some w =>
          match Tab.find d w.ents, res with
          | some e, none =>
            if e.st = 0 && s.works d && !(s.capped 2 d && (s.dieOf d).queue.any (fun o => !s.idleOp o)) && !w.ents.any (fun f => f.2.busy && f.1 / 64 = d / 64) then s.sweepBegin 0 d w else s
          | some e, some r => if e.busy then s.sweepEnd 0 d w r else s
          | none, _ => s)

/-- TEMPERATURE_SWEEP (10 R249, 16 R366): die `d`, whose temperature has moved by DT since it was last swept, begins to be measured,
at most 64 at a time; or its measurement ends. A record with no die PENDING has ended, and a new sweep supersedes it. -/
def execTemperatureSweep (d : Nat) (res : Option (List (Nat × Nat × List Int))) (s : State) : Res :=
  .next (
    if s.stopped then s
    else
      let x := s.dieOf d
      let w := match s.pup.sweeps.getD 1 none with
        | some w => if w.ents.any (fun e => e.2.st = 0 || e.2.st = 2) then w else ⟨cut 32 (w.id + 1), s.tns, []⟩
        | none => ⟨1, s.tns, []⟩
      match res with
      | none =>
        if s.works d && !(s.capped 2 d && x.queue.any (fun o => !s.idleOp o)) && (x.temp - x.swTemp).natAbs ≥ s.rd F.RCH_SWEEP_CFG_DT && (w.ents.filter (fun e => e.2.busy)).length < 64
            && !((Tab.find d w.ents).map (fun e => e.busy)).getD false then
          s.sweepBegin 1 d { w with ents := Tab.put d (s.sweepFirst d) w.ents }
        else s
      | some r => if ((Tab.find d w.ents).map (fun e => e.busy)).getD false then s.sweepEnd 1 d w r else s)

/-- CORRECTION_SAVE (10 R239): the corrections are written to the system area, as one-bit programs of slice 0. -/
def execCorrectionSave (s : State) : Res :=
  .next ({ s with die := { s.die with corrSaved := s.die.corr } }.chargeBg 5 (chgWrite Desc.ref (18 * 2 ^ 20)))

/-! ### The wear forecaster (09 R225, R226) -/

/-- A die's mean and highest erase count (09 R229). -/
def State.dieErases (s : State) (d : Nat) : Nat × Nat :=
  let l := (s.die.blks.filter (fun e => e.1 / 2048 = d)).map (fun e => e.2.erases)
  (l.sum / max 1 (s.descOf d).blocks, l.foldl max 0)

/-- A die's wear index in 0.01 % (09 R225): its mean erases over the rated cycles, or the mean corrected bits of its last
verified codewords over the end-of-life level. -/
def State.wearIdx (s : State) (d : Nat) : Nat :=
  let y := s.descOf d
  let l := (s.die.blks.filter (fun e => e.1 / 2048 = d)).map (fun e => e.2.erases)
  let v := (s.dieOf d).recent
  max (l.sum * 10000 / max 1 (y.blocks * y.rated)) ((v.map (fun e => e.1 * e.2)).sum * 10000 / max 1 ((v.map (·.1)).sum * y.eol))

/-- WEAR_FORECAST (09 R225, R226): once per hour, the indices, Percentage Used of the die at the 99.9th percentile, the forecast, and
the events at 80, 90 and 100; dies past RET_WEAR are retired. -/
def execWearForecast (s : State) : Res :=
  .next (
    let ds := (s.die.dies.filter (fun e => s.works e.1)).map (·.1)
    let idx := insSort (fun (a b : Nat × Nat) => decide (b.1 ≤ a.1)) (ds.map (fun d => (s.wearIdx d, d)))
    let top := idx.getD (ds.length / 1000) (0, 0)
    let pct := min 255 (top.1 / 100)
    let y := s.descOf top.2
    let n := (s.dieOf top.2).erases24.sum
    let days := if top.1 ≥ 10000 then 0 else if n = 0 then 65535 else min 65535 ((10000 - top.1) * y.rated / (10000 * n))
    let s := ds.foldl (fun (s : State) d =>
      let x := s.dieOf d
      s.putDie d { x with wear := s.wearIdx d, erases24 := (0 :: x.erases24).take 24 }) s
    let s := ((s.wr F.MED_WEAR_PCT_USED pct).wr F.MED_WEAR_DAYS days).wr F.MED_WEAR_IDX_MEAN (sat 16 ((idx.map (·.1)).sum / max 1 ds.length))
    let s := ([(0, 80), (1, 90), (2, 100)] : List (Nat × Nat)).foldl (fun (s : State) e =>
      if pct ≥ e.2 && !bit s.die.wearSeen e.1 then
        ({ s with die := { s.die with wearSeen := s.die.wearSeen + 2 ^ e.1 } }).raise evWear 0xFFFF pct
      else s) s
    ds.foldl (fun (s : State) d => s.retireCheck d) s)

end Sys2Proof.Machine
end

