-- ==== Sys2Proof/Machine/KzOps.lean ====
section
/-! DEFINITION. The Kazron links as the other parts use them: hop states, breaks and healing, widths, enumeration, and replay (08
R186-R203; 07 R178). -/

namespace Sys2Proof.Machine

/-! ### How far start-up is (17 R370, R371) -/

/-- The controller does not run: POR_N low, production test, ROM recovery, Jack, or REFCLK lost (17 R370; 21 R459; 21 R465). -/
def State.dead (s : State) : Bool := !s.img.por || s.img.prod || s.img.rom || s.pwr.jack || s.img.refLost

/-- The structural tables of the image are applied: start-up is past step 6 (17 R371). -/
def State.tables (s : State) : Bool := !s.dead && s.rd F.IMG_STS_STEP ≥ 7

/-! ### Hops -/

/-- Sets a hop's state; hop 0's stands in KZL_STS (08 R206). -/
def State.setHop (s : State) (l h st : Nat) : State :=
  let s := if h = 0 then s.wr F.KZL_STS_HOP0 st l else s.wr F.KZL_BID_HOP st l h
  let x := s.link8 l
  s.putLink8 l { x with hops := x.hops.modify h (fun (p : Hop) => { p with since := s.el }) }

/-- The dies of positions `h` to 3 of a link, by number in the link. -/
def belowHop (h : Nat) : List Nat := (List.range (64 - 16 * h)).map (fun i => 16 * h + i)

/-- A link's width now, in lanes: the narrowest of WIDTH_CAP, the power step's width and the ALIGN widths of its hops (08 R191). -/
def State.wantWidth (s : State) (l : Nat) : Nat :=
  let cap := if s.rd F.KZL_CTL_WIDTH_CAP l = 1 then 2 else if s.rd F.KZL_CTL_WIDTH_CAP l = 2 then 1 else 4
  let st := s.rd F.PWR_STEP_TBL_WIDTH s.pwr.widStep
  let step := if st = 1 then 2 else if st = 2 then 1 else 4
  let al := ((s.link8 l).hops.map (·.width)).filter (fun w => w != 0)
  al.foldl min (min cap step)

/-- KZL_STS.WIDTH's code of a width. -/
def widthCode (w : Nat) : Nat := if w = 4 then 0 else if w = 2 then 1 else if w = 1 then 2 else 3

/-! ### The order of a power-limit step (01 R17, R34; 18 R405) -/

/-- The pace floor of a step (01 R17): 1,100 × F, and never less than 300. F is held in 0.001, and the product is rounded to the nearest whole
number: the spec gives no rounding (log 85). -/
def State.floorOf (s : State) (n : Nat) : Nat := max 300 ((1100 * s.rd F.PWR_STEP_TBL_F n + 500) / 1000)

/-- Whether the controller is in Run or Lean. -/
def State.awake (s : State) : Bool := s.rd F.PWR_STS_STATE ≤ 1

/-- No link that carries data is wider than a step's width. -/
def State.linksNarrow (s : State) (n : Nat) : Bool :=
  (List.range 64).all (fun l => !s.hopUp l 0 || s.rd F.PWR_STEP_TBL_WIDTH n ≤ s.rd F.KZL_STS_WIDTH l)

/-- Every link that carries data has the width it is to run at. -/
def State.linksSet (s : State) : Bool :=
  (List.range 64).all (fun l => !s.hopUp l 0 || s.rd F.KZL_STS_WIDTH l = widthCode (s.wantWidth l))

/-- Brings admission, width and voltage target toward the current step in the order of 01 R34: down, admission at once, then the links, and
the pace floor when the links are narrow; up, the pace floor at once, the links when the pace has reached it, admission when the links are
wide. In Doze and Nap the pace floor stays at their 300 (18 R399). -/
def State.settleStep (s : State) : State :=
  let n := s.rd F.PWR_STEP_STEP
  let s := if s.pwr.admStep < n then { s with pwr := { s.pwr with admStep := n } } else s
  let s := if s.pwr.widStep < n then { s with pwr := { s.pwr with widStep := n } } else s
  let s := if s.awake && (s.linksNarrow n || s.rd F.PWR_STEP_FLOOR < s.floorOf n) then s.wr F.PWR_STEP_FLOOR (s.floorOf n) else s
  let s := if n < s.pwr.widStep && s.awake && s.rd F.PWR_STEP_FLOOR ≤ s.rd F.PWR_PACE_MIN_MIN then { s with pwr := { s.pwr with widStep := n } } else s
  if n < s.pwr.admStep && s.pwr.widStep = n && s.linksSet then { s with pwr := { s.pwr with admStep := n } } else s

/-! ### Breaks (08 R199; 07 R175, R178) -/

/-- A die that can no longer be reached: its operations end, and the members of active zones on it are substituted at once. -/
def State.dieGone (s : State) (d : Nat) : State :=
  let x := s.dieOf d
  if !x.present || !x.reach then s
  else
    let s := s.putDie d { x with reach := false, goneAt := some s.el }
    (s.loseOps d).substDie d s.activeRow

/-- KZL_UNREACH bits of positions `h` to 3. -/
def unreachBits (h : Nat) : Nat := 2 ^ 64 - 2 ^ (16 * h)

/-- A hop goes DOWN without break handling (08 R204). -/
def State.hopDown (s : State) (l h : Nat) : State := s.setHop l h hDown

/-- A broken hop and those beyond it hold no flits any more, and nothing waits for the bridges they lead to. -/
def State.cutFlits (s : State) (l h : Nat) : State :=
  let x := s.link8 l
  let cut := fun (d : LDir) => { d with replay := [], out := [], part := none, sym := [] }
  let near := fun (d : LDir) => { d with out := d.out.filter (fun f => f.bridge < h) }
  s.putLink8 l { x with hops := x.hops.mapIdx (fun i (p : Hop) =>
    if h ≤ i then { p with dn := cut p.dn, up := cut p.up } else { p with dn := near p.dn }) }

/-- Dies of positions `h` to 3 become unreachable, and the tags of transfers to them are freed. -/
def State.cutOff (s : State) (l h : Nat) : State :=
  let s := s.cutFlits l h
  let s := s.wr F.KZL_UNREACH_MASK (Nat.lor (s.rd F.KZL_UNREACH_MASK l) (unreachBits h)) l
  let s := s.wr F.KZL_STS_BRIDGES (min h (s.rd F.KZL_STS_BRIDGES l)) l
  let s := (belowHop h).foldl (fun (s : State) i =>
    let d := l * 64 + i
    let x := s.dieOf d
    ((x.cur.toList ++ x.merged ++ x.susp.toList).foldl (fun (s : State) o => s.freeTag l o.id) s).dieGone d) s
  s.sweepBreak (fun d => d / 64 = l && 16 * h ≤ d % 64)

/-- A break of a hop is recorded and handled, once (08 R198, R199). -/
def State.breakHop (s : State) (l h : Nat) : State :=
  let x := s.link8 l
  if x.broken.contains h then s
  else
    let s := (s.putLink8 l { x with broken := x.broken ++ [h] }).hopDown l h
    let bh := if s.rd F.KZL_STS_BREAK l = 1 then min h (s.rd F.KZL_STS_BREAK_HOP l) else h
    let s := (((s.wr F.KZL_STS_BREAK 1 l).wr F.KZL_STS_BREAK_HOP bh l).wr F.KZL_BRK_TIME_TIME s.tns l).inc F.KZL_LOCK_CNT_BREAKS l
    let s := if h = 0 then (s.wr F.KZL_STS_WIDTH 3 l).wr F.KZL_STS_LANES_OK 0 l else s
    ((s.cutOff l h).raise evKzBreak 0xFFFF (l * 256 + h)).ceiling false

/-! ### Work that a member still needs (07 R175, R176, R178; 06 R154, R155) -/

/-- The wordline of a member's QLC block that power found between its passes (09 R228). -/
def State.halfDone (s : State) (r : RowId) (x : SRow) (m : Nat) : Option Nat :=
  let b := s.memBlk r x m
  match (s.dieOf b.die).between with
  | some (blk, w, _) => if blk = b.blk && (s.dieOf b.die).queue.all (fun o => o.blk != blk) && (s.dieOf b.die).cur.all (fun o => o.blk != blk) then some w else none
  | none => none

/-- A wordline that power found between its passes is written by the procedure of a failed program, the block not marked bad (09 R228). -/
def State.halfRedo (s : State) (r : RowId) (x : SRow) (m w : Nat) : State :=
  let b := s.memBlk r x m
  let n := if r.conv then s.foldSlice r else s.zSlice r.h
  let t := (s.blkOf b).tier
  let o := pageOp r m b.blk w n noQueue 0 s.el (s.el + s.target 5) t (s.rd F.SLI_GEN_GEN n) 0 .data
  (s.putDie b.die { s.dieOf b.die with between := none }).replaceBlk r m b false t { o with kind := if s.isDirect r then .coarse else .foldC }

/-- Queues again the pages of a member's tail records that were begun and not verified, where none is queued (10 R234). -/
def State.redoTails (s : State) (r : RowId) (x : SRow) (m n : Nat) : State :=
  let b := x.mem.getD m ⟨0, 0⟩
  (s.die.tails.filter (fun e => e.die = b.die && e.own.map (·.1) = some b.blk && e.begun && !s.tailDone e)).foldl (fun (s : State) e =>
    let k := tailPages (s.descOf e.die) e.tier
    let q := (e.own.map (·.2)).getD 0
    if (s.dieOf e.die).ops.any (fun o => o.purp = .tail && o.blk = e.blk && o.page / max 1 k = e.slot) then s
    else
      (List.range (k - e.pages)).foldl (fun (s : State) i =>
        s.enq e.die { pageOp r m e.blk (e.slot * k + e.pages + i) n noQueue 0 s.el (s.el + s.target 5) e.tier (s.rd F.SLI_GEN_GEN n) 0 .tail with cw := q })
        s) s

/-- Queues again, for member `m` of a row, the programs whose sources are still held: complete pages in staging, P and Q pages, folds
under way, and the held wordline of a direct row. -/
def State.redo (s : State) (r : RowId) (m : Nat) : State :=
  match s.srow r with
  | none => s
  | some x =>
    let half := s.halfDone r x m
    let s := match half with
      | some w => s.halfRedo r x m w
      | none => s
    let n := if r.conv then s.foldSlice r else s.zSlice r.h
    let k := x.k
    let pads := !r.conv && (s.zxOf r.h).padTo = 1
    let s := s.redoTails r x m n
    if s.isDirect r then
      let z := s.zxOf r.h
      let b := s.memBlk r x m
      let full := (s.stg.units.filter (fun u => u.row = r && u.off / (k * wlBlocks) = z.dirWl)).length ≥ k * wlBlocks
      if half.isNone && r.r = z.dirRow && x.wl.getD m 0 ≤ z.dirWl && (full || pads) then
        s.enq b.die { pageOp r m b.blk z.dirWl n noQueue 0 s.el (s.el + s.target 5) (s.blkOf b).tier (s.rd F.SLI_GEN_GEN n) 0 .data with kind := .coarse }
      else s
    else
      let s := (List.range x.win.length).foldl (fun (s : State) w =>
        (List.range winPages).foldl (fun (s : State) p =>
          if m < k then
            let sp := pageSpan w p
            let c := (s.unitsOn r k m sp.1 sp.2).length
            if c > 0 && (c ≥ pageUser p || pads) then s.progPage r k w p m n .data else s
          else if x.pg w m ≤ p && s.pageOn r x w p (List.range k) && p < (List.range k).foldl (fun a i => max a (x.pg w i)) 0 then
            s.progPage r k w p m n .data
          else s) s) s
      (List.range (x.fold - x.wl.getD m 0 - b2n half.isSome)).foldl (fun (s : State) i =>
        let wl := x.wl.getD m 0 + b2n half.isSome + i
        let b := x.mem.getD m ⟨0, 0⟩
        let src := (x.win.getD (4 * wl / winPages) []).getD m b
        s.enq b.die { pageOp r m src.blk (4 * wl % winPages) n noQueue 0 s.el (s.el + s.target 5) (s.blkOf b).tier (s.rd F.SLI_GEN_GEN n) 0 .fold with
          kind := .read, senses := 1, pages := 4, cw := wl, idle := true, lc := 5 }) s

/-! ### Enumeration and healing (08 R200, R203; 07 R178) -/

/-- What enumeration finds at a position: type, serial, die-present mask, each die's descriptor identifier, maximum width, and whether
its downstream sideband is low. -/
structure Found where
  btype : Nat
  serial : Nat
  dies : Nat
  descs : List Nat
  maxW : Nat
  dsb : Bool

/-- Whether a descriptor identifier matches a descriptor of the image that has a threshold table (08 R203, 10 R238). -/
def State.matches (s : State) (id : Nat) : Bool := s.die.descs.any (fun y => y.id = id) && s.die.thr.any (fun e => e.1 / 65536 = id)

/-- The dies of a replaced cartridge start anew: their counts and blocks are those of fresh dies (09 R224, R227). -/
def State.renewDie (s : State) (d : Nat) : State :=
  let s := { s with die := { s.die with blks := s.die.blks.filter (fun e => e.1 / 2048 != d), tails := s.die.tails.filter (fun e => e.die != d) } }
  s.putDie d DieSt.absent

/-- A member whose cartridge was replaced: not yet substituted, it is substituted to the new die at the same position; rebuilt into
spare, it is copied back (07 R178). -/
def State.replaced (s : State) (r : RowId) (m d : Nat) : State :=
  match s.rdn.subst.find? (fun e => e.row = r && e.member = m) with
  | some e =>
    if !e.done then s
    else
      match s.takeBlk d false true with
      | some (s, b) => { s.bump with ftl := { s.bump.ftl with relocs := s.ftl.relocs ++ [Reloc.mk s.fresh 1 r m e.blk b [] 0 none] } }
      | none => s
  | none =>
    match s.takeBlk d false true with
    | some (s, b) =>
      ({ s with rdn := { s.rdn with subst := s.rdn.subst ++ [Subst.mk r m b false 0] } }).jn 0x10 [b2n r.conv, r.h, r.r, m, b.die, b.blk]
    | none => s

/-- Every member of every row on a die. -/
def State.membersOn (s : State) (d : Nat) : List (RowId × SRow × Nat) :=
  s.allRows.flatMap (fun e => ((List.range e.2.mem.length).filter (fun m => (e.2.mem.getD m ⟨4096, 0⟩).die = d)).map (fun m => (e.1, e.2, m)))

/-- A die at position `p` is found: it is reachable again, or new, or unmatched. -/
def State.foundDie (s : State) (d desc : Nat) (fresh : Bool) : State :=
  if !s.matches desc then s.raise evDieUnmatched 0xFFFF d
  else
    let s := if fresh then s.renewDie d else s
    let x := s.dieOf d
    let s := s.putDie d { x with present := true, reach := true, desc := desc, goneAt := none }
    let s := s.wr F.KZL_UNREACH_MASK (Nat.land (s.rd F.KZL_UNREACH_MASK (d / 64)) (2 ^ 64 - 1 - 2 ^ (d % 64))) (d / 64)
    (s.membersOn d).foldl (fun (s : State) e =>
      if fresh then s.replaced e.1 e.2.2 d else if s.memPend e.1 e.2.2 then s else s.redo e.1 e.2.2) s

/-- Reads that waited for a member go on (07 R173). -/
def State.rerunAll (s : State) : State :=
  (s.zn.cmds.filter (fun c => c.st = .unreach)).foldl (fun (s : State) c => s.rerun c.q c.cid) s

/-- A position is enumerated: its identity, its dies, and its cartridge against the journal's record. -/
def State.foundAt (s : State) (l p : Nat) (f : Found) : State :=
  let x := s.link8 l
  let old := x.serials.getD p none
  let new := match old with
    | some n => n != f.serial
    | none => false
  let s := s.putLink8 l { x with serials := x.serials.set p (some f.serial), maxW := x.maxW.set p f.maxW }
  let ok := (List.range 16).filter (fun i => bit f.dies i && s.matches (f.descs.getD i 0))
  let ix := ((List.range s.die.descs.length).find? (fun i => ((s.die.descs[i]?).map (·.id)) = some (f.descs.getD (ok.headD 0) 0))).getD 0
  let s := ((s.wr F.KZL_BID_PRESENT 1 l p).wr F.KZL_BID_DIES ((ok.map (fun i => 2 ^ i)).sum) l p).wr F.KZL_BID_MDESC ix l p
  let s := ((s.wr F.KZL_BID_BTYPE f.btype l p).wr F.KZL_BID_DSB (b2n f.dsb) l p).wr F.KZL_BSER_SERIAL f.serial l p
  let s := if old = some f.serial then s else s.jn 0x17 [l, p, f.serial]
  let s := if new then s.raise evCartChange 0xFFFF (l * 256 + p) else s
  let s := if s.rd F.KZL_STS_REMOVE_POS l = p then s.wr F.KZL_STS_REMOVE_OK 0 l else s
  (List.range 16).foldl (fun (s : State) i => if bit f.dies i then s.foundDie (l * 64 + p * 16 + i) (f.descs.getD i 0) new else s) s

/-- The break of a hop has healed once its positions are enumerated (08 R200). -/
def State.healed (s : State) (l p : Nat) : State :=
  let x := s.link8 l
  if !x.broken.contains p then s
  else
    let b := x.broken.filter (fun h => h != p)
    let s := s.putLink8 l { x with broken := b }
    let s := if b.isEmpty then (s.wr F.KZL_STS_BREAK 0 l).wr F.KZL_STS_BREAK_HOP 0 l else s.wr F.KZL_STS_BREAK_HOP (b.foldl min 3) l
    s.raise evKzHeal 0xFFFF (l * 256 + p)

/-- Enumerates a link from position `p` (08 R203): each position whose hop is ACTIVE, until one is not or shows no bridge below it;
a low downstream sideband starts the next hop's training. -/
def State.enumerate (s : State) (l : Nat) : Nat → List Found → State
  | _, [] => s
  | p, f :: fs =>
    if p ≥ 4 || !s.hopUp l p then s
    else
      let s := s.healed l p
      let s := (s.foundAt l p f).wr F.KZL_STS_BRIDGES (p + 1) l
      let s := s.sweepHeal (fun d => d / 64 = l && d % 64 / 16 = p)
      if !f.dsb || p = 3 then s
      else
        let s := if s.hopSt l (p + 1) = hDetect || (s.hopSt l (p + 1) = hDown && !(s.link8 l).broken.contains (p + 1)) then s.setHop l (p + 1) hReset else s
        s.enumerate l (p + 1) fs

/-! ### Replay (08 R193-R196) -/

/-- Sends the unacknowledged flits of a direction again, from sequence `q`. -/
def State.replayFrom (s : State) (l h : Nat) (up : Bool) (q : Nat) : State :=
  let p := s.hop l h
  let x := p.dir up
  if x.replay.isEmpty then s
  else
    let s := (s.inc F.KZL_REPLAY_CNT_REPLAY l).putHop l h (p.putDir up { x with ackAt := s.el })
    let fs := x.replay.dropWhile (fun f => f.seq != q)
    (if fs.isEmpty then x.replay else fs).foldl (fun (s : State) f => s.sendFlit l h up f) s

/-- Loses flit lock of a direction: the hop goes to RECOVER (08 R197). -/
def State.loseLock (s : State) (l h : Nat) (up : Bool) : State :=
  let p := s.hop l h
  let s := s.putHop l h (p.putDir up { p.dir up with lock := false, good := 0, part := none, sym := [] })
  if s.hopUp l h then s.setHop l h hRecover else s

end Sys2Proof.Machine
end

