-- ==== Sys2Proof/Machine/Kazron.lean ====
section
/-! DEFINITION. The meanings of the Kazron links' commands (08 R186-R203). A command names a link `l`, a hop `h` and, where it concerns
one direction, `up` for the one toward the controller. -/

namespace Sys2Proof.Machine

/-- Whether a hop trains or recovers. -/
def State.training (s : State) (l h : Nat) : Bool := (1 ≤ s.hopSt l h && s.hopSt l h ≤ hAlign) || s.hopSt l h = hRecover

/-- Whether link and hop exist. -/
def hopOk (l h : Nat) : Bool := l < 64 && h < 4

/-- HOP_TRAINING_DONE (08 R186, R187): ALIGN ends with the lanes of the mask `lanes` working; the widest set of R187 runs, and the hop is
ACTIVE. `extra` says that a bridge beyond B3 answered. -/
def execHopTrainingDone (l h lanes : Nat) (extra : Bool) (s : State) : Res :=
  .next (
    let w := (alignLanes lanes).length
    if !hopOk l h || !s.training l h || w = 0 || (h = 0 && s.img.noCal.contains (8 + l / 16)) then s
    else
      let rec0 := s.hopSt l h = hRecover
      let p := s.hop l h
      let dirs := fun (x : LDir) => if rec0 then { x with lock := true, good := 4, part := none, seenAt := s.el, ackAt := s.el, progAt := s.el, scr := scrSeeds, sym := [] }
        else { LDir.fresh s.el with out := x.out }
      let s := (s.setHop l h hActive).putHop l h { p with fails := 0, width := w, lanes := cut 4 lanes, since := s.el, dn := dirs p.dn, up := dirs p.up }
      let s := if h = 0 then s.wr F.KZL_STS_LANES_OK lanes l else s
      let s := if extra then s.wr F.KZL_STS_EXTRA 1 l else s
      let s := s.wr F.KZL_STS_WIDTH (widthCode (s.wantWidth l)) l
      let s := if w < 4 then s.raise evKzWidth 0xFFFF (l * 256 + w) else s
      let s := if rec0 then (s.replayFrom l h false ((p.dn.replay.map (·.seq)).headD 0)).replayFrom l h true ((p.up.replay.map (·.seq)).headD 0) else s
      let s := (State.pump l h false replayMax s)
      (State.pump l h true replayMax s).ceiling false)

/-- HOP_TRAINING_FAIL (08 R186, R197): EQ or ALIGN has failed; the third failure in a row, or a failed RECOVER, takes the hop DOWN. -/
def execHopTrainingFail (l h : Nat) (s : State) : Res :=
  .next (
    if !hopOk l h || !s.training l h then s
    else
      let p := s.hop l h
      if s.hopSt l h = hRecover || p.fails + 1 ≥ 3 then (s.putHop l h { p with fails := 0, width := 0, lanes := 0 }).breakHop l h
      else (s.putHop l h { p with fails := p.fails + 1 }).setHop l h hReset)

/-- HOP_RETRAIN (08 R186, R200): a DOWN hop restarts from RESET every RETRAIN, while its upstream end is reachable. -/
def execHopRetrain (l h : Nat) (s : State) : Res :=
  .next (
    if hopOk l h && s.hopSt l h = hDown && s.rd F.KZL_CTL_EN l = 1 && (s.hop l h).since + s.rd F.KZL_CTL_RETRAIN l * 1000000 ≤ s.el
        && (h = 0 || s.hopUp l (h - 1)) then s.setHop l h hReset
    else s)

/-- Whether both directions of a hop are in QUIET. -/
def Hop.still (p : Hop) : Bool := p.dn.quiet && p.up.quiet

/-- QUIET_ENTRY (08 R188): a direction without sequenced flits for QUIET_ENTRY, all acknowledged, sends the quiet notice and enters
QUIET; not during a flush, and not on a hop below its full width. -/
def execQuietEntry (l h : Nat) (up : Bool) (s : State) : Res :=
  .next (
    let p := s.hop l h
    let x := p.dir up
    let ph := s.rd F.MED_PF_STS_PHASE
    if hopOk l h && s.hopUp l h && !x.quiet && s.rd F.KZL_CTL_QUIET_EN l = 1 && ph != 1 && ph != 2 && p.width = 4
        && s.rd F.KZL_STS_WIDTH l = 0 && x.replay.isEmpty && x.out.isEmpty && x.idleAt + s.rd F.KZL_CTL_QUIET_ENTRY l * 64 ≤ s.el then
      let q := p.putDir up { x with quiet := true, keepAt := s.el, seenAt := s.el }
      let s := (s.linkCtl l h up (lcPay false true 0 0)).putHop l h q
      if q.still then s.setHop l h hQuiet else s
    else s)

/-- What a burst puts on every active lane first, as a record: each level + 3 (08 R189). -/
def preambleOut : List Nat := preamble.map (fun v => (v + 3).toNat)

/-- Leaves QUIET with a burst: the preamble on every active lane, and the scramblers start anew (08 R185, R189); then what waits is sent. A
receiver that does not find the start marker takes the hop to RECOVER (R190). -/
def State.burst (s : State) (l h : Nat) (up ok : Bool) : State :=
  let p := s.hop l h
  let x := p.dir up
  if !x.quiet || !s.hopUp l h then s
  else
    let x := { x with quiet := false, seenAt := s.el, idleAt := s.el, progAt := s.el, ackAt := s.el, lock := x.lock || ok }
    let s := (s.send (.kz l "BURST" ([h, b2n up] ++ preambleOut))).putHop l h (p.putDir up { x with scr := scrSeeds, part := none, sym := [] })
    if ok then State.pump l h up replayMax (s.setHop l h hActive) else s.setHop l h hRecover

/-- BURST_START (08 R189, R190): a sender leaves QUIET; `ok` says whether the receiver finds the start marker. -/
def execBurstStart (l h : Nat) (up ok : Bool) (s : State) : Res := .next (if hopOk l h then s.burst l h up ok else s)

/-- KEEPALIVE (08 R190): in QUIET a keepalive burst of one IDLE flit every KEEPALIVE; `seen` says whether the receiver gets it. After ten
intervals without one the receiver has lost flit lock (R197). -/
def execKeepalive (l h : Nat) (up seen : Bool) (s : State) : Res :=
  .next (
    let p := s.hop l h
    let x := p.dir up
    let t := s.rd F.KZL_CTL_KEEPALIVE l * 1000
    if !hopOk l h || !x.quiet || s.el < x.keepAt + t then s
    else
      let idle := flitHdr 0 0 false 0 x.next (p.ack up)
      let s := (s.send (.kz l "KEEPALIVE" ([h, b2n up] ++ preambleOut ++ flitBytes idle []))).putHop l h (p.putDir up { x with keepAt := s.el, seenAt := if seen then s.el else x.seenAt })
      if !seen && x.seenAt + 10 * t ≤ s.el then (s.inc F.KZL_LOCK_CNT_LOCKLOSS l).loseLock l h up else s)

/-! ### Reception (08 R184, R192-R196) -/

/-- The lanes a hop runs on, in order: those of its ALIGN set, the lowest where the link runs narrower (08 R187, R191; log 95). -/
def State.runLanes (s : State) (l h : Nat) : List Nat :=
  let c := s.rd F.KZL_STS_WIDTH l
  (alignLanes (s.hop l h).lanes).take (if c = 0 then 4 else if c = 1 then 2 else 1)

/-- The records of a STATUS payload, less the empty ones: tag and result (08 R194; log 95). -/
def statusRecs (pay : List Nat) : List (Nat × Nat) :=
  (((List.range 15).map (fun i => (pay.drop (16 * i)).take 16)).filter (fun r => r.any (· != 0))).map (fun r =>
    (leAt r 0 2 % 512, r.getD 3 0))

/-- A record, or the last READ DATA flit, for a tag: the tag is free again, unless the operation was only suspended; for a tag that is free
already it is discarded and counted (08 R194). -/
def State.tagEnd (s : State) (l tag : Nat) (ends : Bool) : State :=
  match Tab.find tag (s.link8 l).tags with
  | none => s.inc F.KZL_REPLAY_CNT_STRAY l
  | some id => if ends then s.freeTag l id else s

/-- What a delivered flit brings to the controller (08 R194, R195, R198). -/
def State.deliver (s : State) (l ty tag : Nat) (last : Bool) (pay : List Nat) : State :=
  if ty = 4 then (statusRecs pay).foldl (fun (s : State) r => s.tagEnd l r.1 (r.2 != 4)) s
  else if ty = 3 && last then s.tagEnd l tag true
  else if ty = 7 && 1 ≤ pay.getD 1 0 && pay.getD 1 0 < 4 then s.breakHop l (pay.getD 1 0)
  else s

/-- A rejected flit, or a gap: a NAK names the first number still needed, once until the replay comes (08 R196). -/
def State.nakFrom (s : State) (l h : Nat) (up : Bool) : State :=
  let p := s.hop l h
  let x := p.dir up
  if x.nak then s
  else (s.linkCtl l h (!up) (lcPay true false 0 x.rx)).putHop l h (p.putDir up { x with nak := true })

/-- The credits a LINK CONTROL flit returns: the write buffers' to the controller, the forwarding buffers' to the bridges below (08 R195). -/
def State.credits (s : State) (l h : Nat) (up : Bool) (pay : List Nat) : State :=
  let k := s.link8 l
  if up && h = 0 then s.putLink8 l { k with cred := k.cred.mapIdx (fun i c => min 2048 (c + leAt pay (2 + 2 * i) 2)) }
  else if !up then s.putLink8 l { k with upCred := k.upCred.mapIdx (fun i c => min 64 (c + leAt pay (10 + 2 * i) 2)) }
  else s

/-- A bridge forwards a flit that is not for it: down to its position, up to the controller (08 R195, R198). -/
def State.forward (s : State) (l h : Nat) (up : Bool) (ty br tag : Nat) (last : Bool) (pay : List Nat) : State :=
  if !up && h < br && h < 3 then s.pushFlits l (h + 1) false [⟨none, ty, br, last, tag, 1, pay⟩]
  else if up && 0 < h then s.pushFlits l (h - 1) true [⟨none, ty, br, last, tag, 1, pay⟩]
  else s

/-- An acknowledgement: the opposite direction's sender drops the flits up to the number (08 R193, R196). -/
def LDir.acked (d : LDir) (ack now : Nat) : LDir :=
  let keep := d.replay.dropWhile (fun f => f.seq != ack)
  if keep.isEmpty then d
  else { d with replay := keep.drop 1, ackAt := now, idleAt := if keep.length ≤ 1 && d.out.isEmpty then now else d.idleAt }

/-- A receiver accepts a flit whose header and payload are given: its ACK, its place in the sequence, what it carries; what waited for any of these
is sent (08 R193-R198). -/
def State.acceptFlit (s : State) (l h : Nat) (up : Bool) (hdr : Nat) (pay : List Nat) : State :=
  let ty := bits hdr 28 4
  let br := bits hdr 26 2
  let last := bit hdr 25
  let tag := bits hdr 16 9
  let seq := bits hdr 8 8
  let p := s.hop l h
  let x := p.dir up
  let sq := sequenced ty
  let inOrder := sq && seq = x.rx
  let x := { x with seenAt := s.el, good := min 4 (x.good + 1), lock := x.lock || x.good + 1 ≥ 4 }
  let x := if inOrder then { x with rx := (x.rx + 1) % 256, nak := false, progAt := s.el } else x
  let s := s.putHop l h ((p.putDir up x).putDir (!up) ((p.dir (!up)).acked (cut 8 hdr) s.el))
  let s := if sq && !inOrder && (seq + 256 - x.rx) % 256 < 128 then s.nakFrom l h up else s
  let s := if inOrder then s.forward l h up ty br tag last pay else s
  let s := if ty = 5 then s.credits l h up pay else s
  let s := if inOrder && up && h = 0 then s.deliver l ty tag last pay else s
  let s := State.pump l h (!up) replayMax s
  if ty = 5 then State.pump l 0 false replayMax s else s

/-- FLIT_RECEIVE (08 R184, R185, R192-R196): symbols reach the receiver of a direction, `sym` by active lane. With those it holds they make a
flit, or part of one. A whole flit is descrambled, put together from its lanes, corrected and checked; one that cannot be corrected, whose
CRC fails or whose type is reserved is rejected with a NAK. On hop 0 toward the controller, corrected bytes count for their lane (R206). -/
def execFlitReceive (l h : Nat) (up : Bool) (sym : List (List Int)) (s : State) : Res :=
  .next (
    let lanes := s.runLanes l h
    if !hopOk l h || !s.hopUp l h || lanes.isEmpty then s
    else
      let p := s.hop l h
      let x := p.dir up
      let n := flitUi lanes.length
      let have0 := lanes.mapIdx (fun j _ => x.sym.getD j [] ++ sym.getD j [])
      if have0.any (fun a => a.length < n) then
        s.putHop l h (p.putDir up { x with sym := have0, part := if have0.all (·.isEmpty) then none else some s.el })
      else
        let a := symFlit lanes x.scr (have0.map (·.take n))
        let rest := have0.map (·.drop n)
        let s := s.putHop l h (p.putDir up { x with scr := a.2, sym := rest, part := if rest.all (·.isEmpty) then none else some s.el })
        let f := flitDecode a.1
        let s := if f.errs.isEmpty then s else s.inc F.KZL_FEC_CNT_CORR l
        let s := if up && h = 0 then f.errs.foldl (fun (s : State) i => s.inc F.KZL_LANE_SYMERR l (lanes.getD (i % lanes.length) 0)) s else s
        if f.ok && leAt f.data 0 4 < 2 ^ 31 then s.acceptFlit l h up (leAt f.data 0 4) ((f.data.drop 4).take 240)
        else
          let s := s.nakFrom l h up
          let p := s.hop l h
          s.putHop l h (p.putDir up { p.dir up with seenAt := s.el, good := 0 }))

/-- NAK_RECEIVED (08 R196): the sender of a direction replays from the flit that the NAK names. -/
def execNakReceived (l h : Nat) (up : Bool) (seq : Nat) (s : State) : Res :=
  .next (if hopOk l h && s.hopUp l h then s.replayFrom l h up (cut 8 seq) else s)

/-- REPLAY_TIMEOUT (08 R196): no advance of ACK for 1 µs while flits are unacknowledged. -/
def execReplayTimeout (l h : Nat) (up : Bool) (s : State) : Res :=
  .next (
    let x := (s.hop l h).dir up
    if hopOk l h && s.hopUp l h && x.ackAt + 1000 ≤ s.el then s.replayFrom l h up ((x.replay.map (·.seq)).headD 0) else s)

/-- FLIT_LOCK_LOSS (08 R197): a receiver loses flit lock; the hop goes to RECOVER. -/
def execFlitLockLoss (l h : Nat) (up : Bool) (s : State) : Res :=
  .next (if hopOk l h && s.hopUp l h then (s.inc F.KZL_LOCK_CNT_LOCKLOSS l).loseLock l h up else s)

/-- NO_PROGRESS (08 R197): no sequenced flit accepted for 50 µs in a direction that holds unacknowledged ones: the hop is declared
down. -/
def execNoProgress (l h : Nat) (up : Bool) (s : State) : Res :=
  .next (
    let x := (s.hop l h).dir up
    if hopOk l h && s.hopUp l h && !x.replay.isEmpty && x.progAt + 50000 ≤ s.el then s.breakHop l h else s)

/-- BREAK_NOTICE (08 R198): the first notice for a hop is the break. Positions upstream forward it. -/
def execBreakNotice (l h : Nat) (s : State) : Res :=
  .next (if hopOk l h && 1 ≤ h && (s.link8 l).serials.any (·.isSome) then s.breakHop l h else s)

/-- Whether every sequenced flit on the hops that are up is acknowledged, and no transfer that has begun is unfinished (08 R191, R201). -/
def State.drained (s : State) (l : Nat) : Bool :=
  (List.range 4).all (fun h => !s.hopUp l h || (let p := s.hop l h
    p.dn.replay.isEmpty && p.up.replay.isEmpty && p.dn.out.all (fun x => h = 0 && (x.ty = 1 || p.dn.out.any (fun y => y.ty = 1 && y.tag = x.tag)))
      && p.up.out.isEmpty))

/-- WIDTH_CHANGE (08 R191): a width change of the link is asked for, or, once every sequenced flit is acknowledged, completes: the width
becomes the narrowest of the three. -/
def execWidthChange (l : Nat) (s : State) : Res :=
  .next (
    let x := s.link8 l
    let w := s.wantWidth l
    if l ≥ 64 || s.hopSt l 0 != hActive && s.hopSt l 0 != hQuiet then s
    else if widthCode w = s.rd F.KZL_STS_WIDTH l then s.putLink8 l { x with chg := none }
    else if !s.drained l then s.putLink8 l { x with chg := some w }
    else
      let s := ((s.putLink8 l { x with chg := none }).linkCtl l 0 false (lcPay false false (widthCode w + 1) 0)).wr F.KZL_STS_WIDTH (widthCode w) l
      (State.pump l 0 false replayMax s).settleStep)

/-- SIDEBAND_INSERT (08 R186, R202; 21 R458): KZnn_SB low for 100 ms, from absent: a cartridge is inserted and hop 0 leaves DETECT. Before step 7 of
start-up the level is only latched. -/
def execSidebandInsert (l : Nat) (s : State) : Res :=
  .next (
    if l ≥ 64 || s.rd F.KZL_STS_SB l = 1 then s
    else if !s.tables then s.putLink8 l { s.link8 l with sb := false, sbAt := s.el }
    else
      let s := ((s.wr F.KZL_STS_SB 1 l).putLink8 l { s.link8 l with sb := false, sbAt := s.el }).edge (32 + l) 0
      if s.hopSt l 0 = hDetect || (s.link8 l).broken.contains 0 then (if s.rd F.KZL_CTL_EN l = 1 then s.setHop l 0 hReset else s) else s)

/-- SIDEBAND_ALERT (08 R202): the sideband was high for 1 to 20 µs; the controller reads every bridge's alert status, leaving QUIET if
needed. `low` lists the positions whose downstream sideband is low. -/
def execSidebandAlert (l : Nat) (low : List Nat) (s : State) : Res :=
  .next (
    if l ≥ 64 || s.rd F.KZL_STS_SB l != 1 then s
    else
      let s := (List.range 4).foldl (fun (s : State) h => (s.burst l h false true).burst l h true true) s
      let s := s.send (.kz l "MANAGEMENT" [0])
      (List.range (s.rd F.KZL_STS_BRIDGES l)).foldl (fun (s : State) p =>
        let s := s.wr F.KZL_BID_DSB (b2n (low.contains p)) l p
        if low.contains p && p < 3 && s.hopSt l (p + 1) = hDetect then s.setHop l (p + 1) hReset else s) s)

/-- SIDEBAND_ABSENT (08 R202): the sideband high for more than 50 µs: B0 is absent, a break of hop 0. -/
def execSidebandAbsent (l : Nat) (s : State) : Res :=
  .next (
    if l ≥ 64 then s
    else if s.rd F.KZL_STS_SB l = 0 then s.putLink8 l { s.link8 l with sb := true, sbAt := s.el }
    else (((s.wr F.KZL_STS_SB 0 l).putLink8 l { s.link8 l with sb := true, sbAt := s.el }).edge (32 + l) 1).breakHop l 0)

/-- CHAIN_ENUMERATION (08 R200, R203): the link is enumerated from position `p`; `found` lists what the positions from there on report:
type, serial, die-present mask, descriptor identifiers, maximum width, downstream sideband low. -/
def execChainEnumeration (l p : Nat) (found : List (Nat × Nat × Nat × List Nat × Nat × Bool)) (s : State) : Res :=
  .next (
    if l ≥ 64 then s
    else
      let fs := found.map (fun f => (⟨f.1, f.2.1, f.2.2.1, f.2.2.2.1, f.2.2.2.2.1, f.2.2.2.2.2⟩ : Found))
      (s.enumerate l p fs).rerunAll.ceiling false)

/-- BRIDGE_COUNTER_COLLECT (08 R206): once per second the bridges' counts are added: corrected flits, replays, strays, losses of lock. -/
def execBridgeCounterCollect (l corr replay stray lock : Nat) (s : State) : Res :=
  .next (
    if l ≥ 64 then s
    else
      (((s.inc F.KZL_FEC_CNT_CORR l 0 corr).inc F.KZL_REPLAY_CNT_REPLAY l 0 replay).inc F.KZL_REPLAY_CNT_STRAY l 0 stray).inc
        F.KZL_LOCK_CNT_LOCKLOSS l 0 lock)

/-- PARTIAL_FLIT_TIMEOUT (08 R196): a receiver that holds part of a flit and has had no symbols for four flit times, 8 ns each at width 4,
discards it and sends a NAK. -/
def execPartialFlitTimeout (l h : Nat) (up : Bool) (s : State) : Res :=
  .next (
    let p := s.hop l h
    let x := p.dir up
    match x.part with
    | some t =>
      if hopOk l h && s.hopUp l h && t + 128 / (s.runLanes l h).length ≤ s.el then
        (s.linkCtl l h (!up) (lcPay true false 0 x.rx)).putHop l h (p.putDir up { x with part := none, sym := [], nak := true })
      else s
    | none => s)

end Sys2Proof.Machine
end

