-- ==== Sys2Proof/Machine/Units.lean ====
section
/-! DEFINITION. Replicated units: fences, re-issue, self-test and return, and the meanings of their commands (05 R142; 08 R205; 10 R241; 12
R281; 20 R434, R437-R439). Kinds: 0 frame lane with its cipher unit, 1 decoder, 2 link engine. -/

namespace Sys2Proof.Machine

/-- Puts the record of a unit. -/
def State.putUnit (s : State) (u : UnitSt) : State :=
  { s with ras := { s.ras with units := s.ras.units.filter (fun v => !(v.kind = u.kind && v.idx = u.idx)) ++ [u] } }

/-- Whether a unit exists. -/
def unitOk (k i : Nat) : Bool := (k = 0 && i < 64) || (k = 1 && i < 128) || (k = 2 && i < 64)

/-- Sets or clears a bit. -/
def withBit (v b : Nat) (on : Bool) : Nat := if on then Nat.lor v (2 ^ b) else v - (if bit v b then 2 ^ b else 0)

/-- Who serves the links of an engine pair (08 R205): the engine of its own, the partner, or none. -/
def State.pairServe (s : State) (i : Nat) : State :=
  let a := i / 2 * 2
  let up := fun (e : Nat) => (s.unitOf 2 e).state = 0
  let set := fun (s : State) (e : Nat) => s.wr F.KZL_STS_ENGINE (if up e then 0 else if up (Nat.xor e 1) then 1 else 2) e
  set (set s a) (a + 1)

/-- Hop 0 of both links of a pair passes through RECOVER (08 R205). -/
def State.pairRecover (s : State) (i : Nat) : State :=
  let a := i / 2 * 2
  [a, a + 1].foldl (fun (s : State) l => if s.hopUp l 0 then s.setHop l 0 hRecover else s) s

/-- A unit enters or leaves service in the registers that show it. -/
def State.setAvail (s : State) (k i : Nat) (on : Bool) : State :=
  if k = 0 then
    (s.wr F.FRL_LANE_AVAIL_MASK (withBit (s.rd F.FRL_LANE_AVAIL_MASK) i on)).wr F.CIP_UNIT_AVAIL_MASK (withBit (s.rd F.CIP_UNIT_AVAIL_MASK) i on)
  else if k = 1 then
    let s := s.wr F.RCH_DEC_AVAIL_MASK (withBit (s.rd F.RCH_DEC_AVAIL_MASK (i / 64)) (i % 64) on) (i / 64)
    s.wr F.RCH_DEC_STS_WORKING s.decCount
  else s.pairServe i

/-- Counts work that failed on a third unit (20 R438). -/
def State.third (s : State) (k i : Nat) : State :=
  let u := s.unitOf k i
  s.putUnit { u with third := sat 16 (u.third + 1) }

/-- Re-issues the blocks of a lane on another (05 R142); a block that faulted on three lanes drops its frame (20 R438). -/
def State.reissueLane (s : State) (l : Nat) (fault : Bool) : State :=
  (s.laneHolds l).foldl (fun (s : State) b =>
    let n := b.faults + b2n fault
    if n ≥ 3 then (s.third 0 l).dropFrame b.stream b.frame
    else
      match s.stream b.stream with
      | none => s
      | some x =>
        match s.pickLane x.mask with
        | none => s
        | some m =>
          let s := s.inc F.FRL_LREISSUE_CNT l
          let s := { s with cap := { s.cap with blks := s.cap.blks.map (fun (c : LaneBlk) =>
              if c = b then { c with lane := m, faults := n, since := s.el } else c) } }
          match s.stream b.stream with
          | none => s
          | some x =>
            match x.frame b.frame with
            | none => s
            | some f => s.putStream b.stream (x.putFrame { f with lanes := f.lanes.set b.blk m })) s

/-- Re-issues the codewords of a decoder (10 R241); one that faulted on three decoders fails its command with 0xC9, and background work
is dropped. -/
def State.reissueDec (s : State) (d : Nat) (fault : Bool) : State :=
  (s.die.cws.filter (fun w => w.dec = some d)).foldl (fun (s : State) w =>
    let n := w.faults + b2n fault
    let s := s.inc F.RCH_DEC_STS_REISSUE
    if n ≥ 3 then
      let s := (s.dropCw w.id).third 1 d
      if w.op.purp = .recon then s.reconOut w.op.cw w.op.member
      else if w.op.purp = .host then
        match s.cmdFor w.op.q w.op.cid w.op.arr with
        | some c => s.failRead c stRetry w.die
        | none => s
      else s
    else (s.putCw { w with dec := none, faults := n }).assign) s

/-- Transfers of an engine's link that had not completed are issued again from their sources (08 R205). -/
def State.reissueLink (s : State) (l : Nat) : State :=
  (s.die.dies.filter (fun e => e.1 / 64 = l)).foldl (fun (s : State) e =>
    let x := s.dieOf e.1
    match x.cur with
    | some o =>
      if o.kind = .erase then s
      else
        let s := (o :: x.merged).foldl (fun (s : State) p => s.freeTag l p.id) s
        (o :: x.merged).foldl (fun (s : State) p => s.enq e.1 p) (s.putDie e.1 { x with cur := none, merged := [] })
    | none => s) s

/-- Fences a unit for a reason (20 R437-R439): 1 self-check, 2 watchdog, 3 parity, 4 manager, 5 start-up repair. Its work is re-issued,
UNIT_FENCED and CEILING are raised. A unit that is fenced stays so. -/
def State.fenceUnit (s : State) (k i rsn : Nat) : State :=
  let u := s.unitOf k i
  if !unitOk k i || u.state != 0 then s
  else
    let recent := u.fences.filter (fun t => s.el < t + 24 * hourNs) ++ [s.el]
    let st := if rsn = 5 || recent.length ≥ s.rd F.RAS_CFG_FENCE_MAX then 2 else 1
    let s := (s.putUnit { u with state := st, passes := 0, fences := recent, rsn := rsn, time := s.tns, testAt := s.el }).setAvail k i false
    let s := if k = 0 then s.wr F.FRL_LSTS_FENCE_RSN (if rsn ≤ 3 then rsn else 0) i else s
    let s :=
      if k = 0 then s.reissueLane i (rsn != 4)
      else if k = 1 then s.reissueDec i (rsn != 4)
      else if s.rd F.KZL_STS_ENGINE i = 2 then (s.breakHop (i / 2 * 2) 0).breakHop (i / 2 * 2 + 1) 0
      else (s.reissueLink i).pairRecover i
    (s.raise evUnitFenced 0xFFFF (k * 256 + i)).ceiling true

/-- A unit returns to service (20 R439): UNIT_RESTORED and CEILING. -/
def State.returnUnit (s : State) (k i : Nat) : State :=
  let u := s.unitOf k i
  let s := (s.putUnit { u with state := 0, passes := 0 }).setAvail k i true
  let s := if k = 0 then s.wr F.FRL_LSTS_FENCE_RSN 0 i else if k = 2 then s.pairRecover i else s.assign
  (s.raise evUnitRestored 0xFFFF (k * 256 + i)).ceiling true

/-- Lane `l` has put all of its blocks into staging but the newest `n`, which it still holds. -/
def State.laneOut (s : State) (l n : Nat) : State :=
  let mine := s.cap.blks.filter (fun b => b.lane = l)
  let held := (mine.drop (mine.length - n)).map (fun b => { b with since := max b.since (s.el - 19999) })
  { s with cap := { s.cap with blks := s.cap.blks.filter (fun b => b.lane != l) ++ held } }

/-- LANE_WATCHDOG (05 R142; 20 R437): lane `l` holds its newest `n` blocks, the oldest of them for 20 µs (reason 2), or fails its self-check (1)
or the parity of its memory (3). -/
def execLaneWatchdog (l rsn n : Nat) (s : State) : Res :=
  .next (
    let mine := s.cap.blks.filter (fun b => b.lane = l)
    let held := mine.drop (mine.length - n)
    if rsn = 2 then (if held.any (fun b => b.since + 20000 ≤ s.el) then (s.laneOut l n).fenceUnit 0 l 2 else s)
    else if rsn = 1 || rsn = 3 then (s.laneOut l n).fenceUnit 0 l rsn else s)

/-- DECODER_WATCHDOG (10 R241; 20 R437): as for a lane, for decoder `d` and a codeword it holds. -/
def execDecoderWatchdog (d rsn : Nat) (s : State) : Res :=
  .next (
    if rsn = 2 then (if s.die.cws.any (fun w => w.dec = some d && w.since + 20000 ≤ s.el) then s.fenceUnit 1 d 2 else s)
    else if rsn = 1 || rsn = 3 then s.fenceUnit 1 d rsn else s)

/-- LINK_ENGINE_WATCHDOG (08 R205; 20 R437): engine `e` holds a transfer for 20 µs without progress (2), or fails its self-check (1) or
its parity (3). -/
def execLinkEngineWatchdog (e rsn : Nat) (s : State) : Res :=
  .next (
    if rsn = 2 then
      (if (s.die.dies.any (fun x => x.1 / 64 = e && x.2.cur.isSome && x.2.curAt + 20000 ≤ s.el)) then s.fenceUnit 2 e 2 else s)
    else if rsn = 1 || rsn = 3 then s.fenceUnit 2 e rsn else s)

/-- RAS_UNIT_FENCE (20 R439): the manager fences a unit. -/
def execRasUnitFence (k i : Nat) (s : State) : Res := .next (s.fenceUnit k i 4)

/-- Starts the self-test cycle of a fenced unit again, even where it was fenced for good (20 R439). -/
def State.release (s : State) (k i : Nat) : State :=
  let u := s.unitOf k i
  if unitOk k i && u.state != 0 then s.putUnit { u with state := 1, passes := 0, testAt := s.el } else s

/-- RAS_UNIT_RELEASE (20 R439). -/
def execRasUnitRelease (k i : Nat) (s : State) : Res := .next (s.release k i)

/-- UNIT_SELF_TEST (20 R439): 10 s after the last one, or after the fence or release, a fenced unit's self-test passes or fails; after RET_PASS passes in
a row it returns. -/
def execUnitSelfTest (k i : Nat) (pass : Bool) (s : State) : Res :=
  .next (
    let v := s.unitOf k i
    let u := { v with testAt := s.el }
    if !unitOk k i || v.state != 1 || s.el < v.testAt + 10000000000 then s
    else if !pass then s.putUnit { u with passes := 0 }
    else if u.passes + 1 ≥ s.rd F.RAS_CFG_RET_PASS then s.returnUnit k i
    else s.putUnit { u with passes := u.passes + 1 })

/-- CE_RATE_CHECK (20 R434): once per second the DRAM corrections since the last check join the sum of the last hour; DRAM_CE_RATE above
CE_RATE. -/
def execCeRateCheck (s : State) : Res :=
  .next (
    let sec := s.el / 1000000000
    let l : List (Nat × Nat) := (s.ras.ceHour ++ [(sec, s.ras.ceSec)]).filter (fun e => decide (sec < e.1 + 3600))
    let sum : Nat := (l.map (fun (e : Nat × Nat) => e.2)).sum
    let s := { s with ras := { s.ras with ceHour := l, ceSec := 0 } }
    if sum > s.rd F.RAS_CFG_CE_RATE then s.raise evDramCeRate 0xFFFF sum else s)

end Sys2Proof.Machine
end

