-- ==== Sys2Proof/Machine/Cipher.lean ====
section
/-! DEFINITION. The meanings of the cipher's commands, and what an advance of a key generation does to work in flight (12 R280, R281, R288-
R293). -/

namespace Sys2Proof.Machine

/-- Whether a command has work for the namespace's cipher that is not done: reads and writes where the setting is 1, a write up to its commit
point, and Frame Reads of enciphered records (12 R282, R292 step 3). -/
def Cmd.ciphers (c : Cmd) (n : Ns) : Bool :=
  if n.cipher = 1 then c.st != .fetched && (c.kind = .read || ((c.kind = .write || c.kind = .append || c.kind = .writeZeroes) && c.st != .media))
  else c.kind = .frameRead && c.fua

/-- Operations of a pair of slice and NSID that have not finished their cipher stage are refused with 0xC7, frames on the lanes are dropped, and
streams that encipher become BLOCKED with reason KEY (12 R292 step 3; 05 R136). Held Writes are refused first. -/
def State.caughtBy (s : State) (slice nsid : Nat) : State :=
  match Tab.find nsid s.zn.ns with
  | none => s
  | some n =>
    let mine := s.zn.cmds.filter (fun c => c.slice = slice && c.nsid = nsid && c.ciphers n)
    let s := (mine.filter (fun c => c.st = .held)).foldl (fun (s : State) c => s.denyKey.failHeld c stKey) s
    let s := (mine.filter (fun c => c.st != .held)).foldl (fun (s : State) c =>
      let s := s.denyKey.filterOps (fun o => !(o.q = c.q && o.cid = c.cid && o.arr = c.arr && o.purp = .host))
      if c.kind = .read || c.kind = .frameRead then s.fin c stKey else s.failWrite c n stKey) s
    (s.cap.streams.filter (fun e => e.2.slice = slice && e.2.nsid = nsid && e.2.cur.cmode = 1)).foldl (fun (s : State) e =>
      let s := (e.2.frames.filter (fun f => f.disp > 0 && f.prog.cmode = 1)).foldl (fun (s : State) f => s.denyKey.dropFrame e.1 f.key) s
      if e.2.state = stRun || e.2.state = stStall then s.setStream e.1 stBlock bkKey else s) s

/-- An advance of a pair's generation takes effect (12 R292): a generation past the largest retires the pair (R289). -/
def State.advanced (s : State) (slice nsid gen : Nat) : State :=
  let s :=
    if gen ≥ 2 ^ 32 then
      { s with cip := { s.cip with retired := if s.cip.retired.contains (slice, nsid) then s.cip.retired else s.cip.retired ++ [(slice, nsid)] } }
    else s.putGen slice nsid gen
  ((s.revoke slice nsid gen).caughtBy slice nsid).sweepSlots

/-- CIPHER_KNOWN_ANSWER_TEST (12 R281): an idle unit that fails its test, or holds a block for 20 µs, is fenced with its lane. -/
def execCipherKnownAnswerTest (u : Nat) (pass : Bool) (s : State) : Res :=
  .next (
    let s := { s with cip := { s.cip with failing := withBit s.cip.failing u (!pass) } }
    if u < 64 && !pass then s.fenceUnit 0 u 1 else s)

/-- RNG_FAIL (12 R280): a health test of the entropy source fails. -/
def execRngFail (s : State) : Res :=
  .next (
    let s := { s with cip := { s.cip with passes := 0 } }
    if s.rd F.CIP_STS_RNG_FAIL = 1 then s else (s.wr F.CIP_STS_RNG_FAIL 1).raise evRngFail 0xFFFF 0)

/-- RNG_FAIL_CLEAR (12 R280): a health test passes; 1,024 in a row clear RNG_FAIL. `n` is how many have passed since the last report. -/
def execRngFailClear (n : Nat) (s : State) : Res :=
  .next (
    if s.rd F.CIP_STS_RNG_FAIL = 0 then s
    else if s.cip.passes + n ≥ 1024 then ({ s with cip := { s.cip with passes := 0 } }).wr F.CIP_STS_RNG_FAIL 0
    else { s with cip := { s.cip with passes := s.cip.passes + n } })

/-- Requests that waited for a slot's key are refused, or run again with the other requests of the slice, which may have waited for a slot. -/
def State.keyAnswered (s : State) (k : KeySlot) (ok : Bool) : State :=
  let l := s.zn.cmds.filter (fun c => c.slice = k.slice && c.st = .key)
  let no := if ok then [] else l.filter (fun c => c.nsid = k.nsid)
  let s := no.foldl (fun (s : State) c => s.denyKey.fin c stKey) s
  (l.filter (fun c => !no.contains c)).foldl (fun (s : State) c => s.rerun c.q c.cid) s

/-- KEY_DERIVATION_DONE (12 R288, R290, R293): the derivation in slot `i` ends; `equal` says that an XTS derivation gave K1 = K2, which
only the root key decides (log 8). -/
def execKeyDerivationDone (i : Nat) (equal : Bool) (s : State) : Res :=
  .next (
    match Tab.find i s.cip.slots with
    | none => s
    | some k =>
      if k.st != 1 then s
      else if k.dying then ((s.putSlot i { k with st := 3, dying := false }).sweepSlots).keyAnswered k false
      else if equal && k.purpose = 1 then ((s.freeSlot i).keyFault i 0 1).keyAnswered k false
      else (s.putSlot i { k with st := 2 }).keyAnswered k true)

end Sys2Proof.Machine
end

