-- ==== Sys2Proof/Machine/JnlOps.lean ====
section
/-! DEFINITION. What proceeds when a journal entry becomes persistent, checkpoints, and the states of the map cache (06 R154; 07 R175,
R176; 11 R256-R271). -/

namespace Sys2Proof.Machine

/-! ### The map cache -/

/-- Writes a line back and notes that the write is in flight (11 R260). -/
def State.writeLine (s : State) (l : MLine) : State := (s.putLine { l with wb := true }).writeBack l.nsid l.page

/-- The disabling cache is disabled once no fill is in flight and no line is dirty (11 R262). -/
def State.mcSettle (s : State) : State :=
  if s.rd F.MCACHE_STS_STATE = 2 && !s.ftl.lines.any (fun l => l.pending || l.dirty) then
    (s.wr F.MCACHE_STS_STATE 0).wr F.MCACHE_STS_STALE 1
  else s

/-- A map page that cannot be read: every entry of it becomes lost (11 R257). -/
def State.losePage (s : State) (nsid page : Nat) : State :=
  let s := (List.range pageEntries).foldl (fun (s : State) i =>
    let lba := page * pageEntries + i
    let old := s.ment nsid lba
    let s := if old.st = 1 then s.invalidate old.row else s
    s.putMent nsid lba ⟨2, 0, 0⟩) s
  (s.jn 0x09 [nsid, page, 0]).raise evMapPageLost 0xFFFF (nsid * 2 ^ 32 + page)

/-! ### Reads that still use a row (11 R270) -/

/-- Whether a read of a row, of a block where one is named, is queued, running or in the sense buffer. -/
def State.reading (s : State) (r : RowId) (b : Option Blk) : Bool :=
  let hit := fun (d : Nat) (o : DOp) => o.kind = OpKind.read && o.row = r && (match b with
    | some q => d = q.die && o.blk = q.blk
    | none => true)
  s.die.dies.any (fun e => e.2.ops.any (fun o => hit e.1 o)) || s.die.cws.any (fun w => hit w.die w.op)

/-! ### Conventional rows (11 R253, R273) -/

/-- Whether a conventional row is full. -/
def CRow.full (c : CRow) : Bool := c.fill ≥ c.row.k * memBlocks || (c.map && c.fill + 4 > c.row.k * memBlocks)

/-- Gives a full row that holds nothing valid, that no relocation moves units from and that nobody reads, to reclamation. -/
def State.dropCRow (s : State) (h : Nat) : State :=
  match Tab.find h s.ftl.crows with
  | none => s
  | some c =>
    if c.full && c.valid = 0 && !s.ftl.relocs.any (fun (j : Reloc) => j.row = RowId.mk true h 0) && !s.reading ⟨true, h, 0⟩ none then
      let s := s.freeRow ⟨true, h, 0⟩ c.row
      let s := { s with stg := { s.stg with units := s.stg.units.filter (fun u => u.row != RowId.mk true h 0) } }
      { s with
        ftl := { s.ftl with crows := Tab.del h s.ftl.crows }
        zn := { s.zn with ud := s.zn.ud.filter (fun e => !(udRow h 0 ≤ e.1 && e.1 < udRow (h + 1) 0)) } }
    else s

/-! ### What a persistent entry lets proceed -/

/-- A folded wordline's source pages hold no valid data any more: window blocks all of whose wordlines are folded wait for erase
(06 R154). -/
def State.folded (s : State) (r : RowId) (wl : Nat) : State :=
  match s.srow r with
  | none => s
  | some x =>
    let f := max x.foldDone (wl + 1)
    let over0 := (List.range x.win.length).filter (fun w => (w + 1) * winPages ≤ 4 * f)
    let s := over0.foldl (fun (s : State) w => (x.win.getD w []).foldl State.staleBlk s) s
    let s := if over0.any (fun w => !(x.win.getD w []).isEmpty) && !r.conv then s.zseq r.h else s
    s.putRow r { x with foldDone := f, win := x.win.mapIdx (fun w l => if over0.contains w then [] else l) }

/-- Whether a moved member's old block is still one of its row's: a Reset or Offline that came between abandons the copy (09 R228; 11 R276). -/
def State.relocLive (s : State) (j : Reloc) : Bool :=
  match s.srow j.row with
  | none => false
  | some x => x.mem.contains j.old || x.win.any (fun l => l.contains j.old)
      || s.rdn.subst.any (fun e => e.row = j.row && e.member = j.member && e.blk = j.old)

/-- The new block of a moved member takes its place (11 R270 step 4); the old one waits for erase. -/
def State.switchBlk (s : State) (j : Reloc) : State :=
  match s.srow j.row with
  | none => s.staleBlk j.new
  | some x =>
    let sub := fun (b : Blk) => if b = j.old then j.new else b
    let s := s.putRow j.row { x with mem := x.mem.map sub, win := x.win.map (fun l => l.map sub) }
    let sb := s.rdn.subst.map (fun (e : Subst) => if e.row = j.row && e.member = j.member then { e with blk := sub e.blk } else e)
    (({ s with rdn := { s.rdn with subst := sb } }).moveTails j.old j.new).staleBlk j.old

/-- An LBA's entry changes only where it still names the old unit (11 R271). -/
def State.mapCas (s : State) (old seq : Nat) (m : Nat × Nat × Nat × Nat) : State :=
  let nsid := m.1 / 2 ^ 40
  let lba := m.1 % 2 ^ 40
  if s.ment nsid lba = ⟨1, old, m.2.1⟩ then
    let t := s.mapSet nsid lba ⟨1, m.2.2.1, m.2.2.2⟩ seq
    { t with ftl := { t.ftl with undo := s.ftl.undo } }
  else (s.inc F.FTL_RELOC_CNT_CNT 5).invalidate m.2.2.1

/-! ### Reshape (07 R180, R181) -/

/-- The stripe sets that a reshape's copy of a zone is written to, by the rule of 04 R103. -/
def State.reshapeSets (s : State) : State × List Nat :=
  match s.rdn.reshape with
  | none => (s, [])
  | some r =>
    match s.grp r.grp r.shadow with
    | none => (s, [])
    | some g =>
      let cid := if r.shadow then r.grp + 64 else r.grp
      match s.chooseSets g false (16 / max g.k 1) [] ((Tab.find cid s.zn.cursor).getD 0) with
      | none => (s, [])
      | some (sets, cur) => ({ s with zn := { s.zn with cursor := Tab.put cid cur s.zn.cursor } }, sets)

/-- Binds new full rows of a layout to a zone whose copy is complete, in place of those it has (07 R180 step 2). -/
def State.rebind (s : State) (h : Nat) (sets : List Nat) (g : Grp) (sh : Bool) : State :=
  if sets.isEmpty then s
  else
    let old := (s.zxOf h).rows
    let a := s.newRows g sh false sets
    let s := a.1
    let s := (old.mapIdx (fun i x => (i, x))).foldl (fun (s : State) e => s.partRow ⟨false, h, e.1⟩ e.2) s
    let s := (a.2.flatMap (fun (x : SRow) => x.mem)).foldl (fun (s : State) b => (s.stampNow b).tailsWhole b) s
    let full := a.2.map (fun (x : SRow) => { x with wl := x.mem.map (fun _ => wlCount), fold := wlCount, foldDone := wlCount })
    let s := s.putZx h { s.zxOf h with rows := full }
    let s := (s.wr F.ZON_ENT3_SSET0 (sets.getD 0 0) h).wr F.ZON_ENT3_K g.k h
    let s := (s.wr F.ZON_ENT4_SSET1 (sets.getD 1 0) h).wr F.ZON_ENT4_SSET2 (sets.getD 2 0) h
    (s.wr F.ZON_ENT5_SSET3 (sets.getD 3 0) h).zseq h

/-- A group's user space in 4 KiB units, of the dies that are present and matched: their blocks less the overprovisioning and the blocks that are
reserved as spare (07 R503). -/
def State.userSpace (s : State) (g : Grp) : Nat :=
  let ds := g.dies.flatten.filter (fun d => (s.dieOf d).present)
  let b := (ds.map (fun d => (s.descOf d).blocks)).sum
  let sp := (ds.map (s.shareOn g)).sum
  (940 * b - 1000 * sp) * memBlocks * g.k / (1000 * (g.k + 2))

/-- Whether a layout suits the zoned namespaces that a group hosts: k of 4, 8 or 16 (04 R99; 07 R168). -/
def State.zonedFits (s : State) (g : Nat) (l : Grp) : Bool :=
  l.k = 4 || l.k = 8 || l.k = 16 || !s.zn.ns.any (fun e => e.2.zoned && e.2.dg = g)

/-- A reshape ends when nothing remains on the layout that is left (07 R180 step 5, R181); the formatted user capacity changes by the change of
the group's user space, in whole zones (07 R503). -/
def State.rshpEnd (s : State) : State :=
  match s.rdn.reshape with
  | none => s
  | some r =>
    if !(s.leaving r).isEmpty || !(s.leavingRows r).isEmpty then s
    else
      let one := fun (x : SRow) => if x.shadow then { x with shadow := false } else x
      let s := if r.rev then s
        else
          let was := ((Tab.find r.grp s.rdn.groups).map s.userSpace).getD 0
          let cap := (s.zn.cap + s.userSpace r.target - was) / zoneBlocks * zoneBlocks
          { s with rdn := { s.rdn with groups := Tab.put r.grp r.target s.rdn.groups, kept := Tab.put r.grp r.target s.rdn.kept },
                   zn := { s.zn with cap := cap } }
      let zx := s.zn.zx.map (fun (e : Nat × ZoneX) =>
        if s.rd F.ZON_ENT0_DGROUP e.1 = r.grp then (e.1, { e.2 with rows := e.2.rows.map one }) else e)
      let cr := s.ftl.crows.map (fun (e : Nat × CRow) => if e.2.dg = r.grp then (e.1, { e.2 with row := one e.2.row }) else e)
      let s := { s with zn := { s.zn with zx := zx }, ftl := { s.ftl with crows := cr } }
      ({ s with rdn := { s.rdn with reshape := none } }).jn 0x17 [r.grp, b2n r.rev]

/-- Whether a reshape's copies give way: the background cap is reached and other work waits on a die of the group (03 R80). -/
def State.rshpYields (s : State) (r : Reshape) : Bool :=
  match Tab.find r.grp s.rdn.groups with
  | some g => g.allDies.any (fun d => s.capped 0 d && (s.dieOf d).queue.any (fun o => !s.idleOp o))
  | none => false

/-- Starts the copy of the next Full zone that is to leave, where none runs and copies do not pause (07 R180). The copy is charged as
reclamation of slice 0 when its zone switches. -/
def State.rshpNext (s : State) : State :=
  match s.rdn.reshape with
  | none => s
  | some r =>
    if s.rshpPaused r || s.ftl.relocs.any (fun j => j.kind = 4) || s.rshpYields r then s
    else
      match (s.leaving r).find? (fun h => s.zst h = znFull || s.zst h = znRo) with
      | none => s.rshpEnd
      | some h =>
        let j := Reloc.mk s.fresh 4 ⟨false, h, 0⟩ 0 ⟨0, 0⟩ ⟨0, 0⟩ [] 0 none
        { s.bump with ftl := { s.bump.ftl with relocs := s.ftl.relocs ++ [j] } }

/-- A reshape copy's journal entry is persistent: the zone switches as a whole; the copy of a zone that was reset meanwhile is
abandoned (07 R180, R182; 11 R276). -/
def State.zoneSwitched (s : State) (h : Nat) (sets : List Nat) : State :=
  match s.rdn.reshape with
  | none => s
  | some r =>
    if !(s.leaving r).contains h || !(s.zst h = znFull || s.zst h = znRo) then s.rshpNext
    else
      match s.grp r.grp r.shadow with
      | none => s
      | some g =>
        let n := s.cend h
        let b := (((s.zxOf h).rows.head?).bind (fun (x : SRow) => x.mem.head?)).getD ⟨0, 0⟩
        let y := s.descOf b.die
        let s := s.chargeBg 0 (chgWhole y (s.blkOf b).tier n + chgLink (n * 4096) + chgProg (n * 4096) y.rateQ)
        let s := { s with rdn := { s.rdn with reshape := some { r with done := r.done + 1 } } }
        ((s.rebind h sets g r.shadow).jnZone h).rshpNext

/-- A relocation's journal entry is persistent: the DRAM map switches and the old location waits for erase (11 R270). -/
def State.relocated (s : State) (id seq : Nat) : State :=
  match s.ftl.relocs.find? (fun (j : Reloc) => j.id = id) with
  | none => s
  | some j =>
    let s := { s with ftl := { s.ftl with relocs := s.ftl.relocs.filter (fun (i : Reloc) => i.id != id) } }
    let s := s.inc F.FTL_RELOC_CNT_CNT j.kind
    if j.kind = 0 then (j.moves.foldl (fun (s : State) m => s.mapCas j.row.h seq m) s).dropCRow j.row.h
    else if j.kind = 3 then s.tailMoved j
    else if j.kind = 4 then s.zoneSwitched j.row.h (j.moves.map (fun m => m.2.1))
    else if !s.relocLive j then s.staleBlk j.new
    else
      let s := s.switchBlk j
      match j.op with
      | none => s
      | some o =>
        (if o.kind = OpKind.prog1 then (s.pageProgrammed { o with blk := j.new.blk }).pageGood { o with blk := j.new.blk }
        else s.wlGood o.row o.member o.page).redo j.row j.member

/-- A substitution's rebuild is complete (07 R176 step 4): the member is at its substitute with every wordline its row has. -/
def State.rebuilt (s : State) (r : RowId) (m : Nat) : State :=
  let sb := s.rdn.subst.map (fun (e : Subst) => if e.row = r && e.member = m then { e with done := true } else e)
  let s := { s with rdn := { s.rdn with subst := sb } }
  match s.srow r with
  | none => s
  | some x =>
    let s := s.tailsWhole (s.memBlk r x m)
    let top := x.wl.foldl max 0
    let s := s.putRow r { x with wl := x.wl.set m top }
    (if top = 0 then s else s.wlGood r m (top - 1)).redo r m

/-- A map page's new copy is the valid one: the units of the old copy become invalid (11 R256), and the line is clean unless an update
came since its snapshot (R260). -/
def State.dirWritten (s : State) (nsid page row unit : Nat) : State :=
  let s := match Tab.find (mapKey nsid page) s.ftl.dir with
    | some (r0, _) => (List.range 4).foldl (fun (s : State) _ => s.invalidate r0) s
    | none => s
  let s := { s with ftl := { s.ftl with dir := Tab.put (mapKey nsid page) (row, unit) s.ftl.dir } }
  let s := match s.mcFind nsid page with
    | some l => if l.wb then s.putLine { l with dirty := false, wb := false } else s
    | none => s
  s.mcSettle

/-- A checkpoint's CKPT_END is persistent: ring space before S is freed, its time stamp is kept (19 R417), and the shutdowns that
asked for it are complete (11 R267). Where a device fault came after it began, another follows; otherwise admission reopens (20 R435). -/
def State.ckptEnded (s : State) (sq : Nat) : State :=
  match s.ftl.ckpt with
  | some (b, ring) =>
    if b = sq then
      let s := { s with tim := { s.tim with saved := some s.tns } }
      let fs := s.fns.map (fun (e : Nat × FnSt) => if e.2.shst = 1 then (e.1, { e.2 with shst := 2 }) else e)
      let s := { s with fns := fs }
      let s := { s with ftl := { s.ftl with ckpt := none, ckptS := sq, ckptAt := s.el, jsince := 0, jring := s.ftl.jring - ring } }
      match s.ftl.faulted with
      | some f =>
        if f ≤ sq then { s with ftl := { s.ftl with faulted := none } }
        else
          let b := s.ftl.jnext
          let s := s.jn 0x0C [b]
          { s with ftl := { s.ftl with ckpt := some (b, s.ftl.jring) } }
      | none => s
    else s
  | none => s

/-- What an entry lets proceed. -/
def State.jact (s : State) (e : JEnt) : State :=
  match e.act with
  | .none => s
  | .stale bs => bs.foldl State.staleBlk s
  | .foldDone r wl => s.folded r wl
  | .keyGen slice nsid gen => s.advanced slice nsid gen
  | .reloc id => s.relocated id e.seq
  | .rebuilt r m => s.rebuilt r m
  | .dirPage nsid page => s.dirWritten nsid page (bits (e.f.getD 2 0) 21 18) (bits (e.f.getD 2 0) 1 20)
  | .ckptEnd sq => s.ckptEnded sq

/-- An entry becomes persistent (11 R265). -/
def State.persist (s : State) (e : JEnt) : State :=
  let us := sat 16 ((s.el - e.made) / 1000)
  let s := (s.wr F.FTL_JNL_SEQ_SEQ e.seq).wr F.FTL_JNL_STS_MAX_US (max us (s.rd F.FTL_JNL_STS_MAX_US))
  let s := { s with ftl := { s.ftl with undo := s.ftl.undo.filter (fun u => e.seq < u.1), zundo := s.ftl.zundo.filter (fun u => e.seq < u.seq) } }
  s.jact e

/-- Pages at the head of those in flight whose copies are both verified become persistent, in order (11 R265). -/
def State.persistReady : Nat → State → State
  | 0, s => s
  | n + 1, s =>
    match s.ftl.jpages with
    | [] => s
    | p :: ps =>
      if p.copies ≥ 2 then
        let s := { s with ftl := { s.ftl with jpages := ps } }
        persistReady n (p.ents.foldl State.persist s)
      else s

/-! ### Checkpoints (11 R267) -/

/-- Starts a checkpoint: CKPT_BEGIN with sequence S, and the snapshots. -/
def State.ckptStart (s : State) : State :=
  if s.ftl.ckpt.isSome then s
  else
    let sq := s.ftl.jnext
    let s := s.jn 0x0C [sq]
    { s with ftl := { s.ftl with ckpt := some (sq, s.ftl.jring) } }

/-- A device fault: DEVICE_FAULT and its bit (20 R435); `arg` 1 the journal tail, 2 a context of slice 0 (R441). -/
def State.deviceFault (s : State) (arg : Nat) : State := (s.wr F.RAS_STS_DEV_FAULT 1).raise evDeviceFault 0xFFFF arg

/-- A word of the journal tail is bad in both copies (20 R433, R435): admission closes and a checkpoint is written, or the one that runs for an
earlier fault serves this one too (R447). -/
def State.tailFault (s : State) (addr : Nat) : State :=
  let s := (s.sramUe 5 addr).deviceFault 1
  if s.ftl.faulted.isSome then s else { s with ftl := { s.ftl with faulted := some s.ftl.jnext } }.ckptStart

/-- Dirty lines that the checkpoint in progress has to write back. -/
def State.ckptLines (s : State) (sq : Nat) : List MLine := s.dirtyLines.filter (fun l => l.seq < sq)

/-- Writes CKPT_END when the snapshots and the old dirty lines are written. -/
def State.ckptFinish (s : State) : State :=
  match s.ftl.ckpt with
  | some (sq, _) =>
    if (s.ckptLines sq).isEmpty && !s.ftl.jtail.any (fun e => e.act = .ckptEnd sq) then s.jn 0x0D [sq] (.ckptEnd sq) else s
  | none => s

/-- A journal page: at most 3,070 entries of 98,304 bytes in a ring of 8 GiB, 64 pages in flight (11 R264). -/
def jpageEntries : Nat := 3070

/-- Bytes of a journal page. -/
def jpageBytes : Nat := 98304

/-- Bytes of the ring. -/
def jringBytes : Nat := 2 ^ 33

/-- Programs the oldest entries as a page; nothing while 64 are in flight or the ring is full. -/
def State.jcommit (s : State) : State :=
  if s.ftl.jtail.isEmpty || s.ftl.jpages.length ≥ 64 || s.ftl.jring + jpageBytes > jringBytes then s
  else
    { s with ftl := { s.ftl with
        jpages := s.ftl.jpages ++ [JPage.mk (s.ftl.jtail.take jpageEntries) 0]
        jtail := s.ftl.jtail.drop jpageEntries
        jsince := s.ftl.jsince + jpageBytes
        jring := s.ftl.jring + jpageBytes } }

end Sys2Proof.Machine
end

