-- ==== Sys2Proof/Machine/Background.lean ====
section
/-! DEFINITION. The meanings of background work: reclamation, relocation, rebuild, substitution after DELAY, and the staging overflow
(06 R147; 07 R175-R180; 11 R269-R275). -/

namespace Sys2Proof.Machine

/-! ### Reclamation (11 R272-R275) -/

/-- Whether slice 0's background account `k` gives way on a die: its cap is reached and other work waits there (03 R80). -/
def State.bgYields (s : State) (k d : Nat) : Bool := s.capped k d && (s.dieOf d).queue.any (fun o => !s.idleOp o)

/-- Queues the erase of a block that holds no valid data, at slice 0's idle priority (11 R273). -/
def State.queueErase (s : State) (d : Nat) (purp : Purp) (blk : Nat) : State :=
  let o := pageOp ⟨true, 2 ^ 20, 0⟩ 0 blk 0 0 noQueue 0 s.el (s.el + s.target 6) (s.blkOf ⟨d, blk⟩).tier (s.rd F.SLI_GEN_GEN 0) 0 purp
  s.enq d { o with kind := .erase, idle := true, bg := some 0 }

/-- Whether a die has too few erased blocks ahead of need: fewer than ERASE_AHEAD beyond its spare, erases that are queued counted; or a command waits
for one, or its group's free space is critical (11 R273, R275; log 98). -/
def State.eraseDue (s : State) (d : Nat) : Bool :=
  let soon := ((s.dieOf d).ops.filter (fun o => o.kind = OpKind.erase)).length
  s.erasedOn d + soon < s.spareLeft d + s.rd F.FTL_GC_CFG_ERASE_AHEAD || (s.blockWanted d).isSome
    || ((s.grpOfDie d).map (fun e => s.critical e.2)).getD false

/-- The first block of a die that waits for erase, has none queued or running, and is not read any more (11 R270 step 5). -/
def State.staleOn (s : State) (d : Nat) : Option Nat :=
  let x := s.dieOf d
  ((s.die.blks.filter (fun e => e.1 / 2048 = d && e.2.use = BlkUse.stale)).map (fun e => e.1 % 2048)).find? (fun b =>
    !x.ops.any (fun o => o.blk = b) && !s.die.cws.any (fun w => w.die = d && w.op.blk = b))

/-- The full conventional row of a group that reclamation collects: on the layout that a reshape leaves, else the one with the fewest
valid units; the lowest handle on a tie. -/
def State.gcRow (s : State) (dg : Nat) : Option Nat :=
  let cand := s.ftl.crows.filter (fun e => e.2.dg = dg && e.2.full && !s.ftl.relocs.any (fun (j : Reloc) => j.row = RowId.mk true e.1 0))
  let leave : List Nat := match s.rdn.reshape with
    | some r => if r.grp = dg then s.leavingRows r else []
    | none => []
  match cand.find? (fun e => leave.contains e.1) with
  | some e => some e.1
  | none =>
    (cand.foldl (fun (a : Option (Nat × CRow)) e => match a with
      | none => some e
      | some b => if e.2.valid < b.2.valid then some e else some b) none).map (·.1)

/-- Appends the copy of one valid unit of row `h` to the group's current row: its read is charged now, its program as it is issued. -/
def State.gcMove (s : State) (dg h : Nat) (e : Nat × MEnt) : State × Option (Nat × Nat × Nat × Nat) :=
  match s.openCRow dg with
  | none => (s, none)
  | some (s, row) =>
    match Tab.find row s.ftl.crows with
    | none => (s, none)
    | some cr =>
      let u := cr.fill
      let s := { s with ftl := { s.ftl with crows := Tab.put row { cr with fill := u + 1, valid := cr.valid + 1 } s.ftl.crows } }
      let s := s.stageAt ⟨⟨true, row, 0⟩, u, s.el, 0, s.el, s.el + s.target 6, 6, bgQueue, 0⟩ (udRow row u) (s.getUd (udRow h e.2.unit))
      let from0 := ((Tab.find h s.ftl.crows).map (fun c => (c.row.mem.getD (placeIn c.row.k e.2.unit).1 ⟨0, 0⟩))).getD ⟨0, 0⟩
      let s := s.chargeBg 0 (chgWhole (s.descOf from0.die) (s.blkOf from0).tier 1)
      (s.progReady ⟨true, row, 0⟩ cr.row.k 0 u (u + 1) false, some (e.1, e.2.unit, row, u))

/-- Starts the collection of a row: its valid units are copied, its map pages written back anew. -/
def State.collect (s : State) (h : Nat) : State :=
  match Tab.find h s.ftl.crows with
  | none => s
  | some c =>
    if c.valid = 0 then s.dropCRow h
    else if c.map then
      (s.ftl.dir.filter (fun e => e.2.1 = h)).foldl (fun (s : State) e => s.writeBack (e.1 / 2 ^ 40) (e.1 % 2 ^ 40) true) s
    else
      let us := s.ftl.fmap.filter (fun e => e.2.st = 1 && e.2.row = h)
      let a := us.foldl (fun (a : State × List (Nat × Nat × Nat × Nat)) e =>
        let b := a.1.gcMove c.dg h e
        (b.1, a.2 ++ b.2.toList)) (s, [])
      let s := a.1
      let j := Reloc.mk s.fresh 0 ⟨true, h, 0⟩ 0 ⟨0, 0⟩ ⟨0, 0⟩ a.2 0 none
      { s.bump with ftl := { s.bump.ftl with relocs := s.ftl.relocs ++ [j] } }

/-- Another die of the same link and die group outside the stripe set, with an erased block, for a refresh (11 R269; 04 R101). -/
def State.refreshDie (s : State) (x : SRow) (d : Nat) : Option Nat :=
  (((s.grpOfDie d).map (fun e => e.2.allDies)).getD []).find? (fun e => e / 64 = d / 64 && s.works e && s.erasedOn e > 0 && !x.mem.any (fun b => b.die = e))

/-- Starts the refresh of a block that is flagged for it, unless its zone is active (11 R269; 10 R243, R246). -/
def State.refreshStart (s : State) (b : Blk) : State :=
  match s.ownerOf b with
  | none => if s.isTail (b.die * 2048 + b.blk) && !s.bgYields 0 b.die then s.tailMove b.die b.blk else s
  | some (r, x, m, w) =>
    if s.activeRow r || s.ftl.relocs.any (fun (j : Reloc) => j.old = b) || s.bgYields 0 b.die then s
    else
      let new := match s.takeBlk b.die w.isSome with
        | some p => some p
        | none => (s.refreshDie x b.die).bind (fun e => s.takeBlk e w.isSome)
      match new with
      | none => s
      | some (s, nb) =>
        let t := (s.blkOf b).tier
        let s := (s.asTier nb t).stampNow nb
        let n := if w.isSome then winBlocks else memBlocks
        let y := s.descOf b.die
        let s := s.chargeBg 0 (chgWhole y t n + chgLink (n * 4096) + chgProg (n * 4096) (if w.isSome then y.rate1 else y.rateQ))
        let j := Reloc.mk s.fresh 1 r m b nb [] 0 none
        { s.bump with ftl := { s.bump.ftl with relocs := s.ftl.relocs ++ [j] } }

/-- RECLAMATION (11 R269, R273): background reclamation looks at die `d`: one block without valid data is queued for erase, rows without
valid units are given up, a row is collected while the group is below GC_START, and refreshes and reshape copies that wait are begun. -/
def execReclamation (d : Nat) (s : State) : Res :=
  .next (
    if !s.works d || s.tailFull then s
    else
      let s := match if s.eraseDue d then s.staleOn d else none with
        | some b => s.queueErase d .gcErase b
        | none => s
      let s := ((s.ftl.crows.filter (fun e => e.2.full && e.2.valid = 0)).map (·.1)).foldl State.dropCRow s
      let s := ((s.die.blks.filter (fun e => e.1 / 2048 = d && e.2.refresh && e.2.use = BlkUse.data)).map (fun e => e.1 % 2048)).foldl
        (fun (s : State) b => s.refreshStart ⟨d, b⟩) s
      let s := match s.grpOfDie d with
        | none => s
        | some (dg, g) =>
          let lv : Bool := match s.rdn.reshape with
            | some r => r.grp = dg && !(s.leavingRows r).isEmpty && !s.rshpPaused r
            | none => false
          if (s.freeOf g < s.rd F.FTL_GC_CFG_GC_START || lv) && !s.bgYields 0 d then
            match s.gcRow dg with
            | some h => s.collect h
            | none => s
          else s
      s.rshpNext)

/-! ### Relocation (11 R270) -/

/-- Journals what a verified copy changes (11 R270 step 3). -/
def State.journalMove (s : State) (j : Reloc) : State :=
  let a := if j.kind = 4 then s.reshapeSets else (s, [])
  let s := a.1
  let ms := if j.kind = 4 then a.2.mapIdx (fun i t => (i, t, 0, 0)) else j.moves
  let s := { s with ftl := { s.ftl with relocs := s.ftl.relocs.map (fun (i : Reloc) => if i.id = j.id then { i with step := 2, moves := ms } else i) } }
  if j.kind = 0 then
    match j.moves.reverse with
    | [] => s.jn 0x02 [j.row.h] (.reloc j.id)
    | l :: ms =>
      let s := ms.reverse.foldl (fun (s : State) m => s.jn 0x02 [m.1 / 2 ^ 40, m.1 % 2 ^ 40, 1, j.row.h, m.2.1, m.2.2.1, m.2.2.2]) s
      s.jn 0x02 [l.1 / 2 ^ 40, l.1 % 2 ^ 40, 1, j.row.h, l.2.1, l.2.2.1, l.2.2.2] (.reloc j.id)
  else if j.kind = 4 then
    let sh := b2n ((s.rdn.reshape.map (·.shadow)).getD false)
    let bind := fun (s : State) (m : Nat × Nat × Nat × Nat) (a : JAct) => s.jn 0x05 [j.row.h, m.1, m.2.1, 2, s.rd F.ZON_ENT0_PSLOT j.row.h, sh] a
    match ms.reverse with
    | [] => s.jn 0x05 [j.row.h] (.reloc j.id)
    | l :: t => bind (t.reverse.foldl (fun s m => bind s m .none) s) l (.reloc j.id)
  else s.jn 0x08 [b2n j.row.conv, j.row.h, j.row.r, j.member, j.old.die, j.old.blk, j.new.die, j.new.blk] (.reloc j.id)

/-- RELOCATION (11 R270; 09 R221): the copy of relocation `id` is written and `ok` tells whether it verified. A copy that did not is
made again on another block; a grown-bad copy then writes the failed program's data itself. -/
def execRelocation (id : Nat) (ok : Bool) (s : State) : Res :=
  .next (
    match s.ftl.relocs.find? (fun (j : Reloc) => j.id = id && j.step = 0) with
    | none => s
    | some j =>
      if (j.kind = 1 || j.kind = 2) && !s.relocLive j then
        { s with ftl := { s.ftl with relocs := s.ftl.relocs.filter (fun (i : Reloc) => i.id != id) } }.staleBlk j.new
      else if ok then
        if j.kind = 2 then
          match j.op with
          | some o =>
            let s := { s with ftl := { s.ftl with relocs := s.ftl.relocs.map (fun (i : Reloc) => if i.id = id then { i with step := 1 } else i) } }
            s.enq j.new.die { o with blk := j.new.blk, purp := .copy, cid := id + 1, bg := some 0 }
          | none => s.journalMove j
        else s.journalMove j
      else if j.kind = 1 || j.kind = 2 then
        let s := { s with ftl := { s.ftl with relocs := s.ftl.relocs.filter (fun (i : Reloc) => i.id != id) } }
        let s := s.badBlk j.new
        if j.kind = 1 then s.refreshStart j.old
        else
          match j.op with
          | some o => s.replaceBlk j.row j.member j.old (o.kind = OpKind.prog1) o.tier o
          | none => s
      else if j.kind = 3 then
        let s := { s with ftl := { s.ftl with relocs := s.ftl.relocs.filter (fun (i : Reloc) => i.id != id) } }
        let s := match j.moves.head? with
          | some m => (s.tailBad j.old.die m.2.1).1
          | none => s
        s.tailSweep j.old.die
      else s)

/-! ### Rebuild (07 R176) -/

/-- Missing members of the row of an entry. -/
def State.missCount (s : State) (e : Subst) : Nat :=
  match s.srow e.row with
  | some x => (s.missing e.row x).length
  | none => 0

/-- Stripes that a member block of a row has to have rebuilt: those of the written part of an active zone's row, else all (07 R166,
R176). -/
def State.rbldStripes (s : State) (e : Subst) (x : SRow) : Nat :=
  if s.activeRow e.row then
    let n := s.wp e.row.h - e.row.r * (x.k * memBlocks)
    min 1366 (ceilDiv ((List.range x.k).foldl (fun a m => max a (onMember x.k m n)) 0) 24)
  else 1366

/-- The rebuild share of a group this epoch, in 1/16 µs (07 R176). -/
def State.rbldShare (s : State) (dg : Nat) (g : Grp) : Nat :=
  let two := s.allRows.any (fun e => (!e.1.conv && s.rd F.ZON_ENT0_DGROUP e.1.h = dg) && (s.missing e.1 e.2).length ≥ 2)
  let w := (g.allDies.filter s.works).length
  w * 16000 * (if two then s.rd F.RDN_RBLD_CFG_CRIT_SHARE else s.rd F.RDN_RBLD_CFG_SHARE) / 1000

/-- Blocks of a member's stripe: 24, and 8 of the last one (07 R166). -/
def stripeBlks (i : Nat) : Nat := min 24 (memBlocks - 24 * i)

/-- What `n` rebuilt blocks cost, in 1/16 µs: k reads, the QLC program and the verify of each (07 R176). -/
def chgRebuild (y : Desc) (t k n : Nat) : Nat := (k + 1) * chgWhole y t n + chgProg (n * 4096) y.rateQ

/-- REBUILD_STRIPE (07 R176, R177): the next stripe of member `m` of a row is reconstructed and written to its substitute. It waits while
the share is used up, while another block of the group has more members missing, and while a member that it needs is only
unreachable. -/
def execRebuildStripe (conv : Bool) (h r m : Nat) (s : State) : Res :=
  .next (
    let rid : RowId := ⟨conv, h, r⟩
    match s.rdn.subst.find? (fun e => e.row = rid && e.member = m && !e.done), s.srow rid with
    | some e, some x =>
      match s.grpOfDie e.blk.die with
      | none => s
      | some (dg, g) =>
        let mine := s.missCount e
        let first := s.rdn.subst.all (fun f => f.done || (match s.grpOfDie f.blk.die with
          | some (k, _) => k != dg || s.missCount f ≤ mine
          | none => true))
        let used := (Tab.find dg s.rdn.rbld).getD 0
        let others := (s.missing rid x).filter (fun i => i != m)
        let n := s.rbldStripes e x
        if !s.works e.blk.die || used ≥ s.rbldShare dg g || !first || s.tailFull then s
        else if others.length ≥ 2 && others.any (s.memUnreach rid x) then s
        else
          let s := if others.length ≥ 2 && !s.isLost rid e.upto then s.loseStripe rid e.upto else s
          let c := chgRebuild (s.descOf e.blk.die) (s.blkOf e.blk).tier x.k (stripeBlks e.upto)
          let s := (s.chargeBg 3 c).stampNow e.blk
          let s := { s with rdn := { s.rdn with
            rbld := Tab.put dg (used + c) s.rdn.rbld
            subst := s.rdn.subst.map (fun (f : Subst) => if f.row = rid && f.member = m then { f with upto := f.upto + 1 } else f) } }
          let s := s.addw F.RDN_RBLD_BYTES_BYTES (4096 * stripeBlks e.upto)
          if e.upto + 1 ≥ n then s.jn 0x10 [b2n conv, h, r, m, e.blk.die, e.blk.blk, 1] (.rebuilt rid m) else s
    | _, _ => s)

/-- Whether a die lies at a prepared position or beyond it (08 R204). -/
def State.prepared (s : State) (d : Nat) : Bool :=
  s.rd F.KZL_STS_REMOVE_OK (d / 64) = 1 && s.rd F.KZL_STS_REMOVE_POS (d / 64) ≤ d / 16 % 4

/-- SUBSTITUTION_DELAY_EXPIRY (07 R175, R178): die `d` has been unreachable for DELAY, or was removed after a Prepare removal; the members on it
are lost and substituted. -/
def execSubstitutionDelayExpiry (d : Nat) (s : State) : Res :=
  .next (
    match (s.dieOf d).goneAt with
    | some t => if !s.works d && (s.prepared d || t + s.rd F.RDN_RBLD_CFG_DELAY * 1000000000 ≤ s.el) then s.substDie d (fun _ => true) else s
    | none => s)

/-! ### The staging overflow (06 R147) -/

/-- Units of a window page-row that lie in the window pool. -/
def State.pageRowUnits (s : State) (r : RowId) (k w p : Nat) : List StU :=
  s.stg.units.filter (fun u => u.row = r && u.pool = 0 && winOf (placeIn k u.off).2 = (w, p))

/-- The page-rows with units in the window pool that are not complete, with the time of their oldest unit. -/
def State.openPageRows (s : State) : List (Nat × RowId × Nat × Nat) :=
  let keys := (s.stg.units.filter (fun u => u.pool = 0 && !s.isDirect u.row)).filterMap (fun u =>
    (s.srow u.row).map (fun x => (u.row, x.k, winOf (placeIn x.k u.off).2)))
  keys.dedup.filterMap (fun e =>
    let us := s.pageRowUnits e.1 e.2.1 e.2.2.1 e.2.2.2
    if us.length < e.2.1 * pageUser e.2.2.2 then
      some ((us.map (·.since)).foldl min s.el, e.1, e.2.2.1, e.2.2.2)
    else none)

/-- STAGING_OVERFLOW_MOVE (06 R147): the units of window page-row (`w`, `p`) of a row move to the overflow: it has been incomplete for
longer than FILL_TMO with the pool more than half full, or it is the oldest while the pool's free space is below LOW_FREE. -/
def execStagingOverflowMove (conv : Bool) (h r w p : Nat) (s : State) : Res :=
  .next (
    let rid : RowId := ⟨conv, h, r⟩
    let l := s.openPageRows
    match l.find? (fun e => e.2 = (rid, w, p)), s.srow rid with
    | some e, some x =>
      let old := e.1 + s.rd F.MED_STG_CFG_FILL_TMO * 1000000 < s.el && 2 * s.winUsed > s.winPool
      let low := s.winFree < s.rd F.MED_STG_CFG_LOW_FREE * 256 && l.all (fun f => e.1 ≤ f.1)
      let us := s.pageRowUnits rid x.k w p
      if (old || low) && (s.stg.units.filter (fun u => u.pool = 2)).length + us.length ≤ 16777216 then
        let n := if conv then s.foldSlice rid else s.zSlice h
        let o := s.stg.ovfAt
        let s := s.charge n none (s.chgSys (s.descOf (sysDie (ovfPlace o).1 (ovfPlace o).2.1)) us.length)
        { s with stg := { s.stg with
          ovfAt := (o + us.length) % 16777216
          units := s.stg.units.map (fun (u : StU) =>
            if us.contains u then { u with pool := 2, loc := (o + us.findIdx (· = u)) % 16777216 } else u) } }
      else s
    | _, _ => s)

end Sys2Proof.Machine
end

