-- ==== Sys2Proof/Machine/Journal.lean ====
section
/-! DEFINITION. The meanings of the journal's and the map cache's commands (11 R259-R268; 12 R292). -/

namespace Sys2Proof.Machine

/-- JOURNAL_PAGE_COMMIT (11 R264): a page is full, or its oldest entry is COMMIT_US old. With `bad` a word of the tail is found bad in both
copies as the page is read (20 R433, R435). -/
def execJournalPageCommit (bad : Option Nat) (s : State) : Res :=
  .next (
    let s := match bad with
      | some a => if s.ftl.jtail.isEmpty then s else s.tailFault a
      | none => s
    let old : Bool := match s.ftl.jtail with
      | e :: _ => decide (e.made + s.rd F.FTL_JNL_CFG_COMMIT_US * 1000 ≤ s.el)
      | [] => false
    if s.ftl.jtail.length ≥ jpageEntries || old then s.jcommit else s)

/-- JOURNAL_PAGE_PERSIST (11 R265): both copies of page `i` of those in flight are programmed and verified; its entries become
persistent once every earlier entry is. -/
def execJournalPagePersist (i : Nat) (s : State) : Res :=
  .next (
    let ps := s.ftl.jpages.mapIdx (fun k (p : JPage) => if k = i then { p with copies := 2 } else p)
    (({ s with ftl := { s.ftl with jpages := ps } }).persistReady 64).resumeDels)

/-- KEY_GENERATION_ADVANCE (12 R292): the instant at which a generation advance that the journal holds is persistent. Nothing happens
while the entry of an advance of the pair is not persistent. -/
def execKeyGenerationAdvance (slice nsid : Nat) (s : State) : Res :=
  .next (
    let waits := (s.ftl.jtail ++ s.ftl.jpages.flatMap (fun p => p.ents)).any (fun (e : JEnt) => match e.act with
      | .keyGen a b _ => a = slice && b = nsid
      | _ => false)
    if waits then s else s.sweepSlots.revoke slice nsid (s.keyGen slice nsid))

/-- CHECKPOINT_START (11 R267): on journal volume or interval; a shutdown notification and Jack entry start one themselves. -/
def execCheckpointStart (s : State) : Res :=
  .next (
    if s.ftl.jsince ≥ s.rd F.FTL_JNL_CFG_CKPT_MIB * 2 ^ 20 || s.ftl.ckptAt + s.rd F.FTL_JNL_CFG_CKPT_S * 1000000000 ≤ s.el then s.ckptStart
    else s)

/-- CHECKPOINT_END (11 R267). -/
def execCheckpointEnd (s : State) : Res := .next s.ckptFinish

/-- Whether background write-back runs: more than WB_PCT of the lines are dirty (11 R260). -/
def State.wbRuns (s : State) : Bool := s.dirtyLines.length * 100 > s.rd F.MCACHE_CFG_WB_PCT * (s.mcSets * 16)

/-- MAP_WRITEBACK (11 R260): a dirty line is written back for a checkpoint, or in the background, oldest sequence first. -/
def execMapWriteback (nsid page : Nat) (s : State) : Res :=
  .next (
    match s.dirtyLines.find? (fun l => l.nsid = nsid && l.page = page && !l.wb) with
    | none => s
    | some l =>
      let ck : Bool := match s.ftl.ckpt with
        | some (sq, _) => l.seq < sq
        | none => false
      let oldest := s.dirtyLines.all (fun k => k.wb || l.seq ≤ k.seq)
      if ck || s.rd F.MCACHE_STS_STATE = 2 || (s.wbRuns && oldest) then s.writeLine l else s)

/-- MAP_FILL_ARRIVAL (11 R257, R259, R263): a fill arrives; `ok` tells whether its page could be read and passed its checks. A poisoned
fill is dropped, and the lookups that waited are issued again, with those that found every way PENDING. -/
def execMapFillArrival (nsid page : Nat) (ok : Bool) (s : State) : Res :=
  .next (
    match s.ftl.lines.find? (fun l => l.nsid = nsid && l.page = page && l.pending) with
    | none => s
    | some l =>
      let s :=
        if l.poison then (s.dropLine l).inc F.MCACHE_POISON_CNT
        else
          let s := if ok then s else s.losePage nsid page
          (s.putLine { l with valid := true, pending := false, waiters := [] }).touch l.set l.way
      let s := l.waiters.foldl (fun (s : State) w => s.rerun w.1 w.2) s
      let rest := s.zn.cmds.filter (fun c => c.st = CmdSt.map && !s.ftl.lines.any (fun k => k.waiters.contains (c.q, c.cid)))
      (rest.foldl (fun (s : State) c => s.rerun c.q c.cid) s).mcSettle)

/-- What a write of MCACHE_CTL.EN does (11 R262). -/
def State.mcEnable (s : State) (on : Bool) : State :=
  let st := s.rd F.MCACHE_STS_STATE
  if on then
    if st = 1 then s
    else if s.rd F.MCACHE_STS_STALE = 1 then s.wr F.MCACHE_STS_ERR 1
    else
      let s := (s.ftl.bypass.filter (fun e => e.2.2)).foldl (fun (s : State) e => s.writeBack e.1 e.2.1) s
      (({ s with ftl := { s.ftl with bypass := [] } }).wr F.MCACHE_CTL_EN 1).wr F.MCACHE_STS_STATE 1
  else if st = 1 then
    let s := (s.wr F.MCACHE_CTL_EN 0).wr F.MCACHE_STS_STATE 2
    ((s.dirtyLines.filter (fun l => !l.wb)).foldl State.writeLine s).mcSettle
  else s.wr F.MCACHE_CTL_EN 0

/-- MCACHE_DISABLE (11 R262): a write of EN = 0. -/
def execMcacheDisable (s : State) : Res := .next (s.mcEnable false)

/-- MCACHE_ENABLE (11 R262): a write of EN = 1. -/
def execMcacheEnable (s : State) : Res := .next (s.mcEnable true)

/-- Handles one line of an invalidate that keeps the map (11 R262, R263). -/
def State.invLine (s : State) (l : MLine) : State :=
  if l.pending then s.putLine { l with poison := true }
  else (if l.dirty then s.writeBack l.nsid l.page else s).dropLine l

/-- What a write of INV_ALL does (11 R262): dirty lines are written back first while the cache holds current ones. -/
def State.invAll (s : State) : State :=
  let s := if s.rd F.MCACHE_STS_STATE = 0 then { s with ftl := { s.ftl with lines := [] } } else s.ftl.lines.foldl State.invLine s
  (s.wr F.MCACHE_STS_STALE 0).mcSettle

/-- MCACHE_INV_ALL (11 R262). -/
def execMcacheInvAll (s : State) : Res := .next s.invAll

/-- What a write of GO does (11 R263): an invalidate of COUNT pages from INV_PG of namespace INV_NS. -/
def State.invGo (s : State) : State :=
  if s.rd F.MCACHE_STS_INV_BUSY = 1 then s.wr F.MCACHE_STS_ERR 1
  else s.invRange (s.rd F.MCACHE_INV_NS_VALUE) (s.rd F.MCACHE_INV_PG_VALUE) (s.rd F.MCACHE_INV_CNT_COUNT) false

/-- MCACHE_INV_GO (11 R263): a write of MCACHE_INV_CNT with COUNT and GO. -/
def execMcacheInvGo (count : Nat) (s : State) : Res := .next ((s.wr F.MCACHE_INV_CNT_COUNT count).invGo)

end Sys2Proof.Machine
end

