-- ==== Sys2Proof/Machine/PwrOps.lean ====
section
/-! DEFINITION. Power-limit steps, the choice of a power state, leaving Doze and Nap, and entering Jack (01 R17-R21, R34; 18 R395-R407; 06
R160). -/

namespace Sys2Proof.Machine

/-! ### Power-limit steps (18 R405-R407) -/

/-- The step that a remote input forces, 0 for none: its reading, or its failed value, at or above its limit (18 R410, R411). -/
def State.tsStep (s : State) (n : Nat) : Nat :=
  let lim := toSigned 8 (s.rd F.THM_TS_CFG_LIMIT n) * 8
  let st := s.rd F.THM_TS_STS_STATE n
  let v := toSigned 12 (s.rd F.THM_TS_STS_TEMP n)
  if (st = 1 || st = 2) && lim ≤ v then s.rd F.THM_TS_CFG_STEP n else 0

/-- The sources of the current step with their PWR_STEP.RSN, in the order of 18 R406. -/
def State.stepSources (s : State) : List (Nat × Nat) :=
  [(s.rd F.PWR_STEP_THERM, 1), (((List.range 8).map s.tsStep).foldl max 0, 2),
    (if s.drc.hot = 0 then 0 else s.rd F.THM_CFG_DRAM_STEP, 3), (max s.pwr.hostStep (s.rd F.PWR_HOST_STEP_STEP), 4), (s.pwr.paceStep, 5),
    (if s.rd F.PUP_VREG_FAIL = 1 then 15 else 0, 6), (s.pwr.overStep, 7),
    (if s.rd F.THM_STS_FAILED > 8 then s.rd F.THM_CFG_FAILED_STEP else 0, 8)]

/-- The step that the sources call for, and the first of them that does; no reason at step 0. -/
def State.stepWant (s : State) : Nat × Nat := s.stepSources.foldl (fun a e => if a.1 < e.1 then e else a) (0, 0)

/-- PWR_STS.STATE in Run: Lean while the step is above 0 (18 R395). -/
def State.lean (s : State) : State :=
  if !s.awake then s
  else
    let new := b2n (s.rd F.PWR_STEP_STEP != 0)
    let s := if new = 1 && s.rd F.PWR_STS_STATE = 0 then s.inc F.PWR_ENTRY_CNT_CNT 0 else s
    s.wr F.PWR_STS_STATE new

/-- Moves to a step: lanes and ingest bucket, width and pace floor follow the table in the order of 01 R34 (18 R405, R407). -/
def State.moveStep (s : State) (n rsn : Nat) : State :=
  (((s.wr F.PWR_STEP_STEP n).wr F.PWR_STEP_RSN rsn).lean.settleStep).raise evThmStep 0xFFFF n

/-- Takes a higher-numbered step at once (18 R407); nothing while the Puppeteer is stopped (16 R350). -/
def State.stepUp (s : State) : State :=
  let w := s.stepWant
  let cur := s.rd F.PWR_STEP_STEP
  if s.stopped then s
  else if cur < w.1 then s.moveStep w.1 w.2
  else if cur = w.1 then s.wr F.PWR_STEP_RSN w.2
  else s

/-! ### Which state an idle controller may enter (18 R396-R398) -/

/-- Doze, Nap and Jack, as PWR_STS.STATE and PWR_WAKE_SRC.FROM number them. -/
def pwDoze : Nat := 2
/-- Nap. -/
def pwNap : Nat := 3
/-- Jack. -/
def pwJack : Nat := 4

/-- The exit latency of a state, in ns (18 R395). -/
def exitNs (st : Nat) : Nat := if st = pwDoze then 200000 else if st = pwNap then 20000000 else 6000000000

/-- The deepest state that an NVMe power state allows (18 R398). -/
def deepest (ps : Nat) : Nat := if ps = 3 then pwDoze else if ps = 4 then pwNap else if ps = 5 then pwJack else 0

/-- The state that an idle controller takes (18 R397); 0 is Run. -/
def State.choice (s : State) : Nat :=
  [pwDoze, pwNap, pwJack].foldl (fun a st =>
    let ok : Bool := match s.tol with
      | some t => exitNs st ≤ t
      | none => true
    if st ≤ deepest (s.rd F.PWR_STS_NVME_PS) && ok && (st != pwJack || s.rd F.PWR_CFG_JACK_EN = 1) then st else a) 0

/-- Whether patrol is more than 1 % of a pass behind its schedule (18 R396; 10 R246). -/
def State.patrolLate (s : State) : Bool :=
  let n := s.patrolCount
  s.rd F.RCH_PATROL_CFG_EN = 1 && n.1 != 0
    && (s.el - s.die.patrolAt) * 100 / (s.rd F.RCH_PATROL_CFG_PERIOD * hourNs + 1) > n.2 * 100 / n.1 + 1

/-- The controller is idle (18 R396). -/
def State.isIdle (s : State) : Bool :=
  s.idleNow && !s.patrolLate && s.pwr.busyAt + s.rd F.PWR_CFG_IDLE_MS * 1000000 ≤ s.el

/-! ### Doze and Nap (18 R395, R399; 13 R307; 15 R344) -/

/-- Applies a change to every hop of every link in a state. -/
def State.hopsIn (s : State) (sts : List Nat) (f : State → Nat → Nat → State) : State :=
  (List.range 64).foldl (fun (s : State) l =>
    (List.range 4).foldl (fun (s : State) h => if sts.contains (s.hopSt l h) then f s l h else s) s) s

/-- A hop goes QUIET in both directions. -/
def State.hopQuiet (s : State) (l h : Nat) : State :=
  let p := s.hop l h
  let q := fun (x : LDir) => { x with quiet := true, keepAt := s.el, seenAt := s.el }
  (s.putHop l h { p with dn := q p.dn, up := q p.up }).setHop l h hQuiet

/-- A quiet hop becomes ACTIVE again, with a burst in both directions (08 R189). -/
def State.hopBack (s : State) (l h : Nat) : State := (s.burst l h false true).burst l h true true

/-- The sub-ports in Nap: those of a port in wake mode 2 that are up listen for a wake frame, the others go off (13 R307). -/
def State.napPorts (s : State) : State :=
  (List.range 8).foldl (fun (s : State) p =>
    (List.range (s.subCount p)).foldl (fun (s : State) u =>
      if s.rd F.ETH_WAKE_CFG_MODE p = 2 && s.link p u = lkUp then s.setLink p u lkWake else s.phyOff p u) s) s

/-- The wake modes of the ports take effect at a low-power entry (13 R307). -/
def State.latchModes (s : State) : State :=
  { s with pwr := { s.pwr with modes := (List.range 8).map (fun p => s.rd F.ETH_WAKE_CFG_MODE p) } }

/-- Enters Doze or Nap, from Run or Nap from Doze; DRAM completes every queued request first (15 R344). -/
def State.rest (s : State) (st : Nat) : State :=
  let s := s.drcDrain.latchModes
  let mv := if s.awake then s.rd F.PUP_VREG_TARGET_MV else s.pup.runMv
  let s := { s with drc := { s.drc with sref := true }, pup := { s.pup with runMv := mv, waitMv := 0, paceOkAt := none } }
  let s := ((s.wr F.PWR_STS_STATE st).inc F.PWR_ENTRY_CNT_CNT (st - 1)).wr F.PWR_STEP_FLOOR 300
  if st = pwDoze then s.hopsIn [hActive] State.hopQuiet
  else (s.hopsIn [hActive, hQuiet, hRecover] State.hopDown).napPorts

/-- Records what left a state (18 R404). -/
def State.wakeRecord (s : State) (code idx rsn st ns : Nat) : State :=
  ((((s.wr F.PWR_WAKE_SRC_CODE code).wr F.PWR_WAKE_SRC_INDEX idx).wr F.PWR_WAKE_SRC_FROM st).wr F.PWR_WAKE_SRC_REASON rsn).wr
    F.PWR_WAKE_TIME_TIME ns

/-- Hops that Nap took down train again: hop 0 of each link, and those below it as the chain is enumerated (08 R190; 18 R400). -/
def State.trainDown (s : State) : State :=
  s.hopsIn [hDown] (fun s l h => if h = 0 && s.rd F.KZL_CTL_EN l = 1 then s.setHop l h hReset else s)

/-- Leaves Doze or Nap (18 R399): the last Run voltage plus 15 mV in one command, DRAM out of self-refresh, the hops back with a
burst, or after Nap to training. The voltage loop waits until the regulator reports what was asked for. -/
def State.unrest (s : State) : State :=
  let nap := s.rd F.PWR_STS_STATE = pwNap
  let s := { s with drc := { s.drc with sref := false }, pwr := { s.pwr with busyAt := s.el } }
  let s := (s.setMv (s.pup.runMv + 15)).hopsIn [hQuiet] State.hopBack
  let s := { s with pup := { s.pup with waitMv := s.rd F.PUP_VREG_TARGET_MV } }
  let s := if nap then s.trainDown else s
  (s.wr F.PWR_STS_STATE 0).lean.settleStep

/-- The stop instant, in any power state; in Nap the flush bank's hops train first (06 R159; 18 R400). -/
def State.stopNow (s : State) : State := (if s.rd F.PWR_STS_STATE = pwNap then s.trainDown else s).stopFlush

/-- Whether a wake source leaves a state (18 R404; 13 R307). Work is a command, a CXL.mem access or a datagram for a stream; the timer wakes for
patrol that is late. -/
def State.leaves (s : State) (code idx st : Nat) : Bool :=
  let mode := s.pwr.modes.getD idx 0
  if code = 1 then (st = pwNap && mode = 1) || (st = pwJack && (mode = 1 || mode = 2))
  else if code = 2 then st = pwDoze || (st = pwNap && mode = 2)
  else if code = 3 || code = 4 then (st = pwNap || st = pwJack) && s.rd F.PWR_WAKE_EN_PCIE = 1
  else if code = 5 then (st = pwNap || st = pwJack) && s.rd F.PWR_WAKE_EN_SMB = 1
  else if code = 6 then bit (s.rd F.PWR_WAKE_EN_TS) idx
  else (code = 7 || (code = 8 && s.patrolLate)) && (st = pwDoze || st = pwNap)

/-- A wake source in Doze or Nap, which it leaves if it may. Where it is a frame in Doze, peers are paused until Run is reached, when PFC_REFRESH
lets them go on (13 R307). -/
def State.wakeUp (s : State) (code idx rsn : Nat) (frame : Bool := false) : State :=
  let st := s.rd F.PWR_STS_STATE
  if (st = pwDoze || st = pwNap) && s.leaves code idx st then
    let s := if frame && st = pwDoze then s.pauseAll else s
    ((s.wakeRecord code idx rsn st s.tns).edge 18 code).unrest
  else s

/-- Work reaches the controller: it leaves Doze or Nap, and the controller is not idle (18 R396, R404). -/
def State.work (s : State) : State :=
  let s := s.wakeUp 7 0 0
  { s with pwr := { s.pwr with busyAt := s.el } }

/-- A frame for the controller wakes it from Doze, as work (13 R307; log 99). -/
def State.frameWake (s : State) : State := if s.rd F.PWR_STS_STATE = pwDoze then s.wakeUp 7 0 0 true else s

/-- A lowered tolerance returns the controller to Run (18 R414). -/
def State.tolCheck (s : State) : State :=
  let st := s.rd F.PWR_STS_STATE
  let ok : Bool := match s.tol with
    | some t => exitNs st ≤ t
    | none => true
  if (st = pwDoze || st = pwNap) && !ok then s.unrest else s

/-! ### The persistent CXL window's image (06 R160) -/

/-- Bursts of a 64 KiB granule. -/
def granBursts : Nat := 1024

/-- Whether a burst's number lies in a granule. -/
def inGran (g b : Nat) : Bool := g * granBursts ≤ b && b < (g + 1) * granBursts

/-- Writes a granule to the system-area image. -/
def State.saveGranule (s : State) (g : Nat) : State :=
  let img := s.pcx.img.filter (fun e => e.1 < g * granBursts) ++ s.pcx.win.filter (fun e => inGran g e.1)
    ++ s.pcx.img.filter (fun e => (g + 1) * granBursts ≤ e.1)
  { s with pcx := { s.pcx with img := img, wb := s.pcx.wb.filter (fun x => x != g) }, stg := { s.stg with dirty := s.stg.dirty.filter (fun x => x != g) } }

/-! ### Jack (18 R401) -/

/-- Steps 1 and 2: admission closes; checkpoint, corrections and granules. -/
def State.jackSave (s : State) : State :=
  let s := ({ s with stg := { s.stg with commits := false } }).ckptStart
  let s := (s.dirtyLines.filter (fun l => !l.wb)).foldl State.writeLine s
  let s := { s with die := { s.die with corrSaved := s.die.corr } }
  s.stg.dirty.foldl State.saveGranule s

/-- Step 3: the flush image of a Jack, and the recorder (06 R159). -/
def State.jackImage (s : State) : State :=
  let s := s.startImage
  let s := { s with stg := { s.stg with image := s.stg.image.map (fun (i : FlushImg) => i.finish [] []) } }
  let s := { s with evr := { s.evr with nand := (RecCopy.mk s.tns 2 s.evr.recs :: s.evr.nand).take 4 } }
  { s with tim := { s.tim with saved := some s.tns, jackNs := s.tns } }

/-- Steps 4 and 5: DREQ on every RC QP, links down, VDD_CORE off, WAKE_N released. -/
def State.jackOff (s : State) : State :=
  let s := s.net.qps.foldl (fun (s : State) e => s.send (.net e.2.port e.2.sub "DREQ" [e.1])) s
  let s := s.physOff.latchModes.send (.pmbus 0x01 0)
  let s := ((s.inc F.PWR_ENTRY_CNT_CNT 3).send (.pin "WAKE_N" 1)).faultFree
  { s with img := { s.img with admReady := false }, pwr := { s.pwr with jack := true, wakeN := true, wake := none } }

end Sys2Proof.Machine
end

