-- ==== Sys2Proof/Machine/Capture.lean ====
section
/-! DEFINITION. The meanings of the capture commands: Capture Stream Management, datagrams and messages, stalls, commits,
index blocks and Frame Read (05). -/

namespace Sys2Proof.Machine

/-! ### The stream descriptor (05 R111, R112) -/

/-- The fields of the stream descriptor (05 R111). -/
def streamFields : List DField :=
  [⟨0, 4⟩, ⟨4, 4⟩, ⟨8, 4⟩, ⟨12, 4⟩, ⟨16, 4⟩, ⟨20, 4⟩, ⟨24, 1⟩, ⟨25, 1⟩, ⟨26, 1⟩, ⟨27, 1⟩, ⟨28, 2⟩, ⟨32, 4⟩, ⟨36, 2⟩, ⟨40, 8⟩, ⟨48, 1⟩,
   ⟨50, 2⟩, ⟨52, 2⟩, ⟨56, 4⟩, ⟨64, 16⟩]

/-- Whether two ranges share a number. -/
def meet (a n b m : Nat) : Bool := a < b + m && b < a + n

/-- Whether a range of zones of a namespace is free of the ranges of other streams (05 R112). -/
def State.rangeFree (s : State) (k nsid a n : Nat) : Bool :=
  s.cap.streams.all (fun e => e.1 = k || e.2.nsid != nsid || !(meet a n e.2.dFirst e.2.dCount || meet a n e.2.iFirst e.2.iCount))

/-- Whether a stream's program is allowed by its namespace's cipher setting (12 R282). -/
def cipherOk (setting cmode : Nat) : Bool := cmode = 0 || (setting = 2 && cmode = 1)

/-- Whether an RC QP may serve a stream of a slice: established, not in Error, carrying no queue, and of the slice or, while of
none, within its allocation (05 R111, 02 R37, log 35). -/
def State.qpOk (s : State) (slice qp : Nat) : Bool :=
  match s.qp qp with
  | some x => !x.err && x.queue.isNone && x.stream.isNone && (x.slice = some slice ||
      (x.slice.isNone && s.rd F.SLI_RES_USE_RCQP slice < s.rd F.SLI_RES_RCQP slice))
  | none => false

/-- The fields of a Create's descriptor that are at fault whatever its namespace, by offset (05 R111, R112). -/
def State.streamFaults (s : State) (k : Nat) (d : List Nat) : List (Nat × Bool) :=
  let rdma := bit (leAt d 0 4) 0
  let w := leAt d 24 1
  let lim := if leAt d 36 2 = 0 then 1024 else leAt d 36 2
  [(0, leAt d 0 4 > 15), (12, leAt d 12 4 = 0 || leAt d 12 4 % max w 1 != 0), (20, leAt d 20 4 = 0), (24, w = 0 || w > 64),
   (28, leAt d 28 2 > 1000), (32, leAt d 32 4 < 4 || leAt d 32 4 > 524288),
   (36, lim < 64 || lim > 4096 || ((s.cap.streams.filter (fun e => e.1 != k)).map (fun e => e.2.limit)).sum + lim > 8192),
   (40, leAt d 40 8 = 0),
   (48, !rdma && s.cap.streams.any (fun e => e.1 != k && !e.2.rdma && Nat.land e.2.ports (leAt d 48 1) != 0
      && e.2.udp = leAt d 50 2 && e.2.sid = leAt d 52 2))]

/-- The fields that are at fault in a namespace. -/
def State.streamNsFaults (s : State) (k : Nat) (d : List Nat) (n : Ns) : List (Nat × Bool) :=
  let nsid := leAt d 4 4
  let dg := leAt d 25 1
  [(4, !n.zoned || n.cipher = 1),
   (8, leAt d 8 4 + leAt d 12 4 > n.zones || !s.rangeFree k nsid (leAt d 8 4) (leAt d 12 4)),
   (16, leAt d 16 4 + leAt d 20 4 > n.zones || !s.rangeFree k nsid (leAt d 16 4) (leAt d 20 4)
      || meet (leAt d 8 4) (leAt d 12 4) (leAt d 16 4) (leAt d 20 4)),
   (25, !s.hintOk n.slice dg || !(s.rdn.groups.any (fun e => e.1 = dg && (e.2.k = 4 || e.2.k = 8 || e.2.k = 16)))),
   (26, leAt d 26 1 > 7 || !bit (s.rd F.SLI_WEIGHT_LCMASK n.slice) (leAt d 26 1)),
   (27, match Tab.find (leAt d 27 1) s.cap.progs with
      | none => true
      | some p => !cipherOk n.cipher p.cmode),
   (56, bit (leAt d 0 4) 0 && !s.qpOk n.slice (cut 24 (leAt d 56 4)))]

/-- The lowest of a list of offsets. -/
def firstOff (l : List Nat) : Option Nat := l.foldl (fun (a : Option Nat) x => match a with
  | none => some x
  | some y => some (min x y)) none

/-- The offset of the first field of a Create's descriptor at fault, or of a reserved byte that is not 0 (05 R111, R112). -/
def State.streamFault (s : State) (k : Nat) (d : List Nat) : Option Nat :=
  let ns := match Tab.find (leAt d 4 4) s.zn.ns with
    | none => [(4, true)]
    | some n => s.streamNsFaults k d n
  firstOff ((badByte streamFields (d.take 512)).toList ++ ((s.streamFaults k d ++ ns).filter (fun e => e.2)).map (fun e => e.1))

/-- A stream as a Create makes it. -/
def mkStream (d : List Nat) (slice : Nat) (p : LaneProg) : Stream :=
  let fl := leAt d 0 4
  { state := stIdle, blk := 0, slice := slice, rdma := bit fl 0, drop := bit fl 1, direct := bit fl 2, notices := bit fl 3,
    nsid := leAt d 4 4, dFirst := leAt d 8 4, dCount := leAt d 12 4, iFirst := leAt d 16 4, iCount := leAt d 20 4, w := leAt d 24 1,
    dg := leAt d 25 1, lc := leAt d 26 1, cur := p, stall := leAt d 28 2, maxKib := leAt d 32 4, reorder := leAt d 36 2,
    mask := leAt d 40 8, ports := leAt d 48 1, udp := leAt d 50 2, sid := leAt d 52 2, qp := cut 24 (leAt d 56 4),
    filter := beVal ((d.drop 64).take 16), set := none, setNo := 0, log := 0, voids := [], iz := none, izNo := 0, recs := [],
    f := 0, closed := [], high := 0, frames := [], last := 0, cnt := List.replicate 12 0, desc := d.take 512, era := 0, stop := none,
    rx := [], rxAt := none }

/-- Who may act on a stream of a slice: slice 0, or the admin queue of a function bound to it (05 R110). -/
def State.mayCap (s : State) (o : Org) (slice : Option Nat) : Bool :=
  isMgr o || (match o, slice with
    | .fn f, some n => s.sl.fbind.any (fun b => b.func = f && b.slice = n)
    | _, _ => false)

/-- The checks that every action but Create shares (05 R110): the sender, then the stream's state. -/
def State.capChk (s : State) (o : Org) (k : Nat) (allowed : List Nat) : Option (Nat × Nat) :=
  if k ≥ 256 then some stField
  else if !s.mayCap o ((s.stream k).map (·.slice)) then some stField
  else
    match s.stream k with
    | none => some stSeq
    | some x => if allowed.contains x.state then none else some stSeq

/-! ### Meanings of Capture Stream Management -/

/-- CAPTURE_STREAM_CREATE (05 R110-R113): `act` is CDW10[7:0], which is 0x01; a code that the table of R110 does not list fails, and one that
it lists for another action is that action's row (log 89). -/
def execCaptureStreamCreate (o : Org) (cid act k : Nat) (desc : List Nat) (s : State) : Res :=
  .next (if 2 ≤ act && act ≤ 5 then s else s.admin o cid (fun s =>
      let ns := Tab.find (leAt desc 4 4) s.zn.ns
      if act != 1 || k ≥ 256 || !s.mayCap o (ns.map (·.slice)) then s.adm o cid stField
      else if (s.stream k).isSome then s.adm o cid stSeq
      else
        match s.streamFault k desc, ns, Tab.find (leAt desc 27 1) s.cap.progs with
        | some b, _, _ => s.adm o cid stField b
        | none, some n, some p =>
          let x := mkStream desc n.slice p
          let s := s.putStream k x
          let s := match s.qp x.qp with
            | some q =>
              if x.rdma then
                let s := if q.slice.isNone then s.addw F.SLI_RES_USE_RCQP 1 n.slice else s
                s.putQp x.qp { q with slice := some n.slice, stream := some k }
              else s
            | none => s
          s.adm o cid stOk
        | none, _, _ => s.adm o cid stField))

/-- The offset of the first byte that a Modify does not repeat: all but the fields marked M (05 R111). -/
def modifyFault (old new : List Nat) : Option Nat :=
  (List.range 512).find? (fun i =>
    let a := cut 8 (old.getD i 0)
    let b := cut 8 (new.getD i 0)
    if i = 0 then a % 2 + 4 * (a / 4) != b % 2 + 4 * (b / 4)
    else if i = 27 || i = 28 || i = 29 || (40 ≤ i && i < 48) then false
    else a != b)

/-- The fields of a Modify at fault: what it does not repeat, and the fields it may change (05 R111, R112; 12 R282). -/
def State.modFault (s : State) (x : Stream) (desc : List Nat) : Option Nat :=
  let setting := ((Tab.find x.nsid s.zn.ns).map (·.cipher)).getD 0
  let m : List (Nat × Bool) := [(27, match Tab.find (leAt desc 27 1) s.cap.progs with
      | none => true
      | some p => !cipherOk setting p.cmode), (28, leAt desc 28 2 > 1000), (40, leAt desc 40 8 = 0)]
  firstOff ((modifyFault x.desc desc).toList ++ (m.filter (fun e => e.2)).map (fun e => e.1))

/-- CAPTURE_STREAM_MODIFY (05 R110-R112, R140): a change of program fails while a lane of the stream still holds an older bank in use. -/
def execCaptureStreamModify (o : Org) (cid k : Nat) (desc : List Nat) (s : State) : Res :=
  .next (s.admin o cid (fun s =>
    match s.capChk o k [stIdle, stRun, stStall, stBlock], s.stream k with
      | some st, _ => s.adm o cid st
      | none, none => s.adm o cid stSeq
      | none, some x =>
        match s.modFault x desc, Tab.find (leAt desc 27 1) s.cap.progs with
        | some b, _ => s.adm o cid stField b
        | none, none => s.adm o cid stField 27
        | none, some p =>
          if p.id != x.cur.id && (List.range 64).any (fun l => bit (Nat.lor x.mask (leAt desc 40 8)) l && s.laneOld l) then s.adm o cid stSeq
          else
            let s := s.putStream k { x with drop := bit (leAt desc 0 4) 1, stall := leAt desc 28 2, mask := leAt desc 40 8, cur := p, desc := desc.take 512 }
            let s := if p = x.cur then s else (List.range 64).foldl (fun (s : State) l =>
              if bit (leAt desc 40 8) l then (s.wr F.FRL_LSTS_BANK (1 - s.rd F.FRL_LSTS_BANK l) l).wr F.FRL_LSTS_EPOCH p.epoch l else s) s
            s.adm o cid stOk))

/-- CAPTURE_STREAM_START (05 R113, R114, R118, R124): the held zones open again, or the first set and index zone are opened;
the completion of an RDMA stream carries the remote key of its buffer, a free value (log 36). -/
def execCaptureStreamStart (o : Org) (cid k : Nat) (s : State) : Res :=
  .next (s.admin o cid (fun s =>
    match s.capChk o k [stIdle], s.stream k with
      | some st, _ => s.adm o cid st
      | none, none => s.adm o cid stSeq
      | none, some x =>
        let s := s.putStream k { x with state := stRun, blk := 0, last := s.el }
        let s := match x.set with
          | some i => (s.setZones x i).foldl (fun (s : State) h => if s.zst h = znClosed then s.setZst h znImp else s) s
          | none => s.openSet k
        let s := match x.iz with
          | some z => let h := s.sZone x (x.iFirst + z); if s.zst h = znClosed then s.setZst h znImp else s
          | none => s.openIdx k
        if x.rdma then (s.draw).adm o cid stOk (cut 32 (s.drawn 36)) else s.adm o cid stOk))

/-- CAPTURE_STREAM_STOP (05 R114): frames in assembly close under the partial policy and commit; when none is left, the held zones become
Closed and the command completes. A second Stop meanwhile fails. -/
def execCaptureStreamStop (o : Org) (cid k : Nat) (s : State) : Res :=
  .next (s.admin o cid (fun s =>
    match s.capChk o k [stRun, stStall, stBlock], s.stream k with
      | some st, _ => s.adm o cid st
      | none, none => s.adm o cid stSeq
      | none, some x =>
        if x.stop.isSome then s.adm o cid stSeq
        else (((s.putStream k { x with stop := some (o, cid) }).dropMsg k).closeAll k).goOn k))

/-- CAPTURE_STREAM_DELETE (05 R114): finishes the zones it holds; index records not yet written are written first. -/
def execCaptureStreamDelete (o : Org) (cid k : Nat) (s : State) : Res :=
  .next (s.admin o cid (fun s =>
    match s.capChk o k [stIdle] with
      | some st => s.adm o cid st
      | none =>
        let s := s.writeAllIdx k
        match s.stream k with
        | none => s.adm o cid stOk
        | some x =>
          let hs := ((x.set.map (s.setZones x)).getD []) ++ ((x.iz.map (fun z => [s.sZone x (x.iFirst + z)])).getD [])
          let s := hs.foldl (fun (s : State) h => (if isActive (s.zst h) then s.becomeFull h else s).holdBy h none) s
          let s := { s with cap := { s.cap with streams := Tab.del k s.cap.streams } }
          let s := match s.qp x.qp with
            | some q => if q.stream = some k then s.putQp x.qp { q with stream := none } else s
            | none => s
          s.adm o cid stOk))

/-! ### Datagrams and messages -/

/-- Whether a piece overlaps what a frame has. -/
def Frame.overlaps (f : Frame) (off n : Nat) : Bool := f.got.any (fun e => meet off n e.1 e.2.length)

/-- The IFT header of a datagram's first 32 bytes, big-endian (05 R116). -/
def iftHdr (b : List Nat) : IftHdr :=
  let at0 := fun (o n : Nat) => beVal ((b.drop o).take n)
  let fl := at0 1 1
  { ver := at0 0 1 / 16, ty := at0 0 1 % 16, first := bit fl 0, last := bit fl 1, srcts := bit fl 2, restart := bit fl 3
    rsv := fl / 16 != 0 || at0 22 2 != 0, sid := at0 2 2, frame := at0 4 8, flen := at0 12 4, off := at0 16 4, head := at0 20 2, src := at0 24 8 }

/-- The payload of a datagram: UDP length less 8 less 32 bytes after the header (05 R116). -/
def iftData (ulen : Nat) (b : List Nat) : List Nat := (b.drop 32).take (ulen - 8 - 32)

/-- A frame on the arrival of its first datagram (05 R120). -/
def State.newFrame (s : State) (x : Stream) (h : IftHdr) (resync : Bool) (t : RxStamp) : Frame :=
  ⟨h.frame, h.flen, h.head, if h.srcts then some h.src else none, h.restart, resync, s.holdover, t.ns, t.frac, t.el, [], t.el,
    none, false, x.cur, 0, false, x.era, 0, []⟩

/-- Counts a discard of stream `k`. -/
def State.discard (s : State) (k i : Nat) : State :=
  match s.stream k with
  | some x => s.putStream k (x.count i)
  | none => s

/-- Puts a piece of a frame into a stream, as a new frame where it is the first. -/
def Stream.piece (x : Stream) (f : Frame) (off : Nat) (d : List Nat) (t : RxStamp) : Stream :=
  let g := { f.add off d with last := t.el }
  if (x.frame f.key).isNone then { x with frames := x.frames ++ [g] } else x.putFrame g

/-- Accepts a piece: the first of a frame carries the frame's command charge (05 R129; 03 R76). -/
def State.accept (s : State) (k : Nat) (x : Stream) (f : Frame) (off : Nat) (d : List Nat) (t : RxStamp) : State :=
  let s := if (x.frame f.key).isNone then s.charge x.slice none (s.sl.cfg.getD 3 4) else s
  (s.putStream k (x.piece f off d t)).place k

/-- Takes the bytes of a datagram into a stream that accepts it (05 R117, R122, R125, R128). -/
def State.takeData (s : State) (k : Nat) (h : IftHdr) (d : List Nat) (t : RxStamp) : State :=
  match s.stream k with
  | none => s
  | some x0 =>
    let res : Bool := h.frame ≥ x0.f + 1024 || (h.restart && h.first)
    let s := if res then s.closeAll k else s
    match s.stream k with
    | none => s
    | some x1 =>
      let x := if res then { x1.count 10 with f := h.frame, closed := [], era := x1.era + 1 } else x1
      let s := s.putStream k x
      if h.frame < x.f || x.closed.contains h.frame then s.discard k 3
      else
        let f := (x.frame (x.keyOf h.frame)).getD (s.newFrame x h res t)
        if f.flen != h.flen then s.discard k 5
        else if f.overlaps h.off d.length then s.discard k 4
        else if (x.piece f h.off d t).waiting ≤ x.limit * 1024 then s.accept k x f h.off d t
        else
          match x.open1 with
          | none => s.discard k 7
          | some ow =>
            if ow.key < f.key && ow.have < ow.flen then
              -- later frames fill the space: the owner closes early
              let s := (s.closePart k ow.key true).goOn k
              match s.stream k with
              | none => s
              | some z => if (z.piece f h.off d t).waiting ≤ z.limit * 1024 then s.accept k z f h.off d t else s.discard k 7
            else s.discard k 7

/-- Deducts a frame's or datagram's bytes from the buckets of 03 R79, before compression (05 R129). -/
def State.ingest (s : State) (n bytes : Nat) : State :=
  let x := s.sx n
  let s := s.putSx n { x with inBytes := x.inBytes + bytes, bIn := x.bIn - bytes, hadWork := true }
  { s with sl := { s.sl with devBucket := s.sl.devBucket - bytes } }

/-- An arrival for a stream (05 R113): STALLED becomes RUNNING. -/
def State.arrive (s : State) (k : Nat) : State :=
  match s.stream k with
  | none => s
  | some x =>
    let s := s.putStream k { x with last := s.el }
    if x.state = stStall then s.setStream k stRun 0 else s

/-- Whether a slice's ingest is open: its bucket and the device's are above zero (03 R79; 01 R30). -/
def State.ingestOpen (s : State) (n : Nat) : Bool := s.sl.devBucket > 0 && (s.rd F.SLI_BW_INGRESS n = 0 || (s.sx n).bIn > 0)

/-- Keeps an arrival in the receive buffer of its sub-port, or drops it where the buffer is full (01 R23). -/
def State.bufferRx (s : State) (p u : Nat) (i : RxItem) : State :=
  if s.rxFull p u i.bytes then s.inc F.ETH_RX_OVF_CNT p u else { s with cap := { s.cap with rx := s.cap.rx ++ [i] } }

/-- A stamp of now. -/
def State.rxNow (s : State) : RxStamp := ⟨s.tns, s.frac, s.el⟩

/-- Takes a datagram out of the receive buffer, or keeps it there while ingest is closed (05 R115-R128, R141; 01 R30). -/
def State.takeDgram (s : State) (p u ip vlan udp src ulen : Nat) (b : List Nat) (t : RxStamp) : State :=
  if !s.fabricOn then s.inc F.FRL_UNMATCHED_CNT
  else
    let b := b.map (cut 8)
    let h := iftHdr b
    let d := iftData ulen b
    match s.cap.streams.find? (fun e => !e.2.rdma && bit e.2.ports p && e.2.udp = udp && e.2.sid = h.sid
        && (e.2.filter = 0 || e.2.filter = src)) with
    | none =>
      if s.cap.streams.any (fun e => !e.2.rdma && bit e.2.ports p && e.2.udp = udp) then s.inc F.FRL_UNMATCHED_CNT
      else s.dropRx p u drOther
    | some (k, x) =>
      if h.ver != 1 || h.ty != 0 || h.rsv then s.discard k 5
      else if d.isEmpty || h.off + d.length > h.flen then s.discard k 5
      else if h.flen > x.maxKib * 1024 then s.discard k 6
      else if x.state = stIdle || x.stop.isSome then s.discard k 8
      else if s.slState x.slice = slFenced then (s.setStream k stBlock bkFence).discard k 9
      else if x.state = stBlock then s.discard k 9
      else if !s.stg.commits || s.rd F.MED_PF_STS_PHASE != 0 then s
      else if !s.ingestOpen x.slice then s.bufferRx p u (.dgram p u ip vlan udp src ulen b t)
      else ((s.ingest x.slice d.length).arrive k).takeData k h d t

/-- A frame for the controller passes its sub-port, and wakes it from Doze (13 R301, R307). -/
def State.rxIn (s : State) (p u dst ip vlan : Nat) (bytes : Nat := 1) (arp : Bool := false) : State × Bool :=
  let a := s.rxOk p u dst ip vlan bytes arp
  if a.2 then (a.1.frameWake, true) else a

/-- A packet on a QP, which wakes the controller from Doze as every frame does (13 R303, R307). -/
def State.qpIn (s : State) (n : Nat) (f : Qp → State → State) : State := s.onQp n (fun x s => f x s.frameWake)

/-- A datagram arrives (05 R115-R128, R141; 13 R301, R305; 01 R23): on sub-port `u` of port `p`, to MAC address `dst`, IP address `ip` and VLAN `vlan`, UDP port `udp`,
from `src`, with its UDP length and the bytes after the UDP header. -/
def State.dgramIn (s : State) (p u dst ip vlan udp src ulen : Nat) (b : List Nat) : State :=
  let a := s.rxIn p u dst ip vlan ulen
  if !a.2 then a.1 else a.1.takeDgram p u ip vlan udp src ulen b a.1.rxNow

/-- The frame number of a message (05 R118): its upper half is the one that puts it nearest above the highest closed. -/
def frameNo (high imm : Nat) : Nat :=
  let base := high / 2 ^ 32 * 2 ^ 32 + cut 32 imm
  if base > high then base else base + 2 ^ 32

/-- The header that a whole message stands for: one piece that is the frame (05 R118). -/
def msgHdr (v : Stream) (imm len : Nat) : IftHdr := ⟨1, 0, true, true, false, false, false, 0, frameNo v.high imm, len, 0, 0, 0⟩

/-- Takes packets of a message: they are kept while more follow; the last one ends it, with its immediate (05 R118-R120). -/
def State.takeMsg (s : State) (qp addr : Nat) (imm : Option Nat) (more : Bool) (d : List Nat) (t : RxStamp) : State :=
  match s.qp qp with
  | none => s
  | some q =>
    match q.stream.bind (fun k => (s.stream k).map (fun v => (k, v))) with
    | none => s
    | some (k, v) =>
      let all := v.rx ++ d.map (cut 8)
      let wipe := fun (s : State) => match s.stream k with
        | some v => s.putStream k { v with rx := [], rxAt := none }
        | none => s
      if (v.rxAt.isNone && addr != 0) || all.length > v.maxKib * 1024 then (wipe s).discard k 5
      else if v.state = stIdle || v.stop.isSome then (wipe s).discard k 8
      else if s.slState v.slice = slFenced then (wipe (s.setStream k stBlock bkFence)).discard k 9
      else if v.state = stBlock then (wipe s).discard k 9
      else if !s.stg.commits || s.rd F.MED_PF_STS_PHASE != 0 then s
      else if !s.ingestOpen v.slice then s.bufferRx q.port q.sub (.msg qp addr imm more d t)
      else
        let first := (v.rxAt.map (fun (e : Nat × Nat × Nat × Nat) => RxStamp.mk e.1 e.2.1 e.2.2.1)).getD t
        let s := (s.ingest v.slice d.length).arrive k
        if more then
          match s.stream k with
          | some v => s.putStream k { v with rx := all, rxAt := some (first.ns, first.frac, first.el, t.el) }
          | none => s
        else
          let s := wipe s
          match imm with
          | none => s.discard k 5
          | some i => if all.isEmpty then s.discard k 5 else s.takeData k (msgHdr v i all.length) all first

/-- RDMA_WRITE_WITH_IMMEDIATE (05 R118, R120, R129; 01 R23): packets of a message to QP `qp`, at address `addr` of the buffer: `more` tells that
the message goes on, else `imm` is its immediate where it has one. -/
def execRdmaWriteWithImmediate (qp addr : Nat) (imm : Option Nat) (more : Bool) (d : List Nat) (s : State) : Res :=
  .next (s.qpIn qp (fun x s =>
    if x.err || x.stream.isNone then s
    else if s.rxFull x.port x.sub d.length then s.inc F.ETH_RX_OVF_CNT x.port x.sub
    else s.takeMsg qp addr imm more d s.rxNow))

/-- Takes what waits in the receive buffers, oldest first, as far as ingest is open again (03 R79). -/
def State.drainRx (s : State) : State :=
  let l := s.cap.rx
  l.foldl (fun (s : State) i => match i with
    | .dgram p u ip vlan udp src ulen b t => s.takeDgram p u ip vlan udp src ulen b t
    | .msg qp addr imm more d t => s.takeMsg qp addr imm more d t) { s with cap := { s.cap with rx := [] } }

/-- What a ledger epoch does to capture: BLOCKED streams whose cause has cleared return to RUNNING, what waited for a budget goes on (05 R113;
03 R79; 06 R150). -/
def State.captureEpoch (s : State) : State :=
  (s.cap.streams.map (·.1)).foldl (fun (s : State) k => (s.unblock k).goOn k) s.drainRx

/-- STALL_TIMEOUT (05 R113, R119, R125): a frame with no datagram for the stall timeout closes under the partial policy; a stream
with no arrival for it becomes STALLED. -/
def execStallTimeout (k : Nat) (s : State) : Res :=
  .next (match s.stream k with
    | none => s
    | some x =>
      let late : Bool := match x.rxAt with
        | some e => e.2.2.2 + x.stallNs ≤ s.el
        | none => false
      let s := if late then s.dropMsg k else s
      let s := (x.frames.filter (fun f => f.close.isNone && f.have < f.flen && f.last + x.stallNs ≤ s.el)).foldl
        (fun (s : State) f => (s.closePart k f.key false).place k) s
      match s.stream k with
      | some y => if y.state = stRun && y.last + y.stallNs ≤ s.el then s.setStream k stStall 0 else s
      | none => s)

/-- FRAME_COMMIT (05 R125, R126; 06 R144): the lanes have put what a stream's oldest frame gave them into staging: the frame closes and commits if
all of it is through, else its next blocks pass. -/
def execFrameCommit (k : Nat) (s : State) : Res := .next (((s.place k).commitFrame k).stopEnd k)

/-- INDEX_BLOCK_WRITE (05 R138): when 32 records are gathered or the interval since the first has passed. -/
def execIndexBlockWrite (k : Nat) (s : State) : Res :=
  .next (match s.stream k with
    | none => s
    | some x =>
      if x.recs.length ≥ 32 || x.recs.any (fun r => r.1 + x.cur.idxMs * 1000000 ≤ s.el) then s.writeIdx k else s)

/-! ### Frame Read (05 R139) -/

/-- The bytes of a block. -/
def blkBytes (v : Nat) : List Nat := toLe 4096 v

/-- The blocks of a stored extent: zone handle and offset of each (05 R121). -/
def extentOf (base w set1 log slen : Nat) : List (Nat × Nat) :=
  (List.range (ceilDiv slen 4096)).map (fun i =>
    let p := logPlace w (log + i * 4096)
    (base + set1 + p.1, p.2 / 4096))

/-- What a Frame Read of a record answers, from the data as it stands: status, raw length and bytes. -/
def State.frameResult (s : State) (n : Ns) (nsid : Nat) (r : List Nat) (blen : Nat) : (Nat × Nat) × Nat × List Nat :=
  let flags := leAt r 18 2
  let raw := leAt r 52 4
  let slen := leAt r 48 4
  let zs := leAt r 32 8
  let log := leAt r 40 8
  let ext := extentOf n.base (leAt r 82 1) (zs / zoneBlocks) log slen
  let bytes := ((ext.map (fun e => blkBytes (s.getUd (udZone e.1 e.2)))).flatten).take slen
  let resets := s.rd F.ZON_ENT7_RESETS (n.base + zs / zoneBlocks)
  if flags % 2 = 0 || leAt r 124 4 != crc32c (r.take 124) || raw > blen * 4096 then (stField, 0, [])
  else if bit flags 2 && gcmTag (keyOf n.slice nsid (leAt r 84 4) 2) (gcmIv resets zs log) (r.take 64) bytes != (r.drop 64).take 16 then ((2, 0x81), 0, [])
  else
    match s.cap.store.find? (fun x => x.nsid = nsid && x.zslba = zs && x.log = log && x.stored = bytes && (!bit flags 2 || x.resets = resets)) with
    | none => ((2, 0x81), 0, [])
    | some x =>
      if crc32c x.raw != leAt r 60 4 then ((2, 0x81), 0, [])
      else (if leAt r 20 1 = 0xC6 then stTrunc else stOk, raw, x.raw)

/-- FRAME_READ (05 R139; 12 R286, R289): `blen` is the buffer's length in 4 KiB units. -/
def execFrameRead (q cid nsid lba slot blen : Nat) (lr : Bool) (addr : Nat) (s : State) : Res :=
  .next (if s.egWait q then s else match s.beginZone q cid .frameRead nsid lba 1 lr 0 with
    | .stop s => s
    | .go s c qx n =>
      let d := s.dma qx addr (blen * 4096) true
      if d.2 != .ok then d.1.dmaEnd c.slice d.2 (fun s => s.fin c stXfer)
      else
        let s := d.1
        let idx := s.srcOf n nsid lba
        let r := ((blkBytes idx.2).drop (cut 5 slot * 128)).take 128
        let ans := s.frameResult n nsid r blen
        let bad : Bool := ans.1 = stField
        let ext := if bad then [] else extentOf n.base (leAt r 82 1) (leAt r 32 8 / zoneBlocks) (leAt r 40 8) (leAt r 48 4)
        let k := if !bad && bit (leAt r 18 2) 2 then s.keyReq n.slice nsid (leAt r 84 4) 2 else (s, KeyAns.ready)
        match k.2 with
        | .no => k.1.fin c stKey
        | .wait => k.1.putCmd { c with st := .fetched }
        | .ready =>
          let srcs := idx.1 :: ext.map (fun e => (k.1.srcOf n nsid ((e.1 - n.base) * zoneBlocks + e.2)).1)
          k.1.issueRead { c with data := ans.2.2, srcs := srcs, st := .media, fua := bit (leAt r 18 2) 2, hint := ans.1.1 * 256 + ans.1.2, len := ans.2.1 })

end Sys2Proof.Machine
end

