-- ==== Sys2Proof/Machine/PupRun.lean ====
section
/-! DEFINITION. Failover, its end when no spare is left, rollback of a firmware exchange, and the parity log (16 R348-R354, R361). -/

namespace Sys2Proof.Machine

/-- DMA channels stop at the next word (16 R349). -/
def State.dmaStop (s : State) : State :=
  (List.range 8).foldl (fun (s : State) c => if s.rd F.PUP_DMA_STS_STATE c = 1 then s.wr F.PUP_DMA_STS_STATE 0 c else s) s

/-- The Puppeteer stops (16 R350): FAULT_N, the class 7 event, VDD_CORE at its last value plus 15 mV, the step kept, the recorder
flushed (19 R427), and no NVMe-MI. -/
def State.pupStop (s : State) : State :=
  let s := (s.wr F.PUP_STS_SPARE 3).faultLow
  let s := (s.raise evPupStopped 0xFFFF 0).faultFlush
  let s := ((s.raiseMv).dmaStop).wr F.GEN_STS_MI_AVAIL 0
  ({ s with pup := { s.pup with kept := some (s.rd F.PWR_STEP_STEP) } }).sweepDrop

/-- The spare pair takes over (16 R349); `pass` is the self-test of the pair that failed. -/
def State.takeOverPup (s : State) (rsn : Nat) (pass : Bool) : State :=
  let s := ((s.setMv s.pup.preRaise).dmaStop).redeliver
  let s := s.wr F.PUP_STS_ACTIVE (1 - s.rd F.PUP_STS_ACTIVE)
  let s := ((s.inc F.PUP_FAIL_COUNT).wr F.PUP_FAIL_RSN rsn).wr F.PUP_FAIL_TIME_TIME s.tns
  let s := (s.wr F.PUP_STS_SPARE (if pass then 0 else 2)).sweepDrop
  ({ s with pup := { s.pup with wdtAt := s.el } }).raise evFailover 0xFFFF rsn

/-- Rolls a firmware exchange back (16 R361): the old bank runs again, what was in service is delivered again, and the Commit that asked for the
exchange fails with the image store reloaded from the running slot (17 R391). -/
def State.rollback (s : State) : State :=
  let s := s.wr F.PUP_STS_BANK (1 - s.rd F.PUP_STS_BANK)
  let s := ((s.redeliver).wr F.PUP_STS_SWAP 4).wr F.PUP_STS_MASKED 0
  let s := ({ s with pup := { s.pup with wdtAt := s.el } }).raise evRollback 0xFFFF 0
  match s.pup.exch with
  | none => s
  | some (_, o, cid) =>
    let run := s.img.slots.getD (s.rd F.IMG_STS_SLOT) []
    let s := { s with pup := { s.pup with exch := none }, img := { s.img with store := run } }
    ((s.wr F.IMG_UPD_STS_ERR 6).wr F.IMG_UPD_STS_STATE 6).adm o cid (1, 0x07)

/-- The active pair has failed for a reason (16 R348, R349, R350, R361): 1 mismatch, 2 watchdog, 3 self-check, 4 fetch repair failed. -/
def State.failover (s : State) (rsn : Nat) (pass : Bool) : State :=
  if s.stopped then s
  else if s.swapping && rsn ≤ 2 then s.rollback
  else if s.rd F.PUP_STS_SPARE != 0 then s.pupStop
  else s.takeOverPup rsn pass

end Sys2Proof.Machine
end

