-- ==== Sys2Proof/Machine/Dram.lean ====
section
/-! DEFINITION. The DRAM controller's commands (15 R335-R341): refresh, temperature, activation tables and scrub. -/

namespace Sys2Proof.Machine

/-! ### Refresh and temperature (15 R335, R336) -/

/-- A rank's record: channel × 2 + rank. -/
def State.rank (s : State) (i : Nat) : Rank := (Tab.find i s.drc.ranks).getD ⟨0, false, 0, 0, 0, 0⟩

/-- Puts a rank's record. -/
def State.putRank (s : State) (i : Nat) (r : Rank) : State := { s with drc := { s.drc with ranks := Tab.put i r s.drc.ranks } }

/-- Sends one refresh to a rank: same-bank refresh to the next bank position, or all-bank refresh. -/
def State.refreshOne (s : State) (ch rk : Nat) : State :=
  let r := s.rank (ch * 2 + rk)
  if s.rd F.DRC_REF_CFG_MODE = 0 then
    (s.send (.dram ch "REFsb" [rk, r.pos])).putRank (ch * 2 + rk) { r with pos := (r.pos + 1) % 4 }
  else s.send (.dram ch "REFab" [rk])

/-- Whether channel and rank exist and take commands. -/
def State.rankOk (s : State) (ch rk : Nat) : Bool := ch < 8 && rk ≤ s.rd F.DRC_CFG_DUAL && s.rd F.DRC_CH_STS_STATE ch = 2

/-- DRAM_REFRESH (R335): the interval of a rank has passed. While urgency-3 requests wait for the rank (`busy` says so of ports 0, 1 and 3, whose
requests are not queued, log 96) the refresh is postponed, up to four of them; otherwise what is owed is issued, and this one. In self-refresh the device refreshes itself
(R344). -/
def execDramRefresh (ch rk : Nat) (busy : Bool) (s : State) : Res :=
  .next (
    if !s.rankOk ch rk || s.drc.sref then s
    else
      let r := s.rank (ch * 2 + rk)
      if (busy || s.rankUrgent ch rk) && r.owed < 4 then s.putRank (ch * 2 + rk) { r with owed := r.owed + 1 }
      else
        let s := s.putRank (ch * 2 + rk) { r with owed := 0 }
        (List.range (r.owed + 1)).foldl (fun (s : State) _ => s.refreshOne ch rk) s)

/-- A temperature report of one rank: above 85 °C it doubles its refresh; two reports at or below it end that (R336). -/
def State.mr4Rank (s : State) (i : Nat) (above85 : Bool) : State :=
  let r := s.rank i
  if above85 then s.putRank i { r with dbl := true, cool := 0, dblAt := if r.dbl then r.dblAt else s.el }
  else if r.dbl then
    if r.cool + 1 ≥ 2 then s.putRank i { r with dbl := false, cool := 0 } else s.putRank i { r with cool := r.cool + 1 }
  else s

/-- MR4_POLL (R336): a poll of a channel; `reps` gives for each rank the highest MR4 code of its devices, and whether a device
reports above 85 °C, and above 95 °C. -/
def execMr4Poll (ch : Nat) (reps : List (Nat × Bool × Bool)) (s : State) : Res :=
  .next (
    if ch ≥ 8 then s
    else
      let rs := (reps.take (1 + s.rd F.DRC_CFG_DUAL)).mapIdx (fun i r => (ch * 2 + i, r))
      let s := rs.foldl (fun (s : State) e => s.mr4Rank e.1 e.2.2.1) s
      let s := s.wr F.DRC_CH_STS_MR4_MAX (rs.foldl (fun a e => max a e.2.1) 0) ch
      let s := s.wr F.DRC_CH_STS_DOUBLE (b2n ((s.rank (ch * 2)).dbl || (s.rank (ch * 2 + 1)).dbl)) ch
      let hot := rs.any (fun e => e.2.2.2)
      let rest := s.drc.hot - b2n (bit s.drc.hot ch) * 2 ^ ch
      let s := { s with drc := { s.drc with hot := rest + b2n hot * 2 ^ ch } }
      if hot then (s.raise evDramHot 0xFFFF ch).stepUp else s)

/-! ### Activations (15 R337, R338) -/

/-- An activation of a row in a bank's table: the table after it, and the row's count. -/
def actTable (row : Nat) (t : List (Nat × Nat)) : List (Nat × Nat) × Nat :=
  match t.find? (fun e => e.1 = row) with
  | some e => (t.map (fun x => if x.1 = row then (row, e.2 + 1) else x), e.2 + 1)
  | none =>
    if t.length < 32 then (t ++ [(row, 1)], 1)
    else
      match t.foldl (fun acc e => match acc with
        | none => some e
        | some a => if e.2 < a.2 then some e else some a) none with
      | some a => (t.map (fun x => if x = a then (row, a.2 + 1) else x), a.2 + 1)
      | none => (t, 0)

/-- Issues Refresh Management to a bank. -/
def State.rfm (s : State) (ch bank : Nat) : State := s.send (.dram ch "RFMsb" [bank])

/-- DRAM_ACTIVATE (R334, R337, R338): an ACT to the row of a DPA, which is open then. `due` says that the devices' mode registers call for Refresh
Management of the bank at its rolling count. -/
def execDramActivate (dpa : Nat) (due : Bool) (s : State) : Res :=
  .next (
    let ch := s.chOf dpa
    let b := s.bankOf dpa
    let row := s.rowOfDpa dpa
    let a := actTable row ((Tab.find b s.drc.act).getD [])
    let hit : Bool := a.2 ≥ s.rd F.DRC_REF_CFG_ACT_TH
    let t := if hit then a.1.map (fun x => if x.1 = row then (row, 0) else x) else a.1
    let n := (Tab.find b s.drc.raa).getD 0 + 1
    let s := { s with drc := { s.drc with act := Tab.put b t s.drc.act, raa := Tab.put b (if due then 0 else n) s.drc.raa } }
    let s := { s with drc := { s.drc with rows := Tab.put b (row, 0) s.drc.rows } }
    let s := if hit then (s.rfm ch b).inc F.DRC_RFM_CNT_TABLE ch else s
    if due then (s.rfm ch b).inc F.DRC_RFM_CNT_RAA ch else s)

/-- When a rank's refresh window ends: 32 ms after the last one, or at the next 16 ms boundary of it once refresh is doubled (R337, R345). -/
def Rank.windowEnd (r : Rank) : Nat :=
  r.clrAt + (if r.dbl then 16000000 * max 1 (ceilDiv (r.dblAt - r.clrAt) 16000000) else 32000000)

/-- ACTIVATION_TABLE_CLEAR (R337, R345): the refresh window of a rank ends. -/
def execActivationTableClear (ch rk : Nat) (s : State) : Res :=
  .next (
    let i := ch * 2 + rk
    let r := s.rank i
    if r.windowEnd > s.el then s
    else
      let s := { s with drc := { s.drc with act := s.drc.act.filter (fun e => e.1 / 64 != i) } }
      s.putRank i { r with clrAt := s.el })

/-- Whether the scrub runs (R341, R344): enabled, DRAM filled and in service, not in Doze, Nap or self-refresh, and PFAIL_N high. -/
def State.scrubOn (s : State) : Bool :=
  s.rd F.DRC_SCRUB_CFG_EN = 1 && s.rd F.DRC_FILL_DONE = 1 && s.bursts != 0 && s.awake && !s.drc.sref && s.stg.commits

/-- DRAM_SCRUB_READ (R341): the scrub's next burst is asked for on port 4, and the island takes up to `room` requests of its channel. `outcome`
is 0 clean, 1 corrected at symbol `sym`, 2 uncorrectable, 3 uncorrectable and seen as a whole device's error; a burst that is poisoned
is uncorrectable whatever it says. Each MiB read is charged to slice 0 (03 R76). -/
def execDramScrubRead (room outcome sym region a b : Nat) (s : State) : Res :=
  .next (
    if !s.scrubOn then s
    else
      let n := s.drc.scrub % s.bursts
      let nx := (n + 1) % s.bursts
      let s := { s with drc := { s.drc with scrub := nx } }
      let s := s.wr F.DRC_SCRUB_CFG_PASS_PCT (nx * 100 / s.bursts)
      let s := if (n + 1) % 16384 = 0 then s.chargeBg 4 16 else s
      s.drcRequest 4 (n * 64) (.scrub outcome sym region a b) room)

end Sys2Proof.Machine
end

