-- ==== Sys2Proof/Machine/Power.lean ====
section
/-! DEFINITION. The meanings of the power and thermal commands (01 R19, R20; 16 R362, R363; 18; 13 R308). -/

namespace Sys2Proof.Machine

/-! ### Features (18 R398, R413) -/

/-- SET_FEATURES_POWER_MANAGEMENT (18 R398). -/
def execSetFeaturesPowerManagement (o : Org) (cid ps : Nat) (s : State) : Res :=
  .next (s.admin o cid (fun s =>
    if !isMgr o then s.adm o cid (1, 0x0E)
    else if ps > 5 || (ps = 5 && s.rd F.PWR_CFG_JACK_EN = 0) then s.adm o cid stField
    else
      let s := s.wr F.PWR_STS_NVME_PS ps
      let s := if ps ≤ 2 then ({ s with pwr := { s.pwr with hostStep := 5 * ps } }).stepUp else s
      s.adm o cid stOk))

/-- SET_FEATURES_APST (18 R398): enable, and the target state and idle time in ms of each power state. -/
def execSetFeaturesApst (o : Org) (cid : Nat) (en : Bool) (ents : List (Nat × Nat)) (s : State) : Res :=
  .next (s.admin o cid (fun s =>
    if !isMgr o then s.adm o cid (1, 0x0E)
    else
      let l := (ents.take 32).mapIdx (fun i e => (i, e))
      ({ s with pwr := { s.pwr with apstEn := en, apst := l } }).adm o cid stOk))

/-- SET_FEATURES_TEMP_THRESHOLD (18 R413): sensor 0 is the composite, 1 to 8 TS0 to TS7; the threshold is in kelvin, as the base
specification has it. -/
def execSetFeaturesTempThreshold (o : Org) (cid sensor : Nat) (under : Bool) (kelvin : Nat) (s : State) : Res :=
  .next (s.admin o cid (fun s =>
    if sensor > 8 then s.adm o cid stField
    else
      let l := s.pwr.tthr.filter (fun t => !(t.1 = sensor && t.2.1 = under)) ++ [(sensor, under, (cut 16 kelvin : Int) - 273)]
      (({ s with pwr := { s.pwr with tthr := l } }).adm o cid stOk).critCheck))

/-! ### The voltage loop (01 R19, R20) -/

/-- The lowest pace of a list, with the first monitor that shows it. -/
def lowest (l : List Nat) : Nat × Nat :=
  (l.mapIdx (fun i p => (p, i))).foldl (fun a e => if e.1 < a.1 then e else a) (2 ^ 16, 0)

/-- The monitors' registers take the paces of the last window. -/
def State.takePaces (s : State) (l : List Nat) : State :=
  let m := lowest l
  let s := (l.mapIdx (fun i p => (i, p))).foldl (fun (s : State) e =>
    (s.wr F.PWR_PACE_PACE e.2 e.1).wr F.PWR_PACE_MIN (min e.2 (s.rd F.PWR_PACE_MIN e.1)) e.1) s
  ((s.wr F.PWR_PACE_MIN_MIN m.1).wr F.PWR_PACE_MIN_WHICH m.2).wr F.PWR_PACE_MIN_LOW (b2n (m.1 < s.rd F.PWR_STEP_FLOOR))

/-- PACE_LOW (01 R20): the event, and one step more where VDD_CORE is at its highest. -/
def State.paceLow (s : State) (m : Nat × Nat) : State :=
  let s := s.raise evPaceLow 0xFFFF (m.2 * 2 ^ 16 + m.1)
  let s := { s with pwr := { s.pwr with paceAt := s.el } }
  if s.rd F.PUP_VREG_TARGET_MV ≥ 850 && !s.stopped then
    ({ s with pwr := { s.pwr with paceStep := min 15 (s.rd F.PWR_STEP_STEP + 1) } }).stepUp
  else s

/-- A raise of 5 mV, one VOUT_COMMAND, unless VDD_CORE is at its highest (01 R19; 16 R362). -/
def State.raise5 (s : State) : State :=
  if s.rd F.PUP_VREG_TARGET_MV ≥ 850 then s else s.setMv (s.rd F.PUP_VREG_TARGET_MV + 5)

/-- One pass of the loop: below the target a raise of 5 mV for each 20 µs of the 100 µs since the last pass; a lowering of 5 mV after 10 ms at
1.04 × target. -/
def State.loop (s : State) (m : Nat) : State :=
  let tgt := s.rd F.PWR_STEP_FLOOR * (1000 + s.pwr.margin)
  let mv := s.rd F.PUP_VREG_TARGET_MV
  if m * 1000 < tgt then
    let n := min 5 ((s.el - s.pup.raisedAt) / 20000)
    let s := { s with pup := { s.pup with paceOkAt := none } }
    if n = 0 then s else (List.range n).foldl (fun (s : State) _ => s.raise5) { s with pup := { s.pup with raisedAt := s.el } }
  else if m * 100000 ≥ tgt * 104 then
    match s.pup.paceOkAt with
    | none => { s with pup := { s.pup with paceOkAt := some s.el } }
    | some t =>
      if t + 10000000 ≤ s.el && mv > 600 then ({ s with pup := { s.pup with paceOkAt := some s.el } }).setMv (mv - 5) else s
  else { s with pup := { s.pup with paceOkAt := none } }

/-- VOLTAGE_LOOP_TICK (01 R19, R20): the paces of the 32 monitors. The loop itself stops with the Puppeteer, and
while a wake restores the voltage (18 R399). -/
def execVoltageLoopTick (paces : List Nat) (s : State) : Res :=
  .next (
    if paces.length != 32 || !s.counting then s
    else
      let l := paces.map (cut 16)
      let m := lowest l
      let s := s.takePaces l
      let s := if m.1 < s.rd F.PWR_STEP_FLOOR then s.paceLow m else s
      let s := s.settleStep
      if s.stopped || s.rd F.PUP_VREG_FAIL = 1 || s.pup.waitMv != 0 then s else s.loop m.1)

/-! ### The regulator (16 R362, R363) -/

/-- A VOUT or IOUT fault in STATUS_WORD, by PMBus's layout. -/
def vregFault (status : Nat) : Bool := bit status 15 || bit status 14

/-- The regulator has failed: step 15 (16 R363). -/
def State.vregFailed (s : State) (status : Nat) : State :=
  let s := { s with pup := { s.pup with vFails := 0, vGood := 0, vRetryAt := s.el } }
  ((s.wr F.PUP_VREG_FAIL 1).raise evVregFail 0xFFFF (cut 16 status)).stepUp

/-- Keeps what a transaction read; a voltage that a wake asked for and the regulator reports lets the loop go on (18 R399). -/
def State.vregRead (s : State) (mv iout status : Nat) : State :=
  let w := if s.pup.waitMv ≤ mv then 0 else s.pup.waitMv
  ({ s with pup := { s.pup with vIout := (cut 32 iout, cut 16 status), waitMv := w } }).wr F.PUP_VREG_READ_MV mv

/-- REGULATOR_POLL (16 R362, R363): READ_VOUT in mV, READ_IOUT in mA and STATUS_WORD, or a failed transaction. -/
def execRegulatorPoll (ok : Bool) (mv iout status : Nat) (s : State) : Res :=
  .next (
    if s.stopped || s.rd F.PUP_VREG_FAIL = 1 then s
    else if ok then
      let s := ({ s with pup := { s.pup with vFails := 0 } }).vregRead mv iout status
      if vregFault status then s.vregFailed status else s
    else if s.pup.vFails + 1 ≥ 3 then s.vregFailed s.pup.vIout.2
    else { s with pup := { s.pup with vFails := s.pup.vFails + 1 } })

/-- REGULATOR_RETRY (16 R363): every 10 ms; ten good transactions in a row clear FAIL. -/
def execRegulatorRetry (ok : Bool) (mv iout status : Nat) (s : State) : Res :=
  .next (
    if s.stopped || s.rd F.PUP_VREG_FAIL = 0 || s.el < s.pup.vRetryAt + 10000000 then s
    else
      let s := { s with pup := { s.pup with vRetryAt := s.el } }
      let s := if ok then s.vregRead mv iout status else s
      if !ok || vregFault status then { s with pup := { s.pup with vGood := 0 } }
      else if s.pup.vGood + 1 ≥ 10 then ({ s with pup := { s.pup with vGood := 0 } }).wr F.PUP_VREG_FAIL 0
      else { s with pup := { s.pup with vGood := s.pup.vGood + 1 } })

/-! ### On-die sensors (18 R407-R409, R412) -/

/-- The orthogonal neighbours of a sensor in the 8 × 8 grid. -/
def gridNext (i : Nat) : List Nat :=
  (if i / 8 > 0 then [i - 8] else []) ++ (if i / 8 < 7 then [i + 8] else []) ++ (if i % 8 > 0 then [i - 1] else [])
    ++ (if i % 8 < 7 then [i + 1] else [])

/-- The highest of a list of readings; none of an empty one. -/
def highest : List Int → Option Int
  | [] => none
  | x :: xs => some (xs.foldl max x)

/-- Cross-checks one sensor against its neighbours that had not failed (18 R409). -/
def State.crossCheck (s : State) (raw : List Int) (failed : List Nat) (i : Nat) : State :=
  let r := raw.getD i 0
  let s := s.wr F.THM_SENS_RAW (ofSigned 12 r) i
  let ns := ((gridNext i).filter (fun j => !failed.contains j)).map (fun j => raw.getD j 0)
  if failed.contains i || ns.length < 2 then s
  else
    let hi := ns.foldl max (ns.headD 0)
    let lo := ns.foldl min (ns.headD 0)
    if hi + 64 < r || r < lo - 64 then
      let n := s.rd F.THM_SENS_SUSP_N i + 1
      if n ≥ 3 then ((s.wr F.THM_SENS_SUSP_N n i).wr F.THM_SENS_STATE 2 i).raise evThmSensFail 0xFFFF i
      else (s.wr F.THM_SENS_SUSP_N n i).wr F.THM_SENS_STATE 1 i
    else (s.wr F.THM_SENS_SUSP_N 0 i).wr F.THM_SENS_STATE 0 i

/-- The effective value of a sensor (18 R409): its reading, or for a failed one its hottest neighbour, or the hottest reading, plus 3 °C. -/
def State.effective (s : State) (raw : List Int) (i : Nat) : Int :=
  let good := fun j => s.rd F.THM_SENS_STATE j != 2
  if good i then raw.getD i 0
  else
    match highest (((gridNext i).filter good).map (fun j => raw.getD j 0)) with
    | some v => v + 24
    | none => ((highest (((List.range 64).filter good).map (fun j => raw.getD j 0))).getD 0) + 24

/-- The thermal step of a hottest reading in 1/8 °C (18 R407). -/
def State.curve (s : State) (t : Int) : Nat :=
  (List.range 16).foldl (fun a k =>
    let tk := s.rd F.THM_CURVE_T_ENTER k
    if k != 0 && tk != 0 && (8 * tk : Int) ≤ t then k else a) 0

/-- The fixed shutdown (18 R412); it is counted at the next start. A flush that runs serves it too (R414), and after DONE what a trip ends
with follows at once. -/
def State.trip (s : State) (i : Nat) : State :=
  if s.pwr.tripped then s
  else
    let s := ({ s with pwr := { s.pwr with tripped := true, tripBy := i } }).raise evThmTrip 0xFFFF i
    if s.rd F.MED_PF_STS_PHASE = pfDone then s.tripEnd else s.stopNow

/-- What follows from the effective values: the hottest, the thermal step upward, and the trip. -/
def State.heat (s : State) (eff : List Int) : State :=
  let hot := (highest eff).getD 0
  let idx := (eff.findIdx? (fun x => x = hot)).getD 0
  let s := (eff.mapIdx (fun i x => (i, x))).foldl (fun (s : State) e => s.wr F.THM_SENS_TEMP (ofSigned 12 e.2) e.1) s
  let s := (s.wr F.THM_STS_TJ_MAX (ofSigned 8 (hot / 8))).wr F.THM_STS_HOT_IDX idx
  let s := s.wr F.THM_STS_FAILED ((List.range 64).filter (fun i => s.rd F.THM_SENS_STATE i = 2)).length
  let s := if s.stopped then s else (s.wr F.PWR_STEP_THERM (max (s.rd F.PWR_STEP_THERM) (s.curve hot))).stepUp
  let over0 := (List.range 64).filter (fun i => s.rd F.THM_SENS_STATE i != 1 && (1000 : Int) ≤ eff.getD i 0)
  let was := s.pwr.hot
  let s := { s with pwr := { s.pwr with hot := (over0.map (fun i => 2 ^ i)).sum } }
  match over0.find? (fun i => bit was i) with
  | some i => s.trip i
  | none => s

/-- SENSOR_CONVERSION (18 R407-R409, R412): the 64 readings, in 1/8 °C. -/
def execSensorConversion (raw : List Int) (s : State) : Res :=
  .next (
    if raw.length != 64 || !s.counting then s
    else
      let failed := (List.range 64).filter (fun i => s.rd F.THM_SENS_STATE i = 2)
      let s := (List.range 64).foldl (fun (s : State) i => s.crossCheck raw failed i) s
      (s.heat ((List.range 64).map (s.effective raw))).critCheck)

/-! ### Remote inputs (18 R410, R411) -/

/-- A conversion out of range: the sample is discarded and the input is Failed. -/
def State.tsOut (s : State) (n : Nat) : State :=
  let s := { s with pwr := { s.pwr with tsGood := Tab.del n s.pwr.tsGood } }
  if s.rd F.THM_TS_STS_STATE n = 2 then s
  else
    let v := toSigned 8 (s.rd F.THM_TS_CFG_FAIL_VAL n) * 8
    ((s.wr F.THM_TS_STS_STATE 2 n).wr F.THM_TS_STS_TEMP (ofSigned 12 v) n).raise evThmTsFail 0xFFFF n

/-- A conversion in range of an input in service. -/
def State.tsIn (s : State) (n : Nat) (t : Int) : State :=
  let al := toSigned 8 (s.rd F.THM_TS_CFG_ALERT n) * 8 ≤ t
  let was := s.rd F.THM_TS_STS_ALERT n = 1
  let s := ((s.wr F.THM_TS_STS_STATE 1 n).wr F.THM_TS_STS_TEMP (ofSigned 12 t) n).wr F.THM_TS_STS_ALERT (b2n (decide al)) n
  if al && !was then (s.edge (20 + n) 0).wakeUp 6 n 0 else s

/-- REMOTE_CONVERSION (18 R410, R411): input `n` converts to `t`, in 1/8 °C. -/
def execRemoteConversion (n : Nat) (t : Int) (s : State) : Res :=
  .next (
    if n ≥ 8 || s.rd F.THM_TS_CFG_KIND n = 0 || !s.counting then s
    else
      let s :=
        if t < -320 || 1200 < t then s.tsOut n
        else if s.rd F.THM_TS_STS_STATE n = 2 then
          let g := (Tab.find n s.pwr.tsGood).getD 0 + 1
          if g ≥ 10 then ({ s with pwr := { s.pwr with tsGood := Tab.del n s.pwr.tsGood } }).tsIn n t
          else { s with pwr := { s.pwr with tsGood := Tab.put n g s.pwr.tsGood } }
        else s.tsIn n t
      s.stepUp.critCheck)

/-- A write of an input's THM_TS_CFG: an input that is turned off shows no reading, a Failed one the new failed value, and the thresholds are
compared anew (18 R406, R410, R411, R415). -/
def State.tsSet (s : State) (n : Nat) : State :=
  let st := s.rd F.THM_TS_STS_STATE n
  let al := toSigned 8 (s.rd F.THM_TS_CFG_ALERT n) * 8 ≤ toSigned 12 (s.rd F.THM_TS_STS_TEMP n)
  let s :=
    if s.rd F.THM_TS_CFG_KIND n = 0 then
      ((({ s with pwr := { s.pwr with tsGood := Tab.del n s.pwr.tsGood } }).wr F.THM_TS_STS_STATE 0 n).wr F.THM_TS_STS_TEMP 0 n).wr
        F.THM_TS_STS_ALERT 0 n
    else if st = 2 then s.wr F.THM_TS_STS_TEMP (ofSigned 12 (toSigned 8 (s.rd F.THM_TS_CFG_FAIL_VAL n) * 8)) n
    else if st = 1 then s.wr F.THM_TS_STS_ALERT (b2n (decide al)) n
    else s
  s.stepUp

/-! ### Falling back (18 R406, R407) -/

/-- THERMAL_STEP_FALLBACK (18 R407): at most one step toward 0 every UP_MS, of the thermal step and of the current one. -/
def execThermalStepFallback (s : State) : Res :=
  .next (
    if s.stopped || s.el < s.pwr.moveAt + s.rd F.THM_CFG_UP_MS * 10000000 then s
    else
      let k := s.rd F.PWR_STEP_THERM
      let t := ((List.range 64).map (fun i => toSigned 12 (s.rd F.THM_SENS_TEMP i))).foldl max (-2048)
      let lim : Int := 8 * ((s.rd F.THM_CURVE_T_ENTER k : Int) - s.rd F.THM_CFG_HYST)
      let s := if k != 0 && t < lim then s.wr F.PWR_STEP_THERM (k - 1) else s
      let w := s.stepWant
      let cur := s.rd F.PWR_STEP_STEP
      if w.1 < cur then
        ({ s with pwr := { s.pwr with moveAt := s.el } }).moveStep (cur - 1) (if w.1 = cur - 1 then w.2 else s.rd F.PWR_STEP_RSN)
      else { s with pwr := { s.pwr with moveAt := s.el } })

/-- PACE_LOW_FALLBACK (18 R406). -/
def execPaceLowFallback (s : State) : Res :=
  .next (
    if s.pwr.paceStep != 0 && s.pwr.paceAt + tenSec ≤ s.el then
      { s with pwr := { s.pwr with paceStep := s.pwr.paceStep - 1, paceAt := s.el } }
    else s)

/-- Core power now, in µW. -/
def State.corePower (s : State) : Nat := s.rd F.PUP_VREG_READ_MV * s.pup.vIout.1

/-- OVERRUN_STEP (18 R406): core power against the step's limit. -/
def execOverrunStep (s : State) : Res :=
  .next (
    let cur := s.rd F.PWR_STEP_STEP
    if s.stopped then s
    else if s.corePower > s.rd F.PWR_STEP_TBL_LIMIT_W cur * 1000000 then
      let s := { s with pwr := { s.pwr with underAt := none } }
      match s.pwr.overAt with
      | none => { s with pwr := { s.pwr with overAt := some s.el } }
      | some t =>
        if t + 10000000 ≤ s.el then ({ s with pwr := { s.pwr with overAt := none, overStep := min 15 (cur + 1) } }).stepUp else s
    else
      let s := { s with pwr := { s.pwr with overAt := none } }
      match s.pwr.underAt with
      | none => { s with pwr := { s.pwr with underAt := some s.el } }
      | some t => if t + tenSec ≤ s.el then { s with pwr := { s.pwr with overStep := 0 } } else s)

/-! ### Power states (18 R396-R404; 13 R308) -/

/-- What APST sets for an idle controller: the non-operational state that the entry of its own names (18 R398). -/
def State.apst (s : State) : State :=
  let ps := s.rd F.PWR_STS_NVME_PS
  match Tab.find ps s.pwr.apst with
  | some (t, ms) =>
    if s.pwr.apstEn && ps != t && 3 ≤ t && t ≤ 5 && (t != 5 || s.rd F.PWR_CFG_JACK_EN = 1) && ms != 0 && s.pwr.busyAt + ms * 1000000 ≤ s.el then
      s.wr F.PWR_STS_NVME_PS t
    else s
  | none => s

/-- Whether an idle controller may go on to a state: it is deeper than the one it is in (18 R397). -/
def State.mayRest (s : State) (st : Nat) : Bool := s.isIdle && s.ready && !s.pwr.jack && !(1 ≤ s.rd F.MED_PF_STS_PHASE && s.rd F.MED_PF_STS_PHASE ≤ 3) && max 1 (s.rd F.PWR_STS_STATE) < st

/-- IDLE_ENTRY (18 R396, R397): an idle controller enters Doze or Nap. -/
def execIdleEntry (s : State) : Res :=
  .next (
    let t := if s.isIdle then s.apst else s
    let c := t.choice
    if (c = pwDoze || c = pwNap) && t.mayRest c then t.rest c else s)

/-- DOZE_NAP_EXIT (18 R399, R404): work or a wake source, with its index and reason. -/
def execDozeNapExit (code idx rsn : Nat) (s : State) : Res := .next (s.wakeUp code idx (cut 16 rsn) (decide (code = 2)))

/-- JACK_ENTRY (18 R401): an idle controller whose choice is Jack. -/
def execJackEntry (fall : Bool) (s : State) : Res :=
  .next (
    let s1 := if s.isIdle then s.apst else s
    if s1.choice = pwJack && s1.mayRest pwJack then
      if fall then
        let s := s1.jackSave
        ({ s with img := { s.img with pfailN := false }, stg := { s.stg with commits := s1.stg.commits } }.edge 17 0).stopNow
      else s1.jackSave.jackImage.jackOff
    else s)

/-- What a wake source does (18 R402, R404), `ns` after entry where the device is in Jack. -/
def State.wakeSrc (s : State) (code idx ns : Nat) : State :=
  if s.pwr.jack then
    if s.leaves code idx pwJack && s.pwr.wake.isNone then
      ({ s with pwr := { s.pwr with wake := some (code, idx, 0, cut 64 (s.tim.jackNs + ns)), wakeN := false } }).send (.pin "WAKE_N" 0)
    else s
  else s.wakeUp code idx 0

/-- WAKE_EVENT (18 R402, R404): a wake source; in Jack it is recorded once with the instant that the wake island's interval count gives,
and WAKE_N falls. -/
def execWakeEvent (code idx ns : Nat) (s : State) : Res := .next (s.wakeSrc code idx ns)

/-- Bytes of a frame; those past its end are 0. -/
def octetsOf (off n : Nat) (b : List Nat) : List Nat := (List.range n).map (fun i => cut 8 (b.getD (off + i) 0))

/-- WAKE_FRAME (13 R307, R308): a frame with EtherType 0x88B5 and payload `b` reaches a sub-port with destination MAC `dst`. It is acted on in Doze,
and in Nap where the port listens; a listening port drops one that does not match. -/
def execWakeFrame (p u dst : Nat) (b : List Nat) (s : State) : Res :=
  .next (
    let st := s.rd F.PWR_STS_STATE
    let l := s.link p u
    let mine := (dst = s.rd F.ETH_MAC_ADDR p u || dst = macAll) && beVal (octetsOf 0 4 b) = 0x485A574B && beVal (octetsOf 4 8 b) = s.rd F.ETH_WAKE_ID_ID p
    if p ≥ 8 || u ≥ s.subCount p then s
    else if mine && ((st = pwDoze && l = lkUp) || (st = pwNap && l = lkWake)) then s.wakeUp 2 p (beVal (octetsOf 12 2 b)) true
    else if st = pwNap && l = lkWake then s.dropRx p u drAddr
    else s)

end Sys2Proof.Machine
end

