-- ==== Sys2Proof/Machine/PcxOps.lean ====
section
/-! DEFINITION. Functions, links and the CXL window: the operations that the host port's commands share (14 R312-R327). -/

namespace Sys2Proof.Machine

/-! ### Functions (14 R313, R314, R325) -/

/-- Device function index of a PF. -/
def State.pfIdx (s : State) (pf : Nat) : Nat := if pf = 0 then 0 else s.rd F.PCX_CFG_VF_SPLIT + 1

/-- TotalVFs of a PF. -/
def State.totalVfs (s : State) (pf : Nat) : Nat :=
  if s.rd F.PCX_CFG_BIFUR = 0 then (if pf = 0 then 255 else 0)
  else if pf = 0 then s.rd F.PCX_CFG_VF_SPLIT else 254 - s.rd F.PCX_CFG_VF_SPLIT

/-- PFs of the port. -/
def State.pfs (s : State) : List Nat := if s.rd F.PCX_CFG_BIFUR = 1 then [0, 1] else [0]

/-- A PF with the configuration space of a reset. -/
def FnSt.pf (link : Nat) : FnSt := ⟨true, false, false, false, false, false, 0, 2048, false, 0, link, []⟩

/-- A function's NVMe queues, its admin queue among them. -/
def State.fnQueues (s : State) (n : Nat) : List Nat := (s.sl.qs.filter (fun e => !e.2.fabric && e.2.func = n)).map (·.1)

/-- Resets a function's queues (02 R56), and takes away those that end with the NVMe controller: all but PF0's admin queue, whose
index stays (log 39). Its interrupt coalescing, outstanding event requests and notices end with it. -/
def State.endFnQueues (s : State) (n : Nat) : State :=
  let qs := s.fnQueues n
  let s := s.queueResets qs
  let s := (qs.filter (fun i => !(n = 0 && i = 0))).foldl State.removeQueue s
  let s := { s with sl := { s.sl with
    cqs := s.sl.cqs.filter (fun c => c.func != n || (n = 0 && c.cqid = 0))
    coal := Tab.del n s.sl.coal
    vecs := s.sl.vecs.filter (fun v => v.func != n) } }
  let s := { s with pcx := { s.pcx with badDb := s.pcx.badDb.filter (fun i => i != n) } }
  if n = 0 then { s with ras := { s.ras with aers := s.ras.aers.filter (fun a => a.2.1 != Org.fn 0) } }
  else s.dropCtl (.fn n)

/-- An NVMe controller reset of a function (14 R325): its queues; CC.EN and CSTS return to 0. Its configuration space stays. -/
def State.ctlReset (s : State) (n : Nat) : State :=
  match s.fn n with
  | none => s
  | some f => (s.putFn n { f with ccEn := false, rdy := false, shst := 0, held := [] }).endFnQueues n

/-- A reset of a function with its configuration space (14 R325). -/
def State.fnReset (s : State) (n : Nat) : State :=
  let s := s.ctlReset n
  match s.fn n with
  | none => s
  | some f => s.putFn n { f with bme := false, mse := false, pasidEn := false }

/-- The VFs of a PF that are enabled. -/
def State.vfsOf (s : State) (pf : Nat) : List Nat :=
  let i := s.pfIdx pf
  (s.fns.filter (fun e => i < e.1 && e.1 ≤ i + s.totalVfs pf)).map (·.1)

/-- VF Enable of a PF is cleared (14 R325): its VFs are reset and gone, and their vectors return to the pool. -/
def State.vfOff (s : State) (pf : Nat) : State :=
  let s := (s.vfsOf pf).foldl (fun (s : State) n => let s := s.fnReset n; { s with fns := Tab.del n s.fns }) s
  let s := (s.wr F.PCX_SRIOV_STS_VF_S 0 pf).wr F.PCX_SRIOV_STS_NUMVFS 0 pf
  match s.fn (s.pfIdx pf) with
  | some f => s.putFn (s.pfIdx pf) { f with vfEn := false, numVfs := 0 }
  | none => s

/-- A PF and its VFs are reset: HDM decoders of PF0 return to uncommitted (14 R323), and its LTR capability with its configuration space (23
R496). -/
def State.pfReset (s : State) (pf : Nat) : State :=
  let s := (s.vfOff pf).fnReset (s.pfIdx pf)
  if pf = 0 then { s with pcx := { s.pcx with hdm := none }, pwr := { s.pwr with ltr := none } } else s

/-- Vectors held by a PF's enabled VFs. -/
def State.vfVecs (s : State) (pf : Nat) : Nat := s.rd F.PCX_SRIOV_STS_VF_S pf * s.rd F.PCX_SRIOV_STS_NUMVFS pf

/-- Functions that waited to become ready. -/
def State.tryAll (s : State) : State := (s.fns.map (·.1)).foldl State.tryReady s

/-! ### Links (14 R312, R325, R326) -/

/-- Whether a link may run at a rate and a width: ×16 where the port is one link, else ×8 or less (14 R311, R312). -/
def State.linkMay (s : State) (speed width : Nat) : Bool :=
  1 ≤ speed && speed ≤ 6 && [1, 2, 4, 8, 16].contains width && (width ≤ 8 || s.rd F.PCX_CFG_BIFUR = 0)

/-- A link trains to L0 with a rate and a width, in FLIT mode at 64 GT/s only (14 R311); `cxl` says that the host accepted CXL. -/
def State.linkOn (s : State) (l speed width : Nat) (flit cxl : Bool) : State :=
  let s := ((s.wr F.PCX_LINK_STS_UP 1 l).wr F.PCX_LINK_STS_SPEED speed l).wr F.PCX_LINK_STS_WIDTH width l
  let s := (s.wr F.PCX_LINK_STS_FLIT (b2n (flit && speed = 6)) l).wr F.PCX_LINK_STS_L0P_W width l
  if l = 0 then (s.wr F.PCX_CXL_STS_ACTIVE (b2n (s.rd F.PCX_CFG_CXL_EN = 1 && cxl))) else s

/-- A link goes down. -/
def State.linkOff (s : State) (l : Nat) : State :=
  let s := ((s.wr F.PCX_LINK_STS_UP 0 l).wr F.PCX_LINK_STS_SPEED 0 l).wr F.PCX_LINK_STS_WIDTH 0 l
  let s := (s.wr F.PCX_LINK_STS_FLIT 0 l).wr F.PCX_LINK_STS_L0P_W 0 l
  if l = 0 then s.wr F.PCX_CXL_STS_ACTIVE 0 else s

/-- The fields of the PCX block that a warm reset by PERST_N or DL_Down returns to reset values (23 R496): RW, RW1C and RC, apart
from PCX_RST_CNT. -/
def State.pcxWarm (s : State) : State :=
  let s := (List.range 2).foldl (fun (s : State) i =>
    (((s.clr F.PCX_SRIOV_CFG_VF_VEC i).clr F.PCX_SRIOV_STS_VEC_SHORT i).clr F.PCX_LINK_STS_DOWN_CNT i).clr F.PCX_FN_SEL_FN 0 0 i) s
  ((s.clr F.PCX_AER_CNT_COR).clr F.PCX_AER_CNT_UNCOR).clr F.PCX_AER_CNT_POISON_RX

/-- The CXL entry whose range covers a DPA (02 R45; 14 R322). -/
def State.cxlEntry (s : State) (dpa : Nat) : Option XltEnt :=
  s.sl.xlt.find? (fun e => e.cxl && e.base ≤ dpa && dpa < e.base + e.size)

/-- What becomes of a CXL.mem access: served at a DPA, or refused. -/
inductive CxlAns
  | serve (dpa : Nat)
  | refuse
deriving DecidableEq, Repr

/-- Logs a CXL.mem miss and raises XLT_MISS on slice 0 (02 R45). -/
def State.cxlMiss (s : State) (n : Nat) (perm : Bool) (addr : Nat) (wr : Bool) : State :=
  (s.logFlt n 3 perm 0 none addr wr).raise evXltMiss 0 (n * 2 ^ 32)

/-- Resolves a CXL.mem access at a host address (14 R322; 02 R45, R60). -/
def State.cxlResolve (s : State) (hpa : Nat) (wr : Bool) : State × CxlAns :=
  match s.pcx.hdm with
  | none => (s.cxlMiss 0 false hpa wr, .refuse)
  | some (base, size) =>
    if hpa < base || hpa ≥ base + size || hpa - base ≥ s.winSize then (s.cxlMiss 0 false hpa wr, .refuse)
    else
      let dpa := hpa - base
      match s.cxlEntry dpa with
      | none => (s.cxlMiss 0 false dpa wr, .refuse)
      | some e =>
        if s.slState e.slice = slFenced then (s.inc F.SLI_XLT_FLT_CNT_CNT e.slice, .refuse)
        else if e.grants wr then (s, .serve dpa)
        else (s.cxlMiss e.slice true dpa wr, .refuse)

/-- Starts the write-back of a dirty granule, charged to the slice whose entry maps it (06 R160). -/
def State.wbStart (s : State) (g : Nat) : State :=
  if !s.stg.dirty.contains g || s.pcx.wb.contains g then s
  else
    let n := ((s.cxlEntry (g * 65536)).map (·.slice)).getD 0
    let s := s.charge n none (chgWrite Desc.ref 65536)
    { s with pcx := { s.pcx with wb := s.pcx.wb ++ [g] } }

/-- GPF Phase 2 is answered when nothing it waits for is left (14 R324). -/
def State.gpfCheck (s : State) : State :=
  if s.pcx.gpf = some [] then ({ s with pcx := { s.pcx with gpf := none } }).send (.pcie "GPF2 response" []) else s

/-- A granule's write-back is persistent. -/
def State.wbDone (s : State) (g : Nat) : State :=
  let s := if s.pcx.wb.contains g then s.saveGranule g else s
  let s := { s with pcx := { s.pcx with gpf := s.pcx.gpf.map (fun (l : List Nat) => l.filter (fun x => x != g)) } }
  (s.freeHeld s.pcx.heldWr.length).gpfCheck

end Sys2Proof.Machine
end

