-- ==== Sys2Proof/Machine/Cxl.lean ====
section
/-! DEFINITION. The meanings of the CXL commands (14 R319-R324; 06 R160). -/

namespace Sys2Proof.Machine

/-- Whether CXL.mem requests reach the controller: link 0 runs as CXL and DRAM is served (14 R319; 15 R342). -/
def State.cxlOn (s : State) : Bool :=
  s.rd F.PCX_LINK_STS_UP 0 = 1 && s.rd F.PCX_CXL_STS_ACTIVE = 1 && s.rd F.DRC_FILL_DONE = 1

/-- CXL_MEM_READ (R322; 15 R333, R334, R339, R340): a read of the burst at a host address. Resolved, it is a request on port 2, and the
island takes up to `room` requests of its channel; `err` and `sym` are what the burst's check bits say when it is served, 0 clean, 1
corrected, 2 uncorrectable, 3 a whole device's error. A poisoned burst, a miss and a refusal return poison. After a stop
instant DRAM takes requests of the flush alone (15 R344). -/
def execCxlMemRead (hpa room err sym : Nat) (s : State) : Res :=
  .next (
    if !s.cxlOn || !s.stg.commits then s
    else
      let a := s.work.cxlResolve hpa false
      match a.2 with
      | .refuse => a.1.send (.pcie "CXL poison" [hpa])
      | .serve dpa => a.1.drcRequest 2 dpa (.read hpa err sym) room)

/-- CXL_MEM_WRITE (R322, R323; 06 R160; 15 R333, R334, R339): a write of the bytes of a burst that `mask` names, a request as a read is. A
miss and a refusal drop it. A write to the persistent range waits while the dirty amount is at DIRTY_MAX. After a stop instant it is lost
with the link. -/
def execCxlMemWrite (hpa data mask room err sym : Nat) (s : State) : Res :=
  .next (
    if !s.cxlOn || !s.stg.commits then s
    else
      let a := s.work.cxlResolve hpa true
      match a.2 with
      | .refuse => a.1.send (.pcie "CXL write done" [hpa])
      | .serve dpa => a.1.drcRequest 2 dpa (.write hpa data mask err sym) room)

/-- CXL_GRANULE_WRITEBACK (06 R160): the write-back of a dirty granule starts, or (`done`) is persistent. -/
def execCxlGranuleWriteback (g : Nat) (done : Bool) (s : State) : Res := .next (if done then s.wbDone g else s.wbStart g)

/-- GPF_PHASE1 (R324): answered at once. -/
def execGpfPhase1 (s : State) : Res := .next (if s.cxlOn then s.send (.pcie "GPF1 response" []) else s)

/-- GPF_PHASE2 (R324): every dirty granule is written back; the answer follows the last. -/
def execGpfPhase2 (s : State) : Res :=
  .next (
    if !s.cxlOn || s.pcx.gpf.isSome then s
    else
      let s := { s with pcx := { s.pcx with gpf := some s.stg.dirty } }
      (s.stg.dirty.foldl State.wbStart s).gpfCheck)

/-- HDM_DECODER_COMMIT (R320, R322, R323): the host commits the decoder at a host base address and size. -/
def execHdmDecoderCommit (base size : Nat) (s : State) : Res :=
  .next (if s.rd F.PCX_LINK_STS_UP 0 = 1 && s.rd F.PCX_CXL_STS_ACTIVE = 1 then
      { s with pcx := { s.pcx with hdm := some (base, size) } }
    else s)

end Sys2Proof.Machine
end

