-- ==== Sys2Proof/Machine/ImgOps.lean ====
section
/-! DEFINITION. The configuration image: its sections, its verification and its structural checks (17 R377-R380; 05 R130-R135;
07 R168; 09 R208; 13 R295; 14 R313, R321; 15 R329, R332). -/

namespace Sys2Proof.Machine

/-- Bytes as they stand: cut to 8 bits each. -/
def octets (l : List Nat) : List Nat := l.map (cut 8)

/-! ### Sections (17 R377, R378) -/

/-- An entry of the section table. -/
structure Sec where
  ty : Nat
  flags : Nat
  off : Nat
  len : Nat
  crc : Nat
  inst : Nat
deriving DecidableEq, Repr

/-- Image length of a header. -/
def imgLen (b : List Nat) : Nat := leAt b 12 4

/-- The section table. -/
def secsOf (b : List Nat) : List Sec :=
  (List.range (leAt b 10 2)).map (fun i =>
    let o := 512 + 32 * i
    ⟨leAt b o 2, leAt b (o + 2) 2, leAt b (o + 4) 4, leAt b (o + 8) 4, leAt b (o + 12) 4, leAt b (o + 16) 2⟩)

/-- A section's bytes. -/
def Sec.data (b : List Nat) (x : Sec) : List Nat := octets ((b.drop x.off).take x.len)

/-- The sections of a type. -/
def secsTy (b : List Nat) (ty : Nat) : List Sec := (secsOf b).filter (fun x => x.ty = ty)

/-- The bytes of the one section of a type; none where there is none. -/
def secTy (b : List Nat) (ty : Nat) : List Nat := ((secsTy b ty).head?.map (Sec.data b)).getD []

/-- Whether the bytes `lo` to `hi - 1` are 0. -/
def zeros (b : List Nat) (lo hi : Nat) : Bool := (List.range (hi - lo)).all (fun i => b.getD (lo + i) 0 = 0)

/-! ### Verification (17 R380) -/

/-- The result of step 5, as IMG_SLOT_STS.RESULT codes it: 1 good, 3 HEADER, 4 KEY, 5 REVOKED, 6 SIG, 7 ROLLBACK, 8 SECTION. -/
def State.verify (s : State) (b : List Nat) : Nat :=
  let n := imgLen b
  let k := leAt b 9 1
  let pub := octets ((b.drop 64).take 96)
  let h := Config.sha384 (octets (b.take (n - 128)))
  if leAt b 0 4 != 0x4E54494D || leAt b 4 2 != 1 || leAt b 6 2 != 0x9440 || !bit (leAt b 8 1) 0 then 3
  else if n > 15728640 || leAt b 10 2 = 0 || leAt b 10 2 > 64 || n < 512 + 32 * leAt b 10 2 + 128 || b.length < n
      || leAt b (n - 128) 4 != 0x53494731 then 3
  else if k > 3 || Config.sha384 pub != Config.rootHash k then 4
  else if bit s.img.revoked k then 5
  else if !Config.ecdsa pub h (octets ((b.drop (n - 96)).take 48)) (octets ((b.drop (n - 48)).take 48)) then 6
  else if leAt b 16 4 < s.img.svn then 7
  else if (secsOf b).any (fun x => x.off + x.len > n || crc32c (x.data b) != x.crc) then 8
  else 1

/-! ### Lane programs (05 R130-R135) -/

/-- A section of a container by its type. -/
def laneSec (b : List Nat) (ty : Nat) : Option (List Nat) :=
  ((List.range (leAt b 10 2)).find? (fun i => leAt b (64 + 16 * i) 2 = ty)).map
    (fun i => octets ((b.drop (leAt b (64 + 16 * i + 4) 4)).take (leAt b (64 + 16 * i + 8) 4)))

/-- A parser entry of 16 bytes. -/
def pent (b : List Nat) (o : Nat) : PEnt :=
  ⟨leAt b o 1, leAt b (o + 1) 1, leAt b (o + 2) 2, leAt b (o + 4) 4, leAt b (o + 8) 4, leAt b (o + 12) 1, leAt b (o + 13) 1, leAt b (o + 14) 1⟩

/-- A profile of 64 bytes. -/
def profAt (b : List Nat) (o : Nat) : Prof :=
  ⟨leAt b o 1, leAt b (o + 1) 1, leAt b (o + 2) 1, leAt b (o + 3) 1, leAt b (o + 4) 4, leAt b (o + 8) 1, leAt b (o + 10) 2⟩

/-- The program of a container. -/
def laneProg (b : List Nat) : LaneProg :=
  let sq := (laneSec b 1).getD []
  let pa := (laneSec b 2).getD []
  let pr := (laneSec b 3).getD []
  let ci := (laneSec b 4).getD []
  let ix := (laneSec b 5).getD []
  { id := leAt b 6 1
    epoch := leAt b 8 2
    secs := (List.range (leAt b 10 2)).map (fun i => leAt b (64 + 16 * i) 2)
    seq := (List.range (sq.length / 8)).map (fun i => (leAt sq (8 * i) 1, leAt sq (8 * i + 1) 1))
    parser := (List.range (pa.length / 16)).map (fun i => pent pa (16 * i))
    profs := (List.range (pr.length / 64)).map (fun i => profAt pr (64 * i))
    cmode := leAt ci 0 1
    idxMs := leAt ix 0 2
    slots := leAt ix 2 1 }

/-- Whether a container is accepted: its header and checksums, reserved bytes of its sections, and the rules of 05 R131. -/
def laneOk (b : List Nat) : Bool :=
  let secs := (List.range (leAt b 10 2)).map (fun i => (leAt b (64 + 16 * i + 4) 4, leAt b (64 + 16 * i + 8) 4, leAt b (64 + 16 * i + 12) 4))
  let sq := (laneSec b 1).getD []
  let pr := (laneSec b 3).getD []
  let ci := (laneSec b 4).getD []
  let ix := (laneSec b 5).getD []
  leAt b 0 4 = 0x4C504B31 && leAt b 4 2 = 1 && leAt b 12 4 = b.length && b.length ≤ 131072
    && crc32c (b.take 16 ++ [0, 0, 0, 0] ++ b.drop 20) = leAt b 16 4
    && secs.all (fun e => e.1 + e.2.1 ≤ b.length && crc32c ((b.drop e.1).take e.2.1) = e.2.2)
    && sq.length % 8 = 0 && (List.range (sq.length / 8)).all (fun i => zeros sq (8 * i + 2) (8 * i + 8))
    && ((laneSec b 2).getD []).length % 16 = 0 && pr.length % 64 = 0
    && (List.range (pr.length / 64)).all (fun i => zeros pr (64 * i + 9) (64 * i + 10) && zeros pr (64 * i + 12) (64 * i + 64))
    && ci.length = 16 && zeros ci 1 16 && ix.length = 16 && zeros ix 3 16
    && (laneProg b).ok

/-! ### The layout table (07 R168; 17 R379) -/

/-- A group record at an offset: its number, the group, and the bytes it takes. -/
def grpRec (b : List Nat) (o : Nat) : Nat × Grp × Nat :=
  let n := leAt b (o + 1) 1
  let d := leAt b (o + 2) 1
  let k := leAt b (o + 3) 1
  let rows := leAt b (o + 4) 2
  let at1 := o + 16
  let at2 := at1 + n
  let at3 := at2 + n * d
  let at4 := at3 + rows * n
  let link := fun (l : Nat) => leAt b (at1 + l) 1
  let g : Grp :=
    { k := k
      links := (List.range n).map link
      dies := (List.range n).map (fun l => (List.range d).map (fun i =>
        let x := leAt b (at2 + l * d + i) 1
        link l * 64 + bits x 4 2 * 16 + bits x 0 4))
      perm := (List.range rows).map (fun r => (List.range n).map (fun x => leAt b (at3 + r * n + x) 1))
      doff := (List.range rows).map (fun r => (List.range (k + 2)).map (fun j => leAt b (at4 + r * (k + 2) + j) 1))
      share := leAt b (o + 6) 2
      ded := bit (leAt b (o + 8) 1) 0 }
  (leAt b o 1, g, ceilDiv (at4 + rows * (k + 2) - o) 16 * 16)

/-- Group records one after another. -/
def grpRecs (b : List Nat) : Nat → Nat → List (Nat × Grp) × Nat
  | 0, o => ([], o)
  | c + 1, o =>
    let r := grpRec b o
    let t := grpRecs b c (o + r.2.2)
    ((r.1, r.2.1) :: t.1, t.2)

/-- Whether a list holds no value twice. -/
def distinct (l : List Nat) : Bool := l.dedup.length = l.length

/-- The rules of R168 for one group. -/
def Grp.ok (g : Grp) : Bool :=
  let n := g.links.length
  let d := (g.dies.headD []).length
  g.k + 4 ≤ n && n ≤ 64 && 1 ≤ d && d ≤ 64 && 64 ≤ n * d && n * d ≤ 1024 && 4 ≤ g.k && g.k ≤ 30
    && 1 ≤ g.perm.length && g.perm.length ≤ 256
    && g.perm.all (fun r => r.length = n && distinct r && r.all (· < n))
    && g.doff.length = g.perm.length && g.doff.all (fun r => r.all (· < d))
    && 1000 ≤ g.share * n && distinct g.links && g.links.all (· < 64) && g.dies.all (fun l => l.length = d && distinct l)

/-- Rises strictly. -/
def ascending : List Nat → Bool
  | [] => true
  | [_] => true
  | a :: b :: t => a < b && ascending (b :: t)

/-- The groups of a layout table, where it is accepted. -/
def layoutOf (b : List Nat) : Option (Tab Grp) :=
  let r := grpRecs b (leAt b 0 1) 16
  let ds := r.1.flatMap (fun e => e.2.dies.flatten)
  if 1 ≤ leAt b 0 1 && leAt b 0 1 ≤ 64 && zeros b 1 16 && r.2 = b.length && r.1.all (fun e => e.1 < 64 && e.2.ok)
      && ascending (r.1.map (·.1)) && distinct ds then some r.1
  else none

/-! ### Media descriptors (09 R207, R208; 17 R379) -/

/-- The descriptor at an offset. -/
def descAt (b : List Nat) (o : Nat) : Desc :=
  let w := fun (i n : Nat) => leAt b (o + i) n
  ⟨w 0 1, w 1 1, w 8 4, w 2 1, w 4 2, w 6 2, w 12 2, w 14 2, w 16 4, w 20 4, w 24 4, w 28 4, w 32 4, w 36 4, w 40 4, w 44 4,
    w 48 4, w 52 4, w 56 4, w 60 4, w 64 4, w 68 4, w 72 2, w 74 2, w 3 1, w 88 1, w 76 2, w 78 2⟩

/-- The rules of R208 and the ranges of R379. -/
def Desc.ok (y : Desc) : Bool :=
  2 ≤ y.planes && y.planes ≤ 8 && y.bpc = 4 && y.susLim ≤ 12 && y.wl ≤ 1023 && y.blocks ≤ 2047 && y.mibQ = 128 && y.mib1 = 32
    && y.tR ≤ y.tRmax && y.t1 ≤ y.t1max && y.tC ≤ y.tCmax && y.tF ≤ y.tFmax && y.tE ≤ y.tEmax && y.tSus ≤ y.tSusMax
    && y.tR ≤ 100 && y.tF ≤ 5000 && 1 ≤ y.ipr && y.ipr ≤ y.planes

/-- The descriptors of section 0x05, where it is accepted. -/
def descsOf (b : List Nat) : Option (List Desc) :=
  let n := b.length / 256
  let l := (List.range n).map (fun i => descAt b (256 * i))
  if b.length % 256 = 0 && 1 ≤ n && n ≤ 32 && l.all Desc.ok && distinct (l.map (·.id))
      && (List.range n).all (fun i => zeros b (256 * i + 89) (256 * i + 256)) then some l
  else none

/-! ### Lane map, DRAM, regulator, presets (13 R295; 14 R312, R313, R321; 15 R329, R332; 17 R379, R380) -/

/-- Whether a lane map is accepted. -/
def laneMapOk (b : List Nat) : Bool :=
  b.length = 16 && (List.range 8).all (fun p => leAt b p 1 < 8) && leAt b 8 1 < 4 && leAt b 9 1 ≤ 254 && leAt b 10 1 ≤ 128
    && leAt b 11 1 ≤ 8 && leAt b 11 1 ≤ leAt b 10 1 && zeros b 12 16

/-- Capacity of a channel in GiB: 2 subchannels × ranks × (32 / device width) × density (15 R329). -/
def chanGib (f : Nat) : Nat := 2 * (if bit f 2 then 2 else 1) * (if bit f 1 then 4 else 8) * (if bit f 3 then 4 else 2)

/-- Base bits of the ten selector outputs (15 R331). -/
def baseBits (c : Nat) : List Nat := [6, 7, 8, 9, 10, 11, 12, 13, 14, 15 + c]

/-- Whether a DRAM configuration is accepted; `spd` says that it matches what the devices report. -/
def dramOk (b : List Nat) (spd : Bool) : Bool :=
  let f := leAt b 2 1
  let c := if bit f 1 then 6 else 7
  let low := 2 ^ (15 + c + b2n (bit f 2))
  let top := if bit f 0 then 6400 else 8800
  b.length = 128 && f < 16 && leAt b 3 1 = 0xFF && zeros b 4 8 && 4800 ≤ leAt b 0 2 && leAt b 0 2 ≤ top && spd
    && [16, 32, 64].contains (chanGib f)
    && ((baseBits c).mapIdx (fun i x => (i, x))).all (fun e =>
        let m := leAt b (8 + 8 * e.1) 8
        bit m e.2 && m < 2 ^ 40 && (m - 2 ^ e.2) % low = 0)

/-- Whether a regulator profile is accepted. -/
def vregOk (b : List Nat) : Bool :=
  b.length = 16 && leAt b 0 1 < 128 && leAt b 1 1 ≤ 1 && zeros b 3 4 && (leAt b 1 1 = 0 || leAt b 6 2 = 5)
    && 800 ≤ leAt b 8 2 && leAt b 8 2 ≤ 850 && zeros b 10 16

/-- Register presets: pairs of address and value. -/
def presetsOf (b : List Nat) : List (Nat × Nat) := (List.range (b.length / 8)).map (fun i => (leAt b (8 * i) 4, leAt b (8 * i + 4) 4))

/-- The RWL fields of the dword at an address, with register, entry and sub-entry. -/
def rwlAt (a : Nat) : List (Fld × Nat × Nat) :=
  if a % 4 != 0 then []
  else
    match locate a regTable with
    | some (r, i, j, off) => (r.flds.filter (fun f => f.acc = Acc.rwl && off / 4 = f.lo / 32)).map (fun f => (f, i, j))
    | none => []

/-- Applies a preset to the RWL fields of its dword (17 R380, R495). -/
def State.preset (s : State) (e : Nat × Nat) : State :=
  (rwlAt e.1).foldl (fun (s : State) x => s.wr x.1 (e.2 / 2 ^ (x.1.lo % 32)) x.2.1 x.2.2) s

/-- Power of two that a preset gives the map cache, else the reset value. -/
def cacheLog2 (s : State) (ps : List (Nat × Nat)) : Nat := (ps.foldl State.preset s).rd F.MCACHE_CFG_SIZE_LOG2

/-! ### Section 0x0C (17 R379; 18 R405, R407, R410) -/

/-- Whether the power-limit steps and thermal curve are accepted. -/
def stepsOk (b : List Nat) : Bool :=
  b.length = 256 && leAt b 0 2 ≤ 345
    && (List.range 15).all (fun i => leAt b (8 * i + 8) 2 ≤ leAt b (8 * i) 2 && leAt b (8 * i + 10) 2 ≤ leAt b (8 * i + 2) 2
        && leAt b (8 * i + 4) 1 ≤ leAt b (8 * i + 12) 1 && leAt b (8 * i + 13) 1 ≤ leAt b (8 * i + 5) 1)
    && (List.range 16).all (fun i => leAt b (8 * i) 2 < 1024 && leAt b (8 * i + 2) 2 ≤ 1000 && leAt b (8 * i + 4) 1 ≤ 2
        && leAt b (8 * i + 5) 1 ≤ 64 && zeros b (8 * i + 6) (8 * i + 8))
    && ascending ((List.range 15).map (fun i => leAt b (128 + i) 1)) && leAt b 143 1 = 0
    && 40 ≤ leAt b 144 1 && leAt b 144 1 ≤ 200 && zeros b 145 160
    && (List.range 8).all (fun i => zeros b (160 + 12 * i + 6) (160 + 12 * i + 12))

/-! ### Trigger table (19 R425) -/

/-- The trigger entries of section 0x0D. -/
def trigsOf (b : List Nat) : List Trig :=
  (List.range (b.length / 72)).map (fun i =>
    let o := 72 * i
    ⟨leAt b o 2, leAt b (o + 2) 2, leAt b (o + 4) 1, (List.range (min 16 (leAt b (o + 5) 1))).map (fun j => leAt b (o + 8 + 4 * j) 4)⟩)

/-- Whether a trigger table is accepted. -/
def trigsOk (b : List Nat) : Bool :=
  b.length % 72 = 0 && b.length ≤ 256 * 72
    && (List.range (b.length / 72)).all (fun i =>
        leAt b (72 * i + 4) 1 ≤ 2 && leAt b (72 * i + 5) 1 ≤ 16 && zeros b (72 * i + 6) (72 * i + 8))
    && (trigsOf b).all (fun t => t.addrs.all (fun a => a % 8 = 0 && a < 2 ^ 26))

/-! ### The structural checks of step 6 (17 R378-R380) -/

/-- Whether the types, counts, classes and places of the sections are accepted (17 R377, R378). -/
def secsOk (b : List Nat) : Bool :=
  let l := secsOf b
  let n := fun (ty : Nat) => (secsTy b ty).length
  let spans := insSort (fun (x y : Nat × Nat) => x.1 ≤ y.1) (l.map (fun x => (x.off, x.off + x.len)))
  l.all (fun x => 1 ≤ x.ty && x.ty ≤ 14 && x.off % 16 = 0 && (decide (x.flags = 1) == decide (3 ≤ x.ty && x.ty ≤ 8)) && x.flags ≤ 1
      && x.off + x.len ≤ imgLen b - 128)
    && [1, 3, 4, 5, 6, 8, 10, 12].all (fun t => n t = 1) && [7, 13, 14].all (fun t => n t ≤ 1)
    && n 2 ≤ 16 && n 9 ≤ 4 && n 11 ≤ 16 && (secTy b 1).length ≤ 524288
    && (List.range spans.length).all (fun i =>
        (if i = 0 then 512 + 32 * l.length else (spans.getD (i - 1) (0, 0)).2) ≤ (spans.getD i (0, 0)).1)

/-- Whether the sections that step 6 checks are accepted; `spd` as for the DRAM configuration. -/
def State.structOk (s : State) (b : List Nat) (spd : Bool) : Bool :=
  let ps := presetsOf (secTy b 7)
  let lm := secTy b 3
  secsOk b && laneMapOk lm && dramOk (secTy b 4) spd && (descsOf (secTy b 5)).isSome && (layoutOf (secTy b 6)).isSome
    && vregOk (secTy b 8) && (secTy b 7).length % 8 = 0 && ps.all (fun e => !(rwlAt e.1).isEmpty)
    && (leAt lm 10 1 + 16) * 8 + 2 ^ cacheLog2 s ps * 9 ≤ chanGib (leAt (secTy b 4) 2 1) * 64
    && (secsTy b 2).all (fun x => laneOk (x.data b))

end Sys2Proof.Machine
end

