-- ==== Sys2Proof/Machine/Puppeteer.lean ====
section
/-! DEFINITION. The meanings of the Puppeteer's commands: timers, mailbox, watchdog, lockstep, parity, DMA and the firmware exchange
(16 R347-R361). -/

namespace Sys2Proof.Machine

/-- TIMER_ARM (16 R355): firmware writes compare value, period in µs and mode; the timer runs. -/
def execTimerArm (n cmp period : Nat) (periodic : Bool) (s : State) : Res :=
  .next (
    if n ≥ 16 || s.stopped then s
    else
      let s := (s.wr F.PUP_TMR_CMP_CMP cmp n).wr F.PUP_TMR_CTL_PERIOD period n
      (s.wr F.PUP_TMR_CTL_PERIODIC (b2n periodic) n).wr F.PUP_TMR_CTL_EN 1 n)

/-- TIMER_EXPIRY (16 R355, R356): a timer's compare value is reached. -/
def execTimerExpiry (n : Nat) (s : State) : Res :=
  .next (
    if n ≥ 16 || !s.counting || s.rd F.PUP_TMR_CTL_EN n = 0 || s.tns < s.rd F.PUP_TMR_CMP_CMP n then s
    else
      let s := if s.rd F.PUP_TMR_CTL_PERIODIC n = 1 then s.addw F.PUP_TMR_CMP_CMP (s.rd F.PUP_TMR_CTL_PERIOD n * 1000) n
        else s.wr F.PUP_TMR_CTL_EN 0 n
      s.latch n 0)

/-- MAILBOX_POP (16 R357): the earliest pending entry goes into service, unless delivery is masked or 128 are in service. -/
def execMailboxPop (s : State) : Res :=
  .next (
    if s.rd F.PUP_STS_MASKED = 1 || s.pup.insvc.length ≥ 128 || s.stopped then s
    else
      match earliest s.pup.pend with
      | none => s
      | some e => { s with pup := { s.pup with pend := s.pup.pend.filter (fun x => x.seq != e.seq), insvc := s.pup.insvc ++ [e] } })

/-- MAILBOX_ACKNOWLEDGE (16 R357): the entry with a sequence number is freed. -/
def execMailboxAcknowledge (seq : Nat) (s : State) : Res :=
  .next ({ s with pup := { s.pup with insvc := s.pup.insvc.filter (fun x => x.seq != seq) } })

/-- WATCHDOG_WRITE (16 R358). -/
def execWatchdogWrite (s : State) : Res := .next (if s.stopped then s else { s with pup := { s.pup with wdtAt := s.el } })

/-- WATCHDOG_EXPIRY (16 R358): the watchdog was not written for PERIOD; `pass` is the self-test of the pair that failed. -/
def execWatchdogExpiry (pass : Bool) (s : State) : Res :=
  .next (if s.pup.wdtAt + s.rd F.PUP_WDT_PERIOD * 1000000 ≤ s.el then s.failover 2 pass else s)

/-- COMPARE_MISMATCH (16 R348, R349). -/
def execCompareMismatch (pass : Bool) (s : State) : Res := .next (s.failover 1 pass)

/-- SELF_CHECK_REQUEST (16 R348): a self-check that the firmware requests; one that fails fails the pair over. -/
def execSelfCheckRequest (good pass : Bool) (s : State) : Res := .next (if good then s else s.failover 3 pass)

/-- SPARE_SELF_TEST (16 R348): the spare pair's self-test, every 10 s; it is available only while its last one passed. -/
def execSpareSelfTest (pass : Bool) (s : State) : Res :=
  .next (
    if s.stopped || s.el < s.pup.testAt + tenSec then s
    else ({ s with pup := { s.pup with testAt := s.el } }).wr F.PUP_STS_SPARE (if pass then 0 else 2))

/-- ITCM_FETCH_PARITY (16 R352): an instruction fetch at byte `off` of the active bank finds a parity error; the word is rewritten from the
firmware's mirror. A rewritten word that fails again (`good` false) fails the pair over. -/
def execItcmFetchParity (off : Nat) (good pass : Bool) (s : State) : Res :=
  .next (
    if s.stopped then s
    else
      let b := s.rd F.PUP_STS_BANK
      let w := off / 4 * 4
      let fix := fun (i : Nat) (l : List Nat) =>
        if i = b then l.mapIdx (fun k x => if k / 4 * 4 = w then (s.img.mirror.getD b []).getD k 0 else x) else l
      let s := { s with pup := { s.pup with itcm := s.pup.itcm.mapIdx fix } }
      let s := (s.inc F.PUP_PAR_CNT_ITCM).parLog 0 off
      if good then s else s.failover 4 pass)

/-- DTCM_PARITY_ERROR (16 R353): a load access fault on both cores; logged, not corrected. With `dram` it is a DRAM burst that a load got back as
poison, logged with MEM 4. -/
def execDtcmParityError (addr : Nat) (dram : Bool) (s : State) : Res :=
  .next (if dram then s.parLog 4 addr else (s.inc F.PUP_PAR_CNT_DTCM).parLog 1 addr)

/-- PUP_CACHE_PARITY_ERROR (16 R353): the line is invalidated in the caches of both cores of the pair, and both fetch it again; counted only. -/
def execPupCacheParityError (core : Nat) (data : Bool) (line : Nat) (s : State) : Res :=
  .next (
    let l := s.pup.l1.filter (fun e => !(e.1 / 2 = core / 2 && e.2.1 = data && e.2.2 = line))
    let a := core / 2 % 2 * 2
    ({ s with pup := { s.pup with l1 := l ++ [(a, data, line), (a + 1, data, line)] } }).inc F.PUP_PAR_CNT_DTCM)

/-- DMA_HALT (16 R354): channel `c` reads a word with a parity error or poison at `addr` after `done` words were written. -/
def execDmaHalt (c done addr : Nat) (s : State) : Res :=
  .next (
    if c ≥ 8 then s
    else
      let s := (s.wr F.PUP_DMA_STS_STATE 2 c).wr F.PUP_DMA_STS_DONE done c
      (s.inc F.PUP_PAR_CNT_DMA).parLog 3 addr)

/-- ALTERNATE_BANK_LOADED (16 R359 step 1): DMA channel `c` has copied the firmware of the image store into the alternate bank; `good` tells whether the
copy passes the image's CRC-32C. -/
def execAlternateBankLoaded (c : Nat) (good : Bool) (s : State) : Res :=
  .next (
    if c ≥ 8 || s.stopped || s.swapping then s
    else
      let b := 1 - s.rd F.PUP_STS_BANK
      let s := (s.wr F.PUP_DMA_STS_STATE 0 c).wr F.PUP_STS_SWAP (b2n good)
      if good then { s with pup := { s.pup with itcm := s.pup.itcm.mapIdx (fun i l => if i = b then s.img.mirror.getD b [] else l) } } else s)

/-- Channels that the firmware has running (16 R354). -/
def State.dmaRun (s : State) (mask : Nat) : State :=
  (List.range 8).foldl (fun (s : State) c =>
    if bit mask c && !s.stopped then s.wr F.PUP_DMA_STS_STATE 1 c else if s.rd F.PUP_DMA_STS_STATE c = 1 then s.wr F.PUP_DMA_STS_STATE 0 c else s) s

/-- SWAP_GO (16 R359, R360; 01 R21): firmware writes GO, and VDD_CORE is raised for the interval without the voltage loop; `dur` is the time until
the new firmware unmasks delivery, in µs; `dma` names the channels that run when GO is written. -/
def execSwapGo (dur dma : Nat) (s : State) : Res :=
  .next (
    let s := s.dmaRun dma
    if s.stopped then s
    else if !s.pup.insvc.isEmpty then s.wr F.PUP_SWAP_ERR 1
    else if s.rd F.PUP_STS_SWAP != 1 then s.wr F.PUP_SWAP_ERR 2
    else if (List.range 8).any (fun c => s.rd F.PUP_DMA_STS_STATE c = 1) then s.wr F.PUP_SWAP_ERR 3
    else
      let s := (s.raiseMv.wr F.PUP_STS_BANK (1 - s.rd F.PUP_STS_BANK)).wr F.PUP_STS_SWAP 3
      let s := (s.wr F.PUP_STS_MASKED 0).wr F.PUP_SWAP_DUR (sat 16 dur)
      { s with pup := { s.pup with goAt := s.el, wdtAt := s.el } })

/-- SWAP_ROLLBACK (16 R361): no COMMIT within COMMIT_MS of GO. -/
def execSwapRollback (s : State) : Res :=
  .next (
    if s.swapping && s.pup.goAt + s.rd F.PUP_WDT_COMMIT_MS * 1000000 ≤ s.el then s.rollback else s)

end Sys2Proof.Machine
end

