-- ==== Sys2Proof/Machine/PowerFail.lean ====
section
/-! DEFINITION. The meanings of power failure's commands (06 R158-R163; 01 R34). -/

namespace Sys2Proof.Machine

/-- Queues again the programs that a stop withdrew, whose sources staging and the window still hold (06 R163, R154). -/
def State.requeue (s : State) : State :=
  s.allRows.foldl (fun (s : State) e =>
    (List.range e.2.mem.length).foldl (fun (s : State) m => if s.memMissing e.1 e.2 m then s else s.redo e.1 m) s) s

/-- Sub-ports that went off train again. -/
def State.portsOn (s : State) : State :=
  (List.range 8).foldl (fun (s : State) p =>
    (List.range (s.subCount p)).foldl (fun (s : State) u => if s.link p u = lkDown then s.setLink p u lkTrain else s) s) s

/-- Staged units found uncorrectable as they are flushed, by their place in staging, go into the image with a poison mark (20 R447). -/
def State.poison (s : State) (bad : List Nat) : State :=
  let l := bad.filterMap (fun i => (s.stg.units[i]?).map (fun u => (u.row, u.off)))
  { s with stg := { s.stg with image := s.stg.image.map (fun (i : FlushImg) => if i.whole then i else { i with poison := i.poison ++ l }) } }

/-- PFAIL_N_FALL (06 R159, R163; 16 R356): PFAIL_N is recognised low for 1 µs: the stop instant. In Jack there is nothing to flush; without REFCLK
the flush engine runs from its own oscillator (21 R471). `bad` are the staged units
that the flush finds uncorrectable (20 R447). -/
def execPfailNFall (bad : List Nat) (s : State) : Res :=
  .next (
    if !s.img.pfailN then s
    else
      let s := { s with img := { s.img with pfailN := false } }
      if s.dead && !(s.img.refLost && s.img.por && !s.pwr.jack) then s else (s.edge 17 0).stopNow.poison bad)

/-- FLUSH_DONE (06 R159, R161, R162): `fails` are the flush pages whose program failed, by stripe and member, `links` those that lost flit lock. -/
def execFlushDone (fails : List (Nat × Nat)) (links : List Nat) (s : State) : Res := .next (s.flushDone fails links)

/-- PFAIL_N_RISE (06 R163; 16 R356): PFAIL_N has been high for 10 ms. After DONE the image is superseded, work goes on;
a controller that the stop found in Doze or Nap is in Run then (log 85). -/
def execPfailNRise (s : State) : Res :=
  .next (
    let was := s.img.pfailN
    let s := { s with img := { s.img with pfailN := true } }
    if s.dead then s
    else
      let s := if was then s else s.edge 17 1
      if s.rd F.MED_PF_STS_PHASE = pfDone && !s.pwr.tripped then
        let full := s.stg.full
        let s := s.resume
        let s := if s.awake then s else s.unrest
        if full then s.portsOn.requeue else s
      else s)

end Sys2Proof.Machine
end

