-- ==== Sys2Proof/Machine/StartOps.lean ====
section
/-! DEFINITION. What is lost and what stays when the controller loses power or comes out of Jack, and the operations that start-up's steps
share (06 R164; 17 R371-R392; 18 R403; 19 R417; 02 R62). -/

namespace Sys2Proof.Machine

/-! ### What power loss takes (06 R164; 17 R496) -/

/-- Whether the newest flush image is complete (R164). -/
def State.imageWhole (s : State) : Bool := (s.stg.image.map (·.whole)).getD false

/-- Whether a segment of the newest flush image is restored: its CRC matches (R164 step 1). One that had nothing to write loses nothing. -/
def State.segKept (s : State) (ty : Nat) : Bool :=
  match s.stg.image with
  | some i => i.whole || (if i.segs.any (fun g => g.ty = ty) then bit i.good ty else i.heads != 0)
  | none => false

/-- What power left of an image whose record is not programmed: the segments with a header and those whose CRC matches; with no header at all there is
no image (R164). -/
def State.partImage (s : State) (heads good : Nat) : State :=
  { s with stg := { s.stg with image := s.stg.image.bind (fun (i : FlushImg) =>
      if i.whole then some i else if heads = 0 then none else some { i with heads := heads, good := Nat.land heads good }) } }

/-- Sets a zone's state with its counts alone. -/
def State.reZst (s : State) (h z : Nat) : State :=
  let t := s.setZst h z
  { t with ftl := s.ftl }

/-- A zone is what it was before entries that are lost (R164 steps 2 and 4; 11 R268). Blocks that only those entries name wait for erase; data of a
zone that was wiped ends before the first block that was only in staging; of one that was not, its committed end stands. -/
def State.zundone (s : State) (u : ZUndo) : State :=
  let h := u.h
  let e := fun i => u.ent.getD i 0
  let now := s.zxOf h
  let end0 := s.cend h
  let same : Bool := now.rows.map (·.mem) = u.zx.rows.map (·.mem)
  let s := if same then s else (now.rows.flatMap (fun (x : SRow) => x.mem ++ x.win.flatten)).foldl State.staleBlk s
  let s := s.reZst h (e 0)
  let s := if same then s
    else { s with
      stg := { s.stg with units := s.stg.units.filter (fun v => v.row.conv || v.row.h != h) }
      zn := { s.zn with ud := u.ud.foldl (fun (l : List (Nat × Nat)) p => Ud.put p.1 p.2 l) (s.zn.ud.filter (fun p => !(udZone h 0 ≤ p.1 && p.1 < udZone h zoneBlocks))) }
      rdn := { s.rdn with
        subst := s.rdn.subst.filter (fun (v : Subst) => v.row.conv || v.row.h != h) ++ u.subst
        lost := s.rdn.lost.filter (fun (v : Lost) => v.row.conv || v.row.h != h) ++ u.lost } }
  let s := if same then s.putZx h { now with fin := u.zx.fin } else s.putZx h u.zx
  let wp := if same then (if e 0 = znFull then e 1 else end0) else min (e 1) u.cut
  let s := (((s.wr F.ZON_ENT2_WP_OFF wp h).wr F.ZON_ENT0_ROUTE (e 2) h).wr F.ZON_ENT0_ZFC (e 3) h).wr F.ZON_ENT0_DGROUP (e 4) h
  let s := (((s.wr F.ZON_ENT3_SSET0 (e 5) h).wr F.ZON_ENT3_K (e 6) h).wr F.ZON_ENT4_SSET1 (e 7) h).wr F.ZON_ENT4_SSET2 (e 8) h
  ((s.wr F.ZON_ENT5_SSET3 (e 9) h).wr F.ZON_ENT6_ACT_NS (e 10) h).wr F.ZON_ENT7_RESETS (e 11) h

/-- Without the journal tail's segment its entries are gone: map entries and zones return to what they were before it, newest change first (01 R14). -/
def State.loseTail (s : State) : State :=
  let s := s.ftl.undo.reverse.foldl (fun (s : State) u => s.putMent u.2.1 u.2.2.1 u.2.2.2) s
  let s := s.ftl.zundo.reverse.foldl State.zundone s
  { s with ftl := { s.ftl with undo := [], zundo := [], jtail := [], jpages := [] } }

/-- Forgets a zone's data from a block on, which becomes its write pointer or, where it is Full, the end of its committed data
(R164 step 4). -/
def State.cutZone (s : State) (h off : Nat) : State :=
  let s := { s with zn := { s.zn with ud := s.zn.ud.filter (fun e => !(udZone h off ≤ e.1 && e.1 < udZone h zoneBlocks)) } }
  if s.zst h = znFull then s.putZx h { s.zxOf h with fin := min (s.zxOf h).fin off }
  else if off < s.wp h then (s.wr F.ZON_ENT2_WP_OFF off h).zseq h
  else s

/-- The first block of a zone that lay in a row's unit. -/
def State.zoneOff (s : State) (u : StU) : Nat :=
  match s.srow u.row with
  | some x => u.row.r * memBlocks * x.k + u.off
  | none => 0

/-- Without the staging segment the units in staging SRAM are gone: their zones end before the first of them, and conventional blocks that
lay only there are lost. -/
def State.loseStaged (s : State) : State :=
  let gone := s.stg.units.filter (fun u => u.pool != 2)
  let s := gone.foldl (fun (s : State) u => if u.row.conv then s else s.cutZone u.row.h (s.zoneOff u)) s
  let rows := gone.filter (fun u => u.row.conv)
  let f := fun (e : Nat × MEnt) =>
    if e.2.st = 1 && rows.any (fun u => u.row.h = e.2.row && u.off = e.2.unit) then (e.1, MEnt.mk 2 0 0) else e
  let s := { s with ftl := { s.ftl with fmap := s.ftl.fmap.map f } }
  { s with stg := { s.stg with units := s.stg.units.filter (fun u => u.pool = 2) } }

/-- Counts the valid units of every conventional row again (11 R253). -/
def State.recount (s : State) : State :=
  let n := fun (h : Nat) (c : CRow) =>
    if c.map then (s.ftl.dir.filter (fun e => e.2.1 = h)).length * 4 else (s.ftl.fmap.filter (fun e => e.2.st = 1 && e.2.row = h)).length
  { s with ftl := { s.ftl with crows := s.ftl.crows.map (fun (e : Nat × CRow) => (e.1, { e.2 with valid := n e.1 e.2 })) } }

/-- Copies that no persistent entry names wait for erase (11 R268); a relocation whose entry lies in a tail that is kept goes on. -/
def State.endRelocs (s : State) : State :=
  let gone := s.ftl.relocs.filter (fun j => j.step != 2 || s.ftl.jtail.all (fun e => e.act != JAct.reloc j.id))
  let s := gone.foldl (fun (s : State) j => if j.kind = 0 then s else s.staleBlk j.new) s
  { s with ftl := { s.ftl with relocs := s.ftl.relocs.filter (fun j => gone.all (fun g => g.id != j.id)) } }

/-- Entries of pages whose copies were in flight stand at the head of the tail again. -/
def State.openPages (s : State) : State :=
  { s with ftl := { s.ftl with jtail := s.ftl.jpages.flatMap (fun p => p.ents) ++ s.ftl.jtail, jpages := [] } }

/-- Parity slots in DRAM, and those whose segment is discarded, are gone with power; start-up computes them again (R150, R164 step 3). -/
def State.losePar (s : State) : State :=
  let keep := fun (e : ParSlot) => s.segKept 1 && (e.row.conv || s.rd F.ZON_ENT0_PSLOT e.row.h = 1)
  { s with stg := { s.stg with par := s.stg.par.filter keep } }

/-- A recorder copy whose segment is discarded is gone (19 R427). -/
def State.loseRec (s : State) : State :=
  match s.stg.image with
  | some i =>
    if i.whole || s.segKept 3 then s
    else { s with evr := { s.evr with nand := s.evr.nand.filter (fun c => c.ns != i.stop) } }
  | none => s

/-- What the media hold once power is gone: everything, with a complete image; without one, what was on flash and the segments that `good` names
among those with a header, `heads` (R164). A slice whose reset the loss interrupted is ACTIVE again, a fence that waited is forgotten (log
85). -/
def State.afterLoss (s : State) (heads good : Nat) : State :=
  let s := ((((s.dropCmds (fun _ => true)).capDrop (fun _ => true)).stopsGone).freeDoomed).partImage heads good
  let s := s.sl.ext.foldl (fun (s : State) e => if s.slState e.1 = slResetting then s.wr F.SLI_STS_STATE slActive e.1 else s) s
  let s := if s.segKept 2 then s.openPages else s.loseTail
  let s := if s.segKept 0 then s else s.loseStaged
  ((s.losePar.loseRec).endRelocs).recount

/-- Whether a field's values are held by the journal or the system area (17 R496; 02 R37-R64; 04 R108; 11 R252). -/
def sysFld (f : Nat) : Bool :=
  let within := fun (a b : Fld) => a.id ≤ f && f ≤ b.id
  within F.SLI_STS_STATE F.SLI_GEN_GEN || within F.SLI_CAP_QUOTA_UNITS F.SLI_RES_RCQP || within F.SLI_NS_ALLOC F.SLI_DGMAP_MAP
    || within F.ZON_CAP_HANDLES F.ZON_DIRECT_ACTIVE || within F.ZON_ENT0_STATE F.ZON_ENT7_RESETS
    || [F.RAS_ERRLOG_COUNT.id, F.EVR_NOR_SEQ.id, F.EVR_NOR_NEXT.id, F.EVR_NOR_ERASED.id, F.FTL_JNL_SEQ_SEQ.id, F.MED_PF_CNT_FLUSHES.id,
        F.MED_PF_CNT_UNSAFE.id, F.MED_PF_STS_LAST.id, F.THM_TRIP_COUNT.id, F.THM_TRIP_SENS.id].contains f

/-- The register fields that outlast a loss of power; while start-up has not restored them, those that wait. -/
def State.sysRegs (s : State) : Regs :=
  let jackCnt := fun (k : RKey) => k.f = F.PWR_ENTRY_CNT_CNT.id && k.i = 3
  if s.img.sys.isEmpty then s.regs.filter (fun e => sysFld e.1.f || jackCnt e.1) else s.img.sys

/-- A die without power: its media and its health records stay, a wordline between passes among them (09 R228); it has to be enumerated again. -/
def DieSt.off (x : DieSt) : DieSt :=
  { x with present := false, reach := false, queue := [], cur := none, merged := [], susp := none }

/-- A slice's record without what the present epoch holds. -/
def SliceX.off (x : SliceX) : SliceX := { SliceX.fresh with keySlots := x.keySlots, xltLim := x.xltLim, used := x.used }

/-- Time, recorder and logs after a loss of power. -/
def State.keepTim (s r : State) : State :=
  let r := { r with tim := { r.tim with elFx := s.tim.elFx, ofs := s.tim.ofs, jackNs := s.tim.jackNs, saved := s.tim.saved } }
  let r := { r with evr := { r.evr with nand := s.evr.nand, nor := s.evr.nor } }
  { r with ras := { r.ras with errs := s.ras.errs, unsafeCnt := s.ras.unsafeCnt, integrity := s.ras.integrity } }

/-- Slices, namespaces, zones and key generations after a loss of power. -/
def State.keepSl (s r : State) : State :=
  let r := { r with sl := { r.sl with ext := s.sl.ext.map (fun (e : Nat × SliceX) => (e.1, e.2.off)), fbind := s.sl.fbind, nbind := s.sl.nbind, xlt := s.sl.xlt,
                                      qgen := s.sl.qgen } }
  let zx := s.zn.zx.map (fun (e : Nat × ZoneX) => (e.1, { e.2 with stream := none }))
  let r := { r with zn := { r.zn with ns := s.zn.ns, zx := zx, cursor := s.zn.cursor, ud := s.zn.ud, cap := s.zn.cap } }
  { r with cip := { r.cip with gens := s.cip.gens, retired := s.cip.retired }, cap := { r.cap with store := s.cap.store } }

/-- Staging, layout, dies and the translation layer after a loss of power. -/
def State.keepMedia (s r : State) : State :=
  let r := { r with stg := { r.stg with units := s.stg.units, erased := s.stg.erased, image := s.stg.image, plog := s.stg.plog, dirty := s.stg.dirty, par := s.stg.par,
                                        ovfAt := s.stg.ovfAt, imgSeq := s.stg.imgSeq } }
  let r := { r with rdn := { r.rdn with groups := s.rdn.groups, reshape := s.rdn.reshape, kept := s.rdn.kept, subst := s.rdn.subst, lost := s.rdn.lost } }
  let r := { r with die := { r.die with blks := s.die.blks, tails := s.die.tails, corrSaved := s.die.corrSaved, nextId := s.die.nextId,
                                        dies := s.die.dies.map (fun (e : Nat × DieSt) => (e.1, e.2.off)) } }
  let ls := (s.ftl.lines.filter (fun l => l.dirty)).map (fun (l : MLine) => { l with pending := false, wb := false, waiters := [] })
  { r with ftl := { r.ftl with crows := s.ftl.crows, fmap := s.ftl.fmap, dir := s.ftl.dir, pseq := s.ftl.pseq, lines := ls, undo := s.ftl.undo, zundo := s.ftl.zundo, jnext := s.ftl.jnext,
                               jtail := s.ftl.jtail, jsince := s.ftl.jsince, jring := s.ftl.jring, ckptS := s.ftl.ckptS, relocs := s.ftl.relocs } }

/-- Links, pins, fuses and the boot NOR after a loss of power; the persistent part of the CXL window stays in its image. -/
def State.keepBoard (s r : State) : State :=
  let ks := s.kz.links.map (fun (e : Nat × Link) => (e.1, { Link.fresh with serials := e.2.serials, sb := e.2.sb, sbAt := e.2.sbAt }))
  let r := { r with pup := { r.pup with vpd := s.pup.vpd }, kz := { r.kz with links := ks } }
  let r := { r with pwr := { r.pwr with wake := s.pwr.wake, jack := s.pwr.jack, tripped := s.pwr.tripped, tripBy := s.pwr.tripBy } }
  let r := { r with pcx := { r.pcx with perst := s.pcx.perst, img := s.pcx.img } }
  { r with img := { r.img with pfailN := s.img.pfailN, sys := s.sysRegs, started := s.img.started, clean := s.img.clean, nors := s.img.nors,
                               dirs := s.img.dirs, slots := s.img.slots, svn := s.img.svn, revoked := s.img.revoked, vpp := s.img.vpp,
                               prod := s.img.prod } }

/-- Power is gone, or the controller leaves Jack; `heads` and `good` say what is left of an image whose flush had not ended. Every register field returns to its reset value (00 R7), what the media, the NOR, the
fuses and the wake island hold stays (06 R164; 18 R403). Dirty granules of the persistent CXL window stay only in their segment. -/
def State.powerOff (s : State) (heads good : Nat) : State :=
  let s := s.afterLoss heads good
  let s := if s.segKept 4 then s.stg.dirty.foldl State.saveGranule s else s
  let s := { s with stg := { s.stg with dirty := [] } }
  let r := s.keepBoard (s.keepMedia (s.keepSl (s.keepTim State.reset)))
  { r with outs := s.outs, free := s.free, pending := s.pending }

/-! ### The slot directory (17 R374, R375) -/

/-- A directory's 64 bytes (R374). -/
def Dir.bytes (d : Dir) : List Nat :=
  let b := toLe 4 0x44495231 ++ toLe 4 d.seq ++ [d.active, d.trial.getD 0xFF, d.tries] ++ List.replicate 49 0
  b ++ toLe 4 (crc32c b)

/-- What a directory copy says; none where its magic or CRC does not match (R374). -/
def dirOf (b : List Nat) : Option Dir :=
  if leAt b 0 4 != 0x44495231 || leAt b 60 4 != crc32c ((List.range 60).map (fun i => cut 8 (b.getD i 0))) then none
  else some ⟨leAt b 4 4, leAt b 8 1, if leAt b 9 1 = 0xFF then none else some (leAt b 9 1), leAt b 10 1⟩

/-- The directory in force: the valid copy with the higher sequence number. -/
def State.dir (s : State) : Option Dir :=
  match dirOf (s.img.dirs.getD 0 []), dirOf (s.img.dirs.getD 1 []) with
  | none, b => b
  | a, none => a
  | some a, some b => if a.seq < b.seq then some b else some a

/-- Shows the directory in force in IMG_DIR. -/
def State.showDir (s : State) : State :=
  match s.dir with
  | none => s
  | some d =>
    let s := (s.wr F.IMG_DIR_ACTIVE d.active).wr F.IMG_DIR_TRIAL (match d.trial with
      | some t => t
      | none => 3)
    (s.wr F.IMG_DIR_TRIES d.tries).wr F.IMG_DIR_SEQ d.seq

/-- Writes a directory: over the copy with the lower sequence number, with a number one above the higher (R374). -/
def State.writeDir (s : State) (active : Nat) (trial : Option Nat) (tries : Nat) : State :=
  let sq := fun (i : Nat) => match dirOf (s.img.dirs.getD i []) with
    | some d => d.seq + 1
    | none => 0
  let i := if sq 0 ≤ sq 1 then 0 else 1
  let d : Dir := ⟨cut 32 (max (sq 0) (sq 1)), active, trial, tries⟩
  ({ s with img := { s.img with dirs := (List.range 2).map (fun j => if j = i then d.bytes else s.img.dirs.getD j []) } }).showDir

/-! ### Applying an image (17 R376-R380) -/

/-- A slot's bytes, as the copy engine reads them. -/
def State.slotBytes (s : State) (slot : Nat) : List Nat := s.img.slots.getD slot []

/-- Threshold table memory of section 0x09 (10 R238): rows of 16 signed offsets of the descriptor with the section's instance ID. -/
def thrOf (id : Nat) (b : List Nat) : Tab (List Int) :=
  (List.range (b.length / 16)).map (fun i => (id * 65536 + i, (List.range 16).map (fun j => toSigned 8 (leAt b (16 * i + j) 1))))

/-- The NTC parameters of section 0x0C. -/
def ntcOf (b : List Nat) : List (Nat × Nat) := (List.range 8).map (fun i => (leAt b (160 + 12 * i) 4, leAt b (164 + 12 * i) 2))

/-- Puts the power-limit steps and the thermal curve of section 0x0C into force; a section that is not accepted fails its activation and leaves
those in force (17 R379; 18 R405, R407, R410). -/
def State.useSteps (s : State) (b : List Nat) : State :=
  if !stepsOk b then s else
  let s := (List.range 16).foldl (fun (s : State) i =>
    (((s.wr F.PWR_STEP_TBL_LIMIT_W (leAt b (8 * i) 2) i).wr F.PWR_STEP_TBL_F (leAt b (8 * i + 2) 2) i).wr F.PWR_STEP_TBL_WIDTH
      (leAt b (8 * i + 4) 1) i).wr F.PWR_STEP_TBL_LANES (leAt b (8 * i + 5) 1) i) s
  let s := (List.range 15).foldl (fun (s : State) i => s.wr F.THM_CURVE_T_ENTER (leAt b (128 + i) 1) (i + 1)) s
  ({ s with pwr := { s.pwr with margin := leAt b 144 1, ntc := ntcOf b } }).settleStep

/-- The lane programs of an image, by ID. -/
def progsOf (b : List Nat) : Tab LaneProg :=
  (secsTy b 2).foldl (fun (t : Tab LaneProg) x => let p := laneProg (x.data b); Tab.put p.id p t) []

/-- The tables of section 0x0A, whose layout the spec does not give (log 50). -/
def State.useLadder (s : State) (b : List Nat) : State :=
  let sh := (List.range 4).map (fun t => (List.range 16).map (fun j => toSigned 8 (Config.tables b 0 (16 * t + j))))
  { s with die := { s.die with shift := sh, growth := (List.range 96).map (Config.tables b 1) } }

/-- The supplements of an image: one group record each (07 R179; log 60). -/
def suppOf (b : List Nat) : Tab (Nat × Grp) :=
  (secsTy b 11).foldl (fun (t : Tab (Nat × Grp)) x => let r := grpRec (x.data b) 0; Tab.put x.inst (r.1, r.2.1) t) []

/-- Puts an image's live sections into force, the firmware apart: lane programs, threshold tables, the tables of the ladder, supplements, power-limit steps,
trigger table and program assignment (17 R378, R391). -/
def State.useLive (s : State) (b : List Nat) : State :=
  let s := (({ s with cap := { s.cap with progs := progsOf b } }).useSteps (secTy b 12)).useLadder (secTy b 10)
  let thr := (secsTy b 9).flatMap (fun x => thrOf x.inst (x.data b))
  let s := { s with die := { s.die with thr := insSort (fun (x y : Nat × List Int) => x.1 ≤ y.1) thr } }
  let s := { s with rdn := { s.rdn with supp := suppOf b } }
  let s := { s with evr := { s.evr with trig := if (secsTy b 13).isEmpty then none else some (trigsOf (secTy b 13)) } }
  { s with img := { s.img with blockProg := if (secsTy b 14).isEmpty then none else some (leAt (secTy b 14) 0 2) } }

/-- Applies the lane map, section 0x03 (13 R295; 14 R312, R313, R321), with the PFs that it gives; functions stay where a restart at step 3 gives the
same ones. -/
def State.useLaneMap (s : State) (b : List Nat) : State :=
  let old := (s.rd F.PCX_CFG_BIFUR, s.rd F.PCX_CFG_VF_SPLIT)
  let s := (List.range 8).foldl (fun (s : State) p =>
    (s.wr F.ETH_PORT_CFG_MODE (bits (leAt b p 1) 0 2) p).wr F.ETH_PORT_CFG_PMD (bits (leAt b p 1) 2 1) p) s
  let s := ((s.wr F.PCX_CFG_BIFUR (bits (leAt b 8 1) 0 1)).wr F.PCX_CFG_CXL_EN (bits (leAt b 8 1) 1 1)).wr F.PCX_CFG_VF_SPLIT (leAt b 9 1)
  let s := (s.wr F.PCX_CXL_CFG_SIZE (leAt b 10 1)).wr F.PCX_CXL_CFG_PERSIST (leAt b 11 1)
  if !s.fns.isEmpty && old = (s.rd F.PCX_CFG_BIFUR, s.rd F.PCX_CFG_VF_SPLIT) then s
  else { s with fns := s.pfs.foldl (fun (t : Tab FnSt) p => Tab.put (s.pfIdx p) (FnSt.pf p) t) [] }

/-- Applies the DRAM configuration, section 0x04 (15 R329, R332); the channels train from then on (R342). -/
def State.useDram (s : State) (b : List Nat) : State :=
  let f := leAt b 2 1
  let s := (((s.wr F.DRC_CFG_MTS (leAt b 0 2)).wr F.DRC_CFG_RDIMM (bits f 0 1)).wr F.DRC_CFG_X8 (bits f 1 1)).wr F.DRC_CFG_DUAL (bits f 2 1)
  let s := (s.wr F.DRC_CFG_D32G (bits f 3 1)).wr F.DRC_CFG_CAP_GIB (8 * chanGib f)
  let s := (List.range 10).foldl (fun (s : State) i => s.wr F.DRC_BANK_HASH_MASK (leAt b (8 + 8 * i) 8) i) s
  let s := (List.range 8).foldl (fun (s : State) c => s.wr F.DRC_CH_STS_STATE 1 c) s
  { s with img := { s.img with dramCfg := octets b } }

/-- The regulator profile, section 0x08: address, format, exponent, VID base and step, power-up voltage in mV; VOUT_TRANSITION_RATE is written as
5 mV/µs, so that no step slews faster (16 R362; 01 R19; log 68). -/
def State.useVreg (s : State) (b : List Nat) : State :=
  let s := { s with img := { s.img with vreg := [leAt b 0 1, leAt b 1 1, leAt b 2 1, leAt b 4 2, leAt b 6 2, leAt b 8 2] } }
  let v := leAt b 8 2
  let s := s.wr F.PUP_VREG_TARGET_MV v
  ({ s with pup := { s.pup with preRaise := min 850 (v + 15), preHold := 700, runMv := v } }).send (.pmbus 0x27 5)

/-- The structural sections of an image, by type (R378). -/
def structOf (b : List Nat) : Tab (List (List Nat)) := [3, 4, 5, 6, 7, 8].map (fun t => (t, (secsTy b t).map (fun x => x.data b)))

/-- Step 6 (17 R371): an image that passed its checks is put into force, RWL fields lock, and the Puppeteer runs its firmware in bank 0, which
enables the edges that it wants: a free value (16 R356; log 11). -/
def State.useImage (s : State) (b : List Nat) : State :=
  let fw := secTy b 1
  let s := ((s.useLaneMap (secTy b 3)).useDram (secTy b 4)).useVreg (secTy b 8)
  let ps := presetsOf (secTy b 7)
  let s := ps.foldl State.preset s
  let s := { s with die := { s.die with descs := (descsOf (secTy b 5)).getD [] } }
  let s := { s with img := { s.img with struct := structOf b }, ras := { s.ras with damaged := [] } }
  let s := { s with img := { s.img with presets := ps, layout := (layoutOf (secTy b 6)).getD [], store := octets (b.take (imgLen b)), mirror := [fw, []] } }
  let s := { s with pup := { s.pup with itcm := [fw, []], wdtAt := s.el } }
  let s := ((s.wr F.PUP_EDGE_EN_EN (s.drawn 43) 0).draw.wr F.PUP_EDGE_EN_EN (s.draw.drawn 43) 1).draw
  ((s.useLive b).wr F.GEN_FW_FR (leAt b 32 8)).wr F.IMG_RUN_ID_BUILD (leAt b 24 8)

/-! ### Phases and failures (17 R370, R371, R381, R383) -/

/-- ROM recovery: nothing runs but the loader. -/
def State.romRecovery (s : State) (err : Nat) : State :=
  let s := ({ s with img := { s.img with rom := true } }).wr F.IMG_STS_PHASE 3
  (s.wr F.IMG_STS_ERR err).faultLow

/-- Recovery, on a failure of start-up. -/
def State.recovery (s : State) (err : Nat) : State := ((s.wr F.IMG_STS_PHASE 3).wr F.IMG_STS_ERR err).faultLow

/-- The outcome of steps 4 to 6 for a slot: RESULT as IMG_SLOT_STS codes it. `rd` says that every 4 KiB read succeeded within three tries, `spd` that
the DRAM configuration matches what the devices report. -/
def State.slotResult (s : State) (slot : Nat) (rd spd : Bool) : Nat :=
  let b := s.slotBytes slot
  if !rd then 2
  else
    let v := s.verify b
    if v != 1 then v else if s.structOk b spd then 1 else 9

/-- Records a slot's verification (IMG_SLOT_STS). -/
def State.slotShow (s : State) (slot res : Nat) : State :=
  let b := s.slotBytes slot
  let s := s.wr F.IMG_SLOT_STS_RESULT res slot
  if res = 2 || leAt b 0 4 != 0x4E54494D then s
  else (s.wr F.IMG_SLOT_STS_SVN (leAt b 16 4) slot).wr F.IMG_SLOT_STS_LEN (imgLen b) slot

/-- Step 7: hop 0 of every link whose KZnn_SB is latched low leaves DETECT, without the 100 ms (21 R458, R471). -/
def State.latchedHops (s : State) : State :=
  (s.kz.links.filter (fun e => !e.2.sb)).foldl (fun (s : State) e =>
    let s := s.wr F.KZL_STS_SB 1 e.1
    if s.rd F.KZL_CTL_EN e.1 = 1 && s.hopSt e.1 0 = hDetect then s.setHop e.1 0 hReset else s) s

/-- Runs a slot whose checks passed: start-up goes on with step 7. -/
def State.runSlot (s : State) (slot : Nat) (trial : Bool) : State :=
  let s := (s.wr F.IMG_STS_SLOT slot).wr F.IMG_STS_TRIAL (b2n trial)
  let s := ((s.useImage (s.slotBytes slot)).wr F.IMG_STS_STEP 7).latchedHops
  ((s.wr F.IMG_SVN_FUSE s.img.svn).wr F.IMG_SVN_REVOKED s.img.revoked).wr F.FTL_STS_CFG_ERR 0

/-- The other slot runs, or ROM recovery begins (R381). -/
def State.trySecond (s : State) (slot : Nat) (rd spd : Bool) : State :=
  let r := s.slotResult slot rd spd
  let s := (({ s with img := { s.img with second := true, fellBack := true } }).slotShow slot r).wr F.IMG_STS_FALLBACK 1
  if r = 1 then s.runSlot slot false else (s.wr F.IMG_STS_STEP 6).romRecovery 0

/-- Steps 3 to 6: the slot that the directory chooses runs, or else the other one (R375, R381). `rdA`, `rdB`: the slots' reads succeed. -/
def State.selectSlot (s : State) (rdA rdB spd : Bool) : State :=
  let rd := fun (i : Nat) => if i = 0 then rdA else rdB
  let p : State × Nat × Bool := match s.dir with
    | none => (s, 0, false)
    | some d =>
      match d.trial with
      | some t => if d.tries > 0 then (s.writeDir d.active (some t) 0, t, true) else (s.showDir, d.active, false)
      | none => (s.showDir, d.active, false)
  let s := p.1
  let r := s.slotResult p.2.1 (rd p.2.1) spd
  let s := s.slotShow p.2.1 r
  if r = 1 then s.runSlot p.2.1 p.2.2 else s.trySecond (1 - p.2.1) (rd (1 - p.2.1)) spd

/-- Where TIME_NS begins, and its source: 0 unset, 1 restored, 2 estimated (19 R417). -/
def State.timeStart (s : State) : State :=
  let at0 := fun (s : State) (t src : Nat) =>
    ({ s with tim := { s.tim with ofs := (t : Int) - (s.tim.elFx / 2 ^ 32 : Nat) } }).wr F.TIM_STS_SRC src
  if s.img.fromJack then
    match s.pwr.wake with
    | some (_, _, _, t) => at0 s t 2
    | none => at0 s s.tim.jackNs 2
  else
    let stop := match s.stg.image with
      | some i => if i.whole then i.stop else 0
      | none => 0
    match s.tim.saved with
    | some t => at0 s (max t stop) 1
    | none => if s.img.started then at0 s stop 1 else at0 s 0 0

/-- Steps 1 to 6 (17 R371). The environment gives: the fuse check passes, the root key passes its check (12 R288), the boot NOR can be read, the copies of
slots A and B succeed, the DRAM configuration matches the devices. -/
def State.start (s : State) (fuse root nor rdA rdB spd : Bool) : State :=
  let s := (s.timeStart.wr F.CIP_STS_ROOT_OK (b2n root)).wr F.MED_PF_STS_PHASE pfNotArmed
  let s := if s.pwr.tripped then ({ s with pwr := { s.pwr with tripped := false } }).wr F.PWR_STS_TRIP_LAST 1 else s
  if !fuse then (s.wr F.IMG_STS_STEP 1).romRecovery 1
  else if !nor then (s.wr F.IMG_STS_STEP 3).romRecovery 2
  else s.selectSlot rdA rdB spd

/-! ### Fuses (17 R392) -/

/-- Burns the SVN and the revoke bits of the running image, or leaves the burn pending. -/
def State.burnFuses (s : State) : State :=
  let b := s.img.store
  let v := leAt b 16 4
  let own := leAt b 9 1
  let rv := s.img.revoked ||| ((cut 4 (leAt b 20 1)) &&& (15 - 2 ^ (own % 4)))
  let want := v > s.img.svn || rv != s.img.revoked
  if s.rd F.IMG_STS_TRIAL = 1 || !(match s.dir with
      | some d => d.active = s.rd F.IMG_STS_SLOT
      | none => s.rd F.IMG_STS_SLOT = 0) || !want then s
  else if s.rd F.IMG_CTL_ARB_EN = 1 && s.img.vpp then
    let s := { s with img := { s.img with svn := max s.img.svn v, revoked := rv } }
    ((s.wr F.IMG_SVN_FUSE s.img.svn).wr F.IMG_SVN_REVOKED s.img.revoked).wr F.IMG_SVN_PENDING 0
  else s.wr F.IMG_SVN_PENDING 1

/-! ### The formatted user capacity (07 R503) -/

/-- The formatted user capacity in 4 KiB units: the groups' user space less 0.25 %, in whole zones. -/
def State.formatCap (s : State) : Nat :=
  (s.rdn.groups.map (fun e => s.userSpace e.2)).sum * 9975 / 10000 / zoneBlocks * zoneBlocks

end Sys2Proof.Machine
end

