-- ==== Sys2Proof/Machine/Image.lean ====
section
/-! DEFINITION. The meanings of start-up's and the image's commands (17; 18 R403; 21 R463, R465; 16 R361). -/

namespace Sys2Proof.Machine

/-! ### Firmware Download and Commit (17 R388-R391) -/

/-- Bytes laid at their offsets, lowest first; what lies between them is 0 (log 61). -/
def layBytes (l : List (Nat × List Nat)) : List Nat :=
  (insSort (fun (a b : Nat × List Nat) => a.1 ≤ b.1) l).foldl (fun acc e => acc ++ List.replicate (e.1 - acc.length) 0 ++ octets e.2) []

/-- FIRMWARE_DOWNLOAD (17 R388): offset and length in dwords, and the data. -/
def execFirmwareDownload (o : Org) (cid off len : Nat) (data : List Nat) (s : State) : Res :=
  .next (s.admin o cid (fun s =>
    let a := off * 4
    let n := len * 4
    if !isMgr o then s.adm o cid stOpcode
    else if s.pup.exch.isSome then s.adm o cid stSeq
    else if a + n > 15728640 then s.adm o cid stField
    else if s.img.upd.any (fun e => e.1 < a + n && a < e.1 + e.2.length) then s.adm o cid (1, 0x14)
    else
      let d := (List.range n).map (fun i => cut 8 (data.getD i 0))
      (({ s with img := { s.img with upd := s.img.upd ++ [(a, d)] } }).wr F.IMG_UPD_STS_STATE 1).adm o cid stOk))

/-- Ends a Commit: the buffer is emptied whatever the outcome; STATE 5 done, 6 failed with an ERR. -/
def State.commitEnd (s : State) (o : Org) (cid err : Nat) (st : Nat × Nat) : State :=
  let s := { s with img := { s.img with upd := [] } }
  ((s.wr F.IMG_UPD_STS_STATE (if err = 0 then 5 else 6)).wr F.IMG_UPD_STS_ERR err).adm o cid st

/-- A Commit that is refused without an attempt: the buffer is emptied. -/
def State.commitNo (s : State) (o : Org) (cid : Nat) (st : Nat × Nat) : State :=
  ({ s with img := { s.img with upd := [] } }).adm o cid st

/-- The slot that a Commit names: 0 stands for the one not running; none where there is no such slot. -/
def State.commitSlot (s : State) (fs : Nat) : Option Nat :=
  if fs = 0 then some (1 - s.rd F.IMG_STS_SLOT) else if fs ≤ 2 then some (fs - 1) else none

/-- What prohibits a Commit (17 R389). -/
def State.prohibited (s : State) : Bool :=
  s.swapping || s.pup.exch.isSome || s.stopped || s.rd F.IMG_STS_PHASE = 0 || s.rd F.MED_PF_STS_PHASE != pfArmed

/-- The active slot of the directory; the running one where there is no directory. -/
def State.activeSlot (s : State) : Nat :=
  match s.dir with
  | some d => d.active
  | none => s.rd F.IMG_STS_SLOT

/-- A Commit up to its checks of sender, slot and prohibition: `run` is the outcome of action 010 on the running slot. -/
def State.fwCommit (s : State) (o : Org) (cid fs : Nat) (run : Option (Nat × Nat)) (go : State → Nat → State) : State :=
  s.admin o cid (fun s =>
    if !isMgr o then s.adm o cid stOpcode
    else
      match s.commitSlot fs with
      | none => s.commitNo o cid (1, 0x06)
      | some k =>
        if k = s.rd F.IMG_STS_SLOT then s.commitNo o cid (run.getD (1, 0x06))
        else if s.prohibited then s.commitNo o cid (1, 0x13)
        else go s k)

/-- Writes the buffer to a slot (17 R390). `nor` is what the NOR makes of it, as IMG_UPD_STS.ERR codes it: 0 good, 2 erase, 3 program, 4 read-back,
5 compare; what a slot holds after a failure is open. `ok` goes on from a good one. -/
def State.writeSlot (s : State) (o : Org) (cid k nor : Nat) (spd : Bool) (ok : State → List Nat → State) : State :=
  let b := layBytes s.img.upd
  if s.verify b != 1 || !s.structOk b spd then s.commitEnd o cid 1 (1, 0x07)
  else
    let img := b.take (imgLen b)
    let put := fun (s : State) (x : List Nat) =>
      { s with img := { s.img with slots := (List.range 2).map (fun i => if i = k then x else s.img.slots.getD i []) } }
    if 2 ≤ nor && nor ≤ 5 then ((put s (octets (Config.freeBytes 21 s.free))).draw).commitEnd o cid nor (1, 0x07)
    else ok (((put s img).slotShow k 1).wr F.IMG_UPD_STS_BYTES img.length) img

/-- FIRMWARE_COMMIT_CA000 (17 R389, R390). -/
def execFirmwareCommitCa000 (o : Org) (cid fs nor : Nat) (spd : Bool) (s : State) : Res :=
  .next (s.fwCommit o cid fs none (fun s k => s.writeSlot o cid k nor spd (fun s _ => s.commitEnd o cid 0 stOk)))

/-- FIRMWARE_COMMIT_CA001 (17 R389): as 000, and the slot becomes the trial slot for one start. -/
def execFirmwareCommitCa001 (o : Org) (cid fs nor : Nat) (spd : Bool) (s : State) : Res :=
  .next (s.fwCommit o cid fs none (fun s k => s.writeSlot o cid k nor spd (fun s _ => (s.writeDir s.activeSlot (some k) 1).commitEnd o cid 0 stOk)))

/-- FIRMWARE_COMMIT_CA010 (17 R389): the image in the slot is verified and becomes the trial; on the running slot no effect. -/
def execFirmwareCommitCa010 (o : Org) (cid fs : Nat) (spd : Bool) (s : State) : Res :=
  .next (s.fwCommit o cid fs (some stOk) (fun s k =>
    let b := s.slotBytes k
    let v := s.verify b
    let r := if v = 1 && !s.structOk b spd then 9 else v
    let s := s.slotShow k r
    if r != 1 then s.commitEnd o cid 1 (1, 0x07) else (s.writeDir s.activeSlot (some k) 1).commitEnd o cid 0 stOk))

/-- Whether an image's lane programs may replace those loaded: one that differs needs a higher epoch (05 R130; 17 R389). -/
def State.progsFit (s : State) (b : List Nat) : Bool :=
  (progsOf b).all (fun e => match Tab.find e.1 s.cap.progs with
    | some p => p = e.2 || p.epoch < e.2.epoch
    | none => true)

/-- Streams whose frames still run under an older program than their present one, where an image changes that again (05 R140). -/
def State.oldBusy (s : State) (b : List Nat) : List Stream :=
  (s.cap.streams.map (·.2)).filter (fun x => (Tab.find x.cur.id (progsOf b)).any (fun p => p != x.cur) && (List.range 64).any (fun l => bit x.mask l && s.laneOld l))

/-- FIRMWARE_COMMIT_CA011 (17 R389, R391; 16 R359 step 1): as 000; then the store takes the verified copy, whose firmware a DMA channel
copies into the alternate bank next. The firmware writes GO and COMMIT after that. -/
def execFirmwareCommitCa011 (o : Org) (cid fs nor : Nat) (spd : Bool) (s : State) : Res :=
  .next (s.fwCommit o cid fs none (fun s k =>
    let b := layBytes s.img.upd
    if !(s.oldBusy b).isEmpty then s.commitEnd o cid 1 (1, 0x07)
    else if !s.progsFit b then s.commitEnd o cid 1 (1, 0x07)
    else s.writeSlot o cid k nor spd (fun s img =>
      let fw := secTy img 1
      let a := 1 - s.rd F.PUP_STS_BANK
      let put := fun (l : List (List Nat)) => (List.range 2).map (fun i => if i = a then fw else l.getD i [])
      let s := { s with img := { s.img with store := octets img, mirror := put s.img.mirror, upd := [] }, ras := { s.ras with damaged := [] } }
      let s := { s with pup := { s.pup with exch := some (k, o, cid) } }
      -- the Firmware Activation Starting notice (20 R444), laid out as the base specification has it
      let s := s.allCtls.foldl (fun (s : State) c => s.notify c 2 0x01 0x03) s
      (s.wr F.PUP_STS_SWAP 0).wr F.IMG_UPD_STS_STATE 4)))

/-- A running stream takes its program's new epoch; frames that arrived before keep theirs (05 R140). -/
def State.newEpochs (s : State) : State :=
  s.cap.streams.foldl (fun (s : State) e =>
    match Tab.find e.2.cur.id s.cap.progs with
    | none => s
    | some p =>
      if p = e.2.cur then s
      else
        let s := s.putStream e.1 { e.2 with cur := p }
        (List.range 64).foldl (fun (s : State) l =>
          if bit e.2.mask l then (s.wr F.FRL_LSTS_BANK (1 - s.rd F.FRL_LSTS_BANK l) l).wr F.FRL_LSTS_EPOCH p.epoch l else s) s) s

/-- Whether an image's structural sections are those in force (17 R391). -/
def State.sameStruct (s : State) (b : List Nat) : Bool := s.img.struct = structOf b

/-- SWAP_COMMIT (16 R361; 17 R391): the firmware writes COMMIT. The old bank becomes the alternate; a Commit that asked for the exchange activates the
image's other live sections, writes the directory and completes. -/
def execSwapCommit (s : State) : Res :=
  .next (
    if !s.swapping || s.stopped then s
    else
      let s := s.wr F.PUP_STS_SWAP 0
      match s.pup.exch with
      | none => s
      | some (k, o, cid) =>
        let b := s.img.store
        let same := s.sameStruct b
        let s := ({ s with pup := { s.pup with exch := none } }).useLive b
        let s := ((s.newEpochs.wr F.IMG_STS_SLOT k).wr F.GEN_FW_FR (leAt b 32 8)).wr F.IMG_RUN_ID_BUILD (leAt b 24 8)
        let s := if same then s.writeDir k none 0 else s.writeDir s.activeSlot (some k) 1
        s.commitEnd o cid 0 (if same then stOk else (1, 0x0B)))

/-! ### The start (17 R371; 18 R403; 20 R436) -/

/-- Steps 1 and 2: fused repairs, and soft spare rows, at most 16 for a memory; a row of a shared memory that none can replace ends in ROM recovery
(20 R436). `bad` lists units, by kind and index, whose own memory has such a row. -/
def State.repair (s : State) (fusedRows : Nat) (soft bad : List (Nat × Nat)) : State × Bool :=
  let s := { s with ras := { s.ras with softRows := soft.map (fun (e : Nat × Nat) => (e.1, min e.2 16)) } }
  let s := (s.wr F.RAS_REPAIR_FUSED fusedRows).wr F.RAS_REPAIR_SOFT (sat 16 (soft.map (fun e => min e.2 16)).sum)
  (bad.foldl (fun (s : State) e => s.fenceUnit e.1 e.2 5) s, soft.all (fun e => 8 < e.1 || e.2 ≤ 16))

/-- POR_N_FALL (00 R7; 17 R370; 06 R157, R164): every field returns to its reset value. Where a flush had not reached DONE, `heads` and `good` are the
segments of its image with a header and with a matching CRC, as masks. -/
def execPorNFall (heads good : Nat) (s : State) : Res :=
  .next (
    if !s.img.por then s
    else
      let clean := if s.ready || s.img.replayed then (s.fn 0).any (fun f => f.shst = 2) else s.img.clean
      let r := s.powerOff heads good
      let r := { r with img := { r.img with por := false, fromJack := false, clean := clean, prod := false } }
      ({ r with pwr := { r.pwr with jack := false, wake := none } }).faultLow)

/-- POR_N_RISE (17 R371; 18 R412; 21 R459): steps 1 to 6. `test`: TEST_MODE is high; `hot`: an on-die sensor reads 110 °C or more, for which step 1
waits after a fixed shutdown, and the row comes again; the rest is what the start finds. -/
def execPorNRise (test hot fuse root nor rdA rdB spd : Bool) (fusedRows : Nat) (soft bad : List (Nat × Nat)) (noCal : List Nat) (s : State) : Res :=
  .next (
    if s.img.por || (s.pwr.tripped && hot) then s
    else
      let s := { s with img := { s.img with por := true, prod := test, startAt := s.el, noCal := noCal } }
      if test then s
      else
        let p := s.repair fusedRows soft bad
        p.1.start (fuse && p.2) root nor rdA rdB spd)

/-- JACK_EXIT (18 R402, R403; 17 R371): after a wake event the rails are back and the core is released. The wake record is written at step 1; the Jack
image is a complete flush image. -/
def execJackExit (fuse root nor rdA rdB spd : Bool) (fusedRows : Nat) (soft bad : List (Nat × Nat)) (noCal : List Nat) (s : State) : Res :=
  .next (
    match s.pwr.jack, s.pwr.wake with
    | true, some (code, idx, rsn, t) =>
      let r := s.powerOff 31 31
      let r := { r with img := { r.img with por := true, fromJack := true, startAt := r.el, noCal := noCal }, pwr := { r.pwr with jack := false } }.faultLow
      let r := ((r.wr F.PWR_WAKE_SRC_CODE code).wr F.PWR_WAKE_SRC_INDEX idx).wr F.PWR_WAKE_SRC_FROM 4
      let r := ((r.wr F.PWR_WAKE_SRC_REASON rsn).wr F.PWR_WAKE_TIME_TIME t).wr F.PWR_STS_JACK_WAKE 1
      let p := (r.wr F.GEN_STS_CAUSE 1).repair fusedRows soft bad
      let r := p.1.start (fuse && p.2) root nor rdA rdB spd
      { r with pwr := { r.pwr with wake := none } }
    | _, _ => s)

/-- Slice 0 as the first start after format leaves it (02 R62). -/
def State.slice0 (s : State) : State :=
  let s := ((s.wr F.SLI_STS_STATE slActive 0).wr F.SLI_WEIGHT_WEIGHT 8192 0).wr F.SLI_WEIGHT_LCMASK 0xFF 0
  (s.wr F.SLI_RES_QP 64 0).limits 0

/-- Admin commands and NVMe-MI are answered from now on; PF0's admin queue exists (17 R384). -/
def State.adminUp (s : State) : State :=
  let s := if (Tab.find 0 s.sl.qs).isNone then
      (match s.lowBind 0 with
        | some b => s.adminQueue 0 0 b
        | none => s)
    else s
  let s := ({ s with img := { s.img with admReady := true } }).wr F.GEN_STS_MI_AVAIL (b2n (!s.stopped))
  let s := (s.wr F.GEN_STS_RST_PEND 0).wr F.IMG_TIME_ADMIN_MS (sat 16 ((s.el - s.img.startAt) / 1000000))
  let s := { s with gen := { s.gen with inReset := false } }
  let s := if s.img.fellBack then ({ s with img := { s.img with fellBack := false } }).raise evFallback 0xFFFF (s.rd F.IMG_STS_SLOT) else s
  s.tryReady 0

/-- Recovery where nothing of the system area could be read: slice 0 exists from start-up (02 R62), admin commands are answered. -/
def State.bareRecovery (s : State) (err : Nat) : State := ((s.slice0).recovery err).adminUp

/-- DRAM_TRAINING_DONE (15 R342): `good` has a bit for each channel that trained. -/
def execDramTrainingDone (good : Nat) (s : State) : Res :=
  .next (
    if !s.tables || s.rd F.IMG_STS_PHASE != 0 || s.rd F.DRC_FILL_DONE = 1 || s.rd F.DRC_CH_STS_STATE 0 ≥ 2 then s
    else
      let ok := fun (c : Nat) => bit good c && !s.img.noCal.contains (12 + c / 4)
      let s := (List.range 8).foldl (fun (s : State) c => s.wr F.DRC_CH_STS_STATE (if ok c then 2 else 3) c) s
      if (List.range 8).all ok then s else s.bareRecovery 3)

/-- DRAM_FILL_DONE (15 R342; 11 R262; 10 R239): all DRAM holds zeros; the ports are served, the map cache is enabled, corrections are loaded. -/
def execDramFillDone (s : State) : Res :=
  .next (
    if !s.tables || s.rd F.IMG_STS_PHASE != 0 || s.rd F.DRC_FILL_DONE = 1 || !(List.range 8).all (fun c => s.rd F.DRC_CH_STS_STATE c = 2) then s
    else
      let s := ((s.wr F.DRC_FILL_PCT 100).wr F.DRC_FILL_DONE 1).wr F.IMG_STS_STEP 8
      let s := ((s.wr F.MCACHE_CTL_EN 1).wr F.MCACHE_STS_STATE 1).wr F.MCACHE_STS_STALE 0
      { s with die := { s.die with corr := s.die.corrSaved }, pcx := { s.pcx with win := [] }, drc := { s.drc with poison := [] } })

/-- Fields that the journal and the system area hold are in the register file again; a flush counted since POR_N counts too, and the
trip that stopped the controller (18 R412). -/
def State.restoreSys (s : State) : State :=
  let n := s.rd F.MED_PF_CNT_FLUSHES
  let s := if s.img.sys.isEmpty then s
    else ((s.img.sys.foldl (fun (s : State) e => { s with regs := Regs.set e.1 e.2 s.regs }) (s.wr F.MED_PF_CNT_FLUSHES 0)).inc F.MED_PF_CNT_FLUSHES 0 0 n)
  let s := { s with img := { s.img with sys := [] } }
  if s.img.warm || s.img.keepDram || s.rd F.PWR_STS_TRIP_LAST = 0 then s else (s.inc F.THM_TRIP_COUNT).wr F.THM_TRIP_SENS s.pwr.tripBy

/-- ADMIN_READY (17 R371 step 9, R384; 06 R164 step 1; 02 R62): the flush image is restored, the snapshots are loaded. `snap`: they can be read. -/
def execAdminReady (snap : Bool) (s : State) : Res :=
  .next (
    if !s.tables || s.rd F.IMG_STS_PHASE != 0 || s.img.admReady || s.rd F.DRC_FILL_DONE = 0 then s
    else if !snap then (s.wr F.IMG_STS_STEP 9).bareRecovery 4
    else
      let again := s.img.warm || s.img.keepDram
      let s := (if s.img.started || again || (s.sx 0).used then s.restoreSys
        else let s := s.restoreSys.slice0; s.putSx 0 { s.sx 0 with used := true }).wr F.IMG_STS_STEP 10
      let s := if again then s else { s with pcx := { s.pcx with win := s.pcx.img } }
      s.adminUp)

/-! ### Replay and the layout check (11 R268; 06 R164; 17 R382) -/

/-- Whether two layouts place every zone alike (17 R382). -/
def Grp.alike (a b : Grp) : Bool := a.links = b.links && a.dies = b.dies && a.k = b.k && a.perm = b.perm

/-- Whether a group holds data in the journal. -/
def State.holds (s : State) (g : Nat) : Bool :=
  s.zn.zx.any (fun e => !e.2.rows.isEmpty && s.rd F.ZON_ENT0_DGROUP e.1 = g) || s.ftl.crows.any (fun e => e.2.dg = g)

/-- The layout that a group takes from the image: a layout that a reshape left stands in its place until an image has a matching entry (07 R180). -/
def State.layoutFor (s : State) (g : Nat) : Option Grp :=
  match Tab.find g s.rdn.kept, Tab.find g s.img.layout with
  | some k, some i => if k.alike i then some i else some k
  | some k, none => some k
  | none, i => i

/-- Whether the image's layout fits the journal's, and the zoned namespaces that its groups host (07 R168). -/
def State.layoutFits (s : State) : Bool :=
  s.rdn.groups.all (fun e => !s.holds e.1 || (s.layoutFor e.1).any (fun g => g.alike e.2))
    && (List.range 64).all (fun g => ((s.layoutFor g).map (s.zonedFits g)).getD true)

/-- The layout of the image comes into force. -/
def State.useLayout (s : State) : State :=
  let gs := (List.range 64).filterMap (fun g => (s.layoutFor g).map (fun l => (g, l)))
  let ks := s.rdn.kept.filter (fun e => !(Tab.find e.1 s.img.layout).any (fun i => e.2.alike i))
  { s with rdn := { s.rdn with groups := gs, kept := ks } }

/-- The entries of a restored tail take effect (11 R268). -/
def State.replayTail (s : State) : State :=
  let es := s.ftl.jtail
  let s := { s with ftl := { s.ftl with jtail := [], undo := [], zundo := [] } }
  es.foldl State.persist s

/-- What became of the last power loss (06 R164, R165): 1 a complete image, 2 a partial one, 3 none; unsafe where it was not complete. -/
def State.lossOutcome (s : State) : State :=
  if s.img.fromJack || !s.img.started || s.img.warm then s
  else
    let k := match s.stg.image with
      | some i => if i.whole then 1 else 2
      | none => 3
    if s.img.clean && k = 3 then s
    else
      let s := s.wr F.MED_PF_STS_LAST k
      if k = 1 then s
      else (({ s with ras := { s.ras with unsafeCnt := s.ras.unsafeCnt + 1 } }).inc F.MED_PF_CNT_UNSAFE).raise evUnsafe 0xFFFF k

/-- Step 11: an image that ran as a trial becomes the active one (17 R375). -/
def State.step11 (s : State) : State :=
  let s := s.wr F.IMG_STS_STEP 11
  if s.rd F.IMG_STS_TRIAL = 1 && s.activeSlot != s.rd F.IMG_STS_SLOT then s.writeDir (s.rd F.IMG_STS_SLOT) none 0 else s

/-- Computes the running parity of an active zone's page-rows that fill from its committed data (06 R164 step 3). -/
def State.sumPar (s : State) (h : Nat) : State :=
  let k := s.rd F.ZON_ENT3_K h
  let r := rowOf k (s.cend h)
  let id : RowId := ⟨false, h, r.1⟩
  match s.srow id with
  | none => s
  | some x =>
    let us := (List.range (min r.2 (3 * k * pageBlocks))).map (fun i => r.2 - 1 - i)
    let open0 := us.filter (fun u =>
      let w := winOf (placeIn k u).2
      !x.direct && !s.pageOn id x w.1 w.2 (List.range x.mem.length) && !s.stg.par.any (fun e => e.row = id && e.page = w.1 * winPages + w.2))
    let pgs := (open0.map (fun u => let w := winOf (placeIn k u).2; w.1 * winPages + w.2)).dedup
    let sum := fun (pg : Nat) =>
      (open0.filter (fun u => (let w := winOf (placeIn k u).2; w.1 * winPages + w.2) = pg)).foldl (fun (e : ParSlot) u =>
        let v := s.getUd (udZone h (r.1 * (k * memBlocks) + u))
        let i := (placeIn k u).2 % winBlocks % pageBlocks
        { e with p := e.p.modify i (Nat.xor v), q := e.q.modify i (Nat.xor (gfMul (gfPow (placeIn k u).1) v)) })
        ⟨id, pg, List.replicate pageBlocks 0, List.replicate pageBlocks 0⟩
    { s with stg := { s.stg with par := s.stg.par ++ pgs.map sum } }

/-- Computes again the parity of every active zone that power took (06 R164 step 3). -/
def State.sumPars (s : State) : State := (s.zn.zx.map (·.1)).foldl (fun (s : State) h => if isActive (s.zst h) then s.sumPar h else s) s

/-- Whether a program that start-up queued again still runs (06 R164 step 5). -/
def State.completing (s : State) : Bool := s.die.dies.any (fun e => e.2.ops.any (fun o => o.kind != .read && o.kind != .erase))

/-- The image is consumed once every interrupted page-row and wordline is complete (06 R164 steps 5 and 6). -/
def State.consume (s : State) : State :=
  if s.img.replayed && !s.completing then { s with stg := { s.stg with image := none } } else s

/-- The units that the image holds with a poison mark are taken as uncorrectable (20 R447). -/
def State.unpoison (s : State) : State :=
  ((s.stg.image.map (·.poison)).getD []).foldl (fun (s : State) (e : RowId × Nat) => (s.sramUe 0 0).stgUe e.1 e.2) s

/-- Recovery of what the flush kept (06 R164 steps 3 to 5): parity is computed again, interrupted programs run again. -/
def State.recovered (s : State) : State :=
  let s := s.lossOutcome.useLayout
  let s := if s.img.started then s else { s with zn := { s.zn with cap := s.formatCap } }
  let s := if s.img.warm then s else s.sumPars.unpoison.requeue
  let s := { s with img := { s.img with replayed := true } }
  if s.img.target != 0 then
    let t := s.img.target
    let s := ({ s with img := { s.img with target := 0 } }).wr F.IMG_STS_PHASE (t + 1)
    if t = 1 then s.faultHigh else s
  else
    let s := if s.rd F.MED_PF_STS_PHASE = pfArmed || s.rd F.MED_PF_STS_PHASE = pfNotArmed then s.armed else s
    if s.rd F.MED_PF_STS_PHASE = pfArmed then s.step11 else s

/-- JOURNAL_REPLAY_DONE (11 R268; 06 R164; 17 R371 step 10, R381, R382): replay ends, `ok` unless it met another fault; `ms` is its duration. Where the
layout does not fit, the other slot is tried once, read as `rd` says, with DRAM kept. -/
def execJournalReplayDone (ok : Bool) (ms : Nat) (rd spd : Bool) (s : State) : Res :=
  .next (
    if !s.tables || s.rd F.IMG_STS_PHASE != 0 || !s.img.admReady || s.img.replayed then s
    else if !ok then s.recovery 5
    else
      let s := (if s.img.warm then s else s.replayTail).wr F.IMG_TIME_REPLAY_MS (sat 16 ms)
      if s.layoutFits then s.recovered
      else
        let k := s.rd F.IMG_STS_SLOT
        let s := s.wr F.IMG_SLOT_STS_RESULT 10 k
        if s.img.second then s.recovery 6
        else ({ s with img := { s.img with admReady := false, keepDram := true } }).trySecond (1 - k) rd spd)

/-- FLUSH_BANK_ERASED (06 R158, R164 step 6; 17 R371 step 11): a bank that holds no image that is still to be consumed is erased. -/
def execFlushBankErased (b : Nat) (s : State) : Res :=
  .next (
    let s := s.consume
    let held := (s.stg.image.map (fun (i : FlushImg) => decide (i.bank = b))).getD false
    if b > 1 || held || s.dead then s
    else
      let s := { s with stg := { s.stg with erased := s.stg.erased.set b true } }
      if s.rd F.MED_PF_STS_PHASE != pfNotArmed then s
      else
        let s := s.armed
        if s.img.replayed && s.rd F.IMG_STS_PHASE = 0 then s.step11 else s)

/-- ADMISSION_OPEN (17 R371 step 12, R392; 21 R463): with PFAIL_N high for 10 ms the controller is in service. -/
def execAdmissionOpen (s : State) : Res :=
  .next (
    let s := s.consume
    if !s.tables || s.rd F.IMG_STS_PHASE != 0 || !s.img.replayed || !s.img.pfailN || s.rd F.MED_PF_STS_PHASE != pfArmed || s.stg.image.isSome then s
    else
      let s := (s.wr F.IMG_STS_STEP 12).wr F.IMG_STS_PHASE 1
      let s := s.wr F.IMG_TIME_READY_MS (sat 16 ((s.el - s.img.startAt) / 1000000))
      let s := { s with stg := { s.stg with commits := true }, img := { s.img with started := true, clean := false } }
      let s := { s with pwr := { s.pwr with busyAt := s.el }, sl := { s.sl with epochAt := s.el } }
      ((s.faultHigh.tryAll).burnFuses).rshpNext)

/-! ### The ROM's loader (17 R383) and REFCLK (21 R465) -/

/-- UART_LOADER_BLOCK (17 R383). -/
def execUartLoaderBlock (off : Nat) (data : List Nat) (crc : Nat) (s : State) : Res :=
  .next (
    if !s.img.rom then s
    else if data.length = 4096 && off != 0xFFFFFFFF && crc32c (toLe 4 off ++ octets data) = crc then
      let l := s.img.load.filter (fun e => e.1 != off)
      ({ s with img := { s.img with load := l ++ [(off, octets data)] } }).send (.uart 0x06)
    else s.send (.uart 0x15))

/-- UART_LOADER_END (17 R383): slot A is written, read back and verified; `good` says that the NOR took it. On 0x06 the directory is written and start-up
begins at step 1. -/
def execUartLoaderEnd (good fuse root nor rdA rdB spd : Bool) (s : State) : Res :=
  .next (
    if !s.img.rom then s
    else
      let b := layBytes s.img.load
      let s := { s with img := { s.img with load := [] } }
      let s := { s with img := { s.img with slots := [if good then b else octets (Config.freeBytes 21 s.free), s.img.slots.getD 1 []] } }
      let v := s.verify (s.slotBytes 0)
      let s := s.slotShow 0 v
      if !good || v != 1 then (s.draw).send (.uart 0x15)
      else
        let s := (s.send (.uart 0x06)).writeDir 0 none 0
        let s := { s with img := { s.img with rom := false, second := false, fellBack := false } }
        ((s.wr F.IMG_STS_PHASE 0).wr F.IMG_STS_ERR 0).start fuse root nor rdA rdB spd)

/-- REFCLK_LOSS (21 R465, R471): every island fails; FAULT_N stays low until POR_N. Nothing answers; staging stays as it is, and a fall of PFAIL_N still
flushes it. -/
def execRefclkLoss (s : State) : Res :=
  .next (
    if s.dead || !s.ready then s
    else
      let s := (((s.dropCmds (fun _ => true)).capDrop (fun _ => true)).stopsGone).physOff
      let ds := s.die.dies.map (fun (e : Nat × DieSt) => (e.1, e.2.off))
      let s := { s with die := { s.die with cws := [], dies := ds }, stg := { s.stg with commits := false } }
      let s := { s with img := { s.img with refLost := true, admReady := false } }
      (s.wr F.IMG_STS_PHASE 0).faultLow)

end Sys2Proof.Machine
end

