-- ==== Sys2Proof/Machine/Namespaces.lean ====
section
/-! DEFINITION. The meanings of the namespace commands (04 R86-R88, R102, R106, R108, R502; 12 R282, R289, R292). -/

namespace Sys2Proof.Machine

/-- Namespace Insufficient Capacity. -/
def stNsCap : Nat × Nat := (1, 0x15)
/-- Namespace Identifier Unavailable. -/
def stNsId : Nat × Nat := (1, 0x16)
/-- Namespace Already Attached. -/
def stAttached : Nat × Nat := (1, 0x18)
/-- Namespace Not Attached. -/
def stNotAttached : Nat × Nat := (1, 0x1A)

/-- Namespaces of the device. -/
def nsMax : Nat := 4096

/-- Zone handles of the device (04 R108). -/
def handleMax : Nat := 524224

/-- The lowest-based run of free zone handles that holds `n` zones (R108). -/
def State.freeRun (s : State) (n : Nat) : Option Nat :=
  let used := insSort (fun (a b : Nat × Nat) => a.1 ≤ b.1) ((s.zn.ns.filter (fun e => e.2.zoned)).map (fun e => (e.2.base, e.2.base + e.2.zones)))
  let b := used.foldl (fun (acc : Option Nat × Nat) e =>
    match acc.1 with
    | some x => (some x, acc.2)
    | none => if acc.2 + n ≤ e.1 then (some acc.2, acc.2) else (none, max acc.2 e.2)) (none, 0)
  match b.1 with
  | some x => some x
  | none => if b.2 + n ≤ handleMax then some b.2 else none

/-- The NSID a new namespace of a slice takes (R502). -/
def State.freeNsid (s : State) (slice : Nat) : Option Nat :=
  ((List.range nsMax).map (· + 1)).find? (fun i => (Tab.find i s.zn.ns).isNone && !s.cip.retired.contains (slice, i))

/-- Blocks of all namespaces, or of the conventional ones (R502, R106). -/
def State.nsTotal (s : State) (convOnly : Bool) : Nat :=
  ((s.zn.ns.filter (fun e => !convOnly || !e.2.zoned)).map (fun e => e.2.size)).sum

/-- What is wrong with a create: the status, where it fails (R87, R99, R102, R106, R502; 12 R282). -/
def State.nsFault (s : State) (slice : Nat) (zoned : Bool) (nsze ncap lbaf dg cipher : Nat) : Option (Nat × Nat) :=
  if (zoned && (nsze % zoneBlocks != 0 || ncap != nsze)) || nsze = 0 || lbaf > 2 || cipher > 2 || dg ≥ 64
      || !bit (s.rd F.SLI_DGMAP_MAP slice) dg || (zoned && !((Tab.find dg s.rdn.groups).any (fun (g : Grp) => g.k = 4 || g.k = 8 || g.k = 16)))
      || (cipher != 0 && ((s.sx slice).keySlots = 0 || s.rd F.CIP_STS_ROOT_OK = 0)) then some stField
  else if s.rd F.SLI_NS_USE slice ≥ s.rd F.SLI_NS_ALLOC slice || (s.freeNsid slice).isNone then some stNsId
  else if s.nsTotal false + nsze > s.zn.cap || (!zoned && (s.nsTotal true + nsze) * 10 > s.zn.cap)
      || (zoned && (s.freeRun (nsze / zoneBlocks)).isNone) then some stNsCap
  else none

/-- The zones of a new namespace are Empty, with their RESETS at 0 (R108). -/
def State.newZones (s : State) (slice nsid base zones dg : Nat) : State :=
  (List.range zones).foldl (fun (s : State) i =>
    let h := base + i
    let s := ((s.wr F.ZON_ENT0_STATE znEmpty h).wr F.ZON_ENT0_SLICE slice h).wr F.ZON_ENT0_DGROUP dg h
    ((s.wr F.ZON_ENT0_NSID nsid h).wr F.ZON_ENT1_ZSLBA (i * zoneBlocks) h).zseq h) s

/-- NAMESPACE_CREATE (R502): sizes are in 4 KiB blocks; `dg` and `cipher` are bytes 3,072 and 3,073 of the data structure. The new NSID
comes in dword 0. -/
def execNamespaceCreate (o : Org) (cid : Nat) (zoned : Bool) (nsze ncap lbaf dg cipher : Nat) (s : State) : Res :=
  .next (s.admin o cid (fun s =>
    let slice := (s.sliceOf o).getD 0
    match s.nsFault slice zoned nsze ncap lbaf dg cipher with
    | some st => s.adm o cid st
    | none =>
      let id := (s.freeNsid slice).getD 0
      let zones := if zoned then nsze / zoneBlocks else 0
      let base := if zoned then (s.freeRun zones).getD 0 else 0
      let s := { s with zn := { s.zn with ns := Tab.put id (Ns.mk slice zoned nsze lbaf dg base zones cipher []) s.zn.ns } }
      let s := ((s.newZones slice id base zones dg).addw F.SLI_NS_USE 1 slice).wr F.ZON_CAP_HANDLES s.handles
      (s.putGen slice id (s.keyGen slice id)).adm o cid stOk id))

/-- Namespaces that a command of a sender names: one, or with 0xFFFFFFFF all of them. A slice other than slice 0 reaches its own
(log 51). -/
def State.named (s : State) (o : Org) (nsid : Nat) : List (Nat × Ns) :=
  s.zn.ns.filter (fun e => (e.1 = nsid || nsid = 0xFFFFFFFF) && (isMgr o || some e.2.slice = s.sliceOf o))

/-- The pairs of slice and NSID of some namespaces. -/
def pairsOf (l : List (Nat × Ns)) : List (Nat × Nat) := l.map (fun e => (e.2.slice, e.1))

/-- NAMESPACE_DELETE (R502; 12 R289, R292): the namespaces go when their advances are persistent. -/
def execNamespaceDelete (o : Org) (cid nsid : Nat) (s : State) : Res :=
  .next (if s.tailFull then s else s.admin o cid (fun s =>
    let l := s.named o nsid
    if l.isEmpty && nsid != 0xFFFFFFFF then s.adm o cid stNs
    else s.beginErase ⟨o, cid, .delete, pairsOf l⟩))

/-- NAMESPACE_ATTACHMENT (R502): attaches a namespace to a list of controllers, or detaches it from them. -/
def execNamespaceAttachment (o : Org) (cid nsid : Nat) (detach : Bool) (ctls : List Nat) (s : State) : Res :=
  .next (s.admin o cid (fun s =>
    match (if nsid = 0xFFFFFFFF then none else (s.named o nsid).head?) with
    | none => s.adm o cid stNs
    | some (id, n) =>
      let cs := ctls.map (fun k => if k = 0 then Ctl.mgr else if k < 256 then Ctl.fn k else Ctl.fab (k - 256))
      if detach then
        if cs.all (fun c => n.ctls.contains c) then
          { s with zn := { s.zn with ns := Tab.put id { n with ctls := n.ctls.filter (fun c => !cs.contains c) } s.zn.ns } }.adm o cid stOk
        else s.adm o cid stNotAttached
      else if cs.any (fun c => n.ctls.contains c) then s.adm o cid stAttached
      else { s with zn := { s.zn with ns := Tab.put id { n with ctls := n.ctls ++ cs } s.zn.ns } }.adm o cid stOk))

/-- FORMAT_NVM (12 R289, R292): every namespace named is emptied under a new generation, with a new LBA format. -/
def execFormatNvm (o : Org) (cid nsid lbaf : Nat) (s : State) : Res :=
  .next (if s.tailFull then s else s.admin o cid (fun s =>
    let l := s.named o nsid
    if l.isEmpty then s.adm o cid stNs
    else if lbaf > 2 || l.any (fun e => s.genFull e.2.slice e.1) then s.adm o cid stField
    else s.beginErase ⟨o, cid, .format lbaf, pairsOf l⟩))

/-- SANITIZE_CRYPTO_ERASE (12 R289): every namespace, from slice 0. What the data reads as afterwards is what a format leaves. -/
def execSanitizeCryptoErase (o : Org) (cid : Nat) (s : State) : Res :=
  .next (if s.tailFull then s else s.admin o cid (fun s =>
    if !isMgr o then s.adm o cid stOpcode
    else if s.zn.ns.any (fun e => s.genFull e.2.slice e.1) then s.adm o cid stField
    else s.beginErase ⟨o, cid, .sanitize, pairsOf s.zn.ns⟩))

/-- The LBA formats as Identify lists them: data and metadata bytes of each index (R86). -/
def lbaFormats : List Nat := [4096, 0, 4096, 8, 4096, 64]

/-- How metadata may be transferred: 1 with extended LBAs, 2 in a separate buffer too; on fabrics with extended LBAs only (R86). -/
def metaCaps (o : Org) : Nat := match o with
  | .fab _ => 1
  | _ => 3

/-- The Identify data of a namespace: NSZE, NCAP, format, die group, cipher setting, LBA formats, metadata capabilities, protection information
(none), and for a zoned one zone size, zone capacity, MAR and MOR, OZCS with Read Across Zone Boundaries, Reset and Finish Recommended Limits
(not used), and the size of the zone descriptor extension (R86). -/
def State.identNs (s : State) (o : Org) (n : Ns) : List Nat :=
  let mar := s.rd F.SLI_AZ_LIMIT n.slice + 2 ^ 32 - 1
  [n.size, n.size, n.lbaf, n.dg, n.cipher] ++ lbaFormats ++ [metaCaps o, 0]
    ++ (if n.zoned then [zoneBlocks, zoneBlocks, cut 32 mar, cut 32 mar, 1, 0, 0, 0] else [])

/-- The NVMe power states of 18 R398: flags (non-operational), maximum power in mW, entry and exit latency in µs. -/
def powerStates : List (List Nat) :=
  [[0, 345000, 0, 0], [0, 270000, 0, 0], [0, 195000, 0, 0], [1, 40000, 100, 200], [1, 12000, 5000, 20000], [1, 350, 3000000, 6000000]]

/-- What Identify says of power and heat: APSTA, for PF0; WCTEMP and CCTEMP in kelvin; no HCTMA; NPSS and the power states, PS5 only with JACK_EN (18
R398, R413). -/
def State.identPower (s : State) (o : Org) : List Nat :=
  let n := 5 + s.rd F.PWR_CFG_JACK_EN
  [b2n (isMgr o), 105 + 273, 120 + 273, 0, n - 1] ++ (powerStates.take n).flatten

/-- The Identify data of the controller: VID, SN, FR, MDTS, VS, ZASL, TNVMCAP in bytes, what of it no namespace holds, and the asynchronous events
it supports, Zone Descriptor Changed Notices among them (R86); on fabrics IOCCSZ and IORCSZ (13 R304). -/
def State.identCtl (s : State) (o : Org) : List Nat :=
  [s.rd F.GEN_ID_VENDOR, s.rd F.GEN_SERIAL_SERIAL, leAt s.img.store 32 8, 9, 0x00020000, 9, s.zn.cap * 4096,
    (s.zn.cap - s.nsTotal false) * 4096, 2 ^ 27] ++ (match o with
    | .fab _ => [1028, 1]
    | _ => []) ++ s.identPower o

/-- IDENTIFY (R86, R88; 07 R503; 14 R318): the data structures the rules give values for: CNS 0 and 5 a namespace, 1 and 6 the
controller, 2 the active namespace list. -/
def execIdentify (o : Org) (cid cns nsid : Nat) (s : State) : Res :=
  .next (s.admin o cid (fun s =>
    match cns with
    | 0 | 5 =>
      match (s.named o nsid).head? with
      | some e => s.adm o cid stOk 0 (s.identNs o e.2)
      | none => s.adm o cid stNs
    | 1 | 6 => s.adm o cid stOk 0 (s.identCtl o)
    | 2 => s.adm o cid stOk 0 ((s.zn.ns.filter (fun e => nsid < e.1 && (isMgr o || some e.2.slice = s.sliceOf o))).map (·.1))
    | _ => s.adm o cid stField))

end Sys2Proof.Machine
end

