-- ==== Sys2Proof/Machine/Layout.lean ====
section
/-! DEFINITION. The meanings of Layout Management's actions (07 R178-R181, R503; 08 R204). -/

namespace Sys2Proof.Machine

/-- Data that a group holds, in 4 KiB units: whole zones and the valid units of its conventional rows. -/
def State.grpData (s : State) (g : Nat) : Nat :=
  (s.zn.zx.filter (fun e => !e.2.rows.isEmpty && s.rd F.ZON_ENT0_DGROUP e.1 = g)).length * zoneBlocks
    + ((s.ftl.crows.filter (fun e => e.2.dg = g)).map (fun e => e.2.valid)).sum

/-- The formatted user capacity once a group has another layout (R503). -/
def State.capWith (s : State) (old new : Grp) : Nat := (s.zn.cap + s.userSpace new - s.userSpace old) / zoneBlocks * zoneBlocks

/-- Capacity quotas of all slices that are not FREE (02 R37). -/
def State.quotas (s : State) : Nat :=
  ((List.range 1024).map (fun n => if s.slState n = slFree then 0 else s.rd F.SLI_CAP_QUOTA_UNITS n)).sum

/-- Whether a target layout is refused with Invalid Field in Command (R179, R503). -/
def State.badTarget (s : State) (g : Nat) (old new : Grp) : Bool :=
  !new.ok || !s.zonedFits g new || s.userSpace new < s.grpData g
    || s.rdn.groups.any (fun e => e.1 != g && e.2.dies.flatten.any (fun d => new.dies.flatten.contains d))
    || s.capWith old new < s.quotas || s.capWith old new < s.nsTotal false

/-- An action of Layout Management (R179): from slice 0 only. -/
def State.layoutMgmt (s : State) (o : Org) (cid : Nat) (f : State → State) : State :=
  if s.tailFull then s else s.admin o cid (fun s => if !isMgr o then s.adm o cid stOpcode else if s.stopped then s else f s)

/-- BEGIN_RESHAPE (R179, R180, R503): group `g`, supplement `sup`; `act` is CDW10[7:0], which is 0x01: a code that the table of R179 does not list
fails, and one that it lists for another action is that action's row (log 89). -/
def execBeginReshape (o : Org) (cid act g sup : Nat) (s : State) : Res :=
  .next (if act = 2 || act = 3 then s else s.layoutMgmt o cid (fun s =>
    if act != 1 then s.adm o cid stField
    else if s.rdn.reshape.isSome || s.rbldPending g then s.adm o cid stSeq
    else
      match Tab.find g s.rdn.groups, Tab.find sup s.rdn.supp with
      | some old, some (n, new) =>
        if n != g || s.badTarget g old new then s.adm o cid stField
        else
          let r : Reshape := ⟨g, new, 0, 0, false⟩
          let s := { s with rdn := { s.rdn with reshape := some { r with total := (s.leaving r).length } }, zn := { s.zn with cursor := Tab.del (g + 64) s.zn.cursor } }
          ((s.jn 0x17 [g, sup, 2]).rshpNext).adm o cid stOk
      | _, _ => s.adm o cid stField))

/-- ABORT_RESHAPE (R179, R181): the two layouts change roles; a reversal that runs goes on. -/
def execAbortReshape (o : Org) (cid : Nat) (s : State) : Res :=
  .next (s.layoutMgmt o cid (fun s =>
    match s.rdn.reshape with
    | none => s.adm o cid stSeq
    | some r =>
      if r.rev then s.adm o cid stOk
      else
        let s := { s with ftl := { s.ftl with relocs := s.ftl.relocs.filter (fun j => j.kind != 4 || j.step = 2) } }
        let r : Reshape := { r with rev := true, done := 0 }
        let s := { s with rdn := { s.rdn with reshape := some { r with total := (s.leaving r).length } } }
        ((s.jn 0x17 [r.grp, 0, 3]).rshpNext).adm o cid stOk))

/-- PREPARE_REMOVAL (R178, R179; 08 R204): the active-zone members beyond the position are substituted, its hop goes DOWN without break handling,
and REMOVE_OK is set. -/
def execPrepareRemoval (o : Org) (cid l b : Nat) (s : State) : Res :=
  .next (s.layoutMgmt o cid (fun s =>
    if l ≥ 64 || b ≥ 4 || s.rd F.KZL_BID_PRESENT l b = 0 then s.adm o cid stField
    else
      let s := ((s.cutOff l b).hopDown l b).ceiling false
      ((s.wr F.KZL_STS_REMOVE_OK 1 l).wr F.KZL_STS_REMOVE_POS b l).adm o cid stOk))

end Sys2Proof.Machine
end

