-- ==== Sys2Proof/Machine/Ledger.lean ====
section
/-! DEFINITION. The meanings of the ledger's epoch, of doorbells and of the fetch of a command (02 R50; 03 R65-R80; 11 R274, R275; 14
R316). -/

namespace Sys2Proof.Machine

/-! ### The epoch (03 R78-R80) -/

/-- Slices that are not FREE, with slice 0. -/
def State.liveSlices (s : State) : List Nat := (List.range 1024).filter (fun n => n = 0 || s.slState n != slFree)

/-- Whether a slice has a command waiting or in flight, or an operation at a die. -/
def State.hasWork (s : State) (n : Nat) : Bool :=
  s.zn.cmds.any (fun c => c.slice = n) || s.sl.qs.any (fun e => e.2.slice = n && !e.2.pend.isEmpty)
    || s.die.dies.any (fun e => e.2.ops.any (fun o => o.slice = n))

/-- The smallest of a list; 0 of an empty one. -/
def least : List Nat → Nat
  | [] => 0
  | x :: xs => xs.foldl min x

/-- Steps 1 and 2 for the slices: normalised charges less the smallest, at most CARRY epochs' mean, which is cut to a whole number before it
is multiplied (log 85). What a slice carries is the base of its next charges. -/
def State.carrySlices (s : State) : State :=
  let all := s.liveSlices
  let act := all.filter (fun n => (s.sx n).hadWork || s.hasWork n)
  let m := least (act.map (fun n => s.rd F.LGR_SL_NORM_N n))
  let c := (act.map (fun n => s.rd F.LGR_SL_CHG_CHG n)).sum
  let w := (act.map (fun n => s.rd F.SLI_WEIGHT_WEIGHT n)).sum
  let lim := s.sl.cfg.getD 2 2 * (c * 65536 / (16 * max w 1))
  all.foldl (fun (s : State) n =>
    let v := if (s.sx n).hadWork || s.hasWork n then min (s.rd F.LGR_SL_NORM_N n - m) lim else 0
    let s := (s.wr F.LGR_SL_NORM_N v n).wr F.LGR_SL_LAST_CHG (s.rd F.LGR_SL_CHG_CHG n) n
    let s := s.wr F.LGR_SL_CHG_CHG 0 n
    s.putSx n { s.sx n with hadWork := s.hasWork n, nBase := v }) s

/-- Step 3: the same within each slice, with a queue weight of 1. -/
def State.carryQueues (s : State) : State :=
  let lim := fun (n : Nat) =>
    let act := s.sl.qs.filter (fun e => e.2.slice = n && e.2.hadWork)
    (least (act.map (fun e => e.2.n)), s.sl.cfg.getD 2 2 * ((act.map (fun e => e.2.c)).sum * 65536 / (16 * max act.length 1)))
  let qs := s.sl.qs.map (fun (e : Nat × Queue) =>
    let b := lim e.2.slice
    (e.1, { e.2 with n := if e.2.hadWork then min (e.2.n - b.1) b.2 else 0, c := 0, hadWork := !e.2.pend.isEmpty || e.2.outst != 0 }))
  { s with sl := { s.sl with qs := qs } }

/-- The class that a queue of a removed class moves to (02 R50). -/
def newClass (mask lc : Nat) : Nat :=
  if bit mask lc then lc
  else
    match ((List.range 8).filter (fun i => bit mask i && lc < i)).head? with
    | some i => i
    | none => (((List.range 8).filter (fun i => bit mask i && i < lc)).getLast?).getD lc

/-- Step 5 for one slice: the weight, budgets and classes that a Resize asked for. -/
def State.applyPend (s : State) (n : Nat) : State :=
  let x := s.sx n
  let s := match x.pendWeight with
    | some v => s.wr F.SLI_WEIGHT_WEIGHT v n
    | none => s
  let s := match x.pendIn with
    | some v => s.wr F.SLI_BW_INGRESS v n
    | none => s
  let s := match x.pendEg with
    | some v => s.wr F.SLI_BW_EGRESS v n
    | none => s
  let mask := s.rd F.SLI_WEIGHT_LCMASK n
  let s := if !x.pendLc then s
    else { s with sl := { s.sl with qs := s.sl.qs.map (fun (e : Nat × Queue) =>
        if e.2.slice = n && e.2.qid != 0 then (e.1, { e.2 with lc := newClass mask e.2.lc }) else e) } }
  s.putSx n { s.sx n with pendWeight := none, pendIn := none, pendEg := none, pendLc := false }

/-- Step 6 for one slice: the buckets of 03 R79, from which an excess stays deducted, and the bytes of the epoch that ends. -/
def State.refill (s : State) (n : Nat) : State :=
  let x := s.sx n
  let s := (s.wr F.LGR_SL_BYTES_IN_KIB (x.inBytes / 1024) n).wr F.LGR_SL_BYTES_EG_KIB (x.egBytes / 1024) n
  s.putSx n { x with
    bIn := (s.rd F.SLI_BW_INGRESS n * 100000 : Nat) + min x.bIn 0
    bEg := (s.rd F.SLI_BW_EGRESS n * 100000 : Nat) + min x.bEg 0
    inBytes := 0
    egBytes := 0 }

/-- The device's ingest bucket of an epoch (03 R79; 01 R31; 18 R405): 1.6 TB/s × F of the step where the image gave one, and never above the
ceiling. -/
def State.devAdmit (s : State) : Nat :=
  let f := s.rd F.PWR_STEP_TBL_F s.pwr.admStep
  min s.ceilBytes (if s.rd F.PWR_STEP_TBL_LIMIT_W 0 = 0 then 1600000000 else 1600000 * f)

/-- Steps of 11 R274 and R275 at the boundary: every group's throttle, and whether free space is critical. -/
def State.throttles (s : State) : State :=
  let th := s.rdn.groups.filterMap (fun e => (s.throttle e.1 e.2).map (fun (b : Nat) =>
    (e.1, (b : Int) + min ((Tab.find e.1 s.ftl.thrott).getD 0) 0)))
  let crit := s.rdn.groups.any (fun e => s.critical e.2)
  let er := s.ftl.erasedCap.map (fun (e : Nat × Nat × Nat) => (e.1, ((0 : Nat), e.2.1)))
  let s := { s with ftl := { s.ftl with thrott := th, erasedCap := er } }
  (s.wr F.LGR_STS_BG_CRIT (b2n crit)).wr F.FTL_STS_CRIT_ANY (b2n crit)

/-- The device-wide parts of steps 5 and 6. -/
def State.epochDevice (s : State) : State :=
  let tgt := (List.range 8).map (fun i => s.rd F.LGR_LC_TGT_TARGET i)
  let cfg := [s.rd F.LGR_CFG_BG_CAP, s.rd F.LGR_CFG_PATROL_CAP, s.rd F.LGR_CFG_CARRY, s.rd F.LGR_CFG_CMD_CHG]
  let s := (List.range 6).foldl (fun (s : State) i => s.wr F.LGR_BG_USE_CHG (s.sl.bg.getD i 0) i) s
  let lim := s.devAdmit
  let s := s.wr F.LGR_DEV_ADMIT_LIMIT lim
  let s := { s with
    sl := { s.sl with tgt := tgt, cfg := cfg, bg := List.replicate 6 0, devBucket := (lim : Int) + min s.sl.devBucket 0, epochAt := s.el }
    stg := { s.stg with spillBytes := 0 }
    rdn := { s.rdn with rbld := [] } }
  (s.wr F.LGR_DEV_CAP_MEDIA_US (s.workDies * 1000)).addw F.LGR_EPOCH_COUNT 1

/-- LEDGER_EPOCH (03 R78): 1 ms after the last boundary. -/
def execLedgerEpoch (s : State) : Res :=
  .next (
    if s.el < s.sl.epochAt + 1000000 then s else
    let s := s.carryQueues.carrySlices
    let s := s.liveSlices.foldl State.applyPend s
    let s := s.liveSlices.foldl State.refill s
    (s.epochDevice.throttles).captureEpoch)

/-! ### Doorbells (03 R68; 14 R316) -/

/-- The Invalid Doorbell Register error of a function: kept, and noticed as an error status of the base specification. -/
def State.badDoorbell (s : State) (f info : Nat) : State :=
  let s := { s with pcx := { s.pcx with badDb := if s.pcx.badDb.contains f then s.pcx.badDb else s.pcx.badDb ++ [f] } }
  s.notify (if f = 0 then .mgr else .fn f) 0 info 0x01

/-- DOORBELL_WRITE (03 R68; 14 R316): function `f` writes a submission tail or, with `cq`, a completion head. The entries that become
visible take their arrival and deadline now; a write to a queue that does not exist is ignored with an error, and one to a queue that is being
reset without (02 R55, R56). Work leaves Doze and Nap. -/
def execDoorbellWrite (f qid : Nat) (cq : Bool) (v : Nat) (s : State) : Res :=
  .next (
    if (Tab.find f s.fns).isNone || !s.counting then s
    else
      let s := s.work
      if cq then
        match s.sl.cqs.find? (fun c => c.func = f && c.cqid = qid) with
        | none => s.badDoorbell f 0
        | some c =>
          if s.sl.qs.any (fun e => !e.2.fabric && e.2.func = f && e.2.cqid = qid && (s.slState e.2.slice = slResetting || s.resetting e.1)) then s
          else if v ≥ c.size then s.badDoorbell f 1
          else { s with sl := { s.sl with cqs := s.sl.cqs.map (fun d => if d.func = f && d.cqid = qid then { d with head := v } else d) } }
      else
        match s.sl.qs.find? (fun e => !e.2.fabric && e.2.func = f && e.2.qid = qid) with
        | none => s.badDoorbell f 0
        | some (i, q) =>
          if s.slState q.slice = slResetting || s.resetting i then s
          else if v ≥ q.size then s.badDoorbell f 1
          else
            let n := (v + q.size - q.tail) % max q.size 1
            let x := s.sx q.slice
            let s := if n = 0 then s else s.putSx q.slice { x with hadWork := true }
            s.putQ i { q with tail := v, pend := q.pend ++ List.replicate n (s.stamp q), hadWork := q.hadWork || n != 0 })

/-! ### Fetch (03 R73, R74) -/

/-- Whether a slice's ingest budget lets its entries contend (03 R79). -/
def State.inOpen (s : State) (n : Nat) : Bool := s.sl.devBucket > 0 && (s.rd F.SLI_BW_INGRESS n = 0 || (s.sx n).bIn > 0)

/-- Whether a queue's entries may be fetched: its slice takes commands, its own reset does not wait, and its function may read memory (02 R47,
R57; 14 R325). An entry's direction is not known before it is fetched, so a slice's candidates leave the contest while both of its buckets are
empty, and commands of one direction wait at their admission (03 R79; log 86). -/
def State.fetchable (s : State) (i : Nat) (q : Queue) : Bool :=
  !q.pend.isEmpty && !(s.slState q.slice = slResetting || s.slState q.slice = slFree) && !s.resetting i && (q.fabric || s.canSend q.func)
    && (q.qid = 0 || s.inOpen q.slice || s.egOpen q.slice)

/-- The key of a queue: that of its most urgent entry, which is its oldest. -/
def State.queueKey (s : State) (_ : Nat) (q : Queue) : Key :=
  match q.pend.head? with
  | some p => ⟨false, s.urg p.arr p.dl, s.rd F.LGR_SL_NORM_N q.slice, q.n, s.dlTick p.dl, q.slice⟩
  | none => ⟨true, 0, s.rd F.LGR_SL_NORM_N q.slice, q.n, 0, q.slice⟩

/-- The queue that wins the slot: the key orders ports, slices and queues alike, so the best candidate of all wins every level. -/
def State.bestQueue (s : State) : List (Nat × Queue) → Option (Nat × Queue)
  | [] => none
  | e :: es =>
    match s.bestQueue es with
    | none => some e
    | some b => if (s.queueKey b.1 b.2).beats (s.queueKey e.1 e.2) then some b else some e

/-- The oldest entry of the queue that won the slot is fetched, or its capsule processed (03 R65, R73). A PCIe entry's fetch is an access to
host memory, which the translation unit resolves: where it is refused the command ends with Data Transfer Error (02 R45). A capsule whose SGL
descriptors are refused ends too (13 R304). -/
def State.fetchFrom (s : State) (i cid : Nat) (q : Queue) : State :=
  match q.pend with
  | [] => s
  | p :: ps =>
    let at0 := q.base + 64 * q.head
    let q := { q with pend := ps, head := (q.head + 1) % max q.size 1 }
    if q.qid = 0 then (s.putQ i { q with outst := q.outst + 1, adm := q.adm ++ [p] }).charge q.slice (some i) (s.sl.cfg.getD 3 4)
    else
      let t := s.takeIn i (p.cid.getD cid) q p
      if p.bad then t.1.fin t.2 (0, 0x11)
      else if q.fabric then t.1
      else
        let d := t.1.dma q at0 64 false
        if d.2 = .ok then d.1 else d.1.dmaEnd q.slice d.2 (fun s => s.fin t.2 stXfer)

end Sys2Proof.Machine
end

