-- ==== Sys2Proof/Machine/MemErr.lean ====
section
/-! DEFINITION. Errors of the on-die memories (20 R433, R434; 11 R261), and the meanings of the commands within which they show: DIE_READ_DONE,
WRITE_COMMIT, IFT_DATAGRAM and READ. The words of the journal tail, of the context RAM and of the Puppeteer show theirs in their own commands. -/

namespace Sys2Proof.Machine

/-- Bytes of the reorder pool are uncorrectable: the datagram at offset `off` of frame `key` was never received, unless all of it has passed the lanes; the
frame closes by the rules of 05 R125. -/
def State.loseDgram (s : State) (k key off : Nat) : State :=
  match s.stream k with
  | none => s
  | some x =>
    match x.frame key with
    | none => s
    | some f =>
      match f.got.find? (fun e => e.1 = off) with
      | none => s
      | some e =>
        if off + e.2.length ≤ f.disp * laneBlock then s
        else
          let g := { f with got := f.got.filter (fun e => e.1 != off) }
          if f.close.isNone then s.putStream k (x.putFrame g)
          else if x.drop then (s.dropFrame k key).goOn k
          else s.putStream k (x.putFrame { g with close := some .truncated })

/-- The tag of a map cache line had a parity error: it is rebuilt from the line's header, and the line is DIRTY (11 R261). -/
def State.tagUe (s : State) (nsid page : Nat) : State :=
  let s := s.inc F.MCACHE_ERR_TAGPAR
  match s.mcFind nsid page with
  | some l => if l.pending then s else s.putLine { l with dirty := true }
  | none => s

/-- A key slot had a parity error: it becomes FREE, and the next request derives the key again (20 R433). -/
def State.slotUe (s : State) (i : Nat) : State :=
  match Tab.find i s.cip.slots with
  | none => s
  | some k => if k.st = 1 then (s.freeSlot i).keyAnswered k true else s.freeSlot i

/-- A record of the event recorder was uncorrectable: it is dropped and counted (20 R433). -/
def State.recUe (s : State) (i : Nat) : State :=
  match s.evr.recs[i]? with
  | none => s
  | some r => { s with evr := { s.evr with recs := s.evr.recs.eraseIdx i, used := s.evr.used - recLen r.snaps.length } }.inc F.EVR_LOST_CNT

/-- A section of the image store is damaged: it is marked, and a class 7 event raised (20 R433). -/
def State.imgUe (s : State) (i : Nat) : State :=
  ({ s with ras := { s.ras with damaged := if s.ras.damaged.contains i then s.ras.damaged else s.ras.damaged ++ [i] } }).raise evImgDamaged 0xFFFF i

/-- What an uncorrectable word means (20 R433). `a`, `b` and `c` say what it held: of staging the unit by its place (memory 0), of the image store the section
(2), of the reorder pool stream, frame key and offset (4), of the map buffers NSID and page (6, 11, 13), of the lane program banks the lane where it
cannot be loaded again (7: `a` = 2, the lane `b`, `c` = 1), of the recorder the record (8), of the key slots the slot (10). A parity slot is computed
again, a table is loaded again (1, 7). The other memories' words are their own commands'. -/
def State.ueOf (s : State) (e : MemErr) : State :=
  match e.mem with
  | 0 => match s.stg.units[e.a]? with
    | some u => s.stgUe u.row u.off
    | none => s
  | 2 => s.imgUe e.a
  | 4 => s.loseDgram e.a e.b e.c
  | 6 => s.lineUe e.a e.b
  | 7 => if e.a = 2 && e.c = 1 then s.fenceUnit 0 e.b 3 else s
  | 8 => s.recUe e.a
  | 10 => s.slotUe e.a
  | 11 => s.tagUe e.a e.b
  | 13 => s.lineUe e.a e.b
  | _ => s

/-- An error of a memory: corrected, counted and logged, or counted, shown and handled by the rule of its memory (20 R433, R434; 11 R261). -/
def State.memErr (s : State) (e : MemErr) : State :=
  if e.mem > 13 then s
  else if !e.ue then (if e.mem = 13 then s.inc F.MCACHE_ERR_DATA_CE else s).correctable e.mem e.addr
  else (s.sramUe e.mem e.addr).ueOf e

/-- The errors that a step meets, in order. -/
def State.memErrs (s : State) (es : List MemErr) : State := es.foldl State.memErr s

/-- DIE_READ_DONE (10 R240, R241; 09 R212): READ DATA and the STATUS record of the sense that die `d` ran: its temperature in °C and
its busy time in µs. An uncorrectable word of the raw sense buffer names the codeword that has to be sensed again, in the order of the sense's reads
(20 R433). -/
def execDieReadDone (d : Nat) (temp : Int) (busy : Nat) (es : List MemErr) (s : State) : Res :=
  .next ((s.memErrs es).readBack d temp busy ((es.filter (fun e => e.mem = 3 && e.ue)).map (·.a)))

/-- WRITE_COMMIT (02 R53, 04 R504, 06 R145): a write all of whose data is in staging commits. An uncorrectable word of staging with `b` = 1 lies in the write's own
data, before its commit point (20 R433). -/
def execWriteCommit (q cid : Nat) (es : List MemErr) (s : State) : Res :=
  let own := fun (e : MemErr) => e.mem = 0 && e.ue && e.b = 1
  .next (((es.filter (fun e => own e)).foldl (fun (s : State) e => s.sramUe 0 e.addr) (s.memErrs (es.filter (fun e => !own e)))).commitCmd q cid (es.any own))

/-- IFT_DATAGRAM (05 R115-R128, R141; 13 R301, R305; 01 R23; 20 R433): on sub-port `u` of port `p`, to MAC address `dst`, IP address `ip` and VLAN `vlan`, UDP port `udp`,
from `src`, with its UDP length and the bytes after the UDP header. -/
def execIftDatagram (p u dst ip vlan udp src ulen : Nat) (b : List Nat) (es : List MemErr) (s : State) : Res :=
  .next ((s.memErrs es).dgramIn p u dst ip vlan udp src ulen b)

/-- READ (04 R97, R502; 02 R45; 20 R433): `len` blocks at `lba`, to host address `addr`; `lr` is Limited Retry (03 R71). -/
def execRead (q cid nsid lba len : Nat) (lr : Bool) (addr : Nat) (es : List MemErr) (s : State) : Res :=
  .next ((s.memErrs es).readCmd q cid nsid lba len lr addr)

end Sys2Proof.Machine
end

