-- ==== Sys2Proof/Machine/Net.lean ====
section
/-! DEFINITION. The meanings of the Ethernet, RoCEv2 and NVMe over Fabrics commands (13; 02 R42, R43; 03 R65-R68, R79, R84). -/

namespace Sys2Proof.Machine

/-! ### Connections -/

/-- RC QPs of the device (13 R302); QP numbers 0 and 1 are management QPs, so they count from 2 (log 37). -/
def qpMax : Nat := 16384

/-- The line rate of a sub-port as an exact number. -/
def State.lineQ (s : State) (p : Nat) : Rat := (s.lineRate p : Rat)

/-- The path MTU of a connection (13 R302): the lower of what the REQ asks for and 4,096; none below 1,024. -/
def mtuOf (pmtu : Nat) : Option Nat := [4096, 2048, 1024].find? (fun m => m ≤ pmtu)

/-- CM_REQ (13 R302, 17 R384): a request on a sub-port to an address entry; `pmtu` is the path MTU it asks for. A path that cannot carry 1,024 bytes
is rejected (log 99). -/
def execCmReq (p u dst ip vlan peer svc pmtu : Nat) (s : State) : Res :=
  .next (
    let a := s.rxIn p u dst ip vlan
    if !a.2 then a.1
    else
      let s := a.1
      match (if s.fabricOn then (List.range qpMax).find? (fun i => (s.qp (i + 2)).isNone) else none), mtuOf pmtu with
      | some i, some mtu =>
        let r := s.lineQ p
        (s.putQp (i + 2) ⟨p, u, peer, svc, none, none, none, none, false, mtu, s.rd F.ETH_QP_CFG_ACK_TMO p, s.rd F.ETH_QP_CFG_RETRY p,
          s.rd F.ETH_QP_CFG_RNR_RETRY p, 0, 0, r, r, 1, 0, s.el, s.el, s.el, none, []⟩).sendNet p u "cm_rep" [peer, i + 2, mtu]
      | _, _ => s.sendNet p u "cm_rej" [peer])

/-- CM_DREQ (13 R302, R303): answered with DREP; the QP enters Error. -/
def execCmDreq (qp : Nat) (s : State) : Res :=
  .next (s.qpIn qp (fun x s => (s.sendNet x.port x.sub "cm_drep" [qp]).qpError qp))

/-- The highest class a slice permits (03 R67). -/
def topClass (mask : Nat) : Nat := (List.range 8).foldl (fun a i => if bit mask i then i else a) 0

/-- Refuses a Connect. -/
def State.connectBad (s : State) (x : Qp) (qp cid sc : Nat) : State := s.sendQp qp (.net x.port x.sub "connect" [qp, cid, 1, sc])

/-- The context of a fabric queue (03 R65, R67). -/
def fabQueue (slice bind a qp qid lc gen size : Nat) : Queue :=
  ⟨slice, bind, 0, none, true, a, qp, qid, lc, false, gen, 0, size, 0, 0, 0, 0, 0, false, [], 0, []⟩

/-- The service of the discovery controller (13 R304). -/
def discSvc : Nat := 8009

/-- The Discovery Log Page of a host: one entry for each of its NQN bindings and each address entry, with the subsystem NQN, port, sub-port, whether
the address is IPv6, and the address (13 R304). -/
def State.discovery (s : State) (host : Nat) : List Nat :=
  (s.sl.nbind.filter (fun b => b.host = host)).flatMap (fun b =>
    (List.range 8).flatMap (fun p => (List.range 32).flatMap (fun i =>
      if s.rd F.ETH_IP_CTL_VALID p i = 1 && s.rd F.ETH_IP_CTL_SUB p i < s.subCount p then
        [b.sub, p, s.rd F.ETH_IP_CTL_SUB p i, s.rd F.ETH_IP_CTL_V6 p i, s.rd F.ETH_IP_ADDR_LO_ADDR p i + s.rd F.ETH_IP_ADDR_HI_ADDR p i * 2 ^ 64]
      else [])))

/-- CONNECT (02 R42, R43, R50; 03 R65, R67; 13 R304): `qid` 0 makes an association, with its keep-alive timeout in ms; another
queue ID adds an I/O queue to association `a`. `auth` is AUTHREQ. A slice that is FENCED or DELETING answers 0xC0; one that is RESETTING refuses with
Connect Invalid Parameters, which the spec does not say (log 85). On the discovery service it is answered with the Discovery Log Page, which no row
of its own reads (log 99). -/
def execConnect (qp cid qid size host sub kato a : Nat) (auth : Bool) (s : State) : Res :=
  .next (s.qpIn qp (fun x s =>
      if x.err || x.queue.isSome || x.stream.isSome then s
      else if x.svc = discSvc then s.sendQp qp (.net x.port x.sub "discovery" ([qp, cid] ++ s.discovery host))
      else
        match s.sl.nbind.find? (fun b => b.host = host && b.sub = sub) with
        | none => s.connectBad x qp cid 0x84
        | some b =>
          let n := b.slice
          if s.slState n = slFenced || s.slState n = slDeleting then s.sendQp qp (.net x.port x.sub "connect" [qp, cid, 7, 0xC0])
          else if s.slState n != slActive then s.connectBad x qp cid 0x82
          else if auth || !s.qpFree n || s.rd F.SLI_RES_USE_RCQP n ≥ s.rd F.SLI_RES_RCQP n then s.connectBad x qp cid 0x82
          else if (qid = 0 && size != 32) || (qid != 0 && (size = 0 || size > 1024)) then s.connectBad x qp cid 0x82
          else
            let old := Tab.find a s.assocs
            let mine := (s.sl.qs.filter (fun e => e.2.fabric && e.2.assoc = a && e.2.qid != 0)).length
            let okIo : Bool := match old with
              | some v => v.slice = n && v.host = host && v.sub = sub && mine < 256 && qid < 65536
                  && !s.sl.qs.any (fun e => e.2.fabric && e.2.assoc = a && e.2.qid = qid)
              | none => false
            if qid != 0 && !okIo then s.connectBad x qp cid 0x82
            else
              match s.freeIdx, (if qid = 0 then (List.range 65536).find? (fun i => (Tab.find i s.assocs).isNone) else some a) with
              | some i, some id =>
                let lc := if qid = 0 then 2 else topClass (s.rd F.SLI_WEIGHT_LCMASK n)
                let s := (s.putQ i (fabQueue n b.idx id qp qid lc (s.nextGen i) size)).useQp n
                let s := s.putQp qp { x with slice := some n, queue := some i, assoc := some id }
                let s := s.addw F.SLI_RES_USE_RCQP 1 n
                let s := if qid = 0 then
                    { s with assocs := Tab.put id ⟨host, sub, n, kato, s.el, x.port, x.sub, i⟩ s.assocs }
                  else s
                s.sendQp qp (.net x.port x.sub "connect" [qp, cid, 0, 0, id])
              | _, _ => s.connectBad x qp cid 0x82))

/-- KEEP_ALIVE (13 R304; 02 R47, R59): restarts the association's timer, of a FENCED slice too, whose associations stay connected; a
PCIe function's controller has none and refuses it. -/
def execKeepAlive (o : Org) (cid : Nat) (s : State) : Res :=
  .next (match o with
    | .fab a =>
      (match Tab.find a s.assocs with
       | some x =>
         if s.slState x.slice = slResetting then s
         else { s with assocs := Tab.put a { x with last := s.el } s.assocs }.admin o cid (fun s => s.adm o cid stOk)
       | none => s)
    | _ => s.admin o cid (fun s => s.adm o cid stOpcode))

/-- KEEP_ALIVE_EXPIRY (13 R304): the association ends when KATO has passed. -/
def execKeepAliveExpiry (a : Nat) (s : State) : Res :=
  .next (match Tab.find a s.assocs with
    | some x => if x.kato > 0 && x.last + x.kato * 1000000 ≤ s.el then s.endAssoc a else s
    | none => s)

/-! ### Capsules -/

/-- COMMAND_CAPSULE (03 R68; 13 R304): a Send carrying an I/O command to a QP's queue. Its arrival and deadline are stamped, and it
waits for a command-engine slot; `sgls` is its number of SGL descriptors, `sglOk` whether their type is one of the table's, and `inl` whether it is an
offset descriptor for data in the capsule. -/
def execCommandCapsule (qp cid sgls : Nat) (sglOk inl : Bool) (s : State) : Res :=
  .next (s.qpIn qp (fun x s =>
      match x.queue with
      | none => s
      | some i =>
        match Tab.find i s.sl.qs with
        | none => s
        | some q =>
          if x.err || q.qid = 0 then s
          else if s.slState q.slice = slResetting || s.resetting i then s
          else
            let s := s.work
            let s := s.putQ i { q with pend := q.pend ++ [s.stamp q (some cid) (sgls > 1 || !sglOk) inl], hadWork := true }
            let s := s.putSx q.slice { s.sx q.slice with hadWork := true }
            match Tab.find q.assoc s.assocs with
            | some v => { s with assocs := Tab.put q.assoc { v with last := s.el } s.assocs }
            | none => s))

/-! ### QP events -/

/-- ROCE_PACKET (13 R299, R302): a packet for a QP on its sub-port; `ce` is the ECN mark, `ack` whether it advances the
acknowledgements. -/
def execRocePacket (p u dst ip vlan qp : Nat) (ce ack : Bool) (s : State) : Res :=
  .next (
    let a := s.rxIn p u dst ip vlan
    if !a.2 then a.1
    else
      let s := a.1
      match s.qp qp with
      | none => s
      | some x =>
        if x.err || x.port != p || x.sub != u then s
        else
          let due : Bool := match x.cnpTx with
            | some t => t + s.rd F.ETH_CC_CFG_CNP_GAP p * 1000 ≤ s.el
            | none => true
          let x := if ack then { x with tries := 0, rnrs := 0 } else x
          if ce && due then
            ((s.putQp qp { x with cnpTx := some s.el }).inc F.ETH_CNP_TX_CNT p u).sendOn p u (s.rd F.ETH_CC_CFG_CNP_PRIO p) (some qp)
              (.net p u "cnp" [qp, s.rd F.ETH_CC_CFG_CNP_PRIO p, 48])
          else s.putQp qp x)

/-- The gain of congestion control (13 R299). -/
def ccG : Rat := 1 / 256

/-- The lowest rate of a port's QPs. -/
def State.minRate (s : State) (p : Nat) : Rat := (s.rd F.ETH_CC_CFG_MIN_RATE p : Rat)

/-- The larger of two rates. -/
def ratMax (a b : Rat) : Rat := if a < b then b else a

/-- The smaller of two rates. -/
def ratMin (a b : Rat) : Rat := if a < b then a else b

/-- CNP_RECEIVED (13 R299, R309). -/
def execCnpReceived (qp : Nat) (s : State) : Res :=
  .next (s.qpIn qp (fun x s =>
      let s := s.inc F.ETH_CNP_RX_CNT x.port x.sub
      if x.err then s
      else
        s.putQp qp { x with
          rt := x.rc
          rc := ratMax (s.minRate x.port) (x.rc * (1 - x.alpha / 2))
          alpha := (1 - ccG) * x.alpha + ccG
          stage := 0, cnpAt := s.el, decayAt := s.el, incAt := s.el }))

/-- CC_RATE_TIMER (13 R299): with `inc` false α decays when t_alpha has passed without a CNP; with `inc` true the rate recovers
when t_inc has passed, or `bytes` reached b_inc, since the last CNP. -/
def execCcRateTimer (qp : Nat) (inc : Bool) (bytes : Nat) (s : State) : Res :=
  .next (match s.qp qp with
    | none => s
    | some x =>
      if x.err then s
      else if !inc then
        if x.decayAt + s.rd F.ETH_CC_CFG_T_ALPHA x.port * 1000 ≤ s.el then
          s.putQp qp { x with alpha := (1 - ccG) * x.alpha, decayAt := s.el }
        else s
      else if x.incAt + s.rd F.ETH_CC_CFG_T_INC x.port * 1000 ≤ s.el || bytes ≥ s.rd F.ETH_CC_CFG_B_INC x.port * 2 ^ 20 then
        let st := x.stage + 1
        let rt := if st > 5 then ratMin (s.lineQ x.port) (x.rt + (s.rd F.ETH_CC_CFG_R_AI x.port : Rat)) else x.rt
        s.putQp qp { x with stage := st, rt := rt, rc := ratMax (s.minRate x.port) ((rt + x.rc) / 2), incAt := s.el }
      else s)

/-- ACK_TIMEOUT (13 R302, R303). -/
def execAckTimeout (qp : Nat) (s : State) : Res := .next (s.qpTimeout qp)

/-- RNR_NAK (13 R302): retried up to RNR_RETRY times, 7 being without limit. -/
def execRnrNak (qp : Nat) (s : State) : Res :=
  .next (s.qpIn qp (fun x s =>
      if x.err then s
      else if x.rnrRetry != 7 && x.rnrs ≥ x.rnrRetry then s.qpError qp
      else (s.putQp qp { x with rnrs := x.rnrs + 1 }).sendQp qp (.net x.port x.sub "rnr_retry" [qp])))

/-- INBOUND_RDMA_READ (13 R302, R303): an inbound RDMA Read or Atomic gets a remote access error NAK; the QP enters Error. -/
def execInboundRdmaRead (qp : Nat) (s : State) : Res :=
  .next (s.qpIn qp (fun x s => if x.err then s else (s.sendQp qp (.net x.port x.sub "nak_access" [qp])).qpError qp))

/-! ### Addresses -/

/-- ARP_REQUEST (13 R301): an ARP request or Neighbor Solicitation for `ip` is answered with the sub-port's address. -/
def execArpRequest (p u dst ip vlan from1 : Nat) (s : State) : Res :=
  .next (
    let a := s.rxIn p u dst ip vlan 1 true
    if a.2 then a.1.sendNet p u "arp_reply" [ip, a.1.rd F.ETH_MAC_ADDR p u, from1] else a.1)

/-- ECHO_REQUEST (13 R301): up to 1,000 a second and sub-port. -/
def execEchoRequest (p u dst ip vlan from1 : Nat) (s : State) : Res :=
  .next (
    let a := s.rxIn p u dst ip vlan
    if !a.2 then a.1
    else
      let s := a.1
      let x := s.sub p u
      let sec := s.el / 1000000000
      let n := if x.echoAt = sec then x.echoes else 0
      if n ≥ 1000 then s.dropRx p u drRate
      else (s.putSub p u { x with echoAt := sec, echoes := n + 1 }).sendNet p u "echo_reply" [ip, from1])

/-- DROPPED_FRAME (13 R301, R306): a fragment, a wrong checksum, another protocol or port, or a frame not for the controller. -/
def execDroppedFrame (p u cause : Nat) (s : State) : Res :=
  .next (
    let l := s.link p u
    if l = lkHeld then s.dropRx p u drHeld
    else if l = lkWake then s.dropRx p u drAddr
    else if l != lkUp then s
    else s.dropRx p u (if cause = drFrag || cause = drCsum || cause = drOther then cause else drAddr))

/-- The lifetime of a learned peer address, and the wait for a next hop, in ns (13 R301). -/
def peerLife : Nat := 60000000000
/-- 1 s. -/
def askWait : Nat := 1000000000

/-- Asks for the address of a next hop; the QP's transmissions wait from now on (13 R301). -/
def State.askHop (s : State) (p ip qp : Nat) : State :=
  { s with net := { s.net with asks := s.net.asks ++ [(p, ip, qp, s.el)] } }.sendNet
    p (((s.qp qp).map (fun (x : Qp) => x.sub)).getD 0) "arp_request" [ip]

/-- ADDRESS_RESOLUTION_TIMEOUT (13 R301): a transmission of a QP to `ip` on port `p` starts to wait where no entry is held and none waits, and counts a
transport timeout when it has waited 1 s. The QP's retry asks again; a QP in Error has nothing left to send. -/
def execAddressResolutionTimeout (p ip qp : Nat) (s : State) : Res :=
  .next (match s.net.asks.find? (fun e => e.1 = p && e.2.1 = ip && e.2.2.1 = qp) with
    | none => if s.net.peers.any (fun e => e.1 = p && e.2.1 = ip) then s else s.askHop p ip qp
    | some e =>
      if e.2.2.2 + askWait ≤ s.el then
        let s := { s with net := { s.net with asks := s.net.asks.filter (fun x => x != e) } }
        let s := s.qpTimeout qp
        if ((s.qp qp).map (fun (x : Qp) => x.err)).getD true then s else s.askHop p ip qp
      else s)

/-- ARP_REPLY (13 R301): a reply to the controller's own request enters the table of 4,096 entries and releases what waited; a full
table lets its oldest entry go (log 37). -/
def execArpReply (p ip mac : Nat) (s : State) : Res :=
  .next (
    let own := s.net.asks.any (fun e => e.1 = p && e.2.1 = ip) || s.net.peers.any (fun e => e.1 = p && e.2.1 = ip)
    if !own then s
    else
      let s := s.frameWake
      let rest := s.net.peers.filter (fun e => !(e.1 = p && e.2.1 = ip))
      let mine := rest.filter (fun e => e.1 = p)
      let rest := if mine.length ≥ 4096 then rest.filter (fun e => some e != mine.head?) else rest
      let s := { s with net := { s.net with
        peers := rest ++ [(p, ip, mac, s.el)]
        asks := s.net.asks.filter (fun e => !(e.1 = p && e.2.1 = ip)) } }
      (List.range 8).foldl (fun (s : State) u => s.flushTx p u) s)

/-- PEER_MAC_LIFETIME_EXPIRY (13 R301). -/
def execPeerMacLifetimeExpiry (p ip : Nat) (s : State) : Res :=
  .next { s with net := { s.net with peers := s.net.peers.filter (fun e =>
    !(e.1 = p && e.2.1 = ip && e.2.2.2 + peerLife ≤ s.el)) } }

/-! ### Priority flow control -/

/-- PFC_FRAME (13 R296, R297): pauses the priorities of `mask` for `quanta` of 512 bit times each; quanta 0 ends the pause. `glob` says that it is an
802.3x pause, which names every priority and is honoured only where none is enabled for PFC. -/
def execPfcFrame (p u mask quanta : Nat) (glob : Bool) (s : State) : Res :=
  .next (
    if s.link p u != lkUp || (glob && s.rd F.ETH_PFC_CFG_EN p != 0) then s
    else
      let x := s.sub p u
      let m := if glob then 0xFF else mask
      let till := s.el + quanta * 512 / s.lineRate p
      let keep := x.paused.filter (fun e => !bit m e.1)
      let new := if quanta = 0 then [] else ((List.range 8).filter (bit m)).map (fun i => (i, till))
      (s.putSub p u { x with paused := keep ++ new }).flushTx p u)

/-- PFC_PAUSE_EXPIRY (13 R297): priorities whose pause has run out transmit again. -/
def execPfcPauseExpiry (p u : Nat) (s : State) : Res :=
  .next (let x := s.sub p u
    (s.putSub p u { x with paused := x.paused.filter (fun e => s.el < e.2) }).flushTx p u)

/-- PFC_REFRESH (13 R297, R298; 03 R79): the sub-port's buffer holds `fill` bytes now. XOFF at the XOFF point and while the fill
stays above the XON point, or while a budget or the power holds its peers; quanta 0 when it falls to the XON point. What is
beyond the buffer's share is lost: `lost` packets, which only a full buffer drops (01 R23). -/
def execPfcRefresh (p u fill lost : Nat) (s : State) : Res :=
  .next (
    let s := s.putSub p u { s.sub p u with fill := min fill (2 * s.xoffAt p) }
    let s := if s.rxFull p u 1 then s.inc F.ETH_RX_OVF_CNT p u lost else s
    let now := s.rxFill p u
    let on : Bool := s.rd F.ETH_SUB_STS_XOFF p u = 1
    if s.link p u != lkUp then s
    else if now ≥ s.xoffAt p || s.mustPause p then s.sendPfc p u 0xFFFF
    else if on && now > s.xoffAt p / 2 then s.sendPfc p u 0xFFFF
    else if on then s.sendPfc p u 0
    else s)

/-! ### Link state -/

/-- SUBPORT_SIGNAL_DETECT (13 R306; 21 R458, R467): a DOWN sub-port of the port's mode begins training, from step 6 of start-up on and where its island is
calibrated. -/
def execSubportSignalDetect (p u : Nat) (s : State) : Res :=
  .next (if s.link p u = lkDown && u < s.subCount p && s.tables && !s.img.noCal.contains p then s.setLink p u lkTrain else s)

/-- SUBPORT_TRAINING_DONE (13 R306, R307): a training sub-port with alignment and no fault enters UP_WAIT. -/
def execSubportTrainingDone (p u : Nat) (s : State) : Res :=
  .next (if s.link p u = lkTrain then (s.putSub p u { s.sub p u with waitAt := s.el }).setLink p u lkWait else s)

/-- UP_HOLD_EXPIRY (13 R306): UP_WAIT has lasted UP_HOLD. -/
def execUpHoldExpiry (p u : Nat) (s : State) : Res :=
  .next (if s.link p u = lkWait && (s.sub p u).waitAt + s.rd F.ETH_LINK_CFG_UP_HOLD p * 1000000 ≤ s.el then s.setLink p u lkUp else s)

/-- FLAP_HOLD_EXPIRY (13 R306): HELD has lasted FLAP_HOLD. -/
def execFlapHoldExpiry (p u : Nat) (s : State) : Res :=
  .next (if s.link p u = lkHeld && (s.sub p u).heldAt + s.rd F.ETH_LINK_CFG_FLAP_HOLD p * 1000000000 ≤ s.el then s.setLink p u lkTrain
    else s)

/-- SUBPORT_FAULT (13 R306): a sub-port that is not DOWN or HELD falls to DOWN, or to HELD with FLAP_MAX entries to DOWN in 10 s;
`corr` and `uncorr` are the FEC codewords counted meanwhile (R310). Any fault ends UP_WAIT and TRAINING; from UP it has
persisted for 10 µs or the uncorrectable rate was passed. -/
def execSubportFault (p u corr uncorr : Nat) (s : State) : Res :=
  .next (
    let l := s.link p u
    let s := (s.inc F.ETH_FEC_CORR_CNT p u corr).inc F.ETH_FEC_UNCORR_CNT p u uncorr
    if l = lkDown || l = lkHeld then s
    else
      let x := s.sub p u
      let ds := (x.downs.filter (fun t => s.el < t + 10000000000)) ++ [s.el]
      let held : Bool := ds.length ≥ s.rd F.ETH_LINK_CFG_FLAP_MAX p
      let s := s.putSub p u { x with downs := ds, heldAt := if held then s.el else x.heldAt, paused := [] }
      (((s.inc F.ETH_FLAP_CNT_CNT p u).setLink p u lkDown).setLink p u (if held then lkHeld else lkDown)).flushTx p u)

end Sys2Proof.Machine
end

