-- ==== Sys2Proof/Machine/RegUnit.lean ====
section
/-! DEFINITION. The register unit (23 R489-R499; 00 R5-R9): reads and writes of management registers on the two access paths, what single
registers' writes do, and the controller reset; and the meanings of the register commands. Path 0 is BAR0, path 1 NVMe-MI. -/

namespace Sys2Proof.Machine

/-! ### Paths (23 R490) -/

/-- Whether BAR0 of PF0 is served: the tables are applied, link 0 is up, and PF0's Memory Space Enable is set. -/
def State.barUp (s : State) : Bool :=
  s.tables && s.rd F.PCX_LINK_STS_UP 0 = 1 && (s.fn 0).any (fun f => f.mse)

/-- Whether NVMe-MI requests are served now: from admin-ready, and while the Puppeteer neither is stopped nor exchanges its firmware. -/
def State.miUp (s : State) : Bool := !s.dead && s.img.admReady && !s.stopped && !s.swapping

/-- Whether a path is available. -/
def State.pathUp (s : State) (p : Nat) : Bool := if p = 0 then s.barUp else s.miUp

/-- Logs an access (23 R490, R491, R495): counted for its path; while one is logged, later ones only count. Kinds as GEN_ACC_LOG.KIND. -/
def State.accLog (s : State) (p kind : Nat) (wr : Bool) (a : Nat) : State :=
  let s := if p = 0 then s.inc F.GEN_ACC_ERR_BAR0 else s.inc F.GEN_ACC_ERR_MI
  if s.rd F.GEN_ACC_LOG_VALID = 1 then s
  else
    let s := ((s.wr F.GEN_ACC_LOG_VALID 1).wr F.GEN_ACC_LOG_PATH p).wr F.GEN_ACC_LOG_KIND kind
    (s.wr F.GEN_ACC_LOG_WR (b2n wr)).wr F.GEN_ACC_LOG_ADDR a

/-! ### Reads (23 R491, R492; 00 R5, R6) -/

/-- A read clears an RC field to its reset value. -/
def State.rcClear (s : State) (f : Fld) (i j p : Nat) : State :=
  if f = F.RAS_UNIT_INFO_THIRD then
    let k := s.rd F.RAS_UNIT_SEL_KIND 0 0 p
    let x := s.rd F.RAS_UNIT_SEL_INDEX 0 0 p
    { s with ras := { s.ras with units := s.ras.units.map (fun (u : UnitSt) => if u.kind = k && u.idx = x then { u with third := 0 } else u) } }
  else s.clr f i j

/-- What a read of dword `h` of a register's entry does beside returning its value: RC fields in it are cleared; TIM_NOW latches the fraction
for the path (19 R432); a health read in service sets DENIED (09 R223). -/
def State.readFx (s : State) (p : Nat) (r : Reg) (i j h : Nat) : State :=
  let s := (r.flds.filter (fun f => f.acc = .rc && f.lo / 32 = h)).foldl (fun (s : State) f => s.rcClear f i j p) s
  if r.base = R.TIM_NOW.base then s.wr F.TIM_NOW_FRAC_FRAC s.frac 0 0 p
  else if (r.base = R.MED_HLTH_BLK.base || r.base = R.MED_HLTH_DIE.base || r.base = R.MED_HLTH_ERS.base) && s.rd F.IMG_STS_PHASE = 1 then
    s.wr F.MED_HLTH_STS_DENIED 1
  else s

/-- The side effects of reading the dword at an address. -/
def State.touchReg (s : State) (p a : Nat) : State :=
  match locate a regTable with
  | some (r, i, j, off) => s.readFx p r i j (off / 4)
  | none => s

/-- Discards the latched high dword of a path. -/
def State.unlatch (s : State) (p : Nat) : State :=
  { s with gen := { s.gen with latch := s.gen.latch.filter (fun e => e.1 != p) } }

/-- Whether the dword at an address is half `h` of a 64-bit register. -/
def wideHalf (a h : Nat) : Bool :=
  match locate a regTable with
  | some (r, _, _, off) => r.width = 64 && off / 4 = h
  | none => false

/-- A 4-byte read (23 R492): of a low dword it latches the high one for the path; of the high dword of the register just latched it returns the
latched value and clears nothing; any other discards the latch. -/
def State.read4 (s : State) (p a : Nat) : State × Nat :=
  let l := s.gen.latch.find? (fun e => e.1 = p)
  let s := s.unlatch p
  match l with
  | some (_, b, v) =>
    if a = b + 4 then (s, v) else live s a
  | none => live s a
where
  live (s : State) (a : Nat) : State × Nat :=
    let v := s.peek p a
    if wideHalf a 0 then
      let hi := s.peek p (a + 4)
      let s := (s.touchReg p a).touchReg p (a + 4)
      ({ s with gen := { s.gen with latch := (p, a, hi) :: s.gen.latch } }, v)
    else (s.touchReg p a, v)

/-- An 8-byte read: both dwords as they stand at one instant (23 R492). -/
def State.read8 (s : State) (p a : Nat) : State × Nat :=
  let v := s.peek64 p a
  (((s.unlatch p).touchReg p a).touchReg p (a + 4), v)

/-- Words in ascending order (16 R365); the two dwords of a 64-bit register are read at one instant where the words cover both (23 R492). -/
def State.readWords (p : Nat) : Nat → Nat → State → State × List Nat
  | _, 0, s => (s, [])
  | a, 1, s => let x := s.read4 p a; (x.1, [x.2])
  | a, n + 2, s =>
    if wideHalf a 0 then
      let x := s.read8 p a
      let y := State.readWords p (a + 8) n x.1
      (y.1, x.2 % 2 ^ 32 :: x.2 / 2 ^ 32 :: y.2)
    else
      let x := s.read4 p a
      let y := State.readWords p (a + 4) (n + 1) x.1
      (y.1, x.2 :: y.2)

/-! ### Writes (23 R493, R495; 00 R5) -/

/-- A field's value once dword `h` of its register is written with `v`: the bits of the field outside that dword stay. -/
def fldNew (f : Fld) (h v old : Nat) : Nat :=
  let a := max f.lo (32 * h)
  let b := min (f.lo + f.w) (32 * h + 32)
  if a < b then
    let k := a - f.lo
    old % 2 ^ k + v / 2 ^ (a - 32 * h) % 2 ^ (b - a) * 2 ^ k + old / 2 ^ (k + (b - a)) * 2 ^ (k + (b - a))
  else old

/-- Values that a field ignores, because its register's table says so; the field keeps its value. -/
def fldTakes (f : Fld) (v : Nat) : Bool :=
  if f = F.ZON_DIRECT_MAX then 1 ≤ v && v ≤ 32
  else if f = F.MED_WIN_CFG_PCT then 4 ≤ v && v ≤ 25
  else if f = F.KZL_CTL_WIDTH_CAP || f = F.ETH_WAKE_CFG_MODE || f = F.IMG_CTL_NEXT_PHASE || f = F.THM_TS_CFG_KIND || f = F.RAS_UNIT_SEL_KIND then v != 3
  else if f = F.MED_SCHED_CFG_RA_THRESH then 20 ≤ v && v ≤ 10000
  else if f = F.MED_SCHED_CFG_SUS_MAX then v ≤ 12
  else if f = F.RCH_CFG_SOFT_MAX || f = F.THM_CFG_HYST || f = F.RAS_CFG_RET_PASS then v != 0
  else if f = F.RCH_PATROL_CFG_PERIOD then 24 ≤ v && v ≤ 240
  else if f = F.PCX_SRIOV_CFG_VF_VEC then 1 ≤ v && v ≤ 2048
  else if f = F.DRC_PORT_TGT_TGT_NS then 50 ≤ v && v ≤ 16000000
  else true

/-- The copy of a register's field that a path reaches. -/
def Reg.copy (r : Reg) (p : Nat) : Nat := if r.perPath then p else 0

/-- A write of dword `h` reaches one field, as its access code has it. MCACHE_CTL.EN is written by its action. -/
def State.writeFld (s : State) (p : Nat) (r : Reg) (i j h v : Nat) (f : Fld) : State :=
  let q := r.copy p
  let old := s.rd f i j q
  match f.acc with
  | .rw | .rws =>
    let n := fldNew f h v old
    if f = F.MCACHE_CTL_EN || !fldTakes f n then s else s.wr f n i j q
  | .rw1c =>
    if f = F.RAS_CE_ENT_VALID then
      (if v % 2 = 1 then
        let k := s.rd F.RAS_CE_SEL_INDEX 0 0 p
        { s with ras := { s.ras with ce := s.ras.ce.filter (fun e => e.idx != k) } }
      else s)
    else s.wr f (old - Nat.land old (fldNew f h v 0)) i j q
  | _ => s

/-- The fields of a register that dword `h` holds a part of. -/
def Reg.inDword (r : Reg) (h : Nat) : List Fld := r.flds.filter (fun f => f.lo < 32 * h + 32 && 32 * h < f.lo + f.w)

/-- What a field is to become by a write of dword `h`. -/
def State.wants (s : State) (f : Fld) (i h v : Nat) : Nat := cut f.w (fldNew f h v (s.rd f i))

/-- A write that the whole register refuses, with the flag it sets (03 R66, R83; 11 R272; 15 R346); none where it is taken. -/
def State.refusedBy (s : State) (r : Reg) (i h v : Nat) : Option (State → State) :=
  if r.base = R.LGR_LC_TGT.base then
    let t := fun (k : Nat) => if k = i then s.wants F.LGR_LC_TGT_TARGET i h v else s.rd F.LGR_LC_TGT_TARGET k
    if (List.range 6).all (fun k => t k ≤ t (k + 1)) then none else some (fun s => s.wr F.LGR_STS_LC_ERR 1)
  else if r.base = R.LGR_EVT_VEC.base then
    let x := s.wants F.LGR_EVT_VEC_VECTOR i h v
    if s.sl.cqs.any (fun c => c.func = 0 && c.vec = x) then some (fun s => s.wr F.LGR_STS_VEC_ERR 1) else none
  else if r.base = R.FTL_GC_CFG.base then
    let low := s.wants F.FTL_GC_CFG_LOW i h v
    if s.wants F.FTL_GC_CFG_CRIT i h v < low && low ≤ s.wants F.FTL_GC_CFG_GC_START i h v then none else some (fun s => s.wr F.FTL_STS_CFG_ERR 1)
  else if r.base = R.DRC_SCHED_CFG.base then
    if s.wants F.DRC_SCHED_CFG_WR_LO i h v < s.wants F.DRC_SCHED_CFG_WR_HI i h v then none else some id
  else none

/-- Writes EN of a link (08 R206): 0 holds hop 0 DOWN, with all dies of the link unreachable; from 1 on it trains again at its next retrain. -/
def State.linkEn (s : State) (l was : Nat) : State :=
  if was = 1 && s.rd F.KZL_CTL_EN l = 0 then ((s.hopDown l 0).cutOff l 0).ceiling false else s

/-- The action of a written dword, after its fields are stored. -/
def State.wrote (s : State) (r : Reg) (i h v was : Nat) : State :=
  let go := bit v 31
  if r.base = R.MCACHE_CTL.base then (if bit v 1 then s.invAll else s).mcEnable (bit v 0)
  else if r.base = R.MCACHE_INV_CNT.base then (if go then s.invGo else s)
  else if r.base = R.MED_DIE_RETIRE.base then (if go then s.retireDie (cut 12 v) else s)
  else if r.base = R.TIM_SET.base then (if h = 1 && go then s.timSetGo else s)
  else if r.base = R.EVR_CTL.base then
    let s := if bit v 2 then s.faultFlush else s
    if bit v 1 then s.evrClear else s
  else if r.base = R.RAS_UNIT_CTL.base then
    let k := cut 2 v
    let x := cut 7 (v / 4)
    if bit v 9 then s.fenceUnit k x 4 else if bit v 10 then s.release k x else s
  else if r.base = R.KZL_CTL.base then s.linkEn i was
  else if r.base = R.PWR_CFG.base then s.tolCheck
  else if r.base = R.PWR_HOST_STEP.base || r.base = R.THM_CFG.base then s.stepUp
  else if r.base = R.THM_TS_CFG.base then s.tsSet i
  else s

/-! ### The controller reset (17 R386, R387; 23 R496, R499) -/

/-- Whether a CTRL_RESET is refused: the power-fail sequence runs or is done, a reset is pending, or start-up is before admin-ready. -/
def State.resetRefused (s : State) : Bool :=
  let ph := s.rd F.MED_PF_STS_PHASE
  (1 ≤ ph && ph ≤ 3) || s.rd F.GEN_STS_RST_PEND = 1 || (s.rd F.IMG_STS_PHASE = 0 && !s.img.admReady)

/-- The Puppeteer restarts from the active bank; a firmware exchange that awaits COMMIT is rolled back. -/
def State.pupRestart (s : State) : State :=
  let s := if s.swapping then s.rollback else s
  let s := (s.dmaStop).redeliver.sweepDrop
  let s := if s.rd F.PUP_STS_SPARE = 3 then s.wr F.PUP_STS_SPARE 0 else s
  { s with pup := { s.pup with kept := none, l1 := [], wdtAt := s.el } }

/-- An accepted controller reset: a shutdown checkpoint is made; slice 0 is reset (02 R62); start-up is entered again at step 9, or at step 8 for
the test and recovery phases. Staging, DRAM contents, trained edges and enumerated chains stay. -/
def State.ctrlReset (s : State) : State :=
  let t := s.rd F.IMG_CTL_NEXT_PHASE
  let s := (s.dirtyLines.filter (fun l => !l.wb)).foldl State.writeLine s.ckptStart
  let s := s.ckptFinish.pupRestart
  let zs := s.queuesOf 0
  let s := (s.dropCmds (fun i => zs.contains i)).endReset 0
  let s := (s.wr F.GEN_STS_WR_IGN 0).wr F.GEN_ACC_ERR_BAR0 0
  let s := (s.wr F.GEN_ACC_ERR_MI 0).wr F.GEN_ACC_LOG_VALID 0
  let s := ((s.inc F.GEN_RST_CNT_CTRL).wr F.GEN_STS_CAUSE 4).wr F.GEN_STS_RST_PEND 1
  let s := ((s.wr F.GEN_STS_MI_AVAIL 0).wr F.IMG_STS_PHASE 0).wr F.IMG_STS_STEP (if t = 0 then 9 else 8)
  let s := { s with gen := { s.gen with inReset := true } }
  let s := { s with img := { s.img with admReady := false, replayed := false, warm := true, target := t, startAt := s.el } }
  s.faultLow

/-- A write of GEN_CTL (23 R498, R499). -/
def State.genCtl (s : State) (v : Nat) : State :=
  if v / 2 ^ 16 != 0xA5C3 then s.wr F.GEN_STS_WR_IGN 1
  else if v % 2 = 0 then s
  else if s.resetRefused then s.wr F.GEN_STS_WR_IGN 1
  else s.ctrlReset

/-! ### Command fetch (03 R73; 20 R433, R435) -/

/-- A parity error in a queue's context (20 R433): its slice is fenced with reason 3 (02 R59). Of slice 0 it is a device fault: an I/O queue is
reset, any other context causes a controller reset (20 R435). -/
def State.ctxParity (s : State) (i : Nat) (q : Queue) : State :=
  let s := s.sramUe 9 i
  if q.slice != 0 then s.fence q.slice 3
  else
    let s := s.deviceFault 2
    if q.qid != 0 then (s.queueReset i).1 else s.ctrlReset.wr F.GEN_STS_CAUSE 5

/-- COMMAND_FETCH (03 R65, R73, R74): the arbiters grant a slot; the winner's oldest entry, with command identifier `cid`, is fetched, or with
`perr` its queue's context shows a parity error. Commands are fetched in Run and Lean only (18 R399). -/
def execCommandFetch (cid : Nat) (perr : Bool) (s : State) : Res :=
  .next (
    if !s.awake || !s.counting || !s.img.admReady then s
    else
      match s.bestQueue (s.sl.qs.filter (fun e => s.fetchable e.1 e.2)) with
      | none => s
      | some (i, q) => if perr then s.ctxParity i q else s.fetchFrom i cid q)

/-! ### A dword written -/

/-- A write of one dword of a register's entry. -/
def State.writeReg (s : State) (p : Nat) (r : Reg) (i j h v : Nat) : State :=
  if r.base = R.GEN_CTL.base then s.genCtl v
  else
    match s.refusedBy r i h v with
    | some f => f s
    | none =>
      let was := if r.base = R.KZL_CTL.base then s.rd F.KZL_CTL_EN i else 0
      ((r.inDword h).foldl (fun (s : State) f => s.writeFld p r i j h v f) s).wrote r i h v was

/-- Whether a written dword holds fields, all of them locked (23 R495). -/
def lockedDword (a : Nat) : Bool :=
  match locate a regTable with
  | some (r, _, _, off) => let l := r.inDword (off / 4); !l.isEmpty && l.all (fun f => f.acc = .rwl)
  | none => false

/-- The dword at an address is written; reserved addresses ignore writes (00 R8). -/
def State.write4 (s : State) (p a v : Nat) : State :=
  match locate a regTable with
  | some (r, i, j, off) => s.writeReg p r i j (off / 4) v
  | none => s

/-- A write access of one dword, or of two at one instant: during a controller reset BAR0 writes outside the GEN block are ignored and logged
(23 R490); a write whose every field is locked is logged (R495). -/
def State.write (s : State) (p a : Nat) (ws : List Nat) : State :=
  let s := s.unlatch p
  if p = 0 && s.gen.inReset && 0x10000 ≤ a then s.accLog p 5 true a
  else
    let as := (List.range ws.length).map (fun k => a + 4 * k)
    let has := as.filter (fun b => (locate b regTable).any (fun x => !(x.1.inDword (x.2.2.2 / 4)).isEmpty))
    let s := if !has.isEmpty && has.all lockedDword then s.accLog p 2 true a else s
    (as.zip ws).foldl (fun (s : State) e => s.write4 p e.1 (cut 32 e.2)) s

/-- Dwords written through NVMe-MI, one after another in ascending order (16 R365; 23 R493). -/
def State.writeWords (s : State) (p : Nat) : Nat → List Nat → State
  | _, [] => s
  | a, w :: ws => if s.pathUp p then (s.write p a [w]).writeWords p (a + 4) ws else s

/-- The answer of a read on a path. -/
def State.answer (s : State) (p a : Nat) (ws : List Nat) : State :=
  if p = 0 then s.send (.rd a (leWords ws)) else s.send (.mi 0 ws)
where
  leWords : List Nat → Nat
    | [] => 0
    | w :: t => w + 2 ^ 32 * leWords t

/-! ### The meanings of the register commands -/

/-- The end of the management space. -/
def mgmtEnd : Nat := 0x4000000

/-- MANAGEMENT_REGISTER_WRITE (00 R5-R9; 23 R489-R495): a BAR0 write of `len` bytes at management address `a`; `full`: all its byte enables are set. -/
def execManagementRegisterWrite (a len : Nat) (full : Bool) (v : Nat) (s : State) : Res :=
  .next (
    if !s.barUp || a ≥ mgmtEnd then s
    else if (len != 4 && len != 8) || a % max 1 len != 0 then (s.unlatch 0).accLog 0 3 true a
    else if !full then (s.unlatch 0).accLog 0 1 true a
    else s.write 0 a (if len = 4 then [v] else [v % 2 ^ 32, v / 2 ^ 32]))

/-- RC_FIELD_READ (00 R6; 23 R489-R492): a BAR0 read of `len` bytes at management address `a`; `full`: all its byte enables are set. -/
def execRcFieldRead (a len : Nat) (full : Bool) (s : State) : Res :=
  .next (
    if !s.barUp || a ≥ mgmtEnd then s
    else if len > 8 then ((s.unlatch 0).accLog 0 4 false a).send (.ca a)
    else if (len != 4 && len != 8) || a % max 1 len != 0 then ((s.unlatch 0).accLog 0 3 false a).send (.ca a)
    else
      let s := if full then s else s.accLog 0 1 false a
      let x := if len = 4 then s.read4 0 a else s.read8 0 a
      x.1.send (.rd a x.2))

/-- GEN_CTRL_RESET (17 R386, R387; 23 R499): a write of GEN_CTL with KEY and CTRL_RESET on a path. -/
def execGenCtrlReset (p key : Nat) (s : State) : Res :=
  .next (if s.pathUp p then s.write (min p 1) R.GEN_CTL.base [cut 16 key * 2 ^ 16 + 1] else s)

/-- MED_DIE_RETIRE_GO (09 R226). -/
def execMedDieRetireGo (p die : Nat) (s : State) : Res :=
  .next (if s.pathUp p then s.write (min p 1) R.MED_DIE_RETIRE.base [cut 12 die + 2 ^ 31] else s)

/-- LGR_LC_TGT_WRITE (03 R66): the target of class `k`, in µs; it applies from the next epoch on. -/
def execLgrLcTgtWrite (p k us : Nat) (s : State) : Res :=
  .next (if s.pathUp p && k < 8 then s.write (min p 1) (R.LGR_LC_TGT.base + 4 * k) [cut 24 us] else s)

/-- LGR_EVT_VEC_WRITE (03 R83): the vector of event class `k`, and whether it is signalled. -/
def execLgrEvtVecWrite (p k vec : Nat) (en : Bool) (s : State) : Res :=
  .next (if s.pathUp p && k < 8 then s.write (min p 1) (R.LGR_EVT_VEC.base + 4 * k) [cut 11 vec + b2n en * 2 ^ 15] else s)

/-- FTL_GC_CFG_WRITE (11 R272, R273). -/
def execFtlGcCfgWrite (p low crit start ahead : Nat) (s : State) : Res :=
  .next (if s.pathUp p then
      s.write (min p 1) R.FTL_GC_CFG.base [cut 8 low + cut 8 crit * 2 ^ 8 + cut 8 start * 2 ^ 16 + cut 4 ahead * 2 ^ 24]
    else s)

/-- HEALTH_WINDOW_READ (09 R223): MED_HLTH_BLK (`w` 0), MED_HLTH_DIE (1) or MED_HLTH_ERS is read. -/
def execHealthWindowRead (p w : Nat) (s : State) : Res :=
  .next (
    if !s.pathUp p then s
    else
      let r := if w = 0 then R.MED_HLTH_BLK else if w = 1 then R.MED_HLTH_DIE else R.MED_HLTH_ERS
      let x := State.readWords (min p 1) r.base (r.width / 32) s
      x.1.answer (min p 1) r.base x.2)

/-- TIM_NOW_READ (19 R432): both dwords of TIM_NOW; the fraction is latched for the path. -/
def execTimNowRead (p : Nat) (s : State) : Res :=
  .next (
    if !s.pathUp p then s
    else
      let x := State.readWords (min p 1) R.TIM_NOW.base 2 s
      x.1.answer (min p 1) R.TIM_NOW.base x.2)

end Sys2Proof.Machine
end

