-- ==== Sys2Proof/Machine/Mi.lean ====
section
/-! DEFINITION. NVMe-MI (16 R364, R365; 17 R384; 23 R490): when its requests are held and when they are served, what each request does, and the
meanings of its commands. -/

namespace Sys2Proof.Machine

/-! ### What each request does -/

/-- Status of a response: Success. -/
def miOk : Nat := 0

/-- Status of a response: Invalid Parameter; the code is the NVMe-MI specification's (log 62). -/
def miParam : Nat := 4

/-- The state that an answer leaves. -/
def Res.st (s : State) : Res → State
  | .next t => t
  | _ => s

/-- A tunnelled admin command: it is executed as a slice 0 admin command of NVMe-MI; anything else is no admin command (16 R364). -/
def State.tunnel (i : Instr) (s : State) : State :=
  match i with
  | .captureStreamCreate _ cid act k desc => (execCaptureStreamCreate .mi cid act k desc s).st s
  | .captureStreamModify _ cid k desc => (execCaptureStreamModify .mi cid k desc s).st s
  | .captureStreamStart _ cid k => (execCaptureStreamStart .mi cid k s).st s
  | .captureStreamStop _ cid k => (execCaptureStreamStop .mi cid k s).st s
  | .captureStreamDelete _ cid k => (execCaptureStreamDelete .mi cid k s).st s
  | .firmwareDownload _ cid off len data => (execFirmwareDownload .mi cid off len data s).st s
  | .firmwareCommitCa000 _ cid fs nor spd => (execFirmwareCommitCa000 .mi cid fs nor spd s).st s
  | .firmwareCommitCa001 _ cid fs nor spd => (execFirmwareCommitCa001 .mi cid fs nor spd s).st s
  | .firmwareCommitCa010 _ cid fs spd => (execFirmwareCommitCa010 .mi cid fs spd s).st s
  | .firmwareCommitCa011 _ cid fs nor spd => (execFirmwareCommitCa011 .mi cid fs nor spd s).st s
  | .beginReshape _ cid act g sup => (execBeginReshape .mi cid act g sup s).st s
  | .abortReshape _ cid => (execAbortReshape .mi cid s).st s
  | .prepareRemoval _ cid l b => (execPrepareRemoval .mi cid l b s).st s
  | .getLogPageEventQueue _ cid off len rae => (execGetLogPageEventQueue .mi cid off len rae s).st s
  | .getLogPageChangedZoneList _ cid nsid => (execGetLogPageChangedZoneList .mi cid nsid s).st s
  | .getLogPageCalibrationSweep _ cid off len => (execGetLogPageCalibrationSweep .mi cid off len s).st s
  | .getLogPageTemperatureSweep _ cid off len => (execGetLogPageTemperatureSweep .mi cid off len s).st s
  | .getLogPageRecorderLive _ cid off len => (execGetLogPageRecorderLive .mi cid off len s).st s
  | .getLogPageRecorderNand _ cid lsp off len => (execGetLogPageRecorderNand .mi cid lsp off len s).st s
  | .getLogPageRecorderNor _ cid lsp off len => (execGetLogPageRecorderNor .mi cid lsp off len s).st s
  | .getLogPageSmartHealth _ cid => (execGetLogPageSmartHealth .mi cid s).st s
  | .getLogPageErrorInformation _ cid n => (execGetLogPageErrorInformation .mi cid n s).st s
  | .namespaceCreate _ cid zoned nsze ncap lbaf dg cipher => (execNamespaceCreate .mi cid zoned nsze ncap lbaf dg cipher s).st s
  | .namespaceDelete _ cid nsid => (execNamespaceDelete .mi cid nsid s).st s
  | .namespaceAttachment _ cid nsid detach ctls => (execNamespaceAttachment .mi cid nsid detach ctls s).st s
  | .formatNvm _ cid nsid lbaf => (execFormatNvm .mi cid nsid lbaf s).st s
  | .sanitizeCryptoErase _ cid => (execSanitizeCryptoErase .mi cid s).st s
  | .identify _ cid cns nsid => (execIdentify .mi cid cns nsid s).st s
  | .keepAlive _ cid => (execKeepAlive .mi cid s).st s
  | .setFeaturesPowerManagement _ cid ps => (execSetFeaturesPowerManagement .mi cid ps s).st s
  | .setFeaturesApst _ cid en ents => (execSetFeaturesApst .mi cid en ents s).st s
  | .setFeaturesTempThreshold _ cid sensor under kelvin => (execSetFeaturesTempThreshold .mi cid sensor under kelvin s).st s
  | .createIoCompletionQueue _ cid cqid qsize vec => (execCreateIoCompletionQueue .mi cid cqid qsize vec s).st s
  | .createIoSubmissionQueue _ cid qid qsize cqid bind lc ff base => (execCreateIoSubmissionQueue .mi cid qid qsize cqid bind lc ff base s).st s
  | .deleteIoCompletionQueue _ cid cqid => (execDeleteIoCompletionQueue .mi cid cqid s).st s
  | .deleteIoSubmissionQueue _ cid qid => (execDeleteIoSubmissionQueue .mi cid qid s).st s
  | .setFeaturesQueueClass _ cid qid lc ff => (execSetFeaturesQueueClass .mi cid qid lc ff s).st s
  | .getFeaturesQueueClass _ cid qid => (execGetFeaturesQueueClass .mi cid qid s).st s
  | .setFeaturesInterruptCoalescing _ cid time thr => (execSetFeaturesInterruptCoalescing .mi cid time thr s).st s
  | .setFeaturesIntVectorConfig _ cid vec cd => (execSetFeaturesIntVectorConfig .mi cid vec cd s).st s
  | .asyncEventRequest _ cid => (execAsyncEventRequest .mi cid s).st s
  | .sliceCreate _ cid act n desc => (execSliceCreate .mi cid act n desc s).st s
  | .sliceResize _ cid n desc => (execSliceResize .mi cid n desc s).st s
  | .sliceDelete _ cid n => (execSliceDelete .mi cid n s).st s
  | .sliceReset _ cid n => (execSliceReset .mi cid n s).st s
  | .sliceFence _ cid n => (execSliceFence .mi cid n s).st s
  | .queueReset _ cid n i rsv => (execQueueReset .mi cid n i rsv s).st s
  | .sliceBind _ cid n idx kind func pasid host sub ents => (execSliceBind .mi cid n idx kind func pasid host sub ents s).st s
  | .sliceUnbind _ cid n idx kind => (execSliceUnbind .mi cid n idx kind s).st s
  | .setFeaturesTimestamp _ cid ms waited => (execSetFeaturesTimestamp .mi cid ms waited s).st s
  | .getFeaturesTimestamp _ cid => (execGetFeaturesTimestamp .mi cid s).st s
  | _ => s.adm .mi 0 stOpcode

/-- Read NVMe-MI Data Structure: a structure of the NVMe-MI specification, whose contents the spec does not give (log 63). -/
def State.miStructure (s : State) (ty : Nat) : State := (s.send (.mi miOk [ty, s.drawn 22])).draw

/-- NVM Subsystem Health Status Poll: Critical Warning, composite temperature in kelvins, percentage used, and CSTS.RDY of PF0 (log 63). -/
def State.miSubsystem (s : State) : State :=
  s.send (.mi miOk [s.critNow, s.kelvin 0, s.rd F.MED_WEAR_PCT_USED, b2n ((s.fn 0).any (fun f => f.rdy))])

/-- Controller Health Status Poll of a function: CSTS.RDY and SHST, composite temperature, percentage used, available spare, Critical Warning; a
function that is not there fails (log 63). -/
def State.miController (s : State) (n : Nat) : State :=
  match s.fn n with
  | none => s.send (.mi miParam [])
  | some f => s.send (.mi miOk [b2n f.rdy, f.shst, s.kelvin 0, s.rd F.MED_WEAR_PCT_USED, s.availSpare, s.critNow])

/-- Whether a configuration may hold a value: 1 the SMBus frequency (1 for 100 kHz, 2 for 400 kHz), 2 Health Status Change, 3 the MCTP transmission
unit, 64 bytes (16 R364; log 62). -/
def miCfgTakes (id v : Nat) : Bool := (id = 1 && (v = 1 || v = 2)) || id = 2 || (id = 3 && v = 64)

/-- Configuration Get. -/
def State.miGet (s : State) (id : Nat) : State :=
  if 1 ≤ id && id ≤ 3 then s.send (.mi miOk [(Tab.find id s.pup.miCfg).getD (if id = 1 then 1 else if id = 3 then 64 else 0)])
  else s.send (.mi miParam [])

/-- Configuration Set. -/
def State.miSet (s : State) (id v : Nat) : State :=
  if miCfgTakes id v then ({ s with pup := { s.pup with miCfg := Tab.put id v s.pup.miCfg } }).send (.mi miOk [])
  else s.send (.mi miParam [])

/-- Bytes of the vital product data (log 46). -/
def vpdBytes : Nat := 256

/-- VPD Read. -/
def State.vpdRead (s : State) (off len : Nat) : State :=
  if off + len ≤ vpdBytes then s.send (.mi miOk ((List.range len).map (fun k => (Tab.find (off + k) s.pup.vpd).getD 0)))
  else s.send (.mi miParam [])

/-- VPD Write. -/
def State.vpdWrite (s : State) (off : Nat) (data : List Nat) : State :=
  if off + data.length ≤ vpdBytes then
    ({ s with pup := { s.pup with vpd := (data.zipIdx).foldl (fun (t : Tab Nat) (e : Nat × Nat) =>
        if cut 8 e.1 = 0 then Tab.del (off + e.2) t else Tab.put (off + e.2) (cut 8 e.1) t) s.pup.vpd } }).send (.mi miOk [])
  else s.send (.mi miParam [])

/-- Whether a Register Read or Write names words of the management space (16 R365). -/
def regSpan (a len : Nat) : Bool := a % 4 = 0 && len % 4 = 0 && 4 ≤ len && len ≤ 4096 && a + len ≤ mgmtEnd

/-- Register Read (16 R365). -/
def State.miRegRead (s : State) (a len : Nat) : State :=
  if regSpan a len then
    let x := State.readWords 1 a (len / 4) s
    x.1.answer 1 a x.2
  else s.send (.mi miParam [])

/-- Register Write (16 R365): its response precedes a controller reset that it starts (23 R499); no word after that is written. -/
def State.miRegWrite (s : State) (a len : Nat) (ws : List Nat) : State :=
  if regSpan a len then (s.send (.mi miOk [])).writeWords 1 a ((List.range (len / 4)).map (fun k => ws.getD k 0))
  else s.send (.mi miParam [])

/-- What a request does when it is served. -/
def State.miRun (i : Instr) (s : State) : State :=
  match i with
  | .miReadDataStructure _ _ ty => s.miStructure ty
  | .miSubsystemHealthPoll _ _ => s.miSubsystem
  | .miControllerHealthPoll _ _ n => s.miController n
  | .miConfigurationGet _ _ id => s.miGet id
  | .miConfigurationSet _ _ id v => s.miSet id v
  | .miVpdRead _ _ off len => s.vpdRead off len
  | .miVpdWrite _ _ off data => s.vpdWrite off data
  | .miReset _ _ => s.send (.mi miParam [])
  | .miTunnelledAdmin _ _ c => s.tunnel c
  | .registerRead _ _ a len => s.miRegRead a len
  | .registerWrite _ _ a len ws => s.miRegWrite a len ws
  | _ => s

/-! ### Held and served (16 R364; 17 R384; 18 R404; 23 R490) -/

/-- Serves requests in order, as long as the path is available; the rest stays held. -/
def State.serveList : List Instr → State → State
  | [], s => { s with pup := { s.pup with miHeld := [] } }
  | i :: t, s => if s.miUp then State.serveList t (s.miRun i) else { s with pup := { s.pup with miHeld := i :: t } }

/-- Serves what is held. -/
def State.serveHeld (s : State) : State := if s.pup.miHeld.isEmpty then s else State.serveList s.pup.miHeld s

/-- Holds a request in one of the two command slots; where both are taken, it is dropped (log 64). -/
def State.holdMi (s : State) (i : Instr) : State :=
  if s.pup.miHeld.length < 2 then { s with pup := { s.pup with miHeld := s.pup.miHeld ++ [i] } } else s

/-- A request arrives, over PCIe VDM or over SMBus. None is answered while the controller does not run, the Puppeteer is stopped or the transport
is off. SMBus in Nap is a wake source and is NACKed; before admin-ready it is NACKed, and VDM is held from step 6 on; during an
exchange both are held. Every message needs its integrity check: one without (`mic` false) is discarded (16 R364; log 62). -/
def State.mi (s : State) (vdm mic : Bool) (i : Instr) : State :=
  if !mic || s.dead || s.stopped || (if vdm then s.rd F.PUP_MI_CFG_VDM_EN = 0 else s.rd F.PUP_MI_CFG_SMB_EN = 0) then s
  else if !vdm && s.rd F.PWR_STS_STATE = pwNap then s.wakeSrc 5 0 0
  else if s.miUp then s.serveHeld.miRun i
  else if s.tables && (vdm || s.img.admReady) then s.holdMi i
  else s

/-- What a step does while no command waits: one REFCLK cycle passes (19 R416), and requests that were held are served once they can be (log 1). -/
def State.clock (s : State) : State := s.cycle.drcDrain.serveHeld

/-! ### The meanings of the NVMe-MI commands -/

/-- MI_READ_DATA_STRUCTURE (16 R364): structure type `ty`. -/
def execMiReadDataStructure (vdm mic : Bool) (ty : Nat) (s : State) : Res := .next (s.mi vdm mic (.miReadDataStructure vdm mic ty))

/-- MI_SUBSYSTEM_HEALTH_POLL (16 R364). -/
def execMiSubsystemHealthPoll (vdm mic : Bool) (s : State) : Res := .next (s.mi vdm mic (.miSubsystemHealthPoll vdm mic))

/-- MI_CONTROLLER_HEALTH_POLL (16 R364): of the controller of function `n`. -/
def execMiControllerHealthPoll (vdm mic : Bool) (n : Nat) (s : State) : Res := .next (s.mi vdm mic (.miControllerHealthPoll vdm mic n))

/-- MI_CONFIGURATION_GET (16 R364). -/
def execMiConfigurationGet (vdm mic : Bool) (id : Nat) (s : State) : Res := .next (s.mi vdm mic (.miConfigurationGet vdm mic id))

/-- MI_CONFIGURATION_SET (16 R364). -/
def execMiConfigurationSet (vdm mic : Bool) (id v : Nat) (s : State) : Res := .next (s.mi vdm mic (.miConfigurationSet vdm mic id v))

/-- MI_VPD_READ (16 R364). -/
def execMiVpdRead (vdm mic : Bool) (off len : Nat) (s : State) : Res := .next (s.mi vdm mic (.miVpdRead vdm mic off len))

/-- MI_VPD_WRITE (16 R364). -/
def execMiVpdWrite (vdm mic : Bool) (off : Nat) (data : List Nat) (s : State) : Res := .next (s.mi vdm mic (.miVpdWrite vdm mic off data))

/-- MI_RESET (16 R364): Reset fails with Invalid Parameter. -/
def execMiReset (vdm mic : Bool) (s : State) : Res := .next (s.mi vdm mic (.miReset vdm mic))

/-- MI_TUNNELLED_ADMIN (16 R364): `c` is the admin command; its sender is NVMe-MI, whatever sender it names. -/
def execMiTunnelledAdmin (vdm mic : Bool) (c : Instr) (s : State) : Res := .next (s.mi vdm mic (.miTunnelledAdmin vdm mic c))

/-- SMBUS_BASIC_MANAGEMENT_READ (16 R364): a read at address 0x6A returns basic status: whether the controller is ready, Critical Warning, composite
temperature in kelvins, percentage used (log 63). Where it is not answered it is NACKed. -/
def execSmbusBasicManagementRead (s : State) : Res :=
  .next (
    if s.dead || s.stopped || s.rd F.PUP_MI_CFG_SMB_EN = 0 then s
    else if s.rd F.PWR_STS_STATE = pwNap then s.wakeSrc 5 0 0
    else if !s.miUp then s
    else s.send (.mi miOk [b2n s.ready, s.critNow, s.kelvin 0, s.rd F.MED_WEAR_PCT_USED]))

/-- REGISTER_READ (16 R365): vendor command 0xC0. -/
def execRegisterRead (vdm mic : Bool) (a len : Nat) (s : State) : Res := .next (s.mi vdm mic (.registerRead vdm mic a len))

/-- REGISTER_WRITE (16 R365): vendor command 0xC1, with its words. -/
def execRegisterWrite (vdm mic : Bool) (a len : Nat) (ws : List Nat) (s : State) : Res := .next (s.mi vdm mic (.registerWrite vdm mic a len ws))

end Sys2Proof.Machine
end

