-- ==== Sys2Proof/Machine/Pcie.lean ====
section
/-! DEFINITION. The meanings of the host port's commands (14 R312-R328; 11 R267). -/

namespace Sys2Proof.Machine

/-- Clears PASID Enable of a function (R315): the queues made under its PASID bindings are reset. -/
def State.pasidOff (s : State) (n : Nat) : State :=
  match s.fn n with
  | none => s
  | some f =>
    (s.putFn n { f with pasidEn := false }).queueResets
      ((s.sl.qs.filter (fun e => !e.2.fabric && e.2.func = n && e.2.pasid.isSome)).map (·.1))

/-- Sets Bus Master Enable (R325): completions that waited are posted, in order; a stale one is discarded (02 R52). -/
def State.busMaster (s : State) (n : Nat) : State :=
  match s.fn n with
  | none => s
  | some f =>
    let s := s.putFn n { f with bme := true, held := [] }
    f.held.foldl (fun (s : State) (h : Held) =>
      if !s.live h.st.slice h.st.q h.st.genS h.st.genQ then s.stale h.st.slice
      else
        match h.c.org with
        | .io q =>
          match Tab.find q s.sl.qs with
          | some x =>
            let s := (s.send (.cpl h.c)).pushCq x.func x.cqid
            match s.cqOf x with
            | some cq => s.signal x.func cq.vec 0 h.st
            | none => s
          | none => s
        | _ => s.postAdm n h.c) s

/-- CONFIGURATION_REQUEST (R326; 17 R384): Request Retry Status until the structural tables are applied. A write goes to register `reg`
of the configuration space, as far as the model holds it: 1 Memory Space Enable, 2 PASID Enable, 3 the largest no-snoop latency
of LTR, in ns, 4 no such latency; 0 is any other request. -/
def execConfigurationRequest (n reg val : Nat) (s : State) : Res :=
  .next (
    if s.dead then s
    else if !s.tables then s.send (.pcie "RRS" [n])
    else
      let s := s.send (.pcie "configuration" [n, reg])
      match s.fn n with
      | none => s
      | some f =>
        match reg with
        | 1 => s.putFn n { f with mse := val != 0 }
        | 2 => if val = 0 then s.pasidOff n else s.putFn n { f with pasidEn := true }
        | 3 => ({ s with pwr := { s.pwr with ltr := some val } }).tolCheck
        | 4 => { s with pwr := { s.pwr with ltr := none } }
        | _ => s)

/-- A reset of a link's functions, by PERST_N or DL_Down (R325; 23 R496). -/
def State.linkReset (s : State) (l : Nat) : State :=
  ((s.pfs.filter (fun pf => pf = l)).foldl State.pfReset s).pcxWarm

/-- PERST_N_ASSERT (R325; 16 R356; 23 R499): PERST_N of a link falls (`pin`), or the link reports DL_Down without it. -/
def execPerstNAssert (l : Nat) (pin : Bool) (s : State) : Res :=
  .next (
    if l ≥ 2 || (l = 1 && s.rd F.PCX_CFG_BIFUR = 0) || (pin && !s.pcx.perst.getD l false) then s
    else
      let was := s.rd F.PCX_LINK_STS_UP l
      let s := if pin then { s with pcx := { s.pcx with perst := s.pcx.perst.set l false } } else s
      if !s.img.por || s.pwr.jack || (!pin && was = 0) then s
      else
        let s := if pin then ((s.inc F.PCX_RST_CNT_PERST).edge 19 0).wr F.GEN_STS_CAUSE 2 else s
        let s := (s.linkReset l).linkOff l
        if was = 1 then s.inc F.PCX_LINK_STS_DOWN_CNT l else s)

/-- PERST_N_DEASSERT (R311, R326; 16 R356; 18 R404): PERST_N of a link rises and the link trains, at a rate of 2.5 to 64 GT/s, 1 to 6, and a width; a
link that went down without it trains again. In Nap and Jack the edge is a wake source, in Jack `ns` after entry. -/
def execPerstNDeassert (l speed width : Nat) (flit cxl : Bool) (ns : Nat) (s : State) : Res :=
  .next (
    let was := s.pcx.perst.getD l false
    if l ≥ 2 || (was && s.rd F.PCX_LINK_STS_UP l = 1) then s
    else
      let s := { s with pcx := { s.pcx with perst := s.pcx.perst.set l true } }
      if s.pwr.jack then s.wakeSrc 3 l ns
      else if !s.img.por || s.img.rom || (l = 1 && s.rd F.PCX_CFG_BIFUR = 0) then s
      else
        let s := if was then s else (s.edge 19 1).wakeSrc 3 l ns
        if s.linkMay speed width && !s.img.noCal.contains 14 then s.linkOn l speed width flit cxl else s)

/-- FLR_PF (R325; 02 R56): an FLR of PF0 or PF1 resets the PF and its VFs; the link stays up. -/
def execFlrPf (pf : Nat) (s : State) : Res :=
  .next (if !s.pfs.contains pf || (s.fn (s.pfIdx pf)).isNone then s else 
    let s := if pf = 0 then s.wr F.GEN_STS_CAUSE 3 else s
    (s.inc F.PCX_RST_CNT_FLR).pfReset pf)

/-- FLR_VF (R325; 02 R56). -/
def execFlrVf (n : Nat) (s : State) : Res :=
  .next (
    if (s.fn n).isNone || s.pfs.any (fun pf => n = s.pfIdx pf) then s
    else (s.inc F.PCX_RST_CNT_FLR).fnReset n)

/-- CC_EN_SET (R314; 17 R384). -/
def execCcEnSet (n : Nat) (s : State) : Res :=
  .next (match s.fn n with
    | none => s
    | some f => (s.putFn n { f with ccEn := true }).tryReady n)

/-- CC_EN_CLEAR (R325). -/
def execCcEnClear (n : Nat) (s : State) : Res := .next (s.ctlReset n)

/-- SHUTDOWN_NOTIFICATION (11 R267): a shutdown checkpoint starts; CSTS.SHST shows it in progress, and complete at its CKPT_END. -/
def execShutdownNotification (n : Nat) (s : State) : Res :=
  .next (match s.fn n with
    | none => s
    | some f =>
      let s := (s.putFn n { f with shst := 1 }).ckptStart
      let s := (s.dirtyLines.filter (fun l => !l.wb)).foldl State.writeLine s
      s.ckptFinish)

/-- VF_ENABLE_SET (R313, R317): VF Enable of a PF is set with NumVFs `n`. A NumVFs past TotalVFs gives no VF. -/
def execVfEnableSet (pf n : Nat) (s : State) : Res :=
  .next (
    let i := s.pfIdx pf
    match s.fn i with
    | none => s
    | some f =>
      if !s.pfs.contains pf || f.vfEn || n = 0 || n > s.totalVfs pf then s
      else
        let free := 32768 - 2048 * s.pfs.length - s.vfVecs (1 - pf)
        let v := min (s.rd F.PCX_SRIOV_CFG_VF_VEC pf) (free / n)
        if v = 0 then s.wr F.PCX_SRIOV_STS_VEC_SHORT 1 pf
        else
          let s := (s.putFn i { f with vfEn := true, numVfs := n }).wr F.PCX_SRIOV_STS_VF_S v pf
          let s := s.wr F.PCX_SRIOV_STS_NUMVFS n pf
          (List.range n).foldl (fun (s : State) k => s.putFn (i + 1 + k) { FnSt.pf f.link with vecs := v }) s)

/-- VF_ENABLE_CLEAR (R325). -/
def execVfEnableClear (pf : Nat) (s : State) : Res :=
  .next (if s.pfs.contains pf && (s.fn (s.pfIdx pf)).isSome then s.vfOff pf else s)

/-- BUS_MASTER_ENABLE_CLEAR (R325). -/
def execBusMasterEnableClear (n : Nat) (s : State) : Res :=
  .next (match s.fn n with
    | none => s
    | some f => s.putFn n { f with bme := false })

/-- BUS_MASTER_ENABLE_SET (R325). -/
def execBusMasterEnableSet (n : Nat) (s : State) : Res := .next (s.busMaster n)

/-- PASID_ENABLE_CLEAR (R315). -/
def execPasidEnableClear (n : Nat) (s : State) : Res := .next (s.pasidOff n)

end Sys2Proof.Machine
end

