-- ==== Sys2Proof/Machine/Dispatch.lean ====
section
/-! DEFINITION. Which meaning each command has. -/

namespace Sys2Proof.Machine

/-- The effect of a command on everything but the queue. -/
def exec (i : Instr) (s : State) : Host.Outcome State Fault Refusal :=
  match i with
  | .sliceCreate o cid act n desc => Sys2Proof.Machine.execSliceCreate o cid act n desc s
  | .sliceResize o cid n desc => Sys2Proof.Machine.execSliceResize o cid n desc s
  | .sliceDelete o cid n => Sys2Proof.Machine.execSliceDelete o cid n s
  | .sliceReset o cid n => Sys2Proof.Machine.execSliceReset o cid n s
  | .sliceFence o cid n => Sys2Proof.Machine.execSliceFence o cid n s
  | .queueReset o cid n p_i rsv => Sys2Proof.Machine.execQueueReset o cid n p_i rsv s
  | .sliceBind o cid n idx kind func pasid host sub ents => Sys2Proof.Machine.execSliceBind o cid n idx kind func pasid host sub ents s
  | .sliceUnbind o cid n idx kind => Sys2Proof.Machine.execSliceUnbind o cid n idx kind s
  | .captureStreamCreate o cid act k desc => Sys2Proof.Machine.execCaptureStreamCreate o cid act k desc s
  | .captureStreamModify o cid k desc => Sys2Proof.Machine.execCaptureStreamModify o cid k desc s
  | .captureStreamStart o cid k => Sys2Proof.Machine.execCaptureStreamStart o cid k s
  | .captureStreamStop o cid k => Sys2Proof.Machine.execCaptureStreamStop o cid k s
  | .captureStreamDelete o cid k => Sys2Proof.Machine.execCaptureStreamDelete o cid k s
  | .beginReshape o cid act g sup => Sys2Proof.Machine.execBeginReshape o cid act g sup s
  | .abortReshape o cid => Sys2Proof.Machine.execAbortReshape o cid s
  | .prepareRemoval o cid l b => Sys2Proof.Machine.execPrepareRemoval o cid l b s
  | .firmwareDownload o cid off len data => Sys2Proof.Machine.execFirmwareDownload o cid off len data s
  | .firmwareCommitCa000 o cid fs nor spd => Sys2Proof.Machine.execFirmwareCommitCa000 o cid fs nor spd s
  | .firmwareCommitCa001 o cid fs nor spd => Sys2Proof.Machine.execFirmwareCommitCa001 o cid fs nor spd s
  | .firmwareCommitCa010 o cid fs spd => Sys2Proof.Machine.execFirmwareCommitCa010 o cid fs spd s
  | .firmwareCommitCa011 o cid fs nor spd => Sys2Proof.Machine.execFirmwareCommitCa011 o cid fs nor spd s
  | .createIoSubmissionQueue o cid qid qsize cqid bind lc ff base => Sys2Proof.Machine.execCreateIoSubmissionQueue o cid qid qsize cqid bind lc ff base s
  | .createIoCompletionQueue o cid cqid qsize vec => Sys2Proof.Machine.execCreateIoCompletionQueue o cid cqid qsize vec s
  | .deleteIoCompletionQueue o cid cqid => Sys2Proof.Machine.execDeleteIoCompletionQueue o cid cqid s
  | .deleteIoSubmissionQueue o cid qid => Sys2Proof.Machine.execDeleteIoSubmissionQueue o cid qid s
  | .connect qp cid qid size host sub kato a auth => Sys2Proof.Machine.execConnect qp cid qid size host sub kato a auth s
  | .setFeaturesQueueClass o cid qid lc ff => Sys2Proof.Machine.execSetFeaturesQueueClass o cid qid lc ff s
  | .getFeaturesQueueClass o cid qid => Sys2Proof.Machine.execGetFeaturesQueueClass o cid qid s
  | .setFeaturesTimestamp o cid ms waited => Sys2Proof.Machine.execSetFeaturesTimestamp o cid ms waited s
  | .getFeaturesTimestamp o cid => Sys2Proof.Machine.execGetFeaturesTimestamp o cid s
  | .setFeaturesPowerManagement o cid ps => Sys2Proof.Machine.execSetFeaturesPowerManagement o cid ps s
  | .setFeaturesApst o cid en ents => Sys2Proof.Machine.execSetFeaturesApst o cid en ents s
  | .setFeaturesInterruptCoalescing o cid time thr => Sys2Proof.Machine.execSetFeaturesInterruptCoalescing o cid time thr s
  | .setFeaturesIntVectorConfig o cid vec cd => Sys2Proof.Machine.execSetFeaturesIntVectorConfig o cid vec cd s
  | .setFeaturesTempThreshold o cid sensor under kelvin => Sys2Proof.Machine.execSetFeaturesTempThreshold o cid sensor under kelvin s
  | .getLogPageEventQueue o cid off len rae => Sys2Proof.Machine.execGetLogPageEventQueue o cid off len rae s
  | .getLogPageChangedZoneList o cid nsid => Sys2Proof.Machine.execGetLogPageChangedZoneList o cid nsid s
  | .getLogPageCalibrationSweep o cid off len => Sys2Proof.Machine.execGetLogPageCalibrationSweep o cid off len s
  | .getLogPageTemperatureSweep o cid off len => Sys2Proof.Machine.execGetLogPageTemperatureSweep o cid off len s
  | .getLogPageRecorderLive o cid off len => Sys2Proof.Machine.execGetLogPageRecorderLive o cid off len s
  | .getLogPageRecorderNand o cid lsp off len => Sys2Proof.Machine.execGetLogPageRecorderNand o cid lsp off len s
  | .getLogPageRecorderNor o cid lsp off len => Sys2Proof.Machine.execGetLogPageRecorderNor o cid lsp off len s
  | .getLogPageSmartHealth o cid => Sys2Proof.Machine.execGetLogPageSmartHealth o cid s
  | .getLogPageErrorInformation o cid n => Sys2Proof.Machine.execGetLogPageErrorInformation o cid n s
  | .identify o cid cns nsid => Sys2Proof.Machine.execIdentify o cid cns nsid s
  | .namespaceCreate o cid zoned nsze ncap lbaf dg cipher => Sys2Proof.Machine.execNamespaceCreate o cid zoned nsze ncap lbaf dg cipher s
  | .namespaceDelete o cid nsid => Sys2Proof.Machine.execNamespaceDelete o cid nsid s
  | .namespaceAttachment o cid nsid detach ctls => Sys2Proof.Machine.execNamespaceAttachment o cid nsid detach ctls s
  | .formatNvm o cid nsid lbaf => Sys2Proof.Machine.execFormatNvm o cid nsid lbaf s
  | .sanitizeCryptoErase o cid => Sys2Proof.Machine.execSanitizeCryptoErase o cid s
  | .asyncEventRequest o cid => Sys2Proof.Machine.execAsyncEventRequest o cid s
  | .keepAlive o cid => Sys2Proof.Machine.execKeepAlive o cid s
  | .keepAliveExpiry a => Sys2Proof.Machine.execKeepAliveExpiry a s
  | .read q cid nsid lba len lr addr es => Sys2Proof.Machine.execRead q cid nsid lba len lr addr es s
  | .write q cid nsid lba len lr fua => Sys2Proof.Machine.execWrite q cid nsid lba len lr fua s
  | .zoneAppend q cid nsid zslba len lr => Sys2Proof.Machine.execZoneAppend q cid nsid zslba len lr s
  | .writeZeroes q cid nsid lba len lr => Sys2Proof.Machine.execWriteZeroes q cid nsid lba len lr s
  | .deallocate q cid nsid ranges => Sys2Proof.Machine.execDeallocate q cid nsid ranges s
  | .flush q cid nsid => Sys2Proof.Machine.execFlush q cid nsid s
  | .frameRead q cid nsid lba slot blen lr addr => Sys2Proof.Machine.execFrameRead q cid nsid lba slot blen lr addr s
  | .zoneOpen q cid nsid zslba sel lr hint => Sys2Proof.Machine.execZoneOpen q cid nsid zslba sel lr hint s
  | .zoneClose q cid nsid zslba sel lr => Sys2Proof.Machine.execZoneClose q cid nsid zslba sel lr s
  | .zoneFinish q cid nsid zslba sel lr => Sys2Proof.Machine.execZoneFinish q cid nsid zslba sel lr s
  | .zoneReset q cid nsid zslba sel lr => Sys2Proof.Machine.execZoneReset q cid nsid zslba sel lr s
  | .zoneOffline q cid nsid zslba sel lr => Sys2Proof.Machine.execZoneOffline q cid nsid zslba sel lr s
  | .reportZones q cid nsid slba opt part max addr => Sys2Proof.Machine.execReportZones q cid nsid slba opt part max addr s
  | .extendedReportZones q cid nsid slba => Sys2Proof.Machine.execExtendedReportZones q cid nsid slba s
  | .writeAdmit q cid addr data => Sys2Proof.Machine.execWriteAdmit q cid addr data s
  | .writeCommit q cid es => Sys2Proof.Machine.execWriteCommit q cid es s
  | .zoneHoldTimeout q cid => Sys2Proof.Machine.execZoneHoldTimeout q cid s
  | .deadlineMiss q cid => Sys2Proof.Machine.execDeadlineMiss q cid s
  | .placementRetry q cid => Sys2Proof.Machine.execPlacementRetry q cid s
  | .ledgerEpoch => Sys2Proof.Machine.execLedgerEpoch s
  | .doorbellWrite p_f qid cq v => Sys2Proof.Machine.execDoorbellWrite p_f qid cq v s
  | .commandFetch cid perr => Sys2Proof.Machine.execCommandFetch cid perr s
  | .dieOperationIssue d => Sys2Proof.Machine.execDieOperationIssue d s
  | .dieReadDone d temp busy es => Sys2Proof.Machine.execDieReadDone d temp busy es s
  | .programDone d temp busy => Sys2Proof.Machine.execProgramDone d temp busy s
  | .eraseDone d temp busy => Sys2Proof.Machine.execEraseDone d temp busy s
  | .eraseSuspended d temp prog => Sys2Proof.Machine.execEraseSuspended d temp prog s
  | .programFail d planes temp busy => Sys2Proof.Machine.execProgramFail d planes temp busy s
  | .eraseFail d planes temp busy => Sys2Proof.Machine.execEraseFail d planes temp busy s
  | .dieOpTimeout d => Sys2Proof.Machine.execDieOpTimeout d s
  | .finePassUrgent d => Sys2Proof.Machine.execFinePassUrgent d s
  | .decodeDone id ok bits mean unsat probe => Sys2Proof.Machine.execDecodeDone id ok bits mean unsat probe s
  | .decoderWatchdog d rsn => Sys2Proof.Machine.execDecoderWatchdog d rsn s
  | .foldIssue conv h r => Sys2Proof.Machine.execFoldIssue conv h r s
  | .patrolRead => Sys2Proof.Machine.execPatrolRead s
  | .calibrationSweep d res => Sys2Proof.Machine.execCalibrationSweep d res s
  | .temperatureSweep d res => Sys2Proof.Machine.execTemperatureSweep d res s
  | .wearForecast => Sys2Proof.Machine.execWearForecast s
  | .correctionSave => Sys2Proof.Machine.execCorrectionSave s
  | .reclamation d => Sys2Proof.Machine.execReclamation d s
  | .relocation id ok => Sys2Proof.Machine.execRelocation id ok s
  | .rebuildStripe conv h r m => Sys2Proof.Machine.execRebuildStripe conv h r m s
  | .substitutionDelayExpiry d => Sys2Proof.Machine.execSubstitutionDelayExpiry d s
  | .unreachWaitExpiry q cid => Sys2Proof.Machine.execUnreachWaitExpiry q cid s
  | .stagingOverflowMove conv h r w p => Sys2Proof.Machine.execStagingOverflowMove conv h r w p s
  | .journalPageCommit bad => Sys2Proof.Machine.execJournalPageCommit bad s
  | .journalPagePersist p_i => Sys2Proof.Machine.execJournalPagePersist p_i s
  | .keyGenerationAdvance slice nsid => Sys2Proof.Machine.execKeyGenerationAdvance slice nsid s
  | .checkpointStart => Sys2Proof.Machine.execCheckpointStart s
  | .checkpointEnd => Sys2Proof.Machine.execCheckpointEnd s
  | .mapWriteback nsid page => Sys2Proof.Machine.execMapWriteback nsid page s
  | .mapFillArrival nsid page ok => Sys2Proof.Machine.execMapFillArrival nsid page ok s
  | .hopTrainingDone l h lanes extra => Sys2Proof.Machine.execHopTrainingDone l h lanes extra s
  | .hopTrainingFail l h => Sys2Proof.Machine.execHopTrainingFail l h s
  | .hopRetrain l h => Sys2Proof.Machine.execHopRetrain l h s
  | .quietEntry l h up => Sys2Proof.Machine.execQuietEntry l h up s
  | .burstStart l h up ok => Sys2Proof.Machine.execBurstStart l h up ok s
  | .keepalive l h up seen => Sys2Proof.Machine.execKeepalive l h up seen s
  | .flitReceive l h up sym => Sys2Proof.Machine.execFlitReceive l h up sym s
  | .nakReceived l h up seq => Sys2Proof.Machine.execNakReceived l h up seq s
  | .replayTimeout l h up => Sys2Proof.Machine.execReplayTimeout l h up s
  | .flitLockLoss l h up => Sys2Proof.Machine.execFlitLockLoss l h up s
  | .noProgress l h up => Sys2Proof.Machine.execNoProgress l h up s
  | .breakNotice l h => Sys2Proof.Machine.execBreakNotice l h s
  | .widthChange l => Sys2Proof.Machine.execWidthChange l s
  | .sidebandInsert l => Sys2Proof.Machine.execSidebandInsert l s
  | .sidebandAlert l low => Sys2Proof.Machine.execSidebandAlert l low s
  | .sidebandAbsent l => Sys2Proof.Machine.execSidebandAbsent l s
  | .chainEnumeration l p found => Sys2Proof.Machine.execChainEnumeration l p found s
  | .linkEngineWatchdog e rsn => Sys2Proof.Machine.execLinkEngineWatchdog e rsn s
  | .bridgeCounterCollect l corr replay stray lock => Sys2Proof.Machine.execBridgeCounterCollect l corr replay stray lock s
  | .voltageLoopTick paces => Sys2Proof.Machine.execVoltageLoopTick paces s
  | .regulatorPoll ok mv iout status => Sys2Proof.Machine.execRegulatorPoll ok mv iout status s
  | .regulatorRetry ok mv iout status => Sys2Proof.Machine.execRegulatorRetry ok mv iout status s
  | .sensorConversion raw => Sys2Proof.Machine.execSensorConversion raw s
  | .remoteConversion n t => Sys2Proof.Machine.execRemoteConversion n t s
  | .thermalStepFallback => Sys2Proof.Machine.execThermalStepFallback s
  | .paceLowFallback => Sys2Proof.Machine.execPaceLowFallback s
  | .overrunStep => Sys2Proof.Machine.execOverrunStep s
  | .idleEntry => Sys2Proof.Machine.execIdleEntry s
  | .dozeNapExit code idx rsn => Sys2Proof.Machine.execDozeNapExit code idx rsn s
  | .jackEntry fall => Sys2Proof.Machine.execJackEntry fall s
  | .wakeEvent code idx ns => Sys2Proof.Machine.execWakeEvent code idx ns s
  | .wakeFrame p u dst b => Sys2Proof.Machine.execWakeFrame p u dst b s
  | .jackExit fuse root nor rdA rdB spd fusedRows soft bad noCal => Sys2Proof.Machine.execJackExit fuse root nor rdA rdB spd fusedRows soft bad noCal s
  | .ppsEdge => Sys2Proof.Machine.execPpsEdge s
  | .holdoverEnter => Sys2Proof.Machine.execHoldoverEnter s
  | .timerExpiry n => Sys2Proof.Machine.execTimerExpiry n s
  | .timSetGo sec => Sys2Proof.Machine.execTimSetGo sec s
  | .eventRaise code slice arg => Sys2Proof.Machine.execEventRaise code slice arg s
  | .evrClear => Sys2Proof.Machine.execEvrClear s
  | .evrFlush => Sys2Proof.Machine.execEvrFlush s
  | .mailboxPop => Sys2Proof.Machine.execMailboxPop s
  | .mailboxAcknowledge seq => Sys2Proof.Machine.execMailboxAcknowledge seq s
  | .watchdogWrite => Sys2Proof.Machine.execWatchdogWrite s
  | .watchdogExpiry pass => Sys2Proof.Machine.execWatchdogExpiry pass s
  | .compareMismatch pass => Sys2Proof.Machine.execCompareMismatch pass s
  | .selfCheckRequest good pass => Sys2Proof.Machine.execSelfCheckRequest good pass s
  | .spareSelfTest pass => Sys2Proof.Machine.execSpareSelfTest pass s
  | .itcmFetchParity off good pass => Sys2Proof.Machine.execItcmFetchParity off good pass s
  | .dtcmParityError addr dram => Sys2Proof.Machine.execDtcmParityError addr dram s
  | .dmaHalt c done addr => Sys2Proof.Machine.execDmaHalt c done addr s
  | .alternateBankLoaded c good => Sys2Proof.Machine.execAlternateBankLoaded c good s
  | .swapGo dur dma => Sys2Proof.Machine.execSwapGo dur dma s
  | .swapCommit => Sys2Proof.Machine.execSwapCommit s
  | .swapRollback => Sys2Proof.Machine.execSwapRollback s
  | .miReadDataStructure vdm mic ty => Sys2Proof.Machine.execMiReadDataStructure vdm mic ty s
  | .miSubsystemHealthPoll vdm mic => Sys2Proof.Machine.execMiSubsystemHealthPoll vdm mic s
  | .miControllerHealthPoll vdm mic n => Sys2Proof.Machine.execMiControllerHealthPoll vdm mic n s
  | .miConfigurationGet vdm mic id => Sys2Proof.Machine.execMiConfigurationGet vdm mic id s
  | .miConfigurationSet vdm mic id v => Sys2Proof.Machine.execMiConfigurationSet vdm mic id v s
  | .miVpdRead vdm mic off len => Sys2Proof.Machine.execMiVpdRead vdm mic off len s
  | .miVpdWrite vdm mic off data => Sys2Proof.Machine.execMiVpdWrite vdm mic off data s
  | .miReset vdm mic => Sys2Proof.Machine.execMiReset vdm mic s
  | .miTunnelledAdmin vdm mic c => Sys2Proof.Machine.execMiTunnelledAdmin vdm mic c s
  | .smbusBasicManagementRead => Sys2Proof.Machine.execSmbusBasicManagementRead s
  | .registerRead vdm mic a len => Sys2Proof.Machine.execRegisterRead vdm mic a len s
  | .registerWrite vdm mic a len ws => Sys2Proof.Machine.execRegisterWrite vdm mic a len ws s
  | .managementRegisterWrite a len full v => Sys2Proof.Machine.execManagementRegisterWrite a len full v s
  | .rcFieldRead a len full => Sys2Proof.Machine.execRcFieldRead a len full s
  | .genCtrlReset p key => Sys2Proof.Machine.execGenCtrlReset p key s
  | .mcacheDisable => Sys2Proof.Machine.execMcacheDisable s
  | .mcacheEnable => Sys2Proof.Machine.execMcacheEnable s
  | .mcacheInvAll => Sys2Proof.Machine.execMcacheInvAll s
  | .mcacheInvGo count => Sys2Proof.Machine.execMcacheInvGo count s
  | .medDieRetireGo p die => Sys2Proof.Machine.execMedDieRetireGo p die s
  | .rasUnitFence k p_i => Sys2Proof.Machine.execRasUnitFence k p_i s
  | .rasUnitRelease k p_i => Sys2Proof.Machine.execRasUnitRelease k p_i s
  | .lgrLcTgtWrite p k us => Sys2Proof.Machine.execLgrLcTgtWrite p k us s
  | .lgrEvtVecWrite p k vec en => Sys2Proof.Machine.execLgrEvtVecWrite p k vec en s
  | .ftlGcCfgWrite p low crit start ahead => Sys2Proof.Machine.execFtlGcCfgWrite p low crit start ahead s
  | .unitSelfTest k p_i pass => Sys2Proof.Machine.execUnitSelfTest k p_i pass s
  | .ceRateCheck => Sys2Proof.Machine.execCeRateCheck s
  | .iftDatagram p u dst ip vlan udp src ulen b es => Sys2Proof.Machine.execIftDatagram p u dst ip vlan udp src ulen b es s
  | .stallTimeout k => Sys2Proof.Machine.execStallTimeout k s
  | .frameCommit k => Sys2Proof.Machine.execFrameCommit k s
  | .indexBlockWrite k => Sys2Proof.Machine.execIndexBlockWrite k s
  | .laneWatchdog l rsn n => Sys2Proof.Machine.execLaneWatchdog l rsn n s
  | .cipherKnownAnswerTest u pass => Sys2Proof.Machine.execCipherKnownAnswerTest u pass s
  | .rngFail => Sys2Proof.Machine.execRngFail s
  | .keyDerivationDone p_i equal => Sys2Proof.Machine.execKeyDerivationDone p_i equal s
  | .arpRequest p u dst ip vlan from1 => Sys2Proof.Machine.execArpRequest p u dst ip vlan from1 s
  | .echoRequest p u dst ip vlan from1 => Sys2Proof.Machine.execEchoRequest p u dst ip vlan from1 s
  | .addressResolutionTimeout p ip qp => Sys2Proof.Machine.execAddressResolutionTimeout p ip qp s
  | .pfcFrame p u mask quanta glob => Sys2Proof.Machine.execPfcFrame p u mask quanta glob s
  | .pfcRefresh p u fill lost => Sys2Proof.Machine.execPfcRefresh p u fill lost s
  | .rocePacket p u dst ip vlan qp ce ack => Sys2Proof.Machine.execRocePacket p u dst ip vlan qp ce ack s
  | .cnpReceived qp => Sys2Proof.Machine.execCnpReceived qp s
  | .ccRateTimer qp inc bytes => Sys2Proof.Machine.execCcRateTimer qp inc bytes s
  | .cmReq p u dst ip vlan peer svc pmtu => Sys2Proof.Machine.execCmReq p u dst ip vlan peer svc pmtu s
  | .cmDreq qp => Sys2Proof.Machine.execCmDreq qp s
  | .rdmaWriteWithImmediate qp addr imm more d => Sys2Proof.Machine.execRdmaWriteWithImmediate qp addr imm more d s
  | .commandCapsule qp cid sgls sglOk inl => Sys2Proof.Machine.execCommandCapsule qp cid sgls sglOk inl s
  | .rdmaReadResponse q cid data => Sys2Proof.Machine.execRdmaReadResponse q cid data s
  | .ackTimeout qp => Sys2Proof.Machine.execAckTimeout qp s
  | .rnrNak qp => Sys2Proof.Machine.execRnrNak qp s
  | .inboundRdmaRead qp => Sys2Proof.Machine.execInboundRdmaRead qp s
  | .subportFault p u corr uncorr => Sys2Proof.Machine.execSubportFault p u corr uncorr s
  | .subportTrainingDone p u => Sys2Proof.Machine.execSubportTrainingDone p u s
  | .upHoldExpiry p u => Sys2Proof.Machine.execUpHoldExpiry p u s
  | .flapHoldExpiry p u => Sys2Proof.Machine.execFlapHoldExpiry p u s
  | .dramRefresh ch rk busy => Sys2Proof.Machine.execDramRefresh ch rk busy s
  | .mr4Poll ch reps => Sys2Proof.Machine.execMr4Poll ch reps s
  | .dramActivate dpa due => Sys2Proof.Machine.execDramActivate dpa due s
  | .activationTableClear ch rk => Sys2Proof.Machine.execActivationTableClear ch rk s
  | .dramScrubRead room outcome sym region a b => Sys2Proof.Machine.execDramScrubRead room outcome sym region a b s
  | .cxlMemRead hpa room err sym => Sys2Proof.Machine.execCxlMemRead hpa room err sym s
  | .cxlMemWrite hpa data mask room err sym => Sys2Proof.Machine.execCxlMemWrite hpa data mask room err sym s
  | .cxlGranuleWriteback g done => Sys2Proof.Machine.execCxlGranuleWriteback g done s
  | .gpfPhase1 => Sys2Proof.Machine.execGpfPhase1 s
  | .gpfPhase2 => Sys2Proof.Machine.execGpfPhase2 s
  | .configurationRequest n reg val => Sys2Proof.Machine.execConfigurationRequest n reg val s
  | .perstNAssert l pin => Sys2Proof.Machine.execPerstNAssert l pin s
  | .perstNDeassert l speed width flit cxl ns => Sys2Proof.Machine.execPerstNDeassert l speed width flit cxl ns s
  | .flrPf pf => Sys2Proof.Machine.execFlrPf pf s
  | .flrVf n => Sys2Proof.Machine.execFlrVf n s
  | .ccEnSet n => Sys2Proof.Machine.execCcEnSet n s
  | .ccEnClear n => Sys2Proof.Machine.execCcEnClear n s
  | .shutdownNotification n => Sys2Proof.Machine.execShutdownNotification n s
  | .vfEnableSet pf n => Sys2Proof.Machine.execVfEnableSet pf n s
  | .vfEnableClear pf => Sys2Proof.Machine.execVfEnableClear pf s
  | .busMasterEnableClear n => Sys2Proof.Machine.execBusMasterEnableClear n s
  | .busMasterEnableSet n => Sys2Proof.Machine.execBusMasterEnableSet n s
  | .pasidEnableClear n => Sys2Proof.Machine.execPasidEnableClear n s
  | .pfailNFall bad => Sys2Proof.Machine.execPfailNFall bad s
  | .flushDone fails links => Sys2Proof.Machine.execFlushDone fails links s
  | .pfailNRise => Sys2Proof.Machine.execPfailNRise s
  | .porNFall heads good => Sys2Proof.Machine.execPorNFall heads good s
  | .porNRise test hot fuse root nor rdA rdB spd fusedRows soft bad noCal => Sys2Proof.Machine.execPorNRise test hot fuse root nor rdA rdB spd fusedRows soft bad noCal s
  | .dramTrainingDone good => Sys2Proof.Machine.execDramTrainingDone good s
  | .dramFillDone => Sys2Proof.Machine.execDramFillDone s
  | .adminReady snap => Sys2Proof.Machine.execAdminReady snap s
  | .journalReplayDone ok ms rd spd => Sys2Proof.Machine.execJournalReplayDone ok ms rd spd s
  | .flushBankErased b => Sys2Proof.Machine.execFlushBankErased b s
  | .admissionOpen => Sys2Proof.Machine.execAdmissionOpen s
  | .uartLoaderBlock off data crc => Sys2Proof.Machine.execUartLoaderBlock off data crc s
  | .uartLoaderEnd good fuse root nor rdA rdB spd => Sys2Proof.Machine.execUartLoaderEnd good fuse root nor rdA rdB spd s
  | .refclkLoss => Sys2Proof.Machine.execRefclkLoss s
  | .subportSignalDetect p u => Sys2Proof.Machine.execSubportSignalDetect p u s
  | .partialFlitTimeout l h up => Sys2Proof.Machine.execPartialFlitTimeout l h up s
  | .arpReply p ip mac => Sys2Proof.Machine.execArpReply p ip mac s
  | .peerMacLifetimeExpiry p ip => Sys2Proof.Machine.execPeerMacLifetimeExpiry p ip s
  | .droppedFrame p u cause => Sys2Proof.Machine.execDroppedFrame p u cause s
  | .pfcPauseExpiry p u => Sys2Proof.Machine.execPfcPauseExpiry p u s
  | .aggregationTimeExpiry func vec => Sys2Proof.Machine.execAggregationTimeExpiry func vec s
  | .hdmDecoderCommit base size => Sys2Proof.Machine.execHdmDecoderCommit base size s
  | .rngFailClear n => Sys2Proof.Machine.execRngFailClear n s
  | .readUrgencyRise d id => Sys2Proof.Machine.execReadUrgencyRise d id s
  | .timerArm n cmp period periodic => Sys2Proof.Machine.execTimerArm n cmp period periodic s
  | .pupCacheParityError core data line => Sys2Proof.Machine.execPupCacheParityError core data line s
  | .healthWindowRead p w => Sys2Proof.Machine.execHealthWindowRead p w s
  | .timNowRead p => Sys2Proof.Machine.execTimNowRead p s

end Sys2Proof.Machine
end

