-- ==== Sys2Proof/Safety.lean ====
section
/-! DEFINITION. What a safe run is, the invariant that statements use, and the words that statements are made of: that a command runs,
that a sender is served, what a completion carries. -/

namespace Sys2Proof

open Machine

/-- What every step keeps: the register file is in its canonical form (in rising order of keys, no field at its reset value listed), and
user data is in its own (block numbers strictly rising, no zero block listed). -/
def Inv (s : State) : Prop := Regs.wf s.regs = true ∧ Ud.wf s.zn.ud = true

/-- `n` steps from a state end in no fault and no refusal. -/
def SafeFor (s : State) (n : Nat) : Prop := ∃ t, core.run n s = .next t

/-- The command answers a next state, of which `P` holds. -/
def Ran (c : Instr) (s : State) (P : State → Prop) : Prop := ∃ t, Machine.exec c s = .next t ∧ P t

/-- A queue is the admin queue of a sender (03 R65). -/
def adminOf (o : Org) (q : Queue) : Bool :=
  match o with
  | .fn n => !q.fabric && q.func = n && q.qid = 0
  | .fab a => q.fabric && q.assoc = a && q.qid = 0
  | _ => false

/-- An admin command of a sender is executed: admin-ready was reached, a sending function may read memory, the Puppeteer serves NVMe-MI, no
reset of its queue waits, the sender's slice is ACTIVE, and it has no second admin queue (02 R47, R57; 03 R65; 14 R325; 17 R384). -/
def Served (s : State) (o : Org) : Prop :=
  s.img.admReady = true ∧ s.muted o = false ∧ (o = .mi → s.stopped = false ∧ s.swapping = false) ∧
    ((s.admQ o).map (fun e => s.resetting e.1)).getD false = false ∧ (∀ e ∈ s.sl.qs, adminOf o e.2 = true → (s.admQ o).map (·.1) = some e.1) ∧
    ∃ n, s.sliceOf o = some n ∧ s.slState n = slActive

/-- The manager's Slice Management commands are executed (02 R39, 16 R350): a sender of slice 0 that is served, the Puppeteer not
stopped. -/
def Manages (s : State) (o : Org) : Prop := Served s o ∧ isMgr o = true ∧ s.stopped = false

/-- A completion waits to be sent: for its function (14 R325), or for its QP's sub-port (13 R297, R301). -/
def Waits (t : State) (c : Cpl) : Prop := (∃ e ∈ t.fns, ∃ h ∈ e.2.held, h.c = c) ∨ ∃ e ∈ t.net.txq, e.2.2.2.2 = Out.cpl c

/-- From `s` to `t` one thing was sent on a sub-port, or waits to be (13 R297, R301). -/
def Sent (s t : State) (x : Out) : Prop :=
  (t.outs = s.outs ++ [x] ∧ t.net.txq = s.net.txq) ∨ (t.outs = s.outs ∧ ∃ e, t.net.txq = s.net.txq ++ [e] ∧ e.2.2.2.2 = x)

/-- Something was sent, or waits to be (13 R297, R301). -/
def Sends (t : State) (x : Out) : Prop := x ∈ t.outs ∨ ∃ e ∈ t.net.txq, e.2.2.2.2 = x

/-- The completion that was posted, of what was sent. -/
def cplOf (x : Out) : Option Cpl := match x with
  | .cpl c => some c
  | _ => none

/-- Only MSI-X messages are among what was sent. -/
def Signals (l : List Out) : Prop := ∀ x ∈ l, ∃ f v, x = Out.msix f v

/-- From `s` to `t` one completion was given and, its interrupts left out, nothing else sent: it was posted, or it waits. -/
def Answers (s t : State) (o : Org) (cid : Nat) (st : Nat × Nat) (dw0 : Nat) (data : List Nat) : Prop :=
  ∃ c : Cpl, c.org = o ∧ c.cid = cid ∧ (c.sct, c.sc) = st ∧ c.dw0 = dw0 ∧ c.data = data ∧
    ((∃ l, t.outs = s.outs ++ Out.cpl c :: l ∧ Signals l) ∨ (t.outs = s.outs ∧ Waits t c))

/-- A completion of a sender's command was given, with a status, dword 0 and data: posted, or waiting. -/
def RepliedWith (t : State) (o : Org) (cid : Nat) (st : Nat × Nat) (dw0 : Nat) (data : List Nat) : Prop :=
  ∃ c : Cpl, c.org = o ∧ c.cid = cid ∧ (c.sct, c.sc) = st ∧ c.dw0 = dw0 ∧ c.data = data ∧ (Out.cpl c ∈ t.outs ∨ Waits t c)

/-- A completion of a sender's command with a status was given. -/
def Replied (t : State) (o : Org) (cid : Nat) (st : Nat × Nat) : Prop := ∃ dw0 data, RepliedWith t o cid st dw0 data

/-- A state in which the sender's oldest admin command that was fetched is no longer among those (03 R65). -/
def Begun (s : State) (o : Org) : State :=
  match s.admQ o with
  | some (i, q) => s.mapQ i (fun q' => if q.adm.isEmpty then q' else { q' with outst := q'.outst - 1, adm := q'.adm.drop 1 })
  | none => s

/-- Two states have the same completion queues, their tails left out. -/
def SameCqs (m t : State) : Prop := t.sl.cqs.map (fun c => { c with tail := 0 }) = m.sl.cqs.map (fun c => { c with tail := 0 })

/-- The command completed without error, and of all that `m` says, its effect included, nothing else changed: the entry left the fetched ones, and
its completion was given. -/
def Completes (m t : State) (o : Org) (cid dw0 : Nat) (data : List Nat) : Prop :=
  Answers m t o cid stOk dw0 data ∧ SameCqs m t ∧
    t = { Begun m o with outs := t.outs, net := { m.net with txq := t.net.txq }, sl := { (Begun m o).sl with cqs := t.sl.cqs } }

/-- From `s` to `t` the command was refused with a status: its completion was given, the Error Information log and its count may have
changed, and nothing else did (20 R445). -/
def Refuses (s t : State) (o : Org) (cid : Nat) (st : Nat × Nat) (dw0 : Nat) : Prop :=
  Answers s t o cid st dw0 [] ∧ SameCqs s t ∧
    t = { Begun s o with
            regs := t.regs
            ras := { s.ras with errs := t.ras.errs, integrity := t.ras.integrity }
            outs := t.outs
            net := { s.net with txq := t.net.txq }
            sl := { (Begun s o).sl with cqs := t.sl.cqs } } ∧
    ∀ (f : Fld) (i j p : Nat), f.id ≠ F.RAS_ERRLOG_COUNT.id → t.rd f i j p = s.rd f i j p

/-- An I/O command's entry that was fetched and waits to be executed, all that the first tests ask being given: its slice is ACTIVE, no reset of its
queue waits, the controller is in service, its stamps are current, its deadline has not passed, its namespace is the slice's and holds its
blocks (02 R47, R52, R57; 03 R72; 04 R502; 17 R384). -/
structure Fetched (s : State) (q cid nsid lba len : Nat) (x : Queue) (c : Cmd) (n : Ns) : Prop where
  queue : Tab.find q s.sl.qs = some x
  active : s.slState x.slice = slActive
  goes : s.resetting q = false
  cmd : s.cmdOf q cid = some c
  fetched : c.st = .fetched
  own : c.slice = x.slice
  live : s.live c.slice q c.genS c.genQ = true
  ready : s.ready = true
  ns : Tab.find nsid s.zn.ns = some n
  owner : n.slice = x.slice
  fits : lba + len ≤ n.size
  intime : s.el ≤ c.dl

/-- The command in flight as its execution starts: what its entry says, and when it started. -/
def Started (s : State) (c : Cmd) (k : CmdKind) (nsid lba len : Nat) (lr fua : Bool) (hint : Nat) : Cmd :=
  { c with kind := k, nsid := nsid, lba := lba, len := len, fua := fua, hint := hint, since := s.el, ff := c.lc != 7 && (lr && lrCounts k || c.ff) }

/-- A command in flight of a queue and a namespace that are there (02 R52, 04 R502). -/
structure InFlight (s : State) (q cid : Nat) (x : Queue) (c : Cmd) (n : Ns) : Prop where
  cmd : s.cmdOf q cid = some c
  queue : Tab.find q s.sl.qs = some x
  ns : Tab.find c.nsid s.zn.ns = some n

/-- One more failure of a die, a reset left out, does not call for its retirement (09 R226). -/
def Sound (s : State) (d : Nat) : Prop :=
  (s.dieOf d).gbb + 1 ≤ s.rd F.MED_RET_CFG_GBB_MAX ∧ (s.dieOf d).allFails = [] ∧ (s.dieOf d).resets = [] ∧ s.rd F.MED_RET_CFG_RET_WEAR = 0

/-- A host access of `len` bytes of a queue's command is granted (02 R45; 14 R325): the queue is a fabric's or PF0's without PASID, or every page is
covered by a translation entry of its slice that grants the access, the slice not FENCED. -/
def DmaOk (s : State) (x : Queue) (addr len : Nat) (wr : Bool) : Prop :=
  x.fabric = true ∨ (x.func = 0 ∧ x.pasid = none) ∨ (s.slState x.slice ≠ slFenced ∧
    ∀ i, i < (addr % 4096 + max len 1 + 4095) / 4096 → ∃ e ∈ s.sl.xlt, e.slice = x.slice ∧
      e.covers x.func x.pasid ((addr / 4096 + i) * 4096) false = true ∧ e.grants wr = true)

/-- An I/O command ended with a status, dword 0 and data: it is no longer in flight, and its completion was given. -/
def EndedWith (t : State) (q cid : Nat) (st : Nat × Nat) (dw0 : Nat) (data : List Nat) : Prop :=
  t.cmdOf q cid = none ∧ RepliedWith t (.io q) cid st dw0 data

/-- An I/O command ended with a status. -/
def Ended (t : State) (q cid : Nat) (st : Nat × Nat) : Prop := ∃ dw0 data, EndedWith t q cid st dw0 data

/-- Between two states no register field changed but the listed ones. -/
def Keeps (s t : State) (fs : List Fld) : Prop := ∀ (f : Fld) (i j p : Nat), (∀ g ∈ fs, f.id ≠ g.id) → t.rd f i j p = s.rd f i j p

/-- A hop of a Kazron link is broken (08 R198, R199): it is DOWN, the link shows a break, and the count of breaks is one more, saturated. -/
def HopBroke (s t : State) (l h : Nat) : Prop :=
  t.hopSt l h = hDown ∧ t.rd F.KZL_STS_BREAK l = 1 ∧
    t.rd F.KZL_LOCK_CNT_BREAKS l = sat F.KZL_LOCK_CNT_BREAKS.w (s.rd F.KZL_LOCK_CNT_BREAKS l + 1) ∧ (t.link8 l).broken.contains h = true

/-- A frame for the controller passes a sub-port: it is UP with room in its buffer, the addresses match, and the controller is not in Doze (01 R23; 13
R301, R306, R307). -/
structure Arrives (s : State) (p u dst ip vlan bytes : Nat) (arp : Bool) : Prop where
  up : s.link p u = lkUp
  room : s.rxFull p u bytes = false
  mac : s.macOk p u dst ip arp = true
  addr : s.addrOk p u ip vlan = true
  run : s.rd F.PWR_STS_STATE ≠ pwDoze

/-- A QP that packets reach: it is no QP in Error, its sub-port is UP, and the controller is not in Doze (13 R303, R306, R307). -/
structure QpUp (s : State) (qp : Nat) (x : Qp) : Prop where
  qp : s.qp qp = some x
  ok : x.err = false
  up : s.link x.port x.sub = lkUp
  run : s.rd F.PWR_STS_STATE ≠ pwDoze

/-- Nothing waits for an operation to end or for the journal (02 R57, R61; 04 R97; 12 R290): no row that reads still use, no reset, Create, erase or
Delete that waits, no read that waits for a key. -/
structure Still (s : State) : Prop where
  rows : s.zn.doomed = []
  resets : s.sl.waits = []
  creates : s.sl.creates = []
  erases : s.cip.erases = []
  deletes : s.sl.dels = []
  keys : ∀ c ∈ s.zn.cmds, c.st ≠ .key

/-- The COMMAND envelope of an operation was sent on its link, or waits there to be sent (08 R194–R196; 09 R211). -/
def Enveloped (s t : State) (d : Nat) (o : DOp) : Prop :=
  ∃ tag, (∃ x ∈ ((t.hop (d / 64) 0).dir false).out, x.ty = 1 ∧ x.pay = s.envBytes d (opcodeOf o.kind) o tag false) ∨
    ∃ hdr, Out.kz (d / 64) "COMMAND" ([0, 0, hdr] ++ s.envBytes d (opcodeOf o.kind) o tag false) ∈ t.outs

/-- A flit as it is sent for a direction of a hop (08 R192, R193). -/
def flitOut (s : State) (l h : Nat) (up : Bool) (f : Flit) : Out :=
  .kz l (flitName f.ty) ([h, b2n up, flitHdr f.ty f.bridge f.last f.tag f.seq ((s.hop l h).ack up)] ++ f.pay)

/-- The LINK CONTROL flit that is sent for a direction of a hop: unsequenced, with the next number to be used (08 R193, R195). -/
def ctlOut (s : State) (l h : Nat) (up : Bool) (pay : List Nat) : Out := flitOut s l h up ⟨((s.hop l h).dir up).next, 5, 0, false, 0, pay⟩

/-- The symbols that a receiver holds of each active lane, with those that come now (08 R184, R196). -/
def symbols (s : State) (l h : Nat) (up : Bool) (sym : List (List Int)) : List (List Int) :=
  (s.runLanes l h).mapIdx (fun j _ => ((s.hop l h).dir up).sym.getD j [] ++ sym.getD j [])

/-- The symbols of a whole flit have come to a receiver of a hop that is up; corrected, they read as `f` (08 R184, R185, R192). -/
structure FlitIn (s : State) (l h : Nat) (up : Bool) (sym : List (List Int)) (f : FlitRx) : Prop where
  ok : hopOk l h = true
  runs : s.hopUp l h = true
  here : h < (s.link8 l).hops.length
  lanes : s.runLanes l h ≠ []
  whole : ∀ a ∈ symbols s l h up sym, flitUi (s.runLanes l h).length ≤ a.length
  reads : flitDecode (symFlit (s.runLanes l h) ((s.hop l h).dir up).scr ((symbols s l h up sym).map (·.take (flitUi (s.runLanes l h).length)))).1 = f

/-- A capture stream that takes data: RUNNING, no Stop under way, no frame begun, its slice not FENCED and its ingest open, commits going on, no
power-fail phase, its zones set up (02 R60; 03 R79; 05 R114, R115; 06 R158). -/
structure Takes (s : State) (k : Nat) (x : Stream) : Prop where
  here : s.stream k = some x
  runs : x.state = stRun
  noFrames : x.frames = []
  open_ : s.slState x.slice ≠ slFenced
  commits : s.stg.commits = true
  noFail : s.rd F.MED_PF_STS_PHASE = 0
  setUp : s.setUp x = true
  goes : x.stop = none
  ingest : s.ingestOpen x.slice = true

/-- The spare pair took over (16 R349): it is the active one, the failure is recorded with its reason, the failed pair is the spare where its
self-test passed, what was in service waits again marked as delivered again, before what was pending, and the watchdog starts anew. -/
structure TookOver (s t : State) (rsn : Nat) (pass : Bool) : Prop where
  active : t.rd F.PUP_STS_ACTIVE = cut 1 (1 - s.rd F.PUP_STS_ACTIVE)
  spare : t.rd F.PUP_STS_SPARE = if pass then 0 else 2
  count : t.rd F.PUP_FAIL_COUNT = sat 16 (s.rd F.PUP_FAIL_COUNT + 1)
  reason : t.rd F.PUP_FAIL_RSN = rsn
  time : t.rd F.PUP_FAIL_TIME_TIME = cut 64 s.tns
  insvc : t.pup.insvc = []
  pend : t.pup.pend = s.pup.insvc.map (fun (e : MbxEnt) => { e with redel := true }) ++ s.pup.pend
  wdt : t.pup.wdtAt = s.el
  zones : t.zn = s.zn

/-- A CXL.mem request at a host address that the host's decoder and a translation entry take to a burst (02 R45; 14 R319, R322; 15 R344): link 0 runs as
CXL and DRAM is served, no stop instant came, the controller does not rest, the slice is not FENCED. -/
structure CxlServes (s : State) (hpa base size : Nat) (e : XltEnt) : Prop where
  on : s.cxlOn = true
  commits : s.stg.commits = true
  awake : s.awake = true
  hdm : s.pcx.hdm = some (base, size)
  above : base ≤ hpa
  below : hpa < base + size
  inWin : hpa - base < s.winSize
  entry : s.cxlEntry (hpa - base) = some e
  open_ : s.slState e.slice ≠ slFenced

/-- NVMe-MI serves a request at once (16 R364; 17 R384; 18 R404): its path is on and answered, the Puppeteer neither stopped nor exchanging
its firmware, and nothing is held before it. -/
structure MiServed (s : State) (vdm : Bool) : Prop where
  on : if vdm then s.rd F.PUP_MI_CFG_VDM_EN ≠ 0 else s.rd F.PUP_MI_CFG_SMB_EN ≠ 0
  awake : vdm = false → s.rd F.PWR_STS_STATE ≠ pwNap
  up : s.miUp = true
  empty : s.pup.miHeld = []

/-- A refused access of BAR0 (23 R490, R491, R495): it is counted, and logged where none is logged. -/
def Logged (s t : State) (kind : Nat) (wr : Bool) (a : Nat) : Prop :=
  t.rd F.GEN_ACC_ERR_BAR0 = sat 16 (s.rd F.GEN_ACC_ERR_BAR0 + 1) ∧
    (s.rd F.GEN_ACC_LOG_VALID = 0 → t.rd F.GEN_ACC_LOG_VALID = 1 ∧ t.rd F.GEN_ACC_LOG_PATH = 0 ∧ t.rd F.GEN_ACC_LOG_KIND = kind ∧
      t.rd F.GEN_ACC_LOG_WR = b2n wr ∧ t.rd F.GEN_ACC_LOG_ADDR = cut 26 a) ∧
    Keeps s t [F.GEN_ACC_ERR_BAR0, F.GEN_ACC_LOG_VALID, F.GEN_ACC_LOG_PATH, F.GEN_ACC_LOG_KIND, F.GEN_ACC_LOG_WR, F.GEN_ACC_LOG_ADDR]

/-- A path on which registers are written: it is available, and BAR0 is not in a controller reset (23 R490). -/
def WritesOn (s : State) (p : Nat) : Prop := p ≤ 1 ∧ s.pathUp p = true ∧ (p = 0 → s.gen.inReset = false)

end Sys2Proof
end

