-- ==== Sys2Proof/Certificates/Slice0/Obligations.lean ====
section
/-! DEFINITION. The statements for the provers. Each says for every command it names that it answers a next state, and what that state holds; a
number such as 02 R39 is the rule of `spec/` that the clause rests on. -/

open Sys2Proof Sys2Proof.Machine

/-- 02 R39–R41, R48, R50, R57, R61: a served manager's Create of a FREE slice whose descriptor can be met makes it ACTIVE under the descriptor's
weight, budgets and limits, gives it the next generation where the index was used before and nothing in flight carries that one, and answers
success; a Resize gives an ACTIVE slice its new limits at once, keeps its state, and leaves weight and budgets for the next epoch; a Delete leaves
a slice without namespaces FREE with no binding, translation entry or quota, and one with namespaces DELETING, its queues gone, until the
advances of their keys are persistent. -/
def Obligations.SliceCreateResizeDeleteComplete : Prop :=
  (∀ (o : Org) (cid n : Nat) (desc : List Nat) (s : State), Manages s o → 1 ≤ n → n < 1024 → s.slState n = slFree →
    s.descFault n false desc = none → ((s.sx n).used = true → s.stamped true n (cut 16 (s.rd F.SLI_GEN_GEN n + 1)) = false) →
    Ran (.sliceCreate o cid 1 n desc) s (fun t => t.slState n = slActive ∧ t.rd F.SLI_STS_FENCE_RSN n = 0 ∧
      t.rd F.SLI_CAP_QUOTA_UNITS n = cut F.SLI_CAP_QUOTA_UNITS.w ((s.wanted n false desc).getD 0 0) ∧
      t.rd F.SLI_BW_INGRESS n = cut F.SLI_BW_INGRESS.w ((s.wanted n false desc).getD 1 0) ∧
      t.rd F.SLI_BW_EGRESS n = cut F.SLI_BW_EGRESS.w ((s.wanted n false desc).getD 2 0) ∧
      t.rd F.SLI_WEIGHT_WEIGHT n = cut F.SLI_WEIGHT_WEIGHT.w ((s.wanted n false desc).getD 3 0) ∧
      t.rd F.SLI_WEIGHT_LCMASK n = cut F.SLI_WEIGHT_LCMASK.w ((s.wanted n false desc).getD 4 0) ∧
      t.rd F.SLI_RES_QP n = cut F.SLI_RES_QP.w ((s.wanted n false desc).getD 7 0) ∧
      t.rd F.SLI_GEN_GEN n = (if (s.sx n).used then cut F.SLI_GEN_GEN.w (s.rd F.SLI_GEN_GEN n + 1) else s.rd F.SLI_GEN_GEN n) ∧
      t.zn = s.zn ∧ t.ftl = s.ftl ∧ t.stg = s.stg ∧ Replied t o cid stOk)) ∧
  (∀ (o : Org) (cid n : Nat) (desc : List Nat) (s : State), Manages s o → n < 1024 → s.slState n = slActive →
    s.descFault n true desc = none →
    Ran (.sliceResize o cid n desc) s (fun t => t.slState n = slActive ∧
      t.rd F.SLI_CAP_QUOTA_UNITS n = cut F.SLI_CAP_QUOTA_UNITS.w ((s.wanted n true desc).getD 0 0) ∧
      t.rd F.SLI_WEIGHT_WEIGHT n = s.rd F.SLI_WEIGHT_WEIGHT n ∧ t.rd F.SLI_BW_INGRESS n = s.rd F.SLI_BW_INGRESS n ∧
      (t.sx n).pendWeight = some ((s.wanted n true desc).getD 3 0) ∧ (t.sx n).pendIn = some ((s.wanted n true desc).getD 1 0) ∧
      t.rd F.SLI_GEN_GEN n = s.rd F.SLI_GEN_GEN n ∧ t.zn.ud = s.zn.ud ∧ t.zn.ns = s.zn.ns ∧ Replied t o cid stOk)) ∧
  (∀ (o : Org) (cid n : Nat) (s : State), Manages s o → 1 ≤ n → n < 1024 → (s.slState n = slActive ∨ s.slState n = slFenced) →
    s.tailFull = false →
    (s.advancing n = false → (∀ e ∈ s.zn.ns, e.2.slice ≠ n) → s.sl.dels = [] → s.cip.erases = [] →
      Ran (.sliceDelete o cid n) s (fun t => t.slState n = slFree ∧ t.rd F.SLI_STS_FENCE_RSN n = 0 ∧ t.rd F.SLI_CAP_USED_UNITS n = 0 ∧
        t.rd F.SLI_CAP_QUOTA_UNITS n = 0 ∧ (∀ b ∈ t.sl.fbind, b.slice ≠ n) ∧ (∀ b ∈ t.sl.nbind, b.slice ≠ n) ∧
        (∀ e ∈ t.sl.xlt, e.slice ≠ n) ∧ (t.sx n).used = true ∧ Replied t o cid stOk)) ∧
    ((∃ e ∈ s.zn.ns, e.2.slice = n) → s.sl.dels = [] → s.cip.erases = [] →
      Ran (.sliceDelete o cid n) s (fun t => t.slState n = slDeleting ∧ (n, o, cid) ∈ t.sl.dels ∧ (∀ e ∈ t.sl.qs, e.2.slice ≠ n))))

/-- 02 R39, R40, R62: Slice Management is refused and changes nothing: from a sender that is not slice 0's with Invalid Command Opcode, of an index that
is none or of slice 0 for Create, Delete, Reset and Fence with Invalid Field in Command, in a state the action does not allow with
Command Sequence Error, and of an action code that the table does not list with Invalid Field in Command; a descriptor at fault answers the offset of
the field in dword 0. -/
def Obligations.SliceManagementRefusals : Prop :=
  (∀ (o : Org) (cid n : Nat) (desc : List Nat) (s : State), Served s o → isMgr o = false → s.stopped = false → s.tailFull = false →
    Ran (.sliceCreate o cid 1 n desc) s (fun t => Refuses s t o cid stOpcode 0) ∧
    Ran (.sliceResize o cid n desc) s (fun t => Refuses s t o cid stOpcode 0) ∧
    Ran (.sliceDelete o cid n) s (fun t => Refuses s t o cid stOpcode 0) ∧
    Ran (.sliceReset o cid n) s (fun t => Refuses s t o cid stOpcode 0) ∧
    Ran (.sliceFence o cid n) s (fun t => Refuses s t o cid stOpcode 0)) ∧
  (∀ (o : Org) (cid n : Nat) (desc : List Nat) (s : State), Manages s o → n = 0 ∨ 1024 ≤ n → s.tailFull = false →
    Ran (.sliceCreate o cid 1 n desc) s (fun t => Refuses s t o cid stField 0) ∧
    Ran (.sliceDelete o cid n) s (fun t => Refuses s t o cid stField 0) ∧
    Ran (.sliceReset o cid n) s (fun t => Refuses s t o cid stField 0) ∧
    Ran (.sliceFence o cid n) s (fun t => Refuses s t o cid stField 0)) ∧
  (∀ (o : Org) (cid n : Nat) (desc : List Nat) (s : State), Manages s o → 1 ≤ n → n < 1024 → s.slState n ≠ slFree →
    Ran (.sliceCreate o cid 1 n desc) s (fun t => Refuses s t o cid stSeq 0)) ∧
  (∀ (o : Org) (cid n b : Nat) (desc : List Nat) (s : State), Manages s o → 1 ≤ n → n < 1024 → s.slState n = slFree →
    s.descFault n false desc = some b →
    Ran (.sliceCreate o cid 1 n desc) s (fun t => Refuses s t o cid stField b)) ∧
  (∀ (o : Org) (cid act n : Nat) (desc : List Nat) (s : State), Manages s o → act = 0 ∨ 9 ≤ act →
    Ran (.sliceCreate o cid act n desc) s (fun t => Refuses s t o cid stField 0))

/-- 02 R55–R59: a Reset of a slice with no queue, QP, stream or operation in flight advances its generation and leaves it ACTIVE without a
fencing reason; a Fence leaves an ACTIVE slice with no command in flight FENCED with reason 1; a Queue Reset empties the queue and advances
its generation, whatever the slice's other queues hold. -/
def Obligations.ResetFenceQueueResetComplete : Prop :=
  (∀ (o : Org) (cid n : Nat) (s : State), Manages s o → 1 ≤ n → n < 1024 → (s.slState n = slActive ∨ s.slState n = slFenced) →
    s.queuesOf n = [] → s.qpsOf n = [] → s.cap.streams = [] → s.die.dies = [] → s.die.cws = [] → s.zn.cmds = [] → (s.sx n).pendFence = none →
    Ran (.sliceReset o cid n) s (fun t => t.slState n = slActive ∧ t.rd F.SLI_STS_FENCE_RSN n = 0 ∧
      t.rd F.SLI_GEN_GEN n = cut F.SLI_GEN_GEN.w (s.rd F.SLI_GEN_GEN n + 1) ∧ t.zn = s.zn ∧ Replied t o cid stOk)) ∧
  (∀ (o : Org) (cid n : Nat) (s : State), Manages s o → 1 ≤ n → n < 1024 → s.slState n = slActive → s.zn.cmds = [] → s.cap.streams = [] →
    Ran (.sliceFence o cid n) s (fun t => t.slState n = slFenced ∧ t.rd F.SLI_STS_FENCE_RSN n = 1 ∧ t.rd F.SLI_STS_OVERQ n = 0 ∧
      t.zn = s.zn ∧ Replied t o cid stOk)) ∧
  (∀ (o : Org) (cid n i : Nat) (q : Queue) (s : State), Manages s o → n < 1024 → s.slState n = slActive → Tab.find i s.sl.qs = some q →
    q.slice = n → (q.qid ≠ 0 ∨ q.fabric = true ∨ q.func ≠ 0) → (s.admQ o).map (·.1) ≠ some i → s.sl.waits = [] → s.zn.cmds = [] →
    s.rdn.recon = [] → s.die.dies = [] → s.die.cws = [] →
    Ran (.queueReset o cid n i 0) s (fun t => t.zn = s.zn ∧ t.regs = s.regs ∧ Replied t o cid stOk ∧
      Tab.find i t.sl.qs = some { q with gen := cut 16 (q.gen + 1), head := 0, tail := 0, outst := 0, pend := [], adm := [] } ∧
      ∀ j, j ≠ i → (s.admQ o).map (·.1) ≠ some j → Tab.find j t.sl.qs = Tab.find j s.sl.qs))

/-- 02 R43, R44: a Bind adds the binding, and the translation entries it carries, to an ACTIVE slice; an Unbind takes the binding away and
leaves every translation entry, queue and association. -/
def Obligations.BindUnbindComplete : Prop :=
  (∀ (o : Org) (cid n idx func : Nat) (pasid : Option Nat) (host sub : Nat) (ents : List XltWant) (s : State), Manages s o → n < 1024 →
    s.slState n = slActive → s.fbindOk n idx func pasid = true → ents.all XltWant.ok = true →
    (s.sl.xlt.filter (fun e => e.slice = n)).length + ents.length ≤ (s.sx n).xltLim →
    (∀ e ∈ s.sl.xlt, ¬ (e.slice = n ∧ e.bind = idx ∧ e.kind = 0)) → s.fn func = none →
    Ran (.sliceBind o cid n idx 0 func pasid host sub ents) s (fun t => Completes { s with sl := { s.sl with
      fbind := s.sl.fbind ++ [⟨func, pasid, idx, n⟩]
      xlt := s.sl.xlt ++ ents.map (fun w => ⟨n, func, pasid, w.base, w.size, w.rd, w.wr, w.cxl, idx, 0⟩) } } t o cid 0 [])) ∧
  (∀ (o : Org) (cid n idx func : Nat) (pasid : Option Nat) (host sub : Nat) (s : State), Manages s o → n < 1024 → s.slState n = slActive →
    s.nbindOk n idx host sub = true →
    Ran (.sliceBind o cid n idx 1 func pasid host sub []) s (fun t =>
      Completes { s with sl := { s.sl with nbind := s.sl.nbind ++ [⟨host, sub, idx, n⟩] } } t o cid 0 [])) ∧
  (∀ (o : Org) (cid n idx : Nat) (s : State), Manages s o → n < 1024 → s.slState n = slActive ∨ s.slState n = slFenced →
    (∃ b ∈ s.sl.fbind, b.slice = n ∧ b.idx = idx) →
    Ran (.sliceUnbind o cid n idx 0) s (fun t => Completes { s with sl := { s.sl with
      fbind := s.sl.fbind.filter (fun b => !(b.slice = n && b.idx = idx)) } } t o cid 0 [])) ∧
  (∀ (o : Org) (cid n idx : Nat) (s : State), Manages s o → n < 1024 → s.slState n = slActive ∨ s.slState n = slFenced →
    (∃ b ∈ s.sl.nbind, b.slice = n ∧ b.idx = idx) →
    Ran (.sliceUnbind o cid n idx 1) s (fun t => Completes { s with sl := { s.sl with
      nbind := s.sl.nbind.filter (fun b => !(b.slice = n && b.idx = idx)) } } t o cid 0 []))

/-- 03 R81, R501, 02 R42: the queue commands of a function: a completion queue with its vector and `qsize + 1` entries; a submission queue
under the slice of its one binding, with the lowest free device index, counted in the slice's use; their deletions, a completion queue that a
submission queue uses being refused. -/
def Obligations.QueueCreationDeletionComplete : Prop :=
  (∀ (o : Org) (cid cqid qsize vec f : Nat) (s : State), Served s o → funcOf o = some f → 1 ≤ cqid → cqid ≤ 2047 →
    (∀ c ∈ s.sl.cqs, ¬ (c.func = f ∧ c.cqid = cqid)) → 1 ≤ qsize → qsize ≤ 4095 → s.vecTaken f vec = false → vec < s.vecTable f →
    Ran (.createIoCompletionQueue o cid cqid qsize vec) s (fun t =>
      Completes { s with sl := { s.sl with cqs := s.sl.cqs ++ [⟨f, cqid, vec, qsize + 1, 0, 0⟩] } } t o cid 0 [])) ∧
  (∀ (o : Org) (cid qid qsize cqid bind lc base f i : Nat) (ff : Bool) (b : FBind) (s : State), Served s o → funcOf o = some f → 1 ≤ qid →
    qid ≤ 2047 → (∀ e ∈ s.sl.qs, ¬ (e.2.fabric = false ∧ e.2.func = f ∧ e.2.qid = qid)) → 1 ≤ qsize → qsize ≤ 4095 → cqid ≠ 0 →
    (∃ c ∈ s.sl.cqs, c.func = f ∧ c.cqid = cqid) → s.bindsOf f = [b] → bit (s.rd F.SLI_WEIGHT_LCMASK b.slice) lc = true →
    s.qpFree b.slice = true → s.freeIdx = some i →
    Ran (.createIoSubmissionQueue o cid qid qsize cqid bind lc ff base) s (fun t =>
      Tab.find i t.sl.qs =
        some ⟨b.slice, b.idx, f, b.pasid, false, 0, 0, qid, lc, ff, s.nextGen i, cqid, qsize + 1, 0, 0, 0, 0, 0, false, [], base, []⟩ ∧
      (∀ j, j ≠ i → (s.admQ o).map (·.1) ≠ some j → Tab.find j t.sl.qs = Tab.find j s.sl.qs) ∧
      t.rd F.SLI_RES_USE_QP b.slice = cut F.SLI_RES_USE_QP.w (s.rd F.SLI_RES_USE_QP b.slice + 1) ∧
      t.zn = s.zn ∧ Keeps s t [F.SLI_RES_USE_QP] ∧ Answers s t o cid stOk 0 [])) ∧
  (∀ (o : Org) (cid cqid f : Nat) (s : State), Served s o → funcOf o = some f → cqid ≠ 0 → (∃ c ∈ s.sl.cqs, c.func = f ∧ c.cqid = cqid) →
    (∀ e ∈ s.sl.qs, ¬ (e.2.fabric = false ∧ e.2.func = f ∧ e.2.cqid = cqid)) →
    Ran (.deleteIoCompletionQueue o cid cqid) s (fun t => Completes { s with sl := { s.sl with
      cqs := s.sl.cqs.filter (fun c => !(c.func = f && c.cqid = cqid)) } } t o cid 0 [])) ∧
  (∀ (o : Org) (cid cqid f : Nat) (s : State), Served s o → funcOf o = some f → cqid ≠ 0 → (∃ c ∈ s.sl.cqs, c.func = f ∧ c.cqid = cqid) →
    (∃ e ∈ s.sl.qs, e.2.fabric = false ∧ e.2.func = f ∧ e.2.cqid = cqid) →
    Ran (.deleteIoCompletionQueue o cid cqid) s (fun t => Refuses s t o cid stQdel 0)) ∧
  (∀ (o : Org) (cid qid f i : Nat) (q : Queue) (s : State), Served s o → funcOf o = some f →
    s.sl.qs.find? (fun e => !e.2.fabric && e.2.func = f && e.2.qid = qid && qid != 0) = some (i, q) → (s.admQ o).map (·.1) ≠ some i →
    s.zn.cmds = [] →
    Ran (.deleteIoSubmissionQueue o cid qid) s (fun t => (∀ p ∈ t.sl.qs, p.1 ≠ i) ∧
      (∀ j, j ≠ i → (s.admQ o).map (·.1) ≠ some j → Tab.find j t.sl.qs = Tab.find j s.sl.qs) ∧ t.zn = s.zn ∧ Replied t o cid stOk))

/-- 03 R67, R82, 20 R442: the queue features and asynchronous events: a class change is kept in the queue's context and read back by Get
Features; coalescing is kept by function, coalescing disable by vector; what waits on a vector is signalled when the aggregation time has
passed; an Asynchronous Event Request is held until a notice for its controller, and answers one that waits. -/
def Obligations.QueueFeaturesComplete : Prop :=
  (∀ (o : Org) (cid qid lc i : Nat) (ff : Bool) (q : Queue) (s : State), Served s o → s.queueOf o qid = some (i, q) → qid ≠ 0 → lc ≤ 7 →
    (s.admQ o).map (·.1) ≠ some i → bit (s.rd F.SLI_WEIGHT_LCMASK q.slice) lc = true →
    Ran (.setFeaturesQueueClass o cid qid lc ff) s (fun t =>
      Completes { s with sl := { s.sl with qs := Tab.put i { q with lc := lc, ff := ff } s.sl.qs } } t o cid 0 [])) ∧
  (∀ (o : Org) (cid qid i : Nat) (q : Queue) (s : State), Served s o → s.queueOf o qid = some (i, q) → qid ≠ 0 →
    Ran (.getFeaturesQueueClass o cid qid) s (fun t => Completes s t o cid (qid + q.lc * 65536 + (if q.ff then 524288 else 0)) [])) ∧
  (∀ (o : Org) (cid time thr f : Nat) (s : State), Served s o → funcOf o = some f → time < 256 → thr < 256 →
    Ran (.setFeaturesInterruptCoalescing o cid time thr) s (fun t =>
      Completes { s with sl := { s.sl with coal := Tab.put f ⟨time, thr⟩ s.sl.coal } } t o cid 0 [])) ∧
  (∀ (o : Org) (cid vec f : Nat) (cd : Bool) (s : State), Served s o → funcOf o = some f → vec < s.vecTable f →
    Ran (.setFeaturesIntVectorConfig o cid vec cd) s (fun t => t.vecOf f vec = { s.vecOf f vec with cd := cd } ∧
      (∀ g v, (g, v) ≠ (f, vec) → t.vecOf g v = s.vecOf g v) ∧ Completes { s with sl := { s.sl with vecs := t.sl.vecs } } t o cid 0 [])) ∧
  (∀ (func vec : Nat) (co : Coal) (s : State), Tab.find func s.sl.coal = some co → (s.vecOf func vec).waiting ≠ [] →
    (s.vecOf func vec).since + co.time * 100000 ≤ s.el → (∀ m ∈ (s.vecOf func vec).waiting, s.live m.slice m.q m.genS m.genQ = true) →
    Ran (.aggregationTimeExpiry func vec) s (fun t => (t.vecOf func vec).waiting = [] ∧
      t = { s with sl := { s.sl with vecs := t.sl.vecs }, outs := s.outs ++ [.msix func vec] })) ∧
  (∀ (func vec : Nat) (co : Coal) (m : Stamp) (s : State), Tab.find func s.sl.coal = some co → (s.vecOf func vec).waiting = [m] →
    (s.vecOf func vec).since + co.time * 100000 ≤ s.el → s.live m.slice m.q m.genS m.genQ = false →
    Ran (.aggregationTimeExpiry func vec) s (fun t => (t.vecOf func vec).waiting = [] ∧ t.outs = s.outs ∧
      t.rd F.SLI_STALE_CNT_CNT m.slice = sat F.SLI_STALE_CNT_CNT.w (s.rd F.SLI_STALE_CNT_CNT m.slice + 1) ∧ Keeps s t [F.SLI_STALE_CNT_CNT])) ∧
  (∀ (o : Org) (cid : Nat) (s : State), Served s o → (∀ n ∈ s.ras.notices, n.1 ≠ ctlOf o) →
    Ran (.asyncEventRequest o cid) s (fun t => t.ras = { s.ras with aers := s.ras.aers ++ [(ctlOf o, o, cid)] } ∧ t.outs = s.outs ∧
      t = { s with ras := t.ras, sl := { s.sl with qs := t.sl.qs } })) ∧
  (∀ (o : Org) (cid ty info page : Nat) (s : State), Served s o → s.ras.notices = [(ctlOf o, ty, info, page)] →
    Ran (.asyncEventRequest o cid) s (fun t =>
      Completes { s with ras := { s.ras with notices := [] } } t o cid (ty + info * 256 + page * 65536) []))

/-- 05 R110–R114: Capture Stream Management. A Create whose descriptor passes every test leaves the stream IDLE as the descriptor says, an RDMA
stream's QP bound to it, and one of an action code that the table does not list fails with Invalid Field in Command; a Modify replaces the fields
marked M alone; a Start moves an IDLE stream that holds its zones to RUNNING and opens the zones it had closed; a Stop with no frame in assembly
closes them and leaves the stream IDLE; a Delete leaves it FREE. -/
def Obligations.CaptureStreamManagementComplete : Prop :=
  (∀ (o : Org) (cid k : Nat) (desc : List Nat) (n : Ns) (p : LaneProg) (s : State), Served s o → k < 256 → s.mayCap o (some n.slice) = true →
    s.stream k = none → s.streamFault k desc = none → Tab.find (leAt desc 4 4) s.zn.ns = some n → Tab.find (leAt desc 27 1) s.cap.progs = some p →
    bit (leAt desc 0 4) 0 = false →
    Ran (.captureStreamCreate o cid 1 k desc) s (fun t => (mkStream desc n.slice p).state = stIdle ∧ t.stream k = some (mkStream desc n.slice p) ∧
      Completes { s with cap := { s.cap with streams := Tab.put k (mkStream desc n.slice p) s.cap.streams } } t o cid 0 [])) ∧
  (∀ (o : Org) (cid k : Nat) (desc : List Nat) (n : Ns) (p : LaneProg) (q : Qp) (s : State), Served s o → k < 256 →
    s.mayCap o (some n.slice) = true → s.stream k = none → s.streamFault k desc = none → Tab.find (leAt desc 4 4) s.zn.ns = some n →
    Tab.find (leAt desc 27 1) s.cap.progs = some p → bit (leAt desc 0 4) 0 = true → s.qp (cut 24 (leAt desc 56 4)) = some q → q.slice = none →
    Ran (.captureStreamCreate o cid 1 k desc) s (fun t => t.stream k = some (mkStream desc n.slice p) ∧
      t.qp (cut 24 (leAt desc 56 4)) = some { q with slice := some n.slice, stream := some k } ∧
      t.rd F.SLI_RES_USE_RCQP n.slice = cut F.SLI_RES_USE_RCQP.w (s.rd F.SLI_RES_USE_RCQP n.slice + 1) ∧ Keeps s t [F.SLI_RES_USE_RCQP] ∧
      Answers s t o cid stOk 0 [] ∧ (∀ j, j ≠ k → t.stream j = s.stream j) ∧ t.zn = s.zn)) ∧
  (∀ (o : Org) (cid act k : Nat) (desc : List Nat) (s : State), Served s o → act = 0 ∨ 6 ≤ act →
    Ran (.captureStreamCreate o cid act k desc) s (fun t => Refuses s t o cid stField 0)) ∧
  (∀ (o : Org) (cid k : Nat) (desc : List Nat) (x : Stream) (p : LaneProg) (s : State), Served s o →
    s.capChk o k [stIdle, stRun, stStall, stBlock] = none → s.stream k = some x → s.modFault x desc = none →
    Tab.find (leAt desc 27 1) s.cap.progs = some p →
    (p.id = x.cur.id ∨ ∀ l, l < 64 → bit (Nat.lor x.mask (leAt desc 40 8)) l = true → s.laneOld l = false) →
    Ran (.captureStreamModify o cid k desc) s (fun t =>
      t.stream k = some { x with drop := bit (leAt desc 0 4) 1, stall := leAt desc 28 2, mask := leAt desc 40 8, cur := p, desc := desc.take 512 } ∧
      (∀ j, j ≠ k → t.stream j = s.stream j) ∧ t.zn = s.zn ∧ Keeps s t [F.FRL_LSTS_BANK, F.FRL_LSTS_EPOCH] ∧
      (p = x.cur → t.regs = s.regs) ∧ Answers s t o cid stOk 0 [])) ∧
  (∀ (o : Org) (cid k i z : Nat) (x : Stream) (s : State), Served s o → s.capChk o k [stIdle] = none → s.stream k = some x → x.set = some i →
    x.iz = some z → x.rdma = false →
    Ran (.captureStreamStart o cid k) s (fun t => t.stream k = some { x with state := stRun, blk := 0, last := s.el } ∧
      (∀ h ∈ s.setZones x i, s.zst h = znClosed → t.zst h = znImp) ∧ t.zn.ud = s.zn.ud ∧ Replied t o cid stOk)) ∧
  (∀ (o : Org) (cid k : Nat) (x : Stream) (s : State), Served s o → s.capChk o k [stRun, stStall, stBlock] = none → s.stream k = some x →
    x.frames = [] → x.stop = none → x.rxAt = none →
    Ran (.captureStreamStop o cid k) s (fun t => t.stream k = some { x with state := stIdle, blk := 0 } ∧
      (∀ i, x.set = some i → ∀ h ∈ s.setZones x i, isActive (s.zst h) = true → t.zst h = znClosed) ∧ t.zn.ud = s.zn.ud ∧
      Replied t o cid stOk)) ∧
  (∀ (o : Org) (cid k : Nat) (x : Stream) (s : State), Served s o → s.capChk o k [stIdle] = none → s.stream k = some x → x.recs = [] →
    Ran (.captureStreamDelete o cid k) s (fun t => t.stream k = none ∧ (∀ j, j ≠ k → t.stream j = s.stream j) ∧ Replied t o cid stOk))

/-- 04 R502, R108, 12 R289, R292: the namespace commands. A Create takes the lowest free NSID, makes every zone Empty and answers the NSID;
Attachment changes the namespace's list of controllers alone; a Delete, a Format and a Sanitize journal an advance of each key generation they
need and wait for it, and where they name no namespace complete; when the advance is persistent a Delete leaves no namespace of that NSID, and a
Format every zone Empty under the new format, and they answer success. -/
def Obligations.NamespaceCommandsComplete : Prop :=
  (∀ (o : Org) (cid sl nsze ncap lbaf dg cipher id : Nat) (zoned : Bool) (s : State), Served s o → s.sliceOf o = some sl →
    s.nsFault sl zoned nsze ncap lbaf dg cipher = none → s.freeNsid sl = some id →
    Ran (.namespaceCreate o cid zoned nsze ncap lbaf dg cipher) s (fun t =>
      (∃ n, Tab.find id t.zn.ns = some n ∧ n.slice = sl ∧ n.zoned = zoned ∧ n.size = nsze ∧ n.lbaf = lbaf ∧ n.dg = dg ∧ n.cipher = cipher ∧
        n.ctls = [] ∧ (zoned = true → n.zones = nsze / zoneBlocks ∧ ∀ i, i < n.zones → t.zst (n.base + i) = znEmpty)) ∧
      (∀ j, j ≠ id → Tab.find j t.zn.ns = Tab.find j s.zn.ns) ∧
      t.rd F.SLI_NS_USE sl = cut F.SLI_NS_USE.w (s.rd F.SLI_NS_USE sl + 1) ∧ t.zn.ud = s.zn.ud ∧ Answers s t o cid stOk id [])) ∧
  (∀ (o : Org) (cid nsid id : Nat) (ctls : List Nat) (n : Ns) (s : State), Served s o → nsid ≠ 0xFFFFFFFF →
    (s.named o nsid).head? = some (id, n) → (∀ k ∈ ctls, 1 ≤ k ∧ k < 256 ∧ Ctl.fn k ∉ n.ctls) →
    Ran (.namespaceAttachment o cid nsid false ctls) s (fun t =>
      Completes { s with zn := { s.zn with ns := Tab.put id { n with ctls := n.ctls ++ ctls.map Ctl.fn } s.zn.ns } } t o cid 0 [])) ∧
  (∀ (o : Org) (cid nsid id k : Nat) (n : Ns) (s : State), Served s o → nsid ≠ 0xFFFFFFFF → (s.named o nsid).head? = some (id, n) → 1 ≤ k →
    k < 256 → Ctl.fn k ∈ n.ctls →
    Ran (.namespaceAttachment o cid nsid true [k]) s (fun t =>
      Completes { s with zn := { s.zn with ns := Tab.put id { n with ctls := n.ctls.filter (· ≠ Ctl.fn k) } s.zn.ns } } t o cid 0 [])) ∧
  (∀ (o : Org) (cid : Nat) (s : State), Served s o → s.tailFull = false → s.cip.erases = [] → s.sl.dels = [] →
    (∀ (nsid : Nat) (n : Ns), s.named o nsid = [(nsid, n)] →
      Ran (.namespaceDelete o cid nsid) s (fun t => t.cip.erases = [⟨o, cid, .delete, [(n.slice, nsid)]⟩] ∧ s.advPend n.slice (some nsid) ⊆ t.advPend n.slice (some nsid) ∧
        min (s.nextKey n.slice nsid) (2 ^ 32) ∈ t.advPend n.slice (some nsid) ∧ t.zn = s.zn ∧ t.outs = s.outs)) ∧
    (∀ (nsid lbaf : Nat) (n : Ns), s.named o nsid = [(nsid, n)] → lbaf ≤ 2 → s.genFull n.slice nsid = false →
      Ran (.formatNvm o cid nsid lbaf) s (fun t => t.cip.erases = [⟨o, cid, .format lbaf, [(n.slice, nsid)]⟩] ∧
        min (s.nextKey n.slice nsid) (2 ^ 32) ∈ t.advPend n.slice (some nsid) ∧ t.zn = s.zn ∧ t.outs = s.outs)) ∧
    (∀ (nsid : Nat) (n : Ns), isMgr o = true → s.zn.ns = [(nsid, n)] → s.genFull n.slice nsid = false →
      Ran (.sanitizeCryptoErase o cid) s (fun t => t.cip.erases = [⟨o, cid, .sanitize, [(n.slice, nsid)]⟩] ∧
        min (s.nextKey n.slice nsid) (2 ^ 32) ∈ t.advPend n.slice (some nsid) ∧ t.zn = s.zn ∧ t.outs = s.outs)) ∧
    (s.named o 0xFFFFFFFF = [] → Ran (.namespaceDelete o cid 0xFFFFFFFF) s (fun t => t.zn = s.zn ∧ Answers s t o cid stOk 0 [])) ∧
    (isMgr o = true → s.zn.ns = [] → Ran (.sanitizeCryptoErase o cid) s (fun t => t.zn = s.zn ∧ Answers s t o cid stOk 0 []))) ∧
  (∀ (o : Org) (cid nsid gen k lbaf : Nat) (n : Ns) (e : JEnt) (s : State), s.ftl.jtail = [] → s.ftl.jpages = [⟨[e], k⟩] →
    e.act = .keyGen n.slice nsid gen → s.zn.ns = [(nsid, n)] → n.zoned = true → s.zn.cmds = [] → s.cap.streams = [] → s.sl.dels = [] →
    (s.cip.erases = [⟨o, cid, .delete, [(n.slice, nsid)]⟩] →
      Ran (.journalPagePersist 0) s (fun t => t.zn.ns = [] ∧ t.cip.erases = [] ∧ Replied t o cid stOk)) ∧
    (s.cip.erases = [⟨o, cid, .format lbaf, [(n.slice, nsid)]⟩] →
      Ran (.journalPagePersist 0) s (fun t => t.zn.ns = [(nsid, { n with lbaf := lbaf })] ∧ t.cip.erases = [] ∧ Replied t o cid stOk ∧
        ∀ i, i < n.zones → t.zst (n.base + i) = znEmpty ∧ (s.zst (n.base + i) ≠ znEmpty → t.wp (n.base + i) = 0))))

/-- 04 R86, 16 R366, 19 R430, 20 R443–R445: Identify and every log page answer what the state holds and change nothing, but for the two that a read
clears: the event queue, read whole by the manager with Retain Asynchronous Event clear, is empty afterwards, and unmasked where PF0 itself read it, and the Changed
Zone List of the reading controller and namespace is empty. -/
def Obligations.IdentifyAndLogPagesComplete : Prop :=
  (∀ (o : Org) (cid nsid : Nat) (e : Nat × Ns) (s : State), Served s o → (s.named o nsid).head? = some e →
    Ran (.identify o cid 0 nsid) s (fun t => Completes s t o cid 0 (s.identNs o e.2))) ∧
  (∀ (o : Org) (cid nsid : Nat) (s : State), Served s o → Ran (.identify o cid 1 nsid) s (fun t => Completes s t o cid 0 (s.identCtl o))) ∧
  (∀ (o : Org) (cid nsid : Nat) (s : State), Served s o → isMgr o = true → Ran (.identify o cid 2 nsid) s (fun t =>
    Completes s t o cid 0 ((s.zn.ns.map (·.1)).filter (fun i => nsid < i)))) ∧
  (∀ (o : Org) (cid off len : Nat) (s : State), Served s o → Ran (.getLogPageEventQueue o cid off len true) s (fun t =>
    ∃ page, Completes s t o cid 0 (pagePart page off len) ∧ leAt page 4 4 = (s.evShown (ctlOf o)).length % 2 ^ 32 ∧
      page.drop 64 = (s.evShown (ctlOf o)).flatMap EvEnt.bytes)) ∧
  (∀ (o : Org) (cid len : Nat) (s : State), Served s o → isMgr o = true → 64 + 32 * s.ras.evq.length ≤ len →
    Ran (.getLogPageEventQueue o cid 0 len false) s (fun t => (t.viewOf .mgr).masked = (if o = .mi then (s.viewOf .mgr).masked else []) ∧
      (t.viewOf .mgr).lost = 0 ∧ t.ras = { s.ras with evq := [], views := t.ras.views } ∧ t.zn = s.zn ∧ t.regs = s.regs ∧
      ∃ data, Answers s t o cid stOk 0 data)) ∧
  (∀ (o : Org) (cid nsid : Nat) (s : State), Served s o → Ran (.getLogPageChangedZoneList o cid nsid) s (fun t =>
    (∀ e, e ∈ t.ras.czl ↔ e ∈ s.ras.czl ∧ ¬ (e.1 = ctlOf o ∧ e.2.1 = nsid)) ∧
    ∃ data, data.length = 4096 ∧ Completes { s with ras := { s.ras with czl := t.ras.czl } } t o cid 0 data)) ∧
  (∀ (o : Org) (cid off len : Nat) (s : State), Served s o →
    Ran (.getLogPageCalibrationSweep o cid off len) s (fun t => Completes s t o cid 0 (pagePart (s.sweepPage 0) off len)) ∧
    Ran (.getLogPageTemperatureSweep o cid off len) s (fun t => Completes s t o cid 0 (pagePart (s.sweepPage 1) off len)) ∧
    (isMgr o = true → Ran (.getLogPageRecorderLive o cid off len) s (fun t =>
      Completes s t o cid 0 (pagePart (recPage 0 0 s.evr.recs) off len))) ∧
    (isMgr o = false → Ran (.getLogPageRecorderLive o cid off len) s (fun t => Refuses s t o cid stLogPage 0))) ∧
  (∀ (o : Org) (cid lsp off len : Nat) (c : RecCopy) (s : State), Served s o → isMgr o = true → lsp < 16 → s.evr.nand[lsp]? = some c →
    Ran (.getLogPageRecorderNand o cid lsp off len) s (fun t => Completes s t o cid 0 (pagePart (recPage c.ns c.kind c.recs) off len))) ∧
  (∀ (o : Org) (cid lsp off len : Nat) (x : NorSect) (xs : List NorSect) (s : State), Served s o → isMgr o = true → lsp < 16 →
    (norFlushes s.evr.nor [])[lsp]? = some (x :: xs) →
    Ran (.getLogPageRecorderNor o cid lsp off len) s (fun t =>
      Completes s t o cid 0 (pagePart (recPage x.ns x.kind ((x :: xs).flatMap (·.recs))) off len))) ∧
  (∀ (o : Org) (cid : Nat) (s : State), Served s o → Ran (.getLogPageSmartHealth o cid) s (fun t => ∃ data, Completes s t o cid 0 data ∧
    data[0]? = some s.critNow ∧ data[2]? = some s.availSpare ∧ data[4]? = some (s.rd F.MED_WEAR_PCT_USED) ∧ data[5]? = some s.ras.unsafeCnt ∧
    data[6]? = some s.ras.integrity ∧ data[7]? = some (s.rd F.RAS_ERRLOG_COUNT))) ∧
  (∀ (o : Org) (cid n : Nat) (s : State), Served s o → Ran (.getLogPageErrorInformation o cid n) s (fun t =>
    Completes s t o cid 0 ((s.ras.errs.take n).flatMap (fun e => [e.num, e.org.num, e.cid, e.sct, e.sc, e.die.getD (2 ^ 32 - 1)]))))

/-- 13 R302–R304, 02 R42, 03 R68: connections. A REQ that passes an UP sub-port makes a QP, its path MTU the greatest that both ends carry; a Connect of a
bound NQN pair to an ACTIVE slice with room makes an association and its admin queue of 32 entries and counts both in the slice's use, one of an unbound
pair answers Connect Invalid Host (0x84), one on the discovery service the Discovery Log Page (the model's choice, log 99); Keep Alive restarts the timer,
its expiry ends the association; a capsule waits in its queue with its stamps and restarts the timer; a DREQ puts the QP in Error. -/
def Obligations.FabricConnectionsComplete : Prop :=
  (∀ (p u dst ip vlan peer svc pmtu i mtu : Nat) (s : State), Arrives s p u dst ip vlan 1 false → s.fabricOn = true →
    (List.range qpMax).find? (fun i => (s.qp (i + 2)).isNone) = some i → mtuOf pmtu = some mtu →
    Ran (.cmReq p u dst ip vlan peer svc pmtu) s (fun t => (∃ x, t.qp (i + 2) = some x ∧ x.port = p ∧ x.sub = u ∧ x.peer = peer ∧ x.svc = svc ∧
        x.err = false ∧ x.queue = none ∧ x.slice = none ∧ x.rc = s.lineQ p ∧ x.mtu = mtu) ∧
      Sent s t (.net p u "cm_rep" [peer, i + 2, mtu]) ∧
      t = { s with net := { s.net with qps := t.net.qps, txq := t.net.txq }, outs := t.outs })) ∧
  (∀ (qp cid host sub kato a i id : Nat) (x : Qp) (b : NBind) (s : State), QpUp s qp x → x.queue = none → x.stream = none → x.svc ≠ discSvc →
    s.sl.nbind.find? (fun b => b.host = host && b.sub = sub) = some b → s.slState b.slice = slActive →
    s.qpFree b.slice = true → s.rd F.SLI_RES_USE_RCQP b.slice < s.rd F.SLI_RES_RCQP b.slice → s.freeIdx = some i →
    (List.range 65536).find? (fun i => (Tab.find i s.assocs).isNone) = some id →
    Ran (.connect qp cid 0 32 host sub kato a false) s (fun t =>
      Tab.find i t.sl.qs = some (fabQueue b.slice b.idx id qp 0 2 (s.nextGen i) 32) ∧
      Tab.find id t.assocs = some ⟨host, sub, b.slice, kato, s.el, x.port, x.sub, i⟩ ∧
      t.qp qp = some { x with slice := some b.slice, queue := some i, assoc := some id } ∧
      t.rd F.SLI_RES_USE_QP b.slice = cut F.SLI_RES_USE_QP.w (s.rd F.SLI_RES_USE_QP b.slice + 1) ∧
      t.rd F.SLI_RES_USE_RCQP b.slice = cut F.SLI_RES_USE_RCQP.w (s.rd F.SLI_RES_USE_RCQP b.slice + 1) ∧
      Sent s t (.net x.port x.sub "connect" [qp, cid, 0, 0, id]) ∧ t.zn = s.zn ∧ t.fns = s.fns)) ∧
  (∀ (qp cid qid size host sub kato a : Nat) (auth : Bool) (x : Qp) (s : State), QpUp s qp x → x.queue = none → x.stream = none → x.svc ≠ discSvc →
    (∀ b ∈ s.sl.nbind, ¬ (b.host = host ∧ b.sub = sub)) →
    Ran (.connect qp cid qid size host sub kato a auth) s (fun t => Sent s t (.net x.port x.sub "connect" [qp, cid, 1, 0x84]) ∧
      t = { s with net := { s.net with txq := t.net.txq }, outs := t.outs })) ∧
  (∀ (qp cid qid size host sub kato a : Nat) (auth : Bool) (x : Qp) (s : State), QpUp s qp x → x.queue = none → x.stream = none → x.svc = discSvc →
    Ran (.connect qp cid qid size host sub kato a auth) s (fun t => Sent s t (.net x.port x.sub "discovery" ([qp, cid] ++ s.discovery host)) ∧
      t = { s with net := { s.net with txq := t.net.txq }, outs := t.outs })) ∧
  (∀ (cid a : Nat) (x : Assoc) (s : State), Served s (.fab a) → Tab.find a s.assocs = some x →
    Ran (.keepAlive (.fab a) cid) s (fun t => Completes { s with assocs := Tab.put a { x with last := s.el } s.assocs } t (.fab a) cid 0 [])) ∧
  (∀ (a : Nat) (x : Assoc) (s : State), Tab.find a s.assocs = some x → 0 < x.kato → x.last + x.kato * 1000000 ≤ s.el →
    Ran (.keepAliveExpiry a) s (fun t => Tab.find a t.assocs = none ∧ (∀ b, b ≠ a → Tab.find b t.assocs = Tab.find b s.assocs) ∧ t.zn.ud = s.zn.ud)) ∧
  (∀ (qp cid sgls i : Nat) (sglOk inl : Bool) (x : Qp) (q : Queue) (s : State), QpUp s qp x → x.queue = some i → Tab.find i s.sl.qs = some q →
    q.qid ≠ 0 → s.slState q.slice ≠ slResetting → s.resetting i = false → s.rd F.PWR_STS_STATE ≠ pwNap →
    Ran (.commandCapsule qp cid sgls sglOk inl) s (fun t =>
      Tab.find i t.sl.qs = some { q with pend := q.pend ++ [s.stamp q (some cid) (sgls > 1 || !sglOk) inl], hadWork := true } ∧
      (∀ j, j ≠ i → Tab.find j t.sl.qs = Tab.find j s.sl.qs) ∧
      Tab.find q.assoc t.assocs = (Tab.find q.assoc s.assocs).map (fun v => { v with last := s.el }) ∧
      t.outs = s.outs ∧ t.zn = s.zn ∧ t.regs = s.regs)) ∧
  (∀ (qp : Nat) (x : Qp) (s : State), QpUp s qp x →
    Ran (.cmDreq qp) s (fun t => t.qp qp = some { x with err := true } ∧ Sends t (.net x.port x.sub "cm_drep" [qp]) ∧ t.zn.ud = s.zn.ud))

/-- 13 R299, R302, R303, R309: what QPs do. An acknowledged packet clears the retries; a marked one sends a CNP where none was sent before; a CNP cuts
the rate by α/2, down to MIN_RATE, and raises α by g = 1/256; t_alpha without a CNP lowers α; t_inc raises the rate halfway to its target;
a timeout is retried, and past RETRY the QP is in Error; an RNR NAK is retried, without limit where RNR_RETRY is 7; an inbound RDMA Read
is refused and puts the QP in Error. -/
def Obligations.QpEventsComplete : Prop :=
  (∀ (p u dst ip vlan qp : Nat) (x : Qp) (s : State), Arrives s p u dst ip vlan 1 false → s.qp qp = some x → x.err = false →
    x.port = p → x.sub = u →
    Ran (.rocePacket p u dst ip vlan qp false true) s (fun t =>
      t = { s with net := { s.net with qps := Tab.put qp { x with tries := 0, rnrs := 0 } s.net.qps } }) ∧
    (x.cnpTx = none → Ran (.rocePacket p u dst ip vlan qp true false) s (fun t => t.qp qp = some { x with cnpTx := some s.el } ∧
      t.rd F.ETH_CNP_TX_CNT p u = sat F.ETH_CNP_TX_CNT.w (s.rd F.ETH_CNP_TX_CNT p u + 1) ∧
      Sent s t (.net p u "cnp" [qp, s.rd F.ETH_CC_CFG_CNP_PRIO p, 48])))) ∧
  (∀ (qp : Nat) (x : Qp) (s : State), QpUp s qp x →
    Ran (.cnpReceived qp) s (fun t => (∃ y, t.qp qp = some y ∧ y.rt = x.rc ∧ y.alpha = (255 / 256 : Rat) * x.alpha + 1 / 256 ∧ y.stage = 0 ∧
        (s.minRate x.port ≤ x.rc * (1 - x.alpha / 2) → y.rc = x.rc * (1 - x.alpha / 2)) ∧
        (x.rc * (1 - x.alpha / 2) < s.minRate x.port → y.rc = s.minRate x.port)) ∧
      t.rd F.ETH_CNP_RX_CNT x.port x.sub = sat F.ETH_CNP_RX_CNT.w (s.rd F.ETH_CNP_RX_CNT x.port x.sub + 1) ∧ t.outs = s.outs)) ∧
  (∀ (qp bytes : Nat) (x : Qp) (s : State), s.qp qp = some x → x.err = false →
    (x.decayAt + s.rd F.ETH_CC_CFG_T_ALPHA x.port * 1000 ≤ s.el → Ran (.ccRateTimer qp false bytes) s (fun t =>
      t.qp qp = some { x with alpha := (255 / 256 : Rat) * x.alpha, decayAt := s.el } ∧ t.regs = s.regs)) ∧
    (x.incAt + s.rd F.ETH_CC_CFG_T_INC x.port * 1000 ≤ s.el → x.stage < 5 → s.minRate x.port ≤ (x.rt + x.rc) / 2 →
      Ran (.ccRateTimer qp true bytes) s (fun t =>
        t.qp qp = some { x with stage := x.stage + 1, rc := (x.rt + x.rc) / 2, incAt := s.el } ∧ t.regs = s.regs))) ∧
  (∀ (qp : Nat) (x : Qp) (s : State), s.qp qp = some x → x.err = false →
    (x.tries < x.retry → Ran (.ackTimeout qp) s (fun t => t.qp qp = some { x with tries := x.tries + 1 } ∧
      Sent s t (.net x.port x.sub "retry" [qp, x.tries + 1]) ∧ t.sl = s.sl)) ∧
    (x.retry ≤ x.tries → Ran (.ackTimeout qp) s (fun t => t.qp qp = some { x with err := true } ∧ t.zn.ud = s.zn.ud))) ∧
  (∀ (qp : Nat) (x : Qp) (s : State), QpUp s qp x →
    (x.rnrRetry = 7 ∨ x.rnrs < x.rnrRetry → Ran (.rnrNak qp) s (fun t => t.qp qp = some { x with rnrs := x.rnrs + 1 } ∧
      Sent s t (.net x.port x.sub "rnr_retry" [qp]) ∧ t.sl = s.sl)) ∧
    Ran (.inboundRdmaRead qp) s (fun t => t.qp qp = some { x with err := true } ∧ t.zn.ud = s.zn.ud ∧
      (s.txWaits x.port x.sub (cut 3 (Config.txPrio qp)) (some qp) = false → Out.net x.port x.sub "nak_access" [qp] ∈ t.outs)))

/-- 13 R301, R306: frames for the controller on an UP sub-port: an ARP request for one of its addresses is answered with the sub-port's MAC address;
an echo request up to 1,000 in a second, the next is dropped and counted; a dropped frame is counted by its cause; a transmission without
a next hop asks for it, and after 1 s counts a timeout and asks again; a reply enters the table and releases what waited; an entry goes after 60 s. -/
def Obligations.AddressFramesComplete : Prop :=
  (∀ (p u dst ip vlan from1 : Nat) (s : State), Arrives s p u dst ip vlan 1 true →
    Ran (.arpRequest p u dst ip vlan from1) s (fun t => Sent s t (.net p u "arp_reply" [ip, s.rd F.ETH_MAC_ADDR p u, from1]) ∧
      t = { s with net := { s.net with txq := t.net.txq }, outs := t.outs })) ∧
  (∀ (p u dst ip vlan from1 : Nat) (s : State), Arrives s p u dst ip vlan 1 false → (s.sub p u).echoAt = s.el / 1000000000 →
    ((s.sub p u).echoes < 1000 → Ran (.echoRequest p u dst ip vlan from1) s (fun t => (t.sub p u).echoes = (s.sub p u).echoes + 1 ∧
      Sent s t (.net p u "echo_reply" [ip, from1]) ∧ t.regs = s.regs)) ∧
    (1000 ≤ (s.sub p u).echoes → Ran (.echoRequest p u dst ip vlan from1) s (fun t => t.outs = s.outs ∧ t.net = s.net ∧
      t.rd F.ETH_RX_DROP_RATE_CNT p u = sat F.ETH_RX_DROP_RATE_CNT.w (s.rd F.ETH_RX_DROP_RATE_CNT p u + 1)))) ∧
  (∀ (p u : Nat) (s : State), s.link p u = lkUp →
    Ran (.droppedFrame p u drCsum) s (fun t => t = { s with regs := t.regs } ∧
      t.rd F.ETH_RX_DROP_CSUM_CNT p u = sat F.ETH_RX_DROP_CSUM_CNT.w (s.rd F.ETH_RX_DROP_CSUM_CNT p u + 1) ∧ Keeps s t [F.ETH_RX_DROP_CSUM_CNT])) ∧
  (∀ (p u cause : Nat) (s : State), s.link p u = lkHeld →
    Ran (.droppedFrame p u cause) s (fun t => t = { s with regs := t.regs } ∧
      t.rd F.ETH_RX_DROP_HELD_CNT p u = sat F.ETH_RX_DROP_HELD_CNT.w (s.rd F.ETH_RX_DROP_HELD_CNT p u + 1))) ∧
  (∀ (p ip qp : Nat) (s : State), (∀ e ∈ s.net.asks, ¬ (e.1 = p ∧ e.2.1 = ip ∧ e.2.2.1 = qp)) → (∀ e ∈ s.net.peers, ¬ (e.1 = p ∧ e.2.1 = ip)) →
    Ran (.addressResolutionTimeout p ip qp) s (fun t => t.net = { s.net with asks := s.net.asks ++ [(p, ip, qp, s.el)], txq := t.net.txq } ∧
      (∃ u, Sent s t (.net p u "arp_request" [ip])) ∧ t.regs = s.regs ∧ t.sl = s.sl)) ∧
  (∀ (p ip qp at0 : Nat) (x : Qp) (s : State), s.net.asks = [(p, ip, qp, at0)] → at0 + 1000000000 ≤ s.el → s.qp qp = some x → x.err = false →
    x.tries < x.retry →
    Ran (.addressResolutionTimeout p ip qp) s (fun t => t.net.asks = [(p, ip, qp, s.el)] ∧ t.qp qp = some { x with tries := x.tries + 1 } ∧
      Sends t (.net p x.sub "arp_request" [ip]) ∧ t.zn = s.zn)) ∧
  (∀ (p ip mac qp at0 : Nat) (s : State), (p, ip, qp, at0) ∈ s.net.asks → (s.net.peers.filter (fun e => e.1 = p)).length < 4096 →
    s.rd F.PWR_STS_STATE ≠ pwDoze →
    Ran (.arpReply p ip mac) s (fun t => (p, ip, mac, s.el) ∈ t.net.peers ∧ (∀ e ∈ t.net.asks, ¬ (e.1 = p ∧ e.2.1 = ip)) ∧
      (∀ e ∈ s.net.peers, ¬ (e.1 = p ∧ e.2.1 = ip) → e ∈ t.net.peers) ∧
      t = { s with net := { s.net with peers := t.net.peers, asks := t.net.asks, txq := t.net.txq }, outs := t.outs })) ∧
  (∀ (p ip : Nat) (s : State), Ran (.peerMacLifetimeExpiry p ip) s (fun t => t = { s with net := { s.net with peers := t.net.peers } } ∧
    ∀ e, e ∈ t.net.peers ↔ e ∈ s.net.peers ∧ ¬ (e.1 = p ∧ e.2.1 = ip ∧ e.2.2.2 + 60000000000 ≤ s.el)))

/-- 13 R296, R297, R306, 01 R23, 21 R467: priority flow control and the link states of a sub-port: a PFC frame pauses the priorities of its mask, an 802.3x
pause every priority, quanta 0 ends their pause, a pause that ran out ends; a buffer at its XOFF point pauses the peers with quanta 0xFFFF, and one that has
drained to the XON point lets them go on; a full one loses packets, which are counted; DOWN trains on a signal where its island is calibrated, training ends
in UP_WAIT, UP_HOLD later the sub-port is UP, FLAP_HOLD later HELD trains again; a fault takes it DOWN, or to HELD with FLAP_MAX entries to
DOWN in 10 s. -/
def Obligations.PfcAndSubportStatesComplete : Prop :=
  (∀ (p u mask : Nat) (s : State), s.link p u = lkUp →
    Ran (.pfcFrame p u mask 0 false) s (fun t => t = { s with net := { s.net with subs := t.net.subs, txq := t.net.txq }, outs := t.outs } ∧
      ∀ e, e ∈ (t.sub p u).paused ↔ e ∈ (s.sub p u).paused ∧ bit mask e.1 = false)) ∧
  (∀ (p u mask quanta i : Nat) (s : State), s.link p u = lkUp → 0 < quanta → i < 8 →
    (bit mask i = true → Ran (.pfcFrame p u mask quanta false) s (fun t => t.regs = s.regs ∧
      (i, s.el + quanta * 512 / s.lineRate p) ∈ (t.sub p u).paused ∧ ∀ e ∈ (s.sub p u).paused, bit mask e.1 = false → e ∈ (t.sub p u).paused)) ∧
    (s.rd F.ETH_PFC_CFG_EN p = 0 → Ran (.pfcFrame p u mask quanta true) s (fun t => t.regs = s.regs ∧
      (i, s.el + quanta * 512 / s.lineRate p) ∈ (t.sub p u).paused))) ∧
  (∀ (p u : Nat) (s : State), Ran (.pfcPauseExpiry p u) s (fun t =>
    t = { s with net := { s.net with subs := t.net.subs, txq := t.net.txq }, outs := t.outs } ∧
    ∀ e, e ∈ (t.sub p u).paused ↔ e ∈ (s.sub p u).paused ∧ s.el < e.2)) ∧
  (∀ (p u fill lost : Nat) (s : State), s.link p u = lkUp → s.xoffAt p ≤ fill → s.xoffMask p ≠ 0 →
    Ran (.pfcRefresh p u fill lost) s (fun t => t.outs = s.outs ++ [.net p u "pfc" [s.xoffMask p, 0xFFFF]] ∧ t.rd F.ETH_SUB_STS_XOFF p u = 1 ∧
      (2 * s.xoffAt p ≤ fill → t.rd F.ETH_RX_OVF_CNT p u = sat F.ETH_RX_OVF_CNT.w (s.rd F.ETH_RX_OVF_CNT p u + lost)))) ∧
  (∀ (p u fill lost : Nat) (s : State), s.link p u = lkUp → s.cap.rx = [] → fill ≤ s.xoffAt p / 2 → fill < s.xoffAt p → s.mustPause p = false →
    s.rd F.ETH_SUB_STS_XOFF p u = 1 → s.xoffMask p ≠ 0 →
    Ran (.pfcRefresh p u fill lost) s (fun t => t.outs = s.outs ++ [.net p u "pfc" [s.xoffMask p, 0]] ∧ t.rd F.ETH_SUB_STS_XOFF p u = 0 ∧
      t.rd F.ETH_RX_OVF_CNT p u = s.rd F.ETH_RX_OVF_CNT p u)) ∧
  (∀ (p u : Nat) (s : State), s.link p u = lkDown → u < s.subCount p → s.tables = true → s.img.noCal.contains p = false →
    Ran (.subportSignalDetect p u) s (fun t => t.link p u = lkTrain ∧ t = { s with regs := t.regs })) ∧
  (∀ (p u : Nat) (s : State), s.link p u = lkTrain →
    Ran (.subportTrainingDone p u) s (fun t => t.link p u = lkWait ∧ (t.sub p u).waitAt = s.el ∧ t.outs = s.outs)) ∧
  (∀ (p u : Nat) (s : State), s.link p u = lkWait → (s.sub p u).waitAt + s.rd F.ETH_LINK_CFG_UP_HOLD p * 1000000 ≤ s.el →
    Ran (.upHoldExpiry p u) s (fun t => t.link p u = lkUp ∧ t.net.subs = s.net.subs ∧ t.net.qps = s.net.qps ∧ t.zn = s.zn)) ∧
  (∀ (p u : Nat) (s : State), s.link p u = lkHeld → (s.sub p u).heldAt + s.rd F.ETH_LINK_CFG_FLAP_HOLD p * 1000000000 ≤ s.el →
    Ran (.flapHoldExpiry p u) s (fun t => t.link p u = lkTrain ∧ t = { s with regs := t.regs })) ∧
  (∀ (p u corr uncorr : Nat) (s : State), s.link p u = lkUp →
    Ran (.subportFault p u corr uncorr) s (fun t =>
      t.link p u = (if s.rd F.ETH_LINK_CFG_FLAP_MAX p ≤ ((s.sub p u).downs.filter (fun x => s.el < x + 10000000000)).length + 1 then lkHeld
        else lkDown) ∧
      t.rd F.ETH_FLAP_CNT_CNT p u = sat F.ETH_FLAP_CNT_CNT.w (s.rd F.ETH_FLAP_CNT_CNT p u + 1) ∧ (t.sub p u).paused = [] ∧ t.zn.ud = s.zn.ud))

/-- 04 R97, R90, 05 R139, 07 R174: reads. A Read of a zoned namespace whose blocks lie in staging or at and past the write pointer completes at once with what
was written and with zeros; no register and no data changes; one on media queues a read at its die, or reads of the other members around it. Report Zones answers the descriptors of the zones from the one named;
Extended Report Zones ends with Invalid Field in Command; a Frame Read of a record that the checks accept, whose bytes lie in staging, ends
with the status and the raw bytes the record decodes to. -/
def Obligations.ReadsComplete : Prop :=
  (∀ (q cid nsid lba len addr : Nat) (lr : Bool) (x : Queue) (c : Cmd) (n : Ns) (s : State), Fetched s q cid nsid lba len x c n →
    DmaOk s x addr (len * 4096) true → s.egWait q = false → n.zoned = true → n.cipher ≠ 1 → 0 < len →
    (∀ h, n.base + lba / zoneBlocks ≤ h → h ≤ n.base + (lba + len - 1) / zoneBlocks → s.zst h ≠ znOff) →
    (∀ i, i < len → (s.srcOf n nsid (lba + i)).1 = .zero ∨ (s.srcOf n nsid (lba + i)).1 = .staged) →
    Ran (.read q cid nsid lba len lr addr []) s (fun t =>
      EndedWith t q cid stOk 0 ((List.range len).map (fun i => (s.srcOf n nsid (lba + i)).2)) ∧ t.regs = s.regs ∧ t.zn.ud = s.zn.ud ∧
      t.zn.zx = s.zn.zx ∧ t.ftl = s.ftl)) ∧
  (∀ (q cid nsid lba addr u v : Nat) (lr : Bool) (r : RowId) (y : SRow) (x : Queue) (c : Cmd) (n : Ns) (s : State),
    Fetched s q cid nsid lba 1 x c n → DmaOk s x addr 4096 true → s.egWait q = false → n.zoned = true → n.cipher ≠ 1 → n.lbaf = 0 → c.need = [] →
    s.zst (zoneOf n lba) ≠ znOff → s.srcOf n nsid lba = (.unit r u, v) → s.srow r = some y → s.memMissing r y (placeIn y.k u).1 = false →
    s.isLost r (stripeOf (placeIn y.k u).2) = false →
    Ran (.read q cid nsid lba 1 lr addr []) s (fun t =>
      t.cmdOf q cid = some { Started s c .read nsid lba 1 lr false 0 with data := [v], srcs := [.unit r u], need := [0], st := .media } ∧
      ((∃ d, ∃ o ∈ (t.dieOf d).queue, o.q = q ∧ o.cid = cid ∧ o.kind = .read) ∨ ∃ e ∈ t.rdn.recon, e.q = q ∧ e.cid = cid) ∧
      t.zn.ud = s.zn.ud)) ∧
  (∀ (q cid nsid slba opt cap addr : Nat) (part : Bool) (x : Queue) (c : Cmd) (n : Ns) (s : State), Fetched s q cid nsid slba 1 x c n →
    DmaOk s x addr (64 * cap + 64) true → n.zoned = true → opt ≤ 7 →
    Ran (.reportZones q cid nsid slba opt part cap addr) s (fun t => ∃ (k : Nat) (zs : List Nat), zs.length ≤ cap ∧
      EndedWith t q cid stOk 0 (k :: zs.flatMap s.zoneDesc) ∧ t.regs = s.regs ∧
      ∀ h ∈ zs, zoneOf n slba ≤ h ∧ h < n.base + n.zones ∧ reportSel opt (s.zst h) = some true)) ∧
  (∀ (q cid nsid slba : Nat) (x : Queue) (c : Cmd) (n : Ns) (s : State), Fetched s q cid nsid slba 1 x c n → n.zoned = true →
    Ran (.extendedReportZones q cid nsid slba) s (fun t => Ended t q cid stField ∧ t.zn.ud = s.zn.ud)) ∧
  (∀ (q cid nsid lba slot blen addr raw : Nat) (lr : Bool) (st : Nat × Nat) (data r : List Nat) (x : Queue) (c : Cmd) (n : Ns) (s : State),
    Fetched s q cid nsid lba 1 x c n → DmaOk s x addr (blen * 4096) true → s.egWait q = false → n.zoned = true → slot < 32 →
    r = ((blkBytes (s.srcOf n nsid lba).2).drop (slot * 128)).take 128 → s.frameResult n nsid r blen = (st, raw, data) → st ≠ stField →
    bit (leAt r 18 2) 2 = false → (s.srcOf n nsid lba).1 = .staged →
    (∀ e ∈ extentOf n.base (leAt r 82 1) (leAt r 32 8 / zoneBlocks) (leAt r 40 8) (leAt r 48 4),
      (s.srcOf n nsid ((e.1 - n.base) * zoneBlocks + e.2)).1 = .staged) →
    Ran (.frameRead q cid nsid lba slot blen lr addr) s (fun t => EndedWith t q cid st raw data ∧ t.zn.ud = s.zn.ud))

/-- 04 R94–R96, R504, 06 R144: a Write at the write pointer of an active zone and an Append go on to their staging reservation; a Write past the write
pointer enters the zone hold and is counted there; a Write below it fails with Zone Invalid Write; a conventional Write goes on to its
reservation. Admission takes the reservation and deducts the bytes, and asks a fabric's host for the data that its capsule did not bring; that data is
added as it arrives. -/
def Obligations.WritesReachStaging : Prop :=
  (∀ (q cid nsid lba len : Nat) (lr fua : Bool) (x : Queue) (c : Cmd) (n : Ns) (s : State), Fetched s q cid nsid lba len x c n → n.zoned = true →
    (s.zxOf (zoneOf n lba)).stream = none → isActive (s.zst (zoneOf n lba)) = true → lba % zoneBlocks + len ≤ zoneBlocks →
    s.overQ (s.zSlice (zoneOf n lba)) = false →
    (lba % zoneBlocks = s.wp (zoneOf n lba) → Ran (.write q cid nsid lba len lr fua) s (fun t =>
      t.cmdOf q cid = some { Started s c .write nsid lba len lr fua 0 with zone := zoneOf n lba, st := .staging } ∧ t.regs = s.regs ∧
      t.outs = s.outs)) ∧
    (s.wp (zoneOf n lba) < lba % zoneBlocks → lba % zoneBlocks ≤ s.wp (zoneOf n lba) + 16384 →
      s.rd F.ZON_ENT2_HOLD (zoneOf n lba) < s.rd F.ZON_CFG_HOLD_DEPTH → Ran (.write q cid nsid lba len lr fua) s (fun t =>
      t.cmdOf q cid = some { Started s c .write nsid lba len lr fua 0 with zone := zoneOf n lba, st := .held } ∧
      t.rd F.ZON_ENT2_HOLD (zoneOf n lba) = cut F.ZON_ENT2_HOLD.w (s.rd F.ZON_ENT2_HOLD (zoneOf n lba) + 1) ∧ t.outs = s.outs)) ∧
    (lba % zoneBlocks < s.wp (zoneOf n lba) → Ran (.write q cid nsid lba len lr fua) s (fun t =>
      Ended t q cid stZInvalid ∧ t.wp (zoneOf n lba) = s.wp (zoneOf n lba) ∧ t.zn.ud = s.zn.ud))) ∧
  (∀ (q cid nsid lba len : Nat) (lr fua : Bool) (x : Queue) (c : Cmd) (n : Ns) (s : State), Fetched s q cid nsid lba len x c n → n.zoned = false →
    Ran (.write q cid nsid lba len lr fua) s (fun t => t.cmdOf q cid = some { Started s c .write nsid lba len lr fua 0 with st := .staging } ∧
      t.regs = s.regs ∧ t.outs = s.outs)) ∧
  (∀ (q cid nsid lba len : Nat) (lr : Bool) (x : Queue) (c : Cmd) (n : Ns) (s : State), Fetched s q cid nsid lba len x c n → n.zoned = true →
    lba % zoneBlocks = 0 → len ≤ 512 → (s.zxOf (zoneOf n lba)).stream = none → isActive (s.zst (zoneOf n lba)) = true →
    s.wp (zoneOf n lba) + len ≤ zoneBlocks → s.overQ (s.zSlice (zoneOf n lba)) = false →
    Ran (.zoneAppend q cid nsid lba len lr) s (fun t =>
      t.cmdOf q cid = some { Started s c .append nsid lba len lr false 0 with zone := zoneOf n lba, st := .staging } ∧ t.regs = s.regs ∧
      t.outs = s.outs)) ∧
  (∀ (q cid addr : Nat) (data : List Nat) (x : Queue) (c : Cmd) (n : Ns) (s : State), InFlight s q cid x c n → c.st = .staging →
    c.kind ≠ .writeZeroes → s.overQ c.slice = false → s.admitOpen c.slice (s.dgOf c n) = true → s.tailFull = false → s.spillFull c n = false →
    s.beyond c n = false → s.ovfFull = false → (n.zoned = true → s.rebuilding c.zone = false) →
    (s.foldOpen = true ∨ (n.zoned = true ∧ s.rd F.ZON_ENT0_ROUTE c.zone = 2)) → (s.splitRes c n).2 ≤ s.winFree →
    x.fabric = true ∨ s.canSend x.func = true → n.cipher ≠ 1 → DmaOk s x addr (c.len * 4096) false →
    Ran (.writeAdmit q cid addr data) s (fun t => t.cmdOf q cid = some { c with
        st := .admitted, resDir := (s.splitRes c n).1, resWin := (s.splitRes c n).2
        data := if x.fabric = true ∧ c.inl = false then [] else hostData n c.len data, azLim := s.rd F.SLI_AZ_LIMIT c.slice + 1 } ∧
      t.sl.devBucket = s.sl.devBucket - ((c.len * 4096 : Nat) : Int) ∧ (t.sx c.slice).inBytes = (s.sx c.slice).inBytes + c.len * 4096 ∧
      (x.fabric = false ∨ c.inl = true → t.outs = s.outs ∧ t.net = s.net) ∧
      (∀ y, x.fabric = true → c.inl = false → s.qp x.qp = some y → ∃ z, t.qp x.qp = some z ∧ (q, cid) ∈ z.reads) ∧
      t.regs = s.regs ∧ t.zn.ud = s.zn.ud)) ∧
  (∀ (q cid : Nat) (data : List Nat) (x : Queue) (c : Cmd) (n : Ns) (s : State), InFlight s q cid x c n → c.st = .admitted → x.fabric = true →
    Ran (.rdmaReadResponse q cid data) s (fun t => t.cmdOf q cid = some { c with data := hostData n c.len (c.data ++ data) } ∧
      t = { s with zn := { s.zn with cmds := t.zn.cmds }, net := { s.net with qps := t.net.qps, txq := t.net.txq }, outs := t.outs }))

/-- 02 R53, 04 R504, R89: the commit of a Write or Write Zeroes to an active zone, all of whose data is in staging, advances the zone's write pointer past it, and
from then on the blocks it wrote are held as its data, enciphered where its namespace says so (12 R283); every other block of user data is as before. -/
def Obligations.WriteCommitStoresItsData : Prop :=
  ∀ (q cid : Nat) (x : Queue) (c : Cmd) (n : Ns) (s : State), InFlight s q cid x c n → c.st = .admitted → c.data.length = c.len →
    s.stg.commits = true → n.zoned = true → c.kind = .write ∨ c.kind = .writeZeroes →
    (s.zxOf c.zone).stream = none → isActive (s.zst c.zone) = true → c.lba % zoneBlocks = s.wp c.zone → s.wp c.zone + c.len ≤ zoneBlocks →
    Ran (.writeCommit q cid []) s (fun t => t.cmdOf q cid = none ∧ t.wp c.zone = s.wp c.zone + c.len ∧
      (∀ i, i < c.len → t.getUd (udZone c.zone (s.wp c.zone + i)) =
        s.seal c.nsid (s.rd F.ZON_ENT1_ZSLBA c.zone + s.wp c.zone + i) (c.data.getD i 0)) ∧
      ∀ k, (∀ i, i < c.len → k ≠ udZone c.zone (s.wp c.zone + i)) → t.getUd k = s.getUd k)

/-- 04 R90–R93, R98: zone management of one zone. An Open makes a Closed or Implicitly Opened zone Explicitly Opened, and an Empty one that can be
activated; a Close makes an open zone Closed, or Empty where nothing was written; a Finish makes it Full with its write pointer at its
capacity; a Reset makes it Empty, its write pointer at its start, and its blocks read as zeros; Offline takes a Read Only zone Offline. -/
def Obligations.ZoneManagementComplete : Prop :=
  (∀ (q cid nsid zslba : Nat) (lr : Bool) (x : Queue) (c : Cmd) (n : Ns) (s : State), Fetched s q cid nsid zslba 1 x c n → n.zoned = true →
    zslba % zoneBlocks = 0 → (s.zxOf (zoneOf n zslba)).stream = none → s.tailFull = false →
    (isActive (s.zst (zoneOf n zslba)) = true → Ran (.zoneOpen q cid nsid zslba false lr 0) s (fun t =>
      t.zst (zoneOf n zslba) = znExp ∧ t.cmdOf q cid = none ∧ t.zn.ud = s.zn.ud)) ∧
    (∀ u, s.zst (zoneOf n zslba) = znEmpty → s.overQ c.slice = false → s.azFree c.slice c.azLim = true →
      (s.putCmd (Started s c .zoneOpen nsid zslba 1 lr false 0)).activate (zoneOf n zslba) n.dg false = some u →
      Ran (.zoneOpen q cid nsid zslba false lr 0) s (fun t => t.zst (zoneOf n zslba) = znExp ∧ t.cmdOf q cid = none ∧ t.zn.ud = s.zn.ud)) ∧
    (s.zst (zoneOf n zslba) = znImp ∨ s.zst (zoneOf n zslba) = znExp → Ran (.zoneClose q cid nsid zslba false lr) s (fun t =>
      t.zst (zoneOf n zslba) = (if 0 < s.wp (zoneOf n zslba) then znClosed else znEmpty) ∧ t.cmdOf q cid = none ∧ t.zn.ud = s.zn.ud)) ∧
    (isActive (s.zst (zoneOf n zslba)) = true → Ran (.zoneFinish q cid nsid zslba false lr) s (fun t =>
      t.zst (zoneOf n zslba) = znFull ∧ t.wp (zoneOf n zslba) = zoneBlocks ∧ t.cend (zoneOf n zslba) = s.wp (zoneOf n zslba) ∧
      t.cmdOf q cid = none ∧ t.zn.ud = s.zn.ud)) ∧
    (isActive (s.zst (zoneOf n zslba)) = true ∨ s.zst (zoneOf n zslba) = znFull → Ran (.zoneReset q cid nsid zslba false lr) s (fun t =>
      t.zst (zoneOf n zslba) = znEmpty ∧ t.wp (zoneOf n zslba) = 0 ∧ t.cmdOf q cid = none ∧
      (∀ off, off < zoneBlocks → t.getUd (udZone (zoneOf n zslba) off) = 0) ∧
      ∀ k, ¬ (udZone (zoneOf n zslba) 0 ≤ k ∧ k < udZone (zoneOf n zslba) zoneBlocks) → t.getUd k = s.getUd k)) ∧
    (s.zst (zoneOf n zslba) = znRo → Ran (.zoneOffline q cid nsid zslba false lr) s (fun t =>
      t.zst (zoneOf n zslba) = znOff ∧ t.cmdOf q cid = none ∧ (∀ off, off < zoneBlocks → t.getUd (udZone (zoneOf n zslba) off) = 0) ∧ ∀ k, ¬ (udZone (zoneOf n zslba) 0 ≤ k ∧ k < udZone (zoneOf n zslba) zoneBlocks) → t.getUd k = s.getUd k)))

/-- 03 R505, 02 R49, 07 R171: Write Zeroes and Deallocate leave every block they name of a conventional namespace unmapped and complete; a Flush of a
zoned namespace, and of a conventional one with nothing of its group in staging, completes at once and changes no data. In a zoned namespace
a Write Zeroes at the write pointer is admitted with zeros for its data, and elsewhere fails with Zone Invalid Write (the model's choice, log
30). -/
def Obligations.ConventionalCommandsComplete : Prop :=
  (∀ (q cid nsid lba len : Nat) (lr : Bool) (x : Queue) (c : Cmd) (n : Ns) (s : State), Fetched s q cid nsid lba len x c n → n.zoned = false →
    s.overQ c.slice = false → s.tailFull = false →
    Ran (.writeZeroes q cid nsid lba len lr) s (fun t => (∀ i, i < len → (t.ment nsid (lba + i)).st = 0) ∧ t.cmdOf q cid = none ∧
      ∀ l, ¬ (lba ≤ l ∧ l < lba + len) → t.ment nsid l = s.ment nsid l)) ∧
  (∀ (q cid nsid lba len : Nat) (x : Queue) (c : Cmd) (n : Ns) (s : State), Fetched s q cid nsid 0 0 x c n → n.zoned = false →
    lba + len ≤ n.size → s.tailFull = false →
    Ran (.deallocate q cid nsid [(lba, len)]) s (fun t => (∀ i, i < len → (t.ment nsid (lba + i)).st = 0) ∧ t.cmdOf q cid = none)) ∧
  (∀ (q cid nsid : Nat) (x : Queue) (c : Cmd) (n : Ns) (s : State), Fetched s q cid nsid 0 0 x c n →
    n.zoned = true ∨ s.convStaged n.dg = [] →
    Ran (.flush q cid nsid) s (fun t => Ended t q cid stOk ∧ t.zn.ud = s.zn.ud)) ∧
  (∀ (q cid nsid lba len : Nat) (lr : Bool) (x : Queue) (c : Cmd) (n : Ns) (s : State), Fetched s q cid nsid lba len x c n → n.zoned = true →
    (s.zxOf (zoneOf n lba)).stream = none → isActive (s.zst (zoneOf n lba)) = true → lba % zoneBlocks + len ≤ zoneBlocks →
    s.overQ (s.zSlice (zoneOf n lba)) = false → s.tailFull = false →
    (lba % zoneBlocks = s.wp (zoneOf n lba) → s.rd F.MED_PF_STS_PHASE = 0 → s.stg.commits = true → s.ftl.faulted = none →
      s.beyond { Started s c .writeZeroes nsid lba len lr false 0 with zone := zoneOf n lba } n = false → s.rebuilding (zoneOf n lba) = false →
      n.cipher ≠ 1 → Ran (.writeZeroes q cid nsid lba len lr) s (fun t =>
      t.cmdOf q cid = some { Started s c .writeZeroes nsid lba len lr false 0 with
          zone := zoneOf n lba, st := .admitted, data := List.replicate len 0, azLim := s.rd F.SLI_AZ_LIMIT c.slice + 1 } ∧ t.regs = s.regs ∧ t.zn.ud = s.zn.ud ∧ t.outs = s.outs)) ∧
    (lba % zoneBlocks ≠ s.wp (zoneOf n lba) → Ran (.writeZeroes q cid nsid lba len lr) s (fun t =>
      Ended t q cid stZInvalid ∧ t.wp (zoneOf n lba) = s.wp (zoneOf n lba) ∧ t.zn.ud = s.zn.ud)))

/-- 04 R95, R103, 03 R72, 07 R173: what time does to commands in flight: a Write held for HOLD_TMO fails and is counted; a fail-fast command past its
deadline that is unfinished ends with 0xC5; a read that waited UNREACH_WAIT for an unreachable member ends with 0xC8 and is counted; an
activation that waited is made when it can be. -/
def Obligations.CommandTimeoutsComplete : Prop :=
  (∀ (q cid : Nat) (x : Queue) (c : Cmd) (n : Ns) (s : State), InFlight s q cid x c n → s.live c.slice q c.genS c.genQ = true → c.st = .held →
    c.ff = false → c.since + s.rd F.ZON_CFG_HOLD_TMO * 1000000 ≤ s.el →
    Ran (.zoneHoldTimeout q cid) s (fun t => Ended t q cid stZInvalid ∧ t.zn.ud = s.zn.ud ∧
      t.rd F.ZON_HOLD_FAIL_CNT = sat F.ZON_HOLD_FAIL_CNT.w (s.rd F.ZON_HOLD_FAIL_CNT + 1) ∧
      t.rd F.ZON_ENT2_HOLD c.zone = cut F.ZON_ENT2_HOLD.w (s.rd F.ZON_ENT2_HOLD c.zone - 1))) ∧
  (∀ (q cid : Nat) (x : Queue) (c : Cmd) (n : Ns) (s : State), InFlight s q cid x c n → s.live c.slice q c.genS c.genQ = true → c.ff = true →
    c.dl < s.el → unfinished c = true →
    Ran (.deadlineMiss q cid) s (fun t => Ended t q cid stLate ∧ t.zn.ud = s.zn.ud)) ∧
  (∀ (q cid : Nat) (x : Queue) (c : Cmd) (n : Ns) (s : State), InFlight s q cid x c n → s.live c.slice q c.genS c.genQ = true →
    c.st = .unreach → c.since + s.rd F.RDN_CFG_UNREACH_WAIT * 1000000 ≤ s.el →
    Ran (.unreachWaitExpiry q cid) s (fun t => Ended t q cid stUnreach ∧
      t.rd F.RDN_UNREACH_CNT_CNT = sat F.RDN_UNREACH_CNT_CNT.w (s.rd F.RDN_UNREACH_CNT_CNT + 1) ∧ t.zn.ud = s.zn.ud)) ∧
  (∀ (q cid : Nat) (x : Queue) (c : Cmd) (n : Ns) (u s : State), InFlight s q cid x c n → c.st = .place → c.kind = .zoneOpen →
    bit c.hint 15 = false → s.zst c.zone = znEmpty → s.azFree c.slice c.azLim = true → s.activate c.zone n.dg false = some u →
    Ran (.placementRetry q cid) s (fun t => t.zst c.zone = znExp ∧ t.cmdOf q cid = none ∧ t.zn.ud = s.zn.ud))

/-- 09 R209–R216, 08 R194: what a die runs. The scheduler of a free die issues the winner among the operations of its queue that may start, its envelope
sent or waiting on the link; a read's record puts its codeword into the raw sense buffer; after a coarse pass the fine pass of the wordline is queued and
the wordline is between passes, after a fine pass its verify read; a suspended erase keeps its progress and the winner runs inside it; 50 ms
after the coarse pass the fine pass contends at once. -/
def Obligations.DieOperationsComplete : Prop :=
  (∀ (d : Nat) (o : DOp) (s : State), s.works d = true → (s.dieOf d).cur = none → (s.dieOf d).susp = none → o.kind ≠ .read →
    s.bestOp ((s.dieOf d).inQueue.filter (fun p => (s.dieOf d).startOk p && !s.noErase p)) = some o → 0 < (s.link8 (d / 64)).hops.length →
    Ran (.dieOperationIssue d) s (fun t => (t.dieOf d).cur = some o ∧ (t.dieOf d).merged = [] ∧ (t.dieOf d).curAt = s.el ∧
      (t.dieOf d).queue = s.fillQueue (s.dieOf d) [o] ∧ (∀ e, e ≠ d → t.dieOf e = s.dieOf e) ∧ Enveloped s t d o ∧ t.zn = s.zn)) ∧
  (∀ (d : Nat) (o : DOp) (s : State), s.works d = true → (s.dieOf d).cur = none → (s.dieOf d).susp = none → o.kind = .read →
    s.bestOp ((s.dieOf d).inQueue.filter (fun p => (s.dieOf d).startOk p && !s.noErase p)) = some o →
    Ran (.dieOperationIssue d) s (fun t => (t.dieOf d).cur = some { o with lad := { o.lad with offs := s.readOffs d o } } ∧
      (t.dieOf d).merged.map (·.id) = (s.mergeSet d o).map (·.id) ∧ (t.dieOf d).curAt = s.el ∧
      (t.dieOf d).queue = s.fillQueue (s.dieOf d) (o :: s.mergeSet d o) ∧ (∀ e, e ≠ d → t.dieOf e = s.dieOf e) ∧ t.zn = s.zn)) ∧
  (∀ (d busy : Nat) (temp : Int) (o : DOp) (s : State), (s.dieOf d).cur = some o → (s.dieOf d).merged = [] → o.kind = .read →
    (o.purp = .host → s.live o.slice o.q o.genS o.genQ = true ∧ (s.cmdFor o.q o.cid o.arr).isSome = true) →
    (o.purp = .recon → s.live o.slice o.q o.genS o.genQ = true) → (∀ w ∈ s.die.cws, w.id ≠ s.die.nextId) → Still s →
    Ran (.dieReadDone d temp busy []) s (fun t => (∃ w ∈ t.die.cws, w.die = d ∧ w.op = o ∧ w.faults = 0) ∧ (t.dieOf d).cur = none ∧
      (t.dieOf d).temp = temp ∧ t.zn = s.zn)) ∧
  (∀ (d busy : Nat) (temp : Int) (o : DOp) (s : State), (s.dieOf d).cur = some o → Still s →
    (o.kind = .coarse → Ran (.programDone d temp busy) s (fun t => (t.dieOf d).cur = none ∧ (t.dieOf d).between = some (o.blk, o.page, s.el) ∧
      (t.dieOf d).queue = (s.dieOf d).queue ++ [{ o with kind := .fine, id := s.die.nextId, die := d }] ∧
      (t.blkOf ⟨d, o.blk⟩).wcnt = (s.blkOf ⟨d, o.blk⟩).wcnt + 1 ∧ t.zn = s.zn)) ∧
    (o.kind = .fine → Ran (.programDone d temp busy) s (fun t => (t.dieOf d).cur = none ∧ (t.dieOf d).between = none ∧
      (t.dieOf d).queue = (s.dieOf d).queue ++ [{ verifyOp o with id := s.die.nextId, die := d }] ∧
      (t.blkOf ⟨d, o.blk⟩).wcnt = (s.blkOf ⟨d, o.blk⟩).wcnt + 1 ∧ t.zn = s.zn))) ∧
  (∀ (d prog : Nat) (temp : Int) (o r : DOp) (s s1 : State), (s.dieOf d).cur = some o → o.kind = .erase → o.step = 1 → s.works d = true →
    s1 = s.putDie d { s.dieOf d with cur := none, susp := some { o with step := 0, sus := o.sus + 1, ran := prog }, temp := temp } →
    s1.bestOp ((if (s.dieOf d).between.isNone then [{ o with step := 0, sus := o.sus + 1, ran := prog }] else []) ++
      (s.dieOf d).inQueue.filter (fun p => (s1.dieOf d).startOk p && !s1.noErase p)) = some r → r.kind ≠ .read → r.kind ≠ .erase →
    Ran (.eraseSuspended d temp prog) s (fun t => (t.dieOf d).susp = some { o with step := 0, sus := o.sus + 1, ran := prog } ∧
      (t.dieOf d).cur = some r ∧ (∀ e, e ≠ d → t.dieOf e = s.dieOf e) ∧ t.zn = s.zn)) ∧
  (∀ (d b w at0 : Nat) (s : State), (s.dieOf d).between = some (b, w, at0) → at0 + 50000000 ≤ s.el →
    Ran (.finePassUrgent d) s (fun t => (t.dieOf d).queue = (s.dieOf d).queue.map (fun (o : DOp) =>
        if (o.kind = .fine ∨ o.kind = .foldF) ∧ o.blk = b ∧ o.page = w then { o with idle := false, bg := none, dl := min o.dl s.el } else o) ∧
      (∀ e, e ≠ d → t.dieOf e = s.dieOf e) ∧ t.regs = s.regs))

/-- 09 R221–R228: failures. A failed program is counted and its block is grown bad; an erase that ended well leaves its block no longer waiting for an
erase, with one more erase; a failed erase counts on its die and its block is grown bad; an operation past its maximum is ended by
a die reset and counted, and an erase starts again. -/
def Obligations.DieFailuresComplete : Prop :=
  (∀ (d planes busy : Nat) (temp : Int) (o : DOp) (s : State), (s.dieOf d).cur = some o → o.kind ≠ .read → o.kind ≠ .erase →
    Sound s d → planes + 1 ≠ 2 ^ (s.descOf d).planes → Still s →
    Ran (.programFail d planes temp busy) s (fun t => (t.blkOf ⟨d, o.blk⟩).use = .bad ∧ (t.dieOf d).cur = none ∧
      (t.dieOf d).gbb = (s.dieOf d).gbb + 1 ∧ (t.dieOf d).pfail = (s.dieOf d).pfail + 1 ∧
      t.rd F.MED_VFY_FAIL_PFAIL = sat F.MED_VFY_FAIL_PFAIL.w (s.rd F.MED_VFY_FAIL_PFAIL + 1))) ∧
  (∀ (d busy : Nat) (temp : Int) (o : DOp) (s : State), (s.dieOf d).cur = some o → o.kind = .erase → Sound s d → Still s →
    Ran (.eraseDone d temp busy) s (fun t => (t.blkOf ⟨d, o.blk⟩).use ≠ .stale ∧
      (t.blkOf ⟨d, o.blk⟩).erases = (s.blkOf ⟨d, o.blk⟩).erases + 1 ∧ (t.dieOf d).cur = none ∧ t.zn.ud = s.zn.ud)) ∧
  (∀ (d planes busy : Nat) (temp : Int) (o : DOp) (s : State), (s.dieOf d).cur = some o → o.kind = .erase → Sound s d →
    planes + 1 ≠ 2 ^ (s.descOf d).planes → Still s →
    Ran (.eraseFail d planes temp busy) s (fun t => (t.blkOf ⟨d, o.blk⟩).use = .bad ∧ (t.dieOf d).efail = (s.dieOf d).efail + 1 ∧
      (t.dieOf d).gbb = (s.dieOf d).gbb + 1 ∧ (t.dieOf d).cur = none ∧ t.zn = s.zn)) ∧
  (∀ (d : Nat) (o : DOp) (s : State), (s.dieOf d).cur = some o → o.kind = .erase → Sound s d → 2 ≤ s.rd F.MED_RET_CFG_RESETS →
    Still s → s.el ≥ (s.dieOf d).curAt + (tMax (s.descOf d) o.kind o.senses + 1000) * 1000 → (s.dieOf d).susp = none →
    Ran (.dieOpTimeout d) s (fun t => (t.dieOf d).cur = none ∧
      (t.dieOf d).queue = (s.dieOf d).queue ++ [{ again o with id := s.die.nextId, die := d }] ∧ (t.dieOf d).resets = [s.el] ∧
      t.rd F.MED_TMO_CNT_CNT = sat F.MED_TMO_CNT_CNT.w (s.rd F.MED_TMO_CNT_CNT + 1) ∧ t.zn = s.zn))

/-- 10 R242–R250, 06 R153, 16 R366, 09 R225: the read channel. The last codeword of a command decodes and the command ends with its data; an eligible
wordline folds and the cursor moves past it; patrol reads the next page of a written block; a calibration or temperature sweep measures a
die and its record says so; the corrections are saved as they stand; Percentage Used is the wear of the most worn of at most 1,000 working
dies. -/
def Obligations.ReadChannelComplete : Prop :=
  (∀ (id bits mean unsat : Nat) (w : CwJob) (c : Cmd) (s : State), s.die.cws = [w] → w.id = id → w.dec.isSome = true → w.op.purp = .host →
    w.op.vfy = none → s.live w.op.slice w.op.q w.op.genS w.op.genQ = true → s.cmdFor w.op.q w.op.cid w.op.arr = some c →
    s.live c.slice c.q c.genS c.genQ = true → c.need = [w.op.cw] → c.st = .media → c.kind = .read → Still s →
    Ran (.decodeDone id true bits mean unsat []) s (fun t => EndedWith t w.op.q w.op.cid stOk 0 c.data ∧ t.die.cws = [] ∧
      t.rd F.RCH_LADDER_CNT_CNT w.op.step = sat F.RCH_LADDER_CNT_CNT.w (s.rd F.RCH_LADDER_CNT_CNT w.op.step + 1) ∧ t.zn.ud = s.zn.ud)) ∧
  (∀ (d id : Nat) (o : DOp) (c : Cmd) (x : SRow) (s : State),
    (s.dieOf d).queue.find? (fun o => o.id = id && o.purp = .host && o.step = 0 && o.vfy.isNone) = some o →
    s.cmdFor o.q o.cid o.arr = some c → s.srow o.row = some x → s.rd F.MED_SCHED_CFG_RA_THRESH < s.predict d (s.opKey o) →
    (s.raOk o.row x o.member (s.opKey o) = true → Ran (.readUrgencyRise d id) s (fun t =>
      t.rd F.RDN_RA_CNT_CNT = sat F.RDN_RA_CNT_CNT.w (s.rd F.RDN_RA_CNT_CNT + 1) ∧ t.rdn.recon.length = s.rdn.recon.length + 1 ∧ t.zn = s.zn)) ∧
    (s.raOk o.row x o.member (s.opKey o) = false → Ran (.readUrgencyRise d id) s (fun t => t = { s with regs := t.regs } ∧
      t.rd F.MED_RA_DENY_CNT = sat F.MED_RA_DENY_CNT.w (s.rd F.MED_RA_DENY_CNT + 1)))) ∧
  (∀ (conv : Bool) (h r n since lc : Nat) (x : SRow) (s : State), s.srow ⟨conv, h, r⟩ = some x → x.elig.find? (fun e => e.1 = x.fold) = some (n, since, lc) →
    s.tailFull = false → (∀ m, m < x.mem.length → s.memPend ⟨conv, h, r⟩ m = true ∨ x.fold ≤ x.wl.getD m 0) →
    Ran (.foldIssue conv h r) s (fun t => t.srow ⟨conv, h, r⟩ = some { x with fold := n + 1, elig := x.elig.filter (fun e => e.1 ≠ n) } ∧
      (∀ m, m < x.mem.length → s.memPend ⟨conv, h, r⟩ m = false →
        ∃ o ∈ (t.dieOf (x.mem.getD m ⟨0, 0⟩).die).queue, o.kind = .read ∧ o.purp = .fold ∧ o.row = ⟨conv, h, r⟩ ∧ o.member = m ∧ o.cw = n) ∧
      t.zn.ud = s.zn.ud ∧ t.outs = s.outs)) ∧
  (∀ (k m : Nat) (r : RowId) (x : SRow) (w : Option Nat) (s : State), s.rd F.RCH_PATROL_CFG_EN ≠ 0 →
    s.patrolNext (s.die.patrol.1 * 2048 + s.die.patrol.2.1) = some k → k ≠ s.die.patrol.1 * 2048 + s.die.patrol.2.1 →
    s.ownerOf ⟨k / 2048, k % 2048⟩ = some (r, x, m, w) → 0 < x.written m w →
    Ran (.patrolRead) s (fun t => (∃ o ∈ (t.dieOf (k / 2048)).queue, o.purp = .patrol ∧ o.kind = .read ∧ o.blk = k % 2048 ∧ o.page = 0 ∧
      o.row = r ∧ o.member = m) ∧ t.zn = s.zn ∧ t.outs = s.outs)) ∧
  (∀ (s : State), s.rd F.RCH_PATROL_CFG_EN ≠ 0 → s.patrolNext (s.die.patrol.1 * 2048 + s.die.patrol.2.1) = none →
    Ran (.patrolRead) s (fun t => t.die = { s.die with pass := s.die.pass + 1, patrol := (0, 0, 0), patrolAt := s.el } ∧
      t.rd F.RCH_PATROL_STS_PASS_PCT = 0 ∧ t.rd F.RCH_PATROL_STS_LAST_H = sat 16 ((s.el - s.die.patrolAt) / 3600000000000) ∧
      t.zn = s.zn)) ∧
  (∀ (s : State), s.stopped = false → s.pup.sweeps = [none, none] →
    Ran (.calibrationSweep none none) s (fun t => ∃ w, t.pup.sweeps = [some w, none] ∧ w.id = 1 ∧ w.start = s.tns ∧
      w.ents.map (·.1) = s.die.dies.map (·.1) ∧ t.die = s.die)) ∧
  (∀ (d : Nat) (w : Sweep) (e : SwEnt) (s : State), s.stopped = false → s.pup.sweeps.getD 0 none = some w → Tab.find d w.ents = some e →
    e.st = 0 → s.works d = true → s.capped 2 d = false → (∀ f ∈ w.ents, f.1 / 64 = d / 64 → f.2.busy = false) →
    Ran (.calibrationSweep (some d) none) s (fun t => ∃ v, t.pup.sweeps.getD 0 none = some v ∧ v.id = w.id ∧
      Tab.find d v.ents = some { e with busy := true } ∧ (∀ g, g ≠ d → Tab.find g v.ents = Tab.find g w.ents) ∧ t.die = s.die ∧ t.zn = s.zn)) ∧
  (∀ (d : Nat) (w : Sweep) (e : SwEnt) (res : List (Nat × Nat × List Int)) (s : State), s.stopped = false →
    s.pup.sweeps.getD 0 none = some w → Tab.find d w.ents = some e → e.busy = true →
    Ran (.calibrationSweep (some d) (some res)) s (fun t => ∃ v, t.pup.sweeps.getD 0 none = some v ∧ v.id = w.id ∧
      (∃ f, Tab.find d v.ents = some f ∧ f.st = 1 ∧ f.ns = s.tns ∧ f.busy = false) ∧ (t.dieOf d).swTemp = (s.dieOf d).temp ∧
      (∀ g, g ≠ d → Tab.find g v.ents = Tab.find g w.ents) ∧ t.zn.ud = s.zn.ud)) ∧
  (∀ (d : Nat) (s : State), s.stopped = false → s.pup.sweeps = [none, none] → s.works d = true → s.capped 2 d = false →
    s.rd F.RCH_SWEEP_CFG_DT ≤ ((s.dieOf d).temp - (s.dieOf d).swTemp).natAbs →
    Ran (.temperatureSweep d none) s (fun t => ∃ w e, t.pup.sweeps = [none, some w] ∧ w.id = 1 ∧ Tab.find d w.ents = some e ∧ e.busy = true ∧
      t.zn = s.zn)) ∧
  (∀ (s : State), Ran (.correctionSave) s (fun t => t.die = { s.die with corrSaved := s.die.corr } ∧ t.zn = s.zn ∧ t.outs = s.outs)) ∧
  (∀ (s : State), (∀ d, Sound s d) → (s.die.dies.filter (fun e => s.works e.1)).length < 1000 →
    Ran (.wearForecast) s (fun t => (∀ e ∈ s.die.dies, s.works e.1 = true → min 255 (s.wearIdx e.1 / 100) ≤ t.rd F.MED_WEAR_PCT_USED) ∧
      ((∃ e ∈ s.die.dies, s.works e.1 = true ∧ t.rd F.MED_WEAR_PCT_USED = min 255 (s.wearIdx e.1 / 100)) ∨ t.rd F.MED_WEAR_PCT_USED = 0) ∧
      t.zn = s.zn))

/-- 20 R434, R437–R439, 05 R142, 10 R241, 08 R205: replicated units. A fence for any reason takes a unit with no work out of service and out of the
mask that shows it; a release starts its self-test cycle; RET_PASS passes in a row return it, a failed one starts them again; the
corrections of the last hour above CE_RATE raise DRAM_CE_RATE. -/
def Obligations.ReplicatedUnitsComplete : Prop :=
  (∀ (l rsn n : Nat) (s : State), l < 64 → (rsn = 1 ∨ rsn = 3) → (s.unitOf 0 l).state = 0 → s.cap.blks = [] →
    Ran (.laneWatchdog l rsn n) s (fun t => (t.unitOf 0 l).state ≠ 0 ∧ (t.unitOf 0 l).rsn = rsn ∧ t.laneUp l = false ∧
      bit (t.rd F.CIP_UNIT_AVAIL_MASK) l = false ∧ t.rd F.FRL_LSTS_FENCE_RSN l = rsn ∧ t.zn = s.zn)) ∧
  (∀ (l n : Nat) (b : LaneBlk) (s : State), l < 64 → (s.unitOf 0 l).state = 0 → b ∈ s.cap.blks → b.lane = l → b.since + 20000 ≤ s.el →
    (s.cap.blks.filter (fun b => b.lane = l)).length ≤ n →
    Ran (.laneWatchdog l 2 n) s (fun t => (t.unitOf 0 l).state ≠ 0 ∧ (t.unitOf 0 l).rsn = 2 ∧ t.laneUp l = false ∧
      bit (t.rd F.CIP_UNIT_AVAIL_MASK) l = false ∧ t.rd F.FRL_LSTS_FENCE_RSN l = 2)) ∧
  (∀ (d rsn : Nat) (s : State), d < 128 → (rsn = 1 ∨ rsn = 3) → (s.unitOf 1 d).state = 0 → s.die.cws = [] →
    Ran (.decoderWatchdog d rsn) s (fun t => (t.unitOf 1 d).state ≠ 0 ∧ (t.unitOf 1 d).rsn = rsn ∧ t.decUp d = false ∧ t.zn = s.zn)) ∧
  (∀ (e rsn : Nat) (s : State), e < 64 → (rsn = 1 ∨ rsn = 3) → (s.unitOf 2 e).state = 0 → (s.unitOf 2 (Nat.xor e 1)).state = 0 → s.die.dies = [] →
    Ran (.linkEngineWatchdog e rsn) s (fun t => (t.unitOf 2 e).state ≠ 0 ∧ (t.unitOf 2 e).rsn = rsn ∧ t.rd F.KZL_STS_ENGINE e = 1 ∧
      t.zn = s.zn)) ∧
  (∀ (d : Nat) (s : State), d < 128 → (s.unitOf 1 d).state = 0 → s.die.cws = [] →
    Ran (.rasUnitFence 1 d) s (fun t => (t.unitOf 1 d).state ≠ 0 ∧ (t.unitOf 1 d).rsn = 4 ∧ t.decUp d = false ∧ t.zn = s.zn)) ∧
  (∀ (k i : Nat) (s : State), unitOk k i = true → (s.unitOf k i).state ≠ 0 →
    Ran (.rasUnitRelease k i) s (fun t => t.unitOf k i = { s.unitOf k i with state := 1, passes := 0, testAt := s.el } ∧
      t = { s with ras := { s.ras with units := t.ras.units } })) ∧
  (∀ (k i : Nat) (s : State), unitOk k i = true → (s.unitOf k i).state = 1 → (s.unitOf k i).testAt + 10000000000 ≤ s.el →
    Ran (.unitSelfTest k i false) s (fun t => t.unitOf k i = { s.unitOf k i with passes := 0, testAt := s.el } ∧ t.regs = s.regs) ∧
    ((s.unitOf k i).passes + 1 < s.rd F.RAS_CFG_RET_PASS → Ran (.unitSelfTest k i true) s (fun t =>
      t.unitOf k i = { s.unitOf k i with passes := (s.unitOf k i).passes + 1, testAt := s.el } ∧ t.regs = s.regs)) ∧
    (k = 0 → s.rd F.RAS_CFG_RET_PASS ≤ (s.unitOf k i).passes + 1 → Ran (.unitSelfTest k i true) s (fun t =>
      (t.unitOf k i).state = 0 ∧ t.laneUp i = true ∧ t.rd F.FRL_LSTS_FENCE_RSN i = 0 ∧ t.zn = s.zn))) ∧
  (∀ (s : State), s.ras.ceHour = [] → s.ras.ceSec ≤ s.rd F.RAS_CFG_CE_RATE →
    Ran (.ceRateCheck) s (fun t => t = { s with ras := { s.ras with ceHour := [(s.el / 1000000000, s.ras.ceSec)], ceSec := 0 } }))

/-- 08 R186–R191, R197, R199, R200: the hops of a link. A trained hop is ACTIVE with the width it reached; a failed training starts again from RESET
with one more failure, the third, and a failed RECOVER, is a break; a DOWN hop restarts from RESET after RETRAIN; an idle direction enters QUIET
with its notice, the hop once both did; a burst leaves QUIET, to RECOVER where its start marker is not found; a keepalive keeps QUIET; a lost
flit lock takes the hop to RECOVER; 50 µs without progress, and a break notice, are a break; a width change waits until every flit is
acknowledged. -/
def Obligations.KazronHopsComplete : Prop :=
  (∀ (l h lanes : Nat) (extra : Bool) (s : State), hopOk l h = true → s.training l h = true → alignLanes lanes ≠ [] →
    h < (s.link8 l).hops.length → (h = 0 → s.img.noCal.contains (8 + l / 16) = false) →
    Ran (.hopTrainingDone l h lanes extra) s (fun t => t.hopSt l h = hActive ∧ (t.hop l h).width = (alignLanes lanes).length ∧
      (t.hop l h).lanes = cut 4 lanes ∧ (t.hop l h).fails = 0 ∧ t.zn = s.zn ∧ t.die = s.die)) ∧
  (∀ (l h : Nat) (s : State), hopOk l h = true → s.training l h = true → h < (s.link8 l).hops.length →
    (s.hopSt l h ≠ hRecover → (s.hop l h).fails + 1 < 3 → Ran (.hopTrainingFail l h) s (fun t => t.hopSt l h = hReset ∧
      (t.hop l h).fails = (s.hop l h).fails + 1 ∧ (t.hop l h).since = s.el ∧ t.outs = s.outs ∧ t.zn = s.zn)) ∧
    (s.hopSt l h = hRecover ∨ 3 ≤ (s.hop l h).fails + 1 → (s.link8 l).broken.contains h = false → s.die.dies = [] →
      Ran (.hopTrainingFail l h) s (fun t => HopBroke s t l h ∧ t.zn.ud = s.zn.ud))) ∧
  (∀ (l h : Nat) (s : State), hopOk l h = true → s.hopSt l h = hDown → s.rd F.KZL_CTL_EN l = 1 → h < (s.link8 l).hops.length →
    (s.hop l h).since + s.rd F.KZL_CTL_RETRAIN l * 1000000 ≤ s.el → (h = 0 ∨ s.hopUp l (h - 1) = true) →
    Ran (.hopRetrain l h) s (fun t => t.hopSt l h = hReset ∧ t.hop l h = { s.hop l h with since := s.el } ∧ t.outs = s.outs ∧ t.zn = s.zn)) ∧
  (∀ (l h : Nat) (up : Bool) (s : State), hopOk l h = true → s.hopUp l h = true → h < (s.link8 l).hops.length →
    ((s.hop l h).dir up).quiet = false → s.rd F.KZL_CTL_QUIET_EN l = 1 → s.rd F.MED_PF_STS_PHASE ≠ 1 → s.rd F.MED_PF_STS_PHASE ≠ 2 →
    (s.hop l h).width = 4 → s.rd F.KZL_STS_WIDTH l = 0 → ((s.hop l h).dir up).replay = [] → ((s.hop l h).dir up).out = [] →
    ((s.hop l h).dir up).idleAt + s.rd F.KZL_CTL_QUIET_ENTRY l * 64 ≤ s.el →
    Ran (.quietEntry l h up) s (fun t => ((t.hop l h).dir up).quiet = true ∧ (t.hop l h).dir (!up) = (s.hop l h).dir (!up) ∧
      t.hopSt l h = (if ((s.hop l h).dir (!up)).quiet then hQuiet else s.hopSt l h) ∧
      t.outs = s.outs ++ [ctlOut s l h up (lcPay false true 0 0)])) ∧
  (∀ (l h : Nat) (up ok : Bool) (s : State), hopOk l h = true → s.hopUp l h = true → h < (s.link8 l).hops.length →
    ((s.hop l h).dir up).quiet = true →
    Ran (.burstStart l h up ok) s (fun t => t.hopSt l h = (if ok then hActive else hRecover) ∧ ((t.hop l h).dir up).quiet = false ∧
      ((t.hop l h).dir up).scr = scrSeeds ∧ (t.hop l h).dir (!up) = (s.hop l h).dir (!up) ∧
      ∃ r, t.outs = s.outs ++ .kz l "BURST" ([h, b2n up] ++ preambleOut) :: r ∧ (ok = false → r = []))) ∧
  (∀ (l h : Nat) (up : Bool) (s : State), hopOk l h = true → h < (s.link8 l).hops.length → ((s.hop l h).dir up).quiet = true →
    ((s.hop l h).dir up).keepAt + s.rd F.KZL_CTL_KEEPALIVE l * 1000 ≤ s.el →
    Ran (.keepalive l h up true) s (fun t => (t.hop l h).dir up = { (s.hop l h).dir up with keepAt := s.el, seenAt := s.el } ∧
      t.regs = s.regs ∧ t.outs = s.outs ++ [.kz l "KEEPALIVE" ([h, b2n up] ++ preambleOut ++
        flitBytes (flitHdr 0 0 false 0 ((s.hop l h).dir up).next ((s.hop l h).ack up)) [])]) ∧
    (s.hopUp l h = true → ((s.hop l h).dir up).seenAt + 10 * (s.rd F.KZL_CTL_KEEPALIVE l * 1000) ≤ s.el →
      Ran (.keepalive l h up false) s (fun t => t.hopSt l h = hRecover ∧ ((t.hop l h).dir up).lock = false ∧
        t.rd F.KZL_LOCK_CNT_LOCKLOSS l = sat F.KZL_LOCK_CNT_LOCKLOSS.w (s.rd F.KZL_LOCK_CNT_LOCKLOSS l + 1) ∧ t.zn = s.zn))) ∧
  (∀ (l h : Nat) (up : Bool) (s : State), hopOk l h = true → s.hopUp l h = true → h < (s.link8 l).hops.length →
    Ran (.flitLockLoss l h up) s (fun t => t.hopSt l h = hRecover ∧ ((t.hop l h).dir up).lock = false ∧ t.outs = s.outs ∧
      t.rd F.KZL_LOCK_CNT_LOCKLOSS l = sat F.KZL_LOCK_CNT_LOCKLOSS.w (s.rd F.KZL_LOCK_CNT_LOCKLOSS l + 1))) ∧
  (∀ (l h : Nat) (up : Bool) (s : State), hopOk l h = true → s.hopUp l h = true → ((s.hop l h).dir up).replay ≠ [] →
    ((s.hop l h).dir up).progAt + 50000 ≤ s.el → (s.link8 l).broken.contains h = false → s.die.dies = [] →
    Ran (.noProgress l h up) s (fun t => HopBroke s t l h ∧ t.zn.ud = s.zn.ud)) ∧
  (∀ (l h : Nat) (s : State), hopOk l h = true → 1 ≤ h → (s.link8 l).serials.any (·.isSome) = true → (s.link8 l).broken.contains h = false →
    s.die.dies = [] → Ran (.breakNotice l h) s (fun t => HopBroke s t l h ∧ t.zn.ud = s.zn.ud)) ∧
  (∀ (l : Nat) (s : State), l < 64 → s.hopSt l 0 = hActive → widthCode (s.wantWidth l) ≠ s.rd F.KZL_STS_WIDTH l →
    (s.drained l = true → Ran (.widthChange l) s (fun t => t.rd F.KZL_STS_WIDTH l = widthCode (s.wantWidth l) ∧ (t.link8 l).chg = none ∧
      ctlOut s l 0 false (lcPay false false (widthCode (s.wantWidth l) + 1) 0) ∈ t.outs ∧ t.zn = s.zn ∧ t.die = s.die)) ∧
    (s.drained l = false → Ran (.widthChange l) s (fun t => t = s.putLink8 l { s.link8 l with chg := some (s.wantWidth l) })))

/-- 08 R184, R185, R192–R196, R206: the flits of a direction. The symbols of a part of a flit are held; a whole flit that the FEC or the CRC rejects is
answered with one NAK; one in sequence advances the receiver, and its ACK frees the flits before it from the other direction's replay buffer; READ DATA
for a tag that is free counts as a stray; a NAK, and 1 µs without an advance of ACK, send the unacknowledged flits again in order and count a
replay; part of a flit held for four flit times is discarded with a NAK; the bridges' counts are added. -/
def Obligations.KazronFlitsComplete : Prop :=
  (∀ (l h : Nat) (up : Bool) (sym : List (List Int)) (a : List Int) (s : State), hopOk l h = true → s.hopUp l h = true → h < (s.link8 l).hops.length →
    a ∈ symbols s l h up sym → a.length < flitUi (s.runLanes l h).length →
    Ran (.flitReceive l h up sym) s (fun t => ((t.hop l h).dir up).sym = symbols s l h up sym ∧ t.outs = s.outs ∧ t = { s with kz := t.kz })) ∧
  (∀ (l h : Nat) (up : Bool) (sym : List (List Int)) (f : FlitRx) (s : State), FlitIn s l h up sym f → ((s.hop l h).dir up).nak = false →
    (f.ok = false ∨ 2 ^ 31 ≤ leAt f.data 0 4) →
    Ran (.flitReceive l h up sym) s (fun t => t.outs = s.outs ++ [ctlOut s l h (!up) (lcPay true false 0 ((s.hop l h).dir up).rx)] ∧
      ((t.hop l h).dir up).nak = true ∧ ((t.hop l h).dir up).rx = ((s.hop l h).dir up).rx ∧ Keeps s t [F.KZL_FEC_CNT_CORR, F.KZL_LANE_SYMERR])) ∧
  (∀ (l h ty br tag ack : Nat) (last : Bool) (sym : List (List Int)) (f : FlitRx) (g : Flit) (pre post : List Flit) (s : State),
    FlitIn s l h false sym f → f.ok = true → f.errs = [] → 1 ≤ ty → ty < 5 → br ≤ h → tag < 512 → ack < 256 → (s.hop l h).dn.rx < 256 →
    leAt f.data 0 4 = flitHdr ty br last tag (s.hop l h).dn.rx ack → (s.hop l h).up.replay = pre ++ g :: post → g.seq = ack →
    (∀ g ∈ pre, g.seq ≠ ack) → (s.hop l h).up.out = [] → h < 4 →
    Ran (.flitReceive l h false sym) s (fun t =>
      (t.hop l h).dn.rx = ((s.hop l h).dn.rx + 1) % 256 ∧ (t.hop l h).dn.nak = false ∧ (t.hop l h).dn.progAt = s.el ∧
      (t.hop l h).up.replay = post ∧ (t.hop l h).dn.replay = (s.hop l h).dn.replay ∧ t.outs = s.outs ∧ t.regs = s.regs)) ∧
  (∀ (l br tag ack : Nat) (sym : List (List Int)) (f : FlitRx) (s : State), FlitIn s l 0 true sym f → f.ok = true → f.errs = [] → br < 4 →
    tag < 512 → ack < 256 → (s.hop l 0).up.rx < 256 → leAt f.data 0 4 = flitHdr 3 br true tag (s.hop l 0).up.rx ack →
    Tab.find tag (s.link8 l).tags = none →
    Ran (.flitReceive l 0 true sym) s (fun t => (t.hop l 0).up.rx = ((s.hop l 0).up.rx + 1) % 256 ∧
      t.rd F.KZL_REPLAY_CNT_STRAY l = sat F.KZL_REPLAY_CNT_STRAY.w (s.rd F.KZL_REPLAY_CNT_STRAY l + 1) ∧ t.zn = s.zn ∧ t.die = s.die)) ∧
  (∀ (l h seq : Nat) (up : Bool) (f : Flit) (pre post : List Flit) (s : State), hopOk l h = true → s.hopUp l h = true → seq < 256 →
    ((s.hop l h).dir up).replay = pre ++ f :: post → f.seq = seq → (∀ g ∈ pre, g.seq ≠ seq) →
    Ran (.nakReceived l h up seq) s (fun t => t.outs = s.outs ++ (f :: post).map (flitOut s l h up) ∧
      t.rd F.KZL_REPLAY_CNT_REPLAY l = sat F.KZL_REPLAY_CNT_REPLAY.w (s.rd F.KZL_REPLAY_CNT_REPLAY l + 1) ∧
      t = { s with regs := t.regs, kz := t.kz, outs := t.outs })) ∧
  (∀ (l h : Nat) (up : Bool) (s : State), hopOk l h = true → s.hopUp l h = true → ((s.hop l h).dir up).ackAt + 1000 ≤ s.el →
    ((s.hop l h).dir up).replay ≠ [] →
    Ran (.replayTimeout l h up) s (fun t => t.outs = s.outs ++ ((s.hop l h).dir up).replay.map (flitOut s l h up) ∧
      t.rd F.KZL_REPLAY_CNT_REPLAY l = sat F.KZL_REPLAY_CNT_REPLAY.w (s.rd F.KZL_REPLAY_CNT_REPLAY l + 1) ∧
      t = { s with regs := t.regs, kz := t.kz, outs := t.outs })) ∧
  (∀ (l h at0 : Nat) (up : Bool) (s : State), hopOk l h = true → s.hopUp l h = true → h < (s.link8 l).hops.length →
    ((s.hop l h).dir up).part = some at0 → at0 + 128 / (s.runLanes l h).length ≤ s.el →
    Ran (.partialFlitTimeout l h up) s (fun t => (t.hop l h).dir up = { (s.hop l h).dir up with part := none, sym := [], nak := true } ∧
      t.outs = s.outs ++ [ctlOut s l h (!up) (lcPay true false 0 ((s.hop l h).dir up).rx)] ∧ t = { s with kz := t.kz, outs := t.outs })) ∧
  (∀ (l corr replay stray lock : Nat) (s : State), l < 64 →
    Ran (.bridgeCounterCollect l corr replay stray lock) s (fun t => t = { s with regs := t.regs } ∧
      t.rd F.KZL_FEC_CNT_CORR l = sat F.KZL_FEC_CNT_CORR.w (s.rd F.KZL_FEC_CNT_CORR l + corr) ∧
      t.rd F.KZL_REPLAY_CNT_REPLAY l = sat F.KZL_REPLAY_CNT_REPLAY.w (s.rd F.KZL_REPLAY_CNT_REPLAY l + replay) ∧
      t.rd F.KZL_REPLAY_CNT_STRAY l = sat F.KZL_REPLAY_CNT_STRAY.w (s.rd F.KZL_REPLAY_CNT_STRAY l + stray) ∧
      t.rd F.KZL_LOCK_CNT_LOCKLOSS l = sat F.KZL_LOCK_CNT_LOCKLOSS.w (s.rd F.KZL_LOCK_CNT_LOCKLOSS l + lock) ∧
      Keeps s t [F.KZL_FEC_CNT_CORR, F.KZL_REPLAY_CNT_REPLAY, F.KZL_REPLAY_CNT_STRAY, F.KZL_LOCK_CNT_LOCKLOSS]))

/-- 08 R200, R202, R203: cartridges. A sideband held low inserts: an enabled link's hop 0 leaves DETECT for RESET; an alert reads every bridge and starts
the training of the hops below which a sideband is low; a sideband high for 50 µs is a break of hop 0; enumeration records what a position
reports and how many bridges answer. -/
def Obligations.KazronChainsComplete : Prop :=
  (∀ (l : Nat) (s : State), l < 64 → s.rd F.KZL_STS_SB l ≠ 1 → s.hopSt l 0 = hDetect → s.rd F.KZL_CTL_EN l = 1 → s.tables = true →
    Ran (.sidebandInsert l) s (fun t => t.rd F.KZL_STS_SB l = 1 ∧ t.hopSt l 0 = hReset ∧ (t.link8 l).sb = false ∧ t.outs = s.outs ∧
      t.zn = s.zn ∧ t.die = s.die)) ∧
  (∀ (l : Nat) (s : State), l < 64 → s.rd F.KZL_STS_SB l ≠ 1 → s.tables = false →
    Ran (.sidebandInsert l) s (fun t => (t.link8 l).sb = false ∧ t = { s with kz := t.kz })) ∧
  (∀ (l : Nat) (low : List Nat) (s : State), l < 64 → s.rd F.KZL_STS_SB l = 1 →
    (∀ h, h < 4 → (s.hop l h).dn.quiet = false ∧ (s.hop l h).up.quiet = false) →
    Ran (.sidebandAlert l low) s (fun t => t.outs = s.outs ++ [.kz l "MANAGEMENT" [0]] ∧
      (∀ p, p < s.rd F.KZL_STS_BRIDGES l → t.rd F.KZL_BID_DSB l p = b2n (low.contains p)) ∧
      (∀ p, p < 3 → p < s.rd F.KZL_STS_BRIDGES l → low.contains p = true → s.hopSt l (p + 1) = hDetect → t.hopSt l (p + 1) = hReset) ∧
      Keeps s t [F.KZL_BID_DSB, F.KZL_BID_HOP])) ∧
  (∀ (l : Nat) (s : State), l < 64 → s.rd F.KZL_STS_SB l ≠ 0 → (s.link8 l).broken.contains 0 = false → s.die.dies = [] →
    Ran (.sidebandAbsent l) s (fun t => t.rd F.KZL_STS_SB l = 0 ∧ HopBroke s t l 0 ∧ t.zn.ud = s.zn.ud)) ∧
  (∀ (l p bt serial mx : Nat) (s : State), l < 64 → p < 4 → s.hopUp l p = true → (s.link8 l).broken.contains p = false → s.pup.sweeps = [none, none] →
    s.zn.cmds = [] →
    Ran (.chainEnumeration l p [(bt, serial, 0, [], mx, false)]) s (fun t => t.rd F.KZL_BID_PRESENT l p = 1 ∧
      t.rd F.KZL_BID_BTYPE l p = cut F.KZL_BID_BTYPE.w bt ∧ t.rd F.KZL_BSER_SERIAL l p = cut F.KZL_BSER_SERIAL.w serial ∧
      t.rd F.KZL_BID_DIES l p = 0 ∧ t.rd F.KZL_STS_BRIDGES l = p + 1 ∧ t.zn = s.zn ∧ t.die = s.die))

/-- 05 R113, R115–R128, R138: what comes for capture streams. A datagram that no stream takes counts in UNMATCHED, one with a malformed header is
discarded; the first datagram of a frame opens it with its arrival stamp; an RDMA message without an immediate is discarded, its packets are kept while
more follow, and a whole one is a frame under the number its immediate gives; a frame without a datagram for the stall timeout is truncated under that policy,
and a stream without an arrival is STALLED; the oldest frame commits once it is through the lanes: its record joins the index records and the log
passes its stored bytes; 32 index records fill the next block of the index zone. -/
def Obligations.CaptureDataComplete : Prop :=
  (∀ (p u dst ip vlan udp src ulen : Nat) (b : List Nat) (h : IftHdr) (s : State), Arrives s p u dst ip vlan ulen false → s.fabricOn = true →
    h = iftHdr (b.map (cut 8)) →
    s.cap.streams.find? (fun e => !e.2.rdma && bit e.2.ports p && e.2.udp = udp && e.2.sid = h.sid && (e.2.filter = 0 || e.2.filter = src)) = none →
    s.cap.streams.any (fun e => !e.2.rdma && bit e.2.ports p && e.2.udp = udp) = true →
    Ran (.iftDatagram p u dst ip vlan udp src ulen b []) s (fun t => t = { s with regs := t.regs } ∧
      t.rd F.FRL_UNMATCHED_CNT = sat F.FRL_UNMATCHED_CNT.w (s.rd F.FRL_UNMATCHED_CNT + 1) ∧ Keeps s t [F.FRL_UNMATCHED_CNT])) ∧
  (∀ (p u dst ip vlan udp src ulen k : Nat) (b d : List Nat) (h : IftHdr) (x : Stream) (s : State), Arrives s p u dst ip vlan ulen false →
    s.fabricOn = true → h = iftHdr (b.map (cut 8)) → d = iftData ulen (b.map (cut 8)) → s.stream k = some x →
    s.cap.streams.find? (fun e => !e.2.rdma && bit e.2.ports p && e.2.udp = udp && e.2.sid = h.sid && (e.2.filter = 0 || e.2.filter = src)) =
      some (k, x) →
    (h.ver ≠ 1 ∨ h.ty ≠ 0 ∨ h.rsv = true → Ran (.iftDatagram p u dst ip vlan udp src ulen b []) s (fun t => t = s.putStream k (x.count 5))) ∧
    (h.ver = 1 → h.ty = 0 → h.rsv = false → d ≠ [] → h.off + d.length ≤ h.flen → h.flen ≤ x.maxKib * 1024 →
      d.length ≤ x.limit * 1024 → (h.restart && h.first) = false → x.f ≤ h.frame → h.frame < x.f + 1024 → x.closed.contains h.frame = false →
      x.log + frameBound h.flen ≤ x.w * 2 ^ 31 → Takes s k x →
      Ran (.iftDatagram p u dst ip vlan udp src ulen b []) s (fun t => ∃ y f, t.stream k = some y ∧ y.frames = [f] ∧ f.num = h.frame ∧
        f.flen = h.flen ∧ f.head = h.head ∧ f.ns = s.tns ∧ f.frac = s.frac ∧ f.got = [(h.off, d)] ∧ f.close = none ∧ y.state = stRun ∧
        y.last = s.el ∧ t.zn = s.zn ∧ t.outs = s.outs))) ∧
  (∀ (qp k : Nat) (d : List Nat) (q : Qp) (x : Stream) (s : State), QpUp s qp q → q.stream = some k → s.rxFull q.port q.sub d.length = false →
    x.rx = [] → x.rxAt = none → d.length ≤ x.maxKib * 1024 → Takes s k x →
    Ran (.rdmaWriteWithImmediate qp 0 none false d) s (fun t => ∃ y, t.stream k = some y ∧ y.cnt = (x.count 5).cnt ∧ y.frames = [] ∧ y.rx = [] ∧
      t.zn = s.zn ∧ t.outs = s.outs) ∧
    Ran (.rdmaWriteWithImmediate qp 0 none true d) s (fun t => ∃ y, t.stream k = some y ∧ y.cnt = x.cnt ∧ y.frames = [] ∧ y.rx = d.map (cut 8) ∧
      y.rxAt = some (s.tns, s.frac, s.el, s.el) ∧ t.zn = s.zn ∧ t.outs = s.outs)) ∧
  (∀ (qp imm k : Nat) (d : List Nat) (q : Qp) (x : Stream) (s : State), QpUp s qp q → q.stream = some k → s.rxFull q.port q.sub d.length = false →
    x.rx = [] → x.rxAt = none → d ≠ [] → d.length ≤ x.maxKib * 1024 → d.length ≤ x.limit * 1024 → x.f ≤ frameNo x.high imm →
    frameNo x.high imm < x.f + 1024 → x.closed.contains (frameNo x.high imm) = false → x.log + frameBound d.length ≤ x.w * 2 ^ 31 → Takes s k x →
    Ran (.rdmaWriteWithImmediate qp 0 (some imm) false d) s (fun t => ∃ y f, t.stream k = some y ∧ y.frames = [f] ∧ f.num = frameNo x.high imm ∧
      f.flen = d.length ∧ f.close = none ∧ f.got = [(0, d.map (cut 8))] ∧ f.ns = s.tns ∧ t.zn = s.zn ∧ t.outs = s.outs)) ∧
  (∀ (k : Nat) (x : Stream) (s : State), s.stream k = some x → x.rxAt = none →
    x.frames.filter (fun f => f.close.isNone && f.have < f.flen && f.last + x.stallNs ≤ s.el) = [] → x.state = stRun → x.last + x.stallNs ≤ s.el →
    Ran (.stallTimeout k) s (fun t => t.stream k = some { x with state := stStall, blk := 0 } ∧ t.zn = s.zn)) ∧
  (∀ (k : Nat) (x : Stream) (f : Frame) (s : State), s.stream k = some x → x.rxAt = none → x.frames = [f] → f.close = none → f.have < f.flen →
    f.last + x.stallNs ≤ s.el → x.drop = false → f.placed = true →
    Ran (.stallTimeout k) s (fun t => ∃ y g, t.stream k = some y ∧ y.frames = [g] ∧ g.num = f.num ∧ g.got = f.got ∧ g.close = some .truncated ∧
      t.zn = s.zn)) ∧
  (∀ (k j : Nat) (x : Stream) (f : Frame) (s : State), s.stream k = some x → x.frames = [f] → f.through = true → x.set = some j →
    f.placed = true → s.stg.commits = true → s.rd F.MED_PF_STS_PHASE = 0 → f.prog.cmode ≠ 1 → x.stop = none →
    Ran (.frameCommit k) s (fun t => ∃ y r e, t.stream k = some y ∧ y.frames = [] ∧ y.recs = x.recs ++ [(s.el, r)] ∧ e ∈ t.cap.store ∧
      e.raw = f.raw ∧ e.nsid = x.nsid ∧ e.log = x.log ∧ y.log = x.log + (toBlocks e.stored).length * 4096)) ∧
  (∀ (k z : Nat) (x : Stream) (s : State), s.stream k = some x → x.iz = some z → x.recs ≠ [] →
    32 ≤ x.recs.length ∨ (∃ r ∈ x.recs, r.1 + x.cur.idxMs * 1000000 ≤ s.el) → s.wp (s.sZone x (x.iFirst + z)) + 1 < zoneBlocks →
    Ran (.indexBlockWrite k) s (fun t => t.wp (s.sZone x (x.iFirst + z)) = s.wp (s.sZone x (x.iFirst + z)) + 1 ∧
      t.stream k = some { x with recs := x.recs.drop 32 } ∧
      t.getUd (udZone (s.sZone x (x.iFirst + z)) (s.wp (s.sZone x (x.iFirst + z)))) = leVal (((x.recs.take 32).map (·.2)).flatten) ∧
      (∀ b, b ≠ udZone (s.sZone x (x.iFirst + z)) (s.wp (s.sZone x (x.iFirst + z))) → t.getUd b = s.getUd b)))

/-- 11 R259–R268, 12 R292, 20 R435: the journal and the map cache. A full or old page commits the oldest entries; a bad word of the tail is a device
fault and starts a checkpoint; a page whose two copies are verified is
persistent once every earlier one is; a generation advance whose entry is persistent revokes the older keys; a checkpoint begins with the next
sequence number and ends once its lines are written; a dirty line is written back, a fill arrives, a poisoned one is dropped; the cache is
disabled with nothing dirty, enabled unless it is stale, and invalidated as a whole or by a range of pages. -/
def Obligations.JournalAndMapCacheComplete : Prop :=
  (∀ (e : JEnt) (l : List JEnt) (s : State), s.ftl.jtail = e :: l →
    3070 ≤ s.ftl.jtail.length ∨ e.made + s.rd F.FTL_JNL_CFG_COMMIT_US * 1000 ≤ s.el → s.ftl.jpages.length < 64 → s.ftl.jring + 98304 ≤ 2 ^ 33 →
    Ran (.journalPageCommit none) s (fun t => t = { s with ftl := { s.ftl with jpages := s.ftl.jpages ++ [⟨s.ftl.jtail.take 3070, 0⟩], jtail := s.ftl.jtail.drop 3070, jsince := s.ftl.jsince + 98304, jring := s.ftl.jring + 98304 } })) ∧
  (∀ (a : Nat) (s : State), s.ftl.jtail ≠ [] → s.ftl.faulted = none → s.ftl.ckpt = none →
    Ran (.journalPageCommit (some a)) s (fun t => t.rd F.RAS_STS_DEV_FAULT = 1 ∧ t.ftl.faulted = some s.ftl.jnext ∧
      t.ftl.ckpt = some (s.ftl.jnext, s.ftl.jring) ∧ t.zn = s.zn)) ∧
  (∀ (p : JPage) (ps : List JPage) (e : JEnt) (s : State), s.ftl.jpages = p :: ps → p.ents = [e] → e.act = .none → (∀ r ∈ ps, r.copies < 2) → Still s →
    Ran (.journalPagePersist 0) s (fun t => t.rd F.FTL_JNL_SEQ_SEQ = cut 64 e.seq ∧ t.ftl.jpages = ps ∧ t.ftl.jtail = s.ftl.jtail ∧
      Keeps s t [F.FTL_JNL_SEQ_SEQ, F.FTL_JNL_STS_MAX_US] ∧ t.zn = s.zn ∧ t.outs = s.outs)) ∧
  (∀ (p q : JPage) (ps : List JPage) (s : State), s.ftl.jpages = p :: q :: ps → p.copies < 2 → Still s →
    Ran (.journalPagePersist 1) s (fun t => t = { s with ftl := { s.ftl with jpages := p :: { q with copies := 2 } :: ps } })) ∧
  (∀ (slice nsid : Nat) (s : State), (∀ e ∈ s.ftl.jtail, ∀ g, e.act ≠ .keyGen slice nsid g) →
    (∀ p ∈ s.ftl.jpages, ∀ e ∈ p.ents, ∀ g, e.act ≠ .keyGen slice nsid g) →
    Ran (.keyGenerationAdvance slice nsid) s (fun t => t = { s with cip := { s.cip with slots := t.cip.slots } } ∧
      (∀ e ∈ t.cip.slots, e.2.slice = slice → e.2.nsid = nsid → e.2.gen < s.keyGen slice nsid → e.2.st = 3 ∨ e.2.dying = true) ∧
      ∀ e ∈ s.cip.slots, ¬ (e.2.slice = slice ∧ e.2.nsid = nsid ∧ e.2.gen < s.keyGen slice nsid) →
        ¬ ((e.2.st = 3 ∨ e.2.st = 2 ∧ e.2.dying = true) ∧ s.slotHolds e.2 = 0) → e ∈ t.cip.slots)) ∧
  (∀ (s : State), s.ftl.ckpt = none →
    s.rd F.FTL_JNL_CFG_CKPT_MIB * 2 ^ 20 ≤ s.ftl.jsince ∨ s.ftl.ckptAt + s.rd F.FTL_JNL_CFG_CKPT_S * 1000000000 ≤ s.el →
    Ran (.checkpointStart) s (fun t => t = { s with ftl := { s.ftl with ckpt := some (s.ftl.jnext, s.ftl.jring), jnext := s.ftl.jnext + 1, jtail := s.ftl.jtail ++ [⟨s.ftl.jnext, 0x0C, [s.ftl.jnext], .none, s.el⟩] } })) ∧
  (∀ (sq ring : Nat) (s : State), s.ftl.ckpt = some (sq, ring) → (∀ l ∈ s.dirtyLines, sq ≤ l.seq) → (∀ e ∈ s.ftl.jtail, e.act ≠ .ckptEnd sq) →
    Ran (.checkpointEnd) s (fun t => t = { s with ftl := { s.ftl with jnext := s.ftl.jnext + 1, jtail := s.ftl.jtail ++ [⟨s.ftl.jnext, 0x0D, [sq], .ckptEnd sq, s.el⟩] } })) ∧
  (∀ (nsid page row sq ring : Nat) (l : MLine) (c : CRow) (n : Ns) (s : State), s.dirtyLines = [l] → l.nsid = nsid → l.page = page → l.wb = false →
    s.ftl.ckpt = some (sq, ring) → l.seq < sq → Tab.find nsid s.zn.ns = some n →
    s.ftl.crows.find? (fun e => e.2.dg = n.dg && e.2.map && e.2.fill + 4 ≤ e.2.row.k * memBlocks) = some (row, c) → Tab.find row s.ftl.crows = some c →
    Ran (.mapWriteback nsid page) s (fun t => { l with wb := true } ∈ t.ftl.lines ∧
      (∃ e ∈ t.ftl.jtail, e.ty = 0x09 ∧ e.f = [nsid, page, dirEntry row c.fill] ∧ e.act = .dirPage nsid page) ∧
      ∃ r, Tab.find row t.ftl.crows = some { c with row := r, fill := c.fill + 4, valid := c.valid + 4 })) ∧
  (∀ (nsid page : Nat) (l : MLine) (s : State), s.ftl.lines.find? (fun l => l.nsid = nsid && l.page = page && l.pending) = some l →
    l.waiters = [] → s.rd F.MCACHE_STS_STATE = 1 → (∀ c ∈ s.zn.cmds, c.st ≠ .map) →
    (l.poison = false → Ran (.mapFillArrival nsid page true) s (fun t => { l with valid := true, pending := false, waiters := [] } ∈ t.ftl.lines ∧
      t.regs = s.regs ∧ t.zn = s.zn ∧ t.outs = s.outs)) ∧
    (l.poison = true → Ran (.mapFillArrival nsid page true) s (fun t => (∀ m ∈ t.ftl.lines, ¬ (m.set = l.set ∧ m.way = l.way)) ∧
      t.rd F.MCACHE_POISON_CNT = sat F.MCACHE_POISON_CNT.w (s.rd F.MCACHE_POISON_CNT + 1) ∧ Keeps s t [F.MCACHE_POISON_CNT] ∧ t.zn = s.zn))) ∧
  (∀ (s : State), s.rd F.MCACHE_STS_STATE = 1 → (∀ l ∈ s.ftl.lines, l.dirty = false ∧ l.pending = false) →
    Ran (.mcacheDisable) s (fun t => t = { s with regs := t.regs } ∧ t.rd F.MCACHE_CTL_EN = 0 ∧ t.rd F.MCACHE_STS_STATE = 0 ∧
      t.rd F.MCACHE_STS_STALE = 1 ∧ Keeps s t [F.MCACHE_CTL_EN, F.MCACHE_STS_STATE, F.MCACHE_STS_STALE])) ∧
  (∀ (s : State), s.rd F.MCACHE_STS_STATE ≠ 1 →
    (s.rd F.MCACHE_STS_STALE = 1 → Ran (.mcacheEnable) s (fun t => t = { s with regs := t.regs } ∧ t.rd F.MCACHE_STS_ERR = 1 ∧
      Keeps s t [F.MCACHE_STS_ERR])) ∧
    (s.rd F.MCACHE_STS_STALE ≠ 1 → (∀ e ∈ s.ftl.bypass, e.2.2 = false) → Ran (.mcacheEnable) s (fun t =>
      t = { s with regs := t.regs, ftl := { s.ftl with bypass := [] } } ∧ t.rd F.MCACHE_CTL_EN = 1 ∧ t.rd F.MCACHE_STS_STATE = 1 ∧
      Keeps s t [F.MCACHE_CTL_EN, F.MCACHE_STS_STATE]))) ∧
  (∀ (s : State), s.rd F.MCACHE_STS_STATE = 0 → Ran (.mcacheInvAll) s (fun t => t = { s with regs := t.regs, ftl := { s.ftl with lines := [] } } ∧
    t.rd F.MCACHE_STS_STALE = 0 ∧ Keeps s t [F.MCACHE_STS_STALE])) ∧
  (∀ (count : Nat) (s : State), count < 2 ^ 23 → s.rd F.MCACHE_STS_INV_BUSY ≠ 1 → (∀ l ∈ s.ftl.lines, l.dirty = false ∧ l.pending = false) →
    Ran (.mcacheInvGo count) s (fun t => t = { s with regs := t.regs, ftl := { s.ftl with lines := t.ftl.lines } } ∧
      t.rd F.MCACHE_INV_CNT_COUNT = count ∧ Keeps s t [F.MCACHE_INV_CNT_COUNT] ∧
      ∀ l ∈ t.ftl.lines, l ∈ s.ftl.lines ∧ ¬ (l.nsid = s.rd F.MCACHE_INV_NS_VALUE ∧ s.rd F.MCACHE_INV_PG_VALUE ≤ l.page ∧
        l.page < s.rd F.MCACHE_INV_PG_VALUE + count)))

/-- 06 R147, 07 R175, R176, 11 R269–R273: background work. Reclamation queues the erase of a block without valid data on a die; a verified copy is
journalled; the next stripe of a member pending its substitute is rebuilt, the last one journalled; a member whose die is gone for DELAY
is substituted on another die of its group; a page-row that stays incomplete moves to the overflow. -/
def Obligations.BackgroundWorkComplete : Prop :=
  (∀ (d b : Nat) (s : State), s.works d = true → s.tailFull = false → s.eraseDue d = true → s.staleOn d = some b → s.ftl.crows = [] →
    s.rdn.reshape = none →
    (∀ e ∈ s.die.blks, e.2.refresh = false) →
    Ran (.reclamation d) s (fun t => (∃ o, (t.dieOf d).queue = (s.dieOf d).queue ++ [o] ∧ o.kind = .erase ∧ o.blk = b ∧ o.purp = .gcErase ∧
      o.slice = 0 ∧ o.idle = true) ∧ (∀ e, e ≠ d → t.dieOf e = s.dieOf e) ∧ t = { s with die := t.die })) ∧
  (∀ (id : Nat) (j : Reloc) (s : State), s.ftl.relocs.find? (fun (j : Reloc) => j.id = id && j.step = 0) = some j → (j.kind = 1 ∧ s.relocLive j = true) ∨ j.kind = 3 →
    Ran (.relocation id true) s (fun t => t.ftl.jtail = s.ftl.jtail ++ [⟨s.ftl.jnext, 0x08,
      [b2n j.row.conv, j.row.h, j.row.r, j.member, j.old.die, j.old.blk, j.new.die, j.new.blk], .reloc id, s.el⟩] ∧
      (∀ i ∈ t.ftl.relocs, i.id = id → i.step = 2) ∧ t = { s with ftl := { s.ftl with relocs := t.ftl.relocs, jnext := s.ftl.jnext + 1, jtail := t.ftl.jtail } })) ∧
  (∀ (conv : Bool) (h r m dg : Nat) (g : Grp) (x : SRow) (e : Subst) (s : State), s.rdn.subst = [e] → e.row = ⟨conv, h, r⟩ → e.member = m →
    e.done = false → s.srow ⟨conv, h, r⟩ = some x → s.grpOfDie e.blk.die = some (dg, g) → s.works e.blk.die = true →
    (Tab.find dg s.rdn.rbld).getD 0 < s.rbldShare dg g → s.missing ⟨conv, h, r⟩ x = [m] → s.tailFull = false →
    Ran (.rebuildStripe conv h r m) s (fun t => t.rdn.subst = [{ e with upto := e.upto + 1 }] ∧ t.zn = s.zn ∧ t.outs = s.outs ∧
      t.rd F.RDN_RBLD_BYTES_BYTES = cut 64 (s.rd F.RDN_RBLD_BYTES_BYTES + 4096 * stripeBlks e.upto) ∧
      (e.upto + 1 < s.rbldStripes e x → t.ftl = s.ftl) ∧
      (s.rbldStripes e x ≤ e.upto + 1 → t.ftl.jtail = s.ftl.jtail ++ [⟨s.ftl.jnext, 0x10, [b2n conv, h, r, m, e.blk.die, e.blk.blk, 1],
        .rebuilt ⟨conv, h, r⟩ m, s.el⟩]))) ∧
  (∀ (d t0 e b b0 : Nat) (c : CRow) (s : State), (s.dieOf d).goneAt = some t0 → s.works d = false →
    t0 + s.rd F.RDN_RBLD_CFG_DELAY * 1000000000 ≤ s.el → s.zn.zx = [] → s.ftl.crows = [(0, c)] → c.row.mem = [⟨d, b0⟩] → s.rdn.subst = [] →
    s.bestTarget (s.substDies ⟨true, 0, 0⟩ c.row 0) = some e → s.nextErased e = some b →
    Ran (.substitutionDelayExpiry d) s (fun t => t.rdn.subst = [⟨⟨true, 0, 0⟩, 0, ⟨e, b⟩, false, 0⟩] ∧ (t.blkOf ⟨e, b⟩).use = .data ∧
      t.zn = s.zn ∧ t.outs = s.outs)) ∧
  (∀ (conv : Bool) (h r w p : Nat) (e : Nat × RowId × Nat × Nat) (x : SRow) (us : List StU) (s : State),
    s.openPageRows.find? (fun e => e.2 = (⟨conv, h, r⟩, w, p)) = some e → s.srow ⟨conv, h, r⟩ = some x →
    e.1 + s.rd F.MED_STG_CFG_FILL_TMO * 1000000 < s.el → s.winPool < 2 * s.winUsed → us = s.pageRowUnits ⟨conv, h, r⟩ x.k w p →
    (s.stg.units.filter (fun u => u.pool = 2)).length + us.length ≤ 16777216 →
    Ran (.stagingOverflowMove conv h r w p) s (fun t => t.stg = { s.stg with
        ovfAt := (s.stg.ovfAt + us.length) % 16777216
        units := s.stg.units.map (fun (u : StU) =>
          if us.contains u then { u with pool := 2, loc := (s.stg.ovfAt + us.findIdx (· = u)) % 16777216 } else u) } ∧
      t.zn = s.zn ∧ t.outs = s.outs))

/-- 07 R178–R181, R503, 08 R204: Layout Management of a served manager. A Begin Reshape to a layout that fits starts one, which goes on while a zone is
still to leave; an Abort turns it round, and is without effect on one that is turned already; an action that the
table does not list fails; Prepare Removal takes the position's hop DOWN
without a break and shows that the position may be removed. -/
def Obligations.LayoutManagementComplete : Prop :=
  (∀ (o : Org) (cid g sup : Nat) (old new : Grp) (s : State), Manages s o → s.tailFull = false → s.rdn.reshape = none → s.rbldPending g = false →
    Tab.find g s.rdn.groups = some old → Tab.find sup s.rdn.supp = some (g, new) → s.badTarget g old new = false →
    Ran (.beginReshape o cid 1 g sup) s (fun t => RepliedWith t o cid stOk 0 [] ∧ (∃ e ∈ t.ftl.jtail, e.ty = 0x17 ∧ e.f = [g, sup, 2]) ∧
      (s.leaving ⟨g, new, 0, 0, false⟩ ≠ [] → ∃ r, t.rdn.reshape = some r ∧ r.grp = g ∧ r.target = new ∧ r.rev = false ∧
        r.total = (s.leaving ⟨g, new, 0, 0, false⟩).length))) ∧
  (∀ (o : Org) (cid act g sup : Nat) (s : State), Manages s o → s.tailFull = false → act = 0 ∨ 4 ≤ act →
    Ran (.beginReshape o cid act g sup) s (fun t => Refuses s t o cid stField 0)) ∧
  (∀ (o : Org) (cid : Nat) (r : Reshape) (s : State), Manages s o → s.tailFull = false → s.rdn.reshape = some r →
    (r.rev = true → Ran (.abortReshape o cid) s (fun t => Completes s t o cid 0 [])) ∧
    (r.rev = false → Ran (.abortReshape o cid) s (fun t => RepliedWith t o cid stOk 0 [] ∧
      (∃ e ∈ t.ftl.jtail, e.ty = 0x17 ∧ e.f = [r.grp, 0, 3]) ∧
      (s.leaving { r with rev := true, done := 0 } ≠ [] → ∃ q, t.rdn.reshape = some q ∧ q.grp = r.grp ∧ q.rev = true ∧ q.done = 0)))) ∧
  (∀ (o : Org) (cid l b : Nat) (s : State), Manages s o → s.tailFull = false → l < 64 → b < 4 → s.rd F.KZL_BID_PRESENT l b ≠ 0 → s.die.dies = [] →
    Ran (.prepareRemoval o cid l b) s (fun t => t.hopSt l b = hDown ∧ t.rd F.KZL_STS_REMOVE_OK l = 1 ∧ t.rd F.KZL_STS_REMOVE_POS l = b ∧
      t.rd F.KZL_STS_BREAK l = s.rd F.KZL_STS_BREAK l ∧ t.zn = s.zn ∧ RepliedWith t o cid stOk 0 []))

/-- 17 R371, R375, R381–R383, 22 R465, 00 R7: power and the start. POR_N low returns every field to its reset value and drives FAULT_N low; a rise with
TEST_MODE high is the production test; a start whose fuses fail, or whose boot NOR cannot be read, ends in ROM recovery, one without a good slot
too; DRAM that trained on every channel waits for its fill, one that did not is recovery with error 3; the fill serves the ports; with the
snapshots readable the controller is admin-ready; replay of a first start arms the flush; admission opens the controller to commands; the loader
acknowledges a good block; a lost REFCLK stops everything. -/
def Obligations.StartUpComplete : Prop :=
  (∀ (heads good : Nat) (s : State), s.img.por = true → s.stg.image = none → s.ftl.undo = [] → s.ftl.zundo = [] → s.stg.units = [] → s.zn.cmds = [] →
    s.zn.doomed = [] → s.cap.streams = [] → s.stg.dirty = [] →
    Ran (.porNFall heads good) s (fun t => t.img.por = false ∧ t.img.faultN = false ∧ t.outs = s.outs ++ [.pin "FAULT_N" 0] ∧ t.regs = [] ∧
      t.zn.ud = s.zn.ud ∧ t.zn.ns = s.zn.ns ∧ t.img.admReady = false)) ∧
  (∀ (test hot fuse root nor rdA rdB spd : Bool) (fusedRows : Nat) (soft bad : List (Nat × Nat)) (noCal : List Nat) (s : State), s.img.por = false →
    s.pwr.tripped = true → hot = true → Ran (.porNRise test hot fuse root nor rdA rdB spd fusedRows soft bad noCal) s (fun t => t = s)) ∧
  (∀ (hot fuse root nor rdA rdB spd : Bool) (fusedRows : Nat) (soft bad : List (Nat × Nat)) (noCal : List Nat) (s : State), s.img.por = false →
    (s.pwr.tripped && hot) = false →
    Ran (.porNRise true hot fuse root nor rdA rdB spd fusedRows soft bad noCal) s (fun t =>
      t = { s with img := { s.img with por := true, prod := true, startAt := s.el, noCal := noCal } }) ∧
    (soft.all (fun e => 8 < e.1 || e.2 ≤ 16) = true → Ran (.porNRise false hot false root nor rdA rdB spd fusedRows soft [] noCal) s (fun t =>
      t.img.por = true ∧ t.img.rom = true ∧ t.rd F.IMG_STS_PHASE = 3 ∧ t.rd F.IMG_STS_ERR = 1 ∧ t.rd F.IMG_STS_STEP = 1 ∧
      t.rd F.RAS_REPAIR_FUSED = cut F.RAS_REPAIR_FUSED.w fusedRows ∧ t.rd F.CIP_STS_ROOT_OK = b2n root ∧ t.outs = s.outs ++ [.pin "FAULT_N" 0])) ∧
    (soft.all (fun e => 8 < e.1 || e.2 ≤ 16) = true → Ran (.porNRise false hot true root false rdA rdB spd fusedRows soft [] noCal) s (fun t =>
      t.img.por = true ∧ t.img.rom = true ∧ t.rd F.IMG_STS_PHASE = 3 ∧ t.rd F.IMG_STS_ERR = 2 ∧ t.rd F.IMG_STS_STEP = 3 ∧ t.zn.ud = s.zn.ud)) ∧
    (soft.all (fun e => 8 < e.1 || e.2 ≤ 16) = true → s.dir = none → Ran (.porNRise false hot true root true false false spd fusedRows soft [] noCal) s (fun t =>
      t.img.por = true ∧ t.img.rom = true ∧ t.rd F.IMG_STS_PHASE = 3 ∧ t.rd F.IMG_SLOT_STS_RESULT 0 = 2 ∧ t.rd F.IMG_SLOT_STS_RESULT 1 = 2 ∧
      t.rd F.IMG_STS_FALLBACK = 1 ∧ t.zn.ud = s.zn.ud))) ∧
  (∀ (code idx rsn at0 : Nat) (root nor rdA rdB spd : Bool) (fusedRows : Nat) (noCal : List Nat) (s : State), s.pwr.jack = true → s.pwr.wake = some (code, idx, rsn, at0) →
    Ran (.jackExit false root nor rdA rdB spd fusedRows [] [] noCal) s (fun t => t.pwr.jack = false ∧ t.pwr.wake = none ∧ t.img.por = true ∧
      t.rd F.PWR_WAKE_SRC_CODE = cut F.PWR_WAKE_SRC_CODE.w code ∧ t.rd F.PWR_WAKE_SRC_FROM = 4 ∧ t.rd F.PWR_STS_JACK_WAKE = 1 ∧
      t.rd F.PWR_WAKE_TIME_TIME = cut 64 at0 ∧ t.rd F.GEN_STS_CAUSE = 1 ∧ t.rd F.IMG_STS_PHASE = 3)) ∧
  (∀ (good : Nat) (s : State), s.tables = true → s.img.noCal = [] → s.rd F.IMG_STS_PHASE = 0 → s.rd F.DRC_FILL_DONE ≠ 1 → s.rd F.DRC_CH_STS_STATE 0 < 2 →
    ((List.range 8).all (bit good) = true → Ran (.dramTrainingDone good) s (fun t => t = { s with regs := t.regs } ∧
      (∀ c, c < 8 → t.rd F.DRC_CH_STS_STATE c = 2) ∧ Keeps s t [F.DRC_CH_STS_STATE])) ∧
    ((List.range 8).all (bit good) = false → Ran (.dramTrainingDone good) s (fun t => t.rd F.IMG_STS_PHASE = 3 ∧ t.rd F.IMG_STS_ERR = 3 ∧
      t.img.admReady = true ∧ (∀ c, c < 8 → t.rd F.DRC_CH_STS_STATE c = (if bit good c then 2 else 3)) ∧ t.zn = s.zn))) ∧
  (∀ (s : State), s.tables = true → s.rd F.IMG_STS_PHASE = 0 → s.rd F.DRC_FILL_DONE ≠ 1 → (∀ c, c < 8 → s.rd F.DRC_CH_STS_STATE c = 2) →
    Ran (.dramFillDone) s (fun t => t.rd F.DRC_FILL_DONE = 1 ∧ t.rd F.DRC_FILL_PCT = 100 ∧ t.rd F.IMG_STS_STEP = 8 ∧ t.rd F.MCACHE_STS_STATE = 1 ∧
      t.pcx.win = [] ∧ t.drc.poison = [] ∧ t.die = { s.die with corr := s.die.corrSaved } ∧ t.zn = s.zn ∧ t.outs = s.outs)) ∧
  (∀ (s : State), s.tables = true → s.rd F.IMG_STS_PHASE = 0 → s.img.admReady = false → s.rd F.DRC_FILL_DONE = 1 →
    Ran (.adminReady false) s (fun t => t.img.admReady = true ∧ t.rd F.IMG_STS_PHASE = 3 ∧ t.rd F.IMG_STS_ERR = 4 ∧ t.slState 0 = slActive ∧ t.zn.ud = s.zn.ud) ∧
    (s.img.sys = [] → s.img.started = false → s.img.warm = false → s.img.keepDram = false → (s.sx 0).used = false → Ran (.adminReady true) s (fun t =>
      t.img.admReady = true ∧ t.rd F.IMG_STS_STEP = 10 ∧ t.slState 0 = slActive ∧ t.rd F.SLI_WEIGHT_LCMASK 0 = 0xFF ∧
      t.rd F.GEN_STS_RST_PEND = 0 ∧ t.pcx.win = s.pcx.img ∧ t.zn = s.zn))) ∧
  (∀ (ms : Nat) (rd spd : Bool) (s : State), s.tables = true → s.rd F.IMG_STS_PHASE = 0 → s.img.admReady = true → s.img.replayed = false →
    Ran (.journalReplayDone false ms rd spd) s (fun t => t.rd F.IMG_STS_PHASE = 3 ∧ t.rd F.IMG_STS_ERR = 5 ∧ t.img.replayed = false ∧
      t.outs = s.outs ++ [.pin "FAULT_N" 0] ∧ t.zn = s.zn) ∧
    (s.ftl.jtail = [] → s.layoutFits = true → s.stg.image = none → s.zn.zx = [] → s.ftl.crows = [] → s.img.started = false → s.img.warm = false → s.img.target = 0 →
      s.rd F.MED_PF_STS_PHASE = pfNotArmed → s.stg.erased.getD 0 false = true →
      Ran (.journalReplayDone true ms rd spd) s (fun t => t.img.replayed = true ∧ t.rd F.MED_PF_STS_PHASE = pfArmed ∧ t.rd F.IMG_STS_STEP = 11 ∧
        t.rd F.IMG_TIME_REPLAY_MS = sat 16 ms ∧ t.stg.image = none))) ∧
  (∀ (b : Nat) (s : State), b ≤ 1 → s.stg.image = none → s.dead = false → b < s.stg.erased.length →
    (s.rd F.MED_PF_STS_PHASE ≠ pfNotArmed → Ran (.flushBankErased b) s (fun t => t.stg = { s.stg with erased := s.stg.erased.set b true } ∧
      t.regs = s.regs ∧ t.zn = s.zn)) ∧
    (s.rd F.MED_PF_STS_PHASE = pfNotArmed → Ran (.flushBankErased b) s (fun t => t.stg = { s.stg with erased := s.stg.erased.set b true } ∧
      t.rd F.MED_PF_STS_PHASE = pfArmed ∧ t.zn = s.zn))) ∧
  (∀ (s : State), s.tables = true → s.rd F.IMG_STS_PHASE = 0 → s.img.replayed = true → s.img.pfailN = true → s.rd F.MED_PF_STS_PHASE = pfArmed →
    s.stg.image = none → s.fns = [] → s.rdn.reshape = none → s.rd F.PUP_STS_SPARE ≠ 3 → s.pwr.tripped = false →
    Ran (.admissionOpen) s (fun t => t.rd F.IMG_STS_PHASE = 1 ∧ t.rd F.IMG_STS_STEP = 12 ∧ t.stg.commits = true ∧ t.img.started = true ∧
      t.sl.epochAt = s.el ∧ t.img.faultN = true ∧ t.outs = s.outs ++ [.pin "FAULT_N" 1] ∧ t.zn = s.zn)) ∧
  (∀ (off crc : Nat) (data : List Nat) (s : State), s.img.rom = true → data.length = 4096 → off ≠ 0xFFFFFFFF →
    (crc32c (toLe 4 off ++ octets data) = crc → Ran (.uartLoaderBlock off data crc) s (fun t => t.outs = s.outs ++ [.uart 0x06] ∧
      (off, octets data) ∈ t.img.load ∧ (∀ e, e.1 ≠ off → (e ∈ t.img.load ↔ e ∈ s.img.load)) ∧ t.regs = s.regs)) ∧
    (crc32c (toLe 4 off ++ octets data) ≠ crc → Ran (.uartLoaderBlock off data crc) s (fun t => t = { s with outs := s.outs ++ [.uart 0x15] }))) ∧
  (∀ (fuse root nor rdA rdB spd : Bool) (s : State), s.img.rom = true →
    Ran (.uartLoaderEnd false fuse root nor rdA rdB spd) s (fun t => t.img.rom = true ∧ t.img.load = [] ∧ t.outs = s.outs ++ [.uart 0x15] ∧
      t.free = s.free + 1 ∧ t.zn = s.zn) ∧
    Ran (.uartLoaderEnd true false root nor rdA rdB spd) s (fun t => t.img.slots = [layBytes s.img.load, s.img.slots.getD 1 []] ∧
      (s.verify (layBytes s.img.load) ≠ 1 → t.img.rom = true ∧ t.outs = s.outs ++ [.uart 0x15]) ∧
      (s.verify (layBytes s.img.load) = 1 → t.outs = s.outs ++ [.uart 0x06, .pin "FAULT_N" 0] ∧
        ∃ d : Dir, d.bytes ∈ t.img.dirs ∧ d.active = 0 ∧ d.trial = none))) ∧
  (∀ (s : State), s.dead = false → s.ready = true → s.zn.cmds = [] → s.cap.streams = [] →
    Ran (.refclkLoss) s (fun t => t.img.refLost = true ∧ t.img.admReady = false ∧ t.rd F.IMG_STS_PHASE = 0 ∧ t.stg.commits = false ∧ t.dead = true ∧
      (∃ l, t.outs = l ++ [.pin "FAULT_N" 0]) ∧ t.zn.ud = s.zn.ud))

/-- 17 R388–R391, 16 R359: firmware. A download of a served manager is kept at its offset and answers success; a Commit to the slot that does not run
writes a buffer that verifies and empties it, one that does not verify fails with Invalid Firmware Image; action 001 makes the slot the
trial, 010 verifies what it holds, and on the running slot has no effect; 011 loads the store and the alternate bank. -/
def Obligations.FirmwareComplete : Prop :=
  (∀ (o : Org) (cid off len : Nat) (data : List Nat) (s : State), Manages s o → s.pup.exch = none → off * 4 + len * 4 ≤ 15728640 →
    (∀ e ∈ s.img.upd, ¬ (e.1 < off * 4 + len * 4 ∧ off * 4 < e.1 + e.2.length)) →
    Ran (.firmwareDownload o cid off len data) s (fun t => t.rd F.IMG_UPD_STS_STATE = 1 ∧ t.img = { s.img with
      upd := s.img.upd ++ [(off * 4, (List.range (len * 4)).map (fun i => cut 8 (data.getD i 0)))] } ∧ Keeps s t [F.IMG_UPD_STS_STATE] ∧
      RepliedWith t o cid stOk 0 [])) ∧
  (∀ (o : Org) (cid fs k nor : Nat) (spd : Bool) (s : State), Manages s o → s.commitSlot fs = some k → k ≠ s.rd F.IMG_STS_SLOT → k < 2 →
    s.prohibited = false → nor < 2 →
    Ran (.firmwareCommitCa000 o cid fs nor spd) s (fun t => t.img.upd = [] ∧ t.zn = s.zn ∧
      (s.verify (layBytes s.img.upd) = 1 → s.structOk (layBytes s.img.upd) spd = true →
        t.slotBytes k = (layBytes s.img.upd).take (imgLen (layBytes s.img.upd)) ∧ t.slotBytes (1 - k) = s.slotBytes (1 - k) ∧
        t.rd F.IMG_UPD_STS_STATE = 5 ∧ t.rd F.IMG_UPD_STS_ERR = 0 ∧ t.rd F.IMG_SLOT_STS_RESULT k = 1 ∧ RepliedWith t o cid stOk 0 []) ∧
      (s.verify (layBytes s.img.upd) ≠ 1 ∨ s.structOk (layBytes s.img.upd) spd = false → t.img.slots = s.img.slots ∧
        t.rd F.IMG_UPD_STS_STATE = 6 ∧ t.rd F.IMG_UPD_STS_ERR = 1 ∧ RepliedWith t o cid (1, 0x07) 0 [])) ∧
    Ran (.firmwareCommitCa001 o cid fs nor spd) s (fun t => t.img.upd = [] ∧ t.zn = s.zn ∧
      (s.verify (layBytes s.img.upd) = 1 → s.structOk (layBytes s.img.upd) spd = true →
        t.slotBytes k = (layBytes s.img.upd).take (imgLen (layBytes s.img.upd)) ∧
        (∃ d : Dir, d.bytes ∈ t.img.dirs ∧ d.trial = some k ∧ d.tries = 1 ∧ d.active = s.activeSlot) ∧
        t.rd F.IMG_UPD_STS_STATE = 5 ∧ RepliedWith t o cid stOk 0 []) ∧
      (s.verify (layBytes s.img.upd) ≠ 1 → t.img.slots = s.img.slots ∧ t.img.dirs = s.img.dirs ∧ t.rd F.IMG_UPD_STS_STATE = 6 ∧
        RepliedWith t o cid (1, 0x07) 0 [])) ∧
    Ran (.firmwareCommitCa010 o cid fs spd) s (fun t => t.img.upd = [] ∧ t.img.slots = s.img.slots ∧ t.zn = s.zn ∧
      (s.verify (s.slotBytes k) = 1 → s.structOk (s.slotBytes k) spd = true →
        (∃ d : Dir, d.bytes ∈ t.img.dirs ∧ d.trial = some k ∧ d.tries = 1 ∧ d.active = s.activeSlot) ∧
        t.rd F.IMG_SLOT_STS_RESULT k = 1 ∧ RepliedWith t o cid stOk 0 []) ∧
      (s.verify (s.slotBytes k) ≠ 1 → t.img.dirs = s.img.dirs ∧ t.rd F.IMG_SLOT_STS_RESULT k = s.verify (s.slotBytes k) ∧
        RepliedWith t o cid (1, 0x07) 0 [])) ∧
    (s.cap.streams = [] → s.cap.progs = [] → Ran (.firmwareCommitCa011 o cid fs nor spd) s (fun t => t.img.upd = [] ∧ t.zn = s.zn ∧
      (s.verify (layBytes s.img.upd) = 1 → s.structOk (layBytes s.img.upd) spd = true →
        t.slotBytes k = (layBytes s.img.upd).take (imgLen (layBytes s.img.upd)) ∧ t.pup.exch = some (k, o, cid) ∧ t.rd F.PUP_STS_SWAP = 0 ∧
        t.rd F.IMG_UPD_STS_STATE = 4 ∧ (s.ras.aers = [] → t.outs = s.outs)) ∧
      (s.verify (layBytes s.img.upd) ≠ 1 → t.img.slots = s.img.slots ∧ t.pup = s.pup ∧ t.rd F.IMG_UPD_STS_STATE = 6 ∧
        RepliedWith t o cid (1, 0x07) 0 [])))) ∧
  (∀ (o : Org) (cid fs : Nat) (spd : Bool) (s : State), Manages s o → s.commitSlot fs = some (s.rd F.IMG_STS_SLOT) →
    Ran (.firmwareCommitCa010 o cid fs spd) s (fun t => Completes { s with img := { s.img with upd := [] } } t o cid 0 []))

/-- 19 R416–R422, R432, 16 R355: time. A host or a manager sets TIME_NS by a step that leaves elapsed time; Get Features reports it; an accepted edge
stamps, counts and slews by its error, one too early is a glitch; holdover follows HOLD_MS without an edge and stops a slew; a set waits for the
next edge while edges are accepted; a read of TIM_NOW latches the fraction for its path; a timer that is armed runs, and its expiry is delivered
once, or every period. -/
def Obligations.TimeComplete : Prop :=
  (∀ (o : Org) (cid ms waited : Nat) (s : State), Served s o → isMgr o = true → 0 ≤ (s.el : Int) + s.tim.ofs →
    Ran (.setFeaturesTimestamp o cid ms waited) s (fun t => t.tns = (cut 48 ms * 1000000 + waited) % 2 ^ 64 ∧ t.el = s.el ∧
      t.rd F.TIM_STS_SRC = 3 ∧ t.rd F.TIM_STS_SET_PEND = 0 ∧ t.zn = s.zn ∧ RepliedWith t o cid stOk 0 [])) ∧
  (∀ (o : Org) (cid : Nat) (s : State), Served s o →
    Ran (.getFeaturesTimestamp o cid) s (fun t => Completes s t o cid 0 (toLe 6 (s.tns / 1000000) ++
      [b2n (s.rd F.TIM_STS_SRC = 1 || s.rd F.TIM_STS_SRC = 2) + 2 * b2n (s.rd F.TIM_STS_SRC = 3), 0]))) ∧
  (∀ (s : State), s.counting = true → s.rd F.TIM_CFG_PPS_EN ≠ 0 →
    ((∀ a, s.tim.lastAcc = some a → a + 500000000 ≤ s.el) → s.rd F.TIM_STS_PPS ≠ 2 → s.rd F.TIM_STS_SET_PEND ≠ 1 → s.ppsErr.natAbs ≤ 10000 →
      Ran (.ppsEdge) s (fun t => t.rd F.TIM_STS_PPS = 1 ∧ t.rd F.TIM_PPS_LAST_NS = s.tns ∧ t.tim.lastAcc = some s.el ∧ t.tns = s.tns ∧
        t.tim.slew = -s.ppsErr * 2 ^ 32 ∧ t.rd F.TIM_STS_SLEWING = b2n (s.ppsErr != 0) ∧
        t.rd F.TIM_PPS_CNT_ACCEPT = sat F.TIM_PPS_CNT_ACCEPT.w (s.rd F.TIM_PPS_CNT_ACCEPT + 1) ∧
        t.rd F.TIM_PPS_ERR_VALUE = cut 32 (satSigned 32 s.ppsErr) ∧ t.zn = s.zn ∧ t.outs = s.outs)) ∧
    (∀ a, s.tim.lastAcc = some a → a ≤ s.el → s.el < a + 500000000 → Ran (.ppsEdge) s (fun t => t.tim.lastAcc = some a ∧ t.tns = s.tns ∧
      t.tim.slew = s.tim.slew ∧ t.rd F.TIM_STS_PPS = s.rd F.TIM_STS_PPS ∧ t.rd F.TIM_PPS_LAST_NS = s.rd F.TIM_PPS_LAST_NS ∧
      t.rd F.TIM_PPS_CNT_ACCEPT = s.rd F.TIM_PPS_CNT_ACCEPT ∧ t.zn = s.zn))) ∧
  (∀ (a : Nat) (s : State), s.tim.lastAcc = some a → s.rd F.TIM_STS_PPS = 1 → a + s.rd F.TIM_CFG_HOLD_MS * 1000000 ≤ s.el →
    Ran (.holdoverEnter) s (fun t => t.rd F.TIM_STS_PPS = 2 ∧ t.rd F.TIM_STS_SLEWING = 0 ∧ t.tim.slew = 0 ∧ t.tns = s.tns ∧ t.zn = s.zn)) ∧
  (∀ (sec : Nat) (s : State),
    (s.rd F.TIM_STS_PPS = 1 → Ran (.timSetGo sec) s (fun t => t = { s with regs := t.regs } ∧ t.rd F.TIM_STS_SET_PEND = 1 ∧
      t.rd F.TIM_SET_SEC = cut 34 sec ∧ Keeps s t [F.TIM_STS_SET_PEND, F.TIM_SET_SEC])) ∧
    (s.rd F.TIM_STS_PPS ≠ 1 → 0 ≤ (s.el : Int) + s.tim.ofs → Ran (.timSetGo sec) s (fun t => t.tns = cut 34 sec * 1000000000 % 2 ^ 64 ∧ t.el = s.el ∧
      t.rd F.TIM_STS_SRC = 3 ∧ t.rd F.TIM_STS_SET_PEND = 0 ∧ t.zn = s.zn))) ∧
  (∀ (p : Nat) (s : State), p ≤ 1 → s.pathUp p = true →
    Ran (.timNowRead p) s (fun t => t = { s with regs := t.regs, gen := t.gen, outs := t.outs } ∧
      t.outs = s.outs ++ [if p = 0 then .rd 0x40000 s.tns else .mi 0 [s.tns % 2 ^ 32, s.tns / 2 ^ 32]] ∧
      t.rd F.TIM_NOW_FRAC_FRAC 0 0 p = s.frac ∧ Keeps s t [F.TIM_NOW_FRAC_FRAC])) ∧
  (∀ (n cmp period : Nat) (periodic : Bool) (s : State), n < 16 → s.stopped = false →
    Ran (.timerArm n cmp period periodic) s (fun t => t = { s with regs := t.regs } ∧ t.rd F.PUP_TMR_CMP_CMP n = cut 64 cmp ∧
      t.rd F.PUP_TMR_CTL_PERIOD n = cut F.PUP_TMR_CTL_PERIOD.w period ∧ t.rd F.PUP_TMR_CTL_PERIODIC n = b2n periodic ∧ t.rd F.PUP_TMR_CTL_EN n = 1 ∧
      Keeps s t [F.PUP_TMR_CMP_CMP, F.PUP_TMR_CTL_PERIOD, F.PUP_TMR_CTL_PERIODIC, F.PUP_TMR_CTL_EN])) ∧
  (∀ (n : Nat) (s : State), n < 16 → s.counting = true → s.rd F.PUP_TMR_CTL_EN n ≠ 0 → s.rd F.PUP_TMR_CMP_CMP n ≤ s.tns →
    Ran (.timerExpiry n) s (fun t => (∃ e ∈ t.pup.pend, e.src = n) ∧
      (s.rd F.PUP_TMR_CTL_PERIODIC n ≠ 1 → t.rd F.PUP_TMR_CTL_EN n = 0 ∧ t.rd F.PUP_TMR_CMP_CMP n = s.rd F.PUP_TMR_CMP_CMP n) ∧
      (s.rd F.PUP_TMR_CTL_PERIODIC n = 1 → t.rd F.PUP_TMR_CTL_EN n = s.rd F.PUP_TMR_CTL_EN n ∧
        t.rd F.PUP_TMR_CMP_CMP n = cut 64 (s.rd F.PUP_TMR_CMP_CMP n + s.rd F.PUP_TMR_CTL_PERIOD n * 1000)) ∧ t.zn = s.zn ∧ t.outs = s.outs))

/-- 19 R423, R427, 20 R441–R443: events and the recorder. An event joins the queue with its time and the next sequence number, or counts as lost where
the queue is full; CLEAR empties the recorder's buffer and resumes; FLUSH copies it as it stands. -/
def Obligations.EventsComplete : Prop :=
  (∀ (code slice arg : Nat) (s : State),
    (s.ras.evq.length < 1024 → Ran (.eventRaise code slice arg) s (fun t =>
      t.ras.evq = s.ras.evq ++ [⟨s.tns, cut 16 code, cut 16 slice, s.ras.evSeq, cut 64 arg⟩] ∧ t.ras.evSeq = cut 32 (s.ras.evSeq + 1) ∧
      t.rd F.RAS_EVQ_LOST_CNT = s.rd F.RAS_EVQ_LOST_CNT ∧ t.zn = s.zn)) ∧
    (1024 ≤ s.ras.evq.length → Ran (.eventRaise code slice arg) s (fun t => t.ras.evq = s.ras.evq ∧ t.ras.evSeq = s.ras.evSeq ∧
      t.rd F.RAS_EVQ_LOST_CNT = sat F.RAS_EVQ_LOST_CNT.w (s.rd F.RAS_EVQ_LOST_CNT + 1) ∧ t.zn = s.zn))) ∧
  (∀ (s : State), Ran (.evrClear) s (fun t => t = { s with regs := t.regs, evr := { s.evr with recs := [], used := 0 } } ∧ t.rd F.EVR_STS_FULL = 0 ∧
    t.rd F.EVR_LOST_CNT = 0 ∧ Keeps s t [F.EVR_STS_FULL, F.EVR_LOST_CNT])) ∧
  (∀ (s : State), Ran (.evrFlush) s (fun t => t.evr.recs = s.evr.recs ∧ t.evr.nand = (⟨s.tns, 1, s.evr.recs⟩ :: s.evr.nand).take 4 ∧
    t.tim = { s.tim with saved := some s.tns } ∧ t.rd F.EVR_FLUSH_CNT_FAULT = sat F.EVR_FLUSH_CNT_FAULT.w (s.rd F.EVR_FLUSH_CNT_FAULT + 1) ∧
    t.zn = s.zn ∧ t.outs = s.outs))

/-- 01 R19, R20, 16 R362, R363, 18 R398, R405–R413: power-limit steps, voltage and temperature. An NVMe power state is kept and, if operational, asks for
its step; APST and temperature thresholds are kept; the loop raises VDD_CORE below its target by the whole 20 µs that passed; a poll keeps what
the regulator reads, the third failure in a row fails it, ten good retries return it; a conversion shows every reading and never lowers the
thermal step; a remote input shows its temperature, or fails out of range; the steps fall back one at a time. -/
def Obligations.PowerStepsComplete : Prop :=
  (∀ (o : Org) (cid ps : Nat) (s : State), Served s o → isMgr o = true → ps ≤ 4 ∨ ps = 5 ∧ s.rd F.PWR_CFG_JACK_EN ≠ 0 →
    Ran (.setFeaturesPowerManagement o cid ps) s (fun t => t.rd F.PWR_STS_NVME_PS = ps ∧
      t.pwr.hostStep = (if ps ≤ 2 then 5 * ps else s.pwr.hostStep) ∧ t.zn = s.zn ∧ RepliedWith t o cid stOk 0 [])) ∧
  (∀ (o : Org) (cid : Nat) (en : Bool) (ents : List (Nat × Nat)) (s : State), Served s o → isMgr o = true →
    Ran (.setFeaturesApst o cid en ents) s (fun t =>
      Completes { s with pwr := { s.pwr with apstEn := en, apst := (ents.take 32).mapIdx (fun i e => (i, e)) } } t o cid 0 [])) ∧
  (∀ (o : Org) (cid sensor kelvin : Nat) (under : Bool) (s : State), Served s o → sensor ≤ 8 →
    Ran (.setFeaturesTempThreshold o cid sensor under kelvin) s (fun t => t.pwr = { s.pwr with
      tthr := s.pwr.tthr.filter (fun x => !(x.1 = sensor && x.2.1 = under)) ++ [(sensor, under, (cut 16 kelvin : Int) - 273)] } ∧
      Replied t o cid stOk ∧ t.zn = s.zn)) ∧
  (∀ (paces : List Nat) (s : State), paces.length = 32 → s.counting = true →
    Ran (.voltageLoopTick paces) s (fun t => (∀ i, i < 32 → t.rd F.PWR_PACE_PACE i = cut 16 (paces.getD i 0)) ∧ t.zn = s.zn) ∧
    (∀ n, s.stopped = false → s.rd F.PUP_VREG_FAIL ≠ 1 → s.pup.waitMv = 0 → s.pwr.admStep = s.rd F.PWR_STEP_STEP → s.pwr.widStep = s.rd F.PWR_STEP_STEP →
      s.rd F.PWR_STEP_FLOOR = s.floorOf (s.rd F.PWR_STEP_STEP) → s.rd F.PWR_STEP_FLOOR ≤ (lowest (paces.map (cut 16))).1 →
      (lowest (paces.map (cut 16))).1 * 1000 < s.rd F.PWR_STEP_FLOOR * (1000 + s.pwr.margin) → n = min 5 ((s.el - s.pup.raisedAt) / 20000) → 0 < n →
      600 ≤ s.rd F.PUP_VREG_TARGET_MV → s.rd F.PUP_VREG_TARGET_MV + 5 * n ≤ 850 → Ran (.voltageLoopTick paces) s (fun t =>
        t.rd F.PUP_VREG_TARGET_MV = s.rd F.PUP_VREG_TARGET_MV + 5 * n ∧ t.pup.raisedAt = s.el ∧
        t.outs = s.outs ++ (List.range n).map (fun i => .pmbus 0x21 (s.vcode (s.rd F.PUP_VREG_TARGET_MV + 5 * (i + 1))))))) ∧
  (∀ (mv iout status : Nat) (s : State), s.stopped = false → s.rd F.PUP_VREG_FAIL ≠ 1 →
    (vregFault status = false → Ran (.regulatorPoll true mv iout status) s (fun t => t = { s with
      regs := t.regs, pup := { s.pup with vFails := 0, vIout := (cut 32 iout, cut 16 status), waitMv := if s.pup.waitMv ≤ mv then 0 else s.pup.waitMv } } ∧ t.rd F.PUP_VREG_READ_MV = cut 10 mv ∧
      Keeps s t [F.PUP_VREG_READ_MV])) ∧
    (3 ≤ s.pup.vFails + 1 → Ran (.regulatorPoll false mv iout status) s (fun t => t.rd F.PUP_VREG_FAIL = 1 ∧ t.zn = s.zn)) ∧
    (s.pup.vFails + 1 < 3 → Ran (.regulatorPoll false mv iout status) s (fun t => t = { s with pup := { s.pup with vFails := s.pup.vFails + 1 } }))) ∧
  (∀ (mv iout status : Nat) (s : State), s.stopped = false → s.rd F.PUP_VREG_FAIL ≠ 0 → s.pup.vRetryAt + 10000000 ≤ s.el → vregFault status = false →
    Ran (.regulatorRetry true mv iout status) s (fun t => t.pup.vGood = (if 10 ≤ s.pup.vGood + 1 then 0 else s.pup.vGood + 1) ∧ t.pup.vRetryAt = s.el ∧
      (10 ≤ s.pup.vGood + 1 → t.rd F.PUP_VREG_FAIL = 0) ∧ (s.pup.vGood + 1 < 10 → t.rd F.PUP_VREG_FAIL = s.rd F.PUP_VREG_FAIL) ∧
      t.rd F.PUP_VREG_READ_MV = cut 10 mv ∧ t.zn = s.zn ∧ t.outs = s.outs)) ∧
  (∀ (raw : List Int) (s : State), raw.length = 64 → s.counting = true →
    Ran (.sensorConversion raw) s (fun t => (∀ i, i < 64 → t.rd F.THM_SENS_RAW i = cut 12 (ofSigned 12 (raw.getD i 0))) ∧
      s.rd F.PWR_STEP_THERM ≤ t.rd F.PWR_STEP_THERM ∧ t.zn.ns = s.zn.ns ∧ (s.cap.streams = [] → t.zn.ud = s.zn.ud))) ∧
  (∀ (n : Nat) (x : Int) (s : State), n < 8 → s.rd F.THM_TS_CFG_KIND n ≠ 0 → s.counting = true → s.rd F.THM_TS_STS_STATE n ≠ 2 →
    (-320 ≤ x → x ≤ 1200 → Ran (.remoteConversion n x) s (fun t => t.rd F.THM_TS_STS_STATE n = 1 ∧
      t.rd F.THM_TS_STS_TEMP n = cut 12 (ofSigned 12 x) ∧ t.zn = s.zn)) ∧
    (x < -320 ∨ 1200 < x → Ran (.remoteConversion n x) s (fun t => t.rd F.THM_TS_STS_STATE n = 2 ∧
      t.rd F.THM_TS_STS_TEMP n = cut 12 (ofSigned 12 (toSigned 8 (s.rd F.THM_TS_CFG_FAIL_VAL n) * 8)) ∧ t.zn = s.zn))) ∧
  (∀ (s : State), s.stopped = false → s.pwr.moveAt + s.rd F.THM_CFG_UP_MS * 10000000 ≤ s.el → s.rd F.PWR_STEP_THERM = 0 →
    s.stepWant.1 < s.rd F.PWR_STEP_STEP →
    Ran (.thermalStepFallback) s (fun t => t.rd F.PWR_STEP_STEP = s.rd F.PWR_STEP_STEP - 1 ∧ t.pwr.moveAt = s.el ∧ t.zn = s.zn)) ∧
  (∀ (s : State), s.pwr.paceStep ≠ 0 → s.pwr.paceAt + tenSec ≤ s.el →
    Ran (.paceLowFallback) s (fun t => t = { s with pwr := { s.pwr with paceStep := s.pwr.paceStep - 1, paceAt := s.el } })) ∧
  (∀ (s : State), s.stopped = false → s.rd F.PWR_STEP_TBL_LIMIT_W (s.rd F.PWR_STEP_STEP) * 1000000 < s.corePower →
    (s.pwr.overAt = none → Ran (.overrunStep) s (fun t => t = { s with pwr := { s.pwr with underAt := none, overAt := some s.el } })) ∧
    (∀ a, s.pwr.overAt = some a → a + 10000000 ≤ s.el → Ran (.overrunStep) s (fun t => t.pwr.overStep = min 15 (s.rd F.PWR_STEP_STEP + 1) ∧
      t.pwr.overAt = none ∧ t.zn = s.zn)))

/-- 18 R395–R404, 13 R308: power states. An idle controller whose choice is Doze rests there with its floor at 300, one whose choice is Jack goes into
Jack and is no longer admin-ready, or flushes where PFAIL_N falls meanwhile; a wake source that may leave Doze or Nap records itself and returns to Run or Lean; in Jack the first one
is recorded with its instant and WAKE_N falls; a wake frame with the port's ID wakes. -/
def Obligations.PowerStatesComplete : Prop :=
  (∀ (s : State), s.pwr.apstEn = false →
    (s.choice = pwDoze → s.mayRest pwDoze = true → (∀ ch, ch < 8 → s.dreqs ch = []) →
      Ran (.idleEntry) s (fun t => t.rd F.PWR_STS_STATE = pwDoze ∧ t.rd F.PWR_STEP_FLOOR = 300 ∧ t.drc.sref = true ∧
        t.rd F.PWR_ENTRY_CNT_CNT 1 = sat F.PWR_ENTRY_CNT_CNT.w (s.rd F.PWR_ENTRY_CNT_CNT 1 + 1) ∧ t.zn = s.zn ∧ t.outs = s.outs)) ∧
    (s.choice = pwNap → s.mayRest pwNap = true → (∀ ch, ch < 8 → s.dreqs ch = []) → Ran (.idleEntry) s (fun t => t.rd F.PWR_STS_STATE = pwNap ∧ t.rd F.PWR_STEP_FLOOR = 300 ∧
      t.drc.sref = true ∧ t.zn.ud = s.zn.ud)) ∧
    (s.choice = pwJack → s.mayRest pwJack = true → Ran (.jackEntry false) s (fun t => t.pwr.jack = true ∧ t.img.admReady = false ∧
        t.stg.commits = false ∧ t.tim.jackNs = s.tns ∧ (∃ l, t.outs = l ++ [.pin "WAKE_N" 1, .pin "FAULT_N" 1])) ∧
      Ran (.jackEntry true) s (fun t => t.pwr.jack = false ∧ t.img.pfailN = false ∧ t.stg.commits = false ∧ t.rd F.MED_PF_STS_PHASE = pfFlushing))) ∧
  (∀ (code idx rsn : Nat) (s : State), s.rd F.PWR_STS_STATE = pwDoze ∨ s.rd F.PWR_STS_STATE = pwNap →
    s.leaves code idx (s.rd F.PWR_STS_STATE) = true →
    Ran (.dozeNapExit code idx rsn) s (fun t => t.rd F.PWR_STS_STATE = b2n (s.rd F.PWR_STEP_STEP != 0) ∧ t.drc.sref = false ∧
      t.rd F.PWR_WAKE_SRC_CODE = cut 4 code ∧ t.rd F.PWR_WAKE_SRC_INDEX = cut F.PWR_WAKE_SRC_INDEX.w idx ∧
      t.rd F.PWR_WAKE_SRC_FROM = s.rd F.PWR_STS_STATE ∧ t.rd F.PWR_WAKE_SRC_REASON = cut 16 rsn ∧ t.rd F.PWR_WAKE_TIME_TIME = s.tns ∧
      t.zn = s.zn)) ∧
  (∀ (code idx ns : Nat) (s : State), s.pwr.jack = true → s.leaves code idx pwJack = true → s.pwr.wake = none →
    Ran (.wakeEvent code idx ns) s (fun t => t = { s with outs := s.outs ++ [.pin "WAKE_N" 0], pwr := { s.pwr with wake := some (code, idx, 0, cut 64 (s.tim.jackNs + ns)), wakeN := false } })) ∧
  (∀ (p u dst : Nat) (b : List Nat) (s : State), p < 8 → u < s.subCount p → dst = s.rd F.ETH_MAC_ADDR p u ∨ dst = macAll →
    beVal (octetsOf 0 4 b) = 0x485A574B → beVal (octetsOf 4 8 b) = s.rd F.ETH_WAKE_ID_ID p →
    (s.rd F.PWR_STS_STATE = pwDoze ∧ s.link p u = lkUp) ∨ (s.rd F.PWR_STS_STATE = pwNap ∧ s.link p u = lkWake ∧ s.pwr.modes.getD p 0 = 2) →
    Ran (.wakeFrame p u dst b) s (fun t => t.rd F.PWR_STS_STATE = b2n (s.rd F.PWR_STEP_STEP != 0) ∧
      t.rd F.PWR_WAKE_SRC_CODE = 2 ∧ t.rd F.PWR_WAKE_SRC_INDEX = cut F.PWR_WAKE_SRC_INDEX.w p ∧
      t.rd F.PWR_WAKE_SRC_REASON = beVal (octetsOf 12 2 b) ∧ t.zn = s.zn))

/-- 03 R78, R79, 02 R41, 03 R65, R68, R73, 13 R304, 14 R316, 20 R433, R435: the ledger's epoch, not before its millisecond, reports every slice's charge
and starts it again from 0, forgets the charges of a slice without work, applies what a Resize asked for, refills the buckets less their excess,
and counts; a doorbell moves a tail and stamps what becomes visible, or a head, one to a queue that is not there or past its end is an error and
moves nothing; a fetch takes the oldest entry of the queue that wins the slot: an admin command waits to be executed, another is in flight with that entry's
stamps, a capsule with a bad SGL ends, and an error of the queue's context fences its slice, or is a device fault of slice 0. -/
def Obligations.LedgerAndDoorbellsComplete : Prop :=
  (∀ s : State, s.el < s.sl.epochAt + 1000000 → Ran (.ledgerEpoch) s (fun t => t = s)) ∧
  (∀ s : State, s.sl.epochAt + 1000000 ≤ s.el → s.cap.streams = [] → s.cap.rx = [] → Ran (.ledgerEpoch) s (fun t =>
    t.rd F.LGR_EPOCH_COUNT = cut F.LGR_EPOCH_COUNT.w (s.rd F.LGR_EPOCH_COUNT + 1) ∧ t.sl.epochAt = s.el ∧ t.sl.bg = List.replicate 6 0 ∧
    t.sl.tgt = (List.range 8).map (fun i => s.rd F.LGR_LC_TGT_TARGET i) ∧ t.zn = s.zn ∧ t.outs = s.outs ∧
    (∀ n, n < 1024 → n = 0 ∨ s.slState n ≠ slFree →
      t.rd F.LGR_SL_LAST_CHG n = cut F.LGR_SL_LAST_CHG.w (s.rd F.LGR_SL_CHG_CHG n) ∧ t.rd F.LGR_SL_CHG_CHG n = 0 ∧
      ((s.sx n).hadWork = false → s.hasWork n = false → t.rd F.LGR_SL_NORM_N n = 0) ∧
      (∀ v, (s.sx n).pendWeight = some v → t.rd F.SLI_WEIGHT_WEIGHT n = cut F.SLI_WEIGHT_WEIGHT.w v) ∧
      ((s.sx n).pendWeight = none → t.rd F.SLI_WEIGHT_WEIGHT n = s.rd F.SLI_WEIGHT_WEIGHT n) ∧ (t.sx n).pendWeight = none ∧
      (t.sx n).bIn = ((t.rd F.SLI_BW_INGRESS n * 100000 : Nat) : Int) + min (s.sx n).bIn 0 ∧
      (t.sx n).bEg = ((t.rd F.SLI_BW_EGRESS n * 100000 : Nat) : Int) + min (s.sx n).bEg 0 ∧ (t.sx n).inBytes = 0 ∧ (t.sx n).egBytes = 0))) ∧
  (∀ (f qid v i : Nat) (g : FnSt) (q : Queue) (s : State), Tab.find f s.fns = some g → s.counting = true → s.awake = true →
    s.sl.qs.find? (fun e => !e.2.fabric && e.2.func = f && e.2.qid = qid) = some (i, q) → s.slState q.slice ≠ slResetting → s.resetting i = false →
    (v < q.size → Ran (.doorbellWrite f qid false v) s (fun t => ∃ r, Tab.find i t.sl.qs = some r ∧ r.tail = v ∧
      r.pend = q.pend ++ List.replicate ((v + q.size - q.tail) % q.size) (s.stamp q) ∧ r.head = q.head ∧
      (∀ j, j ≠ i → Tab.find j t.sl.qs = Tab.find j s.sl.qs) ∧
      t = { s with sl := { s.sl with qs := t.sl.qs, ext := t.sl.ext }, pwr := { s.pwr with busyAt := s.el } })) ∧
    (q.size ≤ v → Ran (.doorbellWrite f qid false v) s (fun t => t.pcx.badDb.contains f = true ∧ t.zn = s.zn ∧
      ∃ r, Tab.find i t.sl.qs = some r ∧ r.tail = q.tail ∧ r.pend = q.pend))) ∧
  (∀ (f qid v : Nat) (g : FnSt) (c : CQ) (s : State), Tab.find f s.fns = some g → s.counting = true → s.awake = true →
    s.sl.cqs.find? (fun c => c.func = f && c.cqid = qid) = some c → v < c.size →
    (∀ e ∈ s.sl.qs, e.2.fabric = false → e.2.func = f → e.2.cqid = qid → s.slState e.2.slice ≠ slResetting ∧ s.resetting e.1 = false) →
    Ran (.doorbellWrite f qid true v) s (fun t => (∀ d ∈ t.sl.cqs, d.func = f → d.cqid = qid → d.head = v) ∧
      t.sl.cqs.filter (fun d => !(d.func = f && d.cqid = qid)) = s.sl.cqs.filter (fun d => !(d.func = f && d.cqid = qid)) ∧
      t = { s with sl := { s.sl with cqs := t.sl.cqs }, pwr := { s.pwr with busyAt := s.el } })) ∧
  (∀ (f qid v : Nat) (g : FnSt) (s : State), Tab.find f s.fns = some g → s.counting = true → s.awake = true →
    s.sl.qs.find? (fun e => !e.2.fabric && e.2.func = f && e.2.qid = qid) = none →
    Ran (.doorbellWrite f qid false v) s (fun t => t.pcx.badDb.contains f = true ∧ t.zn = s.zn ∧
      ∀ i q, Tab.find i s.sl.qs = some q → ∃ r, Tab.find i t.sl.qs = some r ∧ r.tail = q.tail ∧ r.pend = q.pend)) ∧
  (∀ (cid i k : Nat) (q : Queue) (p : Arr) (s : State), s.awake = true → s.counting = true → s.img.admReady = true →
    s.bestQueue (s.sl.qs.filter (fun e => s.fetchable e.1 e.2)) = some (i, q) → q.pend.head? = some p → k = p.cid.getD cid →
    (q.qid = 0 → Ran (.commandFetch cid false) s (fun t => t.outs = s.outs ∧ t.fns = s.fns ∧ t.zn = s.zn ∧ ∃ r, Tab.find i t.sl.qs = some r ∧
      r.pend = q.pend.drop 1 ∧ r.adm = q.adm ++ [p] ∧ r.head = (q.head + 1) % max q.size 1 ∧ r.outst = q.outst + 1)) ∧
    (q.qid ≠ 0 → p.bad = false → DmaOk s q (q.base + 64 * q.head) 64 false → s.cmdOf i k = none →
      Ran (.commandFetch cid false) s (fun t => t.outs = s.outs ∧ t.fns = s.fns ∧ t.cmdOf i k = some (newCmd i k q (s.rd F.SLI_GEN_GEN q.slice) p) ∧
        ∃ r, Tab.find i t.sl.qs = some r ∧ r.pend = q.pend.drop 1 ∧ r.adm = q.adm ∧ r.head = (q.head + 1) % max q.size 1 ∧
          r.outst = q.outst + 1)) ∧
    (q.qid ≠ 0 → p.bad = true → s.cmdOf i k = none → Tab.find i s.sl.qs = some q → Ran (.commandFetch cid false) s (fun t => Ended t i k (0, 0x11))) ∧
    (q.slice ≠ 0 → s.slState q.slice = slActive → s.sl.waits = [] → Ran (.commandFetch cid true) s (fun t => t.slState q.slice = slFenced)) ∧
    (q.slice = 0 → q.qid ≠ 0 → Ran (.commandFetch cid true) s (fun t => t.rd F.RAS_STS_DEV_FAULT = 1)) ∧
    (q.slice = 0 → q.qid = 0 → Ran (.commandFetch cid true) s (fun t => t.img.admReady = false ∧ t.rd F.GEN_STS_CAUSE = 5)))

/-- 16 R348–R350, R357, R358: the mailbox hands out the pending entry with the earliest time stamp, nothing while delivery is masked, and frees an
acknowledged one; a watchdog write restarts it; a watchdog that is not written, a mismatch or a failed self-check moves to the spare pair, and
without one stops the Puppeteer: FAULT_N low, the path of NVMe-MI gone, the step kept; the spare's self-test decides whether it is one. -/
def Obligations.MailboxAndFailoverComplete : Prop :=
  (∀ s : State, s.rd F.PUP_STS_MASKED = 0 → s.pup.insvc.length < 128 → s.stopped = false → s.pup.pend ≠ [] →
    Ran (.mailboxPop) s (fun t => ∃ e ∈ s.pup.pend, (∀ x ∈ s.pup.pend, e.ns < x.ns ∨ (e.ns = x.ns ∧ e.src ≤ x.src)) ∧
      t = { s with pup := { s.pup with pend := s.pup.pend.filter (fun x => x.seq != e.seq), insvc := s.pup.insvc ++ [e] } })) ∧
  (∀ s : State, s.rd F.PUP_STS_MASKED = 1 ∨ 128 ≤ s.pup.insvc.length → Ran (.mailboxPop) s (fun t => t = s)) ∧
  (∀ (q : Nat) (s : State), Ran (.mailboxAcknowledge q) s (fun t => (∀ e ∈ t.pup.insvc, e.seq ≠ q) ∧
    t = { s with pup := { s.pup with insvc := s.pup.insvc.filter (fun e => e.seq != q) } })) ∧
  (∀ s : State, s.stopped = false → Ran (.watchdogWrite) s (fun t => t = { s with pup := { s.pup with wdtAt := s.el } })) ∧
  (∀ (pass : Bool) (s : State), s.rd F.PUP_STS_SPARE = 0 → s.stopped = false → s.swapping = false → s.pup.wdtAt + s.rd F.PUP_WDT_PERIOD * 1000000 ≤ s.el →
    Ran (.watchdogExpiry pass) s (fun t => TookOver s t 2 pass)) ∧
  (∀ (pass : Bool) (s : State), s.rd F.PUP_STS_SPARE = 0 → s.stopped = false → s.swapping = false → Ran (.compareMismatch pass) s (fun t => TookOver s t 1 pass)) ∧
  (∀ (pass : Bool) (s : State), s.rd F.PUP_STS_SPARE = 0 → s.stopped = false → Ran (.selfCheckRequest false pass) s (fun t => TookOver s t 3 pass)) ∧
  (∀ (pass : Bool) (s : State), Ran (.selfCheckRequest true pass) s (fun t => t = s)) ∧
  (∀ (pass : Bool) (s : State), s.rd F.PUP_STS_SPARE = 2 → s.stopped = false → s.swapping = false → Ran (.compareMismatch pass) s (fun t =>
    t.rd F.PUP_STS_SPARE = 3 ∧ t.rd F.GEN_STS_MI_AVAIL = 0 ∧ t.pup.kept = some (s.rd F.PWR_STEP_STEP) ∧ Out.pin "FAULT_N" 0 ∈ t.outs ∧
    t.rd F.PUP_STS_ACTIVE = s.rd F.PUP_STS_ACTIVE ∧ t.zn = s.zn)) ∧
  (∀ (pass : Bool) (s : State), s.stopped = false → s.pup.testAt + tenSec ≤ s.el → Ran (.spareSelfTest pass) s (fun t => t.rd F.PUP_STS_SPARE = (if pass then 0 else 2) ∧
    Keeps s t [F.PUP_STS_SPARE] ∧ t = { s with regs := t.regs, pup := { s.pup with testAt := s.el } }))

/-- 16 R352–R354, R359–R361, 17 R391: parity and the exchange of the firmware. A fetch that finds a parity error rewrites its word from the mirror and
touches no other, one that fails again moves to the spare; errors of the DTCM, the caches and the DMA count, and the first is logged; a good copy
fills the alternate bank; GO runs it, and is refused while an entry is in service or a channel runs; COMMIT ends the exchange and answers the Commit that asked for
it; without COMMIT in time the old bank runs again. -/
def Obligations.ParityAndExchangeComplete : Prop :=
  (∀ (off : Nat) (pass : Bool) (s : State), s.stopped = false → s.rd F.PUP_STS_BANK < s.pup.itcm.length →
    Ran (.itcmFetchParity off true pass) s (fun t =>
      (∀ k, k < (s.pup.itcm.getD (s.rd F.PUP_STS_BANK) []).length → (t.pup.itcm.getD (s.rd F.PUP_STS_BANK) []).getD k 0 =
        if k / 4 = off / 4 then (s.img.mirror.getD (s.rd F.PUP_STS_BANK) []).getD k 0 else (s.pup.itcm.getD (s.rd F.PUP_STS_BANK) []).getD k 0) ∧
      (∀ b, b ≠ s.rd F.PUP_STS_BANK → t.pup.itcm.getD b [] = s.pup.itcm.getD b []) ∧
      t.rd F.PUP_PAR_CNT_ITCM = sat 16 (s.rd F.PUP_PAR_CNT_ITCM + 1) ∧
      t = { s with regs := t.regs, pup := { s.pup with itcm := t.pup.itcm } })) ∧
  (∀ (off : Nat) (pass : Bool) (s : State), s.rd F.PUP_STS_SPARE = 0 → s.stopped = false → Ran (.itcmFetchParity off false pass) s (fun t => TookOver s t 4 pass)) ∧
  (∀ (addr : Nat) (s : State), Ran (.dtcmParityError addr false) s (fun t => t.rd F.PUP_PAR_CNT_DTCM = sat 8 (s.rd F.PUP_PAR_CNT_DTCM + 1) ∧
    (s.rd F.PUP_PAR_LOG_VALID ≠ 1 → t.rd F.PUP_PAR_LOG_VALID = 1 ∧ t.rd F.PUP_PAR_LOG_MEM = 1 ∧ t.rd F.PUP_PAR_LOG_ADDR = cut 21 addr) ∧
    (s.rd F.PUP_PAR_LOG_VALID = 1 → Keeps s t [F.PUP_PAR_CNT_DTCM]) ∧
    Keeps s t [F.PUP_PAR_CNT_DTCM, F.PUP_PAR_LOG_VALID, F.PUP_PAR_LOG_MEM, F.PUP_PAR_LOG_ADDR] ∧ t = { s with regs := t.regs }) ∧
    Ran (.dtcmParityError addr true) s (fun t => (s.rd F.PUP_PAR_LOG_VALID ≠ 1 → t.rd F.PUP_PAR_LOG_VALID = 1 ∧ t.rd F.PUP_PAR_LOG_MEM = 4 ∧
      t.rd F.PUP_PAR_LOG_ADDR = cut 21 addr) ∧ Keeps s t [F.PUP_PAR_LOG_VALID, F.PUP_PAR_LOG_MEM, F.PUP_PAR_LOG_ADDR] ∧ t = { s with regs := t.regs })) ∧
  (∀ (core line : Nat) (data : Bool) (s : State), core < 4 → Ran (.pupCacheParityError core data line) s (fun t =>
    t.pup.l1 = s.pup.l1.filter (fun e => !(e.1 / 2 = core / 2 && e.2.1 = data && e.2.2 = line)) ++
      [(core / 2 * 2, data, line), (core / 2 * 2 + 1, data, line)] ∧ t.rd F.PUP_PAR_CNT_DTCM = sat 8 (s.rd F.PUP_PAR_CNT_DTCM + 1) ∧
    Keeps s t [F.PUP_PAR_CNT_DTCM] ∧ t = { s with regs := t.regs, pup := { s.pup with l1 := t.pup.l1 } })) ∧
  (∀ (c done addr : Nat) (s : State), c < 8 → Ran (.dmaHalt c done addr) s (fun t => t.rd F.PUP_DMA_STS_STATE c = 2 ∧
    t.rd F.PUP_DMA_STS_DONE c = cut F.PUP_DMA_STS_DONE.w done ∧ t.rd F.PUP_PAR_CNT_DMA = sat 8 (s.rd F.PUP_PAR_CNT_DMA + 1) ∧
    (∀ e, e ≠ c → t.rd F.PUP_DMA_STS_STATE e = s.rd F.PUP_DMA_STS_STATE e) ∧
    (s.rd F.PUP_PAR_LOG_VALID ≠ 1 → t.rd F.PUP_PAR_LOG_MEM = 3 ∧ t.rd F.PUP_PAR_LOG_ADDR = cut 21 addr) ∧ t = { s with regs := t.regs })) ∧
  (∀ (c : Nat) (s : State), c < 8 → s.stopped = false → s.swapping = false → s.rd F.PUP_STS_BANK ≤ 1 → s.pup.itcm.length = 2 →
    Ran (.alternateBankLoaded c true) s (fun t => t.rd F.PUP_STS_SWAP = 1 ∧ t.rd F.PUP_DMA_STS_STATE c = 0 ∧
      t.pup.itcm.getD (1 - s.rd F.PUP_STS_BANK) [] = s.img.mirror.getD (1 - s.rd F.PUP_STS_BANK) [] ∧
      t.pup.itcm.getD (s.rd F.PUP_STS_BANK) [] = s.pup.itcm.getD (s.rd F.PUP_STS_BANK) [] ∧ Keeps s t [F.PUP_STS_SWAP, F.PUP_DMA_STS_STATE] ∧
      t = { s with regs := t.regs, pup := { s.pup with itcm := t.pup.itcm } }) ∧
    Ran (.alternateBankLoaded c false) s (fun t => t.rd F.PUP_STS_SWAP = 0 ∧ t.rd F.PUP_DMA_STS_STATE c = 0 ∧
      Keeps s t [F.PUP_STS_SWAP, F.PUP_DMA_STS_STATE] ∧ t = { s with regs := t.regs })) ∧
  (∀ (dur dma : Nat) (s : State), s.stopped = false →
    (s.pup.insvc = [] → s.rd F.PUP_STS_SWAP = 1 → (∀ c, c < 8 → bit dma c = false) →
      Ran (.swapGo dur dma) s (fun t => t.rd F.PUP_STS_BANK = cut 1 (1 - s.rd F.PUP_STS_BANK) ∧
        t.rd F.PUP_STS_SWAP = 3 ∧ t.rd F.PUP_STS_MASKED = 0 ∧ t.rd F.PUP_SWAP_DUR = sat 16 dur ∧ t.pup.goAt = s.el ∧ t.pup.wdtAt = s.el ∧
        t.rd F.PUP_VREG_TARGET_MV = max 600 (min (s.rd F.PUP_VREG_TARGET_MV + 15) 850) ∧
        Keeps s t [F.PUP_STS_BANK, F.PUP_STS_SWAP, F.PUP_STS_MASKED, F.PUP_SWAP_DUR, F.PUP_VREG_TARGET_MV, F.PUP_DMA_STS_STATE] ∧
        t = { s with regs := t.regs, pup := t.pup, outs := t.outs })) ∧
    (s.pup.insvc ≠ [] → Ran (.swapGo dur dma) s (fun t => t.rd F.PUP_SWAP_ERR = 1 ∧ Keeps s t [F.PUP_SWAP_ERR, F.PUP_DMA_STS_STATE] ∧
      t = { s with regs := t.regs })) ∧
    (∀ c, c < 8 → bit dma c = true → s.pup.insvc = [] → s.rd F.PUP_STS_SWAP = 1 → Ran (.swapGo dur dma) s (fun t =>
      t.rd F.PUP_SWAP_ERR = 3 ∧ Keeps s t [F.PUP_SWAP_ERR, F.PUP_DMA_STS_STATE] ∧ t = { s with regs := t.regs }))) ∧
  (∀ s : State, s.swapping = true → s.stopped = false → s.pup.exch = none → Ran (.swapCommit) s (fun t => t.rd F.PUP_STS_SWAP = 0 ∧
    Keeps s t [F.PUP_STS_SWAP] ∧ t = { s with regs := t.regs })) ∧
  (∀ (k cid : Nat) (o : Org) (s : State), s.swapping = true → s.stopped = false → s.pup.exch = some (k, o, cid) →
    Ran (.swapCommit) s (fun t => t.pup.exch = none ∧ t.rd F.PUP_STS_SWAP = 0 ∧ t.rd F.IMG_STS_SLOT = cut 1 k ∧ t.zn = s.zn ∧
      Replied t o cid (if s.sameStruct s.img.store then stOk else (1, 0x0B)))) ∧
  (∀ s : State, s.swapping = true → s.pup.goAt + s.rd F.PUP_WDT_COMMIT_MS * 1000000 ≤ s.el → s.pup.exch = none →
    Ran (.swapRollback) s (fun t => t.rd F.PUP_STS_BANK = cut 1 (1 - s.rd F.PUP_STS_BANK) ∧ t.rd F.PUP_STS_SWAP = 4 ∧
      t.rd F.PUP_STS_MASKED = 0 ∧ t.pup.insvc = [] ∧ t.pup.wdtAt = s.el ∧ t.zn = s.zn)) ∧
  (∀ (k cid : Nat) (o : Org) (s : State), s.swapping = true → s.pup.goAt + s.rd F.PUP_WDT_COMMIT_MS * 1000000 ≤ s.el → s.pup.exch = some (k, o, cid) →
    Ran (.swapRollback) s (fun t => t.pup.exch = none ∧ t.rd F.PUP_STS_SWAP = 4 ∧ Replied t o cid (1, 0x07) ∧ t.zn = s.zn))

/-- 16 R364, R365, log 62, log 63: NVMe-MI. What each request of the path answers: the contents of a data structure are a free value, the health
polls, the basic management read and the status codes are the model's reading; a configuration that was set is the one that is kept; bytes of
the VPD written are the bytes kept, and a read answers them; Reset is refused; a message without its integrity check is discarded; a tunnelled admin command runs as the manager's own, anything else is
no admin command; a register read answers the words of its registers, and a register write writes them. -/
def Obligations.ManagementInterfaceComplete : Prop :=
  (∀ (vdm : Bool) (a len : Nat) (ws : List Nat) (s : State), Ran (.registerRead vdm false a len) s (fun t => t = s) ∧
    Ran (.registerWrite vdm false a len ws) s (fun t => t = s) ∧ Ran (.miReset vdm false) s (fun t => t = s)) ∧
  (∀ (vdm : Bool) (ty : Nat) (s : State), MiServed s vdm → Ran (.miReadDataStructure vdm true ty) s (fun t =>
    t = { s with outs := s.outs ++ [.mi 0 [ty, Config.free 22 s.free]], free := s.free + 1 })) ∧
  (∀ (vdm : Bool) (s : State), MiServed s vdm → Ran (.miSubsystemHealthPoll vdm true) s (fun t =>
    t = s.send (.mi 0 [s.critNow, s.kelvin 0, s.rd F.MED_WEAR_PCT_USED, b2n ((s.fn 0).any (fun f => f.rdy))]))) ∧
  (∀ (vdm : Bool) (n : Nat) (f : FnSt) (s : State), MiServed s vdm → s.fn n = some f → Ran (.miControllerHealthPoll vdm true n) s (fun t =>
    t = s.send (.mi 0 [b2n f.rdy, f.shst, s.kelvin 0, s.rd F.MED_WEAR_PCT_USED, s.availSpare, s.critNow]))) ∧
  (∀ (vdm : Bool) (n : Nat) (s : State), MiServed s vdm → s.fn n = none → Ran (.miControllerHealthPoll vdm true n) s (fun t =>
    t = s.send (.mi 4 []))) ∧
  (∀ (vdm : Bool) (id v : Nat) (s : State), MiServed s vdm → 1 ≤ id → id ≤ 3 → Tab.find id s.pup.miCfg = some v →
    Ran (.miConfigurationGet vdm true id) s (fun t => t = s.send (.mi 0 [v]))) ∧
  (∀ (vdm : Bool) (s : State), MiServed s vdm → s.pup.miCfg = [] → Ran (.miConfigurationGet vdm true 3) s (fun t => t = s.send (.mi 0 [64]))) ∧
  (∀ (vdm : Bool) (id v : Nat) (s : State), MiServed s vdm → miCfgTakes id v = true → Ran (.miConfigurationSet vdm true id v) s (fun t =>
    Tab.find id t.pup.miCfg = some v ∧ (∀ i, i ≠ id → Tab.find i t.pup.miCfg = Tab.find i s.pup.miCfg) ∧
    t = { s with pup := { s.pup with miCfg := t.pup.miCfg }, outs := s.outs ++ [.mi 0 []] })) ∧
  (∀ (vdm : Bool) (off len : Nat) (s : State), MiServed s vdm → off + len ≤ 256 → Ran (.miVpdRead vdm true off len) s (fun t =>
    t = s.send (.mi 0 ((List.range len).map (fun k => (Tab.find (off + k) s.pup.vpd).getD 0))))) ∧
  (∀ (vdm : Bool) (off : Nat) (data : List Nat) (s : State), MiServed s vdm → off + data.length ≤ 256 →
    Ran (.miVpdWrite vdm true off data) s (fun t =>
      (∀ k, k < data.length → (Tab.find (off + k) t.pup.vpd).getD 0 = cut 8 (data.getD k 0)) ∧
      (∀ a, a < off ∨ off + data.length ≤ a → Tab.find a t.pup.vpd = Tab.find a s.pup.vpd) ∧
      t = { s with pup := { s.pup with vpd := t.pup.vpd }, outs := s.outs ++ [.mi 0 []] })) ∧
  (∀ (vdm : Bool) (s : State), MiServed s vdm → Ran (.miReset vdm true) s (fun t => t = s.send (.mi 4 []))) ∧
  (∀ (vdm : Bool) (o : Org) (cid : Nat) (s : State), MiServed s vdm → Ran (.miTunnelledAdmin vdm true (.getFeaturesTimestamp o cid)) s (fun t =>
    Machine.exec (.getFeaturesTimestamp .mi cid) s = .next t)) ∧
  (∀ (vdm : Bool) (s : State), MiServed s vdm → Ran (.miTunnelledAdmin vdm true .gpfPhase1) s (fun t => Refuses s t .mi 0 stOpcode 0)) ∧
  (∀ s : State, MiServed s false → Ran (.smbusBasicManagementRead) s (fun t =>
    t = s.send (.mi 0 [b2n s.ready, s.critNow, s.kelvin 0, s.rd F.MED_WEAR_PCT_USED]))) ∧
  (∀ (vdm : Bool) (a len : Nat) (s : State), MiServed s vdm → regSpan a len = true → Ran (.registerRead vdm true a len) s (fun t =>
    (∃ ws : List Nat, ws.length = len / 4 ∧ t.outs = s.outs ++ [.mi 0 ws] ∧ (len = 4 → s.gen.latch = [] → ws = [s.peek 1 a])) ∧
    t.zn = s.zn)) ∧
  (∀ (vdm : Bool) (a len : Nat) (s : State), MiServed s vdm → regSpan a len = false → Ran (.registerRead vdm true a len) s (fun t =>
    t = s.send (.mi 4 []))) ∧
  (∀ (vdm : Bool) (w : Nat) (s : State), MiServed s vdm → Ran (.registerWrite vdm true R.TIM_PPS_OFS.base 4 [w]) s (fun t =>
    t.rd F.TIM_PPS_OFS_OFS = cut 32 w ∧ Keeps s t [F.TIM_PPS_OFS_OFS] ∧ t.outs = s.outs ++ [.mi 0 []] ∧
    t = { s with regs := t.regs, outs := t.outs, gen := t.gen }))

/-- 23 R489–R499, 00 R5, R6, R8, 17 R386, R387: the register unit. A write of BAR0 reaches its register and no other; one that is misaligned or partial
writes nothing and is logged; during a controller reset none reaches a register outside the GEN block; a read of a counter answers it and leaves
0; a reserved address ignores a write; a controller reset that is accepted leaves CAUSE, the pending bit, the phase and the step, and one with
another key only sets WR_IGN. -/
def Obligations.RegisterAccessComplete : Prop :=
  (∀ (v : Nat) (s : State), WritesOn s 0 → Ran (.managementRegisterWrite R.TIM_PPS_OFS.base 4 true v) s (fun t =>
    t.rd F.TIM_PPS_OFS_OFS = cut 32 v ∧ Keeps s t [F.TIM_PPS_OFS_OFS] ∧ t = { s with regs := t.regs, gen := t.gen })) ∧
  (∀ (a v : Nat) (s : State), WritesOn s 0 → a < 2 ^ 26 → a % 4 = 0 → locate a regTable = none →
    Ran (.managementRegisterWrite a 4 true v) s (fun t => t = { s with gen := t.gen })) ∧
  (∀ (a len v : Nat) (full : Bool) (s : State), s.barUp = true → a < 2 ^ 26 → (len ≠ 4 ∧ len ≠ 8) ∨ a % len ≠ 0 →
    Ran (.managementRegisterWrite a len full v) s (fun t => Logged s t 3 true a ∧ t = { s with regs := t.regs, gen := t.gen })) ∧
  (∀ (a v : Nat) (s : State), s.barUp = true → a < 2 ^ 26 → a % 4 = 0 →
    Ran (.managementRegisterWrite a 4 false v) s (fun t => Logged s t 1 true a ∧ t = { s with regs := t.regs, gen := t.gen })) ∧
  (∀ (a v : Nat) (s : State), s.barUp = true → s.gen.inReset = true → 2 ^ 16 ≤ a → a < 2 ^ 26 → a % 4 = 0 →
    Ran (.managementRegisterWrite a 4 true v) s (fun t => Logged s t 5 true a ∧ t = { s with regs := t.regs, gen := t.gen })) ∧
  (∀ s : State, s.barUp = true → s.gen.latch = [] → Ran (.rcFieldRead R.MCACHE_POISON.base 4 true) s (fun t =>
    t.outs = s.outs ++ [.rd R.MCACHE_POISON.base (cut 32 (s.rd F.MCACHE_POISON_CNT))] ∧ t.rd F.MCACHE_POISON_CNT = 0 ∧
    Keeps s t [F.MCACHE_POISON_CNT] ∧ t = { s with regs := t.regs, outs := t.outs })) ∧
  (∀ (a len : Nat) (full : Bool) (s : State), s.barUp = true → a < 2 ^ 26 → 8 < len → Ran (.rcFieldRead a len full) s (fun t =>
    Logged s t 4 false a ∧ t.outs = s.outs ++ [.ca a] ∧ t = { s with regs := t.regs, outs := t.outs, gen := t.gen })) ∧
  (∀ (p : Nat) (s : State), WritesOn s p → s.resetRefused = false → s.swapping = false → s.dirtyLines = [] → s.cap.streams = [] →
    Ran (.genCtrlReset p 0xA5C3) s (fun t => t.rd F.GEN_STS_CAUSE = 4 ∧ t.rd F.GEN_STS_RST_PEND = 1 ∧ t.rd F.IMG_STS_PHASE = 0 ∧
      t.rd F.IMG_STS_STEP = (if s.rd F.IMG_CTL_NEXT_PHASE = 0 then 9 else 8) ∧
      t.rd F.GEN_RST_CNT_CTRL = sat 16 (s.rd F.GEN_RST_CNT_CTRL + 1) ∧ t.rd F.GEN_STS_MI_AVAIL = 0 ∧ t.img.admReady = false ∧
      t.gen.inReset = true ∧ t.img.target = s.rd F.IMG_CTL_NEXT_PHASE ∧ Out.pin "FAULT_N" 0 ∈ t.outs ∧ t.zn.ud = s.zn.ud)) ∧
  (∀ (p key : Nat) (s : State), WritesOn s p → cut 16 key ≠ 0xA5C3 → Ran (.genCtrlReset p key) s (fun t =>
    t.rd F.GEN_STS_WR_IGN = 1 ∧ Keeps s t [F.GEN_STS_WR_IGN] ∧ t = { s with regs := t.regs, gen := t.gen }))

/-- 03 R66, R83, 09 R223, R226, 11 R272, R273, 23 R495: registers whose write acts or may be refused. A class target that keeps the targets
rising is taken, another sets LC_ERR; a vector no completion queue uses is taken, another sets VEC_ERR; marks of free space in their order are
taken, others set CFG_ERR; a die's retirement retires it and counts; a health window read in service sets DENIED. -/
def Obligations.ActingRegistersComplete : Prop :=
  (∀ (p k us : Nat) (s : State), WritesOn s p → k < 8 →
    (∀ i, i < 6 → (if i = k then cut 24 us else s.rd F.LGR_LC_TGT_TARGET i) ≤ (if i + 1 = k then cut 24 us else s.rd F.LGR_LC_TGT_TARGET (i + 1))) →
    Ran (.lgrLcTgtWrite p k us) s (fun t => t.rd F.LGR_LC_TGT_TARGET k = cut 24 us ∧
      (∀ i, i ≠ k → t.rd F.LGR_LC_TGT_TARGET i = s.rd F.LGR_LC_TGT_TARGET i) ∧ Keeps s t [F.LGR_LC_TGT_TARGET] ∧
      t = { s with regs := t.regs, gen := t.gen })) ∧
  (∀ (p us : Nat) (s : State), WritesOn s p → cut 24 us < s.rd F.LGR_LC_TGT_TARGET 2 → Ran (.lgrLcTgtWrite p 3 us) s (fun t =>
    t.rd F.LGR_STS_LC_ERR = 1 ∧ Keeps s t [F.LGR_STS_LC_ERR] ∧ t = { s with regs := t.regs, gen := t.gen })) ∧
  (∀ (p k vec : Nat) (en : Bool) (s : State), WritesOn s p → k < 8 → (∀ c ∈ s.sl.cqs, c.func = 0 → c.vec ≠ cut 11 vec) →
    Ran (.lgrEvtVecWrite p k vec en) s (fun t => t.rd F.LGR_EVT_VEC_VECTOR k = cut 11 vec ∧ t.rd F.LGR_EVT_VEC_EN k = b2n en ∧
      (∀ i, i ≠ k → t.rd F.LGR_EVT_VEC_VECTOR i = s.rd F.LGR_EVT_VEC_VECTOR i ∧ t.rd F.LGR_EVT_VEC_EN i = s.rd F.LGR_EVT_VEC_EN i) ∧
      Keeps s t [F.LGR_EVT_VEC_VECTOR, F.LGR_EVT_VEC_EN] ∧ t = { s with regs := t.regs, gen := t.gen })) ∧
  (∀ (p k vec : Nat) (en : Bool) (c : CQ) (s : State), WritesOn s p → k < 8 → c ∈ s.sl.cqs → c.func = 0 → c.vec = cut 11 vec →
    Ran (.lgrEvtVecWrite p k vec en) s (fun t => t.rd F.LGR_STS_VEC_ERR = 1 ∧ Keeps s t [F.LGR_STS_VEC_ERR] ∧
      t = { s with regs := t.regs, gen := t.gen })) ∧
  (∀ (p low crit start ahead : Nat) (s : State), WritesOn s p → cut 8 crit < cut 8 low → cut 8 low ≤ cut 8 start →
    Ran (.ftlGcCfgWrite p low crit start ahead) s (fun t => t.rd F.FTL_GC_CFG_LOW = cut 8 low ∧ t.rd F.FTL_GC_CFG_CRIT = cut 8 crit ∧
      t.rd F.FTL_GC_CFG_GC_START = cut 8 start ∧ t.rd F.FTL_GC_CFG_ERASE_AHEAD = cut 4 ahead ∧
      Keeps s t [F.FTL_GC_CFG_LOW, F.FTL_GC_CFG_CRIT, F.FTL_GC_CFG_GC_START, F.FTL_GC_CFG_ERASE_AHEAD] ∧
      t = { s with regs := t.regs, gen := t.gen })) ∧
  (∀ (p low crit start ahead : Nat) (s : State), WritesOn s p → ¬(cut 8 crit < cut 8 low ∧ cut 8 low ≤ cut 8 start) →
    Ran (.ftlGcCfgWrite p low crit start ahead) s (fun t => t.rd F.FTL_STS_CFG_ERR = 1 ∧ Keeps s t [F.FTL_STS_CFG_ERR] ∧
      t = { s with regs := t.regs, gen := t.gen })) ∧
  (∀ (p d : Nat) (s : State), WritesOn s p → d < 4096 → (s.dieOf d).present = true → (s.dieOf d).retired = false →
    Ran (.medDieRetireGo p d) s (fun t => (t.dieOf d).retired = true ∧ t.rd F.MED_DESC_RETIRED = cut 13 (s.rd F.MED_DESC_RETIRED + 1) ∧
      t.zn.ns = s.zn.ns)) ∧
  (∀ (p w : Nat) (s : State), p ≤ 1 → s.pathUp p = true → s.rd F.IMG_STS_PHASE = 1 → Ran (.healthWindowRead p w) s (fun t =>
    t.rd F.MED_HLTH_STS_DENIED = 1 ∧ Keeps s t [F.MED_HLTH_STS_DENIED] ∧ t.zn = s.zn))

/-- 12 R280, R281, R288–R293: the cipher. A known-answer test that passes leaves its unit in service, one that fails fences its lane; a health test
of the entropy source that fails sets RNG_FAIL and raises RNG_FAIL, and 1,024 passes in a row clear it; a derivation that ends makes its slot
VALID, and one that gave equal XTS keys frees it and counts a fault. -/
def Obligations.CipherComplete : Prop :=
  (∀ (u : Nat) (s : State), Ran (.cipherKnownAnswerTest u true) s (fun t => bit t.cip.failing u = false ∧
    (∀ i, i ≠ u → bit t.cip.failing i = bit s.cip.failing i) ∧ t = { s with cip := { s.cip with failing := t.cip.failing } })) ∧
  (∀ (u : Nat) (s : State), u < 64 → (s.unitOf 0 u).state = 0 → s.cap.blks = [] → Ran (.cipherKnownAnswerTest u false) s (fun t =>
    bit t.cip.failing u = true ∧ (t.unitOf 0 u).state ≠ 0 ∧ (t.unitOf 0 u).rsn = 1 ∧ t.laneUp u = false ∧
    t.rd F.FRL_LSTS_FENCE_RSN u = 1 ∧ t.zn = s.zn)) ∧
  (∀ s : State, s.rd F.CIP_STS_RNG_FAIL = 0 → s.ras.evq.length < 1024 → Ran (.rngFail) s (fun t => t.rd F.CIP_STS_RNG_FAIL = 1 ∧
    t.cip.passes = 0 ∧ t.ras.evq = s.ras.evq ++ [EvEnt.mk s.tns evRngFail 0xFFFF s.ras.evSeq 0] ∧ t.zn = s.zn)) ∧
  (∀ (n : Nat) (s : State), s.rd F.CIP_STS_RNG_FAIL = 1 → 1024 ≤ s.cip.passes + n → Ran (.rngFailClear n) s (fun t =>
    t.rd F.CIP_STS_RNG_FAIL = 0 ∧ Keeps s t [F.CIP_STS_RNG_FAIL] ∧ t = { s with regs := t.regs, cip := { s.cip with passes := 0 } })) ∧
  (∀ (n : Nat) (s : State), s.rd F.CIP_STS_RNG_FAIL = 1 → s.cip.passes + n < 1024 → Ran (.rngFailClear n) s (fun t =>
    t = { s with cip := { s.cip with passes := s.cip.passes + n } })) ∧
  (∀ (i : Nat) (k : KeySlot) (s : State), Tab.find i s.cip.slots = some k → k.st = 1 → k.dying = false → (∀ c ∈ s.zn.cmds, c.st ≠ .key) →
    Ran (.keyDerivationDone i false) s (fun t => Tab.find i t.cip.slots = some { k with st := 2 } ∧
      (∀ j, j ≠ i → Tab.find j t.cip.slots = Tab.find j s.cip.slots) ∧ t = { s with cip := { s.cip with slots := t.cip.slots } })) ∧
  (∀ (i : Nat) (k : KeySlot) (s : State), Tab.find i s.cip.slots = some k → k.st = 1 → k.dying = false → k.purpose = 1 →
    (∀ c ∈ s.zn.cmds, c.st ≠ .key) → Ran (.keyDerivationDone i true) s (fun t => Tab.find i t.cip.slots = none ∧
      (∀ j, j ≠ i → Tab.find j t.cip.slots = Tab.find j s.cip.slots) ∧ t.rd F.CIP_FLT_CNT_CNT = sat 32 (s.rd F.CIP_FLT_CNT_CNT + 1) ∧
      (s.rd F.CIP_FLT_INFO_VALID = 0 → t.rd F.CIP_FLT_INFO_VALID = 1 ∧ t.rd F.CIP_FLT_INFO_KIND = 1) ∧
      t = { s with regs := t.regs, cip := { s.cip with slots := t.cip.slots } }))

/-- 15 R335–R341: DRAM. A refresh is postponed while urgent requests wait and fewer than four are owed, and otherwise what is owed is issued with
it; a rank that reports above 85 °C doubles its refresh, and a second report at or below ends that; an activation opens its row and is counted in
its bank's table and its rolling count, and one that reaches the threshold, or that the devices' registers call for, issues Refresh Management; the end of a refresh window clears a rank's tables; the scrub asks for burst after
burst on its port, with its arrival and the deadline of the port, counts what it corrects, and raises DRAM_UE for what it cannot. -/
def Obligations.DramComplete : Prop :=
  (∀ (ch rk : Nat) (s : State), s.rankOk ch rk = true → s.drc.sref = false → (s.rank (ch * 2 + rk)).owed < 4 →
    Ran (.dramRefresh ch rk true) s (fun t => (t.rank (ch * 2 + rk)).owed = (s.rank (ch * 2 + rk)).owed + 1 ∧
      (∀ i, i ≠ ch * 2 + rk → t.rank i = s.rank i) ∧ t = { s with drc := { s.drc with ranks := t.drc.ranks } })) ∧
  (∀ (ch rk : Nat) (s : State), s.rankOk ch rk = true → s.drc.sref = false → s.rankUrgent ch rk = false →
    s.rd F.DRC_REF_CFG_MODE ≠ 0 → Ran (.dramRefresh ch rk false) s (fun t => (t.rank (ch * 2 + rk)).owed = 0 ∧
      t.outs = s.outs ++ List.replicate ((s.rank (ch * 2 + rk)).owed + 1) (.dram ch "REFab" [rk]) ∧
      t = { s with drc := { s.drc with ranks := t.drc.ranks }, outs := t.outs })) ∧
  (∀ (ch rk : Nat) (s : State), s.rankOk ch rk = true → s.drc.sref = false → s.rankUrgent ch rk = false →
    s.rd F.DRC_REF_CFG_MODE = 0 → (s.rank (ch * 2 + rk)).owed = 0 → Ran (.dramRefresh ch rk false) s (fun t => t.outs = s.outs ++ [.dram ch "REFsb" [rk, (s.rank (ch * 2 + rk)).pos]] ∧
      (t.rank (ch * 2 + rk)).pos = ((s.rank (ch * 2 + rk)).pos + 1) % 4 ∧
      t = { s with drc := { s.drc with ranks := t.drc.ranks }, outs := t.outs })) ∧
  (∀ (ch code : Nat) (s : State), ch < 8 → s.rd F.DRC_CFG_DUAL = 0 → Ran (.mr4Poll ch [(code, true, false)]) s (fun t =>
    (t.rank (ch * 2)).dbl = true ∧ (t.rank (ch * 2)).cool = 0 ∧ t.rd F.DRC_CH_STS_MR4_MAX ch = cut F.DRC_CH_STS_MR4_MAX.w code ∧
    t.rd F.DRC_CH_STS_DOUBLE ch = 1 ∧ t.outs = s.outs ∧ t.zn = s.zn)) ∧
  (∀ (ch code : Nat) (s : State), ch < 8 → s.rd F.DRC_CFG_DUAL = 0 → (s.rank (ch * 2)).dbl = true → (s.rank (ch * 2)).cool = 1 →
    Ran (.mr4Poll ch [(code, false, false)]) s (fun t => (t.rank (ch * 2)).dbl = false ∧ t.outs = s.outs ∧ t.zn = s.zn)) ∧
  (∀ (dpa : Nat) (s : State), (∀ e ∈ (Tab.find (s.bankOf dpa) s.drc.act).getD [], e.1 ≠ s.rowOfDpa dpa) →
    ((Tab.find (s.bankOf dpa) s.drc.act).getD []).length < 32 → 1 < s.rd F.DRC_REF_CFG_ACT_TH → Ran (.dramActivate dpa false) s (fun t =>
      Tab.find (s.bankOf dpa) t.drc.act = some ((Tab.find (s.bankOf dpa) s.drc.act).getD [] ++ [(s.rowOfDpa dpa, 1)]) ∧
      Tab.find (s.bankOf dpa) t.drc.raa = some ((Tab.find (s.bankOf dpa) s.drc.raa).getD 0 + 1) ∧
      t.openRow (s.bankOf dpa) = some (s.rowOfDpa dpa, 0) ∧
      t = { s with drc := { s.drc with act := t.drc.act, raa := t.drc.raa, rows := t.drc.rows } })) ∧
  (∀ (dpa : Nat) (s : State), Ran (.dramActivate dpa true) s (fun t => Tab.find (s.bankOf dpa) t.drc.raa = some 0 ∧
    Out.dram (s.chOf dpa) "RFMsb" [s.bankOf dpa] ∈ t.outs ∧ t.openRow (s.bankOf dpa) = some (s.rowOfDpa dpa, 0) ∧
    t.rd F.DRC_RFM_CNT_RAA (s.chOf dpa) = sat F.DRC_RFM_CNT_RAA.w (s.rd F.DRC_RFM_CNT_RAA (s.chOf dpa) + 1) ∧ t.zn = s.zn)) ∧
  (∀ (dpa n : Nat) (s : State), ((Tab.find (s.bankOf dpa) s.drc.act).getD []).find? (fun e => e.1 = s.rowOfDpa dpa) = some (s.rowOfDpa dpa, n) →
    s.rd F.DRC_REF_CFG_ACT_TH ≤ n + 1 → Ran (.dramActivate dpa false) s (fun t =>
      (∀ e ∈ (Tab.find (s.bankOf dpa) t.drc.act).getD [], e.1 = s.rowOfDpa dpa → e.2 = 0) ∧
      t.outs = s.outs ++ [.dram (s.chOf dpa) "RFMsb" [s.bankOf dpa]] ∧
      t.rd F.DRC_RFM_CNT_TABLE (s.chOf dpa) = sat F.DRC_RFM_CNT_TABLE.w (s.rd F.DRC_RFM_CNT_TABLE (s.chOf dpa) + 1))) ∧
  (∀ (ch rk : Nat) (s : State), (s.rank (ch * 2 + rk)).windowEnd ≤ s.el →
    Ran (.activationTableClear ch rk) s (fun t => (∀ e ∈ t.drc.act, e.1 / 64 ≠ ch * 2 + rk) ∧ (t.rank (ch * 2 + rk)).clrAt = s.el ∧
      t = { s with drc := { s.drc with act := s.drc.act.filter (fun e => e.1 / 64 != ch * 2 + rk), ranks := t.drc.ranks } })) ∧
  (∀ (sym rg a b : Nat) (s : State), s.scrubOn = true → s.drc.poison.contains (s.drc.scrub % s.bursts) = false →
    (s.drc.scrub % s.bursts + 1) % 16384 ≠ 0 → s.dreqs (s.chOf (s.drc.scrub % s.bursts * 64)) = [] →
    Ran (.dramScrubRead 1 0 sym rg a b) s (fun t =>
      t.drc.scrub = (s.drc.scrub % s.bursts + 1) % s.bursts ∧ Keeps s t [F.DRC_SCRUB_CFG_PASS_PCT] ∧
      t.rd F.DRC_SCRUB_CFG_PASS_PCT = cut F.DRC_SCRUB_CFG_PASS_PCT.w (t.drc.scrub * 100 / s.bursts) ∧ (∀ c, t.dreqs c = s.dreqs c) ∧
      t.openRow (s.bankOf (s.drc.scrub % s.bursts * 64)) = none ∧
      t = { s with regs := t.regs, drc := { s.drc with scrub := t.drc.scrub, queue := t.drc.queue, rows := t.drc.rows, drain := t.drc.drain } })) ∧
  (∀ (oc sym rg a b : Nat) (s : State), s.scrubOn = true → (s.drc.scrub % s.bursts + 1) % 16384 ≠ 0 →
    Ran (.dramScrubRead 0 oc sym rg a b) s (fun t => t.dreqs (s.chOf (s.drc.scrub % s.bursts * 64)) =
      s.dreqs (s.chOf (s.drc.scrub % s.bursts * 64)) ++
        [⟨4, s.drc.scrub % s.bursts * 64, s.el, s.el + s.rd F.DRC_PORT_TGT_TGT_NS 4, .scrub oc sym rg a b⟩] ∧ t.outs = s.outs ∧ t.zn = s.zn)) ∧
  (∀ (sym rg a b : Nat) (s : State), s.scrubOn = true → s.drc.poison.contains (s.drc.scrub % s.bursts) = false →
    s.dreqs (s.chOf (s.drc.scrub % s.bursts * 64)) = [] → Ran (.dramScrubRead 1 1 sym rg a b) s (fun t =>
      t.drc.scrub = (s.drc.scrub % s.bursts + 1) % s.bursts ∧
      t.rd F.DRC_ECC_CNT_CE (s.chOf (s.drc.scrub % s.bursts * 64)) =
        sat F.DRC_ECC_CNT_CE.w (s.rd F.DRC_ECC_CNT_CE (s.chOf (s.drc.scrub % s.bursts * 64)) + 1) ∧
      t.rd F.RAS_MEM_CNT_CE 13 = sat F.RAS_MEM_CNT_CE.w (s.rd F.RAS_MEM_CNT_CE 13 + 1) ∧ t.ras.ceSec = s.ras.ceSec + 1 ∧ t.zn = s.zn)) ∧
  (∀ (sym rg a b : Nat) (s : State), s.scrubOn = true → s.ras.evq.length < 1024 → s.dreqs (s.chOf (s.drc.scrub % s.bursts * 64)) = [] →
    Ran (.dramScrubRead 1 2 sym rg a b) s (fun t =>
      t.rd F.DRC_ECC_CNT_UE (s.chOf (s.drc.scrub % s.bursts * 64)) =
        sat F.DRC_ECC_CNT_UE.w (s.rd F.DRC_ECC_CNT_UE (s.chOf (s.drc.scrub % s.bursts * 64)) + 1) ∧
      t.ras.evq = s.ras.evq ++ [EvEnt.mk s.tns evDramUe 0xFFFF s.ras.evSeq (s.drc.scrub % s.bursts * 64)] ∧ t.zn = s.zn))

/-- 14 R319–R324, 06 R160, 15 R333, R334, R339, 02 R45: the CXL window. A read that the host's decoder and an entry of its slice serve is a request on
port 2 with its arrival and the port's deadline; the channel's most urgent request is served first, and a burst answered, or as poison where
it cannot be corrected; a read without a decoder answers poison and counts; a write changes the bytes that its mask names of one burst and no other, marks a persistent granule
dirty, and waits at DIRTY_MAX; a granule's write-back starts once and, done, leaves it clean; GPF Phase 1 is answered at once, Phase 2 when
nothing is dirty or after every write-back. -/
def Obligations.CxlComplete : Prop :=
  (∀ (hpa base size : Nat) (e : XltEnt) (s : State), CxlServes s hpa base size e → e.rd = true →
    s.drc.poison.contains ((hpa - base) / 64) = false → s.dreqs (s.chOf (hpa - base)) = [] → Ran (.cxlMemRead hpa 1 0 0) s (fun t =>
      t.outs = s.outs ++ [.pcie "CXL data" [hpa, s.burst64 ((hpa - base) / 64)]] ∧ (∀ c, t.dreqs c = s.dreqs c) ∧
      t = { s with
              outs := t.outs
              pwr := { s.pwr with busyAt := s.el }
              drc := { s.drc with queue := t.drc.queue, rows := t.drc.rows, drain := t.drc.drain } })) ∧
  (∀ (hpa base size err sym : Nat) (e : XltEnt) (s : State), CxlServes s hpa base size e → e.rd = true →
    s.dreqs (s.chOf (hpa - base)) = [] → 2 ≤ err → s.ras.evq.length < 1024 → Ran (.cxlMemRead hpa 1 err sym) s (fun t =>
      Out.pcie "CXL poison" [hpa] ∈ t.outs ∧ (hpa - base) / 64 ∈ t.drc.poison ∧
      t.ras.evq = s.ras.evq ++ [EvEnt.mk s.tns evDramUe 0xFFFF s.ras.evSeq ((hpa - base) / 64 * 64)] ∧ t.zn = s.zn)) ∧
  (∀ (hpa base size : Nat) (e : XltEnt) (s : State), CxlServes s hpa base size e → e.rd = true → Ran (.cxlMemRead hpa 0 0 0) s (fun t =>
    t.dreqs (s.chOf (hpa - base)) = s.dreqs (s.chOf (hpa - base)) ++
      [⟨2, hpa - base, s.el, s.el + s.rd F.DRC_PORT_TGT_TGT_NS 2, .read hpa 0 0⟩] ∧ t.outs = s.outs ∧ t.zn = s.zn)) ∧
  (∀ (hpa base size ha : Nat) (a : DReq) (e : XltEnt) (s : State), CxlServes s hpa base size e → e.rd = true →
    s.dreqs (s.chOf (hpa - base)) = [a] → a.act = .read ha 0 0 → s.drc.poison.contains (a.dpa / 64) = false →
    s.urg s.el (s.el + s.rd F.DRC_PORT_TGT_TGT_NS 2) < s.drcUrg a → Ran (.cxlMemRead hpa 1 0 0) s (fun t =>
      t.outs = s.outs ++ [.pcie "CXL data" [ha, s.burst64 (a.dpa / 64)]] ∧
      t.dreqs (s.chOf (hpa - base)) = [⟨2, hpa - base, s.el, s.el + s.rd F.DRC_PORT_TGT_TGT_NS 2, .read hpa 0 0⟩])) ∧
  (∀ (hpa : Nat) (s : State), s.cxlOn = true → s.stg.commits = true → s.awake = true → s.pcx.hdm = none → Ran (.cxlMemRead hpa 1 0 0) s (fun t =>
    Out.pcie "CXL poison" [hpa] ∈ t.outs ∧ t.rd F.SLI_XLT_FLT_CNT_CNT 0 = sat F.SLI_XLT_FLT_CNT_CNT.w (s.rd F.SLI_XLT_FLT_CNT_CNT 0 + 1) ∧
    t.zn = s.zn)) ∧
  (∀ (hpa data mask base size : Nat) (e : XltEnt) (s : State), CxlServes s hpa base size e → e.wr = true → s.drc.poison = [] →
    (s.persistent (hpa - base) = true → s.stg.dirty.length < s.dirtyMax) → s.pcx.heldWr = [] → s.dreqs (s.chOf (hpa - base)) = [] →
    Ran (.cxlMemWrite hpa data mask 1 0 0) s (fun t =>
      (∀ i, i < 64 → bits (t.burst64 ((hpa - base) / 64)) (8 * i) 8 =
        if bit mask i then bits data (8 * i) 8 else bits (s.burst64 ((hpa - base) / 64)) (8 * i) 8) ∧
      (∀ b, b ≠ (hpa - base) / 64 → t.burst64 b = s.burst64 b) ∧
      (s.persistent (hpa - base) = true → (hpa - base) / 65536 ∈ t.stg.dirty) ∧ t.outs = s.outs ++ [.pcie "CXL write done" [hpa]] ∧
      t.regs = s.regs ∧ t.zn = s.zn)) ∧
  (∀ (hpa data mask base size : Nat) (e : XltEnt) (s : State), CxlServes s hpa base size e → e.wr = true → s.persistent (hpa - base) = true →
    s.dirtyMax ≤ s.stg.dirty.length → s.dreqs (s.chOf (hpa - base)) = [] → Ran (.cxlMemWrite hpa data mask 1 0 0) s (fun t =>
      t.pcx = { s.pcx with heldWr := s.pcx.heldWr ++ [(hpa - base, data, mask, 0, 0)] } ∧ t.stg = s.stg ∧ t.outs = s.outs ∧ t.regs = s.regs ∧
      t.zn = s.zn)) ∧
  (∀ (g : Nat) (s : State), g ∈ s.stg.dirty → g ∉ s.pcx.wb → Ran (.cxlGranuleWriteback g false) s (fun t =>
    t.pcx = { s.pcx with wb := s.pcx.wb ++ [g] } ∧ t.stg = s.stg ∧ t.zn = s.zn ∧ t.outs = s.outs)) ∧
  (∀ (g : Nat) (s : State), g ∈ s.pcx.wb → s.pcx.heldWr = [] → s.pcx.gpf = none → Ran (.cxlGranuleWriteback g true) s (fun t =>
    g ∉ t.stg.dirty ∧ g ∉ t.pcx.wb ∧ t.pcx.win = s.pcx.win ∧ t.outs = s.outs ∧ t.regs = s.regs ∧
    (∀ x, x ≠ g → (x ∈ t.stg.dirty ↔ x ∈ s.stg.dirty)) ∧ ∀ b, inGran g b = true → Tab.find b t.pcx.img = Tab.find b s.pcx.win)) ∧
  (∀ s : State, s.cxlOn = true → Ran (.gpfPhase1) s (fun t => t = s.send (.pcie "GPF1 response" []))) ∧
  (∀ s : State, s.cxlOn = true → s.pcx.gpf = none → s.stg.dirty = [] → Ran (.gpfPhase2) s (fun t =>
    t = s.send (.pcie "GPF2 response" []))) ∧
  (∀ s : State, s.cxlOn = true → s.pcx.gpf = none → s.stg.dirty ≠ [] → Ran (.gpfPhase2) s (fun t =>
    t.pcx.gpf = some s.stg.dirty ∧ (∀ g ∈ s.stg.dirty, g ∈ t.pcx.wb) ∧ t.stg = s.stg ∧ t.outs = s.outs ∧ t.zn = s.zn)) ∧
  (∀ (base size : Nat) (s : State), s.rd F.PCX_LINK_STS_UP 0 = 1 → s.rd F.PCX_CXL_STS_ACTIVE = 1 → Ran (.hdmDecoderCommit base size) s (fun t =>
    t = { s with pcx := { s.pcx with hdm := some (base, size) } }))

/-- 14 R314, R325, R326, 02 R56, 23 R499: resets of the host port. A configuration request before the tables are applied gets Request Retry Status; PERST_N
that falls takes its link down, resets its PF and the PF's VFs, counts and is the cause; PERST_N that rises trains the link at a rate and a width that it may run at; an FLR resets a
function and leaves the link up; clearing CC.EN ends a function's queues and leaves its configuration space. User data survives each. -/
def Obligations.FunctionResetsComplete : Prop :=
  (∀ (n r v : Nat) (s : State), s.tables = false → s.dead = false → Ran (.configurationRequest n r v) s (fun t => t = s.send (.pcie "RRS" [n]))) ∧
  (∀ (n v : Nat) (f : FnSt) (s : State), s.tables = true → s.fn n = some f → Ran (.configurationRequest n 1 v) s (fun t =>
    t.fn n = some { f with mse := v != 0 } ∧ t = { s with outs := s.outs ++ [.pcie "configuration" [n, 1]], fns := t.fns })) ∧
  (∀ (l : Nat) (f : FnSt) (s : State), l < 2 → (l = 1 → s.rd F.PCX_CFG_BIFUR = 1) → s.pcx.perst.getD l false = true → s.img.por = true →
    s.pwr.jack = false → s.fn (s.pfIdx l) = some f → Ran (.perstNAssert l true) s (fun t =>
      t.pcx.perst.getD l true = false ∧ t.rd F.PCX_LINK_STS_UP l = 0 ∧ t.rd F.GEN_STS_CAUSE = 2 ∧
      t.rd F.PCX_RST_CNT_PERST = sat F.PCX_RST_CNT_PERST.w (s.rd F.PCX_RST_CNT_PERST + 1) ∧
      (∃ g, t.fn (s.pfIdx l) = some g ∧ g.ccEn = false ∧ g.rdy = false ∧ g.bme = false ∧ g.mse = false ∧ g.vfEn = false) ∧
      (∀ e ∈ t.fns, ¬(s.pfIdx l < e.1 ∧ e.1 ≤ s.pfIdx l + s.totalVfs l)) ∧ t.zn.ud = s.zn.ud)) ∧
  (∀ (l speed width ns : Nat) (flit cxl : Bool) (s : State), l < 2 → s.pcx.perst = [false, false] → s.pwr.jack = false → s.img.por = true →
    s.img.rom = false → (l = 1 → s.rd F.PCX_CFG_BIFUR = 1) → s.awake = true → s.linkMay speed width = true → 14 ∉ s.img.noCal →
    Ran (.perstNDeassert l speed width flit cxl ns) s (fun t =>
      t.pcx.perst.getD l false = true ∧ t.rd F.PCX_LINK_STS_UP l = 1 ∧ t.rd F.PCX_LINK_STS_SPEED l = speed ∧
      t.rd F.PCX_LINK_STS_WIDTH l = width ∧ t.rd F.PCX_LINK_STS_FLIT l = b2n (flit && speed = 6) ∧
      t.fns = s.fns ∧ t.zn = s.zn ∧ t.outs = s.outs)) ∧
  (∀ (pf : Nat) (f : FnSt) (s : State), s.pfs.contains pf = true → s.fn (s.pfIdx pf) = some f → Ran (.flrPf pf) s (fun t =>
    (∃ g, t.fn (s.pfIdx pf) = some g ∧ g.ccEn = false ∧ g.rdy = false ∧ g.bme = false ∧ g.mse = false ∧ g.vfEn = false ∧ g.held = []) ∧
    (∀ e ∈ t.fns, ¬(s.pfIdx pf < e.1 ∧ e.1 ≤ s.pfIdx pf + s.totalVfs pf)) ∧ (pf = 0 → t.rd F.GEN_STS_CAUSE = 3 ∧ t.pcx.hdm = none) ∧
    t.rd F.PCX_RST_CNT_FLR = sat F.PCX_RST_CNT_FLR.w (s.rd F.PCX_RST_CNT_FLR + 1) ∧
    t.rd F.PCX_LINK_STS_UP pf = s.rd F.PCX_LINK_STS_UP pf ∧ t.zn.ud = s.zn.ud)) ∧
  (∀ (n : Nat) (f : FnSt) (s : State), s.fn n = some f → n ≠ 0 → n ≠ s.pfIdx 1 → Ran (.flrVf n) s (fun t =>
    (∃ g, t.fn n = some g ∧ g.ccEn = false ∧ g.rdy = false ∧ g.bme = false ∧ g.mse = false) ∧
    t.rd F.PCX_RST_CNT_FLR = sat F.PCX_RST_CNT_FLR.w (s.rd F.PCX_RST_CNT_FLR + 1) ∧ (∀ m, m ≠ n → t.fn m = s.fn m) ∧ t.zn.ud = s.zn.ud)) ∧
  (∀ (n : Nat) (f : FnSt) (s : State), s.fn n = some f → Ran (.ccEnClear n) s (fun t =>
    (∃ g, t.fn n = some g ∧ g.ccEn = false ∧ g.rdy = false ∧ g.shst = 0 ∧ g.bme = f.bme ∧ g.mse = f.mse) ∧
    (∀ e ∈ t.sl.qs, e.2.fabric = false → e.2.func = n → n = 0 ∧ e.1 = 0) ∧ (∀ c ∈ t.zn.cmds, ∀ q, Tab.find c.q s.sl.qs = some q →
      q.fabric = false → q.func ≠ n) ∧ (∀ m, m ≠ n → t.fn m = s.fn m) ∧ t.zn.ud = s.zn.ud))

/-- 14 R313–R317, R325, 11 R267, 17 R384: what a function is told. CC.EN makes a function with a binding ready, from ready on, and PF0 from
admin-ready on, with an admin queue; a shutdown notification journals a checkpoint's start and, with nothing dirty, its end; VF Enable makes the
VFs with the vectors the pool gives, and none where it gives none; clearing it takes them away; without Bus Master Enable nothing is sent or fetched, and
with it what waited is posted in order, and what is stale is discarded; without PASID Enable the queues under its PASID bindings are reset. -/
def Obligations.FunctionControlComplete : Prop :=
  (∀ (n : Nat) (f : FnSt) (s : State), s.fn n = some f → f.rdy = false → s.freeIdx ≠ none →
    (n = 0 ∧ s.img.admReady = true) ∨ (n ≠ 0 ∧ s.ready = true ∧ s.lowBind n ≠ none) → Ran (.ccEnSet n) s (fun t =>
      (∃ g, t.fn n = some g ∧ g.ccEn = true ∧ g.rdy = true) ∧
      t.sl.qs.any (fun e => !e.2.fabric && e.2.func = n && e.2.qid = 0) = true ∧ t.zn = s.zn ∧ t.outs = s.outs)) ∧
  (∀ (n : Nat) (f : FnSt) (s : State), s.fn n = some f → f.rdy = false → n ≠ 0 → s.ready = false → Ran (.ccEnSet n) s (fun t =>
    t.fn n = some { f with ccEn := true } ∧ t = { s with fns := t.fns })) ∧
  (∀ (n : Nat) (f : FnSt) (s : State), s.fn n = some f → s.ftl.ckpt = none → s.dirtyLines = [] → (∀ e ∈ s.ftl.jtail, e.act ≠ .ckptEnd s.ftl.jnext) →
    Ran (.shutdownNotification n) s (fun t => t.fn n = some { f with shst := 1 } ∧ t.ftl.ckpt = some (s.ftl.jnext, s.ftl.jring) ∧
      t.ftl.jtail = s.ftl.jtail ++ [⟨s.ftl.jnext, 0x0C, [s.ftl.jnext], .none, s.el⟩,
        ⟨s.ftl.jnext + 1, 0x0D, [s.ftl.jnext], .ckptEnd s.ftl.jnext, s.el⟩] ∧ t.regs = s.regs ∧ t.zn = s.zn ∧ t.outs = s.outs)) ∧
  (∀ (pf n v : Nat) (f : FnSt) (s : State), s.pfs.contains pf = true → s.fn (s.pfIdx pf) = some f → f.vfEn = false → 0 < n → n ≤ s.totalVfs pf →
    v = min (s.rd F.PCX_SRIOV_CFG_VF_VEC pf) ((32768 - 2048 * s.pfs.length - s.vfVecs (1 - pf)) / n) → 0 < v →
    Ran (.vfEnableSet pf n) s (fun t => t.fn (s.pfIdx pf) = some { f with vfEn := true, numVfs := n } ∧
      (∀ k, k < n → ∃ g, t.fn (s.pfIdx pf + 1 + k) = some g ∧ g.vecs = v ∧ g.ccEn = false ∧ g.bme = false) ∧
      t.rd F.PCX_SRIOV_STS_VF_S pf = cut F.PCX_SRIOV_STS_VF_S.w v ∧ t.rd F.PCX_SRIOV_STS_NUMVFS pf = cut F.PCX_SRIOV_STS_NUMVFS.w n ∧
      t = { s with regs := t.regs, fns := t.fns })) ∧
  (∀ (pf n : Nat) (f : FnSt) (s : State), s.pfs.contains pf = true → s.fn (s.pfIdx pf) = some f → f.vfEn = false → 0 < n → n ≤ s.totalVfs pf →
    32768 - 2048 * s.pfs.length - s.vfVecs (1 - pf) < n → Ran (.vfEnableSet pf n) s (fun t => t.rd F.PCX_SRIOV_STS_VEC_SHORT pf = 1 ∧
      Keeps s t [F.PCX_SRIOV_STS_VEC_SHORT] ∧ t = { s with regs := t.regs })) ∧
  (∀ (pf : Nat) (f : FnSt) (s : State), s.pfs.contains pf = true → s.fn (s.pfIdx pf) = some f → Ran (.vfEnableClear pf) s (fun t =>
    t.fn (s.pfIdx pf) = some { f with vfEn := false, numVfs := 0 } ∧ t.rd F.PCX_SRIOV_STS_VF_S pf = 0 ∧ t.rd F.PCX_SRIOV_STS_NUMVFS pf = 0 ∧
    (∀ e ∈ t.fns, ¬(s.pfIdx pf < e.1 ∧ e.1 ≤ s.pfIdx pf + s.totalVfs pf)) ∧ t.zn.ud = s.zn.ud)) ∧
  (∀ (n : Nat) (f : FnSt) (s : State), s.fn n = some f → Ran (.busMasterEnableClear n) s (fun t =>
    t.fn n = some { f with bme := false } ∧ t = { s with fns := t.fns })) ∧
  (∀ (n : Nat) (f : FnSt) (s : State), s.fn n = some f → (∀ h ∈ f.held, s.live h.st.slice h.st.q h.st.genS h.st.genQ = true) →
    (∀ h ∈ f.held, ∀ q, h.c.org = .io q → q = h.st.q) → Ran (.busMasterEnableSet n) s (fun t =>
      t.fn n = some { f with bme := true, held := [] } ∧ t.outs.filterMap cplOf = s.outs.filterMap cplOf ++ f.held.map (·.c) ∧
      t.regs = s.regs ∧ t.zn = s.zn)) ∧
  (∀ (n : Nat) (f : FnSt) (h : Held) (s : State), s.fn n = some f → f.held = [h] → s.live h.st.slice h.st.q h.st.genS h.st.genQ = false →
    Ran (.busMasterEnableSet n) s (fun t => t.outs = s.outs ∧
      t.rd F.SLI_STALE_CNT_CNT h.st.slice = sat F.SLI_STALE_CNT_CNT.w (s.rd F.SLI_STALE_CNT_CNT h.st.slice + 1))) ∧
  (∀ (n : Nat) (f : FnSt) (s : State), s.fn n = some f → s.die.dies = [] → s.die.cws = [] → s.sl.waits = [] → (s.sl.qs.map (·.1)).Nodup →
    Ran (.pasidEnableClear n) s (fun t => t.fn n = some { f with pasidEn := false } ∧
      (∀ i q, Tab.find i s.sl.qs = some q → q.fabric = false → q.func = n → q.pasid ≠ none → ∃ r, Tab.find i t.sl.qs = some r ∧ r.pend = [] ∧
        r.head = 0 ∧ r.tail = 0 ∧ r.gen = cut 16 (q.gen + 1)) ∧
      (∀ i q, Tab.find i s.sl.qs = some q → q.fabric = true ∨ q.func ≠ n ∨ q.pasid = none → Tab.find i t.sl.qs = some q) ∧ t.zn.ud = s.zn.ud)) ∧
  (∀ (n cid : Nat) (g : State → State) (f : FnSt) (s : State), s.fn n = some f → f.bme = false → s.admin (.fn n) cid g = s) ∧
  (∀ (i cid nsid lba len hint : Nat) (k : CmdKind) (lr fua : Bool) (x : Queue) (f : FnSt) (s : State), s.fn x.func = some f → f.bme = false →
    Tab.find i s.sl.qs = some x → x.fabric = false → s.cmdOf i cid = none → (∀ a ∈ x.pend, a.cid ≠ some cid) → s.begin i cid k nsid lba len lr fua hint = .stop s)

/-- 06 R158, R159, R161–R163: power failure. PFAIL_N that falls in service stops admission, drops the commands in flight and the dies' queues, and
starts the flush of an image into the bank that was erased; a flush that ends is DONE, counted, and its image complete, its record on two dies of
different links, stripes with three failed pages written again; PFAIL_N high again after DONE reopens admission and the image is superseded. -/
def Obligations.PowerFailComplete : Prop :=
  (∀ s : State, s.img.pfailN = true → s.dead = false → s.rd F.MED_PF_STS_PHASE = pfArmed → s.stg.commits = true → Ran (.pfailNFall []) s (fun t =>
    t.rd F.MED_PF_STS_PHASE = pfFlushing ∧ t.img.pfailN = false ∧ t.stg.commits = false ∧ t.stg.fellAt = s.el ∧ t.zn.cmds = [] ∧
    (∀ d, (t.dieOf d).queue = []) ∧ (∃ i, t.stg.image = some i ∧ i.bank = s.rd F.MED_PF_STS_BANK ∧ i.whole = false ∧ i.stop = s.tns ∧
      i.seq = s.stg.imgSeq + 1 ∧ i.poison = []) ∧ t.stg.erased.getD (s.rd F.MED_PF_STS_BANK) false = false ∧
    t.rd F.PCX_LINK_STS_UP 0 = 0 ∧ t.rd F.PCX_LINK_STS_UP 1 = 0 ∧ (s.cap.streams = [] → t.zn.ud = s.zn.ud))) ∧
  (∀ (i : FlushImg) (fails : List (Nat × Nat)) (links : List Nat) (s : State), s.rd F.MED_PF_STS_PHASE = pfFlushing → s.stg.image = some i →
    s.stg.full = true → s.pwr.tripped = false → Ran (.flushDone fails links) s (fun t => t.rd F.MED_PF_STS_PHASE = pfDone ∧
      t.rd F.MED_PF_STS_DUR = sat 16 ((s.el - s.stg.fellAt) / 1000) ∧ t.rd F.MED_PF_STS_OVERRUN = b2n (s.el - s.stg.fellAt > 20000000) ∧
      t.rd F.MED_PF_CNT_FLUSHES = sat F.MED_PF_CNT_FLUSHES.w (s.rd F.MED_PF_CNT_FLUSHES + 1) ∧
      (∃ j, t.stg.image = some j ∧ j.whole = true ∧ j.segs = i.segs ∧ j.poison = i.poison ∧ j.fails = fails ∧ j.moved = links ∧
        (∃ a b, j.recDies = some (a, b) ∧ a / 64 ≠ b / 64) ∧
        ∀ x, x ∈ j.again ↔ 3 ≤ (fails.filter (fun e => e.1 = x)).length) ∧
      t = { s with regs := t.regs, stg := { s.stg with image := t.stg.image } })) ∧
  (∀ s : State, s.rd F.MED_PF_STS_PHASE = pfDone → s.dead = false → s.pwr.tripped = false → s.stg.full = true → s.awake = true →
    s.zn.zx = [] → s.ftl.crows = [] → Ran (.pfailNRise) s (fun t =>
      t.img.pfailN = true ∧ t.stg.commits = true ∧ t.stg.image = none ∧ t.rd F.MED_PF_STS_RESUMED = 1 ∧
      t.rd F.MED_PF_STS_PHASE = (if s.stg.erased.getD 0 false || s.stg.erased.getD 1 false then pfArmed else pfNotArmed) ∧
      t.rd F.PWR_STEP_STEP = cut F.PWR_STEP_STEP.w s.stg.priorStep ∧ t.zn = s.zn)) ∧
  (∀ s : State, s.rd F.MED_PF_STS_PHASE = pfDone → s.dead = false → s.pwr.tripped = false → s.stg.full = true →
    Ran (.pfailNRise) s (fun t => t.img.pfailN = true ∧ t.stg.commits = true ∧ t.stg.image = none ∧ t.zn.ud = s.zn.ud))

/-- 00 R8: a bit of a register that no field covers reads as 0 on both paths, a reserved address reads as 0, and a write of it changes nothing. -/
def Obligations.ReservedBitsAndAddresses : Prop :=
  (∀ (p a i j off b : Nat) (r : Reg) (s : State), locate a regTable = some (r, i, j, off) → b < 32 →
    (∀ f ∈ r.flds, ¬(f.lo ≤ 32 * (off / 4) + b ∧ 32 * (off / 4) + b < f.lo + f.w)) → bit (s.peek p a) b = false) ∧
  (∀ (p a v : Nat) (s : State), locate a regTable = none → s.peek p a = 0 ∧ s.write4 p a v = s)

/-- 02 R58: a slice reset leaves the window, its decoder and the translation entries alone, and a CXL.mem access of a slice that is RESETTING is
served as in any other state that is not FENCED, whatever the slice's generation. -/
def Obligations.SliceResetLeavesTheWindow : Prop :=
  (∀ (o : Org) (cid n : Nat) (s : State), Ran (.sliceReset o cid n) s (fun t => t.pcx = s.pcx ∧ t.sl.xlt = s.sl.xlt)) ∧
  (∀ (hpa base size gen : Nat) (e : XltEnt) (s : State), CxlServes s hpa base size e → s.slState e.slice = slResetting → e.rd = true →
    s.drc.poison = [] → s.dreqs (s.chOf (hpa - base)) = [] →
    Ran (.cxlMemRead hpa 1 0 0) (s.wr F.SLI_GEN_GEN gen e.slice) (fun t =>
      t.outs = s.outs ++ [.pcie "CXL data" [hpa, s.burst64 ((hpa - base) / 64)]]))

/-- 02 R60: while a slice is FENCED, a CXL.mem read through its entry answers poison and a write is dropped, each counts in the slice's
SLI_XLT_FLT_CNT and changes nothing else, so no entry is logged, no XLT_MISS is raised and no other slice's state changes; every access that is
resolved for it is refused and counted the same way; its admin commands end with 0xC0; and an I/O command of its queues ends with 0xC0 without an
access to the host. -/
def Obligations.FencedSliceIsRefused : Prop :=
  (∀ (hpa base size data mask room err sym : Nat) (e : XltEnt) (s : State), s.cxlOn = true → s.stg.commits = true → s.awake = true →
    s.pcx.hdm = some (base, size) → base ≤ hpa → hpa < base + size → hpa - base < s.winSize → s.cxlEntry (hpa - base) = some e →
    s.slState e.slice = slFenced →
    Ran (.cxlMemRead hpa room err sym) s (fun t => t = { (s.inc F.SLI_XLT_FLT_CNT_CNT e.slice).send (.pcie "CXL poison" [hpa]) with
      pwr := { s.pwr with busyAt := s.el } }) ∧
    Ran (.cxlMemWrite hpa data mask room err sym) s (fun t => t = { (s.inc F.SLI_XLT_FLT_CNT_CNT e.slice).send (.pcie "CXL write done" [hpa]) with
      pwr := { s.pwr with busyAt := s.el } })) ∧
  (∀ (n func addr : Nat) (pasid : Option Nat) (wr cxl : Bool) (s : State), s.slState n = slFenced →
    s.xlate n func pasid addr wr cxl = (s.inc F.SLI_XLT_FLT_CNT_CNT n, .miss)) ∧
  (∀ (o : Org) (cid n : Nat) (f : State → State) (s : State), s.img.admReady = true → s.muted o = false → o ≠ .mi →
    ((s.admQ o).map (fun e => s.resetting e.1)).getD false = false → (∀ e ∈ s.sl.qs, adminOf o e.2 = true → (s.admQ o).map (·.1) = some e.1) →
    s.sliceOf o = some n → s.slState n = slFenced → Refuses s (s.admin o cid f) o cid (7, 0xC0) 0) ∧
  (∀ (q cid nsid lba len addr : Nat) (lr : Bool) (x : Queue) (c : Cmd) (s : State), Tab.find q s.sl.qs = some x → s.slState x.slice = slFenced →
    s.cmdOf q cid = some c → c.st = .fetched → s.live c.slice q c.genS c.genQ = true → s.ready = true → s.resetting q = false →
    s.tailFull = false → s.egWait q = false →
    (∀ kind hint fua, ∃ t, s.begin q cid kind nsid lba len lr fua hint = .stop t ∧ EndedWith t q cid stFenced 0 []) ∧
    Ran (.read q cid nsid lba len lr addr []) s (fun t => EndedWith t q cid stFenced 0 [] ∧ t.rd F.SLI_XLT_FLT_CNT_CNT x.slice =
      s.rd F.SLI_XLT_FLT_CNT_CNT x.slice ∧ t.zn.ud = s.zn.ud ∧ t.die = s.die))

/-- 03 R81: a Create I/O Completion Queue fails with Invalid Interrupt Vector where another completion queue of the function, or an enabled management
event vector, has its vector, or where the vector is past the function's table; where it succeeds the vectors stay distinct. -/
def Obligations.CompletionQueueVectors : Prop :=
  (∀ (n cid cqid qsize vec : Nat) (s : State), Served s (.fn n) → 1 ≤ cqid → cqid ≤ 2047 →
    (∀ c ∈ s.sl.cqs, ¬(c.func = n ∧ c.cqid = cqid)) → 1 ≤ qsize → qsize ≤ 4095 →
    (∃ c ∈ s.sl.cqs, c.func = n ∧ c.vec = vec) ∨
      (n = 0 ∧ ∃ i, i < 8 ∧ s.rd F.LGR_EVT_VEC_EN i = 1 ∧ s.rd F.LGR_EVT_VEC_VECTOR i = vec) ∨ s.vecTable n ≤ vec →
    Ran (.createIoCompletionQueue (.fn n) cid cqid qsize vec) s (fun t => Refuses s t (.fn n) cid (1, 0x08) 0)) ∧
  (∀ (o : Org) (cid cqid qsize vec : Nat) (s : State), s.sl.cqs.Pairwise (fun a b => ¬(a.func = b.func ∧ a.vec = b.vec)) →
    Ran (.createIoCompletionQueue o cid cqid qsize vec) s (fun t => t.sl.cqs.Pairwise (fun a b => ¬(a.func = b.func ∧ a.vec = b.vec)) ∧ t.zn = s.zn))

/-- 05 R120: the first datagram of a frame to arrive gives the frame its stamp, TIME_NS and its 16-bit fraction at that instant, whatever its OFFSET; an
RDMA frame takes it of its message. -/
def Obligations.FrameArrivalStamp : Prop :=
  (∀ (p u dst ip vlan udp src ulen k : Nat) (b d : List Nat) (h : IftHdr) (x : Stream) (s : State), Arrives s p u dst ip vlan ulen false →
    s.fabricOn = true → h = iftHdr (b.map (cut 8)) → d = iftData ulen (b.map (cut 8)) → s.stream k = some x →
    s.cap.streams.find? (fun e => !e.2.rdma && bit e.2.ports p && e.2.udp = udp && e.2.sid = h.sid && (e.2.filter = 0 || e.2.filter = src)) =
      some (k, x) →
    h.ver = 1 → h.ty = 0 → h.rsv = false → d ≠ [] → h.off + d.length ≤ h.flen → h.flen ≤ x.maxKib * 1024 →
    d.length ≤ x.limit * 1024 → (h.restart && h.first) = false → x.f ≤ h.frame → h.frame < x.f + 1024 → x.closed.contains h.frame = false →
    x.log + frameBound h.flen ≤ x.w * 2 ^ 31 → Takes s k x →
    Ran (.iftDatagram p u dst ip vlan udp src ulen b []) s (fun t => ∃ y f, t.stream k = some y ∧ f ∈ y.frames ∧ f.num = h.frame ∧
      f.ns = s.tns ∧ f.frac = s.frac)) ∧
  (∀ (qp imm k : Nat) (d : List Nat) (q : Qp) (x : Stream) (s : State), QpUp s qp q → q.stream = some k → s.rxFull q.port q.sub d.length = false →
    x.rx = [] → x.rxAt = none → d ≠ [] → d.length ≤ x.maxKib * 1024 → d.length ≤ x.limit * 1024 → x.f ≤ frameNo x.high imm →
    frameNo x.high imm < x.f + 1024 → x.closed.contains (frameNo x.high imm) = false → x.log + frameBound d.length ≤ x.w * 2 ^ 31 → Takes s k x →
    Ran (.rdmaWriteWithImmediate qp 0 (some imm) false d) s (fun t => ∃ y f, t.stream k = some y ∧ f ∈ y.frames ∧ f.num = frameNo x.high imm ∧
      f.ns = s.tns ∧ f.frac = s.frac))

/-- 16 R358: a watchdog that was not written for PUP_WDT.PERIOD fails the active pair over, and during a firmware exchange rolls the exchange back; one
that was written in time does neither. -/
def Obligations.WatchdogExpiryFailsOver : Prop :=
  (∀ (pass : Bool) (s : State), s.pup.wdtAt + s.rd F.PUP_WDT_PERIOD * 1000000 ≤ s.el → s.rd F.PUP_STS_SPARE = 0 → s.stopped = false → s.swapping = false →
    Ran (.watchdogExpiry pass) s (fun t => TookOver s t 2 pass)) ∧
  (∀ (pass : Bool) (s : State), s.pup.wdtAt + s.rd F.PUP_WDT_PERIOD * 1000000 ≤ s.el → s.stopped = false → s.swapping = true →
    Ran (.watchdogExpiry pass) s (fun t => t.rd F.PUP_STS_BANK = cut 1 (1 - s.rd F.PUP_STS_BANK) ∧ t.rd F.PUP_STS_SWAP = 4 ∧
      t.rd F.PUP_STS_ACTIVE = s.rd F.PUP_STS_ACTIVE ∧ t.pup.wdtAt = s.el ∧ t.pup.exch = none)) ∧
  (∀ (pass : Bool) (s : State), s.el < s.pup.wdtAt + s.rd F.PUP_WDT_PERIOD * 1000000 → Ran (.watchdogExpiry pass) s (fun t => t = s)) ∧
  (∀ s : State, s.stopped = false → Ran (.watchdogWrite) s (fun t => t.pup.wdtAt = s.el))

/-- 16 R365: a Register Read or Write whose address is 4-byte aligned and whose length is 4 to 4,096 bytes in words accesses each word in ascending order
on the path of NVMe-MI; one past the management space, or not so formed, fails with Invalid Parameter and accesses no word. -/
def Obligations.RegisterReadAndWriteSpans : Prop :=
  (∀ (vdm : Bool) (a len : Nat) (ws : List Nat) (s : State), MiServed s vdm → a % 4 ≠ 0 ∨ len % 4 ≠ 0 ∨ len < 4 ∨ 4096 < len ∨ 2 ^ 26 < a + len →
    Ran (.registerRead vdm true a len) s (fun t => t = s.send (.mi 4 [])) ∧ Ran (.registerWrite vdm true a len ws) s (fun t => t = s.send (.mi 4 []))) ∧
  (∀ (vdm : Bool) (a len : Nat) (s : State), MiServed s vdm → a % 4 = 0 → len % 4 = 0 → 4 ≤ len → len ≤ 4096 → a + len ≤ 2 ^ 26 →
    Ran (.registerRead vdm true a len) s (fun t => t = (State.readWords 1 a (len / 4) s).1.send (.mi 0 (State.readWords 1 a (len / 4) s).2) ∧
      (State.readWords 1 a (len / 4) s).2.length = len / 4)) ∧
  (∀ (vdm : Bool) (a len : Nat) (ws : List Nat) (s : State), MiServed s vdm → a % 4 = 0 → len % 4 = 0 → 4 ≤ len → len ≤ 4096 →
    a + len ≤ 2 ^ 26 → ws.length = len / 4 → Ran (.registerWrite vdm true a len ws) s (fun t =>
      t = (s.send (.mi 0 [])).writeWords 1 a ws))

/-- 19 R426: a record that is appended carries the 8 bytes at each address of its trigger entry, in the entry's order, as the BAR0 path reads them, zero at
a reserved address; reading them clears no field and changes no register. -/
def Obligations.RecorderSnapshots : Prop :=
  ∀ (code arg trig : Nat) (addrs : List Nat) (flush : Bool) (s : State), s.rd F.EVR_STS_FULL ≠ 1 →
    s.evr.used + recLen addrs.length ≤ recBytes →
    (s.recAppend code arg trig addrs flush).regs = s.regs ∧
    (∃ r, (s.recAppend code arg trig addrs flush).evr.recs = s.evr.recs ++ [r] ∧
      r.snaps = addrs.map (fun a => (a, s.peek 0 a + s.peek 0 (a + 4) * 2 ^ 32)) ∧ r.ns = s.tns ∧ r.frac = s.frac ∧ r.code = code ∧ r.arg = arg) ∧
    (∀ a, locate a regTable = none → locate (a + 4) regTable = none → s.peek64 0 a = 0)

/-- A step runs the command at the front of the queue on the state with the queue's rest. -/
def Obligations.StepRunsTheFrontCommand : Prop :=
  ∀ (c : Instr) (l : List Instr) (s : State), Machine.step { s with pending := c :: l } = Machine.exec c { s with pending := l }

/-- Log 1, 19 R416, R419: with no command waiting a step passes one REFCLK cycle, which the model chose: time goes on by 6.4 ns where REFCLK runs and no
correction is in force, with nothing else changed but the idle time, and stands still where REFCLK does not run. -/
def Obligations.IdleStepPassesOneCycle : Prop :=
  (∀ s : State, s.pending = [] → s.counting = true → s.rd F.TIM_FREQ_VALUE = 0 → s.tim.slew = 0 → s.pup.miHeld = [] →
    (∀ ch, ch < 8 → s.dreqs ch = []) →
    ∃ t, Machine.step s = .next t ∧ t.tim = { s.tim with elFx := s.tim.elFx + 27487790694 } ∧ Keeps s t [F.TIM_STS_SLEWING] ∧
      t = { s with regs := t.regs, tim := t.tim, pwr := { s.pwr with busyAt := t.pwr.busyAt } }) ∧
  (∀ s : State, s.pending = [] → s.counting = false → s.pup.miHeld = [] → (∀ ch, ch < 8 → s.dreqs ch = []) → Machine.step s = .next s)

/-- The state after reset has the register file and user data in their canonical forms, so that equal contents are equal data, and waits on nothing. -/
def Obligations.ResetHasTheInvariant : Prop := Inv State.reset ∧ State.reset.pending = [] ∧ State.reset.outs = []

/-- Every step keeps the register file and user data in their canonical forms: keys strictly rising, no field at its reset value and no zero block
listed. -/
def Obligations.StepKeepsTheInvariant : Prop := ∀ s t : State, Inv s → Machine.step s = .next t → Inv t
end

