-- ==== Sys2Proof/Laws/Regs.lean ====
section
/-! SUPPORT. The register file's laws: what is read after a write, and that a write keeps the canonical form. -/

namespace Sys2Proof.Machine

theorem RKey.lt_irrefl (k : RKey) : k.lt k = false := by
  simp [RKey.lt]

theorem RKey.lt_asymm {a b : RKey} (h : a.lt b = true) : b.lt a = false := by
  simp only [RKey.lt, Bool.or_eq_true, Bool.and_eq_true, decide_eq_true_eq, beq_iff_eq] at h
  simp only [RKey.lt, Bool.or_eq_false_iff, Bool.and_eq_false_imp, decide_eq_false_iff_not, beq_iff_eq]
  omega

theorem RKey.lt_trans {a b c : RKey} (h : a.lt b = true) (g : b.lt c = true) : a.lt c = true := by
  simp only [RKey.lt, Bool.or_eq_true, Bool.and_eq_true, decide_eq_true_eq, beq_iff_eq] at *
  omega

theorem RKey.lt_or_gt {a b : RKey} (h : a ≠ b) : a.lt b = true ∨ b.lt a = true := by
  cases a; cases b
  simp only [ne_eq, RKey.mk.injEq] at h
  simp only [RKey.lt, Bool.or_eq_true, Bool.and_eq_true, decide_eq_true_eq, beq_iff_eq]
  omega

theorem Regs.get_append (k : RKey) (a b : Regs) (h : ∀ e ∈ a, e.1 ≠ k) : Regs.get k (a ++ b) = Regs.get k b := by
  induction a with
  | nil => rfl
  | cons e t ih =>
    obtain ⟨x, v⟩ := e
    have hx : x ≠ k := h (x, v) (by simp)
    simp only [List.cons_append, Regs.get, if_neg hx]
    exact ih (fun e he => h e (by simp [he]))

theorem Regs.get_none (k : RKey) (a : Regs) (h : ∀ e ∈ a, e.1 ≠ k) : Regs.get k a = 0 := by
  have := Regs.get_append k a [] h
  simpa [Regs.get] using this

theorem Regs.ne_of_lt_mem {k : RKey} {l : Regs} {e : RKey × Nat} (h : e ∈ l.filter (fun e => e.1.lt k)) : e.1 ≠ k := by
  intro g
  simp only [List.mem_filter] at h
  rw [g, RKey.lt_irrefl] at h
  exact absurd h.2 (by simp)

theorem Regs.ne_of_gt_mem {k : RKey} {l : Regs} {e : RKey × Nat} (h : e ∈ l.filter (fun e => k.lt e.1)) : e.1 ≠ k := by
  intro g
  simp only [List.mem_filter] at h
  rw [g, RKey.lt_irrefl] at h
  exact absurd h.2 (by simp)

/-- What was set against a key is held there. -/
theorem Regs.get_set_same (k : RKey) (v : Nat) (l : Regs) : Regs.get k (Regs.set k v l) = v := by
  unfold Regs.set
  rw [List.append_assoc, Regs.get_append _ _ _ (fun e he => Regs.ne_of_lt_mem he)]
  split
  · next h => rw [List.nil_append, Regs.get_none _ _ (fun e he => Regs.ne_of_gt_mem he), h]
  · simp [Regs.get]

theorem Regs.get_filter (k : RKey) (p : RKey × Nat → Bool) (l : Regs) (h : ∀ v, p (k, v) = true) :
    Regs.get k (l.filter p) = Regs.get k l := by
  induction l with
  | nil => rfl
  | cons e t ih =>
    obtain ⟨x, v⟩ := e
    by_cases hx : x = k
    · subst hx; simp [h v, Regs.get]
    · by_cases hp : p (x, v) = true
      · simp [hp, Regs.get, hx, ih]
      · simp [hp, Regs.get, hx, ih]

/-- A set leaves every other key alone. -/
theorem Regs.get_set_ne {k k' : RKey} (v : Nat) (l : Regs) (h : k' ≠ k) : Regs.get k' (Regs.set k v l) = Regs.get k' l := by
  unfold Regs.set
  rw [List.append_assoc]
  have hmid : ∀ e ∈ (if v = 0 then ([] : Regs) else [(k, v)]), e.1 ≠ k' := by
    intro e he; split at he
    · simp at he
    · simp only [List.mem_singleton] at he; subst he; exact fun g => h g.symm
  rcases RKey.lt_or_gt h with hl | hg
  · have hB : ∀ e ∈ l.filter (fun e => k.lt e.1), e.1 ≠ k' := by
      intro e he g
      simp only [List.mem_filter] at he
      rw [g, RKey.lt_asymm hl] at he; exact absurd he.2 (by simp)
    have key : Regs.get k' (l.filter (fun e => e.1.lt k) ++ ((if v = 0 then [] else [(k, v)]) ++ l.filter (fun e => k.lt e.1)))
        = Regs.get k' (l.filter (fun e => e.1.lt k)) := by
      generalize hA : l.filter (fun e => e.1.lt k) = A
      clear hA
      induction A with
      | nil =>
        rw [List.nil_append, Regs.get_append _ _ _ hmid, Regs.get_none _ _ hB]; rfl
      | cons e t ih =>
        obtain ⟨x, w⟩ := e
        by_cases hx : x = k' <;> simp [Regs.get, hx, ih]
    rw [key]
    exact Regs.get_filter k' _ l (fun w => hl)
  · have hA : ∀ e ∈ l.filter (fun e => e.1.lt k), e.1 ≠ k' := by
      intro e he g
      simp only [List.mem_filter] at he
      rw [g, RKey.lt_asymm hg] at he; exact absurd he.2 (by simp)
    rw [Regs.get_append _ _ _ hA, Regs.get_append _ _ _ hmid]
    exact Regs.get_filter k' _ l (fun w => hg)

theorem Regs.wf_iff (l : Regs) : Regs.wf l = true ↔ List.Pairwise (fun a b => RKey.lt a.1 b.1 = true) l ∧ ∀ e ∈ l, e.2 ≠ 0 := by
  induction l with
  | nil => simp [Regs.wf]
  | cons e t ih =>
    obtain ⟨k, v⟩ := e
    cases t with
    | nil => simp [Regs.wf]
    | cons e' t =>
      obtain ⟨k', v'⟩ := e'
      simp only [Regs.wf, Bool.and_eq_true, bne_iff_ne, ne_eq, ih, List.pairwise_cons, List.mem_cons, forall_eq_or_imp]
      constructor
      · rintro ⟨⟨hv, hk⟩, ⟨hp, hq⟩, hv', hz⟩
        exact ⟨⟨⟨hk, fun a ha => RKey.lt_trans hk (hp a ha)⟩, hp, hq⟩, hv, hv', hz⟩
      · rintro ⟨⟨⟨hk, _⟩, hp, hq⟩, hv, hv', hz⟩
        exact ⟨⟨hv, hk⟩, ⟨hp, hq⟩, hv', hz⟩

/-- A set keeps the canonical form. -/
theorem Regs.wf_set (k : RKey) (v : Nat) (l : Regs) (h : Regs.wf l = true) : Regs.wf (Regs.set k v l) = true := by
  rw [Regs.wf_iff] at *
  obtain ⟨hp, hz⟩ := h
  unfold Regs.set
  refine ⟨?_, ?_⟩
  · rw [List.append_assoc, List.pairwise_append]
    refine ⟨hp.filter _, ?_, ?_⟩
    · rw [List.pairwise_append]
      refine ⟨?_, hp.filter _, ?_⟩
      · split <;> simp
      · intro a ha b hb
        split at ha
        · simp at ha
        · simp only [List.mem_singleton] at ha; subst ha
          exact (List.mem_filter.1 hb).2
    · intro a ha b hb
      have h1 := (List.mem_filter.1 ha).2
      rcases List.mem_append.1 hb with hb | hb
      · split at hb
        · simp at hb
        · simp only [List.mem_singleton] at hb; subst hb; exact h1
      · exact RKey.lt_trans h1 (List.mem_filter.1 hb).2
  · intro e he
    rcases List.mem_append.1 he with he | he
    · rcases List.mem_append.1 he with he | he
      · exact hz e (List.mem_filter.1 he).1
      · split at he
        · simp at he
        · next hv => simp only [List.mem_singleton] at he; subst he; exact hv
    · exact hz e (List.mem_filter.1 he).1

/-- A field reads as it was written, cut to its width. -/
@[simp] theorem State.rd_wr_same (s : State) (f : Fld) (v i j p : Nat) : (s.wr f v i j p).rd f i j p = cut f.w v := by
  simp [State.rd, State.wr, Regs.get_set_same]

/-- Writing one field leaves every other field of the file alone. -/
theorem State.rd_wr_ne (s : State) (f g : Fld) (v i j p i' j' p' : Nat) (h : (⟨g.id, i', j', p'⟩ : RKey) ≠ ⟨f.id, i, j, p⟩) :
    (s.wr f v i j p).rd g i' j' p' = s.rd g i' j' p' := by
  simp [State.rd, State.wr, Regs.get_set_ne _ _ h]

/-- A write keeps the register file canonical. -/
theorem State.wf_wr (s : State) (f : Fld) (v i j p : Nat) (h : Regs.wf s.regs = true) : Regs.wf (s.wr f v i j p).regs = true :=
  Regs.wf_set _ _ _ h

/-- Writing one field leaves a field of another number alone. -/
theorem State.rd_wr_id (s : State) (f g : Fld) (v i j p i' j' p' : Nat) (h : g.id ≠ f.id) :
    (s.wr f v i j p).rd g i' j' p' = s.rd g i' j' p' :=
  State.rd_wr_ne s f g v i j p i' j' p' (fun e => h (congrArg RKey.f e))

end Sys2Proof.Machine
end

