-- ==== Sys2Proof/Laws/State.lean ====
section
/-! SUPPORT. The state's laws: what each basic update leaves alone, one field at a time. -/

namespace Sys2Proof.Machine

variable (s : State)

/-! `State.wr` changes `regs` alone. -/

@[simp] theorem State.wr_tim (f : Fld) (v i j p : Nat) : (s.wr f v i j p).tim = s.tim := rfl
@[simp] theorem State.wr_evr (f : Fld) (v i j p : Nat) : (s.wr f v i j p).evr = s.evr := rfl
@[simp] theorem State.wr_ras (f : Fld) (v i j p : Nat) : (s.wr f v i j p).ras = s.ras := rfl
@[simp] theorem State.wr_sl (f : Fld) (v i j p : Nat) : (s.wr f v i j p).sl = s.sl := rfl
@[simp] theorem State.wr_zn (f : Fld) (v i j p : Nat) : (s.wr f v i j p).zn = s.zn := rfl
@[simp] theorem State.wr_stg (f : Fld) (v i j p : Nat) : (s.wr f v i j p).stg = s.stg := rfl
@[simp] theorem State.wr_rdn (f : Fld) (v i j p : Nat) : (s.wr f v i j p).rdn = s.rdn := rfl
@[simp] theorem State.wr_die (f : Fld) (v i j p : Nat) : (s.wr f v i j p).die = s.die := rfl
@[simp] theorem State.wr_ftl (f : Fld) (v i j p : Nat) : (s.wr f v i j p).ftl = s.ftl := rfl
@[simp] theorem State.wr_fns (f : Fld) (v i j p : Nat) : (s.wr f v i j p).fns = s.fns := rfl
@[simp] theorem State.wr_assocs (f : Fld) (v i j p : Nat) : (s.wr f v i j p).assocs = s.assocs := rfl
@[simp] theorem State.wr_cip (f : Fld) (v i j p : Nat) : (s.wr f v i j p).cip = s.cip := rfl
@[simp] theorem State.wr_cap (f : Fld) (v i j p : Nat) : (s.wr f v i j p).cap = s.cap := rfl
@[simp] theorem State.wr_net (f : Fld) (v i j p : Nat) : (s.wr f v i j p).net = s.net := rfl
@[simp] theorem State.wr_pup (f : Fld) (v i j p : Nat) : (s.wr f v i j p).pup = s.pup := rfl
@[simp] theorem State.wr_pwr (f : Fld) (v i j p : Nat) : (s.wr f v i j p).pwr = s.pwr := rfl
@[simp] theorem State.wr_img (f : Fld) (v i j p : Nat) : (s.wr f v i j p).img = s.img := rfl
@[simp] theorem State.wr_gen (f : Fld) (v i j p : Nat) : (s.wr f v i j p).gen = s.gen := rfl
@[simp] theorem State.wr_kz (f : Fld) (v i j p : Nat) : (s.wr f v i j p).kz = s.kz := rfl
@[simp] theorem State.wr_pcx (f : Fld) (v i j p : Nat) : (s.wr f v i j p).pcx = s.pcx := rfl
@[simp] theorem State.wr_drc (f : Fld) (v i j p : Nat) : (s.wr f v i j p).drc = s.drc := rfl
@[simp] theorem State.wr_outs (f : Fld) (v i j p : Nat) : (s.wr f v i j p).outs = s.outs := rfl
@[simp] theorem State.wr_free (f : Fld) (v i j p : Nat) : (s.wr f v i j p).free = s.free := rfl
@[simp] theorem State.wr_pending (f : Fld) (v i j p : Nat) : (s.wr f v i j p).pending = s.pending := rfl

/-! `State.inc` changes `regs` alone. -/

@[simp] theorem State.inc_tim (f : Fld) (i j n : Nat) : (s.inc f i j n).tim = s.tim := rfl
@[simp] theorem State.inc_evr (f : Fld) (i j n : Nat) : (s.inc f i j n).evr = s.evr := rfl
@[simp] theorem State.inc_ras (f : Fld) (i j n : Nat) : (s.inc f i j n).ras = s.ras := rfl
@[simp] theorem State.inc_sl (f : Fld) (i j n : Nat) : (s.inc f i j n).sl = s.sl := rfl
@[simp] theorem State.inc_zn (f : Fld) (i j n : Nat) : (s.inc f i j n).zn = s.zn := rfl
@[simp] theorem State.inc_stg (f : Fld) (i j n : Nat) : (s.inc f i j n).stg = s.stg := rfl
@[simp] theorem State.inc_rdn (f : Fld) (i j n : Nat) : (s.inc f i j n).rdn = s.rdn := rfl
@[simp] theorem State.inc_die (f : Fld) (i j n : Nat) : (s.inc f i j n).die = s.die := rfl
@[simp] theorem State.inc_ftl (f : Fld) (i j n : Nat) : (s.inc f i j n).ftl = s.ftl := rfl
@[simp] theorem State.inc_fns (f : Fld) (i j n : Nat) : (s.inc f i j n).fns = s.fns := rfl
@[simp] theorem State.inc_assocs (f : Fld) (i j n : Nat) : (s.inc f i j n).assocs = s.assocs := rfl
@[simp] theorem State.inc_cip (f : Fld) (i j n : Nat) : (s.inc f i j n).cip = s.cip := rfl
@[simp] theorem State.inc_cap (f : Fld) (i j n : Nat) : (s.inc f i j n).cap = s.cap := rfl
@[simp] theorem State.inc_net (f : Fld) (i j n : Nat) : (s.inc f i j n).net = s.net := rfl
@[simp] theorem State.inc_pup (f : Fld) (i j n : Nat) : (s.inc f i j n).pup = s.pup := rfl
@[simp] theorem State.inc_pwr (f : Fld) (i j n : Nat) : (s.inc f i j n).pwr = s.pwr := rfl
@[simp] theorem State.inc_img (f : Fld) (i j n : Nat) : (s.inc f i j n).img = s.img := rfl
@[simp] theorem State.inc_gen (f : Fld) (i j n : Nat) : (s.inc f i j n).gen = s.gen := rfl
@[simp] theorem State.inc_kz (f : Fld) (i j n : Nat) : (s.inc f i j n).kz = s.kz := rfl
@[simp] theorem State.inc_pcx (f : Fld) (i j n : Nat) : (s.inc f i j n).pcx = s.pcx := rfl
@[simp] theorem State.inc_drc (f : Fld) (i j n : Nat) : (s.inc f i j n).drc = s.drc := rfl
@[simp] theorem State.inc_outs (f : Fld) (i j n : Nat) : (s.inc f i j n).outs = s.outs := rfl
@[simp] theorem State.inc_free (f : Fld) (i j n : Nat) : (s.inc f i j n).free = s.free := rfl
@[simp] theorem State.inc_pending (f : Fld) (i j n : Nat) : (s.inc f i j n).pending = s.pending := rfl

/-! `State.addw` changes `regs` alone. -/

@[simp] theorem State.addw_tim (f : Fld) (n i j : Nat) : (s.addw f n i j).tim = s.tim := rfl
@[simp] theorem State.addw_evr (f : Fld) (n i j : Nat) : (s.addw f n i j).evr = s.evr := rfl
@[simp] theorem State.addw_ras (f : Fld) (n i j : Nat) : (s.addw f n i j).ras = s.ras := rfl
@[simp] theorem State.addw_sl (f : Fld) (n i j : Nat) : (s.addw f n i j).sl = s.sl := rfl
@[simp] theorem State.addw_zn (f : Fld) (n i j : Nat) : (s.addw f n i j).zn = s.zn := rfl
@[simp] theorem State.addw_stg (f : Fld) (n i j : Nat) : (s.addw f n i j).stg = s.stg := rfl
@[simp] theorem State.addw_rdn (f : Fld) (n i j : Nat) : (s.addw f n i j).rdn = s.rdn := rfl
@[simp] theorem State.addw_die (f : Fld) (n i j : Nat) : (s.addw f n i j).die = s.die := rfl
@[simp] theorem State.addw_ftl (f : Fld) (n i j : Nat) : (s.addw f n i j).ftl = s.ftl := rfl
@[simp] theorem State.addw_fns (f : Fld) (n i j : Nat) : (s.addw f n i j).fns = s.fns := rfl
@[simp] theorem State.addw_assocs (f : Fld) (n i j : Nat) : (s.addw f n i j).assocs = s.assocs := rfl
@[simp] theorem State.addw_cip (f : Fld) (n i j : Nat) : (s.addw f n i j).cip = s.cip := rfl
@[simp] theorem State.addw_cap (f : Fld) (n i j : Nat) : (s.addw f n i j).cap = s.cap := rfl
@[simp] theorem State.addw_net (f : Fld) (n i j : Nat) : (s.addw f n i j).net = s.net := rfl
@[simp] theorem State.addw_pup (f : Fld) (n i j : Nat) : (s.addw f n i j).pup = s.pup := rfl
@[simp] theorem State.addw_pwr (f : Fld) (n i j : Nat) : (s.addw f n i j).pwr = s.pwr := rfl
@[simp] theorem State.addw_img (f : Fld) (n i j : Nat) : (s.addw f n i j).img = s.img := rfl
@[simp] theorem State.addw_gen (f : Fld) (n i j : Nat) : (s.addw f n i j).gen = s.gen := rfl
@[simp] theorem State.addw_kz (f : Fld) (n i j : Nat) : (s.addw f n i j).kz = s.kz := rfl
@[simp] theorem State.addw_pcx (f : Fld) (n i j : Nat) : (s.addw f n i j).pcx = s.pcx := rfl
@[simp] theorem State.addw_drc (f : Fld) (n i j : Nat) : (s.addw f n i j).drc = s.drc := rfl
@[simp] theorem State.addw_outs (f : Fld) (n i j : Nat) : (s.addw f n i j).outs = s.outs := rfl
@[simp] theorem State.addw_free (f : Fld) (n i j : Nat) : (s.addw f n i j).free = s.free := rfl
@[simp] theorem State.addw_pending (f : Fld) (n i j : Nat) : (s.addw f n i j).pending = s.pending := rfl

/-! `State.dec` changes `regs` alone. -/

@[simp] theorem State.dec_tim (f : Fld) (i j n : Nat) : (s.dec f i j n).tim = s.tim := rfl
@[simp] theorem State.dec_evr (f : Fld) (i j n : Nat) : (s.dec f i j n).evr = s.evr := rfl
@[simp] theorem State.dec_ras (f : Fld) (i j n : Nat) : (s.dec f i j n).ras = s.ras := rfl
@[simp] theorem State.dec_sl (f : Fld) (i j n : Nat) : (s.dec f i j n).sl = s.sl := rfl
@[simp] theorem State.dec_zn (f : Fld) (i j n : Nat) : (s.dec f i j n).zn = s.zn := rfl
@[simp] theorem State.dec_stg (f : Fld) (i j n : Nat) : (s.dec f i j n).stg = s.stg := rfl
@[simp] theorem State.dec_rdn (f : Fld) (i j n : Nat) : (s.dec f i j n).rdn = s.rdn := rfl
@[simp] theorem State.dec_die (f : Fld) (i j n : Nat) : (s.dec f i j n).die = s.die := rfl
@[simp] theorem State.dec_ftl (f : Fld) (i j n : Nat) : (s.dec f i j n).ftl = s.ftl := rfl
@[simp] theorem State.dec_fns (f : Fld) (i j n : Nat) : (s.dec f i j n).fns = s.fns := rfl
@[simp] theorem State.dec_assocs (f : Fld) (i j n : Nat) : (s.dec f i j n).assocs = s.assocs := rfl
@[simp] theorem State.dec_cip (f : Fld) (i j n : Nat) : (s.dec f i j n).cip = s.cip := rfl
@[simp] theorem State.dec_cap (f : Fld) (i j n : Nat) : (s.dec f i j n).cap = s.cap := rfl
@[simp] theorem State.dec_net (f : Fld) (i j n : Nat) : (s.dec f i j n).net = s.net := rfl
@[simp] theorem State.dec_pup (f : Fld) (i j n : Nat) : (s.dec f i j n).pup = s.pup := rfl
@[simp] theorem State.dec_pwr (f : Fld) (i j n : Nat) : (s.dec f i j n).pwr = s.pwr := rfl
@[simp] theorem State.dec_img (f : Fld) (i j n : Nat) : (s.dec f i j n).img = s.img := rfl
@[simp] theorem State.dec_gen (f : Fld) (i j n : Nat) : (s.dec f i j n).gen = s.gen := rfl
@[simp] theorem State.dec_kz (f : Fld) (i j n : Nat) : (s.dec f i j n).kz = s.kz := rfl
@[simp] theorem State.dec_pcx (f : Fld) (i j n : Nat) : (s.dec f i j n).pcx = s.pcx := rfl
@[simp] theorem State.dec_drc (f : Fld) (i j n : Nat) : (s.dec f i j n).drc = s.drc := rfl
@[simp] theorem State.dec_outs (f : Fld) (i j n : Nat) : (s.dec f i j n).outs = s.outs := rfl
@[simp] theorem State.dec_free (f : Fld) (i j n : Nat) : (s.dec f i j n).free = s.free := rfl
@[simp] theorem State.dec_pending (f : Fld) (i j n : Nat) : (s.dec f i j n).pending = s.pending := rfl

/-! `State.clr` changes `regs` alone. -/

@[simp] theorem State.clr_tim (f : Fld) (i j p : Nat) : (s.clr f i j p).tim = s.tim := rfl
@[simp] theorem State.clr_evr (f : Fld) (i j p : Nat) : (s.clr f i j p).evr = s.evr := rfl
@[simp] theorem State.clr_ras (f : Fld) (i j p : Nat) : (s.clr f i j p).ras = s.ras := rfl
@[simp] theorem State.clr_sl (f : Fld) (i j p : Nat) : (s.clr f i j p).sl = s.sl := rfl
@[simp] theorem State.clr_zn (f : Fld) (i j p : Nat) : (s.clr f i j p).zn = s.zn := rfl
@[simp] theorem State.clr_stg (f : Fld) (i j p : Nat) : (s.clr f i j p).stg = s.stg := rfl
@[simp] theorem State.clr_rdn (f : Fld) (i j p : Nat) : (s.clr f i j p).rdn = s.rdn := rfl
@[simp] theorem State.clr_die (f : Fld) (i j p : Nat) : (s.clr f i j p).die = s.die := rfl
@[simp] theorem State.clr_ftl (f : Fld) (i j p : Nat) : (s.clr f i j p).ftl = s.ftl := rfl
@[simp] theorem State.clr_fns (f : Fld) (i j p : Nat) : (s.clr f i j p).fns = s.fns := rfl
@[simp] theorem State.clr_assocs (f : Fld) (i j p : Nat) : (s.clr f i j p).assocs = s.assocs := rfl
@[simp] theorem State.clr_cip (f : Fld) (i j p : Nat) : (s.clr f i j p).cip = s.cip := rfl
@[simp] theorem State.clr_cap (f : Fld) (i j p : Nat) : (s.clr f i j p).cap = s.cap := rfl
@[simp] theorem State.clr_net (f : Fld) (i j p : Nat) : (s.clr f i j p).net = s.net := rfl
@[simp] theorem State.clr_pup (f : Fld) (i j p : Nat) : (s.clr f i j p).pup = s.pup := rfl
@[simp] theorem State.clr_pwr (f : Fld) (i j p : Nat) : (s.clr f i j p).pwr = s.pwr := rfl
@[simp] theorem State.clr_img (f : Fld) (i j p : Nat) : (s.clr f i j p).img = s.img := rfl
@[simp] theorem State.clr_gen (f : Fld) (i j p : Nat) : (s.clr f i j p).gen = s.gen := rfl
@[simp] theorem State.clr_kz (f : Fld) (i j p : Nat) : (s.clr f i j p).kz = s.kz := rfl
@[simp] theorem State.clr_pcx (f : Fld) (i j p : Nat) : (s.clr f i j p).pcx = s.pcx := rfl
@[simp] theorem State.clr_drc (f : Fld) (i j p : Nat) : (s.clr f i j p).drc = s.drc := rfl
@[simp] theorem State.clr_outs (f : Fld) (i j p : Nat) : (s.clr f i j p).outs = s.outs := rfl
@[simp] theorem State.clr_free (f : Fld) (i j p : Nat) : (s.clr f i j p).free = s.free := rfl
@[simp] theorem State.clr_pending (f : Fld) (i j p : Nat) : (s.clr f i j p).pending = s.pending := rfl

/-! `State.send` changes `outs` alone. -/

@[simp] theorem State.send_regs (o : Out) : (s.send o).regs = s.regs := rfl
@[simp] theorem State.send_tim (o : Out) : (s.send o).tim = s.tim := rfl
@[simp] theorem State.send_evr (o : Out) : (s.send o).evr = s.evr := rfl
@[simp] theorem State.send_ras (o : Out) : (s.send o).ras = s.ras := rfl
@[simp] theorem State.send_sl (o : Out) : (s.send o).sl = s.sl := rfl
@[simp] theorem State.send_zn (o : Out) : (s.send o).zn = s.zn := rfl
@[simp] theorem State.send_stg (o : Out) : (s.send o).stg = s.stg := rfl
@[simp] theorem State.send_rdn (o : Out) : (s.send o).rdn = s.rdn := rfl
@[simp] theorem State.send_die (o : Out) : (s.send o).die = s.die := rfl
@[simp] theorem State.send_ftl (o : Out) : (s.send o).ftl = s.ftl := rfl
@[simp] theorem State.send_fns (o : Out) : (s.send o).fns = s.fns := rfl
@[simp] theorem State.send_assocs (o : Out) : (s.send o).assocs = s.assocs := rfl
@[simp] theorem State.send_cip (o : Out) : (s.send o).cip = s.cip := rfl
@[simp] theorem State.send_cap (o : Out) : (s.send o).cap = s.cap := rfl
@[simp] theorem State.send_net (o : Out) : (s.send o).net = s.net := rfl
@[simp] theorem State.send_pup (o : Out) : (s.send o).pup = s.pup := rfl
@[simp] theorem State.send_pwr (o : Out) : (s.send o).pwr = s.pwr := rfl
@[simp] theorem State.send_img (o : Out) : (s.send o).img = s.img := rfl
@[simp] theorem State.send_gen (o : Out) : (s.send o).gen = s.gen := rfl
@[simp] theorem State.send_kz (o : Out) : (s.send o).kz = s.kz := rfl
@[simp] theorem State.send_pcx (o : Out) : (s.send o).pcx = s.pcx := rfl
@[simp] theorem State.send_drc (o : Out) : (s.send o).drc = s.drc := rfl
@[simp] theorem State.send_free (o : Out) : (s.send o).free = s.free := rfl
@[simp] theorem State.send_pending (o : Out) : (s.send o).pending = s.pending := rfl
@[simp] theorem State.send_rd (o : Out) (g : Fld) (i1 j1 p1 : Nat) : (s.send o).rd g i1 j1 p1 = s.rd g i1 j1 p1 := rfl
@[simp] theorem State.send_wf (o : Out) : Regs.wf (s.send o).regs = Regs.wf s.regs := rfl

/-! `State.draw` changes `free` alone. -/

@[simp] theorem State.draw_regs : (s.draw).regs = s.regs := rfl
@[simp] theorem State.draw_tim : (s.draw).tim = s.tim := rfl
@[simp] theorem State.draw_evr : (s.draw).evr = s.evr := rfl
@[simp] theorem State.draw_ras : (s.draw).ras = s.ras := rfl
@[simp] theorem State.draw_sl : (s.draw).sl = s.sl := rfl
@[simp] theorem State.draw_zn : (s.draw).zn = s.zn := rfl
@[simp] theorem State.draw_stg : (s.draw).stg = s.stg := rfl
@[simp] theorem State.draw_rdn : (s.draw).rdn = s.rdn := rfl
@[simp] theorem State.draw_die : (s.draw).die = s.die := rfl
@[simp] theorem State.draw_ftl : (s.draw).ftl = s.ftl := rfl
@[simp] theorem State.draw_fns : (s.draw).fns = s.fns := rfl
@[simp] theorem State.draw_assocs : (s.draw).assocs = s.assocs := rfl
@[simp] theorem State.draw_cip : (s.draw).cip = s.cip := rfl
@[simp] theorem State.draw_cap : (s.draw).cap = s.cap := rfl
@[simp] theorem State.draw_net : (s.draw).net = s.net := rfl
@[simp] theorem State.draw_pup : (s.draw).pup = s.pup := rfl
@[simp] theorem State.draw_pwr : (s.draw).pwr = s.pwr := rfl
@[simp] theorem State.draw_img : (s.draw).img = s.img := rfl
@[simp] theorem State.draw_gen : (s.draw).gen = s.gen := rfl
@[simp] theorem State.draw_kz : (s.draw).kz = s.kz := rfl
@[simp] theorem State.draw_pcx : (s.draw).pcx = s.pcx := rfl
@[simp] theorem State.draw_drc : (s.draw).drc = s.drc := rfl
@[simp] theorem State.draw_outs : (s.draw).outs = s.outs := rfl
@[simp] theorem State.draw_pending : (s.draw).pending = s.pending := rfl
@[simp] theorem State.draw_rd (g : Fld) (i1 j1 p1 : Nat) : (s.draw).rd g i1 j1 p1 = s.rd g i1 j1 p1 := rfl
@[simp] theorem State.draw_wf : Regs.wf (s.draw).regs = Regs.wf s.regs := rfl

/-! `State.bump` changes `die` alone. -/

@[simp] theorem State.bump_regs : (s.bump).regs = s.regs := rfl
@[simp] theorem State.bump_tim : (s.bump).tim = s.tim := rfl
@[simp] theorem State.bump_evr : (s.bump).evr = s.evr := rfl
@[simp] theorem State.bump_ras : (s.bump).ras = s.ras := rfl
@[simp] theorem State.bump_sl : (s.bump).sl = s.sl := rfl
@[simp] theorem State.bump_zn : (s.bump).zn = s.zn := rfl
@[simp] theorem State.bump_stg : (s.bump).stg = s.stg := rfl
@[simp] theorem State.bump_rdn : (s.bump).rdn = s.rdn := rfl
@[simp] theorem State.bump_ftl : (s.bump).ftl = s.ftl := rfl
@[simp] theorem State.bump_fns : (s.bump).fns = s.fns := rfl
@[simp] theorem State.bump_assocs : (s.bump).assocs = s.assocs := rfl
@[simp] theorem State.bump_cip : (s.bump).cip = s.cip := rfl
@[simp] theorem State.bump_cap : (s.bump).cap = s.cap := rfl
@[simp] theorem State.bump_net : (s.bump).net = s.net := rfl
@[simp] theorem State.bump_pup : (s.bump).pup = s.pup := rfl
@[simp] theorem State.bump_pwr : (s.bump).pwr = s.pwr := rfl
@[simp] theorem State.bump_img : (s.bump).img = s.img := rfl
@[simp] theorem State.bump_gen : (s.bump).gen = s.gen := rfl
@[simp] theorem State.bump_kz : (s.bump).kz = s.kz := rfl
@[simp] theorem State.bump_pcx : (s.bump).pcx = s.pcx := rfl
@[simp] theorem State.bump_drc : (s.bump).drc = s.drc := rfl
@[simp] theorem State.bump_outs : (s.bump).outs = s.outs := rfl
@[simp] theorem State.bump_free : (s.bump).free = s.free := rfl
@[simp] theorem State.bump_pending : (s.bump).pending = s.pending := rfl
@[simp] theorem State.bump_rd (g : Fld) (i1 j1 p1 : Nat) : (s.bump).rd g i1 j1 p1 = s.rd g i1 j1 p1 := rfl
@[simp] theorem State.bump_wf : Regs.wf (s.bump).regs = Regs.wf s.regs := rfl

/-! `State.putSx` changes `sl` alone. -/

@[simp] theorem State.putSx_regs (n : Nat) (x : SliceX) : (s.putSx n x).regs = s.regs := rfl
@[simp] theorem State.putSx_tim (n : Nat) (x : SliceX) : (s.putSx n x).tim = s.tim := rfl
@[simp] theorem State.putSx_evr (n : Nat) (x : SliceX) : (s.putSx n x).evr = s.evr := rfl
@[simp] theorem State.putSx_ras (n : Nat) (x : SliceX) : (s.putSx n x).ras = s.ras := rfl
@[simp] theorem State.putSx_zn (n : Nat) (x : SliceX) : (s.putSx n x).zn = s.zn := rfl
@[simp] theorem State.putSx_stg (n : Nat) (x : SliceX) : (s.putSx n x).stg = s.stg := rfl
@[simp] theorem State.putSx_rdn (n : Nat) (x : SliceX) : (s.putSx n x).rdn = s.rdn := rfl
@[simp] theorem State.putSx_die (n : Nat) (x : SliceX) : (s.putSx n x).die = s.die := rfl
@[simp] theorem State.putSx_ftl (n : Nat) (x : SliceX) : (s.putSx n x).ftl = s.ftl := rfl
@[simp] theorem State.putSx_fns (n : Nat) (x : SliceX) : (s.putSx n x).fns = s.fns := rfl
@[simp] theorem State.putSx_assocs (n : Nat) (x : SliceX) : (s.putSx n x).assocs = s.assocs := rfl
@[simp] theorem State.putSx_cip (n : Nat) (x : SliceX) : (s.putSx n x).cip = s.cip := rfl
@[simp] theorem State.putSx_cap (n : Nat) (x : SliceX) : (s.putSx n x).cap = s.cap := rfl
@[simp] theorem State.putSx_net (n : Nat) (x : SliceX) : (s.putSx n x).net = s.net := rfl
@[simp] theorem State.putSx_pup (n : Nat) (x : SliceX) : (s.putSx n x).pup = s.pup := rfl
@[simp] theorem State.putSx_pwr (n : Nat) (x : SliceX) : (s.putSx n x).pwr = s.pwr := rfl
@[simp] theorem State.putSx_img (n : Nat) (x : SliceX) : (s.putSx n x).img = s.img := rfl
@[simp] theorem State.putSx_gen (n : Nat) (x : SliceX) : (s.putSx n x).gen = s.gen := rfl
@[simp] theorem State.putSx_kz (n : Nat) (x : SliceX) : (s.putSx n x).kz = s.kz := rfl
@[simp] theorem State.putSx_pcx (n : Nat) (x : SliceX) : (s.putSx n x).pcx = s.pcx := rfl
@[simp] theorem State.putSx_drc (n : Nat) (x : SliceX) : (s.putSx n x).drc = s.drc := rfl
@[simp] theorem State.putSx_outs (n : Nat) (x : SliceX) : (s.putSx n x).outs = s.outs := rfl
@[simp] theorem State.putSx_free (n : Nat) (x : SliceX) : (s.putSx n x).free = s.free := rfl
@[simp] theorem State.putSx_pending (n : Nat) (x : SliceX) : (s.putSx n x).pending = s.pending := rfl
@[simp] theorem State.putSx_rd (n : Nat) (x : SliceX) (g : Fld) (i1 j1 p1 : Nat) : (s.putSx n x).rd g i1 j1 p1 = s.rd g i1 j1 p1 := rfl
@[simp] theorem State.putSx_wf (n : Nat) (x : SliceX) : Regs.wf (s.putSx n x).regs = Regs.wf s.regs := rfl

/-! `State.putQ` changes `sl` alone. -/

@[simp] theorem State.putQ_regs (i : Nat) (q : Queue) : (s.putQ i q).regs = s.regs := rfl
@[simp] theorem State.putQ_tim (i : Nat) (q : Queue) : (s.putQ i q).tim = s.tim := rfl
@[simp] theorem State.putQ_evr (i : Nat) (q : Queue) : (s.putQ i q).evr = s.evr := rfl
@[simp] theorem State.putQ_ras (i : Nat) (q : Queue) : (s.putQ i q).ras = s.ras := rfl
@[simp] theorem State.putQ_zn (i : Nat) (q : Queue) : (s.putQ i q).zn = s.zn := rfl
@[simp] theorem State.putQ_stg (i : Nat) (q : Queue) : (s.putQ i q).stg = s.stg := rfl
@[simp] theorem State.putQ_rdn (i : Nat) (q : Queue) : (s.putQ i q).rdn = s.rdn := rfl
@[simp] theorem State.putQ_die (i : Nat) (q : Queue) : (s.putQ i q).die = s.die := rfl
@[simp] theorem State.putQ_ftl (i : Nat) (q : Queue) : (s.putQ i q).ftl = s.ftl := rfl
@[simp] theorem State.putQ_fns (i : Nat) (q : Queue) : (s.putQ i q).fns = s.fns := rfl
@[simp] theorem State.putQ_assocs (i : Nat) (q : Queue) : (s.putQ i q).assocs = s.assocs := rfl
@[simp] theorem State.putQ_cip (i : Nat) (q : Queue) : (s.putQ i q).cip = s.cip := rfl
@[simp] theorem State.putQ_cap (i : Nat) (q : Queue) : (s.putQ i q).cap = s.cap := rfl
@[simp] theorem State.putQ_net (i : Nat) (q : Queue) : (s.putQ i q).net = s.net := rfl
@[simp] theorem State.putQ_pup (i : Nat) (q : Queue) : (s.putQ i q).pup = s.pup := rfl
@[simp] theorem State.putQ_pwr (i : Nat) (q : Queue) : (s.putQ i q).pwr = s.pwr := rfl
@[simp] theorem State.putQ_img (i : Nat) (q : Queue) : (s.putQ i q).img = s.img := rfl
@[simp] theorem State.putQ_gen (i : Nat) (q : Queue) : (s.putQ i q).gen = s.gen := rfl
@[simp] theorem State.putQ_kz (i : Nat) (q : Queue) : (s.putQ i q).kz = s.kz := rfl
@[simp] theorem State.putQ_pcx (i : Nat) (q : Queue) : (s.putQ i q).pcx = s.pcx := rfl
@[simp] theorem State.putQ_drc (i : Nat) (q : Queue) : (s.putQ i q).drc = s.drc := rfl
@[simp] theorem State.putQ_outs (i : Nat) (q : Queue) : (s.putQ i q).outs = s.outs := rfl
@[simp] theorem State.putQ_free (i : Nat) (q : Queue) : (s.putQ i q).free = s.free := rfl
@[simp] theorem State.putQ_pending (i : Nat) (q : Queue) : (s.putQ i q).pending = s.pending := rfl
@[simp] theorem State.putQ_rd (i : Nat) (q : Queue) (g : Fld) (i1 j1 p1 : Nat) : (s.putQ i q).rd g i1 j1 p1 = s.rd g i1 j1 p1 := rfl
@[simp] theorem State.putQ_wf (i : Nat) (q : Queue) : Regs.wf (s.putQ i q).regs = Regs.wf s.regs := rfl

/-! `State.pushCq` changes `sl` alone. -/

@[simp] theorem State.pushCq_regs (f c : Nat) : (s.pushCq f c).regs = s.regs := rfl
@[simp] theorem State.pushCq_tim (f c : Nat) : (s.pushCq f c).tim = s.tim := rfl
@[simp] theorem State.pushCq_evr (f c : Nat) : (s.pushCq f c).evr = s.evr := rfl
@[simp] theorem State.pushCq_ras (f c : Nat) : (s.pushCq f c).ras = s.ras := rfl
@[simp] theorem State.pushCq_zn (f c : Nat) : (s.pushCq f c).zn = s.zn := rfl
@[simp] theorem State.pushCq_stg (f c : Nat) : (s.pushCq f c).stg = s.stg := rfl
@[simp] theorem State.pushCq_rdn (f c : Nat) : (s.pushCq f c).rdn = s.rdn := rfl
@[simp] theorem State.pushCq_die (f c : Nat) : (s.pushCq f c).die = s.die := rfl
@[simp] theorem State.pushCq_ftl (f c : Nat) : (s.pushCq f c).ftl = s.ftl := rfl
@[simp] theorem State.pushCq_fns (f c : Nat) : (s.pushCq f c).fns = s.fns := rfl
@[simp] theorem State.pushCq_assocs (f c : Nat) : (s.pushCq f c).assocs = s.assocs := rfl
@[simp] theorem State.pushCq_cip (f c : Nat) : (s.pushCq f c).cip = s.cip := rfl
@[simp] theorem State.pushCq_cap (f c : Nat) : (s.pushCq f c).cap = s.cap := rfl
@[simp] theorem State.pushCq_net (f c : Nat) : (s.pushCq f c).net = s.net := rfl
@[simp] theorem State.pushCq_pup (f c : Nat) : (s.pushCq f c).pup = s.pup := rfl
@[simp] theorem State.pushCq_pwr (f c : Nat) : (s.pushCq f c).pwr = s.pwr := rfl
@[simp] theorem State.pushCq_img (f c : Nat) : (s.pushCq f c).img = s.img := rfl
@[simp] theorem State.pushCq_gen (f c : Nat) : (s.pushCq f c).gen = s.gen := rfl
@[simp] theorem State.pushCq_kz (f c : Nat) : (s.pushCq f c).kz = s.kz := rfl
@[simp] theorem State.pushCq_pcx (f c : Nat) : (s.pushCq f c).pcx = s.pcx := rfl
@[simp] theorem State.pushCq_drc (f c : Nat) : (s.pushCq f c).drc = s.drc := rfl
@[simp] theorem State.pushCq_outs (f c : Nat) : (s.pushCq f c).outs = s.outs := rfl
@[simp] theorem State.pushCq_free (f c : Nat) : (s.pushCq f c).free = s.free := rfl
@[simp] theorem State.pushCq_pending (f c : Nat) : (s.pushCq f c).pending = s.pending := rfl
@[simp] theorem State.pushCq_rd (f c : Nat) (g : Fld) (i1 j1 p1 : Nat) : (s.pushCq f c).rd g i1 j1 p1 = s.rd g i1 j1 p1 := rfl
@[simp] theorem State.pushCq_wf (f c : Nat) : Regs.wf (s.pushCq f c).regs = Regs.wf s.regs := rfl

/-! `State.putVec` changes `sl` alone. -/

@[simp] theorem State.putVec_regs (v : VecSt) : (s.putVec v).regs = s.regs := rfl
@[simp] theorem State.putVec_tim (v : VecSt) : (s.putVec v).tim = s.tim := rfl
@[simp] theorem State.putVec_evr (v : VecSt) : (s.putVec v).evr = s.evr := rfl
@[simp] theorem State.putVec_ras (v : VecSt) : (s.putVec v).ras = s.ras := rfl
@[simp] theorem State.putVec_zn (v : VecSt) : (s.putVec v).zn = s.zn := rfl
@[simp] theorem State.putVec_stg (v : VecSt) : (s.putVec v).stg = s.stg := rfl
@[simp] theorem State.putVec_rdn (v : VecSt) : (s.putVec v).rdn = s.rdn := rfl
@[simp] theorem State.putVec_die (v : VecSt) : (s.putVec v).die = s.die := rfl
@[simp] theorem State.putVec_ftl (v : VecSt) : (s.putVec v).ftl = s.ftl := rfl
@[simp] theorem State.putVec_fns (v : VecSt) : (s.putVec v).fns = s.fns := rfl
@[simp] theorem State.putVec_assocs (v : VecSt) : (s.putVec v).assocs = s.assocs := rfl
@[simp] theorem State.putVec_cip (v : VecSt) : (s.putVec v).cip = s.cip := rfl
@[simp] theorem State.putVec_cap (v : VecSt) : (s.putVec v).cap = s.cap := rfl
@[simp] theorem State.putVec_net (v : VecSt) : (s.putVec v).net = s.net := rfl
@[simp] theorem State.putVec_pup (v : VecSt) : (s.putVec v).pup = s.pup := rfl
@[simp] theorem State.putVec_pwr (v : VecSt) : (s.putVec v).pwr = s.pwr := rfl
@[simp] theorem State.putVec_img (v : VecSt) : (s.putVec v).img = s.img := rfl
@[simp] theorem State.putVec_gen (v : VecSt) : (s.putVec v).gen = s.gen := rfl
@[simp] theorem State.putVec_kz (v : VecSt) : (s.putVec v).kz = s.kz := rfl
@[simp] theorem State.putVec_pcx (v : VecSt) : (s.putVec v).pcx = s.pcx := rfl
@[simp] theorem State.putVec_drc (v : VecSt) : (s.putVec v).drc = s.drc := rfl
@[simp] theorem State.putVec_outs (v : VecSt) : (s.putVec v).outs = s.outs := rfl
@[simp] theorem State.putVec_free (v : VecSt) : (s.putVec v).free = s.free := rfl
@[simp] theorem State.putVec_pending (v : VecSt) : (s.putVec v).pending = s.pending := rfl
@[simp] theorem State.putVec_rd (v : VecSt) (g : Fld) (i1 j1 p1 : Nat) : (s.putVec v).rd g i1 j1 p1 = s.rd g i1 j1 p1 := rfl
@[simp] theorem State.putVec_wf (v : VecSt) : Regs.wf (s.putVec v).regs = Regs.wf s.regs := rfl

/-! `State.putCmd` changes `zn` alone. -/

@[simp] theorem State.putCmd_regs (c : Cmd) : (s.putCmd c).regs = s.regs := rfl
@[simp] theorem State.putCmd_tim (c : Cmd) : (s.putCmd c).tim = s.tim := rfl
@[simp] theorem State.putCmd_evr (c : Cmd) : (s.putCmd c).evr = s.evr := rfl
@[simp] theorem State.putCmd_ras (c : Cmd) : (s.putCmd c).ras = s.ras := rfl
@[simp] theorem State.putCmd_sl (c : Cmd) : (s.putCmd c).sl = s.sl := rfl
@[simp] theorem State.putCmd_stg (c : Cmd) : (s.putCmd c).stg = s.stg := rfl
@[simp] theorem State.putCmd_rdn (c : Cmd) : (s.putCmd c).rdn = s.rdn := rfl
@[simp] theorem State.putCmd_die (c : Cmd) : (s.putCmd c).die = s.die := rfl
@[simp] theorem State.putCmd_ftl (c : Cmd) : (s.putCmd c).ftl = s.ftl := rfl
@[simp] theorem State.putCmd_fns (c : Cmd) : (s.putCmd c).fns = s.fns := rfl
@[simp] theorem State.putCmd_assocs (c : Cmd) : (s.putCmd c).assocs = s.assocs := rfl
@[simp] theorem State.putCmd_cip (c : Cmd) : (s.putCmd c).cip = s.cip := rfl
@[simp] theorem State.putCmd_cap (c : Cmd) : (s.putCmd c).cap = s.cap := rfl
@[simp] theorem State.putCmd_net (c : Cmd) : (s.putCmd c).net = s.net := rfl
@[simp] theorem State.putCmd_pup (c : Cmd) : (s.putCmd c).pup = s.pup := rfl
@[simp] theorem State.putCmd_pwr (c : Cmd) : (s.putCmd c).pwr = s.pwr := rfl
@[simp] theorem State.putCmd_img (c : Cmd) : (s.putCmd c).img = s.img := rfl
@[simp] theorem State.putCmd_gen (c : Cmd) : (s.putCmd c).gen = s.gen := rfl
@[simp] theorem State.putCmd_kz (c : Cmd) : (s.putCmd c).kz = s.kz := rfl
@[simp] theorem State.putCmd_pcx (c : Cmd) : (s.putCmd c).pcx = s.pcx := rfl
@[simp] theorem State.putCmd_drc (c : Cmd) : (s.putCmd c).drc = s.drc := rfl
@[simp] theorem State.putCmd_outs (c : Cmd) : (s.putCmd c).outs = s.outs := rfl
@[simp] theorem State.putCmd_free (c : Cmd) : (s.putCmd c).free = s.free := rfl
@[simp] theorem State.putCmd_pending (c : Cmd) : (s.putCmd c).pending = s.pending := rfl
@[simp] theorem State.putCmd_rd (c : Cmd) (g : Fld) (i1 j1 p1 : Nat) : (s.putCmd c).rd g i1 j1 p1 = s.rd g i1 j1 p1 := rfl
@[simp] theorem State.putCmd_wf (c : Cmd) : Regs.wf (s.putCmd c).regs = Regs.wf s.regs := rfl

/-! `State.addCmd` changes `zn` alone. -/

@[simp] theorem State.addCmd_regs (c : Cmd) : (s.addCmd c).regs = s.regs := rfl
@[simp] theorem State.addCmd_tim (c : Cmd) : (s.addCmd c).tim = s.tim := rfl
@[simp] theorem State.addCmd_evr (c : Cmd) : (s.addCmd c).evr = s.evr := rfl
@[simp] theorem State.addCmd_ras (c : Cmd) : (s.addCmd c).ras = s.ras := rfl
@[simp] theorem State.addCmd_sl (c : Cmd) : (s.addCmd c).sl = s.sl := rfl
@[simp] theorem State.addCmd_stg (c : Cmd) : (s.addCmd c).stg = s.stg := rfl
@[simp] theorem State.addCmd_rdn (c : Cmd) : (s.addCmd c).rdn = s.rdn := rfl
@[simp] theorem State.addCmd_die (c : Cmd) : (s.addCmd c).die = s.die := rfl
@[simp] theorem State.addCmd_ftl (c : Cmd) : (s.addCmd c).ftl = s.ftl := rfl
@[simp] theorem State.addCmd_fns (c : Cmd) : (s.addCmd c).fns = s.fns := rfl
@[simp] theorem State.addCmd_assocs (c : Cmd) : (s.addCmd c).assocs = s.assocs := rfl
@[simp] theorem State.addCmd_cip (c : Cmd) : (s.addCmd c).cip = s.cip := rfl
@[simp] theorem State.addCmd_cap (c : Cmd) : (s.addCmd c).cap = s.cap := rfl
@[simp] theorem State.addCmd_net (c : Cmd) : (s.addCmd c).net = s.net := rfl
@[simp] theorem State.addCmd_pup (c : Cmd) : (s.addCmd c).pup = s.pup := rfl
@[simp] theorem State.addCmd_pwr (c : Cmd) : (s.addCmd c).pwr = s.pwr := rfl
@[simp] theorem State.addCmd_img (c : Cmd) : (s.addCmd c).img = s.img := rfl
@[simp] theorem State.addCmd_gen (c : Cmd) : (s.addCmd c).gen = s.gen := rfl
@[simp] theorem State.addCmd_kz (c : Cmd) : (s.addCmd c).kz = s.kz := rfl
@[simp] theorem State.addCmd_pcx (c : Cmd) : (s.addCmd c).pcx = s.pcx := rfl
@[simp] theorem State.addCmd_drc (c : Cmd) : (s.addCmd c).drc = s.drc := rfl
@[simp] theorem State.addCmd_outs (c : Cmd) : (s.addCmd c).outs = s.outs := rfl
@[simp] theorem State.addCmd_free (c : Cmd) : (s.addCmd c).free = s.free := rfl
@[simp] theorem State.addCmd_pending (c : Cmd) : (s.addCmd c).pending = s.pending := rfl
@[simp] theorem State.addCmd_rd (c : Cmd) (g : Fld) (i1 j1 p1 : Nat) : (s.addCmd c).rd g i1 j1 p1 = s.rd g i1 j1 p1 := rfl
@[simp] theorem State.addCmd_wf (c : Cmd) : Regs.wf (s.addCmd c).regs = Regs.wf s.regs := rfl

/-! `State.dropCmd` changes `zn` alone. -/

@[simp] theorem State.dropCmd_regs (q c : Nat) : (s.dropCmd q c).regs = s.regs := rfl
@[simp] theorem State.dropCmd_tim (q c : Nat) : (s.dropCmd q c).tim = s.tim := rfl
@[simp] theorem State.dropCmd_evr (q c : Nat) : (s.dropCmd q c).evr = s.evr := rfl
@[simp] theorem State.dropCmd_ras (q c : Nat) : (s.dropCmd q c).ras = s.ras := rfl
@[simp] theorem State.dropCmd_sl (q c : Nat) : (s.dropCmd q c).sl = s.sl := rfl
@[simp] theorem State.dropCmd_stg (q c : Nat) : (s.dropCmd q c).stg = s.stg := rfl
@[simp] theorem State.dropCmd_rdn (q c : Nat) : (s.dropCmd q c).rdn = s.rdn := rfl
@[simp] theorem State.dropCmd_die (q c : Nat) : (s.dropCmd q c).die = s.die := rfl
@[simp] theorem State.dropCmd_ftl (q c : Nat) : (s.dropCmd q c).ftl = s.ftl := rfl
@[simp] theorem State.dropCmd_fns (q c : Nat) : (s.dropCmd q c).fns = s.fns := rfl
@[simp] theorem State.dropCmd_assocs (q c : Nat) : (s.dropCmd q c).assocs = s.assocs := rfl
@[simp] theorem State.dropCmd_cip (q c : Nat) : (s.dropCmd q c).cip = s.cip := rfl
@[simp] theorem State.dropCmd_cap (q c : Nat) : (s.dropCmd q c).cap = s.cap := rfl
@[simp] theorem State.dropCmd_net (q c : Nat) : (s.dropCmd q c).net = s.net := rfl
@[simp] theorem State.dropCmd_pup (q c : Nat) : (s.dropCmd q c).pup = s.pup := rfl
@[simp] theorem State.dropCmd_pwr (q c : Nat) : (s.dropCmd q c).pwr = s.pwr := rfl
@[simp] theorem State.dropCmd_img (q c : Nat) : (s.dropCmd q c).img = s.img := rfl
@[simp] theorem State.dropCmd_gen (q c : Nat) : (s.dropCmd q c).gen = s.gen := rfl
@[simp] theorem State.dropCmd_kz (q c : Nat) : (s.dropCmd q c).kz = s.kz := rfl
@[simp] theorem State.dropCmd_pcx (q c : Nat) : (s.dropCmd q c).pcx = s.pcx := rfl
@[simp] theorem State.dropCmd_drc (q c : Nat) : (s.dropCmd q c).drc = s.drc := rfl
@[simp] theorem State.dropCmd_outs (q c : Nat) : (s.dropCmd q c).outs = s.outs := rfl
@[simp] theorem State.dropCmd_free (q c : Nat) : (s.dropCmd q c).free = s.free := rfl
@[simp] theorem State.dropCmd_pending (q c : Nat) : (s.dropCmd q c).pending = s.pending := rfl
@[simp] theorem State.dropCmd_rd (q c : Nat) (g : Fld) (i1 j1 p1 : Nat) : (s.dropCmd q c).rd g i1 j1 p1 = s.rd g i1 j1 p1 := rfl
@[simp] theorem State.dropCmd_wf (q c : Nat) : Regs.wf (s.dropCmd q c).regs = Regs.wf s.regs := rfl

/-! `State.setUd` changes `zn` alone. -/

@[simp] theorem State.setUd_regs (k v : Nat) : (s.setUd k v).regs = s.regs := rfl
@[simp] theorem State.setUd_tim (k v : Nat) : (s.setUd k v).tim = s.tim := rfl
@[simp] theorem State.setUd_evr (k v : Nat) : (s.setUd k v).evr = s.evr := rfl
@[simp] theorem State.setUd_ras (k v : Nat) : (s.setUd k v).ras = s.ras := rfl
@[simp] theorem State.setUd_sl (k v : Nat) : (s.setUd k v).sl = s.sl := rfl
@[simp] theorem State.setUd_stg (k v : Nat) : (s.setUd k v).stg = s.stg := rfl
@[simp] theorem State.setUd_rdn (k v : Nat) : (s.setUd k v).rdn = s.rdn := rfl
@[simp] theorem State.setUd_die (k v : Nat) : (s.setUd k v).die = s.die := rfl
@[simp] theorem State.setUd_ftl (k v : Nat) : (s.setUd k v).ftl = s.ftl := rfl
@[simp] theorem State.setUd_fns (k v : Nat) : (s.setUd k v).fns = s.fns := rfl
@[simp] theorem State.setUd_assocs (k v : Nat) : (s.setUd k v).assocs = s.assocs := rfl
@[simp] theorem State.setUd_cip (k v : Nat) : (s.setUd k v).cip = s.cip := rfl
@[simp] theorem State.setUd_cap (k v : Nat) : (s.setUd k v).cap = s.cap := rfl
@[simp] theorem State.setUd_net (k v : Nat) : (s.setUd k v).net = s.net := rfl
@[simp] theorem State.setUd_pup (k v : Nat) : (s.setUd k v).pup = s.pup := rfl
@[simp] theorem State.setUd_pwr (k v : Nat) : (s.setUd k v).pwr = s.pwr := rfl
@[simp] theorem State.setUd_img (k v : Nat) : (s.setUd k v).img = s.img := rfl
@[simp] theorem State.setUd_gen (k v : Nat) : (s.setUd k v).gen = s.gen := rfl
@[simp] theorem State.setUd_kz (k v : Nat) : (s.setUd k v).kz = s.kz := rfl
@[simp] theorem State.setUd_pcx (k v : Nat) : (s.setUd k v).pcx = s.pcx := rfl
@[simp] theorem State.setUd_drc (k v : Nat) : (s.setUd k v).drc = s.drc := rfl
@[simp] theorem State.setUd_outs (k v : Nat) : (s.setUd k v).outs = s.outs := rfl
@[simp] theorem State.setUd_free (k v : Nat) : (s.setUd k v).free = s.free := rfl
@[simp] theorem State.setUd_pending (k v : Nat) : (s.setUd k v).pending = s.pending := rfl
@[simp] theorem State.setUd_rd (k v : Nat) (g : Fld) (i1 j1 p1 : Nat) : (s.setUd k v).rd g i1 j1 p1 = s.rd g i1 j1 p1 := rfl
@[simp] theorem State.setUd_wf (k v : Nat) : Regs.wf (s.setUd k v).regs = Regs.wf s.regs := rfl

/-! `State.jn` changes `ftl` alone. -/

@[simp] theorem State.jn_regs (ty : Nat) (f : List Nat) (act : JAct) : (s.jn ty f act).regs = s.regs := rfl
@[simp] theorem State.jn_tim (ty : Nat) (f : List Nat) (act : JAct) : (s.jn ty f act).tim = s.tim := rfl
@[simp] theorem State.jn_evr (ty : Nat) (f : List Nat) (act : JAct) : (s.jn ty f act).evr = s.evr := rfl
@[simp] theorem State.jn_ras (ty : Nat) (f : List Nat) (act : JAct) : (s.jn ty f act).ras = s.ras := rfl
@[simp] theorem State.jn_sl (ty : Nat) (f : List Nat) (act : JAct) : (s.jn ty f act).sl = s.sl := rfl
@[simp] theorem State.jn_zn (ty : Nat) (f : List Nat) (act : JAct) : (s.jn ty f act).zn = s.zn := rfl
@[simp] theorem State.jn_stg (ty : Nat) (f : List Nat) (act : JAct) : (s.jn ty f act).stg = s.stg := rfl
@[simp] theorem State.jn_rdn (ty : Nat) (f : List Nat) (act : JAct) : (s.jn ty f act).rdn = s.rdn := rfl
@[simp] theorem State.jn_die (ty : Nat) (f : List Nat) (act : JAct) : (s.jn ty f act).die = s.die := rfl
@[simp] theorem State.jn_fns (ty : Nat) (f : List Nat) (act : JAct) : (s.jn ty f act).fns = s.fns := rfl
@[simp] theorem State.jn_assocs (ty : Nat) (f : List Nat) (act : JAct) : (s.jn ty f act).assocs = s.assocs := rfl
@[simp] theorem State.jn_cip (ty : Nat) (f : List Nat) (act : JAct) : (s.jn ty f act).cip = s.cip := rfl
@[simp] theorem State.jn_cap (ty : Nat) (f : List Nat) (act : JAct) : (s.jn ty f act).cap = s.cap := rfl
@[simp] theorem State.jn_net (ty : Nat) (f : List Nat) (act : JAct) : (s.jn ty f act).net = s.net := rfl
@[simp] theorem State.jn_pup (ty : Nat) (f : List Nat) (act : JAct) : (s.jn ty f act).pup = s.pup := rfl
@[simp] theorem State.jn_pwr (ty : Nat) (f : List Nat) (act : JAct) : (s.jn ty f act).pwr = s.pwr := rfl
@[simp] theorem State.jn_img (ty : Nat) (f : List Nat) (act : JAct) : (s.jn ty f act).img = s.img := rfl
@[simp] theorem State.jn_gen (ty : Nat) (f : List Nat) (act : JAct) : (s.jn ty f act).gen = s.gen := rfl
@[simp] theorem State.jn_kz (ty : Nat) (f : List Nat) (act : JAct) : (s.jn ty f act).kz = s.kz := rfl
@[simp] theorem State.jn_pcx (ty : Nat) (f : List Nat) (act : JAct) : (s.jn ty f act).pcx = s.pcx := rfl
@[simp] theorem State.jn_drc (ty : Nat) (f : List Nat) (act : JAct) : (s.jn ty f act).drc = s.drc := rfl
@[simp] theorem State.jn_outs (ty : Nat) (f : List Nat) (act : JAct) : (s.jn ty f act).outs = s.outs := rfl
@[simp] theorem State.jn_free (ty : Nat) (f : List Nat) (act : JAct) : (s.jn ty f act).free = s.free := rfl
@[simp] theorem State.jn_pending (ty : Nat) (f : List Nat) (act : JAct) : (s.jn ty f act).pending = s.pending := rfl
@[simp] theorem State.jn_rd (ty : Nat) (f : List Nat) (act : JAct) (g : Fld) (i1 j1 p1 : Nat) : (s.jn ty f act).rd g i1 j1 p1 = s.rd g i1 j1 p1 := rfl
@[simp] theorem State.jn_wf (ty : Nat) (f : List Nat) (act : JAct) : Regs.wf (s.jn ty f act).regs = Regs.wf s.regs := rfl

/-! `State.putMent` changes `ftl` alone. -/

@[simp] theorem State.putMent_regs (n l : Nat) (e : MEnt) : (s.putMent n l e).regs = s.regs := rfl
@[simp] theorem State.putMent_tim (n l : Nat) (e : MEnt) : (s.putMent n l e).tim = s.tim := rfl
@[simp] theorem State.putMent_evr (n l : Nat) (e : MEnt) : (s.putMent n l e).evr = s.evr := rfl
@[simp] theorem State.putMent_ras (n l : Nat) (e : MEnt) : (s.putMent n l e).ras = s.ras := rfl
@[simp] theorem State.putMent_sl (n l : Nat) (e : MEnt) : (s.putMent n l e).sl = s.sl := rfl
@[simp] theorem State.putMent_zn (n l : Nat) (e : MEnt) : (s.putMent n l e).zn = s.zn := rfl
@[simp] theorem State.putMent_stg (n l : Nat) (e : MEnt) : (s.putMent n l e).stg = s.stg := rfl
@[simp] theorem State.putMent_rdn (n l : Nat) (e : MEnt) : (s.putMent n l e).rdn = s.rdn := rfl
@[simp] theorem State.putMent_die (n l : Nat) (e : MEnt) : (s.putMent n l e).die = s.die := rfl
@[simp] theorem State.putMent_fns (n l : Nat) (e : MEnt) : (s.putMent n l e).fns = s.fns := rfl
@[simp] theorem State.putMent_assocs (n l : Nat) (e : MEnt) : (s.putMent n l e).assocs = s.assocs := rfl
@[simp] theorem State.putMent_cip (n l : Nat) (e : MEnt) : (s.putMent n l e).cip = s.cip := rfl
@[simp] theorem State.putMent_cap (n l : Nat) (e : MEnt) : (s.putMent n l e).cap = s.cap := rfl
@[simp] theorem State.putMent_net (n l : Nat) (e : MEnt) : (s.putMent n l e).net = s.net := rfl
@[simp] theorem State.putMent_pup (n l : Nat) (e : MEnt) : (s.putMent n l e).pup = s.pup := rfl
@[simp] theorem State.putMent_pwr (n l : Nat) (e : MEnt) : (s.putMent n l e).pwr = s.pwr := rfl
@[simp] theorem State.putMent_img (n l : Nat) (e : MEnt) : (s.putMent n l e).img = s.img := rfl
@[simp] theorem State.putMent_gen (n l : Nat) (e : MEnt) : (s.putMent n l e).gen = s.gen := rfl
@[simp] theorem State.putMent_kz (n l : Nat) (e : MEnt) : (s.putMent n l e).kz = s.kz := rfl
@[simp] theorem State.putMent_pcx (n l : Nat) (e : MEnt) : (s.putMent n l e).pcx = s.pcx := rfl
@[simp] theorem State.putMent_drc (n l : Nat) (e : MEnt) : (s.putMent n l e).drc = s.drc := rfl
@[simp] theorem State.putMent_outs (n l : Nat) (e : MEnt) : (s.putMent n l e).outs = s.outs := rfl
@[simp] theorem State.putMent_free (n l : Nat) (e : MEnt) : (s.putMent n l e).free = s.free := rfl
@[simp] theorem State.putMent_pending (n l : Nat) (e : MEnt) : (s.putMent n l e).pending = s.pending := rfl
@[simp] theorem State.putMent_rd (n l : Nat) (e : MEnt) (g : Fld) (i1 j1 p1 : Nat) : (s.putMent n l e).rd g i1 j1 p1 = s.rd g i1 j1 p1 := rfl
@[simp] theorem State.putMent_wf (n l : Nat) (e : MEnt) : Regs.wf (s.putMent n l e).regs = Regs.wf s.regs := rfl

/-! `State.putDie` changes `die` alone. -/

@[simp] theorem State.putDie_regs (d : Nat) (x : DieSt) : (s.putDie d x).regs = s.regs := rfl
@[simp] theorem State.putDie_tim (d : Nat) (x : DieSt) : (s.putDie d x).tim = s.tim := rfl
@[simp] theorem State.putDie_evr (d : Nat) (x : DieSt) : (s.putDie d x).evr = s.evr := rfl
@[simp] theorem State.putDie_ras (d : Nat) (x : DieSt) : (s.putDie d x).ras = s.ras := rfl
@[simp] theorem State.putDie_sl (d : Nat) (x : DieSt) : (s.putDie d x).sl = s.sl := rfl
@[simp] theorem State.putDie_zn (d : Nat) (x : DieSt) : (s.putDie d x).zn = s.zn := rfl
@[simp] theorem State.putDie_stg (d : Nat) (x : DieSt) : (s.putDie d x).stg = s.stg := rfl
@[simp] theorem State.putDie_rdn (d : Nat) (x : DieSt) : (s.putDie d x).rdn = s.rdn := rfl
@[simp] theorem State.putDie_ftl (d : Nat) (x : DieSt) : (s.putDie d x).ftl = s.ftl := rfl
@[simp] theorem State.putDie_fns (d : Nat) (x : DieSt) : (s.putDie d x).fns = s.fns := rfl
@[simp] theorem State.putDie_assocs (d : Nat) (x : DieSt) : (s.putDie d x).assocs = s.assocs := rfl
@[simp] theorem State.putDie_cip (d : Nat) (x : DieSt) : (s.putDie d x).cip = s.cip := rfl
@[simp] theorem State.putDie_cap (d : Nat) (x : DieSt) : (s.putDie d x).cap = s.cap := rfl
@[simp] theorem State.putDie_net (d : Nat) (x : DieSt) : (s.putDie d x).net = s.net := rfl
@[simp] theorem State.putDie_pup (d : Nat) (x : DieSt) : (s.putDie d x).pup = s.pup := rfl
@[simp] theorem State.putDie_pwr (d : Nat) (x : DieSt) : (s.putDie d x).pwr = s.pwr := rfl
@[simp] theorem State.putDie_img (d : Nat) (x : DieSt) : (s.putDie d x).img = s.img := rfl
@[simp] theorem State.putDie_gen (d : Nat) (x : DieSt) : (s.putDie d x).gen = s.gen := rfl
@[simp] theorem State.putDie_kz (d : Nat) (x : DieSt) : (s.putDie d x).kz = s.kz := rfl
@[simp] theorem State.putDie_pcx (d : Nat) (x : DieSt) : (s.putDie d x).pcx = s.pcx := rfl
@[simp] theorem State.putDie_drc (d : Nat) (x : DieSt) : (s.putDie d x).drc = s.drc := rfl
@[simp] theorem State.putDie_outs (d : Nat) (x : DieSt) : (s.putDie d x).outs = s.outs := rfl
@[simp] theorem State.putDie_free (d : Nat) (x : DieSt) : (s.putDie d x).free = s.free := rfl
@[simp] theorem State.putDie_pending (d : Nat) (x : DieSt) : (s.putDie d x).pending = s.pending := rfl
@[simp] theorem State.putDie_rd (d : Nat) (x : DieSt) (g : Fld) (i1 j1 p1 : Nat) : (s.putDie d x).rd g i1 j1 p1 = s.rd g i1 j1 p1 := rfl
@[simp] theorem State.putDie_wf (d : Nat) (x : DieSt) : Regs.wf (s.putDie d x).regs = Regs.wf s.regs := rfl

/-! `State.putBlk` changes `die` alone. -/

@[simp] theorem State.putBlk_regs (b : Blk) (x : BlkSt) : (s.putBlk b x).regs = s.regs := rfl
@[simp] theorem State.putBlk_tim (b : Blk) (x : BlkSt) : (s.putBlk b x).tim = s.tim := rfl
@[simp] theorem State.putBlk_evr (b : Blk) (x : BlkSt) : (s.putBlk b x).evr = s.evr := rfl
@[simp] theorem State.putBlk_ras (b : Blk) (x : BlkSt) : (s.putBlk b x).ras = s.ras := rfl
@[simp] theorem State.putBlk_sl (b : Blk) (x : BlkSt) : (s.putBlk b x).sl = s.sl := rfl
@[simp] theorem State.putBlk_zn (b : Blk) (x : BlkSt) : (s.putBlk b x).zn = s.zn := rfl
@[simp] theorem State.putBlk_stg (b : Blk) (x : BlkSt) : (s.putBlk b x).stg = s.stg := rfl
@[simp] theorem State.putBlk_rdn (b : Blk) (x : BlkSt) : (s.putBlk b x).rdn = s.rdn := rfl
@[simp] theorem State.putBlk_ftl (b : Blk) (x : BlkSt) : (s.putBlk b x).ftl = s.ftl := rfl
@[simp] theorem State.putBlk_fns (b : Blk) (x : BlkSt) : (s.putBlk b x).fns = s.fns := rfl
@[simp] theorem State.putBlk_assocs (b : Blk) (x : BlkSt) : (s.putBlk b x).assocs = s.assocs := rfl
@[simp] theorem State.putBlk_cip (b : Blk) (x : BlkSt) : (s.putBlk b x).cip = s.cip := rfl
@[simp] theorem State.putBlk_cap (b : Blk) (x : BlkSt) : (s.putBlk b x).cap = s.cap := rfl
@[simp] theorem State.putBlk_net (b : Blk) (x : BlkSt) : (s.putBlk b x).net = s.net := rfl
@[simp] theorem State.putBlk_pup (b : Blk) (x : BlkSt) : (s.putBlk b x).pup = s.pup := rfl
@[simp] theorem State.putBlk_pwr (b : Blk) (x : BlkSt) : (s.putBlk b x).pwr = s.pwr := rfl
@[simp] theorem State.putBlk_img (b : Blk) (x : BlkSt) : (s.putBlk b x).img = s.img := rfl
@[simp] theorem State.putBlk_gen (b : Blk) (x : BlkSt) : (s.putBlk b x).gen = s.gen := rfl
@[simp] theorem State.putBlk_kz (b : Blk) (x : BlkSt) : (s.putBlk b x).kz = s.kz := rfl
@[simp] theorem State.putBlk_pcx (b : Blk) (x : BlkSt) : (s.putBlk b x).pcx = s.pcx := rfl
@[simp] theorem State.putBlk_drc (b : Blk) (x : BlkSt) : (s.putBlk b x).drc = s.drc := rfl
@[simp] theorem State.putBlk_outs (b : Blk) (x : BlkSt) : (s.putBlk b x).outs = s.outs := rfl
@[simp] theorem State.putBlk_free (b : Blk) (x : BlkSt) : (s.putBlk b x).free = s.free := rfl
@[simp] theorem State.putBlk_pending (b : Blk) (x : BlkSt) : (s.putBlk b x).pending = s.pending := rfl
@[simp] theorem State.putBlk_rd (b : Blk) (x : BlkSt) (g : Fld) (i1 j1 p1 : Nat) : (s.putBlk b x).rd g i1 j1 p1 = s.rd g i1 j1 p1 := rfl
@[simp] theorem State.putBlk_wf (b : Blk) (x : BlkSt) : Regs.wf (s.putBlk b x).regs = Regs.wf s.regs := rfl

/-! `State.putZx` changes `zn` alone. -/

@[simp] theorem State.putZx_regs (h : Nat) (z : ZoneX) : (s.putZx h z).regs = s.regs := rfl
@[simp] theorem State.putZx_tim (h : Nat) (z : ZoneX) : (s.putZx h z).tim = s.tim := rfl
@[simp] theorem State.putZx_evr (h : Nat) (z : ZoneX) : (s.putZx h z).evr = s.evr := rfl
@[simp] theorem State.putZx_ras (h : Nat) (z : ZoneX) : (s.putZx h z).ras = s.ras := rfl
@[simp] theorem State.putZx_sl (h : Nat) (z : ZoneX) : (s.putZx h z).sl = s.sl := rfl
@[simp] theorem State.putZx_stg (h : Nat) (z : ZoneX) : (s.putZx h z).stg = s.stg := rfl
@[simp] theorem State.putZx_rdn (h : Nat) (z : ZoneX) : (s.putZx h z).rdn = s.rdn := rfl
@[simp] theorem State.putZx_die (h : Nat) (z : ZoneX) : (s.putZx h z).die = s.die := rfl
@[simp] theorem State.putZx_ftl (h : Nat) (z : ZoneX) : (s.putZx h z).ftl = s.ftl := rfl
@[simp] theorem State.putZx_fns (h : Nat) (z : ZoneX) : (s.putZx h z).fns = s.fns := rfl
@[simp] theorem State.putZx_assocs (h : Nat) (z : ZoneX) : (s.putZx h z).assocs = s.assocs := rfl
@[simp] theorem State.putZx_cip (h : Nat) (z : ZoneX) : (s.putZx h z).cip = s.cip := rfl
@[simp] theorem State.putZx_cap (h : Nat) (z : ZoneX) : (s.putZx h z).cap = s.cap := rfl
@[simp] theorem State.putZx_net (h : Nat) (z : ZoneX) : (s.putZx h z).net = s.net := rfl
@[simp] theorem State.putZx_pup (h : Nat) (z : ZoneX) : (s.putZx h z).pup = s.pup := rfl
@[simp] theorem State.putZx_pwr (h : Nat) (z : ZoneX) : (s.putZx h z).pwr = s.pwr := rfl
@[simp] theorem State.putZx_img (h : Nat) (z : ZoneX) : (s.putZx h z).img = s.img := rfl
@[simp] theorem State.putZx_gen (h : Nat) (z : ZoneX) : (s.putZx h z).gen = s.gen := rfl
@[simp] theorem State.putZx_kz (h : Nat) (z : ZoneX) : (s.putZx h z).kz = s.kz := rfl
@[simp] theorem State.putZx_pcx (h : Nat) (z : ZoneX) : (s.putZx h z).pcx = s.pcx := rfl
@[simp] theorem State.putZx_drc (h : Nat) (z : ZoneX) : (s.putZx h z).drc = s.drc := rfl
@[simp] theorem State.putZx_outs (h : Nat) (z : ZoneX) : (s.putZx h z).outs = s.outs := rfl
@[simp] theorem State.putZx_free (h : Nat) (z : ZoneX) : (s.putZx h z).free = s.free := rfl
@[simp] theorem State.putZx_pending (h : Nat) (z : ZoneX) : (s.putZx h z).pending = s.pending := rfl
@[simp] theorem State.putZx_rd (h : Nat) (z : ZoneX) (g : Fld) (i1 j1 p1 : Nat) : (s.putZx h z).rd g i1 j1 p1 = s.rd g i1 j1 p1 := rfl
@[simp] theorem State.putZx_wf (h : Nat) (z : ZoneX) : Regs.wf (s.putZx h z).regs = Regs.wf s.regs := rfl

/-! `State.putQp` changes `net` alone. -/

@[simp] theorem State.putQp_regs (n : Nat) (x : Qp) : (s.putQp n x).regs = s.regs := rfl
@[simp] theorem State.putQp_tim (n : Nat) (x : Qp) : (s.putQp n x).tim = s.tim := rfl
@[simp] theorem State.putQp_evr (n : Nat) (x : Qp) : (s.putQp n x).evr = s.evr := rfl
@[simp] theorem State.putQp_ras (n : Nat) (x : Qp) : (s.putQp n x).ras = s.ras := rfl
@[simp] theorem State.putQp_sl (n : Nat) (x : Qp) : (s.putQp n x).sl = s.sl := rfl
@[simp] theorem State.putQp_zn (n : Nat) (x : Qp) : (s.putQp n x).zn = s.zn := rfl
@[simp] theorem State.putQp_stg (n : Nat) (x : Qp) : (s.putQp n x).stg = s.stg := rfl
@[simp] theorem State.putQp_rdn (n : Nat) (x : Qp) : (s.putQp n x).rdn = s.rdn := rfl
@[simp] theorem State.putQp_die (n : Nat) (x : Qp) : (s.putQp n x).die = s.die := rfl
@[simp] theorem State.putQp_ftl (n : Nat) (x : Qp) : (s.putQp n x).ftl = s.ftl := rfl
@[simp] theorem State.putQp_fns (n : Nat) (x : Qp) : (s.putQp n x).fns = s.fns := rfl
@[simp] theorem State.putQp_assocs (n : Nat) (x : Qp) : (s.putQp n x).assocs = s.assocs := rfl
@[simp] theorem State.putQp_cip (n : Nat) (x : Qp) : (s.putQp n x).cip = s.cip := rfl
@[simp] theorem State.putQp_cap (n : Nat) (x : Qp) : (s.putQp n x).cap = s.cap := rfl
@[simp] theorem State.putQp_pup (n : Nat) (x : Qp) : (s.putQp n x).pup = s.pup := rfl
@[simp] theorem State.putQp_pwr (n : Nat) (x : Qp) : (s.putQp n x).pwr = s.pwr := rfl
@[simp] theorem State.putQp_img (n : Nat) (x : Qp) : (s.putQp n x).img = s.img := rfl
@[simp] theorem State.putQp_gen (n : Nat) (x : Qp) : (s.putQp n x).gen = s.gen := rfl
@[simp] theorem State.putQp_kz (n : Nat) (x : Qp) : (s.putQp n x).kz = s.kz := rfl
@[simp] theorem State.putQp_pcx (n : Nat) (x : Qp) : (s.putQp n x).pcx = s.pcx := rfl
@[simp] theorem State.putQp_drc (n : Nat) (x : Qp) : (s.putQp n x).drc = s.drc := rfl
@[simp] theorem State.putQp_outs (n : Nat) (x : Qp) : (s.putQp n x).outs = s.outs := rfl
@[simp] theorem State.putQp_free (n : Nat) (x : Qp) : (s.putQp n x).free = s.free := rfl
@[simp] theorem State.putQp_pending (n : Nat) (x : Qp) : (s.putQp n x).pending = s.pending := rfl
@[simp] theorem State.putQp_rd (n : Nat) (x : Qp) (g : Fld) (i1 j1 p1 : Nat) : (s.putQp n x).rd g i1 j1 p1 = s.rd g i1 j1 p1 := rfl
@[simp] theorem State.putQp_wf (n : Nat) (x : Qp) : Regs.wf (s.putQp n x).regs = Regs.wf s.regs := rfl

/-! `State.putSub` changes `net` alone. -/

@[simp] theorem State.putSub_regs (p u : Nat) (x : SubX) : (s.putSub p u x).regs = s.regs := rfl
@[simp] theorem State.putSub_tim (p u : Nat) (x : SubX) : (s.putSub p u x).tim = s.tim := rfl
@[simp] theorem State.putSub_evr (p u : Nat) (x : SubX) : (s.putSub p u x).evr = s.evr := rfl
@[simp] theorem State.putSub_ras (p u : Nat) (x : SubX) : (s.putSub p u x).ras = s.ras := rfl
@[simp] theorem State.putSub_sl (p u : Nat) (x : SubX) : (s.putSub p u x).sl = s.sl := rfl
@[simp] theorem State.putSub_zn (p u : Nat) (x : SubX) : (s.putSub p u x).zn = s.zn := rfl
@[simp] theorem State.putSub_stg (p u : Nat) (x : SubX) : (s.putSub p u x).stg = s.stg := rfl
@[simp] theorem State.putSub_rdn (p u : Nat) (x : SubX) : (s.putSub p u x).rdn = s.rdn := rfl
@[simp] theorem State.putSub_die (p u : Nat) (x : SubX) : (s.putSub p u x).die = s.die := rfl
@[simp] theorem State.putSub_ftl (p u : Nat) (x : SubX) : (s.putSub p u x).ftl = s.ftl := rfl
@[simp] theorem State.putSub_fns (p u : Nat) (x : SubX) : (s.putSub p u x).fns = s.fns := rfl
@[simp] theorem State.putSub_assocs (p u : Nat) (x : SubX) : (s.putSub p u x).assocs = s.assocs := rfl
@[simp] theorem State.putSub_cip (p u : Nat) (x : SubX) : (s.putSub p u x).cip = s.cip := rfl
@[simp] theorem State.putSub_cap (p u : Nat) (x : SubX) : (s.putSub p u x).cap = s.cap := rfl
@[simp] theorem State.putSub_pup (p u : Nat) (x : SubX) : (s.putSub p u x).pup = s.pup := rfl
@[simp] theorem State.putSub_pwr (p u : Nat) (x : SubX) : (s.putSub p u x).pwr = s.pwr := rfl
@[simp] theorem State.putSub_img (p u : Nat) (x : SubX) : (s.putSub p u x).img = s.img := rfl
@[simp] theorem State.putSub_gen (p u : Nat) (x : SubX) : (s.putSub p u x).gen = s.gen := rfl
@[simp] theorem State.putSub_kz (p u : Nat) (x : SubX) : (s.putSub p u x).kz = s.kz := rfl
@[simp] theorem State.putSub_pcx (p u : Nat) (x : SubX) : (s.putSub p u x).pcx = s.pcx := rfl
@[simp] theorem State.putSub_drc (p u : Nat) (x : SubX) : (s.putSub p u x).drc = s.drc := rfl
@[simp] theorem State.putSub_outs (p u : Nat) (x : SubX) : (s.putSub p u x).outs = s.outs := rfl
@[simp] theorem State.putSub_free (p u : Nat) (x : SubX) : (s.putSub p u x).free = s.free := rfl
@[simp] theorem State.putSub_pending (p u : Nat) (x : SubX) : (s.putSub p u x).pending = s.pending := rfl
@[simp] theorem State.putSub_rd (p u : Nat) (x : SubX) (g : Fld) (i1 j1 p1 : Nat) : (s.putSub p u x).rd g i1 j1 p1 = s.rd g i1 j1 p1 := rfl
@[simp] theorem State.putSub_wf (p u : Nat) (x : SubX) : Regs.wf (s.putSub p u x).regs = Regs.wf s.regs := rfl

/-! `State.putStream` changes `cap` alone. -/

@[simp] theorem State.putStream_regs (k : Nat) (x : Stream) : (s.putStream k x).regs = s.regs := rfl
@[simp] theorem State.putStream_tim (k : Nat) (x : Stream) : (s.putStream k x).tim = s.tim := rfl
@[simp] theorem State.putStream_evr (k : Nat) (x : Stream) : (s.putStream k x).evr = s.evr := rfl
@[simp] theorem State.putStream_ras (k : Nat) (x : Stream) : (s.putStream k x).ras = s.ras := rfl
@[simp] theorem State.putStream_sl (k : Nat) (x : Stream) : (s.putStream k x).sl = s.sl := rfl
@[simp] theorem State.putStream_zn (k : Nat) (x : Stream) : (s.putStream k x).zn = s.zn := rfl
@[simp] theorem State.putStream_stg (k : Nat) (x : Stream) : (s.putStream k x).stg = s.stg := rfl
@[simp] theorem State.putStream_rdn (k : Nat) (x : Stream) : (s.putStream k x).rdn = s.rdn := rfl
@[simp] theorem State.putStream_die (k : Nat) (x : Stream) : (s.putStream k x).die = s.die := rfl
@[simp] theorem State.putStream_ftl (k : Nat) (x : Stream) : (s.putStream k x).ftl = s.ftl := rfl
@[simp] theorem State.putStream_fns (k : Nat) (x : Stream) : (s.putStream k x).fns = s.fns := rfl
@[simp] theorem State.putStream_assocs (k : Nat) (x : Stream) : (s.putStream k x).assocs = s.assocs := rfl
@[simp] theorem State.putStream_cip (k : Nat) (x : Stream) : (s.putStream k x).cip = s.cip := rfl
@[simp] theorem State.putStream_net (k : Nat) (x : Stream) : (s.putStream k x).net = s.net := rfl
@[simp] theorem State.putStream_pup (k : Nat) (x : Stream) : (s.putStream k x).pup = s.pup := rfl
@[simp] theorem State.putStream_pwr (k : Nat) (x : Stream) : (s.putStream k x).pwr = s.pwr := rfl
@[simp] theorem State.putStream_img (k : Nat) (x : Stream) : (s.putStream k x).img = s.img := rfl
@[simp] theorem State.putStream_gen (k : Nat) (x : Stream) : (s.putStream k x).gen = s.gen := rfl
@[simp] theorem State.putStream_kz (k : Nat) (x : Stream) : (s.putStream k x).kz = s.kz := rfl
@[simp] theorem State.putStream_pcx (k : Nat) (x : Stream) : (s.putStream k x).pcx = s.pcx := rfl
@[simp] theorem State.putStream_drc (k : Nat) (x : Stream) : (s.putStream k x).drc = s.drc := rfl
@[simp] theorem State.putStream_outs (k : Nat) (x : Stream) : (s.putStream k x).outs = s.outs := rfl
@[simp] theorem State.putStream_free (k : Nat) (x : Stream) : (s.putStream k x).free = s.free := rfl
@[simp] theorem State.putStream_pending (k : Nat) (x : Stream) : (s.putStream k x).pending = s.pending := rfl
@[simp] theorem State.putStream_rd (k : Nat) (x : Stream) (g : Fld) (i1 j1 p1 : Nat) : (s.putStream k x).rd g i1 j1 p1 = s.rd g i1 j1 p1 := rfl
@[simp] theorem State.putStream_wf (k : Nat) (x : Stream) : Regs.wf (s.putStream k x).regs = Regs.wf s.regs := rfl

/-! `State.putLink8` changes `kz` alone. -/

@[simp] theorem State.putLink8_regs (l : Nat) (x : Link) : (s.putLink8 l x).regs = s.regs := rfl
@[simp] theorem State.putLink8_tim (l : Nat) (x : Link) : (s.putLink8 l x).tim = s.tim := rfl
@[simp] theorem State.putLink8_evr (l : Nat) (x : Link) : (s.putLink8 l x).evr = s.evr := rfl
@[simp] theorem State.putLink8_ras (l : Nat) (x : Link) : (s.putLink8 l x).ras = s.ras := rfl
@[simp] theorem State.putLink8_sl (l : Nat) (x : Link) : (s.putLink8 l x).sl = s.sl := rfl
@[simp] theorem State.putLink8_zn (l : Nat) (x : Link) : (s.putLink8 l x).zn = s.zn := rfl
@[simp] theorem State.putLink8_stg (l : Nat) (x : Link) : (s.putLink8 l x).stg = s.stg := rfl
@[simp] theorem State.putLink8_rdn (l : Nat) (x : Link) : (s.putLink8 l x).rdn = s.rdn := rfl
@[simp] theorem State.putLink8_die (l : Nat) (x : Link) : (s.putLink8 l x).die = s.die := rfl
@[simp] theorem State.putLink8_ftl (l : Nat) (x : Link) : (s.putLink8 l x).ftl = s.ftl := rfl
@[simp] theorem State.putLink8_fns (l : Nat) (x : Link) : (s.putLink8 l x).fns = s.fns := rfl
@[simp] theorem State.putLink8_assocs (l : Nat) (x : Link) : (s.putLink8 l x).assocs = s.assocs := rfl
@[simp] theorem State.putLink8_cip (l : Nat) (x : Link) : (s.putLink8 l x).cip = s.cip := rfl
@[simp] theorem State.putLink8_cap (l : Nat) (x : Link) : (s.putLink8 l x).cap = s.cap := rfl
@[simp] theorem State.putLink8_net (l : Nat) (x : Link) : (s.putLink8 l x).net = s.net := rfl
@[simp] theorem State.putLink8_pup (l : Nat) (x : Link) : (s.putLink8 l x).pup = s.pup := rfl
@[simp] theorem State.putLink8_pwr (l : Nat) (x : Link) : (s.putLink8 l x).pwr = s.pwr := rfl
@[simp] theorem State.putLink8_img (l : Nat) (x : Link) : (s.putLink8 l x).img = s.img := rfl
@[simp] theorem State.putLink8_gen (l : Nat) (x : Link) : (s.putLink8 l x).gen = s.gen := rfl
@[simp] theorem State.putLink8_pcx (l : Nat) (x : Link) : (s.putLink8 l x).pcx = s.pcx := rfl
@[simp] theorem State.putLink8_drc (l : Nat) (x : Link) : (s.putLink8 l x).drc = s.drc := rfl
@[simp] theorem State.putLink8_outs (l : Nat) (x : Link) : (s.putLink8 l x).outs = s.outs := rfl
@[simp] theorem State.putLink8_free (l : Nat) (x : Link) : (s.putLink8 l x).free = s.free := rfl
@[simp] theorem State.putLink8_pending (l : Nat) (x : Link) : (s.putLink8 l x).pending = s.pending := rfl
@[simp] theorem State.putLink8_rd (l : Nat) (x : Link) (g : Fld) (i1 j1 p1 : Nat) : (s.putLink8 l x).rd g i1 j1 p1 = s.rd g i1 j1 p1 := rfl
@[simp] theorem State.putLink8_wf (l : Nat) (x : Link) : Regs.wf (s.putLink8 l x).regs = Regs.wf s.regs := rfl

/-! `State.putFn` changes `fns` alone. -/

@[simp] theorem State.putFn_regs (n : Nat) (f : FnSt) : (s.putFn n f).regs = s.regs := rfl
@[simp] theorem State.putFn_tim (n : Nat) (f : FnSt) : (s.putFn n f).tim = s.tim := rfl
@[simp] theorem State.putFn_evr (n : Nat) (f : FnSt) : (s.putFn n f).evr = s.evr := rfl
@[simp] theorem State.putFn_ras (n : Nat) (f : FnSt) : (s.putFn n f).ras = s.ras := rfl
@[simp] theorem State.putFn_sl (n : Nat) (f : FnSt) : (s.putFn n f).sl = s.sl := rfl
@[simp] theorem State.putFn_zn (n : Nat) (f : FnSt) : (s.putFn n f).zn = s.zn := rfl
@[simp] theorem State.putFn_stg (n : Nat) (f : FnSt) : (s.putFn n f).stg = s.stg := rfl
@[simp] theorem State.putFn_rdn (n : Nat) (f : FnSt) : (s.putFn n f).rdn = s.rdn := rfl
@[simp] theorem State.putFn_die (n : Nat) (f : FnSt) : (s.putFn n f).die = s.die := rfl
@[simp] theorem State.putFn_ftl (n : Nat) (f : FnSt) : (s.putFn n f).ftl = s.ftl := rfl
@[simp] theorem State.putFn_assocs (n : Nat) (f : FnSt) : (s.putFn n f).assocs = s.assocs := rfl
@[simp] theorem State.putFn_cip (n : Nat) (f : FnSt) : (s.putFn n f).cip = s.cip := rfl
@[simp] theorem State.putFn_cap (n : Nat) (f : FnSt) : (s.putFn n f).cap = s.cap := rfl
@[simp] theorem State.putFn_net (n : Nat) (f : FnSt) : (s.putFn n f).net = s.net := rfl
@[simp] theorem State.putFn_pup (n : Nat) (f : FnSt) : (s.putFn n f).pup = s.pup := rfl
@[simp] theorem State.putFn_pwr (n : Nat) (f : FnSt) : (s.putFn n f).pwr = s.pwr := rfl
@[simp] theorem State.putFn_img (n : Nat) (f : FnSt) : (s.putFn n f).img = s.img := rfl
@[simp] theorem State.putFn_gen (n : Nat) (f : FnSt) : (s.putFn n f).gen = s.gen := rfl
@[simp] theorem State.putFn_kz (n : Nat) (f : FnSt) : (s.putFn n f).kz = s.kz := rfl
@[simp] theorem State.putFn_pcx (n : Nat) (f : FnSt) : (s.putFn n f).pcx = s.pcx := rfl
@[simp] theorem State.putFn_drc (n : Nat) (f : FnSt) : (s.putFn n f).drc = s.drc := rfl
@[simp] theorem State.putFn_outs (n : Nat) (f : FnSt) : (s.putFn n f).outs = s.outs := rfl
@[simp] theorem State.putFn_free (n : Nat) (f : FnSt) : (s.putFn n f).free = s.free := rfl
@[simp] theorem State.putFn_pending (n : Nat) (f : FnSt) : (s.putFn n f).pending = s.pending := rfl
@[simp] theorem State.putFn_rd (n : Nat) (f : FnSt) (g : Fld) (i1 j1 p1 : Nat) : (s.putFn n f).rd g i1 j1 p1 = s.rd g i1 j1 p1 := rfl
@[simp] theorem State.putFn_wf (n : Nat) (f : FnSt) : Regs.wf (s.putFn n f).regs = Regs.wf s.regs := rfl

/-- A count reads as one more, held at the largest value of its field. -/
@[simp] theorem State.rd_inc_same (f : Fld) (i j n : Nat) : (s.inc f i j n).rd f i j = cut f.w (sat f.w (s.rd f i j + n)) :=
  State.rd_wr_same _ _ _ _ _ _

/-- What fits a field is not cut. -/
theorem cut_sat (w n : Nat) : cut w (sat w n) = sat w n := by
  have : 0 < 2 ^ w := Nat.two_pow_pos w
  unfold cut sat
  exact Nat.mod_eq_of_lt (by omega)

/-- Counting keeps the register file canonical. -/
theorem State.wf_inc (f : Fld) (i j n : Nat) (h : Regs.wf s.regs = true) : Regs.wf (s.inc f i j n).regs = true := State.wf_wr _ _ _ _ _ _ h

/-- Counting one field leaves a field of another number alone. -/
theorem State.rd_inc_id (f g : Fld) (i j n a b d : Nat) (h : g.id ≠ f.id) : (s.inc f i j n).rd g a b d = s.rd g a b d :=
  State.rd_wr_id _ _ _ _ _ _ _ _ _ _ h

/-- Adding to one field leaves a field of another number alone. -/
theorem State.rd_addw_id (f g : Fld) (n i j a b d : Nat) (h : g.id ≠ f.id) : (s.addw f n i j).rd g a b d = s.rd g a b d :=
  State.rd_wr_id _ _ _ _ _ _ _ _ _ _ h

/-- Taking from one field leaves a field of another number alone. -/
theorem State.rd_dec_id (f g : Fld) (i j n a b d : Nat) (h : g.id ≠ f.id) : (s.dec f i j n).rd g a b d = s.rd g a b d :=
  State.rd_wr_id _ _ _ _ _ _ _ _ _ _ h

end Sys2Proof.Machine
end

