-- ==== Sys2Proof/Laws/Tables.lean ====
section
/-! SUPPORT. The laws of tables and of user data: what is read after a write, and that a write keeps the canonical form. -/

namespace Sys2Proof.Machine

theorem Tab.find_append {α : Type} (k : Nat) (a b : Tab α) (h : ∀ e ∈ a, e.1 ≠ k) : Tab.find k (a ++ b) = Tab.find k b := by
  induction a with
  | nil => rfl
  | cons e t ih =>
    have hx : e.1 ≠ k := h e (by simp)
    simp only [List.cons_append, Tab.find, if_neg hx]
    exact ih (fun e he => h e (by simp [he]))

/-- What was put under a number is found there. -/
@[simp] theorem Tab.find_put_same {α : Type} (k : Nat) (v : α) (t : Tab α) : Tab.find k (Tab.put k v t) = some v := by
  unfold Tab.put
  rw [List.append_assoc, Tab.find_append]
  · simp [Tab.find]
  · intro e he
    have := (List.mem_filter.1 he).2
    simp only [decide_eq_true_eq] at this
    omega

theorem Tab.find_filter {α : Type} (k : Nat) (p : Nat × α → Bool) (t : Tab α) (h : ∀ v, p (k, v) = true) :
    Tab.find k (t.filter p) = Tab.find k t := by
  induction t with
  | nil => rfl
  | cons e t ih =>
    obtain ⟨x, v⟩ := e
    by_cases hx : x = k
    · subst hx; simp [h v, Tab.find]
    · by_cases hp : p (x, v) = true <;> simp [hp, Tab.find, hx, ih]

theorem Tab.find_none {α : Type} (k : Nat) (t : Tab α) (h : ∀ e ∈ t, e.1 ≠ k) : Tab.find k t = none := by
  have := Tab.find_append k t [] h
  simpa [Tab.find] using this

/-- A number taken away is not found. -/
@[simp] theorem Tab.find_del_same {α : Type} (k : Nat) (t : Tab α) : Tab.find k (Tab.del k t) = none := by
  apply Tab.find_none
  intro e he
  simpa using (List.mem_filter.1 he).2

/-- Taking a number away leaves every other one alone. -/
theorem Tab.find_del_ne {α : Type} {k k' : Nat} (t : Tab α) (h : k' ≠ k) : Tab.find k' (Tab.del k t) = Tab.find k' t :=
  Tab.find_filter k' _ t (fun _ => by simpa using h)

/-- Putting under one number leaves every other one alone. -/
theorem Tab.find_put_ne {α : Type} {k k' : Nat} (v : α) (t : Tab α) (h : k' ≠ k) : Tab.find k' (Tab.put k v t) = Tab.find k' t := by
  unfold Tab.put
  rw [List.append_assoc]
  have hmid : ∀ e ∈ ([(k, v)] : Tab α), e.1 ≠ k' := by
    intro e he; simp only [List.mem_singleton] at he; subst he; exact fun g => h g.symm
  rcases Nat.lt_or_gt_of_ne h with hl | hg
  · have hB : ∀ e ∈ [(k, v)] ++ t.filter (fun e => k < e.1), e.1 ≠ k' := by
      intro e he
      rcases List.mem_append.1 he with he | he
      · exact hmid e he
      · have := (List.mem_filter.1 he).2; simp only [decide_eq_true_eq] at this; omega
    have key : ∀ A : Tab α, Tab.find k' (A ++ ([(k, v)] ++ t.filter (fun e => k < e.1))) = Tab.find k' A := by
      intro A
      induction A with
      | nil => rw [List.nil_append, Tab.find_none _ _ hB]; rfl
      | cons e A ih =>
        obtain ⟨x, w⟩ := e
        by_cases hx : x = k'
        · simp only [List.cons_append, Tab.find, if_pos hx]
        · simp only [List.cons_append, Tab.find, if_neg hx]; exact ih
    rw [key]
    exact Tab.find_filter k' _ t (fun w => by simpa using hl)
  · have hA : ∀ e ∈ t.filter (fun e => e.1 < k), e.1 ≠ k' := by
      intro e he; have := (List.mem_filter.1 he).2; simp only [decide_eq_true_eq] at this; omega
    rw [Tab.find_append _ _ _ hA, Tab.find_append _ _ _ hmid]
    exact Tab.find_filter k' _ t (fun w => by simpa using hg)

theorem Ud.get_append (k : Nat) (a b : List (Nat × Nat)) (h : ∀ e ∈ a, e.1 ≠ k) : Ud.get k (a ++ b) = Ud.get k b := by
  induction a with
  | nil => rfl
  | cons e t ih =>
    have hx : e.1 ≠ k := h e (by simp)
    simp only [List.cons_append, Ud.get, if_neg hx]
    exact ih (fun e he => h e (by simp [he]))

theorem Ud.get_none (k : Nat) (a : List (Nat × Nat)) (h : ∀ e ∈ a, e.1 ≠ k) : Ud.get k a = 0 := by
  simpa [Ud.get] using Ud.get_append k a [] h

/-- User data reads as it was written. -/
@[simp] theorem Ud.get_put_same (k v : Nat) (l : List (Nat × Nat)) : Ud.get k (Ud.put k v l) = v := by
  unfold Ud.put
  have hA : ∀ e ∈ l.filter (fun e => e.1 < k), e.1 ≠ k := by
    intro e he; have := (List.mem_filter.1 he).2; simp only [decide_eq_true_eq] at this; omega
  have hB : ∀ e ∈ l.filter (fun e => k < e.1), e.1 ≠ k := by
    intro e he; have := (List.mem_filter.1 he).2; simp only [decide_eq_true_eq] at this; omega
  rw [List.append_assoc, Ud.get_append _ _ _ hA]
  split
  · next h => rw [List.nil_append, Ud.get_none _ _ hB, h]
  · simp [Ud.get]

theorem Ud.wf_iff (l : List (Nat × Nat)) : Ud.wf l = true ↔ List.Pairwise (fun a b => a.1 < b.1) l ∧ ∀ e ∈ l, e.2 ≠ 0 := by
  induction l with
  | nil => simp [Ud.wf]
  | cons e t ih =>
    obtain ⟨k, v⟩ := e
    cases t with
    | nil => simp [Ud.wf]
    | cons e' t =>
      obtain ⟨k', v'⟩ := e'
      simp only [Ud.wf, Bool.and_eq_true, bne_iff_ne, ne_eq, ih, List.pairwise_cons, List.mem_cons, forall_eq_or_imp, decide_eq_true_eq]
      constructor
      · rintro ⟨⟨hv, hk⟩, ⟨hp, hq⟩, hv', hz⟩
        exact ⟨⟨⟨hk, fun a ha => Nat.lt_trans hk (hp a ha)⟩, hp, hq⟩, hv, hv', hz⟩
      · rintro ⟨⟨⟨hk, _⟩, hp, hq⟩, hv, hv', hz⟩
        exact ⟨⟨hv, hk⟩, ⟨hp, hq⟩, hv', hz⟩

/-- A write of user data keeps the canonical form. -/
theorem Ud.wf_put (k v : Nat) (l : List (Nat × Nat)) (h : Ud.wf l = true) : Ud.wf (Ud.put k v l) = true := by
  rw [Ud.wf_iff] at *
  obtain ⟨hp, hz⟩ := h
  unfold Ud.put
  refine ⟨?_, ?_⟩
  · rw [List.append_assoc, List.pairwise_append]
    refine ⟨hp.filter _, ?_, ?_⟩
    · rw [List.pairwise_append]
      refine ⟨?_, hp.filter _, ?_⟩
      · split <;> simp
      · intro a ha b hb
        split at ha
        · simp at ha
        · simp only [List.mem_singleton] at ha; subst ha
          simpa using (List.mem_filter.1 hb).2
    · intro a ha b hb
      have h1 : a.1 < k := by simpa using (List.mem_filter.1 ha).2
      rcases List.mem_append.1 hb with hb | hb
      · split at hb
        · simp at hb
        · simp only [List.mem_singleton] at hb; subst hb; exact h1
      · have h2 : k < b.1 := by simpa using (List.mem_filter.1 hb).2
        omega
  · intro e he
    rcases List.mem_append.1 he with he | he
    · rcases List.mem_append.1 he with he | he
      · exact hz e (List.mem_filter.1 he).1
      · split at he
        · simp at he
        · next hv => simp only [List.mem_singleton] at he; subst he; exact hv
    · exact hz e (List.mem_filter.1 he).1

/-- A block of user data reads as it was written. -/
@[simp] theorem State.getUd_setUd (s : State) (k v : Nat) : (s.setUd k v).getUd k = v := by
  simp [State.getUd, State.setUd]

end Sys2Proof.Machine
end

