-- ==== Sys2Proof/Laws/Ops.lean ====
section
/-! SUPPORT. What the shared operations can do: completing a command, executing an admin command of a sender, the checksum's width. -/

namespace Sys2Proof.Machine

/-! ### The error log -/

/-- Logging an error changes the error log and the count of integrity errors, and counts one more error. -/
theorem State.logErr_eq (s : State) (o : Org) (cid sct sc : Nat) (die : Option Nat) :
    ∃ errs n r, s.logErr o cid sct sc die = { s with ras := { s.ras with errs := errs, integrity := n }, regs := r } ∧
      (r = s.regs ∨ r = (s.addw F.RAS_ERRLOG_COUNT 1).regs) := by
  by_cases ha : errLogged sct sc = true <;> by_cases hb : ((sct = 7 && sc = 0xC4) || (sct = 2 && sc = 0x81)) = true
  all_goals rw [State.logErr]; simp only [ha, hb, if_true, if_false, Bool.false_eq_true]
  · exact ⟨_, _, _, rfl, .inr rfl⟩
  · exact ⟨_, _, _, rfl, .inr rfl⟩
  · exact ⟨_, _, _, rfl, .inl rfl⟩
  · exact ⟨_, _, _, rfl, .inl rfl⟩

/-- A success is not logged. -/
@[simp] theorem State.logErr_ok (s : State) (o : Org) (cid : Nat) (die : Option Nat) : s.logErr o cid 0 0 die = s := by
  simp [State.logErr, errLogged]

/-- Logging an error leaves every field but the error count alone. -/
theorem State.logErr_rd (s : State) (o : Org) (cid sct sc : Nat) (die : Option Nat) (g : Fld) (i j p : Nat) (h : g.id ≠ F.RAS_ERRLOG_COUNT.id) :
    (s.logErr o cid sct sc die).rd g i j p = s.rd g i j p := by
  obtain ⟨errs, n, r, he, hr⟩ := s.logErr_eq o cid sct sc die
  rw [he]
  rcases hr with rfl | rfl
  · rfl
  · exact State.rd_addw_id s F.RAS_ERRLOG_COUNT g 1 0 0 i j p h

/-- Logging an error keeps the register file canonical. -/
theorem State.logErr_wf (s : State) (o : Org) (cid sct sc : Nat) (die : Option Nat) (h : Regs.wf s.regs = true) :
    Regs.wf (s.logErr o cid sct sc die).regs = true := by
  obtain ⟨errs, n, r, he, hr⟩ := s.logErr_eq o cid sct sc die
  rw [he]
  rcases hr with rfl | rfl
  · exact h
  · exact State.wf_wr _ _ _ _ _ _ h

/-! ### Sending -/

/-- A thing sent on a sub-port goes out, or waits there. -/
theorem State.sendOn_sent (s : State) (p u pr : Nat) (qp : Option Nat) (x : Out) : Sent s (s.sendOn p u pr qp x) x := by
  unfold State.sendOn
  split
  · exact .inr ⟨rfl, _, rfl, rfl⟩
  · exact .inl ⟨rfl, rfl⟩

/-- A thing sent for a QP goes out, or waits on its sub-port. -/
theorem State.sendQp_sent (s : State) (n : Nat) (x : Out) : Sent s (s.sendQp n x) x := by
  unfold State.sendQp
  split
  · exact s.sendOn_sent _ _ _ _ x
  · exact .inl ⟨rfl, rfl⟩

/-- Sending for a QP changes what was sent and what waits alone. -/
theorem State.sendQp_eq (s : State) (n : Nat) (x : Out) :
    s.sendQp n x = { s with outs := (s.sendQp n x).outs, net := { s.net with txq := (s.sendQp n x).net.txq } } := by
  unfold State.sendQp State.sendOn
  split <;> [split; skip] <;> rfl

/-- What goes out after a completion on an admin queue is its interrupt alone. -/
theorem State.postAdm_outs (s : State) (n : Nat) (c : Cpl) : ∃ l, (s.postAdm n c).outs = s.outs ++ Out.cpl c :: l ∧ Signals l := by
  unfold State.postAdm
  dsimp only
  split
  · next cq _ => exact ⟨[.msix n cq.vec], by simp [State.send, State.pushCq], fun x hx => ⟨n, cq.vec, by simpa using hx⟩⟩
  · exact ⟨[], rfl, fun x hx => absurd hx (by simp)⟩

/-- Posting a completion on an admin queue changes what was sent and the completion queues' tails alone. -/
theorem State.postAdm_eq (s : State) (n : Nat) (c : Cpl) :
    s.postAdm n c = { s with outs := (s.postAdm n c).outs, sl := { s.sl with cqs := (s.pushCq n 0).sl.cqs } } := by
  unfold State.postAdm
  dsimp only
  split <;> rfl

/-- A new entry moves tails alone. -/
theorem State.pushCq_tails (s : State) (n k : Nat) : (s.pushCq n k).sl.cqs.map (fun c => { c with tail := 0 }) = s.sl.cqs.map (fun c => { c with tail := 0 }) := by
  simp only [State.pushCq, List.map_map]
  refine List.map_congr_left fun c _ => ?_
  dsimp only [Function.comp]
  split <;> rfl

/-! ### Completions -/

/-- Changing contexts in place, none of them in what finds an admin queue, leaves the admin queue in its place. -/
theorem State.admQ_mapQ (s : State) (o : Org) (i : Nat) (g : Queue → Queue)
    (hg : ∀ q, (g q).fabric = q.fabric ∧ (g q).func = q.func ∧ (g q).qid = q.qid ∧ (g q).assoc = q.assoc) :
    (s.mapQ i g).admQ o = (s.admQ o).map (fun e => if e.1 = i then (e.1, g e.2) else e) := by
  have key : ∀ p : Nat × Queue → Bool, (∀ e : Nat × Queue, p (e.1, g e.2) = p e) →
      (s.mapQ i g).sl.qs.find? p = (s.sl.qs.find? p).map (fun e => if e.1 = i then (e.1, g e.2) else e) := by
    intro p hp
    rw [State.mapQ, List.find?_map]
    congr 2
    funext e
    dsimp only [Function.comp]
    split
    · exact hp e
    · rfl
  cases o with
  | fn n => exact key _ fun e => by simp only [hg]
  | fab a => exact key _ fun e => by simp only [hg]
  | mi => rfl
  | io q => rfl

/-- Changing contexts in place twice is changing them once by both. -/
theorem State.mapQ_mapQ (s : State) (i : Nat) (f g : Queue → Queue) : (s.mapQ i f).mapQ i g = s.mapQ i (g ∘ f) := by
  simp only [State.mapQ, List.map_map]
  congr 3
  funext e
  dsimp only [Function.comp]
  split
  · next h => simp [h]
  · simp only

/-- A command that begins and ends leaves the queue with one fetched entry less. -/
theorem State.admLess_begin (s : State) (o : Org) : (s.admBegin o).admLess o = Begun s o := by
  cases h : s.admQ o with
  | none => simp only [State.admBegin, State.admLess, Begun, h]
  | some e =>
    obtain ⟨i, q⟩ := e
    have hq := s.admQ_mapQ o i (fun q' => if q.adm.isEmpty then { q' with outst := q'.outst + 1 } else { q' with adm := q'.adm.drop 1 })
      (fun q' => by split <;> exact ⟨rfl, rfl, rfl, rfl⟩)
    rw [h] at hq
    simp only [State.admBegin, State.admLess, Begun, h, hq, Option.map_some, if_true, State.mapQ_mapQ]
    congr 1
    funext x
    dsimp only [Function.comp]
    split <;> rfl

/-- An admin queue with one command outstanding less: nothing but the queues' contexts changes. -/
theorem State.admLess_eq (s : State) (o : Org) : ∃ qs, s.admLess o = { s with sl := { s.sl with qs := qs } } := by
  unfold State.admLess
  split <;> exact ⟨_, rfl⟩

/-- A completion that is given is posted, with its interrupt, or waits. -/
theorem State.admPost_gives (s : State) (o : Org) (c : Cpl) (t : Stamp) :
    (∃ l, (s.admPost o c t).outs = s.outs ++ Out.cpl c :: l ∧ Signals l) ∨ ((s.admPost o c t).outs = s.outs ∧ Waits (s.admPost o c t) c) := by
  have now : (∃ l, (s.send (.cpl c)).outs = s.outs ++ Out.cpl c :: l ∧ Signals l) := ⟨[], rfl, fun y hy => absurd hy (by simp)⟩
  cases o with
  | fn n =>
    simp only [State.admPost]
    split
    · exact .inl (s.postAdm_outs n c)
    · next hc =>
      cases hf : Tab.find n s.fns with
      | none => simp [State.canSend, hf] at hc
      | some f =>
        refine .inr ⟨by simp [State.hold, hf], .inl ⟨(n, { f with held := f.held ++ [⟨c, t⟩] }), ?_, ⟨c, t⟩, by simp, rfl⟩⟩
        simp [State.hold, hf, Tab.put]
  | fab a =>
    simp only [State.admPost]
    split
    · rcases s.sendQp_sent _ (.cpl c) with ⟨h1, -⟩ | ⟨h1, e, h2, h3⟩
      · exact .inl ⟨[], h1, fun y hy => absurd hy (by simp)⟩
      · exact .inr ⟨h1, .inr ⟨e, by rw [h2]; simp, h3⟩⟩
    · exact .inl now
  | mi => exact .inl now
  | io q => exact .inl now

/-- Giving a completion to a sender that may be sent to changes what was sent, what waits to be, and completion queues' tails alone. -/
theorem State.admPost_eq {s : State} {o : Org} (h : s.muted o = false) (c : Cpl) (t : Stamp) :
    SameCqs s (s.admPost o c t) ∧ s.admPost o c t =
      { s with
          outs := (s.admPost o c t).outs
          net := { s.net with txq := (s.admPost o c t).net.txq }
          sl := { s.sl with cqs := (s.admPost o c t).sl.cqs } } := by
  cases o with
  | fn n =>
    have hc : s.canSend n = true := by simpa [State.muted] using h
    simp only [State.admPost, hc, if_true]
    rw [s.postAdm_eq n c]
    exact ⟨s.pushCq_tails n 0, rfl⟩
  | fab a =>
    simp only [State.admPost]
    split
    · next i q _ =>
      rw [s.sendQp_eq q.qp (.cpl c)]
      exact ⟨rfl, rfl⟩
    · exact ⟨rfl, rfl⟩
  | mi => exact ⟨rfl, rfl⟩
  | io q => exact ⟨rfl, rfl⟩

/-- Giving a completion changes no register and no zone. -/
theorem State.admPost_keeps (s : State) (o : Org) (c : Cpl) (t : Stamp) : (s.admPost o c t).regs = s.regs ∧ (s.admPost o c t).zn = s.zn := by
  cases o with
  | fn n =>
    simp only [State.admPost]
    split
    · rw [s.postAdm_eq n c]; exact ⟨rfl, rfl⟩
    · unfold State.hold; split <;> exact ⟨rfl, rfl⟩
  | fab a =>
    simp only [State.admPost]
    split
    · next i q _ => rw [s.sendQp_eq q.qp (.cpl c)]; exact ⟨rfl, rfl⟩
    · exact ⟨rfl, rfl⟩
  | mi => exact ⟨rfl, rfl⟩
  | io q => exact ⟨rfl, rfl⟩

/-- What completing an admin command does before its entry is given. -/
theorem State.adm_before (s : State) (o : Org) (cid : Nat) (st : Nat × Nat) : ∃ errs n r qs,
    (s.logErr o cid st.1 st.2 none).admLess o =
      { s with ras := { s.ras with errs := errs, integrity := n }, regs := r, sl := { s.sl with qs := qs } } ∧
    (r = s.regs ∨ r = (s.addw F.RAS_ERRLOG_COUNT 1).regs) := by
  obtain ⟨errs, n, r, he, hr⟩ := s.logErr_eq o cid st.1 st.2 none
  obtain ⟨qs, hq⟩ := (s.logErr o cid st.1 st.2 none).admLess_eq o
  exact ⟨errs, n, r, qs, by rw [hq, he], hr⟩

/-- Completing an admin command answers it with its status. -/
theorem State.adm_answers (s : State) (o : Org) (cid : Nat) (st : Nat × Nat) (dw0 : Nat) (data : List Nat) :
    Answers s (s.adm o cid st dw0 data) o cid st dw0 data := by
  refine ⟨⟨o, cid, st.1, st.2, dnrOf st.1 st.2, dw0, data⟩, rfl, rfl, rfl, rfl, rfl, ?_⟩
  obtain ⟨errs, n, r, qs, h, -⟩ := s.adm_before o cid st
  have ho : ((s.logErr o cid st.1 st.2 none).admLess o).outs = s.outs := by rw [h]
  rw [← ho]
  exact State.admPost_gives _ _ _ _

/-- Completing an admin command changes no zone. -/
@[simp] theorem State.adm_zn (s : State) (o : Org) (cid : Nat) (st : Nat × Nat) (dw0 : Nat) (data : List Nat) : (s.adm o cid st dw0 data).zn = s.zn := by
  obtain ⟨errs, n, r, qs, h, -⟩ := s.adm_before o cid st
  rw [State.adm, (State.admPost_keeps _ _ _ _).2, h]

/-- Completing an admin command changes no register but the count of errors. -/
theorem State.adm_regs (s : State) (o : Org) (cid : Nat) (st : Nat × Nat) (dw0 : Nat) (data : List Nat) :
    (s.adm o cid st dw0 data).regs = s.regs ∨ (s.adm o cid st dw0 data).regs = (s.addw F.RAS_ERRLOG_COUNT 1).regs := by
  obtain ⟨errs, n, r, qs, h, hr⟩ := s.adm_before o cid st
  rw [State.adm, (State.admPost_keeps _ _ _ _).1, h]
  exact hr

/-- Completing an admin command leaves every field but the error count alone. -/
theorem State.adm_rd (s : State) (o : Org) (cid : Nat) (st : Nat × Nat) (dw0 : Nat) (data : List Nat) (g : Fld) (i j p : Nat)
    (h : g.id ≠ F.RAS_ERRLOG_COUNT.id) : (s.adm o cid st dw0 data).rd g i j p = s.rd g i j p := by
  rcases s.adm_regs o cid st dw0 data with hr | hr
  · rw [State.rd, hr]; rfl
  · rw [State.rd, hr]; exact State.rd_addw_id s F.RAS_ERRLOG_COUNT g 1 0 0 i j p h

/-- Completing an admin command keeps the register file canonical. -/
theorem State.adm_wf (s : State) (o : Org) (cid : Nat) (st : Nat × Nat) (dw0 : Nat) (data : List Nat) (h : Regs.wf s.regs = true) :
    Regs.wf (s.adm o cid st dw0 data).regs = true := by
  rcases s.adm_regs o cid st dw0 data with hr | hr <;> rw [hr]
  · exact h
  · exact State.wf_wr _ _ _ _ _ _ h

/-- A served command that ends with a success is completed, as `Completes` says. -/
theorem State.adm_completes {s : State} {o : Org} (h : s.muted o = false) (cid dw0 : Nat) (data : List Nat) :
    Completes s ((s.admBegin o).adm o cid stOk dw0 data) o cid dw0 data := by
  obtain ⟨b, hb⟩ : ∃ qs, s.admBegin o = { s with sl := { s.sl with qs := qs } } := by
    unfold State.admBegin; split <;> exact ⟨_, rfl⟩
  have ha := (s.admBegin o).adm_answers o cid stOk dw0 data
  have hm : (Begun s o).muted o = false := by
    rw [← s.admLess_begin o]
    obtain ⟨qs, hq⟩ := (s.admBegin o).admLess_eq o
    rw [hq, hb]; exact h
  have hl : (s.admBegin o).logErr o cid stOk.1 stOk.2 none = s.admBegin o := State.logErr_ok _ _ _ _
  obtain ⟨hc, he⟩ := State.admPost_eq hm ⟨o, cid, stOk.1, stOk.2, dnrOf stOk.1 stOk.2, dw0, data⟩ ((s.admBegin o).admStamp o)
  have hs : (Begun s o).sl.cqs = s.sl.cqs ∧ (Begun s o).net = s.net := by
    rw [← s.admLess_begin o]
    obtain ⟨qs, hq⟩ := (s.admBegin o).admLess_eq o
    rw [hq, hb]; exact ⟨rfl, rfl⟩
  refine ⟨by rw [hb] at ha ⊢; exact ha, ?_, ?_⟩
  · rw [State.adm, hl, s.admLess_begin o]
    unfold SameCqs at *; rw [hc, hs.1]
  · rw [State.adm, hl, s.admLess_begin o]
    rw [hs.2] at he; exact he

/-- A served command that ends with a status is refused, as `Refuses` says. -/
theorem State.adm_refuses {s : State} {o : Org} (h : s.muted o = false) (cid : Nat) (st : Nat × Nat) (dw0 : Nat) :
    Refuses s ((s.admBegin o).adm o cid st dw0) o cid st dw0 := by
  obtain ⟨b, hb⟩ : ∃ qs, s.admBegin o = { s with sl := { s.sl with qs := qs } } := by
    unfold State.admBegin; split <;> exact ⟨_, rfl⟩
  have ha := (s.admBegin o).adm_answers o cid st dw0 []
  obtain ⟨errs, n, r, hl, hr⟩ := (s.admBegin o).logErr_eq o cid st.1 st.2 none
  have hq : ((s.admBegin o).logErr o cid st.1 st.2 none).admLess o =
      { Begun s o with ras := { s.ras with errs := errs, integrity := n }, regs := r } := by
    have hx : ∀ (m : State) (ras : RasSt) (r : List (RKey × Nat)), ({ m with ras := ras, regs := r }).admLess o = { m.admLess o with ras := ras, regs := r } := by
      intro m ras r; cases o <;> simp only [State.admLess, State.admQ] <;> split <;> rfl
    rw [hl, hx, s.admLess_begin o, hb]
  have hm : ({ Begun s o with ras := { s.ras with errs := errs, integrity := n }, regs := r }).muted o = false := by
    rw [← hq, hl, hb]
    obtain ⟨qs, he⟩ := State.admLess_eq { s with ras := { s.ras with errs := errs, integrity := n }, regs := r, sl := { s.sl with qs := b } } o
    rw [he]; exact h
  obtain ⟨hc, he⟩ := State.admPost_eq hm ⟨o, cid, st.1, st.2, dnrOf st.1 st.2, dw0, []⟩ ((s.admBegin o).admStamp o)
  have hs : (Begun s o).sl.cqs = s.sl.cqs ∧ (Begun s o).net = s.net ∧ (Begun s o).ras = s.ras := by
    unfold Begun; split <;> exact ⟨rfl, rfl, rfl⟩
  have hd : ∀ (f : Fld) (i j p : Nat), f.id ≠ F.RAS_ERRLOG_COUNT.id → ((s.admBegin o).adm o cid st dw0).rd f i j p = s.rd f i j p := by
    intro f i j p hf
    rw [State.adm_rd _ _ _ _ _ _ f i j p hf, hb]; rfl
  refine ⟨by rw [hb] at ha ⊢; exact ha, ?_, ?_, hd⟩
  · rw [State.adm, hq]
    unfold SameCqs at *; rw [hc]; exact congrArg _ hs.1
  · rw [State.adm, hq, he]
    simp only [hs.2.1]

/-! ### Admin commands -/

/-- An admin command of a served sender is executed. -/
theorem State.admin_served {s : State} {o : Org} (h : Served s o) (cid : Nat) (f : State → State) : s.admin o cid f = f (s.admBegin o) := by
  obtain ⟨ha, hu, hm, hr, -, n, hn, hs⟩ := h
  have h1 : (!s.img.admReady || s.muted o || (decide (o = .mi) && (s.stopped || s.swapping)) ||
      ((s.admQ o).map (fun e => s.resetting e.1)).getD false) = false := by
    simp only [ha, hu, hr, Bool.not_true, Bool.false_or, Bool.or_false]
    by_cases ho : o = .mi
    · simp [hm ho]
    · simp [ho]
  simp only [State.admin, h1, hn, hs]
  rfl

/-- Before admin-ready no admin command is fetched. -/
theorem State.admin_notReady {s : State} (h : s.img.admReady = false) (o : Org) (cid : Nat) (f : State → State) : s.admin o cid f = s := by
  simp [State.admin, h]

/-- What an admin command does: nothing, its effect, or the refusal of a FENCED or DELETING slice. -/
theorem State.admin_cases (s : State) (o : Org) (cid : Nat) (f : State → State) :
    s.admin o cid f = s ∨ s.admin o cid f = f (s.admBegin o) ∨ s.admin o cid f = (s.admBegin o).adm o cid stFenced := by
  unfold State.admin
  split
  · exact .inl rfl
  · split
    · exact .inl rfl
    · dsimp only
      repeat' split
      · exact .inr (.inl rfl)
      · exact .inr (.inr rfl)
      · exact .inl rfl

/-- An invariant that a command's effect and completions keep is kept by the admin command. -/
theorem State.admin_keeps {P : State → Prop} {s : State} {o : Org} {cid : Nat} {f : State → State} (hs : P s) (hf : P (f (s.admBegin o)))
    (ha : P ((s.admBegin o).adm o cid stFenced)) : P (s.admin o cid f) := by
  rcases s.admin_cases o cid f with h | h | h <;> rw [h] <;> assumption

/-! ### Commands in flight -/

/-- Postponing a completion changes no zone. -/
@[simp] theorem State.hold_zn (s : State) (f : Nat) (c : Cpl) (t : Stamp) : (s.hold f c t).zn = s.zn := by
  unfold State.hold; split <;> rfl

/-- Signalling a completion changes no zone. -/
@[simp] theorem State.signal_zn (s : State) (f v u : Nat) (t : Stamp) : (s.signal f v u t).zn = s.zn := by
  unfold State.signal
  dsimp only
  split
  · rfl
  · split <;> rfl

/-- Logging an error changes no zone. -/
@[simp] theorem State.logErr_zn (s : State) (o : Org) (cid sct sc : Nat) (die : Option Nat) : (s.logErr o cid sct sc die).zn = s.zn := by
  obtain ⟨errs, n, r, h, -⟩ := s.logErr_eq o cid sct sc die
  rw [h]

/-- Sending for a QP changes no zone. -/
@[simp] theorem State.sendQp_zn (s : State) (n : Nat) (x : Out) : (s.sendQp n x).zn = s.zn := by rw [s.sendQp_eq n x]

/-- A command taken out of flight is not in flight. -/
theorem State.cmdOf_dropCmd (s : State) (q cid : Nat) : (s.dropCmd q cid).cmdOf q cid = none := by
  simp only [State.dropCmd, State.cmdOf, List.find?_eq_none, List.mem_filter, Bool.and_eq_true, decide_eq_true_eq, Bool.not_eq_true',
    not_and, and_imp]
  intro c _ h1 h2
  simp_all

/-- Taking one command out of flight leaves the others in flight. -/
theorem State.cmdOf_dropCmd_ne (s : State) {q cid q' cid' : Nat} (h : ¬ (q' = q ∧ cid' = cid)) :
    (s.dropCmd q cid).cmdOf q' cid' = s.cmdOf q' cid' := by
  simp only [State.dropCmd, State.cmdOf, List.find?_filter]
  congr 1
  funext c
  by_cases h1 : c.q = q'
  · by_cases h2 : c.cid = cid'
    · subst h1 h2
      have h5 : (decide (c.q = q) && decide (c.cid = cid)) = false := by simpa using fun h3 h4 => h ⟨h3, h4⟩
      simp [h5]
    · simp [h2]
  · simp [h1]

/-- Ending a command takes it out of flight. -/
theorem State.cmdOf_fin (s : State) (c : Cmd) (st : Nat × Nat) (dw0 : Nat) (data : List Nat) (die : Option Nat) :
    (s.fin c st dw0 data die).cmdOf c.q c.cid = none := by
  have key : ∀ t : State, t.zn = (s.dropCmd c.q c.cid).zn → t.cmdOf c.q c.cid = none := by
    intro t h
    have := s.cmdOf_dropCmd c.q c.cid
    unfold State.cmdOf at *; rw [h]; exact this
  unfold State.fin
  split
  · next h => simpa using h
  · dsimp only
    split
    · exact key _ rfl
    · by_cases hl : st = stLate
      all_goals
        simp only [hl, ↓reduceIte]
        repeat' split
        all_goals exact key _ (by simp)

/-! ### The checksum -/

/-- One bit step of CRC-32C keeps 32 bits. -/
theorem crcBit_lt (c : Nat) (h : c < 2 ^ 32) : crcBit c < 2 ^ 32 := by
  unfold crcBit
  split
  · exact Nat.xor_lt_two_pow (by omega) (by decide)
  · omega

/-- One byte step of CRC-32C keeps 32 bits. -/
theorem crcByte_lt (c b : Nat) (h : c < 2 ^ 32) : crcByte c b < 2 ^ 32 := by
  have hx : Nat.xor c (cut 8 b) < 2 ^ 32 := Nat.xor_lt_two_pow h (by unfold cut; omega)
  have : ∀ (l : List Nat) (c : Nat), c < 2 ^ 32 → l.foldl (fun c _ => crcBit c) c < 2 ^ 32 := by
    intro l
    induction l with
    | nil => intro c h; exact h
    | cons a l ih => intro c h; exact ih _ (crcBit_lt c h)
  exact this _ _ hx

/-- A CRC-32C has 32 bits. -/
theorem crc32c_lt (l : List Nat) : crc32c l < 2 ^ 32 := by
  have : ∀ (l : List Nat) (c : Nat), c < 2 ^ 32 → l.foldl crcByte c < 2 ^ 32 := by
    intro l
    induction l with
    | nil => intro c h; exact h
    | cons a l ih => intro c h; exact ih _ (crcByte_lt c a h)
  exact Nat.xor_lt_two_pow (this _ _ (by decide)) (by decide)

end Sys2Proof.Machine
end

