-- ==== Sys2Proof/Laws/Inv.lean ====
section
/-! SUPPORT. What keeps the machine's invariant: the basic updates, one lemma each. -/

namespace Sys2Proof

open Machine

/-- A fold keeps what each of its steps keeps. -/
theorem foldl_keeps {α : Type} {P : State → Prop} {f : State → α → State} (h : ∀ s a, P s → P (f s a)) (l : List α) (s : State) (hs : P s) :
    P (l.foldl f s) := by
  induction l generalizing s with
  | nil => exact hs
  | cons a l ih => exact ih _ (h s a hs)

/-- The invariant speaks of the register file and the user data alone. -/
theorem Inv.congr {s t : State} (h : Inv s) (hr : t.regs = s.regs) (hu : t.zn.ud = s.zn.ud) : Inv t := by
  unfold Inv at *; rw [hr, hu]; exact h

/-- Writing a field keeps the invariant. -/
theorem Inv.wr {s : State} (h : Inv s) (f : Fld) (v i j p : Nat) : Inv (s.wr f v i j p) := ⟨State.wf_wr _ _ _ _ _ _ h.1, h.2⟩

/-- Counting keeps the invariant. -/
theorem Inv.inc {s : State} (h : Inv s) (f : Fld) (i j n : Nat) : Inv (s.inc f i j n) := h.wr _ _ _ _ _

/-- Adding to a field keeps the invariant. -/
theorem Inv.addw {s : State} (h : Inv s) (f : Fld) (n i j : Nat) : Inv (s.addw f n i j) := h.wr _ _ _ _ _

/-- Taking from a field keeps the invariant. -/
theorem Inv.dec {s : State} (h : Inv s) (f : Fld) (i j n : Nat) : Inv (s.dec f i j n) := h.wr _ _ _ _ _

/-- Writing a block keeps the invariant. -/
theorem Inv.setUd {s : State} (h : Inv s) (k v : Nat) : Inv (s.setUd k v) := ⟨h.1, Ud.wf_put _ _ _ h.2⟩

/-- Forgetting blocks of user data keeps it canonical. -/
theorem Machine.Ud.wf_filter (p : Nat × Nat → Bool) (l : List (Nat × Nat)) (h : Ud.wf l = true) : Ud.wf (l.filter p) = true := by
  rw [Ud.wf_iff] at *
  exact ⟨h.1.filter p, fun e he => h.2 e (List.mem_filter.1 he).1⟩

/-- Forgetting a zone's blocks keeps the invariant. -/
theorem Inv.wipeZone {s : State} (h : Inv s) (z : Nat) : Inv (s.wipeZone z) := ⟨h.1, Ud.wf_filter _ _ h.2⟩

/-- Completing an admin command keeps the invariant. -/
theorem Inv.adm {s : State} (h : Inv s) (o : Org) (cid : Nat) (st : Nat × Nat) (dw0 : Nat) (data : List Nat) : Inv (s.adm o cid st dw0 data) := by
  refine ⟨State.adm_wf _ _ _ _ _ _ h.1, ?_⟩
  rw [State.adm_zn]; exact h.2

end Sys2Proof
end

