-- ==== Sys2Proof/Laws/Events.lean ====
section
/-! SUPPORT. What raising an event can do (19 R423-R428; 20 R442, R443): one relation, that every part of it keeps. -/

namespace Sys2Proof

open Machine

/-- From `s` to `t` at most what an event may change has changed: registers, the time of the last flush, the recorder, the event queue and its
views, charges and queues' contexts, postponed completions, what was sent and what waits to be. The register file stays canonical. -/
def Told (s t : State) : Prop :=
  (∃ regs saved evr ras sl fns txq outs, t =
    { s with
        regs := regs
        tim := { s.tim with saved := saved }
        evr := evr
        ras := ras
        sl := sl
        fns := fns
        net := { s.net with txq := txq }
        outs := outs }) ∧ (Regs.wf s.regs = true → Regs.wf t.regs = true)

namespace Told

theorem refl (s : State) : Told s s := ⟨⟨s.regs, s.tim.saved, s.evr, s.ras, s.sl, s.fns, s.net.txq, s.outs, rfl⟩, id⟩

theorem trans {a b c : State} (h : Told a b) (k : Told b c) : Told a c := by
  obtain ⟨⟨r, v, e, q, l, f, x, o, rfl⟩, hw⟩ := h
  obtain ⟨⟨r', v', e', q', l', f', x', o', rfl⟩, kw⟩ := k
  exact ⟨⟨r', v', e', q', l', f', x', o', rfl⟩, fun z => kw (hw z)⟩

theorem foldl {α : Type} {f : State → α → State} (h : ∀ s a, Told s (f s a)) (l : List α) (s : State) : Told s (l.foldl f s) := by
  induction l generalizing s with
  | nil => exact refl s
  | cons a l ih => exact (h s a).trans (ih _)

variable (s : State)

theorem wr (f : Fld) (v i j p : Nat) : Told s (s.wr f v i j p) :=
  ⟨⟨_, s.tim.saved, s.evr, s.ras, s.sl, s.fns, s.net.txq, s.outs, rfl⟩, State.wf_wr s f v i j p⟩

theorem inc (f : Fld) (i j n : Nat) : Told s (s.inc f i j n) := wr s f _ i j 0

theorem addw (f : Fld) (n i j : Nat) : Told s (s.addw f n i j) := wr s f _ i j 0

theorem send (o : Out) : Told s (s.send o) :=
  ⟨⟨s.regs, s.tim.saved, s.evr, s.ras, s.sl, s.fns, s.net.txq, _, rfl⟩, id⟩

theorem ras (r : RasSt) : Told s { s with ras := r } :=
  ⟨⟨s.regs, s.tim.saved, s.evr, _, s.sl, s.fns, s.net.txq, s.outs, rfl⟩, id⟩

theorem evr (e : EvrSt) : Told s { s with evr := e } :=
  ⟨⟨s.regs, s.tim.saved, _, s.ras, s.sl, s.fns, s.net.txq, s.outs, rfl⟩, id⟩

theorem sl (l : SliceSt) : Told s { s with sl := l } :=
  ⟨⟨s.regs, s.tim.saved, s.evr, s.ras, _, s.fns, s.net.txq, s.outs, rfl⟩, id⟩

theorem saved (v : Option Nat) : Told s { s with tim := { s.tim with saved := v } } :=
  ⟨⟨s.regs, _, s.evr, s.ras, s.sl, s.fns, s.net.txq, s.outs, rfl⟩, id⟩

/-- Completing an admin command. -/
theorem adm (o : Org) (cid : Nat) (st : Nat × Nat) (dw0 : Nat) (data : List Nat) : Told s (s.adm o cid st dw0 data) := by
  obtain ⟨errs, n, r, qs, h, -⟩ := s.adm_before o cid st
  refine ⟨?_, State.adm_wf s o cid st dw0 data⟩
  have post : ∀ (m : State) (c : Cpl) (t : Stamp), ∃ l f x u, m.admPost o c t =
      { m with sl := l, fns := f, net := { m.net with txq := x }, outs := u } := by
    intro m c t
    cases o with
    | fn k =>
      simp only [State.admPost]
      split
      · exact ⟨_, _, m.net.txq, _, m.postAdm_eq k c⟩
      · unfold State.hold; split <;> exact ⟨m.sl, _, m.net.txq, m.outs, rfl⟩
    | fab a =>
      simp only [State.admPost]
      split
      · next i q _ => exact ⟨m.sl, m.fns, _, _, m.sendQp_eq q.qp (.cpl c)⟩
      · exact ⟨m.sl, m.fns, m.net.txq, _, rfl⟩
    | mi => exact ⟨m.sl, m.fns, m.net.txq, _, rfl⟩
    | io q => exact ⟨m.sl, m.fns, m.net.txq, _, rfl⟩
  obtain ⟨l, f, x, u, hp⟩ := post ((s.logErr o cid st.1 st.2 none).admLess o)
    ⟨o, cid, st.1, st.2, dnrOf st.1 st.2, dw0, data⟩ (s.admStamp o)
  rw [State.adm, hp, h]
  exact ⟨r, s.tim.saved, s.evr, _, l, f, x, u, rfl⟩

/-- A notice. -/
theorem notify (c : Ctl) (ty info page : Nat) : Told s (s.notify c ty info page) := by
  unfold State.notify
  split
  · exact (ras s _).trans (adm _ _ _ _ _ _)
  · split
    · exact refl s
    · exact ras s _

/-- A charge. -/
theorem charge (n c : Nat) : Told s (s.charge n none c) := by
  simp only [State.charge]
  exact ((addw s _ _ _ _).trans (wr _ _ _ _ _ _)).trans (sl _ _)

/-- A flush of the recorder. -/
theorem faultFlush : Told s s.faultFlush := by
  have nor : ∀ (s : State) (kind part parts ns : Nat) (recs : List Rec), Told s (s.norWrite kind part parts ns recs) := by
    intro s kind part parts ns recs
    exact (((evr s _).trans (wr _ _ _ _ _ _)).trans (wr _ _ _ _ _ _)).trans (wr _ _ _ _ _ _)
  have copy : ∀ (s : State) (kind ns : Nat) (recs : List Rec), Told s (s.norCopy kind ns recs) := by
    intro s kind ns recs
    exact foldl (fun s e => nor s _ _ _ _ _) _ s
  unfold State.faultFlush
  refine Told.trans ?_ (inc _ _ _ _ _)
  refine Told.trans ?_ (copy _ _ _ _)
  refine Told.trans ?_ (saved _ _)
  refine Told.trans (evr s { s.evr with nand := (RecCopy.mk s.tns 1 s.evr.recs :: s.evr.nand).take 4 }) ?_
  exact (charge _ 0 _).trans (sl _ _)

/-- A record. -/
theorem recAppend (code arg trig : Nat) (addrs : List Nat) (flush : Bool) : Told s (s.recAppend code arg trig addrs flush) := by
  unfold State.recAppend
  dsimp only
  split
  · exact inc s _ _ _ _
  · split
    · exact (wr s _ _ _ _ _).trans (inc _ _ _ _ _)
    · exact evr s _

/-- The recorder's part of an event. -/
theorem record (code arg : Nat) : Told s (s.record code arg) := by
  unfold State.record
  split
  · exact refl s
  · split
    · exact recAppend s _ _ _ _ _
    · split
      · exact refl s
      · split
        · exact (recAppend s _ _ _ _ _).trans (faultFlush _)
        · exact recAppend s _ _ _ _ _

/-- An event is raised. -/
theorem raise (code slice arg : Nat) : Told s (s.raise code slice arg) := by
  have lose : ∀ (s : State) (c : Ctl), Told s (s.loseFor c) := fun s c => ras s _
  have tell : ∀ (cls : Nat) (s : State) (c : Ctl), Told s (s.reportTo cls c) := by
    intro cls s c
    unfold State.reportTo
    dsimp only
    split
    · exact refl s
    · exact (ras s _).trans (notify _ _ _ _ _)
  unfold State.raise
  refine Told.trans ?_ (foldl (tell _) _ _)
  have queue : Told s (if s.ras.evq.length < evqDepth then
      { s with ras := { s.ras with evq := s.ras.evq ++ [EvEnt.mk s.tns code slice s.ras.evSeq arg], evSeq := cut 32 (s.ras.evSeq + 1) } }
    else (s.entitled code slice).foldl (fun s c => s.loseFor c) (s.inc F.RAS_EVQ_LOST_CNT)) := by
    split
    · exact ras s _
    · exact (inc s _ _ _ _).trans (foldl lose _ _)
  have vec : ∀ m : State, Told m (if m.rd F.LGR_EVT_VEC_EN (code / 2 ^ 13 % 8) = 1 then
      m.send (.msix 0 (m.rd F.LGR_EVT_VEC_VECTOR (code / 2 ^ 13 % 8))) else m) := by
    intro m
    split
    · exact send m _
    · exact refl m
  exact (queue.trans (record _ code arg)).trans (vec _)

end Told

/-- An event changes nothing of the zones, the staging, the dies, the journal and the other blocks. -/
theorem Told.fields {s t : State} (h : Told s t) : t.zn = s.zn ∧ t.stg = s.stg ∧ t.rdn = s.rdn ∧ t.die = s.die ∧ t.ftl = s.ftl ∧ t.cip = s.cip ∧
    t.cap = s.cap ∧ t.pup = s.pup ∧ t.pwr = s.pwr ∧ t.img = s.img ∧ t.kz = s.kz ∧ t.pcx = s.pcx ∧ t.drc = s.drc ∧ t.pending = s.pending := by
  obtain ⟨⟨r, v, e, q, l, f, x, o, rfl⟩, -⟩ := h
  repeat' constructor

/-- An event keeps the invariant. -/
theorem Told.inv {s t : State} (h : Told s t) (hs : Inv s) : Inv t := ⟨h.2 hs.1, by rw [h.fields.1]; exact hs.2⟩

namespace Machine

@[simp] theorem State.raise_zn (s : State) (code slice arg : Nat) : (s.raise code slice arg).zn = s.zn := (Told.raise s code slice arg).fields.1

@[simp] theorem State.raise_pending (s : State) (code slice arg : Nat) : (s.raise code slice arg).pending = s.pending := by
  obtain ⟨⟨r, v, e, q, l, f, x, o, h⟩, -⟩ := Told.raise s code slice arg
  rw [h]

end Machine

end Sys2Proof
end

