-- ==== Sys2Proof/WellFormed.lean ====
section
/-! DEFINITION. Which commands are well formed: senders exist, and identifiers and bytes have the widths that the spec gives them. -/

namespace Sys2Proof

open Machine (Org)

/-- Whether a value fits a width in bits. -/
def wide (w v : Nat) : Bool := v < 2 ^ w

/-- Whether a list is of bytes. -/
def allBytes (l : List Nat) : Bool := l.all (wide 8)

/-- Whether a sender may exist: 256 device function indices (14 R313), 32,768 device queues (03 R65), 65,536 associations. -/
def orgOk : Org → Bool
  | .fn n => wide 8 n
  | .fab a => wide 16 a
  | .mi => true
  | .io q => wide 15 q

/-- Whether a command is well formed. -/
def Instr.wellFormed : Instr → Bool
  | .sliceCreate o cid _ _ desc => orgOk o && wide 16 cid && allBytes desc
  | .sliceResize o cid _ desc => orgOk o && wide 16 cid && allBytes desc
  | .sliceDelete o cid _ => orgOk o && wide 16 cid
  | .sliceReset o cid _ => orgOk o && wide 16 cid
  | .sliceFence o cid _ => orgOk o && wide 16 cid
  | .queueReset o cid _ _ _ => orgOk o && wide 16 cid
  | .sliceBind o cid _ _ _ _ _ _ _ _ => orgOk o && wide 16 cid
  | .sliceUnbind o cid _ _ _ => orgOk o && wide 16 cid
  | .captureStreamCreate o cid _ _ desc => orgOk o && wide 16 cid && allBytes desc
  | .captureStreamModify o cid _ desc => orgOk o && wide 16 cid && allBytes desc
  | .captureStreamStart o cid _ => orgOk o && wide 16 cid
  | .captureStreamStop o cid _ => orgOk o && wide 16 cid
  | .captureStreamDelete o cid _ => orgOk o && wide 16 cid
  | .beginReshape o cid _ _ _ => orgOk o && wide 16 cid
  | .abortReshape o cid => orgOk o && wide 16 cid
  | .prepareRemoval o cid _ _ => orgOk o && wide 16 cid
  | .firmwareDownload o cid _ _ data => orgOk o && wide 16 cid && allBytes data
  | .firmwareCommitCa000 o cid _ _ _ => orgOk o && wide 16 cid
  | .firmwareCommitCa001 o cid _ _ _ => orgOk o && wide 16 cid
  | .firmwareCommitCa010 o cid _ _ => orgOk o && wide 16 cid
  | .firmwareCommitCa011 o cid _ _ _ => orgOk o && wide 16 cid
  | .createIoSubmissionQueue o cid _ _ _ _ _ _ _ => orgOk o && wide 16 cid
  | .createIoCompletionQueue o cid _ _ _ => orgOk o && wide 16 cid
  | .deleteIoCompletionQueue o cid _ => orgOk o && wide 16 cid
  | .deleteIoSubmissionQueue o cid _ => orgOk o && wide 16 cid
  | .connect _ cid _ _ _ _ _ _ _ => wide 16 cid
  | .setFeaturesQueueClass o cid _ _ _ => orgOk o && wide 16 cid
  | .getFeaturesQueueClass o cid _ => orgOk o && wide 16 cid
  | .setFeaturesTimestamp o cid _ _ => orgOk o && wide 16 cid
  | .getFeaturesTimestamp o cid => orgOk o && wide 16 cid
  | .setFeaturesPowerManagement o cid _ => orgOk o && wide 16 cid
  | .setFeaturesApst o cid _ _ => orgOk o && wide 16 cid
  | .setFeaturesInterruptCoalescing o cid _ _ => orgOk o && wide 16 cid
  | .setFeaturesIntVectorConfig o cid _ _ => orgOk o && wide 16 cid
  | .setFeaturesTempThreshold o cid _ _ _ => orgOk o && wide 16 cid
  | .getLogPageEventQueue o cid _ _ _ => orgOk o && wide 16 cid
  | .getLogPageChangedZoneList o cid nsid => orgOk o && wide 16 cid && wide 32 nsid
  | .getLogPageCalibrationSweep o cid _ _ => orgOk o && wide 16 cid
  | .getLogPageTemperatureSweep o cid _ _ => orgOk o && wide 16 cid
  | .getLogPageRecorderLive o cid _ _ => orgOk o && wide 16 cid
  | .getLogPageRecorderNand o cid _ _ _ => orgOk o && wide 16 cid
  | .getLogPageRecorderNor o cid _ _ _ => orgOk o && wide 16 cid
  | .getLogPageSmartHealth o cid => orgOk o && wide 16 cid
  | .getLogPageErrorInformation o cid _ => orgOk o && wide 16 cid
  | .identify o cid _ nsid => orgOk o && wide 16 cid && wide 32 nsid
  | .namespaceCreate o cid _ _ _ _ _ _ => orgOk o && wide 16 cid
  | .namespaceDelete o cid nsid => orgOk o && wide 16 cid && wide 32 nsid
  | .namespaceAttachment o cid nsid _ _ => orgOk o && wide 16 cid && wide 32 nsid
  | .formatNvm o cid nsid _ => orgOk o && wide 16 cid && wide 32 nsid
  | .sanitizeCryptoErase o cid => orgOk o && wide 16 cid
  | .asyncEventRequest o cid => orgOk o && wide 16 cid
  | .keepAlive o cid => orgOk o && wide 16 cid
  | .keepAliveExpiry _ => true
  | .read q cid nsid lba _ _ _ _ => wide 15 q && wide 16 cid && wide 32 nsid && wide 64 lba
  | .write q cid nsid lba _ _ _ => wide 15 q && wide 16 cid && wide 32 nsid && wide 64 lba
  | .zoneAppend q cid nsid _ _ _ => wide 15 q && wide 16 cid && wide 32 nsid
  | .writeZeroes q cid nsid lba _ _ => wide 15 q && wide 16 cid && wide 32 nsid && wide 64 lba
  | .deallocate q cid nsid _ => wide 15 q && wide 16 cid && wide 32 nsid
  | .flush q cid nsid => wide 15 q && wide 16 cid && wide 32 nsid
  | .frameRead q cid nsid lba _ _ _ _ => wide 15 q && wide 16 cid && wide 32 nsid && wide 64 lba
  | .zoneOpen q cid nsid _ _ _ _ => wide 15 q && wide 16 cid && wide 32 nsid
  | .zoneClose q cid nsid _ _ _ => wide 15 q && wide 16 cid && wide 32 nsid
  | .zoneFinish q cid nsid _ _ _ => wide 15 q && wide 16 cid && wide 32 nsid
  | .zoneReset q cid nsid _ _ _ => wide 15 q && wide 16 cid && wide 32 nsid
  | .zoneOffline q cid nsid _ _ _ => wide 15 q && wide 16 cid && wide 32 nsid
  | .reportZones q cid nsid _ _ _ _ _ => wide 15 q && wide 16 cid && wide 32 nsid
  | .extendedReportZones q cid nsid _ => wide 15 q && wide 16 cid && wide 32 nsid
  | .writeAdmit q cid _ _ => wide 15 q && wide 16 cid
  | .writeCommit q cid _ => wide 15 q && wide 16 cid
  | .zoneHoldTimeout q cid => wide 15 q && wide 16 cid
  | .deadlineMiss q cid => wide 15 q && wide 16 cid
  | .placementRetry q cid => wide 15 q && wide 16 cid
  | .ledgerEpoch => true
  | .doorbellWrite _ _ _ _ => true
  | .commandFetch cid _ => wide 16 cid
  | .dieOperationIssue _ => true
  | .dieReadDone _ _ _ _ => true
  | .programDone _ _ _ => true
  | .eraseDone _ _ _ => true
  | .eraseSuspended _ _ _ => true
  | .programFail _ _ _ _ => true
  | .eraseFail _ _ _ _ => true
  | .dieOpTimeout _ => true
  | .finePassUrgent _ => true
  | .decodeDone _ _ _ _ _ _ => true
  | .decoderWatchdog _ _ => true
  | .foldIssue _ _ _ => true
  | .patrolRead => true
  | .calibrationSweep _ _ => true
  | .temperatureSweep _ _ => true
  | .wearForecast => true
  | .correctionSave => true
  | .reclamation _ => true
  | .relocation _ _ => true
  | .rebuildStripe _ _ _ _ => true
  | .substitutionDelayExpiry _ => true
  | .unreachWaitExpiry q cid => wide 15 q && wide 16 cid
  | .stagingOverflowMove _ _ _ _ _ => true
  | .journalPageCommit _ => true
  | .journalPagePersist _ => true
  | .keyGenerationAdvance _ nsid => wide 32 nsid
  | .checkpointStart => true
  | .checkpointEnd => true
  | .mapWriteback nsid _ => wide 32 nsid
  | .mapFillArrival nsid _ _ => wide 32 nsid
  | .hopTrainingDone _ _ _ _ => true
  | .hopTrainingFail _ _ => true
  | .hopRetrain _ _ => true
  | .quietEntry _ _ _ => true
  | .burstStart _ _ _ _ => true
  | .keepalive _ _ _ _ => true
  | .flitReceive _ _ _ _ => true
  | .nakReceived _ _ _ _ => true
  | .replayTimeout _ _ _ => true
  | .flitLockLoss _ _ _ => true
  | .noProgress _ _ _ => true
  | .breakNotice _ _ => true
  | .widthChange _ => true
  | .sidebandInsert _ => true
  | .sidebandAlert _ _ => true
  | .sidebandAbsent _ => true
  | .chainEnumeration _ _ _ => true
  | .linkEngineWatchdog _ _ => true
  | .bridgeCounterCollect _ _ _ _ _ => true
  | .voltageLoopTick _ => true
  | .regulatorPoll _ _ _ _ => true
  | .regulatorRetry _ _ _ _ => true
  | .sensorConversion _ => true
  | .remoteConversion _ _ => true
  | .thermalStepFallback => true
  | .paceLowFallback => true
  | .overrunStep => true
  | .idleEntry => true
  | .dozeNapExit _ _ _ => true
  | .jackEntry _ => true
  | .wakeEvent _ _ _ => true
  | .wakeFrame _ _ _ b => allBytes b
  | .jackExit _ _ _ _ _ _ _ _ _ _ => true
  | .ppsEdge => true
  | .holdoverEnter => true
  | .timerExpiry _ => true
  | .timSetGo _ => true
  | .eventRaise _ _ _ => true
  | .evrClear => true
  | .evrFlush => true
  | .mailboxPop => true
  | .mailboxAcknowledge _ => true
  | .watchdogWrite => true
  | .watchdogExpiry _ => true
  | .compareMismatch _ => true
  | .selfCheckRequest _ _ => true
  | .spareSelfTest _ => true
  | .itcmFetchParity _ _ _ => true
  | .dtcmParityError _ _ => true
  | .dmaHalt _ _ _ => true
  | .alternateBankLoaded _ _ => true
  | .swapGo _ _ => true
  | .swapCommit => true
  | .swapRollback => true
  | .miReadDataStructure _ _ _ => true
  | .miSubsystemHealthPoll _ _ => true
  | .miControllerHealthPoll _ _ _ => true
  | .miConfigurationGet _ _ _ => true
  | .miConfigurationSet _ _ _ _ => true
  | .miVpdRead _ _ _ _ => true
  | .miVpdWrite _ _ _ data => allBytes data
  | .miReset _ _ => true
  | .miTunnelledAdmin _ _ c => Instr.wellFormed c
  | .smbusBasicManagementRead => true
  | .registerRead _ _ _ _ => true
  | .registerWrite _ _ _ _ _ => true
  | .managementRegisterWrite _ _ _ _ => true
  | .rcFieldRead _ _ _ => true
  | .genCtrlReset _ _ => true
  | .mcacheDisable => true
  | .mcacheEnable => true
  | .mcacheInvAll => true
  | .mcacheInvGo _ => true
  | .medDieRetireGo _ _ => true
  | .rasUnitFence _ _ => true
  | .rasUnitRelease _ _ => true
  | .lgrLcTgtWrite _ _ _ => true
  | .lgrEvtVecWrite _ _ _ _ => true
  | .ftlGcCfgWrite _ _ _ _ _ => true
  | .unitSelfTest _ _ _ => true
  | .ceRateCheck => true
  | .iftDatagram _ _ _ _ _ _ _ _ b _ => allBytes b
  | .stallTimeout _ => true
  | .frameCommit _ => true
  | .indexBlockWrite _ => true
  | .laneWatchdog _ _ _ => true
  | .cipherKnownAnswerTest _ _ => true
  | .rngFail => true
  | .keyDerivationDone _ _ => true
  | .arpRequest _ _ _ _ _ _ => true
  | .echoRequest _ _ _ _ _ _ => true
  | .addressResolutionTimeout _ _ _ => true
  | .pfcFrame _ _ _ _ _ => true
  | .pfcRefresh _ _ _ _ => true
  | .rocePacket _ _ _ _ _ _ _ _ => true
  | .cnpReceived _ => true
  | .ccRateTimer _ _ _ => true
  | .cmReq _ _ _ _ _ _ _ _ => true
  | .cmDreq _ => true
  | .rdmaWriteWithImmediate _ _ _ _ d => allBytes d
  | .commandCapsule _ cid _ _ _ => wide 16 cid
  | .rdmaReadResponse q cid _ => wide 15 q && wide 16 cid
  | .ackTimeout _ => true
  | .rnrNak _ => true
  | .inboundRdmaRead _ => true
  | .subportFault _ _ _ _ => true
  | .subportTrainingDone _ _ => true
  | .upHoldExpiry _ _ => true
  | .flapHoldExpiry _ _ => true
  | .dramRefresh _ _ _ => true
  | .mr4Poll _ _ => true
  | .dramActivate _ _ => true
  | .activationTableClear _ _ => true
  | .dramScrubRead _ _ _ _ _ _ => true
  | .cxlMemRead _ _ _ _ => true
  | .cxlMemWrite _ _ _ _ _ _ => true
  | .cxlGranuleWriteback _ _ => true
  | .gpfPhase1 => true
  | .gpfPhase2 => true
  | .configurationRequest _ _ _ => true
  | .perstNAssert _ _ => true
  | .perstNDeassert _ _ _ _ _ _ => true
  | .flrPf _ => true
  | .flrVf _ => true
  | .ccEnSet _ => true
  | .ccEnClear _ => true
  | .shutdownNotification _ => true
  | .vfEnableSet _ _ => true
  | .vfEnableClear _ => true
  | .busMasterEnableClear _ => true
  | .busMasterEnableSet _ => true
  | .pasidEnableClear _ => true
  | .pfailNFall _ => true
  | .flushDone _ _ => true
  | .pfailNRise => true
  | .porNFall _ _ => true
  | .porNRise _ _ _ _ _ _ _ _ _ _ _ _ => true
  | .dramTrainingDone _ => true
  | .dramFillDone => true
  | .adminReady _ => true
  | .journalReplayDone _ _ _ _ => true
  | .flushBankErased _ => true
  | .admissionOpen => true
  | .uartLoaderBlock _ data _ => allBytes data
  | .uartLoaderEnd _ _ _ _ _ _ _ => true
  | .refclkLoss => true
  | .subportSignalDetect _ _ => true
  | .partialFlitTimeout _ _ _ => true
  | .arpReply _ _ _ => true
  | .peerMacLifetimeExpiry _ _ => true
  | .droppedFrame _ _ _ => true
  | .pfcPauseExpiry _ _ => true
  | .aggregationTimeExpiry _ _ => true
  | .hdmDecoderCommit _ _ => true
  | .rngFailClear _ => true
  | .readUrgencyRise _ _ => true
  | .timerArm _ _ _ _ => true
  | .pupCacheParityError _ _ _ => true
  | .healthWindowRead _ _ => true
  | .timNowRead _ => true

end Sys2Proof
end

