-- ==== Sys2Proof/Tests/Slice0.lean ====
section
/-! SUPPORT. Tests: the spec's worked examples, the checks of well-formedness, the decoder, and for every statement that has hypotheses a
state and operands that meet them, clause by clause. -/

set_option Elab.async false
set_option linter.unusedVariables false

namespace Sys2Proof.Tests

open Sys2Proof Sys2Proof.Machine

/-- PF0's admin queue. -/
def adminQ : Queue := ⟨0, 0, 0, none, false, 0, 0, 0, 2, false, 0, 0, 4096, 0, 0, 0, 0, 0, false, [], 0, []⟩

/-- The controller in service: slice 0 ACTIVE, PF0 enabled with its admin queue, NVMe-MI on. -/
def up : State :=
  (((({ State.reset with
      img := { State.reset.img with por := true, admReady := true, replayed := true, started := true }
      stg := { State.reset.stg with commits := true, erased := [true, true] }
      zn := { State.reset.zn with cap := 1000 }
      fns := [(0, { FnSt.pf 0 with bme := true, mse := true, ccEn := true, rdy := true })]
      sl := { State.reset.sl with qs := [(0, adminQ)], cqs := [⟨0, 0, 0, 4096, 0, 0⟩] } }).wr F.IMG_STS_PHASE 1).wr F.IMG_STS_STEP 13).wr
    F.SLI_STS_STATE 1 0).wr F.PCX_LINK_STS_UP 1 0

/-- A queue of slice 1 and function 1, device queue index 5. -/
def q5 : Queue := ⟨1, 0, 1, none, false, 0, 0, 1, 3, false, 4, 1, 16, 0, 0, 0, 0, 0, false, [], 0, []⟩

/-- Slice 1 ACTIVE with function 1, its admin queue, and a queue of its own. -/
def up1 : State :=
  ({ up with
      fns := up.fns ++ [(1, { FnSt.pf 0 with bme := true, mse := true, ccEn := true, rdy := true })]
      sl := { up.sl with fbind := [⟨1, none, 0, 1⟩], qs := up.sl.qs ++ [(4, { adminQ with slice := 1, func := 1 }), (5, q5)],
                         cqs := up.sl.cqs ++ [CQ.mk 1 0 0 4096 0 0, CQ.mk 1 1 1 16 0 0] } }).wr F.SLI_STS_STATE 1 1

/-- A slice descriptor with weight 1 and nothing else. -/
def desc1 : List Nat := (List.range 64).map (fun i => if i = 12 then 1 else 0)

/-- An entry of class 3 that has come. -/
def arr0 : Arr := ⟨1, 2, 3, false, none, false, false⟩

/-- One queue, as given, with a window of host memory for slice 1. -/
def upQ (i : Nat) (q : Queue) : State := { up1 with sl := { up1.sl with qs := [(i, q)], devBucket := 1, xlt := [⟨1, 1, none, 0, 65536, true, true, false, 0, 0⟩] } }

/-- Elapsed time moved on, in ns. -/
def later (s : State) (ns : Nat) : State := { s with tim := { s.tim with elFx := s.tim.elFx + ns * 2 ^ 32 } }

/-- NVMe-MI over VDM and SMBus is on, with two ITCM banks loaded. -/
def upMi : State := ({ up with pup := { up.pup with itcm := [[1, 2, 3, 4, 5, 6, 7, 8], [9, 9, 9, 9]] }, img := { up.img with mirror := [[11, 12, 13, 14, 15, 16, 17, 18], []] } }).wr F.PUP_MI_CFG_VDM_EN 1 |>.wr F.PUP_MI_CFG_SMB_EN 1

/-- A mailbox entry. -/
def mbx (src ns seq : Nat) : MbxEnt := ⟨src, ns, seq, 1, 0, false, false⟩

/-- DRAM fitted and filled: 16 GiB, every channel in service. -/
def upDr : State := ((List.range 8).foldl (fun (s : State) c => s.wr F.DRC_CH_STS_STATE 2 c) up).wr F.DRC_CFG_CAP_GIB 16 |>.wr F.DRC_FILL_DONE 1 |>.wr F.DRC_SCRUB_CFG_EN 1

/-- A CXL window of 16 GiB, 8 GiB of it persistent, served on link 0, with an entry of slice 1. -/
def upCxl : State :=
  ({ upDr with
      pcx := { upDr.pcx with hdm := some (4096, 17179869184) }
      sl := { upDr.sl with xlt := [⟨1, 0, none, 0, 17179869184, true, true, true, 0, 0⟩] } }).wr F.PCX_CXL_STS_ACTIVE 1 |>.wr F.PCX_CXL_CFG_SIZE 16 |>.wr
    F.PCX_CXL_CFG_PERSIST 8 |>.wr F.SLI_STS_STATE 1 1

/-- The entry of that window. -/
def xe : XltEnt := ⟨1, 0, none, 0, 17179869184, true, true, true, 0, 0⟩

/-- Two completions that wait for function 1, with their stamps. -/
def twoHeld : List Held := [⟨⟨.fn 1, 3, 0, 0, false, 0, []⟩, ⟨1, 4, 0, 0⟩⟩, ⟨⟨.fn 1, 4, 0, 0, false, 0, []⟩, ⟨1, 4, 0, 0⟩⟩]

/-- An image of one segment in bank 1. -/
def img1 : FlushImg := ⟨1, false, 5, [⟨0, 4096, 1⟩], 1, none, [], [], [], 0, 0, []⟩

/-- Bytes of a 512-byte descriptor, zero but where listed. -/
def bytesAt (l : List (Nat × Nat)) : List Nat := (List.range 512).map (fun i => ((l.find? (fun e => e.1 = i)).map (·.2)).getD 0)

/-- A redundancy group of K = 4 with one die a position. -/
def grp4 : Grp := ⟨4, [0, 1, 2, 3, 4, 5], [[0], [1], [2], [3], [4], [5]], [[0], [0], [0], [0], [0], [0]], [[0], [0], [0], [0], [0], [0]], 100, false⟩

/-- A lane program. -/
def prog1 : LaneProg := ⟨1, 3, [], [], [], [], 0, 10, 0⟩

/-- A zoned namespace of slice 1 with four zones, attached to function 1. -/
def nsZ : Ns := ⟨1, true, 2097152, 0, 0, 0, 4, 0, [.fn 1]⟩

/-- Slice 1 with that namespace, its zones Empty. -/
def upNs : State :=
  ((List.range 4).foldl (fun (s : State) h => s.wr F.ZON_ENT0_STATE 1 h)
    { up1 with zn := { up1.zn with cap := 100000000, ns := [(1, nsZ)] }, rdn := { up1.rdn with groups := [(0, grp4)] },
               cap := { up1.cap with progs := [(1, prog1)] } }).wr F.SLI_DGMAP_MAP 1 1 |>.wr F.SLI_NS_ALLOC 10 1 |>.wr F.SLI_NS_USE 1 1 |>.wr
    F.SLI_WEIGHT_LCMASK 255 1 |>.wr F.SLI_RES_RCQP 8 1 |>.wr F.SLI_RES_QP 8 1

/-- A stream descriptor over two data zones and two index zones. -/
def sdesc : List Nat := bytesAt [(4, 1), (12, 2), (16, 2), (20, 2), (24, 2), (27, 1), (28, 10), (32, 4), (40, 1), (48, 1)]

/-- Stream 5 as that descriptor makes it. -/
def strm : Stream := mkStream sdesc 1 prog1

/-- With stream 5, as given. -/
def upSt (x : Stream) : State := { upNs with cap := { upNs.cap with streams := [(5, x)] } }

/-- An RC QP of port 0. -/
def qpx : Qp := ⟨0, 0, 9, 1, none, none, none, none, false, 1024, 14, 3, 3, 0, 0, 100, 200, 1, 2, 0, 0, 0, none, []⟩

/-- An address valid on an UP sub-port, a QP on it, and host 7's NQN pair bound to slice 1. -/
def upEt : State :=
  { ({ upNs with net := { upNs.net with qps := [(2, qpx)] }, sl := { upNs.sl with nbind := [⟨7, 1, 0, 1⟩] } } : State).wr F.ETH_SUB_STS_LINK 3 0 0 |>.wr
    F.ETH_IP_CTL_VALID 1 0 0 |>.wr F.ETH_IP_ADDR_LO_ADDR 99 0 0 with assocs := [(4, ⟨7, 1, 1, 100, 0, 0, 0, 4⟩)] }


/-- A working die. -/
def dieW : DieSt := { DieSt.absent with present := true, reach := true }

/-- A command of queue 5 as it is fetched. -/
def c0 : Cmd := newCmd 5 7 q5 0 ⟨0, 1000, 3, false, none, false, false⟩

/-- A conventional namespace of slice 1. -/
def nsC : Ns := ⟨1, false, 1000, 0, 0, 0, 0, 0, [.fn 1]⟩

/-- Six working dies, a granted host range, zone 0 open with four blocks written, the last of them staged, and a command in flight. -/
def upIo (c : Cmd) : State :=
  { upNs with
    zn := { upNs.zn with ns := [(1, nsZ), (2, nsC)], ud := [(3, 77)], cmds := [c] }
    die := { upNs.die with dies := (List.range 6).map (fun d => (d, dieW)) }
    stg := { upNs.stg with units := [⟨⟨false, 0, 0⟩, 3, 0, 0, 0, 0, 0, 0, 0⟩] }
    sl := { upNs.sl with xlt := [⟨1, 1, none, 0, 65536, true, true, false, 0, 0⟩] } }.wr F.ZON_ENT0_STATE znImp 0 |>.wr
    F.ZON_ENT0_SLICE 1 0 |>.wr F.ZON_ENT3_K 4 0 |>.wr F.ZON_ENT2_WP_OFF 4 0 |>.wr F.SLI_CAP_QUOTA_UNITS 100000000 1 |>.wr F.SLI_AZ_LIMIT 10 1

/-- The first 124 bytes of a frame record of a stored frame of no bytes. -/
def rec124 : List Nat := (List.range 124).map (fun i => if i = 18 then 1 else if 60 ≤ i ∧ i < 64 then (toLe 4 (crc32c [])).getD (i - 60) 0 else 0)

/-- The record. -/
def frec : List Nat := rec124 ++ toLe 4 (crc32c rec124)


/-- A die operation of zone 0's row 0. -/
def op0 : DOp := ⟨1, .erase, 3, 0, 1, 0, .data, ⟨false, 0, 0⟩, 0, 1, 5, 7, 0, 0, 4, 0, 1000, false, none, 0, 0, 0, 0, 0, 0, 0, none, Lad.foot, 0, false, 0⟩

/-- With die 2 as given. -/
def upDie (x : DieSt) : State := (upIo c0).putDie 2 x

/-- A stripe row on block 1 of dies 0 to 5. -/
def row0 : SRow := ⟨0, false, [⟨0, 1⟩, ⟨1, 1⟩, ⟨2, 1⟩, ⟨3, 1⟩, ⟨4, 1⟩, ⟨5, 1⟩], [], [], [5, 5, 5, 5, 5, 5], 0, 0, [], false⟩

/-- With that row, as given, in zone 0. -/
def upRow (c : Cmd) (x : SRow) : State := (upIo c).putZx 0 { (upIo c).zxOf 0 with rows := [x] }


/-- Hop `h` of link 63 in a state, as given. -/
def upHop (h st : Nat) (p : Hop) : State := ((upNs.setHop 63 h st).putHop 63 h p).wr F.KZL_CTL_EN 1 63 |>.wr F.KZL_CTL_QUIET_EN 1 63

/-- A hop at full width. -/
def hop4 : Hop := { Hop.fresh with width := 4, lanes := 15 }

/-- A hop whose direction toward the controller holds two flits. -/
def hopF : Hop := { hop4 with up := { LDir.fresh 0 with next := 9, replay := [⟨7, 2, 0, true, 5, []⟩, ⟨8, 2, 0, true, 6, []⟩] } }


/-- Hop `h` of link 63 at full width, as given. -/
def upWide (h : Nat) (p : Hop) : State := (upHop h hActive p).wr F.KZL_STS_WIDTH 0 63

/-- The symbols of a flit on four lanes after a burst. -/
def onLanes (l : List Nat) : List (List Int) := (flitSyms [0, 1, 2, 3] scrSeeds l).map (·.1)

/-- Stream 5 RUNNING on data zones 0 and 1 and index zone 3. -/
def strR : Stream := { strm with state := stRun, set := some 0, iz := some 1 }

/-- With the stream, as given, its zones open, an address on an UP sub-port, and the stream's QP. -/
def upCap (x : Stream) : State :=
  { upEt with cap := { upEt.cap with streams := [(5, x)] }, net := { upEt.net with qps := [(2, { qpx with stream := some 5 })] } }.wr
    F.ZON_ENT0_STATE znImp 0 |>.wr F.ZON_ENT0_STATE znImp 1 |>.wr F.ZON_ENT0_STATE znImp 3 |>.wr F.MED_PF_STS_PHASE 0

/-- A frame of three bytes. -/
def fr3 : Frame := ⟨0, 3, 0, none, false, false, false, 1, 0, 0, [(0, [1, 2, 3])], 0, none, false, prog1, 0, true, 0, 0, []⟩

/-- An entry of the journal. -/
def jent : JEnt := ⟨5, 9, [1, 2], .none, 0⟩

/-- A dirty line of the map cache. -/
def line1 : MLine := ⟨3, 1, 2, 0, true, true, false, false, 1, false, []⟩

/-- A row that holds map pages. -/
def crowM : CRow := ⟨0, true, ⟨0, false, [⟨0, 1⟩, ⟨1, 1⟩, ⟨2, 1⟩, ⟨3, 1⟩, ⟨4, 1⟩, ⟨5, 1⟩], [], [], [0, 0, 0, 0, 0, 0], 0, 0, [], false⟩, 8, 8⟩

/-- The map cache enabled, with these lines. -/
def upMc (l : List MLine) : State := { upIo c0 with ftl := { (upIo c0).ftl with lines := l, crows := [(0, crowM)], ckpt := some (9, 0) } }.wr F.MCACHE_STS_STATE 1

/-- A group of eight links of eight dies. -/
def grpN : Grp :=
  ⟨4, List.range 8, (List.range 8).map (fun i => (List.range 8).map (fun j => 64 * i + j)), [List.range 8], [List.replicate 8 0], 125, false⟩

/-- A row of one member on die 2. -/
def crow1 : CRow := ⟨0, false, ⟨0, false, [⟨2, 7⟩], [], [], [0], 0, 0, [], false⟩, 0, 0⟩


/-- A datagram of a frame of 100 bytes with three bytes of data. -/
def dgr (ver sid : Nat) : List Nat := [16 * ver, 1, 0, sid] ++ List.replicate 8 0 ++ [0, 0, 0, 100] ++ List.replicate 16 0 ++ [1, 2, 3]

/-- Awaiting replay: the tables are loaded, the phase is that of the start. -/
def upBoot : State := ((({ State.reset with img := { State.reset.img with por := true } }).wr F.IMG_STS_PHASE 0).wr F.IMG_STS_STEP 7).wr F.SLI_STS_STATE 1 0

/-- In Jack. -/
def upJack : State := { up with pwr := { up.pwr with jack := true, wake := some (6, 2, 0, 999) } }

/-- Armed for power failure. -/
def upArm : State := upNs.wr F.MED_PF_STS_PHASE pfArmed

/-- A clock locked to the PPS input. -/
def upPps : State := { later upNs 1000000300 with tim := { (later upNs 1000000300).tim with lastAcc := some 200 } }.wr F.TIM_CFG_PPS_EN 1 |>.wr F.TIM_STS_PPS 1

/-- A sender whose slice is `n` is served where all that is asked of the state holds. -/
theorem served_at {s : State} {o : Org} (n : Nat) (h : s.img.admReady = true ∧ s.muted o = false ∧ (o = .mi → s.stopped = false ∧ s.swapping = false) ∧
    ((s.admQ o).map (fun e => s.resetting e.1)).getD false = false ∧ (∀ e ∈ s.sl.qs, adminOf o e.2 = true → (s.admQ o).map (·.1) = some e.1) ∧
    s.sliceOf o = some n ∧ s.slState n = slActive) : Served s o := by
  obtain ⟨ready, sends, mi, queue, only, slice⟩ := h
  exact ⟨ready, sends, mi, queue, only, n, slice⟩

/-! ### Well-formedness: a term that each check refuses, and one that passes -/

theorem test_wf_good : Instr.wellFormed (.identify (.fn 255) 65535 0 4294967295) = true := by decide
theorem test_wf_function : Instr.wellFormed (.identify (.fn 256) 0 0 1) = false := by decide
theorem test_wf_association : Instr.wellFormed (.keepAlive (.fab 65536) 0) = false := by decide
theorem test_wf_cid : Instr.wellFormed (.getFeaturesTimestamp .mi 65536) = false := by decide
theorem test_wf_nsid : Instr.wellFormed (.identify .mi 0 0 4294967296) = false := by decide
theorem test_wf_queue : Instr.wellFormed (.writeCommit 32768 0 []) = false := by decide
theorem test_wf_lba : Instr.wellFormed (.read 0 0 1 18446744073709551616 1 false 0 []) = false := by decide
theorem test_wf_bytes : Instr.wellFormed (.sliceCreate (.fn 0) 0 1 1 [0, 256]) = false := by decide
theorem test_wf_header : Instr.wellFormed (.iftDatagram 0 0 0 0 0 0 0 40 [16, 256] []) = false := by decide

/-! ### The decoder: the table gives no row bits -/

theorem test_decode_none (nbits w : Nat) : Sys2Proof.decodeTableWord nbits w = none := rfl

/-! ### The spec's worked examples -/

/-- 04, locating one block: LBA offset 0x2_3456 of a zone at k = 16 lies 36,120 KiB into member 5, in window stripe row 1. -/
theorem test_locate_block : rowOf 16 144470 = (0, 144470) ∧ placeIn 16 144470 = (5, 36120 / 4) ∧ (winOf (36120 / 4)).1 = 1 := by decide

/-- 04, locating one block: at k = 8 it lies 72,216 KiB into member 5, in window stripe row 2. -/
theorem test_locate_block_k8 : rowOf 8 144470 = (0, 144470) ∧ placeIn 8 144470 = (5, 72216 / 4) ∧ (winOf (72216 / 4)).1 = 2 := by decide

/-- The group of the example of 07. -/
def grp7 : Grp :=
  ⟨16, List.range 32, (List.range 32).map (fun l => (List.range 8).map (fun d => l * 64 + d)),
    List.replicate 4 ((List.range 32).map (fun x => (5 * x + 3) % 32)), List.replicate 4 ((List.range 18).map (fun j => 3 * j % 8)), 50, false⟩

/-- 07, members of one stripe set: members 0, 5, 16 and 17 of stripe set 1,000. -/
theorem test_stripe_members : ([0, 5, 16, 17].map (grp7.member 1000)) = [327, 1926, 1351, 1666] := by decide +kernel

/-- 10, locating a codeword: codeword 838 at T0 lies in page 33, plane 2. -/
theorem test_codeword : cwPlace Desc.ref 0 838 = (33, 4, 1) := by decide

/-- 10, locating a codeword: at T0 codeword 4 crosses into plane 1 (one merged sense); at T1 codeword 24 runs into page 1 (two senses). -/
theorem test_codeword_cross : cwPlace Desc.ref 0 4 = (0, 3, 1) ∧ cwPlace Desc.ref 1 24 = (0, 32, 2) := by decide

/-- 10, locating a codeword: at T3 codeword 7,900 is codeword 258 of the tail. -/
theorem test_codeword_tail : nFit Desc.ref 3 ≤ 7900 ∧ 7900 - nFit Desc.ref 3 = 258 := by decide

/-- 09, reads at one busy die, step 2: an erase ran 120 µs; the predicted wait of a read is 95 µs. -/
theorem test_predict_min_run :
    (later (up.putDie 2409 { dieW with cur := some { op0 with dl := 2 ^ 60 } }) 120000).predict 2409 ⟨false, 2, 0, 0, 0, 1⟩ = 95 := by
  decide +kernel

/-- 09, reads at one busy die, step 5: an erase with its 12 suspensions used and 7,135 µs of progress leaves 2,865 µs. -/
theorem test_predict_suspended :
    (up.putDie 2409 { dieW with cur := some { op0 with sus := 12, ran := 7135 } }).predict 2409 ⟨false, 2, 0, 0, 0, 1⟩ = 2865 := by
  decide +kernel

/-- The next state of an answer. -/
def nextOf : Res → State
  | .next t => t
  | _ => State.reset

/-- 14, vectors for a shared finishing studio: with 255 VFs of a x16 port enabled each gets 120 vectors, with 14 each gets 2,048. -/
theorem test_vf_vectors :
    (nextOf (execVfEnableSet 0 255 (up.wr F.PCX_SRIOV_CFG_VF_VEC 2048 0))).rd F.PCX_SRIOV_STS_VF_S = 120 ∧
      (nextOf (execVfEnableSet 0 14 (up.wr F.PCX_SRIOV_CFG_VF_VEC 2048 0))).rd F.PCX_SRIOV_STS_VF_S = 2048 := by decide +kernel

/-- 23, three addresses: KZL_STS of KL37 and SLI_STALE_CNT of slice 7. -/
theorem test_addresses :
    (locate 0x0394008 regTable).map (fun e => (e.1, e.2.1)) = some (R.KZL_STS, 37) ∧
      (locate 0x1007008 regTable).map (fun e => (e.1, e.2.1)) = some (R.SLI_STALE_CNT, 7) ∧
      (locate 0x0040000 regTable).map (fun e => e.1) = some R.TIM_NOW := by decide +kernel

/-- 23 R498: GEN_ID reads device 0x9440 of vendor 0x485A. -/
theorem test_gen_id : up.peek 0 0 = 0x485A9440 := by decide +kernel

/-- CRC-32C of the nine digits is the polynomial's published check value. -/
theorem test_crc : crc32c [0x31, 0x32, 0x33, 0x34, 0x35, 0x36, 0x37, 0x38, 0x39] = 0xE3069283 := by decide +kernel

/-! ### The hypotheses of the statements are met -/

/-- The hypotheses of `Obligations.SliceCreateResizeDeleteComplete`, clause by clause. -/
theorem witness_SliceCreateResizeDeleteComplete :
    (∃ (o : Org) (cid : Nat) (n : Nat) (desc : List Nat) (s : State), (Manages s o) ∧ (1 ≤ n) ∧ (n < 1024) ∧ (s.slState n = slFree) ∧ (s.descFault n false desc = none) ∧ ((s.sx n).used = true → s.stamped true n (cut 16 (s.rd F.SLI_GEN_GEN n + 1)) = false)) ∧
    (∃ (o : Org) (cid : Nat) (n : Nat) (desc : List Nat) (s : State), (Manages s o) ∧ (n < 1024) ∧ (s.slState n = slActive) ∧ (s.descFault n true desc = none)) ∧
    (∃ (o : Org) (cid : Nat) (n : Nat) (s : State), (Manages s o) ∧ (1 ≤ n) ∧ (n < 1024) ∧ (s.slState n = slActive ∨ s.slState n = slFenced) ∧ (s.tailFull = false) ∧ (s.advancing n = false) ∧ (∀ e ∈ s.zn.ns, e.2.slice ≠ n) ∧ (s.sl.dels = []) ∧ (s.cip.erases = [])) ∧
    (∃ (o : Org) (cid : Nat) (n : Nat) (s : State), (Manages s o) ∧ (1 ≤ n) ∧ (n < 1024) ∧ (s.slState n = slActive ∨ s.slState n = slFenced) ∧ (s.tailFull = false) ∧ (∃ e ∈ s.zn.ns, e.2.slice = n) ∧ (s.sl.dels = []) ∧ (s.cip.erases = [])) :=
  ⟨⟨.fn 0, 7, 1023, desc1, (up.wr F.SLI_WEIGHT_WEIGHT 100 0).wr F.LGR_SL_CHG_CHG 5 1023, ⟨served_at 0 (by decide +kernel), by decide +kernel⟩, by decide +kernel⟩,
    ⟨.fn 0, 7, 0, desc1, up.wr F.SLI_WEIGHT_WEIGHT 100 0, ⟨served_at 0 (by decide +kernel), by decide +kernel⟩, by decide +kernel⟩,
    ⟨.fn 0, 7, 1, up1.wr F.SLI_STS_STATE slFenced 1, ⟨served_at 0 (by decide +kernel), by decide +kernel⟩, by decide +kernel⟩,
    ⟨.fn 0, 7, 1, upNs, ⟨served_at 0 (by decide +kernel), by decide +kernel⟩, by decide +kernel⟩⟩

/-- The hypotheses of `Obligations.SliceManagementRefusals`, clause by clause. -/
theorem witness_SliceManagementRefusals :
    (∃ (o : Org) (cid : Nat) (n : Nat) (desc : List Nat) (s : State), (Served s o) ∧ (isMgr o = false) ∧ (s.stopped = false) ∧ (s.tailFull = false)) ∧
    (∃ (o : Org) (cid : Nat) (n : Nat) (desc : List Nat) (s : State), (Served s o) ∧ (isMgr o = false) ∧ (s.stopped = false) ∧ (s.tailFull = false)) ∧
    (∃ (o : Org) (cid : Nat) (n : Nat) (desc : List Nat) (s : State), (Served s o) ∧ (isMgr o = false) ∧ (s.stopped = false) ∧ (s.tailFull = false)) ∧
    (∃ (o : Org) (cid : Nat) (n : Nat) (desc : List Nat) (s : State), (Served s o) ∧ (isMgr o = false) ∧ (s.stopped = false) ∧ (s.tailFull = false)) ∧
    (∃ (o : Org) (cid : Nat) (n : Nat) (desc : List Nat) (s : State), (Served s o) ∧ (isMgr o = false) ∧ (s.stopped = false) ∧ (s.tailFull = false)) ∧
    (∃ (o : Org) (cid : Nat) (n : Nat) (desc : List Nat) (s : State), (Manages s o) ∧ (n = 0 ∨ 1024 ≤ n) ∧ (s.tailFull = false)) ∧
    (∃ (o : Org) (cid : Nat) (n : Nat) (desc : List Nat) (s : State), (Manages s o) ∧ (n = 0 ∨ 1024 ≤ n) ∧ (s.tailFull = false)) ∧
    (∃ (o : Org) (cid : Nat) (n : Nat) (desc : List Nat) (s : State), (Manages s o) ∧ (n = 0 ∨ 1024 ≤ n) ∧ (s.tailFull = false)) ∧
    (∃ (o : Org) (cid : Nat) (n : Nat) (desc : List Nat) (s : State), (Manages s o) ∧ (n = 0 ∨ 1024 ≤ n) ∧ (s.tailFull = false)) ∧
    (∃ (o : Org) (cid : Nat) (n : Nat) (desc : List Nat) (s : State), (Manages s o) ∧ (1 ≤ n) ∧ (n < 1024) ∧ (s.slState n ≠ slFree)) ∧
    (∃ (o : Org) (cid : Nat) (n : Nat) (b : Nat) (desc : List Nat) (s : State), (Manages s o) ∧ (1 ≤ n) ∧ (n < 1024) ∧ (s.slState n = slFree) ∧ (s.descFault n false desc = some b)) ∧
    (∃ (o : Org) (cid : Nat) (act : Nat) (n : Nat) (desc : List Nat) (s : State), (Manages s o) ∧ (act = 0 ∨ 9 ≤ act)) :=
  ⟨⟨.fn 1, 7, 3, [], up1, served_at 1 (by decide +kernel), by decide +kernel⟩,
    ⟨.fn 1, 7, 3, [], up1, served_at 1 (by decide +kernel), by decide +kernel⟩,
    ⟨.fn 1, 7, 3, [], up1, served_at 1 (by decide +kernel), by decide +kernel⟩,
    ⟨.fn 1, 7, 3, [], up1, served_at 1 (by decide +kernel), by decide +kernel⟩,
    ⟨.fn 1, 7, 3, [], up1, served_at 1 (by decide +kernel), by decide +kernel⟩,
    ⟨.fn 0, 7, 1024, [], up, ⟨served_at 0 (by decide +kernel), by decide +kernel⟩, by decide +kernel⟩,
    ⟨.fn 0, 7, 1024, [], up, ⟨served_at 0 (by decide +kernel), by decide +kernel⟩, by decide +kernel⟩,
    ⟨.fn 0, 7, 1024, [], up, ⟨served_at 0 (by decide +kernel), by decide +kernel⟩, by decide +kernel⟩,
    ⟨.fn 0, 7, 1024, [], up, ⟨served_at 0 (by decide +kernel), by decide +kernel⟩, by decide +kernel⟩,
    ⟨.fn 0, 7, 1, [], up1, ⟨served_at 0 (by decide +kernel), by decide +kernel⟩, by decide +kernel⟩,
    ⟨.fn 0, 7, 1023, 15, (desc1.set 15 1), up, ⟨served_at 0 (by decide +kernel), by decide +kernel⟩, by decide +kernel⟩,
    ⟨.fn 0, 7, 9, 1023, [], up, ⟨served_at 0 (by decide +kernel), by decide +kernel⟩, by decide +kernel⟩⟩

/-- The hypotheses of `Obligations.ResetFenceQueueResetComplete`, clause by clause. -/
theorem witness_ResetFenceQueueResetComplete :
    (∃ (o : Org) (cid : Nat) (n : Nat) (s : State), (Manages s o) ∧ (1 ≤ n) ∧ (n < 1024) ∧ (s.slState n = slActive ∨ s.slState n = slFenced) ∧ (s.queuesOf n = []) ∧ (s.qpsOf n = []) ∧ (s.cap.streams = []) ∧ (s.die.dies = []) ∧ (s.die.cws = []) ∧ (s.zn.cmds = []) ∧ ((s.sx n).pendFence = none)) ∧
    (∃ (o : Org) (cid : Nat) (n : Nat) (s : State), (Manages s o) ∧ (1 ≤ n) ∧ (n < 1024) ∧ (s.slState n = slActive) ∧ (s.zn.cmds = []) ∧ (s.cap.streams = [])) ∧
    (∃ (o : Org) (cid : Nat) (n : Nat) (i : Nat) (q : Queue) (s : State), (Manages s o) ∧ (n < 1024) ∧ (s.slState n = slActive) ∧ (Tab.find i s.sl.qs = some q) ∧ (q.slice = n) ∧ (q.qid ≠ 0 ∨ q.fabric = true ∨ q.func ≠ 0) ∧ ((s.admQ o).map (·.1) ≠ some i) ∧ (s.sl.waits = []) ∧ (s.zn.cmds = []) ∧ (s.rdn.recon = []) ∧ (s.die.dies = []) ∧ (s.die.cws = [])) :=
  ⟨⟨.fn 0, 7, 1023, (up.wr F.SLI_STS_STATE slFenced 1023).wr F.SLI_GEN_GEN 65535 1023, ⟨served_at 0 (by decide +kernel), by decide +kernel⟩, by decide +kernel⟩,
    ⟨.fn 0, 7, 1, up1, ⟨served_at 0 (by decide +kernel), by decide +kernel⟩, by decide +kernel⟩,
    ⟨.fn 0, 7, 1, 5, { q5 with pend := [⟨1, 2, 0, false, none, false, false⟩], tail := 1 }, up1.putQ 5 { q5 with pend := [⟨1, 2, 0, false, none, false, false⟩], tail := 1 }, ⟨served_at 0 (by decide +kernel), by decide +kernel⟩, by decide +kernel⟩⟩

/-- The hypotheses of `Obligations.BindUnbindComplete`, clause by clause. -/
theorem witness_BindUnbindComplete :
    (∃ (o : Org) (cid : Nat) (n : Nat) (idx : Nat) (func : Nat) (pasid : Option Nat) (host : Nat) (sub : Nat) (ents : List XltWant) (s : State), (Manages s o) ∧ (n < 1024) ∧ (s.slState n = slActive) ∧ (s.fbindOk n idx func pasid = true) ∧ (ents.all XltWant.ok = true) ∧ ((s.sl.xlt.filter (fun e => e.slice = n)).length + ents.length ≤ (s.sx n).xltLim) ∧ (∀ e ∈ s.sl.xlt, ¬ (e.slice = n ∧ e.bind = idx ∧ e.kind = 0)) ∧ (s.fn func = none)) ∧
    (∃ (o : Org) (cid : Nat) (n : Nat) (idx : Nat) (func : Nat) (pasid : Option Nat) (host : Nat) (sub : Nat) (s : State), (Manages s o) ∧ (n < 1024) ∧ (s.slState n = slActive) ∧ (s.nbindOk n idx host sub = true)) ∧
    (∃ (o : Org) (cid : Nat) (n : Nat) (idx : Nat) (s : State), (Manages s o) ∧ (n < 1024) ∧ (s.slState n = slActive ∨ s.slState n = slFenced) ∧ (∃ b ∈ s.sl.fbind, b.slice = n ∧ b.idx = idx)) ∧
    (∃ (o : Org) (cid : Nat) (n : Nat) (idx : Nat) (s : State), (Manages s o) ∧ (n < 1024) ∧ (s.slState n = slActive ∨ s.slState n = slFenced) ∧ (∃ b ∈ s.sl.nbind, b.slice = n ∧ b.idx = idx)) :=
  ⟨⟨.fn 0, 7, 1, 255, 255, some 9, 0, 0, [⟨0, 4096, true, true, false⟩], up1.putSx 1 { SliceX.fresh with xltLim := 1 }, ⟨served_at 0 (by decide +kernel), by decide +kernel⟩, by decide +kernel⟩,
    ⟨.fn 0, 7, 1, 255, 0, none, 4, 5, up1, ⟨served_at 0 (by decide +kernel), by decide +kernel⟩, by decide +kernel⟩,
    ⟨.fn 0, 7, 1, 0, up1.wr F.SLI_STS_STATE slFenced 1, ⟨served_at 0 (by decide +kernel), by decide +kernel⟩, by decide +kernel⟩,
    ⟨.fn 0, 7, 1, 255, { up1 with sl := { up1.sl with nbind := [⟨3, 4, 255, 1⟩] } }, ⟨served_at 0 (by decide +kernel), by decide +kernel⟩, by decide +kernel⟩⟩

/-- The hypotheses of `Obligations.QueueCreationDeletionComplete`, clause by clause. -/
theorem witness_QueueCreationDeletionComplete :
    (∃ (o : Org) (cid : Nat) (cqid : Nat) (qsize : Nat) (vec : Nat) (f : Nat) (s : State), (Served s o) ∧ (funcOf o = some f) ∧ (1 ≤ cqid) ∧ (cqid ≤ 2047) ∧ (∀ c ∈ s.sl.cqs, ¬ (c.func = f ∧ c.cqid = cqid)) ∧ (1 ≤ qsize) ∧ (qsize ≤ 4095) ∧ (s.vecTaken f vec = false) ∧ (vec < s.vecTable f)) ∧
    (∃ (o : Org) (cid : Nat) (qid : Nat) (qsize : Nat) (cqid : Nat) (bind : Nat) (lc : Nat) (base : Nat) (f : Nat) (i : Nat) (ff : Bool) (b : FBind) (s : State), (Served s o) ∧ (funcOf o = some f) ∧ (1 ≤ qid) ∧ (qid ≤ 2047) ∧ (∀ e ∈ s.sl.qs, ¬ (e.2.fabric = false ∧ e.2.func = f ∧ e.2.qid = qid)) ∧ (1 ≤ qsize) ∧ (qsize ≤ 4095) ∧ (cqid ≠ 0) ∧ (∃ c ∈ s.sl.cqs, c.func = f ∧ c.cqid = cqid) ∧ (s.bindsOf f = [b]) ∧ (bit (s.rd F.SLI_WEIGHT_LCMASK b.slice) lc = true) ∧ (s.qpFree b.slice = true) ∧ (s.freeIdx = some i)) ∧
    (∃ (o : Org) (cid : Nat) (cqid : Nat) (f : Nat) (s : State), (Served s o) ∧ (funcOf o = some f) ∧ (cqid ≠ 0) ∧ (∃ c ∈ s.sl.cqs, c.func = f ∧ c.cqid = cqid) ∧ (∀ e ∈ s.sl.qs, ¬ (e.2.fabric = false ∧ e.2.func = f ∧ e.2.cqid = cqid))) ∧
    (∃ (o : Org) (cid : Nat) (cqid : Nat) (f : Nat) (s : State), (Served s o) ∧ (funcOf o = some f) ∧ (cqid ≠ 0) ∧ (∃ c ∈ s.sl.cqs, c.func = f ∧ c.cqid = cqid) ∧ (∃ e ∈ s.sl.qs, e.2.fabric = false ∧ e.2.func = f ∧ e.2.cqid = cqid)) ∧
    (∃ (o : Org) (cid : Nat) (qid : Nat) (f : Nat) (i : Nat) (q : Queue) (s : State), (Served s o) ∧ (funcOf o = some f) ∧ (s.sl.qs.find? (fun e => !e.2.fabric && e.2.func = f && e.2.qid = qid && qid != 0) = some (i, q)) ∧ ((s.admQ o).map (·.1) ≠ some i) ∧ (s.zn.cmds = [])) :=
  ⟨⟨.fn 1, 7, 2047, 4095, 2047, 1, up1, served_at 1 (by decide +kernel), by decide +kernel⟩,
    ⟨.fn 1, 7, 2047, 1, 1, 0, 7, 0, 1, 1, false, ⟨1, none, 0, 1⟩, (up1.wr F.SLI_WEIGHT_LCMASK 128 1).wr F.SLI_RES_QP 2 1, served_at 1 (by decide +kernel), by decide +kernel⟩,
    ⟨.fn 1, 7, 9, 1, { up1 with sl := { up1.sl with cqs := up1.sl.cqs ++ [CQ.mk 1 9 3 16 0 0] } }, served_at 1 (by decide +kernel), by decide +kernel⟩,
    ⟨.fn 1, 7, 1, 1, up1, served_at 1 (by decide +kernel), by decide +kernel⟩,
    ⟨.fn 1, 7, 1, 1, 5, q5, up1, served_at 1 (by decide +kernel), by decide +kernel⟩⟩

/-- The hypotheses of `Obligations.QueueFeaturesComplete`, clause by clause. -/
theorem witness_QueueFeaturesComplete :
    (∃ (o : Org) (cid : Nat) (qid : Nat) (lc : Nat) (i : Nat) (ff : Bool) (q : Queue) (s : State), (Served s o) ∧ (s.queueOf o qid = some (i, q)) ∧ (qid ≠ 0) ∧ (lc ≤ 7) ∧ ((s.admQ o).map (·.1) ≠ some i) ∧ (bit (s.rd F.SLI_WEIGHT_LCMASK q.slice) lc = true)) ∧
    (∃ (o : Org) (cid : Nat) (qid : Nat) (i : Nat) (q : Queue) (s : State), (Served s o) ∧ (s.queueOf o qid = some (i, q)) ∧ (qid ≠ 0)) ∧
    (∃ (o : Org) (cid : Nat) (time : Nat) (thr : Nat) (f : Nat) (s : State), (Served s o) ∧ (funcOf o = some f) ∧ (time < 256) ∧ (thr < 256)) ∧
    (∃ (o : Org) (cid : Nat) (vec : Nat) (f : Nat) (cd : Bool) (s : State), (Served s o) ∧ (funcOf o = some f) ∧ (vec < s.vecTable f)) ∧
    (∃ (func : Nat) (vec : Nat) (co : Coal) (s : State), (Tab.find func s.sl.coal = some co) ∧ ((s.vecOf func vec).waiting ≠ []) ∧ ((s.vecOf func vec).since + co.time * 100000 ≤ s.el) ∧ (∀ m ∈ (s.vecOf func vec).waiting, s.live m.slice m.q m.genS m.genQ = true)) ∧
    (∃ (func : Nat) (vec : Nat) (co : Coal) (m : Stamp) (s : State), (Tab.find func s.sl.coal = some co) ∧ ((s.vecOf func vec).waiting = [m]) ∧ ((s.vecOf func vec).since + co.time * 100000 ≤ s.el) ∧ (s.live m.slice m.q m.genS m.genQ = false)) ∧
    (∃ (o : Org) (cid : Nat) (s : State), (Served s o) ∧ (∀ n ∈ s.ras.notices, n.1 ≠ ctlOf o)) ∧
    (∃ (o : Org) (cid : Nat) (ty : Nat) (info : Nat) (page : Nat) (s : State), (Served s o) ∧ (s.ras.notices = [(ctlOf o, ty, info, page)])) :=
  ⟨⟨.fn 1, 7, 1, 7, 5, true, q5, up1.wr F.SLI_WEIGHT_LCMASK 128 1, served_at 1 (by decide +kernel), by decide +kernel⟩,
    ⟨.fn 1, 7, 1, 5, q5, up1, served_at 1 (by decide +kernel), by decide +kernel⟩,
    ⟨.fn 1, 7, 255, 255, 1, up1, served_at 1 (by decide +kernel), by decide +kernel⟩,
    ⟨.fn 1, 7, 2047, 1, true, up1, served_at 1 (by decide +kernel), by decide +kernel⟩,
    ⟨1, 1, ⟨1, 5⟩, { up1 with sl := { up1.sl with coal := [(1, ⟨1, 5⟩)], vecs := [⟨1, 1, false, [⟨1, 5, 0, 4⟩, ⟨1, 5, 0, 4⟩], 0⟩] }, tim := { up1.tim with elFx := 100000 * 2 ^ 32 } }, by decide +kernel⟩,
    ⟨1, 1, ⟨1, 5⟩, ⟨1, 5, 0, 3⟩, { up1 with sl := { up1.sl with coal := [(1, ⟨1, 5⟩)], vecs := [⟨1, 1, false, [⟨1, 5, 0, 3⟩], 0⟩] }, tim := { up1.tim with elFx := 100000 * 2 ^ 32 } }, by decide +kernel⟩,
    ⟨.fn 1, 7, { up1 with ras := { up1.ras with notices := [(.mgr, 7, 1, 208)] } }, served_at 1 (by decide +kernel), by decide +kernel⟩,
    ⟨.fn 1, 7, 7, 2, 208, { up1 with ras := { up1.ras with notices := [(.fn 1, 7, 2, 208)] } }, served_at 1 (by decide +kernel), by decide +kernel⟩⟩

/-- The hypotheses of `Obligations.CaptureStreamManagementComplete`, clause by clause. -/
theorem witness_CaptureStreamManagementComplete :
    (∃ (o : Org) (cid : Nat) (k : Nat) (desc : List Nat) (n : Ns) (p : LaneProg) (s : State), (Served s o) ∧ (k < 256) ∧ (s.mayCap o (some n.slice) = true) ∧ (s.stream k = none) ∧ (s.streamFault k desc = none) ∧ (Tab.find (leAt desc 4 4) s.zn.ns = some n) ∧ (Tab.find (leAt desc 27 1) s.cap.progs = some p) ∧ (bit (leAt desc 0 4) 0 = false)) ∧
    (∃ (o : Org) (cid : Nat) (k : Nat) (desc : List Nat) (n : Ns) (p : LaneProg) (q : Qp) (s : State), (Served s o) ∧ (k < 256) ∧ (s.mayCap o (some n.slice) = true) ∧ (s.stream k = none) ∧ (s.streamFault k desc = none) ∧ (Tab.find (leAt desc 4 4) s.zn.ns = some n) ∧ (Tab.find (leAt desc 27 1) s.cap.progs = some p) ∧ (bit (leAt desc 0 4) 0 = true) ∧ (s.qp (cut 24 (leAt desc 56 4)) = some q) ∧ (q.slice = none)) ∧
    (∃ (o : Org) (cid : Nat) (act : Nat) (k : Nat) (desc : List Nat) (s : State), (Served s o) ∧ (act = 0 ∨ 6 ≤ act)) ∧
    (∃ (o : Org) (cid : Nat) (k : Nat) (desc : List Nat) (x : Stream) (p : LaneProg) (s : State), (Served s o) ∧ (s.capChk o k [stIdle, stRun, stStall, stBlock] = none) ∧ (s.stream k = some x) ∧ (s.modFault x desc = none) ∧ (Tab.find (leAt desc 27 1) s.cap.progs = some p) ∧ (p.id = x.cur.id ∨ ∀ l, l < 64 → bit (Nat.lor x.mask (leAt desc 40 8)) l = true → s.laneOld l = false)) ∧
    (∃ (o : Org) (cid : Nat) (k : Nat) (i : Nat) (z : Nat) (x : Stream) (s : State), (Served s o) ∧ (s.capChk o k [stIdle] = none) ∧ (s.stream k = some x) ∧ (x.set = some i) ∧ (x.iz = some z) ∧ (x.rdma = false)) ∧
    (∃ (o : Org) (cid : Nat) (k : Nat) (x : Stream) (s : State), (Served s o) ∧ (s.capChk o k [stRun, stStall, stBlock] = none) ∧ (s.stream k = some x) ∧ (x.frames = []) ∧ (x.stop = none) ∧ (x.rxAt = none)) ∧
    (∃ (o : Org) (cid : Nat) (k : Nat) (x : Stream) (s : State), (Served s o) ∧ (s.capChk o k [stIdle] = none) ∧ (s.stream k = some x) ∧ (x.recs = [])) :=
  ⟨⟨.fn 1, 7, 255, sdesc, nsZ, prog1, upNs, served_at 1 (by decide +kernel), by decide +kernel⟩,
    ⟨.fn 1, 7, 5, bytesAt [(0, 1), (4, 1), (12, 2), (16, 2), (20, 2), (24, 2), (27, 1), (28, 10), (32, 4), (40, 1), (56, 2)], nsZ, prog1, qpx, { upNs with net := { upNs.net with qps := [(2, qpx)] } }, served_at 1 (by decide +kernel), by decide +kernel⟩,
    ⟨.fn 1, 7, 6, 0, [], upNs, served_at 1 (by decide +kernel), by decide +kernel⟩,
    ⟨.fn 1, 7, 5, bytesAt [(0, 2), (4, 1), (12, 2), (16, 2), (20, 2), (24, 2), (27, 1), (28, 232), (29, 3), (32, 4), (40, 255), (48, 1)], { strm with state := stRun }, prog1, upSt { strm with state := stRun }, served_at 1 (by decide +kernel), by decide +kernel⟩,
    ⟨.fn 1, 7, 5, 0, 1, { strm with set := some 0, iz := some 1 }, ((upSt { strm with set := some 0, iz := some 1 }).wr F.ZON_ENT0_STATE znClosed 0).wr F.ZON_ENT0_STATE znClosed 3, served_at 1 (by decide +kernel), by decide +kernel⟩,
    ⟨.fn 1, 7, 5, { strm with state := stStall, set := some 0, iz := some 1 }, ((upSt { strm with state := stStall, set := some 0, iz := some 1 }).wr F.ZON_ENT0_STATE znImp 0).wr F.ZON_ENT0_STATE znImp 3, served_at 1 (by decide +kernel), by decide +kernel⟩,
    ⟨.fn 1, 7, 5, { strm with set := some 0, iz := some 1 }, upSt { strm with set := some 0, iz := some 1 }, served_at 1 (by decide +kernel), by decide +kernel⟩⟩

/-- The hypotheses of `Obligations.NamespaceCommandsComplete`, clause by clause. -/
theorem witness_NamespaceCommandsComplete :
    (∃ (o : Org) (cid : Nat) (sl : Nat) (nsze : Nat) (ncap : Nat) (lbaf : Nat) (dg : Nat) (cipher : Nat) (id : Nat) (zoned : Bool) (s : State), (Served s o) ∧ (s.sliceOf o = some sl) ∧ (s.nsFault sl zoned nsze ncap lbaf dg cipher = none) ∧ (s.freeNsid sl = some id)) ∧
    (∃ (o : Org) (cid : Nat) (nsid : Nat) (id : Nat) (ctls : List Nat) (n : Ns) (s : State), (Served s o) ∧ (nsid ≠ 0xFFFFFFFF) ∧ ((s.named o nsid).head? = some (id, n)) ∧ (∀ k ∈ ctls, 1 ≤ k ∧ k < 256 ∧ Ctl.fn k ∉ n.ctls)) ∧
    (∃ (o : Org) (cid : Nat) (nsid : Nat) (id : Nat) (k : Nat) (n : Ns) (s : State), (Served s o) ∧ (nsid ≠ 0xFFFFFFFF) ∧ ((s.named o nsid).head? = some (id, n)) ∧ (1 ≤ k) ∧ (k < 256) ∧ (Ctl.fn k ∈ n.ctls)) ∧
    (∃ (o : Org) (cid : Nat) (s : State) (nsid : Nat) (n : Ns), (Served s o) ∧ (s.tailFull = false) ∧ (s.cip.erases = []) ∧ (s.sl.dels = []) ∧ (s.named o nsid = [(nsid, n)])) ∧
    (∃ (o : Org) (cid : Nat) (s : State) (nsid : Nat) (lbaf : Nat) (n : Ns), (Served s o) ∧ (s.tailFull = false) ∧ (s.cip.erases = []) ∧ (s.sl.dels = []) ∧ (s.named o nsid = [(nsid, n)]) ∧ (lbaf ≤ 2) ∧ (s.genFull n.slice nsid = false)) ∧
    (∃ (o : Org) (cid : Nat) (s : State) (nsid : Nat) (n : Ns), (Served s o) ∧ (s.tailFull = false) ∧ (s.cip.erases = []) ∧ (s.sl.dels = []) ∧ (isMgr o = true) ∧ (s.zn.ns = [(nsid, n)]) ∧ (s.genFull n.slice nsid = false)) ∧
    (∃ (o : Org) (cid : Nat) (s : State), (Served s o) ∧ (s.tailFull = false) ∧ (s.cip.erases = []) ∧ (s.sl.dels = []) ∧ (s.named o 0xFFFFFFFF = [])) ∧
    (∃ (o : Org) (cid : Nat) (s : State), (Served s o) ∧ (s.tailFull = false) ∧ (s.cip.erases = []) ∧ (s.sl.dels = []) ∧ (isMgr o = true) ∧ (s.zn.ns = [])) ∧
    (∃ (o : Org) (cid : Nat) (nsid : Nat) (gen : Nat) (k : Nat) (lbaf : Nat) (n : Ns) (e : JEnt) (s : State), (s.ftl.jtail = []) ∧ (s.ftl.jpages = [⟨[e], k⟩]) ∧ (e.act = .keyGen n.slice nsid gen) ∧ (s.zn.ns = [(nsid, n)]) ∧ (n.zoned = true) ∧ (s.zn.cmds = []) ∧ (s.cap.streams = []) ∧ (s.sl.dels = []) ∧ (s.cip.erases = [⟨o, cid, .delete, [(n.slice, nsid)]⟩])) ∧
    (∃ (o : Org) (cid : Nat) (nsid : Nat) (gen : Nat) (k : Nat) (lbaf : Nat) (n : Ns) (e : JEnt) (s : State), (s.ftl.jtail = []) ∧ (s.ftl.jpages = [⟨[e], k⟩]) ∧ (e.act = .keyGen n.slice nsid gen) ∧ (s.zn.ns = [(nsid, n)]) ∧ (n.zoned = true) ∧ (s.zn.cmds = []) ∧ (s.cap.streams = []) ∧ (s.sl.dels = []) ∧ (s.cip.erases = [⟨o, cid, .format lbaf, [(n.slice, nsid)]⟩])) :=
  ⟨⟨.fn 1, 7, 1, 1048576, 1048576, 2, 0, 0, 2, true, upNs, served_at 1 (by decide +kernel), by decide +kernel⟩,
    ⟨.fn 0, 7, 1, 1, [2, 255], nsZ, upNs, served_at 0 (by decide +kernel), by decide +kernel⟩,
    ⟨.fn 0, 7, 1, 1, 1, nsZ, upNs, served_at 0 (by decide +kernel), by decide +kernel⟩,
    ⟨.fn 1, 7, upNs, 1, nsZ, served_at 1 (by decide +kernel), by decide +kernel⟩,
    ⟨.fn 1, 7, (upNs.wr F.ZON_ENT0_STATE znFull 1).wr F.ZON_ENT2_WP_OFF 55 1, 1, 2, nsZ, served_at 1 (by decide +kernel), by decide +kernel⟩,
    ⟨.fn 0, 7, (upNs.wr F.ZON_ENT0_STATE znFull 1).wr F.ZON_ENT2_WP_OFF 55 1, 1, nsZ, served_at 0 (by decide +kernel), by decide +kernel⟩,
    ⟨.fn 1, 7, { upNs with zn := { upNs.zn with ns := [] } }, served_at 1 (by decide +kernel), by decide +kernel⟩,
    ⟨.fn 0, 7, { upNs with zn := { upNs.zn with ns := [] } }, served_at 0 (by decide +kernel), by decide +kernel⟩,
    ⟨.fn 0, 7, 1, 1, 2, 0, nsZ, ⟨3, 32, [1, 1, 1], .keyGen 1 1 1, 0⟩, { upNs with ftl := { upNs.ftl with jpages := [⟨[⟨3, 32, [1, 1, 1], .keyGen 1 1 1, 0⟩], 2⟩] }, cip := { upNs.cip with erases := [⟨.fn 0, 7, .delete, [(1, 1)]⟩] } }, by decide +kernel⟩,
    ⟨.fn 0, 7, 1, 1, 2, 2, nsZ, ⟨3, 32, [1, 1, 1], .keyGen 1 1 1, 0⟩, { ((upNs.wr F.ZON_ENT0_STATE znFull 1).wr F.ZON_ENT2_WP_OFF 55 1) with ftl := { upNs.ftl with jpages := [⟨[⟨3, 32, [1, 1, 1], .keyGen 1 1 1, 0⟩], 2⟩] }, cip := { upNs.cip with erases := [⟨.fn 0, 7, .format 2, [(1, 1)]⟩] } }, by decide +kernel⟩⟩

/-- The hypotheses of `Obligations.IdentifyAndLogPagesComplete`, clause by clause. -/
theorem witness_IdentifyAndLogPagesComplete :
    (∃ (o : Org) (cid : Nat) (nsid : Nat) (e : Nat × Ns) (s : State), (Served s o) ∧ ((s.named o nsid).head? = some e)) ∧
    (∃ (o : Org) (cid : Nat) (nsid : Nat) (s : State), (Served s o)) ∧
    (∃ (o : Org) (cid : Nat) (nsid : Nat) (s : State), (Served s o) ∧ (isMgr o = true)) ∧
    (∃ (o : Org) (cid : Nat) (off : Nat) (len : Nat) (s : State), (Served s o)) ∧
    (∃ (o : Org) (cid : Nat) (len : Nat) (s : State), (Served s o) ∧ (isMgr o = true) ∧ (64 + 32 * s.ras.evq.length ≤ len)) ∧
    (∃ (o : Org) (cid : Nat) (nsid : Nat) (s : State), (Served s o)) ∧
    (∃ (o : Org) (cid : Nat) (off : Nat) (len : Nat) (s : State), (Served s o)) ∧
    (∃ (o : Org) (cid : Nat) (off : Nat) (len : Nat) (s : State), (Served s o)) ∧
    (∃ (o : Org) (cid : Nat) (off : Nat) (len : Nat) (s : State), (Served s o) ∧ (isMgr o = true)) ∧
    (∃ (o : Org) (cid : Nat) (off : Nat) (len : Nat) (s : State), (Served s o) ∧ (isMgr o = false)) ∧
    (∃ (o : Org) (cid : Nat) (lsp : Nat) (off : Nat) (len : Nat) (c : RecCopy) (s : State), (Served s o) ∧ (isMgr o = true) ∧ (lsp < 16) ∧ (s.evr.nand[lsp]? = some c)) ∧
    (∃ (o : Org) (cid : Nat) (lsp : Nat) (off : Nat) (len : Nat) (x : NorSect) (xs : List NorSect) (s : State), (Served s o) ∧ (isMgr o = true) ∧ (lsp < 16) ∧ ((norFlushes s.evr.nor [])[lsp]? = some (x :: xs))) ∧
    (∃ (o : Org) (cid : Nat) (s : State), (Served s o)) ∧
    (∃ (o : Org) (cid : Nat) (n : Nat) (s : State), (Served s o)) :=
  ⟨⟨.fn 1, 7, 1, (1, nsZ), upNs, served_at 1 (by decide +kernel), by decide +kernel⟩,
    ⟨.fn 1, 7, 0, upNs, served_at 1 (by decide +kernel)⟩,
    ⟨.fn 0, 7, 0, upNs, served_at 0 (by decide +kernel), by decide +kernel⟩,
    ⟨.fn 0, 7, 0, 200, { upNs with ras := { upNs.ras with evq := [⟨1, 2, 0, 3, 4⟩, ⟨1, 2, 0, 4, 4⟩] } }, served_at 0 (by decide +kernel)⟩,
    ⟨.fn 0, 7, 200, { upNs with ras := { upNs.ras with evq := [⟨1, 2, 0, 3, 4⟩, ⟨1, 2, 0, 4, 4⟩] } }, served_at 0 (by decide +kernel), by decide +kernel⟩,
    ⟨.fn 1, 7, 1, { upNs with ras := { upNs.ras with czl := [(.fn 1, 1, 2), (.fn 1, 2, 2), (.mgr, 1, 1)] } }, served_at 1 (by decide +kernel)⟩,
    ⟨.fn 0, 7, 0, 100, { upNs with evr := { upNs.evr with recs := [⟨1, 0, 5, 0, 0, 9, [(1, 2)]⟩] } }, served_at 0 (by decide +kernel)⟩,
    ⟨.fn 0, 7, 0, 100, { upNs with evr := { upNs.evr with recs := [⟨1, 0, 5, 0, 0, 9, [(1, 2)]⟩] } }, served_at 0 (by decide +kernel)⟩,
    ⟨.fn 0, 7, 0, 100, { upNs with evr := { upNs.evr with recs := [⟨1, 0, 5, 0, 0, 9, [(1, 2)]⟩] } }, served_at 0 (by decide +kernel), by decide +kernel⟩,
    ⟨.fn 1, 7, 0, 100, upNs, served_at 1 (by decide +kernel), by decide +kernel⟩,
    ⟨.fn 0, 7, 0, 0, 100, ⟨5, 1, [⟨1, 0, 5, 0, 0, 9, [(1, 2)]⟩]⟩, { upNs with evr := { upNs.evr with nand := [⟨5, 1, [⟨1, 0, 5, 0, 0, 9, [(1, 2)]⟩]⟩] } }, served_at 0 (by decide +kernel), by decide +kernel⟩,
    ⟨.fn 0, 7, 0, 0, 100, ⟨0, 1, 1, 0, 1, 5, [⟨1, 0, 5, 0, 0, 9, [(1, 2)]⟩], 0⟩, [], { upNs with evr := { upNs.evr with nor := [⟨0, 1, 1, 0, 1, 5, [⟨1, 0, 5, 0, 0, 9, [(1, 2)]⟩], 0⟩] } }, served_at 0 (by decide +kernel), by decide +kernel⟩,
    ⟨.fn 0, 7, upNs, served_at 0 (by decide +kernel)⟩,
    ⟨.fn 0, 7, 1, { upNs with ras := { upNs.ras with errs := [⟨2, .fn 1, 3, 0, 2, none⟩, ⟨1, .fn 1, 2, 0, 2, some 4⟩] } }, served_at 0 (by decide +kernel)⟩⟩

/-- The hypotheses of `Obligations.FabricConnectionsComplete`, clause by clause. -/
theorem witness_FabricConnectionsComplete :
    (∃ (p : Nat) (u : Nat) (dst : Nat) (ip : Nat) (vlan : Nat) (peer : Nat) (svc : Nat) (pmtu : Nat) (i : Nat) (mtu : Nat) (s : State), (Arrives s p u dst ip vlan 1 false) ∧ (s.fabricOn = true) ∧ ((List.range qpMax).find? (fun i => (s.qp (i + 2)).isNone) = some i) ∧ (mtuOf pmtu = some mtu)) ∧
    (∃ (qp : Nat) (cid : Nat) (host : Nat) (sub : Nat) (kato : Nat) (a : Nat) (i : Nat) (id : Nat) (x : Qp) (b : NBind) (s : State), (QpUp s qp x) ∧ (x.queue = none) ∧ (x.stream = none) ∧ (x.svc ≠ discSvc) ∧ (s.sl.nbind.find? (fun b => b.host = host && b.sub = sub) = some b) ∧ (s.slState b.slice = slActive) ∧ (s.qpFree b.slice = true) ∧ (s.rd F.SLI_RES_USE_RCQP b.slice < s.rd F.SLI_RES_RCQP b.slice) ∧ (s.freeIdx = some i) ∧ ((List.range 65536).find? (fun i => (Tab.find i s.assocs).isNone) = some id)) ∧
    (∃ (qp : Nat) (cid : Nat) (qid : Nat) (size : Nat) (host : Nat) (sub : Nat) (kato : Nat) (a : Nat) (auth : Bool) (x : Qp) (s : State), (QpUp s qp x) ∧ (x.queue = none) ∧ (x.stream = none) ∧ (x.svc ≠ discSvc) ∧ (∀ b ∈ s.sl.nbind, ¬ (b.host = host ∧ b.sub = sub))) ∧
    (∃ (qp : Nat) (cid : Nat) (qid : Nat) (size : Nat) (host : Nat) (sub : Nat) (kato : Nat) (a : Nat) (auth : Bool) (x : Qp) (s : State), (QpUp s qp x) ∧ (x.queue = none) ∧ (x.stream = none) ∧ (x.svc = discSvc)) ∧
    (∃ (cid : Nat) (a : Nat) (x : Assoc) (s : State), (Served s (.fab a)) ∧ (Tab.find a s.assocs = some x)) ∧
    (∃ (a : Nat) (x : Assoc) (s : State), (Tab.find a s.assocs = some x) ∧ (0 < x.kato) ∧ (x.last + x.kato * 1000000 ≤ s.el)) ∧
    (∃ (qp : Nat) (cid : Nat) (sgls : Nat) (i : Nat) (sglOk : Bool) (inl : Bool) (x : Qp) (q : Queue) (s : State), (QpUp s qp x) ∧ (x.queue = some i) ∧ (Tab.find i s.sl.qs = some q) ∧ (q.qid ≠ 0) ∧ (s.slState q.slice ≠ slResetting) ∧ (s.resetting i = false) ∧ (s.rd F.PWR_STS_STATE ≠ pwNap)) ∧
    (∃ (qp : Nat) (x : Qp) (s : State), (QpUp s qp x)) :=
  ⟨⟨0, 0, (upEt).rd F.ETH_MAC_ADDR 0 0, 99, 0, 5, 6, 9000, 1, 4096, upEt, ⟨by decide +kernel, by decide +kernel, by simp [State.macOk], by decide +kernel, by decide +kernel⟩, by decide +kernel⟩,
    ⟨2, 7, 7, 1, 30, 3, 1, 0, qpx, ⟨7, 1, 0, 1⟩, upEt, by constructor <;> decide +kernel, by decide +kernel⟩,
    ⟨2, 7, 1, 4, 8, 1, 0, 0, false, qpx, upEt, by constructor <;> decide +kernel, by decide +kernel⟩,
    ⟨2, 7, 1, 4, 7, 1, 0, 0, false, { qpx with svc := 8009 }, { upEt with net := { upEt.net with qps := [(2, { qpx with svc := 8009 })] } }, by constructor <;> decide +kernel, by decide +kernel⟩,
    ⟨7, 4, ⟨7, 1, 1, 100, 0, 0, 0, 4⟩, later upEt 77, served_at 1 (by decide +kernel), by decide +kernel⟩,
    ⟨4, ⟨7, 1, 1, 100, 0, 0, 0, 4⟩, later upEt 100000000, by decide +kernel⟩,
    ⟨2, 7, 2, 6, false, false, { qpx with queue := some 6 }, { q5 with fabric := true, qp := 2, assoc := 4 }, ({ upEt with net := { upEt.net with qps := [(2, { qpx with queue := some 6 })] } }).putQ 6 { q5 with fabric := true, qp := 2, assoc := 4 }, by constructor <;> decide +kernel, by decide +kernel⟩,
    ⟨2, qpx, upEt, by constructor <;> decide +kernel⟩⟩

/-- The hypotheses of `Obligations.QpEventsComplete`, clause by clause. -/
theorem witness_QpEventsComplete :
    (∃ (p : Nat) (u : Nat) (dst : Nat) (ip : Nat) (vlan : Nat) (qp : Nat) (x : Qp) (s : State), (Arrives s p u dst ip vlan 1 false) ∧ (s.qp qp = some x) ∧ (x.err = false) ∧ (x.port = p) ∧ (x.sub = u)) ∧
    (∃ (p : Nat) (u : Nat) (dst : Nat) (ip : Nat) (vlan : Nat) (qp : Nat) (x : Qp) (s : State), (Arrives s p u dst ip vlan 1 false) ∧ (s.qp qp = some x) ∧ (x.err = false) ∧ (x.port = p) ∧ (x.sub = u) ∧ (x.cnpTx = none)) ∧
    (∃ (qp : Nat) (x : Qp) (s : State), (QpUp s qp x)) ∧
    (∃ (qp : Nat) (bytes : Nat) (x : Qp) (s : State), (s.qp qp = some x) ∧ (x.err = false) ∧ (x.decayAt + s.rd F.ETH_CC_CFG_T_ALPHA x.port * 1000 ≤ s.el)) ∧
    (∃ (qp : Nat) (bytes : Nat) (x : Qp) (s : State), (s.qp qp = some x) ∧ (x.err = false) ∧ (x.incAt + s.rd F.ETH_CC_CFG_T_INC x.port * 1000 ≤ s.el) ∧ (x.stage < 5) ∧ (s.minRate x.port ≤ (x.rt + x.rc) / 2)) ∧
    (∃ (qp : Nat) (x : Qp) (s : State), (s.qp qp = some x) ∧ (x.err = false) ∧ (x.tries < x.retry)) ∧
    (∃ (qp : Nat) (x : Qp) (s : State), (s.qp qp = some x) ∧ (x.err = false) ∧ (x.retry ≤ x.tries)) ∧
    (∃ (qp : Nat) (x : Qp) (s : State), (QpUp s qp x) ∧ (x.rnrRetry = 7 ∨ x.rnrs < x.rnrRetry)) ∧
    (∃ (qp : Nat) (x : Qp) (s : State), (QpUp s qp x)) :=
  ⟨⟨0, 0, (upEt).rd F.ETH_MAC_ADDR 0 0, 99, 0, 2, qpx, upEt, ⟨by decide +kernel, by decide +kernel, by simp [State.macOk], by decide +kernel, by decide +kernel⟩, by decide +kernel⟩,
    ⟨0, 0, (upEt).rd F.ETH_MAC_ADDR 0 0, 99, 0, 2, qpx, upEt, ⟨by decide +kernel, by decide +kernel, by simp [State.macOk], by decide +kernel, by decide +kernel⟩, by decide +kernel⟩,
    ⟨2, qpx, upEt, by constructor <;> decide +kernel⟩,
    ⟨2, 0, qpx, later (upEt.wr F.ETH_CC_CFG_T_ALPHA 1 0 |>.wr F.ETH_CC_CFG_T_INC 1 0) 1000000, by decide +kernel⟩,
    ⟨2, 0, qpx, later (upEt.wr F.ETH_CC_CFG_T_ALPHA 1 0 |>.wr F.ETH_CC_CFG_T_INC 1 0) 1000000, by decide +kernel⟩,
    ⟨2, qpx, upEt, by decide +kernel⟩,
    ⟨2, { qpx with tries := 3 }, { upEt with net := { upEt.net with qps := [(2, { qpx with tries := 3 })] } }, by decide +kernel⟩,
    ⟨2, qpx, upEt, by constructor <;> decide +kernel, by decide +kernel⟩,
    ⟨2, qpx, upEt, by constructor <;> decide +kernel⟩⟩

/-- The hypotheses of `Obligations.AddressFramesComplete`, clause by clause. -/
theorem witness_AddressFramesComplete :
    (∃ (p : Nat) (u : Nat) (dst : Nat) (ip : Nat) (vlan : Nat) (from1 : Nat) (s : State), (Arrives s p u dst ip vlan 1 true)) ∧
    (∃ (p : Nat) (u : Nat) (dst : Nat) (ip : Nat) (vlan : Nat) (from1 : Nat) (s : State), (Arrives s p u dst ip vlan 1 false) ∧ ((s.sub p u).echoAt = s.el / 1000000000) ∧ ((s.sub p u).echoes < 1000)) ∧
    (∃ (p : Nat) (u : Nat) (dst : Nat) (ip : Nat) (vlan : Nat) (from1 : Nat) (s : State), (Arrives s p u dst ip vlan 1 false) ∧ ((s.sub p u).echoAt = s.el / 1000000000) ∧ (1000 ≤ (s.sub p u).echoes)) ∧
    (∃ (p : Nat) (u : Nat) (s : State), (s.link p u = lkUp)) ∧
    (∃ (p : Nat) (u : Nat) (cause : Nat) (s : State), (s.link p u = lkHeld)) ∧
    (∃ (p : Nat) (ip : Nat) (qp : Nat) (s : State), (∀ e ∈ s.net.asks, ¬ (e.1 = p ∧ e.2.1 = ip ∧ e.2.2.1 = qp)) ∧ (∀ e ∈ s.net.peers, ¬ (e.1 = p ∧ e.2.1 = ip))) ∧
    (∃ (p : Nat) (ip : Nat) (qp : Nat) (at0 : Nat) (x : Qp) (s : State), (s.net.asks = [(p, ip, qp, at0)]) ∧ (at0 + 1000000000 ≤ s.el) ∧ (s.qp qp = some x) ∧ (x.err = false) ∧ (x.tries < x.retry)) ∧
    (∃ (p : Nat) (ip : Nat) (mac : Nat) (qp : Nat) (at0 : Nat) (s : State), ((p, ip, qp, at0) ∈ s.net.asks) ∧ ((s.net.peers.filter (fun e => e.1 = p)).length < 4096) ∧ (s.rd F.PWR_STS_STATE ≠ pwDoze)) :=
  ⟨⟨0, 0, (upEt).rd F.ETH_MAC_ADDR 0 0, 99, 0, 3, upEt, ⟨by decide +kernel, by decide +kernel, by simp [State.macOk], by decide +kernel, by decide +kernel⟩⟩,
    ⟨0, 0, (upEt).rd F.ETH_MAC_ADDR 0 0, 99, 0, 3, upEt, ⟨by decide +kernel, by decide +kernel, by simp [State.macOk], by decide +kernel, by decide +kernel⟩, by decide +kernel⟩,
    ⟨0, 0, (upEt.putSub 0 0 ⟨0, 0, [], [], 0, 0, 1000⟩).rd F.ETH_MAC_ADDR 0 0, 99, 0, 3, upEt.putSub 0 0 ⟨0, 0, [], [], 0, 0, 1000⟩, ⟨by decide +kernel, by decide +kernel, by simp [State.macOk], by decide +kernel, by decide +kernel⟩, by decide +kernel⟩,
    ⟨0, 0, upEt, by decide +kernel⟩,
    ⟨0, 0, 1, upEt.wr F.ETH_SUB_STS_LINK lkHeld 0 0, by decide +kernel⟩,
    ⟨0, 9, 2, upEt, by decide +kernel⟩,
    ⟨0, 9, 2, 0, qpx, later { upEt with net := { upEt.net with asks := [(0, 9, 2, 0)] } } 1000000000, by decide +kernel⟩,
    ⟨0, 9, 77, 2, 0, { upEt with net := { upEt.net with asks := [(0, 9, 2, 0), (0, 8, 2, 0)], peers := [(0, 8, 3, 4)] } }, by decide +kernel⟩⟩

/-- The hypotheses of `Obligations.PfcAndSubportStatesComplete`, clause by clause. -/
theorem witness_PfcAndSubportStatesComplete :
    (∃ (p : Nat) (u : Nat) (mask : Nat) (s : State), (s.link p u = lkUp)) ∧
    (∃ (p : Nat) (u : Nat) (mask : Nat) (quanta : Nat) (i : Nat) (s : State), (s.link p u = lkUp) ∧ (0 < quanta) ∧ (i < 8) ∧ (bit mask i = true)) ∧
    (∃ (p : Nat) (u : Nat) (mask : Nat) (quanta : Nat) (i : Nat) (s : State), (s.link p u = lkUp) ∧ (0 < quanta) ∧ (i < 8) ∧ (s.rd F.ETH_PFC_CFG_EN p = 0)) ∧
    (∃ (p : Nat) (u : Nat) (fill : Nat) (lost : Nat) (s : State), (s.link p u = lkUp) ∧ (s.xoffAt p ≤ fill) ∧ (s.xoffMask p ≠ 0)) ∧
    (∃ (p : Nat) (u : Nat) (fill : Nat) (lost : Nat) (s : State), (s.link p u = lkUp) ∧ (s.cap.rx = []) ∧ (fill ≤ s.xoffAt p / 2) ∧ (fill < s.xoffAt p) ∧ (s.mustPause p = false) ∧ (s.rd F.ETH_SUB_STS_XOFF p u = 1) ∧ (s.xoffMask p ≠ 0)) ∧
    (∃ (p : Nat) (u : Nat) (s : State), (s.link p u = lkDown) ∧ (u < s.subCount p) ∧ (s.tables = true) ∧ (s.img.noCal.contains p = false)) ∧
    (∃ (p : Nat) (u : Nat) (s : State), (s.link p u = lkTrain)) ∧
    (∃ (p : Nat) (u : Nat) (s : State), (s.link p u = lkWait) ∧ ((s.sub p u).waitAt + s.rd F.ETH_LINK_CFG_UP_HOLD p * 1000000 ≤ s.el)) ∧
    (∃ (p : Nat) (u : Nat) (s : State), (s.link p u = lkHeld) ∧ ((s.sub p u).heldAt + s.rd F.ETH_LINK_CFG_FLAP_HOLD p * 1000000000 ≤ s.el)) ∧
    (∃ (p : Nat) (u : Nat) (corr : Nat) (uncorr : Nat) (s : State), (s.link p u = lkUp)) :=
  ⟨⟨0, 0, 2, upEt.putSub 0 0 ⟨0, 0, [], [(1, 50), (2, 60)], 0, 0, 0⟩, by decide +kernel⟩,
    ⟨0, 0, 130, 65535, 7, upEt.putSub 0 0 ⟨0, 0, [], [(1, 50), (2, 60)], 0, 0, 0⟩, by decide +kernel⟩,
    ⟨0, 0, 0, 65535, 7, (upEt.putSub 0 0 ⟨0, 0, [], [(1, 50), (2, 60)], 0, 0, 0⟩).wr F.ETH_PFC_CFG_EN 0 0, by decide +kernel⟩,
    ⟨0, 0, 600000, 3, upEt.wr F.ETH_PFC_CFG_EN 3 0, by decide +kernel⟩,
    ⟨0, 0, 131072, 3, { (((upEt.wr F.ETH_PFC_CFG_EN 3 0).wr F.ETH_SUB_STS_XOFF 1 0 0).wr F.MED_PF_STS_PHASE 0) with sl := { upEt.sl with devBucket := 5 } }, by decide +kernel⟩,
    ⟨1, 0, upEt, by decide +kernel⟩,
    ⟨0, 0, upEt.wr F.ETH_SUB_STS_LINK lkTrain 0 0, by decide +kernel⟩,
    ⟨0, 0, later (upEt.wr F.ETH_SUB_STS_LINK lkWait 0 0) 1000000000, by decide +kernel⟩,
    ⟨0, 0, later (upEt.wr F.ETH_SUB_STS_LINK lkHeld 0 0) 1000000000000, by decide +kernel⟩,
    ⟨0, 0, 3, 1, upEt, by decide +kernel⟩⟩

/-- The hypotheses of `Obligations.ReadsComplete`, clause by clause. -/
theorem witness_ReadsComplete :
    (∃ (q : Nat) (cid : Nat) (nsid : Nat) (lba : Nat) (len : Nat) (addr : Nat) (lr : Bool) (x : Queue) (c : Cmd) (n : Ns) (s : State), (Fetched s q cid nsid lba len x c n) ∧ (DmaOk s x addr (len * 4096) true) ∧ (∀ h, n.base + lba / zoneBlocks ≤ h → h ≤ n.base + (lba + len - 1) / zoneBlocks → s.zst h ≠ znOff) ∧ (s.egWait q = false) ∧ (n.zoned = true) ∧ (n.cipher ≠ 1) ∧ (0 < len) ∧ (∀ i, i < len → (s.srcOf n nsid (lba + i)).1 = .zero ∨ (s.srcOf n nsid (lba + i)).1 = .staged)) ∧
    (∃ (q : Nat) (cid : Nat) (nsid : Nat) (lba : Nat) (addr : Nat) (u : Nat) (v : Nat) (lr : Bool) (r : RowId) (y : SRow) (x : Queue) (c : Cmd) (n : Ns) (s : State), (Fetched s q cid nsid lba 1 x c n) ∧ (DmaOk s x addr 4096 true) ∧ (s.egWait q = false) ∧ (n.zoned = true) ∧ (n.cipher ≠ 1) ∧ (n.lbaf = 0) ∧ (c.need = []) ∧ (s.zst (zoneOf n lba) ≠ znOff) ∧ (s.srcOf n nsid lba = (.unit r u, v)) ∧ (s.srow r = some y) ∧ (s.memMissing r y (placeIn y.k u).1 = false) ∧ (s.isLost r (stripeOf (placeIn y.k u).2) = false)) ∧
    (∃ (q : Nat) (cid : Nat) (nsid : Nat) (slba : Nat) (opt : Nat) (cap : Nat) (addr : Nat) (part : Bool) (x : Queue) (c : Cmd) (n : Ns) (s : State), (Fetched s q cid nsid slba 1 x c n) ∧ (DmaOk s x addr (64 * cap + 64) true) ∧ (n.zoned = true) ∧ (opt ≤ 7)) ∧
    (∃ (q : Nat) (cid : Nat) (nsid : Nat) (slba : Nat) (x : Queue) (c : Cmd) (n : Ns) (s : State), (Fetched s q cid nsid slba 1 x c n) ∧ (n.zoned = true)) ∧
    (∃ (q : Nat) (cid : Nat) (nsid : Nat) (lba : Nat) (slot : Nat) (blen : Nat) (addr : Nat) (raw : Nat) (lr : Bool) (st : Nat × Nat) (data : List Nat) (r : List Nat) (x : Queue) (c : Cmd) (n : Ns) (s : State), (Fetched s q cid nsid lba 1 x c n) ∧ (DmaOk s x addr (blen * 4096) true) ∧ (s.egWait q = false) ∧ (n.zoned = true) ∧ (slot < 32) ∧ (r = ((blkBytes (s.srcOf n nsid lba).2).drop (slot * 128)).take 128) ∧ (s.frameResult n nsid r blen = (st, raw, data)) ∧ (st ≠ stField) ∧ (bit (leAt r 18 2) 2 = false) ∧ ((s.srcOf n nsid lba).1 = .staged) ∧ (∀ e ∈ extentOf n.base (leAt r 82 1) (leAt r 32 8 / zoneBlocks) (leAt r 40 8) (leAt r 48 4), (s.srcOf n nsid ((e.1 - n.base) * zoneBlocks + e.2)).1 = .staged)) :=
  ⟨⟨5, 7, 1, 3, 2, 64, false, q5, c0, nsZ, upIo c0, by constructor <;> decide +kernel, by unfold DmaOk; decide +kernel, fun h _ h2 => by obtain rfl : h = 0 := Nat.le_zero.mp (le_trans h2 (by decide +kernel)); decide +kernel, by decide +kernel⟩,
    ⟨5, 7, 1, 2, 64, 2, 0, false, ⟨false, 0, 0⟩, row0, q5, c0, nsZ, upRow c0 row0, by constructor <;> decide +kernel, by unfold DmaOk; decide +kernel, by decide +kernel⟩,
    ⟨5, 7, 1, 0, 0, 3, 64, false, q5, c0, nsZ, upIo c0, by constructor <;> decide +kernel, by unfold DmaOk; decide +kernel, by decide +kernel⟩,
    ⟨5, 7, 1, 0, q5, c0, nsZ, upIo c0, by constructor <;> decide +kernel, by decide +kernel⟩,
    ⟨5, 7, 1, 3, 0, 1, 64, 0, false, stOk, [], frec, q5, c0, nsZ, { upIo c0 with zn := { (upIo c0).zn with ud := [(3, leAt frec 0 128)] }, cap := { upNs.cap with store := [⟨1, 0, 0, 0, [], []⟩] } }, by constructor <;> decide +kernel, by unfold DmaOk; decide +kernel, by decide +kernel⟩⟩

/-- The hypotheses of `Obligations.WritesReachStaging`, clause by clause. -/
theorem witness_WritesReachStaging :
    (∃ (q : Nat) (cid : Nat) (nsid : Nat) (lba : Nat) (len : Nat) (lr : Bool) (fua : Bool) (x : Queue) (c : Cmd) (n : Ns) (s : State), (Fetched s q cid nsid lba len x c n) ∧ (n.zoned = true) ∧ ((s.zxOf (zoneOf n lba)).stream = none) ∧ (isActive (s.zst (zoneOf n lba)) = true) ∧ (lba % zoneBlocks + len ≤ zoneBlocks) ∧ (s.overQ (s.zSlice (zoneOf n lba)) = false) ∧ (lba % zoneBlocks = s.wp (zoneOf n lba))) ∧
    (∃ (q : Nat) (cid : Nat) (nsid : Nat) (lba : Nat) (len : Nat) (lr : Bool) (fua : Bool) (x : Queue) (c : Cmd) (n : Ns) (s : State), (Fetched s q cid nsid lba len x c n) ∧ (n.zoned = true) ∧ ((s.zxOf (zoneOf n lba)).stream = none) ∧ (isActive (s.zst (zoneOf n lba)) = true) ∧ (lba % zoneBlocks + len ≤ zoneBlocks) ∧ (s.overQ (s.zSlice (zoneOf n lba)) = false) ∧ (s.wp (zoneOf n lba) < lba % zoneBlocks) ∧ (lba % zoneBlocks ≤ s.wp (zoneOf n lba) + 16384) ∧ (s.rd F.ZON_ENT2_HOLD (zoneOf n lba) < s.rd F.ZON_CFG_HOLD_DEPTH)) ∧
    (∃ (q : Nat) (cid : Nat) (nsid : Nat) (lba : Nat) (len : Nat) (lr : Bool) (fua : Bool) (x : Queue) (c : Cmd) (n : Ns) (s : State), (Fetched s q cid nsid lba len x c n) ∧ (n.zoned = true) ∧ ((s.zxOf (zoneOf n lba)).stream = none) ∧ (isActive (s.zst (zoneOf n lba)) = true) ∧ (lba % zoneBlocks + len ≤ zoneBlocks) ∧ (s.overQ (s.zSlice (zoneOf n lba)) = false) ∧ (lba % zoneBlocks < s.wp (zoneOf n lba))) ∧
    (∃ (q : Nat) (cid : Nat) (nsid : Nat) (lba : Nat) (len : Nat) (lr : Bool) (fua : Bool) (x : Queue) (c : Cmd) (n : Ns) (s : State), (Fetched s q cid nsid lba len x c n) ∧ (n.zoned = false)) ∧
    (∃ (q : Nat) (cid : Nat) (nsid : Nat) (lba : Nat) (len : Nat) (lr : Bool) (x : Queue) (c : Cmd) (n : Ns) (s : State), (Fetched s q cid nsid lba len x c n) ∧ (n.zoned = true) ∧ (lba % zoneBlocks = 0) ∧ (len ≤ 512) ∧ ((s.zxOf (zoneOf n lba)).stream = none) ∧ (isActive (s.zst (zoneOf n lba)) = true) ∧ (s.wp (zoneOf n lba) + len ≤ zoneBlocks) ∧ (s.overQ (s.zSlice (zoneOf n lba)) = false)) ∧
    (∃ (q : Nat) (cid : Nat) (addr : Nat) (data : List Nat) (x : Queue) (c : Cmd) (n : Ns) (s : State), (InFlight s q cid x c n) ∧ (DmaOk s x addr (c.len * 4096) false) ∧ (c.st = .staging) ∧ (c.kind ≠ .writeZeroes) ∧ (s.overQ c.slice = false) ∧ (s.admitOpen c.slice (s.dgOf c n) = true) ∧ (s.tailFull = false) ∧ (s.spillFull c n = false) ∧ (s.beyond c n = false) ∧ (s.ovfFull = false) ∧ (n.zoned = true → s.rebuilding c.zone = false) ∧ (s.foldOpen = true ∨ (n.zoned = true ∧ s.rd F.ZON_ENT0_ROUTE c.zone = 2)) ∧ ((s.splitRes c n).2 ≤ s.winFree) ∧ (x.fabric = true ∨ s.canSend x.func = true) ∧ (n.cipher ≠ 1)) ∧
    (∃ (q : Nat) (cid : Nat) (data : List Nat) (x : Queue) (c : Cmd) (n : Ns) (s : State), (InFlight s q cid x c n) ∧ (c.st = .admitted) ∧ (x.fabric = true)) :=
  ⟨⟨5, 7, 1, 4, 1, false, false, q5, c0, nsZ, upIo c0, by constructor <;> decide +kernel, by decide +kernel⟩,
    ⟨5, 7, 1, 6, 1, false, false, q5, c0, nsZ, upIo c0, by constructor <;> decide +kernel, by decide +kernel⟩,
    ⟨5, 7, 1, 3, 1, false, false, q5, c0, nsZ, upIo c0, by constructor <;> decide +kernel, by decide +kernel⟩,
    ⟨5, 7, 2, 999, 1, false, false, q5, c0, nsC, upIo c0, by constructor <;> decide +kernel, by decide +kernel⟩,
    ⟨5, 7, 1, 0, 512, false, q5, c0, nsZ, upIo c0, by constructor <;> decide +kernel, by decide +kernel⟩,
    ⟨5, 7, 64, [5, 6], q5, { c0 with st := .staging, kind := .write, nsid := 1, lba := 4, len := 2 }, nsZ, ((upIo { c0 with st := .staging, kind := .write, nsid := 1, lba := 4, len := 2 }).wr F.ZON_ENT0_ROUTE 1 0 |>.wr F.MED_PF_STS_PHASE 0), by constructor <;> decide +kernel, by unfold DmaOk; decide +kernel, by decide +kernel⟩,
    ⟨6, 7, [5, 6], { q5 with fabric := true }, { c0 with q := 6, st := .admitted, kind := .write, nsid := 1, lba := 4, len := 3, data := [1] }, nsZ, (upIo { c0 with q := 6, st := .admitted, kind := .write, nsid := 1, lba := 4, len := 3, data := [1] }).putQ 6 { q5 with fabric := true }, by constructor <;> decide +kernel, by decide +kernel⟩⟩

/-- The hypotheses of `Obligations.WriteCommitStoresItsData`, clause by clause. -/
theorem witness_WriteCommitStoresItsData :
    ∃ (q : Nat) (cid : Nat) (x : Queue) (c : Cmd) (n : Ns) (s : State), (InFlight s q cid x c n) ∧ (c.st = .admitted) ∧ (c.data.length = c.len) ∧ (s.stg.commits = true) ∧ (n.zoned = true) ∧ (c.kind = .write ∨ c.kind = .writeZeroes) ∧ ((s.zxOf c.zone).stream = none) ∧ (isActive (s.zst c.zone) = true) ∧ (c.lba % zoneBlocks = s.wp c.zone) ∧ (s.wp c.zone + c.len ≤ zoneBlocks) :=
  ⟨5, 7, q5, { c0 with st := .admitted, kind := .write, nsid := 1, lba := 4, len := 2, data := [8, 9], resWin := 2 }, nsZ, (upIo { c0 with st := .admitted, kind := .write, nsid := 1, lba := 4, len := 2, data := [8, 9], resWin := 2 }).wr F.ZON_ENT0_ROUTE 1 0, by constructor <;> decide +kernel, by decide +kernel⟩

/-- The hypotheses of `Obligations.ZoneManagementComplete`, clause by clause. -/
theorem witness_ZoneManagementComplete :
    (∃ (q : Nat) (cid : Nat) (nsid : Nat) (zslba : Nat) (lr : Bool) (x : Queue) (c : Cmd) (n : Ns) (s : State), (Fetched s q cid nsid zslba 1 x c n) ∧ (n.zoned = true) ∧ (zslba % zoneBlocks = 0) ∧ ((s.zxOf (zoneOf n zslba)).stream = none) ∧ (s.tailFull = false) ∧ (isActive (s.zst (zoneOf n zslba)) = true)) ∧
    (∃ (q : Nat) (cid : Nat) (nsid : Nat) (zslba : Nat) (lr : Bool) (x : Queue) (c : Cmd) (n : Ns) (s : State) (u : State), (Fetched s q cid nsid zslba 1 x c n) ∧ ((s.putCmd (Started s c .zoneOpen nsid zslba 1 lr false 0)).activate (zoneOf n zslba) n.dg false = some u) ∧ (n.zoned = true) ∧ (zslba % zoneBlocks = 0) ∧ ((s.zxOf (zoneOf n zslba)).stream = none) ∧ (s.tailFull = false) ∧ (s.zst (zoneOf n zslba) = znEmpty) ∧ (s.overQ c.slice = false) ∧ (s.azFree c.slice c.azLim = true)) ∧
    (∃ (q : Nat) (cid : Nat) (nsid : Nat) (zslba : Nat) (lr : Bool) (x : Queue) (c : Cmd) (n : Ns) (s : State), (Fetched s q cid nsid zslba 1 x c n) ∧ (n.zoned = true) ∧ (zslba % zoneBlocks = 0) ∧ ((s.zxOf (zoneOf n zslba)).stream = none) ∧ (s.tailFull = false) ∧ (s.zst (zoneOf n zslba) = znImp ∨ s.zst (zoneOf n zslba) = znExp)) ∧
    (∃ (q : Nat) (cid : Nat) (nsid : Nat) (zslba : Nat) (lr : Bool) (x : Queue) (c : Cmd) (n : Ns) (s : State), (Fetched s q cid nsid zslba 1 x c n) ∧ (n.zoned = true) ∧ (zslba % zoneBlocks = 0) ∧ ((s.zxOf (zoneOf n zslba)).stream = none) ∧ (s.tailFull = false) ∧ (isActive (s.zst (zoneOf n zslba)) = true)) ∧
    (∃ (q : Nat) (cid : Nat) (nsid : Nat) (zslba : Nat) (lr : Bool) (x : Queue) (c : Cmd) (n : Ns) (s : State), (Fetched s q cid nsid zslba 1 x c n) ∧ (n.zoned = true) ∧ (zslba % zoneBlocks = 0) ∧ ((s.zxOf (zoneOf n zslba)).stream = none) ∧ (s.tailFull = false) ∧ (isActive (s.zst (zoneOf n zslba)) = true ∨ s.zst (zoneOf n zslba) = znFull)) ∧
    (∃ (q : Nat) (cid : Nat) (nsid : Nat) (zslba : Nat) (lr : Bool) (x : Queue) (c : Cmd) (n : Ns) (s : State), (Fetched s q cid nsid zslba 1 x c n) ∧ (n.zoned = true) ∧ (zslba % zoneBlocks = 0) ∧ ((s.zxOf (zoneOf n zslba)).stream = none) ∧ (s.tailFull = false) ∧ (s.zst (zoneOf n zslba) = znRo)) :=
  ⟨⟨5, 7, 1, 0, false, q5, c0, nsZ, upIo c0, by constructor <;> decide +kernel, by decide +kernel⟩,
    ⟨5, 7, 1, 524288, false, q5, c0, nsZ, upIo c0, (((upIo c0).putCmd (Started (upIo c0) c0 .zoneOpen 1 524288 1 false false 0)).activate 1 0 false).get (by decide +kernel), by constructor <;> decide +kernel, (Option.some_get _).symm, by decide +kernel⟩,
    ⟨5, 7, 1, 0, false, q5, c0, nsZ, upIo c0, by constructor <;> decide +kernel, by decide +kernel⟩,
    ⟨5, 7, 1, 0, false, q5, c0, nsZ, upIo c0, by constructor <;> decide +kernel, by decide +kernel⟩,
    ⟨5, 7, 1, 0, false, q5, c0, nsZ, upIo c0, by constructor <;> decide +kernel, by decide +kernel⟩,
    ⟨5, 7, 1, 0, false, q5, c0, nsZ, (upIo c0).wr F.ZON_ENT0_STATE znRo 0, by constructor <;> decide +kernel, by decide +kernel⟩⟩

/-- The hypotheses of `Obligations.ConventionalCommandsComplete`, clause by clause. -/
theorem witness_ConventionalCommandsComplete :
    (∃ (q : Nat) (cid : Nat) (nsid : Nat) (lba : Nat) (len : Nat) (lr : Bool) (x : Queue) (c : Cmd) (n : Ns) (s : State), (Fetched s q cid nsid lba len x c n) ∧ (n.zoned = false) ∧ (s.overQ c.slice = false) ∧ (s.tailFull = false)) ∧
    (∃ (q : Nat) (cid : Nat) (nsid : Nat) (lba : Nat) (len : Nat) (x : Queue) (c : Cmd) (n : Ns) (s : State), (Fetched s q cid nsid 0 0 x c n) ∧ (n.zoned = false) ∧ (lba + len ≤ n.size) ∧ (s.tailFull = false)) ∧
    (∃ (q : Nat) (cid : Nat) (nsid : Nat) (x : Queue) (c : Cmd) (n : Ns) (s : State), (Fetched s q cid nsid 0 0 x c n) ∧ (n.zoned = true ∨ s.convStaged n.dg = [])) ∧
    (∃ (q : Nat) (cid : Nat) (nsid : Nat) (lba : Nat) (len : Nat) (lr : Bool) (x : Queue) (c : Cmd) (n : Ns) (s : State), (Fetched s q cid nsid lba len x c n) ∧ (n.zoned = true) ∧ ((s.zxOf (zoneOf n lba)).stream = none) ∧ (isActive (s.zst (zoneOf n lba)) = true) ∧ (lba % zoneBlocks + len ≤ zoneBlocks) ∧ (s.overQ (s.zSlice (zoneOf n lba)) = false) ∧ (s.tailFull = false) ∧ (lba % zoneBlocks = s.wp (zoneOf n lba)) ∧ (s.rd F.MED_PF_STS_PHASE = 0) ∧ (s.stg.commits = true) ∧ (s.ftl.faulted = none) ∧ (s.beyond { Started s c .writeZeroes nsid lba len lr false 0 with zone := zoneOf n lba } n = false) ∧ (s.rebuilding (zoneOf n lba) = false) ∧ (n.cipher ≠ 1)) ∧
    (∃ (q : Nat) (cid : Nat) (nsid : Nat) (lba : Nat) (len : Nat) (lr : Bool) (x : Queue) (c : Cmd) (n : Ns) (s : State), (Fetched s q cid nsid lba len x c n) ∧ (n.zoned = true) ∧ ((s.zxOf (zoneOf n lba)).stream = none) ∧ (isActive (s.zst (zoneOf n lba)) = true) ∧ (lba % zoneBlocks + len ≤ zoneBlocks) ∧ (s.overQ (s.zSlice (zoneOf n lba)) = false) ∧ (s.tailFull = false) ∧ (lba % zoneBlocks ≠ s.wp (zoneOf n lba))) :=
  ⟨⟨5, 7, 2, 990, 10, false, q5, c0, nsC, upIo c0, by constructor <;> decide +kernel, by decide +kernel⟩,
    ⟨5, 7, 2, 990, 10, q5, c0, nsC, upIo c0, by constructor <;> decide +kernel, by decide +kernel⟩,
    ⟨5, 7, 1, q5, c0, nsZ, upIo c0, by constructor <;> decide +kernel, by decide +kernel⟩,
    ⟨5, 7, 1, 4, 1, false, q5, c0, nsZ, (upIo c0).wr F.MED_PF_STS_PHASE 0, by constructor <;> decide +kernel, by decide +kernel⟩,
    ⟨5, 7, 1, 3, 1, false, q5, c0, nsZ, upIo c0, by constructor <;> decide +kernel, by decide +kernel⟩⟩

/-- The hypotheses of `Obligations.CommandTimeoutsComplete`, clause by clause. -/
theorem witness_CommandTimeoutsComplete :
    (∃ (q : Nat) (cid : Nat) (x : Queue) (c : Cmd) (n : Ns) (s : State), (InFlight s q cid x c n) ∧ (s.live c.slice q c.genS c.genQ = true) ∧ (c.st = .held) ∧ (c.ff = false) ∧ (c.since + s.rd F.ZON_CFG_HOLD_TMO * 1000000 ≤ s.el)) ∧
    (∃ (q : Nat) (cid : Nat) (x : Queue) (c : Cmd) (n : Ns) (s : State), (InFlight s q cid x c n) ∧ (s.live c.slice q c.genS c.genQ = true) ∧ (c.ff = true) ∧ (c.dl < s.el) ∧ (unfinished c = true)) ∧
    (∃ (q : Nat) (cid : Nat) (x : Queue) (c : Cmd) (n : Ns) (s : State), (InFlight s q cid x c n) ∧ (s.live c.slice q c.genS c.genQ = true) ∧ (c.st = .unreach) ∧ (c.since + s.rd F.RDN_CFG_UNREACH_WAIT * 1000000 ≤ s.el)) ∧
    (∃ (q : Nat) (cid : Nat) (x : Queue) (c : Cmd) (n : Ns) (u : State) (s : State), (InFlight s q cid x c n) ∧ (s.activate c.zone n.dg false = some u) ∧ (c.st = .place) ∧ (c.kind = .zoneOpen) ∧ (bit c.hint 15 = false) ∧ (s.zst c.zone = znEmpty) ∧ (s.azFree c.slice c.azLim = true)) :=
  ⟨⟨5, 7, q5, { c0 with st := .held, kind := .write, nsid := 1, lba := 6, len := 2 }, nsZ, later ((upIo { c0 with st := .held, kind := .write, nsid := 1, lba := 6, len := 2 }).wr F.ZON_ENT2_HOLD 1 0) 1000000000000, by constructor <;> decide +kernel, by decide +kernel⟩,
    ⟨5, 7, q5, { c0 with st := .held, kind := .write, nsid := 1, lba := 6, len := 2, ff := true, dl := 4 }, nsZ, later ((upIo { c0 with st := .held, kind := .write, nsid := 1, lba := 6, len := 2, ff := true, dl := 4 }).wr F.ZON_ENT2_HOLD 1 0) 5, by constructor <;> decide +kernel, by decide +kernel⟩,
    ⟨5, 7, q5, { c0 with st := .unreach, kind := .read, nsid := 1, lba := 3, len := 2 }, nsZ, later (upIo { c0 with st := .unreach, kind := .read, nsid := 1, lba := 3, len := 2 }) 1000000000000, by constructor <;> decide +kernel, by decide +kernel⟩,
    ⟨5, 7, q5, { c0 with st := .place, kind := .zoneOpen, nsid := 1, lba := 524288, len := 1, zone := 1 }, nsZ, ((upIo { c0 with st := .place, kind := .zoneOpen, nsid := 1, lba := 524288, len := 1, zone := 1 }).activate 1 0 false).get (by decide +kernel), upIo { c0 with st := .place, kind := .zoneOpen, nsid := 1, lba := 524288, len := 1, zone := 1 }, by constructor <;> decide +kernel, (Option.some_get _).symm, by decide +kernel⟩⟩

/-- The hypotheses of `Obligations.DieOperationsComplete`, clause by clause. -/
theorem witness_DieOperationsComplete :
    (∃ (d : Nat) (o : DOp) (s : State), (s.works d = true) ∧ ((s.dieOf d).cur = none) ∧ ((s.dieOf d).susp = none) ∧ (o.kind ≠ .read) ∧ (s.bestOp ((s.dieOf d).inQueue.filter (fun p => (s.dieOf d).startOk p && !s.noErase p)) = some o) ∧ (0 < (s.link8 (d / 64)).hops.length)) ∧
    (∃ (d : Nat) (o : DOp) (s : State), (s.works d = true) ∧ ((s.dieOf d).cur = none) ∧ ((s.dieOf d).susp = none) ∧ (o.kind = .read) ∧ (s.bestOp ((s.dieOf d).inQueue.filter (fun p => (s.dieOf d).startOk p && !s.noErase p)) = some o)) ∧
    (∃ (d : Nat) (busy : Nat) (temp : Int) (o : DOp) (s : State), (Still s) ∧ ((s.dieOf d).cur = some o) ∧ ((s.dieOf d).merged = []) ∧ (o.kind = .read) ∧ (o.purp = .host → s.live o.slice o.q o.genS o.genQ = true ∧ (s.cmdFor o.q o.cid o.arr).isSome = true) ∧ (o.purp = .recon → s.live o.slice o.q o.genS o.genQ = true) ∧ (∀ w ∈ s.die.cws, w.id ≠ s.die.nextId)) ∧
    (∃ (d : Nat) (busy : Nat) (temp : Int) (o : DOp) (s : State), (Still s) ∧ ((s.dieOf d).cur = some o) ∧ (o.kind = .coarse)) ∧
    (∃ (d : Nat) (busy : Nat) (temp : Int) (o : DOp) (s : State), (Still s) ∧ ((s.dieOf d).cur = some o) ∧ (o.kind = .fine)) ∧
    (∃ (d : Nat) (prog : Nat) (temp : Int) (o : DOp) (r : DOp) (s : State) (s1 : State), ((s.dieOf d).cur = some o) ∧ (o.kind = .erase) ∧ (o.step = 1) ∧ (s.works d = true) ∧ (s1 = s.putDie d { s.dieOf d with cur := none, susp := some { o with step := 0, sus := o.sus + 1, ran := prog }, temp := temp }) ∧ (s1.bestOp ((if (s.dieOf d).between.isNone then [{ o with step := 0, sus := o.sus + 1, ran := prog }] else []) ++ (s.dieOf d).inQueue.filter (fun p => (s1.dieOf d).startOk p && !s1.noErase p)) = some r) ∧ (r.kind ≠ .read) ∧ (r.kind ≠ .erase)) ∧
    (∃ (d : Nat) (b : Nat) (w : Nat) (at0 : Nat) (s : State), ((s.dieOf d).between = some (b, w, at0)) ∧ (at0 + 50000000 ≤ s.el)) :=
  ⟨⟨2, op0, upDie { dieW with queue := [op0] }, by decide +kernel⟩,
    ⟨2, { op0 with kind := .read, senses := 1 }, upDie { dieW with queue := [{ op0 with kind := .read, senses := 1 }] }, by decide +kernel⟩,
    ⟨2, 40, 30, { op0 with kind := .read, purp := .host }, upDie { dieW with cur := some { op0 with kind := .read, purp := .host } }, by constructor <;> decide +kernel, by decide +kernel⟩,
    ⟨2, 40, 30, { op0 with kind := .coarse }, upDie { dieW with cur := some { op0 with kind := .coarse } }, by constructor <;> decide +kernel, by decide +kernel⟩,
    ⟨2, 40, 30, { op0 with kind := .fine }, upDie { dieW with cur := some { op0 with kind := .fine }, between := some (3, 0, 0) }, by constructor <;> decide +kernel, by decide +kernel⟩,
    ⟨2, 40, 30, { op0 with step := 1, dl := 90000 }, { op0 with id := 9, kind := .coarse, blk := 9, dl := 1 }, upDie { dieW with cur := some { op0 with step := 1, dl := 90000 }, queue := [{ op0 with id := 9, kind := .coarse, blk := 9, dl := 1 }] }, (upDie { dieW with cur := some { op0 with step := 1, dl := 90000 }, queue := [{ op0 with id := 9, kind := .coarse, blk := 9, dl := 1 }] }).putDie 2 { dieW with susp := some { op0 with step := 0, sus := 1, ran := 40, dl := 90000 }, queue := [{ op0 with id := 9, kind := .coarse, blk := 9, dl := 1 }], temp := 30 }, by decide +kernel⟩,
    ⟨2, 3, 0, 0, later (upDie { dieW with between := some (3, 0, 0), queue := [{ op0 with kind := .fine, idle := true }] }) 50000000, by decide +kernel⟩⟩

/-- The hypotheses of `Obligations.DieFailuresComplete`, clause by clause. -/
theorem witness_DieFailuresComplete :
    (∃ (d : Nat) (planes : Nat) (busy : Nat) (temp : Int) (o : DOp) (s : State), (Sound s d) ∧ (Still s) ∧ ((s.dieOf d).cur = some o) ∧ (o.kind ≠ .read) ∧ (o.kind ≠ .erase) ∧ (planes + 1 ≠ 2 ^ (s.descOf d).planes)) ∧
    (∃ (d : Nat) (busy : Nat) (temp : Int) (o : DOp) (s : State), (Sound s d) ∧ (Still s) ∧ ((s.dieOf d).cur = some o) ∧ (o.kind = .erase)) ∧
    (∃ (d : Nat) (planes : Nat) (busy : Nat) (temp : Int) (o : DOp) (s : State), (Sound s d) ∧ (Still s) ∧ ((s.dieOf d).cur = some o) ∧ (o.kind = .erase) ∧ (planes + 1 ≠ 2 ^ (s.descOf d).planes)) ∧
    (∃ (d : Nat) (o : DOp) (s : State), (Sound s d) ∧ (Still s) ∧ ((s.dieOf d).cur = some o) ∧ (o.kind = .erase) ∧ (2 ≤ s.rd F.MED_RET_CFG_RESETS) ∧ (s.el ≥ (s.dieOf d).curAt + (tMax (s.descOf d) o.kind o.senses + 1000) * 1000) ∧ ((s.dieOf d).susp = none)) :=
  ⟨⟨2, 0, 40, 30, { op0 with kind := .fine }, upDie { dieW with cur := some { op0 with kind := .fine } }, by unfold Sound; decide +kernel, by constructor <;> decide +kernel, by decide +kernel⟩,
    ⟨2, 40, 30, op0, upDie { dieW with cur := some op0 }, by unfold Sound; decide +kernel, by constructor <;> decide +kernel, by decide +kernel⟩,
    ⟨2, 0, 40, 30, op0, upDie { dieW with cur := some op0 }, by unfold Sound; decide +kernel, by constructor <;> decide +kernel, by decide +kernel⟩,
    ⟨2, op0, later (upDie { dieW with cur := some op0 }) 100000000, by unfold Sound; decide +kernel, by constructor <;> decide +kernel, by decide +kernel⟩⟩

/-- The hypotheses of `Obligations.ReadChannelComplete`, clause by clause. -/
theorem witness_ReadChannelComplete :
    (∃ (id : Nat) (bits : Nat) (mean : Nat) (unsat : Nat) (w : CwJob) (c : Cmd) (s : State), (Still s) ∧ (s.die.cws = [w]) ∧ (w.id = id) ∧ (w.dec.isSome = true) ∧ (w.op.purp = .host) ∧ (w.op.vfy = none) ∧ (s.live w.op.slice w.op.q w.op.genS w.op.genQ = true) ∧ (s.cmdFor w.op.q w.op.cid w.op.arr = some c) ∧ (s.live c.slice c.q c.genS c.genQ = true) ∧ (c.need = [w.op.cw]) ∧ (c.st = .media) ∧ (c.kind = .read)) ∧
    (∃ (d : Nat) (id : Nat) (o : DOp) (c : Cmd) (x : SRow) (s : State), ((s.dieOf d).queue.find? (fun o => o.id = id && o.purp = .host && o.step = 0 && o.vfy.isNone) = some o) ∧ (s.cmdFor o.q o.cid o.arr = some c) ∧ (s.srow o.row = some x) ∧ (s.rd F.MED_SCHED_CFG_RA_THRESH < s.predict d (s.opKey o)) ∧ (s.raOk o.row x o.member (s.opKey o) = true)) ∧
    (∃ (d : Nat) (id : Nat) (o : DOp) (c : Cmd) (x : SRow) (s : State), ((s.dieOf d).queue.find? (fun o => o.id = id && o.purp = .host && o.step = 0 && o.vfy.isNone) = some o) ∧ (s.cmdFor o.q o.cid o.arr = some c) ∧ (s.srow o.row = some x) ∧ (s.rd F.MED_SCHED_CFG_RA_THRESH < s.predict d (s.opKey o)) ∧ (s.raOk o.row x o.member (s.opKey o) = false)) ∧
    (∃ (conv : Bool) (h : Nat) (r : Nat) (n : Nat) (since : Nat) (lc : Nat) (x : SRow) (s : State), (s.srow ⟨conv, h, r⟩ = some x) ∧ (x.elig.find? (fun e => e.1 = x.fold) = some (n, since, lc)) ∧ (s.tailFull = false) ∧ (∀ m, m < x.mem.length → s.memPend ⟨conv, h, r⟩ m = true ∨ x.fold ≤ x.wl.getD m 0)) ∧
    (∃ (k : Nat) (m : Nat) (r : RowId) (x : SRow) (w : Option Nat) (s : State), (s.rd F.RCH_PATROL_CFG_EN ≠ 0) ∧ (s.patrolNext (s.die.patrol.1 * 2048 + s.die.patrol.2.1) = some k) ∧ (k ≠ s.die.patrol.1 * 2048 + s.die.patrol.2.1) ∧ (s.ownerOf ⟨k / 2048, k % 2048⟩ = some (r, x, m, w)) ∧ (0 < x.written m w)) ∧
    (∃ (s : State), (s.rd F.RCH_PATROL_CFG_EN ≠ 0) ∧ (s.patrolNext (s.die.patrol.1 * 2048 + s.die.patrol.2.1) = none)) ∧
    (∃ (s : State), (s.stopped = false) ∧ (s.pup.sweeps = [none, none])) ∧
    (∃ (d : Nat) (w : Sweep) (e : SwEnt) (s : State), (s.stopped = false) ∧ (s.pup.sweeps.getD 0 none = some w) ∧ (Tab.find d w.ents = some e) ∧ (e.st = 0) ∧ (s.works d = true) ∧ (s.capped 2 d = false) ∧ (∀ f ∈ w.ents, f.1 / 64 = d / 64 → f.2.busy = false)) ∧
    (∃ (d : Nat) (w : Sweep) (e : SwEnt) (res : List (Nat × Nat × List Int)) (s : State), (s.stopped = false) ∧ (s.pup.sweeps.getD 0 none = some w) ∧ (Tab.find d w.ents = some e) ∧ (e.busy = true)) ∧
    (∃ (d : Nat) (s : State), (s.stopped = false) ∧ (s.pup.sweeps = [none, none]) ∧ (s.works d = true) ∧ (s.capped 2 d = false) ∧ (s.rd F.RCH_SWEEP_CFG_DT ≤ ((s.dieOf d).temp - (s.dieOf d).swTemp).natAbs)) ∧
    (∃ (s : State), (∀ d, Sound s d) ∧ ((s.die.dies.filter (fun e => s.works e.1)).length < 1000)) :=
  ⟨⟨4, 3, 2, 0, ⟨4, 2, { op0 with kind := .read, purp := .host, cw := 3 }, some 9, 0, 0⟩, { c0 with st := .media, kind := .read, nsid := 1, lba := 3, len := 1, need := [3], data := [77] }, { upIo { c0 with st := .media, kind := .read, nsid := 1, lba := 3, len := 1, need := [3], data := [77] } with die := { (upIo c0).die with cws := [⟨4, 2, { op0 with kind := .read, purp := .host, cw := 3 }, some 9, 0, 0⟩] } }, by constructor <;> decide +kernel, by decide +kernel⟩,
    ⟨2, 6, { op0 with id := 6, kind := .read, purp := .host, member := 2, blk := 1 }, { c0 with st := .media, kind := .read, nsid := 1, need := [0] }, row0, (upRow { c0 with st := .media, kind := .read, nsid := 1, need := [0] } row0).putDie 2 { dieW with cur := some { op0 with kind := .coarse }, queue := [{ op0 with id := 6, kind := .read, purp := .host, member := 2, blk := 1 }] } |>.wr F.MED_SCHED_CFG_RA_THRESH 500, by decide +kernel⟩,
    ⟨2, 6, { op0 with id := 6, kind := .read, purp := .host, member := 2, blk := 1 }, { c0 with st := .media, kind := .read, nsid := 1, need := [0] }, row0, (upRow { c0 with st := .media, kind := .read, nsid := 1, need := [0] } row0).putDie 2 { dieW with cur := some { op0 with kind := .coarse }, queue := [{ op0 with id := 6, kind := .read, purp := .host, member := 2, blk := 1 }] } |>.wr F.MED_SCHED_CFG_RA_THRESH 500 |>.wr F.RDN_CFG_RA_MAXINFL 0, by decide +kernel⟩,
    ⟨false, 0, 0, 0, 5, 0, { row0 with elig := [(0, 5, 0), (3, 6, 0)] }, upRow c0 { row0 with elig := [(0, 5, 0), (3, 6, 0)] }, by decide +kernel⟩,
    ⟨1, 0, ⟨false, 0, 0⟩, row0, none, (({ upRow c0 row0 with die := { (upRow c0 row0).die with pass := 1 } }).putBlk ⟨0, 1⟩ { BlkSt.fresh with use := .data }).wr F.RCH_PATROL_CFG_EN 1, by decide +kernel⟩,
    ⟨{ upIo c0 with die := { (upIo c0).die with patrol := (3, 4, 5) } }.wr F.RCH_PATROL_CFG_EN 1, by decide +kernel⟩,
    ⟨upIo c0, by decide +kernel⟩,
    ⟨2, ⟨1, 0, [(2, ⟨0, 0, 0, false⟩)]⟩, ⟨0, 0, 0, false⟩, { upIo c0 with pup := { up.pup with sweeps := [some ⟨1, 0, [(2, ⟨0, 0, 0, false⟩)]⟩, none] } }, by decide +kernel⟩,
    ⟨2, ⟨1, 0, [(2, ⟨0, 0, 1, true⟩)]⟩, ⟨0, 0, 1, true⟩, default, { upIo c0 with pup := { up.pup with sweeps := [some ⟨1, 0, [(2, ⟨0, 0, 1, true⟩)]⟩, none] } }, by decide +kernel⟩,
    ⟨2, upDie { dieW with temp := 60, swTemp := 20 }, by decide +kernel⟩,
    ⟨upNs.wr F.MED_RET_CFG_RET_WEAR 0, fun d => ⟨by show 1 ≤ _; decide +kernel, rfl, rfl, by decide +kernel⟩, by decide +kernel⟩⟩

/-- The hypotheses of `Obligations.ReplicatedUnitsComplete`, clause by clause. -/
theorem witness_ReplicatedUnitsComplete :
    (∃ (l : Nat) (rsn : Nat) (n : Nat) (s : State), (l < 64) ∧ (rsn = 1 ∨ rsn = 3) ∧ ((s.unitOf 0 l).state = 0) ∧ (s.cap.blks = [])) ∧
    (∃ (l : Nat) (n : Nat) (b : LaneBlk) (s : State), (l < 64) ∧ ((s.unitOf 0 l).state = 0) ∧ (b ∈ s.cap.blks) ∧ (b.lane = l) ∧ (b.since + 20000 ≤ s.el) ∧ ((s.cap.blks.filter (fun b => b.lane = l)).length ≤ n)) ∧
    (∃ (d : Nat) (rsn : Nat) (s : State), (d < 128) ∧ (rsn = 1 ∨ rsn = 3) ∧ ((s.unitOf 1 d).state = 0) ∧ (s.die.cws = [])) ∧
    (∃ (e : Nat) (rsn : Nat) (s : State), (e < 64) ∧ (rsn = 1 ∨ rsn = 3) ∧ ((s.unitOf 2 e).state = 0) ∧ ((s.unitOf 2 (Nat.xor e 1)).state = 0) ∧ (s.die.dies = [])) ∧
    (∃ (d : Nat) (s : State), (d < 128) ∧ ((s.unitOf 1 d).state = 0) ∧ (s.die.cws = [])) ∧
    (∃ (k : Nat) (i : Nat) (s : State), (unitOk k i = true) ∧ ((s.unitOf k i).state ≠ 0)) ∧
    (∃ (k : Nat) (i : Nat) (s : State), (unitOk k i = true) ∧ ((s.unitOf k i).state = 1) ∧ ((s.unitOf k i).testAt + 10000000000 ≤ s.el)) ∧
    (∃ (k : Nat) (i : Nat) (s : State), (unitOk k i = true) ∧ ((s.unitOf k i).state = 1) ∧ ((s.unitOf k i).testAt + 10000000000 ≤ s.el) ∧ ((s.unitOf k i).passes + 1 < s.rd F.RAS_CFG_RET_PASS)) ∧
    (∃ (k : Nat) (i : Nat) (s : State), (unitOk k i = true) ∧ ((s.unitOf k i).state = 1) ∧ ((s.unitOf k i).testAt + 10000000000 ≤ s.el) ∧ (k = 0) ∧ (s.rd F.RAS_CFG_RET_PASS ≤ (s.unitOf k i).passes + 1)) ∧
    (∃ (s : State), (s.ras.ceHour = []) ∧ (s.ras.ceSec ≤ s.rd F.RAS_CFG_CE_RATE)) :=
  ⟨⟨63, 3, 0, upIo c0, by decide +kernel⟩,
    ⟨63, 1, ⟨63, 5, 0, 0, 0, 0⟩, later { upIo c0 with cap := { (upIo c0).cap with blks := [⟨63, 5, 0, 0, 0, 0⟩] } } 20000, by decide +kernel⟩,
    ⟨127, 3, upIo c0, by decide +kernel⟩,
    ⟨63, 3, upNs, by decide +kernel⟩,
    ⟨127, upNs, by decide +kernel⟩,
    ⟨1, 127, { upNs with ras := { upNs.ras with units := [⟨1, 127, 2, 3, [], 1, 0, 0, 0⟩] } }, by decide +kernel⟩,
    ⟨0, 5, later ({ upNs with ras := { upNs.ras with units := [⟨0, 5, 1, 3, [], 1, 0, 0, 0⟩] } }.wr F.RAS_CFG_RET_PASS 8) 10000000000, by decide +kernel⟩,
    ⟨0, 5, later ({ upNs with ras := { upNs.ras with units := [⟨0, 5, 1, 3, [], 1, 0, 0, 0⟩] } }.wr F.RAS_CFG_RET_PASS 8) 10000000000, by decide +kernel⟩,
    ⟨0, 5, later ({ upNs with ras := { upNs.ras with units := [⟨0, 5, 1, 3, [], 1, 0, 0, 0⟩] } }.wr F.RAS_CFG_RET_PASS 4) 10000000000, by decide +kernel⟩,
    ⟨{ upNs with ras := { upNs.ras with ceSec := 1 } }.wr F.RAS_CFG_CE_RATE 1, by decide +kernel⟩⟩

/-- The hypotheses of `Obligations.KazronHopsComplete`, clause by clause. -/
theorem witness_KazronHopsComplete :
    (∃ (l : Nat) (h : Nat) (lanes : Nat) (extra : Bool) (s : State), (hopOk l h = true) ∧ (s.training l h = true) ∧ (alignLanes lanes ≠ []) ∧ (h < (s.link8 l).hops.length) ∧ (h = 0 → s.img.noCal.contains (8 + l / 16) = false)) ∧
    (∃ (l : Nat) (h : Nat) (s : State), (hopOk l h = true) ∧ (s.training l h = true) ∧ (h < (s.link8 l).hops.length) ∧ (s.hopSt l h ≠ hRecover) ∧ ((s.hop l h).fails + 1 < 3)) ∧
    (∃ (l : Nat) (h : Nat) (s : State), (hopOk l h = true) ∧ (s.training l h = true) ∧ (h < (s.link8 l).hops.length) ∧ (s.hopSt l h = hRecover ∨ 3 ≤ (s.hop l h).fails + 1) ∧ ((s.link8 l).broken.contains h = false) ∧ (s.die.dies = [])) ∧
    (∃ (l : Nat) (h : Nat) (s : State), (hopOk l h = true) ∧ (s.hopSt l h = hDown) ∧ (s.rd F.KZL_CTL_EN l = 1) ∧ (h < (s.link8 l).hops.length) ∧ ((s.hop l h).since + s.rd F.KZL_CTL_RETRAIN l * 1000000 ≤ s.el) ∧ (h = 0 ∨ s.hopUp l (h - 1) = true)) ∧
    (∃ (l : Nat) (h : Nat) (up : Bool) (s : State), (hopOk l h = true) ∧ (s.hopUp l h = true) ∧ (h < (s.link8 l).hops.length) ∧ (((s.hop l h).dir up).quiet = false) ∧ (s.rd F.KZL_CTL_QUIET_EN l = 1) ∧ (s.rd F.MED_PF_STS_PHASE ≠ 1) ∧ (s.rd F.MED_PF_STS_PHASE ≠ 2) ∧ ((s.hop l h).width = 4) ∧ (s.rd F.KZL_STS_WIDTH l = 0) ∧ (((s.hop l h).dir up).replay = []) ∧ (((s.hop l h).dir up).out = []) ∧ (((s.hop l h).dir up).idleAt + s.rd F.KZL_CTL_QUIET_ENTRY l * 64 ≤ s.el)) ∧
    (∃ (l : Nat) (h : Nat) (up : Bool) (ok : Bool) (s : State), (hopOk l h = true) ∧ (s.hopUp l h = true) ∧ (h < (s.link8 l).hops.length) ∧ (((s.hop l h).dir up).quiet = true)) ∧
    (∃ (l : Nat) (h : Nat) (up : Bool) (s : State), (hopOk l h = true) ∧ (h < (s.link8 l).hops.length) ∧ (((s.hop l h).dir up).quiet = true) ∧ (((s.hop l h).dir up).keepAt + s.rd F.KZL_CTL_KEEPALIVE l * 1000 ≤ s.el)) ∧
    (∃ (l : Nat) (h : Nat) (up : Bool) (s : State), (hopOk l h = true) ∧ (h < (s.link8 l).hops.length) ∧ (((s.hop l h).dir up).quiet = true) ∧ (((s.hop l h).dir up).keepAt + s.rd F.KZL_CTL_KEEPALIVE l * 1000 ≤ s.el) ∧ (s.hopUp l h = true) ∧ (((s.hop l h).dir up).seenAt + 10 * (s.rd F.KZL_CTL_KEEPALIVE l * 1000) ≤ s.el)) ∧
    (∃ (l : Nat) (h : Nat) (up : Bool) (s : State), (hopOk l h = true) ∧ (s.hopUp l h = true) ∧ (h < (s.link8 l).hops.length)) ∧
    (∃ (l : Nat) (h : Nat) (up : Bool) (s : State), (hopOk l h = true) ∧ (s.hopUp l h = true) ∧ (((s.hop l h).dir up).replay ≠ []) ∧ (((s.hop l h).dir up).progAt + 50000 ≤ s.el) ∧ ((s.link8 l).broken.contains h = false) ∧ (s.die.dies = [])) ∧
    (∃ (l : Nat) (h : Nat) (s : State), (hopOk l h = true) ∧ (1 ≤ h) ∧ ((s.link8 l).serials.any (·.isSome) = true) ∧ ((s.link8 l).broken.contains h = false) ∧ (s.die.dies = [])) ∧
    (∃ (l : Nat) (s : State), (l < 64) ∧ (s.hopSt l 0 = hActive) ∧ (widthCode (s.wantWidth l) ≠ s.rd F.KZL_STS_WIDTH l) ∧ (s.drained l = true)) ∧
    (∃ (l : Nat) (s : State), (l < 64) ∧ (s.hopSt l 0 = hActive) ∧ (widthCode (s.wantWidth l) ≠ s.rd F.KZL_STS_WIDTH l) ∧ (s.drained l = false)) :=
  ⟨⟨63, 3, 3, false, upHop 3 hAlign Hop.fresh, by decide +kernel⟩,
    ⟨63, 0, upHop 0 hAlign { Hop.fresh with fails := 1 }, by decide +kernel⟩,
    ⟨63, 0, upHop 0 hAlign { Hop.fresh with fails := 2 }, by decide +kernel⟩,
    ⟨63, 0, later (upHop 0 hDown Hop.fresh) 1000000000000, by decide +kernel⟩,
    ⟨63, 0, true, later (upHop 0 hActive { hop4 with dn := { LDir.fresh 0 with quiet := true } } |>.wr F.MED_PF_STS_PHASE 0 |>.wr F.KZL_STS_WIDTH 0 63) 1000000000000, by decide +kernel⟩,
    ⟨63, 0, true, false, upHop 0 hQuiet { hop4 with up := { LDir.fresh 0 with quiet := true } }, by decide +kernel⟩,
    ⟨63, 0, true, later (upHop 0 hQuiet { hop4 with up := { LDir.fresh 0 with quiet := true } }) 1000000000000, by decide +kernel⟩,
    ⟨63, 0, true, later (upHop 0 hQuiet { hop4 with up := { LDir.fresh 0 with quiet := true } }) 1000000000000, by decide +kernel⟩,
    ⟨63, 0, true, upHop 0 hActive hopF, by decide +kernel⟩,
    ⟨63, 0, true, later (upHop 0 hActive hopF) 50000, by decide +kernel⟩,
    ⟨63, 1, (upHop 1 hActive hopF).putLink8 63 { (upHop 1 hActive hopF).link8 63 with serials := [some 4, none, none, none] }, by decide +kernel⟩,
    ⟨63, (upHop 0 hActive hop4).wr F.KZL_CTL_WIDTH_CAP 1 63, by decide +kernel⟩,
    ⟨63, (upHop 0 hActive hopF).wr F.KZL_CTL_WIDTH_CAP 1 63, by decide +kernel⟩⟩

/-- The hypotheses of `Obligations.KazronFlitsComplete`, clause by clause. -/
theorem witness_KazronFlitsComplete :
    (∃ (l : Nat) (h : Nat) (up : Bool) (sym : List (List Int)) (a : List Int) (s : State), (hopOk l h = true) ∧ (s.hopUp l h = true) ∧ (h < (s.link8 l).hops.length) ∧ (a ∈ symbols s l h up sym) ∧ (a.length < flitUi (s.runLanes l h).length)) ∧
    (∃ (l : Nat) (h : Nat) (up : Bool) (sym : List (List Int)) (f : FlitRx) (s : State), (FlitIn s l h up sym f) ∧ (((s.hop l h).dir up).nak = false) ∧ (f.ok = false ∨ 2 ^ 31 ≤ leAt f.data 0 4)) ∧
    (∃ (l : Nat) (h : Nat) (ty : Nat) (br : Nat) (tag : Nat) (ack : Nat) (last : Bool) (sym : List (List Int)) (f : FlitRx) (g : Flit) (pre : List Flit) (post : List Flit) (s : State), (FlitIn s l h false sym f) ∧ (f.ok = true) ∧ (f.errs = []) ∧ (1 ≤ ty) ∧ (ty < 5) ∧ (br ≤ h) ∧ (tag < 512) ∧ (ack < 256) ∧ ((s.hop l h).dn.rx < 256) ∧ (leAt f.data 0 4 = flitHdr ty br last tag (s.hop l h).dn.rx ack) ∧ ((s.hop l h).up.replay = pre ++ g :: post) ∧ (g.seq = ack) ∧ (∀ g ∈ pre, g.seq ≠ ack) ∧ ((s.hop l h).up.out = []) ∧ (h < 4)) ∧
    (∃ (l : Nat) (br : Nat) (tag : Nat) (ack : Nat) (sym : List (List Int)) (f : FlitRx) (s : State), (FlitIn s l 0 true sym f) ∧ (f.ok = true) ∧ (f.errs = []) ∧ (br < 4) ∧ (tag < 512) ∧ (ack < 256) ∧ ((s.hop l 0).up.rx < 256) ∧ (leAt f.data 0 4 = flitHdr 3 br true tag (s.hop l 0).up.rx ack) ∧ (Tab.find tag (s.link8 l).tags = none)) ∧
    (∃ (l : Nat) (h : Nat) (seq : Nat) (up : Bool) (f : Flit) (pre : List Flit) (post : List Flit) (s : State), (hopOk l h = true) ∧ (s.hopUp l h = true) ∧ (seq < 256) ∧ (((s.hop l h).dir up).replay = pre ++ f :: post) ∧ (f.seq = seq) ∧ (∀ g ∈ pre, g.seq ≠ seq)) ∧
    (∃ (l : Nat) (h : Nat) (up : Bool) (s : State), (hopOk l h = true) ∧ (s.hopUp l h = true) ∧ (((s.hop l h).dir up).ackAt + 1000 ≤ s.el) ∧ (((s.hop l h).dir up).replay ≠ [])) ∧
    (∃ (l : Nat) (h : Nat) (at0 : Nat) (up : Bool) (s : State), (hopOk l h = true) ∧ (s.hopUp l h = true) ∧ (h < (s.link8 l).hops.length) ∧ (((s.hop l h).dir up).part = some at0) ∧ (at0 + 128 / (s.runLanes l h).length ≤ s.el)) ∧
    (∃ (l : Nat) (corr : Nat) (replay : Nat) (stray : Nat) (lock : Nat) (s : State), (l < 64)) :=
  ⟨⟨63, 0, true, [[3]], [3], upWide 0 hopF, by decide +kernel⟩,
    ⟨63, 0, true, onLanes (List.replicate 256 0), ⟨List.replicate 256 0, [], false⟩, upWide 0 hopF, by constructor <;> decide +kernel, by decide +kernel⟩,
    ⟨63, 0, 2, 0, 511, 7, true, onLanes (flitBytes (flitHdr 2 0 true 511 0 7) []), ⟨flitBytes (flitHdr 2 0 true 511 0 7) [], [], true⟩, ⟨7, 2, 0, true, 5, []⟩, [], [⟨8, 2, 0, true, 6, []⟩], upWide 0 hopF, by constructor <;> decide +kernel, by decide +kernel⟩,
    ⟨63, 3, 511, 255, onLanes (flitBytes (flitHdr 3 3 true 511 0 255) [1, 2]), ⟨flitBytes (flitHdr 3 3 true 511 0 255) [1, 2], [], true⟩, upWide 0 hopF, by constructor <;> decide +kernel, by decide +kernel⟩,
    ⟨63, 0, 8, true, ⟨8, 2, 0, true, 6, []⟩, [⟨7, 2, 0, true, 5, []⟩], [], upHop 0 hActive hopF, by decide +kernel⟩,
    ⟨63, 0, true, later (upHop 0 hActive hopF) 1000, by decide +kernel⟩,
    ⟨63, 0, 0, true, later (upHop 0 hActive { hopF with up := { hopF.up with part := some 0 } }) 128, by decide +kernel⟩,
    ⟨63, 3, 4, 5, 4294967296, upHop 0 hActive hopF, by decide +kernel⟩⟩

/-- The hypotheses of `Obligations.KazronChainsComplete`, clause by clause. -/
theorem witness_KazronChainsComplete :
    (∃ (l : Nat) (s : State), (l < 64) ∧ (s.rd F.KZL_STS_SB l ≠ 1) ∧ (s.hopSt l 0 = hDetect) ∧ (s.rd F.KZL_CTL_EN l = 1) ∧ (s.tables = true)) ∧
    (∃ (l : Nat) (s : State), (l < 64) ∧ (s.rd F.KZL_STS_SB l ≠ 1) ∧ (s.tables = false)) ∧
    (∃ (l : Nat) (low : List Nat) (s : State), (l < 64) ∧ (s.rd F.KZL_STS_SB l = 1) ∧ (∀ h, h < 4 → (s.hop l h).dn.quiet = false ∧ (s.hop l h).up.quiet = false)) ∧
    (∃ (l : Nat) (s : State), (l < 64) ∧ (s.rd F.KZL_STS_SB l ≠ 0) ∧ ((s.link8 l).broken.contains 0 = false) ∧ (s.die.dies = [])) ∧
    (∃ (l : Nat) (p : Nat) (bt : Nat) (serial : Nat) (mx : Nat) (s : State), (l < 64) ∧ (p < 4) ∧ (s.hopUp l p = true) ∧ ((s.link8 l).broken.contains p = false) ∧ (s.pup.sweeps = [none, none]) ∧ (s.zn.cmds = [])) :=
  ⟨⟨63, { (upHop 0 hDetect Hop.fresh).wr F.KZL_STS_SB 0 63 with img := { upNs.img with por := true } } |>.wr F.IMG_STS_STEP 8, by decide +kernel⟩,
    ⟨63, { (upHop 0 hDetect Hop.fresh).wr F.KZL_STS_SB 0 63 with img := { upNs.img with por := false } }, by decide +kernel⟩,
    ⟨63, [1], ((upHop 0 hActive hop4).wr F.KZL_STS_SB 1 63).wr F.KZL_STS_BRIDGES 2 63, by decide +kernel⟩,
    ⟨63, (upHop 0 hActive hop4).wr F.KZL_STS_SB 1 63, by decide +kernel⟩,
    ⟨63, 0, 3, 77, 4, upHop 0 hActive hop4, by decide +kernel⟩⟩

/-- The hypotheses of `Obligations.CaptureDataComplete`, clause by clause. -/
theorem witness_CaptureDataComplete :
    (∃ (p : Nat) (u : Nat) (dst : Nat) (ip : Nat) (vlan : Nat) (udp : Nat) (src : Nat) (ulen : Nat) (b : List Nat) (h : IftHdr) (s : State), (Arrives s p u dst ip vlan ulen false) ∧ (s.fabricOn = true) ∧ (h = iftHdr (b.map (cut 8))) ∧ (s.cap.streams.find? (fun e => !e.2.rdma && bit e.2.ports p && e.2.udp = udp && e.2.sid = h.sid && (e.2.filter = 0 || e.2.filter = src)) = none) ∧ (s.cap.streams.any (fun e => !e.2.rdma && bit e.2.ports p && e.2.udp = udp) = true)) ∧
    (∃ (p : Nat) (u : Nat) (dst : Nat) (ip : Nat) (vlan : Nat) (udp : Nat) (src : Nat) (ulen : Nat) (k : Nat) (b : List Nat) (d : List Nat) (h : IftHdr) (x : Stream) (s : State), (Arrives s p u dst ip vlan ulen false) ∧ (s.fabricOn = true) ∧ (h = iftHdr (b.map (cut 8))) ∧ (d = iftData ulen (b.map (cut 8))) ∧ (s.stream k = some x) ∧ (s.cap.streams.find? (fun e => !e.2.rdma && bit e.2.ports p && e.2.udp = udp && e.2.sid = h.sid && (e.2.filter = 0 || e.2.filter = src)) = some (k, x)) ∧ (h.ver ≠ 1 ∨ h.ty ≠ 0 ∨ h.rsv = true)) ∧
    (∃ (p : Nat) (u : Nat) (dst : Nat) (ip : Nat) (vlan : Nat) (udp : Nat) (src : Nat) (ulen : Nat) (k : Nat) (b : List Nat) (d : List Nat) (h : IftHdr) (x : Stream) (s : State), (Arrives s p u dst ip vlan ulen false) ∧ (Takes s k x) ∧ (s.fabricOn = true) ∧ (h = iftHdr (b.map (cut 8))) ∧ (d = iftData ulen (b.map (cut 8))) ∧ (s.stream k = some x) ∧ (s.cap.streams.find? (fun e => !e.2.rdma && bit e.2.ports p && e.2.udp = udp && e.2.sid = h.sid && (e.2.filter = 0 || e.2.filter = src)) = some (k, x)) ∧ (h.ver = 1) ∧ (h.ty = 0) ∧ (h.rsv = false) ∧ (d ≠ []) ∧ (h.off + d.length ≤ h.flen) ∧ (h.flen ≤ x.maxKib * 1024) ∧ (d.length ≤ x.limit * 1024) ∧ ((h.restart && h.first) = false) ∧ (x.f ≤ h.frame) ∧ (h.frame < x.f + 1024) ∧ (x.closed.contains h.frame = false) ∧ (x.log + frameBound h.flen ≤ x.w * 2 ^ 31)) ∧
    (∃ (qp : Nat) (k : Nat) (d : List Nat) (q : Qp) (x : Stream) (s : State), (QpUp s qp q) ∧ (Takes s k x) ∧ (q.stream = some k) ∧ (s.rxFull q.port q.sub d.length = false) ∧ (x.rx = []) ∧ (x.rxAt = none) ∧ (d.length ≤ x.maxKib * 1024)) ∧
    (∃ (qp : Nat) (k : Nat) (d : List Nat) (q : Qp) (x : Stream) (s : State), (QpUp s qp q) ∧ (Takes s k x) ∧ (q.stream = some k) ∧ (s.rxFull q.port q.sub d.length = false) ∧ (x.rx = []) ∧ (x.rxAt = none) ∧ (d.length ≤ x.maxKib * 1024)) ∧
    (∃ (qp : Nat) (imm : Nat) (k : Nat) (d : List Nat) (q : Qp) (x : Stream) (s : State), (QpUp s qp q) ∧ (Takes s k x) ∧ (q.stream = some k) ∧ (s.rxFull q.port q.sub d.length = false) ∧ (x.rx = []) ∧ (x.rxAt = none) ∧ (d ≠ []) ∧ (d.length ≤ x.maxKib * 1024) ∧ (d.length ≤ x.limit * 1024) ∧ (x.f ≤ frameNo x.high imm) ∧ (frameNo x.high imm < x.f + 1024) ∧ (x.closed.contains (frameNo x.high imm) = false) ∧ (x.log + frameBound d.length ≤ x.w * 2 ^ 31)) ∧
    (∃ (k : Nat) (x : Stream) (s : State), (s.stream k = some x) ∧ (x.rxAt = none) ∧ (x.frames.filter (fun f => f.close.isNone && f.have < f.flen && f.last + x.stallNs ≤ s.el) = []) ∧ (x.state = stRun) ∧ (x.last + x.stallNs ≤ s.el)) ∧
    (∃ (k : Nat) (x : Stream) (f : Frame) (s : State), (s.stream k = some x) ∧ (x.rxAt = none) ∧ (x.frames = [f]) ∧ (f.close = none) ∧ (f.have < f.flen) ∧ (f.last + x.stallNs ≤ s.el) ∧ (x.drop = false) ∧ (f.placed = true)) ∧
    (∃ (k : Nat) (j : Nat) (x : Stream) (f : Frame) (s : State), (s.stream k = some x) ∧ (x.frames = [f]) ∧ (f.through = true) ∧ (x.set = some j) ∧ (f.placed = true) ∧ (s.stg.commits = true) ∧ (s.rd F.MED_PF_STS_PHASE = 0) ∧ (f.prog.cmode ≠ 1) ∧ (x.stop = none)) ∧
    (∃ (k : Nat) (z : Nat) (x : Stream) (s : State), (s.stream k = some x) ∧ (x.iz = some z) ∧ (x.recs ≠ []) ∧ (32 ≤ x.recs.length ∨ (∃ r ∈ x.recs, r.1 + x.cur.idxMs * 1000000 ≤ s.el)) ∧ (s.wp (s.sZone x (x.iFirst + z)) + 1 < zoneBlocks)) :=
  ⟨⟨0, 0, (upCap strR).rd F.ETH_MAC_ADDR 0 0, 99, 0, 0, 0, 43, dgr 1 9, iftHdr ((dgr 1 9).map (cut 8)), upCap strR, ⟨by decide +kernel, by decide +kernel, by simp [State.macOk], by decide +kernel, by decide +kernel⟩, by decide +kernel⟩,
    ⟨0, 0, (upCap strR).rd F.ETH_MAC_ADDR 0 0, 99, 0, 0, 0, 43, 5, dgr 2 0, [1, 2, 3], iftHdr ((dgr 2 0).map (cut 8)), strR, upCap strR, ⟨by decide +kernel, by decide +kernel, by simp [State.macOk], by decide +kernel, by decide +kernel⟩, by decide +kernel⟩,
    ⟨0, 0, (upCap strR).rd F.ETH_MAC_ADDR 0 0, 99, 0, 0, 0, 43, 5, dgr 1 0, [1, 2, 3], iftHdr ((dgr 1 0).map (cut 8)), strR, upCap strR, ⟨by decide +kernel, by decide +kernel, by simp [State.macOk], by decide +kernel, by decide +kernel⟩, by constructor <;> decide +kernel, by decide +kernel⟩,
    ⟨2, 5, [1], { qpx with stream := some 5 }, { strR with rdma := true }, upCap { strR with rdma := true }, by constructor <;> decide +kernel, by constructor <;> decide +kernel, by decide +kernel⟩,
    ⟨2, 5, [1], { qpx with stream := some 5 }, { strR with rdma := true }, upCap { strR with rdma := true }, by constructor <;> decide +kernel, by constructor <;> decide +kernel, by decide +kernel⟩,
    ⟨2, 7, 5, [1], { qpx with stream := some 5 }, { strR with rdma := true }, upCap { strR with rdma := true }, by constructor <;> decide +kernel, by constructor <;> decide +kernel, by decide +kernel⟩,
    ⟨5, strR, later (upCap strR) 10000000, by decide +kernel⟩,
    ⟨5, { strR with frames := [{ fr3 with flen := 9 }] }, { fr3 with flen := 9 }, later (upCap { strR with frames := [{ fr3 with flen := 9 }] }) 10000000, by decide +kernel⟩,
    ⟨5, 0, { strR with frames := [{ fr3 with disp := 1 }] }, { fr3 with disp := 1 }, upCap { strR with frames := [{ fr3 with disp := 1 }] }, by decide +kernel⟩,
    ⟨5, 1, { strR with recs := [(0, List.replicate 128 7)] }, later (upCap { strR with recs := [(0, List.replicate 128 7)] }) 10000000000, by decide +kernel⟩⟩

/-- The hypotheses of `Obligations.JournalAndMapCacheComplete`, clause by clause. -/
theorem witness_JournalAndMapCacheComplete :
    (∃ (e : JEnt) (l : List JEnt) (s : State), (s.ftl.jtail = e :: l) ∧ (3070 ≤ s.ftl.jtail.length ∨ e.made + s.rd F.FTL_JNL_CFG_COMMIT_US * 1000 ≤ s.el) ∧ (s.ftl.jpages.length < 64) ∧ (s.ftl.jring + 98304 ≤ 2 ^ 33)) ∧
    (∃ (a : Nat) (s : State), (s.ftl.jtail ≠ []) ∧ (s.ftl.faulted = none) ∧ (s.ftl.ckpt = none)) ∧
    (∃ (p : JPage) (ps : List JPage) (e : JEnt) (s : State), (Still s) ∧ (s.ftl.jpages = p :: ps) ∧ (p.ents = [e]) ∧ (e.act = .none) ∧ (∀ r ∈ ps, r.copies < 2)) ∧
    (∃ (p : JPage) (q : JPage) (ps : List JPage) (s : State), (Still s) ∧ (s.ftl.jpages = p :: q :: ps) ∧ (p.copies < 2)) ∧
    (∃ (slice : Nat) (nsid : Nat) (s : State), (∀ e ∈ s.ftl.jtail, ∀ g, e.act ≠ .keyGen slice nsid g) ∧ (∀ p ∈ s.ftl.jpages, ∀ e ∈ p.ents, ∀ g, e.act ≠ .keyGen slice nsid g)) ∧
    (∃ (s : State), (s.ftl.ckpt = none) ∧ (s.rd F.FTL_JNL_CFG_CKPT_MIB * 2 ^ 20 ≤ s.ftl.jsince ∨ s.ftl.ckptAt + s.rd F.FTL_JNL_CFG_CKPT_S * 1000000000 ≤ s.el)) ∧
    (∃ (sq : Nat) (ring : Nat) (s : State), (s.ftl.ckpt = some (sq, ring)) ∧ (∀ l ∈ s.dirtyLines, sq ≤ l.seq) ∧ (∀ e ∈ s.ftl.jtail, e.act ≠ .ckptEnd sq)) ∧
    (∃ (nsid : Nat) (page : Nat) (row : Nat) (sq : Nat) (ring : Nat) (l : MLine) (c : CRow) (n : Ns) (s : State), (s.dirtyLines = [l]) ∧ (l.nsid = nsid) ∧ (l.page = page) ∧ (l.wb = false) ∧ (s.ftl.ckpt = some (sq, ring)) ∧ (l.seq < sq) ∧ (Tab.find nsid s.zn.ns = some n) ∧ (s.ftl.crows.find? (fun e => e.2.dg = n.dg && e.2.map && e.2.fill + 4 ≤ e.2.row.k * memBlocks) = some (row, c)) ∧ (Tab.find row s.ftl.crows = some c)) ∧
    (∃ (nsid : Nat) (page : Nat) (l : MLine) (s : State), (s.ftl.lines.find? (fun l => l.nsid = nsid && l.page = page && l.pending) = some l) ∧ (l.waiters = []) ∧ (s.rd F.MCACHE_STS_STATE = 1) ∧ (∀ c ∈ s.zn.cmds, c.st ≠ .map) ∧ (l.poison = false)) ∧
    (∃ (nsid : Nat) (page : Nat) (l : MLine) (s : State), (s.ftl.lines.find? (fun l => l.nsid = nsid && l.page = page && l.pending) = some l) ∧ (l.waiters = []) ∧ (s.rd F.MCACHE_STS_STATE = 1) ∧ (∀ c ∈ s.zn.cmds, c.st ≠ .map) ∧ (l.poison = true)) ∧
    (∃ (s : State), (s.rd F.MCACHE_STS_STATE = 1) ∧ (∀ l ∈ s.ftl.lines, l.dirty = false ∧ l.pending = false)) ∧
    (∃ (s : State), (s.rd F.MCACHE_STS_STATE ≠ 1) ∧ (s.rd F.MCACHE_STS_STALE = 1)) ∧
    (∃ (s : State), (s.rd F.MCACHE_STS_STATE ≠ 1) ∧ (s.rd F.MCACHE_STS_STALE ≠ 1) ∧ (∀ e ∈ s.ftl.bypass, e.2.2 = false)) ∧
    (∃ (s : State), (s.rd F.MCACHE_STS_STATE = 0)) ∧
    (∃ (count : Nat) (s : State), (count < 2 ^ 23) ∧ (s.rd F.MCACHE_STS_INV_BUSY ≠ 1) ∧ (∀ l ∈ s.ftl.lines, l.dirty = false ∧ l.pending = false)) :=
  ⟨⟨jent, [], later { upNs with ftl := { upNs.ftl with jtail := [jent] } } 1000000000, by decide +kernel⟩,
    ⟨9, { upNs with ftl := { upNs.ftl with jtail := [jent] } }, by decide +kernel⟩,
    ⟨⟨[jent], 0⟩, [], jent, { upNs with ftl := { upNs.ftl with jpages := [⟨[jent], 0⟩] } }, by constructor <;> decide +kernel, by decide +kernel⟩,
    ⟨⟨[jent], 0⟩, ⟨[jent], 0⟩, [], { upNs with ftl := { upNs.ftl with jpages := [⟨[jent], 0⟩, ⟨[jent], 0⟩] } }, by constructor <;> decide +kernel, by decide +kernel⟩,
    ⟨1, 1, { upNs with cip := { upNs.cip with gens := [(1, 1, 3)], slots := [(0, ⟨2, 1, 1, 2, 1, 0, false⟩)] } }, fun e he => absurd (show e ∈ ([] : List JEnt) from he) (by simp), fun e he => absurd (show e ∈ ([] : List JPage) from he) (by simp)⟩,
    ⟨later upNs 100000000000000, by decide +kernel⟩,
    ⟨9, 0, { upNs with ftl := { upNs.ftl with ckpt := some (9, 0), jnext := 12 } }, by decide +kernel⟩,
    ⟨2, 0, 0, 9, 0, line1, crowM, nsC, upMc [line1], by decide +kernel⟩,
    ⟨2, 0, { line1 with dirty := false, valid := false, pending := true }, upMc [{ line1 with dirty := false, valid := false, pending := true }], by decide +kernel⟩,
    ⟨2, 0, { line1 with dirty := false, valid := false, pending := true, poison := true }, upMc [{ line1 with dirty := false, valid := false, pending := true, poison := true }], by decide +kernel⟩,
    ⟨upMc [{ line1 with dirty := false }], by decide +kernel⟩,
    ⟨(upMc []).wr F.MCACHE_STS_STATE 0 |>.wr F.MCACHE_STS_STALE 1, by decide +kernel⟩,
    ⟨(upMc []).wr F.MCACHE_STS_STATE 0 |>.wr F.MCACHE_STS_STALE 0, by decide +kernel⟩,
    ⟨(upMc [{ line1 with dirty := false }]).wr F.MCACHE_STS_STATE 0, by decide +kernel⟩,
    ⟨8388607, upMc [{ line1 with dirty := false }], by decide +kernel⟩⟩

/-- The hypotheses of `Obligations.BackgroundWorkComplete`, clause by clause. -/
theorem witness_BackgroundWorkComplete :
    (∃ (d : Nat) (b : Nat) (s : State), (s.works d = true) ∧ (s.tailFull = false) ∧ (s.eraseDue d = true) ∧ (s.staleOn d = some b) ∧ (s.ftl.crows = []) ∧ (s.rdn.reshape = none) ∧ (∀ e ∈ s.die.blks, e.2.refresh = false)) ∧
    (∃ (id : Nat) (j : Reloc) (s : State), (s.ftl.relocs.find? (fun (j : Reloc) => j.id = id && j.step = 0) = some j) ∧ ((j.kind = 1 ∧ s.relocLive j = true) ∨ j.kind = 3)) ∧
    (∃ (conv : Bool) (h : Nat) (r : Nat) (m : Nat) (dg : Nat) (g : Grp) (x : SRow) (e : Subst) (s : State), (s.rdn.subst = [e]) ∧ (e.row = ⟨conv, h, r⟩) ∧ (e.member = m) ∧ (e.done = false) ∧ (s.srow ⟨conv, h, r⟩ = some x) ∧ (s.grpOfDie e.blk.die = some (dg, g)) ∧ (s.works e.blk.die = true) ∧ ((Tab.find dg s.rdn.rbld).getD 0 < s.rbldShare dg g) ∧ (s.missing ⟨conv, h, r⟩ x = [m]) ∧ (s.tailFull = false)) ∧
    (∃ (d : Nat) (t0 : Nat) (e : Nat) (b : Nat) (b0 : Nat) (c : CRow) (s : State), ((s.dieOf d).goneAt = some t0) ∧ (s.works d = false) ∧ (t0 + s.rd F.RDN_RBLD_CFG_DELAY * 1000000000 ≤ s.el) ∧ (s.zn.zx = []) ∧ (s.ftl.crows = [(0, c)]) ∧ (c.row.mem = [⟨d, b0⟩]) ∧ (s.rdn.subst = []) ∧ (s.bestTarget (s.substDies ⟨true, 0, 0⟩ c.row 0) = some e) ∧ (s.nextErased e = some b)) ∧
    (∃ (conv : Bool) (h : Nat) (r : Nat) (w : Nat) (p : Nat) (e : Nat × RowId × Nat × Nat) (x : SRow) (us : List StU) (s : State), (s.openPageRows.find? (fun e => e.2 = (⟨conv, h, r⟩, w, p)) = some e) ∧ (s.srow ⟨conv, h, r⟩ = some x) ∧ (e.1 + s.rd F.MED_STG_CFG_FILL_TMO * 1000000 < s.el) ∧ (s.winPool < 2 * s.winUsed) ∧ (us = s.pageRowUnits ⟨conv, h, r⟩ x.k w p) ∧ ((s.stg.units.filter (fun u => u.pool = 2)).length + us.length ≤ 16777216)) :=
  ⟨⟨2, 7, { (upIo { c0 with st := .place, nsid := 1 }).putBlk ⟨2, 7⟩ { BlkSt.fresh with use := .stale } with rdn := { upNs.rdn with groups := [(0, grp4)] } }, by decide +kernel⟩,
    ⟨3, ⟨3, 1, ⟨false, 0, 0⟩, 2, ⟨2, 1⟩, ⟨2, 9⟩, [], 0, none⟩, { upRow c0 row0 with ftl := { upNs.ftl with relocs := [⟨3, 1, ⟨false, 0, 0⟩, 2, ⟨2, 1⟩, ⟨2, 9⟩, [], 0, none⟩] } }, by decide +kernel⟩,
    ⟨false, 0, 0, 2, 0, grp4, { row0 with mem := row0.mem.set 2 ⟨9, 1⟩ }, ⟨⟨false, 0, 0⟩, 2, ⟨2, 9⟩, false, 3⟩, { upRow c0 { row0 with mem := row0.mem.set 2 ⟨9, 1⟩ } with rdn := { upNs.rdn with subst := [⟨⟨false, 0, 0⟩, 2, ⟨2, 9⟩, false, 3⟩] } }, by decide +kernel⟩,
    ⟨2, 0, 64, 0, 7, crow1, later { (upIo c0).putDie 2 { dieW with goneAt := some 0, reach := false } |>.putDie 64 dieW with ftl := { upNs.ftl with crows := [(0, crow1)] }, rdn := { upNs.rdn with groups := [(0, grpN)] } } 1000000000000000, by decide +kernel⟩,
    ⟨false, 0, 0, 0, 0, (0, ⟨false, 0, 0⟩, 0, 0), row0, [⟨⟨false, 0, 0⟩, 3, 0, 0, 0, 0, 0, 0, 0⟩], later (upRow { c0 with resWin := 600000 } row0) 1000000000000, by decide +kernel⟩⟩

/-- The hypotheses of `Obligations.LayoutManagementComplete`, clause by clause. -/
theorem witness_LayoutManagementComplete :
    (∃ (o : Org) (cid : Nat) (g : Nat) (sup : Nat) (old : Grp) (new : Grp) (s : State), (Manages s o) ∧ (s.tailFull = false) ∧ (s.rdn.reshape = none) ∧ (s.rbldPending g = false) ∧ (Tab.find g s.rdn.groups = some old) ∧ (Tab.find sup s.rdn.supp = some (g, new)) ∧ (s.badTarget g old new = false)) ∧
    (∃ (o : Org) (cid : Nat) (act : Nat) (g : Nat) (sup : Nat) (s : State), (Manages s o) ∧ (s.tailFull = false) ∧ (act = 0 ∨ 4 ≤ act)) ∧
    (∃ (o : Org) (cid : Nat) (r : Reshape) (s : State), (Manages s o) ∧ (s.tailFull = false) ∧ (s.rdn.reshape = some r) ∧ (r.rev = true)) ∧
    (∃ (o : Org) (cid : Nat) (r : Reshape) (s : State), (Manages s o) ∧ (s.tailFull = false) ∧ (s.rdn.reshape = some r) ∧ (r.rev = false)) ∧
    (∃ (o : Org) (cid : Nat) (l : Nat) (b : Nat) (s : State), (Manages s o) ∧ (s.tailFull = false) ∧ (l < 64) ∧ (b < 4) ∧ (s.rd F.KZL_BID_PRESENT l b ≠ 0) ∧ (s.die.dies = [])) :=
  ⟨⟨.fn 0, 7, 0, 2, grp4, grpN, { upRow c0 row0 with rdn := { upNs.rdn with supp := [(2, (0, grpN))] } }.wr F.SLI_CAP_QUOTA_UNITS 0 1, ⟨served_at 0 (by decide +kernel), by decide +kernel⟩, by decide +kernel⟩,
    ⟨.fn 0, 7, 4, 0, 0, up, ⟨served_at 0 (by decide +kernel), by decide +kernel⟩, by decide +kernel⟩,
    ⟨.fn 0, 7, ⟨0, grpN, 0, 1, true⟩, { upRow c0 row0 with rdn := { upNs.rdn with reshape := some ⟨0, grpN, 0, 1, true⟩ } }, ⟨served_at 0 (by decide +kernel), by decide +kernel⟩, by decide +kernel⟩,
    ⟨.fn 0, 7, ⟨0, grpN, 0, 1, false⟩, { upRow c0 { row0 with shadow := true } with rdn := { upNs.rdn with reshape := some ⟨0, grpN, 0, 1, false⟩ } }, ⟨served_at 0 (by decide +kernel), by decide +kernel⟩, by decide +kernel⟩,
    ⟨.fn 0, 7, 63, 3, upNs.wr F.KZL_BID_PRESENT 1 63 3, ⟨served_at 0 (by decide +kernel), by decide +kernel⟩, by decide +kernel⟩⟩

/-- The hypotheses of `Obligations.StartUpComplete`, clause by clause. -/
theorem witness_StartUpComplete :
    (∃ (heads : Nat) (good : Nat) (s : State), (s.img.por = true) ∧ (s.stg.image = none) ∧ (s.ftl.undo = []) ∧ (s.ftl.zundo = []) ∧ (s.stg.units = []) ∧ (s.zn.cmds = []) ∧ (s.zn.doomed = []) ∧ (s.cap.streams = []) ∧ (s.stg.dirty = [])) ∧
    (∃ (test : Bool) (hot : Bool) (fuse : Bool) (root : Bool) (nor : Bool) (rdA : Bool) (rdB : Bool) (spd : Bool) (fusedRows : Nat) (soft : List (Nat × Nat)) (bad : List (Nat × Nat)) (noCal : List Nat) (s : State), (s.img.por = false) ∧ (s.pwr.tripped = true) ∧ (hot = true)) ∧
    (∃ (hot : Bool) (fuse : Bool) (root : Bool) (nor : Bool) (rdA : Bool) (rdB : Bool) (spd : Bool) (fusedRows : Nat) (soft : List (Nat × Nat)) (bad : List (Nat × Nat)) (noCal : List Nat) (s : State), (s.img.por = false) ∧ ((s.pwr.tripped && hot) = false)) ∧
    (∃ (hot : Bool) (fuse : Bool) (root : Bool) (nor : Bool) (rdA : Bool) (rdB : Bool) (spd : Bool) (fusedRows : Nat) (soft : List (Nat × Nat)) (bad : List (Nat × Nat)) (noCal : List Nat) (s : State), (s.img.por = false) ∧ ((s.pwr.tripped && hot) = false) ∧ (soft.all (fun e => 8 < e.1 || e.2 ≤ 16) = true)) ∧
    (∃ (hot : Bool) (fuse : Bool) (root : Bool) (nor : Bool) (rdA : Bool) (rdB : Bool) (spd : Bool) (fusedRows : Nat) (soft : List (Nat × Nat)) (bad : List (Nat × Nat)) (noCal : List Nat) (s : State), (s.img.por = false) ∧ ((s.pwr.tripped && hot) = false) ∧ (soft.all (fun e => 8 < e.1 || e.2 ≤ 16) = true)) ∧
    (∃ (hot : Bool) (fuse : Bool) (root : Bool) (nor : Bool) (rdA : Bool) (rdB : Bool) (spd : Bool) (fusedRows : Nat) (soft : List (Nat × Nat)) (bad : List (Nat × Nat)) (noCal : List Nat) (s : State), (s.img.por = false) ∧ ((s.pwr.tripped && hot) = false) ∧ (soft.all (fun e => 8 < e.1 || e.2 ≤ 16) = true) ∧ (s.dir = none)) ∧
    (∃ (code : Nat) (idx : Nat) (rsn : Nat) (at0 : Nat) (root : Bool) (nor : Bool) (rdA : Bool) (rdB : Bool) (spd : Bool) (fusedRows : Nat) (noCal : List Nat) (s : State), (s.pwr.jack = true) ∧ (s.pwr.wake = some (code, idx, rsn, at0))) ∧
    (∃ (good : Nat) (s : State), (s.tables = true) ∧ (s.img.noCal = []) ∧ (s.rd F.IMG_STS_PHASE = 0) ∧ (s.rd F.DRC_FILL_DONE ≠ 1) ∧ (s.rd F.DRC_CH_STS_STATE 0 < 2) ∧ ((List.range 8).all (bit good) = true)) ∧
    (∃ (good : Nat) (s : State), (s.tables = true) ∧ (s.img.noCal = []) ∧ (s.rd F.IMG_STS_PHASE = 0) ∧ (s.rd F.DRC_FILL_DONE ≠ 1) ∧ (s.rd F.DRC_CH_STS_STATE 0 < 2) ∧ ((List.range 8).all (bit good) = false)) ∧
    (∃ (s : State), (s.tables = true) ∧ (s.rd F.IMG_STS_PHASE = 0) ∧ (s.rd F.DRC_FILL_DONE ≠ 1) ∧ (∀ c, c < 8 → s.rd F.DRC_CH_STS_STATE c = 2)) ∧
    (∃ (s : State), (s.tables = true) ∧ (s.rd F.IMG_STS_PHASE = 0) ∧ (s.img.admReady = false) ∧ (s.rd F.DRC_FILL_DONE = 1)) ∧
    (∃ (s : State), (s.tables = true) ∧ (s.rd F.IMG_STS_PHASE = 0) ∧ (s.img.admReady = false) ∧ (s.rd F.DRC_FILL_DONE = 1) ∧ (s.img.sys = []) ∧ (s.img.started = false) ∧ (s.img.warm = false) ∧ (s.img.keepDram = false) ∧ ((s.sx 0).used = false)) ∧
    (∃ (ms : Nat) (rd : Bool) (spd : Bool) (s : State), (s.tables = true) ∧ (s.rd F.IMG_STS_PHASE = 0) ∧ (s.img.admReady = true) ∧ (s.img.replayed = false)) ∧
    (∃ (ms : Nat) (rd : Bool) (spd : Bool) (s : State), (s.tables = true) ∧ (s.rd F.IMG_STS_PHASE = 0) ∧ (s.img.admReady = true) ∧ (s.img.replayed = false) ∧ (s.ftl.jtail = []) ∧ (s.layoutFits = true) ∧ (s.stg.image = none) ∧ (s.zn.zx = []) ∧ (s.ftl.crows = []) ∧ (s.img.started = false) ∧ (s.img.warm = false) ∧ (s.img.target = 0) ∧ (s.rd F.MED_PF_STS_PHASE = pfNotArmed) ∧ (s.stg.erased.getD 0 false = true)) ∧
    (∃ (b : Nat) (s : State), (b ≤ 1) ∧ (s.stg.image = none) ∧ (s.dead = false) ∧ (b < s.stg.erased.length) ∧ (s.rd F.MED_PF_STS_PHASE ≠ pfNotArmed)) ∧
    (∃ (b : Nat) (s : State), (b ≤ 1) ∧ (s.stg.image = none) ∧ (s.dead = false) ∧ (b < s.stg.erased.length) ∧ (s.rd F.MED_PF_STS_PHASE = pfNotArmed)) ∧
    (∃ (s : State), (s.tables = true) ∧ (s.rd F.IMG_STS_PHASE = 0) ∧ (s.img.replayed = true) ∧ (s.img.pfailN = true) ∧ (s.rd F.MED_PF_STS_PHASE = pfArmed) ∧ (s.stg.image = none) ∧ (s.fns = []) ∧ (s.rdn.reshape = none) ∧ (s.rd F.PUP_STS_SPARE ≠ 3) ∧ (s.pwr.tripped = false)) ∧
    (∃ (off : Nat) (crc : Nat) (data : List Nat) (s : State), (crc32c (toLe 4 off ++ octets data) = crc) ∧ (s.img.rom = true) ∧ (data.length = 4096) ∧ (off ≠ 0xFFFFFFFF)) ∧
    (∃ (off : Nat) (crc : Nat) (data : List Nat) (s : State), (crc32c (toLe 4 off ++ octets data) ≠ crc) ∧ (s.img.rom = true) ∧ (data.length = 4096) ∧ (off ≠ 0xFFFFFFFF)) ∧
    (∃ (fuse : Bool) (root : Bool) (nor : Bool) (rdA : Bool) (rdB : Bool) (spd : Bool) (s : State), (s.img.rom = true)) ∧
    (∃ (fuse : Bool) (root : Bool) (nor : Bool) (rdA : Bool) (rdB : Bool) (spd : Bool) (s : State), (s.img.rom = true)) ∧
    (∃ (s : State), (s.dead = false) ∧ (s.ready = true) ∧ (s.zn.cmds = []) ∧ (s.cap.streams = [])) :=
  ⟨⟨0, 0, up, by decide +kernel⟩,
    ⟨true, true, false, false, false, false, false, false, 0, default, default, [], { State.reset with pwr := { State.reset.pwr with tripped := true } }, by decide +kernel⟩,
    ⟨false, false, false, false, false, false, false, 3, default, default, [], State.reset, by decide +kernel⟩,
    ⟨false, false, true, false, false, false, false, 3, [(9, 17), (8, 16)], default, [], State.reset, by decide +kernel⟩,
    ⟨false, false, false, false, false, false, false, 0, default, default, [], State.reset, by decide +kernel⟩,
    ⟨false, false, false, false, false, false, false, 0, default, default, [], State.reset, by decide +kernel⟩,
    ⟨6, 2, 0, 999, false, false, false, false, false, 0, [], upJack, by decide +kernel⟩,
    ⟨255, upBoot, by decide +kernel⟩,
    ⟨127, upBoot, by decide +kernel⟩,
    ⟨(List.range 8).foldl (fun (s : State) c => s.wr F.DRC_CH_STS_STATE 2 c) upBoot, by decide +kernel⟩,
    ⟨upBoot.wr F.DRC_FILL_DONE 1, by decide +kernel⟩,
    ⟨upBoot.wr F.DRC_FILL_DONE 1, by decide +kernel⟩,
    ⟨0, false, false, { upBoot with img := { upBoot.img with admReady := true } }, by decide +kernel⟩,
    ⟨70000, false, false, { upBoot with img := { upBoot.img with admReady := true }, stg := { upBoot.stg with erased := [true, true] } }.wr F.MED_PF_STS_PHASE pfNotArmed, by decide +kernel⟩,
    ⟨1, upArm, by decide +kernel⟩,
    ⟨1, upArm.wr F.MED_PF_STS_PHASE pfNotArmed, by decide +kernel⟩,
    ⟨{ upBoot with img := { upBoot.img with admReady := true, replayed := true } }.wr F.MED_PF_STS_PHASE pfArmed, by decide +kernel⟩,
    ⟨4096, crc32c (toLe 4 4096 ++ octets (List.replicate 4096 255)), List.replicate 4096 255, { upBoot with img := { upBoot.img with rom := true } }, rfl, by decide +kernel⟩,
    ⟨4096, 4294967296, List.replicate 4096 255, { upBoot with img := { upBoot.img with rom := true } }, Nat.ne_of_lt (crc32c_lt _), by decide +kernel⟩,
    ⟨false, false, false, false, false, false, { upBoot with img := { upBoot.img with rom := true } }, by decide +kernel⟩,
    ⟨false, false, false, false, false, false, { upBoot with img := { upBoot.img with rom := true } }, by decide +kernel⟩,
    ⟨up, by decide +kernel⟩⟩

/-- The hypotheses of `Obligations.FirmwareComplete`, clause by clause. -/
theorem witness_FirmwareComplete :
    (∃ (o : Org) (cid : Nat) (off : Nat) (len : Nat) (data : List Nat) (s : State), (Manages s o) ∧ (s.pup.exch = none) ∧ (off * 4 + len * 4 ≤ 15728640) ∧ (∀ e ∈ s.img.upd, ¬ (e.1 < off * 4 + len * 4 ∧ off * 4 < e.1 + e.2.length))) ∧
    (∃ (o : Org) (cid : Nat) (fs : Nat) (k : Nat) (nor : Nat) (spd : Bool) (s : State), (Manages s o) ∧ (s.commitSlot fs = some k) ∧ (k ≠ s.rd F.IMG_STS_SLOT) ∧ (k < 2) ∧ (s.prohibited = false) ∧ (nor < 2)) ∧
    (∃ (o : Org) (cid : Nat) (fs : Nat) (k : Nat) (nor : Nat) (spd : Bool) (s : State), (Manages s o) ∧ (s.commitSlot fs = some k) ∧ (k ≠ s.rd F.IMG_STS_SLOT) ∧ (k < 2) ∧ (s.prohibited = false) ∧ (nor < 2)) ∧
    (∃ (o : Org) (cid : Nat) (fs : Nat) (k : Nat) (nor : Nat) (spd : Bool) (s : State), (Manages s o) ∧ (s.commitSlot fs = some k) ∧ (k ≠ s.rd F.IMG_STS_SLOT) ∧ (k < 2) ∧ (s.prohibited = false) ∧ (nor < 2)) ∧
    (∃ (o : Org) (cid : Nat) (fs : Nat) (k : Nat) (nor : Nat) (spd : Bool) (s : State), (Manages s o) ∧ (s.commitSlot fs = some k) ∧ (k ≠ s.rd F.IMG_STS_SLOT) ∧ (k < 2) ∧ (s.prohibited = false) ∧ (nor < 2) ∧ (s.cap.streams = []) ∧ (s.cap.progs = [])) ∧
    (∃ (o : Org) (cid : Nat) (fs : Nat) (spd : Bool) (s : State), (Manages s o) ∧ (s.commitSlot fs = some (s.rd F.IMG_STS_SLOT))) :=
  ⟨⟨.fn 0, 7, 4, 1, [1, 2, 3, 4], { upArm with img := { upArm.img with upd := [(0, [1, 2])] } }, ⟨served_at 0 (by decide +kernel), by decide +kernel⟩, by decide +kernel⟩,
    ⟨.fn 0, 7, 2, 1, 0, false, upArm, ⟨served_at 0 (by decide +kernel), by decide +kernel⟩, by decide +kernel⟩,
    ⟨.fn 0, 7, 2, 1, 0, false, upArm, ⟨served_at 0 (by decide +kernel), by decide +kernel⟩, by decide +kernel⟩,
    ⟨.fn 0, 7, 2, 1, 0, false, upArm, ⟨served_at 0 (by decide +kernel), by decide +kernel⟩, by decide +kernel⟩,
    ⟨.fn 0, 7, 2, 1, 0, false, { upArm with cap := up.cap }, ⟨served_at 0 (by decide +kernel), by decide +kernel⟩, by decide +kernel⟩,
    ⟨.fn 0, 7, 1, false, upArm, ⟨served_at 0 (by decide +kernel), by decide +kernel⟩, by decide +kernel⟩⟩

/-- The hypotheses of `Obligations.TimeComplete`, clause by clause. -/
theorem witness_TimeComplete :
    (∃ (o : Org) (cid : Nat) (ms : Nat) (waited : Nat) (s : State), (Served s o) ∧ (isMgr o = true) ∧ (0 ≤ (s.el : Int) + s.tim.ofs)) ∧
    (∃ (o : Org) (cid : Nat) (s : State), (Served s o)) ∧
    (∃ (s : State), (s.counting = true) ∧ (s.rd F.TIM_CFG_PPS_EN ≠ 0) ∧ (∀ a, s.tim.lastAcc = some a → a + 500000000 ≤ s.el) ∧ (s.rd F.TIM_STS_PPS ≠ 2) ∧ (s.rd F.TIM_STS_SET_PEND ≠ 1) ∧ (s.ppsErr.natAbs ≤ 10000)) ∧
    (∃ (s : State) (a : Nat), (s.counting = true) ∧ (s.rd F.TIM_CFG_PPS_EN ≠ 0) ∧ (s.tim.lastAcc = some a) ∧ (a ≤ s.el) ∧ (s.el < a + 500000000)) ∧
    (∃ (a : Nat) (s : State), (s.tim.lastAcc = some a) ∧ (s.rd F.TIM_STS_PPS = 1) ∧ (a + s.rd F.TIM_CFG_HOLD_MS * 1000000 ≤ s.el)) ∧
    (∃ (sec : Nat) (s : State), (s.rd F.TIM_STS_PPS = 1)) ∧
    (∃ (sec : Nat) (s : State), (s.rd F.TIM_STS_PPS ≠ 1) ∧ (0 ≤ (s.el : Int) + s.tim.ofs)) ∧
    (∃ (p : Nat) (s : State), (p ≤ 1) ∧ (s.pathUp p = true)) ∧
    (∃ (n : Nat) (cmp : Nat) (period : Nat) (periodic : Bool) (s : State), (n < 16) ∧ (s.stopped = false)) ∧
    (∃ (n : Nat) (s : State), (n < 16) ∧ (s.counting = true) ∧ (s.rd F.PUP_TMR_CTL_EN n ≠ 0) ∧ (s.rd F.PUP_TMR_CMP_CMP n ≤ s.tns)) :=
  ⟨⟨.fn 0, 7, 1700000000000, 4, later upNs 55, served_at 0 (by decide +kernel), by decide +kernel⟩,
    ⟨.fn 0, 7, later upNs 55, served_at 0 (by decide +kernel)⟩,
    ⟨upPps, by decide +kernel⟩,
    ⟨{ upPps with tim := { upPps.tim with lastAcc := some 500000301 } }, 500000301, by decide +kernel⟩,
    ⟨200, later upPps 1000000000000, by decide +kernel⟩,
    ⟨5, upPps, by decide +kernel⟩,
    ⟨5, upNs, by decide +kernel⟩,
    ⟨1, upMi, by decide +kernel⟩,
    ⟨15, 18446744073709551615, 7, true, upNs, by decide +kernel⟩,
    ⟨15, ((upNs.wr F.PUP_TMR_CTL_EN 1 15).wr F.PUP_TMR_CTL_PERIODIC 1 15).wr F.PUP_TMR_CTL_PERIOD 7 15, by decide +kernel⟩⟩

/-- The hypotheses of `Obligations.EventsComplete`, clause by clause. -/
theorem witness_EventsComplete :
    (∃ (code : Nat) (slice : Nat) (arg : Nat) (s : State), (s.ras.evq.length < 1024)) ∧
    (∃ (code : Nat) (slice : Nat) (arg : Nat) (s : State), (1024 ≤ s.ras.evq.length)) :=
  ⟨⟨257, 1, 18446744073709551615, later upNs 5, by decide +kernel⟩,
    ⟨257, 1, 0, { upNs with ras := { upNs.ras with evq := List.replicate 1024 ⟨1, 2, 0, 3, 4⟩ } }, by decide +kernel⟩⟩

/-- The hypotheses of `Obligations.PowerStepsComplete`, clause by clause. -/
theorem witness_PowerStepsComplete :
    (∃ (o : Org) (cid : Nat) (ps : Nat) (s : State), (Served s o) ∧ (isMgr o = true) ∧ (ps ≤ 4 ∨ ps = 5 ∧ s.rd F.PWR_CFG_JACK_EN ≠ 0)) ∧
    (∃ (o : Org) (cid : Nat) (en : Bool) (ents : List (Nat × Nat)) (s : State), (Served s o) ∧ (isMgr o = true)) ∧
    (∃ (o : Org) (cid : Nat) (sensor : Nat) (kelvin : Nat) (under : Bool) (s : State), (Served s o) ∧ (sensor ≤ 8)) ∧
    (∃ (paces : List Nat) (s : State), (paces.length = 32) ∧ (s.counting = true)) ∧
    (∃ (paces : List Nat) (s : State) (n : Nat), (paces.length = 32) ∧ (s.counting = true) ∧ (s.stopped = false) ∧ (s.rd F.PUP_VREG_FAIL ≠ 1) ∧ (s.pup.waitMv = 0) ∧ (s.pwr.admStep = s.rd F.PWR_STEP_STEP) ∧ (s.pwr.widStep = s.rd F.PWR_STEP_STEP) ∧ (s.rd F.PWR_STEP_FLOOR = s.floorOf (s.rd F.PWR_STEP_STEP)) ∧ (s.rd F.PWR_STEP_FLOOR ≤ (lowest (paces.map (cut 16))).1) ∧ ((lowest (paces.map (cut 16))).1 * 1000 < s.rd F.PWR_STEP_FLOOR * (1000 + s.pwr.margin)) ∧ (n = min 5 ((s.el - s.pup.raisedAt) / 20000)) ∧ (0 < n) ∧ (600 ≤ s.rd F.PUP_VREG_TARGET_MV) ∧ (s.rd F.PUP_VREG_TARGET_MV + 5 * n ≤ 850)) ∧
    (∃ (mv : Nat) (iout : Nat) (status : Nat) (s : State), (s.stopped = false) ∧ (s.rd F.PUP_VREG_FAIL ≠ 1) ∧ (vregFault status = false)) ∧
    (∃ (mv : Nat) (iout : Nat) (status : Nat) (s : State), (s.stopped = false) ∧ (s.rd F.PUP_VREG_FAIL ≠ 1) ∧ (3 ≤ s.pup.vFails + 1)) ∧
    (∃ (mv : Nat) (iout : Nat) (status : Nat) (s : State), (s.stopped = false) ∧ (s.rd F.PUP_VREG_FAIL ≠ 1) ∧ (s.pup.vFails + 1 < 3)) ∧
    (∃ (mv : Nat) (iout : Nat) (status : Nat) (s : State), (s.stopped = false) ∧ (s.rd F.PUP_VREG_FAIL ≠ 0) ∧ (s.pup.vRetryAt + 10000000 ≤ s.el) ∧ (vregFault status = false)) ∧
    (∃ (raw : List Int) (s : State), (raw.length = 64) ∧ (s.counting = true)) ∧
    (∃ (n : Nat) (x : Int) (s : State), (n < 8) ∧ (s.rd F.THM_TS_CFG_KIND n ≠ 0) ∧ (s.counting = true) ∧ (s.rd F.THM_TS_STS_STATE n ≠ 2) ∧ (-320 ≤ x) ∧ (x ≤ 1200)) ∧
    (∃ (n : Nat) (x : Int) (s : State), (n < 8) ∧ (s.rd F.THM_TS_CFG_KIND n ≠ 0) ∧ (s.counting = true) ∧ (s.rd F.THM_TS_STS_STATE n ≠ 2) ∧ (x < -320 ∨ 1200 < x)) ∧
    (∃ (s : State), (s.stopped = false) ∧ (s.pwr.moveAt + s.rd F.THM_CFG_UP_MS * 10000000 ≤ s.el) ∧ (s.rd F.PWR_STEP_THERM = 0) ∧ (s.stepWant.1 < s.rd F.PWR_STEP_STEP)) ∧
    (∃ (s : State), (s.pwr.paceStep ≠ 0) ∧ (s.pwr.paceAt + tenSec ≤ s.el)) ∧
    (∃ (s : State), (s.stopped = false) ∧ (s.rd F.PWR_STEP_TBL_LIMIT_W (s.rd F.PWR_STEP_STEP) * 1000000 < s.corePower) ∧ (s.pwr.overAt = none)) ∧
    (∃ (s : State) (a : Nat), (s.stopped = false) ∧ (s.rd F.PWR_STEP_TBL_LIMIT_W (s.rd F.PWR_STEP_STEP) * 1000000 < s.corePower) ∧ (s.pwr.overAt = some a) ∧ (a + 10000000 ≤ s.el)) :=
  ⟨⟨.fn 0, 7, 5, upNs.wr F.PWR_CFG_JACK_EN 1, served_at 0 (by decide +kernel), by decide +kernel⟩,
    ⟨.fn 0, 7, true, [(1, 2), (3, 4)], upNs, served_at 0 (by decide +kernel), by decide +kernel⟩,
    ⟨.fn 1, 7, 8, 65535, false, upNs, served_at 1 (by decide +kernel), by decide +kernel⟩,
    ⟨List.replicate 32 70000, upNs, by decide +kernel⟩,
    ⟨List.replicate 32 300, (later { upNs with pwr := { upNs.pwr with margin := 30 } } 60000).wr F.PWR_STEP_FLOOR 300 |>.wr F.PUP_VREG_TARGET_MV 700, 3, by decide +kernel⟩,
    ⟨1023, 5, 0, upNs, by decide +kernel⟩,
    ⟨0, 0, 0, { upNs with pup := { upNs.pup with vFails := 2 } }, by decide +kernel⟩,
    ⟨0, 0, 0, upNs, by decide +kernel⟩,
    ⟨700, 0, 0, later ({ upNs with pup := { upNs.pup with vGood := 9 } }.wr F.PUP_VREG_FAIL 1) 10000000, by decide +kernel⟩,
    ⟨List.replicate 64 (-320), upNs, by decide +kernel⟩,
    ⟨7, -320, upNs.wr F.THM_TS_CFG_KIND 1 7, by decide +kernel⟩,
    ⟨7, 1201, upNs.wr F.THM_TS_CFG_KIND 1 7 |>.wr F.THM_TS_CFG_FAIL_VAL 200 7, by decide +kernel⟩,
    ⟨later (upNs.wr F.PWR_STEP_STEP 5) 1000000000000, by decide +kernel⟩,
    ⟨later { upNs with pwr := { upNs.pwr with paceStep := 3 } } 10000000000, by decide +kernel⟩,
    ⟨{ upNs with pup := { upNs.pup with vIout := (2000000, 0) } }.wr F.PUP_VREG_READ_MV 800, by decide +kernel⟩,
    ⟨later ({ upNs with pup := { upNs.pup with vIout := (2000000, 0) }, pwr := { upNs.pwr with overAt := some 0 } }.wr F.PUP_VREG_READ_MV 800) 10000000, 0, by decide +kernel⟩⟩

/-- The hypotheses of `Obligations.PowerStatesComplete`, clause by clause. -/
theorem witness_PowerStatesComplete :
    (∃ (s : State), (s.pwr.apstEn = false) ∧ (s.choice = pwDoze) ∧ (s.mayRest pwDoze = true) ∧ (∀ ch, ch < 8 → s.dreqs ch = [])) ∧
    (∃ (s : State), (s.pwr.apstEn = false) ∧ (s.choice = pwNap) ∧ (s.mayRest pwNap = true) ∧ (∀ ch, ch < 8 → s.dreqs ch = [])) ∧
    (∃ (s : State), (s.pwr.apstEn = false) ∧ (s.choice = pwJack) ∧ (s.mayRest pwJack = true)) ∧
    (∃ (s : State), (s.pwr.apstEn = false) ∧ (s.choice = pwJack) ∧ (s.mayRest pwJack = true)) ∧
    (∃ (code : Nat) (idx : Nat) (rsn : Nat) (s : State), (s.rd F.PWR_STS_STATE = pwDoze ∨ s.rd F.PWR_STS_STATE = pwNap) ∧ (s.leaves code idx (s.rd F.PWR_STS_STATE) = true)) ∧
    (∃ (code : Nat) (idx : Nat) (ns : Nat) (s : State), (s.pwr.jack = true) ∧ (s.leaves code idx pwJack = true) ∧ (s.pwr.wake = none)) ∧
    (∃ (p : Nat) (u : Nat) (dst : Nat) (b : List Nat) (s : State), (dst = s.rd F.ETH_MAC_ADDR p u ∨ dst = macAll) ∧ (p < 8) ∧ (u < s.subCount p) ∧ (beVal (octetsOf 0 4 b) = 0x485A574B) ∧ (beVal (octetsOf 4 8 b) = s.rd F.ETH_WAKE_ID_ID p) ∧ ((s.rd F.PWR_STS_STATE = pwDoze ∧ s.link p u = lkUp) ∨ (s.rd F.PWR_STS_STATE = pwNap ∧ s.link p u = lkWake ∧ s.pwr.modes.getD p 0 = 2))) :=
  ⟨⟨later (up.wr F.PWR_STS_NVME_PS 3) 100000000000, by decide +kernel⟩,
    ⟨later (up.wr F.PWR_STS_NVME_PS 4) 100000000000, by decide +kernel⟩,
    ⟨later ((up.wr F.PWR_STS_NVME_PS 5).wr F.PWR_CFG_JACK_EN 1) 100000000000, by decide +kernel⟩,
    ⟨later ((up.wr F.PWR_STS_NVME_PS 5).wr F.PWR_CFG_JACK_EN 1) 100000000000, by decide +kernel⟩,
    ⟨7, 0, 77, up.wr F.PWR_STS_STATE pwNap, by decide +kernel⟩,
    ⟨6, 2, 5, { upJack with pwr := { upJack.pwr with wake := none } }.wr F.PWR_WAKE_EN_TS 4, by decide +kernel⟩,
    ⟨7, 0, macAll, [0x48, 0x5A, 0x57, 0x4B, 0, 0, 0, 0, 0, 0, 0, 0, 255, 254], (up.wr F.PWR_STS_STATE pwDoze).wr F.ETH_SUB_STS_LINK lkUp 7 0, .inr rfl, by decide +kernel⟩⟩

/-- The hypotheses of `Obligations.LedgerAndDoorbellsComplete`, clause by clause. -/
theorem witness_LedgerAndDoorbellsComplete :
    (∃ (s : State), (s.el < s.sl.epochAt + 1000000)) ∧
    (∃ (s : State), (s.sl.epochAt + 1000000 ≤ s.el) ∧ (s.cap.streams = []) ∧ (s.cap.rx = [])) ∧
    (∃ (f : Nat) (qid : Nat) (v : Nat) (i : Nat) (g : FnSt) (q : Queue) (s : State), (Tab.find f s.fns = some g) ∧ (s.counting = true) ∧ (s.awake = true) ∧ (s.sl.qs.find? (fun e => !e.2.fabric && e.2.func = f && e.2.qid = qid) = some (i, q)) ∧ (s.slState q.slice ≠ slResetting) ∧ (s.resetting i = false) ∧ (v < q.size)) ∧
    (∃ (f : Nat) (qid : Nat) (v : Nat) (i : Nat) (g : FnSt) (q : Queue) (s : State), (Tab.find f s.fns = some g) ∧ (s.counting = true) ∧ (s.awake = true) ∧ (s.sl.qs.find? (fun e => !e.2.fabric && e.2.func = f && e.2.qid = qid) = some (i, q)) ∧ (s.slState q.slice ≠ slResetting) ∧ (s.resetting i = false) ∧ (q.size ≤ v)) ∧
    (∃ (f : Nat) (qid : Nat) (v : Nat) (g : FnSt) (c : CQ) (s : State), (Tab.find f s.fns = some g) ∧ (s.counting = true) ∧ (s.awake = true) ∧ (s.sl.cqs.find? (fun c => c.func = f && c.cqid = qid) = some c) ∧ (v < c.size) ∧ (∀ e ∈ s.sl.qs, e.2.fabric = false → e.2.func = f → e.2.cqid = qid → s.slState e.2.slice ≠ slResetting ∧ s.resetting e.1 = false)) ∧
    (∃ (f : Nat) (qid : Nat) (v : Nat) (g : FnSt) (s : State), (Tab.find f s.fns = some g) ∧ (s.counting = true) ∧ (s.awake = true) ∧ (s.sl.qs.find? (fun e => !e.2.fabric && e.2.func = f && e.2.qid = qid) = none)) ∧
    (∃ (cid : Nat) (i : Nat) (k : Nat) (q : Queue) (p : Arr) (s : State), (s.awake = true) ∧ (s.counting = true) ∧ (s.img.admReady = true) ∧ (s.bestQueue (s.sl.qs.filter (fun e => s.fetchable e.1 e.2)) = some (i, q)) ∧ (q.pend.head? = some p) ∧ (k = p.cid.getD cid) ∧ (q.qid = 0)) ∧
    (∃ (cid : Nat) (i : Nat) (k : Nat) (q : Queue) (p : Arr) (s : State), (DmaOk s q (q.base + 64 * q.head) 64 false) ∧ (s.awake = true) ∧ (s.counting = true) ∧ (s.img.admReady = true) ∧ (s.bestQueue (s.sl.qs.filter (fun e => s.fetchable e.1 e.2)) = some (i, q)) ∧ (q.pend.head? = some p) ∧ (k = p.cid.getD cid) ∧ (q.qid ≠ 0) ∧ (p.bad = false) ∧ (s.cmdOf i k = none)) ∧
    (∃ (cid : Nat) (i : Nat) (k : Nat) (q : Queue) (p : Arr) (s : State), (s.awake = true) ∧ (s.counting = true) ∧ (s.img.admReady = true) ∧ (s.bestQueue (s.sl.qs.filter (fun e => s.fetchable e.1 e.2)) = some (i, q)) ∧ (q.pend.head? = some p) ∧ (k = p.cid.getD cid) ∧ (q.qid ≠ 0) ∧ (p.bad = true) ∧ (s.cmdOf i k = none) ∧ (Tab.find i s.sl.qs = some q)) ∧
    (∃ (cid : Nat) (i : Nat) (k : Nat) (q : Queue) (p : Arr) (s : State), (s.awake = true) ∧ (s.counting = true) ∧ (s.img.admReady = true) ∧ (s.bestQueue (s.sl.qs.filter (fun e => s.fetchable e.1 e.2)) = some (i, q)) ∧ (q.pend.head? = some p) ∧ (k = p.cid.getD cid) ∧ (q.slice ≠ 0) ∧ (s.slState q.slice = slActive) ∧ (s.sl.waits = [])) ∧
    (∃ (cid : Nat) (i : Nat) (k : Nat) (q : Queue) (p : Arr) (s : State), (s.awake = true) ∧ (s.counting = true) ∧ (s.img.admReady = true) ∧ (s.bestQueue (s.sl.qs.filter (fun e => s.fetchable e.1 e.2)) = some (i, q)) ∧ (q.pend.head? = some p) ∧ (k = p.cid.getD cid) ∧ (q.slice = 0) ∧ (q.qid ≠ 0)) ∧
    (∃ (cid : Nat) (i : Nat) (k : Nat) (q : Queue) (p : Arr) (s : State), (s.awake = true) ∧ (s.counting = true) ∧ (s.img.admReady = true) ∧ (s.bestQueue (s.sl.qs.filter (fun e => s.fetchable e.1 e.2)) = some (i, q)) ∧ (q.pend.head? = some p) ∧ (k = p.cid.getD cid) ∧ (q.slice = 0) ∧ (q.qid = 0)) :=
  ⟨⟨later up1 999999, by decide +kernel⟩,
    ⟨later (((up1.wr F.LGR_SL_CHG_CHG 77 1).putSx 1 { SliceX.fresh with pendWeight := some 9, bIn := -5 }).wr F.LGR_SL_NORM_N 5 1) 1000000, by decide +kernel⟩,
    ⟨1, 1, 15, 5, { FnSt.pf 0 with bme := true, mse := true, ccEn := true, rdy := true }, { q5 with tail := 14 }, up1.putQ 5 { q5 with tail := 14 }, by decide +kernel⟩,
    ⟨1, 1, 16, 5, { FnSt.pf 0 with bme := true, mse := true, ccEn := true, rdy := true }, q5, up1, by decide +kernel⟩,
    ⟨1, 1, 15, { FnSt.pf 0 with bme := true, mse := true, ccEn := true, rdy := true }, ⟨1, 1, 1, 16, 0, 0⟩, up1, by decide +kernel⟩,
    ⟨1, 2, 15, { FnSt.pf 0 with bme := true, mse := true, ccEn := true, rdy := true }, up1, by decide +kernel⟩,
    ⟨7, 0, 7, { adminQ with pend := [arr0] }, arr0, upQ 0 { adminQ with pend := [arr0] }, by decide +kernel⟩,
    ⟨7, 5, 7, { q5 with pend := [arr0, arr0] }, arr0, upQ 5 { q5 with pend := [arr0, arr0] }, by unfold DmaOk; decide +kernel, by decide +kernel⟩,
    ⟨7, 5, 9, { q5 with pend := [{ arr0 with cid := some 9, bad := true }] }, { arr0 with cid := some 9, bad := true }, upQ 5 { q5 with pend := [{ arr0 with cid := some 9, bad := true }] }, by decide +kernel⟩,
    ⟨7, 5, 7, { q5 with pend := [arr0, arr0] }, arr0, upQ 5 { q5 with pend := [arr0, arr0] }, by decide +kernel⟩,
    ⟨7, 5, 7, { q5 with slice := 0, pend := [arr0] }, arr0, upQ 5 { q5 with slice := 0, pend := [arr0] }, by decide +kernel⟩,
    ⟨7, 0, 7, { adminQ with pend := [arr0] }, arr0, upQ 0 { adminQ with pend := [arr0] }, by decide +kernel⟩⟩

/-- The hypotheses of `Obligations.MailboxAndFailoverComplete`, clause by clause. -/
theorem witness_MailboxAndFailoverComplete :
    (∃ (s : State), (s.rd F.PUP_STS_MASKED = 0) ∧ (s.pup.insvc.length < 128) ∧ (s.stopped = false) ∧ (s.pup.pend ≠ [])) ∧
    (∃ (s : State), (s.rd F.PUP_STS_MASKED = 1 ∨ 128 ≤ s.pup.insvc.length)) ∧
    (∃ (s : State), (s.stopped = false)) ∧
    (∃ (pass : Bool) (s : State), (s.rd F.PUP_STS_SPARE = 0) ∧ (s.stopped = false) ∧ (s.swapping = false) ∧ (s.pup.wdtAt + s.rd F.PUP_WDT_PERIOD * 1000000 ≤ s.el)) ∧
    (∃ (pass : Bool) (s : State), (s.rd F.PUP_STS_SPARE = 0) ∧ (s.stopped = false) ∧ (s.swapping = false)) ∧
    (∃ (pass : Bool) (s : State), (s.rd F.PUP_STS_SPARE = 0) ∧ (s.stopped = false)) ∧
    (∃ (pass : Bool) (s : State), (s.rd F.PUP_STS_SPARE = 2) ∧ (s.stopped = false) ∧ (s.swapping = false)) ∧
    (∃ (pass : Bool) (s : State), (s.stopped = false) ∧ (s.pup.testAt + tenSec ≤ s.el)) :=
  ⟨⟨{ up with pup := { up.pup with pend := [mbx 5 9 1, mbx 4 3 2, mbx 2 3 3], insvc := List.replicate 127 (mbx 1 1 9) } }, by decide +kernel⟩,
    ⟨{ up with pup := { up.pup with pend := [mbx 5 9 1], insvc := List.replicate 128 (mbx 1 1 9) } }, by decide +kernel⟩,
    ⟨later up 5, by decide +kernel⟩,
    ⟨true, later { up with pup := { up.pup with insvc := [mbx 5 9 9], pend := [mbx 1 1 1] } } 100000000000, by decide +kernel⟩,
    ⟨false, later { up with pup := { up.pup with insvc := [mbx 5 9 9] } } 7, by decide +kernel⟩,
    ⟨false, later { up with pup := { up.pup with insvc := [mbx 5 9 9] } } 7, by decide +kernel⟩,
    ⟨false, up.wr F.PUP_STS_SPARE 2, by decide +kernel⟩,
    ⟨true, later (up.wr F.PUP_STS_SPARE 2) 10000000000, by decide +kernel⟩⟩

/-- The hypotheses of `Obligations.ParityAndExchangeComplete`, clause by clause. -/
theorem witness_ParityAndExchangeComplete :
    (∃ (off : Nat) (pass : Bool) (s : State), (s.stopped = false) ∧ (s.rd F.PUP_STS_BANK < s.pup.itcm.length)) ∧
    (∃ (off : Nat) (pass : Bool) (s : State), (s.rd F.PUP_STS_SPARE = 0) ∧ (s.stopped = false)) ∧
    (∃ (core : Nat) (line : Nat) (data : Bool) (s : State), (core < 4)) ∧
    (∃ (c : Nat) (done : Nat) (addr : Nat) (s : State), (c < 8)) ∧
    (∃ (c : Nat) (s : State), (c < 8) ∧ (s.stopped = false) ∧ (s.swapping = false) ∧ (s.rd F.PUP_STS_BANK ≤ 1) ∧ (s.pup.itcm.length = 2)) ∧
    (∃ (c : Nat) (s : State), (c < 8) ∧ (s.stopped = false) ∧ (s.swapping = false) ∧ (s.rd F.PUP_STS_BANK ≤ 1) ∧ (s.pup.itcm.length = 2)) ∧
    (∃ (dur : Nat) (dma : Nat) (s : State), (s.stopped = false) ∧ (s.pup.insvc = []) ∧ (s.rd F.PUP_STS_SWAP = 1) ∧ (∀ c, c < 8 → bit dma c = false)) ∧
    (∃ (dur : Nat) (dma : Nat) (s : State), (s.stopped = false) ∧ (s.pup.insvc ≠ [])) ∧
    (∃ (dur : Nat) (dma : Nat) (s : State) (c : Nat), (s.stopped = false) ∧ (c < 8) ∧ (bit dma c = true) ∧ (s.pup.insvc = []) ∧ (s.rd F.PUP_STS_SWAP = 1)) ∧
    (∃ (s : State), (s.swapping = true) ∧ (s.stopped = false) ∧ (s.pup.exch = none)) ∧
    (∃ (k : Nat) (cid : Nat) (o : Org) (s : State), (s.swapping = true) ∧ (s.stopped = false) ∧ (s.pup.exch = some (k, o, cid))) ∧
    (∃ (s : State), (s.swapping = true) ∧ (s.pup.goAt + s.rd F.PUP_WDT_COMMIT_MS * 1000000 ≤ s.el) ∧ (s.pup.exch = none)) ∧
    (∃ (k : Nat) (cid : Nat) (o : Org) (s : State), (s.swapping = true) ∧ (s.pup.goAt + s.rd F.PUP_WDT_COMMIT_MS * 1000000 ≤ s.el) ∧ (s.pup.exch = some (k, o, cid))) :=
  ⟨⟨7, false, upMi, by decide +kernel⟩,
    ⟨7, false, upMi, by decide +kernel⟩,
    ⟨1, 3, true, { upMi with pup := { upMi.pup with l1 := [(0, true, 3), (2, true, 3)] } }, by decide +kernel⟩,
    ⟨7, 9, 4, upMi, by decide +kernel⟩,
    ⟨7, { upMi with img := { upMi.img with mirror := [[], [1, 2, 3]] } }, by decide +kernel⟩,
    ⟨7, { upMi with img := { upMi.img with mirror := [[], [1, 2, 3]] } }, by decide +kernel⟩,
    ⟨70000, 256, upMi.wr F.PUP_STS_SWAP 1, by decide +kernel⟩,
    ⟨70, 0, { upMi with pup := { upMi.pup with insvc := [mbx 1 1 1] } }, by decide +kernel⟩,
    ⟨7, 128, upMi.wr F.PUP_STS_SWAP 1, 7, by decide +kernel⟩,
    ⟨upMi.wr F.PUP_STS_SWAP 3, by decide +kernel⟩,
    ⟨1, 7, .mi, ({ upMi with pup := { upMi.pup with exch := some (1, .mi, 7) } }).wr F.PUP_STS_SWAP 3, by decide +kernel⟩,
    ⟨later (upMi.wr F.PUP_STS_SWAP 3) 100000000000, by decide +kernel⟩,
    ⟨1, 7, .mi, later (({ upMi with pup := { upMi.pup with exch := some (1, .mi, 7) } }).wr F.PUP_STS_SWAP 3) 100000000000, by decide +kernel⟩⟩

/-- The hypotheses of `Obligations.ManagementInterfaceComplete`, clause by clause. -/
theorem witness_ManagementInterfaceComplete :
    (∃ (vdm : Bool) (ty : Nat) (s : State), (MiServed s vdm)) ∧
    (∃ (vdm : Bool) (s : State), (MiServed s vdm)) ∧
    (∃ (vdm : Bool) (n : Nat) (f : FnSt) (s : State), (MiServed s vdm) ∧ (s.fn n = some f)) ∧
    (∃ (vdm : Bool) (n : Nat) (s : State), (MiServed s vdm) ∧ (s.fn n = none)) ∧
    (∃ (vdm : Bool) (id : Nat) (v : Nat) (s : State), (MiServed s vdm) ∧ (1 ≤ id) ∧ (id ≤ 3) ∧ (Tab.find id s.pup.miCfg = some v)) ∧
    (∃ (vdm : Bool) (s : State), (MiServed s vdm) ∧ (s.pup.miCfg = [])) ∧
    (∃ (vdm : Bool) (id : Nat) (v : Nat) (s : State), (MiServed s vdm) ∧ (miCfgTakes id v = true)) ∧
    (∃ (vdm : Bool) (off : Nat) (len : Nat) (s : State), (MiServed s vdm) ∧ (off + len ≤ 256)) ∧
    (∃ (vdm : Bool) (off : Nat) (data : List Nat) (s : State), (MiServed s vdm) ∧ (off + data.length ≤ 256)) ∧
    (∃ (vdm : Bool) (s : State), (MiServed s vdm)) ∧
    (∃ (vdm : Bool) (o : Org) (cid : Nat) (s : State), (MiServed s vdm)) ∧
    (∃ (vdm : Bool) (s : State), (MiServed s vdm)) ∧
    (∃ (s : State), (MiServed s false)) ∧
    (∃ (vdm : Bool) (a : Nat) (len : Nat) (s : State), (MiServed s vdm) ∧ (regSpan a len = true)) ∧
    (∃ (vdm : Bool) (a : Nat) (len : Nat) (s : State), (MiServed s vdm) ∧ (regSpan a len = false)) ∧
    (∃ (vdm : Bool) (w : Nat) (s : State), (MiServed s vdm)) :=
  ⟨⟨true, 2, upMi, by constructor <;> decide +kernel⟩,
    ⟨false, upMi, by constructor <;> decide +kernel⟩,
    ⟨false, 0, { FnSt.pf 0 with bme := true, mse := true, ccEn := true, rdy := true }, upMi, by constructor <;> decide +kernel, by decide +kernel⟩,
    ⟨false, 3, upMi, by constructor <;> decide +kernel, by decide +kernel⟩,
    ⟨false, 3, 64, { upMi with pup := { upMi.pup with miCfg := [(3, 64)] } }, by constructor <;> decide +kernel, by decide +kernel⟩,
    ⟨false, upMi, by constructor <;> decide +kernel, by decide +kernel⟩,
    ⟨false, 1, 2, upMi, by constructor <;> decide +kernel, by decide +kernel⟩,
    ⟨false, 250, 6, { upMi with pup := { upMi.pup with vpd := [(255, 3)] } }, by constructor <;> decide +kernel, by decide +kernel⟩,
    ⟨false, 254, [7, 256], { upMi with pup := { upMi.pup with vpd := [(253, 5), (255, 3)] } }, by constructor <;> decide +kernel, by decide +kernel⟩,
    ⟨false, upMi, by constructor <;> decide +kernel⟩,
    ⟨false, .fn 3, 7, upMi, by constructor <;> decide +kernel⟩,
    ⟨false, upMi, by constructor <;> decide +kernel⟩,
    ⟨upMi, by constructor <;> decide +kernel⟩,
    ⟨false, 67108860, 4, upMi, by constructor <;> decide +kernel, by decide +kernel⟩,
    ⟨false, 67108860, 8, upMi, by constructor <;> decide +kernel, by decide +kernel⟩,
    ⟨false, 4294967297, upMi, by constructor <;> decide +kernel⟩⟩

/-- The hypotheses of `Obligations.RegisterAccessComplete`, clause by clause. -/
theorem witness_RegisterAccessComplete :
    (∃ (v : Nat) (s : State), (WritesOn s 0)) ∧
    (∃ (a : Nat) (v : Nat) (s : State), (WritesOn s 0) ∧ (a < 2 ^ 26) ∧ (a % 4 = 0) ∧ (locate a regTable = none)) ∧
    (∃ (a : Nat) (len : Nat) (v : Nat) (full : Bool) (s : State), (s.barUp = true) ∧ (a < 2 ^ 26) ∧ ((len ≠ 4 ∧ len ≠ 8) ∨ a % len ≠ 0)) ∧
    (∃ (a : Nat) (v : Nat) (s : State), (s.barUp = true) ∧ (a < 2 ^ 26) ∧ (a % 4 = 0)) ∧
    (∃ (a : Nat) (v : Nat) (s : State), (s.barUp = true) ∧ (s.gen.inReset = true) ∧ (2 ^ 16 ≤ a) ∧ (a < 2 ^ 26) ∧ (a % 4 = 0)) ∧
    (∃ (s : State), (s.barUp = true) ∧ (s.gen.latch = [])) ∧
    (∃ (a : Nat) (len : Nat) (full : Bool) (s : State), (s.barUp = true) ∧ (a < 2 ^ 26) ∧ (8 < len)) ∧
    (∃ (p : Nat) (s : State), (WritesOn s p) ∧ (s.resetRefused = false) ∧ (s.swapping = false) ∧ (s.dirtyLines = []) ∧ (s.cap.streams = [])) ∧
    (∃ (p : Nat) (key : Nat) (s : State), (WritesOn s p) ∧ (cut 16 key ≠ 0xA5C3)) :=
  ⟨⟨4294967295, up, by unfold WritesOn; decide +kernel⟩,
    ⟨65532, 5, up, by unfold WritesOn; decide +kernel, by decide +kernel⟩,
    ⟨6, 4, 5, true, up, by decide +kernel⟩,
    ⟨262164, 5, up, by decide +kernel⟩,
    ⟨65536, 5, { up with gen := { up.gen with inReset := true } }, by decide +kernel⟩,
    ⟨up.wr F.MCACHE_POISON_CNT 4294967295, by decide +kernel⟩,
    ⟨0, 16, false, up, by decide +kernel⟩,
    ⟨1, upMi, by unfold WritesOn; decide +kernel, by decide +kernel⟩,
    ⟨0, 3, up, by unfold WritesOn; decide +kernel, by decide +kernel⟩⟩

/-- The hypotheses of `Obligations.ActingRegistersComplete`, clause by clause. -/
theorem witness_ActingRegistersComplete :
    (∃ (p : Nat) (k : Nat) (us : Nat) (s : State), (WritesOn s p) ∧ (k < 8) ∧ (∀ i, i < 6 → (if i = k then cut 24 us else s.rd F.LGR_LC_TGT_TARGET i) ≤ (if i + 1 = k then cut 24 us else s.rd F.LGR_LC_TGT_TARGET (i + 1)))) ∧
    (∃ (p : Nat) (us : Nat) (s : State), (WritesOn s p) ∧ (cut 24 us < s.rd F.LGR_LC_TGT_TARGET 2)) ∧
    (∃ (p : Nat) (k : Nat) (vec : Nat) (en : Bool) (s : State), (WritesOn s p) ∧ (k < 8) ∧ (∀ c ∈ s.sl.cqs, c.func = 0 → c.vec ≠ cut 11 vec)) ∧
    (∃ (p : Nat) (k : Nat) (vec : Nat) (en : Bool) (c : CQ) (s : State), (WritesOn s p) ∧ (k < 8) ∧ (c ∈ s.sl.cqs) ∧ (c.func = 0) ∧ (c.vec = cut 11 vec)) ∧
    (∃ (p : Nat) (low : Nat) (crit : Nat) (start : Nat) (ahead : Nat) (s : State), (WritesOn s p) ∧ (cut 8 crit < cut 8 low) ∧ (cut 8 low ≤ cut 8 start)) ∧
    (∃ (p : Nat) (low : Nat) (crit : Nat) (start : Nat) (ahead : Nat) (s : State), (WritesOn s p) ∧ (¬(cut 8 crit < cut 8 low ∧ cut 8 low ≤ cut 8 start))) ∧
    (∃ (p : Nat) (d : Nat) (s : State), (WritesOn s p) ∧ (d < 4096) ∧ ((s.dieOf d).present = true) ∧ ((s.dieOf d).retired = false)) ∧
    (∃ (p : Nat) (w : Nat) (s : State), (p ≤ 1) ∧ (s.pathUp p = true) ∧ (s.rd F.IMG_STS_PHASE = 1)) :=
  ⟨⟨0, 7, 16777215, up, by unfold WritesOn; decide +kernel, by decide +kernel⟩,
    ⟨0, 100, up, by unfold WritesOn; decide +kernel, by decide +kernel⟩,
    ⟨0, 7, 2047, true, up, by unfold WritesOn; decide +kernel, by decide +kernel⟩,
    ⟨0, 7, 2048, true, ⟨0, 0, 0, 4096, 0, 0⟩, up, by unfold WritesOn; decide +kernel, by decide +kernel⟩,
    ⟨0, 20, 19, 20, 15, up, by unfold WritesOn; decide +kernel, by decide +kernel⟩,
    ⟨0, 20, 20, 30, 0, up, by unfold WritesOn; decide +kernel, by decide +kernel⟩,
    ⟨1, 4095, (upMi.putDie 4095 { DieSt.absent with present := true, reach := true }), by unfold WritesOn; decide +kernel, by decide +kernel⟩,
    ⟨1, 1, upMi, by decide +kernel⟩⟩

/-- The hypotheses of `Obligations.CipherComplete`, clause by clause. -/
theorem witness_CipherComplete :
    (∃ (u : Nat) (s : State), (u < 64) ∧ ((s.unitOf 0 u).state = 0) ∧ (s.cap.blks = [])) ∧
    (∃ (s : State), (s.rd F.CIP_STS_RNG_FAIL = 0) ∧ (s.ras.evq.length < 1024)) ∧
    (∃ (n : Nat) (s : State), (s.rd F.CIP_STS_RNG_FAIL = 1) ∧ (1024 ≤ s.cip.passes + n)) ∧
    (∃ (n : Nat) (s : State), (s.rd F.CIP_STS_RNG_FAIL = 1) ∧ (s.cip.passes + n < 1024)) ∧
    (∃ (i : Nat) (k : KeySlot) (s : State), (Tab.find i s.cip.slots = some k) ∧ (k.st = 1) ∧ (k.dying = false) ∧ (∀ c ∈ s.zn.cmds, c.st ≠ .key)) ∧
    (∃ (i : Nat) (k : KeySlot) (s : State), (Tab.find i s.cip.slots = some k) ∧ (k.st = 1) ∧ (k.dying = false) ∧ (k.purpose = 1) ∧ (∀ c ∈ s.zn.cmds, c.st ≠ .key)) :=
  ⟨⟨63, up, by decide +kernel⟩,
    ⟨up, by decide +kernel⟩,
    ⟨1, ({ up with cip := { up.cip with passes := 1023 } }).wr F.CIP_STS_RNG_FAIL 1, by decide +kernel⟩,
    ⟨1, ({ up with cip := { up.cip with passes := 1022 } }).wr F.CIP_STS_RNG_FAIL 1, by decide +kernel⟩,
    ⟨4095, ⟨1, 1, 2, 3, 0, 0, false⟩, { up with cip := { up.cip with slots := [(4095, ⟨1, 1, 2, 3, 0, 0, false⟩)] } }, by decide +kernel⟩,
    ⟨4095, ⟨1, 1, 2, 3, 1, 0, false⟩, { up with cip := { up.cip with slots := [(4095, ⟨1, 1, 2, 3, 1, 0, false⟩)] } }, by decide +kernel⟩⟩

/-- The hypotheses of `Obligations.DramComplete`, clause by clause. -/
theorem witness_DramComplete :
    (∃ (ch : Nat) (rk : Nat) (s : State), (s.rankOk ch rk = true) ∧ (s.drc.sref = false) ∧ ((s.rank (ch * 2 + rk)).owed < 4)) ∧
    (∃ (ch : Nat) (rk : Nat) (s : State), (s.rankOk ch rk = true) ∧ (s.drc.sref = false) ∧ (s.rankUrgent ch rk = false) ∧ (s.rd F.DRC_REF_CFG_MODE ≠ 0)) ∧
    (∃ (ch : Nat) (rk : Nat) (s : State), (s.rankOk ch rk = true) ∧ (s.drc.sref = false) ∧ (s.rankUrgent ch rk = false) ∧ (s.rd F.DRC_REF_CFG_MODE = 0) ∧ ((s.rank (ch * 2 + rk)).owed = 0)) ∧
    (∃ (ch : Nat) (code : Nat) (s : State), (ch < 8) ∧ (s.rd F.DRC_CFG_DUAL = 0)) ∧
    (∃ (ch : Nat) (code : Nat) (s : State), (ch < 8) ∧ (s.rd F.DRC_CFG_DUAL = 0) ∧ ((s.rank (ch * 2)).dbl = true) ∧ ((s.rank (ch * 2)).cool = 1)) ∧
    (∃ (dpa : Nat) (s : State), (∀ e ∈ (Tab.find (s.bankOf dpa) s.drc.act).getD [], e.1 ≠ s.rowOfDpa dpa) ∧ (((Tab.find (s.bankOf dpa) s.drc.act).getD []).length < 32) ∧ (1 < s.rd F.DRC_REF_CFG_ACT_TH)) ∧
    (∃ (dpa : Nat) (n : Nat) (s : State), (((Tab.find (s.bankOf dpa) s.drc.act).getD []).find? (fun e => e.1 = s.rowOfDpa dpa) = some (s.rowOfDpa dpa, n)) ∧ (s.rd F.DRC_REF_CFG_ACT_TH ≤ n + 1)) ∧
    (∃ (ch : Nat) (rk : Nat) (s : State), ((s.rank (ch * 2 + rk)).windowEnd ≤ s.el)) ∧
    (∃ (sym : Nat) (rg : Nat) (a : Nat) (b : Nat) (s : State), (s.scrubOn = true) ∧ (s.drc.poison.contains (s.drc.scrub % s.bursts) = false) ∧ ((s.drc.scrub % s.bursts + 1) % 16384 ≠ 0) ∧ (s.dreqs (s.chOf (s.drc.scrub % s.bursts * 64)) = [])) ∧
    (∃ (oc : Nat) (sym : Nat) (rg : Nat) (a : Nat) (b : Nat) (s : State), (s.scrubOn = true) ∧ ((s.drc.scrub % s.bursts + 1) % 16384 ≠ 0)) ∧
    (∃ (sym : Nat) (rg : Nat) (a : Nat) (b : Nat) (s : State), (s.scrubOn = true) ∧ (s.drc.poison.contains (s.drc.scrub % s.bursts) = false) ∧ (s.dreqs (s.chOf (s.drc.scrub % s.bursts * 64)) = [])) ∧
    (∃ (sym : Nat) (rg : Nat) (a : Nat) (b : Nat) (s : State), (s.scrubOn = true) ∧ (s.ras.evq.length < 1024) ∧ (s.dreqs (s.chOf (s.drc.scrub % s.bursts * 64)) = [])) :=
  ⟨⟨7, 0, upDr.putRank 14 ⟨3, false, 0, 0, 0, 0⟩, by decide +kernel⟩,
    ⟨7, 0, (upDr.putRank 14 ⟨4, false, 0, 0, 0, 0⟩).wr F.DRC_REF_CFG_MODE 1, by decide +kernel⟩,
    ⟨7, 0, upDr.putRank 14 ⟨0, false, 0, 3, 0, 0⟩, by decide +kernel⟩,
    ⟨7, 5, upDr, by decide +kernel⟩,
    ⟨7, 5, upDr.putRank 14 ⟨0, true, 1, 0, 0, 0⟩, by decide +kernel⟩,
    ⟨12345678, upDr, by decide +kernel⟩,
    ⟨12345678, 1023, { upDr with drc := { upDr.drc with act := [(upDr.bankOf 12345678, [(upDr.rowOfDpa 12345678, 1023)])] } }, by decide +kernel⟩,
    ⟨3, 0, later { upDr with drc := { upDr.drc with act := [(upDr.bankOf 12345678, [(1, 2)]), (390, [(4, 4)])] } } 32000000, by decide +kernel⟩,
    ⟨0, 0, 0, 0, { upDr with drc := { upDr.drc with scrub := 268435454 } }, by decide +kernel⟩,
    ⟨0, 0, 0, 0, 0, { upDr with drc := { upDr.drc with scrub := 268435454 } }, by decide +kernel⟩,
    ⟨9, 0, 0, 0, { upDr with drc := { upDr.drc with scrub := 268435455 } }, by decide +kernel⟩,
    ⟨0, 0, 0, 0, upDr, by decide +kernel⟩⟩

/-- The hypotheses of `Obligations.CxlComplete`, clause by clause. -/
theorem witness_CxlComplete :
    (∃ (hpa : Nat) (base : Nat) (size : Nat) (e : XltEnt) (s : State), (CxlServes s hpa base size e) ∧ (e.rd = true) ∧ (s.drc.poison.contains ((hpa - base) / 64) = false) ∧ (s.dreqs (s.chOf (hpa - base)) = [])) ∧
    (∃ (hpa : Nat) (base : Nat) (size : Nat) (err : Nat) (sym : Nat) (e : XltEnt) (s : State), (CxlServes s hpa base size e) ∧ (e.rd = true) ∧ (s.dreqs (s.chOf (hpa - base)) = []) ∧ (2 ≤ err) ∧ (s.ras.evq.length < 1024)) ∧
    (∃ (hpa : Nat) (base : Nat) (size : Nat) (e : XltEnt) (s : State), (CxlServes s hpa base size e) ∧ (e.rd = true)) ∧
    (∃ (hpa : Nat) (base : Nat) (size : Nat) (ha : Nat) (a : DReq) (e : XltEnt) (s : State), (CxlServes s hpa base size e) ∧ (e.rd = true) ∧ (s.dreqs (s.chOf (hpa - base)) = [a]) ∧ (a.act = .read ha 0 0) ∧ (s.drc.poison.contains (a.dpa / 64) = false) ∧ (s.urg s.el (s.el + s.rd F.DRC_PORT_TGT_TGT_NS 2) < s.drcUrg a)) ∧
    (∃ (hpa : Nat) (s : State), (s.cxlOn = true) ∧ (s.stg.commits = true) ∧ (s.awake = true) ∧ (s.pcx.hdm = none)) ∧
    (∃ (hpa : Nat) (data : Nat) (mask : Nat) (base : Nat) (size : Nat) (e : XltEnt) (s : State), (CxlServes s hpa base size e) ∧ (e.wr = true) ∧ (s.drc.poison = []) ∧ (s.persistent (hpa - base) = true → s.stg.dirty.length < s.dirtyMax) ∧ (s.pcx.heldWr = []) ∧ (s.dreqs (s.chOf (hpa - base)) = [])) ∧
    (∃ (hpa : Nat) (data : Nat) (mask : Nat) (base : Nat) (size : Nat) (e : XltEnt) (s : State), (CxlServes s hpa base size e) ∧ (e.wr = true) ∧ (s.persistent (hpa - base) = true) ∧ (s.dirtyMax ≤ s.stg.dirty.length) ∧ (s.dreqs (s.chOf (hpa - base)) = [])) ∧
    (∃ (g : Nat) (s : State), (g ∈ s.stg.dirty) ∧ (g ∉ s.pcx.wb)) ∧
    (∃ (g : Nat) (s : State), (g ∈ s.pcx.wb) ∧ (s.pcx.heldWr = []) ∧ (s.pcx.gpf = none)) ∧
    (∃ (s : State), (s.cxlOn = true)) ∧
    (∃ (s : State), (s.cxlOn = true) ∧ (s.pcx.gpf = none) ∧ (s.stg.dirty = [])) ∧
    (∃ (s : State), (s.cxlOn = true) ∧ (s.pcx.gpf = none) ∧ (s.stg.dirty ≠ [])) ∧
    (∃ (base : Nat) (size : Nat) (s : State), (s.rd F.PCX_LINK_STS_UP 0 = 1) ∧ (s.rd F.PCX_CXL_STS_ACTIVE = 1)) :=
  ⟨⟨4160, 4096, 17179869184, xe, upCxl.putBurst 1 77, by constructor <;> decide +kernel, by decide +kernel⟩,
    ⟨4160, 4096, 17179869184, 3, 0, xe, upCxl.putBurst 1 77, by constructor <;> decide +kernel, by decide +kernel⟩,
    ⟨4160, 4096, 17179869184, xe, upCxl.putBurst 1 77, by constructor <;> decide +kernel, by decide +kernel⟩,
    ⟨4160, 4096, 17179869184, 4096, ⟨2, 0, 0, 10, .read 4096 0 0⟩, xe, later { upCxl.putBurst 0 77 with drc := { upCxl.drc with queue := [(0, [⟨2, 0, 0, 10, .read 4096 0 0⟩])] } } 1023800, by constructor <;> decide +kernel, by decide +kernel⟩,
    ⟨4160, { upCxl with pcx := { upCxl.pcx with hdm := none } }, by decide +kernel⟩,
    ⟨17179873216, 258, 1, 4096, 17179869184, xe, upCxl.putBurst 268435455 65535, by constructor <;> decide +kernel, by decide +kernel⟩,
    ⟨17179873216, 258, 1, 4096, 17179869184, xe, upCxl.wr F.MED_PF_CFG_DIRTY_MAX 0, by constructor <;> decide +kernel, by decide +kernel⟩,
    ⟨9, { upCxl with stg := { upCxl.stg with dirty := [9] } }, by decide +kernel⟩,
    ⟨9, { upCxl with stg := { upCxl.stg with dirty := [9, 8] }, pcx := { upCxl.pcx with wb := [9], win := [(9216, 5)] } }, by decide +kernel⟩,
    ⟨upCxl, by decide +kernel⟩,
    ⟨upCxl, by decide +kernel⟩,
    ⟨{ upCxl with stg := { upCxl.stg with dirty := [9, 8] } }, by decide +kernel⟩,
    ⟨4096, 65536, upCxl, by decide +kernel⟩⟩

/-- The hypotheses of `Obligations.FunctionResetsComplete`, clause by clause. -/
theorem witness_FunctionResetsComplete :
    (∃ (n : Nat) (r : Nat) (v : Nat) (s : State), (s.tables = false) ∧ (s.dead = false)) ∧
    (∃ (n : Nat) (v : Nat) (f : FnSt) (s : State), (s.tables = true) ∧ (s.fn n = some f)) ∧
    (∃ (l : Nat) (f : FnSt) (s : State), (l < 2) ∧ (l = 1 → s.rd F.PCX_CFG_BIFUR = 1) ∧ (s.pcx.perst.getD l false = true) ∧ (s.img.por = true) ∧ (s.pwr.jack = false) ∧ (s.fn (s.pfIdx l) = some f)) ∧
    (∃ (l : Nat) (speed : Nat) (width : Nat) (ns : Nat) (flit : Bool) (cxl : Bool) (s : State), (l < 2) ∧ (s.pcx.perst = [false, false]) ∧ (s.pwr.jack = false) ∧ (s.img.por = true) ∧ (s.img.rom = false) ∧ (l = 1 → s.rd F.PCX_CFG_BIFUR = 1) ∧ (s.awake = true) ∧ (s.linkMay speed width = true) ∧ (14 ∉ s.img.noCal)) ∧
    (∃ (pf : Nat) (f : FnSt) (s : State), (s.pfs.contains pf = true) ∧ (s.fn (s.pfIdx pf) = some f)) ∧
    (∃ (n : Nat) (f : FnSt) (s : State), (s.fn n = some f) ∧ (n ≠ 0) ∧ (n ≠ s.pfIdx 1)) ∧
    (∃ (n : Nat) (f : FnSt) (s : State), (s.fn n = some f)) :=
  ⟨⟨0, 0, 0, { up with regs := [] }, by decide +kernel⟩,
    ⟨1, 1, { FnSt.pf 0 with bme := true, mse := true, ccEn := true, rdy := true }, up1, by decide +kernel⟩,
    ⟨0, { FnSt.pf 0 with bme := true, mse := true, ccEn := true, rdy := true }, { up1 with pcx := { up1.pcx with perst := [true, true] } }, by decide +kernel⟩,
    ⟨1, 6, 8, 0, true, false, up1.wr F.PCX_CFG_BIFUR 1, by decide +kernel⟩,
    ⟨0, { FnSt.pf 0 with bme := true, mse := true, ccEn := true, rdy := true }, up1, by decide +kernel⟩,
    ⟨1, { FnSt.pf 0 with bme := true, mse := true, ccEn := true, rdy := true }, (up1.wr F.PCX_CFG_BIFUR 1).wr F.PCX_CFG_VF_SPLIT 127, by decide +kernel⟩,
    ⟨1, { FnSt.pf 0 with bme := true, mse := true, ccEn := true, rdy := true }, up1.addCmd (newCmd 5 3 q5 0 (arr0)), by decide +kernel⟩⟩

/-- The hypotheses of `Obligations.FunctionControlComplete`, clause by clause. -/
theorem witness_FunctionControlComplete :
    (∃ (n : Nat) (f : FnSt) (s : State), (s.fn n = some f) ∧ (f.rdy = false) ∧ (s.freeIdx ≠ none) ∧ ((n = 0 ∧ s.img.admReady = true) ∨ (n ≠ 0 ∧ s.ready = true ∧ s.lowBind n ≠ none))) ∧
    (∃ (n : Nat) (f : FnSt) (s : State), (s.fn n = some f) ∧ (f.rdy = false) ∧ (n ≠ 0) ∧ (s.ready = false)) ∧
    (∃ (n : Nat) (f : FnSt) (s : State), (s.fn n = some f) ∧ (s.ftl.ckpt = none) ∧ (s.dirtyLines = []) ∧ (∀ e ∈ s.ftl.jtail, e.act ≠ .ckptEnd s.ftl.jnext)) ∧
    (∃ (pf : Nat) (n : Nat) (v : Nat) (f : FnSt) (s : State), (s.pfs.contains pf = true) ∧ (s.fn (s.pfIdx pf) = some f) ∧ (f.vfEn = false) ∧ (0 < n) ∧ (n ≤ s.totalVfs pf) ∧ (v = min (s.rd F.PCX_SRIOV_CFG_VF_VEC pf) ((32768 - 2048 * s.pfs.length - s.vfVecs (1 - pf)) / n)) ∧ (0 < v)) ∧
    (∃ (pf : Nat) (n : Nat) (f : FnSt) (s : State), (s.pfs.contains pf = true) ∧ (s.fn (s.pfIdx pf) = some f) ∧ (f.vfEn = false) ∧ (0 < n) ∧ (n ≤ s.totalVfs pf) ∧ (32768 - 2048 * s.pfs.length - s.vfVecs (1 - pf) < n)) ∧
    (∃ (pf : Nat) (f : FnSt) (s : State), (s.pfs.contains pf = true) ∧ (s.fn (s.pfIdx pf) = some f)) ∧
    (∃ (n : Nat) (f : FnSt) (s : State), (s.fn n = some f)) ∧
    (∃ (n : Nat) (f : FnSt) (s : State), (∀ h ∈ f.held, ∀ q, h.c.org = .io q → q = h.st.q) ∧ (s.fn n = some f) ∧ (∀ h ∈ f.held, s.live h.st.slice h.st.q h.st.genS h.st.genQ = true)) ∧
    (∃ (n : Nat) (f : FnSt) (h : Held) (s : State), (s.fn n = some f) ∧ (f.held = [h]) ∧ (s.live h.st.slice h.st.q h.st.genS h.st.genQ = false)) ∧
    (∃ (n : Nat) (f : FnSt) (s : State), (s.fn n = some f) ∧ (s.die.dies = []) ∧ (s.die.cws = []) ∧ (s.sl.waits = []) ∧ ((s.sl.qs.map (·.1)).Nodup)) ∧
    (∃ (n : Nat) (cid : Nat) (g : State → State) (f : FnSt) (s : State), (s.fn n = some f) ∧ (f.bme = false)) ∧
    (∃ (i : Nat) (cid : Nat) (nsid : Nat) (lba : Nat) (len : Nat) (hint : Nat) (k : CmdKind) (lr : Bool) (fua : Bool) (x : Queue) (f : FnSt) (s : State), (s.fn x.func = some f) ∧ (f.bme = false) ∧ (Tab.find i s.sl.qs = some x) ∧ (x.fabric = false) ∧ (s.cmdOf i cid = none) ∧ (∀ a ∈ x.pend, a.cid ≠ some cid)) :=
  ⟨⟨2, FnSt.pf 0, { up1 with fns := up1.fns ++ [(2, FnSt.pf 0)], sl := { up1.sl with fbind := [⟨2, none, 0, 1⟩] } }, by decide +kernel⟩,
    ⟨2, FnSt.pf 0, ({ up1 with fns := up1.fns ++ [(2, FnSt.pf 0)] }).wr F.IMG_STS_PHASE 0, by decide +kernel⟩,
    ⟨0, { FnSt.pf 0 with bme := true, mse := true, ccEn := true, rdy := true }, up1, by decide +kernel⟩,
    ⟨0, 255, 120, { FnSt.pf 0 with bme := true, mse := true, ccEn := true, rdy := true }, up.wr F.PCX_SRIOV_CFG_VF_VEC 2048 0, by decide +kernel⟩,
    ⟨0, 100, { FnSt.pf 0 with bme := true, mse := true, ccEn := true, rdy := true }, ((up.wr F.PCX_CFG_BIFUR 1).wr F.PCX_CFG_VF_SPLIT 100).wr F.PCX_SRIOV_STS_VF_S 2000 1 |>.wr F.PCX_SRIOV_STS_NUMVFS 150 1, by decide +kernel⟩,
    ⟨0, { FnSt.pf 0 with bme := true, mse := true, ccEn := true, rdy := true }, up1, by decide +kernel⟩,
    ⟨1, { FnSt.pf 0 with bme := true, mse := true, ccEn := true, rdy := true }, up1, by decide +kernel⟩,
    ⟨1, { FnSt.pf 0 with held := twoHeld }, up1.putFn 1 { FnSt.pf 0 with held := twoHeld }, by intro h hh q; revert h hh; simp [twoHeld], by decide +kernel⟩,
    ⟨1, { FnSt.pf 0 with held := [⟨⟨.fn 1, 3, 0, 0, false, 0, []⟩, ⟨1, 4, 9, 0⟩⟩] }, ⟨⟨.fn 1, 3, 0, 0, false, 0, []⟩, ⟨1, 4, 9, 0⟩⟩, up1.putFn 1 { FnSt.pf 0 with held := [⟨⟨.fn 1, 3, 0, 0, false, 0, []⟩, ⟨1, 4, 9, 0⟩⟩] }, by decide +kernel⟩,
    ⟨1, { FnSt.pf 0 with bme := true, mse := true, ccEn := true, rdy := true }, up1.putQ 5 { q5 with pasid := some 3, pend := [arr0], tail := 1 }, by decide +kernel⟩,
    ⟨1, 7, id, FnSt.pf 0, up1.putFn 1 (FnSt.pf 0), by decide +kernel⟩,
    ⟨5, 7, 1, 0, 1, 0, .read, true, false, q5, FnSt.pf 0, up1.putFn 1 (FnSt.pf 0), by decide +kernel⟩⟩

/-- The hypotheses of `Obligations.PowerFailComplete`, clause by clause. -/
theorem witness_PowerFailComplete :
    (∃ (s : State), (s.img.pfailN = true) ∧ (s.dead = false) ∧ (s.rd F.MED_PF_STS_PHASE = pfArmed) ∧ (s.stg.commits = true)) ∧
    (∃ (i : FlushImg) (fails : List (Nat × Nat)) (links : List Nat) (s : State), (s.rd F.MED_PF_STS_PHASE = pfFlushing) ∧ (s.stg.image = some i) ∧ (s.stg.full = true) ∧ (s.pwr.tripped = false)) ∧
    (∃ (s : State), (s.rd F.MED_PF_STS_PHASE = pfDone) ∧ (s.dead = false) ∧ (s.pwr.tripped = false) ∧ (s.stg.full = true) ∧ (s.awake = true) ∧ (s.zn.zx = []) ∧ (s.ftl.crows = [])) ∧
    (∃ (s : State), (s.rd F.MED_PF_STS_PHASE = pfDone) ∧ (s.dead = false) ∧ (s.pwr.tripped = false) ∧ (s.stg.full = true)) :=
  ⟨⟨((up.wr F.MED_PF_STS_PHASE 0).addCmd (newCmd 5 3 q5 0 arr0)).putDie 9 { DieSt.absent with present := true }, by decide +kernel⟩,
    ⟨img1, [(4, 1), (4, 2), (4, 3), (5, 1)], [7], later (({ up with stg := { up.stg with image := some img1, full := true } }).wr F.MED_PF_STS_PHASE 2) 20000001, by decide +kernel⟩,
    ⟨({ up with stg := { up.stg with image := some { img1 with whole := true }, full := true, commits := false, priorStep := 3 }, img := { up.img with pfailN := false } }).wr F.MED_PF_STS_PHASE 3, by decide +kernel⟩,
    ⟨({ up with stg := { up.stg with image := some { img1 with whole := true }, full := true, commits := false, priorStep := 3 }, img := { up.img with pfailN := false } }).wr F.MED_PF_STS_PHASE 3, by decide +kernel⟩⟩

/-- The hypotheses of `Obligations.ReservedBitsAndAddresses`, clause by clause. -/
theorem witness_ReservedBitsAndAddresses :
    (∃ (p : Nat) (a : Nat) (i : Nat) (j : Nat) (off : Nat) (b : Nat) (r : Reg) (s : State), (locate a regTable = some (r, i, j, off)) ∧ (b < 32) ∧ (∀ f ∈ r.flds, ¬(f.lo ≤ 32 * (off / 4) + b ∧ 32 * (off / 4) + b < f.lo + f.w))) ∧
    (∃ (p : Nat) (a : Nat) (v : Nat) (s : State), (locate a regTable = none)) :=
  ⟨⟨0, 68, 0, 0, 0, 31, R.GEN_STS, up, by decide +kernel⟩,
    ⟨0, 65532, 3, up, by decide +kernel⟩⟩

/-- The hypotheses of `Obligations.SliceResetLeavesTheWindow`, clause by clause. -/
theorem witness_SliceResetLeavesTheWindow :
    ∃ (hpa : Nat) (base : Nat) (size : Nat) (gen : Nat) (e : XltEnt) (s : State), (CxlServes s hpa base size e) ∧ (s.slState e.slice = slResetting) ∧ (e.rd = true) ∧ (s.drc.poison = []) ∧ (s.dreqs (s.chOf (hpa - base)) = []) :=
  ⟨4160, 4096, 17179869184, 3, xe, (upCxl.putBurst 1 77).wr F.SLI_STS_STATE slResetting 1, by constructor <;> decide +kernel, by decide +kernel⟩

/-- The hypotheses of `Obligations.FencedSliceIsRefused`, clause by clause. -/
theorem witness_FencedSliceIsRefused :
    (∃ (hpa : Nat) (base : Nat) (size : Nat) (data : Nat) (mask : Nat) (room : Nat) (err : Nat) (sym : Nat) (e : XltEnt) (s : State), (s.cxlOn = true) ∧ (s.stg.commits = true) ∧ (s.awake = true) ∧ (s.pcx.hdm = some (base, size)) ∧ (base ≤ hpa) ∧ (hpa < base + size) ∧ (hpa - base < s.winSize) ∧ (s.cxlEntry (hpa - base) = some e) ∧ (s.slState e.slice = slFenced)) ∧
    (∃ (hpa : Nat) (base : Nat) (size : Nat) (data : Nat) (mask : Nat) (room : Nat) (err : Nat) (sym : Nat) (e : XltEnt) (s : State), (s.cxlOn = true) ∧ (s.stg.commits = true) ∧ (s.awake = true) ∧ (s.pcx.hdm = some (base, size)) ∧ (base ≤ hpa) ∧ (hpa < base + size) ∧ (hpa - base < s.winSize) ∧ (s.cxlEntry (hpa - base) = some e) ∧ (s.slState e.slice = slFenced)) ∧
    (∃ (n : Nat) (func : Nat) (addr : Nat) (pasid : Option Nat) (wr : Bool) (cxl : Bool) (s : State), (s.slState n = slFenced)) ∧
    (∃ (o : Org) (cid : Nat) (n : Nat) (f : State → State) (s : State), (s.img.admReady = true) ∧ (s.muted o = false) ∧ (o ≠ .mi) ∧ (((s.admQ o).map (fun e => s.resetting e.1)).getD false = false) ∧ (∀ e ∈ s.sl.qs, adminOf o e.2 = true → (s.admQ o).map (·.1) = some e.1) ∧ (s.sliceOf o = some n) ∧ (s.slState n = slFenced)) ∧
    (∃ (q : Nat) (cid : Nat) (nsid : Nat) (lba : Nat) (len : Nat) (addr : Nat) (lr : Bool) (x : Queue) (c : Cmd) (s : State), (Tab.find q s.sl.qs = some x) ∧ (s.slState x.slice = slFenced) ∧ (s.cmdOf q cid = some c) ∧ (c.st = .fetched) ∧ (s.live c.slice q c.genS c.genQ = true) ∧ (s.ready = true) ∧ (s.resetting q = false) ∧ (s.tailFull = false) ∧ (s.egWait q = false)) :=
  ⟨⟨4160, 4096, 17179869184, 1, 1, 1, 0, 0, xe, (upCxl.putBurst 1 77).wr F.SLI_STS_STATE slFenced 1, by decide +kernel⟩,
    ⟨4160, 4096, 17179869184, 1, 1, 1, 0, 0, xe, (upCxl.putBurst 1 77).wr F.SLI_STS_STATE slFenced 1, by decide +kernel⟩,
    ⟨1, 0, 0, none, false, false, up1.wr F.SLI_STS_STATE slFenced 1, by decide +kernel⟩,
    ⟨.fn 1, 7, 1, id, up1.wr F.SLI_STS_STATE slFenced 1, by decide +kernel⟩,
    ⟨5, 7, 0, 0, 0, 0, false, { q5 with outst := 1 }, { newCmd 5 7 q5 0 arr0 with st := .fetched }, ((up1.putQ 5 { q5 with outst := 1 }).addCmd { newCmd 5 7 q5 0 arr0 with st := .fetched }).wr F.SLI_STS_STATE slFenced 1, by decide +kernel⟩⟩

/-- The hypotheses of `Obligations.CompletionQueueVectors`, clause by clause. -/
theorem witness_CompletionQueueVectors :
    (∃ (n : Nat) (cid : Nat) (cqid : Nat) (qsize : Nat) (vec : Nat) (s : State), (Served s (.fn n)) ∧ (1 ≤ cqid) ∧ (cqid ≤ 2047) ∧ (∀ c ∈ s.sl.cqs, ¬(c.func = n ∧ c.cqid = cqid)) ∧ (1 ≤ qsize) ∧ (qsize ≤ 4095) ∧ ((∃ c ∈ s.sl.cqs, c.func = n ∧ c.vec = vec) ∨ (n = 0 ∧ ∃ i, i < 8 ∧ s.rd F.LGR_EVT_VEC_EN i = 1 ∧ s.rd F.LGR_EVT_VEC_VECTOR i = vec) ∨ s.vecTable n ≤ vec)) ∧
    (∃ (o : Org) (cid : Nat) (cqid : Nat) (qsize : Nat) (vec : Nat) (s : State), (s.sl.cqs.Pairwise (fun a b => ¬(a.func = b.func ∧ a.vec = b.vec)))) :=
  ⟨⟨1, 7, 2, 1, 1, up1, served_at 1 (by decide +kernel), by decide +kernel⟩,
    ⟨.fn 1, 7, 2, 1, 2047, up1, by decide +kernel⟩⟩

/-- The hypotheses of `Obligations.FrameArrivalStamp`, clause by clause. -/
theorem witness_FrameArrivalStamp :
    (∃ (p : Nat) (u : Nat) (dst : Nat) (ip : Nat) (vlan : Nat) (udp : Nat) (src : Nat) (ulen : Nat) (k : Nat) (b : List Nat) (d : List Nat) (h : IftHdr) (x : Stream) (s : State), (Arrives s p u dst ip vlan ulen false) ∧ (Takes s k x) ∧ (s.fabricOn = true) ∧ (h = iftHdr (b.map (cut 8))) ∧ (d = iftData ulen (b.map (cut 8))) ∧ (s.stream k = some x) ∧ (s.cap.streams.find? (fun e => !e.2.rdma && bit e.2.ports p && e.2.udp = udp && e.2.sid = h.sid && (e.2.filter = 0 || e.2.filter = src)) = some (k, x)) ∧ (h.ver = 1) ∧ (h.ty = 0) ∧ (h.rsv = false) ∧ (d ≠ []) ∧ (h.off + d.length ≤ h.flen) ∧ (h.flen ≤ x.maxKib * 1024) ∧ (d.length ≤ x.limit * 1024) ∧ ((h.restart && h.first) = false) ∧ (x.f ≤ h.frame) ∧ (h.frame < x.f + 1024) ∧ (x.closed.contains h.frame = false) ∧ (x.log + frameBound h.flen ≤ x.w * 2 ^ 31)) ∧
    (∃ (qp : Nat) (imm : Nat) (k : Nat) (d : List Nat) (q : Qp) (x : Stream) (s : State), (QpUp s qp q) ∧ (Takes s k x) ∧ (q.stream = some k) ∧ (s.rxFull q.port q.sub d.length = false) ∧ (x.rx = []) ∧ (x.rxAt = none) ∧ (d ≠ []) ∧ (d.length ≤ x.maxKib * 1024) ∧ (d.length ≤ x.limit * 1024) ∧ (x.f ≤ frameNo x.high imm) ∧ (frameNo x.high imm < x.f + 1024) ∧ (x.closed.contains (frameNo x.high imm) = false) ∧ (x.log + frameBound d.length ≤ x.w * 2 ^ 31)) :=
  ⟨⟨0, 0, (upCap strR).rd F.ETH_MAC_ADDR 0 0, 99, 0, 0, 0, 43, 5, dgr 1 0, [1, 2, 3], iftHdr ((dgr 1 0).map (cut 8)), strR, upCap strR, ⟨by decide +kernel, by decide +kernel, by simp [State.macOk], by decide +kernel, by decide +kernel⟩, by constructor <;> decide +kernel, by decide +kernel⟩,
    ⟨2, 7, 5, [1], { qpx with stream := some 5 }, { strR with rdma := true }, upCap { strR with rdma := true }, by constructor <;> decide +kernel, by constructor <;> decide +kernel, by decide +kernel⟩⟩

/-- The hypotheses of `Obligations.WatchdogExpiryFailsOver`, clause by clause. -/
theorem witness_WatchdogExpiryFailsOver :
    (∃ (pass : Bool) (s : State), (s.pup.wdtAt + s.rd F.PUP_WDT_PERIOD * 1000000 ≤ s.el) ∧ (s.rd F.PUP_STS_SPARE = 0) ∧ (s.stopped = false) ∧ (s.swapping = false)) ∧
    (∃ (pass : Bool) (s : State), (s.pup.wdtAt + s.rd F.PUP_WDT_PERIOD * 1000000 ≤ s.el) ∧ (s.stopped = false) ∧ (s.swapping = true)) ∧
    (∃ (pass : Bool) (s : State), (s.el < s.pup.wdtAt + s.rd F.PUP_WDT_PERIOD * 1000000)) ∧
    (∃ (s : State), (s.stopped = false)) :=
  ⟨⟨false, later upMi 100000000000, by decide +kernel⟩,
    ⟨false, later (upMi.wr F.PUP_STS_SWAP 3) 100000000000, by decide +kernel⟩,
    ⟨false, upMi, by decide +kernel⟩,
    ⟨later upMi 5, by decide +kernel⟩⟩

/-- The hypotheses of `Obligations.RegisterReadAndWriteSpans`, clause by clause. -/
theorem witness_RegisterReadAndWriteSpans :
    (∃ (vdm : Bool) (a : Nat) (len : Nat) (ws : List Nat) (s : State), (MiServed s vdm) ∧ (a % 4 ≠ 0 ∨ len % 4 ≠ 0 ∨ len < 4 ∨ 4096 < len ∨ 2 ^ 26 < a + len)) ∧
    (∃ (vdm : Bool) (a : Nat) (len : Nat) (ws : List Nat) (s : State), (MiServed s vdm) ∧ (a % 4 ≠ 0 ∨ len % 4 ≠ 0 ∨ len < 4 ∨ 4096 < len ∨ 2 ^ 26 < a + len)) ∧
    (∃ (vdm : Bool) (a : Nat) (len : Nat) (s : State), (MiServed s vdm) ∧ (a % 4 = 0) ∧ (len % 4 = 0) ∧ (4 ≤ len) ∧ (len ≤ 4096) ∧ (a + len ≤ 2 ^ 26)) ∧
    (∃ (vdm : Bool) (a : Nat) (len : Nat) (ws : List Nat) (s : State), (MiServed s vdm) ∧ (a % 4 = 0) ∧ (len % 4 = 0) ∧ (4 ≤ len) ∧ (len ≤ 4096) ∧ (a + len ≤ 2 ^ 26) ∧ (ws.length = len / 4)) :=
  ⟨⟨false, 67108860, 8, [], upMi, by constructor <;> decide +kernel, by decide +kernel⟩,
    ⟨false, 67108860, 8, [], upMi, by constructor <;> decide +kernel, by decide +kernel⟩,
    ⟨false, 64, 4096, upMi, by constructor <;> decide +kernel, by decide +kernel⟩,
    ⟨false, 64, 4096, List.replicate 1024 3, upMi, by constructor <;> decide +kernel, by decide +kernel⟩⟩

/-- The hypotheses of `Obligations.RecorderSnapshots`, clause by clause. -/
theorem witness_RecorderSnapshots :
    ∃ (code : Nat) (arg : Nat) (trig : Nat) (addrs : List Nat) (flush : Bool) (s : State), (s.rd F.EVR_STS_FULL ≠ 1) ∧ (s.evr.used + recLen addrs.length ≤ recBytes) :=
  ⟨3, 0, 0, [68, 65532], false, up, by decide +kernel⟩

/-- The hypotheses of `Obligations.IdleStepPassesOneCycle`, clause by clause. -/
theorem witness_IdleStepPassesOneCycle :
    (∃ (s : State), (s.pending = []) ∧ (s.counting = true) ∧ (s.rd F.TIM_FREQ_VALUE = 0) ∧ (s.tim.slew = 0) ∧ (s.pup.miHeld = []) ∧ (∀ ch, ch < 8 → s.dreqs ch = [])) ∧
    (∃ (s : State), (s.pending = []) ∧ (s.counting = false) ∧ (s.pup.miHeld = []) ∧ (∀ ch, ch < 8 → s.dreqs ch = [])) :=
  ⟨⟨up, by decide +kernel⟩,
    ⟨State.reset, by decide +kernel⟩⟩

/-- The hypotheses of `Obligations.StepKeepsTheInvariant`, clause by clause. -/
theorem witness_StepKeepsTheInvariant :
    ∃ (s : State) (t : State), (Inv s) ∧ (Machine.step s = .next t) :=
  ⟨State.reset, State.reset.clock, by unfold Inv; decide +kernel, rfl⟩

end Sys2Proof.Tests
end

section
/-! O49: a bit of a register that no field covers reads as 0, and a reserved address reads as 0 and ignores writes (00 R8). A register's value
is a sum of field values shifted to their places; the fields of each register stand in rising order without overlap, so no field's value carries
into a bit outside it. -/

namespace Sys2Proof.Machine

/-! ### Field values packed side by side -/

/-- Bit `n` of a register belongs to the field. -/
def Fld.Covers (f : Fld) (n : Nat) : Prop := f.lo ≤ n ∧ n < f.lo + f.w

/-- The field ends below the lowest bit of the next. -/
def Fld.EndsBelow (f g : Fld) : Prop := f.lo + f.w ≤ g.lo

/-- Field values, each shifted to its field's place, added up. -/
def packed (v : Fld → Nat) (l : List Fld) : Nat := (l.map (fun f => v f * 2 ^ f.lo)).sum

/-- Fields from bit `n` upward leave the bits below `n` clear. -/
theorem two_pow_dvd_packed (v : Fld → Nat) {n : Nat} {l : List Fld} (h : ∀ f ∈ l, n ≤ f.lo) : 2 ^ n ∣ packed v l := by
  refine List.dvd_sum fun x hx => ?_
  obtain ⟨f, hf, rfl⟩ := List.mem_map.1 hx
  exact (Nat.pow_dvd_pow 2 (h f hf)).mul_left (v f)

/-- A value of `f.w` bits shifted to the field's place is clear outside the field. -/
theorem testBit_shifted_of_not_covers {f : Fld} {x n : Nat} (hx : x < 2 ^ f.w) (h : ¬ f.Covers n) : (x * 2 ^ f.lo).testBit n = false := by
  rw [Nat.testBit_mul_two_pow, Bool.and_eq_false_iff, decide_eq_false_iff_not]
  refine or_iff_not_imp_left.2 fun hlo => ?_
  have hw : f.w ≤ n - f.lo := by unfold Fld.Covers at h; omega
  exact Nat.testBit_lt_two_pow (hx.trans_le (Nat.pow_le_pow_right (by decide) hw))

/-- Values that fit their fields, packed into fields in rising order, are clear at a bit that no field covers: the fields after the first add to it
without a carry, as they are a multiple of the power of two that it stays below. -/
theorem testBit_packed_of_not_covers {v : Fld → Nat} {n : Nat} {l : List Fld} (hord : l.Pairwise Fld.EndsBelow) (hv : ∀ f, v f < 2 ^ f.w)
    (h : ∀ f ∈ l, ¬ f.Covers n) : (packed v l).testBit n = false := by
  induction l with
  | nil => exact Nat.zero_testBit n
  | cons f t ih =>
    obtain ⟨hf, ht⟩ := List.pairwise_cons.1 hord
    obtain ⟨hfn, htn⟩ := List.forall_mem_cons.1 h
    obtain ⟨k, hk⟩ := two_pow_dvd_packed v hf
    have hfit : v f * 2 ^ f.lo < 2 ^ (f.lo + f.w) := by
      rw [Nat.pow_add, Nat.mul_comm]
      exact Nat.mul_lt_mul_of_pos_left (hv f) (Nat.two_pow_pos _)
    calc (packed v (f :: t)).testBit n = (2 ^ (f.lo + f.w) * k + v f * 2 ^ f.lo).testBit n := by rw [← hk, Nat.add_comm]; rfl
      _ = ((packed v t).testBit n || (v f * 2 ^ f.lo).testBit n) := by rw [Nat.two_pow_add_eq_or_of_lt hfit, Nat.testBit_or, hk]
      _ = false := by rw [ih ht htn, testBit_shifted_of_not_covers (hv f) hfn]; rfl

/-! ### Register values -/

/-- The value that a register's entry shows in a field on a path; a write-only field shows 0. -/
def State.shown (s : State) (r : Reg) (i j p : Nat) (f : Fld) : Nat :=
  if f.acc = .wo then 0 else s.view f i j p (if r.perPath then p else 0)

theorem State.view_lt (s : State) (f : Fld) (i j p q : Nat) : s.view f i j p q < 2 ^ f.w := Nat.mod_lt _ (Nat.two_pow_pos _)

theorem State.shown_lt (s : State) (r : Reg) (i j p : Nat) (f : Fld) : s.shown r i j p f < 2 ^ f.w := by
  unfold State.shown
  split
  · exact Nat.two_pow_pos _
  · exact s.view_lt ..

theorem State.regVal_eq_packed (s : State) (r : Reg) (i j p : Nat) : s.regVal r i j p = packed (s.shown r i j p) r.flds := by
  simp only [State.regVal, packed, State.shown, ite_mul, Nat.zero_mul]

/-- The fields of every register of the management space stand in rising order and do not overlap. -/
theorem regTable_fields_rising : ∀ r ∈ regTable, r.flds.Pairwise Fld.EndsBelow := by
  unfold Fld.EndsBelow
  decide +kernel

theorem State.regVal_testBit_of_not_covers {r : Reg} {n : Nat} (s : State) (i j p : Nat) (hr : r ∈ regTable) (h : ∀ f ∈ r.flds, ¬ f.Covers n) :
    (s.regVal r i j p).testBit n = false := by
  rw [State.regVal_eq_packed]
  exact testBit_packed_of_not_covers (regTable_fields_rising r hr) (s.shown_lt r i j p) h

/-! ### Addresses -/

/-- An address falls on a register of the table it is looked up in. -/
theorem mem_of_locate {a i j off : Nat} {r : Reg} {l : List Reg} (h : locate a l = some (r, i, j, off)) : r ∈ l := by
  induction l with
  | nil => cases h
  | cons x t ih =>
    rcases ite_eq_iff.1 h with ⟨-, hx⟩ | ⟨-, ht⟩
    · obtain rfl : x = r := congrArg Prod.fst (Option.some.inj hx)
      exact List.mem_cons_self
    · exact List.mem_cons_of_mem x (ih ht)

theorem State.peek_of_locate_some {a i j off : Nat} {r : Reg} (s : State) (p : Nat) (h : locate a regTable = some (r, i, j, off)) :
    s.peek p a = s.regVal r i j p / 2 ^ (32 * (off / 4)) % 2 ^ 32 := by
  rw [State.peek, h]

theorem State.peek_of_locate_none {a : Nat} (s : State) (p : Nat) (h : locate a regTable = none) : s.peek p a = 0 := by
  rw [State.peek, h]

theorem State.write4_of_locate_none {a : Nat} (s : State) (p v : Nat) (h : locate a regTable = none) : s.write4 p a v = s := by
  rw [State.write4, h]

/-- Bit `b` of the dword at an address is the register's bit at that place. -/
theorem State.bit_peek {a i j off b : Nat} {r : Reg} (s : State) (p : Nat) (h : locate a regTable = some (r, i, j, off)) (hb : b < 32) :
    bit (s.peek p a) b = (s.regVal r i j p).testBit (32 * (off / 4) + b) := by
  simp only [bit, s.peek_of_locate_some p h, Nat.testBit_mod_two_pow, Nat.testBit_div_two_pow, hb, decide_true, Bool.true_and, Nat.add_comm]

/-- Settles O49: by the order of the fields of every register, and by what a read and a write do where no register lies. -/
theorem reservedBitsAndAddresses : Obligations.ReservedBitsAndAddresses := by
  refine ⟨fun p a i j off b r s hloc hb huncov => ?_, fun p a v s hnone => ?_⟩
  · rw [s.bit_peek p hloc hb]
    exact s.regVal_testBit_of_not_covers i j p (mem_of_locate hloc) huncov
  · exact ⟨s.peek_of_locate_none p hnone, s.write4_of_locate_none p v hnone⟩

end Sys2Proof.Machine
end

section
/-! SUPPORT. What the end of an I/O command can change (02 R52; 03 R82; 04 R95; 14 R325; 20 R445), said once: a relation between states (`CmdEnds`) that
each step of `State.fin` keeps. A completion, once given, stays given under it. -/

namespace Sys2Proof.Machine

/-! ### How a command ends -/

/-- A command that ends leaves flight; its error is logged and its missed deadline counted (03 R72; 20 R445). -/
def State.leave (s : State) (c : Cmd) (st : Nat × Nat) (die : Option Nat) : State :=
  let t := (s.dropCmd c.q c.cid).logErr (.io c.q) c.cid st.1 st.2 die
  if st = stLate then t.inc F.LGR_SL_DLMISS_CNT c.slice else t

/-- A completion is given to a command's queue `x`: sent on its QP, postponed while its function may not send, or posted and signalled (03 R82; 14
R325). -/
def State.give (s : State) (c : Cmd) (x : Queue) (e : Cpl) : State :=
  let s := s.putQ c.q { x with outst := x.outst - 1 }
  if x.fabric then s.sendQp x.qp (.cpl e)
  else if !s.canSend x.func then s.hold x.func e ⟨c.slice, c.q, c.genS, c.genQ⟩
  else
    let s := (s.send (.cpl e)).pushCq x.func x.cqid
    match s.cqOf x with
    | some cq => s.signal x.func cq.vec (s.urg c.arr c.dl) ⟨c.slice, c.q, c.genS, c.genQ⟩
    | none => s

/-- The completion that a command ends with. -/
def Cmd.cpl (c : Cmd) (st : Nat × Nat) (dw0 : Nat) (data : List Nat) : Cpl := ⟨.io c.q, c.cid, st.1, st.2, dnrOf st.1 st.2, dw0, data⟩

theorem State.leave_queues (s : State) (c : Cmd) (st : Nat × Nat) (die : Option Nat) : (s.leave c st die).sl = s.sl := by
  obtain ⟨errs, n, r, h, -⟩ := (s.dropCmd c.q c.cid).logErr_eq (.io c.q) c.cid st.1 st.2 die
  unfold State.leave
  split <;> rw [h] <;> rfl

/-- A live command's queue is there. -/
theorem State.queue_of_live {s : State} {n q gs gq : Nat} (h : s.live n q gs gq = true) : ∃ x, Tab.find q s.sl.qs = some x := by
  cases hq : Tab.find q s.sl.qs with
  | some x => exact ⟨x, rfl⟩
  | none => simp [State.live, hq] at h

/-- What the end of a command does: nothing where it is not in flight; its completion is discarded where it is stale, and given to its queue
otherwise (02 R52). -/
theorem State.fin_cases (s : State) (c : Cmd) (st : Nat × Nat) (dw0 : Nat) (data : List Nat) (die : Option Nat) :
    (s.cmdOf c.q c.cid = none ∧ s.fin c st dw0 data die = s) ∨
    (s.live c.slice c.q c.genS c.genQ = false ∧ s.fin c st dw0 data die = (s.dropCmd c.q c.cid).stale c.slice) ∨
    ∃ x, Tab.find c.q s.sl.qs = some x ∧ s.fin c st dw0 data die = (s.leave c st die).give c x (c.cpl st dw0 data) := by
  cases hin : s.cmdOf c.q c.cid with
  | none => exact .inl ⟨rfl, by rw [State.fin, hin]; rfl⟩
  | some d =>
    have hlive : (s.dropCmd c.q c.cid).live c.slice c.q c.genS c.genQ = s.live c.slice c.q c.genS c.genQ := rfl
    cases hl : s.live c.slice c.q c.genS c.genQ with
    | false => exact .inr (.inl ⟨rfl, by rw [State.fin, hin]; simp only [hlive, hl]; rfl⟩)
    | true =>
      obtain ⟨x, hx⟩ := State.queue_of_live hl
      have hq : Tab.find c.q (s.leave c st die).sl.qs = some x := by rw [s.leave_queues c st die, hx]
      unfold State.leave at hq
      refine .inr (.inr ⟨x, hx, ?_⟩)
      rw [State.fin, hin]
      simp only [hlive, hl, hq]
      rfl

/-! ### What the end of a command can change -/

/-- A completion was posted, or waits for its function or for its QP's sub-port. As `Waits`, but of a function's record that is found under its
number: what `State.hold` keeps. -/
def Given (t : State) (c : Cpl) : Prop :=
  Out.cpl c ∈ t.outs ∨ (∃ n f, Tab.find n t.fns = some f ∧ ∃ h ∈ f.held, h.c = c) ∨ ∃ e ∈ t.net.txq, e.2.2.2.2 = Out.cpl c

/-- The registers that count as commands end: errors, missed deadlines, stale results, and what leaves a zone's hold (02 R52; 03 R72; 04 R95; 20
R445). -/
def endFields : List Fld :=
  [F.RAS_ERRLOG_COUNT, F.LGR_SL_DLMISS_CNT, F.SLI_STALE_CNT_CNT, F.ZON_HOLD_FAIL_CNT, F.ZON_ENT2_HOLD, F.ZON_ENT7_SEQ]

/-- From `s` to `t` at most what ends of commands may change has changed: those registers, the error log, commands in flight, queues and vectors, what
was sent and what waits to be. No command came into flight, and no completion that was given was lost. -/
structure CmdEnds (s t : State) : Prop where
  frame : ∃ regs ras cmds qs cqs vecs fns txq outs, t =
    { s with
        regs := regs
        ras := ras
        zn := { s.zn with cmds := cmds }
        sl := { s.sl with qs := qs, cqs := cqs, vecs := vecs }
        fns := fns
        net := { s.net with txq := txq }
        outs := outs }
  regs : Keeps s t endFields
  flight : ∀ q cid, s.cmdOf q cid = none → t.cmdOf q cid = none
  given : ∀ c, Given s c → Given t c

theorem Tab.mem_of_find {α : Type} {k : Nat} {v : α} {t : Tab α} (h : Tab.find k t = some v) : (k, v) ∈ t := by
  induction t with
  | nil => cases h
  | cons e t ih =>
    rcases ite_eq_iff.1 h with ⟨hk, hv⟩ | ⟨-, ht⟩
    · obtain rfl := hk
      obtain rfl := Option.some.inj hv
      exact List.mem_cons_self
    · exact List.mem_cons_of_mem e (ih ht)

/-- A completion that was given was posted or waits. -/
theorem Given.posted_or_waits {t : State} {c : Cpl} (h : Given t c) : Out.cpl c ∈ t.outs ∨ Waits t c := by
  rcases h with h | ⟨n, f, hf, x, hx, hc⟩ | h
  · exact .inl h
  · exact .inr (.inl ⟨(n, f), Tab.mem_of_find hf, x, hx, hc⟩)
  · exact .inr (.inr h)

/-- A completion that was given stays so where more is sent and the rest stands. -/
theorem Given.mono {s t : State} {c : Cpl} (h : Given s c) (ho : s.outs ⊆ t.outs) (hf : t.fns = s.fns) (hn : s.net.txq ⊆ t.net.txq) : Given t c := by
  rcases h with h | h | ⟨e, he, hc⟩
  · exact .inl (ho h)
  · exact .inr (.inl (hf ▸ h))
  · exact .inr (.inr ⟨e, hn he, hc⟩)

namespace CmdEnds

variable (s : State)

theorem refl : CmdEnds s s :=
  ⟨⟨s.regs, s.ras, s.zn.cmds, s.sl.qs, s.sl.cqs, s.sl.vecs, s.fns, s.net.txq, s.outs, rfl⟩, fun _ _ _ _ _ => rfl, fun _ _ h => h, fun _ h => h⟩

variable {s} in
theorem trans {t u : State} (h : CmdEnds s t) (k : CmdEnds t u) : CmdEnds s u := by
  refine ⟨?_, fun f i j p hf => (k.regs f i j p hf).trans (h.regs f i j p hf), fun q cid z => k.flight q cid (h.flight q cid z),
    fun c z => k.given c (h.given c z)⟩
  obtain ⟨r, a, c, q, e, v, f, x, o, rfl⟩ := h.frame
  obtain ⟨r', a', c', q', e', v', f', x', o', rfl⟩ := k.frame
  exact ⟨r', a', c', q', e', v', f', x', o', rfl⟩

theorem foldl {α : Type} {f : State → α → State} (h : ∀ s a, CmdEnds s (f s a)) (l : List α) : CmdEnds s (l.foldl f s) := by
  induction l generalizing s with
  | nil => exact refl s
  | cons a l ih => exact (h s a).trans (ih _)

theorem wr {f : Fld} (hf : f ∈ endFields) (v i j p : Nat) : CmdEnds s (s.wr f v i j p) :=
  ⟨⟨_, s.ras, s.zn.cmds, s.sl.qs, s.sl.cqs, s.sl.vecs, s.fns, s.net.txq, s.outs, rfl⟩, fun g a b d hg => s.rd_wr_id f g v i j p a b d (hg f hf),
    fun _ _ h => h, fun _ h => h⟩

theorem inc {f : Fld} (hf : f ∈ endFields) (i j n : Nat) : CmdEnds s (s.inc f i j n) := wr s hf _ i j 0

theorem ras (r : RasSt) : CmdEnds s { s with ras := r } :=
  ⟨⟨s.regs, r, s.zn.cmds, s.sl.qs, s.sl.cqs, s.sl.vecs, s.fns, s.net.txq, s.outs, rfl⟩, fun _ _ _ _ _ => rfl, fun _ _ h => h, fun _ h => h⟩

theorem queues (qs : Tab Queue) (cqs : List CQ) (vecs : List VecSt) : CmdEnds s { s with sl := { s.sl with qs := qs, cqs := cqs, vecs := vecs } } :=
  ⟨⟨s.regs, s.ras, s.zn.cmds, qs, cqs, vecs, s.fns, s.net.txq, s.outs, rfl⟩, fun _ _ _ _ _ => rfl, fun _ _ h => h, fun _ h => h⟩

theorem send (o : Out) : CmdEnds s (s.send o) :=
  ⟨⟨s.regs, s.ras, s.zn.cmds, s.sl.qs, s.sl.cqs, s.sl.vecs, s.fns, s.net.txq, _, rfl⟩, fun _ _ _ _ _ => rfl, fun _ _ h => h,
    fun _ h => h.mono (List.subset_append_left _ _) rfl (List.Subset.refl _)⟩

/-- A thing sent for a QP goes out, or waits with those before it. -/
theorem sendQp (n : Nat) (x : Out) : CmdEnds s (s.sendQp n x) := by
  unfold State.sendQp State.sendOn
  split
  · split
    · exact ⟨⟨s.regs, s.ras, s.zn.cmds, s.sl.qs, s.sl.cqs, s.sl.vecs, s.fns, _, s.outs, rfl⟩, fun _ _ _ _ _ => rfl, fun _ _ h => h,
        fun _ h => h.mono (List.Subset.refl _) rfl (List.subset_append_left _ _)⟩
    · exact send s x
  · exact send s x

/-- A completion that is postponed stands after those that its function holds already. -/
theorem hold (n : Nat) (c : Cpl) (t : Stamp) : CmdEnds s (s.hold n c t) := by
  unfold State.hold
  split
  · next f hf =>
    refine ⟨⟨s.regs, s.ras, s.zn.cmds, s.sl.qs, s.sl.cqs, s.sl.vecs, _, s.net.txq, s.outs, rfl⟩, fun _ _ _ _ _ => rfl, fun _ _ h => h, ?_⟩
    rintro d (h | ⟨m, g, hg, x, hx, hd⟩ | h)
    · exact .inl h
    · by_cases hm : m = n
      · subst hm
        obtain rfl : g = f := Option.some.inj (hg.symm.trans hf)
        exact .inr (.inl ⟨m, _, Tab.find_put_same _ _ _, x, List.mem_append_left _ hx, hd⟩)
      · exact .inr (.inl ⟨m, g, (Tab.find_put_ne _ _ hm).trans hg, x, hx, hd⟩)
    · exact .inr (.inr h)
  · exact refl s

theorem dropCmd (q cid : Nat) : CmdEnds s (s.dropCmd q cid) := by
  refine ⟨⟨s.regs, s.ras, _, s.sl.qs, s.sl.cqs, s.sl.vecs, s.fns, s.net.txq, s.outs, rfl⟩, fun _ _ _ _ _ => rfl, fun q' cid' h => ?_,
    fun _ h => h⟩
  by_cases hk : q' = q ∧ cid' = cid
  · obtain ⟨rfl, rfl⟩ := hk
    exact s.cmdOf_dropCmd q' cid'
  · exact (s.cmdOf_dropCmd_ne hk).trans h

/-- A change of a command in flight brings none into flight. -/
theorem putCmd (c : Cmd) : CmdEnds s (s.putCmd c) := by
  refine ⟨⟨s.regs, s.ras, _, s.sl.qs, s.sl.cqs, s.sl.vecs, s.fns, s.net.txq, s.outs, rfl⟩, fun _ _ _ _ _ => rfl, fun q cid h => ?_,
    fun _ h => h⟩
  simp only [State.cmdOf, State.putCmd, List.find?_eq_none, List.forall_mem_map] at h ⊢
  intro d hd
  split
  · next hk =>
    have := h d hd
    simp_all
  · exact h d hd

theorem logErr (o : Org) (cid sct sc : Nat) (die : Option Nat) : CmdEnds s (s.logErr o cid sct sc die) := by
  obtain ⟨errs, n, r, h, hr⟩ := s.logErr_eq o cid sct sc die
  rw [h]
  rcases hr with rfl | rfl
  · exact ras s _
  · exact (wr s (f := F.RAS_ERRLOG_COUNT) (by decide) _ 0 0 0).trans (ras _ _)

theorem signal (f v u : Nat) (t : Stamp) : CmdEnds s (s.signal f v u t) := by
  have vec : ∀ v : VecSt, CmdEnds s (s.putVec v) := fun v => queues s s.sl.qs s.sl.cqs _
  unfold State.signal
  dsimp only
  split
  · exact send s _
  · split
    · exact (vec _).trans (send _ _)
    · exact vec _

theorem leave (c : Cmd) (st : Nat × Nat) (die : Option Nat) : CmdEnds s (s.leave c st die) := by
  have h := (dropCmd s c.q c.cid).trans (logErr _ (.io c.q) c.cid st.1 st.2 die)
  unfold State.leave
  split
  · exact h.trans (inc _ (by decide) _ _ _)
  · exact h

theorem give (c : Cmd) (x : Queue) (e : Cpl) : CmdEnds s (s.give c x e) := by
  unfold State.give
  refine (queues s _ s.sl.cqs s.sl.vecs : CmdEnds s (s.putQ c.q { x with outst := x.outst - 1 })).trans ?_
  dsimp only
  split
  · exact sendQp _ _ _
  · split
    · exact hold _ _ _ _
    · refine ((send _ (.cpl e)).trans (queues _ _ _ _ : CmdEnds _ (State.pushCq _ x.func x.cqid))).trans ?_
      split
      · exact signal _ _ _ _ _
      · exact refl _

theorem fin (c : Cmd) (st : Nat × Nat) (dw0 : Nat) (data : List Nat) (die : Option Nat) : CmdEnds s (s.fin c st dw0 data die) := by
  rcases s.fin_cases c st dw0 data die with ⟨-, h⟩ | ⟨-, h⟩ | ⟨x, -, h⟩ <;> rw [h]
  · exact refl s
  · exact (dropCmd s _ _).trans (inc _ (by decide) _ _ _)
  · exact (leave s c st die).trans (give _ c x _)

theorem failHolds (h : Nat) (st : Nat × Nat) : CmdEnds s (s.failHolds h st) := by
  refine foldl s (fun s c => ?_) _
  exact (((inc s (by decide) _ _ _).trans (wr _ (by decide) _ _ _ _)).trans (wr _ (by decide) _ _ _ _)).trans (fin _ _ _ _ _ _)

theorem refuse (c : Cmd) (st : Nat × Nat) : CmdEnds s (s.refuse c st) := by
  unfold State.refuse
  split
  · exact fin s _ _ _ _ _
  · dsimp only
    split
    · exact (fin s _ _ _ _ _).trans (failHolds _ _ _)
    · exact fin s _ _ _ _ _

end CmdEnds

/-- Ends of commands change no user data, no die and no count of translation faults. -/
theorem CmdEnds.keeps {s t : State} (h : CmdEnds s t) : t.zn.ud = s.zn.ud ∧ t.die = s.die ∧
    ∀ n, t.rd F.SLI_XLT_FLT_CNT_CNT n = s.rd F.SLI_XLT_FLT_CNT_CNT n := by
  have hr := h.regs F.SLI_XLT_FLT_CNT_CNT
  obtain ⟨r, a, c, q, e, v, f, x, o, rfl⟩ := h.frame
  exact ⟨rfl, rfl, fun n => hr n 0 0 (by decide)⟩

/-! ### A command that ends is answered -/

/-- A completion that a live queue's command ends with is given: sent or waiting on its sub-port, postponed, or posted. -/
theorem State.give_given (s : State) (c : Cmd) (x : Queue) (e : Cpl) : Given (s.give c x e) e := by
  unfold State.give
  dsimp only
  split
  · rcases State.sendQp_sent (s.putQ c.q { x with outst := x.outst - 1 }) x.qp (.cpl e) with ⟨h, -⟩ | ⟨-, w, h, hw⟩
    · exact .inl (by rw [h]; simp)
    · exact .inr (.inr ⟨w, by rw [h]; simp, hw⟩)
  · split
    · next hc =>
      cases hf : Tab.find x.func s.fns with
      | none => simp [State.canSend, hf] at hc
      | some f =>
        refine .inr (.inl ⟨x.func, { f with held := f.held ++ [⟨e, c.slice, c.q, c.genS, c.genQ⟩] }, ?_, _,
          List.mem_append_right _ List.mem_cons_self, rfl⟩)
        simp [State.hold, hf]
    · have posted : ∀ m : State, Given (m.send (.cpl e)) e := fun m => .inl (by simp [State.send])
      split
      · exact (CmdEnds.signal _ _ _ _ _).given e (posted _)
      · exact posted _

/-- A live command in flight that ends has left flight, and its completion was given. -/
theorem State.fin_given {s : State} {c : Cmd} (hin : s.cmdOf c.q c.cid ≠ none) (hl : s.live c.slice c.q c.genS c.genQ = true) (st : Nat × Nat)
    (dw0 : Nat) (data : List Nat) (die : Option Nat) : Given (s.fin c st dw0 data die) (c.cpl st dw0 data) := by
  rcases s.fin_cases c st dw0 data die with ⟨h, -⟩ | ⟨h, -⟩ | ⟨x, -, h⟩
  · exact absurd h hin
  · rw [h] at hl; cases hl
  · rw [h]; exact State.give_given _ c x _

/-- A live command in flight that is refused ends with the status, whatever it leaves in its zone's hold (04 R95). -/
theorem State.refuse_ended {s : State} {c : Cmd} (hin : s.cmdOf c.q c.cid ≠ none) (hl : s.live c.slice c.q c.genS c.genQ = true) (st : Nat × Nat) :
    EndedWith (s.refuse c st) c.q c.cid st 0 [] := by
  have key : ∀ t, CmdEnds (s.fin c st) t → EndedWith t c.q c.cid st 0 [] := fun t h =>
    ⟨h.flight _ _ (s.cmdOf_fin c st 0 [] none), c.cpl st 0 [], rfl, rfl, rfl, rfl, rfl,
      (h.given _ (s.fin_given hin hl st 0 [] none)).posted_or_waits⟩
  unfold State.refuse
  split
  · exact key _ (CmdEnds.refl _)
  · dsimp only
    split
    · exact key _ (CmdEnds.failHolds _ _ _)
    · exact key _ (CmdEnds.refl _)

/-- A command put in the place of one in flight is in flight. -/
theorem State.cmdOf_putCmd {s : State} {c : Cmd} (h : s.cmdOf c.q c.cid ≠ none) : (s.putCmd c).cmdOf c.q c.cid ≠ none := by
  simp only [State.cmdOf, State.putCmd, ne_eq, List.find?_eq_none, List.forall_mem_map] at h ⊢
  refine fun k => h fun d hd => ?_
  have := k d hd
  split at this
  · simp at this
  · assumption

end Sys2Proof.Machine
end

section
/-! SUPPORT. How a CXL.mem access is resolved (02 R45, R60; 14 R322), and how DRAM serves a read that finds its channel empty (15 R333, R334,
R339). -/

namespace Sys2Proof.Machine

/-- The state with work noted now. -/
def State.busy (s : State) : State := { s with pwr := { s.pwr with busyAt := s.el } }

/-- Work that reaches an awake controller is noted, and nothing else changes (18 R396). -/
theorem State.work_awake {s : State} (h : s.awake = true) : s.work = s.busy := by
  have hst : s.rd F.PWR_STS_STATE ≠ pwDoze ∧ s.rd F.PWR_STS_STATE ≠ pwNap := by
    unfold State.awake at h
    simp only [decide_eq_true_eq] at h
    unfold pwDoze pwNap
    omega
  simp [State.work, State.wakeUp, State.busy, hst.1, hst.2]

/-- An access that the decoder and an entry take meets the state of the entry's slice, then the entry's rights. -/
theorem State.cxlResolve_entry {s : State} {hpa base size : Nat} {e : XltEnt} (hd : s.pcx.hdm = some (base, size)) (ha : base ≤ hpa)
    (hb : hpa < base + size) (hw : hpa - base < s.winSize) (he : s.cxlEntry (hpa - base) = some e) (wr : Bool) :
    s.cxlResolve hpa wr = if s.slState e.slice = slFenced then (s.inc F.SLI_XLT_FLT_CNT_CNT e.slice, .refuse)
      else if e.grants wr then (s, .serve (hpa - base)) else (s.cxlMiss e.slice true (hpa - base) wr, .refuse) := by
  have hin : (decide (hpa < base) || decide (hpa ≥ base + size) || decide (hpa - base ≥ s.winSize)) = false := by
    simp only [Bool.or_eq_false_iff, decide_eq_false_iff_not]
    omega
  simp only [State.cxlResolve, hd, hin, he]
  rfl

/-- The only request of a channel is the one that is served next. -/
theorem State.drcPick_single {s : State} {ch : Nat} {r : DReq} (h : s.dreqs ch = [r]) : s.drcPick ch = some r := by
  have hc : s.drcCand ch = [r] := by
    simp only [State.drcCand, h]
    cases hw : r.isWr <;> simp [hw, drcQueue]
  simp [State.drcPick, hc]

/-- A channel's requests are those that were put. -/
theorem State.dreqs_putDreqs (s : State) (ch : Nat) {l : List DReq} (h : l ≠ []) : (s.putDreqs ch l).dreqs ch = l := by
  simp [State.dreqs, State.putDreqs, State.setDrain, h]

/-- A clean read of a burst that is not poisoned answers with the burst, nothing counted (15 R339). -/
theorem State.drcAct_read {s : State} (hp : s.drc.poison = []) (port dpa arr dl hpa : Nat) :
    s.drcAct ⟨port, dpa, arr, dl, .read hpa 0 0⟩ = s.send (.pcie "CXL data" [hpa, s.burst64 (dpa / 64)]) := by
  simp [State.drcAct, State.readCheck, hp]

/-- A clean read that comes to an empty channel of DRAM, without poison, is served at once with its burst (15 R333, R334, R339). -/
theorem State.drcRequest_read_outs {s : State} (port : Nat) {dpa : Nat} (hpa : Nat) (hq : s.dreqs (s.chOf dpa) = []) (hp : s.drc.poison = []) :
    (s.drcRequest port dpa (.read hpa 0 0) 1).outs = s.outs ++ [.pcie "CXL data" [hpa, s.burst64 (dpa / 64)]] := by
  have hl := s.dreqs_putDreqs (s.chOf dpa) (List.cons_ne_nil ⟨port, dpa, s.el, s.el + s.rd F.DRC_PORT_TGT_TGT_NS port, .read hpa 0 0⟩ [])
  simp only [State.drcRequest, hq, List.nil_append, State.drcServeN, hl, State.drcServe, State.drcPick_single hl]
  rw [State.drcAct_read (by exact hp)]
  rfl

/-- A read that is resolved and clean answers with its burst. -/
theorem State.cxlMemRead_outs {s : State} {hpa base size : Nat} {e : XltEnt} (h : CxlServes s hpa base size e) (hr : e.rd = true)
    (hp : s.drc.poison = []) (hq : s.dreqs (s.chOf (hpa - base)) = []) : ∃ t, execCxlMemRead hpa 1 0 0 s = .next t ∧
      t.outs = s.outs ++ [.pcie "CXL data" [hpa, s.burst64 ((hpa - base) / 64)]] := by
  have hres : s.busy.cxlResolve hpa false = (s.busy, .serve (hpa - base)) :=
    (State.cxlResolve_entry (s := s.busy) h.hdm h.above h.below h.inWin h.entry false).trans ((if_neg h.open_).trans (if_pos hr))
  refine ⟨_, rfl, ?_⟩
  simp only [h.on, h.commits, State.work_awake h.awake, hres]
  exact State.drcRequest_read_outs (s := s.busy) 2 hpa hq hp

end Sys2Proof.Machine
end

section
/-! O51: what a FENCED slice's accesses and commands meet (02 R59, R60). -/

namespace Sys2Proof.Machine

/-! ### A FENCED slice's I/O commands (02 R59, R60) -/

/-- An entry that was fetched from a FENCED slice's queue, and that nothing else keeps from being executed. -/
structure FencedEntry (s : State) (q cid : Nat) (x : Queue) (c : Cmd) : Prop where
  queue : Tab.find q s.sl.qs = some x
  fenced : s.slState x.slice = slFenced
  cmd : s.cmdOf q cid = some c
  fetched : c.st = .fetched
  live : s.live c.slice q c.genS c.genQ = true
  ready : s.ready = true
  goes : s.resetting q = false
  tail : s.tailFull = false

/-- The execution of a FENCED slice's entry begins and is refused at once with 0xC0. -/
theorem FencedEntry.begin_eq {s : State} {q cid : Nat} {x : Queue} {c : Cmd} (h : FencedEntry s q cid x c) (k : CmdKind) (nsid lba len : Nat)
    (lr fua : Bool) (hint : Nat) : s.begin q cid k nsid lba len lr fua hint =
      .stop ((s.putCmd (Started s c k nsid lba len lr fua hint)).refuse (Started s c k nsid lba len lr fua hint) stFenced) := by
  obtain ⟨hq, hf, hc, hst, -, hr, hg, ht⟩ := h
  have he : s.entry q cid x = some (s, c) := by simp only [State.entry, hc, hst, if_true]
  have hr' : ∀ d, (s.putCmd d).ready = true := fun _ => hr
  simp only [State.begin, hq, hf, hg, ht, he, hr', Bool.and_false, Started]
  rfl

/-- A FENCED slice's entry ends with 0xC0, and no more than ends of commands may change has changed. -/
theorem FencedEntry.begin_ended {s : State} {q cid : Nat} {x : Queue} {c : Cmd} (h : FencedEntry s q cid x c) (k : CmdKind) (nsid lba len : Nat)
    (lr fua : Bool) (hint : Nat) : ∃ t, s.begin q cid k nsid lba len lr fua hint = .stop t ∧ EndedWith t q cid stFenced 0 [] ∧ CmdEnds s t := by
  refine ⟨_, h.begin_eq k nsid lba len lr fua hint, ?_, (CmdEnds.putCmd s _).trans (CmdEnds.refuse _ _ _)⟩
  have hid := List.find?_some h.cmd
  simp only [Bool.and_eq_true, decide_eq_true_eq] at hid
  obtain ⟨rfl, rfl⟩ := hid
  have hin : s.cmdOf c.q c.cid ≠ none := by rw [h.cmd]; exact Option.some_ne_none c
  exact State.refuse_ended (s.cmdOf_putCmd (c := Started s c k nsid lba len lr fua hint) hin) h.live stFenced

/-- A Read of a FENCED slice's queue ends with 0xC0 before any host address is resolved. -/
theorem FencedEntry.readCmd_ended {s : State} {q cid : Nat} {x : Queue} {c : Cmd} (h : FencedEntry s q cid x c) (hw : s.egWait q = false)
    (nsid lba len : Nat) (lr : Bool) (addr : Nat) :
    EndedWith (s.readCmd q cid nsid lba len lr addr) q cid stFenced 0 [] ∧ CmdEnds s (s.readCmd q cid nsid lba len lr addr) := by
  obtain ⟨t, hb, he, ht⟩ := h.begin_ended .read nsid lba len lr false 0
  have hrd : s.readCmd q cid nsid lba len lr addr = t := by simp [State.readCmd, hw, hb]
  rw [hrd]
  exact ⟨he, ht⟩

/-! ### A FENCED slice's accesses and admin commands (02 R59, R60) -/

/-- While the slice is FENCED an access that is resolved for it is refused and counted, nothing logged. -/
theorem State.xlate_fenced {s : State} {n : Nat} (h : s.slState n = slFenced) (func : Nat) (pasid : Option Nat) (addr : Nat) (wr cxl : Bool) :
    s.xlate n func pasid addr wr cxl = (s.inc F.SLI_XLT_FLT_CNT_CNT n, .miss) := if_pos h

/-- An admin command of a FENCED slice's sender begins and ends with 0xC0. -/
theorem State.admin_fenced {s : State} {o : Org} {n : Nat} (ha : s.img.admReady = true) (hm : s.muted o = false) (ho : o ≠ .mi)
    (hr : ((s.admQ o).map (fun e => s.resetting e.1)).getD false = false) (hs : s.sliceOf o = some n) (hf : s.slState n = slFenced) (cid : Nat)
    (f : State → State) : s.admin o cid f = (s.admBegin o).adm o cid (7, 0xC0) := by
  simp only [State.admin, ha, hm, ho, hr, hs, hf]
  rfl

/-- Settles O51. A CXL.mem access and an access of a DMA meet the slice's state first; an admin command is answered where it begins; an I/O command is
refused before its namespace is looked at, and its end changes no count of translation faults. -/
theorem fencedSliceIsRefused : Obligations.FencedSliceIsRefused := by
  unfold Obligations.FencedSliceIsRefused
  refine ⟨?_, fun n func addr pasid wr cxl s h => s.xlate_fenced h func pasid addr wr cxl, ?_, ?_⟩
  · intro hpa base size data mask room err sym e s hon hcm haw hd ha hb hw he hf
    have hres := fun wr => (State.cxlResolve_entry (s := s.busy) hd ha hb hw he wr).trans (if_pos hf)
    constructor
    · exact ⟨_, rfl, by simp only [hon, hcm, State.work_awake haw, hres]; rfl⟩
    · exact ⟨_, rfl, by simp only [hon, hcm, State.work_awake haw, hres]; rfl⟩
  · rintro o cid n f s ha hm ho hr - hs hf
    rw [State.admin_fenced ha hm ho hr hs hf]
    exact State.adm_refuses hm cid (7, 0xC0) 0
  · intro q cid nsid lba len addr lr x c s hq hf hc hst hl hr hg ht hw
    have h : FencedEntry s q cid x c := ⟨hq, hf, hc, hst, hl, hr, hg, ht⟩
    refine ⟨fun kind hint fua => ?_, _, rfl, ?_⟩
    · obtain ⟨t, hb, he, -⟩ := h.begin_ended kind nsid lba len lr fua hint
      exact ⟨t, hb, he⟩
    · obtain ⟨he, hk⟩ := h.readCmd_ended hw nsid lba len lr addr
      obtain ⟨hu, hd, hcnt⟩ := hk.keeps
      exact ⟨he, hcnt x.slice, hu, hd⟩

end Sys2Proof.Machine
end

section
/-! O50: a slice reset leaves the CXL window, its decoder and the translation entries alone (02 R58). `State.window` is what has to stay; one law for
each operation that a slice reset is made of says that it stays. -/

namespace Sys2Proof.Machine

/-- The CXL window with its decoder, and the translation entries: what a slice reset leaves alone (02 R58). -/
def State.window (s : State) : PcxSt × List XltEnt := (s.pcx, s.sl.xlt)

/-- A fold leaves the window alone where each of its steps does. -/
theorem State.foldl_window {α : Type} {f : State → α → State} (h : ∀ s a, (f s a).window = s.window) (l : List α) (s : State) :
    (l.foldl f s).window = s.window := by
  induction l generalizing s with
  | nil => rfl
  | cons a l ih => exact (ih _).trans (h s a)

theorem State.ite_window {p : Prop} [Decidable p] {a b : State} {w : PcxSt × List XltEnt} (ha : a.window = w) (hb : b.window = w) :
    (if p then a else b).window = w := by
  split <;> assumption

theorem CmdEnds.window {s t : State} (h : CmdEnds s t) : t.window = s.window := by
  obtain ⟨r, a, c, q, e, v, f, x, o, rfl⟩ := h.frame
  rfl

namespace State

variable (s : State)

/-! ### Basic updates -/

theorem zn_window (z : ZoneSt) : ({ s with zn := z } : State).window = s.window := rfl
theorem waits_window (l : List (Bool × Nat × Option (Org × Nat))) : ({ s with sl := { s.sl with waits := l } } : State).window = s.window := rfl
@[simp] theorem wr_window (f : Fld) (v i j p : Nat) : (s.wr f v i j p).window = s.window := rfl
@[simp] theorem addw_window (f : Fld) (n i j : Nat) : (s.addw f n i j).window = s.window := rfl
@[simp] theorem dec_window (f : Fld) (i j n : Nat) : (s.dec f i j n).window = s.window := rfl
@[simp] theorem send_window (o : Out) : (s.send o).window = s.window := rfl
@[simp] theorem draw_window : s.draw.window = s.window := rfl
@[simp] theorem putSx_window (n : Nat) (x : SliceX) : (s.putSx n x).window = s.window := rfl
@[simp] theorem jn_window (ty : Nat) (f : List Nat) (act : JAct) : (s.jn ty f act).window = s.window := rfl
@[simp] theorem jnZone_window (h : Nat) : (s.jnZone h).window = s.window := rfl
@[simp] theorem zseq_window (h : Nat) : (s.zseq h).window = s.window := rfl
@[simp] theorem putZx_window (h : Nat) (z : ZoneX) : (s.putZx h z).window = s.window := rfl
@[simp] theorem putStream_window (k : Nat) (x : Stream) : (s.putStream k x).window = s.window := rfl
@[simp] theorem putView_window (v : EvView) : (s.putView v).window = s.window := rfl
@[simp] theorem loseFor_window (c : Ctl) : (s.loseFor c).window = s.window := rfl
@[simp] theorem putDie_window (d : Nat) (x : DieSt) : (s.putDie d x).window = s.window := rfl
@[simp] theorem enq_window (d : Nat) (o : DOp) : (s.enq d o).window = s.window := rfl
@[simp] theorem holdBy_window (h : Nat) (n : Option Nat) : (s.holdBy h n).window = s.window := rfl
@[simp] theorem dropSram_window (h p : Nat) : (s.dropSram h p).window = s.window := rfl
@[simp] theorem giveSram_window (h : Nat) (r : Bool) : (s.giveSram h r).window = s.window := rfl
@[simp] theorem norWrite_window (k a b n : Nat) (l : List Rec) : (s.norWrite k a b n l).window = s.window := rfl

@[simp] theorem zmark_window (h : Nat) : (s.zmark h).window = s.window := by
  unfold State.zmark
  split <;> rfl

/-! ### Completions and events -/

@[simp] theorem sendQp_window (n : Nat) (x : Out) : (s.sendQp n x).window = s.window := (CmdEnds.sendQp s n x).window
@[simp] theorem fin_window (c : Cmd) (st : Nat × Nat) (d : Nat) (l : List Nat) (e : Option Nat) : (s.fin c st d l e).window = s.window :=
  (CmdEnds.fin s c st d l e).window
@[simp] theorem failHolds_window (h : Nat) (st : Nat × Nat) : (s.failHolds h st).window = s.window := (CmdEnds.failHolds s h st).window

/-- Completing an admin command. -/
@[simp] theorem adm_window (o : Org) (cid : Nat) (st : Nat × Nat) (d : Nat) (l : List Nat) : (s.adm o cid st d l).window = s.window := by
  obtain ⟨errs, n, r, qs, h, -⟩ := s.adm_before o cid st
  have post : ∀ (m : State) (c : Cpl) (t : Stamp), (m.admPost o c t).window = m.window := by
    intro m c t
    cases o with
    | fn k =>
      simp only [State.admPost]
      split
      · rw [m.postAdm_eq k c]; rfl
      · exact (CmdEnds.hold m k c t).window
    | fab a =>
      simp only [State.admPost]
      split
      · exact m.sendQp_window _ _
      · rfl
    | mi => rfl
    | io q => rfl
  rw [State.adm, post, h]
  rfl

@[simp] theorem notify_window (c : Ctl) (ty info page : Nat) : (s.notify c ty info page).window = s.window := by
  unfold State.notify
  split
  · exact adm_window _ _ _ _ _ _
  · split <;> rfl

@[simp] theorem reportTo_window (cls : Nat) (c : Ctl) : (s.reportTo cls c).window = s.window := by
  simp [State.reportTo, apply_ite State.window]

@[simp] theorem charge_window (n : Nat) (q : Option Nat) (c : Nat) : (s.charge n q c).window = s.window := by
  unfold State.charge
  dsimp only
  split
  · rfl
  · split <;> rfl

theorem norCopy_window (k n : Nat) (l : List Rec) : (s.norCopy k n l).window = s.window := by
  unfold State.norCopy
  exact foldl_window (fun m _ => m.norWrite_window ..) _ s

theorem faultFlush_window : s.faultFlush.window = s.window :=
  (norCopy_window _ 1 _ _).trans (charge_window { s with evr := _ } 0 none _)

theorem recAppend_window (code arg trig : Nat) (a : List Nat) (fl : Bool) : (s.recAppend code arg trig a fl).window = s.window := by
  unfold State.recAppend
  dsimp only
  split
  · rfl
  · split <;> rfl

theorem record_window (code arg : Nat) : (s.record code arg).window = s.window := by
  unfold State.record
  split
  · rfl
  · split
    · exact recAppend_window ..
    · split
      · rfl
      · split
        · exact (faultFlush_window _).trans (recAppend_window ..)
        · exact recAppend_window ..

@[simp] theorem raise_window (code n arg : Nat) : (s.raise code n arg).window = s.window := by
  unfold State.raise
  refine (foldl_window (fun m c => m.reportTo_window _ c) _ _).trans ?_
  refine (ite_window (send_window _ _) rfl).trans ((record_window _ _ _).trans ?_)
  exact ite_window rfl (foldl_window loseFor_window _ _)

@[simp] theorem limits_window (n : Nat) : (s.limits n).window = s.window := by
  simp [State.limits, apply_ite State.window]

/-! ### Queues and QPs -/

theorem emptyQueue_window (i : Nat) : (s.emptyQueue i).window = s.window := by
  unfold State.emptyQueue
  split <;> rfl

/-- Writes that leave a zone's hold. -/
theorem leaveHold_window (l : List Cmd) : (l.foldl (fun (s : State) c => (s.dec F.ZON_ENT2_HOLD c.zone).zseq c.zone) s).window = s.window := by
  refine foldl_window (fun m c => ?_) l s
  exact (zseq_window _ _).trans (dec_window m _ _ _ _)

theorem dropCmds_window (ok : Nat → Bool) : (s.dropCmds ok).window = s.window := by
  unfold State.dropCmds
  exact leaveHold_window s _

theorem queueReset_window (i : Nat) : (s.queueReset i).1.window = s.window := by
  have drop := s.dropCmds_window (fun j => j = i)
  unfold State.queueReset
  split
  · rfl
  · dsimp only
    split
    · exact drop
    · split
      · exact drop
      · exact (emptyQueue_window _ i).trans drop

theorem dropMsg_window (n : Nat) : (s.dropMsg n).window = s.window := by
  unfold State.dropMsg
  split
  · rfl
  · split <;> rfl

theorem qpError_window (n : Nat) : (s.qpError n).window = s.window := by
  have msg : ∀ (k : Option Nat) (m : State), (match k with
      | some k => m.dropMsg k
      | none => m).window = m.window := by
    intro k m
    cases k with
    | some k => exact m.dropMsg_window k
    | none => rfl
  unfold State.qpError
  split
  · rfl
  · split
    · rfl
    · refine (msg _ _).trans ?_
      dsimp only
      split
      · exact queueReset_window _ _
      · rfl

theorem removeQueue_window (i : Nat) : (s.removeQueue i).window = s.window := by
  unfold State.removeQueue
  split
  · rfl
  · exact leaveHold_window s _

theorem endAssoc_window (a : Nat) : (s.endAssoc a).window = s.window := by
  refine (foldl_window (f := fun s i => ((s.queueReset i).1).removeQueue i) (fun m i => ?_) _ _).trans (foldl_window qpError_window _ s)
  exact (removeQueue_window _ i).trans (m.queueReset_window i)

theorem dropUnbound_window (n : Nat) : (s.dropUnbound n).window = s.window :=
  (foldl_window removeQueue_window _ _).trans (foldl_window endAssoc_window _ s)

/-! ### Blocks and programs -/

variable {s} in
theorem takeBlk_window {d : Nat} {onebit rebuild : Bool} {t : State} {b : Blk} (h : s.takeBlk d onebit rebuild = some (t, b)) :
    t.window = s.window := by
  unfold State.takeBlk at h
  split at h
  · cases h
  · obtain ⟨rfl, -⟩ := Prod.mk.inj (Option.some.inj h)
    exact (putDie_window _ _ _).trans (ite_window rfl rfl)

theorem takeAll_window (onebit : Bool) (l : List Nat) : (s.takeAll onebit l).1.window = s.window := by
  induction l generalizing s with
  | nil => rfl
  | cons d ds ih =>
    unfold State.takeAll
    split
    · next t b h => exact (ih t).trans (takeBlk_window h)
    · exact ih s

theorem newRow_window (g : Grp) (shadow win : Bool) (set : Nat) : (s.newRow g shadow win set).1.window = s.window := by
  unfold State.newRow
  dsimp only
  split
  · exact (takeAll_window _ _ _).trans (takeAll_window s _ _)
  · exact takeAll_window s _ _

theorem newRows_window (g : Grp) (shadow win : Bool) (l : List Nat) : (s.newRows g shadow win l).1.window = s.window := by
  induction l generalizing s with
  | nil => rfl
  | cons x xs ih => exact (ih _).trans (s.newRow_window g shadow win x)

theorem jnBlks_window (l : List Blk) : (s.jnBlks l).window = s.window := by
  unfold State.jnBlks
  exact foldl_window (fun m _ => m.jn_window ..) _ s

theorem putRow_window (r : RowId) (x : SRow) : (s.putRow r x).window = s.window := by
  unfold State.putRow
  split
  · split <;> rfl
  · split <;> rfl

theorem openWin_window (r : RowId) : (s.openWin r).window = s.window := by
  unfold State.openWin
  split
  · rfl
  · next x _ =>
    refine ite_window rfl ?_
    have row := (putRow_window _ r { x with
      win := x.win ++ [(s.takeAll true (x.mem.map (·.die))).2], pages := x.pages ++ [List.replicate x.mem.length 0] }).trans
      ((jnBlks_window _ (s.takeAll true (x.mem.map (·.die))).2).trans (s.takeAll_window true (x.mem.map (·.die))))
    exact ite_window row row

theorem progPage_window (r : RowId) (k w p m n : Nat) (purp : Purp) (force : Bool) : (s.progPage r k w p m n purp force).window = s.window := by
  unfold State.progPage
  split
  · rfl
  · refine ite_window rfl ?_
    have back : ∀ (b : Bool) (u : List StU), (if b then s else { s with stg := { s.stg with units := u } }).window = s.window :=
      fun _ _ => ite_window rfl rfl
    refine ite_window (back _ _) ((enq_window _ _ _).trans (ite_window ((charge_window _ _ _ _).trans (back _ _)) (back _ _)))

theorem progWl_window (r : RowId) (w n : Nat) (purp : Purp) : (s.progWl r w n purp).window = s.window := by
  unfold State.progWl
  split
  · rfl
  · exact foldl_window (fun m _ => m.enq_window _ _) _ s

/-- The one-bit window that a page needs is opened where it is not yet. -/
theorem needWin_window (r : RowId) (w : Nat) : (match s.srow r with
    | some x => if w < x.win.length then s else s.openWin r
    | none => s).window = s.window := by
  split
  · exact ite_window rfl (openWin_window s r)
  · rfl

theorem progReady_window (r : RowId) (k n fr upto : Nat) (direct : Bool) : (s.progReady r k n fr upto direct).window = s.window := by
  unfold State.progReady
  split
  · exact foldl_window (fun m _ => m.progWl_window _ _ _ _) _ s
  · refine (foldl_window (fun m _ => m.progPage_window ..) _ _).trans (foldl_window (fun m _ => ?_) _ s)
    exact foldl_window (fun m i => (progPage_window _ _ _ _ _ _ _ _ _).trans (m.needWin_window r _)) _ m

theorem progZone_window (h k fr upto : Nat) : (s.progZone h k fr upto).window = s.window := by
  unfold State.progZone
  exact foldl_window (fun m _ => ite_window (m.progReady_window ..) rfl) _ s

/-! ### Zones -/

@[simp] theorem setZst_window (h z : Nat) : (s.setZst h z).window = s.window := by
  simp [State.setZst, apply_ite State.window]

theorem promote_window : s.promote.window = s.window := by
  unfold State.promote
  refine foldl_window (fun m h => ite_window ?_ rfl) _ s
  split <;> rfl

theorem dropSlot_window (h : Nat) : (s.dropSlot h).window = s.window :=
  ite_window (promote_window _) (ite_window rfl rfl)

theorem dropDirect_window (h : Nat) : (s.dropDirect h).window = s.window := ite_window rfl rfl

theorem padDone_window (r : RowId) : (s.padDone r).window = s.window :=
  ite_window rfl ((dropSlot_window _ _).trans (dropDirect_window _ _))

theorem padRow_window (h : Nat) : (s.padRow h).window = s.window := by
  unfold State.padRow
  refine ite_window rfl ((padDone_window _ _).trans (ite_window rfl (ite_window (ite_window rfl (progWl_window ..)) ?_)))
  refine foldl_window (fun m i => (foldl_window (fun m _ => ?_) _ _).trans (m.needWin_window _ _)) _ _
  split
  · exact ite_window (progPage_window ..) rfl
  · rfl

theorem becomeFull_window (h : Nat) : (s.becomeFull h).window = s.window := by
  have ended : ∀ m : State, ((m.failHolds h stZFull).failUncommitted h stZFull).window = m.window := by
    intro m
    unfold State.failUncommitted
    exact (foldl_window (fun m c => m.fin_window c _ _ _ _) _ _).trans (m.failHolds_window h _)
  have full : ∀ z : ZoneX, ((((s.zmark h).putZx h z).wr F.ZON_ENT2_WP_OFF zoneBlocks h).setZst h znFull).window = s.window := by
    intro z
    simp
  unfold State.becomeFull
  exact ite_window ((padRow_window _ h).trans ((ended _).trans (full _))) ((ended _).trans (full _))

theorem takeSlot_window (h : Nat) : (s.takeSlot h).window = s.window := by
  unfold State.takeSlot
  split
  · exact giveSram_window s h _
  · split
    · exact (giveSram_window _ h false).trans (dropSram_window s _ 2)
    · exact (zseq_window _ h).trans (wr_window s _ _ _ _ _)

variable {s} in
theorem activate_window {h dg : Nat} {direct : Bool} {t : State} (ht : s.activate h dg direct = some t) : t.window = s.window := by
  unfold State.activate at ht
  dsimp only at ht
  split at ht
  · cases ht
  · split at ht
    · cases ht
    · split at ht
      · cases ht
      · obtain rfl := Option.some.inj ht
        refine (foldl_window (fun m (r : SRow) => (jnBlks_window _ _).trans (m.jnBlks_window _)) _ _).trans ?_
        refine (foldl_window (fun m _ => m.jn_window ..) _ _).trans ((takeSlot_window _ h).trans ?_)
        refine ite_window ((addw_window _ _ _ _ _).trans ?_) ?_
        all_goals
          iterate 8 refine (wr_window _ _ _ _ _ _).trans ?_
          exact (putZx_window _ _ _).trans ((zn_window _ _).trans ((newRows_window _ _ _ _ _).trans (zmark_window s h)))

/-! ### Capture streams -/

theorem notice_window (x : Stream) (num st : Nat) : (s.notice x num st).window = s.window := by
  unfold State.notice
  split
  · split
    · exact ite_window rfl (sendQp_window s _ _)
    · rfl
  · rfl

theorem setStream_window (n st rsn : Nat) : (s.setStream n st rsn).window = s.window := by
  unfold State.setStream
  split
  · rfl
  · next x _ =>
    have told : ∀ code arg : Nat, ((s.putStream n { x with state := st, blk := rsn }).raise code x.slice arg).window = s.window :=
      fun _ _ => (raise_window _ _ _ _).trans (putStream_window s n _)
    exact ite_window rfl (ite_window (told _ _) (ite_window (ite_window rfl (told _ _)) (ite_window (told _ _) rfl)))

theorem advanceLog_window (n : Nat) (x : Stream) (p : Nat) : (s.advanceLog n x p).window = s.window := by
  unfold State.advanceLog
  split
  · rfl
  · refine (foldl_window (fun m e => ite_window rfl ?_) _ _).trans (putStream_window s n _)
    refine (jnZone_window _ _).trans ((zseq_window _ _).trans ((progZone_window ..).trans ?_))
    exact (putZx_window _ _ _).trans (wr_window m _ _ _ _ _)

/-- Activations in turn, each of which may fail, leave the window alone where they succeed. -/
theorem foldl_some_window {α : Type} {f : Option State → α → Option State} (hn : ∀ a, f none a = none)
    (hf : ∀ m a t, f (some m) a = some t → t.window = m.window) (l : List α) {t : State} (h : l.foldl f (some s) = some t) :
    t.window = s.window := by
  induction l generalizing s with
  | nil => obtain rfl := Option.some.inj h; rfl
  | cons a l ih =>
    rw [List.foldl_cons] at h
    cases hm : f (some s) a with
    | some m => exact (ih m (hm ▸ h)).trans (hf s a m hm)
    | none =>
      have none_stays : l.foldl f none = none := by
        clear h ih
        induction l with
        | nil => rfl
        | cons b l ih => rw [List.foldl_cons, hn]; exact ih
      rw [hm, none_stays] at h
      cases h

theorem openAll_window (n : Nat) (x : Stream) (direct : Bool) (hs : List Nat) : (s.openAll n x direct hs).1.window = s.window := by
  unfold State.openAll
  split
  · rfl
  · split
    · next t h =>
      refine foldl_some_window s (fun _ => rfl) (fun m a u hu => ?_) hs h
      obtain ⟨v, hv, rfl⟩ := Option.map_eq_some_iff.1 hu
      exact (holdBy_window _ _ _).trans ((setZst_window _ _ _).trans (activate_window hv))
    · rfl

theorem openSet_window (n : Nat) : (s.openSet n).window = s.window := by
  unfold State.openSet
  split
  · rfl
  · dsimp only
    split
    · exact setStream_window s _ _ _
    · refine ite_window (setStream_window s _ _ _) (ite_window (setStream_window s _ _ _) ?_)
      exact (putStream_window _ _ _).trans (openAll_window s _ _ _ _)

theorem leaveSet_window (n : Nat) (x : Stream) : (s.leaveSet n x).window = s.window := by
  unfold State.leaveSet
  split
  · rfl
  · refine (putStream_window _ _ _).trans (foldl_window (fun m h => ?_) _ s)
    exact (holdBy_window _ _ _).trans (ite_window (becomeFull_window m h) rfl)

theorem dropFrame_window (n key : Nat) : (s.dropFrame n key).window = s.window := by
  unfold State.dropFrame
  split
  · rfl
  · split
    · rfl
    · extract_lets y cap dropped told full len drawn z advanced logged
      have htold : told.window = s.window := notice_window dropped _ _ _
      refine ite_window htold ?_
      have hdrawn : drawn.window = s.window := (ite_window (draw_window told) rfl).trans htold
      refine ite_window hdrawn ?_
      have hlogged : logged.window = s.window := (advanceLog_window _ _ _ _).trans hdrawn
      split
      · exact ite_window ((openSet_window _ _).trans ((leaveSet_window _ _ _).trans hlogged)) hlogged
      · exact hlogged

theorem capDrop_window (ok : Stream → Bool) : (s.capDrop ok).window = s.window := by
  unfold State.capDrop
  exact foldl_window (fun m e => (foldl_window (fun m f => m.dropFrame_window _ _) _ _).trans (m.dropMsg_window _)) _ s

theorem stopEnd_window (k : Nat) : (s.stopEnd k).window = s.window := by
  unfold State.stopEnd
  split
  · rfl
  · split
    · rfl
    · refine ite_window rfl ((adm_window ..).trans ((putStream_window _ _ _).trans (foldl_window (fun m h => ?_) _ s)))
      exact ite_window (setZst_window m _ _) rfl

/-! ### Fencing and the slice reset -/

theorem endCmds_window (n : Nat) (st : Nat × Nat) : (s.endCmds n st).window = s.window := by
  unfold State.endCmds
  refine (foldl_window (fun m e => ?_) _ _).trans (foldl_window (fun m c => ite_window ?_ (fin_window m _ _ _ _ _)) _ s)
  · exact adm_window { m with ras := _ } _ _ _ _ _
  · exact (fin_window _ _ _ _ _ _).trans rfl

theorem capFence_window (n : Nat) : (s.capFence n).window = s.window := by
  unfold State.capFence
  exact foldl_window (fun m _ => m.setStream_window _ _ _) _ s

theorem fence_window (n rsn : Nat) : (s.fence n rsn).window = s.window := by
  unfold State.fence
  refine ite_window ?_ (ite_window (ite_window rfl rfl) rfl)
  refine (raise_window _ _ _ _).trans ((capFence_window _ n).trans ((endCmds_window _ n _).trans ((limits_window _ n).trans ?_)))
  exact (wr_window _ _ _ _ _ _).trans (wr_window s _ _ _ _ _)

theorem endReset_window (n : Nat) : (s.endReset n).window = s.window := by
  have emptied : ∀ (g : Nat) (ks is : List Nat), ((is.foldl State.emptyQueue (ks.foldl State.stopEnd
      ((s.wr F.SLI_GEN_GEN g n).capDrop (fun x => x.slice = n)))).dropUnbound n).window = s.window := fun g ks is =>
    (dropUnbound_window _ n).trans ((foldl_window emptyQueue_window is _).trans ((foldl_window stopEnd_window ks _).trans
      ((capDrop_window _ _).trans (wr_window s _ g n 0 0))))
  unfold State.endReset
  dsimp only
  split
  · exact (limits_window _ n).trans ((wr_window ..).trans ((wr_window ..).trans ((putSx_window ..).trans (emptied _ _ _))))
  · exact (fence_window _ n _).trans ((wr_window ..).trans ((wr_window ..).trans ((putSx_window ..).trans (emptied _ _ _))))

theorem admBegin_window (o : Org) : (s.admBegin o).window = s.window := by
  unfold State.admBegin
  split <;> rfl

/-- A slice reset, whether it is refused, ends at once or waits for operations in flight (02 R55, R57). -/
theorem sliceReset_window (o : Org) (cid n : Nat) : ∃ t, execSliceReset o cid n s = .next t ∧ t.window = s.window := by
  refine ⟨_, rfl, admin_keeps (P := fun t => t.window = s.window) rfl ?_ ((adm_window ..).trans (s.admBegin_window o))⟩
  have hb := s.admBegin_window o
  refine ite_window hb ?_
  split
  · exact (adm_window ..).trans hb
  · have started : ∀ ok, (((((s.admBegin o).wr F.SLI_STS_STATE slResetting n).limits n).qpErrSlice n).dropCmds ok).window = s.window := by
      intro ok
      refine (dropCmds_window _ ok).trans ((foldl_window qpError_window _ _).trans ((limits_window _ n).trans ?_))
      exact (wr_window _ _ _ _ _ _).trans hb
    exact ite_window ((waits_window _ _).trans (started _)) ((adm_window ..).trans ((endReset_window _ n).trans (started _)))

end State

/-! ### A read of the window while the slice is RESETTING -/

/-- A slice's generation is no part of what a CXL.mem access is resolved by. -/
theorem State.cxlServes_wr_gen {s : State} {hpa base size : Nat} {e : XltEnt} (h : CxlServes s hpa base size e) (gen n : Nat) :
    CxlServes (s.wr F.SLI_GEN_GEN gen n) hpa base size e := by
  have hrd : ∀ (f : Fld) (i j p : Nat), f.id ≠ F.SLI_GEN_GEN.id → (s.wr F.SLI_GEN_GEN gen n).rd f i j p = s.rd f i j p :=
    fun f i j p hf => s.rd_wr_id F.SLI_GEN_GEN f gen n 0 0 i j p hf
  obtain ⟨hon, hcm, haw, hd, ha, hb, hw, he, ho⟩ := h
  refine ⟨?_, hcm, ?_, hd, ha, hb, ?_, he, ?_⟩
  · unfold State.cxlOn at hon ⊢
    rwa [hrd _ _ _ _ (by decide), hrd _ _ _ _ (by decide), hrd _ _ _ _ (by decide)]
  · unfold State.awake at haw ⊢
    rwa [hrd _ _ _ _ (by decide)]
  · unfold State.winSize at hw ⊢
    rwa [hrd _ _ _ _ (by decide)]
  · unfold State.slState at ho ⊢
    rwa [hrd _ _ _ _ (by decide)]

/-- A slice's generation is no part of the address hash. -/
theorem State.chOf_wr_gen (s : State) (gen n dpa : Nat) : (s.wr F.SLI_GEN_GEN gen n).chOf dpa = s.chOf dpa := by
  have hsel : ∀ k, (s.wr F.SLI_GEN_GEN gen n).sel dpa k = s.sel dpa k := fun k => by
    unfold State.sel
    rw [s.rd_wr_id _ _ _ _ _ _ _ _ _ (by decide)]
  simp only [State.chOf, hsel]

/-- Settles O50: every part of a slice reset leaves decoder, window and entries alone, and what resolves and serves a read asks for no generation. -/
theorem sliceResetLeavesTheWindow : Obligations.SliceResetLeavesTheWindow := by
  unfold Obligations.SliceResetLeavesTheWindow
  refine ⟨fun o cid n s => ?_, fun hpa base size gen e s h _ hr hp hq => ?_⟩
  · obtain ⟨t, ht, hw⟩ := s.sliceReset_window o cid n
    exact ⟨t, ht, congrArg Prod.fst hw, congrArg Prod.snd hw⟩
  · exact State.cxlMemRead_outs (State.cxlServes_wr_gen h gen e.slice) hr hp (by rw [s.chOf_wr_gen]; exact hq)

end Sys2Proof.Machine
end

section
/-! O52: every completion queue of a function has its own interrupt vector (03 R81). Beginning and completing an admin command move no queue to another
vector, so a Create keeps the vectors distinct where the queue that it adds has a vector that is not taken. -/

namespace Sys2Proof.Machine

/-! ### Admin commands and completion queues -/

/-- The beginning of an admin command changes contexts of queues alone. -/
theorem State.admBegin_eq (s : State) (o : Org) : ∃ qs, s.admBegin o = { s with sl := { s.sl with qs := qs } } := by
  unfold State.admBegin
  split <;> exact ⟨_, rfl⟩

theorem State.hold_sl (s : State) (n : Nat) (c : Cpl) (t : Stamp) : (s.hold n c t).sl = s.sl := by
  unfold State.hold
  split <;> rfl

/-- Giving a completion, whether it is posted, sent or postponed, moves tails of completion queues alone. -/
theorem State.admPost_sameCqs (s : State) (o : Org) (c : Cpl) (t : Stamp) : SameCqs s (s.admPost o c t) := by
  cases hm : s.muted o with
  | false => exact (State.admPost_eq hm c t).1
  | true =>
    cases o with
    | fn n =>
      have hc : ¬ s.canSend n = true := by simpa [State.muted] using hm
      rw [SameCqs, State.admPost, if_neg hc, s.hold_sl]
    | fab a => cases hm
    | mi => cases hm
    | io q => cases hm

/-- Completing an admin command moves tails of completion queues alone. -/
theorem State.adm_sameCqs (s : State) (o : Org) (cid : Nat) (st : Nat × Nat) (dw0 : Nat) (data : List Nat) : SameCqs s (s.adm o cid st dw0 data) := by
  obtain ⟨errs, n, r, qs, h, -⟩ := s.adm_before o cid st
  have hp : SameCqs ((s.logErr o cid st.1 st.2 none).admLess o) (s.adm o cid st dw0 data) := State.admPost_sameCqs _ _ _ _
  rwa [h] at hp

/-! ### Vectors -/

/-- No two completion queues of a function have the same vector. -/
def VecsDistinct (s : State) : Prop := s.sl.cqs.Pairwise (fun a b => ¬(a.func = b.func ∧ a.vec = b.vec))

/-- Distinctness of vectors does not depend on the queues' tails. -/
theorem vecsDistinct_of_sameCqs {s t : State} (h : SameCqs s t) (hs : VecsDistinct s) : VecsDistinct t := by
  have hmap : (t.sl.cqs.map (fun c => { c with tail := 0 })).Pairwise (fun a b => ¬(a.func = b.func ∧ a.vec = b.vec)) := by
    rw [h]
    exact List.pairwise_map.2 hs
  exact List.pairwise_map.1 hmap

theorem State.vecTaken_iff (s : State) (func vec : Nat) : s.vecTaken func vec = true ↔
    (∃ c ∈ s.sl.cqs, c.func = func ∧ c.vec = vec) ∨
      (func = 0 ∧ ∃ i, i < 8 ∧ s.rd F.LGR_EVT_VEC_EN i = 1 ∧ s.rd F.LGR_EVT_VEC_VECTOR i = vec) := by
  simp [State.vecTaken]

/-- A queue whose vector is not taken can be added. -/
theorem VecsDistinct.append {s : State} (hs : VecsDistinct s) {q : CQ} (hq : s.vecTaken q.func q.vec = false) :
    VecsDistinct { s with sl := { s.sl with cqs := s.sl.cqs ++ [q] } } := by
  refine List.pairwise_append.2 ⟨hs, List.pairwise_singleton _ _, fun c hc d hd hsame => ?_⟩
  obtain rfl : d = q := List.mem_singleton.1 hd
  have htaken : s.vecTaken d.func d.vec = true := (s.vecTaken_iff _ _).2 (.inl ⟨c, hc, hsame⟩)
  rw [hq] at htaken
  cases htaken

/-! ### Create I/O Completion Queue -/

/-- The executed command of a function, where its queue's number is good and free and its size is in range, fails with Invalid Interrupt Vector if the
vector is taken or past the function's table. -/
theorem execCreateIoCompletionQueue_refuses_vec {s : State} {n cqid qsize vec : Nat} (hs : Served s (.fn n)) (cid : Nat)
    (hlo : 1 ≤ cqid) (hhi : cqid ≤ ioQueues) (hfree : ∀ c ∈ s.sl.cqs, ¬(c.func = n ∧ c.cqid = cqid)) (hmin : 1 ≤ qsize) (hmax : qsize ≤ mqes)
    (hvec : s.vecTaken n vec = true ∨ s.vecTable n ≤ vec) :
    execCreateIoCompletionQueue (.fn n) cid cqid qsize vec s = .next ((s.admBegin (.fn n)).adm (.fn n) cid stVec) := by
  obtain ⟨qs, hb⟩ := s.admBegin_eq (.fn n)
  have hid : ¬ (cqid = 0 || cqid > ioQueues || s.sl.cqs.any (fun c => c.func = n && c.cqid = cqid)) = true := by
    have hne : cqid ≠ 0 := by omega
    simpa [hne, hhi] using hfree
  have hsize : ¬ (qsize = 0 || qsize > mqes) = true := by
    have hne : qsize ≠ 0 := by omega
    simpa [hne] using hmax
  have hbad : (s.vecTaken n vec || vec ≥ s.vecTable n) = true := by simpa using hvec
  unfold execCreateIoCompletionQueue
  rw [State.admin_served hs, hb]
  exact congrArg Host.Outcome.next ((if_neg hid).trans ((if_neg hsize).trans (if_pos hbad)))

/-- A Create I/O Completion Queue of a sender may lead from `s` to `t`: nothing was done, the command was refused, or it ended with a new queue on a vector
that was not taken. -/
def CqCreateStep (s : State) (o : Org) (cid : Nat) (t : State) : Prop :=
  t = s ∨ (∃ st, t = (s.admBegin o).adm o cid st) ∨
    ∃ q : CQ, (s.admBegin o).vecTaken q.func q.vec = false ∧
      t = { s.admBegin o with sl := { (s.admBegin o).sl with cqs := (s.admBegin o).sl.cqs ++ [q] } }.adm o cid stOk

theorem execCreateIoCompletionQueue_steps (o : Org) (cid cqid qsize vec : Nat) (s : State) :
    ∃ t, execCreateIoCompletionQueue o cid cqid qsize vec s = .next t ∧ CqCreateStep s o cid t := by
  have refused : ∀ st, CqCreateStep s o cid ((s.admBegin o).adm o cid st) := fun st => .inr (.inl ⟨st, rfl⟩)
  refine ⟨_, rfl, State.admin_keeps (P := CqCreateStep s o cid) (.inl rfl) ?_ (refused stFenced)⟩
  split
  · exact refused stOpcode
  · next f _ =>
    split
    · exact refused stQid
    · split
      · exact refused stQsize
      · split
        · exact refused stVec
        · next hvec =>
          have hfree : (s.admBegin o).vecTaken f vec = false := by
            simp only [Bool.or_eq_true, not_or, Bool.not_eq_true] at hvec
            exact hvec.1
          exact .inr (.inr ⟨⟨f, cqid, vec, qsize + 1, 0, 0⟩, hfree, rfl⟩)

/-- Settles O52. A vector that is taken or past the table is met by the test for it, whatever else the command would do; what the command adds is tested
against every vector in use. -/
theorem completionQueueVectors : Obligations.CompletionQueueVectors := by
  unfold Obligations.CompletionQueueVectors
  refine ⟨fun n cid cqid qsize vec s hs hlo hhi hfree hmin hmax hvec => ?_, fun o cid cqid qsize vec s hd => ?_⟩
  · have hbad : s.vecTaken n vec = true ∨ s.vecTable n ≤ vec := by rwa [s.vecTaken_iff, or_assoc]
    obtain ⟨-, hmuted, -⟩ := id hs
    exact ⟨_, execCreateIoCompletionQueue_refuses_vec hs cid hlo hhi hfree hmin hmax hbad, State.adm_refuses hmuted cid stVec 0⟩
  · have hbegin : VecsDistinct (s.admBegin o) ∧ (s.admBegin o).zn = s.zn := by
      obtain ⟨qs, hb⟩ := s.admBegin_eq o
      rw [hb]
      exact ⟨hd, rfl⟩
    obtain ⟨hdist, hzn⟩ := hbegin
    obtain ⟨t, ht, rfl | ⟨st, rfl⟩ | ⟨q, hq, rfl⟩⟩ := execCreateIoCompletionQueue_steps o cid cqid qsize vec s
    · exact ⟨_, ht, hd, rfl⟩
    · exact ⟨_, ht, vecsDistinct_of_sameCqs (State.adm_sameCqs ..) hdist, (State.adm_zn ..).trans hzn⟩
    · exact ⟨_, ht, vecsDistinct_of_sameCqs (State.adm_sameCqs ..) (hdist.append hq), (State.adm_zn ..).trans hzn⟩

end Sys2Proof.Machine
end

section
/-! O53: a frame's arrival stamp is that of its first datagram, or of the first packet of its message (05 R120). An arrival at a stream that takes it opens
a frame with the stamp it came with; placing the frame and passing its blocks to lanes change no more than what `SameArrival` leaves open. -/

namespace Sys2Proof.Machine

/-! ### Streams -/

@[simp] theorem State.stream_putStream (s : State) (k : Nat) (x : Stream) : (s.putStream k x).stream k = some x := Tab.find_put_same _ _ _

theorem State.stream_congr {s t : State} (h : t.cap.streams = s.cap.streams) (k : Nat) : t.stream k = s.stream k := congrArg (Tab.find k) h

@[simp] theorem State.foldTake_cap (s : State) (n : Nat) : (s.foldTake n).cap = s.cap := by
  unfold State.foldTake
  split <;> rfl

/-- Whether a stream's set is open hangs on namespaces and states of zones alone. -/
theorem State.setUp_congr {s t : State} (hz : t.zn = s.zn) (hst : ∀ h, t.zst h = s.zst h) (x : Stream) : t.setUp x = s.setUp x := by
  simp only [State.setUp, State.setZones, State.sZone, hz, hst]

/-- A charge changes no zone. -/
theorem State.setUp_charge (s : State) (n c : Nat) (x : Stream) : (s.charge n none c).setUp x = s.setUp x := by
  refine State.setUp_congr (Told.charge s n c).fields.1 (fun h => ?_) x
  calc (s.charge n none c).rd F.ZON_ENT0_STATE h
      = (s.addw F.LGR_SL_CHG_CHG c (if s.slState n = slFree then 0 else n)).rd F.ZON_ENT0_STATE h :=
        State.rd_wr_id _ F.LGR_SL_NORM_N _ _ _ _ _ _ _ _ (by decide)
    _ = s.rd F.ZON_ENT0_STATE h := State.rd_addw_id _ _ _ _ _ _ _ _ _ (by decide)

/-- An arrival at a RUNNING stream is noted, and no event is raised (05 R113). -/
theorem State.arrive_running {s : State} {k : Nat} {x : Stream} (hx : s.stream k = some x) (hr : x.state = stRun) :
    s.arrive k = s.putStream k { x with last := s.el } := by
  have hs : x.state ≠ stStall := hr ▸ (by decide : stRun ≠ stStall)
  simp only [State.arrive, hx, if_neg hs]

/-! ### A frame passes to lanes (05 R122) -/

/-- A frame is another, but for being placed and for what of it passed to lanes. -/
def SameArrival (f g : Frame) : Prop := g = { f with disp := g.disp, placed := g.placed, res := g.res, lanes := g.lanes }

theorem SameArrival.refl (f : Frame) : SameArrival f f := rfl

theorem SameArrival.trans {f g h : Frame} (a : SameArrival f g) (b : SameArrival g h) : SameArrival f h := by
  rw [SameArrival] at a b ⊢
  rw [b, a]

theorem SameArrival.key {f g : Frame} (h : SameArrival f g) : g.key = f.key := by
  rw [h]; rfl

/-- A stream has one frame: `f`, as far as it passed to lanes. -/
def State.OnlyFrame (s : State) (k : Nat) (f : Frame) : Prop := ∃ x g, s.stream k = some x ∧ x.frames = [g] ∧ SameArrival f g

theorem Stream.frames_putFrame {x : Stream} {f g : Frame} (hx : x.frames = [f]) (h : SameArrival f g) : (x.putFrame g).frames = [g] := by
  simp [Stream.putFrame, hx, h.key]

theorem Stream.owner_of_frames {x : Stream} {f : Frame} (hx : x.frames = [f]) : x.owner = some f := by
  simp [Stream.owner, hx]

theorem State.onlyFrame_putFrame (s : State) (k : Nat) {x : Stream} {f g : Frame} (hx : x.frames = [f]) (h : SameArrival f g) :
    (s.putStream k (x.putFrame g)).OnlyFrame k f :=
  ⟨x.putFrame g, g, s.stream_putStream k _, Stream.frames_putFrame hx h, h⟩

/-- A block that is passed to a lane leaves its frame the same arrival. -/
theorem State.toLane_stream (s : State) (n : Nat) (x : Stream) (f : Frame) :
    (s.toLane n x f).stream n = s.stream n ∨ ∃ g, (s.toLane n x f).stream n = some (x.putFrame g) ∧ SameArrival f g := by
  unfold State.toLane
  extract_lets bytes
  split
  · exact .inl rfl
  · split
    · exact .inl rfl
    · extract_lets g put cap held stg spilled
      have hspilled : spilled.cap = held.cap := by
        simp only [spilled]
        split
        · split <;> rfl
        · rfl
      have hstreams : (spilled.foldTake bytes).cap.streams = put.cap.streams := by rw [State.foldTake_cap, hspilled]
      exact .inr ⟨g, (State.stream_congr hstreams n).trans (s.stream_putStream n _), rfl⟩

theorem State.OnlyFrame.feedTo {s : State} {n : Nat} {f : Frame} (h : s.OnlyFrame n f) (upto fuel : Nat) :
    (s.feedTo n upto fuel).OnlyFrame n f := by
  induction fuel generalizing s with
  | zero => exact h
  | succ fuel ih =>
    obtain ⟨x, g, hs, hx, hg⟩ := id h
    simp only [State.feedTo, hs, Stream.owner_of_frames hx]
    split
    · refine ih ?_
      rcases s.toLane_stream n x g with ht | ⟨g', ht, hg'⟩
      · exact ⟨x, g, ht.trans hs, hx, hg⟩
      · exact ⟨_, g', ht, Stream.frames_putFrame hx hg', hg.trans hg'⟩
    · exact h

theorem State.OnlyFrame.feed {s : State} {n : Nat} {f : Frame} (h : s.OnlyFrame n f) : (s.feed n).OnlyFrame n f := by
  obtain ⟨x, g, hs, hx, hg⟩ := id h
  simp only [State.feed, hs, Stream.owner_of_frames hx]
  split
  · exact h
  · exact h.feedTo _ _

/-- The only frame of a RUNNING stream, where its bound fits the open set, is placed there (05 R123). -/
theorem State.place_onlyFrame {s : State} {n : Nat} {x : Stream} {f : Frame} (hs : s.stream n = some x) (hx : x.frames = [f]) (hr : x.state = stRun)
    (hu : s.setUp x = true) (hfit : x.log + frameBound f.flen ≤ x.w * 2 ^ 31) : (s.place n).OnlyFrame n f := by
  have hrun : ¬ (x.state != stRun && x.state != stStall) = true := by rw [hr]; decide
  have hopen : (x.state != stBlock) = true := by rw [hr]; decide
  simp only [State.place, hs, Stream.owner_of_frames hx, if_neg hrun, hu, hfit, decide_true, Bool.and_self, if_true, hopen]
  split
  · exact State.OnlyFrame.feed ⟨x, f, hs, hx, .refl f⟩
  · exact State.OnlyFrame.feed (s.onlyFrame_putFrame (g := { f with placed := true }) n hx rfl)

/-! ### A frame opens (05 R117, R120, R122, R128) -/

/-- A piece opens a frame of a stream that has none: the stream runs, the number lies in the window and is not closed, no resynchronisation comes with
it, the piece fits the reorder space and the frame's bound the log. -/
structure Opens (x : Stream) (h : IftHdr) (d : List Nat) : Prop where
  runs : x.state = stRun
  noFrames : x.frames = []
  keeps : (h.restart && h.first) = false
  above : x.f ≤ h.frame
  below : h.frame < x.f + 1024
  new : x.closed.contains h.frame = false
  waits : d.length ≤ x.limit * 1024
  fits : x.log + frameBound h.flen ≤ x.w * 2 ^ 31

theorem Stream.frame_of_noFrames {x : Stream} (hx : x.frames = []) (key : Nat) : x.frame key = none := by
  simp [Stream.frame, hx]

theorem Stream.piece_of_noFrames {x : Stream} (hx : x.frames = []) (f : Frame) (off : Nat) (d : List Nat) (t : RxStamp) :
    x.piece f off d t = { x with frames := [{ f.add off d with last := t.el }] } := by
  simp [Stream.piece, Stream.frame_of_noFrames hx, hx]

/-- The first piece of a frame waits whole. -/
theorem Stream.waiting_piece {x : Stream} (hx : x.frames = []) {f : Frame} (hf : f.got = []) (hp : f.placed = false) (off : Nat) (d : List Nat)
    (t : RxStamp) : (x.piece f off d t).waiting = d.length := by
  simp [Stream.waiting, Stream.piece_of_noFrames hx, Frame.waits, Frame.have, Frame.add, hf, hp]

/-- The first piece of a frame is accepted into a new one. -/
theorem State.takeData_opens {s : State} {k : Nat} {x : Stream} {h : IftHdr} {d : List Nat} (hx : s.stream k = some x) (ho : Opens x h d)
    (t : RxStamp) : s.takeData k h d t = (s.putStream k x).accept k x (s.newFrame x h false t) h.off d t := by
  obtain ⟨-, hno, hkeep, hab, hbe, hnew, hw, -⟩ := ho
  have hres : (decide (h.frame ≥ x.f + 1024) || h.restart && h.first) = false := by
    simp only [hkeep, Bool.or_false, decide_eq_false_iff_not]
    omega
  have hin : ¬ (decide (h.frame < x.f) || x.closed.contains h.frame) = true := by
    simp only [hnew, Bool.or_false, decide_eq_true_eq]
    omega
  have hframe : (s.putStream k x).newFrame x h false t = s.newFrame x h false t := rfl
  have hlen : ¬ ((s.newFrame x h false t).flen != h.flen) = true := by simp [State.newFrame]
  have hover : ¬ (s.newFrame x h false t).overlaps h.off d.length = true := by simp [State.newFrame, Frame.overlaps]
  have hwait : (x.piece (s.newFrame x h false t) h.off d t).waiting ≤ x.limit * 1024 := by
    rw [Stream.waiting_piece hno rfl rfl]
    exact hw
  simp only [State.takeData, hx, hres, Bool.false_eq_true, if_false, if_neg hin, Stream.frame_of_noFrames hno, Option.getD_none, hframe, if_neg hlen,
    if_neg hover, if_pos hwait]

/-- A stream whose set is open holds, after the first piece of a frame, that frame alone. -/
theorem State.takeData_onlyFrame {s : State} {k : Nat} {x : Stream} {h : IftHdr} {d : List Nat} (ho : Opens x h d) (hx : s.stream k = some x)
    (hu : s.setUp x = true) (t : RxStamp) : (s.takeData k h d t).OnlyFrame k ((s.newFrame x h false t).add h.off d) := by
  obtain ⟨hr, hno, -, -, -, -, -, hfit⟩ := id ho
  rw [State.takeData_opens hx ho t]
  simp only [State.accept, Stream.frame_of_noFrames hno, Option.isNone_none, if_true, Stream.piece_of_noFrames hno]
  exact State.place_onlyFrame (State.stream_putStream ..) rfl hr (((s.putStream k x).setUp_charge x.slice _ x).trans hu) hfit

/-- The frame that a first piece opens has the stamp that the piece came with, and keeps it as it passes to lanes (05 R120). -/
theorem State.takeData_stamps (s : State) (k : Nat) {x : Stream} {h : IftHdr} {d : List Nat} (ho : Opens x h d) (hu : s.setUp x = true) (t : RxStamp) :
    ∃ y f, ((s.putStream k x).takeData k h d t).stream k = some y ∧ f ∈ y.frames ∧ f.num = h.frame ∧ f.ns = t.ns ∧ f.frac = t.frac := by
  obtain ⟨y, f, hs, hy, hf⟩ := State.takeData_onlyFrame ho (s.stream_putStream k x) hu t
  exact ⟨y, f, hs, hy ▸ List.mem_singleton_self f, by rw [hf]; rfl, by rw [hf]; rfl, by rw [hf]; rfl⟩

/-! ### What reaches a port (13 R301, R303, R307) -/

theorem State.frameWake_awake {s : State} (h : s.rd F.PWR_STS_STATE ≠ pwDoze) : s.frameWake = s := if_neg h

/-- A frame that arrives passes, and changes nothing by itself. -/
theorem State.rxIn_of_arrives {s : State} {p u dst ip vlan bytes : Nat} {arp : Bool} (h : Arrives s p u dst ip vlan bytes arp) :
    s.rxIn p u dst ip vlan bytes arp = (s, true) := by
  have hlink : s.link p u ≠ lkHeld ∧ s.link p u ≠ lkWake ∧ ¬ (s.link p u != lkUp) = true := by rw [h.up]; decide
  obtain ⟨hheld, hwake, hup⟩ := hlink
  simp only [State.rxIn, State.rxOk, if_neg hheld, if_neg hwake, if_neg hup, h.room, h.mac, h.addr, Bool.false_eq_true, if_false, Bool.and_self, if_true,
    State.frameWake_awake h.run]

/-- What packets on a QP do is done at once where they reach it. -/
theorem State.qpIn_of_qpUp {s : State} {n : Nat} {x : Qp} (h : QpUp s n x) (f : Qp → State → State) : s.qpIn n f = f x s := by
  have hlink : s.link x.port x.sub ≠ lkHeld ∧ ¬ (s.link x.port x.sub != lkUp) = true := by rw [h.up]; decide
  obtain ⟨hheld, hup⟩ := hlink
  simp only [State.qpIn, State.onQp, h.qp, if_neg hheld, if_neg hup, State.frameWake_awake h.run]

/-! ### What a stream takes (05 R115–R120) -/

/-- Bytes that reach a stream which takes them: they are deducted from its slice's ingest, and the arrival is noted. -/
def State.reached (s : State) (k : Nat) (x : Stream) (bytes : Nat) : State := (s.ingest x.slice bytes).putStream k { x with last := s.el }

/-- What reaches a stream that takes data is deducted and noted. -/
theorem State.arrive_of_takes {s : State} {k : Nat} {x : Stream} (h : Takes s k x) (n : Nat) : (s.ingest x.slice n).arrive k = s.reached k x n :=
  State.arrive_running (s := s.ingest x.slice n) h.here h.runs

/-- A stream that takes data is stopped by nothing: it is not IDLE, FENCED or BLOCKED, commits go on, and its ingest is open. -/
theorem State.passes_of_takes {s : State} {k : Nat} {x : Stream} (h : Takes s k x) :
    ¬ (decide (x.state = stIdle) || x.stop.isSome) = true ∧ x.state ≠ stBlock ∧ ¬ (!s.stg.commits || s.rd F.MED_PF_STS_PHASE != 0) = true ∧
      ¬ (!s.ingestOpen x.slice) = true := by
  rw [h.runs, h.goes, h.commits, h.noFail, h.ingest]
  decide

/-- A datagram is well formed, and its frame's length one that the stream allows (05 R116, R117). -/
structure GoodDgram (x : Stream) (h : IftHdr) (d : List Nat) : Prop where
  ver : h.ver = 1
  ty : h.ty = 0
  rsv : h.rsv = false
  data : d ≠ []
  inside : h.off + d.length ≤ h.flen
  allowed : h.flen ≤ x.maxKib * 1024

/-- A good datagram passes into the stream that takes it. -/
theorem State.takeDgram_good {s : State} {p u ip vlan udp src ulen k : Nat} {b d : List Nat} {h : IftHdr} {x : Stream} (hk : Takes s k x)
    (hon : s.fabricOn = true) (hh : h = iftHdr (b.map (cut 8))) (hd : d = iftData ulen (b.map (cut 8)))
    (hfind : s.cap.streams.find? (fun e => !e.2.rdma && bit e.2.ports p && e.2.udp = udp && e.2.sid = h.sid &&
      (e.2.filter = 0 || e.2.filter = src)) = some (k, x)) (hg : GoodDgram x h d) (t : RxStamp) :
    s.takeDgram p u ip vlan udp src ulen b t = (s.reached k x d.length).takeData k h d t := by
  obtain ⟨hidle, hblock, hcom, hing⟩ := State.passes_of_takes hk
  obtain ⟨hver, hty, hrsv, hdata, hin, hmax⟩ := hg
  have hform : ¬ (h.ver != 1 || h.ty != 0 || h.rsv) = true := by rw [hver, hty, hrsv]; decide
  have hbytes : ¬ (d.isEmpty || decide (h.off + d.length > h.flen)) = true := by simp [hdata, hin]
  simp only [State.takeDgram, hon, ← hh, ← hd, hfind, if_neg hform, if_neg hbytes, if_neg hmax.not_gt, if_neg hidle, if_neg hk.open_, if_neg hblock,
    if_neg hcom, if_neg hing, State.arrive_of_takes hk, Bool.not_true, Bool.false_eq_true, if_false]

/-- The first and only packet of a message passes into the stream that takes it, as one piece that is a frame. -/
theorem State.takeMsg_single {s : State} {qp imm k : Nat} {d : List Nat} {q : Qp} {x : Stream} (hk : Takes s k x) (hq : s.qp qp = some q)
    (hs : q.stream = some k) (hrx : x.rx = []) (hat : x.rxAt = none) (hd : d ≠ []) (hmax : d.length ≤ x.maxKib * 1024) (t : RxStamp) :
    s.takeMsg qp 0 (some imm) false d t =
      ((s.reached k x d.length).putStream k { x with last := s.el, rx := [], rxAt := none }).takeData k (msgHdr x imm d.length) (d.map (cut 8)) t := by
  obtain ⟨hidle, hblock, hcom, hing⟩ := State.passes_of_takes hk
  have hbuf : ¬ ((none : Option (Nat × Nat × Nat × Nat)).isNone && 0 != 0 || decide (d.length > x.maxKib * 1024)) = true := by simp [hmax]
  have hall : ¬ (d.map (cut 8)).isEmpty = true := by simp [hd]
  have hwiped : (s.reached k x d.length).stream k = some { x with last := s.el } := State.stream_putStream ..
  simp only [State.takeMsg, hq, hs, hk.here, Option.bind_some, Option.map_some, hrx, List.nil_append, if_neg hbuf, if_neg hidle, if_neg hk.open_,
    if_neg hblock, if_neg hcom, if_neg hing, State.arrive_of_takes hk, hwiped, Bool.false_eq_true, if_false, if_neg hall, hat, Option.map_none,
    Option.getD_none, List.length_map]

/-- Settles O53. A datagram and a message that their stream takes come to `State.takeData` with the stamp of now, and the frame that it opens there keeps
that stamp. -/
theorem frameArrivalStamp : Obligations.FrameArrivalStamp := by
  unfold Obligations.FrameArrivalStamp
  constructor
  · intro p u dst ip vlan udp src ulen k b d h x s harr hon hh hd _ hfind hver hty hrsv hdata hin hmax hw hkeep hab hbe hnew hfit hk
    have hgood : GoodDgram x h d := ⟨hver, hty, hrsv, hdata, hin, hmax⟩
    have hopens : Opens { x with last := s.el } h d := ⟨hk.runs, hk.noFrames, hkeep, hab, hbe, hnew, hw, hfit⟩
    refine ⟨s.dgramIn p u dst ip vlan udp src ulen b, rfl, ?_⟩
    simp only [State.dgramIn, State.rxIn_of_arrives harr, Bool.not_true, Bool.false_eq_true, if_false, State.takeDgram_good hk hon hh hd hfind hgood]
    exact State.takeData_stamps (s.ingest x.slice d.length) k hopens hk.setUp s.rxNow
  · intro qp imm k d q x s hq hs hroom hrx hat hd hmax hw hab hbe hnew hfit hk
    have hopens : Opens { x with last := s.el, rx := [], rxAt := none } (msgHdr x imm d.length) (d.map (cut 8)) :=
      ⟨hk.runs, hk.noFrames, rfl, hab, hbe, hnew, (List.length_map (cut 8)).trans_le hw, hfit⟩
    have hbound : ¬ (q.err || q.stream.isNone) = true := by simp [hq.ok, hs]
    refine ⟨_, rfl, ?_⟩
    rw [State.qpIn_of_qpUp hq]
    simp only [if_neg hbound, hroom, Bool.false_eq_true, if_false, State.takeMsg_single hk hq.qp hs hrx hat hd hmax]
    exact State.takeData_stamps (s.reached k x d.length) k hopens hk.setUp s.rxNow

end Sys2Proof.Machine
end

section
/-! SUPPORT. Which register fields stay through the operations that many commands share: laws of `Keeps`, and that an event changes counts, charges and
the recorder's fields alone (19 R423-R428; 20 R442, R443). -/

namespace Sys2Proof

open Machine

namespace Keeps

theorem of_regs {s t : State} {fs : List Fld} (h : t.regs = s.regs) : Keeps s t fs := fun f i j p _ => by rw [State.rd, State.rd, h]

variable (s : State) (fs : List Fld)

theorem refl : Keeps s s fs := of_regs rfl

theorem ras (r : RasSt) : Keeps s { s with ras := r } fs := of_regs rfl

theorem evr (e : EvrSt) : Keeps s { s with evr := e } fs := of_regs rfl

theorem tim (t : TimeSt) : Keeps s { s with tim := t } fs := of_regs rfl

variable {s fs}

theorem trans {t u : State} (h : Keeps s t fs) (k : Keeps t u fs) : Keeps s u fs :=
  fun f i j p hf => (k f i j p hf).trans (h f i j p hf)

theorem foldl {α : Type} {f : State → α → State} (h : ∀ s a, Keeps s (f s a) fs) (l : List α) (s : State) :
    Keeps s (l.foldl f s) fs :=
  foldl_keeps (P := fun t => Keeps s t fs) (fun t a k => k.trans (h t a)) l s (refl s fs)

theorem wr {f : Fld} (hf : f ∈ fs) (s : State) (v i j p : Nat) : Keeps s (s.wr f v i j p) fs :=
  fun g a b d hg => s.rd_wr_id f g v i j p a b d (hg f hf)

theorem inc {f : Fld} (hf : f ∈ fs) (s : State) (i j n : Nat) : Keeps s (s.inc f i j n) fs := wr hf s _ i j 0

theorem addw {f : Fld} (hf : f ∈ fs) (s : State) (n i j : Nat) : Keeps s (s.addw f n i j) fs := wr hf s _ i j 0

theorem adm (hf : F.RAS_ERRLOG_COUNT ∈ fs) (s : State) (o : Org) (cid : Nat) (st : Nat × Nat) (dw0 : Nat) (data : List Nat) :
    Keeps s (s.adm o cid st dw0 data) fs :=
  fun g i j p hg => s.adm_rd o cid st dw0 data g i j p (hg _ hf)

end Keeps

namespace Machine

/-- The register fields that an event may change: counts of errors and lost entries, the recorder's, and what its flush is charged (03 R80; 19 R423,
R427, R428; 20 R442, R443). -/
def eventFields : List Fld :=
  [F.RAS_ERRLOG_COUNT, F.RAS_EVQ_LOST_CNT, F.EVR_LOST_CNT, F.EVR_STS_FULL, F.EVR_NOR_SEQ, F.EVR_NOR_NEXT, F.EVR_NOR_ERASED, F.EVR_FLUSH_CNT_FAULT,
    F.LGR_SL_CHG_CHG, F.LGR_SL_NORM_N]

namespace State

variable (s : State)

theorem chargeBg_keeps (k c : Nat) : Keeps s (s.chargeBg k c) eventFields :=
  (Keeps.addw (by decide) s _ _ _).trans (Keeps.wr (by decide) _ _ _ _ _)

theorem norWrite_keeps (kind part parts ns : Nat) (recs : List Rec) : Keeps s (s.norWrite kind part parts ns recs) eventFields :=
  ((Keeps.wr (by decide) s _ _ _ _).trans (Keeps.wr (by decide) _ _ _ _ _)).trans (Keeps.wr (by decide) _ _ _ _ _)

theorem norCopy_keeps (kind ns : Nat) (recs : List Rec) : Keeps s (s.norCopy kind ns recs) eventFields :=
  Keeps.foldl (fun m _ => m.norWrite_keeps _ _ _ _ _) _ s

theorem faultFlush_keeps : Keeps s s.faultFlush eventFields := by
  unfold State.faultFlush
  refine Keeps.trans ?_ (Keeps.inc (by decide) _ _ _ _)
  refine Keeps.trans ?_ (norCopy_keeps _ _ _ _)
  refine Keeps.trans ?_ (Keeps.tim _ _ _)
  exact (Keeps.evr s _ { s.evr with nand := (RecCopy.mk s.tns 1 s.evr.recs :: s.evr.nand).take 4 }).trans (chargeBg_keeps _ _ _)

theorem recAppend_keeps (code arg trig : Nat) (addrs : List Nat) (flush : Bool) : Keeps s (s.recAppend code arg trig addrs flush) eventFields := by
  unfold State.recAppend
  dsimp only
  split
  · exact Keeps.inc (by decide) s _ _ _
  · split
    · exact (Keeps.wr (by decide) s _ _ _ _).trans (Keeps.inc (by decide) _ _ _ _)
    · exact Keeps.of_regs rfl

theorem record_keeps (code arg : Nat) : Keeps s (s.record code arg) eventFields := by
  unfold State.record
  split
  · exact Keeps.refl s _
  · split
    · exact s.recAppend_keeps _ _ _ _ _
    · split
      · exact Keeps.refl s _
      · split
        · exact (s.recAppend_keeps _ _ _ _ _).trans (faultFlush_keeps _)
        · exact s.recAppend_keeps _ _ _ _ _

theorem notify_keeps (c : Ctl) (ty info page : Nat) : Keeps s (s.notify c ty info page) eventFields := by
  unfold State.notify
  split
  · exact (Keeps.ras s _ _).trans (Keeps.adm (by decide) _ _ _ _ _ _)
  · split <;> exact Keeps.of_regs rfl

theorem reportTo_keeps (cls : Nat) (c : Ctl) : Keeps s (s.reportTo cls c) eventFields := by
  unfold State.reportTo
  dsimp only
  split
  · exact Keeps.refl s _
  · exact notify_keeps (s.putView _) c 7 cls 0xD0

/-- Raising an event leaves every other field alone. -/
theorem raise_keeps (code slice arg : Nat) : Keeps s (s.raise code slice arg) eventFields := by
  have lost : ∀ (m : State) (c : Ctl), Keeps m (m.loseFor c) eventFields := fun _ _ => Keeps.of_regs rfl
  have queued : ∀ (who : List Ctl) (m : RasSt), Keeps s (if s.ras.evq.length < evqDepth then { s with ras := m }
      else who.foldl (fun s c => s.loseFor c) (s.inc F.RAS_EVQ_LOST_CNT)) eventFields := by
    intro who m
    split
    · exact Keeps.of_regs rfl
    · exact (Keeps.inc (f := F.RAS_EVQ_LOST_CNT) (by decide) s _ _ _).trans (Keeps.foldl lost who _)
  have signalled : ∀ (m : State) (cls : Nat), Keeps m (if m.rd F.LGR_EVT_VEC_EN cls = 1 then m.send (.msix 0 (m.rd F.LGR_EVT_VEC_VECTOR cls)) else m)
      eventFields := by
    intro m cls
    split <;> exact Keeps.of_regs rfl
  unfold State.raise
  exact (((queued _ _).trans (record_keeps _ code arg)).trans (signalled _ _)).trans (Keeps.foldl (fun m c => m.reportTo_keeps _ c) _ _)

@[simp] theorem raise_pup (code slice arg : Nat) : (s.raise code slice arg).pup = s.pup := by
  obtain ⟨⟨r, v, e, q, l, f, x, o, h⟩, -⟩ := Told.raise s code slice arg
  rw [h]

@[simp] theorem adm_pup (o : Org) (cid : Nat) (st : Nat × Nat) (dw0 : Nat) (data : List Nat) : (s.adm o cid st dw0 data).pup = s.pup := by
  obtain ⟨⟨r, v, e, q, l, f, x, u, h⟩, -⟩ := Told.adm s o cid st dw0 data
  rw [h]

end State

end Machine

end Sys2Proof
end

section
/-! O54: what an expiry of the watchdog does (16 R358): a fail-over to the spare pair (R349), or a rollback of the exchange of the firmware (R361). -/

namespace Sys2Proof.Machine

/-! ### What a fail-over does beside the passage to the spare (16 R349, R362, R367) -/

/-- The register fields of the voltage target, the DMA channels and the sweeps (16 R349, R362, R367). -/
def quietFields : List Fld :=
  [F.PUP_VREG_TARGET_MV, F.PUP_DMA_STS_STATE, F.PUP_SWEEP_STS_STATE, F.PUP_SWEEP_STS_DONE, F.PUP_SWEEP_STS_UNREACHED, F.PUP_SWEEP_STS_ID]

/-- From `s` to `t` at most the voltage target, the DMA channels and the sweeps have changed, and what was sent. -/
structure Quiets (s t : State) : Prop where
  frame : ∃ regs pre hold sweeps outs, t =
    { s with regs := regs, pup := { s.pup with preRaise := pre, preHold := hold, sweeps := sweeps }, outs := outs }
  regs : Keeps s t quietFields

namespace Quiets

variable (s : State)

theorem refl : Quiets s s := ⟨⟨s.regs, s.pup.preRaise, s.pup.preHold, s.pup.sweeps, s.outs, rfl⟩, Keeps.refl s _⟩

variable {s} in
theorem trans {t u : State} (h : Quiets s t) (k : Quiets t u) : Quiets s u := by
  refine ⟨?_, h.regs.trans k.regs⟩
  obtain ⟨r, p, d, w, o, rfl⟩ := h.frame
  obtain ⟨r', p', d', w', o', rfl⟩ := k.frame
  exact ⟨r', p', d', w', o', rfl⟩

theorem foldl {α : Type} {f : State → α → State} (h : ∀ s a, Quiets s (f s a)) (l : List α) : Quiets s (l.foldl f s) :=
  foldl_keeps (P := Quiets s) (fun t a k => k.trans (h t a)) l s (refl s)

theorem wr {f : Fld} (hf : f ∈ quietFields) (v i j p : Nat) : Quiets s (s.wr f v i j p) :=
  ⟨⟨_, s.pup.preRaise, s.pup.preHold, s.pup.sweeps, s.outs, rfl⟩, Keeps.wr hf s v i j p⟩

theorem setMv (mv : Nat) : Quiets s (s.setMv mv) :=
  ⟨⟨_, _, _, s.pup.sweeps, _, rfl⟩, Keeps.wr (f := F.PUP_VREG_TARGET_MV) (by decide) s _ 0 0 0⟩

theorem dmaStop : Quiets s s.dmaStop := by
  refine foldl s (fun m c => ?_) _
  split
  · exact wr m (by decide) _ _ _ _
  · exact refl m

theorem putSweep (k : Nat) (w : Sweep) : Quiets s (s.putSweep k w) :=
  ⟨⟨s.regs, s.pup.preRaise, s.pup.preHold, _, s.outs, rfl⟩, Keeps.of_regs rfl⟩

theorem sweepSts (k : Nat) : Quiets s (s.sweepSts k) := by
  unfold State.sweepSts
  split
  · exact refl s
  · exact (((wr s (by decide) _ _ _ _).trans (wr _ (by decide) _ _ _ _)).trans (wr _ (by decide) _ _ _ _)).trans (wr _ (by decide) _ _ _ _)

theorem sweepMap (ok : Nat → Bool) (f : SwEnt → SwEnt) : Quiets s (s.sweepMap ok f) := by
  refine foldl s (fun m k => ?_) _
  split
  · exact refl m
  · exact (putSweep m k _).trans (sweepSts _ k)

theorem sweepDrop : Quiets s s.sweepDrop := sweepMap s _ _

end Quiets

/-! ### The spare pair takes over (16 R349) -/

/-- The spare becomes the active pair, the failure is recorded, and the pair that failed becomes the spare or is fenced (16 R349). -/
def State.passToSpare (s : State) (rsn : Nat) (pass : Bool) : State :=
  let s := s.wr F.PUP_STS_ACTIVE (1 - s.rd F.PUP_STS_ACTIVE)
  let s := ((s.inc F.PUP_FAIL_COUNT).wr F.PUP_FAIL_RSN rsn).wr F.PUP_FAIL_TIME_TIME s.tns
  s.wr F.PUP_STS_SPARE (if pass then 0 else 2)

/-- The watchdog's period starts anew. -/
def State.wdtRestart (s : State) : State := { s with pup := { s.pup with wdtAt := s.el } }

/-- Measurements in progress are discarded, the watchdog starts anew, and the fail-over is an event (16 R349, R367; 20 R441). -/
def State.endFailover (s : State) (rsn : Nat) : State := s.sweepDrop.wdtRestart.raise evFailover 0xFFFF rsn

theorem State.takeOverPup_eq (s : State) (rsn : Nat) (pass : Bool) :
    s.takeOverPup rsn pass = (((s.setMv s.pup.preRaise).dmaStop.redeliver).passToSpare rsn pass).endFailover rsn := rfl

/-- The end of a fail-over leaves every field alone but those of events and sweeps. -/
theorem State.endFailover_rd (s : State) (rsn : Nat) (f : Fld) (he : ∀ g ∈ eventFields, f.id ≠ g.id) (hq : ∀ g ∈ quietFields, f.id ≠ g.id) :
    (s.endFailover rsn).rd f = s.rd f :=
  (State.raise_keeps s.sweepDrop.wdtRestart evFailover 0xFFFF rsn f 0 0 0 he).trans ((Quiets.sweepDrop s).regs f 0 0 0 hq)

/-- The end of a fail-over leaves the mailbox and the zones alone, and the watchdog's period starts there. -/
theorem State.endFailover_frame (s : State) (rsn : Nat) : (s.endFailover rsn).pup.insvc = s.pup.insvc ∧ (s.endFailover rsn).pup.pend = s.pup.pend ∧
    (s.endFailover rsn).pup.wdtAt = s.el ∧ (s.endFailover rsn).zn = s.zn := by
  obtain ⟨r, p, d, w, o, h⟩ := (Quiets.sweepDrop s).frame
  rw [State.endFailover, State.raise_pup, State.raise_zn, h]
  exact ⟨rfl, rfl, rfl, rfl⟩

/-- What the registers say once the spare is the active pair. -/
theorem State.passToSpare_rd (s : State) {rsn : Nat} (hr : rsn < 2 ^ 4) (pass : Bool) :
    (s.passToSpare rsn pass).rd F.PUP_STS_ACTIVE = cut 1 (1 - s.rd F.PUP_STS_ACTIVE) ∧
    (s.passToSpare rsn pass).rd F.PUP_STS_SPARE = (if pass then 0 else 2) ∧
    (s.passToSpare rsn pass).rd F.PUP_FAIL_COUNT = sat 16 (s.rd F.PUP_FAIL_COUNT + 1) ∧
    (s.passToSpare rsn pass).rd F.PUP_FAIL_RSN = rsn ∧
    (s.passToSpare rsn pass).rd F.PUP_FAIL_TIME_TIME = cut 64 s.tns := by
  refine ⟨?_, ?_, ?_, ?_, ?_⟩
  · iterate 4 refine (State.rd_wr_id _ _ _ _ _ _ _ _ _ _ (by decide)).trans ?_
    exact State.rd_wr_same ..
  · refine (State.rd_wr_same ..).trans ?_
    cases pass <;> rfl
  · iterate 3 refine (State.rd_wr_id _ _ _ _ _ _ _ _ _ _ (by decide)).trans ?_
    refine (State.rd_inc_same ..).trans ((cut_sat ..).trans ?_)
    rw [State.rd_wr_id _ _ _ _ _ _ _ _ _ _ (by decide)]
    rfl
  · iterate 2 refine (State.rd_wr_id _ _ _ _ _ _ _ _ _ _ (by decide)).trans ?_
    exact (State.rd_wr_same ..).trans (Nat.mod_eq_of_lt hr)
  · refine (State.rd_wr_id _ _ _ _ _ _ _ _ _ _ (by decide)).trans ?_
    exact State.rd_wr_same ..

/-- What the spare's take-over leaves, whatever the reason. -/
theorem State.takeOverPup_tookOver (s : State) {rsn : Nat} (hr : rsn < 2 ^ 4) (pass : Bool) : TookOver s (s.takeOverPup rsn pass) rsn pass := by
  rw [State.takeOverPup_eq]
  have before : Quiets s (s.setMv s.pup.preRaise).dmaStop := (Quiets.setMv s _).trans (Quiets.dmaStop _)
  generalize (s.setMv s.pup.preRaise).dmaStop = a at before ⊢
  have kept (f : Fld) (hq : ∀ g ∈ quietFields, f.id ≠ g.id) : a.redeliver.rd f = s.rd f := before.regs f 0 0 0 hq
  obtain ⟨hactive, hspare, hcount, hrsn, htime⟩ := a.redeliver.passToSpare_rd hr pass
  obtain ⟨hinsvc, hpend, hwdt, hzn⟩ := (a.redeliver.passToSpare rsn pass).endFailover_frame rsn
  obtain ⟨r, p, d, w, o, rfl⟩ := before.frame
  exact
    { active := by rw [State.endFailover_rd _ _ _ (by decide) (by decide), hactive, kept _ (by decide)]
      spare := by rw [State.endFailover_rd _ _ _ (by decide) (by decide), hspare]
      count := by rw [State.endFailover_rd _ _ _ (by decide) (by decide), hcount, kept _ (by decide)]
      reason := by rw [State.endFailover_rd _ _ _ (by decide) (by decide), hrsn]
      time := (State.endFailover_rd _ _ _ (by decide) (by decide)).trans htime
      insvc := hinsvc
      pend := hpend
      wdt := hwdt
      zones := hzn }

/-! ### The exchange of the firmware is rolled back (16 R361) -/

/-- The old bank runs again (16 R361). -/
def State.oldBankRuns (s : State) : State :=
  let s := s.wr F.PUP_STS_BANK (1 - s.rd F.PUP_STS_BANK)
  (((s.redeliver).wr F.PUP_STS_SWAP 4).wr F.PUP_STS_MASKED 0).wdtRestart.raise evRollback 0xFFFF 0

/-- The Commit that asked for the exchange fails (17 R391). -/
def State.exchFails (s : State) : State :=
  match s.pup.exch with
  | none => s
  | some (_, o, cid) =>
    let run := s.img.slots.getD (s.rd F.IMG_STS_SLOT) []
    let s := { s with pup := { s.pup with exch := none }, img := { s.img with store := run } }
    ((s.wr F.IMG_UPD_STS_ERR 6).wr F.IMG_UPD_STS_STATE 6).adm o cid (1, 0x07)

theorem State.rollback_eq (s : State) : s.rollback = s.oldBankRuns.exchFails := rfl

theorem State.exchFails_keeps (s : State) : Keeps s s.exchFails [F.IMG_UPD_STS_ERR, F.IMG_UPD_STS_STATE, F.RAS_ERRLOG_COUNT] := by
  unfold State.exchFails
  split
  · exact Keeps.refl s _
  · refine Keeps.trans ?_ (Keeps.adm (by decide) _ _ _ _ _ _)
    exact ((Keeps.of_regs rfl).trans (Keeps.wr (by decide) _ _ _ _ _)).trans (Keeps.wr (by decide) _ _ _ _ _)

/-- Of the Puppeteer's own state only the exchange ends. -/
theorem State.exchFails_pup (s : State) : s.exchFails.pup = { s.pup with exch := none } := by
  unfold State.exchFails
  split
  · next h => rw [← h]
  · exact State.adm_pup ..

theorem State.oldBankRuns_pup (s : State) : s.oldBankRuns.pup = { s.redeliver.pup with wdtAt := s.el } := State.raise_pup ..

/-- What the registers say while the old bank runs again: the exchange is rolled back, on the pair that was active. -/
theorem State.oldBankRuns_rd (s : State) : s.oldBankRuns.rd F.PUP_STS_BANK = cut 1 (1 - s.rd F.PUP_STS_BANK) ∧ s.oldBankRuns.rd F.PUP_STS_SWAP = 4 ∧
    s.oldBankRuns.rd F.PUP_STS_ACTIVE = s.rd F.PUP_STS_ACTIVE := by
  have kept (f : Fld) (hf : ∀ g ∈ eventFields, f.id ≠ g.id) := State.raise_keeps
    ((((s.wr F.PUP_STS_BANK (1 - s.rd F.PUP_STS_BANK)).redeliver.wr F.PUP_STS_SWAP 4).wr F.PUP_STS_MASKED 0).wdtRestart) evRollback 0xFFFF 0 f 0 0 0 hf
  refine ⟨(kept _ (by decide)).trans ?_, (kept _ (by decide)).trans ?_, (kept _ (by decide)).trans ?_⟩
  · iterate 2 refine (State.rd_wr_id _ _ _ _ _ _ _ _ _ _ (by decide)).trans ?_
    exact State.rd_wr_same ..
  · refine (State.rd_wr_id _ _ _ _ _ _ _ _ _ _ (by decide)).trans ?_
    exact State.rd_wr_same ..
  · iterate 3 refine (State.rd_wr_id _ _ _ _ _ _ _ _ _ _ (by decide)).trans ?_
    rfl

/-! ### What a failure of the active pair leads to (16 R348, R349, R361) -/

theorem State.failover_takesOver {s : State} {rsn : Nat} (hst : s.stopped = false) (hsw : s.swapping = false) (hsp : s.rd F.PUP_STS_SPARE = 0)
    (pass : Bool) : s.failover rsn pass = s.takeOverPup rsn pass := by
  simp [State.failover, hst, hsw, hsp]

theorem State.failover_rollsBack {s : State} {rsn : Nat} (hst : s.stopped = false) (hsw : s.swapping = true) (hr : rsn ≤ 2) (pass : Bool) :
    s.failover rsn pass = s.rollback := by
  simp [State.failover, hst, hsw, hr]

theorem execWatchdogExpiry_late {s : State} (h : s.pup.wdtAt + s.rd F.PUP_WDT_PERIOD * 1000000 ≤ s.el) (pass : Bool) :
    execWatchdogExpiry pass s = .next (s.failover 2 pass) := by
  rw [execWatchdogExpiry, if_pos h]

theorem execWatchdogExpiry_inTime {s : State} (h : s.el < s.pup.wdtAt + s.rd F.PUP_WDT_PERIOD * 1000000) (pass : Bool) :
    execWatchdogExpiry pass s = .next s := by
  rw [execWatchdogExpiry, if_neg h.not_ge]

/-- Settles O54: a late watchdog fails the active pair with reason 2, which leads to the spare or, during an exchange, to the old bank; a write of the
watchdog restarts its period. -/
theorem watchdogExpiryFailsOver : Obligations.WatchdogExpiryFailsOver := by
  unfold Obligations.WatchdogExpiryFailsOver
  refine ⟨?_, ?_, ?_, ?_⟩
  · intro pass s hlate hspare hst hsw
    refine ⟨_, execWatchdogExpiry_late hlate pass, ?_⟩
    rw [State.failover_takesOver hst hsw hspare]
    exact s.takeOverPup_tookOver (by decide) pass
  · intro pass s hlate hst hsw
    refine ⟨_, execWatchdogExpiry_late hlate pass, ?_⟩
    rw [State.failover_rollsBack hst hsw le_rfl, State.rollback_eq]
    have kept := s.oldBankRuns.exchFails_keeps
    obtain ⟨hbank, hswap, hactive⟩ := s.oldBankRuns_rd
    have hpup : s.oldBankRuns.exchFails.pup = { s.redeliver.pup with wdtAt := s.el, exch := none } := by
      rw [State.exchFails_pup, State.oldBankRuns_pup]
    exact ⟨(kept _ 0 0 0 (by decide)).trans hbank, (kept _ 0 0 0 (by decide)).trans hswap, (kept _ 0 0 0 (by decide)).trans hactive,
      congrArg PupSt.wdtAt hpup, congrArg PupSt.exch hpup⟩
  · intro pass s hinTime
    exact ⟨s, execWatchdogExpiry_inTime hinTime pass, rfl⟩
  · intro s hst
    exact ⟨_, rfl, by rw [if_neg (by simp [hst])]⟩

end Sys2Proof.Machine
end

section
/-! O55: a Register Read or Write accesses the words of its span through the path of NVMe-MI, or fails before any access (16 R365). -/

namespace Sys2Proof.Machine

/-! ### A request that is served at once (16 R364) -/

/-- A request with its integrity check is executed as it arrives where NVMe-MI serves at once. -/
theorem State.mi_of_miServed {s : State} {vdm : Bool} (h : MiServed s vdm) (i : Instr) : s.mi vdm true i = s.miRun i := by
  obtain ⟨hon, hawake, hup, hheld⟩ := h
  have hserve : s.serveHeld = s := by simp [State.serveHeld, hheld]
  obtain ⟨⟨⟨hdead, -⟩, hstop⟩, -⟩ : ((s.dead = false ∧ s.img.admReady = true) ∧ s.stopped = false) ∧ s.swapping = false := by
    simpa [State.miUp] using hup
  cases vdm with
  | true =>
    have hpath : s.rd F.PUP_MI_CFG_VDM_EN ≠ 0 := hon
    simp [State.mi, hdead, hstop, hpath, hup, hserve]
  | false =>
    have hpath : s.rd F.PUP_MI_CFG_SMB_EN ≠ 0 := hon
    simp [State.mi, hdead, hstop, hpath, hawake rfl, hup, hserve]

/-! ### The words of a span -/

theorem regSpan_iff (a len : Nat) : regSpan a len = true ↔ a % 4 = 0 ∧ len % 4 = 0 ∧ 4 ≤ len ∧ len ≤ 4096 ∧ a + len ≤ 2 ^ 26 := by
  simp only [regSpan, Bool.and_eq_true, decide_eq_true_eq, and_assoc]
  rfl

/-- A span is malformed for its alignment, for its length, or for where it ends. -/
theorem regSpan_eq_false {a len : Nat} (h : a % 4 ≠ 0 ∨ len % 4 ≠ 0 ∨ len < 4 ∨ 4096 < len ∨ 2 ^ 26 < a + len) : regSpan a len = false := by
  rw [Bool.eq_false_iff, Ne, regSpan_iff]
  omega

/-- A read answers as many words as it is asked for, whether it takes them one by one or two at one instant. -/
theorem State.length_readWords (p a n : Nat) (s : State) : (State.readWords p a n s).2.length = n := by
  fun_induction State.readWords p a n s with
  | case1 => rfl
  | case2 => rfl
  | case3 a n s _ x y ih => exact congrArg (· + 2) ih
  | case4 a n s _ x y ih => exact congrArg (· + 1) ih

/-- Of as many words as the span holds, each is written in its place. -/
theorem map_getD_range_of_length {ws : List Nat} {n : Nat} (h : ws.length = n) : (List.range n).map (fun k => ws.getD k 0) = ws := by
  subst h
  refine List.ext_getElem (by simp) fun k _ hk => ?_
  simp [hk]

/-! ### Register Read and Register Write (16 R365) -/

theorem State.miRegRead_of_regSpan {a len : Nat} (s : State) (h : regSpan a len = true) :
    s.miRegRead a len = (State.readWords 1 a (len / 4) s).1.send (.mi 0 (State.readWords 1 a (len / 4) s).2) := by
  simp [State.miRegRead, h, State.answer]

theorem State.miRegRead_refused {a len : Nat} (s : State) (h : regSpan a len = false) : s.miRegRead a len = s.send (.mi 4 []) := by
  simp [State.miRegRead, h, miParam]

theorem State.miRegWrite_of_regSpan {a len : Nat} {ws : List Nat} (s : State) (h : regSpan a len = true) (hws : ws.length = len / 4) :
    s.miRegWrite a len ws = (s.send (.mi 0 [])).writeWords 1 a ws := by
  rw [State.miRegWrite, if_pos h, map_getD_range_of_length hws, miOk]

theorem State.miRegWrite_refused {a len : Nat} (s : State) (h : regSpan a len = false) (ws : List Nat) :
    s.miRegWrite a len ws = s.send (.mi 4 []) := by
  simp [State.miRegWrite, h, miParam]

/-- Settles O55: the request is executed as it arrives, and what it does turns on `regSpan` alone. -/
theorem registerReadAndWriteSpans : Obligations.RegisterReadAndWriteSpans := by
  unfold Obligations.RegisterReadAndWriteSpans
  refine ⟨?_, ?_, ?_⟩
  · intro vdm a len ws s hs hbad
    have hspan := regSpan_eq_false hbad
    exact ⟨⟨_, rfl, (State.mi_of_miServed hs _).trans (s.miRegRead_refused hspan)⟩,
      ⟨_, rfl, (State.mi_of_miServed hs _).trans (s.miRegWrite_refused hspan ws)⟩⟩
  · intro vdm a len s hs ha hlen hmin hmax hend
    have hspan := (regSpan_iff a len).2 ⟨ha, hlen, hmin, hmax, hend⟩
    exact ⟨_, rfl, (State.mi_of_miServed hs _).trans (s.miRegRead_of_regSpan hspan), State.length_readWords ..⟩
  · intro vdm a len ws s hs ha hlen hmin hmax hend hws
    have hspan := (regSpan_iff a len).2 ⟨ha, hlen, hmin, hmax, hend⟩
    exact ⟨_, rfl, (State.mi_of_miServed hs _).trans (s.miRegWrite_of_regSpan hspan hws)⟩

end Sys2Proof.Machine
end

section
/-! O60: every step keeps the canonical forms of the register file and of user data. One lemma for each operation of the model, in the model's
order: what it answers is in canonical form where what it was given is. The proofs put the operations of a definition together, the last one first. -/

namespace Sys2Proof.Machine

/-- Blocks put one after the other keep user data canonical. -/
theorem Ud.wf_puts (l : List (Nat × Nat)) {m : List (Nat × Nat)} (h : Ud.wf m = true) : Ud.wf (l.foldl (fun m p => Ud.put p.1 p.2 m) m) = true := by
  induction l generalizing m with
  | nil => exact h
  | cons p l ih => exact ih (Ud.wf_put _ _ _ h)

/-- `t` is in canonical form where `s` is: what lies between them keeps the invariant. -/
structure KeepsInv (s t : State) : Prop where
  inv : Inv s → Inv t

/-- As `KeepsInv`, of an operation that answers a state and a value. -/
def KeepsInv₁ {β : Type} (s : State) (p : State × β) : Prop := KeepsInv s p.1

namespace KeepsInv

/-- As `KeepsInv`, of an operation that may answer a state. -/
structure OfSome (s : State) (o : Option State) : Prop where
  get : ∀ {t}, o = some t → KeepsInv s t

/-- As `KeepsInv`, of an operation that may answer a state and a value. -/
structure OfSome₂ {β : Type} (s : State) (o : Option (State × β)) : Prop where
  get : ∀ {p}, o = some p → KeepsInv s p.1

/-- As `KeepsInv`, of what a command answers. -/
structure Outc (s : State) (o : Host.Outcome State Fault Refusal) : Prop where
  get : ∀ {t}, o = .next t → KeepsInv s t

theorem refl (s : State) : KeepsInv s s := ⟨id⟩

theorem after {a b c : State} (k : KeepsInv b c) (h : KeepsInv a b) : KeepsInv a c := ⟨k.inv ∘ h.inv⟩

theorem OfSome.after {a b : State} {c : Option State} (k : OfSome b c) (h : KeepsInv a b) : OfSome a c := ⟨fun e => (k.get e).after h⟩

theorem OfSome₂.after {β : Type} {a b : State} {c : Option (State × β)} (k : OfSome₂ b c) (h : KeepsInv a b) : OfSome₂ a c :=
  ⟨fun e => (k.get e).after h⟩

theorem OfSome.some {s t : State} (h : KeepsInv s t) : OfSome s (.some t) := ⟨fun e => Option.some.inj e ▸ h⟩

theorem OfSome₂.some {β : Type} {s : State} {p : State × β} (h : KeepsInv₁ s p) : OfSome₂ s (.some p) := ⟨fun e => Option.some.inj e ▸ h⟩

theorem OfSome.none {s : State} : OfSome s .none := ⟨fun e => nomatch e⟩

theorem OfSome₂.none {β : Type} {s : State} : OfSome₂ s (.none : Option (State × β)) := ⟨fun e => nomatch e⟩

theorem Outc.next {s t : State} (h : KeepsInv s t) : Outc s (.next t) := ⟨fun e => by cases e; exact h⟩

theorem map {s : State} {o : Option State} {f : State → State} (hf : ∀ m, KeepsInv m (f m)) (h : OfSome s o) : OfSome s (o.map f) := by
  refine ⟨fun e => ?_⟩
  obtain ⟨m, hm, rfl⟩ := Option.map_eq_some_iff.1 e
  exact (hf m).after (h.get hm)

theorem fst {β : Type} {s : State} {p : State × β} (h : KeepsInv₁ s p) : KeepsInv s p.1 := h

/-- The invariant speaks of the register file and the user data alone. -/
theorem of {s t : State} (hr : t.regs = s.regs) (hu : t.zn.ud = s.zn.ud) : KeepsInv s t := ⟨fun h => h.congr hr hu⟩

/-- `of`, for a state written as an update of the fields of another. -/
theorem upd {s : State} {tim evr ras sl zn stg rdn die ftl fns assocs cip cap net pup pwr img gen kz pcx drc outs free pending}
    (hu : zn.ud = s.zn.ud) : KeepsInv s ⟨s.regs, tim, evr, ras, sl, zn, stg, rdn, die, ftl, fns, assocs, cip, cap, net, pup, pwr,
      img, gen, kz, pcx, drc, outs, free, pending⟩ := of rfl hu

/-- Forgetting blocks of user data keeps the invariant. -/
theorem udLess {s t : State} {p : Nat × Nat → Bool} (hr : t.regs = s.regs) (hu : t.zn.ud = s.zn.ud.filter p) : KeepsInv s t :=
  ⟨fun h => ⟨hr ▸ h.1, hu ▸ Ud.wf_filter _ _ h.2⟩⟩

theorem OfSome.getD {s : State} {o : Option State} (h : OfSome s o) : KeepsInv s (o.getD s) := by
  cases o
  · exact refl s
  · exact h.get rfl

theorem foldl {α : Type} {f : State → α → State} {l : List α} {s : State} (h : ∀ s a, KeepsInv s (f s a)) : KeepsInv s (l.foldl f s) :=
  foldl_keeps (P := KeepsInv s) (fun t a k => (h t a).after k) l s (refl s)

/-- As `foldl`, of steps that may fail. -/
theorem foldlSome {α : Type} {f : Option State → α → Option State} {l : List α} {s : State} (hn : ∀ a, f none a = none)
    (h : ∀ m a, OfSome m (f (some m) a)) : OfSome s (l.foldl f (some s)) := by
  induction l generalizing s with
  | nil => exact .some (refl s)
  | cons a l ih =>
    have ha := h s a
    simp only [List.foldl_cons]
    cases e : f (some s) a with
    | none => exact ⟨fun k => by rw [List.foldl_fixed' hn] at k; cases k⟩
    | some t => exact ih.after (ha.get e)

/-- As `foldlSome`, of steps that carry a value along. -/
theorem foldlSome₂ {α β : Type} {f : Option (State × β) → α → Option (State × β)} {l : List α} {p : State × β} (hn : ∀ a, f none a = none)
    (h : ∀ p a, OfSome₂ p.1 (f (some p) a)) : OfSome₂ p.1 (l.foldl f (some p)) := by
  induction l generalizing p with
  | nil => exact .some (refl p.1)
  | cons a l ih =>
    have ha := h p a
    simp only [List.foldl_cons]
    cases e : f (some p) a with
    | none => exact ⟨fun k => by rw [List.foldl_fixed' hn] at k; cases k⟩
    | some t => exact ih.after (ha.get e)

/-! What a conditional or a match answers keeps the invariant where each of its arms does: in general, then for each shape of answer. -/

section
variable {γ : Type} {P : γ → Prop}

theorem arms_ite {p : Prop} {d : Decidable p} {a b : γ} (ha : P a) (hb : P b) : P (if p then a else b) := by
  split <;> assumption

theorem arms_opt {α : Type} {g : γ} {f : α → γ} {o : Option α} (h : ∀ x, o = some x → P (f x)) (hg : P g) :
    P (Option.rec g f o) := by
  cases o
  · exact hg
  · exact h _ rfl

end

section
variable {s : State} {p : Prop} {d : Decidable p} {α β : Type} {o : Option α}

theorem ite {a b : State} (ha : KeepsInv s a) (hb : KeepsInv s b) : KeepsInv s (if p then a else b) :=
  arms_ite ha hb

theorem opt {g : State} {f : α → State} (h : ∀ x, KeepsInv s (f x)) (hg : KeepsInv s g) : KeepsInv s (Option.rec g f o) :=
  arms_opt (fun x _ => h x) hg

theorem optMem {g : State} {f : α → State} (h : ∀ x, o = Option.some x → KeepsInv s (f x)) (hg : KeepsInv s g) : KeepsInv s (Option.rec g f o) :=
  arms_opt h hg

theorem OfSome.ite {a b : Option State} (ha : OfSome s a) (hb : OfSome s b) : OfSome s (if p then a else b) :=
  arms_ite ha hb

theorem OfSome.opt {g : Option State} {f : α → Option State} (h : ∀ x, OfSome s (f x)) (hg : OfSome s g) : OfSome s (Option.rec g f o) :=
  arms_opt (fun x _ => h x) hg

theorem OfSome.optMem {g : Option State} {f : α → Option State} (h : ∀ x, o = Option.some x → OfSome s (f x)) (hg : OfSome s g) :
    OfSome s (Option.rec g f o) :=
  arms_opt h hg

theorem OfSome₂.ite {a b : Option (State × β)} (ha : OfSome₂ s a) (hb : OfSome₂ s b) : OfSome₂ s (if p then a else b) :=
  arms_ite ha hb

theorem OfSome₂.opt {g : Option (State × β)} {f : α → Option (State × β)} (h : ∀ x, OfSome₂ s (f x)) (hg : OfSome₂ s g) :
    OfSome₂ s (Option.rec g f o) :=
  arms_opt (fun x _ => h x) hg

theorem OfSome₂.optMem {g : Option (State × β)} {f : α → Option (State × β)} (h : ∀ x, o = Option.some x → OfSome₂ s (f x)) (hg : OfSome₂ s g) :
    OfSome₂ s (Option.rec g f o) :=
  arms_opt h hg

end

end KeepsInv

section
variable {s : State} {p : Prop} {d : Decidable p} {α β : Type} {o : Option α}

theorem KeepsInv₁.after {a b : State} {c : State × β} (k : KeepsInv₁ b c) (h : KeepsInv a b) : KeepsInv₁ a c := KeepsInv.after k h

theorem KeepsInv₁.foldl {γ : Type} {f : State × β → γ → State × β} {l : List γ} {b : β} (h : ∀ p a, KeepsInv₁ p.1 (f p a)) :
    KeepsInv₁ s (l.foldl f (s, b)) := by
  induction l generalizing s b with
  | nil => exact KeepsInv.refl s
  | cons a l ih => exact KeepsInv.after (ih (s := (f (s, b) a).1) (b := (f (s, b) a).2)) (h (s, b) a)

theorem KeepsInv₁.pair {t : State} {b : β} (h : KeepsInv s t) : KeepsInv₁ s (t, b) := h

theorem KeepsInv₁.ite {a b : State × β} (ha : KeepsInv₁ s a) (hb : KeepsInv₁ s b) : KeepsInv₁ s (if p then a else b) :=
  KeepsInv.arms_ite ha hb

theorem KeepsInv₁.opt {g : State × β} {f : α → State × β} (h : ∀ x, KeepsInv₁ s (f x)) (hg : KeepsInv₁ s g) : KeepsInv₁ s (Option.rec g f o) :=
  KeepsInv.arms_opt (fun x _ => h x) hg

theorem KeepsInv₁.optMem {g : State × β} {f : α → State × β} (h : ∀ x, o = Option.some x → KeepsInv₁ s (f x)) (hg : KeepsInv₁ s g) :
    KeepsInv₁ s (Option.rec g f o) :=
  KeepsInv.arms_opt h hg

end

namespace KeepsInv

/-- As `KeepsInv`, of what the tests before a command of a queue answer. -/
inductive OfBeg (s : State) : Beg → Prop
  | stop {t : State} (h : KeepsInv s t) : OfBeg s (.stop t)
  | go {t : State} {c : Cmd} {q : Queue} {n : Ns} (h : KeepsInv s t) : OfBeg s (.go t c q n)

theorem beg {s : State} {b : Beg} {f : State → State} {g : State → Cmd → Queue → Ns → State} (hf : ∀ t, KeepsInv t (f t))
    (hg : ∀ t c q n, KeepsInv t (g t c q n)) (h : OfBeg s b) : KeepsInv s (Beg.rec f g b) := by
  cases h with
  | stop h => exact (hf _).after h
  | go h => exact (hg _ _ _ _).after h

-- So the unifier sees a match on an option as the recursor that `opt` speaks of. 
set_option smartUnfolding false

variable (s : State)

/-! ### Registers -/

theorem wr (f : Fld) (v i j p : Nat) : KeepsInv s (s.wr f v i j p) := ⟨fun h => h.wr f v i j p⟩

theorem inc (f : Fld) (i j n : Nat) : KeepsInv s (s.inc f i j n) := by
  unfold State.inc
  exact wr ..

theorem addw (f : Fld) (n i j : Nat) : KeepsInv s (s.addw f n i j) := by
  unfold State.addw
  exact wr ..

theorem dec (f : Fld) (i j n : Nat) : KeepsInv s (s.dec f i j n) := by
  unfold State.dec
  exact wr ..

theorem clr (f : Fld) (i j p : Nat) : KeepsInv s (s.clr f i j p) := by
  unfold State.clr
  exact wr ..

/-! ### Sending, drawing, counting -/

theorem send (o : Out) : KeepsInv s (s.send o) := by
  unfold State.send
  exact upd rfl

theorem sendOn (p u pr : Nat) (qp : Option Nat) (o : Out) : KeepsInv s (s.sendOn p u pr qp o) := by
  unfold State.sendOn
  exact .ite (upd rfl) (send ..)

theorem sendQp (n : Nat) (o : Out) : KeepsInv s (s.sendQp n o) := by
  unfold State.sendQp
  exact .opt (fun _ => (sendOn ..)) (send ..)

theorem sendNet (p u : Nat) (what : String) (args : List Nat) : KeepsInv s (s.sendNet p u what args) := by
  unfold State.sendNet
  exact sendOn ..

theorem draw : KeepsInv s s.draw := by
  unfold State.draw
  exact upd rfl

theorem bump : KeepsInv s s.bump := by
  unfold State.bump
  exact upd rfl

/-! ### Senders and slices -/

theorem putSx (n : Nat) (x : SliceX) : KeepsInv s (s.putSx n x) := by
  unfold State.putSx
  exact upd rfl

/-! ### Completions -/

theorem logErr (o : Org) (cid sct sc : Nat) (die : Option Nat) : KeepsInv s (s.logErr o cid sct sc die) := by
  unfold State.logErr
  exact .after (.ite (upd rfl) (.refl _)) (.ite ((addw ..).after (upd rfl)) (.refl _))

theorem hold (func : Nat) (c : Cpl) (t : Stamp) : KeepsInv s (s.hold func c t) := by
  unfold State.hold
  exact .opt (fun _ => (upd rfl)) (.refl _)

theorem mapQ (i : Nat) (f : Queue → Queue) : KeepsInv s (s.mapQ i f) := by
  unfold State.mapQ
  exact upd rfl

theorem pushCq (func cqid : Nat) : KeepsInv s (s.pushCq func cqid) := by
  unfold State.pushCq
  exact upd rfl

theorem postAdm (n : Nat) (c : Cpl) : KeepsInv s (s.postAdm n c) := by
  unfold State.postAdm
  exact .after (.opt (fun _ => (send ..)) (.refl _)) ((pushCq ..).after (send ..))

theorem admLess (o : Org) : KeepsInv s (s.admLess o) := by
  unfold State.admLess
  exact .opt (fun _ => (mapQ ..)) (.refl _)

theorem admPost (o : Org) (c : Cpl) (t : Stamp) : KeepsInv s (s.admPost o c t) := by
  unfold State.admPost
  split
  · exact .ite (postAdm ..) (hold ..)
  · exact .opt (fun _ => (sendQp ..)) (send ..)
  · exact send ..

theorem adm (o : Org) (cid : Nat) (st : Nat × Nat) (dw0 : Nat) (data : List Nat) : KeepsInv s (s.adm o cid st dw0 data) := by
  unfold State.adm
  exact (admPost ..).after ((admLess ..).after (logErr ..))

theorem admBegin (o : Org) : KeepsInv s (s.admBegin o) := by
  unfold State.admBegin
  exact .opt (fun _ => (mapQ ..)) (.refl _)

theorem admin {s : State} {o : Org} {cid : Nat} {f : State → State} (h : ∀ m, KeepsInv m (f m)) : KeepsInv s (s.admin o cid f) := by
  unfold State.admin
  exact .ite
    (.refl _)
    (.opt (fun _ => (.ite ((h _).after (admBegin ..)) (.ite ((adm ..).after (admBegin ..)) (.refl _)))) (.refl _))

/-! ### Queues and commands in flight -/

theorem putCmd (c : Cmd) : KeepsInv s (s.putCmd c) := by
  unfold State.putCmd
  exact upd rfl

theorem addCmd (c : Cmd) : KeepsInv s (s.addCmd c) := by
  unfold State.addCmd
  exact upd rfl

theorem dropCmd (q cid : Nat) : KeepsInv s (s.dropCmd q cid) := by
  unfold State.dropCmd
  exact upd rfl

theorem putQ (i : Nat) (q : Queue) : KeepsInv s (s.putQ i q) := by
  unfold State.putQ
  exact upd rfl

theorem stale (slice : Nat) : KeepsInv s (s.stale slice) := by
  unfold State.stale
  exact inc ..

theorem putVec (v : VecSt) : KeepsInv s (s.putVec v) := by
  unfold State.putVec
  exact upd rfl

theorem signal (func vec urg : Nat) (t : Stamp) : KeepsInv s (s.signal func vec urg t) := by
  unfold State.signal
  exact .opt (fun _ => (.ite ((send ..).after (putVec ..)) (putVec ..))) (send ..)

theorem fin (c : Cmd) (st : Nat × Nat) (dw0 : Nat) (data : List Nat) (die : Option Nat) : KeepsInv s (s.fin c st dw0 data die) := by
  unfold State.fin
  exact .ite
    (.refl _)
    (.after
      (.ite
        (stale ..)
        (.after
          (.opt
            (fun _ =>
              (.after
                (.ite
                  (sendQp ..)
                  (.ite (hold ..) (.after (.opt (fun _ => (signal ..)) (.refl _)) ((pushCq ..).after (send ..)))))
                (putQ ..)))
            (.refl _))
          (.after (.ite (inc ..) (.refl _)) (logErr ..))))
      (dropCmd ..))

/-! ### The ledger's charges -/

theorem charge (slice : Nat) (q : Option Nat) (c : Nat) : KeepsInv s (s.charge slice q c) := by
  unfold State.charge
  exact .after (.opt (fun _ => (.opt (fun _ => (putQ ..)) (.refl _))) (.refl _)) ((putSx ..).after ((wr ..).after (addw ..)))

theorem chargeBg (k c : Nat) : KeepsInv s (s.chargeBg k c) := by
  unfold State.chargeBg
  exact .after (upd rfl) (charge ..)

/-! ### The journal -/

theorem jn (ty : Nat) (f : List Nat) (act : JAct) : KeepsInv s (s.jn ty f act) := by
  unfold State.jn
  exact upd rfl

theorem jnBlks (l : List Blk) : KeepsInv s (s.jnBlks l) := by
  unfold State.jnBlks
  exact .foldl (fun _ _ => (jn ..))

/-! ### Zones -/

theorem putZx (h : Nat) (z : ZoneX) : KeepsInv s (s.putZx h z) := by
  unfold State.putZx
  exact upd rfl

theorem zseq (h : Nat) : KeepsInv s (s.zseq h) := by
  unfold State.zseq
  exact addw ..

theorem jnZone (h : Nat) : KeepsInv s (s.jnZone h) := by
  unfold State.jnZone
  exact jn ..

/-! ### User data -/

theorem setUd (k v : Nat) : KeepsInv s (s.setUd k v) := ⟨fun h => h.setUd k v⟩

theorem wipeZone (h : Nat) : KeepsInv s (s.wipeZone h) := ⟨fun k => k.wipeZone h⟩

/-! ### Dies and blocks -/

theorem putDie (d : Nat) (x : DieSt) : KeepsInv s (s.putDie d x) := by
  unfold State.putDie
  exact upd rfl

theorem putBlk (b : Blk) (x : BlkSt) : KeepsInv s (s.putBlk b x) := by
  unfold State.putBlk
  exact upd rfl

theorem freeTails (b : Blk) : KeepsInv s (s.freeTails b) := by
  unfold State.freeTails
  exact upd rfl

theorem takeBlk (d : Nat) (onebit rebuild : Bool) : KeepsInv.OfSome₂ s (s.takeBlk d onebit rebuild) := by
  unfold State.takeBlk
  exact .opt (fun _ => (.some (.pair ((putDie ..).after (.after (.ite (freeTails ..) (.refl _)) (putBlk ..)))))) .none

theorem stampBlk (b : Blk) (temp : ℤ) : KeepsInv s (s.stampBlk b temp) := by
  unfold State.stampBlk
  exact putBlk ..

theorem stampNow (b : Blk) : KeepsInv s (s.stampNow b) := by
  unfold State.stampNow
  exact stampBlk ..

theorem staleBlk (b : Blk) : KeepsInv s (s.staleBlk b) := by
  unfold State.staleBlk
  exact .ite (.refl _) (putBlk ..)

theorem badBlk (b : Blk) : KeepsInv s (s.badBlk b) := by
  unfold State.badBlk
  exact (jn ..).after ((putDie ..).after (putBlk ..))

/-! ### Operations -/

theorem enq (d : Nat) (o : DOp) : KeepsInv s (s.enq d o) := by
  unfold State.enq
  exact (bump ..).after (putDie ..)

theorem dequeue (d : Nat) (keep : DOp → Bool) : KeepsInv s (s.dequeue d keep) := by
  unfold State.dequeue
  exact putDie ..

theorem filterOps (keep : DOp → Bool) : KeepsInv s (s.filterOps keep) := by
  unfold State.filterOps
  exact upd rfl

/-! ### Stripe rows -/

theorem putRow (r : RowId) (x : SRow) : KeepsInv s (s.putRow r x) := by
  unfold State.putRow
  exact .ite (.opt (fun _ => (upd rfl)) (.refl _)) (.ite (upd rfl) (putZx ..))

theorem freeRow (r : RowId) (x : SRow) : KeepsInv s (s.freeRow r x) := by
  unfold State.freeRow
  exact .after (.ite (jn ..) (jn ..)) ((filterOps ..).after (upd rfl))

/-! ### Rows that admitted reads still use (04 R97) -/

theorem renameRow (a b : RowId) : KeepsInv s (s.renameRow a b) := by
  unfold State.renameRow
  exact upd rfl

theorem abandonRow (r : RowId) (x : SRow) : KeepsInv s (s.abandonRow r x) := by
  unfold State.abandonRow
  exact .after (upd rfl) (filterOps ..)

theorem partRow (r : RowId) (x : SRow) : KeepsInv s (s.partRow r x) := by
  unfold State.partRow
  exact .after (.ite (.after (upd rfl) ((renameRow ..).after (bump ..))) (freeRow ..)) (abandonRow ..)

theorem freeDoomed : KeepsInv s s.freeDoomed := by
  unfold State.freeDoomed
  exact .foldl (fun _ _ => (.ite (.refl _) (.after (upd rfl) (freeRow ..))))

/-! ### Charges of media work (03 R76) -/

theorem foldTake (bytes : Nat) : KeepsInv s (s.foldTake bytes) := by
  unfold State.foldTake
  exact .ite (upd rfl) (.refl _)

theorem foldFreed (bytes : Nat) : KeepsInv s (s.foldFreed bytes) := by
  unfold State.foldFreed
  exact upd rfl

/-! ### The recorder -/

theorem norWrite (kind part parts ns : Nat) (recs : List Rec) : KeepsInv s (s.norWrite kind part parts ns recs) := by
  unfold State.norWrite
  exact (wr ..).after ((wr ..).after ((wr ..).after (upd rfl)))

theorem norCopy (kind ns : Nat) (recs : List Rec) : KeepsInv s (s.norCopy kind ns recs) := by
  unfold State.norCopy
  exact .foldl (fun _ _ => (norWrite ..))

theorem faultFlush : KeepsInv s s.faultFlush := by
  unfold State.faultFlush
  exact (inc ..).after ((norCopy ..).after (.after (upd rfl) ((chargeBg ..).after (upd rfl))))

theorem recAppend (code arg trig : Nat) (addrs : List Nat) (flush : Bool) : KeepsInv s (s.recAppend code arg trig addrs flush) := by
  unfold State.recAppend
  exact .ite (inc ..) (.ite ((inc ..).after (wr ..)) (upd rfl))

theorem record (code arg : Nat) : KeepsInv s (s.record code arg) := by
  unfold State.record
  exact .ite
    (.refl _)
    (.opt (fun _ => (.ite (.refl _) (.ite ((faultFlush ..).after (recAppend ..)) (recAppend ..)))) (recAppend ..))

/-! ### Views of the event queue -/

theorem putView (v : EvView) : KeepsInv s (s.putView v) := by
  unfold State.putView
  exact upd rfl

theorem dropCtl (c : Ctl) : KeepsInv s (s.dropCtl c) := by
  unfold State.dropCtl
  exact upd rfl

theorem notify (c : Ctl) (ty info page : Nat) : KeepsInv s (s.notify c ty info page) := by
  unfold State.notify
  exact .opt (fun _ => ((adm ..).after (upd rfl))) (.ite (.refl _) (upd rfl))

theorem reportTo (cls : Nat) (c : Ctl) : KeepsInv s (s.reportTo cls c) := by
  unfold State.reportTo
  exact .ite (.refl _) ((notify ..).after (putView ..))

theorem loseFor (c : Ctl) : KeepsInv s (s.loseFor c) := by
  unfold State.loseFor
  exact putView ..

theorem raise (code slice arg : Nat) : KeepsInv s (s.raise code slice arg) := by
  unfold State.raise
  exact .after
    (.foldl (fun _ _ => (reportTo ..)))
    (.after
      (.ite (send ..) (.refl _))
      ((record ..).after (.ite (upd rfl) (.after (.foldl (fun _ _ => (loseFor ..))) (inc ..)))))

/-! ### Notices of the base specification -/

theorem zoneChanged (nsid zslba slice : Nat) : KeepsInv s (s.zoneChanged nsid zslba slice) := by
  unfold State.zoneChanged
  exact .foldl (fun _ _ => ((notify ..).after (.ite (.refl _) (upd rfl))))

/-! ### The mailbox (16 R356) -/

theorem latch (src data : Nat) : KeepsInv s (s.latch src data) := by
  unfold State.latch
  exact .ite (upd rfl) ((wr ..).after (upd rfl))

theorem edge (src data : Nat) : KeepsInv s (s.edge src data) := by
  unfold State.edge
  exact .ite (latch ..) (.refl _)

/-! ### FAULT_N (17 R370; 21 R460) -/

theorem faultLow : KeepsInv s s.faultLow := by
  unfold State.faultLow
  exact (send ..).after (upd rfl)

theorem faultFree : KeepsInv s s.faultFree := by
  unfold State.faultFree
  exact (send ..).after (upd rfl)

theorem faultHigh : KeepsInv s s.faultHigh := by
  unfold State.faultHigh
  exact .ite (.refl _) (faultFree ..)

/-! ### Corrected and uncorrectable memory errors -/

theorem correctable (mem addr : Nat) : KeepsInv s (s.correctable mem addr) := by
  unfold State.correctable
  exact .after
    (.opt
      (fun _ => (.after (.ite (raise ..) (.refl _)) (upd rfl)))
      (.opt (fun _ => (.after (.ite (raise ..) (.refl _)) (upd rfl))) (inc ..)))
    (inc ..)

theorem sramUe (mem addr : Nat) : KeepsInv s (s.sramUe mem addr) := by
  unfold State.sramUe
  exact .after (.ite (raise ..) (.refl _)) (inc ..)

/-! ### Capacity use and limits (02 R49, R50) -/

theorem limits (n : Nat) : KeepsInv s (s.limits n) := by
  unfold State.limits
  exact .ite (.after (.ite (raise ..) (.refl _)) ((wr ..).after (wr ..))) ((wr ..).after (wr ..))

theorem zmark (h : Nat) : KeepsInv s (s.zmark h) := by
  unfold State.zmark
  exact .ite (.refl _) (upd rfl)

theorem setZst (h z : Nat) : KeepsInv s (s.setZst h z) := by
  unfold State.setZst
  exact (jnZone ..).after
    ((limits ..).after
      (.after
        (.ite (addw ..) (.ite (dec ..) (.refl _)))
        (.after
          (.ite ((addw ..).after (addw ..)) (.ite ((dec ..).after (dec ..)) (.refl _)))
          ((zseq ..).after ((wr ..).after (zmark ..))))))

/-! ### Parity slots (06 R148, R149) -/

theorem giveSram (h : Nat) (rsv : Bool) : KeepsInv s (s.giveSram h rsv) := by
  unfold State.giveSram
  exact (zseq ..).after ((addw ..).after ((addw ..).after ((putZx ..).after (wr ..))))

theorem dropSram (h p : Nat) : KeepsInv s (s.dropSram h p) := by
  unfold State.dropSram
  exact (zseq ..).after ((dec ..).after ((dec ..).after (wr ..)))

theorem takeSlot (h : Nat) : KeepsInv s (s.takeSlot h) := by
  unfold State.takeSlot
  exact .opt (fun _ => (giveSram ..)) (.opt (fun _ => ((giveSram ..).after (dropSram ..))) ((zseq ..).after (wr ..)))

theorem promote : KeepsInv s s.promote := by
  unfold State.promote
  exact .foldl (fun _ _ => (.ite (.opt (fun _ => (giveSram ..)) (.refl _)) (.refl _)))

theorem dropSlot (h : Nat) : KeepsInv s (s.dropSlot h) := by
  unfold State.dropSlot
  exact .ite ((promote ..).after (dropSram ..)) (.ite ((zseq ..).after (wr ..)) (.refl _))

/-! ### Free space and placement (04 R103, 11 R272-R275) -/

theorem takeAll (onebit : Bool) (ds : List Nat) : KeepsInv₁ s (s.takeAll onebit ds) := by
  induction ds generalizing s with
  | nil => exact refl s
  | cons d ds ih => exact .optMem (fun p e => .pair ((ih p.1).after ((takeBlk ..).get e))) (.pair (ih s))

theorem newRow (g : Grp) (shadow win : Bool) (set : Nat) : KeepsInv₁ s (s.newRow g shadow win set) := by
  unfold State.newRow
  exact .ite (.pair ((takeAll ..).after (takeAll ..))) (.pair (takeAll ..))

theorem newRows (g : Grp) (shadow win : Bool) (xs : List Nat) : KeepsInv₁ s (s.newRows g shadow win xs) := by
  induction xs generalizing s with
  | nil => exact refl s
  | cons x xs ih => exact .pair ((ih _).after (newRow ..))

theorem activate (h dg : Nat) (direct : Bool) : KeepsInv.OfSome s (s.activate h dg direct) := by
  unfold State.activate
  exact .opt
    (fun _ =>
      (.ite
        .none
        (.opt
          (fun _ =>
            (.some
              (.after
                (.foldl (fun _ _ => ((jnBlks ..).after (jnBlks ..))))
                (.after
                  (.foldl (fun _ _ => (jn ..)))
                  ((takeSlot ..).after
                    (.after
                      (.ite (addw ..) (.refl _))
                      ((wr ..).after
                        ((wr ..).after
                          ((wr ..).after
                            ((wr ..).after
                              ((wr ..).after
                                ((wr ..).after
                                  ((wr ..).after
                                    ((wr ..).after
                                      ((putZx ..).after (.after (upd rfl) ((newRows ..).after (zmark ..))))))))))))))))))
          .none)))
    .none

theorem dropDirect (h : Nat) : KeepsInv s (s.dropDirect h) := by
  unfold State.dropDirect
  exact .ite ((putZx ..).after (dec ..)) (.refl _)

theorem unbind (h : Nat) : KeepsInv s (s.unbind h) := by
  unfold State.unbind
  exact (wr ..).after
    ((wr ..).after
      ((wr ..).after
        ((wr ..).after
          ((wr ..).after
            ((wr ..).after
              ((putZx ..).after
                (.after
                  (upd rfl)
                  (.after
                    (upd rfl)
                    (.after
                      (.foldl (fun _ _ => (partRow ..)))
                      (.after (upd rfl) ((dropSlot ..).after ((dropDirect ..).after (zmark ..)))))))))))))

/-! ### The zone hold (04 R95) -/

theorem failHeld (c : Cmd) (st : Nat × Nat) : KeepsInv s (s.failHeld c st) := by
  unfold State.failHeld
  exact (fin ..).after ((zseq ..).after ((dec ..).after (inc ..)))

theorem failHolds (h : Nat) (st : Nat × Nat) : KeepsInv s (s.failHolds h st) := by
  unfold State.failHolds
  exact .foldl (fun _ _ => (failHeld ..))

theorem gap (h : Nat) : KeepsInv s (s.gap h) := by
  unfold State.gap
  exact failHolds ..

theorem serveHold (h : Nat) : KeepsInv s (s.serveHold h) := by
  unfold State.serveHold
  refine .foldl (fun s c => .ite (failHeld ..) (.ite ?_ (.refl _)))
  split
  · exact (putCmd ..).after ((zseq ..).after (dec ..))
  · exact .refl _
  · exact (gap ..).after ((fin ..).after ((zseq ..).after (dec ..)))

/-! ### Programs of written data -/

theorem foldPar (r : RowId) (u v : Nat) : KeepsInv s (s.foldPar r u v) := by
  unfold State.foldPar
  exact .opt (fun _ => (.ite (.refl _) (upd rfl))) (.refl _)

theorem stageAt (u : StU) (key v : Nat) : KeepsInv s (s.stageAt u key v) := by
  unfold State.stageAt
  exact (foldPar ..).after ((setUd ..).after (upd rfl))

theorem progPage (r : RowId) (k w p m n : Nat) (purp : Purp) (force : Bool) : KeepsInv s (s.progPage r k w p m n purp force) := by
  unfold State.progPage
  exact .opt
    (fun _ =>
      (.ite (.refl _) (.after (.ite (.refl _) ((enq ..).after (.ite (charge ..) (.refl _)))) (.ite (.refl _) (upd rfl)))))
    (.refl _)

theorem progWl (r : RowId) (w n : Nat) (purp : Purp) : KeepsInv s (s.progWl r w n purp) := by
  unfold State.progWl
  exact .opt (fun _ => (.foldl (fun _ _ => (enq ..)))) (.refl _)

theorem openWin (r : RowId) : KeepsInv s (s.openWin r) := by
  unfold State.openWin
  exact .opt
    (fun _ => (.ite (.refl _) (.after (.ite (.refl _) (zseq ..)) ((putRow ..).after ((jnBlks ..).after (takeAll ..))))))
    (.refl _)

theorem progReady (r : RowId) (k n fr upto : Nat) (direct : Bool) : KeepsInv s (s.progReady r k n fr upto direct) := by
  unfold State.progReady
  exact .ite
    (.foldl (fun _ _ => (progWl ..)))
    (.after
      (.foldl (fun _ _ => (progPage ..)))
      (.foldl
        (fun _ _ => (.foldl (fun _ _ => ((progPage ..).after (.opt (fun _ => (.ite (.refl _) (openWin ..))) (.refl _))))))))

theorem padDone (r : RowId) : KeepsInv s (s.padDone r) := by
  unfold State.padDone
  exact .ite (.refl _) ((zseq ..).after ((wr ..).after ((dropSlot ..).after ((dropDirect ..).after (putZx ..)))))

theorem padRow (h : Nat) : KeepsInv s (s.padRow h) := by
  unfold State.padRow
  exact .ite
    (.refl _)
    ((padDone ..).after
      (.after
        (.ite
          (.refl _)
          (.ite
            (.ite (.refl _) (progWl ..))
            (.foldl
              (fun _ _ =>
                (.after
                  (.foldl (fun _ _ => (.opt (fun _ => (.ite (progPage ..) (.refl _))) (.refl _))))
                  (.opt (fun _ => (.ite (.refl _) (openWin ..))) (.refl _)))))))
        (putZx ..)))

/-! ### Changes of state the controller and commands share (04 R90-R95) -/

theorem failUncommitted (h : Nat) (st : Nat × Nat) : KeepsInv s (s.failUncommitted h st) := by
  unfold State.failUncommitted
  exact .foldl (fun _ _ => (fin ..))

theorem becomeFull (h : Nat) : KeepsInv s (s.becomeFull h) := by
  unfold State.becomeFull
  exact .after
    (.ite (padRow ..) (.refl _))
    ((failUncommitted ..).after ((failHolds ..).after ((setZst ..).after ((wr ..).after ((putZx ..).after (zmark ..))))))

theorem becomeRo (h : Nat) : KeepsInv s (s.becomeRo h) := by
  unfold State.becomeRo
  exact .ite
    (.refl _)
    (.after
      (.ite (padRow ..) (.refl _))
      ((failUncommitted ..).after
        ((failHolds ..).after ((zoneChanged ..).after ((inc ..).after ((setZst ..).after ((wr ..).after (zmark ..))))))))

theorem ctlFinish (h : Nat) : KeepsInv s (s.ctlFinish h) := by
  unfold State.ctlFinish
  exact .ite ((zoneChanged ..).after ((inc ..).after ((wr ..).after (becomeFull ..)))) (.refl _)

theorem zoneReset (h : Nat) : KeepsInv s (s.zoneReset h) := by
  unfold State.zoneReset
  exact .after
    (.ite (.refl _) ((setZst ..).after ((inc ..).after ((wr ..).after ((wr ..).after ((wipeZone ..).after (unbind ..)))))))
    (failHolds ..)

theorem loseStripe (r : RowId) (stripe : Nat) : KeepsInv s (s.loseStripe r stripe) := by
  unfold State.loseStripe
  exact .after
    (.ite (.refl _) (becomeRo ..))
    (.ite (.refl _) ((raise ..).after ((jn ..).after (.ite (upd rfl) (.ite ((inc ..).after (wr ..)) (upd rfl))))))

theorem stgUe (r : RowId) (u : Nat) : KeepsInv s (s.stgUe r u) := by
  unfold State.stgUe
  split
  · exact .ite (loseStripe ..) (.refl _)
  · exact .refl _

theorem putGen (slice nsid gen : Nat) : KeepsInv s (s.putGen slice nsid gen) := by
  unfold State.putGen
  exact upd rfl

theorem putSlot (i : Nat) (k : KeySlot) : KeepsInv s (s.putSlot i k) := by
  unfold State.putSlot
  exact upd rfl

theorem freeSlot (i : Nat) : KeepsInv s (s.freeSlot i) := by
  unfold State.freeSlot
  exact upd rfl

theorem denyKey : KeepsInv s s.denyKey := by
  unfold State.denyKey
  exact inc ..

theorem sweepSlots : KeepsInv s s.sweepSlots := by
  unfold State.sweepSlots
  exact upd rfl

theorem derive (i slice nsid gen purpose : Nat) : KeepsInv s (s.derive i slice nsid gen purpose) := by
  unfold State.derive
  exact putSlot ..

theorem keyFault (a b kind : Nat) : KeepsInv s (s.keyFault a b kind) := by
  unfold State.keyFault
  exact (inc ..).after (.ite (.refl _) ((wr ..).after ((wr ..).after ((wr ..).after (wr ..)))))

theorem keyReq (slice nsid gen purpose : Nat) : KeepsInv₁ s (s.keyReq slice nsid gen purpose) := by
  have hs := sweepSlots s
  have hd : KeepsInv s s.sweepSlots.denyKey := (denyKey ..).after hs
  have derived (i : Nat) : KeepsInv s (s.sweepSlots.derive i slice nsid gen purpose) := (derive ..).after hs
  unfold State.keyReq
  extract_lets t m
  split
  · exact .pair hd
  split
  · exact .pair hd
  split
  · exact .pair hd
  split
  · exact .pair hd
  split
  · exact .pair hd
  split
  · split
    · exact .pair ((putSlot ..).after (.after (upd rfl) hs))
    · exact .pair ((sweepSlots ..).after (.after (.foldl (fun _ _ => putSlot ..))
        ((raise ..).after ((keyFault ..).after ((putSlot ..).after (.after (upd rfl) hs))))))
  split
  · exact .pair hs
  split <;> split
  · exact .pair (derived _)
  · exact .pair hs
  · exact .pair (derived _)
  · exact .pair hs

theorem blockKey (nsid : Nat) : KeepsInv₁ s (s.blockKey nsid) := by
  unfold State.blockKey
  exact .opt (fun _ => (.ite (keyReq ..) (.pair (.refl _)))) (.pair (.refl _))

theorem advance (slice nsid : Nat) : KeepsInv s (s.advance slice nsid) := by
  unfold State.advance
  exact jn ..

theorem revoke (slice nsid gen : Nat) : KeepsInv s (s.revoke slice nsid gen) := by
  unfold State.revoke
  exact (sweepSlots ..).after (upd rfl)

theorem putStream (n : Nat) (x : Stream) : KeepsInv s (s.putStream n x) := by
  unfold State.putStream
  exact upd rfl

theorem setStream (n st rsn : Nat) : KeepsInv s (s.setStream n st rsn) := by
  unfold State.setStream
  exact .opt
    (fun _ =>
      (.ite (.refl _) (.after (.ite (raise ..) (.ite (.ite (.refl _) (raise ..)) (.ite (raise ..) (.refl _)))) (putStream ..))))
    (.refl _)

theorem capFence (slice : Nat) : KeepsInv s (s.capFence slice) := by
  unfold State.capFence
  exact .foldl (fun _ _ => (setStream ..))

theorem endCmds (n : Nat) (st : Nat × Nat) : KeepsInv s (s.endCmds n st) := by
  unfold State.endCmds
  exact .after (.foldl (fun _ _ => ((adm ..).after (upd rfl)))) (.foldl (fun _ _ => (.ite (failHeld ..) (fin ..))))

theorem fence (n rsn : Nat) : KeepsInv s (s.fence n rsn) := by
  unfold State.fence
  exact .ite
    ((raise ..).after ((capFence ..).after ((endCmds ..).after ((limits ..).after ((wr ..).after (wr ..))))))
    (.ite (.ite (putSx ..) (.refl _)) (.refl _))

theorem logFlt (n kind : Nat) (perm : Bool) (func : Nat) (pasid : Option Nat) (addr : Nat) (wr : Bool) :
    KeepsInv s (s.logFlt n kind perm func pasid addr wr) := by
  unfold State.logFlt
  exact .after
    (.ite
      (.refl _)
      ((KeepsInv.wr ..).after
        ((KeepsInv.wr ..).after
          ((KeepsInv.wr ..).after
            ((KeepsInv.wr ..).after ((KeepsInv.wr ..).after ((KeepsInv.wr ..).after (KeepsInv.wr ..))))))))
    (inc ..)

theorem xlate (n func : Nat) (pasid : Option Nat) (addr : Nat) (wr cxl : Bool) : KeepsInv₁ s (s.xlate n func pasid addr wr cxl) := by
  unfold State.xlate
  exact .ite (.pair (inc ..)) (.ite (.pair (.refl _)) (.ite (.pair ((raise ..).after (logFlt ..))) (.pair (logFlt ..))))

theorem dmaEnd {s : State} {n : Nat} {x : Xl} {f : State → State} (h : ∀ m, KeepsInv m (f m)) : KeepsInv s (s.dmaEnd n x f) := by
  unfold State.dmaEnd
  exact .ite ((fence ..).after (h _)) (h _)

theorem xlatePages (n func : Nat) (pasid : Option Nat) (wr : Bool) (ps : List Nat) : KeepsInv₁ s (s.xlatePages n func pasid wr ps) := by
  induction ps generalizing s with
  | nil => exact refl s
  | cons p ps ih => exact .ite (.after (ih _) (xlate ..)) (xlate ..)

theorem dma (q : Queue) (addr len : Nat) (wr : Bool) : KeepsInv₁ s (s.dma q addr len wr) := by
  unfold State.dma
  exact .ite (.pair (.refl _)) (xlatePages ..)

theorem putMent (nsid lba : Nat) (e : MEnt) : KeepsInv s (s.putMent nsid lba e) := by
  unfold State.putMent
  exact upd rfl

theorem putLine (l : MLine) : KeepsInv s (s.putLine l) := by
  unfold State.putLine
  exact upd rfl

theorem dropLine (l : MLine) : KeepsInv s (s.dropLine l) := by
  unfold State.dropLine
  exact upd rfl

theorem touch (set way : Nat) : KeepsInv s (s.touch set way) := by
  unfold State.touch
  exact upd rfl

theorem newCRow (dg : Nat) (map : Bool) : KeepsInv.OfSome₂ s (s.newCRow dg map) := by
  unfold State.newCRow
  dsimp only
  split
  · exact .none
  split
  · exact .none
  split
  next sets cur h _ _ =>
    exact .some (.pair ((jnBlks ..).after ((jnBlks ..).after ((jn ..).after
      (.after (b := (s.newRow _ (s.onShadow dg) true (sets.headD 0)).1) (of rfl rfl) (newRow ..))))))
  · exact .none

theorem openMapRow (dg : Nat) : KeepsInv.OfSome₂ s (s.openMapRow dg) := by
  unfold State.openMapRow
  exact .opt (fun _ => (.some (.pair (.refl _)))) (newCRow ..)

theorem writeBack (nsid page : Nat) (bg : Bool) : KeepsInv s (s.writeBack nsid page bg) := by
  unfold State.writeBack
  exact .optMem
    (fun _ h0 =>
      (.opt
        (fun _ =>
          ((jn ..).after
            ((progReady ..).after (.after (.foldl (fun _ _ => (stageAt ..))) (.after (upd rfl) ((openMapRow ..).get h0))))))
        ((openMapRow ..).get h0)))
    (.refl _)

theorem bypassUse (nsid page : Nat) (dirty : Bool) : KeepsInv s (s.bypassUse nsid page dirty) := by
  unfold State.bypassUse
  dsimp only
  split
  · exact .ite (.after (upd rfl) (.ite (writeBack ..) (.refl _))) (upd rfl)
  · exact upd rfl

theorem chargeFill (n : Nat) : KeepsInv s (s.chargeFill n) := by
  unfold State.chargeFill
  exact charge ..

theorem lookup (nsid page n q cid : Nat) : KeepsInv₁ s (s.lookup nsid page n q cid) := by
  unfold State.lookup
  exact .ite
    (.pair (.refl _))
    (.ite
      (.pair (bypassUse ..))
      (.opt
        (fun _ => (.ite (.pair (putLine ..)) (.pair ((touch ..).after (inc ..)))))
        (.after
          (.opt
            (fun _ =>
              (.after
                (.ite (.pair ((putLine ..).after (chargeFill ..))) (.pair ((touch ..).after (putLine ..))))
                (.opt (fun _ => ((dropLine ..).after (.ite (writeBack ..) (.refl _)))) (.refl _))))
            (.pair (.refl _)))
          (inc ..))))

theorem dirtyPage (nsid page seq : Nat) : KeepsInv s (s.dirtyPage nsid page seq) := by
  unfold State.dirtyPage
  exact .after
    (.ite
      (bypassUse ..)
      (.opt
        (fun _ => (putLine ..))
        (.opt
          (fun _ =>
            ((touch ..).after
              ((putLine ..).after
                (.after
                  (.ite (chargeFill ..) (.refl _))
                  (.opt (fun _ => ((dropLine ..).after (.ite (writeBack ..) (.refl _)))) (.refl _))))))
          (.refl _))))
    (upd rfl)

theorem invalidate (row : Nat) : KeepsInv s (s.invalidate row) := by
  unfold State.invalidate
  exact .opt (fun _ => (upd rfl)) (.refl _)

theorem mapSet (nsid lba : Nat) (e : MEnt) (seq : Nat) : KeepsInv s (s.mapSet nsid lba e seq) := by
  unfold State.mapSet
  exact (dirtyPage ..).after
    ((putMent ..).after
      (.after (upd rfl) (.after (.ite (addw ..) (.ite (dec ..) (.refl _))) (.ite (invalidate ..) (.refl _)))))

theorem invRange (nsid first count : Nat) (discard : Bool) : KeepsInv s (s.invRange nsid first count discard) := by
  unfold State.invRange
  exact .foldl (fun _ _ => (.ite (putLine ..) (.ite ((dropLine ..).after (writeBack ..)) (dropLine ..))))

theorem openCRow (dg : Nat) : KeepsInv.OfSome₂ s (s.openCRow dg) := by
  unfold State.openCRow
  exact .opt (fun _ => (.some (.pair (.refl _)))) (newCRow ..)

/-! ### Reconstruction and read-around (07 R173, R174) -/

theorem startRecon (r : RowId) (x : SRow) (m b : Nat) (around : Bool) (c : Cmd) (cw : Nat) (jumped : Option Nat) :
    KeepsInv s (s.startRecon r x m b around c cw jumped) := by
  unfold State.startRecon
  exact .after (.foldl (fun _ _ => (enq ..))) (.after (upd rfl) (bump ..))

theorem degraded (r : RowId) (x : SRow) (m b : Nat) (c : Cmd) (cw : Nat) : KeepsInv₁ s (s.degraded r x m b c cw) := by
  unfold State.degraded
  exact .after
    (.ite (.pair (inc ..)) (.ite (.pair (startRecon ..)) (.ite (.pair (.refl _)) (.pair ((loseStripe ..).after (inc ..))))))
    (inc ..)

theorem considerRa (d : Nat) (o : DOp) (r : RowId) (x : SRow) (m b : Nat) (c : Cmd) : KeepsInv s (s.considerRa d o r x m b c) := by
  unfold State.considerRa
  exact .ite (.ite ((inc ..).after ((startRecon ..).after (dequeue ..))) (inc ..)) (.refl _)

theorem fetchUnit (r : RowId) (u cw : Nat) (c : Cmd) : KeepsInv₁ s (s.fetchUnit r u cw c) := by
  unfold State.fetchUnit
  exact .opt
    (fun _ =>
      (.ite (degraded ..) (.ite (.pair (.refl _)) (.pair ((considerRa ..).after ((enq ..).after (.ite (draw ..) (.refl _))))))))
    (.pair (.refl _))

theorem takeIn (i cid : Nat) (q : Queue) (a : Arr) : KeepsInv₁ s (s.takeIn i cid q a) := by
  unfold State.takeIn
  exact .pair ((charge ..).after ((addCmd ..).after (putQ ..)))

theorem refuse (c : Cmd) (st : Nat × Nat) : KeepsInv s (s.refuse c st) := by
  unfold State.refuse
  exact .opt (fun _ => (.after (.ite (gap ..) (.refl _)) (fin ..))) (fin ..)

theorem entry (i cid : Nat) (q : Queue) : KeepsInv.OfSome₂ s (s.entry i cid q) := by
  unfold State.entry
  exact .opt
    (fun _ => (.ite (.some (.pair (.refl _))) .none))
    (.opt (fun _ => (.some (takeIn ..))) (.ite .none (.some (takeIn ..))))

theorem beginCmd (i cid : Nat) (k : CmdKind) (nsid lba len : Nat) (lr fua : Bool) (hint : Nat) :
    OfBeg s (s.begin i cid k nsid lba len lr fua hint) := by
  unfold State.begin
  split
  · exact .stop (.refl _)
  dsimp only
  split
  · exact .stop (.refl _)
  split
  · exact .stop (.refl _)
  next e =>
  have hp : ∀ c, KeepsInv s (State.putCmd _ c) := fun c => (putCmd ..).after ((entry ..).get e)
  split
  · exact .stop ((refuse ..).after (hp _))
  split
  · exact .stop ((refuse ..).after (hp _))
  split
  · exact .stop ((refuse ..).after (hp _))
  split
  · exact .stop ((refuse ..).after (hp _))
  split
  · exact .stop ((refuse ..).after (hp _))
  split
  · exact .stop ((refuse ..).after (hp _))
  · exact .go (hp _)

/-! ### Reads (04 R97) -/

theorem finRead (c : Cmd) : KeepsInv s (s.finRead c) := by
  unfold State.finRead
  exact .ite ((fin ..).after (putSx ..)) ((fin ..).after (putSx ..))

theorem lookups (c : Cmd) : KeepsInv₁ s (s.lookups c) := by
  unfold State.lookups
  exact .foldl (fun _ _ => .pair (lookup ..))

theorem fetchAll (c : Cmd) (l : List (Nat × Src)) : KeepsInv₁ s (s.fetchAll c l) := by
  induction l generalizing s with
  | nil => exact refl s
  | cons e t ih =>
    obtain ⟨i, src⟩ := e
    cases src with
    | unit r u =>
      have h : KeepsInv s ((s.fetchUnit r u i c).1.fetchAll c t).1 := (ih _).after (fetchUnit ..)
      unfold State.fetchAll
      dsimp only
      split <;> exact h
    | lost => exact refl s
    | _ => exact ih s

theorem issueRead (c : Cmd) : KeepsInv s (s.issueRead c) := by
  unfold State.issueRead
  exact .opt
    (fun _ => ((fin ..).after (fetchAll ..)))
    (.ite ((finRead ..).after ((putCmd ..).after (fetchAll ..))) ((putCmd ..).after (fetchAll ..)))

theorem keyedRead (c : Cmd) : KeepsInv s (s.keyedRead c) := by
  unfold State.keyedRead
  dsimp only
  split
  · exact (fin ..).after (fst (.ite (.pair (.refl _)) (blockKey ..)))
  · exact (putCmd ..).after (fst (.ite (.pair (.refl _)) (blockKey ..)))
  · exact (issueRead ..).after (fst (.ite (.pair (.refl _)) (blockKey ..)))

theorem runRead (c : Cmd) (n : Ns) : KeepsInv s (s.runRead c n) := by
  unfold State.runRead
  exact .ite
    (fin ..)
    (.ite
      ((putCmd ..).after (fst (.ite (.pair (.refl _)) (lookups ..))))
      (.after (.ite (fin ..) (keyedRead ..)) (fst (.ite (.pair (.refl _)) (lookups ..)))))

theorem rerun (q cid : Nat) : KeepsInv s (s.rerun q cid) := by
  unfold State.rerun
  exact .opt
    (fun _ =>
      (.opt (fun _ => (.ite (issueRead ..) (.ite (.refl _) (.ite (runRead ..) (.ite (keyedRead ..) (.refl _)))))) (.refl _)))
    (.refl _)

/-! ### Admission of writes (06 R144-R150, 11 R274, R275) -/

theorem deduct (n dg bytes : Nat) : KeepsInv s (s.deduct n dg bytes) := by
  unfold State.deduct
  exact .after (.opt (fun _ => (upd rfl)) (.refl _)) (.after (upd rfl) (putSx ..))

theorem spillNote (c : Cmd) (n : Ns) : KeepsInv s (s.spillNote c n) := by
  unfold State.spillNote
  exact .ite (upd rfl) (.refl _)

theorem failWrite (c : Cmd) (n : Ns) (st : Nat × Nat) : KeepsInv s (s.failWrite c n st) := by
  unfold State.failWrite
  exact .after (.ite (gap ..) (.refl _)) (fin ..)

/-! ### Commit (02 R53, 04 R89-R91, R504, 06 R145) -/

theorem stage (r : RowId) (u key v pool : Nat) (c : Cmd) : KeepsInv s (s.stage r u key v pool c) := by
  unfold State.stage
  exact stageAt ..

theorem stageZone (h k : Nat) (c : Cmd) (off : Nat) (vs : List Nat) : KeepsInv s (s.stageZone h k c off vs) := by
  induction vs generalizing s off with
  | nil => exact refl s
  | cons v vs ih => exact (ih ..).after (stage ..)

theorem progZone (h k fr upto : Nat) : KeepsInv s (s.progZone h k fr upto) := by
  unfold State.progZone
  exact .foldl (fun _ _ => (.ite (progReady ..) (.refl _)))

theorem commitZone (c : Cmd) : KeepsInv s (s.commitZone c) := by
  unfold State.commitZone
  exact (serveHold ..).after
    (.after
      (.ite (fin ..) (fin ..))
      (.after
        (.ite ((addCmd ..).after ((becomeFull ..).after (dropCmd ..))) (.refl _))
        (.after
          (.ite ((jnZone ..).after (zseq ..)) (setZst ..))
          (.after (.ite (promote ..) (.refl _)) ((progZone ..).after ((putZx ..).after ((wr ..).after (stageZone ..))))))))

theorem commitConv (c : Cmd) (n : Ns) (lba run seq : Nat) (vs : List Nat) : KeepsInv.OfSome s (s.commitConv c n lba run seq vs) := by
  induction vs generalizing s lba run seq with
  | nil => exact .some (.refl s)
  | cons v vs ih =>
    refine .optMem (fun p e => .opt (fun cr => .after (ih ..) ((progReady ..).after ((mapSet ..).after (.after (.ite (jn ..) (.refl _))
      ((stage ..).after (.after (upd rfl) ((openCRow ..).get e))))))) .none) .none

theorem forcePage (n : Nat) (e : RowId × Nat × Nat) : KeepsInv s (s.forcePage n e) := by
  unfold State.forcePage
  exact .ite (.refl _) (.after (upd rfl) (.after (.foldl (fun _ _ => (progPage ..))) (charge ..)))

theorem forceFlush (dg n : Nat) : KeepsInv s (s.forceFlush dg n) := by
  unfold State.forceFlush
  exact .foldl (fun _ _ => (forcePage ..))

theorem keepLog : KeepsInv s s.keepLog := by
  unfold State.keepLog
  exact upd rfl

theorem finFlush : KeepsInv s s.finFlush := by
  unfold State.finFlush
  exact .after (.foldl (fun _ _ => (.opt (fun _ => (.ite (fin ..) (forceFlush ..))) (fin ..)))) (keepLog ..)

/-! ### Lanes -/

theorem toLane (n : Nat) (x : Stream) (f : Frame) : KeepsInv s (s.toLane n x f) := by
  unfold State.toLane
  exact .ite
    (.refl _)
    (.opt
      (fun _ =>
        ((addw ..).after
          ((foldTake ..).after
            (.after (.opt (fun _ => (.ite (upd rfl) (.refl _))) (.refl _)) (.after (upd rfl) (putStream ..))))))
      (.refl _))

theorem feedTo (n upto fuel : Nat) : KeepsInv s (s.feedTo n upto fuel) := by
  induction fuel generalizing s with
  | zero => exact refl s
  | succ fuel ih =>
    exact .opt (fun x => .opt (fun f => .ite ((ih _).after (toLane ..)) (.refl _)) (.refl _)) (.refl _)

theorem feed (n : Nat) : KeepsInv s (s.feed n) := by
  unfold State.feed
  exact .opt (fun _ => (.opt (fun _ => (.ite (.refl _) (feedTo ..))) (.refl _))) (.refl _)

/-! ### Zone sets -/

theorem holdBy (h : Nat) (n : Option Nat) : KeepsInv s (s.holdBy h n) := by
  unfold State.holdBy
  exact putZx ..

theorem openAll (n : Nat) (x : Stream) (direct : Bool) (hs : List Nat) : KeepsInv₁ s (s.openAll n x direct hs) := by
  unfold State.openAll
  refine .ite (.pair (.refl _)) (.optMem (fun t e => .pair ?_) (.pair (.refl _)))
  refine OfSome.get (foldlSome (fun _ => rfl) (fun m h => ?_)) e
  exact map (fun _ => (holdBy ..).after (setZst ..)) (activate ..)

theorem leaveSet (n : Nat) (x : Stream) : KeepsInv s (s.leaveSet n x) := by
  unfold State.leaveSet
  exact .opt (fun _ => ((putStream ..).after (.foldl (fun _ _ => ((holdBy ..).after (.ite (becomeFull ..) (.refl _))))))) (.refl _)

theorem openSet (n : Nat) : KeepsInv s (s.openSet n) := by
  unfold State.openSet
  exact .opt
    (fun _ => (.opt (fun _ => (.ite (setStream ..) (.ite (setStream ..) ((putStream ..).after (openAll ..))))) (setStream ..)))
    (.refl _)

theorem openIdx (n : Nat) : KeepsInv s (s.openIdx n) := by
  unfold State.openIdx
  exact .opt (fun _ => (.opt (fun _ => (.ite (setStream ..) ((putStream ..).after (openAll ..)))) (setStream ..))) (.refl _)

theorem place (n : Nat) : KeepsInv s (s.place n) := by
  unfold State.place
  exact .opt
    (fun _ =>
      (.ite
        (.refl _)
        (.opt
          (fun _ =>
            (.ite
              (feed ..)
              (.after
                (.opt (fun _ => (.ite ((feed ..).after (putStream ..)) (.refl _))) (.refl _))
                (.ite (.refl _) ((openSet ..).after (leaveSet ..))))))
          (.refl _))))
    (.refl _)

/-! ### Commit -/

theorem stageBlk (h off v : Nat) (c : Cmd) : KeepsInv s (s.stageBlk h off v c) := by
  unfold State.stageBlk
  exact stage ..

theorem stageLog (hs : List Nat) (w : Nat) (c : Cmd) (x : Nat) (vs : List Nat) : KeepsInv s (s.stageLog hs w c x vs) := by
  induction vs generalizing s x with
  | nil => exact refl s
  | cons v vs ih => exact (ih ..).after (stageBlk ..)

theorem advanceLog (n : Nat) (x : Stream) (p : Nat) : KeepsInv s (s.advanceLog n x p) := by
  unfold State.advanceLog
  exact .opt
    (fun _ =>
      (.after
        (.foldl
          (fun _ _ => (.ite (.refl _) ((jnZone ..).after ((zseq ..).after ((progZone ..).after ((putZx ..).after (wr ..))))))))
        (putStream ..)))
    (.refl _)

theorem notice (x : Stream) (num st : Nat) : KeepsInv s (s.notice x num st) := by
  unfold State.notice
  exact .ite (.opt (fun _ => (.ite (.refl _) (sendQp ..))) (.refl _)) (.refl _)

theorem dropFrame (n key : Nat) : KeepsInv s (s.dropFrame n key) := by
  unfold State.dropFrame
  exact .opt
    (fun _ =>
      (.opt
        (fun _ =>
          (.after
            (.ite
              (putStream ..)
              (.after
                (.ite
                  (putStream ..)
                  (.after
                    (.opt (fun _ => (.ite ((openSet ..).after (leaveSet ..)) (.refl _))) (.refl _))
                    ((jn ..).after ((advanceLog ..).after (putStream ..)))))
                (.ite (draw ..) (.refl _))))
            ((notice ..).after (upd rfl))))
        (.refl _)))
    (.refl _)

theorem closePart (n key : Nat) (early : Bool) : KeepsInv s (s.closePart n key early) := by
  unfold State.closePart
  exact .opt
    (fun _ =>
      (.opt
        (fun _ => (.ite (.refl _) (.ite (putStream ..) (.ite ((dropFrame ..).after (putStream ..)) (putStream ..)))))
        (.refl _)))
    (.refl _)

theorem dropMsg (n : Nat) : KeepsInv s (s.dropMsg n) := by
  unfold State.dropMsg
  exact .opt (fun _ => (.ite (.refl _) (putStream ..))) (.refl _)

theorem closeAll (n : Nat) : KeepsInv s (s.closeAll n) := by
  unfold State.closeAll
  exact .opt (fun _ => (.foldl (fun _ _ => (closePart ..)))) (.refl _)

theorem countOut (f : Frame) (lens : List Nat) : KeepsInv s (s.countOut f lens) := by
  unfold State.countOut
  exact .foldl (fun _ _ => (addw ..))

theorem commitFrame (n : Nat) : KeepsInv s (s.commitFrame n) := by
  unfold State.commitFrame
  split
  · exact .refl _
  · split
    · exact .refl _
    · split
      · dsimp only
        split
        · exact .refl _
        · split
          · exact fst (.ite (keyReq ..) (.pair (.refl _)))
          · exact (setStream ..).after ((dropFrame ..).after (fst (.ite (keyReq ..) (.pair (.refl _)))))
          · exact (place ..).after
              ((notice ..).after
                ((advanceLog ..).after
                  ((putStream ..).after
                    ((stageLog ..).after
                      ((countOut ..).after
                        (.after (upd rfl) (.after (upd rfl) (fst (.ite (keyReq ..) (.pair (.refl _)))))))))))
      · exact .refl _

theorem commitAll (n fuel : Nat) : KeepsInv s (s.commitAll n fuel) := by
  induction fuel generalizing s with
  | zero => exact refl s
  | succ fuel ih => exact (ih _).after (commitFrame ..)

theorem writeIdx (n : Nat) : KeepsInv s (s.writeIdx n) := by
  unfold State.writeIdx
  exact .opt
    (fun _ =>
      (.opt
        (fun _ =>
          (.ite
            (.refl _)
            (.after
              (.ite ((openIdx ..).after ((putStream ..).after ((holdBy ..).after (becomeFull ..)))) (.refl _))
              ((putStream ..).after
                ((jnZone ..).after ((zseq ..).after ((progZone ..).after ((wr ..).after (stageBlk ..)))))))))
        (.refl _)))
    (.refl _)

theorem writeAllIdx (n : Nat) : KeepsInv s (s.writeAllIdx n) := by
  unfold State.writeAllIdx
  exact .foldl (fun _ _ => (writeIdx ..))

/-! ### Stop (05 R114) -/

theorem stopEnd (k : Nat) : KeepsInv s (s.stopEnd k) := by
  unfold State.stopEnd
  exact .opt
    (fun _ =>
      (.opt
        (fun _ => (.ite (.refl _) ((adm ..).after ((putStream ..).after (.foldl (fun _ _ => (.ite (setZst ..) (.refl _))))))))
        (.refl _)))
    (.refl _)

theorem goOn (k : Nat) : KeepsInv s (s.goOn k) := by
  unfold State.goOn
  exact (stopEnd ..).after
    (.after
      (.opt (fun _ => (.ite (.foldl (fun _ _ => (dropFrame ..))) (.refl _))) (.refl _))
      ((commitAll ..).after (place ..)))

/-! ### What other events do to streams -/

theorem capDrop (ok : Stream → Bool) : KeepsInv s (s.capDrop ok) := by
  unfold State.capDrop
  exact .foldl (fun _ _ => (.after (.foldl (fun _ _ => (dropFrame ..))) (dropMsg ..)))

theorem stopsGone : KeepsInv s s.stopsGone := by
  unfold State.stopsGone
  exact upd rfl

theorem keepRecs : KeepsInv s s.keepRecs := by
  unfold State.keepRecs
  exact .foldl (fun _ _ => (writeAllIdx ..))

theorem unblock (n : Nat) : KeepsInv s (s.unblock n) := by
  unfold State.unblock
  exact .opt
    (fun _ =>
      (.ite
        (.refl _)
        (.ite
          (.refl _)
          (.opt
            (fun _ =>
              (.opt
                (fun _ =>
                  (.ite
                    ((place ..).after
                      (.after
                        (.opt (fun _ => (.ite ((setStream ..).after (putStream ..)) (putStream ..))) (putStream ..))
                        (.after (.ite (openIdx ..) (.refl _)) (.ite (.refl _) (openSet ..)))))
                    (.refl _)))
                (.refl _)))
            (.refl _)))))
    (.refl _)

theorem useQp (n : Nat) : KeepsInv s (s.useQp n) := by
  unfold State.useQp
  exact addw ..

theorem removeQueue (i : Nat) : KeepsInv s (s.removeQueue i) := by
  unfold State.removeQueue
  exact .opt
    (fun _ =>
      ((dec ..).after
        (.after (upd rfl) ((filterOps ..).after (.after (upd rfl) (.foldl (fun _ _ => ((zseq ..).after (dec ..)))))))))
    (.refl _)

theorem dropCqs (qs : List Queue) : KeepsInv s (s.dropCqs qs) := by
  unfold State.dropCqs
  exact upd rfl

theorem dropCmds (ok : Nat → Bool) : KeepsInv s (s.dropCmds ok) := by
  unfold State.dropCmds
  exact .after (upd rfl) (.after (upd rfl) ((filterOps ..).after (.foldl (fun _ _ => ((zseq ..).after (dec ..))))))

theorem emptyQueue (i : Nat) : KeepsInv s (s.emptyQueue i) := by
  unfold State.emptyQueue
  exact .opt (fun _ => (.after (upd rfl) (putQ ..))) (.refl _)

theorem queueReset (i : Nat) : KeepsInv₁ s (s.queueReset i) := by
  unfold State.queueReset
  exact .opt
    (fun _ => (.after (.ite (.pair (.refl _)) (.ite (.pair (upd rfl)) (.pair (emptyQueue ..)))) (dropCmds ..)))
    (.pair (.refl _))

theorem queueResets (is : List Nat) : KeepsInv s (s.queueResets is) := by
  unfold State.queueResets
  exact .foldl (fun _ _ => (queueReset ..))

theorem putFn (n : Nat) (f : FnSt) : KeepsInv s (s.putFn n f) := by
  unfold State.putFn
  exact upd rfl

theorem adminQueue (n i : Nat) (b : FBind) : KeepsInv s (s.adminQueue n i b) := by
  unfold State.adminQueue
  exact (useQp ..).after ((putQ ..).after (upd rfl))

theorem tryReady (n : Nat) : KeepsInv s (s.tryReady n) := by
  unfold State.tryReady
  split
  · exact .refl _
  refine .ite (.refl _) ?_
  split
  · exact .refl _
  refine .after (.ite (.refl _) ?_) (putFn ..)
  split
  · exact adminQueue ..
  · exact .refl _

/-! ### Queue pairs and associations -/

theorem putQp (n : Nat) (x : Qp) : KeepsInv s (s.putQp n x) := by
  unfold State.putQp
  exact upd rfl

theorem qpError (n : Nat) : KeepsInv s (s.qpError n) := by
  unfold State.qpError
  exact .opt
    (fun _ =>
      (.ite
        (.refl _)
        (.after
          (.opt (fun _ => (dropMsg ..)) (.refl _))
          (.after (.opt (fun _ => (queueReset ..)) (.refl _)) (.after (upd rfl) (putQp ..))))))
    (.refl _)

theorem dropQp (n : Nat) : KeepsInv s (s.dropQp n) := by
  unfold State.dropQp
  exact .opt (fun _ => (.after (.opt (fun _ => (dec ..)) (.refl _)) (upd rfl))) (.refl _)

theorem endAssoc (a : Nat) : KeepsInv s (s.endAssoc a) := by
  unfold State.endAssoc
  exact .after
    (upd rfl)
    ((dropCtl ..).after
      (.after (.foldl (fun _ _ => ((removeQueue ..).after (queueReset ..)))) (.foldl (fun _ _ => (qpError ..)))))

theorem qpErrSlice (n : Nat) : KeepsInv s (s.qpErrSlice n) := by
  unfold State.qpErrSlice
  exact .foldl (fun _ _ => (qpError ..))

theorem qpTimeout (n : Nat) : KeepsInv s (s.qpTimeout n) := by
  unfold State.qpTimeout
  exact .opt (fun _ => (.ite (.refl _) (.ite (qpError ..) ((sendQp ..).after (putQp ..))))) (.refl _)

/-! ### Sub-ports -/

theorem putSub (p u : Nat) (x : SubX) : KeepsInv s (s.putSub p u x) := by
  unfold State.putSub
  exact upd rfl

theorem setLink (p u v : Nat) : KeepsInv s (s.setLink p u v) := by
  unfold State.setLink
  exact .after (.ite ((edge ..).after (raise ..)) (.refl _)) (.after (.ite (wr ..) (wr ..)) (wr ..))

theorem sendPfc (p u quanta : Nat) : KeepsInv s (s.sendPfc p u quanta) := by
  unfold State.sendPfc
  exact (send ..).after (wr ..)

/-! ### Frames for the controller -/

theorem flushTx (p u : Nat) : KeepsInv s (s.flushTx p u) := by
  unfold State.flushTx
  exact .after (.foldl (fun _ _ => (sendOn ..))) (upd rfl)

theorem dropRx (p u cause : Nat) : KeepsInv s (s.dropRx p u cause) := by
  unfold State.dropRx
  split
  · exact inc ..
  · exact inc ..
  · exact inc ..
  · exact inc ..
  · exact inc ..
  · exact inc ..

theorem rxOk (p u dst ip vlan bytes : Nat) (arp : Bool) : KeepsInv₁ s (s.rxOk p u dst ip vlan bytes arp) := by
  unfold State.rxOk
  exact .ite
    (.pair (dropRx ..))
    (.ite (.pair (dropRx ..)) (.ite (.pair (.refl _)) (.ite (.pair (inc ..)) (.ite (.pair (.refl _)) (.pair (dropRx ..))))))

theorem onQp {s : State} {n : Nat} {f : Qp → State → State} (h : ∀ x0 m, KeepsInv m (f x0 m)) : KeepsInv s (s.onQp n f) := by
  unfold State.onQp
  exact .opt (fun _ => (.ite (dropRx ..) (.ite (.refl _) (h _ _)))) (.refl _)

theorem clrZone (h : Nat) : KeepsInv s (s.clrZone h) := by
  unfold State.clrZone
  exact .after (upd rfl) (.foldl (fun _ _ => (wr ..)))

theorem endNsCmds (nsid : Nat) (st : Nat × Nat) : KeepsInv s (s.endNsCmds nsid st) := by
  unfold State.endNsCmds
  exact .foldl (fun _ _ => (.ite (failHeld ..) (fin ..)))

theorem unmapAll (nsid : Nat) (n : Ns) : KeepsInv s (s.unmapAll nsid n) := by
  unfold State.unmapAll
  exact (limits ..).after
    ((invRange ..).after
      (.after (upd rfl) (.after (.foldl (fun _ _ => (.ite ((dec ..).after (invalidate ..)) (.refl _)))) (jn ..))))

theorem emptyNs (nsid : Nat) : KeepsInv s (s.emptyNs nsid) := by
  unfold State.emptyNs
  exact .opt (fun _ => (.ite (.foldl (fun _ _ => ((holdBy ..).after ((wr ..).after (zoneReset ..))))) (unmapAll ..))) (.refl _)

theorem releaseNs (nsid : Nat) : KeepsInv s (s.releaseNs nsid) := by
  unfold State.releaseNs
  exact .opt
    (fun _ =>
      ((wr ..).after
        ((dec ..).after
          (.after
            (upd rfl)
            (.after
              (upd rfl)
              (.after
                (upd rfl)
                (.after (.ite (.foldl (fun _ _ => (clrZone ..))) (.refl _)) ((emptyNs ..).after (endNsCmds ..)))))))))
    (.refl _)

/-! ### The slice descriptor (02 R41) -/

theorem setLimits (n : Nat) (v : List Nat) : KeepsInv s (s.setLimits n v) := by
  unfold State.setLimits
  exact (limits ..).after
    ((putSx ..).after
      ((wr ..).after ((wr ..).after ((wr ..).after ((wr ..).after ((wr ..).after ((wr ..).after ((wr ..).after (wr ..)))))))))

theorem setRates (n w i e : Nat) : KeepsInv s (s.setRates n w i e) := by
  unfold State.setRates
  exact (wr ..).after ((wr ..).after (wr ..))

/-! ### Meanings -/

theorem create (o : Org) (cid n : Nat) (desc : List Nat) : KeepsInv s (s.create o cid n desc) := by
  unfold State.create
  exact .opt
    (fun _ => (adm ..))
    (.ite
      (upd rfl)
      ((adm ..).after
        ((wr ..).after
          ((wr ..).after
            ((setLimits ..).after
              ((setRates ..).after ((wr ..).after ((wr ..).after ((putSx ..).after (.ite (addw ..) (.refl _)))))))))))

theorem tryCreate (o : Org) (cid n : Nat) (desc : List Nat) : KeepsInv s (s.tryCreate o cid n desc) := by
  unfold State.tryCreate
  exact .opt (fun _ => (adm ..)) (create ..)

theorem execSliceCreate (o : Org) (cid act n : Nat) (desc : List Nat) : KeepsInv.Outc s (execSliceCreate o cid act n desc s) := by
  unfold Machine.execSliceCreate
  exact .next (.ite (.refl _) (admin (fun _ => (.ite (.refl _) (.ite (adm ..) (tryCreate ..))))))

theorem execSliceResize (o : Org) (cid n : Nat) (desc : List Nat) : KeepsInv.Outc s (execSliceResize o cid n desc s) := by
  unfold Machine.execSliceResize
  exact .next
    (admin
      (fun _ =>
        (.ite
          (.refl _)
          (.opt
            (fun _ => (adm ..))
            (.opt (fun _ => (adm ..)) ((adm ..).after ((promote ..).after ((setLimits ..).after (putSx ..)))))))))

/-! ### Resets and deletes that wait -/

theorem endDelete (n : Nat) : KeepsInv s (s.endDelete n) := by
  unfold State.endDelete
  exact (wr ..).after
    ((wr ..).after
      ((putSx ..).after
        ((wr ..).after ((setLimits ..).after ((setRates ..).after (.after (upd rfl) (.foldl (fun _ _ => (releaseNs ..)))))))))

theorem dropUnbound (n : Nat) : KeepsInv s (s.dropUnbound n) := by
  unfold State.dropUnbound
  exact (dropCqs ..).after (.after (.foldl (fun _ _ => (removeQueue ..))) (.foldl (fun _ _ => (endAssoc ..))))

theorem endReset (n : Nat) : KeepsInv s (s.endReset n) := by
  unfold State.endReset
  exact .after
    (.opt (fun _ => ((fence ..).after ((wr ..).after (wr ..)))) ((limits ..).after ((wr ..).after (wr ..))))
    ((putSx ..).after
      ((dropUnbound ..).after
        (.after
          (.foldl (fun _ _ => (emptyQueue ..)))
          (.after (.foldl (fun _ _ => (stopEnd ..))) ((capDrop ..).after (wr ..))))))

theorem resumeResets : KeepsInv s s.resumeResets := by
  unfold State.resumeResets
  exact .foldl
    (fun _ _ =>
      (.ite (.after (.opt (fun _ => (adm ..)) (.refl _)) (.after (.ite (endReset ..) (emptyQueue ..)) (upd rfl))) (.refl _)))

theorem resumeCreates : KeepsInv s s.resumeCreates := by
  unfold State.resumeCreates
  exact .after (.foldl (fun _ _ => (tryCreate ..))) (upd rfl)

theorem endErase (e : Erase) : KeepsInv s (s.endErase e) := by
  unfold State.endErase
  refine (adm ..).after ?_
  split
  · exact .foldl (fun _ _ => releaseNs ..)
  · exact .after (upd rfl) (.foldl (fun _ _ => emptyNs ..))
  · exact .foldl (fun _ _ => emptyNs ..)

theorem resumeErases : KeepsInv s s.resumeErases := by
  unfold State.resumeErases
  exact .foldl (fun _ _ => (.ite (.refl _) ((endErase ..).after (upd rfl))))

theorem beginErase (e : Erase) : KeepsInv s (s.beginErase e) := by
  unfold State.beginErase
  exact (resumeErases ..).after (.after (upd rfl) (.foldl (fun _ _ => (advance ..))))

theorem resumeDels : KeepsInv s s.resumeDels := by
  unfold State.resumeDels
  exact .after (.foldl (fun _ _ => (.ite (.refl _) ((adm ..).after ((endDelete ..).after (upd rfl)))))) (resumeErases ..)

theorem resumeKeys : KeepsInv s s.resumeKeys := by
  unfold State.resumeKeys
  exact .foldl (fun _ _ => (rerun ..))

theorem resumeAll : KeepsInv s s.resumeAll := by
  unfold State.resumeAll
  exact (resumeKeys ..).after ((resumeDels ..).after ((resumeCreates ..).after ((resumeResets ..).after (freeDoomed ..))))

theorem execSliceDelete (o : Org) (cid n : Nat) : KeepsInv.Outc s (execSliceDelete o cid n s) := by
  unfold Machine.execSliceDelete
  exact .next
    (.ite
      (.refl _)
      (admin
        (fun _ =>
          (.ite
            (.refl _)
            (.opt
              (fun _ => (adm ..))
              ((resumeDels ..).after
                (.after
                  (upd rfl)
                  (.after
                    (.foldl (fun _ _ => (advance ..)))
                    ((filterOps ..).after
                      ((dropCqs ..).after
                        (.after
                          (.foldl (fun _ _ => (removeQueue ..)))
                          (.after
                            (.foldl (fun _ _ => (dropQp ..)))
                            (.after
                              (.foldl (fun _ _ => (endAssoc ..)))
                              (.after
                                (.foldl (fun _ _ => (.after (upd rfl) (.opt (fun _ => (adm ..)) (.refl _)))))
                                ((endCmds ..).after ((limits ..).after (wr ..)))))))))))))))))

theorem execSliceReset (o : Org) (cid n : Nat) : KeepsInv.Outc s (execSliceReset o cid n s) := by
  unfold Machine.execSliceReset
  exact .next
    (admin
      (fun _ =>
        (.ite
          (.refl _)
          (.opt
            (fun _ => (adm ..))
            (.after
              (.ite (upd rfl) ((adm ..).after (endReset ..)))
              ((dropCmds ..).after ((qpErrSlice ..).after ((limits ..).after (wr ..)))))))))

theorem execSliceFence (o : Org) (cid n : Nat) : KeepsInv.Outc s (execSliceFence o cid n s) := by
  unfold Machine.execSliceFence
  exact .next (admin (fun _ => (.ite (.refl _) (.opt (fun _ => (adm ..)) ((adm ..).after (fence ..))))))

theorem execQueueReset (o : Org) (cid n i rsv : Nat) : KeepsInv.Outc s (execQueueReset o cid n i rsv s) := by
  unfold Machine.execQueueReset
  exact .next
    (admin
      (fun _ =>
        (.ite
          (.refl _)
          (.opt
            (fun _ => (adm ..))
            (.ite
              (adm ..)
              (.opt
                (fun _ => (.ite (adm ..) (.ite ((adm ..).after (queueReset ..)) (.after (upd rfl) (queueReset ..)))))
                (adm ..)))))))

theorem execSliceBind (o : Org) (cid n idx kind func : Nat) (pasid : Option Nat) (host sub : Nat) (ents : List XltWant) :
    KeepsInv.Outc s (execSliceBind o cid n idx kind func pasid host sub ents s) := by
  unfold Machine.execSliceBind
  exact .next
    (admin
      (fun _ =>
        (.ite
          (.refl _)
          (.opt
            (fun _ => (adm ..))
            (.ite
              (.ite ((adm ..).after ((tryReady ..).after (upd rfl))) (adm ..))
              (.ite ((adm ..).after (upd rfl)) (adm ..)))))))

theorem execSliceUnbind (o : Org) (cid n idx kind : Nat) : KeepsInv.Outc s (execSliceUnbind o cid n idx kind s) := by
  unfold Machine.execSliceUnbind
  exact .next
    (admin
      (fun _ =>
        (.ite
          (.refl _)
          (.opt
            (fun _ => (adm ..))
            (.ite (.ite ((adm ..).after (upd rfl)) (adm ..)) (.ite ((adm ..).after (upd rfl)) (adm ..)))))))

/-! ### Shared pieces -/

theorem beginZone (q cid : Nat) (k : CmdKind) (nsid lba len : Nat) (lr : Bool) (hint : Nat) :
    OfBeg s (s.beginZone q cid k nsid lba len lr hint) := by
  have h := beginCmd s q cid k nsid lba len lr false hint
  unfold State.beginZone
  generalize s.begin q cid k nsid lba len lr false hint = b at *
  cases h with
  | stop h => exact .stop h
  | go h =>
    dsimp only
    split
    · exact .go h
    · exact .stop ((fin ..).after h)

theorem placeWrite (c : Cmd) (n : Ns) : KeepsInv s (s.placeWrite c n) := by
  unfold State.placeWrite
  dsimp only
  split
  · exact fin ..
  · split
    · exact failWrite ..
    · exact .ite ((fin ..).after (inc ..)) ((zseq ..).after ((addw ..).after (putCmd ..)))
    · exact putCmd ..

theorem commit (c : Cmd) (n : Ns) : KeepsInv s (s.commit c n) := by
  unfold State.commit
  split
  · dsimp only
    split
    · exact fin ..
    · split
      · exact failWrite ..
      · exact fin ..
      · exact .ite (.optMem (fun _ h0 => ((commitZone ..).after ((activate ..).get h0))) (putCmd ..)) (commitZone ..)
  · exact .optMem
      (fun _ h1 =>
        (.after
          (.ite ((finFlush ..).after ((forceFlush ..).after (putCmd ..))) (fin ..))
          ((limits ..).after ((commitConv ..).get h1))))
      (putCmd ..)

theorem putReads (n : Nat) (x : Qp) (l : List (Nat × Nat)) : KeepsInv s (s.putReads n x l) := by
  unfold State.putReads
  exact .after (.foldl (fun _ _ => (sendQp ..))) (upd rfl)

theorem wantRead (n : Nat) (new : List (Nat × Nat)) : KeepsInv s (s.wantRead n new) := by
  unfold State.wantRead
  exact .opt (fun _ => (putReads ..)) (.refl _)

theorem admitCmd (c : Cmd) (q : Queue) (n : Ns) (addr : Nat) (data : List Nat) : KeepsInv s (s.admitCmd c q n addr data) := by
  unfold State.admitCmd
  dsimp only
  split
  · exact .refl _
  · split
    · exact failWrite ..
    · split
      · exact (failWrite ..).after (blockKey ..)
      · exact blockKey ..
      · exact .ite
          ((dmaEnd (fun _ => (failWrite ..))).after ((dma ..).after (blockKey ..)))
          (.after
            (.ite (wantRead ..) (.refl _))
            ((putCmd ..).after
              ((foldTake ..).after ((spillNote ..).after ((deduct ..).after ((dma ..).after (blockKey ..)))))))

theorem admitZeroes (c : Cmd) (n : Ns) : KeepsInv s (s.admitZeroes c n) := by
  unfold State.admitZeroes
  split
  · exact .refl _
  · dsimp only
    split
    · exact (failWrite ..).after (blockKey ..)
    · exact blockKey ..
    · exact (putCmd ..).after (blockKey ..)

theorem openZone (c : Cmd) (n : Ns) : KeepsInv s (s.openZone c n) := by
  unfold State.openZone
  exact .ite
    (.ite
      (fin ..)
      (.ite
        (fin ..)
        (.ite (fin ..) (.optMem (fun _ h0 => ((fin ..).after ((setZst ..).after ((activate ..).get h0)))) (putCmd ..)))))
    (.ite ((fin ..).after (.ite (.refl _) (setZst ..))) (fin ..))

theorem closeZone (h : Nat) : KeepsInv s (s.closeZone h) := by
  unfold State.closeZone
  exact .ite (setZst ..) ((setZst ..).after (unbind ..))

theorem finishZone (h : Nat) : KeepsInv s (s.finishZone h) := by
  unfold State.finishZone
  exact .ite (.refl _) (becomeFull ..)

theorem offlineZone (h : Nat) : KeepsInv s (s.offlineZone h) := by
  unfold State.offlineZone
  exact .ite (.refl _) ((setZst ..).after ((wipeZone ..).after ((unbind ..).after (failHolds ..))))

theorem zoneSend {q cid nsid zslba : Nat} {sel lr : Bool} {one all : List Nat} {chk : State → Cmd → Option (Nat × Nat)}
    {f : State → Nat → State} {s : State} (h : ∀ m x, KeepsInv m (f m x)) : KeepsInv s (s.zoneSend q cid nsid zslba sel lr one all chk f) :=
  .beg (fun _ => .refl _)
    (fun _ _ _ _ => .ite ((fin ..).after (.foldl h)) (.ite (fin ..) (.ite (fin ..) (.ite (fin ..) (.opt (fun _ => fin ..) ((fin ..).after (h ..)))))))
    (beginZone ..)

/-! ### Meanings -/

theorem readCmd (q cid nsid lba len : Nat) (lr : Bool) (addr : Nat) : KeepsInv s (s.readCmd q cid nsid lba len lr addr) :=
  .ite (.refl _) (.beg (fun _ => .refl _)
    (fun _ _ _ _ => .after (.ite (runRead ..) (dmaEnd (fun _ => fin ..))) (dma ..)) (beginCmd ..))

theorem execWrite (q cid nsid lba len : Nat) (lr fua : Bool) : KeepsInv.Outc s (execWrite q cid nsid lba len lr fua s) :=
  .next (.beg (fun _ => .refl _) (fun _ _ _ _ => .ite (placeWrite ..) (putCmd ..)) (beginCmd ..))

theorem execZoneAppend (q cid nsid zslba len : Nat) (lr : Bool) : KeepsInv.Outc s (execZoneAppend q cid nsid zslba len lr s) := by
  refine .next (.beg (fun _ => .refl _) (fun t c _ _ => .ite (fin ..) (.ite (fin ..) ?_)) (beginZone ..))
  split
  · exact fin ..
  · exact putCmd ..

theorem execWriteZeroes (q cid nsid lba len : Nat) (lr : Bool) : KeepsInv.Outc s (execWriteZeroes q cid nsid lba len lr s) := by
  refine .next (.beg (fun _ => .refl _) (fun t c _ n => .ite (.ite (fin ..) ?_)
    (.ite (fin ..) ((fin ..).after ((limits ..).after (.after (.foldl (fun _ _ => mapSet ..)) (jn ..)))))) (beginCmd ..))
  split
  · exact failWrite ..
  · exact fin ..
  · exact (admitZeroes ..).after (putCmd ..)

theorem execDeallocate (q cid nsid : Nat) (ranges : List (Nat × Nat)) : KeepsInv.Outc s (execDeallocate q cid nsid ranges s) :=
  .next (.beg (fun _ => .refl _) (fun _ _ _ _ => .ite (fin ..) (.ite (fin ..) ((fin ..).after ((limits ..).after
    (.foldl (fun _ _ => .after (.foldl (fun _ _ => mapSet ..)) (jn ..))))))) (beginCmd ..))

theorem execFlush (q cid nsid : Nat) : KeepsInv.Outc s (execFlush q cid nsid s) :=
  .next (.beg (fun _ => .refl _) (fun _ _ _ _ => .ite (fin ..) ((finFlush ..).after ((forceFlush ..).after (putCmd ..)))) (beginCmd ..))

theorem execZoneOpen (q cid nsid zslba : Nat) (sel lr : Bool) (hint : Nat) : KeepsInv.Outc s (execZoneOpen q cid nsid zslba sel lr hint s) :=
  .next (.beg (fun _ => .refl _) (fun _ _ _ _ => .ite ((fin ..).after (.foldl (fun _ _ => setZst ..)))
    (.ite (fin ..) (.ite (fin ..) (openZone ..)))) (beginZone ..))

theorem execZoneClose (q cid nsid zslba : Nat) (sel lr : Bool) : KeepsInv.Outc s (execZoneClose q cid nsid zslba sel lr s) := by
  unfold Machine.execZoneClose
  exact .next (zoneSend (fun _ _ => (.ite (.refl _) (closeZone ..))))

theorem execZoneFinish (q cid nsid zslba : Nat) (sel lr : Bool) : KeepsInv.Outc s (execZoneFinish q cid nsid zslba sel lr s) := by
  unfold Machine.execZoneFinish
  exact .next (zoneSend (fun _ _ => (finishZone ..)))

theorem execZoneReset (q cid nsid zslba : Nat) (sel lr : Bool) : KeepsInv.Outc s (execZoneReset q cid nsid zslba sel lr s) := by
  unfold Machine.execZoneReset
  exact .next (zoneSend (fun _ _ => (zoneReset ..)))

theorem execZoneOffline (q cid nsid zslba : Nat) (sel lr : Bool) : KeepsInv.Outc s (execZoneOffline q cid nsid zslba sel lr s) := by
  unfold Machine.execZoneOffline
  exact .next (zoneSend (fun _ _ => (offlineZone ..)))

theorem execReportZones (q cid nsid slba opt : Nat) (part : Bool) (max addr : Nat) :
    KeepsInv.Outc s (execReportZones q cid nsid slba opt part max addr s) :=
  .next (.beg (fun _ => .refl _) (fun _ _ _ _ => .ite (fin ..) (.after (.ite (dmaEnd (fun _ => fin ..)) (fin ..)) (dma ..))) (beginZone ..))

theorem execExtendedReportZones (q cid nsid slba : Nat) : KeepsInv.Outc s (execExtendedReportZones q cid nsid slba s) :=
  .next (.beg (fun _ => .refl _) (fun _ _ _ _ => fin ..) (beginZone ..))

theorem withCmd {q cid : Nat} {ok : Cmd → Bool} {f : Cmd → Queue → Ns → State} {s t : State} (ht : KeepsInv s t)
    (h : ∀ c x n, KeepsInv s (f c x n)) : KeepsInv s (t.withCmd q cid ok f) := by
  unfold State.withCmd
  split
  · exact ht
  split
  · exact .ite (h ..) ht
  · exact ht

theorem ghost (q cid : Nat) (last : Bool) : KeepsInv s (s.ghost q cid last) := by
  unfold State.ghost
  split
  · exact (stale ..).after (.ite (upd rfl) (.refl _))
  · exact .refl _

theorem execWriteAdmit (q cid addr : Nat) (data : List Nat) : KeepsInv.Outc s (execWriteAdmit q cid addr data s) :=
  .next (withCmd (.refl _) (fun _ _ _ => .ite (admitZeroes ..) (admitCmd ..)))

theorem execRdmaReadResponse (q cid : Nat) (data : List Nat) : KeepsInv.Outc s (execRdmaReadResponse q cid data s) :=
  .next (withCmd (ghost ..) (fun _ _ _ => .ite ((wantRead ..).after (putCmd ..)) (.refl _)))

theorem commitCmd (q cid : Nat) (bad : Bool) : KeepsInv s (s.commitCmd q cid bad) := by
  unfold State.commitCmd
  exact withCmd (ghost ..) (fun _ _ _ => .ite (failWrite ..) (commit ..))

theorem execZoneHoldTimeout (q cid : Nat) : KeepsInv.Outc s (execZoneHoldTimeout q cid s) :=
  .next (withCmd (.refl _) (fun _ _ _ => failHeld ..))

theorem execDeadlineMiss (q cid : Nat) : KeepsInv.Outc s (execDeadlineMiss q cid s) := by
  unfold Machine.execDeadlineMiss
  exact .next (.opt (fun _ => (.ite (.refl _) (.ite (failHeld ..) (.opt (fun _ => (failWrite ..)) (fin ..))))) (.refl _))

theorem execPlacementRetry (q cid : Nat) : KeepsInv.Outc s (execPlacementRetry q cid s) :=
  .next (withCmd (.refl _) (fun _ _ _ => .ite (openZone ..) (.ite (commit ..) (.refl _))))

theorem execUnreachWaitExpiry (q cid : Nat) : KeepsInv.Outc s (execUnreachWaitExpiry q cid s) := by
  unfold Machine.execUnreachWaitExpiry
  exact .next (.opt (fun _ => (.ite ((fin ..).after (inc ..)) (.refl _))) (.refl _))

theorem execCreateIoCompletionQueue (o : Org) (cid cqid qsize vec : Nat) :
    KeepsInv.Outc s (execCreateIoCompletionQueue o cid cqid qsize vec s) := by
  unfold Machine.execCreateIoCompletionQueue
  exact .next
    (admin (fun _ => (.opt (fun _ => (.ite (adm ..) (.ite (adm ..) (.ite (adm ..) ((adm ..).after (upd rfl)))))) (adm ..))))

theorem execCreateIoSubmissionQueue (o : Org) (cid qid qsize cqid bind lc : Nat) (ff : Bool) (base : Nat) :
    KeepsInv.Outc s (execCreateIoSubmissionQueue o cid qid qsize cqid bind lc ff base s) := by
  refine .next (admin (fun s => ?_))
  split
  · exact adm ..
  refine .ite (adm ..) (.ite (adm ..) (.ite (adm ..) ?_))
  extract_lets bs
  split
  · exact adm ..
  refine .ite (adm ..) (.ite (adm ..) ?_)
  split
  · exact adm ..
  · exact (adm ..).after ((useQp ..).after (putQ ..))

theorem execDeleteIoCompletionQueue (o : Org) (cid cqid : Nat) : KeepsInv.Outc s (execDeleteIoCompletionQueue o cid cqid s) := by
  unfold Machine.execDeleteIoCompletionQueue
  exact .next (admin (fun _ => (.opt (fun _ => (.ite (adm ..) (.ite (adm ..) ((adm ..).after (upd rfl))))) (adm ..))))

theorem execDeleteIoSubmissionQueue (o : Org) (cid qid : Nat) : KeepsInv.Outc s (execDeleteIoSubmissionQueue o cid qid s) := by
  unfold Machine.execDeleteIoSubmissionQueue
  exact .next
    (admin
      (fun _ =>
        (.opt
          (fun _ =>
            (.opt
              (fun _ => ((adm ..).after ((removeQueue ..).after (.foldl (fun _ _ => (.ite (failHeld ..) (fin ..)))))))
              (adm ..)))
          (adm ..))))

theorem execSetFeaturesQueueClass (o : Org) (cid qid lc : Nat) (ff : Bool) : KeepsInv.Outc s (execSetFeaturesQueueClass o cid qid lc ff s) := by
  unfold Machine.execSetFeaturesQueueClass
  exact .next (admin (fun _ => (.opt (fun _ => (.ite (adm ..) ((adm ..).after (putQ ..)))) (adm ..))))

theorem execGetFeaturesQueueClass (o : Org) (cid qid : Nat) : KeepsInv.Outc s (execGetFeaturesQueueClass o cid qid s) := by
  unfold Machine.execGetFeaturesQueueClass
  exact .next (admin (fun _ => (.opt (fun _ => (.ite (adm ..) (adm ..))) (adm ..))))

theorem execSetFeaturesInterruptCoalescing (o : Org) (cid time thr : Nat) :
    KeepsInv.Outc s (execSetFeaturesInterruptCoalescing o cid time thr s) := by
  unfold Machine.execSetFeaturesInterruptCoalescing
  exact .next (admin (fun _ => (.opt (fun _ => ((adm ..).after (upd rfl))) (adm ..))))

theorem execSetFeaturesIntVectorConfig (o : Org) (cid vec : Nat) (cd : Bool) : KeepsInv.Outc s (execSetFeaturesIntVectorConfig o cid vec cd s) := by
  unfold Machine.execSetFeaturesIntVectorConfig
  exact .next (admin (fun _ => (.opt (fun _ => (.ite (adm ..) ((adm ..).after (putVec ..)))) (adm ..))))

theorem execAggregationTimeExpiry (func vec : Nat) : KeepsInv.Outc s (execAggregationTimeExpiry func vec s) := by
  unfold Machine.execAggregationTimeExpiry
  exact .next (.ite (.refl _) (.after (.ite (.refl _) (send ..)) (.after (.foldl (fun _ _ => (stale ..))) (putVec ..))))

theorem execAsyncEventRequest (o : Org) (cid : Nat) : KeepsInv.Outc s (execAsyncEventRequest o cid s) := by
  unfold Machine.execAsyncEventRequest
  exact .next (admin (fun _ => (.opt (fun _ => ((adm ..).after (upd rfl))) (upd rfl))))

/-! ### The ingest ceiling (01 R31) -/

theorem putLink8 (l : Nat) (x : Link) : KeepsInv s (s.putLink8 l x) := by
  unfold State.putLink8
  exact upd rfl

theorem ceiling (always : Bool) : KeepsInv s (s.ceiling always) := by
  unfold State.ceiling
  exact .after (.ite (raise ..) (.refl _)) ((wr ..).after ((wr ..).after ((wr ..).after ((wr ..).after (wr ..)))))

/-! ### The SMART log (20 R444) -/

theorem critCheck : KeepsInv s s.critCheck := by
  unfold State.critCheck
  exact .after (.foldl (fun _ _ => (.foldl (fun _ _ => (notify ..))))) (wr ..)

/-! ### Bytes of log pages -/

theorem evTake (es : List EvEnt) : KeepsInv s (s.evTake es) := by
  unfold State.evTake
  exact .after (upd rfl) (.foldl (fun _ _ => (.ite (.foldl (fun _ _ => (.ite (.refl _) (loseFor ..)))) (.refl _))))

theorem execGetLogPageEventQueue (o : Org) (cid off len : Nat) (rae : Bool) : KeepsInv.Outc s (execGetLogPageEventQueue o cid off len rae s) := by
  unfold Machine.execGetLogPageEventQueue
  exact .next (admin (fun _ => ((adm ..).after (.ite (.refl _) (.after (.ite (evTake ..) (putView ..)) (putView ..))))))

theorem execGetLogPageChangedZoneList (o : Org) (cid nsid : Nat) : KeepsInv.Outc s (execGetLogPageChangedZoneList o cid nsid s) := by
  unfold Machine.execGetLogPageChangedZoneList
  exact .next (admin (fun _ => ((adm ..).after (upd rfl))))

theorem execGetLogPageCalibrationSweep (o : Org) (cid off len : Nat) : KeepsInv.Outc s (execGetLogPageCalibrationSweep o cid off len s) := by
  unfold Machine.execGetLogPageCalibrationSweep
  exact .next (admin (fun _ => (adm ..)))

theorem execGetLogPageTemperatureSweep (o : Org) (cid off len : Nat) : KeepsInv.Outc s (execGetLogPageTemperatureSweep o cid off len s) := by
  unfold Machine.execGetLogPageTemperatureSweep
  exact .next (admin (fun _ => (adm ..)))

theorem recLog (o : Org) (cid off len : Nat) (page : State → List Nat) : KeepsInv s (s.recLog o cid off len page) := by
  unfold State.recLog
  exact admin (fun _ => (.ite (adm ..) (adm ..)))

theorem execGetLogPageRecorderLive (o : Org) (cid off len : Nat) : KeepsInv.Outc s (execGetLogPageRecorderLive o cid off len s) := by
  unfold Machine.execGetLogPageRecorderLive
  exact .next (recLog ..)

theorem execGetLogPageRecorderNand (o : Org) (cid lsp off len : Nat) : KeepsInv.Outc s (execGetLogPageRecorderNand o cid lsp off len s) := by
  unfold Machine.execGetLogPageRecorderNand
  exact .next (recLog ..)

theorem execGetLogPageRecorderNor (o : Org) (cid lsp off len : Nat) : KeepsInv.Outc s (execGetLogPageRecorderNor o cid lsp off len s) := by
  unfold Machine.execGetLogPageRecorderNor
  exact .next (recLog ..)

theorem execGetLogPageSmartHealth (o : Org) (cid : Nat) : KeepsInv.Outc s (execGetLogPageSmartHealth o cid s) := by
  unfold Machine.execGetLogPageSmartHealth
  exact .next (admin (fun _ => (adm ..)))

theorem execGetLogPageErrorInformation (o : Org) (cid n : Nat) : KeepsInv.Outc s (execGetLogPageErrorInformation o cid n s) := by
  unfold Machine.execGetLogPageErrorInformation
  exact .next (admin (fun _ => (adm ..)))

theorem redeliver : KeepsInv s s.redeliver := by
  unfold State.redeliver
  exact upd rfl

theorem timeStep (d : ℤ) : KeepsInv s (s.timeStep d) := by
  unfold State.timeStep
  exact (raise ..).after ((inc ..).after (.after (.foldl (fun _ _ => (wr ..))) (upd rfl)))

theorem setTime (t : Nat) : KeepsInv s (s.setTime t) := by
  unfold State.setTime
  exact (raise ..).after ((wr ..).after ((wr ..).after (timeStep ..)))

/-! ### Sweep records -/

theorem putSweep (k : Nat) (w : Sweep) : KeepsInv s (s.putSweep k w) := by
  unfold State.putSweep
  exact upd rfl

theorem sweepSts (k : Nat) : KeepsInv s (s.sweepSts k) := by
  unfold State.sweepSts
  exact .opt (fun _ => ((wr ..).after ((wr ..).after ((wr ..).after (wr ..))))) (.refl _)

theorem sweepMap (ok : Nat → Bool) (f : SwEnt → SwEnt) : KeepsInv s (s.sweepMap ok f) := by
  unfold State.sweepMap
  exact .foldl (fun _ _ => (.opt (fun _ => ((sweepSts ..).after (putSweep ..))) (.refl _)))

theorem sweepBreak (ok : Nat → Bool) : KeepsInv s (s.sweepBreak ok) := by
  unfold State.sweepBreak
  exact sweepMap ..

theorem sweepHeal (ok : Nat → Bool) : KeepsInv s (s.sweepHeal ok) := by
  unfold State.sweepHeal
  exact sweepMap ..

theorem sweepSkip (d : Nat) : KeepsInv s (s.sweepSkip d) := by
  unfold State.sweepSkip
  exact sweepMap ..

theorem sweepDrop : KeepsInv s s.sweepDrop := by
  unfold State.sweepDrop
  exact sweepMap ..

theorem cycle : KeepsInv s s.cycle := by
  unfold State.cycle
  exact .ite (.refl _) (.after (.ite (.refl _) (upd rfl)) ((wr ..).after (upd rfl)))

theorem execSetFeaturesTimestamp (o : Org) (cid ms waited : Nat) : KeepsInv.Outc s (execSetFeaturesTimestamp o cid ms waited s) := by
  unfold Machine.execSetFeaturesTimestamp
  exact .next (admin (fun _ => (.ite ((adm ..).after (setTime ..)) (adm ..))))

theorem execGetFeaturesTimestamp (o : Org) (cid : Nat) : KeepsInv.Outc s (execGetFeaturesTimestamp o cid s) := by
  unfold Machine.execGetFeaturesTimestamp
  exact .next (admin (fun _ => (adm ..)))

theorem ppsAccept (e : ℤ) : KeepsInv s (s.ppsAccept e) := by
  unfold State.ppsAccept
  exact .after
    (.ite (setTime ..) (.ite ((wr ..).after ((wr ..).after (upd rfl))) (timeStep ..)))
    (.after (.ite (raise ..) (.refl _)) ((wr ..).after ((inc ..).after ((wr ..).after (upd rfl)))))

theorem execPpsEdge : KeepsInv.Outc s (execPpsEdge s) := by
  unfold Machine.execPpsEdge
  exact .next
    (.ite
      (.refl _)
      (.after
        (.ite
          (.refl _)
          (.ite
            (raise ..)
            (.after (.ite (ppsAccept ..) (.ite (ppsAccept ..) ((raise ..).after ((inc ..).after (upd rfl))))) (wr ..))))
        (edge ..)))

theorem execHoldoverEnter : KeepsInv.Outc s (execHoldoverEnter s) := by
  unfold Machine.execHoldoverEnter
  exact .next (.opt (fun _ => (.ite ((raise ..).after ((wr ..).after ((wr ..).after (upd rfl)))) (.refl _))) (.refl _))

theorem timSetGo : KeepsInv s s.timSetGo := by
  unfold State.timSetGo
  exact .ite (wr ..) (setTime ..)

theorem execTimSetGo (sec : Nat) : KeepsInv.Outc s (execTimSetGo sec s) := by
  unfold Machine.execTimSetGo
  exact .next ((timSetGo ..).after (wr ..))

theorem execEventRaise (code slice arg : Nat) : KeepsInv.Outc s (execEventRaise code slice arg s) := by
  unfold Machine.execEventRaise
  exact .next (raise ..)

theorem evrClear : KeepsInv s s.evrClear := by
  unfold State.evrClear
  exact (wr ..).after ((wr ..).after (upd rfl))

theorem execEvrClear : KeepsInv.Outc s (execEvrClear s) := by
  unfold Machine.execEvrClear
  exact .next (evrClear ..)

theorem execEvrFlush : KeepsInv.Outc s (execEvrFlush s) := by
  unfold Machine.execEvrFlush
  exact .next (faultFlush ..)

/-! ### Addresses (15 R331, R332) -/

theorem parLog (mem addr : Nat) : KeepsInv s (s.parLog mem addr) := by
  unfold State.parLog
  exact .ite (.refl _) ((wr ..).after ((wr ..).after (wr ..)))

/-! ### ECC (15 R339, R340) -/

theorem eccLog (dpa : Nat) (ue dev poison : Bool) (sym : Nat) : KeepsInv s (s.eccLog dpa ue dev poison sym) := by
  unfold State.eccLog
  exact .ite (.refl _) ((wr ..).after ((wr ..).after ((wr ..).after ((wr ..).after ((wr ..).after (wr ..))))))

theorem dramCe (dpa sym : Nat) : KeepsInv s (s.dramCe dpa sym) := by
  unfold State.dramCe
  exact (correctable ..).after (.after (upd rfl) ((eccLog ..).after (inc ..)))

theorem dramUe (dpa : Nat) (dev : Bool) : KeepsInv s (s.dramUe dpa dev) := by
  unfold State.dramUe
  exact (raise ..).after ((eccLog ..).after ((inc ..).after (inc ..)))

theorem setPoison (b : Nat) : KeepsInv s (s.setPoison b) := by
  unfold State.setPoison
  exact upd rfl

theorem clrPoison (b : Nat) : KeepsInv s (s.clrPoison b) := by
  unfold State.clrPoison
  exact upd rfl

theorem lineUe (nsid page : Nat) : KeepsInv s (s.lineUe nsid page) := by
  unfold State.lineUe
  exact .after (.opt (fun _ => (.ite (.refl _) ((putLine ..).after (.ite (.refl _) (chargeFill ..))))) (.refl _)) (inc ..)

theorem regionUe (dpa region a b : Nat) : KeepsInv s (s.regionUe dpa region a b) := by
  unfold State.regionUe
  split
  · exact lineUe ..
  · exact .refl _
  · exact upd rfl
  · exact .refl _
  · exact setPoison ..
  · exact (parLog ..).after (setPoison ..)
  · exact clrPoison ..

/-! ### The CXL window (14 R321-R324; 06 R160; 15 R339) -/

theorem putBurst (b v : Nat) : KeepsInv s (s.putBurst b v) := by
  unfold State.putBurst
  exact upd rfl

theorem winWrite (dpa data mask err sym : Nat) : KeepsInv s (s.winWrite dpa data mask err sym) := by
  unfold State.winWrite
  exact .after
    (.ite (.refl _) (.after (.ite (.refl _) (upd rfl)) (upd rfl)))
    ((putBurst ..).after (.ite (clrPoison ..) (.ite ((setPoison ..).after (dramUe ..)) (.ite (dramCe ..) (.refl _)))))

theorem freeHeld (n : Nat) : KeepsInv s (State.freeHeld n s) := by
  induction n generalizing s with
  | zero => exact refl s
  | succ n ih =>
    unfold State.freeHeld
    split
    · exact refl s
    · exact .ite ((ih _).after ((send ..).after ((winWrite ..).after (upd rfl)))) (.refl _)

/-! ### Requests and their order (15 R333, R334) -/

theorem setDrain (ch : Nat) : KeepsInv s (s.setDrain ch) := by
  unfold State.setDrain
  exact upd rfl

theorem putDreqs (ch : Nat) (l : List DReq) : KeepsInv s (s.putDreqs ch l) := by
  unfold State.putDreqs
  exact (setDrain ..).after (upd rfl)

theorem rowUsed (r : DReq) : KeepsInv s (s.rowUsed r) := by
  unfold State.rowUsed
  exact upd rfl

theorem readCheck (dpa err sym : Nat) : KeepsInv₁ s (s.readCheck dpa err sym) := by
  unfold State.readCheck
  exact .ite (.pair (dramUe ..)) (.ite (.pair (dramCe ..)) (.pair (.refl _)))

theorem drcAct (r : DReq) : KeepsInv s (s.drcAct r) := by
  unfold State.drcAct
  split
  · exact .ite ((send ..).after ((setPoison ..).after (readCheck ..))) ((send ..).after (readCheck ..))
  · exact .ite (upd rfl) ((send ..).after (winWrite ..))
  · exact .ite ((regionUe ..).after (readCheck ..)) (readCheck ..)

theorem drcServe (ch : Nat) : KeepsInv s (s.drcServe ch) := by
  unfold State.drcServe
  exact .opt (fun _ => ((drcAct ..).after ((rowUsed ..).after (putDreqs ..)))) (.refl _)

theorem drcServeN (ch n : Nat) : KeepsInv s (State.drcServeN ch n s) := by
  induction n generalizing s with
  | zero => exact refl s
  | succ n ih => exact .ite (.refl _) ((ih _).after (drcServe ..))

theorem drcDrain : KeepsInv s s.drcDrain := by
  unfold State.drcDrain
  exact .foldl (fun _ _ => (drcServeN ..))

theorem drcRequest (port dpa : Nat) (act : DAct) (room : Nat) : KeepsInv s (s.drcRequest port dpa act room) := by
  unfold State.drcRequest
  exact (drcServeN ..).after (putDreqs ..)

/-! ### VDD_CORE (01 R19, 16 R362) -/

theorem setMv (mv : Nat) : KeepsInv s (s.setMv mv) := by
  unfold State.setMv
  exact .after (upd rfl) ((send ..).after (wr ..))

theorem raiseMv : KeepsInv s s.raiseMv := by
  unfold State.raiseMv
  exact setMv ..

/-! ### The sequence (06 R159) -/

theorem armed : KeepsInv s s.armed := by
  unfold State.armed
  exact .ite ((wr ..).after (wr ..)) (wr ..)

theorem norSummary : KeepsInv s s.norSummary := by
  unfold State.norSummary
  exact (draw ..).after ((inc ..).after (norWrite ..))

theorem phyOff (p u : Nat) : KeepsInv s (s.phyOff p u) := by
  unfold State.phyOff
  exact .ite (.refl _) (setLink ..)

theorem physOff : KeepsInv s s.physOff := by
  unfold State.physOff
  exact .after (.foldl (fun _ _ => (wr ..))) (.foldl (fun _ _ => (.foldl (fun _ _ => (phyOff ..)))))

theorem stopWork : KeepsInv s s.stopWork := by
  unfold State.stopWork
  exact .after
    (upd rfl)
    (.after
      (upd rfl)
      (.after (upd rfl) ((keepRecs ..).after ((stopsGone ..).after ((capDrop ..).after ((dropCmds ..).after (drcDrain ..)))))))

theorem pauseAll : KeepsInv s s.pauseAll := by
  unfold State.pauseAll
  exact .foldl (fun _ _ => (.foldl (fun _ _ => (.ite (sendPfc ..) (.refl _)))))

theorem startImage : KeepsInv s s.startImage := by
  unfold State.startImage
  exact upd rfl

theorem stopRecord : KeepsInv s s.stopRecord := by
  unfold State.stopRecord
  exact .after (upd rfl) (.after (upd rfl) (norSummary ..))

theorem stopMark : KeepsInv s s.stopMark := by
  unfold State.stopMark
  exact .after (upd rfl) (.ite (upd rfl) (.refl _))

theorem stopFlush : KeepsInv s s.stopFlush := by
  unfold State.stopFlush
  exact .ite
    (.refl _)
    (.after
      (.ite ((physOff ..).after ((setMv ..).after ((startImage ..).after ((stopWork ..).after (pauseAll ..))))) (.refl _))
      ((stopMark ..).after ((wr ..).after (stopRecord ..))))

theorem tripEnd : KeepsInv s s.tripEnd := by
  unfold State.tripEnd
  exact (setMv ..).after ((physOff ..).after (faultLow ..))

theorem flushDone (fails : List (Nat × Nat)) (links : List Nat) : KeepsInv s (s.flushDone fails links) := by
  unfold State.flushDone
  exact .ite
    (.refl _)
    (.after
      (.ite (tripEnd ..) (.refl _))
      (.after (.ite (upd rfl) (.refl _)) ((inc ..).after ((wr ..).after ((wr ..).after (wr ..))))))

theorem resume : KeepsInv s s.resume := by
  unfold State.resume
  exact .ite
    (.refl _)
    (.after
      (.foldl (fun _ _ => (wr ..)))
      ((setMv ..).after ((wr ..).after ((wr ..).after ((armed ..).after (.ite (upd rfl) (.refl _)))))))

/-! ### Charges at issue (03 R76, R77) -/

theorem payOp (o : DOp) (c : Nat) : KeepsInv s (s.payOp o c) := by
  unfold State.payOp
  exact .opt (fun _ => (chargeBg ..)) (charge ..)

/-! ### Issuing (09 R211, R213-R216) -/

theorem putHop (l h : Nat) (p : Hop) : KeepsInv s (s.putHop l h p) := by
  unfold State.putHop
  exact putLink8 ..

theorem sendFlit (l h : Nat) (up : Bool) (f : Flit) : KeepsInv s (s.sendFlit l h up f) := by
  unfold State.sendFlit
  exact send ..

theorem linkCtl (l h : Nat) (up : Bool) (pay : List Nat) : KeepsInv s (s.linkCtl l h up pay) := by
  unfold State.linkCtl
  exact sendFlit ..

theorem sendXfer (l h : Nat) (up : Bool) (x : Xfer) : KeepsInv s (s.sendXfer l h up x) := by
  unfold State.sendXfer
  exact .after (.ite (putLink8 ..) (.ite (putLink8 ..) (.refl _))) ((putHop ..).after (sendFlit ..))

theorem pump (l h : Nat) (up : Bool) (n : Nat) : KeepsInv s (State.pump l h up n s) := by
  induction n generalizing s with
  | zero => exact refl s
  | succ n ih => exact .ite (.refl _) (.opt (fun _ => (ih _).after (sendXfer ..)) (.refl _))

theorem pushFlits (l h : Nat) (up : Bool) (xs : List Xfer) : KeepsInv s (s.pushFlits l h up xs) := by
  unfold State.pushFlits
  exact (pump ..).after (putHop ..)

theorem envelope (d code : Nat) (o : DOp) (join : Bool) : KeepsInv s (s.envelope d code o join) := by
  unfold State.envelope
  exact pushFlits ..

theorem takeTag (l id : Nat) : KeepsInv s (s.takeTag l id) := by
  unfold State.takeTag
  extract_lets x
  split
  · exact putLink8 ..
  · exact refl s

theorem freeTag (l id : Nat) : KeepsInv s (s.freeTag l id) := by
  unfold State.freeTag
  exact putLink8 ..

theorem issueOp (d : Nat) (o : DOp) : KeepsInv s (s.issueOp d o) := by
  unfold State.issueOp
  exact .after (.foldl (fun _ _ => ((envelope ..).after (takeTag ..)))) (.after (.foldl (fun _ _ => (payOp ..))) (putDie ..))

theorem resumeErase (d : Nat) (e : DOp) : KeepsInv s (s.resumeErase d e) := by
  unfold State.resumeErase
  exact (envelope ..).after (putDie ..)

theorem dieIssue (d : Nat) : KeepsInv s (s.dieIssue d) := by
  unfold State.dieIssue
  exact .ite
    (.refl _)
    (.opt
      (fun _ =>
        (.ite (.refl _) (.opt (fun _ => (.ite ((envelope ..).after ((payOp ..).after (putDie ..))) (.refl _))) (.refl _))))
      (.opt (fun _ => (.ite (resumeErase ..) (issueOp ..))) (.refl _)))

theorem dieDone (d : Nat) (o : DOp) (temp : ℤ) (busy : Nat) : KeepsInv s (s.dieDone d o temp busy) := by
  unfold State.dieDone
  exact (putDie ..).after (.foldl (fun _ _ => (freeTag ..)))

/-! ### The decoder pool (10 R240, R241) -/

theorem putCw (w : CwJob) : KeepsInv s (s.putCw w) := by
  unfold State.putCw
  exact upd rfl

theorem dropCw (id : Nat) : KeepsInv s (s.dropCw id) := by
  unfold State.dropCw
  exact upd rfl

theorem assign : KeepsInv s s.assign := by
  unfold State.assign
  exact (wr ..).after (.foldl (fun _ _ => (.ite (.refl _) (.opt (fun _ => (putCw ..)) (.refl _)))))

theorem toBuffer (d : Nat) (o : DOp) : KeepsInv s (s.toBuffer d o) := by
  unfold State.toBuffer
  exact (assign ..).after (.after (upd rfl) (bump ..))

/-! ### Delivering codewords -/

theorem wantRefresh (b : Blk) : KeepsInv s (s.wantRefresh b) := by
  unfold State.wantRefresh
  exact .ite (putBlk ..) (.refl _)

theorem cwDone (c : Cmd) (cw : Nat) : KeepsInv s (s.cwDone c cw) := by
  unfold State.cwDone
  exact .after (.ite (finRead ..) (.refl _)) (putCmd ..)

theorem failRead (c : Cmd) (st : Nat × Nat) (die : Nat) : KeepsInv s (s.failRead c st die) := by
  unfold State.failRead
  exact (fin ..).after (filterOps ..)

theorem nextStep (d : Nat) (o : DOp) (step sub : Nat) : KeepsInv s (s.nextStep d o step sub) := by
  unfold State.nextStep
  exact enq ..

theorem unrecovered (r : RowId) (x : SRow) (b : Nat) (c : Option Cmd) (die : Nat) : KeepsInv s (s.unrecovered r x b c die) := by
  unfold State.unrecovered
  exact .ite
    (.opt (fun _ => (putCmd ..)) (.refl _))
    (.after (.opt (fun _ => (failRead ..)) (.refl _)) ((loseStripe ..).after (inc ..)))

theorem stepSix (d : Nat) (o : DOp) (c : Option Cmd) (skipped : Option Nat) : KeepsInv s (s.stepSix d o c skipped) := by
  unfold State.stepSix
  exact .opt (fun _ => (.ite (startRecon ..) (.opt (fun _ => (nextStep ..)) (unrecovered ..)))) (.refl _)

theorem putRecon (r : Recon) : KeepsInv s (s.putRecon r) := by
  unfold State.putRecon
  exact upd rfl

theorem dropRecon (id : Nat) : KeepsInv s (s.dropRecon id) := by
  unfold State.dropRecon
  exact upd rfl

theorem reconGot (id m : Nat) : KeepsInv s (s.reconGot id m) := by
  unfold State.reconGot
  exact .opt
    (fun _ =>
      (.ite
        (putRecon ..)
        (.after
          (.ite
            (inc ..)
            (.opt
              (fun _ => ((cwDone ..).after (.after (.ite (wantRefresh ..) (.refl _)) (.ite (.refl _) (inc ..)))))
              (.refl _)))
          (dropRecon ..))))
    (.refl _)

theorem reconFail (r : Recon) : KeepsInv s (s.reconFail r) := by
  unfold State.reconFail
  dsimp only
  split
  · exact dropRecon ..
  · split
    · exact (unrecovered ..).after (dropRecon ..)
    · split
      · exact dropRecon ..
      · split
        · split
          · split
            · exact (degraded ..).after (dropRecon ..)
            · exact (putCmd ..).after ((degraded ..).after (dropRecon ..))
            · exact (failRead ..).after ((degraded ..).after (dropRecon ..))
          · exact (enq ..).after (dropRecon ..)
        · exact .after (.opt (fun _ => (nextStep ..)) (unrecovered ..)) (dropRecon ..)

theorem reconOut (id m : Nat) : KeepsInv s (s.reconOut id m) := by
  unfold State.reconOut
  exact .opt (fun _ => (.ite (reconFail ..) (putRecon ..))) (.refl _)

theorem climb (d : Nat) (o : DOp) (unsat : Nat) : KeepsInv s (s.climb d o unsat) := by
  unfold State.climb
  refine .ite (.refl _) (.ite (.ite ((stepSix ..).after (inc ..)) (.ite (toBuffer ..) (nextStep ..))) ?_)
  split
  · exact reconOut ..
  · exact (stepSix ..).after ((wantRefresh ..).after (inc ..))
  · exact .ite (.opt (fun _ => unrecovered ..) (.refl _)) (stepSix ..)
  · exact .refl _

/-! ### Substitution (07 R175) -/

theorem noSpare (r : RowId) : KeepsInv s (s.noSpare r) := by
  unfold State.noSpare
  exact .ite (.refl _) (ctlFinish ..)

theorem substitute (r : RowId) (m : Nat) : KeepsInv s (s.substitute r m) := by
  unfold State.substitute
  exact .opt
    (fun _ =>
      (.ite
        (.refl _)
        (.ite
          ((noSpare ..).after (.ite (.refl _) ((raise ..).after (wr ..))))
          (.opt
            (fun _ => (.optMem (fun _ h0 => ((jn ..).after (.after (upd rfl) ((takeBlk ..).get h0)))) (noSpare ..)))
            (noSpare ..)))))
    (.refl _)

theorem substDie (d : Nat) (ok : RowId → Bool) : KeepsInv s (s.substDie d ok) := by
  unfold State.substDie
  exact .foldl (fun _ _ => (.foldl (fun _ _ => (.ite (substitute ..) (.refl _)))))

/-! ### Operations lost with a die (08 R199, 09 R227) -/

theorem lostOp (d : Nat) (o : DOp) : KeepsInv s (s.lostOp d o) := by
  unfold State.lostOp
  split
  · exact .refl _
  · split
    · split
      · dsimp only
        split
        · exact degraded ..
        · exact (putCmd ..).after (degraded ..)
        · exact (failRead ..).after (degraded ..)
      · exact .refl _
    · exact .ite (reconOut ..) (.refl _)

theorem loseOps (d : Nat) : KeepsInv s (s.loseOps d) := by
  unfold State.loseOps
  exact .after (.foldl (fun _ _ => (lostOp ..))) (putDie ..)

/-! ### Retirement (09 R226, R227) -/

theorem retireDie (d : Nat) : KeepsInv s (s.retireDie d) := by
  unfold State.retireDie
  exact .ite
    (.refl _)
    ((ceiling ..).after
      ((raise ..).after
        ((sweepSkip ..).after ((substDie ..).after ((loseOps ..).after ((jn ..).after ((addw ..).after (putDie ..))))))))

theorem retireCheck (d : Nat) : KeepsInv s (s.retireCheck d) := by
  unfold State.retireCheck
  exact .ite (retireDie ..) (.refl _)

/-! ### Tail areas (10 R234, R235, R250) -/

theorem openTail (d t : Nat) : KeepsInv.OfSome s (s.openTail d t) := by
  unfold State.openTail
  refine .ite .none ⟨fun e => ?_⟩
  obtain ⟨p, hp, rfl⟩ := Option.map_eq_some_iff.1 e
  exact .after (upd rfl) ((takeBlk ..).get hp)

theorem putTail (e : Tail) : KeepsInv s (s.putTail e) := by
  unfold State.putTail
  exact upd rfl

theorem takeTail (b : Blk) (t q : Nat) : KeepsInv.OfSome s (s.takeTail b t q) := by
  refine ⟨fun e => ?_⟩
  obtain ⟨m, hm, e⟩ := Option.bind_eq_some_iff.1 e
  obtain ⟨f, -, rfl⟩ := Option.map_eq_some_iff.1 e
  exact (putTail ..).after (OfSome.get (.ite (.some (.refl _)) (openTail ..)) hm)

theorem reserveTails (b : Blk) (t : Nat) : KeepsInv.OfSome s (s.reserveTails b t) := by
  unfold State.reserveTails
  exact .ite (.some (.refl _)) (foldlSome (fun _ => rfl) (fun _ _ => takeTail ..))

theorem asTier (b : Blk) (t : Nat) : KeepsInv s (s.asTier b t) := by
  unfold State.asTier
  exact .ite (.refl _) (.after (.ite (.refl _) (reserveTails ..).getD) ((putBlk ..).after (freeTails ..)))

theorem tailsWhole (b : Blk) : KeepsInv s (s.tailsWhole b) := by
  unfold State.tailsWhole
  exact .foldl (fun _ _ => (.ite ((stampNow ..).after (putTail ..)) (.refl _)))

theorem moveTails (old new : Blk) : KeepsInv s (s.moveTails old new) := by
  unfold State.moveTails
  exact .ite (.after (upd rfl) (freeTails ..)) ((freeTails ..).after (tailsWhole ..))

theorem tailMove (d b : Nat) : KeepsInv s (s.tailMove d b) := by
  unfold State.tailMove
  refine .ite (.refl _) (.optMem (fun p e => .after (upd rfl) ((bump ..).after ((chargeBg ..).after ?_))) (.refl _))
  refine OfSome₂.get (foldlSome₂ (fun _ => rfl) (fun p x => ⟨fun e => ?_⟩)) e
  dsimp only [Option.bind] at e
  split at e
  · cases e
  next m hm =>
    obtain ⟨f, -, rfl⟩ := Option.map_eq_some_iff.1 e
    exact (putTail ..).after (OfSome.get (.ite (.some (.refl _)) (openTail ..)) hm)

theorem tailSweep (d : Nat) : KeepsInv s (s.tailSweep d) := by
  unfold State.tailSweep
  exact .foldl (fun _ _ => (.ite (.refl _) (.ite ((staleBlk ..).after (upd rfl)) (.ite (tailMove ..) (.refl _)))))

theorem tailMoved (j : Reloc) : KeepsInv s (s.tailMoved j) := by
  unfold State.tailMoved
  refine (tailSweep ..).after (.foldl (fun s m => ?_))
  split
  · exact (jn ..).after ((putTail ..).after (putTail ..))
  · exact .refl _

theorem tailProg (o : DOp) (m q : Nat) : KeepsInv s (s.tailProg o m q) := by
  unfold State.tailProg
  exact .opt (fun _ => (.opt (fun _ => (.ite (.refl _) (.after (.foldl (fun _ _ => (enq ..))) (putTail ..)))) (.refl _))) (.refl _)

theorem noteErased (d : Nat) : KeepsInv s (s.noteErased d) := by
  unfold State.noteErased
  exact .opt (fun _ => (upd rfl)) (.refl _)

theorem openWaiting : KeepsInv s s.openWaiting := by
  unfold State.openWaiting
  exact .foldl
    (fun _ _ =>
      (.opt (fun _ => (.ite (.refl _) (.after (.foldl (fun _ _ => (.ite (progPage ..) (.refl _)))) (openWin ..)))) (.refl _)))

theorem erased (b : Blk) : KeepsInv s (s.erased b) := by
  unfold State.erased
  exact .after
    (.opt
      (fun _ =>
        (.optMem
          (fun _ h0 => ((openWaiting ..).after ((jn ..).after ((putBlk ..).after ((reserveTails ..).get h0)))))
          ((retireCheck ..).after ((inc ..).after (badBlk ..)))))
      ((retireCheck ..).after (badBlk ..)))
    ((tailSweep ..).after ((freeTails ..).after ((putBlk ..).after ((jn ..).after ((noteErased ..).after (putDie ..))))))

/-! ### Pages and wordlines of a row -/

theorem releasePage (r : RowId) (k m b0 b1 : Nat) : KeepsInv s (s.releasePage r k m b0 b1) := by
  unfold State.releasePage
  exact (finFlush ..).after (upd rfl)

theorem pageGood (o : DOp) : KeepsInv s (s.pageGood o) := by
  unfold State.pageGood
  exact .opt (fun _ => ((padDone ..).after (.after (.ite (tailProg ..) (.refl _)) (releasePage ..)))) (.refl _)

theorem eligible (r : RowId) (w p lc : Nat) : KeepsInv s (s.eligible r w p lc) := by
  unfold State.eligible
  exact .opt (fun _ => (.ite (putRow ..) (.refl _))) (.refl _)

theorem pageProgrammed (o : DOp) : KeepsInv s (s.pageProgrammed o) := by
  unfold State.pageProgrammed
  exact .opt
    (fun _ =>
      (.after
        (.ite ((eligible ..).after (upd rfl)) (.refl _))
        (.after
          (.ite (.foldl (fun _ _ => (.ite (.refl _) ((enq ..).after (.ite (charge ..) (.refl _)))))) (.refl _))
          (putRow ..))))
    (.refl _)

theorem takeOver (h : Nat) : KeepsInv s (s.takeOver h) := by
  unfold State.takeOver
  exact upd rfl

theorem directDone (r : RowId) (k n : Nat) : KeepsInv s (s.directDone r k n) := by
  unfold State.directDone
  exact .after
    (.ite
      (.refl _)
      (.ite (padDone ..) (.ite ((takeOver ..).after (putZx ..)) (.ite ((takeOver ..).after (putZx ..)) (dropDirect ..)))))
    (upd rfl)

theorem wlGood (r : RowId) (m n : Nat) : KeepsInv s (s.wlGood r m n) := by
  unfold State.wlGood
  exact .opt
    (fun _ =>
      (.after
        (.ite (.ite (directDone ..) ((jn ..).after (foldFreed ..))) (.refl _))
        (.after (.ite (tailProg ..) (.refl _)) (putRow ..))))
    (.refl _)

/-! ### Failed programs and verifies (09 R221) -/

theorem replaceBlk (r : RowId) (m : Nat) (old : Blk) (onebit : Bool) (tier : Nat) (o : DOp) : KeepsInv s (s.replaceBlk r m old onebit tier o) := by
  unfold State.replaceBlk
  exact .optMem
    (fun _ h0 => (.after (upd rfl) ((bump ..).after ((chargeBg ..).after ((asTier ..).after ((takeBlk ..).get h0))))))
    (substitute ..)

theorem tailBad (d b : Nat) : KeepsInv₁ s (s.tailBad d b) := by
  unfold State.tailBad
  exact .after
    (.optMem
      (fun _ h0 => (.pair (.after (upd rfl) ((putDie ..).after ((chargeBg ..).after ((takeBlk ..).get h0))))))
      (.pair (.refl _)))
    (badBlk ..)

theorem tailFailed (d : Nat) (o : DOp) : KeepsInv s (s.tailFailed d o) := by
  have h := tailBad s d o.blk
  unfold State.tailFailed
  split
  next e => rw [e] at h; exact (enq ..).after h
  next e => rw [e] at h; exact (substitute ..).after h

theorem tailStands (o : DOp) : KeepsInv s (s.tailStands o) := by
  unfold State.tailStands
  exact .opt
    (fun _ => (.after (.ite (.after (.opt (fun _ => (releasePage ..)) (.refl _)) (jn ..)) (.refl _)) (putTail ..)))
    (.refl _)

theorem progFailed (d : Nat) (o : DOp) : KeepsInv s (s.progFailed d o) := by
  unfold State.progFailed
  exact .after
    (.ite
      ((retireCheck ..).after (tailFailed ..))
      ((retireCheck ..).after
        (.after
          (.opt (fun _ => (.opt (fun _ => ((replaceBlk ..).after (upd rfl))) (replaceBlk ..))) (.refl _))
          ((dequeue ..).after (badBlk ..)))))
    (putDie ..)

theorem copyStands (cid : Nat) : KeepsInv s (s.copyStands cid) := by
  unfold State.copyStands
  exact .opt (fun _ => ((jn ..).after (upd rfl))) (.refl _)

theorem stands (o : DOp) : KeepsInv s (s.stands o) := by
  unfold State.stands
  exact .ite (copyStands ..) (.ite (tailStands ..) (.ite (pageGood ..) (wlGood ..)))

theorem execDieOperationIssue (d : Nat) : KeepsInv.Outc s (execDieOperationIssue d s) := by
  unfold Machine.execDieOperationIssue
  exact .next (dieIssue ..)

theorem sensed (d : Nat) (o : DOp) : KeepsInv s (s.sensed d o) := by
  unfold State.sensed
  exact .ite (.ite (stale ..) (.ite (.refl _) (toBuffer ..))) (toBuffer ..)

theorem readBack (d : Nat) (temp : ℤ) (busy : Nat) (bad : List Nat) : KeepsInv s (s.readBack d temp busy bad) := by
  unfold State.readBack
  exact .opt
    (fun _ => (.ite (.refl _) ((resumeAll ..).after (.after (.foldl (fun _ _ => (.ite (enq ..) (sensed ..)))) (dieDone ..)))))
    (.refl _)

theorem prog1Done (d : Nat) (o : DOp) : KeepsInv s (s.prog1Done d o) := by
  unfold State.prog1Done
  exact .after (.ite (enq ..) (stands ..)) (.after (.ite (.refl _) (pageProgrammed ..)) ((putDie ..).after (draw ..)))

theorem execProgramDone (d : Nat) (temp : ℤ) (busy : Nat) : KeepsInv.Outc s (execProgramDone d temp busy s) := by
  unfold Machine.execProgramDone
  exact .next
    (.opt
      (fun _ =>
        (.ite
          (.refl _)
          ((resumeAll ..).after
            (.after
              (.ite
                (prog1Done ..)
                (.ite
                  ((enq ..).after (putDie ..))
                  (.ite (putDie ..) (.ite ((enq ..).after (putDie ..)) ((enq ..).after (putDie ..))))))
              ((stampBlk ..).after (dieDone ..))))))
      (.refl _))

theorem execProgramFail (d planes : Nat) (temp : ℤ) (busy : Nat) : KeepsInv.Outc s (execProgramFail d planes temp busy s) := by
  unfold Machine.execProgramFail
  exact .next
    (.opt
      (fun _ =>
        (.ite (.refl _) ((resumeAll ..).after ((progFailed ..).after ((putDie ..).after ((inc ..).after (dieDone ..)))))))
      (.refl _))

theorem execEraseDone (d : Nat) (temp : ℤ) (busy : Nat) : KeepsInv.Outc s (execEraseDone d temp busy s) := by
  unfold Machine.execEraseDone
  exact .next (.opt (fun _ => (.ite (.refl _) ((resumeAll ..).after ((erased ..).after (dieDone ..))))) (.refl _))

theorem execEraseSuspended (d : Nat) (temp : ℤ) (prog : Nat) : KeepsInv.Outc s (execEraseSuspended d temp prog s) := by
  unfold Machine.execEraseSuspended
  exact .next (.opt (fun _ => (.ite (.refl _) ((dieIssue ..).after (putDie ..)))) (.refl _))

theorem execEraseFail (d planes : Nat) (temp : ℤ) (busy : Nat) : KeepsInv.Outc s (execEraseFail d planes temp busy s) := by
  unfold Machine.execEraseFail
  exact .next
    (.opt
      (fun _ =>
        (.ite (.refl _) ((resumeAll ..).after ((retireCheck ..).after ((badBlk ..).after ((putDie ..).after (dieDone ..)))))))
      (.refl _))

theorem execDieOpTimeout (d : Nat) : KeepsInv.Outc s (execDieOpTimeout d s) := by
  unfold Machine.execDieOpTimeout
  exact .next
    (.opt
      (fun _ =>
        (.ite
          (.refl _)
          ((resumeAll ..).after
            ((retireCheck ..).after
              (.after
                (.ite (.foldl (fun _ _ => (enq ..))) (.ite (enq ..) ((progFailed ..).after (inc ..))))
                ((putDie ..).after ((envelope ..).after (inc ..))))))))
      (.refl _))

theorem execFinePassUrgent (d : Nat) : KeepsInv.Outc s (execFinePassUrgent d s) := by
  unfold Machine.execFinePassUrgent
  exact .next (.opt (fun _ => (.ite (.refl _) (putDie ..))) (.refl _))

/-! ### Decodes (10 R242-R247) -/

theorem noteBits (b : Blk) (mean : Nat) : KeepsInv s (s.noteBits b mean) := by
  unfold State.noteBits
  exact putBlk ..

theorem noteVerified (d n mean : Nat) : KeepsInv s (s.noteVerified d n mean) := by
  unfold State.noteVerified
  exact putDie ..

theorem putCorr (i : Nat) (v : List ℤ) : KeepsInv s (s.putCorr i v) := by
  unfold State.putCorr
  exact upd rfl

theorem probed (b : Blk) (tier : Nat) (probe : List (Nat × Nat × Nat)) : KeepsInv s (s.probed b tier probe) := by
  unfold State.probed
  exact .ite (.refl _) (.ite (.refl _) (putCorr ..))

theorem decodedAs (d : Nat) (o : DOp) (bits mean : Nat) (probe : List (Nat × Nat × Nat)) : KeepsInv s (s.decodedAs d o bits mean probe) := by
  unfold State.decodedAs
  dsimp only
  split
  · exact .after (.ite (stands ..) ((progFailed ..).after (inc ..))) ((noteVerified ..).after ((noteBits ..).after (inc ..)))
  · split
    · exact reconGot ..
    · exact .after (.opt (fun _ => (enq ..)) (.refl _)) (.after (.ite (.refl _) ((send ..).after (payOp ..))) (inc ..))
    · exact .after
        (.ite ((wantRefresh ..).after (.ite (.refl _) (inc ..))) (.refl _))
        ((probed ..).after ((noteBits ..).after (inc ..)))
    · exact .opt (fun _ => ((cwDone ..).after (.after (.ite (wantRefresh ..) (.refl _)) (inc ..)))) (.refl _)

theorem foldSource (d : Nat) (o : DOp) : KeepsInv s (s.foldSource d o) := by
  unfold State.foldSource
  exact .opt (fun _ => ((decodedAs ..).after (.ite (.refl _) (unrecovered ..)))) (.refl _)

theorem decodeFailed (d : Nat) (o : DOp) (unsat : Nat) : KeepsInv s (s.decodeFailed d o unsat) := by
  unfold State.decodeFailed
  exact .ite ((progFailed ..).after (inc ..)) (.ite (foldSource ..) (climb ..))

theorem execDecodeDone (id : Nat) (ok : Bool) (bits mean unsat : Nat) (probe : List (Nat × Nat × Nat)) :
    KeepsInv.Outc s (execDecodeDone id ok bits mean unsat probe s) := by
  unfold Machine.execDecodeDone
  exact .next
    (.opt
      (fun _ =>
        ((resumeAll ..).after
          (.after (.ite (stale ..) (.ite (decodedAs ..) (decodeFailed ..))) ((assign ..).after (dropCw ..)))))
      (.refl _))

theorem execReadUrgencyRise (d id : Nat) : KeepsInv.Outc s (execReadUrgencyRise d id s) := by
  refine .next ?_
  split
  · exact .refl _
  split
  · exact considerRa ..
  · exact .refl _

/-! ### Folds (06 R151, R153, R154; 03 R76) -/

theorem execFoldIssue (conv : Bool) (h r : Nat) : KeepsInv.Outc s (execFoldIssue conv h r s) := by
  unfold Machine.execFoldIssue
  exact .next
    (.opt
      (fun _ =>
        (.opt (fun _ => (.after (.foldl (fun _ _ => (.ite (.refl _) ((enq ..).after (charge ..))))) (putRow ..))) (.refl _)))
      (.refl _))

/-! ### Patrol (10 R246, R247) -/

theorem patrolOn (k p : Nat) : KeepsInv s (s.patrolOn k p) := by
  unfold State.patrolOn
  exact (wr ..).after (.after (upd rfl) (.ite (putBlk ..) (.refl _)))

theorem execPatrolRead : KeepsInv.Outc s (execPatrolRead s) := by
  unfold Machine.execPatrolRead
  exact .next
    (.ite
      (.refl _)
      (.opt
        (fun _ => ((patrolOn ..).after (.after (.opt (fun _ => (enq ..)) (.refl _)) (.ite (putBlk ..) (.refl _)))))
        (.after (upd rfl) ((wr ..).after (wr ..)))))

/-! ### Sweeps (10 R248, R249; 16 R366, R367) -/

theorem sweepBegin (k d : Nat) (w : Sweep) : KeepsInv s (s.sweepBegin k d w) := by
  unfold State.sweepBegin
  exact (sweepSts ..).after ((putSweep ..).after (chargeBg ..))

theorem sweepEnd (k d : Nat) (w : Sweep) (res : List (Nat × Nat × List ℤ)) : KeepsInv s (s.sweepEnd k d w res) := by
  unfold State.sweepEnd
  exact (sweepSts ..).after ((putSweep ..).after ((putDie ..).after (.foldl (fun _ _ => (putCorr ..)))))

theorem execCalibrationSweep (d : Option Nat) (res : Option (List (Nat × Nat × List Int))) : KeepsInv.Outc s (execCalibrationSweep d res s) := by
  refine .next (.ite (.refl _) ?_)
  split
  · exact (sweepSts ..).after (putSweep ..)
  split
  · exact .refl _
  split
  · exact .ite (sweepBegin ..) (.refl _)
  · exact .ite (sweepEnd ..) (.refl _)
  · exact .refl _

theorem execTemperatureSweep (d : Nat) (res : Option (List (Nat × Nat × List ℤ))) : KeepsInv.Outc s (execTemperatureSweep d res s) := by
  unfold Machine.execTemperatureSweep
  exact .next (.ite (.refl _) (.opt (fun _ => (.ite (sweepEnd ..) (.refl _))) (.ite (sweepBegin ..) (.refl _))))

theorem execCorrectionSave : KeepsInv.Outc s (execCorrectionSave s) := by
  unfold Machine.execCorrectionSave
  exact .next ((chargeBg ..).after (upd rfl))

/-! ### The wear forecaster (09 R225, R226) -/

theorem execWearForecast : KeepsInv.Outc s (execWearForecast s) := by
  unfold Machine.execWearForecast
  exact .next
    (.after
      (.foldl (fun _ _ => (retireCheck ..)))
      (.after
        (.foldl (fun _ _ => (.ite ((raise ..).after (upd rfl)) (.refl _))))
        ((wr ..).after ((wr ..).after ((wr ..).after (.foldl (fun _ _ => (putDie ..))))))))

/-! ### Hops -/

theorem setHop (l h st : Nat) : KeepsInv s (s.setHop l h st) := by
  unfold State.setHop
  exact (putLink8 ..).after (.ite (wr ..) (wr ..))

/-! ### The order of a power-limit step (01 R17, R34; 18 R405) -/

theorem settleStep : KeepsInv s s.settleStep := by
  unfold State.settleStep
  exact .after
    (.ite (upd rfl) (.refl _))
    (.after
      (.ite (upd rfl) (.refl _))
      (.after (.ite (wr ..) (.refl _)) (.after (.ite (upd rfl) (.refl _)) (.ite (upd rfl) (.refl _)))))

/-! ### Breaks (08 R199; 07 R175, R178) -/

theorem dieGone (d : Nat) : KeepsInv s (s.dieGone d) := by
  unfold State.dieGone
  exact .ite (.refl _) ((substDie ..).after ((loseOps ..).after (putDie ..)))

theorem hopDown (l h : Nat) : KeepsInv s (s.hopDown l h) := by
  unfold State.hopDown
  exact setHop ..

theorem cutFlits (l h : Nat) : KeepsInv s (s.cutFlits l h) := by
  unfold State.cutFlits
  exact putLink8 ..

theorem cutOff (l h : Nat) : KeepsInv s (s.cutOff l h) := by
  unfold State.cutOff
  exact (sweepBreak ..).after
    (.after
      (.foldl (fun _ _ => ((dieGone ..).after (.foldl (fun _ _ => (freeTag ..))))))
      ((wr ..).after ((wr ..).after (cutFlits ..))))

theorem breakHop (l h : Nat) : KeepsInv s (s.breakHop l h) := by
  unfold State.breakHop
  exact .ite
    (.refl _)
    ((ceiling ..).after
      ((raise ..).after
        ((cutOff ..).after
          (.after
            (.ite ((wr ..).after (wr ..)) (.refl _))
            ((inc ..).after ((wr ..).after ((wr ..).after ((wr ..).after ((hopDown ..).after (putLink8 ..))))))))))

/-! ### Work that a member still needs (07 R175, R176, R178; 06 R154, R155) -/

theorem halfRedo (r : RowId) (x : SRow) (m w : Nat) : KeepsInv s (s.halfRedo r x m w) := by
  unfold State.halfRedo
  exact (replaceBlk ..).after (putDie ..)

theorem redoTails (r : RowId) (x : SRow) (m n : Nat) : KeepsInv s (s.redoTails r x m n) := by
  unfold State.redoTails
  exact .foldl (fun _ _ => (.ite (.refl _) (.foldl (fun _ _ => (enq ..)))))

theorem redo (r : RowId) (m : Nat) : KeepsInv s (s.redo r m) := by
  unfold State.redo
  exact .opt
    (fun _ =>
      (.after
        (.ite
          (.ite (enq ..) (.refl _))
          (.after
            (.foldl (fun _ _ => (enq ..)))
            (.foldl (fun _ _ => (.foldl (fun _ _ => (.ite (.ite (progPage ..) (.refl _)) (.ite (progPage ..) (.refl _)))))))))
        ((redoTails ..).after (.opt (fun _ => (halfRedo ..)) (.refl _)))))
    (.refl _)

/-! ### Enumeration and healing (08 R200, R203; 07 R178) -/

theorem renewDie (d : Nat) : KeepsInv s (s.renewDie d) := by
  unfold State.renewDie
  exact (putDie ..).after (upd rfl)

theorem replaced (r : RowId) (m d : Nat) : KeepsInv s (s.replaced r m d) := by
  unfold State.replaced
  exact .opt
    (fun _ => (.ite (.refl _) (.optMem (fun _ h0 => (.after (upd rfl) ((bump ..).after ((takeBlk ..).get h0)))) (.refl _))))
    (.optMem (fun _ h1 => ((jn ..).after (.after (upd rfl) ((takeBlk ..).get h1)))) (.refl _))

theorem foundDie (d desc : Nat) (fresh : Bool) : KeepsInv s (s.foundDie d desc fresh) := by
  unfold State.foundDie
  exact .ite
    (raise ..)
    (.after
      (.foldl (fun _ _ => (.ite (replaced ..) (.ite (.refl _) (redo ..)))))
      ((wr ..).after ((putDie ..).after (.ite (renewDie ..) (.refl _)))))

theorem rerunAll : KeepsInv s s.rerunAll := by
  unfold State.rerunAll
  exact .foldl (fun _ _ => (rerun ..))

theorem foundAt (l p : Nat) (f : Found) : KeepsInv s (s.foundAt l p f) := by
  unfold State.foundAt
  exact .after
    (.foldl (fun _ _ => (.ite (foundDie ..) (.refl _))))
    (.after
      (.ite (wr ..) (.refl _))
      (.after
        (.ite (raise ..) (.refl _))
        (.after
          (.ite (.refl _) (jn ..))
          ((wr ..).after ((wr ..).after ((wr ..).after ((wr ..).after ((wr ..).after ((wr ..).after (putLink8 ..))))))))))

theorem healed (l p : Nat) : KeepsInv s (s.healed l p) := by
  unfold State.healed
  exact .ite (.refl _) ((raise ..).after (.after (.ite ((wr ..).after (wr ..)) (wr ..)) (putLink8 ..)))

theorem enumerate (l p : Nat) (fs : List Found) : KeepsInv s (s.enumerate l p fs) := by
  induction fs generalizing s p with
  | nil => exact refl s
  | cons f fs ih =>
    exact .ite (.refl _) (.after (.ite (.refl _) (.after (ih ..) (.ite (setHop ..) (.refl _))))
      ((sweepHeal ..).after ((wr ..).after ((foundAt ..).after (healed ..)))))

/-! ### Replay (08 R193-R196) -/

theorem replayFrom (l h : Nat) (up : Bool) (q : Nat) : KeepsInv s (s.replayFrom l h up q) := by
  unfold State.replayFrom
  exact .ite (.refl _) (.after (.foldl (fun _ _ => (sendFlit ..))) ((putHop ..).after (inc ..)))

theorem loseLock (l h : Nat) (up : Bool) : KeepsInv s (s.loseLock l h up) := by
  unfold State.loseLock
  exact .after (.ite (setHop ..) (.refl _)) (putHop ..)

theorem execHopTrainingDone (l h lanes : Nat) (extra : Bool) : KeepsInv.Outc s (execHopTrainingDone l h lanes extra s) := by
  unfold Machine.execHopTrainingDone
  exact .next
    (.ite
      (.refl _)
      ((ceiling ..).after
        ((pump ..).after
          ((pump ..).after
            (.after
              (.ite ((replayFrom ..).after (replayFrom ..)) (.refl _))
              (.after
                (.ite (raise ..) (.refl _))
                ((wr ..).after
                  (.after (.ite (wr ..) (.refl _)) (.after (.ite (wr ..) (.refl _)) ((putHop ..).after (setHop ..)))))))))))

theorem execHopTrainingFail (l h : Nat) : KeepsInv.Outc s (execHopTrainingFail l h s) := by
  unfold Machine.execHopTrainingFail
  exact .next (.ite (.refl _) (.ite ((breakHop ..).after (putHop ..)) ((setHop ..).after (putHop ..))))

theorem execHopRetrain (l h : Nat) : KeepsInv.Outc s (execHopRetrain l h s) := by
  unfold Machine.execHopRetrain
  exact .next (.ite (setHop ..) (.refl _))

theorem execQuietEntry (l h : Nat) (up : Bool) : KeepsInv.Outc s (execQuietEntry l h up s) := by
  unfold Machine.execQuietEntry
  exact .next (.ite (.after (.ite (setHop ..) (.refl _)) ((putHop ..).after (linkCtl ..))) (.refl _))

theorem burst (l h : Nat) (up ok : Bool) : KeepsInv s (s.burst l h up ok) := by
  unfold State.burst
  exact .ite (.refl _) (.after (.ite ((pump ..).after (setHop ..)) (setHop ..)) ((putHop ..).after (send ..)))

theorem execBurstStart (l h : Nat) (up ok : Bool) : KeepsInv.Outc s (execBurstStart l h up ok s) := by
  unfold Machine.execBurstStart
  exact .next (.ite (burst ..) (.refl _))

theorem execKeepalive (l h : Nat) (up seen : Bool) : KeepsInv.Outc s (execKeepalive l h up seen s) := by
  unfold Machine.execKeepalive
  exact .next (.ite (.refl _) (.after (.ite ((loseLock ..).after (inc ..)) (.refl _)) ((putHop ..).after (send ..))))

/-! ### Reception (08 R184, R192-R196) -/

theorem tagEnd (l tag : Nat) (ends : Bool) : KeepsInv s (s.tagEnd l tag ends) := by
  unfold State.tagEnd
  exact .opt (fun _ => (.ite (freeTag ..) (.refl _))) (inc ..)

theorem deliver (l ty tag : Nat) (last : Bool) (pay : List Nat) : KeepsInv s (s.deliver l ty tag last pay) := by
  unfold State.deliver
  exact .ite (.foldl (fun _ _ => (tagEnd ..))) (.ite (tagEnd ..) (.ite (breakHop ..) (.refl _)))

theorem nakFrom (l h : Nat) (up : Bool) : KeepsInv s (s.nakFrom l h up) := by
  unfold State.nakFrom
  exact .ite (.refl _) ((putHop ..).after (linkCtl ..))

theorem credits (l h : Nat) (up : Bool) (pay : List Nat) : KeepsInv s (s.credits l h up pay) := by
  unfold State.credits
  exact .ite (putLink8 ..) (.ite (putLink8 ..) (.refl _))

theorem forward (l h : Nat) (up : Bool) (ty br tag : Nat) (last : Bool) (pay : List Nat) : KeepsInv s (s.forward l h up ty br tag last pay) := by
  unfold State.forward
  exact .ite (pushFlits ..) (.ite (pushFlits ..) (.refl _))

theorem acceptFlit (l h : Nat) (up : Bool) (hdr : Nat) (pay : List Nat) : KeepsInv s (s.acceptFlit l h up hdr pay) := by
  unfold State.acceptFlit
  exact .after
    (.ite (pump ..) (.refl _))
    ((pump ..).after
      (.after
        (.ite (deliver ..) (.refl _))
        (.after
          (.ite (credits ..) (.refl _))
          (.after (.ite (forward ..) (.refl _)) (.after (.ite (nakFrom ..) (.refl _)) (putHop ..))))))

theorem execFlitReceive (l h : Nat) (up : Bool) (sym : List (List ℤ)) : KeepsInv.Outc s (execFlitReceive l h up sym s) := by
  unfold Machine.execFlitReceive
  exact .next
    (.ite
      (.refl _)
      (.ite
        (putHop ..)
        (.after
          (.ite (acceptFlit ..) ((putHop ..).after (nakFrom ..)))
          (.after (.ite (.foldl (fun _ _ => (inc ..))) (.refl _)) (.after (.ite (.refl _) (inc ..)) (putHop ..))))))

theorem execNakReceived (l h : Nat) (up : Bool) (seq : Nat) : KeepsInv.Outc s (execNakReceived l h up seq s) := by
  unfold Machine.execNakReceived
  exact .next (.ite (replayFrom ..) (.refl _))

theorem execReplayTimeout (l h : Nat) (up : Bool) : KeepsInv.Outc s (execReplayTimeout l h up s) := by
  unfold Machine.execReplayTimeout
  exact .next (.ite (replayFrom ..) (.refl _))

theorem execFlitLockLoss (l h : Nat) (up : Bool) : KeepsInv.Outc s (execFlitLockLoss l h up s) := by
  unfold Machine.execFlitLockLoss
  exact .next (.ite ((loseLock ..).after (inc ..)) (.refl _))

theorem execNoProgress (l h : Nat) (up : Bool) : KeepsInv.Outc s (execNoProgress l h up s) := by
  unfold Machine.execNoProgress
  exact .next (.ite (breakHop ..) (.refl _))

theorem execBreakNotice (l h : Nat) : KeepsInv.Outc s (execBreakNotice l h s) := by
  unfold Machine.execBreakNotice
  exact .next (.ite (breakHop ..) (.refl _))

theorem execWidthChange (l : Nat) : KeepsInv.Outc s (execWidthChange l s) := by
  unfold Machine.execWidthChange
  exact .next
    (.ite
      (.refl _)
      (.ite
        (putLink8 ..)
        (.ite (putLink8 ..) ((settleStep ..).after ((pump ..).after ((wr ..).after ((linkCtl ..).after (putLink8 ..))))))))

theorem execSidebandInsert (l : Nat) : KeepsInv.Outc s (execSidebandInsert l s) := by
  unfold Machine.execSidebandInsert
  exact .next
    (.ite
      (.refl _)
      (.ite
        (putLink8 ..)
        (.after (.ite (.ite (setHop ..) (.refl _)) (.refl _)) ((edge ..).after ((putLink8 ..).after (wr ..))))))

theorem execSidebandAlert (l : Nat) (low : List Nat) : KeepsInv.Outc s (execSidebandAlert l low s) := by
  unfold Machine.execSidebandAlert
  exact .next
    (.ite
      (.refl _)
      (.after
        (.foldl (fun _ _ => (.after (.ite (setHop ..) (.refl _)) (wr ..))))
        ((send ..).after (.foldl (fun _ _ => ((burst ..).after (burst ..)))))))

theorem execSidebandAbsent (l : Nat) : KeepsInv.Outc s (execSidebandAbsent l s) := by
  unfold Machine.execSidebandAbsent
  exact .next (.ite (.refl _) (.ite (putLink8 ..) ((breakHop ..).after ((edge ..).after ((putLink8 ..).after (wr ..))))))

theorem execChainEnumeration (l p : Nat) (found : List (Nat × Nat × Nat × List Nat × Nat × Bool)) :
    KeepsInv.Outc s (execChainEnumeration l p found s) := by
  unfold Machine.execChainEnumeration
  exact .next (.ite (.refl _) ((ceiling ..).after ((rerunAll ..).after (enumerate ..))))

theorem execBridgeCounterCollect (l corr replay stray lock : Nat) : KeepsInv.Outc s (execBridgeCounterCollect l corr replay stray lock s) := by
  unfold Machine.execBridgeCounterCollect
  exact .next (.ite (.refl _) ((inc ..).after ((inc ..).after ((inc ..).after (inc ..)))))

theorem execPartialFlitTimeout (l h : Nat) (up : Bool) : KeepsInv.Outc s (execPartialFlitTimeout l h up s) := by
  unfold Machine.execPartialFlitTimeout
  exact .next (.opt (fun _ => (.ite ((putHop ..).after (linkCtl ..)) (.refl _))) (.refl _))

theorem putUnit (u : UnitSt) : KeepsInv s (s.putUnit u) := by
  unfold State.putUnit
  exact upd rfl

theorem pairServe (i : Nat) : KeepsInv s (s.pairServe i) := by
  unfold State.pairServe
  exact (wr ..).after (wr ..)

theorem pairRecover (i : Nat) : KeepsInv s (s.pairRecover i) := by
  unfold State.pairRecover
  exact .foldl (fun _ _ => (.ite (setHop ..) (.refl _)))

theorem setAvail (k i : Nat) (on : Bool) : KeepsInv s (s.setAvail k i on) := by
  unfold State.setAvail
  exact .ite ((wr ..).after (wr ..)) (.ite ((wr ..).after (wr ..)) (pairServe ..))

theorem third (k i : Nat) : KeepsInv s (s.third k i) := by
  unfold State.third
  exact putUnit ..

theorem reissueLane (l : Nat) (fault : Bool) : KeepsInv s (s.reissueLane l fault) := by
  unfold State.reissueLane
  exact .foldl
    (fun _ _ =>
      (.ite
        ((dropFrame ..).after (third ..))
        (.opt
          (fun _ =>
            (.opt
              (fun _ =>
                (.after (.opt (fun _ => (.opt (fun _ => (putStream ..)) (.refl _))) (.refl _)) (.after (upd rfl) (inc ..))))
              (.refl _)))
          (.refl _))))

theorem reissueDec (d : Nat) (fault : Bool) : KeepsInv s (s.reissueDec d fault) := by
  unfold State.reissueDec
  exact .foldl
    (fun _ _ =>
      (.after
        (.ite
          (.after
            (.ite (reconOut ..) (.ite (.opt (fun _ => (failRead ..)) (.refl _)) (.refl _)))
            ((third ..).after (dropCw ..)))
          ((assign ..).after (putCw ..)))
        (inc ..)))

theorem reissueLink (l : Nat) : KeepsInv s (s.reissueLink l) := by
  unfold State.reissueLink
  exact .foldl
    (fun _ _ =>
      (.opt
        (fun _ =>
          (.ite (.refl _) (.after (.foldl (fun _ _ => (enq ..))) ((putDie ..).after (.foldl (fun _ _ => (freeTag ..)))))))
        (.refl _)))

theorem fenceUnit (k i rsn : Nat) : KeepsInv s (s.fenceUnit k i rsn) := by
  unfold State.fenceUnit
  exact .ite
    (.refl _)
    ((ceiling ..).after
      ((raise ..).after
        (.after
          (.ite
            (reissueLane ..)
            (.ite (reissueDec ..) (.ite ((breakHop ..).after (breakHop ..)) ((pairRecover ..).after (reissueLink ..)))))
          (.after (.ite (wr ..) (.refl _)) ((setAvail ..).after (putUnit ..))))))

theorem returnUnit (k i : Nat) : KeepsInv s (s.returnUnit k i) := by
  unfold State.returnUnit
  exact (ceiling ..).after
    ((raise ..).after (.after (.ite (wr ..) (.ite (pairRecover ..) (assign ..))) ((setAvail ..).after (putUnit ..))))

theorem laneOut (l n : Nat) : KeepsInv s (s.laneOut l n) := by
  unfold State.laneOut
  exact upd rfl

theorem execLaneWatchdog (l rsn n : Nat) : KeepsInv.Outc s (execLaneWatchdog l rsn n s) := by
  unfold Machine.execLaneWatchdog
  exact .next (.ite (.ite ((fenceUnit ..).after (laneOut ..)) (.refl _)) (.ite ((fenceUnit ..).after (laneOut ..)) (.refl _)))

theorem execDecoderWatchdog (d rsn : Nat) : KeepsInv.Outc s (execDecoderWatchdog d rsn s) := by
  unfold Machine.execDecoderWatchdog
  exact .next (.ite (.ite (fenceUnit ..) (.refl _)) (.ite (fenceUnit ..) (.refl _)))

theorem execLinkEngineWatchdog (e rsn : Nat) : KeepsInv.Outc s (execLinkEngineWatchdog e rsn s) := by
  unfold Machine.execLinkEngineWatchdog
  exact .next (.ite (.ite (fenceUnit ..) (.refl _)) (.ite (fenceUnit ..) (.refl _)))

theorem execRasUnitFence (k i : Nat) : KeepsInv.Outc s (execRasUnitFence k i s) := by
  unfold Machine.execRasUnitFence
  exact .next (fenceUnit ..)

theorem release (k i : Nat) : KeepsInv s (s.release k i) := by
  unfold State.release
  exact .ite (putUnit ..) (.refl _)

theorem execRasUnitRelease (k i : Nat) : KeepsInv.Outc s (execRasUnitRelease k i s) := by
  unfold Machine.execRasUnitRelease
  exact .next (release ..)

theorem execUnitSelfTest (k i : Nat) (pass : Bool) : KeepsInv.Outc s (execUnitSelfTest k i pass s) := by
  unfold Machine.execUnitSelfTest
  exact .next (.ite (.refl _) (.ite (putUnit ..) (.ite (returnUnit ..) (putUnit ..))))

theorem execCeRateCheck : KeepsInv.Outc s (execCeRateCheck s) := by
  unfold Machine.execCeRateCheck
  exact .next (.after (.ite (raise ..) (.refl _)) (upd rfl))

theorem caughtBy (slice nsid : Nat) : KeepsInv s (s.caughtBy slice nsid) := by
  unfold State.caughtBy
  exact .opt
    (fun _ =>
      (.after
        (.foldl (fun _ _ => (.after (.ite (setStream ..) (.refl _)) (.foldl (fun _ _ => ((dropFrame ..).after (denyKey ..)))))))
        (.after
          (.foldl (fun _ _ => (.after (.ite (fin ..) (failWrite ..)) ((filterOps ..).after (denyKey ..)))))
          (.foldl (fun _ _ => ((failHeld ..).after (denyKey ..)))))))
    (.refl _)

theorem advanced (slice nsid gen : Nat) : KeepsInv s (s.advanced slice nsid gen) := by
  unfold State.advanced
  exact (sweepSlots ..).after ((caughtBy ..).after ((revoke ..).after (.ite (upd rfl) (putGen ..))))

theorem execCipherKnownAnswerTest (u : Nat) (pass : Bool) : KeepsInv.Outc s (execCipherKnownAnswerTest u pass s) := by
  unfold Machine.execCipherKnownAnswerTest
  exact .next (.after (.ite (fenceUnit ..) (.refl _)) (upd rfl))

theorem execRngFail : KeepsInv.Outc s (execRngFail s) := by
  unfold Machine.execRngFail
  exact .next (.after (.ite (.refl _) ((raise ..).after (wr ..))) (upd rfl))

theorem execRngFailClear (n : Nat) : KeepsInv.Outc s (execRngFailClear n s) := by
  unfold Machine.execRngFailClear
  exact .next (.ite (.refl _) (.ite ((wr ..).after (upd rfl)) (upd rfl)))

theorem keyAnswered (k : KeySlot) (ok : Bool) : KeepsInv s (s.keyAnswered k ok) := by
  unfold State.keyAnswered
  exact .after (.foldl (fun _ _ => (rerun ..))) (.foldl (fun _ _ => ((fin ..).after (denyKey ..))))

theorem execKeyDerivationDone (i : Nat) (equal : Bool) : KeepsInv.Outc s (execKeyDerivationDone i equal s) := by
  unfold Machine.execKeyDerivationDone
  exact .next
    (.opt
      (fun _ =>
        (.ite
          (.refl _)
          (.ite
            ((keyAnswered ..).after ((sweepSlots ..).after (putSlot ..)))
            (.ite ((keyAnswered ..).after ((keyFault ..).after (freeSlot ..))) ((keyAnswered ..).after (putSlot ..))))))
      (.refl _))

/-! ### The map cache -/

theorem writeLine (l : MLine) : KeepsInv s (s.writeLine l) := by
  unfold State.writeLine
  exact (writeBack ..).after (putLine ..)

theorem mcSettle : KeepsInv s s.mcSettle := by
  unfold State.mcSettle
  exact .ite ((wr ..).after (wr ..)) (.refl _)

theorem losePage (nsid page : Nat) : KeepsInv s (s.losePage nsid page) := by
  unfold State.losePage
  exact (raise ..).after ((jn ..).after (.foldl (fun _ _ => ((putMent ..).after (.ite (invalidate ..) (.refl _))))))

/-! ### Conventional rows (11 R253, R273) -/

theorem dropCRow (h : Nat) : KeepsInv s (s.dropCRow h) := by
  unfold State.dropCRow
  exact .opt (fun c => .ite (.after (b := s.freeRow ⟨true, h, 0⟩ c.row) (udLess rfl rfl) (freeRow ..)) (.refl _)) (.refl _)

/-! ### What a persistent entry lets proceed -/

theorem folded (r : RowId) (wl : Nat) : KeepsInv s (s.folded r wl) := by
  unfold State.folded
  exact .opt
    (fun _ => ((putRow ..).after (.after (.ite (zseq ..) (.refl _)) (.foldl (fun _ _ => (.foldl (fun _ _ => (staleBlk ..))))))))
    (.refl _)

theorem switchBlk (j : Reloc) : KeepsInv s (s.switchBlk j) := by
  unfold State.switchBlk
  exact .opt (fun _ => ((staleBlk ..).after ((moveTails ..).after (.after (upd rfl) (putRow ..))))) (staleBlk ..)

theorem mapCas (old seq : Nat) (m : Nat × Nat × Nat × Nat) : KeepsInv s (s.mapCas old seq m) := by
  unfold State.mapCas
  exact .ite (.after (upd rfl) (mapSet ..)) ((invalidate ..).after (inc ..))

/-! ### Reshape (07 R180, R181) -/

theorem reshapeSets : KeepsInv₁ s s.reshapeSets := by
  unfold State.reshapeSets
  exact .opt (fun _ => (.opt (fun _ => (.opt (fun _ => (.pair (upd rfl))) (.pair (.refl _)))) (.pair (.refl _)))) (.pair (.refl _))

theorem rebind (h : Nat) (sets : List Nat) (g : Grp) (sh : Bool) : KeepsInv s (s.rebind h sets g sh) := by
  unfold State.rebind
  exact .ite
    (.refl _)
    ((zseq ..).after
      ((wr ..).after
        ((wr ..).after
          ((wr ..).after
            ((wr ..).after
              ((wr ..).after
                ((putZx ..).after
                  (.after
                    (.foldl (fun _ _ => ((tailsWhole ..).after (stampNow ..))))
                    (.after (.foldl (fun _ _ => (partRow ..))) (newRows ..))))))))))

theorem rshpEnd : KeepsInv s s.rshpEnd := by
  unfold State.rshpEnd
  exact .opt (fun _ => (.ite (.refl _) ((jn ..).after (.after (upd rfl) (.after (upd rfl) (.ite (.refl _) (upd rfl))))))) (.refl _)

theorem rshpNext : KeepsInv s s.rshpNext := by
  unfold State.rshpNext
  exact .opt (fun _ => (.ite (.refl _) (.opt (fun _ => (.after (upd rfl) (bump ..))) (rshpEnd ..)))) (.refl _)

theorem zoneSwitched (h : Nat) (sets : List Nat) : KeepsInv s (s.zoneSwitched h sets) := by
  unfold State.zoneSwitched
  exact .opt
    (fun _ =>
      (.ite
        (rshpNext ..)
        (.opt
          (fun _ => ((rshpNext ..).after ((jnZone ..).after ((rebind ..).after (.after (upd rfl) (chargeBg ..))))))
          (.refl _))))
    (.refl _)

theorem relocated (id seq : Nat) : KeepsInv s (s.relocated id seq) := by
  unfold State.relocated
  exact .opt
    (fun _ =>
      (.after
        (.ite
          ((dropCRow ..).after (.foldl (fun _ _ => (mapCas ..))))
          (.ite
            (tailMoved ..)
            (.ite
              (zoneSwitched ..)
              (.ite
                (staleBlk ..)
                (.after
                  (.opt (fun _ => ((redo ..).after (.ite ((pageGood ..).after (pageProgrammed ..)) (wlGood ..)))) (.refl _))
                  (switchBlk ..))))))
        ((inc ..).after (upd rfl))))
    (.refl _)

theorem rebuilt (r : RowId) (m : Nat) : KeepsInv s (s.rebuilt r m) := by
  unfold State.rebuilt
  exact .after
    (.opt (fun _ => ((redo ..).after (.after (.ite (.refl _) (wlGood ..)) ((putRow ..).after (tailsWhole ..))))) (.refl _))
    (upd rfl)

theorem dirWritten (nsid page row unit : Nat) : KeepsInv s (s.dirWritten nsid page row unit) := by
  unfold State.dirWritten
  exact (mcSettle ..).after
    (.after
      (.opt (fun _ => (.ite (putLine ..) (.refl _))) (.refl _))
      (.after (upd rfl) (.opt (fun _ => (.foldl (fun _ _ => (invalidate ..)))) (.refl _))))

theorem ckptEnded (sq : Nat) : KeepsInv s (s.ckptEnded sq) := by
  unfold State.ckptEnded
  exact .opt
    (fun _ =>
      (.ite
        (.after
          (.opt (fun _ => (.ite (upd rfl) (.after (upd rfl) (jn ..)))) (.refl _))
          (.after (upd rfl) (.after (upd rfl) (upd rfl))))
        (.refl _)))
    (.refl _)

theorem jact (e : JEnt) : KeepsInv s (s.jact e) := by
  unfold State.jact
  split
  · exact .refl _
  · exact .foldl (fun _ _ => (staleBlk ..))
  · exact folded ..
  · exact advanced ..
  · exact relocated ..
  · exact rebuilt ..
  · exact dirWritten ..
  · exact ckptEnded ..

theorem persist (e : JEnt) : KeepsInv s (s.persist e) := by
  unfold State.persist
  exact (jact ..).after (.after (upd rfl) ((wr ..).after (wr ..)))

theorem persistReady (n : Nat) : KeepsInv s (State.persistReady n s) := by
  induction n generalizing s with
  | zero => exact refl s
  | succ n ih =>
    unfold State.persistReady
    split
    · exact refl s
    · exact .ite ((ih _).after (.after (.foldl (fun _ _ => persist ..)) (upd rfl))) (.refl _)

/-! ### Checkpoints (11 R267) -/

theorem ckptStart : KeepsInv s s.ckptStart := by
  unfold State.ckptStart
  exact .ite (.refl _) (.after (upd rfl) (jn ..))

theorem deviceFault (arg : Nat) : KeepsInv s (s.deviceFault arg) := by
  unfold State.deviceFault
  exact (raise ..).after (wr ..)

theorem tailFault (addr : Nat) : KeepsInv s (s.tailFault addr) := by
  unfold State.tailFault
  exact .after (.ite (.refl _) ((ckptStart ..).after (upd rfl))) ((deviceFault ..).after (sramUe ..))

theorem ckptFinish : KeepsInv s s.ckptFinish := by
  unfold State.ckptFinish
  exact .opt (fun _ => (.ite (jn ..) (.refl _))) (.refl _)

theorem jcommit : KeepsInv s s.jcommit := by
  unfold State.jcommit
  exact .ite (.refl _) (upd rfl)

/-! ### Reclamation (11 R272-R275) -/

theorem queueErase (d : Nat) (purp : Purp) (blk : Nat) : KeepsInv s (s.queueErase d purp blk) := by
  unfold State.queueErase
  exact enq ..

theorem gcMove (dg h : Nat) (e : Nat × MEnt) : KeepsInv₁ s (s.gcMove dg h e) := by
  unfold State.gcMove
  exact .optMem
    (fun _ h0 =>
      (.opt
        (fun _ =>
          (.pair ((progReady ..).after ((chargeBg ..).after ((stageAt ..).after (.after (upd rfl) ((openCRow ..).get h0)))))))
        (.pair ((openCRow ..).get h0))))
    (.pair (.refl _))

theorem collect (h : Nat) : KeepsInv s (s.collect h) := by
  unfold State.collect
  exact .opt (fun c => .ite (dropCRow ..) (.ite (.foldl (fun _ _ => writeBack ..))
    (.after (upd rfl) ((bump ..).after (fst (.foldl (fun _ _ => .pair (gcMove ..)))))))) (.refl _)

theorem refreshStart (b : Blk) : KeepsInv s (s.refreshStart b) := by
  unfold State.refreshStart
  split
  · exact .ite (tailMove ..) (.refl _)
  refine .ite (.refl _) (.optMem (fun p e => .after (upd rfl)
    ((bump ..).after ((chargeBg ..).after ((stampNow ..).after ((asTier ..).after ?_))))) (.refl _))
  refine OfSome₂.get ?_ e
  refine .optMem (fun q e => .some ((takeBlk ..).get e)) ⟨fun e => ?_⟩
  obtain ⟨d, -, e⟩ := Option.bind_eq_some_iff.1 e
  exact (takeBlk ..).get e

theorem execReclamation (d : Nat) : KeepsInv.Outc s (execReclamation d s) := by
  unfold Machine.execReclamation
  exact .next
    (.ite
      (.refl _)
      ((rshpNext ..).after
        (.after
          (.opt (fun _ => (.ite (.opt (fun _ => (collect ..)) (.refl _)) (.refl _))) (.refl _))
          (.after
            (.foldl (fun _ _ => (refreshStart ..)))
            (.after (.foldl (fun _ _ => (dropCRow ..))) (.opt (fun _ => (queueErase ..)) (.refl _)))))))

/-! ### Relocation (11 R270) -/

theorem journalMove (j : Reloc) : KeepsInv s (s.journalMove j) := by
  have h : KeepsInv₁ s (if j.kind = 4 then s.reshapeSets else (s, [])) := .ite (reshapeSets ..) (.pair (.refl _))
  unfold State.journalMove
  generalize (if j.kind = 4 then s.reshapeSets else (s, [])) = a at *
  dsimp only
  refine .after (b := a.1) ?_ h
  split
  · split
    · exact .after (jn ..) (upd rfl)
    · exact (jn ..).after (.after (.foldl (fun _ _ => jn ..)) (upd rfl))
  split
  · split
    · exact .after (jn ..) (upd rfl)
    · exact (jn ..).after (.after (.foldl (fun _ _ => jn ..)) (upd rfl))
  · exact .after (jn ..) (upd rfl)

theorem execRelocation (id : Nat) (ok : Bool) : KeepsInv.Outc s (execRelocation id ok s) := by
  unfold Machine.execRelocation
  exact .next
    (.opt
      (fun _ =>
        (.ite
          ((staleBlk ..).after (upd rfl))
          (.ite
            (.ite (.opt (fun _ => ((enq ..).after (upd rfl))) (journalMove ..)) (journalMove ..))
            (.ite
              (.after (.ite (refreshStart ..) (.opt (fun _ => (replaceBlk ..)) (.refl _))) ((badBlk ..).after (upd rfl)))
              (.ite ((tailSweep ..).after (.after (.opt (fun _ => (tailBad ..)) (.refl _)) (upd rfl))) (.refl _))))))
      (.refl _))

/-! ### Rebuild (07 R176) -/

theorem execRebuildStripe (conv : Bool) (h r m : Nat) : KeepsInv.Outc s (execRebuildStripe conv h r m s) := by
  refine .next ?_
  extract_lets rid
  split
  · exact .opt (fun g => .ite (.refl _) (.ite (.refl _) (.after (.ite (jn ..) (.refl _)) ((addw ..).after (.after (upd rfl)
      ((stampNow ..).after ((chargeBg ..).after (.ite (loseStripe ..) (.refl _)))))))))  (.refl _)
  · exact .refl _

theorem execSubstitutionDelayExpiry (d : Nat) : KeepsInv.Outc s (execSubstitutionDelayExpiry d s) := by
  unfold Machine.execSubstitutionDelayExpiry
  exact .next (.opt (fun _ => (.ite (substDie ..) (.refl _))) (.refl _))

/-! ### The staging overflow (06 R147) -/

theorem execStagingOverflowMove (conv : Bool) (h r w p : Nat) : KeepsInv.Outc s (execStagingOverflowMove conv h r w p s) := by
  refine .next ?_
  dsimp only
  split
  · exact .ite (.after (upd rfl) (charge ..)) (.refl _)
  · exact .refl _

theorem execJournalPageCommit (bad : Option Nat) : KeepsInv.Outc s (execJournalPageCommit bad s) := by
  unfold Machine.execJournalPageCommit
  exact .next (.after (.ite (jcommit ..) (.refl _)) (.opt (fun _ => (.ite (.refl _) (tailFault ..))) (.refl _)))

theorem execJournalPagePersist (i : Nat) : KeepsInv.Outc s (execJournalPagePersist i s) := by
  unfold Machine.execJournalPagePersist
  exact .next ((resumeDels ..).after ((persistReady ..).after (upd rfl)))

theorem execKeyGenerationAdvance (slice nsid : Nat) : KeepsInv.Outc s (execKeyGenerationAdvance slice nsid s) := by
  unfold Machine.execKeyGenerationAdvance
  exact .next (.ite (.refl _) ((revoke ..).after (sweepSlots ..)))

theorem execCheckpointStart : KeepsInv.Outc s (execCheckpointStart s) := by
  unfold Machine.execCheckpointStart
  exact .next (.ite (ckptStart ..) (.refl _))

theorem execCheckpointEnd : KeepsInv.Outc s (execCheckpointEnd s) := by
  unfold Machine.execCheckpointEnd
  exact .next (ckptFinish ..)

theorem execMapWriteback (nsid page : Nat) : KeepsInv.Outc s (execMapWriteback nsid page s) := by
  unfold Machine.execMapWriteback
  exact .next (.opt (fun _ => (.ite (writeLine ..) (.refl _))) (.refl _))

theorem execMapFillArrival (nsid page : Nat) (ok : Bool) : KeepsInv.Outc s (execMapFillArrival nsid page ok s) := by
  unfold Machine.execMapFillArrival
  exact .next
    (.opt
      (fun _ =>
        ((mcSettle ..).after
          (.after
            (.foldl (fun _ _ => (rerun ..)))
            (.after
              (.foldl (fun _ _ => (rerun ..)))
              (.ite ((inc ..).after (dropLine ..)) ((touch ..).after ((putLine ..).after (.ite (.refl _) (losePage ..)))))))))
      (.refl _))

theorem mcEnable (on : Bool) : KeepsInv s (s.mcEnable on) := by
  unfold State.mcEnable
  exact .ite
    (.ite (.refl _) (.ite (wr ..) ((wr ..).after ((wr ..).after (.after (upd rfl) (.foldl (fun _ _ => (writeBack ..))))))))
    (.ite ((mcSettle ..).after (.after (.foldl (fun _ _ => (writeLine ..))) ((wr ..).after (wr ..)))) (wr ..))

theorem execMcacheDisable : KeepsInv.Outc s (execMcacheDisable s) := by
  unfold Machine.execMcacheDisable
  exact .next (mcEnable ..)

theorem execMcacheEnable : KeepsInv.Outc s (execMcacheEnable s) := by
  unfold Machine.execMcacheEnable
  exact .next (mcEnable ..)

theorem invLine (l : MLine) : KeepsInv s (s.invLine l) := by
  unfold State.invLine
  exact .ite (putLine ..) ((dropLine ..).after (.ite (writeBack ..) (.refl _)))

theorem invAll : KeepsInv s s.invAll := by
  unfold State.invAll
  exact (mcSettle ..).after ((wr ..).after (.ite (upd rfl) (.foldl (fun _ _ => (invLine ..)))))

theorem execMcacheInvAll : KeepsInv.Outc s (execMcacheInvAll s) := by
  unfold Machine.execMcacheInvAll
  exact .next (invAll ..)

theorem invGo : KeepsInv s s.invGo := by
  unfold State.invGo
  exact .ite (wr ..) (invRange ..)

theorem execMcacheInvGo (count : Nat) : KeepsInv.Outc s (execMcacheInvGo count s) := by
  unfold Machine.execMcacheInvGo
  exact .next ((invGo ..).after (wr ..))

/-! ### Power-limit steps (18 R405-R407) -/

theorem lean : KeepsInv s s.lean := by
  unfold State.lean
  exact .ite (.refl _) ((wr ..).after (.ite (inc ..) (.refl _)))

theorem moveStep (n rsn : Nat) : KeepsInv s (s.moveStep n rsn) := by
  unfold State.moveStep
  exact (raise ..).after ((settleStep ..).after ((lean ..).after ((wr ..).after (wr ..))))

theorem stepUp : KeepsInv s s.stepUp := by
  unfold State.stepUp
  exact .ite (.refl _) (.ite (moveStep ..) (.ite (wr ..) (.refl _)))

/-! ### Doze and Nap (18 R395, R399; 13 R307; 15 R344) -/

theorem hopsIn {s : State} {sts : List Nat} {f : State → Nat → Nat → State} (h : ∀ m x1 x2, KeepsInv m (f m x1 x2)) :
    KeepsInv s (s.hopsIn sts f) := by
  unfold State.hopsIn
  exact .foldl (fun _ _ => (.foldl (fun _ _ => (.ite (h _ _ _) (.refl _)))))

theorem hopQuiet (l h : Nat) : KeepsInv s (s.hopQuiet l h) := by
  unfold State.hopQuiet
  exact (setHop ..).after (putHop ..)

theorem hopBack (l h : Nat) : KeepsInv s (s.hopBack l h) := by
  unfold State.hopBack
  exact (burst ..).after (burst ..)

theorem napPorts : KeepsInv s s.napPorts := by
  unfold State.napPorts
  exact .foldl (fun _ _ => (.foldl (fun _ _ => (.ite (setLink ..) (phyOff ..)))))

theorem latchModes : KeepsInv s s.latchModes := by
  unfold State.latchModes
  exact upd rfl

theorem rest (st : Nat) : KeepsInv s (s.rest st) := by
  unfold State.rest
  exact .after
    (.ite (hopsIn (fun _ _ _ => (hopQuiet ..))) ((napPorts ..).after (hopsIn (fun _ _ _ => (hopDown ..)))))
    ((wr ..).after ((inc ..).after ((wr ..).after (.after (upd rfl) ((latchModes ..).after (drcDrain ..))))))

theorem wakeRecord (code idx rsn st ns : Nat) : KeepsInv s (s.wakeRecord code idx rsn st ns) := by
  unfold State.wakeRecord
  exact (wr ..).after ((wr ..).after ((wr ..).after ((wr ..).after (wr ..))))

theorem trainDown : KeepsInv s s.trainDown := by
  unfold State.trainDown
  exact hopsIn (fun _ _ _ => (.ite (setHop ..) (.refl _)))

theorem unrest : KeepsInv s s.unrest := by
  unfold State.unrest
  exact (settleStep ..).after
    ((lean ..).after
      ((wr ..).after
        (.after
          (.ite (trainDown ..) (.refl _))
          (.after (upd rfl) ((hopsIn (fun _ _ _ => (hopBack ..))).after ((setMv ..).after (upd rfl)))))))

theorem stopNow : KeepsInv s s.stopNow := by
  unfold State.stopNow
  exact (stopFlush ..).after (.ite (trainDown ..) (.refl _))

theorem wakeUp (code idx rsn : Nat) (frame : Bool) : KeepsInv s (s.wakeUp code idx rsn frame) := by
  unfold State.wakeUp
  exact .ite ((unrest ..).after ((edge ..).after ((wakeRecord ..).after (.ite (pauseAll ..) (.refl _))))) (.refl _)

theorem work : KeepsInv s s.work := by
  unfold State.work
  exact .after (upd rfl) (wakeUp ..)

theorem frameWake : KeepsInv s s.frameWake := by
  unfold State.frameWake
  exact .ite (wakeUp ..) (.refl _)

theorem tolCheck : KeepsInv s s.tolCheck := by
  unfold State.tolCheck
  exact .ite (unrest ..) (.refl _)

/-! ### The persistent CXL window's image (06 R160) -/

theorem saveGranule (g : Nat) : KeepsInv s (s.saveGranule g) := by
  unfold State.saveGranule
  exact upd rfl

/-! ### Jack (18 R401) -/

theorem jackSave : KeepsInv s s.jackSave := by
  unfold State.jackSave
  exact .after
    (.foldl (fun _ _ => (saveGranule ..)))
    (.after (upd rfl) (.after (.foldl (fun _ _ => (writeLine ..))) ((ckptStart ..).after (upd rfl))))

theorem jackImage : KeepsInv s s.jackImage := by
  unfold State.jackImage
  exact .after (upd rfl) (.after (upd rfl) (.after (upd rfl) (startImage ..)))

theorem jackOff : KeepsInv s s.jackOff := by
  unfold State.jackOff
  exact .after
    (upd rfl)
    ((faultFree ..).after
      ((send ..).after
        ((inc ..).after ((send ..).after ((latchModes ..).after ((physOff ..).after (.foldl (fun _ _ => (send ..)))))))))

/-! ### Meanings of Capture Stream Management -/

theorem execCaptureStreamCreate (o : Org) (cid act k : Nat) (desc : List Nat) : KeepsInv.Outc s (execCaptureStreamCreate o cid act k desc s) := by
  refine .next (.ite (.refl _) (admin (fun s => .ite (adm ..) (.ite (adm ..) ?_))))
  split
  · exact adm ..
  · exact (adm ..).after (.after (.opt (fun _ => .ite (.after (putQp ..) (.ite (addw ..) (.refl _))) (.refl _)) (.refl _)) (putStream ..))
  · exact adm ..

theorem execCaptureStreamModify (o : Org) (cid k : Nat) (desc : List Nat) : KeepsInv.Outc s (execCaptureStreamModify o cid k desc s) := by
  refine .next (admin (fun s => ?_))
  split
  · exact adm ..
  · exact adm ..
  · split
    · exact adm ..
    · exact adm ..
    · exact .ite (adm ..) ((adm ..).after (.after (.ite (.refl _)
        (.foldl (fun _ _ => .ite ((wr ..).after (wr ..)) (.refl _)))) (putStream ..)))

theorem execCaptureStreamStart (o : Org) (cid k : Nat) : KeepsInv.Outc s (execCaptureStreamStart o cid k s) := by
  refine .next (admin (fun s => ?_))
  split
  · exact adm ..
  · exact adm ..
  · exact .after (.ite ((adm ..).after (draw ..)) (adm ..)) (.after (.opt (fun _ => .ite (setZst ..) (.refl _)) (openIdx ..))
      (.after (.opt (fun _ => .foldl (fun _ _ => .ite (setZst ..) (.refl _))) (openSet ..)) (putStream ..)))

theorem execCaptureStreamStop (o : Org) (cid k : Nat) : KeepsInv.Outc s (execCaptureStreamStop o cid k s) := by
  refine .next (admin (fun s => ?_))
  split
  · exact adm ..
  · exact adm ..
  · exact .ite (adm ..) ((goOn ..).after ((closeAll ..).after ((dropMsg ..).after (putStream ..))))

theorem execCaptureStreamDelete (o : Org) (cid k : Nat) : KeepsInv.Outc s (execCaptureStreamDelete o cid k s) := by
  unfold Machine.execCaptureStreamDelete
  exact .next
    (admin
      (fun _ =>
        (.opt
          (fun _ => (adm ..))
          (.after
            (.opt
              (fun _ =>
                ((adm ..).after
                  (.after
                    (.opt (fun _ => (.ite (putQp ..) (.refl _))) (.refl _))
                    (.after (upd rfl) (.foldl (fun _ _ => ((holdBy ..).after (.ite (becomeFull ..) (.refl _)))))))))
              (adm ..))
            (writeAllIdx ..)))))

/-! ### Datagrams and messages -/

theorem discard (k i : Nat) : KeepsInv s (s.discard k i) := by
  unfold State.discard
  exact .opt (fun _ => (putStream ..)) (.refl _)

theorem accept (k : Nat) (x : Stream) (f : Frame) (off : Nat) (d : List Nat) (t : RxStamp) : KeepsInv s (s.accept k x f off d t) := by
  unfold State.accept
  exact (place ..).after ((putStream ..).after (.ite (charge ..) (.refl _)))

theorem takeData (k : Nat) (h : IftHdr) (d : List Nat) (t : RxStamp) : KeepsInv s (s.takeData k h d t) := by
  unfold State.takeData
  exact .opt
    (fun _ =>
      (.after
        (.opt
          (fun _ =>
            (.after
              (.ite
                (discard ..)
                (.ite
                  (discard ..)
                  (.ite
                    (discard ..)
                    (.ite
                      (accept ..)
                      (.opt
                        (fun _ =>
                          (.ite
                            (.after
                              (.opt (fun _ => (.ite (accept ..) (discard ..))) (.refl _))
                              ((goOn ..).after (closePart ..)))
                            (discard ..)))
                        (discard ..))))))
              (putStream ..)))
          (.refl _))
        (.ite (closeAll ..) (.refl _))))
    (.refl _)

theorem ingest (n bytes : Nat) : KeepsInv s (s.ingest n bytes) := by
  unfold State.ingest
  exact .after (upd rfl) (putSx ..)

theorem arrive (k : Nat) : KeepsInv s (s.arrive k) := by
  unfold State.arrive
  exact .opt (fun _ => (.after (.ite (setStream ..) (.refl _)) (putStream ..))) (.refl _)

theorem bufferRx (p u : Nat) (i : RxItem) : KeepsInv s (s.bufferRx p u i) := by
  unfold State.bufferRx
  exact .ite (inc ..) (upd rfl)

theorem takeDgram (p u ip vlan udp src ulen : Nat) (b : List Nat) (t : RxStamp) : KeepsInv s (s.takeDgram p u ip vlan udp src ulen b t) := by
  unfold State.takeDgram
  exact .ite
    (inc ..)
    (.opt
      (fun _ =>
        (.ite
          (discard ..)
          (.ite
            (discard ..)
            (.ite
              (discard ..)
              (.ite
                (discard ..)
                (.ite
                  ((discard ..).after (setStream ..))
                  (.ite
                    (discard ..)
                    (.ite (.refl _) (.ite (bufferRx ..) ((takeData ..).after ((arrive ..).after (ingest ..))))))))))))
      (.ite (inc ..) (dropRx ..)))

theorem rxIn (p u dst ip vlan bytes : Nat) (arp : Bool) : KeepsInv₁ s (s.rxIn p u dst ip vlan bytes arp) := by
  unfold State.rxIn
  exact .ite (.pair ((frameWake ..).after (rxOk ..))) (rxOk ..)

theorem qpIn {s : State} {n : Nat} {f : Qp → State → State} (h : ∀ x0 m, KeepsInv m (f x0 m)) : KeepsInv s (s.qpIn n f) := by
  unfold State.qpIn
  exact onQp (fun _ _ => ((h _ _).after (frameWake ..)))

theorem dgramIn (p u dst ip vlan udp src ulen : Nat) (b : List Nat) : KeepsInv s (s.dgramIn p u dst ip vlan udp src ulen b) := by
  unfold State.dgramIn
  exact .ite (rxIn ..) ((takeDgram ..).after (rxIn ..))

theorem takeMsg (qp addr : Nat) (imm : Option Nat) (more : Bool) (d : List Nat) (t : RxStamp) : KeepsInv s (s.takeMsg qp addr imm more d t) := by
  unfold State.takeMsg
  exact .opt
    (fun _ =>
      (.opt
        (fun _ =>
          (.ite
            ((discard ..).after (.opt (fun _ => (putStream ..)) (.refl _)))
            (.ite
              ((discard ..).after (.opt (fun _ => (putStream ..)) (.refl _)))
              (.ite
                ((discard ..).after (.opt (fun _ => ((putStream ..).after (setStream ..))) (setStream ..)))
                (.ite
                  ((discard ..).after (.opt (fun _ => (putStream ..)) (.refl _)))
                  (.ite
                    (.refl _)
                    (.ite
                      (bufferRx ..)
                      (.after
                        (.ite
                          (.opt (fun _ => (putStream ..)) (.refl _))
                          (.after
                            (.opt (fun _ => (.ite (discard ..) (takeData ..))) (discard ..))
                            (.opt (fun _ => (putStream ..)) (.refl _))))
                        ((arrive ..).after (ingest ..))))))))))
        (.refl _)))
    (.refl _)

theorem execRdmaWriteWithImmediate (qp addr : Nat) (imm : Option Nat) (more : Bool) (d : List Nat) :
    KeepsInv.Outc s (execRdmaWriteWithImmediate qp addr imm more d s) := by
  unfold Machine.execRdmaWriteWithImmediate
  exact .next (qpIn (fun _ _ => (.ite (.refl _) (.ite (inc ..) (takeMsg ..)))))

theorem drainRx : KeepsInv s s.drainRx := by
  unfold State.drainRx
  refine .after (.foldl (fun s i => ?_)) (upd rfl)
  cases i
  · exact takeDgram ..
  · exact takeMsg ..

theorem captureEpoch : KeepsInv s s.captureEpoch := by
  unfold State.captureEpoch
  exact .after (.foldl (fun _ _ => ((goOn ..).after (unblock ..)))) (drainRx ..)

theorem execStallTimeout (k : Nat) : KeepsInv.Outc s (execStallTimeout k s) := by
  unfold Machine.execStallTimeout
  exact .next
    (.opt
      (fun _ =>
        (.after
          (.opt (fun _ => (.ite (setStream ..) (.refl _))) (.refl _))
          (.after (.foldl (fun _ _ => ((place ..).after (closePart ..)))) (.ite (dropMsg ..) (.refl _)))))
      (.refl _))

theorem execFrameCommit (k : Nat) : KeepsInv.Outc s (execFrameCommit k s) := by
  unfold Machine.execFrameCommit
  exact .next ((stopEnd ..).after ((commitFrame ..).after (place ..)))

theorem execIndexBlockWrite (k : Nat) : KeepsInv.Outc s (execIndexBlockWrite k s) := by
  unfold Machine.execIndexBlockWrite
  exact .next (.opt (fun _ => (.ite (writeIdx ..) (.refl _))) (.refl _))

/-! ### Frame Read (05 R139) -/

theorem execFrameRead (q cid nsid lba slot blen : Nat) (lr : Bool) (addr : Nat) :
    KeepsInv.Outc s (execFrameRead q cid nsid lba slot blen lr addr s) := by
  refine .next (.ite (.refl _) (.beg (fun _ => .refl _) (fun t c x n => .after (.ite (dmaEnd (fun _ => fin ..)) ?_) (dma ..)) (beginZone ..)))
  dsimp only
  split
  · exact (fin ..).after (fst (.ite (keyReq ..) (.pair (.refl _))))
  · exact (putCmd ..).after (fst (.ite (keyReq ..) (.pair (.refl _))))
  · exact (issueRead ..).after (fst (.ite (keyReq ..) (.pair (.refl _))))

theorem dmaStop : KeepsInv s s.dmaStop := by
  unfold State.dmaStop
  exact .foldl (fun _ _ => (.ite (wr ..) (.refl _)))

theorem pupStop : KeepsInv s s.pupStop := by
  unfold State.pupStop
  exact (sweepDrop ..).after
    (.after
      (upd rfl)
      ((wr ..).after
        ((dmaStop ..).after ((raiseMv ..).after ((faultFlush ..).after ((raise ..).after ((faultLow ..).after (wr ..))))))))

theorem takeOverPup (rsn : Nat) (pass : Bool) : KeepsInv s (s.takeOverPup rsn pass) := by
  unfold State.takeOverPup
  exact (raise ..).after
    (.after
      (upd rfl)
      ((sweepDrop ..).after
        ((wr ..).after
          ((wr ..).after
            ((wr ..).after ((inc ..).after ((wr ..).after ((redeliver ..).after ((dmaStop ..).after (setMv ..))))))))))

theorem rollback : KeepsInv s s.rollback := by
  unfold State.rollback
  exact .after
    (.opt (fun _ => ((adm ..).after ((wr ..).after ((wr ..).after (upd rfl))))) (.refl _))
    ((raise ..).after (.after (upd rfl) ((wr ..).after ((wr ..).after ((redeliver ..).after (wr ..))))))

theorem failover (rsn : Nat) (pass : Bool) : KeepsInv s (s.failover rsn pass) := by
  unfold State.failover
  exact .ite (.refl _) (.ite (rollback ..) (.ite (pupStop ..) (takeOverPup ..)))

/-! ### Refresh and temperature (15 R335, R336) -/

theorem putRank (i : Nat) (r : Rank) : KeepsInv s (s.putRank i r) := by
  unfold State.putRank
  exact upd rfl

theorem refreshOne (ch rk : Nat) : KeepsInv s (s.refreshOne ch rk) := by
  unfold State.refreshOne
  exact .ite ((putRank ..).after (send ..)) (send ..)

theorem execDramRefresh (ch rk : Nat) (busy : Bool) : KeepsInv.Outc s (execDramRefresh ch rk busy s) := by
  unfold Machine.execDramRefresh
  exact .next (.ite (.refl _) (.ite (putRank ..) (.after (.foldl (fun _ _ => (refreshOne ..))) (putRank ..))))

theorem mr4Rank (i : Nat) (above85 : Bool) : KeepsInv s (s.mr4Rank i above85) := by
  unfold State.mr4Rank
  exact .ite (putRank ..) (.ite (.ite (putRank ..) (putRank ..)) (.refl _))

theorem execMr4Poll (ch : Nat) (reps : List (Nat × Bool × Bool)) : KeepsInv.Outc s (execMr4Poll ch reps s) := by
  unfold Machine.execMr4Poll
  exact .next
    (.ite
      (.refl _)
      (.after
        (.ite ((stepUp ..).after (raise ..)) (.refl _))
        (.after (upd rfl) ((wr ..).after ((wr ..).after (.foldl (fun _ _ => (mr4Rank ..))))))))

/-! ### Activations (15 R337, R338) -/

theorem rfm (ch bank : Nat) : KeepsInv s (s.rfm ch bank) := by
  unfold State.rfm
  exact send ..

theorem execDramActivate (dpa : Nat) (due : Bool) : KeepsInv.Outc s (execDramActivate dpa due s) := by
  unfold Machine.execDramActivate
  exact .next
    (.after
      (.ite ((inc ..).after (rfm ..)) (.refl _))
      (.after (.ite ((inc ..).after (rfm ..)) (.refl _)) (.after (upd rfl) (upd rfl))))

theorem execActivationTableClear (ch rk : Nat) : KeepsInv.Outc s (execActivationTableClear ch rk s) := by
  unfold Machine.execActivationTableClear
  exact .next (.ite (.refl _) ((putRank ..).after (upd rfl)))

theorem execDramScrubRead (room outcome sym region a b : Nat) : KeepsInv.Outc s (execDramScrubRead room outcome sym region a b s) := by
  unfold Machine.execDramScrubRead
  exact .next (.ite (.refl _) ((drcRequest ..).after (.after (.ite (chargeBg ..) (.refl _)) ((wr ..).after (upd rfl)))))

/-! ### Features (18 R398, R413) -/

theorem execSetFeaturesPowerManagement (o : Org) (cid ps : Nat) : KeepsInv.Outc s (execSetFeaturesPowerManagement o cid ps s) := by
  unfold Machine.execSetFeaturesPowerManagement
  exact .next
    (admin
      (fun _ =>
        (.ite (adm ..) (.ite (adm ..) ((adm ..).after (.after (.ite ((stepUp ..).after (upd rfl)) (.refl _)) (wr ..)))))))

theorem execSetFeaturesApst (o : Org) (cid : Nat) (en : Bool) (ents : List (Nat × Nat)) :
    KeepsInv.Outc s (execSetFeaturesApst o cid en ents s) := by
  unfold Machine.execSetFeaturesApst
  exact .next (admin (fun _ => (.ite (adm ..) ((adm ..).after (upd rfl)))))

theorem execSetFeaturesTempThreshold (o : Org) (cid sensor : Nat) (under : Bool) (kelvin : Nat) :
    KeepsInv.Outc s (execSetFeaturesTempThreshold o cid sensor under kelvin s) := by
  unfold Machine.execSetFeaturesTempThreshold
  exact .next (admin (fun _ => (.ite (adm ..) ((critCheck ..).after ((adm ..).after (upd rfl))))))

/-! ### The voltage loop (01 R19, R20) -/

theorem takePaces (l : List Nat) : KeepsInv s (s.takePaces l) := by
  unfold State.takePaces
  exact (wr ..).after ((wr ..).after ((wr ..).after (.foldl (fun _ _ => ((wr ..).after (wr ..))))))

theorem paceLow (m : Nat × Nat) : KeepsInv s (s.paceLow m) := by
  unfold State.paceLow
  exact .after (.ite ((stepUp ..).after (upd rfl)) (.refl _)) (.after (upd rfl) (raise ..))

theorem raise5 : KeepsInv s s.raise5 := by
  unfold State.raise5
  exact .ite (.refl _) (setMv ..)

theorem loop (m : Nat) : KeepsInv s (s.loop m) := by
  unfold State.loop
  exact .ite
    (.after (.ite (.refl _) (.after (.foldl (fun _ _ => (raise5 ..))) (upd rfl))) (upd rfl))
    (.ite (.opt (fun _ => (.ite ((setMv ..).after (upd rfl)) (.refl _))) (upd rfl)) (upd rfl))

theorem execVoltageLoopTick (paces : List Nat) : KeepsInv.Outc s (execVoltageLoopTick paces s) := by
  unfold Machine.execVoltageLoopTick
  exact .next
    (.ite
      (.refl _)
      (.after (.ite (.refl _) (loop ..)) ((settleStep ..).after (.after (.ite (paceLow ..) (.refl _)) (takePaces ..)))))

/-! ### The regulator (16 R362, R363) -/

theorem vregFailed (status : Nat) : KeepsInv s (s.vregFailed status) := by
  unfold State.vregFailed
  exact (stepUp ..).after ((raise ..).after ((wr ..).after (upd rfl)))

theorem vregRead (mv iout status : Nat) : KeepsInv s (s.vregRead mv iout status) := by
  unfold State.vregRead
  exact (wr ..).after (upd rfl)

theorem execRegulatorPoll (ok : Bool) (mv iout status : Nat) : KeepsInv.Outc s (execRegulatorPoll ok mv iout status s) := by
  unfold Machine.execRegulatorPoll
  exact .next
    (.ite
      (.refl _)
      (.ite (.after (.ite (vregFailed ..) (.refl _)) ((vregRead ..).after (upd rfl))) (.ite (vregFailed ..) (upd rfl))))

theorem execRegulatorRetry (ok : Bool) (mv iout status : Nat) : KeepsInv.Outc s (execRegulatorRetry ok mv iout status s) := by
  unfold Machine.execRegulatorRetry
  exact .next
    (.ite
      (.refl _)
      (.after (.ite (upd rfl) (.ite ((wr ..).after (upd rfl)) (upd rfl))) (.after (.ite (vregRead ..) (.refl _)) (upd rfl))))

/-! ### On-die sensors (18 R407-R409, R412) -/

theorem crossCheck (raw : List ℤ) (failed : List Nat) (i : Nat) : KeepsInv s (s.crossCheck raw failed i) := by
  unfold State.crossCheck
  exact .after
    (.ite (.refl _) (.ite (.ite ((raise ..).after ((wr ..).after (wr ..))) ((wr ..).after (wr ..))) ((wr ..).after (wr ..))))
    (wr ..)

theorem trip (i : Nat) : KeepsInv s (s.trip i) := by
  unfold State.trip
  exact .ite (.refl _) (.after (.ite (tripEnd ..) (stopNow ..)) ((raise ..).after (upd rfl)))

theorem heat (eff : List ℤ) : KeepsInv s (s.heat eff) := by
  unfold State.heat
  exact .after
    (.opt (fun _ => (trip ..)) (.refl _))
    (.after
      (upd rfl)
      (.after
        (.ite (.refl _) ((stepUp ..).after (wr ..)))
        ((wr ..).after ((wr ..).after ((wr ..).after (.foldl (fun _ _ => (wr ..))))))))

theorem execSensorConversion (raw : List ℤ) : KeepsInv.Outc s (execSensorConversion raw s) := by
  unfold Machine.execSensorConversion
  exact .next (.ite (.refl _) ((critCheck ..).after ((heat ..).after (.foldl (fun _ _ => (crossCheck ..))))))

/-! ### Remote inputs (18 R410, R411) -/

theorem tsOut (n : Nat) : KeepsInv s (s.tsOut n) := by
  unfold State.tsOut
  exact .after (.ite (.refl _) ((raise ..).after ((wr ..).after (wr ..)))) (upd rfl)

theorem tsIn (n : Nat) (t : ℤ) : KeepsInv s (s.tsIn n t) := by
  unfold State.tsIn
  exact .after (.ite ((wakeUp ..).after (edge ..)) (.refl _)) ((wr ..).after ((wr ..).after (wr ..)))

theorem execRemoteConversion (n : Nat) (t : ℤ) : KeepsInv.Outc s (execRemoteConversion n t s) := by
  unfold Machine.execRemoteConversion
  exact .next
    (.ite
      (.refl _)
      ((critCheck ..).after
        ((stepUp ..).after (.ite (tsOut ..) (.ite (.ite ((tsIn ..).after (upd rfl)) (upd rfl)) (tsIn ..))))))

theorem tsSet (n : Nat) : KeepsInv s (s.tsSet n) := by
  unfold State.tsSet
  exact (stepUp ..).after (.ite ((wr ..).after ((wr ..).after ((wr ..).after (upd rfl)))) (.ite (wr ..) (.ite (wr ..) (.refl _))))

/-! ### Falling back (18 R406, R407) -/

theorem execThermalStepFallback : KeepsInv.Outc s (execThermalStepFallback s) := by
  unfold Machine.execThermalStepFallback
  exact .next (.ite (.refl _) (.after (.ite ((moveStep ..).after (upd rfl)) (upd rfl)) (.ite (wr ..) (.refl _))))

theorem execPaceLowFallback : KeepsInv.Outc s (execPaceLowFallback s) := by
  unfold Machine.execPaceLowFallback
  exact .next (.ite (upd rfl) (.refl _))

theorem execOverrunStep : KeepsInv.Outc s (execOverrunStep s) := by
  unfold Machine.execOverrunStep
  exact .next
    (.ite
      (.refl _)
      (.ite
        (.after (.opt (fun _ => (.ite ((stepUp ..).after (upd rfl)) (.refl _))) (upd rfl)) (upd rfl))
        (.after (.opt (fun _ => (.ite (upd rfl) (.refl _))) (upd rfl)) (upd rfl))))

/-! ### Power states (18 R396-R404; 13 R308) -/

theorem apst : KeepsInv s s.apst := by
  unfold State.apst
  exact .opt (fun _ => (.ite (wr ..) (.refl _))) (.refl _)

theorem execIdleEntry : KeepsInv.Outc s (execIdleEntry s) := by
  unfold Machine.execIdleEntry
  exact .next (.ite ((rest ..).after (.ite (apst ..) (.refl _))) (.refl _))

theorem execDozeNapExit (code idx rsn : Nat) : KeepsInv.Outc s (execDozeNapExit code idx rsn s) := by
  unfold Machine.execDozeNapExit
  exact .next (wakeUp ..)

theorem execJackEntry (fall : Bool) : KeepsInv.Outc s (execJackEntry fall s) := by
  unfold Machine.execJackEntry
  exact .next
    (.ite
      (.after
        (.ite
          ((stopNow ..).after ((edge ..).after (.after (upd rfl) (jackSave ..))))
          ((jackOff ..).after ((jackImage ..).after (jackSave ..))))
        (.ite (apst ..) (.refl _)))
      (.refl _))

theorem wakeSrc (code idx ns : Nat) : KeepsInv s (s.wakeSrc code idx ns) := by
  unfold State.wakeSrc
  exact .ite (.ite ((send ..).after (upd rfl)) (.refl _)) (wakeUp ..)

theorem execWakeEvent (code idx ns : Nat) : KeepsInv.Outc s (execWakeEvent code idx ns s) := by
  unfold Machine.execWakeEvent
  exact .next (wakeSrc ..)

theorem execWakeFrame (p u dst : Nat) (b : List Nat) : KeepsInv.Outc s (execWakeFrame p u dst b s) := by
  unfold Machine.execWakeFrame
  exact .next (.ite (.refl _) (.ite (wakeUp ..) (.ite (dropRx ..) (.refl _))))

/-! ### Functions (14 R313, R314, R325) -/

theorem endFnQueues (n : Nat) : KeepsInv s (s.endFnQueues n) := by
  unfold State.endFnQueues
  exact .after
    (.ite (upd rfl) (dropCtl ..))
    (.after (upd rfl) (.after (upd rfl) (.after (.foldl (fun _ _ => (removeQueue ..))) (queueResets ..))))

theorem ctlReset (n : Nat) : KeepsInv s (s.ctlReset n) := by
  unfold State.ctlReset
  exact .opt (fun _ => ((endFnQueues ..).after (putFn ..))) (.refl _)

theorem fnReset (n : Nat) : KeepsInv s (s.fnReset n) := by
  unfold State.fnReset
  exact .after (.opt (fun _ => (putFn ..)) (.refl _)) (ctlReset ..)

theorem vfOff (pf : Nat) : KeepsInv s (s.vfOff pf) := by
  unfold State.vfOff
  exact .after
    (.opt (fun _ => (putFn ..)) (.refl _))
    ((wr ..).after ((wr ..).after (.foldl (fun _ _ => (.after (upd rfl) (fnReset ..))))))

theorem pfReset (pf : Nat) : KeepsInv s (s.pfReset pf) := by
  unfold State.pfReset
  exact .after (.ite (upd rfl) (.refl _)) ((fnReset ..).after (vfOff ..))

theorem tryAll : KeepsInv s s.tryAll := by
  unfold State.tryAll
  exact .foldl (fun _ _ => (tryReady ..))

/-! ### Links (14 R312, R325, R326) -/

theorem linkOn (l speed width : Nat) (flit cxl : Bool) : KeepsInv s (s.linkOn l speed width flit cxl) := by
  unfold State.linkOn
  exact .after (.ite (wr ..) (.refl _)) ((wr ..).after ((wr ..).after ((wr ..).after ((wr ..).after (wr ..)))))

theorem linkOff (l : Nat) : KeepsInv s (s.linkOff l) := by
  unfold State.linkOff
  exact .after (.ite (wr ..) (.refl _)) ((wr ..).after ((wr ..).after ((wr ..).after ((wr ..).after (wr ..)))))

theorem pcxWarm : KeepsInv s s.pcxWarm := by
  unfold State.pcxWarm
  exact (clr ..).after
    ((clr ..).after ((clr ..).after (.foldl (fun _ _ => ((clr ..).after ((clr ..).after ((clr ..).after (clr ..))))))))

theorem cxlMiss (n : Nat) (perm : Bool) (addr : Nat) (wr : Bool) : KeepsInv s (s.cxlMiss n perm addr wr) := by
  unfold State.cxlMiss
  exact (raise ..).after (logFlt ..)

theorem cxlResolve (hpa : Nat) (wr : Bool) : KeepsInv₁ s (s.cxlResolve hpa wr) := by
  unfold State.cxlResolve
  exact .opt
    (fun _ =>
      (.ite
        (.pair (cxlMiss ..))
        (.opt (fun _ => (.ite (.pair (inc ..)) (.ite (.pair (.refl _)) (.pair (cxlMiss ..))))) (.pair (cxlMiss ..)))))
    (.pair (cxlMiss ..))

theorem wbStart (g : Nat) : KeepsInv s (s.wbStart g) := by
  unfold State.wbStart
  exact .ite (.refl _) (.after (upd rfl) (charge ..))

theorem gpfCheck : KeepsInv s s.gpfCheck := by
  unfold State.gpfCheck
  exact .ite ((send ..).after (upd rfl)) (.refl _)

theorem wbDone (g : Nat) : KeepsInv s (s.wbDone g) := by
  unfold State.wbDone
  exact (gpfCheck ..).after ((freeHeld ..).after (.after (upd rfl) (.ite (saveGranule ..) (.refl _))))

theorem execCxlMemRead (hpa room err sym : Nat) : KeepsInv.Outc s (execCxlMemRead hpa room err sym s) := by
  refine .next (.ite (.refl _) ?_)
  extract_lets a
  have h : KeepsInv s a.1 := (cxlResolve ..).after (work s)
  split
  · exact (send ..).after h
  · exact (drcRequest ..).after h

theorem execCxlMemWrite (hpa data mask room err sym : Nat) : KeepsInv.Outc s (execCxlMemWrite hpa data mask room err sym s) := by
  refine .next (.ite (.refl _) ?_)
  extract_lets a
  have h : KeepsInv s a.1 := (cxlResolve ..).after (work s)
  split
  · exact (send ..).after h
  · exact (drcRequest ..).after h

theorem execCxlGranuleWriteback (g : Nat) (done : Bool) : KeepsInv.Outc s (execCxlGranuleWriteback g done s) := by
  unfold Machine.execCxlGranuleWriteback
  exact .next (.ite (wbDone ..) (wbStart ..))

theorem execGpfPhase1 : KeepsInv.Outc s (execGpfPhase1 s) := by
  unfold Machine.execGpfPhase1
  exact .next (.ite (send ..) (.refl _))

theorem execGpfPhase2 : KeepsInv.Outc s (execGpfPhase2 s) := by
  unfold Machine.execGpfPhase2
  exact .next (.ite (.refl _) ((gpfCheck ..).after (.after (.foldl (fun _ _ => (wbStart ..))) (upd rfl))))

theorem execHdmDecoderCommit (base size : Nat) : KeepsInv.Outc s (execHdmDecoderCommit base size s) := by
  unfold Machine.execHdmDecoderCommit
  exact .next (.ite (upd rfl) (.refl _))

/-! ### Lane map, DRAM, regulator, presets (13 R295; 14 R312, R313, R321; 15 R329, R332; 17 R379, R380) -/

theorem preset (e : Nat × Nat) : KeepsInv s (s.preset e) := by
  unfold State.preset
  exact .foldl (fun _ _ => (wr ..))

/-! ### The structural checks of step 6 (17 R378-R380) -/

theorem execTimerArm (n cmp period : Nat) (periodic : Bool) : KeepsInv.Outc s (execTimerArm n cmp period periodic s) := by
  unfold Machine.execTimerArm
  exact .next (.ite (.refl _) ((wr ..).after ((wr ..).after ((wr ..).after (wr ..)))))

theorem execTimerExpiry (n : Nat) : KeepsInv.Outc s (execTimerExpiry n s) := by
  unfold Machine.execTimerExpiry
  exact .next (.ite (.refl _) ((latch ..).after (.ite (addw ..) (wr ..))))

theorem execMailboxPop : KeepsInv.Outc s (execMailboxPop s) := by
  unfold Machine.execMailboxPop
  exact .next (.ite (.refl _) (.opt (fun _ => (upd rfl)) (.refl _)))

theorem execMailboxAcknowledge (seq : Nat) : KeepsInv.Outc s (execMailboxAcknowledge seq s) := by
  unfold Machine.execMailboxAcknowledge
  exact .next (upd rfl)

theorem execWatchdogWrite : KeepsInv.Outc s (execWatchdogWrite s) := by
  unfold Machine.execWatchdogWrite
  exact .next (.ite (.refl _) (upd rfl))

theorem execWatchdogExpiry (pass : Bool) : KeepsInv.Outc s (execWatchdogExpiry pass s) := by
  unfold Machine.execWatchdogExpiry
  exact .next (.ite (failover ..) (.refl _))

theorem execCompareMismatch (pass : Bool) : KeepsInv.Outc s (execCompareMismatch pass s) := by
  unfold Machine.execCompareMismatch
  exact .next (failover ..)

theorem execSelfCheckRequest (good pass : Bool) : KeepsInv.Outc s (execSelfCheckRequest good pass s) := by
  unfold Machine.execSelfCheckRequest
  exact .next (.ite (.refl _) (failover ..))

theorem execSpareSelfTest (pass : Bool) : KeepsInv.Outc s (execSpareSelfTest pass s) := by
  unfold Machine.execSpareSelfTest
  exact .next (.ite (.refl _) ((wr ..).after (upd rfl)))

theorem execItcmFetchParity (off : Nat) (good pass : Bool) : KeepsInv.Outc s (execItcmFetchParity off good pass s) := by
  unfold Machine.execItcmFetchParity
  exact .next (.ite (.refl _) (.after (.ite (.refl _) (failover ..)) ((parLog ..).after ((inc ..).after (upd rfl)))))

theorem execDtcmParityError (addr : Nat) (dram : Bool) : KeepsInv.Outc s (execDtcmParityError addr dram s) := by
  unfold Machine.execDtcmParityError
  exact .next (.ite (parLog ..) ((parLog ..).after (inc ..)))

theorem execPupCacheParityError (core : Nat) (data : Bool) (line : Nat) : KeepsInv.Outc s (execPupCacheParityError core data line s) := by
  unfold Machine.execPupCacheParityError
  exact .next ((inc ..).after (upd rfl))

theorem execDmaHalt (c done addr : Nat) : KeepsInv.Outc s (execDmaHalt c done addr s) := by
  unfold Machine.execDmaHalt
  exact .next (.ite (.refl _) ((parLog ..).after ((inc ..).after ((wr ..).after (wr ..)))))

theorem execAlternateBankLoaded (c : Nat) (good : Bool) : KeepsInv.Outc s (execAlternateBankLoaded c good s) := by
  unfold Machine.execAlternateBankLoaded
  exact .next (.ite (.refl _) (.after (.ite (upd rfl) (.refl _)) ((wr ..).after (wr ..))))

theorem dmaRun (mask : Nat) : KeepsInv s (s.dmaRun mask) := by
  unfold State.dmaRun
  exact .foldl (fun _ _ => (.ite (wr ..) (.ite (wr ..) (.refl _))))

theorem execSwapGo (dur dma : Nat) : KeepsInv.Outc s (execSwapGo dur dma s) := by
  unfold Machine.execSwapGo
  exact .next
    (.after
      (.ite
        (.refl _)
        (.ite
          (wr ..)
          (.ite
            (wr ..)
            (.ite (wr ..) (.after (upd rfl) ((wr ..).after ((wr ..).after ((wr ..).after ((wr ..).after (raiseMv ..))))))))))
      (dmaRun ..))

theorem execSwapRollback : KeepsInv.Outc s (execSwapRollback s) := by
  unfold Machine.execSwapRollback
  exact .next (.ite (rollback ..) (.refl _))

theorem requeue : KeepsInv s s.requeue := by
  unfold State.requeue
  exact .foldl (fun _ _ => (.foldl (fun _ _ => (.ite (.refl _) (redo ..)))))

theorem portsOn : KeepsInv s s.portsOn := by
  unfold State.portsOn
  exact .foldl (fun _ _ => (.foldl (fun _ _ => (.ite (setLink ..) (.refl _)))))

theorem poison (bad : List Nat) : KeepsInv s (s.poison bad) := by
  unfold State.poison
  exact upd rfl

theorem execPfailNFall (bad : List Nat) : KeepsInv.Outc s (execPfailNFall bad s) := by
  unfold Machine.execPfailNFall
  exact .next (.ite (.refl _) (.after (.ite (.refl _) ((poison ..).after ((stopNow ..).after (edge ..)))) (upd rfl)))

theorem execFlushDone (fails : List (Nat × Nat)) (links : List Nat) : KeepsInv.Outc s (execFlushDone fails links s) := by
  unfold Machine.execFlushDone
  exact .next (flushDone ..)

theorem execPfailNRise : KeepsInv.Outc s (execPfailNRise s) := by
  unfold Machine.execPfailNRise
  exact .next
    (.after
      (.ite
        (.refl _)
        (.after
          (.ite
            (.after (.ite ((requeue ..).after (portsOn ..)) (.refl _)) (.after (.ite (.refl _) (unrest ..)) (resume ..)))
            (.refl _))
          (.ite (.refl _) (edge ..))))
      (upd rfl))

/-! ### What power loss takes (06 R164; 17 R496) -/

theorem partImage (heads good : Nat) : KeepsInv s (s.partImage heads good) := by
  unfold State.partImage
  exact upd rfl

theorem reZst (h z : Nat) : KeepsInv s (s.reZst h z) := by
  unfold State.reZst
  exact .after (upd rfl) (setZst ..)

theorem zundone (u : ZUndo) : KeepsInv s (s.zundone u) := by
  unfold State.zundone
  exact (wr ..).after ((wr ..).after ((wr ..).after ((wr ..).after ((wr ..).after ((wr ..).after ((wr ..).after ((wr ..).after
    ((wr ..).after ((wr ..).after ((wr ..).after (.after (.ite (putZx ..) (putZx ..))
    (.after (.ite (.refl _) ⟨fun k => ⟨k.1, Ud.wf_puts _ (Ud.wf_filter _ _ k.2)⟩⟩)
    ((reZst ..).after (.ite (.refl _) (.foldl (fun _ _ => staleBlk ..))))))))))))))))

theorem loseTail : KeepsInv s s.loseTail := by
  unfold State.loseTail
  exact .after (upd rfl) (.after (.foldl (fun _ _ => (zundone ..))) (.foldl (fun _ _ => (putMent ..))))

theorem cutZone (h off : Nat) : KeepsInv s (s.cutZone h off) := by
  unfold State.cutZone
  exact .after (.ite (putZx ..) (.ite ((zseq ..).after (wr ..)) (.refl _))) (udLess rfl rfl)

theorem loseStaged : KeepsInv s s.loseStaged := by
  unfold State.loseStaged
  exact .after (upd rfl) (.after (upd rfl) (.foldl (fun _ _ => (.ite (.refl _) (cutZone ..)))))

theorem recount : KeepsInv s s.recount := by
  unfold State.recount
  exact upd rfl

theorem endRelocs : KeepsInv s s.endRelocs := by
  unfold State.endRelocs
  exact .after (upd rfl) (.foldl (fun _ _ => (.ite (.refl _) (staleBlk ..))))

theorem openPages : KeepsInv s s.openPages := by
  unfold State.openPages
  exact upd rfl

theorem losePar : KeepsInv s s.losePar := by
  unfold State.losePar
  exact upd rfl

theorem loseRec : KeepsInv s s.loseRec := by
  unfold State.loseRec
  exact .opt (fun _ => (.ite (.refl _) (upd rfl))) (.refl _)

theorem afterLoss (heads good : Nat) : KeepsInv s (s.afterLoss heads good) := by
  unfold State.afterLoss
  exact (recount ..).after
    ((endRelocs ..).after
      ((loseRec ..).after
        ((losePar ..).after
          (.after
            (.ite (.refl _) (loseStaged ..))
            (.after
              (.ite (openPages ..) (loseTail ..))
              (.after
                (.foldl (fun _ _ => (.ite (wr ..) (.refl _))))
                ((partImage ..).after ((freeDoomed ..).after ((stopsGone ..).after ((capDrop ..).after (dropCmds ..)))))))))))

theorem keepTim (r : State) : KeepsInv r (s.keepTim r) := of rfl rfl

/-- What lasts of the slices brings the user data with it. -/
theorem keepSl_inv {s r : State} (hs : Inv s) (hr : Inv r) : Inv (s.keepSl r) := ⟨hr.1, hs.2⟩

theorem keepMedia (r : State) : KeepsInv r (s.keepMedia r) := of rfl rfl

theorem keepBoard (r : State) : KeepsInv r (s.keepBoard r) := of rfl rfl

theorem reset : Inv State.reset := ⟨rfl, rfl⟩

theorem powerOff (heads good : Nat) : KeepsInv s (s.powerOff heads good) := by
  unfold State.powerOff
  refine .after (upd rfl) ((keepBoard ..).after ((keepMedia ..).after ⟨fun h => keepSl_inv (KeepsInv.inv (s := s) ?_ h) ((keepTim ..).inv reset)⟩))
  exact .after (upd rfl) (.after (.ite (.foldl (fun _ _ => saveGranule ..)) (.refl _)) (afterLoss ..))

/-! ### The slot directory (17 R374, R375) -/

theorem showDir : KeepsInv s s.showDir := by
  unfold State.showDir
  exact .opt (fun _ => ((wr ..).after ((wr ..).after ((wr ..).after (wr ..))))) (.refl _)

theorem writeDir (active : Nat) (trial : Option Nat) (tries : Nat) : KeepsInv s (s.writeDir active trial tries) := by
  unfold State.writeDir
  exact (showDir ..).after (upd rfl)

/-! ### Applying an image (17 R376-R380) -/

theorem useSteps (b : List Nat) : KeepsInv s (s.useSteps b) := by
  unfold State.useSteps
  exact .ite
    (.refl _)
    ((settleStep ..).after
      (.after
        (upd rfl)
        (.after (.foldl (fun _ _ => (wr ..))) (.foldl (fun _ _ => ((wr ..).after ((wr ..).after ((wr ..).after (wr ..)))))))))

theorem useLadder (b : List Nat) : KeepsInv s (s.useLadder b) := by
  unfold State.useLadder
  exact upd rfl

theorem useLive (b : List Nat) : KeepsInv s (s.useLive b) := by
  unfold State.useLive
  exact .after
    (upd rfl)
    (.after (upd rfl) (.after (upd rfl) (.after (upd rfl) ((useLadder ..).after ((useSteps ..).after (upd rfl))))))

theorem useLaneMap (b : List Nat) : KeepsInv s (s.useLaneMap b) := by
  unfold State.useLaneMap
  exact .after
    (.ite (.refl _) (upd rfl))
    ((wr ..).after
      ((wr ..).after ((wr ..).after ((wr ..).after ((wr ..).after (.foldl (fun _ _ => ((wr ..).after (wr ..)))))))))

theorem useDram (b : List Nat) : KeepsInv s (s.useDram b) := by
  unfold State.useDram
  exact .after
    (upd rfl)
    (.after
      (.foldl (fun _ _ => (wr ..)))
      (.after
        (.foldl (fun _ _ => (wr ..)))
        ((wr ..).after ((wr ..).after ((wr ..).after ((wr ..).after ((wr ..).after (wr ..))))))))

theorem useVreg (b : List Nat) : KeepsInv s (s.useVreg b) := by
  unfold State.useVreg
  exact (send ..).after (.after (upd rfl) ((wr ..).after (upd rfl)))

theorem useImage (b : List Nat) : KeepsInv s (s.useImage b) := by
  unfold State.useImage
  exact (wr ..).after
    ((wr ..).after
      ((useLive ..).after
        ((draw ..).after
          ((wr ..).after
            ((draw ..).after
              ((wr ..).after
                (.after
                  (upd rfl)
                  (.after
                    (upd rfl)
                    (.after
                      (upd rfl)
                      (.after
                        (upd rfl)
                        (.after
                          (.foldl (fun _ _ => (preset ..)))
                          ((useVreg ..).after ((useDram ..).after (useLaneMap ..))))))))))))))

/-! ### Phases and failures (17 R370, R371, R381, R383) -/

theorem romRecovery (err : Nat) : KeepsInv s (s.romRecovery err) := by
  unfold State.romRecovery
  exact (faultLow ..).after ((wr ..).after ((wr ..).after (upd rfl)))

theorem recovery (err : Nat) : KeepsInv s (s.recovery err) := by
  unfold State.recovery
  exact (faultLow ..).after ((wr ..).after (wr ..))

theorem slotShow (slot res : Nat) : KeepsInv s (s.slotShow slot res) := by
  unfold State.slotShow
  exact .after (.ite (.refl _) ((wr ..).after (wr ..))) (wr ..)

theorem latchedHops : KeepsInv s s.latchedHops := by
  unfold State.latchedHops
  exact .foldl (fun _ _ => (.after (.ite (setHop ..) (.refl _)) (wr ..)))

theorem runSlot (slot : Nat) (trial : Bool) : KeepsInv s (s.runSlot slot trial) := by
  unfold State.runSlot
  exact (wr ..).after
    ((wr ..).after ((wr ..).after ((latchedHops ..).after ((wr ..).after ((useImage ..).after ((wr ..).after (wr ..)))))))

theorem trySecond (slot : Nat) (rd spd : Bool) : KeepsInv s (s.trySecond slot rd spd) := by
  unfold State.trySecond
  exact .after (.ite (runSlot ..) ((romRecovery ..).after (wr ..))) ((wr ..).after ((slotShow ..).after (upd rfl)))

theorem selectSlot (rdA rdB spd : Bool) : KeepsInv s (s.selectSlot rdA rdB spd) := by
  unfold State.selectSlot
  exact .after
    (.ite (runSlot ..) (trySecond ..))
    ((slotShow ..).after
      (fst
        (.opt
          (fun _ => (.opt (fun _ => (.ite (.pair (writeDir ..)) (.pair (showDir ..)))) (.pair (showDir ..))))
          (.pair (.refl _)))))

theorem timeStart : KeepsInv s s.timeStart := by
  unfold State.timeStart
  exact .ite
    (.opt (fun _ => ((wr ..).after (upd rfl))) ((wr ..).after (upd rfl)))
    (.opt (fun _ => ((wr ..).after (upd rfl))) (.ite ((wr ..).after (upd rfl)) ((wr ..).after (upd rfl))))

theorem start (fuse root nor rdA rdB spd : Bool) : KeepsInv s (s.start fuse root nor rdA rdB spd) := by
  unfold State.start
  exact .after
    (.ite ((romRecovery ..).after (wr ..)) (.ite ((romRecovery ..).after (wr ..)) (selectSlot ..)))
    (.after (.ite ((wr ..).after (upd rfl)) (.refl _)) ((wr ..).after ((wr ..).after (timeStart ..))))

/-! ### Fuses (17 R392) -/

theorem burnFuses : KeepsInv s s.burnFuses := by
  unfold State.burnFuses
  exact .ite (.refl _) (.ite ((wr ..).after ((wr ..).after ((wr ..).after (upd rfl)))) (wr ..))

/-! ### Firmware Download and Commit (17 R388-R391) -/

theorem execFirmwareDownload (o : Org) (cid off len : Nat) (data : List Nat) : KeepsInv.Outc s (execFirmwareDownload o cid off len data s) := by
  unfold Machine.execFirmwareDownload
  exact .next
    (admin
      (fun _ => (.ite (adm ..) (.ite (adm ..) (.ite (adm ..) (.ite (adm ..) ((adm ..).after ((wr ..).after (upd rfl)))))))))

theorem commitEnd (o : Org) (cid err : Nat) (st : Nat × Nat) : KeepsInv s (s.commitEnd o cid err st) := by
  unfold State.commitEnd
  exact (adm ..).after ((wr ..).after ((wr ..).after (upd rfl)))

theorem commitNo (o : Org) (cid : Nat) (st : Nat × Nat) : KeepsInv s (s.commitNo o cid st) := by
  unfold State.commitNo
  exact (adm ..).after (upd rfl)

theorem fwCommit {s : State} {o : Org} {cid fs : Nat} {run : Option (Nat × Nat)} {go : State → Nat → State} (h : ∀ m x1, KeepsInv m (go m x1)) :
    KeepsInv s (s.fwCommit o cid fs run go) := by
  unfold State.fwCommit
  exact admin (fun _ => (.ite (adm ..) (.opt (fun _ => (.ite (commitNo ..) (.ite (commitNo ..) (h _ _)))) (commitNo ..))))

theorem writeSlot {s : State} {o : Org} {cid k nor : Nat} {spd : Bool} {ok : State → List Nat → State} (h : ∀ m x1, KeepsInv m (ok m x1)) :
    KeepsInv s (s.writeSlot o cid k nor spd ok) := by
  unfold State.writeSlot
  exact .ite
    (commitEnd ..)
    (.ite ((commitEnd ..).after ((draw ..).after (upd rfl))) ((h _ _).after ((wr ..).after ((slotShow ..).after (upd rfl)))))

theorem execFirmwareCommitCa000 (o : Org) (cid fs nor : Nat) (spd : Bool) : KeepsInv.Outc s (execFirmwareCommitCa000 o cid fs nor spd s) := by
  unfold Machine.execFirmwareCommitCa000
  exact .next (fwCommit (fun _ _ => (writeSlot (fun _ _ => (commitEnd ..)))))

theorem execFirmwareCommitCa001 (o : Org) (cid fs nor : Nat) (spd : Bool) : KeepsInv.Outc s (execFirmwareCommitCa001 o cid fs nor spd s) := by
  unfold Machine.execFirmwareCommitCa001
  exact .next (fwCommit (fun _ _ => (writeSlot (fun _ _ => ((commitEnd ..).after (writeDir ..))))))

theorem execFirmwareCommitCa010 (o : Org) (cid fs : Nat) (spd : Bool) : KeepsInv.Outc s (execFirmwareCommitCa010 o cid fs spd s) := by
  unfold Machine.execFirmwareCommitCa010
  exact .next (fwCommit (fun _ _ => (.after (.ite (commitEnd ..) ((commitEnd ..).after (writeDir ..))) (slotShow ..))))

theorem execFirmwareCommitCa011 (o : Org) (cid fs nor : Nat) (spd : Bool) : KeepsInv.Outc s (execFirmwareCommitCa011 o cid fs nor spd s) := by
  unfold Machine.execFirmwareCommitCa011
  exact .next
    (fwCommit
      (fun _ _ =>
        (.ite
          (commitEnd ..)
          (.ite
            (commitEnd ..)
            (writeSlot
              (fun _ _ =>
                ((wr ..).after ((wr ..).after (.after (.foldl (fun _ _ => (notify ..))) (.after (upd rfl) (upd rfl)))))))))))

theorem newEpochs : KeepsInv s s.newEpochs := by
  unfold State.newEpochs
  exact .foldl
    (fun _ _ =>
      (.opt
        (fun _ => (.ite (.refl _) (.after (.foldl (fun _ _ => (.ite ((wr ..).after (wr ..)) (.refl _)))) (putStream ..))))
        (.refl _)))

theorem execSwapCommit : KeepsInv.Outc s (execSwapCommit s) := by
  unfold Machine.execSwapCommit
  exact .next
    (.ite
      (.refl _)
      (.after
        (.opt
          (fun _ =>
            ((commitEnd ..).after
              (.after
                (.ite (writeDir ..) (writeDir ..))
                ((wr ..).after ((wr ..).after ((wr ..).after ((newEpochs ..).after ((useLive ..).after (upd rfl)))))))))
          (.refl _))
        (wr ..)))

/-! ### The start (17 R371; 18 R403; 20 R436) -/

theorem repair (fusedRows : Nat) (soft bad : List (Nat × Nat)) : KeepsInv₁ s (s.repair fusedRows soft bad) := by
  unfold State.repair
  exact .pair (.after (.foldl (fun _ _ => (fenceUnit ..))) ((wr ..).after ((wr ..).after (upd rfl))))

theorem execPorNFall (heads good : Nat) : KeepsInv.Outc s (execPorNFall heads good s) := by
  unfold Machine.execPorNFall
  exact .next (.ite (.refl _) ((faultLow ..).after (.after (upd rfl) (.after (upd rfl) (powerOff ..)))))

theorem execPorNRise (test hot fuse root nor rdA rdB spd : Bool) (fusedRows : Nat) (soft bad : List (Nat × Nat)) (noCal : List Nat) :
    KeepsInv.Outc s (execPorNRise test hot fuse root nor rdA rdB spd fusedRows soft bad noCal s) := by
  unfold Machine.execPorNRise
  exact .next (.ite (.refl _) (.after (.ite (.refl _) ((start ..).after (repair ..))) (upd rfl)))

theorem execJackExit (fuse root nor rdA rdB spd : Bool) (fusedRows : Nat) (soft bad : List (Nat × Nat)) (noCal : List Nat) :
    KeepsInv.Outc s (execJackExit fuse root nor rdA rdB spd fusedRows soft bad noCal s) := by
  refine .next ?_
  split
  · exact .after (upd rfl) ((start ..).after ((repair ..).after ((wr ..).after ((wr ..).after ((wr ..).after ((wr ..).after
      ((wr ..).after ((wr ..).after ((wr ..).after ((faultLow ..).after (.after (upd rfl) (powerOff ..))))))))))))
  · exact .refl _

theorem slice0 : KeepsInv s s.slice0 := by
  unfold State.slice0
  exact (limits ..).after ((wr ..).after ((wr ..).after ((wr ..).after (wr ..))))

theorem adminUp : KeepsInv s s.adminUp := by
  unfold State.adminUp
  refine (tryReady ..).after (.after (.ite ((raise ..).after (upd rfl)) (.refl _)) (.after (upd rfl) ((wr ..).after ((wr ..).after
    ((wr ..).after (.after (upd rfl) (.ite ?_ (.refl _))))))))
  split
  · exact adminQueue ..
  · exact .refl _

theorem bareRecovery (err : Nat) : KeepsInv s (s.bareRecovery err) := by
  unfold State.bareRecovery
  exact (adminUp ..).after ((recovery ..).after (slice0 ..))

theorem execDramTrainingDone (good : Nat) : KeepsInv.Outc s (execDramTrainingDone good s) := by
  unfold Machine.execDramTrainingDone
  exact .next (.ite (.refl _) (.after (.ite (.refl _) (bareRecovery ..)) (.foldl (fun _ _ => (wr ..)))))

theorem execDramFillDone : KeepsInv.Outc s (execDramFillDone s) := by
  unfold Machine.execDramFillDone
  exact .next
    (.ite (.refl _) (.after (upd rfl) ((wr ..).after ((wr ..).after ((wr ..).after ((wr ..).after ((wr ..).after (wr ..))))))))

theorem restoreSys : KeepsInv s s.restoreSys := by
  unfold State.restoreSys
  exact .after (.ite (.refl _) ((wr ..).after (inc ..))) (.after (upd rfl) (.ite (.refl _) ((inc ..).after
    (.after (.foldl (fun s e => ⟨fun h => ⟨Regs.wf_set _ _ _ h.1, h.2⟩⟩)) (wr ..)))))

theorem execAdminReady (snap : Bool) : KeepsInv.Outc s (execAdminReady snap s) := by
  unfold Machine.execAdminReady
  exact .next
    (.ite
      (.refl _)
      (.ite
        ((bareRecovery ..).after (wr ..))
        ((adminUp ..).after
          (.after
            (.ite (.refl _) (upd rfl))
            ((wr ..).after (.ite (restoreSys ..) ((putSx ..).after ((slice0 ..).after (restoreSys ..)))))))))

/-! ### Replay and the layout check (11 R268; 06 R164; 17 R382) -/

theorem useLayout : KeepsInv s s.useLayout := by
  unfold State.useLayout
  exact upd rfl

theorem replayTail : KeepsInv s s.replayTail := by
  unfold State.replayTail
  exact .after (.foldl (fun _ _ => (persist ..))) (upd rfl)

theorem lossOutcome : KeepsInv s s.lossOutcome := by
  unfold State.lossOutcome
  exact .ite (.refl _) (.ite (.refl _) (.after (.ite (.refl _) ((raise ..).after ((inc ..).after (upd rfl)))) (wr ..)))

theorem step11 : KeepsInv s s.step11 := by
  unfold State.step11
  exact .after (.ite (writeDir ..) (.refl _)) (wr ..)

theorem sumPar (h : Nat) : KeepsInv s (s.sumPar h) := by
  unfold State.sumPar
  exact .opt (fun _ => (upd rfl)) (.refl _)

theorem sumPars : KeepsInv s s.sumPars := by
  unfold State.sumPars
  exact .foldl (fun _ _ => (.ite (sumPar ..) (.refl _)))

theorem consume : KeepsInv s s.consume := by
  unfold State.consume
  exact .ite (upd rfl) (.refl _)

theorem unpoison : KeepsInv s s.unpoison := by
  unfold State.unpoison
  exact .foldl (fun _ _ => ((stgUe ..).after (sramUe ..)))

theorem recovered : KeepsInv s s.recovered := by
  unfold State.recovered
  exact .after
    (.ite
      (.after (.ite (faultHigh ..) (.refl _)) ((wr ..).after (upd rfl)))
      (.after (.ite (step11 ..) (.refl _)) (.ite (armed ..) (.refl _))))
    (.after
      (upd rfl)
      (.after
        (.ite (.refl _) ((requeue ..).after ((unpoison ..).after (sumPars ..))))
        (.after (.ite (.refl _) (upd rfl)) ((useLayout ..).after (lossOutcome ..)))))

theorem execJournalReplayDone (ok : Bool) (ms : Nat) (rd spd : Bool) : KeepsInv.Outc s (execJournalReplayDone ok ms rd spd s) := by
  unfold Machine.execJournalReplayDone
  exact .next
    (.ite
      (.refl _)
      (.ite
        (recovery ..)
        (.after
          (.ite (recovered ..) (.after (.ite (recovery ..) ((trySecond ..).after (upd rfl))) (wr ..)))
          ((wr ..).after (.ite (.refl _) (replayTail ..))))))

theorem execFlushBankErased (b : Nat) : KeepsInv.Outc s (execFlushBankErased b s) := by
  unfold Machine.execFlushBankErased
  exact .next
    (.after (.ite (.refl _) (.after (.ite (.refl _) (.after (.ite (step11 ..) (.refl _)) (armed ..))) (upd rfl))) (consume ..))

theorem execAdmissionOpen : KeepsInv.Outc s (execAdmissionOpen s) := by
  unfold Machine.execAdmissionOpen
  exact .next
    (.after
      (.ite
        (.refl _)
        ((rshpNext ..).after
          ((burnFuses ..).after
            ((tryAll ..).after
              ((faultHigh ..).after (.after (upd rfl) (.after (upd rfl) ((wr ..).after ((wr ..).after (wr ..))))))))))
      (consume ..))

/-! ### The ROM's loader (17 R383) and REFCLK (21 R465) -/

theorem execUartLoaderBlock (off : Nat) (data : List Nat) (crc : Nat) : KeepsInv.Outc s (execUartLoaderBlock off data crc s) := by
  unfold Machine.execUartLoaderBlock
  exact .next (.ite (.refl _) (.ite ((send ..).after (upd rfl)) (send ..)))

theorem execUartLoaderEnd (good fuse root nor rdA rdB spd : Bool) : KeepsInv.Outc s (execUartLoaderEnd good fuse root nor rdA rdB spd s) := by
  unfold Machine.execUartLoaderEnd
  exact .next
    (.ite
      (.refl _)
      (.after
        (.ite
          ((send ..).after (draw ..))
          ((start ..).after ((wr ..).after ((wr ..).after (.after (upd rfl) ((writeDir ..).after (send ..)))))))
        ((slotShow ..).after (.after (upd rfl) (upd rfl)))))

theorem execRefclkLoss : KeepsInv.Outc s (execRefclkLoss s) := by
  unfold Machine.execRefclkLoss
  exact .next
    (.ite
      (.refl _)
      ((faultLow ..).after
        ((wr ..).after
          (.after
            (upd rfl)
            (.after (upd rfl) ((physOff ..).after ((stopsGone ..).after ((capDrop ..).after (dropCmds ..)))))))))

theorem newZones (slice nsid base zones dg : Nat) : KeepsInv s (s.newZones slice nsid base zones dg) := by
  unfold State.newZones
  exact .foldl (fun _ _ => ((zseq ..).after ((wr ..).after ((wr ..).after ((wr ..).after ((wr ..).after (wr ..)))))))

theorem execNamespaceCreate (o : Org) (cid : Nat) (zoned : Bool) (nsze ncap lbaf dg cipher : Nat) :
    KeepsInv.Outc s (execNamespaceCreate o cid zoned nsze ncap lbaf dg cipher s) := by
  unfold Machine.execNamespaceCreate
  exact .next
    (admin
      (fun _ =>
        (.opt
          (fun _ => (adm ..))
          ((adm ..).after ((putGen ..).after ((wr ..).after ((addw ..).after ((newZones ..).after (upd rfl)))))))))

theorem execNamespaceDelete (o : Org) (cid nsid : Nat) : KeepsInv.Outc s (execNamespaceDelete o cid nsid s) := by
  unfold Machine.execNamespaceDelete
  exact .next (.ite (.refl _) (admin (fun _ => (.ite (adm ..) (beginErase ..)))))

theorem execNamespaceAttachment (o : Org) (cid nsid : Nat) (detach : Bool) (ctls : List Nat) :
    KeepsInv.Outc s (execNamespaceAttachment o cid nsid detach ctls s) := by
  unfold Machine.execNamespaceAttachment
  exact .next
    (admin
      (fun _ =>
        (.opt
          (fun _ => (.ite (.ite ((adm ..).after (upd rfl)) (adm ..)) (.ite (adm ..) ((adm ..).after (upd rfl)))))
          (adm ..))))

theorem execFormatNvm (o : Org) (cid nsid lbaf : Nat) : KeepsInv.Outc s (execFormatNvm o cid nsid lbaf s) := by
  unfold Machine.execFormatNvm
  exact .next (.ite (.refl _) (admin (fun _ => (.ite (adm ..) (.ite (adm ..) (beginErase ..))))))

theorem execSanitizeCryptoErase (o : Org) (cid : Nat) : KeepsInv.Outc s (execSanitizeCryptoErase o cid s) := by
  unfold Machine.execSanitizeCryptoErase
  exact .next (.ite (.refl _) (admin (fun _ => (.ite (adm ..) (.ite (adm ..) (beginErase ..))))))

theorem execIdentify (o : Org) (cid cns nsid : Nat) : KeepsInv.Outc s (execIdentify o cid cns nsid s) := by
  refine .next (admin (fun s => ?_))
  split
  · exact .opt (fun _ => adm ..) (adm ..)
  · exact .opt (fun _ => adm ..) (adm ..)
  all_goals exact adm ..

theorem layoutMgmt {s : State} {o : Org} {cid : Nat} {f : State → State} (h : ∀ m, KeepsInv m (f m)) : KeepsInv s (s.layoutMgmt o cid f) := by
  unfold State.layoutMgmt
  exact .ite (.refl _) (admin (fun _ => (.ite (adm ..) (.ite (.refl _) (h _)))))

theorem execBeginReshape (o : Org) (cid act g sup : Nat) : KeepsInv.Outc s (execBeginReshape o cid act g sup s) := by
  refine .next (.ite (.refl _) (layoutMgmt (fun s => .ite (adm ..) (.ite (adm ..) ?_))))
  split
  · exact .ite (adm ..) ((adm ..).after ((rshpNext ..).after ((jn ..).after (upd rfl))))
  · exact adm ..

theorem execAbortReshape (o : Org) (cid : Nat) : KeepsInv.Outc s (execAbortReshape o cid s) := by
  unfold Machine.execAbortReshape
  exact .next
    (layoutMgmt
      (fun _ =>
        (.opt
          (fun _ => (.ite (adm ..) ((adm ..).after ((rshpNext ..).after ((jn ..).after (.after (upd rfl) (upd rfl)))))))
          (adm ..))))

theorem execPrepareRemoval (o : Org) (cid l b : Nat) : KeepsInv.Outc s (execPrepareRemoval o cid l b s) := by
  unfold Machine.execPrepareRemoval
  exact .next
    (layoutMgmt
      (fun _ =>
        (.ite
          (adm ..)
          ((adm ..).after ((wr ..).after ((wr ..).after ((ceiling ..).after ((hopDown ..).after (cutOff ..)))))))))

/-! ### The epoch (03 R78-R80) -/

theorem carrySlices : KeepsInv s s.carrySlices := by
  unfold State.carrySlices
  exact .foldl (fun _ _ => ((putSx ..).after ((wr ..).after ((wr ..).after (wr ..)))))

theorem carryQueues : KeepsInv s s.carryQueues := by
  unfold State.carryQueues
  exact upd rfl

theorem applyPend (n : Nat) : KeepsInv s (s.applyPend n) := by
  unfold State.applyPend
  exact (putSx ..).after
    (.after
      (.ite (.refl _) (upd rfl))
      (.after
        (.opt (fun _ => (wr ..)) (.refl _))
        (.after (.opt (fun _ => (wr ..)) (.refl _)) (.opt (fun _ => (wr ..)) (.refl _)))))

theorem refill (n : Nat) : KeepsInv s (s.refill n) := by
  unfold State.refill
  exact (putSx ..).after ((wr ..).after (wr ..))

theorem throttles : KeepsInv s s.throttles := by
  unfold State.throttles
  exact (wr ..).after ((wr ..).after (upd rfl))

theorem epochDevice : KeepsInv s s.epochDevice := by
  unfold State.epochDevice
  exact (addw ..).after ((wr ..).after (.after (upd rfl) ((wr ..).after (.foldl (fun _ _ => (wr ..))))))

theorem execLedgerEpoch : KeepsInv.Outc s (execLedgerEpoch s) := by
  unfold Machine.execLedgerEpoch
  exact .next
    (.ite
      (.refl _)
      ((captureEpoch ..).after
        ((throttles ..).after
          ((epochDevice ..).after
            (.after
              (.foldl (fun _ _ => (refill ..)))
              (.after (.foldl (fun _ _ => (applyPend ..))) ((carrySlices ..).after (carryQueues ..))))))))

/-! ### Doorbells (03 R68; 14 R316) -/

theorem badDoorbell (f info : Nat) : KeepsInv s (s.badDoorbell f info) := by
  unfold State.badDoorbell
  exact (notify ..).after (upd rfl)

theorem execDoorbellWrite (f qid : Nat) (cq : Bool) (v : Nat) : KeepsInv.Outc s (execDoorbellWrite f qid cq v s) := by
  unfold Machine.execDoorbellWrite
  exact .next
    (.ite
      (.refl _)
      (.after
        (.ite
          (.opt (fun _ => (.ite (.refl _) (.ite (badDoorbell ..) (upd rfl)))) (badDoorbell ..))
          (.opt
            (fun _ => (.ite (.refl _) (.ite (badDoorbell ..) ((putQ ..).after (.ite (.refl _) (putSx ..))))))
            (badDoorbell ..)))
        (work ..)))

/-! ### Fetch (03 R73, R74) -/

theorem fetchFrom (i cid : Nat) (q : Queue) : KeepsInv s (s.fetchFrom i cid q) := by
  unfold State.fetchFrom
  split
  · exact .refl _
  · exact .ite
      ((charge ..).after (putQ ..))
      (.ite
        ((fin ..).after (takeIn ..))
        (.ite
          (takeIn ..)
          (.ite ((dma ..).after (takeIn ..)) ((dmaEnd (fun _ => (fin ..))).after ((dma ..).after (takeIn ..))))))

theorem loseDgram (k key off : Nat) : KeepsInv s (s.loseDgram k key off) := by
  unfold State.loseDgram
  exact .opt
    (fun _ =>
      (.opt
        (fun _ =>
          (.opt
            (fun _ => (.ite (.refl _) (.ite (putStream ..) (.ite ((goOn ..).after (dropFrame ..)) (putStream ..)))))
            (.refl _)))
        (.refl _)))
    (.refl _)

theorem tagUe (nsid page : Nat) : KeepsInv s (s.tagUe nsid page) := by
  unfold State.tagUe
  exact .after (.opt (fun _ => (.ite (.refl _) (putLine ..))) (.refl _)) (inc ..)

theorem slotUe (i : Nat) : KeepsInv s (s.slotUe i) := by
  unfold State.slotUe
  exact .opt (fun _ => (.ite ((keyAnswered ..).after (freeSlot ..)) (freeSlot ..))) (.refl _)

theorem recUe (i : Nat) : KeepsInv s (s.recUe i) := by
  unfold State.recUe
  exact .opt (fun _ => ((inc ..).after (upd rfl))) (.refl _)

theorem imgUe (i : Nat) : KeepsInv s (s.imgUe i) := by
  unfold State.imgUe
  exact (raise ..).after (upd rfl)

theorem ueOf (e : MemErr) : KeepsInv s (s.ueOf e) := by
  unfold State.ueOf
  split
  · exact .opt (fun _ => (stgUe ..)) (.refl _)
  · exact imgUe ..
  · exact loseDgram ..
  · exact lineUe ..
  · exact .ite (fenceUnit ..) (.refl _)
  · exact recUe ..
  · exact slotUe ..
  · exact tagUe ..
  · exact lineUe ..
  · exact .refl _

theorem memErr (e : MemErr) : KeepsInv s (s.memErr e) := by
  unfold State.memErr
  exact .ite (.refl _) (.ite ((correctable ..).after (.ite (inc ..) (.refl _))) ((ueOf ..).after (sramUe ..)))

theorem memErrs (es : List MemErr) : KeepsInv s (s.memErrs es) := by
  unfold State.memErrs
  exact .foldl (fun _ _ => (memErr ..))

theorem execDieReadDone (d : Nat) (temp : ℤ) (busy : Nat) (es : List MemErr) : KeepsInv.Outc s (execDieReadDone d temp busy es s) := by
  unfold Machine.execDieReadDone
  exact .next ((readBack ..).after (memErrs ..))

theorem execWriteCommit (q cid : Nat) (es : List MemErr) : KeepsInv.Outc s (execWriteCommit q cid es s) := by
  unfold Machine.execWriteCommit
  exact .next ((commitCmd ..).after (.after (.foldl (fun _ _ => (sramUe ..))) (memErrs ..)))

theorem execIftDatagram (p u dst ip vlan udp src ulen : Nat) (b : List Nat) (es : List MemErr) :
    KeepsInv.Outc s (execIftDatagram p u dst ip vlan udp src ulen b es s) := by
  unfold Machine.execIftDatagram
  exact .next ((dgramIn ..).after (memErrs ..))

theorem execRead (q cid nsid lba len : Nat) (lr : Bool) (addr : Nat) (es : List MemErr) :
    KeepsInv.Outc s (execRead q cid nsid lba len lr addr es s) := by
  unfold Machine.execRead
  exact .next ((readCmd ..).after (memErrs ..))

/-! ### Connections -/

theorem execCmReq (p u dst ip vlan peer svc pmtu : Nat) : KeepsInv.Outc s (execCmReq p u dst ip vlan peer svc pmtu s) := by
  refine .next (.after (.ite (.refl _) ?_) (rxIn ..))
  extract_lets t
  split
  · exact (sendNet ..).after (putQp ..)
  · exact sendNet ..

theorem execCmDreq (qp : Nat) : KeepsInv.Outc s (execCmDreq qp s) := by
  unfold Machine.execCmDreq
  exact .next (qpIn (fun _ _ => ((qpError ..).after (sendNet ..))))

theorem connectBad (x : Qp) (qp cid sc : Nat) : KeepsInv s (s.connectBad x qp cid sc) := by
  unfold State.connectBad
  exact sendQp ..

theorem execConnect (qp cid qid size host sub kato a : Nat) (auth : Bool) :
    KeepsInv.Outc s (execConnect qp cid qid size host sub kato a auth s) := by
  refine .next (qpIn (fun s x => .ite (.refl _) (.ite (sendQp ..) (.opt (fun b => .ite (sendQp ..) (.ite (connectBad ..)
    (.ite (connectBad ..) (.ite (connectBad ..) (.ite (connectBad ..) ?_))))) (connectBad ..)))))
  split
  · exact (sendQp ..).after (.after (.ite (upd rfl) (.refl _)) ((addw ..).after ((putQp ..).after ((useQp ..).after (putQ ..)))))
  · exact connectBad ..

theorem execKeepAlive (o : Org) (cid : Nat) : KeepsInv.Outc s (execKeepAlive o cid s) := by
  refine .next ?_
  split
  · exact .opt (fun _ => .ite (.refl _) (.after (admin (fun _ => adm ..)) (upd rfl))) (.refl _)
  · exact admin (fun _ => adm ..)

theorem execKeepAliveExpiry (a : Nat) : KeepsInv.Outc s (execKeepAliveExpiry a s) := by
  unfold Machine.execKeepAliveExpiry
  exact .next (.opt (fun _ => (.ite (endAssoc ..) (.refl _))) (.refl _))

/-! ### Capsules -/

theorem execCommandCapsule (qp cid sgls : Nat) (sglOk inl : Bool) : KeepsInv.Outc s (execCommandCapsule qp cid sgls sglOk inl s) := by
  unfold Machine.execCommandCapsule
  exact .next
    (qpIn
      (fun _ _ =>
        (.opt
          (fun _ =>
            (.opt
              (fun _ =>
                (.ite
                  (.refl _)
                  (.ite
                    (.refl _)
                    (.after (.opt (fun _ => (upd rfl)) (.refl _)) ((putSx ..).after ((putQ ..).after (work ..)))))))
              (.refl _)))
          (.refl _))))

/-! ### QP events -/

theorem execRocePacket (p u dst ip vlan qp : Nat) (ce ack : Bool) : KeepsInv.Outc s (execRocePacket p u dst ip vlan qp ce ack s) := by
  unfold Machine.execRocePacket
  exact .next
    (.ite
      (rxIn ..)
      (.after
        (.opt (fun _ => (.ite (.refl _) (.ite ((sendOn ..).after ((inc ..).after (putQp ..))) (putQp ..)))) (.refl _))
        (rxIn ..)))

theorem execCnpReceived (qp : Nat) : KeepsInv.Outc s (execCnpReceived qp s) := by
  unfold Machine.execCnpReceived
  exact .next (qpIn (fun _ _ => (.after (.ite (.refl _) (putQp ..)) (inc ..))))

theorem execCcRateTimer (qp : Nat) (inc : Bool) (bytes : Nat) : KeepsInv.Outc s (execCcRateTimer qp inc bytes s) := by
  unfold Machine.execCcRateTimer
  exact .next (.opt (fun _ => (.ite (.refl _) (.ite (.ite (putQp ..) (.refl _)) (.ite (putQp ..) (.refl _))))) (.refl _))

theorem execAckTimeout (qp : Nat) : KeepsInv.Outc s (execAckTimeout qp s) := by
  unfold Machine.execAckTimeout
  exact .next (qpTimeout ..)

theorem execRnrNak (qp : Nat) : KeepsInv.Outc s (execRnrNak qp s) := by
  unfold Machine.execRnrNak
  exact .next (qpIn (fun _ _ => (.ite (.refl _) (.ite (qpError ..) ((sendQp ..).after (putQp ..))))))

theorem execInboundRdmaRead (qp : Nat) : KeepsInv.Outc s (execInboundRdmaRead qp s) := by
  unfold Machine.execInboundRdmaRead
  exact .next (qpIn (fun _ _ => (.ite (.refl _) ((qpError ..).after (sendQp ..)))))

/-! ### Addresses -/

theorem execArpRequest (p u dst ip vlan from1 : Nat) : KeepsInv.Outc s (execArpRequest p u dst ip vlan from1 s) := by
  unfold Machine.execArpRequest
  exact .next (.ite ((sendNet ..).after (rxIn ..)) (rxIn ..))

theorem execEchoRequest (p u dst ip vlan from1 : Nat) : KeepsInv.Outc s (execEchoRequest p u dst ip vlan from1 s) := by
  unfold Machine.execEchoRequest
  exact .next (.ite (rxIn ..) (.after (.ite (dropRx ..) ((sendNet ..).after (putSub ..))) (rxIn ..)))

theorem execDroppedFrame (p u cause : Nat) : KeepsInv.Outc s (execDroppedFrame p u cause s) := by
  unfold Machine.execDroppedFrame
  exact .next (.ite (dropRx ..) (.ite (dropRx ..) (.ite (.refl _) (dropRx ..))))

theorem askHop (p ip qp : Nat) : KeepsInv s (s.askHop p ip qp) := by
  unfold State.askHop
  exact (sendNet ..).after (upd rfl)

theorem execAddressResolutionTimeout (p ip qp : Nat) : KeepsInv.Outc s (execAddressResolutionTimeout p ip qp s) := by
  unfold Machine.execAddressResolutionTimeout
  exact .next
    (.opt
      (fun _ => (.ite (.after (.ite (.refl _) (askHop ..)) ((qpTimeout ..).after (upd rfl))) (.refl _)))
      (.ite (.refl _) (askHop ..)))

theorem execArpReply (p ip mac : Nat) : KeepsInv.Outc s (execArpReply p ip mac s) := by
  unfold Machine.execArpReply
  exact .next (.ite (.refl _) (.after (.foldl (fun _ _ => (flushTx ..))) (.after (upd rfl) (frameWake ..))))

theorem execPeerMacLifetimeExpiry (p ip : Nat) : KeepsInv.Outc s (execPeerMacLifetimeExpiry p ip s) := by
  unfold Machine.execPeerMacLifetimeExpiry
  exact .next (upd rfl)

/-! ### Priority flow control -/

theorem execPfcFrame (p u mask quanta : Nat) (glob : Bool) : KeepsInv.Outc s (execPfcFrame p u mask quanta glob s) := by
  unfold Machine.execPfcFrame
  exact .next (.ite (.refl _) ((flushTx ..).after (putSub ..)))

theorem execPfcPauseExpiry (p u : Nat) : KeepsInv.Outc s (execPfcPauseExpiry p u s) := by
  unfold Machine.execPfcPauseExpiry
  exact .next ((flushTx ..).after (putSub ..))

theorem execPfcRefresh (p u fill lost : Nat) : KeepsInv.Outc s (execPfcRefresh p u fill lost s) := by
  unfold Machine.execPfcRefresh
  exact .next
    (.after
      (.ite (.refl _) (.ite (sendPfc ..) (.ite (sendPfc ..) (.ite (sendPfc ..) (.refl _)))))
      (.after (.ite (inc ..) (.refl _)) (putSub ..)))

/-! ### Link state -/

theorem execSubportSignalDetect (p u : Nat) : KeepsInv.Outc s (execSubportSignalDetect p u s) := by
  unfold Machine.execSubportSignalDetect
  exact .next (.ite (setLink ..) (.refl _))

theorem execSubportTrainingDone (p u : Nat) : KeepsInv.Outc s (execSubportTrainingDone p u s) := by
  unfold Machine.execSubportTrainingDone
  exact .next (.ite ((setLink ..).after (putSub ..)) (.refl _))

theorem execUpHoldExpiry (p u : Nat) : KeepsInv.Outc s (execUpHoldExpiry p u s) := by
  unfold Machine.execUpHoldExpiry
  exact .next (.ite (setLink ..) (.refl _))

theorem execFlapHoldExpiry (p u : Nat) : KeepsInv.Outc s (execFlapHoldExpiry p u s) := by
  unfold Machine.execFlapHoldExpiry
  exact .next (.ite (setLink ..) (.refl _))

theorem execSubportFault (p u corr uncorr : Nat) : KeepsInv.Outc s (execSubportFault p u corr uncorr s) := by
  unfold Machine.execSubportFault
  exact .next
    (.after
      (.ite (.refl _) ((flushTx ..).after ((setLink ..).after ((setLink ..).after ((inc ..).after (putSub ..))))))
      ((inc ..).after (inc ..)))

/-! ### Paths (23 R490) -/

theorem accLog (p kind : Nat) (wr : Bool) (a : Nat) : KeepsInv s (s.accLog p kind wr a) := by
  unfold State.accLog
  exact .after
    (.ite
      (.refl _)
      ((KeepsInv.wr ..).after ((KeepsInv.wr ..).after ((KeepsInv.wr ..).after ((KeepsInv.wr ..).after (KeepsInv.wr ..))))))
    (.ite (inc ..) (inc ..))

/-! ### Reads (23 R491, R492; 00 R5, R6) -/

theorem rcClear (f : Fld) (i j p : Nat) : KeepsInv s (s.rcClear f i j p) := by
  unfold State.rcClear
  exact .ite (upd rfl) (clr ..)

theorem readFx (p : Nat) (r : Reg) (i j h : Nat) : KeepsInv s (s.readFx p r i j h) := by
  unfold State.readFx
  exact .after (.ite (wr ..) (.ite (wr ..) (.refl _))) (.foldl (fun _ _ => (rcClear ..)))

theorem touchReg (p a : Nat) : KeepsInv s (s.touchReg p a) := by
  unfold State.touchReg
  exact .opt (fun _ => (readFx ..)) (.refl _)

theorem unlatch (p : Nat) : KeepsInv s (s.unlatch p) := by
  unfold State.unlatch
  exact upd rfl

theorem live (p a : Nat) : KeepsInv₁ s (State.read4.live p s a) := by
  unfold State.read4.live
  exact .ite (.pair (.after (upd rfl) ((touchReg ..).after (touchReg ..)))) (.pair (touchReg ..))

theorem read4 (p a : Nat) : KeepsInv₁ s (s.read4 p a) := by
  unfold State.read4
  exact .after (.opt (fun _ => .ite (.pair (.refl _)) (live ..)) (live ..)) (unlatch ..)

theorem read8 (p a : Nat) : KeepsInv₁ s (s.read8 p a) := by
  unfold State.read8
  exact .pair ((touchReg ..).after ((touchReg ..).after (unlatch ..)))

theorem readWords (p a n : Nat) : KeepsInv₁ s (State.readWords p a n s) := by
  induction n using Nat.strong_induction_on generalizing s a with
  | _ n ih =>
    match n, ih with
    | 0, _ => exact refl s
    | 1, _ => exact .pair (read4 ..)
    | n + 2, ih => exact .ite (.pair ((ih n (by omega) ..).after (read8 ..))) (.pair ((ih (n + 1) (by omega) ..).after (read4 ..)))

/-! ### Writes (23 R493, R495; 00 R5) -/

theorem writeFld (p : Nat) (r : Reg) (i j h v : Nat) (f : Fld) : KeepsInv s (s.writeFld p r i j h v f) := by
  unfold State.writeFld
  dsimp only
  split
  · exact .ite (.refl _) (wr ..)
  · exact .ite (.refl _) (wr ..)
  · exact .ite (.ite (upd rfl) (.refl _)) (wr ..)
  · exact .refl _

theorem refusedBy {r : Reg} {i h v : Nat} {f : State → State} (e : s.refusedBy r i h v = some f) : KeepsInv s (f s) := by
  unfold State.refusedBy at e
  dsimp only at e
  split at e
  · split at e
    · cases e
    · cases e; exact wr ..
  split at e
  · split at e
    · cases e; exact wr ..
    · cases e
  split at e
  · split at e
    · cases e
    · cases e; exact wr ..
  split at e
  · split at e
    · cases e
    · cases e; exact refl s
  · cases e

theorem linkEn (l was : Nat) : KeepsInv s (s.linkEn l was) := by
  unfold State.linkEn
  exact .ite ((ceiling ..).after ((cutOff ..).after (hopDown ..))) (.refl _)

theorem wrote (r : Reg) (i h v was : Nat) : KeepsInv s (s.wrote r i h v was) := by
  unfold State.wrote
  exact .ite
    ((mcEnable ..).after (.ite (invAll ..) (.refl _)))
    (.ite
      (.ite (invGo ..) (.refl _))
      (.ite
        (.ite (retireDie ..) (.refl _))
        (.ite
          (.ite (timSetGo ..) (.refl _))
          (.ite
            (.after (.ite (evrClear ..) (.refl _)) (.ite (faultFlush ..) (.refl _)))
            (.ite
              (.ite (fenceUnit ..) (.ite (release ..) (.refl _)))
              (.ite (linkEn ..) (.ite (tolCheck ..) (.ite (stepUp ..) (.ite (tsSet ..) (.refl _))))))))))

/-! ### The controller reset (17 R386, R387; 23 R496, R499) -/

theorem pupRestart : KeepsInv s s.pupRestart := by
  unfold State.pupRestart
  exact .after
    (upd rfl)
    (.after
      (.ite (wr ..) (.refl _))
      ((sweepDrop ..).after ((redeliver ..).after ((dmaStop ..).after (.ite (rollback ..) (.refl _))))))

theorem ctrlReset : KeepsInv s s.ctrlReset := by
  unfold State.ctrlReset
  exact (faultLow ..).after
    (.after
      (upd rfl)
      (.after
        (upd rfl)
        ((wr ..).after
          ((wr ..).after
            ((wr ..).after
              ((wr ..).after
                ((wr ..).after
                  ((inc ..).after
                    ((wr ..).after
                      ((wr ..).after
                        ((wr ..).after
                          ((wr ..).after
                            ((endReset ..).after
                              ((dropCmds ..).after
                                ((pupRestart ..).after
                                  ((ckptFinish ..).after
                                    (.after (.foldl (fun _ _ => (writeLine ..))) (ckptStart ..))))))))))))))))))

theorem genCtl (v : Nat) : KeepsInv s (s.genCtl v) := by
  unfold State.genCtl
  exact .ite (wr ..) (.ite (.refl _) (.ite (wr ..) (ctrlReset ..)))

/-! ### Command fetch (03 R73; 20 R433, R435) -/

theorem ctxParity (i : Nat) (q : Queue) : KeepsInv s (s.ctxParity i q) := by
  unfold State.ctxParity
  exact .after (.ite (fence ..) (.after (.ite (queueReset ..) ((wr ..).after (ctrlReset ..))) (deviceFault ..))) (sramUe ..)

theorem execCommandFetch (cid : Nat) (perr : Bool) : KeepsInv.Outc s (execCommandFetch cid perr s) := by
  unfold Machine.execCommandFetch
  exact .next (.ite (.refl _) (.opt (fun _ => (.ite (ctxParity ..) (fetchFrom ..))) (.refl _)))

/-! ### A dword written -/

theorem writeReg (p : Nat) (r : Reg) (i j h v : Nat) : KeepsInv s (s.writeReg p r i j h v) := by
  unfold State.writeReg
  exact .ite (genCtl ..) (.optMem (fun f e => refusedBy s e) ((wrote ..).after (.foldl (fun _ _ => writeFld ..))))

theorem write4 (p a v : Nat) : KeepsInv s (s.write4 p a v) := by
  unfold State.write4
  exact .opt (fun _ => (writeReg ..)) (.refl _)

theorem write (p a : Nat) (ws : List Nat) : KeepsInv s (s.write p a ws) := by
  unfold State.write
  exact .after (.ite (accLog ..) (.after (.foldl (fun _ _ => (write4 ..))) (.ite (accLog ..) (.refl _)))) (unlatch ..)

theorem writeWords (p a : Nat) (ws : List Nat) : KeepsInv s (s.writeWords p a ws) := by
  induction ws generalizing s a with
  | nil => exact refl s
  | cons w ws ih => exact .ite ((ih ..).after (write ..)) (.refl _)

theorem answer (p a : Nat) (ws : List Nat) : KeepsInv s (s.answer p a ws) := by
  unfold State.answer
  exact .ite (send ..) (send ..)

/-! ### The meanings of the register commands -/

theorem execManagementRegisterWrite (a len : Nat) (full : Bool) (v : Nat) : KeepsInv.Outc s (execManagementRegisterWrite a len full v s) := by
  unfold Machine.execManagementRegisterWrite
  exact .next (.ite (.refl _) (.ite ((accLog ..).after (unlatch ..)) (.ite ((accLog ..).after (unlatch ..)) (write ..))))

theorem execRcFieldRead (a len : Nat) (full : Bool) : KeepsInv.Outc s (execRcFieldRead a len full s) := by
  unfold Machine.execRcFieldRead
  exact .next
    (.ite
      (.refl _)
      (.ite
        ((send ..).after ((accLog ..).after (unlatch ..)))
        (.ite
          ((send ..).after ((accLog ..).after (unlatch ..)))
          ((send ..).after ((fst (.ite (read4 ..) (read8 ..))).after (.ite (.refl _) (accLog ..)))))))

theorem execGenCtrlReset (p key : Nat) : KeepsInv.Outc s (execGenCtrlReset p key s) := by
  unfold Machine.execGenCtrlReset
  exact .next (.ite (write ..) (.refl _))

theorem execMedDieRetireGo (p die : Nat) : KeepsInv.Outc s (execMedDieRetireGo p die s) := by
  unfold Machine.execMedDieRetireGo
  exact .next (.ite (write ..) (.refl _))

theorem execLgrLcTgtWrite (p k us : Nat) : KeepsInv.Outc s (execLgrLcTgtWrite p k us s) := by
  unfold Machine.execLgrLcTgtWrite
  exact .next (.ite (write ..) (.refl _))

theorem execLgrEvtVecWrite (p k vec : Nat) (en : Bool) : KeepsInv.Outc s (execLgrEvtVecWrite p k vec en s) := by
  unfold Machine.execLgrEvtVecWrite
  exact .next (.ite (write ..) (.refl _))

theorem execFtlGcCfgWrite (p low crit start ahead : Nat) : KeepsInv.Outc s (execFtlGcCfgWrite p low crit start ahead s) := by
  unfold Machine.execFtlGcCfgWrite
  exact .next (.ite (write ..) (.refl _))

theorem execHealthWindowRead (p w : Nat) : KeepsInv.Outc s (execHealthWindowRead p w s) := by
  unfold Machine.execHealthWindowRead
  exact .next (.ite (.refl _) ((answer ..).after (readWords ..)))

theorem execTimNowRead (p : Nat) : KeepsInv.Outc s (execTimNowRead p s) := by
  unfold Machine.execTimNowRead
  exact .next (.ite (.refl _) ((answer ..).after (readWords ..)))

/-! ### What each request does -/

theorem st {x : Res} (h : KeepsInv.Outc s x) : KeepsInv s (x.st s) := by
  unfold Res.st
  split
  · exact h.get rfl
  · exact .refl _

set_option smartUnfolding true in
theorem tunnel (i : Instr) : KeepsInv s (s.tunnel i) := by
  unfold State.tunnel
  cases i
  case captureStreamCreate => exact st s (execCaptureStreamCreate ..)
  case captureStreamModify => exact st s (execCaptureStreamModify ..)
  case captureStreamStart => exact st s (execCaptureStreamStart ..)
  case captureStreamStop => exact st s (execCaptureStreamStop ..)
  case captureStreamDelete => exact st s (execCaptureStreamDelete ..)
  case firmwareDownload => exact st s (execFirmwareDownload ..)
  case firmwareCommitCa000 => exact st s (execFirmwareCommitCa000 ..)
  case firmwareCommitCa001 => exact st s (execFirmwareCommitCa001 ..)
  case firmwareCommitCa010 => exact st s (execFirmwareCommitCa010 ..)
  case firmwareCommitCa011 => exact st s (execFirmwareCommitCa011 ..)
  case beginReshape => exact st s (execBeginReshape ..)
  case abortReshape => exact st s (execAbortReshape ..)
  case prepareRemoval => exact st s (execPrepareRemoval ..)
  case getLogPageEventQueue => exact st s (execGetLogPageEventQueue ..)
  case getLogPageChangedZoneList => exact st s (execGetLogPageChangedZoneList ..)
  case getLogPageCalibrationSweep => exact st s (execGetLogPageCalibrationSweep ..)
  case getLogPageTemperatureSweep => exact st s (execGetLogPageTemperatureSweep ..)
  case getLogPageRecorderLive => exact st s (execGetLogPageRecorderLive ..)
  case getLogPageRecorderNand => exact st s (execGetLogPageRecorderNand ..)
  case getLogPageRecorderNor => exact st s (execGetLogPageRecorderNor ..)
  case getLogPageSmartHealth => exact st s (execGetLogPageSmartHealth ..)
  case getLogPageErrorInformation => exact st s (execGetLogPageErrorInformation ..)
  case namespaceCreate => exact st s (execNamespaceCreate ..)
  case namespaceDelete => exact st s (execNamespaceDelete ..)
  case namespaceAttachment => exact st s (execNamespaceAttachment ..)
  case formatNvm => exact st s (execFormatNvm ..)
  case sanitizeCryptoErase => exact st s (execSanitizeCryptoErase ..)
  case identify => exact st s (execIdentify ..)
  case keepAlive => exact st s (execKeepAlive ..)
  case setFeaturesPowerManagement => exact st s (execSetFeaturesPowerManagement ..)
  case setFeaturesApst => exact st s (execSetFeaturesApst ..)
  case setFeaturesTempThreshold => exact st s (execSetFeaturesTempThreshold ..)
  case createIoCompletionQueue => exact st s (execCreateIoCompletionQueue ..)
  case createIoSubmissionQueue => exact st s (execCreateIoSubmissionQueue ..)
  case deleteIoCompletionQueue => exact st s (execDeleteIoCompletionQueue ..)
  case deleteIoSubmissionQueue => exact st s (execDeleteIoSubmissionQueue ..)
  case setFeaturesQueueClass => exact st s (execSetFeaturesQueueClass ..)
  case getFeaturesQueueClass => exact st s (execGetFeaturesQueueClass ..)
  case setFeaturesInterruptCoalescing => exact st s (execSetFeaturesInterruptCoalescing ..)
  case setFeaturesIntVectorConfig => exact st s (execSetFeaturesIntVectorConfig ..)
  case asyncEventRequest => exact st s (execAsyncEventRequest ..)
  case sliceCreate => exact st s (execSliceCreate ..)
  case sliceResize => exact st s (execSliceResize ..)
  case sliceDelete => exact st s (execSliceDelete ..)
  case sliceReset => exact st s (execSliceReset ..)
  case sliceFence => exact st s (execSliceFence ..)
  case queueReset => exact st s (execQueueReset ..)
  case sliceBind => exact st s (execSliceBind ..)
  case sliceUnbind => exact st s (execSliceUnbind ..)
  case setFeaturesTimestamp => exact st s (execSetFeaturesTimestamp ..)
  case getFeaturesTimestamp => exact st s (execGetFeaturesTimestamp ..)
  all_goals exact adm ..

theorem miStructure (ty : Nat) : KeepsInv s (s.miStructure ty) := by
  unfold State.miStructure
  exact (draw ..).after (send ..)

theorem miSubsystem : KeepsInv s s.miSubsystem := by
  unfold State.miSubsystem
  exact send ..

theorem miController (n : Nat) : KeepsInv s (s.miController n) := by
  unfold State.miController
  exact .opt (fun _ => (send ..)) (send ..)

theorem miGet (id : Nat) : KeepsInv s (s.miGet id) := by
  unfold State.miGet
  exact .ite (send ..) (send ..)

theorem miSet (id v : Nat) : KeepsInv s (s.miSet id v) := by
  unfold State.miSet
  exact .ite ((send ..).after (upd rfl)) (send ..)

theorem vpdRead (off len : Nat) : KeepsInv s (s.vpdRead off len) := by
  unfold State.vpdRead
  exact .ite (send ..) (send ..)

theorem vpdWrite (off : Nat) (data : List Nat) : KeepsInv s (s.vpdWrite off data) := by
  unfold State.vpdWrite
  exact .ite ((send ..).after (upd rfl)) (send ..)

theorem miRegRead (a len : Nat) : KeepsInv s (s.miRegRead a len) := by
  unfold State.miRegRead
  exact .ite ((answer ..).after (readWords ..)) (send ..)

theorem miRegWrite (a len : Nat) (ws : List Nat) : KeepsInv s (s.miRegWrite a len ws) := by
  unfold State.miRegWrite
  exact .ite ((writeWords ..).after (send ..)) (send ..)

theorem miRun (i : Instr) : KeepsInv s (s.miRun i) := by
  unfold State.miRun
  split
  · exact miStructure ..
  · exact miSubsystem ..
  · exact miController ..
  · exact miGet ..
  · exact miSet ..
  · exact vpdRead ..
  · exact vpdWrite ..
  · exact send ..
  · exact tunnel ..
  · exact miRegRead ..
  · exact miRegWrite ..
  · exact .refl _

/-! ### Held and served (16 R364; 17 R384; 18 R404; 23 R490) -/

theorem serveList (l : List Instr) : KeepsInv s (State.serveList l s) := by
  induction l generalizing s with
  | nil => exact upd rfl
  | cons i t ih => exact .ite ((ih _).after (miRun ..)) (upd rfl)

theorem serveHeld : KeepsInv s s.serveHeld := by
  unfold State.serveHeld
  exact .ite (.refl _) (serveList ..)

theorem holdMi (i : Instr) : KeepsInv s (s.holdMi i) := by
  unfold State.holdMi
  exact .ite (upd rfl) (.refl _)

theorem mi (vdm mic : Bool) (i : Instr) : KeepsInv s (s.mi vdm mic i) := by
  unfold State.mi
  exact .ite (.refl _) (.ite (wakeSrc ..) (.ite ((miRun ..).after (serveHeld ..)) (.ite (holdMi ..) (.refl _))))

theorem clock : KeepsInv s s.clock := by
  unfold State.clock
  exact (serveHeld ..).after ((drcDrain ..).after (cycle ..))

/-! ### The meanings of the NVMe-MI commands -/

theorem execMiReadDataStructure (vdm mic : Bool) (ty : Nat) : KeepsInv.Outc s (execMiReadDataStructure vdm mic ty s) := by
  unfold Machine.execMiReadDataStructure
  exact .next (mi ..)

theorem execMiSubsystemHealthPoll (vdm mic : Bool) : KeepsInv.Outc s (execMiSubsystemHealthPoll vdm mic s) := by
  unfold Machine.execMiSubsystemHealthPoll
  exact .next (mi ..)

theorem execMiControllerHealthPoll (vdm mic : Bool) (n : Nat) : KeepsInv.Outc s (execMiControllerHealthPoll vdm mic n s) := by
  unfold Machine.execMiControllerHealthPoll
  exact .next (mi ..)

theorem execMiConfigurationGet (vdm mic : Bool) (id : Nat) : KeepsInv.Outc s (execMiConfigurationGet vdm mic id s) := by
  unfold Machine.execMiConfigurationGet
  exact .next (mi ..)

theorem execMiConfigurationSet (vdm mic : Bool) (id v : Nat) : KeepsInv.Outc s (execMiConfigurationSet vdm mic id v s) := by
  unfold Machine.execMiConfigurationSet
  exact .next (mi ..)

theorem execMiVpdRead (vdm mic : Bool) (off len : Nat) : KeepsInv.Outc s (execMiVpdRead vdm mic off len s) := by
  unfold Machine.execMiVpdRead
  exact .next (mi ..)

theorem execMiVpdWrite (vdm mic : Bool) (off : Nat) (data : List Nat) : KeepsInv.Outc s (execMiVpdWrite vdm mic off data s) := by
  unfold Machine.execMiVpdWrite
  exact .next (mi ..)

theorem execMiReset (vdm mic : Bool) : KeepsInv.Outc s (execMiReset vdm mic s) := by
  unfold Machine.execMiReset
  exact .next (mi ..)

theorem execMiTunnelledAdmin (vdm mic : Bool) (c : Instr) : KeepsInv.Outc s (execMiTunnelledAdmin vdm mic c s) := by
  unfold Machine.execMiTunnelledAdmin
  exact .next (mi ..)

theorem execSmbusBasicManagementRead : KeepsInv.Outc s (execSmbusBasicManagementRead s) := by
  unfold Machine.execSmbusBasicManagementRead
  exact .next (.ite (.refl _) (.ite (wakeSrc ..) (.ite (.refl _) (send ..))))

theorem execRegisterRead (vdm mic : Bool) (a len : Nat) : KeepsInv.Outc s (execRegisterRead vdm mic a len s) := by
  unfold Machine.execRegisterRead
  exact .next (mi ..)

theorem execRegisterWrite (vdm mic : Bool) (a len : Nat) (ws : List Nat) : KeepsInv.Outc s (execRegisterWrite vdm mic a len ws s) := by
  unfold Machine.execRegisterWrite
  exact .next (mi ..)

theorem pasidOff (n : Nat) : KeepsInv s (s.pasidOff n) := by
  unfold State.pasidOff
  exact .opt (fun _ => ((queueResets ..).after (putFn ..))) (.refl _)

theorem busMaster (n : Nat) : KeepsInv s (s.busMaster n) := by
  unfold State.busMaster
  refine .opt (fun f => .after (.foldl (fun s h => .ite (stale ..) ?_)) (putFn ..)) (.refl _)
  split
  · exact .opt (fun _ => .after (.opt (fun _ => signal ..) (.refl _)) ((pushCq ..).after (send ..))) (.refl _)
  · exact postAdm ..

theorem execConfigurationRequest (n reg val : Nat) : KeepsInv.Outc s (execConfigurationRequest n reg val s) := by
  refine .next (.ite (.refl _) (.ite (send ..) (.after (.opt (fun f => ?_) (.refl _)) (send ..))))
  split
  · exact putFn ..
  · exact .ite (pasidOff ..) (putFn ..)
  · exact (tolCheck ..).after (upd rfl)
  · exact upd rfl
  · exact .refl _

theorem linkReset (l : Nat) : KeepsInv s (s.linkReset l) := by
  unfold State.linkReset
  exact (pcxWarm ..).after (.foldl (fun _ _ => (pfReset ..)))

theorem execPerstNAssert (l : Nat) (pin : Bool) : KeepsInv.Outc s (execPerstNAssert l pin s) := by
  unfold Machine.execPerstNAssert
  exact .next
    (.ite
      (.refl _)
      (.after
        (.ite
          (.refl _)
          (.after
            (.ite (inc ..) (.refl _))
            ((linkOff ..).after ((linkReset ..).after (.ite ((wr ..).after ((edge ..).after (inc ..))) (.refl _))))))
        (.ite (upd rfl) (.refl _))))

theorem execPerstNDeassert (l speed width : Nat) (flit cxl : Bool) (ns : Nat) :
    KeepsInv.Outc s (execPerstNDeassert l speed width flit cxl ns s) := by
  unfold Machine.execPerstNDeassert
  exact .next
    (.ite
      (.refl _)
      (.after
        (.ite
          (wakeSrc ..)
          (.ite (.refl _) (.after (.ite (linkOn ..) (.refl _)) (.ite (.refl _) ((wakeSrc ..).after (edge ..))))))
        (upd rfl)))

theorem execFlrPf (pf : Nat) : KeepsInv.Outc s (execFlrPf pf s) := by
  unfold Machine.execFlrPf
  exact .next (.ite (.refl _) ((pfReset ..).after ((inc ..).after (.ite (wr ..) (.refl _)))))

theorem execFlrVf (n : Nat) : KeepsInv.Outc s (execFlrVf n s) := by
  unfold Machine.execFlrVf
  exact .next (.ite (.refl _) ((fnReset ..).after (inc ..)))

theorem execCcEnSet (n : Nat) : KeepsInv.Outc s (execCcEnSet n s) := by
  unfold Machine.execCcEnSet
  exact .next (.opt (fun _ => ((tryReady ..).after (putFn ..))) (.refl _))

theorem execCcEnClear (n : Nat) : KeepsInv.Outc s (execCcEnClear n s) := by
  unfold Machine.execCcEnClear
  exact .next (ctlReset ..)

theorem execShutdownNotification (n : Nat) : KeepsInv.Outc s (execShutdownNotification n s) := by
  unfold Machine.execShutdownNotification
  exact .next
    (.opt
      (fun _ => ((ckptFinish ..).after (.after (.foldl (fun _ _ => (writeLine ..))) ((ckptStart ..).after (putFn ..)))))
      (.refl _))

theorem execVfEnableSet (pf n : Nat) : KeepsInv.Outc s (execVfEnableSet pf n s) := by
  unfold Machine.execVfEnableSet
  exact .next
    (.opt
      (fun _ =>
        (.ite (.refl _) (.ite (wr ..) (.after (.foldl (fun _ _ => (putFn ..))) ((wr ..).after ((wr ..).after (putFn ..)))))))
      (.refl _))

theorem execVfEnableClear (pf : Nat) : KeepsInv.Outc s (execVfEnableClear pf s) := by
  unfold Machine.execVfEnableClear
  exact .next (.ite (vfOff ..) (.refl _))

theorem execBusMasterEnableClear (n : Nat) : KeepsInv.Outc s (execBusMasterEnableClear n s) := by
  unfold Machine.execBusMasterEnableClear
  exact .next (.opt (fun _ => (putFn ..)) (.refl _))

theorem execBusMasterEnableSet (n : Nat) : KeepsInv.Outc s (execBusMasterEnableSet n s) := by
  unfold Machine.execBusMasterEnableSet
  exact .next (busMaster ..)

theorem execPasidEnableClear (n : Nat) : KeepsInv.Outc s (execPasidEnableClear n s) := by
  unfold Machine.execPasidEnableClear
  exact .next (pasidOff ..)

set_option smartUnfolding true in
theorem exec (i : Instr) : KeepsInv.Outc s (exec i s) := by
  unfold Machine.exec
  cases i
  case sliceCreate => exact execSliceCreate ..
  case sliceResize => exact execSliceResize ..
  case sliceDelete => exact execSliceDelete ..
  case sliceReset => exact execSliceReset ..
  case sliceFence => exact execSliceFence ..
  case queueReset => exact execQueueReset ..
  case sliceBind => exact execSliceBind ..
  case sliceUnbind => exact execSliceUnbind ..
  case captureStreamCreate => exact execCaptureStreamCreate ..
  case captureStreamModify => exact execCaptureStreamModify ..
  case captureStreamStart => exact execCaptureStreamStart ..
  case captureStreamStop => exact execCaptureStreamStop ..
  case captureStreamDelete => exact execCaptureStreamDelete ..
  case beginReshape => exact execBeginReshape ..
  case abortReshape => exact execAbortReshape ..
  case prepareRemoval => exact execPrepareRemoval ..
  case firmwareDownload => exact execFirmwareDownload ..
  case firmwareCommitCa000 => exact execFirmwareCommitCa000 ..
  case firmwareCommitCa001 => exact execFirmwareCommitCa001 ..
  case firmwareCommitCa010 => exact execFirmwareCommitCa010 ..
  case firmwareCommitCa011 => exact execFirmwareCommitCa011 ..
  case createIoSubmissionQueue => exact execCreateIoSubmissionQueue ..
  case createIoCompletionQueue => exact execCreateIoCompletionQueue ..
  case deleteIoCompletionQueue => exact execDeleteIoCompletionQueue ..
  case deleteIoSubmissionQueue => exact execDeleteIoSubmissionQueue ..
  case connect => exact execConnect ..
  case setFeaturesQueueClass => exact execSetFeaturesQueueClass ..
  case getFeaturesQueueClass => exact execGetFeaturesQueueClass ..
  case setFeaturesTimestamp => exact execSetFeaturesTimestamp ..
  case getFeaturesTimestamp => exact execGetFeaturesTimestamp ..
  case setFeaturesPowerManagement => exact execSetFeaturesPowerManagement ..
  case setFeaturesApst => exact execSetFeaturesApst ..
  case setFeaturesInterruptCoalescing => exact execSetFeaturesInterruptCoalescing ..
  case setFeaturesIntVectorConfig => exact execSetFeaturesIntVectorConfig ..
  case setFeaturesTempThreshold => exact execSetFeaturesTempThreshold ..
  case getLogPageEventQueue => exact execGetLogPageEventQueue ..
  case getLogPageChangedZoneList => exact execGetLogPageChangedZoneList ..
  case getLogPageCalibrationSweep => exact execGetLogPageCalibrationSweep ..
  case getLogPageTemperatureSweep => exact execGetLogPageTemperatureSweep ..
  case getLogPageRecorderLive => exact execGetLogPageRecorderLive ..
  case getLogPageRecorderNand => exact execGetLogPageRecorderNand ..
  case getLogPageRecorderNor => exact execGetLogPageRecorderNor ..
  case getLogPageSmartHealth => exact execGetLogPageSmartHealth ..
  case getLogPageErrorInformation => exact execGetLogPageErrorInformation ..
  case identify => exact execIdentify ..
  case namespaceCreate => exact execNamespaceCreate ..
  case namespaceDelete => exact execNamespaceDelete ..
  case namespaceAttachment => exact execNamespaceAttachment ..
  case formatNvm => exact execFormatNvm ..
  case sanitizeCryptoErase => exact execSanitizeCryptoErase ..
  case asyncEventRequest => exact execAsyncEventRequest ..
  case keepAlive => exact execKeepAlive ..
  case keepAliveExpiry => exact execKeepAliveExpiry ..
  case read => exact execRead ..
  case write => exact execWrite ..
  case zoneAppend => exact execZoneAppend ..
  case writeZeroes => exact execWriteZeroes ..
  case deallocate => exact execDeallocate ..
  case flush => exact execFlush ..
  case frameRead => exact execFrameRead ..
  case zoneOpen => exact execZoneOpen ..
  case zoneClose => exact execZoneClose ..
  case zoneFinish => exact execZoneFinish ..
  case zoneReset => exact execZoneReset ..
  case zoneOffline => exact execZoneOffline ..
  case reportZones => exact execReportZones ..
  case extendedReportZones => exact execExtendedReportZones ..
  case writeAdmit => exact execWriteAdmit ..
  case writeCommit => exact execWriteCommit ..
  case zoneHoldTimeout => exact execZoneHoldTimeout ..
  case deadlineMiss => exact execDeadlineMiss ..
  case placementRetry => exact execPlacementRetry ..
  case ledgerEpoch => exact execLedgerEpoch ..
  case doorbellWrite => exact execDoorbellWrite ..
  case commandFetch => exact execCommandFetch ..
  case dieOperationIssue => exact execDieOperationIssue ..
  case dieReadDone => exact execDieReadDone ..
  case programDone => exact execProgramDone ..
  case eraseDone => exact execEraseDone ..
  case eraseSuspended => exact execEraseSuspended ..
  case programFail => exact execProgramFail ..
  case eraseFail => exact execEraseFail ..
  case dieOpTimeout => exact execDieOpTimeout ..
  case finePassUrgent => exact execFinePassUrgent ..
  case decodeDone => exact execDecodeDone ..
  case decoderWatchdog => exact execDecoderWatchdog ..
  case foldIssue => exact execFoldIssue ..
  case patrolRead => exact execPatrolRead ..
  case calibrationSweep => exact execCalibrationSweep ..
  case temperatureSweep => exact execTemperatureSweep ..
  case wearForecast => exact execWearForecast ..
  case correctionSave => exact execCorrectionSave ..
  case reclamation => exact execReclamation ..
  case relocation => exact execRelocation ..
  case rebuildStripe => exact execRebuildStripe ..
  case substitutionDelayExpiry => exact execSubstitutionDelayExpiry ..
  case unreachWaitExpiry => exact execUnreachWaitExpiry ..
  case stagingOverflowMove => exact execStagingOverflowMove ..
  case journalPageCommit => exact execJournalPageCommit ..
  case journalPagePersist => exact execJournalPagePersist ..
  case keyGenerationAdvance => exact execKeyGenerationAdvance ..
  case checkpointStart => exact execCheckpointStart ..
  case checkpointEnd => exact execCheckpointEnd ..
  case mapWriteback => exact execMapWriteback ..
  case mapFillArrival => exact execMapFillArrival ..
  case hopTrainingDone => exact execHopTrainingDone ..
  case hopTrainingFail => exact execHopTrainingFail ..
  case hopRetrain => exact execHopRetrain ..
  case quietEntry => exact execQuietEntry ..
  case burstStart => exact execBurstStart ..
  case keepalive => exact execKeepalive ..
  case flitReceive => exact execFlitReceive ..
  case nakReceived => exact execNakReceived ..
  case replayTimeout => exact execReplayTimeout ..
  case flitLockLoss => exact execFlitLockLoss ..
  case noProgress => exact execNoProgress ..
  case breakNotice => exact execBreakNotice ..
  case widthChange => exact execWidthChange ..
  case sidebandInsert => exact execSidebandInsert ..
  case sidebandAlert => exact execSidebandAlert ..
  case sidebandAbsent => exact execSidebandAbsent ..
  case chainEnumeration => exact execChainEnumeration ..
  case linkEngineWatchdog => exact execLinkEngineWatchdog ..
  case bridgeCounterCollect => exact execBridgeCounterCollect ..
  case voltageLoopTick => exact execVoltageLoopTick ..
  case regulatorPoll => exact execRegulatorPoll ..
  case regulatorRetry => exact execRegulatorRetry ..
  case sensorConversion => exact execSensorConversion ..
  case remoteConversion => exact execRemoteConversion ..
  case thermalStepFallback => exact execThermalStepFallback ..
  case paceLowFallback => exact execPaceLowFallback ..
  case overrunStep => exact execOverrunStep ..
  case idleEntry => exact execIdleEntry ..
  case dozeNapExit => exact execDozeNapExit ..
  case jackEntry => exact execJackEntry ..
  case wakeEvent => exact execWakeEvent ..
  case wakeFrame => exact execWakeFrame ..
  case jackExit => exact execJackExit ..
  case ppsEdge => exact execPpsEdge ..
  case holdoverEnter => exact execHoldoverEnter ..
  case timerExpiry => exact execTimerExpiry ..
  case timSetGo => exact execTimSetGo ..
  case eventRaise => exact execEventRaise ..
  case evrClear => exact execEvrClear ..
  case evrFlush => exact execEvrFlush ..
  case mailboxPop => exact execMailboxPop ..
  case mailboxAcknowledge => exact execMailboxAcknowledge ..
  case watchdogWrite => exact execWatchdogWrite ..
  case watchdogExpiry => exact execWatchdogExpiry ..
  case compareMismatch => exact execCompareMismatch ..
  case selfCheckRequest => exact execSelfCheckRequest ..
  case spareSelfTest => exact execSpareSelfTest ..
  case itcmFetchParity => exact execItcmFetchParity ..
  case dtcmParityError => exact execDtcmParityError ..
  case dmaHalt => exact execDmaHalt ..
  case alternateBankLoaded => exact execAlternateBankLoaded ..
  case swapGo => exact execSwapGo ..
  case swapCommit => exact execSwapCommit ..
  case swapRollback => exact execSwapRollback ..
  case miReadDataStructure => exact execMiReadDataStructure ..
  case miSubsystemHealthPoll => exact execMiSubsystemHealthPoll ..
  case miControllerHealthPoll => exact execMiControllerHealthPoll ..
  case miConfigurationGet => exact execMiConfigurationGet ..
  case miConfigurationSet => exact execMiConfigurationSet ..
  case miVpdRead => exact execMiVpdRead ..
  case miVpdWrite => exact execMiVpdWrite ..
  case miReset => exact execMiReset ..
  case miTunnelledAdmin => exact execMiTunnelledAdmin ..
  case smbusBasicManagementRead => exact execSmbusBasicManagementRead ..
  case registerRead => exact execRegisterRead ..
  case registerWrite => exact execRegisterWrite ..
  case managementRegisterWrite => exact execManagementRegisterWrite ..
  case rcFieldRead => exact execRcFieldRead ..
  case genCtrlReset => exact execGenCtrlReset ..
  case mcacheDisable => exact execMcacheDisable ..
  case mcacheEnable => exact execMcacheEnable ..
  case mcacheInvAll => exact execMcacheInvAll ..
  case mcacheInvGo => exact execMcacheInvGo ..
  case medDieRetireGo => exact execMedDieRetireGo ..
  case rasUnitFence => exact execRasUnitFence ..
  case rasUnitRelease => exact execRasUnitRelease ..
  case lgrLcTgtWrite => exact execLgrLcTgtWrite ..
  case lgrEvtVecWrite => exact execLgrEvtVecWrite ..
  case ftlGcCfgWrite => exact execFtlGcCfgWrite ..
  case unitSelfTest => exact execUnitSelfTest ..
  case ceRateCheck => exact execCeRateCheck ..
  case iftDatagram => exact execIftDatagram ..
  case stallTimeout => exact execStallTimeout ..
  case frameCommit => exact execFrameCommit ..
  case indexBlockWrite => exact execIndexBlockWrite ..
  case laneWatchdog => exact execLaneWatchdog ..
  case cipherKnownAnswerTest => exact execCipherKnownAnswerTest ..
  case rngFail => exact execRngFail ..
  case keyDerivationDone => exact execKeyDerivationDone ..
  case arpRequest => exact execArpRequest ..
  case echoRequest => exact execEchoRequest ..
  case addressResolutionTimeout => exact execAddressResolutionTimeout ..
  case pfcFrame => exact execPfcFrame ..
  case pfcRefresh => exact execPfcRefresh ..
  case rocePacket => exact execRocePacket ..
  case cnpReceived => exact execCnpReceived ..
  case ccRateTimer => exact execCcRateTimer ..
  case cmReq => exact execCmReq ..
  case cmDreq => exact execCmDreq ..
  case rdmaWriteWithImmediate => exact execRdmaWriteWithImmediate ..
  case commandCapsule => exact execCommandCapsule ..
  case rdmaReadResponse => exact execRdmaReadResponse ..
  case ackTimeout => exact execAckTimeout ..
  case rnrNak => exact execRnrNak ..
  case inboundRdmaRead => exact execInboundRdmaRead ..
  case subportFault => exact execSubportFault ..
  case subportTrainingDone => exact execSubportTrainingDone ..
  case upHoldExpiry => exact execUpHoldExpiry ..
  case flapHoldExpiry => exact execFlapHoldExpiry ..
  case dramRefresh => exact execDramRefresh ..
  case mr4Poll => exact execMr4Poll ..
  case dramActivate => exact execDramActivate ..
  case activationTableClear => exact execActivationTableClear ..
  case dramScrubRead => exact execDramScrubRead ..
  case cxlMemRead => exact execCxlMemRead ..
  case cxlMemWrite => exact execCxlMemWrite ..
  case cxlGranuleWriteback => exact execCxlGranuleWriteback ..
  case gpfPhase1 => exact execGpfPhase1 ..
  case gpfPhase2 => exact execGpfPhase2 ..
  case configurationRequest => exact execConfigurationRequest ..
  case perstNAssert => exact execPerstNAssert ..
  case perstNDeassert => exact execPerstNDeassert ..
  case flrPf => exact execFlrPf ..
  case flrVf => exact execFlrVf ..
  case ccEnSet => exact execCcEnSet ..
  case ccEnClear => exact execCcEnClear ..
  case shutdownNotification => exact execShutdownNotification ..
  case vfEnableSet => exact execVfEnableSet ..
  case vfEnableClear => exact execVfEnableClear ..
  case busMasterEnableClear => exact execBusMasterEnableClear ..
  case busMasterEnableSet => exact execBusMasterEnableSet ..
  case pasidEnableClear => exact execPasidEnableClear ..
  case pfailNFall => exact execPfailNFall ..
  case flushDone => exact execFlushDone ..
  case pfailNRise => exact execPfailNRise ..
  case porNFall => exact execPorNFall ..
  case porNRise => exact execPorNRise ..
  case dramTrainingDone => exact execDramTrainingDone ..
  case dramFillDone => exact execDramFillDone ..
  case adminReady => exact execAdminReady ..
  case journalReplayDone => exact execJournalReplayDone ..
  case flushBankErased => exact execFlushBankErased ..
  case admissionOpen => exact execAdmissionOpen ..
  case uartLoaderBlock => exact execUartLoaderBlock ..
  case uartLoaderEnd => exact execUartLoaderEnd ..
  case refclkLoss => exact execRefclkLoss ..
  case subportSignalDetect => exact execSubportSignalDetect ..
  case partialFlitTimeout => exact execPartialFlitTimeout ..
  case arpReply => exact execArpReply ..
  case peerMacLifetimeExpiry => exact execPeerMacLifetimeExpiry ..
  case droppedFrame => exact execDroppedFrame ..
  case pfcPauseExpiry => exact execPfcPauseExpiry ..
  case aggregationTimeExpiry => exact execAggregationTimeExpiry ..
  case hdmDecoderCommit => exact execHdmDecoderCommit ..
  case rngFailClear => exact execRngFailClear ..
  case readUrgencyRise => exact execReadUrgencyRise ..
  case timerArm => exact execTimerArm ..
  case pupCacheParityError => exact execPupCacheParityError ..
  case healthWindowRead => exact execHealthWindowRead ..
  case timNowRead => exact execTimNowRead ..

end KeepsInv

end Sys2Proof.Machine

namespace Sys2Proof.Machine

/-- Settles O60: every command keeps the invariant, and so does the clock. -/
theorem stepKeepsTheInvariant : Obligations.StepKeepsTheInvariant := by
  intro s t hs h
  unfold step at h
  split at h
  · exact ((KeepsInv.Outc.next (KeepsInv.clock s)).get h).inv hs
  · exact ((KeepsInv.exec _ _).get h).inv (hs.congr rfl rfl)

end Sys2Proof.Machine
end

section
/-! O57, O58, O59: a step runs the command at the front of the queue, and with none waiting one REFCLK cycle passes (log 1). -/
namespace Sys2Proof.Machine

/-- Settles O57: the definition of a step. -/
theorem stepRunsTheFrontCommand : Obligations.StepRunsTheFrontCommand := fun _ _ _ => rfl

/-- Settles O59: the register file and the user data are empty after reset. -/
theorem resetHasTheInvariant : Obligations.ResetHasTheInvariant := ⟨⟨rfl, rfl⟩, rfl, rfl⟩

namespace State

variable {s : State}

/-- With no request queued there is none to serve. -/
theorem drcDrain_idle (h : ∀ ch, ch < 8 → s.dreqs ch = []) : s.drcDrain = s := by
  have step : ∀ l : List Nat, (∀ ch ∈ l, ch < 8) → l.foldl (fun (s : State) ch => State.drcServeN ch (s.dreqs ch).length s) s = s := by
    intro l hl
    induction l with
    | nil => rfl
    | cons ch l ih =>
      rw [List.foldl_cons, h ch (hl ch (by simp))]
      exact ih fun c hc => hl c (by simp [hc])
  exact step _ fun ch hc => List.mem_range.1 hc

theorem serveHeld_nothing (h : s.pup.miHeld = []) : s.serveHeld = s := by
  simp [serveHeld, h]

theorem cycle_stopped (h : s.counting = false) : s.cycle = s := by
  simp [cycle, h]

/-- Without a correction a cycle adds 6.4 ns. -/
theorem tickFx_plain (hf : s.rd F.TIM_FREQ_VALUE = 0) (hs : s.tim.slew = 0) : s.tickFx = ((cycleFx : Int), 0) := by
  have hl : 0 ≤ (cycleFx : Int) * s.rd F.TIM_CFG_SLEW_PPM / 1000000 := by positivity
  simp [tickFx, hf, hs, toSigned, hl]

/-- What a cycle without a correction leaves: its time added, no slew, and the controller not idle where it is not. -/
theorem cycle_plain (hc : s.counting = true) (hf : s.rd F.TIM_FREQ_VALUE = 0) (hs : s.tim.slew = 0) :
    ∃ b, s.cycle = { s with
      regs := (s.wr F.TIM_STS_SLEWING 0).regs
      tim := { s.tim with elFx := s.tim.elFx + cycleFx, slew := 0 }
      pwr := { s.pwr with busyAt := b } } := by
  simp only [cycle, hc, tickFx_plain hf hs, Bool.not_true, Bool.false_eq_true, if_false, hs]
  split <;> exact ⟨_, rfl⟩

end State

/-- Settles O58: the clock on an empty queue is one cycle, nothing being held. -/
theorem idleStepPassesOneCycle : Obligations.IdleStepPassesOneCycle := by
  have clock (s : State) (h : s.pending = []) : step s = .next s.clock := by rw [step, h]
  refine ⟨fun s hp hc hf hs hm hd => ?_, fun s hp hc hm hd => ?_⟩
  · obtain ⟨b, hb⟩ := State.cycle_plain hc hf hs
    have hclk : s.clock = s.cycle := by
      rw [State.clock, State.drcDrain_idle, State.serveHeld_nothing]
      · rw [hb]; exact hm
      · rw [hb]; exact hd
    refine ⟨s.cycle, by rw [clock s hp, hclk], ?_, ?_, ?_⟩
    · rw [hb, ← hs]; rfl
    · rw [hb]
      exact Keeps.trans (Keeps.wr (f := F.TIM_STS_SLEWING) (by simp) s 0 0 0 0) (Keeps.of_regs rfl)
    · rw [hb, ← hs]
  · rw [clock s hp, State.clock, State.cycle_stopped hc, State.drcDrain_idle hd, State.serveHeld_nothing hm]

end Sys2Proof.Machine
end

section
/-! O56: the snapshots of a record (19 R426), and O34: events and the recorder (19 R423, R427; 20 R441–R443). -/
namespace Sys2Proof

open Machine

namespace Machine

namespace State
variable (s : State)

theorem peek_reserved {a : Nat} (h : locate a regTable = none) (p : Nat) : s.peek p a = 0 := by rw [peek, h]

/-- With room in the buffer a record joins it, and nothing else happens. -/
theorem recAppend_room {s : State} (code arg trig : Nat) (addrs : List Nat) (flush : Bool) (hf : s.rd F.EVR_STS_FULL ≠ 1)
    (hr : s.evr.used + recLen addrs.length ≤ recBytes) : s.recAppend code arg trig addrs flush =
      { s with evr := { s.evr with
        recs := s.evr.recs ++ [⟨s.tns, s.frac, code, trig, s.recFlags flush, arg, addrs.map (fun a => (a, s.peek64 0 a))⟩]
        used := s.evr.used + recLen addrs.length } } := by
  simp only [recAppend, if_neg hf, if_neg (Nat.not_lt.2 hr)]

end State

/-- Settles O56: the record is the one appended, and nothing but the recorder's state changes. -/
theorem recorderSnapshots : Obligations.RecorderSnapshots := by
  intro code arg trig addrs flush s hf hr
  rw [State.recAppend_room code arg trig addrs flush hf hr]
  exact ⟨rfl, ⟨_, rfl, rfl, rfl, rfl, rfl, rfl⟩, fun a h h' => by simp [State.peek64, State.peek_reserved s h, State.peek_reserved s h']⟩

end Machine

/-- A longer list says less. -/
theorem Keeps.mono {s t : State} {fs gs : List Fld} (h : Keeps s t fs) (hs : ∀ f ∈ fs, f ∈ gs) : Keeps s t gs :=
  fun f i j p hf => h f i j p fun g hg => hf g (hs g hg)

namespace Machine

/-- From `s` to `t` no event joined the queue and none was lost. -/
structure SameEvents (s t : State) : Prop where
  evq : t.ras.evq = s.ras.evq
  seq : t.ras.evSeq = s.ras.evSeq
  lost : t.rd F.RAS_EVQ_LOST_CNT = s.rd F.RAS_EVQ_LOST_CNT

namespace SameEvents

theorem refl (s : State) : SameEvents s s := ⟨rfl, rfl, rfl⟩

theorem trans {a b c : State} (h : SameEvents a b) (k : SameEvents b c) : SameEvents a c :=
  ⟨k.evq.trans h.evq, k.seq.trans h.seq, k.lost.trans h.lost⟩

theorem foldl {α : Type} {f : State → α → State} (h : ∀ s a, SameEvents s (f s a)) (l : List α) (s : State) : SameEvents s (l.foldl f s) :=
  foldl_keeps (P := SameEvents s) (fun t a k => k.trans (h t a)) l s (refl s)

/-- What leaves the state of events alone and keeps the count of lost ones. -/
theorem of_keeps {s t : State} {fs : List Fld} (hr : t.ras = s.ras) (hk : Keeps s t fs) (hf : ∀ g ∈ fs, F.RAS_EVQ_LOST_CNT.id ≠ g.id) : SameEvents s t :=
  ⟨by rw [hr], by rw [hr], hk _ _ _ _ hf⟩

variable (s : State)

theorem ras {r : RasSt} (hq : r.evq = s.ras.evq) (hs : r.evSeq = s.ras.evSeq) : SameEvents s { s with ras := r } := ⟨hq, hs, rfl⟩

theorem admPost (o : Org) (c : Cpl) (t : Stamp) : (s.admPost o c t).ras = s.ras := by
  cases o with
  | fn n =>
    unfold State.admPost
    dsimp only
    split
    · rw [s.postAdm_eq n c]
    · unfold State.hold; split <;> rfl
  | fab a =>
    unfold State.admPost
    dsimp only
    split
    · next q _ => rw [s.sendQp_eq q.qp (.cpl c)]
    · rfl
  | _ => rfl

theorem adm (o : Org) (cid : Nat) (st : Nat × Nat) (dw0 : Nat) (data : List Nat) : SameEvents s (s.adm o cid st dw0 data) := by
  obtain ⟨errs, n, r, qs, h, -⟩ := s.adm_before o cid st
  have hr : (s.adm o cid st dw0 data).ras = { s.ras with errs := errs, integrity := n } := by rw [State.adm, admPost, h]
  exact ⟨by rw [hr], by rw [hr], s.adm_rd o cid st dw0 data _ 0 0 0 (by decide)⟩

theorem notify (c : Ctl) (ty info page : Nat) : SameEvents s (s.notify c ty info page) := by
  unfold State.notify
  split
  · refine SameEvents.trans ?_ (adm _ _ _ _ _ _)
    exact ras s rfl rfl
  · split
    · exact refl s
    · exact ras s rfl rfl

theorem reportTo (cls : Nat) (c : Ctl) : SameEvents s (s.reportTo cls c) := by
  unfold State.reportTo
  dsimp only
  split
  · exact refl s
  · refine SameEvents.trans ?_ (notify _ c 7 cls 0xD0)
    exact ras s rfl rfl

theorem loseFor (c : Ctl) : SameEvents s (s.loseFor c) := ras s rfl rfl

end SameEvents

/-- The fields that a charge changes (03 R76). -/
def chargeFields : List Fld := [F.LGR_SL_CHG_CHG, F.LGR_SL_NORM_N]

/-- The fields that a sector of the NOR ring changes (19 R428). -/
def norFields : List Fld := [F.EVR_NOR_SEQ, F.EVR_NOR_NEXT, F.EVR_NOR_ERASED]

namespace State
variable (s : State)

theorem charge_system (n c : Nat) : ∃ sl, s.charge n none c = { s with regs := (s.charge n none c).regs, sl := sl } ∧
    Keeps s (s.charge n none c) chargeFields :=
  ⟨_, rfl, (Keeps.addw (f := F.LGR_SL_CHG_CHG) (by decide) s _ _ _).trans (Keeps.wr (f := F.LGR_SL_NORM_N) (by decide) _ _ _ _ _)⟩

theorem chargeBg_eq (k c : Nat) : ∃ sl, s.chargeBg k c = { s with regs := (s.chargeBg k c).regs, sl := sl } ∧ Keeps s (s.chargeBg k c) chargeFields :=
  ⟨_, rfl, (s.charge_system 0 c).choose_spec.2⟩

/-- A sector of the NOR ring changes the recorder's copies and the ring's registers. -/
def NorCopied (s t : State) : Prop :=
  (∃ nor, t = { s with regs := t.regs, evr := { s.evr with nor := nor } }) ∧ Keeps s t norFields

theorem norWrite_copied (kind part parts ns : Nat) (recs : List Rec) : NorCopied s (s.norWrite kind part parts ns recs) :=
  ⟨⟨_, rfl⟩, ((Keeps.wr (f := F.EVR_NOR_SEQ) (by decide) s _ _ _ _).trans (Keeps.wr (f := F.EVR_NOR_NEXT) (by decide) _ _ _ _ _)).trans
    (Keeps.wr (f := F.EVR_NOR_ERASED) (by decide) _ _ _ _ _)⟩

theorem NorCopied.trans {a b c : State} (h : NorCopied a b) (k : NorCopied b c) : NorCopied a c := by
  obtain ⟨⟨n, hb⟩, hk⟩ := h
  obtain ⟨⟨m, hc⟩, kk⟩ := k
  exact ⟨⟨m, by rw [hc, hb]⟩, hk.trans kk⟩

theorem norCopy_copied (kind ns : Nat) (recs : List Rec) : NorCopied s (s.norCopy kind ns recs) :=
  foldl_keeps (P := NorCopied s) (fun t _ k => k.trans (t.norWrite_copied _ _ _ _ _)) _ s ⟨⟨s.evr.nor, rfl⟩, Keeps.refl s _⟩

/-- A flush of the recorder: the copies, a charge of slice 0, and one more flush counted. -/
theorem faultFlush_eq : ∃ nor sl t, t = { s with
      regs := t.regs
      evr := { s.evr with nand := (⟨s.tns, 1, s.evr.recs⟩ :: s.evr.nand).take 4, nor := nor }
      tim := { s.tim with saved := some s.tns }
      sl := sl } ∧ s.faultFlush = t.inc F.EVR_FLUSH_CNT_FAULT ∧ Keeps s t (chargeFields ++ norFields) := by
  let m : State := { s with evr := { s.evr with nand := (⟨s.tns, 1, s.evr.recs⟩ :: s.evr.nand).take 4 } }
  obtain ⟨sl, hc, hck⟩ := m.chargeBg_eq 5 (chgWrite Desc.ref (recsLen s.evr.recs))
  have hf : s.faultFlush = State.inc (State.norCopy { m.chargeBg 5 (chgWrite Desc.ref (recsLen s.evr.recs)) with
      tim := { s.tim with saved := some s.tns } } 1 s.tns s.evr.recs) F.EVR_FLUSH_CNT_FAULT := rfl
  generalize m.chargeBg 5 (chgWrite Desc.ref (recsLen s.evr.recs)) = c at hc hck hf
  obtain ⟨⟨nor, hn⟩, hnk⟩ := norCopy_copied { c with tim := { s.tim with saved := some s.tns } } 1 s.tns s.evr.recs
  refine ⟨nor, sl, _, ?_, hf, Keeps.trans (hck.mono fun f hf => List.mem_append_left _ hf) (hnk.mono fun f hf => List.mem_append_right _ hf)⟩
  rw [hn, hc]

/-- What a flush of the recorder does (19 R427). -/
theorem faultFlush_flushed : s.faultFlush.evr.recs = s.evr.recs ∧ s.faultFlush.evr.nand = (⟨s.tns, 1, s.evr.recs⟩ :: s.evr.nand).take 4 ∧
    s.faultFlush.tim = { s.tim with saved := some s.tns } ∧
    s.faultFlush.rd F.EVR_FLUSH_CNT_FAULT = sat F.EVR_FLUSH_CNT_FAULT.w (s.rd F.EVR_FLUSH_CNT_FAULT + 1) ∧
    s.faultFlush.ras = s.ras ∧ s.faultFlush.zn = s.zn ∧ s.faultFlush.outs = s.outs ∧
    Keeps s s.faultFlush (F.EVR_FLUSH_CNT_FAULT :: chargeFields ++ norFields) := by
  obtain ⟨nor, sl, t, ht, he, hk⟩ := s.faultFlush_eq
  have hcnt : t.rd F.EVR_FLUSH_CNT_FAULT = s.rd F.EVR_FLUSH_CNT_FAULT := hk _ _ _ _ (by decide)
  rw [he]
  refine ⟨?_, ?_, ?_, ?_, ?_, ?_, ?_, ?_⟩
  · rw [inc_evr, ht]
  · rw [inc_evr, ht]
  · rw [inc_tim, ht]
  · rw [rd_inc_same, hcnt, cut_sat]
  · rw [inc_ras, ht]
  · rw [inc_zn, ht]
  · rw [inc_outs, ht]
  · exact Keeps.trans (hk.mono fun f hf => List.mem_cons_of_mem _ hf) (Keeps.inc (by simp) _ _ _ _)

end State

namespace SameEvents
variable (s : State)

theorem faultFlush : SameEvents s s.faultFlush := by
  obtain ⟨-, -, -, -, hr, -, -, hk⟩ := s.faultFlush_flushed
  exact of_keeps hr hk (by decide)

theorem recAppend (code arg trig : Nat) (addrs : List Nat) (flush : Bool) : SameEvents s (s.recAppend code arg trig addrs flush) := by
  unfold State.recAppend
  dsimp only
  split
  · exact of_keeps rfl (Keeps.inc (fs := [F.EVR_LOST_CNT]) (by decide) s _ _ _) (by decide)
  · split
    · exact of_keeps rfl ((Keeps.wr (fs := [F.EVR_STS_FULL, F.EVR_LOST_CNT]) (f := F.EVR_STS_FULL) (by decide) s _ _ _ _).trans
        (Keeps.inc (f := F.EVR_LOST_CNT) (by decide) _ _ _ _)) (by decide)
    · exact ⟨rfl, rfl, rfl⟩

theorem record (code arg : Nat) : SameEvents s (s.record code arg) := by
  unfold State.record
  split
  · exact refl s
  · split
    · exact recAppend ..
    · split
      · exact refl s
      · split
        · exact (recAppend ..).trans (faultFlush _)
        · exact recAppend ..

/-- What follows the queue in an event: the record, the class vector and the controllers' reports. -/
theorem reported (cls code arg : Nat) (who : List Ctl) : SameEvents s (who.foldl (fun s c => s.reportTo cls c)
    (if (s.record code arg).rd F.LGR_EVT_VEC_EN cls = 1 then (s.record code arg).send (.msix 0 ((s.record code arg).rd F.LGR_EVT_VEC_VECTOR cls))
      else s.record code arg)) := by
  refine SameEvents.trans ?_ (foldl (fun t c => reportTo t cls c) who _)
  split
  · exact (record s code arg).trans ⟨rfl, rfl, rfl⟩
  · exact record s code arg

end SameEvents

namespace State
variable (s : State)

/-- An event joins the queue where it has room (20 R442). -/
theorem raise_room (code slice arg : Nat) (h : s.ras.evq.length < evqDepth) : SameEvents { s with ras := { s.ras with
    evq := s.ras.evq ++ [EvEnt.mk s.tns code slice s.ras.evSeq arg], evSeq := cut 32 (s.ras.evSeq + 1) } } (s.raise code slice arg) := by
  unfold raise
  simp only [if_pos h]
  exact SameEvents.reported _ _ _ _ _

/-- An event of a full queue is counted as lost (20 R442). -/
theorem raise_full (code slice arg : Nat) (h : ¬ s.ras.evq.length < evqDepth) :
    SameEvents (s.inc F.RAS_EVQ_LOST_CNT) (s.raise code slice arg) := by
  unfold raise
  simp only [if_neg h]
  exact SameEvents.trans (SameEvents.foldl (fun t c => SameEvents.loseFor t c) _ _) (SameEvents.reported _ _ _ _ _)

end State

/-- Settles O34: an event and what it brings about, CLEAR and FLUSH. -/
theorem eventsComplete : Obligations.EventsComplete := by
  refine ⟨fun code slice arg s => ⟨fun h => ?_, fun h => ?_⟩, fun s => ?_, fun s => ?_⟩
  · obtain ⟨hq, hs, hl⟩ := s.raise_room (cut 16 code) (cut 16 slice) (cut 64 arg) h
    exact ⟨_, rfl, hq, hs, hl, State.raise_zn ..⟩
  · obtain ⟨hq, hs, hl⟩ := s.raise_full (cut 16 code) (cut 16 slice) (cut 64 arg) (Nat.not_lt.2 h)
    refine ⟨_, rfl, hq, hs, ?_, State.raise_zn ..⟩
    rw [hl, State.rd_inc_same, cut_sat]
  · refine ⟨s.evrClear, rfl, rfl, ?_, ?_, ?_⟩
    · unfold State.evrClear
      simp (disch := decide) only [State.rd_wr_id, State.rd_wr_same]
      rfl
    · exact State.rd_wr_same ..
    · exact Keeps.trans (Keeps.trans (Keeps.of_regs rfl) (Keeps.wr (f := F.EVR_STS_FULL) (by decide) _ 0 0 0 0))
        (Keeps.wr (f := F.EVR_LOST_CNT) (by decide) _ _ _ _ _)
  · obtain ⟨hrecs, hnand, htim, hcnt, -, hzn, houts, -⟩ := s.faultFlush_flushed
    exact ⟨_, rfl, hrecs, hnand, htim, hcnt, hzn, houts⟩

end Machine

end Sys2Proof
end

section
/-! SUPPORT. What an operation may change, said once: `Only` says that from one state to another no more changed than a bound allows. A scope is a bound that lists
the parts of the state and the register fields that may change. -/

namespace Sys2Proof.Machine

/-- A scope of change: `merge s t` is `s` with the parts that may change taken from `t`, the register file among them; `fields` lists the register fields
that may change. -/
structure Scope where
  merge : State → State → State
  fields : List Fld
  same : ∀ s, merge s s = s := by exact fun _ => rfl
  comp : ∀ a b c, merge (merge a b) c = merge a c := by exact fun _ _ _ => rfl
  regs : ∀ s r, merge s { s with regs := r } = { s with regs := r } := by exact fun _ _ => rfl

/-- A bound on change: a relation between states that holds of no change, and of changes one after the other. -/
structure Bound where
  rel : State → State → Prop
  refl : ∀ s, rel s s
  trans : ∀ {a b c}, rel a b → rel b c → rel a c

/-- At most what a scope allows changes. -/
def Scope.bound (c : Scope) : Bound where
  rel s t := t = c.merge s t ∧ Keeps s t c.fields
  refl s := ⟨(c.same s).symm, fun _ _ _ _ _ => rfl⟩
  trans := by
    rintro s t u ⟨ht, kt⟩ ⟨hu, ku⟩
    refine ⟨?_, kt.trans ku⟩
    rw [ht, c.comp] at hu
    exact hu

/-- From `s` to `t` no more changed than the bound allows. -/
structure Only (b : Bound) (s t : State) : Prop where
  rel : b.rel s t

/-- As `Only`, of an operation that answers a state and a value. -/
def Only₁ {β : Type} (c : Bound) (s : State) (p : State × β) : Prop := Only c s p.1

namespace Only

/-- As `Only`, of an operation that may answer a state. -/
structure OfSome (c : Bound) (s : State) (o : Option State) : Prop where
  get : ∀ {t}, o = some t → Only c s t

/-- As `Only`, of an operation that may answer a state and a value. -/
structure OfSome₂ {β : Type} (c : Bound) (s : State) (o : Option (State × β)) : Prop where
  get : ∀ {p}, o = some p → Only c s p.1

variable {c : Bound}

theorem refl (s : State) : Only c s s := ⟨c.refl s⟩

theorem after {s t u : State} (k : Only c t u) (h : Only c s t) : Only c s u := ⟨c.trans h.rel k.rel⟩

theorem OfSome.after {a b : State} {o : Option State} (k : OfSome c b o) (h : Only c a b) : OfSome c a o := ⟨fun e => (k.get e).after h⟩

theorem OfSome₂.after {β : Type} {a b : State} {o : Option (State × β)} (k : OfSome₂ c b o) (h : Only c a b) : OfSome₂ c a o :=
  ⟨fun e => (k.get e).after h⟩

theorem OfSome.some {s t : State} (h : Only c s t) : OfSome c s (.some t) := ⟨fun e => Option.some.inj e ▸ h⟩

theorem OfSome₂.some {β : Type} {s : State} {p : State × β} (h : Only₁ c s p) : OfSome₂ c s (.some p) := ⟨fun e => Option.some.inj e ▸ h⟩

theorem OfSome.none {s : State} : OfSome c s .none := ⟨fun e => nomatch e⟩

theorem OfSome₂.none {β : Type} {s : State} : OfSome₂ c s (.none : Option (State × β)) := ⟨fun e => nomatch e⟩

theorem map {s : State} {o : Option State} {f : State → State} (hf : ∀ m, Only c m (f m)) (h : OfSome c s o) : OfSome c s (o.map f) := by
  refine ⟨fun e => ?_⟩
  obtain ⟨m, hm, rfl⟩ := Option.map_eq_some_iff.1 e
  exact (hf m).after (h.get hm)

theorem fst {β : Type} {s : State} {p : State × β} (h : Only₁ c s p) : Only c s p.1 := h

theorem OfSome.getD {s : State} {o : Option State} (h : OfSome c s o) : Only c s (o.getD s) := by
  cases o
  · exact refl s
  · exact h.get rfl

theorem foldl {α : Type} {f : State → α → State} {l : List α} {s : State} (h : ∀ s a, Only c s (f s a)) : Only c s (l.foldl f s) :=
  foldl_keeps (P := Only c s) (fun t a k => (h t a).after k) l s (refl s)

section
variable {s : State} {p : Prop} {d : Decidable p} {α β : Type} {o : Option α}

theorem ite {a b : State} (ha : Only c s a) (hb : Only c s b) : Only c s (if p then a else b) :=
  KeepsInv.arms_ite ha hb

theorem opt {g : State} {f : α → State} (h : ∀ x, Only c s (f x)) (hg : Only c s g) : Only c s (Option.rec g f o) :=
  KeepsInv.arms_opt (fun x _ => h x) hg

theorem optMem {g : State} {f : α → State} (h : ∀ x, o = Option.some x → Only c s (f x)) (hg : Only c s g) : Only c s (Option.rec g f o) :=
  KeepsInv.arms_opt h hg

theorem OfSome.ite {a b : Option State} (ha : OfSome c s a) (hb : OfSome c s b) : OfSome c s (if p then a else b) :=
  KeepsInv.arms_ite ha hb

theorem OfSome.opt {g : Option State} {f : α → Option State} (h : ∀ x, OfSome c s (f x)) (hg : OfSome c s g) : OfSome c s (Option.rec g f o) :=
  KeepsInv.arms_opt (fun x _ => h x) hg

theorem OfSome.optMem {g : Option State} {f : α → Option State} (h : ∀ x, o = Option.some x → OfSome c s (f x)) (hg : OfSome c s g) :
    OfSome c s (Option.rec g f o) :=
  KeepsInv.arms_opt h hg

theorem OfSome₂.ite {a b : Option (State × β)} (ha : OfSome₂ c s a) (hb : OfSome₂ c s b) : OfSome₂ c s (if p then a else b) :=
  KeepsInv.arms_ite ha hb

theorem OfSome₂.opt {g : Option (State × β)} {f : α → Option (State × β)} (h : ∀ x, OfSome₂ c s (f x)) (hg : OfSome₂ c s g) :
    OfSome₂ c s (Option.rec g f o) :=
  KeepsInv.arms_opt (fun x _ => h x) hg

theorem OfSome₂.optMem {g : Option (State × β)} {f : α → Option (State × β)} (h : ∀ x, o = Option.some x → OfSome₂ c s (f x)) (hg : OfSome₂ c s g) :
    OfSome₂ c s (Option.rec g f o) :=
  KeepsInv.arms_opt h hg

end

end Only

section
variable {c : Bound} {s : State} {p : Prop} {d : Decidable p} {α β : Type} {o : Option α}

theorem Only₁.after {a b : State} {q : State × β} (k : Only₁ c b q) (h : Only c a b) : Only₁ c a q := Only.after k h

theorem Only₁.foldl {γ : Type} {f : State × β → γ → State × β} {l : List γ} {b : β} (h : ∀ p a, Only₁ c p.1 (f p a)) :
    Only₁ c s (l.foldl f (s, b)) := by
  induction l generalizing s b with
  | nil => exact Only.refl s
  | cons a l ih => exact Only.after (ih (s := (f (s, b) a).1) (b := (f (s, b) a).2)) (h (s, b) a)

theorem Only₁.pair {t : State} {b : β} (h : Only c s t) : Only₁ c s (t, b) := h

theorem Only₁.ite {a b : State × β} (ha : Only₁ c s a) (hb : Only₁ c s b) : Only₁ c s (if p then a else b) :=
  KeepsInv.arms_ite ha hb

theorem Only₁.opt {g : State × β} {f : α → State × β} (h : ∀ x, Only₁ c s (f x)) (hg : Only₁ c s g) : Only₁ c s (Option.rec g f o) :=
  KeepsInv.arms_opt (fun x _ => h x) hg

theorem Only₁.optMem {g : State × β} {f : α → State × β} (h : ∀ x, o = Option.some x → Only₁ c s (f x)) (hg : Only₁ c s g) :
    Only₁ c s (Option.rec g f o) :=
  KeepsInv.arms_opt h hg

end

/-! ### Scopes -/

namespace Only
variable {c : Scope}

theorem frame {s t : State} (h : Only c.bound s t) : t = c.merge s t := h.rel.1

theorem regs {s t : State} (h : Only c.bound s t) : Keeps s t c.fields := h.rel.2

theorem of {s t : State} (h : t = c.merge s t) (hr : t.regs = s.regs) : Only c.bound s t := ⟨h, Keeps.of_regs hr⟩

/-- A change of parts that the scope allows. -/
theorem upd {s : State} {tim evr ras sl zn stg rdn die ftl fns assocs cip cap net pup pwr img gen kz pcx drc outs free pending}
    (h : (⟨s.regs, tim, evr, ras, sl, zn, stg, rdn, die, ftl, fns, assocs, cip, cap, net, pup, pwr, img, gen, kz, pcx, drc, outs, free, pending⟩ : State) =
      c.merge s ⟨s.regs, tim, evr, ras, sl, zn, stg, rdn, die, ftl, fns, assocs, cip, cap, net, pup, pwr, img, gen, kz, pcx, drc, outs, free, pending⟩) :
    Only c.bound s ⟨s.regs, tim, evr, ras, sl, zn, stg, rdn, die, ftl, fns, assocs, cip, cap, net, pup, pwr, img, gen, kz, pcx, drc, outs, free, pending⟩ :=
  ⟨h, fun _ _ _ _ _ => rfl⟩

section
variable {f : Fld} (hf : f ∈ c.fields) (s : State)
include hf

theorem wr (v i j p : Nat) : Only c.bound s (s.wr f v i j p) := ⟨(c.regs s _).symm, Keeps.wr hf s v i j p⟩

theorem inc (i j n : Nat) : Only c.bound s (s.inc f i j n) := wr hf ..

theorem addw (n i j : Nat) : Only c.bound s (s.addw f n i j) := wr hf ..

theorem dec (i j n : Nat) : Only c.bound s (s.dec f i j n) := wr hf ..

theorem clr (i j p : Nat) : Only c.bound s (s.clr f i j p) := wr hf ..

end

end Only

/-- A scope, and some register fields more. -/
def Scope.also (c : Scope) (fs : List Fld) : Scope := { c with fields := fs ++ c.fields }

theorem Only.also {c : Scope} {s t : State} (h : Only c.bound s t) (fs : List Fld) : Only (c.also fs).bound s t :=
  ⟨h.frame, h.regs.mono fun _ hf => List.mem_append_right _ hf⟩

/-- What a narrower scope allows a wider one allows. -/
theorem Only.widen {c d : Scope} {s t : State} (h : Only c.bound s t) (hm : ∀ s t, c.merge s t = d.merge s (c.merge s t)) (hf : ∀ f ∈ c.fields, f ∈ d.fields) :
    Only d.bound s t := ⟨by rw [h.frame]; exact hm s t, h.regs.mono hf⟩

end Sys2Proof.Machine
end

section
/-! SUPPORT. The scope of work on the media: what commands' ends, programs, the journal, parity slots and the limits of slices may change. The states and write
pointers of zones and user data are not among it. -/

namespace Sys2Proof.Machine

/-- The register fields that work on the media changes. -/
def mediaFields : List Fld := [F.EVR_FLUSH_CNT_FAULT, F.EVR_LOST_CNT, F.EVR_NOR_ERASED, F.EVR_NOR_NEXT, F.EVR_NOR_SEQ, F.EVR_STS_FULL, F.LGR_SL_CHG_CHG,
  F.LGR_SL_DLMISS_CNT, F.LGR_SL_NORM_N, F.RAS_ERRLOG_COUNT, F.RAS_EVQ_LOST_CNT, F.SLI_AZ_COUNT_COUNT, F.SLI_AZ_COUNT_SRAM_USE, F.SLI_CAP_USED_UNITS,
  F.SLI_STALE_CNT_CNT, F.SLI_STS_AZOVER, F.SLI_STS_OVERQ, F.ZON_ACTIVE_COUNT, F.ZON_ACTIVE_SRAM, F.ZON_DIRECT_ACTIVE, F.ZON_ENT0_PSLOT, F.ZON_ENT0_ROUTE,
  F.ZON_ENT0_DGROUP, F.ZON_ENT0_ZFC, F.ZON_ENT2_HOLD, F.ZON_ENT3_K, F.ZON_ENT3_SSET0, F.ZON_ENT4_SSET1, F.ZON_ENT4_SSET2, F.ZON_ENT5_SSET3,
  F.ZON_ENT6_ACT_NS, F.ZON_ENT7_RESETS, F.ZON_ENT7_SEQ, F.ZON_HOLD_FAIL_CNT]

def Scope.media : Scope where
  merge s t := { s with
    regs := t.regs, evr := t.evr, ras := t.ras, fns := t.fns, outs := t.outs, die := t.die
    tim := { s.tim with saved := t.tim.saved }
    sl := { s.sl with qs := t.sl.qs, cqs := t.sl.cqs, vecs := t.sl.vecs, ext := t.sl.ext, bg := t.sl.bg }
    net := { s.net with txq := t.net.txq }
    ftl := { s.ftl with crows := t.ftl.crows, jnext := t.ftl.jnext, jtail := t.ftl.jtail, relocs := t.ftl.relocs, zundo := t.ftl.zundo }
    stg := { s.stg with units := t.stg.units, par := t.stg.par }
    rdn := { s.rdn with lost := t.rdn.lost, recon := t.rdn.recon, subst := t.rdn.subst }
    zn := { s.zn with cmds := t.zn.cmds, doomed := t.zn.doomed, zx := t.zn.zx, cursor := t.zn.cursor } }
  fields := mediaFields

/-- At most what work on the media changes. -/
def Bound.media : Bound := Scope.media.bound

namespace Only.Work

-- So the unifier sees a match on an option as the recursor that `opt` speaks of.
set_option smartUnfolding false

variable (s : State)

theorem send (o : Out) : Only .media s (s.send o) := by
  unfold State.send
  exact upd rfl

theorem sendOn (p u pr : Nat) (qp : Option Nat) (o : Out) : Only .media s (s.sendOn p u pr qp o) := by
  unfold State.sendOn
  exact .ite (upd rfl) (send ..)

theorem sendQp (n : Nat) (o : Out) : Only .media s (s.sendQp n o) := by
  unfold State.sendQp
  exact .opt (fun _ => (sendOn ..)) (send ..)

theorem bump : Only .media s s.bump := by
  unfold State.bump
  exact upd rfl

theorem putSx (n : Nat) (x : SliceX) : Only .media s (s.putSx n x) := by
  unfold State.putSx
  exact upd rfl

theorem logErr (o : Org) (cid sct sc : Nat) (die : Option Nat) : Only .media s (s.logErr o cid sct sc die) := by
  unfold State.logErr
  exact .after (.ite (upd rfl) (.refl _)) (.ite ((addw (by decide) ..).after (upd rfl)) (.refl _))

theorem hold (func : Nat) (c : Cpl) (t : Stamp) : Only .media s (s.hold func c t) := by
  unfold State.hold
  exact .opt (fun _ => (upd rfl)) (.refl _)

theorem mapQ (i : Nat) (f : Queue → Queue) : Only .media s (s.mapQ i f) := by
  unfold State.mapQ
  exact upd rfl

theorem pushCq (func cqid : Nat) : Only .media s (s.pushCq func cqid) := by
  unfold State.pushCq
  exact upd rfl

theorem postAdm (n : Nat) (c : Cpl) : Only .media s (s.postAdm n c) := by
  unfold State.postAdm
  exact .after (.opt (fun _ => (send ..)) (.refl _)) ((pushCq ..).after (send ..))

theorem admLess (o : Org) : Only .media s (s.admLess o) := by
  unfold State.admLess
  exact .opt (fun _ => (mapQ ..)) (.refl _)

theorem admPost (o : Org) (c : Cpl) (t : Stamp) : Only .media s (s.admPost o c t) := by
  unfold State.admPost
  split
  · exact .ite (postAdm ..) (hold ..)
  · exact .opt (fun _ => (sendQp ..)) (send ..)
  · exact send ..

theorem adm (o : Org) (cid : Nat) (st : Nat × Nat) (dw0 : Nat) (data : List Nat) : Only .media s (s.adm o cid st dw0 data) := by
  unfold State.adm
  exact (admPost ..).after ((admLess ..).after (logErr ..))

theorem putCmd (c : Cmd) : Only .media s (s.putCmd c) := by
  unfold State.putCmd
  exact upd rfl

theorem addCmd (c : Cmd) : Only .media s (s.addCmd c) := by
  unfold State.addCmd
  exact upd rfl

theorem dropCmd (q cid : Nat) : Only .media s (s.dropCmd q cid) := by
  unfold State.dropCmd
  exact upd rfl

theorem putQ (i : Nat) (q : Queue) : Only .media s (s.putQ i q) := by
  unfold State.putQ
  exact upd rfl

theorem stale (slice : Nat) : Only .media s (s.stale slice) := by
  unfold State.stale
  exact inc (by decide) ..

theorem putVec (v : VecSt) : Only .media s (s.putVec v) := by
  unfold State.putVec
  exact upd rfl

theorem signal (func vec urg : Nat) (t : Stamp) : Only .media s (s.signal func vec urg t) := by
  unfold State.signal
  exact .opt (fun _ => (.ite ((send ..).after (putVec ..)) (putVec ..))) (send ..)

theorem fin (c : Cmd) (st : Nat × Nat) (dw0 : Nat) (data : List Nat) (die : Option Nat) : Only .media s (s.fin c st dw0 data die) := by
  unfold State.fin
  exact .ite
    (.refl _)
    (.after
      (.ite
        (stale ..)
        (.after
          (.opt
            (fun _ =>
              (.after
                (.ite
                  (sendQp ..)
                  (.ite (hold ..) (.after (.opt (fun _ => (signal ..)) (.refl _)) ((pushCq ..).after (send ..)))))
                (putQ ..)))
            (.refl _))
          (.after (.ite (inc (by decide) ..) (.refl _)) (logErr ..))))
      (dropCmd ..))

theorem charge (slice : Nat) (q : Option Nat) (c : Nat) : Only .media s (s.charge slice q c) := by
  unfold State.charge
  exact .after (.opt (fun _ => (.opt (fun _ => (putQ ..)) (.refl _))) (.refl _)) ((putSx ..).after ((wr (by decide) ..).after (addw (by decide) ..)))

theorem chargeBg (k c : Nat) : Only .media s (s.chargeBg k c) := by
  unfold State.chargeBg
  exact .after (upd rfl) (charge ..)

theorem jn (ty : Nat) (f : List Nat) (act : JAct) : Only .media s (s.jn ty f act) := by
  unfold State.jn
  exact upd rfl

theorem jnBlks (l : List Blk) : Only .media s (s.jnBlks l) := by
  unfold State.jnBlks
  exact .foldl (fun _ _ => (jn ..))

theorem putZx (h : Nat) (z : ZoneX) : Only .media s (s.putZx h z) := by
  unfold State.putZx
  exact upd rfl

theorem zseq (h : Nat) : Only .media s (s.zseq h) := by
  unfold State.zseq
  exact addw (by decide) ..

theorem jnZone (h : Nat) : Only .media s (s.jnZone h) := by
  unfold State.jnZone
  exact jn ..

theorem putDie (d : Nat) (x : DieSt) : Only .media s (s.putDie d x) := by
  unfold State.putDie
  exact upd rfl

theorem putBlk (b : Blk) (x : BlkSt) : Only .media s (s.putBlk b x) := by
  unfold State.putBlk
  exact upd rfl

theorem freeTails (b : Blk) : Only .media s (s.freeTails b) := by
  unfold State.freeTails
  exact upd rfl

theorem takeBlk (d : Nat) (onebit rebuild : Bool) : Only.OfSome₂ .media s (s.takeBlk d onebit rebuild) := by
  unfold State.takeBlk
  exact .opt (fun _ => (.some (.pair ((putDie ..).after (.after (.ite (freeTails ..) (.refl _)) (putBlk ..)))))) .none

theorem enq (d : Nat) (o : DOp) : Only .media s (s.enq d o) := by
  unfold State.enq
  exact (bump ..).after (putDie ..)

theorem filterOps (keep : DOp → Bool) : Only .media s (s.filterOps keep) := by
  unfold State.filterOps
  exact upd rfl

theorem putRow (r : RowId) (x : SRow) : Only .media s (s.putRow r x) := by
  unfold State.putRow
  exact .ite (.opt (fun _ => (upd rfl)) (.refl _)) (.ite (upd rfl) (putZx ..))

theorem freeRow (r : RowId) (x : SRow) : Only .media s (s.freeRow r x) := by
  unfold State.freeRow
  exact .after (.ite (jn ..) (jn ..)) ((filterOps ..).after (upd rfl))

theorem renameRow (a b : RowId) : Only .media s (s.renameRow a b) := by
  unfold State.renameRow
  exact upd rfl

theorem abandonRow (r : RowId) (x : SRow) : Only .media s (s.abandonRow r x) := by
  unfold State.abandonRow
  exact .after (upd rfl) (filterOps ..)

theorem partRow (r : RowId) (x : SRow) : Only .media s (s.partRow r x) := by
  unfold State.partRow
  exact .after (.ite (.after (upd rfl) ((renameRow ..).after (bump ..))) (freeRow ..)) (abandonRow ..)

theorem norWrite (kind part parts ns : Nat) (recs : List Rec) : Only .media s (s.norWrite kind part parts ns recs) := by
  unfold State.norWrite
  exact (wr (by decide) ..).after ((wr (by decide) ..).after ((wr (by decide) ..).after (upd rfl)))

theorem norCopy (kind ns : Nat) (recs : List Rec) : Only .media s (s.norCopy kind ns recs) := by
  unfold State.norCopy
  exact .foldl (fun _ _ => (norWrite ..))

theorem faultFlush : Only .media s s.faultFlush := by
  unfold State.faultFlush
  exact (inc (by decide) ..).after ((norCopy ..).after (.after (upd rfl) ((chargeBg ..).after (upd rfl))))

theorem recAppend (code arg trig : Nat) (addrs : List Nat) (flush : Bool) : Only .media s (s.recAppend code arg trig addrs flush) := by
  unfold State.recAppend
  exact .ite (inc (by decide) ..) (.ite ((inc (by decide) ..).after (wr (by decide) ..)) (upd rfl))

theorem record (code arg : Nat) : Only .media s (s.record code arg) := by
  unfold State.record
  exact .ite
    (.refl _)
    (.opt (fun _ => (.ite (.refl _) (.ite ((faultFlush ..).after (recAppend ..)) (recAppend ..)))) (recAppend ..))

theorem putView (v : EvView) : Only .media s (s.putView v) := by
  unfold State.putView
  exact upd rfl

theorem notify (c : Ctl) (ty info page : Nat) : Only .media s (s.notify c ty info page) := by
  unfold State.notify
  exact .opt (fun _ => ((adm ..).after (upd rfl))) (.ite (.refl _) (upd rfl))

theorem reportTo (cls : Nat) (c : Ctl) : Only .media s (s.reportTo cls c) := by
  unfold State.reportTo
  exact .ite (.refl _) ((notify ..).after (putView ..))

theorem loseFor (c : Ctl) : Only .media s (s.loseFor c) := by
  unfold State.loseFor
  exact putView ..

theorem raise (code slice arg : Nat) : Only .media s (s.raise code slice arg) := by
  unfold State.raise
  exact .after
    (.foldl (fun _ _ => (reportTo ..)))
    (.after
      (.ite (send ..) (.refl _))
      ((record ..).after (.ite (upd rfl) (.after (.foldl (fun _ _ => (loseFor ..))) (inc (by decide) ..)))))

theorem limits (n : Nat) : Only .media s (s.limits n) := by
  unfold State.limits
  exact .ite (.after (.ite (raise ..) (.refl _)) ((wr (by decide) ..).after (wr (by decide) ..))) ((wr (by decide) ..).after (wr (by decide) ..))

theorem zmark (h : Nat) : Only .media s (s.zmark h) := by
  unfold State.zmark
  exact .ite (.refl _) (upd rfl)

theorem giveSram (h : Nat) (rsv : Bool) : Only .media s (s.giveSram h rsv) := by
  unfold State.giveSram
  exact (zseq ..).after ((addw (by decide) ..).after ((addw (by decide) ..).after ((putZx ..).after (wr (by decide) ..))))

theorem dropSram (h p : Nat) : Only .media s (s.dropSram h p) := by
  unfold State.dropSram
  exact (zseq ..).after ((dec (by decide) ..).after ((dec (by decide) ..).after (wr (by decide) ..)))

theorem takeSlot (h : Nat) : Only .media s (s.takeSlot h) := by
  unfold State.takeSlot
  exact .opt (fun _ => (giveSram ..)) (.opt (fun _ => ((giveSram ..).after (dropSram ..))) ((zseq ..).after (wr (by decide) ..)))

theorem promote : Only .media s s.promote := by
  unfold State.promote
  exact .foldl (fun _ _ => (.ite (.opt (fun _ => (giveSram ..)) (.refl _)) (.refl _)))

theorem dropSlot (h : Nat) : Only .media s (s.dropSlot h) := by
  unfold State.dropSlot
  exact .ite ((promote ..).after (dropSram ..)) (.ite ((zseq ..).after (wr (by decide) ..)) (.refl _))

theorem takeAll (onebit : Bool) (ds : List Nat) : Only₁ .media s (s.takeAll onebit ds) := by
  induction ds generalizing s with
  | nil => exact refl s
  | cons d ds ih => exact .optMem (fun p e => .pair ((ih p.1).after ((takeBlk ..).get e))) (.pair (ih s))

theorem newRow (g : Grp) (shadow win : Bool) (set : Nat) : Only₁ .media s (s.newRow g shadow win set) := by
  unfold State.newRow
  exact .ite (.pair ((takeAll ..).after (takeAll ..))) (.pair (takeAll ..))

theorem newRows (g : Grp) (shadow win : Bool) (xs : List Nat) : Only₁ .media s (s.newRows g shadow win xs) := by
  induction xs generalizing s with
  | nil => exact refl s
  | cons x xs ih => exact .pair ((ih _).after (newRow ..))

theorem activate (h dg : Nat) (direct : Bool) : Only.OfSome .media s (s.activate h dg direct) := by
  unfold State.activate
  exact .opt
    (fun _ =>
      (.ite
        .none
        (.opt
          (fun _ =>
            (.some
              (.after
                (.foldl (fun _ _ => ((jnBlks ..).after (jnBlks ..))))
                (.after
                  (.foldl (fun _ _ => (jn ..)))
                  ((takeSlot ..).after
                    (.after
                      (.ite (addw (by decide) ..) (.refl _))
                      ((wr (by decide) ..).after
                        ((wr (by decide) ..).after
                          ((wr (by decide) ..).after
                            ((wr (by decide) ..).after
                              ((wr (by decide) ..).after
                                ((wr (by decide) ..).after
                                  ((wr (by decide) ..).after
                                    ((wr (by decide) ..).after
                                      ((putZx ..).after (.after (upd rfl) ((newRows ..).after (zmark ..))))))))))))))))))
          .none)))
    .none

theorem dropDirect (h : Nat) : Only .media s (s.dropDirect h) := by
  unfold State.dropDirect
  exact .ite ((putZx ..).after (dec (by decide) ..)) (.refl _)

theorem unbind (h : Nat) : Only .media s (s.unbind h) := by
  unfold State.unbind
  exact (wr (by decide) ..).after
    ((wr (by decide) ..).after
      ((wr (by decide) ..).after
        ((wr (by decide) ..).after
          ((wr (by decide) ..).after
            ((wr (by decide) ..).after
              ((putZx ..).after
                (.after
                  (upd rfl)
                  (.after
                    (upd rfl)
                    (.after
                      (.foldl (fun _ _ => (partRow ..)))
                      (.after (upd rfl) ((dropSlot ..).after ((dropDirect ..).after (zmark ..)))))))))))))

theorem failHeld (c : Cmd) (st : Nat × Nat) : Only .media s (s.failHeld c st) := by
  unfold State.failHeld
  exact (fin ..).after ((zseq ..).after ((dec (by decide) ..).after (inc (by decide) ..)))

theorem failHolds (h : Nat) (st : Nat × Nat) : Only .media s (s.failHolds h st) := by
  unfold State.failHolds
  exact .foldl (fun _ _ => (failHeld ..))

theorem gap (h : Nat) : Only .media s (s.gap h) := by
  unfold State.gap
  exact failHolds ..

theorem serveHold (h : Nat) : Only .media s (s.serveHold h) := by
  unfold State.serveHold
  refine .foldl (fun s c => .ite (failHeld ..) (.ite ?_ (.refl _)))
  split
  · exact (putCmd ..).after ((zseq ..).after (dec (by decide) ..))
  · exact .refl _
  · exact (gap ..).after ((fin ..).after ((zseq ..).after (dec (by decide) ..)))

theorem progPage (r : RowId) (k w p m n : Nat) (purp : Purp) (force : Bool) : Only .media s (s.progPage r k w p m n purp force) := by
  unfold State.progPage
  exact .opt
    (fun _ =>
      (.ite (.refl _) (.after (.ite (.refl _) ((enq ..).after (.ite (charge ..) (.refl _)))) (.ite (.refl _) (upd rfl)))))
    (.refl _)

theorem progWl (r : RowId) (w n : Nat) (purp : Purp) : Only .media s (s.progWl r w n purp) := by
  unfold State.progWl
  exact .opt (fun _ => (.foldl (fun _ _ => (enq ..)))) (.refl _)

theorem openWin (r : RowId) : Only .media s (s.openWin r) := by
  unfold State.openWin
  exact .opt
    (fun _ => (.ite (.refl _) (.after (.ite (.refl _) (zseq ..)) ((putRow ..).after ((jnBlks ..).after (takeAll ..))))))
    (.refl _)

theorem progReady (r : RowId) (k n fr upto : Nat) (direct : Bool) : Only .media s (s.progReady r k n fr upto direct) := by
  unfold State.progReady
  exact .ite
    (.foldl (fun _ _ => (progWl ..)))
    (.after
      (.foldl (fun _ _ => (progPage ..)))
      (.foldl
        (fun _ _ => (.foldl (fun _ _ => ((progPage ..).after (.opt (fun _ => (.ite (.refl _) (openWin ..))) (.refl _))))))))

theorem padDone (r : RowId) : Only .media s (s.padDone r) := by
  unfold State.padDone
  exact .ite (.refl _) ((zseq ..).after ((wr (by decide) ..).after ((dropSlot ..).after ((dropDirect ..).after (putZx ..)))))

theorem padRow (h : Nat) : Only .media s (s.padRow h) := by
  unfold State.padRow
  exact .ite
    (.refl _)
    ((padDone ..).after
      (.after
        (.ite
          (.refl _)
          (.ite
            (.ite (.refl _) (progWl ..))
            (.foldl
              (fun _ _ =>
                (.after
                  (.foldl (fun _ _ => (.opt (fun _ => (.ite (progPage ..) (.refl _))) (.refl _))))
                  (.opt (fun _ => (.ite (.refl _) (openWin ..))) (.refl _)))))))
        (putZx ..)))

theorem failUncommitted (h : Nat) (st : Nat × Nat) : Only .media s (s.failUncommitted h st) := by
  unfold State.failUncommitted
  exact .foldl (fun _ _ => (fin ..))

theorem refuse (c : Cmd) (st : Nat × Nat) : Only .media s (s.refuse c st) := by
  unfold State.refuse
  exact .opt (fun _ => (.after (.ite (gap ..) (.refl _)) (fin ..))) (fin ..)

theorem progZone (h k fr upto : Nat) : Only .media s (s.progZone h k fr upto) := by
  unfold State.progZone
  exact .foldl (fun _ _ => (.ite (progReady ..) (.refl _)))


end Only.Work

end Sys2Proof.Machine
end

section
/-! SUPPORT. Zones: what a change of state, becoming Full, staging and the zone's hold do to states, write pointers and user data (04 R88–R95, R504). -/

namespace Sys2Proof.Machine

/-- Work on the media, and the states of zones. -/
def Bound.zones : Bound := (Scope.media.also [F.ZON_ENT0_STATE]).bound

/-- Work on the media, and the states and write pointers of zones. -/
def Bound.pointers : Bound := (Scope.media.also [F.ZON_ENT0_STATE, F.ZON_ENT2_WP_OFF]).bound

theorem Ud.get_filter {p : Nat × Nat → Bool} (l : List (Nat × Nat)) (k : Nat) (h : ∀ v, p (k, v) = true) : Ud.get k (l.filter p) = Ud.get k l := by
  induction l with
  | nil => rfl
  | cons e t ih =>
    obtain ⟨x, w⟩ := e
    by_cases hx : x = k
    · subst hx; simp [h w, Ud.get]
    · by_cases hq : p (x, w) = true <;> simp [hq, Ud.get, hx, ih]

theorem Ud.get_put_ne {k k' : Nat} (v : Nat) (l : List (Nat × Nat)) (h : k' ≠ k) : Ud.get k' (Ud.put k v l) = Ud.get k' l := by
  have mid : Ud.get k' ((if v = 0 then [] else [(k, v)]) ++ l.filter (fun e => k < e.1)) = Ud.get k' (l.filter (fun e => k < e.1)) := by
    refine Ud.get_append _ _ _ fun e he => ?_
    split at he
    · cases he
    · rw [List.mem_singleton] at he; subst he; exact fun g => h g.symm
  unfold Ud.put
  rw [List.append_assoc]
  rcases Nat.lt_or_gt_of_ne h with hl | hg
  · have far : Ud.get k' ((if v = 0 then [] else [(k, v)]) ++ l.filter (fun e => k < e.1)) = 0 := by
      rw [mid]
      refine Ud.get_none _ _ fun e he => ?_
      have := (List.mem_filter.1 he).2
      simp only [decide_eq_true_eq] at this
      omega
    have app : ∀ A B : List (Nat × Nat), Ud.get k' B = 0 → Ud.get k' (A ++ B) = Ud.get k' A := by
      intro A B hB
      induction A with
      | nil => exact hB
      | cons e A ih =>
        obtain ⟨x, w⟩ := e
        by_cases hx : x = k' <;> simp [Ud.get, hx, ih]
    rw [app _ _ far]
    exact Ud.get_filter _ _ fun w => by simpa using hl
  · rw [Ud.get_append, mid]
    · exact Ud.get_filter _ _ fun w => by simpa using hg
    · intro e he
      have := (List.mem_filter.1 he).2
      simp only [decide_eq_true_eq] at this
      omega

namespace State
variable (s : State)

theorem getUd_setUd_ne {k k' : Nat} (v : Nat) (h : k' ≠ k) : (s.setUd k v).getUd k' = s.getUd k' := Ud.get_put_ne v _ h

/-! ### A change of a zone's state (04 R88–R91) -/

/-- What a zone's change of state brings about beside the new state. -/
theorem setZst_written (h z : Nat) : Only .media ((s.zmark h).wr F.ZON_ENT0_STATE z h) (s.setZst h z) := by
  unfold setZst
  dsimp only
  refine Only.after (Only.Work.jnZone ..) (Only.after (Only.Work.limits ..) (Only.after (.ite ?_ (.ite ?_ (.refl _)))
    (Only.after (.ite ?_ (.ite ?_ (.refl _))) (Only.Work.zseq ..))))
  · exact Only.addw (by decide) ..
  · exact Only.dec (by decide) ..
  · exact Only.after (Only.addw (by decide) ..) (Only.addw (by decide) ..)
  · exact Only.after (Only.dec (by decide) ..) (Only.dec (by decide) ..)

theorem setZst_only (h z : Nat) : Only .zones s (s.setZst h z) :=
  Only.after ((setZst_written s h z).also _) (Only.after (Only.wr (c := Scope.media.also [F.ZON_ENT0_STATE]) (by decide) ..) ((Only.Work.zmark s h).also _))

/-- A zone that changes its state has the new one. -/
theorem setZst_zst (h z : Nat) : (s.setZst h z).zst h = cut 4 z :=
  ((setZst_written s h z).regs _ _ _ _ (by decide)).trans (rd_wr_same ..)

theorem setZst_zst_ne {h h' : Nat} (z : Nat) (hne : h' ≠ h) : (s.setZst h z).zst h' = s.zst h' :=
  ((setZst_written s h z).regs _ _ _ _ (by decide)).trans
    ((rd_wr_ne _ _ _ _ _ _ _ _ _ _ (by simpa using hne)).trans ((Only.Work.zmark s h).regs _ _ _ _ (by decide)))

end State

/-! ### What stays -/

namespace Only
variable {s t : State}

theorem wp (h : Only .zones s t) (z : Nat) : t.wp z = s.wp z := h.regs _ _ _ _ (by decide)

theorem zst (h : Only .media s t) (z : Nat) : t.zst z = s.zst z := h.regs _ _ _ _ (by decide)

theorem ud (h : Only .pointers s t) : t.zn.ud = s.zn.ud := by rw [h.frame]; rfl

theorem moves (h : Only .zones s t) : Only .pointers s t := ⟨h.frame, h.regs.mono (by decide)⟩

end Only

namespace State
variable (s : State)

/-! ### A zone becomes Full (04 R90–R92) -/

/-- What becoming Full brings about beside the new write pointer and state. -/
theorem becomeFull_written (h : Nat) : ∃ m, Only .media s m ∧ Only .media ((m.wr F.ZON_ENT2_WP_OFF zoneBlocks h).setZst h znFull) (s.becomeFull h) := by
  refine ⟨(s.zmark h).putZx h { s.zxOf h with fin := s.wp h }, Only.after (Only.Work.putZx ..) (Only.Work.zmark ..), ?_⟩
  unfold becomeFull
  exact .after (.ite (Only.Work.padRow ..) (.refl _)) (Only.after (Only.Work.failUncommitted ..) (Only.Work.failHolds ..))

theorem becomeFull_only (h : Nat) : Only .pointers s (s.becomeFull h) := by
  obtain ⟨m, hm, hf⟩ := s.becomeFull_written h
  exact Only.after (hf.also _) (Only.after (setZst_only _ _ _).moves (Only.after (Only.wr (c := Scope.media.also [F.ZON_ENT0_STATE, F.ZON_ENT2_WP_OFF]) (by decide) ..) (hm.also _)))

theorem becomeFull_wp (h : Nat) : (s.becomeFull h).wp h = zoneBlocks := by
  obtain ⟨m, -, hf⟩ := s.becomeFull_written h
  have hz : ((m.wr F.ZON_ENT2_WP_OFF zoneBlocks h).setZst h znFull).wp h = zoneBlocks :=
    ((setZst_only _ _ _).wp h).trans (rd_wr_same ..)
  exact (hf.regs _ _ _ _ (by decide)).trans hz

theorem becomeFull_zst (h : Nat) : (s.becomeFull h).zst h = znFull := by
  obtain ⟨m, -, hf⟩ := s.becomeFull_written h
  exact hf.zst h |>.trans (setZst_zst ..)

/-! ### The hold (04 R95) -/

/-- Serving a zone's hold ends commands or has them go on. -/
theorem serveHold_ends (h : Nat) : CmdEnds s (s.serveHold h) := by
  unfold serveHold
  refine CmdEnds.foldl s (fun s c => ?_) _
  have less (s : State) : CmdEnds s ((s.dec F.ZON_ENT2_HOLD h).zseq h) := (CmdEnds.wr s (by decide) ..).trans (CmdEnds.wr _ (by decide) ..)
  dsimp only
  split
  · exact (((CmdEnds.inc s (by decide) ..).trans (CmdEnds.wr _ (by decide) ..)).trans (CmdEnds.wr _ (by decide) ..)).trans (CmdEnds.fin ..)
  · split
    · split
      · exact (less s).trans (CmdEnds.putCmd ..)
      · exact CmdEnds.refl s
      · exact ((less s).trans (CmdEnds.fin ..)).trans (CmdEnds.failHolds ..)
    · exact CmdEnds.refl s

/-! ### Staging (06 R144) -/

/-- Staging a block stores it, and changes staging alone. -/
theorem stage_stored (r : RowId) (u key v pool : Nat) (c : Cmd) :
    ∃ stg, s.stage r u key v pool c = { s with stg := stg, zn := { s.zn with ud := Ud.put key v s.zn.ud } } := by
  unfold stage stageAt foldPar
  dsimp only
  split
  · exact ⟨_, rfl⟩
  · split <;> exact ⟨_, rfl⟩

/-- A run of a zone's blocks is stored from its first on. -/
theorem stageZone_stored (h k : Nat) (c : Cmd) (off : Nat) (vs : List Nat) : ∃ stg ud, s.stageZone h k c off vs = { s with stg := stg, zn := { s.zn with ud := ud } } ∧
    (∀ i, i < vs.length → Ud.get (udZone h (off + i)) ud = vs.getD i 0) ∧
    ∀ k, (∀ i, i < vs.length → k ≠ udZone h (off + i)) → Ud.get k ud = Ud.get k s.zn.ud := by
  induction vs generalizing s off with
  | nil => exact ⟨s.stg, s.zn.ud, rfl, fun i hi => absurd hi (by simp), fun k _ => rfl⟩
  | cons v vs ih =>
    obtain ⟨stg, hs⟩ := s.stage_stored ⟨false, h, (rowOf k off).1⟩ (rowOf k off).2 (udZone h off) v (if s.inHeld h off then 1 else 0) c
    obtain ⟨stg', ud, he, hin, hout⟩ := ih { s with stg := stg, zn := { s.zn with ud := Ud.put (udZone h off) v s.zn.ud } } (off + 1)
    refine ⟨stg', ud, ?_, ?_, ?_⟩
    · rw [stageZone, hs, he]
    · rintro (_ | i) hi
      · rw [hout _ fun j _ => by unfold udZone; omega]
        exact Ud.get_put_same ..
      · have := hin i (by simpa using hi)
        rw [show off + (i + 1) = off + 1 + i by omega, this]
        rfl
    · intro k hk
      rw [hout k fun i hi => by
        have := hk (i + 1) (by simpa using hi)
        rwa [show off + 1 + i = off + (i + 1) by omega]]
      exact Ud.get_put_ne _ _ (hk 0 (by simp))

end State

end Sys2Proof.Machine
end

section
/-! O16: a write's commit to an active zone (02 R53; 04 R504, R89). -/

namespace Sys2Proof.Machine

namespace State
variable {s : State}

theorem withCmd_of {q cid : Nat} {x : Queue} {c : Cmd} {n : Ns} (h : InFlight s q cid x c n) {ok : Cmd → Bool} (hok : ok c = true)
    (f : Cmd → Queue → Ns → State) : s.withCmd q cid ok f = f c x n := by
  unfold withCmd
  simp only [h.cmd, h.queue, h.ns, hok, if_true]

theorem ghost_of_cmd {q cid : Nat} {c : Cmd} (h : s.cmdOf q cid = some c) (last : Bool) : s.ghost q cid last = s := by
  unfold ghost
  rw [h]

/-- The number of a command in flight is the one it is found under. -/
theorem cmdOf_key {q cid : Nat} {c : Cmd} (h : s.cmdOf q cid = some c) : c.q = q ∧ c.cid = cid := by
  have := List.find?_some h
  simpa using this

theorem not_refuses_of_active {z : Nat} (h : isActive z = true) : zoneRefuses z = none ∧ z ≠ znEmpty := by
  simp only [isActive, Bool.or_eq_true, decide_eq_true_eq] at h
  rcases h with (h | h) | h <;> subst h <;> decide

/-- A write at the write pointer of an active zone passes its tests where it fits, its slice's quota being no test of it. -/
theorem wTest_ok {h off len : Nat} (ha : isActive (s.zst h) = true) (hq : s.wp h = off) (hf : off + len ≤ zoneBlocks) (adm : Nat) :
    s.wTest h off len false false adm = .ok := by
  obtain ⟨hr, he⟩ := not_refuses_of_active ha
  subst hq
  simp [wTest, hr, he, Nat.not_lt.2 hf]

/-- What a zone's commit does after its blocks are staged: work, the new write pointer, and the command's end. -/
theorem commitZone_moves (s : State) (c : Cmd) : ∃ m, s.stageZone c.zone (s.rd F.ZON_ENT3_K c.zone) c (s.wp c.zone)
      (s.sealAll c.nsid (s.rd F.ZON_ENT1_ZSLBA c.zone + s.wp c.zone) c.data) = m ∧
    Only .pointers m (s.commitZone c) ∧
    (s.wp c.zone + c.len ≤ zoneBlocks → (s.commitZone c).wp c.zone = s.wp c.zone + c.len) ∧ (s.commitZone c).cmdOf c.q c.cid = none := by
  refine ⟨_, rfl, ?_⟩
  unfold commitZone
  extract_lets h k off lba m m₁ x m₂ m₃ m₄ m₅ m₆ m₇
  have hput : Only .media m₁ m₂ := Only.Work.putZx ..
  have hprog : Only .media m₂ m₃ := Only.Work.progZone ..
  have hprom : Only .media m₃ m₄ := .ite (Only.Work.promote ..) (.refl _)
  have hst : Only .zones m₄ m₅ := .ite ((Only.after (Only.Work.jnZone ..) (Only.Work.zseq ..)).also _) (setZst_only ..)
  have h₅ : Only .zones m₁ m₅ := hst.after ((hprom.after (hprog.after hput)).also _)
  have hfull : Only .pointers m₅ m₆ :=
    .ite (Only.after ((Only.Work.addCmd ..).also _) (Only.after (becomeFull_only ..) ((Only.Work.dropCmd ..).also _))) (.refl _)
  have hfin : Only .media m₆ m₇ := .ite (Only.Work.fin ..) (Only.Work.fin ..)
  have hserve : Only .media m₇ (m₇.serveHold h) := Only.Work.serveHold ..
  have hend : Only .media m₆ (m₇.serveHold h) := hserve.after hfin
  refine ⟨Only.after (hend.also _) (hfull.after (h₅.moves.after (Only.wr (c := Scope.media.also [F.ZON_ENT0_STATE, F.ZON_ENT2_WP_OFF]) (by decide) ..))), fun hle => ?_, ?_⟩
  · have hw₁ : m₁.wp h = off + c.len := by
      refine (rd_wr_same ..).trans (Nat.mod_eq_of_lt ?_)
      exact Nat.lt_of_le_of_lt hle (by decide)
    have hw₆ : m₆.wp h = off + c.len := by
      by_cases hz : off + c.len = zoneBlocks
      · have : m₆ = ((m₅.dropCmd c.q c.cid).becomeFull h).addCmd c := if_pos hz
        rw [this, hz]
        exact ((Only.Work.addCmd _ c).regs _ _ _ _ (by decide)).trans (becomeFull_wp ..)
      · have : m₆ = m₅ := if_neg hz
        rw [this, h₅.wp, hw₁]
    exact (hend.regs _ _ _ _ (by decide)).trans hw₆
  · refine (serveHold_ends m₇ h).flight _ _ ?_
    show (if c.kind = .append then m₆.fin c stOk (cut 32 lba) [lba] else m₆.fin c stOk).cmdOf c.q c.cid = none
    split <;> exact cmdOf_fin ..

/-- A commit to an active zone at its write pointer goes on (04 R504). -/
theorem commit_active {c : Cmd} {n : Ns} (hz : n.zoned = true) (hk : c.kind ≠ .append) (hst : (s.zxOf c.zone).stream = none)
    (ha : isActive (s.zst c.zone) = true) (hw : c.lba % zoneBlocks = s.wp c.zone) (hf : s.wp c.zone + c.len ≤ zoneBlocks) :
    s.commit c n = s.commitZone c := by
  have ht := wTest_ok (adm := c.azLim) ha hw.symm (by rwa [hw]) (len := c.len)
  simp only [commit, hz, hst, hk, decide_false, ht, (not_refuses_of_active ha).2, if_true, if_false, Option.isSome_none, Bool.false_eq_true]

end State

/-- Settles O16: the blocks are staged sealed, and what follows changes no user data. -/
theorem writeCommitStoresItsData : Obligations.WriteCommitStoresItsData := by
  intro q cid x c n s hin hadm hlen hcom hz hk hstr ha hw hf
  obtain ⟨rfl, rfl⟩ := State.cmdOf_key hin.cmd
  have hrun : s.commitCmd c.q c.cid false = s.commitZone c := by
    unfold State.commitCmd
    rw [State.ghost_of_cmd hin.cmd, State.withCmd_of hin (by simp [hadm, hlen, hcom])]
    exact State.commit_active hz (by rcases hk with h | h <;> simp [h]) hstr ha hw hf
  obtain ⟨m, hm, hmv, hwp, hcmd⟩ := s.commitZone_moves c
  obtain ⟨stg, ud, hs, hblk, hrest⟩ := s.stageZone_stored c.zone (s.rd F.ZON_ENT3_K c.zone) c (s.wp c.zone)
    (s.sealAll c.nsid (s.rd F.ZON_ENT1_ZSLBA c.zone + s.wp c.zone) c.data)
  have hud : (s.commitZone c).zn.ud = ud := by rw [hmv.ud, ← hm, hs]
  have hl : (s.sealAll c.nsid (s.rd F.ZON_ENT1_ZSLBA c.zone + s.wp c.zone) c.data).length = c.len := by
    rw [State.sealAll, List.length_mapIdx, hlen]
  refine ⟨s.commitZone c, congrArg Host.Outcome.next hrun, hcmd, hwp hf, fun i hi => ?_, fun k hk => ?_⟩
  · rw [State.getUd, hud, hblk i (by rwa [hl])]
    have hi' : i < c.data.length := by rwa [hlen]
    simp [State.sealAll, List.getD_eq_getElem?_getD, hi']
  · rw [State.getUd, hud]
    exact hrest k fun i hi => hk i (by rwa [← hl])

end Sys2Proof.Machine
end

section
/-! SUPPORT. Where the committed data of a Full zone ends stays as it is while its last row is completed (04 R107; 06 R506). -/

namespace Sys2Proof.Machine

/-- Every zone's end of committed data, as it is kept of a Full zone, stays. -/
def Bound.fins : Bound where
  rel s t := ∀ h, (t.zxOf h).fin = (s.zxOf h).fin
  refl _ _ := rfl
  trans hab hbc h := (hbc h).trans (hab h)

namespace Only.Fins

-- So the unifier sees a match on an option as the recursor that `opt` speaks of.
set_option smartUnfolding false

theorem upd {s : State} {regs tim evr ras sl zn stg rdn die ftl fns assocs cip cap net pup pwr img gen kz pcx drc outs free pending}
    (h : zn.zx = s.zn.zx) : Only .fins s ⟨regs, tim, evr, ras, sl, zn, stg, rdn, die, ftl, fns, assocs, cip, cap, net, pup, pwr, img, gen,
      kz, pcx, drc, outs, free, pending⟩ := ⟨fun z => by simp only [State.zxOf, h]⟩

variable (s : State)

theorem wr (f : Fld) (v i j p : Nat) : Only .fins s (s.wr f v i j p) := upd rfl

theorem inc (f : Fld) (i j n : Nat) : Only .fins s (s.inc f i j n) := upd rfl

theorem addw (f : Fld) (n i j : Nat) : Only .fins s (s.addw f n i j) := upd rfl

theorem dec (f : Fld) (i j n : Nat) : Only .fins s (s.dec f i j n) := upd rfl

variable {s} in
theorem putZx {h : Nat} {z : ZoneX} (hz : z.fin = (s.zxOf h).fin) : Only .fins s (s.putZx h z) := by
  refine ⟨fun k => ?_⟩
  by_cases hk : k = h
  · subst hk
    rw [← hz, State.zxOf, State.putZx, Tab.find_put_same]
    rfl
  · simp only [State.zxOf, State.putZx, Tab.find_put_ne _ _ hk]

theorem bump : Only .fins s s.bump := by
  unfold State.bump
  exact upd rfl

theorem putSx (n : Nat) (x : SliceX) : Only .fins s (s.putSx n x) := by
  unfold State.putSx
  exact upd rfl

theorem putQ (i : Nat) (q : Queue) : Only .fins s (s.putQ i q) := by
  unfold State.putQ
  exact upd rfl

theorem charge (slice : Nat) (q : Option Nat) (c : Nat) : Only .fins s (s.charge slice q c) := by
  unfold State.charge
  exact .after (.opt (fun _ => (.opt (fun _ => (putQ ..)) (.refl _))) (.refl _)) ((putSx ..).after ((wr ..).after (addw ..)))

theorem jn (ty : Nat) (f : List Nat) (act : JAct) : Only .fins s (s.jn ty f act) := by
  unfold State.jn
  exact upd rfl

theorem jnBlks (l : List Blk) : Only .fins s (s.jnBlks l) := by
  unfold State.jnBlks
  exact .foldl (fun _ _ => (jn ..))

theorem zseq (h : Nat) : Only .fins s (s.zseq h) := by
  unfold State.zseq
  exact addw ..

theorem putDie (d : Nat) (x : DieSt) : Only .fins s (s.putDie d x) := by
  unfold State.putDie
  exact upd rfl

theorem putBlk (b : Blk) (x : BlkSt) : Only .fins s (s.putBlk b x) := by
  unfold State.putBlk
  exact upd rfl

theorem freeTails (b : Blk) : Only .fins s (s.freeTails b) := by
  unfold State.freeTails
  exact upd rfl

theorem takeBlk (d : Nat) (onebit rebuild : Bool) : Only.OfSome₂ .fins s (s.takeBlk d onebit rebuild) := by
  unfold State.takeBlk
  exact .opt (fun _ => (.some (.pair ((putDie ..).after (.after (.ite (freeTails ..) (.refl _)) (putBlk ..)))))) .none

theorem enq (d : Nat) (o : DOp) : Only .fins s (s.enq d o) := by
  unfold State.enq
  exact (bump ..).after (putDie ..)

theorem putRow (r : RowId) (x : SRow) : Only .fins s (s.putRow r x) := by
  unfold State.putRow
  exact .ite (.opt (fun _ => (upd rfl)) (.refl _)) (.ite (upd rfl) (putZx (by rfl) ..))

theorem giveSram (h : Nat) (rsv : Bool) : Only .fins s (s.giveSram h rsv) := by
  unfold State.giveSram
  exact (zseq ..).after ((addw ..).after ((addw ..).after ((putZx (by rfl) ..).after (wr ..))))

theorem dropSram (h p : Nat) : Only .fins s (s.dropSram h p) := by
  unfold State.dropSram
  exact (zseq ..).after ((dec ..).after ((dec ..).after (wr ..)))

theorem promote : Only .fins s s.promote := by
  unfold State.promote
  exact .foldl (fun _ _ => (.ite (.opt (fun _ => (giveSram ..)) (.refl _)) (.refl _)))

theorem dropSlot (h : Nat) : Only .fins s (s.dropSlot h) := by
  unfold State.dropSlot
  exact .ite ((promote ..).after (dropSram ..)) (.ite ((zseq ..).after (wr ..)) (.refl _))

theorem takeAll (onebit : Bool) (ds : List Nat) : Only₁ .fins s (s.takeAll onebit ds) := by
  induction ds generalizing s with
  | nil => exact refl s
  | cons d ds ih => exact .optMem (fun p e => .pair ((ih p.1).after ((takeBlk ..).get e))) (.pair (ih s))

theorem dropDirect (h : Nat) : Only .fins s (s.dropDirect h) := by
  unfold State.dropDirect
  exact .ite ((putZx (by rfl) ..).after (dec ..)) (.refl _)

theorem progPage (r : RowId) (k w p m n : Nat) (purp : Purp) (force : Bool) : Only .fins s (s.progPage r k w p m n purp force) := by
  unfold State.progPage
  exact .opt
    (fun _ =>
      (.ite (.refl _) (.after (.ite (.refl _) ((enq ..).after (.ite (charge ..) (.refl _)))) (.ite (.refl _) (upd rfl)))))
    (.refl _)

theorem progWl (r : RowId) (w n : Nat) (purp : Purp) : Only .fins s (s.progWl r w n purp) := by
  unfold State.progWl
  exact .opt (fun _ => (.foldl (fun _ _ => (enq ..)))) (.refl _)

theorem openWin (r : RowId) : Only .fins s (s.openWin r) := by
  unfold State.openWin
  exact .opt
    (fun _ => (.ite (.refl _) (.after (.ite (.refl _) (zseq ..)) ((putRow ..).after ((jnBlks ..).after (takeAll ..))))))
    (.refl _)

theorem padDone (r : RowId) : Only .fins s (s.padDone r) := by
  unfold State.padDone
  exact .ite (.refl _) ((zseq ..).after ((wr ..).after ((dropSlot ..).after ((dropDirect ..).after (putZx (by rfl) ..)))))

theorem padRow (h : Nat) : Only .fins s (s.padRow h) := by
  unfold State.padRow
  exact .ite
    (.refl _)
    ((padDone ..).after
      (.after
        (.ite
          (.refl _)
          (.ite
            (.ite (.refl _) (progWl ..))
            (.foldl
              (fun _ _ =>
                (.after
                  (.foldl (fun _ _ => (.opt (fun _ => (.ite (progPage ..) (.refl _))) (.refl _))))
                  (.opt (fun _ => (.ite (.refl _) (openWin ..))) (.refl _)))))))
        (putZx (by rfl) ..)))


end Only.Fins

end Sys2Proof.Machine
end

section
/-! SUPPORT. How an I/O command that was fetched starts (02 R52; 04 R502). -/

namespace Sys2Proof

open Machine

/-- The tests before its execution let a fetched command pass. -/
theorem Fetched.begin_eq {s : State} {q cid nsid lba len : Nat} {x : Queue} {c : Cmd} {n : Ns} (h : Fetched s q cid nsid lba len x c n) {k : CmdKind}
    (ht : needsEntry k = true → s.tailFull = false) (lr fua : Bool) (hint : Nat) :
    s.begin q cid k nsid lba len lr fua hint =
      .go (s.putCmd (Started s c k nsid lba len lr fua hint)) (Started s c k nsid lba len lr fua hint) x n := by
  obtain ⟨hq, ha, hg, hc, hst, -, -, hr, hn, ho, hf, hi⟩ := h
  have he : s.entry q cid x = some (s, c) := by simp only [State.entry, hc, hst, if_true]
  have hr' : ∀ d, (s.putCmd d).ready = true := fun _ => hr
  have hn' : ∀ d, Tab.find nsid (s.putCmd d).zn.ns = some n := fun _ => hn
  have hel : ∀ d, ((s.putCmd d).el : Nat) = s.el := fun _ => rfl
  have htail : (needsEntry k && s.tailFull) = false := by
    cases hk : needsEntry k
    · rfl
    · simp [ht hk]
  have hnot : ¬ c.dl < s.el := Nat.not_lt.2 hi
  simp only [State.begin, hq, ha, hg, htail, he, hr', Started, hn', hel, ho, Nat.not_lt.2 hf, hnot, decide_false, Bool.and_false, Bool.true_or, Bool.not_true]
  simp [slActive, slResetting, slFree, slFenced, slDeleting]

/-- As `begin_eq`, of a zone's command. -/
theorem Fetched.beginZone_eq {s : State} {q cid nsid lba len : Nat} {x : Queue} {c : Cmd} {n : Ns} (h : Fetched s q cid nsid lba len x c n) {k : CmdKind}
    (ht : needsEntry k = true → s.tailFull = false) (hz : n.zoned = true) (lr : Bool) (hint : Nat) :
    s.beginZone q cid k nsid lba len lr hint = .go (s.putCmd (Started s c k nsid lba len lr false hint))
      { Started s c k nsid lba len lr false hint with zone := zoneOf n lba } x n := by
  rw [State.beginZone, h.begin_eq ht]
  simp [hz]

end Sys2Proof
end

section
/-! O17: zone management of one zone (04 R90–R93, R98). -/

namespace Sys2Proof.Machine

namespace State
variable (s : State)

/-! ### One zone's change -/

theorem setZst_zn (h z : Nat) : (s.setZst h z).zn = s.zn := by
  have hm : (s.zmark h).zn = s.zn := by unfold zmark; split <;> rfl
  have hl (t : State) (n : Nat) : (t.limits n).zn = t.zn := by
    unfold limits
    split
    · dsimp only
      split
      · exact raise_zn ..
      · rfl
    · rfl
  have hz (t : State) : (t.jnZone h).zn = t.zn := rfl
  have hq (t : State) : (t.zseq h).zn = t.zn := rfl
  unfold setZst
  simp only [hz, hl, apply_ite State.zn, addw_zn, dec_zn, hq, wr_zn, hm, ite_self]

theorem failHolds_zx (h : Nat) (st : Nat × Nat) : (s.failHolds h st).zn.zx = s.zn.zx := by
  obtain ⟨r, a, cs, q, e, v, f, x, o, ht⟩ := (CmdEnds.failHolds s h st).frame
  rw [ht]

theorem failUncommitted_zx (h : Nat) (st : Nat × Nat) : (s.failUncommitted h st).zn.zx = s.zn.zx := by
  obtain ⟨r, a, cs, q, e, v, f, x, o, ht⟩ := (CmdEnds.foldl s (fun t c => CmdEnds.fin t c st 0 [] none)
    (s.zn.cmds.filter (fun c => c.zone = h && (c.kind = .write || c.kind = .append || c.kind = .writeZeroes) &&
      (c.st = .staging || c.st = .admitted || c.st = .place)))).frame
  rw [failUncommitted, ht]

theorem zxOf_of_zx {s t : State} (h : t.zn.zx = s.zn.zx) (z : Nat) : t.zxOf z = s.zxOf z := by rw [zxOf, h, zxOf]

theorem cend_of_full {h : Nat} (hf : s.zst h = znFull) : s.cend h = (s.zxOf h).fin := by
  rw [cend, if_pos hf, zxOf]
  cases Tab.find h s.zn.zx <;> rfl

/-- A zone that becomes Full keeps where its committed data ends. -/
theorem becomeFull_fin (h : Nat) : ((s.becomeFull h).zxOf h).fin = s.wp h := by
  have hpad (t : State) (p : Prop) [Decidable p] : ((if p then t.padRow h else t).zxOf h).fin = (t.zxOf h).fin := by
    split
    · exact (Only.Fins.padRow t h).rel h
    · rfl
  unfold becomeFull
  dsimp only
  rw [hpad, zxOf_of_zx (failUncommitted_zx ..), zxOf_of_zx (failHolds_zx ..), zxOf_of_zx (congrArg ZoneSt.zx (setZst_zn ..))]
  simp only [zxOf, wr_zn, putZx, Tab.find_put_same, Option.getD_some]

/-! ### Blocks of a zone that are forgotten -/

theorem wipeZone_in {h off : Nat} (ho : off < zoneBlocks) : (s.wipeZone h).getUd (udZone h off) = 0 := by
  refine Ud.get_none _ _ fun e he hk => ?_
  have := (List.mem_filter.1 he).2
  simp only [hk, udZone, Bool.not_eq_true', Bool.and_eq_false_iff, decide_eq_false_iff_not] at this
  omega

theorem wipeZone_out {h k : Nat} (hk : ¬ (udZone h 0 ≤ k ∧ k < udZone h zoneBlocks)) : (s.wipeZone h).getUd k = s.getUd k := by
  refine Ud.get_filter _ _ fun v => ?_
  simp only [Bool.not_eq_true', Bool.and_eq_false_iff, decide_eq_false_iff_not]
  omega

/-- A zone that is Reset: Empty, its write pointer at its start, its blocks forgotten (04 R90, R98). -/
theorem zoneReset_reset {h : Nat} (he : s.zst h ≠ znEmpty) : (s.zoneReset h).zst h = znEmpty ∧ (s.zoneReset h).wp h = 0 ∧
    ∃ m : State, m.zn.ud = s.zn.ud ∧ (s.zoneReset h).zn.ud = (m.wipeZone h).zn.ud := by
  unfold zoneReset
  simp only [if_neg he]
  refine ⟨setZst_zst .., ?_, (s.failHolds h stZInvalid).unbind h, ?_, ?_⟩
  · rw [(setZst_only ..).wp]
    exact (rd_inc_id _ _ _ _ _ _ _ _ _ (by decide)).trans ((rd_wr_id _ _ _ _ _ _ _ _ _ _ (by decide)).trans (rd_wr_same ..))
  · rw [((Only.Work.unbind _ h).also _ : Only .pointers _ _).ud, ((Only.Work.failHolds s h stZInvalid).also _ : Only .pointers _ _).ud]
  · rw [(setZst_only ..).moves.ud]
    rfl

/-- A zone that becomes Offline: its blocks are forgotten (04 R93). -/
theorem offlineZone_offline {h : Nat} (he : s.zst h ≠ znOff) : (s.offlineZone h).zst h = znOff ∧
    ∃ m : State, m.zn.ud = s.zn.ud ∧ (s.offlineZone h).zn.ud = (m.wipeZone h).zn.ud := by
  unfold offlineZone
  simp only [if_neg he]
  refine ⟨setZst_zst .., (s.failHolds h stZOff).unbind h, ?_, (setZst_only ..).moves.ud⟩
  rw [((Only.Work.unbind _ h).also _ : Only .pointers _ _).ud, ((Only.Work.failHolds s h stZOff).also _ : Only .pointers _ _).ud]

variable {s} in
/-- A zone that an Open activates keeps its data and write pointer (04 R91). -/
theorem activate_only {h dg : Nat} {direct : Bool} {u : State} (hu : s.activate h dg direct = some u) : Only .media s u :=
  (Only.Work.activate s h dg direct).get hu

end State

theorem State.active_iff {z : Nat} : isActive z = true ↔ z = znImp ∨ z = znExp ∨ z = znClosed := by
  simp [isActive, or_assoc]

/-- A zone that is Closed: Closed, or Empty where nothing was written (04 R90). -/
theorem State.closeZone_closed (s : State) (h : Nat) : (s.closeZone h).zst h = (if 0 < s.wp h then znClosed else znEmpty) ∧ (s.closeZone h).zn.ud = s.zn.ud := by
  unfold State.closeZone
  split
  · exact ⟨State.setZst_zst .., (State.setZst_only ..).moves.ud⟩
  · exact ⟨State.setZst_zst .., by rw [(State.setZst_only ..).moves.ud, ((Only.Work.unbind s h).also _ : Only .pointers _ _).ud]⟩

theorem State.fin_zx (s : State) (c : Cmd) (st : Nat × Nat) (dw0 : Nat) (data : List Nat) (die : Option Nat) : (s.fin c st dw0 data die).zn.zx = s.zn.zx := by
  obtain ⟨r, a, cs, q, e, v, f, x, o, ht⟩ := (CmdEnds.fin s c st dw0 data die).frame
  rw [ht]

/-! ### The commands -/

/-- What is said of a zone's command that ended as `t`: the zone's new state, the command out of flight. -/
theorem State.fin_zone (s : State) (c : Cmd) (h : Nat) : (s.fin c stOk).zst h = s.zst h ∧ (s.fin c stOk).cmdOf c.q c.cid = none ∧
    (s.fin c stOk).zn.ud = s.zn.ud ∧ (s.fin c stOk).wp h = s.wp h :=
  have hf := Only.Work.fin s c stOk 0 [] none
  ⟨hf.zst h, s.cmdOf_fin c stOk 0 [] none, (hf.also _ : Only .pointers _ _).ud, (hf.also _ : Only .zones _ _).wp h⟩

section
variable {s : State} {q cid nsid zslba : Nat} {x : Queue} {c : Cmd} {n : Ns} (hf : Fetched s q cid nsid zslba 1 x c n) (hz : n.zoned = true)
  (h0 : zslba % zoneBlocks = 0) (hstr : (s.zxOf (zoneOf n zslba)).stream = none) (ht : s.tailFull = false)
include hf hz h0 hstr ht

/-- An action on one zone that its state allows is done to it, and the command ends. -/
theorem State.zoneSend_one {one all : List Nat} {chk : State → Cmd → Option (Nat × Nat)} (f : State → Nat → State) (lr : Bool)
    (hone : one.contains (s.zst (zoneOf n zslba)) = true)
    (hchk : ∀ c' : Cmd, c'.zone = zoneOf n zslba → chk (s.putCmd (Started s c .zoneMgmt nsid zslba 1 lr false 0)) c' = none) :
    ∃ c' : Cmd, c'.q = q ∧ c'.cid = cid ∧ s.zoneSend q cid nsid zslba false lr one all chk f =
      (f (s.putCmd (Started s c .zoneMgmt nsid zslba 1 lr false 0)) (zoneOf n zslba)).fin c' stOk := by
  obtain ⟨rfl, rfl⟩ := State.cmdOf_key hf.cmd
  refine ⟨{ Started s c .zoneMgmt nsid zslba 1 lr false 0 with zone := zoneOf n zslba }, rfl, rfl, ?_⟩
  have hfree : (s.putCmd (Started s c .zoneMgmt nsid zslba 1 lr false 0)).freeZone (zoneOf n zslba) = true := by
    show ((s.zxOf (zoneOf n zslba)).stream).isNone = true
    rw [hstr]; rfl
  have hone' : one.contains ((s.putCmd (Started s c .zoneMgmt nsid zslba 1 lr false 0)).zst (zoneOf n zslba)) = true := hone
  unfold State.zoneSend
  rw [if_neg Bool.false_ne_true, hf.beginZone_eq (fun _ => ht) hz]
  simp only [h0, hfree, hone', hchk { Started s c .zoneMgmt nsid zslba 1 lr false 0 with zone := zoneOf n zslba } rfl, bne_self_eq_false,
    Bool.false_eq_true, if_false, Bool.not_true]

/-- An Open of one zone without a hint opens the zone. -/
theorem State.zoneOpen_one (lr : Bool) : ∃ c' : Cmd, c'.q = q ∧ c'.cid = cid ∧ c'.zone = zoneOf n zslba ∧ c'.hint = 0 ∧ c'.slice = c.slice ∧
    c'.azLim = c.azLim ∧ execZoneOpen q cid nsid zslba false lr 0 s = .next ((s.putCmd (Started s c .zoneOpen nsid zslba 1 lr false 0)).openZone c' n) := by
  obtain ⟨rfl, rfl⟩ := State.cmdOf_key hf.cmd
  refine ⟨{ Started s c .zoneOpen nsid zslba 1 lr false 0 with zone := zoneOf n zslba }, rfl, rfl, rfl, rfl, rfl, rfl, ?_⟩
  have hfree : (s.putCmd (Started s c .zoneOpen nsid zslba 1 lr false 0)).freeZone (zoneOf n zslba) = true := by
    show ((s.zxOf (zoneOf n zslba)).stream).isNone = true
    rw [hstr]; rfl
  unfold execZoneOpen
  rw [if_neg Bool.false_ne_true, hf.beginZone_eq (fun _ => ht) hz]
  simp only [h0, hfree, bne_self_eq_false, Bool.false_eq_true, if_false, Bool.not_true]

end

/-- Settles O17: each action on one zone, then the command's end. -/
theorem zoneManagementComplete : Obligations.ZoneManagementComplete := by
  intro q cid nsid zslba lr x c n s hf hz h0 hstr ht
  let m := s.putCmd (Started s c .zoneMgmt nsid zslba 1 lr false 0)
  let h := zoneOf n zslba
  have ended {t : State} {c' : Cmd} (hq : c'.q = q) (hcid : c'.cid = cid) : (t.fin c' stOk).cmdOf q cid = none := by
    subst hq hcid; exact t.cmdOf_fin c' stOk 0 [] none
  have send {one all : List Nat} (f : State → Nat → State) (hone : one.contains (s.zst h) = true) :
      ∃ c' : Cmd, c'.q = q ∧ c'.cid = cid ∧ s.zoneSend q cid nsid zslba false lr one all noChk f = (f m h).fin c' stOk :=
    State.zoneSend_one hf hz h0 hstr ht f lr hone fun _ _ => rfl
  refine ⟨fun ha => ?_, fun u he hov haz hu => ?_, fun ho => ?_, fun ha => ?_, fun ha => ?_, fun ho => ?_⟩
  · obtain ⟨c', hq, hcid, hzone, -, -, -, hrun⟩ := State.zoneOpen_one hf hz h0 hstr ht lr
    have hne : s.zst h ≠ znEmpty := (State.not_refuses_of_active ha).2
    let m := s.putCmd (Started s c .zoneOpen nsid zslba 1 lr false 0)
    have hopen : m.openZone c' n = (if m.zst h = znExp then m else m.setZst h znExp).fin c' stOk := by
      unfold State.openZone
      rw [hzone]
      exact (if_neg hne).trans (if_pos ha)
    obtain ⟨fz, -, fu, -⟩ := (if m.zst h = znExp then m else m.setZst h znExp).fin_zone c' h
    refine ⟨_, hrun, ?_, ?_, ?_⟩
    · rw [hopen, fz]
      split
      · assumption
      · exact State.setZst_zst ..
    · rw [hopen]; exact ended hq hcid
    · rw [hopen, fu]
      split
      · rfl
      · exact (State.setZst_only ..).moves.ud
  · obtain ⟨c', hq, hcid, hzone, hhint, hsl, hlim, hrun⟩ := State.zoneOpen_one hf hz h0 hstr ht lr
    let m := s.putCmd (Started s c .zoneOpen nsid zslba 1 lr false 0)
    have hopen : m.openZone c' n = (u.setZst h znExp).fin c' stOk := by
      have haz' : m.azFree c'.slice c'.azLim = true := by rw [hsl, hlim]; exact haz
      have hov' : m.overQ c'.slice = false := by rw [hsl]; exact hov
      have hbit : bit c'.hint 15 = false := by rw [hhint]; rfl
      have he' : m.zst (zoneOf n zslba) = znEmpty := he
      unfold State.openZone
      simp only [hzone, hbit, he', haz', hov', Bool.false_and, Bool.and_false, Bool.false_eq_true, if_false, if_true, Bool.not_true, hu, m]
      rfl
    obtain ⟨fz, -, fu, -⟩ := (u.setZst h znExp).fin_zone c' h
    refine ⟨_, hrun, ?_, ?_, ?_⟩
    · rw [hopen, fz]; exact State.setZst_zst ..
    · rw [hopen]; exact ended hq hcid
    · rw [hopen, fu, (State.setZst_only ..).moves.ud, ((State.activate_only hu).also _ : Only .pointers _ _).ud]
      rfl
  · have hone : [znImp, znExp, znClosed].contains (s.zst h) = true := by rcases ho with e | e <;> (rw [e]; rfl)
    have hcl : m.zst h ≠ znClosed := by
      have : m.zst h = s.zst h := rfl
      rcases ho with e | e <;> (rw [this, e]; decide)
    obtain ⟨c', hq, hcid, hrun⟩ := send (all := [znImp, znExp]) (fun s h => if s.zst h = znClosed then s else s.closeZone h) hone
    rw [if_neg hcl] at hrun
    obtain ⟨fz, -, fu, -⟩ := (m.closeZone h).fin_zone c' h
    obtain ⟨hzst, hud⟩ := m.closeZone_closed h
    exact ⟨_, congrArg Host.Outcome.next hrun, fz.trans hzst, ended hq hcid, fu.trans hud⟩
  · have hone : [znEmpty, znImp, znExp, znClosed, znFull].contains (s.zst h) = true := by
      rcases State.active_iff.1 ha with e | e | e <;> (rw [e]; rfl)
    have hfull : m.zst h ≠ znFull := by
      have : m.zst h = s.zst h := rfl
      rcases State.active_iff.1 ha with e | e | e <;> (rw [this, e]; decide)
    have hne : m.zst h ≠ znEmpty := (State.not_refuses_of_active ha).2
    obtain ⟨c', hq, hcid, hrun⟩ := State.zoneSend_one hf hz h0 hstr ht (all := [znImp, znExp, znClosed])
      (chk := fun s c => if s.zst c.zone = znEmpty && s.overQ c.slice then some stQuota else none) State.finishZone lr hone (by
        intro c' hc'
        rw [hc', decide_eq_false hne, Bool.false_and]
        rfl)
    rw [show State.finishZone m h = m.becomeFull h from if_neg hfull] at hrun
    obtain ⟨fz, -, fu, fw⟩ := (m.becomeFull h).fin_zone c' h
    have hst := fz.trans (State.becomeFull_zst m h)
    refine ⟨_, congrArg Host.Outcome.next hrun, hst, fw.trans (State.becomeFull_wp m h), ?_, ended hq hcid, fu.trans (State.becomeFull_only m h).ud⟩
    rw [State.cend_of_full _ hst, State.zxOf_of_zx (State.fin_zx ..), State.becomeFull_fin]
    rfl
  · have hone : [znEmpty, znImp, znExp, znClosed, znFull].contains (s.zst h) = true := by
      rcases ha with ha | e
      · rcases State.active_iff.1 ha with e | e | e <;> (rw [e]; rfl)
      · rw [e]; rfl
    have hne : m.zst h ≠ znEmpty := by
      rcases ha with ha | e
      · exact (State.not_refuses_of_active ha).2
      · have : m.zst h = s.zst h := rfl
        rw [this, e]; decide
    obtain ⟨c', hq, hcid, hrun⟩ := send (all := [znImp, znExp, znClosed, znFull]) State.zoneReset hone
    obtain ⟨fz, -, fu, fw⟩ := (m.zoneReset h).fin_zone c' h
    obtain ⟨hzst, hwp, w, hw, hud⟩ := State.zoneReset_reset m hne
    refine ⟨_, congrArg Host.Outcome.next hrun, fz.trans hzst, fw.trans hwp, ended hq hcid, fun off hoff => ?_, fun k hk => ?_⟩
    · rw [State.getUd, fu, hud]; exact State.wipeZone_in w hoff
    · rw [State.getUd, fu, hud, State.getUd]
      exact (State.wipeZone_out w hk).trans (congrArg (Ud.get k) hw)
  · have hone : [znRo, znOff].contains (s.zst h) = true := by rw [ho]; rfl
    have hne : m.zst h ≠ znOff := by
      have : m.zst h = s.zst h := rfl
      rw [this, ho]; decide
    obtain ⟨c', hq, hcid, hrun⟩ := send (all := [znRo]) State.offlineZone hone
    obtain ⟨fz, -, fu, -⟩ := (m.offlineZone h).fin_zone c' h
    obtain ⟨hzst, w, hw, hud⟩ := State.offlineZone_offline m hne
    refine ⟨_, congrArg Host.Outcome.next hrun, fz.trans hzst, ended hq hcid, fun off hoff => ?_, fun k hk => ?_⟩
    · rw [State.getUd, fu, hud]; exact State.wipeZone_in w hoff
    · rw [State.getUd, fu, hud, State.getUd]
      exact (State.wipeZone_out w hk).trans (congrArg (Ud.get k) hw)

end Sys2Proof.Machine
end

section
/-! O19: what time does to commands in flight (03 R72; 04 R95, R103; 07 R173). -/

namespace Sys2Proof.Machine

/-- The counts that the end of a command raises: errors, missed deadlines, stale results. -/
def finFields : List Fld := [F.RAS_ERRLOG_COUNT, F.LGR_SL_DLMISS_CNT, F.SLI_STALE_CNT_CNT]

namespace State
variable (s : State)

theorem signal_regs (f v u : Nat) (t : Stamp) : (s.signal f v u t).regs = s.regs := by
  unfold signal
  dsimp only
  split
  · rfl
  · split <;> rfl

theorem hold_regs (f : Nat) (c : Cpl) (t : Stamp) : (s.hold f c t).regs = s.regs := by
  unfold hold; split <;> rfl

theorem give_regs (c : Cmd) (x : Queue) (e : Cpl) : (s.give c x e).regs = s.regs := by
  unfold give
  dsimp only
  split
  · rw [sendQp_eq]; rfl
  · split
    · exact hold_regs ..
    · split
      · exact signal_regs ..
      · rfl

/-- The end of a command changes no register field but its counts. -/
theorem fin_keeps (c : Cmd) (st : Nat × Nat) (dw0 : Nat) (data : List Nat) (die : Option Nat) : Keeps s (s.fin c st dw0 data die) finFields := by
  have hlog : Keeps s ((s.dropCmd c.q c.cid).logErr (.io c.q) c.cid st.1 st.2 die) finFields := fun f i j p hf =>
    logErr_rd _ _ _ _ _ _ f i j p (hf _ (by decide))
  rcases s.fin_cases c st dw0 data die with ⟨-, h⟩ | ⟨-, h⟩ | ⟨x, -, h⟩ <;> rw [h]
  · exact Keeps.refl s _
  · exact Keeps.trans (Keeps.of_regs rfl) (Keeps.inc (by decide) _ _ _ _)
  · refine Keeps.trans ?_ (Keeps.of_regs (give_regs ..))
    unfold leave
    split
    · exact hlog.trans (Keeps.inc (by decide) _ _ _ _)
    · exact hlog

variable {s}

/-- A live command in flight that ends has ended, whatever ends after it. -/
theorem fin_ended {t : State} {c : Cmd} {st : Nat × Nat} (hin : s.cmdOf c.q c.cid ≠ none) (hl : s.live c.slice c.q c.genS c.genQ = true)
    (h : CmdEnds (s.fin c st) t) : Ended t c.q c.cid st :=
  ⟨0, [], h.flight _ _ (s.cmdOf_fin c st 0 [] none), c.cpl st 0 [], rfl, rfl, rfl, rfl, rfl, (h.given _ (s.fin_given hin hl st 0 [] none)).posted_or_waits⟩

/-- A command stays live where its slice's generation and its queue stay. -/
theorem live_congr {t : State} {fs : List Fld} (hk : Keeps s t fs) (hf : ∀ g ∈ fs, F.SLI_GEN_GEN.id ≠ g.id) (hq : t.sl.qs = s.sl.qs) (n q gs gq : Nat) :
    t.live n q gs gq = s.live n q gs gq := by
  simp only [live, hq, hk F.SLI_GEN_GEN n 0 0 hf]

/-- A held Write that fails: it ends, is counted, and leaves its zone's hold (04 R95). -/
theorem failHeld_ended {c : Cmd} {st : Nat × Nat} (hin : s.cmdOf c.q c.cid ≠ none) (hl : s.live c.slice c.q c.genS c.genQ = true) :
    Ended (s.failHeld c st) c.q c.cid st ∧ (s.failHeld c st).zn.ud = s.zn.ud ∧
      (s.failHeld c st).rd F.ZON_HOLD_FAIL_CNT = sat F.ZON_HOLD_FAIL_CNT.w (s.rd F.ZON_HOLD_FAIL_CNT + 1) ∧
      (s.failHeld c st).rd F.ZON_ENT2_HOLD c.zone = cut F.ZON_ENT2_HOLD.w (s.rd F.ZON_ENT2_HOLD c.zone - 1) := by
  unfold failHeld
  have hk : Keeps s (((s.inc F.ZON_HOLD_FAIL_CNT).dec F.ZON_ENT2_HOLD c.zone).zseq c.zone) [F.ZON_HOLD_FAIL_CNT, F.ZON_ENT2_HOLD, F.ZON_ENT7_SEQ] :=
    ((Keeps.inc (f := F.ZON_HOLD_FAIL_CNT) (by decide) s _ _ _).trans (Keeps.wr (f := F.ZON_ENT2_HOLD) (by decide) _ _ _ _ _)).trans
      (Keeps.addw (f := F.ZON_ENT7_SEQ) (by decide) _ _ _ _)
  have hend := CmdEnds.fin (((s.inc F.ZON_HOLD_FAIL_CNT).dec F.ZON_ENT2_HOLD c.zone).zseq c.zone) c st 0 [] none
  refine ⟨fin_ended (s := ((s.inc F.ZON_HOLD_FAIL_CNT).dec F.ZON_ENT2_HOLD c.zone).zseq c.zone) hin ?_ (CmdEnds.refl _), hend.keeps.1, ?_, ?_⟩
  · exact (live_congr hk (by decide) rfl ..).trans hl
  · rw [fin_keeps _ _ _ _ _ _ _ _ _ _ (by decide)]
    unfold zseq dec
    simp (disch := decide) only [rd_addw_id, rd_wr_id, rd_inc_same, cut_sat]
  · rw [fin_keeps _ _ _ _ _ _ _ _ _ _ (by decide)]
    unfold zseq dec
    simp (disch := decide) only [rd_addw_id, rd_wr_same, rd_inc_id]

/-- What follows the end of a write that fails: what waits behind it may fail with it (04 R95). -/
theorem failWrite_after (s : State) (c : Cmd) (n : Ns) (st : Nat × Nat) : CmdEnds (s.fin c st) (s.failWrite c n st) := by
  unfold failWrite
  dsimp only
  split
  · exact CmdEnds.failHolds ..
  · exact CmdEnds.refl _

/-- A write that fails outside the hold ends. -/
theorem failWrite_ended {c : Cmd} {n : Ns} {st : Nat × Nat} (hin : s.cmdOf c.q c.cid ≠ none) (hl : s.live c.slice c.q c.genS c.genQ = true) :
    Ended (s.failWrite c n st) c.q c.cid st ∧ (s.failWrite c n st).zn.ud = s.zn.ud :=
  ⟨fin_ended hin hl (failWrite_after ..), ((CmdEnds.fin s c st 0 [] none).trans (failWrite_after s c n st)).keeps.1⟩

end State

/-- Settles O19: the held Write, the late command, the read that waited, and the activation that is tried again. -/
theorem commandTimeoutsComplete : Obligations.CommandTimeoutsComplete := by
  refine ⟨fun q cid x c n s h hl hst hff ht => ?_, fun q cid x c n s h hl hff hdl hun => ?_, fun q cid x c n s h hl hst ht => ?_,
    fun q cid x c n u s h hst hk hhint he haz hu => ?_⟩ <;> obtain ⟨rfl, rfl⟩ := State.cmdOf_key h.cmd
  · have hin : s.cmdOf c.q c.cid ≠ none := by rw [h.cmd]; exact Option.some_ne_none c
    refine ⟨s.failHeld c stZInvalid, congrArg Host.Outcome.next (State.withCmd_of h ?_ _), State.failHeld_ended hin hl⟩
    simp [hst, hff, ht]
  · have hin : s.cmdOf c.q c.cid ≠ none := by rw [h.cmd]; exact Option.some_ne_none c
    refine ⟨_, rfl, ?_⟩
    simp only [h.cmd, hff, hdl, hun, h.ns, decide_true, Bool.and_self, Bool.not_true, Bool.false_eq_true, if_false]
    split
    · obtain ⟨he, hud, -, -⟩ := State.failHeld_ended (st := stLate) hin hl
      exact ⟨he, hud⟩
    · exact State.failWrite_ended hin hl
  · have hin : s.cmdOf c.q c.cid ≠ none := by rw [h.cmd]; exact Option.some_ne_none c
    refine ⟨(s.inc F.RDN_UNREACH_CNT_CNT).fin c stUnreach, ?_, State.fin_ended (s := s.inc F.RDN_UNREACH_CNT_CNT) hin ?_ (CmdEnds.refl _), ?_, (CmdEnds.fin ..).keeps.1⟩
    · simp only [exec, execUnreachWaitExpiry, h.cmd, hst, ht, decide_true, Bool.and_self, if_true]
    · exact (State.live_congr (Keeps.inc (fs := [F.RDN_UNREACH_CNT_CNT]) (f := F.RDN_UNREACH_CNT_CNT) (by decide) s _ _ _) (by decide) rfl ..).trans hl
    · rw [State.fin_keeps _ _ _ _ _ _ _ _ _ _ (by decide), State.rd_inc_same, cut_sat]
  · have hrun : s.withCmd c.q c.cid (fun c => c.st = .place) (fun c _ n => if c.kind = .zoneOpen then s.openZone c n else if s.stg.commits then s.commit c n else s) =
        s.openZone c n := by
      rw [State.withCmd_of h (by simp [hst])]
      exact if_pos hk
    have hopen : s.openZone c n = (u.setZst c.zone znExp).fin c stOk := by
      unfold State.openZone
      simp only [hhint, he, haz, hst, hu, Bool.false_and, Bool.false_eq_true, if_false, if_true, Bool.not_true, bne_self_eq_false]
    obtain ⟨fz, fc, fu, -⟩ := (u.setZst c.zone znExp).fin_zone c c.zone
    refine ⟨s.openZone c n, congrArg Host.Outcome.next hrun, ?_, ?_, ?_⟩
    · rw [hopen, fz]; exact State.setZst_zst ..
    · rw [hopen]; exact fc
    · rw [hopen, fu, (State.setZst_only ..).moves.ud, ((State.activate_only hu).also _ : Only .pointers _ _).ud]

end Sys2Proof.Machine
end

section
/-! SUPPORT. The scope of the map cache: work on the media, and what the cached pages of the map may change. The fine map is not among it. -/

namespace Sys2Proof.Machine

/-- Work on the media, the lines of the map cache, and the blocks in which pages of the map are written back. -/
def Scope.cache : Scope where
  merge s t := { Scope.media.merge s t with
    ftl := { (Scope.media.merge s t).ftl with bypass := t.ftl.bypass, lines := t.ftl.lines, plru := t.ftl.plru, pseq := t.ftl.pseq }
    zn := { (Scope.media.merge s t).zn with ud := t.zn.ud } }
  fields := Scope.media.fields

def Bound.cache : Bound := Scope.cache.bound

namespace Only

theorem cached {s t : State} (h : Only .media s t) : Only .cache s t := h.widen (fun _ _ => rfl) fun _ hf => hf

namespace Cache

-- So the unifier sees a match on an option as the recursor that `opt` speaks of.
set_option smartUnfolding false

variable (s : State)

theorem setUd (k v : Nat) : Only .cache s (s.setUd k v) := upd rfl

theorem foldPar (r : RowId) (u v : Nat) : Only .cache s (s.foldPar r u v) := by
  unfold State.foldPar
  exact .opt (fun _ => (.ite (.refl _) (upd rfl))) (.refl _)

theorem stageAt (u : StU) (key v : Nat) : Only .cache s (s.stageAt u key v) := by
  unfold State.stageAt
  exact (foldPar ..).after ((setUd ..).after (upd rfl))

theorem putLine (l : MLine) : Only .cache s (s.putLine l) := by
  unfold State.putLine
  exact upd rfl

theorem dropLine (l : MLine) : Only .cache s (s.dropLine l) := by
  unfold State.dropLine
  exact upd rfl

theorem touch (set way : Nat) : Only .cache s (s.touch set way) := by
  unfold State.touch
  exact upd rfl

theorem newCRow (dg : Nat) (map : Bool) : Only.OfSome₂ .cache s (s.newCRow dg map) := by
  unfold State.newCRow
  dsimp only
  split
  · exact .none
  split
  · exact .none
  split
  next sets cur h _ _ =>
    exact .some (.pair ((Work.jnBlks ..).cached.after ((Work.jnBlks ..).cached.after ((Work.jn ..).cached.after
      (.after (t := (s.newRow _ (s.onShadow dg) true (sets.headD 0)).1) (of rfl rfl) (Work.newRow ..).cached)))))
  · exact .none

theorem openMapRow (dg : Nat) : Only.OfSome₂ .cache s (s.openMapRow dg) := by
  unfold State.openMapRow
  exact .opt (fun _ => (.some (.pair (.refl _)))) (newCRow ..)

theorem writeBack (nsid page : Nat) (bg : Bool) : Only .cache s (s.writeBack nsid page bg) := by
  unfold State.writeBack
  exact .optMem
    (fun _ h0 =>
      (.opt
        (fun _ =>
          ((Work.jn ..).cached.after
            ((Work.progReady ..).cached.after (.after (.foldl (fun _ _ => (stageAt ..))) (.after (upd rfl) ((openMapRow ..).get h0))))))
        ((openMapRow ..).get h0)))
    (.refl _)

theorem bypassUse (nsid page : Nat) (dirty : Bool) : Only .cache s (s.bypassUse nsid page dirty) := by
  unfold State.bypassUse
  dsimp only
  split
  · exact .ite (.after (upd rfl) (.ite (writeBack ..) (.refl _))) (upd rfl)
  · exact upd rfl

theorem chargeFill (n : Nat) : Only .cache s (s.chargeFill n) := by
  unfold State.chargeFill
  exact (Work.charge ..).cached

theorem dirtyPage (nsid page seq : Nat) : Only .cache s (s.dirtyPage nsid page seq) := by
  unfold State.dirtyPage
  exact .after
    (.ite
      (bypassUse ..)
      (.opt
        (fun _ => (putLine ..))
        (.opt
          (fun _ =>
            ((touch ..).after
              ((putLine ..).after
                (.after
                  (.ite (chargeFill ..) (.refl _))
                  (.opt (fun _ => ((dropLine ..).after (.ite (writeBack ..) (.refl _)))) (.refl _))))))
          (.refl _))))
    (upd rfl)

theorem invalidate (row : Nat) : Only .cache s (s.invalidate row) := by
  unfold State.invalidate
  exact .opt (fun _ => (upd rfl)) (.refl _)


end Cache

end Only

end Sys2Proof.Machine
end

section
/-! O18: Write Zeroes, Deallocate and Flush (03 R505; 02 R49; 07 R171). -/

namespace Sys2Proof.Machine

theorem mapKey_inj {nsid a b : Nat} (h : mapKey nsid a = mapKey nsid b) : a = b := by
  unfold mapKey at h
  omega

namespace State
variable (s : State)

/-! ### The fine map -/

theorem invalidate_fmap (row : Nat) : (s.invalidate row).ftl.fmap = s.ftl.fmap := by
  unfold invalidate
  split <;> rfl

/-- Unmapping a block takes its entry off the map. -/
theorem mapSet_fmap (nsid lba seq : Nat) : (s.mapSet nsid lba ⟨0, 0, 0⟩ seq).ftl.fmap = Tab.del (mapKey nsid lba) s.ftl.fmap := by
  have hd (t : State) : (t.dirtyPage nsid (lba / pageEntries) seq).ftl.fmap = t.ftl.fmap := by
    rw [(Only.Cache.dirtyPage t nsid _ seq).frame]; rfl
  unfold mapSet
  simp only [hd, putMent, if_true, apply_ite State.ftl, apply_ite FtlSt.fmap, addw_ftl, dec_ftl, invalidate_fmap, ite_self]

theorem ment_mapSet (nsid lba seq l : Nat) : (s.mapSet nsid lba ⟨0, 0, 0⟩ seq).ment nsid l = if l = lba then ⟨0, 0, 0⟩ else s.ment nsid l := by
  rw [ment, mapSet_fmap]
  split
  · next h => subst h; rw [Tab.find_del_same]; rfl
  · next h => rw [Tab.find_del_ne _ fun e => h (mapKey_inj e)]; rfl

/-- Unmapping a run of blocks unmaps these and no other of the namespace. -/
theorem ment_unmapped (nsid lba seq len : Nat) (l : Nat) :
    ((List.range len).foldl (fun (s : State) i => s.mapSet nsid (lba + i) ⟨0, 0, 0⟩ seq) s).ment nsid l =
      if lba ≤ l ∧ l < lba + len then ⟨0, 0, 0⟩ else s.ment nsid l := by
  induction len with
  | zero => rw [if_neg (by omega)]; rfl
  | succ k ih =>
    rw [List.range_succ, List.foldl_append, List.foldl_cons, List.foldl_nil, ment_mapSet, ih]
    by_cases hk : l = lba + k
    · rw [if_pos hk, if_pos (by omega)]
    · rw [if_neg hk]
      exact if_congr (by omega) rfl rfl

theorem ment_of_media {s t : State} (h : Only .media s t) (nsid l : Nat) : t.ment nsid l = s.ment nsid l := by
  rw [ment, h.frame]; rfl

/-- What is left of a command that unmapped blocks: the slice's limits, and its end. -/
theorem unmap_ended (n : Nat) (c : Cmd) (nsid l : Nat) : ((s.limits n).fin c stOk).ment nsid l = s.ment nsid l ∧ ((s.limits n).fin c stOk).cmdOf c.q c.cid = none :=
  ⟨ment_of_media (Only.after (Only.Work.fin ..) (Only.Work.limits ..)) nsid l, cmdOf_fin ..⟩

/-! ### Commands in flight -/

variable {s}

/-- A command put in the place of one in flight is the one in flight. -/
theorem cmdOf_putCmd_same {c : Cmd} (h : s.cmdOf c.q c.cid ≠ none) : (s.putCmd c).cmdOf c.q c.cid = some c := by
  have hq : ∀ d ∈ (s.putCmd c).zn.cmds, d.q = c.q → d.cid = c.cid → d = c := by
    intro d hd
    simp only [putCmd, List.mem_map] at hd
    obtain ⟨e, -, he⟩ := hd
    split at he
    · exact fun _ _ => he.symm
    · next hk => subst he; exact fun h₁ h₂ => absurd (by simp [h₁, h₂]) hk
  obtain ⟨d, hd⟩ := Option.ne_none_iff_exists'.1 (cmdOf_putCmd (c := c) h)
  obtain ⟨h₁, h₂⟩ := cmdOf_key hd
  rw [hd, hq d (List.mem_of_find?_eq_some hd) h₁ h₂]

end State

/-! ### Flush (07 R171) -/

/-- What forcing page-rows to flash leaves: commands, queues, what was sent, and which rows have units in staging. -/
structure Forced (s t : State) : Prop where
  rows : t.stg.units.map StU.row = s.stg.units.map StU.row
  ftl : t.ftl = s.ftl
  zn : t.zn = s.zn
  outs : t.outs = s.outs
  fns : t.fns = s.fns
  net : t.net = s.net
  qs : t.sl.qs = s.sl.qs
  regs : Keeps s t chargeFields

namespace Forced

theorem refl (s : State) : Forced s s := ⟨rfl, rfl, rfl, rfl, rfl, rfl, rfl, Keeps.refl s _⟩

theorem trans {a b c : State} (h : Forced a b) (k : Forced b c) : Forced a c :=
  ⟨k.rows.trans h.rows, k.ftl.trans h.ftl, k.zn.trans h.zn, k.outs.trans h.outs, k.fns.trans h.fns, k.net.trans h.net, k.qs.trans h.qs, h.regs.trans k.regs⟩

theorem foldl {α : Type} {f : State → α → State} (h : ∀ s a, Forced s (f s a)) (l : List α) (s : State) : Forced s (l.foldl f s) :=
  foldl_keeps (P := Forced s) (fun t a k => k.trans (h t a)) l s (refl s)

variable (s : State)

theorem charge (n c : Nat) : Forced s (s.charge n none c) :=
  ⟨rfl, rfl, rfl, rfl, rfl, rfl, rfl, (s.charge_system n c).choose_spec.2⟩

theorem plog (l : List PLog) : Forced s { s with stg := { s.stg with plog := l } } := ⟨rfl, rfl, rfl, rfl, rfl, rfl, rfl, Keeps.of_regs rfl⟩

theorem enq (d : Nat) (o : DOp) : Forced s (s.enq d o) := ⟨rfl, rfl, rfl, rfl, rfl, rfl, rfl, Keeps.of_regs rfl⟩

theorem progPage (r : RowId) (k w p m n : Nat) (purp : Purp) (force : Bool) : Forced s (s.progPage r k w p m n purp force) := by
  unfold State.progPage
  split
  · exact refl s
  · next x _ =>
    extract_lets b sp dl src o back src' u
    have hu : Forced s u := by
      by_cases hb : back.isEmpty = true
      · rw [show u = s from if_pos hb]; exact refl s
      · rw [show u = { s with stg := { s.stg with units := s.stg.units.map (fun (v : StU) => if back.contains v then { v with pool := 0 } else v) } } from
          if_neg hb]
        refine ⟨?_, rfl, rfl, rfl, rfl, rfl, rfl, Keeps.of_regs rfl⟩
        show (s.stg.units.map fun (v : StU) => if back.contains v then { v with pool := 0 } else v).map (·.row) = s.stg.units.map StU.row
        rw [List.map_map]
        refine List.map_congr_left fun v _ => ?_
        dsimp only [Function.comp]
        split <;> rfl
    split
    · exact refl s
    · split
      · exact hu
      · refine hu.trans (trans ?_ (enq ..))
        split
        · exact charge ..
        · exact refl u

theorem forcePage (n : Nat) (e : RowId × Nat × Nat) : Forced s (s.forcePage n e) := by
  unfold State.forcePage
  dsimp only
  split
  · exact refl s
  · exact trans (trans (charge ..) (foldl (fun t m => progPage ..) _ _)) (plog ..)

theorem forceFlush (dg n : Nat) : Forced s (s.forceFlush dg n) := foldl (fun t e => forcePage t n e) _ s

end Forced

namespace State
variable {s : State}

theorem convStaged_of_rows {t : State} (hr : t.stg.units.map StU.row = s.stg.units.map StU.row) (hf : t.ftl = s.ftl) {dg : Nat}
    (h : s.convStaged dg = []) : t.convStaged dg = [] := by
  simp only [convStaged, List.filter_eq_nil_iff] at h ⊢
  intro u hu
  obtain ⟨v, hv, hvr⟩ := List.mem_map.1 (hr ▸ List.mem_map_of_mem (f := StU.row) hu)
  have := h v hv
  rwa [hvr, ← hf] at this

theorem signal_sl (f v u : Nat) (m : Stamp) : (s.signal f v u m).sl.qs = s.sl.qs := by
  unfold signal
  dsimp only
  split
  · rfl
  · split <;> rfl

theorem give_qs (c : Cmd) (x : Queue) (e : Cpl) : (s.give c x e).sl.qs = Tab.put c.q { x with outst := x.outst - 1 } s.sl.qs := by
  unfold give
  dsimp only
  split
  · rw [sendQp_eq]; rfl
  · split
    · unfold hold; split <;> rfl
    · split
      · rw [signal_sl]; rfl
      · rfl

/-- A command's end leaves every command live that was. -/
theorem fin_live (c : Cmd) (st : Nat × Nat) (dw0 : Nat) (data : List Nat) (die : Option Nat) (n q gs gq : Nat) :
    (s.fin c st dw0 data die).live n q gs gq = s.live n q gs gq := by
  have hk := fin_keeps s c st dw0 data die F.SLI_GEN_GEN n 0 0 (by decide)
  rcases s.fin_cases c st dw0 data die with ⟨-, h⟩ | ⟨-, h⟩ | ⟨x, hx, h⟩
  · rw [h]
  · rw [live, hk, h]; rfl
  · rw [live, hk, h, give_qs, leave_queues]
    by_cases hq : q = c.q
    · subst hq; rw [Tab.find_put_same, live, hx]
    · rw [Tab.find_put_ne _ _ hq]; rfl

theorem give_zn (c : Cmd) (x : Queue) (e : Cpl) : (s.give c x e).zn = s.zn := by
  unfold give
  dsimp only
  split
  · rw [sendQp_zn]; rfl
  · split
    · rw [hold_zn]; rfl
    · split
      · rw [signal_zn]; rfl
      · rfl

theorem leave_zn (c : Cmd) (st : Nat × Nat) (die : Option Nat) : (s.leave c st die).zn = (s.dropCmd c.q c.cid).zn := by
  unfold leave
  split
  · rw [inc_zn, logErr_zn]
  · rw [logErr_zn]

/-- A command's end takes at most that command out of flight. -/
theorem cmdOf_fin_ne {c : Cmd} {q cid : Nat} (hne : ¬ (q = c.q ∧ cid = c.cid)) (st : Nat × Nat) (dw0 : Nat) (data : List Nat) (die : Option Nat) :
    (s.fin c st dw0 data die).cmdOf q cid = s.cmdOf q cid := by
  have hd := s.cmdOf_dropCmd_ne hne
  rcases s.fin_cases c st dw0 data die with ⟨-, h⟩ | ⟨-, h⟩ | ⟨x, -, h⟩
  · rw [h]
  · rw [h]; exact hd
  · rw [← hd, h, cmdOf, give_zn, leave_zn]; rfl

/-- What is so of a Flush while flushes are completed: it is in flight, with nothing of its group in staging, or it was answered. -/
inductive FlushEnds (c : Cmd) (n : Ns) (s : State) : Prop
  | waits (cmd : s.cmdOf c.q c.cid ≠ none) (live : s.live c.slice c.q c.genS c.genQ = true) (ns : Tab.find c.nsid s.zn.ns = some n)
      (clean : s.convStaged n.dg = [])
  | ended (cmd : s.cmdOf c.q c.cid = none) (given : Given s (c.cpl stOk 0 []))

/-- One step of completing flushes. -/
def flushStep (s : State) (d : Cmd) : State :=
  match Tab.find d.nsid s.zn.ns with
  | some n => if (s.convStaged n.dg).isEmpty then s.fin d stOk else s.forceFlush n.dg d.slice
  | none => s.fin d stOk

theorem flushStep_cases (s : State) (d : Cmd) : s.flushStep d = s.fin d stOk ∨ ∃ dg, s.flushStep d = s.forceFlush dg d.slice := by
  unfold flushStep
  split
  · split
    · exact .inl rfl
    · exact .inr ⟨_, rfl⟩
  · exact .inl rfl

/-- A Flush that was answered stays so. -/
theorem flushStep_given {c : Cmd} (hc : s.cmdOf c.q c.cid = none) (hg : Given s (c.cpl stOk 0 [])) (d : Cmd) :
    (s.flushStep d).cmdOf c.q c.cid = none ∧ Given (s.flushStep d) (c.cpl stOk 0 []) := by
  rcases s.flushStep_cases d with h | ⟨dg, h⟩ <;> rw [h]
  · have he := CmdEnds.fin s d stOk 0 [] none
    exact ⟨he.flight _ _ hc, he.given _ hg⟩
  · have hf := Forced.forceFlush s dg d.slice
    refine ⟨?_, hg.mono (by rw [hf.outs]; exact List.Subset.refl _) hf.fns (by rw [hf.net]; exact List.Subset.refl _)⟩
    rw [cmdOf, hf.zn]; exact hc

/-- The Flush itself is answered at its step. -/
theorem flushStep_self {c : Cmd} {n : Ns} (h : FlushEnds c n s) : (s.flushStep c).cmdOf c.q c.cid = none ∧ Given (s.flushStep c) (c.cpl stOk 0 []) := by
  cases h with
  | ended hc hg => exact flushStep_given hc hg c
  | waits hc hl hn hs =>
    have : s.flushStep c = s.fin c stOk := by simp only [flushStep, hn, hs, List.isEmpty_nil, if_true]
    rw [this]
    exact ⟨cmdOf_fin .., fin_given hc hl stOk 0 [] none⟩

theorem flushStep_ends {c d : Cmd} {n : Ns} (h : FlushEnds c n s) (hd : d.q = c.q → d.cid = c.cid → d = c) : FlushEnds c n (s.flushStep d) := by
  by_cases hk : c.q = d.q ∧ c.cid = d.cid
  · obtain rfl := hd hk.1.symm hk.2.symm
    exact .ended (flushStep_self h).1 (flushStep_self h).2
  cases h with
  | ended hc hg => exact .ended (flushStep_given hc hg d).1 (flushStep_given hc hg d).2
  | waits hc hl hn hs =>
    rcases s.flushStep_cases d with h | ⟨dg, h⟩ <;> rw [h]
    · obtain ⟨r, a, cs, qs, e, v, f, w, o, hfr⟩ := (CmdEnds.fin s d stOk 0 [] none).frame
      refine .waits ?_ ?_ ?_ ?_
      · rw [cmdOf_fin_ne hk]; exact hc
      · rw [fin_live]; exact hl
      · rw [hfr]; exact hn
      · rw [hfr]; exact hs
    · have hf := Forced.forceFlush s dg d.slice
      refine .waits ?_ ?_ ?_ (convStaged_of_rows hf.rows hf.ftl hs)
      · rw [cmdOf, hf.zn]; exact hc
      · rw [live_congr hf.regs (by decide) hf.qs]; exact hl
      · rw [hf.zn]; exact hn

theorem flushStep_ud (s : State) (d : Cmd) : (s.flushStep d).zn.ud = s.zn.ud := by
  rcases s.flushStep_cases d with h | ⟨dg, h⟩ <;> rw [h]
  · exact (CmdEnds.fin s d stOk 0 [] none).keeps.1
  · rw [(Forced.forceFlush s dg d.slice).zn]

/-- A Flush among those that are completed is answered. -/
theorem flushes_end {c : Cmd} {n : Ns} {l : List Cmd} (hl : ∀ d ∈ l, d.q = c.q → d.cid = c.cid → d = c) (hc : c ∈ l) (h : FlushEnds c n s) :
    (l.foldl flushStep s).cmdOf c.q c.cid = none ∧ Given (l.foldl flushStep s) (c.cpl stOk 0 []) := by
  have kept : ∀ (l : List Cmd) (s : State), s.cmdOf c.q c.cid = none → Given s (c.cpl stOk 0 []) →
      (l.foldl flushStep s).cmdOf c.q c.cid = none ∧ Given (l.foldl flushStep s) (c.cpl stOk 0 []) := by
    intro l
    induction l with
    | nil => exact fun s h₁ h₂ => ⟨h₁, h₂⟩
    | cons d l ih => exact fun s h₁ h₂ => ih _ (flushStep_given h₁ h₂ d).1 (flushStep_given h₁ h₂ d).2
  induction l generalizing s with
  | nil => cases hc
  | cons d l ih =>
    rcases List.mem_cons.1 hc with rfl | hc
    · exact kept l _ (flushStep_self h).1 (flushStep_self h).2
    · exact ih (fun e he => hl e (List.mem_cons_of_mem _ he)) hc (flushStep_ends h (hl d List.mem_cons_self))

theorem finFlush_eq (s : State) : s.finFlush =
    (s.zn.cmds.filter (fun c => c.st = .media && (c.kind = .flush || (c.kind = .write && c.fua)))).foldl flushStep s.keepLog := rfl

end State

/-! ### The commands -/

namespace State
variable {s : State} {q cid nsid lba len : Nat} {x : Queue} {c : Cmd} {n : Ns}

/-- A fetched command is found under its own numbers. -/
theorem fetched_key (h : Fetched s q cid nsid lba len x c n) : c.q = q ∧ c.cid = cid ∧ s.cmdOf c.q c.cid ≠ none := by
  obtain ⟨rfl, rfl⟩ := cmdOf_key h.cmd
  exact ⟨rfl, rfl, by rw [h.cmd]; exact Option.some_ne_none c⟩

/-- A Write Zeroes of a conventional namespace unmaps its blocks and ends. -/
theorem writeZeroes_conv (h : Fetched s q cid nsid lba len x c n) (hz : n.zoned = false) (ho : s.overQ c.slice = false) (ht : s.tailFull = false)
    (lr : Bool) : ∃ m : State, m.ftl.fmap = s.ftl.fmap ∧ execWriteZeroes q cid nsid lba len lr s =
      .next ((((List.range len).foldl (fun s i => s.mapSet nsid (lba + i) ⟨0, 0, 0⟩ m.ftl.jnext) (m.jn 0x03 [nsid, lba, len])).limits c.slice).fin
        (Started s c .writeZeroes nsid lba len lr false 0) stOk) := by
  refine ⟨s.putCmd (Started s c .writeZeroes nsid lba len lr false 0), rfl, ?_⟩
  have ho' : (s.putCmd (Started s c .writeZeroes nsid lba len lr false 0)).overQ (Started s c .writeZeroes nsid lba len lr false 0).slice = false := ho
  unfold execWriteZeroes
  rw [h.begin_eq fun _ => ht]
  simp only [hz, ho', Bool.false_eq_true, if_false]
  rfl

/-- A Deallocate of one range of a conventional namespace unmaps its blocks and ends. -/
theorem deallocate_conv (h : Fetched s q cid nsid 0 0 x c n) (hz : n.zoned = false) (hfit : lba + len ≤ n.size) (ht : s.tailFull = false) :
    ∃ m : State, execDeallocate q cid nsid [(lba, len)] s =
      .next ((((List.range len).foldl (fun s i => s.mapSet nsid (lba + i) ⟨0, 0, 0⟩ m.ftl.jnext) (m.jn 0x03 [nsid, lba, len])).limits c.slice).fin
        (Started s c .dealloc nsid 0 0 false false 0) stOk) := by
  refine ⟨s.putCmd (Started s c .dealloc nsid 0 0 false false 0), ?_⟩
  unfold execDeallocate
  rw [h.begin_eq fun _ => ht]
  simp only [hz, List.any_cons, List.any_nil, gt_iff_lt, Nat.not_lt.2 hfit, decide_false, Bool.or_self, Bool.false_eq_true, if_false,
    List.foldl_cons, List.foldl_nil]
  rfl

/-- A Flush with nothing of its group in staging completes at once. -/
theorem flush_ended (h : Fetched s q cid nsid 0 0 x c n) (hz : n.zoned = true ∨ s.convStaged n.dg = []) :
    ∃ t, execFlush q cid nsid s = .next t ∧ Ended t q cid stOk ∧ t.zn.ud = s.zn.ud := by
  obtain ⟨rfl, rfl, hin⟩ := fetched_key h
  have hbeg := h.begin_eq (k := .flush) (fun hk => absurd hk (by decide)) false false 0
  let d := Started s c .flush nsid 0 0 false false 0
  have hl : (s.putCmd d).live d.slice d.q d.genS d.genQ = true := h.live
  have hin' : (s.putCmd d).cmdOf d.q d.cid ≠ none := cmdOf_putCmd (c := d) hin
  cases hzn : n.zoned with
  | true =>
    refine ⟨(s.putCmd d).fin d stOk, ?_, fin_ended hin' hl (CmdEnds.refl _), (CmdEnds.fin ..).keeps.1⟩
    simp only [execFlush, hbeg, hzn, if_true]
    rfl
  | false =>
    have hclean : s.convStaged n.dg = [] := hz.resolve_left (by rw [hzn]; exact Bool.false_ne_true)
    let e : Cmd := { d with st := .media }
    let m := (s.putCmd d).putCmd e
    have hforce : m.forceFlush n.dg c.slice = m := by
      have : m.convStaged n.dg = [] := hclean
      rw [forceFlush, this]; rfl
    have hem : m.cmdOf e.q e.cid = some e := cmdOf_putCmd_same hin'
    have hkeep : FlushEnds e n m.keepLog := by
      refine .waits ?_ h.live h.ns hclean
      show m.cmdOf e.q e.cid ≠ none
      rw [hem]; exact Option.some_ne_none e
    have hsame : ∀ f ∈ m.zn.cmds, f.q = e.q → f.cid = e.cid → f = e := by
      intro f hf h₁ h₂
      obtain ⟨g, -, hg⟩ := List.mem_map.1 hf
      split at hg
      · exact hg.symm
      · next hk => subst hg; exact absurd (by simp [h₁, h₂]) hk
    have hmem : e ∈ m.zn.cmds.filter (fun c => c.st = .media && (c.kind = .flush || (c.kind = .write && c.fua))) := by
      refine List.mem_filter.2 ⟨List.mem_of_find?_eq_some hem, ?_⟩
      simp [e, d, Started]
    obtain ⟨hc, hg⟩ := flushes_end (fun f hf => hsame f (List.mem_filter.1 hf).1) hmem hkeep
    refine ⟨m.finFlush, ?_, ⟨0, [], hc, e.cpl stOk 0 [], rfl, rfl, rfl, rfl, rfl, hg.posted_or_waits⟩, ?_⟩
    · simp only [execFlush, hbeg, hzn, Bool.false_eq_true, if_false]
      exact congrArg (fun t : State => Host.Outcome.next t.finFlush) hforce
    · rw [finFlush_eq]
      exact foldl_keeps (P := fun t => t.zn.ud = s.zn.ud) (fun t d ht => (flushStep_ud t d).trans ht) _ _ rfl

/-- A write into an active zone passes the tests before that of its place. -/
theorem wTest_place {z off len : Nat} (ha : isActive (s.zst z) = true) (hf : off + len ≤ zoneBlocks) (ho : s.overQ (s.zSlice z) = false) :
    s.wTest z off len false true = if off < s.wp z then .bad stZInvalid else if s.wp z < off then .hold else .ok := by
  obtain ⟨hr, he⟩ := not_refuses_of_active ha
  simp [wTest, hr, he, ho, Nat.not_lt.2 hf]

section
variable (h : Fetched s q cid nsid lba len x c n) (hz : n.zoned = true) (hstr : (s.zxOf (zoneOf n lba)).stream = none)
  (ha : isActive (s.zst (zoneOf n lba)) = true) (hfit : lba % zoneBlocks + len ≤ zoneBlocks) (ho : s.overQ (s.zSlice (zoneOf n lba)) = false)
  (ht : s.tailFull = false)
include h hz hstr ha hfit ho ht

/-- A Write Zeroes at the write pointer of an active zone is admitted with zeros for its data (log 30). -/
theorem writeZeroes_zoned (lr : Bool) (hw : lba % zoneBlocks = s.wp (zoneOf n lba)) (hph : s.rd F.MED_PF_STS_PHASE = 0) (hcom : s.stg.commits = true)
    (hfl : s.ftl.faulted = none) (hbey : s.beyond { Started s c .writeZeroes nsid lba len lr false 0 with zone := zoneOf n lba } n = false)
    (hreb : s.rebuilding (zoneOf n lba) = false) (hcip : n.cipher ≠ 1) : execWriteZeroes q cid nsid lba len lr s =
      .next (((s.putCmd (Started s c .writeZeroes nsid lba len lr false 0)).putCmd
        { Started s c .writeZeroes nsid lba len lr false 0 with zone := zoneOf n lba, st := .staging }).putCmd
        { Started s c .writeZeroes nsid lba len lr false 0 with
          zone := zoneOf n lba, st := .admitted, data := List.replicate len 0, azLim := s.rd F.SLI_AZ_LIMIT c.slice + 1 }) := by
  let d := { Started s c .writeZeroes nsid lba len lr false 0 with zone := zoneOf n lba }
  let m := s.putCmd (Started s c .writeZeroes nsid lba len lr false 0)
  let e : Cmd := { d with st := .staging }
  have hfree : m.freeZone (zoneOf n lba) = true := by
    show ((s.zxOf (zoneOf n lba)).stream).isNone = true
    rw [hstr]; rfl
  have htest : m.wTest (zoneOf n lba) (lba % zoneBlocks) len false true = .ok := by
    refine (wTest_place (s := m) ha hfit ho).trans ?_
    rw [if_neg (by rw [hw]; exact Nat.lt_irrefl _), if_neg (by rw [hw]; exact Nat.lt_irrefl _)]
  have hkey : (m.putCmd e).blockKey e.nsid = (m.putCmd e, .ready) := by
    have : Tab.find e.nsid (m.putCmd e).zn.ns = some n := h.ns
    simp only [blockKey, this, if_neg hcip]
  have hgo : ((m.putCmd e).rd F.MED_PF_STS_PHASE != 0 || !(m.putCmd e).stg.commits || (m.putCmd e).ftl.faulted.isSome || (m.putCmd e).tailFull ||
      (m.putCmd e).beyond e n || (m.putCmd e).rebuilding e.zone) = false := by
    show (s.rd F.MED_PF_STS_PHASE != 0 || !s.stg.commits || s.ftl.faulted.isSome || s.tailFull || s.beyond d n || s.rebuilding d.zone) = false
    rw [hph, hcom, hfl, ht, hbey, hreb]; rfl
  have hadm : (m.putCmd e).admitZeroes e n = (m.putCmd e).putCmd { e with st := .admitted, data := List.replicate len 0, azLim := s.rd F.SLI_AZ_LIMIT c.slice + 1 } := by
    rw [admitZeroes, hgo, if_neg Bool.false_ne_true]
    simp only [hkey]
    rfl
  have hbeg : s.begin q cid .writeZeroes nsid lba len lr false 0 = .go m (Started s c .writeZeroes nsid lba len lr false 0) x n := h.begin_eq (fun _ => ht) ..
  unfold execWriteZeroes
  simp only [hbeg, hz, hfree, htest, if_true, Bool.not_true, Bool.false_eq_true, if_false]
  exact congrArg Host.Outcome.next hadm

/-- A Write Zeroes elsewhere in an active zone fails (log 30). -/
theorem writeZeroes_off (hne : lba % zoneBlocks ≠ s.wp (zoneOf n lba)) (lr : Bool) : ∃ t, execWriteZeroes q cid nsid lba len lr s = .next t ∧
    Ended t q cid stZInvalid ∧ t.wp (zoneOf n lba) = s.wp (zoneOf n lba) ∧ t.zn.ud = s.zn.ud := by
  obtain ⟨rfl, rfl, hin⟩ := fetched_key h
  let d := { Started s c .writeZeroes nsid lba len lr false 0 with zone := zoneOf n lba }
  let m := s.putCmd (Started s c .writeZeroes nsid lba len lr false 0)
  have hin' : m.cmdOf d.q d.cid ≠ none := cmdOf_putCmd (c := Started s c .writeZeroes nsid lba len lr false 0) hin
  have hl : m.live d.slice d.q d.genS d.genQ = true := h.live
  have hbeg : s.begin c.q c.cid .writeZeroes nsid lba len lr false 0 = .go m (Started s c .writeZeroes nsid lba len lr false 0) x n :=
    h.begin_eq (fun _ => ht) ..
  have hfree : m.freeZone (zoneOf n lba) = true := by
    show ((s.zxOf (zoneOf n lba)).stream).isNone = true
    rw [hstr]; rfl
  have htest : m.wTest (zoneOf n lba) (lba % zoneBlocks) len false true = if lba % zoneBlocks < s.wp (zoneOf n lba) then .bad stZInvalid else .hold := by
    refine (wTest_place (s := m) ha hfit ho).trans ?_
    by_cases hlt : lba % zoneBlocks < s.wp (zoneOf n lba)
    · exact (if_pos hlt).trans (if_pos hlt).symm
    · exact ((if_neg hlt).trans (if_pos (Nat.lt_of_le_of_ne (Nat.not_lt.1 hlt) hne.symm))).trans (if_neg hlt).symm
  have hwp {t : State} (ht : CmdEnds m t) : t.wp (zoneOf n lba) = s.wp (zoneOf n lba) := ht.regs _ _ _ _ (by decide)
  have hud {t : State} (ht : CmdEnds m t) : t.zn.ud = s.zn.ud := ht.keeps.1
  by_cases hlt : lba % zoneBlocks < s.wp (zoneOf n lba)
  · obtain ⟨he, -⟩ := failWrite_ended (c := d) (n := n) (st := stZInvalid) hin' hl
    have hends : CmdEnds m (m.failWrite d n stZInvalid) := (CmdEnds.fin ..).trans (failWrite_after ..)
    refine ⟨m.failWrite d n stZInvalid, ?_, he, hwp hends, hud hends⟩
    simp only [execWriteZeroes, hbeg, hz, hfree, htest, if_pos hlt, if_true, Bool.not_true, Bool.false_eq_true, if_false]
    rfl
  · refine ⟨m.fin d stZInvalid, ?_, fin_ended hin' hl (CmdEnds.refl _), hwp (CmdEnds.fin ..), hud (CmdEnds.fin ..)⟩
    simp only [execWriteZeroes, hbeg, hz, hfree, htest, if_neg hlt, if_true, Bool.not_true, Bool.false_eq_true, if_false]
    rfl

end

end State

/-- Settles O18. -/
theorem conventionalCommandsComplete : Obligations.ConventionalCommandsComplete := by
  refine ⟨fun q cid nsid lba len lr x c n s h hz ho ht => ?_, fun q cid nsid lba len x c n s h hz hfit ht => ?_,
    fun q cid nsid x c n s h hz => State.flush_ended h hz, fun q cid nsid lba len lr x c n s h hz hstr ha hfit ho ht => ⟨?_, fun hne => ?_⟩⟩
  · obtain ⟨rfl, rfl, -⟩ := State.fetched_key h
    obtain ⟨m, hm, hrun⟩ := State.writeZeroes_conv h hz ho ht lr
    have hment (l : Nat) := (State.unmap_ended ((List.range len).foldl (fun s i => s.mapSet nsid (lba + i) ⟨0, 0, 0⟩ m.ftl.jnext) (m.jn 0x03 [nsid, lba, len]))
      c.slice (Started s c .writeZeroes nsid lba len lr false 0) nsid l).1.trans (State.ment_unmapped _ nsid lba m.ftl.jnext len l)
    refine ⟨_, hrun, fun i hi => ?_, State.cmdOf_fin .., fun l hl => ?_⟩
    · rw [hment, if_pos (by omega)]
    · rw [hment, if_neg hl, State.ment, show (m.jn 0x03 [nsid, lba, len]).ftl.fmap = s.ftl.fmap from hm]; rfl
  · obtain ⟨rfl, rfl, -⟩ := State.fetched_key h
    obtain ⟨m, hrun⟩ := State.deallocate_conv h hz hfit ht
    refine ⟨_, hrun, fun i hi => ?_, State.cmdOf_fin ..⟩
    rw [(State.unmap_ended ..).1, State.ment_unmapped, if_pos (by omega)]
  · intro hw hph hcom hfl hbey hreb hcip
    obtain ⟨rfl, rfl, hin⟩ := State.fetched_key h
    refine ⟨_, State.writeZeroes_zoned h hz hstr ha hfit ho ht lr hw hph hcom hfl hbey hreb hcip, State.cmdOf_putCmd_same ?_, rfl, rfl, rfl⟩
    exact State.cmdOf_putCmd (c := { Started s c .writeZeroes nsid lba len lr false 0 with zone := zoneOf n lba, st := .staging })
      (State.cmdOf_putCmd (c := Started s c .writeZeroes nsid lba len lr false 0) hin)
  · exact State.writeZeroes_off h hz hstr ha hfit ho ht hne lr

end Sys2Proof.Machine
end

section
/-! O15: writes and appends on their way to staging (04 R94–R96, R504; 06 R144). -/

namespace Sys2Proof.Machine

/-! ### Host accesses that are granted (02 R45) -/

namespace State
variable {s : State}

/-- An access that an entry of its slice grants goes through. -/
theorem xlate_ok {n func addr : Nat} {pasid : Option Nat} {wr : Bool} (hf : s.slState n ≠ slFenced)
    (he : ∃ e ∈ s.sl.xlt, e.slice = n ∧ e.covers func pasid addr false = true ∧ e.grants wr = true) :
    s.xlate n func pasid addr wr false = (s, .ok) := by
  obtain ⟨e, hmem, hs, hc, hg⟩ := he
  have hany : ((s.sl.xlt.filter (fun e => e.covers func pasid addr false)).filter (fun e => decide (e.slice = n))).any (fun e => e.grants wr) = true :=
    List.any_eq_true.2 ⟨e, List.mem_filter.2 ⟨List.mem_filter.2 ⟨hmem, hc⟩, by simp [hs]⟩, hg⟩
  rw [xlate, if_neg hf, if_pos hany]

theorem xlatePages_ok {n func : Nat} {pasid : Option Nat} {wr : Bool} (hf : s.slState n ≠ slFenced) (ps : List Nat)
    (he : ∀ p ∈ ps, ∃ e ∈ s.sl.xlt, e.slice = n ∧ e.covers func pasid (p * 4096) false = true ∧ e.grants wr = true) :
    s.xlatePages n func pasid wr ps = (s, .ok) := by
  induction ps with
  | nil => rfl
  | cons p ps ih =>
    rw [xlatePages, xlate_ok hf (he p List.mem_cons_self)]
    exact ih fun q hq => he q (List.mem_cons_of_mem _ hq)

/-- A granted DMA goes through and changes nothing. -/
theorem dma_ok {x : Queue} {addr len : Nat} {wr : Bool} (h : DmaOk s x addr len wr) : s.dma x addr len wr = (s, .ok) := by
  rcases h with h | ⟨h₁, h₂⟩ | ⟨hf, he⟩
  · simp [dma, h]
  · simp [dma, h₁, h₂]
  · rw [dma]
    split
    · rfl
    · refine xlatePages_ok hf _ fun p hp => ?_
      obtain ⟨i, hi, rfl⟩ := List.mem_map.1 hp
      exact he i (List.mem_range.1 hi)

/-! ### Data asked of a fabric's host -/

/-- Sending for a QP again and again changes what was sent and what waits to be sent. -/
theorem sendQps_eq {α : Type} (n : Nat) (f : α → Out) (l : List α) (s : State) : ∃ outs txq,
    l.foldl (fun (s : State) e => s.sendQp n (f e)) s = { s with outs := outs, net := { s.net with txq := txq } } := by
  induction l generalizing s with
  | nil => exact ⟨_, _, rfl⟩
  | cons a l ih =>
    obtain ⟨outs, txq, h⟩ := ih (s.sendQp n (f a))
    rw [List.foldl_cons, h, sendQp_eq]
    exact ⟨_, _, rfl⟩

/-- Asking for a write's data changes its QP's list, what was sent and what waits to be sent. -/
theorem wantRead_eq (s : State) (n : Nat) (new : List (Nat × Nat)) : ∃ outs qps txq,
    s.wantRead n new = { s with outs := outs, net := { s.net with qps := qps, txq := txq } } ∧
    ∀ y, s.qp n = some y → ∃ z, Tab.find n qps = some z ∧ ∀ e ∈ new, e ∈ z.reads := by
  unfold wantRead
  split
  · next hq => exact ⟨_, _, _, rfl, fun y hy => by rw [qp, hq] at hy; exact absurd hy (by simp)⟩
  · next x hq =>
    obtain ⟨outs, txq, h⟩ := sendQps_eq n _ _ _
    rw [putReads, h]
    exact ⟨_, _, _, rfl, fun y _ => ⟨_, Tab.find_put_same .., fun e he => List.mem_append_right _ he⟩⟩

/-! ### A write's place -/

section
variable {c : Cmd} {n : Ns} (hstr : (s.zxOf c.zone).stream = none) (ha : isActive (s.zst c.zone) = true)
  (hfit : c.lba % zoneBlocks + c.len ≤ zoneBlocks) (ho : s.overQ (s.zSlice c.zone) = false)
include hstr ha hfit ho

theorem placeWrite_at (hw : c.lba % zoneBlocks = s.wp c.zone) : s.placeWrite c n = s.putCmd { c with st := .staging } := by
  have ht := wTest_place ha hfit ho
  rw [if_neg (hw ▸ Nat.lt_irrefl _), if_neg (hw ▸ Nat.lt_irrefl _)] at ht
  simp [placeWrite, hstr, ht]

theorem placeWrite_below (hw : c.lba % zoneBlocks < s.wp c.zone) : s.placeWrite c n = s.failWrite c n stZInvalid := by
  simp [placeWrite, hstr, wTest_place ha hfit ho, hw]

theorem placeWrite_ahead (hw : s.wp c.zone < c.lba % zoneBlocks) (hnear : c.lba % zoneBlocks ≤ s.wp c.zone + 16384)
    (hroom : s.rd F.ZON_ENT2_HOLD c.zone < s.rd F.ZON_CFG_HOLD_DEPTH) :
    s.placeWrite c n = ((s.putCmd { c with st := .held }).addw F.ZON_ENT2_HOLD 1 c.zone).zseq c.zone := by
  simp [placeWrite, hstr, wTest_place ha hfit ho, Nat.lt_asymm hw, hw, Nat.not_le.2 hroom, Nat.not_lt.2 hnear]

end

/-- An append to an active zone passes its tests. -/
theorem wTest_append {z len : Nat} (ha : isActive (s.zst z) = true) (hf : s.wp z + len ≤ zoneBlocks) (ho : s.overQ (s.zSlice z) = false) :
    s.wTest z 0 len true true = .ok := by
  obtain ⟨hr, he⟩ := not_refuses_of_active ha
  simp [wTest, hr, he, ho, Nat.not_lt.2 hf]

/-! ### The commands that start -/

section
variable {q cid nsid lba len : Nat} {x : Queue} {c : Cmd} {n : Ns} (h : Fetched s q cid nsid lba len x c n)
include h

theorem write_conv (hz : n.zoned = false) (lr fua : Bool) : execWrite q cid nsid lba len lr fua s =
    .next ((s.putCmd (Started s c .write nsid lba len lr fua 0)).putCmd { Started s c .write nsid lba len lr fua 0 with st := .staging }) := by
  simp only [execWrite, h.begin_eq (k := .write) (fun hk => absurd hk (by decide)), hz, Bool.false_eq_true, if_false]

theorem write_zoned (hz : n.zoned = true) (lr fua : Bool) : execWrite q cid nsid lba len lr fua s =
    .next ((s.putCmd (Started s c .write nsid lba len lr fua 0)).placeWrite { Started s c .write nsid lba len lr fua 0 with zone := zoneOf n lba } n) := by
  simp only [execWrite, h.begin_eq (k := .write) (fun hk => absurd hk (by decide)), hz, if_true]

theorem append_staged (hz : n.zoned = true) (hal : lba % zoneBlocks = 0) (hlen : len ≤ 512) (hstr : (s.zxOf (zoneOf n lba)).stream = none)
    (ha : isActive (s.zst (zoneOf n lba)) = true) (hfit : s.wp (zoneOf n lba) + len ≤ zoneBlocks) (ho : s.overQ (s.zSlice (zoneOf n lba)) = false)
    (lr : Bool) : execZoneAppend q cid nsid lba len lr s = .next ((s.putCmd (Started s c .append nsid lba len lr false 0)).putCmd
      { Started s c .append nsid lba len lr false 0 with zone := zoneOf n lba, st := .staging }) := by
  let m := s.putCmd (Started s c .append nsid lba len lr false 0)
  have hfree : m.freeZone (zoneOf n lba) = true := by
    show ((s.zxOf (zoneOf n lba)).stream).isNone = true
    rw [hstr]; rfl
  have htest : m.wTest (zoneOf n lba) 0 len true true = .ok := wTest_append (s := m) ha hfit ho
  have hbeg : s.beginZone q cid .append nsid lba len lr 0 = .go m { Started s c .append nsid lba len lr false 0 with zone := zoneOf n lba } x n :=
    h.beginZone_eq (fun hk => absurd hk (by decide)) hz lr 0
  have harg : (lba % zoneBlocks != 0 || decide (len > 512)) = false := by simp [hal, hlen]
  simp only [execZoneAppend, hbeg, harg, hfree, htest, Bool.not_true, Bool.false_eq_true, if_false]
  rfl

end

/-! ### Admission -/

/-- A write's command as it is admitted with what its reservation takes. -/
def admitted (s : State) (c : Cmd) (x : Queue) (n : Ns) (data : List Nat) : Cmd :=
  { c with
    st := .admitted, resDir := (s.splitRes c n).1, resWin := (s.splitRes c n).2, azLim := s.rd F.SLI_AZ_LIMIT c.slice + 1
    data := if x.fabric && !c.inl then [] else hostData n c.len data }

/-- What a write takes as it is admitted: bytes from the buckets, of the spill limit and of the folds' credit (03 R79; 06 R150, R153). -/
def deducted (s : State) (c : Cmd) (n : Ns) : State :=
  ((s.deduct c.slice (s.dgOf c n) (c.len * 4096)).spillNote c n).foldTake
    (if n.zoned && s.rd F.ZON_ENT0_ROUTE c.zone = 2 then 0 else c.len * 4096)

/-- A write whose reservation, quota, key and host access are there is admitted. -/
theorem admitCmd_eq {c : Cmd} {x : Queue} {n : Ns} {addr : Nat} {data : List Nat} (hns : Tab.find c.nsid s.zn.ns = some n)
    (hgo : (!s.admitOpen c.slice (s.dgOf c n) || s.tailFull || s.spillFull c n || s.beyond c n || s.ovfFull || (n.zoned && s.rebuilding c.zone) ||
      !(s.foldOpen || (n.zoned && s.rd F.ZON_ENT0_ROUTE c.zone = 2)) || decide ((s.splitRes c n).2 > s.winFree) || !(x.fabric || s.canSend x.func)) = false)
    (ho : s.overQ c.slice = false) (hk : n.cipher ≠ 1) (hd : DmaOk s x addr (c.len * 4096) false) : s.admitCmd c x n addr data =
      if x.fabric && !c.inl then ((s.deducted c n).putCmd (s.admitted c x n data)).wantRead x.qp [(c.q, c.cid)]
      else (s.deducted c n).putCmd (s.admitted c x n data) := by
  have hkey : s.blockKey c.nsid = (s, .ready) := by simp only [blockKey, hns, if_neg hk]
  simp only [admitCmd, hgo, ho, hkey, dma_ok hd, Bool.false_eq_true, if_false, bne_self_eq_false]
  rfl

/-- What an admission takes, besides what it takes from the slice's buckets and the device's. -/
theorem deducted_eq (c : Cmd) (n : Ns) : ∃ ftl stg, s.deducted c n = { s with
    ftl := ftl, stg := stg
    sl := { s.sl with
      devBucket := s.sl.devBucket - ((c.len * 4096 : Nat) : Int)
      ext := Tab.put c.slice { s.sx c.slice with inBytes := (s.sx c.slice).inBytes + c.len * 4096, bIn := (s.sx c.slice).bIn - ((c.len * 4096 : Nat) : Int), hadWork := true } s.sl.ext } } := by
  unfold deducted foldTake spillNote deduct
  dsimp only
  split <;> split <;> split <;> exact ⟨_, _, rfl⟩

/-- An admitted write's command is in flight as it was admitted, its bytes deducted. -/
theorem admitted_put {c : Cmd} {x : Queue} {n : Ns} {data : List Nat} (hin : s.cmdOf c.q c.cid ≠ none) {t : State}
    (ht : t = (s.deducted c n).putCmd (s.admitted c x n data)) : t.cmdOf c.q c.cid = some (s.admitted c x n data) ∧
      t.sl.devBucket = s.sl.devBucket - ((c.len * 4096 : Nat) : Int) ∧ (t.sx c.slice).inBytes = (s.sx c.slice).inBytes + c.len * 4096 ∧
      t.outs = s.outs ∧ t.net = s.net ∧ t.regs = s.regs ∧ t.zn.ud = s.zn.ud := by
  obtain ⟨ftl, stg, he⟩ := s.deducted_eq c n
  subst ht
  have hin' : (s.deducted c n).cmdOf (s.admitted c x n data).q (s.admitted c x n data).cid ≠ none := by rw [he]; exact hin
  refine ⟨cmdOf_putCmd_same hin', ?_⟩
  rw [he]
  refine ⟨rfl, ?_, rfl, rfl, rfl, rfl⟩
  simp only [putCmd, sx, Tab.find_put_same]
  rfl

end State

/-- Settles O15. -/
theorem writesReachStaging : Obligations.WritesReachStaging := by
  refine ⟨fun q cid nsid lba len lr fua x c n s h hz hstr ha hfit ho => ?_, fun q cid nsid lba len lr fua x c n s h hz => ?_,
    fun q cid nsid lba len lr x c n s h hz hal hlen hstr ha hfit ho => ?_, fun q cid addr data x c n s h hst hk ho hadm ht hsp hbey hov hreb hf hw hsend hcip hd => ?_,
    fun q cid data x c n s h hst hx => ?_⟩
  · obtain ⟨rfl, rfl, hin⟩ := State.fetched_key h
    let d := { Started s c .write nsid lba len lr fua 0 with zone := zoneOf n lba }
    let m := s.putCmd (Started s c .write nsid lba len lr fua 0)
    have hin' : m.cmdOf d.q d.cid ≠ none := State.cmdOf_putCmd (c := Started s c .write nsid lba len lr fua 0) hin
    refine ⟨fun hw => ?_, fun hw hnear hroom => ?_, fun hw => ?_⟩
    · refine ⟨m.putCmd { d with st := .staging }, (State.write_zoned h hz lr fua).trans ?_, State.cmdOf_putCmd_same hin', rfl, rfl⟩
      exact congrArg Host.Outcome.next (State.placeWrite_at (s := m) (c := d) hstr ha hfit ho hw)
    · refine ⟨((m.putCmd { d with st := .held }).addw F.ZON_ENT2_HOLD 1 d.zone).zseq d.zone, (State.write_zoned h hz lr fua).trans ?_,
        State.cmdOf_putCmd_same (c := { d with st := .held }) hin', ?_, rfl⟩
      · exact congrArg Host.Outcome.next (State.placeWrite_ahead (s := m) (c := d) hstr ha hfit ho hw hnear hroom)
      · exact (State.rd_addw_id _ _ _ _ _ _ _ _ _ (by decide)).trans (State.rd_wr_same ..)
    · obtain ⟨he, hud⟩ := State.failWrite_ended (c := d) (n := n) (st := stZInvalid) hin' h.live
      have hends : CmdEnds m (m.failWrite d n stZInvalid) := (CmdEnds.fin ..).trans (State.failWrite_after ..)
      refine ⟨m.failWrite d n stZInvalid, (State.write_zoned h hz lr fua).trans ?_, he, hends.regs _ _ _ _ (by decide), hud⟩
      exact congrArg Host.Outcome.next (State.placeWrite_below (s := m) (c := d) hstr ha hfit ho hw)
  · obtain ⟨rfl, rfl, hin⟩ := State.fetched_key h
    have hin' := State.cmdOf_putCmd (c := Started s c .write nsid lba len lr fua 0) hin
    exact ⟨_, State.write_conv h hz lr fua, State.cmdOf_putCmd_same (c := { Started s c .write nsid lba len lr fua 0 with st := .staging }) hin', rfl, rfl⟩
  · obtain ⟨rfl, rfl, hin⟩ := State.fetched_key h
    have hin' := State.cmdOf_putCmd (c := Started s c .append nsid lba len lr false 0) hin
    exact ⟨_, State.append_staged h hz hal hlen hstr ha hfit ho lr,
      State.cmdOf_putCmd_same (c := { Started s c .append nsid lba len lr false 0 with zone := zoneOf n lba, st := .staging }) hin', rfl, rfl⟩
  · obtain ⟨rfl, rfl⟩ := State.cmdOf_key h.cmd
    have hgo : (!s.admitOpen c.slice (s.dgOf c n) || s.tailFull || s.spillFull c n || s.beyond c n || s.ovfFull || (n.zoned && s.rebuilding c.zone) ||
        !(s.foldOpen || (n.zoned && s.rd F.ZON_ENT0_ROUTE c.zone = 2)) || decide ((s.splitRes c n).2 > s.winFree) || !(x.fabric || s.canSend x.func)) = false := by
      have hreb' : (n.zoned && s.rebuilding c.zone) = false := by
        cases hz : n.zoned
        · rfl
        · exact hreb hz
      have hf' : (s.foldOpen || (n.zoned && s.rd F.ZON_ENT0_ROUTE c.zone = 2)) = true := by simpa using hf
      have hsend' : (x.fabric || s.canSend x.func) = true := by simpa using hsend
      simp only [hadm, ht, hsp, hbey, hov, hreb', hf', hsend', Nat.not_lt.2 hw, decide_false, Bool.not_true, Bool.or_self]
    have hrun : execWriteAdmit c.q c.cid addr data s = .next (s.admitCmd c x n addr data) := by
      unfold execWriteAdmit
      rw [State.withCmd_of h (by simp [hst]), if_neg hk]
    rw [State.admitCmd_eq h.ns hgo ho hcip hd] at hrun
    obtain ⟨hcmd, hdev, hext, houts, hnet, hregs, hud⟩ := State.admitted_put (x := x) (n := n) (data := data) (by rw [h.cmd]; exact Option.some_ne_none c) rfl
    have hd : (if x.fabric = true ∧ c.inl = false then [] else hostData n c.len data) = if x.fabric && !c.inl then [] else hostData n c.len data := by
      simp
    rw [hd]
    cases hlater : x.fabric && !c.inl with
    | false =>
      rw [hlater] at hrun
      refine ⟨_, hrun, hcmd.trans (by rw [State.admitted, hlater]), hdev, hext, fun _ => ⟨houts, hnet⟩, fun y hxf hci => ?_, hregs, hud⟩
      · rw [hxf, hci] at hlater; exact absurd hlater (by decide)
    | true =>
      rw [hlater] at hrun
      obtain ⟨outs, qps, txq, he, hqp⟩ := ((s.deducted c n).putCmd (s.admitted c x n data)).wantRead_eq x.qp [(c.q, c.cid)]
      simp only [Bool.and_eq_true, Bool.not_eq_true'] at hlater
      refine ⟨_, hrun, ?_⟩
      rw [if_pos rfl, he]
      refine ⟨?_, hdev, hext, fun hno => ?_, fun y _ _ hy => ?_, hregs, hud⟩
      · exact hcmd.trans (by simp [State.admitted, hlater])
      · simp [hlater] at hno
      · obtain ⟨z, hz, hm⟩ := hqp y (by rw [State.qp, hnet]; exact hy)
        exact ⟨z, hz, hm _ List.mem_cons_self⟩
  · obtain ⟨rfl, rfl⟩ := State.cmdOf_key h.cmd
    let d := { c with data := hostData n c.len (c.data ++ data) }
    obtain ⟨outs, qps, txq, he, -⟩ := (s.putCmd d).wantRead_eq x.qp []
    refine ⟨(s.putCmd d).wantRead x.qp [], ?_, ?_⟩
    · show execRdmaReadResponse c.q c.cid data s = _
      unfold execRdmaReadResponse
      rw [State.ghost_of_cmd h.cmd, State.withCmd_of h (by simp [hst]), if_pos hx]
    · rw [he]
      exact ⟨State.cmdOf_putCmd_same (c := d) (by show s.cmdOf c.q c.cid ≠ none; rw [h.cmd]; exact Option.some_ne_none c), rfl⟩

end Sys2Proof.Machine
end

section
/-! O4: Bind and Unbind (02 R43, R44). -/

namespace Sys2Proof.Machine

namespace State
variable {s : State}

/-- A served manager's Slice Management command passes the checks of its index and state. -/
theorem sliceChk_pass {o : Org} {n : Nat} {allowed : List Nat} {zero : Bool} (hm : isMgr o = true) (hn : n < 1024) (hz : n ≠ 0 ∨ zero = true)
    (hs : s.slState n ∈ allowed) : s.sliceChk o n allowed zero = none := by
  have h0 : (decide (n = 0) && !zero) = false := by
    rcases hz with h | h <;> simp [h]
  simp [sliceChk, hm, Nat.not_le.2 hn, h0, hs]

/-- A sender's command that begins takes an entry of the sender's queue, and all else stays. -/
theorem admBegin_upd (s : State) (o : Org) : ∃ qs, s.admBegin o = { s with sl := { s.sl with qs := qs } } ∧
    ∀ sl : SliceSt, sl.qs = s.sl.qs → ({ s with sl := sl } : State).admBegin o = { s with sl := { sl with qs := qs } } := by
  have hq (sl : SliceSt) (h : sl.qs = s.sl.qs) : ({ s with sl := sl } : State).admQ o = s.admQ o := by unfold admQ; rw [h]
  have hm (sl : SliceSt) (h : sl.qs = s.sl.qs) (i : Nat) (f : Queue → Queue) :
      ({ s with sl := sl } : State).mapQ i f = { s with sl := { sl with qs := (s.mapQ i f).sl.qs } } := by
    unfold mapQ
    rw [h]
  cases ha : s.admQ o with
  | none => exact ⟨s.sl.qs, by simp only [admBegin, ha], fun sl h => by simp only [admBegin, hq sl h, ha]; rw [← h]⟩
  | some e => exact ⟨_, by simp only [admBegin, ha]; exact hm s.sl rfl .., fun sl h => by simp only [admBegin, hq sl h, ha]; exact hm sl h ..⟩

/-- A manager's command is executed once it has begun, and where it writes the slices' record alone and answers success it completes. -/
theorem managed {o : Org} (h : Manages s o) (cid : Nat) : ∃ (b : State) (qs : Tab Queue), b = { s with sl := { s.sl with qs := qs } } ∧
    (∀ f : State → State, s.admin o cid (fun s => if s.stopped then s else f s) = f b) ∧
    ∀ sl : SliceSt, sl.qs = s.sl.qs →
      Completes { s with sl := sl } (({ s with sl := { sl with qs := qs } } : State).adm o cid stOk) o cid 0 [] := by
  obtain ⟨hs, -, hstop⟩ := h
  obtain ⟨qs, hb, hu⟩ := s.admBegin_upd o
  refine ⟨_, qs, rfl, fun f => ?_, fun sl he => ?_⟩
  · rw [admin_served hs, hb]
    exact if_neg (by rw [show ({ s with sl := { s.sl with qs := qs } } : State).stopped = s.stopped from rfl, hstop]; exact Bool.false_ne_true)
  · rw [← hu sl he]
    exact adm_completes (s := { s with sl := sl }) hs.2.1 cid 0 []

/-- A function that is not there does not become ready. -/
theorem tryReady_absent {n : Nat} (h : s.fn n = none) : s.tryReady n = s := by
  simp only [tryReady, h]

end State

/-- Settles O4: the checks pass, and what is written is the bindings' and the translation's lists. -/
theorem bindUnbindComplete : Obligations.BindUnbindComplete := by
  refine ⟨fun o cid n idx func pasid host sub ents s hm hn ha hb he hl hx hf => ?_, fun o cid n idx func pasid host sub s hm hn ha hb => ?_,
    fun o cid n idx s hm hn ha hb => ?_, fun o cid n idx s hm hn ha hb => ?_⟩ <;>
    obtain ⟨b, qs, hbeg, hrun, hcpl⟩ := State.managed hm cid
  · have hchk : b.sliceChk o n [slActive] true = none := hbeg ▸ State.sliceChk_pass (s := s) hm.2.1 hn (.inr rfl) (List.mem_singleton.2 ha)
    have hold : b.sl.xlt.filter (fun e => !(decide (e.slice = n) && decide (e.bind = idx) && decide (e.kind = 0))) = b.sl.xlt :=
      hbeg ▸ List.filter_eq_self.2 fun e hmem => by
        have := hx e hmem
        simp only [not_and_or] at this
        simpa [or_assoc] using this
    have hok : b.fbindOk n idx func pasid = true := hbeg ▸ hb
    have hfn : b.fn func = none := hbeg ▸ hf
    have hlim : decide ((b.sl.xlt.filter (fun e => e.slice = n)).length + ents.length ≤ (b.sx n).xltLim) = true := hbeg ▸ decide_eq_true hl
    let sl := { s.sl with
      fbind := s.sl.fbind ++ [FBind.mk func pasid idx n]
      xlt := s.sl.xlt ++ ents.map (fun w : XltWant => XltEnt.mk n func pasid w.base w.size w.rd w.wr w.cxl idx 0) }
    refine ⟨_, congrArg Host.Outcome.next ((hrun _).trans ?_), hcpl sl rfl⟩
    simp only [hchk, hold, hok, he, hlim, hfn, Bool.and_false, Bool.not_false, Bool.and_self, if_true]
    rw [State.tryReady_absent, hbeg]
    exact hfn
  · have hchk : b.sliceChk o n [slActive] true = none := hbeg ▸ State.sliceChk_pass (s := s) hm.2.1 hn (.inr rfl) (List.mem_singleton.2 ha)
    have hok : b.nbindOk n idx host sub = true := hbeg ▸ hb
    refine ⟨_, congrArg Host.Outcome.next ((hrun _).trans ?_), hcpl { s.sl with nbind := s.sl.nbind ++ [⟨host, sub, idx, n⟩] } rfl⟩
    simp only [hchk, hok, List.isEmpty_nil, Bool.and_self, if_true, if_neg (Nat.one_ne_zero)]
    rw [hbeg]
  · have hchk : b.sliceChk o n [slActive, slFenced] true = none := hbeg ▸ State.sliceChk_pass (s := s) hm.2.1 hn (.inr rfl) (by simpa using ha)
    have hany : b.sl.fbind.any (fun b => decide (b.slice = n) && decide (b.idx = idx)) = true := hbeg ▸ by simpa using hb
    refine ⟨_, congrArg Host.Outcome.next ((hrun _).trans ?_), hcpl { s.sl with fbind := s.sl.fbind.filter (fun b => !(b.slice = n && b.idx = idx)) } rfl⟩
    simp only [hchk, hany, if_true]
    rw [hbeg]
  · have hchk : b.sliceChk o n [slActive, slFenced] true = none := hbeg ▸ State.sliceChk_pass (s := s) hm.2.1 hn (.inr rfl) (by simpa using ha)
    have hany : b.sl.nbind.any (fun b => decide (b.slice = n) && decide (b.idx = idx)) = true := hbeg ▸ by simpa using hb
    refine ⟨_, congrArg Host.Outcome.next ((hrun _).trans ?_), hcpl { s.sl with nbind := s.sl.nbind.filter (fun b => !(b.slice = n && b.idx = idx)) } rfl⟩
    simp only [hchk, hany, if_true, if_neg (Nat.one_ne_zero)]
    rw [hbeg]

end Sys2Proof.Machine
end

section
/-! O3: resets of slices and queues, and fences (02 R55–R59). -/

namespace Sys2Proof

open Machine

/-- What was answered was replied. -/
theorem Answers.replied {s t : State} {o : Org} {cid dw0 : Nat} {st : Nat × Nat} {data : List Nat} (h : Answers s t o cid st dw0 data) :
    RepliedWith t o cid st dw0 data := by
  obtain ⟨c, h₁, h₂, h₃, h₄, h₅, h⟩ := h
  refine ⟨c, h₁, h₂, h₃, h₄, h₅, ?_⟩
  rcases h with ⟨l, hl, -⟩ | ⟨-, hw⟩
  · exact .inl (by rw [hl]; simp)
  · exact .inr hw

end Sys2Proof

namespace Sys2Proof.Machine

namespace State
variable {s : State}

theorem adm_replies (s : State) (o : Org) (cid : Nat) (st : Nat × Nat) (dw0 : Nat) (data : List Nat) :
    RepliedWith (s.adm o cid st dw0 data) o cid st dw0 data := (s.adm_answers o cid st dw0 data).replied

/-- A manager's command runs once it has begun. -/
theorem managed_run {o : Org} (h : Manages s o) (cid : Nat) (f : State → State) :
    s.admin o cid (fun s => if s.stopped then s else f s) = f (s.admBegin o) := by
  obtain ⟨hs, -, hstop⟩ := h
  obtain ⟨qs, hb⟩ := s.admBegin_eq o
  rw [admin_served hs, if_neg]
  rw [hb, show ({ s with sl := { s.sl with qs := qs } } : State).stopped = s.stopped from rfl, hstop]
  exact Bool.false_ne_true

/-- A success leaves every register. -/
theorem adm_ok_regs (s : State) (o : Org) (cid dw0 : Nat) (data : List Nat) : (s.adm o cid stOk dw0 data).regs = s.regs := by
  have hl : s.logErr o cid stOk.1 stOk.2 none = s := rfl
  obtain ⟨qs, hq⟩ := s.admLess_eq o
  rw [adm, (admPost_keeps _ _ _ _).1, hl, hq]

/-! ### Queues' contexts as a command begins and ends -/

/-- A context that is found is one of the table's, and what the table has under other numbers stays as one is changed in its place. -/
theorem find_mapQ_ne {k i : Nat} (h : k ≠ i) (f : Queue → Queue) : Tab.find k (s.mapQ i f).sl.qs = Tab.find k s.sl.qs := by
  unfold mapQ
  induction s.sl.qs with
  | nil => rfl
  | cons e t ih =>
    obtain ⟨j, q⟩ := e
    by_cases hj : j = i
    · subst hj
      simp only [List.map_cons, if_true, Tab.find, if_neg h.symm]
      exact ih
    · simp only [List.map_cons, if_neg hj, Tab.find]
      rw [ih]

/-- A sender's queue is one that is its admin queue. -/
theorem adminOf_admQ {o : Org} {i : Nat} {q : Queue} (h : s.admQ o = some (i, q)) : (i, q) ∈ s.sl.qs ∧ adminOf o q = true := by
  cases o with
  | fn n => exact ⟨List.mem_of_find?_eq_some h, List.find?_some (p := fun e : Nat × Queue => adminOf (.fn n) e.2) h⟩
  | fab a => exact ⟨List.mem_of_find?_eq_some h, List.find?_some (p := fun e : Nat × Queue => adminOf (.fab a) e.2) h⟩
  | mi => exact absurd h (by simp [admQ])
  | io q => exact absurd h (by simp [admQ])

/-- Beginning leaves every queue that is not the sender's. -/
theorem find_admBegin {o : Org} {k : Nat} (h : (s.admQ o).map (·.1) ≠ some k) : Tab.find k (s.admBegin o).sl.qs = Tab.find k s.sl.qs := by
  cases ha : s.admQ o with
  | none => simp only [admBegin, ha]
  | some e =>
    rw [ha] at h
    simp only [admBegin, ha]
    exact find_mapQ_ne (fun hk => h (by simp [hk])) _

/-- What the queues are after a sender's command began: the same numbers, and of each what tells whose it is. -/
theorem mem_admBegin {o : Org} {e : Nat × Queue} (h : e ∈ (s.admBegin o).sl.qs) : ∃ q, (e.1, q) ∈ s.sl.qs ∧ q.slice = e.2.slice ∧
    adminOf o q = adminOf o e.2 := by
  cases ha : s.admQ o with
  | none => rw [admBegin, ha] at h; exact ⟨e.2, h, rfl, rfl⟩
  | some a =>
    simp only [admBegin, ha, mapQ, List.mem_map] at h
    obtain ⟨f, hf, rfl⟩ := h
    refine ⟨f.2, ?_⟩
    split
    · refine ⟨hf, ?_⟩
      split <;> exact ⟨rfl, by cases o <;> rfl⟩
    · exact ⟨hf, rfl, rfl⟩

/-- Completing a command leaves every queue that is not the sender's. -/
theorem find_adm {o : Org} {k : Nat} (h : (s.admQ o).map (·.1) ≠ some k) (cid dw0 : Nat) (st : Nat × Nat) (data : List Nat) :
    Tab.find k (s.adm o cid st dw0 data).sl.qs = Tab.find k s.sl.qs := by
  obtain ⟨errs, n, r, hl, -⟩ := s.logErr_eq o cid st.1 st.2 none
  have hq : (s.logErr o cid st.1 st.2 none).admQ o = s.admQ o := by rw [hl]; rfl
  have hpost (t : State) (c : Cpl) (p : Stamp) : (t.admPost o c p).sl.qs = t.sl.qs := by
    unfold admPost
    split
    · split
      · rw [postAdm_eq]
      · unfold hold; split <;> rfl
    · split
      · rw [sendQp_eq]
      · rfl
    · rfl
  rw [adm, hpost]
  cases ha : s.admQ o with
  | none => simp only [admLess, hq, ha]; rw [hl]
  | some e =>
    rw [ha] at h
    simp only [admLess, hq, ha]
    rw [find_mapQ_ne (fun hk => h (by simp [hk])), hl]

/-! ### What a reset or a fence does to a slice that has nothing in flight -/

theorem limits_inactive {n : Nat} (h : s.slState n ≠ slActive) : s.limits n = (s.wr F.SLI_STS_OVERQ 0 n).wr F.SLI_STS_AZOVER 0 n := if_neg h

/-- A slice's limits change its two conditions and raise an event at most. -/
def limitFields : List Fld := F.SLI_STS_OVERQ :: F.SLI_STS_AZOVER :: eventFields

theorem limits_keeps (s : State) (n : Nat) : Keeps s (s.limits n) limitFields := by
  have hev {a b : State} (h : Keeps a b eventFields) : Keeps a b limitFields := h.mono fun f hf => List.mem_cons_of_mem _ (List.mem_cons_of_mem _ hf)
  have hw (s : State) (a b : Nat) : Keeps s ((s.wr F.SLI_STS_OVERQ a n).wr F.SLI_STS_AZOVER b n) limitFields :=
    (Keeps.wr (f := F.SLI_STS_OVERQ) (by simp [limitFields]) _ _ _ _ _).trans (Keeps.wr (f := F.SLI_STS_AZOVER) (by simp [limitFields]) _ _ _ _ _)
  unfold limits
  split
  · dsimp only
    split
    · exact (hw _ _ _).trans (hev (raise_keeps _ _ _ _))
    · exact hw _ _ _
  · exact hw _ _ _

theorem limits_zn (s : State) (n : Nat) : (s.limits n).zn = s.zn := by
  unfold limits
  split
  · dsimp only
    split <;> simp
  · rfl

/-- With no command in flight and no operation of a die queued, dropping commands takes Asynchronous Event Requests away alone. -/
theorem dropCmds_idle (hc : s.zn.cmds = []) (hd : s.die.dies = []) (ok : Nat → Bool) : ∃ aers, s.dropCmds ok = { s with ras := { s.ras with aers := aers } } := by
  refine ⟨s.ras.aers.filter (fun e => !((s.admQ e.2.1).map (fun x => ok x.1)).getD false), ?_⟩
  unfold dropCmds
  have hself : s.rdn.recon.filter (fun r => !(ok r.q && [].any (fun c : Cmd => decide (c.q = r.q) && decide (c.cid = r.cid)))) = s.rdn.recon :=
    List.filter_eq_self.2 fun r _ => by simp
  have hops (k : DOp → Bool) : s.filterOps k = s := by
    have : s.die = { s.die with dies := [] } := by rw [← hd]
    rw [filterOps, hd, List.map_nil, ← this]
  simp only [hc, List.filter_nil, List.foldl_nil, List.map_nil, hops, hself, List.append_nil]
  rw [← hc]

/-- No operation in flight carries a generation where no die runs one. -/
theorem stamped_idle (hd : s.die.dies = []) (hw : s.die.cws = []) (b : Bool) (n g : Nat) : s.stamped b n g = false := by
  simp [stamped, hd, hw]

theorem dropUnbound_none {n : Nat} (h : ∀ e ∈ s.sl.qs, e.2.slice ≠ n) : s.dropUnbound n = s := by
  have hl : s.sl.qs.filter (fun e => decide (e.2.slice = n) && s.unbound e.2) = [] := List.filter_eq_nil_iff.2 fun e he => by simp [h e he]
  have hall : s.sl.cqs.filter (fun c => true || s.sl.qs.any (fun e => !e.2.fabric && decide (e.2.func = c.func) && decide (e.2.cqid = c.cqid))) = s.sl.cqs :=
    List.filter_eq_self.2 fun _ _ => rfl
  unfold dropUnbound
  simp only [hl, List.filter_nil, List.map_nil, List.foldl_nil, dropCqs, List.any_nil, Bool.not_false]
  exact congrArg (fun c => ({ s with sl := { s.sl with cqs := c } } : State)) hall

/-- The end of a reset of a slice without queues and streams, no fence pending. -/
theorem endReset_idle {n : Nat} (hq : ∀ e ∈ s.sl.qs, e.2.slice ≠ n) (hs : s.cap.streams = []) (hp : (s.sx n).pendFence = none) :
    s.endReset n = ((((s.wr F.SLI_GEN_GEN (s.rd F.SLI_GEN_GEN n + 1) n).putSx n { s.sx n with pendFence := none }).wr F.SLI_STS_STATE slActive n).wr
      F.SLI_STS_FENCE_RSN 0 n).limits n := by
  have hqs : s.queuesOf n = [] := List.map_eq_nil_iff.2 (List.filter_eq_nil_iff.2 fun e he => by simp [hq e he])
  have hw : (s.wr F.SLI_GEN_GEN (s.rd F.SLI_GEN_GEN n + 1) n).capDrop (fun x => decide (x.slice = n)) = s.wr F.SLI_GEN_GEN (s.rd F.SLI_GEN_GEN n + 1) n := by
    have : (s.wr F.SLI_GEN_GEN (s.rd F.SLI_GEN_GEN n + 1) n).cap.streams = [] := hs
    rw [capDrop, this]; rfl
  have hd : (s.wr F.SLI_GEN_GEN (s.rd F.SLI_GEN_GEN n + 1) n).dropUnbound n = s.wr F.SLI_GEN_GEN (s.rd F.SLI_GEN_GEN n + 1) n :=
    dropUnbound_none (s := s.wr F.SLI_GEN_GEN (s.rd F.SLI_GEN_GEN n + 1) n) hq
  have hstr : (s.wr F.SLI_GEN_GEN (s.rd F.SLI_GEN_GEN n + 1) n).cap.streams = [] := hs
  have hqs' : (s.wr F.SLI_GEN_GEN (s.rd F.SLI_GEN_GEN n + 1) n).queuesOf n = [] := hqs
  have hp' : ((s.wr F.SLI_GEN_GEN (s.rd F.SLI_GEN_GEN n + 1) n).sx n).pendFence = none := hp
  unfold endReset
  simp only [hw, hstr, List.filter_nil, List.map_nil, List.foldl_nil, hqs', hd, hp']
  rfl

/-- A queue's reset with nothing in flight and no reset waiting empties it at once. -/
theorem queueReset_idle {i : Nat} {q : Queue} (hq : Tab.find i s.sl.qs = some q) (hc : s.zn.cmds = []) (hd : s.die.dies = []) (hw : s.die.cws = [])
    (hwait : s.sl.waits = []) : ∃ aers, s.queueReset i = (({ s with ras := { s.ras with aers := aers } } : State).emptyQueue i, true) := by
  obtain ⟨aers, ha⟩ := dropCmds_idle hc hd (fun j => decide (j = i))
  have hr : ({ s with ras := { s.ras with aers := aers } } : State).resetting i = false := by simp [resetting, hwait]
  have hst : ({ s with ras := { s.ras with aers := aers } } : State).stamped false i (cut 16 (q.gen + 1)) = false :=
    stamped_idle (s := { s with ras := { s.ras with aers := aers } }) hd hw ..
  refine ⟨aers, ?_⟩
  simp only [queueReset, hq, ha, hr, hst, Bool.false_eq_true, if_false]

/-- The emptied queue's context, and every other as it was. -/
theorem find_emptyQueue {i : Nat} {q : Queue} (hq : Tab.find i s.sl.qs = some q) :
    Tab.find i (s.emptyQueue i).sl.qs = some { q with gen := cut 16 (q.gen + 1), head := 0, tail := 0, outst := 0, pend := [], adm := [] } ∧
    (∀ j, j ≠ i → Tab.find j (s.emptyQueue i).sl.qs = Tab.find j s.sl.qs) ∧
    (s.emptyQueue i).regs = s.regs ∧ (s.emptyQueue i).zn = s.zn ∧
    ∀ e ∈ (s.emptyQueue i).sl.qs, e ∈ s.sl.qs ∨ (e.1 = i ∧ ∀ o, adminOf o e.2 = adminOf o q) := by
  simp only [emptyQueue, hq, putQ, true_and]
  refine ⟨Tab.find_put_same .., fun j hj => Tab.find_put_ne _ _ hj, fun e he => ?_⟩
  simp only [Tab.put, List.mem_append, List.mem_filter, List.mem_singleton] at he
  rcases he with (⟨he, -⟩ | rfl) | ⟨he, -⟩
  · exact .inl he
  · exact .inr ⟨rfl, fun o => by cases o <;> rfl⟩
  · exact .inl he

/-- Where a sender's one admin queue has another number, so it does in a state whose admin queues are among them. -/
theorem admQ_ne {t : State} {o : Org} {k : Nat} (h : ∀ e ∈ t.sl.qs, adminOf o e.2 = true → e.1 ≠ k) : (t.admQ o).map (·.1) ≠ some k := by
  cases ha : t.admQ o with
  | none => simp
  | some e =>
    obtain ⟨hm, had⟩ := adminOf_admQ ha
    simpa using h e hm had

/-! ### The commands -/

theorem sliceFence_eq {o : Org} {n : Nat} (hm : Manages s o) (h1 : 1 ≤ n) (hn : n < 1024) (ha : s.slState n = slActive) (cid : Nat) :
    execSliceFence o cid n s = .next (((s.admBegin o).fence n 1).adm o cid stOk) := by
  obtain ⟨qs, hb⟩ := s.admBegin_eq o
  have hchk : (s.admBegin o).sliceChk o n [slActive] false = none := by
    rw [hb]
    exact sliceChk_pass (s := s) hm.2.1 hn (.inl (by omega)) (List.mem_singleton.2 ha)
  refine congrArg Host.Outcome.next ((managed_run hm cid _).trans ?_)
  simp only [hchk]

/-- The requests of a slice's admin queues are answered, and nothing else of what is looked at here changes. -/
theorem endCmds_idle (hc : s.zn.cmds = []) (n : Nat) (st : Nat × Nat) : Keeps s (s.endCmds n st) [F.RAS_ERRLOG_COUNT] ∧ (s.endCmds n st).zn = s.zn ∧
    (s.endCmds n st).cap = s.cap := by
  unfold endCmds
  simp only [hc, List.filter_nil, List.foldl_nil]
  refine foldl_keeps (P := fun t => Keeps s t [F.RAS_ERRLOG_COUNT] ∧ t.zn = s.zn ∧ t.cap = s.cap) (fun t e ⟨h₁, h₂, h₃⟩ => ?_) _ _ ⟨Keeps.refl s _, rfl, rfl⟩
  have ht := (Told.adm (s := ({ t with ras := { t.ras with aers := t.ras.aers.filter (fun x => x != e) } } : State)) e.2.1 e.2.2 st 0 []).fields
  obtain ⟨hzn, -, -, -, -, -, hcap, -⟩ := ht
  exact ⟨h₁.trans ((Keeps.ras t _ _).trans (Keeps.adm (by decide) _ _ _ _ _ _)), hzn.trans h₂, hcap.trans h₃⟩

/-- A Fence of a slice with no command in flight and no stream leaves it FENCED for its reason. -/
theorem fence_idle {n rsn : Nat} (ha : s.slState n = slActive) (hc : s.zn.cmds = []) (hs : s.cap.streams = []) :
    (s.fence n rsn).slState n = slFenced ∧ (s.fence n rsn).rd F.SLI_STS_FENCE_RSN n = cut F.SLI_STS_FENCE_RSN.w rsn ∧
    (s.fence n rsn).rd F.SLI_STS_OVERQ n = 0 ∧ (s.fence n rsn).zn = s.zn := by
  let m := (s.wr F.SLI_STS_STATE slFenced n).wr F.SLI_STS_FENCE_RSN rsn n
  have hm : m.slState n = slFenced := (rd_wr_id _ _ _ _ _ _ _ _ _ _ (by decide)).trans (rd_wr_same ..)
  have hl : m.limits n = (m.wr F.SLI_STS_OVERQ 0 n).wr F.SLI_STS_AZOVER 0 n := limits_inactive (by rw [hm]; decide)
  have hlz : (m.limits n).zn = s.zn := limits_zn ..
  have hlc : (m.limits n).cap = s.cap := by rw [hl]; rfl
  obtain ⟨hk, hz, hcap⟩ := endCmds_idle (s := m.limits n) (by rw [hlz]; exact hc) n stFenced
  have hcf : ((m.limits n).endCmds n stFenced).capFence n = (m.limits n).endCmds n stFenced := by
    rw [capFence, hcap, hlc, hs]; rfl
  have he : s.fence n rsn = ((m.limits n).endCmds n stFenced).raise evSliceFenced 0 (n * 256 + rsn) := by
    rw [fence, if_pos ha, ← hcf]
  have hrd (f : Fld) (h₁ : ∀ g ∈ eventFields, f.id ≠ g.id) (h₂ : f.id ≠ F.RAS_ERRLOG_COUNT.id) : (s.fence n rsn).rd f n = (m.limits n).rd f n := by
    rw [he, raise_keeps _ _ _ _ _ _ _ _ h₁]
    exact hk f n 0 0 (by simpa using h₂)
  refine ⟨?_, ?_, ?_, ?_⟩
  · refine (hrd F.SLI_STS_STATE (by decide) (by decide)).trans ?_
    rw [hl]
    exact ((rd_wr_id _ _ _ _ _ _ _ _ _ _ (by decide)).trans (rd_wr_id _ _ _ _ _ _ _ _ _ _ (by decide))).trans hm
  · refine (hrd F.SLI_STS_FENCE_RSN (by decide) (by decide)).trans ?_
    rw [hl]
    exact ((rd_wr_id _ _ _ _ _ _ _ _ _ _ (by decide)).trans (rd_wr_id _ _ _ _ _ _ _ _ _ _ (by decide))).trans (rd_wr_same ..)
  · refine (hrd F.SLI_STS_OVERQ (by decide) (by decide)).trans ?_
    rw [hl]
    exact (rd_wr_id _ _ _ _ _ _ _ _ _ _ (by decide)).trans (rd_wr_same ..)
  · rw [he, raise_zn, hz, hlz]

/-- A reset of a slice with nothing in flight makes it ACTIVE under its next generation. -/
theorem endReset_active {n : Nat} (hq : ∀ e ∈ s.sl.qs, e.2.slice ≠ n) (hs : s.cap.streams = []) (hp : (s.sx n).pendFence = none) :
    (s.endReset n).slState n = slActive ∧ (s.endReset n).rd F.SLI_STS_FENCE_RSN n = 0 ∧
    (s.endReset n).rd F.SLI_GEN_GEN n = cut F.SLI_GEN_GEN.w (s.rd F.SLI_GEN_GEN n + 1) ∧ (s.endReset n).zn = s.zn := by
  let m := (((s.wr F.SLI_GEN_GEN (s.rd F.SLI_GEN_GEN n + 1) n).putSx n { s.sx n with pendFence := none }).wr F.SLI_STS_STATE slActive n).wr F.SLI_STS_FENCE_RSN 0 n
  have he : s.endReset n = m.limits n := endReset_idle hq hs hp
  rw [he]
  refine ⟨?_, ?_, ?_, limits_zn ..⟩
  · exact ((limits_keeps m n F.SLI_STS_STATE n 0 0 (by decide)).trans (rd_wr_id _ _ _ _ _ _ _ _ _ _ (by decide))).trans (rd_wr_same ..)
  · exact (limits_keeps m n F.SLI_STS_FENCE_RSN n 0 0 (by decide)).trans (rd_wr_same ..)
  · exact (((limits_keeps m n F.SLI_GEN_GEN n 0 0 (by decide)).trans (rd_wr_id _ _ _ _ _ _ _ _ _ _ (by decide))).trans
      (rd_wr_id _ _ _ _ _ _ _ _ _ _ (by decide))).trans (rd_wr_same ..)

/-- A reset that has begun of a slice with nothing in flight: nothing waits, and only the slice's state and conditions have changed. -/
theorem resetting_idle {n : Nat} (hq : ∀ e ∈ s.sl.qs, e.2.slice ≠ n) (hqp : s.qpsOf n = []) (hd : s.die.dies = []) (hw : s.die.cws = [])
    (hc : s.zn.cmds = []) : ∃ t : State, (((s.wr F.SLI_STS_STATE slResetting n).limits n).qpErrSlice n).dropCmds
        (fun i => ((((s.wr F.SLI_STS_STATE slResetting n).limits n).qpErrSlice n).queuesOf n).contains i) = t ∧ t.resetWaits n = false ∧
      t.sl = s.sl ∧ t.cap = s.cap ∧ t.zn = s.zn ∧ t.rd F.SLI_GEN_GEN n = s.rd F.SLI_GEN_GEN n := by
  have hw' : (s.wr F.SLI_STS_STATE slResetting n).slState n ≠ slActive := by
    rw [show (s.wr F.SLI_STS_STATE slResetting n).slState n = slResetting from rd_wr_same ..]; decide
  let c := ((s.wr F.SLI_STS_STATE slResetting n).wr F.SLI_STS_OVERQ 0 n).wr F.SLI_STS_AZOVER 0 n
  have hqpe : c.qpErrSlice n = c := by
    have : c.qpsOf n = [] := hqp
    rw [qpErrSlice, this]; rfl
  have hcq : c.queuesOf n = [] := List.map_eq_nil_iff.2 (List.filter_eq_nil_iff.2 fun e he => by simpa using hq e he)
  obtain ⟨aers, hdrop⟩ := dropCmds_idle (s := c) hc hd (fun i => (c.queuesOf n).contains i)
  let t : State := { c with ras := { c.ras with aers := aers } }
  have htq : t.queuesOf n = [] := hcq
  refine ⟨t, ?_, ?_, rfl, rfl, rfl, ?_⟩
  · rw [limits_inactive hw', hqpe]; exact hdrop
  · rw [resetWaits, stamped_idle (s := t) hd hw, htq]; rfl
  · show c.rd F.SLI_GEN_GEN n = _
    simp (disch := decide) only [c, rd_wr_id]

/-- A Slice Reset of a slice with nothing in flight ends at once. -/
theorem sliceReset_eq {o : Org} {n : Nat} (hm : Manages s o) (h1 : 1 ≤ n) (hn : n < 1024) (ha : s.slState n = slActive ∨ s.slState n = slFenced)
    (hq : s.queuesOf n = []) (hqp : s.qpsOf n = []) (hd : s.die.dies = []) (hw : s.die.cws = []) (hc : s.zn.cmds = []) (cid : Nat) :
    ∃ t : State, execSliceReset o cid n s = .next ((t.endReset n).adm o cid stOk) ∧ (∀ e ∈ t.sl.qs, e.2.slice ≠ n) ∧ t.cap = s.cap ∧ t.sx n = s.sx n ∧
      t.zn = s.zn ∧ t.rd F.SLI_GEN_GEN n = s.rd F.SLI_GEN_GEN n := by
  have hno : ∀ e ∈ (s.admBegin o).sl.qs, e.2.slice ≠ n := by
    intro e he hsl
    obtain ⟨q, hmem, hsq, -⟩ := mem_admBegin he
    exact absurd (List.filter_eq_nil_iff.1 (List.map_eq_nil_iff.1 hq) _ hmem) (by simp [hsq, hsl])
  obtain ⟨qs, hb⟩ := s.admBegin_eq o
  have hrun := managed_run hm cid
  generalize s.admBegin o = b at hno hb hrun
  have hchk : b.sliceChk o n [slActive, slFenced] false = none := by
    rw [hb]
    exact sliceChk_pass (s := s) hm.2.1 hn (.inl (by omega)) (by simpa using ha)
  obtain ⟨t, ht, hwt, hsl, hcap, hzn, hgen⟩ := resetting_idle (s := b) hno (by rw [hb]; exact hqp) (by rw [hb]; exact hd) (by rw [hb]; exact hw)
    (by rw [hb]; exact hc)
  refine ⟨t, congrArg Host.Outcome.next ((hrun _).trans ?_), hsl ▸ hno, by rw [hcap, hb], by rw [sx, hsl, hb]; rfl, by rw [hzn, hb], by rw [hgen, hb]; rfl⟩
  simp only [hchk, ht, hwt, Bool.false_eq_true, if_false]

end State

/-- Settles O3. -/
theorem resetFenceQueueResetComplete : Obligations.ResetFenceQueueResetComplete := by
  refine ⟨fun o cid n s hm h1 hn ha hq hqp hs hd hw hc hp => ?_, fun o cid n s hm h1 hn ha hc hs => ?_,
    fun o cid n i q s hm hn ha hq hqs hno hadm hwait hc hr hd hw => ?_⟩
  · obtain ⟨t, hrun, hno, hcap, hsx, hzn, hgen⟩ := State.sliceReset_eq hm h1 hn ha hq hqp hd hw hc cid
    obtain ⟨hst, hrsn, hg, hz⟩ := State.endReset_active hno (by rw [hcap]; exact hs) (by rw [hsx]; exact hp)
    refine ⟨_, hrun, ?_, ?_, ?_, ?_, 0, [], State.adm_replies ..⟩
    · exact (State.adm_rd _ _ _ _ _ _ F.SLI_STS_STATE n 0 0 (by decide)).trans hst
    · exact (State.adm_rd _ _ _ _ _ _ F.SLI_STS_FENCE_RSN n 0 0 (by decide)).trans hrsn
    · exact (State.adm_rd _ _ _ _ _ _ F.SLI_GEN_GEN n 0 0 (by decide)).trans (hg.trans (by rw [hgen]))
    · rw [State.adm_zn, hz, hzn]
  · obtain ⟨qs, hb⟩ := s.admBegin_eq o
    obtain ⟨hst, hrsn, hov, hz⟩ := State.fence_idle (s := s.admBegin o) (n := n) (rsn := 1) (by rw [hb]; exact ha) (by rw [hb]; exact hc) (by rw [hb]; exact hs)
    refine ⟨_, State.sliceFence_eq hm h1 hn ha cid, ?_, ?_, ?_, ?_, 0, [], State.adm_replies ..⟩
    · exact (State.adm_rd _ _ _ _ _ _ F.SLI_STS_STATE n 0 0 (by decide)).trans hst
    · exact (State.adm_rd _ _ _ _ _ _ F.SLI_STS_FENCE_RSN n 0 0 (by decide)).trans hrsn
    · exact (State.adm_rd _ _ _ _ _ _ F.SLI_STS_OVERQ n 0 0 (by decide)).trans hov
    · rw [State.adm_zn, hz, hb]
  · obtain ⟨qs, hb⟩ := s.admBegin_eq o
    have hrun := State.managed_run hm cid
    have hbq := (State.find_admBegin hadm).trans hq
    have hbj (j : Nat) := State.find_admBegin (s := s) (o := o) (k := j)
    have hbm (e : Nat × Queue) := State.mem_admBegin (s := s) (o := o) (e := e)
    generalize s.admBegin o = b at hb hrun hbq hbj hbm
    obtain ⟨aers, hres⟩ := State.queueReset_idle hbq (by rw [hb]; exact hc) (by rw [hb]; exact hd) (by rw [hb]; exact hw) (by rw [hb]; exact hwait)
    let m : State := { b with ras := { b.ras with aers := aers } }
    obtain ⟨hfi, hfj, hregs, hzn, hmem⟩ := State.find_emptyQueue (s := m) (i := i) (q := q) hbq
    have hown := hm.1.2.2.2.2.1
    have hkey (k : Nat) (hk : (s.admQ o).map (·.1) ≠ some k) : ((m.emptyQueue i).admQ o).map (·.1) ≠ some k := by
      refine State.admQ_ne fun e he had hek => ?_
      rcases hmem e he with he | ⟨hei, hq'⟩
      · obtain ⟨q', hm', -, ha'⟩ := hbm e he
        exact hk (hek ▸ hown _ hm' (ha'.trans had) :)
      · exact hadm (hown (i, q) (Tab.mem_of_find hq) ((hq' o).symm.trans had))
    have hchk : b.sliceChk o n [slActive] true = none := by
      rw [hb]
      exact State.sliceChk_pass (s := s) hm.2.1 hn (.inr rfl) (List.mem_singleton.2 ha)
    have hbad : (q.slice != n || (decide (q.qid = 0) && !q.fabric && decide (q.func = 0))) = false := by
      have : (decide (q.qid = 0) && !q.fabric && decide (q.func = 0)) = false := by
        rcases hno with h | h | h <;> simp [h]
      rw [this, hqs]; simp
    refine ⟨(m.emptyQueue i).adm o cid stOk, ?_, ?_, ?_, ⟨0, [], State.adm_replies ..⟩, ?_, fun j hj hja => ?_⟩
    · refine congrArg Host.Outcome.next ((hrun _).trans ?_)
      simp only [hchk, hbq, hbad, hres, bne_self_eq_false, Bool.false_eq_true, if_false, if_true]
      rfl
    · rw [State.adm_zn, hzn]; show b.zn = s.zn; rw [hb]
    · rw [State.adm_ok_regs, hregs]; show b.regs = s.regs; rw [hb]
    · rw [State.find_adm (hkey i hadm), hfi]
    · rw [State.find_adm (hkey j hja), hfj j hj]
      exact hbj j hja

end Sys2Proof.Machine
end

section
/-! SUPPORT. What was sent stays sent. -/

namespace Sys2Proof.Machine

/-- Nothing that was sent is taken back. -/
def Bound.sent : Bound where
  rel s t := s.outs ⊆ t.outs
  refl _ := List.Subset.refl _
  trans hab hbc := List.Subset.trans hab hbc

namespace Only.Sent

-- So the unifier sees a match on an option as the recursor that `opt` speaks of.
set_option smartUnfolding false

theorem upd {s : State} {regs tim evr ras sl zn stg rdn die ftl fns assocs cip cap net pup pwr img gen kz pcx drc outs free pending}
    (h : outs = s.outs) : Only .sent s ⟨regs, tim, evr, ras, sl, zn, stg, rdn, die, ftl, fns, assocs, cip, cap, net, pup, pwr, img, gen,
      kz, pcx, drc, outs, free, pending⟩ := ⟨by subst h; exact List.Subset.refl _⟩

variable (s : State)

theorem wr (f : Fld) (v i j p : Nat) : Only .sent s (s.wr f v i j p) := upd rfl

theorem inc (f : Fld) (i j n : Nat) : Only .sent s (s.inc f i j n) := upd rfl

theorem addw (f : Fld) (n i j : Nat) : Only .sent s (s.addw f n i j) := upd rfl

theorem dec (f : Fld) (i j n : Nat) : Only .sent s (s.dec f i j n) := upd rfl

theorem clr (f : Fld) (i j p : Nat) : Only .sent s (s.clr f i j p) := upd rfl

theorem send (x : Out) : Only .sent s (s.send x) := ⟨List.subset_append_left _ _⟩

theorem sendOn (p u pr : Nat) (qp : Option Nat) (o : Out) : Only .sent s (s.sendOn p u pr qp o) := by
  unfold State.sendOn
  exact .ite (upd rfl) (send ..)

theorem sendQp (n : Nat) (o : Out) : Only .sent s (s.sendQp n o) := by
  unfold State.sendQp
  exact .opt (fun _ => (sendOn ..)) (send ..)

theorem putSx (n : Nat) (x : SliceX) : Only .sent s (s.putSx n x) := by
  unfold State.putSx
  exact upd rfl

theorem logErr (o : Org) (cid sct sc : Nat) (die : Option Nat) : Only .sent s (s.logErr o cid sct sc die) := by
  unfold State.logErr
  exact .after (.ite (upd rfl) (.refl _)) (.ite ((addw ..).after (upd rfl)) (.refl _))

theorem hold (func : Nat) (c : Cpl) (t : Stamp) : Only .sent s (s.hold func c t) := by
  unfold State.hold
  exact .opt (fun _ => (upd rfl)) (.refl _)

theorem mapQ (i : Nat) (f : Queue → Queue) : Only .sent s (s.mapQ i f) := by
  unfold State.mapQ
  exact upd rfl

theorem pushCq (func cqid : Nat) : Only .sent s (s.pushCq func cqid) := by
  unfold State.pushCq
  exact upd rfl

theorem postAdm (n : Nat) (c : Cpl) : Only .sent s (s.postAdm n c) := by
  unfold State.postAdm
  exact .after (.opt (fun _ => (send ..)) (.refl _)) ((pushCq ..).after (send ..))

theorem admLess (o : Org) : Only .sent s (s.admLess o) := by
  unfold State.admLess
  exact .opt (fun _ => (mapQ ..)) (.refl _)

theorem admPost (o : Org) (c : Cpl) (t : Stamp) : Only .sent s (s.admPost o c t) := by
  unfold State.admPost
  split
  · exact .ite (postAdm ..) (hold ..)
  · exact .opt (fun _ => (sendQp ..)) (send ..)
  · exact (send ..)

theorem adm (o : Org) (cid : Nat) (st : Nat × Nat) (dw0 : Nat) (data : List Nat) : Only .sent s (s.adm o cid st dw0 data) := by
  unfold State.adm
  exact (admPost ..).after ((admLess ..).after (logErr ..))

theorem dropCmd (q cid : Nat) : Only .sent s (s.dropCmd q cid) := by
  unfold State.dropCmd
  exact upd rfl

theorem putQ (i : Nat) (q : Queue) : Only .sent s (s.putQ i q) := by
  unfold State.putQ
  exact upd rfl

theorem stale (slice : Nat) : Only .sent s (s.stale slice) := by
  unfold State.stale
  exact inc ..

theorem putVec (v : VecSt) : Only .sent s (s.putVec v) := by
  unfold State.putVec
  exact upd rfl

theorem signal (func vec urg : Nat) (t : Stamp) : Only .sent s (s.signal func vec urg t) := by
  unfold State.signal
  exact .opt (fun _ => (.ite ((send ..).after (putVec ..)) (putVec ..))) (send ..)

theorem fin (c : Cmd) (st : Nat × Nat) (dw0 : Nat) (data : List Nat) (die : Option Nat) : Only .sent s (s.fin c st dw0 data die) := by
  unfold State.fin
  exact .ite
    (.refl _)
    (.after
      (.ite
        (stale ..)
        (.after
          (.opt
            (fun _ =>
              (.after
                (.ite
                  (sendQp ..)
                  (.ite (hold ..) (.after (.opt (fun _ => (signal ..)) (.refl _)) ((pushCq ..).after (send ..)))))
                (putQ ..)))
            (.refl _))
          (.after (.ite (inc ..) (.refl _)) (logErr ..))))
      (dropCmd ..))

theorem charge (slice : Nat) (q : Option Nat) (c : Nat) : Only .sent s (s.charge slice q c) := by
  unfold State.charge
  exact .after (.opt (fun _ => (.opt (fun _ => (putQ ..)) (.refl _))) (.refl _)) ((putSx ..).after ((wr ..).after (addw ..)))

theorem chargeBg (k c : Nat) : Only .sent s (s.chargeBg k c) := by
  unfold State.chargeBg
  exact .after (upd rfl) (charge ..)

theorem zseq (h : Nat) : Only .sent s (s.zseq h) := by
  unfold State.zseq
  exact addw ..

theorem filterOps (keep : DOp → Bool) : Only .sent s (s.filterOps keep) := by
  unfold State.filterOps
  exact upd rfl

theorem norWrite (kind part parts ns : Nat) (recs : List Rec) : Only .sent s (s.norWrite kind part parts ns recs) := by
  unfold State.norWrite
  exact (wr ..).after ((wr ..).after ((wr ..).after (upd rfl)))

theorem norCopy (kind ns : Nat) (recs : List Rec) : Only .sent s (s.norCopy kind ns recs) := by
  unfold State.norCopy
  exact .foldl (fun _ _ => (norWrite ..))

theorem faultFlush : Only .sent s s.faultFlush := by
  unfold State.faultFlush
  exact (inc ..).after ((norCopy ..).after (.after (upd rfl) ((chargeBg ..).after (upd rfl))))

theorem recAppend (code arg trig : Nat) (addrs : List Nat) (flush : Bool) : Only .sent s (s.recAppend code arg trig addrs flush) := by
  unfold State.recAppend
  exact .ite (inc ..) (.ite ((inc ..).after (wr ..)) (upd rfl))

theorem record (code arg : Nat) : Only .sent s (s.record code arg) := by
  unfold State.record
  exact .ite
    (.refl _)
    (.opt (fun _ => (.ite (.refl _) (.ite ((faultFlush ..).after (recAppend ..)) (recAppend ..)))) (recAppend ..))

theorem putView (v : EvView) : Only .sent s (s.putView v) := by
  unfold State.putView
  exact upd rfl

theorem notify (c : Ctl) (ty info page : Nat) : Only .sent s (s.notify c ty info page) := by
  unfold State.notify
  exact .opt (fun _ => ((adm ..).after (upd rfl))) (.ite (.refl _) (upd rfl))

theorem reportTo (cls : Nat) (c : Ctl) : Only .sent s (s.reportTo cls c) := by
  unfold State.reportTo
  exact .ite (.refl _) ((notify ..).after (putView ..))

theorem loseFor (c : Ctl) : Only .sent s (s.loseFor c) := by
  unfold State.loseFor
  exact (putView ..)

theorem raise (code slice arg : Nat) : Only .sent s (s.raise code slice arg) := by
  unfold State.raise
  exact .after
    (.foldl (fun _ _ => (reportTo ..)))
    (.after
      (.ite (send ..) (.refl _))
      ((record ..).after (.ite (upd rfl) (.after (.foldl (fun _ _ => (loseFor ..))) (inc ..)))))

theorem faultLow : Only .sent s s.faultLow := by
  unfold State.faultLow
  exact (send ..).after (upd rfl)

theorem limits (n : Nat) : Only .sent s (s.limits n) := by
  unfold State.limits
  exact .ite (.after (.ite (raise ..) (.refl _)) ((wr ..).after (wr ..))) ((wr ..).after (wr ..))

theorem failHeld (c : Cmd) (st : Nat × Nat) : Only .sent s (s.failHeld c st) := by
  unfold State.failHeld
  exact (fin ..).after ((zseq ..).after ((dec ..).after (inc ..)))

theorem putStream (n : Nat) (x : Stream) : Only .sent s (s.putStream n x) := by
  unfold State.putStream
  exact upd rfl

theorem setStream (n st rsn : Nat) : Only .sent s (s.setStream n st rsn) := by
  unfold State.setStream
  exact .opt
    (fun _ =>
      (.ite (.refl _) (.after (.ite (raise ..) (.ite (.ite (.refl _) (raise ..)) (.ite (raise ..) (.refl _)))) (putStream ..))))
    (.refl _)

theorem capFence (slice : Nat) : Only .sent s (s.capFence slice) := by
  unfold State.capFence
  exact .foldl (fun _ _ => (setStream ..))

theorem endCmds (n : Nat) (st : Nat × Nat) : Only .sent s (s.endCmds n st) := by
  unfold State.endCmds
  exact .after (.foldl (fun _ _ => ((adm ..).after (upd rfl)))) (.foldl (fun _ _ => (.ite (failHeld ..) (fin ..))))

theorem fence (n rsn : Nat) : Only .sent s (s.fence n rsn) := by
  unfold State.fence
  exact .ite
    ((raise ..).after ((capFence ..).after ((endCmds ..).after ((limits ..).after ((wr ..).after (wr ..))))))
    (.ite (.ite (putSx ..) (.refl _)) (.refl _))

theorem dropMsg (n : Nat) : Only .sent s (s.dropMsg n) := by
  unfold State.dropMsg
  exact .opt (fun _ => (.ite (.refl _) (putStream ..))) (.refl _)

theorem dropCmds (ok : Nat → Bool) : Only .sent s (s.dropCmds ok) := by
  unfold State.dropCmds
  exact .after (upd rfl) (.after (upd rfl) ((filterOps ..).after (.foldl (fun _ _ => ((zseq ..).after (dec ..))))))

theorem emptyQueue (i : Nat) : Only .sent s (s.emptyQueue i) := by
  unfold State.emptyQueue
  exact .opt (fun _ => (.after (upd rfl) (putQ ..))) (.refl _)

theorem queueReset (i : Nat) : Only₁ .sent s (s.queueReset i) := by
  unfold State.queueReset
  exact .opt
    (fun _ => (.after (.ite (.pair (.refl _)) (.ite (.pair (upd rfl)) (.pair (emptyQueue ..)))) (dropCmds ..)))
    (.pair (.refl _))

theorem putQp (n : Nat) (x : Qp) : Only .sent s (s.putQp n x) := by
  unfold State.putQp
  exact upd rfl

theorem qpError (n : Nat) : Only .sent s (s.qpError n) := by
  unfold State.qpError
  exact .opt
    (fun _ =>
      (.ite
        (.refl _)
        (.after
          (.opt (fun _ => (dropMsg ..)) (.refl _))
          (.after (.opt (fun _ => (queueReset ..)) (.refl _)) (.after (upd rfl) (putQp ..))))))
    (.refl _)

theorem redeliver : Only .sent s s.redeliver := by
  unfold State.redeliver
  exact upd rfl

theorem putSweep (k : Nat) (w : Sweep) : Only .sent s (s.putSweep k w) := by
  unfold State.putSweep
  exact upd rfl

theorem sweepSts (k : Nat) : Only .sent s (s.sweepSts k) := by
  unfold State.sweepSts
  exact .opt (fun _ => ((wr ..).after ((wr ..).after ((wr ..).after (wr ..))))) (.refl _)

theorem sweepMap (ok : Nat → Bool) (f : SwEnt → SwEnt) : Only .sent s (s.sweepMap ok f) := by
  unfold State.sweepMap
  exact .foldl (fun _ _ => (.opt (fun _ => ((sweepSts ..).after (putSweep ..))) (.refl _)))

theorem sweepDrop : Only .sent s s.sweepDrop := by
  unfold State.sweepDrop
  exact (sweepMap ..)

theorem setMv (mv : Nat) : Only .sent s (s.setMv mv) := by
  unfold State.setMv
  exact .after (upd rfl) ((send ..).after (wr ..))

theorem raiseMv : Only .sent s s.raiseMv := by
  unfold State.raiseMv
  exact (setMv ..)

theorem dmaStop : Only .sent s s.dmaStop := by
  unfold State.dmaStop
  exact .foldl (fun _ _ => (.ite (wr ..) (.refl _)))


end Only.Sent

end Sys2Proof.Machine
end

section
/-! O38: the mailbox, the watchdog and failover (16 R348–R350, R357, R358). -/

namespace Sys2Proof.Machine

/-- The pending entry that is handed out is the earliest (16 R357). -/
theorem earliest_spec {l : List MbxEnt} (h : l ≠ []) : ∃ e ∈ l, earliest l = some e ∧ ∀ x ∈ l, e.ns < x.ns ∨ (e.ns = x.ns ∧ e.src ≤ x.src) := by
  induction l with
  | nil => exact absurd rfl h
  | cons a l ih =>
    cases l with
    | nil => exact ⟨a, List.mem_cons_self, rfl, fun x hx => by rw [List.mem_singleton.1 hx]; exact .inr ⟨rfl, le_rfl⟩⟩
    | cons b l =>
      obtain ⟨m, hm, he, hmin⟩ := ih (List.cons_ne_nil _ _)
      rw [earliest, he]
      by_cases hlt : (decide (a.ns < m.ns) || (decide (a.ns = m.ns) && decide (a.src ≤ m.src))) = true
      · refine ⟨a, List.mem_cons_self, if_pos hlt, fun x hx => ?_⟩
        simp only [Bool.or_eq_true, Bool.and_eq_true, decide_eq_true_eq] at hlt
        rcases List.mem_cons.1 hx with rfl | hx
        · exact .inr ⟨rfl, le_rfl⟩
        · have := hmin x hx
          omega
      · refine ⟨m, List.mem_cons_of_mem _ hm, if_neg hlt, fun x hx => ?_⟩
        simp only [Bool.or_eq_true, Bool.and_eq_true, decide_eq_true_eq] at hlt
        rcases List.mem_cons.1 hx with rfl | hx
        · omega
        · exact hmin x hx

namespace State
variable {s : State}

theorem failover_stops {rsn : Nat} (hst : s.stopped = false) (hsw : s.swapping = false) (hsp : s.rd F.PUP_STS_SPARE = 2) (pass : Bool) :
    s.failover rsn pass = s.pupStop := by
  simp [failover, hst, hsw, hsp]

/-- A self-check's failure takes over even while the firmware is exchanged. -/
theorem failover_check {rsn : Nat} (hst : s.stopped = false) (hr : 2 < rsn) (hsp : s.rd F.PUP_STS_SPARE = 0) (pass : Bool) :
    s.failover rsn pass = s.takeOverPup rsn pass := by
  simp [failover, hst, hsp, Nat.not_le.2 hr]

/-- What the Puppeteer's stop leaves (16 R350). -/
theorem pupStop_stopped (s : State) : s.pupStop.rd F.PUP_STS_SPARE = 3 ∧ s.pupStop.rd F.GEN_STS_MI_AVAIL = 0 ∧
    s.pupStop.pup.kept = some (s.rd F.PWR_STEP_STEP) ∧ Out.pin "FAULT_N" 0 ∈ s.pupStop.outs ∧
    s.pupStop.rd F.PUP_STS_ACTIVE = s.rd F.PUP_STS_ACTIVE ∧ s.pupStop.zn = s.zn := by
  unfold pupStop
  extract_lets a b c
  have hb : Keeps a b eventFields := (raise_keeps a evPupStopped 0xFFFF 0).trans (faultFlush_keeps _)
  have hbt : Told a b := (Told.raise a evPupStopped 0xFFFF 0).trans (Told.faultFlush _)
  have hc : Quiets b (b.raiseMv).dmaStop := (Quiets.setMv b _).trans (Quiets.dmaStop _)
  have hsent : Only .sent a ({ c with pup := { c.pup with kept := some (c.rd F.PWR_STEP_STEP) } } : State).sweepDrop :=
    (Only.Sent.sweepDrop _).after ((Only.Sent.upd rfl).after ((Only.Sent.wr ..).after ((Only.Sent.dmaStop _).after ((Only.Sent.raiseMv _).after
      ((Only.Sent.faultFlush _).after (Only.Sent.raise ..))))))
  have hd := Quiets.sweepDrop { c with pup := { c.pup with kept := some (c.rd F.PWR_STEP_STEP) } }
  generalize ({ c with pup := { c.pup with kept := some (c.rd F.PWR_STEP_STEP) } } : State).sweepDrop = d at hd hsent
  obtain ⟨r, p, q, w, o, hd'⟩ := hd.frame
  have hrd (f : Fld) (h₁ : ∀ g ∈ quietFields, f.id ≠ g.id) (h₂ : f.id ≠ F.GEN_STS_MI_AVAIL.id) (h₃ : ∀ g ∈ eventFields, f.id ≠ g.id) :
      d.rd f = a.rd f ∧ c.rd f = a.rd f := by
    have hcb : c.rd f = a.rd f := ((rd_wr_id _ _ _ _ _ _ _ _ _ _ h₂).trans (hc.regs f 0 0 0 h₁)).trans (hb f 0 0 0 h₃)
    exact ⟨(hd.regs f 0 0 0 h₁).trans hcb, hcb⟩
  refine ⟨?_, ?_, ?_, ?_, ?_, ?_⟩
  · exact (hrd F.PUP_STS_SPARE (by decide) (by decide) (by decide)).1.trans (rd_wr_same ..)
  · exact (hd.regs F.GEN_STS_MI_AVAIL 0 0 0 (by decide)).trans (rd_wr_same ..)
  · rw [hd']
    exact congrArg some ((hrd F.PWR_STEP_STEP (by decide) (by decide) (by decide)).2.trans (rd_wr_id _ _ _ _ _ _ _ _ _ _ (by decide)))
  · exact hsent.rel (List.mem_append_right _ List.mem_cons_self)
  · exact (hrd F.PUP_STS_ACTIVE (by decide) (by decide) (by decide)).1.trans (rd_wr_id _ _ _ _ _ _ _ _ _ _ (by decide))
  · rw [hd']
    obtain ⟨r', p', q', w', o', hc'⟩ := hc.frame
    exact (congrArg State.zn hc').trans hbt.fields.1

end State

/-- Settles O38. -/
theorem mailboxAndFailoverComplete : Obligations.MailboxAndFailoverComplete := by
  refine ⟨fun s hm hlen hst hp => ?_, fun s h => ⟨s, ?_, rfl⟩, fun q s => ⟨_, rfl, fun e he => ?_, rfl⟩, fun s hst => ⟨_, congrArg Host.Outcome.next (if_neg (by simp [hst])), rfl⟩,
    fun pass s hsp hst hsw hlate => ⟨_, execWatchdogExpiry_late hlate pass, ?_⟩, fun pass s hsp hst hsw => ⟨_, rfl, ?_⟩, fun pass s hsp hst => ⟨_, rfl, ?_⟩,
    fun pass s => ⟨s, rfl, rfl⟩, fun pass s hsp hst hsw => ⟨_, rfl, ?_⟩, fun pass s hst ht => ?_⟩
  · obtain ⟨e, he, heq, hmin⟩ := earliest_spec hp
    have hgo : (decide (s.rd F.PUP_STS_MASKED = 1) || decide (s.pup.insvc.length ≥ 128) || s.stopped) = false := by simp [hm, hst, hlen]
    refine ⟨{ s with pup := { s.pup with pend := s.pup.pend.filter (fun x => x.seq != e.seq), insvc := s.pup.insvc ++ [e] } }, ?_, e, he, hmin, rfl⟩
    show execMailboxPop s = _
    simp only [execMailboxPop, hgo, heq, Bool.false_eq_true, if_false]
  · refine congrArg Host.Outcome.next (if_pos ?_)
    rcases h with h | h <;> simp [h]
  · simpa using (List.mem_filter.1 he).2
  · rw [State.failover_takesOver hst hsw hsp]
    exact State.takeOverPup_tookOver s (by decide) pass
  · rw [State.failover_takesOver hst hsw hsp]
    exact State.takeOverPup_tookOver s (by decide) pass
  · rw [if_neg Bool.false_ne_true, State.failover_check hst (by decide) hsp]
    exact State.takeOverPup_tookOver s (by decide) pass
  · rw [State.failover_stops hst hsw hsp]
    exact State.pupStop_stopped s
  · refine ⟨_, congrArg Host.Outcome.next (if_neg (by simp [hst, Nat.not_lt.2 ht])), ?_, ?_, rfl⟩
    · exact (State.rd_wr_same ..).trans (by cases pass <;> rfl)
    · exact (Keeps.of_regs rfl).trans (Keeps.wr (f := F.PUP_STS_SPARE) (by decide) _ _ _ _ _)

end Sys2Proof.Machine
end

section
/-! SUPPORT. The scope of an event and of an admin command's end: what reporting may change. -/

namespace Sys2Proof.Machine

/-- What reporting an event changes: the recorder, the queue of events and those who are told, completions, and the charge of the recorder's flush. -/
def Scope.event : Scope where
  merge s t := { s with
    regs := t.regs, evr := t.evr, fns := t.fns, outs := t.outs
    ras := { s.ras with
      evq := t.ras.evq, evSeq := t.ras.evSeq, views := t.ras.views, aers := t.ras.aers, notices := t.ras.notices, errs := t.ras.errs
      integrity := t.ras.integrity }
    tim := { s.tim with saved := t.tim.saved }
    sl := { s.sl with qs := t.sl.qs, cqs := t.sl.cqs, ext := t.sl.ext, bg := t.sl.bg }
    net := { s.net with txq := t.net.txq } }
  fields := eventFields

/-- At most what reporting changes. -/
def Bound.event : Bound := Scope.event.bound

namespace Only.Event

-- So the unifier sees a match on an option as the recursor that `opt` speaks of.
set_option smartUnfolding false

variable (s : State)

theorem send (o : Out) : Only .event s (s.send o) := by
  unfold State.send
  exact upd rfl

theorem sendOn (p u pr : Nat) (qp : Option Nat) (o : Out) : Only .event s (s.sendOn p u pr qp o) := by
  unfold State.sendOn
  exact .ite (upd rfl) (send ..)

theorem sendQp (n : Nat) (o : Out) : Only .event s (s.sendQp n o) := by
  unfold State.sendQp
  exact .opt (fun _ => (sendOn ..)) (send ..)

theorem putSx (n : Nat) (x : SliceX) : Only .event s (s.putSx n x) := by
  unfold State.putSx
  exact upd rfl

theorem logErr (o : Org) (cid sct sc : Nat) (die : Option Nat) : Only .event s (s.logErr o cid sct sc die) := by
  unfold State.logErr
  exact .after (.ite (upd rfl) (.refl _)) (.ite ((addw (by decide) ..).after (upd rfl)) (.refl _))

theorem hold (func : Nat) (c : Cpl) (t : Stamp) : Only .event s (s.hold func c t) := by
  unfold State.hold
  exact .opt (fun _ => (upd rfl)) (.refl _)

theorem mapQ (i : Nat) (f : Queue → Queue) : Only .event s (s.mapQ i f) := by
  unfold State.mapQ
  exact upd rfl

theorem pushCq (func cqid : Nat) : Only .event s (s.pushCq func cqid) := by
  unfold State.pushCq
  exact upd rfl

theorem postAdm (n : Nat) (c : Cpl) : Only .event s (s.postAdm n c) := by
  unfold State.postAdm
  exact .after (.opt (fun _ => (send ..)) (.refl _)) ((pushCq ..).after (send ..))

theorem admLess (o : Org) : Only .event s (s.admLess o) := by
  unfold State.admLess
  exact .opt (fun _ => (mapQ ..)) (.refl _)

theorem admPost (o : Org) (c : Cpl) (t : Stamp) : Only .event s (s.admPost o c t) := by
  unfold State.admPost
  split
  · exact .ite (postAdm ..) (hold ..)
  · exact .opt (fun _ => (sendQp ..)) (send ..)
  · exact (send ..)

theorem adm (o : Org) (cid : Nat) (st : Nat × Nat) (dw0 : Nat) (data : List Nat) : Only .event s (s.adm o cid st dw0 data) := by
  unfold State.adm
  exact (admPost ..).after ((admLess ..).after (logErr ..))

theorem putQ (i : Nat) (q : Queue) : Only .event s (s.putQ i q) := by
  unfold State.putQ
  exact upd rfl

theorem charge (slice : Nat) (q : Option Nat) (c : Nat) : Only .event s (s.charge slice q c) := by
  unfold State.charge
  exact .after (.opt (fun _ => (.opt (fun _ => (putQ ..)) (.refl _))) (.refl _)) ((putSx ..).after ((wr (by decide) ..).after (addw (by decide) ..)))

theorem chargeBg (k c : Nat) : Only .event s (s.chargeBg k c) := by
  unfold State.chargeBg
  exact .after (upd rfl) (charge ..)

theorem norWrite (kind part parts ns : Nat) (recs : List Rec) : Only .event s (s.norWrite kind part parts ns recs) := by
  unfold State.norWrite
  exact (wr (by decide) ..).after ((wr (by decide) ..).after ((wr (by decide) ..).after (upd rfl)))

theorem norCopy (kind ns : Nat) (recs : List Rec) : Only .event s (s.norCopy kind ns recs) := by
  unfold State.norCopy
  exact .foldl (fun _ _ => (norWrite ..))

theorem faultFlush : Only .event s s.faultFlush := by
  unfold State.faultFlush
  exact (inc (by decide) ..).after ((norCopy ..).after (.after (upd rfl) ((chargeBg ..).after (upd rfl))))

theorem recAppend (code arg trig : Nat) (addrs : List Nat) (flush : Bool) : Only .event s (s.recAppend code arg trig addrs flush) := by
  unfold State.recAppend
  exact .ite (inc (by decide) ..) (.ite ((inc (by decide) ..).after (wr (by decide) ..)) (upd rfl))

theorem record (code arg : Nat) : Only .event s (s.record code arg) := by
  unfold State.record
  exact .ite
    (.refl _)
    (.opt (fun _ => (.ite (.refl _) (.ite ((faultFlush ..).after (recAppend ..)) (recAppend ..)))) (recAppend ..))

theorem putView (v : EvView) : Only .event s (s.putView v) := by
  unfold State.putView
  exact upd rfl

theorem notify (c : Ctl) (ty info page : Nat) : Only .event s (s.notify c ty info page) := by
  unfold State.notify
  exact .opt (fun _ => ((adm ..).after (upd rfl))) (.ite (.refl _) (upd rfl))

theorem reportTo (cls : Nat) (c : Ctl) : Only .event s (s.reportTo cls c) := by
  unfold State.reportTo
  exact .ite (.refl _) ((notify ..).after (putView ..))

theorem loseFor (c : Ctl) : Only .event s (s.loseFor c) := by
  unfold State.loseFor
  exact (putView ..)

theorem raise (code slice arg : Nat) : Only .event s (s.raise code slice arg) := by
  unfold State.raise
  exact .after
    (.foldl (fun _ _ => (reportTo ..)))
    (.after
      (.ite (send ..) (.refl _))
      ((record ..).after (.ite (upd rfl) (.after (.foldl (fun _ _ => (loseFor ..))) (inc (by decide) ..)))))


end Only.Event

end Sys2Proof.Machine
end

section
/-! O43: the cipher (12 R280, R281, R288–R293). -/

namespace Sys2Proof.Machine

/-- Setting or clearing a bit changes that bit alone. -/
theorem bit_withBit (v b : Nat) (on : Bool) (i : Nat) : bit (withBit v b on) i = if i = b then on else bit v i := by
  unfold bit withBit
  cases on with
  | true =>
    show (v ||| 2 ^ b).testBit i = _
    rw [Nat.testBit_or, Nat.testBit_two_pow]
    by_cases h : i = b <;> simp [h, Ne.symm]
  | false =>
    rw [if_neg Bool.false_ne_true]
    cases hb : v.testBit b with
    | false =>
      by_cases h : i = b
      · simp [h, bit, hb]
      · simp [h, bit, hb]
    | true =>
      have hv : v = 2 ^ b * (v / 2 ^ b) + v % 2 ^ b := (Nat.div_add_mod v (2 ^ b)).symm
      have hr : v % 2 ^ b < 2 ^ b := Nat.mod_lt _ (Nat.two_pow_pos b)
      have hodd : v / 2 ^ b % 2 = 1 := by simpa [Nat.testBit_eq_decide_div_mod_eq] using hb
      obtain ⟨q, hq⟩ : ∃ q, v / 2 ^ b = 2 * q + 1 := ⟨v / 2 ^ b / 2, by omega⟩
      have hsub : v - 2 ^ b = 2 ^ b * (2 * q) + v % 2 ^ b := by
        rw [hq, Nat.mul_add, Nat.mul_one] at hv
        omega
      simp only [bit, hb, if_true]
      rw [hsub, Nat.testBit_two_pow_mul_add _ hr]
      split
      · next hlt => rw [if_neg (by omega), Nat.testBit_mod_two_pow]; simp [hlt]
      · next hge =>
        split
        · next he => subst he; simp
        · next hne =>
          obtain ⟨k, hk⟩ : ∃ k, i = b + (k + 1) := ⟨i - b - 1, by omega⟩
          have hi : i - b = k + 1 := by omega
          rw [hv, hq, Nat.testBit_two_pow_mul_add _ hr, if_neg hge, hi, Nat.testBit_succ, Nat.testBit_succ]
          congr 1
          omega

/-- A field's register keeps the bits that it holds. -/
theorem bit_cut {w v i : Nat} (h : i < w) : bit (cut w v) i = bit v i := by
  unfold bit cut
  rw [Nat.testBit_mod_two_pow]
  simp [h]

namespace State
variable {s : State}

/-- The record that was put of a unit is the one it has. -/
theorem unitOf_putUnit (u : UnitSt) : (s.putUnit u).unitOf u.kind u.idx = u := by
  unfold unitOf putUnit
  rw [List.find?_append, List.find?_eq_none.2]
  · simp
  · intro v hv
    have h := (List.mem_filter.1 hv).2
    rw [Bool.not_eq_true'] at h
    rw [h]
    exact Bool.false_ne_true

/-- Recomputing the ceiling changes what RAS_CAP shows, and reports. -/
def ceilFields : List Fld := [F.RAS_CAP_INGEST_GBS, F.RAS_CAP_LINK_EIGHTHS, F.RAS_CAP_DIES, F.RAS_CAP_LANES, F.RAS_CAP_DECODERS]

theorem ceiling_event (always : Bool) : Only (Scope.event.also ceilFields).bound s (s.ceiling always) := by
  unfold ceiling
  refine .after (.ite ((Only.Event.raise ..).also _) (.refl _)) ?_
  exact (Only.wr (by decide) ..).after ((Only.wr (by decide) ..).after ((Only.wr (by decide) ..).after ((Only.wr (by decide) ..).after (Only.wr (by decide) ..))))

/-- A compression lane that fails its self-check is fenced with its unit, where it holds no block (20 R437, R438). -/
theorem fenceUnit_lane {u : Nat} (hu : u < 64) (hst : (s.unitOf 0 u).state = 0) (hb : s.cap.blks = []) :
    ((s.fenceUnit 0 u 1).unitOf 0 u).state ≠ 0 ∧ ((s.fenceUnit 0 u 1).unitOf 0 u).rsn = 1 ∧ (s.fenceUnit 0 u 1).laneUp u = false ∧
    (s.fenceUnit 0 u 1).rd F.FRL_LSTS_FENCE_RSN u = 1 ∧ (s.fenceUnit 0 u 1).zn = s.zn ∧ (s.fenceUnit 0 u 1).cip = s.cip := by
  unfold fenceUnit
  extract_lets a recent st b c d
  have hgo : (!unitOk 0 u || a.state != 0) = false := by simp [unitOk, hu, a, hst]
  rw [hgo, if_neg Bool.false_ne_true]
  have hd : d = c := by
    have hh : c.laneHolds u = [] := by
      show s.cap.blks.filter _ = []
      rw [hb]; rfl
    show c.reissueLane u true = c
    rw [reissueLane, hh]; rfl
  rw [hd]
  have hev : Only (Scope.event.also ceilFields).bound c ((c.raise evUnitFenced 0xFFFF (0 * 256 + u)).ceiling true) :=
    (ceiling_event true).after ((Only.Event.raise ..).also _)
  have hst' : st ≠ 0 := by
    show (if _ then 2 else 1) ≠ 0
    split <;> decide
  let v : UnitSt := { a with state := st, passes := 0, fences := recent, rsn := 1, time := s.tns, testAt := s.el }
  have ha : a.kind = 0 ∧ a.idx = u := by
    show (s.unitOf 0 u).kind = 0 ∧ (s.unitOf 0 u).idx = u
    unfold unitOf
    cases hf : s.ras.units.find? (fun u' => decide (u'.kind = 0) && decide (u'.idx = u)) with
    | none => exact ⟨rfl, rfl⟩
    | some w => simpa using List.find?_some hf
  have hu' : ((c.raise evUnitFenced 0xFFFF (0 * 256 + u)).ceiling true).unitOf 0 u = v := by
    have hput := unitOf_putUnit (s := s) v
    rw [show v.kind = 0 from ha.1, show v.idx = u from ha.2] at hput
    rw [← hput, unitOf, hev.frame]
    rfl
  refine ⟨?_, ?_, ?_, ?_, ?_, ?_⟩
  · rw [hu']; exact hst'
  · rw [hu']
  · have hmask : ((c.raise evUnitFenced 0xFFFF (0 * 256 + u)).ceiling true).rd F.FRL_LANE_AVAIL_MASK =
        cut F.FRL_LANE_AVAIL_MASK.w (withBit (s.rd F.FRL_LANE_AVAIL_MASK) u false) := by
      refine (hev.regs F.FRL_LANE_AVAIL_MASK 0 0 0 (by decide)).trans ((rd_wr_id _ _ _ _ _ _ _ _ _ _ (by decide)).trans ?_)
      exact (rd_wr_id _ _ _ _ _ _ _ _ _ _ (by decide)).trans (rd_wr_same ..)
    rw [laneUp, hmask, bit_cut (w := F.FRL_LANE_AVAIL_MASK.w) hu, bit_withBit, if_pos rfl]
  · exact (hev.regs F.FRL_LSTS_FENCE_RSN u 0 0 (by decide)).trans (rd_wr_same ..)
  · rw [hev.frame]; rfl
  · rw [hev.frame]; rfl

/-- With no command waiting for a key nothing happens to commands as a slot's key is answered. -/
theorem keyAnswered_none (h : ∀ c ∈ s.zn.cmds, c.st ≠ .key) (k : KeySlot) (ok : Bool) : s.keyAnswered k ok = s := by
  have hl : s.zn.cmds.filter (fun c => decide (c.slice = k.slice) && decide (c.st = .key)) = [] :=
    List.filter_eq_nil_iff.2 fun c hc => by simp [h c hc]
  unfold keyAnswered
  simp only [hl, List.filter_nil, ite_self, List.foldl_nil]

end State

/-- Settles O43. -/
theorem cipherComplete : Obligations.CipherComplete := by
  refine ⟨fun u s => ⟨_, rfl, ?_, fun i hi => ?_, ?_⟩, fun u s hu hst hb => ?_, fun s hf hl => ?_,
    fun n s hf hp => ⟨_, congrArg Host.Outcome.next ((if_neg (by simp [hf])).trans (if_pos hp)), State.rd_wr_same .., ?_, rfl⟩,
    fun n s hf hp => ⟨_, congrArg Host.Outcome.next ((if_neg (by simp [hf])).trans (if_neg (Nat.not_le.2 hp))), rfl⟩,
    fun i k s hk hst hd hc => ?_, fun i k s hk hst hd hpu hc => ?_⟩
  · simp [bit_withBit]
  · simp [bit_withBit, hi]
  · simp
  · let m : State := { s with cip := { s.cip with failing := withBit s.cip.failing u true } }
    obtain ⟨h₁, h₂, h₃, h₄, h₅, h₆⟩ := State.fenceUnit_lane (s := m) hu hst hb
    refine ⟨m.fenceUnit 0 u 1, congrArg Host.Outcome.next (if_pos (by simp [hu])), ?_, h₁, h₂, h₃, h₄, h₅⟩
    rw [h₆, bit_withBit, if_pos rfl]
  · let m : State := ({ s with cip := { s.cip with passes := 0 } } : State).wr F.CIP_STS_RNG_FAIL 1
    have hev := Only.Event.raise m evRngFail 0xFFFF 0
    refine ⟨m.raise evRngFail 0xFFFF 0, congrArg Host.Outcome.next (if_neg ?_), ?_, ?_, ?_, State.raise_zn ..⟩
    · show ¬ s.rd F.CIP_STS_RNG_FAIL = 1
      rw [hf]; decide
    · exact (hev.regs F.CIP_STS_RNG_FAIL 0 0 0 (by decide)).trans (State.rd_wr_same ..)
    · rw [hev.frame]; rfl
    · exact (State.raise_room m evRngFail 0xFFFF 0 hl).evq
  · exact (Keeps.of_regs rfl).trans (Keeps.wr (f := F.CIP_STS_RNG_FAIL) (by decide) _ _ _ _ _)
  · have hdy : ¬ k.dying = true := by rw [hd]; exact Bool.false_ne_true
    refine ⟨s.putSlot i { k with st := 2 }, ?_, Tab.find_put_same .., fun j hj => Tab.find_put_ne _ _ hj, rfl⟩
    show execKeyDerivationDone i false s = _
    simp only [execKeyDerivationDone, hk, hst, if_neg hdy, bne_self_eq_false, Bool.false_and, Bool.false_eq_true, if_false]
    rw [State.keyAnswered_none]
    exact hc
  · refine ⟨(s.freeSlot i).keyFault i 0 1, ?_, ?_, fun j hj => ?_, ?_, fun hv => ?_, ?_⟩
    · have hz : ((s.freeSlot i).keyFault i 0 1).zn = s.zn := by
        unfold State.keyFault
        split <;> rfl
      show execKeyDerivationDone i true s = _
      simp only [execKeyDerivationDone, hk, hst, hd, hpu, bne_self_eq_false, Bool.true_and, decide_true, Bool.false_eq_true, if_false, if_true]
      rw [State.keyAnswered_none (by rw [hz]; exact hc)]
    · unfold State.keyFault
      split <;> exact Tab.find_del_same ..
    · unfold State.keyFault
      split <;> exact Tab.find_del_ne _ hj
    · unfold State.keyFault
      refine (State.rd_inc_same ..).trans ((cut_sat ..).trans ?_)
      split
      · rfl
      · simp (disch := decide) only [State.rd_wr_id]; rfl
    · unfold State.keyFault
      rw [if_neg (by show ¬ s.rd F.CIP_FLT_INFO_VALID = 1; rw [hv]; decide)]
      simp (disch := decide) only [State.rd_inc_id, State.rd_wr_id, State.rd_wr_same]
      exact ⟨rfl, rfl⟩
    · unfold State.keyFault
      split <;> rfl

end Sys2Proof.Machine
end

section
/-! SUPPORT. The scope of a QP's end (13 R303). -/

namespace Sys2Proof.Machine

/-- What the reset of a queue and the end of a stopped message change: commands, operations and reads that were dropped, the queue, the hold, and the
stream. -/
def Scope.drop : Scope where
  merge s t := { s with
    regs := t.regs
    die := { s.die with dies := t.die.dies }
    ras := { s.ras with aers := t.ras.aers }
    rdn := { s.rdn with recon := t.rdn.recon }
    sl := { s.sl with qs := t.sl.qs, cqs := t.sl.cqs, waits := t.sl.waits }
    zn := { s.zn with cmds := t.zn.cmds, ghosts := t.zn.ghosts }
    cap := { s.cap with streams := t.cap.streams } }
  fields := [F.ZON_ENT2_HOLD, F.ZON_ENT7_SEQ]

/-- At most what dropping a queue's work changes. -/
def Bound.drop : Bound := Scope.drop.bound

namespace Only.Drop

-- So the unifier sees a match on an option as the recursor that `opt` speaks of.
set_option smartUnfolding false

variable (s : State)

theorem putQ (i : Nat) (q : Queue) : Only .drop s (s.putQ i q) := by
  unfold State.putQ
  exact upd rfl

theorem zseq (h : Nat) : Only .drop s (s.zseq h) := by
  unfold State.zseq
  exact addw (by decide) ..

theorem filterOps (keep : DOp → Bool) : Only .drop s (s.filterOps keep) := by
  unfold State.filterOps
  exact upd rfl

theorem putStream (n : Nat) (x : Stream) : Only .drop s (s.putStream n x) := by
  unfold State.putStream
  exact upd rfl

theorem dropMsg (n : Nat) : Only .drop s (s.dropMsg n) := by
  unfold State.dropMsg
  exact .opt (fun _ => (.ite (.refl _) (putStream ..))) (.refl _)

theorem dropCmds (ok : Nat → Bool) : Only .drop s (s.dropCmds ok) := by
  unfold State.dropCmds
  exact .after (upd rfl) (.after (upd rfl) ((filterOps ..).after (.foldl (fun _ _ => ((zseq ..).after (dec (by decide) ..))))))

theorem emptyQueue (i : Nat) : Only .drop s (s.emptyQueue i) := by
  unfold State.emptyQueue
  exact .opt (fun _ => (.after (upd rfl) (putQ ..))) (.refl _)

theorem queueReset (i : Nat) : Only₁ .drop s (s.queueReset i) := by
  unfold State.queueReset
  exact .opt
    (fun _ => (.after (.ite (.pair (.refl _)) (.ite (.pair (upd rfl)) (.pair (emptyQueue ..)))) (dropCmds ..)))
    (.pair (.refl _))


end Only.Drop

namespace State
variable {s : State}

/-- A QP that enters Error: its record says so, and no user data changes. -/
theorem qpError_err {n : Nat} {x : Qp} (hx : s.qp n = some x) (hok : x.err = false) :
    (s.qpError n).qp n = some { x with err := true } ∧ (s.qpError n).zn.ud = s.zn.ud := by
  let a := s.putQp n { x with err := true }
  let b : State := { a with net := { a.net with txq := a.net.txq.filter (fun e => e.2.2.2.1 != some n), asks := a.net.asks.filter (fun e => e.2.2.1 != n) } }
  have h : Only .drop b (s.qpError n) := by
    unfold qpError
    simp only [hx, hok, Bool.false_eq_true, if_false]
    have hmsg {t : State} (h : Only .drop b t) : Only .drop b (match x.stream with | some k => t.dropMsg k | none => t) := by
      split
      · exact (Only.Drop.dropMsg ..).after h
      · exact h
    refine hmsg ?_
    split
    · exact Only.fst (Only.Drop.queueReset b _)
    · exact .refl b
  rw [h.frame]
  exact ⟨Tab.find_put_same .., rfl⟩

end State

end Sys2Proof.Machine
end

section
/-! O11: events of queue pairs (13 R299, R302, R303, R309). -/

namespace Sys2Proof.Machine

theorem ratMax_left {a b : Rat} (h : b ≤ a) : ratMax a b = a := if_neg (not_lt.2 h)

theorem ratMax_right {a b : Rat} (h : a < b) : ratMax a b = b := if_pos h

theorem ratMax_of_le {a b : Rat} (h : a ≤ b) : ratMax a b = b := by
  rcases h.lt_or_eq with h | h
  · exact ratMax_right h
  · rw [h]; exact ratMax_left le_rfl

theorem ccG_decay : (1 - ccG) = (255 / 256 : Rat) := by norm_num [ccG]

namespace State
variable {s : State}

/-- Sending on a sub-port changes what was sent and what waits alone. -/
theorem sendOn_eq (s : State) (p u pr : Nat) (qp : Option Nat) (o : Out) : s.sendOn p u pr qp o =
    { s with outs := (s.sendOn p u pr qp o).outs, net := { s.net with txq := (s.sendOn p u pr qp o).net.txq } } := by
  unfold sendOn
  split <;> rfl

/-- What is sent for a QP whose record was just put is sent, the record standing. -/
theorem putQp_sendQp {n : Nat} (x : Qp) (o : Out) : ((s.putQp n x).sendQp n o).qp n = some x ∧ Sent s ((s.putQp n x).sendQp n o) o ∧
    ((s.putQp n x).sendQp n o).sl = s.sl := by
  refine ⟨?_, sendQp_sent (s.putQp n x) n o, ?_⟩ <;> rw [sendQp_eq]
  · exact Tab.find_put_same ..
  · rfl

end State

/-- Settles O11. -/
theorem qpEventsComplete : Obligations.QpEventsComplete := by
  refine ⟨fun p u dst ip vlan qp x s h hx hok hp hu => ?_, fun qp x s h => ?_, fun qp bytes x s hx hok => ⟨fun hd => ?_, fun hd hst hmin => ?_⟩,
    fun qp x s hx hok => ⟨fun ht => ?_, fun ht => ?_⟩, fun qp x s h => ⟨fun hr => ?_, ?_⟩⟩
  · subst hp hu
    have hgo : (x.err || x.port != x.port || x.sub != x.sub) = false := by simp [hok]
    refine ⟨⟨_, ?_, rfl⟩, fun hc => ⟨((s.putQp qp { x with cnpTx := some s.el }).inc F.ETH_CNP_TX_CNT x.port x.sub).sendOn x.port x.sub
      (s.rd F.ETH_CC_CFG_CNP_PRIO x.port) (some qp) (.net x.port x.sub "cnp" [qp, s.rd F.ETH_CC_CFG_CNP_PRIO x.port, 48]), ?_, ?_, ?_, ?_⟩⟩
    · show execRocePacket x.port x.sub dst ip vlan qp false true s = _
      simp only [execRocePacket, State.rxIn_of_arrives h, hx, hgo, Bool.not_true, Bool.false_and, Bool.false_eq_true, if_false, if_true]
      rfl
    · show execRocePacket x.port x.sub dst ip vlan qp true false s = _
      simp only [execRocePacket, State.rxIn_of_arrives h, hx, hgo, hc, Bool.not_true, Bool.and_self, Bool.false_eq_true, if_false, if_true]
    · rw [State.sendOn_eq]; exact Tab.find_put_same ..
    · rw [State.sendOn_eq]; exact (State.rd_inc_same ..).trans (cut_sat ..)
    · exact State.sendOn_sent ((s.putQp qp { x with cnpTx := some s.el }).inc F.ETH_CNP_TX_CNT x.port x.sub) ..
  · have hmin : (s.inc F.ETH_CNP_RX_CNT x.port x.sub).minRate x.port = s.minRate x.port :=
      congrArg (Nat.cast (R := Rat)) (State.rd_inc_id _ _ _ _ _ _ _ _ _ (by decide))
    refine ⟨_, congrArg Host.Outcome.next ((State.qpIn_of_qpUp h _).trans (if_neg (by rw [h.ok]; exact Bool.false_ne_true))),
      ⟨_, Tab.find_put_same .., rfl, ?_, rfl, fun hm => ratMax_of_le (hmin ▸ hm), fun hm => (ratMax_left (hmin ▸ hm.le)).trans hmin⟩, ?_, rfl⟩
    · show (1 - ccG) * x.alpha + ccG = _
      rw [ccG_decay, ccG]
    · exact (State.rd_inc_same ..).trans (cut_sat ..)
  · refine ⟨s.putQp qp { x with alpha := (1 - ccG) * x.alpha, decayAt := s.el }, ?_, ?_, rfl⟩
    · show execCcRateTimer qp false bytes s = _
      simp only [execCcRateTimer, hx, hok, hd, Bool.not_false, Bool.false_eq_true, if_false, if_true]
    · rw [ccG_decay]; exact Tab.find_put_same ..
  · refine ⟨s.putQp qp { x with stage := x.stage + 1, rc := (x.rt + x.rc) / 2, incAt := s.el }, ?_, Tab.find_put_same .., rfl⟩
    have h5 : ¬ x.stage + 1 > 5 := by omega
    show execCcRateTimer qp true bytes s = _
    simp only [execCcRateTimer, hx, hok, hd, h5, ratMax_of_le hmin, Bool.not_true, decide_true, Bool.true_or, Bool.false_eq_true, if_false, if_true]
  · obtain ⟨h₁, h₂, h₃⟩ := State.putQp_sendQp (s := s) (n := qp) { x with tries := x.tries + 1 } (.net x.port x.sub "retry" [qp, x.tries + 1])
    refine ⟨_, ?_, h₁, h₂, h₃⟩
    show execAckTimeout qp s = _
    simp only [execAckTimeout, State.qpTimeout, hx, hok, ge_iff_le, Nat.not_le.2 ht, Bool.false_eq_true, if_false]
  · obtain ⟨h₁, h₂⟩ := State.qpError_err hx hok
    refine ⟨_, ?_, h₁, h₂⟩
    show execAckTimeout qp s = _
    simp only [execAckTimeout, State.qpTimeout, hx, hok, ge_iff_le, ht, Bool.false_eq_true, if_false, if_true]
  · obtain ⟨h₁, h₂, h₃⟩ := State.putQp_sendQp (s := s) (n := qp) { x with rnrs := x.rnrs + 1 } (.net x.port x.sub "rnr_retry" [qp])
    have hgo : (x.rnrRetry != 7 && decide (x.rnrs ≥ x.rnrRetry)) = false := by
      rcases hr with hr | hr
      · simp [hr]
      · simp [Nat.not_le.2 hr]
    refine ⟨_, congrArg Host.Outcome.next ((State.qpIn_of_qpUp h _).trans ?_), h₁, h₂, h₃⟩
    simp only [h.ok, hgo, Bool.false_eq_true, if_false]
  · let m := s.sendQp qp (.net x.port x.sub "nak_access" [qp])
    have hm : m.qp qp = some x ∧ m.zn = s.zn := by
      simp only [m]
      rw [State.sendQp_eq]
      exact ⟨h.qp, rfl⟩
    obtain ⟨h₁, h₂⟩ := State.qpError_err (s := m) hm.1 h.ok
    refine ⟨m.qpError qp, congrArg Host.Outcome.next ((State.qpIn_of_qpUp h _).trans ?_), h₁, h₂.trans (by rw [hm.2]), fun hw => ?_⟩
    · simp only [h.ok, Bool.false_eq_true, if_false]; rfl
    · refine (Only.Sent.qpError m qp).rel ?_
      have : m = s.send (.net x.port x.sub "nak_access" [qp]) := by
        simp only [m, State.sendQp, show Tab.find qp s.net.qps = some x from h.qp, State.sendOn, hw, Bool.false_eq_true, if_false]
      rw [this]
      exact List.mem_append_right _ List.mem_cons_self

end Sys2Proof.Machine
end

section
/-! O12: address resolution and echo (13 R301, R306). -/

namespace Sys2Proof.Machine

theorem not_both {p q : Prop} [Decidable p] [Decidable q] : (!(decide p && decide q)) = true ↔ ¬ (p ∧ q) := by
  by_cases p <;> simp [*]

theorem not_all_three {p q r : Prop} [Decidable p] [Decidable q] [Decidable r] : (!(decide p && decide q && decide r)) = true ↔ ¬ (p ∧ q ∧ r) := by
  by_cases p <;> by_cases q <;> simp [*]

namespace State
variable {s : State}

/-- What a sender can change by sending: what was sent, and what waits to be. -/
structure Flushed (s t : State) : Prop where
  frame : t = { s with net := { s.net with txq := t.net.txq }, outs := t.outs }

theorem Flushed.refl (s : State) : Flushed s s := ⟨rfl⟩

theorem Flushed.trans {a b c : State} (h : Flushed a b) (k : Flushed b c) : Flushed a c := ⟨by rw [k.frame, h.frame]⟩

theorem Flushed.foldl {α : Type} {f : State → α → State} (h : ∀ s a, Flushed s (f s a)) (l : List α) (s : State) : Flushed s (l.foldl f s) :=
  foldl_keeps (P := Flushed s) (fun t a k => k.trans (h t a)) l s (.refl s)

theorem Flushed.sendOn (s : State) (p u pr : Nat) (qp : Option Nat) (o : Out) : Flushed s (s.sendOn p u pr qp o) := ⟨sendOn_eq ..⟩

theorem Flushed.flushTx (s : State) (p u : Nat) : Flushed s (s.flushTx p u) :=
  Flushed.trans (b := { s with net := { s.net with txq := s.net.txq.filter (fun e => !(e.1 = p && e.2.1 = u)) } }) ⟨rfl⟩
    (Flushed.foldl (fun t _ => .sendOn t ..) _ _)

theorem sendNet_sent (s : State) (p u : Nat) (what : String) (args : List Nat) : Sent s (s.sendNet p u what args) (.net p u what args) :=
  sendOn_sent ..

end State

/-- Settles O12. -/
theorem addressFramesComplete : Obligations.AddressFramesComplete := by
  refine ⟨fun p u dst ip vlan from1 s h => ?_, fun p u dst ip vlan from1 s h hat => ⟨fun hn => ?_, fun hn => ?_⟩, fun p u s hl => ?_, fun p u cause s hl => ?_,
    fun p ip qp s ha hp => ?_, fun p ip qp at0 x s ha hat hx hok ht => ?_, fun p ip mac qp at0 s ha hp hr => ?_, fun p ip s => ⟨_, rfl, rfl, fun e => ?_⟩⟩
  · refine ⟨s.sendNet p u "arp_reply" [ip, s.rd F.ETH_MAC_ADDR p u, from1], ?_, s.sendNet_sent .., s.sendOn_eq ..⟩
    show execArpRequest p u dst ip vlan from1 s = _
    simp only [execArpRequest, State.rxIn_of_arrives h, if_true]
  · let m := s.putSub p u { s.sub p u with echoAt := s.el / 1000000000, echoes := (s.sub p u).echoes + 1 }
    refine ⟨m.sendNet p u "echo_reply" [ip, from1], ?_, ?_, m.sendNet_sent .., ?_⟩
    · show execEchoRequest p u dst ip vlan from1 s = _
      simp only [execEchoRequest, State.rxIn_of_arrives h, hat, if_true, ge_iff_le, Nat.not_le.2 hn, Bool.not_true, Bool.false_eq_true, if_false]
      rfl
    · rw [State.sendNet, State.sendOn_eq]
      simp only [State.sub, m, State.putSub, Tab.find_put_same]
      rfl
    · rw [State.sendNet, State.sendOn_eq]; rfl
  · refine ⟨s.dropRx p u drRate, ?_, rfl, rfl, (State.rd_inc_same ..).trans (cut_sat ..)⟩
    show execEchoRequest p u dst ip vlan from1 s = _
    simp only [execEchoRequest, State.rxIn_of_arrives h, hat, if_true, ge_iff_le, hn, Bool.not_true, Bool.false_eq_true, if_false]
  · refine ⟨s.dropRx p u drCsum, ?_, rfl, (State.rd_inc_same ..).trans (cut_sat ..), Keeps.inc (f := F.ETH_RX_DROP_CSUM_CNT) (by decide) _ _ _ _⟩
    show execDroppedFrame p u drCsum s = _
    simp [execDroppedFrame, hl, lkUp, lkHeld, lkWake]
  · refine ⟨s.dropRx p u drHeld, ?_, rfl, (State.rd_inc_same ..).trans (cut_sat ..)⟩
    show execDroppedFrame p u cause s = _
    simp only [execDroppedFrame, hl, if_true]
  · have hno : s.net.asks.find? (fun e => decide (e.1 = p) && decide (e.2.1 = ip) && decide (e.2.2.1 = qp)) = none :=
      List.find?_eq_none.2 fun e he => by simpa [and_assoc] using ha e he
    have hnp : s.net.peers.any (fun e => decide (e.1 = p) && decide (e.2.1 = ip)) = false :=
      List.any_eq_false.2 fun e he => by simpa using hp e he
    refine ⟨s.askHop p ip qp, ?_, ?_, ⟨_, State.sendNet_sent { s with net := { s.net with asks := s.net.asks ++ [(p, ip, qp, s.el)] } } ..⟩, ?_, ?_⟩
    · show execAddressResolutionTimeout p ip qp s = _
      simp only [execAddressResolutionTimeout, hno, hnp, Bool.false_eq_true, if_false]
    all_goals rw [State.askHop, State.sendNet, State.sendOn_eq]
  · let m : State := { s with net := { s.net with asks := [] } }
    let y : Qp := { x with tries := x.tries + 1 }
    let r := (m.putQp qp y).sendQp qp (.net x.port x.sub "retry" [qp, x.tries + 1])
    obtain ⟨hrq, -, -⟩ := State.putQp_sendQp (s := m) (n := qp) y (.net x.port x.sub "retry" [qp, x.tries + 1])
    have hr : r = { m.putQp qp y with outs := r.outs, net := { (m.putQp qp y).net with txq := r.net.txq } } := State.sendQp_eq ..
    have hto : m.qpTimeout qp = r := by
      have : m.qp qp = some x := hx
      have hok' : ¬ x.err = true := by rw [hok]; exact Bool.false_ne_true
      simp only [State.qpTimeout, this, if_neg hok', ge_iff_le, Nat.not_le.2 ht, if_false]
      rfl
    let a : State := { r with net := { r.net with asks := r.net.asks ++ [(p, ip, qp, r.el)] } }
    have hask : r.askHop p ip qp = a.sendNet p x.sub "arp_request" [ip] := by
      have : r.qp qp = some y := hrq
      rw [State.askHop, this]; rfl
    have hfl := State.Flushed.sendOn a p x.sub (cut 3 (Config.txPrio 0)) none (.net p x.sub "arp_request" [ip])
    refine ⟨a.sendNet p x.sub "arp_request" [ip], ?_, ?_, ?_, ?_, ?_⟩
    · show execAddressResolutionTimeout p ip qp s = _
      have hfind : s.net.asks.find? (fun e => decide (e.1 = p) && decide (e.2.1 = ip) && decide (e.2.2.1 = qp)) = some (p, ip, qp, at0) := by
        rw [ha]; simp
      have hrest : s.net.asks.filter (fun e => e != (p, ip, qp, at0)) = [] := by rw [ha]; simp
      have hq : ((r.qp qp).map (fun (x : Qp) => x.err)).getD true = false := by
        rw [show r.qp qp = some y from hrq]; exact hok
      have hat' : at0 + askWait ≤ s.el := hat
      simp only [execAddressResolutionTimeout, hfind, if_pos hat', hrest]
      rw [hto, hq, if_neg Bool.false_ne_true, hask]
    · rw [State.sendNet, hfl.frame]
      show r.net.asks ++ _ = _
      rw [hr]; rfl
    · rw [State.sendNet, hfl.frame]
      exact hrq
    · rcases a.sendNet_sent p x.sub "arp_request" [ip] with ⟨ho, -⟩ | ⟨-, e, he, hx⟩
      · exact .inl (by rw [ho]; simp)
      · exact .inr ⟨e, by rw [he]; simp, hx⟩
    · rw [State.sendNet, hfl.frame]
      show r.zn = _
      rw [hr]
      rfl
  · have hown : (s.net.asks.any (fun e => decide (e.1 = p) && decide (e.2.1 = ip)) || s.net.peers.any (fun e => decide (e.1 = p) && decide (e.2.1 = ip))) = true := by
      rw [List.any_eq_true.2 ⟨_, ha, by simp⟩, Bool.true_or]
    have hlen : ¬ ((s.net.peers.filter (fun e => !(decide (e.1 = p) && decide (e.2.1 = ip)))).filter (fun e => decide (e.1 = p))).length ≥ 4096 := by
      refine Nat.not_le.2 (lt_of_le_of_lt (List.Sublist.length_le ?_) hp)
      exact (List.filter_sublist ..).filter _
    let m : State := { s with net := { s.net with
      peers := s.net.peers.filter (fun e => !(decide (e.1 = p) && decide (e.2.1 = ip))) ++ [(p, ip, mac, s.el)]
      asks := s.net.asks.filter (fun e => !(decide (e.1 = p) && decide (e.2.1 = ip))) } }
    obtain ⟨t, ht, hf⟩ : ∃ t, (List.range 8).foldl (fun (s : State) u => s.flushTx p u) m = t ∧ State.Flushed m t :=
      ⟨_, rfl, .foldl (fun t u => .flushTx t p u) _ _⟩
    refine ⟨t, ?_, ?_⟩
    · show execArpReply p ip mac s = _
      simp only [execArpReply, hown, State.frameWake_awake hr, if_neg hlen, Bool.not_true, Bool.false_eq_true, if_false]
      exact congrArg Host.Outcome.next ht
    · rw [hf.frame]
      refine ⟨List.mem_append_right _ List.mem_cons_self, fun e he => ?_, fun e he hne => List.mem_append_left _ (List.mem_filter.2 ⟨he, ?_⟩), rfl⟩
      · exact not_both.1 (List.mem_filter.1 he).2
      · exact not_both.2 hne
  · rw [List.mem_filter]
    exact and_congr_right fun _ => not_all_three

end Sys2Proof.Machine
end

section
/-! O13: priority flow control and the link states of sub-ports (13 R296, R297, R306; 01 R23; 21 R467). -/

namespace Sys2Proof.Machine

/-- What a change of a sub-port's link state changes: its two registers, an event, and an edge of the mailbox. -/
def Scope.link : Scope where
  merge s t := { Scope.event.merge s t with pup := t.pup }
  fields := [F.ETH_SUB_STS_LINK, F.ETH_SUB_STS_FEC_LOCK, F.PUP_MBX_STS_SEQ] ++ eventFields

/-- At most what a change of a link state changes. -/
def Bound.link : Bound := Scope.link.bound

namespace Only

theorem toLink {s t : State} (h : Only .event s t) : Only .link s t := h.widen (d := Scope.link) (fun _ _ => rfl) (by decide)

namespace Link

-- So the unifier sees a match on an option as the recursor that `opt` speaks of.
set_option smartUnfolding false

variable (s : State)

theorem latch (src data : Nat) : Only .link s (s.latch src data) := by
  unfold State.latch
  exact .ite (upd rfl) ((wr (by decide) ..).after (upd rfl))

theorem edge (src data : Nat) : Only .link s (s.edge src data) := by
  unfold State.edge
  exact .ite (latch ..) (.refl _)

theorem setLink (p u v : Nat) : Only .link s (s.setLink p u v) := by
  unfold State.setLink
  exact .after (.ite ((edge ..).after (Event.raise ..).toLink) (.refl _)) (.after (.ite (wr (by decide) ..) (wr (by decide) ..)) (wr (by decide) ..))


end Link

end Only

namespace State
variable {s : State}

theorem edge_keeps (s : State) (src data : Nat) : Keeps s (s.edge src data) [F.PUP_MBX_STS_SEQ] := by
  unfold edge latch
  split
  · split
    · exact Keeps.of_regs rfl
    · exact Keeps.addw (f := F.PUP_MBX_STS_SEQ) (by decide) s 1 0 0
  · exact Keeps.refl s _

/-- The state of a link that was set. -/
theorem setLink_link (s : State) (p u v : Nat) : (s.setLink p u v).link p u = cut F.ETH_SUB_STS_LINK.w v := by
  unfold setLink
  extract_lets old a b
  have hb : b.link p u = cut F.ETH_SUB_STS_LINK.w v := by
    have ha : a.link p u = cut F.ETH_SUB_STS_LINK.w v := rd_wr_same ..
    show (if _ then _ else _ : State).link p u = _
    split <;> exact (rd_wr_id _ _ _ _ _ _ _ _ _ _ (by decide)).trans ha
  split
  · exact ((edge_keeps _ _ _ F.ETH_SUB_STS_LINK p u 0 (by decide)).trans ((Only.Event.raise b ..).regs F.ETH_SUB_STS_LINK p u 0 (by decide))).trans hb
  · exact hb

/-- A change that neither enters nor leaves UP changes registers alone. -/
theorem setLink_quiet {p u v : Nat} (h : (decide (s.link p u = lkUp) != decide (v = lkUp)) = false) :
    s.setLink p u v = { s with regs := (s.setLink p u v).regs } := by
  unfold setLink
  dsimp only
  rw [h, if_neg Bool.false_ne_true]
  split <;> rfl

/-- A sub-port's record that was put is what it has. -/
theorem sub_putSub (p u : Nat) (x : SubX) : (s.putSub p u x).sub p u = x := by
  simp only [sub, putSub, Tab.find_put_same]
  rfl

theorem Flushed.sub_eq {t : State} (h : Flushed s t) (p u : Nat) : t.sub p u = s.sub p u := by
  rw [h.frame]
  rfl

theorem Flushed.subs_eq {t : State} (h : Flushed s t) : t.net.subs = s.net.subs := by rw [h.frame]

theorem Flushed.regs_eq {t : State} (h : Flushed s t) : t.regs = s.regs := by rw [h.frame]

/-- A PFC or pause frame of an UP sub-port sets its pauses, and lets go what waits no more. -/
theorem pfcFrame_eq {p u : Nat} (hl : s.link p u = lkUp) {glob : Bool} (hg : glob = true → s.rd F.ETH_PFC_CFG_EN p = 0) (mask quanta : Nat) :
    execPfcFrame p u mask quanta glob s = .next ((s.putSub p u { s.sub p u with
      paused := (s.sub p u).paused.filter (fun e => !bit (if glob then 0xFF else mask) e.1) ++
        if quanta = 0 then [] else ((List.range 8).filter (bit (if glob then 0xFF else mask))).map (fun i => (i, s.el + quanta * 512 / s.lineRate p)) }).flushTx p u) := by
  have hgo : (s.link p u != lkUp || (glob && s.rd F.ETH_PFC_CFG_EN p != 0)) = false := by
    cases glob
    · simp [hl]
    · simp [hl, hg rfl]
  simp only [execPfcFrame, hgo, Bool.false_eq_true, if_false]

end State

/-- Settles O13. -/
theorem pfcAndSubportStatesComplete : Obligations.PfcAndSubportStatesComplete := by
  refine ⟨fun p u mask s hl => ?_, fun p u mask quanta i s hl hq hi => ⟨fun hb => ?_, fun he => ?_⟩, fun p u s => ?_, fun p u fill lost s hl hx hm => ?_,
    fun p u fill lost s hl hrx hf hlt hp hon hm => ?_, fun p u s hl hu ht hc => ?_, fun p u s hl => ?_, fun p u s hl hw => ?_, fun p u s hl hw => ?_,
    fun p u corr uncorr s hl => ?_⟩
  · let m := s.putSub p u { s.sub p u with paused := (s.sub p u).paused.filter (fun e => !bit mask e.1) ++ [] }
    have hf := State.Flushed.flushTx m p u
    refine ⟨m.flushTx p u, State.pfcFrame_eq hl (by simp) mask 0, by rw [hf.subs_eq]; exact hf.frame, fun e => ?_⟩
    rw [hf.sub_eq, State.sub_putSub, List.append_nil, List.mem_filter, Bool.not_eq_true']
  · let m := s.putSub p u { s.sub p u with paused := (s.sub p u).paused.filter (fun e => !bit mask e.1) ++
      if quanta = 0 then [] else ((List.range 8).filter (bit mask)).map (fun i => (i, s.el + quanta * 512 / s.lineRate p)) }
    have hf := State.Flushed.flushTx m p u
    refine ⟨m.flushTx p u, State.pfcFrame_eq hl (by simp) mask quanta, hf.regs_eq, ?_, fun e he hbe => ?_⟩ <;> rw [hf.sub_eq, State.sub_putSub]
    · refine List.mem_append_right _ ?_
      rw [if_neg (by omega)]
      exact List.mem_map.2 ⟨i, List.mem_filter.2 ⟨List.mem_range.2 hi, hb⟩, rfl⟩
    · exact List.mem_append_left _ (List.mem_filter.2 ⟨he, by rw [hbe]; rfl⟩)
  · let m := s.putSub p u { s.sub p u with paused := (s.sub p u).paused.filter (fun e => !bit 0xFF e.1) ++
      if quanta = 0 then [] else ((List.range 8).filter (bit 0xFF)).map (fun i => (i, s.el + quanta * 512 / s.lineRate p)) }
    have hf := State.Flushed.flushTx m p u
    have hb : bit 0xFF i = true := by
      have : ∀ k, k < 8 → bit 0xFF k = true := by decide
      exact this i hi
    refine ⟨m.flushTx p u, State.pfcFrame_eq hl (fun _ => he) mask quanta, hf.regs_eq, ?_⟩
    rw [hf.sub_eq, State.sub_putSub]
    refine List.mem_append_right _ ?_
    rw [if_neg (by omega)]
    exact List.mem_map.2 ⟨i, List.mem_filter.2 ⟨List.mem_range.2 hi, hb⟩, rfl⟩
  · let m := s.putSub p u { s.sub p u with paused := (s.sub p u).paused.filter (fun e => s.el < e.2) }
    have hf := State.Flushed.flushTx m p u
    refine ⟨m.flushTx p u, rfl, by rw [hf.subs_eq]; exact hf.frame, fun e => ?_⟩
    rw [hf.sub_eq, State.sub_putSub, List.mem_filter, decide_eq_true_eq]
  · let m := s.putSub p u { s.sub p u with fill := min fill (2 * s.xoffAt p) }
    have hfill : s.xoffAt p ≤ m.rxFill p u := by
      have : m.rxFill p u = min fill (2 * s.xoffAt p) + ((s.cap.rx.filter (m.rxOn p u)).map RxItem.bytes).sum := by
        rw [State.rxFill, State.sub_putSub]; rfl
      omega
    let a := if m.rxFull p u 1 then m.inc F.ETH_RX_OVF_CNT p u lost else m
    have hk : Keeps s a [F.ETH_RX_OVF_CNT] := by
      show Keeps s (if _ then _ else _) _
      split
      · exact Keeps.inc (f := F.ETH_RX_OVF_CNT) (by decide) m _ _ _
      · exact Keeps.refl s _
    have hao : a.outs = s.outs ∧ a.rxFill p u = m.rxFill p u := by
      show (if _ then _ else _ : State).outs = _ ∧ (if _ then _ else _ : State).rxFill p u = _
      split <;> exact ⟨rfl, rfl⟩
    have hmask : a.xoffMask p = s.xoffMask p := by
      rw [State.xoffMask, hk F.MED_PF_STS_PHASE 0 0 0 (by decide), hk F.ETH_PFC_CFG_EN p 0 0 (by decide)]; rfl
    have hxoff : a.xoffAt p = s.xoffAt p := by
      rw [State.xoffAt, State.subCount, hk F.ETH_PORT_CFG_MODE p 0 0 (by decide)]; rfl
    have hlink : a.link p u = lkUp := (hk F.ETH_SUB_STS_LINK p u 0 (by decide)).trans hl
    refine ⟨a.sendPfc p u 0xFFFF, ?_, ?_, State.rd_wr_same .., fun hlo => ?_⟩
    · have hnow : (decide (a.rxFill p u ≥ a.xoffAt p) || a.mustPause p) = true := by
        rw [hao.2, hxoff, decide_eq_true hfill, Bool.true_or]
      refine congrArg Host.Outcome.next ?_
      show (if a.link p u != lkUp then a else if decide (a.rxFill p u ≥ a.xoffAt p) || a.mustPause p then _ else _) = _
      rw [hnow, hlink]
      rfl
    · simp only [State.sendPfc, hmask, if_neg hm]
      show a.outs ++ _ = _
      rw [hao.1]
    · have hfull : m.rxFull p u 1 = true := by
        have : m.rxFill p u = min fill (2 * s.xoffAt p) + ((s.cap.rx.filter (m.rxOn p u)).map RxItem.bytes).sum := by
          rw [State.rxFill, State.sub_putSub]; rfl
        rw [State.rxFull, this, show m.xoffAt p = s.xoffAt p from rfl]
        exact decide_eq_true (by omega)
      refine (State.rd_wr_id _ _ _ _ _ _ _ _ _ _ (by decide)).trans ?_
      show (if m.rxFull p u 1 = true then _ else _ : State).rd _ _ _ = _
      rw [if_pos hfull]
      exact (State.rd_inc_same ..).trans (cut_sat ..)
  · let m := s.putSub p u { s.sub p u with fill := min fill (2 * s.xoffAt p) }
    have hfill : m.rxFill p u = fill := by
      have : m.rxFill p u = min fill (2 * s.xoffAt p) + ((s.cap.rx.filter (m.rxOn p u)).map RxItem.bytes).sum := by
        rw [State.rxFill, State.sub_putSub]; rfl
      rw [this, hrx]
      simp only [List.filter_nil, List.map_nil, List.sum_nil]
      omega
    have hfull : m.rxFull p u 1 = false := by
      rw [State.rxFull, hfill, show m.xoffAt p = s.xoffAt p from rfl]
      exact decide_eq_false (by omega)
    refine ⟨m.sendPfc p u 0, congrArg Host.Outcome.next ?_, ?_, State.rd_wr_same .., State.rd_wr_id _ _ _ _ _ _ _ _ _ _ (by decide)⟩
    · show (let a := if m.rxFull p u 1 then m.inc F.ETH_RX_OVF_CNT p u lost else m
        if a.link p u != lkUp then a else if decide (a.rxFill p u ≥ a.xoffAt p) || a.mustPause p then a.sendPfc p u 0xFFFF else
          if decide (a.rd F.ETH_SUB_STS_XOFF p u = 1) && decide (a.rxFill p u > a.xoffAt p / 2) then _ else if decide (a.rd F.ETH_SUB_STS_XOFF p u = 1) then _ else _) = _
      have hl' : m.link p u = lkUp := hl
      have hp' : m.mustPause p = false := hp
      have hon' : m.rd F.ETH_SUB_STS_XOFF p u = 1 := hon
      have h₁ : ¬ fill ≥ m.xoffAt p := Nat.not_le.2 hlt
      have h₂ : ¬ fill > m.xoffAt p / 2 := Nat.not_lt.2 hf
      simp only [hfull, hl', hp', hon', hfill, h₁, h₂, Bool.false_eq_true, if_false, bne_self_eq_false, decide_false, Bool.or_self, Bool.and_false, decide_true, if_true]
      show (if m.rxFull p u 1 = true then _ else m : State).sendPfc p u 0 = _
      rw [hfull]
      rfl
    · show m.outs ++ _ = _
      rw [show m.xoffMask p = s.xoffMask p from rfl, if_neg hm]
      rfl
  · refine ⟨s.setLink p u lkTrain, ?_, State.setLink_link .., State.setLink_quiet (by rw [hl]; decide)⟩
    have : (decide (s.link p u = lkDown) && decide (u < s.subCount p) && s.tables && !s.img.noCal.contains p) = true := by simp only [hl, hu, ht, hc]; rfl
    exact congrArg Host.Outcome.next (if_pos this)
  · let m := s.putSub p u { s.sub p u with waitAt := s.el }
    have hq := State.setLink_quiet (s := m) (p := p) (u := u) (v := lkWait) (by rw [show m.link p u = lkTrain from hl]; decide)
    refine ⟨m.setLink p u lkWait, congrArg Host.Outcome.next (if_pos hl), State.setLink_link .., ?_, ?_⟩ <;> rw [hq]
    · exact congrArg SubX.waitAt (State.sub_putSub p u { s.sub p u with waitAt := s.el })
    · rfl
  · have hk := (Only.Link.setLink s p u lkUp).frame
    refine ⟨s.setLink p u lkUp, congrArg Host.Outcome.next (if_pos (by simp [hl, hw])), State.setLink_link .., ?_, ?_, ?_⟩ <;> rw [hk] <;> rfl
  · refine ⟨s.setLink p u lkTrain, congrArg Host.Outcome.next (if_pos (by simp [hl, hw])), State.setLink_link .., State.setLink_quiet (by rw [hl]; decide)⟩
  · let b := (s.inc F.ETH_FEC_CORR_CNT p u corr).inc F.ETH_FEC_UNCORR_CNT p u uncorr
    let ds := (s.sub p u).downs.filter (fun t => s.el < t + 10000000000) ++ [s.el]
    have hbl : b.link p u = lkUp := by
      simp (disch := decide) only [State.link, b, State.rd_inc_id]
      exact hl
    have hfm : b.rd F.ETH_LINK_CFG_FLAP_MAX p = s.rd F.ETH_LINK_CFG_FLAP_MAX p := by
      simp (disch := decide) only [b, State.rd_inc_id]
    let held : Bool := ds.length ≥ b.rd F.ETH_LINK_CFG_FLAP_MAX p
    let m := b.putSub p u { s.sub p u with downs := ds, heldAt := if held then s.el else (s.sub p u).heldAt, paused := [] }
    let d := m.inc F.ETH_FLAP_CNT_CNT p u
    let e := (d.setLink p u lkDown).setLink p u (if held then lkHeld else lkDown)
    have he : Only .link d e := (Only.Link.setLink ..).after (Only.Link.setLink ..)
    have hf := State.Flushed.flushTx e p u
    refine ⟨e.flushTx p u, congrArg Host.Outcome.next (if_neg ?_), ?_, ?_, ?_, ?_⟩
    · show ¬ (decide (s.link p u = lkDown) || decide (s.link p u = lkHeld)) = true
      rw [hl]; decide
    · have : (e.flushTx p u).link p u = e.link p u := by rw [State.link, State.rd, hf.regs_eq]; rfl
      rw [this, State.setLink_link]
      have hlen : held = decide (s.rd F.ETH_LINK_CFG_FLAP_MAX p ≤ ((s.sub p u).downs.filter (fun x => s.el < x + 10000000000)).length + 1) := by
        show decide (b.rd F.ETH_LINK_CFG_FLAP_MAX p ≤ ds.length) = _
        rw [hfm, List.length_append]; rfl
      rw [hlen]
      by_cases hh : s.rd F.ETH_LINK_CFG_FLAP_MAX p ≤ ((s.sub p u).downs.filter (fun x => s.el < x + 10000000000)).length + 1
      · rw [decide_eq_true hh, if_pos rfl, if_pos hh]; rfl
      · rw [decide_eq_false hh, if_neg Bool.false_ne_true, if_neg hh]; rfl
    · rw [State.rd, hf.regs_eq]
      refine (he.regs F.ETH_FLAP_CNT_CNT p u 0 (by decide)).trans ((State.rd_inc_same ..).trans ((cut_sat ..).trans ?_))
      rw [show m.rd F.ETH_FLAP_CNT_CNT p u = b.rd F.ETH_FLAP_CNT_CNT p u from rfl]
      simp (disch := decide) only [b, State.rd_inc_id]
    · rw [hf.sub_eq, State.sub, he.frame]
      exact congrArg SubX.paused (State.sub_putSub (s := b) p u { s.sub p u with downs := ds, heldAt := if held then s.el else (s.sub p u).heldAt, paused := [] })
    · rw [hf.frame, he.frame]; rfl

end Sys2Proof.Machine
end

section
/-! O5: the queue commands of a function (03 R81, R501; 02 R42). -/

namespace Sys2Proof.Machine

/-- Under a number that the table has something is found. -/
theorem find_ne_none {α : Type} {k : Nat} {t : Tab α} {v : α} (h : (k, v) ∈ t) : Tab.find k t ≠ none := by
  induction t with
  | nil => exact absurd h List.not_mem_nil
  | cons e t ih =>
    obtain ⟨j, w⟩ := e
    rw [Tab.find]
    split
    · exact Option.some_ne_none w
    · next hj =>
      rcases List.mem_cons.1 h with h | h
      · cases h; exact absurd rfl hj
      · exact ih h

namespace State
variable {s : State}

/-! ### Queues as a sender's command begins and ends -/

/-- A context that differs from another at most in what is outstanding and fetched. -/
def SameQ (x y : Queue) : Prop := y = { x with outst := y.outst, adm := y.adm }

/-- Lists of queues under the same numbers, each context the same but for what is outstanding and fetched. -/
def SameQs (s t : State) : Prop := ∃ g : Nat × Queue → Queue, t.sl.qs = s.sl.qs.map (fun e => (e.1, g e)) ∧ ∀ e, SameQ e.2 (g e)

theorem SameQs.refl (s : State) : SameQs s s := ⟨fun e => e.2, by simp, fun _ => rfl⟩

theorem SameQs.mapQ (s : State) (i : Nat) {f : Queue → Queue} (hf : ∀ q, SameQ q (f q)) : SameQs s (s.mapQ i f) := by
  refine ⟨fun e => if e.1 = i then f e.2 else e.2, ?_, fun e => ?_⟩
  · simp only [State.mapQ]
    refine List.map_congr_left fun e _ => ?_
    split <;> rfl
  · dsimp only
    split
    · exact hf _
    · rfl

theorem sameQs_admBegin (s : State) (o : Org) : SameQs s (s.admBegin o) := by
  unfold admBegin
  split
  · refine .mapQ s _ fun q => ?_
    split <;> rfl
  · exact .refl s

/-- A number that no queue has before it has none after, and the other way round. -/
theorem SameQs.find_none {t : State} (h : SameQs s t) (k : Nat) : Tab.find k t.sl.qs = none ↔ Tab.find k s.sl.qs = none := by
  obtain ⟨g, hg, -⟩ := h
  rw [hg]
  induction s.sl.qs with
  | nil => rfl
  | cons e l ih =>
    obtain ⟨j, q⟩ := e
    simp only [List.map_cons, Tab.find]
    split
    · simp
    · exact ih

theorem SameQs.freeIdx {t : State} (h : SameQs s t) : t.freeIdx = s.freeIdx := by
  unfold State.freeIdx
  congr 1
  funext i
  rw [Bool.eq_iff_iff, Option.isNone_iff_eq_none, Option.isNone_iff_eq_none]
  exact h.find_none i

/-- A test that does not look at what is outstanding and fetched says the same of both. -/
theorem SameQs.any {t : State} (h : SameQs s t) {p : Nat × Queue → Bool} (hp : ∀ i x y, SameQ x y → p (i, y) = p (i, x)) : t.sl.qs.any p = s.sl.qs.any p := by
  obtain ⟨g, hg, hs⟩ := h
  rw [hg, List.any_map]
  congr 1
  funext e
  exact hp _ _ _ (hs e)

theorem SameQs.find? {t : State} (h : SameQs s t) {p : Nat × Queue → Bool} (hp : ∀ i x y, SameQ x y → p (i, y) = p (i, x)) {i : Nat} {q : Queue}
    (hq : s.sl.qs.find? p = some (i, q)) : ∃ q', t.sl.qs.find? p = some (i, q') := by
  obtain ⟨g, hg, hs⟩ := h
  have : p ∘ (fun e : Nat × Queue => (e.1, g e)) = p := funext fun e => hp _ _ _ (hs e)
  exact ⟨g (i, q), by rw [hg, List.find?_map, this, hq]; rfl⟩

theorem admPost_qs (s : State) (o : Org) (c : Cpl) (p : Stamp) : (s.admPost o c p).sl.qs = s.sl.qs := by
  unfold admPost
  split
  · split
    · rw [postAdm_eq]
    · unfold hold; split <;> rfl
  · split
    · rw [sendQp_eq]
    · rfl
  · rfl

/-- Completing a command leaves each queue but for what is outstanding. -/
theorem sameQs_adm (s : State) (o : Org) (cid dw0 : Nat) (st : Nat × Nat) (data : List Nat) : SameQs s (s.adm o cid st dw0 data) := by
  obtain ⟨errs, n, r, hl, -⟩ := s.logErr_eq o cid st.1 st.2 none
  have h : SameQs s ((s.logErr o cid st.1 st.2 none).admLess o) := by
    have hq : (s.logErr o cid st.1 st.2 none).sl.qs = s.sl.qs := by rw [hl]
    unfold SameQs
    rw [← hq]
    unfold admLess
    split
    · exact SameQs.mapQ _ _ fun _ => rfl
    · exact SameQs.refl _
  unfold SameQs
  rw [adm, admPost_qs]
  exact h

theorem SameQs.keys {t : State} (h : SameQs s t) {p : Nat × Queue} (hp : p ∈ t.sl.qs) : ∃ e ∈ s.sl.qs, e.1 = p.1 := by
  obtain ⟨g, hg, -⟩ := h
  rw [hg] at hp
  obtain ⟨e, he, rfl⟩ := List.mem_map.1 hp
  exact ⟨e, he, rfl⟩

/-- Whose admin queue a context is does not lie in what is outstanding and fetched. -/
theorem SameQs.mem {t : State} (h : SameQs s t) {e : Nat × Queue} (he : e ∈ t.sl.qs) : ∃ q, (e.1, q) ∈ s.sl.qs ∧ SameQ q e.2 := by
  obtain ⟨g, hg, hs⟩ := h
  rw [hg] at he
  obtain ⟨f, hf, rfl⟩ := List.mem_map.1 he
  exact ⟨f.2, hf, hs f⟩

theorem SameQ.adminOf {x y : Queue} (h : SameQ x y) (o : Org) : adminOf o y = adminOf o x := by
  rw [h]
  cases o <;> rfl

/-- A served sender's command begins, and where it writes the slices' record alone and succeeds it completes. -/
theorem served {o : Org} (h : Served s o) (cid : Nat) : ∃ (b : State) (qs : Tab Queue), b = { s with sl := { s.sl with qs := qs } } ∧ SameQs s b ∧
    (∀ f : State → State, s.admin o cid f = f b) ∧ (∀ k, (s.admQ o).map (·.1) ≠ some k → Tab.find k qs = Tab.find k s.sl.qs) ∧
    (∀ sl : SliceSt, sl.qs = s.sl.qs → Completes { s with sl := sl } (({ s with sl := { sl with qs := qs } } : State).adm o cid stOk) o cid 0 []) ∧
    (∀ st dw0, Refuses s (b.adm o cid st dw0) o cid st dw0) := by
  obtain ⟨qs, hb, hu⟩ := s.admBegin_upd o
  refine ⟨_, qs, rfl, ?_, fun f => ?_, fun k hk => ?_, fun sl he => ?_, fun st dw0 => ?_⟩
  · rw [← hb]; exact s.sameQs_admBegin o
  · rw [admin_served h, hb]
  · have := find_admBegin hk
    rwa [hb] at this
  · rw [← hu sl he]
    exact adm_completes (s := { s with sl := sl }) h.2.1 cid 0 []
  · rw [← hb]
    exact adm_refuses h.2.1 cid st dw0

/-- With no command in flight and nothing queued for it, a queue is removed with its place in the slice's use. -/
theorem removeQueue_idle {i : Nat} (hc : s.zn.cmds = []) : (∀ p ∈ (s.removeQueue i).sl.qs, p ∈ s.sl.qs ∧ (Tab.find i s.sl.qs ≠ none → p.1 ≠ i)) ∧
    (∀ j, j ≠ i → Tab.find j (s.removeQueue i).sl.qs = Tab.find j s.sl.qs) ∧ (s.removeQueue i).zn = s.zn := by
  unfold removeQueue
  split
  · next h => exact ⟨fun p hp => ⟨hp, fun hn => absurd h hn⟩, fun _ _ => rfl, rfl⟩
  · next q h =>
    simp only [hc, List.filter_nil, List.foldl_nil]
    refine ⟨fun p hp => ?_, fun j hj => Tab.find_del_ne _ hj, ?_⟩
    · obtain ⟨hm, hne⟩ := List.mem_filter.1 hp
      exact ⟨hm, fun _ => by simpa using hne⟩
    · rw [← hc]; rfl

/-- The new queue's number is of no queue. -/
theorem freeIdx_none {i : Nat} (h : s.freeIdx = some i) : Tab.find i s.sl.qs = none := by
  unfold freeIdx at h
  exact Option.isNone_iff_eq_none.1 (List.find?_some (p := fun i => (Tab.find i s.sl.qs).isNone) h)

end State

/-- Settles O5. -/
theorem queueCreationDeletionComplete : Obligations.QueueCreationDeletionComplete := by
  refine ⟨fun o cid cqid qsize vec f s h hf h1 h2 hno q1 q2 hv ht => ?_, fun o cid qid qsize cqid bind lc base f i ff b s h hf h1 h2 hno q1 q2 hc hcq hb hlc hqp hi => ?_,
    fun o cid cqid f s h hf hc hcq hno => ?_, fun o cid cqid f s h hf hc hcq hus => ?_, fun o cid qid f i q s h hf hq hadm hcm => ?_⟩ <;>
    obtain ⟨m, qs, hm, hsame, hrun, hoth, hcpl, href⟩ := State.served h cid
  all_goals have hown := h.2.2.2.2.1
  · have ha : m.sl.cqs.any (fun c => decide (c.func = f) && decide (c.cqid = cqid)) = false := by
      rw [hm]
      exact List.any_eq_false.2 fun c hc => by simpa using hno c hc
    have hv' : m.vecTaken f vec = false := hm ▸ hv
    have ht' : ¬ vec ≥ m.vecTable f := hm ▸ Nat.not_le.2 ht
    have h2' : ¬ cqid > ioQueues := Nat.not_lt.2 h2
    have q2' : ¬ qsize > mqes := Nat.not_lt.2 q2
    refine ⟨_, congrArg Host.Outcome.next ((hrun _).trans ?_), hcpl { s.sl with cqs := s.sl.cqs ++ [⟨f, cqid, vec, qsize + 1, 0, 0⟩] } rfl⟩
    simp only [hf, ha, hv', ht', h2', q2', show ¬ cqid = 0 by omega, show ¬ qsize = 0 by omega, decide_false, Bool.or_self, Bool.false_eq_true, if_false]
    rw [hm]
  · have hq : m.sl.qs.any (fun e => !e.2.fabric && decide (e.2.func = f) && decide (e.2.qid = qid)) = false := by
      rw [hsame.any fun i x y hxy => by rw [hxy]]
      exact List.any_eq_false.2 fun e he => by simpa [and_assoc] using hno e he
    have ha : m.sl.cqs.any (fun c => decide (c.func = f) && decide (c.cqid = cqid)) = true := by rw [hm]; simpa using hcq
    have hb' : m.bindsOf f = [b] := hm ▸ hb
    have hlc' : bit (m.rd F.SLI_WEIGHT_LCMASK b.slice) lc = true := hm ▸ hlc
    have hqp' : m.qpFree b.slice = true := hm ▸ hqp
    have hi' : m.freeIdx = some i := hsame.freeIdx.trans hi
    have hg : m.nextGen i = s.nextGen i := by rw [hm]; rfl
    have h2' : ¬ qid > ioQueues := Nat.not_lt.2 h2
    have q2' : ¬ qsize > mqes := Nat.not_lt.2 q2
    let q : Queue := ⟨b.slice, b.idx, f, b.pasid, false, 0, 0, qid, lc, ff, s.nextGen i, cqid, qsize + 1, 0, 0, 0, 0, 0, false, [], base, []⟩
    have hadm (k : Nat) (hk : (s.admQ o).map (·.1) ≠ some k) : (((m.putQ i q).useQp b.slice).admQ o).map (·.1) ≠ some k := by
      refine State.admQ_ne fun e he had hek => hk ?_
      have he' : e ∈ Tab.put i q m.sl.qs := he
      simp only [Tab.put, List.mem_append, List.mem_filter, List.mem_singleton] at he'
      rcases he' with (⟨he, -⟩ | rfl) | ⟨he, -⟩
      · obtain ⟨x, hx, hxy⟩ := hsame.mem he
        exact (hown (e.1, x) hx ((hxy.adminOf o).symm.trans had)).trans (congrArg some hek)
      · exact absurd had (by cases o <;> simp [adminOf, q, show qid ≠ 0 by omega])
      · obtain ⟨x, hx, hxy⟩ := hsame.mem he
        exact (hown (e.1, x) hx ((hxy.adminOf o).symm.trans had)).trans (congrArg some hek)
    have hnew : (s.admQ o).map (·.1) ≠ some i := State.admQ_ne fun e he _ hek => find_ne_none (v := e.2) (hek ▸ he) (State.freeIdx_none hi)
    refine ⟨((m.putQ i q).useQp b.slice).adm o cid stOk, congrArg Host.Outcome.next ((hrun _).trans ?_), ?_, fun j hj hja => ?_, ?_, ?_, ?_, ?_⟩
    · simp only [hf, hq, ha, hb', hlc', hqp', hi', hg, hc, h2', q2', show ¬ qid = 0 by omega, show ¬ qsize = 0 by omega, decide_false, Bool.or_self, Bool.not_true,
        Bool.false_eq_true, if_false, List.length_singleton, if_true, List.head?_cons]
      rfl
    · rw [State.find_adm (hadm i hnew)]
      exact Tab.find_put_same ..
    · rw [State.find_adm (hadm j hja)]
      refine (Tab.find_put_ne _ _ hj).trans ?_
      rw [hm]
      exact hoth j hja
    · rw [State.rd, State.adm_ok_regs]
      exact (State.rd_wr_same ..).trans (by rw [hm]; rfl)
    · rw [State.adm_zn]; rw [hm]; rfl
    · refine (Keeps.addw (f := F.SLI_RES_USE_QP) (by decide) s 1 b.slice 0).trans (Keeps.of_regs ?_)
      rw [State.adm_ok_regs, hm]
      rfl
    · have hans := ((m.putQ i q).useQp b.slice).adm_answers o cid stOk 0 []
      have ho : ((m.putQ i q).useQp b.slice).outs = s.outs := by rw [hm]; rfl
      unfold Answers at *
      rwa [ho] at hans
  · have ha : m.sl.cqs.any (fun c => decide (c.func = f) && decide (c.cqid = cqid)) = true := by rw [hm]; simpa using hcq
    have hu : m.sl.qs.any (fun e => !e.2.fabric && decide (e.2.func = f) && decide (e.2.cqid = cqid)) = false := by
      rw [hsame.any fun i x y hxy => by rw [hxy]]
      exact List.any_eq_false.2 fun e he => by simpa [and_assoc] using hno e he
    refine ⟨_, congrArg Host.Outcome.next ((hrun _).trans ?_), hcpl { s.sl with cqs := s.sl.cqs.filter (fun c => !(c.func = f && c.cqid = cqid)) } rfl⟩
    simp only [hf, ha, hu, hc, decide_false, Bool.not_true, Bool.or_self, Bool.false_eq_true, if_false]
    rw [hm]
  · have ha : m.sl.cqs.any (fun c => decide (c.func = f) && decide (c.cqid = cqid)) = true := by rw [hm]; simpa using hcq
    have hu : m.sl.qs.any (fun e => !e.2.fabric && decide (e.2.func = f) && decide (e.2.cqid = cqid)) = true := by
      rw [hsame.any fun i x y hxy => by rw [hxy]]
      simpa [and_assoc] using hus
    refine ⟨_, congrArg Host.Outcome.next ((hrun _).trans ?_), href stQdel 0⟩
    simp only [hf, ha, hu, hc, decide_false, Bool.not_true, Bool.or_self, Bool.false_eq_true, if_false, if_true]
  · obtain ⟨q', hq'⟩ := hsame.find? (fun i x y hxy => by rw [hxy]) hq
    have hcm' : m.zn.cmds = [] := by rw [hm]; exact hcm
    obtain ⟨hmem, hfind, hzn⟩ := State.removeQueue_idle (s := m) (i := i) hcm'
    have hhere : Tab.find i m.sl.qs ≠ none := by
      rw [Ne, hsame.find_none]
      exact find_ne_none (List.mem_of_find?_eq_some hq)
    refine ⟨(m.removeQueue i).adm o cid stOk, congrArg Host.Outcome.next ((hrun _).trans ?_), fun p hp => ?_, fun j hj hja => ?_, ?_, 0, [], State.adm_replies ..⟩
    · simp only [hf, hq', hcm', List.filter_nil, List.foldl_nil]
    · obtain ⟨e, he, hk⟩ := (State.sameQs_adm ..).keys hp
      exact hk ▸ (hmem e he).2 hhere
    · rw [State.find_adm, hfind j hj, hm]
      · exact hoth j hja
      · refine State.admQ_ne fun e he had hek => hja ?_
        obtain ⟨x, hx, hxy⟩ := hsame.mem (hmem e he).1
        exact (hown (e.1, x) hx ((hxy.adminOf o).symm.trans had)).trans (congrArg some hek)
    · rw [State.adm_zn, hzn, hm]

end Sys2Proof.Machine
end

section
/-! SUPPORT. The scope of the end of a slice's work: commands, queues, associations and streams (02 R59, R61; 13 R304). -/

namespace Sys2Proof.Machine

/-- What ends with the work of a slice or an association. The namespaces, the journal, key generations and what waits for them are not among it. -/
def Scope.gone : Scope where
  merge s t := { s with
    regs := t.regs, evr := t.evr, fns := t.fns, outs := t.outs, ras := t.ras, net := t.net, cap := t.cap, die := t.die, rdn := t.rdn, assocs := t.assocs
    tim := { s.tim with saved := t.tim.saved }
    sl := { s.sl with qs := t.sl.qs, cqs := t.sl.cqs, ext := t.sl.ext, bg := t.sl.bg, vecs := t.sl.vecs, qgen := t.sl.qgen, waits := t.sl.waits }
    zn := { s.zn with cmds := t.zn.cmds, ghosts := t.zn.ghosts } }
  fields := [F.LGR_SL_DLMISS_CNT, F.SLI_STALE_CNT_CNT, F.ZON_ENT2_HOLD, F.ZON_ENT7_SEQ, F.ZON_HOLD_FAIL_CNT, F.SLI_RES_USE_QP, F.SLI_RES_USE_RCQP] ++ eventFields

/-- At most what ends with a slice's work changes. -/
def Bound.gone : Bound := Scope.gone.bound

namespace Only

theorem eventGone {s t : State} (h : Only .event s t) : Only .gone s t := h.widen (d := Scope.gone) (fun _ _ => rfl) (by decide)

theorem dropGone {s t : State} (h : Only .drop s t) : Only .gone s t := h.widen (d := Scope.gone) (fun _ _ => rfl) (by decide)

namespace Gone

-- So the unifier sees a match on an option as the recursor that `opt` speaks of.
set_option smartUnfolding false

variable (s : State)

theorem dropCmd (q cid : Nat) : Only .gone s (s.dropCmd q cid) := by
  unfold State.dropCmd
  exact upd rfl

theorem stale (slice : Nat) : Only .gone s (s.stale slice) := by
  unfold State.stale
  exact inc (by decide) ..

theorem putVec (v : VecSt) : Only .gone s (s.putVec v) := by
  unfold State.putVec
  exact upd rfl

theorem signal (func vec urg : Nat) (t : Stamp) : Only .gone s (s.signal func vec urg t) := by
  unfold State.signal
  exact .opt (fun _ => (.ite ((Event.send ..).eventGone.after (putVec ..)) (putVec ..))) (Event.send ..).eventGone

theorem fin (c : Cmd) (st : Nat × Nat) (dw0 : Nat) (data : List Nat) (die : Option Nat) : Only .gone s (s.fin c st dw0 data die) := by
  unfold State.fin
  exact .ite
    (.refl _)
    (.after
      (.ite
        (stale ..)
        (.after
          (.opt
            (fun _ =>
              (.after
                (.ite
                  (Event.sendQp ..).eventGone
                  (.ite (Event.hold ..).eventGone (.after (.opt (fun _ => (signal ..)) (.refl _)) ((Event.pushCq ..).eventGone.after (Event.send ..).eventGone))))
                (Event.putQ ..).eventGone))
            (.refl _))
          (.after (.ite (inc (by decide) ..) (.refl _)) (Event.logErr ..).eventGone)))
      (dropCmd ..))

theorem dropCtl (c : Ctl) : Only .gone s (s.dropCtl c) := by
  unfold State.dropCtl
  exact upd rfl

theorem failHeld (c : Cmd) (st : Nat × Nat) : Only .gone s (s.failHeld c st) := by
  unfold State.failHeld
  exact (fin ..).after ((Drop.zseq ..).dropGone.after ((dec (by decide) ..).after (inc (by decide) ..)))

theorem endCmds (n : Nat) (st : Nat × Nat) : Only .gone s (s.endCmds n st) := by
  unfold State.endCmds
  exact .after (.foldl (fun _ _ => ((Event.adm ..).eventGone.after (upd rfl)))) (.foldl (fun _ _ => (.ite (failHeld ..) (fin ..))))

theorem removeQueue (i : Nat) : Only .gone s (s.removeQueue i) := by
  unfold State.removeQueue
  exact .opt
    (fun _ =>
      ((dec (by decide) ..).after
        (.after (upd rfl) ((Drop.filterOps ..).dropGone.after (.after (upd rfl) (.foldl (fun _ _ => ((Drop.zseq ..).dropGone.after (dec (by decide) ..)))))))))
    (.refl _)

theorem dropCqs (qs : List Queue) : Only .gone s (s.dropCqs qs) := by
  unfold State.dropCqs
  exact upd rfl

theorem putQp (n : Nat) (x : Qp) : Only .gone s (s.putQp n x) := by
  unfold State.putQp
  exact upd rfl

theorem qpError (n : Nat) : Only .gone s (s.qpError n) := by
  unfold State.qpError
  exact .opt
    (fun _ =>
      (.ite
        (.refl _)
        (.after
          (.opt (fun _ => (Drop.dropMsg ..).dropGone) (.refl _))
          (.after (.opt (fun _ => (Drop.queueReset ..).dropGone) (.refl _)) (.after (upd rfl) (putQp ..))))))
    (.refl _)

theorem dropQp (n : Nat) : Only .gone s (s.dropQp n) := by
  unfold State.dropQp
  exact .opt (fun _ => (.after (.opt (fun _ => (dec (by decide) ..)) (.refl _)) (upd rfl))) (.refl _)

theorem endAssoc (a : Nat) : Only .gone s (s.endAssoc a) := by
  unfold State.endAssoc
  exact .after
    (upd rfl)
    ((dropCtl ..).after
      (.after (.foldl (fun _ _ => ((removeQueue ..).after (Drop.queueReset ..).dropGone))) (.foldl (fun _ _ => (qpError ..)))))


end Gone

end Only

end Sys2Proof.Machine
end

section
/-! O1: Slice Create, Resize and Delete (02 R39–R41, R48, R50, R57, R61). -/

namespace Sys2Proof.Machine

/-- Slices' records stay, but for the note that a slice had work in the epoch. -/
def Bound.exts : Bound where
  rel s t := ∀ n, ∃ b, t.sx n = { s.sx n with hadWork := b }
  refl s n := ⟨(s.sx n).hadWork, rfl⟩
  trans hab hbc n := by
    obtain ⟨b, hb⟩ := hab n
    obtain ⟨c, hc⟩ := hbc n
    exact ⟨c, by rw [hc, hb]⟩

namespace Only.Exts

-- So the unifier sees a match on an option as the recursor that `opt` speaks of.
set_option smartUnfolding false

theorem upd {s : State} {regs tim evr ras sl zn stg rdn die ftl fns assocs cip cap net pup pwr img gen kz pcx drc outs free pending}
    (h : sl.ext = s.sl.ext) : Only .exts s ⟨regs, tim, evr, ras, sl, zn, stg, rdn, die, ftl, fns, assocs, cip, cap, net, pup, pwr, img, gen,
      kz, pcx, drc, outs, free, pending⟩ := ⟨fun n => ⟨(s.sx n).hadWork, by simp only [State.sx, h]⟩⟩

variable (s : State)

theorem wr (f : Fld) (v i j p : Nat) : Only .exts s (s.wr f v i j p) := upd rfl

theorem inc (f : Fld) (i j n : Nat) : Only .exts s (s.inc f i j n) := upd rfl

theorem addw (f : Fld) (n i j : Nat) : Only .exts s (s.addw f n i j) := upd rfl

/-- A charge notes that its slice had work. -/
theorem noted (k : Nat) : Only .exts s (s.putSx k { s.sx k with hadWork := true }) := by
  refine ⟨fun n => ?_⟩
  by_cases h : n = k
  · subst h
    exact ⟨true, by simp only [State.putSx, State.sx, Tab.find_put_same]; rfl⟩
  · exact ⟨(s.sx n).hadWork, by simp only [State.putSx, State.sx, Tab.find_put_ne _ _ h]⟩

theorem send (o : Out) : Only .exts s (s.send o) := by
  unfold State.send
  exact upd rfl

theorem sendOn (p u pr : Nat) (qp : Option Nat) (o : Out) : Only .exts s (s.sendOn p u pr qp o) := by
  unfold State.sendOn
  exact .ite (upd rfl) (send ..)

theorem sendQp (n : Nat) (o : Out) : Only .exts s (s.sendQp n o) := by
  unfold State.sendQp
  exact .opt (fun _ => (sendOn ..)) (send ..)

theorem logErr (o : Org) (cid sct sc : Nat) (die : Option Nat) : Only .exts s (s.logErr o cid sct sc die) := by
  unfold State.logErr
  exact .after (.ite (upd rfl) (.refl _)) (.ite ((addw ..).after (upd rfl)) (.refl _))

theorem hold (func : Nat) (c : Cpl) (t : Stamp) : Only .exts s (s.hold func c t) := by
  unfold State.hold
  exact .opt (fun _ => (upd rfl)) (.refl _)

theorem mapQ (i : Nat) (f : Queue → Queue) : Only .exts s (s.mapQ i f) := by
  unfold State.mapQ
  exact upd rfl

theorem pushCq (func cqid : Nat) : Only .exts s (s.pushCq func cqid) := by
  unfold State.pushCq
  exact upd rfl

theorem postAdm (n : Nat) (c : Cpl) : Only .exts s (s.postAdm n c) := by
  unfold State.postAdm
  exact .after (.opt (fun _ => (send ..)) (.refl _)) ((pushCq ..).after (send ..))

theorem admLess (o : Org) : Only .exts s (s.admLess o) := by
  unfold State.admLess
  exact .opt (fun _ => (mapQ ..)) (.refl _)

theorem admPost (o : Org) (c : Cpl) (t : Stamp) : Only .exts s (s.admPost o c t) := by
  unfold State.admPost
  split
  · exact .ite (postAdm ..) (hold ..)
  · exact .opt (fun _ => (sendQp ..)) (send ..)
  · exact (send ..)

theorem adm (o : Org) (cid : Nat) (st : Nat × Nat) (dw0 : Nat) (data : List Nat) : Only .exts s (s.adm o cid st dw0 data) := by
  unfold State.adm
  exact (admPost ..).after ((admLess ..).after (logErr ..))

theorem putQ (i : Nat) (q : Queue) : Only .exts s (s.putQ i q) := by
  unfold State.putQ
  exact upd rfl

theorem charge (slice : Nat) (q : Option Nat) (c : Nat) : Only .exts s (s.charge slice q c) := by
  unfold State.charge
  exact .after (.opt (fun _ => (.opt (fun _ => (putQ ..)) (.refl _))) (.refl _)) ((noted ..).after ((wr ..).after (addw ..)))

theorem chargeBg (k c : Nat) : Only .exts s (s.chargeBg k c) := by
  unfold State.chargeBg
  exact .after (upd rfl) (charge ..)

theorem norWrite (kind part parts ns : Nat) (recs : List Rec) : Only .exts s (s.norWrite kind part parts ns recs) := by
  unfold State.norWrite
  exact (wr ..).after ((wr ..).after ((wr ..).after (upd rfl)))

theorem norCopy (kind ns : Nat) (recs : List Rec) : Only .exts s (s.norCopy kind ns recs) := by
  unfold State.norCopy
  exact .foldl (fun _ _ => (norWrite ..))

theorem faultFlush : Only .exts s s.faultFlush := by
  unfold State.faultFlush
  exact (inc ..).after ((norCopy ..).after (.after (upd rfl) ((chargeBg ..).after (upd rfl))))

theorem recAppend (code arg trig : Nat) (addrs : List Nat) (flush : Bool) : Only .exts s (s.recAppend code arg trig addrs flush) := by
  unfold State.recAppend
  exact .ite (inc ..) (.ite ((inc ..).after (wr ..)) (upd rfl))

theorem record (code arg : Nat) : Only .exts s (s.record code arg) := by
  unfold State.record
  exact .ite
    (.refl _)
    (.opt (fun _ => (.ite (.refl _) (.ite ((faultFlush ..).after (recAppend ..)) (recAppend ..)))) (recAppend ..))

theorem putView (v : EvView) : Only .exts s (s.putView v) := by
  unfold State.putView
  exact upd rfl

theorem notify (c : Ctl) (ty info page : Nat) : Only .exts s (s.notify c ty info page) := by
  unfold State.notify
  exact .opt (fun _ => ((adm ..).after (upd rfl))) (.ite (.refl _) (upd rfl))

theorem reportTo (cls : Nat) (c : Ctl) : Only .exts s (s.reportTo cls c) := by
  unfold State.reportTo
  exact .ite (.refl _) ((notify ..).after (putView ..))

theorem loseFor (c : Ctl) : Only .exts s (s.loseFor c) := by
  unfold State.loseFor
  exact (putView ..)

theorem raise (code slice arg : Nat) : Only .exts s (s.raise code slice arg) := by
  unfold State.raise
  exact .after
    (.foldl (fun _ _ => (reportTo ..)))
    (.after
      (.ite (send ..) (.refl _))
      ((record ..).after (.ite (upd rfl) (.after (.foldl (fun _ _ => (loseFor ..))) (inc ..)))))



end Only.Exts

namespace State
variable {s : State}

/-- A slice's limits change its two conditions, and report. -/
theorem limits_event (s : State) (n : Nat) : Only (Scope.event.also [F.SLI_STS_OVERQ, F.SLI_STS_AZOVER]).bound s (s.limits n) := by
  unfold limits
  refine .ite ?_ ((Only.wr (by decide) ..).after (Only.wr (by decide) ..))
  exact .after (.ite ((Only.Event.raise ..).also _) (.refl _)) ((Only.wr (by decide) ..).after (Only.wr (by decide) ..))

theorem limits_exts (s : State) (n : Nat) : Only .exts s (s.limits n) := by
  unfold limits
  refine .ite ?_ ((Only.Exts.wr ..).after (Only.Exts.wr ..))
  exact .after (.ite (Only.Exts.raise ..) (.refl _)) ((Only.Exts.wr ..).after (Only.Exts.wr ..))

/-- A slice's fields that apply at once, before its conditions are looked at anew. -/
def limitsGiven (s : State) (n : Nat) (v : List Nat) : State :=
  let s := s.wr F.SLI_CAP_QUOTA_UNITS (v.getD 0 0) n
  let s := s.wr F.SLI_WEIGHT_LCMASK (v.getD 4 0) n
  let s := s.wr F.SLI_AZ_LIMIT (v.getD 5 0) n
  let s := s.wr F.SLI_AZ_SRAM_RSV (v.getD 6 0) n
  let s := s.wr F.SLI_RES_QP (v.getD 7 0) n
  let s := s.wr F.SLI_RES_RCQP (v.getD 8 0) n
  let s := s.wr F.SLI_NS_ALLOC (v.getD 9 0) n
  let s := s.wr F.SLI_DGMAP_MAP (v.getD 12 0) n
  s.putSx n { s.sx n with keySlots := v.getD 10 0, xltLim := v.getD 11 0 }

theorem setLimits_eq (s : State) (n : Nat) (v : List Nat) : s.setLimits n v = (s.limitsGiven n v).limits n := by
  unfold setLimits limitsGiven
  rfl

/-- Registers of a slice that its limits do not set. -/
theorem setLimits_rd {f : Fld} {n : Nat} {v : List Nat} (h : ∀ g ∈ [F.SLI_STS_OVERQ, F.SLI_STS_AZOVER] ++ eventFields, f.id ≠ g.id) :
    (s.setLimits n v).rd f n = (s.limitsGiven n v).rd f n := by
  rw [setLimits_eq]
  exact (limits_event (s.limitsGiven n v) n).regs f n 0 0 h

/-! ### Create -/

/-- A FREE slice as a Create makes it, before its limits: its generation, its record, its state and its rates. -/
def sliceMade (s : State) (n : Nat) (v : List Nat) : State :=
  let s := if (s.sx n).used then s.addw F.SLI_GEN_GEN 1 n else s
  let s := s.putSx n { SliceX.fresh with used := true, bIn := v.getD 1 0 * 100000, bEg := v.getD 2 0 * 100000 }
  ((s.wr F.SLI_STS_STATE slActive n).wr F.SLI_STS_FENCE_RSN 0 n).setRates n (v.getD 3 0) (v.getD 1 0) (v.getD 2 0)

theorem create_eq {o : Org} {cid n : Nat} {desc : List Nat} (hd : s.descFault n false desc = none)
    (hg : (s.sx n).used = true → s.stamped true n (cut 16 (s.rd F.SLI_GEN_GEN n + 1)) = false) : s.create o cid n desc =
      (((((s.sliceMade n (s.wanted n false desc)).setLimits n (s.wanted n false desc)).wr F.LGR_SL_CHG_CHG 0 n).wr F.LGR_SL_NORM_N 0 n)).adm o cid stOk := by
  have hno : ((s.sx n).used && s.stamped true n (cut 16 (s.rd F.SLI_GEN_GEN n + 1))) = false := by
    cases hu : (s.sx n).used
    · rfl
    · exact hg hu
  unfold sliceMade
  simp only [create, hd, hno, Bool.false_eq_true, if_false]

/-! ### Resize -/

theorem giveSram_sl (s : State) (h : Nat) (r : Bool) : (s.giveSram h r).sl = s.sl := by
  unfold giveSram
  rfl

/-- Zones that get a parity slot of SRAM leave the slices' records. -/
theorem promote_sl (s : State) : s.promote.sl = s.sl := by
  unfold promote
  refine foldl_keeps (P := fun t => t.sl = s.sl) (fun t h ht => ?_) _ _ rfl
  split
  · split
    · exact (giveSram_sl ..).trans ht
    · exact ht
  · exact ht

/-! ### Delete -/

theorem del_none {α : Type} {k : Nat} {t : Tab α} (h : Tab.find k t = none) : Tab.del k t = t := by
  refine List.filter_eq_self.2 fun e he => ?_
  have : e.1 ≠ k := fun hk => find_ne_none (v := e.2) (hk ▸ he) h
  simpa using this

/-- A queue that is removed takes its context with it, and no other's. -/
theorem removeQueue_qs (s : State) (i : Nat) : (s.removeQueue i).sl.qs = Tab.del i s.sl.qs := by
  unfold removeQueue
  split
  · next h => exact (del_none h).symm
  · next q h =>
    have hf (l : List Cmd) (t : State) : (l.foldl (fun (s : State) c => (s.dec F.ZON_ENT2_HOLD c.zone).zseq c.zone) t).sl = t.sl :=
      foldl_keeps (P := fun u => u.sl = t.sl) (f := fun (s : State) (c : Cmd) => (s.dec F.ZON_ENT2_HOLD c.zone).zseq c.zone) (fun _ _ hu => hu) _ _ rfl
    show Tab.del i (State.sl _).qs = _
    simp only [filterOps, hf]

theorem removeQueues_mem {e : Nat × Queue} (l : List Nat) (s : State) (h : e ∈ (l.foldl State.removeQueue s).sl.qs) : e ∈ s.sl.qs ∧ e.1 ∉ l := by
  induction l generalizing s with
  | nil => exact ⟨h, List.not_mem_nil⟩
  | cons i l ih =>
    obtain ⟨hm, hn⟩ := ih _ h
    rw [removeQueue_qs] at hm
    obtain ⟨hm, hi⟩ := List.mem_filter.1 hm
    exact ⟨hm, by simp only [List.mem_cons, not_or]; exact ⟨by simpa using hi, hn⟩⟩

/-- With all its queues removed a slice has none. -/
theorem cleared_qs (s : State) (n : Nat) (l : List Queue) (keep : DOp → Bool) :
    ∀ e ∈ ((((s.queuesOf n).foldl State.removeQueue s).dropCqs l).filterOps keep).sl.qs, e.2.slice ≠ n := by
  intro e he hs
  obtain ⟨hm, hn⟩ := removeQueues_mem _ s he
  exact hn (List.mem_map.2 ⟨e, List.mem_filter.2 ⟨hm, decide_eq_true hs⟩, rfl⟩)

/-- The scope of what a Delete ends at once. -/
def deleteScope : Scope := Scope.gone.also [F.SLI_STS_OVERQ, F.SLI_STS_AZOVER]

/-- A stream of the slice ends with a Delete, its Stop being answered. -/
theorem streamsEnd_gone (l : List (Nat × Stream)) (t : State) : Only .gone t (l.foldl (fun s e =>
    let s := match e.2.stop with
      | some (o, c) => s.adm o c stOk
      | none => s
    { s with cap := { s.cap with streams := Tab.del e.1 s.cap.streams, blks := s.cap.blks.filter (fun b => b.stream != e.1) } }) t) := by
  refine .foldl fun s e => ?_
  dsimp only
  refine Only.after (Only.upd rfl) ?_
  split
  · exact (Only.Event.adm ..).eventGone
  · exact .refl _

/-- A Delete of a served manager ends the slice's work (02 R61 step 1), advances its namespaces' keys and waits for them. -/
theorem sliceDelete_eq {o : Org} {n : Nat} (hm : Manages s o) (h1 : 1 ≤ n) (hn : n < 1024) (ha : s.slState n = slActive ∨ s.slState n = slFenced)
    (ht : s.tailFull = false) (cid : Nat) : ∃ (qs : Tab Queue) (t e : State), execSliceDelete o cid n s = .next t ∧
      Only deleteScope.bound (({ s with sl := { s.sl with qs := qs } } : State).wr F.SLI_STS_STATE slDeleting n) e ∧
      (∀ q ∈ e.sl.qs, q.2.slice ≠ n) ∧
      t = (let m := ((e.zn.ns.filter (fun x => x.2.slice = n)).map (·.1)).foldl (fun (s : State) i => s.advance n i) e
        ({ m with sl := { m.sl with dels := m.sl.dels ++ [(n, o, cid)] } } : State)).resumeDels := by
  obtain ⟨qs, hb⟩ := s.admBegin_eq o
  have hchk : ({ s with sl := { s.sl with qs := qs } } : State).sliceChk o n [slActive, slFenced] false = none :=
    sliceChk_pass (s := s) hm.2.1 hn (.inl (by omega)) (by simpa using ha)
  have hrun := managed_run hm cid
  rw [hb] at hrun
  refine ⟨qs, ?_⟩
  generalize ({ s with sl := { s.sl with qs := qs } } : State) = b at hchk hrun
  have ht' : ¬ s.tailFull = true := by rw [ht]; exact Bool.false_ne_true
  unfold execSliceDelete
  rw [if_neg ht', hrun]
  split
  · next st h => rw [hchk] at h; exact nomatch h
  · refine ⟨_, _, rfl, ?_, ?_, rfl⟩
    · have hlim : Only deleteScope.bound (b.wr F.SLI_STS_STATE slDeleting n) ((b.wr F.SLI_STS_STATE slDeleting n).limits n) :=
        (limits_event ..).widen (d := deleteScope) (fun _ _ => rfl) (by decide)
      refine Only.after (Only.also ?_ _) hlim
      exact (Only.Drop.filterOps ..).dropGone.after ((Only.Gone.dropCqs ..).after ((Only.foldl Only.Gone.removeQueue).after ((Only.foldl Only.Gone.dropQp).after
        ((Only.foldl Only.Gone.endAssoc).after ((streamsEnd_gone ..).after (Only.Gone.endCmds ..))))))
    · exact cleared_qs _ _ _ _

/-- Where nothing else waits for key generations, a Delete whose own advances are persistent ends at once. -/
theorem resumeDels_ends {n cid : Nat} {o : Org} (he : s.cip.erases = []) (hd : s.sl.dels = [(n, o, cid)]) (ha : s.advancing n = false) :
    s.resumeDels = (({ s with sl := { s.sl with dels := [] } } : State).endDelete n).adm o cid stOk := by
  have hr : s.resumeErases = s := by rw [resumeErases, he]; rfl
  unfold resumeDels
  rw [hr, hd, List.foldl_cons, List.foldl_nil]
  simp only [ha, Bool.false_eq_true, if_false, hd]
  simp

theorem resumeDels_waits {n cid : Nat} {o : Org} (he : s.cip.erases = []) (hd : s.sl.dels = [(n, o, cid)]) (ha : s.advancing n = true) :
    s.resumeDels = s := by
  have hr : s.resumeErases = s := by rw [resumeErases, he]; rfl
  unfold resumeDels
  rw [hr, hd, List.foldl_cons, List.foldl_nil]
  simp only [ha, if_true]

/-- The slice as it is left at the end of its Delete, no namespace being there. -/
theorem endDelete_free {n : Nat} (hns : s.zn.ns.filter (fun e => e.2.slice = n) = []) : (s.endDelete n).slState n = slFree ∧
    (s.endDelete n).rd F.SLI_STS_FENCE_RSN n = 0 ∧ (s.endDelete n).rd F.SLI_CAP_USED_UNITS n = 0 ∧ (s.endDelete n).rd F.SLI_CAP_QUOTA_UNITS n = 0 ∧
    (∀ b ∈ (s.endDelete n).sl.fbind, b.slice ≠ n) ∧ (∀ b ∈ (s.endDelete n).sl.nbind, b.slice ≠ n) ∧ (∀ e ∈ (s.endDelete n).sl.xlt, e.slice ≠ n) ∧
    ((s.endDelete n).sx n).used = true := by
  let a : State := { s with sl := { s.sl with
    fbind := s.sl.fbind.filter (fun b => b.slice != n)
    nbind := s.sl.nbind.filter (fun b => b.slice != n)
    xlt := s.sl.xlt.filter (fun e => e.slice != n) } }
  let c := (a.setRates n 0 0 0).setLimits n []
  have he : s.endDelete n = (((c.wr F.SLI_CAP_USED_UNITS 0 n).putSx n { SliceX.fresh with used := true }).wr F.SLI_STS_STATE slFree n).wr F.SLI_STS_FENCE_RSN 0 n := by
    unfold endDelete
    rw [hns]
    rfl
  have hc : Only (Scope.event.also [F.SLI_STS_OVERQ, F.SLI_STS_AZOVER]).bound ((a.setRates n 0 0 0).limitsGiven n []) c := by
    show Only _ _ (setLimits _ _ _)
    rw [setLimits_eq]
    exact limits_event ..
  have hsl : c.sl.fbind = a.sl.fbind ∧ c.sl.nbind = a.sl.nbind ∧ c.sl.xlt = a.sl.xlt := by
    rw [hc.frame]
    exact ⟨rfl, rfl, rfl⟩
  have hq : c.rd F.SLI_CAP_QUOTA_UNITS n = 0 := by
    refine (hc.regs F.SLI_CAP_QUOTA_UNITS n 0 0 (by decide)).trans ?_
    simp (disch := decide) only [limitsGiven, putSx_rd, rd_wr_id, rd_wr_same]
    rfl
  rw [he]
  refine ⟨?_, rd_wr_same .., ?_, ?_, fun b hb => ?_, fun b hb => ?_, fun e hx => ?_, ?_⟩
  · exact (rd_wr_id _ _ _ _ _ _ _ _ _ _ (by decide)).trans (rd_wr_same ..)
  · simp (disch := decide) only [rd_wr_id, putSx_rd, rd_wr_same]; rfl
  · simp (disch := decide) only [rd_wr_id, putSx_rd]; exact hq
  · have : b ∈ c.sl.fbind := hb
    rw [hsl.1] at this
    simpa using (List.mem_filter.1 this).2
  · have : b ∈ c.sl.nbind := hb
    rw [hsl.2.1] at this
    simpa using (List.mem_filter.1 this).2
  · have : e ∈ c.sl.xlt := hx
    rw [hsl.2.2] at this
    simpa using (List.mem_filter.1 this).2
  · simp only [wr_sl, putSx, sx, Tab.find_put_same]
    rfl

/-- Advances of key generations are journalled, and nothing else changes. -/
theorem advances_eq (n : Nat) (l : List Nat) (s : State) : ∃ ftl, l.foldl (fun (s : State) i => s.advance n i) s = { s with ftl := ftl } ∧
    (l ≠ [] → ({ s with ftl := ftl } : State).advancing n = true) := by
  have key : ∀ (l : List Nat) (s : State), (∃ ftl, l.foldl (fun (s : State) i => s.advance n i) s = { s with ftl := ftl }) ∧
      ∀ e ∈ s.ftl.jtail, e ∈ (l.foldl (fun (s : State) i => s.advance n i) s).ftl.jtail := by
    intro l
    induction l with
    | nil => exact fun s => ⟨⟨s.ftl, rfl⟩, fun e he => he⟩
    | cons i l ih =>
      intro s
      obtain ⟨⟨ftl, hf⟩, hmem⟩ := ih (s.advance n i)
      exact ⟨⟨ftl, by rw [List.foldl_cons, hf]; rfl⟩, fun e he => hmem e (List.mem_append_left _ he)⟩
  obtain ⟨⟨ftl, hf⟩, -⟩ := key l s
  refine ⟨ftl, hf, fun hl => ?_⟩
  cases l with
  | nil => exact absurd rfl hl
  | cons i l =>
    have hin := (key l (s.advance n i)).2 _ (List.mem_append_right _ List.mem_cons_self)
    rw [List.foldl_cons] at hf
    rw [hf] at hin
    have : (({ s with ftl := ftl } : State).advPend n none) ≠ [] := by
      refine List.ne_nil_of_mem (a := min (s.nextKey n i) (2 ^ 32)) (List.mem_filterMap.2 ⟨_, List.mem_append_left _ hin, ?_⟩)
      simp
    unfold advancing
    cases h : ({ s with ftl := ftl } : State).advPend n none with
    | nil => exact absurd h this
    | cons a t => rfl

/-- What a Create that is met writes (02 R41, R61). -/
theorem sliceMade_limits (b : State) (n : Nat) (v : List Nat) :
    let t := (b.sliceMade n v).setLimits n v
    t.slState n = slActive ∧ t.rd F.SLI_STS_FENCE_RSN n = 0 ∧ t.rd F.SLI_CAP_QUOTA_UNITS n = cut F.SLI_CAP_QUOTA_UNITS.w (v.getD 0 0) ∧
    t.rd F.SLI_BW_INGRESS n = cut F.SLI_BW_INGRESS.w (v.getD 1 0) ∧ t.rd F.SLI_BW_EGRESS n = cut F.SLI_BW_EGRESS.w (v.getD 2 0) ∧
    t.rd F.SLI_WEIGHT_WEIGHT n = cut F.SLI_WEIGHT_WEIGHT.w (v.getD 3 0) ∧ t.rd F.SLI_WEIGHT_LCMASK n = cut F.SLI_WEIGHT_LCMASK.w (v.getD 4 0) ∧
    t.rd F.SLI_RES_QP n = cut F.SLI_RES_QP.w (v.getD 7 0) ∧
    t.rd F.SLI_GEN_GEN n = (if (b.sx n).used then cut F.SLI_GEN_GEN.w (b.rd F.SLI_GEN_GEN n + 1) else b.rd F.SLI_GEN_GEN n) := by
  have hgen : (if (b.sx n).used then b.addw F.SLI_GEN_GEN 1 n else b).rd F.SLI_GEN_GEN n =
      if (b.sx n).used then cut F.SLI_GEN_GEN.w (b.rd F.SLI_GEN_GEN n + 1) else b.rd F.SLI_GEN_GEN n := by
    split
    · exact rd_wr_same ..
    · rfl
  intro t
  refine ⟨?_, ?_, ?_, ?_, ?_, ?_, ?_, ?_, ?_⟩ <;>
    refine (setLimits_rd (by decide)).trans ?_ <;>
    simp (disch := decide) only [limitsGiven, sliceMade, setRates, putSx_rd, rd_wr_id, rd_wr_same]
  · rfl
  · rfl
  · exact hgen

theorem limitsGiven_keeps (a : State) (n : Nat) (v : List Nat) :
    (a.limitsGiven n v).zn = a.zn ∧ (a.limitsGiven n v).ftl = a.ftl ∧ (a.limitsGiven n v).stg = a.stg := by
  simp only [limitsGiven, putSx_zn, wr_zn, putSx_ftl, wr_ftl, putSx_stg, wr_stg, and_self]

theorem setLimits_keeps (a : State) (n : Nat) (v : List Nat) :
    (a.setLimits n v).zn = a.zn ∧ (a.setLimits n v).ftl = a.ftl ∧ (a.setLimits n v).stg = a.stg := by
  obtain ⟨h₁, h₂, h₃⟩ := limitsGiven_keeps a n v
  have h := (limits_event (a.limitsGiven n v) n).frame
  rw [setLimits_eq]
  generalize (a.limitsGiven n v).limits n = t, a.limitsGiven n v = m at h h₁ h₂ h₃ ⊢
  rw [h]
  exact ⟨h₁, h₂, h₃⟩

theorem sliceMade_keeps (b : State) (n : Nat) (v : List Nat) : ((b.sliceMade n v).setLimits n v).zn = b.zn ∧ ((b.sliceMade n v).setLimits n v).ftl = b.ftl ∧
    ((b.sliceMade n v).setLimits n v).stg = b.stg := by
  have hm : (b.sliceMade n v).zn = b.zn ∧ (b.sliceMade n v).ftl = b.ftl ∧ (b.sliceMade n v).stg = b.stg := by
    simp only [sliceMade, setRates, putSx_zn, wr_zn, putSx_ftl, wr_ftl, putSx_stg, wr_stg]
    split <;> exact ⟨rfl, rfl, rfl⟩
  obtain ⟨h₁, h₂, h₃⟩ := setLimits_keeps (b.sliceMade n v) n v
  obtain ⟨g₁, g₂, g₃⟩ := hm
  exact ⟨h₁.trans g₁, h₂.trans g₂, h₃.trans g₃⟩

/-- What a Resize that is met leaves at once, and what it leaves for the next epoch (02 R41). -/
theorem resized (b : State) (n : Nat) (v : List Nat) (x : SliceX) :
    let t := ((b.putSx n x).setLimits n v).promote
    t.slState n = b.slState n ∧ t.rd F.SLI_CAP_QUOTA_UNITS n = cut F.SLI_CAP_QUOTA_UNITS.w (v.getD 0 0) ∧
    t.rd F.SLI_WEIGHT_WEIGHT n = b.rd F.SLI_WEIGHT_WEIGHT n ∧ t.rd F.SLI_BW_INGRESS n = b.rd F.SLI_BW_INGRESS n ∧ t.rd F.SLI_GEN_GEN n = b.rd F.SLI_GEN_GEN n ∧
    (t.sx n).pendWeight = x.pendWeight ∧ (t.sx n).pendIn = x.pendIn ∧ t.zn.ud = b.zn.ud ∧ t.zn.ns = b.zn.ns := by
  intro t
  have hp := Only.Work.promote ((b.putSx n x).setLimits n v)
  have hrd (f : Fld) (h₁ : ∀ g ∈ mediaFields, f.id ≠ g.id) (h₂ : ∀ g ∈ [F.SLI_STS_OVERQ, F.SLI_STS_AZOVER] ++ eventFields, f.id ≠ g.id) :
      t.rd f n = ((b.putSx n x).limitsGiven n v).rd f n := (hp.regs f n 0 0 h₁).trans (setLimits_rd h₂)
  have hx : ∃ c, t.sx n = { x with keySlots := v.getD 10 0, xltLim := v.getD 11 0, hadWork := c } := by
    obtain ⟨c, hc⟩ := (limits_exts ((b.putSx n x).limitsGiven n v) n).rel n
    refine ⟨c, ?_⟩
    rw [show t.sx n = ((b.putSx n x).setLimits n v).sx n by simp only [t, sx, promote_sl], setLimits_eq, hc]
    have h1 : ((b.putSx n x).limitsGiven n v).sx n = { x with keySlots := v.getD 10 0, xltLim := v.getD 11 0 } := by
      simp only [limitsGiven, putSx, sx, wr_sl, Tab.find_put_same]
      rfl
    rw [h1]
  obtain ⟨c, hc⟩ := hx
  have hz : t.zn.ud = b.zn.ud ∧ t.zn.ns = b.zn.ns := by
    rw [show t = _ from hp.frame]
    show ((b.putSx n x).setLimits n v).zn.ud = _ ∧ ((b.putSx n x).setLimits n v).zn.ns = _
    rw [setLimits_eq, (limits_event ..).frame]
    exact ⟨rfl, rfl⟩
  refine ⟨?_, ?_, ?_, ?_, ?_, by rw [hc], by rw [hc], hz.1, hz.2⟩ <;>
    refine (hrd _ (by decide) (by decide)).trans ?_ <;>
    simp (disch := decide) only [limitsGiven, putSx_rd, rd_wr_id, rd_wr_same]
  rfl

end State

/-- Settles O1. -/
theorem sliceCreateResizeDeleteComplete : Obligations.SliceCreateResizeDeleteComplete := by
  refine ⟨fun o cid n desc s hm h1 hn hf hd hg => ?_, fun o cid n desc s hm hn ha hd => ?_,
    fun o cid n s hm h1 hn ha ht => ⟨fun hadv hns hdel her => ?_, fun hns hdel her => ?_⟩⟩
  · obtain ⟨b, qs, hb, hrun, -⟩ := State.managed hm cid
    have hchk : b.sliceChk o n [slFree] false = none := hb ▸ State.sliceChk_pass (s := s) hm.2.1 hn (.inl (by omega)) (List.mem_singleton.2 hf)
    have hused : b.sx n = s.sx n ∧ b.rd F.SLI_GEN_GEN n = s.rd F.SLI_GEN_GEN n ∧ b.zn = s.zn ∧ b.ftl = s.ftl ∧ b.stg = s.stg := by rw [hb]; exact ⟨rfl, rfl, rfl, rfl, rfl⟩
    obtain ⟨e1, e2, e3, e4, e5⟩ := hused
    let v := s.wanted n false desc
    let c := (b.sliceMade n v).setLimits n v
    let d := (c.wr F.LGR_SL_CHG_CHG 0 n).wr F.LGR_SL_NORM_N 0 n
    have hw : b.wanted n false desc = v := by rw [hb]; rfl
    have hc : b.create o cid n desc = d.adm o cid stOk := by
      rw [State.create_eq (s := b) (hb ▸ hd) (hb ▸ hg), hw]
    obtain ⟨k1, k2, k3, k4, k5, k6, k7, k8, k9⟩ := State.sliceMade_limits b n v
    obtain ⟨z1, z2, z3⟩ := State.sliceMade_keeps b n v
    obtain ⟨hz, hs, -, -, hf, -⟩ := (Told.adm (s := d) o cid stOk 0 []).fields
    have hrd (f : Fld) (h₁ : f.id ≠ F.RAS_ERRLOG_COUNT.id) (h₂ : f.id ≠ F.LGR_SL_NORM_N.id) (h₃ : f.id ≠ F.LGR_SL_CHG_CHG.id) :
        (d.adm o cid stOk).rd f n = c.rd f n :=
      (State.adm_rd _ _ _ _ _ _ f n 0 0 h₁).trans ((State.rd_wr_id _ _ _ _ _ _ _ _ _ _ h₂).trans (State.rd_wr_id _ _ _ _ _ _ _ _ _ _ h₃))
    rw [e1, e2] at k9
    refine ⟨d.adm o cid stOk, congrArg Host.Outcome.next ((if_neg (by decide)).trans ((hrun _).trans ?_)), (hrd F.SLI_STS_STATE (by decide) (by decide) (by decide)).trans k1,
      (hrd _ (by decide) (by decide) (by decide)).trans k2, (hrd _ (by decide) (by decide) (by decide)).trans k3,
      (hrd _ (by decide) (by decide) (by decide)).trans k4, (hrd _ (by decide) (by decide) (by decide)).trans k5,
      (hrd _ (by decide) (by decide) (by decide)).trans k6, (hrd _ (by decide) (by decide) (by decide)).trans k7,
      (hrd _ (by decide) (by decide) (by decide)).trans k8, (hrd _ (by decide) (by decide) (by decide)).trans k9,
      hz.trans (z1.trans e3), hf.trans (z2.trans e4), hs.trans (z3.trans e5), 0, [], State.adm_replies ..⟩
    refine (if_neg (by decide)).trans ?_
    rw [← hc, State.tryCreate, hchk]
  · obtain ⟨b, qs, hb, hrun, -⟩ := State.managed hm cid
    have hchk : b.sliceChk o n [slActive] true = none := hb ▸ State.sliceChk_pass (s := s) hm.2.1 hn (.inr rfl) (List.mem_singleton.2 ha)
    have hd' : b.descFault n true desc = none := hb ▸ hd
    have hw : b.wanted n true desc = s.wanted n true desc := by rw [hb]; rfl
    have hbs : b.sx n = s.sx n ∧ b.slState n = s.slState n ∧ b.zn = s.zn ∧ ∀ f, b.rd f n = s.rd f n := by rw [hb]; exact ⟨rfl, rfl, rfl, fun _ => rfl⟩
    obtain ⟨e1, e2, e3, e4⟩ := hbs
    let v := s.wanted n true desc
    let x := { s.sx n with pendWeight := some (v.getD 3 0), pendIn := some (v.getD 1 0), pendEg := some (v.getD 2 0), pendLc := true }
    obtain ⟨k1, k2, k3, k4, k5, k6, k7, k8, k9⟩ := State.resized b n v x
    let t := ((b.putSx n x).setLimits n v).promote
    have hext : ∃ c, (t.adm o cid stOk).sx n = { t.sx n with hadWork := c } := (Only.Exts.adm t o cid stOk 0 []).rel n
    obtain ⟨c, hc⟩ := hext
    have hz : (t.adm o cid stOk).zn = t.zn := State.adm_zn ..
    have hrd (f : Fld) (h₁ : f.id ≠ F.RAS_ERRLOG_COUNT.id) : (t.adm o cid stOk).rd f n = t.rd f n := State.adm_rd _ _ _ _ _ _ f n 0 0 h₁
    refine ⟨t.adm o cid stOk, congrArg Host.Outcome.next ((hrun _).trans ?_), (hrd F.SLI_STS_STATE (by decide)).trans (k1.trans (e2.trans ha)), (hrd _ (by decide)).trans k2,
      (hrd _ (by decide)).trans (k3.trans (e4 _)), (hrd _ (by decide)).trans (k4.trans (e4 _)), by rw [hc]; exact k6, by rw [hc]; exact k7,
      (hrd _ (by decide)).trans (k5.trans (e4 _)), by rw [hz, k8, e3], by rw [hz, k9, e3], 0, [], State.adm_replies ..⟩
    simp only [hchk, hd', hw, e1]
    rfl
  · obtain ⟨qs, t, e, hrun, hgone, hqs, ht⟩ := State.sliceDelete_eq hm h1 hn ha ht cid
    have hnil : e.zn.ns.filter (fun x => x.2.slice = n) = [] := by
      rw [hgone.frame]
      exact List.filter_eq_nil_iff.2 fun x hx => by simpa using hns x hx
    have hcip : e.cip = s.cip ∧ e.sl.dels = s.sl.dels ∧ e.ftl = s.ftl := by rw [hgone.frame]; exact ⟨rfl, rfl, rfl⟩
    let m : State := { e with sl := { e.sl with dels := [(n, o, cid)] } }
    have hadv' : m.advancing n = false := by
      rw [← hadv, State.advancing, State.advancing, State.advPend, State.advPend, show m.ftl = s.ftl from hcip.2.2]
    have hm' : t = (({ m with sl := { m.sl with dels := [] } } : State).endDelete n).adm o cid stOk := by
      rw [ht, hnil, List.map_nil, List.foldl_nil]
      dsimp only
      rw [hcip.2.1, hdel]
      exact State.resumeDels_ends (s := m) (by show e.cip.erases = []; rw [hcip.1]; exact her) rfl hadv'
    obtain ⟨k1, k2, k3, k4, k5, k6, k7, k8⟩ := State.endDelete_free (s := { m with sl := { m.sl with dels := [] } }) (n := n) hnil
    refine ⟨t, hrun, ?_⟩
    generalize ({ m with sl := { m.sl with dels := [] } } : State).endDelete n = d at hm' k1 k2 k3 k4 k5 k6 k7 k8
    subst hm'
    have hrd (f : Fld) (h₁ : f.id ≠ F.RAS_ERRLOG_COUNT.id) : (d.adm o cid stOk).rd f n = d.rd f n := State.adm_rd _ _ _ _ _ _ f n 0 0 h₁
    have hsl : (d.adm o cid stOk).sl.fbind = d.sl.fbind ∧ (d.adm o cid stOk).sl.nbind = d.sl.nbind ∧ (d.adm o cid stOk).sl.xlt = d.sl.xlt := by
      rw [(Only.Event.adm d o cid stOk 0 []).frame]
      exact ⟨rfl, rfl, rfl⟩
    obtain ⟨c, hc⟩ := (Only.Exts.adm d o cid stOk 0 []).rel n
    refine ⟨(hrd F.SLI_STS_STATE (by decide)).trans k1, (hrd _ (by decide)).trans k2, (hrd _ (by decide)).trans k3, (hrd _ (by decide)).trans k4, ?_, ?_, ?_, ?_,
      0, [], State.adm_replies ..⟩
    · rw [hsl.1]; exact k5
    · rw [hsl.2.1]; exact k6
    · rw [hsl.2.2]; exact k7
    · rw [hc]; exact k8
  · obtain ⟨qs, t, e, hrun, hgone, hqs, ht⟩ := State.sliceDelete_eq hm h1 hn ha ht cid
    have hne : (e.zn.ns.filter (fun x => x.2.slice = n)).map (·.1) ≠ [] := by
      rw [hgone.frame]
      obtain ⟨x, hx, hs⟩ := hns
      exact fun h => absurd (List.map_eq_nil_iff.1 h) (List.ne_nil_of_mem (List.mem_filter.2 ⟨hx, decide_eq_true hs⟩))
    have hcip : e.cip = s.cip ∧ e.sl.dels = s.sl.dels := by rw [hgone.frame]; exact ⟨rfl, rfl⟩
    obtain ⟨ftl, hadv, had⟩ := State.advances_eq n ((e.zn.ns.filter (fun x => x.2.slice = n)).map (·.1)) e
    let m : State := { e with ftl := ftl, sl := { e.sl with dels := [(n, o, cid)] } }
    have hm' : t = m := by
      rw [ht, hadv]
      dsimp only
      rw [hcip.2, hdel]
      exact State.resumeDels_waits (s := m) (by show e.cip.erases = []; rw [hcip.1]; exact her) rfl (had hne)
    refine ⟨t, hrun, ?_⟩
    rw [hm']
    refine ⟨(hgone.regs F.SLI_STS_STATE n 0 0 (by decide)).trans (State.rd_wr_same ..), List.mem_singleton_self _, hqs⟩

end Sys2Proof.Machine
end


section
/-! O40: what NVMe-MI answers (16 R364, R365; log 62, log 63). -/

namespace Sys2Proof.Machine

namespace State

variable {s : State}

/-! ### Reads change no zone and send nothing -/

/-- What a read leaves: the namespaces with their data, and what was sent. -/
def ReadKeeps (s t : State) : Prop := t.zn = s.zn ∧ t.outs = s.outs

theorem ReadKeeps.trans {t u : State} (h : ReadKeeps s t) (g : ReadKeeps t u) : ReadKeeps s u := ⟨g.1.trans h.1, g.2.trans h.2⟩

theorem rcClear_keeps (f : Fld) (i j p : Nat) : ReadKeeps s (s.rcClear f i j p) := by
  unfold rcClear
  split <;> exact ⟨rfl, rfl⟩

theorem readFx_keeps (p : Nat) (r : Reg) (i j h : Nat) : ReadKeeps s (s.readFx p r i j h) := by
  have hc := foldl_keeps (P := ReadKeeps s) (f := fun s f => s.rcClear f i j p) (fun t f ht => ht.trans (rcClear_keeps ..))
    (r.flds.filter (fun f => f.acc = .rc && f.lo / 32 = h)) s ⟨rfl, rfl⟩
  unfold readFx
  split
  · exact hc.trans ⟨rfl, rfl⟩
  · dsimp only
    split
    · exact hc.trans ⟨rfl, rfl⟩
    · exact hc

theorem touchReg_keeps (p a : Nat) : ReadKeeps s (s.touchReg p a) := by
  unfold touchReg
  split
  · exact readFx_keeps ..
  · exact ⟨rfl, rfl⟩

theorem unlatch_keeps (p : Nat) : ReadKeeps s (s.unlatch p) := ⟨rfl, rfl⟩

theorem read8_keeps (p a : Nat) : ReadKeeps s (s.read8 p a).1 := (unlatch_keeps p).trans ((touchReg_keeps ..).trans (touchReg_keeps ..))

theorem live_keeps (p : Nat) (t : State) (a : Nat) : ReadKeeps t (read4.live p t a).1 := by
  unfold read4.live
  dsimp only
  split
  · exact ((touchReg_keeps p a).trans (touchReg_keeps p (a + 4))).trans ⟨rfl, rfl⟩
  · exact touchReg_keeps ..

theorem read4_keeps (p a : Nat) : ReadKeeps s (s.read4 p a).1 := by
  unfold read4
  dsimp only
  split
  · split
    · exact unlatch_keeps p
    · exact (unlatch_keeps p).trans (live_keeps ..)
  · exact (unlatch_keeps p).trans (live_keeps ..)

theorem readWords_keeps (p a n : Nat) (s : State) : ReadKeeps s (readWords p a n s).1 := by
  fun_induction readWords p a n s with
  | case1 => exact ⟨rfl, rfl⟩
  | case2 a s x => exact read4_keeps ..
  | case3 a n s _ x y ih => exact (read8_keeps ..).trans ih
  | case4 a n s _ x y ih => exact (read4_keeps ..).trans ih

/-- With no high dword latched, a word answers what its address shows. -/
theorem read4_unlatched (p a : Nat) (h : s.gen.latch = []) : (s.read4 p a).2 = s.peek p a := by
  have hu : s.unlatch p = s := by
    rw [unlatch, h]
    show { s with gen := { s.gen with latch := [] } } = s
    rw [← h]
  rw [read4, h, List.find?_nil, hu]
  show (read4.live p s a).2 = _
  unfold read4.live
  dsimp only
  split <;> rfl

/-! ### The write of TIM_PPS_OFS -/

theorem locate_ppsOfs : locate R.TIM_PPS_OFS.base regTable = some (R.TIM_PPS_OFS, 0, 0, 0) := by
  decide +kernel

theorem fldNew_ppsOfs (w old : Nat) : fldNew F.TIM_PPS_OFS_OFS 0 w old = old % 1 + w % 2 ^ 32 + old / 2 ^ 32 * 2 ^ 32 := by
  simp [fldNew, F.TIM_PPS_OFS_OFS]

theorem writeReg_ppsOfs (p w : Nat) : s.writeReg p R.TIM_PPS_OFS 0 0 0 w =
    s.wr F.TIM_PPS_OFS_OFS (fldNew F.TIM_PPS_OFS_OFS 0 w (s.rd F.TIM_PPS_OFS_OFS)) 0 0 0 := by
  rfl

theorem write_ppsOfs (w : Nat) : s.write 1 R.TIM_PPS_OFS.base [w] =
    (s.unlatch 1).wr F.TIM_PPS_OFS_OFS (fldNew F.TIM_PPS_OFS_OFS 0 (cut 32 w) (s.rd F.TIM_PPS_OFS_OFS)) 0 0 0 := by
  have hl : lockedDword R.TIM_PPS_OFS.base = false := by
    rw [lockedDword, locate_ppsOfs]
    rfl
  have hf : [R.TIM_PPS_OFS.base].filter (fun b => (locate b regTable).any (fun x => !(x.1.inDword (x.2.2.2 / 4)).isEmpty)) = [R.TIM_PPS_OFS.base] := by
    rw [List.filter_cons, locate_ppsOfs]
    rfl
  have hr : (List.range [w].length).map (fun k => R.TIM_PPS_OFS.base + 4 * k) = [R.TIM_PPS_OFS.base] := rfl
  unfold write
  rw [if_neg (by simp)]
  dsimp only
  rw [hr, hf, if_neg (by simp [hl])]
  rw [List.zip_cons_cons, List.zip_nil_left, List.foldl_cons, List.foldl_nil, write4, locate_ppsOfs]
  exact writeReg_ppsOfs (s := s.unlatch 1) ..

/-- After its response a Register Write of TIM_PPS_OFS has written its word, and nothing else (16 R365; 19 R432). -/
theorem miRegWrite_ppsOfs (h : s.miUp = true) (w : Nat) : s.miRegWrite R.TIM_PPS_OFS.base 4 [w] =
    ((s.send (.mi 0 [])).unlatch 1).wr F.TIM_PPS_OFS_OFS (fldNew F.TIM_PPS_OFS_OFS 0 (cut 32 w) (s.rd F.TIM_PPS_OFS_OFS)) 0 0 0 := by
  have hup : (s.send (.mi 0 [])).pathUp 1 = true := h
  rw [miRegWrite_of_regSpan (ws := [w]) s (by decide) rfl, writeWords, if_pos hup, write_ppsOfs]
  rfl

theorem cut_fldNew_ppsOfs (w old : Nat) : cut F.TIM_PPS_OFS_OFS.w (fldNew F.TIM_PPS_OFS_OFS 0 (cut 32 w) old) = cut 32 w := by
  rw [fldNew_ppsOfs]
  show (old % 1 + w % 2 ^ 32 % 2 ^ 32 + old / 2 ^ 32 * 2 ^ 32) % 2 ^ 32 = w % 2 ^ 32
  omega

/-! ### The VPD -/

/-- One byte of the VPD is written: a zero is kept by its absence. -/
def vpdPut (off : Nat) (t : Tab Nat) (e : Nat × Nat) : Tab Nat :=
  if cut 8 e.1 = 0 then Tab.del (off + e.2) t else Tab.put (off + e.2) (cut 8 e.1) t

theorem find_vpdPut_same (off : Nat) (t : Tab Nat) (e : Nat × Nat) : (Tab.find (off + e.2) (vpdPut off t e)).getD 0 = cut 8 e.1 := by
  unfold vpdPut
  split
  · next h => rw [Tab.find_del_same, h]; rfl
  · rw [Tab.find_put_same]; rfl

theorem find_vpdPut_ne {off a : Nat} {e : Nat × Nat} (t : Tab Nat) (h : a ≠ off + e.2) : Tab.find a (vpdPut off t e) = Tab.find a t := by
  unfold vpdPut
  split
  · exact Tab.find_del_ne _ h
  · exact Tab.find_put_ne _ _ h

theorem find_vpdPuts_ne {off a : Nat} (data : List Nat) (n : Nat) (t : Tab Nat) (h : a < off + n ∨ off + n + data.length ≤ a) :
    Tab.find a ((data.zipIdx n).foldl (vpdPut off) t) = Tab.find a t := by
  induction data generalizing n t with
  | nil => rfl
  | cons x xs ih =>
    rw [List.length_cons] at h
    exact (ih (n + 1) _ (by omega)).trans (find_vpdPut_ne t (e := (x, n)) (by show a ≠ off + n; omega))

theorem find_vpdPuts (off : Nat) (data : List Nat) (n : Nat) (t : Tab Nat) {k : Nat} (h : k < data.length) :
    (Tab.find (off + n + k) ((data.zipIdx n).foldl (vpdPut off) t)).getD 0 = cut 8 (data.getD k 0) := by
  induction data generalizing n t k with
  | nil => exact absurd h (Nat.not_lt_zero _)
  | cons x xs ih =>
    cases k with
    | zero =>
      show (Tab.find (off + n) ((xs.zipIdx (n + 1)).foldl (vpdPut off) (vpdPut off t (x, n)))).getD 0 = cut 8 x
      rw [find_vpdPuts_ne xs (n + 1) _ (.inl (by omega))]
      exact find_vpdPut_same off t (x, n)
    | succ k =>
      have := ih (n + 1) (vpdPut off t (x, n)) (Nat.lt_of_succ_lt_succ h)
      rwa [show off + n + (k + 1) = off + (n + 1) + k by omega]

theorem vpdWrite_eq {off : Nat} {data : List Nat} (h : off + data.length ≤ 256) :
    s.vpdWrite off data = ({ s with pup := { s.pup with vpd := data.zipIdx.foldl (vpdPut off) s.pup.vpd } }).send (.mi 0 []) :=
  if_pos h

end State

/-- Settles O40: a served request is executed as it arrives, and each kind of request has its lemma. -/
theorem managementInterfaceComplete : Obligations.ManagementInterfaceComplete := by
  unfold Obligations.ManagementInterfaceComplete
  refine ⟨?_, ?_, ?_, ?_, ?_, ?_, ?_, ?_, ?_, ?_, ?_, ?_, ?_, ?_, ?_, ?_, ?_⟩
  · exact fun vdm a len ws s => ⟨⟨_, rfl, rfl⟩, ⟨_, rfl, rfl⟩, ⟨_, rfl, rfl⟩⟩
  · exact fun vdm ty s h => ⟨_, rfl, State.mi_of_miServed h _⟩
  · exact fun vdm s h => ⟨_, rfl, State.mi_of_miServed h _⟩
  · intro vdm n f s h hf
    refine ⟨_, rfl, (State.mi_of_miServed h _).trans ?_⟩
    simp only [State.miRun, State.miController, hf]
    rfl
  · intro vdm n s h hf
    refine ⟨_, rfl, (State.mi_of_miServed h _).trans ?_⟩
    simp only [State.miRun, State.miController, hf]
    rfl
  · intro vdm id v s h h1 h3 hv
    refine ⟨_, rfl, (State.mi_of_miServed h _).trans ((if_pos (by simp [h1, h3])).trans ?_)⟩
    rw [hv]
    rfl
  · intro vdm s h hnil
    refine ⟨_, rfl, (State.mi_of_miServed h _).trans ?_⟩
    simp only [State.miRun, State.miGet, hnil]
    rfl
  · intro vdm id v s h hv
    have hrun := (State.mi_of_miServed h (.miConfigurationSet vdm true id v)).trans (if_pos hv)
    refine ⟨_, rfl, ?_⟩
    rw [hrun]
    exact ⟨Tab.find_put_same .., fun i hi => Tab.find_put_ne _ _ hi, rfl⟩
  · exact fun vdm off len s h hl => ⟨_, rfl, (State.mi_of_miServed h _).trans (if_pos hl)⟩
  · intro vdm off data s h hl
    have hrun := (State.mi_of_miServed h (.miVpdWrite vdm true off data)).trans (State.vpdWrite_eq hl)
    refine ⟨_, rfl, ?_⟩
    rw [hrun]
    exact ⟨fun k hk => State.find_vpdPuts off data 0 _ hk, fun a ha => State.find_vpdPuts_ne data 0 _ ha, rfl⟩
  · exact fun vdm s h => ⟨_, rfl, State.mi_of_miServed h _⟩
  · exact fun vdm o cid s h => ⟨_, rfl, congrArg Host.Outcome.next (State.mi_of_miServed h (.miTunnelledAdmin vdm true (.getFeaturesTimestamp o cid))).symm⟩
  · intro vdm s h
    refine ⟨_, rfl, ?_⟩
    rw [State.mi_of_miServed h]
    exact State.adm_refuses (s := s) (o := .mi) rfl 0 stOpcode 0
  · intro s h
    obtain ⟨hon, hawake, hup, -⟩ := h
    have hon' : s.rd F.PUP_MI_CFG_SMB_EN ≠ 0 := hon
    have hfree : (s.dead || s.stopped) = false := by
      have h := hup
      simp only [State.miUp, Bool.and_eq_true, Bool.not_eq_true'] at h
      simp [h]
    refine ⟨_, congrArg Host.Outcome.next ?_, rfl⟩
    rw [hfree, if_neg (by simp [hon']), if_neg (hawake rfl), hup]
    rfl
  · intro vdm a len s h hspan
    have hrun := (State.mi_of_miServed h (.registerRead vdm true a len)).trans (State.miRegRead_of_regSpan s hspan)
    refine ⟨_, rfl, ?_⟩
    rw [hrun]
    refine ⟨⟨_, State.length_readWords 1 a (len / 4) s, ?_, ?_⟩, (State.readWords_keeps 1 a (len / 4) s).1⟩
    · exact congrArg (· ++ _) (State.readWords_keeps 1 a (len / 4) s).2
    · intro h4 hl
      subst h4
      exact congrArg (fun v => [v]) (State.read4_unlatched 1 a hl)
  · intro vdm a len s h hspan
    exact ⟨_, rfl, (State.mi_of_miServed h _).trans (State.miRegRead_refused s hspan)⟩
  · intro vdm w s h
    have hrun := (State.mi_of_miServed h (.registerWrite vdm true R.TIM_PPS_OFS.base 4 [w])).trans (State.miRegWrite_ppsOfs h.up w)
    refine ⟨_, rfl, ?_⟩
    rw [hrun]
    exact ⟨(State.rd_wr_same ..).trans (State.cut_fldNew_ppsOfs ..),
      (Keeps.of_regs rfl).trans (Keeps.wr (f := F.TIM_PPS_OFS_OFS) (List.mem_singleton.2 rfl) ((s.send (.mi 0 [])).unlatch 1) _ 0 0 0), rfl, rfl⟩

end Sys2Proof.Machine
end


section
/-! O6: queue features, coalescing and asynchronous event requests (03 R67, R82; 20 R442). -/

namespace Sys2Proof.Machine

/-- Where all that a test takes stands under one number, a record put under another number that the test refuses does not change what it finds. -/
theorem Tab.find?_put {α : Type} {p : Nat × α → Bool} {i : Nat} {v : α} {t : Tab α} (hv : p (i, v) = false)
    (hk : ∃ k, k ≠ i ∧ ∀ e ∈ t, p e = true → e.1 = k) : (Tab.put i v t).find? p = t.find? p := by
  obtain ⟨k, hne, hk⟩ := hk
  have hcut (r : Nat × α → Bool) (hr : ∀ e ∈ t, p e = true → r e = true) : (t.filter r).find? p = t.find? p := by
    rw [List.find?_filter]
    refine List.find?_congr fun e he => ?_
    cases hp : p e
    · simp
    · simp [hr e he hp]
  have hnone (r : Nat × α → Bool) (hr : ∀ e ∈ t, p e = true → r e = false) : (t.filter r).find? p = none := by
    rw [List.find?_filter, List.find?_eq_none]
    intro e he h
    simp only [Bool.decide_and, Bool.decide_eq_true, Bool.and_eq_true] at h
    rw [hr e he h.2] at h
    exact Bool.false_ne_true h.1
  have hmid : List.find? p [(i, v)] = none := by simp [hv]
  rw [Tab.put, List.find?_append, List.find?_append, hmid]
  rcases Nat.lt_or_gt_of_ne hne with h | h
  · rw [hcut (fun e => e.1 < i) fun e he hp => by simpa [hk e he hp] using h, hnone (fun e => i < e.1) fun e he hp => by simp [hk e he hp]; omega]
    simp
  · rw [hnone (fun e => e.1 < i) fun e he hp => by simp [hk e he hp]; omega, hcut (fun e => i < e.1) fun e he hp => by simpa [hk e he hp] using h]
    simp

namespace State
variable {s : State}

/-! ### A sender's command begins -/

theorem admQ_putQ {o : Org} {i : Nat} {q : Queue} (h : Served s o) (hi : (s.admQ o).map (·.1) ≠ some i) (hq : adminOf o q = false) :
    (s.putQ i q).admQ o = s.admQ o := by
  obtain ⟨-, -, -, -, hown, -⟩ := h
  have hk : ∃ k, k ≠ i ∧ ∀ e ∈ s.sl.qs, adminOf o e.2 = true → e.1 = k := by
    cases ha : s.admQ o with
    | none =>
      refine ⟨i + 1, by omega, fun e he hp => ?_⟩
      have := hown e he hp
      simp [ha] at this
    | some a =>
      rw [ha] at hi
      refine ⟨a.1, fun h => hi (congrArg some h), fun e he hp => ?_⟩
      have := hown e he hp
      simpa [ha] using this.symm
  cases o with
  | fn n => exact Tab.find?_put (p := fun e => adminOf (.fn n) e.2) hq hk
  | fab a => exact Tab.find?_put (p := fun e => adminOf (.fab a) e.2) hq hk
  | mi => rfl
  | io _ => rfl

theorem mapQ_putQ {i k : Nat} {q : Queue} (f : Queue → Queue) (h : k ≠ i) : (s.putQ i q).mapQ k f = (s.mapQ k f).putQ i q := by
  unfold mapQ putQ
  congr 2
  have hc (r : Nat → Bool) : (s.sl.qs.filter (fun e => r e.1)).map (fun e => if e.1 = k then (e.1, f e.2) else e) =
      (s.sl.qs.map (fun e => if e.1 = k then (e.1, f e.2) else e)).filter (fun e => r e.1) := by
    rw [List.filter_map]
    congr 2
    funext e
    dsimp only [Function.comp]
    split <;> rfl
  simp only [Tab.put, List.map_append, List.map_cons, List.map_nil, if_neg (Ne.symm h)]
  rw [← hc (fun x => decide (x < i)), ← hc (fun x => decide (i < x))]

/-- Another queue's context put before a sender's command begins is put after it. -/
theorem admBegin_putQ {o : Org} {i : Nat} {q : Queue} (h : Served s o) (hi : (s.admQ o).map (·.1) ≠ some i) (hq : adminOf o q = false) :
    (s.putQ i q).admBegin o = (s.admBegin o).putQ i q := by
  have hput := admQ_putQ h hi hq
  cases ha : s.admQ o with
  | none => simp only [admBegin, hput, ha]
  | some a =>
    rw [ha] at hi
    simp only [admBegin, hput, ha]
    exact mapQ_putQ _ fun h => hi (congrArg some h)

theorem SameQs.find?_same {t : State} (h : SameQs s t) {p : Nat × Queue → Bool} (hp : ∀ i x y, SameQ x y → p (i, y) = p (i, x)) {i : Nat} {q : Queue}
    (hq : s.sl.qs.find? p = some (i, q)) : ∃ q', t.sl.qs.find? p = some (i, q') ∧ SameQ q q' := by
  obtain ⟨g, hg, hs⟩ := h
  have : p ∘ (fun e : Nat × Queue => (e.1, g e)) = p := funext fun e => hp _ _ _ (hs e)
  exact ⟨g (i, q), by rw [hg, List.find?_map, this, hq]; rfl, hs (i, q)⟩

/-- A queue that is not the sender's admin queue is found as it was. -/
theorem find?_admBegin {o : Org} {p : Nat × Queue → Bool} (hp : ∀ i x y, SameQ x y → p (i, y) = p (i, x)) {i : Nat} {q : Queue}
    (hi : (s.admQ o).map (·.1) ≠ some i) (hq : s.sl.qs.find? p = some (i, q)) : (s.admBegin o).sl.qs.find? p = some (i, q) := by
  cases ha : s.admQ o with
  | none => simpa only [admBegin, ha] using hq
  | some a =>
    rw [ha] at hi
    have hne : i ≠ a.1 := fun h => hi (congrArg some h.symm)
    simp only [admBegin, ha, mapQ, List.find?_map]
    have hc : (p ∘ fun e : Nat × Queue => if e.1 = a.1 then (e.1, if a.2.adm.isEmpty = true then { e.2 with outst := e.2.outst + 1 } else
        { e.2 with adm := e.2.adm.drop 1 }) else e) = p := by
      funext e
      dsimp only [Function.comp]
      split
      · refine hp _ _ _ ?_
        split <;> rfl
      · rfl
    rw [hc, hq]
    exact congrArg some (if_neg hne)

/-- The test by which a sender's queue ID finds its queue. -/
def namedBy (o : Org) (qid : Nat) (e : Nat × Queue) : Bool :=
  e.2.qid = qid && (match o with
    | .fab a => e.2.fabric && e.2.assoc = a
    | .fn f => !e.2.fabric && e.2.func = f
    | .mi => !e.2.fabric && e.2.func = 0
    | .io _ => false)

theorem queueOf_eq (o : Org) (qid : Nat) : s.queueOf o qid = s.sl.qs.find? (namedBy o qid) := rfl

theorem namedBy_same (o : Org) (qid i : Nat) (x y : Queue) (h : SameQ x y) : namedBy o qid (i, y) = namedBy o qid (i, x) := by
  rw [h]
  rfl

theorem adminOf_qid {o : Org} {q : Queue} (h : q.qid ≠ 0) : adminOf o q = false := by
  cases o <;> simp [adminOf, h]

theorem admBegin_ras (r : RasSt) (o : Org) : ({ s with ras := r } : State).admBegin o = { s.admBegin o with ras := r } := by
  have ha : ({ s with ras := r } : State).admQ o = s.admQ o := by cases o <;> rfl
  unfold admBegin
  rw [ha]
  split <;> rfl

/-! ### Vectors -/

theorem vecOf_putVec_same (v : VecSt) : (s.putVec v).vecOf v.func v.vec = v := by
  simp [vecOf, putVec]

theorem vecOf_putVec_ne {v : VecSt} {g w : Nat} (h : (g, w) ≠ (v.func, v.vec)) : (s.putVec v).vecOf g w = s.vecOf g w := by
  have hv : ¬ (v.func = g ∧ v.vec = w) := fun e => h (by rw [e.1, e.2])
  have hf : (s.sl.vecs.filter (fun u => !(decide (u.func = v.func) && decide (u.vec = v.vec)))).find? (fun u => decide (u.func = g) && decide (u.vec = w)) =
      s.sl.vecs.find? (fun u => decide (u.func = g) && decide (u.vec = w)) := by
    rw [List.find?_filter]
    refine List.find?_congr fun u _ => ?_
    by_cases hu : u.func = g ∧ u.vec = w
    · have : ¬ (u.func = v.func ∧ u.vec = v.vec) := fun e => hv ⟨e.1.symm.trans hu.1, e.2.symm.trans hu.2⟩
      have hne : (decide (u.func = v.func) && decide (u.vec = v.vec)) = false := by simpa using this
      rw [hne]
      simp
    · rcases not_and_or.1 hu with hu | hu <;> simp [hu]
  simp only [vecOf, putVec, List.find?_cons]
  have hdec : (decide (v.func = g) && decide (v.vec = w)) = false := by simpa using hv
  rw [hdec]
  show Option.getD (List.find? _ _) _ = _
  rw [hf]

theorem vecOf_key (f v : Nat) : (s.vecOf f v).func = f ∧ (s.vecOf f v).vec = v := by
  unfold vecOf
  cases h : s.sl.vecs.find? (fun u => decide (u.func = f) && decide (u.vec = v)) with
  | none => exact ⟨rfl, rfl⟩
  | some u => simpa using List.find?_some h

/-- What waited on a vector is taken from it. -/
theorem vecOf_emptied (f v : Nat) : ((s.putVec { s.vecOf f v with waiting := [] }).vecOf f v).waiting = [] := by
  have h := vecOf_putVec_same (s := s) { s.vecOf f v with waiting := [] }
  obtain ⟨h₁, h₂⟩ := s.vecOf_key f v
  generalize s.vecOf f v = x at h h₁ h₂ ⊢
  subst h₁ h₂
  exact congrArg VecSt.waiting h

end State

/-- Settles O6. -/
theorem queueFeaturesComplete : Obligations.QueueFeaturesComplete := by
  unfold Obligations.QueueFeaturesComplete
  refine ⟨fun o cid qid lc i ff q s h hq h0 hlc hi hbit => ?_, fun o cid qid i q s h hq h0 => ?_, fun o cid time thr f s h hf ht hthr => ?_,
    fun o cid vec f cd s h hf hv => ?_, fun func vec co s hco hne hdue hlive => ?_, fun func vec co m s hco hw hdue hdead => ?_,
    fun o cid s h hno => ?_, fun o cid ty info page s h hn => ?_⟩
  · have hqid : q.qid = qid := by
      have := List.find?_some hq
      simp only [Bool.and_eq_true, decide_eq_true_eq] at this
      exact this.1
    have hb := State.find?_admBegin (State.namedBy_same o qid) hi hq
    have had : adminOf o { q with lc := lc, ff := ff } = false := State.adminOf_qid (hqid ▸ h0)
    have hbit' : bit ((s.admBegin o).rd F.SLI_WEIGHT_LCMASK q.slice) lc = true := by
      obtain ⟨qs, hx⟩ := s.admBegin_eq o
      rw [hx]; exact hbit
    refine ⟨_, congrArg Host.Outcome.next ((State.admin_served h _ _).trans ?_), State.adm_completes (s := s.putQ i { q with lc := lc, ff := ff }) (o := o) h.2.1 cid 0 []⟩
    rw [State.admBegin_putQ h hi had]
    simp only [State.queueOf_eq, hb]
    rw [if_neg (by simp [h0, hbit']; omega)]
  · obtain ⟨q', hb, hs⟩ := (s.sameQs_admBegin o).find?_same (State.namedBy_same o qid) hq
    refine ⟨_, congrArg Host.Outcome.next ((State.admin_served h _ _).trans ?_), State.adm_completes h.2.1 cid _ []⟩
    simp only [State.queueOf_eq, hb, if_neg h0]
    rw [hs]
    cases q.ff <;> rfl
  · obtain ⟨b, qs, hb, -, hrun, -, hcpl, -⟩ := State.served h cid
    refine ⟨_, congrArg Host.Outcome.next ((hrun _).trans ?_), hcpl { s.sl with coal := Tab.put f ⟨time, thr⟩ s.sl.coal } rfl⟩
    have ht' : cut 8 time = time := Nat.mod_eq_of_lt ht
    have hthr' : cut 8 thr = thr := Nat.mod_eq_of_lt hthr
    simp only [hf, ht', hthr', hb]
  · obtain ⟨b, qs, hb, -, hrun, -, hcpl, -⟩ := State.served h cid
    let v := { s.vecOf f vec with cd := cd }
    have hk := s.vecOf_key f vec
    have hc := hcpl (s.putVec v).sl rfl
    refine ⟨({ s with sl := { (s.putVec v).sl with qs := qs } } : State).adm o cid stOk, congrArg Host.Outcome.next ((hrun _).trans ?_), ?_⟩
    · simp only [hf]
      rw [hb]
      exact if_neg (Nat.not_le.2 hv)
    obtain ⟨ha, hcq, ht⟩ := hc
    generalize ({ s with sl := { (s.putVec v).sl with qs := qs } } : State).adm o cid stOk = t at ha hcq ht ⊢
    have hvecs : t.sl.vecs = (s.putVec v).sl.vecs := by
      rw [ht]
      unfold Begun
      split <;> rfl
    have hof (g w : Nat) : t.vecOf g w = (s.putVec v).vecOf g w := by rw [State.vecOf, State.vecOf, hvecs]
    have hsame : (s.putVec v).vecOf v.func v.vec = v := State.vecOf_putVec_same v
    refine ⟨?_, fun g w hne => ?_, ?_⟩
    · rw [hof]
      rwa [show v.func = f from hk.1, show v.vec = vec from hk.2] at hsame
    · rw [hof]
      refine State.vecOf_putVec_ne ?_
      rwa [show v.func = f from hk.1, show v.vec = vec from hk.2]
    · rw [hvecs]
      exact ⟨ha, hcq, ht⟩
  · have hold : (s.vecOf func vec).waiting.filter (fun m => !s.live m.slice m.q m.genS m.genQ) = [] :=
      List.filter_eq_nil_iff.2 fun m hm => by simp [hlive m hm]
    refine ⟨(s.putVec { s.vecOf func vec with waiting := [] }).send (.msix func vec), congrArg Host.Outcome.next ?_, ?_, rfl⟩
    · dsimp only
      rw [hco, if_neg (by simp [hne]; omega), hold]
      exact if_neg fun h => hne (List.length_eq_zero_iff.1 h.symm)
    · exact s.vecOf_emptied func vec
  · have hold : (s.vecOf func vec).waiting.filter (fun m => !s.live m.slice m.q m.genS m.genQ) = [m] := by
      simp [hw, hdead]
    refine ⟨(s.putVec { s.vecOf func vec with waiting := [] }).stale m.slice, congrArg Host.Outcome.next ?_, ?_, rfl, (State.rd_inc_same ..).trans (cut_sat ..), ?_⟩
    · dsimp only
      rw [hco, if_neg (by simp [hw]; omega), hold, hw]
      rfl
    · exact s.vecOf_emptied func vec
    · exact (Keeps.of_regs rfl).trans (Keeps.inc (f := F.SLI_STALE_CNT_CNT) (List.mem_singleton.2 rfl) (s.putVec { s.vecOf func vec with waiting := [] }) _ _ _)
  · obtain ⟨b, qs, hb, -, hrun, -⟩ := State.served h cid
    have hfind : b.ras.notices.find? (fun n => n.1 = ctlOf o) = none := by
      rw [hb]
      exact List.find?_eq_none.2 fun n hn => by simpa using hno n hn
    refine ⟨{ b with ras := { b.ras with aers := b.ras.aers ++ [(ctlOf o, o, cid)] } }, congrArg Host.Outcome.next ((hrun _).trans ?_), ?_, ?_, ?_⟩
    · simp only [hfind]
    all_goals rw [hb]
  · have hm : (s.admBegin o).ras = s.ras := by
      obtain ⟨qs, hx⟩ := s.admBegin_eq o
      rw [hx]
    have hc := State.adm_completes (s := { s with ras := { s.ras with notices := [] } }) (o := o) h.2.1 cid (ty + info * 256 + page * 65536) []
    refine ⟨_, congrArg Host.Outcome.next ((State.admin_served h _ _).trans ?_), hc⟩
    rw [State.admBegin_ras { s.ras with notices := [] } o]
    have hfind : (s.admBegin o).ras.notices.find? (fun n => n.1 = ctlOf o) = some (ctlOf o, ty, info, page) := by
      rw [hm, hn]
      exact List.find?_cons_of_pos (by simp)
    have hdrop : (s.admBegin o).ras.notices.filter (fun m => m != (ctlOf o, ty, info, page)) = [] := by
      rw [hm, hn]
      simp
    simp only [hfind, hdrop]
    rw [hm]
    rfl

end Sys2Proof.Machine
end


section
/-! SUPPORT. At most what a stop of the controller changes. -/

namespace Sys2Proof.Machine

def stopFields : List Fld := [F.DRC_ECC_ADDR_BURST, F.DRC_ECC_CNT_CE, F.DRC_ECC_CNT_UE, F.DRC_ECC_LOG_DEV, F.DRC_ECC_LOG_POISON, F.DRC_ECC_LOG_SYM,
  F.DRC_ECC_LOG_UE, F.DRC_ECC_LOG_VALID, F.ETH_SUB_STS_XOFF, F.EVR_FLUSH_CNT_SUMMARY, F.KZL_BID_HOP, F.KZL_STS_HOP0, F.MCACHE_ERR_DATA_UE,
  F.PUP_PAR_LOG_ADDR, F.PUP_PAR_LOG_MEM, F.PUP_PAR_LOG_VALID, F.PUP_VREG_TARGET_MV, F.RAS_CE_LOST_CNT, F.RAS_MEM_CNT_CE, F.RAS_MEM_CNT_UE,
  F.ZON_ENT0_STATE, F.ZON_ENT2_WP_OFF, F.ETH_SUB_STS_LINK, F.ETH_SUB_STS_FEC_LOCK, F.PUP_MBX_STS_SEQ] ++ mediaFields

/-- What ends host work, capture work and DRAM requests, with the records, link states and voltages that go with it: of staging, time, zones and
the image only what is named. -/
def Scope.stop : Scope where
  merge s t := { Scope.media.merge s t with
    free := t.free, kz := t.kz, pcx := t.pcx, drc := t.drc, pup := t.pup, cap := t.cap
    ftl := { (Scope.media.merge s t).ftl with lines := t.ftl.lines }
    sl := { (Scope.media.merge s t).sl with waits := t.sl.waits }
    stg := { (Scope.media.merge s t).stg with dirty := t.stg.dirty }
    zn := { (Scope.media.merge s t).zn with ud := t.zn.ud, ghosts := t.zn.ghosts } }
  fields := stopFields

def Bound.stop : Bound := Scope.stop.bound

namespace Only

theorem stop {s t : State} (h : Only .media s t) : Only .stop s t := h.widen (d := Scope.stop) (fun _ _ => rfl) (by decide)

theorem OfSome.stop {s : State} {o : Option State} (h : OfSome .media s o) : OfSome .stop s o := ⟨fun e => (h.get e).stop⟩

theorem pointersStop {s t : State} (h : Only .pointers s t) : Only .stop s t := h.widen (d := Scope.stop) (fun _ _ => rfl) (by decide)

theorem eventStop {s t : State} (h : Only .event s t) : Only .stop s t := h.widen (d := Scope.stop) (fun _ _ => rfl) (by decide)

theorem dropStop {s t : State} (h : Only .drop s t) : Only .stop s t := h.widen (d := Scope.stop) (fun _ _ => rfl) (by decide)

theorem linkStop {s t : State} (h : Only .link s t) : Only .stop s t := h.widen (d := Scope.stop) (fun _ _ => rfl) (by decide)

/-- As `foldl`, of steps that may fail. -/
theorem foldlSome {c : Bound} {α : Type} {f : Option State → α → Option State} {l : List α} {s : State} (hn : ∀ a, f none a = none)
    (h : ∀ m a, OfSome c m (f (some m) a)) : OfSome c s (l.foldl f (some s)) := by
  induction l generalizing s with
  | nil => exact .some (.refl s)
  | cons a l ih =>
    have ha := h s a
    simp only [List.foldl_cons]
    cases e : f (some s) a with
    | none => exact ⟨fun k => by rw [List.foldl_fixed' hn] at k; cases k⟩
    | some t => exact ih.after (ha.get e)

namespace Stop

-- So the unifier sees a match on an option as the recursor that `opt` speaks of.
set_option smartUnfolding false

variable (s : State)

theorem draw : Only .stop s s.draw := by
  unfold State.draw
  exact upd rfl

theorem setUd (k v : Nat) : Only .stop s (s.setUd k v) := upd rfl

theorem correctable (mem addr : Nat) : Only .stop s (s.correctable mem addr) := by
  unfold State.correctable
  exact .after
    (.opt
      (fun _ => (.after (.ite (Event.raise ..).eventStop (.refl _)) (upd rfl)))
      (.opt (fun _ => (.after (.ite (Event.raise ..).eventStop (.refl _)) (upd rfl))) (inc (by decide) ..)))
    (inc (by decide) ..)

theorem setZst (h z : Nat) : Only .stop s (s.setZst h z) := by
  unfold State.setZst
  exact (Work.jnZone ..).stop.after
    ((Work.limits ..).stop.after
      (.after
        (.ite (addw (by decide) ..) (.ite (dec (by decide) ..) (.refl _)))
        (.after
          (.ite ((addw (by decide) ..).after (addw (by decide) ..)) (.ite ((dec (by decide) ..).after (dec (by decide) ..)) (.refl _)))
          ((Drop.zseq ..).dropStop.after ((wr (by decide) ..).after (Work.zmark ..).stop)))))

theorem foldPar (r : RowId) (u v : Nat) : Only .stop s (s.foldPar r u v) := by
  unfold State.foldPar
  exact .opt (fun _ => (.ite (.refl _) (upd rfl))) (.refl _)

theorem stageAt (u : StU) (key v : Nat) : Only .stop s (s.stageAt u key v) := by
  unfold State.stageAt
  exact (foldPar ..).after ((setUd ..).after (upd rfl))

theorem becomeFull (h : Nat) : Only .stop s (s.becomeFull h) := by
  unfold State.becomeFull
  exact .after
    (.ite (Work.padRow ..).stop (.refl _))
    ((Work.failUncommitted ..).stop.after ((Work.failHolds ..).stop.after ((setZst ..).after ((wr (by decide) ..).after ((Work.putZx ..).stop.after (Work.zmark ..).stop)))))

theorem setStream (n st rsn : Nat) : Only .stop s (s.setStream n st rsn) := by
  unfold State.setStream
  exact .opt
    (fun _ =>
      (.ite (.refl _) (.after (.ite (Event.raise ..).eventStop (.ite (.ite (.refl _) (Event.raise ..).eventStop) (.ite (Event.raise ..).eventStop (.refl _)))) (Drop.putStream ..).dropStop)))
    (.refl _)

theorem putLine (l : MLine) : Only .stop s (s.putLine l) := by
  unfold State.putLine
  exact upd rfl

theorem chargeFill (n : Nat) : Only .stop s (s.chargeFill n) := by
  unfold State.chargeFill
  exact (Event.charge ..).eventStop

theorem stage (r : RowId) (u key v pool : Nat) (c : Cmd) : Only .stop s (s.stage r u key v pool c) := by
  unfold State.stage
  exact (stageAt ..)

theorem holdBy (h : Nat) (n : Option Nat) : Only .stop s (s.holdBy h n) := by
  unfold State.holdBy
  exact (Work.putZx ..).stop

theorem openAll (n : Nat) (x : Stream) (direct : Bool) (hs : List Nat) : Only₁ .stop s (s.openAll n x direct hs) := by
  unfold State.openAll
  refine .ite (.pair (.refl _)) (.optMem (fun t e => .pair ?_) (.pair (.refl _)))
  refine OfSome.get (foldlSome (fun _ => rfl) (fun m h => ?_)) e
  exact map (fun _ => (holdBy ..).after (setZst ..)) (Work.activate ..).stop

theorem leaveSet (n : Nat) (x : Stream) : Only .stop s (s.leaveSet n x) := by
  unfold State.leaveSet
  exact .opt (fun _ => ((Drop.putStream ..).dropStop.after (.foldl (fun _ _ => ((holdBy ..).after (.ite (becomeFull ..) (.refl _))))))) (.refl _)

theorem openSet (n : Nat) : Only .stop s (s.openSet n) := by
  unfold State.openSet
  exact .opt
    (fun _ => (.opt (fun _ => (.ite (setStream ..) (.ite (setStream ..) ((Drop.putStream ..).dropStop.after (openAll ..))))) (setStream ..)))
    (.refl _)

theorem openIdx (n : Nat) : Only .stop s (s.openIdx n) := by
  unfold State.openIdx
  exact .opt (fun _ => (.opt (fun _ => (.ite (setStream ..) ((Drop.putStream ..).dropStop.after (openAll ..)))) (setStream ..))) (.refl _)

theorem stageBlk (h off v : Nat) (c : Cmd) : Only .stop s (s.stageBlk h off v c) := by
  unfold State.stageBlk
  exact (stage ..)

theorem advanceLog (n : Nat) (x : Stream) (p : Nat) : Only .stop s (s.advanceLog n x p) := by
  unfold State.advanceLog
  exact .opt
    (fun _ =>
      (.after
        (.foldl
          (fun _ _ => (.ite (.refl _) ((Work.jnZone ..).stop.after ((Drop.zseq ..).dropStop.after ((Work.progZone ..).stop.after ((Work.putZx ..).stop.after (wr (by decide) ..))))))))
        (Drop.putStream ..).dropStop))
    (.refl _)

theorem notice (x : Stream) (num st : Nat) : Only .stop s (s.notice x num st) := by
  unfold State.notice
  exact .ite (.opt (fun _ => (.ite (.refl _) (Event.sendQp ..).eventStop)) (.refl _)) (.refl _)

theorem dropFrame (n key : Nat) : Only .stop s (s.dropFrame n key) := by
  unfold State.dropFrame
  exact .opt
    (fun _ =>
      (.opt
        (fun _ =>
          (.after
            (.ite
              (Drop.putStream ..).dropStop
              (.after
                (.ite
                  (Drop.putStream ..).dropStop
                  (.after
                    (.opt (fun _ => (.ite ((openSet ..).after (leaveSet ..)) (.refl _))) (.refl _))
                    ((Work.jn ..).stop.after ((advanceLog ..).after (Drop.putStream ..).dropStop))))
                (.ite (draw ..) (.refl _))))
            ((notice ..).after (upd rfl))))
        (.refl _)))
    (.refl _)

theorem writeIdx (n : Nat) : Only .stop s (s.writeIdx n) := by
  unfold State.writeIdx
  exact .opt
    (fun _ =>
      (.opt
        (fun _ =>
          (.ite
            (.refl _)
            (.after
              (.ite ((openIdx ..).after ((Drop.putStream ..).dropStop.after ((holdBy ..).after (becomeFull ..)))) (.refl _))
              ((Drop.putStream ..).dropStop.after
                ((Work.jnZone ..).stop.after ((Drop.zseq ..).dropStop.after ((Work.progZone ..).stop.after ((wr (by decide) ..).after (stageBlk ..)))))))))
        (.refl _)))
    (.refl _)

theorem writeAllIdx (n : Nat) : Only .stop s (s.writeAllIdx n) := by
  unfold State.writeAllIdx
  exact .foldl (fun _ _ => (writeIdx ..))

theorem capDrop (ok : Stream → Bool) : Only .stop s (s.capDrop ok) := by
  unfold State.capDrop
  exact .foldl (fun _ _ => (.after (.foldl (fun _ _ => (dropFrame ..))) (Drop.dropMsg ..).dropStop))

theorem stopsGone : Only .stop s s.stopsGone := by
  unfold State.stopsGone
  exact upd rfl

theorem keepRecs : Only .stop s s.keepRecs := by
  unfold State.keepRecs
  exact .foldl (fun _ _ => (writeAllIdx ..))

theorem sendPfc (p u quanta : Nat) : Only .stop s (s.sendPfc p u quanta) := by
  unfold State.sendPfc
  exact (Event.send ..).eventStop.after (wr (by decide) ..)

theorem putLink8 (l : Nat) (x : Link) : Only .stop s (s.putLink8 l x) := by
  unfold State.putLink8
  exact upd rfl

theorem parLog (mem addr : Nat) : Only .stop s (s.parLog mem addr) := by
  unfold State.parLog
  exact .ite (.refl _) ((wr (by decide) ..).after ((wr (by decide) ..).after (wr (by decide) ..)))

theorem eccLog (dpa : Nat) (ue dev poison : Bool) (sym : Nat) : Only .stop s (s.eccLog dpa ue dev poison sym) := by
  unfold State.eccLog
  exact .ite (.refl _) ((wr (by decide) ..).after ((wr (by decide) ..).after ((wr (by decide) ..).after ((wr (by decide) ..).after ((wr (by decide) ..).after (wr (by decide) ..))))))

theorem dramCe (dpa sym : Nat) : Only .stop s (s.dramCe dpa sym) := by
  unfold State.dramCe
  exact (correctable ..).after (.after (upd rfl) ((eccLog ..).after (inc (by decide) ..)))

theorem dramUe (dpa : Nat) (dev : Bool) : Only .stop s (s.dramUe dpa dev) := by
  unfold State.dramUe
  exact (Event.raise ..).eventStop.after ((eccLog ..).after ((inc (by decide) ..).after (inc (by decide) ..)))

theorem setPoison (b : Nat) : Only .stop s (s.setPoison b) := by
  unfold State.setPoison
  exact upd rfl

theorem clrPoison (b : Nat) : Only .stop s (s.clrPoison b) := by
  unfold State.clrPoison
  exact upd rfl

theorem lineUe (nsid page : Nat) : Only .stop s (s.lineUe nsid page) := by
  unfold State.lineUe
  exact .after (.opt (fun _ => (.ite (.refl _) ((putLine ..).after (.ite (.refl _) (chargeFill ..))))) (.refl _)) (inc (by decide) ..)

theorem regionUe (dpa region a b : Nat) : Only .stop s (s.regionUe dpa region a b) := by
  unfold State.regionUe
  split
  · exact (lineUe ..)
  · exact .refl _
  · exact upd rfl
  · exact .refl _
  · exact (setPoison ..)
  · exact (parLog ..).after (setPoison ..)
  · exact (clrPoison ..)

theorem putBurst (b v : Nat) : Only .stop s (s.putBurst b v) := by
  unfold State.putBurst
  exact upd rfl

/-- The write's errors, its burst, and the granule that it makes dirty. -/
theorem winMark {m : State} (h : Only .stop s m) (p : Bool) (g : Nat) : Only .stop s (if p then m else
    let s : State := { m with pcx := { m.pcx with wb := m.pcx.wb.filter (fun x => x != g) } }
    if s.stg.dirty.contains g then s else { s with stg := { s.stg with dirty := s.stg.dirty ++ [g] } }) :=
  .after (.ite (.refl _) (.after (.ite (.refl _) (upd rfl)) (upd rfl))) h

theorem winErr (full : Bool) (b dpa err sym : Nat) : Only .stop s (if full then s.clrPoison b
    else if 2 ≤ err || s.drc.poison.contains b then (s.dramUe dpa (err = 3)).setPoison b
    else if err = 1 then s.dramCe dpa sym
    else s) :=
  .ite (clrPoison ..) (.ite ((setPoison ..).after (dramUe ..)) (.ite (dramCe ..) (.refl _)))

theorem winWrite (dpa data mask err sym : Nat) : Only .stop s (s.winWrite dpa data mask err sym) :=
  winMark _ ((putBurst ..).after (winErr ..)) _ _

theorem setDrain (ch : Nat) : Only .stop s (s.setDrain ch) := by
  unfold State.setDrain
  exact upd rfl

theorem putDreqs (ch : Nat) (l : List DReq) : Only .stop s (s.putDreqs ch l) := by
  unfold State.putDreqs
  exact (setDrain ..).after (upd rfl)

theorem rowUsed (r : DReq) : Only .stop s (s.rowUsed r) := by
  unfold State.rowUsed
  exact upd rfl

theorem readCheck (dpa err sym : Nat) : Only₁ .stop s (s.readCheck dpa err sym) := by
  unfold State.readCheck
  exact .ite (.pair (dramUe ..)) (.ite (.pair (dramCe ..)) (.pair (.refl _)))

theorem drcAct (r : DReq) : Only .stop s (s.drcAct r) := by
  unfold State.drcAct
  split
  · exact .ite ((Event.send ..).eventStop.after ((setPoison ..).after (readCheck ..))) ((Event.send ..).eventStop.after (readCheck ..))
  · exact .ite (upd rfl) ((Event.send ..).eventStop.after (winWrite ..))
  · exact .ite ((regionUe ..).after (readCheck ..)) (readCheck ..)

theorem drcServe (ch : Nat) : Only .stop s (s.drcServe ch) := by
  unfold State.drcServe
  exact .opt (fun _ => ((drcAct ..).after ((rowUsed ..).after (putDreqs ..)))) (.refl _)

theorem drcServeN (ch n : Nat) : Only .stop s (State.drcServeN ch n s) := by
  induction n generalizing s with
  | zero => exact refl s
  | succ n ih => exact .ite (.refl _) ((ih _).after (drcServe ..))

theorem drcDrain : Only .stop s s.drcDrain := by
  unfold State.drcDrain
  exact .foldl (fun _ _ => (drcServeN ..))

theorem setMv (mv : Nat) : Only .stop s (s.setMv mv) := by
  unfold State.setMv
  exact .after (upd rfl) ((Event.send ..).eventStop.after (wr (by decide) ..))

theorem norSummary : Only .stop s s.norSummary := by
  unfold State.norSummary
  exact (draw ..).after ((inc (by decide) ..).after (Event.norWrite ..).eventStop)

theorem phyOff (p u : Nat) : Only .stop s (s.phyOff p u) := by
  unfold State.phyOff
  exact .ite (.refl _) (Link.setLink ..).linkStop

theorem pauseAll : Only .stop s s.pauseAll := by
  unfold State.pauseAll
  exact .foldl (fun _ _ => (.foldl (fun _ _ => (.ite (sendPfc ..) (.refl _)))))

theorem stopRecord : Only .stop s s.stopRecord := by
  unfold State.stopRecord
  exact .after (upd rfl) (.after (upd rfl) (norSummary ..))

theorem setHop (l h st : Nat) : Only .stop s (s.setHop l h st) := by
  unfold State.setHop
  exact (putLink8 ..).after (.ite (wr (by decide) ..) (wr (by decide) ..))

theorem hopsIn {s : State} {sts : List Nat} {f : State → Nat → Nat → State} (h : ∀ m x1 x2, Only .stop m (f m x1 x2)) :
    Only .stop s (s.hopsIn sts f) := by
  unfold State.hopsIn
  exact .foldl (fun _ _ => (.foldl (fun _ _ => (.ite (h _ _ _) (.refl _)))))

theorem trainDown : Only .stop s s.trainDown := by
  unfold State.trainDown
  exact hopsIn (fun _ _ _ => (.ite (setHop ..) (.refl _)))


end Stop
end Only
end Sys2Proof.Machine
end


section
/-! SUPPORT. Ending work brings no new command in flight. -/

namespace Sys2Proof.Machine

/-- Every command in flight was in flight before. -/
def Bound.fewer : Bound where
  rel s t := ∀ c ∈ t.zn.cmds, ∃ d ∈ s.zn.cmds, d.q = c.q ∧ d.cid = c.cid
  refl _ c h := ⟨c, h, rfl, rfl⟩
  trans hab hbc c h := by
    obtain ⟨d, hd, hq, hc⟩ := hbc c h
    obtain ⟨e, he, hq', hc'⟩ := hab d hd
    exact ⟨e, he, hq'.trans hq, hc'.trans hc⟩

namespace Only.Fewer

-- So the unifier sees a match on an option as the recursor that `opt` speaks of.
set_option smartUnfolding false

theorem upd {s : State} {regs tim evr ras sl zn stg rdn die ftl fns assocs cip cap net pup pwr img gen kz pcx drc outs free pending}
    (h : zn.cmds = s.zn.cmds) : Only .fewer s ⟨regs, tim, evr, ras, sl, zn, stg, rdn, die, ftl, fns, assocs, cip, cap, net, pup, pwr, img, gen,
      kz, pcx, drc, outs, free, pending⟩ := ⟨fun c hc => ⟨c, h ▸ hc, rfl, rfl⟩⟩

/-- Commands that are taken away leave the others. -/
theorem sub {s t : State} (h : t.zn.cmds ⊆ s.zn.cmds) : Only .fewer s t := ⟨fun c hc => ⟨c, h hc, rfl, rfl⟩⟩

/-- With no command in flight none is in flight afterwards. -/
theorem none {s t : State} (h : Only .fewer s t) (hs : s.zn.cmds = []) : t.zn.cmds = [] := by
  refine List.eq_nil_iff_forall_not_mem.2 fun c hc => ?_
  obtain ⟨d, hd, -⟩ := h.rel c hc
  rw [hs] at hd
  exact List.not_mem_nil hd

variable (s : State)

theorem wr (f : Fld) (v i j p : Nat) : Only .fewer s (s.wr f v i j p) := upd rfl

theorem inc (f : Fld) (i j n : Nat) : Only .fewer s (s.inc f i j n) := upd rfl

theorem addw (f : Fld) (n i j : Nat) : Only .fewer s (s.addw f n i j) := upd rfl

theorem dec (f : Fld) (i j n : Nat) : Only .fewer s (s.dec f i j n) := upd rfl

theorem clr (f : Fld) (i j p : Nat) : Only .fewer s (s.clr f i j p) := upd rfl

theorem send (o : Out) : Only .fewer s (s.send o) := by
  unfold State.send
  exact upd rfl

theorem sendOn (p u pr : Nat) (qp : Option Nat) (o : Out) : Only .fewer s (s.sendOn p u pr qp o) := by
  unfold State.sendOn
  exact .ite (upd rfl) (send ..)

theorem sendQp (n : Nat) (o : Out) : Only .fewer s (s.sendQp n o) := by
  unfold State.sendQp
  exact .opt (fun _ => (sendOn ..)) (send ..)

theorem draw : Only .fewer s s.draw := by
  unfold State.draw
  exact upd rfl

theorem bump : Only .fewer s s.bump := by
  unfold State.bump
  exact upd rfl

theorem putSx (n : Nat) (x : SliceX) : Only .fewer s (s.putSx n x) := by
  unfold State.putSx
  exact upd rfl

theorem logErr (o : Org) (cid sct sc : Nat) (die : Option Nat) : Only .fewer s (s.logErr o cid sct sc die) := by
  unfold State.logErr
  exact .after (.ite (upd rfl) (.refl _)) (.ite ((addw ..).after (upd rfl)) (.refl _))

theorem hold (func : Nat) (c : Cpl) (t : Stamp) : Only .fewer s (s.hold func c t) := by
  unfold State.hold
  exact .opt (fun _ => (upd rfl)) (.refl _)

theorem mapQ (i : Nat) (f : Queue → Queue) : Only .fewer s (s.mapQ i f) := by
  unfold State.mapQ
  exact upd rfl

theorem pushCq (func cqid : Nat) : Only .fewer s (s.pushCq func cqid) := by
  unfold State.pushCq
  exact upd rfl

theorem postAdm (n : Nat) (c : Cpl) : Only .fewer s (s.postAdm n c) := by
  unfold State.postAdm
  exact .after (.opt (fun _ => (send ..)) (.refl _)) ((pushCq ..).after (send ..))

theorem admLess (o : Org) : Only .fewer s (s.admLess o) := by
  unfold State.admLess
  exact .opt (fun _ => (mapQ ..)) (.refl _)

theorem admPost (o : Org) (c : Cpl) (t : Stamp) : Only .fewer s (s.admPost o c t) := by
  unfold State.admPost
  split
  · exact .ite (postAdm ..) (hold ..)
  · exact .opt (fun _ => (sendQp ..)) (send ..)
  · exact (send ..)

theorem adm (o : Org) (cid : Nat) (st : Nat × Nat) (dw0 : Nat) (data : List Nat) : Only .fewer s (s.adm o cid st dw0 data) := by
  unfold State.adm
  exact (admPost ..).after ((admLess ..).after (logErr ..))

theorem dropCmd (q cid : Nat) : Only .fewer s (s.dropCmd q cid) := by
  unfold State.dropCmd
  exact sub List.filter_sublist.subset

theorem putQ (i : Nat) (q : Queue) : Only .fewer s (s.putQ i q) := by
  unfold State.putQ
  exact upd rfl

theorem stale (slice : Nat) : Only .fewer s (s.stale slice) := by
  unfold State.stale
  exact inc ..

theorem putVec (v : VecSt) : Only .fewer s (s.putVec v) := by
  unfold State.putVec
  exact upd rfl

theorem signal (func vec urg : Nat) (t : Stamp) : Only .fewer s (s.signal func vec urg t) := by
  unfold State.signal
  exact .opt (fun _ => (.ite ((send ..).after (putVec ..)) (putVec ..))) (send ..)

theorem fin (c : Cmd) (st : Nat × Nat) (dw0 : Nat) (data : List Nat) (die : Option Nat) : Only .fewer s (s.fin c st dw0 data die) := by
  unfold State.fin
  exact .ite
    (.refl _)
    (.after
      (.ite
        (stale ..)
        (.after
          (.opt
            (fun _ =>
              (.after
                (.ite
                  (sendQp ..)
                  (.ite (hold ..) (.after (.opt (fun _ => (signal ..)) (.refl _)) ((pushCq ..).after (send ..)))))
                (putQ ..)))
            (.refl _))
          (.after (.ite (inc ..) (.refl _)) (logErr ..))))
      (dropCmd ..))

theorem charge (slice : Nat) (q : Option Nat) (c : Nat) : Only .fewer s (s.charge slice q c) := by
  unfold State.charge
  exact .after (.opt (fun _ => (.opt (fun _ => (putQ ..)) (.refl _))) (.refl _)) ((putSx ..).after ((wr ..).after (addw ..)))

theorem chargeBg (k c : Nat) : Only .fewer s (s.chargeBg k c) := by
  unfold State.chargeBg
  exact .after (upd rfl) (charge ..)

theorem jn (ty : Nat) (f : List Nat) (act : JAct) : Only .fewer s (s.jn ty f act) := by
  unfold State.jn
  exact upd rfl

theorem jnBlks (l : List Blk) : Only .fewer s (s.jnBlks l) := by
  unfold State.jnBlks
  exact .foldl (fun _ _ => (jn ..))

theorem putZx (h : Nat) (z : ZoneX) : Only .fewer s (s.putZx h z) := by
  unfold State.putZx
  exact upd rfl

theorem zseq (h : Nat) : Only .fewer s (s.zseq h) := by
  unfold State.zseq
  exact addw ..

theorem jnZone (h : Nat) : Only .fewer s (s.jnZone h) := by
  unfold State.jnZone
  exact (jn ..)

theorem setUd (k v : Nat) : Only .fewer s (s.setUd k v) := upd rfl

theorem putDie (d : Nat) (x : DieSt) : Only .fewer s (s.putDie d x) := by
  unfold State.putDie
  exact upd rfl

theorem putBlk (b : Blk) (x : BlkSt) : Only .fewer s (s.putBlk b x) := by
  unfold State.putBlk
  exact upd rfl

theorem freeTails (b : Blk) : Only .fewer s (s.freeTails b) := by
  unfold State.freeTails
  exact upd rfl

theorem takeBlk (d : Nat) (onebit rebuild : Bool) : Only.OfSome₂ .fewer s (s.takeBlk d onebit rebuild) := by
  unfold State.takeBlk
  exact .opt (fun _ => (.some (.pair ((putDie ..).after (.after (.ite (freeTails ..) (.refl _)) (putBlk ..)))))) .none

theorem enq (d : Nat) (o : DOp) : Only .fewer s (s.enq d o) := by
  unfold State.enq
  exact (bump ..).after (putDie ..)

theorem filterOps (keep : DOp → Bool) : Only .fewer s (s.filterOps keep) := by
  unfold State.filterOps
  exact upd rfl

theorem putRow (r : RowId) (x : SRow) : Only .fewer s (s.putRow r x) := by
  unfold State.putRow
  exact .ite (.opt (fun _ => (upd rfl)) (.refl _)) (.ite (upd rfl) (putZx ..))

theorem norWrite (kind part parts ns : Nat) (recs : List Rec) : Only .fewer s (s.norWrite kind part parts ns recs) := by
  unfold State.norWrite
  exact (wr ..).after ((wr ..).after ((wr ..).after (upd rfl)))

theorem norCopy (kind ns : Nat) (recs : List Rec) : Only .fewer s (s.norCopy kind ns recs) := by
  unfold State.norCopy
  exact .foldl (fun _ _ => (norWrite ..))

theorem faultFlush : Only .fewer s s.faultFlush := by
  unfold State.faultFlush
  exact (inc ..).after ((norCopy ..).after (.after (upd rfl) ((chargeBg ..).after (upd rfl))))

theorem recAppend (code arg trig : Nat) (addrs : List Nat) (flush : Bool) : Only .fewer s (s.recAppend code arg trig addrs flush) := by
  unfold State.recAppend
  exact .ite (inc ..) (.ite ((inc ..).after (wr ..)) (upd rfl))

theorem record (code arg : Nat) : Only .fewer s (s.record code arg) := by
  unfold State.record
  exact .ite
    (.refl _)
    (.opt (fun _ => (.ite (.refl _) (.ite ((faultFlush ..).after (recAppend ..)) (recAppend ..)))) (recAppend ..))

theorem putView (v : EvView) : Only .fewer s (s.putView v) := by
  unfold State.putView
  exact upd rfl

theorem dropCtl (c : Ctl) : Only .fewer s (s.dropCtl c) := by
  unfold State.dropCtl
  exact upd rfl

theorem notify (c : Ctl) (ty info page : Nat) : Only .fewer s (s.notify c ty info page) := by
  unfold State.notify
  exact .opt (fun _ => ((adm ..).after (upd rfl))) (.ite (.refl _) (upd rfl))

theorem reportTo (cls : Nat) (c : Ctl) : Only .fewer s (s.reportTo cls c) := by
  unfold State.reportTo
  exact .ite (.refl _) ((notify ..).after (putView ..))

theorem loseFor (c : Ctl) : Only .fewer s (s.loseFor c) := by
  unfold State.loseFor
  exact (putView ..)

theorem raise (code slice arg : Nat) : Only .fewer s (s.raise code slice arg) := by
  unfold State.raise
  exact .after
    (.foldl (fun _ _ => (reportTo ..)))
    (.after
      (.ite (send ..) (.refl _))
      ((record ..).after (.ite (upd rfl) (.after (.foldl (fun _ _ => (loseFor ..))) (inc ..)))))

theorem limits (n : Nat) : Only .fewer s (s.limits n) := by
  unfold State.limits
  exact .ite (.after (.ite (raise ..) (.refl _)) ((wr ..).after (wr ..))) ((wr ..).after (wr ..))

theorem zmark (h : Nat) : Only .fewer s (s.zmark h) := by
  unfold State.zmark
  exact .ite (.refl _) (upd rfl)

theorem setZst (h z : Nat) : Only .fewer s (s.setZst h z) := by
  unfold State.setZst
  exact (jnZone ..).after
    ((limits ..).after
      (.after
        (.ite (addw ..) (.ite (dec ..) (.refl _)))
        (.after
          (.ite ((addw ..).after (addw ..)) (.ite ((dec ..).after (dec ..)) (.refl _)))
          ((zseq ..).after ((wr ..).after (zmark ..))))))

theorem giveSram (h : Nat) (rsv : Bool) : Only .fewer s (s.giveSram h rsv) := by
  unfold State.giveSram
  exact (zseq ..).after ((addw ..).after ((addw ..).after ((putZx ..).after (wr ..))))

theorem dropSram (h p : Nat) : Only .fewer s (s.dropSram h p) := by
  unfold State.dropSram
  exact (zseq ..).after ((dec ..).after ((dec ..).after (wr ..)))

theorem takeSlot (h : Nat) : Only .fewer s (s.takeSlot h) := by
  unfold State.takeSlot
  exact .opt (fun _ => (giveSram ..)) (.opt (fun _ => ((giveSram ..).after (dropSram ..))) ((zseq ..).after (wr ..)))

theorem promote : Only .fewer s s.promote := by
  unfold State.promote
  exact .foldl (fun _ _ => (.ite (.opt (fun _ => (giveSram ..)) (.refl _)) (.refl _)))

theorem dropSlot (h : Nat) : Only .fewer s (s.dropSlot h) := by
  unfold State.dropSlot
  exact .ite ((promote ..).after (dropSram ..)) (.ite ((zseq ..).after (wr ..)) (.refl _))

theorem takeAll (onebit : Bool) (ds : List Nat) : Only₁ .fewer s (s.takeAll onebit ds) := by
  induction ds generalizing s with
  | nil => exact refl s
  | cons d ds ih => exact .optMem (fun p e => .pair ((ih p.1).after ((takeBlk ..).get e))) (.pair (ih s))

theorem newRow (g : Grp) (shadow win : Bool) (set : Nat) : Only₁ .fewer s (s.newRow g shadow win set) := by
  unfold State.newRow
  exact .ite (.pair ((takeAll ..).after (takeAll ..))) (.pair (takeAll ..))

theorem newRows (g : Grp) (shadow win : Bool) (xs : List Nat) : Only₁ .fewer s (s.newRows g shadow win xs) := by
  induction xs generalizing s with
  | nil => exact refl s
  | cons x xs ih => exact .pair ((ih _).after (newRow ..))

theorem activate (h dg : Nat) (direct : Bool) : Only.OfSome .fewer s (s.activate h dg direct) := by
  unfold State.activate
  exact .opt
    (fun _ =>
      (.ite
        .none
        (.opt
          (fun _ =>
            (.some
              (.after
                (.foldl (fun _ _ => ((jnBlks ..).after (jnBlks ..))))
                (.after
                  (.foldl (fun _ _ => (jn ..)))
                  ((takeSlot ..).after
                    (.after
                      (.ite (addw ..) (.refl _))
                      ((wr ..).after
                        ((wr ..).after
                          ((wr ..).after
                            ((wr ..).after
                              ((wr ..).after
                                ((wr ..).after
                                  ((wr ..).after
                                    ((wr ..).after
                                      ((putZx ..).after (.after (upd rfl) ((newRows ..).after (zmark ..))))))))))))))))))
          .none)))
    .none

theorem dropDirect (h : Nat) : Only .fewer s (s.dropDirect h) := by
  unfold State.dropDirect
  exact .ite ((putZx ..).after (dec ..)) (.refl _)

theorem failHeld (c : Cmd) (st : Nat × Nat) : Only .fewer s (s.failHeld c st) := by
  unfold State.failHeld
  exact (fin ..).after ((zseq ..).after ((dec ..).after (inc ..)))

theorem failHolds (h : Nat) (st : Nat × Nat) : Only .fewer s (s.failHolds h st) := by
  unfold State.failHolds
  exact .foldl (fun _ _ => (failHeld ..))

theorem foldPar (r : RowId) (u v : Nat) : Only .fewer s (s.foldPar r u v) := by
  unfold State.foldPar
  exact .opt (fun _ => (.ite (.refl _) (upd rfl))) (.refl _)

theorem stageAt (u : StU) (key v : Nat) : Only .fewer s (s.stageAt u key v) := by
  unfold State.stageAt
  exact (foldPar ..).after ((setUd ..).after (upd rfl))

theorem progPage (r : RowId) (k w p m n : Nat) (purp : Purp) (force : Bool) : Only .fewer s (s.progPage r k w p m n purp force) := by
  unfold State.progPage
  exact .opt
    (fun _ =>
      (.ite (.refl _) (.after (.ite (.refl _) ((enq ..).after (.ite (charge ..) (.refl _)))) (.ite (.refl _) (upd rfl)))))
    (.refl _)

theorem progWl (r : RowId) (w n : Nat) (purp : Purp) : Only .fewer s (s.progWl r w n purp) := by
  unfold State.progWl
  exact .opt (fun _ => (.foldl (fun _ _ => (enq ..)))) (.refl _)

theorem openWin (r : RowId) : Only .fewer s (s.openWin r) := by
  unfold State.openWin
  exact .opt
    (fun _ => (.ite (.refl _) (.after (.ite (.refl _) (zseq ..)) ((putRow ..).after ((jnBlks ..).after (takeAll ..))))))
    (.refl _)

theorem progReady (r : RowId) (k n fr upto : Nat) (direct : Bool) : Only .fewer s (s.progReady r k n fr upto direct) := by
  unfold State.progReady
  exact .ite
    (.foldl (fun _ _ => (progWl ..)))
    (.after
      (.foldl (fun _ _ => (progPage ..)))
      (.foldl
        (fun _ _ => (.foldl (fun _ _ => ((progPage ..).after (.opt (fun _ => (.ite (.refl _) (openWin ..))) (.refl _))))))))

theorem padDone (r : RowId) : Only .fewer s (s.padDone r) := by
  unfold State.padDone
  exact .ite (.refl _) ((zseq ..).after ((wr ..).after ((dropSlot ..).after ((dropDirect ..).after (putZx ..)))))

theorem padRow (h : Nat) : Only .fewer s (s.padRow h) := by
  unfold State.padRow
  exact .ite
    (.refl _)
    ((padDone ..).after
      (.after
        (.ite
          (.refl _)
          (.ite
            (.ite (.refl _) (progWl ..))
            (.foldl
              (fun _ _ =>
                (.after
                  (.foldl (fun _ _ => (.opt (fun _ => (.ite (progPage ..) (.refl _))) (.refl _))))
                  (.opt (fun _ => (.ite (.refl _) (openWin ..))) (.refl _)))))))
        (putZx ..)))

theorem failUncommitted (h : Nat) (st : Nat × Nat) : Only .fewer s (s.failUncommitted h st) := by
  unfold State.failUncommitted
  exact .foldl (fun _ _ => (fin ..))

theorem becomeFull (h : Nat) : Only .fewer s (s.becomeFull h) := by
  unfold State.becomeFull
  exact .after
    (.ite (padRow ..) (.refl _))
    ((failUncommitted ..).after ((failHolds ..).after ((setZst ..).after ((wr ..).after ((putZx ..).after (zmark ..))))))

theorem putStream (n : Nat) (x : Stream) : Only .fewer s (s.putStream n x) := by
  unfold State.putStream
  exact upd rfl

theorem setStream (n st rsn : Nat) : Only .fewer s (s.setStream n st rsn) := by
  unfold State.setStream
  exact .opt
    (fun _ =>
      (.ite (.refl _) (.after (.ite (raise ..) (.ite (.ite (.refl _) (raise ..)) (.ite (raise ..) (.refl _)))) (putStream ..))))
    (.refl _)

theorem stage (r : RowId) (u key v pool : Nat) (c : Cmd) : Only .fewer s (s.stage r u key v pool c) := by
  unfold State.stage
  exact (stageAt ..)

theorem progZone (h k fr upto : Nat) : Only .fewer s (s.progZone h k fr upto) := by
  unfold State.progZone
  exact .foldl (fun _ _ => (.ite (progReady ..) (.refl _)))

theorem holdBy (h : Nat) (n : Option Nat) : Only .fewer s (s.holdBy h n) := by
  unfold State.holdBy
  exact (putZx ..)

theorem openAll (n : Nat) (x : Stream) (direct : Bool) (hs : List Nat) : Only₁ .fewer s (s.openAll n x direct hs) := by
  unfold State.openAll
  refine .ite (.pair (.refl _)) (.optMem (fun t e => .pair ?_) (.pair (.refl _)))
  refine OfSome.get (foldlSome (fun _ => rfl) (fun m h => ?_)) e
  exact map (fun _ => (holdBy ..).after (setZst ..)) (activate ..)

theorem leaveSet (n : Nat) (x : Stream) : Only .fewer s (s.leaveSet n x) := by
  unfold State.leaveSet
  exact .opt (fun _ => ((putStream ..).after (.foldl (fun _ _ => ((holdBy ..).after (.ite (becomeFull ..) (.refl _))))))) (.refl _)

theorem openSet (n : Nat) : Only .fewer s (s.openSet n) := by
  unfold State.openSet
  exact .opt
    (fun _ => (.opt (fun _ => (.ite (setStream ..) (.ite (setStream ..) ((putStream ..).after (openAll ..))))) (setStream ..)))
    (.refl _)

theorem openIdx (n : Nat) : Only .fewer s (s.openIdx n) := by
  unfold State.openIdx
  exact .opt (fun _ => (.opt (fun _ => (.ite (setStream ..) ((putStream ..).after (openAll ..)))) (setStream ..))) (.refl _)

theorem stageBlk (h off v : Nat) (c : Cmd) : Only .fewer s (s.stageBlk h off v c) := by
  unfold State.stageBlk
  exact (stage ..)

theorem advanceLog (n : Nat) (x : Stream) (p : Nat) : Only .fewer s (s.advanceLog n x p) := by
  unfold State.advanceLog
  exact .opt
    (fun _ =>
      (.after
        (.foldl
          (fun _ _ => (.ite (.refl _) ((jnZone ..).after ((zseq ..).after ((progZone ..).after ((putZx ..).after (wr ..))))))))
        (putStream ..)))
    (.refl _)

theorem notice (x : Stream) (num st : Nat) : Only .fewer s (s.notice x num st) := by
  unfold State.notice
  exact .ite (.opt (fun _ => (.ite (.refl _) (sendQp ..))) (.refl _)) (.refl _)

theorem dropFrame (n key : Nat) : Only .fewer s (s.dropFrame n key) := by
  unfold State.dropFrame
  exact .opt
    (fun _ =>
      (.opt
        (fun _ =>
          (.after
            (.ite
              (putStream ..)
              (.after
                (.ite
                  (putStream ..)
                  (.after
                    (.opt (fun _ => (.ite ((openSet ..).after (leaveSet ..)) (.refl _))) (.refl _))
                    ((jn ..).after ((advanceLog ..).after (putStream ..)))))
                (.ite (draw ..) (.refl _))))
            ((notice ..).after (upd rfl))))
        (.refl _)))
    (.refl _)

theorem dropMsg (n : Nat) : Only .fewer s (s.dropMsg n) := by
  unfold State.dropMsg
  exact .opt (fun _ => (.ite (.refl _) (putStream ..))) (.refl _)

theorem writeIdx (n : Nat) : Only .fewer s (s.writeIdx n) := by
  unfold State.writeIdx
  exact .opt
    (fun _ =>
      (.opt
        (fun _ =>
          (.ite
            (.refl _)
            (.after
              (.ite ((openIdx ..).after ((putStream ..).after ((holdBy ..).after (becomeFull ..)))) (.refl _))
              ((putStream ..).after
                ((jnZone ..).after ((zseq ..).after ((progZone ..).after ((wr ..).after (stageBlk ..)))))))))
        (.refl _)))
    (.refl _)

theorem writeAllIdx (n : Nat) : Only .fewer s (s.writeAllIdx n) := by
  unfold State.writeAllIdx
  exact .foldl (fun _ _ => (writeIdx ..))

theorem capDrop (ok : Stream → Bool) : Only .fewer s (s.capDrop ok) := by
  unfold State.capDrop
  exact .foldl (fun _ _ => (.after (.foldl (fun _ _ => (dropFrame ..))) (dropMsg ..)))

theorem keepRecs : Only .fewer s s.keepRecs := by
  unfold State.keepRecs
  exact .foldl (fun _ _ => (writeAllIdx ..))

theorem removeQueue (i : Nat) : Only .fewer s (s.removeQueue i) := by
  unfold State.removeQueue
  exact .opt
    (fun _ =>
      ((dec ..).after
        (.after (upd rfl) ((filterOps ..).after (.after (sub List.filter_sublist.subset) (.foldl (fun _ _ => ((zseq ..).after (dec ..)))))))))
    (.refl _)

theorem dropCmds (ok : Nat → Bool) : Only .fewer s (s.dropCmds ok) := by
  unfold State.dropCmds
  exact .after (sub List.filter_sublist.subset) (.after (upd rfl) ((filterOps ..).after (.foldl (fun _ _ => ((zseq ..).after (dec ..))))))

theorem emptyQueue (i : Nat) : Only .fewer s (s.emptyQueue i) := by
  unfold State.emptyQueue
  exact .opt (fun _ => (.after (upd rfl) (putQ ..))) (.refl _)

theorem queueReset (i : Nat) : Only₁ .fewer s (s.queueReset i) := by
  unfold State.queueReset
  exact .opt
    (fun _ => (.after (.ite (.pair (.refl _)) (.ite (.pair (upd rfl)) (.pair (emptyQueue ..)))) (dropCmds ..)))
    (.pair (.refl _))

theorem queueResets (is : List Nat) : Only .fewer s (s.queueResets is) := by
  unfold State.queueResets
  exact .foldl (fun _ _ => (queueReset ..))

theorem putFn (n : Nat) (f : FnSt) : Only .fewer s (s.putFn n f) := by
  unfold State.putFn
  exact upd rfl

theorem endFnQueues (n : Nat) : Only .fewer s (s.endFnQueues n) := by
  unfold State.endFnQueues
  exact .after
    (.ite (upd rfl) (dropCtl ..))
    (.after (upd rfl) (.after (upd rfl) (.after (.foldl (fun _ _ => (removeQueue ..))) (queueResets ..))))

theorem ctlReset (n : Nat) : Only .fewer s (s.ctlReset n) := by
  unfold State.ctlReset
  exact .opt (fun _ => ((endFnQueues ..).after (putFn ..))) (.refl _)

theorem fnReset (n : Nat) : Only .fewer s (s.fnReset n) := by
  unfold State.fnReset
  exact .after (.opt (fun _ => (putFn ..)) (.refl _)) (ctlReset ..)

theorem vfOff (pf : Nat) : Only .fewer s (s.vfOff pf) := by
  unfold State.vfOff
  exact .after
    (.opt (fun _ => (putFn ..)) (.refl _))
    ((wr ..).after ((wr ..).after (.foldl (fun _ _ => (.after (upd rfl) (fnReset ..))))))

theorem pfReset (pf : Nat) : Only .fewer s (s.pfReset pf) := by
  unfold State.pfReset
  exact .after (.ite (upd rfl) (.refl _)) ((fnReset ..).after (vfOff ..))

theorem pcxWarm : Only .fewer s s.pcxWarm := by
  unfold State.pcxWarm
  exact (clr ..).after
    ((clr ..).after ((clr ..).after (.foldl (fun _ _ => ((clr ..).after ((clr ..).after ((clr ..).after (clr ..))))))))

theorem linkReset (l : Nat) : Only .fewer s (s.linkReset l) := by
  unfold State.linkReset
  exact (pcxWarm ..).after (.foldl (fun _ _ => (pfReset ..)))


end Only.Fewer

end Sys2Proof.Machine
end


section
/-! SUPPORT. What rest, wake and the ends of links change; and that DRAM requests leave user data. -/

namespace Sys2Proof.Machine

/-- Rest and wake, the ends of links, edges and the recorder: none of user data, media, staging, streams and the image. -/
def Scope.rest : Scope where
  merge s t := { Scope.event.merge s t with free := t.free, kz := t.kz, drc := t.drc, pup := t.pup, pwr := t.pwr }
  fields := [F.ETH_SUB_STS_LINK, F.ETH_SUB_STS_FEC_LOCK, F.PUP_MBX_STS_SEQ, F.ETH_SUB_STS_XOFF, F.KZL_BID_HOP, F.KZL_STS_HOP0, F.PUP_VREG_TARGET_MV,
    F.PWR_ENTRY_CNT_CNT, F.PWR_STEP_FLOOR, F.PWR_STS_STATE, F.PWR_WAKE_SRC_CODE, F.PWR_WAKE_SRC_FROM, F.PWR_WAKE_SRC_INDEX, F.PWR_WAKE_SRC_REASON,
    F.PWR_WAKE_TIME_TIME, F.EVR_FLUSH_CNT_SUMMARY] ++ eventFields

def Bound.rest : Bound := Scope.rest.bound

namespace Only

theorem eventRest {s t : State} (h : Only .event s t) : Only .rest s t := h.widen (d := Scope.rest) (fun _ _ => rfl) (by decide)

theorem linkRest {s t : State} (h : Only .link s t) : Only .rest s t := h.widen (d := Scope.rest) (fun _ _ => rfl) (by decide)

namespace Rest

-- So the unifier sees a match on an option as the recursor that `opt` speaks of.
set_option smartUnfolding false

variable (s : State)

theorem draw : Only .rest s s.draw := by
  unfold State.draw
  exact upd rfl

theorem sendPfc (p u quanta : Nat) : Only .rest s (s.sendPfc p u quanta) := by
  unfold State.sendPfc
  exact (Event.send ..).eventRest.after (wr (by decide) ..)

theorem putLink8 (l : Nat) (x : Link) : Only .rest s (s.putLink8 l x) := by
  unfold State.putLink8
  exact upd rfl

theorem setMv (mv : Nat) : Only .rest s (s.setMv mv) := by
  unfold State.setMv
  exact .after (upd rfl) ((Event.send ..).eventRest.after (wr (by decide) ..))

theorem norSummary : Only .rest s s.norSummary := by
  unfold State.norSummary
  exact (draw ..).after ((inc (by decide) ..).after (Event.norWrite ..).eventRest)

theorem phyOff (p u : Nat) : Only .rest s (s.phyOff p u) := by
  unfold State.phyOff
  exact .ite (.refl _) (Link.setLink ..).linkRest

theorem pauseAll : Only .rest s s.pauseAll := by
  unfold State.pauseAll
  exact .foldl (fun _ _ => (.foldl (fun _ _ => (.ite (sendPfc ..) (.refl _)))))

theorem stopRecord : Only .rest s s.stopRecord := by
  unfold State.stopRecord
  exact .after (upd rfl) (.after (upd rfl) (norSummary ..))

theorem putHop (l h : Nat) (p : Hop) : Only .rest s (s.putHop l h p) := by
  unfold State.putHop
  exact (putLink8 ..)

theorem sendFlit (l h : Nat) (up : Bool) (f : Flit) : Only .rest s (s.sendFlit l h up f) := by
  unfold State.sendFlit
  exact (Event.send ..).eventRest

theorem sendXfer (l h : Nat) (up : Bool) (x : Xfer) : Only .rest s (s.sendXfer l h up x) := by
  unfold State.sendXfer
  exact .after (.ite (putLink8 ..) (.ite (putLink8 ..) (.refl _))) ((putHop ..).after (sendFlit ..))

theorem pump (l h : Nat) (up : Bool) (n : Nat) : Only .rest s (State.pump l h up n s) := by
  induction n generalizing s with
  | zero => exact refl s
  | succ n ih => exact .ite (.refl _) (.opt (fun _ => (ih _).after (sendXfer ..)) (.refl _))

theorem setHop (l h st : Nat) : Only .rest s (s.setHop l h st) := by
  unfold State.setHop
  exact (putLink8 ..).after (.ite (wr (by decide) ..) (wr (by decide) ..))

theorem settleStep : Only .rest s s.settleStep := by
  unfold State.settleStep
  exact .after
    (.ite (upd rfl) (.refl _))
    (.after
      (.ite (upd rfl) (.refl _))
      (.after (.ite (wr (by decide) ..) (.refl _)) (.after (.ite (upd rfl) (.refl _)) (.ite (upd rfl) (.refl _)))))

theorem hopDown (l h : Nat) : Only .rest s (s.hopDown l h) := by
  unfold State.hopDown
  exact (setHop ..)

theorem burst (l h : Nat) (up ok : Bool) : Only .rest s (s.burst l h up ok) := by
  unfold State.burst
  exact .ite (.refl _) (.after (.ite ((pump ..).after (setHop ..)) (setHop ..)) ((putHop ..).after (Event.send ..).eventRest))

theorem lean : Only .rest s s.lean := by
  unfold State.lean
  exact .ite (.refl _) ((wr (by decide) ..).after (.ite (inc (by decide) ..) (.refl _)))

theorem hopsIn {s : State} {sts : List Nat} {f : State → Nat → Nat → State} (h : ∀ m x1 x2, Only .rest m (f m x1 x2)) :
    Only .rest s (s.hopsIn sts f) := by
  unfold State.hopsIn
  exact .foldl (fun _ _ => (.foldl (fun _ _ => (.ite (h _ _ _) (.refl _)))))

theorem hopQuiet (l h : Nat) : Only .rest s (s.hopQuiet l h) := by
  unfold State.hopQuiet
  exact (setHop ..).after (putHop ..)

theorem hopBack (l h : Nat) : Only .rest s (s.hopBack l h) := by
  unfold State.hopBack
  exact (burst ..).after (burst ..)

theorem napPorts : Only .rest s s.napPorts := by
  unfold State.napPorts
  exact .foldl (fun _ _ => (.foldl (fun _ _ => (.ite (Link.setLink ..).linkRest (phyOff ..)))))

theorem latchModes : Only .rest s s.latchModes := by
  unfold State.latchModes
  exact upd rfl

theorem wakeRecord (code idx rsn st ns : Nat) : Only .rest s (s.wakeRecord code idx rsn st ns) := by
  unfold State.wakeRecord
  exact (wr (by decide) ..).after ((wr (by decide) ..).after ((wr (by decide) ..).after ((wr (by decide) ..).after (wr (by decide) ..))))

theorem trainDown : Only .rest s s.trainDown := by
  unfold State.trainDown
  exact hopsIn (fun _ _ _ => (.ite (setHop ..) (.refl _)))

theorem unrest : Only .rest s s.unrest := by
  unfold State.unrest
  exact (settleStep ..).after
    ((lean ..).after
      ((wr (by decide) ..).after
        (.after
          (.ite (trainDown ..) (.refl _))
          (.after (upd rfl) ((hopsIn (fun _ _ _ => (hopBack ..))).after ((setMv ..).after (upd rfl)))))))

theorem wakeUp (code idx rsn : Nat) (frame : Bool) : Only .rest s (s.wakeUp code idx rsn frame) := by
  unfold State.wakeUp
  exact .ite ((unrest ..).after ((Link.edge ..).linkRest.after ((wakeRecord ..).after (.ite (pauseAll ..) (.refl _))))) (.refl _)

theorem wakeSrc (code idx ns : Nat) : Only .rest s (s.wakeSrc code idx ns) := by
  unfold State.wakeSrc
  exact .ite (.ite ((Event.send ..).eventRest.after (upd rfl)) (.refl _)) (wakeUp ..)

theorem portsOn : Only .rest s s.portsOn := by
  unfold State.portsOn
  exact .foldl (fun _ _ => (.foldl (fun _ _ => (.ite (Link.setLink ..).linkRest (.refl _)))))

end Rest

end Only

/-- Namespaces and user data stay as they are. -/
def Bound.user : Bound where
  rel s t := t.zn.ud = s.zn.ud ∧ t.zn.ns = s.zn.ns ∧ t.cap.streams = s.cap.streams
  refl _ := ⟨rfl, rfl, rfl⟩
  trans := by
    rintro _ _ _ ⟨h₁, h₂, h₃⟩ ⟨g₁, g₂, g₃⟩
    exact ⟨g₁.trans h₁, g₂.trans h₂, g₃.trans h₃⟩

theorem Only.user {s t : State} (h : Only .event s t) : Only .user s t := ⟨by rw [h.frame]; exact ⟨rfl, rfl, rfl⟩⟩

theorem Only.restUser {s t : State} (h : Only .rest s t) : Only .user s t := ⟨by rw [h.frame]; exact ⟨rfl, rfl, rfl⟩⟩

namespace Only.User

-- So the unifier sees a match on an option as the recursor that `opt` speaks of.
set_option smartUnfolding false

theorem upd {s : State} {regs tim evr ras sl zn stg rdn die ftl fns assocs cip cap net pup pwr img gen kz pcx drc outs free pending}
    (hu : zn.ud = s.zn.ud) (hn : zn.ns = s.zn.ns) (hc : cap.streams = s.cap.streams) : Only .user s ⟨regs, tim, evr, ras, sl, zn, stg, rdn, die, ftl,
      fns, assocs, cip, cap, net, pup, pwr, img, gen, kz, pcx, drc, outs, free, pending⟩ := ⟨hu, hn, hc⟩





variable (s : State)

theorem wr (f : Fld) (v i j p : Nat) : Only .user s (s.wr f v i j p) := upd rfl rfl rfl

theorem inc (f : Fld) (i j n : Nat) : Only .user s (s.inc f i j n) := upd rfl rfl rfl

theorem addw (f : Fld) (n i j : Nat) : Only .user s (s.addw f n i j) := upd rfl rfl rfl

theorem dec (f : Fld) (i j n : Nat) : Only .user s (s.dec f i j n) := upd rfl rfl rfl

theorem clr (f : Fld) (i j p : Nat) : Only .user s (s.clr f i j p) := upd rfl rfl rfl

theorem zseq (h : Nat) : Only .user s (s.zseq h) := by
  unfold State.zseq
  exact addw ..

theorem filterOps (keep : DOp → Bool) : Only .user s (s.filterOps keep) := by
  unfold State.filterOps
  exact upd rfl rfl rfl

theorem correctable (mem addr : Nat) : Only .user s (s.correctable mem addr) := by
  unfold State.correctable
  exact .after
    (.opt
      (fun _ => (.after (.ite (Event.raise ..).user (.refl _)) (upd rfl rfl rfl)))
      (.opt (fun _ => (.after (.ite (Event.raise ..).user (.refl _)) (upd rfl rfl rfl))) (inc ..)))
    (inc ..)

theorem putLine (l : MLine) : Only .user s (s.putLine l) := by
  unfold State.putLine
  exact upd rfl rfl rfl

theorem chargeFill (n : Nat) : Only .user s (s.chargeFill n) := by
  unfold State.chargeFill
  exact (Event.charge ..).user

theorem dropCmds (ok : Nat → Bool) : Only .user s (s.dropCmds ok) := by
  unfold State.dropCmds
  exact .after (upd rfl rfl rfl) (.after (upd rfl rfl rfl) ((filterOps ..).after (.foldl (fun _ _ => ((zseq ..).after (dec ..))))))

theorem parLog (mem addr : Nat) : Only .user s (s.parLog mem addr) := by
  unfold State.parLog
  exact .ite (.refl _) ((wr ..).after ((wr ..).after (wr ..)))

theorem eccLog (dpa : Nat) (ue dev poison : Bool) (sym : Nat) : Only .user s (s.eccLog dpa ue dev poison sym) := by
  unfold State.eccLog
  exact .ite (.refl _) ((wr ..).after ((wr ..).after ((wr ..).after ((wr ..).after ((wr ..).after (wr ..))))))

theorem dramCe (dpa sym : Nat) : Only .user s (s.dramCe dpa sym) := by
  unfold State.dramCe
  exact (correctable ..).after (.after (upd rfl rfl rfl) ((eccLog ..).after (inc ..)))

theorem dramUe (dpa : Nat) (dev : Bool) : Only .user s (s.dramUe dpa dev) := by
  unfold State.dramUe
  exact (Event.raise ..).user.after ((eccLog ..).after ((inc ..).after (inc ..)))

theorem setPoison (b : Nat) : Only .user s (s.setPoison b) := by
  unfold State.setPoison
  exact upd rfl rfl rfl

theorem clrPoison (b : Nat) : Only .user s (s.clrPoison b) := by
  unfold State.clrPoison
  exact upd rfl rfl rfl

theorem lineUe (nsid page : Nat) : Only .user s (s.lineUe nsid page) := by
  unfold State.lineUe
  exact .after (.opt (fun _ => (.ite (.refl _) ((putLine ..).after (.ite (.refl _) (chargeFill ..))))) (.refl _)) (inc ..)

theorem regionUe (dpa region a b : Nat) : Only .user s (s.regionUe dpa region a b) := by
  unfold State.regionUe
  split
  · exact (lineUe ..)
  · exact .refl _
  · exact upd rfl rfl rfl
  · exact .refl _
  · exact (setPoison ..)
  · exact (parLog ..).after (setPoison ..)
  · exact (clrPoison ..)

theorem putBurst (b v : Nat) : Only .user s (s.putBurst b v) := by
  unfold State.putBurst
  exact upd rfl rfl rfl

theorem winMark {m : State} (h : Only .user s m) (p : Bool) (g : Nat) : Only .user s (if p then m else
    let s : State := { m with pcx := { m.pcx with wb := m.pcx.wb.filter (fun x => x != g) } }
    if s.stg.dirty.contains g then s else { s with stg := { s.stg with dirty := s.stg.dirty ++ [g] } }) :=
  .after (.ite (.refl _) (.after (.ite (.refl _) (upd rfl rfl rfl)) (upd rfl rfl rfl))) h

theorem winErr (full : Bool) (b dpa err sym : Nat) : Only .user s (if full then s.clrPoison b
    else if 2 ≤ err || s.drc.poison.contains b then (s.dramUe dpa (err = 3)).setPoison b
    else if err = 1 then s.dramCe dpa sym
    else s) :=
  .ite (clrPoison ..) (.ite ((setPoison ..).after (dramUe ..)) (.ite (dramCe ..) (.refl _)))

theorem winWrite (dpa data mask err sym : Nat) : Only .user s (s.winWrite dpa data mask err sym) :=
  winMark _ ((putBurst ..).after (winErr ..)) _ _

theorem setDrain (ch : Nat) : Only .user s (s.setDrain ch) := by
  unfold State.setDrain
  exact upd rfl rfl rfl

theorem putDreqs (ch : Nat) (l : List DReq) : Only .user s (s.putDreqs ch l) := by
  unfold State.putDreqs
  exact (setDrain ..).after (upd rfl rfl rfl)

theorem rowUsed (r : DReq) : Only .user s (s.rowUsed r) := by
  unfold State.rowUsed
  exact upd rfl rfl rfl

theorem readCheck (dpa err sym : Nat) : Only₁ .user s (s.readCheck dpa err sym) := by
  unfold State.readCheck
  exact .ite (.pair (dramUe ..)) (.ite (.pair (dramCe ..)) (.pair (.refl _)))

theorem drcAct (r : DReq) : Only .user s (s.drcAct r) := by
  unfold State.drcAct
  split
  · exact .ite ((Event.send ..).user.after ((setPoison ..).after (readCheck ..))) ((Event.send ..).user.after (readCheck ..))
  · exact .ite (upd rfl rfl rfl) ((Event.send ..).user.after (winWrite ..))
  · exact .ite ((regionUe ..).after (readCheck ..)) (readCheck ..)

theorem drcServe (ch : Nat) : Only .user s (s.drcServe ch) := by
  unfold State.drcServe
  exact .opt (fun _ => ((drcAct ..).after ((rowUsed ..).after (putDreqs ..)))) (.refl _)

theorem drcServeN (ch n : Nat) : Only .user s (State.drcServeN ch n s) := by
  induction n generalizing s with
  | zero => exact refl s
  | succ n ih => exact .ite (.refl _) ((ih _).after (drcServe ..))

theorem drcDrain : Only .user s s.drcDrain := by
  unfold State.drcDrain
  exact .foldl (fun _ _ => (drcServeN ..))


end Only.User

end Sys2Proof.Machine
end


section
/-! SUPPORT. What putting a member of a row on another block changes. -/

namespace Sys2Proof.Machine

/-- As work on the media, with zones that finish for want of spare blocks. -/
def Scope.redo : Scope := Scope.media.also [F.RDN_STS_SUBST_FULL, F.ZON_DEV_XN_FINISH, F.ZON_ENT0_STATE, F.ZON_ENT2_WP_OFF]

def Bound.redo : Bound := Scope.redo.bound

namespace Only

theorem eventRedo {s t : State} (h : Only .event s t) : Only .redo s t := h.widen (d := Scope.redo) (fun _ _ => rfl) (by decide)

theorem redo {s t : State} (h : Only .media s t) : Only .redo s t := h.widen (d := Scope.redo) (fun _ _ => rfl) (by decide)

theorem OfSome.redo {s : State} {o : Option State} (h : OfSome .media s o) : OfSome .redo s o := ⟨fun e => (h.get e).redo⟩

theorem OfSome₂.redo {β : Type} {s : State} {o : Option (State × β)} (h : OfSome₂ .media s o) : OfSome₂ .redo s o := ⟨fun e => (h.get e).redo⟩

namespace Redo

-- So the unifier sees a match on an option as the recursor that `opt` speaks of.
set_option smartUnfolding false

variable (s : State)

theorem zoneChanged (nsid zslba slice : Nat) : Only .redo s (s.zoneChanged nsid zslba slice) := by
  unfold State.zoneChanged
  exact .foldl (fun _ _ => ((Event.notify ..).eventRedo.after (.ite (.refl _) (upd rfl))))

theorem setZst (h z : Nat) : Only .redo s (s.setZst h z) := by
  unfold State.setZst
  exact (Work.jnZone ..).redo.after
    ((Work.limits ..).redo.after
      (.after
        (.ite (addw (by decide) ..) (.ite (dec (by decide) ..) (.refl _)))
        (.after
          (.ite ((addw (by decide) ..).after (addw (by decide) ..)) (.ite ((dec (by decide) ..).after (dec (by decide) ..)) (.refl _)))
          ((Work.zseq ..).redo.after ((wr (by decide) ..).after (Work.zmark ..).redo)))))

theorem becomeFull (h : Nat) : Only .redo s (s.becomeFull h) := by
  unfold State.becomeFull
  exact .after
    (.ite (Work.padRow ..).redo (.refl _))
    ((Work.failUncommitted ..).redo.after ((Work.failHolds ..).redo.after ((setZst ..).after ((wr (by decide) ..).after ((Work.putZx ..).redo.after (Work.zmark ..).redo)))))

theorem ctlFinish (h : Nat) : Only .redo s (s.ctlFinish h) := by
  unfold State.ctlFinish
  exact .ite ((zoneChanged ..).after ((inc (by decide) ..).after ((wr (by decide) ..).after (becomeFull ..)))) (.refl _)

theorem noSpare (r : RowId) : Only .redo s (s.noSpare r) := by
  unfold State.noSpare
  exact .ite (.refl _) (ctlFinish ..)

theorem substitute (r : RowId) (m : Nat) : Only .redo s (s.substitute r m) := by
  unfold State.substitute
  exact .opt
    (fun _ =>
      (.ite
        (.refl _)
        (.ite
          ((noSpare ..).after (.ite (.refl _) ((Event.raise ..).eventRedo.after (wr (by decide) ..))))
          (.opt
            (fun _ => (.optMem (fun _ h0 => ((Work.jn ..).redo.after (.after (upd rfl) ((Work.takeBlk ..).redo.get h0)))) (noSpare ..)))
            (noSpare ..)))))
    (.refl _)

theorem openTail (d t : Nat) : Only.OfSome .redo s (s.openTail d t) := by
  unfold State.openTail
  refine .ite .none ⟨fun e => ?_⟩
  obtain ⟨p, hp, rfl⟩ := Option.map_eq_some_iff.1 e
  exact .after (upd rfl) ((Work.takeBlk ..).redo.get hp)

theorem putTail (e : Tail) : Only .redo s (s.putTail e) := by
  unfold State.putTail
  exact upd rfl

theorem takeTail (b : Blk) (t q : Nat) : Only.OfSome .redo s (s.takeTail b t q) := by
  refine ⟨fun e => ?_⟩
  obtain ⟨m, hm, e⟩ := Option.bind_eq_some_iff.1 e
  obtain ⟨f, -, rfl⟩ := Option.map_eq_some_iff.1 e
  exact (putTail ..).after (OfSome.get (.ite (.some (.refl _)) (openTail ..)) hm)

theorem reserveTails (b : Blk) (t : Nat) : Only.OfSome .redo s (s.reserveTails b t) := by
  unfold State.reserveTails
  exact .ite (.some (.refl _)) (foldlSome (fun _ => rfl) (fun _ _ => takeTail ..))

theorem asTier (b : Blk) (t : Nat) : Only .redo s (s.asTier b t) := by
  unfold State.asTier
  exact .ite (.refl _) (.after (.ite (.refl _) (reserveTails ..).getD) ((Work.putBlk ..).redo.after (Work.freeTails ..).redo))

theorem replaceBlk (r : RowId) (m : Nat) (old : Blk) (onebit : Bool) (tier : Nat) (o : DOp) :
    Only .redo s (s.replaceBlk r m old onebit tier o) := by
  unfold State.replaceBlk
  exact .optMem
    (fun _ h0 => (.after (upd rfl) ((Work.bump ..).redo.after ((Event.chargeBg ..).eventRedo.after ((asTier ..).after ((Work.takeBlk ..).redo.get h0))))))
    (substitute ..)

theorem halfRedo (r : RowId) (x : SRow) (m w : Nat) : Only .redo s (s.halfRedo r x m w) := by
  unfold State.halfRedo
  exact (replaceBlk ..).after (Work.putDie ..).redo

theorem redoTails (r : RowId) (x : SRow) (m n : Nat) : Only .redo s (s.redoTails r x m n) := by
  unfold State.redoTails
  exact .foldl (fun _ _ => (.ite (.refl _) (.foldl (fun _ _ => (Work.enq ..).redo))))

theorem redo (r : RowId) (m : Nat) : Only .redo s (s.redo r m) := by
  unfold State.redo
  exact .opt
    (fun _ =>
      (.after
        (.ite
          (.ite (Work.enq ..).redo (.refl _))
          (.after
            (.foldl (fun _ _ => (Work.enq ..).redo))
            (.foldl (fun _ _ => (.foldl (fun _ _ => (.ite (.ite (Work.progPage ..).redo (.refl _)) (.ite (Work.progPage ..).redo (.refl _)))))))))
        ((redoTails ..).after (.opt (fun _ => (halfRedo ..)) (.refl _)))))
    (.refl _)

theorem requeue : Only .redo s s.requeue := by
  unfold State.requeue
  exact .foldl (fun _ _ => (.foldl (fun _ _ => (.ite (.refl _) (redo ..)))))


end Redo
end Only
end Sys2Proof.Machine
end


section
/-! O48: power failure, the flush and the resumption (06 R158, R159, R161–R163). -/

namespace Sys2Proof.Machine

namespace State
variable {s : State}

/-! ### The stop instant -/

/-- With no stream nothing is dropped, and no index record is kept. -/
theorem capDrop_none (h : s.cap.streams = []) (ok : Stream → Bool) : s.capDrop ok = s := by
  rw [capDrop, h]
  rfl

theorem keepRecs_none (h : s.cap.streams = []) : s.keepRecs = s := by
  rw [keepRecs, h]
  rfl

/-- What the stop instant ends on the dies, of the reads under way and of the persistent window (06 R159 step 4). -/
def mediaStop (s : State) : State :=
  let ds := s.die.dies.map (fun (e : Nat × DieSt) => (e.1, e.2.stop))
  let s := { s with die := { s.die with cws := [], dies := ds } }
  let s := { s with rdn := { s.rdn with recon := [] } }
  { s with pcx := { s.pcx with gpf := none, heldWr := [] } }

/-- What the stop instant ends of the capture streams (06 R159 step 2). -/
def captureStop (s : State) : State := ((s.capDrop (fun _ => true)).stopsGone).keepRecs

theorem stopWork_eq (s : State) : s.stopWork = ((s.drcDrain.dropCmds (fun _ => true)).captureStop).mediaStop := by
  unfold stopWork
  extract_lets a b
  change _ = b.mediaStop
  clear_value b
  rfl

theorem mediaStop_stop (s : State) : Only .stop s s.mediaStop := (Only.upd rfl).after ((Only.upd rfl).after (Only.upd rfl))

theorem mediaStop_queue (s : State) (d : Nat) : (s.mediaStop.dieOf d).queue = [] := by
  show ((Tab.find d (s.die.dies.map (fun e => (e.1, e.2.stop)))).getD DieSt.absent).queue = []
  induction s.die.dies with
  | nil => rfl
  | cons e l ih =>
    obtain ⟨k, x⟩ := e
    simp only [List.map_cons, Tab.find]
    split
    · rfl
    · exact ih

theorem captureStop_stop (s : State) : Only .stop s s.captureStop :=
  (Only.Stop.keepRecs ..).after ((Only.Stop.stopsGone ..).after (Only.Stop.capDrop ..))

theorem captureStop_fewer (s : State) : Only .fewer s s.captureStop :=
  (Only.Fewer.keepRecs ..).after ((Only.Fewer.upd rfl).after (Only.Fewer.capDrop ..))

theorem captureStop_none (h : s.cap.streams = []) : s.captureStop.zn.ud = s.zn.ud := by
  have hgone : s.stopsGone.cap.streams = [] := by
    rw [stopsGone, h]
    rfl
  rw [captureStop, capDrop_none h, keepRecs_none hgone]
  rfl

theorem dropCmds_all (s : State) : (s.dropCmds (fun _ => true)).zn.cmds = [] := by
  unfold dropCmds
  exact List.filter_eq_nil_iff.2 fun _ _ => by simp

/-- Host work ends before capture work, and that brings no command back. -/
theorem stopWork_spec (s : State) : Only .stop s s.stopWork ∧ s.stopWork.zn.cmds = [] ∧ (∀ d, (s.stopWork.dieOf d).queue = []) ∧
    (s.cap.streams = [] → s.stopWork.zn.ud = s.zn.ud) := by
  have hw : Only .stop s (s.drcDrain.dropCmds (fun _ => true)) := (Only.Drop.dropCmds ..).dropStop.after (Only.Stop.drcDrain ..)
  obtain ⟨hu, -, hc⟩ := ((Only.User.dropCmds s.drcDrain (fun _ => true)).after (Only.User.drcDrain s)).rel
  have hnil := dropCmds_all s.drcDrain
  rw [stopWork_eq]
  generalize s.drcDrain.dropCmds (fun _ => true) = a at hw hu hc hnil ⊢
  exact ⟨(mediaStop_stop _).after ((captureStop_stop a).after hw), (Only.Fewer.none (captureStop_fewer a) hnil :), mediaStop_queue _,
    fun hs => (captureStop_none (hc.trans hs)).trans hu⟩

/-- PHYs that go off, and the voltage of a flush. -/
def Scope.off : Scope := Scope.link.also [F.PUP_VREG_TARGET_MV]

theorem phyOff_off (s : State) (p u : Nat) : Only Scope.off.bound s (s.phyOff p u) := by
  unfold phyOff
  split
  · exact .refl s
  · exact (Only.Link.setLink ..).also _

theorem setMv_off (s : State) (mv : Nat) : Only Scope.off.bound s (s.setMv mv) := by
  unfold setMv
  exact .after (Only.upd rfl) (.after (Only.upd rfl) (Only.wr (by decide) ..))

/-- The links of the host port go down with the PHYs. -/
def linksDown (s : State) : State := (s.wr F.PCX_LINK_STS_UP 0 0).wr F.PCX_LINK_STS_UP 0 1

theorem physOff_eq (s : State) : ∃ t, Only Scope.off.bound s t ∧ s.physOff = t.linksDown :=
  ⟨_, Only.foldl fun _ p => Only.foldl fun s u => phyOff_off s p u, rfl⟩

theorem linksDown_rd (s : State) {f : Fld} (h : f.id ≠ F.PCX_LINK_STS_UP.id) (i j p : Nat) : s.linksDown.rd f i j p = s.rd f i j p :=
  (rd_wr_id _ _ _ _ _ _ _ _ _ _ h).trans (rd_wr_id _ _ _ _ _ _ _ _ _ _ h)

theorem linksDown_down (s : State) : s.linksDown.rd F.PCX_LINK_STS_UP 0 = 0 ∧ s.linksDown.rd F.PCX_LINK_STS_UP 1 = 0 :=
  ⟨(rd_wr_ne _ _ _ _ _ _ _ _ _ _ (by decide)).trans (rd_wr_same ..), rd_wr_same ..⟩

theorem stopMark_eq (s : State) : ∃ p, s.stopMark = { s with
    pup := p
    stg := { s.stg with fellAt := s.el, full := s.stg.commits, commits := false, priorStep := s.rd F.PWR_STEP_STEP } } := by
  unfold stopMark
  dsimp only
  split <;> exact ⟨_, rfl⟩

/-- The image that a stop starts. -/
theorem startImage_spec (s : State) : (∃ i, s.startImage.stg.image = some i ∧ i.bank = s.rd F.MED_PF_STS_BANK ∧ i.whole = false ∧ i.stop = s.tns ∧
    i.seq = s.stg.imgSeq + 1 ∧ i.poison = []) ∧ s.startImage.stg.erased.getD (s.rd F.MED_PF_STS_BANK) false = false := by
  refine ⟨⟨_, rfl, rfl, rfl, rfl, rfl, rfl⟩, ?_⟩
  show ((List.range 2).map (fun i => if i = s.rd F.MED_PF_STS_BANK then false else s.stg.erased.getD i false)).getD (s.rd F.MED_PF_STS_BANK) false = false
  generalize s.rd F.MED_PF_STS_BANK = b
  match b with
  | 0 => rfl
  | 1 => rfl
  | _ + 2 => rfl

/-- The stop instant with admission open (06 R159). -/
structure Stopped (s t : State) : Prop where
  phase : t.rd F.MED_PF_STS_PHASE = pfFlushing
  kept : t.img = s.img ∧ t.pwr = s.pwr
  closed : t.stg.commits = false ∧ t.stg.fellAt = s.el ∧ t.zn.cmds = []
  queues : ∀ d, (t.dieOf d).queue = []
  image : ∃ i, t.stg.image = some i ∧ i.bank = s.rd F.MED_PF_STS_BANK ∧ i.whole = false ∧ i.stop = s.tns ∧ i.seq = s.stg.imgSeq + 1 ∧ i.poison = []
  erased : t.stg.erased.getD (s.rd F.MED_PF_STS_BANK) false = false
  links : t.rd F.PCX_LINK_STS_UP 0 = 0 ∧ t.rd F.PCX_LINK_STS_UP 1 = 0
  user : s.cap.streams = [] → t.zn.ud = s.zn.ud

theorem stopFlush_stopped (hc : s.stg.commits = true) (hp : s.rd F.MED_PF_STS_PHASE ≠ 1) (hf : s.rd F.MED_PF_STS_PHASE ≠ pfFlushing)
    (hd : s.rd F.MED_PF_STS_PHASE ≠ pfDone) : Stopped s s.stopFlush := by
  have hr := (Only.Rest.stopRecord s).frame
  have ha := Only.Stop.stopRecord s
  obtain ⟨p, hM⟩ := stopMark_eq (s.stopRecord.wr F.MED_PF_STS_PHASE pfFlushing)
  generalize hA : s.stopRecord = a at hr ha hM
  generalize hC : (a.wr F.MED_PF_STS_PHASE pfFlushing).stopMark = c at hM
  have has : a.stg = s.stg ∧ a.el = s.el ∧ a.tns = s.tns ∧ a.img = s.img ∧ a.zn = s.zn ∧ a.cap = s.cap := by
    rw [hr]
    exact ⟨rfl, rfl, rfl, rfl, rfl, rfl⟩
  have hapwr : a.pwr = s.pwr := by rw [ha.frame]; rfl
  obtain ⟨a₁, a₂, a₃, a₄, a₅, a₆⟩ := has
  have hcs : c.stg.full = true ∧ c.stg.commits = false ∧ c.stg.fellAt = s.el ∧ c.stg.imgSeq = s.stg.imgSeq ∧ c.tns = s.tns ∧ c.img = s.img ∧ c.pwr = s.pwr ∧
      c.zn = s.zn ∧ c.cap = s.cap := by
    rw [hM]
    refine ⟨?_, rfl, a₂, (congrArg StgSt.imgSeq a₁ :), a₃, a₄, hapwr, a₅, a₆⟩
    show a.stg.commits = true
    rw [a₁, hc]
  have hcr (f : Fld) : c.rd f = (a.wr F.MED_PF_STS_PHASE pfFlushing).rd f := by rw [hM]; rfl
  have hphase : c.rd F.MED_PF_STS_PHASE = pfFlushing := by rw [hcr]; exact rd_wr_same ..
  have hbank : c.rd F.MED_PF_STS_BANK = s.rd F.MED_PF_STS_BANK := by
    rw [hcr]
    exact (rd_wr_id _ _ _ _ _ _ _ _ _ _ (by decide)).trans (ha.regs F.MED_PF_STS_BANK 0 0 0 (by decide))
  obtain ⟨c₁, c₂, c₃, c₄, c₅, c₆, c₇, c₈, c₉⟩ := hcs
  have hrun : s.stopFlush = (c.pauseAll.stopWork.startImage.setMv 700).physOff := by
    unfold stopFlush
    rw [if_neg (by simp [hp, hf, hd])]
    dsimp only
    rw [hA, hC, if_pos c₁]
  have hpa := (Only.Rest.pauseAll c).frame
  obtain ⟨hw, hcmds, hq, hud⟩ := stopWork_spec c.pauseAll
  have hd' : Only .stop c c.pauseAll.stopWork := hw.after (Only.Stop.pauseAll c)
  have hpu : c.pauseAll.zn = c.zn ∧ c.pauseAll.cap = c.cap := by rw [hpa]; exact ⟨rfl, rfl⟩
  obtain ⟨p₁, p₂⟩ := hpu
  generalize c.pauseAll.stopWork = d at hrun hw hcmds hq hud hd'
  have hds : d.stg.commits = false ∧ d.stg.fellAt = s.el ∧ d.stg.imgSeq = s.stg.imgSeq ∧ d.tns = s.tns ∧ d.img = s.img ∧ d.pwr = s.pwr := by
    rw [hd'.frame]
    exact ⟨c₂, c₃, c₄, c₅, c₆, c₇⟩
  obtain ⟨d₁, d₂, d₃, d₄, d₅, d₆⟩ := hds
  have hdr (f : Fld) (h : ∀ g ∈ stopFields, f.id ≠ g.id) : d.rd f = c.rd f :=
    hd'.regs f 0 0 0 h
  obtain ⟨himg, her⟩ := startImage_spec d
  obtain ⟨t, ht, hoff⟩ := physOff_eq (d.startImage.setMv 700)
  have hte : Only Scope.off.bound d.startImage t := ht.after (setMv_off ..)
  have hts : t.stg = d.startImage.stg ∧ t.img = d.img ∧ t.pwr = d.pwr ∧ t.zn = d.zn ∧ t.die = d.die := by
    rw [hte.frame]
    exact ⟨rfl, rfl, rfl, rfl, rfl⟩
  obtain ⟨t₁, t₂, t₃, t₄, t₅⟩ := hts
  rw [hrun, hoff]
  refine ⟨?_, ⟨t₂.trans d₅, t₃.trans d₆⟩, ⟨?_, ?_, ?_⟩, ?_, ?_, ?_, linksDown_down t, ?_⟩
  · exact (linksDown_rd t (by decide) 0 0 0).trans ((hte.regs F.MED_PF_STS_PHASE 0 0 0 (by decide)).trans ((hdr F.MED_PF_STS_PHASE (by decide)).trans hphase))
  · exact (congrArg StgSt.commits t₁).trans d₁
  · exact (congrArg StgSt.fellAt t₁).trans d₂
  · exact (congrArg ZoneSt.cmds t₄).trans hcmds
  · intro e
    have : t.linksDown.dieOf e = d.dieOf e := congrArg (fun x : DieUnit => (Tab.find e x.dies).getD DieSt.absent) t₅
    rw [this]
    exact hq e
  · obtain ⟨i, h₁, h₂, h₃, h₄, h₅, h₆⟩ := himg
    refine ⟨i, (congrArg StgSt.image t₁).trans h₁, ?_, h₃, h₄.trans d₄, by rw [h₅, d₃], h₆⟩
    rw [h₂, hdr F.MED_PF_STS_BANK (by decide), hbank]
  · rw [hdr F.MED_PF_STS_BANK (by decide), hbank] at her
    show t.stg.erased.getD _ false = false
    rw [t₁, her]
  · intro hs
    show t.zn.ud = s.zn.ud
    rw [t₄, hud (by rw [p₂, c₉, hs]), p₁, c₈]

/-- Without uncorrectable units the image gets no poison mark. -/
theorem poison_nil (s : State) : s.poison [] = s := by
  have hi : s.stg.image.map (fun (i : FlushImg) => if i.whole then i else { i with poison := i.poison ++ [] }) = s.stg.image := by
    have hid : (fun (i : FlushImg) => if i.whole then i else { i with poison := i.poison ++ [] }) = id := by
      funext i
      rw [List.append_nil]
      exact ite_self _
    rw [hid, Option.map_id, id]
  unfold poison
  show { s with stg := { s.stg with image := s.stg.image.map (fun (i : FlushImg) => if i.whole then i else { i with poison := i.poison ++ [] }) } } = s
  rw [hi]

/-- Changes of hops. -/
def Scope.hops : Scope where
  merge s t := { s with regs := t.regs, kz := t.kz }
  fields := [F.KZL_BID_HOP, F.KZL_STS_HOP0]

theorem setHop_hops (s : State) (l h v : Nat) : Only Scope.hops.bound s (s.setHop l h v) := by
  unfold setHop
  exact .after (Only.upd rfl) (.ite (Only.wr (by decide) ..) (Only.wr (by decide) ..))

theorem trainDown_hops (s : State) : Only Scope.hops.bound s s.trainDown := by
  unfold trainDown hopsIn
  exact Only.foldl fun _ _ => Only.foldl fun _ _ => .ite (.ite (setHop_hops ..) (.refl _)) (.refl _)

/-- In every power state the stop is that of the state whose hops have started to train (18 R400). -/
theorem stopNow_eq (s : State) : ∃ m, Only Scope.hops.bound s m ∧ s.stopNow = m.stopFlush := by
  unfold stopNow
  split
  · exact ⟨_, trainDown_hops s, rfl⟩
  · exact ⟨_, .refl s, rfl⟩

/-! ### The flush record, and the resumption -/

theorem flushDone_eq {fails : List (Nat × Nat)} {links : List Nat} (hp : s.rd F.MED_PF_STS_PHASE = pfFlushing) (hf : s.stg.full = true)
    (ht : s.pwr.tripped = false) : s.flushDone fails links =
    { ((((s.wr F.MED_PF_STS_PHASE pfDone).wr F.MED_PF_STS_DUR (sat 16 ((s.el - s.stg.fellAt) / 1000))).wr F.MED_PF_STS_OVERRUN
        (b2n (s.el - s.stg.fellAt > 20000000))).inc F.MED_PF_CNT_FLUSHES) with
      stg := { s.stg with image := s.stg.image.map (fun (i : FlushImg) => i.finish fails links) } } := by
  unfold flushDone
  rw [if_neg (by simp [hp])]
  extract_lets d a b x c
  have hc : c = { b with stg := { b.stg with image := b.stg.image.map (fun (i : FlushImg) => i.finish fails links) } } := if_pos hf
  have hno : ¬ c.pwr.tripped = true := by
    rw [hc]
    show ¬ s.pwr.tripped = true
    rw [ht]
    exact Bool.false_ne_true
  rw [if_neg hno, hc]
  rfl

theorem armed_spec (s : State) : s.armed = { s with regs := s.armed.regs } ∧ Keeps s s.armed [F.MED_PF_STS_PHASE, F.MED_PF_STS_BANK] ∧
    s.armed.rd F.MED_PF_STS_PHASE = if s.stg.erased.getD 0 false || s.stg.erased.getD 1 false then pfArmed else pfNotArmed := by
  unfold armed
  dsimp only
  split
  · exact ⟨rfl, (Keeps.wr (f := F.MED_PF_STS_PHASE) (by decide) s _ _ _ _).trans (Keeps.wr (f := F.MED_PF_STS_BANK) (by decide) _ _ _ _ _),
      (rd_wr_id _ _ _ _ _ _ _ _ _ _ (by decide)).trans (rd_wr_same ..)⟩
  · exact ⟨rfl, Keeps.wr (f := F.MED_PF_STS_PHASE) (by decide) s _ _ _ _, rd_wr_same ..⟩

/-- What a resumption after DONE leaves (06 R163). -/
structure Resumed (s t : State) : Prop where
  staging : t.stg = { s.stg with image := none, commits := true }
  kept : t.zn = s.zn ∧ t.img = s.img ∧ t.ftl = s.ftl
  done : t.rd F.MED_PF_STS_RESUMED = 1
  step : t.rd F.PWR_STEP_STEP = cut F.PWR_STEP_STEP.w s.stg.priorStep
  phase : t.rd F.MED_PF_STS_PHASE = if s.stg.erased.getD 0 false || s.stg.erased.getD 1 false then pfArmed else pfNotArmed
  state : t.rd F.PWR_STS_STATE = s.rd F.PWR_STS_STATE

theorem resume_resumed (hp : s.rd F.MED_PF_STS_PHASE = pfDone) (ht : s.pwr.tripped = false) (hpor : s.img.por = true) (hf : s.stg.full = true) :
    Resumed s s.resume := by
  unfold resume
  rw [if_neg (by simp [hp, ht, hpor])]
  extract_lets full x a b c d
  have ha : a = { s with stg := { s.stg with image := none, commits := true } } := if_pos hf
  obtain ⟨hfr, hk, hph⟩ := a.armed_spec
  have hfull : b2n full = 1 := congrArg b2n hf
  have hdk : Keeps a.armed d [F.MED_PF_STS_RESUMED, F.PWR_STEP_STEP, F.PUP_VREG_TARGET_MV] := by
    refine .trans (t := c) (.trans (t := b) (Keeps.wr (f := F.MED_PF_STS_RESUMED) (by decide) _ _ _ _ _) (Keeps.wr (f := F.PWR_STEP_STEP) (by decide) _ _ _ _ _)) ?_
    exact Keeps.wr (f := F.PUP_VREG_TARGET_MV) (by decide) c _ _ _ _
  have hdn : d.stg = a.stg ∧ d.zn = a.zn ∧ d.img = a.img ∧ d.ftl = a.ftl := by
    show a.armed.stg = _ ∧ a.armed.zn = _ ∧ a.armed.img = _ ∧ a.armed.ftl = _
    rw [hfr]
    exact ⟨rfl, rfl, rfl, rfl⟩
  have hd1 : d.rd F.MED_PF_STS_RESUMED = 1 := by
    refine (rd_wr_id c F.PUP_VREG_TARGET_MV F.MED_PF_STS_RESUMED _ _ _ _ _ _ _ (by decide)).trans ((rd_wr_id b F.PWR_STEP_STEP F.MED_PF_STS_RESUMED _ _ _ _ _ _ _ (by decide)).trans
      ((rd_wr_same ..).trans ?_))
    rw [hfull]
    rfl
  have hd2 : d.rd F.PWR_STEP_STEP = cut F.PWR_STEP_STEP.w s.stg.priorStep := by
    refine (rd_wr_id c F.PUP_VREG_TARGET_MV F.PWR_STEP_STEP _ _ _ _ _ _ _ (by decide)).trans ((rd_wr_same ..).trans ?_)
    show cut _ a.armed.stg.priorStep = _
    rw [hfr, ha]
  have hd3 : d.rd F.MED_PF_STS_PHASE = if s.stg.erased.getD 0 false || s.stg.erased.getD 1 false then pfArmed else pfNotArmed := by
    rw [hdk F.MED_PF_STS_PHASE 0 0 0 (by decide), hph, ha]
  have hd4 : d.rd F.PWR_STS_STATE = s.rd F.PWR_STS_STATE := by
    rw [hdk F.PWR_STS_STATE 0 0 0 (by decide), hk F.PWR_STS_STATE 0 0 0 (by decide), ha]
    rfl
  clear_value d
  obtain ⟨n₁, n₂, n₃, n₄⟩ := hdn
  rw [ha] at n₁ n₂ n₃ n₄
  have hl (f : Fld) (h : f.id ≠ F.PCX_LINK_STS_UP.id) (v w : Nat) : ((d.wr F.PCX_LINK_STS_UP v 0).wr F.PCX_LINK_STS_UP w 1).rd f = d.rd f :=
    (rd_wr_id _ _ _ _ _ _ _ _ _ _ h).trans (rd_wr_id _ _ _ _ _ _ _ _ _ _ h)
  exact ⟨n₁, ⟨n₂, n₃, n₄⟩, (hl F.MED_PF_STS_RESUMED (by decide) _ _).trans hd1, (hl F.PWR_STEP_STEP (by decide) _ _).trans hd2,
    (hl F.MED_PF_STS_PHASE (by decide) _ _).trans hd3, (hl F.PWR_STS_STATE (by decide) _ _).trans hd4⟩

/-- PFAIL_N high after DONE (06 R163). -/
theorem pfailNRise_eq (hp : s.rd F.MED_PF_STS_PHASE = pfDone) (hdead : s.dead = false) (ht : s.pwr.tripped = false) (hf : s.stg.full = true) :
    ∃ m : State, Only .link { s with img := { s.img with pfailN := true } } m ∧
      execPfailNRise s = .next ((if m.resume.awake then m.resume else m.resume.unrest).portsOn.requeue) := by
  unfold execPfailNRise
  extract_lets was x a b
  have hb : Only .link a b := .ite (.refl a) (Only.Link.edge ..)
  have hph : b.rd F.MED_PF_STS_PHASE = pfDone := (hb.regs F.MED_PF_STS_PHASE 0 0 0 (by decide)).trans hp
  have hbs : b.pwr = s.pwr ∧ b.stg = s.stg := by
    rw [hb.frame]
    exact ⟨rfl, rfl⟩
  obtain ⟨h₁, h₂⟩ := hbs
  refine ⟨b, hb, congrArg Host.Outcome.next ((if_neg ?_).trans ((if_pos ?_).trans (if_pos ((congrArg StgSt.full h₂).trans hf))))⟩
  · show ¬ s.dead = true
    rw [hdead]
    exact Bool.false_ne_true
  · simp [hph, h₁, ht]

/-- With no zone and no conventional row in use nothing is queued again. -/
theorem requeue_none (hz : s.zn.zx = []) (hc : s.ftl.crows = []) : s.requeue = s := by
  unfold requeue allRows
  rw [hz, hc]
  rfl

end State

/-- Settles O48. -/
theorem powerFailComplete : Obligations.PowerFailComplete := by
  refine ⟨fun s hn hdead hp hc => ?_, fun i fails links s hp hi hf ht => ?_, fun s hp hdead ht hf haw hz hcr => ?_, fun s hp hdead ht hf => ?_⟩
  · let a := ({ s with img := { s.img with pfailN := false } } : State).edge 17 0
    have ha : Only .link { s with img := { s.img with pfailN := false } } a := Only.Link.edge ..
    obtain ⟨m, hm, hrun⟩ := a.stopNow_eq
    have hme : m.stg = s.stg ∧ m.img = { s.img with pfailN := false } ∧ m.el = s.el ∧ m.tns = s.tns ∧ m.zn = s.zn ∧ m.cap = s.cap := by
      rw [hm.frame, ha.frame]
      exact ⟨rfl, rfl, rfl, rfl, rfl, rfl⟩
    have hmr (f : Fld) (h₁ : ∀ g ∈ Scope.link.fields, f.id ≠ g.id) (h₂ : ∀ g ∈ State.Scope.hops.fields, f.id ≠ g.id) : m.rd f = s.rd f :=
      (hm.regs f 0 0 0 h₂).trans (ha.regs f 0 0 0 h₁)
    have hph := hmr F.MED_PF_STS_PHASE (by decide) (by decide)
    obtain ⟨m₁, m₂, m₃, m₄, m₅, m₆⟩ := hme
    have hst := State.stopFlush_stopped (s := m) (by rw [m₁]; exact hc) (by rw [hph, hp]; decide) (by rw [hph, hp]; decide) (by rw [hph, hp]; decide)
    obtain ⟨k₁, ⟨k₂, -⟩, ⟨k₃, k₄, k₅⟩, k₆, k₇, k₈, ⟨k₉, k₁₀⟩, k₁₁⟩ := hst
    rw [hmr F.MED_PF_STS_BANK (by decide) (by decide), m₁, m₄] at k₇
    rw [hmr F.MED_PF_STS_BANK (by decide) (by decide)] at k₈
    refine ⟨m.stopFlush, congrArg Host.Outcome.next ?_, k₁, by rw [k₂, m₂], k₃, k₄.trans m₃, k₅, k₆, k₇, k₈, k₉, k₁₀, fun hs => (k₁₁ (by rw [m₆, hs])).trans (by rw [m₅])⟩
    rw [if_neg (by simp [hn])]
    refine (if_neg ?_).trans ?_
    · show ¬ (s.dead && _) = true
      rw [hdead]
      exact Bool.false_ne_true
    · rw [State.poison_nil, hrun]
  · refine ⟨_, congrArg Host.Outcome.next (State.flushDone_eq hp hf ht), ?_, ?_, ?_, ?_, ⟨i.finish fails links, by rw [hi]; rfl, rfl, rfl, rfl, rfl, rfl, ?_, ?_⟩, rfl⟩
    · exact (State.rd_inc_id _ _ _ _ _ _ _ _ _ (by decide)).trans ((State.rd_wr_id _ _ _ _ _ _ _ _ _ _ (by decide)).trans
        ((State.rd_wr_id _ _ _ _ _ _ _ _ _ _ (by decide)).trans (State.rd_wr_same ..)))
    · exact (State.rd_inc_id _ _ _ _ _ _ _ _ _ (by decide)).trans ((State.rd_wr_id _ _ _ _ _ _ _ _ _ _ (by decide)).trans
        ((State.rd_wr_same ..).trans (cut_sat ..)))
    · refine (State.rd_inc_id _ _ _ _ _ _ _ _ _ (by decide)).trans ((State.rd_wr_same ..).trans ?_)
      cases decide (s.el - s.stg.fellAt > 20000000) <;> rfl
    · refine (State.rd_inc_same ..).trans ((cut_sat ..).trans (congrArg (fun n => sat F.MED_PF_CNT_FLUSHES.w (n + 1)) ?_))
      exact (State.rd_wr_id _ _ _ _ _ _ _ _ _ _ (by decide)).trans ((State.rd_wr_id _ _ _ _ _ _ _ _ _ _ (by decide)).trans
        (State.rd_wr_id _ _ _ _ _ _ _ _ _ _ (by decide)))
    · exact ⟨_, _, rfl, by unfold bankDie sysDie; omega⟩
    · intro x
      simp only [FlushImg.finish, List.mem_filter, List.mem_dedup, List.mem_map, decide_eq_true_eq, and_iff_right_iff_imp]
      intro h3
      obtain ⟨e, he⟩ := List.exists_mem_of_length_pos (l := fails.filter (fun e => e.1 = x)) (by omega)
      obtain ⟨hm, hx⟩ := List.mem_filter.1 he
      exact ⟨e, hm, by simpa using hx⟩
  · have hpor : s.img.por = true := by
      simp only [State.dead, Bool.or_eq_false_iff, Bool.not_eq_false'] at hdead
      exact hdead.1.1.1.1
    obtain ⟨m, hm, hrun⟩ := State.pfailNRise_eq hp hdead ht hf
    have hms : m.pwr = s.pwr ∧ m.stg = s.stg ∧ m.img = { s.img with pfailN := true } ∧ m.zn = s.zn ∧ m.ftl = s.ftl := by
      rw [hm.frame]
      exact ⟨rfl, rfl, rfl, rfl, rfl⟩
    obtain ⟨m₁, m₂, m₃, m₄, m₅⟩ := hms
    have hmr (f : Fld) (h : ∀ g ∈ Scope.link.fields, f.id ≠ g.id) : m.rd f = s.rd f := hm.regs f 0 0 0 h
    obtain ⟨hstg, ⟨hzn, himg, hftl⟩, hdone, hstep, hphase, hst⟩ := State.resume_resumed (s := m) ((hmr F.MED_PF_STS_PHASE (by decide)).trans hp)
      (by rw [m₁, ht]) (by rw [m₃]; exact hpor) (by rw [m₂, hf])
    have hawake : m.resume.awake = true := by
      rw [State.awake, hst, hmr F.PWR_STS_STATE (by decide)]
      exact haw
    have hpo := Only.Rest.portsOn m.resume
    have hps : m.resume.portsOn.stg = m.resume.stg ∧ m.resume.portsOn.img = m.resume.img ∧ m.resume.portsOn.zn = m.resume.zn ∧ m.resume.portsOn.ftl = m.resume.ftl := by
      rw [hpo.frame]
      exact ⟨rfl, rfl, rfl, rfl⟩
    obtain ⟨p₁, p₂, p₃, p₄⟩ := hps
    have hreq : m.resume.portsOn.requeue = m.resume.portsOn := State.requeue_none (by rw [p₃, hzn, m₄, hz]) (by rw [p₄, hftl, m₅, hcr])
    rw [if_pos hawake, hreq] at hrun
    refine ⟨_, hrun, by rw [p₂, himg, m₃], by rw [p₁, hstg], by rw [p₁, hstg], (hpo.regs F.MED_PF_STS_RESUMED 0 0 0 (by decide)).trans hdone, ?_, ?_, by rw [p₃, hzn, m₄]⟩
    · exact (hpo.regs F.MED_PF_STS_PHASE 0 0 0 (by decide)).trans (by rw [hphase, m₂])
    · exact (hpo.regs F.PWR_STEP_STEP 0 0 0 (by decide)).trans (by rw [hstep, m₂])
  · have hpor : s.img.por = true := by
      simp only [State.dead, Bool.or_eq_false_iff, Bool.not_eq_false'] at hdead
      exact hdead.1.1.1.1
    obtain ⟨m, hm, hrun⟩ := State.pfailNRise_eq hp hdead ht hf
    have hms : m.pwr = s.pwr ∧ m.stg = s.stg ∧ m.img = { s.img with pfailN := true } ∧ m.zn = s.zn := by
      rw [hm.frame]
      exact ⟨rfl, rfl, rfl, rfl⟩
    obtain ⟨m₁, m₂, m₃, m₄⟩ := hms
    obtain ⟨hstg, ⟨hzn, himg, -⟩, -⟩ := State.resume_resumed (s := m) ((hm.regs F.MED_PF_STS_PHASE 0 0 0 (by decide)).trans hp)
      (by rw [m₁, ht]) (by rw [m₃]; exact hpor) (by rw [m₂, hf])
    have hre : Only .rest m.resume (if m.resume.awake then m.resume else m.resume.unrest) := .ite (.refl _) (Only.Rest.unrest ..)
    have hpo := (Only.Rest.portsOn _).after hre
    generalize (if m.resume.awake then m.resume else m.resume.unrest).portsOn = p at hpo hrun
    have hps : p.stg = m.resume.stg ∧ p.img = m.resume.img ∧ p.zn = m.resume.zn := by
      rw [hpo.frame]
      exact ⟨rfl, rfl, rfl⟩
    obtain ⟨p₁, p₂, p₃⟩ := hps
    have hq := (Only.Redo.requeue p).frame
    have hqs : p.requeue.img = p.img ∧ p.requeue.stg.commits = p.stg.commits ∧ p.requeue.stg.image = p.stg.image ∧ p.requeue.zn.ud = p.zn.ud := by
      rw [hq]
      exact ⟨rfl, rfl, rfl, rfl⟩
    obtain ⟨q₁, q₂, q₃, q₄⟩ := hqs
    exact ⟨_, hrun, by rw [q₁, p₂, himg, m₃], by rw [q₂, p₁, hstg], by rw [q₃, p₁, hstg], by rw [q₄, p₃, hzn, m₄]⟩

end Sys2Proof.Machine
end


section
/-! SUPPORT. What leaving a rest, and what saving for Jack changes. -/

namespace Sys2Proof.Machine

/-- Hops, the voltage and the step that return with Run. -/
def Scope.wake : Scope where
  merge s t := { s with regs := t.regs, kz := t.kz, outs := t.outs, pup := t.pup, pwr := t.pwr }
  fields := [F.KZL_BID_HOP, F.KZL_STS_HOP0, F.PUP_VREG_TARGET_MV, F.PWR_ENTRY_CNT_CNT, F.PWR_STEP_FLOOR, F.PWR_STS_STATE]

def Bound.wake : Bound := Scope.wake.bound

namespace Only.Wake

-- So the unifier sees a match on an option as the recursor that `opt` speaks of.
set_option smartUnfolding false

variable (s : State)

theorem send (o : Out) : Only .wake s (s.send o) := by
  unfold State.send
  exact upd rfl

theorem putLink8 (l : Nat) (x : Link) : Only .wake s (s.putLink8 l x) := by
  unfold State.putLink8
  exact upd rfl

theorem setMv (mv : Nat) : Only .wake s (s.setMv mv) := by
  unfold State.setMv
  exact .after (upd rfl) ((send ..).after (wr (by decide) ..))

theorem putHop (l h : Nat) (p : Hop) : Only .wake s (s.putHop l h p) := by
  unfold State.putHop
  exact (putLink8 ..)

theorem sendFlit (l h : Nat) (up : Bool) (f : Flit) : Only .wake s (s.sendFlit l h up f) := by
  unfold State.sendFlit
  exact (send ..)

theorem sendXfer (l h : Nat) (up : Bool) (x : Xfer) : Only .wake s (s.sendXfer l h up x) := by
  unfold State.sendXfer
  exact .after (.ite (putLink8 ..) (.ite (putLink8 ..) (.refl _))) ((putHop ..).after (sendFlit ..))

theorem pump (l h : Nat) (up : Bool) (n : Nat) : Only .wake s (State.pump l h up n s) := by
  induction n generalizing s with
  | zero => exact refl s
  | succ n ih => exact .ite (.refl _) (.opt (fun _ => (ih _).after (sendXfer ..)) (.refl _))

theorem setHop (l h st : Nat) : Only .wake s (s.setHop l h st) := by
  unfold State.setHop
  exact (putLink8 ..).after (.ite (wr (by decide) ..) (wr (by decide) ..))

theorem settleStep : Only .wake s s.settleStep := by
  unfold State.settleStep
  exact .after
    (.ite (upd rfl) (.refl _))
    (.after
      (.ite (upd rfl) (.refl _))
      (.after (.ite (wr (by decide) ..) (.refl _)) (.after (.ite (upd rfl) (.refl _)) (.ite (upd rfl) (.refl _)))))

theorem burst (l h : Nat) (up ok : Bool) : Only .wake s (s.burst l h up ok) := by
  unfold State.burst
  exact .ite (.refl _) (.after (.ite ((pump ..).after (setHop ..)) (setHop ..)) ((putHop ..).after (send ..)))

theorem lean : Only .wake s s.lean := by
  unfold State.lean
  exact .ite (.refl _) ((wr (by decide) ..).after (.ite (inc (by decide) ..) (.refl _)))

theorem hopsIn {s : State} {sts : List Nat} {f : State → Nat → Nat → State} (h : ∀ m x1 x2, Only .wake m (f m x1 x2)) :
    Only .wake s (s.hopsIn sts f) := by
  unfold State.hopsIn
  exact .foldl (fun _ _ => (.foldl (fun _ _ => (.ite (h _ _ _) (.refl _)))))

theorem hopBack (l h : Nat) : Only .wake s (s.hopBack l h) := by
  unfold State.hopBack
  exact (burst ..).after (burst ..)

theorem trainDown : Only .wake s s.trainDown := by
  unfold State.trainDown
  exact hopsIn (fun _ _ _ => (.ite (setHop ..) (.refl _)))


end Only.Wake

/-- Lines and granules that are written back, and the checkpoint that starts with them. -/
def Scope.save : Scope where
  merge s t := { Scope.cache.merge s t with
    ftl := { (Scope.cache.merge s t).ftl with ckpt := t.ftl.ckpt }
    pcx := { s.pcx with img := t.pcx.img, wb := t.pcx.wb }
    stg := { (Scope.cache.merge s t).stg with dirty := t.stg.dirty } }
  fields := Scope.cache.fields

def Bound.save : Bound := Scope.save.bound

namespace Only

theorem save {s t : State} (h : Only .media s t) : Only .save s t := h.widen (d := Scope.save) (fun _ _ => rfl) (fun _ hf => hf)

theorem cacheSave {s t : State} (h : Only .cache s t) : Only .save s t := h.widen (d := Scope.save) (fun _ _ => rfl) (fun _ hf => hf)

namespace Save

-- So the unifier sees a match on an option as the recursor that `opt` speaks of.
set_option smartUnfolding false

variable (s : State)

theorem writeLine (l : MLine) : Only .save s (s.writeLine l) := by
  unfold State.writeLine
  exact (Cache.writeBack ..).cacheSave.after (Cache.putLine ..).cacheSave

theorem ckptStart : Only .save s s.ckptStart := by
  unfold State.ckptStart
  exact .ite (.refl _) (.after (upd rfl) (Work.jn ..).save)

theorem saveGranule (g : Nat) : Only .save s (s.saveGranule g) := by
  unfold State.saveGranule
  exact upd rfl


end Save
end Only
end Sys2Proof.Machine
end


section
/-! O36: power states and wake (18 R395–R404; 13 R308). -/

namespace Sys2Proof.Machine

namespace State
variable {s : State}

/-! ### Rest -/

/-- With no request queued the DRAM is drained. -/
theorem drcDrain_none (h : ∀ ch, ch < 8 → s.dreqs ch = []) : s.drcDrain = s := by
  unfold drcDrain
  have hstep : ∀ l : List Nat, (∀ ch ∈ l, ch < 8) → l.foldl (fun (s : State) ch => drcServeN ch (s.dreqs ch).length s) s = s := by
    intro l hl
    induction l with
    | nil => rfl
    | cons ch l ih =>
      rw [List.foldl_cons, h ch (hl ch List.mem_cons_self), List.length_nil, drcServeN]
      exact ih fun c hc => hl c (List.mem_cons_of_mem _ hc)
  exact hstep _ fun ch hc => List.mem_range.1 hc

theorem hopQuiet_hops (s : State) (l h : Nat) : Only Scope.hops.bound s (s.hopQuiet l h) := by
  unfold hopQuiet
  exact (setHop_hops ..).after (Only.upd rfl)

theorem hopsIn_hops {sts : List Nat} {f : State → Nat → Nat → State} (h : ∀ m l i, Only Scope.hops.bound m (f m l i)) :
    Only Scope.hops.bound s (s.hopsIn sts f) := by
  unfold hopsIn
  exact Only.foldl fun _ _ => Only.foldl fun _ _ => .ite (h ..) (.refl _)

theorem napPorts_off (s : State) : Only Scope.off.bound s s.napPorts := by
  unfold napPorts
  exact Only.foldl fun _ _ => Only.foldl fun _ _ => .ite ((Only.Link.setLink ..).also _) (phyOff_off ..)

/-- A controller at rest, before its hops follow (18 R399, R400). -/
def atRest (s : State) (st : Nat) : State :=
  let s := s.latchModes
  let mv := if s.awake then s.rd F.PUP_VREG_TARGET_MV else s.pup.runMv
  let s := { s with drc := { s.drc with sref := true }, pup := { s.pup with runMv := mv, waitMv := 0, paceOkAt := none } }
  ((s.wr F.PWR_STS_STATE st).inc F.PWR_ENTRY_CNT_CNT (st - 1)).wr F.PWR_STEP_FLOOR 300

theorem atRest_spec (s : State) (st : Nat) : (s.atRest st).rd F.PWR_STS_STATE = cut F.PWR_STS_STATE.w st ∧ (s.atRest st).rd F.PWR_STEP_FLOOR = 300 ∧
    (s.atRest st).rd F.PWR_ENTRY_CNT_CNT (st - 1) = sat F.PWR_ENTRY_CNT_CNT.w (s.rd F.PWR_ENTRY_CNT_CNT (st - 1) + 1) ∧ (s.atRest st).drc.sref = true ∧
    (s.atRest st).zn = s.zn ∧ (s.atRest st).outs = s.outs := by
  refine ⟨?_, rd_wr_same .., ?_, rfl, rfl, rfl⟩
  · exact (rd_wr_id _ _ _ _ _ _ _ _ _ _ (by decide)).trans ((rd_inc_id _ _ _ _ _ _ _ _ _ (by decide)).trans (rd_wr_same ..))
  · refine (rd_wr_id _ _ _ _ _ _ _ _ _ _ (by decide)).trans ((rd_inc_same ..).trans ((cut_sat ..).trans ?_))
    exact congrArg (fun n => sat F.PWR_ENTRY_CNT_CNT.w (n + 1)) (rd_wr_id _ _ _ _ _ _ _ _ _ _ (by decide))

theorem apst_off (h : s.pwr.apstEn = false) : s.apst = s := by
  unfold apst
  dsimp only
  split
  · rw [h]; rfl
  · rfl

theorem idleEntry_eq {c : Nat} (ha : s.pwr.apstEn = false) (hc : s.choice = c) (hd : c = pwDoze ∨ c = pwNap) (hm : s.mayRest c = true)
    (hq : ∀ ch, ch < 8 → s.dreqs ch = []) : execIdleEntry s =
      .next (if c = pwDoze then (s.atRest c).hopsIn [hActive] hopQuiet else ((s.atRest c).hopsIn [hActive, hQuiet, hRecover] hopDown).napPorts) := by
  unfold execIdleEntry
  dsimp only
  rw [apst_off ha, ite_self, hc, hm, if_pos (by simpa using hd), rest, drcDrain_none hq]
  rfl

/-! ### Jack -/

theorem jackSave_save (s : State) : Only .save { s with stg := { s.stg with commits := false } } s.jackSave := by
  unfold jackSave
  extract_lets x a b y c
  have ha : Only .save { s with stg := { s.stg with commits := false } } a := Only.Save.ckptStart ..
  have hb : Only .save a b := Only.foldl fun _ _ => Only.Save.writeLine ..
  clear_value b
  have hc : Only .save b c := Only.upd rfl
  exact (Only.foldl fun _ _ => Only.Save.saveGranule ..).after (hc.after (hb.after ha))

/-- Into Jack (18 R401). -/
structure InJack (s t : State) : Prop where
  power : t.pwr.jack = true ∧ t.img.admReady = false
  closed : t.stg.commits = false
  since : t.tim.jackNs = s.tns
  pins : ∃ l, t.outs = l ++ [.pin "WAKE_N" 1, .pin "FAULT_N" 1]

theorem jackImage_spec (s : State) : s.jackImage.stg.commits = s.stg.commits ∧ s.jackImage.tim.jackNs = s.tns := ⟨rfl, rfl⟩

theorem jackOff_spec (s : State) : s.jackOff.pwr.jack = true ∧ s.jackOff.img.admReady = false ∧ s.jackOff.stg = s.stg ∧
    s.jackOff.tim.jackNs = s.tim.jackNs ∧ ∃ l, s.jackOff.outs = l ++ [.pin "WAKE_N" 1, .pin "FAULT_N" 1] := by
  unfold jackOff
  extract_lets a b c x y
  have ha : Only Scope.off.bound s a := Only.foldl fun _ _ => Only.upd rfl
  obtain ⟨m, hm, hoff⟩ := a.physOff_eq
  have hms := (hm.after ha).frame
  have hb : b.stg = s.stg ∧ b.tim.jackNs = s.tim.jackNs := by
    show a.physOff.stg = _ ∧ a.physOff.tim.jackNs = _
    rw [hoff]
    show m.stg = _ ∧ m.tim.jackNs = _
    rw [hms]
    exact ⟨rfl, rfl⟩
  refine ⟨rfl, rfl, hb.1, hb.2, b.outs, ?_⟩
  show b.outs ++ [Out.pin "WAKE_N" 1] ++ [Out.pin "FAULT_N" 1] = _
  rw [List.append_assoc]
  rfl

theorem jackEntry_inJack (s : State) : InJack s s.jackSave.jackImage.jackOff := by
  have hs := (jackSave_save s).frame
  have ht : s.jackSave.stg.commits = false ∧ s.jackSave.tns = s.tns := by
    rw [hs]
    exact ⟨rfl, rfl⟩
  obtain ⟨i₁, i₂⟩ := jackImage_spec s.jackSave
  obtain ⟨j₁, j₂, j₃, j₄, j₅⟩ := jackOff_spec s.jackSave.jackImage
  exact ⟨⟨j₁, j₂⟩, by rw [j₃, i₁, ht.1], by rw [j₄, i₂, ht.2], j₅⟩

/-- A stop with admission closed starts the flush of the recorder, and leaves the image and the power state (06 R163). -/
theorem stopFlush_flushing (hp : s.rd F.MED_PF_STS_PHASE ≠ 1) (hf : s.rd F.MED_PF_STS_PHASE ≠ pfFlushing) (hd : s.rd F.MED_PF_STS_PHASE ≠ pfDone) :
    s.stopFlush.rd F.MED_PF_STS_PHASE = pfFlushing ∧ s.stopFlush.img = s.img ∧ s.stopFlush.pwr = s.pwr ∧ s.stopFlush.stg.commits = false := by
  cases hc : s.stg.commits with
  | true =>
    obtain ⟨h₁, ⟨h₂, h₃⟩, ⟨h₄, -⟩, -⟩ := stopFlush_stopped hc hp hf hd
    exact ⟨h₁, h₂, h₃, h₄⟩
  | false =>
    have ha := (Only.Stop.stopRecord s).frame
    obtain ⟨p, hM⟩ := stopMark_eq (s.stopRecord.wr F.MED_PF_STS_PHASE pfFlushing)
    generalize hA : s.stopRecord = a at ha hM
    have has : a.img = s.img ∧ a.pwr = s.pwr ∧ a.stg.commits = s.stg.commits := by
      rw [ha]
      exact ⟨rfl, rfl, rfl⟩
    have hno : ((a.wr F.MED_PF_STS_PHASE pfFlushing).stopMark).stg.full = false := by
      rw [hM]
      exact has.2.2.trans hc
    have hrun : s.stopFlush = (a.wr F.MED_PF_STS_PHASE pfFlushing).stopMark := by
      unfold stopFlush
      rw [if_neg (by simp [hp, hf, hd])]
      dsimp only
      rw [hA, hno]
      rfl
    rw [hrun, hM]
    exact ⟨rd_wr_same .., has.1, has.2.1, rfl⟩

/-- PFAIL_N that falls while an idle controller saves for Jack (18 R401; 06 R159). -/
theorem jackFall_flushing {a : State} (hp : ¬ (1 ≤ s.rd F.MED_PF_STS_PHASE ∧ s.rd F.MED_PF_STS_PHASE ≤ 3))
    (ha : a = (let t := s.jackSave; ({ t with img := { t.img with pfailN := false }, stg := { t.stg with commits := s.stg.commits } } : State).edge 17 0)) :
    a.stopNow.rd F.MED_PF_STS_PHASE = pfFlushing ∧ a.stopNow.img = { s.img with pfailN := false } ∧ a.stopNow.pwr = s.pwr ∧ a.stopNow.stg.commits = false := by
  have hs := jackSave_save s
  generalize s.jackSave = t at hs ha
  have he := Only.Link.edge ({ t with img := { t.img with pfailN := false }, stg := { t.stg with commits := s.stg.commits } } : State) 17 0
  obtain ⟨m, hm, hrun⟩ := a.stopNow_eq
  have hph : m.rd F.MED_PF_STS_PHASE = s.rd F.MED_PF_STS_PHASE := by
    refine (hm.regs F.MED_PF_STS_PHASE 0 0 0 (by decide)).trans ?_
    rw [ha]
    exact (he.regs F.MED_PF_STS_PHASE 0 0 0 (by decide)).trans (hs.regs F.MED_PF_STS_PHASE 0 0 0 (by decide))
  have hmf : m.img = { s.img with pfailN := false } ∧ m.pwr = s.pwr := by
    rw [hm.frame]
    show a.img = _ ∧ a.pwr = _
    rw [ha]
    dsimp only
    rw [he.frame]
    show { t.img with pfailN := false } = _ ∧ t.pwr = _
    rw [hs.frame]
    exact ⟨rfl, rfl⟩
  have hne (k : Nat) (hk : 1 ≤ k ∧ k ≤ 3) : m.rd F.MED_PF_STS_PHASE ≠ k := fun h => hp (by rw [← hph, h]; exact hk)
  obtain ⟨h₁, h₂, h₃, h₄⟩ := stopFlush_flushing (s := m) (hne 1 (by decide)) (hne pfFlushing (by decide)) (hne pfDone (by decide))
  rw [hrun]
  exact ⟨h₁, h₂.trans hmf.1, h₃.trans hmf.2, h₄⟩

/-! ### Wake -/

/-- Out of rest, before the step settles (18 R399). -/
def woken (s : State) : State :=
  let nap := s.rd F.PWR_STS_STATE = pwNap
  let s := { s with drc := { s.drc with sref := false }, pwr := { s.pwr with busyAt := s.el } }
  let s := (s.setMv (s.pup.runMv + 15)).hopsIn [hQuiet] State.hopBack
  let s := { s with pup := { s.pup with waitMv := s.rd F.PUP_VREG_TARGET_MV } }
  if nap then s.trainDown else s

theorem unrest_eq (s : State) : s.unrest = ((s.woken.wr F.PWR_STS_STATE 0).lean).settleStep := rfl

theorem woken_wake (s : State) : Only .wake { s with drc := { s.drc with sref := false }, pwr := { s.pwr with busyAt := s.el } } s.woken := by
  unfold woken
  exact .after (.ite (Only.Wake.trainDown ..) (.refl _)) ((Only.upd rfl).after ((Only.Wake.hopsIn fun _ _ _ => Only.Wake.hopBack ..).after (Only.Wake.setMv ..)))

/-- Settling a step changes the pace floor alone of the registers. -/
def Scope.settle : Scope where
  merge s t := { s with regs := t.regs, pwr := t.pwr }
  fields := [F.PWR_STEP_FLOOR]

theorem settleStep_settle (s : State) : Only Scope.settle.bound s s.settleStep := by
  unfold settleStep
  exact .after
    (.ite (Only.upd rfl) (.refl _))
    (.after
      (.ite (Only.upd rfl) (.refl _))
      (.after (.ite (Only.wr (by decide) ..) (.refl _)) (.after (.ite (Only.upd rfl) (.refl _)) (.ite (Only.upd rfl) (.refl _)))))

theorem lean_state (h : s.rd F.PWR_STS_STATE = 0) : s.lean.rd F.PWR_STS_STATE = b2n (s.rd F.PWR_STEP_STEP != 0) := by
  unfold lean
  rw [if_neg (by simp [awake, h])]
  refine (rd_wr_same ..).trans ?_
  cases s.rd F.PWR_STEP_STEP != 0 <;> rfl

/-- Out of rest: Run, or Lean with a step in force (18 R395, R399). -/
theorem unrest_spec (s : State) : Only .wake { s with drc := { s.drc with sref := false }, pwr := { s.pwr with busyAt := s.el } } s.unrest ∧
    s.unrest.rd F.PWR_STS_STATE = b2n (s.rd F.PWR_STEP_STEP != 0) := by
  have hw := s.woken_wake
  have hl := Only.Wake.lean (s.woken.wr F.PWR_STS_STATE 0)
  rw [unrest_eq]
  refine ⟨(Only.Wake.settleStep ..).after (hl.after ((Only.wr (by decide) ..).after hw)), ?_⟩
  refine ((settleStep_settle _).regs F.PWR_STS_STATE 0 0 0 (by decide)).trans ((lean_state (rd_wr_same ..)).trans ?_)
  rw [rd_wr_id _ _ _ _ _ _ _ _ _ _ (by decide), hw.regs F.PWR_STEP_STEP 0 0 0 (by decide)]
  rfl

/-- PFC that is sent. -/
def Scope.pause : Scope where
  merge s t := { s with regs := t.regs, outs := t.outs }
  fields := [F.ETH_SUB_STS_XOFF]

theorem sendPfc_pause (s : State) (p u quanta : Nat) : Only Scope.pause.bound s (s.sendPfc p u quanta) := by
  unfold sendPfc send
  exact .after (Only.upd rfl) (Only.wr (by decide) ..)

theorem pauseAll_pause (s : State) : Only Scope.pause.bound s s.pauseAll := by
  unfold pauseAll
  exact Only.foldl fun _ _ => Only.foldl fun _ _ => .ite (sendPfc_pause ..) (.refl _)

/-- What a wake from Doze or Nap records (18 R404). -/
structure Woke (s t : State) (code idx rsn : Nat) : Prop where
  state : t.rd F.PWR_STS_STATE = b2n (s.rd F.PWR_STEP_STEP != 0)
  sref : t.drc.sref = false
  code : t.rd F.PWR_WAKE_SRC_CODE = cut F.PWR_WAKE_SRC_CODE.w code
  index : t.rd F.PWR_WAKE_SRC_INDEX = cut F.PWR_WAKE_SRC_INDEX.w idx
  from_ : t.rd F.PWR_WAKE_SRC_FROM = cut F.PWR_WAKE_SRC_FROM.w (s.rd F.PWR_STS_STATE)
  reason : t.rd F.PWR_WAKE_SRC_REASON = cut F.PWR_WAKE_SRC_REASON.w rsn
  time : t.rd F.PWR_WAKE_TIME_TIME = cut F.PWR_WAKE_TIME_TIME.w s.tns
  zones : t.zn = s.zn

theorem wakeUp_woke {code idx rsn : Nat} {frame : Bool} (h : s.rd F.PWR_STS_STATE = pwDoze ∨ s.rd F.PWR_STS_STATE = pwNap)
    (hl : s.leaves code idx (s.rd F.PWR_STS_STATE) = true) : Woke s (s.wakeUp code idx rsn frame) code idx rsn := by
  have hst : (s.rd F.PWR_STS_STATE = pwDoze || s.rd F.PWR_STS_STATE = pwNap) && s.leaves code idx (s.rd F.PWR_STS_STATE) := by
    rw [hl]
    rcases h with h | h <;> rw [h] <;> rfl
  unfold wakeUp
  extract_lets st m
  rw [if_pos hst]
  have hm : Only Scope.pause.bound s m := .ite (pauseAll_pause s) (.refl _)
  clear_value m
  have htns : m.tns = s.tns := by rw [hm.frame]; rfl
  rw [htns]
  have he := Only.Link.edge (m.wakeRecord code idx rsn st s.tns) 18 code
  have hz : ((m.wakeRecord code idx rsn st s.tns).edge 18 code).zn = s.zn := by
    rw [he.frame]
    show m.zn = _
    rw [hm.frame]
    rfl
  have hlink (f : Fld) (h : ∀ g ∈ Scope.link.fields, f.id ≠ g.id) := he.regs f 0 0 0 h
  generalize (m.wakeRecord code idx rsn st s.tns).edge 18 code = e at hz hlink
  obtain ⟨hu, hstate⟩ := e.unrest_spec
  have hrd (f : Fld) (h₁ : ∀ g ∈ Scope.link.fields, f.id ≠ g.id) (h₂ : ∀ g ∈ Scope.wake.fields, f.id ≠ g.id) :
      e.unrest.rd f = (m.wakeRecord code idx rsn st s.tns).rd f := (hu.regs f 0 0 0 h₂).trans (hlink f h₁)
  refine ⟨?_, by rw [hu.frame]; rfl, ?_, ?_, ?_, ?_, ?_, by rw [hu.frame]; exact hz⟩
  · rw [hstate, hlink F.PWR_STEP_STEP (by decide)]
    simp (disch := decide) only [wakeRecord, rd_wr_id]
    rw [hm.regs F.PWR_STEP_STEP 0 0 0 (by decide)]
  all_goals
    refine (hrd _ (by decide) (by decide)).trans ?_
    simp (disch := decide) only [wakeRecord, rd_wr_id, rd_wr_same]
  rfl

end State

theorem cut_tns (s : State) : cut 64 s.tns = s.tns := Nat.mod_eq_of_lt (Nat.mod_lt _ (by decide))

theorem beVal_two (b : List Nat) : beVal (octetsOf 12 2 b) < 2 ^ 16 := by
  show cut 8 (cut 8 _) + 256 * (cut 8 (cut 8 _) + 256 * 0) < 2 ^ 16
  unfold cut
  omega

/-- A rest that may be left is 2 or 3, and the record holds it. -/
theorem cut_from {st : Nat} (h : st = pwDoze ∨ st = pwNap) : cut F.PWR_WAKE_SRC_FROM.w st = st := by
  rcases h with h | h <;> rw [h] <;> rfl

/-- Settles O36. -/
theorem powerStatesComplete : Obligations.PowerStatesComplete := by
  refine ⟨fun s ha => ⟨fun hc hm hq => ?_, fun hc hm hq => ?_, fun hc hm => ⟨?_, ?_⟩⟩, fun code idx rsn s h hl => ?_, fun code idx ns s hj hl hw => ?_,
    fun p u dst b s hp hu hd hmagic hid hst => ?_⟩
  · obtain ⟨h₁, h₂, h₃, h₄, h₅, h₆⟩ := s.atRest_spec pwDoze
    have hh : Only State.Scope.hops.bound (s.atRest pwDoze) ((s.atRest pwDoze).hopsIn [hActive] State.hopQuiet) := State.hopsIn_hops State.hopQuiet_hops
    refine ⟨_, State.idleEntry_eq ha hc (.inl rfl) hm hq, (hh.regs F.PWR_STS_STATE 0 0 0 (by decide)).trans h₁, (hh.regs F.PWR_STEP_FLOOR 0 0 0 (by decide)).trans h₂, ?_,
      (hh.regs F.PWR_ENTRY_CNT_CNT 1 0 0 (by decide)).trans h₃, ?_, ?_⟩ <;> rw [if_pos rfl, hh.frame]
    · exact h₄
    · exact h₅
    · exact h₆
  · obtain ⟨h₁, h₂, h₃, h₄, h₅, -⟩ := s.atRest_spec pwNap
    have hh : Only State.Scope.hops.bound (s.atRest pwNap) ((s.atRest pwNap).hopsIn [hActive, hQuiet, hRecover] State.hopDown) :=
      State.hopsIn_hops fun _ _ _ => State.setHop_hops ..
    have ho := State.napPorts_off ((s.atRest pwNap).hopsIn [hActive, hQuiet, hRecover] State.hopDown)
    refine ⟨_, State.idleEntry_eq ha hc (.inr rfl) hm hq, ?_, ?_, ?_, ?_⟩
    · exact (ho.regs F.PWR_STS_STATE 0 0 0 (by decide)).trans ((hh.regs F.PWR_STS_STATE 0 0 0 (by decide)).trans h₁)
    · exact (ho.regs F.PWR_STEP_FLOOR 0 0 0 (by decide)).trans ((hh.regs F.PWR_STEP_FLOOR 0 0 0 (by decide)).trans h₂)
    all_goals
      rw [if_neg (by decide), ho.frame, hh.frame]
    · exact h₄
    · exact congrArg ZoneSt.ud h₅
  · have hrun : execJackEntry false s = .next s.jackSave.jackImage.jackOff := by
      unfold execJackEntry
      dsimp only
      rw [State.apst_off ha, ite_self, hc, hm]
      rfl
    obtain ⟨⟨h₁, h₂⟩, h₃, h₄, h₅⟩ := s.jackEntry_inJack
    exact ⟨_, hrun, h₁, h₂, h₃, h₄, h₅⟩
  · have hm' := hm
    simp only [State.mayRest, Bool.and_eq_true, Bool.not_eq_true', decide_eq_true_eq] at hm
    obtain ⟨h₁, h₂, h₃, h₄⟩ := State.jackFall_flushing (s := s) (by simpa using hm.1.2) rfl
    refine ⟨_, ?_, ?_, ?_, h₄, h₁⟩
    · show execJackEntry true s = _
      unfold execJackEntry
      dsimp only
      rw [State.apst_off ha, ite_self, hc, hm']
      rfl
    · rw [h₃]
      exact hm.1.1.2
    · rw [h₂]
  · obtain ⟨k₁, k₂, k₃, k₄, k₅, k₆, k₇, k₈⟩ := State.wakeUp_woke (rsn := cut 16 rsn) (frame := decide (code = 2)) h hl
    exact ⟨_, rfl, k₁, k₂, k₃, k₄, k₅.trans (cut_from h), k₆.trans (Nat.mod_mod ..), k₇.trans (cut_tns s), k₈⟩
  · refine ⟨_, rfl, ?_⟩
    unfold State.wakeSrc
    rw [hj, if_pos rfl, hl, hw]
    rfl
  · have hs : s.rd F.PWR_STS_STATE = pwDoze ∨ s.rd F.PWR_STS_STATE = pwNap := hst.imp (·.1) (·.1)
    have hl : s.leaves 2 p (s.rd F.PWR_STS_STATE) = true := by
      rcases hst with ⟨h, -⟩ | ⟨h, -, hmode⟩
      · simp [State.leaves, h]
      · rw [h]
        simp only [State.leaves, hmode]
        rfl
    obtain ⟨k₁, k₂, k₃, k₄, k₅, k₆, k₇, k₈⟩ := State.wakeUp_woke (rsn := beVal (octetsOf 12 2 b)) (frame := true) hs hl
    refine ⟨_, congrArg Host.Outcome.next ((if_neg ?_).trans (if_pos ?_)), k₁, k₃, k₄, k₆.trans (Nat.mod_eq_of_lt (beVal_two b)), k₈⟩
    · simp
      omega
    · rw [hmagic, hid]
      rcases hst with ⟨h, h'⟩ | ⟨h, h', -⟩ <;> simp [hd, h, h']

end Sys2Proof.Machine
end


section
/-! SUPPORT. What the end of a function's queues changes. -/

namespace Sys2Proof.Machine

/-- Queues that are reset and removed, with what is kept for their controller. -/
def Scope.ends : Scope where
  merge s t := { Scope.drop.merge s t with
    ras := t.ras
    pcx := { s.pcx with badDb := t.pcx.badDb }
    sl := { (Scope.drop.merge s t).sl with qgen := t.sl.qgen, coal := t.sl.coal, vecs := t.sl.vecs } }
  fields := [F.ZON_ENT2_HOLD, F.ZON_ENT7_SEQ, F.SLI_RES_USE_QP]

def Bound.ends : Bound := Scope.ends.bound

namespace Only

theorem ends {s t : State} (h : Only .drop s t) : Only .ends s t := h.widen (d := Scope.ends) (fun _ _ => rfl) (by decide)

theorem ends₁ {β : Type} {s : State} {p : State × β} (h : Only₁ .drop s p) : Only₁ .ends s p := Only.ends h

namespace Ends

-- So the unifier sees a match on an option as the recursor that `opt` speaks of.
set_option smartUnfolding false

variable (s : State)

theorem dropCtl (c : Ctl) : Only .ends s (s.dropCtl c) := by
  unfold State.dropCtl
  exact upd rfl

theorem removeQueue (i : Nat) : Only .ends s (s.removeQueue i) := by
  unfold State.removeQueue
  exact .opt
    (fun _ =>
      ((dec (by decide) ..).after
        (.after (upd rfl) ((Drop.filterOps ..).ends.after (.after (upd rfl) (.foldl (fun _ _ => ((Drop.zseq ..).ends.after (dec (by decide) ..)))))))))
    (.refl _)

theorem queueResets (is : List Nat) : Only .ends s (s.queueResets is) := by
  unfold State.queueResets
  exact .foldl (fun _ _ => (Drop.queueReset ..).ends)

theorem endFnQueues (n : Nat) : Only .ends s (s.endFnQueues n) := by
  unfold State.endFnQueues
  exact .after
    (.ite (upd rfl) (dropCtl ..))
    (.after (upd rfl) (.after (upd rfl) (.after (.foldl (fun _ _ => (removeQueue ..))) (queueResets ..))))


end Ends
end Only
end Sys2Proof.Machine
end


section
/-! O46: resets of links and functions (14 R314, R325, R326; 02 R56; 23 R499). -/

namespace Sys2Proof.Machine

namespace State
variable {s : State}

/-! ### Functions' records -/

/-- At most the record under one number differs. -/
structure FnsAt (n : Nat) (s t : State) : Prop where
  other : ∀ m, m ≠ n → Tab.find m t.fns = Tab.find m s.fns
  mem : ∀ e ∈ t.fns, e.1 = n ∨ e ∈ s.fns

theorem FnsAt.of_eq {n : Nat} {t : State} (h : t.fns = s.fns) : FnsAt n s t := ⟨fun _ _ => by rw [h], fun _ he => .inr (h ▸ he)⟩

theorem FnsAt.trans {n : Nat} {t u : State} (h : FnsAt n s t) (g : FnsAt n t u) : FnsAt n s u :=
  ⟨fun m hm => (g.other m hm).trans (h.other m hm), fun e he => (g.mem e he).elim .inl (h.mem e)⟩

theorem FnsAt.fn {n m : Nat} {t : State} (h : FnsAt n s t) (hm : m ≠ n) : t.fn m = s.fn m := by rw [State.fn, State.fn, h.other m hm]

theorem fnsAt_putFn (s : State) (n : Nat) (f : FnSt) : FnsAt n s (s.putFn n f) := by
  refine ⟨fun m hm => Tab.find_put_ne _ _ hm, fun e he => ?_⟩
  simp only [putFn, Tab.put, List.mem_append, List.mem_filter, List.mem_singleton] at he
  rcases he with (⟨he, -⟩ | rfl) | ⟨he, -⟩
  · exact .inr he
  · exact .inl rfl
  · exact .inr he

theorem fn_putFn {n : Nat} {f : FnSt} (h : f.present = true) : (s.putFn n f).fn n = some f := by
  rw [State.fn, show Tab.find n (s.putFn n f).fns = some f from Tab.find_put_same ..]
  simp [h]

theorem fn_present {n : Nat} {f : FnSt} (h : s.fn n = some f) : f.present = true := (Option.filter_eq_some_iff.1 h).2

theorem endFnQueues_fns (s : State) (n : Nat) : (s.endFnQueues n).fns = s.fns := by
  rw [(Only.Ends.endFnQueues s n).frame]
  rfl

/-- The record of a function whose controller was reset (14 R325). -/
def offCtl (f : FnSt) : FnSt := { f with ccEn := false, rdy := false, shst := 0, held := [] }

theorem ctlReset_eq {n : Nat} {f : FnSt} (h : s.fn n = some f) : s.ctlReset n = (s.putFn n (offCtl f)).endFnQueues n := by
  rw [ctlReset, h]
  rfl

theorem fn_of_fns {t : State} (h : t.fns = s.fns) (n : Nat) : t.fn n = s.fn n := by rw [State.fn, State.fn, h]

theorem ctlReset_fn {n : Nat} {f : FnSt} (h : s.fn n = some f) : (s.ctlReset n).fn n = some (offCtl f) := by
  rw [ctlReset_eq h, fn_of_fns (endFnQueues_fns ..)]
  exact fn_putFn (fn_present (f := f) h)

theorem fnsAt_ctlReset (s : State) (n : Nat) : FnsAt n s (s.ctlReset n) := by
  unfold ctlReset
  split
  · exact .of_eq rfl
  · exact (fnsAt_putFn ..).trans (.of_eq (endFnQueues_fns ..))

theorem fnReset_fn {n : Nat} {f : FnSt} (h : s.fn n = some f) :
    (s.fnReset n).fn n = some { offCtl f with bme := false, mse := false, pasidEn := false } := by
  simp only [fnReset, ctlReset_fn h]
  exact fn_putFn (fn_present (f := f) h)

theorem fnsAt_fnReset (s : State) (n : Nat) : FnsAt n s (s.fnReset n) := by
  unfold fnReset
  dsimp only
  split
  · exact fnsAt_ctlReset ..
  · exact (fnsAt_ctlReset ..).trans (fnsAt_putFn ..)

/-! ### What resets of functions change -/

/-- Functions, their queues, and what a link's reset returns to reset values. -/
def Scope.resets : Scope where
  merge s t := { Scope.ends.merge s t with fns := t.fns, pwr := t.pwr, pcx := { s.pcx with badDb := t.pcx.badDb, hdm := t.pcx.hdm } }
  fields := [F.PCX_SRIOV_STS_NUMVFS, F.PCX_SRIOV_STS_VF_S, F.PCX_SRIOV_CFG_VF_VEC, F.PCX_SRIOV_STS_VEC_SHORT, F.PCX_LINK_STS_DOWN_CNT, F.PCX_FN_SEL_FN,
    F.PCX_AER_CNT_COR, F.PCX_AER_CNT_UNCOR, F.PCX_AER_CNT_POISON_RX] ++ Scope.ends.fields

theorem ends_resets {t : State} (h : Only .ends s t) : Only Scope.resets.bound s t := h.widen (d := Scope.resets) (fun _ _ => rfl) (by decide)

theorem ctlReset_resets (s : State) (n : Nat) : Only Scope.resets.bound s (s.ctlReset n) := by
  unfold ctlReset
  split
  · exact .refl s
  · exact (ends_resets (Only.Ends.endFnQueues ..)).after (Only.upd rfl)

theorem fnReset_resets (s : State) (n : Nat) : Only Scope.resets.bound s (s.fnReset n) := by
  unfold fnReset
  dsimp only
  split
  · exact ctlReset_resets ..
  · exact (Only.upd rfl).after (ctlReset_resets ..)

/-- A VF is reset and goes. -/
def vfGone (s : State) (n : Nat) : State := let s := s.fnReset n; { s with fns := Tab.del n s.fns }

theorem vfGone_resets (s : State) (n : Nat) : Only Scope.resets.bound s (s.vfGone n) := by
  have h := fnReset_resets s n
  unfold vfGone
  generalize s.fnReset n = m at h ⊢
  exact (Only.upd rfl).after h

/-- A PF whose VFs are gone loses VF Enable and their number. -/
def vfDone (s : State) (pf : Nat) : State :=
  match s.fn (s.pfIdx pf) with
  | some f => s.putFn (s.pfIdx pf) { f with vfEn := false, numVfs := 0 }
  | none => s

theorem vfOff_eq (s : State) (pf : Nat) : s.vfOff pf =
    ((((s.vfsOf pf).foldl vfGone s).wr F.PCX_SRIOV_STS_VF_S 0 pf).wr F.PCX_SRIOV_STS_NUMVFS 0 pf).vfDone pf := rfl

theorem vfDone_resets (s : State) (pf : Nat) : Only Scope.resets.bound s (s.vfDone pf) := by
  unfold vfDone
  split
  · exact Only.upd rfl
  · exact .refl s

theorem vfOff_resets (s : State) (pf : Nat) : Only Scope.resets.bound s (s.vfOff pf) := by
  have hv : Only Scope.resets.bound s ((s.vfsOf pf).foldl vfGone s) := Only.foldl vfGone_resets
  rw [vfOff_eq]
  generalize (s.vfsOf pf).foldl vfGone s = v at hv
  have hw : Only Scope.resets.bound v ((v.wr F.PCX_SRIOV_STS_VF_S 0 pf).wr F.PCX_SRIOV_STS_NUMVFS 0 pf) := (Only.wr (by decide) ..).after (Only.wr (by decide) ..)
  exact (vfDone_resets ..).after (hw.after hv)

theorem pfReset_resets (s : State) (pf : Nat) : Only Scope.resets.bound s (s.pfReset pf) := by
  have h : Only Scope.resets.bound s ((s.vfOff pf).fnReset (s.pfIdx pf)) := (fnReset_resets ..).after (vfOff_resets ..)
  unfold pfReset
  dsimp only
  generalize (s.vfOff pf).fnReset (s.pfIdx pf) = m at h
  split
  · exact (Only.upd rfl).after h
  · exact h

/-! ### A PF and its VFs -/

theorem vfsGone (l : List Nat) (s : State) : (∀ k, k ∉ l → Tab.find k (l.foldl vfGone s).fns = Tab.find k s.fns) ∧
    ∀ e ∈ (l.foldl vfGone s).fns, e ∈ s.fns ∧ e.1 ∉ l := by
  induction l generalizing s with
  | nil => exact ⟨fun _ _ => rfl, fun e he => ⟨he, List.not_mem_nil⟩⟩
  | cons n l ih =>
    obtain ⟨hf, hm⟩ := ih (s.vfGone n)
    have hat := fnsAt_fnReset s n
    refine ⟨fun k hk => ?_, fun e he => ?_⟩
    · obtain ⟨h₁, h₂⟩ := not_or.1 (List.mem_cons.not.1 hk)
      exact (hf k h₂).trans ((Tab.find_del_ne _ h₁).trans (hat.other k h₁))
    · obtain ⟨h₁, h₂⟩ := hm e he
      obtain ⟨h₃, h₄⟩ := List.mem_filter.1 h₁
      have hne : e.1 ≠ n := by simpa using h₄
      exact ⟨(hat.mem e h₃).resolve_left hne, by simp [hne, h₂]⟩

theorem pfIdx_resets {t : State} (h : Only Scope.resets.bound s t) (pf : Nat) : t.pfIdx pf = s.pfIdx pf := by
  rw [pfIdx, pfIdx, h.regs F.PCX_CFG_VF_SPLIT 0 0 0 (by decide)]

/-- With its VFs gone a PF's record stands as it was, without VF Enable (14 R325). -/
theorem vfOff_spec {pf : Nat} {f : FnSt} (h : s.fn (s.pfIdx pf) = some f) : (s.vfOff pf).fn (s.pfIdx pf) = some { f with vfEn := false, numVfs := 0 } ∧
    ∀ e ∈ (s.vfOff pf).fns, ¬(s.pfIdx pf < e.1 ∧ e.1 ≤ s.pfIdx pf + s.totalVfs pf) := by
  obtain ⟨hfind, hmem⟩ := vfsGone (s.vfsOf pf) s
  have hv : Only Scope.resets.bound s ((s.vfsOf pf).foldl vfGone s) := Only.foldl vfGone_resets
  have hnot : s.pfIdx pf ∉ s.vfsOf pf := by
    intro hin
    obtain ⟨e, he, hk⟩ := List.mem_map.1 hin
    have := (List.mem_filter.1 he).2
    simp only [Bool.and_eq_true, decide_eq_true_eq] at this
    omega
  rw [vfOff_eq, vfDone]
  generalize (s.vfsOf pf).foldl vfGone s = v at hv hfind hmem
  have hi : ((v.wr F.PCX_SRIOV_STS_VF_S 0 pf).wr F.PCX_SRIOV_STS_NUMVFS 0 pf).pfIdx pf = s.pfIdx pf :=
    pfIdx_resets ((Only.wr (by decide) ..).after ((Only.wr (by decide) ..).after hv)) pf
  have hf : ((v.wr F.PCX_SRIOV_STS_VF_S 0 pf).wr F.PCX_SRIOV_STS_NUMVFS 0 pf).fn (s.pfIdx pf) = some f := by
    rw [← h, fn, fn]
    exact congrArg _ (hfind _ hnot)
  simp only [hi, hf]
  refine ⟨fn_putFn (fn_present (f := f) h), fun e he hr => ?_⟩
  rcases (fnsAt_putFn _ _ _).mem e he with hk | hk
  · omega
  · obtain ⟨h₁, h₂⟩ := hmem e hk
    exact h₂ (List.mem_map.2 ⟨e, List.mem_filter.2 ⟨h₁, by simpa using hr⟩, rfl⟩)

/-- A PF that was reset with its VFs (14 R325). -/
theorem pfReset_spec {pf : Nat} {f : FnSt} (h : s.fn (s.pfIdx pf) = some f) :
    (∃ g, (s.pfReset pf).fn (s.pfIdx pf) = some g ∧ g.ccEn = false ∧ g.rdy = false ∧ g.bme = false ∧ g.mse = false ∧ g.vfEn = false ∧ g.held = []) ∧
    (∀ e ∈ (s.pfReset pf).fns, ¬(s.pfIdx pf < e.1 ∧ e.1 ≤ s.pfIdx pf + s.totalVfs pf)) ∧ (pf = 0 → (s.pfReset pf).pcx.hdm = none) := by
  obtain ⟨hf, hm⟩ := vfOff_spec h
  have hfn : (s.pfReset pf).fns = ((s.vfOff pf).fnReset (s.pfIdx pf)).fns := by
    unfold pfReset
    dsimp only
    split <;> rfl
  refine ⟨⟨_, (fn_of_fns hfn _).trans (fnReset_fn hf), rfl, rfl, rfl, rfl, rfl, rfl⟩, fun e he hr => ?_, fun h0 => ?_⟩
  · rw [hfn] at he
    rcases (fnsAt_fnReset ..).mem e he with hk | hk
    · omega
    · exact hm e hk hr
  · unfold pfReset
    dsimp only
    rw [if_pos h0]

/-! ### A link's reset (23 R496) -/

/-- What a reset of a link returns to reset values. -/
def Scope.warm : Scope where
  merge s t := { s with regs := t.regs }
  fields := [F.PCX_SRIOV_CFG_VF_VEC, F.PCX_SRIOV_STS_VEC_SHORT, F.PCX_LINK_STS_DOWN_CNT, F.PCX_FN_SEL_FN, F.PCX_AER_CNT_COR, F.PCX_AER_CNT_UNCOR,
    F.PCX_AER_CNT_POISON_RX]

theorem pcxWarm_warm (s : State) : Only Scope.warm.bound s s.pcxWarm := by
  unfold pcxWarm
  refine .after (.clr (by decide) ..) (.after (.clr (by decide) ..) (.after (.clr (by decide) ..) (Only.foldl fun a i => ?_)))
  exact .after (.clr (by decide) ..) (.after (.clr (by decide) ..) (.after (.clr (by decide) ..) (.clr (by decide) ..)))

theorem warm_resets {t : State} (h : Only Scope.warm.bound s t) : Only Scope.resets.bound s t := h.widen (d := Scope.resets) (fun _ _ => rfl) (by decide)

theorem linkReset_eq {l : Nat} (hl : l < 2) (h1 : l = 1 → s.rd F.PCX_CFG_BIFUR = 1) : s.linkReset l = (s.pfReset l).pcxWarm := by
  have hp : s.pfs.filter (fun pf => decide (pf = l)) = [l] := by
    unfold pfs
    interval_cases l
    · split <;> rfl
    · rw [if_pos (h1 rfl)]
      rfl
  rw [linkReset, hp]
  rfl

/-- The registers of a link's state (14 R311). -/
def linkRegs : List Fld := [F.PCX_LINK_STS_UP, F.PCX_LINK_STS_SPEED, F.PCX_LINK_STS_WIDTH, F.PCX_LINK_STS_FLIT, F.PCX_LINK_STS_L0P_W, F.PCX_CXL_STS_ACTIVE]

/-- A link's state changes registers alone. -/
def Scope.port : Scope where
  merge s t := { s with regs := t.regs }
  fields := linkRegs

theorem linkOff_port (s : State) (l : Nat) : Only Scope.port.bound s (s.linkOff l) := by
  unfold linkOff
  exact .after (.ite (.wr (by decide) ..) (.refl _)) (.after (.wr (by decide) ..) (.after (.wr (by decide) ..) (.after (.wr (by decide) ..)
    (.after (.wr (by decide) ..) (.wr (by decide) ..)))))

theorem linkOff_up (s : State) (l : Nat) : (s.linkOff l).rd F.PCX_LINK_STS_UP l = 0 := by
  unfold linkOff
  dsimp only
  split <;> simp (disch := decide) only [rd_wr_id] <;> exact rd_wr_same ..

theorem linkOn_port (s : State) (l speed width : Nat) (flit cxl : Bool) : Only Scope.port.bound s (s.linkOn l speed width flit cxl) := by
  unfold linkOn
  exact .after (.ite (.wr (by decide) ..) (.refl _)) (.after (.wr (by decide) ..) (.after (.wr (by decide) ..) (.after (.wr (by decide) ..)
    (.after (.wr (by decide) ..) (.wr (by decide) ..)))))

theorem linkOn_spec (s : State) (l : Nat) {speed width : Nat} (flit cxl : Bool) (hs : speed ≤ 6) (hw : width ≤ 16) :
    (s.linkOn l speed width flit cxl).rd F.PCX_LINK_STS_UP l = 1 ∧ (s.linkOn l speed width flit cxl).rd F.PCX_LINK_STS_SPEED l = speed ∧
    (s.linkOn l speed width flit cxl).rd F.PCX_LINK_STS_WIDTH l = width ∧
    (s.linkOn l speed width flit cxl).rd F.PCX_LINK_STS_FLIT l = b2n (flit && speed = 6) := by
  have hs' : cut F.PCX_LINK_STS_SPEED.w speed = speed := Nat.mod_eq_of_lt (show speed < 8 by omega)
  have hw' : cut F.PCX_LINK_STS_WIDTH.w width = width := Nat.mod_eq_of_lt (show width < 32 by omega)
  have hf : cut F.PCX_LINK_STS_FLIT.w (b2n (flit && speed = 6)) = b2n (flit && speed = 6) := by cases (flit && decide (speed = 6)) <;> rfl
  unfold linkOn
  dsimp only
  have hu : cut F.PCX_LINK_STS_UP.w 1 = 1 := rfl
  split <;> simp (disch := decide) only [rd_wr_id, rd_wr_same, hs', hw', hf, hu, and_self]

theorem edge_outs (s : State) (src data : Nat) : (s.edge src data).outs = s.outs ∧ (s.edge src data).zn = s.zn ∧ (s.edge src data).fns = s.fns ∧
    (s.edge src data).pcx = s.pcx ∧ (s.edge src data).img = s.img := by
  unfold edge latch
  dsimp only
  split
  · split <;> exact ⟨rfl, rfl, rfl, rfl, rfl⟩
  · exact ⟨rfl, rfl, rfl, rfl, rfl⟩

theorem wakeSrc_awake (h : s.awake = true) (hj : s.pwr.jack = false) (code idx ns : Nat) : s.wakeSrc code idx ns = s := by
  have hst : s.rd F.PWR_STS_STATE ≤ 1 := of_decide_eq_true h
  have hno : (decide (s.rd F.PWR_STS_STATE = pwDoze) || decide (s.rd F.PWR_STS_STATE = pwNap)) = false := by
    have h₁ : s.rd F.PWR_STS_STATE ≠ pwDoze := by unfold pwDoze; omega
    have h₂ : s.rd F.PWR_STS_STATE ≠ pwNap := by unfold pwNap; omega
    simp [h₁, h₂]
  rw [wakeSrc, hj, if_neg Bool.false_ne_true, wakeUp]
  dsimp only
  rw [hno, Bool.false_and, if_neg Bool.false_ne_true]

/-! ### A function's queues (02 R56) -/

/-- A queue's context keeps its function and its kind: every queue stands for one of before, under its number, and none is lost. -/
structure Owned (s t : State) : Prop where
  mem : ∀ e ∈ t.sl.qs, ∃ q, (e.1, q) ∈ s.sl.qs ∧ q.fabric = e.2.fabric ∧ q.func = e.2.func
  key : ∀ i, Tab.find i s.sl.qs ≠ none → Tab.find i t.sl.qs ≠ none

theorem Owned.of_eq {t : State} (h : t.sl.qs = s.sl.qs) : Owned s t := ⟨fun e he => ⟨e.2, h ▸ he, rfl, rfl⟩, fun _ hi => h ▸ hi⟩

theorem Owned.trans {t u : State} (h : Owned s t) (g : Owned t u) : Owned s u := by
  refine ⟨fun e he => ?_, fun i hi => g.key i (h.key i hi)⟩
  obtain ⟨q, hq, hf, hn⟩ := g.mem e he
  obtain ⟨p, hp, hf', hn'⟩ := h.mem _ hq
  exact ⟨p, hp, hf'.trans hf, hn'.trans hn⟩

theorem dropCmds_sl (s : State) (ok : Nat → Bool) : (s.dropCmds ok).sl = s.sl := by
  have hf (l : List Cmd) : ∀ a : State, (l.foldl (fun (s : State) c => (s.dec F.ZON_ENT2_HOLD c.zone).zseq c.zone) a).sl = a.sl := by
    induction l with
    | nil => exact fun _ => rfl
    | cons c l ih => exact fun a => (ih _).trans rfl
  unfold dropCmds filterOps
  exact hf _ s

theorem mem_put {α : Type} {i : Nat} {v : α} {t : Tab α} {e : Nat × α} (h : e ∈ Tab.put i v t) : e = (i, v) ∨ e ∈ t := by
  simp only [Tab.put, List.mem_append, List.mem_filter, List.mem_singleton] at h
  rcases h with (⟨h, -⟩ | rfl) | ⟨h, -⟩
  · exact .inr h
  · exact .inl rfl
  · exact .inr h

theorem emptyQueue_owned (s : State) (i : Nat) : Owned s (s.emptyQueue i) := by
  unfold emptyQueue
  split
  · exact .of_eq rfl
  · next q hq =>
    refine ⟨fun e he => ?_, fun k hk => ?_⟩
    · rcases mem_put he with rfl | he
      · exact ⟨q, Tab.mem_of_find hq, rfl, rfl⟩
      · exact ⟨e.2, he, rfl, rfl⟩
    · by_cases h : k = i
      · subst h
        exact fun hn => nomatch (Tab.find_put_same ..).symm.trans hn
      · exact fun hn => hk ((Tab.find_put_ne _ _ h).symm.trans hn)

theorem queueReset_owned (s : State) (i : Nat) : Owned s (s.queueReset i).1 := by
  have hd : Owned s (s.dropCmds fun j => decide (j = i)) := .of_eq (by rw [dropCmds_sl])
  unfold queueReset
  split
  · exact .of_eq rfl
  · dsimp only
    split
    · exact hd
    · split
      · exact hd.trans (.of_eq rfl)
      · exact hd.trans (emptyQueue_owned ..)

theorem queueReset_cmds {i : Nat} (h : Tab.find i s.sl.qs ≠ none) : ∀ c ∈ (s.queueReset i).1.zn.cmds, c.q ≠ i := by
  obtain ⟨q, hq⟩ := Option.ne_none_iff_exists'.1 h
  have hdrop : ∀ c ∈ (s.dropCmds fun j => decide (j = i)).zn.cmds, c.q ≠ i := by
    intro c hc
    unfold dropCmds at hc
    simpa using (List.mem_filter.1 hc).2
  rw [queueReset, hq]
  dsimp only
  split
  · exact hdrop
  · split
    · exact hdrop
    · unfold emptyQueue
      split
      · exact hdrop
      · exact hdrop

/-- After queue resets no command of those queues is in flight. -/
theorem queueResets_spec (is : List Nat) (s : State) : Owned s (s.queueResets is) ∧
    ∀ i ∈ is, Tab.find i s.sl.qs ≠ none → ∀ c ∈ (s.queueResets is).zn.cmds, c.q ≠ i := by
  induction is generalizing s with
  | nil => exact ⟨.of_eq rfl, fun i hi => nomatch hi⟩
  | cons k is ih =>
    obtain ⟨ho, hc⟩ := ih (s.queueReset k).1
    have hk := queueReset_owned s k
    refine ⟨hk.trans ho, fun i hi hs c hm => ?_⟩
    rcases List.mem_cons.1 hi with rfl | hi
    · obtain ⟨d, hd, hq, -⟩ := (Only.Fewer.queueResets (s.queueReset i).1 is).rel c hm
      exact hq ▸ queueReset_cmds hs d hd
    · exact hc i hi (hk.key i hs) c hm

theorem endFnQueues_qs (s : State) (n : Nat) : (s.endFnQueues n).sl.qs =
    (((s.fnQueues n).filter fun i => !(n = 0 && i = 0)).foldl removeQueue (s.queueResets (s.fnQueues n))).sl.qs := by
  unfold endFnQueues dropCtl
  dsimp only
  split <;> rfl

theorem endFnQueues_cmds (s : State) (n : Nat) : ∀ c ∈ (s.endFnQueues n).zn.cmds, ∃ d ∈ (s.queueResets (s.fnQueues n)).zn.cmds, d.q = c.q := by
  have h : (s.endFnQueues n).zn = (((s.fnQueues n).filter fun i => !(n = 0 && i = 0)).foldl removeQueue (s.queueResets (s.fnQueues n))).zn := by
    unfold endFnQueues dropCtl
    dsimp only
    split <;> rfl
  intro c hc
  rw [h] at hc
  have hf : Only .fewer (s.queueResets (s.fnQueues n)) (((s.fnQueues n).filter fun i => !(n = 0 && i = 0)).foldl removeQueue (s.queueResets (s.fnQueues n))) :=
    .foldl fun _ _ => Only.Fewer.removeQueue ..
  obtain ⟨d, hd, hq, -⟩ := hf.rel c hc
  exact ⟨d, hd, hq⟩

/-- Where a function's queues end, none but PF0's admin queue stands, and nothing of them is in flight. -/
theorem endFnQueues_spec (s : State) (n : Nat) : (∀ e ∈ (s.endFnQueues n).sl.qs, e.2.fabric = false → e.2.func = n → n = 0 ∧ e.1 = 0) ∧
    ∀ c ∈ (s.endFnQueues n).zn.cmds, ∀ q, Tab.find c.q s.sl.qs = some q → q.fabric = false → q.func ≠ n := by
  obtain ⟨ho, hcmds⟩ := queueResets_spec (s.fnQueues n) s
  have hin {i : Nat} {q : Queue} (h : (i, q) ∈ s.sl.qs) (hf : q.fabric = false) (hn : q.func = n) : i ∈ s.fnQueues n :=
    List.mem_map.2 ⟨(i, q), List.mem_filter.2 ⟨h, by simp [hf, hn]⟩, rfl⟩
  refine ⟨fun e he hf hn => ?_, fun c hc q hq hf hn => ?_⟩
  · rw [endFnQueues_qs] at he
    obtain ⟨hm, hnot⟩ := removeQueues_mem _ _ he
    obtain ⟨q, hq, hqf, hqn⟩ := ho.mem e hm
    have hi := hin hq (hqf.trans hf) (hqn.trans hn)
    by_contra hne
    refine hnot (List.mem_filter.2 ⟨hi, ?_⟩)
    simpa [imp_iff_not_or] using hne
  · obtain ⟨d, hd, hdq⟩ := endFnQueues_cmds s n c hc
    rw [← hdq] at hq
    exact hcmds d.q (hin (Tab.mem_of_find hq) hf hn) (by rw [hq]; exact Option.some_ne_none _) d hd rfl

/-- A PERST_N or DL_Down of a link: its PF and VFs are reset and it goes down. -/
theorem linkReset_spec {l : Nat} {f : FnSt} (hl : l < 2) (h1 : l = 1 → s.rd F.PCX_CFG_BIFUR = 1) (h : s.fn (s.pfIdx l) = some f) :
    Only Scope.resets.bound s (s.linkReset l) ∧
    (∃ g, (s.linkReset l).fn (s.pfIdx l) = some g ∧ g.ccEn = false ∧ g.rdy = false ∧ g.bme = false ∧ g.mse = false ∧ g.vfEn = false) ∧
    ∀ e ∈ (s.linkReset l).fns, ¬(s.pfIdx l < e.1 ∧ e.1 ≤ s.pfIdx l + s.totalVfs l) := by
  obtain ⟨⟨g, hg, h₁, h₂, h₃, h₄, h₅, -⟩, hvf, -⟩ := pfReset_spec h
  have hp := pfReset_resets s l
  rw [linkReset_eq hl h1]
  generalize s.pfReset l = m at hg hvf hp ⊢
  have hw := pcxWarm_warm m
  generalize m.pcxWarm = w at hw
  have hfns : w.fns = m.fns := by rw [hw.frame]; rfl
  have hr : Only Scope.resets.bound s w := (warm_resets hw).after hp
  have hw : w.fn (s.pfIdx l) = some g := (fn_of_fns hfns _).trans hg
  exact ⟨hr, ⟨g, hw, h₁, h₂, h₃, h₄, h₅⟩, fun e he => hvf e (hfns ▸ he)⟩

end State

/-- PERST_N falls (14 R325): its link goes down, its PF and VFs are reset. -/
theorem ran_perstNAssert {l : Nat} {f : FnSt} {s : State} (hl : l < 2) (h1 : l = 1 → s.rd F.PCX_CFG_BIFUR = 1) (hp : s.pcx.perst.getD l false = true)
    (hpor : s.img.por = true) (hj : s.pwr.jack = false) (h : s.fn (s.pfIdx l) = some f) : Ran (.perstNAssert l true) s (fun t =>
      t.pcx.perst.getD l true = false ∧ t.rd F.PCX_LINK_STS_UP l = 0 ∧ t.rd F.GEN_STS_CAUSE = 2 ∧
      t.rd F.PCX_RST_CNT_PERST = sat F.PCX_RST_CNT_PERST.w (s.rd F.PCX_RST_CNT_PERST + 1) ∧
      (∃ g, t.fn (s.pfIdx l) = some g ∧ g.ccEn = false ∧ g.rdy = false ∧ g.bme = false ∧ g.mse = false ∧ g.vfEn = false) ∧
      (∀ e ∈ t.fns, ¬(s.pfIdx l < e.1 ∧ e.1 ≤ s.pfIdx l + s.totalVfs l)) ∧ t.zn.ud = s.zn.ud) := by
  have hlen : l < s.pcx.perst.length := by
    by_contra hge
    rw [List.getD_eq_default _ _ (Nat.le_of_not_lt hge)] at hp
    exact Bool.false_ne_true hp
  have hno : (decide (l ≥ 2) || (decide (l = 1) && decide (s.rd F.PCX_CFG_BIFUR = 0)) || (true && !s.pcx.perst.getD l false)) = false := by
    have hb : ¬(l = 1 ∧ s.rd F.PCX_CFG_BIFUR = 0) := fun hb => by have := h1 hb.1; omega
    simp only [hp, Bool.not_true, Bool.and_false, Bool.or_false, Bool.or_eq_false_iff, decide_eq_false_iff_not, Bool.and_eq_false_imp, decide_eq_true_eq]
    exact ⟨by omega, fun h₁ h₂ => hb ⟨h₁, h₂⟩⟩
  let p : State := { s with pcx := { s.pcx with perst := s.pcx.perst.set l false } }
  let b : State := ((p.inc F.PCX_RST_CNT_PERST).edge 19 0).wr F.GEN_STS_CAUSE 2
  have hed := State.edge_outs (p.inc F.PCX_RST_CNT_PERST) 19 0
  have hek := State.edge_keeps (p.inc F.PCX_RST_CNT_PERST) 19 0
  obtain ⟨-, hez, hef, hepc, -⟩ := hed
  have hrd (g : Fld) (i : Nat) (h₁ : ∀ k ∈ [F.PUP_MBX_STS_SEQ], g.id ≠ k.id) (h₂ : g.id ≠ F.GEN_STS_CAUSE.id) (h₃ : g.id ≠ F.PCX_RST_CNT_PERST.id) : b.rd g i = s.rd g i := by
    rw [show b.rd g i = _ from State.rd_wr_id _ _ _ _ _ _ _ _ _ _ h₂]
    exact (hek g i 0 0 h₁).trans (State.rd_wr_id _ _ _ _ _ _ _ _ _ _ h₃)
  have hbc : b.rd F.GEN_STS_CAUSE = 2 := State.rd_wr_same ..
  have hbp : b.rd F.PCX_RST_CNT_PERST = sat F.PCX_RST_CNT_PERST.w (s.rd F.PCX_RST_CNT_PERST + 1) := by
    rw [show b.rd F.PCX_RST_CNT_PERST = _ from State.rd_wr_id _ _ _ _ _ _ _ _ _ _ (by decide)]
    exact (hek F.PCX_RST_CNT_PERST 0 0 0 (by decide)).trans ((State.rd_inc_same ..).trans (cut_sat ..))
  have hbz : b.zn = s.zn := hez
  have hbf : b.fns = s.fns := hef
  have hbpc : b.pcx = p.pcx := hepc
  have hsplit := hrd F.PCX_CFG_VF_SPLIT 0 (by decide) (by decide) (by decide)
  have hbif := hrd F.PCX_CFG_BIFUR 0 (by decide) (by decide) (by decide)
  have hpi : b.pfIdx l = s.pfIdx l := by rw [State.pfIdx, State.pfIdx, hsplit]
  have htv : b.totalVfs l = s.totalVfs l := by rw [State.totalVfs, State.totalVfs, hsplit, hbif]
  have hrun : exec (.perstNAssert l true) s = .next (if s.rd F.PCX_LINK_STS_UP l = 1 then ((b.linkReset l).linkOff l).inc F.PCX_LINK_STS_DOWN_CNT l else (b.linkReset l).linkOff l) := by
    show execPerstNAssert l true s = _
    unfold execPerstNAssert
    rw [hno, if_neg Bool.false_ne_true]
    simp only [if_true, hpor, hj, Bool.not_true, Bool.or_false, Bool.false_and, if_neg Bool.false_ne_true]
    rfl
  clear_value b
  obtain ⟨hr, hg, hv⟩ := State.linkReset_spec hl (fun hl1 => hbif.trans (h1 hl1)) (show b.fn (b.pfIdx l) = some f by rw [hpi, State.fn_of_fns hbf]; exact h)
  rw [hpi] at hg hv
  rw [htv] at hv
  generalize b.linkReset l = m at hr hg hv hrun
  have ho := State.linkOff_port m l
  have hup := State.linkOff_up m l
  generalize m.linkOff l = c at ho hup hrun
  have hcf : c.fns = m.fns := by rw [ho.frame]; rfl
  have hcp : c.pcx.perst = s.pcx.perst.set l false := by rw [ho.frame]; exact (congrArg (fun t : State => t.pcx.perst) hr.frame).trans (congrArg (·.perst) hbpc)
  have hcu : c.zn.ud = s.zn.ud := by rw [ho.frame]; exact (congrArg (fun t : State => t.zn.ud) hr.frame).trans (congrArg (·.ud) hbz)
  have hcc : c.rd F.GEN_STS_CAUSE = 2 := (ho.regs F.GEN_STS_CAUSE 0 0 0 (by decide)).trans ((hr.regs F.GEN_STS_CAUSE 0 0 0 (by decide)).trans hbc)
  have hcr : c.rd F.PCX_RST_CNT_PERST = sat F.PCX_RST_CNT_PERST.w (s.rd F.PCX_RST_CNT_PERST + 1) :=
    (ho.regs F.PCX_RST_CNT_PERST 0 0 0 (by decide)).trans ((hr.regs F.PCX_RST_CNT_PERST 0 0 0 (by decide)).trans hbp)
  have hset : c.pcx.perst.getD l true = false := by rw [hcp]; simp [hlen]
  refine ⟨_, hrun, ?_⟩
  rw [← State.fn_of_fns hcf] at hg
  rw [← hcf] at hv
  split
  · exact ⟨hset, (State.rd_inc_id _ _ _ _ _ _ _ _ _ (by decide)).trans hup, (State.rd_inc_id _ _ _ _ _ _ _ _ _ (by decide)).trans hcc, (State.rd_inc_id _ _ _ _ _ _ _ _ _ (by decide)).trans hcr, hg, hv, hcu⟩
  · exact ⟨hset, hup, hcc, hcr, hg, hv, hcu⟩

/-- PERST_N rises (14 R311, R326): the link trains. -/
theorem ran_perstNDeassert {l speed width : Nat} (ns : Nat) (flit cxl : Bool) {s : State} (hl : l < 2) (hp : s.pcx.perst = [false, false]) (hj : s.pwr.jack = false)
    (hpor : s.img.por = true) (hrom : s.img.rom = false) (h1 : l = 1 → s.rd F.PCX_CFG_BIFUR = 1) (ha : s.awake = true)
    (hm : s.linkMay speed width = true) (hc : 14 ∉ s.img.noCal) : Ran (.perstNDeassert l speed width flit cxl ns) s (fun t =>
      t.pcx.perst.getD l false = true ∧ t.rd F.PCX_LINK_STS_UP l = 1 ∧ t.rd F.PCX_LINK_STS_SPEED l = speed ∧
      t.rd F.PCX_LINK_STS_WIDTH l = width ∧ t.rd F.PCX_LINK_STS_FLIT l = b2n (flit && speed = 6) ∧
      t.fns = s.fns ∧ t.zn = s.zn ∧ t.outs = s.outs) := by
  have hwas : s.pcx.perst.getD l false = false := by rw [hp]; interval_cases l <;> rfl
  have hset : (s.pcx.perst.set l true).getD l false = true := by rw [hp]; interval_cases l <;> rfl
  have hbounds : speed ≤ 6 ∧ width ≤ 16 := by
    simp only [State.linkMay, Bool.and_eq_true, decide_eq_true_eq, List.contains_iff_mem, List.mem_cons, List.not_mem_nil, or_false] at hm
    omega
  have hb : (decide (l = 1) && decide (s.rd F.PCX_CFG_BIFUR = 0)) = false := by
    simp only [Bool.and_eq_false_imp, decide_eq_true_eq, decide_eq_false_iff_not]
    intro h
    have := h1 h
    omega
  let p : State := { s with pcx := { s.pcx with perst := s.pcx.perst.set l true } }
  have hek := State.edge_keeps p 19 1
  have hea := State.edge_outs p 19 1
  have hpw : (p.edge 19 1).pwr = s.pwr := by
    rw [(Only.Link.edge p 19 1).frame]
    rfl
  have haw : (p.edge 19 1).awake = true := by
    rw [State.awake, hek F.PWR_STS_STATE 0 0 0 (by decide)]
    exact ha
  have hwk := State.wakeSrc_awake haw (hpw ▸ hj) 3 l ns
  have hmay : (p.edge 19 1).linkMay speed width = true := by
    rw [State.linkMay, hek F.PCX_CFG_BIFUR 0 0 0 (by decide)]
    exact hm
  have hrun : exec (.perstNDeassert l speed width flit cxl ns) s = .next ((p.edge 19 1).linkOn l speed width flit cxl) := by
    show execPerstNDeassert l speed width flit cxl ns s = _
    unfold execPerstNDeassert
    dsimp only
    rw [hwas, Bool.false_and, Bool.or_false, if_neg (by simpa using hl), if_neg (by simp [hj])]
    refine congrArg Host.Outcome.next ((if_neg ?_).trans ?_)
    · simp only [hpor, hrom, Bool.not_true, Bool.false_or]
      exact fun h => Bool.false_ne_true (hb.symm.trans h)
    rw [if_neg Bool.false_ne_true, show State.wakeSrc _ 3 l ns = p.edge 19 1 from hwk, hmay]
    rw [if_pos]
    simpa [hea.2.2.2.2] using hc
  obtain ⟨ho, hz, hf, hpc, -⟩ := hea
  generalize p.edge 19 1 = b at ho hz hf hpc hrun
  have hon := State.linkOn_port b l speed width flit cxl
  obtain ⟨k₁, k₂, k₃, k₄⟩ := State.linkOn_spec b l flit cxl hbounds.1 hbounds.2
  refine ⟨_, hrun, ?_, k₁, k₂, k₃, k₄, ?_, ?_, ?_⟩ <;> rw [hon.frame]
  · exact (congrArg (fun x => x.perst.getD l false) hpc).trans hset
  · exact hf
  · exact hz
  · exact ho

/-- An FLR of a PF (14 R325). -/
theorem ran_flrPf {pf : Nat} {f : FnSt} {s : State} (hp : s.pfs.contains pf = true) (h : s.fn (s.pfIdx pf) = some f) : Ran (.flrPf pf) s (fun t =>
    (∃ g, t.fn (s.pfIdx pf) = some g ∧ g.ccEn = false ∧ g.rdy = false ∧ g.bme = false ∧ g.mse = false ∧ g.vfEn = false ∧ g.held = []) ∧
    (∀ e ∈ t.fns, ¬(s.pfIdx pf < e.1 ∧ e.1 ≤ s.pfIdx pf + s.totalVfs pf)) ∧ (pf = 0 → t.rd F.GEN_STS_CAUSE = 3 ∧ t.pcx.hdm = none) ∧
    t.rd F.PCX_RST_CNT_FLR = sat F.PCX_RST_CNT_FLR.w (s.rd F.PCX_RST_CNT_FLR + 1) ∧
    t.rd F.PCX_LINK_STS_UP pf = s.rd F.PCX_LINK_STS_UP pf ∧ t.zn.ud = s.zn.ud) := by
  let c : State := if pf = 0 then s.wr F.GEN_STS_CAUSE 3 else s
  have hk : Keeps s c [F.GEN_STS_CAUSE] := by
    unfold c
    split
    · exact Keeps.wr (List.mem_singleton_self F.GEN_STS_CAUSE) s _ _ _ _
    · exact fun _ _ _ _ _ => rfl
  have hz : c.fns = s.fns ∧ c.zn = s.zn := by unfold c; split <;> exact ⟨rfl, rfl⟩
  have hcause : pf = 0 → c.rd F.GEN_STS_CAUSE = 3 := fun h0 => by
    unfold c
    rw [if_pos h0]
    exact State.rd_wr_same ..
  have hrun : exec (.flrPf pf) s = .next ((c.inc F.PCX_RST_CNT_FLR).pfReset pf) := congrArg Host.Outcome.next (if_neg (by simp [h]; simpa using hp))
  clear_value c
  let b : State := c.inc F.PCX_RST_CNT_FLR
  have hrd (g : Fld) (i : Nat) (h₁ : ∀ k ∈ [F.GEN_STS_CAUSE], g.id ≠ k.id) (h₂ : g.id ≠ F.PCX_RST_CNT_FLR.id) : b.rd g i = s.rd g i :=
    (State.rd_inc_id _ _ _ _ _ _ _ _ _ h₂).trans (hk g i 0 0 h₁)
  have hsplit := hrd F.PCX_CFG_VF_SPLIT 0 (by decide) (by decide)
  have hbif := hrd F.PCX_CFG_BIFUR 0 (by decide) (by decide)
  have hpi : b.pfIdx pf = s.pfIdx pf := by rw [State.pfIdx, State.pfIdx, hsplit]
  have htv : b.totalVfs pf = s.totalVfs pf := by rw [State.totalVfs, State.totalVfs, hsplit, hbif]
  obtain ⟨hg, hv, hh⟩ := State.pfReset_spec (show b.fn (b.pfIdx pf) = some f by rw [hpi, State.fn_of_fns (show b.fns = s.fns from hz.1)]; exact h)
  rw [hpi] at hg hv
  rw [htv] at hv
  have hr := State.pfReset_resets b pf
  refine ⟨_, hrun, hg, hv, fun h0 => ⟨?_, hh h0⟩, ?_, ?_, ?_⟩
  · exact (hr.regs F.GEN_STS_CAUSE 0 0 0 (by decide)).trans ((State.rd_inc_id _ _ _ _ _ _ _ _ _ (by decide)).trans (hcause h0))
  · refine (hr.regs F.PCX_RST_CNT_FLR 0 0 0 (by decide)).trans (((State.rd_inc_same ..).trans (cut_sat ..)).trans ?_)
    rw [hk F.PCX_RST_CNT_FLR 0 0 0 (by decide)]
  · exact (hr.regs F.PCX_LINK_STS_UP pf 0 0 (by decide)).trans (hrd F.PCX_LINK_STS_UP pf (by decide) (by decide))
  · exact (congrArg (fun t : State => t.zn.ud) hr.frame).trans (congrArg (·.ud) hz.2)

/-- An FLR of a VF (14 R325). -/
theorem ran_flrVf {n : Nat} {f : FnSt} {s : State} (h : s.fn n = some f) (h0 : n ≠ 0) (h1 : n ≠ s.pfIdx 1) : Ran (.flrVf n) s (fun t =>
    (∃ g, t.fn n = some g ∧ g.ccEn = false ∧ g.rdy = false ∧ g.bme = false ∧ g.mse = false) ∧
    t.rd F.PCX_RST_CNT_FLR = sat F.PCX_RST_CNT_FLR.w (s.rd F.PCX_RST_CNT_FLR + 1) ∧ (∀ m, m ≠ n → t.fn m = s.fn m) ∧ t.zn.ud = s.zn.ud) := by
  let b : State := s.inc F.PCX_RST_CNT_FLR
  have hpf : s.pfs.any (fun pf => decide (n = s.pfIdx pf)) = false := by
    have hz : s.pfIdx 0 = 0 := rfl
    unfold State.pfs
    split <;> simp [h0, h1, hz]
  have hr := State.fnReset_resets b n
  refine ⟨b.fnReset n, congrArg Host.Outcome.next (if_neg (by simp [h, hpf])), ⟨_, State.fnReset_fn (s := b) h, rfl, rfl, rfl, rfl⟩, ?_, fun m hm => ?_, ?_⟩
  · exact (hr.regs F.PCX_RST_CNT_FLR 0 0 0 (by decide)).trans ((State.rd_inc_same ..).trans (cut_sat ..))
  · exact (State.fnsAt_fnReset b n).fn hm
  · exact (congrArg (fun t : State => t.zn.ud) hr.frame :)

/-- CC.EN cleared (14 R325): the function's queues end. -/
theorem ran_ccEnClear {n : Nat} {f : FnSt} {s : State} (h : s.fn n = some f) : Ran (.ccEnClear n) s (fun t =>
    (∃ g, t.fn n = some g ∧ g.ccEn = false ∧ g.rdy = false ∧ g.shst = 0 ∧ g.bme = f.bme ∧ g.mse = f.mse) ∧
    (∀ e ∈ t.sl.qs, e.2.fabric = false → e.2.func = n → n = 0 ∧ e.1 = 0) ∧ (∀ c ∈ t.zn.cmds, ∀ q, Tab.find c.q s.sl.qs = some q →
      q.fabric = false → q.func ≠ n) ∧ (∀ m, m ≠ n → t.fn m = s.fn m) ∧ t.zn.ud = s.zn.ud) := by
  have hr := State.ctlReset_resets s n
  obtain ⟨hq, hc⟩ := State.endFnQueues_spec (s.putFn n (State.offCtl f)) n
  rw [← State.ctlReset_eq h] at hq hc
  exact ⟨s.ctlReset n, rfl, ⟨_, State.ctlReset_fn h, rfl, rfl, rfl, rfl, rfl⟩, hq, hc, fun m hm => (State.fnsAt_ctlReset s n).fn hm,
    (congrArg (fun t : State => t.zn.ud) hr.frame :)⟩

/-- Settles O46. -/
theorem functionResetsComplete : Obligations.FunctionResetsComplete := by
  unfold Obligations.FunctionResetsComplete
  refine ⟨fun n r v s ht hd => ?_, fun n v f s ht hf => ?_, fun l f s hl h1 hp hpor hj h => ran_perstNAssert hl h1 hp hpor hj h,
    fun l speed width ns flit cxl s hl hp hj hpor hrom h1 ha hm hc => ran_perstNDeassert ns flit cxl hl hp hj hpor hrom h1 ha hm hc,
    fun pf f s hp h => ran_flrPf hp h, fun n f s h h0 h1 => ran_flrVf h h0 h1, fun n f s h => ran_ccEnClear h⟩
  · refine ⟨_, congrArg Host.Outcome.next ((if_neg (by simp [hd])).trans (if_pos (by simp [ht]))), rfl⟩
  · have hdead : s.dead = false := by
      cases hd : s.dead
      · rfl
      · simp [State.tables, hd] at ht
    refine ⟨{ s with outs := s.outs ++ [.pcie "configuration" [n, 1]], fns := Tab.put n { f with mse := v != 0 } s.fns }, ?_, ?_, rfl⟩
    · show execConfigurationRequest n 1 v s = _
      unfold execConfigurationRequest
      rw [if_neg (by simp [hdead]), if_neg (by simp [ht])]
      dsimp only
      rw [State.fn_of_fns (show (s.send _).fns = s.fns from rfl), hf]
      rfl
    · exact State.fn_putFn (s := s) (State.fn_present (f := f) hf)

end Sys2Proof.Machine
end


section
/-! O47: CC.EN, shutdown, VFs, Bus Master Enable and PASID Enable (14 R313–R317, R325; 11 R267; 17 R384). -/

namespace Sys2Proof.Machine

namespace State
variable {s : State}

theorem canSend_off {n : Nat} {f : FnSt} (h : s.fn n = some f) (hb : f.bme = false) : s.canSend n = false := by
  rw [canSend, (Option.filter_eq_some_iff.1 h).1]
  exact hb

/-! ### A function's controller is enabled (14 R314) -/

theorem mem_put_self {α : Type} (i : Nat) (v : α) (t : Tab α) : (i, v) ∈ Tab.put i v t := by simp [Tab.put]

theorem adminQueue_keeps (s : State) (n i : Nat) (b : FBind) : (s.adminQueue n i b).fns = s.fns ∧ (s.adminQueue n i b).zn = s.zn ∧
    (s.adminQueue n i b).outs = s.outs ∧ (s.adminQueue n i b).sl.qs.any (fun e => !e.2.fabric && e.2.func = n && e.2.qid = 0) = true := by
  exact ⟨rfl, rfl, rfl, List.any_eq_true.2 ⟨_, mem_put_self .., by simp⟩⟩

/-- A function whose controller is enabled, that has a binding and may be ready, is ready with an admin queue. -/
theorem tryReady_ready {n : Nat} {f : FnSt} {b : FBind} (h : s.fn n = some f) (he : f.ccEn = true) (hr : f.rdy = false)
    (hok : (if n = 0 then s.img.admReady else s.ready) = true) (hb : s.lowBind n = some b) (hi : s.freeIdx ≠ none) :
    (s.tryReady n).fn n = some { f with rdy := true } ∧ (s.tryReady n).zn = s.zn ∧ (s.tryReady n).outs = s.outs ∧
    (s.tryReady n).sl.qs.any (fun e => !e.2.fabric && e.2.func = n && e.2.qid = 0) = true := by
  have hfn : (s.putFn n { f with rdy := true }).fn n = some { f with rdy := true } := fn_putFn (fn_present (f := f) h)
  obtain ⟨i, hi⟩ := Option.ne_none_iff_exists'.1 hi
  have hi' : (s.putFn n { f with rdy := true }).freeIdx = some i := hi
  have hz : (s.putFn n { f with rdy := true }).zn = s.zn := rfl
  have ho : (s.putFn n { f with rdy := true }).outs = s.outs := rfl
  rw [tryReady, h]
  dsimp only
  rw [if_neg (by simp [he, hr, hok]), hb]
  dsimp only
  generalize s.putFn n { f with rdy := true } = m at hfn hi' hz ho ⊢
  rw [hi']
  split
  · next hq => exact ⟨hfn, hz, ho, hq⟩
  · obtain ⟨k₁, k₂, k₃, k₄⟩ := adminQueue_keeps m n i b
    exact ⟨(fn_of_fns k₁ _).trans hfn, k₂.trans hz, k₃.trans ho, k₄⟩

/-! ### VFs (14 R313) -/

/-- The VFs of a PF are made one by one. -/
theorem vfsMade (i v link : Nat) (n : Nat) (s : State) :
    let t := (List.range n).foldl (fun (s : State) k => s.putFn (i + 1 + k) { FnSt.pf link with vecs := v }) s
    t = { s with fns := t.fns } ∧ (∀ k, k < n → t.fn (i + 1 + k) = some { FnSt.pf link with vecs := v }) ∧
    ∀ m, (∀ k, k < n → m ≠ i + 1 + k) → t.fn m = s.fn m := by
  induction n with
  | zero => exact ⟨rfl, fun k hk => absurd hk (Nat.not_lt_zero k), fun _ _ => rfl⟩
  | succ n ih =>
    rw [List.range_succ, List.foldl_append]
    obtain ⟨heq, hnew, hold⟩ := ih
    dsimp only [List.foldl_cons, List.foldl_nil] at heq hnew hold ⊢
    generalize (List.range n).foldl (fun (s : State) k => s.putFn (i + 1 + k) { FnSt.pf link with vecs := v }) s = m at heq hnew hold ⊢
    have hat := fnsAt_putFn m (i + 1 + n) { FnSt.pf link with vecs := v }
    refine ⟨?_, fun k hk => ?_, fun k hk => ?_⟩
    · rw [heq]
      rfl
    · by_cases h : k = n
      · rw [h]
        exact fn_putFn rfl
      · exact (hat.fn (by omega)).trans (hnew k (by omega))
    · exact (hat.fn (hk n (by omega))).trans (hold k fun j hj => hk j (by omega))

/-! ### What waited for Bus Master Enable (14 R325) -/

/-- A completion that waited is posted, or discarded where it is stale. -/
def postHeld (n : Nat) (s : State) (h : Held) : State :=
  if !s.live h.st.slice h.st.q h.st.genS h.st.genQ then s.stale h.st.slice
  else
    match h.c.org with
    | .io q =>
      match Tab.find q s.sl.qs with
      | some x =>
        let s := (s.send (.cpl h.c)).pushCq x.func x.cqid
        match s.cqOf x with
        | some cq => s.signal x.func cq.vec 0 h.st
        | none => s
      | none => s
    | _ => s.postAdm n h.c

theorem busMaster_eq {n : Nat} {f : FnSt} (h : s.fn n = some f) :
    s.busMaster n = f.held.foldl (postHeld n) (s.putFn n { f with bme := true, held := [] }) := by
  rw [busMaster, h]
  rfl

/-- A completion was sent: nothing else was but interrupts, and no register, zone, function or queue changed. -/
structure Posted (s t : State) (l : List Cpl) : Prop where
  outs : t.outs.filterMap cplOf = s.outs.filterMap cplOf ++ l
  regs : t.regs = s.regs
  zn : t.zn = s.zn
  fns : t.fns = s.fns
  qs : t.sl.qs = s.sl.qs

theorem Posted.none {t : State} (ho : t.outs.filterMap cplOf = s.outs.filterMap cplOf) (hr : t.regs = s.regs) (hz : t.zn = s.zn) (hf : t.fns = s.fns)
    (hq : t.sl.qs = s.sl.qs) : Posted s t [] := ⟨ho.trans (List.append_nil _).symm, hr, hz, hf, hq⟩

theorem Posted.trans {t u : State} {l k : List Cpl} (h : Posted s t l) (g : Posted t u k) : Posted s u (l ++ k) :=
  ⟨by rw [g.outs, h.outs, List.append_assoc], g.regs.trans h.regs, g.zn.trans h.zn, g.fns.trans h.fns, g.qs.trans h.qs⟩

theorem msix_posted (s : State) (func vec : Nat) : Posted s (s.send (.msix func vec)) [] := .none (by simp [send, cplOf]) rfl rfl rfl rfl

theorem signal_posted (s : State) (func vec urg : Nat) (t : Stamp) : Posted s (s.signal func vec urg t) [] := by
  unfold signal
  dsimp only
  split
  · exact msix_posted ..
  · split
    · exact .none (by simp [send, cplOf, putVec]) rfl rfl rfl rfl
    · exact .none rfl rfl rfl rfl rfl

theorem cpl_posted (s : State) (c : Cpl) (func cqid : Nat) : Posted s ((s.send (.cpl c)).pushCq func cqid) [c] :=
  ⟨by simp [send, pushCq, cplOf], rfl, rfl, rfl, rfl⟩

theorem postAdm_posted (s : State) (n : Nat) (c : Cpl) : Posted s (s.postAdm n c) [c] := by
  unfold postAdm
  dsimp only
  split
  · exact (cpl_posted ..).trans (msix_posted ..)
  · exact cpl_posted ..

/-- A live completion that waited is posted. -/
theorem postHeld_posted (n : Nat) {h : Held} (hl : s.live h.st.slice h.st.q h.st.genS h.st.genQ = true) (hq : ∀ q, h.c.org = .io q → q = h.st.q) :
    Posted s (s.postHeld n h) [h.c] := by
  rw [postHeld, hl, Bool.not_true, if_neg Bool.false_ne_true]
  split
  · next q ho =>
    split
    · dsimp only
      split
      · exact (cpl_posted ..).trans (signal_posted ..)
      · exact cpl_posted ..
    · next hn =>
      rw [hq q ho] at hn
      simp [live, hn] at hl
  · exact postAdm_posted ..

theorem live_posted {t : State} {l : List Cpl} (h : Posted s t l) (a b c d : Nat) : t.live a b c d = s.live a b c d := by
  rw [live, live, h.qs, rd, rd, h.regs]

/-- Live completions that waited are posted in order. -/
theorem postHelds_posted (n : Nat) (l : List Held) (s : State) (hl : ∀ h ∈ l, s.live h.st.slice h.st.q h.st.genS h.st.genQ = true)
    (hq : ∀ h ∈ l, ∀ q, h.c.org = .io q → q = h.st.q) : Posted s (l.foldl (postHeld n) s) (l.map (·.c)) := by
  induction l generalizing s with
  | nil => exact .none rfl rfl rfl rfl rfl
  | cons h l ih =>
    have h₁ := postHeld_posted n (hl h (List.mem_cons_self ..)) (hq h (List.mem_cons_self ..))
    exact h₁.trans (ih _ (fun k hk => (live_posted h₁ ..).trans (hl k (List.mem_cons_of_mem _ hk))) fun k hk => hq k (List.mem_cons_of_mem _ hk))

/-! ### Queues under PASID bindings (14 R315) -/

/-- Nothing of a die is in flight and no reset waits. -/
structure Calm (s : State) : Prop where
  dies : s.die.dies = []
  cws : s.die.cws = []
  waits : s.sl.waits = []

/-- The context of a queue that was reset. -/
def emptied (q : Queue) : Queue := { q with gen := cut 16 (q.gen + 1), head := 0, tail := 0, outst := 0, pend := [], adm := [] }

theorem dropCmds_die (s : State) (ok : Nat → Bool) (h : s.die.dies = []) : (s.dropCmds ok).die = s.die := by
  have hf (l : List Cmd) : ∀ a : State, (l.foldl (fun (s : State) c => (s.dec F.ZON_ENT2_HOLD c.zone).zseq c.zone) a).die = a.die := by
    induction l with
    | nil => exact fun _ => rfl
    | cons c l ih => exact fun a => (ih _).trans rfl
  have hd := hf (s.zn.cmds.filter fun c => ok c.q && c.st = .held) s
  unfold dropCmds filterOps
  show ({ (_ : DieUnit) with dies := (State.die _).dies.map _ } : DieUnit) = s.die
  rw [hd, h, List.map_nil, ← h]

/-- With nothing in flight a queue is emptied at once. -/
theorem queueReset_calm (hs : Calm s) {i : Nat} {q : Queue} (hq : Tab.find i s.sl.qs = some q) :
    Calm (s.queueReset i).1 ∧ Tab.find i (s.queueReset i).1.sl.qs = some (emptied q) ∧
    ∀ j, j ≠ i → Tab.find j (s.queueReset i).1.sl.qs = Tab.find j s.sl.qs := by
  have hsl := dropCmds_sl s fun j => decide (j = i)
  have hdie := dropCmds_die s (fun j => decide (j = i)) hs.dies
  generalize hm : s.dropCmds (fun j => decide (j = i)) = m at hsl hdie
  have hr : m.resetting i = false := by rw [resetting, hsl, hs.waits]; rfl
  have hst : m.stamped false i (cut 16 (q.gen + 1)) = false := stamped_idle (hdie ▸ hs.dies) (hdie ▸ hs.cws) ..
  have hres : (s.queueReset i).1 = m.emptyQueue i := by
    simp only [queueReset, hq, hm, hr, hst, Bool.false_eq_true, if_false]
  have hqm : Tab.find i m.sl.qs = some q := hsl ▸ hq
  have ⟨hfi, hfj, _⟩ := find_emptyQueue hqm
  rw [hres]
  have hd : (m.emptyQueue i).die = m.die ∧ (m.emptyQueue i).sl.waits = m.sl.waits := by
    rw [emptyQueue, hqm]
    exact ⟨rfl, rfl⟩
  refine ⟨⟨?_, ?_, ?_⟩, hfi, fun j hj => (hfj j hj).trans (by rw [hsl])⟩
  · rw [hd.1, hdie, hs.dies]
  · rw [hd.1, hdie, hs.cws]
  · rw [hd.2, hsl, hs.waits]

theorem queueResets_calm (l : List Nat) (hn : l.Nodup) (s : State) (hs : Calm s) (hq : ∀ i ∈ l, Tab.find i s.sl.qs ≠ none) :
    (∀ i ∈ l, ∀ q, Tab.find i s.sl.qs = some q → Tab.find i (s.queueResets l).sl.qs = some (emptied q)) ∧
    ∀ j, j ∉ l → Tab.find j (s.queueResets l).sl.qs = Tab.find j s.sl.qs := by
  induction l generalizing s with
  | nil => exact ⟨fun _ hi => absurd hi List.not_mem_nil, fun _ _ => rfl⟩
  | cons k l ih =>
    obtain ⟨hk, hl⟩ := List.nodup_cons.1 hn
    obtain ⟨q, hkq⟩ := Option.ne_none_iff_exists'.1 (hq k (List.mem_cons_self ..))
    obtain ⟨hc, hfk, hfj⟩ := queueReset_calm hs hkq
    have hne {i : Nat} (hi : i ∈ l) : i ≠ k := fun h => hk (h ▸ hi)
    obtain ⟨hin, hout⟩ := ih hl _ hc fun i hi => by
      rw [hfj i (hne hi)]
      exact hq i (List.mem_cons_of_mem _ hi)
    refine ⟨fun i hi r hr => ?_, fun j hj => ?_⟩
    · rcases List.mem_cons.1 hi with rfl | hi
      · exact ((hout i hk).trans hfk).trans (by rw [Option.some.inj (hkq.symm.trans hr)])
      · exact hin i hi r ((hfj i (hne hi)).trans hr)
    · obtain ⟨h₁, h₂⟩ := not_or.1 (List.mem_cons.not.1 hj)
      exact (hout j h₂).trans (hfj j h₁)

end State

/-- CC.EN set where a function may be ready (14 R314). -/
theorem ran_ccEnSet {n : Nat} {f : FnSt} {s : State} (h : s.fn n = some f) (hr : f.rdy = false) (hi : s.freeIdx ≠ none)
    (hw : (n = 0 ∧ s.img.admReady = true) ∨ (n ≠ 0 ∧ s.ready = true ∧ s.lowBind n ≠ none)) : Ran (.ccEnSet n) s (fun t =>
      (∃ g, t.fn n = some g ∧ g.ccEn = true ∧ g.rdy = true) ∧
      t.sl.qs.any (fun e => !e.2.fabric && e.2.func = n && e.2.qid = 0) = true ∧ t.zn = s.zn ∧ t.outs = s.outs) := by
  let m : State := s.putFn n { f with ccEn := true }
  have hm : m.fn n = some { f with ccEn := true } := State.fn_putFn (State.fn_present (f := f) h)
  have hok : (if n = 0 then m.img.admReady else m.ready) = true := by
    rcases hw with ⟨h0, ha⟩ | ⟨h0, ha, -⟩
    · rw [if_pos h0]
      exact ha
    · rw [if_neg h0]
      exact ha
  obtain ⟨b, hb⟩ : ∃ b, m.lowBind n = some b := by
    rcases hw with ⟨h0, -⟩ | ⟨-, -, hb⟩
    · exact ⟨_, if_pos h0⟩
    · exact Option.ne_none_iff_exists'.1 hb
  obtain ⟨k₁, k₂, k₃, k₄⟩ := State.tryReady_ready hm rfl hr hok hb hi
  refine ⟨m.tryReady n, ?_, ⟨_, k₁, rfl, rfl⟩, k₄, k₂, k₃⟩
  show execCcEnSet n s = _
  rw [execCcEnSet, h]

/-- A shutdown with nothing dirty journals a checkpoint's start and its end (11 R267). -/
theorem ran_shutdown {n : Nat} {f : FnSt} {s : State} (h : s.fn n = some f) (hc : s.ftl.ckpt = none) (hd : s.dirtyLines = [])
    (ht : ∀ e ∈ s.ftl.jtail, e.act ≠ .ckptEnd s.ftl.jnext) : Ran (.shutdownNotification n) s (fun t =>
      t.fn n = some { f with shst := 1 } ∧ t.ftl.ckpt = some (s.ftl.jnext, s.ftl.jring) ∧
      t.ftl.jtail = s.ftl.jtail ++ [⟨s.ftl.jnext, 0x0C, [s.ftl.jnext], .none, s.el⟩,
        ⟨s.ftl.jnext + 1, 0x0D, [s.ftl.jnext], .ckptEnd s.ftl.jnext, s.el⟩] ∧ t.regs = s.regs ∧ t.zn = s.zn ∧ t.outs = s.outs) := by
  let m : State := s.putFn n { f with shst := 1 }
  let c : State := { m.jn 0x0C [s.ftl.jnext] with ftl := { (m.jn 0x0C [s.ftl.jnext]).ftl with ckpt := some (s.ftl.jnext, s.ftl.jring) } }
  have hstart : m.ckptStart = c := by
    have hn : m.ftl.ckpt.isSome = false := by rw [show m.ftl.ckpt = none from hc]; rfl
    rw [State.ckptStart, hn, if_neg Bool.false_ne_true]
    rfl
  have hdirty : c.dirtyLines = [] := hd
  have hend : c.ckptFinish = c.jn 0x0D [s.ftl.jnext] (.ckptEnd s.ftl.jnext) := by
    have hno : (c.ftl.jtail.any fun e => decide (e.act = .ckptEnd s.ftl.jnext)) = false := by
      rw [List.any_eq_false]
      intro e he
      rcases List.mem_append.1 (show e ∈ s.ftl.jtail ++ [⟨s.ftl.jnext, 0x0C, [s.ftl.jnext], .none, s.el⟩] from he) with he | he
      · simpa using ht e he
      · rw [List.mem_singleton.1 he]
        simp
    have hl : (c.ckptLines s.ftl.jnext).isEmpty = true := by rw [State.ckptLines, hdirty]; rfl
    show (if (c.ckptLines s.ftl.jnext).isEmpty && !c.ftl.jtail.any (fun e => decide (e.act = .ckptEnd s.ftl.jnext)) then c.jn 0x0D [s.ftl.jnext] (.ckptEnd s.ftl.jnext) else c) = _
    rw [hl, hno]
    rfl
  refine ⟨c.jn 0x0D [s.ftl.jnext] (.ckptEnd s.ftl.jnext), ?_, State.fn_putFn (s := s) (State.fn_present (f := f) h), rfl, List.append_assoc .., rfl, rfl, rfl⟩
  show execShutdownNotification n s = _
  rw [execShutdownNotification, h]
  dsimp only
  rw [show (s.putFn n _).ckptStart = c from hstart, hdirty]
  exact congrArg Host.Outcome.next hend

/-- VFs are made where the pool gives each a vector (14 R313, R317). -/
theorem ran_vfEnable {pf n v : Nat} {f : FnSt} {s : State} (hp : s.pfs.contains pf = true) (h : s.fn (s.pfIdx pf) = some f) (hv : f.vfEn = false) (hn : 0 < n)
    (hm : n ≤ s.totalVfs pf) (he : v = min (s.rd F.PCX_SRIOV_CFG_VF_VEC pf) ((32768 - 2048 * s.pfs.length - s.vfVecs (1 - pf)) / n)) (h0 : 0 < v) :
    Ran (.vfEnableSet pf n) s (fun t => t.fn (s.pfIdx pf) = some { f with vfEn := true, numVfs := n } ∧
      (∀ k, k < n → ∃ g, t.fn (s.pfIdx pf + 1 + k) = some g ∧ g.vecs = v ∧ g.ccEn = false ∧ g.bme = false) ∧
      t.rd F.PCX_SRIOV_STS_VF_S pf = cut F.PCX_SRIOV_STS_VF_S.w v ∧ t.rd F.PCX_SRIOV_STS_NUMVFS pf = cut F.PCX_SRIOV_STS_NUMVFS.w n ∧
      t = { s with regs := t.regs, fns := t.fns }) := by
  let b : State := ((s.putFn (s.pfIdx pf) { f with vfEn := true, numVfs := n }).wr F.PCX_SRIOV_STS_VF_S v pf).wr F.PCX_SRIOV_STS_NUMVFS n pf
  have hb : b.fn (s.pfIdx pf) = some { f with vfEn := true, numVfs := n } := State.fn_putFn (s := s) (State.fn_present (f := f) h)
  have hs : b.rd F.PCX_SRIOV_STS_VF_S pf = cut F.PCX_SRIOV_STS_VF_S.w v :=
    (State.rd_wr_id _ _ _ _ _ _ _ _ _ _ (by decide)).trans (State.rd_wr_same ..)
  have hnum : b.rd F.PCX_SRIOV_STS_NUMVFS pf = cut F.PCX_SRIOV_STS_NUMVFS.w n := State.rd_wr_same ..
  have hbeq : b = { s with regs := b.regs, fns := b.fns } := rfl
  obtain ⟨heq, hnew, hold⟩ := State.vfsMade (s.pfIdx pf) v f.link n b
  have hrun : exec (.vfEnableSet pf n) s = .next ((List.range n).foldl (fun (s' : State) k => s'.putFn (s.pfIdx pf + 1 + k) { FnSt.pf f.link with vecs := v }) b) := by
    show execVfEnableSet pf n s = _
    unfold execVfEnableSet
    dsimp only
    rw [h]
    dsimp only
    rw [if_neg (by simp only [hp, hv, Bool.not_true, Bool.or_false, Bool.false_or, Bool.or_eq_true, decide_eq_true_eq]; omega), ← he, if_neg (by omega)]
  generalize (List.range n).foldl (fun (s' : State) k => s'.putFn (s.pfIdx pf + 1 + k) { FnSt.pf f.link with vecs := v }) b = t at heq hnew hold hrun
  have hregs : t.regs = b.regs := by rw [heq]
  refine ⟨t, hrun, (hold _ fun k _ => by omega).trans hb, fun k hk => ⟨_, hnew k hk, rfl, rfl, rfl⟩, ?_, ?_, ?_⟩
  · rw [State.rd, hregs]
    exact hs
  · rw [State.rd, hregs]
    exact hnum
  · rw [heq, hbeq]

/-- Without a vector for each no VF is made (14 R317). -/
theorem ran_vfShort {pf n : Nat} {f : FnSt} {s : State} (hp : s.pfs.contains pf = true) (h : s.fn (s.pfIdx pf) = some f) (hv : f.vfEn = false) (hn : 0 < n)
    (hm : n ≤ s.totalVfs pf) (hs : 32768 - 2048 * s.pfs.length - s.vfVecs (1 - pf) < n) : Ran (.vfEnableSet pf n) s (fun t =>
      t.rd F.PCX_SRIOV_STS_VEC_SHORT pf = 1 ∧ Keeps s t [F.PCX_SRIOV_STS_VEC_SHORT] ∧ t = { s with regs := t.regs }) := by
  refine ⟨s.wr F.PCX_SRIOV_STS_VEC_SHORT 1 pf, ?_, State.rd_wr_same .., Keeps.wr (List.mem_singleton_self F.PCX_SRIOV_STS_VEC_SHORT) s _ _ _ _, rfl⟩
  show execVfEnableSet pf n s = _
  unfold execVfEnableSet
  dsimp only
  rw [h]
  dsimp only
  rw [if_neg (by simp only [hp, hv, Bool.not_true, Bool.or_false, Bool.false_or, Bool.or_eq_true, decide_eq_true_eq]; omega),
    Nat.div_eq_of_lt hs, if_pos (Nat.min_zero _)]

/-- VF Enable cleared: the VFs go (14 R325). -/
theorem ran_vfDisable {pf : Nat} {f : FnSt} {s : State} (hp : s.pfs.contains pf = true) (h : s.fn (s.pfIdx pf) = some f) : Ran (.vfEnableClear pf) s (fun t =>
    t.fn (s.pfIdx pf) = some { f with vfEn := false, numVfs := 0 } ∧ t.rd F.PCX_SRIOV_STS_VF_S pf = 0 ∧ t.rd F.PCX_SRIOV_STS_NUMVFS pf = 0 ∧
    (∀ e ∈ t.fns, ¬(s.pfIdx pf < e.1 ∧ e.1 ≤ s.pfIdx pf + s.totalVfs pf)) ∧ t.zn.ud = s.zn.ud) := by
  obtain ⟨hf, hm⟩ := State.vfOff_spec h
  have hr := State.vfOff_resets s pf
  have hregs (g : Fld) : (s.vfOff pf).rd g pf = ((((s.vfsOf pf).foldl State.vfGone s).wr F.PCX_SRIOV_STS_VF_S 0 pf).wr F.PCX_SRIOV_STS_NUMVFS 0 pf).rd g pf := by
    rw [State.vfOff_eq, State.vfDone]
    split <;> rfl
  refine ⟨s.vfOff pf, congrArg Host.Outcome.next (if_pos (by rw [hp, h]; rfl)), hf, ?_, ?_, hm, (congrArg (fun t : State => t.zn.ud) hr.frame :)⟩
  · rw [hregs]
    exact (State.rd_wr_id _ _ _ _ _ _ _ _ _ _ (by decide)).trans (State.rd_wr_same ..)
  · rw [hregs]
    exact State.rd_wr_same ..

/-- Bus Master Enable set: what waited is posted in order (14 R325). -/
theorem ran_busMaster {n : Nat} {f : FnSt} {s : State} (h : s.fn n = some f) (hl : ∀ h ∈ f.held, s.live h.st.slice h.st.q h.st.genS h.st.genQ = true)
    (hq : ∀ h ∈ f.held, ∀ q, h.c.org = .io q → q = h.st.q) : Ran (.busMasterEnableSet n) s (fun t =>
      t.fn n = some { f with bme := true, held := [] } ∧ t.outs.filterMap cplOf = s.outs.filterMap cplOf ++ f.held.map (·.c) ∧
      t.regs = s.regs ∧ t.zn = s.zn) := by
  obtain ⟨ho, hr, hz, hf, -⟩ := State.postHelds_posted n f.held (s.putFn n { f with bme := true, held := [] }) hl hq
  refine ⟨s.busMaster n, rfl, ?_⟩
  rw [State.busMaster_eq h]
  exact ⟨(State.fn_of_fns hf _).trans (State.fn_putFn (State.fn_present (f := f) h)), ho, hr, hz⟩

/-- PASID Enable cleared: the queues under PASID bindings are reset (14 R315). -/
theorem ran_pasidOff {n : Nat} {f : FnSt} {s : State} (h : s.fn n = some f) (hd : s.die.dies = []) (hc : s.die.cws = []) (hw : s.sl.waits = [])
    (hn : (s.sl.qs.map (·.1)).Nodup) : Ran (.pasidEnableClear n) s (fun t => t.fn n = some { f with pasidEn := false } ∧
      (∀ i q, Tab.find i s.sl.qs = some q → q.fabric = false → q.func = n → q.pasid ≠ none → ∃ r, Tab.find i t.sl.qs = some r ∧ r.pend = [] ∧
        r.head = 0 ∧ r.tail = 0 ∧ r.gen = cut 16 (q.gen + 1)) ∧
      (∀ i q, Tab.find i s.sl.qs = some q → q.fabric = true ∨ q.func ≠ n ∨ q.pasid = none → Tab.find i t.sl.qs = some q) ∧ t.zn.ud = s.zn.ud) := by
  let m : State := s.putFn n { f with pasidEn := false }
  let l : List Nat := (s.sl.qs.filter (fun e => !e.2.fabric && e.2.func = n && e.2.pasid.isSome)).map (·.1)
  have hmem {i : Nat} {q : Queue} (hi : Tab.find i s.sl.qs = some q) : i ∈ l ↔ (q.fabric = false ∧ q.func = n) ∧ q.pasid.isSome = true := by
    have hm := Tab.mem_of_find hi
    constructor
    · intro hl
      obtain ⟨⟨j, r⟩, he, rfl⟩ := List.mem_map.1 hl
      obtain ⟨he, ht⟩ := List.mem_filter.1 he
      have := List.inj_on_of_nodup_map hn he hm rfl
      rw [(Prod.mk.inj this).2] at ht
      simpa using ht
    · rintro ⟨⟨h₁, h₂⟩, h₃⟩
      exact List.mem_map.2 ⟨(i, q), List.mem_filter.2 ⟨hm, by simp [h₁, h₂, h₃]⟩, rfl⟩
  have hin : ∀ i ∈ l, Tab.find i m.sl.qs ≠ none := fun i hi => by
    obtain ⟨⟨j, r⟩, he, rfl⟩ := List.mem_map.1 hi
    exact find_ne_none (List.mem_filter.1 he).1
  obtain ⟨hemp, hkeep⟩ := State.queueResets_calm l (hn.sublist (List.filter_sublist.map _)) m ⟨hd, hc, hw⟩ hin
  have hr := Only.Ends.queueResets m l
  refine ⟨m.queueResets l, ?_, ?_, fun i q hi hf hfn hp => ⟨_, hemp i ((hmem hi).2 ⟨⟨hf, hfn⟩, Option.isSome_iff_ne_none.2 hp⟩) q hi, rfl, rfl, rfl, rfl⟩,
    fun i q hi hne => (hkeep i fun hl => ?_).trans hi, (congrArg (fun t : State => t.zn.ud) hr.frame :)⟩
  · show execPasidEnableClear n s = _
    rw [execPasidEnableClear, State.pasidOff, h]
  · exact (State.fn_of_fns (congrArg (·.fns) hr.frame :) n).trans (State.fn_putFn (State.fn_present (f := f) h))
  · obtain ⟨⟨h₁, h₂⟩, h₃⟩ := (hmem hi).1 hl
    rcases hne with hne | hne | hne
    · exact Bool.false_ne_true (h₁.symm.trans hne)
    · exact hne h₂
    · rw [hne] at h₃
      exact Bool.false_ne_true h₃

/-- No command of a function that may not read memory is fetched (14 R325). -/
theorem begin_muted {i cid nsid lba len hint : Nat} {k : CmdKind} {lr fua : Bool} {x : Queue} {f : FnSt} {s : State} (h : s.fn x.func = some f)
    (hb : f.bme = false) (hi : Tab.find i s.sl.qs = some x) (hf : x.fabric = false) (hn : s.cmdOf i cid = none) (hp : ∀ a ∈ x.pend, a.cid ≠ some cid) :
    s.begin i cid k nsid lba len lr fua hint = .stop s := by
  have hp' : x.pend.find? (fun a => decide (a.cid = some cid)) = none := List.find?_eq_none.2 fun a ha => by simpa using hp a ha
  have he : s.entry i cid x = none := by simp [State.entry, hn, hp', hf, State.canSend_off h hb]
  rw [State.begin, hi]
  dsimp only
  rw [he]
  exact ite_self _

/-- Settles O47. -/
theorem functionControlComplete : Obligations.FunctionControlComplete := by
  unfold Obligations.FunctionControlComplete
  refine ⟨fun n f s h hr hi hw => ran_ccEnSet h hr hi hw, fun n f s h hr h0 hrd => ?_, fun n f s h hc hd ht => ran_shutdown h hc hd ht,
    fun pf n v f s hp h hv hn hm he h0 => ran_vfEnable hp h hv hn hm he h0, fun pf n f s hp h hv hn hm hs => ran_vfShort hp h hv hn hm hs,
    fun pf f s hp h => ran_vfDisable hp h, fun n f s h => ?_, fun n f s h hl hq => ran_busMaster h hl hq, fun n f h s hf hh hl => ?_,
    fun n f s h hd hc hw hn => ran_pasidOff h hd hc hw hn, fun n cid g f s h hb => ?_,
    fun i cid nsid lba len hint k lr fua x f s h hb hi hf hn hp => begin_muted h hb hi hf hn hp⟩
  · have hm := State.fn_putFn (s := s) (n := n) (f := { f with ccEn := true }) (State.fn_present (f := f) h)
    refine ⟨s.putFn n { f with ccEn := true }, ?_, hm, rfl⟩
    show execCcEnSet n s = _
    rw [execCcEnSet, h]
    refine congrArg Host.Outcome.next ?_
    dsimp only
    rw [State.tryReady, hm]
    dsimp only
    have hrd' : (s.putFn n { f with ccEn := true }).ready = false := hrd
    rw [if_neg h0, hrd', Bool.not_false, Bool.or_true, if_pos rfl]
  · refine ⟨s.putFn n { f with bme := false }, ?_, State.fn_putFn (State.fn_present (f := f) h), rfl⟩
    show execBusMasterEnableClear n s = _
    rw [execBusMasterEnableClear, h]
  · refine ⟨s.busMaster n, rfl, ?_⟩
    have hl' : (s.putFn n { f with bme := true, held := [] }).live h.st.slice h.st.q h.st.genS h.st.genQ = false := hl
    rw [State.busMaster_eq hf, hh, List.foldl_cons, List.foldl_nil, State.postHeld, hl', Bool.not_false, if_pos rfl]
    exact ⟨rfl, (State.rd_inc_same ..).trans (cut_sat ..)⟩
  · have hmute : s.muted (.fn n) = true := by
      show (!s.canSend n) = true
      rw [State.canSend_off h hb]
      rfl
    rw [State.admin, hmute, Bool.or_true, Bool.true_or, Bool.true_or, if_pos rfl]

end Sys2Proof.Machine
end


section
/-! SUPPORT. Records of Kazron links and hops (08 R186, R198, R199). -/

namespace Sys2Proof.Machine

namespace State
variable {s : State}

theorem link8_putLink8 (s : State) (l : Nat) (x : Link) : (s.putLink8 l x).link8 l = x := by
  rw [link8, show Tab.find l (s.putLink8 l x).kz.links = some x from Tab.find_put_same ..]
  rfl

theorem link8_of_kz {t : State} (h : t.kz = s.kz) (l : Nat) : t.link8 l = s.link8 l := by rw [link8, link8, h]

theorem hop_of_kz {t : State} (h : t.kz = s.kz) (l k : Nat) : t.hop l k = s.hop l k := by rw [hop, hop, link8_of_kz h]

theorem hop_putHop {l h : Nat} (hh : h < (s.link8 l).hops.length) (p : Hop) : (s.putHop l h p).hop l h = p := by
  rw [hop, putHop, link8_putLink8]
  simp [hh]

theorem link8_putHop (s : State) (l h : Nat) (p : Hop) : (s.putHop l h p).link8 l = { s.link8 l with hops := (s.link8 l).hops.set h p } :=
  link8_putLink8 ..

theorem hopSt_of_regs {t : State} (h : t.regs = s.regs) (l k : Nat) : t.hopSt l k = s.hopSt l k := by rw [hopSt, hopSt, rd, rd, rd, rd, h]

theorem hopSt_keeps {t : State} {fs : List Fld} (h : Keeps s t fs) (h₀ : ∀ g ∈ fs, F.KZL_STS_HOP0.id ≠ g.id) (h₁ : ∀ g ∈ fs, F.KZL_BID_HOP.id ≠ g.id) (l k : Nat) :
    t.hopSt l k = s.hopSt l k := by
  rw [hopSt, hopSt, h _ l 0 0 h₀, h _ l k 0 h₁]

/-! ### A hop's state is set -/

theorem link8_setHop (s : State) (l h v : Nat) :
    (s.setHop l h v).link8 l = { s.link8 l with hops := (s.link8 l).hops.modify h (fun (p : Hop) => { p with since := s.el }) } := by
  unfold setHop
  dsimp only
  rw [link8_putLink8]
  split <;> rfl

theorem setHop_regs (s : State) (l h v : Nat) : (s.setHop l h v).regs = (if h = 0 then s.wr F.KZL_STS_HOP0 v l else s.wr F.KZL_BID_HOP v l h).regs := rfl

theorem hopSt_setHop (s : State) (l h : Nat) {v : Nat} (hv : v < 16) : (s.setHop l h v).hopSt l h = v := by
  rw [hopSt_of_regs (setHop_regs s l h v), hopSt]
  split
  · exact (rd_wr_same ..).trans (Nat.mod_eq_of_lt hv)
  · exact (rd_wr_same ..).trans (Nat.mod_eq_of_lt hv)

theorem hopSt_setHop_ne (s : State) (l v : Nat) {h k : Nat} (hk : k ≠ h) : (s.setHop l h v).hopSt l k = s.hopSt l k := by
  rw [hopSt_of_regs (setHop_regs s l h v), hopSt, hopSt]
  by_cases h0 : h = 0
  · have hk0 : k ≠ 0 := fun e => hk (e.trans h0.symm)
    rw [if_pos h0, if_neg hk0, if_neg hk0]
    exact rd_wr_id _ _ _ _ _ _ _ _ _ _ (by decide)
  · rw [if_neg h0]
    split
    · exact rd_wr_id _ _ _ _ _ _ _ _ _ _ (by decide)
    · exact rd_wr_ne _ _ _ _ _ _ _ _ _ _ (by simp [hk])

theorem hop_setHop {l h : Nat} (hh : h < (s.link8 l).hops.length) (v : Nat) : (s.setHop l h v).hop l h = { s.hop l h with since := s.el } := by
  rw [hop, hop, link8_setHop]
  simp [hh]

theorem setHop_eq (s : State) (l h v : Nat) : ∃ regs kz, s.setHop l h v = { s with regs := regs, kz := kz } :=
  ⟨_, _, (setHop_hops s l h v).frame⟩

/-! ### A break (08 R198, R199) -/

/-- What a break reports and changes of sweeps and of what the controller may take. -/
def Scope.broke : Scope where
  merge s t := { Scope.event.merge s t with pup := { s.pup with sweeps := t.pup.sweeps } }
  fields := [F.PUP_SWEEP_STS_STATE, F.PUP_SWEEP_STS_DONE, F.PUP_SWEEP_STS_UNREACHED, F.PUP_SWEEP_STS_ID, F.KZL_UNREACH_MASK, F.KZL_STS_BRIDGES] ++ eventFields ++ ceilFields

theorem event_broke {t : State} (h : Only (Scope.event.also ceilFields).bound s t) : Only Scope.broke.bound s t :=
  h.widen (d := Scope.broke) (fun _ _ => rfl) (by decide)

theorem sweepSts_broke (s : State) (k : Nat) : Only Scope.broke.bound s (s.sweepSts k) := by
  unfold sweepSts
  split
  · exact .refl s
  · exact .after (.wr (by decide) ..) (.after (.wr (by decide) ..) (.after (.wr (by decide) ..) (.wr (by decide) ..)))

theorem sweepMap_broke (s : State) (ok : Nat → Bool) (f : SwEnt → SwEnt) : Only Scope.broke.bound s (s.sweepMap ok f) := by
  unfold sweepMap
  refine .foldl fun s k => ?_
  split
  · exact .refl s
  · exact (sweepSts_broke ..).after (Only.upd rfl)

/-- Without dies nothing is in flight to a die that goes. -/
theorem cutDies_none (l : Nat) (is : List Nat) (h : s.die.dies = []) : is.foldl (fun (s : State) i =>
    let d := l * 64 + i
    let x := s.dieOf d
    ((x.cur.toList ++ x.merged ++ x.susp.toList).foldl (fun (s : State) o => s.freeTag l o.id) s).dieGone d) s = s := by
  have hd (d : Nat) : s.dieOf d = DieSt.absent := by
    rw [dieOf, h]
    rfl
  have hstep (i : Nat) : (((s.dieOf (l * 64 + i)).cur.toList ++ (s.dieOf (l * 64 + i)).merged ++ (s.dieOf (l * 64 + i)).susp.toList).foldl
      (fun (s : State) o => s.freeTag l o.id) s).dieGone (l * 64 + i) = s := by
    rw [hd]
    show s.dieGone (l * 64 + i) = s
    rw [dieGone, hd]
    rfl
  induction is with
  | nil => rfl
  | cons i is ih => rw [List.foldl_cons, hstep]; exact ih

theorem cutFlits_broken (s : State) (l h : Nat) : ((s.cutFlits l h).link8 l).broken = (s.link8 l).broken := by
  rw [cutFlits, link8_putLink8]

/-- What a break cuts off, where no die is there. -/
theorem cutOff_broke (l h : Nat) (hd : s.die.dies = []) : Only Scope.broke.bound (s.cutFlits l h) (s.cutOff l h) := by
  unfold cutOff
  dsimp only
  rw [cutDies_none]
  · exact (sweepMap_broke ..).after (.after (.wr (by decide) ..) (.wr (by decide) ..))
  · exact hd

/-- A hop that breaks is recorded and goes down. -/
def brokenHop (s : State) (l h : Nat) : State := (s.putLink8 l { s.link8 l with broken := (s.link8 l).broken ++ [h] }).hopDown l h

/-- The link shows its break. -/
def showBreak (s : State) (l h : Nat) : State :=
  let bh := if s.rd F.KZL_STS_BREAK l = 1 then min h (s.rd F.KZL_STS_BREAK_HOP l) else h
  let s := (((s.wr F.KZL_STS_BREAK 1 l).wr F.KZL_STS_BREAK_HOP bh l).wr F.KZL_BRK_TIME_TIME s.tns l).inc F.KZL_LOCK_CNT_BREAKS l
  if h = 0 then (s.wr F.KZL_STS_WIDTH 3 l).wr F.KZL_STS_LANES_OK 0 l else s

theorem breakHop_eq {l h : Nat} (hb : (s.link8 l).broken.contains h = false) :
    s.breakHop l h = ((((s.brokenHop l h).showBreak l h).cutOff l h).raise evKzBreak 0xFFFF (l * 256 + h)).ceiling false := by
  rw [breakHop]
  dsimp only
  rw [if_neg (by rw [hb]; exact Bool.false_ne_true), showBreak, brokenHop]

/-- Showing a break changes registers alone. -/
def Scope.showBreak : Scope where
  merge s t := { s with regs := t.regs }
  fields := [F.KZL_STS_BREAK, F.KZL_STS_BREAK_HOP, F.KZL_BRK_TIME_TIME, F.KZL_LOCK_CNT_BREAKS, F.KZL_STS_WIDTH, F.KZL_STS_LANES_OK]

theorem showBreak_only (s : State) (l h : Nat) : Only Scope.showBreak.bound s (s.showBreak l h) := by
  unfold showBreak
  exact .after (.ite (.after (.wr (by decide) ..) (.wr (by decide) ..)) (.refl _))
    (.after (.inc (by decide) ..) (.after (.wr (by decide) ..) (.after (.wr (by decide) ..) (.wr (by decide) ..))))

theorem showBreak_spec (s : State) (l h : Nat) : (s.showBreak l h).rd F.KZL_STS_BREAK l = 1 ∧
    (s.showBreak l h).rd F.KZL_LOCK_CNT_BREAKS l = sat F.KZL_LOCK_CNT_BREAKS.w (s.rd F.KZL_LOCK_CNT_BREAKS l + 1) := by
  have hc : cut F.KZL_STS_BREAK.w 1 = 1 := rfl
  unfold showBreak
  dsimp only
  split <;> simp (disch := decide) only [rd_inc_id, rd_wr_id, rd_inc_same, rd_wr_same, cut_sat, hc, and_self]

theorem brokenHop_spec (s : State) (l h : Nat) : (s.brokenHop l h).hopSt l h = hDown ∧ ((s.brokenHop l h).link8 l).broken = (s.link8 l).broken ++ [h] ∧
    Only Scope.hops.bound s (s.brokenHop l h) := by
  refine ⟨hopSt_setHop _ _ _ (by decide), ?_, .after (setHop_hops ..) (Only.upd rfl)⟩
  show (State.link8 (State.setHop _ l h hDown) l).broken = _
  rw [link8_setHop, link8_putLink8]

/-- What a break cuts off and reports, where no die is there. -/
theorem breakTail_broke (l h : Nat) (hd : s.die.dies = []) :
    Only Scope.broke.bound (s.cutFlits l h) (((s.cutOff l h).raise evKzBreak 0xFFFF (l * 256 + h)).ceiling false) :=
  (event_broke ((ceiling_event false).after ((Only.Event.raise ..).also _))).after (cutOff_broke l h hd)

theorem cutFlits_keeps (s : State) (l h : Nat) : (s.cutFlits l h).regs = s.regs ∧ (s.cutFlits l h).zn = s.zn := ⟨rfl, rfl⟩

theorem broke_keeps {t : State} (he : Only Scope.broke.bound s t) : t.kz = s.kz ∧ t.zn = s.zn := by
  have h := he.frame
  exact ⟨(congrArg (·.kz) h :), (congrArg (·.zn) h :)⟩

/-- A hop that breaks. -/
theorem breakHop_spec {l h : Nat} (hb : (s.link8 l).broken.contains h = false) (hd : s.die.dies = []) : HopBroke s (s.breakHop l h) l h ∧
    (s.breakHop l h).zn = s.zn := by
  obtain ⟨hst, hbr, ha⟩ := brokenHop_spec s l h
  rw [breakHop_eq hb]
  generalize s.brokenHop l h = a at hst hbr ha ⊢
  have hb := showBreak_only a l h
  obtain ⟨hbk, hbc⟩ := showBreak_spec a l h
  generalize a.showBreak l h = b at hb hbk hbc ⊢
  have hbd : b.die.dies = [] := by
    rw [hb.frame]
    exact (congrArg (fun t : State => t.die.dies) ha.frame :).trans hd
  have he := breakTail_broke l h hbd
  have hcut := cutFlits_broken b l h
  obtain ⟨hcr, hcz⟩ := cutFlits_keeps b l h
  generalize b.cutFlits l h = c at he hcut hcr hcz
  generalize ((b.cutOff l h).raise evKzBreak 0xFFFF (l * 256 + h)).ceiling false = t at he ⊢
  obtain ⟨hkz, hz⟩ := broke_keeps he
  have hbkz : b.kz = a.kz ∧ b.zn = a.zn := by rw [hb.frame]; exact ⟨rfl, rfl⟩
  have haz : a.zn = s.zn := by rw [ha.frame]; rfl
  refine ⟨⟨?_, ?_, ?_, ?_⟩, ?_⟩
  · exact (hopSt_keeps he.regs (by decide) (by decide) l h).trans ((hopSt_of_regs hcr l h).trans ((hopSt_keeps hb.regs (by decide) (by decide) l h).trans hst))
  · rw [he.regs F.KZL_STS_BREAK l 0 0 (by decide), rd, hcr]
    exact hbk
  · rw [he.regs F.KZL_LOCK_CNT_BREAKS l 0 0 (by decide), rd, hcr]
    rw [ha.regs F.KZL_LOCK_CNT_BREAKS l 0 0 (by decide)] at hbc
    exact hbc
  · rw [link8_of_kz hkz, hcut, link8_of_kz hbkz.1, hbr]
    simp
  · rw [hz, hcz, hbkz.2, haz]

end State
end Sys2Proof.Machine
end


section
/-! O26: chains, widths and sideband of a Kazron link (08 R200, R202, R203). -/

namespace Sys2Proof.Machine

namespace State
variable {s : State}

/-! ### Alerts (08 R202) -/

/-- One bridge's alert status is read. -/
def readAlert (l : Nat) (low : List Nat) (s : State) (p : Nat) : State :=
  let s := s.wr F.KZL_BID_DSB (b2n (low.contains p)) l p
  if low.contains p && p < 3 && s.hopSt l (p + 1) = hDetect then s.setHop l (p + 1) hReset else s

/-- What reading alerts changes. -/
def Scope.alerts : Scope where
  merge s t := { s with regs := t.regs, kz := t.kz }
  fields := [F.KZL_BID_DSB, F.KZL_BID_HOP]

theorem setHop_alerts {h : Nat} (hh : h ≠ 0) (s : State) (l v : Nat) : Only Scope.alerts.bound s (s.setHop l h v) := by
  unfold setHop
  rw [if_neg hh]
  exact .after (Only.upd rfl) (Only.wr (by decide) ..)

theorem readAlert_alerts (l : Nat) (low : List Nat) (s : State) (p : Nat) : Only Scope.alerts.bound s (s.readAlert l low p) := by
  unfold readAlert
  exact .after (.ite (setHop_alerts (Nat.succ_ne_zero p) ..) (.refl _)) (.wr (by decide) ..)

theorem readAlert_hop {l p k : Nat} (low : List Nat) (s : State) (hk : k ≠ p) : (s.readAlert l low p).hopSt l (k + 1) = s.hopSt l (k + 1) := by
  have hw : (s.wr F.KZL_BID_DSB (b2n (low.contains p)) l p).hopSt l (k + 1) = s.hopSt l (k + 1) :=
    hopSt_keeps (Keeps.wr (List.mem_singleton_self F.KZL_BID_DSB) s _ _ _ _) (by decide) (by decide) ..
  unfold readAlert
  dsimp only
  split
  · exact (hopSt_setHop_ne _ _ _ (by omega)).trans hw
  · exact hw

theorem readAlert_started {l p : Nat} {low : List Nat} (s : State) (hl : low.contains p = true) (hp : p < 3) (hd : s.hopSt l (p + 1) = hDetect) :
    (s.readAlert l low p).hopSt l (p + 1) = hReset := by
  have hw : (s.wr F.KZL_BID_DSB (b2n (low.contains p)) l p).hopSt l (p + 1) = s.hopSt l (p + 1) :=
    hopSt_keeps (Keeps.wr (List.mem_singleton_self F.KZL_BID_DSB) s _ _ _ _) (by decide) (by decide) ..
  unfold readAlert
  dsimp only
  rw [if_pos (by rw [hw, hd, hl]; simp [hp])]
  exact hopSt_setHop _ _ _ (by decide)

theorem readAlert_dsb (l : Nat) (low : List Nat) (s : State) (p k : Nat) :
    (s.readAlert l low p).rd F.KZL_BID_DSB l k = if k = p then b2n (low.contains p) else s.rd F.KZL_BID_DSB l k := by
  have hw : (s.wr F.KZL_BID_DSB (b2n (low.contains p)) l p).rd F.KZL_BID_DSB l k = if k = p then b2n (low.contains p) else s.rd F.KZL_BID_DSB l k := by
    split
    · next h =>
      rw [h]
      exact (rd_wr_same ..).trans (by cases low.contains p <;> rfl)
    · next h => exact rd_wr_ne _ _ _ _ _ _ _ _ _ _ (by simp [h])
  unfold readAlert
  dsimp only
  split
  · exact ((setHop_hops _ l (p + 1) hReset).regs F.KZL_BID_DSB l k 0 (by decide)).trans hw
  · exact hw

/-- What reading the alerts of a chain leaves. -/
theorem readAlerts_spec (l : Nat) (low : List Nat) (n : Nat) (s : State) : ∀ t, t = (List.range n).foldl (readAlert l low) s →
    (∀ p, p < n → t.rd F.KZL_BID_DSB l p = b2n (low.contains p)) ∧
    (∀ p, p < 3 → p < n → low.contains p = true → s.hopSt l (p + 1) = hDetect → t.hopSt l (p + 1) = hReset) ∧
    (∀ p, n ≤ p → t.hopSt l (p + 1) = s.hopSt l (p + 1)) ∧ Only Scope.alerts.bound s t := by
  induction n with
  | zero => exact fun t ht => ht ▸ ⟨fun p hp => absurd hp (Nat.not_lt_zero p), fun p _ hp => absurd hp (Nat.not_lt_zero p), fun _ _ => rfl, .refl s⟩
  | succ n ih =>
    intro t ht
    rw [List.range_succ, List.foldl_append, List.foldl_cons, List.foldl_nil] at ht
    obtain ⟨hd, hs, hk, ho⟩ := ih _ rfl
    generalize (List.range n).foldl (readAlert l low) s = m at ht hd hs hk ho
    subst ht
    refine ⟨fun p hp => ?_, fun p h3 hp hl h0 => ?_, fun p hp => ?_, (readAlert_alerts ..).after ho⟩
    · rw [readAlert_dsb]
      split
      · next h => rw [h]
      · next h => exact hd p (by omega)
    · by_cases h : p = n
      · subst h
        exact readAlert_started m hl h3 ((hk p (Nat.le_refl p)).trans h0)
      · exact (readAlert_hop low m h).trans (hs p h3 (by omega) hl h0)
    · exact (readAlert_hop low m (by omega)).trans (hk p (by omega))

/-- A direction that is not in QUIET sends no burst. -/
theorem burst_awake {l h : Nat} {up ok : Bool} (hq : ((s.hop l h).dir up).quiet = false) : s.burst l h up ok = s := by
  unfold burst
  dsimp only
  rw [if_pos (by rw [hq]; rfl)]

theorem bursts_awake {l : Nat} (hs : List Nat) (hq : ∀ h ∈ hs, (s.hop l h).dn.quiet = false ∧ (s.hop l h).up.quiet = false) :
    hs.foldl (fun (s : State) h => (s.burst l h false true).burst l h true true) s = s := by
  induction hs with
  | nil => rfl
  | cons h hs ih =>
    obtain ⟨hd, hu⟩ := hq h (List.mem_cons_self ..)
    rw [List.foldl_cons, burst_awake (up := false) hd, burst_awake (up := true) hu]
    exact ih fun k hk => hq k (List.mem_cons_of_mem _ hk)

theorem breakHop_sb {l h : Nat} (hb : (s.link8 l).broken.contains h = false) (hd : s.die.dies = []) (k : Nat) :
    (s.breakHop l h).rd F.KZL_STS_SB k = s.rd F.KZL_STS_SB k := by
  obtain ⟨-, -, ha⟩ := brokenHop_spec s l h
  rw [breakHop_eq hb]
  generalize s.brokenHop l h = a at ha ⊢
  have hb := showBreak_only a l h
  generalize a.showBreak l h = b at hb ⊢
  have hbd : b.die.dies = [] := by
    rw [hb.frame]
    exact (congrArg (fun t : State => t.die.dies) ha.frame :).trans hd
  refine ((breakTail_broke l h hbd).regs F.KZL_STS_SB k 0 0 (by decide)).trans ?_
  rw [rd, (cutFlits_keeps b l h).1]
  exact (hb.regs F.KZL_STS_SB k 0 0 (by decide)).trans (ha.regs F.KZL_STS_SB k 0 0 (by decide))

/-! ### Enumeration (08 R203) -/

theorem foundDies_none (s : State) (l p : Nat) (descs : List Nat) (new : Bool) :
    (List.range 16).foldl (fun (s : State) i => if bit 0 i then s.foundDie (l * 64 + p * 16 + i) (descs.getD i 0) new else s) s = s := by
  have hb (i : Nat) : bit 0 i = false := by simp [bit]
  simp only [hb, Bool.false_eq_true, if_false]
  exact List.foldl_fixed' (fun _ => rfl) _

/-- Without a sweep there is nothing to measure again. -/
theorem sweepHeal_none (ok : Nat → Bool) (h : s.pup.sweeps = [none, none]) : s.sweepHeal ok = s := by
  unfold sweepHeal sweepMap
  have h0 : s.pup.sweeps.getD 0 none = none := by rw [h]; rfl
  have h1 : s.pup.sweeps.getD 1 none = none := by rw [h]; rfl
  show List.foldl _ s [0, 1] = s
  simp only [List.foldl_cons, List.foldl_nil, h0, h1]

/-- A position's identity in its registers. -/
def showFound (s : State) (l p : Nat) (f : Found) (dies desc : Nat) : State :=
  let s := ((s.wr F.KZL_BID_PRESENT 1 l p).wr F.KZL_BID_DIES dies l p).wr F.KZL_BID_MDESC desc l p
  ((s.wr F.KZL_BID_BTYPE f.btype l p).wr F.KZL_BID_DSB (b2n f.dsb) l p).wr F.KZL_BSER_SERIAL f.serial l p

theorem showFound_spec (s : State) (l p : Nat) (f : Found) (desc : Nat) : (s.showFound l p f 0 desc).rd F.KZL_BID_PRESENT l p = 1 ∧
    (s.showFound l p f 0 desc).rd F.KZL_BID_BTYPE l p = cut F.KZL_BID_BTYPE.w f.btype ∧
    (s.showFound l p f 0 desc).rd F.KZL_BSER_SERIAL l p = cut F.KZL_BSER_SERIAL.w f.serial ∧
    (s.showFound l p f 0 desc).rd F.KZL_BID_DIES l p = 0 := by
  have h1 : cut F.KZL_BID_PRESENT.w 1 = 1 := rfl
  have h0 : cut F.KZL_BID_DIES.w 0 = 0 := rfl
  unfold showFound
  simp (disch := decide) only [rd_wr_id, rd_wr_same, h0, h1, and_self]

theorem ceiling_keeps (s : State) (always : Bool) : (s.ceiling always).zn = s.zn ∧ (s.ceiling always).die = s.die := by
  have h := ceiling_event (s := s) always
  generalize s.ceiling always = t at h
  rw [h.frame]
  exact ⟨rfl, rfl⟩

theorem rerunAll_none (h : s.zn.cmds = []) : s.rerunAll = s := by
  rw [rerunAll, h]
  rfl

/-- A position's identity stands in registers alone. -/
def Scope.shown : Scope where
  merge s t := { s with regs := t.regs }
  fields := [F.KZL_BID_PRESENT, F.KZL_BID_DIES, F.KZL_BID_MDESC, F.KZL_BID_BTYPE, F.KZL_BID_DSB, F.KZL_BSER_SERIAL]

theorem showFound_keeps (s : State) (l p : Nat) (f : Found) (dies desc : Nat) : (s.showFound l p f dies desc).zn = s.zn ∧
    (s.showFound l p f dies desc).die = s.die := by
  have h : Only Scope.shown.bound s (s.showFound l p f dies desc) := by
    unfold showFound
    exact .after (.wr (by decide) ..) (.after (.wr (by decide) ..) (.after (.wr (by decide) ..) (.after (.wr (by decide) ..)
      (.after (.wr (by decide) ..) (.wr (by decide) ..)))))
  generalize s.showFound l p f dies desc = t at h
  rw [h.frame]
  exact ⟨rfl, rfl⟩

/-- A cartridge against the journal's record, and the removal that the position was prepared for. -/
def checkCart (s : State) (l p : Nat) (f : Found) (old : Option Nat) (new : Bool) : State :=
  let s := if old = some f.serial then s else s.jn 0x17 [l, p, f.serial]
  let s := if new then s.raise evCartChange 0xFFFF (l * 256 + p) else s
  if s.rd F.KZL_STS_REMOVE_POS l = p then s.wr F.KZL_STS_REMOVE_OK 0 l else s

/-- What comes with a position that was found: an event, a journal entry. -/
def Scope.cart : Scope where
  merge s t := { Scope.event.merge s t with ftl := t.ftl }
  fields := F.KZL_STS_REMOVE_OK :: (eventFields ++ ceilFields)

theorem checkCart_cart (s : State) (l p : Nat) (f : Found) (old : Option Nat) (new : Bool) : Only Scope.cart.bound s (s.checkCart l p f old new) := by
  have hr (m : State) : Only Scope.cart.bound m (m.raise evCartChange 0xFFFF (l * 256 + p)) :=
    (Only.Event.raise m ..).widen (d := Scope.cart) (fun _ _ => rfl) (by decide)
  unfold checkCart jn
  exact .after (.ite (.wr (by decide) ..) (.refl _)) (.after (.ite (hr _) (.refl _)) (.ite (.refl _) (Only.upd rfl)))

/-- A position without dies is found. -/
theorem foundAt_eq {l p : Nat} {f : Found} (hf : f.dies = 0) (s : State) : ∃ (x : Link) (desc : Nat) (old : Option Nat) (new : Bool),
    s.foundAt l p f = ((s.putLink8 l x).showFound l p f 0 desc).checkCart l p f old new := by
  have hok (m : State) : (List.range 16).filter (fun i => bit 0 i && m.matches (f.descs.getD i 0)) = [] := List.filter_eq_nil_iff.2 fun i _ => by simp [bit]
  unfold foundAt
  dsimp only
  rw [hf, hok, foundDies_none]
  exact ⟨_, _, _, _, rfl⟩

/-- Enumeration of one position without dies that nothing follows. -/
theorem enumerate_one {l p : Nat} {f : Found} (hp : p < 4) (hu : s.hopUp l p = true) (hb : (s.link8 l).broken.contains p = false)
    (hw : s.pup.sweeps = [none, none]) (hf : f.dies = 0) (hd : f.dsb = false) : ∃ (m : State) (x : Link) (desc : Nat),
    s.enumerate l p [f] = m.wr F.KZL_STS_BRIDGES (p + 1) l ∧ Only Scope.cart.bound ((s.putLink8 l x).showFound l p f 0 desc) m := by
  obtain ⟨x, desc, old, new, he⟩ := foundAt_eq (l := l) (p := p) hf s
  have hc := checkCart_cart ((s.putLink8 l x).showFound l p f 0 desc) l p f old new
  have hheal : s.healed l p = s := if_pos (by rw [hb]; rfl)
  refine ⟨s.foundAt l p f, x, desc, ?_, he ▸ hc⟩
  rw [← he] at hc
  have hsw : ((s.foundAt l p f).wr F.KZL_STS_BRIDGES (p + 1) l).pup.sweeps = [none, none] := (congrArg (fun t : State => t.pup.sweeps) hc.frame :).trans hw
  unfold enumerate
  rw [if_neg (by rw [hu]; simp; omega)]
  dsimp only
  rw [hheal, sweepHeal_none _ hsw, hd, if_pos (by rfl)]

end State

/-- A sideband held low starts hop 0's training (08 R202). -/
theorem ran_sidebandInsert {l : Nat} {s : State} (hl : l < 64) (hsb : s.rd F.KZL_STS_SB l ≠ 1) (hd : s.hopSt l 0 = hDetect) (he : s.rd F.KZL_CTL_EN l = 1)
    (ht : s.tables = true) : Ran (.sidebandInsert l) s (fun t => t.rd F.KZL_STS_SB l = 1 ∧ t.hopSt l 0 = hReset ∧ (t.link8 l).sb = false ∧
      t.outs = s.outs ∧ t.zn = s.zn ∧ t.die = s.die) := by
  let a : State := (s.wr F.KZL_STS_SB 1 l).putLink8 l { s.link8 l with sb := false, sbAt := s.el }
  have hk := State.edge_keeps a (32 + l) 0
  have hrd (g : Fld) (i : Nat) (h₁ : ∀ k ∈ [F.PUP_MBX_STS_SEQ], g.id ≠ k.id) (h₂ : g.id ≠ F.KZL_STS_SB.id) : (a.edge (32 + l) 0).rd g i = s.rd g i :=
    (hk g i 0 0 h₁).trans (State.rd_wr_id _ _ _ _ _ _ _ _ _ _ h₂)
  have hst : (a.edge (32 + l) 0).hopSt l 0 = hDetect := (hrd F.KZL_STS_HOP0 l (by decide) (by decide)).trans hd
  have hen := (hrd F.KZL_CTL_EN l (by decide) (by decide)).trans he
  have hsb1 : (a.edge (32 + l) 0).rd F.KZL_STS_SB l = 1 := (hk F.KZL_STS_SB l 0 0 (by decide)).trans (State.rd_wr_same ..)
  have hkz : (a.edge (32 + l) 0).kz = a.kz ∧ (a.edge (32 + l) 0).die = a.die := by rw [(Only.Link.edge a (32 + l) 0).frame]; exact ⟨rfl, rfl⟩
  have hlk : ((a.edge (32 + l) 0).link8 l).sb = false := by
    rw [State.link8_of_kz hkz.1, show a.link8 l = _ from State.link8_putLink8 ..]
  obtain ⟨ho, hz, -⟩ := State.edge_outs a (32 + l) 0
  have hrun : exec (.sidebandInsert l) s = .next ((a.edge (32 + l) 0).setHop l 0 hReset) := by
    show execSidebandInsert l s = _
    unfold execSidebandInsert
    rw [if_neg (by simp [hsb]; omega), if_neg (by simp [ht])]
    exact congrArg Host.Outcome.next ((if_pos (by rw [hst]; rfl)).trans (if_pos hen))
  have ho' : (a.edge (32 + l) 0).outs = s.outs := ho
  have hz' : (a.edge (32 + l) 0).zn = s.zn := hz
  have hd' : (a.edge (32 + l) 0).die = s.die := hkz.2
  generalize a.edge (32 + l) 0 = b at hrun hsb1 hlk ho' hz' hd'
  have hb := State.setHop_hops b l 0 hReset
  refine ⟨_, hrun, (hb.regs F.KZL_STS_SB l 0 0 (by decide)).trans hsb1, State.hopSt_setHop _ _ _ (by decide), ?_, ?_, ?_, ?_⟩
  · rw [State.link8_setHop]
    exact hlk
  all_goals rw [hb.frame]
  · exact ho'
  · exact hz'
  · exact hd'

/-- An alert reads every bridge (08 R202). -/
theorem ran_sidebandAlert {l : Nat} {low : List Nat} {s : State} (hl : l < 64) (hsb : s.rd F.KZL_STS_SB l = 1)
    (hq : ∀ h, h < 4 → (s.hop l h).dn.quiet = false ∧ (s.hop l h).up.quiet = false) :
    Ran (.sidebandAlert l low) s (fun t => t.outs = s.outs ++ [.kz l "MANAGEMENT" [0]] ∧
      (∀ p, p < s.rd F.KZL_STS_BRIDGES l → t.rd F.KZL_BID_DSB l p = b2n (low.contains p)) ∧
      (∀ p, p < 3 → p < s.rd F.KZL_STS_BRIDGES l → low.contains p = true → s.hopSt l (p + 1) = hDetect → t.hopSt l (p + 1) = hReset) ∧
      Keeps s t [F.KZL_BID_DSB, F.KZL_BID_HOP]) := by
  obtain ⟨hd, hs, -, ho⟩ := State.readAlerts_spec l low (s.rd F.KZL_STS_BRIDGES l) (s.send (.kz l "MANAGEMENT" [0])) _ rfl
  refine ⟨(List.range (s.rd F.KZL_STS_BRIDGES l)).foldl (State.readAlert l low) (s.send (.kz l "MANAGEMENT" [0])), ?_, ?_, hd, hs, ho.regs⟩
  · show execSidebandAlert l low s = _
    unfold execSidebandAlert
    rw [if_neg (by simp [hsb]; omega)]
    dsimp only
    rw [State.bursts_awake _ fun h hh => hq h (List.mem_range.1 hh)]
    rfl
  · exact (congrArg (·.outs) ho.frame :)

/-- A sideband high for 50 µs breaks hop 0 (08 R202). -/
theorem ran_sidebandAbsent {l : Nat} {s : State} (hl : l < 64) (hsb : s.rd F.KZL_STS_SB l ≠ 0) (hb : (s.link8 l).broken.contains 0 = false)
    (hd : s.die.dies = []) : Ran (.sidebandAbsent l) s (fun t => t.rd F.KZL_STS_SB l = 0 ∧ HopBroke s t l 0 ∧ t.zn.ud = s.zn.ud) := by
  let a : State := (s.wr F.KZL_STS_SB 0 l).putLink8 l { s.link8 l with sb := true, sbAt := s.el }
  have hk := State.edge_keeps a (32 + l) 1
  have hkz : (a.edge (32 + l) 1).kz = a.kz ∧ (a.edge (32 + l) 1).die = a.die := by rw [(Only.Link.edge a (32 + l) 1).frame]; exact ⟨rfl, rfl⟩
  obtain ⟨-, hz, -⟩ := State.edge_outs a (32 + l) 1
  have hbr : ((a.edge (32 + l) 1).link8 l).broken.contains 0 = false := by
    rw [State.link8_of_kz hkz.1, show a.link8 l = _ from State.link8_putLink8 ..]
    exact hb
  have hdd : (a.edge (32 + l) 1).die.dies = [] := by rw [hkz.2]; exact hd
  have hsb0 : (a.edge (32 + l) 1).rd F.KZL_STS_SB l = 0 := (hk F.KZL_STS_SB l 0 0 (by decide)).trans (State.rd_wr_same ..)
  have hcnt : (a.edge (32 + l) 1).rd F.KZL_LOCK_CNT_BREAKS l = s.rd F.KZL_LOCK_CNT_BREAKS l :=
    (hk F.KZL_LOCK_CNT_BREAKS l 0 0 (by decide)).trans (State.rd_wr_id _ _ _ _ _ _ _ _ _ _ (by decide))
  have hz' : (a.edge (32 + l) 1).zn = s.zn := hz
  have hrun : exec (.sidebandAbsent l) s = .next ((a.edge (32 + l) 1).breakHop l 0) := by
    show execSidebandAbsent l s = _
    unfold execSidebandAbsent
    rw [if_neg (by omega), if_neg hsb]
  generalize a.edge (32 + l) 1 = b at hrun hbr hdd hsb0 hcnt hz'
  obtain ⟨⟨h₁, h₂, h₃, h₄⟩, hzn⟩ := State.breakHop_spec hbr hdd
  exact ⟨_, hrun, (State.breakHop_sb hbr hdd l).trans hsb0, ⟨h₁, h₂, hcnt ▸ h₃, h₄⟩, congrArg (·.ud) (hzn.trans hz')⟩

/-- Enumeration records what a position reports (08 R203). -/
theorem ran_enumeration {l p bt serial mx : Nat} {s : State} (hl : l < 64) (hp : p < 4) (hu : s.hopUp l p = true)
    (hb : (s.link8 l).broken.contains p = false) (hw : s.pup.sweeps = [none, none]) (hc : s.zn.cmds = []) :
    Ran (.chainEnumeration l p [(bt, serial, 0, [], mx, false)]) s (fun t => t.rd F.KZL_BID_PRESENT l p = 1 ∧
      t.rd F.KZL_BID_BTYPE l p = cut F.KZL_BID_BTYPE.w bt ∧ t.rd F.KZL_BSER_SERIAL l p = cut F.KZL_BSER_SERIAL.w serial ∧
      t.rd F.KZL_BID_DIES l p = 0 ∧ t.rd F.KZL_STS_BRIDGES l = p + 1 ∧ t.zn = s.zn ∧ t.die = s.die) := by
  let f : Found := ⟨bt, serial, 0, [], mx, false⟩
  obtain ⟨m, x, desc, he, hm⟩ := State.enumerate_one (f := f) hp hu hb hw rfl rfl
  obtain ⟨k₁, k₂, k₃, k₄⟩ := State.showFound_spec (s.putLink8 l x) l p f desc
  have hz : ((s.putLink8 l x).showFound l p f 0 desc).zn = s.zn ∧ ((s.putLink8 l x).showFound l p f 0 desc).die = s.die := State.showFound_keeps (s.putLink8 l x) l p f 0 desc
  generalize (s.putLink8 l x).showFound l p f 0 desc = a at hm k₁ k₂ k₃ k₄ hz
  have hmz : m.zn = s.zn ∧ m.die = s.die := by rw [hm.frame]; exact hz
  have hrun : exec (.chainEnumeration l p [(bt, serial, 0, [], mx, false)]) s = .next ((m.wr F.KZL_STS_BRIDGES (p + 1) l).ceiling false) := by
    show execChainEnumeration l p [(bt, serial, 0, [], mx, false)] s = _
    unfold execChainEnumeration
    rw [if_neg (by omega)]
    refine congrArg (fun t => Host.Outcome.next (State.ceiling t false)) ?_
    show (s.enumerate l p [f]).rerunAll = _
    rw [he]
    exact State.rerunAll_none ((congrArg (·.cmds) hmz.1).trans hc)
  have hce := State.ceiling_event (s := m.wr F.KZL_STS_BRIDGES (p + 1) l) false
  obtain ⟨hcz, hcd⟩ := State.ceiling_keeps (m.wr F.KZL_STS_BRIDGES (p + 1) l) false
  generalize (m.wr F.KZL_STS_BRIDGES (p + 1) l).ceiling false = t at hrun hce hcz hcd
  have hrd (g : Fld) (h₁ : ∀ k ∈ (Scope.event.also State.ceilFields).fields, g.id ≠ k.id) (h₂ : g.id ≠ F.KZL_STS_BRIDGES.id)
      (h₃ : ∀ k ∈ State.Scope.cart.fields, g.id ≠ k.id) : t.rd g l p = a.rd g l p :=
    (hce.regs g l p 0 h₁).trans ((State.rd_wr_id _ _ _ _ _ _ _ _ _ _ h₂).trans (hm.regs g l p 0 h₃))
  refine ⟨t, hrun, (hrd _ (by decide) (by decide) (by decide)).trans k₁, (hrd _ (by decide) (by decide) (by decide)).trans k₂,
    (hrd _ (by decide) (by decide) (by decide)).trans k₃, (hrd _ (by decide) (by decide) (by decide)).trans k₄, ?_, ?_, ?_⟩
  · exact (hce.regs F.KZL_STS_BRIDGES l 0 0 (by decide)).trans ((State.rd_wr_same ..).trans (Nat.mod_eq_of_lt (show p + 1 < 8 by omega)))
  · exact hcz.trans hmz.1
  · exact hcd.trans hmz.2

/-- Settles O26. -/
theorem kazronChainsComplete : Obligations.KazronChainsComplete := by
  unfold Obligations.KazronChainsComplete
  refine ⟨fun l s hl hsb hd he ht => ran_sidebandInsert hl hsb hd he ht, fun l s hl hsb ht => ?_, fun l low s hl hsb hq => ran_sidebandAlert hl hsb hq,
    fun l s hl hsb hb hd => ran_sidebandAbsent hl hsb hb hd, fun l p bt serial mx s hl hp hu hb hw hc => ran_enumeration hl hp hu hb hw hc⟩
  refine ⟨s.putLink8 l { s.link8 l with sb := false, sbAt := s.el }, ?_, ?_, rfl⟩
  · exact congrArg Host.Outcome.next ((if_neg (by simp [hsb]; omega)).trans (if_pos (by simp [ht])))
  · rw [State.link8_putLink8]

end Sys2Proof.Machine
end


section
/-! O24: hops of a Kazron link (08 R186–R191, R197, R199, R200). -/

namespace Sys2Proof.Machine

namespace Hop

@[simp] theorem dir_putDir (p : Hop) (up : Bool) (x : LDir) : (p.putDir up x).dir up = x := by cases up <;> rfl

@[simp] theorem dir_putDir_not (p : Hop) (up : Bool) (x : LDir) : (p.putDir up x).dir (!up) = p.dir (!up) := by cases up <;> rfl

/-- What training gives a hop: its failures, its width and lanes, and since when it is in its state. -/
def trained (p : Hop) : Nat × Nat × Nat × Nat := (p.fails, p.width, p.lanes, p.since)

@[simp] theorem trained_putDir (p : Hop) (up : Bool) (x : LDir) : (p.putDir up x).trained = p.trained := by cases up <;> rfl

end Hop

/-- What a sender keeps of a direction as it sends: QUIET, flit lock and the scramblers. -/
def LDir.held (x : LDir) : Bool × Bool × List Nat := (x.quiet, x.lock, x.scr)

namespace State
variable {s : State}

/-! ### A direction sends (08 R196) -/

/-- One direction of a hop sends, first or again: its numbers and buffers, credits, and the count of replays. -/
structure Sends (l h : Nat) (up : Bool) (s t : State) : Prop where
  frame : t = { s with regs := t.regs, kz := t.kz, outs := t.outs }
  regs : Keeps s t [F.KZL_REPLAY_CNT_REPLAY]
  outs : ∃ r, t.outs = s.outs ++ r
  trained : (t.hop l h).trained = (s.hop l h).trained
  other : (t.hop l h).dir (!up) = (s.hop l h).dir (!up)
  held : ((t.hop l h).dir up).held = ((s.hop l h).dir up).held
  len : (t.link8 l).hops.length = (s.link8 l).hops.length
  chg : (t.link8 l).chg = (s.link8 l).chg

theorem Sends.refl (l h : Nat) (up : Bool) (s : State) : Sends l h up s s :=
  ⟨rfl, fun _ _ _ _ _ => rfl, ⟨[], (List.append_nil _).symm⟩, rfl, rfl, rfl, rfl, rfl⟩

theorem Sends.trans {l h : Nat} {up : Bool} {t u : State} (a : Sends l h up s t) (b : Sends l h up t u) : Sends l h up s u := by
  obtain ⟨r, hr⟩ := a.outs
  obtain ⟨r', hr'⟩ := b.outs
  refine ⟨?_, a.regs.trans b.regs, ⟨r ++ r', by rw [hr', hr, List.append_assoc]⟩, b.trained.trans a.trained, b.other.trans a.other, b.held.trans a.held,
    b.len.trans a.len, b.chg.trans a.chg⟩
  rw [b.frame, a.frame]

theorem hop_putLink8 (s : State) (l h : Nat) (x : Link) : (s.putLink8 l x).hop l h = x.hops.getD h Hop.fresh := by rw [hop, link8_putLink8]

/-- The direction's record is put back with QUIET, flit lock and scramblers as they were. -/
theorem sends_putHop {l h : Nat} {up : Bool} (hh : h < (s.link8 l).hops.length) {d : LDir} (hd : d.held = ((s.hop l h).dir up).held) :
    Sends l h up s (s.putHop l h ((s.hop l h).putDir up d)) := by
  refine ⟨rfl, fun _ _ _ _ _ => rfl, ⟨[], (List.append_nil _).symm⟩, ?_, ?_, ?_, ?_, ?_⟩
  · rw [hop_putHop hh, Hop.trained_putDir]
  · rw [hop_putHop hh, Hop.dir_putDir_not]
  · rw [hop_putHop hh, Hop.dir_putDir, hd]
  · rw [link8_putHop]
    exact List.length_set ..
  · rw [link8_putHop]

theorem sends_send (l h : Nat) (up : Bool) (o : Out) : Sends l h up s (s.send o) :=
  ⟨rfl, fun _ _ _ _ _ => rfl, ⟨[o], rfl⟩, rfl, rfl, rfl, rfl, rfl⟩

/-- Credits of a link change its hops in nothing. -/
theorem sends_credit {l h : Nat} {up : Bool} {x : Link} (hx : x.hops = (s.link8 l).hops) (hc : x.chg = (s.link8 l).chg) : Sends l h up s (s.putLink8 l x) := by
  have hhop : (s.putLink8 l x).hop l h = s.hop l h := by rw [hop_putLink8, hx, hop]
  refine ⟨rfl, fun _ _ _ _ _ => rfl, ⟨[], (List.append_nil _).symm⟩, ?_, ?_, ?_, ?_, ?_⟩
  · rw [hhop]
  · rw [hhop]
  · rw [hhop]
  · rw [link8_putLink8, hx]
  · rw [link8_putLink8, hc]

theorem sendXfer_sends {l h : Nat} {up : Bool} (hh : h < (s.link8 l).hops.length) (x : Xfer) : Sends l h up s (s.sendXfer l h up x) := by
  unfold sendXfer sendFlit
  dsimp only
  generalize Out.kz _ _ _ = o
  have hput (d : LDir) (hd : d.held = ((s.hop l h).dir up).held) : Sends l h up s ((s.send o).putHop l h ((s.hop l h).putDir up d)) :=
    (sends_send l h up o).trans (sends_putHop (s := s.send o) hh hd)
  split
  · exact (hput _ (by rfl)).trans (sends_credit (by rfl) (by rfl))
  · split
    · exact (hput _ (by rfl)).trans (sends_credit (by rfl) (by rfl))
    · exact hput _ (by rfl)

theorem pump_sends {l h : Nat} {up : Bool} (n : Nat) (s : State) (hh : h < (s.link8 l).hops.length) : Sends l h up s (State.pump l h up n s) := by
  induction n generalizing s with
  | zero => exact .refl l h up s
  | succ n ih =>
    rw [pump]
    split
    · exact .refl l h up s
    · split
      · exact .refl l h up s
      · next x _ =>
        have hx := sendXfer_sends (up := up) hh x
        exact hx.trans (ih _ (by rw [hx.len]; exact hh))

theorem sendFlits_sends {l h : Nat} {up : Bool} (fs : List Flit) (s : State) :
    Sends l h up s (fs.foldl (fun (s : State) f => s.sendFlit l h up f) s) := by
  induction fs generalizing s with
  | nil => exact .refl l h up s
  | cons f fs ih => exact (sends_send l h up _).trans (ih _)

theorem sends_replay (l h : Nat) (up : Bool) : Sends l h up s (s.inc F.KZL_REPLAY_CNT_REPLAY l) :=
  ⟨rfl, Keeps.wr (List.mem_singleton_self F.KZL_REPLAY_CNT_REPLAY) s _ _ _ _, ⟨[], (List.append_nil _).symm⟩, rfl, rfl, rfl, rfl, rfl⟩

theorem replayFrom_sends {l h : Nat} {up : Bool} (hh : h < (s.link8 l).hops.length) (q : Nat) : Sends l h up s (s.replayFrom l h up q) := by
  unfold replayFrom
  dsimp only
  split
  · exact .refl l h up s
  · exact .trans ((sends_replay l h up).trans (sends_putHop (s := s.inc F.KZL_REPLAY_CNT_REPLAY l) hh (by rfl))) (sendFlits_sends ..)

theorem Sends.hopSt {l h : Nat} {up : Bool} {t : State} (a : Sends l h up s t) (k i : Nat) : t.hopSt k i = s.hopSt k i :=
  hopSt_keeps a.regs (by decide) (by decide) k i

/-- Both directions keep their training as one of them sends. -/
theorem Sends.keeps {l h : Nat} {up : Bool} {t : State} (a : Sends l h up s t) : t.zn = s.zn ∧ t.die = s.die := by
  rw [a.frame]
  exact ⟨rfl, rfl⟩

/-! ### Flit lock (08 R197) -/

theorem loseLock_spec {l h : Nat} {up : Bool} (hu : s.hopUp l h = true) (hh : h < (s.link8 l).hops.length) :
    (s.loseLock l h up).hopSt l h = hRecover ∧ (((s.loseLock l h up).hop l h).dir up).lock = false ∧ (s.loseLock l h up).outs = s.outs ∧
    (s.loseLock l h up).zn = s.zn ∧ Keeps s (s.loseLock l h up) [F.KZL_BID_HOP, F.KZL_STS_HOP0] := by
  let d : LDir := { (s.hop l h).dir up with lock := false, good := 0, part := none, sym := [] }
  have hu' : (s.putHop l h ((s.hop l h).putDir up d)).hopUp l h = true := hu
  have hl : s.loseLock l h up = (s.putHop l h ((s.hop l h).putDir up d)).setHop l h hRecover := if_pos hu'
  have hhop := hop_putHop hh ((s.hop l h).putDir up d)
  have hlen : h < ((s.putHop l h ((s.hop l h).putDir up d)).link8 l).hops.length := by
    rw [link8_putHop, List.length_set]
    exact hh
  have hk : Only Scope.hops.bound s ((s.putHop l h ((s.hop l h).putDir up d)).setHop l h hRecover) := (setHop_hops ..).after (Only.upd rfl)
  rw [hl]
  refine ⟨hopSt_setHop _ _ _ (by decide), ?_, ?_, ?_, hk.regs⟩
  · rw [hop_setHop hlen, hhop]
    cases up <;> rfl
  · exact (congrArg (·.outs) hk.frame :)
  · exact (congrArg (·.zn) hk.frame :)

/-! ### A hop has trained (08 R186) -/

/-- What follows a hop's training of registers and events. -/
def Scope.trained : Scope where
  merge s t := Scope.event.merge s t
  fields := [F.KZL_STS_LANES_OK, F.KZL_STS_EXTRA, F.KZL_STS_WIDTH] ++ eventFields

/-- A hop that is trained, its width and lanes shown. -/
def trainedHop (s : State) (l h lanes : Nat) (p : Hop) (extra : Bool) : State :=
  let s := (s.setHop l h hActive).putHop l h p
  let s := if h = 0 then s.wr F.KZL_STS_LANES_OK lanes l else s
  let s := if extra then s.wr F.KZL_STS_EXTRA 1 l else s
  let s := s.wr F.KZL_STS_WIDTH (widthCode (s.wantWidth l)) l
  if p.width < 4 then s.raise evKzWidth 0xFFFF (l * 256 + p.width) else s

theorem trainedHop_spec {l h : Nat} (hh : h < (s.link8 l).hops.length) (lanes : Nat) (p : Hop) (extra : Bool) :
    (s.trainedHop l h lanes p extra).hopSt l h = hActive ∧ (s.trainedHop l h lanes p extra).hop l h = p ∧
    ((s.trainedHop l h lanes p extra).link8 l).hops.length = (s.link8 l).hops.length ∧
    (s.trainedHop l h lanes p extra).zn = s.zn ∧ (s.trainedHop l h lanes p extra).die = s.die := by
  let a : State := (s.setHop l h hActive).putHop l h p
  have hlen : ((s.setHop l h hActive).link8 l).hops.length = (s.link8 l).hops.length := by rw [link8_setHop]; exact List.length_modify ..
  have hst : a.hopSt l h = hActive := hopSt_setHop _ _ _ (by decide)
  have hhop : a.hop l h = p := hop_putHop (by rw [hlen]; exact hh) p
  have halen : (a.link8 l).hops.length = (s.link8 l).hops.length := by
    rw [show a.link8 l = _ from link8_putHop ..]
    exact (List.length_set ..).trans hlen
  have hset := setHop_hops s l h hActive
  have haz : a.zn = s.zn := (congrArg (·.zn) hset.frame :)
  have had : a.die = s.die := (congrArg (·.die) hset.frame :)
  have hr (m : State) : Only Scope.trained.bound m (m.raise evKzWidth 0xFFFF (l * 256 + p.width)) :=
    (Only.Event.raise m ..).widen (d := Scope.trained) (fun _ _ => rfl) (by decide)
  have ht : Only Scope.trained.bound a (s.trainedHop l h lanes p extra) := by
    unfold trainedHop
    exact .after (.ite (hr _) (.refl _)) (.after (.wr (by decide) ..) (.after (.ite (.wr (by decide) ..) (.refl _)) (.ite (.wr (by decide) ..) (.refl _))))
  generalize s.trainedHop l h lanes p extra = t at ht ⊢
  clear_value a
  have hkz : t.kz = a.kz ∧ t.zn = a.zn ∧ t.die = a.die := by rw [ht.frame]; exact ⟨rfl, rfl, rfl⟩
  refine ⟨(hopSt_keeps ht.regs (by decide) (by decide) l h).trans hst, (hop_of_kz hkz.1 l h).trans hhop, ?_, hkz.2.1.trans haz, hkz.2.2.trans had⟩
  rw [link8_of_kz hkz.1]
  exact halen

theorem ceiling_kz (s : State) (always : Bool) : (s.ceiling always).kz = s.kz := by
  have h := ceiling_event (s := s) always
  generalize s.ceiling always = t at h
  rw [h.frame]
  rfl

/-- A hop that is up again sends: after a RECOVER what was not acknowledged, then what waits. -/
def resumeHop (s : State) (l h st a b : Nat) : State :=
  let s := if st = hRecover then (s.replayFrom l h false a).replayFrom l h true b else s
  State.pump l h true replayMax (State.pump l h false replayMax s)

theorem resumeHop_spec {l h : Nat} (hh : h < (s.link8 l).hops.length) (st a b : Nat) : (s.resumeHop l h st a b).hopSt l h = s.hopSt l h ∧
    ((s.resumeHop l h st a b).hop l h).trained = (s.hop l h).trained ∧ (s.resumeHop l h st a b).zn = s.zn ∧ (s.resumeHop l h st a b).die = s.die := by
  have both {m t u : State} (p : Sends l h false m t) (q : Sends l h true t u) : u.hopSt l h = m.hopSt l h ∧ (u.hop l h).trained = (m.hop l h).trained ∧
      u.zn = m.zn ∧ u.die = m.die ∧ (u.link8 l).hops.length = (m.link8 l).hops.length :=
    ⟨(q.hopSt l h).trans (p.hopSt l h), q.trained.trans p.trained, q.keeps.1.trans p.keeps.1, q.keeps.2.trans p.keeps.2, q.len.trans p.len⟩
  let c : State := if st = hRecover then (s.replayFrom l h false a).replayFrom l h true b else s
  have hc : c.hopSt l h = s.hopSt l h ∧ (c.hop l h).trained = (s.hop l h).trained ∧ c.zn = s.zn ∧ c.die = s.die ∧
      (c.link8 l).hops.length = (s.link8 l).hops.length := by
    unfold c
    split
    · have h₁ := replayFrom_sends (up := false) hh a
      exact both h₁ (replayFrom_sends (by rw [h₁.len]; exact hh) b)
    · exact ⟨rfl, rfl, rfl, rfl, rfl⟩
  obtain ⟨k₁, k₂, k₃, k₄, k₅⟩ := hc
  have h₁ := pump_sends (l := l) (h := h) (up := false) replayMax c (by rw [k₅]; exact hh)
  obtain ⟨j₁, j₂, j₃, j₄, -⟩ := both h₁ (pump_sends replayMax _ (by rw [h₁.len, k₅]; exact hh))
  exact ⟨j₁.trans k₁, j₂.trans k₂, j₃.trans k₃, j₄.trans k₄⟩

end State

/-- What the end of a hop's training does. -/
theorem trainingDone_eq {l h lanes : Nat} {extra : Bool} {s : State} (hok : hopOk l h = true) (ht : s.training l h = true) (hw : alignLanes lanes ≠ [])
    (hc : h = 0 → s.img.noCal.contains (8 + l / 16) = false) : ∃ (dn up : LDir) (a b : Nat), exec (.hopTrainingDone l h lanes extra) s =
      .next (((s.trainedHop l h lanes { s.hop l h with fails := 0, width := (alignLanes lanes).length, lanes := cut 4 lanes, since := s.el, dn := dn, up := up }
        extra).resumeHop l h (s.hopSt l h) a b).ceiling false) := by
  have hno : (!hopOk l h || !s.training l h || decide ((alignLanes lanes).length = 0) || (decide (h = 0) && s.img.noCal.contains (8 + l / 16))) = false := by
    have h0 : (decide (h = 0) && s.img.noCal.contains (8 + l / 16)) = false := by
      by_cases h0 : h = 0
      · rw [hc h0, Bool.and_false]
      · simp [h0]
    rw [h0, hok, ht]
    simpa using hw
  show ∃ (dn up : LDir) (a b : Nat), execHopTrainingDone l h lanes extra s = _
  unfold execHopTrainingDone
  dsimp only
  rw [hno, if_neg Bool.false_ne_true]
  exact ⟨_, _, _, _, rfl⟩

/-- A hop that has trained is ACTIVE with the width it reached (08 R186, R187). -/
theorem ran_trainingDone {l h lanes : Nat} {extra : Bool} {s : State} (hok : hopOk l h = true) (ht : s.training l h = true) (hw : alignLanes lanes ≠ [])
    (hh : h < (s.link8 l).hops.length) (hc : h = 0 → s.img.noCal.contains (8 + l / 16) = false) :
    Ran (.hopTrainingDone l h lanes extra) s (fun t => t.hopSt l h = hActive ∧ (t.hop l h).width = (alignLanes lanes).length ∧
      (t.hop l h).lanes = cut 4 lanes ∧ (t.hop l h).fails = 0 ∧ t.zn = s.zn ∧ t.die = s.die) := by
  obtain ⟨dn, up, a, b, hrun⟩ := trainingDone_eq (lanes := lanes) (extra := extra) hok ht hw hc
  obtain ⟨k₁, k₂, k₃, k₄, k₅⟩ := State.trainedHop_spec hh lanes { s.hop l h with fails := 0, width := (alignLanes lanes).length, lanes := cut 4 lanes, since := s.el, dn := dn, up := up } extra
  generalize s.trainedHop l h lanes _ extra = m at k₁ k₂ k₃ k₄ k₅ hrun
  obtain ⟨j₁, j₂, j₃, j₄⟩ := State.resumeHop_spec (s := m) (by rw [k₃]; exact hh) (s.hopSt l h) a b
  generalize m.resumeHop l h (s.hopSt l h) a b = r at j₁ j₂ j₃ j₄ hrun
  have hce := State.ceiling_event (s := r) false
  obtain ⟨hz, hd⟩ := State.ceiling_keeps r false
  have hkz := State.ceiling_kz r false
  generalize r.ceiling false = t at hce hz hd hkz hrun
  rw [k₂] at j₂
  obtain ⟨e₁, e₂, e₃, -⟩ : (r.hop l h).fails = 0 ∧ (r.hop l h).width = (alignLanes lanes).length ∧ (r.hop l h).lanes = cut 4 lanes ∧ (r.hop l h).since = s.el := by
    simpa [Hop.trained] using j₂
  refine ⟨t, hrun, (State.hopSt_keeps hce.regs (by decide) (by decide) l h).trans (j₁.trans k₁), ?_, ?_, ?_, hz.trans (j₃.trans k₄), hd.trans (j₄.trans k₅)⟩
  · rw [State.hop_of_kz hkz, e₂]
  · rw [State.hop_of_kz hkz, e₃]
  · rw [State.hop_of_kz hkz, e₁]

/-- A break counted from a state with the same count. -/
theorem HopBroke.of_count {s a t : State} {l h : Nat} (hb : HopBroke a t l h) (hc : a.rd F.KZL_LOCK_CNT_BREAKS l = s.rd F.KZL_LOCK_CNT_BREAKS l) :
    HopBroke s t l h := by
  obtain ⟨h₁, h₂, h₃, h₄⟩ := hb
  exact ⟨h₁, h₂, hc ▸ h₃, h₄⟩

theorem hopOk_iff {l h : Nat} (hok : hopOk l h = true) : l < 64 ∧ h < 4 := by simpa [hopOk] using hok

/-- A failed training starts again from RESET (08 R186). -/
theorem ran_trainingFail {l h : Nat} {s : State} (hok : hopOk l h = true) (ht : s.training l h = true) (hh : h < (s.link8 l).hops.length)
    (hr : s.hopSt l h ≠ hRecover) (hf : (s.hop l h).fails + 1 < 3) : Ran (.hopTrainingFail l h) s (fun t => t.hopSt l h = hReset ∧
      (t.hop l h).fails = (s.hop l h).fails + 1 ∧ (t.hop l h).since = s.el ∧ t.outs = s.outs ∧ t.zn = s.zn) := by
  let a : State := s.putHop l h { s.hop l h with fails := (s.hop l h).fails + 1 }
  have hlen : h < (a.link8 l).hops.length := by
    rw [show a.link8 l = _ from State.link8_putHop .., List.length_set]
    exact hh
  have hset := State.setHop_hops a l h hReset
  have hhop := State.hop_setHop hlen hReset
  rw [show a.hop l h = _ from State.hop_putHop hh _] at hhop
  have hst := State.hopSt_setHop a l h (v := hReset) (by decide)
  have hrun : exec (.hopTrainingFail l h) s = .next (a.setHop l h hReset) :=
    congrArg Host.Outcome.next ((if_neg (by simp [hok, ht])).trans (if_neg (by simp [hr]; omega)))
  generalize a.setHop l h hReset = t at hset hhop hst hrun
  refine ⟨t, hrun, hst, by rw [hhop], by rw [hhop]; rfl, ?_, ?_⟩ <;> rw [hset.frame] <;> rfl

/-- A third failed training, or a failed RECOVER, is a break (08 R197). -/
theorem ran_trainingBreak {l h : Nat} {s : State} (hok : hopOk l h = true) (ht : s.training l h = true)
    (hr : s.hopSt l h = hRecover ∨ 3 ≤ (s.hop l h).fails + 1) (hb : (s.link8 l).broken.contains h = false) (hd : s.die.dies = []) :
    Ran (.hopTrainingFail l h) s (fun t => HopBroke s t l h ∧ t.zn.ud = s.zn.ud) := by
  let a : State := s.putHop l h { s.hop l h with fails := 0, width := 0, lanes := 0 }
  have hab : (a.link8 l).broken.contains h = false := by
    rw [show a.link8 l = _ from State.link8_putHop ..]
    exact hb
  obtain ⟨hbk, hz⟩ := State.breakHop_spec (s := a) hab hd
  refine ⟨a.breakHop l h, congrArg Host.Outcome.next ((if_neg (by simp [hok, ht])).trans (if_pos (by simpa using hr))), HopBroke.of_count hbk rfl, congrArg (·.ud) hz⟩

/-- An idle direction enters QUIET with its notice (08 R188). -/
theorem ran_quietEntry {l h : Nat} {up : Bool} {s : State} (hok : hopOk l h = true) (hu : s.hopUp l h = true) (hh : h < (s.link8 l).hops.length)
    (hq : ((s.hop l h).dir up).quiet = false) (he : s.rd F.KZL_CTL_QUIET_EN l = 1) (h1 : s.rd F.MED_PF_STS_PHASE ≠ 1) (h2 : s.rd F.MED_PF_STS_PHASE ≠ 2)
    (hw : (s.hop l h).width = 4) (hw0 : s.rd F.KZL_STS_WIDTH l = 0) (hr : ((s.hop l h).dir up).replay = []) (ho : ((s.hop l h).dir up).out = [])
    (hi : ((s.hop l h).dir up).idleAt + s.rd F.KZL_CTL_QUIET_ENTRY l * 64 ≤ s.el) : Ran (.quietEntry l h up) s (fun t =>
      ((t.hop l h).dir up).quiet = true ∧ (t.hop l h).dir (!up) = (s.hop l h).dir (!up) ∧
      t.hopSt l h = (if ((s.hop l h).dir (!up)).quiet then hQuiet else s.hopSt l h) ∧
      t.outs = s.outs ++ [ctlOut s l h up (lcPay false true 0 0)]) := by
  let q : Hop := (s.hop l h).putDir up { (s.hop l h).dir up with quiet := true, keepAt := s.el, seenAt := s.el }
  let a : State := (s.linkCtl l h up (lcPay false true 0 0)).putHop l h q
  have hhop : a.hop l h = q := State.hop_putHop (s := s.linkCtl l h up (lcPay false true 0 0)) hh q
  have hlen : h < (a.link8 l).hops.length := by
    rw [show a.link8 l = _ from State.link8_putHop ..]
    exact (List.length_set ..).symm ▸ hh
  have hqd : (q.dir up).quiet = true := by rw [Hop.dir_putDir]
  have hqo : q.dir (!up) = (s.hop l h).dir (!up) := Hop.dir_putDir_not ..
  have hstill : q.still = ((s.hop l h).dir (!up)).quiet := by
    rw [← hqo]
    cases up
    · exact Bool.true_and _
    · exact Bool.and_true _
  have hout : a.outs = s.outs ++ [ctlOut s l h up (lcPay false true 0 0)] := rfl
  have hst : a.hopSt l h = s.hopSt l h := rfl
  have hrun : exec (.quietEntry l h up) s = .next (if q.still then a.setHop l h hQuiet else a) := by
    show execQuietEntry l h up s = _
    unfold execQuietEntry
    refine congrArg Host.Outcome.next (if_pos ?_)
    simp [hok, hu, hq, he, h1, h2, hw, hw0, hr, ho, hi]
  refine ⟨_, hrun, ?_⟩
  clear_value a q
  rw [hstill]
  split
  · refine ⟨?_, ?_, State.hopSt_setHop _ _ _ (by decide), ?_⟩
    · rw [State.hop_setHop hlen, hhop, ← hqd]
      cases up <;> rfl
    · rw [State.hop_setHop hlen, hhop, ← hqo]
      cases up <;> rfl
    · rw [(State.setHop_hops a l h hQuiet).frame]
      exact hout
  · exact ⟨by rw [hhop, hqd], by rw [hhop, hqo], hst, hout⟩

/-- A burst leaves QUIET (08 R185, R189, R190). -/
theorem ran_burstStart {l h : Nat} {up ok : Bool} {s : State} (hok : hopOk l h = true) (hu : s.hopUp l h = true) (hh : h < (s.link8 l).hops.length)
    (hq : ((s.hop l h).dir up).quiet = true) : Ran (.burstStart l h up ok) s (fun t => t.hopSt l h = (if ok then hActive else hRecover) ∧
      ((t.hop l h).dir up).quiet = false ∧ ((t.hop l h).dir up).scr = scrSeeds ∧ (t.hop l h).dir (!up) = (s.hop l h).dir (!up) ∧
      ∃ r, t.outs = s.outs ++ .kz l "BURST" ([h, b2n up] ++ preambleOut) :: r ∧ (ok = false → r = [])) := by
  let x : LDir := (s.hop l h).dir up
  let q : Hop := (s.hop l h).putDir up { x with quiet := false, seenAt := s.el, idleAt := s.el, progAt := s.el, ackAt := s.el, lock := x.lock || ok, scr := scrSeeds, part := none, sym := [] }
  let a : State := (s.send (.kz l "BURST" ([h, b2n up] ++ preambleOut))).putHop l h q
  have hhop : a.hop l h = q := State.hop_putHop (s := s.send (.kz l "BURST" ([h, b2n up] ++ preambleOut))) hh q
  have hlen : h < (a.link8 l).hops.length := by
    rw [show a.link8 l = _ from State.link8_putHop ..]
    exact (List.length_set ..).symm ▸ hh
  have hqd : (q.dir up).quiet = false ∧ (q.dir up).scr = scrSeeds := by
    rw [Hop.dir_putDir]
    exact ⟨rfl, rfl⟩
  have hqo : q.dir (!up) = (s.hop l h).dir (!up) := Hop.dir_putDir_not ..
  have hset (v : Nat) : ((a.setHop l h v).hop l h).dir up = q.dir up ∧ ((a.setHop l h v).hop l h).dir (!up) = q.dir (!up) ∧
      ((a.setHop l h v).link8 l).hops.length = (a.link8 l).hops.length := by
    rw [State.hop_setHop hlen, hhop, State.link8_setHop]
    exact ⟨by cases up <;> rfl, by cases up <;> rfl, List.length_modify ..⟩
  have hout (v : Nat) : (a.setHop l h v).outs = s.outs ++ [.kz l "BURST" ([h, b2n up] ++ preambleOut)] := by
    rw [(State.setHop_hops a l h v).frame]
    rfl
  have hrun : exec (.burstStart l h up ok) s = .next (if ok then State.pump l h up replayMax (a.setHop l h hActive) else a.setHop l h hRecover) := by
    refine congrArg Host.Outcome.next ((if_pos hok).trans ?_)
    exact if_neg (by simp [hq, hu])
  refine ⟨_, hrun, ?_⟩
  clear_value a q
  split
  · obtain ⟨hd, ho, hl⟩ := hset hActive
    have hsend := State.pump_sends (l := l) (h := h) (up := up) replayMax (a.setHop l h hActive) (by rw [hl]; exact hlen)
    have hheld := hsend.held
    obtain ⟨r, hr⟩ := hsend.outs
    rw [hd] at hheld
    obtain ⟨e₁, -, e₃⟩ : _ ∧ _ ∧ _ := by simpa [LDir.held] using hheld
    refine ⟨(hsend.hopSt l h).trans (State.hopSt_setHop _ _ _ (by decide)), e₁.trans hqd.1, e₃.trans hqd.2, hsend.other.trans (ho.trans hqo), r, ?_, fun h => ?_⟩
    · rw [hr, hout, List.append_assoc]
      rfl
    · simp_all
  · obtain ⟨hd, ho, -⟩ := hset hRecover
    refine ⟨State.hopSt_setHop _ _ _ (by decide), ?_, ?_, ho.trans hqo, [], hout _, fun _ => rfl⟩
    · rw [hd, hqd.1]
    · rw [hd, hqd.2]

/-- A keepalive that is received, in QUIET (08 R190). -/
theorem ran_keepalive {l h : Nat} {up : Bool} {s : State} (hok : hopOk l h = true) (hh : h < (s.link8 l).hops.length) (hq : ((s.hop l h).dir up).quiet = true)
    (hk : ((s.hop l h).dir up).keepAt + s.rd F.KZL_CTL_KEEPALIVE l * 1000 ≤ s.el) : Ran (.keepalive l h up true) s (fun t =>
      (t.hop l h).dir up = { (s.hop l h).dir up with keepAt := s.el, seenAt := s.el } ∧
      t.regs = s.regs ∧ t.outs = s.outs ++ [.kz l "KEEPALIVE" ([h, b2n up] ++ preambleOut ++
        flitBytes (flitHdr 0 0 false 0 ((s.hop l h).dir up).next ((s.hop l h).ack up)) [])]) := by
  let o : Out := .kz l "KEEPALIVE" ([h, b2n up] ++ preambleOut ++ flitBytes (flitHdr 0 0 false 0 ((s.hop l h).dir up).next ((s.hop l h).ack up)) [])
  refine ⟨(s.send o).putHop l h ((s.hop l h).putDir up { (s.hop l h).dir up with keepAt := s.el, seenAt := s.el }),
    congrArg Host.Outcome.next ((if_neg (by simp [hok, hq]; omega)).trans (if_neg (by simp))), ?_, rfl, rfl⟩
  rw [State.hop_putHop (s := s.send o) hh, Hop.dir_putDir]

/-- Ten keepalives missed lose flit lock (08 R190, R197). -/
theorem ran_keepaliveLost {l h : Nat} {up : Bool} {s : State} (hok : hopOk l h = true) (hh : h < (s.link8 l).hops.length)
    (hq : ((s.hop l h).dir up).quiet = true) (hk : ((s.hop l h).dir up).keepAt + s.rd F.KZL_CTL_KEEPALIVE l * 1000 ≤ s.el) (hu : s.hopUp l h = true)
    (hs : ((s.hop l h).dir up).seenAt + 10 * (s.rd F.KZL_CTL_KEEPALIVE l * 1000) ≤ s.el) :
    Ran (.keepalive l h up false) s (fun t => t.hopSt l h = hRecover ∧ ((t.hop l h).dir up).lock = false ∧
        t.rd F.KZL_LOCK_CNT_LOCKLOSS l = sat F.KZL_LOCK_CNT_LOCKLOSS.w (s.rd F.KZL_LOCK_CNT_LOCKLOSS l + 1) ∧ t.zn = s.zn) := by
  let o : Out := .kz l "KEEPALIVE" ([h, b2n up] ++ preambleOut ++ flitBytes (flitHdr 0 0 false 0 ((s.hop l h).dir up).next ((s.hop l h).ack up)) [])
  let a : State := ((s.send o).putHop l h ((s.hop l h).putDir up { (s.hop l h).dir up with keepAt := s.el, seenAt := ((s.hop l h).dir up).seenAt })).inc F.KZL_LOCK_CNT_LOCKLOSS l
  have hlen : h < (a.link8 l).hops.length := by
    rw [show a.link8 l = _ from State.link8_putHop ..]
    exact (List.length_set ..).symm ▸ hh
  have hau : a.hopUp l h = true := by
    rw [State.hopUp, State.hopSt_keeps (s := s) (t := a) (Keeps.wr (List.mem_singleton_self F.KZL_LOCK_CNT_LOCKLOSS) _ _ _ _ _) (by decide) (by decide)]
    exact hu
  obtain ⟨k₁, k₂, -, k₄, k₅⟩ := State.loseLock_spec (up := up) hau hlen
  refine ⟨a.loseLock l h up, congrArg Host.Outcome.next ((if_neg (by simp [hok, hq]; omega)).trans (if_pos (decide_eq_true hs))), k₁, k₂, ?_, k₄⟩
  exact (k₅ F.KZL_LOCK_CNT_LOCKLOSS l 0 0 (by decide)).trans ((State.rd_inc_same ..).trans (cut_sat ..))

/-- A lost flit lock takes the hop to RECOVER (08 R197). -/
theorem ran_flitLockLoss {l h : Nat} {up : Bool} {s : State} (hok : hopOk l h = true) (hu : s.hopUp l h = true) (hh : h < (s.link8 l).hops.length) :
    Ran (.flitLockLoss l h up) s (fun t => t.hopSt l h = hRecover ∧ ((t.hop l h).dir up).lock = false ∧ t.outs = s.outs ∧
      t.rd F.KZL_LOCK_CNT_LOCKLOSS l = sat F.KZL_LOCK_CNT_LOCKLOSS.w (s.rd F.KZL_LOCK_CNT_LOCKLOSS l + 1)) := by
  let a : State := s.inc F.KZL_LOCK_CNT_LOCKLOSS l
  have hau : a.hopUp l h = true := by
    rw [State.hopUp, State.hopSt_keeps (s := s) (t := a) (Keeps.wr (List.mem_singleton_self F.KZL_LOCK_CNT_LOCKLOSS) _ _ _ _ _) (by decide) (by decide)]
    exact hu
  obtain ⟨k₁, k₂, k₃, -, k₅⟩ := State.loseLock_spec (s := a) (up := up) hau hh
  refine ⟨a.loseLock l h up, congrArg Host.Outcome.next (if_pos (by rw [hok, hu]; rfl)), k₁, k₂, k₃, ?_⟩
  exact (k₅ F.KZL_LOCK_CNT_LOCKLOSS l 0 0 (by decide)).trans ((State.rd_inc_same ..).trans (cut_sat ..))

/-- A hop the link does not have sends nothing. -/
theorem State.pump_absent {l h : Nat} {up : Bool} {s : State} (n : Nat) (hh : ¬h < (s.link8 l).hops.length) : State.pump l h up n s = s := by
  have hx : ((s.hop l h).dir up).out = [] := by
    rw [State.hop, List.getD_eq_default _ _ (Nat.le_of_not_lt hh)]
    cases up <;> rfl
  cases n with
  | zero => rfl
  | succ n =>
    rw [State.pump, hx]
    exact ite_self _

theorem State.pump_sent {l h : Nat} {up : Bool} (n : Nat) (s : State) : Sends l h up s (State.pump l h up n s) := by
  by_cases hh : h < (s.link8 l).hops.length
  · exact State.pump_sends n s hh
  · rw [State.pump_absent n hh]
    exact .refl l h up s

/-- A width change is asked of the link once every flit is acknowledged (08 R191). -/
theorem ran_widthChange {l : Nat} {s : State} (hl : l < 64) (ha : s.hopSt l 0 = hActive) (hw : widthCode (s.wantWidth l) ≠ s.rd F.KZL_STS_WIDTH l)
    (hd : s.drained l = true) : Ran (.widthChange l) s (fun t => t.rd F.KZL_STS_WIDTH l = widthCode (s.wantWidth l) ∧ (t.link8 l).chg = none ∧
      ctlOut s l 0 false (lcPay false false (widthCode (s.wantWidth l) + 1) 0) ∈ t.outs ∧ t.zn = s.zn ∧ t.die = s.die) := by
  let c : Nat := widthCode (s.wantWidth l)
  have hc : c < 4 := by
    show widthCode (s.wantWidth l) < 4
    unfold widthCode
    split <;> [decide; split <;> [decide; split <;> decide]]
  let a : State := ((s.putLink8 l { s.link8 l with chg := none }).linkCtl l 0 false (lcPay false false (c + 1) 0)).wr F.KZL_STS_WIDTH c l
  have haw : a.rd F.KZL_STS_WIDTH l = c := (State.rd_wr_same ..).trans (Nat.mod_eq_of_lt hc)
  have hac : (a.link8 l).chg = none := by rw [show a.link8 l = _ from State.link8_putLink8 ..]
  have hao : ctlOut s l 0 false (lcPay false false (c + 1) 0) ∈ a.outs := by
    have hhop : (s.putLink8 l { s.link8 l with chg := none }).hop l 0 = s.hop l 0 := by rw [State.hop_putLink8, State.hop]
    refine List.mem_append_right _ (List.mem_singleton.2 ?_)
    rw [ctlOut, flitOut, hhop]
  have haz : a.zn = s.zn ∧ a.die = s.die := ⟨rfl, rfl⟩
  have hrun : exec (.widthChange l) s = .next (State.pump l 0 false replayMax a).settleStep := by
    show execWidthChange l s = _
    unfold execWidthChange
    exact congrArg Host.Outcome.next ((if_neg (by simp [ha]; omega)).trans ((if_neg hw).trans (if_neg (by simp [hd]))))
  clear_value a
  have hp := State.pump_sent (l := l) (h := 0) (up := false) replayMax a
  generalize State.pump l 0 false replayMax a = b at hp hrun
  have hset := State.settleStep_settle b
  generalize b.settleStep = t at hset hrun
  have hkz : t.kz = b.kz ∧ t.outs = b.outs ∧ t.zn = b.zn ∧ t.die = b.die := by rw [hset.frame]; exact ⟨rfl, rfl, rfl, rfl⟩
  obtain ⟨r, hr⟩ := hp.outs
  refine ⟨t, hrun, (hset.regs F.KZL_STS_WIDTH l 0 0 (by decide)).trans ((hp.regs F.KZL_STS_WIDTH l 0 0 (by decide)).trans haw), ?_, ?_,
    hkz.2.2.1.trans (hp.keeps.1.trans haz.1), hkz.2.2.2.trans (hp.keeps.2.trans haz.2)⟩
  · rw [State.link8_of_kz hkz.1, hp.chg, hac]
  · rw [hkz.2.1, hr]
    exact List.mem_append_left _ hao

/-- Settles O24. -/
theorem kazronHopsComplete : Obligations.KazronHopsComplete := by
  unfold Obligations.KazronHopsComplete
  refine ⟨fun l h lanes extra s hok ht hw hh hc => ran_trainingDone hok ht hw hh hc,
    fun l h s hok ht hh => ⟨fun hr hf => ran_trainingFail hok ht hh hr hf, fun hr hb hd => ran_trainingBreak hok ht hr hb hd⟩,
    fun l h s hok hd he hh hi hu => ?_, fun l h up s hok hu hh hq he h1 h2 hw hw0 hr ho hi => ran_quietEntry hok hu hh hq he h1 h2 hw hw0 hr ho hi,
    fun l h up ok s hok hu hh hq => ran_burstStart hok hu hh hq,
    fun l h up s hok hh hq hk => ⟨ran_keepalive hok hh hq hk, fun hu hs => ran_keepaliveLost hok hh hq hk hu hs⟩,
    fun l h up s hok hu hh => ran_flitLockLoss hok hu hh, fun l h up s hok hu hr hp hb hd => ?_, fun l h s hok h1 ha hb hd => ?_,
    fun l s hl ha hw => ⟨fun hd => ran_widthChange hl ha hw hd, fun hd => ?_⟩⟩
  · have hset := State.setHop_hops s l h hReset
    have hhop := State.hop_setHop hh hReset
    have hst := State.hopSt_setHop s l h (v := hReset) (by decide)
    have hrun : exec (.hopRetrain l h) s = .next (s.setHop l h hReset) :=
      congrArg Host.Outcome.next (if_pos (by simp [hok, hd, he, hi]; simpa using hu))
    generalize s.setHop l h hReset = t at hset hhop hst hrun
    refine ⟨t, hrun, hst, hhop, ?_, ?_⟩ <;> rw [hset.frame] <;> rfl
  · obtain ⟨hbk, hz⟩ := State.breakHop_spec hb hd
    exact ⟨s.breakHop l h, congrArg Host.Outcome.next (if_pos (by simp [hok, hu, hr, hp])), hbk, congrArg (·.ud) hz⟩
  · obtain ⟨hbk, hz⟩ := State.breakHop_spec hb hd
    exact ⟨s.breakHop l h, congrArg Host.Outcome.next (if_pos (by simp only [hok, h1, ha, decide_true, Bool.and_self])), hbk, congrArg (·.ud) hz⟩
  · exact ⟨_, congrArg Host.Outcome.next ((if_neg (by simp [ha]; omega)).trans ((if_neg hw).trans (if_pos (by simp [hd])))), rfl⟩

end Sys2Proof.Machine
end


section
/-! O25: flits of a Kazron link (08 R184, R185, R192–R196, R206). -/

namespace Sys2Proof.Machine

/-- A header word's fields (08 R193). -/
theorem flitHdr_fields {ty br tag seq ack : Nat} (last : Bool) (ht : ty < 8) (hb : br < 4) (hg : tag < 512) (hs : seq < 256) (ha : ack < 256) :
    bits (flitHdr ty br last tag seq ack) 28 4 = ty ∧ bits (flitHdr ty br last tag seq ack) 26 2 = br ∧ bit (flitHdr ty br last tag seq ack) 25 = last ∧
    bits (flitHdr ty br last tag seq ack) 16 9 = tag ∧ bits (flitHdr ty br last tag seq ack) 8 8 = seq ∧ cut 8 (flitHdr ty br last tag seq ack) = ack ∧
    flitHdr ty br last tag seq ack < 2 ^ 31 := by
  have hl : b2n last = 0 ∧ last = false ∨ b2n last = 1 ∧ last = true := by cases last <;> simp [b2n]
  unfold flitHdr bits bit cut
  rw [Nat.testBit_eq_decide_div_mod_eq]
  generalize b2n last = n at hl
  norm_num
  rcases hl with ⟨rfl, rfl⟩ | ⟨rfl, rfl⟩
  · exact ⟨by omega, by omega, decide_eq_false (by omega), by omega, by omega, by omega, by omega⟩
  · exact ⟨by omega, by omega, decide_eq_true (by omega), by omega, by omega, by omega, by omega⟩

/-- Flits before the one that is named are dropped. -/
theorem dropWhile_seq {pre post : List Flit} {f : Flit} {q : Nat} (hf : f.seq = q) (hp : ∀ g ∈ pre, g.seq ≠ q) :
    (pre ++ f :: post).dropWhile (fun f => f.seq != q) = f :: post := by
  rw [List.dropWhile_append_of_pos (fun g hg => by simpa using hp g hg), List.dropWhile_cons_of_neg (by simp [hf])]

theorem LDir.acked_eq {d : LDir} {pre post : List Flit} {f : Flit} {ack : Nat} (hr : d.replay = pre ++ f :: post) (hf : f.seq = ack)
    (hp : ∀ g ∈ pre, g.seq ≠ ack) (now : Nat) : (d.acked ack now).replay = post ∧ (d.acked ack now).out = d.out := by
  unfold LDir.acked
  rw [hr, dropWhile_seq hf hp]
  exact ⟨rfl, rfl⟩

namespace State
variable {s : State}

/-! ### Flits that are sent again (08 R196) -/

theorem here_of_replay {l h : Nat} {up : Bool} (hr : ((s.hop l h).dir up).replay ≠ []) : h < (s.link8 l).hops.length := by
  by_contra hh
  refine hr ?_
  rw [hop, List.getD_eq_default _ _ (Nat.le_of_not_lt hh)]
  cases up <;> rfl

theorem sendFlits_eq {l h : Nat} {up : Bool} (fs : List Flit) (s : State) :
    fs.foldl (fun (s : State) f => s.sendFlit l h up f) s = { s with outs := s.outs ++ fs.map (flitOut s l h up) } := by
  induction fs generalizing s with
  | nil => simp
  | cons f fs ih =>
    rw [List.foldl_cons, ih]
    have hf : flitOut (s.sendFlit l h up f) l h up = flitOut s l h up := rfl
    rw [hf]
    show ({ s with outs := (s.outs ++ [flitOut s l h up f]) ++ fs.map (flitOut s l h up) } : State) = _
    rw [List.map_cons, List.append_assoc]
    rfl

/-- A replay from a flit that is kept sends it and those after it, and counts. -/
theorem replayFrom_spec {l h q : Nat} {up : Bool} {pre post : List Flit} {f : Flit} (hr : ((s.hop l h).dir up).replay = pre ++ f :: post) (hf : f.seq = q)
    (hp : ∀ g ∈ pre, g.seq ≠ q) : (s.replayFrom l h up q).outs = s.outs ++ (f :: post).map (flitOut s l h up) ∧
      (s.replayFrom l h up q).rd F.KZL_REPLAY_CNT_REPLAY l = sat F.KZL_REPLAY_CNT_REPLAY.w (s.rd F.KZL_REPLAY_CNT_REPLAY l + 1) ∧
      s.replayFrom l h up q = { s with regs := (s.replayFrom l h up q).regs, kz := (s.replayFrom l h up q).kz, outs := (s.replayFrom l h up q).outs } := by
  have hne : ((s.hop l h).dir up).replay ≠ [] := by rw [hr]; simp
  have hh := here_of_replay hne
  have hdw : ((s.hop l h).dir up).replay.dropWhile (fun f => f.seq != q) = f :: post := hr ▸ dropWhile_seq hf hp
  let a : State := (s.inc F.KZL_REPLAY_CNT_REPLAY l).putHop l h ((s.hop l h).putDir up { (s.hop l h).dir up with ackAt := s.el })
  have hhop : a.hop l h = (s.hop l h).putDir up { (s.hop l h).dir up with ackAt := s.el } := hop_putHop (s := s.inc F.KZL_REPLAY_CNT_REPLAY l) hh _
  have hack : (a.hop l h).ack up = (s.hop l h).ack up := by rw [hhop, Hop.ack, Hop.dir_putDir_not, Hop.ack]
  have hout : flitOut a l h up = flitOut s l h up := by
    funext f
    rw [flitOut, flitOut, hack]
  have heq : s.replayFrom l h up q = { a with outs := a.outs ++ (f :: post).map (flitOut s l h up) } := by
    rw [← hout, ← sendFlits_eq (up := up) (f :: post) a, replayFrom]
    dsimp only
    rw [if_neg (by simpa using hne), hdw]
    rfl
  rw [heq]
  exact ⟨rfl, (rd_inc_same ..).trans (cut_sat ..), rfl⟩

/-! ### A receiver takes a flit (08 R192) -/

/-- The bytes that were corrected are counted (08 R206). -/
def countErrs (s : State) (l h : Nat) (up : Bool) (lanes : List Nat) (errs : List Nat) : State :=
  let s := if errs.isEmpty then s else s.inc F.KZL_FEC_CNT_CORR l
  if up && h = 0 then errs.foldl (fun (s : State) i => s.inc F.KZL_LANE_SYMERR l (lanes.getD (i % lanes.length) 0)) s else s

/-- Counting corrections changes registers alone. -/
def Scope.errs : Scope where
  merge s t := { s with regs := t.regs }
  fields := [F.KZL_FEC_CNT_CORR, F.KZL_LANE_SYMERR]

theorem countErrs_errs (s : State) (l h : Nat) (up : Bool) (lanes errs : List Nat) : Only Scope.errs.bound s (s.countErrs l h up lanes errs) := by
  unfold countErrs
  exact .after (.ite (.foldl fun _ _ => .inc (by decide) ..) (.refl _)) (.ite (.refl _) (.inc (by decide) ..))

theorem countErrs_none (s : State) (l h : Nat) (up : Bool) (lanes : List Nat) : s.countErrs l h up lanes [] = s := ite_self _

/-- What a receiver does with a whole flit. -/
def readFlit (s : State) (l h : Nat) (up : Bool) (f : FlitRx) : State :=
  if f.ok && leAt f.data 0 4 < 2 ^ 31 then s.acceptFlit l h up (leAt f.data 0 4) ((f.data.drop 4).take 240)
  else
    let s := s.nakFrom l h up
    let p := s.hop l h
    s.putHop l h (p.putDir up { p.dir up with seenAt := s.el, good := 0 })

theorem FlitIn.runs_eq {l h : Nat} {up : Bool} {sym : List (List Int)} {f : FlitRx} (hf : FlitIn s l h up sym f) : ∃ (scr : List Nat) (rest : List (List Int)) (part : Option Nat),
    exec (.flitReceive l h up sym) s = .next (((s.putHop l h ((s.hop l h).putDir up { (s.hop l h).dir up with scr := scr, sym := rest, part := part })).countErrs l h up
      (s.runLanes l h) f.errs).readFlit l h up f) := by
  obtain ⟨hok, hu, hh, hl, hw, hr⟩ := hf
  have hany : (symbols s l h up sym).any (fun a => decide (a.length < flitUi (s.runLanes l h).length)) = false :=
    List.any_eq_false.2 fun a ha => by simpa using hw a ha
  unfold symbols at hany hr
  show ∃ (scr : List Nat) (rest : List (List Int)) (part : Option Nat), execFlitReceive l h up sym s = _
  unfold execFlitReceive
  dsimp only
  rw [if_neg (by simp [hok, hu, hl]), hany, if_neg Bool.false_ne_true, hr]
  exact ⟨_, _, _, rfl⟩

theorem pump_idle {l h : Nat} {up : Bool} (n : Nat) (ho : ((s.hop l h).dir up).out = []) : State.pump l h up n s = s := by
  cases n with
  | zero => rfl
  | succ n =>
    rw [pump, ho]
    exact ite_self _

/-- A receiver that has accepted a flit in sequence. -/
def stepped (x : LDir) (now : Nat) : LDir :=
  { x with seenAt := now, good := min 4 (x.good + 1), lock := x.lock || x.good + 1 ≥ 4, rx := (x.rx + 1) % 256, nak := false, progAt := now }

/-- A flit in sequence moves the receiver on, and its ACK frees what the other direction keeps. -/
def acceptedHop (s : State) (l h : Nat) (up : Bool) (ack : Nat) : State :=
  s.putHop l h (((s.hop l h).putDir up (stepped ((s.hop l h).dir up) s.el)).putDir (!up) (((s.hop l h).dir (!up)).acked ack s.el))

/-- A flit in sequence toward the bridges that is not to be forwarded (08 R193). -/
theorem acceptFlit_down {l h ty br tag ack : Nat} {last : Bool} {pay : List Nat} (hh : h < (s.link8 l).hops.length) (h1 : 1 ≤ ty) (h5 : ty < 5) (hb : br ≤ h)
    (h4 : h < 4) (hg : tag < 512) (ha : ack < 256) (hx : (s.hop l h).dn.rx < 256) (ho : ((s.hop l h).up.acked ack s.el).out = []) :
    s.acceptFlit l h false (flitHdr ty br last tag (s.hop l h).dn.rx ack) pay = s.acceptedHop l h false ack := by
  obtain ⟨k₁, k₂, k₃, k₄, k₅, k₆, -⟩ := flitHdr_fields (ty := ty) (br := br) (tag := tag) (seq := (s.hop l h).dn.rx) (ack := ack) last (by omega) (by omega) hg hx ha
  have hsq : sequenced ty = true := by
    unfold sequenced
    rw [bne_iff_ne.2 (show ty ≠ 0 by omega), bne_iff_ne.2 (show ty ≠ 5 by omega)]
    rfl
  have hhop : (s.acceptedHop l h false ack).hop l h = _ := hop_putHop hh _
  have hfwd : (s.acceptedHop l h false ack).forward l h false ty br tag last pay = s.acceptedHop l h false ack := by
    unfold forward
    rw [if_neg (by simp; omega), if_neg (by simp)]
  have hpump : State.pump l h true replayMax (s.acceptedHop l h false ack) = s.acceptedHop l h false ack := by
    refine pump_idle _ ?_
    rw [hhop]
    exact ho
  unfold acceptFlit
  simp only [k₁, k₂, k₃, k₄, k₅, k₆, hsq, Hop.dir, Bool.true_and, Bool.not_true, Bool.false_and, Bool.and_false, Bool.not_false, if_true,
    if_neg Bool.false_ne_true, decide_true, if_neg (show ty ≠ 5 by omega)]
  show State.pump l h true replayMax ((s.acceptedHop l h false ack).forward l h false ty br tag last pay) = _
  rw [hfwd, hpump]

/-- The last READ DATA flit of a tag that is free, in sequence at the controller (08 R194). -/
theorem acceptFlit_stray {l br tag ack : Nat} {pay : List Nat} (hb : br < 4) (hg : tag < 512) (ha : ack < 256)
    (hx : (s.hop l 0).up.rx < 256) (ht : Tab.find tag (s.link8 l).tags = none) :
    s.acceptFlit l 0 true (flitHdr 3 br true tag (s.hop l 0).up.rx ack) pay =
      State.pump l 0 false replayMax ((s.acceptedHop l 0 true ack).inc F.KZL_REPLAY_CNT_STRAY l) := by
  obtain ⟨k₁, k₂, k₃, k₄, k₅, k₆, -⟩ := flitHdr_fields (ty := 3) (br := br) (tag := tag) (seq := (s.hop l 0).up.rx) (ack := ack) true (by omega) hb hg hx ha
  have htag : Tab.find tag ((s.acceptedHop l 0 true ack).link8 l).tags = none := by
    rw [show (s.acceptedHop l 0 true ack).link8 l = _ from link8_putHop ..]
    exact ht
  have hfwd : (s.acceptedHop l 0 true ack).forward l 0 true 3 br tag true pay = s.acceptedHop l 0 true ack := by
    unfold forward
    rw [if_neg (by simp), if_neg (by simp)]
  have hdel : (s.acceptedHop l 0 true ack).deliver l 3 tag true pay = (s.acceptedHop l 0 true ack).inc F.KZL_REPLAY_CNT_STRAY l := by
    unfold deliver tagEnd
    rw [if_neg (by decide), if_pos (by decide), htag]
  have hsq : sequenced 3 = true := rfl
  unfold acceptFlit
  simp only [k₁, k₂, k₃, k₄, k₅, k₆, hsq, Hop.dir, Bool.true_and, Bool.not_true, Bool.false_and, if_true,
    if_neg Bool.false_ne_true, decide_true, if_neg (show (3 : Nat) ≠ 5 by omega)]
  show State.pump l 0 false replayMax (((s.acceptedHop l 0 true ack).forward l 0 true 3 br tag true pay).deliver l 3 tag true pay) = _
  rw [hfwd, hdel]

/-- A flit that is rejected is answered with one NAK (08 R196). -/
theorem nakFrom_spec {l h : Nat} {up : Bool} (hh : h < (s.link8 l).hops.length) (hn : ((s.hop l h).dir up).nak = false) :
    (s.nakFrom l h up).outs = s.outs ++ [ctlOut s l h (!up) (lcPay true false 0 ((s.hop l h).dir up).rx)] ∧ (s.nakFrom l h up).regs = s.regs ∧
    ((s.nakFrom l h up).hop l h).dir up = { (s.hop l h).dir up with nak := true } ∧ ((s.nakFrom l h up).link8 l).hops.length = (s.link8 l).hops.length := by
  let a : State := s.linkCtl l h (!up) (lcPay true false 0 ((s.hop l h).dir up).rx)
  have heq : s.nakFrom l h up = a.putHop l h ((s.hop l h).putDir up { (s.hop l h).dir up with nak := true }) := by
    unfold nakFrom
    exact if_neg (by rw [hn]; exact Bool.false_ne_true)
  rw [heq]
  refine ⟨rfl, rfl, ?_, ?_⟩
  · rw [hop_putHop (s := a) hh, Hop.dir_putDir]
  · rw [link8_putHop]
    exact List.length_set ..

/-- The state of a receiver that has taken a flit's symbols. -/
theorem taken_spec {l h : Nat} {up : Bool} (hh : h < (s.link8 l).hops.length) (d : LDir) (lanes errs : List Nat) :
    let t := (s.putHop l h ((s.hop l h).putDir up d)).countErrs l h up lanes errs
    t.hop l h = (s.hop l h).putDir up d ∧ (t.link8 l).hops.length = (s.link8 l).hops.length ∧ (t.link8 l).tags = (s.link8 l).tags ∧
    t.outs = s.outs ∧ t.zn = s.zn ∧ t.die = s.die ∧ t.el = s.el ∧ Keeps s t [F.KZL_FEC_CNT_CORR, F.KZL_LANE_SYMERR] := by
  have hp : (s.putHop l h ((s.hop l h).putDir up d)).hop l h = (s.hop l h).putDir up d := hop_putHop hh _
  have hk := link8_putHop s l h ((s.hop l h).putDir up d)
  have ho : (s.putHop l h ((s.hop l h).putDir up d)).outs = s.outs ∧ (s.putHop l h ((s.hop l h).putDir up d)).zn = s.zn ∧
    (s.putHop l h ((s.hop l h).putDir up d)).die = s.die ∧ (s.putHop l h ((s.hop l h).putDir up d)).el = s.el := ⟨rfl, rfl, rfl, rfl⟩
  have hr : Keeps s (s.putHop l h ((s.hop l h).putDir up d)) [] := fun _ _ _ _ _ => rfl
  generalize s.putHop l h ((s.hop l h).putDir up d) = m at hp hk ho hr ⊢
  have he := countErrs_errs m l h up lanes errs
  dsimp only
  generalize m.countErrs l h up lanes errs = t at he ⊢
  have hf : t.kz = m.kz ∧ t.outs = m.outs ∧ t.zn = m.zn ∧ t.die = m.die ∧ t.el = m.el := by rw [he.frame]; exact ⟨rfl, rfl, rfl, rfl, rfl⟩
  obtain ⟨f₁, f₂, f₃, f₄, f₅⟩ := hf
  obtain ⟨o₁, o₂, o₃, o₄⟩ := ho
  refine ⟨(hop_of_kz f₁ l h).trans hp, ?_, ?_, f₂.trans o₁, f₃.trans o₂, f₄.trans o₃, f₅.trans o₄, fun g i j p hg => ?_⟩
  · rw [link8_of_kz f₁, hk]
    exact List.length_set ..
  · rw [link8_of_kz f₁, hk]
  · exact (he.regs g i j p hg).trans (hr g i j p fun _ hk => nomatch hk)

end State

open State in
/-- A whole flit that the FEC or the CRC rejects (08 R192, R196). -/
theorem ran_flitRejected {l h : Nat} {up : Bool} {sym : List (List Int)} {f : FlitRx} {s : State} (hf : FlitIn s l h up sym f)
    (hn : ((s.hop l h).dir up).nak = false) (hbad : f.ok = false ∨ 2 ^ 31 ≤ leAt f.data 0 4) : Ran (.flitReceive l h up sym) s (fun t =>
      t.outs = s.outs ++ [ctlOut s l h (!up) (lcPay true false 0 ((s.hop l h).dir up).rx)] ∧
      ((t.hop l h).dir up).nak = true ∧ ((t.hop l h).dir up).rx = ((s.hop l h).dir up).rx ∧ Keeps s t [F.KZL_FEC_CNT_CORR, F.KZL_LANE_SYMERR]) := by
  obtain ⟨scr, rest, part, hrun⟩ := FlitIn.runs_eq hf
  let d : LDir := { (s.hop l h).dir up with scr := scr, sym := rest, part := part }
  obtain ⟨k₁, k₂, -, k₄, -, -, -, k₈⟩ := taken_spec (up := up) hf.here d (s.runLanes l h) f.errs
  generalize (s.putHop l h ((s.hop l h).putDir up d)).countErrs l h up (s.runLanes l h) f.errs = m at k₁ k₂ k₄ k₈ hrun
  have hmd : (m.hop l h).dir up = d := by rw [k₁, Hop.dir_putDir]
  have hmh : h < (m.link8 l).hops.length := by rw [k₂]; exact hf.here
  have hno : (f.ok && decide (leAt f.data 0 4 < 2 ^ 31)) = false := by
    rcases hbad with hb | hb
    · rw [hb]; rfl
    · rw [decide_eq_false (by omega), Bool.and_false]
  obtain ⟨hout, hreg, n₂, n₃⟩ := nakFrom_spec hmh (show ((m.hop l h).dir up).nak = false by rw [hmd]; exact hn)
  have hctl : ctlOut m l h (!up) (lcPay true false 0 ((m.hop l h).dir up).rx) = ctlOut s l h (!up) (lcPay true false 0 ((s.hop l h).dir up).rx) := by
    rw [ctlOut, ctlOut, flitOut, flitOut, Hop.ack, Hop.ack, Bool.not_not, hmd, k₁, Hop.dir_putDir_not]
  have hread : m.readFlit l h up f = (m.nakFrom l h up).putHop l h (((m.nakFrom l h up).hop l h).putDir up
      { ((m.nakFrom l h up).hop l h).dir up with seenAt := (m.nakFrom l h up).el, good := 0 }) := by
    unfold readFlit
    rw [hno, if_neg Bool.false_ne_true]
  rw [hread] at hrun
  generalize m.nakFrom l h up = r at n₂ n₃ hout hreg hrun
  refine ⟨_, hrun, ?_, ?_, ?_, fun g i j p hg => ?_⟩
  · exact hout.trans (by rw [hctl, k₄])
  · rw [hop_putHop (by rw [n₃]; exact hmh), Hop.dir_putDir, n₂]
  · rw [hop_putHop (by rw [n₃]; exact hmh), Hop.dir_putDir, n₂, hmd]
  · rw [← k₈ g i j p hg, State.rd, State.rd, ← hreg]
    rfl

open State in
/-- A flit in sequence toward the bridges advances the receiver and frees what its ACK names (08 R193, R196). -/
theorem ran_flitAccepted {l h ty br tag ack : Nat} {last : Bool} {sym : List (List Int)} {f : FlitRx} {g : Flit} {pre post : List Flit} {s : State}
    (hf : FlitIn s l h false sym f) (hok : f.ok = true) (he : f.errs = []) (h1 : 1 ≤ ty) (h5 : ty < 5) (hb : br ≤ h) (hg : tag < 512) (ha : ack < 256)
    (hx : (s.hop l h).dn.rx < 256) (hhdr : leAt f.data 0 4 = flitHdr ty br last tag (s.hop l h).dn.rx ack) (hr : (s.hop l h).up.replay = pre ++ g :: post)
    (hs : g.seq = ack) (hp : ∀ g ∈ pre, g.seq ≠ ack) (ho : (s.hop l h).up.out = []) (h4 : h < 4) : Ran (.flitReceive l h false sym) s (fun t =>
      (t.hop l h).dn.rx = ((s.hop l h).dn.rx + 1) % 256 ∧ (t.hop l h).dn.nak = false ∧ (t.hop l h).dn.progAt = s.el ∧
      (t.hop l h).up.replay = post ∧ (t.hop l h).dn.replay = (s.hop l h).dn.replay ∧ t.outs = s.outs ∧ t.regs = s.regs) := by
  obtain ⟨scr, rest, part, hrun⟩ := FlitIn.runs_eq hf
  let d : LDir := { (s.hop l h).dir false with scr := scr, sym := rest, part := part }
  have hm : (s.putHop l h ((s.hop l h).putDir false d)).hop l h = (s.hop l h).putDir false d := hop_putHop hf.here _
  have hmh : h < ((s.putHop l h ((s.hop l h).putDir false d)).link8 l).hops.length := by
    rw [link8_putHop]
    exact (List.length_set ..).symm ▸ hf.here
  have hmo : (s.putHop l h ((s.hop l h).putDir false d)).outs = s.outs ∧ (s.putHop l h ((s.hop l h).putDir false d)).regs = s.regs ∧
    (s.putHop l h ((s.hop l h).putDir false d)).el = s.el := ⟨rfl, rfl, rfl⟩
  rw [he, countErrs_none] at hrun
  generalize s.putHop l h ((s.hop l h).putDir false d) = m at hm hmh hmo hrun
  have hmx : (m.hop l h).dn.rx = (s.hop l h).dn.rx := by rw [hm]; rfl
  have hmu : (m.hop l h).up = (s.hop l h).up := by rw [hm]; rfl
  have hbnd := (flitHdr_fields (ty := ty) (br := br) (tag := tag) (seq := (s.hop l h).dn.rx) (ack := ack) last (by omega) (by omega) hg hx ha).2.2.2.2.2.2
  obtain ⟨a₁, a₂⟩ := LDir.acked_eq (d := (m.hop l h).up) (by rw [hmu]; exact hr) hs hp m.el
  have hread : m.readFlit l h false f = m.acceptedHop l h false ack := by
    unfold readFlit
    rw [if_pos (by rw [hok, hhdr, decide_eq_true hbnd]; rfl), hhdr, ← hmx]
    exact acceptFlit_down hmh h1 h5 hb h4 hg ha (by rw [hmx]; exact hx) (a₂.trans (by rw [hmu]; exact ho))
  rw [hread] at hrun
  have hhop : (m.acceptedHop l h false ack).hop l h = _ := hop_putHop hmh _
  refine ⟨_, hrun, ?_, ?_, ?_, ?_, ?_, hmo.1, hmo.2.1⟩ <;> rw [hhop]
  · exact congrArg (fun n => (n + 1) % 256) hmx
  · rfl
  · exact hmo.2.2
  · exact a₁
  · show (m.hop l h).dn.replay = _
    rw [hm]
    rfl

open State in
/-- READ DATA for a tag that is free is a stray (08 R194). -/
theorem ran_flitStray {l br tag ack : Nat} {sym : List (List Int)} {f : FlitRx} {s : State} (hf : FlitIn s l 0 true sym f) (hok : f.ok = true)
    (he : f.errs = []) (hb : br < 4) (hg : tag < 512) (ha : ack < 256) (hx : (s.hop l 0).up.rx < 256)
    (hhdr : leAt f.data 0 4 = flitHdr 3 br true tag (s.hop l 0).up.rx ack) (ht : Tab.find tag (s.link8 l).tags = none) :
    Ran (.flitReceive l 0 true sym) s (fun t => (t.hop l 0).up.rx = ((s.hop l 0).up.rx + 1) % 256 ∧
      t.rd F.KZL_REPLAY_CNT_STRAY l = sat F.KZL_REPLAY_CNT_STRAY.w (s.rd F.KZL_REPLAY_CNT_STRAY l + 1) ∧ t.zn = s.zn ∧ t.die = s.die) := by
  obtain ⟨scr, rest, part, hrun⟩ := FlitIn.runs_eq hf
  let d : LDir := { (s.hop l 0).dir true with scr := scr, sym := rest, part := part }
  have hm : (s.putHop l 0 ((s.hop l 0).putDir true d)).hop l 0 = (s.hop l 0).putDir true d := hop_putHop hf.here _
  have hlk := link8_putHop s l 0 ((s.hop l 0).putDir true d)
  have hmo : (s.putHop l 0 ((s.hop l 0).putDir true d)).zn = s.zn ∧ (s.putHop l 0 ((s.hop l 0).putDir true d)).regs = s.regs ∧
    (s.putHop l 0 ((s.hop l 0).putDir true d)).die = s.die := ⟨rfl, rfl, rfl⟩
  rw [he, countErrs_none] at hrun
  generalize s.putHop l 0 ((s.hop l 0).putDir true d) = m at hm hlk hmo hrun
  have hmh : 0 < (m.link8 l).hops.length := by
    rw [hlk]
    exact (List.length_set ..).symm ▸ hf.here
  have hmx : (m.hop l 0).up.rx = (s.hop l 0).up.rx := by rw [hm]; rfl
  have hbnd := (flitHdr_fields (ty := 3) (br := br) (tag := tag) (seq := (s.hop l 0).up.rx) (ack := ack) true (by omega) hb hg hx ha).2.2.2.2.2.2
  have hread : m.readFlit l 0 true f = State.pump l 0 false replayMax ((m.acceptedHop l 0 true ack).inc F.KZL_REPLAY_CNT_STRAY l) := by
    unfold readFlit
    rw [if_pos (by rw [hok, hhdr, decide_eq_true hbnd]; rfl), hhdr, ← hmx]
    exact acceptFlit_stray hb hg ha (by rw [hmx]; exact hx) (by rw [hlk]; exact ht)
  rw [hread] at hrun
  have hhop : ((m.acceptedHop l 0 true ack).inc F.KZL_REPLAY_CNT_STRAY l).hop l 0 = _ := hop_putHop hmh _
  have hcnt : ((m.acceptedHop l 0 true ack).inc F.KZL_REPLAY_CNT_STRAY l).rd F.KZL_REPLAY_CNT_STRAY l = sat F.KZL_REPLAY_CNT_STRAY.w (m.rd F.KZL_REPLAY_CNT_STRAY l + 1) :=
    (rd_inc_same ..).trans (cut_sat ..)
  have haz : ((m.acceptedHop l 0 true ack).inc F.KZL_REPLAY_CNT_STRAY l).zn = m.zn ∧ ((m.acceptedHop l 0 true ack).inc F.KZL_REPLAY_CNT_STRAY l).die = m.die := ⟨rfl, rfl⟩
  generalize (m.acceptedHop l 0 true ack).inc F.KZL_REPLAY_CNT_STRAY l = a at hhop hcnt haz hrun
  have hp := State.pump_sent (l := l) (h := 0) (up := false) replayMax a
  refine ⟨_, hrun, ?_, (hp.regs F.KZL_REPLAY_CNT_STRAY l 0 0 (by decide)).trans (hcnt.trans ?_), hp.keeps.1.trans (haz.1.trans hmo.1), hp.keeps.2.trans (haz.2.trans hmo.2.2)⟩
  · refine (congrArg LDir.rx hp.other).trans ?_
    rw [hhop]
    exact congrArg (fun n => (n + 1) % 256) hmx
  · rw [State.rd, hmo.2.1]
    rfl

open State in
/-- Symbols of a part of a flit are held (08 R196). -/
theorem ran_flitPart {l h : Nat} {up : Bool} {sym : List (List Int)} {a : List Int} {s : State} (hok : hopOk l h = true) (hu : s.hopUp l h = true)
    (hh : h < (s.link8 l).hops.length) (ha : a ∈ symbols s l h up sym) (hl : a.length < flitUi (s.runLanes l h).length) :
    Ran (.flitReceive l h up sym) s (fun t => ((t.hop l h).dir up).sym = symbols s l h up sym ∧ t.outs = s.outs ∧ t = { s with kz := t.kz }) := by
  have hlanes : (s.runLanes l h).isEmpty = false := by
    cases hn : s.runLanes l h with
    | nil =>
      rw [symbols, hn] at ha
      exact absurd ha List.not_mem_nil
    | cons => rfl
  have hany : (symbols s l h up sym).any (fun a => decide (a.length < flitUi (s.runLanes l h).length)) = true :=
    List.any_eq_true.2 ⟨a, ha, decide_eq_true hl⟩
  refine ⟨s.putHop l h ((s.hop l h).putDir up { (s.hop l h).dir up with
    sym := symbols s l h up sym, part := if (symbols s l h up sym).all (·.isEmpty) then none else some s.el }), ?_, ?_, rfl, rfl⟩
  · show execFlitReceive l h up sym s = _
    unfold execFlitReceive
    dsimp only
    rw [if_neg (by rw [hok, hu, hlanes]; exact Bool.false_ne_true)]
    exact congrArg Host.Outcome.next (if_pos hany)
  · rw [hop_putHop hh, Hop.dir_putDir]

open State in
/-- Part of a flit that stays so is discarded with a NAK (08 R196). -/
theorem ran_partialFlit {l h at0 : Nat} {up : Bool} {s : State} (hok : hopOk l h = true) (hu : s.hopUp l h = true) (hh : h < (s.link8 l).hops.length)
    (hp : ((s.hop l h).dir up).part = some at0) (ht : at0 + 128 / (s.runLanes l h).length ≤ s.el) : Ran (.partialFlitTimeout l h up) s (fun t =>
      (t.hop l h).dir up = { (s.hop l h).dir up with part := none, sym := [], nak := true } ∧
      t.outs = s.outs ++ [ctlOut s l h (!up) (lcPay true false 0 ((s.hop l h).dir up).rx)] ∧ t = { s with kz := t.kz, outs := t.outs }) := by
  let a : State := s.linkCtl l h (!up) (lcPay true false 0 ((s.hop l h).dir up).rx)
  refine ⟨a.putHop l h ((s.hop l h).putDir up { (s.hop l h).dir up with part := none, sym := [], nak := true }), ?_, ?_, rfl, rfl⟩
  · show execPartialFlitTimeout l h up s = _
    unfold execPartialFlitTimeout
    dsimp only
    rw [hp]
    exact congrArg Host.Outcome.next (if_pos (by rw [hok, hu, decide_eq_true ht]; rfl))
  · rw [hop_putHop (s := a) hh, Hop.dir_putDir]

/-- The bridges' counts are added (08 R206). -/
theorem ran_bridgeCounters {l : Nat} (corr replay stray lock : Nat) {s : State} (hl : l < 64) : Ran (.bridgeCounterCollect l corr replay stray lock) s (fun t =>
      t = { s with regs := t.regs } ∧
      t.rd F.KZL_FEC_CNT_CORR l = sat F.KZL_FEC_CNT_CORR.w (s.rd F.KZL_FEC_CNT_CORR l + corr) ∧
      t.rd F.KZL_REPLAY_CNT_REPLAY l = sat F.KZL_REPLAY_CNT_REPLAY.w (s.rd F.KZL_REPLAY_CNT_REPLAY l + replay) ∧
      t.rd F.KZL_REPLAY_CNT_STRAY l = sat F.KZL_REPLAY_CNT_STRAY.w (s.rd F.KZL_REPLAY_CNT_STRAY l + stray) ∧
      t.rd F.KZL_LOCK_CNT_LOCKLOSS l = sat F.KZL_LOCK_CNT_LOCKLOSS.w (s.rd F.KZL_LOCK_CNT_LOCKLOSS l + lock) ∧
      Keeps s t [F.KZL_FEC_CNT_CORR, F.KZL_REPLAY_CNT_REPLAY, F.KZL_REPLAY_CNT_STRAY, F.KZL_LOCK_CNT_LOCKLOSS]) := by
  refine ⟨(((s.inc F.KZL_FEC_CNT_CORR l 0 corr).inc F.KZL_REPLAY_CNT_REPLAY l 0 replay).inc F.KZL_REPLAY_CNT_STRAY l 0 stray).inc F.KZL_LOCK_CNT_LOCKLOSS l 0 lock,
    congrArg Host.Outcome.next (if_neg (by omega)), rfl, ?_, ?_, ?_, ?_, ?_⟩
  · simp (disch := decide) only [State.rd_inc_id, State.rd_inc_same, cut_sat]
  · simp (disch := decide) only [State.rd_inc_id, State.rd_inc_same, cut_sat]
  · simp (disch := decide) only [State.rd_inc_id, State.rd_inc_same, cut_sat]
  · simp (disch := decide) only [State.rd_inc_id, State.rd_inc_same, cut_sat]
  · exact (((Keeps.wr (f := F.KZL_FEC_CNT_CORR) (by decide) s _ _ _ _).trans (Keeps.wr (f := F.KZL_REPLAY_CNT_REPLAY) (by decide) _ _ _ _ _)).trans
      (Keeps.wr (f := F.KZL_REPLAY_CNT_STRAY) (by decide) _ _ _ _ _)).trans (Keeps.wr (f := F.KZL_LOCK_CNT_LOCKLOSS) (by decide) _ _ _ _ _)

/-- Settles O25. -/
theorem kazronFlitsComplete : Obligations.KazronFlitsComplete := by
  unfold Obligations.KazronFlitsComplete
  refine ⟨fun l h up sym a s hok hu hh ha hl => ran_flitPart hok hu hh ha hl, fun l h up sym f s hf hn hbad => ran_flitRejected hf hn hbad,
    fun l h ty br tag ack last sym f g pre post s hf hok he h1 h5 hb hg ha hx hhdr hr hs hp ho h4 =>
      ran_flitAccepted hf hok he h1 h5 hb hg ha hx hhdr hr hs hp ho h4,
    fun l br tag ack sym f s hf hok he hb hg ha hx hhdr ht => ran_flitStray hf hok he hb hg ha hx hhdr ht,
    fun l h seq up f pre post s hok hu hs hr hf hp => ?_, fun l h up s hok hu ha hr => ?_,
    fun l h at0 up s hok hu hh hp ht => ran_partialFlit hok hu hh hp ht, fun l corr replay stray lock s hl => ran_bridgeCounters corr replay stray lock hl⟩
  · have hcut : cut 8 seq = seq := Nat.mod_eq_of_lt hs
    refine ⟨s.replayFrom l h up seq, congrArg Host.Outcome.next ((if_pos (by rw [hok, hu]; rfl)).trans (by rw [hcut])), State.replayFrom_spec hr hf hp⟩
  · obtain ⟨f, post, hfs⟩ := List.exists_cons_of_ne_nil hr
    have hrun : exec (.replayTimeout l h up) s = .next (s.replayFrom l h up f.seq) := by
      refine congrArg Host.Outcome.next ((if_pos (by rw [hok, hu, decide_eq_true ha]; rfl)).trans ?_)
      rw [hfs]
      rfl
    rw [hfs]
    exact ⟨_, hrun, State.replayFrom_spec (pre := []) hfs rfl fun _ hg => absurd hg List.not_mem_nil⟩

end Sys2Proof.Machine
end


section
/-! SUPPORT. Requests of the DRAM channels, and what a burst's check bits say (15 R333, R334, R339–R341). -/

namespace Sys2Proof.Machine

namespace State
variable {s : State}

/-! ### Check bits (15 R339, R340) -/

/-- Counting, logging and reporting a burst's error. -/
def Scope.ecc : Scope where
  merge s t := { Scope.event.merge s t with ras := { (Scope.event.merge s t).ras with ce := t.ras.ce, ceSec := t.ras.ceSec } }
  fields := [F.DRC_ECC_ADDR_BURST, F.DRC_ECC_CNT_CE, F.DRC_ECC_CNT_UE, F.DRC_ECC_LOG_DEV, F.DRC_ECC_LOG_POISON, F.DRC_ECC_LOG_SYM, F.DRC_ECC_LOG_UE,
    F.DRC_ECC_LOG_VALID, F.RAS_CE_LOST_CNT, F.RAS_MEM_CNT_CE, F.RAS_MEM_CNT_UE] ++ eventFields

/-- The first error is logged, in registers. -/
def Scope.log : Scope where
  merge s t := { s with regs := t.regs }
  fields := [F.DRC_ECC_ADDR_BURST, F.DRC_ECC_LOG_DEV, F.DRC_ECC_LOG_POISON, F.DRC_ECC_LOG_SYM, F.DRC_ECC_LOG_UE, F.DRC_ECC_LOG_VALID]

theorem eccLog_log (s : State) (dpa : Nat) (ue dev poison : Bool) (sym : Nat) : Only Scope.log.bound s (s.eccLog dpa ue dev poison sym) := by
  unfold eccLog
  exact .ite (.refl _) (.after (.wr (by decide) ..) (.after (.wr (by decide) ..) (.after (.wr (by decide) ..) (.after (.wr (by decide) ..)
    (.after (.wr (by decide) ..) (.wr (by decide) ..))))))

theorem log_ecc {t : State} (h : Only Scope.log.bound s t) : Only Scope.ecc.bound s t := h.widen (d := Scope.ecc) (fun _ _ => rfl) (by decide)

theorem event_ecc {t : State} (h : Only .event s t) : Only Scope.ecc.bound s t := h.widen (d := Scope.ecc) (fun _ _ => rfl) (by decide)

theorem dramUe_ecc (s : State) (dpa : Nat) (dev : Bool) : Only Scope.ecc.bound s (s.dramUe dpa dev) := by
  unfold dramUe
  exact (event_ecc (Only.Event.raise ..)).after ((log_ecc (eccLog_log ..)).after (.after (.inc (by decide) ..) (.inc (by decide) ..)))

/-- An uncorrectable burst is counted and its address raised (15 R340). -/
theorem dramUe_spec {dpa : Nat} (dev : Bool) (hq : s.ras.evq.length < 1024) :
    (s.dramUe dpa dev).ras.evq = s.ras.evq ++ [EvEnt.mk s.tns evDramUe 0xFFFF s.ras.evSeq (dpa / 64 * 64)] ∧
    (s.dramUe dpa dev).rd F.DRC_ECC_CNT_UE (s.chOf dpa) = sat F.DRC_ECC_CNT_UE.w (s.rd F.DRC_ECC_CNT_UE (s.chOf dpa) + 1) := by
  let a : State := (s.inc F.DRC_ECC_CNT_UE (s.chOf dpa)).inc F.RAS_MEM_CNT_UE 13
  have hl := eccLog_log a dpa true dev (a.drc.poison.contains (dpa / 64)) 0
  have hc : a.rd F.DRC_ECC_CNT_UE (s.chOf dpa) = sat F.DRC_ECC_CNT_UE.w (s.rd F.DRC_ECC_CNT_UE (s.chOf dpa) + 1) :=
    (rd_inc_id _ _ _ _ _ _ _ _ _ (by decide)).trans ((rd_inc_same ..).trans (cut_sat ..))
  have ha : a.ras = s.ras ∧ a.tns = s.tns := ⟨rfl, rfl⟩
  show ((a.eccLog dpa true dev (a.drc.poison.contains (dpa / 64)) 0).raise evDramUe 0xFFFF (dpa / 64 * 64)).ras.evq = _ ∧
    ((a.eccLog dpa true dev (a.drc.poison.contains (dpa / 64)) 0).raise evDramUe 0xFFFF (dpa / 64 * 64)).rd F.DRC_ECC_CNT_UE (s.chOf dpa) = _
  generalize a.eccLog dpa true dev (a.drc.poison.contains (dpa / 64)) 0 = m at hl
  have hm : m.ras = a.ras ∧ m.tns = a.tns := by rw [hl.frame]; exact ⟨rfl, rfl⟩
  have hras : m.ras = s.ras := hm.1.trans ha.1
  refine ⟨?_, ?_⟩
  · rw [(m.raise_room evDramUe 0xFFFF (dpa / 64 * 64) (by rw [hras]; exact hq)).evq, hras, hm.2, ha.2]
  · exact ((Only.Event.raise m ..).regs F.DRC_ECC_CNT_UE _ 0 0 (by decide)).trans ((hl.regs F.DRC_ECC_CNT_UE _ 0 0 (by decide)).trans hc)

/-- The table of correctable errors and its events. -/
def Scope.ceTab : Scope where
  merge s t := { Scope.event.merge s t with ras := { (Scope.event.merge s t).ras with ce := t.ras.ce } }
  fields := F.RAS_CE_LOST_CNT :: eventFields

theorem event_ceTab {t : State} (h : Only .event s t) : Only Scope.ceTab.bound s t := h.widen (d := Scope.ceTab) (fun _ _ => rfl) (by decide)

theorem correctable_ceTab (s : State) (mem addr : Nat) : Only Scope.ceTab.bound (s.inc F.RAS_MEM_CNT_CE mem) (s.correctable mem addr) := by
  have hev (m : State) (c x : Nat) : Only Scope.ceTab.bound m (m.raise evCeHard 0xFFFF x) := event_ceTab (Only.Event.raise ..)
  unfold correctable
  dsimp only
  generalize s.inc F.RAS_MEM_CNT_CE mem = a
  split
  · split
    · exact (hev _ 0 _).after (Only.upd rfl)
    · exact Only.upd rfl
  · split
    · exact Only.inc (by decide) ..
    · split
      · exact (hev _ 0 _).after (Only.upd rfl)
      · exact Only.upd rfl

theorem ceTab_ecc {t : State} (h : Only Scope.ceTab.bound s t) : Only Scope.ecc.bound s t := h.widen (d := Scope.ecc) (fun _ _ => rfl) (by decide)

theorem dramCe_ecc (s : State) (dpa sym : Nat) : Only Scope.ecc.bound s (s.dramCe dpa sym) := by
  unfold dramCe
  exact (ceTab_ecc (correctable_ceTab ..)).after (.after (.inc (by decide) ..) (.after (Only.upd rfl) ((log_ecc (eccLog_log ..)).after (.inc (by decide) ..))))

/-- A corrected burst is counted, by channel and by memory, and for the rate check (15 R340; 20 R433, R434). -/
theorem dramCe_spec (s : State) (dpa sym : Nat) :
    (s.dramCe dpa sym).rd F.DRC_ECC_CNT_CE (s.chOf dpa) = sat F.DRC_ECC_CNT_CE.w (s.rd F.DRC_ECC_CNT_CE (s.chOf dpa) + 1) ∧
    (s.dramCe dpa sym).rd F.RAS_MEM_CNT_CE 13 = sat F.RAS_MEM_CNT_CE.w (s.rd F.RAS_MEM_CNT_CE 13 + 1) ∧
    (s.dramCe dpa sym).ras.ceSec = s.ras.ceSec + 1 := by
  let a : State := s.inc F.DRC_ECC_CNT_CE (s.chOf dpa)
  have hc : a.rd F.DRC_ECC_CNT_CE (s.chOf dpa) = sat F.DRC_ECC_CNT_CE.w (s.rd F.DRC_ECC_CNT_CE (s.chOf dpa) + 1) := (rd_inc_same ..).trans (cut_sat ..)
  have hm : a.rd F.RAS_MEM_CNT_CE 13 = s.rd F.RAS_MEM_CNT_CE 13 := rd_inc_id _ _ _ _ _ _ _ _ _ (by decide)
  have hl := eccLog_log a dpa false false false sym
  have hs : a.ras = s.ras := rfl
  unfold dramCe
  dsimp only
  rw [show s.inc F.DRC_ECC_CNT_CE (s.chOf dpa) = a from rfl]
  generalize a.eccLog dpa false false false sym = m at hl
  have hmr : m.ras = s.ras := by rw [hl.frame]; exact hs
  let b : State := { m with ras := { m.ras with ceSec := m.ras.ceSec + 1 } }
  have hb := correctable_ceTab b 13 (dpa / 64 * 64)
  have h13 : (b.inc F.RAS_MEM_CNT_CE 13).rd F.RAS_MEM_CNT_CE 13 = sat F.RAS_MEM_CNT_CE.w (m.rd F.RAS_MEM_CNT_CE 13 + 1) := (rd_inc_same ..).trans (cut_sat ..)
  have hce : (b.inc F.RAS_MEM_CNT_CE 13).rd F.DRC_ECC_CNT_CE (s.chOf dpa) = m.rd F.DRC_ECC_CNT_CE (s.chOf dpa) := rd_inc_id _ _ _ _ _ _ _ _ _ (by decide)
  have hsec : (b.inc F.RAS_MEM_CNT_CE 13).ras.ceSec = s.ras.ceSec + 1 := congrArg (fun r => r.ceSec + 1) hmr
  show (b.correctable 13 (dpa / 64 * 64)).rd _ _ = _ ∧ (b.correctable 13 (dpa / 64 * 64)).rd _ _ = _ ∧ (b.correctable 13 (dpa / 64 * 64)).ras.ceSec = _
  generalize b.correctable 13 (dpa / 64 * 64) = t at hb
  generalize b.inc F.RAS_MEM_CNT_CE 13 = u at hb h13 hce hsec
  refine ⟨?_, ?_, ?_⟩
  · rw [hb.regs F.DRC_ECC_CNT_CE _ 0 0 (by decide), hce, hl.regs F.DRC_ECC_CNT_CE _ 0 0 (by decide), hc]
  · rw [hb.regs F.RAS_MEM_CNT_CE 13 0 0 (by decide), h13, hl.regs F.RAS_MEM_CNT_CE 13 0 0 (by decide), hm]
  · rw [hb.frame]
    exact hsec

theorem readCheck_clean {dpa : Nat} (sym : Nat) (h : s.drc.poison.contains (dpa / 64) = false) : s.readCheck dpa 0 sym = (s, false) := by
  rw [readCheck, h]
  rfl

theorem readCheck_corrected {dpa : Nat} (sym : Nat) (h : s.drc.poison.contains (dpa / 64) = false) : s.readCheck dpa 1 sym = (s.dramCe dpa sym, false) := by
  rw [readCheck, h]
  rfl

theorem readCheck_bad {dpa err : Nat} (sym : Nat) (h : 2 ≤ err) : s.readCheck dpa err sym = (s.dramUe dpa (err = 3), true) := by
  rw [readCheck, if_pos (by rw [decide_eq_true h]; rfl)]

/-- What the owner of a burst may do. -/
def Scope.owner : Scope where
  merge s t := { s with
    regs := t.regs
    sl := { s.sl with ext := t.sl.ext, qs := t.sl.qs }
    ftl := { s.ftl with lines := t.ftl.lines }
    die := { s.die with corr := t.die.corr }
    drc := { s.drc with poison := t.drc.poison } }
  fields := [F.MCACHE_ERR_DATA_UE, F.LGR_SL_CHG_CHG, F.LGR_SL_NORM_N, F.PUP_PAR_LOG_VALID, F.PUP_PAR_LOG_MEM, F.PUP_PAR_LOG_ADDR]

theorem charge_owner (s : State) (slice : Nat) (q : Option Nat) (c : Nat) : Only Scope.owner.bound s (s.charge slice q c) := by
  have ha : Only Scope.owner.bound s ((s.addw F.LGR_SL_CHG_CHG c (if s.slState slice = slFree then 0 else slice))) := .addw (by decide) ..
  unfold charge
  dsimp only
  generalize (if s.slState slice = slFree then 0 else slice) = sl at ha ⊢
  have hp (m : State) (n : Nat) (x : SliceX) : Only Scope.owner.bound m (m.putSx n x) := Only.upd rfl
  split
  · exact (hp ..).after (.after (.wr (by decide) ..) ha)
  · split
    · exact (hp ..).after (.after (.wr (by decide) ..) ha)
    · exact .after (Only.upd rfl) ((hp ..).after (.after (.wr (by decide) ..) ha))

theorem regionUe_owner (s : State) (dpa region a b : Nat) : Only Scope.owner.bound s (s.regionUe dpa region a b) := by
  unfold regionUe
  split
  · have hi : Only Scope.owner.bound s (s.inc F.MCACHE_ERR_DATA_UE) := .inc (by decide) ..
    unfold lineUe
    dsimp only
    generalize s.inc F.MCACHE_ERR_DATA_UE = m at hi ⊢
    split
    · split
      · exact hi
      · split
        · exact .after (Only.upd rfl) hi
        · exact .after (Only.upd rfl) (.after (charge_owner ..) hi)
    · exact hi
  · exact .refl s
  · exact Only.upd rfl
  · exact .refl s
  · exact Only.upd rfl
  · unfold parLog
    exact .after (.ite (.refl _) (.after (.wr (by decide) ..) (.after (.wr (by decide) ..) (.wr (by decide) ..)))) (Only.upd rfl)
  · exact Only.upd rfl

/-! ### A channel's requests (15 R333, R334) -/

theorem dreqs_putDreqs_same (s : State) (ch : Nat) (l : List DReq) : (s.putDreqs ch l).dreqs ch = l := by
  show (Tab.find ch (if l.isEmpty then Tab.del ch s.drc.queue else Tab.put ch l s.drc.queue)).getD [] = l
  cases l with
  | nil => rw [List.isEmpty_nil, if_pos rfl, Tab.find_del_same]; rfl
  | cons => rw [if_neg (by simp), Tab.find_put_same]; rfl

theorem dreqs_putDreqs_ne (s : State) {ch c : Nat} (l : List DReq) (h : c ≠ ch) : (s.putDreqs ch l).dreqs c = s.dreqs c := by
  show (Tab.find c (if l.isEmpty then Tab.del ch s.drc.queue else Tab.put ch l s.drc.queue)).getD [] = (Tab.find c s.drc.queue).getD []
  split
  · rw [Tab.find_del_ne _ h]
  · rw [Tab.find_put_ne _ _ h]

/-- Where a device physical address stands follows from the configuration of DRAM alone (15 R331). -/
theorem place_keeps {t : State} {fs : List Fld} (h : Keeps s t fs) (h₁ : ∀ g ∈ fs, F.DRC_BANK_HASH_MASK.id ≠ g.id) (h₂ : ∀ g ∈ fs, F.DRC_CFG_DUAL.id ≠ g.id)
    (h₃ : ∀ g ∈ fs, F.DRC_CFG_X8.id ≠ g.id) (dpa : Nat) : t.chOf dpa = s.chOf dpa ∧ t.bankOf dpa = s.bankOf dpa ∧ t.rowOfDpa dpa = s.rowOfDpa dpa := by
  have hm (k : Nat) : t.rd F.DRC_BANK_HASH_MASK k = s.rd F.DRC_BANK_HASH_MASK k := h _ k 0 0 h₁
  have hd : t.rd F.DRC_CFG_DUAL = s.rd F.DRC_CFG_DUAL := h _ 0 0 0 h₂
  have hx : t.rd F.DRC_CFG_X8 = s.rd F.DRC_CFG_X8 := h _ 0 0 0 h₃
  have hc : t.chOf dpa = s.chOf dpa := by simp only [chOf, sel, hm]
  refine ⟨hc, ?_, ?_⟩
  · simp only [bankOf, rankOf, hc, sel, hm, hd]
  · simp only [rowOfDpa, colBits, hd, hx]

/-- A request that enters on a port and is not served yet. -/
theorem drcRequest_waits (s : State) (port dpa : Nat) (act : DAct) : s.drcRequest port dpa act 0 =
    s.putDreqs (s.chOf dpa) (s.dreqs (s.chOf dpa) ++ [⟨port, dpa, s.el, s.el + s.rd F.DRC_PORT_TGT_TGT_NS port, act⟩]) := rfl

/-- The channel after its only request was taken. -/
def islandTook (s : State) (r : DReq) : State := ((s.putDreqs (s.chOf r.dpa) [r]).putDreqs (s.chOf r.dpa) []).rowUsed r

theorem islandTook_eq (s : State) (r : DReq) :
    s.islandTook r = { s with drc := { s.drc with queue := (s.islandTook r).drc.queue, rows := (s.islandTook r).drc.rows, drain := (s.islandTook r).drc.drain } } := rfl

theorem islandTook_dreqs {r : DReq} (h : s.dreqs (s.chOf r.dpa) = []) (c : Nat) : (s.islandTook r).dreqs c = s.dreqs c := by
  show (((s.putDreqs (s.chOf r.dpa) [r]).putDreqs (s.chOf r.dpa) []).dreqs c) = s.dreqs c
  by_cases hc : c = s.chOf r.dpa
  · rw [hc, dreqs_putDreqs_same, h]
  · rw [dreqs_putDreqs_ne _ _ hc, dreqs_putDreqs_ne _ _ hc]

theorem islandTook_row (s : State) (r : DReq) : (s.islandTook r).openRow (s.bankOf r.dpa) = none := by
  let a : State := (s.putDreqs (s.chOf r.dpa) [r]).putDreqs (s.chOf r.dpa) []
  have hd : a.dreqs (a.chOf r.dpa) = [] := dreqs_putDreqs_same ..
  have hany : (a.drcCand (a.chOf r.dpa)).any (fun x => decide (a.bankOf x.dpa = a.bankOf r.dpa) && decide (a.rowOfDpa x.dpa = a.rowOfDpa r.dpa)) = false := by
    rw [drcCand, hd]
    rfl
  show (a.rowUsed r).openRow (a.bankOf r.dpa) = none
  unfold rowUsed openRow
  dsimp only
  rw [hany, if_neg Bool.false_ne_true]
  exact Tab.find_del_same ..

/-- A request that the island takes at once, none waiting before it. -/
theorem drcRequest_taken {dpa : Nat} (port : Nat) (act : DAct) (h : s.dreqs (s.chOf dpa) = []) : s.drcRequest port dpa act 1 =
    (s.islandTook ⟨port, dpa, s.el, s.el + s.rd F.DRC_PORT_TGT_TGT_NS port, act⟩).drcAct ⟨port, dpa, s.el, s.el + s.rd F.DRC_PORT_TGT_TGT_NS port, act⟩ := by
  let r : DReq := ⟨port, dpa, s.el, s.el + s.rd F.DRC_PORT_TGT_TGT_NS port, act⟩
  let a : State := s.putDreqs (s.chOf dpa) [r]
  have ha : a.dreqs (s.chOf dpa) = [r] := dreqs_putDreqs_same ..
  have hc : a.drcCand (s.chOf dpa) = [r] := by
    rw [drcCand, ha]
    cases hw : r.isWr <;> simp [hw, drcQueue]
  have hp : a.drcPick (s.chOf dpa) = some r := by rw [drcPick, hc]; rfl
  have hserve : a.drcServe (s.chOf dpa) = (((a.putDreqs (s.chOf dpa) []).rowUsed r).drcAct r) := by
    rw [drcServe, hp]
    simp only [ha, List.erase_cons_head]
  rw [drcRequest, h, List.nil_append]
  show State.drcServeN (s.chOf dpa) 1 a = _
  rw [drcServeN, ha]
  exact (if_neg (by simp)).trans (hserve.trans rfl)

end State
end Sys2Proof.Machine
end


section
/-! O44: DRAM refresh, temperature, activations and scrub (15 R335–R341). -/

namespace Sys2Proof.Machine

namespace State
variable {s : State}

theorem rank_putRank_same (s : State) (i : Nat) (r : Rank) : (s.putRank i r).rank i = r := by
  rw [rank, show Tab.find i (s.putRank i r).drc.ranks = some r from Tab.find_put_same ..]
  rfl

theorem rank_putRank_ne (s : State) {i k : Nat} (r : Rank) (h : k ≠ i) : (s.putRank i r).rank k = s.rank k := by
  rw [rank, rank, show Tab.find k (s.putRank i r).drc.ranks = Tab.find k s.drc.ranks from Tab.find_put_ne _ _ h]

/-- All-bank refreshes are commands alone. -/
theorem refreshes_all (ch rk n : Nat) (s : State) (hm : s.rd F.DRC_REF_CFG_MODE ≠ 0) : (List.range n).foldl (fun (s : State) _ => s.refreshOne ch rk) s =
    { s with outs := s.outs ++ List.replicate n (.dram ch "REFab" [rk]) } := by
  induction n with
  | zero => simp
  | succ n ih =>
    rw [List.range_succ, List.foldl_append, ih, List.foldl_cons, List.foldl_nil, List.replicate_succ', ← List.append_assoc]
    exact if_neg hm

/-! ### Activations (15 R337, R338) -/

/-- The bank's row is open, its table and rolling count as they are now. -/
def activated (s : State) (dpa : Nat) (t : List (Nat × Nat)) (n : Nat) : State :=
  { s with drc := { s.drc with
    act := Tab.put (s.bankOf dpa) t s.drc.act
    raa := Tab.put (s.bankOf dpa) n s.drc.raa
    rows := Tab.put (s.bankOf dpa) (s.rowOfDpa dpa, 0) s.drc.rows } }

theorem activated_spec (s : State) (dpa : Nat) (t : List (Nat × Nat)) (n : Nat) : Tab.find (s.bankOf dpa) (s.activated dpa t n).drc.act = some t ∧
    Tab.find (s.bankOf dpa) (s.activated dpa t n).drc.raa = some n ∧ (s.activated dpa t n).openRow (s.bankOf dpa) = some (s.rowOfDpa dpa, 0) :=
  ⟨Tab.find_put_same .., Tab.find_put_same .., Tab.find_put_same ..⟩

/-- An activation: what it leaves of the bank, and the Refresh Management it brings. -/
theorem activate_eq (s : State) (dpa : Nat) (due : Bool) : ∃ (t : List (Nat × Nat)), exec (.dramActivate dpa due) s = .next (
    let hit : Bool := (actTable (s.rowOfDpa dpa) ((Tab.find (s.bankOf dpa) s.drc.act).getD [])).2 ≥ s.rd F.DRC_REF_CFG_ACT_TH
    let a := s.activated dpa t (if due then 0 else (Tab.find (s.bankOf dpa) s.drc.raa).getD 0 + 1)
    let b := if hit then (a.rfm (s.chOf dpa) (s.bankOf dpa)).inc F.DRC_RFM_CNT_TABLE (s.chOf dpa) else a
    if due then (b.rfm (s.chOf dpa) (s.bankOf dpa)).inc F.DRC_RFM_CNT_RAA (s.chOf dpa) else b) ∧
    t = (if decide ((actTable (s.rowOfDpa dpa) ((Tab.find (s.bankOf dpa) s.drc.act).getD [])).2 ≥ s.rd F.DRC_REF_CFG_ACT_TH) then
      (actTable (s.rowOfDpa dpa) ((Tab.find (s.bankOf dpa) s.drc.act).getD [])).1.map (fun x => if x.1 = s.rowOfDpa dpa then (s.rowOfDpa dpa, 0) else x)
      else (actTable (s.rowOfDpa dpa) ((Tab.find (s.bankOf dpa) s.drc.act).getD [])).1) := ⟨_, rfl, rfl⟩

theorem actTable_new {row : Nat} {t : List (Nat × Nat)} (hn : ∀ e ∈ t, e.1 ≠ row) (hl : t.length < 32) : actTable row t = (t ++ [(row, 1)], 1) := by
  have hf : t.find? (fun e => decide (e.1 = row)) = none := List.find?_eq_none.2 fun e he => by simpa using hn e he
  rw [actTable, hf]
  exact if_pos hl

theorem actTable_known {row n : Nat} {t : List (Nat × Nat)} (hf : t.find? (fun e => decide (e.1 = row)) = some (row, n)) :
    actTable row t = (t.map (fun x => if x.1 = row then (row, n + 1) else x), n + 1) := by
  rw [actTable, hf]

/-! ### The scrub (15 R341) -/

/-- The scrub goes on to a burst and shows the part of the pass that is done. -/
def scrubTo (s : State) (nx pct : Nat) : State := ({ s with drc := { s.drc with scrub := nx } }).wr F.DRC_SCRUB_CFG_PASS_PCT pct

theorem scrubTo_spec (s : State) (nx pct : Nat) : Keeps s (s.scrubTo nx pct) [F.DRC_SCRUB_CFG_PASS_PCT] ∧
    (s.scrubTo nx pct).rd F.DRC_SCRUB_CFG_PASS_PCT = cut F.DRC_SCRUB_CFG_PASS_PCT.w pct ∧
    s.scrubTo nx pct = { s with regs := (s.scrubTo nx pct).regs, drc := { s.drc with scrub := nx } } :=
  ⟨Keeps.wr (List.mem_singleton_self F.DRC_SCRUB_CFG_PASS_PCT) { s with drc := { s.drc with scrub := nx } } _ _ _ _, rd_wr_same .., rfl⟩

/-- A step of the scrub: a MiB that was read is charged, and the next burst asked for. -/
theorem scrub_eq (room oc sym rg a b : Nat) {n m : Nat} (h : s.scrubOn = true) (hn : s.drc.scrub % s.bursts = n) (hm : s.bursts = m) :
    exec (.dramScrubRead room oc sym rg a b) s = .next
    ((if (n + 1) % 16384 = 0 then (s.scrubTo ((n + 1) % m) ((n + 1) % m * 100 / m)).chargeBg 4 16 else s.scrubTo ((n + 1) % m) ((n + 1) % m * 100 / m)).drcRequest 4
      (n * 64) (.scrub oc sym rg a b) room) := by
  have hm' (k : Nat) : ({ s with drc := { s.drc with scrub := k } } : State).bursts = m := hm
  show execDramScrubRead room oc sym rg a b s = _
  unfold execDramScrubRead
  dsimp only
  rw [hn, hm, h, if_neg (by decide), hm']
  rfl

/-- A state in which the scrub asks for its burst: it has gone on, and a charge was made or not. -/
structure Scrubbing (s c : State) (nx pct : Nat) : Prop where
  regs : Keeps s c [F.DRC_SCRUB_CFG_PASS_PCT, F.LGR_SL_CHG_CHG, F.LGR_SL_NORM_N]
  pct : c.rd F.DRC_SCRUB_CFG_PASS_PCT = cut F.DRC_SCRUB_CFG_PASS_PCT.w pct
  drc : c.drc = { s.drc with scrub := nx }
  ras : c.ras = s.ras
  tim : c.tim = s.tim
  zn : c.zn = s.zn
  outs : c.outs = s.outs

theorem scrubbing (s : State) (nx pct : Nat) (p : Prop) [Decidable p] :
    ∃ c, (if p then (s.scrubTo nx pct).chargeBg 4 16 else s.scrubTo nx pct) = c ∧ Scrubbing s c nx pct := by
  refine ⟨_, rfl, ?_⟩
  obtain ⟨hk, hp, hf⟩ := s.scrubTo_spec nx pct
  have hk' : Keeps s (s.scrubTo nx pct) [F.DRC_SCRUB_CFG_PASS_PCT, F.LGR_SL_CHG_CHG, F.LGR_SL_NORM_N] := hk.mono (by simp)
  generalize s.scrubTo nx pct = c at hk hk' hp hf ⊢
  have base : Scrubbing s c nx pct := by
    refine ⟨hk', hp, ?_, ?_, ?_, ?_, ?_⟩ <;> rw [hf]
  split
  · obtain ⟨sl, he, hr⟩ := c.chargeBg_eq 4 16
    generalize c.chargeBg 4 16 = t at he hr ⊢
    have hr' : Keeps c t [F.DRC_SCRUB_CFG_PASS_PCT, F.LGR_SL_CHG_CHG, F.LGR_SL_NORM_N] := hr.mono (by simp [chargeFields])
    refine ⟨hk'.trans hr', (hr F.DRC_SCRUB_CFG_PASS_PCT 0 0 0 (by decide)).trans hp, ?_, ?_, ?_, ?_, ?_⟩ <;> rw [he]
    · exact base.drc
    · exact base.ras
    · exact base.tim
    · exact base.zn
    · exact base.outs
  · exact base

theorem Scrubbing.places {c : State} {nx pct : Nat} (h : Scrubbing s c nx pct) (dpa : Nat) : c.chOf dpa = s.chOf dpa ∧ c.bankOf dpa = s.bankOf dpa ∧
    c.rowOfDpa dpa = s.rowOfDpa dpa := place_keeps h.regs (by decide) (by decide) (by decide) dpa

theorem Scrubbing.dreqs {c : State} {nx pct : Nat} (h : Scrubbing s c nx pct) (ch : Nat) : c.dreqs ch = s.dreqs ch := by
  rw [State.dreqs, State.dreqs, h.drc]

theorem Scrubbing.el {c : State} {nx pct : Nat} (h : Scrubbing s c nx pct) : c.el = s.el ∧ c.tns = s.tns := by
  simp only [State.el, State.tns, h.tim, and_self]

end State

namespace State

theorem islandTook_keeps (s : State) (r : DReq) : (s.islandTook r).drc.poison = s.drc.poison ∧ (s.islandTook r).drc.scrub = s.drc.scrub ∧
    (s.islandTook r).regs = s.regs := ⟨rfl, rfl, rfl⟩

/-- The scrub's step and a burst taken at once, together. -/
theorem scrub_frame {s c t : State} {n : Nat} (hc : c = { s with regs := c.regs, drc := { s.drc with scrub := n } })
    (ht : t = { c with drc := { c.drc with queue := t.drc.queue, rows := t.drc.rows, drain := t.drc.drain } }) :
    t = { s with regs := t.regs, drc := { s.drc with scrub := t.drc.scrub, queue := t.drc.queue, rows := t.drc.rows, drain := t.drc.drain } } := by
  generalize c.regs = r at hc
  subst hc
  generalize t.drc.queue = q at ht ⊢
  generalize t.drc.rows = w at ht ⊢
  generalize t.drc.drain = d at ht ⊢
  subst ht
  rfl

end State

/-- A refresh that waits for urgent requests is owed (15 R335). -/
theorem ran_refreshPostponed {ch rk : Nat} {s : State} (hok : s.rankOk ch rk = true) (hs : s.drc.sref = false) (ho : (s.rank (ch * 2 + rk)).owed < 4) :
    Ran (.dramRefresh ch rk true) s (fun t => (t.rank (ch * 2 + rk)).owed = (s.rank (ch * 2 + rk)).owed + 1 ∧
      (∀ i, i ≠ ch * 2 + rk → t.rank i = s.rank i) ∧ t = { s with drc := { s.drc with ranks := t.drc.ranks } }) := by
  refine ⟨s.putRank (ch * 2 + rk) { s.rank (ch * 2 + rk) with owed := (s.rank (ch * 2 + rk)).owed + 1 },
    congrArg Host.Outcome.next ((if_neg (by rw [hok, hs]; exact Bool.false_ne_true)).trans (if_pos (by rw [decide_eq_true ho]; rfl))), ?_,
    fun i hi => State.rank_putRank_ne _ _ hi, rfl⟩
  rw [State.rank_putRank_same]

/-- What is owed is issued (15 R335). -/
theorem refresh_runs {ch rk : Nat} {s : State} (hok : s.rankOk ch rk = true) (hs : s.drc.sref = false) (hu : s.rankUrgent ch rk = false) :
    exec (.dramRefresh ch rk false) s = .next ((List.range ((s.rank (ch * 2 + rk)).owed + 1)).foldl (fun (s : State) _ => s.refreshOne ch rk)
      (s.putRank (ch * 2 + rk) { s.rank (ch * 2 + rk) with owed := 0 })) :=
  congrArg Host.Outcome.next ((if_neg (by rw [hok, hs]; exact Bool.false_ne_true)).trans (if_neg (by rw [hu]; exact Bool.false_ne_true)))

/-- A poll of a channel with one rank (15 R336). -/
theorem mr4_runs {ch code : Nat} {hot : Bool} {s m : State} (hc : ch < 8) (hd : s.rd F.DRC_CFG_DUAL = 0) (hm : s.mr4Rank (ch * 2) hot = m) : ∃ h : Nat,
    exec (.mr4Poll ch [(code, hot, false)]) s = .next { ((m.wr F.DRC_CH_STS_MR4_MAX (max 0 code) ch).wr F.DRC_CH_STS_DOUBLE
      (b2n ((m.rank (ch * 2)).dbl || (m.rank (ch * 2 + 1)).dbl)) ch) with drc := { m.drc with hot := h } } := by
  show ∃ h : Nat, execMr4Poll ch [(code, hot, false)] s = _
  unfold execMr4Poll
  rw [if_neg (by omega)]
  dsimp only
  rw [hd, ← hm]
  exact ⟨_, rfl⟩

/-- A report above 85 °C doubles a rank's refresh (15 R336). -/
theorem ran_mr4Hot {ch code : Nat} {s : State} (hc : ch < 8) (hd : s.rd F.DRC_CFG_DUAL = 0) : Ran (.mr4Poll ch [(code, true, false)]) s (fun t =>
    (t.rank (ch * 2)).dbl = true ∧ (t.rank (ch * 2)).cool = 0 ∧ t.rd F.DRC_CH_STS_MR4_MAX ch = cut F.DRC_CH_STS_MR4_MAX.w code ∧
    t.rd F.DRC_CH_STS_DOUBLE ch = 1 ∧ t.outs = s.outs ∧ t.zn = s.zn) := by
  let m : State := s.putRank (ch * 2) { s.rank (ch * 2) with dbl := true, cool := 0, dblAt := if (s.rank (ch * 2)).dbl then (s.rank (ch * 2)).dblAt else s.el }
  obtain ⟨h, hrun⟩ := mr4_runs (code := code) (hot := true) (m := m) hc hd rfl
  have hr : m.rank (ch * 2) = _ := State.rank_putRank_same ..
  have hdbl : (m.rank (ch * 2)).dbl = true := by rw [hr]
  have ht (k : Nat) : (State.rank { ((m.wr F.DRC_CH_STS_MR4_MAX (max 0 code) ch).wr F.DRC_CH_STS_DOUBLE
      (b2n ((m.rank (ch * 2)).dbl || (m.rank (ch * 2 + 1)).dbl)) ch) with drc := { m.drc with hot := h } } k) = m.rank k := rfl
  refine ⟨_, hrun, ?_, ?_, ?_, ?_, rfl, rfl⟩
  · rw [ht]
    exact hdbl
  · rw [ht, hr]
  · refine (State.rd_wr_id _ _ _ _ _ _ _ _ _ _ (by decide)).trans ((State.rd_wr_same ..).trans ?_)
    rw [Nat.zero_max]
  · refine (State.rd_wr_same ..).trans ?_
    rw [hdbl]
    rfl

/-- A second report at or below 85 °C ends the doubled refresh (15 R336). -/
theorem ran_mr4Cool {ch code : Nat} {s : State} (hc : ch < 8) (hd : s.rd F.DRC_CFG_DUAL = 0) (hdb : (s.rank (ch * 2)).dbl = true)
    (hcl : (s.rank (ch * 2)).cool = 1) : Ran (.mr4Poll ch [(code, false, false)]) s (fun t =>
      (t.rank (ch * 2)).dbl = false ∧ t.outs = s.outs ∧ t.zn = s.zn) := by
  let m : State := s.putRank (ch * 2) { s.rank (ch * 2) with dbl := false, cool := 0 }
  have hm : s.mr4Rank (ch * 2) false = m := by
    unfold State.mr4Rank
    dsimp only
    rw [if_neg Bool.false_ne_true, if_pos hdb, if_pos (by omega)]
  obtain ⟨h, hrun⟩ := mr4_runs (code := code) hc hd hm
  have hr : m.rank (ch * 2) = _ := State.rank_putRank_same ..
  refine ⟨_, hrun, ?_, rfl, rfl⟩
  show (m.rank (ch * 2)).dbl = false
  rw [hr]

/-- An activation opens its row and is counted (15 R337, R338). -/
theorem ran_activateNew {dpa : Nat} {s : State} (hn : ∀ e ∈ (Tab.find (s.bankOf dpa) s.drc.act).getD [], e.1 ≠ s.rowOfDpa dpa)
    (hl : ((Tab.find (s.bankOf dpa) s.drc.act).getD []).length < 32) (hth : 1 < s.rd F.DRC_REF_CFG_ACT_TH) : Ran (.dramActivate dpa false) s (fun t =>
      Tab.find (s.bankOf dpa) t.drc.act = some ((Tab.find (s.bankOf dpa) s.drc.act).getD [] ++ [(s.rowOfDpa dpa, 1)]) ∧
      Tab.find (s.bankOf dpa) t.drc.raa = some ((Tab.find (s.bankOf dpa) s.drc.raa).getD 0 + 1) ∧
      t.openRow (s.bankOf dpa) = some (s.rowOfDpa dpa, 0) ∧
      t = { s with drc := { s.drc with act := t.drc.act, raa := t.drc.raa, rows := t.drc.rows } }) := by
  obtain ⟨t, hrun, ht⟩ := State.activate_eq s dpa false
  rw [State.actTable_new hn hl] at hrun ht
  rw [decide_eq_false (by omega)] at hrun ht
  rw [if_neg Bool.false_ne_true] at ht
  obtain ⟨k₁, k₂, k₃⟩ := State.activated_spec s dpa t ((Tab.find (s.bankOf dpa) s.drc.raa).getD 0 + 1)
  exact ⟨s.activated dpa t ((Tab.find (s.bankOf dpa) s.drc.raa).getD 0 + 1), hrun, ht ▸ k₁, k₂, k₃, rfl⟩

/-- Where the devices call for it, Refresh Management is issued (15 R338). -/
theorem ran_activateDue (dpa : Nat) (s : State) : Ran (.dramActivate dpa true) s (fun t => Tab.find (s.bankOf dpa) t.drc.raa = some 0 ∧
    Out.dram (s.chOf dpa) "RFMsb" [s.bankOf dpa] ∈ t.outs ∧ t.openRow (s.bankOf dpa) = some (s.rowOfDpa dpa, 0) ∧
    t.rd F.DRC_RFM_CNT_RAA (s.chOf dpa) = sat F.DRC_RFM_CNT_RAA.w (s.rd F.DRC_RFM_CNT_RAA (s.chOf dpa) + 1) ∧ t.zn = s.zn) := by
  obtain ⟨t, hrun, -⟩ := State.activate_eq s dpa true
  obtain ⟨-, k₂, k₃⟩ := State.activated_spec s dpa t 0
  let a : State := s.activated dpa t 0
  let b (hit : Bool) : State := if hit then (a.rfm (s.chOf dpa) (s.bankOf dpa)).inc F.DRC_RFM_CNT_TABLE (s.chOf dpa) else a
  have hb (hit : Bool) : (b hit).drc = a.drc ∧ (b hit).zn = s.zn ∧ (b hit).rd F.DRC_RFM_CNT_RAA (s.chOf dpa) = s.rd F.DRC_RFM_CNT_RAA (s.chOf dpa) := by
    cases hit
    · exact ⟨rfl, rfl, rfl⟩
    · exact ⟨rfl, rfl, State.rd_inc_id _ _ _ _ _ _ _ _ _ (by decide)⟩
  obtain ⟨b₁, b₂, b₃⟩ := hb (decide ((actTable (s.rowOfDpa dpa) ((Tab.find (s.bankOf dpa) s.drc.act).getD [])).2 ≥ s.rd F.DRC_REF_CFG_ACT_TH))
  have hrun' : exec (.dramActivate dpa true) s = .next (((b (decide ((actTable (s.rowOfDpa dpa) ((Tab.find (s.bankOf dpa) s.drc.act).getD [])).2 ≥
    s.rd F.DRC_REF_CFG_ACT_TH))).rfm (s.chOf dpa) (s.bankOf dpa)).inc F.DRC_RFM_CNT_RAA (s.chOf dpa)) := hrun
  generalize b _ = m at b₁ b₂ b₃ hrun'
  refine ⟨_, hrun', ?_, List.mem_append_right _ (List.mem_singleton_self _), ?_, (State.rd_inc_same ..).trans ((cut_sat ..).trans ?_), b₂⟩
  · exact (congrArg (fun d => Tab.find (s.bankOf dpa) d.raa) b₁).trans k₂
  · rw [← k₃, State.openRow, State.openRow]
    exact congrArg (fun d => Tab.find (s.bankOf dpa) d.rows) b₁
  · rw [show (m.rfm (s.chOf dpa) (s.bankOf dpa)).rd F.DRC_RFM_CNT_RAA (s.chOf dpa) = m.rd F.DRC_RFM_CNT_RAA (s.chOf dpa) from rfl, b₃]

/-- A row that reaches the threshold brings Refresh Management and starts again from 0 (15 R337). -/
theorem ran_activateHit {dpa n : Nat} {s : State}
    (hf : ((Tab.find (s.bankOf dpa) s.drc.act).getD []).find? (fun e => e.1 = s.rowOfDpa dpa) = some (s.rowOfDpa dpa, n))
    (hth : s.rd F.DRC_REF_CFG_ACT_TH ≤ n + 1) : Ran (.dramActivate dpa false) s (fun t =>
      (∀ e ∈ (Tab.find (s.bankOf dpa) t.drc.act).getD [], e.1 = s.rowOfDpa dpa → e.2 = 0) ∧
      t.outs = s.outs ++ [.dram (s.chOf dpa) "RFMsb" [s.bankOf dpa]] ∧
      t.rd F.DRC_RFM_CNT_TABLE (s.chOf dpa) = sat F.DRC_RFM_CNT_TABLE.w (s.rd F.DRC_RFM_CNT_TABLE (s.chOf dpa) + 1)) := by
  obtain ⟨t, hrun, ht⟩ := State.activate_eq s dpa false
  rw [State.actTable_known hf] at hrun ht
  rw [decide_eq_true hth] at hrun ht
  rw [if_pos rfl] at ht
  obtain ⟨k₁, -, -⟩ := State.activated_spec s dpa t ((Tab.find (s.bankOf dpa) s.drc.raa).getD 0 + 1)
  let a : State := s.activated dpa t ((Tab.find (s.bankOf dpa) s.drc.raa).getD 0 + 1)
  refine ⟨(a.rfm (s.chOf dpa) (s.bankOf dpa)).inc F.DRC_RFM_CNT_TABLE (s.chOf dpa), hrun, fun e he hrow => ?_, rfl, (State.rd_inc_same ..).trans (cut_sat ..)⟩
  have he' : e ∈ (Tab.find (s.bankOf dpa) (s.activated dpa t ((Tab.find (s.bankOf dpa) s.drc.raa).getD 0 + 1)).drc.act).getD [] := he
  rw [k₁, Option.getD_some, ht] at he'
  obtain ⟨x, -, hx⟩ := List.mem_map.1 he'
  split at hx
  · rw [← hx]
  · next hne => exact absurd (hx ▸ hrow) hne

/-- The scrub's burst is read clean (15 R341). -/
theorem ran_scrubClean {sym rg a b n : Nat} {s : State} (hon : s.scrubOn = true) (hn : s.drc.scrub % s.bursts = n) (hp : s.drc.poison.contains n = false)
    (hm : (n + 1) % 16384 ≠ 0) (hq : s.dreqs (s.chOf (n * 64)) = []) : Ran (.dramScrubRead 1 0 sym rg a b) s (fun t =>
      t.drc.scrub = (n + 1) % s.bursts ∧ Keeps s t [F.DRC_SCRUB_CFG_PASS_PCT] ∧
      t.rd F.DRC_SCRUB_CFG_PASS_PCT = cut F.DRC_SCRUB_CFG_PASS_PCT.w (t.drc.scrub * 100 / s.bursts) ∧ (∀ c, t.dreqs c = s.dreqs c) ∧
      t.openRow (s.bankOf (n * 64)) = none ∧
      t = { s with regs := t.regs, drc := { s.drc with scrub := t.drc.scrub, queue := t.drc.queue, rows := t.drc.rows, drain := t.drc.drain } }) := by
  generalize hk : s.bursts = m at hn
  have hrun := State.scrub_eq 1 0 sym rg a b hon (hk ▸ hn) hk
  rw [if_neg hm] at hrun
  obtain ⟨k₁, k₂, k₃⟩ := s.scrubTo_spec ((n + 1) % m) ((n + 1) % m * 100 / m)
  generalize s.scrubTo ((n + 1) % m) ((n + 1) % m * 100 / m) = c at k₁ k₂ k₃ hrun
  obtain ⟨p₁, p₂, -⟩ := State.place_keeps k₁ (by decide) (by decide) (by decide) (n * 64)
  have hcd : c.drc = { s.drc with scrub := (n + 1) % m } := by rw [k₃]
  have hcq (ch : Nat) : c.dreqs ch = s.dreqs ch := by rw [State.dreqs, State.dreqs, hcd]
  rw [State.drcRequest_taken 4 (.scrub 0 sym rg a b) (by rw [p₁, hcq]; exact hq)] at hrun
  generalize hr : (DReq.mk 4 (n * 64) c.el (c.el + c.rd F.DRC_PORT_TGT_TGT_NS 4) (.scrub 0 sym rg a b)) = r at hrun
  have hrd : r.dpa = n * 64 := by rw [← hr]
  have hte := c.islandTook_eq r
  have htd := State.islandTook_dreqs (s := c) (r := r) (by rw [hrd, p₁, hcq]; exact hq)
  have htr := c.islandTook_row r
  obtain ⟨t₁, t₂, htg⟩ := c.islandTook_keeps r
  generalize c.islandTook r = t at hte htd htr hrun t₁ t₂ htg
  have htp : t.drc.poison = s.drc.poison := t₁.trans (by rw [hcd])
  have hact : t.drcAct r = t := by
    unfold State.drcAct
    rw [← hr]
    dsimp only
    rw [State.readCheck_clean sym (by rw [htp, Nat.mul_div_cancel n (by decide)]; exact hp)]
    rfl
  rw [hact] at hrun
  have hts : t.drc.scrub = (n + 1) % m := t₂.trans (by rw [hcd])
  refine ⟨t, hrun, hts, fun g i j p hg => ?_, ?_, fun c' => (htd c').trans (hcq c'), ?_, ?_⟩
  · rw [← k₁ g i j p hg, State.rd, State.rd, htg]
  · rw [hts, ← k₂, State.rd, State.rd, htg]
  · rw [← p₂, ← hrd]
    exact htr
  · exact State.scrub_frame k₃ hte

/-- The scrub's burst waits where the island takes none (15 R333, R341). -/
theorem ran_scrubWaits {oc sym rg a b n : Nat} {s : State} (hon : s.scrubOn = true) (hn : s.drc.scrub % s.bursts = n) (hm : (n + 1) % 16384 ≠ 0) :
    Ran (.dramScrubRead 0 oc sym rg a b) s (fun t => t.dreqs (s.chOf (n * 64)) = s.dreqs (s.chOf (n * 64)) ++
        [⟨4, n * 64, s.el, s.el + s.rd F.DRC_PORT_TGT_TGT_NS 4, .scrub oc sym rg a b⟩] ∧ t.outs = s.outs ∧ t.zn = s.zn) := by
  generalize hk : s.bursts = m at hn
  have hrun := State.scrub_eq 0 oc sym rg a b hon (hk ▸ hn) hk
  rw [if_neg hm] at hrun
  obtain ⟨k₁, -, k₃⟩ := s.scrubTo_spec ((n + 1) % m) ((n + 1) % m * 100 / m)
  generalize s.scrubTo ((n + 1) % m) ((n + 1) % m * 100 / m) = c at k₁ k₃ hrun
  obtain ⟨p₁, -, -⟩ := State.place_keeps k₁ (by decide) (by decide) (by decide) (n * 64)
  have hc : c.drc = { s.drc with scrub := (n + 1) % m } ∧ c.tim = s.tim ∧ c.outs = s.outs ∧ c.zn = s.zn := by rw [k₃]; exact ⟨rfl, rfl, rfl, rfl⟩
  have hcq (ch : Nat) : c.dreqs ch = s.dreqs ch := by rw [State.dreqs, State.dreqs, hc.1]
  have hel : c.el = s.el := by rw [State.el, State.el, hc.2.1]
  rw [State.drcRequest_waits, p₁, hcq, hel, k₁ F.DRC_PORT_TGT_TGT_NS 4 0 0 (by decide)] at hrun
  exact ⟨_, hrun, State.dreqs_putDreqs_same .., hc.2.2.1, hc.2.2.2⟩

/-- The scrub's burst is taken at once: what its check bits say. -/
theorem scrub_taken {oc sym rg a b n : Nat} {s : State} (hon : s.scrubOn = true) (hn : s.drc.scrub % s.bursts = n) (hq : s.dreqs (s.chOf (n * 64)) = []) :
    ∃ t : State, exec (.dramScrubRead 1 oc sym rg a b) s = .next (if (t.readCheck (n * 64) oc sym).2 then (t.readCheck (n * 64) oc sym).1.regionUe (n * 64) rg a b
      else (t.readCheck (n * 64) oc sym).1) ∧ t.drc.scrub = (n + 1) % s.bursts ∧ t.drc.poison = s.drc.poison ∧ t.ras = s.ras ∧ t.tns = s.tns ∧ t.zn = s.zn ∧
      t.chOf (n * 64) = s.chOf (n * 64) ∧ Keeps s t [F.DRC_SCRUB_CFG_PASS_PCT, F.LGR_SL_CHG_CHG, F.LGR_SL_NORM_N] := by
  generalize hk : s.bursts = m at hn
  have hrun := State.scrub_eq 1 oc sym rg a b hon (hk ▸ hn) hk
  obtain ⟨c, hc, hsc⟩ := State.scrubbing s ((n + 1) % m) ((n + 1) % m * 100 / m) ((n + 1) % 16384 = 0)
  rw [hc] at hrun
  obtain ⟨p₁, -, -⟩ := hsc.places (n * 64)
  rw [State.drcRequest_taken 4 (.scrub oc sym rg a b) (by rw [p₁, hsc.dreqs]; exact hq)] at hrun
  generalize hr : (DReq.mk 4 (n * 64) c.el (c.el + c.rd F.DRC_PORT_TGT_TGT_NS 4) (.scrub oc sym rg a b)) = r at hrun
  have hte := c.islandTook_eq r
  generalize c.islandTook r = t at hte hrun
  have ht : t.drc.scrub = c.drc.scrub ∧ t.drc.poison = c.drc.poison ∧ t.ras = c.ras ∧ t.tim = c.tim ∧ t.zn = c.zn ∧ t.regs = c.regs := by
    rw [hte]
    exact ⟨rfl, rfl, rfl, rfl, rfl, rfl⟩
  obtain ⟨t₁, t₂, t₃, t₄, t₅, t₆⟩ := ht
  have hreg : Keeps s t [F.DRC_SCRUB_CFG_PASS_PCT, F.LGR_SL_CHG_CHG, F.LGR_SL_NORM_N] := fun g i j p hg => by
    rw [← hsc.regs g i j p hg, State.rd, State.rd, t₆]
  have hact : t.drcAct r = if (t.readCheck (n * 64) oc sym).2 then (t.readCheck (n * 64) oc sym).1.regionUe (n * 64) rg a b else (t.readCheck (n * 64) oc sym).1 := by
    rw [← hr]
    rfl
  rw [hact] at hrun
  refine ⟨t, hrun, t₁.trans (by rw [hsc.drc]), t₂.trans (by rw [hsc.drc]), t₃.trans hsc.ras, ?_, t₅.trans hsc.zn,
    (State.place_keeps hreg (by decide) (by decide) (by decide) (n * 64)).1, hreg⟩
  rw [State.tns, State.tns, State.el, State.el, t₄, hsc.tim]

/-- A burst that is corrected is counted (15 R340, R341). -/
theorem ran_scrubCorrected {sym rg a b n : Nat} {s : State} (hon : s.scrubOn = true) (hn : s.drc.scrub % s.bursts = n) (hp : s.drc.poison.contains n = false)
    (hq : s.dreqs (s.chOf (n * 64)) = []) : Ran (.dramScrubRead 1 1 sym rg a b) s (fun t =>
      t.drc.scrub = (n + 1) % s.bursts ∧
      t.rd F.DRC_ECC_CNT_CE (s.chOf (n * 64)) = sat F.DRC_ECC_CNT_CE.w (s.rd F.DRC_ECC_CNT_CE (s.chOf (n * 64)) + 1) ∧
      t.rd F.RAS_MEM_CNT_CE 13 = sat F.RAS_MEM_CNT_CE.w (s.rd F.RAS_MEM_CNT_CE 13 + 1) ∧ t.ras.ceSec = s.ras.ceSec + 1 ∧ t.zn = s.zn) := by
  obtain ⟨t, hrun, t₁, t₂, t₃, -, t₅, t₆, t₇⟩ := scrub_taken (oc := 1) (sym := sym) (rg := rg) (a := a) (b := b) hon hn hq
  rw [State.readCheck_corrected sym (by rw [t₂, Nat.mul_div_cancel n (by decide)]; exact hp)] at hrun
  obtain ⟨k₁, k₂, k₃⟩ := t.dramCe_spec (n * 64) sym
  have he := t.dramCe_ecc (n * 64) sym
  have hrun' : exec (.dramScrubRead 1 1 sym rg a b) s = .next (t.dramCe (n * 64) sym) := hrun
  generalize t.dramCe (n * 64) sym = u at k₁ k₂ k₃ he hrun'
  have hu : u.drc = t.drc ∧ u.zn = t.zn := by rw [he.frame]; exact ⟨rfl, rfl⟩
  refine ⟨u, hrun', (congrArg (·.scrub) hu.1).trans t₁, ?_, ?_, ?_, hu.2.trans t₅⟩
  · rw [t₆, t₇ F.DRC_ECC_CNT_CE _ 0 0 (by decide)] at k₁
    exact k₁
  · rw [t₇ F.RAS_MEM_CNT_CE 13 0 0 (by decide)] at k₂
    exact k₂
  · rw [k₃, t₃]

/-- A burst that cannot be corrected raises DRAM_UE (15 R340, R341). -/
theorem ran_scrubBad {sym rg a b n : Nat} {s : State} (hon : s.scrubOn = true) (hn : s.drc.scrub % s.bursts = n) (hl : s.ras.evq.length < 1024)
    (hq : s.dreqs (s.chOf (n * 64)) = []) : Ran (.dramScrubRead 1 2 sym rg a b) s (fun t =>
      t.rd F.DRC_ECC_CNT_UE (s.chOf (n * 64)) = sat F.DRC_ECC_CNT_UE.w (s.rd F.DRC_ECC_CNT_UE (s.chOf (n * 64)) + 1) ∧
      t.ras.evq = s.ras.evq ++ [EvEnt.mk s.tns evDramUe 0xFFFF s.ras.evSeq (n * 64)] ∧ t.zn = s.zn) := by
  obtain ⟨t, hrun, -, -, t₃, t₄, t₅, t₆, t₇⟩ := scrub_taken (oc := 2) (sym := sym) (rg := rg) (a := a) (b := b) hon hn hq
  rw [State.readCheck_bad sym (Nat.le_refl 2)] at hrun
  obtain ⟨k₁, k₂⟩ := State.dramUe_spec (s := t) (dpa := n * 64) (decide (2 = 3)) (by rw [t₃]; exact hl)
  have he := t.dramUe_ecc (n * 64) (decide (2 = 3))
  have hrun' : exec (.dramScrubRead 1 2 sym rg a b) s = .next ((t.dramUe (n * 64) (decide (2 = 3))).regionUe (n * 64) rg a b) := hrun
  generalize t.dramUe (n * 64) (decide (2 = 3)) = u at k₁ k₂ he hrun'
  have ho := u.regionUe_owner (n * 64) rg a b
  generalize u.regionUe (n * 64) rg a b = v at ho hrun'
  have hu : u.zn = t.zn := by rw [he.frame]; rfl
  have hv : v.ras = u.ras ∧ v.zn = u.zn := by rw [ho.frame]; exact ⟨rfl, rfl⟩
  refine ⟨v, hrun', ?_, ?_, hv.2.trans (hu.trans t₅)⟩
  · rw [t₆, t₇ F.DRC_ECC_CNT_UE _ 0 0 (by decide)] at k₂
    exact (ho.regs F.DRC_ECC_CNT_UE _ 0 0 (by decide)).trans k₂
  · rw [hv.1, k₁, t₃, t₄, Nat.mul_div_cancel n (by decide)]

/-- Settles O44. -/
theorem dramComplete : Obligations.DramComplete := by
  unfold Obligations.DramComplete
  refine ⟨fun ch rk s hok hs ho => ran_refreshPostponed hok hs ho, fun ch rk s hok hs hu hm => ?_, fun ch rk s hok hs hu hm ho => ?_,
    fun ch code s hc hd => ran_mr4Hot hc hd, fun ch code s hc hd hdb hcl => ran_mr4Cool hc hd hdb hcl, fun dpa s hn hl hth => ran_activateNew hn hl hth,
    fun dpa s => ran_activateDue dpa s, fun dpa n s hf hth => ran_activateHit hf hth, fun ch rk s hw => ?_,
    fun sym rg a b s hon hp hm hq => ran_scrubClean hon rfl hp hm hq, fun oc sym rg a b s hon hm => ran_scrubWaits hon rfl hm,
    fun sym rg a b s hon hp hq => ran_scrubCorrected hon rfl hp hq, fun sym rg a b s hon hl hq => ran_scrubBad hon rfl hl hq⟩
  · have hrun := refresh_runs hok hs hu
    rw [State.refreshes_all _ _ _ (s.putRank (ch * 2 + rk) { s.rank (ch * 2 + rk) with owed := 0 }) hm] at hrun
    refine ⟨_, hrun, ?_, rfl, rfl⟩
    show ((s.putRank (ch * 2 + rk) { s.rank (ch * 2 + rk) with owed := 0 }).rank (ch * 2 + rk)).owed = 0
    rw [State.rank_putRank_same]
  · have hrun := refresh_runs hok hs hu
    let a : State := s.putRank (ch * 2 + rk) { s.rank (ch * 2 + rk) with owed := 0 }
    have har : a.rank (ch * 2 + rk) = { s.rank (ch * 2 + rk) with owed := 0 } := State.rank_putRank_same ..
    have hone : a.refreshOne ch rk = (a.send (.dram ch "REFsb" [rk, (s.rank (ch * 2 + rk)).pos])).putRank (ch * 2 + rk)
        { s.rank (ch * 2 + rk) with owed := 0, pos := ((s.rank (ch * 2 + rk)).pos + 1) % 4 } := by
      unfold State.refreshOne
      dsimp only
      rw [har, if_pos (show a.rd F.DRC_REF_CFG_MODE = 0 from hm)]
    rw [ho] at hrun
    have hrun' : exec (.dramRefresh ch rk false) s = .next (a.refreshOne ch rk) := hrun
    rw [hone] at hrun'
    refine ⟨_, hrun', rfl, ?_, rfl⟩
    rw [State.rank_putRank_same]
  · refine ⟨({ s with drc := { s.drc with act := s.drc.act.filter (fun e => e.1 / 64 != ch * 2 + rk) } } : State).putRank (ch * 2 + rk)
      { s.rank (ch * 2 + rk) with clrAt := s.el }, congrArg Host.Outcome.next (if_neg (by omega)), fun e he => ?_, ?_, rfl⟩
    · simpa using (List.mem_filter.1 he).2
    · rw [State.rank_putRank_same]

end Sys2Proof.Machine
end


section
/-! O45: the CXL window (14 R319–R324; 06 R160; 15 R333, R334, R339). -/

namespace Sys2Proof.Machine

/-! ### Bytes of a burst -/

/-- A number made of bytes is below the power of its length, and each byte stands at its place. -/
theorem sum_bytes (f : Nat → Nat) (hf : ∀ i, f i < 256) (n : Nat) :
    ((List.range n).map (fun i => f i * 2 ^ (8 * i))).sum < 2 ^ (8 * n) ∧
    ∀ j, j < n → bits ((List.range n).map (fun i => f i * 2 ^ (8 * i))).sum (8 * j) 8 = f j := by
  induction n with
  | zero => exact ⟨by simp, fun j hj => absurd hj (Nat.not_lt_zero j)⟩
  | succ n ih =>
    obtain ⟨hlt, hb⟩ := ih
    simp only [List.range_succ, List.map_append, List.map_cons, List.map_nil, List.sum_append, List.sum_singleton]
    generalize ((List.range n).map (fun i => f i * 2 ^ (8 * i))).sum = S at hlt hb
    have h8 : 2 ^ (8 * (n + 1)) = 256 * 2 ^ (8 * n) := by rw [Nat.mul_succ, pow_add, Nat.mul_comm]; rfl
    refine ⟨?_, fun j hj => ?_⟩
    · have := Nat.mul_le_mul_right (2 ^ (8 * n)) (Nat.le_of_lt_succ (hf n))
      rw [h8]
      omega
    · rcases Nat.lt_or_ge j n with hjn | hjn
      · obtain ⟨k, rfl⟩ := Nat.exists_eq_add_of_lt hjn
        have hp : 2 ^ (8 * (j + k + 1)) = 2 ^ (8 * j) * (2 ^ (8 * k) * 256) := by rw [show 8 * (j + k + 1) = 8 * j + (8 * k + 8) by omega, pow_add, pow_add]; rfl
        rw [bits, hp, show f (j + k + 1) * (2 ^ (8 * j) * (2 ^ (8 * k) * 256)) = 2 ^ (8 * j) * (256 * (2 ^ (8 * k) * f (j + k + 1))) by ring,
          Nat.add_mul_div_left _ _ (by positivity)]
        exact (Nat.add_mul_mod_self_left ..).trans (hb j hjn)
      · obtain rfl : j = n := by omega
        rw [bits, Nat.add_mul_div_right _ _ (by positivity), Nat.div_eq_of_lt hlt, Nat.zero_add]
        exact Nat.mod_eq_of_lt (hf j)

/-- A merged burst has the new byte where the mask's bit is set, and the old one elsewhere (14 R322). -/
theorem bits_mergeBytes (old new mask : Nat) {i : Nat} (h : i < 64) :
    bits (mergeBytes old new mask) (8 * i) 8 = if bit mask i then bits new (8 * i) 8 else bits old (8 * i) 8 := by
  refine ((sum_bytes (fun i => bits (if bit mask i then new else old) (8 * i) 8) (fun _ => Nat.mod_lt _ (by decide)) 64).2 i h).trans ?_
  cases bit mask i <;> rfl

/-- Where the second part lists nothing under a number, the first part decides. -/
theorem Tab.find_append_left {α : Type} (k : Nat) (a b : Tab α) (h : ∀ e ∈ b, e.1 ≠ k) : Tab.find k (a ++ b) = Tab.find k a := by
  induction a with
  | nil => rw [List.nil_append, Tab.find_none _ _ h]; rfl
  | cons e t ih =>
    by_cases hx : e.1 = k
    · simp only [List.cons_append, Tab.find, if_pos hx]
    · simp only [List.cons_append, Tab.find, if_neg hx]
      exact ih

namespace State
variable {s : State}

/-! ### Reads -/

theorem CxlServes.resolve {hpa base size : Nat} {e : XltEnt} (h : CxlServes s hpa base size e) {wr : Bool} (hg : e.grants wr = true) :
    s.busy.cxlResolve hpa wr = (s.busy, .serve (hpa - base)) :=
  (State.cxlResolve_entry (s := s.busy) h.hdm h.above h.below h.inWin h.entry wr).trans ((if_neg h.open_).trans (if_pos hg))

/-- A read that is served is a request on port 2. -/
theorem cxlMemRead_serves {hpa base size : Nat} {e : XltEnt} (h : CxlServes s hpa base size e) (hr : e.rd = true) (room err sym : Nat) :
    execCxlMemRead hpa room err sym s = .next (s.busy.drcRequest 2 (hpa - base) (.read hpa err sym) room) := by
  simp only [execCxlMemRead, h.on, h.commits, work_awake h.awake, CxlServes.resolve h (wr := false) hr]
  rfl

/-- A write that is served is one too. -/
theorem cxlMemWrite_serves {hpa base size : Nat} {e : XltEnt} (h : CxlServes s hpa base size e) (hw : e.wr = true) (data mask room err sym : Nat) :
    execCxlMemWrite hpa data mask room err sym s = .next (s.busy.drcRequest 2 (hpa - base) (.write hpa data mask err sym) room) := by
  simp only [execCxlMemWrite, h.on, h.commits, work_awake h.awake, CxlServes.resolve h (wr := true) hw]
  rfl

/-- A clean read of a burst without poison answers with it (15 R339). -/
theorem drcAct_clean {r : DReq} {hpa : Nat} (ha : r.act = .read hpa 0 0) (hp : s.drc.poison.contains (r.dpa / 64) = false) :
    s.drcAct r = s.send (.pcie "CXL data" [hpa, s.burst64 (r.dpa / 64)]) := by
  simp only [drcAct, ha, readCheck_clean 0 hp]
  rfl

/-- An uncorrectable read answers poison, and its burst is poisoned (15 R339). -/
theorem drcAct_bad {r : DReq} {hpa err sym : Nat} (ha : r.act = .read hpa err sym) (he : 2 ≤ err) :
    s.drcAct r = ((s.dramUe r.dpa (err = 3)).setPoison (r.dpa / 64)).send (.pcie "CXL poison" [hpa]) := by
  simp only [drcAct, ha, readCheck_bad sym he]
  rfl

theorem mem_setPoison (s : State) (b : Nat) : b ∈ (s.setPoison b).drc.poison := by
  show b ∈ (if s.drc.poison.contains b then s.drc.poison else s.drc.poison ++ [b])
  split
  · next h => exact List.contains_iff_mem.1 h
  · exact List.mem_append_right _ (List.mem_singleton_self b)

theorem ran_cxlMemRead {hpa base size : Nat} {e : XltEnt} (h : CxlServes s hpa base size e) (hr : e.rd = true)
    (hp : s.drc.poison.contains ((hpa - base) / 64) = false) (hq : s.dreqs (s.chOf (hpa - base)) = []) : Ran (.cxlMemRead hpa 1 0 0) s (fun t =>
      t.outs = s.outs ++ [.pcie "CXL data" [hpa, s.burst64 ((hpa - base) / 64)]] ∧ (∀ c, t.dreqs c = s.dreqs c) ∧
      t = { s with
              outs := t.outs
              pwr := { s.pwr with busyAt := s.el }
              drc := { s.drc with queue := t.drc.queue, rows := t.drc.rows, drain := t.drc.drain } }) := by
  let r : DReq := ⟨2, hpa - base, s.el, s.el + s.rd F.DRC_PORT_TGT_TGT_NS 2, .read hpa 0 0⟩
  let a : State := s.busy.islandTook r
  have ha : a = { s.busy with drc := { s.drc with queue := a.drc.queue, rows := a.drc.rows, drain := a.drc.drain } } := islandTook_eq s.busy r
  have hd : ∀ c, a.dreqs c = s.dreqs c := islandTook_dreqs (s := s.busy) hq
  have hap : a.drc.poison.contains ((hpa - base) / 64) = false := hp
  have hx : execCxlMemRead hpa 1 0 0 s = .next (a.send (.pcie "CXL data" [hpa, s.burst64 ((hpa - base) / 64)])) :=
    (cxlMemRead_serves h hr 1 0 0).trans (congrArg Host.Outcome.next
      ((drcRequest_taken (s := s.busy) 2 _ hq).trans (drcAct_clean (s := a) (r := r) (hpa := hpa) rfl hap)))
  generalize a = m at ha hd hx
  refine ⟨_, hx, ?_, hd, ?_⟩
  · rw [ha]
    rfl
  · show { m with outs := m.outs ++ _ } = _
    rw [ha]
    rfl

theorem ran_cxlMemRead_bad {hpa base size err : Nat} (sym : Nat) {e : XltEnt} (h : CxlServes s hpa base size e) (hr : e.rd = true)
    (hq : s.dreqs (s.chOf (hpa - base)) = []) (he : 2 ≤ err) (hv : s.ras.evq.length < 1024) : Ran (.cxlMemRead hpa 1 err sym) s (fun t =>
      Out.pcie "CXL poison" [hpa] ∈ t.outs ∧ (hpa - base) / 64 ∈ t.drc.poison ∧
      t.ras.evq = s.ras.evq ++ [EvEnt.mk s.tns evDramUe 0xFFFF s.ras.evSeq ((hpa - base) / 64 * 64)] ∧ t.zn = s.zn) := by
  let r : DReq := ⟨2, hpa - base, s.el, s.el + s.rd F.DRC_PORT_TGT_TGT_NS 2, .read hpa err sym⟩
  let a : State := s.busy.islandTook r
  have ha : a.ras = s.ras ∧ a.tns = s.tns ∧ a.zn = s.zn := ⟨rfl, rfl, rfl⟩
  have hx : execCxlMemRead hpa 1 err sym s = .next (((a.dramUe (hpa - base) (err = 3)).setPoison ((hpa - base) / 64)).send (.pcie "CXL poison" [hpa])) :=
    (cxlMemRead_serves h hr 1 err sym).trans (congrArg Host.Outcome.next
      ((drcRequest_taken (s := s.busy) 2 _ hq).trans (drcAct_bad (s := a) (r := r) (hpa := hpa) rfl he)))
  generalize a = m at ha hx
  have hu := dramUe_spec (s := m) (dpa := hpa - base) (err = 3) (by rw [ha.1]; exact hv)
  have hk := dramUe_ecc m (hpa - base) (err = 3)
  generalize m.dramUe (hpa - base) (decide (err = 3)) = u at hx hu hk
  have hz : u.zn = m.zn := by rw [hk.frame]; rfl
  refine ⟨_, hx, List.mem_append_right _ (List.mem_singleton_self _), mem_setPoison u _, ?_, hz.trans ha.2.2⟩
  exact hu.1.trans (by rw [ha.1, ha.2.1])

theorem ran_cxlMemRead_queued {hpa base size : Nat} {e : XltEnt} (h : CxlServes s hpa base size e) (hr : e.rd = true) :
    Ran (.cxlMemRead hpa 0 0 0) s (fun t => t.dreqs (s.chOf (hpa - base)) = s.dreqs (s.chOf (hpa - base)) ++
      [⟨2, hpa - base, s.el, s.el + s.rd F.DRC_PORT_TGT_TGT_NS 2, .read hpa 0 0⟩] ∧ t.outs = s.outs ∧ t.zn = s.zn) :=
  ⟨_, cxlMemRead_serves h hr 0 0 0, dreqs_putDreqs_same s.busy (s.chOf (hpa - base)) _, rfl, rfl⟩

/-- Of two reads the more urgent is served first (15 R334). -/
theorem drcPick_urgent {ch : Nat} {a b : DReq} (h : s.dreqs ch = [a, b]) (ha : a.isWr = false) (hb : b.isWr = false) (hu : s.drcUrg b < s.drcUrg a) :
    s.drcPick ch = some a := by
  have hc : s.drcCand ch = [a, b] := by simp [drcCand, h, ha, hb, drcQueue]
  have hf : s.drcFirst [a, b] (bit s.drc.drain ch) a b = true := by
    have hne : (s.drcUrg a != s.drcUrg b) = true := bne_iff_ne.2 (Nat.ne_of_gt hu)
    rw [drcFirst, if_pos hne]
    exact decide_eq_true hu
  simp only [drcPick, hc, List.foldl_cons, List.foldl_nil, hf, if_true]

/-- A request that finds a more urgent read in its channel: that one is served (15 R334). -/
theorem drcRequest_behind {dpa hpa : Nat} {a : DReq} (port : Nat) (h : s.dreqs (s.chOf dpa) = [a]) (ha : a.isWr = false)
    (hu : s.urg s.el (s.el + s.rd F.DRC_PORT_TGT_TGT_NS port) < s.drcUrg a) :
    s.drcRequest port dpa (.read hpa 0 0) 1 =
      (((s.putDreqs (s.chOf dpa) [a, ⟨port, dpa, s.el, s.el + s.rd F.DRC_PORT_TGT_TGT_NS port, .read hpa 0 0⟩]).putDreqs (s.chOf dpa)
        [⟨port, dpa, s.el, s.el + s.rd F.DRC_PORT_TGT_TGT_NS port, .read hpa 0 0⟩]).rowUsed a).drcAct a := by
  let r : DReq := ⟨port, dpa, s.el, s.el + s.rd F.DRC_PORT_TGT_TGT_NS port, .read hpa 0 0⟩
  let m : State := s.putDreqs (s.chOf dpa) [a, r]
  have hm : m.dreqs (s.chOf dpa) = [a, r] := dreqs_putDreqs_same ..
  have hp : m.drcPick (s.chOf dpa) = some a := drcPick_urgent hm ha rfl hu
  have hserve : m.drcServe (s.chOf dpa) = (((m.putDreqs (s.chOf dpa) [r]).rowUsed a).drcAct a) := by
    rw [drcServe, hp]
    simp only [hm, List.erase_cons_head]
  rw [drcRequest, h]
  show State.drcServeN (s.chOf dpa) 1 m = _
  rw [drcServeN, hm]
  exact (if_neg (by simp)).trans (hserve.trans rfl)

theorem ran_cxlMemRead_urgent {hpa base size ha : Nat} {a : DReq} {e : XltEnt} (h : CxlServes s hpa base size e) (hr : e.rd = true)
    (hq : s.dreqs (s.chOf (hpa - base)) = [a]) (hact : a.act = .read ha 0 0) (hp : s.drc.poison.contains (a.dpa / 64) = false)
    (hu : s.urg s.el (s.el + s.rd F.DRC_PORT_TGT_TGT_NS 2) < s.drcUrg a) : Ran (.cxlMemRead hpa 1 0 0) s (fun t =>
      t.outs = s.outs ++ [.pcie "CXL data" [ha, s.burst64 (a.dpa / 64)]] ∧
      t.dreqs (s.chOf (hpa - base)) = [⟨2, hpa - base, s.el, s.el + s.rd F.DRC_PORT_TGT_TGT_NS 2, .read hpa 0 0⟩]) := by
  have hwr : a.isWr = false := by rw [DReq.isWr, hact]
  let r : DReq := ⟨2, hpa - base, s.el, s.el + s.rd F.DRC_PORT_TGT_TGT_NS 2, .read hpa 0 0⟩
  let b : State := (s.busy.putDreqs (s.chOf (hpa - base)) [a, r]).putDreqs (s.chOf (hpa - base)) [r]
  refine ⟨_, (cxlMemRead_serves h hr 1 0 0).trans (congrArg Host.Outcome.next
    ((drcRequest_behind (s := s.busy) 2 hq hwr hu).trans (drcAct_clean (s := b.rowUsed a) hact hp))), rfl, ?_⟩
  exact dreqs_putDreqs_same (s.busy.putDreqs (s.chOf (hpa - base)) [a, r]) (s.chOf (hpa - base)) [r]

/-- The first translation fault is logged, in registers. -/
def Scope.flt : Scope where
  merge s t := { s with regs := t.regs }
  fields := [F.SLI_XLT_FLT_INFO_VALID, F.SLI_XLT_FLT_INFO_KIND, F.SLI_XLT_FLT_INFO_PERM, F.SLI_XLT_FLT_INFO_FUNC, F.SLI_XLT_FLT_INFO_PASID,
    F.SLI_XLT_FLT_INFO_WR, F.SLI_XLT_FLT_ADDR_PAGE]

theorem logFlt_flt (s : State) (n kind : Nat) (perm : Bool) (func : Nat) (pasid : Option Nat) (addr : Nat) (wr : Bool) :
    Only Scope.flt.bound (s.inc F.SLI_XLT_FLT_CNT_CNT n) (s.logFlt n kind perm func pasid addr wr) := by
  unfold logFlt
  dsimp only
  generalize s.inc F.SLI_XLT_FLT_CNT_CNT n = m
  exact .ite (.refl _) (.after (.wr (by decide) ..) (.after (.wr (by decide) ..) (.after (.wr (by decide) ..) (.after (.wr (by decide) ..)
    (.after (.wr (by decide) ..) (.after (.wr (by decide) ..) (.wr (by decide) ..)))))))

/-- A miss is counted in its slice's registers and raised; nothing else but events changes (02 R45). -/
theorem cxlMiss_counts (s : State) (perm : Bool) (addr : Nat) (wr : Bool) :
    (s.cxlMiss 0 perm addr wr).rd F.SLI_XLT_FLT_CNT_CNT 0 = sat F.SLI_XLT_FLT_CNT_CNT.w (s.rd F.SLI_XLT_FLT_CNT_CNT 0 + 1) ∧
    (s.cxlMiss 0 perm addr wr).zn = s.zn := by
  have hc : (s.inc F.SLI_XLT_FLT_CNT_CNT 0).rd F.SLI_XLT_FLT_CNT_CNT 0 = sat F.SLI_XLT_FLT_CNT_CNT.w (s.rd F.SLI_XLT_FLT_CNT_CNT 0 + 1) :=
    (rd_inc_same ..).trans (cut_sat ..)
  have hz : (s.inc F.SLI_XLT_FLT_CNT_CNT 0).zn = s.zn := rfl
  have hl := logFlt_flt s 0 3 perm 0 none addr wr
  have hr := Only.Event.raise (s.logFlt 0 3 perm 0 none addr wr) evXltMiss 0 (0 * 2 ^ 32)
  unfold cxlMiss
  generalize s.inc F.SLI_XLT_FLT_CNT_CNT 0 = a at hc hz hl
  generalize s.logFlt 0 3 perm 0 none addr wr = m at hl hr
  generalize m.raise evXltMiss 0 (0 * 2 ^ 32) = t at hr
  have hmz : m.zn = a.zn := by rw [hl.frame]; rfl
  have htz : t.zn = m.zn := by rw [hr.frame]; rfl
  refine ⟨?_, (htz.trans hmz).trans hz⟩
  exact (hr.regs F.SLI_XLT_FLT_CNT_CNT 0 0 0 (by decide)).trans ((hl.regs F.SLI_XLT_FLT_CNT_CNT 0 0 0 (by decide)).trans hc)

theorem ran_cxlMemRead_miss {hpa : Nat} (hon : s.cxlOn = true) (hc : s.stg.commits = true) (ha : s.awake = true) (hd : s.pcx.hdm = none) :
    Ran (.cxlMemRead hpa 1 0 0) s (fun t => Out.pcie "CXL poison" [hpa] ∈ t.outs ∧
      t.rd F.SLI_XLT_FLT_CNT_CNT 0 = sat F.SLI_XLT_FLT_CNT_CNT.w (s.rd F.SLI_XLT_FLT_CNT_CNT 0 + 1) ∧ t.zn = s.zn) := by
  have hres : s.busy.cxlResolve hpa false = (s.busy.cxlMiss 0 false hpa false, .refuse) := by
    rw [cxlResolve, show s.busy.pcx.hdm = none from hd]
  obtain ⟨hcnt, hz⟩ := cxlMiss_counts s.busy false hpa false
  refine ⟨(s.busy.cxlMiss 0 false hpa false).send (.pcie "CXL poison" [hpa]), ?_, List.mem_append_right _ (List.mem_singleton_self _), hcnt, hz⟩
  show execCxlMemRead hpa 1 0 0 s = _
  simp only [execCxlMemRead, hon, hc, work_awake ha, hres]
  rfl

/-! ### Writes -/

theorem burst64_putBurst_same (s : State) (b v : Nat) : (s.putBurst b v).burst64 b = v := by
  show (Tab.find b (if v = 0 then Tab.del b s.pcx.win else Tab.put b v s.pcx.win)).getD 0 = v
  split
  · next h => rw [Tab.find_del_same, h]; rfl
  · rw [Tab.find_put_same]; rfl

theorem burst64_putBurst_ne (s : State) {b c : Nat} (v : Nat) (h : c ≠ b) : (s.putBurst b v).burst64 c = s.burst64 c := by
  show (Tab.find c (if v = 0 then Tab.del b s.pcx.win else Tab.put b v s.pcx.win)).getD 0 = (Tab.find c s.pcx.win).getD 0
  split
  · rw [Tab.find_del_ne _ h]
  · rw [Tab.find_put_ne _ _ h]

theorem putBurst_keeps (s : State) (b v : Nat) : (s.putBurst b v).outs = s.outs ∧ (s.putBurst b v).regs = s.regs ∧ (s.putBurst b v).zn = s.zn :=
  ⟨rfl, rfl, rfl⟩

/-- The granule of a burst of the persistent range is dirty. -/
def markDirty (s : State) (g : Nat) : State :=
  let s := { s with pcx := { s.pcx with wb := s.pcx.wb.filter (fun x => x != g) } }
  if s.stg.dirty.contains g then s else { s with stg := { s.stg with dirty := s.stg.dirty ++ [g] } }

theorem markDirty_spec (s : State) (g : Nat) : g ∈ (s.markDirty g).stg.dirty ∧ (s.markDirty g).outs = s.outs ∧ (s.markDirty g).regs = s.regs ∧
    (s.markDirty g).zn = s.zn ∧ (s.markDirty g).pcx.win = s.pcx.win := by
  unfold markDirty
  dsimp only
  split
  · next h => exact ⟨List.contains_iff_mem.1 h, rfl, rfl, rfl, rfl⟩
  · exact ⟨List.mem_append_right _ (List.mem_singleton_self g), rfl, rfl, rfl, rfl⟩

/-- A clean write where nothing is poisoned merges its bytes, and marks a persistent granule dirty (15 R339; 06 R160). -/
theorem winWrite_clean {dpa : Nat} (data mask sym : Nat) (hp : s.drc.poison = []) :
    s.winWrite dpa data mask 0 sym = (if s.persistent dpa then (s.putBurst (dpa / 64) (mergeBytes (s.burst64 (dpa / 64)) data mask)).markDirty (dpa / 65536)
      else s.putBurst (dpa / 64) (mergeBytes (s.burst64 (dpa / 64)) data mask)) := by
  have hclr : s.clrPoison (dpa / 64) = s := by
    show { s with drc := { s.drc with poison := s.drc.poison.filter _ } } = s
    rw [show s.drc.poison.filter (fun x => x != dpa / 64) = s.drc.poison by rw [hp]; rfl]
  have hno : s.drc.poison.contains (dpa / 64) = false := by rw [hp]; rfl
  have hpers (v : Nat) : (s.putBurst (dpa / 64) v).persistent dpa = s.persistent dpa := rfl
  have hsel (c : Bool) : (if c = true then s else if (decide (2 ≤ 0) || false) = true then (s.dramUe dpa (decide (0 = 3))).setPoison (dpa / 64)
      else if 0 = 1 then s.dramCe dpa sym else s) = s := by cases c <;> rfl
  unfold winWrite
  dsimp only
  rw [hclr, hno, hsel]
  generalize mergeBytes (s.burst64 (dpa / 64)) data mask = v
  rw [hpers]
  cases s.persistent dpa <;> rfl

/-- What a write that goes to the window leaves (15 R339). -/
structure Written (s t : State) (dpa data mask : Nat) : Prop where
  bytes : ∀ i, i < 64 → bits (t.burst64 (dpa / 64)) (8 * i) 8 = if bit mask i then bits data (8 * i) 8 else bits (s.burst64 (dpa / 64)) (8 * i) 8
  others : ∀ b, b ≠ dpa / 64 → t.burst64 b = s.burst64 b
  dirty : s.persistent dpa = true → dpa / 65536 ∈ t.stg.dirty
  outs : t.outs = s.outs
  regs : t.regs = s.regs
  zn : t.zn = s.zn

theorem winWrite_written {dpa : Nat} (data mask sym : Nat) (hp : s.drc.poison = []) : Written s (s.winWrite dpa data mask 0 sym) dpa data mask := by
  have hv := fun i (hi : i < 64) => bits_mergeBytes (s.burst64 (dpa / 64)) data mask hi
  rw [winWrite_clean data mask sym hp]
  generalize mergeBytes (s.burst64 (dpa / 64)) data mask = v at hv ⊢
  have hsame := burst64_putBurst_same s (dpa / 64) v
  have hne := fun b (hb : b ≠ dpa / 64) => burst64_putBurst_ne s v hb
  have hm := putBurst_keeps s (dpa / 64) v
  generalize s.putBurst (dpa / 64) v = m at hsame hne hm ⊢
  obtain ⟨hmo, hmr, hmz⟩ := hm
  split
  · obtain ⟨hd, ho, hr, hz, hw⟩ := markDirty_spec m (dpa / 65536)
    generalize m.markDirty (dpa / 65536) = t at hd ho hr hz hw ⊢
    have hb (b : Nat) : t.burst64 b = m.burst64 b := by rw [burst64, hw, burst64]
    exact ⟨fun i hi => by rw [hb, hsame]; exact hv i hi, fun b hc => (hb b).trans (hne b hc), fun _ => hd, ho.trans hmo, hr.trans hmr, hz.trans hmz⟩
  · next h => exact ⟨fun i hi => by rw [hsame]; exact hv i hi, hne, fun hc => absurd hc h, hmo, hmr, hmz⟩

/-- A state that holds what the first one held is as good a start. -/
theorem Written.of_same {m t : State} {dpa data mask : Nat} (h : Written m t dpa data mask) (hb : ∀ b, m.burst64 b = s.burst64 b)
    (hp : m.persistent dpa = s.persistent dpa) (ho : m.outs = s.outs) (hr : m.regs = s.regs) (hz : m.zn = s.zn) : Written s t dpa data mask :=
  ⟨fun i hi => by rw [h.bytes i hi, hb], fun b hne => (h.others b hne).trans (hb b), fun hs => h.dirty (hp.trans hs), h.outs.trans ho, h.regs.trans hr,
    h.zn.trans hz⟩

/-- A write that is answered. -/
theorem Written.sent {t : State} {dpa data mask : Nat} (h : Written s t dpa data mask) (o : Out) :
    (∀ i, i < 64 → bits ((t.send o).burst64 (dpa / 64)) (8 * i) 8 = if bit mask i then bits data (8 * i) 8 else bits (s.burst64 (dpa / 64)) (8 * i) 8) ∧
    (∀ b, b ≠ dpa / 64 → (t.send o).burst64 b = s.burst64 b) ∧ (s.persistent dpa = true → dpa / 65536 ∈ (t.send o).stg.dirty) ∧
    (t.send o).outs = s.outs ++ [o] ∧ (t.send o).regs = s.regs ∧ (t.send o).zn = s.zn :=
  ⟨h.bytes, h.others, h.dirty, congrArg (· ++ [o]) h.outs, h.regs, h.zn⟩

/-- What serving a clean write does (06 R160; 15 R333). -/
theorem drcAct_write {r : DReq} {hpa data mask : Nat} (ha : r.act = .write hpa data mask 0 0) : s.drcAct r =
    if s.persistent r.dpa && (s.stg.dirty.length ≥ s.dirtyMax || !s.pcx.heldWr.isEmpty) then
      { s with pcx := { s.pcx with heldWr := s.pcx.heldWr ++ [(r.dpa, data, mask, 0, 0)] } }
    else (s.winWrite r.dpa data mask 0 0).send (.pcie "CXL write done" [hpa]) := by
  rw [drcAct, ha]

/-- A write that is served where its channel is free: what it does on a state that holds what the window held (15 R333). -/
theorem cxlMemWrite_taken {hpa base size : Nat} {e : XltEnt} (h : CxlServes s hpa base size e) (hw : e.wr = true) (data mask : Nat)
    (hq : s.dreqs (s.chOf (hpa - base)) = []) : ∃ m : State, execCxlMemWrite hpa data mask 1 0 0 s = .next (
      if m.persistent (hpa - base) && (m.stg.dirty.length ≥ m.dirtyMax || !m.pcx.heldWr.isEmpty) then
        { m with pcx := { m.pcx with heldWr := m.pcx.heldWr ++ [(hpa - base, data, mask, 0, 0)] } }
      else (m.winWrite (hpa - base) data mask 0 0).send (.pcie "CXL write done" [hpa])) ∧
    m.drc.poison = s.drc.poison ∧ m.stg = s.stg ∧ m.pcx = s.pcx ∧ m.outs = s.outs ∧ m.regs = s.regs ∧ m.zn = s.zn :=
  ⟨s.busy.islandTook ⟨2, hpa - base, s.el, s.el + s.rd F.DRC_PORT_TGT_TGT_NS 2, .write hpa data mask 0 0⟩,
    (cxlMemWrite_serves h hw data mask 1 0 0).trans (congrArg Host.Outcome.next
      ((drcRequest_taken (s := s.busy) 2 (.write hpa data mask 0 0) hq).trans (drcAct_write rfl))), rfl, rfl, rfl, rfl, rfl, rfl⟩

/-- What of the window's limits follows from the registers (06 R160). -/
theorem window_of_regs {m : State} (h : m.regs = s.regs) (dpa : Nat) : m.persistent dpa = s.persistent dpa ∧ m.dirtyMax = s.dirtyMax := by
  have hr (f : Fld) : m.rd f = s.rd f := by rw [rd, rd, h]
  refine ⟨?_, ?_⟩
  · rw [persistent, persistent, winSize, winSize, hr, hr]
  · rw [dirtyMax, dirtyMax, hr]

theorem ran_cxlMemWrite {hpa data mask base size : Nat} {e : XltEnt} (h : CxlServes s hpa base size e) (hw : e.wr = true) (hp : s.drc.poison = [])
    (hd : s.persistent (hpa - base) = true → s.stg.dirty.length < s.dirtyMax) (hh : s.pcx.heldWr = []) (hq : s.dreqs (s.chOf (hpa - base)) = []) :
    Ran (.cxlMemWrite hpa data mask 1 0 0) s (fun t =>
      (∀ i, i < 64 → bits (t.burst64 ((hpa - base) / 64)) (8 * i) 8 =
        if bit mask i then bits data (8 * i) 8 else bits (s.burst64 ((hpa - base) / 64)) (8 * i) 8) ∧
      (∀ b, b ≠ (hpa - base) / 64 → t.burst64 b = s.burst64 b) ∧
      (s.persistent (hpa - base) = true → (hpa - base) / 65536 ∈ t.stg.dirty) ∧ t.outs = s.outs ++ [.pcie "CXL write done" [hpa]] ∧
      t.regs = s.regs ∧ t.zn = s.zn) := by
  obtain ⟨m, hx, hpo, hstg, hpcx, hout, hreg, hz⟩ := cxlMemWrite_taken h hw data mask hq
  obtain ⟨hpers, hmax⟩ := window_of_regs hreg (hpa - base)
  have hb (b : Nat) : m.burst64 b = s.burst64 b := by rw [burst64, hpcx, burst64]
  have hroom : (m.persistent (hpa - base) && (decide (m.stg.dirty.length ≥ m.dirtyMax) || !m.pcx.heldWr.isEmpty)) = false := by
    rw [hpers, hstg, hmax, hpcx, hh]
    cases hs : s.persistent (hpa - base) with
    | false => rfl
    | true => simpa using hd hs
  have hw := (winWrite_written (s := m) (dpa := hpa - base) data mask 0 (hpo.trans hp)).of_same hb hpers hout hreg hz
  rw [hroom, if_neg Bool.false_ne_true] at hx
  generalize hpa - base = dpa at hw hx ⊢
  generalize m.winWrite dpa data mask 0 0 = u at hx hw
  exact ⟨_, hx, hw.sent _⟩

theorem ran_cxlMemWrite_waits {hpa data mask base size : Nat} {e : XltEnt} (h : CxlServes s hpa base size e) (hw : e.wr = true)
    (hp : s.persistent (hpa - base) = true) (hd : s.dirtyMax ≤ s.stg.dirty.length) (hq : s.dreqs (s.chOf (hpa - base)) = []) :
    Ran (.cxlMemWrite hpa data mask 1 0 0) s (fun t =>
      t.pcx = { s.pcx with heldWr := s.pcx.heldWr ++ [(hpa - base, data, mask, 0, 0)] } ∧ t.stg = s.stg ∧ t.outs = s.outs ∧ t.regs = s.regs ∧
      t.zn = s.zn) := by
  obtain ⟨m, hx, -, hstg, hpcx, hout, hreg, hz⟩ := cxlMemWrite_taken h hw data mask hq
  obtain ⟨hpers, hmax⟩ := window_of_regs hreg (hpa - base)
  have hfull : (m.persistent (hpa - base) && (decide (m.stg.dirty.length ≥ m.dirtyMax) || !m.pcx.heldWr.isEmpty)) = true := by
    rw [hpers, hstg, hmax, hp, decide_eq_true (show s.stg.dirty.length ≥ s.dirtyMax from hd)]
    rfl
  rw [hfull, if_pos rfl] at hx
  exact ⟨_, hx, by rw [← hpcx], hstg, hout, hreg, hz⟩

/-! ### Granules -/

theorem charge_keeps (s : State) (n : Nat) (q : Option Nat) (c : Nat) : (s.charge n q c).pcx = s.pcx ∧ (s.charge n q c).stg = s.stg ∧
    (s.charge n q c).zn = s.zn ∧ (s.charge n q c).outs = s.outs := by
  have h := charge_owner s n q c
  generalize s.charge n q c = t at h ⊢
  rw [h.frame]
  exact ⟨rfl, rfl, rfl, rfl⟩

/-- The write-back of a dirty granule starts once (06 R160). -/
theorem wbStart_starts {g : Nat} (hd : g ∈ s.stg.dirty) (hw : g ∉ s.pcx.wb) : (s.wbStart g).pcx = { s.pcx with wb := s.pcx.wb ++ [g] } ∧
    (s.wbStart g).stg = s.stg ∧ (s.wbStart g).zn = s.zn ∧ (s.wbStart g).outs = s.outs := by
  obtain ⟨hp, hs, hz, ho⟩ := charge_keeps s (((s.cxlEntry (g * 65536)).map (·.slice)).getD 0) none (chgWrite Desc.ref 65536)
  have hno : ¬ (!s.stg.dirty.contains g || s.pcx.wb.contains g) = true := by
    rw [List.contains_iff_mem.2 hd, Bool.not_true, Bool.false_or, List.contains_iff_mem]
    exact hw
  unfold wbStart
  rw [if_neg hno]
  exact ⟨by rw [← hp], hs, hz, ho⟩

/-- Every granule of a list of dirty ones is being written back (14 R324). -/
theorem wbStart_all (l : List Nat) : ∀ s : State, (∀ g ∈ l, g ∈ s.stg.dirty) →
    (l.foldl wbStart s).pcx.gpf = s.pcx.gpf ∧ (l.foldl wbStart s).stg = s.stg ∧ (l.foldl wbStart s).zn = s.zn ∧ (l.foldl wbStart s).outs = s.outs ∧
    (∀ g, g ∈ l ∨ g ∈ s.pcx.wb → g ∈ (l.foldl wbStart s).pcx.wb) := by
  induction l with
  | nil => exact fun s _ => ⟨rfl, rfl, rfl, rfl, fun g hg => hg.resolve_left (List.not_mem_nil)⟩
  | cons g l ih =>
    intro s hl
    have hone : (s.wbStart g).pcx.gpf = s.pcx.gpf ∧ (s.wbStart g).stg = s.stg ∧ (s.wbStart g).zn = s.zn ∧ (s.wbStart g).outs = s.outs ∧
        g ∈ (s.wbStart g).pcx.wb ∧ ∀ x ∈ s.pcx.wb, x ∈ (s.wbStart g).pcx.wb := by
      by_cases hw : g ∈ s.pcx.wb
      · have hn : s.wbStart g = s := if_pos (by rw [List.contains_iff_mem.2 hw, Bool.or_true])
        rw [hn]
        exact ⟨rfl, rfl, rfl, rfl, hw, fun _ h => h⟩
      · obtain ⟨hp, hs, hz, ho⟩ := wbStart_starts (hl g (List.mem_cons_self ..)) hw
        rw [hp]
        exact ⟨rfl, hs, hz, ho, List.mem_append_right _ (List.mem_singleton_self g), fun x hx => List.mem_append_left _ hx⟩
    obtain ⟨h₁, h₂, h₃, h₄, h₅, h₆⟩ := hone
    obtain ⟨i₁, i₂, i₃, i₄, i₅⟩ := ih (s.wbStart g) (fun x hx => h₂ ▸ hl x (List.mem_cons_of_mem _ hx))
    refine ⟨i₁.trans h₁, i₂.trans h₂, i₃.trans h₃, i₄.trans h₄, fun x hx => i₅ x ?_⟩
    rcases hx with hx | hx
    · rcases List.mem_cons.1 hx with rfl | hx
      · exact .inr h₅
      · exact .inl hx
    · exact .inr (h₆ x hx)

theorem ran_granuleStart {g : Nat} (hd : g ∈ s.stg.dirty) (hw : g ∉ s.pcx.wb) : Ran (.cxlGranuleWriteback g false) s (fun t =>
    t.pcx = { s.pcx with wb := s.pcx.wb ++ [g] } ∧ t.stg = s.stg ∧ t.zn = s.zn ∧ t.outs = s.outs) :=
  ⟨_, rfl, wbStart_starts hd hw⟩

/-- A granule that is saved stands in the image as the window holds it (06 R160). -/
theorem find_saveGranule (s : State) {g b : Nat} (h : inGran g b = true) : Tab.find b (s.saveGranule g).pcx.img = Tab.find b s.pcx.win := by
  obtain ⟨hlo, hhi⟩ : g * granBursts ≤ b ∧ b < (g + 1) * granBursts := by simpa [inGran] using h
  show Tab.find b (s.pcx.img.filter (fun e => e.1 < g * granBursts) ++ s.pcx.win.filter (fun e => inGran g e.1)
    ++ s.pcx.img.filter (fun e => (g + 1) * granBursts ≤ e.1)) = _
  rw [Tab.find_append_left, Tab.find_append]
  · exact Tab.find_filter b _ _ (fun _ => h)
  · intro e he hb
    have := (List.mem_filter.1 he).2
    rw [decide_eq_true_eq, hb] at this
    exact absurd hlo (Nat.not_le.2 this)
  · intro e he hb
    have := (List.mem_filter.1 he).2
    rw [decide_eq_true_eq, hb] at this
    exact absurd hhi (Nat.not_lt.2 this)

/-- A write-back that is done, nothing waiting for it, saves its granule and does no more. -/
theorem wbDone_eq {g : Nat} (hw : g ∈ s.pcx.wb) (hh : s.pcx.heldWr = []) (hg : s.pcx.gpf = none) : s.wbDone g = s.saveGranule g := by
  have hheld : (s.saveGranule g).pcx.heldWr = [] := hh
  have hgpf : (s.saveGranule g).pcx.gpf = none := hg
  unfold wbDone
  rw [if_pos (List.contains_iff_mem.2 hw)]
  generalize s.saveGranule g = m at hheld hgpf ⊢
  have hm : { m with pcx := { m.pcx with gpf := m.pcx.gpf.map (fun (l : List Nat) => l.filter (fun x => x != g)) } } = m := by
    rw [show m.pcx.gpf.map (fun (l : List Nat) => l.filter (fun x => x != g)) = m.pcx.gpf by rw [hgpf]; rfl]
  dsimp only
  rw [hm, hheld]
  show m.gpfCheck = m
  rw [gpfCheck, hgpf, if_neg (by simp)]

theorem ran_granuleDone {g : Nat} (hw : g ∈ s.pcx.wb) (hh : s.pcx.heldWr = []) (hg : s.pcx.gpf = none) : Ran (.cxlGranuleWriteback g true) s (fun t =>
    g ∉ t.stg.dirty ∧ g ∉ t.pcx.wb ∧ t.pcx.win = s.pcx.win ∧ t.outs = s.outs ∧ t.regs = s.regs ∧
    (∀ x, x ≠ g → (x ∈ t.stg.dirty ↔ x ∈ s.stg.dirty)) ∧ ∀ b, inGran g b = true → Tab.find b t.pcx.img = Tab.find b s.pcx.win) := by
  have hout (l : List Nat) : g ∉ l.filter (fun x => x != g) := fun h => by simpa using (List.mem_filter.1 h).2
  refine ⟨s.saveGranule g, congrArg Host.Outcome.next (wbDone_eq hw hh hg), hout _, hout _, rfl, rfl, rfl, fun x hx => ?_, fun b hb => find_saveGranule s hb⟩
  show x ∈ s.stg.dirty.filter (fun x => x != g) ↔ _
  rw [List.mem_filter]
  exact and_iff_left (by simpa using hx)

/-! ### Global persistent flush (14 R324) -/

theorem ran_gpfPhase1 (h : s.cxlOn = true) : Ran (.gpfPhase1) s (fun t => t = s.send (.pcie "GPF1 response" [])) :=
  ⟨_, congrArg Host.Outcome.next (if_pos h), rfl⟩

theorem gpfPhase2_eq (h : s.cxlOn = true) (hg : s.pcx.gpf = none) :
    execGpfPhase2 s = .next (s.stg.dirty.foldl wbStart { s with pcx := { s.pcx with gpf := some s.stg.dirty } }).gpfCheck := by
  unfold execGpfPhase2
  rw [h, hg]
  rfl

theorem ran_gpfPhase2_clean (h : s.cxlOn = true) (hg : s.pcx.gpf = none) (hd : s.stg.dirty = []) : Ran (.gpfPhase2) s (fun t =>
    t = s.send (.pcie "GPF2 response" [])) := by
  refine ⟨_, gpfPhase2_eq h hg, ?_⟩
  rw [hd]
  show ({ s with pcx := { s.pcx with gpf := none } }).send (.pcie "GPF2 response" []) = _
  rw [← hg]

theorem ran_gpfPhase2_dirty (h : s.cxlOn = true) (hg : s.pcx.gpf = none) (hd : s.stg.dirty ≠ []) : Ran (.gpfPhase2) s (fun t =>
    t.pcx.gpf = some s.stg.dirty ∧ (∀ g ∈ s.stg.dirty, g ∈ t.pcx.wb) ∧ t.stg = s.stg ∧ t.outs = s.outs ∧ t.zn = s.zn) := by
  obtain ⟨h₁, h₂, h₃, h₄, h₅⟩ := wbStart_all s.stg.dirty { s with pcx := { s.pcx with gpf := some s.stg.dirty } } (fun _ hx => hx)
  have hx := gpfPhase2_eq h hg
  generalize s.stg.dirty.foldl wbStart { s with pcx := { s.pcx with gpf := some s.stg.dirty } } = m at h₁ h₂ h₃ h₄ h₅ hx
  have hm : m.gpfCheck = m := by
    rw [gpfCheck, h₁]
    exact if_neg fun hc => hd (Option.some.inj hc)
  refine ⟨m, hx.trans (congrArg Host.Outcome.next hm), h₁, fun g hm => h₅ g (.inl hm), h₂, h₄, h₃⟩

theorem ran_hdmDecoderCommit (base size : Nat) (hu : s.rd F.PCX_LINK_STS_UP 0 = 1) (ha : s.rd F.PCX_CXL_STS_ACTIVE = 1) :
    Ran (.hdmDecoderCommit base size) s (fun t => t = { s with pcx := { s.pcx with hdm := some (base, size) } }) :=
  ⟨_, congrArg Host.Outcome.next (if_pos (by rw [decide_eq_true hu, decide_eq_true ha]; rfl)), rfl⟩

end State

/-- Settles O45. An access that is resolved is a request of its channel; a write merges bytes by its mask; a granule's write-back is saved as the window
holds it; GPF Phase 2 starts every write-back that is missing. -/
theorem cxlComplete : Obligations.CxlComplete := by
  unfold Obligations.CxlComplete
  exact ⟨fun _ _ _ _ _ h hr hp hq => State.ran_cxlMemRead h hr hp hq,
    fun _ _ _ _ sym _ _ h hr hq he hv => State.ran_cxlMemRead_bad sym h hr hq he hv,
    fun _ _ _ _ _ h hr => State.ran_cxlMemRead_queued h hr,
    fun _ _ _ _ _ _ _ h hr hq ha hp hu => State.ran_cxlMemRead_urgent h hr hq ha hp hu,
    fun _ _ hon hc ha hd => State.ran_cxlMemRead_miss hon hc ha hd,
    fun _ _ _ _ _ _ _ h hw hp hd hh hq => State.ran_cxlMemWrite h hw hp hd hh hq,
    fun _ _ _ _ _ _ _ h hw hp hd hq => State.ran_cxlMemWrite_waits h hw hp hd hq,
    fun _ _ hd hw => State.ran_granuleStart hd hw,
    fun _ _ hw hh hg => State.ran_granuleDone hw hh hg,
    fun _ h => State.ran_gpfPhase1 h,
    fun _ h hg hd => State.ran_gpfPhase2_clean h hg hd,
    fun _ h hg hd => State.ran_gpfPhase2_dirty h hg hd,
    fun base size _ hu ha => State.ran_hdmDecoderCommit base size hu ha⟩

end Sys2Proof.Machine
end


section
/-! O30: Layout Management (07 R178–R181, R503; 08 R204). -/

namespace Sys2Proof.Machine

namespace State
variable {s : State}

/-- A completion leaves the redundancy, the journal and the zones, and with success the registers. -/
theorem adm_layout (s : State) (o : Org) (cid : Nat) (st : Nat × Nat) (dw0 : Nat) (data : List Nat) :
    (s.adm o cid st dw0 data).rdn = s.rdn ∧ (s.adm o cid st dw0 data).ftl = s.ftl ∧ (s.adm o cid st dw0 data).zn = s.zn := by
  have h := Only.Event.adm (s := s) o cid st dw0 data
  generalize s.adm o cid st dw0 data = t at h ⊢
  rw [h.frame]
  exact ⟨rfl, rfl, rfl⟩

/-- A served manager's action of Layout Management runs once it has begun. -/
theorem layoutMgmt_run {o : Org} (h : Manages s o) (ht : s.tailFull = false) (cid : Nat) (f : State → State) : s.layoutMgmt o cid f = f (s.admBegin o) := by
  have hm : (!isMgr o) = false := by rw [h.2.1]; rfl
  rw [layoutMgmt, ht, if_neg Bool.false_ne_true, hm]
  exact managed_run h cid f

/-! ### Steps of a reshape (07 R180, R181) -/

/-- What a step of a reshape may change of the journal: it appends. -/
theorem rshpEnd_tail (s : State) : ∀ e ∈ s.ftl.jtail, e ∈ s.rshpEnd.ftl.jtail := by
  intro e he
  unfold rshpEnd
  split
  · exact he
  · dsimp only
    split
    · exact he
    · split <;> exact List.mem_append_left _ he

theorem rshpNext_tail (s : State) : ∀ e ∈ s.ftl.jtail, e ∈ s.rshpNext.ftl.jtail := by
  intro e he
  unfold rshpNext
  split
  · exact he
  · split
    · exact he
    · split
      · exact rshpEnd_tail s e he
      · exact he

/-- A reshape goes on while a zone is to leave. -/
theorem rshpNext_goes {r : Reshape} (hr : s.rdn.reshape = some r) (hl : s.leaving r ≠ []) : s.rshpNext.rdn.reshape = some r := by
  have he : s.rshpEnd = s := by
    have hn : (!(s.leaving r).isEmpty || !(s.leavingRows r).isEmpty) = true := by
      cases h : s.leaving r with
      | nil => exact absurd h hl
      | cons => rfl
    unfold rshpEnd
    rw [hr]
    exact if_pos hn
  unfold rshpNext
  rw [hr]
  dsimp only
  split
  · exact hr
  · split
    · rw [he]; exact hr
    · exact hr

/-- The zones that are to leave follow from the registers and the zones' rows. -/
theorem leaving_keeps {t : State} {r q : Reshape} (hr : t.regs = s.regs) (hz : t.zn.zx = s.zn.zx) (hg : q.grp = r.grp) (hs : q.shadow = r.shadow) :
    t.leaving q = s.leaving r := by
  have hd (i : Nat) : t.rd F.ZON_ENT0_DGROUP i = s.rd F.ZON_ENT0_DGROUP i := by rw [rd, rd, hr]
  simp only [leaving, hd, hz, hg, hs]

/-- A reshape in progress, journalled and stepped once. -/
theorem reshape_steps (m : State) (r : Reshape) (f : List Nat) (o : Org) (cid : Nat) (hr : m.rdn.reshape = some r) :
    RepliedWith (((m.jn 0x17 f).rshpNext).adm o cid stOk) o cid stOk 0 [] ∧
    (∃ e ∈ (((m.jn 0x17 f).rshpNext).adm o cid stOk).ftl.jtail, e.ty = 0x17 ∧ e.f = f) ∧
    (m.leaving r ≠ [] → (((m.jn 0x17 f).rshpNext).adm o cid stOk).rdn.reshape = some r) := by
  obtain ⟨hrdn, hftl, -⟩ := adm_layout (m.jn 0x17 f).rshpNext o cid stOk 0 []
  refine ⟨adm_replies .., ⟨⟨m.ftl.jnext, 0x17, f, .none, m.el⟩, ?_, rfl, rfl⟩, fun hl => ?_⟩
  · rw [hftl]
    exact rshpNext_tail _ _ (List.mem_append_right _ (List.mem_singleton_self _))
  · rw [hrdn]
    exact rshpNext_goes (s := m.jn 0x17 f) hr hl

theorem ran_beginReshape {o : Org} {g sup : Nat} {old new : Grp} (cid : Nat) (h : Manages s o) (ht : s.tailFull = false) (hr : s.rdn.reshape = none)
    (hp : s.rbldPending g = false) (ho : Tab.find g s.rdn.groups = some old) (hn : Tab.find sup s.rdn.supp = some (g, new))
    (hb : s.badTarget g old new = false) : Ran (.beginReshape o cid 1 g sup) s (fun t => RepliedWith t o cid stOk 0 [] ∧
      (∃ e ∈ t.ftl.jtail, e.ty = 0x17 ∧ e.f = [g, sup, 2]) ∧
      (s.leaving ⟨g, new, 0, 0, false⟩ ≠ [] → ∃ r, t.rdn.reshape = some r ∧ r.grp = g ∧ r.target = new ∧ r.rev = false ∧
        r.total = (s.leaving ⟨g, new, 0, 0, false⟩).length)) := by
  obtain ⟨qs, hq⟩ := s.admBegin_eq o
  let b : State := { s with sl := { s.sl with qs := qs } }
  let r : Reshape := ⟨g, new, 0, 0, false⟩
  let r' : Reshape := { r with total := (b.leaving r).length }
  let m : State := { b with rdn := { b.rdn with reshape := some r' }, zn := { b.zn with cursor := Tab.del (g + 64) b.zn.cursor } }
  have hbl : b.leaving r = s.leaving r := leaving_keeps rfl rfl rfl rfl
  have hml : m.leaving r' = s.leaving r := leaving_keeps rfl rfl rfl rfl
  have hfree : ¬ (b.rdn.reshape.isSome || b.rbldPending g) = true := by
    rw [show b.rdn.reshape = none from hr, show b.rbldPending g = false from hp]
    exact Bool.false_ne_true
  have hfit : ¬ (g != g || b.badTarget g old new) = true := by
    rw [show b.badTarget g old new = false from hb, bne_self_eq_false]
    exact Bool.false_ne_true
  have hx : execBeginReshape o cid 1 g sup s = .next (((m.jn 0x17 [g, sup, 2]).rshpNext).adm o cid stOk) := by
    unfold execBeginReshape
    rw [layoutMgmt_run h ht, hq]
    refine congrArg Host.Outcome.next ((if_neg (by decide)).trans ((if_neg (by decide)).trans ((if_neg hfree).trans ?_)))
    rw [show Tab.find g b.rdn.groups = some old from ho, show Tab.find sup b.rdn.supp = some (g, new) from hn]
    exact if_neg hfit
  obtain ⟨h₁, h₂, h₃⟩ := reshape_steps m r' [g, sup, 2] o cid rfl
  exact ⟨_, hx, h₁, h₂, fun hl => ⟨r', h₃ (by rw [hml]; exact hl), rfl, rfl, rfl, by rw [← hbl]⟩⟩

theorem ran_beginReshape_refused {o : Org} {act : Nat} (cid g sup : Nat) (h : Manages s o) (ht : s.tailFull = false) (ha : act = 0 ∨ 4 ≤ act) :
    Ran (.beginReshape o cid act g sup) s (fun t => Refuses s t o cid stField 0) := by
  obtain ⟨⟨-, hm, -⟩, -⟩ := id h
  have h₁ : ¬ (act = 2 || act = 3) = true := by
    rcases ha with rfl | ha
    · decide
    · simp only [Bool.or_eq_true, decide_eq_true_eq]
      omega
  have h₂ : (act != 1) = true := by
    rw [bne_iff_ne]
    omega
  refine ⟨(s.admBegin o).adm o cid stField, ?_, adm_refuses hm cid stField 0⟩
  show execBeginReshape o cid act g sup s = _
  unfold execBeginReshape
  rw [layoutMgmt_run h ht]
  exact congrArg Host.Outcome.next ((if_neg h₁).trans (if_pos h₂))

theorem ran_abortReshape_reversed {o : Org} {r : Reshape} (cid : Nat) (h : Manages s o) (ht : s.tailFull = false) (hr : s.rdn.reshape = some r)
    (hv : r.rev = true) : Ran (.abortReshape o cid) s (fun t => Completes s t o cid 0 []) := by
  obtain ⟨⟨-, hm, -⟩, -⟩ := id h
  obtain ⟨qs, hq⟩ := s.admBegin_eq o
  refine ⟨(s.admBegin o).adm o cid stOk, ?_, adm_completes hm cid 0 []⟩
  show execAbortReshape o cid s = _
  unfold execAbortReshape
  rw [layoutMgmt_run h ht, hq, show ({ s with sl := { s.sl with qs := qs } } : State).rdn.reshape = some r from hr]
  exact congrArg Host.Outcome.next (if_pos hv)

theorem ran_abortReshape {o : Org} {r : Reshape} (cid : Nat) (h : Manages s o) (ht : s.tailFull = false) (hr : s.rdn.reshape = some r)
    (hv : r.rev = false) : Ran (.abortReshape o cid) s (fun t => RepliedWith t o cid stOk 0 [] ∧
      (∃ e ∈ t.ftl.jtail, e.ty = 0x17 ∧ e.f = [r.grp, 0, 3]) ∧
      (s.leaving { r with rev := true, done := 0 } ≠ [] → ∃ q, t.rdn.reshape = some q ∧ q.grp = r.grp ∧ q.rev = true ∧ q.done = 0)) := by
  obtain ⟨qs, hq⟩ := s.admBegin_eq o
  let b : State := { s with sl := { s.sl with qs := qs } }
  let c : State := { b with ftl := { b.ftl with relocs := b.ftl.relocs.filter (fun j => j.kind != 4 || j.step = 2) } }
  let q : Reshape := { r with rev := true, done := 0 }
  let q' : Reshape := { q with total := (c.leaving q).length }
  let m : State := { c with rdn := { c.rdn with reshape := some q' } }
  have hml : m.leaving q' = s.leaving q := leaving_keeps rfl rfl rfl rfl
  have hx : execAbortReshape o cid s = .next (((m.jn 0x17 [r.grp, 0, 3]).rshpNext).adm o cid stOk) := by
    unfold execAbortReshape
    rw [layoutMgmt_run h ht, hq, show ({ s with sl := { s.sl with qs := qs } } : State).rdn.reshape = some r from hr]
    exact congrArg Host.Outcome.next (if_neg (by rw [hv]; exact Bool.false_ne_true))
  obtain ⟨h₁, h₂, h₃⟩ := reshape_steps m q' [r.grp, 0, 3] o cid rfl
  exact ⟨_, hx, h₁, h₂, fun hl => ⟨q', h₃ (by rw [hml]; exact hl), rfl, rfl, rfl⟩⟩

/-! ### Removal (07 R178; 08 R204) -/

/-- A hop that goes down without a break (08 R204). -/
theorem downCeiling_spec (d : State) (l b : Nat) : (((d.hopDown l b).ceiling false).hopSt l b = hDown) ∧
    ((d.hopDown l b).ceiling false).rd F.KZL_STS_BREAK l = d.rd F.KZL_STS_BREAK l ∧ ((d.hopDown l b).ceiling false).zn = d.zn := by
  have hst : (d.hopDown l b).hopSt l b = hDown := hopSt_setHop d l b (by decide)
  have hk : (d.hopDown l b).rd F.KZL_STS_BREAK l = d.rd F.KZL_STS_BREAK l := (setHop_hops d l b hDown).regs F.KZL_STS_BREAK l 0 0 (by decide)
  have hz : (d.hopDown l b).zn = d.zn := by
    obtain ⟨regs, kz, he⟩ := setHop_eq d l b hDown
    rw [hopDown, he]
  generalize d.hopDown l b = e at hst hk hz ⊢
  have hce := ceiling_event (s := e) false
  have hez := (ceiling_keeps e false).1
  generalize e.ceiling false = f at hce hez ⊢
  exact ⟨(hopSt_keeps hce.regs (by decide) (by decide) l b).trans hst, (hce.regs F.KZL_STS_BREAK l 0 0 (by decide)).trans hk, hez.trans hz⟩

/-- A position that may be removed is shown (08 R206). -/
def showRemoval (s : State) (l b : Nat) : State := (s.wr F.KZL_STS_REMOVE_OK 1 l).wr F.KZL_STS_REMOVE_POS b l

theorem showRemoval_spec (s : State) (l k : Nat) {b : Nat} (hb : b < 4) : (s.showRemoval l b).rd F.KZL_STS_REMOVE_OK l = 1 ∧
    (s.showRemoval l b).rd F.KZL_STS_REMOVE_POS l = b ∧ (s.showRemoval l b).rd F.KZL_STS_BREAK l = s.rd F.KZL_STS_BREAK l ∧
    (s.showRemoval l b).hopSt l k = s.hopSt l k ∧ (s.showRemoval l b).zn = s.zn := by
  have h1 : cut F.KZL_STS_REMOVE_OK.w 1 = 1 := rfl
  have h2 : cut F.KZL_STS_REMOVE_POS.w b = b := Nat.mod_eq_of_lt hb
  have hw : Keeps s (s.showRemoval l b) [F.KZL_STS_REMOVE_OK, F.KZL_STS_REMOVE_POS] :=
    (Keeps.wr (f := F.KZL_STS_REMOVE_OK) (by decide) s 1 l 0 0).trans (Keeps.wr (f := F.KZL_STS_REMOVE_POS) (by decide) _ b l 0 0)
  refine ⟨?_, ?_, hw F.KZL_STS_BREAK l 0 0 (by decide), hopSt_keeps hw (by decide) (by decide) l k, rfl⟩
  · rw [showRemoval, rd_wr_id _ _ _ _ _ _ _ _ _ _ (by decide), rd_wr_same, h1]
  · rw [showRemoval, rd_wr_same, h2]

/-- What is cut off below a hop leaves the break and the zones, where no die is there. -/
theorem cutOff_keeps (s : State) (l b : Nat) (hd : s.die.dies = []) : (s.cutOff l b).rd F.KZL_STS_BREAK l = s.rd F.KZL_STS_BREAK l ∧ (s.cutOff l b).zn = s.zn := by
  obtain ⟨hcr, hcz⟩ := s.cutFlits_keeps l b
  have hcut := cutOff_broke (s := s) l b hd
  have hc₀ : (s.cutFlits l b).rd F.KZL_STS_BREAK l = s.rd F.KZL_STS_BREAK l := by rw [rd, hcr, rd]
  generalize s.cutFlits l b = c at hcr hcz hcut hc₀
  generalize s.cutOff l b = d at hcut ⊢
  exact ⟨(hcut.regs F.KZL_STS_BREAK l 0 0 (by decide)).trans hc₀, (broke_keeps hcut).2.trans hcz⟩

/-- A position that is cut off and whose hop goes down, where no die is there. -/
theorem removal_spec {l b : Nat} (s : State) (hd : s.die.dies = []) (hb : b < 4) :
    let t := (((s.cutOff l b).hopDown l b).ceiling false).showRemoval l b
    t.hopSt l b = hDown ∧ t.rd F.KZL_STS_REMOVE_OK l = 1 ∧ t.rd F.KZL_STS_REMOVE_POS l = b ∧ t.rd F.KZL_STS_BREAK l = s.rd F.KZL_STS_BREAK l ∧
      t.zn = s.zn := by
  obtain ⟨hcb, hcz⟩ := cutOff_keeps s l b hd
  obtain ⟨hst, hdb, hdz⟩ := downCeiling_spec (s.cutOff l b) l b
  obtain ⟨h₁, h₂, h₃, h₄, h₅⟩ := showRemoval_spec (((s.cutOff l b).hopDown l b).ceiling false) l b hb
  exact ⟨h₄.trans hst, h₁, h₂, h₃.trans (hdb.trans hcb), h₅.trans (hdz.trans hcz)⟩

theorem ran_prepareRemoval {o : Org} {l b : Nat} (cid : Nat) (h : Manages s o) (ht : s.tailFull = false) (hl : l < 64) (hb : b < 4)
    (hp : s.rd F.KZL_BID_PRESENT l b ≠ 0) (hd : s.die.dies = []) : Ran (.prepareRemoval o cid l b) s (fun t =>
      t.hopSt l b = hDown ∧ t.rd F.KZL_STS_REMOVE_OK l = 1 ∧ t.rd F.KZL_STS_REMOVE_POS l = b ∧
      t.rd F.KZL_STS_BREAK l = s.rd F.KZL_STS_BREAK l ∧ t.zn = s.zn ∧ RepliedWith t o cid stOk 0 []) := by
  obtain ⟨qs, hq⟩ := s.admBegin_eq o
  let a : State := { s with sl := { s.sl with qs := qs } }
  have hok : ¬ (l ≥ 64 || b ≥ 4 || a.rd F.KZL_BID_PRESENT l b = 0) = true := by
    simp only [Bool.or_eq_true, decide_eq_true_eq, not_or, Nat.not_le]
    exact ⟨⟨hl, hb⟩, hp⟩
  have hx : execPrepareRemoval o cid l b s =
      .next (((((a.cutOff l b).hopDown l b).ceiling false).showRemoval l b).adm o cid stOk) := by
    unfold execPrepareRemoval
    rw [layoutMgmt_run h ht, hq]
    exact congrArg Host.Outcome.next (if_neg hok)
  have hr := removal_spec (l := l) a hd hb
  dsimp only at hr
  generalize (((a.cutOff l b).hopDown l b).ceiling false).showRemoval l b = m at hr hx
  obtain ⟨h₁, h₂, h₃, h₄, h₅⟩ := hr
  have hregs := adm_ok_regs m o cid 0 []
  have hrd (f : Fld) (i j : Nat) : (m.adm o cid stOk).rd f i j = m.rd f i j := by rw [rd, hregs, rd]
  exact ⟨_, hx, (hopSt_of_regs hregs l b).trans h₁, (hrd ..).trans h₂, (hrd ..).trans h₃, (hrd ..).trans h₄, (adm_layout m o cid stOk 0 []).2.2.trans h₅,
    adm_replies ..⟩

end State

/-- Settles O30. A reshape that starts or turns round is journalled and takes its first step, which ends it only where no zone is to leave; a removal cuts the
position off and sets its hop down, with no break. -/
theorem layoutManagementComplete : Obligations.LayoutManagementComplete := by
  unfold Obligations.LayoutManagementComplete
  exact ⟨fun _ cid _ _ _ _ _ h ht hr hp ho hn hb => State.ran_beginReshape cid h ht hr hp ho hn hb,
    fun _ cid _ g sup _ h ht ha => State.ran_beginReshape_refused cid g sup h ht ha,
    fun _ cid _ _ h ht hr => ⟨State.ran_abortReshape_reversed cid h ht hr, State.ran_abortReshape cid h ht hr⟩,
    fun _ cid _ _ _ h ht hl hb hp hd => State.ran_prepareRemoval cid h ht hl hb hp hd⟩

end Sys2Proof.Machine
end


section
/-! SUPPORT. Work on the media that goes on leaves what dies run and count, and what blocks are. -/

namespace Sys2Proof.Machine

/-- A die's record but for its queue and its cursor. -/
def DieSt.fixed (x : DieSt) : DieSt := { x with queue := [], cursor := 0 }

/-- A block keeps its erases, stays bad, and does not come to wait for an erase. -/
structure BlkSt.Firm (x y : BlkSt) : Prop where
  erases : y.erases = x.erases
  bad : x.use = .bad → y.use = .bad
  live : x.use ≠ .stale → y.use ≠ .stale

theorem BlkSt.Firm.refl (x : BlkSt) : x.Firm x := ⟨rfl, id, id⟩

theorem BlkSt.Firm.trans {x y z : BlkSt} (h : x.Firm y) (k : y.Firm z) : x.Firm z := ⟨k.erases.trans h.erases, k.bad ∘ h.bad, k.live ∘ h.live⟩

/-- Dies change in their queues and cursors alone, blocks are taken alone; rows that reads still use and commands in flight are not added. -/
structure Steady (s t : State) : Prop where
  dies : ∀ d, (t.dieOf d).fixed = (s.dieOf d).fixed
  blks : ∀ b, (s.blkOf b).Firm (t.blkOf b)
  doomed : s.zn.doomed = [] → t.zn.doomed = []
  cmds : t.zn.cmds ⊆ s.zn.cmds

def Bound.steady : Bound where
  rel := Steady
  refl _ := ⟨fun _ => rfl, fun _ => .refl _, id, fun _ h => h⟩
  trans h k := ⟨fun d => (k.dies d).trans (h.dies d), fun b => (h.blks b).trans (k.blks b), k.doomed ∘ h.doomed, fun _ hc => h.cmds (k.cmds hc)⟩

theorem State.dieOf_putDie_same (s : State) (d : Nat) (x : DieSt) : (s.putDie d x).dieOf d = x :=
  congrArg (·.getD DieSt.absent) (Tab.find_put_same d x s.die.dies)

theorem State.dieOf_putDie_ne (s : State) {d e : Nat} (x : DieSt) (h : e ≠ d) : (s.putDie d x).dieOf e = s.dieOf e :=
  congrArg (·.getD DieSt.absent) (Tab.find_put_ne x s.die.dies h)

theorem State.blkOf_putBlk_same (s : State) (b : Blk) (x : BlkSt) : (s.putBlk b x).blkOf b = x :=
  congrArg (·.getD BlkSt.fresh) (Tab.find_put_same (b.die * 2048 + b.blk) x s.die.blks)

theorem State.blkOf_putBlk (s : State) (b c : Blk) (x : BlkSt) :
    (s.putBlk b x).blkOf c = if c.die * 2048 + c.blk = b.die * 2048 + b.blk then x else s.blkOf c := by
  split
  · next h => exact congrArg (·.getD BlkSt.fresh) ((congrArg (fun k => Tab.find k _) h).trans (Tab.find_put_same (b.die * 2048 + b.blk) x s.die.blks))
  · next h => exact congrArg (·.getD BlkSt.fresh) (Tab.find_put_ne x s.die.blks h)

theorem State.blkOf_of_key (s : State) {b c : Blk} (h : c.die * 2048 + c.blk = b.die * 2048 + b.blk) : s.blkOf c = s.blkOf b := by
  rw [State.blkOf, State.blkOf, h]

namespace Only

theorem eventSteady {s t : State} (h : Only .event s t) : Only .steady s t := by
  have hd : t.die = s.die := by rw [h.frame]; rfl
  have hz : t.zn = s.zn := by rw [h.frame]; rfl
  refine ⟨⟨fun d => by rw [State.dieOf, State.dieOf, hd], fun b => ?_, fun h => by rw [hz, h], fun _ hc => hz ▸ hc⟩⟩
  rw [State.blkOf, State.blkOf, hd]
  exact .refl _

/-- As `foldlSome`, of steps that carry a value along. -/
theorem foldlSome₂ {c : Bound} {α β : Type} {f : Option (State × β) → α → Option (State × β)} {l : List α} {p : State × β} (hn : ∀ a, f none a = none)
    (h : ∀ p a, OfSome₂ c p.1 (f (some p) a)) : OfSome₂ c p.1 (l.foldl f (some p)) := by
  induction l generalizing p with
  | nil => exact .some (.refl p.1)
  | cons a l ih =>
    have ha := h p a
    simp only [List.foldl_cons]
    cases e : f (some p) a with
    | none => exact ⟨fun k => by rw [List.foldl_fixed' hn] at k; cases k⟩
    | some t => exact ih.after (ha.get e)

namespace Steady

-- So the unifier sees a match on an option as the recursor that `opt` speaks of.
set_option smartUnfolding false

theorem upd {s : State} {regs tim evr ras sl zn stg rdn die ftl fns assocs cip cap net pup pwr img gen kz pcx drc outs free pending}
    (h : (zn.cmds, zn.doomed, die.dies, die.blks) = (s.zn.cmds, s.zn.doomed, s.die.dies, s.die.blks)) :
    Only .steady s ⟨regs, tim, evr, ras, sl, zn, stg, rdn, die, ftl, fns, assocs, cip, cap, net, pup, pwr, img, gen,
      kz, pcx, drc, outs, free, pending⟩ := by
  obtain ⟨hc, hz, hd, hb⟩ : zn.cmds = s.zn.cmds ∧ zn.doomed = s.zn.doomed ∧ die.dies = s.die.dies ∧ die.blks = s.die.blks := by simpa using h
  refine ⟨⟨fun d => ?_, fun b => ?_, fun h => hz.trans h, fun _ h => hc ▸ h⟩⟩
  · exact congrArg (fun l => ((Tab.find d l).getD DieSt.absent).fixed) hd
  · rw [State.blkOf, State.blkOf, show (⟨regs, tim, evr, ras, sl, zn, stg, rdn, die, ftl, fns, assocs, cip, cap, net, pup, pwr, img, gen,
      kz, pcx, drc, outs, free, pending⟩ : State).die.blks = s.die.blks from hb]
    exact .refl _

variable (s : State)

theorem wr (f : Fld) (v i j p : Nat) : Only .steady s (s.wr f v i j p) := upd rfl

theorem inc (f : Fld) (i j n : Nat) : Only .steady s (s.inc f i j n) := upd rfl

theorem addw (f : Fld) (n i j : Nat) : Only .steady s (s.addw f n i j) := upd rfl

theorem dec (f : Fld) (i j n : Nat) : Only .steady s (s.dec f i j n) := upd rfl

theorem clr (f : Fld) (i j p : Nat) : Only .steady s (s.clr f i j p) := upd rfl

theorem dropCmd (q cid : Nat) : Only .steady s (s.dropCmd q cid) :=
  ⟨⟨fun _ => rfl, fun _ => .refl _, id, List.filter_sublist.subset⟩⟩

theorem putDie {d : Nat} {x : DieSt} (h : x.fixed = (s.dieOf d).fixed) : Only .steady s (s.putDie d x) := by
  refine ⟨⟨fun e => ?_, fun _ => .refl _, id, fun _ h => h⟩⟩
  by_cases he : e = d
  · rw [he, State.dieOf_putDie_same, h]
  · rw [State.dieOf_putDie_ne _ _ he]

theorem putBlk {b : Blk} {x : BlkSt} (h : (s.blkOf b).Firm x) : Only .steady s (s.putBlk b x) := by
  refine ⟨⟨fun _ => rfl, fun c => ?_, id, fun _ h => h⟩⟩
  rw [State.blkOf_putBlk]
  split
  · next hc => rw [s.blkOf_of_key hc]; exact h
  · exact .refl _

theorem freeTails (b : Blk) : Only .steady s (s.freeTails b) := by
  unfold State.freeTails
  exact upd rfl

/-- A block that is taken was erased. -/
theorem takeBlk (d : Nat) (onebit rebuild : Bool) : Only.OfSome₂ .steady s (s.takeBlk d onebit rebuild) := by
  unfold State.takeBlk
  refine .optMem (fun b hb => .some (.pair ((putDie _ ?_).after (.after (.ite (freeTails ..) (.refl _)) (putBlk s ?_))))) .none
  · rfl
  have hn : s.nextErased d = some b := by
    split at hb
    · exact hb
    · exact nomatch hb
  have he : (s.blkOf ⟨d, b⟩).use = .erased := by simpa using List.find?_some hn
  exact ⟨rfl, fun h => BlkUse.noConfusion (he.symm.trans h), fun _ h => BlkUse.noConfusion h⟩

theorem enq (d : Nat) (o : DOp) : Only .steady s (s.enq d o) := by
  unfold State.enq
  exact .after (upd rfl) (putDie s rfl)

theorem dequeue (d : Nat) (keep : DOp → Bool) : Only .steady s (s.dequeue d keep) := by
  unfold State.dequeue
  exact putDie s rfl

theorem bump : Only .steady s s.bump := by
  unfold State.bump
  exact upd rfl

theorem stale (slice : Nat) : Only .steady s (s.stale slice) := by
  unfold State.stale
  exact inc ..

theorem putVec (v : VecSt) : Only .steady s (s.putVec v) := by
  unfold State.putVec
  exact upd rfl

theorem signal (func vec urg : Nat) (t : Stamp) : Only .steady s (s.signal func vec urg t) := by
  unfold State.signal
  exact .opt (fun _ => (.ite ((Event.send ..).eventSteady.after (putVec ..)) (putVec ..))) (Event.send ..).eventSteady

theorem fin (c : Cmd) (st : Nat × Nat) (dw0 : Nat) (data : List Nat) (die : Option Nat) : Only .steady s (s.fin c st dw0 data die) := by
  unfold State.fin
  exact .ite
    (.refl _)
    (.after
      (.ite
        (stale ..)
        (.after
          (.opt
            (fun _ =>
              (.after
                (.ite
                  (Event.sendQp ..).eventSteady
                  (.ite (Event.hold ..).eventSteady (.after (.opt (fun _ => (signal ..)) (.refl _)) ((Event.pushCq ..).eventSteady.after (Event.send ..).eventSteady))))
                (Event.putQ ..).eventSteady))
            (.refl _))
          (.after (.ite (inc ..) (.refl _)) (Event.logErr ..).eventSteady)))
      (dropCmd ..))

theorem jn (ty : Nat) (f : List Nat) (act : JAct) : Only .steady s (s.jn ty f act) := by
  unfold State.jn
  exact upd rfl

theorem jnBlks (l : List Blk) : Only .steady s (s.jnBlks l) := by
  unfold State.jnBlks
  exact .foldl (fun _ _ => (jn ..))

theorem putZx (h : Nat) (z : ZoneX) : Only .steady s (s.putZx h z) := by
  unfold State.putZx
  exact upd rfl

theorem zseq (h : Nat) : Only .steady s (s.zseq h) := by
  unfold State.zseq
  exact addw ..

theorem jnZone (h : Nat) : Only .steady s (s.jnZone h) := by
  unfold State.jnZone
  exact (jn ..)

theorem putRow (r : RowId) (x : SRow) : Only .steady s (s.putRow r x) := by
  unfold State.putRow
  refine .ite (.opt (fun _ => (upd rfl)) (.refl _)) (.ite ⟨⟨fun _ => rfl, fun _ => .refl _, fun h => ?_, fun _ h => h⟩⟩ (putZx ..))
  exact congrArg (List.map _) h

theorem zoneChanged (nsid zslba slice : Nat) : Only .steady s (s.zoneChanged nsid zslba slice) := by
  unfold State.zoneChanged
  exact .foldl (fun _ _ => ((Event.notify ..).eventSteady.after (.ite (.refl _) (upd rfl))))

theorem limits (n : Nat) : Only .steady s (s.limits n) := by
  unfold State.limits
  exact .ite (.after (.ite (Event.raise ..).eventSteady (.refl _)) ((wr ..).after (wr ..))) ((wr ..).after (wr ..))

theorem zmark (h : Nat) : Only .steady s (s.zmark h) := by
  unfold State.zmark
  exact .ite (.refl _) (upd rfl)

theorem setZst (h z : Nat) : Only .steady s (s.setZst h z) := by
  unfold State.setZst
  exact (jnZone ..).after
    ((limits ..).after
      (.after
        (.ite (addw ..) (.ite (dec ..) (.refl _)))
        (.after
          (.ite ((addw ..).after (addw ..)) (.ite ((dec ..).after (dec ..)) (.refl _)))
          ((zseq ..).after ((wr ..).after (zmark ..))))))

theorem giveSram (h : Nat) (rsv : Bool) : Only .steady s (s.giveSram h rsv) := by
  unfold State.giveSram
  exact (zseq ..).after ((addw ..).after ((addw ..).after ((putZx ..).after (wr ..))))

theorem dropSram (h p : Nat) : Only .steady s (s.dropSram h p) := by
  unfold State.dropSram
  exact (zseq ..).after ((dec ..).after ((dec ..).after (wr ..)))

theorem promote : Only .steady s s.promote := by
  unfold State.promote
  exact .foldl (fun _ _ => (.ite (.opt (fun _ => (giveSram ..)) (.refl _)) (.refl _)))

theorem dropSlot (h : Nat) : Only .steady s (s.dropSlot h) := by
  unfold State.dropSlot
  exact .ite ((promote ..).after (dropSram ..)) (.ite ((zseq ..).after (wr ..)) (.refl _))

theorem takeAll (onebit : Bool) (ds : List Nat) : Only₁ .steady s (s.takeAll onebit ds) := by
  induction ds generalizing s with
  | nil => exact refl s
  | cons d ds ih => exact .optMem (fun p e => .pair ((ih p.1).after ((takeBlk ..).get e))) (.pair (ih s))

theorem dropDirect (h : Nat) : Only .steady s (s.dropDirect h) := by
  unfold State.dropDirect
  exact .ite ((putZx ..).after (dec ..)) (.refl _)

theorem failHeld (c : Cmd) (st : Nat × Nat) : Only .steady s (s.failHeld c st) := by
  unfold State.failHeld
  exact (fin ..).after ((zseq ..).after ((dec ..).after (inc ..)))

theorem failHolds (h : Nat) (st : Nat × Nat) : Only .steady s (s.failHolds h st) := by
  unfold State.failHolds
  exact .foldl (fun _ _ => (failHeld ..))

theorem progPage (r : RowId) (k w p m n : Nat) (purp : Purp) (force : Bool) : Only .steady s (s.progPage r k w p m n purp force) := by
  unfold State.progPage
  exact .opt
    (fun _ =>
      (.ite (.refl _) (.after (.ite (.refl _) ((enq ..).after (.ite (Event.charge ..).eventSteady (.refl _)))) (.ite (.refl _) (upd rfl)))))
    (.refl _)

theorem progWl (r : RowId) (w n : Nat) (purp : Purp) : Only .steady s (s.progWl r w n purp) := by
  unfold State.progWl
  exact .opt (fun _ => (.foldl (fun _ _ => (enq ..)))) (.refl _)

theorem openWin (r : RowId) : Only .steady s (s.openWin r) := by
  unfold State.openWin
  exact .opt
    (fun _ => (.ite (.refl _) (.after (.ite (.refl _) (zseq ..)) ((putRow ..).after ((jnBlks ..).after (takeAll ..))))))
    (.refl _)

theorem padDone (r : RowId) : Only .steady s (s.padDone r) := by
  unfold State.padDone
  exact .ite (.refl _) ((zseq ..).after ((wr ..).after ((dropSlot ..).after ((dropDirect ..).after (putZx ..)))))

theorem padRow (h : Nat) : Only .steady s (s.padRow h) := by
  unfold State.padRow
  exact .ite
    (.refl _)
    ((padDone ..).after
      (.after
        (.ite
          (.refl _)
          (.ite
            (.ite (.refl _) (progWl ..))
            (.foldl
              (fun _ _ =>
                (.after
                  (.foldl (fun _ _ => (.opt (fun _ => (.ite (progPage ..) (.refl _))) (.refl _))))
                  (.opt (fun _ => (.ite (.refl _) (openWin ..))) (.refl _)))))))
        (putZx ..)))

theorem failUncommitted (h : Nat) (st : Nat × Nat) : Only .steady s (s.failUncommitted h st) := by
  unfold State.failUncommitted
  exact .foldl (fun _ _ => (fin ..))

theorem becomeFull (h : Nat) : Only .steady s (s.becomeFull h) := by
  unfold State.becomeFull
  exact .after
    (.ite (padRow ..) (.refl _))
    ((failUncommitted ..).after ((failHolds ..).after ((setZst ..).after ((wr ..).after ((putZx ..).after (zmark ..))))))

theorem ctlFinish (h : Nat) : Only .steady s (s.ctlFinish h) := by
  unfold State.ctlFinish
  exact .ite ((zoneChanged ..).after ((inc ..).after ((wr ..).after (becomeFull ..)))) (.refl _)

theorem noSpare (r : RowId) : Only .steady s (s.noSpare r) := by
  unfold State.noSpare
  exact .ite (.refl _) (ctlFinish ..)

theorem substitute (r : RowId) (m : Nat) : Only .steady s (s.substitute r m) := by
  unfold State.substitute
  exact .opt
    (fun _ =>
      (.ite
        (.refl _)
        (.ite
          ((noSpare ..).after (.ite (.refl _) ((Event.raise ..).eventSteady.after (wr ..))))
          (.opt
            (fun _ => (.optMem (fun _ h0 => ((jn ..).after (.after (upd rfl) ((takeBlk ..).get h0)))) (noSpare ..)))
            (noSpare ..)))))
    (.refl _)

theorem openTail (d t : Nat) : Only.OfSome .steady s (s.openTail d t) := by
  unfold State.openTail
  refine .ite .none ⟨fun e => ?_⟩
  obtain ⟨p, hp, rfl⟩ := Option.map_eq_some_iff.1 e
  exact .after (upd rfl) ((takeBlk ..).get hp)

theorem putTail (e : Tail) : Only .steady s (s.putTail e) := by
  unfold State.putTail
  exact upd rfl

theorem takeTail (b : Blk) (t q : Nat) : Only.OfSome .steady s (s.takeTail b t q) := by
  refine ⟨fun e => ?_⟩
  obtain ⟨m, hm, e⟩ := Option.bind_eq_some_iff.1 e
  obtain ⟨f, -, rfl⟩ := Option.map_eq_some_iff.1 e
  exact (putTail ..).after (OfSome.get (.ite (.some (.refl _)) (openTail ..)) hm)

theorem reserveTails (b : Blk) (t : Nat) : Only.OfSome .steady s (s.reserveTails b t) := by
  unfold State.reserveTails
  exact .ite (.some (.refl _)) (foldlSome (fun _ => rfl) (fun _ _ => takeTail ..))

theorem asTier (b : Blk) (t : Nat) : Only .steady s (s.asTier b t) := by
  unfold State.asTier
  refine .ite (.refl _) (.after (.ite (.refl _) (reserveTails ..).getD) ((putBlk (s.freeTails b) ?_).after (freeTails ..)))
  exact ⟨rfl, id, id⟩

theorem tailMove (d b : Nat) : Only .steady s (s.tailMove d b) := by
  unfold State.tailMove
  refine .ite (.refl _) (.optMem (fun p e => .after (upd rfl) ((bump ..).after ((Event.chargeBg ..).eventSteady.after ?_))) (.refl _))
  refine OfSome₂.get (foldlSome₂ (fun _ => rfl) (fun p x => ⟨fun e => ?_⟩)) e
  dsimp only [Option.bind] at e
  split at e
  · cases e
  next m hm =>
    obtain ⟨f, -, rfl⟩ := Option.map_eq_some_iff.1 e
    exact (putTail ..).after (OfSome.get (.ite (.some (.refl _)) (openTail ..)) hm)

theorem openWaiting : Only .steady s s.openWaiting := by
  unfold State.openWaiting
  exact .foldl
    (fun _ _ =>
      (.opt (fun _ => (.ite (.refl _) (.after (.foldl (fun _ _ => (.ite (progPage ..) (.refl _)))) (openWin ..)))) (.refl _)))

theorem replaceBlk (r : RowId) (m : Nat) (old : Blk) (onebit : Bool) (tier : Nat) (o : DOp) :
    Only .steady s (s.replaceBlk r m old onebit tier o) := by
  unfold State.replaceBlk
  exact .optMem
    (fun _ h0 => (.after (upd rfl) ((bump ..).after ((Event.chargeBg ..).eventSteady.after ((asTier ..).after ((takeBlk ..).get h0))))))
    (substitute ..)


end Steady
end Only
end Sys2Proof.Machine
end


section
/-! O21: failures of dies (09 R221–R228). -/

namespace Sys2Proof.Machine

/-- What a die's record shows beside its queue and its cursor. -/
theorem DieSt.of_fixed {x y : DieSt} (h : x.fixed = y.fixed) : x.cur = y.cur ∧ x.gbb = y.gbb ∧ x.pfail = y.pfail ∧ x.allFails = y.allFails ∧
    x.resets = y.resets :=
  ⟨(congrArg DieSt.cur h :), (congrArg DieSt.gbb h :), (congrArg DieSt.pfail h :), (congrArg DieSt.allFails h :), (congrArg DieSt.resets h :)⟩

namespace State
variable {s t : State}

/-! ### What failures leave -/

/-- Nothing new waits for an operation or the journal, the user data is as it was, and so are the limits of failures of dies (09 R226). -/
structure Rests (s t : State) : Prop where
  waits : t.sl.waits = s.sl.waits
  creates : t.sl.creates = s.sl.creates
  dels : t.sl.dels = s.sl.dels
  erases : t.cip.erases = s.cip.erases
  doomed : s.zn.doomed = [] → t.zn.doomed = []
  cmds : t.zn.cmds ⊆ s.zn.cmds
  ud : t.zn.ud = s.zn.ud
  gbb : t.rd F.MED_RET_CFG_GBB_MAX = s.rd F.MED_RET_CFG_GBB_MAX
  resets : t.rd F.MED_RET_CFG_RESETS = s.rd F.MED_RET_CFG_RESETS
  wear : t.rd F.MED_RET_CFG_RET_WEAR = s.rd F.MED_RET_CFG_RET_WEAR

theorem Rests.refl (s : State) : Rests s s := ⟨rfl, rfl, rfl, rfl, id, fun _ h => h, rfl, rfl, rfl, rfl⟩

theorem Rests.trans {u : State} (h : Rests s t) (k : Rests t u) : Rests s u :=
  ⟨k.waits.trans h.waits, k.creates.trans h.creates, k.dels.trans h.dels, k.erases.trans h.erases, k.doomed ∘ h.doomed, fun _ hc => h.cmds (k.cmds hc),
    k.ud.trans h.ud, k.gbb.trans h.gbb, k.resets.trans h.resets, k.wear.trans h.wear⟩

theorem Rests.still (h : Rests s t) (k : Still s) : Still t :=
  ⟨h.doomed k.rows, h.waits.trans k.resets, h.creates.trans k.creates, h.erases.trans k.erases, h.dels.trans k.deletes, fun c hc => k.keys c (h.cmds hc)⟩

/-- Work that puts a member elsewhere leaves what the slices wait for, and the user data. -/
theorem redo_keeps (h : Only .redo s t) : t.sl.waits = s.sl.waits ∧ t.sl.creates = s.sl.creates ∧ t.sl.dels = s.sl.dels ∧
    t.cip.erases = s.cip.erases ∧ t.zn.ud = s.zn.ud := by
  rw [h.frame]
  exact ⟨rfl, rfl, rfl, rfl, rfl⟩

theorem Rests.of_redo (h : Only .redo s t) (hd : s.zn.doomed = [] → t.zn.doomed = []) (hc : t.zn.cmds ⊆ s.zn.cmds) : Rests s t := by
  obtain ⟨h₁, h₂, h₃, h₄, h₅⟩ := redo_keeps h
  exact ⟨h₁, h₂, h₃, h₄, hd, hc, h₅, h.regs F.MED_RET_CFG_GBB_MAX 0 0 0 (by decide), h.regs F.MED_RET_CFG_RESETS 0 0 0 (by decide),
    h.regs F.MED_RET_CFG_RET_WEAR 0 0 0 (by decide)⟩

/-- A change of dies, links and the journal alone. -/
theorem Rests.upd {die : DieUnit} {kz : KzSt} {ftl : FtlSt} : Rests s { s with die := die, kz := kz, ftl := ftl } :=
  ⟨rfl, rfl, rfl, rfl, id, fun _ h => h, rfl, rfl, rfl, rfl⟩

/-- A count of failures or timeouts leaves the rest. -/
theorem Rests.inc (s : State) {f : Fld} (h₁ : F.MED_RET_CFG_GBB_MAX.id ≠ f.id) (h₂ : F.MED_RET_CFG_RESETS.id ≠ f.id)
    (h₃ : F.MED_RET_CFG_RET_WEAR.id ≠ f.id) : Rests s (s.inc f) :=
  ⟨rfl, rfl, rfl, rfl, id, fun _ h => h, rfl, rd_inc_id _ _ _ _ _ _ _ _ _ h₁, rd_inc_id _ _ _ _ _ _ _ _ _ h₂, rd_inc_id _ _ _ _ _ _ _ _ _ h₃⟩

/-- Where nothing waits, nothing goes on. -/
theorem resumeAll_still (h : Still s) : s.resumeAll = s := by
  obtain ⟨hr, hw, hc, he, hd, hk⟩ := h
  have h₁ : s.freeDoomed = s := by rw [freeDoomed, hr]; rfl
  have h₂ : s.resumeResets = s := by rw [resumeResets, hw]; rfl
  have h₃ : s.resumeCreates = s := by
    rw [resumeCreates, hc]
    show { s with sl := { s.sl with creates := [] } } = s
    rw [← hc]
  have h₄ : s.resumeErases = s := by rw [resumeErases, he]; rfl
  have h₅ : s.resumeDels = s := by rw [resumeDels, h₄, hd]; rfl
  have hf : s.zn.cmds.filter (fun c => decide (c.st = .key)) = [] := List.filter_eq_nil_iff.2 fun c hm => by simpa using hk c hm
  have h₆ : s.resumeKeys = s := by
    rw [resumeKeys, hf]
    rfl
  rw [resumeAll, h₁, h₂, h₃, h₅, h₆]

/-- A die that failed too little stays (09 R226). -/
theorem retireCheck_stays {d : Nat} (hg : (s.dieOf d).gbb ≤ s.rd F.MED_RET_CFG_GBB_MAX) (ha : (s.dieOf d).allFails = [])
    (hr : (s.dieOf d).resets.length < max 1 (s.rd F.MED_RET_CFG_RESETS)) (hw : s.rd F.MED_RET_CFG_RET_WEAR = 0) : s.retireCheck d = s := by
  have hl : ((s.dieOf d).resets.filter (fun t => decide (s.el ≤ t + tenSec))).length < max 1 (s.rd F.MED_RET_CFG_RESETS) :=
    Nat.lt_of_le_of_lt (List.length_filter_le ..) hr
  unfold retireCheck
  dsimp only
  rw [ha, hw]
  refine if_neg ?_
  rw [decide_eq_false (Nat.not_lt.2 hg), decide_eq_false (Nat.not_le.2 hl)]
  simp

/-! ### The end of an operation (09 R212, R217) -/

theorem freeTags_kz (l : Nat) (os : List DOp) : ∀ s : State, ∃ kz, os.foldl (fun (s : State) p => s.freeTag l p.id) s = { s with kz := kz } := by
  induction os with
  | nil => exact fun s => ⟨s.kz, rfl⟩
  | cons o os ih =>
    intro s
    obtain ⟨kz, h⟩ := ih (s.freeTag l o.id)
    exact ⟨kz, h⟩

/-- The record of a die that ended its operation. -/
def ended (s : State) (d : Nat) (o : DOp) (temp : Int) (busy : Nat) : DieSt :=
  let x := s.dieOf d
  let v := (x.scale.getD (opIdx o.kind) 65536 * 7 + busy * 65536 / max (tTyp (s.descOf d) o.kind o.senses) 1) / 8
  { x with cur := none, merged := [], temp := temp, scale := x.scale.set (opIdx o.kind) (max 32768 (min v 131072)) }

theorem dieDone_eq (s : State) (d : Nat) (o : DOp) (temp : Int) (busy : Nat) :
    ∃ kz, s.dieDone d o temp busy = ({ s with kz := kz } : State).putDie d (s.ended d o temp busy) := by
  obtain ⟨kz, h⟩ := freeTags_kz (d / 64) (o :: (s.dieOf d).merged) s
  refine ⟨kz, ?_⟩
  unfold dieDone
  dsimp only
  rw [h]
  rfl

theorem dieDone_spec (s : State) (d : Nat) (o : DOp) (temp : Int) (busy : Nat) : (s.dieDone d o temp busy).dieOf d = s.ended d o temp busy ∧
    Rests s (s.dieDone d o temp busy) ∧ (∀ b, (s.dieDone d o temp busy).blkOf b = s.blkOf b) ∧ (s.dieDone d o temp busy).regs = s.regs ∧
    (s.dieDone d o temp busy).zn = s.zn ∧ (s.dieDone d o temp busy).die.descs = s.die.descs := by
  obtain ⟨kz, h⟩ := s.dieDone_eq d o temp busy
  rw [h]
  exact ⟨dieOf_putDie_same .., Rests.upd, fun _ => rfl, rfl, rfl, rfl⟩

/-! ### Bad blocks (09 R221) -/

theorem badBlk_spec (s : State) (b : Blk) : (s.badBlk b).dieOf b.die = { s.dieOf b.die with gbb := (s.dieOf b.die).gbb + 1 } ∧
    (s.badBlk b).blkOf b = { s.blkOf b with use := .bad } ∧ Rests s (s.badBlk b) ∧ (s.badBlk b).regs = s.regs ∧ (s.badBlk b).zn = s.zn :=
  ⟨dieOf_putDie_same .., blkOf_putBlk_same .., Rests.upd, rfl, rfl⟩

/-- The program of a bad tail block goes on elsewhere. -/
theorem tailFailed_rest (s : State) (d : Nat) (o : DOp) :
    Only .redo (s.badBlk ⟨d, o.blk⟩) (s.tailFailed d o) ∧ Only .steady (s.badBlk ⟨d, o.blk⟩) (s.tailFailed d o) := by
  unfold tailFailed tailBad
  dsimp only
  generalize s.badBlk ⟨d, o.blk⟩ = m
  cases ht : m.takeBlk d true with
  | none => exact ⟨Only.Redo.substitute .., Only.Steady.substitute ..⟩
  | some p =>
    obtain ⟨a, n⟩ := p
    have hr : Only .redo m a := ((Only.Work.takeBlk ..).get ht).redo
    have hs : Only .steady m a := (Only.Steady.takeBlk m d true false).get ht
    dsimp only
    constructor
    · exact (Only.Work.enq ..).redo.after (.after (Only.upd rfl) ((Only.Work.putDie ..).redo.after ((Only.eventRedo (Only.Event.chargeBg ..)).after hr)))
    · refine (Only.Steady.enq ..).after (.after (Only.Steady.upd rfl) (.after (Only.Steady.putDie _ rfl) ((Only.eventSteady (Only.Event.chargeBg ..)).after hs)))

/-- A failed program grows its block bad, counts on the die, and goes on elsewhere. -/
theorem progFailed_eq (s : State) (d : Nat) (o : DOp) :
    let m := (s.putDie d { s.dieOf d with pfail := (s.dieOf d).pfail + 1 }).badBlk ⟨d, o.blk⟩
    ∃ u, s.progFailed d o = u.retireCheck d ∧ Only .redo m u ∧ Only .steady m u := by
  intro m
  unfold progFailed
  dsimp only
  split
  · exact ⟨_, rfl, tailFailed_rest (s.putDie d { s.dieOf d with pfail := (s.dieOf d).pfail + 1 }) d o⟩
  · let q := m.dequeue d (fun p => p.blk != o.blk || p.kind = OpKind.read)
    have hr : Only .redo m q := (Only.Work.putDie ..).redo
    have hs : Only .steady m q := Only.Steady.dequeue ..
    refine ⟨_, rfl, ?_, ?_⟩
    · split
      · exact hr
      · split
        · exact (Only.Redo.replaceBlk ..).after (.after (Only.upd rfl) hr)
        · exact (Only.Redo.replaceBlk ..).after hr
    · split
      · exact hs
      · split
        · exact (Only.Steady.replaceBlk ..).after (.after (Only.Steady.upd rfl) hs)
        · exact (Only.Steady.replaceBlk ..).after hs

theorem resetCfg_of_regs (h : t.regs = s.regs) (f : Fld) : t.rd f = s.rd f := by rw [rd, rd, h]

/-- A program that failed on a die that may fail once more (09 R221, R226). -/
theorem progFailed_spec {d : Nat} (o : DOp) (hk : Still s) (hg : (s.dieOf d).gbb + 1 ≤ s.rd F.MED_RET_CFG_GBB_MAX) (ha : (s.dieOf d).allFails = [])
    (hr : (s.dieOf d).resets = []) (hw : s.rd F.MED_RET_CFG_RET_WEAR = 0) :
    ((s.progFailed d o).blkOf ⟨d, o.blk⟩).use = .bad ∧ ((s.progFailed d o).dieOf d).cur = (s.dieOf d).cur ∧
    ((s.progFailed d o).dieOf d).gbb = (s.dieOf d).gbb + 1 ∧ ((s.progFailed d o).dieOf d).pfail = (s.dieOf d).pfail + 1 ∧
    (s.progFailed d o).rd F.MED_VFY_FAIL_PFAIL = s.rd F.MED_VFY_FAIL_PFAIL ∧ Still (s.progFailed d o) := by
  obtain ⟨u, he, hu, hs⟩ := progFailed_eq s d o
  have hp := dieOf_putDie_same s d { s.dieOf d with pfail := (s.dieOf d).pfail + 1 }
  have hpr : Rests s (s.putDie d { s.dieOf d with pfail := (s.dieOf d).pfail + 1 }) := Rests.upd
  have hpg : (s.putDie d { s.dieOf d with pfail := (s.dieOf d).pfail + 1 }).regs = s.regs := rfl
  generalize s.putDie d { s.dieOf d with pfail := (s.dieOf d).pfail + 1 } = p at he hu hs hp hpr hpg
  obtain ⟨hbd, hbb, hbr, hbg, -⟩ := badBlk_spec p ⟨d, o.blk⟩
  generalize p.badBlk ⟨d, o.blk⟩ = m at he hu hs hbd hbb hbr hbg
  obtain ⟨hc, hg', hp', ha', hr'⟩ := DieSt.of_fixed (hs.rel.dies d)
  have hur : Rests m u := Rests.of_redo hu hs.rel.doomed hs.rel.cmds
  have hall := (hpr.trans hbr).trans hur
  have hmd : m.dieOf d = { s.dieOf d with pfail := (s.dieOf d).pfail + 1, gbb := (s.dieOf d).gbb + 1 } := hbd.trans (by rw [hp])
  rw [hmd] at hc hg' hp' ha' hr'
  have hstay : u.retireCheck d = u := retireCheck_stays (by rw [hg', hall.gbb]; exact hg) (ha'.trans ha)
    (by rw [hr']; show (s.dieOf d).resets.length < _; rw [hr]; exact Nat.lt_of_lt_of_le Nat.one_pos (Nat.le_max_left ..)) (hall.wear.trans hw)
  rw [he, hstay]
  refine ⟨(hs.rel.blks ⟨d, o.blk⟩).bad (congrArg BlkSt.use hbb), hc, hg', hp', ?_, hall.still hk⟩
  exact (hu.regs F.MED_VFY_FAIL_PFAIL 0 0 0 (by decide)).trans (resetCfg_of_regs (hbg.trans hpg) _)

theorem ran_programFail {d planes : Nat} (busy : Nat) (temp : Int) {o : DOp} (hc : (s.dieOf d).cur = some o) (hr : o.kind ≠ .read) (he : o.kind ≠ .erase)
    (hs : Sound s d) (hp : planes + 1 ≠ 2 ^ (s.descOf d).planes) (hk : Still s) : Ran (.programFail d planes temp busy) s (fun t =>
      (t.blkOf ⟨d, o.blk⟩).use = .bad ∧ (t.dieOf d).cur = none ∧ (t.dieOf d).gbb = (s.dieOf d).gbb + 1 ∧ (t.dieOf d).pfail = (s.dieOf d).pfail + 1 ∧
      t.rd F.MED_VFY_FAIL_PFAIL = sat F.MED_VFY_FAIL_PFAIL.w (s.rd F.MED_VFY_FAIL_PFAIL + 1)) := by
  obtain ⟨hg, ha, hrs, hw⟩ := hs
  obtain ⟨hd, hrest, -, hregs, -, hdesc⟩ := s.dieDone_spec d o temp busy
  let m : State := (s.dieDone d o temp busy).inc F.MED_VFY_FAIL_PFAIL
  have hmd : m.dieOf d = s.ended d o temp busy := hd
  have hmr : Rests s m := hrest.trans (Rests.inc _ (by decide) (by decide) (by decide))
  have hmc : m.rd F.MED_VFY_FAIL_PFAIL = sat F.MED_VFY_FAIL_PFAIL.w (s.rd F.MED_VFY_FAIL_PFAIL + 1) :=
    (rd_inc_same ..).trans ((cut_sat ..).trans (by rw [resetCfg_of_regs hregs]))
  have hpl : (m.descOf d).planes = (s.descOf d).planes := by rw [descOf, hmd, show m.die.descs = s.die.descs from hdesc]; rfl
  let x : DieSt := { s.ended d o temp busy with between := if o.kind = .prog1 then (s.ended d o temp busy).between else none }
  have hx : execProgramFail d planes temp busy s = .next (((m.putDie d x).progFailed d o).resumeAll) := by
    have hno : ¬ (o.kind = .read || o.kind = .erase) = true := by simp [hr, he]
    unfold execProgramFail
    dsimp only
    rw [hc]
    refine congrArg Host.Outcome.next ((if_neg hno).trans ?_)
    show ((m.putDie d { m.dieOf d with
      between := if o.kind = .prog1 then (m.dieOf d).between else none
      allFails := if planes + 1 = 2 ^ (m.descOf d).planes then m.el :: (m.dieOf d).allFails else (m.dieOf d).allFails }).progFailed d o).resumeAll = _
    rw [hpl, if_neg hp, hmd]
  have hq := dieOf_putDie_same m d x
  have hqr : Rests s (m.putDie d x) := hmr.trans Rests.upd
  have hqc : (m.putDie d x).rd F.MED_VFY_FAIL_PFAIL = m.rd F.MED_VFY_FAIL_PFAIL := rfl
  generalize m.putDie d x = q at hx hq hqr hqc
  have hxs : x.gbb = (s.dieOf d).gbb ∧ x.allFails = (s.dieOf d).allFails ∧ x.resets = (s.dieOf d).resets ∧ x.cur = none ∧ x.pfail = (s.dieOf d).pfail :=
    ⟨rfl, rfl, rfl, rfl, rfl⟩
  obtain ⟨hxg, hxa, hxr, hxc, hxp⟩ := hxs
  obtain ⟨h₁, h₂, h₃, h₄, h₅, h₆⟩ := progFailed_spec (s := q) (d := d) o (hqr.still hk) (by rw [hq, hxg, hqr.gbb]; exact hg) (by rw [hq, hxa, ha])
    (by rw [hq, hxr, hrs]) (hqr.wear.trans hw)
  rw [resumeAll_still h₆] at hx
  exact ⟨_, hx, h₁, by rw [h₂, hq, hxc], by rw [h₃, hq, hxg], by rw [h₄, hq, hxp], h₅.trans (hqc.trans hmc)⟩

/-! ### Erases (09 R222, R224) -/

theorem ran_eraseFail {d planes : Nat} (busy : Nat) (temp : Int) {o : DOp} (hc : (s.dieOf d).cur = some o) (he : o.kind = .erase) (hs : Sound s d)
    (hp : planes + 1 ≠ 2 ^ (s.descOf d).planes) (hk : Still s) : Ran (.eraseFail d planes temp busy) s (fun t =>
      (t.blkOf ⟨d, o.blk⟩).use = .bad ∧ (t.dieOf d).efail = (s.dieOf d).efail + 1 ∧
      (t.dieOf d).gbb = (s.dieOf d).gbb + 1 ∧ (t.dieOf d).cur = none ∧ t.zn = s.zn) := by
  obtain ⟨hg, ha, hrs, hw⟩ := hs
  obtain ⟨hd, hrest, -, hregs, hz, hdesc⟩ := s.dieDone_spec d o temp busy
  have hpl : ((s.dieDone d o temp busy).descOf d).planes = (s.descOf d).planes := by rw [descOf, hd, hdesc]; rfl
  let x : DieSt := { s.ended d o temp busy with efail := (s.ended d o temp busy).efail + 1 }
  have hx : execEraseFail d planes temp busy s = .next (((((s.dieDone d o temp busy).putDie d x).badBlk ⟨d, o.blk⟩).retireCheck d).resumeAll) := by
    have hno : ¬ (o.kind != .erase) = true := by simp [he]
    unfold execEraseFail
    dsimp only
    rw [hc]
    refine congrArg Host.Outcome.next ((if_neg hno).trans ?_)
    rw [hpl, if_neg hp, hd]
  have hq := dieOf_putDie_same (s.dieDone d o temp busy) d x
  have hqr : Rests s ((s.dieDone d o temp busy).putDie d x) := hrest.trans Rests.upd
  have hqz : ((s.dieDone d o temp busy).putDie d x).zn = s.zn := hz
  generalize (s.dieDone d o temp busy).putDie d x = q at hx hq hqr hqz
  obtain ⟨hbd, hbb, hbr, -, hbz⟩ := badBlk_spec q ⟨d, o.blk⟩
  generalize q.badBlk ⟨d, o.blk⟩ = u at hx hbd hbb hbr hbz
  have hall := hqr.trans hbr
  have hud : u.dieOf d = { x with gbb := x.gbb + 1 } := hbd.trans (by rw [hq])
  have hxs : x.gbb = (s.dieOf d).gbb ∧ x.allFails = (s.dieOf d).allFails ∧ x.resets = (s.dieOf d).resets ∧ x.cur = none ∧ x.efail = (s.dieOf d).efail + 1 :=
    ⟨rfl, rfl, rfl, rfl, rfl⟩
  obtain ⟨hxg, hxa, hxr, hxc, hxe⟩ := hxs
  have hgb : (u.dieOf d).gbb = (s.dieOf d).gbb + 1 := (congrArg DieSt.gbb hud).trans (congrArg (· + 1) hxg)
  have hstay : u.retireCheck d = u := retireCheck_stays (by rw [hgb, hall.gbb]; exact hg) ((congrArg DieSt.allFails hud).trans (hxa.trans ha))
    (by rw [hud]; show x.resets.length < _; rw [hxr, hrs]; exact Nat.lt_of_lt_of_le Nat.one_pos (Nat.le_max_left ..)) (hall.wear.trans hw)
  rw [hstay, resumeAll_still (hall.still hk)] at hx
  exact ⟨u, hx, congrArg BlkSt.use hbb, (congrArg DieSt.efail hud).trans hxe, hgb, (congrArg DieSt.cur hud).trans hxc, hbz.trans hqz⟩

theorem noteErased_eq (s : State) (d : Nat) : ∃ ftl, s.noteErased d = { s with ftl := ftl } := by
  unfold noteErased
  split
  · exact ⟨s.ftl, rfl⟩
  · exact ⟨_, rfl⟩

/-- As `Steady`, of work that may give blocks to an erase. -/
structure Swept (s t : State) : Prop where
  dies : ∀ d, (t.dieOf d).fixed = (s.dieOf d).fixed
  erases : ∀ b, (t.blkOf b).erases = (s.blkOf b).erases
  doomed : s.zn.doomed = [] → t.zn.doomed = []
  cmds : t.zn.cmds ⊆ s.zn.cmds

/-- The bound of it. -/
def sweptBound : Bound where
  rel := Swept
  refl _ := ⟨fun _ => rfl, fun _ => rfl, id, fun _ h => h⟩
  trans h k := ⟨fun d => (k.dies d).trans (h.dies d), fun b => (k.erases b).trans (h.erases b), k.doomed ∘ h.doomed, fun _ hc => h.cmds (k.cmds hc)⟩

theorem Swept.of_steady (h : Only .steady s t) : Only sweptBound s t :=
  ⟨⟨h.rel.dies, fun b => (h.rel.blks b).erases, h.rel.doomed, h.rel.cmds⟩⟩

theorem staleBlk_swept (s : State) (b : Blk) : Only sweptBound s (s.staleBlk b) := by
  unfold staleBlk
  refine .ite (.refl _) ⟨⟨fun _ => rfl, fun c => ?_, id, fun _ h => h⟩⟩
  rw [blkOf_putBlk]
  split
  · next h => rw [s.blkOf_of_key h]
  · rfl

theorem tailSweep_swept (s : State) (d : Nat) : Only sweptBound s (s.tailSweep d) := by
  unfold tailSweep
  exact .foldl fun s _ => .ite (.refl s) (.ite (.after (staleBlk_swept ..) (Swept.of_steady (Only.Steady.upd rfl)))
    (.ite (Swept.of_steady (Only.Steady.tailMove ..)) (.refl s)))

section
-- So the unifier sees a match on an option as the recursor that `opt` speaks of.
set_option smartUnfolding false

theorem tailMove_redo (s : State) (d b : Nat) : Only .redo s (s.tailMove d b) := by
  unfold tailMove
  refine .ite (.refl _) (.optMem (fun p e => .after (Only.upd rfl) ((Only.Work.bump ..).redo.after ((Only.eventRedo (Only.Event.chargeBg ..)).after ?_)))
    (.refl _))
  refine Only.OfSome₂.get (Only.foldlSome₂ (fun _ => rfl) (fun p x => ⟨fun e => ?_⟩)) e
  dsimp only [Option.bind] at e
  split at e
  · cases e
  next m hm =>
    obtain ⟨f, -, rfl⟩ := Option.map_eq_some_iff.1 e
    exact (Only.Redo.putTail ..).after (Only.OfSome.get (.ite (.some (.refl _)) (Only.Redo.openTail ..)) hm)

theorem tailSweep_redo (s : State) (d : Nat) : Only .redo s (s.tailSweep d) := by
  unfold tailSweep
  exact .foldl fun s _ => .ite (.refl s) (.ite (.after (.ite (.refl _) (Only.Work.putBlk ..).redo) (Only.upd rfl)) (.ite (tailMove_redo ..) (.refl s)))

theorem openWaiting_redo (s : State) : Only .redo s s.openWaiting := by
  unfold openWaiting
  exact .foldl fun s _ => .opt (fun _ => .ite (.refl s) (.after (.foldl fun s _ => .ite (Only.Work.progPage ..).redo (.refl s)) (Only.Work.openWin ..).redo))
    (.refl s)

end

/-- An erase that ended well, on a die that may fail once more (10 R235, R236; 09 R224). -/
theorem erased_spec {d k : Nat} (hg : (s.dieOf d).gbb + 1 ≤ s.rd F.MED_RET_CFG_GBB_MAX) (ha : (s.dieOf d).allFails = [])
    (hr : (s.dieOf d).resets = []) (hw : s.rd F.MED_RET_CFG_RET_WEAR = 0) :
    ((s.erased ⟨d, k⟩).blkOf ⟨d, k⟩).use ≠ .stale ∧ ((s.erased ⟨d, k⟩).blkOf ⟨d, k⟩).erases = (s.blkOf ⟨d, k⟩).erases + 1 ∧
    ((s.erased ⟨d, k⟩).dieOf d).cur = (s.dieOf d).cur ∧ Rests s (s.erased ⟨d, k⟩) := by
  let x := s.blkOf ⟨d, k⟩
  let y : BlkSt := { BlkSt.fresh with erases := x.erases + 1, level := x.level, tier := x.tier }
  let p : State := s.putDie d { s.dieOf d with erases24 := (s.dieOf d).erases24.modifyHead (· + 1) }
  obtain ⟨ftl, hn⟩ := noteErased_eq p d
  let a : State := ((p.noteErased d).jn 0x14 [d, k, x.erases + 1]).putBlk ⟨d, k⟩ { y with use := .stale }
  have had : a.dieOf d = { s.dieOf d with erases24 := (s.dieOf d).erases24.modifyHead (· + 1) } := by
    show (p.noteErased d).dieOf d = _
    rw [hn]
    exact dieOf_putDie_same ..
  have har : Rests s a := by
    show Rests s (((p.noteErased d).jn 0x14 [d, k, x.erases + 1]).putBlk ⟨d, k⟩ { y with use := .stale })
    rw [hn]
    exact Rests.upd
  have hab : a.blkOf ⟨d, k⟩ = { y with use := .stale } := blkOf_putBlk_same ..
  let b : State := (a.freeTails ⟨d, k⟩).tailSweep d
  have hbr : Rests a b := by
    have h₁ : Only .redo a (a.freeTails ⟨d, k⟩) := (Only.Work.freeTails ..).redo
    have h₂ : Only sweptBound a b := (tailSweep_swept ..).after (Swept.of_steady (Only.Steady.freeTails ..))
    exact Rests.of_redo ((tailSweep_redo ..).after h₁) h₂.rel.doomed h₂.rel.cmds
  have hbs : Only sweptBound a b := (tailSweep_swept ..).after (Swept.of_steady (Only.Steady.freeTails ..))
  have he : s.erased ⟨d, k⟩ = (match b.pickTier ⟨d, k⟩ with
    | some t =>
      (match b.reserveTails ⟨d, k⟩ t with
       | some c => ((c.putBlk ⟨d, k⟩ { y with tier := t }).jn 0x15 [d, k, t]).openWaiting
       | none => ((b.badBlk ⟨d, k⟩).inc F.RCH_TAIL_STS_STARVED).retireCheck d)
    | none => (b.badBlk ⟨d, k⟩).retireCheck d) := rfl
  generalize a = a at had har hab hbr hbs
  generalize b = b at hbr hbs he
  rw [he]
  obtain ⟨hc₀, hg₀, -, ha₀, hr₀⟩ := DieSt.of_fixed (hbs.rel.dies d)
  rw [had] at hc₀ hg₀ ha₀ hr₀
  have hbe : (b.blkOf ⟨d, k⟩).erases = x.erases + 1 := (hbs.rel.erases _).trans (congrArg BlkSt.erases hab)
  have hrest := har.trans hbr
  obtain ⟨hbd, hbb, hbrs, -, -⟩ := badBlk_spec b ⟨d, k⟩
  have hbad {m : State} (hm : Rests (b.badBlk ⟨d, k⟩) m) (hmd : m.die = (b.badBlk ⟨d, k⟩).die) : m.retireCheck d = m := by
    have hdm : m.dieOf d = { b.dieOf d with gbb := (b.dieOf d).gbb + 1 } := by rw [dieOf, hmd]; exact hbd
    have hall := (hrest.trans hbrs).trans hm
    refine retireCheck_stays ?_ ?_ ?_ (hall.wear.trans hw)
    · rw [hdm, hall.gbb]
      show (b.dieOf d).gbb + 1 ≤ _
      rw [hg₀]
      exact hg
    · rw [hdm]
      exact ha₀.trans ha
    · rw [hdm]
      show (b.dieOf d).resets.length < _
      rw [hr₀]
      show (s.dieOf d).resets.length < _
      rw [hr]
      exact Nat.lt_of_lt_of_le Nat.one_pos (Nat.le_max_left ..)
  have hone {m : State} (hm : Rests (b.badBlk ⟨d, k⟩) m) (hmd : m.die = (b.badBlk ⟨d, k⟩).die) :
      ((m.retireCheck d).blkOf ⟨d, k⟩).use ≠ .stale ∧ ((m.retireCheck d).blkOf ⟨d, k⟩).erases = x.erases + 1 ∧
      ((m.retireCheck d).dieOf d).cur = (s.dieOf d).cur ∧ Rests s (m.retireCheck d) := by
    rw [hbad hm hmd]
    have hmb : m.blkOf ⟨d, k⟩ = { b.blkOf ⟨d, k⟩ with use := .bad } := by rw [blkOf, hmd]; exact hbb
    have hdm : m.dieOf d = { b.dieOf d with gbb := (b.dieOf d).gbb + 1 } := by rw [dieOf, hmd]; exact hbd
    refine ⟨?_, ?_, ?_, (hrest.trans hbrs).trans hm⟩
    · rw [hmb]
      exact fun h => BlkUse.noConfusion h
    · rw [hmb]
      exact hbe
    · rw [hdm]
      exact hc₀
  cases hp : b.pickTier ⟨d, k⟩ with
  | none => exact hone (Rests.refl _) rfl
  | some t =>
    dsimp only
    cases hcs : b.reserveTails ⟨d, k⟩ t with
    | none => exact hone (Rests.inc _ (by decide) (by decide) (by decide)) rfl
    | some c =>
      have h₁ : Only .redo b c := (Only.Redo.reserveTails b ⟨d, k⟩ t).get hcs
      have h₂ : Only .steady b c := (Only.Steady.reserveTails b ⟨d, k⟩ t).get hcs
      let m : State := (c.putBlk ⟨d, k⟩ { y with tier := t }).jn 0x15 [d, k, t]
      have hmb : m.blkOf ⟨d, k⟩ = { y with tier := t } := blkOf_putBlk_same ..
      have hmd : m.dieOf d = c.dieOf d := rfl
      have hmr : Rests c m := Rests.upd
      have h₃ := openWaiting_redo m
      have h₄ := Only.Steady.openWaiting m
      show ((m.openWaiting).blkOf _).use ≠ _ ∧ ((m.openWaiting).blkOf _).erases = _ ∧ ((m.openWaiting).dieOf d).cur = _ ∧ Rests s m.openWaiting
      generalize m = m at hmb hmd hmr h₃ h₄
      generalize m.openWaiting = u at h₃ h₄
      obtain ⟨hc₁, -, -, -, -⟩ := DieSt.of_fixed (h₂.rel.dies d)
      obtain ⟨hc₂, -, -, -, -⟩ := DieSt.of_fixed (h₄.rel.dies d)
      refine ⟨(h₄.rel.blks _).live ?_, ?_, ?_, ?_⟩
      · rw [hmb]
        exact fun h => BlkUse.noConfusion h
      · rw [(h₄.rel.blks _).erases, hmb]
      · rw [hc₂, hmd, hc₁]
        exact hc₀
      · exact ((hrest.trans (Rests.of_redo h₁ h₂.rel.doomed h₂.rel.cmds)).trans hmr).trans (Rests.of_redo h₃ h₄.rel.doomed h₄.rel.cmds)

theorem ran_eraseDone {d : Nat} (busy : Nat) (temp : Int) {o : DOp} (hc : (s.dieOf d).cur = some o) (he : o.kind = .erase) (hs : Sound s d) (hk : Still s) :
    Ran (.eraseDone d temp busy) s (fun t => (t.blkOf ⟨d, o.blk⟩).use ≠ .stale ∧
      (t.blkOf ⟨d, o.blk⟩).erases = (s.blkOf ⟨d, o.blk⟩).erases + 1 ∧ (t.dieOf d).cur = none ∧ t.zn.ud = s.zn.ud) := by
  obtain ⟨hg, ha, hrs, hw⟩ := hs
  obtain ⟨hd, hrest, hb, -, -, -⟩ := s.dieDone_spec d o temp busy
  have hx : execEraseDone d temp busy s = .next ((s.dieDone d o temp busy).erased ⟨d, o.blk⟩).resumeAll := by
    unfold execEraseDone
    rw [hc]
    exact congrArg Host.Outcome.next (if_neg (by simp [he]))
  generalize s.dieDone d o temp busy = m at hd hrest hb hx
  obtain ⟨h₁, h₂, h₃, h₄⟩ := erased_spec (s := m) (d := d) (k := o.blk) (by rw [hd, hrest.gbb]; exact hg) (by rw [hd]; exact ha) (by rw [hd]; exact hrs)
    (hrest.wear.trans hw)
  have hall := hrest.trans h₄
  rw [resumeAll_still (hall.still hk)] at hx
  refine ⟨_, hx, h₁, h₂.trans (by rw [hb]), h₃.trans ?_, hall.ud⟩
  rw [hd]
  rfl

/-! ### Timeouts (09 R210, R226) -/

/-- What sending on a link changes. -/
def Scope.flits : Scope where
  merge s t := { s with regs := t.regs, kz := t.kz, outs := t.outs }
  fields := []

theorem pump_flits (l h : Nat) (up : Bool) (n : Nat) : ∀ s : State, Only Scope.flits.bound s (State.pump l h up n s) := by
  induction n with
  | zero => exact fun s => .refl s
  | succ n ih =>
    intro s
    rw [pump]
    split
    · exact .refl s
    · split
      · exact .refl s
      · next x _ =>
        refine (ih _).after ?_
        unfold sendXfer sendFlit
        dsimp only
        split
        · exact Only.upd rfl
        · split
          · exact Only.upd rfl
          · exact Only.upd rfl

theorem envelope_flits (s : State) (d code : Nat) (o : DOp) (join : Bool) : Only Scope.flits.bound s (s.envelope d code o join) := by
  unfold envelope pushFlits
  exact .after (pump_flits ..) (Only.upd rfl)

theorem ran_dieOpTimeout {d : Nat} {o : DOp} (hc : (s.dieOf d).cur = some o) (he : o.kind = .erase) (hs : Sound s d) (hr : 2 ≤ s.rd F.MED_RET_CFG_RESETS)
    (hk : Still s) (ht : s.el ≥ (s.dieOf d).curAt + (tMax (s.descOf d) o.kind o.senses + 1000) * 1000) (hsu : (s.dieOf d).susp = none) :
    Ran (.dieOpTimeout d) s (fun t => (t.dieOf d).cur = none ∧
      (t.dieOf d).queue = (s.dieOf d).queue ++ [{ again o with id := s.die.nextId, die := d }] ∧ (t.dieOf d).resets = [s.el] ∧
      t.rd F.MED_TMO_CNT_CNT = sat F.MED_TMO_CNT_CNT.w (s.rd F.MED_TMO_CNT_CNT + 1) ∧ t.zn = s.zn) := by
  obtain ⟨hg, ha, hrs, hw⟩ := hs
  let a : State := s.inc F.MED_TMO_CNT_CNT
  have hac : a.rd F.MED_TMO_CNT_CNT = sat F.MED_TMO_CNT_CNT.w (s.rd F.MED_TMO_CNT_CNT + 1) := (rd_inc_same ..).trans (cut_sat ..)
  have har : Rests s a := Rests.inc s (by decide) (by decide) (by decide)
  have had : a.die = s.die ∧ a.zn = s.zn ∧ a.el = s.el := ⟨rfl, rfl, rfl⟩
  have hen := envelope_flits a d 0x3F o false
  let x : DieSt := { s.dieOf d with cur := none, merged := [], susp := none, resets := s.el :: (s.dieOf d).resets }
  have hx : execDieOpTimeout d s = .next (((((a.envelope d 0x3F o false).putDie d x).enq d (again o)).retireCheck d).resumeAll) := by
    unfold execDieOpTimeout
    dsimp only
    rw [hc]
    have hr : ¬ OpKind.erase = OpKind.read := OpKind.noConfusion
    have hel : (a.envelope d 0x3F o false).el = s.el := by
      rw [hen.frame]
      rfl
    dsimp only
    rw [if_neg (Nat.not_lt.2 ht), hsu, he, if_neg hr, if_pos rfl, show (s.inc F.MED_TMO_CNT_CNT).envelope d 63 o false = a.envelope d 0x3F o false from rfl, hel]
    rfl
  generalize a.envelope d 0x3F o false = b at hx hen
  have hbd : b.die = s.die ∧ b.zn = s.zn ∧ b.sl = s.sl ∧ b.cip = s.cip := by
    rw [hen.frame]
    exact ⟨rfl, rfl, rfl, rfl⟩
  obtain ⟨hbd, hbz, hbsl, hbcip⟩ := hbd
  have hbg (f : Fld) : b.rd f = a.rd f := hen.regs f 0 0 0 (fun _ h => nomatch h)
  have hbr : Rests a b := ⟨by rw [hbsl]; rfl, by rw [hbsl]; rfl, by rw [hbsl]; rfl, by rw [hbcip]; rfl, fun h => by rw [hbz]; exact h,
    fun _ h => hbz ▸ h, by rw [hbz]; rfl, hbg _, hbg _, hbg _⟩
  let y : DieSt := { x with queue := x.queue ++ [{ again o with id := b.die.nextId, die := d }] }
  let u : State := (b.putDie d x).enq d (again o)
  have hu : u.dieOf d = y := by
    show ((b.putDie d x).putDie d { (b.putDie d x).dieOf d with queue := ((b.putDie d x).dieOf d).queue ++ [{ again o with id := b.die.nextId, die := d }] }).dieOf d = y
    rw [dieOf_putDie_same, dieOf_putDie_same]
  have hur : Rests b u := Rests.upd
  have huc : u.rd F.MED_TMO_CNT_CNT = b.rd F.MED_TMO_CNT_CNT ∧ u.zn = b.zn := ⟨rfl, rfl⟩
  have hall := (har.trans hbr).trans hur
  have hxe : execDieOpTimeout d s = .next (u.retireCheck d).resumeAll := hx
  generalize u = m at hu hur huc hall hxe
  have hyq : y.cur = none ∧ y.gbb = (s.dieOf d).gbb ∧ y.allFails = (s.dieOf d).allFails ∧ y.resets = s.el :: (s.dieOf d).resets ∧
      y.queue = (s.dieOf d).queue ++ [{ again o with id := b.die.nextId, die := d }] := ⟨rfl, rfl, rfl, rfl, rfl⟩
  obtain ⟨y₁, y₂, y₃, y₄, y₅⟩ := hyq
  have hstay : m.retireCheck d = m := by
    refine retireCheck_stays ?_ ?_ ?_ (hall.wear.trans hw)
    · rw [hu, y₂, hall.gbb]
      exact Nat.le_of_succ_le hg
    · rw [hu, y₃, ha]
    · rw [hu, y₄, hrs, hall.resets]
      exact Nat.lt_of_lt_of_le (show 1 < 2 by decide) (Nat.le_trans hr (Nat.le_max_right ..))
  rw [hstay, resumeAll_still (hall.still hk)] at hxe
  refine ⟨m, hxe, by rw [hu, y₁], ?_, by rw [hu, y₄, hrs], huc.1.trans ((hbg _).trans hac), huc.2.trans hbz⟩
  rw [hu, y₅, hbd]

end State

/-- Settles O21. A die that may fail once more is not retired, and where nothing waits nothing goes on; what takes a bad block's place leaves the block bad. -/
theorem dieFailuresComplete : Obligations.DieFailuresComplete := by
  unfold Obligations.DieFailuresComplete
  exact ⟨fun _ _ busy temp _ _ hc hr he hs hp hk => State.ran_programFail busy temp hc hr he hs hp hk,
    fun _ busy temp _ _ hc he hs hk => State.ran_eraseDone busy temp hc he hs hk,
    fun _ _ busy temp _ _ hc he hs hp hk => State.ran_eraseFail busy temp hc he hs hp hk,
    fun _ _ _ hc he hs hr hk ht hsu => State.ran_dieOpTimeout hc he hs hr hk ht hsu⟩

end Sys2Proof.Machine
end


section
/-! O33: time, PPS and timers (19 R416–R422, R432; 16 R355). -/

namespace Sys2Proof.Machine

/-- A step to a value leaves that value, whatever the counter was (19 R422). -/
theorem stepTo (e ofs : Int) (v : Nat) (h : 0 ≤ e + ofs) :
    (e + (ofs + ((v : Int) - ((e + ofs).toNat % 2 ^ 64 : Nat)))).toNat % 2 ^ 64 = v % 2 ^ 64 := by
  obtain ⟨n, hn⟩ := Int.eq_ofNat_of_zero_le h
  have hx : e + (ofs + ((v : Int) - ((e + ofs).toNat % 2 ^ 64 : Nat))) = ((n - n % 2 ^ 64 + v : Nat) : Int) := by
    rw [hn]
    simp only [Int.toNat_natCast]
    have := Nat.mod_le n (2 ^ 64)
    push_cast [Nat.cast_sub this]
    omega
  rw [hx, Int.toNat_natCast]
  have hd : n - n % 2 ^ 64 = 2 ^ 64 * (n / 2 ^ 64) := by
    have := Nat.div_add_mod n (2 ^ 64)
    omega
  rw [hd, Nat.mul_add_mod]

namespace State
variable {s t : State}

/-! ### Time over events -/

/-- Events leave the time base but for what the system area holds of it. -/
theorem event_time (h : Only .event s t) : t.tns = s.tns ∧ t.el = s.el ∧ t.zn = s.zn ∧ t.tim.lastAcc = s.tim.lastAcc ∧ t.tim.slew = s.tim.slew := by
  rw [h.frame]
  exact ⟨rfl, rfl, rfl, rfl, rfl⟩

/-- What a step of time changes beside the counter's offset: the timers' compare values, and that it is counted. -/
def Scope.timers : Scope where
  merge s t := { s with regs := t.regs }
  fields := [F.PUP_TMR_CMP_CMP, F.TIM_PPS_CNT_STEPS]

theorem timeStep_spec (s : State) (d : Int) : ∃ a : State, Only Scope.timers.bound { s with tim := { s.tim with ofs := s.tim.ofs + d } } a ∧
    Only .event a (s.timeStep d) :=
  ⟨_, .after (.inc (by decide) ..) (.foldl fun _ _ => .wr (by decide) ..), Only.Event.raise ..⟩

theorem timers_keeps (h : Only Scope.timers.bound s t) : t.tns = s.tns ∧ t.el = s.el ∧ t.zn = s.zn := by
  rw [h.frame]
  exact ⟨rfl, rfl, rfl⟩

/-- A step of time moves TIME_NS alone of what time is kept in (19 R421). -/
theorem timeStep_time (s : State) (d : Int) : (s.timeStep d).tns = ((s.el : Int) + (s.tim.ofs + d)).toNat % 2 ^ 64 ∧ (s.timeStep d).el = s.el ∧
    (s.timeStep d).zn = s.zn := by
  obtain ⟨a, ha, he⟩ := timeStep_spec s d
  have h₀ : State.tns { s with tim := { s.tim with ofs := s.tim.ofs + d } } = ((s.el : Int) + (s.tim.ofs + d)).toNat % 2 ^ 64 ∧
      State.el { s with tim := { s.tim with ofs := s.tim.ofs + d } } = s.el := ⟨rfl, rfl⟩
  obtain ⟨h₁, h₂, h₃⟩ := timers_keeps ha
  obtain ⟨h₄, h₅, h₆, -, -⟩ := event_time he
  exact ⟨h₄.trans (h₁.trans h₀.1), h₅.trans (h₂.trans h₀.2), h₆.trans h₃⟩

/-- TIME_NS is set (19 R422). -/
theorem setTime_spec (v : Nat) (h : 0 ≤ (s.el : Int) + s.tim.ofs) : (s.setTime v).tns = v % 2 ^ 64 ∧ (s.setTime v).el = s.el ∧
    (s.setTime v).rd F.TIM_STS_SRC = 3 ∧ (s.setTime v).rd F.TIM_STS_SET_PEND = 0 ∧ (s.setTime v).zn = s.zn := by
  obtain ⟨h₁, h₂, h₃⟩ := timeStep_time s ((v : Int) - s.tns)
  have hv := stepTo s.el s.tim.ofs v h
  have h3 : cut F.TIM_STS_SRC.w 3 = 3 := rfl
  have h0 : cut F.TIM_STS_SET_PEND.w 0 = 0 := rfl
  unfold setTime
  dsimp only
  generalize s.timeStep ((v : Int) - s.tns) = a at h₁ h₂ h₃ ⊢
  have ha : ((a.wr F.TIM_STS_SRC 3).wr F.TIM_STS_SET_PEND 0).tns = a.tns ∧ ((a.wr F.TIM_STS_SRC 3).wr F.TIM_STS_SET_PEND 0).el = a.el ∧
      ((a.wr F.TIM_STS_SRC 3).wr F.TIM_STS_SET_PEND 0).zn = a.zn := ⟨rfl, rfl, rfl⟩
  have hs : ((a.wr F.TIM_STS_SRC 3).wr F.TIM_STS_SET_PEND 0).rd F.TIM_STS_SRC = 3 := by
    rw [rd_wr_id _ _ _ _ _ _ _ _ _ _ (by decide), rd_wr_same, h3]
  have hp : ((a.wr F.TIM_STS_SRC 3).wr F.TIM_STS_SET_PEND 0).rd F.TIM_STS_SET_PEND = 0 := by rw [rd_wr_same, h0]
  have hr := Only.Event.raise ((a.wr F.TIM_STS_SRC 3).wr F.TIM_STS_SET_PEND 0) evTimeSet 0xFFFF (cut 64 v)
  generalize (a.wr F.TIM_STS_SRC 3).wr F.TIM_STS_SET_PEND 0 = b at ha hs hp hr ⊢
  generalize b.raise evTimeSet 0xFFFF (cut 64 v) = t at hr ⊢
  obtain ⟨k₁, k₂, k₃, -, -⟩ := event_time hr
  obtain ⟨j₁, j₂, j₃⟩ := ha
  refine ⟨?_, k₂.trans (j₂.trans h₂), (hr.regs F.TIM_STS_SRC 0 0 0 (by decide)).trans hs, (hr.regs F.TIM_STS_SET_PEND 0 0 0 (by decide)).trans hp,
    k₃.trans (j₃.trans h₃)⟩
  rw [k₁, j₁, h₁]
  exact hv

theorem ran_setFeaturesTimestamp {o : Org} (cid ms waited : Nat) (hs : Served s o) (hm : isMgr o = true) (h : 0 ≤ (s.el : Int) + s.tim.ofs) :
    Ran (.setFeaturesTimestamp o cid ms waited) s (fun t => t.tns = (cut 48 ms * 1000000 + waited) % 2 ^ 64 ∧ t.el = s.el ∧
      t.rd F.TIM_STS_SRC = 3 ∧ t.rd F.TIM_STS_SET_PEND = 0 ∧ t.zn = s.zn ∧ RepliedWith t o cid stOk 0 []) := by
  obtain ⟨qs, hq⟩ := s.admBegin_eq o
  have hx : execSetFeaturesTimestamp o cid ms waited s =
      .next (({ s with sl := { s.sl with qs := qs } } : State).setTime (cut 48 ms * 1000000 + waited) |>.adm o cid stOk) := by
    unfold execSetFeaturesTimestamp
    rw [admin_served hs, hq]
    exact congrArg Host.Outcome.next (if_pos hm)
  have hset := setTime_spec (s := { s with sl := { s.sl with qs := qs } }) (cut 48 ms * 1000000 + waited) h
  generalize State.setTime { s with sl := { s.sl with qs := qs } } (cut 48 ms * 1000000 + waited) = m at hx hset
  obtain ⟨h₁, h₂, h₃, h₄, h₅⟩ := hset
  obtain ⟨k₁, k₂, k₃, -, -⟩ := event_time (Only.Event.adm (s := m) o cid stOk 0 [])
  have hr := adm_ok_regs m o cid 0 []
  exact ⟨_, hx, k₁.trans h₁, k₂.trans h₂, (resetCfg_of_regs hr _).trans h₃, (resetCfg_of_regs hr _).trans h₄, k₃.trans h₅, adm_replies ..⟩

theorem ran_getFeaturesTimestamp {o : Org} (cid : Nat) (hs : Served s o) : Ran (.getFeaturesTimestamp o cid) s (fun t =>
    Completes s t o cid 0 (toLe 6 (s.tns / 1000000) ++ [b2n (s.rd F.TIM_STS_SRC = 1 || s.rd F.TIM_STS_SRC = 2) + 2 * b2n (s.rd F.TIM_STS_SRC = 3), 0])) := by
  obtain ⟨-, hm, -⟩ := id hs
  obtain ⟨qs, hq⟩ := s.admBegin_eq o
  refine ⟨(s.admBegin o).adm o cid stOk 0 (toLe 6 (s.tns / 1000000) ++
    [b2n (s.rd F.TIM_STS_SRC = 1 || s.rd F.TIM_STS_SRC = 2) + 2 * b2n (s.rd F.TIM_STS_SRC = 3), 0]), ?_, adm_completes hm cid 0 _⟩
  show execGetFeaturesTimestamp o cid s = _
  unfold execGetFeaturesTimestamp
  rw [admin_served hs, hq]
  rfl

/-! ### Edges and holdover (19 R418–R420) -/

/-- The edge source's latch leaves time and what stands in registers beside its sequence number. -/
theorem edge_time (s : State) (src data : Nat) : (s.edge src data).tim = s.tim ∧ (s.edge src data).zn = s.zn ∧ (s.edge src data).outs = s.outs := by
  unfold edge latch
  dsimp only
  split
  · split <;> exact ⟨rfl, rfl, rfl⟩
  · exact ⟨rfl, rfl, rfl⟩

theorem time_of_tim (h : t.tim = s.tim) : t.tns = s.tns ∧ t.el = s.el := by
  have he : t.el = s.el := by rw [el, el, h]
  exact ⟨by rw [tns, tns, he, h], he⟩

theorem ppsErr_of (h : t.tns = s.tns) (hr : t.rd F.TIM_PPS_OFS_OFS = s.rd F.TIM_PPS_OFS_OFS) : t.ppsErr = s.ppsErr := by rw [ppsErr, ppsErr, h, hr]

/-- The counter with an edge accepted now, and its error to slew. -/
def slewFrom (s : State) (e : Int) : State := { s with tim := { s.tim with lastAcc := some s.el, outside := [], slew := -e * 2 ^ 32 } }

/-- A small error is accepted and slewed (19 R419). -/
theorem ppsAccept_slews {e : Int} (hp : s.rd F.TIM_STS_PPS ≠ 2) (hq : s.rd F.TIM_STS_SET_PEND ≠ 1) (he : e.natAbs ≤ 10000) :
    s.ppsAccept e = (((((s.slewFrom e).wr F.TIM_PPS_LAST_NS s.tns).inc
      F.TIM_PPS_CNT_ACCEPT).wr F.TIM_STS_PPS 1).wr F.TIM_FREQ_VALUE
        (ofSigned 32 (max (-200000) (min (toSigned 32 (s.rd F.TIM_FREQ_VALUE) - Int.tdiv e 8) 200000)))).wr F.TIM_STS_SLEWING (b2n (e != 0)) := by
  let a : State := ((({ s with tim := { s.tim with lastAcc := some s.el, outside := [] } } : State).wr F.TIM_PPS_LAST_NS s.tns).inc
      F.TIM_PPS_CNT_ACCEPT).wr F.TIM_STS_PPS 1
  have ha (f : Fld) (h₁ : f.id ≠ F.TIM_PPS_LAST_NS.id) (h₂ : f.id ≠ F.TIM_PPS_CNT_ACCEPT.id) (h₃ : f.id ≠ F.TIM_STS_PPS.id) : a.rd f = s.rd f :=
    (rd_wr_id _ _ _ _ _ _ _ _ _ _ h₃).trans ((rd_inc_id _ _ _ _ _ _ _ _ _ h₂).trans (rd_wr_id _ _ _ _ _ _ _ _ _ _ h₁))
  have h₁ : ¬ a.rd F.TIM_STS_SET_PEND = 1 := by rw [ha _ (by decide) (by decide) (by decide)]; exact hq
  have h₂ : a.rd F.TIM_FREQ_VALUE = s.rd F.TIM_FREQ_VALUE := ha _ (by decide) (by decide) (by decide)
  unfold ppsAccept
  dsimp only
  rw [if_neg hp, if_neg h₁, if_pos he, h₂]
  rfl

/-- What a small error leaves (19 R418–R420). -/
theorem ppsAccept_spec {e : Int} (hp : s.rd F.TIM_STS_PPS ≠ 2) (hq : s.rd F.TIM_STS_SET_PEND ≠ 1) (he : e.natAbs ≤ 10000) :
    (s.ppsAccept e).rd F.TIM_STS_PPS = 1 ∧ (s.ppsAccept e).rd F.TIM_PPS_LAST_NS = s.tns ∧ (s.ppsAccept e).tim.lastAcc = some s.el ∧
    (s.ppsAccept e).tns = s.tns ∧ (s.ppsAccept e).tim.slew = -e * 2 ^ 32 ∧ (s.ppsAccept e).rd F.TIM_STS_SLEWING = b2n (e != 0) ∧
    (s.ppsAccept e).rd F.TIM_PPS_CNT_ACCEPT = sat F.TIM_PPS_CNT_ACCEPT.w (s.rd F.TIM_PPS_CNT_ACCEPT + 1) ∧
    (s.ppsAccept e).rd F.TIM_PPS_ERR_VALUE = s.rd F.TIM_PPS_ERR_VALUE ∧ (s.ppsAccept e).zn = s.zn ∧ (s.ppsAccept e).outs = s.outs := by
  have h1 : cut F.TIM_STS_PPS.w 1 = 1 := rfl
  have ht : cut F.TIM_PPS_LAST_NS.w s.tns = s.tns := Nat.mod_eq_of_lt (Nat.mod_lt _ (by decide))
  have hb : cut F.TIM_STS_SLEWING.w (b2n (e != 0)) = b2n (e != 0) := by cases e != 0 <;> rfl
  have ha : (s.slewFrom e).tim.lastAcc = some s.el ∧ (s.slewFrom e).tns = s.tns ∧ (s.slewFrom e).tim.slew = -e * 2 ^ 32 ∧
      (s.slewFrom e).zn = s.zn ∧ (s.slewFrom e).outs = s.outs := ⟨rfl, rfl, rfl, rfl, rfl⟩
  have har (f : Fld) : (s.slewFrom e).rd f = s.rd f := rfl
  rw [ppsAccept_slews hp hq he]
  generalize ofSigned 32 (max (-200000) (min (toSigned 32 (s.rd F.TIM_FREQ_VALUE) - Int.tdiv e 8) 200000)) = v
  generalize s.slewFrom e = a at ha har ⊢
  obtain ⟨h₁, h₂, h₃, h₄, h₅⟩ := ha
  refine ⟨?_, ?_, h₁, h₂, h₃, ?_, ?_, ?_, h₄, h₅⟩ <;>
    simp (disch := decide) only [rd_wr_id, rd_wr_same, rd_inc_id, rd_inc_same, cut_sat, h1, ht, hb, har]

theorem ran_ppsEdge (hc : s.counting = true) (hen : s.rd F.TIM_CFG_PPS_EN ≠ 0) (hg : ∀ a, s.tim.lastAcc = some a → a + 500000000 ≤ s.el)
    (hp : s.rd F.TIM_STS_PPS ≠ 2) (hq : s.rd F.TIM_STS_SET_PEND ≠ 1) (he : s.ppsErr.natAbs ≤ 10000) : Ran (.ppsEdge) s (fun t =>
      t.rd F.TIM_STS_PPS = 1 ∧ t.rd F.TIM_PPS_LAST_NS = s.tns ∧ t.tim.lastAcc = some s.el ∧ t.tns = s.tns ∧
      t.tim.slew = -s.ppsErr * 2 ^ 32 ∧ t.rd F.TIM_STS_SLEWING = b2n (s.ppsErr != 0) ∧
      t.rd F.TIM_PPS_CNT_ACCEPT = sat F.TIM_PPS_CNT_ACCEPT.w (s.rd F.TIM_PPS_CNT_ACCEPT + 1) ∧
      t.rd F.TIM_PPS_ERR_VALUE = cut 32 (satSigned 32 s.ppsErr) ∧ t.zn = s.zn ∧ t.outs = s.outs) := by
  obtain ⟨htim, hz, ho⟩ := edge_time s 16 0
  have hk := edge_keeps s 16 0
  obtain ⟨htns, hel⟩ := time_of_tim htim
  have hr (f : Fld) (hf : ∀ g ∈ [F.PUP_MBX_STS_SEQ], f.id ≠ g.id) : (s.edge 16 0).rd f = s.rd f := hk f 0 0 0 hf
  have herr : (s.edge 16 0).ppsErr = s.ppsErr := ppsErr_of htns (hr _ (by decide))
  have hx : execPpsEdge s = .next (((s.edge 16 0).wr F.TIM_PPS_ERR_VALUE (satSigned 32 s.ppsErr)).ppsAccept s.ppsErr) := by
    unfold execPpsEdge
    rw [hc]
    refine congrArg Host.Outcome.next ((if_neg Bool.false_ne_true).trans ?_)
    dsimp only
    rw [hr F.TIM_CFG_PPS_EN (by decide), if_neg hen, htim, herr]
    have hle : s.ppsErr.natAbs ≤ 1000000 := Nat.le_trans he (by decide)
    cases hl : s.tim.lastAcc with
    | none => exact (if_neg (Nat.lt_irrefl 500000000)).trans (if_pos hle)
    | some a =>
      have hfar : ¬ (s.edge 16 0).el - a < 500000000 := by
        rw [hel]
        exact Nat.not_lt.2 (Nat.le_sub_of_add_le (Nat.add_comm a 500000000 ▸ hg a hl))
      exact (if_neg hfar).trans (if_pos hle)
  generalize s.edge 16 0 = m at htim hz ho hk htns hel hr herr hx
  let a : State := m.wr F.TIM_PPS_ERR_VALUE (satSigned 32 s.ppsErr)
  have har (f : Fld) (h₁ : f.id ≠ F.TIM_PPS_ERR_VALUE.id) (hf : ∀ g ∈ [F.PUP_MBX_STS_SEQ], f.id ≠ g.id) : a.rd f = s.rd f :=
    (rd_wr_id _ _ _ _ _ _ _ _ _ _ h₁).trans (hr f hf)
  have hae : a.rd F.TIM_PPS_ERR_VALUE = cut 32 (satSigned 32 s.ppsErr) := rd_wr_same ..
  have ham : a.tns = m.tns ∧ a.el = m.el ∧ a.zn = m.zn ∧ a.outs = m.outs := ⟨rfl, rfl, rfl, rfl⟩
  obtain ⟨ha₁, ha₂, ha₃, ha₄⟩ := ham
  have hxa : execPpsEdge s = .next (a.ppsAccept s.ppsErr) := hx
  generalize a = a at har hae ha₁ ha₂ ha₃ ha₄ hxa
  obtain ⟨h₁, h₂, h₃, h₄, h₅, h₆, h₇, h₈, h₉, h₁₀⟩ := ppsAccept_spec (s := a) (e := s.ppsErr) (by rw [har _ (by decide) (by decide)]; exact hp)
    (by rw [har _ (by decide) (by decide)]; exact hq) he
  rw [har F.TIM_PPS_CNT_ACCEPT (by decide) (by decide)] at h₇
  exact ⟨_, hxa, h₁, h₂.trans (ha₁.trans htns), h₃.trans (congrArg some (ha₂.trans hel)), h₄.trans (ha₁.trans htns), h₅, h₆, h₇, h₈.trans hae,
    h₉.trans (ha₃.trans hz), h₁₀.trans (ha₄.trans ho)⟩

theorem ran_ppsEdge_glitch {a : Nat} (hc : s.counting = true) (hen : s.rd F.TIM_CFG_PPS_EN ≠ 0) (hl : s.tim.lastAcc = some a) (hle : a ≤ s.el)
    (hlt : s.el < a + 500000000) : Ran (.ppsEdge) s (fun t => t.tim.lastAcc = some a ∧ t.tns = s.tns ∧
      t.tim.slew = s.tim.slew ∧ t.rd F.TIM_STS_PPS = s.rd F.TIM_STS_PPS ∧ t.rd F.TIM_PPS_LAST_NS = s.rd F.TIM_PPS_LAST_NS ∧
      t.rd F.TIM_PPS_CNT_ACCEPT = s.rd F.TIM_PPS_CNT_ACCEPT ∧ t.zn = s.zn) := by
  obtain ⟨htim, hz, -⟩ := edge_time s 16 0
  have hk := edge_keeps s 16 0
  obtain ⟨htns, hel⟩ := time_of_tim htim
  have hx : execPpsEdge s = .next ((s.edge 16 0).raise evPpsGlitch 0xFFFF (s.el - a)) := by
    have hgap : s.el - a < 500000000 := by omega
    unfold execPpsEdge
    rw [hc]
    refine congrArg Host.Outcome.next ((if_neg Bool.false_ne_true).trans ?_)
    dsimp only
    rw [hk F.TIM_CFG_PPS_EN 0 0 0 (by decide), if_neg hen, htim, hl, hel]
    exact if_pos hgap
  have hr := Only.Event.raise (s.edge 16 0) evPpsGlitch 0xFFFF (s.el - a)
  generalize s.edge 16 0 = m at htim hz hk htns hel hx hr
  generalize m.raise evPpsGlitch 0xFFFF (s.el - a) = t at hx hr
  obtain ⟨h₁, h₂, h₃, h₄, h₅⟩ := event_time hr
  exact ⟨t, hx, h₄.trans (by rw [htim, hl]), h₁.trans htns, h₅.trans (by rw [htim]),
    (hr.regs F.TIM_STS_PPS 0 0 0 (by decide)).trans (hk _ 0 0 0 (by decide)),
    (hr.regs F.TIM_PPS_LAST_NS 0 0 0 (by decide)).trans (hk _ 0 0 0 (by decide)),
    (hr.regs F.TIM_PPS_CNT_ACCEPT 0 0 0 (by decide)).trans (hk _ 0 0 0 (by decide)), h₃.trans hz⟩

theorem ran_holdoverEnter {a : Nat} (hl : s.tim.lastAcc = some a) (hp : s.rd F.TIM_STS_PPS = 1) (hh : a + s.rd F.TIM_CFG_HOLD_MS * 1000000 ≤ s.el) :
    Ran (.holdoverEnter) s (fun t => t.rd F.TIM_STS_PPS = 2 ∧ t.rd F.TIM_STS_SLEWING = 0 ∧ t.tim.slew = 0 ∧ t.tns = s.tns ∧ t.zn = s.zn) := by
  let m : State := (({ s with tim := { s.tim with slew := 0 } } : State).wr F.TIM_STS_PPS 2).wr F.TIM_STS_SLEWING 0
  have hx : execHoldoverEnter s = .next (m.raise evHoldEnter 0xFFFF (s.rd F.TIM_PPS_LAST_NS)) := by
    unfold execHoldoverEnter
    rw [hl]
    exact congrArg Host.Outcome.next (if_pos (by rw [decide_eq_true hp, decide_eq_true hh]; rfl))
  have h2 : m.rd F.TIM_STS_PPS = 2 := (rd_wr_id _ _ _ _ _ _ _ _ _ _ (by decide)).trans (rd_wr_same ..)
  have h0 : m.rd F.TIM_STS_SLEWING = 0 := rd_wr_same ..
  have hm : m.tim.slew = 0 ∧ m.tns = s.tns ∧ m.zn = s.zn := ⟨rfl, rfl, rfl⟩
  have hr := Only.Event.raise m evHoldEnter 0xFFFF (s.rd F.TIM_PPS_LAST_NS)
  generalize m = m at hx h2 h0 hm hr
  generalize m.raise evHoldEnter 0xFFFF (s.rd F.TIM_PPS_LAST_NS) = t at hx hr
  obtain ⟨h₁, -, h₃, -, h₅⟩ := event_time hr
  exact ⟨t, hx, (hr.regs F.TIM_STS_PPS 0 0 0 (by decide)).trans h2, (hr.regs F.TIM_STS_SLEWING 0 0 0 (by decide)).trans h0, h₅.trans hm.1, h₁.trans hm.2.1,
    h₃.trans hm.2.2⟩

/-! ### TIM_SET and TIM_NOW (19 R422, R432) -/

theorem ran_timSetGo_waits (sec : Nat) (hp : s.rd F.TIM_STS_PPS = 1) : Ran (.timSetGo sec) s (fun t => t = { s with regs := t.regs } ∧
    t.rd F.TIM_STS_SET_PEND = 1 ∧ t.rd F.TIM_SET_SEC = cut 34 sec ∧ Keeps s t [F.TIM_STS_SET_PEND, F.TIM_SET_SEC]) := by
  have hp' : (s.wr F.TIM_SET_SEC sec).rd F.TIM_STS_PPS = 1 := (rd_wr_id _ _ _ _ _ _ _ _ _ _ (by decide)).trans hp
  have h1 : cut F.TIM_STS_SET_PEND.w 1 = 1 := rfl
  refine ⟨(s.wr F.TIM_SET_SEC sec).wr F.TIM_STS_SET_PEND 1, congrArg Host.Outcome.next (if_pos hp'), rfl, (rd_wr_same ..).trans h1, ?_, ?_⟩
  · exact (rd_wr_id _ _ _ _ _ _ _ _ _ _ (by decide)).trans (rd_wr_same ..)
  · exact (Keeps.wr (f := F.TIM_SET_SEC) (by decide) s sec 0 0 0).trans (Keeps.wr (f := F.TIM_STS_SET_PEND) (by decide) _ 1 0 0 0)

theorem ran_timSetGo_sets (sec : Nat) (hp : s.rd F.TIM_STS_PPS ≠ 1) (h : 0 ≤ (s.el : Int) + s.tim.ofs) : Ran (.timSetGo sec) s (fun t =>
    t.tns = cut 34 sec * 1000000000 % 2 ^ 64 ∧ t.el = s.el ∧ t.rd F.TIM_STS_SRC = 3 ∧ t.rd F.TIM_STS_SET_PEND = 0 ∧ t.zn = s.zn) := by
  have hp' : ¬ (s.wr F.TIM_SET_SEC sec).rd F.TIM_STS_PPS = 1 := by rw [rd_wr_id _ _ _ _ _ _ _ _ _ _ (by decide)]; exact hp
  have hsec : (s.wr F.TIM_SET_SEC sec).rd F.TIM_SET_SEC = cut 34 sec := rd_wr_same ..
  have hx : execTimSetGo sec s = .next ((s.wr F.TIM_SET_SEC sec).setTime (cut 34 sec * 1000000000)) :=
    congrArg Host.Outcome.next ((if_neg hp').trans (by rw [hsec]))
  exact ⟨_, hx, setTime_spec (s := s.wr F.TIM_SET_SEC sec) (cut 34 sec * 1000000000) h⟩

theorem locate_timNow : locate R.TIM_NOW.base regTable = some (R.TIM_NOW, 0, 0, 0) ∧ locate (R.TIM_NOW.base + 4) regTable = some (R.TIM_NOW, 0, 0, 4) := by
  decide +kernel

theorem readFx_timNow (s : State) (p h : Nat) : s.readFx p R.TIM_NOW 0 0 h = s.wr F.TIM_NOW_FRAC_FRAC s.frac 0 0 p := by
  have hf : R.TIM_NOW.flds.filter (fun f => f.acc = .rc && f.lo / 32 = h) = [] := rfl
  unfold readFx
  rw [hf]
  exact if_pos rfl

theorem regVal_timNow (s : State) (p : Nat) : s.regVal R.TIM_NOW 0 0 p = s.tns := by
  have hv : s.view F.TIM_NOW_NS 0 0 p 0 = s.tns := Nat.mod_eq_of_lt (Nat.mod_lt _ (by decide))
  show (if F.TIM_NOW_NS.acc = .wo then 0 else s.view F.TIM_NOW_NS 0 0 p 0 * 2 ^ F.TIM_NOW_NS.lo) + 0 = _
  rw [if_neg (by decide), hv]
  exact (Nat.add_zero _).trans (Nat.mul_one _)

/-- Both dwords of TIM_NOW at one instant are the counter. -/
theorem peek64_timNow (s : State) (p : Nat) : s.peek64 p R.TIM_NOW.base = s.tns := by
  have hlt : s.tns < 2 ^ 64 := Nat.mod_lt _ (by decide)
  rw [peek64, s.peek_of_locate_some p locate_timNow.1, s.peek_of_locate_some p locate_timNow.2, regVal_timNow]
  generalize s.tns = n at hlt ⊢
  simp only [Nat.zero_div, Nat.mul_zero, Nat.pow_zero, Nat.div_one]
  omega

theorem read8_timNow (s : State) (p : Nat) : s.read8 p R.TIM_NOW.base =
    (((s.unlatch p).wr F.TIM_NOW_FRAC_FRAC s.frac 0 0 p).wr F.TIM_NOW_FRAC_FRAC s.frac 0 0 p, s.tns) := by
  have h₁ (m : State) : m.touchReg p R.TIM_NOW.base = m.wr F.TIM_NOW_FRAC_FRAC m.frac 0 0 p := by
    rw [touchReg, locate_timNow.1]
    exact readFx_timNow ..
  have h₂ (m : State) : m.touchReg p (R.TIM_NOW.base + 4) = m.wr F.TIM_NOW_FRAC_FRAC m.frac 0 0 p := by
    rw [touchReg, locate_timNow.2]
    exact readFx_timNow ..
  rw [read8, peek64_timNow, h₁, h₂]
  rfl

theorem ran_timNowRead {p : Nat} (hp : p ≤ 1) (hu : s.pathUp p = true) : Ran (.timNowRead p) s (fun t =>
    t = { s with regs := t.regs, gen := t.gen, outs := t.outs } ∧
      t.outs = s.outs ++ [if p = 0 then .rd 0x40000 s.tns else .mi 0 [s.tns % 2 ^ 32, s.tns / 2 ^ 32]] ∧
      t.rd F.TIM_NOW_FRAC_FRAC 0 0 p = s.frac ∧ Keeps s t [F.TIM_NOW_FRAC_FRAC]) := by
  have hmin : min p 1 = p := Nat.min_eq_left hp
  have hwide : wideHalf R.TIM_NOW.base 0 = true := by rw [wideHalf, locate_timNow.1]; rfl
  have hfr : cut F.TIM_NOW_FRAC_FRAC.w s.frac = s.frac := Nat.mod_mod _ _
  let m : State := ((s.unlatch p).wr F.TIM_NOW_FRAC_FRAC s.frac 0 0 p).wr F.TIM_NOW_FRAC_FRAC s.frac 0 0 p
  have hrw : State.readWords p R.TIM_NOW.base 2 s = (m, [s.tns % 2 ^ 32, s.tns / 2 ^ 32]) := by
    rw [readWords, if_pos hwide, read8_timNow]
    rfl
  have hx : execTimNowRead p s = .next (m.answer p R.TIM_NOW.base [s.tns % 2 ^ 32, s.tns / 2 ^ 32]) := by
    unfold execTimNowRead
    rw [hu, hmin, hrw]
    rfl
  have hans : m.answer p R.TIM_NOW.base [s.tns % 2 ^ 32, s.tns / 2 ^ 32] =
      m.send (if p = 0 then .rd 0x40000 s.tns else .mi 0 [s.tns % 2 ^ 32, s.tns / 2 ^ 32]) := by
    have hle : answer.leWords [s.tns % 2 ^ 32, s.tns / 2 ^ 32] = s.tns := by
      show s.tns % 2 ^ 32 + 2 ^ 32 * (s.tns / 2 ^ 32 + 2 ^ 32 * 0) = s.tns
      rw [Nat.mul_zero, Nat.add_zero]
      exact Nat.mod_add_div ..
    unfold answer
    rw [hle]
    split <;> rfl
  have hm : m = { s with regs := m.regs, gen := m.gen } := rfl
  have hmr : m.rd F.TIM_NOW_FRAC_FRAC 0 0 p = s.frac := (rd_wr_same ..).trans hfr
  have hmk : Keeps s m [F.TIM_NOW_FRAC_FRAC] :=
    (Keeps.wr (s := s.unlatch p) (List.mem_singleton_self F.TIM_NOW_FRAC_FRAC) s.frac 0 0 p).trans
      (Keeps.wr (List.mem_singleton_self F.TIM_NOW_FRAC_FRAC) _ s.frac 0 0 p)
  rw [hans] at hx
  generalize m = m at hx hm hmr hmk
  refine ⟨_, hx, ?_, ?_, hmr, hmk⟩
  · show { m with outs := m.outs ++ _ } = _
    rw [hm]
    rfl
  · show m.outs ++ _ = _
    rw [hm]

/-! ### Timers (16 R355) -/

theorem ran_timerArm {n : Nat} (cmp period : Nat) (periodic : Bool) (hn : n < 16) (hs : s.stopped = false) :
    Ran (.timerArm n cmp period periodic) s (fun t => t = { s with regs := t.regs } ∧ t.rd F.PUP_TMR_CMP_CMP n = cut 64 cmp ∧
      t.rd F.PUP_TMR_CTL_PERIOD n = cut F.PUP_TMR_CTL_PERIOD.w period ∧ t.rd F.PUP_TMR_CTL_PERIODIC n = b2n periodic ∧ t.rd F.PUP_TMR_CTL_EN n = 1 ∧
      Keeps s t [F.PUP_TMR_CMP_CMP, F.PUP_TMR_CTL_PERIOD, F.PUP_TMR_CTL_PERIODIC, F.PUP_TMR_CTL_EN]) := by
  let a : State := (((s.wr F.PUP_TMR_CMP_CMP cmp n).wr F.PUP_TMR_CTL_PERIOD period n).wr F.PUP_TMR_CTL_PERIODIC (b2n periodic) n).wr F.PUP_TMR_CTL_EN 1 n
  have hx : execTimerArm n cmp period periodic s = .next a := by
    unfold execTimerArm
    rw [hs, if_neg (by simpa using hn)]
  have h1 : cut F.PUP_TMR_CTL_EN.w 1 = 1 := rfl
  have hb : cut F.PUP_TMR_CTL_PERIODIC.w (b2n periodic) = b2n periodic := by cases periodic <;> rfl
  have hc : cut F.PUP_TMR_CMP_CMP.w cmp = cut 64 cmp := rfl
  refine ⟨a, hx, rfl, ?_, ?_, ?_, ?_, ?_⟩
  · simp (disch := decide) only [a, rd_wr_id, rd_wr_same, hc]
  · simp (disch := decide) only [a, rd_wr_id, rd_wr_same]
  · simp (disch := decide) only [a, rd_wr_id, rd_wr_same, hb]
  · simp (disch := decide) only [a, rd_wr_same, h1]
  · exact (((Keeps.wr (f := F.PUP_TMR_CMP_CMP) (by decide) s cmp n 0 0).trans (Keeps.wr (f := F.PUP_TMR_CTL_PERIOD) (by decide) _ period n 0 0)).trans
      (Keeps.wr (f := F.PUP_TMR_CTL_PERIODIC) (by decide) _ (b2n periodic) n 0 0)).trans (Keeps.wr (f := F.PUP_TMR_CTL_EN) (by decide) _ 1 n 0 0)

/-- An occurrence is in the mailbox (16 R356). -/
theorem latch_spec (s : State) (src data : Nat) : (∃ e ∈ (s.latch src data).pup.pend, e.src = src) ∧ Keeps s (s.latch src data) [F.PUP_MBX_STS_SEQ] ∧
    (s.latch src data).zn = s.zn ∧ (s.latch src data).outs = s.outs := by
  unfold latch
  split
  · next h =>
    obtain ⟨e, he, hs⟩ := List.any_eq_true.1 h
    have hs : e.src = src := by simpa using hs
    exact ⟨⟨_, List.mem_map_of_mem he, by rw [if_pos hs]; exact hs⟩, fun _ _ _ _ _ => rfl, rfl, rfl⟩
  · exact ⟨⟨_, List.mem_append_right _ (List.mem_singleton_self _), rfl⟩, Keeps.wr (List.mem_singleton_self F.PUP_MBX_STS_SEQ) _ _ _ _ _, rfl, rfl⟩

theorem ran_timerExpiry {n : Nat} (hn : n < 16) (hc : s.counting = true) (he : s.rd F.PUP_TMR_CTL_EN n ≠ 0) (ht : s.rd F.PUP_TMR_CMP_CMP n ≤ s.tns) :
    Ran (.timerExpiry n) s (fun t => (∃ e ∈ t.pup.pend, e.src = n) ∧
      (s.rd F.PUP_TMR_CTL_PERIODIC n ≠ 1 → t.rd F.PUP_TMR_CTL_EN n = 0 ∧ t.rd F.PUP_TMR_CMP_CMP n = s.rd F.PUP_TMR_CMP_CMP n) ∧
      (s.rd F.PUP_TMR_CTL_PERIODIC n = 1 → t.rd F.PUP_TMR_CTL_EN n = s.rd F.PUP_TMR_CTL_EN n ∧
        t.rd F.PUP_TMR_CMP_CMP n = cut 64 (s.rd F.PUP_TMR_CMP_CMP n + s.rd F.PUP_TMR_CTL_PERIOD n * 1000)) ∧ t.zn = s.zn ∧ t.outs = s.outs) := by
  let a : State := if s.rd F.PUP_TMR_CTL_PERIODIC n = 1 then s.addw F.PUP_TMR_CMP_CMP (s.rd F.PUP_TMR_CTL_PERIOD n * 1000) n else s.wr F.PUP_TMR_CTL_EN 0 n
  have hx : execTimerExpiry n s = .next (a.latch n 0) := by
    have hgo : ¬ (n ≥ 16 || !s.counting || decide (s.rd F.PUP_TMR_CTL_EN n = 0) || decide (s.tns < s.rd F.PUP_TMR_CMP_CMP n)) = true := by
      rw [hc, decide_eq_false he, decide_eq_false (Nat.not_lt.2 ht), decide_eq_false (Nat.not_le.2 hn)]
      exact Bool.false_ne_true
    exact congrArg Host.Outcome.next (if_neg hgo)
  have h0 : cut F.PUP_TMR_CTL_EN.w 0 = 0 := rfl
  have haz : a.zn = s.zn ∧ a.outs = s.outs := by
    show (ite _ _ _ : State).zn = _ ∧ (ite _ _ _ : State).outs = _
    split <;> exact ⟨rfl, rfl⟩
  have ha₁ (hp : s.rd F.PUP_TMR_CTL_PERIODIC n ≠ 1) : a.rd F.PUP_TMR_CTL_EN n = 0 ∧ a.rd F.PUP_TMR_CMP_CMP n = s.rd F.PUP_TMR_CMP_CMP n := by
    have : a = s.wr F.PUP_TMR_CTL_EN 0 n := if_neg hp
    rw [this, rd_wr_same, h0, rd_wr_id _ _ _ _ _ _ _ _ _ _ (by decide)]
    exact ⟨rfl, rfl⟩
  have ha₂ (hp : s.rd F.PUP_TMR_CTL_PERIODIC n = 1) : a.rd F.PUP_TMR_CTL_EN n = s.rd F.PUP_TMR_CTL_EN n ∧
      a.rd F.PUP_TMR_CMP_CMP n = cut 64 (s.rd F.PUP_TMR_CMP_CMP n + s.rd F.PUP_TMR_CTL_PERIOD n * 1000) := by
    have : a = s.addw F.PUP_TMR_CMP_CMP (s.rd F.PUP_TMR_CTL_PERIOD n * 1000) n := if_pos hp
    rw [this]
    exact ⟨rd_wr_id _ _ _ _ _ _ _ _ _ _ (by decide), rd_wr_same ..⟩
  generalize a = a at hx haz ha₁ ha₂
  obtain ⟨hp, hk, hz, ho⟩ := latch_spec a n 0
  have h₁ : (a.latch n 0).rd F.PUP_TMR_CTL_EN n = a.rd F.PUP_TMR_CTL_EN n := hk _ n 0 0 (by decide)
  have h₂ : (a.latch n 0).rd F.PUP_TMR_CMP_CMP n = a.rd F.PUP_TMR_CMP_CMP n := hk _ n 0 0 (by decide)
  exact ⟨_, hx, hp, fun h => ⟨h₁.trans (ha₁ h).1, h₂.trans (ha₁ h).2⟩, fun h => ⟨h₁.trans (ha₂ h).1, h₂.trans (ha₂ h).2⟩, hz.trans haz.1, ho.trans haz.2⟩

end State

/-- Settles O33. Setting time moves the counter's offset by the difference from what it shows; an edge is judged by its distance from the last accepted
one and by its error; TIM_NOW's two dwords show the counter and latch the fraction. -/
theorem timeComplete : Obligations.TimeComplete := by
  unfold Obligations.TimeComplete
  exact ⟨fun _ cid ms waited _ hs hm h => State.ran_setFeaturesTimestamp cid ms waited hs hm h,
    fun _ cid _ hs => State.ran_getFeaturesTimestamp cid hs,
    fun _ hc hen => ⟨fun hg hp hq he => State.ran_ppsEdge hc hen hg hp hq he, fun _ hl hle hlt => State.ran_ppsEdge_glitch hc hen hl hle hlt⟩,
    fun _ _ hl hp hh => State.ran_holdoverEnter hl hp hh,
    fun sec _ => ⟨State.ran_timSetGo_waits sec, State.ran_timSetGo_sets sec⟩,
    fun _ _ hp hu => State.ran_timNowRead hp hu,
    fun _ cmp period periodic _ hn hs => State.ran_timerArm cmp period periodic hn hs,
    fun _ _ hn hc he ht => State.ran_timerExpiry hn hc he ht⟩

end Sys2Proof.Machine
end


section
/-! O29: background work on the media (06 R147; 07 R175, R176; 11 R269–R273). -/

namespace Sys2Proof.Machine

namespace State
variable {s : State}

/-! ### Reclamation (11 R269, R273) -/

/-- Queueing an erase touches its die alone. -/
theorem queueErase_spec (s : State) (d : Nat) (purp : Purp) (b : Nat) :
    (∃ o, ((s.queueErase d purp b).dieOf d).queue = (s.dieOf d).queue ++ [o] ∧ o.kind = .erase ∧ o.blk = b ∧ o.purp = purp ∧ o.slice = 0 ∧ o.idle = true) ∧
    (∀ e, e ≠ d → (s.queueErase d purp b).dieOf e = s.dieOf e) ∧
    s.queueErase d purp b = { s with die := (s.queueErase d purp b).die } := by
  refine ⟨⟨_, congrArg DieSt.queue (dieOf_putDie_same ..), rfl, rfl, rfl, rfl, rfl⟩, fun e he => dieOf_putDie_ne s _ he, rfl⟩

/-- What the look at a die does after its erases. -/
def reclaimRest (d : Nat) (s : State) : State :=
  let s := ((s.ftl.crows.filter (fun e => e.2.full && e.2.valid = 0)).map (·.1)).foldl State.dropCRow s
  let s := ((s.die.blks.filter (fun e => e.1 / 2048 = d && e.2.refresh && e.2.use = BlkUse.data)).map (fun e => e.1 % 2048)).foldl
    (fun (s : State) b => s.refreshStart ⟨d, b⟩) s
  let s := match s.grpOfDie d with
    | none => s
    | some (dg, g) =>
      let lv : Bool := match s.rdn.reshape with
        | some r => r.grp = dg && !(s.leavingRows r).isEmpty && !s.rshpPaused r
        | none => false
      if (s.freeOf g < s.rd F.FTL_GC_CFG_GC_START || lv) && !s.bgYields 0 d then
        match s.gcRow dg with
        | some h => s.collect h
        | none => s
      else s
  s.rshpNext

/-- Without conventional rows, refreshes and reshape the look at a die ends with its erases. -/
theorem reclaimRest_none {d : Nat} (hc : s.ftl.crows = []) (hr : s.rdn.reshape = none) (hb : ∀ e ∈ s.die.blks, e.2.refresh = false) :
    s.reclaimRest d = s := by
  have hf : s.die.blks.filter (fun e => e.1 / 2048 = d && e.2.refresh && e.2.use = BlkUse.data) = [] :=
    List.filter_eq_nil_iff.2 fun e he => by simp [hb e he]
  have hg (dg : Nat) : s.gcRow dg = none := by
    rw [gcRow, hc, hr]
    rfl
  have hn : s.rshpNext = s := by rw [rshpNext, hr]
  unfold reclaimRest
  dsimp only
  rw [hc, List.filter_nil, List.map_nil, List.foldl_nil, hf, List.map_nil, List.foldl_nil]
  cases s.grpOfDie d with
  | none => exact hn
  | some e =>
    simp only [hg, ite_self]
    exact hn

theorem execReclamation_eq (s : State) (d : Nat) : execReclamation d s = .next (if !s.works d || s.tailFull then s else
    (match if s.eraseDue d then s.staleOn d else none with
      | some b => s.queueErase d .gcErase b
      | none => s).reclaimRest d) := rfl

theorem ran_reclamation {d b : Nat} (hw : s.works d = true) (ht : s.tailFull = false) (he : s.eraseDue d = true) (hs : s.staleOn d = some b)
    (hc : s.ftl.crows = []) (hr : s.rdn.reshape = none) (hb : ∀ e ∈ s.die.blks, e.2.refresh = false) : Ran (.reclamation d) s (fun t =>
      (∃ o, (t.dieOf d).queue = (s.dieOf d).queue ++ [o] ∧ o.kind = .erase ∧ o.blk = b ∧ o.purp = .gcErase ∧ o.slice = 0 ∧ o.idle = true) ∧
      (∀ e, e ≠ d → t.dieOf e = s.dieOf e) ∧ t = { s with die := t.die }) := by
  refine ⟨s.queueErase d .gcErase b, ?_, queueErase_spec s d .gcErase b⟩
  refine (execReclamation_eq s d).trans (congrArg Host.Outcome.next ((if_neg (by rw [hw, ht]; exact Bool.false_ne_true)).trans ?_))
  rw [if_pos he, hs]
  exact reclaimRest_none (s := s.queueErase d .gcErase b) hc hr hb

/-! ### Relocation (11 R270) -/

theorem ran_relocation {id : Nat} {j : Reloc} (hj : s.ftl.relocs.find? (fun (j : Reloc) => j.id = id && j.step = 0) = some j)
    (hk : (j.kind = 1 ∧ s.relocLive j = true) ∨ j.kind = 3) : Ran (.relocation id true) s (fun t =>
      t.ftl.jtail = s.ftl.jtail ++ [⟨s.ftl.jnext, 0x08,
        [b2n j.row.conv, j.row.h, j.row.r, j.member, j.old.die, j.old.blk, j.new.die, j.new.blk], .reloc id, s.el⟩] ∧
      (∀ i ∈ t.ftl.relocs, i.id = id → i.step = 2) ∧
      t = { s with ftl := { s.ftl with relocs := t.ftl.relocs, jnext := s.ftl.jnext + 1, jtail := t.ftl.jtail } }) := by
  have hid : j.id = id := by
    have := List.find?_some hj
    simp only [Bool.and_eq_true, decide_eq_true_eq] at this
    exact this.1
  have h4 : ¬ j.kind = 4 := by rcases hk with ⟨h, -⟩ | h <;> omega
  have h2 : ¬ j.kind = 2 := by rcases hk with ⟨h, -⟩ | h <;> omega
  have h0 : ¬ j.kind = 0 := by rcases hk with ⟨h, -⟩ | h <;> omega
  have hlive : ¬ ((decide (j.kind = 1) || decide (j.kind = 2)) && !s.relocLive j) = true := by
    rcases hk with ⟨-, h⟩ | h
    · rw [h, Bool.not_true, Bool.and_false]
      exact Bool.false_ne_true
    · rw [h]
      exact Bool.false_ne_true
  let m : State := { s with ftl := { s.ftl with relocs := s.ftl.relocs.map (fun (i : Reloc) => if i.id = j.id then { i with step := 2, moves := j.moves } else i) } }
  have hm : s.journalMove j = m.jn 0x08 [b2n j.row.conv, j.row.h, j.row.r, j.member, j.old.die, j.old.blk, j.new.die, j.new.blk] (.reloc j.id) := by
    unfold journalMove
    dsimp only
    rw [if_neg h4, if_neg h4, if_neg h0, if_neg h4]
  have hx : execRelocation id true s =
      .next (m.jn 0x08 [b2n j.row.conv, j.row.h, j.row.r, j.member, j.old.die, j.old.blk, j.new.die, j.new.blk] (.reloc j.id)) := by
    unfold execRelocation
    rw [hj]
    exact congrArg Host.Outcome.next ((if_neg hlive).trans ((if_pos rfl).trans ((if_neg h2).trans hm)))
  rw [hid] at hx
  refine ⟨_, hx, rfl, fun i hi he => ?_, rfl⟩
  obtain ⟨i', -, rfl⟩ := List.mem_map.1 hi
  by_cases h : i'.id = j.id
  · rw [if_pos h]
  · rw [if_neg h] at he
    exact absurd (he.trans hid.symm) h

/-! ### Rebuild and substitution (07 R175, R176) -/

/-- A stripe's rebuild is charged and stamped. -/
theorem rebuildCharge_keeps (s : State) (c : Nat) (b : Blk) : ((s.chargeBg 3 c).stampNow b).zn = s.zn ∧ ((s.chargeBg 3 c).stampNow b).outs = s.outs ∧
    ((s.chargeBg 3 c).stampNow b).ftl = s.ftl ∧ ((s.chargeBg 3 c).stampNow b).rdn = s.rdn ∧ ((s.chargeBg 3 c).stampNow b).el = s.el ∧
    ((s.chargeBg 3 c).stampNow b).rd F.RDN_RBLD_BYTES_BYTES = s.rd F.RDN_RBLD_BYTES_BYTES := by
  have h := Only.Event.chargeBg (s := s) 3 c
  have hs (m : State) : (m.stampNow b).zn = m.zn ∧ (m.stampNow b).outs = m.outs ∧ (m.stampNow b).ftl = m.ftl ∧ (m.stampNow b).rdn = m.rdn ∧
      (m.stampNow b).el = m.el ∧ (m.stampNow b).regs = m.regs := ⟨rfl, rfl, rfl, rfl, rfl, rfl⟩
  have hc : (s.chargeBg 3 c).outs = s.outs := (s.charge_keeps 0 none c).2.2.2
  generalize s.chargeBg 3 c = m at h hc ⊢
  obtain ⟨h₁, h₂, h₃, h₄, h₅, h₆⟩ := hs m
  have hz := event_time h
  have hf : m.ftl = s.ftl ∧ m.rdn = s.rdn := by
    rw [h.frame]
    exact ⟨rfl, rfl⟩
  exact ⟨h₁.trans hz.2.2.1, h₂.trans hc, h₃.trans hf.1, h₄.trans hf.2, h₅.trans hz.2.1,
    (resetCfg_of_regs h₆ _).trans (h.regs F.RDN_RBLD_BYTES_BYTES 0 0 0 (by decide))⟩

theorem ran_rebuildStripe {conv : Bool} {h r m dg : Nat} {g : Grp} {x : SRow} {e : Subst} (hs : s.rdn.subst = [e]) (her : e.row = ⟨conv, h, r⟩)
    (hem : e.member = m) (hed : e.done = false) (hx : s.srow ⟨conv, h, r⟩ = some x) (hg : s.grpOfDie e.blk.die = some (dg, g))
    (hw : s.works e.blk.die = true) (hu : (Tab.find dg s.rdn.rbld).getD 0 < s.rbldShare dg g) (hm : s.missing ⟨conv, h, r⟩ x = [m])
    (ht : s.tailFull = false) : Ran (.rebuildStripe conv h r m) s (fun t => t.rdn.subst = [{ e with upto := e.upto + 1 }] ∧ t.zn = s.zn ∧ t.outs = s.outs ∧
      t.rd F.RDN_RBLD_BYTES_BYTES = cut 64 (s.rd F.RDN_RBLD_BYTES_BYTES + 4096 * stripeBlks e.upto) ∧
      (e.upto + 1 < s.rbldStripes e x → t.ftl = s.ftl) ∧
      (s.rbldStripes e x ≤ e.upto + 1 → t.ftl.jtail = s.ftl.jtail ++ [⟨s.ftl.jnext, 0x10, [b2n conv, h, r, m, e.blk.die, e.blk.blk, 1],
        .rebuilt ⟨conv, h, r⟩ m, s.el⟩])) := by
  let c := chgRebuild (s.descOf e.blk.die) (s.blkOf e.blk).tier x.k (stripeBlks e.upto)
  let a : State := (s.chargeBg 3 c).stampNow e.blk
  let b : State := { a with rdn := { a.rdn with
    rbld := Tab.put dg ((Tab.find dg s.rdn.rbld).getD 0 + c) a.rdn.rbld
    subst := a.rdn.subst.map (fun (f : Subst) => if f.row = ⟨conv, h, r⟩ && f.member = m then { f with upto := f.upto + 1 } else f) } }
  let d : State := b.addw F.RDN_RBLD_BYTES_BYTES (4096 * stripeBlks e.upto)
  have hrun : execRebuildStripe conv h r m s = .next (if e.upto + 1 ≥ s.rbldStripes e x then
      d.jn 0x10 [b2n conv, h, r, m, e.blk.die, e.blk.blk, 1] (.rebuilt ⟨conv, h, r⟩ m) else d) := by
    have hfind : s.rdn.subst.find? (fun e => e.row = ⟨conv, h, r⟩ && e.member = m && !e.done) = some e := by
      rw [hs, List.find?_cons_of_pos]
      simp [her, hem, hed]
    have hoth : (s.missing ⟨conv, h, r⟩ x).filter (fun i => i != m) = [] := by rw [hm]; simp
    unfold execRebuildStripe
    dsimp only
    rw [hfind, hx]
    dsimp only
    rw [hg]
    dsimp only
    rw [hw, ht, hoth, decide_eq_false (Nat.not_le.2 hu)]
    refine congrArg Host.Outcome.next ((if_neg ?_).trans rfl)
    rw [hs, List.all_cons, List.all_nil, hg]
    simp
  obtain ⟨hz, ho, hf, hr, hel, hrb⟩ := rebuildCharge_keeps s c e.blk
  have hsub : d.rdn.subst = [{ e with upto := e.upto + 1 }] := by
    show a.rdn.subst.map _ = _
    rw [show a.rdn = s.rdn from hr, hs]
    simp [her, hem]
  have hbytes : d.rd F.RDN_RBLD_BYTES_BYTES = cut 64 (s.rd F.RDN_RBLD_BYTES_BYTES + 4096 * stripeBlks e.upto) := by
    refine (rd_wr_same ..).trans ?_
    exact congrArg (fun n => cut 64 (n + 4096 * stripeBlks e.upto)) hrb
  have hdz : d.zn = s.zn ∧ d.outs = s.outs ∧ d.ftl = s.ftl ∧ d.el = s.el := ⟨hz, ho, hf, hel⟩
  generalize d = d at hrun hsub hbytes hdz
  obtain ⟨h₁, h₂, h₃, h₄⟩ := hdz
  have hjn : (d.jn 0x10 [b2n conv, h, r, m, e.blk.die, e.blk.blk, 1] (.rebuilt ⟨conv, h, r⟩ m)).ftl.jtail = s.ftl.jtail ++
      [⟨s.ftl.jnext, 0x10, [b2n conv, h, r, m, e.blk.die, e.blk.blk, 1], .rebuilt ⟨conv, h, r⟩ m, s.el⟩] := by
    show d.ftl.jtail ++ [⟨d.ftl.jnext, _, _, _, d.el⟩] = _
    rw [h₃, h₄]
  by_cases hn : s.rbldStripes e x ≤ e.upto + 1
  · rw [if_pos hn] at hrun
    exact ⟨_, hrun, hsub, h₁, h₂, hbytes, fun hl => absurd hl (Nat.not_lt.2 hn), fun _ => hjn⟩
  · rw [if_neg hn] at hrun
    exact ⟨_, hrun, hsub, h₁, h₂, hbytes, fun _ => h₃, fun hl => absurd hl hn⟩

/-- A rebuild takes an erased block for data (07 R175). -/
theorem takeBlk_rebuild {d b : Nat} (h : s.nextErased d = some b) : ∃ t, s.takeBlk d false true = some (t, ⟨d, b⟩) ∧ (t.blkOf ⟨d, b⟩).use = .data ∧
    t = { s with die := t.die } := by
  unfold takeBlk
  rw [Bool.true_or, if_pos rfl, h]
  refine ⟨_, rfl, ?_, rfl⟩
  exact congrArg BlkSt.use (blkOf_putBlk_same s ⟨d, b⟩ _)

/-- The one member of the one row that a die held is substituted on the best target. -/
theorem substDie_one {d e b b0 : Nat} {c : CRow} (hz : s.zn.zx = []) (hc : s.ftl.crows = [(0, c)]) (hm : c.row.mem = [⟨d, b0⟩]) (hs : s.rdn.subst = [])
    (ht : s.bestTarget (s.substDies ⟨true, 0, 0⟩ c.row 0) = some e) (hn : s.nextErased e = some b) : ∃ t, s.substDie d (fun _ => true) = t ∧
      t.rdn.subst = [⟨⟨true, 0, 0⟩, 0, ⟨e, b⟩, false, 0⟩] ∧ (t.blkOf ⟨e, b⟩).use = .data ∧ t.zn = s.zn ∧ t.outs = s.outs := by
  obtain ⟨t, htake, huse, hte⟩ := takeBlk_rebuild hn
  have hrow : s.srow ⟨true, 0, 0⟩ = some c.row := by
    rw [srow, if_pos rfl, hc]
    rfl
  have hpend : s.memPend ⟨true, 0, 0⟩ 0 = false := by rw [memPend, hs]; rfl
  have hall : s.allRows = [(⟨true, 0, 0⟩, c.row)] := by
    rw [allRows, hz, hc]
    rfl
  have hmem : s.memBlk ⟨true, 0, 0⟩ c.row 0 = ⟨d, b0⟩ := by
    rw [memBlk, hs, hm]
    rfl
  have hsub : s.substitute ⟨true, 0, 0⟩ 0 =
      (({ t with rdn := { t.rdn with subst := t.rdn.subst.filter (fun e => !(e.row = ⟨true, 0, 0⟩ && e.member = 0)) ++ [Subst.mk ⟨true, 0, 0⟩ 0 ⟨e, b⟩ false 0] } } :
        State).jn 0x10 [1, 0, 0, 0, e, b]) := by
    have hfew : ¬ s.rdn.subst.length ≥ 1048576 := by rw [hs]; exact Nat.not_le.2 (by decide)
    unfold substitute
    rw [hrow]
    dsimp only
    rw [hpend, if_neg Bool.false_ne_true, if_neg hfew, ht]
    dsimp only
    rw [htake]
    rfl
  have hdie : s.substDie d (fun _ => true) = s.substitute ⟨true, 0, 0⟩ 0 := by
    rw [substDie, hall]
    show List.foldl _ s (List.range c.row.mem.length) = _
    rw [hm]
    show (if (true && decide ((s.memBlk ⟨true, 0, 0⟩ c.row 0).die = d)) = true then s.substitute ⟨true, 0, 0⟩ 0 else s) = _
    rw [hmem, if_pos (by simp)]
  have htr : t.rdn = s.rdn ∧ t.zn = s.zn ∧ t.outs = s.outs := by
    rw [hte]
    exact ⟨rfl, rfl, rfl⟩
  refine ⟨_, hdie.trans hsub, ?_, huse, htr.2.1, htr.2.2⟩
  show t.rdn.subst.filter _ ++ _ = _
  rw [htr.1, hs]
  rfl

theorem ran_substitutionDelayExpiry {d t0 e b b0 : Nat} {c : CRow} (hg : (s.dieOf d).goneAt = some t0) (hw : s.works d = false)
    (hd : t0 + s.rd F.RDN_RBLD_CFG_DELAY * 1000000000 ≤ s.el) (hz : s.zn.zx = []) (hc : s.ftl.crows = [(0, c)]) (hm : c.row.mem = [⟨d, b0⟩])
    (hs : s.rdn.subst = []) (ht : s.bestTarget (s.substDies ⟨true, 0, 0⟩ c.row 0) = some e) (hn : s.nextErased e = some b) :
    Ran (.substitutionDelayExpiry d) s (fun t => t.rdn.subst = [⟨⟨true, 0, 0⟩, 0, ⟨e, b⟩, false, 0⟩] ∧ (t.blkOf ⟨e, b⟩).use = .data ∧
      t.zn = s.zn ∧ t.outs = s.outs) := by
  obtain ⟨t, heq, h⟩ := substDie_one hz hc hm hs ht hn
  refine ⟨t, ?_, h⟩
  show execSubstitutionDelayExpiry d s = _
  unfold execSubstitutionDelayExpiry
  rw [hg]
  refine congrArg Host.Outcome.next ((if_pos ?_).trans heq)
  rw [hw, decide_eq_true hd, Bool.or_true]
  rfl

/-! ### The overflow (06 R147) -/

theorem ran_stagingOverflowMove {conv : Bool} {h r w p : Nat} {e : Nat × RowId × Nat × Nat} {x : SRow} {us : List StU}
    (hf : s.openPageRows.find? (fun e => e.2 = (⟨conv, h, r⟩, w, p)) = some e) (hx : s.srow ⟨conv, h, r⟩ = some x)
    (ht : e.1 + s.rd F.MED_STG_CFG_FILL_TMO * 1000000 < s.el) (hw : s.winPool < 2 * s.winUsed) (hu : us = s.pageRowUnits ⟨conv, h, r⟩ x.k w p)
    (hl : (s.stg.units.filter (fun u => u.pool = 2)).length + us.length ≤ 16777216) : Ran (.stagingOverflowMove conv h r w p) s (fun t =>
      t.stg = { s.stg with
        ovfAt := (s.stg.ovfAt + us.length) % 16777216
        units := s.stg.units.map (fun (u : StU) =>
          if us.contains u then { u with pool := 2, loc := (s.stg.ovfAt + us.findIdx (· = u)) % 16777216 } else u) } ∧
      t.zn = s.zn ∧ t.outs = s.outs) := by
  subst hu
  generalize hus : s.pageRowUnits ⟨conv, h, r⟩ x.k w p = us at hl ⊢
  let c : State := s.charge (if conv then s.foldSlice ⟨conv, h, r⟩ else s.zSlice h) none
    (s.chgSys (s.descOf (sysDie (ovfPlace s.stg.ovfAt).1 (ovfPlace s.stg.ovfAt).2.1)) us.length)
  have hrun : execStagingOverflowMove conv h r w p s = .next { c with stg := { c.stg with
        ovfAt := (s.stg.ovfAt + us.length) % 16777216
        units := c.stg.units.map (fun (u : StU) =>
          if us.contains u then { u with pool := 2, loc := (s.stg.ovfAt + us.findIdx (· = u)) % 16777216 } else u) } } := by
    unfold execStagingOverflowMove
    dsimp only
    rw [hf, hx]
    dsimp only
    rw [hus]
    refine congrArg Host.Outcome.next ((if_pos ?_).trans rfl)
    rw [decide_eq_true ht, decide_eq_true (show 2 * s.winUsed > s.winPool from hw), decide_eq_true hl]
    rfl
  obtain ⟨-, hs, hz, ho⟩ := charge_keeps s (if conv then s.foldSlice ⟨conv, h, r⟩ else s.zSlice h) none
    (s.chgSys (s.descOf (sysDie (ovfPlace s.stg.ovfAt).1 (ovfPlace s.stg.ovfAt).2.1)) us.length)
  exact ⟨_, hrun, by rw [← hs], hz, ho⟩

end State

/-- Settles O29. Each piece of background work changes what it names and what it is charged to. -/
theorem backgroundWorkComplete : Obligations.BackgroundWorkComplete := by
  unfold Obligations.BackgroundWorkComplete
  exact ⟨fun _ _ _ hw ht he hs hc hr hb => State.ran_reclamation hw ht he hs hc hr hb,
    fun _ _ _ hj hk => State.ran_relocation hj hk,
    fun _ _ _ _ _ _ _ _ _ hs her hem hed hx hg hw hu hm ht => State.ran_rebuildStripe hs her hem hed hx hg hw hu hm ht,
    fun _ _ _ _ _ _ _ hg hw hd hz hc hm hs ht hn => State.ran_substitutionDelayExpiry hg hw hd hz hc hm hs ht hn,
    fun _ _ _ _ _ _ _ _ _ hf hx ht hw hu hl => State.ran_stagingOverflowMove hf hx ht hw hu hl⟩

end Sys2Proof.Machine
end


section
/-! O32: firmware downloads and commits (17 R388–R391; 16 R359). -/

namespace Sys2Proof.Machine

/-- A place of a pair that is written holds what was written. -/
theorem getD_put_same {α : Type} (f : Nat → α) (x d : α) {k : Nat} (hk : k < 2) :
    ((List.range 2).map (fun i => if i = k then x else f i)).getD k d = x := by
  rcases Nat.lt_succ_iff_lt_or_eq.1 hk with h | rfl
  · obtain rfl : k = 0 := Nat.lt_one_iff.1 h
    rfl
  · rfl

/-- The other place keeps what it held. -/
theorem getD_put_other {α : Type} (f : Nat → α) (x d : α) {k : Nat} (hk : k < 2) :
    ((List.range 2).map (fun i => if i = k then x else f i)).getD (1 - k) d = f (1 - k) := by
  rcases Nat.lt_succ_iff_lt_or_eq.1 hk with h | rfl
  · obtain rfl : k = 0 := Nat.lt_one_iff.1 h
    rfl
  · rfl

namespace State
variable {s t : State}

/-! ### The end of a Commit -/

/-- A completion leaves the image and the Puppeteer, and every register but the error log's count. -/
theorem adm_image (s : State) (o : Org) (cid : Nat) (st : Nat × Nat) (dw0 : Nat) (data : List Nat) :
    (s.adm o cid st dw0 data).img = s.img ∧ (s.adm o cid st dw0 data).pup = s.pup ∧ (s.adm o cid st dw0 data).zn = s.zn := by
  have h := Only.Event.adm (s := s) o cid st dw0 data
  generalize s.adm o cid st dw0 data = t at h ⊢
  rw [h.frame]
  exact ⟨rfl, rfl, rfl⟩

/-- What a Commit that ended leaves (17 R389). -/
structure Committed (s t : State) (o : Org) (cid err : Nat) (st : Nat × Nat) : Prop where
  img : t.img = { s.img with upd := [] }
  pup : t.pup = s.pup
  zn : t.zn = s.zn
  state : t.rd F.IMG_UPD_STS_STATE = if err = 0 then 5 else 6
  error : t.rd F.IMG_UPD_STS_ERR = cut F.IMG_UPD_STS_ERR.w err
  result : ∀ k, t.rd F.IMG_SLOT_STS_RESULT k = s.rd F.IMG_SLOT_STS_RESULT k
  replied : RepliedWith t o cid st 0 []

theorem commitEnd_spec (s : State) (o : Org) (cid err : Nat) (st : Nat × Nat) : Committed s (s.commitEnd o cid err st) o cid err st := by
  let a : State := { s with img := { s.img with upd := [] } }
  let b : State := (a.wr F.IMG_UPD_STS_STATE (if err = 0 then 5 else 6)).wr F.IMG_UPD_STS_ERR err
  have hb : b.img = { s.img with upd := [] } ∧ b.pup = s.pup ∧ b.zn = s.zn := ⟨rfl, rfl, rfl⟩
  have h5 : b.rd F.IMG_UPD_STS_STATE = if err = 0 then 5 else 6 := by
    refine (rd_wr_id _ _ _ _ _ _ _ _ _ _ (by decide)).trans ((rd_wr_same ..).trans ?_)
    split <;> rfl
  have he : b.rd F.IMG_UPD_STS_ERR = cut F.IMG_UPD_STS_ERR.w err := rd_wr_same ..
  have hr (k : Nat) : b.rd F.IMG_SLOT_STS_RESULT k = s.rd F.IMG_SLOT_STS_RESULT k :=
    (rd_wr_id _ _ _ _ _ _ _ _ _ _ (by decide)).trans (rd_wr_id _ _ _ _ _ _ _ _ _ _ (by decide))
  show Committed s (b.adm o cid st) o cid err st
  generalize b = b at hb h5 he hr
  obtain ⟨hi, hp, hz⟩ := b.adm_image o cid st 0 []
  have hk := Only.Event.adm (s := b) o cid st 0 []
  exact ⟨hi.trans hb.1, hp.trans hb.2.1, hz.trans hb.2.2, (hk.regs F.IMG_UPD_STS_STATE 0 0 0 (by decide)).trans h5,
    (hk.regs F.IMG_UPD_STS_ERR 0 0 0 (by decide)).trans he, fun k => (hk.regs F.IMG_SLOT_STS_RESULT k 0 0 (by decide)).trans (hr k), adm_replies ..⟩

/-- A manager's Commit to the slot that does not run goes on where nothing prohibits it (17 R389). -/
theorem fwCommit_goes {o : Org} {fs k : Nat} (cid : Nat) (run : Option (Nat × Nat)) (go : State → Nat → State) (h : Manages s o)
    (hc : s.commitSlot fs = some k) (hk : k ≠ s.rd F.IMG_STS_SLOT) (hp : s.prohibited = false) :
    ∃ qs, s.fwCommit o cid fs run go = go { s with sl := { s.sl with qs := qs } } k := by
  obtain ⟨qs, hq⟩ := s.admBegin_eq o
  refine ⟨qs, ?_⟩
  unfold fwCommit
  rw [admin_served h.1, hq, h.2.1, show ({ s with sl := { s.sl with qs := qs } } : State).commitSlot fs = some k from hc]
  exact (if_neg Bool.false_ne_true).trans ((if_neg hk).trans (if_neg (by
    rw [show ({ s with sl := { s.sl with qs := qs } } : State).prohibited = false from hp]; exact Bool.false_ne_true)))

/-! ### The write of a slot (17 R390) -/

/-- A slot that was written and verified. -/
def slotWritten (s : State) (k : Nat) (img : List Nat) : State :=
  (({ s with img := { s.img with slots := (List.range 2).map (fun i => if i = k then img else s.img.slots.getD i []) } } : State).slotShow k 1).wr
    F.IMG_UPD_STS_BYTES img.length

theorem writeSlot_good {o : Org} {cid k nor : Nat} {spd : Bool} (ok : State → List Nat → State) (hn : nor < 2) (hv : s.verify (layBytes s.img.upd) = 1)
    (hs : s.structOk (layBytes s.img.upd) spd = true) : s.writeSlot o cid k nor spd ok =
      ok (s.slotWritten k ((layBytes s.img.upd).take (imgLen (layBytes s.img.upd)))) ((layBytes s.img.upd).take (imgLen (layBytes s.img.upd))) := by
  have h₁ : ¬ (s.verify (layBytes s.img.upd) != 1 || !s.structOk (layBytes s.img.upd) spd) = true := by
    rw [hv, hs]
    exact Bool.false_ne_true
  have h₂ : ¬ (2 ≤ nor && nor ≤ 5) = true := by
    rw [decide_eq_false (Nat.not_le.2 hn)]
    exact Bool.false_ne_true
  unfold writeSlot
  exact (if_neg h₁).trans (if_neg h₂)

theorem writeSlot_bad {o : Org} {cid k nor : Nat} {spd : Bool} (ok : State → List Nat → State)
    (h : s.verify (layBytes s.img.upd) ≠ 1 ∨ s.structOk (layBytes s.img.upd) spd = false) : s.writeSlot o cid k nor spd ok = s.commitEnd o cid 1 (1, 0x07) := by
  unfold writeSlot
  refine if_pos ?_
  rcases h with h | h
  · rw [bne_iff_ne.2 h, Bool.true_or]
  · rw [h, Bool.not_false, Bool.or_true]

/-- Showing a slot's verification changes its registers alone. -/
def Scope.slotShow : Scope where
  merge s t := { s with regs := t.regs }
  fields := [F.IMG_SLOT_STS_RESULT, F.IMG_SLOT_STS_SVN, F.IMG_SLOT_STS_LEN, F.IMG_UPD_STS_BYTES]

theorem slotShow_only (s : State) (k r : Nat) : Only Scope.slotShow.bound s (s.slotShow k r) := by
  unfold slotShow
  exact .after (.ite (.refl _) (.after (.wr (by decide) ..) (.wr (by decide) ..))) (.wr (by decide) ..)

theorem slotShow_result (s : State) (k r : Nat) : (s.slotShow k r).rd F.IMG_SLOT_STS_RESULT k = cut F.IMG_SLOT_STS_RESULT.w r := by
  unfold slotShow
  dsimp only
  split
  · exact rd_wr_same ..
  · exact (rd_wr_id _ _ _ _ _ _ _ _ _ _ (by decide)).trans ((rd_wr_id _ _ _ _ _ _ _ _ _ _ (by decide)).trans (rd_wr_same ..))

/-- What showing a slot leaves. -/
theorem slotShow_keeps (h : Only Scope.slotShow.bound s t) : t.img = s.img ∧ t.pup = s.pup ∧ t.zn = s.zn ∧ t.cap = s.cap ∧ t.outs = s.outs ∧ t.ras = s.ras := by
  rw [h.frame]
  exact ⟨rfl, rfl, rfl, rfl, rfl, rfl⟩

/-- The slot holds the image and shows a good result; the other one and what else the image keeps are as before. -/
theorem slotWritten_spec (s : State) {k : Nat} (img : List Nat) (hk : k < 2) : (s.slotWritten k img).slotBytes k = img ∧
    (s.slotWritten k img).slotBytes (1 - k) = s.slotBytes (1 - k) ∧ (s.slotWritten k img).rd F.IMG_SLOT_STS_RESULT k = 1 ∧
    (s.slotWritten k img).img = { s.img with slots := (s.slotWritten k img).img.slots } ∧ (s.slotWritten k img).pup = s.pup ∧
    (s.slotWritten k img).zn = s.zn ∧ (s.slotWritten k img).outs = s.outs ∧ (s.slotWritten k img).ras = s.ras ∧
    (s.slotWritten k img).rd F.IMG_STS_SLOT = s.rd F.IMG_STS_SLOT := by
  let a : State := { s with img := { s.img with slots := (List.range 2).map (fun i => if i = k then img else s.img.slots.getD i []) } }
  have ha : a.img = { s.img with slots := a.img.slots } ∧ a.pup = s.pup ∧ a.zn = s.zn ∧ a.outs = s.outs ∧ a.ras = s.ras ∧
      a.rd F.IMG_STS_SLOT = s.rd F.IMG_STS_SLOT := ⟨rfl, rfl, rfl, rfl, rfl, rfl⟩
  have hs₁ : a.slotBytes k = img := getD_put_same (fun i => s.img.slots.getD i []) img [] hk
  have hs₂ : a.slotBytes (1 - k) = s.slotBytes (1 - k) := getD_put_other (fun i => s.img.slots.getD i []) img [] hk
  have h₁ : Only Scope.slotShow.bound a (s.slotWritten k img) := .after (.wr (by decide) ..) (slotShow_only a k 1)
  have hr : (s.slotWritten k img).rd F.IMG_SLOT_STS_RESULT k = 1 :=
    (rd_wr_id _ _ _ _ _ _ _ _ _ _ (by decide)).trans ((slotShow_result a k 1).trans (by decide))
  generalize a = a at ha hs₁ hs₂ h₁
  generalize s.slotWritten k img = t at h₁ hr ⊢
  obtain ⟨k₁, k₂, k₃, -, k₅, k₆⟩ := slotShow_keeps h₁
  obtain ⟨a₁, a₂, a₃, a₄, a₅, a₆⟩ := ha
  refine ⟨?_, ?_, hr, ?_, k₂.trans a₂, k₃.trans a₃, k₅.trans a₄, k₆.trans a₅, (h₁.regs F.IMG_STS_SLOT 0 0 0 (by decide)).trans a₆⟩
  · rw [slotBytes, k₁]
    exact hs₁
  · rw [slotBytes, k₁]
    exact hs₂
  · rw [k₁]
    exact a₁

/-! ### The slot directory (17 R374) -/

/-- Showing the directory changes its registers alone. -/
def Scope.showDir : Scope where
  merge s t := { s with regs := t.regs }
  fields := [F.IMG_DIR_ACTIVE, F.IMG_DIR_TRIAL, F.IMG_DIR_TRIES, F.IMG_DIR_SEQ]

theorem showDir_only (s : State) : Only Scope.showDir.bound s s.showDir := by
  unfold showDir
  split
  · exact .refl s
  · exact .after (.wr (by decide) ..) (.after (.wr (by decide) ..) (.after (.wr (by decide) ..) (.wr (by decide) ..)))

theorem showDir_keeps (h : Only Scope.showDir.bound s t) : t.img = s.img ∧ t.pup = s.pup ∧ t.zn = s.zn := by
  rw [h.frame]
  exact ⟨rfl, rfl, rfl⟩

/-- A directory is written over one of its two copies. -/
theorem writeDir_eq (s : State) (active : Nat) (trial : Option Nat) (tries : Nat) : ∃ (i : Nat) (d : Dir), s.writeDir active trial tries =
      ({ s with img := { s.img with dirs := (List.range 2).map (fun j => if j = i then d.bytes else s.img.dirs.getD j []) } } : State).showDir ∧
    i < 2 ∧ d.trial = trial ∧ d.tries = tries ∧ d.active = active := by
  refine ⟨_, _, rfl, ?_, rfl, rfl, rfl⟩
  split <;> decide

/-- A directory that is written stands in one of its copies. -/
theorem writeDir_spec (s : State) (active : Nat) (trial : Option Nat) (tries : Nat) :
    (∃ d : Dir, d.bytes ∈ (s.writeDir active trial tries).img.dirs ∧ d.trial = trial ∧ d.tries = tries ∧ d.active = active) ∧
    (s.writeDir active trial tries).img = { s.img with dirs := (s.writeDir active trial tries).img.dirs } ∧ (s.writeDir active trial tries).pup = s.pup ∧
    (s.writeDir active trial tries).zn = s.zn ∧
    ∀ k, (s.writeDir active trial tries).rd F.IMG_SLOT_STS_RESULT k = s.rd F.IMG_SLOT_STS_RESULT k := by
  obtain ⟨i, d, he, hi, hd⟩ := writeDir_eq s active trial tries
  let m : State := { s with img := { s.img with dirs := (List.range 2).map (fun j => if j = i then d.bytes else s.img.dirs.getD j []) } }
  have hb : d.bytes ∈ m.img.dirs := List.mem_map.2 ⟨i, List.mem_range.2 hi, if_pos rfl⟩
  have hm : m.img = { s.img with dirs := m.img.dirs } ∧ m.pup = s.pup ∧ m.zn = s.zn := ⟨rfl, rfl, rfl⟩
  have hr (k : Nat) : m.rd F.IMG_SLOT_STS_RESULT k = s.rd F.IMG_SLOT_STS_RESULT k := rfl
  have hs := showDir_only m
  rw [show s.writeDir active trial tries = m.showDir from he]
  generalize m = m at hb hm hr hs
  generalize m.showDir = t at hs
  obtain ⟨h₁, h₂, h₃⟩ := showDir_keeps hs
  obtain ⟨m₂, m₃, m₄⟩ := hm
  exact ⟨⟨d, by rw [h₁]; exact hb, hd⟩, by rw [h₁]; exact m₂, h₂.trans m₃, h₃.trans m₄,
    fun k => (hs.regs F.IMG_SLOT_STS_RESULT k 0 0 (by decide)).trans (hr k)⟩

/-! ### The exchange of the firmware (16 R359 step 1) -/

/-- The start of an exchange: the store takes the image, the alternate bank its firmware, and every controller has its notice. -/
def exchanged (s : State) (o : Org) (cid k : Nat) (img : List Nat) : State :=
  let fw := secTy img 1
  let a := 1 - s.rd F.PUP_STS_BANK
  let put := fun (l : List (List Nat)) => (List.range 2).map (fun i => if i = a then fw else l.getD i [])
  let s := { s with img := { s.img with store := octets img, mirror := put s.img.mirror, upd := [] }, ras := { s.ras with damaged := [] } }
  let s := { s with pup := { s.pup with exch := some (k, o, cid) } }
  let s := s.allCtls.foldl (fun (s : State) c => s.notify c 2 0x01 0x03) s
  (s.wr F.PUP_STS_SWAP 0).wr F.IMG_UPD_STS_STATE 4

/-- What the start of an exchange leaves. -/
structure Exchanged (s t : State) (o : Org) (cid k : Nat) : Prop where
  upd : t.img.upd = []
  slots : t.img.slots = s.img.slots
  zn : t.zn = s.zn
  exch : t.pup.exch = some (k, o, cid)
  swap : t.rd F.PUP_STS_SWAP = 0
  state : t.rd F.IMG_UPD_STS_STATE = 4
  outs : s.ras.aers = [] → t.outs = s.outs

/-- A notice that no request waits for is kept. -/
theorem notify_kept (h : s.ras.aers = []) (c : Ctl) (ty info page : Nat) :
    (s.notify c ty info page).ras.aers = [] ∧ (s.notify c ty info page).outs = s.outs := by
  unfold notify
  rw [h]
  dsimp only [List.find?_nil]
  split
  · exact ⟨h, rfl⟩
  · exact ⟨h, rfl⟩

theorem notifyAll_kept (l : List Ctl) (ty info page : Nat) (h : s.ras.aers = []) :
    (l.foldl (fun (s : State) c => s.notify c ty info page) s).outs = s.outs := by
  induction l generalizing s with
  | nil => rfl
  | cons c l ih =>
    obtain ⟨ha, ho⟩ := notify_kept h c ty info page
    exact (ih ha).trans ho

theorem exchanged_spec (s : State) (o : Org) (cid k : Nat) (img : List Nat) : Exchanged s (s.exchanged o cid k img) o cid k := by
  unfold exchanged
  dsimp only
  generalize secTy img 1 = fw
  let a : State := { s with
    img := { s.img with store := octets img, mirror := (List.range 2).map (fun i => if i = 1 - s.rd F.PUP_STS_BANK then fw else s.img.mirror.getD i []), upd := [] },
    ras := { s.ras with damaged := [] }, pup := { s.pup with exch := some (k, o, cid) } }
  have ha : a.img.upd = [] ∧ a.img.slots = s.img.slots ∧ a.zn = s.zn ∧ a.pup.exch = some (k, o, cid) ∧ a.ras.aers = s.ras.aers ∧ a.outs = s.outs :=
    ⟨rfl, rfl, rfl, rfl, rfl, rfl⟩
  show Exchanged s (((a.allCtls.foldl (fun (s : State) c => s.notify c 2 0x01 0x03) a).wr F.PUP_STS_SWAP 0).wr F.IMG_UPD_STS_STATE 4) o cid k
  generalize a = a at ha
  obtain ⟨h₁, h₂, h₃, h₄, h₅, h₆⟩ := ha
  have hn : Only Scope.event.bound a (a.allCtls.foldl (fun (s : State) c => s.notify c 2 0x01 0x03) a) := .foldl fun _ c => Only.Event.notify (s := _) c _ _ _
  have ho := notifyAll_kept (s := a) a.allCtls 2 0x01 0x03
  generalize a.allCtls.foldl _ a = b at hn ho
  have hb : b.img = a.img ∧ b.zn = a.zn ∧ b.pup = a.pup := by
    rw [hn.frame]
    exact ⟨rfl, rfl, rfl⟩
  obtain ⟨b₁, b₂, b₃⟩ := hb
  refine ⟨?_, ?_, b₂.trans h₃, ?_, (rd_wr_id _ _ _ _ _ _ _ _ _ _ (by decide)).trans ((rd_wr_same ..).trans (by decide)),
    (rd_wr_same ..).trans (by decide), fun e => (ho (h₅.trans e)).trans h₆⟩
  · show b.img.upd = []
    rw [b₁, h₁]
  · show b.img.slots = s.img.slots
    rw [b₁, h₂]
  · show b.pup.exch = _
    rw [b₃, h₄]

/-- Without streams and programs every image's programs may be loaded (05 R130, R140). -/
theorem progs_fit (hs : s.cap.streams = []) (hp : s.cap.progs = []) (b : List Nat) :
    ¬ (!(s.oldBusy b).isEmpty) = true ∧ ¬ (!s.progsFit b) = true := by
  have ho : s.oldBusy b = [] := by
    unfold oldBusy
    rw [hs]
    rfl
  have hf : s.progsFit b = true := by
    unfold progsFit
    rw [hp]
    exact List.all_eq_true.2 fun _ _ => rfl
  rw [ho, hf]
  exact ⟨Bool.false_ne_true, Bool.false_ne_true⟩

theorem admBegin_img (i : ImgSt) (o : Org) : ({ s with img := i } : State).admBegin o = { s.admBegin o with img := i } := by
  have ha : ({ s with img := i } : State).admQ o = s.admQ o := by cases o <;> rfl
  unfold admBegin
  rw [ha]
  split <;> rfl

/-! ### What a slot's verification shows -/

/-- The result of a slot's verification (17 R389, action 010). -/
def slotVerdict (s : State) (k : Nat) (spd : Bool) : Nat :=
  if s.verify (s.slotBytes k) = 1 && !s.structOk (s.slotBytes k) spd then 9 else s.verify (s.slotBytes k)

/-- What action 010 does with a slot that does not run. -/
def verifySlot (s : State) (o : Org) (cid k : Nat) (spd : Bool) : State :=
  if s.slotVerdict k spd != 1 then (s.slotShow k (s.slotVerdict k spd)).commitEnd o cid 1 (1, 0x07)
  else ((s.slotShow k (s.slotVerdict k spd)).writeDir (s.slotShow k (s.slotVerdict k spd)).activeSlot (some k) 1).commitEnd o cid 0 stOk

theorem slotVerdict_good {k : Nat} {spd : Bool} (hv : s.verify (s.slotBytes k) = 1) (hs : s.structOk (s.slotBytes k) spd = true) :
    s.slotVerdict k spd = 1 := by
  rw [slotVerdict, hs, if_neg (by rw [Bool.not_true, Bool.and_false]; exact Bool.false_ne_true), hv]

theorem slotVerdict_bad {k : Nat} {spd : Bool} (hv : s.verify (s.slotBytes k) ≠ 1) : s.slotVerdict k spd = s.verify (s.slotBytes k) := by
  rw [slotVerdict, decide_eq_false hv, Bool.false_and]
  exact if_neg Bool.false_ne_true

theorem slotVerdict_one {k : Nat} {spd : Bool} (h : s.slotVerdict k spd = 1) : s.verify (s.slotBytes k) = 1 := by
  by_contra hv
  exact hv ((slotVerdict_bad hv).symm.trans h)

/-- A verification has one of eight results. -/
theorem verify_le (s : State) (b : List Nat) : s.verify b ≤ 8 := by
  unfold verify
  dsimp only
  repeat' split
  all_goals decide

theorem cut_result (s : State) (k : Nat) (spd : Bool) : cut F.IMG_SLOT_STS_RESULT.w (s.slotVerdict k spd) = s.slotVerdict k spd := by
  have hle : s.slotVerdict k spd ≤ 9 := by
    unfold slotVerdict
    split
    · exact Nat.le_refl 9
    · exact (s.verify_le _).trans (by decide)
  exact Nat.mod_eq_of_lt (hle.trans_lt (by decide))

/-! ### The actions of a Commit (17 R389) -/

/-- The buffer a Commit writes is accepted. -/
def Good (s : State) (spd : Bool) : Prop := s.verify (layBytes s.img.upd) = 1 ∧ s.structOk (layBytes s.img.upd) spd = true

theorem not_good {spd : Bool} (h : ¬ s.Good spd) : s.verify (layBytes s.img.upd) ≠ 1 ∨ s.structOk (layBytes s.img.upd) spd = false := by
  by_cases hv : s.verify (layBytes s.img.upd) = 1
  · exact .inr (Bool.eq_false_iff.2 fun hs => h ⟨hv, hs⟩)
  · exact .inl hv

/-- What verifies an image reads nothing of the slices. -/
theorem verify_sl (b : List Nat) (sl : SliceSt) : ({ s with sl := sl } : State).verify b = s.verify b := rfl

theorem cacheLog2_sl (s : State) (ps : List (Nat × Nat)) (sl : SliceSt) : cacheLog2 { s with sl := sl } ps = cacheLog2 s ps := by
  have hw (t : State) (e : Nat × Nat) : ({ t.preset e with sl := sl } : State) = ({ t with sl := sl } : State).preset e :=
    (List.foldl_hom (fun t : State => ({ t with sl := sl } : State)) (fun _ _ => rfl)).symm
  have hf := List.foldl_hom (fun t : State => ({ t with sl := sl } : State)) (init := s) (l := ps) (fun t e => (hw t e).symm)
  unfold cacheLog2
  rw [hf]
  rfl

theorem structOk_sl (b : List Nat) (spd : Bool) (sl : SliceSt) : ({ s with sl := sl } : State).structOk b spd = s.structOk b spd := by
  unfold structOk
  dsimp only
  rw [cacheLog2_sl]

theorem good_sl {spd : Bool} {sl : SliceSt} : ({ s with sl := sl } : State).Good spd ↔ s.Good spd := by
  unfold Good
  rw [verify_sl, structOk_sl]

/-- A Commit of a buffer that is not accepted writes nothing. -/
theorem commit_bad {o : Org} {cid : Nat} {qs : Tab Queue} (h : Committed { s with sl := { s.sl with qs := qs } } t o cid 1 (1, 0x07)) :
    t.img.upd = [] ∧ t.zn = s.zn ∧ t.img.slots = s.img.slots ∧ t.img.dirs = s.img.dirs ∧ t.pup = s.pup ∧ t.rd F.IMG_UPD_STS_STATE = 6 ∧
      t.rd F.IMG_UPD_STS_ERR = 1 ∧ RepliedWith t o cid (1, 0x07) 0 [] :=
  ⟨by rw [h.img], h.zn, by rw [h.img], by rw [h.img], h.pup, h.state, h.error, h.replied⟩

section
variable {o : Org} {fs k nor : Nat} (cid : Nat) (spd : Bool) (h : Manages s o) (hc : s.commitSlot fs = some k) (hk : k ≠ s.rd F.IMG_STS_SLOT) (h2 : k < 2)
  (hp : s.prohibited = false) (hn : nor < 2)
include h hc hk h2 hp

include hn in
theorem ran_commit000 : Ran (.firmwareCommitCa000 o cid fs nor spd) s (fun t => t.img.upd = [] ∧ t.zn = s.zn ∧
      (s.verify (layBytes s.img.upd) = 1 → s.structOk (layBytes s.img.upd) spd = true →
        t.slotBytes k = (layBytes s.img.upd).take (imgLen (layBytes s.img.upd)) ∧ t.slotBytes (1 - k) = s.slotBytes (1 - k) ∧
        t.rd F.IMG_UPD_STS_STATE = 5 ∧ t.rd F.IMG_UPD_STS_ERR = 0 ∧ t.rd F.IMG_SLOT_STS_RESULT k = 1 ∧ RepliedWith t o cid stOk 0 []) ∧
      (s.verify (layBytes s.img.upd) ≠ 1 ∨ s.structOk (layBytes s.img.upd) spd = false → t.img.slots = s.img.slots ∧
        t.rd F.IMG_UPD_STS_STATE = 6 ∧ t.rd F.IMG_UPD_STS_ERR = 1 ∧ RepliedWith t o cid (1, 0x07) 0 [])) := by
  obtain ⟨qs, he⟩ := fwCommit_goes cid none (fun s k => s.writeSlot o cid k nor spd (fun s _ => s.commitEnd o cid 0 stOk)) h hc hk hp
  have hx : execFirmwareCommitCa000 o cid fs nor spd s = .next (({ s with sl := { s.sl with qs := qs } } : State).writeSlot o cid k nor spd
    (fun s _ => s.commitEnd o cid 0 stOk)) := congrArg Host.Outcome.next he
  by_cases hg : s.Good spd
  · have hw := writeSlot_good (s := { s with sl := { s.sl with qs := qs } }) (o := o) (cid := cid) (k := k) (fun s _ => s.commitEnd o cid 0 stOk) hn (good_sl.2 hg).1 (good_sl.2 hg).2
    obtain ⟨h₁, h₃, h₄, h₅, -, h₇, -, -, -⟩ := slotWritten_spec { s with sl := { s.sl with qs := qs } }
      ((layBytes s.img.upd).take (imgLen (layBytes s.img.upd))) h2
    have hx' := hx.trans (congrArg Host.Outcome.next hw)
    dsimp only at hx'
    generalize slotWritten _ k _ = m at h₁ h₃ h₄ h₅ h₇ hx'
    have hce := commitEnd_spec m o cid 0 stOk
    have hb (i : Nat) : (m.commitEnd o cid 0 stOk).slotBytes i = m.slotBytes i := by rw [slotBytes, hce.img, slotBytes]
    refine ⟨_, hx', by rw [hce.img], hce.zn.trans h₇, fun _ _ => ⟨(hb k).trans h₁, (hb _).trans h₃, hce.state, hce.error, (hce.result k).trans h₄,
      hce.replied⟩, fun hbad => absurd hg ?_⟩
    rintro ⟨g₁, g₂⟩
    exact hbad.elim (fun hv => hv g₁) (fun hs => by rw [g₂] at hs; exact Bool.noConfusion hs)
  · have hw := writeSlot_bad (s := { s with sl := { s.sl with qs := qs } }) (o := o) (cid := cid) (k := k) (nor := nor) (spd := spd)
      (fun s _ => s.commitEnd o cid 0 stOk) (not_good (mt good_sl.1 hg))
    obtain ⟨h₁, h₃, h₄, -, -, h₅, h₆, h₇⟩ := commit_bad (commitEnd_spec { s with sl := { s.sl with qs := qs } } o cid 1 (1, 0x07))
    exact ⟨_, hx.trans (congrArg Host.Outcome.next hw), h₁, h₃, fun hv hs => absurd ⟨hv, hs⟩ hg, fun _ => ⟨h₄, h₅, h₆, h₇⟩⟩

include hn in
theorem ran_commit001 : Ran (.firmwareCommitCa001 o cid fs nor spd) s (fun t => t.img.upd = [] ∧ t.zn = s.zn ∧
      (s.verify (layBytes s.img.upd) = 1 → s.structOk (layBytes s.img.upd) spd = true →
        t.slotBytes k = (layBytes s.img.upd).take (imgLen (layBytes s.img.upd)) ∧
        (∃ d : Dir, d.bytes ∈ t.img.dirs ∧ d.trial = some k ∧ d.tries = 1 ∧ d.active = s.activeSlot) ∧
        t.rd F.IMG_UPD_STS_STATE = 5 ∧ RepliedWith t o cid stOk 0 []) ∧
      (s.verify (layBytes s.img.upd) ≠ 1 → t.img.slots = s.img.slots ∧ t.img.dirs = s.img.dirs ∧ t.rd F.IMG_UPD_STS_STATE = 6 ∧
        RepliedWith t o cid (1, 0x07) 0 [])) := by
  obtain ⟨qs, he⟩ := fwCommit_goes cid none
    (fun s k => s.writeSlot o cid k nor spd (fun s _ => (s.writeDir s.activeSlot (some k) 1).commitEnd o cid 0 stOk)) h hc hk hp
  have hx : execFirmwareCommitCa001 o cid fs nor spd s = .next (({ s with sl := { s.sl with qs := qs } } : State).writeSlot o cid k nor spd
    (fun s _ => (s.writeDir s.activeSlot (some k) 1).commitEnd o cid 0 stOk)) := congrArg Host.Outcome.next he
  by_cases hg : s.Good spd
  · have hw := writeSlot_good (s := { s with sl := { s.sl with qs := qs } }) (o := o) (cid := cid) (k := k)
      (fun s _ => (s.writeDir s.activeSlot (some k) 1).commitEnd o cid 0 stOk) hn (good_sl.2 hg).1 (good_sl.2 hg).2
    obtain ⟨h₁, -, -, h₅, -, h₇, -, -, h₉⟩ := slotWritten_spec { s with sl := { s.sl with qs := qs } }
      ((layBytes s.img.upd).take (imgLen (layBytes s.img.upd))) h2
    have hx' := hx.trans (congrArg Host.Outcome.next hw)
    dsimp only at hx'
    generalize slotWritten _ k _ = m at h₁ h₅ h₇ h₉ hx'
    have hact : m.activeSlot = s.activeSlot := by
      have hd : m.dir = s.dir := by rw [dir, h₅, dir]
      rw [activeSlot, hd, h₉, activeSlot]
      rfl
    obtain ⟨hdir, hdi, -, hdz, -⟩ := writeDir_spec m m.activeSlot (some k) 1
    generalize m.writeDir m.activeSlot (some k) 1 = n at hdir hdi hdz hx'
    have hce := commitEnd_spec n o cid 0 stOk
    have hb : (n.commitEnd o cid 0 stOk).slotBytes k = m.slotBytes k := by rw [slotBytes, hce.img, hdi, slotBytes]
    have hds : (n.commitEnd o cid 0 stOk).img.dirs = n.img.dirs := by rw [hce.img]
    obtain ⟨d, hd₁, hd₂, hd₃, hd₄⟩ := hdir
    exact ⟨_, hx', by rw [hce.img], hce.zn.trans (hdz.trans h₇),
      fun _ _ => ⟨hb.trans h₁, ⟨d, by rw [hds]; exact hd₁, hd₂, hd₃, hd₄.trans hact⟩, hce.state, hce.replied⟩, fun hv => absurd hg.1 hv⟩
  · have hw := writeSlot_bad (s := { s with sl := { s.sl with qs := qs } }) (o := o) (cid := cid) (k := k) (nor := nor) (spd := spd)
      (fun s _ => (s.writeDir s.activeSlot (some k) 1).commitEnd o cid 0 stOk) (not_good (mt good_sl.1 hg))
    obtain ⟨h₁, h₃, h₄, h₅, -, h₆, -, h₇⟩ := commit_bad (commitEnd_spec { s with sl := { s.sl with qs := qs } } o cid 1 (1, 0x07))
    exact ⟨_, hx.trans (congrArg Host.Outcome.next hw), h₁, h₃, fun hv hs => absurd ⟨hv, hs⟩ hg, fun _ => ⟨h₄, h₅, h₆, h₇⟩⟩

omit h2 in
theorem ran_commit010 : Ran (.firmwareCommitCa010 o cid fs spd) s (fun t => t.img.upd = [] ∧ t.img.slots = s.img.slots ∧ t.zn = s.zn ∧
      (s.verify (s.slotBytes k) = 1 → s.structOk (s.slotBytes k) spd = true →
        (∃ d : Dir, d.bytes ∈ t.img.dirs ∧ d.trial = some k ∧ d.tries = 1 ∧ d.active = s.activeSlot) ∧
        t.rd F.IMG_SLOT_STS_RESULT k = 1 ∧ RepliedWith t o cid stOk 0 []) ∧
      (s.verify (s.slotBytes k) ≠ 1 → t.img.dirs = s.img.dirs ∧ t.rd F.IMG_SLOT_STS_RESULT k = s.verify (s.slotBytes k) ∧
        RepliedWith t o cid (1, 0x07) 0 [])) := by
  obtain ⟨qs, he⟩ := fwCommit_goes cid (some stOk) (fun s k => s.verifySlot o cid k spd) h hc hk hp
  have hx : execFirmwareCommitCa010 o cid fs spd s = .next (({ s with sl := { s.sl with qs := qs } } : State).verifySlot o cid k spd) :=
    congrArg Host.Outcome.next he
  have hr : slotVerdict { s with sl := { s.sl with qs := qs } } k spd = s.slotVerdict k spd := by
    unfold slotVerdict
    rw [verify_sl, structOk_sl]
    rfl
  have ho := slotShow_only { s with sl := { s.sl with qs := qs } } k (s.slotVerdict k spd)
  have hres := slotShow_result { s with sl := { s.sl with qs := qs } } k (s.slotVerdict k spd)
  have hact : ({ s with sl := { s.sl with qs := qs } } : State).activeSlot = s.activeSlot := rfl
  have hslot := ho.regs F.IMG_STS_SLOT 0 0 0 (by decide)
  obtain ⟨k₁, -, k₃, -, -, -⟩ := slotShow_keeps ho
  unfold verifySlot at hx
  rw [hr] at hx
  rw [cut_result] at hres
  generalize slotShow _ k _ = m at hx k₁ k₃ hres hslot
  have hme : m.activeSlot = s.activeSlot := by
    have hd : m.dir = s.dir := by rw [dir, k₁, dir]
    rw [activeSlot, hd, hslot, activeSlot]
    rfl
  by_cases hok : s.slotVerdict k spd = 1
  · rw [if_neg (by rw [hok]; decide)] at hx
    obtain ⟨hdir, hdi, -, hdz, hdr⟩ := writeDir_spec m m.activeSlot (some k) 1
    generalize m.writeDir m.activeSlot (some k) 1 = n at hdir hdi hdz hdr hx
    have hce := commitEnd_spec n o cid 0 stOk
    have hds : (n.commitEnd o cid 0 stOk).img.dirs = n.img.dirs := by rw [hce.img]
    obtain ⟨d, hd₁, hd₂, hd₃, hd₄⟩ := hdir
    refine ⟨_, hx, by rw [hce.img], by rw [hce.img, hdi, k₁], hce.zn.trans (hdz.trans k₃),
      fun _ _ => ⟨⟨d, by rw [hds]; exact hd₁, hd₂, hd₃, hd₄.trans hme⟩, (hce.result k).trans ((hdr k).trans (hres.trans hok)), hce.replied⟩,
      fun hv => absurd (slotVerdict_one hok) hv⟩
  · rw [if_pos (bne_iff_ne.2 hok)] at hx
    have hce := commitEnd_spec m o cid 1 (1, 0x07)
    refine ⟨_, hx, by rw [hce.img], by rw [hce.img, k₁], hce.zn.trans k₃, fun hv hs => absurd (slotVerdict_good hv hs) hok, fun hv =>
      ⟨by rw [hce.img, k₁], (hce.result k).trans (hres.trans (slotVerdict_bad hv)), hce.replied⟩⟩

include hn in
theorem ran_commit011 (hstr : s.cap.streams = []) (hprog : s.cap.progs = []) : Ran (.firmwareCommitCa011 o cid fs nor spd) s (fun t =>
      t.img.upd = [] ∧ t.zn = s.zn ∧
      (s.verify (layBytes s.img.upd) = 1 → s.structOk (layBytes s.img.upd) spd = true →
        t.slotBytes k = (layBytes s.img.upd).take (imgLen (layBytes s.img.upd)) ∧ t.pup.exch = some (k, o, cid) ∧ t.rd F.PUP_STS_SWAP = 0 ∧
        t.rd F.IMG_UPD_STS_STATE = 4 ∧ (s.ras.aers = [] → t.outs = s.outs)) ∧
      (s.verify (layBytes s.img.upd) ≠ 1 → t.img.slots = s.img.slots ∧ t.pup = s.pup ∧ t.rd F.IMG_UPD_STS_STATE = 6 ∧
        RepliedWith t o cid (1, 0x07) 0 [])) := by
  obtain ⟨qs, he⟩ := fwCommit_goes cid none (fun s k =>
    if !(s.oldBusy (layBytes s.img.upd)).isEmpty then s.commitEnd o cid 1 (1, 0x07)
    else if !s.progsFit (layBytes s.img.upd) then s.commitEnd o cid 1 (1, 0x07)
    else s.writeSlot o cid k nor spd (fun s img => s.exchanged o cid k img)) h hc hk hp
  have hx₀ : execFirmwareCommitCa011 o cid fs nor spd s = .next _ := congrArg Host.Outcome.next he
  have hf := progs_fit (s := { s with sl := { s.sl with qs := qs } }) hstr hprog (layBytes s.img.upd)
  have hx : execFirmwareCommitCa011 o cid fs nor spd s = .next (({ s with sl := { s.sl with qs := qs } } : State).writeSlot o cid k nor spd
      (fun s img => s.exchanged o cid k img)) :=
    hx₀.trans (congrArg Host.Outcome.next ((if_neg hf.1).trans (if_neg hf.2)))
  by_cases hg : s.Good spd
  · have hw := writeSlot_good (s := { s with sl := { s.sl with qs := qs } }) (o := o) (cid := cid) (k := k) (fun s img => s.exchanged o cid k img)
      hn (good_sl.2 hg).1 (good_sl.2 hg).2
    obtain ⟨h₁, -, -, -, -, h₇, h₈, h₉, -⟩ := slotWritten_spec { s with sl := { s.sl with qs := qs } }
      ((layBytes s.img.upd).take (imgLen (layBytes s.img.upd))) h2
    have hx' := hx.trans (congrArg Host.Outcome.next hw)
    dsimp only at hx'
    generalize slotWritten _ k _ = m at h₁ h₇ h₈ h₉ hx'
    have hex := exchanged_spec m o cid k ((layBytes s.img.upd).take (imgLen (layBytes s.img.upd)))
    exact ⟨_, hx', hex.upd, hex.zn.trans h₇, fun _ _ => ⟨by rw [slotBytes, hex.slots]; exact h₁, hex.exch, hex.swap, hex.state,
      fun ha => (hex.outs (by rw [h₉]; exact ha)).trans h₈⟩, fun hv => absurd hg.1 hv⟩
  · have hw := writeSlot_bad (s := { s with sl := { s.sl with qs := qs } }) (o := o) (cid := cid) (k := k) (nor := nor) (spd := spd)
      (fun s img => s.exchanged o cid k img) (not_good (mt good_sl.1 hg))
    obtain ⟨h₁, h₃, h₄, -, h₅, h₆, -, h₇⟩ := commit_bad (commitEnd_spec { s with sl := { s.sl with qs := qs } } o cid 1 (1, 0x07))
    exact ⟨_, hx.trans (congrArg Host.Outcome.next hw), h₁, h₃, fun hv hs => absurd ⟨hv, hs⟩ hg, fun _ => ⟨h₄, h₅, h₆, h₇⟩⟩

end

/-- A Commit that names the running slot to try it has no effect (17 R389). -/
theorem ran_commitRunning {o : Org} {fs : Nat} (cid : Nat) (spd : Bool) (h : Manages s o) (hc : s.commitSlot fs = some (s.rd F.IMG_STS_SLOT)) :
    Ran (.firmwareCommitCa010 o cid fs spd) s (fun t => Completes { s with img := { s.img with upd := [] } } t o cid 0 []) := by
  obtain ⟨qs, hq⟩ := s.admBegin_eq o
  have hx : execFirmwareCommitCa010 o cid fs spd s = .next ((s.admBegin o).commitNo o cid stOk) := by
    unfold execFirmwareCommitCa010 fwCommit
    rw [admin_served h.1, hq, h.2.1, show ({ s with sl := { s.sl with qs := qs } } : State).commitSlot fs = some (s.rd F.IMG_STS_SLOT) from hc]
    exact congrArg Host.Outcome.next ((if_neg Bool.false_ne_true).trans (if_pos rfl))
  have hi : ({ s.admBegin o with img := { (s.admBegin o).img with upd := [] } } : State) =
      ({ s with img := { s.img with upd := [] } } : State).admBegin o := by
    refine Eq.trans ?_ (admBegin_img (s := s) _ o).symm
    rw [hq]
  refine ⟨_, hx, ?_⟩
  rw [commitNo, hi]
  exact adm_completes (s := { s with img := { s.img with upd := [] } }) h.1.2.1 cid 0 []

/-- A download of a served manager is kept at its offset (17 R388). -/
theorem ran_download {o : Org} (cid off len : Nat) (data : List Nat) (h : Manages s o) (he : s.pup.exch = none) (hl : off * 4 + len * 4 ≤ 15728640)
    (hd : ∀ e ∈ s.img.upd, ¬ (e.1 < off * 4 + len * 4 ∧ off * 4 < e.1 + e.2.length)) :
    Ran (.firmwareDownload o cid off len data) s (fun t => t.rd F.IMG_UPD_STS_STATE = 1 ∧ t.img = { s.img with
      upd := s.img.upd ++ [(off * 4, (List.range (len * 4)).map (fun i => cut 8 (data.getD i 0)))] } ∧ Keeps s t [F.IMG_UPD_STS_STATE] ∧
      RepliedWith t o cid stOk 0 []) := by
  obtain ⟨qs, hq⟩ := s.admBegin_eq o
  let m : State := ({ s with sl := { s.sl with qs := qs }, img := { s.img with
      upd := s.img.upd ++ [(off * 4, (List.range (len * 4)).map (fun i => cut 8 (data.getD i 0)))] } } : State).wr F.IMG_UPD_STS_STATE 1
  have hfree : (s.img.upd.any fun e => e.1 < off * 4 + len * 4 && off * 4 < e.1 + e.2.length) = false :=
    List.any_eq_false.2 fun e hm => by
      rw [Bool.and_eq_true, decide_eq_true_iff, decide_eq_true_iff]
      exact hd e hm
  have hx : execFirmwareDownload o cid off len data s = .next (m.adm o cid stOk) := by
    unfold execFirmwareDownload
    rw [admin_served h.1, hq, h.2.1]
    refine congrArg Host.Outcome.next ((if_neg Bool.false_ne_true).trans ((if_neg ?_).trans ((if_neg (Nat.not_lt.2 hl)).trans (if_neg ?_))))
    · rw [show ({ s with sl := { s.sl with qs := qs } } : State).pup.exch = none from he]
      exact Bool.false_ne_true
    · exact fun hc => Bool.noConfusion (hfree.symm.trans hc)
  have hm : m.rd F.IMG_UPD_STS_STATE = 1 := (rd_wr_same ..).trans (by decide)
  have hmi : m.img = { s.img with upd := s.img.upd ++ [(off * 4, (List.range (len * 4)).map (fun i => cut 8 (data.getD i 0)))] } := rfl
  have hmk : Keeps s m [F.IMG_UPD_STS_STATE] := Keeps.wr (List.mem_singleton_self F.IMG_UPD_STS_STATE)
    { s with sl := { s.sl with qs := qs }, img := { s.img with
      upd := s.img.upd ++ [(off * 4, (List.range (len * 4)).map (fun i => cut 8 (data.getD i 0)))] } } _ _ _ _
  generalize m = m at hx hm hmi hmk
  have hr := m.adm_ok_regs o cid 0 []
  have hrd (f : Fld) (i j p : Nat) : (m.adm o cid stOk).rd f i j p = m.rd f i j p := by rw [rd, hr, rd]
  refine ⟨_, hx, (hrd ..).trans hm, (m.adm_image o cid stOk 0 []).1.trans hmi, fun f i j p hf => (hrd ..).trans (hmk f i j p hf), adm_replies ..⟩

end State

/-- Settles O32: every action of a Commit ends in the write of a slot, the write of the directory or a refusal, each described once; a completion
leaves the image alone, so what was written is what stands. -/
theorem firmwareComplete : Obligations.FirmwareComplete := by
  unfold Obligations.FirmwareComplete
  refine ⟨fun o cid off len data s => State.ran_download cid off len data, fun o cid fs k nor spd s h hc hk h2 hp hn => ⟨?_, ?_, ?_, ?_⟩,
    fun o cid fs spd s => State.ran_commitRunning cid spd⟩
  · exact State.ran_commit000 cid spd h hc hk h2 hp hn
  · exact State.ran_commit001 cid spd h hc hk h2 hp hn
  · exact State.ran_commit010 cid spd h hc hk hp
  · exact State.ran_commit011 cid spd h hc hk h2 hp hn

end Sys2Proof.Machine
end


section
/-! O9: Identify and the log pages (04 R86; 16 R366; 19 R430; 20 R443–R445). -/

namespace Sys2Proof.Machine

/-! ### Little-endian bytes -/

@[simp] theorem toLe_length (n v : Nat) : (toLe n v).length = n := by
  induction n generalizing v with
  | zero => rfl
  | succ n ih => rw [toLe, List.length_cons, ih]

theorem leVal_toLe (n v : Nat) : leVal (toLe n v) = v % 256 ^ n := by
  induction n generalizing v with
  | zero => rw [toLe, leVal, Nat.pow_zero, Nat.mod_one]
  | succ n ih =>
    have hc : cut 8 (v % 256) = v % 256 := Nat.mod_mod v 256
    rw [toLe, leVal, ih, hc, Nat.pow_succ', Nat.mod_mul]

/-- The head of the event queue's page gives the number of entries at byte 4, and the entries stand from byte 64. -/
theorem evPage_shows (n k l : Nat) (es : List Nat) :
    leAt (toLe 4 n ++ toLe 4 k ++ toLe 4 l ++ List.replicate 52 0 ++ es) 4 4 = k % 2 ^ 32 ∧
    (toLe 4 n ++ toLe 4 k ++ toLe 4 l ++ List.replicate 52 0 ++ es).drop 64 = es := by
  constructor
  · have hd : ((toLe 4 n ++ toLe 4 k ++ toLe 4 l ++ List.replicate 52 0 ++ es).drop 4).take 4 = toLe 4 k := by
      simp only [List.append_assoc]
      rw [List.drop_append_of_le_length (by simp), List.drop_of_length_le (by simp), List.nil_append, List.take_append_of_le_length (by simp),
        List.take_of_length_le (by simp)]
    rw [leAt, hd, leVal_toLe]
    rfl
  · refine List.drop_left' ?_
    simp

namespace State
variable {s t : State}

/-! ### Commands that answer data and change nothing -/

theorem SameQ.slice {x y : Queue} (h : SameQ x y) : y.slice = x.slice := by rw [h]

/-- Whether a context is a function's admin queue does not lie in what is outstanding and fetched. -/
theorem SameQ.admFn {x y : Queue} (h : SameQ x y) (n : Nat) :
    (!y.fabric && decide (y.func = n) && decide (y.qid = 0)) = (!x.fabric && decide (x.func = n) && decide (x.qid = 0)) := by
  unfold SameQ at h
  generalize y.outst = a at h
  generalize y.adm = b at h
  subst h
  rfl

theorem find_slice {g : Nat × Queue → Queue} (hs : ∀ e, SameQ e.2 (g e)) (i : Nat) (l : Tab Queue) :
    (Tab.find i (l.map (fun e => (e.1, g e)))).map (·.slice) = (Tab.find i l).map (·.slice) := by
  induction l with
  | nil => rfl
  | cons e l ih =>
    obtain ⟨k, q⟩ := e
    simp only [List.map_cons, Tab.find]
    split
    · exact congrArg some (hs (k, q)).slice
    · exact ih

theorem sliceOf_fn (s : State) (n : Nat) : s.sliceOf (.fn (n + 1)) =
    ((s.sl.qs.find? (fun e => !e.2.fabric && e.2.func = n + 1 && e.2.qid = 0)).map (·.2.slice)).or ((s.lowBind (n + 1)).map (·.slice)) := by
  simp only [State.sliceOf]
  split
  · next h => rw [h]; rfl
  · next h => rw [h]; rfl

/-- The slice of a sender does not lie in what is outstanding and fetched. -/
theorem SameQs.sliceOf (h : SameQs s t) (ha : t.assocs = s.assocs) (hb : ∀ n, t.lowBind n = s.lowBind n) (o : Org) : t.sliceOf o = s.sliceOf o := by
  obtain ⟨g, hg, hs⟩ := h
  have hq (n : Nat) : (t.sl.qs.find? (fun e => !e.2.fabric && e.2.func = n && e.2.qid = 0)).map (·.2.slice) =
      (s.sl.qs.find? (fun e => !e.2.fabric && e.2.func = n && e.2.qid = 0)).map (·.2.slice) := by
    have hp : (fun e : Nat × Queue => !e.2.fabric && e.2.func = n && e.2.qid = 0) ∘ (fun e : Nat × Queue => (e.1, g e)) =
        fun e => !e.2.fabric && e.2.func = n && e.2.qid = 0 := funext fun e => (hs e).admFn n
    rw [hg, List.find?_map, Option.map_map, hp]
    congr 1
    exact funext fun e => (hs e).slice
  have hf (i : Nat) : (Tab.find i t.sl.qs).map (·.slice) = (Tab.find i s.sl.qs).map (·.slice) := by
    rw [hg]
    exact find_slice hs i _
  match o with
  | .mi => rfl
  | .fn 0 => rfl
  | .fn (n + 1) =>
    rw [sliceOf_fn, sliceOf_fn, hq, hb]
  | .fab a => exact congrArg (fun x => (Tab.find a x).map (·.slice)) ha
  | .io q => exact hf q

/-- A sender that is served is answered with a page of the state, and nothing changes. -/
theorem answers_page {o : Org} (cid : Nat) (f : State → List Nat) (h : Served s o)
    (hf : ∀ b : State, SameQs s b → (∃ qs, b = { s with sl := { s.sl with qs := qs } }) → f b = f s) :
    Completes s (s.admin o cid (fun s => s.adm o cid stOk 0 (f s))) o cid 0 (f s) := by
  rw [admin_served h, hf _ (s.sameQs_admBegin o) (s.admBegin_eq o)]
  exact adm_completes h.2.1 cid 0 _

/-- The same of a page that reads nothing of the queues. -/
theorem answers_plain {o : Org} (cid : Nat) (f : State → List Nat) (h : Served s o) (hf : ∀ qs, f { s with sl := { s.sl with qs := qs } } = f s) :
    Completes s (s.admin o cid (fun s => s.adm o cid stOk 0 (f s))) o cid 0 (f s) :=
  answers_page cid f h (by rintro b - ⟨qs, rfl⟩; exact hf qs)

theorem named_begun {o : Org} {b : State} (hs : SameQs s b) (hb : ∃ qs, b = { s with sl := { s.sl with qs := qs } }) (nsid : Nat) :
    b.named o nsid = s.named o nsid := by
  have hsl : b.sliceOf o = s.sliceOf o := by
    obtain ⟨qs, rfl⟩ := hb
    exact hs.sliceOf rfl (fun _ => rfl) o
  obtain ⟨qs, rfl⟩ := hb
  unfold named
  rw [hsl]

theorem ran_identifyNs {o : Org} (cid nsid : Nat) {e : Nat × Ns} (h : Served s o) (he : (s.named o nsid).head? = some e) :
    Ran (.identify o cid 0 nsid) s (fun t => Completes s t o cid 0 (s.identNs o e.2)) := by
  refine ⟨_, rfl, ?_⟩
  obtain ⟨qs, hq⟩ := s.admBegin_eq o
  rw [admin_served h]
  simp only [named_begun (s.sameQs_admBegin o) (s.admBegin_eq o), he]
  rw [show (s.admBegin o).identNs o e.2 = s.identNs o e.2 by rw [hq]; rfl]
  exact adm_completes h.2.1 cid 0 _

theorem ran_identifyList {o : Org} (cid nsid : Nat) (h : Served s o) (hm : isMgr o = true) :
    Ran (.identify o cid 2 nsid) s (fun t => Completes s t o cid 0 ((s.zn.ns.map (·.1)).filter (fun i => nsid < i))) := by
  have hl : (s.zn.ns.filter (fun e => nsid < e.1 && (isMgr o || some e.2.slice = s.sliceOf o))).map (·.1) =
      (s.zn.ns.map (·.1)).filter (fun i => nsid < i) := by
    rw [List.filter_map]
    congr 2
    funext e
    rw [hm]
    simp
  have hf (b : State) (_ : SameQs s b) (hb : ∃ qs, b = { s with sl := { s.sl with qs := qs } }) :
      (b.zn.ns.filter (fun e => nsid < e.1 && (isMgr o || some e.2.slice = b.sliceOf o))).map (·.1) =
      (s.zn.ns.filter (fun e => nsid < e.1 && (isMgr o || some e.2.slice = s.sliceOf o))).map (·.1) := by
    obtain ⟨qs, rfl⟩ := hb
    rw [hm]
    rfl
  have hc := answers_page cid (fun s => (s.zn.ns.filter (fun e => nsid < e.1 && (isMgr o || some e.2.slice = s.sliceOf o))).map (·.1)) h hf
  rw [hl] at hc
  exact ⟨_, rfl, hc⟩

/-! ### The recorder's pages (19 R430) -/

theorem recLog_mgr {o : Org} (cid off len : Nat) (page : State → List Nat) {p : List Nat} (h : Served s o) (hm : isMgr o = true)
    (hf : ∀ qs, page { s with sl := { s.sl with qs := qs } } = page s) (hp : page s = p) :
    Completes s (s.recLog o cid off len page) o cid 0 (pagePart p off len) := by
  subst hp
  have := answers_plain cid (fun s => pagePart (page s) off len) h (fun qs => by rw [hf])
  unfold recLog
  simpa only [hm, if_true] using this

theorem recLog_other {o : Org} (cid off len : Nat) (page : State → List Nat) (h : Served s o) (hm : isMgr o = false) :
    Refuses s (s.recLog o cid off len page) o cid stLogPage 0 := by
  unfold recLog
  rw [admin_served h, hm]
  exact adm_refuses h.2.1 cid stLogPage 0

/-! ### The views of the event queue (20 R442) -/

/-- A completion that is given leaves what the RAS unit holds. -/
theorem admPost_ras (s : State) (o : Org) (c : Cpl) (t : Stamp) : (s.admPost o c t).ras = s.ras := by
  cases o with
  | fn n =>
    simp only [admPost]
    split
    · rw [s.postAdm_eq n c]
    · unfold hold
      split <;> rfl
  | fab a =>
    simp only [admPost]
    split
    · next i q _ => rw [s.sendQp_eq q.qp (.cpl c)]
    · rfl
  | mi => rfl
  | io q => rfl

/-- A completion without error leaves what the RAS unit holds. -/
theorem adm_ok_ras (s : State) (o : Org) (cid dw0 : Nat) (data : List Nat) : (s.adm o cid stOk dw0 data).ras = s.ras := by
  have hl : s.logErr o cid stOk.1 stOk.2 none = s := rfl
  obtain ⟨qs, hq⟩ := s.admLess_eq o
  rw [adm, hl, hq]
  exact admPost_ras ..

theorem viewOf_ctl (s : State) (c : Ctl) : (s.viewOf c).ctl = c := by
  unfold viewOf
  cases h : s.ras.views.find? (fun v => v.ctl = c) with
  | none => rfl
  | some v =>
    have := List.find?_some h
    exact of_decide_eq_true this

theorem viewOf_putView_same (v : EvView) : (s.putView v).viewOf v.ctl = v := by
  have hn : (s.ras.views.filter (fun w => w.ctl != v.ctl)).find? (fun w => w.ctl = v.ctl) = none :=
    List.find?_eq_none.2 fun w hw => by
      have := (List.mem_filter.1 hw).2
      simpa using this
  unfold viewOf putView
  rw [List.find?_append, hn]
  simp

theorem viewOf_putView_ne {v : EvView} {c : Ctl} (h : c ≠ v.ctl) : (s.putView v).viewOf c = s.viewOf c := by
  have hn : (s.ras.views.filter (fun w => w.ctl != v.ctl)).find? (fun w => w.ctl = c) = s.ras.views.find? (fun w => w.ctl = c) := by
    rw [List.find?_filter]
    congr 1
    funext w
    by_cases hw : w.ctl = c
    · simp [hw, h]
    · simp [hw]
  unfold viewOf putView
  rw [List.find?_append, hn]
  simp [Ne.symm h]

/-- From `s` to `t` views of the event queue may have changed; what the manager's masks and has lost is as before. -/
structure Viewed (s t : State) : Prop where
  eq : t = { s with ras := { s.ras with views := t.ras.views } }
  masked : (t.viewOf .mgr).masked = (s.viewOf .mgr).masked
  lost : (t.viewOf .mgr).lost = (s.viewOf .mgr).lost

namespace Viewed

theorem refl (s : State) : Viewed s s := ⟨rfl, rfl, rfl⟩

theorem trans {u : State} (h₁ : Viewed s t) (h₂ : Viewed t u) : Viewed s u := by
  refine ⟨?_, h₂.masked.trans h₁.masked, h₂.lost.trans h₁.lost⟩
  rw [h₂.eq, h₁.eq]

theorem foldl {α : Type} {f : State → α → State} {l : List α} (h : ∀ s, ∀ a ∈ l, Viewed s (f s a)) (s : State) : Viewed s (l.foldl f s) := by
  induction l generalizing s with
  | nil => exact refl s
  | cons a l ih => exact (h s a List.mem_cons_self).trans (ih (fun s b hb => h s b (List.mem_cons_of_mem _ hb)) _)

theorem loseFor {c : Ctl} (h : c ≠ .mgr) : Viewed s (s.loseFor c) := by
  have hv : (s.loseFor c).viewOf .mgr = s.viewOf .mgr :=
    viewOf_putView_ne (v := { s.viewOf c with lost := (s.viewOf c).lost + 1 }) fun e => h ((s.viewOf_ctl c).symm.trans e.symm)
  exact ⟨rfl, by rw [hv], by rw [hv]⟩

end Viewed

/-- The controllers of a slice are other controllers than the manager's. -/
theorem ctlsOf_ne_mgr {n : Nat} {c : Ctl} (h : c ∈ s.ctlsOf n) : c ≠ .mgr := by
  unfold ctlsOf at h
  rcases List.mem_append.1 h with h | h
  · obtain ⟨e, -, rfl⟩ := List.mem_map.1 h
    exact Ctl.noConfusion
  · obtain ⟨e, -, rfl⟩ := List.mem_map.1 h
    exact Ctl.noConfusion

/-- What the manager read leaves the queue; its own view loses nothing by it. -/
theorem evTake_spec (s : State) (es : List EvEnt) :
    s.evTake es = { s with ras := { s.ras with evq := s.ras.evq.filter (fun e => !(es.map EvEnt.seq).contains e.seq), views := (s.evTake es).ras.views } } ∧
    ((s.evTake es).viewOf .mgr).masked = (s.viewOf .mgr).masked ∧ ((s.evTake es).viewOf .mgr).lost = (s.viewOf .mgr).lost := by
  have hv : Viewed s (es.foldl (fun (s : State) e =>
      if sliceEvent e.code && e.slice != 0xFFFF then
        (s.ctlsOf e.slice).foldl (fun (s : State) c => if (s.viewOf c).removed.contains e.seq then s else s.loseFor c) s
      else s) s) := by
    refine Viewed.foldl (fun s e _ => ?_) s
    split
    · refine Viewed.foldl (fun u c hc => ?_) s
      split
      · exact .refl u
      · exact .loseFor (ctlsOf_ne_mgr hc)
    · exact .refl s
  unfold evTake
  dsimp only
  generalize es.foldl _ s = m at hv
  obtain ⟨he, hm, hl⟩ := hv
  have hg : ((m.ras.views.map (fun (v : EvView) => { v with removed := v.removed.filter (fun q => !(es.map EvEnt.seq).contains q) })).find?
      (fun v => v.ctl = .mgr)) = (m.ras.views.find? (fun v => v.ctl = .mgr)).map
      (fun (v : EvView) => { v with removed := v.removed.filter (fun q => !(es.map EvEnt.seq).contains q) }) := List.find?_map
  refine ⟨by rw [he], ?_, ?_⟩
  · refine Eq.trans ?_ hm
    unfold viewOf
    dsimp only
    rw [hg]
    cases m.ras.views.find? (fun v => v.ctl = .mgr) <;> rfl
  · refine Eq.trans ?_ hl
    unfold viewOf
    dsimp only
    rw [hg]
    cases m.ras.views.find? (fun v => v.ctl = .mgr) <;> rfl

/-- Entries wholly within the bytes that a whole read names are all of them. -/
theorem whole_read {l : List EvEnt} {len : Nat} (h : 64 + 32 * l.length ≤ len) :
    (((l.mapIdx (fun i e => (i, e))).filter (fun p => 0 ≤ 64 + 32 * p.1 && 64 + 32 * p.1 + 32 ≤ 0 + len)).map (·.2)) = l := by
  have hf : (l.mapIdx (fun i e => (i, e))).filter (fun p => decide (0 ≤ 64 + 32 * p.1) && decide (64 + 32 * p.1 + 32 ≤ 0 + len)) =
      l.mapIdx (fun i e => (i, e)) := List.filter_eq_self.2 fun p hp => by
    obtain ⟨i, hi, rfl⟩ := List.mem_mapIdx.1 hp
    rw [Bool.and_eq_true, decide_eq_true_iff, decide_eq_true_iff]
    dsimp only
    omega
  rw [hf]
  exact List.ext_getElem (by simp) fun i _ _ => by simp

/-- A page of the event queue as a controller sees it. -/
def evPage (s : State) (c : Ctl) : List Nat :=
  toLe 4 (64 + 32 * (s.evShown c).length) ++ toLe 4 (s.evShown c).length ++ toLe 4 (s.viewOf c).lost ++ List.replicate 52 0 ++ (s.evShown c).flatMap EvEnt.bytes

theorem ran_eventQueueKept {o : Org} (cid off len : Nat) (h : Served s o) : Ran (.getLogPageEventQueue o cid off len true) s (fun t =>
    ∃ page, Completes s t o cid 0 (pagePart page off len) ∧ leAt page 4 4 = (s.evShown (ctlOf o)).length % 2 ^ 32 ∧
      page.drop 64 = (s.evShown (ctlOf o)).flatMap EvEnt.bytes) := by
  have hc := answers_plain cid (fun s => pagePart (s.evPage (ctlOf o)) off len) h (fun qs => rfl)
  obtain ⟨h₁, h₂⟩ := evPage_shows (64 + 32 * (s.evShown (ctlOf o)).length) (s.evShown (ctlOf o)).length (s.viewOf (ctlOf o)).lost
    ((s.evShown (ctlOf o)).flatMap EvEnt.bytes)
  exact ⟨_, rfl, s.evPage (ctlOf o), hc, h₁, h₂⟩

/-- The manager's view after its own read of the whole queue (20 R442). -/
def readView (s : State) (o : Org) : EvView := { s.viewOf .mgr with masked := if o = .mi then (s.viewOf .mgr).masked else [], lost := 0 }

theorem evTake_all (l : List EvEnt) : l.filter (fun e => !(l.map EvEnt.seq).contains e.seq) = [] := by
  refine List.filter_eq_nil_iff.2 fun e he => ?_
  have : (l.map EvEnt.seq).contains e.seq = true := List.contains_iff_mem.2 (List.mem_map_of_mem he)
  rw [this]
  exact Bool.false_ne_true

theorem ran_eventQueueTaken {o : Org} (cid len : Nat) (h : Served s o) (hm : isMgr o = true) (hl : 64 + 32 * s.ras.evq.length ≤ len) :
    Ran (.getLogPageEventQueue o cid 0 len false) s (fun t => (t.viewOf .mgr).masked = (if o = .mi then (s.viewOf .mgr).masked else []) ∧
      (t.viewOf .mgr).lost = 0 ∧ t.ras = { s.ras with evq := [], views := t.ras.views } ∧ t.zn = s.zn ∧ t.regs = s.regs ∧
      ∃ data, Answers s t o cid stOk 0 data) := by
  have hc : ctlOf o = .mgr := by
    match o, hm with
    | .mi, _ => rfl
    | .fn 0, _ => rfl
  obtain ⟨qs, hq⟩ := s.admBegin_eq o
  let b : State := { s with sl := { s.sl with qs := qs } }
  have hx : execGetLogPageEventQueue o cid 0 len false s =
      .next (((b.putView (s.readView o)).evTake s.ras.evq).adm o cid stOk 0 (pagePart (b.evPage .mgr) 0 len)) := by
    unfold execGetLogPageEventQueue
    rw [admin_served h, hq, hc]
    exact congrArg (fun l => Host.Outcome.next (((b.putView (s.readView o)).evTake l).adm o cid stOk 0 (pagePart (b.evPage .mgr) 0 len)))
      (whole_read hl)
  have hb : b.ras = s.ras ∧ b.zn = s.zn ∧ b.regs = s.regs ∧ b.outs = s.outs := ⟨rfl, rfl, rfl, rfl⟩
  generalize pagePart (b.evPage .mgr) 0 len = data at hx
  generalize b = b at hx hb
  obtain ⟨b₁, b₂, b₃, b₄⟩ := hb
  have hctl : (s.readView o).ctl = .mgr := s.viewOf_ctl .mgr
  have hv : (b.putView (s.readView o)).viewOf .mgr = s.readView o := by
    rw [← hctl]
    exact viewOf_putView_same _
  obtain ⟨he, hmask, hlost⟩ := evTake_spec (b.putView (s.readView o)) s.ras.evq
  have hnil : (b.putView (s.readView o)).ras.evq.filter (fun e => !(s.ras.evq.map EvEnt.seq).contains e.seq) = [] := by
    rw [show (b.putView (s.readView o)).ras.evq = b.ras.evq from rfl, b₁]
    exact evTake_all _
  rw [hv] at hmask hlost
  have hm' : ∀ m : State, m = (b.putView (s.readView o)).evTake s.ras.evq → m.ras = { s.ras with evq := [], views := m.ras.views } ∧ m.zn = s.zn ∧
      m.regs = s.regs ∧ m.outs = s.outs := by
    rintro m rfl
    refine ⟨?_, ?_, ?_, ?_⟩
    · rw [he]
      dsimp only
      rw [hnil, show (b.putView (s.readView o)).ras = { b.ras with views := (b.putView (s.readView o)).ras.views } from rfl, b₁]
    · rw [he]
      exact b₂
    · rw [he]
      exact b₃
    · rw [he]
      exact b₄
  generalize (b.putView (s.readView o)).evTake s.ras.evq = m at hx hmask hlost hm'
  obtain ⟨m₁, m₂, m₃, m₄⟩ := hm' m rfl
  have ha := m.adm_answers o cid stOk 0 data
  have hregs := m.adm_ok_regs o cid 0 data
  have hzn := (m.adm_image o cid stOk 0 data).2.2
  have hras := m.adm_ok_ras o cid 0 data
  generalize m.adm o cid stOk 0 data = t at hx ha hregs hzn hras
  have hview : t.viewOf .mgr = m.viewOf .mgr := by rw [viewOf, hras, viewOf]
  refine ⟨t, hx, ?_, ?_, by rw [hras]; exact m₁, hzn.trans m₂, hregs.trans m₃, data, ?_⟩
  · rw [hview, hmask]
    rfl
  · rw [hview, hlost]
    rfl
  · unfold Answers at ha ⊢
    rw [m₄] at ha
    exact ha

/-! ### The Changed Zone List (20 R444) -/

/-- The page of the Changed Zone List, before its fill. -/
def czlPage (zs : List Nat) : List Nat := if zs.length > 511 then toLe 8 0xFFFF else toLe 8 zs.length ++ zs.flatMap (toLe 8)

theorem czlPage_length (zs : List Nat) : (czlPage zs).length ≤ 4096 := by
  unfold czlPage
  split
  · rw [toLe_length]
    decide
  · next h =>
    have : (zs.flatMap (toLe 8)).length = 8 * zs.length := by
      rw [List.length_flatMap]
      simp [Nat.mul_comm]
    rw [List.length_append, toLe_length, this]
    omega

theorem ran_changedZones {o : Org} (cid nsid : Nat) (h : Served s o) : Ran (.getLogPageChangedZoneList o cid nsid) s (fun t =>
    (∀ e, e ∈ t.ras.czl ↔ e ∈ s.ras.czl ∧ ¬ (e.1 = ctlOf o ∧ e.2.1 = nsid)) ∧
    ∃ data, data.length = 4096 ∧ Completes { s with ras := { s.ras with czl := t.ras.czl } } t o cid 0 data) := by
  let left : List (Ctl × Nat × Nat) := s.ras.czl.filter (fun (e : Ctl × Nat × Nat) => !(e.1 = ctlOf o && e.2.1 = nsid))
  have hleft (e : Ctl × Nat × Nat) : e ∈ left ↔ e ∈ s.ras.czl ∧ ¬ (e.1 = ctlOf o ∧ e.2.1 = nsid) := by
    rw [List.mem_filter, Bool.not_eq_true', Bool.and_eq_false_iff, decide_eq_false_iff_not, decide_eq_false_iff_not, Classical.not_and_iff_not_or_not]
  generalize hlf : left = left at hleft
  obtain ⟨qs, hq⟩ := s.admBegin_eq o
  let page := czlPage ((s.ras.czl.filter (fun e => e.1 = ctlOf o && e.2.1 = nsid)).map (·.2.2))
  have hlen : (page ++ List.replicate (4096 - page.length) 0).length = 4096 := by
    have := czlPage_length ((s.ras.czl.filter (fun e => e.1 = ctlOf o && e.2.1 = nsid)).map (·.2.2))
    rw [List.length_append, List.length_replicate, Nat.add_sub_cancel' this]
  generalize hdata : page ++ List.replicate (4096 - page.length) 0 = data at hlen
  have hbegin : ({ s with ras := { s.ras with czl := left } } : State).admBegin o =
      { s with sl := { s.sl with qs := qs }, ras := { s.ras with czl := left } } := (admBegin_ras (s := s) _ o).trans (by rw [hq])
  have hx : execGetLogPageChangedZoneList o cid nsid s =
      .next ((({ s with ras := { s.ras with czl := left } } : State).admBegin o).adm o cid stOk 0 data) := by
    unfold execGetLogPageChangedZoneList
    rw [hbegin, admin_served h, hq, ← hdata, ← hlf]
    rfl
  have hcp := adm_completes (s := { s with ras := { s.ras with czl := left } }) (o := o) h.2.1 cid 0 data
  have hras := (({ s with ras := { s.ras with czl := left } } : State).admBegin o).adm_ok_ras o cid 0 data
  have hczl : ((({ s with ras := { s.ras with czl := left } } : State).admBegin o).adm o cid stOk 0 data).ras.czl = left := by
    rw [hras, admBegin_ras]
  generalize (({ s with ras := { s.ras with czl := left } } : State).admBegin o).adm o cid stOk 0 data = t at hx hcp hczl
  refine ⟨t, hx, fun e => ?_, data, hlen, ?_⟩
  · rw [hczl]
    exact hleft e
  · rw [hczl]
    exact hcp

/-! ### The health and error pages (20 R444, R445) -/

theorem ran_smart {o : Org} (cid : Nat) (h : Served s o) : Ran (.getLogPageSmartHealth o cid) s (fun t => ∃ data, Completes s t o cid 0 data ∧
    data[0]? = some s.critNow ∧ data[2]? = some s.availSpare ∧ data[4]? = some (s.rd F.MED_WEAR_PCT_USED) ∧ data[5]? = some s.ras.unsafeCnt ∧
    data[6]? = some s.ras.integrity ∧ data[7]? = some (s.rd F.RAS_ERRLOG_COUNT)) :=
  ⟨_, rfl, _, answers_plain cid (fun s => [s.critNow, s.kelvin 0, s.availSpare, 10, s.rd F.MED_WEAR_PCT_USED, s.ras.unsafeCnt, s.ras.integrity,
    s.rd F.RAS_ERRLOG_COUNT] ++ (List.range 8).map (fun i => s.kelvin (i + 1))) h (fun _ => rfl), rfl, rfl, rfl, rfl, rfl, rfl⟩

end State

/-- Settles O9: a page is a function of the state that does not read the queues, and a completion without error changes nothing else; the two reads
that clear are described by the view they leave. -/
theorem identifyAndLogPagesComplete : Obligations.IdentifyAndLogPagesComplete := by
  unfold Obligations.IdentifyAndLogPagesComplete
  refine ⟨fun o cid nsid e s => State.ran_identifyNs cid nsid, fun o cid nsid s h => ?_, fun o cid nsid s => State.ran_identifyList cid nsid,
    fun o cid off len s => State.ran_eventQueueKept cid off len, fun o cid len s => State.ran_eventQueueTaken cid len,
    fun o cid nsid s => State.ran_changedZones cid nsid, fun o cid off len s h => ⟨?_, ?_, fun hm => ?_, fun hm => ?_⟩,
    fun o cid lsp off len c s h hm hl hc => ?_, fun o cid lsp off len x xs s h hm hl hc => ?_, fun o cid s => State.ran_smart cid, fun o cid n s h => ?_⟩
  · exact ⟨_, rfl, State.answers_plain cid (fun s => s.identCtl o) h fun _ => rfl⟩
  · exact ⟨_, rfl, State.answers_plain cid (fun s => pagePart (s.sweepPage 0) off len) h fun _ => rfl⟩
  · exact ⟨_, rfl, State.answers_plain cid (fun s => pagePart (s.sweepPage 1) off len) h fun _ => rfl⟩
  · exact ⟨_, rfl, State.recLog_mgr cid off len _ h hm (fun _ => rfl) rfl⟩
  · exact ⟨_, rfl, State.recLog_other cid off len _ h hm⟩
  · refine ⟨_, rfl, State.recLog_mgr cid off len _ h hm (fun _ => rfl) ?_⟩
    rw [show cut 4 lsp = lsp from Nat.mod_eq_of_lt hl, hc]
  · refine ⟨_, rfl, State.recLog_mgr cid off len _ h hm (fun _ => rfl) ?_⟩
    rw [show cut 4 lsp = lsp from Nat.mod_eq_of_lt hl, hc]
  · refine ⟨_, rfl, ?_⟩
    exact State.answers_plain cid _ h fun _ => rfl

end Sys2Proof.Machine
end


section
/-! O39: parity of the Puppeteer and the exchange of its firmware (16 R352–R354, R359–R361; 17 R391). -/

namespace Sys2Proof.Machine

/-- An element of a list that was mapped with its index. -/
theorem getD_mapIdx {α : Type} (l : List α) (f : Nat → α → α) (k : Nat) (d : α) : (l.mapIdx f).getD k d = if k < l.length then f k (l.getD k d) else d := by
  rw [List.getD_eq_getElem?_getD, List.getElem?_mapIdx, List.getD_eq_getElem?_getD]
  split
  · next h => rw [List.getElem?_eq_getElem h]; rfl
  · next h => rw [List.getElem?_eq_none (Nat.not_lt.1 h)]; rfl

namespace State
variable {s t : State}

/-! ### The parity log (16 R353) -/

/-- Changes of registers alone, and of some fields of them. -/
def Scope.regsOf (fs : List Fld) : Scope where
  merge s t := { s with regs := t.regs }
  fields := fs

/-- Logging a parity error changes the log's registers alone. -/
theorem parLog_only (s : State) (mem addr : Nat) :
    Only (Scope.regsOf [F.PUP_PAR_LOG_VALID, F.PUP_PAR_LOG_MEM, F.PUP_PAR_LOG_ADDR]).bound s (s.parLog mem addr) := by
  unfold parLog
  split
  · exact .refl s
  · exact .after (.wr (by decide) ..) (.after (.wr (by decide) ..) (.wr (by decide) ..))

/-- While none is logged the error is. -/
theorem parLog_logs {mem : Nat} (addr : Nat) (hm : mem < 8) (h : s.rd F.PUP_PAR_LOG_VALID ≠ 1) : (s.parLog mem addr).rd F.PUP_PAR_LOG_VALID = 1 ∧
    (s.parLog mem addr).rd F.PUP_PAR_LOG_MEM = mem ∧ (s.parLog mem addr).rd F.PUP_PAR_LOG_ADDR = cut 21 addr := by
  unfold parLog
  rw [if_neg h]
  simp (disch := decide) only [rd_wr_id, rd_wr_same]
  exact ⟨rfl, Nat.mod_eq_of_lt hm, rfl⟩

/-- While one is logged a later one is not. -/
theorem parLog_kept (mem addr : Nat) (h : s.rd F.PUP_PAR_LOG_VALID = 1) : s.parLog mem addr = s := if_pos h

/-- An error that is counted and logged (16 R353). -/
theorem parCount {F' : Fld} {mem : Nat} (addr : Nat) (hF : ∀ g ∈ [F.PUP_PAR_LOG_VALID, F.PUP_PAR_LOG_MEM, F.PUP_PAR_LOG_ADDR], F'.id ≠ g.id) (hm : mem < 8) :
    ((s.inc F').parLog mem addr).rd F' = sat F'.w (s.rd F' + 1) ∧
    (s.rd F.PUP_PAR_LOG_VALID ≠ 1 → ((s.inc F').parLog mem addr).rd F.PUP_PAR_LOG_VALID = 1 ∧ ((s.inc F').parLog mem addr).rd F.PUP_PAR_LOG_MEM = mem ∧
      ((s.inc F').parLog mem addr).rd F.PUP_PAR_LOG_ADDR = cut 21 addr) ∧
    (s.rd F.PUP_PAR_LOG_VALID = 1 → (s.inc F').parLog mem addr = s.inc F') ∧
    (s.inc F').parLog mem addr = { s with regs := ((s.inc F').parLog mem addr).regs } ∧
    Keeps s ((s.inc F').parLog mem addr) [F', F.PUP_PAR_LOG_VALID, F.PUP_PAR_LOG_MEM, F.PUP_PAR_LOG_ADDR] := by
  have hv : (s.inc F').rd F.PUP_PAR_LOG_VALID = s.rd F.PUP_PAR_LOG_VALID :=
    rd_inc_id _ _ _ _ _ _ _ _ _ (hF F.PUP_PAR_LOG_VALID (by decide)).symm
  have ho := parLog_only (s.inc F') mem addr
  refine ⟨(ho.regs F' 0 0 0 hF).trans ((rd_inc_same ..).trans (cut_sat _ _)), fun h => parLog_logs addr hm (by rw [hv]; exact h),
    fun h => parLog_kept mem addr (hv.trans h), ?_, ?_⟩
  · rw [ho.frame]
    rfl
  · exact (Keeps.mono (Keeps.wr (List.mem_singleton_self F') s _ _ _ _) (by simp)).trans (Keeps.mono ho.rel.2 fun f hf => List.mem_cons_of_mem _ hf)

theorem ran_dtcmParity (addr : Nat) (s : State) :
    Ran (.dtcmParityError addr false) s (fun t => t.rd F.PUP_PAR_CNT_DTCM = sat 8 (s.rd F.PUP_PAR_CNT_DTCM + 1) ∧
      (s.rd F.PUP_PAR_LOG_VALID ≠ 1 → t.rd F.PUP_PAR_LOG_VALID = 1 ∧ t.rd F.PUP_PAR_LOG_MEM = 1 ∧ t.rd F.PUP_PAR_LOG_ADDR = cut 21 addr) ∧
      (s.rd F.PUP_PAR_LOG_VALID = 1 → Keeps s t [F.PUP_PAR_CNT_DTCM]) ∧
      Keeps s t [F.PUP_PAR_CNT_DTCM, F.PUP_PAR_LOG_VALID, F.PUP_PAR_LOG_MEM, F.PUP_PAR_LOG_ADDR] ∧ t = { s with regs := t.regs }) ∧
    Ran (.dtcmParityError addr true) s (fun t => (s.rd F.PUP_PAR_LOG_VALID ≠ 1 → t.rd F.PUP_PAR_LOG_VALID = 1 ∧ t.rd F.PUP_PAR_LOG_MEM = 4 ∧
      t.rd F.PUP_PAR_LOG_ADDR = cut 21 addr) ∧ Keeps s t [F.PUP_PAR_LOG_VALID, F.PUP_PAR_LOG_MEM, F.PUP_PAR_LOG_ADDR] ∧ t = { s with regs := t.regs }) := by
  obtain ⟨h₁, h₂, h₃, h₄, h₅⟩ := parCount (s := s) (F' := F.PUP_PAR_CNT_DTCM) (mem := 1) addr (by decide) (by decide)
  have ho := parLog_only s 4 addr
  refine ⟨⟨_, rfl, h₁, h₂, fun h => ?_, h₅, h₄⟩, ⟨_, rfl, parLog_logs addr (by decide), ho.rel.2, ho.frame⟩⟩
  show Keeps s ((s.inc F.PUP_PAR_CNT_DTCM).parLog 1 addr) [F.PUP_PAR_CNT_DTCM]
  rw [h₃ h]
  exact Keeps.wr (List.mem_singleton_self F.PUP_PAR_CNT_DTCM) s _ _ _ _

theorem ran_cacheParity {core : Nat} (line : Nat) (data : Bool) (s : State) (hc : core < 4) : Ran (.pupCacheParityError core data line) s (fun t =>
    t.pup.l1 = s.pup.l1.filter (fun e => !(e.1 / 2 = core / 2 && e.2.1 = data && e.2.2 = line)) ++
      [(core / 2 * 2, data, line), (core / 2 * 2 + 1, data, line)] ∧ t.rd F.PUP_PAR_CNT_DTCM = sat 8 (s.rd F.PUP_PAR_CNT_DTCM + 1) ∧
    Keeps s t [F.PUP_PAR_CNT_DTCM] ∧ t = { s with regs := t.regs, pup := { s.pup with l1 := t.pup.l1 } }) := by
  have hp : core / 2 % 2 = core / 2 := by omega
  let m : State := { s with pup := { s.pup with l1 := s.pup.l1.filter (fun e => !(e.1 / 2 = core / 2 && e.2.1 = data && e.2.2 = line)) ++
      [(core / 2 * 2, data, line), (core / 2 * 2 + 1, data, line)] } }
  have hx : execPupCacheParityError core data line s = .next (m.inc F.PUP_PAR_CNT_DTCM) := by
    unfold execPupCacheParityError
    rw [hp]
  exact ⟨_, hx, rfl, (rd_inc_same ..).trans (cut_sat _ _), Keeps.wr (List.mem_singleton_self F.PUP_PAR_CNT_DTCM) m _ _ _ _, rfl⟩

theorem ran_dmaHalt {c : Nat} (done addr : Nat) (s : State) (hc : c < 8) : Ran (.dmaHalt c done addr) s (fun t => t.rd F.PUP_DMA_STS_STATE c = 2 ∧
    t.rd F.PUP_DMA_STS_DONE c = cut F.PUP_DMA_STS_DONE.w done ∧ t.rd F.PUP_PAR_CNT_DMA = sat 8 (s.rd F.PUP_PAR_CNT_DMA + 1) ∧
    (∀ e, e ≠ c → t.rd F.PUP_DMA_STS_STATE e = s.rd F.PUP_DMA_STS_STATE e) ∧
    (s.rd F.PUP_PAR_LOG_VALID ≠ 1 → t.rd F.PUP_PAR_LOG_MEM = 3 ∧ t.rd F.PUP_PAR_LOG_ADDR = cut 21 addr) ∧ t = { s with regs := t.regs }) := by
  let m : State := (s.wr F.PUP_DMA_STS_STATE 2 c).wr F.PUP_DMA_STS_DONE done c
  have hx : execDmaHalt c done addr s = .next ((m.inc F.PUP_PAR_CNT_DMA).parLog 3 addr) := congrArg Host.Outcome.next (if_neg (Nat.not_le.2 hc))
  have hm₁ : m.rd F.PUP_DMA_STS_STATE c = 2 := (rd_wr_id _ _ _ _ _ _ _ _ _ _ (by decide)).trans ((rd_wr_same ..).trans (by decide))
  have hm₂ : m.rd F.PUP_DMA_STS_DONE c = cut F.PUP_DMA_STS_DONE.w done := rd_wr_same ..
  have hm₃ (e : Nat) (he : e ≠ c) : m.rd F.PUP_DMA_STS_STATE e = s.rd F.PUP_DMA_STS_STATE e :=
    (rd_wr_id _ _ _ _ _ _ _ _ _ _ (by decide)).trans (rd_wr_ne _ _ _ _ _ _ _ _ _ _ (by simp [he]))
  have hm₄ : m.rd F.PUP_PAR_CNT_DMA = s.rd F.PUP_PAR_CNT_DMA := (rd_wr_id _ _ _ _ _ _ _ _ _ _ (by decide)).trans (rd_wr_id _ _ _ _ _ _ _ _ _ _ (by decide))
  have hm₅ : m.rd F.PUP_PAR_LOG_VALID = s.rd F.PUP_PAR_LOG_VALID := (rd_wr_id _ _ _ _ _ _ _ _ _ _ (by decide)).trans (rd_wr_id _ _ _ _ _ _ _ _ _ _ (by decide))
  have hm₆ : m = { s with regs := m.regs } := rfl
  generalize m = m at hx hm₁ hm₂ hm₃ hm₄ hm₅ hm₆
  obtain ⟨h₁, h₂, -, h₄, h₅⟩ := parCount (s := m) (F' := F.PUP_PAR_CNT_DMA) (mem := 3) addr (by decide) (by decide)
  refine ⟨_, hx, (h₅ _ _ _ _ (by decide)).trans hm₁, (h₅ _ _ _ _ (by decide)).trans hm₂, by rw [← hm₄]; exact h₁,
    fun e he => (h₅ _ _ _ _ (by decide)).trans (hm₃ e he), fun h => (h₂ (by rw [hm₅]; exact h)).2, ?_⟩
  rw [h₄, hm₆]

/-! ### A fetch that finds a parity error (16 R352) -/

/-- The words of the banks after a fetch at byte `off` found an error. -/
def fetchFixed (s : State) (off : Nat) : State :=
  { s with pup := { s.pup with itcm := s.pup.itcm.mapIdx (fun i l => if i = s.rd F.PUP_STS_BANK then
      l.mapIdx (fun k x => if k / 4 * 4 = off / 4 * 4 then (s.img.mirror.getD (s.rd F.PUP_STS_BANK) []).getD k 0 else x) else l) } }

theorem itcmFetch_eq (off : Nat) (good pass : Bool) (h : s.stopped = false) : execItcmFetchParity off good pass s =
    .next (if good then ((s.fetchFixed off).inc F.PUP_PAR_CNT_ITCM).parLog 0 off
      else (((s.fetchFixed off).inc F.PUP_PAR_CNT_ITCM).parLog 0 off).failover 4 pass) :=
  congrArg Host.Outcome.next (if_neg (by rw [h]; exact Bool.false_ne_true))

theorem ran_fetchParity (off : Nat) (pass : Bool) (s : State) (h : s.stopped = false) (hb : s.rd F.PUP_STS_BANK < s.pup.itcm.length) :
    Ran (.itcmFetchParity off true pass) s (fun t =>
      (∀ k, k < (s.pup.itcm.getD (s.rd F.PUP_STS_BANK) []).length → (t.pup.itcm.getD (s.rd F.PUP_STS_BANK) []).getD k 0 =
        if k / 4 = off / 4 then (s.img.mirror.getD (s.rd F.PUP_STS_BANK) []).getD k 0 else (s.pup.itcm.getD (s.rd F.PUP_STS_BANK) []).getD k 0) ∧
      (∀ b, b ≠ s.rd F.PUP_STS_BANK → t.pup.itcm.getD b [] = s.pup.itcm.getD b []) ∧
      t.rd F.PUP_PAR_CNT_ITCM = sat 16 (s.rd F.PUP_PAR_CNT_ITCM + 1) ∧
      t = { s with regs := t.regs, pup := { s.pup with itcm := t.pup.itcm } }) := by
  obtain ⟨h₁, -, -, h₄, -⟩ := parCount (s := s.fetchFixed off) (F' := F.PUP_PAR_CNT_ITCM) (mem := 0) off (by decide) (by decide)
  have hx := itcmFetch_eq off true pass h
  rw [if_pos rfl] at hx
  have hi : (((s.fetchFixed off).inc F.PUP_PAR_CNT_ITCM).parLog 0 off).pup.itcm = (s.fetchFixed off).pup.itcm := by rw [h₄]
  have he : s.fetchFixed off = { s with pup := { s.pup with itcm := (s.fetchFixed off).pup.itcm } } := rfl
  have hr : (s.fetchFixed off).rd F.PUP_PAR_CNT_ITCM = s.rd F.PUP_PAR_CNT_ITCM := rfl
  refine ⟨_, hx, fun k hk => ?_, fun b hne => ?_, by rw [← hr]; exact h₁, by rw [hi]; exact h₄⟩
  · rw [hi]
    unfold fetchFixed
    rw [getD_mapIdx, if_pos hb, if_pos rfl, getD_mapIdx, if_pos hk]
    have : k / 4 * 4 = off / 4 * 4 ↔ k / 4 = off / 4 := by omega
    simp only [this]
  · rw [hi]
    unfold fetchFixed
    rw [getD_mapIdx, if_neg hne]
    split
    · rfl
    · next hl =>
      rw [List.getD_eq_default _ _ (Nat.not_lt.1 hl)]

theorem stopped_keeps {fs : List Fld} (h : Keeps s t fs) (h₁ : ∀ g ∈ fs, F.PUP_STS_SPARE.id ≠ g.id) (h₂ : ∀ g ∈ fs, F.MED_PF_STS_PHASE.id ≠ g.id) :
    t.stopped = s.stopped := by
  rw [stopped, h _ _ _ _ h₁, h _ _ _ _ h₂, stopped]

/-- A take-over from a state that differs in the parity log and the words of the banks alone. -/
theorem TookOver.of {m : State} {rsn : Nat} {pass : Bool} (h : TookOver m t rsn pass)
    (hk : Keeps s m [F.PUP_PAR_CNT_ITCM, F.PUP_PAR_LOG_VALID, F.PUP_PAR_LOG_MEM, F.PUP_PAR_LOG_ADDR])
    (he : m.tns = s.tns ∧ m.pup.insvc = s.pup.insvc ∧ m.pup.pend = s.pup.pend ∧ m.el = s.el ∧ m.zn = s.zn) : TookOver s t rsn pass := by
  obtain ⟨e₁, e₂, e₃, e₄, e₅⟩ := he
  exact ⟨by rw [h.active, hk _ _ _ _ (by decide)], h.spare, by rw [h.count, hk _ _ _ _ (by decide)], h.reason, by rw [h.time, e₁], h.insvc,
    by rw [h.pend, e₂, e₃], h.wdt.trans e₄, h.zones.trans e₅⟩

theorem ran_fetchFailed (off : Nat) (pass : Bool) (s : State) (hs : s.rd F.PUP_STS_SPARE = 0) (h : s.stopped = false) :
    Ran (.itcmFetchParity off false pass) s (fun t => TookOver s t 4 pass) := by
  obtain ⟨-, -, -, h₄, h₅⟩ := parCount (s := s.fetchFixed off) (F' := F.PUP_PAR_CNT_ITCM) (mem := 0) off (by decide) (by decide)
  have hx := itcmFetch_eq off false pass h
  rw [if_neg Bool.false_ne_true] at hx
  have hk : Keeps s (((s.fetchFixed off).inc F.PUP_PAR_CNT_ITCM).parLog 0 off) _ := h₅
  have he : (((s.fetchFixed off).inc F.PUP_PAR_CNT_ITCM).parLog 0 off).tns = s.tns ∧ (((s.fetchFixed off).inc F.PUP_PAR_CNT_ITCM).parLog 0 off).pup.insvc = s.pup.insvc ∧
      (((s.fetchFixed off).inc F.PUP_PAR_CNT_ITCM).parLog 0 off).pup.pend = s.pup.pend ∧ (((s.fetchFixed off).inc F.PUP_PAR_CNT_ITCM).parLog 0 off).el = s.el ∧
      (((s.fetchFixed off).inc F.PUP_PAR_CNT_ITCM).parLog 0 off).zn = s.zn := by
    rw [h₄]
    exact ⟨rfl, rfl, rfl, rfl, rfl⟩
  generalize ((s.fetchFixed off).inc F.PUP_PAR_CNT_ITCM).parLog 0 off = m at hx hk he
  rw [failover_check ((stopped_keeps hk (by decide) (by decide)).trans h) (by decide) ((hk _ _ _ _ (by decide)).trans hs)] at hx
  exact ⟨_, hx, TookOver.of (takeOverPup_tookOver m (by decide) pass) hk he⟩

/-! ### The alternate bank (16 R359 step 1) -/

theorem ran_bankLoaded {c : Nat} (s : State) (hc : c < 8) (hs : s.stopped = false) (hw : s.swapping = false) (hb : s.rd F.PUP_STS_BANK ≤ 1)
    (hl : s.pup.itcm.length = 2) :
    Ran (.alternateBankLoaded c true) s (fun t => t.rd F.PUP_STS_SWAP = 1 ∧ t.rd F.PUP_DMA_STS_STATE c = 0 ∧
      t.pup.itcm.getD (1 - s.rd F.PUP_STS_BANK) [] = s.img.mirror.getD (1 - s.rd F.PUP_STS_BANK) [] ∧
      t.pup.itcm.getD (s.rd F.PUP_STS_BANK) [] = s.pup.itcm.getD (s.rd F.PUP_STS_BANK) [] ∧ Keeps s t [F.PUP_STS_SWAP, F.PUP_DMA_STS_STATE] ∧
      t = { s with regs := t.regs, pup := { s.pup with itcm := t.pup.itcm } }) ∧
    Ran (.alternateBankLoaded c false) s (fun t => t.rd F.PUP_STS_SWAP = 0 ∧ t.rd F.PUP_DMA_STS_STATE c = 0 ∧
      Keeps s t [F.PUP_STS_SWAP, F.PUP_DMA_STS_STATE] ∧ t = { s with regs := t.regs }) := by
  have hgo : ¬ (c ≥ 8 || s.stopped || s.swapping) = true := by
    rw [decide_eq_false (Nat.not_le.2 hc), hs, hw]
    exact Bool.false_ne_true
  have hk (v : Nat) : Keeps s ((s.wr F.PUP_DMA_STS_STATE 0 c).wr F.PUP_STS_SWAP v) [F.PUP_STS_SWAP, F.PUP_DMA_STS_STATE] :=
    (Keeps.wr (f := F.PUP_DMA_STS_STATE) (by decide) s _ _ _ _).trans (Keeps.wr (f := F.PUP_STS_SWAP) (by decide) _ _ _ _ _)
  have hd (v : Nat) : ((s.wr F.PUP_DMA_STS_STATE 0 c).wr F.PUP_STS_SWAP v).rd F.PUP_DMA_STS_STATE c = 0 :=
    (rd_wr_id _ _ _ _ _ _ _ _ _ _ (by decide)).trans ((rd_wr_same ..).trans (by decide))
  refine ⟨⟨_, congrArg Host.Outcome.next (if_neg hgo), (rd_wr_same ..).trans (by decide), hd _, ?_, ?_, hk _, rfl⟩,
    ⟨_, congrArg Host.Outcome.next (if_neg hgo), (rd_wr_same ..).trans (by decide), hd _, hk _, rfl⟩⟩
  · refine (getD_mapIdx _ _ _ _).trans ((if_pos ?_).trans (if_pos rfl))
    show 1 - s.rd F.PUP_STS_BANK < s.pup.itcm.length
    omega
  · refine (getD_mapIdx _ _ _ _).trans ((if_pos ?_).trans (if_neg ?_))
    · show s.rd F.PUP_STS_BANK < s.pup.itcm.length
      omega
    · omega

/-! ### GO (16 R359, R360) -/

/-- The channels that run after the firmware's are as an operand names them; no other register changes (16 R354). -/
theorem dmaRun_first (s : State) (mask n : Nat) :
    Only (Scope.regsOf [F.PUP_DMA_STS_STATE]).bound s ((List.range n).foldl (fun (s : State) c =>
      if bit mask c && !s.stopped then s.wr F.PUP_DMA_STS_STATE 1 c else if s.rd F.PUP_DMA_STS_STATE c = 1 then s.wr F.PUP_DMA_STS_STATE 0 c else s) s) :=
  .foldl fun s c => by
    split
    · exact .wr (by decide) ..
    · split
      · exact .wr (by decide) ..
      · exact .refl s

theorem dmaRun_spec (s : State) (mask : Nat) (h : s.stopped = false) :
    Only (Scope.regsOf [F.PUP_DMA_STS_STATE]).bound s (s.dmaRun mask) ∧
    ∀ c, c < 8 → ((s.dmaRun mask).rd F.PUP_DMA_STS_STATE c = 1 ↔ bit mask c = true) := by
  have key (n : Nat) : ∀ c, c < n → (((List.range n).foldl (fun (s : State) c =>
      if bit mask c && !s.stopped then s.wr F.PUP_DMA_STS_STATE 1 c
      else if s.rd F.PUP_DMA_STS_STATE c = 1 then s.wr F.PUP_DMA_STS_STATE 0 c else s) s).rd F.PUP_DMA_STS_STATE c = 1 ↔ bit mask c = true) := by
    induction n with
    | zero => exact fun c hc => absurd hc (Nat.not_lt_zero c)
    | succ n ih =>
      intro c hc
      rw [List.range_succ, List.foldl_append]
      have ho := dmaRun_first s mask n
      generalize (List.range n).foldl _ s = m at ih ho
      have hst : m.stopped = false := (stopped_keeps ho.rel.2 (by decide) (by decide)).trans h
      dsimp only [List.foldl_cons, List.foldl_nil]
      rw [hst, Bool.not_false, Bool.and_true]
      rcases Nat.lt_succ_iff_lt_or_eq.1 hc with hc | rfl
      · rw [← ih c hc]
        have hne : (⟨F.PUP_DMA_STS_STATE.id, c, 0, 0⟩ : RKey) ≠ ⟨F.PUP_DMA_STS_STATE.id, n, 0, 0⟩ := fun e =>
          absurd (congrArg RKey.i e) (Nat.ne_of_lt hc)
        split
        · rw [rd_wr_ne _ _ _ _ _ _ _ _ _ _ hne]
        · split
          · rw [rd_wr_ne _ _ _ _ _ _ _ _ _ _ hne]
          · rfl
      · by_cases hb : bit mask c = true
        · rw [if_pos hb, rd_wr_same]
          exact ⟨fun _ => hb, fun _ => rfl⟩
        · rw [if_neg hb]
          split
          · rw [rd_wr_same]
            exact ⟨fun e => absurd e (by decide), fun e => absurd e hb⟩
          · next hn => exact ⟨fun e => absurd e hn, fun e => absurd e hb⟩
  exact ⟨dmaRun_first s mask 8, key 8⟩

/-- The times from which COMMIT and the watchdog run start. -/
def goNow (s : State) : State := { s with pup := { s.pup with goAt := s.el, wdtAt := s.el } }

/-- What GO does once the channels that run are known. -/
def swapGoes (s : State) (dur : Nat) : State :=
  let s := (s.raiseMv.wr F.PUP_STS_BANK (1 - s.rd F.PUP_STS_BANK)).wr F.PUP_STS_SWAP 3
  ((s.wr F.PUP_STS_MASKED 0).wr F.PUP_SWAP_DUR (sat 16 dur)).goNow

/-- A raise of the voltage asks the regulator and keeps the current of the next one. -/
theorem raiseMv_spec (s : State) : s.raiseMv = { s with regs := s.raiseMv.regs, pup := s.raiseMv.pup, outs := s.raiseMv.outs } ∧
    s.raiseMv.rd F.PUP_VREG_TARGET_MV = max 600 (min (s.rd F.PUP_VREG_TARGET_MV + 15) 850) ∧ Keeps s s.raiseMv [F.PUP_VREG_TARGET_MV] := by
  refine ⟨rfl, ?_, Keeps.wr (List.mem_singleton_self F.PUP_VREG_TARGET_MV) s _ _ _ _⟩
  refine (rd_wr_same s F.PUP_VREG_TARGET_MV (max 600 (min (s.rd F.PUP_VREG_TARGET_MV + 15) 850)) 0 0 0).trans (Nat.mod_eq_of_lt ?_)
  have hw : 850 < 2 ^ F.PUP_VREG_TARGET_MV.w := by decide
  omega

theorem swapGoes_spec (s : State) (dur : Nat) : (s.swapGoes dur).rd F.PUP_STS_BANK = cut 1 (1 - s.rd F.PUP_STS_BANK) ∧
    (s.swapGoes dur).rd F.PUP_STS_SWAP = 3 ∧ (s.swapGoes dur).rd F.PUP_STS_MASKED = 0 ∧ (s.swapGoes dur).rd F.PUP_SWAP_DUR = sat 16 dur ∧
    (s.swapGoes dur).pup.goAt = s.el ∧ (s.swapGoes dur).pup.wdtAt = s.el ∧
    (s.swapGoes dur).rd F.PUP_VREG_TARGET_MV = max 600 (min (s.rd F.PUP_VREG_TARGET_MV + 15) 850) ∧
    Keeps s (s.swapGoes dur) [F.PUP_STS_BANK, F.PUP_STS_SWAP, F.PUP_STS_MASKED, F.PUP_SWAP_DUR, F.PUP_VREG_TARGET_MV] ∧
    s.swapGoes dur = { s with regs := (s.swapGoes dur).regs, pup := (s.swapGoes dur).pup, outs := (s.swapGoes dur).outs } := by
  obtain ⟨he, hv, hk⟩ := s.raiseMv_spec
  unfold swapGoes
  dsimp only
  have hel : s.raiseMv.el = s.el := rfl
  generalize s.raiseMv = m at he hv hk hel
  let n : State := (((m.wr F.PUP_STS_BANK (1 - s.rd F.PUP_STS_BANK)).wr F.PUP_STS_SWAP 3).wr F.PUP_STS_MASKED 0).wr F.PUP_SWAP_DUR (sat 16 dur)
  have hn : n.rd F.PUP_STS_BANK = cut 1 (1 - s.rd F.PUP_STS_BANK) ∧ n.rd F.PUP_STS_SWAP = 3 ∧ n.rd F.PUP_STS_MASKED = 0 ∧
      n.rd F.PUP_SWAP_DUR = sat 16 dur ∧ n.rd F.PUP_VREG_TARGET_MV = m.rd F.PUP_VREG_TARGET_MV := by
    simp (disch := decide) only [n, rd_wr_id, rd_wr_same]
    exact ⟨rfl, by decide, by decide, cut_sat 16 dur, trivial⟩
  have hnk : Keeps m n [F.PUP_STS_BANK, F.PUP_STS_SWAP, F.PUP_STS_MASKED, F.PUP_SWAP_DUR, F.PUP_VREG_TARGET_MV] :=
    (((Keeps.wr (f := F.PUP_STS_BANK) (by decide) _ _ _ _ _).trans (Keeps.wr (f := F.PUP_STS_SWAP) (by decide) _ _ _ _ _)).trans
      (Keeps.wr (f := F.PUP_STS_MASKED) (by decide) _ _ _ _ _)).trans (Keeps.wr (f := F.PUP_SWAP_DUR) (by decide) _ _ _ _ _)
  have hne : n = { m with regs := n.regs } := rfl
  rw [show (((m.wr F.PUP_STS_BANK (1 - s.rd F.PUP_STS_BANK)).wr F.PUP_STS_SWAP 3).wr F.PUP_STS_MASKED 0).wr F.PUP_SWAP_DUR (sat 16 dur) = n from rfl]
  have hnel : n.el = m.el := rfl
  generalize n = n at hn hnk hne hnel
  obtain ⟨n₁, n₂, n₃, n₄, n₅⟩ := hn
  refine ⟨n₁, n₂, n₃, n₄, hnel.trans hel, hnel.trans hel, n₅.trans hv, (Keeps.mono hk (by decide)).trans hnk, ?_⟩
  rw [hne, he]
  rfl

section
variable (dur dma : Nat) (h : s.stopped = false)
include h

theorem swapGo_eq {t : State} (ht : s.dmaRun dma = t) : execSwapGo dur dma s = .next (
    if !t.pup.insvc.isEmpty then t.wr F.PUP_SWAP_ERR 1
    else if t.rd F.PUP_STS_SWAP != 1 then t.wr F.PUP_SWAP_ERR 2
    else if (List.range 8).any (fun c => t.rd F.PUP_DMA_STS_STATE c = 1) then t.wr F.PUP_SWAP_ERR 3
    else t.swapGoes dur) := by
  have hst : t.stopped = false := by
    rw [← ht]
    exact (stopped_keeps (s.dmaRun_spec dma h).1.rel.2 (by decide) (by decide)).trans h
  unfold execSwapGo
  rw [ht]
  exact congrArg Host.Outcome.next (if_neg (by rw [hst]; exact Bool.false_ne_true))

theorem ran_swapGo (hi : s.pup.insvc = []) (hw : s.rd F.PUP_STS_SWAP = 1) (hd : ∀ c, c < 8 → bit dma c = false) :
    Ran (.swapGo dur dma) s (fun t => t.rd F.PUP_STS_BANK = cut 1 (1 - s.rd F.PUP_STS_BANK) ∧
      t.rd F.PUP_STS_SWAP = 3 ∧ t.rd F.PUP_STS_MASKED = 0 ∧ t.rd F.PUP_SWAP_DUR = sat 16 dur ∧ t.pup.goAt = s.el ∧ t.pup.wdtAt = s.el ∧
      t.rd F.PUP_VREG_TARGET_MV = max 600 (min (s.rd F.PUP_VREG_TARGET_MV + 15) 850) ∧
      Keeps s t [F.PUP_STS_BANK, F.PUP_STS_SWAP, F.PUP_STS_MASKED, F.PUP_SWAP_DUR, F.PUP_VREG_TARGET_MV, F.PUP_DMA_STS_STATE] ∧
      t = { s with regs := t.regs, pup := t.pup, outs := t.outs }) := by
  obtain ⟨ho, hr⟩ := s.dmaRun_spec dma h
  have hx := swapGo_eq dur dma h rfl
  generalize s.dmaRun dma = m at ho hr hx
  have hme : m = { s with regs := m.regs } := ho.frame
  have hmi : m.pup.insvc = [] := by rw [hme]; exact hi
  have hany : ((List.range 8).any fun c => decide (m.rd F.PUP_DMA_STS_STATE c = 1)) = false := List.any_eq_false.2 fun c hc => by
    rw [decide_eq_true_iff, hr c (List.mem_range.1 hc), hd c (List.mem_range.1 hc)]
    exact Bool.false_ne_true
  rw [hmi, if_neg (by decide), ho.regs F.PUP_STS_SWAP 0 0 0 (by decide), hw, if_neg (by decide), hany, if_neg Bool.false_ne_true] at hx
  obtain ⟨h₁, h₂, h₃, h₄, h₅, h₆, h₇, h₈, h₉⟩ := m.swapGoes_spec dur
  rw [ho.regs F.PUP_STS_BANK 0 0 0 (by decide)] at h₁
  rw [ho.regs F.PUP_VREG_TARGET_MV 0 0 0 (by decide)] at h₇
  have hel : m.el = s.el := by rw [hme]; rfl
  refine ⟨_, hx, h₁, h₂, h₃, h₄, h₅.trans hel, h₆.trans hel, h₇, (Keeps.mono ho.rel.2 (show _ from by decide)).trans (Keeps.mono h₈ (by decide)), ?_⟩
  rw [h₉, hme]

theorem ran_swapGo_served (hi : s.pup.insvc ≠ []) : Ran (.swapGo dur dma) s (fun t => t.rd F.PUP_SWAP_ERR = 1 ∧
    Keeps s t [F.PUP_SWAP_ERR, F.PUP_DMA_STS_STATE] ∧ t = { s with regs := t.regs }) := by
  obtain ⟨ho, -⟩ := s.dmaRun_spec dma h
  have hx := swapGo_eq dur dma h rfl
  generalize s.dmaRun dma = m at ho hx
  have hme : m = { s with regs := m.regs } := ho.frame
  have hmi : (!m.pup.insvc.isEmpty) = true := by
    rw [hme, Bool.not_eq_true', List.isEmpty_eq_false_iff]
    exact hi
  rw [if_pos hmi] at hx
  refine ⟨_, hx, (rd_wr_same ..).trans (by decide), (Keeps.mono ho.rel.2 (by decide)).trans (Keeps.wr (f := F.PUP_SWAP_ERR) (by decide) m _ _ _ _), ?_⟩
  rw [wr, hme]

theorem ran_swapGo_dma {c : Nat} (hc : c < 8) (hb : bit dma c = true) (hi : s.pup.insvc = []) (hw : s.rd F.PUP_STS_SWAP = 1) :
    Ran (.swapGo dur dma) s (fun t => t.rd F.PUP_SWAP_ERR = 3 ∧ Keeps s t [F.PUP_SWAP_ERR, F.PUP_DMA_STS_STATE] ∧ t = { s with regs := t.regs }) := by
  obtain ⟨ho, hr⟩ := s.dmaRun_spec dma h
  have hx := swapGo_eq dur dma h rfl
  generalize s.dmaRun dma = m at ho hr hx
  have hme : m = { s with regs := m.regs } := ho.frame
  have hmi : m.pup.insvc = [] := by rw [hme]; exact hi
  have hany : ((List.range 8).any fun c => decide (m.rd F.PUP_DMA_STS_STATE c = 1)) = true :=
    List.any_eq_true.2 ⟨c, List.mem_range.2 hc, decide_eq_true ((hr c hc).2 hb)⟩
  rw [hmi, if_neg (by decide), ho.regs F.PUP_STS_SWAP 0 0 0 (by decide), hw, if_neg (by decide), if_pos hany] at hx
  refine ⟨_, hx, (rd_wr_same ..).trans (by decide), (Keeps.mono ho.rel.2 (by decide)).trans (Keeps.wr (f := F.PUP_SWAP_ERR) (by decide) m _ _ _ _), ?_⟩
  rw [wr, hme]

end

/-! ### COMMIT and its absence (16 R361; 17 R391) -/

/-- What putting an image's live sections into force may change. -/
def Scope.live : Scope where
  merge s t := { s with regs := t.regs, cap := t.cap, pwr := t.pwr, die := t.die, rdn := t.rdn, evr := t.evr, img := { s.img with blockProg := t.img.blockProg } }
  fields := [F.PWR_STEP_TBL_LIMIT_W, F.PWR_STEP_TBL_F, F.PWR_STEP_TBL_WIDTH, F.PWR_STEP_TBL_LANES, F.THM_CURVE_T_ENTER, F.PWR_STEP_FLOOR,
    F.FRL_LSTS_BANK, F.FRL_LSTS_EPOCH]

theorem settleStep_live (s : State) : Only Scope.live.bound s s.settleStep :=
  (settleStep_settle s).widen (d := Scope.live) (fun _ _ => rfl) (by decide)

theorem useSteps_live (s : State) (b : List Nat) : Only Scope.live.bound s (s.useSteps b) := by
  have h₁ (s : State) : Only Scope.live.bound s ((List.range 16).foldl (fun (s : State) i =>
      (((s.wr F.PWR_STEP_TBL_LIMIT_W (leAt b (8 * i) 2) i).wr F.PWR_STEP_TBL_F (leAt b (8 * i + 2) 2) i).wr F.PWR_STEP_TBL_WIDTH
        (leAt b (8 * i + 4) 1) i).wr F.PWR_STEP_TBL_LANES (leAt b (8 * i + 5) 1) i) s) :=
    .foldl fun s i => (Only.wr (by decide) ..).after ((Only.wr (by decide) ..).after ((Only.wr (by decide) ..).after (Only.wr (by decide) ..)))
  have h₂ (s : State) : Only Scope.live.bound s
      ((List.range 15).foldl (fun (s : State) i => s.wr F.THM_CURVE_T_ENTER (leAt b (128 + i) 1) (i + 1)) s) :=
    .foldl fun s i => Only.wr (by decide) ..
  have h₃ (s : State) : Only Scope.live.bound s { s with pwr := { s.pwr with margin := leAt b 144 1, ntc := ntcOf b } } := .upd rfl
  unfold useSteps
  exact .ite (.refl s) ((settleStep_live _).after ((h₃ _).after ((h₂ _).after (h₁ s))))

theorem useLive_live (s : State) (b : List Nat) : Only Scope.live.bound s (s.useLive b) := by
  have h₁ (s : State) : Only Scope.live.bound s (s.useLadder (secTy b 10)) := .upd rfl
  unfold useLive
  exact (Only.upd rfl).after ((Only.upd rfl).after ((Only.upd rfl).after ((Only.upd rfl).after ((h₁ _).after ((useSteps_live _ _).after (Only.upd rfl))))))

theorem newEpochs_live (s : State) : Only Scope.live.bound s s.newEpochs := by
  unfold newEpochs
  refine .foldl fun s e => ?_
  split
  · exact .refl s
  · split
    · exact .refl s
    · refine .after (.foldl fun s l => .ite (.after (.wr (by decide) ..) (.wr (by decide) ..)) (.refl s)) (.upd rfl)

/-- The end of a Commit changes its own registers and what reporting changes. -/
theorem commitEnd_keeps (s : State) (o : Org) (cid err : Nat) (st : Nat × Nat) :
    Keeps s (s.commitEnd o cid err st) (F.IMG_UPD_STS_STATE :: F.IMG_UPD_STS_ERR :: eventFields) := by
  let a : State := ({ s with img := { s.img with upd := [] } } : State).wr F.IMG_UPD_STS_STATE (if err = 0 then 5 else 6)
  have ha : Keeps s a (F.IMG_UPD_STS_STATE :: F.IMG_UPD_STS_ERR :: eventFields) :=
    Keeps.wr (f := F.IMG_UPD_STS_STATE) List.mem_cons_self { s with img := { s.img with upd := [] } } _ _ _ _
  have hb := Keeps.wr (f := F.IMG_UPD_STS_ERR) (fs := F.IMG_UPD_STS_STATE :: F.IMG_UPD_STS_ERR :: eventFields)
    (List.mem_cons_of_mem _ List.mem_cons_self) a err 0 0 0
  show Keeps s ((a.wr F.IMG_UPD_STS_ERR err).adm o cid st) _
  generalize a.wr F.IMG_UPD_STS_ERR err = b at hb
  exact (ha.trans hb).trans (Keeps.mono (Only.Event.adm (s := b) o cid st 0 []).rel.2 fun f hf => List.mem_cons_of_mem _ (List.mem_cons_of_mem _ hf))

theorem writeDir_keeps (s : State) (active : Nat) (trial : Option Nat) (tries : Nat) :
    Keeps s (s.writeDir active trial tries) [F.IMG_DIR_ACTIVE, F.IMG_DIR_TRIAL, F.IMG_DIR_TRIES, F.IMG_DIR_SEQ] := by
  obtain ⟨i, d, he, -⟩ := writeDir_eq s active trial tries
  rw [he]
  exact (showDir_only { s with img := { s.img with
    dirs := (List.range 2).map (fun j => if j = i then d.bytes else s.img.dirs.getD j []) } }).rel.2

/-- The activation of an exchanged image: its live sections, the slot it runs from and the directory (17 R391). -/
def liveAgain (s : State) (k : Nat) (b : List Nat) (same : Bool) : State :=
  let s := (((s.useLive b).newEpochs.wr F.IMG_STS_SLOT k).wr F.GEN_FW_FR (leAt b 32 8)).wr F.IMG_RUN_ID_BUILD (leAt b 24 8)
  if same then s.writeDir k none 0 else s.writeDir s.activeSlot (some k) 1

theorem liveAgain_spec (s : State) (k : Nat) (b : List Nat) (same : Bool) : (s.liveAgain k b same).pup = s.pup ∧ (s.liveAgain k b same).zn = s.zn ∧
    (s.liveAgain k b same).rd F.IMG_STS_SLOT = cut 1 k ∧ (s.liveAgain k b same).rd F.PUP_STS_SWAP = s.rd F.PUP_STS_SWAP := by
  unfold liveAgain
  dsimp only
  have hl : Only Scope.live.bound s (s.useLive b).newEpochs := (newEpochs_live _).after (useLive_live s b)
  generalize (s.useLive b).newEpochs = m at hl
  have hm : m.pup = s.pup ∧ m.zn = s.zn := by
    rw [hl.frame]
    exact ⟨rfl, rfl⟩
  have hsw := hl.regs F.PUP_STS_SWAP 0 0 0 (by decide)
  let n : State := ((m.wr F.IMG_STS_SLOT k).wr F.GEN_FW_FR (leAt b 32 8)).wr F.IMG_RUN_ID_BUILD (leAt b 24 8)
  have hn : n.pup = m.pup ∧ n.zn = m.zn := ⟨rfl, rfl⟩
  have hr : n.rd F.IMG_STS_SLOT = cut 1 k ∧ n.rd F.PUP_STS_SWAP = m.rd F.PUP_STS_SWAP := by
    simp (disch := decide) only [n, rd_wr_id, rd_wr_same]
    exact ⟨rfl, trivial⟩
  rw [show ((m.wr F.IMG_STS_SLOT k).wr F.GEN_FW_FR (leAt b 32 8)).wr F.IMG_RUN_ID_BUILD (leAt b 24 8) = n from rfl]
  generalize n = n at hn hr
  have key (act : Nat) (tr : Option Nat) (tries : Nat) : (n.writeDir act tr tries).pup = s.pup ∧ (n.writeDir act tr tries).zn = s.zn ∧
      (n.writeDir act tr tries).rd F.IMG_STS_SLOT = cut 1 k ∧ (n.writeDir act tr tries).rd F.PUP_STS_SWAP = s.rd F.PUP_STS_SWAP := by
    obtain ⟨-, -, h₁, h₂, -⟩ := writeDir_spec n act tr tries
    have hk := writeDir_keeps n act tr tries
    exact ⟨h₁.trans (hn.1.trans hm.1), h₂.trans (hn.2.trans hm.2), (hk _ _ _ _ (by decide)).trans hr.1,
      (hk _ _ _ _ (by decide)).trans (hr.2.trans hsw)⟩
  split
  · exact key ..
  · exact key ..

theorem swapCommit_goes (hw : s.swapping = true) (h : s.stopped = false) : ¬ (!s.swapping || s.stopped) = true := by
  rw [hw, h]
  exact Bool.false_ne_true

/-- What the firmware's COMMIT of an exchange that a Commit asked for leaves. -/
theorem ran_swapCommit {k cid : Nat} {o : Org} (hw : s.swapping = true) (h : s.stopped = false) (he : s.pup.exch = some (k, o, cid)) :
    Ran (.swapCommit) s (fun t => t.pup.exch = none ∧ t.rd F.PUP_STS_SWAP = 0 ∧ t.rd F.IMG_STS_SLOT = cut 1 k ∧ t.zn = s.zn ∧
      Replied t o cid (if s.sameStruct s.img.store then stOk else (1, 0x0B))) := by
  let a : State := { s.wr F.PUP_STS_SWAP 0 with pup := { s.pup with exch := none } }
  have hx : execSwapCommit s = .next ((a.liveAgain k s.img.store (s.sameStruct s.img.store)).commitEnd o cid 0
      (if s.sameStruct s.img.store then stOk else (1, 0x0B))) := by
    unfold execSwapCommit
    rw [if_neg (swapCommit_goes hw h)]
    dsimp only
    rw [show (s.wr F.PUP_STS_SWAP 0).pup.exch = some (k, o, cid) from he]
    rfl
  have ha : a.pup.exch = none ∧ a.zn = s.zn ∧ a.rd F.PUP_STS_SWAP = 0 := ⟨rfl, rfl, (rd_wr_same s F.PUP_STS_SWAP 0 0 0 0).trans (by decide)⟩
  generalize a = a at hx ha
  obtain ⟨h₁, h₂, h₃, h₄⟩ := a.liveAgain_spec k s.img.store (s.sameStruct s.img.store)
  generalize a.liveAgain k s.img.store (s.sameStruct s.img.store) = m at hx h₁ h₂ h₃ h₄
  have hc := commitEnd_spec m o cid 0 (if s.sameStruct s.img.store then stOk else (1, 0x0B))
  have hk := commitEnd_keeps m o cid 0 (if s.sameStruct s.img.store then stOk else (1, 0x0B))
  exact ⟨_, hx, by rw [hc.pup, h₁]; exact ha.1, (hk _ _ _ _ (by decide)).trans (h₄.trans ha.2.2), (hk _ _ _ _ (by decide)).trans h₃,
    hc.zn.trans (h₂.trans ha.2.1), _, _, hc.replied⟩

/-- The state as an exchange that was not committed ends, before its Commit is answered. -/
def rolled (s : State) : State :=
  let s := s.wr F.PUP_STS_BANK (1 - s.rd F.PUP_STS_BANK)
  let s := ((s.redeliver).wr F.PUP_STS_SWAP 4).wr F.PUP_STS_MASKED 0
  ({ s with pup := { s.pup with wdtAt := s.el } }).raise evRollback 0xFFFF 0

theorem rolled_spec (s : State) : s.rolled.rd F.PUP_STS_BANK = cut 1 (1 - s.rd F.PUP_STS_BANK) ∧ s.rolled.rd F.PUP_STS_SWAP = 4 ∧
    s.rolled.rd F.PUP_STS_MASKED = 0 ∧ s.rolled.pup.insvc = [] ∧ s.rolled.pup.wdtAt = s.el ∧ s.rolled.zn = s.zn ∧ s.rolled.pup.exch = s.pup.exch := by
  unfold rolled
  dsimp only
  let a : State := (((s.wr F.PUP_STS_BANK (1 - s.rd F.PUP_STS_BANK)).redeliver).wr F.PUP_STS_SWAP 4).wr F.PUP_STS_MASKED 0
  let b : State := { a with pup := { a.pup with wdtAt := a.el } }
  have hp : b.pup.insvc = [] ∧ b.pup.wdtAt = s.el ∧ b.zn = s.zn ∧ b.pup.exch = s.pup.exch := ⟨rfl, rfl, rfl, rfl⟩
  have hr₁ : b.rd F.PUP_STS_BANK = cut 1 (1 - s.rd F.PUP_STS_BANK) :=
    (rd_wr_id (((s.wr F.PUP_STS_BANK (1 - s.rd F.PUP_STS_BANK)).redeliver).wr F.PUP_STS_SWAP 4) _ _ _ _ _ _ _ _ _ (by decide)).trans
      ((rd_wr_id (s.wr F.PUP_STS_BANK (1 - s.rd F.PUP_STS_BANK)).redeliver _ _ _ _ _ _ _ _ _ (by decide)).trans
        (rd_wr_same s F.PUP_STS_BANK (1 - s.rd F.PUP_STS_BANK) 0 0 0))
  have hr₂ : b.rd F.PUP_STS_SWAP = 4 :=
    (rd_wr_id (((s.wr F.PUP_STS_BANK (1 - s.rd F.PUP_STS_BANK)).redeliver).wr F.PUP_STS_SWAP 4) _ _ _ _ _ _ _ _ _ (by decide)).trans
      ((rd_wr_same (s.wr F.PUP_STS_BANK (1 - s.rd F.PUP_STS_BANK)).redeliver F.PUP_STS_SWAP 4 0 0 0).trans (by decide))
  have hr₃ : b.rd F.PUP_STS_MASKED = 0 :=
    (rd_wr_same (((s.wr F.PUP_STS_BANK (1 - s.rd F.PUP_STS_BANK)).redeliver).wr F.PUP_STS_SWAP 4) F.PUP_STS_MASKED 0 0 0 0).trans (by decide)
  show (b.raise evRollback 0xFFFF 0).rd F.PUP_STS_BANK = _ ∧ _
  rw [show ({ a with pup := { a.pup with wdtAt := a.el } } : State) = b from rfl]
  generalize b = b at hp hr₁ hr₂ hr₃
  have he := Only.Event.raise (s := b) evRollback 0xFFFF 0
  generalize b.raise evRollback 0xFFFF 0 = t at he
  have hf : t.pup = b.pup ∧ t.zn = b.zn := by
    rw [he.frame]
    exact ⟨rfl, rfl⟩
  obtain ⟨p₁, p₂, p₃, p₄⟩ := hp
  exact ⟨(he.regs _ _ _ _ (by decide)).trans hr₁, (he.regs _ _ _ _ (by decide)).trans hr₂, (he.regs _ _ _ _ (by decide)).trans hr₃, by rw [hf.1, p₁],
    by rw [hf.1, p₂], hf.2.trans p₃, by rw [hf.1, p₄]⟩

theorem swapRollback_eq (hw : s.swapping = true) (ht : s.pup.goAt + s.rd F.PUP_WDT_COMMIT_MS * 1000000 ≤ s.el) :
    execSwapRollback s = .next s.rollback :=
  congrArg Host.Outcome.next (if_pos (by rw [hw, decide_eq_true ht]; rfl))

theorem ran_rollback (hw : s.swapping = true) (ht : s.pup.goAt + s.rd F.PUP_WDT_COMMIT_MS * 1000000 ≤ s.el) (he : s.pup.exch = none) :
    Ran (.swapRollback) s (fun t => t.rd F.PUP_STS_BANK = cut 1 (1 - s.rd F.PUP_STS_BANK) ∧ t.rd F.PUP_STS_SWAP = 4 ∧
      t.rd F.PUP_STS_MASKED = 0 ∧ t.pup.insvc = [] ∧ t.pup.wdtAt = s.el ∧ t.zn = s.zn) := by
  obtain ⟨h₁, h₂, h₃, h₄, h₅, h₆, h₇⟩ := s.rolled_spec
  have hx : s.rollback = s.rolled := by
    have hn : s.rolled.pup.exch = none := h₇.trans he
    unfold rollback
    dsimp only
    split
    · rfl
    · next h => exact absurd (hn.symm.trans h) (Option.some_ne_none _).symm
  exact ⟨_, swapRollback_eq hw ht, by rw [hx]; exact ⟨h₁, h₂, h₃, h₄, h₅, h₆⟩⟩

theorem ran_rollbackAnswered {k cid : Nat} {o : Org} (hw : s.swapping = true) (ht : s.pup.goAt + s.rd F.PUP_WDT_COMMIT_MS * 1000000 ≤ s.el)
    (he : s.pup.exch = some (k, o, cid)) : Ran (.swapRollback) s (fun t =>
      t.pup.exch = none ∧ t.rd F.PUP_STS_SWAP = 4 ∧ Replied t o cid (1, 0x07) ∧ t.zn = s.zn) := by
  obtain ⟨-, h₂, -, -, -, h₆, h₇⟩ := s.rolled_spec
  let a (m : State) : State := { m with pup := { m.pup with exch := none }, img := { m.img with store := m.img.slots.getD (m.rd F.IMG_STS_SLOT) [] } }
  have hx : s.rollback = (((a s.rolled).wr F.IMG_UPD_STS_ERR 6).wr F.IMG_UPD_STS_STATE 6).adm o cid (1, 0x07) := by
    have hn : s.rolled.pup.exch = some (k, o, cid) := h₇.trans he
    unfold rollback
    dsimp only
    split
    · next h => exact absurd (h.symm.trans hn) (Option.some_ne_none _).symm
    · next h =>
      obtain ⟨rfl, rfl, rfl⟩ : k = _ ∧ o = _ ∧ cid = _ := by
        have := Option.some.inj (hn.symm.trans h)
        simpa only [Prod.mk.injEq] using this
      rfl
  generalize s.rolled = m at h₂ h₆ hx
  let b : State := ((a m).wr F.IMG_UPD_STS_ERR 6).wr F.IMG_UPD_STS_STATE 6
  have hb : b.pup.exch = none ∧ b.zn = m.zn := ⟨rfl, rfl⟩
  have hs : b.rd F.PUP_STS_SWAP = m.rd F.PUP_STS_SWAP :=
    (rd_wr_id ((a m).wr F.IMG_UPD_STS_ERR 6) _ _ _ _ _ _ _ _ _ (by decide)).trans (rd_wr_id (a m) _ _ _ _ _ _ _ _ _ (by decide))
  rw [show ((a m).wr F.IMG_UPD_STS_ERR 6).wr F.IMG_UPD_STS_STATE 6 = b from rfl] at hx
  generalize b = b at hx hb hs
  obtain ⟨-, hp, hz⟩ := b.adm_image o cid (1, 0x07) 0 []
  refine ⟨_, swapRollback_eq hw ht, ?_⟩
  rw [hx]
  exact ⟨by rw [hp]; exact hb.1, ((Only.Event.adm (s := b) o cid (1, 0x07) 0 []).regs _ _ _ _ (by decide)).trans (hs.trans h₂), ⟨_, _, adm_replies ..⟩,
    hz.trans (hb.2.trans h₆)⟩

end State

/-- Settles O39: an error is counted and logged the same way whatever found it; GO, COMMIT and the roll-back are each described once. -/
theorem parityAndExchangeComplete : Obligations.ParityAndExchangeComplete := by
  unfold Obligations.ParityAndExchangeComplete
  refine ⟨fun off pass s => State.ran_fetchParity off pass s, fun off pass s => State.ran_fetchFailed off pass s, State.ran_dtcmParity,
    fun core line data s => State.ran_cacheParity line data s, fun c done addr s => State.ran_dmaHalt done addr s, fun c s => State.ran_bankLoaded s,
    fun dur dma s h => ⟨State.ran_swapGo dur dma h, State.ran_swapGo_served dur dma h, fun c => State.ran_swapGo_dma dur dma h⟩, fun s hw h he => ?_,
    fun k cid o s => State.ran_swapCommit, fun s => State.ran_rollback, fun k cid o s => State.ran_rollbackAnswered⟩
  refine ⟨s.wr F.PUP_STS_SWAP 0, ?_, (State.rd_wr_same ..).trans (by decide), Keeps.wr (List.mem_singleton_self F.PUP_STS_SWAP) s _ _ _ _, rfl⟩
  show execSwapCommit s = _
  unfold execSwapCommit
  rw [if_neg (State.swapCommit_goes hw h)]
  dsimp only
  rw [show (s.wr F.PUP_STS_SWAP 0).pup.exch = none from he]

end Sys2Proof.Machine
end


section
/-! SUPPORT. What emptying a namespace changes. -/

namespace Sys2Proof.Machine

/-- Emptying a namespace: the cache, the map and the codewords besides what work on the media changes, and the entries of its zones. -/
def Scope.empty : Scope where
  merge s t := { Scope.cache.merge s t with ftl := { (Scope.cache.merge s t).ftl with dir := t.ftl.dir, fmap := t.ftl.fmap } }
  fields := [F.ZON_ENT0_STATE, F.ZON_ENT2_WP_OFF, F.ZON_ENT0_ZFC, F.ZON_ENT7_RESETS] ++ Scope.cache.fields

def Bound.empty : Bound := Scope.empty.bound

namespace Only

theorem cacheEmpty {s t : State} (h : Only .cache s t) : Only .empty s t := h.widen (d := Scope.empty) (fun _ _ => rfl) (by decide)

theorem workEmpty {s t : State} (h : Only .media s t) : Only .empty s t := h.cached.cacheEmpty

theorem zonesEmpty {s t : State} (h : Only .zones s t) : Only .empty s t := h.widen (d := Scope.empty) (fun _ _ => rfl) (by decide)

namespace Empty

-- So the unifier sees a match on an option as the recursor that `opt` speaks of.
set_option smartUnfolding false

variable (s : State)

theorem setZst (h z : Nat) : Only .empty s (s.setZst h z) := (State.setZst_only s h z).zonesEmpty

theorem wipeZone (h : Nat) : Only .empty s (s.wipeZone h) := by
  unfold State.wipeZone
  exact upd rfl

theorem zoneReset (h : Nat) : Only .empty s (s.zoneReset h) := by
  unfold State.zoneReset
  exact .after
    (.ite (.refl _) ((setZst ..).after ((inc (by decide) ..).after ((wr (by decide) ..).after ((wr (by decide) ..).after ((wipeZone ..).after (Work.unbind ..).workEmpty))))))
    (Work.failHolds ..).workEmpty

theorem invRange (nsid first count : Nat) (discard : Bool) : Only .empty s (s.invRange nsid first count discard) := by
  unfold State.invRange
  exact .foldl (fun _ _ => (.ite (Cache.putLine ..).cacheEmpty (.ite ((Cache.dropLine ..).cacheEmpty.after (Cache.writeBack ..).cacheEmpty) (Cache.dropLine ..).cacheEmpty)))

theorem holdBy (h : Nat) (n : Option Nat) : Only .empty s (s.holdBy h n) := by
  unfold State.holdBy
  exact (Work.putZx ..).workEmpty

theorem endNsCmds (nsid : Nat) (st : Nat × Nat) : Only .empty s (s.endNsCmds nsid st) := by
  unfold State.endNsCmds
  exact .foldl (fun _ _ => (.ite (Work.failHeld ..).workEmpty (Work.fin ..).workEmpty))

theorem unmapAll (nsid : Nat) (n : Ns) : Only .empty s (s.unmapAll nsid n) := by
  unfold State.unmapAll
  exact (Work.limits ..).workEmpty.after
    ((invRange ..).after
      (.after (upd rfl) (.after (.foldl (fun _ _ => (.ite ((dec (by decide) ..).after (Cache.invalidate ..).cacheEmpty) (.refl _)))) (Work.jn ..).workEmpty)))

theorem emptyNs (nsid : Nat) : Only .empty s (s.emptyNs nsid) := by
  unfold State.emptyNs
  exact .opt (fun _ => (.ite (.foldl (fun _ _ => ((holdBy ..).after ((wr (by decide) ..).after (zoneReset ..))))) (unmapAll ..))) (.refl _)


end Empty
end Only
end Sys2Proof.Machine
end


section
/-! O8: the namespace commands (04 R502, R108; 12 R289, R292). -/

namespace Sys2Proof.Machine

/-- The command's completion was given whatever else of a state changed before it. -/
theorem Answers.of_outs {s m t : State} {o : Org} {cid dw0 : Nat} {st : Nat × Nat} {data : List Nat} (h : Answers m t o cid st dw0 data)
    (ho : m.outs = s.outs) : Answers s t o cid st dw0 data := by
  unfold Answers at h ⊢
  rw [ho] at h
  exact h

namespace State
variable {s t : State}

theorem admBegin_zn (z : ZoneSt) (o : Org) : ({ s with zn := z } : State).admBegin o = { s.admBegin o with zn := z } := by
  have ha : ({ s with zn := z } : State).admQ o = s.admQ o := by cases o <;> rfl
  unfold admBegin
  rw [ha]
  split <;> rfl

/-! ### Create (04 R502) -/

/-- The entries of new zones are written, and no other registers. -/
theorem newZones_only (s : State) (slice nsid base dg n : Nat) : Only (Scope.regsOf [F.ZON_ENT0_STATE, F.ZON_ENT0_SLICE, F.ZON_ENT0_DGROUP, F.ZON_ENT0_NSID,
    F.ZON_ENT1_ZSLBA, F.ZON_ENT7_SEQ]).bound s (s.newZones slice nsid base n dg) :=
  .foldl fun _ _ => (Only.addw (by decide) ..).after ((Only.wr (by decide) ..).after ((Only.wr (by decide) ..).after
    ((Only.wr (by decide) ..).after ((Only.wr (by decide) ..).after (Only.wr (by decide) ..)))))

theorem newZones_empty (s : State) (slice nsid base dg n : Nat) {i : Nat} (hi : i < n) : (s.newZones slice nsid base n dg).zst (base + i) = znEmpty := by
  unfold newZones
  induction n with
  | zero => exact absurd hi (Nat.not_lt_zero i)
  | succ n ih =>
    rw [List.range_succ, List.foldl_append, List.foldl_cons, List.foldl_nil]
    generalize (List.range n).foldl _ s = m at ih
    dsimp only
    have hz : ((((((m.wr F.ZON_ENT0_STATE znEmpty (base + n)).wr F.ZON_ENT0_SLICE slice (base + n)).wr F.ZON_ENT0_DGROUP dg (base + n)).wr
        F.ZON_ENT0_NSID nsid (base + n)).wr F.ZON_ENT1_ZSLBA (n * zoneBlocks) (base + n)).zseq (base + n)).zst (base + i) =
        (m.wr F.ZON_ENT0_STATE znEmpty (base + n)).zst (base + i) := by
      simp (disch := decide) only [zst, zseq, addw, rd_wr_id]
    rw [hz]
    rcases Nat.lt_succ_iff_lt_or_eq.1 hi with h | rfl
    · refine (rd_wr_ne _ _ _ _ _ _ _ _ _ _ fun e => ?_).trans (ih h)
      have := congrArg RKey.i e
      dsimp only at this
      omega
    · exact (rd_wr_same ..).trans (by decide)

theorem ran_nsCreate {o : Org} {cid sl nsze ncap lbaf dg cipher id : Nat} {zoned : Bool} (h : Served s o) (hsl : s.sliceOf o = some sl)
    (hf : s.nsFault sl zoned nsze ncap lbaf dg cipher = none) (hid : s.freeNsid sl = some id) :
    Ran (.namespaceCreate o cid zoned nsze ncap lbaf dg cipher) s (fun t =>
      (∃ n, Tab.find id t.zn.ns = some n ∧ n.slice = sl ∧ n.zoned = zoned ∧ n.size = nsze ∧ n.lbaf = lbaf ∧ n.dg = dg ∧ n.cipher = cipher ∧
        n.ctls = [] ∧ (zoned = true → n.zones = nsze / zoneBlocks ∧ ∀ i, i < n.zones → t.zst (n.base + i) = znEmpty)) ∧
      (∀ j, j ≠ id → Tab.find j t.zn.ns = Tab.find j s.zn.ns) ∧
      t.rd F.SLI_NS_USE sl = cut F.SLI_NS_USE.w (s.rd F.SLI_NS_USE sl + 1) ∧ t.zn.ud = s.zn.ud ∧ Answers s t o cid stOk id []) := by
  obtain ⟨qs, hq⟩ := s.admBegin_eq o
  have hsame := s.sameQs_admBegin o
  rw [hq] at hsame
  have hsl' : ({ s with sl := { s.sl with qs := qs } } : State).sliceOf o = some sl := (hsame.sliceOf rfl (fun _ => rfl) o).trans hsl
  have hf' : ({ s with sl := { s.sl with qs := qs } } : State).nsFault sl zoned nsze ncap lbaf dg cipher = none := hf
  have hid' : ({ s with sl := { s.sl with qs := qs } } : State).freeNsid sl = some id := hid
  let zones := if zoned then nsze / zoneBlocks else 0
  let base := if zoned then (s.freeRun zones).getD 0 else 0
  let n : Ns := Ns.mk sl zoned nsze lbaf dg base zones cipher []
  let a : State := { s with sl := { s.sl with qs := qs }, zn := { s.zn with ns := Tab.put id n s.zn.ns } }
  let c (b : State) : State := (b.addw F.SLI_NS_USE 1 sl).wr F.ZON_CAP_HANDLES a.handles
  have hx : execNamespaceCreate o cid zoned nsze ncap lbaf dg cipher s = .next
      (((c (a.newZones sl id base zones dg)).putGen sl id ((c (a.newZones sl id base zones dg)).keyGen sl id)).adm o cid stOk id) := by
    unfold execNamespaceCreate
    rw [admin_served h, hq]
    simp only [hsl', Option.getD_some, hf', hid']
    rfl
  have hz := newZones_only a sl id base dg zones
  have he (i : Nat) (hi : i < zones) := newZones_empty a sl id base dg zones hi
  have ha : a.zn.ns = Tab.put id n s.zn.ns ∧ a.zn.ud = s.zn.ud ∧ a.outs = s.outs ∧ a.rd F.SLI_NS_USE sl = s.rd F.SLI_NS_USE sl := ⟨rfl, rfl, rfl, rfl⟩
  generalize a.newZones sl id base zones dg = b at hx hz he
  have hb : b.zn = a.zn ∧ b.outs = a.outs := by
    rw [hz.frame]
    exact ⟨rfl, rfl⟩
  have hu := hz.regs F.SLI_NS_USE sl 0 0 (by decide)
  have hc : (c b).zn = b.zn ∧ (c b).outs = b.outs ∧ (∀ k, (c b).zst k = b.zst k) ∧
      (c b).rd F.SLI_NS_USE sl = cut F.SLI_NS_USE.w (b.rd F.SLI_NS_USE sl + 1) := by
    refine ⟨rfl, rfl, fun k => ?_, ?_⟩
    · exact (rd_wr_id _ _ _ _ _ _ _ _ _ _ (by decide)).trans (rd_wr_id _ _ _ _ _ _ _ _ _ _ (by decide))
    · exact (rd_wr_id _ _ _ _ _ _ _ _ _ _ (by decide)).trans (rd_wr_same ..)
  generalize c b = d at hx hc
  generalize d.keyGen sl id = g at hx
  have hd : (d.putGen sl id g).zn = d.zn ∧ (d.putGen sl id g).outs = d.outs ∧ (∀ k, (d.putGen sl id g).zst k = d.zst k) ∧
      (d.putGen sl id g).rd F.SLI_NS_USE sl = d.rd F.SLI_NS_USE sl := ⟨rfl, rfl, fun _ => rfl, rfl⟩
  generalize d.putGen sl id g = m at hx hd
  have hr := m.adm_ok_regs o cid id []
  have hzn := (m.adm_image o cid stOk id []).2.2
  have hans := m.adm_answers o cid stOk id []
  generalize m.adm o cid stOk id [] = t at hx hr hzn hans
  obtain ⟨a₁, a₂, a₃, a₄⟩ := ha
  obtain ⟨c₁, c₂, c₃, c₄⟩ := hc
  obtain ⟨d₁, d₂, d₃, d₄⟩ := hd
  have hns : t.zn.ns = Tab.put id n s.zn.ns := by rw [hzn, d₁, c₁, hb.1, a₁]
  have hst (k : Nat) : t.zst k = b.zst k := by rw [zst, rd, hr]; exact (d₃ k).trans (c₃ k)
  refine ⟨t, hx, ⟨n, ?_, rfl, rfl, rfl, rfl, rfl, rfl, rfl, fun hzo => ⟨if_pos hzo, fun i hi => (hst _).trans (he i hi)⟩⟩, fun j hj => ?_, ?_, ?_, ?_⟩
  · rw [hns, Tab.find_put_same]
  · rw [hns, Tab.find_put_ne _ _ hj]
  · rw [rd, hr]
    exact d₄.trans (c₄.trans (by rw [hu, a₄]))
  · rw [hzn, d₁, c₁, hb.1, a₂]
  · exact Answers.of_outs hans (d₂.trans (c₂.trans (hb.2.trans a₃)))

/-! ### Attachment (04 R502) -/

theorem named_head {o : Org} {nsid id : Nat} {n : Ns} (hne : nsid ≠ 0xFFFFFFFF) (hn : (s.named o nsid).head? = some (id, n)) :
    (if nsid = 0xFFFFFFFF then none else ((s.admBegin o).named o nsid).head?) = some (id, n) := by
  rw [if_neg hne, named_begun (s.sameQs_admBegin o) (s.admBegin_eq o), hn]

/-- A namespace whose list of controllers alone changed is answered as such. -/
theorem put_completes {o : Org} (cid id : Nat) (n : Ns) (h : Served s o) :
    Completes { s with zn := { s.zn with ns := Tab.put id n s.zn.ns } }
      (({ s.admBegin o with zn := { (s.admBegin o).zn with ns := Tab.put id n (s.admBegin o).zn.ns } } : State).adm o cid stOk) o cid 0 [] := by
  obtain ⟨qs, hq⟩ := s.admBegin_eq o
  have he : ({ s.admBegin o with zn := { (s.admBegin o).zn with ns := Tab.put id n (s.admBegin o).zn.ns } } : State) =
      ({ s with zn := { s.zn with ns := Tab.put id n s.zn.ns } } : State).admBegin o := by
    refine Eq.trans ?_ (admBegin_zn (s := s) _ o).symm
    rw [hq]
  rw [he]
  exact adm_completes (s := { s with zn := { s.zn with ns := Tab.put id n s.zn.ns } }) h.2.1 cid 0 []

theorem ran_nsAttach {o : Org} {cid nsid id : Nat} {ctls : List Nat} {n : Ns} (h : Served s o) (hne : nsid ≠ 0xFFFFFFFF)
    (hn : (s.named o nsid).head? = some (id, n)) (hc : ∀ k ∈ ctls, 1 ≤ k ∧ k < 256 ∧ Ctl.fn k ∉ n.ctls) :
    Ran (.namespaceAttachment o cid nsid false ctls) s (fun t =>
      Completes { s with zn := { s.zn with ns := Tab.put id { n with ctls := n.ctls ++ ctls.map Ctl.fn } s.zn.ns } } t o cid 0 []) := by
  have hm : ctls.map (fun k => if k = 0 then Ctl.mgr else if k < 256 then Ctl.fn k else Ctl.fab (k - 256)) = ctls.map Ctl.fn :=
    List.map_congr_left fun k hk => by
      obtain ⟨h₁, h₂, -⟩ := hc k hk
      rw [if_neg (by omega), if_pos h₂]
  have hfree : ((ctls.map Ctl.fn).any fun c => n.ctls.contains c) = false := List.any_eq_false.2 fun c hcm => by
    obtain ⟨k, hk, rfl⟩ := List.mem_map.1 hcm
    rw [List.contains_iff_mem]
    exact (hc k hk).2.2
  refine ⟨_, ?_, put_completes cid id { n with ctls := n.ctls ++ ctls.map Ctl.fn } h⟩
  show execNamespaceAttachment o cid nsid false ctls s = _
  unfold execNamespaceAttachment
  rw [admin_served h]
  simp only [named_head hne hn, hm, hfree, Bool.false_eq_true, if_false]

theorem ran_nsDetach {o : Org} {cid nsid id k : Nat} {n : Ns} (h : Served s o) (hne : nsid ≠ 0xFFFFFFFF)
    (hn : (s.named o nsid).head? = some (id, n)) (h₁ : 1 ≤ k) (h₂ : k < 256) (hk : Ctl.fn k ∈ n.ctls) :
    Ran (.namespaceAttachment o cid nsid true [k]) s (fun t =>
      Completes { s with zn := { s.zn with ns := Tab.put id { n with ctls := n.ctls.filter (· ≠ Ctl.fn k) } s.zn.ns } } t o cid 0 []) := by
  have hm : [k].map (fun k => if k = 0 then Ctl.mgr else if k < 256 then Ctl.fn k else Ctl.fab (k - 256)) = [Ctl.fn k] := by
    rw [List.map_singleton, if_neg (by omega), if_pos h₂]
  have hall : ([Ctl.fn k].all fun c => n.ctls.contains c) = true := by
    rw [List.all_cons, List.all_nil, Bool.and_true, List.contains_iff_mem]
    exact hk
  have hleft : n.ctls.filter (fun c => !([Ctl.fn k].contains c)) = n.ctls.filter (· ≠ Ctl.fn k) := by
    congr 1
    funext c
    rw [Bool.eq_iff_iff]
    simp
  refine ⟨_, ?_, put_completes cid id { n with ctls := n.ctls.filter (· ≠ Ctl.fn k) } h⟩
  show execNamespaceAttachment o cid nsid true [k] s = _
  unfold execNamespaceAttachment
  rw [admin_served h]
  simp only [named_head hne hn, hm, hall, if_true, hleft]

/-! ### The advances a command waits for (12 R292) -/

/-- An advance is journalled, and is pending from then on. -/
theorem advance_spec (s : State) (a b : Nat) : ∃ f, s.advance a b = { s with ftl := f } ∧
    s.advPend a (some b) ⊆ (s.advance a b).advPend a (some b) ∧ min (s.nextKey a b) (2 ^ 32) ∈ (s.advance a b).advPend a (some b) := by
  generalize hg : min (s.nextKey a b) (2 ^ 32) = g
  have hadv : s.advance a b = s.jn 0x20 [a, b, g] (.keyGen a b g) := by rw [advance, hg]
  rw [hadv]
  refine ⟨_, rfl, fun x hx => ?_, ?_⟩
  · obtain ⟨e, he, hex⟩ := List.mem_filterMap.1 hx
    refine List.mem_filterMap.2 ⟨e, ?_, hex⟩
    rcases List.mem_append.1 he with he | he
    · exact List.mem_append_left _ (List.mem_append_left _ he)
    · exact List.mem_append_right _ he
  · refine List.mem_filterMap.2 ⟨JEnt.mk s.ftl.jnext 0x20 [a, b, g] (.keyGen a b g) s.el,
      List.mem_append_left _ (List.mem_append_right _ (List.mem_singleton_self _)), if_pos ?_⟩
    simp

/-- A command that needs the advance of one pair waits for it. -/
theorem beginErase_waits {e : Erase} {a b : Nat} (he : e.pairs = [(a, b)]) (hn : s.cip.erases = []) :
    s.beginErase e = { s.advance a b with cip := { s.cip with erases := [e] } } := by
  obtain ⟨f, hf, -, hmem⟩ := advance_spec s a b
  have hp : e.pairs.any (fun p => !(({ s.advance a b with cip := { s.cip with erases := [e] } } : State).advPend p.1 (some p.2)).isEmpty) = true := by
    rw [he, List.any_cons, List.any_nil, Bool.or_false, Bool.not_eq_true', List.isEmpty_eq_false_iff]
    exact List.ne_nil_of_mem hmem
  unfold beginErase
  rw [he, List.foldl_cons, List.foldl_nil]
  dsimp only
  rw [show (s.advance a b).cip = s.cip by rw [hf], hn, List.nil_append]
  unfold resumeErases
  exact if_pos hp

/-- A command whose advances are persistent ends. -/
theorem resumeErases_ends {e : Erase} (he : s.cip.erases = [e]) (hp : ∀ p ∈ e.pairs, s.advPend p.1 (some p.2) = []) :
    s.resumeErases = ({ s with cip := { s.cip with erases := [] } } : State).endErase e := by
  have hf : [e].filter (fun x => x != e) = [] := by
    rw [List.filter_cons_of_neg (by simp), List.filter_nil]
  have ha : ¬ (e.pairs.any fun p => !(s.advPend p.1 (some p.2)).isEmpty) = true := by
    rw [List.any_eq_true]
    rintro ⟨p, hpm, hne⟩
    rw [hp p hpm] at hne
    exact Bool.false_ne_true hne
  unfold resumeErases
  rw [he]
  exact (if_neg ha).trans (congrArg (fun l => ({ s with cip := { s.cip with erases := l } } : State).endErase e) ((congrArg (List.filter _) he).trans hf))

/-- A command that names no namespace ends at once. -/
theorem beginErase_none {e : Erase} (he : e.pairs = []) (hn : s.cip.erases = []) : s.beginErase e = s.endErase e := by
  have hs : ({ s with cip := { s.cip with erases := [] } } : State) = s := by rw [← hn]
  unfold beginErase
  rw [he]
  dsimp only [List.foldl_nil]
  rw [resumeErases_ends (s := { s with cip := { s.cip with erases := s.cip.erases ++ [e] } }) (by rw [hn]; rfl)
    (by rw [he]; exact fun p hp => absurd hp (List.not_mem_nil))]
  exact congrArg (fun t => t.endErase e) hs

/-- What a command that waits for the advance of one pair leaves. -/
structure Waiting (s t : State) (e : Erase) (a b : Nat) : Prop where
  erases : t.cip.erases = [e]
  kept : s.advPend a (some b) ⊆ t.advPend a (some b)
  adds : min (s.nextKey a b) (2 ^ 32) ∈ t.advPend a (some b)
  zn : t.zn = s.zn
  outs : t.outs = s.outs

theorem beginErase_waiting {e : Erase} {a b : Nat} (qs : Tab Queue) (hp : e.pairs = [(a, b)]) (hn : s.cip.erases = []) :
    Waiting s (({ s with sl := { s.sl with qs := qs } } : State).beginErase e) e a b := by
  obtain ⟨f, hf, hk, hm⟩ := advance_spec { s with sl := { s.sl with qs := qs } } a b
  rw [beginErase_waits (s := { s with sl := { s.sl with qs := qs } }) hp hn]
  refine ⟨rfl, hk, hm, ?_, ?_⟩
  · rw [hf]
  · rw [hf]

section
variable {o : Org} (cid : Nat) (h : Served s o) (ht : s.tailFull = false) (he : s.cip.erases = [])
include h ht he

theorem ran_nsDelete {nsid : Nat} {n : Ns} (hn : s.named o nsid = [(nsid, n)]) :
    Ran (.namespaceDelete o cid nsid) s (fun t => Waiting s t ⟨o, cid, .delete, [(n.slice, nsid)]⟩ n.slice nsid) := by
  obtain ⟨qs, hq⟩ := s.admBegin_eq o
  refine ⟨_, ?_, beginErase_waiting (e := ⟨o, cid, .delete, [(n.slice, nsid)]⟩) qs rfl he⟩
  show execNamespaceDelete o cid nsid s = _
  unfold execNamespaceDelete
  rw [ht, if_neg Bool.false_ne_true, admin_served h]
  simp only [named_begun (s.sameQs_admBegin o) (s.admBegin_eq o), hn]
  rw [hq]
  rfl

theorem ran_nsFormat {nsid lbaf : Nat} {n : Ns} (hn : s.named o nsid = [(nsid, n)]) (hl : lbaf ≤ 2) (hg : s.genFull n.slice nsid = false) :
    Ran (.formatNvm o cid nsid lbaf) s (fun t => Waiting s t ⟨o, cid, .format lbaf, [(n.slice, nsid)]⟩ n.slice nsid) := by
  obtain ⟨qs, hq⟩ := s.admBegin_eq o
  refine ⟨_, ?_, beginErase_waiting (e := ⟨o, cid, .format lbaf, [(n.slice, nsid)]⟩) qs rfl he⟩
  have hgo : ¬ (decide (lbaf > 2) || [(nsid, n)].any (fun e => ({ s with sl := { s.sl with qs := qs } } : State).genFull e.2.slice e.1)) = true := by
    rw [List.any_cons, List.any_nil, Bool.or_false, show ({ s with sl := { s.sl with qs := qs } } : State).genFull n.slice nsid = false from hg,
      decide_eq_false (Nat.not_lt.2 hl)]
    exact Bool.false_ne_true
  show execFormatNvm o cid nsid lbaf s = _
  unfold execFormatNvm
  rw [ht, if_neg Bool.false_ne_true, admin_served h]
  simp only [named_begun (s.sameQs_admBegin o) (s.admBegin_eq o), hn]
  rw [hq]
  exact congrArg Host.Outcome.next ((if_neg Bool.false_ne_true).trans (if_neg hgo))

theorem ran_sanitize {nsid : Nat} {n : Ns} (hm : isMgr o = true) (hn : s.zn.ns = [(nsid, n)]) (hg : s.genFull n.slice nsid = false) :
    Ran (.sanitizeCryptoErase o cid) s (fun t => Waiting s t ⟨o, cid, .sanitize, [(n.slice, nsid)]⟩ n.slice nsid) := by
  obtain ⟨qs, hq⟩ := s.admBegin_eq o
  refine ⟨_, ?_, beginErase_waiting (e := ⟨o, cid, .sanitize, [(n.slice, nsid)]⟩) qs rfl he⟩
  have hgo : ¬ ([(nsid, n)].any (fun e => ({ s with sl := { s.sl with qs := qs } } : State).genFull e.2.slice e.1)) = true := by
    rw [List.any_cons, List.any_nil, Bool.or_false, show ({ s with sl := { s.sl with qs := qs } } : State).genFull n.slice nsid = false from hg]
    exact Bool.false_ne_true
  show execSanitizeCryptoErase o cid s = _
  unfold execSanitizeCryptoErase
  rw [ht, if_neg Bool.false_ne_true, admin_served h, hq, hm]
  dsimp only
  rw [hn]
  exact congrArg Host.Outcome.next ((if_neg Bool.false_ne_true).trans (if_neg hgo))

theorem ran_nsDeleteNone (hn : s.named o 0xFFFFFFFF = []) :
    Ran (.namespaceDelete o cid 0xFFFFFFFF) s (fun t => t.zn = s.zn ∧ Answers s t o cid stOk 0 []) := by
  obtain ⟨qs, hq⟩ := s.admBegin_eq o
  refine ⟨({ s with sl := { s.sl with qs := qs } } : State).adm o cid stOk, ?_, adm_zn .., Answers.of_outs (adm_answers ({ s with sl := { s.sl with qs := qs } } : State) o cid stOk 0 []) rfl⟩
  show execNamespaceDelete o cid 0xFFFFFFFF s = _
  unfold execNamespaceDelete
  rw [ht, if_neg Bool.false_ne_true, admin_served h]
  simp only [named_begun (s.sameQs_admBegin o) (s.admBegin_eq o), hn]
  rw [hq]
  have hb := beginErase_none (s := { s with sl := { s.sl with qs := qs } }) (e := ⟨o, cid, .delete, []⟩) rfl he
  exact congrArg Host.Outcome.next ((if_neg (by decide)).trans hb)

theorem ran_sanitizeNone (hm : isMgr o = true) (hn : s.zn.ns = []) :
    Ran (.sanitizeCryptoErase o cid) s (fun t => t.zn = s.zn ∧ Answers s t o cid stOk 0 []) := by
  obtain ⟨qs, hq⟩ := s.admBegin_eq o
  refine ⟨({ s with sl := { s.sl with qs := qs } } : State).adm o cid stOk, ?_, adm_zn .., Answers.of_outs (adm_answers ({ s with sl := { s.sl with qs := qs } } : State) o cid stOk 0 []) rfl⟩
  show execSanitizeCryptoErase o cid s = _
  unfold execSanitizeCryptoErase
  rw [ht, if_neg Bool.false_ne_true, admin_served h, hq, hm]
  dsimp only
  rw [hn]
  have hb := beginErase_none (s := { s with sl := { s.sl with qs := qs } }) (e := ⟨o, cid, .sanitize, []⟩) rfl he
  exact congrArg Host.Outcome.next ((if_neg Bool.false_ne_true).trans ((if_neg Bool.false_ne_true).trans hb))

end

/-! ### An advance that becomes persistent (12 R292) -/

/-- With nothing in flight an advance catches nothing. -/
theorem caughtBy_idle (hc : s.zn.cmds = []) (hs : s.cap.streams = []) (a b : Nat) : s.caughtBy a b = s := by
  unfold caughtBy
  rw [hc]
  dsimp only [List.filter_nil, List.foldl_nil]
  rw [hs]
  split <;> rfl

theorem advanced_idle (hc : s.zn.cmds = []) (hs : s.cap.streams = []) (a b g : Nat) :
    ∃ c, s.advanced a b g = { s with cip := c } ∧ c.erases = s.cip.erases := by
  have key (m : State) (hm : ∃ c, m = { s with cip := c } ∧ c.erases = s.cip.erases) :
      ∃ c, ((m.revoke a b g).caughtBy a b).sweepSlots = { s with cip := c } ∧ c.erases = s.cip.erases := by
    obtain ⟨c, rfl, he⟩ := hm
    rw [caughtBy_idle (s := ({ s with cip := c } : State).revoke a b g) hc hs]
    exact ⟨_, rfl, he⟩
  unfold advanced
  refine key _ ?_
  split
  · exact ⟨_, rfl, rfl⟩
  · exact ⟨_, rfl, rfl⟩

/-- The state once a page with one advance is persistent, nothing else being journalled. -/
structure Advanced (s t : State) : Prop where
  eq : ∃ r f c, t = { s with regs := r, ftl := f, cip := c }
  regs : Keeps s t [F.FTL_JNL_SEQ_SEQ, F.FTL_JNL_STS_MAX_US]
  tail : t.ftl.jtail = []
  pages : t.ftl.jpages = []
  erases : t.cip.erases = s.cip.erases

theorem persistReady_one {e : JEnt} {a b g k : Nat} (ht : s.ftl.jtail = []) (hp : s.ftl.jpages = [⟨[e], k⟩]) (ha : e.act = .keyGen a b g)
    (hc : s.zn.cmds = []) (hs : s.cap.streams = []) :
    Advanced s (({ s with ftl := { s.ftl with jpages := s.ftl.jpages.mapIdx (fun k (p : JPage) => if k = 0 then { p with copies := 2 } else p) } } : State).persistReady 64) := by
  let m : State := { s with ftl := { s.ftl with jpages := [] } }
  let us := sat 16 ((m.el - e.made) / 1000)
  let n : State := (m.wr F.FTL_JNL_SEQ_SEQ e.seq).wr F.FTL_JNL_STS_MAX_US (max us (m.rd F.FTL_JNL_STS_MAX_US))
  let p : State := { n with ftl := { n.ftl with undo := n.ftl.undo.filter (fun u => e.seq < u.1), zundo := n.ftl.zundo.filter (fun u => e.seq < u.seq) } }
  obtain ⟨c, hadv, hce⟩ := advanced_idle (s := p) hc hs a b g
  have h₁ : m.persist e = { p with cip := c } := by
    rw [← hadv]
    unfold persist
    dsimp only
    unfold jact
    rw [ha]
  have h₀ : ({ s with ftl := { s.ftl with jpages := s.ftl.jpages.mapIdx (fun k (p : JPage) => if k = 0 then { p with copies := 2 } else p) } } : State).persistReady 64 =
      persistReady 63 (m.persist e) := by
    rw [hp]
    rfl
  have h₂ : persistReady 63 ({ p with cip := c } : State) = { p with cip := c } := rfl
  rw [h₀, h₁, h₂]
  refine ⟨⟨_, _, _, rfl⟩, ?_, ht, rfl, hce⟩
  have hk : Keeps m n [F.FTL_JNL_SEQ_SEQ, F.FTL_JNL_STS_MAX_US] :=
    (Keeps.wr (f := F.FTL_JNL_SEQ_SEQ) (by decide) m _ _ _ _).trans (Keeps.wr (f := F.FTL_JNL_STS_MAX_US) (by decide) _ _ _ _ _)
  exact hk

theorem advPend_none (ht : s.ftl.jtail = []) (hp : s.ftl.jpages = []) (a : Nat) (b : Option Nat) : s.advPend a b = [] := by
  unfold advPend
  rw [ht, hp]
  rfl

/-! ### A namespace that is emptied or released (04 R108, R502) -/

/-- What the namespace commands wait for, the namespaces and the Deletes of slices are as before. -/
structure SameNs (s t : State) : Prop where
  ns : t.zn.ns = s.zn.ns
  cip : t.cip = s.cip
  dels : t.sl.dels = s.sl.dels

theorem SameNs.trans {u : State} (h : SameNs s t) (k : SameNs t u) : SameNs s u := ⟨k.ns.trans h.ns, k.cip.trans h.cip, k.dels.trans h.dels⟩

theorem SameNs.of_empty (h : Only .empty s t) : SameNs s t := by
  rw [h.frame]
  exact ⟨rfl, rfl, rfl⟩

theorem SameNs.of_event (h : Only .event s t) : SameNs s t := by
  rw [h.frame]
  exact ⟨rfl, rfl, rfl⟩

theorem SameNs.foldl {α : Type} {f : State → α → State} (l : List α) (h : ∀ s a, SameNs s (f s a)) (s : State) : SameNs s (l.foldl f s) := by
  induction l generalizing s with
  | nil => exact ⟨rfl, rfl, rfl⟩
  | cons a l ih => exact (h s a).trans (ih _)

theorem SameNs.clrZone (s : State) (h : Nat) : SameNs s (s.clrZone h) := by
  have cut (m : State) : SameNs m { m with zn := { m.zn with zx := Tab.del h m.zn.zx } } := ⟨rfl, rfl, rfl⟩
  have key (l : List Fld) : SameNs s (l.foldl (fun (s : State) f => s.wr f 0 h) s) :=
    SameNs.foldl (f := fun (s : State) f => s.wr f 0 h) l (fun _ _ => ⟨rfl, rfl, rfl⟩) s
  exact (key [F.ZON_ENT0_STATE, F.ZON_ENT0_ROUTE, F.ZON_ENT0_PSLOT, F.ZON_ENT0_SLICE, F.ZON_ENT0_DGROUP, F.ZON_ENT0_ZFC, F.ZON_ENT0_NSID,
    F.ZON_ENT1_ZSLBA, F.ZON_ENT2_WP_OFF, F.ZON_ENT2_HOLD, F.ZON_ENT2_WINROW, F.ZON_ENT3_SSET0, F.ZON_ENT3_K, F.ZON_ENT4_SSET1,
    F.ZON_ENT4_SSET2, F.ZON_ENT5_SSET3, F.ZON_ENT6_ACT_NS, F.ZON_ENT7_SEQ, F.ZON_ENT7_RESETS]).trans (cut _)

/-- A namespace that is released is gone; the others stay. -/
theorem releaseNs_spec {nsid : Nat} {n : Ns} (hn : Tab.find nsid s.zn.ns = some n) : (s.releaseNs nsid).zn.ns = Tab.del nsid s.zn.ns ∧
    (s.releaseNs nsid).cip = s.cip ∧ (s.releaseNs nsid).sl.dels = s.sl.dels := by
  have he : SameNs s ((s.endNsCmds nsid stNs).emptyNs nsid) :=
    (SameNs.of_empty (Only.Empty.endNsCmds s nsid stNs)).trans (SameNs.of_empty (Only.Empty.emptyNs _ nsid))
  have hz (m : State) : SameNs m (if n.zoned then (List.range n.zones).foldl (fun s i => s.clrZone (n.base + i)) m else m) := by
    split
    · exact SameNs.foldl _ (fun s i => SameNs.clrZone s _) m
    · exact ⟨rfl, rfl, rfl⟩
  unfold releaseNs
  rw [hn]
  dsimp only
  generalize (s.endNsCmds nsid stNs).emptyNs nsid = m at he
  have hk := he.trans (hz m)
  generalize (if n.zoned then (List.range n.zones).foldl (fun s i => s.clrZone (n.base + i)) m else m) = k at hk
  exact ⟨congrArg (Tab.del nsid) hk.ns, hk.cip, hk.dels⟩

/-- A zone that is Reset, Empty or not; the others keep state and write pointer. -/
theorem zoneReset_zones (s : State) (h : Nat) : (s.zoneReset h).zst h = znEmpty ∧ (s.zst h ≠ znEmpty → (s.zoneReset h).wp h = 0) ∧
    ∀ k, k ≠ h → (s.zoneReset h).zst k = s.zst k ∧ (s.zoneReset h).wp k = s.wp k := by
  have hf : Only .media s (s.failHolds h stZInvalid) := Only.Work.failHolds ..
  by_cases he : s.zst h = znEmpty
  · have hz : s.zoneReset h = s.failHolds h stZInvalid := if_pos he
    rw [hz]
    exact ⟨(hf.zst h).trans he, fun hn => absurd he hn, fun k _ => ⟨hf.zst k, hf.regs _ _ _ _ (by decide)⟩⟩
  · obtain ⟨h₁, h₂, -⟩ := zoneReset_reset s he
    refine ⟨h₁, fun _ => h₂, fun k hk => ?_⟩
    have hkey (f : Fld) : (⟨f.id, k, 0, 0⟩ : RKey) ≠ ⟨f.id, h, 0, 0⟩ := fun e => hk (congrArg RKey.i e)
    have hu : Only .media s ((s.failHolds h stZInvalid).unbind h) := (Only.Work.unbind _ h).after hf
    have hz : s.zoneReset h = ((((((s.failHolds h stZInvalid).unbind h).wipeZone h).wr F.ZON_ENT2_WP_OFF 0 h).wr F.ZON_ENT0_ZFC 0 h).inc
        F.ZON_ENT7_RESETS h).setZst h znEmpty := if_neg he
    rw [hz]
    generalize (s.failHolds h stZInvalid).unbind h = m at hu
    constructor
    · refine (setZst_zst_ne _ _ hk).trans ?_
      exact (rd_inc_id _ _ _ _ _ _ _ _ _ (by decide)).trans ((rd_wr_id _ _ _ _ _ _ _ _ _ _ (by decide)).trans
        ((rd_wr_id _ _ _ _ _ _ _ _ _ _ (by decide)).trans (hu.zst k)))
    · refine (setZst_only ..).wp k |>.trans ?_
      exact (rd_inc_id _ _ _ _ _ _ _ _ _ (by decide)).trans ((rd_wr_id _ _ _ _ _ _ _ _ _ _ (by decide)).trans
        ((rd_wr_ne _ _ _ _ _ _ _ _ _ _ (hkey _)).trans (hu.regs _ _ _ _ (by decide))))

/-- A zoned namespace that is emptied has every zone Empty, with its write pointer at its start where it was not Empty before. -/
theorem emptyNs_zones {nsid : Nat} {n : Ns} (hn : Tab.find nsid s.zn.ns = some n) (hz : n.zoned = true) {i : Nat} (hi : i < n.zones) :
    (s.emptyNs nsid).zst (n.base + i) = znEmpty ∧ (s.zst (n.base + i) ≠ znEmpty → (s.emptyNs nsid).wp (n.base + i) = 0) := by
  have step (m : State) (h : Nat) : (((m.zoneReset h).wr F.ZON_ENT7_RESETS 0 h).holdBy h none).zst h = znEmpty ∧
      (m.zst h ≠ znEmpty → (((m.zoneReset h).wr F.ZON_ENT7_RESETS 0 h).holdBy h none).wp h = 0) ∧
      ∀ k, k ≠ h → (((m.zoneReset h).wr F.ZON_ENT7_RESETS 0 h).holdBy h none).zst k = m.zst k ∧
        (((m.zoneReset h).wr F.ZON_ENT7_RESETS 0 h).holdBy h none).wp k = m.wp k := by
    obtain ⟨h₁, h₂, h₃⟩ := m.zoneReset_zones h
    have hs (k : Nat) : (((m.zoneReset h).wr F.ZON_ENT7_RESETS 0 h).holdBy h none).zst k = (m.zoneReset h).zst k :=
      rd_wr_id (m.zoneReset h) _ _ _ _ _ _ _ _ _ (by decide)
    have hw (k : Nat) : (((m.zoneReset h).wr F.ZON_ENT7_RESETS 0 h).holdBy h none).wp k = (m.zoneReset h).wp k :=
      rd_wr_id (m.zoneReset h) _ _ _ _ _ _ _ _ _ (by decide)
    exact ⟨(hs h).trans h₁, fun hn => (hw h).trans (h₂ hn), fun k hk => ⟨(hs k).trans (h₃ k hk).1, (hw k).trans (h₃ k hk).2⟩⟩
  have key (l : Nat) : ∀ k, (k < l → ((List.range l).foldl (fun (s : State) i =>
        ((s.zoneReset (n.base + i)).wr F.ZON_ENT7_RESETS 0 (n.base + i)).holdBy (n.base + i) none) s).zst (n.base + k) = znEmpty ∧
        (s.zst (n.base + k) ≠ znEmpty → ((List.range l).foldl (fun (s : State) i =>
          ((s.zoneReset (n.base + i)).wr F.ZON_ENT7_RESETS 0 (n.base + i)).holdBy (n.base + i) none) s).wp (n.base + k) = 0)) ∧
      (l ≤ k → ((List.range l).foldl (fun (s : State) i =>
        ((s.zoneReset (n.base + i)).wr F.ZON_ENT7_RESETS 0 (n.base + i)).holdBy (n.base + i) none) s).zst (n.base + k) = s.zst (n.base + k)) := by
    induction l with
    | zero => exact fun k => ⟨fun h => absurd h (Nat.not_lt_zero k), fun _ => rfl⟩
    | succ l ih =>
      intro k
      obtain ⟨ih₁, ih₂⟩ := ih k
      rw [List.range_succ, List.foldl_append, List.foldl_cons, List.foldl_nil]
      generalize (List.range l).foldl _ s = m at ih₁ ih₂
      obtain ⟨s₁, s₂, s₃⟩ := step m (n.base + l)
      refine ⟨fun hk => ?_, fun hk => ?_⟩
      · rcases Nat.lt_succ_iff_lt_or_eq.1 hk with hk | rfl
        · obtain ⟨e₁, e₂⟩ := s₃ (n.base + k) (by omega)
          exact ⟨e₁.trans (ih₁ hk).1, fun hne => e₂.trans ((ih₁ hk).2 hne)⟩
        · exact ⟨s₁, fun hne => s₂ (by rw [ih₂ (Nat.le_refl _)]; exact hne)⟩
      · exact (s₃ (n.base + k) (by omega)).1.trans (ih₂ (by omega))
  unfold emptyNs
  rw [hn]
  dsimp only
  rw [if_pos hz]
  exact (key n.zones i).1 hi

section
variable {o : Org} {cid nsid gen k : Nat} {n : Ns} {e : JEnt} (ht : s.ftl.jtail = []) (hp : s.ftl.jpages = [⟨[e], k⟩])
  (ha : e.act = .keyGen n.slice nsid gen) (hns : s.zn.ns = [(nsid, n)]) (hc : s.zn.cmds = []) (hs : s.cap.streams = []) (hd : s.sl.dels = [])
include ht hp ha hc hs hd

/-- A page that makes the one advance persistent ends the command that waits for it. -/
theorem persist_ends {kind : EraseKind} (hE : s.cip.erases = [⟨o, cid, kind, [(n.slice, nsid)]⟩])
    (hk : ∀ m : State, (m.endErase ⟨o, cid, kind, [(n.slice, nsid)]⟩).sl.dels = m.sl.dels) :
    ∃ m : State, Keeps s m [F.FTL_JNL_SEQ_SEQ, F.FTL_JNL_STS_MAX_US] ∧ m.zn = s.zn ∧ m.cip.erases = [] ∧
      execJournalPagePersist 0 s = .next (m.endErase ⟨o, cid, kind, [(n.slice, nsid)]⟩) := by
  have hA := persistReady_one ht hp ha hc hs
  have hx : execJournalPagePersist 0 s = .next (({ s with ftl := { s.ftl with
    jpages := s.ftl.jpages.mapIdx (fun k (p : JPage) => if k = 0 then { p with copies := 2 } else p) } } : State).persistReady 64).resumeDels := rfl
  generalize persistReady 64 _ = m at hA hx
  have hm : m.zn = s.zn ∧ m.sl = s.sl := by
    obtain ⟨r, f, c, rfl⟩ := hA.eq
    exact ⟨rfl, rfl⟩
  have hr := resumeErases_ends (hA.erases.trans hE) (fun p _ => advPend_none hA.tail hA.pages p.1 (some p.2))
  refine ⟨{ m with cip := { m.cip with erases := [] } }, hA.regs, hm.1, rfl, ?_⟩
  rw [hx]
  unfold resumeDels
  rw [hr, hk, show ({ m with cip := { m.cip with erases := [] } } : State).sl.dels = [] by rw [hm.2, hd]]
  rfl

include hns

theorem ran_deletePersists (hE : s.cip.erases = [⟨o, cid, .delete, [(n.slice, nsid)]⟩]) :
    Ran (.journalPagePersist 0) s (fun t => t.zn.ns = [] ∧ t.cip.erases = [] ∧ Replied t o cid stOk) := by
  have hend (m : State) : m.endErase ⟨o, cid, .delete, [(n.slice, nsid)]⟩ = (m.releaseNs nsid).adm o cid stOk := rfl
  have hfind (m : State) (hm : m.zn = s.zn) : Tab.find nsid m.zn.ns = some n := by
    rw [hm, hns]
    exact if_pos rfl
  have hadm (m : State) : SameNs m (m.adm o cid stOk) := SameNs.of_event (Only.Event.adm ..)
  have hdels (m : State) : (m.releaseNs nsid).sl.dels = m.sl.dels := by
    cases hf : Tab.find nsid m.zn.ns with
    | none =>
      unfold releaseNs
      rw [hf]
    | some n => exact (releaseNs_spec hf).2.2
  obtain ⟨m, -, hz, he, hx⟩ := persist_ends ht hp ha hc hs hd hE fun m => (hadm _).dels.trans (hdels m)
  obtain ⟨h₁, h₂, -⟩ := releaseNs_spec (hfind m hz)
  rw [hend] at hx
  refine ⟨_, hx, ?_, ?_, _, _, adm_replies ..⟩
  · rw [(hadm _).ns, h₁, hz, hns]
    simp [Tab.del]
  · rw [(hadm _).cip, h₂, he]

theorem ran_formatPersists {lbaf : Nat} (hzo : n.zoned = true) (hE : s.cip.erases = [⟨o, cid, .format lbaf, [(n.slice, nsid)]⟩]) :
    Ran (.journalPagePersist 0) s (fun t => t.zn.ns = [(nsid, { n with lbaf := lbaf })] ∧ t.cip.erases = [] ∧ Replied t o cid stOk ∧
        ∀ i, i < n.zones → t.zst (n.base + i) = znEmpty ∧ (s.zst (n.base + i) ≠ znEmpty → t.wp (n.base + i) = 0)) := by
  let f (m : State) : State := { m with zn := { m.zn with ns := m.zn.ns.map (fun (x : Nat × Ns) => if [nsid].contains x.1 then (x.1, { x.2 with lbaf := lbaf }) else x) } }
  have hend (m : State) : m.endErase ⟨o, cid, .format lbaf, [(n.slice, nsid)]⟩ = (f (m.emptyNs nsid)).adm o cid stOk := rfl
  have hadm (m : State) : SameNs m (m.adm o cid stOk) := SameNs.of_event (Only.Event.adm ..)
  have hem (m : State) : SameNs m (m.emptyNs nsid) := SameNs.of_empty (Only.Empty.emptyNs m nsid)
  obtain ⟨m, hk, hz, he, hx⟩ := persist_ends ht hp ha hc hs hd hE fun m => (hadm _).dels.trans (hem m).dels
  rw [hend] at hx
  have hfind : Tab.find nsid m.zn.ns = some n := by
    rw [hz, hns]
    exact if_pos rfl
  have hzones (i : Nat) (hi : i < n.zones) := emptyNs_zones hfind hzo hi
  obtain ⟨h₁, h₂, -⟩ := hem m
  generalize m.emptyNs nsid = a at hx hzones h₁ h₂
  have hf : (f a).zn.ns = [(nsid, { n with lbaf := lbaf })] ∧ (f a).cip = a.cip ∧ (∀ k, (f a).zst k = a.zst k) ∧ (∀ k, (f a).wp k = a.wp k) := by
    refine ⟨?_, rfl, fun _ => rfl, fun _ => rfl⟩
    show a.zn.ns.map _ = _
    rw [h₁, hz, hns, List.map_singleton, if_pos (by simp)]
  generalize f a = b at hx hf
  obtain ⟨f₁, f₂, f₃, f₄⟩ := hf
  have hr := b.adm_ok_regs o cid 0 []
  refine ⟨_, hx, (hadm b).ns.trans f₁, ?_, ⟨_, _, adm_replies ..⟩, fun i hi => ⟨?_, fun hne => ?_⟩⟩
  · rw [(hadm b).cip, f₂, h₂, he]
  · rw [zst, rd, hr]
    exact (f₃ _).trans (hzones i hi).1
  · rw [wp, rd, hr]
    exact (f₄ _).trans ((hzones i hi).2 (by rw [zst, hk _ _ _ _ (by decide)]; exact hne))

end

end State

/-- Settles O8: a command that needs a key's advance journals it and waits; the page that makes it persistent ends it, which releases the
namespace or resets its zones one after the other. -/
theorem namespaceCommandsComplete : Obligations.NamespaceCommandsComplete := by
  unfold Obligations.NamespaceCommandsComplete
  refine ⟨fun o cid sl nsze ncap lbaf dg cipher id zoned s => State.ran_nsCreate, fun o cid nsid id ctls n s => State.ran_nsAttach,
    fun o cid nsid id k n s => State.ran_nsDetach, fun o cid s h ht he _ => ⟨fun nsid n hn => ?_, fun nsid lbaf n hn hl hg => ?_,
      fun nsid n hm hn hg => ?_, State.ran_nsDeleteNone cid h ht he, State.ran_sanitizeNone cid h ht he⟩,
    fun o cid nsid gen k lbaf n e s ht hp ha hns hzo hc hs hd => ⟨State.ran_deletePersists ht hp ha hns hc hs hd,
      State.ran_formatPersists ht hp ha hns hc hs hd hzo⟩⟩
  · obtain ⟨t, hx, hw⟩ := State.ran_nsDelete cid h ht he hn
    exact ⟨t, hx, hw.erases, hw.kept, hw.adds, hw.zn, hw.outs⟩
  · obtain ⟨t, hx, hw⟩ := State.ran_nsFormat cid h ht he hn hl hg
    exact ⟨t, hx, hw.erases, hw.adds, hw.zn, hw.outs⟩
  · obtain ⟨t, hx, hw⟩ := State.ran_sanitize cid h ht he hm hn hg
    exact ⟨t, hx, hw.erases, hw.adds, hw.zn, hw.outs⟩

end Sys2Proof.Machine
end


section
/-! O7: Capture Stream Management (05 R110–R114). -/

namespace Sys2Proof.Machine

namespace State
variable {s t : State}

theorem admBegin_cap (c : CapSt) (o : Org) : ({ s with cap := c } : State).admBegin o = { s.admBegin o with cap := c } := by
  have ha : ({ s with cap := c } : State).admQ o = s.admQ o := by cases o <;> rfl
  unfold admBegin
  rw [ha]
  split <;> rfl

/-- A completion leaves what the capture streams hold, and the queue pairs. -/
theorem adm_cap (s : State) (o : Org) (cid : Nat) (st : Nat × Nat) (dw0 : Nat) (data : List Nat) :
    (s.adm o cid st dw0 data).cap = s.cap ∧ (s.adm o cid st dw0 data).net.qps = s.net.qps := by
  have h := Only.Event.adm (s := s) o cid st dw0 data
  generalize s.adm o cid st dw0 data = t at h ⊢
  rw [h.frame]
  exact ⟨rfl, rfl⟩

/-! ### Create (05 R110–R113) -/

/-- The QP of an RDMA stream is bound to the stream and its slice. -/
def bindQp (s : State) (k : Nat) (x : Stream) (slice : Nat) : State :=
  match s.qp x.qp with
  | some q =>
    if x.rdma then
      let s := if q.slice.isNone then s.addw F.SLI_RES_USE_RCQP 1 slice else s
      s.putQp x.qp { q with slice := some slice, stream := some k }
    else s
  | none => s

theorem bindQp_datagrams {x : Stream} (h : x.rdma = false) (k slice : Nat) : s.bindQp k x slice = s := by
  unfold bindQp
  rw [h]
  split <;> rfl

theorem bindQp_rdma {x : Stream} {q : Qp} (h : x.rdma = true) (hq : s.qp x.qp = some q) (hn : q.slice = none) (k slice : Nat) :
    s.bindQp k x slice = (s.addw F.SLI_RES_USE_RCQP 1 slice).putQp x.qp { q with slice := some slice, stream := some k } := by
  unfold bindQp
  rw [hq]
  dsimp only
  rw [if_pos h, hn]
  rfl

section
variable {o : Org} {cid k : Nat} {desc : List Nat} {n : Ns} {p : LaneProg} (h : Served s o) (hk : k < 256) (hm : s.mayCap o (some n.slice) = true)
  (hs : s.stream k = none) (hf : s.streamFault k desc = none) (hn : Tab.find (leAt desc 4 4) s.zn.ns = some n)
  (hp : Tab.find (leAt desc 27 1) s.cap.progs = some p)
include h hk hm hs hf hn hp

/-- A Create that passes its tests puts the stream, and binds its QP. -/
theorem streamCreate_eq {qs : Tab Queue} (hq : s.admBegin o = { s with sl := { s.sl with qs := qs } }) : execCaptureStreamCreate o cid 1 k desc s =
    .next (((({ s with sl := { s.sl with qs := qs } } : State).putStream k (mkStream desc n.slice p)).bindQp k (mkStream desc n.slice p) n.slice).adm
      o cid stOk) := by
  have h₁ : ¬ ((1 : Nat) != 1 || decide (k ≥ 256) || !({ s with sl := { s.sl with qs := qs } } : State).mayCap o ((some n).map (·.slice))) = true := by
    rw [show ({ s with sl := { s.sl with qs := qs } } : State).mayCap o ((some n).map (·.slice)) = true from hm, decide_eq_false (Nat.not_le.2 hk)]
    exact Bool.false_ne_true
  have h₂ : ¬ (({ s with sl := { s.sl with qs := qs } } : State).stream k).isSome = true := by
    rw [show ({ s with sl := { s.sl with qs := qs } } : State).stream k = none from hs]
    exact Bool.false_ne_true
  have h₃ : ({ s with sl := { s.sl with qs := qs } } : State).streamFault k desc = none := hf
  unfold execCaptureStreamCreate
  rw [if_neg (by decide), admin_served h, hq]
  dsimp only
  rw [hn, if_neg h₁, if_neg h₂, h₃, hp]
  rfl

theorem ran_streamCreate (hr : bit (leAt desc 0 4) 0 = false) :
    Ran (.captureStreamCreate o cid 1 k desc) s (fun t => (mkStream desc n.slice p).state = stIdle ∧ t.stream k = some (mkStream desc n.slice p) ∧
      Completes { s with cap := { s.cap with streams := Tab.put k (mkStream desc n.slice p) s.cap.streams } } t o cid 0 []) := by
  obtain ⟨qs, hq⟩ := s.admBegin_eq o
  have hx := streamCreate_eq (cid := cid) h hk hm hs hf hn hp hq
  rw [bindQp_datagrams (x := mkStream desc n.slice p) hr] at hx
  have hb : ({ s with sl := { s.sl with qs := qs } } : State).putStream k (mkStream desc n.slice p) =
      ({ s with cap := { s.cap with streams := Tab.put k (mkStream desc n.slice p) s.cap.streams } } : State).admBegin o := by
    refine Eq.trans ?_ (admBegin_cap (s := s) _ o).symm
    rw [hq]
    rfl
  have hst : (({ s with sl := { s.sl with qs := qs } } : State).putStream k (mkStream desc n.slice p)).stream k = some (mkStream desc n.slice p) :=
    Tab.find_put_same ..
  refine ⟨_, hx, rfl, ?_, ?_⟩
  · rw [stream, (adm_cap ..).1]
    exact hst
  · rw [hb]
    exact adm_completes (s := { s with cap := { s.cap with streams := Tab.put k (mkStream desc n.slice p) s.cap.streams } }) h.2.1 cid 0 []

theorem ran_streamCreateRdma {q : Qp} (hr : bit (leAt desc 0 4) 0 = true) (hqp : s.qp (cut 24 (leAt desc 56 4)) = some q) (hqn : q.slice = none) :
    Ran (.captureStreamCreate o cid 1 k desc) s (fun t => t.stream k = some (mkStream desc n.slice p) ∧
      t.qp (cut 24 (leAt desc 56 4)) = some { q with slice := some n.slice, stream := some k } ∧
      t.rd F.SLI_RES_USE_RCQP n.slice = cut F.SLI_RES_USE_RCQP.w (s.rd F.SLI_RES_USE_RCQP n.slice + 1) ∧ Keeps s t [F.SLI_RES_USE_RCQP] ∧
      Answers s t o cid stOk 0 [] ∧ (∀ j, j ≠ k → t.stream j = s.stream j) ∧ t.zn = s.zn) := by
  obtain ⟨qs, hq⟩ := s.admBegin_eq o
  have hx := streamCreate_eq (cid := cid) h hk hm hs hf hn hp hq
  let a : State := ({ s with sl := { s.sl with qs := qs } } : State).putStream k (mkStream desc n.slice p)
  have ha : a.qp (cut 24 (leAt desc 56 4)) = some q ∧ a.cap.streams = Tab.put k (mkStream desc n.slice p) s.cap.streams ∧ a.zn = s.zn ∧ a.outs = s.outs ∧
      a.regs = s.regs := ⟨hqp, rfl, rfl, rfl, rfl⟩
  rw [show ({ s with sl := { s.sl with qs := qs } } : State).putStream k (mkStream desc n.slice p) = a from rfl] at hx
  generalize a = a at hx ha
  obtain ⟨a₁, a₂, a₃, a₄, a₅⟩ := ha
  rw [bindQp_rdma (x := mkStream desc n.slice p) hr a₁ hqn] at hx
  let b : State := (a.addw F.SLI_RES_USE_RCQP 1 n.slice).putQp (cut 24 (leAt desc 56 4)) { q with slice := some n.slice, stream := some k }
  have hb : b.cap = a.cap ∧ b.zn = a.zn ∧ b.outs = a.outs ∧ b.regs = (a.addw F.SLI_RES_USE_RCQP 1 n.slice).regs ∧
      b.qp (cut 24 (leAt desc 56 4)) = some { q with slice := some n.slice, stream := some k } := ⟨rfl, rfl, rfl, rfl, Tab.find_put_same ..⟩
  rw [show (a.addw F.SLI_RES_USE_RCQP 1 n.slice).putQp (mkStream desc n.slice p).qp { q with slice := some n.slice, stream := some k } = b from rfl] at hx
  generalize b = b at hx hb
  obtain ⟨b₁, b₂, b₃, b₄, b₅⟩ := hb
  obtain ⟨hcap, hqps⟩ := b.adm_cap o cid stOk 0 []
  have hregs := b.adm_ok_regs o cid 0 []
  have hans := b.adm_answers o cid stOk 0 []
  have hzn := b.adm_zn o cid stOk 0 []
  generalize b.adm o cid stOk 0 [] = t at hx hcap hqps hregs hans hzn
  have hst : t.cap.streams = Tab.put k (mkStream desc n.slice p) s.cap.streams := by rw [hcap, b₁, a₂]
  have hrd (f : Fld) (i j p : Nat) : t.rd f i j p = (a.addw F.SLI_RES_USE_RCQP 1 n.slice).rd f i j p := by rw [rd, hregs, b₄, rd]
  have har (f : Fld) (i j p : Nat) : a.rd f i j p = s.rd f i j p := by rw [rd, a₅, rd]
  refine ⟨t, hx, ?_, ?_, ?_, fun f i j p hne => ?_, Answers.of_outs hans (b₃.trans a₄), fun j hj => ?_, hzn.trans (b₂.trans a₃)⟩
  · rw [stream, hst, Tab.find_put_same]
  · rw [qp, hqps]
    exact b₅
  · rw [hrd, addw, rd_wr_same, har]
  · rw [hrd, addw, rd_wr_id _ _ _ _ _ _ _ _ _ _ (hne _ (List.mem_singleton_self _)), har]
  · rw [stream, hst, Tab.find_put_ne _ _ hj, stream]

end

/-- A Create of an action that the table does not list is refused (05 R110). -/
theorem ran_streamAction {o : Org} {act : Nat} (cid k : Nat) (desc : List Nat) (h : Served s o) (ha : act = 0 ∨ 6 ≤ act) :
    Ran (.captureStreamCreate o cid act k desc) s (fun t => Refuses s t o cid stField 0) := by
  have h₁ : ¬ (decide (2 ≤ act) && decide (act ≤ 5)) = true := by
    rw [Bool.and_eq_true, decide_eq_true_iff, decide_eq_true_iff]
    omega
  have h₂ (x y : Bool) : (act != 1 || x || y) = true := by
    rw [bne_iff_ne.2 (by omega : act ≠ 1), Bool.true_or, Bool.true_or]
  refine ⟨(s.admBegin o).adm o cid stField, ?_, adm_refuses h.2.1 cid stField 0⟩
  show execCaptureStreamCreate o cid act k desc s = _
  unfold execCaptureStreamCreate
  rw [if_neg h₁, admin_served h]
  exact congrArg Host.Outcome.next (if_pos (h₂ _ _))

/-! ### Modify (05 R110–R112, R140) -/

/-- Lanes that switch to a program's new epoch. -/
def switchLanes (s : State) (mask epoch : Nat) : State :=
  (List.range 64).foldl (fun (s : State) l =>
    if bit mask l then (s.wr F.FRL_LSTS_BANK (1 - s.rd F.FRL_LSTS_BANK l) l).wr F.FRL_LSTS_EPOCH epoch l else s) s

theorem switchLanes_only (s : State) (mask epoch : Nat) : Only (Scope.regsOf [F.FRL_LSTS_BANK, F.FRL_LSTS_EPOCH]).bound s (s.switchLanes mask epoch) :=
  .foldl fun s _ => .ite ((Only.wr (by decide) ..).after (Only.wr (by decide) ..)) (.refl s)

/-- A stream that passes the checks of an action is there. -/
theorem capChk_begun {o : Org} {k : Nat} {allowed : List Nat} {qs : Tab Queue} (h : s.capChk o k allowed = none) :
    ({ s with sl := { s.sl with qs := qs } } : State).capChk o k allowed = none := h

theorem ran_streamModify {o : Org} {cid k : Nat} {desc : List Nat} {x : Stream} {p : LaneProg} (h : Served s o)
    (hc : s.capChk o k [stIdle, stRun, stStall, stBlock] = none) (hs : s.stream k = some x) (hf : s.modFault x desc = none)
    (hp : Tab.find (leAt desc 27 1) s.cap.progs = some p)
    (hl : p.id = x.cur.id ∨ ∀ l, l < 64 → bit (Nat.lor x.mask (leAt desc 40 8)) l = true → s.laneOld l = false) :
    Ran (.captureStreamModify o cid k desc) s (fun t =>
      t.stream k = some { x with drop := bit (leAt desc 0 4) 1, stall := leAt desc 28 2, mask := leAt desc 40 8, cur := p, desc := desc.take 512 } ∧
      (∀ j, j ≠ k → t.stream j = s.stream j) ∧ t.zn = s.zn ∧ Keeps s t [F.FRL_LSTS_BANK, F.FRL_LSTS_EPOCH] ∧
      (p = x.cur → t.regs = s.regs) ∧ Answers s t o cid stOk 0 []) := by
  obtain ⟨qs, hq⟩ := s.admBegin_eq o
  generalize hy : ({ x with drop := bit (leAt desc 0 4) 1, stall := leAt desc 28 2, mask := leAt desc 40 8, cur := p, desc := desc.take 512 } : Stream) = y
  let a : State := ({ s with sl := { s.sl with qs := qs } } : State).putStream k y
  let b : State := if p = x.cur then a else a.switchLanes (leAt desc 40 8) p.epoch
  have hgo : ¬ (p.id != x.cur.id && (List.range 64).any (fun l => bit (Nat.lor x.mask (leAt desc 40 8)) l &&
      ({ s with sl := { s.sl with qs := qs } } : State).laneOld l)) = true := by
    rw [Bool.and_eq_true, bne_iff_ne, List.any_eq_true]
    rintro ⟨hne, l, hml, hb⟩
    rw [Bool.and_eq_true] at hb
    rcases hl with hl | hl
    · exact hne hl
    · exact Bool.false_ne_true ((hl l (List.mem_range.1 hml) hb.1).symm.trans hb.2)
  have hx : execCaptureStreamModify o cid k desc s = .next (b.adm o cid stOk) := by
    unfold execCaptureStreamModify
    rw [admin_served h, hq]
    dsimp only
    rw [capChk_begun hc, show ({ s with sl := { s.sl with qs := qs } } : State).stream k = some x from hs]
    dsimp only
    rw [show ({ s with sl := { s.sl with qs := qs } } : State).modFault x desc = none from hf, hp]
    refine congrArg Host.Outcome.next ((if_neg hgo).trans ?_)
    rw [hy]
    rfl
  have hb : Only (Scope.regsOf [F.FRL_LSTS_BANK, F.FRL_LSTS_EPOCH]).bound a b := .ite (.refl a) (switchLanes_only ..)
  have hpx : p = x.cur → b = a := fun e => if_pos e
  have ha : a.cap.streams = Tab.put k y s.cap.streams ∧ a.zn = s.zn ∧ a.outs = s.outs ∧ a.regs = s.regs := ⟨rfl, rfl, rfl, rfl⟩
  generalize b = b at hx hb hpx
  generalize a = a at hb ha hpx
  have hbe : b.cap = a.cap ∧ b.zn = a.zn ∧ b.outs = a.outs := by
    rw [hb.frame]
    exact ⟨rfl, rfl, rfl⟩
  obtain ⟨a₁, a₂, a₃, a₄⟩ := ha
  obtain ⟨b₁, b₂, b₃⟩ := hbe
  have hcap := (b.adm_cap o cid stOk 0 []).1
  have hregs := b.adm_ok_regs o cid 0 []
  have hans := b.adm_answers o cid stOk 0 []
  have hzn := b.adm_zn o cid stOk 0 []
  generalize b.adm o cid stOk 0 [] = t at hx hcap hregs hans hzn
  have hst : t.cap.streams = Tab.put k y s.cap.streams := by rw [hcap, b₁, a₁]
  refine ⟨t, hx, ?_, fun j hj => ?_, hzn.trans (b₂.trans a₂), fun f i j q hne => ?_, fun e => ?_, Answers.of_outs hans (b₃.trans a₃)⟩
  · rw [stream, hst, Tab.find_put_same]
  · rw [stream, hst, Tab.find_put_ne _ _ hj, stream]
  · rw [rd, hregs]
    refine (hb.regs f i j q hne).trans ?_
    rw [rd, a₄, rd]
  · rw [hregs, hpx e, a₄]

/-! ### Start and Stop (05 R113, R114) -/

/-- Zones of a list that are in some states turn to another. -/
def turnZones (p : Nat → Prop) [DecidablePred p] (v : Nat) (l : List Nat) (s : State) : State :=
  l.foldl (fun (s : State) h => if p (s.zst h) then s.setZst h v else s) s

section
variable {p : Nat → Prop} [DecidablePred p] {v : Nat} (l : List Nat)

theorem turnZones_only (s : State) : Only .zones s (s.turnZones p v l) := .foldl fun s _ => .ite (setZst_only ..) (.refl s)

/-- Each zone of the list that is in one of the states has turned, and one that was in the new state stays so. -/
theorem turnZones_zst (hv : v < 16) (s : State) (h : Nat) (hh : h ∈ l ∧ p (s.zst h) ∨ s.zst h = v) : (s.turnZones p v l).zst h = v := by
  unfold turnZones
  induction l generalizing s with
  | nil => exact hh.elim (fun e => absurd e.1 (List.not_mem_nil)) id
  | cons a l ih =>
    have hs : (s.setZst a v).zst a = v := (setZst_zst ..).trans (Nat.mod_eq_of_lt hv)
    rw [List.foldl_cons]
    refine ih _ ?_
    by_cases ha : h = a
    · subst ha
      by_cases hp : p (s.zst h)
      · rw [if_pos hp]
        exact .inr hs
      · rw [if_neg hp]
        exact .inr (hh.elim (fun e => absurd e.2 hp) id)
    · have hne : (if p (s.zst a) then s.setZst a v else s).zst h = s.zst h := by
        split
        · exact setZst_zst_ne _ _ ha
        · rfl
      rw [hne]
      exact hh.imp (fun e => ⟨(List.mem_cons.1 e.1).resolve_left ha, e.2⟩) id

/-- Zones that turn leave streams, user data and namespaces alone. -/
theorem turnZones_keeps (s : State) : (s.turnZones p v l).cap = s.cap ∧ (s.turnZones p v l).zn.ud = s.zn.ud ∧ (s.turnZones p v l).zn.ns = s.zn.ns ∧
    (s.turnZones p v l).net.qps = s.net.qps := by
  have h := turnZones_only (p := p) (v := v) l s
  generalize s.turnZones p v l = t at h ⊢
  rw [h.frame]
  exact ⟨rfl, rfl, rfl, rfl⟩

end

/-- A Start of a stream that holds its zones turns those that it had closed. -/
theorem streamStart_eq {o : Org} {cid k i z : Nat} {x : Stream} {qs : Tab Queue} (h : Served s o) (hc : s.capChk o k [stIdle] = none)
    (hs : s.stream k = some x) (hi : x.set = some i) (hz : x.iz = some z) (hr : x.rdma = false)
    (hq : s.admBegin o = { s with sl := { s.sl with qs := qs } }) :
    execCaptureStreamStart o cid k s = .next ((((({ s with sl := { s.sl with qs := qs } } : State).putStream k
      { x with state := stRun, blk := 0, last := s.el }).turnZones (· = znClosed) znImp (s.setZones x i)).turnZones (· = znClosed) znImp
        [((({ s with sl := { s.sl with qs := qs } } : State).putStream k
          { x with state := stRun, blk := 0, last := s.el }).turnZones (· = znClosed) znImp (s.setZones x i)).sZone x (x.iFirst + z)]).adm o cid stOk) := by
  unfold execCaptureStreamStart
  rw [admin_served h, hq]
  dsimp only
  rw [capChk_begun hc, show ({ s with sl := { s.sl with qs := qs } } : State).stream k = some x from hs]
  cases x
  dsimp only at hi hz hr
  subst hi hz hr
  rfl

theorem ran_streamStart {o : Org} {cid k i z : Nat} {x : Stream} (h : Served s o) (hc : s.capChk o k [stIdle] = none) (hs : s.stream k = some x)
    (hi : x.set = some i) (hz : x.iz = some z) (hr : x.rdma = false) :
    Ran (.captureStreamStart o cid k) s (fun t => t.stream k = some { x with state := stRun, blk := 0, last := s.el } ∧
      (∀ h ∈ s.setZones x i, s.zst h = znClosed → t.zst h = znImp) ∧ t.zn.ud = s.zn.ud ∧ Replied t o cid stOk) := by
  obtain ⟨qs, hq⟩ := s.admBegin_eq o
  let a : State := ({ s with sl := { s.sl with qs := qs } } : State).putStream k { x with state := stRun, blk := 0, last := s.el }
  let b : State := a.turnZones (· = znClosed) znImp (s.setZones x i)
  let c (b : State) : State := b.turnZones (· = znClosed) znImp [b.sZone x (x.iFirst + z)]
  have hx : execCaptureStreamStart o cid k s = .next ((c b).adm o cid stOk) := streamStart_eq h hc hs hi hz hr hq
  have ha : a.cap.streams = Tab.put k { x with state := stRun, blk := 0, last := s.el } s.cap.streams ∧ a.zn.ud = s.zn.ud ∧ ∀ h, a.zst h = s.zst h :=
    ⟨rfl, rfl, fun _ => rfl⟩
  obtain ⟨a₁, a₂, a₃⟩ := ha
  obtain ⟨b₁, b₂, -, -⟩ := turnZones_keeps (p := (· = znClosed)) (v := znImp) (s.setZones x i) a
  have hbz (h : Nat) (hm : h ∈ s.setZones x i) (hcl : s.zst h = znClosed) : b.zst h = znImp :=
    turnZones_zst (p := (· = znClosed)) (s.setZones x i) (by decide) a h (.inl ⟨hm, (a₃ h).trans hcl⟩)
  generalize hbb : b = b at hx hbz
  rw [show a.turnZones (· = znClosed) znImp (s.setZones x i) = b from hbb] at b₁ b₂
  obtain ⟨c₁, c₂, -, -⟩ := turnZones_keeps (p := (· = znClosed)) (v := znImp) [b.sZone x (x.iFirst + z)] b
  have hcz (h : Nat) (hm : h ∈ s.setZones x i) (hcl : s.zst h = znClosed) : (c b).zst h = znImp :=
    turnZones_zst (p := (· = znClosed)) [b.sZone x (x.iFirst + z)] (by decide) b h (.inr (hbz h hm hcl))
  generalize hcc : c b = d at hx hcz
  rw [show b.turnZones (· = znClosed) znImp [b.sZone x (x.iFirst + z)] = d from hcc] at c₁ c₂
  have hcap := (d.adm_cap o cid stOk 0 []).1
  have hregs := d.adm_ok_regs o cid 0 []
  refine ⟨_, hx, ?_, fun h hm hcl => ?_, ?_, _, _, adm_replies ..⟩
  · rw [stream, hcap, c₁, b₁, a₁, Tab.find_put_same]
  · rw [zst, rd, hregs]
    exact hcz h hm hcl
  · rw [adm_zn, c₂, b₂, a₂]

theorem ran_streamStop {o : Org} {cid k : Nat} {x : Stream} (h : Served s o) (hc : s.capChk o k [stRun, stStall, stBlock] = none)
    (hs : s.stream k = some x) (hf : x.frames = []) (hst : x.stop = none) (hrx : x.rxAt = none) :
    Ran (.captureStreamStop o cid k) s (fun t => t.stream k = some { x with state := stIdle, blk := 0 } ∧
      (∀ i, x.set = some i → ∀ h ∈ s.setZones x i, isActive (s.zst h) = true → t.zst h = znClosed) ∧ t.zn.ud = s.zn.ud ∧
      Replied t o cid stOk) := by
  obtain ⟨qs, hq⟩ := s.admBegin_eq o
  generalize hy : ({ x with stop := some (o, cid) } : Stream) = y
  have hyf : y.frames = [] ∧ y.stop = some (o, cid) ∧ y.rxAt = none ∧ y.set = x.set ∧ y.iz = x.iz := by
    rw [← hy]
    exact ⟨hf, rfl, hrx, rfl, rfl⟩
  obtain ⟨y₁, y₂, y₃, y₄, y₅⟩ := hyf
  let a : State := ({ s with sl := { s.sl with qs := qs } } : State).putStream k y
  have has : a.stream k = some y := Tab.find_put_same ..
  have hx : execCaptureStreamStop o cid k s = .next (((a.dropMsg k).closeAll k).goOn k) := by
    unfold execCaptureStreamStop
    rw [admin_served h, hq]
    dsimp only
    rw [capChk_begun hc, show ({ s with sl := { s.sl with qs := qs } } : State).stream k = some x from hs]
    dsimp only
    rw [hst, hy]
    rfl
  have ha : a.cap.streams = Tab.put k y s.cap.streams ∧ a.zn.ud = s.zn.ud ∧ (∀ h, a.zst h = s.zst h) ∧ ∀ i, a.setZones y i = s.setZones x i := by
    refine ⟨rfl, rfl, fun _ => rfl, fun i => ?_⟩
    rw [← hy]
    rfl
  generalize a = a at hx has ha
  have h₁ : a.dropMsg k = a := by
    unfold dropMsg
    rw [has]
    dsimp only
    rw [y₃]
    rfl
  have h₂ : a.closeAll k = a := by
    unfold closeAll
    rw [has]
    dsimp only
    rw [y₁]
    rfl
  have h₃ : a.place k = a := by
    unfold place
    rw [has]
    dsimp only
    split
    · rfl
    · rw [show y.owner = none by rw [Stream.owner, y₁]; rfl]
  have h₄ : a.goOn k = a.stopEnd k := by
    unfold goOn
    rw [h₃, has, show ((some y).map (fun x : Stream => x.frames.length)).getD 0 = 0 by rw [Option.map_some, y₁]; rfl]
    unfold commitAll
    dsimp only
    rw [has]
    dsimp only
    rw [y₁]
    split <;> rfl
  rw [h₁, h₂, h₄] at hx
  obtain ⟨a₁, a₂, a₃, a₄⟩ := ha
  let hs' : List Nat := ((y.set.map (a.setZones y)).getD []) ++ ((y.iz.map (fun z => [a.sZone y (y.iFirst + z)])).getD [])
  let b : State := a.turnZones (fun z => isActive z = true) znClosed hs'
  have h₅ : a.stopEnd k = (b.putStream k { y with state := stIdle, blk := 0, stop := none }).adm o cid stOk := by
    unfold stopEnd
    rw [has]
    dsimp only
    rw [y₂]
    dsimp only
    rw [y₁]
    rfl
  rw [h₅] at hx
  obtain ⟨b₁, b₂, -, -⟩ := turnZones_keeps (p := fun z => isActive z = true) (v := znClosed) hs' a
  have hbz (h : Nat) (hm : h ∈ hs') (hcl : isActive (s.zst h) = true) : b.zst h = znClosed :=
    turnZones_zst (p := fun z => isActive z = true) hs' (by decide) a h (.inl ⟨hm, by rw [a₃]; exact hcl⟩)
  have hset (i : Nat) (hi : x.set = some i) (h : Nat) (hm : h ∈ s.setZones x i) : h ∈ hs' := by
    refine List.mem_append_left _ ?_
    rw [y₄, hi, Option.map_some, Option.getD_some, a₄]
    exact hm
  generalize hbb : b = b at hx hbz
  rw [show a.turnZones (fun z => isActive z = true) znClosed hs' = b from hbb] at b₁ b₂
  have hfin : ({ y with state := stIdle, blk := 0, stop := none } : Stream) = { x with state := stIdle, blk := 0 } := by
    rw [← hy]
    dsimp only
    rw [← hst]
  rw [hfin] at hx
  generalize ({ x with state := stIdle, blk := 0 } : Stream) = z at hx
  have hc' : (b.putStream k z).stream k = some z ∧ (b.putStream k z).zn = b.zn ∧ ∀ h, (b.putStream k z).zst h = b.zst h :=
    ⟨Tab.find_put_same .., rfl, fun _ => rfl⟩
  generalize b.putStream k z = d at hx hc'
  obtain ⟨c₁, c₂, c₃⟩ := hc'
  have hcap := (d.adm_cap o cid stOk 0 []).1
  have hregs := d.adm_ok_regs o cid 0 []
  refine ⟨_, hx, ?_, fun i hi h hm hcl => ?_, ?_, _, _, adm_replies ..⟩
  · rw [stream, hcap]
    exact c₁
  · rw [zst, rd, hregs]
    exact (c₃ h).trans (hbz h (hset i hi h hm) hcl)
  · rw [adm_zn, c₂, b₂, a₂]

/-! ### Delete (05 R114) -/

/-- Zones that a stream held and that it leaves. -/
def leaveZones (l : List Nat) (s : State) : State :=
  l.foldl (fun (s : State) h => (if isActive (s.zst h) then s.becomeFull h else s).holdBy h none) s

theorem leaveZones_keeps (l : List Nat) (s : State) : (s.leaveZones l).cap = s.cap := by
  have h : Only .pointers s (s.leaveZones l) := .foldl fun s h => ((Only.Work.putZx ..).also _ : Only .pointers _ _).after
    (.ite (becomeFull_only ..) (.refl s))
  generalize s.leaveZones l = t at h ⊢
  rw [h.frame]
  rfl

theorem find_del {α : Type} (k : Nat) (l : Tab α) : Tab.find k (Tab.del k l) = none ∧ ∀ j, j ≠ k → Tab.find j (Tab.del k l) = Tab.find j l :=
  ⟨Tab.find_del_same k l, fun _ hj => Tab.find_del_ne l hj⟩

theorem ran_streamDelete {o : Org} {cid k : Nat} {x : Stream} (h : Served s o) (hc : s.capChk o k [stIdle] = none) (hs : s.stream k = some x)
    (hr : x.recs = []) :
    Ran (.captureStreamDelete o cid k) s (fun t => t.stream k = none ∧ (∀ j, j ≠ k → t.stream j = s.stream j) ∧ Replied t o cid stOk) := by
  obtain ⟨qs, hq⟩ := s.admBegin_eq o
  let a : State := { s with sl := { s.sl with qs := qs } }
  have has : a.stream k = some x := hs
  have hidx : a.writeAllIdx k = a := by
    unfold writeAllIdx
    rw [has, Option.map_some, hr]
    rfl
  let l : List Nat := ((x.set.map (a.setZones x)).getD []) ++ ((x.iz.map (fun z => [a.sZone x (x.iFirst + z)])).getD [])
  let b : State := a.leaveZones l
  let c (b : State) : State := { b with cap := { b.cap with streams := Tab.del k b.cap.streams } }
  obtain ⟨d, hd, hx⟩ : ∃ d : State, d.cap = (c b).cap ∧ execCaptureStreamDelete o cid k s = .next (d.adm o cid stOk) := by
    unfold execCaptureStreamDelete
    rw [admin_served h, hq]
    dsimp only
    rw [capChk_begun hc]
    dsimp only
    rw [hidx, has]
    dsimp only
    refine ⟨_, ?_, rfl⟩
    split
    · split <;> rfl
    · rfl
  have hb : b.cap = a.cap := leaveZones_keeps l a
  have hds : d.cap.streams = Tab.del k s.cap.streams := by
    rw [hd]
    exact congrArg (fun c : CapSt => Tab.del k c.streams) hb
  have hcap := (d.adm_cap o cid stOk 0 []).1
  obtain ⟨f₁, f₂⟩ := find_del k s.cap.streams
  refine ⟨_, hx, ?_, fun j hj => ?_, _, _, adm_replies ..⟩
  · rw [stream, hcap, hds, f₁]
  · rw [stream, hcap, hds, f₂ j hj, stream]

end State

/-- Settles O7: every action ends in a completion that leaves the streams alone; the zones of a set turn one after the other. -/
theorem captureStreamManagementComplete : Obligations.CaptureStreamManagementComplete := by
  unfold Obligations.CaptureStreamManagementComplete
  exact ⟨fun o cid k desc n p s h hk hm hs hf hn hp => State.ran_streamCreate h hk hm hs hf hn hp,
    fun o cid k desc n p q s h hk hm hs hf hn hp => State.ran_streamCreateRdma h hk hm hs hf hn hp,
    fun o cid act k desc s => State.ran_streamAction cid k desc, fun o cid k desc x p s => State.ran_streamModify,
    fun o cid k i z x s => State.ran_streamStart, fun o cid k x s => State.ran_streamStop, fun o cid k x s => State.ran_streamDelete⟩

end Sys2Proof.Machine
end


section
/-! O10: connections on fabrics (13 R302–R304; 02 R42; 03 R68). -/

namespace Sys2Proof.Machine

namespace State
variable {s t : State}

/-- What is sent for no QP changes the link's queue and the outputs alone. -/
theorem sendNet_frame (s : State) (p u : Nat) (what : String) (args : List Nat) :
    s.sendNet p u what args = { s with outs := (s.sendNet p u what args).outs, net := { s.net with txq := (s.sendNet p u what args).net.txq } } := by
  unfold sendNet sendOn
  split <;> rfl

/-- What is sent for no QP is not dropped with one. -/
theorem sendNet_sends (s : State) (p u n : Nat) (what : String) (args : List Nat) : Out.net p u what args ∈ (s.sendNet p u what args).outs ∨
    ∃ e ∈ (s.sendNet p u what args).net.txq, e.2.2.2.2 = Out.net p u what args ∧ (e.2.2.2.1 != some n) = true := by
  unfold sendNet sendOn
  split
  · exact .inr ⟨_, List.mem_append_right _ (List.mem_singleton_self _), rfl, rfl⟩
  · exact .inl (List.mem_append_right _ (List.mem_singleton_self _))

/-! ### Requests (13 R302) -/

theorem ran_cmReq {p u dst ip vlan pmtu i mtu : Nat} (peer svc : Nat) (h : Arrives s p u dst ip vlan 1 false) (hf : s.fabricOn = true)
    (hi : (List.range qpMax).find? (fun i => (s.qp (i + 2)).isNone) = some i) (hm : mtuOf pmtu = some mtu) :
    Ran (.cmReq p u dst ip vlan peer svc pmtu) s (fun t => (∃ x, t.qp (i + 2) = some x ∧ x.port = p ∧ x.sub = u ∧ x.peer = peer ∧ x.svc = svc ∧
        x.err = false ∧ x.queue = none ∧ x.slice = none ∧ x.rc = s.lineQ p ∧ x.mtu = mtu) ∧
      Sent s t (.net p u "cm_rep" [peer, i + 2, mtu]) ∧
      t = { s with net := { s.net with qps := t.net.qps, txq := t.net.txq }, outs := t.outs }) := by
  generalize hx : (⟨p, u, peer, svc, none, none, none, none, false, mtu, s.rd F.ETH_QP_CFG_ACK_TMO p, s.rd F.ETH_QP_CFG_RETRY p,
    s.rd F.ETH_QP_CFG_RNR_RETRY p, 0, 0, s.lineQ p, s.lineQ p, 1, 0, s.el, s.el, s.el, none, []⟩ : Qp) = x
  have hxp : x.port = p ∧ x.sub = u ∧ x.peer = peer ∧ x.svc = svc ∧ x.err = false ∧ x.queue = none ∧ x.slice = none ∧ x.rc = s.lineQ p ∧ x.mtu = mtu := by
    rw [← hx]
    exact ⟨rfl, rfl, rfl, rfl, rfl, rfl, rfl, rfl, rfl⟩
  have he : execCmReq p u dst ip vlan peer svc pmtu s = .next ((s.putQp (i + 2) x).sendNet p u "cm_rep" [peer, i + 2, mtu]) := by
    unfold execCmReq
    rw [rxIn_of_arrives h]
    dsimp only
    rw [hf, if_pos rfl, hi, hm, ← hx]
    rfl
  have hs := sendNet_sent (s.putQp (i + 2) x) p u "cm_rep" [peer, i + 2, mtu]
  have hfr := sendNet_frame (s.putQp (i + 2) x) p u "cm_rep" [peer, i + 2, mtu]
  generalize (s.putQp (i + 2) x).sendNet p u "cm_rep" [peer, i + 2, mtu] = t at he hs hfr
  refine ⟨t, he, ⟨x, ?_, hxp⟩, hs, ?_⟩
  · rw [hfr]
    exact Tab.find_put_same ..
  · rw [hfr]
    rfl

/-! ### Connect (02 R42, R43, R50; 13 R304) -/

section
variable {qp : Nat} {x : Qp} (h : QpUp s qp x) (hq : x.queue = none) (hst : x.stream = none)
include h hq hst

theorem connect_new : ¬ (x.err || x.queue.isSome || x.stream.isSome) = true := by
  rw [h.ok, hq, hst]
  exact Bool.false_ne_true

theorem ran_discovery (cid qid size host sub kato a : Nat) (auth : Bool) (hd : x.svc = discSvc) :
    Ran (.connect qp cid qid size host sub kato a auth) s (fun t => Sent s t (.net x.port x.sub "discovery" ([qp, cid] ++ s.discovery host)) ∧
      t = { s with net := { s.net with txq := t.net.txq }, outs := t.outs }) := by
  refine ⟨s.sendQp qp (.net x.port x.sub "discovery" ([qp, cid] ++ s.discovery host)), ?_, sendQp_sent .., sendQp_eq ..⟩
  show execConnect qp cid qid size host sub kato a auth s = _
  unfold execConnect
  rw [qpIn_of_qpUp h, if_neg (connect_new h hq hst), if_pos hd]

theorem ran_connectUnbound (cid qid size host sub kato a : Nat) (auth : Bool) (hd : x.svc ≠ discSvc)
    (hb : ∀ b ∈ s.sl.nbind, ¬ (b.host = host ∧ b.sub = sub)) :
    Ran (.connect qp cid qid size host sub kato a auth) s (fun t => Sent s t (.net x.port x.sub "connect" [qp, cid, 1, 0x84]) ∧
      t = { s with net := { s.net with txq := t.net.txq }, outs := t.outs }) := by
  have hn : s.sl.nbind.find? (fun b => b.host = host && b.sub = sub) = none := List.find?_eq_none.2 fun b hm => by
    rw [Bool.and_eq_true, decide_eq_true_iff, decide_eq_true_iff]
    exact hb b hm
  refine ⟨s.connectBad x qp cid 0x84, ?_, sendQp_sent .., sendQp_eq ..⟩
  show execConnect qp cid qid size host sub kato a auth s = _
  unfold execConnect
  rw [qpIn_of_qpUp h, if_neg (connect_new h hq hst), if_neg hd, hn]

theorem ran_connect {cid host sub kato a i id : Nat} {b : NBind} (hd : x.svc ≠ discSvc)
    (hb : s.sl.nbind.find? (fun b => b.host = host && b.sub = sub) = some b) (ha : s.slState b.slice = slActive)
    (hf : s.qpFree b.slice = true) (hr : s.rd F.SLI_RES_USE_RCQP b.slice < s.rd F.SLI_RES_RCQP b.slice) (hi : s.freeIdx = some i)
    (hid : (List.range 65536).find? (fun i => (Tab.find i s.assocs).isNone) = some id) :
    Ran (.connect qp cid 0 32 host sub kato a false) s (fun t =>
      Tab.find i t.sl.qs = some (fabQueue b.slice b.idx id qp 0 2 (s.nextGen i) 32) ∧
      Tab.find id t.assocs = some ⟨host, sub, b.slice, kato, s.el, x.port, x.sub, i⟩ ∧
      t.qp qp = some { x with slice := some b.slice, queue := some i, assoc := some id } ∧
      t.rd F.SLI_RES_USE_QP b.slice = cut F.SLI_RES_USE_QP.w (s.rd F.SLI_RES_USE_QP b.slice + 1) ∧
      t.rd F.SLI_RES_USE_RCQP b.slice = cut F.SLI_RES_USE_RCQP.w (s.rd F.SLI_RES_USE_RCQP b.slice + 1) ∧
      Sent s t (.net x.port x.sub "connect" [qp, cid, 0, 0, id]) ∧ t.zn = s.zn ∧ t.fns = s.fns) := by
  generalize hQ : fabQueue b.slice b.idx id qp 0 2 (s.nextGen i) 32 = q
  generalize hA : (⟨host, sub, b.slice, kato, s.el, x.port, x.sub, i⟩ : Assoc) = v
  let m : State := { (((s.putQ i q).useQp b.slice).putQp qp { x with slice := some b.slice, queue := some i, assoc := some id }).addw
    F.SLI_RES_USE_RCQP 1 b.slice with assocs := Tab.put id v s.assocs }
  have hgone : ¬ (s.slState b.slice = slFenced || s.slState b.slice = slDeleting) = true := by
    rw [ha]
    decide
  have hact : ¬ (s.slState b.slice != slActive) = true := by
    rw [ha]
    decide
  have hroom : ¬ (false || !s.qpFree b.slice || decide (s.rd F.SLI_RES_USE_RCQP b.slice ≥ s.rd F.SLI_RES_RCQP b.slice)) = true := by
    rw [hf, decide_eq_false (Nat.not_le.2 hr)]
    exact Bool.false_ne_true
  have hx : execConnect qp cid 0 32 host sub kato a false s = .next (m.sendQp qp (.net x.port x.sub "connect" [qp, cid, 0, 0, id])) := by
    unfold execConnect
    rw [qpIn_of_qpUp h, if_neg (connect_new h hq hst), if_neg hd, hb]
    dsimp only
    rw [if_neg hgone, if_neg hact, if_neg hroom, if_neg (by decide)]
    refine congrArg Host.Outcome.next ((if_neg Bool.false_ne_true).trans ?_)
    rw [hi, if_pos rfl, hid]
    subst hQ hA
    rfl
  have hm : Tab.find i m.sl.qs = some q ∧ Tab.find id m.assocs = some v ∧
      m.qp qp = some { x with slice := some b.slice, queue := some i, assoc := some id } ∧ m.zn = s.zn ∧ m.fns = s.fns ∧ m.outs = s.outs ∧
      m.net.txq = s.net.txq :=
    ⟨Tab.find_put_same .., Tab.find_put_same .., Tab.find_put_same .., rfl, rfl, rfl, rfl⟩
  have hr₁ : m.rd F.SLI_RES_USE_QP b.slice = cut F.SLI_RES_USE_QP.w (s.rd F.SLI_RES_USE_QP b.slice + 1) :=
    (rd_wr_id (((s.putQ i q).useQp b.slice).putQp qp { x with slice := some b.slice, queue := some i, assoc := some id }) _ _ _ _ _ _ _ _ _ (by decide)).trans
      (rd_wr_same (s.putQ i q) F.SLI_RES_USE_QP (s.rd F.SLI_RES_USE_QP b.slice + 1) b.slice 0 0)
  have hr₂ : m.rd F.SLI_RES_USE_RCQP b.slice = cut F.SLI_RES_USE_RCQP.w (s.rd F.SLI_RES_USE_RCQP b.slice + 1) := by
    have hu : ((s.putQ i q).useQp b.slice).rd F.SLI_RES_USE_RCQP b.slice = s.rd F.SLI_RES_USE_RCQP b.slice :=
      rd_wr_id (s.putQ i q) _ _ _ _ _ _ _ _ _ (by decide)
    refine (rd_wr_same (((s.putQ i q).useQp b.slice).putQp qp { x with slice := some b.slice, queue := some i, assoc := some id }) F.SLI_RES_USE_RCQP
      _ b.slice 0 0).trans ?_
    rw [← hu]
    rfl
  generalize m = m at hx hm hr₁ hr₂
  obtain ⟨m₁, m₂, m₃, m₄, m₅, m₆, m₇⟩ := hm
  have hs := m.sendQp_sent qp (.net x.port x.sub "connect" [qp, cid, 0, 0, id])
  have hfr := m.sendQp_eq qp (.net x.port x.sub "connect" [qp, cid, 0, 0, id])
  generalize m.sendQp qp (.net x.port x.sub "connect" [qp, cid, 0, 0, id]) = t at hx hs hfr
  have hsent : Sent s t (.net x.port x.sub "connect" [qp, cid, 0, 0, id]) := by
    unfold Sent at hs ⊢
    rw [m₆, m₇] at hs
    exact hs
  refine ⟨t, hx, ?_, ?_, ?_, ?_, ?_, hsent, ?_, ?_⟩
  · rw [hfr]; exact m₁
  · rw [hfr]; exact m₂
  · rw [hfr]; exact m₃
  · rw [hfr]; exact hr₁
  · rw [hfr]; exact hr₂
  · rw [hfr]; exact m₄
  · rw [hfr]; exact m₅

end

/-! ### Keep Alive (13 R304) -/

theorem ran_keepAlive {a : Nat} {x : Assoc} (cid : Nat) (h : Served s (.fab a)) (hx : Tab.find a s.assocs = some x) :
    Ran (.keepAlive (.fab a) cid) s (fun t => Completes { s with assocs := Tab.put a { x with last := s.el } s.assocs } t (.fab a) cid 0 []) := by
  obtain ⟨h₁, h₂, h₃, h₄, h₅, n, h₆, h₇⟩ := h
  have hn : x.slice = n := by
    have : (Tab.find a s.assocs).map (·.slice) = some n := h₆
    rw [hx] at this
    exact Option.some.inj this
  have hm : Served { s with assocs := Tab.put a { x with last := s.el } s.assocs } (.fab a) := by
    refine ⟨h₁, h₂, h₃, h₄, h₅, n, ?_, h₇⟩
    show (Tab.find a (Tab.put a { x with last := s.el } s.assocs)).map (·.slice) = some n
    rw [Tab.find_put_same]
    exact congrArg some hn
  refine ⟨_, ?_, adm_completes (s := { s with assocs := Tab.put a { x with last := s.el } s.assocs }) hm.2.1 cid 0 []⟩
  show execKeepAlive (.fab a) cid s = _
  unfold execKeepAlive
  dsimp only
  rw [hx]
  dsimp only
  rw [if_neg (by rw [hn, h₇]; decide), admin_served hm]

/-- Associations and user data are as before. -/
structure SameAssocs (s t : State) : Prop where
  assocs : t.assocs = s.assocs
  ud : t.zn.ud = s.zn.ud

theorem SameAssocs.trans {u : State} (h : SameAssocs s t) (k : SameAssocs t u) : SameAssocs s u := ⟨k.assocs.trans h.assocs, k.ud.trans h.ud⟩

theorem SameAssocs.foldl {α : Type} {f : State → α → State} (l : List α) (h : ∀ s a, SameAssocs s (f s a)) (s : State) : SameAssocs s (l.foldl f s) := by
  induction l generalizing s with
  | nil => exact ⟨rfl, rfl⟩
  | cons a l ih => exact (h s a).trans (ih _)

theorem SameAssocs.of_ends (h : Only .ends s t) : SameAssocs s t := by
  rw [h.frame]
  exact ⟨rfl, rfl⟩

/-- The state once a QP is in Error and what it had to send is dropped. -/
def qpStopped (s : State) (n : Nat) (x : Qp) : State :=
  let a := s.putQp n { x with err := true }
  { a with net := { a.net with txq := a.net.txq.filter (fun e => e.2.2.2.1 != some n), asks := a.net.asks.filter (fun e => e.2.2.1 != n) } }

/-- A QP that enters Error: its packets are dropped, then its queue is reset and its message dropped. -/
theorem qpError_drop {n : Nat} {x : Qp} (hx : s.qp n = some x) (hok : x.err = false) : Only .drop (s.qpStopped n x) (s.qpError n) := by
  unfold qpError
  simp only [hx, hok, Bool.false_eq_true, if_false]
  have hmsg {t : State} (h : Only .drop (s.qpStopped n x) t) :
      Only .drop (s.qpStopped n x) (match x.stream with | some k => t.dropMsg k | none => t) := by
    split
    · exact (Only.Drop.dropMsg ..).after h
    · exact h
  refine hmsg ?_
  split
  · exact Only.fst (Only.Drop.queueReset (s.qpStopped n x) _)
  · exact .refl (s.qpStopped n x)

theorem qpError_assocs (s : State) (n : Nat) : SameAssocs s (s.qpError n) := by
  cases hx : s.qp n with
  | none =>
    unfold qpError
    rw [hx]
    exact ⟨rfl, rfl⟩
  | some x =>
    by_cases hok : x.err = true
    · unfold qpError
      rw [hx]
      dsimp only
      rw [if_pos hok]
      exact ⟨rfl, rfl⟩
    · have h := (qpError_drop hx (Bool.eq_false_iff.2 hok)).ends
      have hk : SameAssocs s (s.qpStopped n x) := ⟨rfl, rfl⟩
      exact hk.trans (SameAssocs.of_ends h)

/-- An association that ends is gone; the others and user data stay. -/
theorem endAssoc_spec (s : State) (a : Nat) : (s.endAssoc a).assocs = Tab.del a s.assocs ∧ (s.endAssoc a).zn.ud = s.zn.ud := by
  have hq (s : State) (i : Nat) : SameAssocs s (((s.queueReset i).1).removeQueue i) :=
    (SameAssocs.of_ends (Only.ends (Only.fst (Only.Drop.queueReset s i)))).trans (SameAssocs.of_ends (Only.Ends.removeQueue _ i))
  have key (ns qs : List Nat) : SameAssocs s ((qs.foldl (fun (s : State) i => ((s.queueReset i).1).removeQueue i) (ns.foldl State.qpError s)).dropCtl (.fab a)) :=
    ((SameAssocs.foldl ns qpError_assocs s).trans (SameAssocs.foldl qs hq _)).trans (SameAssocs.of_ends (Only.Ends.dropCtl _ _))
  unfold endAssoc
  dsimp only
  have h := key ((s.net.qps.filter (fun e => e.2.assoc = some a)).map (·.1)) ((s.sl.qs.filter (fun e => e.2.fabric && e.2.assoc = a)).map (·.1))
  generalize State.dropCtl _ _ = m at h
  exact ⟨congrArg (Tab.del a) h.assocs, h.ud⟩

theorem ran_keepAliveExpiry {a : Nat} {x : Assoc} (hx : Tab.find a s.assocs = some x) (hk : 0 < x.kato) (ht : x.last + x.kato * 1000000 ≤ s.el) :
    Ran (.keepAliveExpiry a) s (fun t => Tab.find a t.assocs = none ∧ (∀ b, b ≠ a → Tab.find b t.assocs = Tab.find b s.assocs) ∧ t.zn.ud = s.zn.ud) := by
  obtain ⟨h₁, h₂⟩ := s.endAssoc_spec a
  obtain ⟨d₁, d₂⟩ := find_del a s.assocs
  have hgo : (decide (x.kato > 0) && decide (x.last + x.kato * 1000000 ≤ s.el)) = true := by
    rw [decide_eq_true hk, decide_eq_true ht]
    rfl
  refine ⟨s.endAssoc a, ?_, by rw [h₁]; exact d₁, fun b hb => by rw [h₁]; exact d₂ b hb, h₂⟩
  show execKeepAliveExpiry a s = _
  unfold execKeepAliveExpiry
  rw [hx]
  exact congrArg Host.Outcome.next (if_pos hgo)

/-! ### Capsules and the end of a QP (13 R302–R304) -/

/-- Work that reaches a controller in neither Doze nor Nap is noted, and nothing else changes (18 R396). -/
theorem work_busy (h₁ : s.rd F.PWR_STS_STATE ≠ pwDoze) (h₂ : s.rd F.PWR_STS_STATE ≠ pwNap) : s.work = s.busy := by
  simp [work, wakeUp, busy, h₁, h₂]

/-- The state once a capsule waits in its queue, before the association's timer starts anew. -/
def capsuled (s : State) (i : Nat) (q : Queue) (st : Arr) : State :=
  let a := s.busy.putQ i { q with pend := q.pend ++ [st], hadWork := true }
  a.putSx q.slice { a.sx q.slice with hadWork := true }

theorem ran_capsule {qp cid sgls i : Nat} {sglOk inl : Bool} {x : Qp} {q : Queue} (h : QpUp s qp x) (hi : x.queue = some i)
    (hq : Tab.find i s.sl.qs = some q) (h0 : q.qid ≠ 0) (hs : s.slState q.slice ≠ slResetting) (hr : s.resetting i = false)
    (hn : s.rd F.PWR_STS_STATE ≠ pwNap) : Ran (.commandCapsule qp cid sgls sglOk inl) s (fun t =>
      Tab.find i t.sl.qs = some { q with pend := q.pend ++ [s.stamp q (some cid) (sgls > 1 || !sglOk) inl], hadWork := true } ∧
      (∀ j, j ≠ i → Tab.find j t.sl.qs = Tab.find j s.sl.qs) ∧
      Tab.find q.assoc t.assocs = (Tab.find q.assoc s.assocs).map (fun v => { v with last := s.el }) ∧
      t.outs = s.outs ∧ t.zn = s.zn ∧ t.regs = s.regs) := by
  have hw := work_busy h.run hn
  let m := s.capsuled i q (s.stamp q (some cid) (sgls > 1 || !sglOk) inl)
  have hx : execCommandCapsule qp cid sgls sglOk inl s = .next (match Tab.find q.assoc m.assocs with
      | some v => { m with assocs := Tab.put q.assoc { v with last := m.el } m.assocs }
      | none => m) := by
    unfold execCommandCapsule
    rw [qpIn_of_qpUp h, hi]
    dsimp only
    rw [hq]
    dsimp only
    rw [if_neg (by rw [h.ok, decide_eq_false h0]; exact Bool.false_ne_true), if_neg (by rw [hr, decide_eq_false hs]; exact Bool.false_ne_true), hw]
    rfl
  have hm : Tab.find i m.sl.qs = some { q with pend := q.pend ++ [s.stamp q (some cid) (sgls > 1 || !sglOk) inl], hadWork := true } ∧
      (∀ j, j ≠ i → Tab.find j m.sl.qs = Tab.find j s.sl.qs) ∧ m.assocs = s.assocs ∧ m.outs = s.outs ∧ m.zn = s.zn ∧ m.regs = s.regs ∧ m.el = s.el :=
    ⟨Tab.find_put_same .., fun j hj => Tab.find_put_ne _ _ hj, rfl, rfl, rfl, rfl, rfl⟩
  generalize m = m at hx hm
  obtain ⟨m₁, m₂, m₃, m₄, m₅, m₆, m₇⟩ := hm
  rw [m₃, m₇] at hx
  cases hv : Tab.find q.assoc s.assocs with
  | none =>
    rw [hv] at hx
    exact ⟨m, hx, m₁, m₂, by rw [m₃, hv]; rfl, m₄, m₅, m₆⟩
  | some v =>
    rw [hv] at hx
    exact ⟨_, hx, m₁, m₂, Tab.find_put_same .., m₄, m₅, m₆⟩

theorem ran_cmDreq {qp : Nat} {x : Qp} (h : QpUp s qp x) : Ran (.cmDreq qp) s (fun t =>
    t.qp qp = some { x with err := true } ∧ Sys2Proof.Sends t (.net x.port x.sub "cm_drep" [qp]) ∧ t.zn.ud = s.zn.ud) := by
  have hx : execCmDreq qp s = .next ((s.sendNet x.port x.sub "cm_drep" [qp]).qpError qp) := by
    unfold execCmDreq
    rw [qpIn_of_qpUp h]
  have hs := sendNet_sends s x.port x.sub qp "cm_drep" [qp]
  have hf := sendNet_frame s x.port x.sub "cm_drep" [qp]
  generalize s.sendNet x.port x.sub "cm_drep" [qp] = m at hx hs hf
  have hmq : m.qp qp = some x := by
    rw [hf]
    exact h.qp
  have hmu : m.zn.ud = s.zn.ud := by rw [hf]
  have hd := qpError_drop hmq h.ok
  obtain ⟨h₁, h₂⟩ := qpError_err hmq h.ok
  have hk : (m.qpError qp).outs = m.outs ∧ (m.qpError qp).net.txq = m.net.txq.filter (fun e => e.2.2.2.1 != some qp) := by
    rw [hd.frame]
    exact ⟨rfl, rfl⟩
  refine ⟨_, hx, h₁, ?_, h₂.trans hmu⟩
  rcases hs with ho | ⟨e, he, heq, hne⟩
  · exact .inl (by rw [hk.1]; exact ho)
  · exact .inr ⟨e, by rw [hk.2]; exact List.mem_filter.2 ⟨he, hne⟩, heq⟩

end State

/-- Settles O10: each packet passes its QP, and what ends an association resets and removes queues, which leaves the other associations alone. -/
theorem fabricConnectionsComplete : Obligations.FabricConnectionsComplete := by
  unfold Obligations.FabricConnectionsComplete
  exact ⟨fun p u dst ip vlan peer svc pmtu i mtu s => State.ran_cmReq peer svc, fun qp cid host sub kato a i id x b s h hq hst =>
      State.ran_connect h hq hst, fun qp cid qid size host sub kato a auth x s h hq hst => State.ran_connectUnbound h hq hst cid qid size host sub kato a auth,
    fun qp cid qid size host sub kato a auth x s h hq hst => State.ran_discovery h hq hst cid qid size host sub kato a auth,
    fun cid a x s => State.ran_keepAlive cid, fun a x s => State.ran_keepAliveExpiry, fun qp cid sgls i sglOk inl x q s => State.ran_capsule,
    fun qp x s => State.ran_cmDreq⟩

end Sys2Proof.Machine
end


section
/-! O20: the operations of dies (09 R209–R216; 08 R194). -/

namespace Sys2Proof.Machine

/-- The flit joined the direction's replay buffer, and what is left of its transfer waits. -/
def LDir.sent (d : LDir) (now : Nat) (f : Flit) (x : Xfer) : LDir :=
  { d with
    next := (d.next + 1) % 256
    replay := d.replay ++ [f]
    ackAt := if d.replay.isEmpty then now else d.ackAt
    progAt := if d.replay.isEmpty then now else d.progAt
    out := if x.left ≤ 1 then d.out.erase x else { x with left := x.left - 1 } :: d.out.erase x }

/-- A transfer's next flit. -/
def LDir.flit (d : LDir) (x : Xfer) : Flit := ⟨d.next, x.ty, x.bridge, x.last && x.left ≤ 1, x.tag, x.pay⟩

theorem LDir.sent_out {d : LDir} {now : Nat} {f : Flit} {x y : Xfer} (hx : x ∈ d.out) (hne : x ≠ y) : x ∈ (d.sent now f y).out := by
  have he : x ∈ d.out.erase y := (List.mem_erase_of_ne hne).2 hx
  show x ∈ if y.left ≤ 1 then _ else _
  split
  · exact he
  · exact List.mem_cons_of_mem _ he

namespace State
variable {s : State}

/-! ### What an issue changes (09 R213, R216; 03 R75) -/

/-- What charging, tagging and sending operations changes. -/
def Scope.issue : Scope where
  merge s t := { s with regs := t.regs, sl := t.sl, kz := t.kz, outs := t.outs }
  fields := [F.LGR_SL_CHG_CHG, F.LGR_SL_NORM_N]

theorem charge_eq (s : State) (slice : Nat) (q : Option Nat) (c : Nat) : ∃ regs sl, s.charge slice q c = { s with regs := regs, sl := sl } := by
  unfold charge
  dsimp only
  split
  · exact ⟨_, _, rfl⟩
  · split
    · exact ⟨_, _, rfl⟩
    · exact ⟨_, _, rfl⟩

theorem payOp_eq (s : State) (o : DOp) (c : Nat) : ∃ regs sl, s.payOp o c = { s with regs := regs, sl := sl } := by
  unfold payOp
  split
  · obtain ⟨regs, sl, h⟩ := s.charge_eq 0 none c
    exact ⟨regs, _, by rw [chargeBg, h]⟩
  · exact s.charge_eq ..

theorem payOps_eq (f : DOp → Nat) (os : List DOp) : ∀ s : State, ∃ regs sl, os.foldl (fun (s : State) p => s.payOp p (f p)) s =
    { s with regs := regs, sl := sl } := by
  induction os with
  | nil => exact fun s => ⟨s.regs, s.sl, rfl⟩
  | cons o os ih =>
    intro s
    obtain ⟨regs, sl, h⟩ := s.payOp_eq o (f o)
    obtain ⟨regs', sl', h'⟩ := ih { s with regs := regs, sl := sl }
    exact ⟨regs', sl', by rw [List.foldl_cons, h, h']⟩

theorem takeTag_eq (s : State) (l id : Nat) : ∃ kz, s.takeTag l id = { s with kz := kz } ∧ ((s.takeTag l id).link8 l).hops = (s.link8 l).hops := by
  unfold takeTag
  dsimp only
  split
  · exact ⟨_, rfl, by rw [link8_putLink8]⟩
  · exact ⟨_, rfl, rfl⟩

/-! ### An envelope is sent, or waits (08 R194, R196) -/

/-- The flit was sent and recorded, before its credit is taken. -/
def sentOn (s : State) (l h : Nat) (up : Bool) (x : Xfer) : State :=
  (s.sendFlit l h up (((s.hop l h).dir up).flit x)).putHop l h
    ((s.hop l h).putDir up (((s.hop l h).dir up).sent s.el (((s.hop l h).dir up).flit x) x))

theorem sendXfer_eq (s : State) (l h : Nat) (up : Bool) (x : Xfer) : s.sendXfer l h up x = s.sentOn l h up x ∨
    ∃ k, s.sendXfer l h up x = (s.sentOn l h up x).putLink8 l k ∧ k.hops = ((s.sentOn l h up x).link8 l).hops := by
  unfold sendXfer
  dsimp only
  split
  · exact .inr ⟨_, by rfl, by rfl⟩
  · split
    · exact .inr ⟨_, by rfl, by rfl⟩
    · exact .inl rfl

/-- What waits at a direction still waits, or was sent, once one flit went. -/
theorem sendXfer_waits {l h : Nat} {up : Bool} (hh : h < (s.link8 l).hops.length) {x : Xfer} (hx : x ∈ ((s.hop l h).dir up).out) (y : Xfer) :
    x ∈ (((s.sendXfer l h up y).hop l h).dir up).out ∨ ∃ hdr, Out.kz l (flitName x.ty) ([h, b2n up, hdr] ++ x.pay) ∈ (s.sendXfer l h up y).outs := by
  have hd : ((s.sentOn l h up y).hop l h).dir up = ((s.hop l h).dir up).sent s.el (((s.hop l h).dir up).flit y) y := by
    rw [sentOn, hop_putHop (s := s.sendFlit l h up (((s.hop l h).dir up).flit y)) hh, Hop.dir_putDir]
  have hr : (s.sendXfer l h up y).outs = (s.sentOn l h up y).outs ∧ (s.sendXfer l h up y).hop l h = (s.sentOn l h up y).hop l h := by
    obtain he | ⟨k, he, hk⟩ := s.sendXfer_eq l h up y
    · rw [he]
      exact ⟨rfl, rfl⟩
    · rw [he, hop_putLink8, hk]
      exact ⟨rfl, rfl⟩
  rw [hr.1, hr.2, hd]
  by_cases hy : x = y
  · subst hy
    exact .inr ⟨_, List.mem_append_right _ (List.mem_singleton_self _)⟩
  · exact .inl (LDir.sent_out hx hy)

theorem pump_waits {l h : Nat} {up : Bool} (n : Nat) {x : Xfer} : ∀ s : State, h < (s.link8 l).hops.length → x ∈ ((s.hop l h).dir up).out →
    x ∈ (((State.pump l h up n s).hop l h).dir up).out ∨
      ∃ hdr, Out.kz l (flitName x.ty) ([h, b2n up, hdr] ++ x.pay) ∈ (State.pump l h up n s).outs := by
  induction n with
  | zero => exact fun s _ hx => .inl hx
  | succ n ih =>
    intro s hh hx
    rw [pump]
    split
    · exact .inl hx
    · split
      · exact .inl hx
      · next y _ =>
        have hl := (sendXfer_sends (up := up) hh y).len
        obtain hw | ⟨hdr, ho⟩ := sendXfer_waits hh hx y
        · exact ih _ (by rw [hl]; exact hh) hw
        · obtain ⟨r, hr⟩ := (pump_sent n (s.sendXfer l h up y)).outs
          exact .inr ⟨hdr, by rw [hr]; exact List.mem_append_left _ ho⟩

theorem envelope_sent {d code : Nat} (o : DOp) (join : Bool) (hh : 0 < (s.link8 (d / 64)).hops.length) :
    ∃ tag, (∃ x ∈ (((s.envelope d code o join).hop (d / 64) 0).dir false).out, x.ty = 1 ∧ x.pay = s.envBytes d code o tag join) ∨
      ∃ hdr, Out.kz (d / 64) "COMMAND" ([0, 0, hdr] ++ s.envBytes d code o tag join) ∈ (s.envelope d code o join).outs := by
  unfold envelope pushFlits
  dsimp only
  generalize hp : Hop.putDir _ _ _ = p
  have hx (rest : List Xfer) (n : Nat) (hq : p = (s.hop (d / 64) 0).putDir false { (s.hop (d / 64) 0).dir false with out := ((s.hop (d / 64) 0).dir false).out ++
      ([⟨some o, 1, d % 64 / 16, n = 0, s.tagOf (d / 64) o.id, 1, s.envBytes d code o (s.tagOf (d / 64) o.id) join⟩] ++ rest) }) :
      (⟨some o, 1, d % 64 / 16, n = 0, s.tagOf (d / 64) o.id, 1, s.envBytes d code o (s.tagOf (d / 64) o.id) join⟩ : Xfer) ∈
        (((s.putHop (d / 64) 0 p).hop (d / 64) 0).dir false).out := by
    rw [hop_putHop hh, hq, Hop.dir_putDir]
    exact List.mem_append_right _ (List.mem_append_left _ (List.mem_singleton_self _))
  have hl : 0 < ((s.putHop (d / 64) 0 p).link8 (d / 64)).hops.length := by
    rw [link8_putHop]
    exact (List.length_set ..).symm ▸ hh
  refine ⟨s.tagOf (d / 64) o.id, ?_⟩
  obtain hw | hs := pump_waits (up := false) replayMax (s.putHop (d / 64) 0 p) hl (hx _ _ hp.symm)
  · exact .inl ⟨_, hw, rfl, rfl⟩
  · exact .inr hs

/-! ### The issue -/

/-- An operation as it is issued: a read's offsets are computed. -/
def withOffs (s : State) (d : Nat) (p : DOp) : DOp := if p.kind = .read then { p with lad := { p.lad with offs := s.readOffs d p } } else p

/-- The record of a die that runs an operation and those merged into it. -/
def running (s : State) (d : Nat) (all : List DOp) : DieSt :=
  { s.dieOf d with cur := all.head?, merged := all.tail, curAt := s.el, queue := s.fillQueue (s.dieOf d) all }

theorem issueOp_issue (s : State) (d : Nat) (o : DOp) : Only Scope.issue.bound (s.putDie d (s.running d ((o :: s.mergeSet d o).map (s.withOffs d)))) (s.issueOp d o) := by
  have hpay (m : State) (p : DOp) (c : Nat) : Only Scope.issue.bound m (m.payOp p c) := by
    have hc (n : Nat) (q : Option Nat) (c : Nat) : Only Scope.issue.bound m (m.charge n q c) := by
      have ha : Only Scope.issue.bound m ((m.addw F.LGR_SL_CHG_CHG c (if m.slState n = slFree then 0 else n))) := .addw (by decide) ..
      unfold charge
      dsimp only
      generalize (if m.slState n = slFree then 0 else n) = sl at ha ⊢
      have hp (m : State) (n : Nat) (x : SliceX) : Only Scope.issue.bound m (m.putSx n x) := Only.upd rfl
      split
      · exact (hp ..).after (.after (.wr (by decide) ..) ha)
      · split
        · exact (hp ..).after (.after (.wr (by decide) ..) ha)
        · exact .after (Only.upd rfl) ((hp ..).after (.after (.wr (by decide) ..) ha))
    unfold payOp
    split
    · exact .after (Only.upd rfl) (hc ..)
    · exact hc ..
  have htag (m : State) (l id : Nat) : Only Scope.issue.bound m (m.takeTag l id) := by
    obtain ⟨kz, h, -⟩ := m.takeTag_eq l id
    rw [h]
    exact Only.upd rfl
  have henv (m : State) (c : Nat) (p : DOp) (j : Bool) : Only Scope.issue.bound m (m.envelope d c p j) :=
    (envelope_flits m d c p j).widen (fun _ _ => rfl) (by decide)
  exact .after (.foldl fun m p => (henv ..).after (htag ..)) (.foldl fun m p => hpay ..)

theorem mergeSet_none {d : Nat} {o : DOp} (hk : o.kind ≠ .read) : s.mergeSet d o = [] := by
  have hj (a : List DOp × Nat) : (s.dieOf d).inQueue.filter (fun p => s.joins d o a.2 (a.1.length + 1) p && !a.1.any (fun q => q.id = p.id)) = [] :=
    List.filter_eq_nil_iff.2 fun p _ => by simp [joins, hk]
  unfold mergeSet
  rw [List.foldl_fixed' fun _ => by rw [hj]; rfl]

theorem running_id (s : State) (d : Nat) (p : DOp) : (s.withOffs d p).id = p.id := by
  unfold withOffs
  split
  · rfl
  · rfl

theorem fillQueue_ids {x : DieSt} {as bs : List DOp} (h : as.map (·.id) = bs.map (·.id)) : s.fillQueue x as = s.fillQueue x bs := by
  have ha (p : DOp) : as.any (fun r => decide (r.id = p.id)) = bs.any (fun r => decide (r.id = p.id)) := by
    have hm (cs : List DOp) : cs.any (fun r => decide (r.id = p.id)) = (cs.map (·.id)).any (fun n => decide (n = p.id)) := by
      rw [List.any_map]
      rfl
    rw [hm, hm, h]
  unfold fillQueue
  simp only [ha]

/-- The winner of a free die without a suspended erase is issued. -/
theorem dieIssue_free {d : Nat} {o : DOp} {er : List DOp} (hw : s.works d = true) (hc : (s.dieOf d).cur = none) (he : (if (s.dieOf d).between.isNone then
      (s.dieOf d).susp.toList else []) = er) (hn : (s.dieOf d).susp ≠ some o)
    (ho : s.bestOp (er ++ (s.dieOf d).inQueue.filter (fun p => (s.dieOf d).startOk p && !s.noErase p)) = some o) : s.dieIssue d = s.issueOp d o := by
  unfold dieIssue
  dsimp only
  rw [hw, hc]
  dsimp only
  rw [he, ho]
  exact if_neg hn

/-- The record of the die after an issue, and what an issue leaves. -/
theorem issueOp_spec (s : State) (d : Nat) (o : DOp) : (s.issueOp d o).dieOf d = s.running d ((o :: s.mergeSet d o).map (s.withOffs d)) ∧
    (∀ e, e ≠ d → (s.issueOp d o).dieOf e = s.dieOf e) ∧ (s.issueOp d o).zn = s.zn := by
  have h := (s.issueOp_issue d o).rel.1
  rw [h]
  exact ⟨dieOf_putDie_same .., fun e he => dieOf_putDie_ne s _ he, rfl⟩

/-- An envelope's bytes name the block, the die's geometry and the row. -/
theorem envBytes_congr {t : State} {d : Nat} {o : DOp} (hb : t.blkOf ⟨d, o.blk⟩ = s.blkOf ⟨d, o.blk⟩) (hd : t.descOf d = s.descOf d)
    (hr : t.srow o.row = s.srow o.row) (c tag : Nat) (j : Bool) : t.envBytes d c o tag j = s.envBytes d c o tag j := by
  unfold envBytes readSpan foldSrcs
  rw [hb, hd, hr]

theorem issueOp_one {d : Nat} {o : DOp} (hk : o.kind ≠ .read) : ∃ c, s.issueOp d o =
    (((s.putDie d (s.running d [o])).payOp o c).takeTag (d / 64) o.id).envelope d (opcodeOf o.kind) o false := by
  have hj : (o.id != o.id) = false := bne_self_eq_false ..
  unfold issueOp
  dsimp only
  rw [mergeSet_none hk, List.map_singleton, if_neg hk]
  dsimp only [List.foldl_cons, List.foldl_nil, List.getLast?_singleton, Option.map_some, Option.getD_some]
  rw [hj]
  exact ⟨_, rfl⟩

theorem issueOp_sent {d : Nat} {o : DOp} (hk : o.kind ≠ .read) (hh : 0 < (s.link8 (d / 64)).hops.length) : Enveloped s (s.issueOp d o) d o := by
  obtain ⟨c, hx⟩ := s.issueOp_one (d := d) hk
  obtain ⟨regs, sl, hp⟩ := (s.putDie d (s.running d [o])).payOp_eq o c
  obtain ⟨kz, he, hl⟩ := ((s.putDie d (s.running d [o])).payOp o c).takeTag_eq (d / 64) o.id
  rw [hx]
  generalize ((s.putDie d (s.running d [o])).payOp o c).takeTag (d / 64) o.id = m at he hl ⊢
  have hdie : m.die = { s.die with dies := Tab.put d (s.running d [o]) s.die.dies } := by rw [he, hp]; rfl
  have hdd : m.dieOf d = s.running d [o] := by
    rw [dieOf, hdie]
    exact dieOf_putDie_same s d _
  have hrow : m.srow o.row = s.srow o.row := by rw [he, hp]; rfl
  have hb (tag : Nat) : m.envBytes d (opcodeOf o.kind) o tag false = s.envBytes d (opcodeOf o.kind) o tag false :=
    envBytes_congr (by rw [blkOf, hdie]; rfl) (by rw [descOf, hdd, hdie]; rfl) hrow ..
  have hm : 0 < (m.link8 (d / 64)).hops.length := by
    rw [hl, hp]
    exact hh
  obtain ⟨tag, hs⟩ := m.envelope_sent o false hm
  rw [hb] at hs
  exact ⟨tag, hs⟩

/-! ### The raw sense buffer (10 R240, R241; 02 R52) -/

/-- A read whose stamps are those of its slice and queue enters the buffer. -/
theorem sensed_live {d : Nat} {o : DOp} (hh : o.purp = .host → s.live o.slice o.q o.genS o.genQ = true ∧ (s.cmdFor o.q o.cid o.arr).isSome = true)
    (hr : o.purp = .recon → s.live o.slice o.q o.genS o.genQ = true) : s.sensed d o = s.toBuffer d o := by
  unfold sensed
  split
  · next h =>
    have hp : o.purp = .host ∨ o.purp = .recon := by simpa using (Bool.and_eq_true_iff.1 h).1
    have hl : s.live o.slice o.q o.genS o.genQ = true := hp.elim (fun e => (hh e).1) hr
    rw [hl]
    refine (if_neg (by decide)).trans (if_neg ?_)
    intro hn
    obtain ⟨he, hc⟩ := Bool.and_eq_true_iff.1 hn
    rw [Option.isNone_iff_eq_none] at hc
    exact absurd (hh (of_decide_eq_true he)).2 (by rw [hc]; decide)
  · rfl

/-- The codeword with number `n`, once it waits, is the read `o` of die `d`, without faults, whatever its decoder. -/
structure Buffers (n d : Nat) (o : DOp) (ws : List CwJob) : Prop where
  some : ∃ w ∈ ws, w.id = n
  only : ∀ w ∈ ws, w.id = n → w.die = d ∧ w.op = o ∧ w.faults = 0

theorem Buffers.put {n d : Nat} {o : DOp} {ws : List CwJob} (h : Buffers n d o ws) {w : CwJob} (hw : w.id = n → w.die = d ∧ w.op = o ∧ w.faults = 0) :
    Buffers n d o (ws.map (fun (v : CwJob) => if v.id = w.id then w else v)) := by
  constructor
  · obtain ⟨v, hv, hn⟩ := h.some
    refine ⟨_, List.mem_map_of_mem hv, ?_⟩
    split
    · next e => exact e ▸ hn
    · exact hn
  · intro v hv hn
    obtain ⟨u, hu, rfl⟩ := List.mem_map.1 hv
    by_cases e : u.id = w.id
    · rw [if_pos e] at hn ⊢
      exact hw hn
    · rw [if_neg e] at hn ⊢
      exact h.only u hu hn

theorem mem_of_ins {α : Type} {le : α → α → Bool} {x y : α} {l : List α} (h : y ∈ insSort.ins le x l) : y = x ∨ y ∈ l := by
  induction l with
  | nil => exact .inl (List.mem_singleton.1 h)
  | cons z l ih =>
    rw [insSort.ins] at h
    split at h
    · exact List.mem_cons.1 h
    · obtain rfl | h := List.mem_cons.1 h
      · exact .inr (List.mem_cons_self ..)
      · exact (ih h).imp_right (List.mem_cons_of_mem _)

theorem mem_of_insSort {α : Type} {le : α → α → Bool} {y : α} {l : List α} (h : y ∈ insSort le l) : y ∈ l := by
  induction l with
  | nil => exact h
  | cons x l ih =>
    obtain rfl | h := mem_of_ins h
    · exact List.mem_cons_self ..
    · exact List.mem_cons_of_mem _ (ih h)

/-- The codewords and the count of soft ones alone change as decoders are given out. -/
theorem assign_spec {n d : Nat} {o : DOp} (h : Buffers n d o s.die.cws) : Buffers n d o s.assign.die.cws ∧
    ∃ cws v, s.assign = State.wr { s with die := { s.die with cws := cws } } F.RCH_DEC_STS_SOFT v := by
  unfold assign
  dsimp only
  have hm : ∀ w ∈ insSort (fun a b : CwJob => !(s.opKey b.op).beats (s.opKey a.op)) (s.die.cws.filter (fun w => w.dec.isNone)), w ∈ s.die.cws :=
    fun w hw => List.mem_of_mem_filter (mem_of_insSort hw)
  generalize insSort _ _ = ws at hm ⊢
  generalize ht : List.foldl _ s ws = t
  have hf : Buffers n d o t.die.cws ∧ ∃ cws, t = { s with die := { s.die with cws := cws } } := by
    rw [← ht]
    refine List.foldlRecOn (motive := fun t : State => Buffers n d o t.die.cws ∧ ∃ cws, t = { s with die := { s.die with cws := cws } }) ws _
      ⟨h, s.die.cws, rfl⟩ fun t ht w hw => ?_
    split
    · exact ht
    · split
      · obtain ⟨hb, cws, he⟩ := ht
        exact ⟨hb.put (h.only w (hm w hw)), _, by rw [he]; rfl⟩
      · exact ht
  obtain ⟨hb, cws, he⟩ := hf
  exact ⟨hb, cws, _, by rw [he]⟩

theorem toBuffer_spec {d : Nat} (o : DOp) (hn : ∀ w ∈ s.die.cws, w.id ≠ s.die.nextId) : (∃ w ∈ (s.toBuffer d o).die.cws, w.die = d ∧ w.op = o ∧ w.faults = 0) ∧
    (∀ e, (s.toBuffer d o).dieOf e = s.dieOf e) ∧ (s.toBuffer d o).zn = s.zn ∧ Rests s (s.toBuffer d o) := by
  have hb : Buffers s.die.nextId d o (s.die.cws ++ [CwJob.mk s.fresh d o none s.el 0]) := by
    refine ⟨⟨_, List.mem_append_right _ (List.mem_singleton_self _), rfl⟩, fun w hw he => ?_⟩
    obtain hw | hw := List.mem_append.1 hw
    · exact absurd he (hn w hw)
    · rw [List.mem_singleton.1 hw]
      exact ⟨rfl, rfl, rfl⟩
  obtain ⟨hb', cws, v, he⟩ :=
    ({ s.bump with die := { s.bump.die with cws := s.die.cws ++ [CwJob.mk s.fresh d o none s.el 0] } } : State).assign_spec hb
  have hx : s.toBuffer d o = State.wr { s with die := { s.die with nextId := s.die.nextId + 1, cws := cws } } F.RCH_DEC_STS_SOFT v := he
  obtain ⟨w, hw, hi⟩ := hb'.some
  refine ⟨⟨w, hw, hb'.only w hw hi⟩, ?_, ?_, ?_⟩
  · rw [hx]
    exact fun _ => rfl
  · rw [hx]
    rfl
  · rw [hx]
    exact ⟨rfl, rfl, rfl, rfl, id, fun _ h => h, rfl, rd_wr_id _ _ _ _ _ _ _ _ _ _ (by decide), rd_wr_id _ _ _ _ _ _ _ _ _ _ (by decide),
      rd_wr_id _ _ _ _ _ _ _ _ _ _ (by decide)⟩

/-- A pass of a program has ended: its block is stamped, and what follows it is queued. -/
def passed (s : State) (d : Nat) (o : DOp) (temp : Int) (busy : Nat) (between : Option (Nat × Nat × Nat)) (p : DOp) : State :=
  let a := (s.dieDone d o temp busy).stampBlk ⟨d, o.blk⟩ temp
  (a.putDie d { a.dieOf d with between := between }).enq d p

theorem passed_spec (s : State) (d : Nat) (o : DOp) (temp : Int) (busy : Nat) (between : Option (Nat × Nat × Nat)) (p : DOp) :
    ((s.passed d o temp busy between p).dieOf d).cur = none ∧ ((s.passed d o temp busy between p).dieOf d).between = between ∧
    ((s.passed d o temp busy between p).dieOf d).queue = (s.dieOf d).queue ++ [{ p with id := s.die.nextId, die := d }] ∧
    ((s.passed d o temp busy between p).blkOf ⟨d, o.blk⟩).wcnt = (s.blkOf ⟨d, o.blk⟩).wcnt + 1 ∧ (s.passed d o temp busy between p).zn = s.zn ∧
    Rests s (s.passed d o temp busy between p) := by
  have hn : (s.dieDone d o temp busy).fresh = s.die.nextId := by
    obtain ⟨kz, hd⟩ := s.dieDone_eq d o temp busy
    rw [hd]
    rfl
  obtain ⟨h₁, h₂, h₃, -, h₅, -⟩ := s.dieDone_spec d o temp busy
  unfold passed
  dsimp only
  generalize s.dieDone d o temp busy = a at hn h₁ h₂ h₃ h₅ ⊢
  have hd : (a.stampBlk ⟨d, o.blk⟩ temp).dieOf d = s.ended d o temp busy := h₁
  generalize hb : a.stampBlk ⟨d, o.blk⟩ temp = b at hd ⊢
  have hf : b.fresh = s.die.nextId := by rw [← hb]; exact hn
  have he : ((b.putDie d { b.dieOf d with between := between }).enq d p).dieOf d =
      { b.dieOf d with between := between, queue := (b.dieOf d).queue ++ [{ p with id := b.fresh, die := d }] } := by
    refine (dieOf_putDie_same ..).trans ?_
    rw [dieOf_putDie_same]
    rfl
  rw [he, hd, hf]
  refine ⟨rfl, rfl, rfl, ?_, ?_, ?_⟩
  · rw [← h₃, ← hb]
    exact congrArg BlkSt.wcnt (blkOf_putBlk_same ..)
  · rw [← h₅, ← hb]
    rfl
  · rw [← hb]
    exact h₂.trans .upd

end State

/-- The winner of a free die runs, its envelope sent or waiting (09 R213–R216). -/
theorem ran_dieIssue {d : Nat} {o : DOp} {s : State} (hw : s.works d = true) (hc : (s.dieOf d).cur = none) (hs : (s.dieOf d).susp = none) (hk : o.kind ≠ .read)
    (ho : s.bestOp ((s.dieOf d).inQueue.filter (fun p => (s.dieOf d).startOk p && !s.noErase p)) = some o) (hh : 0 < (s.link8 (d / 64)).hops.length) :
    Ran (.dieOperationIssue d) s (fun t => (t.dieOf d).cur = some o ∧ (t.dieOf d).merged = [] ∧ (t.dieOf d).curAt = s.el ∧
      (t.dieOf d).queue = s.fillQueue (s.dieOf d) [o] ∧ (∀ e, e ≠ d → t.dieOf e = s.dieOf e) ∧ Enveloped s t d o ∧ t.zn = s.zn) := by
  have hx := s.dieIssue_free (er := []) hw hc (by rw [hs]; exact ite_self _) (by rw [hs]; nofun) ho
  obtain ⟨h₁, h₂, h₃⟩ := s.issueOp_spec d o
  have hall : (o :: s.mergeSet d o).map (s.withOffs d) = [o] := by
    rw [State.mergeSet_none hk]
    exact congrArg (fun p => [p]) (if_neg hk)
  rw [hall] at h₁
  refine ⟨s.issueOp d o, congrArg Host.Outcome.next hx, ?_, ?_, ?_, ?_, h₂, State.issueOp_sent hk hh, h₃⟩
  · rw [h₁]
    rfl
  · rw [h₁]
    rfl
  · rw [h₁]
    rfl
  · rw [h₁]
    rfl

/-- A read that wins runs with those that share its sense (09 R213, R214). -/
theorem ran_dieIssueRead {d : Nat} {o : DOp} {s : State} (hw : s.works d = true) (hc : (s.dieOf d).cur = none) (hs : (s.dieOf d).susp = none) (hk : o.kind = .read)
    (ho : s.bestOp ((s.dieOf d).inQueue.filter (fun p => (s.dieOf d).startOk p && !s.noErase p)) = some o) :
    Ran (.dieOperationIssue d) s (fun t => (t.dieOf d).cur = some { o with lad := { o.lad with offs := s.readOffs d o } } ∧
      (t.dieOf d).merged.map (·.id) = (s.mergeSet d o).map (·.id) ∧ (t.dieOf d).curAt = s.el ∧
      (t.dieOf d).queue = s.fillQueue (s.dieOf d) (o :: s.mergeSet d o) ∧ (∀ e, e ≠ d → t.dieOf e = s.dieOf e) ∧ t.zn = s.zn) := by
  have hx := s.dieIssue_free (er := []) hw hc (by rw [hs]; exact ite_self _) (by rw [hs]; nofun) ho
  obtain ⟨h₁, h₂, h₃⟩ := s.issueOp_spec d o
  have hids (l : List DOp) : (l.map (s.withOffs d)).map (·.id) = l.map (·.id) := by
    rw [List.map_map]
    exact List.map_congr_left fun p _ => s.running_id d p
  refine ⟨s.issueOp d o, congrArg Host.Outcome.next hx, ?_, ?_, ?_, ?_, h₂, h₃⟩
  · rw [h₁]
    exact congrArg some (if_pos hk)
  · rw [h₁]
    exact hids _
  · rw [h₁]
    rfl
  · rw [h₁]
    exact State.fillQueue_ids (hids _)

/-- The winner runs inside the suspended erase (09 R216). -/
theorem ran_eraseSuspended {d prog : Nat} {temp : Int} {o r : DOp} {s s1 : State} (hc : (s.dieOf d).cur = some o) (hk : o.kind = .erase) (hst : o.step = 1)
    (hw : s.works d = true)
    (hs : s1 = s.putDie d { s.dieOf d with cur := none, susp := some { o with step := 0, sus := o.sus + 1, ran := prog }, temp := temp })
    (hr : s1.bestOp ((if (s.dieOf d).between.isNone then [{ o with step := 0, sus := o.sus + 1, ran := prog }] else []) ++
      (s.dieOf d).inQueue.filter (fun p => (s1.dieOf d).startOk p && !s1.noErase p)) = some r) (hrr : r.kind ≠ .read) (hre : r.kind ≠ .erase) :
    Ran (.eraseSuspended d temp prog) s (fun t => (t.dieOf d).susp = some { o with step := 0, sus := o.sus + 1, ran := prog } ∧
      (t.dieOf d).cur = some r ∧ (∀ e, e ≠ d → t.dieOf e = s.dieOf e) ∧ t.zn = s.zn) := by
  have hd : s1.dieOf d = { s.dieOf d with cur := none, susp := some { o with step := 0, sus := o.sus + 1, ran := prog }, temp := temp } := by
    rw [hs]
    exact State.dieOf_putDie_same ..
  have hne (e : Nat) (he : e ≠ d) : s1.dieOf e = s.dieOf e := by
    rw [hs]
    exact State.dieOf_putDie_ne s _ he
  have hz : s1.zn = s.zn := by rw [hs]; rfl
  have hw₁ : s1.works d = true := by
    rw [State.works, hd]
    exact hw
  have hx : execEraseSuspended d temp prog s = .next (s1.dieIssue d) := by
    unfold execEraseSuspended
    dsimp only
    rw [hc]
    dsimp only
    rw [if_neg (by rw [hk, hst]; decide), hs]
  have hi : s1.dieIssue d = s1.issueOp d r := by
    refine s1.dieIssue_free hw₁ (by rw [hd]) (by rfl) ?_ ?_
    · rw [hd]
      exact fun h => hre (Option.some.inj h ▸ hk)
    · rw [hd] at hr ⊢
      exact hr
  obtain ⟨h₁, h₂, h₃⟩ := s1.issueOp_spec d r
  have hall : (r :: s1.mergeSet d r).map (s1.withOffs d) = [r] := by
    rw [State.mergeSet_none hrr]
    exact congrArg (fun p => [p]) (if_neg hrr)
  rw [hall] at h₁
  refine ⟨s1.issueOp d r, hx.trans (congrArg Host.Outcome.next hi), ?_, ?_, fun e he => (h₂ e he).trans (hne e he), h₃.trans hz⟩
  · rw [h₁, State.running, hd]
  · rw [h₁]
    rfl

/-- READ DATA puts a read's codeword into the raw sense buffer (10 R240, R241; 09 R212). -/
theorem ran_dieReadDone {d busy : Nat} {temp : Int} {o : DOp} {s : State} (hc : (s.dieOf d).cur = some o) (hm : (s.dieOf d).merged = []) (hk : o.kind = .read)
    (hh : o.purp = .host → s.live o.slice o.q o.genS o.genQ = true ∧ (s.cmdFor o.q o.cid o.arr).isSome = true)
    (hr : o.purp = .recon → s.live o.slice o.q o.genS o.genQ = true) (hw : ∀ w ∈ s.die.cws, w.id ≠ s.die.nextId) (hs : Still s) :
    Ran (.dieReadDone d temp busy []) s (fun t => (∃ w ∈ t.die.cws, w.die = d ∧ w.op = o ∧ w.faults = 0) ∧ (t.dieOf d).cur = none ∧
      (t.dieOf d).temp = temp ∧ t.zn = s.zn) := by
  have hx : execDieReadDone d temp busy [] s = .next ((s.dieDone d o temp busy).sensed d o).resumeAll := by
    have hb : s.readBack d temp busy [] = ((s.dieDone d o temp busy).sensed d o).resumeAll := by
      unfold State.readBack
      dsimp only
      rw [hc]
      dsimp only
      rw [if_neg (by rw [hk]; decide), hm]
      rfl
    exact congrArg Host.Outcome.next hb
  obtain ⟨kz, hd⟩ := s.dieDone_eq d o temp busy
  have hsn : (s.dieDone d o temp busy).sensed d o = (s.dieDone d o temp busy).toBuffer d o := by
    rw [hd]
    exact State.sensed_live hh hr
  obtain ⟨h₁, h₂, -, -, h₅, -⟩ := s.dieDone_spec d o temp busy
  have hn : ∀ w ∈ (s.dieDone d o temp busy).die.cws, w.id ≠ (s.dieDone d o temp busy).die.nextId := by
    rw [hd]
    exact hw
  rw [hsn] at hx
  generalize s.dieDone d o temp busy = a at hx hn h₁ h₂ h₅
  obtain ⟨k₁, k₂, k₃, k₄⟩ := State.toBuffer_spec o hn
  rw [State.resumeAll_still (k₄.still (h₂.still hs))] at hx
  refine ⟨a.toBuffer d o, hx, k₁, ?_, ?_, k₃.trans h₅⟩
  · rw [k₂, h₁]
    rfl
  · rw [k₂, h₁]
    rfl

/-- A pass that ended queues what follows it (09 R209, R219, R220). -/
theorem ran_programDone {d busy : Nat} {temp : Int} {o : DOp} {s : State} (hc : (s.dieOf d).cur = some o) (hs : Still s) :
    (o.kind = .coarse → Ran (.programDone d temp busy) s (fun t => (t.dieOf d).cur = none ∧ (t.dieOf d).between = some (o.blk, o.page, s.el) ∧
      (t.dieOf d).queue = (s.dieOf d).queue ++ [{ o with kind := .fine, id := s.die.nextId, die := d }] ∧
      (t.blkOf ⟨d, o.blk⟩).wcnt = (s.blkOf ⟨d, o.blk⟩).wcnt + 1 ∧ t.zn = s.zn)) ∧
    (o.kind = .fine → Ran (.programDone d temp busy) s (fun t => (t.dieOf d).cur = none ∧ (t.dieOf d).between = none ∧
      (t.dieOf d).queue = (s.dieOf d).queue ++ [{ verifyOp o with id := s.die.nextId, die := d }] ∧
      (t.blkOf ⟨d, o.blk⟩).wcnt = (s.blkOf ⟨d, o.blk⟩).wcnt + 1 ∧ t.zn = s.zn)) := by
  have hn {k : OpKind} (hk : o.kind = k) (hr : k ≠ .read) (he : k ≠ .erase) : ¬(o.kind = .read || o.kind = .erase) = true := by
    rw [hk, decide_eq_false hr, decide_eq_false he]
    decide
  have run (between : Option (Nat × Nat × Nat)) (p : DOp) (hx : execProgramDone d temp busy s = .next (s.passed d o temp busy between p).resumeAll) :
      Ran (.programDone d temp busy) s (fun t => (t.dieOf d).cur = none ∧ (t.dieOf d).between = between ∧
        (t.dieOf d).queue = (s.dieOf d).queue ++ [{ p with id := s.die.nextId, die := d }] ∧
        (t.blkOf ⟨d, o.blk⟩).wcnt = (s.blkOf ⟨d, o.blk⟩).wcnt + 1 ∧ t.zn = s.zn) := by
    obtain ⟨h₁, h₂, h₃, h₄, h₅, h₆⟩ := s.passed_spec d o temp busy between p
    rw [State.resumeAll_still (h₆.still hs)] at hx
    exact ⟨_, hx, h₁, h₂, h₃, h₄, h₅⟩
  have hel : ((s.dieDone d o temp busy).stampBlk ⟨d, o.blk⟩ temp).el = s.el := by
    obtain ⟨kz, hd⟩ := s.dieDone_eq d o temp busy
    rw [hd]
    rfl
  constructor
  · intro hk
    refine run (some (o.blk, o.page, s.el)) { o with kind := .fine } ?_
    unfold execProgramDone
    dsimp only
    rw [hc]
    dsimp only
    rw [if_neg (hn hk (by decide) (by decide)), if_neg (by rw [hk]; decide), if_pos hk, hel]
    rfl
  · intro hk
    refine run none (verifyOp o) ?_
    unfold execProgramDone
    dsimp only
    rw [hc]
    dsimp only
    rw [if_neg (hn hk (by decide) (by decide)), if_neg (by rw [hk]; decide), if_neg (by rw [hk]; decide), if_neg (by rw [hk]; exact Bool.false_ne_true),
      if_neg (by rw [hk]; decide)]
    rfl

/-- After 50 ms the fine pass contends at once (09 R209). -/
theorem ran_finePassUrgent {d b w at0 : Nat} {s : State} (hb : (s.dieOf d).between = some (b, w, at0)) (ht : at0 + 50000000 ≤ s.el) :
    Ran (.finePassUrgent d) s (fun t => (t.dieOf d).queue = (s.dieOf d).queue.map (fun (o : DOp) =>
        if (o.kind = .fine ∨ o.kind = .foldF) ∧ o.blk = b ∧ o.page = w then { o with idle := false, bg := none, dl := min o.dl s.el } else o) ∧
      (∀ e, e ≠ d → t.dieOf e = s.dieOf e) ∧ t.regs = s.regs) := by
  have hx : execFinePassUrgent d s = .next (s.putDie d { s.dieOf d with queue := (s.dieOf d).queue.map (fun (o : DOp) =>
      if (o.kind = .fine || o.kind = .foldF) && o.blk = b && o.page = w then { o with idle := false, bg := none, dl := min o.dl s.el } else o) }) := by
    unfold execFinePassUrgent
    dsimp only
    rw [hb]
    exact congrArg Host.Outcome.next (if_neg (Nat.not_lt.2 ht))
  refine ⟨_, hx, ?_, fun e he => State.dieOf_putDie_ne s _ he, rfl⟩
  rw [State.dieOf_putDie_same]
  refine List.map_congr_left fun o _ => if_congr ?_ rfl rfl
  simp [and_assoc]

/-- Settles O20. -/
theorem dieOperationsComplete : Obligations.DieOperationsComplete := by
  unfold Obligations.DieOperationsComplete
  exact ⟨fun _ _ _ hw hc hs hk ho hh => ran_dieIssue hw hc hs hk ho hh, fun _ _ _ hw hc hs hk ho => ran_dieIssueRead hw hc hs hk ho,
    fun _ _ _ _ _ hc hm hk hh hr hw hs => ran_dieReadDone hc hm hk hh hr hw hs, fun _ _ _ _ _ hc hs => ran_programDone hc hs,
    fun _ _ _ _ _ _ _ hc hk hst hw hs hr hrr hre => ran_eraseSuspended hc hk hst hw hs hr hrr hre, fun _ _ _ _ _ hb ht => ran_finePassUrgent hb ht⟩

end Sys2Proof.Machine

end


section
/-! O35: power-limit steps, sensors and the regulator (01 R19, R20; 16 R362, R363; 18 R398, R405–R413). The obligation speaks of every state, and a
state's register file may hold at PWR_STEP.STEP, 4 bits wide, more than those bits can show: no step writes such a value, but no hypothesis excludes it. A
fallback writes the step before it, cut to 4 bits (18 R407). -/

namespace Sys2Proof.Machine

namespace State
variable {s : State}

/-! ### A move of the step (18 R405–R407) -/

/-- What follows a move of the step: its reason, the power state, the pace floor, admission and width, and the event. -/
def Scope.follow : Scope where
  merge s t := { Scope.event.merge s t with pwr := t.pwr }
  fields := [F.PWR_STEP_RSN, F.PWR_ENTRY_CNT_CNT, F.PWR_STS_STATE, F.PWR_STEP_FLOOR] ++ eventFields

theorem lean_follow (s : State) : Only Scope.follow.bound s s.lean := by
  unfold lean
  exact .ite (.refl _) (.after (.wr (by decide) ..) (.ite (.inc (by decide) ..) (.refl _)))

theorem settleStep_follow (s : State) : Only Scope.follow.bound s s.settleStep :=
  (settleStep_settle s).widen (d := Scope.follow) (fun _ _ => rfl) (by decide)

theorem raise_follow (s : State) (code sl arg : Nat) : Only Scope.follow.bound s (s.raise code sl arg) :=
  (Only.Event.raise s code sl arg).widen (d := Scope.follow) (fun _ _ => rfl) (by decide)

/-- A move leaves the step it was given, cut to the register's width. -/
theorem rd_moveStep (s : State) (n rsn : Nat) : (s.moveStep n rsn).rd F.PWR_STEP_STEP = cut F.PWR_STEP_STEP.w n := by
  have h : Only Scope.follow.bound (s.wr F.PWR_STEP_STEP n) (s.moveStep n rsn) :=
    .after (raise_follow ..) (.after (settleStep_follow _) (.after (lean_follow _) (.wr (by decide) ..)))
  exact (h.regs F.PWR_STEP_STEP 0 0 0 (by decide)).trans (rd_wr_same ..)

/-- Where the sources call for a lower step, and the thermal step is 0, the fallback goes one step down (18 R407). -/
theorem thermalStepFallback_moves (hs : s.stopped = false) (ht : s.pwr.moveAt + s.rd F.THM_CFG_UP_MS * 10000000 ≤ s.el)
    (hk : s.rd F.PWR_STEP_THERM = 0) (hw : s.stepWant.1 < s.rd F.PWR_STEP_STEP) :
    ∃ rsn, execThermalStepFallback s = .next (({ s with pwr := { s.pwr with moveAt := s.el } } : State).moveStep (s.rd F.PWR_STEP_STEP - 1) rsn) := by
  have hgo : ¬(s.stopped || decide (s.el < s.pwr.moveAt + s.rd F.THM_CFG_UP_MS * 10000000)) = true := by
    rw [hs, decide_eq_false (Nat.not_lt.2 ht)]
    decide
  unfold execThermalStepFallback
  rw [if_neg hgo]
  dsimp only
  rw [hk]
  exact ⟨_, congrArg Host.Outcome.next (if_pos hw)⟩

/-- The state after reset, 1 s later, with 17 held at PWR_STEP.STEP. -/
def overStep : State :=
  { State.reset with
    tim := { State.reset.tim with elFx := 1000000000 * 2 ^ 32 }
    regs := Regs.set ⟨F.PWR_STEP_STEP.id, 0, 0, 0⟩ 17 State.reset.regs }

theorem overStep_step : overStep.rd F.PWR_STEP_STEP = 17 := by decide +kernel

theorem overStep_falls : overStep.stopped = false ∧ overStep.pwr.moveAt + overStep.rd F.THM_CFG_UP_MS * 10000000 ≤ overStep.el ∧
    overStep.rd F.PWR_STEP_THERM = 0 ∧ overStep.stepWant.1 < overStep.rd F.PWR_STEP_STEP := by decide +kernel

end State

/-- Refutes O35: with 17 held at PWR_STEP.STEP, of 4 bits, a fallback leaves 0 and not 16. Where the register holds what its 4 bits can show, a fallback
leaves the step before it (`State.rd_moveStep`). -/
theorem not_powerStepsComplete : ¬ Obligations.PowerStepsComplete := by
  unfold Obligations.PowerStepsComplete
  rintro ⟨-, -, -, -, -, -, -, -, hfall, -⟩
  obtain ⟨hs, ht, hk, hw⟩ := State.overStep_falls
  obtain ⟨rsn, hx⟩ := State.thermalStepFallback_moves hs ht hk hw
  obtain ⟨t, hrun, hstep, -⟩ := hfall State.overStep hs ht hk hw
  have he : t = ({ State.overStep with pwr := { State.overStep.pwr with moveAt := State.overStep.el } } : State).moveStep
      (State.overStep.rd F.PWR_STEP_STEP - 1) rsn := Host.Outcome.next.inj (hrun.symm.trans hx)
  rw [he, State.rd_moveStep, State.overStep_step] at hstep
  exact absurd hstep (by decide)

end Sys2Proof.Machine

end


section
/-! O37: the ledger's epoch, doorbells and fetch (03 R65, R68, R73, R78, R79). The obligation speaks of every state, and a state's table of queues may list
two queues under one device index: no step lists a second one, but no hypothesis excludes it. A doorbell finds its queue by function and identifier, and
the table answers the first one under the index. -/

namespace Sys2Proof.Machine

namespace State

/-- Two queues of function 0 stand under device index 0: one with identifier 1 and tail 5, and one with identifier 2 and tail 3. -/
def twinQueues : State :=
  { State.reset with
    img := { State.reset.img with por := true }
    fns := [(0, ⟨true, true, true, false, true, true, 0, 4, false, 0, 0, []⟩)]
    sl := { State.reset.sl with qs := [(0, ⟨0, 0, 0, none, false, 0, 0, 1, 2, false, 0, 1, 16, 0, 5, 0, 0, 0, false, [], 0, []⟩),
      (0, ⟨0, 0, 0, none, false, 0, 0, 2, 2, false, 0, 2, 16, 0, 3, 0, 0, 0, false, [], 0, []⟩)] } }

theorem twinQueues_serves : twinQueues.counting = true ∧ twinQueues.awake = true ∧ twinQueues.slState 0 ≠ slResetting ∧ twinQueues.resetting 0 = false := by
  decide +kernel

theorem twinQueues_finds : twinQueues.sl.qs.find? (fun e => !e.2.fabric && e.2.func = 0 && e.2.qid = 2) =
    some (0, ⟨0, 0, 0, none, false, 0, 0, 2, 2, false, 0, 2, 16, 0, 3, 0, 0, 0, false, [], 0, []⟩) := rfl

/-- A doorbell past the end of the second queue leaves the first one under their index. -/
theorem twinQueues_doorbell : ∃ t, execDoorbellWrite 0 2 false 16 twinQueues = .next t ∧ (Tab.find 0 t.sl.qs).map (·.tail) = some 5 := by
  refine ⟨_, rfl, ?_⟩
  decide +kernel

end State

/-- Refutes O37: of two queues listed under one device index, a doorbell past the end of the second leaves under that index the first, whose tail is
another. With one queue under the index it is the queue itself that is left as it was. -/
theorem not_ledgerAndDoorbellsComplete : ¬ Obligations.LedgerAndDoorbellsComplete := by
  unfold Obligations.LedgerAndDoorbellsComplete
  rintro ⟨-, -, hbell, -⟩
  obtain ⟨hc, ha, hr, hq⟩ := State.twinQueues_serves
  obtain ⟨t, hrun, -, -, r, hf, ht, -⟩ := (hbell 0 2 16 0 _ _ State.twinQueues rfl hc ha State.twinQueues_finds hr hq).2 (Nat.le_refl 16)
  obtain ⟨u, hu, h5⟩ := State.twinQueues_doorbell
  obtain rfl : t = u := Host.Outcome.next.inj (hrun.symm.trans hu)
  rw [hf] at h5
  exact absurd ((Option.some.inj h5).symm.trans ht) (by decide)

end Sys2Proof.Machine

end
